-- ==== Sys2Proof/Word.lean ====
section
/-! DEFINITION. The words of the module and the one shape of its sparse tables: a byte, a 64-bit word, a table of
(index, entry) pairs. -/

namespace Sys2Proof

/-- One byte, as the manual counts memory, images, records and buffers. -/
abbrev Byte := BitVec 8

/-- A 64-bit word: a general register of a reel context (R265), a BAR 2 register (R566). -/
abbrev Word := BitVec 64

/-- A table of like things by number, holding only the entries that differ from the table's own default: strictly
rising indexes, no entry equal to the default. -/
abbrev SMap (V : Type) := List (Nat × V)

/-- The 32 bits of `w` that a 4-byte access of the lower half reaches. -/
def lowHalf (w : Word) : BitVec 32 := w.extractLsb' 0 32

/-- The 32 bits of `w` that a 4-byte access of the upper half reaches. -/
def highHalf (w : Word) : BitVec 32 := w.extractLsb' 32 32

end Sys2Proof
end

