-- ==== Sys2Proof/Syntax.lean ====
section
/-! DEFINITION. The commands of the module, one constructor per row of the opcode table, and the records that are
their operands. A host command carries the dwords the host wrote; an event carries what the manual says the event
measures or names. -/

namespace Sys2Proof

/-- Where an NVMe command came from and what its common dwords say (R344 to R346, R421, R427). -/
structure HostCmd where
  /-- Host port, 0 or 1. -/
  port : Nat
  /-- Compartment whose controller it was sent to; 0 is the steward controller of `port`. -/
  comp : Nat
  /-- Submission queue; 0 is the admin queue. -/
  qid : Nat
  /-- Command identifier. -/
  cid : Nat
  /-- Namespace identifier. -/
  nsid : Nat
  /-- A fused bit is set (R421). -/
  fused : Bool
  /-- A reserved field of the command is not 0 (R427, R248, R252, R430). -/
  rsvd : Bool
deriving DecidableEq, Repr

/-- The dwords of a read or write (R66, R423). -/
structure IoArgs where
  /-- Starting LBA; the zone's ZSLBA for an append. -/
  slba : Nat
  /-- Number of logical blocks, counted from 1. -/
  nlb : Nat
  pract : Bool
  /-- Bit 0 reference tag, bit 1 application tag, bit 2 guard. -/
  prchk : BitVec 3
  lbat : BitVec 16
  lbatm : BitVec 16
  ilbrt : Nat
deriving DecidableEq, Repr

/-- One LBA's protection information as it crossed the link (R422, R423). -/
structure PiTuple where
  guard : Word
  app : BitVec 16
  ref : Nat
deriving DecidableEq, Repr

/-- How the blocks took an option commit (R199, R200, R552). -/
structure CommitReport where
  /-- Bit i: copy i reads back correctly. -/
  readBack : BitVec 4
  /-- Each entry names a copy whose next block fails its erase or program. -/
  failed : List Nat
deriving DecidableEq, Repr

/-- What an on-die memory macro belongs to (R399). -/
inductive MacroOwner where
  /-- A unit, by the kind and instance of its source. -/
  | unit (kind inst : Nat)
  /-- A buffer of a cluster's SRAM: its cluster and pool. -/
  | buffers (cluster pool : Nat)
deriving DecidableEq, Repr

/-- What one reset step found (R197). -/
inductive BootReport where
  /-- The step's ready condition alone. -/
  | ready
  /-- Step 4: the three samples of the straps (R460). -/
  | fuses (s1 s2 s3 : Nat)
  /-- Step 7: words that failed the self-test (macro, word, owner of the macro), and units whose checker failed (kind,
  instance). -/
  | selfTest (words : List (Nat × Nat × MacroOwner)) (checkers : List (Nat × Nat))
  /-- Step 8: devices that failed their patterns (channel, device) and channels that failed training. -/
  | dram (badDevices : List (Nat × Nat)) (badChannels : List Nat)
deriving DecidableEq, Repr

/-- Why a port is lost (R412, R434). -/
inductive LossCause where
  | perst | flr | dlDown
deriving DecidableEq, Repr

/-- Why power loss is declared (R219). -/
inductive InputCause where
  | low | high | pwrEn
deriving DecidableEq, Repr

/-- One reading of a ring-oscillator sensor (R499, R500). -/
structure SensorReading where
  idx : Nat
  /-- °C + 40. -/
  temp : Nat
  /-- The count lies inside the range the fuses allow. -/
  inRange : Bool
deriving DecidableEq, Repr

/-- What a fan start step saw (R513). -/
inductive FanStart where
  /-- Begins a start: the clamp test, with its outcome. -/
  | clampTest (good : Bool)
  /-- The 50 ms measurement ended; speed as a signed per mille of the rated speed. -/
  | measured (permille : Int)
  /-- Back-EMF fell below 1 % of rated speed. -/
  | standstill
  /-- 300 ms of alignment elapsed. -/
  | aligned
  /-- The ramp reached 12 % of rated speed. -/
  | ramped
  /-- The step missed its bound. -/
  | missed
deriving DecidableEq, Repr

/-- The faults of a fan output (R516). -/
inductive FanFaultCause where
  | stall | startFail | overcurrent | openPhase | speedLow
deriving DecidableEq, Repr

/-- Whose transfer met a host DMA fault (R434). -/
inductive DmaVictim where
  | seg (flight seg : Nat)
  | flight (flight : Nat)
  | ticket (ctx ticket : Nat)
deriving DecidableEq, Repr

/-- Whose squash instant comes (R361, R412, R413). -/
inductive SquashTarget where
  | compartment (comp : Nat)
  | controller (port : Nat)
deriving DecidableEq, Repr

/-- The area of a DRAM word, as an uncorrectable word's consumer meets it (R400, R405). -/
inductive DramArea where
  | image (inst off : Nat)
  | buffer (handle off : Nat)
  | seg (flight seg : Nat) (both : Bool)
  | zoneEntry (zone : Nat) (both : Bool)
  | convEntry (unit : Nat) (both : Bool)
  | freeStore (area part pool : Nat)
  | front (zone : Nat) (both : Bool)
  | fixed
deriving DecidableEq, Repr

/-- The result of one DRAM scrub read (R398, R400, R404). -/
inductive DramScrub where
  | clean (pct : Nat) (passDone : Bool)
  | corrected (channel device frame : Nat) (area : DramArea)
  | uncorrectable (channel frame : Nat) (area : DramArea)
deriving DecidableEq, Repr

/-- The memory a macro of on-die SRAM belongs to (R399, R405). -/
inductive SramArea where
  | scratch (ctx off : Nat)
  | readBuffer (flight : Nat)
  | poolBuffer (handle off : Nat)
  | unit (kind inst : Nat)
  | other
deriving DecidableEq, Repr

/-- The result of one SRAM scrub read (R399, R404). -/
inductive SramScrub where
  | clean (pct : Nat)
  | corrected (macro_ word : Nat) (area : SramArea)
  | uncorrectable (macro_ word : Nat) (area : SramArea)
deriving DecidableEq, Repr

/-- Create I/O queue dwords (R346, R415, R416). -/
structure CreateQ where
  qid : Nat
  /-- Entries, counted from 1. -/
  size : Nat
  /-- CDW13 [31] and [19:0]. -/
  pasid : Option Nat
  cqid : Nat
  vector : Nat
  ien : Bool
  /-- Physically contiguous. -/
  pc : Bool
  base : Nat
deriving DecidableEq, Repr

/-- Reel Start dwords and what the named addresses hold (R318, R427). -/
structure ReelArgs where
  source : Nat
  comp : Nat
  pasid : Option Nat
  /-- Host address, cache handle or slot. -/
  place : Nat
  /-- The image as read from host memory, for source 0. -/
  image : List Byte
  /-- g1 to g7 of the argument block. -/
  args : List Word
  /-- Host memory answered the reads. -/
  readOk : Bool
deriving DecidableEq, Repr

/-- Event Ring Setup dwords (R427, R428). -/
structure RingArgs where
  records : Nat
  base : Nat
  pasid : Option Nat
  vector : Nat
deriving DecidableEq, Repr

/-- The operand fields of a Krytfer instruction word and the context that issues it (R272). The opcode is the
command's own. -/
structure KWord where
  /-- Context index, caller × 4 + context. -/
  ctx : Nat
  d : BitVec 5
  a : BitVec 5
  b : BitVec 5
  mod : BitVec 9
  imm : BitVec 32
deriving DecidableEq, Repr

/-- How a line fill ended (R333). -/
inductive FillResult where
  | filled | crcMismatch | hostFault (status : Nat) | noReplica
  /-- The fill had to suspend a die. -/
  | filledSuspended
deriving DecidableEq, Repr

/-- The fields of `CPL_MIRROR_CMD` (R541) and what the exchange with the neighbour says of its side. -/
structure MirrorArgs where
  mirrorRole : Bool
  pgroup : Nat
  peer : Nat
  peerPgroup : Nat
  owner : Nat
  zone : Nat
  /-- The neighbour's placement group carries a namespace: (NSID, 16 KiB format, zones). -/
  peerNs : Option (Nat × Bool × Nat)
  /-- The neighbour's own bind agrees. -/
  peerBound : Bool
deriving DecidableEq, Repr

/-- A coupler flit as it arrives (R519, R520, R524). -/
inductive Flit where
  /-- Its CRC fails. -/
  | corrupt
  /-- Acknowledgement of the flits up to a number. -/
  | ack (upTo : Nat)
  /-- Negative acknowledgement of a flit. -/
  | nak (seq : Nat)
  /-- A heartbeat: sender, its state, the members it has heard. -/
  | heartbeat (sender : Nat) (sleeping : Bool) (heard : BitVec 8)
  /-- An idle or credit flit. -/
  | idle
  /-- A zone action on the other side of a pair, or a confirmation that a reduced finish must be followed: neighbour,
  local placement group, zone number, action (0 open, 1 close, 2 finish, 3 reset, 4 offline, 5 finish with reduced
  capacity) and, for action 5, the write pointer in 4 KiB units. -/
  | zoneAction (peer pgroup zoneNo act wp : Nat)
  /-- The neighbour's bind agrees with the bind of a local placement group that waits for it. -/
  | bindAgrees (peer pgroup : Nat)
  /-- The neighbour has unbound the pair of a local placement group. -/
  | unbound (peer pgroup : Nat)
  /-- The primary starts a resync of these zones of a local placement group. -/
  | resync (peer pgroup : Nat) (zones : List Nat)
  /-- The answer to a read that this module forwarded. -/
  | readReply (flight : Nat) (ok : Bool) (data : List Byte)
  /-- What a member says of its time base: may lead, locked to PPS. -/
  | timeStatus (member : Nat) (leads locked : Bool)
deriving DecidableEq, Repr

/-- One measurement window of FAN_CMD (R457). -/
inductive FanCmdSample where
  /-- Mean of 16 samples in mV. -/
  | analogue (mv : Nat)
  /-- High time per mille and frequency in Hz over 10 ms; 0 Hz with the level for a constant input. -/
  | duty (permille hz : Nat) (level : Bool)
  /-- Frequency in Hz over 2 s. -/
  | frequency (hz : Nat)
deriving DecidableEq, Repr

/-- The commands, in the order of the opcode table. -/
inductive Instr where
  /-- The PX input and PWR_EN are both valid for 10 ms, and the module runs the reset sequence from step 1 towards the Parked state. (R197) -/
  | powerOn (vIn : Nat) (pwrEn restored : Bool)
  /-- A reset step's ready condition is met and the next step of the power-on sequence starts. (R197) -/
  | bootStepAdvance (b : BootReport)
  /-- A reset step exceeds its bound, so the module stops at that step, sets stalled in GLB_BOOT and keeps MOD_OK low. (R197) -/
  | bootStepStall
  /-- A port's PERST input is released, and the port starts link training. (R197) -/
  | perstRelease (port : Nat)
  /-- A PCIe port completes training; its rate and width are recorded and degraded is set if it trained below 64 GT/s or full width. (R434) -/
  | portLinkUp (port rate width : Nat)
  /-- PERST assertion, FLR or DL_Down loses a port: fetch stops, the port's steward controller and its compartments are reset, and event 0x0101 is posted. (R412) -/
  | portLost (port : Nat) (cause : LossCause)
  /-- Input below 8.0 V or above 63 V for 20 µs, or PWR_EN falling, declares power loss and starts the hold-up flush at step 1. (R219) -/
  | powerLossDeclared (cause : InputCause)
  /-- Every program of the previous flush step completes, and the flush issues the programs of its next step, up to the marker and core-off. (R219) -/
  | flushStep
  /-- The bank falls to 16 V before the marker is written, so no further programs are issued and the module turns off. (R220) -/
  | bankLowStop
  /-- Input returns during a flush; the flush completes and the module restarts at step 1 with cause 1. (R221) -/
  | inputRestored
  /-- The PX input enters or leaves the under-range or over-range band, and the matching event is posted. (R222) -/
  | inputRangeChange (vIn : Nat)
  /-- At a mount or every 24 h, the bank's capacitance and ESR are measured and the acknowledged-dirty limit is recomputed. (R215) -/
  | bankMeasurement (cap esr : Nat)
  /-- Writing 1 to meas_start starts a bank measurement unless one is already in progress. (R218) -/
  | measStart
  /-- At each 1 ms boundary, credits and read-around allowances are reset, budgets are apportioned, and pending mode and configuration changes take effect. (R129) -/
  | creditWindowBoundary (pAvg iIn : Nat)
  /-- The periodic 10 µs check of the core regulator phases moves a failed phase's share to the others and limits the mode if needed. (R465) -/
  | corePhaseCheck (failed : BitVec 9)
  /-- A clock domain has been idle for 4 µs, so its clock stops. (R34) -/
  | clockIdleStop (domain : Nat)
  /-- idle_us passes without activity, and the module enters Idle. (R474) -/
  | idleTimerExpiry
  /-- The condition of a Sleep, Deep Sleep or Off entry step is met, and the entry advances to its next step. (R476) -/
  | sleepEntryStep
  /-- An enabled wake source fires: it starts a wake from Sleep, Deep Sleep or Off, aborts an entry in progress, or has its ordinary effect while awake. (R482) -/
  | wakeSourceFired (mask : BitVec 9)
  /-- The ready signal of a wake step is asserted and the next wake step starts, until LOGIC_RDY and link recovery. (R484) -/
  | wakeStep (elapsedUs : Nat)
  /-- A wake step misses its bound, so the module holds at that step and lowers MOD_OK. (R484) -/
  | wakeStepTimeout
  /-- TIM_NOW reaches PWR_WAKE_TIMER; the module wakes, or while awake posts event 0x0C0F and disarms the timer. (R482) -/
  | wakeTimerExpiry
  /-- A closing domain reaches close_ms with work outstanding, so its remaining transfers are squashed with status 0x85. (R489) -/
  | domainCloseForced (domain : Nat) (victims : List HostCmd)
  /-- An accepted PPS_IN rising edge is stamped and the time base slews, steps or holds the edge according to the error. (R494) -/
  | ppsEdge (stamp : Nat)
  /-- A PPS_IN edge fails its high time or low time, so it is discarded and event 0x0B01 is posted. (R455) -/
  | ppsEdgeDiscarded (highNs lowNs : Nat)
  /-- No PPS edge is accepted for 1.5 s, so the time base clears locked, sets holdover and posts event 0x0C08. (R495) -/
  | ppsLoss
  /-- The drift bound accumulated in hold-over exceeds 0.5 s, and sec_suspect is set. (R495) -/
  | secSuspectLimit
  /-- Every ptm_ms, a PTM dialog runs, and the time base slews towards the master time when PTM is its source. (R496) -/
  | ptmDialog (master : Nat)
  /-- TIM_NOW reaches its maximum, sticks there, sets saturated and posts event 0x0C0B. (R492) -/
  | timNowSaturation
  /-- TIM_NOW reaches a whole second with pps_out_en set, so PPS_OUT rises. (R456) -/
  | ppsOutPulse
  /-- The 10 ms high time of PPS_OUT ends and the output falls. (R456) -/
  | ppsOutPulseEnd
  /-- The live MOD_ID straps differ from the sampled value, so src_id_changed is set and event 0x0B00 is posted. (R460) -/
  | modIdChange (live : Nat)
  /-- A coupler cable-present input changes, is debounced for 10 ms, enables or idles the port, and posts event 0x0B03. (R446) -/
  | cablePresentChange (port : Nat) (mated : Bool)
  /-- The periodic controller-die sensor reading is judged against the thermal limits, entering Notice, Critical or Trip as they require. (R499) -/
  | dieSensorReading (stamp : Nat) (readings : List SensorReading)
  /-- The periodic 1 s flash-die temperature read is judged against the flash limits. (R499) -/
  | flashTemperatureRead (stamp die temp : Nat)
  /-- The six board sensors are read every 100 ms. (R499) -/
  | boardSensorReading (temps : List Nat)
  /-- A grace window ends, and the Enforce step rises, falls or stays according to the readings in it. (R503) -/
  | graceWindowEnd
  /-- Every 10 ms the fan command is recomputed from the thermal loop, FAN_CMD and the level in force. (R511) -/
  | fanCommandUpdate (rpms duties : List Nat)
  /-- A fan output starts or advances a start step: clamp test, measure, brake, align, ramp or hand-over. (R513) -/
  | fanStartStep (out : Nat) (ev : FanStart)
  /-- A back-EMF zero crossing times the next commutation of a running fan output. (R514) -/
  | fanZeroCrossing (out now_ : Nat)
  /-- A stall, start failure, overcurrent, open phase or low speed stops the output and sets its fault bit. (R516) -/
  | fanFault (out : Nat) (cause : FanFaultCause)
  /-- 5 s after a fault, a faulted fan output retries its start, or is held off after three failed retries. (R516) -/
  | fanRetry (out : Nat)
  /-- An output has run 10 s without fault, so it no longer counts as lost and event 0x0D06 is posted. (R516) -/
  | fanRecovered (out : Nat)
  /-- Writing 1 to a held_off bit clears it and starts a retry of that output. (R516) -/
  | heldOffClear (out : Nat)
  /-- The fan rail crosses a clamp, 28 V or 30 V threshold, changing the braking method or cutting the gates. (R515) -/
  | fanRailThreshold (volts : Nat)
  /-- Three bridge heartbeats are missed, so the region asks the power manager, which confirms a failed region or a failed bridge. (R47) -/
  | regionHeartbeatMiss (asking : Nat) (otherHeard : Bool)
  /-- A region that cannot keep its state consistent declares itself failed, stops its units and ceases its heartbeats. (R46) -/
  | regionSelfFailure (region : Nat)
  /-- Every command in flight at the region fault has completed, and the takeover ends. (R48) -/
  | takeoverDrainComplete
  /-- A caller holding work retires no instruction for 100 µs, so it is declared failed and its reels are relieved. (R50) -/
  | callerWatchdogExpiry (caller : Nat)
  /-- A unit detects an error it cannot correct, stops accepting entries and posts an event; its queue moves to a sibling. (R21) -/
  | unitFault (kind inst cause : Nat)
  /-- A cluster's attachment to one crossbar fails, and its traffic is rerouted over the region bridge. (R26) -/
  | crossbarAttachmentLost (cluster region : Nat)
  /-- An NVMe Read is admitted on its carriage, located, scheduled and returned. (R117) -/
  | read (h : HostCmd) (io : IoArgs)
  /-- An NVMe Write is admitted, its write pointer is advanced, and it is split into staging segments. (R113) -/
  | write (h : HostCmd) (io : IoArgs)
  /-- A Zone Append takes the next LBAs at the admitted write pointer and streams through staging. (R72) -/
  | zoneAppend (h : HostCmd) (io : IoArgs)
  /-- A Write Zeroes command writes zeroes at the write pointer of a zone, or unmaps entries in the conventional namespace. (R98) -/
  | writeZeroes (h : HostCmd) (io : IoArgs)
  /-- A Deallocate unmaps conventional entries, and is accepted with no effect on a zoned namespace. (R98) -/
  | datasetManagement (h : HostCmd) (dealloc : Bool) (ranges : List (Nat × Nat))
  /-- A Compare command checks host data against stored data. (R421) -/
  | compare (h : HostCmd) (io : IoArgs) (data : List Byte) (pi : List PiTuple)
  /-- A Verify command reads and decodes data without transferring it. (R421) -/
  | verify (h : HostCmd) (io : IoArgs)
  /-- An NVMe Flush completes with success at once. (R421) -/
  | flush (h : HostCmd)
  /-- Zone Management Open applies the open checks and moves the zone to Explicitly Opened. (R66) -/
  | zoneOpen (h : HostCmd) (slba : Nat) (all : Bool)
  /-- Zone Management Close moves the zone to Closed, or to Empty if nothing was written. (R71) -/
  | zoneClose (h : HostCmd) (slba : Nat) (all : Bool)
  /-- Zone Management Finish fills the open row, writes its parity, folds pending rows and makes the zone Full. (R69) -/
  | zoneFinish (h : HostCmd) (slba : Nat) (all : Bool)
  /-- Zone Management Reset logically empties the zone and queues its blocks for deferred erase. (R70) -/
  | zoneReset (h : HostCmd) (slba : Nat) (all : Bool)
  /-- Zone Management Offline moves a Read Only zone to Offline and releases its blocks. (R67) -/
  | zoneOffline (h : HostCmd) (slba : Nat) (all : Bool)
  /-- Zone Management Receive reports zone states and admitted write pointers. (R602) -/
  | zoneManagementReceive (h : HostCmd) (slba action option_ : Nat) (bytes : Nat) (partial_ : Bool)
  /-- A waiting staging segment grant is served once the watermarks and seg_limit allow it. (R384) -/
  | segmentGrant (flight seg : Nat)
  /-- A segment's host DMA transfer and twin write complete, and the command is acknowledged when its last segment does. (R114) -/
  | segmentTransferComplete (flight seg : Nat) (data : List Byte) (pi : List PiTuple)
  /-- A staging segment and its twin are released after the move to a front or after the SLC program. (R386) -/
  | stagingSegmentRelease (flight seg : Nat)
  /-- The dirty count falls below the limit, so a segment waiting before its twin step proceeds. (R217) -/
  | dirtyLimitWaitEnd (flight seg : Nat)
  /-- A host DMA request ends in an error or completion timeout, and event 0x0103 is posted. (R434) -/
  | hostDmaFault (channel status : Nat) (victim : DmaVictim)
  /-- A slot of the concurrent-program cap comes free, so a waiting program or erase starts. (R145) -/
  | capSlotGrant (die : Nat)
  /-- A die finishes a sense; the data is transferred and decoded, moving through the decoding tiers on failure. (R184) -/
  | readSenseComplete (flight sense : Nat) (decoded : Bool) (weight : Nat)
  /-- A die completes a program and frees its cap slot, and the die takes its next queued entry. (R148) -/
  | programComplete (die : Nat)
  /-- A die completes an erase; the block first repays any loan, then joins the free list or its new role. (R171) -/
  | eraseComplete (die : Nat)
  /-- A die reports a program or erase failure at a pass, a suspension or final status, and the block is retired and recovered. (R190) -/
  | dieStatusReport (die : Nat) (failed : Bool)
  /-- An operation exceeds its nominal time plus 50 ms, so the die is lost and its members are rebuilt. (R193) -/
  | dieTimeout (die : Nat) (channelLost : Bool)
  /-- All 16 programs of a zone row complete, so the row closes and its DRAM copy can be released. (R159) -/
  | stripeRowClose (zone row : Nat)
  /-- All 16 units of a landing row are programmed, so the row closes and its front is freed. (R161) -/
  | landingRowClose (row : Nat)
  /-- Under the fold policy, a foldable landed row starts folding into its zone's QLC blocks. (R164) -/
  | foldStart (zone row : Nat)
  /-- A fold's 16 programs complete, so the row's location switches atomically to its member blocks. (R165) -/
  | foldSwitch (zone row : Nat)
  /-- Free landing space falls below its threshold, so the closed landing block with the fewest valid units is compacted. (R166) -/
  | compactionStart
  /-- A block at the head of a die's deferred-erase queue is erased in its next role's mode. (R171) -/
  | deferredEraseStart (die : Nat)
  /-- A wear spread of at least spread starts a static relocation of a low-wear member. (R175) -/
  | wearRelocationStart (die : Nat)
  /-- The promenade samples 8 pages of a block and queues the block for refresh if needed. (R179) -/
  | promenadeVisit (cluster : Nat) (bits tier : Nat)
  /-- A block queued for refresh starts relocating into a target on the same die. (R187) -/
  | relocationStart (die block : Nat)
  /-- A caught-up relocation or rebuild commits, switching the member's location and journalling it. (R187) -/
  | relocationCommit (idx : Nat)
  /-- A member of a failed block or lost die starts rebuilding into a spare or substitute. (R194) -/
  | rebuildStart (zone member : Nat)
  /-- A journal unit is programmed when it fills or 1 ms after its first record. (R206) -/
  | journalUnitProgram
  /-- A checkpoint starts after ckpt_s seconds or 2 GiB of journal. (R207) -/
  | checkpointStart
  /-- A checkpoint's trailer is written, so the replaced slot and journal are freed. (R207) -/
  | checkpointValid
  /-- A mount finishes on the checkpoint path or the full scan, and the zone states are settled. (R210) -/
  | mountComplete (readable ckptGood : Bool) (fallback elapsedMs : Nat)
  /-- The scrubber reads a DRAM word and writes back or repairs it. (R404) -/
  | dramScrubStep (r : DramScrub)
  /-- The scrubber reads an on-die SRAM word and writes back or remaps it. (R404) -/
  | sramScrubStep (r : SramScrub)
  /-- An owner's oldest buffer reaches leak_ms, so the leak bit is set and an event is posted. (R391) -/
  | bufferLeak (owner : Nat)
  /-- A draining carriage's outstanding count reaches 0, so the carriage is uncoupled. (R40) -/
  | carriageDrainComplete (idx : Nat)
  /-- 2 µs after a compartment or port reset begins, the affected commands are squashed. (R361) -/
  | squashInstant (who : SquashTarget)
  /-- Every count reaches 0, so queues are deleted and the reset completes. (R361) -/
  | compartmentResetComplete (comp : Nat)
  /-- State-changing work admitted before a freeze drains, so the compartment becomes Frozen. (R364) -/
  | compartmentFreezeComplete (comp : Nat)
  /-- A host writes a submission queue tail doorbell. (R355) -/
  | sqTailDoorbell (port comp qid value : Nat)
  /-- A host writes a completion queue head doorbell. (R355) -/
  | cqHeadDoorbell (port comp qid value : Nat)
  /-- The host sets en in CMPW_CC, enabling the compartment's admin queue. (R346) -/
  | compartmentEnSet (port comp : Nat)
  /-- The host clears en in CMPW_CC, which resets the compartment. (R360) -/
  | compartmentEnClear (port comp : Nat)
  /-- CC.EN of a steward controller is set, and CSTS.RDY rises. (R413) -/
  | controllerEnable (port : Nat)
  /-- CC.EN of a steward controller is cleared, so its commands are squashed and its queues deleted. (R413) -/
  | controllerDisable (port : Nat)
  /-- Identify returns controller or namespace data. (R420) -/
  | identify (h : HostCmd) (cns csi cntid : Nat)
  /-- Creates an I/O submission queue with its PASID. (R346) -/
  | createIoSq (h : HostCmd) (q : CreateQ)
  /-- Creates an I/O completion queue with its PASID and vector. (R346) -/
  | createIoCq (h : HostCmd) (q : CreateQ)
  /-- Deletes an I/O submission queue. (R417) -/
  | deleteIoSq (h : HostCmd) (qid : Nat)
  /-- Deletes an I/O completion queue. (R417) -/
  | deleteIoCq (h : HostCmd) (qid : Nat)
  /-- Returns a supported log page. (R419) -/
  | getLogPage (h : HostCmd) (lid off bytes : Nat)
  /-- Aborts a command not yet admitted to a carriage. (R417) -/
  | abort (h : HostCmd) (sqid cid : Nat)
  /-- Posts a request that completes on a standard event. (R417) -/
  | asynchronousEventRequest (h : HostCmd)
  /-- Returns a supported feature value. (R418) -/
  | getFeatures (h : HostCmd) (fid : Nat) (arg : BitVec 32)
  /-- Set Features Power Management selects a mode PS0 to PS2, or requests Sleep or Deep Sleep. (R468) -/
  | setPowerManagement (h : HostCmd) (ps : Nat)
  /-- Sets the host's temperature thresholds. (R508) -/
  | setTemperatureThreshold (h : HostCmd) (tmpth sensor : Nat) (under : Bool)
  /-- Grants up to 64 queue pairs, or the compartment's grant. (R415) -/
  | setNumberOfQueues (h : HostCmd) (nsq ncq : Nat)
  /-- Sets interrupt coalescing. (R418) -/
  | setInterruptCoalescing (h : HostCmd) (value : BitVec 32)
  /-- Sets interrupt vector configuration on a steward controller. (R418) -/
  | setInterruptVectorConfiguration (h : HostCmd) (iv : Nat) (cd : Bool)
  /-- Sets asynchronous event configuration. (R418) -/
  | setAsyncEventConfiguration (h : HostCmd) (value : BitVec 32)
  /-- Set Features Timestamp sets TIM_NOW, or only its whole seconds. (R493) -/
  | setTimestamp (h : HostCmd) (ms : Nat)
  /-- Completes with Invalid Command Opcode. (R16) -/
  | firmwareCommit (h : HostCmd)
  /-- Completes with Invalid Command Opcode. (R16) -/
  | firmwareImageDownload (h : HostCmd)
  /-- Runs a crypto erase, then erases every zone, landing and spare block. (R560) -/
  | sanitizeBlockErase (h : HostCmd) (ause : Bool)
  /-- Erases the media key slots and regenerates the wrapping key. (R560) -/
  | sanitizeCryptoErase (h : HostCmd) (ause : Bool)
  /-- Completes with Invalid Field in Command. (R560) -/
  | sanitizeOverwrite (h : HostCmd)
  /-- Clears a sanitize that failed with AUSE 1. (R560) -/
  | sanitizeExitFailureMode (h : HostCmd)
  /-- The last block of a sanitize is erased, so the sanitize ends and commands are served again. (R561) -/
  | sanitizeComplete (written : Bool) (elapsedMs : Nat)
  /-- Checks an image and pins it in both halves of the reel cache. (R314) -/
  | reelLoad (h : HostCmd) (image : List Byte)
  /-- Releases a cache handle unless an instance runs from it. (R314) -/
  | reelUnload (h : HostCmd) (handle : Nat)
  /-- Puts the reel store into maintenance. (R335) -/
  | enterMaintenance (h : HostCmd)
  /-- Leaves maintenance after any store write in progress ends. (R337) -/
  | leaveMaintenance (h : HostCmd)
  /-- Writes an image into a store slot on each replica through the alternate block. (R335) -/
  | storeWriteSlot (h : HostCmd) (slot : Nat) (image : List Byte)
  /-- Clears a store slot on each replica through the alternate block. (R335) -/
  | storeClearSlot (h : HostCmd) (slot : Nat)
  /-- Checks an image, grants its capabilities and starts a reel in a free home context. (R318) -/
  | reelStart (h : HostCmd) (a : ReelArgs)
  /-- Sets halt-pending with a grace time on a reel instance. (R327) -/
  | reelHalt (h : HostCmd) (inst graceMs : Nat)
  /-- The grace time ends, so the reel is stopped at its next instruction boundary. (R327) -/
  | reelHaltGraceExpiry (inst : Nat)
  /-- Returns the 64-byte status record of an instance. (R325) -/
  | reelStatus (h : HostCmd) (inst : Nat)
  /-- Creates a Free compartment as Active with defaults. (R349) -/
  | compartmentCreate (h : HostCmd) (comp port : Nat)
  /-- Resets a compartment, erases its key slot, unmaps its PASIDs and frees it. (R348) -/
  | compartmentDelete (h : HostCmd) (comp : Nat)
  /-- Maps a PASID on a port to a compartment. (R344) -/
  | mapPasid (h : HostCmd) (comp pasid port : Nat)
  /-- Unmaps a PASID that is not in use. (R347) -/
  | unmapPasid (h : HostCmd) (comp pasid port : Nat)
  /-- Compartment Control Reset starts a compartment reset. (R360) -/
  | compartmentReset (h : HostCmd) (comp : Nat)
  /-- Starts freezing an Active compartment. (R364) -/
  | compartmentFreeze (h : HostCmd) (comp : Nat)
  /-- Returns a Frozen compartment to Active. (R364) -/
  | compartmentThaw (h : HostCmd) (comp : Nat)
  /-- Writes the compartment record and makes the compartment Saved. (R365) -/
  | compartmentSave (h : HostCmd) (comp bytes : Nat)
  /-- Checks a record and rebuilds the compartment's objects, leaving it Frozen. (R369) -/
  | compartmentRestore (h : HostCmd) (params record : List Byte)
  /-- Opens or replaces an event ring. (R428) -/
  | eventRingSetup (h : HostCmd) (r : RingArgs)
  /-- Closes an event ring. (R428) -/
  | eventRingClose (h : HostCmd)
  /-- Codes a raw band in a lane and appends the record at the zone's write pointer. (R249) -/
  | frameAppend (h : HostCmd) (zslba rawLen limit : Nat) (desc raw : List Byte)
  /-- A lane finishes coding a band, so the record is placed, committed and acknowledged. (R249) -/
  | frameCodingComplete (lane : Nat)
  /-- Decodes a record, checks its check value and returns the samples. (R253) -/
  | frameRead (h : HostCmd) (slba recLen ctx bufBytes : Nat)
  /-- Writes a codec context's state record to the host. (R255) -/
  | codecStateSave (h : HostCmd) (ctx : Nat)
  /-- Loads a codec state record into a context. (R255) -/
  | codecStateRestore (h : HostCmd) (ctx : Nat) (record : List Byte)
  /-- Does nothing. (R285) -/
  | nop (k : KWord)
  /-- Traps 0x0A with a detail from imm. (R285) -/
  | trap (k : KWord)
  /-- Waits for a ticket, an event, a time or a halt request. (R293) -/
  | wait (k : KWord)
  /-- A condition named by a WAIT holds, so the WAIT returns its results. (R293) -/
  | waitConditionMet (ctx : Nat)
  /-- A unit posts an asynchronous instruction's completion to its ticket. (R293) -/
  | ticketCompletion (ctx ticket status : Nat) (result : Word) (data : List Byte)
  /-- Mirrors the context and applies the held effects in order. (R278) -/
  | commit (k : KWord)
  /-- Commits and stops the reel. (R285) -/
  | halt (k : KWord)
  /-- Adds two registers. (R286) -/
  | add (k : KWord)
  /-- Subtracts two registers. (R286) -/
  | sub (k : KWord)
  /-- Bitwise AND of two registers. (R286) -/
  | and (k : KWord)
  /-- Bitwise OR of two registers. (R286) -/
  | or (k : KWord)
  /-- Bitwise XOR of two registers. (R286) -/
  | xor (k : KWord)
  /-- Shifts left by a register. (R286) -/
  | shl (k : KWord)
  /-- Shifts right with zero fill by a register. (R286) -/
  | shr (k : KWord)
  /-- Shifts right with sign fill by a register. (R286) -/
  | sar (k : KWord)
  /-- Low 64 bits of a product. (R286) -/
  | mul (k : KWord)
  /-- High 64 bits of an unsigned product. (R286) -/
  | mulhu (k : KWord)
  /-- Unsigned division. (R286) -/
  | divu (k : KWord)
  /-- Unsigned remainder. (R286) -/
  | remu (k : KWord)
  /-- Unsigned minimum. (R286) -/
  | minu (k : KWord)
  /-- Unsigned maximum. (R286) -/
  | maxu (k : KWord)
  /-- Adds an immediate. (R287) -/
  | addi (k : KWord)
  /-- AND with an immediate. (R287) -/
  | andi (k : KWord)
  /-- OR with an immediate. (R287) -/
  | ori (k : KWord)
  /-- XOR with an immediate. (R287) -/
  | xori (k : KWord)
  /-- Shifts left by an immediate. (R287) -/
  | shli (k : KWord)
  /-- Shifts right with zero fill by an immediate. (R287) -/
  | shri (k : KWord)
  /-- Shifts right with sign fill by an immediate. (R287) -/
  | sari (k : KWord)
  /-- Loads a sign-extended immediate. (R287) -/
  | li (k : KWord)
  /-- Loads the high word of a register. (R287) -/
  | lih (k : KWord)
  /-- Extracts a bit field. (R287) -/
  | bfx (k : KWord)
  /-- Inserts a bit field. (R287) -/
  | bfi (k : KWord)
  /-- Compares two registers. (R288) -/
  | cmp (k : KWord)
  /-- Compares a register with an immediate. (R288) -/
  | cmpi (k : KWord)
  /-- Branches if its condition holds. (R289) -/
  | b (k : KWord)
  /-- Calls with the link in g31. (R288) -/
  | call (k : KWord)
  /-- Returns through g31. (R288) -/
  | ret (k : KWord)
  /-- Jumps to a register. (R288) -/
  | jr (k : KWord)
  /-- Calls through a register. (R288) -/
  | callr (k : KWord)
  /-- Loads from scratch, image or buffer. (R290) -/
  | ld (k : KWord)
  /-- Stores to scratch or buffer. (R290) -/
  | st (k : KWord)
  /-- Copies up to 64 KiB between spaces. (R290) -/
  | copy (k : KWord)
  /-- Reads a special register. (R291) -/
  | mfs (k : KWord)
  /-- Writes flags. (R291) -/
  | mts (k : KWord)
  /-- Reads a table field. (R294) -/
  | trd (k : KWord)
  /-- Writes a writable table field. (R294) -/
  | twr (k : KWord)
  /-- Creates a placement group. (R296) -/
  | pgctlCreate (k : KWord)
  /-- Deletes an empty placement group. (R296) -/
  | pgctlDelete (k : KWord)
  /-- Adds a stripe group to a placement group. (R296) -/
  | pgctlAddStripeGroup (k : KWord)
  /-- Removes a stripe group from a placement group. (R296) -/
  | pgctlRemoveStripeGroup (k : KWord)
  /-- Moves a placement group to another compartment. (R296) -/
  | pgctlMove (k : KWord)
  /-- Sets a placement group's default write mode. (R296) -/
  | pgctlSetDefaultMode (k : KWord)
  /-- Creates a zoned namespace on a placement group. (R297) -/
  | nsctlCreateZoned (k : KWord)
  /-- Creates the conventional namespace and carves its slots. (R297) -/
  | nsctlCreateConventional (k : KWord)
  /-- Deletes a namespace once its carriages drain. (R297) -/
  | nsctlDelete (k : KWord)
  /-- Opens a zone for a reel. (R298) -/
  | zctlOpen (k : KWord)
  /-- Closes a zone for a reel. (R298) -/
  | zctlClose (k : KWord)
  /-- Finishes a zone for a reel. (R298) -/
  | zctlFinish (k : KWord)
  /-- Resets a zone for a reel. (R298) -/
  | zctlReset (k : KWord)
  /-- Takes a zone Offline for a reel. (R298) -/
  | zctlOffline (k : KWord)
  /-- Finds the next zone in a given state. (R294) -/
  | tfind (k : KWord)
  /-- Reads one flash page into a buffer. (R299) -/
  | fread (k : KWord)
  /-- Programs one program unit of a reel-writable block. (R300) -/
  | fprog (k : KWord)
  /-- Erases a reel-writable block. (R300) -/
  | ferase (k : KWord)
  /-- Reads a page metadata record into scratch. (R299) -/
  | frecord (k : KWord)
  /-- Reads a die's temperature. (R299) -/
  | ftemp (k : KWord)
  /-- Makes the die's lowest-wear spare reel-owned. (R299) -/
  | freserveTake (k : KWord)
  /-- Erases a reel-owned block and returns it to the spares. (R299) -/
  | freserveReturn (k : KWord)
  /-- Checks a descriptor and couples a carriage to a handle. (R109) -/
  | couple (k : KWord)
  /-- Starts uncoupling a carriage, completing when it drains. (R301) -/
  | uncouple (k : KWord)
  /-- Reads a word of a carriage entry. (R301) -/
  | carrd (k : KWord)
  /-- Allocates a buffer to an owner. (R375) -/
  | balloc (k : KWord)
  /-- Adds a holder to a buffer. (R388) -/
  | bshare (k : KWord)
  /-- Drops a holder's share of a buffer. (R388) -/
  | bdrop (k : KWord)
  /-- Frees a buffer for its final owner. (R388) -/
  | bfree (k : KWord)
  /-- Reads a buffer's size. (R302) -/
  | binfo (k : KWord)
  /-- Grants a codec context to a compartment. (R303) -/
  | cxgrant (k : KWord)
  /-- Revokes a codec context grant. (R303) -/
  | cxrevoke (k : KWord)
  /-- Saves a codec context to a buffer. (R303) -/
  | cxsave (k : KWord)
  /-- Restores a codec context from a buffer. (R303) -/
  | cxrestore (k : KWord)
  /-- Reads TIM_NOW, journalled. (R304) -/
  | timerd (k : KWord)
  /-- Sets the whole-second part of TIM_NOW. (R493) -/
  | timset (k : KWord)
  /-- Requests a power mode from the next window boundary. (R468) -/
  | pmode (k : KWord)
  /-- Gives an idle hint or requests Sleep, Deep Sleep or Off. (R473) -/
  | pstate (k : KWord)
  /-- Posts a reel event record. (R305) -/
  | evpost (k : KWord)
  /-- Moves the next record from the reel's event queue to scratch. (R305) -/
  | evnext (k : KWord)
  /-- Subscribes the reel to a range of event codes. (R305) -/
  | evsubAdd (k : KWord)
  /-- Clears all of the reel's subscriptions. (R305) -/
  | evsubClear (k : KWord)
  /-- Reads a BAR 2 register from a reel. (R305) -/
  | regrd (k : KWord)
  /-- Writes a BAR 2 register at commit. (R305) -/
  | regwr (k : KWord)
  /-- Reads host memory into a buffer. (R305) -/
  | hdmard (k : KWord)
  /-- Writes a buffer to host memory. (R305) -/
  | hdmawr (k : KWord)
  /-- Mounts by the checkpoint path, falling back to the full scan. (R210) -/
  | mountCheckpoint (k : KWord)
  /-- Mounts by the full scan. (R212) -/
  | mountFullScan (k : KWord)
  /-- Starts a checkpoint at once. (R306) -/
  | ckpt (k : KWord)
  /-- Leaves the Parked state and brings namespaces online. (R306) -/
  | unpark (k : KWord)
  /-- Makes an orderly stop and returns the module to Parked. (R306) -/
  | stop (k : KWord)
  /-- Sets a compartment's queue pair grant. (R358) -/
  | cmpsetQueuePairs (k : KWord)
  /-- Sets a compartment's active-zone quota. (R64) -/
  | cmpsetActiveQuota (k : KWord)
  /-- Sets a compartment's direct-zone quota. (R64) -/
  | cmpsetDirectQuota (k : KWord)
  /-- Sets a compartment's buffer floor. (R385) -/
  | cmpsetBufferFloor (k : KWord)
  /-- Sets a compartment's credit share in a cluster. (R132) -/
  | cmpsetCreditShare (k : KWord)
  /-- Sets a compartment's latency class. (R118) -/
  | cmpsetLatencyClass (k : KWord)
  /-- A reel cache line fill from host memory or the store completes, and the context fetches again. (R333) -/
  | lineFillComplete (ctx : Nat) (r : FillResult)
  /-- Loads BPM_OWNER_INFO for an owner. (R380) -/
  | ownerQuery (port : Nat) (comp owner segLimit : Nat)
  /-- Registers an owner to a compartment with a seg_limit. (R380) -/
  | ownerRegister (port : Nat) (comp owner segLimit : Nat)
  /-- Unregisters an owner. (R380) -/
  | ownerUnregister (port : Nat) (comp owner segLimit : Nat)
  /-- Sets an owner's seg_limit. (R381) -/
  | ownerSetLimit (port : Nat) (comp owner segLimit : Nat)
  /-- Frees and drops every buffer an owner holds. (R380) -/
  | ownerReclaim (port : Nat) (comp owner segLimit : Nat)
  /-- Raises the protection level to Closed. (R545) -/
  | raiseToClosed (confirm : BitVec 16)
  /-- Blows the seal fuse from Closed. (R546) -/
  | raiseToSealed (confirm : BitVec 16)
  /-- Erases all data and lowers Closed to Open. (R547) -/
  | lowerToOpen (confirm : BitVec 16)
  /-- Commits the OPT staging copy to the four option-area copies. (R550) -/
  | optionCommit (merge : Bool) (report : CommitReport)
  /-- Reloads OPT from the image in force. (R552) -/
  | optionReload
  /-- Reports whether a key slot holds a key. (R556) -/
  | keyQuery (slot : Nat)
  /-- Generates a key in an empty slot. (R555) -/
  | keyGenerate (slot : Nat)
  /-- Installs a plain key from SEC_KEY_DATA. (R555) -/
  | keyInstall (slot : Nat)
  /-- Installs a key wrapped under slot 1,039. (R559) -/
  | keyInstallWrapped (slot : Nat)
  /-- Erases a key slot once prior commands complete. (R558) -/
  | keyErase (slot : Nat)
  /-- ZNE_ZONE_CMD queries a zone into ZNE_ZONE_STAT. (R89) -/
  | zoneQuery (zone : Nat)
  /-- Writing 1 to frozen returns a halted host DMA channel to service. (R406) -/
  | dmaChannelRelease
  /-- A read covering an RC field returns it and clears it. (R566) -/
  | registerReadClear (port bar off bytes : Nat)
  /-- A write to a register with no row of its own updates its writable fields. (R566) -/
  | registerWrite (port bar off bytes : Nat) (value : Word)
  /-- Binds a placement group into a mirror pair. (R527) -/
  | mirrorBind (m : MirrorArgs)
  /-- Unbinds a mirror pair. (R535) -/
  | mirrorUnbind (m : MirrorArgs)
  /-- Promotes a mirror to accept writes. (R533) -/
  | mirrorPromote (m : MirrorArgs)
  /-- Resyncs the zones of a pair from the primary. (R531) -/
  | mirrorResync (m : MirrorArgs)
  /-- Copies one zone to a neighbour outside any pair. (R531) -/
  | mirrorCopyZone (m : MirrorArgs)
  /-- Reports a placement group's pair. (R541) -/
  | mirrorQuery (m : MirrorArgs)
  /-- resync_left reaches 0, and event 0x0E06 is posted. (R531) -/
  | resyncComplete (pgroup : Nat)
  /-- A coupler flit arrives; a CRC failure is negatively acknowledged and replayed. (R520) -/
  | flitReceived (port : Nat) (f : Flit)
  /-- No flit arrives for 50 µs, so the link goes down and retrains. (R520) -/
  | linkSilenceTimeout (port : Nat)
  /-- A coupler link trains and exchanges its hello, joining or isolating the link. (R521) -/
  | couplerLinkTrained (port peer peerPort lanes : Nat)
  /-- Every 1 s, a link that cannot train retries while its cable is present. (R520) -/
  | linkTrainingRetry (port : Nat)
  /-- Every 20 µs, a heartbeat is sent on every link that is up. (R524) -/
  | heartbeatSend
  /-- No heartbeat names a member for 200 µs, so its zones are fenced, settled and promoted or broken. (R533) -/
  | memberLost (member lastHeard : Nat)
  /-- A lost member's heartbeats have been heard for 1 ms, so it joins again. (R524) -/
  | memberJoined (member : Nat) (promotedPairs : List Nat)
  /-- A member's sleep notice marks it sleeping. (R526) -/
  | sleepNotice (member : Nat)
  /-- A woken sleeping member is not heard within 5 ms, so it is lost. (R526) -/
  | sleepingMemberTimeout (member lastHeard : Nat)
  /-- The mirror receives and stages a mirrored segment, and acknowledges it. (R528) -/
  | mirrorSegment (peer pgroup zoneNo start key : Nat) (data : List Byte) (direct : Bool) (cls : Nat)
  /-- The primary receives the mirror's confirmation, completing the action. (R529) -/
  | mirrorAck (flight seg : Nat) (status : Nat)
  /-- A read forwarded from the pair partner is served from the local copy. (R532) -/
  | forwardedRead (peer pgroup zoneNo start len cls : Nat)
  /-- Every 1 ms, time flits are exchanged towards the time leader and the error applied. (R537) -/
  | timeExchange (t1 t2 t3 t4 : Nat) (leaderSeconds : Nat) (leaderSuspect : Bool) (hops : Nat)
  /-- The UART command peek returns a BAR 2 register value at Open. (R450) -/
  | peek (off : Nat)
  /-- The IEEE 1149.1 BYPASS instruction. (R449) -/
  | bypass
  /-- The IEEE 1149.1 IDCODE instruction. (R449) -/
  | idcode
  /-- The IEEE 1149.1 SAMPLE/PRELOAD instruction. (R449) -/
  | samplePreload
  /-- The IEEE 1149.1 EXTEST instruction. (R449) -/
  | extest
  /-- The IEEE 1149.1 CLAMP instruction. (R449) -/
  | clamp
  /-- The IEEE 1149.1 HIGHZ instruction. (R449) -/
  | highz
  /-- The first I3C broadcast switches the management interface from SMBus to I3C. (R437) -/
  | i3cBroadcast (daa : Option Nat)
  /-- Returns status flags, warnings and temperature over SMBus. (R438) -/
  | basicManagementCommand
  /-- Returns the NVM subsystem health status. (R438) -/
  | subsystemHealthStatusPoll
  /-- Returns the 256-byte VPD. (R438) -/
  | vpdRead (off len : Nat)
  /-- Answers a tunnelled Identify as the port 0 steward controller. (R438) -/
  | tunnelledIdentify (cns csi cntid nsid off len : Nat)
  /-- Answers a tunnelled Get Log Page as the port 0 steward controller. (R438) -/
  | tunnelledGetLogPage (lid nsid off len : Nat)
  /-- The power manager stops hearing one region's heartbeats while the bridge heartbeats continue, and posts an event naming that region. (R47) -/
  | powerManagerHeartbeatMiss (region : Nat)
  /-- A unit that stops responding is reported by its level's watchdog (for example the cluster watchdog for a channel engine), with cause 2 of event 0x0200. (R21) -/
  | levelWatchdogExpiry (kind inst : Nat)
  /-- As the bank charges or falls below 52 V, v_bank changes, the dirty limit is recomputed continuously, charged is set at 54 V, and the single-path warning clears once the limit reaches 1 GiB. (R216) -/
  | bankVoltageChange (v : Nat)
  /-- A FAN_CMD measurement window (16 samples, 10 ms or 2 s) ends, updating fan_cmd_pct and setting fan_cmd_fault with event 0x0B02 when the reading is out of range. (R457) -/
  | fanCmdMeasurement (m : FanCmdSample)
  /-- The translation engine copies landed conventional units into full stripe rows of the conventional region and updates their map entries. (R95) -/
  | conventionalCopy (units : List Nat)
  /-- The translation engine reclaims the conventional stripe row with the fewest valid units once a row falls below the reclaim threshold. (R96) -/
  | conventionalReclaim
  /-- An admin or I/O command with an opcode the module does not serve completes with Invalid Command Opcode, or with Command Sequence Error in the Parked state. (R417) -/
  | invalidCommandOpcode (h : HostCmd) (opcode : Nat) (io : Bool)
  /-- Set Features with a feature identifier outside R418 completes with Invalid Field in Command. (R418) -/
  | setFeaturesUnsupported (h : HostCmd) (fid : Nat)
  /-- A reel executes an instruction word with an unassigned Krytfer opcode and traps 0x01 with detail 0. (R284) -/
  | unassignedOpcode (ctx : Nat) (w : Word)
  /-- An NVMe-MI request not listed in R438, VPD Write included, is answered with the NVMe-MI status Invalid Command Opcode. (R438) -/
  | miInvalidCommand (opcode : Nat)
  /-- A PCIe configuration request is answered with Configuration Request Retry Status until step 9 of the reset sequence, and served normally after it. (R197) -/
  | configurationRequest (port : Nat)
  /-- A BAR access of an unsupported size or alignment is dropped if it is a write, and if it is a read it completes with Unsupported Request and is logged through AER. (R566) -/
  | misalignedAccess (port : Nat) (isRead : Bool) (bytes : Nat)
deriving DecidableEq, Repr

end Sys2Proof
end

