-- ==== Sys2Proof/Config.lean ====
section
/-! DEFINITION. What the manual leaves open: uninterpreted values, none of which has a body, so that nothing can be
proved of what they are. -/

namespace Sys2Proof

/-- DESIGN CHOICE (log 6). Byte `i` of the free value drawn `n`-th: data the manual calls undefined, random or not
fixed. -/
opaque Config.freeByte (n i : Nat) : Byte

/-- DESIGN CHOICE (log 6). The free word drawn `n`-th. -/
opaque Config.freeWord (n : Nat) : Word

/-- DESIGN CHOICE (log 6). The free number drawn `n`-th. -/
opaque Config.freeNat (n : Nat) : Nat

/-- DESIGN CHOICE (log 17). Byte `i` of the 16 payload bytes of a module event: the manual names the payload's fields
and fixes no layout for them. -/
opaque Config.payloadByte (code : Nat) (fields : List Int) (i : Nat) : Byte

/-- DESIGN CHOICE (log 18). Byte `i` of what a 4 KiB unit enciphered under key `written` deciphers to under another
key `read`, at a tweak (R557, R558). -/
opaque Config.xtsByte (written read tweak : Nat) (plain : List Byte) (i : Nat) : Byte

/-- DESIGN CHOICE (log 19). Byte `i` of the 504 LDPC parity bytes of a codeword, whose construction is not published
(R141). -/
opaque Config.ldpcByte (codeword : List Byte) (i : Nat) : Byte

/-- DESIGN CHOICE (log 18). AES key wrap of a key under a key (R554, R559): the 72-byte record, byte by byte. -/
opaque Config.wrapByte (kek key i : Nat) : Byte

/-- DESIGN CHOICE (log 18). What a wrapped record unwraps to under a key, if it does. -/
opaque Config.unwrap (kek : Nat) (record : List Byte) : Option Nat

/-- DESIGN CHOICE (log 18). SHA-384 (R311), whose definition lies outside the manual. -/
opaque Config.sha384 (bytes : List Byte) : List Byte

/-- DESIGN CHOICE (log 18). ECDSA P-384 verification of r and s over a digest with a public key (R311). -/
opaque Config.ecdsaVerifies (key r s digest : List Byte) : Bool

/-- DESIGN CHOICE (log 20). Byte `i` of a data structure that a standard outside the manual lays out, in the fields
the manual gives no value for: `kind` names the structure. -/
opaque Config.standardByte (kind : Nat) (args : List Nat) (i : Nat) : Byte

/-- DESIGN CHOICE (log 38). What the directory unit of a store block that a reel has programmed says, from the block's
data pages and page records: none where it is not valid, else its `seq` and the length of the image in each occupied slot.
The manual names what a directory unit records and gives no layout (R315, R316). -/
opaque Config.storeDirectory (die block : Nat) (data : List (Nat × Byte)) : Option (Nat × List (Nat × Nat))

/-- DESIGN CHOICE (log 160). Byte `i` of page `lpage` of a system object (3 checkpoint, 4 journal, 5 marker) whose write sequence
is `seq`: the manual names what these pages hold and gives no layout (R206 to R208). -/
opaque Config.systemByte (object seq lpage i : Nat) : Byte

/-- DESIGN CHOICE (log 68). What the fans draw at these duties, in mW: the manual charges it to the cap and gives no figure
(R36). -/
opaque Config.fanMw (duties : List Nat) : Nat

/-- DESIGN CHOICE (log 160). Stripes of the `n`-th checkpoint: the manual gives its size in no rule (R207). -/
opaque Config.ckptStripes (n : Nat) : Nat

/-- DESIGN CHOICE (log 38). Byte `i` of the directory unit of a store block, from the check and the code length of the image in
each slot and the CRC-64 of the block's slot pages: the manual gives it no layout (R315). -/
opaque Config.directoryByte (slots : List (Nat × Nat × Nat)) (crc : Nat) (i : Nat) : Byte

/-- DESIGN CHOICE (log 25). The `k`-th of the eight nearest neighbours of a ring-oscillator sensor: the manual does not
place the sensors on the die (R500). -/
opaque Config.neighbour (sensor k : Nat) : Nat

end Sys2Proof
end

