-- ==== Sys2Proof/Machine/Bits.lean ====
section
/-! DEFINITION. The cyclic checks of the manual, and the symbol code of the DRAM. -/

namespace Sys2Proof.Machine

/-- One bit of a CRC taken most significant bit first. -/
def crcBitMsb (poly : Word) (c : Word) : Word := if c.msb then (c <<< 1) ^^^ poly else c <<< 1

/-- One bit of a CRC taken least significant bit first. -/
def crcBitLsb (poly : Word) (c : Word) : Word := if c.getLsbD 0 then (c >>> 1) ^^^ poly else c >>> 1

/-- Applies `f` `n` times. -/
def times {V : Type} (f : V → V) : Nat → V → V
  | 0, v => v
  | n + 1, v => times f n (f v)

/-- CRC-64 of ECMA-182 over a list of bytes, continued from `c` (R199): initial value 0, most significant bit first,
neither reflected nor inverted. -/
def crcEcmaFrom (c : Word) (bs : List Byte) : Word :=
  bs.foldl (fun c b => times (crcBitMsb 0x42F0E1EBA9EA3693) 8 (c ^^^ ((b.setWidth 64 : Word) <<< (56 : Nat)))) c

/-- CRC-64 of ECMA-182 (R199). -/
def crcEcma (bs : List Byte) : Word := crcEcmaFrom 0 bs

/-- The 64-bit guard of the NVM Command Set (R258, R422). PRESUMED (log 21): polynomial 0xAD93D23594C93659 reflected,
initial value and final exclusive OR all ones. -/
def crcGuard (bs : List Byte) : Word :=
  (bs.foldl (fun c b => times (crcBitLsb 0x9A6C9329AC4BC9B5) 8 (c ^^^ (b.setWidth 64 : Word))) (BitVec.allOnes 64)) ^^^ BitVec.allOnes 64

/-! ### The code of the DRAM (R396, R397) -/

/-- Multiplication by α in GF(2^16) of the field polynomial x^16 + x^12 + x^3 + x + 1. -/
def gfTimesAlpha (a : BitVec 16) : BitVec 16 := if a.msb then (a <<< 1) ^^^ 0x100B else a <<< 1

/-- Multiplication in that field. -/
def gfMul (a b : BitVec 16) : BitVec 16 :=
  ((List.range 16).foldl (fun (x : BitVec 16 × BitVec 16) i =>
    (if b.getLsbD i then x.1 ^^^ x.2 else x.1, gfTimesAlpha x.2)) (0, a)).1

/-- α to the power `n`. -/
def alphaPow (n : Nat) : BitVec 16 := times gfTimesAlpha n 1

/-- The value of a codeword's polynomial at α^k. DESIGN CHOICE (log 172): device i holds the coefficient of x^(9 − i). -/
def dramSyndrome (k : Nat) (symbols : List (BitVec 16)) : BitVec 16 := symbols.foldl (fun acc c => gfMul acc (alphaPow k) ^^^ c) 0

/-- The two check symbols that devices 8 and 9 hold beside the data symbols of devices 0 to 7: the codeword is 0 at α^0 and α^1. -/
def dramCheck (data : List (BitVec 16)) : BitVec 16 × BitVec 16 :=
  let g := fun (r : BitVec 16 × BitVec 16) (d : BitVec 16) =>
    let f := d ^^^ r.1
    (r.2 ^^^ gfMul f (1 ^^^ alphaPow 1), gfMul f (alphaPow 1))
  data.foldl g (0, 0)

/-- The 16-bit symbol of a device in codeword `j` of a burst: its byte in beat 2j low, in beat 2j + 1 high. Each beat is the ten bytes
that the devices give. -/
def dramSymbol (beats : List (List Byte)) (j device : Nat) : BitVec 16 :=
  let at_ := fun (beat : Nat) => (((beats[beat]?).getD [])[device]?).getD (0 : Byte)
  (at_ (2 * j)).setWidth 16 ||| ((at_ (2 * j + 1)).setWidth 16 <<< (8 : Nat))

/-- The eight codewords of a burst of 16 beats, of ten symbols each. -/
def dramCodewords (beats : List (List Byte)) : List (List (BitVec 16)) :=
  (List.range 8).map (fun j => (List.range 10).map (fun d => dramSymbol beats j d))

/-- What reading a codeword gives: the device corrected, if any, and the corrected symbols; none where the error is not confined to
one device, or, with a device marked, to that one (R396 to R398). -/
def dramDecode (marked : Option Nat) (symbols : List (BitVec 16)) : Option (Option Nat × List (BitVec 16)) :=
  let s0 := dramSyndrome 0 symbols
  let s1 := dramSyndrome 1 symbols
  if s0 = 0 ∧ s1 = 0 then some (none, symbols)
  else
    let cs := match marked with
      | some m => [m]
      | none => List.range 10
    match cs.find? (fun d => decide (s0 ≠ 0) && decide (s1 = gfMul s0 (alphaPow (9 - d)))) with
    | some d => some (some d, symbols.mapIdx (fun i c => if i = d then c ^^^ s0 else c))
    | none => none

end Sys2Proof.Machine
end

