-- ==== Sys2Proof/Machine/State.lean ====
section
/-! DEFINITION. The state of the module as plain data: every register, table, queue, counter, mode and pin that the
manual gives it, the state after reset, and the reasons a command can stop. Each field's line gives its width, the file
and rule of the spec that name it, and its value at reset. -/

namespace Sys2Proof.Machine

/-! ### Event records and outputs -/

/-- The 16 payload bytes of an event record (R432): the fields a module event names, in the order the manual lists
them, or the bytes a reel posted. -/
inductive Payload where
  | fields (vs : List Int)
  | raw (bytes : List Byte)
deriving DecidableEq, Repr

/-- An event record (R432). -/
structure EvRec where
  /-- 64 bits | 11 R432 | entry | TIM_NOW when the event was raised. -/
  time : Nat
  /-- 16 bits | 11 R432 | entry | Code. -/
  code : Nat
  /-- 16 bits | 11 R432, 01 R43 | entry | Source. -/
  source : Nat
  /-- 10 bits | 11 R432 | entry | Compartment. -/
  comp : Nat
  /-- 3 bits | 11 R432 | entry | Level. -/
  level : Nat
  payload : Payload
deriving DecidableEq, Repr

/-- An event ring in host memory (R428, R433, R373). -/
structure Ring where
  /-- 17 bits | 11 R435 | entry | Records. -/
  size : Nat
  /-- 16 bits | 11 R435 | 0 | Next record the host reads. -/
  head : Nat
  /-- 16 bits | 11 R435 | 0 | Next record the module writes. -/
  tail : Nat
  /-- 64 bits | 11 R427 | entry | Base. -/
  base : Nat
  /-- 21 bits | 11 R427 | entry | PASID. -/
  pasid : Option Nat
  /-- 1 bit | 11 R433 | entry | Port. -/
  port : Nat
  /-- 3 bits | 11 R427 | entry | Vector. -/
  vector : Nat
  /-- records | 11 R433 | none | Records written, by index. -/
  slots : SMap (Option EvRec)
deriving DecidableEq, Repr

/-- The statuses a completion carries (R431, R596), by the names the manual gives them. -/
inductive Status where
  | success
  | invalidOpcode | invalidField | dataTransferError | internalError | abortRequested | sequenceError
  | sanitizeInProgress | writeProtected | capacityExceeded | namespaceNotReady | invalidNamespace
  | invalidQueue | invalidLogPage | sanitizeFailed
  | zoneBoundary | zoneFull | zoneReadOnly | zoneOffline | zoneInvalidWrite | tooManyActive | invalidTransition
  | unrecoveredRead | guardCheck | appTagCheck | refTagCheck | compareFailure | accessDenied
  | lbaOutOfRange | completionQueueInvalid | invalidQueueSize | asyncLimit | invalidQueueDeletion
  /-- SCT 7h with the vendor code of R431. -/
  | vendor (code : Nat)
deriving DecidableEq, Repr

/-- A completion queue entry the module posts (R114, R431). -/
structure Cqe where
  cmd : HostCmd
  /-- 11 bits | 11 R431 | entry | Status. -/
  status : Status
  /-- 1 bit | 11 R596 | entry | Do Not Retry. -/
  dnr : Bool
  /-- 32 bits | 11 R427 | entry | Completion DW0. -/
  dw0 : BitVec 32
  /-- 32 bits | 11 R427 | entry | Completion DW1. -/
  dw1 : BitVec 32
  /-- 20 bits | 09 R345 | entry | PASID of the write: that of its completion queue; none where it is untranslated. -/
  pasid : Option Nat
deriving DecidableEq, Repr

/-- What the module sends out of its pins and ports: the model's own record of its outputs (log 5). -/
inductive Output where
  /-- A completion entry. -/
  | cqe (c : Cqe)
  /-- An interrupt message: port and MSI-X vector. -/
  | irq (port vector : Nat)
  /-- Data written to host memory for a command, with the PASID of its submission queue (R345). -/
  | data (cmd : HostCmd) (bytes : List Byte)
  /-- Data written to host memory by a reel: port, PASID, address. -/
  | reelData (port : Nat) (pasid : Option Nat) (addr : Nat) (bytes : List Byte)
  /-- Answer to a register read: port, BAR, offset, value. -/
  | mmio (port bar off : Nat) (value : Word)
  /-- Unsupported Request for a read the module does not serve. -/
  | unsupported (port : Nat)
  /-- Configuration Request Retry Status, or a served configuration request. -/
  | crs (port : Nat)
  | configServed (port : Nat)
  /-- One line on UART_TXD: an event record, a peek answer, or `?`. -/
  | uartEvent (e : EvRec)
  | uartPeek (value : Word)
  | uartQuestion
  /-- A heartbeat on a coupler port: the sender's `MOD_ID`, its health, whether it sleeps, and the members it has heard,
  itself among them (R524). -/
  | heartbeat (port sender : Nat) (healthy sleeping : Bool) (heard : BitVec 8)
  /-- A sleep notice and a time flit on a coupler port. -/
  | sleepNotice (port : Nat)
  | timeFlit (port : Nat)
  /-- A negative acknowledgement on a coupler port. -/
  | nak (port : Nat)
  /-- Flit sent on a coupler port. -/
  | flit (port seq : Nat)
  /-- Confirmation of a mirrored segment or zone action to a neighbour: zone number, first unit, status (0 done). -/
  | mirrorAck (peer zoneNo start status : Nat)
  /-- A mirrored segment to a neighbour: zone number, first unit, the key of its bytes, the bytes. -/
  | mirrorData (peer zoneNo start key : Nat) (bytes : List Byte)
  /-- A zone action to a neighbour: 0 open, 1 close, 2 finish, 3 reset, 4 offline, 5 finish with reduced capacity at a
  write pointer. -/
  | mirrorAction (peer zoneNo act wp : Nat)
  /-- A bind, an unbind, and the start of a resync, told to the neighbour. -/
  | bindTold (peer pgroup peerPgroup : Nat)
  | unbindTold (peer peerPgroup : Nat)
  | resyncStart (peer peerPgroup : Nat) (zones : List Nat)
  /-- A zone copied to a neighbour: its number, state, write pointer and ZCAP, and its data up to the write pointer as runs of
  units under one key: the key and the bytes (R531, R559). -/
  | zoneCopy (peer zoneNo state wp cap : Nat) (units : List (Nat × List Byte))
  /-- A read forwarded to a neighbour, and the answer to one. -/
  | forwardRead (peer zoneNo start len cls : Nat)
  | forwardedData (peer zoneNo start : Nat) (ok : Bool) (bytes : List Byte)
  /-- What a member tells the others of its time base: may lead, locked. -/
  | timeStatus (leads locked : Bool)
  /-- NVMe-MI answer: status and bytes. -/
  | mi (status : Nat) (bytes : List Byte)
  /-- Latency Tolerance Report in µs. -/
  | ltr (us : Nat)
deriving DecidableEq, Repr

/-! ### Part, boot and pins -/

/-- The variants of R1. -/
inductive Variant where
  | z440 | z660 | z880
deriving DecidableEq, Repr

/-- What the fuses fix (R1, R4, R6, R571). -/
structure Part where
  /-- 2 bits | 00 R6 | fuse: DESIGN CHOICE LFN-880Z (log 1) | The variant. -/
  variant : Variant
  /-- 1 bit | 00 R6 | fuse: DESIGN CHOICE 1 (log 1) | Option C, the frame codec, present. -/
  codec : Bool
  /-- 1 bit | 00 R6 | fuse: DESIGN CHOICE 1 (log 1) | Option H, the write-history unit, present. -/
  history : Bool
  /-- 1 bit | 00 R6 | fuse: DESIGN CHOICE 1 (log 1) | Option F, the fan drive, present. -/
  fan : Bool
  /-- 1 bit | 00 R6 | fuse: DESIGN CHOICE 1 (log 1) | Option P, the coupler ports, present. -/
  coupler : Bool
  /-- 8 bits | 17 R571 | fuse: DESIGN CHOICE 0 (log 1) | The hardware revision. -/
  hwRev : BitVec 8
  /-- 64 bits | 17 R571 | fuse: DESIGN CHOICE 0 (log 1) | The serial number. -/
  serial : Word
  /-- 1 bit | 16 R546 | fuse: DESIGN CHOICE 0 (log 1) | The seal fuse is blown. -/
  sealFuse : Bool
deriving DecidableEq, Repr

/-- The reset sequence (R197, R198). -/
structure Boot where
  /-- 4 bits | 05 R198 | 0 | Last step of R197 completed; 9 when Parked. -/
  step : Nat
  /-- 1 bit | 05 R198 | 0 | Stopped at the step after `step`. -/
  stalled : Bool
  /-- 4 bits | 05 R198 | 0 | Bit i: option copy i passed its checks. -/
  optValid : BitVec 4
  /-- 2 bits | 05 R198 | 0 | The copy chosen. -/
  optCopy : Nat
  /-- 1 bit | 05 R198 | 0 | No valid copy; defaults in force. -/
  optDefault : Bool
  /-- 4 bits | 05 R198 | 0 | Cause of the reset: 0 input applied, 1 input restored, 2 Trip, 3 PWR_EN raised. -/
  cause : Nat
  /-- 32 bits | 05 R198 | 0 | Generation of the copy chosen. -/
  optGeneration : Nat
  /-- 1 bit | 15 R15 | 1 (R475) | The module has not been unparked since it came up. -/
  parked : Bool
  /-- 1 bit | 13 R481 | 0 | The Off latch beside the WAKE_N comparator. -/
  offLatch : Bool
  /-- 1 bit | 05 R221 | 0 | Input came back during the flush that is running. -/
  inputBack : Bool
  /-- 1 bit | 14 R507 | 0 | The next start follows a Trip shutdown. -/
  tripped : Bool
deriving DecidableEq, Repr

/-- The sideband pins and their controls (R446, R452 to R461). -/
structure Pins where
  /-- 3 bits | 12 R460, R461 | strap: DESIGN CHOICE 0 (log 1) | Identifier sampled at step 4. -/
  modIdStrap : Nat
  /-- 3 bits | 12 R460, R461 | strap: DESIGN CHOICE 0 (log 1) | Present level of the straps. -/
  modIdLive : Nat
  /-- 1 bit | 12 R461 | 1 | Present level of WAKE_N. -/
  wakeN : Bool
  /-- 1 bit | 12 R461 | 0 | Present level of PPS_IN. -/
  ppsIn : Bool
  /-- 1 bit | 12 R461 | 0 | MOD_OK held low by software. -/
  modOkLow : Bool
  /-- 1 bit | 12 R461 | 0 | PPS_OUT pulses. -/
  ppsOutEn : Bool
  /-- 1 bit | 12 R461 | 0 | W1C: an event of level 4 was written. -/
  srcCritEvent : Bool
  /-- 1 bit | 12 R461 | 0 | W1C: the straps changed after sampling. -/
  srcIdChanged : Bool
  /-- 4 bits | 12 R461 | 0xF | Bit i: source 16 + i may assert ALERT_N. -/
  alertEn : BitVec 4
  /-- 7 bits | 12 R461 | 0x7F | Decoded FAN_CMD, 0 to 100, 0x7F before the first reading. -/
  fanCmdPct : Nat
  /-- 1 bit | 12 R461 | 0 | The FAN_CMD reading is out of range. -/
  fanCmdFault : Bool
  /-- 1 bit | 12 R456 | 0 (R459: low in reset) | Level of PPS_OUT. -/
  ppsOut : Bool
  /-- 4 x 1 bit | 12 R446 | no cable: DESIGN CHOICE 0 (log 7) | Debounced cable-present of coupler ports 0 to 3. -/
  cable : List Bool
  /-- 1 bit | 12 R456 | 0 (R459: low in reset) | A PPS_OUT high time is running. -/
  ppsCounting : Bool
  /-- 1 bit | 13 R484 | 0 | A wake step missed its bound; MOD_OK is held low until PWR_EN cycles. -/
  wakeStuck : Bool
deriving DecidableEq, Repr

/-! ### Power -/

/-- The power modes of R467. -/
inductive Mode where
  | galop | waltz | minuet
deriving DecidableEq, Repr

/-- The sleeping states a request may name (R472, R473). -/
inductive SleepTarget where
  | sleep | deep | off
deriving DecidableEq, Repr

/-- The power state of the module (R472, R475, R476, R484). -/
inductive PState where
  /-- No power, or Off: nothing but the standby rail is alive. -/
  | dark
  /-- Between step 1 and step 9 of R197. -/
  | starting
  | run
  | idle
  /-- An entry into `t` is at step `n` of R476. -/
  | entering (t : SleepTarget) (n : Nat)
  | asleep (t : SleepTarget)
  /-- A wake from `t` waits for the ready signal of step `n` of R484. -/
  | waking (t : SleepTarget) (n : Nat)
  /-- The flush of R219 is at step `n`. -/
  | flushing (n : Nat)
deriving DecidableEq, Repr

/-- An entry into Sleep, Deep Sleep or Off in progress (R476, R477). -/
structure Entry where
  /-- `TIM_NOW` at the request instant. -/
  requestedAt : Nat
  /-- The Set Features command that asked, outstanding until step 4. -/
  command : Option HostCmd
  /-- A wake that fired once step 5 had begun and is held until the state is entered (R478). -/
  heldWake : List Nat
deriving DecidableEq, Repr

/-- Power modes, states, input and bank (R215 to R222, R464 to R490). -/
structure Power where
  /-- 2 bits | 13 R470 | opt: DESIGN CHOICE Minuet until step 6 (log 8) | Mode in force. -/
  mode : Mode
  /-- 2 bits | 13 R470 | none | Mode waiting for its boundary. -/
  pendingMode : Option Mode
  /-- command | 13 R468 | none | Set Features commands whose mode has not taken effect. -/
  modeCommands : List HostCmd
  /-- 9 bits | 13 R471 | 0x1FF | Core phases in service. -/
  phasesOk : BitVec 9
  /-- 2 bits | 13 R470 | 0 | Limit the phases in service put on the mode in force: 0, 1 or 2. -/
  phaseLimit : Nat
  /-- 12 bits | 13 R471 | 0 | PX input voltage in units of 20 mV. -/
  vIn : Nat
  /-- 12 bits | 13 R471 | 0 | Input current in units of 10 mA. -/
  iIn : Nat
  /-- 12 bits | 13 R471 | 0 | Input power of the last window in units of 0.1 W. -/
  pAvg : Nat
  /-- 1 bit | 13 R471 | 0 | Input between 8.0 V and 9.0 V. -/
  underRange : Bool
  /-- 1 bit | 13 R471 | 0 | Input above 60 V and at most 63 V. -/
  overRange : Bool
  /-- state | 13 R472, R475 | dark (no input before step 1, R197) | Power state of the module. -/
  pstate : PState
  /-- record | 13 R476 | none | The entry in progress. -/
  entry : Option Entry
  /-- 24 bits | 13 R475 | 0x0186A0 | Idle timer in µs. -/
  idleUs : Nat
  /-- list | 13 R474 | none | Compartments hinted idle. -/
  hinted : List Nat
  /-- 32 bits | 13 R475 | 0 | RC: entries into Idle; saturates. -/
  idleEntries : Nat
  /-- 64 bits | 13 R474 | 0 | TIM_NOW of the last activity. -/
  lastActivity : Nat
  /-- 32 bits | 13 R486 | 0x1EE (fields of R486) | Wake source enables. -/
  wakeEn : BitVec 32
  /-- 64 bits | 13 R486 | all ones | TIM_NOW at which the wake timer fires. -/
  wakeTimer : Nat
  /-- 4 bits | 13 R487 | 0 | Source of the last wake. -/
  wakeSource : Nat
  /-- 2 bits | 13 R487 | 0 | State left by the last wake: 1 Sleep, 2 Deep Sleep, 3 Off. -/
  wakeLeft : Nat
  /-- 9 bits | 13 R487 | 0 | Bit i: source i fired in the wake cycle. -/
  wakeMask : BitVec 9
  /-- 16 bits | 13 R487 | 0 | Wakes since cold reset; wraps. -/
  wakes : BitVec 16
  /-- 16 bits | 13 R487 | 0 | µs from the wake event to LOGIC_RDY. -/
  exitUs : Nat
  /-- 64 bits | 13 R484 | 0 | TIM_NOW of the wake event of the wake in progress. -/
  wakeAt : Nat
  /-- 1 bit | 13 R480, 14 R507 | 0 | Power loss or Trip came in Sleep or Deep Sleep; the flush follows the wake order. -/
  lossPending : Bool
deriving DecidableEq, Repr

/-- The records of aborted entries and closed domains, and the bank. -/
structure PowerLog where
  /-- 2 bits | 13 R488 | 0 | Cause of the last aborted entry. -/
  abortCause : Nat
  /-- 2 bits | 13 R488 | 0 | Target of the last aborted entry. -/
  abortTarget : Nat
  /-- 4 bits | 13 R488 | 0 | Wake source of the last aborted entry. -/
  abortSource : Nat
  /-- 16 bits | 13 R488 | 0 | Aborted entries since cold reset; wraps. -/
  aborts : BitVec 16
  /-- 32 bits | 13 R488 | 0 | µs from the request to the abort. -/
  abortUs : Nat
  /-- 8 bits | 13 R490 | 0 | Last domain closed or closing. -/
  closeDomain : Nat
  /-- 1 bit | 13 R490 | 0 | A close is in progress. -/
  closing : Bool
  /-- 1 bit | 13 R490 | 0 | W1C: a close was forced. -/
  forced : Bool
  /-- 16 bits | 13 R490 | 0x0032 | Close limit in ms. -/
  closeMs : Nat
  /-- 32 bits | 13 R490 | 0 | RC: transfers squashed by forced closes; saturates. -/
  squashed : Nat
  /-- 12 bits | 05 R218 | 0 | Bank voltage in units of 20 mV. -/
  vBank : Nat
  /-- 12 bits | 05 R218 | 0 | Measured capacitance in units of 0.1 mF. -/
  bankCap : Nat
  /-- 8 bits | 05 R218 | 0 | Measured ESR in mΩ; the register saturates at 255. -/
  bankEsr : Nat
  /-- 1 bit | 05 R218 | 0 | Bank at 54 V. -/
  charged : Bool
  /-- 1 bit | 05 R218 | 0 | A measurement is in progress. -/
  measBusy : Bool
  /-- 64 bits | 05 R215 | 0 | TIM_NOW at which the last measurement began. -/
  measuredAt : Nat
  /-- 1 bit | 05 R215 | 0 (R197: started in step 9) | The bank charger is on. -/
  charger : Bool
  /-- 7 bits | 05 R218 | opt: DESIGN CHOICE 80 until step 6 (log 8) | Steward's dirty limit in units of 256 MiB. -/
  dirtyCfg : Nat
  /-- 16 bits | 05 R218 | 0 | Limit in force in MiB. -/
  limitMib : Nat
  /-- 1 bit | 05 R218 | 0 | Writes acknowledged only after the SLC program. -/
  singlePath : Bool
  /-- 1 bit | 05 R208 | 0 | The marker written by the flush or by an orderly stop: 0 none, 1 orderly stop, 2 flush. -/
  marker : Nat
  /-- output | 13 R485 | 2 µs (R485: Run and Idle) | Latency the module last reported by LTR, in µs. -/
  ltrUs : Nat
  /-- output | 13 R476 | 0 | Sleep notices sent on the coupler ports. -/
  sleepNotices : Nat
deriving DecidableEq, Repr

/-! ### Time base -/

/-- The time base (R492 to R497). -/
structure TimeBase where
  /-- 64 bits | 13 R497 | 0 | TIM_NOW in ns; at most 2^64 − 1. -/
  now : Nat
  /-- 1 bit | 13 R492 | 0 (counts from step 3) | The count is running. -/
  running : Bool
  /-- 1 bit | 13 R497 | 1 | PPS edges discipline the time base. -/
  ppsEn : Bool
  /-- 1 bit | 13 R497 | 0 | PTM may be a source. -/
  ptmEn : Bool
  /-- 8 bits | 13 R497 | 0x0A | PTM dialog interval in ms. -/
  ptmMs : Nat
  /-- 2 bits | 13 R497 | 0 | Source: 0 free running, 1 PPS, 2 PTM, 3 coupler leader. -/
  source : Nat
  /-- 1 bit | 13 R497 | 0 | Locked to PPS. -/
  locked : Bool
  /-- 1 bit | 13 R497 | 0 | The source in force was lost. -/
  holdover : Bool
  /-- 1 bit | 13 R497 | 1 | Whole seconds not trustworthy. -/
  secSuspect : Bool
  /-- 1 bit | 13 R497 | 0 | Count stuck at its maximum. -/
  saturated : Bool
  /-- 16 bits | 13 R497 | 0 | Steps since cold reset; wraps. -/
  steps : BitVec 16
  /-- 32 bits | 13 R497 | 0 | err of the last accepted edge, signed ns. -/
  lastErr : Int
  /-- 32 bits | 13 R497 | 0 | Learned frequency correction, signed parts per billion. -/
  freqPpb : Int
  /-- 64 bits | 13 R497 | 0 | Stamp of the last accepted PPS_IN edge. -/
  ppsLast : Nat
  /-- 2 bits | 13 R494 | 0 | Consecutive edges within 1 µs, counted to 3. -/
  goodEdges : Nat
  /-- record | 13 R494 | none | Stamp and err of a held edge. -/
  heldEdge : Option (Nat × Int)
  /-- ns | 13 R494 | 0 | Error still to be slewed out; positive: the count is ahead. -/
  slew : Int
  /-- count | 13 R494 | 0 | Local ns since the last slewed ns, below 5,000 (200 ppm). -/
  slewPhase : Nat
  /-- 64 bits | 13 R495 | 0 | TIM_NOW of the last disciplined second. -/
  disciplinedAt : Nat
  /-- 1 bit | 13 R493 | 0 | The time has been set since cold reset. -/
  timeSet : Bool
  /-- ns | 13 R496 | none | Offset between TIM_NOW and the PTM master time when PTM became the source. -/
  ptmOffset : Option Int
  /-- 1 bit | 13 R495 | 0 | An edge has been accepted in the last 1.5 s. -/
  ppsAlive : Bool
deriving DecidableEq, Repr

/-! ### Thermal manager and fan drive -/

/-- The limits of one thermal source in °C (R501, R510). -/
structure Limits where
  notice : Nat
  critical : Nat
  trip : Nat
deriving DecidableEq, Repr

/-- The thermal manager (R499 to R510). -/
structure Thermal where
  /-- 3 bits | 14 R509 | 0 | Level from readings: 0 none, 1 Notice, 2 Enforce, 3 Critical. -/
  level : Nat
  /-- 3 bits | 14 R509 | 0 | Enforce step, 0 to 4 in the register. -/
  step : Nat
  /-- 2 bits | 14 R509 | 0 | Source of the level: 0 die, 1 flash, 2 too few sensors. -/
  source : Nat
  /-- 8 bits | 14 R509 | 0 (value − 40 = °C) | Controller die temperature. -/
  dieTemp : Nat
  /-- 8 bits | 14 R509 | 0 | Hottest flash die. -/
  flashTemp : Nat
  /-- 11 bits | 14 R509 | 0 | Index of the hottest flash die. -/
  flashDie : Nat
  /-- 1 bit | 14 R509 | 0 | An orderly stop was made since cold reset. -/
  stopped : Bool
  /-- 128 x 1 bit | 14 R500, R509 | all in service (0x80) | Ring-oscillator sensors out of service. -/
  excluded : List Nat
  /-- table | 14 R500 | none | Consecutive readings of each sensor more than 15 °C from its neighbours' median. -/
  strayRuns : SMap Nat
  /-- 16 bits | 14 R509 | 0 | Slope of the source in 0.01 °C/s, signed. -/
  slope : Int
  /-- 48 bits | 14 R510 | opt: defaults of R501 until step 6 (log 8) | Die limits. -/
  die : Limits
  /-- 24 bits | 14 R510 | opt: defaults of R501 until step 6 (log 8) | Flash limits. -/
  flash : Limits
  /-- 12 bits | 14 R510 | opt: 2000 until step 6 (log 8) | Grace window in ms. -/
  graceMs : Nat
  /-- 4 bits | 14 R510 | 5 | Hysteresis in °C. -/
  hystC : Nat
  /-- 16 bits | 14 R510 | 0x05DC | Time an orderly stop needs, in ms. -/
  stopMs : Nat
  /-- 1 bit | 14 R510 | 1 | 0: every Critical entry is an early Trip. -/
  stopEn : Bool
  /-- 6 x 8 bits | 14 R510 | 0 | Board sensors. -/
  board : List Nat
  /-- 64 bits | 14 R503 | none | Start of the grace window that is open. -/
  windowAt : Option Nat
  /-- readings | 14 R503, R505 | none | (TIM_NOW, source, °C + 40) of the readings judged, newest first. -/
  readings : List (Nat × Nat × Nat)
  /-- 2 x 2 bits | 14 R501 | 0 | Consecutive readings at or above Critical of the controller die, and of the flash die read last. -/
  critRuns : Nat × Nat
  /-- 2 x 2 bits | 14 R501 | 0 | Consecutive readings at or above Trip of the controller die, and of the flash die read last. -/
  tripRuns : Nat × Nat
  /-- table | 14 R499 | 0 | Last temperature read of each flash die, °C + 40. -/
  dieTemps : SMap Nat
  /-- table of 2 x 2 bits | 14 R499, R501 | (0, 0) | Consecutive readings of each flash die at or above Critical and Trip. -/
  dieRuns : SMap (Nat × Nat)
  /-- record | 14 R507 | none | Source, temperature, early of a Trip, posted at the next start. -/
  tripRecord : Option (Nat × Nat × Bool)
  /-- 1 bit | 14 R512 | 0 | The floor of Enforce step 1 that two lost fans set. -/
  fanFloor : Bool
deriving DecidableEq, Repr

/-- One fan output (R513 to R517). -/
structure FanOut where
  /-- 3 bits | 14 R517 | 0 | 0 off, 1 clamp test, 2 measuring, 3 braking, 4 aligning, 5 ramping, 6 running, 7 faulted. -/
  state : Nat
  /-- 7 bits | 14 R517 | 0 | Command in force. -/
  cmdPct : Nat
  /-- 16 bits | 14 R517 | 0 | Measured speed. -/
  rpm : Nat
  /-- 7 bits | 14 R517 | 0 | PWM duty. -/
  dutyPct : Nat
  /-- 16 bits | 14 R517 | 0 | Starts since cold reset; wraps. -/
  starts : BitVec 16
  /-- 2 bits | 14 R516 | 0 | Failed retries in a row. -/
  retries : Nat
  /-- 1 bit | 14 R512, R516 | 0 | The output counts as lost. -/
  lost : Bool
  /-- count | 14 R513 | 0 | Valid zero crossings in a row since hand-over, up to 12. -/
  crossings : Nat
  /-- 3 bits | 14 R514 | 0 | Commutation step, 0 to 5. -/
  commutation : Nat
  /-- ns | 14 R514 | 0 | Last step interval. -/
  interval : Nat
  /-- 64 bits | 14 R514 | 0 | TIM_NOW of the next commutation. -/
  nextCommutation : Nat
  /-- 64 bits | 14 R516 | 0 | TIM_NOW of the last fault. -/
  faultAt : Nat
deriving DecidableEq, Repr

/-- The fan controller (R511 to R517). -/
structure Fans where
  /-- 2 bits | 14 R517 | 0 | Command source. -/
  cmdSrc : Nat
  /-- 2 bits | 14 R517 | opt: 0 until step 6 (log 8) | FAN_CMD meaning. -/
  cmdMode : Nat
  /-- 4 bits | 14 R517 | opt: 0 until step 6 (log 8) | Outputs enabled. -/
  enable : BitVec 4
  /-- 7 bits | 14 R517 | 0x0F | Least command in percent. -/
  minPct : Nat
  /-- 16 bits | 14 R517 | opt: 0 until step 6 (log 8) | Rated speed in rpm. -/
  ratedRpm : Nat
  /-- 4 bits | 14 R517 | opt: 0 until step 6 (log 8) | Motor pole pairs. -/
  polePairs : Nat
  /-- 4 bits | 14 R517 | 0 | W1C: stall. -/
  stall : BitVec 4
  /-- 4 bits | 14 R517 | 0 | W1C: start failure. -/
  startFail : BitVec 4
  /-- 4 bits | 14 R517 | 0 | W1C: overcurrent. -/
  overcurrent : BitVec 4
  /-- 4 bits | 14 R517 | 0 | W1C: open phase. -/
  openPhase : BitVec 4
  /-- 4 bits | 14 R517 | 0 | W1C: speed low. -/
  speedLow : BitVec 4
  /-- 1 bit | 14 R517 | 0 | W1C: clamp found faulty. -/
  clampFault : Bool
  /-- 1 bit | 14 R517 | 0 | W1C: rail above 28 V. -/
  rail28 : Bool
  /-- 1 bit | 14 R517 | 0 | W1C: rail at 30 V. -/
  rail30 : Bool
  /-- 4 bits | 14 R517 | 0 | W1C: held off. -/
  heldOff : BitVec 4
  /-- 8 bits | 14 R517 | 0 | Fan rail in units of 0.2 V. -/
  railV : Nat
  /-- 1 bit | 14 R515 | 0 | The clamp switches its resistor across the rail. -/
  clampOn : Bool
  /-- 1 bit | 14 R515 | 0 | Zero-vector braking is selected. -/
  zeroVector : Bool
  /-- 1 bit | 14 R515 | 0 | All gates are off after a 30 V cut. -/
  gatesOff : Bool
  /-- 64 bits | 14 R515 | 0 | TIM_NOW from which the outputs of a 30 V cut start again: 100 ms after the rail fell below 26 V. -/
  restartAt : Nat
  /-- 1 bit | 14 R515 | 0 | The last start found the clamp good. -/
  clampGood : Bool
  /-- 4 records | 14 R517 | 0 | The outputs. -/
  outs : List FanOut
deriving DecidableEq, Repr

/-! ### Coupled modules -/

/-- One message that waits to be sent on a link (R522). -/
structure Sending where
  /-- rank | 15 R522 | entry | 0 heartbeat, membership and time; 1 to 3 what serves a command of class 0 to 2; 4 resync. -/
  rank : Nat
  out : Output
deriving DecidableEq, Repr

/-- One coupler port (R519 to R521, R539). -/
structure CplPort where
  /-- 3 bits | 15 R539 | 0 | 0 no cable, 1 training, 2 up, 3 up on two lanes, 4 down, 5 isolated. -/
  state : Nat
  /-- 3 bits | 15 R539 | 0 | MOD_ID at the far end. -/
  peer : Nat
  /-- 2 bits | 15 R539 | 0 | Port at the far end. -/
  peerPort : Nat
  /-- 16 bits | 15 R539 | 0 | RC: flits replayed; saturates. -/
  retries : Nat
  /-- 16 bits | 15 R539 | 0 | Times the link went down; wraps. -/
  downs : BitVec 16
  /-- 4 bits | 15 R520 | 0 | Replays of the flit at the head of the replay buffer. -/
  replays : Nat
  /-- list | 15 R520 | none | Flits sent and not yet acknowledged, oldest first; at most 512. -/
  replayBuf : List Nat
  /-- count | 15 R520 | 0 | Number of the next flit sent on the link. -/
  nextFlit : Nat
  /-- list | 15 R522 | none | What waits for room in the replay buffer, in the order it came. -/
  sendQueue : List Sending
deriving DecidableEq, Repr

/-- The role of this side of a pair (R533, R535, R536). -/
inductive PairRole where
  | none | primary | mirror | promoted | broken | superseded
deriving DecidableEq, Repr

/-- One mirror pair, or one bind that waits for the neighbour's (R527). -/
structure Pair where
  /-- 16 bits | 15 R541 | entry | Local placement group. -/
  pgroup : Nat
  /-- 3 bits | 15 R541 | entry | Neighbour. -/
  peer : Nat
  /-- 16 bits | 15 R541 | entry | The neighbour's placement group. -/
  peerPgroup : Nat
  /-- 3 bits | 15 R536 | entry | Role of this side. -/
  role : PairRole
  /-- 1 bit | 15 R527 | entry | Both binds agreed. -/
  formed : Bool
  /-- 13 bits | 15 R528 | entry | Owner that stages mirrored segments. -/
  owner : Nat
  /-- 64 bits | 15 R536 | entry | TIM_NOW of the last role change. -/
  changed : Nat
  /-- list | 15 R531 | entry | Zones still to copy. -/
  resync : List Nat
  /-- list | 15 R535 | entry | Zones written since the break. -/
  writtenSince : List Nat
  /-- 32 bits | 15 R536 | entry | NSID of the partner namespace. -/
  peerNsid : Nat
deriving DecidableEq, Repr

/-- The coupler (R519 to R541). -/
structure Coupler where
  /-- 4 records | 15 R539 | 0 | The ports. -/
  ports : List CplPort
  /-- 8 bits | 15 R540 | 0 | Configured members. -/
  membersCfg : BitVec 8
  /-- 8 bits | 15 R540 | 0 | Members seen. -/
  membersSeen : BitVec 8
  /-- 8 bits | 15 R540 | 0 | Members sleeping. -/
  sleeping : BitVec 8
  /-- 1 bit | 15 R540 | 0 | Quorum held. -/
  quorum : Bool
  /-- 1 bit | 15 R540 | 0 | May lead time. -/
  timeLeadEn : Bool
  /-- 1 bit | 15 R540 | 0 | A leader is chosen. -/
  leaderValid : Bool
  /-- 3 bits | 15 R540 | 0 | The leader. -/
  leader : Nat
  /-- 3 bits | 15 R540 | 0 | Hops to the leader. -/
  hops : Nat
  /-- 32 bits | 15 R540 | 0 | Error of the last exchange, signed ns. -/
  lastErr : Int
  /-- records | 15 R527, R541 | none | Pairs and waiting binds. -/
  pairs : List Pair
  /-- 1 bit | 15 R541 | 1 | The mirror operation is done. -/
  cmdDone : Bool
  /-- 3 bits | 15 R541 | 0 | Status of the last mirror operation. -/
  cmdStatus : Nat
  /-- 16 bits | 15 R541 | 0 | Placement group the last mirror operation named. -/
  cmdPgroup : Nat
  /-- 8 x 1 bit | 15 R537 | 0 | Members that say they may lead time. -/
  leads : BitVec 8
  /-- 8 x 1 bit | 15 R537 | 0 | Members that say their time base is locked to PPS. -/
  locks : BitVec 8
  /-- 8 x 1 bit | 15 R533 | 0 | Members fenced since their loss. -/
  fenced : BitVec 8
  /-- 32-bit half | 17 R566 | 0 | Fields latched by a 4-byte write of CPL_MIRROR_CMD. -/
  cmdLatch : Word
  /-- list | 15 R535 | none | Zone copies of the copy-zone operation outside any pair: (group, peer, peer group, zone). -/
  copies : List (Nat × Nat × Nat × Nat)
  /-- 8 x 1 bit | 15 R535 | 0 | Neighbours of the pairs that outlived a power cycle and have not joined since. -/
  absent : BitVec 8
deriving DecidableEq, Repr

/-! ### Protection, option area, keys and sanitize -/

/-- The protection levels of R543. -/
inductive ProtLevel where
  | opened | closed | sealed
deriving DecidableEq, Repr

/-- The operation the option area, a key slot or a level command is carrying out. -/
inductive Sanitizing where
  | none | crypto | block | lowering
deriving DecidableEq, Repr

/-- One image of the option area (R199, R549): its bytes as a table over zero. -/
structure OptImage where
  /-- 32 bits | 05 R199 | entry | Generation. -/
  generation : Nat
  /-- 64 KiB | 16 R549 | entry | The image's bytes; unlisted bytes are 0. -/
  bytes : SMap Byte
deriving DecidableEq, Repr

/-- One copy of the option area on flash (R199, R200). -/
structure OptCopy where
  /-- image | 05 R199 | none written: DESIGN CHOICE (log 9) | The newest unit of the block in use; none where it fails its check. -/
  image : Option OptImage
  /-- 3 bits | 05 R200 | 0: DESIGN CHOICE (log 9) | Block of 0 to 7 in use. -/
  block : Nat
  /-- 9 bits | 05 R200 | 0: DESIGN CHOICE (log 9) | 64 KiB units programmed in that block. -/
  units : Nat
  /-- list | 05 R200 | none: DESIGN CHOICE (log 9) | Blocks of 0 to 7 retired. -/
  retired : List Nat
deriving DecidableEq, Repr

/-- The security engine and the option loader (R543 to R563). -/
structure Security where
  /-- 2 bits | 16 R548 | opt: DESIGN CHOICE Closed until step 6 (log 8) | Level in force. -/
  level : ProtLevel
  /-- 1 bit | 16 R548 | 0 | A lowering is in progress. -/
  lowering : Bool
  /-- 3 bits | 16 R548 | 0 | Status of the last level command. -/
  protStatus : Nat
  /-- 1 bit | 16 R548 | 1 | No level command runs. -/
  protDone : Bool
  /-- 3 bits | 16 R552 | 0 | Status of the last option-area operation. -/
  optStatus : Nat
  /-- 1 bit | 16 R552 | 1 | No option-area operation runs. -/
  optDone : Bool
  /-- image | 16 R550, R552 | opt: defaults, generation 0 until step 6 (log 8) | The image in force. -/
  optInForce : OptImage
  /-- 64 KiB | 16 R550 | opt: defaults until step 6 (log 8) | The OPT staging copy; unlisted bytes are 0. -/
  optStage : SMap Byte
  /-- 4 records | 05 R199 | log 9 | The four copies on flash. -/
  optCopies : List OptCopy
  /-- table | 16 R553 | empty before a mount (R554) | Key slots holding a key: slot to key identity. -/
  keys : SMap Nat
  /-- 1 bit | 16 R556 | 0 | The queried slot holds a key. -/
  keyPresent : Bool
  /-- 1 bit | 16 R556 | 1 | No key operation runs. -/
  keyDone : Bool
  /-- 3 bits | 16 R556 | 0 | Status of the last key operation. -/
  keyStatus : Nat
  /-- 9 x 64 bits | 16 R556 | 0 | SEC_KEY_DATA; reads 0. -/
  keyData : List Word
  /-- slot and key | 16 R558 | none | The slot whose erase runs, and the key that commands in flight still use. -/
  keyErasing : Option (Nat × Nat)
  /-- 2 bits | 16 R563 | 0 | Sanitize action in force or last run. -/
  sanAction : Sanitizing
  /-- 1 bit | 16 R563 | 0 | A sanitize is in progress. -/
  sanActive : Bool
  /-- 1 bit | 16 R563 | 0 | Failure mode. -/
  sanFailed : Bool
  /-- 1 bit | 16 R563 | 0 | Resumed after a reset. -/
  sanResumed : Bool
  /-- 1 bit | 16 R560 | 0 | AUSE of the sanitize in force. -/
  sanAuse : Bool
  /-- 7 bits | 16 R563 | 0 | Blocks erased, in percent. -/
  sanPct : Nat
  /-- 64 bits | 16 R563 | 0 | TIM_NOW of the start or the resume. -/
  sanStart : Nat
deriving DecidableEq, Repr

/-! ### Levels: regions, clusters, units (R18 to R52) -/

/-- What a region's budget window holds (R30, R31, R49). -/
structure RegionBudget where
  /-- mW | 01 R31 | 0 | Power demand reported in the current window. -/
  demandMw : Nat
  /-- count | 01 R31 | 0 | Program demand reported in the current window. -/
  demandProg : Nat
  /-- mW | 01 R31 | 0 | Share of the input-power cap in force. -/
  shareMw : Nat
  /-- count | 01 R31 | 0 | Share of the concurrent-program cap in force. -/
  shareProg : Nat
deriving DecidableEq, Repr


/-- Regions, clusters, bridge, crossbars and clock domains. -/
structure Levels where
  /-- 16 bits | 01 R52 | 0xFF00 | Bit k: primary region of cluster k. -/
  clusterOwner : BitVec 16
  /-- 1 bit | 01 R52 | 1 | Region A in service. -/
  regionA : Bool
  /-- 1 bit | 01 R52 | 1 | Region B in service. -/
  regionB : Bool
  /-- 1 bit | 01 R52 | 0 | A takeover is between Detect and Drain. -/
  takeover : Bool
  /-- 1 bit | 01 R52 | 0 | Region that performed the last takeover. -/
  takeoverBy : Nat
  /-- 16 bits | 01 R52 | 0 | Clusters lost as a whole. -/
  clusterLost : BitVec 16
  /-- 1 bit | 01 R47 | 1 | The region bridge is sound. -/
  bridgeOk : Bool
  /-- 2 x 16 bits | 01 R26 | all attached | Bit k: cluster k's attachment to crossbar A, B is lost. -/
  xbarLost : BitVec 16 × BitVec 16
  /-- records | 01 R31 | 0 | Budgets of region A and B. -/
  budgetA : RegionBudget
  budgetB : RegionBudget
  /-- 3 bits | 14 R504 | 0 | Row of the ladder in force for the program cap and the read-around fraction. -/
  rowInForce : Nat
  /-- 3 bits | 14 R504 | 0 | Row of the ladder in force for the power cap. -/
  rowPower : Nat
  /-- 64 bits | 01 R129 | 0 | Start of the current credit window. -/
  windowStart : Nat
  /-- mW | 13 R466 | 0 | Excess of the last window's measured power, taken off the next window. -/
  excessMw : Nat
  /-- 256 bits | 01 R33, R34 | domain 0 (log 10) | Clock domains running. -/
  clocks : BitVec 256
  /-- table | 01 R20, R21 | in service | Failed units: unit key (kind × 4,096 + instance) to cause + 1. -/
  unitsFailed : SMap Nat
  /-- 64 bits | 01 R48 | 0 | TIM_NOW of the last region fault. -/
  takeoverAt : Nat
  /-- number | the model's own | 0 | Number of the next flight at that fault. -/
  takeoverMark : Nat
  /-- 1 bit | 03 R136 | 0 | Single staging: no other region to twin in. -/
  singleStaging : Bool
  /-- 1 bit | 01 R51 | 0 | Both regions are lost. -/
  bothLost : Bool
deriving DecidableEq, Repr

/-! ### Zones, placement groups, namespaces (R53 to R99, R602) -/

/-- The zone states of R66. -/
inductive ZState where
  | empty | implicitOpen | explicitOpen | closed | full | readOnly | offline
deriving DecidableEq, Repr

/-- One zone slot (R54 to R77, R602). Units are 4 KiB. -/
structure Zone where
  /-- 4 bits | 02 R90 | Empty | Zone state. -/
  state : ZState
  /-- 1 bit | 02 R61 | landed | Latched write mode: true direct. -/
  direct : Bool
  /-- 2 bits | 02 R61 | none set | The zone's own mode setting. -/
  setting : Option Bool
  /-- 19 bits | 02 R602 | 0 | Admitted write pointer, units from ZSLBA. -/
  wp : Nat
  /-- 19 bits | 02 R53 | 368,640 | ZCAP in units. -/
  cap : Nat
  /-- 1 bit | 02 R75 | 0 | Rows pinned in the landing pool. -/
  pinned : Bool
  /-- 1 bit | 02 R75 | 0 | ZCAP reduced; ZFC set. -/
  reduced : Bool
  /-- 16 x (11 + 13) bits | 02 R57 | none | Die and block of each member. -/
  members : List (Nat × Nat)
  /-- 1 bit | 02 R602, R69 | 0 | The zone holds its active resource. -/
  active : Bool
  /-- 19 bits | 02 R69 | none | Data end kept by a Finish. -/
  dataEnd : Option Nat
  /-- 19 bits | 02 R75 | 0 | End of the acknowledged data that starts at ZSLBA. -/
  acked : Nat
  /-- list | 02 R75 | none | Acknowledged runs beyond `acked`: (start, end) in units. -/
  runs : List (Nat × Nat)
  /-- state | 02 R602 | none | Open state held before the command whose admission made the zone Full. -/
  beforeFull : Option ZState
  /-- command | 02 R69 | none | Finish command that has not completed. -/
  finishing : Bool
  /-- list | 02 R76 | none | Members failed and not rebuilt. -/
  failed : List Nat
deriving DecidableEq, Repr

/-- One placement group (R79, R88). -/
structure PGroup where
  /-- 10 bits | 02 R88 | entry | Owning compartment. -/
  comp : Nat
  /-- 1 bit | 02 R88 | entry | Default write mode: true direct. -/
  defaultDirect : Bool
  /-- list | 02 R79 | entry | Stripe groups, ascending. -/
  groups : List Nat
  /-- 32 bits | 02 R88 | none | Zoned namespace carried. -/
  nsid : Option Nat
deriving DecidableEq, Repr

/-- What a namespace is built on (R55, R91). -/
inductive NsKind where
  | zoned (pgroup : Nat)
  | conventional (sizeGib : Nat)
deriving DecidableEq, Repr

/-- One namespace. -/
structure NsEntry where
  kind : NsKind
  /-- 10 bits | 07 R297 | entry | Owning compartment. -/
  comp : Nat
  /-- 1 bit | 11 R422 | entry | 16 KiB LBA format. -/
  lba16 : Bool
  /-- 1 bit | 07 R297 | 0 | A delete waits for the carriages to drain. -/
  deleting : Bool
deriving DecidableEq, Repr

/-- What is written in one 4 KiB unit of a zone or of the conventional namespace. -/
structure UnitTag where
  /-- 56 bits | 05 R203 | entry | Write sequence. -/
  seq : Nat
  /-- 64 bits | 05 R202 | entry | TIM_NOW when the data was admitted. -/
  time : Nat
  /-- identity | 16 R557 | entry | Key the unit is enciphered under; 0 none. -/
  key : Nat
deriving DecidableEq, Repr

/-- One stripe row of a zone that has been written. -/
structure Row where
  /-- 1 bit | 04 R159, R165 | 0 | The row is closed in the zone's QLC blocks and is read from them. -/
  qlc : Bool
  /-- 1 bit | 02 R75 | 0 | Pinned in the landing pool. -/
  pinned : Bool
  /-- 16 bits | 04 R159 | 0 | Members programmed in the zone's QLC blocks. -/
  programmed : BitVec 16
  /-- 1 bit | 04 R159 | 0 | The programs of a direct row have been issued. -/
  issued : Bool
  /-- 1 bit | 04 R164 | 0 | A fold of the row is running. -/
  folding : Bool
  /-- 1 bit | 05 R213 | 0 | A flushed direct row reloaded into a front at a mount; it counts as dirty until it closes. -/
  reloaded : Bool
  /-- 64 bits | 04 R163 | 0 | TIM_NOW at which the row became foldable. -/
  foldableAt : Nat
deriving DecidableEq, Repr

/-- One carved slot of the conventional region (R91). -/
structure ConvSlot where
  /-- 16 x (11 + 13) bits | 02 R91 | none | Die and block of each member. -/
  members : List (Nat × Nat)
  /-- list | 04 R191 | none | Members failed and not rebuilt. -/
  failed : List Nat
deriving DecidableEq, Repr

/-- A stripe row of the conventional region that is being filled with landed units (R95). -/
structure ConvFill where
  /-- row | 02 R94 | entry | Stripe row, at slot × 96 + row. -/
  row : Nat
  /-- list | 02 R95 | entry | Units on their way: (unit, its write sequence at the copy, its place in the row). -/
  moves : List (Nat × Nat × Nat)
  /-- 16 bits | 04 R159 | 0 | Members programmed. -/
  programmed : BitVec 16
deriving DecidableEq, Repr

/-- The zone engines and the translation engine. -/
structure Zones where
  /-- table | 02 R54 | every slot Empty | Zones by module-wide identifier. -/
  zones : SMap Zone
  /-- table | 02 R79 | none | Placement groups by number. -/
  pgroups : SMap (Option PGroup)
  /-- table | 07 R297 | none | Namespaces by NSID. -/
  spaces : SMap (Option NsEntry)
  /-- 7 bits | 02 R85 | 0 | ZNE_SG_SEL. -/
  sgSel : Nat
  /-- 7 bits | 02 R87 | 0 | ZNE_PG_SEL. -/
  pgSel : Nat
  /-- 64 bits | 02 R90 | 0 | ZNE_ZONE_STAT. -/
  zoneStat : Word
  /-- table | 02 R602 | zeroes | Bytes written, at zone × 2^31 + byte offset. -/
  data : SMap Byte
  /-- table | 05 R202, 16 R557 | none | Tags of written units, at zone × 368,640 + unit. -/
  tags : SMap UnitTag
  /-- table | 04 R159 | none | Rows that hold data, at zone × 96 + row. -/
  rows : SMap Row
  /-- 5 bits | 02 R91 | 0 | c, slots carved per stripe group. -/
  carved : Nat
  /-- table | 02 R94 | unmapped | Conventional map: 4 KiB unit to 32-bit entry. -/
  convMap : SMap (BitVec 32)
  /-- table | 02 R95 | zeroes | Bytes of the conventional namespace, by byte address. -/
  convData : SMap Byte
  /-- table | 16 R557 | none | Tags of written conventional units. -/
  convTags : SMap UnitTag
  /-- count | 02 R95 | 0 | 4 KiB units of the landing share in use. -/
  convShare : Nat
  /-- count | 02 R95 | 0 | Next unit index of the landing share. -/
  convNext : Nat
  /-- list | 02 R95, 05 R216 | none | Conventional units acknowledged and not yet programmed. -/
  convPend : List Nat
  /-- row | 02 R94 | 0 | Next stripe row of the conventional region, at slot × 96 + row; 0: none is open. -/
  convRegionNext : Nat
  /-- percent | 02 R96 | 50 | Valid-unit threshold below which a row qualifies for reclaim. -/
  reclaimPct : Nat
  /-- table | 02 R91 | none | Carved slots that hold blocks, by module-wide slot identifier. -/
  convSlots : SMap ConvSlot
  /-- table | 02 R96 | 0 | 1 + the valid units of each conventional stripe row that has been filled and not reclaimed, at slot × 96 + row. -/
  convRows : SMap Nat
  /-- list | 02 R95 | none | Conventional stripe rows that are being filled. -/
  convFills : List ConvFill
  /-- list | 02 R76 | none | (zone × 96 + row) whose reads complete with Unrecovered Read Error. -/
  unreadable : List Nat
  /-- 1 bit | 05 R210 | 0 | The mount reel has brought the zone engines online. -/
  online : Bool
  /-- 56 bits | 05 R203 | 0 | Write sequence: last value assigned. -/
  seq : Nat
deriving DecidableEq, Repr

/-! ### Carriages (R100 to R112) and credit windows (R129 to R133) -/

/-- One entry of the carriage table (R102 to R105). -/
structure Carriage where
  /-- 1 bit | 03 R102 | 0 | Coupled and serving I/O. -/
  coupled : Bool
  /-- 2 bits | 03 R102 | 0 | 0 zone, 1 placement group, 2 conventional map. -/
  handleType : Nat
  /-- 24 bits | 03 R102 | 0 | Zone identifier or placement group. -/
  handle : Nat
  /-- 10 bits | 03 R102 | 0 | Owning compartment. -/
  comp : Nat
  /-- 2 bits | 03 R102 | 0 | Read class: 0 Express, 1 Standard, 2 Bulk. -/
  readClass : Nat
  /-- 2 bits | 03 R102 | 0 | Write class. -/
  writeClass : Nat
  /-- 1 bit | 03 R102 | 0 | Twin staging on. -/
  twin : Bool
  /-- 1 bit | 03 R102 | 0 | Encryption stage present. -/
  encrypt : Bool
  /-- 1 bit | 03 R102 | 0 | Frame codec stage present. -/
  codec : Bool
  /-- 11 bits | 03 R103 | 0 | Key slot. -/
  keySlot : Nat
  /-- 11 bits | 03 R103 | 0 | Codec context. -/
  codecCtx : Nat
  /-- 12 bits | 03 R103 | 0 | Buffer-pool owner charged for staging. -/
  owner : Nat
  /-- 16 bits | 03 R103 | 0 | Host DMA groups. -/
  dmaGroups : BitVec 16
  /-- 16 bits | 03 R104 | 0 | Couplings of the entry; wraps. -/
  generation : BitVec 16
  /-- 32 bits | 03 R104 | 0 | Namespace served. -/
  nsid : Nat
  /-- 24 bits | 03 R105 | 0 | Commands admitted and not yet completed. -/
  outstanding : Nat
  /-- 1 bit | 03 R105 | 0 | Uncoupling or replacement in progress. -/
  draining : Bool
deriving DecidableEq, Repr

/-- The steps a staging segment goes through (R114). -/
inductive SegStep where
  /-- Waits for its grant (step 2). -/
  | waiting
  /-- Granted; its transfer runs (step 3). -/
  | granted
  /-- Transferred; waits for the dirty limit (R217). -/
  | dirtyWait
  /-- Transferred; waits for its SLC program (R115). -/
  | programming
  /-- At its acknowledgement point (step 5). -/
  | acked
  /-- Released (R386). -/
  | released
  /-- Failed or squashed: no effect. -/
  | dropped
deriving DecidableEq, Repr

/-- One staging segment of an admitted write (R113, R114). -/
structure Seg where
  /-- units | 03 R113 | entry | First unit within the command. -/
  off : Nat
  /-- units | 03 R113 | entry | Length. -/
  len : Nat
  step : SegStep
  /-- 7 bits | 03 R113 | entry | Host DMA channel. -/
  channel : Nat
  /-- handle | 10 R384 | none | Staging buffer granted. -/
  buffer : Option Nat
  /-- 56 bits | 05 R203 | 0 | First write sequence value taken at the grant. -/
  seq : Nat
  /-- bytes | 03 R114 | none | Data transferred and not yet acknowledged. -/
  data : List Byte
  /-- 1 bit | 15 R529 | 0 | The mirror has confirmed the segment. -/
  mirrored : Bool
deriving DecidableEq, Repr

/-- What an admitted I/O command does (R421). -/
inductive FlightKind where
  | write | append | zeroes | frameAppend | convWrite
  | read | verify | compare | frameRead
  | finish | reset | open_ | close | offline_
deriving DecidableEq, Repr

/-- A read's decoding tier and progress (R117, R184). -/
structure Sense where
  /-- units | 03 R117 | entry | First unit of the zone or the conventional map the sense serves. -/
  unit : Nat
  /-- units | 03 R117 | entry | Units served. -/
  count : Nat
  /-- 11 bits | 03 R117 | entry | Die. -/
  die : Nat
  /-- 13 bits | 03 R117 | entry | Block. -/
  block : Nat
  /-- 13 bits | 03 R117 | entry | Page. -/
  page : Nat
  /-- 3 bits | 04 R184 | entry | Decoding tier in progress, 0 to 5. -/
  tier : Nat
  /-- 3 bits | 04 R184 | entry | Attempt within the tier. -/
  attempt : Nat
  /-- 1 bit | 03 R122 | entry | Served by reconstruction from the other members. -/
  around : Bool
  /-- row and unit | 03 R122 | entry | Landing row and unit sensed; none in QLC. -/
  land : Option (Nat × Nat)
  /-- 4 bits | 04 R181, R183 | entry | Threshold set of the first sense. -/
  set0 : Nat
  /-- 4 bits | 04 R184 | none | Fewest unsatisfied checks of a ladder, and the set that left them. -/
  best : Option (Nat × Nat)
  /-- 1 bit | 03 R117 | 0 | Its data has been decoded, or has failed at tier 5. -/
  done : Bool
deriving DecidableEq, Repr

/-- A host I/O command admitted to a carriage and not yet completed. -/
structure Flight where
  /-- number | the model's own | entry | Number of the flight, never used again. -/
  id : Nat
  cmd : HostCmd
  kind : FlightKind
  /-- 15 bits | 03 R107 | entry | Carriage it rides. -/
  carriage : Nat
  /-- 2 bits | 03 R118 | entry | Class in force at admission. -/
  cls : Nat
  /-- 64 bits | 03 R114 | entry | Admission stamp. -/
  admittedAt : Nat
  /-- 24 bits | 02 R54 | entry | Zone; none for the conventional namespace. -/
  zone : Option Nat
  /-- units | 03 R113 | entry | First unit, from ZSLBA or from the start of the conventional namespace. -/
  start : Nat
  /-- units | 03 R113 | entry | Length in units. -/
  len : Nat
  /-- identity | 16 R558 | entry | Key taken at admission; 0 none. -/
  key : Nat
  segs : List Seg
  senses : List Sense
  /-- bytes | 03 R117 | entry | Data the read returns, as far as it is read. -/
  data : List Byte
  /-- status | 11 R431 | success | Status the command will complete with. -/
  status : Status
  /-- 3 bits | 11 R423 | entry | PRCHK. -/
  prchk : BitVec 3
  /-- 16 + 16 bits | 11 R423 | entry | LBAT and LBATM. -/
  lbat : BitVec 16 × BitVec 16
  /-- 48 bits | 11 R423 | entry | ILBRT. -/
  ilbrt : Nat
  /-- 1 bit | 11 R362 | entry | Squashed: no completion is written. -/
  squashed : Bool
  /-- 1 bit | 15 R529 | entry | Waits for the mirror's confirmation. -/
  mirrorWait : Bool
  /-- ticket | 07 R298 | none | Reel instance and ticket of a ZCTL, in place of a host command. -/
  ticket : Option (Nat × Nat)
  /-- neighbour and owner | 15 R528, R532 | none | Neighbour that a mirrored segment or a forwarded read came from, and the
  buffer-pool owner of the bind, in place of a host command. -/
  peer : Option (Nat × Nat)
  /-- 1 bit | 15 R532 | 0 | A read that waits for the other side of the pair. -/
  forwarded : Bool
  /-- state | 06 R250 | none | State of the zone that a Frame Append's record took out of Empty or Closed. -/
  opened : Option ZState
  /-- 1 bit | 02 R73 | entry | Part of a Select All command, which completes with the last of its zones. -/
  group : Bool
deriving DecidableEq, Repr

/-- An acknowledged staging segment that has not been released yet (R386). -/
structure Staged where
  /-- number | the model's own | entry | Flight it belonged to. -/
  flight : Nat
  /-- index | 03 R113 | entry | Segment of that flight. -/
  seg : Nat
  /-- 24 bits | 02 R54 | entry | Zone; none for the conventional namespace. -/
  zone : Option Nat
  /-- units | 03 R113 | entry | First unit, from ZSLBA or from the start of the conventional namespace. -/
  start : Nat
  /-- units | 03 R113 | entry | Length. -/
  len : Nat
  /-- 2 bits | 03 R118 | entry | Class. -/
  cls : Nat
  /-- 10 bits | 03 R130 | entry | Compartment. -/
  comp : Nat
  /-- handle | 10 R384 | entry | Staging buffer. -/
  buffer : Nat
deriving DecidableEq, Repr

/-- Read-around budget of one cluster (R127, R128). -/
structure RaBudget where
  /-- 8 bits | 03 R127 | 0x0C | Fraction in force in percent. -/
  fraction : Nat
  /-- 12 bits | 03 R127 | 0x028 | Express slack in µs. -/
  express : Nat
  /-- 12 bits | 03 R127 | 0x096 | Standard slack in µs. -/
  standard : Nat
  /-- 12 bits | 03 R127 | 0x7D0 | Bulk slack in µs. -/
  bulk : Nat
  /-- 36 bits | 03 R127 | none | Slacks written and not yet in effect. -/
  written : Option (Nat × Nat × Nat)
  /-- 24 bits | 03 R128 | 0 | Allowance of the current window in µs. -/
  allowance : Nat
  /-- 24 bits | 03 R128 | 0 | Die-time charged in the current window in µs. -/
  used : Nat
  /-- 32 bits | 03 R128 | 0 | RC: read-arounds targeted at the cluster; saturates. -/
  reconstructed : Nat
  /-- 32 bits | 03 R128 | 0 | RC: reads that fell back to suspend; saturates. -/
  suspended : Nat
  /-- µs | 03 R125 | 0 | Die-time spent on reads in the current window. -/
  readUs : Nat
deriving DecidableEq, Repr

/-- The carriage table, the commands riding it, and the credit windows. -/
structure Carriages where
  /-- 32,768 x 32 bytes | 03 R101 | 0 | The carriage table. -/
  table : SMap Carriage
  /-- 32 bits | 03 R106 | 0 | RC: commands refused for want of a carriage; saturates. -/
  miss : Nat
  /-- list | 03 R113, R117 | none | Commands in flight, in order of admission. -/
  flights : List Flight
  /-- counter | the model's own | 0 | Number of the next flight. -/
  nextFlight : Nat
  /-- list | 10 R386 | none | Acknowledged segments not yet released, oldest first. -/
  staged : List Staged
  /-- 16 records | 03 R127 | R127 | Read-around budgets of the clusters. -/
  ra : List RaBudget
  /-- table | 03 R129 | 0 | Credit share per mille, at cluster × 1,024 + compartment. -/
  share : SMap Nat
  /-- table | 03 R129 | 0 | Unspent credit in µs of the current window. -/
  credit : SMap Nat
  /-- table | 03 R132 | none | Shares set and not yet in effect. -/
  shareNext : SMap Nat
deriving DecidableEq, Repr

/-! ### Flash (R139 to R196) -/

/-- The roles of R142, coded as field 0 of table 1. -/
inductive Role where
  | zone | landing | spare | system
deriving DecidableEq, Repr

/-- What a block is used for at this moment. -/
inductive BlockUse where
  /-- Erased and on its role's free list. -/
  | free
  /-- Member of a zone. -/
  | zone (z : Nat)
  /-- Member of a conventional stripe row's slot. -/
  | conventional
  /-- Landing block taking landing units. -/
  | landingOpen
  /-- Landing block that is full. -/
  | landingClosed
  /-- System block in use. -/
  | system
  /-- In its die's deferred-erase queue, to be erased for role `next`. -/
  | deferred (next : Role)
  /-- Erased, held as a relocation or rebuild target. -/
  | target
  /-- Source of a relocation that has committed, while reads that sampled it run (R123). -/
  | leaving
  /-- Owned by a reel (R300). -/
  | reel
  /-- Retired (R192). -/
  | retired
deriving DecidableEq, Repr

/-- One flash block. -/
structure Block where
  /-- 2 bits | 04 R142, R599 | by index (R599) | Role. -/
  role : Role
  /-- 1 bit | 04 R140 | QLC; landing and system SLC: DESIGN CHOICE (log 9) | Mode of the last erase: true QLC. -/
  qlc : Bool
  /-- 20 bits | 04 R172 | 0: DESIGN CHOICE (log 9) | Erase counter in quarter cycles; saturates. -/
  wear : Nat
  /-- 24 bits | 04 R177 | 0: DESIGN CHOICE (log 9) | Read counter; saturates. -/
  reads : Nat
  /-- 13 bits | 04 R148 | 0: DESIGN CHOICE (log 9) | Write pointer in pages. -/
  wp : Nat
  use : BlockUse
  /-- 64 bits | 04 R180 | 0 | TIM_NOW of the first program since the erase. -/
  first : Nat
  /-- 64 bits | 04 R180 | 0 | TIM_NOW of the last program. -/
  last : Nat
  /-- sum | 04 R180 | 0 | Die temperatures at its programs, °C + 40, added up: their mean is this over the programs. -/
  temps : Nat
  /-- 4 bits | 04 R180 | 0 | Hint set. -/
  hint : Nat
  /-- 4 bits | 05 R202 | 0 | Generation of the member it holds, as its page records carry it (`reloc_gen`). -/
  gen : Nat
deriving DecidableEq, Repr

/-- The operations of a die (R143, R582). -/
inductive DieOpKind where
  | read | progSlc | progQlc | eraseSlc | eraseQlc
deriving DecidableEq, Repr

/-- Who issued a die operation, and what its completion settles. -/
inductive Purpose where
  /-- Sense `sense` of a host read. -/
  | hostRead (flight sense : Nat)
  /-- Sense of another member for a read-around or a degraded read. -/
  | around (flight sense : Nat)
  /-- Member `k` of stripe row `row` of zone `z`: a direct row. -/
  | zoneRow (z row k : Nat)
  /-- Member `k` of a fold. -/
  | fold (z row k : Nat)
  /-- Unit `k` of landing row `row`. -/
  | landing (row k : Nat)
  /-- A 64 KiB unit of a segment written with twin staging off (R115), as unit `k` of landing row `row`. -/
  | segment (flight seg row k : Nat)
  /-- Unit of a relocation or rebuild, by its number. -/
  | reloc (id : Nat)
  /-- Member `k` of stripe row `row` of the conventional region, at slot × 96 + row. -/
  | conventional (row k : Nat)
  /-- Unit of the journal. -/
  | journal
  /-- Unit of a checkpoint. -/
  | checkpoint
  /-- Deferred erase for the role. -/
  | erase (next : Role)
  /-- Reel instruction: instance and ticket. -/
  | reel (inst ticket : Nat)
  /-- Reel-store write in progress (R335). -/
  | store
  /-- Promenade, temperature and record reads. -/
  | patrol
deriving DecidableEq, Repr

/-- One entry of a die queue (R144). -/
structure QEntry where
  kind : DieOpKind
  /-- 13 bits | 04 R144 | entry | Block. -/
  block : Nat
  /-- 13 bits | 04 R144 | entry | First page. -/
  page : Nat
  /-- 2 bits | 01 R22 | entry | Class. -/
  cls : Nat
  /-- 10 bits | 03 R130 | entry | Compartment charged. -/
  comp : Nat
  /-- 64 bits | 01 R22 | entry | Admission stamp. -/
  admittedAt : Nat
  /-- 1 bit | 04 R145 | entry | Waits for a slot of the cap. -/
  capWait : Bool
  /-- 1 bit | 17 R581 | entry | Flush entry. -/
  flush : Bool
  purpose : Purpose
deriving DecidableEq, Repr

/-- The operation a die holds (R582). -/
structure DieOp where
  entry : QEntry
  /-- 64 bits | 04 R152 | entry | TIM_NOW at issue. -/
  issuedAt : Nat
  /-- ns | 03 R121 | entry | Time left of the nominal time when last resumed or issued. -/
  leftNs : Nat
  /-- 64 bits | 04 R151 | entry | TIM_NOW of the issue or of the last resume. -/
  sinceAt : Nat
  /-- 1 bit | 17 R582 | 0 | Suspended. -/
  suspended : Bool
  /-- 1 bit | 17 R582 | entry | Holds a slot of the cap. -/
  slot : Bool
  /-- count | 04 R151 | 0 | Suspensions of this operation. -/
  suspends : Nat
  /-- count | 03 R126 | 0 | Reads served in the present suspension. -/
  served : Nat
  /-- 1 bit | 04 R152 | 0 | The starved-operation event has been posted for this operation. -/
  posted : Bool
  /-- 1 bit | 01 R49 | entry | Region on whose share the operation draws. -/
  region : Nat
deriving DecidableEq, Repr

/-- One die. -/
structure Die where
  op : Option DieOp
  /-- list | 04 R144 | empty | Die queue, oldest first. -/
  queue : List QEntry
  /-- 1 bit | 04 R147 | 0 | Lost. -/
  lost : Bool
  /-- 1 bit | 04 R152 | 0 | Holds an operation past starve_limit. -/
  starved : Bool
  /-- list | 04 R171 | empty | Deferred-erase queue. -/
  eraseQueue : List Nat
  /-- 8 bits | 02 R58 | 0 | Spares loaned. -/
  loans : Nat
  /-- count | 04 R144 | 0 | Reads that have passed the program or erase at the head. -/
  passed : Nat
  /-- 13 bits | 04 R160 | none | Open landing block. -/
  landingBlock : Option Nat
  /-- count | 04 R168 | 0 | Landing blocks that shadow copies took from the flush reserve and no erase has replaced yet. -/
  owed : Nat
deriving DecidableEq, Repr

/-- One unit of a landing row (R160, R600). -/
structure LandUnit where
  /-- 11 bits | 04 R160 | entry | Die. -/
  die : Nat
  /-- 13 bits | 04 R160 | entry | Block. -/
  block : Nat
  /-- 13 bits | 04 R160 | entry | First page. -/
  page : Nat
  /-- list | 04 R600, 05 R202 | entry | Its pages in order: logical page (zone × 92,160 + data page, or 2^40 + conventional page) and cw_valid. -/
  pages : List (Nat × Nat)
  /-- 1 bit | 04 R162 | 1 | Valid. -/
  valid : Bool
  /-- 1 bit | 04 R162 | 0 | Pinned. -/
  pinned : Bool
  /-- 1 bit | 04 R161 | 0 | Programmed. -/
  programmed : Bool
deriving DecidableEq, Repr

/-- One landing row (R160, R161). -/
structure LandRow where
  /-- up to 16 units | 04 R160 | entry | Units whose four pages are known: data units in ascending cluster order, the parity unit last. -/
  units : List LandUnit
  /-- list | 04 R161 | none | Pages in the landing front that do not fill a unit yet: (logical page, cw_valid). -/
  front : List (Nat × Nat)
  /-- 1 bit | 04 R161 | 0 | All 16 units programmed. -/
  closed : Bool
deriving DecidableEq, Repr

/-- Why a block moves (R187). -/
inductive RelocKind where
  | refresh | wear | rebuild
deriving DecidableEq, Repr

/-- A relocation or rebuild in progress (R187 to R189). -/
structure Reloc where
  /-- number | the model's own | entry | Number of the relocation, never used again. -/
  id : Nat
  kind : RelocKind
  zone : Nat
  member : Nat
  srcDie : Nat
  srcBlock : Nat
  dstDie : Nat
  dstBlock : Nat
  /-- count | 04 R187 | 0 | Program units copied. -/
  copied : Nat
deriving DecidableEq, Repr

/-- A member that waits for its rebuild (R74, R194). -/
structure Rebuild where
  zone : Nat
  member : Nat
  /-- die and block | 04 R191 | entry | The spare that replaces the member; none for a substitute still to be found. -/
  target : Option (Nat × Nat)
deriving DecidableEq, Repr

/-- Settings of one cluster's media (R176, R182, R186). -/
structure MediaCfg where
  /-- 8 bits | 04 R186 | 0x48 | prom_hours. -/
  promHours : Nat
  /-- 8 bits | 04 R186 | 0x60 | prom_bits. -/
  promBits : Nat
  /-- 12 bits | 04 R186 | 0x064 | rc_qlc. -/
  rcQlc : Nat
  /-- 12 bits | 04 R186 | 0x400 | rc_slc. -/
  rcSlc : Nat
  /-- 2 bits | 04 R186 | 2 | reloc_class. -/
  relocClass : Nat
  /-- 2 bits | 04 R186 | 1 | rebuild_class. -/
  rebuildClass : Nat
deriving DecidableEq, Repr

/-- Cluster registers outside the read-around budget. -/
structure ClusterCfg where
  media : MediaCfg
  /-- 44 bits | 04 R186 | none | Media configuration written and not yet in effect. -/
  mediaNext : Option MediaCfg
  /-- 16 bits | 04 R176 | 0x0190 | spread. -/
  spread : Nat
  /-- 16 bits | 04 R176 | 0x00C8 | role_gap. -/
  roleGap : Nat
  /-- 8 x 64 bits | 04 R182 | 0 | HIST_TAB. -/
  hist : List Word
  /-- 20 bits | 04 R179 | 0 | Next (die ordinal × 5,600 + block) of the promenade. -/
  promNext : Nat
deriving DecidableEq, Repr

/-- Channel registers (R147, R154, R155). -/
structure Channel where
  /-- 1 bit | 04 R147 | 0 | The channel or its engine is lost. -/
  lost : Bool
  /-- 16 bits | 04 R154 | 0x0100 | starve_limit. -/
  starveLimit : Nat
  /-- 5 bits | 04 R155 | 0 | DIE_SEL rank. -/
  dieSel : Nat
deriving DecidableEq, Repr

/-- The fold policy (R169). -/
structure FoldCfg where
  /-- 7 bits | 04 R169 | 0 | start_pct. -/
  startPct : Nat
  /-- 7 bits | 04 R169 | 0x4B | urgent_pct. -/
  urgentPct : Nat
  /-- 2 bits | 04 R169 | 2 | fold_class. -/
  foldClass : Nat
  /-- 2 bits | 04 R169 | 0 | urgent_class. -/
  urgentClass : Nat
  /-- 6 bits | 04 R169 | 0x28 | max_folds. -/
  maxFolds : Nat
deriving DecidableEq, Repr

/-- The flash dies and everything that schedules them. -/
structure Flash where
  /-- 2,048 dies | 04 R139 | idle | Dies by number. -/
  dies : SMap Die
  /-- 5,600 per die | 04 R142, R599 | factory roles | Blocks at die × 8,192 + block. -/
  blocks : SMap Block
  /-- 64 records | 04 R147 | R154 | Channels. -/
  channels : List Channel
  /-- 16 records | 04 R186 | R176, R186 | Cluster settings. -/
  clusters : List ClusterCfg
  /-- record | 04 R169 | R169 | Fold policy in force. -/
  fold : FoldCfg
  /-- 48 bits | 04 R164 | none | Fold policy written and not yet in effect. -/
  foldNext : Option FoldCfg
  /-- table | 04 R160 | none | Landing rows that hold units, by row number. -/
  landing : SMap (Option LandRow)
  /-- 30 bits | 05 R202 | 0 | Number of the next landing row; wraps. -/
  landingNext : Nat
  /-- list | 04 R187 | none | Relocations and rebuilds in progress. -/
  relocs : List Reloc
  /-- counter | the model's own | 0 | Number of the next relocation. -/
  relocNext : Nat
  /-- list | 04 R178 | none | Blocks queued for refresh: (die, block). -/
  refresh : List (Nat × Nat)
  /-- list | 04 R196 | none | Members of lost dies or failed blocks waiting for a rebuild. -/
  rebuild : List Rebuild
  /-- list | 04 R166 | none | Compactions: landing block emptied (die, block), and the landing row number below which its copies lie. -/
  compacting : List (Nat × Nat × Nat)
  /-- list | 04 R187, 05 R211 | none | Blocks that a power loss left stale: they join their deferred-erase queues once the first
  checkpoint after the mount is valid. -/
  stale : List (Nat × Nat)
  /-- 1 bit | 04 R167 | 0 | Pinned-landing warning raised. -/
  pinWarning : Bool
  /-- count | 16 R560 | 0: DESIGN CHOICE (log 9) | Block erases of a sanitize that every zone, landing and spare block has gone through. -/
  fullErases : Nat
  /-- list | 04 R149 | none | Programs that a channel engine has refused and whose issuers have not been told yet: (die, entry). -/
  refusals : List (Nat × QEntry)
  /-- bytes | 04 R139, R141, 05 R202 | zeroes | Data and page records of what is programmed: the data of page p at
  (die × 8,192 + block) × 2^27 + p × 16,384, its record behind the data of all pages. -/
  cells : SMap Byte
deriving DecidableEq, Repr

/-! ### Journal, checkpoints and mounts (R206 to R214) -/

/-- The mount (R210, R214). -/
structure Mount where
  /-- 3 bits | 05 R214 | 0 | 0 not started, 1 checkpoint path, 2 scan reading, 3 resolving, 4 done, 5 failed. -/
  state : Nat
  /-- 1 bit | 05 R214 | 0 | The full scan ran. -/
  scanned : Bool
  /-- 2 bits | 05 R214 | 0 | Shutdown kind of the marker. -/
  shutdown : Nat
  /-- 8 bits | 05 R214 | 0 | Progress in percent. -/
  progress : Nat
  /-- 16 bits | 05 R214 | 0 | Record reads that needed full page reads, per mille. -/
  fallback : Nat
  /-- 32 bits | 05 R214 | 0 | Time since the request in ms. -/
  elapsed : Nat
  /-- 64 bits | 05 R214 | 0 | TIM_NOW of the request. -/
  requestedAt : Nat
  /-- 1 bit | 05 R211 | 0 | The first checkpoint after the mount is not yet valid. -/
  firstCkpt : Bool
  /-- 1 bit | 16 R561 | 0 | A mount waits for a sanitize to end. -/
  waiting : Bool
  /-- 1 bit | 07 R306 | 0 | An orderly stop is draining. -/
  stopping : Bool
  /-- 1 bit | 05 R208, 07 R306 | 0 | The orderly stop has drained, and its checkpoint is being written. -/
  closing : Bool
  /-- 1 bit | 05 R209 | 0 | A mount has read the checkpoints since the core came up. -/
  known : Bool
deriving DecidableEq, Repr

/-- The journal and the checkpoints (R206 to R209). -/
structure Journal where
  /-- records | 05 R206 | 0 | Records in the DRAM tail. -/
  tail : Nat
  /-- 64 bits | 05 R206 | 0 | TIM_NOW of the tail's first record. -/
  tailAt : Nat
  /-- units | 05 R209 | 0 | 64 KiB units programmed since the newest valid checkpoint. -/
  units : Nat
  /-- 12 bits | 05 R209 | 0x03C | ckpt_s. -/
  ckptS : Nat
  /-- units | 05 R209 | 0 | Of these, the units programmed before the checkpoint that is being written began. -/
  before : Nat
  /-- 1 bit | 05 R209 | 0 | Slot of the newest valid checkpoint: 0 A, 1 B. -/
  slot : Nat
  /-- 1 bit | 05 R207 | 0 | A checkpoint is valid: DESIGN CHOICE none (log 9). -/
  valid : Bool
  /-- 1 bit | 05 R207 | 0 | A checkpoint is being written. -/
  running : Bool
  /-- 64 bits | 05 R207 | 0 | TIM_NOW at which the last checkpoint began. -/
  beganAt : Nat
  /-- 56 bits | 05 R207, R208 | 0 | seq of the last journal record that has been programmed. -/
  lastSeq : Nat
  /-- 56 bits | 05 R203, R206 | 0 | seq of the last record in the DRAM tail. -/
  tailSeq : Nat
  /-- 2 x (11 + 13) bits | 05 R206 | none | System blocks that take the journal's units, on two dies in different clusters. -/
  open_ : List (Nat × Nat)
  /-- list | 05 R206, R207 | none | Full blocks of the journal and those of `open_`, with the units the newest checkpoint does not cover. -/
  blocks : List (Nat × Nat)
  /-- list | 05 R207 | none | Blocks of the journal that the checkpoint being written covers. -/
  covered : List (Nat × Nat)
  /-- 16 x (11 + 13) bits | 05 R207 | none | System blocks that take the checkpoint's stripes, one in each cluster. -/
  ckptOpen : List (Nat × Nat)
  /-- list | 05 R207 | none | Blocks of the checkpoint being written. -/
  ckptNew : List (Nat × Nat)
  /-- list | 05 R207 | none | Blocks of slot A. -/
  slotA : List (Nat × Nat)
  /-- list | 05 R207 | none | Blocks of slot B. -/
  slotB : List (Nat × Nat)
  /-- count | 05 R207 | 0 | Stripes of the checkpoint that are still to be programmed. -/
  stripes : Nat
  /-- count | 05 R207 | 0 | Number of its next stripe. -/
  stripe : Nat
  /-- 4 x (11 + 13) bits | 05 R208 | none | Blocks of the marker's copies: (die, block). -/
  marks : List (Nat × Nat)
  /-- 1 bit | 05 R208 | 0 | Checkpoint slot that the marker names. -/
  markSlot : Nat
  /-- 56 bits | 05 R208 | 0 | seq of the last durable journal record that the marker names. -/
  markSeq : Nat
deriving DecidableEq, Repr

/-! ### Buffer pools (R374 to R395) -/

/-- One pool or cell store (R375, R394). -/
structure Pool where
  /-- 5 bits | 10 R394 | R377 | size_log2. -/
  sizeLog2 : Nat
  /-- 1 bit | 10 R394 | R377 | Pool in use. -/
  enabled : Bool
  /-- 32 bits | 10 R394 | R377 | Buffers or cells. -/
  count : Nat
  /-- count | 10 R394 | 0 | Buffers or cells held. -/
  held : Nat
  /-- 8 bits | 10 R394 | 0 | Entries withdrawn after memory errors; saturates. -/
  lost : Nat
  /-- 2 bits | 10 R394 | 0 | Levels entered: bit 0 Amber, bit 1 Red, bit 2 Black. -/
  entered : BitVec 3
  /-- list | 10 R378 | none | Indices freed, most recently freed first. -/
  freed : List Nat
  /-- count | 10 R378 | 0 | Lowest index never yet handed out. -/
  fresh : Nat
  /-- 13 bits | 10 R378 | DESIGN CHOICE the free entries, at most 3,584 (log 179) | Entries of the free store in its on-die stack; the other free
  ones are spilled to DRAM. -/
  onDie : Nat
deriving DecidableEq, Repr

/-- One buffer (R375, R388). -/
structure Buf where
  /-- 1 bit | 10 R374 | entry | Domain. -/
  domain : Nat
  /-- 4 bits | 10 R374 | entry | Region of the general area, or cluster. -/
  part : Nat
  /-- 3 bits | 10 R375 | entry | Pool, 0 in cell mode. -/
  pool : Nat
  /-- list | 10 R375 | entry | Buffer index, or the cells of the chain. -/
  cells : List Nat
  /-- 23 bits | 10 R375 | entry | Bytes a reel may reach. -/
  size : Nat
  /-- 12 bits | 10 R388 | entry | Owner that allocated it. -/
  owner : Nat
  /-- list | 10 R388, R391 | entry | Holders, the allocating owner first: (owner, TIM_NOW at which it became holder). -/
  holders : List (Nat × Nat)
  /-- 12 bits | 10 R388 | none | Final owner, named by the first BSHARE. -/
  final : Option Nat
  /-- 1 bit | 10 R388 | 0 | The final owner has freed it while others still hold it. -/
  freeing : Bool
  /-- 1 bit | 10 R389 | 0 | Its contents were lost with a region. -/
  gone : Bool
  /-- 64 bits | 10 R391 | entry | TIM_NOW of the allocation. -/
  at_ : Nat
  /-- 1 bit | 10 R400 | 0 | Withdrawn at its next free. -/
  withdraw : Bool
deriving DecidableEq, Repr

/-- One registered owner (R379 to R381). -/
structure Owner where
  /-- 10 bits | 10 R395 | entry | Compartment. -/
  comp : Nat
  /-- 16 bits | 10 R381 | 0 | seg_limit; 0 no cap. -/
  segLimit : Nat
  /-- 1 bit | 10 R391 | 0 | Leak bit. -/
  leak : Bool
deriving DecidableEq, Repr

/-- Watermark thresholds of one domain (R393). -/
structure Marks where
  amber : Nat
  red : Nat
  black : Nat
  hyst : Nat
deriving DecidableEq, Repr

/-- The buffer-pool manager. -/
structure Pools where
  /-- 2 x 1 bit | 10 R392 | 0 | Cell mode of domain 0 and 1. -/
  dramCell : Bool
  sramCell : Bool
  /-- 1 bit | 10 R392 | 0 | W1C: a layout write was refused. -/
  cfgRefused : Bool
  /-- 2 x 25 bits | 10 R393 | 75, 90, 97, 2 | Watermarks of domain 0 and 1. -/
  wm0 : Marks
  wm1 : Marks
  /-- 32 bits | 10 R394 | 0 | BPM_POOL_SEL. -/
  sel : BitVec 32
  /-- 2 x 8 pools | 10 R377 | R377 | General-area pools, part × 8 + pool. -/
  general : List Pool
  /-- 16 x 8 pools | 10 R377 | R377 | Cluster SRAM pools, cluster × 8 + pool. -/
  sram : List Pool
  /-- record | 10 R374 | 32,768 free segments | Staging pool. -/
  staging : Pool
  /-- table | 10 R388 | none | Buffers by handle. -/
  bufs : SMap (Option Buf)
  /-- handle | 07 R302 | 1: DESIGN CHOICE (log 11) | Next buffer handle. -/
  nextHandle : Nat
  /-- bytes | 07 R302 | log 12 | Bytes of buffers, at handle × 2^22 + offset. -/
  bytes : SMap Byte
  /-- table | 10 R379 | system owners | Owners 16 to 4,095 registered. -/
  owners : SMap (Option Owner)
  /-- 64 bits | 10 R395 | 0 | BPM_OWNER_CMD as last written. -/
  ownerCmd : Word
  /-- 2 bits | 10 R395 | 0 | Status of the last owner operation. -/
  ownerStatus : Nat
  /-- 1 bit | 10 R395 | 1 | No owner operation runs. -/
  ownerDone : Bool
  /-- 16 bits | 10 R395 | 0 | Queried owner's limit. -/
  ownerLimit : Nat
  /-- 64 bits | 10 R395 | 0 | BPM_OWNER_INFO. -/
  ownerInfo : Word
  /-- 32 bits | 10 R395 | 0x2710 | leak_ms. -/
  leakMs : Nat
  /-- list | 10 R374, R391 | none | Staging segments held: (owner, segment handle, TIM_NOW of the grant). -/
  segments : List (Nat × Nat × Nat)
  /-- list | 10 R400 | none | Staging segments withdrawn at their next release. -/
  leaving : List Nat
deriving DecidableEq, Repr

/-! ### Memory integrity (R396 to R406) -/

/-- Where an uncorrectable word lies, as its consumer meets it (R405). -/
inductive BadWord where
  | image (instance_ off : Nat)
  | scratch (ctx off : Nat)
  | buffer (handle off : Nat)
  | seg (flight segIdx : Nat) (both : Bool)
  | zoneEntry (zone : Nat) (both : Bool)
  | convEntry (unit : Nat) (both : Bool)
  | zoneData (zone unit : Nat)
  | convData (unit : Nat)
deriving DecidableEq, Repr

/-- Error counters, repairs, scrub and the flip-mask. -/
structure Integrity where
  /-- 16 bits | 10 R406 | 0 | RC: SRAM words corrected; saturates. -/
  sramCe : Nat
  /-- 16 bits | 10 R406 | 0 | RC: DRAM codewords corrected; saturates. -/
  dramCe : Nat
  /-- 8 bits | 10 R406 | 0 | RC: SRAM uncorrectable words; saturates. -/
  sramUe : Nat
  /-- 8 bits | 10 R406 | 0 | RC: DRAM uncorrectable codewords; saturates. -/
  dramUe : Nat
  /-- 8 x 4 bits | 10 R406 | 0xF | Device marked on each channel; 15 none. -/
  marked : List Nat
  /-- 8 bits | 10 R404 | 0x18 | DRAM scrub period in hours. -/
  dramH : Nat
  /-- 8 bits | 10 R404 | 0x3C | SRAM scrub period in minutes. -/
  sramMin : Nat
  /-- 7 bits | 10 R404 | 0 | Progress of the DRAM pass. -/
  dramPct : Nat
  /-- 7 bits | 10 R404 | 0 | Progress of the SRAM pass. -/
  sramPct : Nat
  /-- 32 bits | 10 R404 | 0 | DRAM passes completed; wraps. -/
  passes : BitVec 32
  /-- list | 10 R406 | none | Host DMA channels halted and not released, oldest first, with the failing address. -/
  frozen : List (Nat × Nat)
  /-- 64 bits | 10 R403 | 0 | MEM_FLIP_SEL. -/
  flipSel : Word
  /-- 64 bits | 10 R403 | 0 | MEM_FLIP_MASK. -/
  flipMask : Word
  /-- entries | 10 R401 | none | Field repairs not yet persisted. -/
  softPending : List Word
  /-- table | 10 R399 | 0 | Entries used in each macro's remap table. -/
  remap : SMap Nat
  /-- table | 10 R399 | 0 | Corrections of a word in the current SRAM pass, at macro × 2^32 + word. -/
  corrections : SMap Nat
  /-- list | 10 R398 | none | Corrected codewords of the last hour with one device in error: (channel × 16 + device, TIM_NOW). -/
  deviceRuns : List (Nat × Nat)
  /-- table | 10 R400 | 0 | Corrected codewords of a frame in the current DRAM pass. -/
  frameRuns : SMap Nat
  /-- list | 10 R405 | none | Uncorrectable words no consumer has met. -/
  bad : List BadWord
  /-- 1 bit | 10 R405 | 0 | Critical warning for a table entry lost in both copies. -/
  tableWarning : Bool
  /-- 15 bits | 10 R375, R400 | 16,384 | Frames of 4 KiB left in the 64 MiB reserve. -/
  spareFrames : Nat
deriving DecidableEq, Repr

/-! ### Compartments (R341 to R373) -/

/-- The states of R341. -/
inductive CState where
  | free | active | resetting | freezing | frozen | saving | saved
deriving DecidableEq, Repr

/-- Who started a reset, and what follows it. -/
inductive ResetKind where
  /-- `en` cleared by the host, or its port lost. -/
  | host
  /-- Compartment Control Reset: the command that completes with it, if its completion still counts. -/
  | control (cmd : Option HostCmd)
  /-- Compartment Control Delete. -/
  | delete (cmd : Option HostCmd)
  /-- Sanitize. -/
  | sanitize
deriving DecidableEq, Repr

/-- A compartment reset in progress (R360 to R363). -/
structure ResetRun where
  /-- list | 09 R360 | entry | What asked for it: the first began it, the others joined. -/
  kinds : List ResetKind
  /-- 64 bits | 09 R361 | entry | `TIM_NOW` at its start. -/
  at_ : Nat
  /-- 1 bit | 09 R361 | 0 | The squash instant has passed. -/
  squashed : Bool
deriving DecidableEq, Repr

/-- The operations of Compartment Control (R348). -/
inductive CtlOp where
  | create (port : Nat)
  | delete
  | mapPasid (pasid port : Nat)
  | unmapPasid (pasid port : Nat)
  | reset
  | freeze
  | thaw
  | save (bytes : Nat)
  | restore (params record : List Byte)
deriving DecidableEq, Repr

/-- A Compartment Control command that waits for the one before it (R348). -/
structure CtlCmd where
  cmd : HostCmd
  op : CtlOp
deriving DecidableEq, Repr

/-- Resources and counters of a compartment. -/
structure CompRes where
  /-- 7 bits | 09 R351 | 0 | I/O queue pairs granted. -/
  queuePairs : Nat
  /-- 15 bits | 09 R351 | 0; 24,576 for 0 | Active-zone quota. -/
  activeQuota : Nat
  /-- 10 bits | 09 R351 | 0; 512 for 0 | Direct-zone quota. -/
  directQuota : Nat
  /-- 16 bits | 09 R351 | 2; 0 for 0 | Buffer floor in segments. -/
  floor : Nat
  /-- 16 bits | 09 R351 | 2 reserved at once where the pool has them | Floor reserved so far. -/
  reserved : Nat
  /-- 2 bits | 09 R351 | Bulk; Express for 0 | Latency class. -/
  cls : Nat
deriving DecidableEq, Repr

/-- One compartment. -/
structure Comp where
  /-- 3 bits | 09 R352 | 0 | State. -/
  state : CState
  /-- 1 bit | 09 R352 | set at Create | Port. -/
  port : Nat
  /-- 1 bit | 09 R352 | 0 | No command is fetched. -/
  fetchStopped : Bool
  /-- 1 bit | 09 R352 | 0 | Cause of the last reset. -/
  resetByHost : Bool
  /-- 16 bits | 09 R352 | 0 | Resets completed; wraps. -/
  resets : BitVec 16
  /-- 64 bits | 09 R352 | 0 | TIM_NOW at which the state began. -/
  since : Nat
  /-- 1 bit | 09 R351 | 0 | en. -/
  en : Bool
  /-- 1 bit | 09 R351 | 0 | rdy. -/
  rdy : Bool
  /-- 1 bit | 09 R351 | 0 | cfs. -/
  cfs : Bool
  /-- 28 bits | 09 R351 | 0 | CMPW_AQA. -/
  aqa : BitVec 32
  /-- 64 bits | 09 R351 | 0 | CMPW_ASQ. -/
  asq : Word
  /-- 64 bits | 09 R351 | 0 | CMPW_ACQ. -/
  acq : Word
  /-- 20 bits | 09 R351 | 0 | CMPW_APASID. -/
  apasid : Nat
  res : CompRes
  /-- 4 bits | 09 R351 | 0 | CMPW_INTMASK. -/
  intMask : BitVec 4
  /-- 4 bits | 09 R351 | 0 | CMPW_INTSTAT. -/
  intStat : BitVec 4
  /-- 48 bits | 09 R351 | 0 | RC: bytes read, reported in MiB. -/
  bytesRead : Nat
  /-- 48 bits | 09 R351 | 0 | RC: bytes written, reported in MiB. -/
  bytesWritten : Nat
  /-- 32 bits | 09 R351 | 0 | RC: commands refused; saturates. -/
  refused : Nat
  /-- 48 bits | 09 R351 | 0 | RC: die-time charged in µs; saturates. -/
  dieTime : Nat
  /-- 1 bit | 09 R351 | 0 | Key slot erased since the last install. -/
  keyErased : Bool
  /-- record | 09 R360 | none | Reset in progress. -/
  reset : Option ResetRun
  /-- 1 bit | 09 R363 | 0 | The reset began while the compartment was frozen. -/
  wasFrozen : Bool
  /-- command | 09 R348 | none | Freeze or Save command whose completion waits. -/
  waiting : Option HostCmd
  /-- 64 bits | 09 R365 | none | Save token of the record written. -/
  token : Option Nat
  /-- 32 bits | 09 R365 | 0 | Buffer length of the Save in progress. -/
  saveBytes : Nat
  /-- list | 09 R348 | none | Compartment Control commands that wait for the one before them, oldest first. -/
  control : List CtlCmd
deriving DecidableEq, Repr

/-- The compartments and the PASID map. -/
structure Comps where
  /-- 1,024 records | 09 R341 | Free but for 0 | Compartments. -/
  table : SMap Comp
  /-- 1,024 entries | 09 R344 | none | PASID map: (port, PASID, compartment), oldest first. -/
  pasids : List (Nat × Nat × Nat)
deriving DecidableEq, Repr

/-! ### Frame codec (R223 to R264) -/

/-- One of the 128 coding contexts of a band (R230). -/
structure CodeCtx where
  /-- 24 bits | 06 R230 | 0 | Sum of residue magnitudes. -/
  s : Nat
  /-- 24 bits | 06 R230 | 0 | Bias accumulator. -/
  d : Int
  /-- 6 bits | 06 R230 | 0 | Sample count. -/
  n : Nat
  /-- 8 bits | 06 R230 | 0 | Bias correction. -/
  c : Int
deriving DecidableEq, Repr

/-- What one codec context carries from band to band (R241 to R244). -/
structure CodecState where
  /-- 8 bits | 06 R246 | 0 | Format byte of the last band. -/
  format : Nat
  /-- 2 bits | 06 R246 | 0 | P − 1. -/
  planes : Nat
  /-- 1 bit | 06 R263 | 0 | Line buffers valid. -/
  linesValid : Bool
  /-- 1 bit | 06 R263 | 0 | The last band ended its frame. -/
  frameDone : Bool
  /-- 1 bit | 06 R246 | 0 | The context has coded a band. -/
  used : Bool
  /-- 16 bits | 06 R244 | 0 | W − 1. -/
  width : Nat
  /-- 16 bits | 06 R244 | 0 | H − 1. -/
  height : Nat
  /-- 16 bits | 06 R263 | 0 | Next frame line expected. -/
  nextLine : Nat
  /-- 32 bits | 06 R263 | 0 | Stream of the last band. -/
  stream : Nat
  /-- 32 bits | 06 R263 | 0 | Frame number of the last band. -/
  frame : Nat
  /-- 4 x 4 bits | 06 R230 | 0 | Run indices. -/
  runs : List Nat
  /-- 128 records | 06 R230 | 0 | Coding contexts; unlisted contexts hold zero. -/
  ctxs : SMap CodeCtx
  /-- 65,536 samples | 06 R242 | 0 | Line buffers; unlisted samples are 0. -/
  lines : SMap Nat
deriving DecidableEq, Repr

/-- One codec context. -/
structure CodecCtx where
  /-- 10 bits | 06 R263 | none | Compartment granted the context. -/
  grant : Option Nat
  /-- 1 bit | 06 R263 | 0 | A band has been coded since the chain was started or restored. -/
  coded : Bool
  st : CodecState
deriving DecidableEq, Repr

/-- The band descriptor's host fields (R239, R248). -/
structure Band where
  /-- 1 bit | 06 R239 | entry | history-in. -/
  historyIn : Bool
  format : Nat
  planes : Nat
  width : Nat
  height : Nat
  firstLine : Nat
  lines : Nat
  stream : Nat
  frame : Nat
deriving DecidableEq, Repr

/-- What a codec job does (R245, R248, R252, R255, R303). -/
inductive CodecWork where
  /-- Frame Append: band, raw bytes, output limit (0 none), carriage, class, zone, TIM_NOW at admission, key. -/
  | append (cmd : HostCmd) (band : Band) (raw : List Byte) (limit carriage cls zone admittedAt key : Nat)
  /-- Frame Read: the flight that reads the record, the record length named, the bytes of the host's buffer. -/
  | read (flight recLen bufBytes : Nat)
  | save (cmd : HostCmd)
  | restore (cmd : HostCmd) (record : List Byte)
  /-- CXSAVE or CXRESTORE of a reel: instance and ticket. -/
  | reel (inst ticket : Nat)
deriving DecidableEq, Repr

/-- A command on a codec context (R245, R249). -/
structure CodecJob where
  /-- 11 bits | 06 R249 | entry | Codec context. -/
  ctx : Nat
  /-- 3 bits | 06 R249 | none | Lane that holds the job; none while it waits for its context, its data or a lane. -/
  lane : Option Nat
  /-- 1 bit | 03 R138 | none | Region of a failed lane that held the job: a sibling of that region takes it. -/
  near : Option Nat
  work : CodecWork
deriving DecidableEq, Repr

/-- A coded band whose record is in staging and not yet acknowledged (R249, step 5). -/
structure Coded where
  /-- number | the model's own | entry | Flight that writes the record. -/
  flight : Nat
  /-- 11 bits | 06 R249 | entry | Codec context. -/
  ctx : Nat
  /-- record | 06 R241 | entry | State the context takes when the record is acknowledged. -/
  st : CodecState
deriving DecidableEq, Repr

/-- The codec block. -/
structure Codec where
  /-- 8 bits | 06 R262 | 0xFF | Lanes in service. -/
  lanesOk : BitVec 8
  /-- 4 bits | 06 R262 | 8 | Lanes in use. -/
  lanesInUse : Nat
  /-- 2,048 records | 06 R241 | not granted, 0 | Codec contexts. -/
  ctxs : SMap CodecCtx
  /-- list | 06 R249 | none | Commands on codec contexts, in order of admission. -/
  jobs : List CodecJob
  /-- list | 06 R249 | none | Coded bands whose records are being written. -/
  coded : List Coded
  /-- 11 bits | 06 R263 | 0 | FCD_CTX_SEL. -/
  sel : Nat
  /-- 52 bits | 06 R264 | 0 | RC: raw bytes of committed Frame Appends, reported in MiB. -/
  rawBytes : Nat
  /-- 52 bits | 06 R264 | 0 | RC: record bytes appended, reported in MiB. -/
  recordBytes : Nat
deriving DecidableEq, Repr

/-! ### Callers, reels and the reel store (R265 to R340) -/

/-- Condition flags of a reel context (R266). -/
structure KFlags where
  z : Bool
  n : Bool
  c : Bool
  v : Bool
deriving DecidableEq, Repr

/-- Why a reel context is not ready to issue (R50, R293, R333). -/
inductive KWait where
  | ready
  /-- In WAIT: `mod` [4:0], the ticket named and the deadline. -/
  | inWait (mod : BitVec 9) (a b : Word)
deriving DecidableEq, Repr

/-- One ticket in use (R293). -/
structure Ticket where
  /-- 6 bits | 07 R293 | entry | Number. -/
  num : Nat
  /-- 12 bits, 64 bits | 07 R293 | none | Final status and result, once posted. -/
  done : Option (Nat × Word)
  /-- 1 bit | 07 R271 | 0 | The completion is a host DMA fault with this status. -/
  dmaFault : Option Nat
  /-- bytes | 07 R299 | none | Scratch bytes that the completion wrote, by offset. -/
  scratch : List (Nat × Byte)
deriving DecidableEq, Repr

/-- One held effect (R278): checked at issue, applied at the commit. -/
inductive Held where
  | timset (v : Word)
  | pmode (v : Nat)
  | pstate (v : Nat)
  | evpost (code level : Nat) (payload : List Byte)
  | regwr (off : Nat) (v : Word)
  | unpark
  | cmpset (comp res value cluster : Nat)
deriving DecidableEq, Repr

/-- One journal entry (R275, R328). -/
structure JEntry where
  /-- 8 bits | 07 R275 | entry | Opcode. -/
  op : Nat
  /-- operands | 07 R275 | entry | Operand values. -/
  args : List Word
  /-- results | 07 R275 | entry | (register, value) written. -/
  results : List (Nat × Word)
  /-- z flag | 07 R292 | entry | z written, if any. -/
  z : Option Bool
  /-- ticket | 07 R293 | entry | Ticket taken or freed. -/
  takes : Option Nat
  frees : Option Nat
  /-- scratch | 07 R305 | entry | Scratch bytes written. -/
  scratch : List (Nat × Byte)
deriving DecidableEq, Repr

/-- What a commit mirrors (R29, R328). -/
structure KSaved where
  regs : List Word
  pc : Nat
  flags : KFlags
  scratch : SMap Byte
  tickets : List Ticket
  epoch : BitVec 32
  retired : Nat
deriving DecidableEq, Repr

/-- One hardware context that holds a reel. -/
structure KCtx where
  /-- 32 bits | 08 R320 | entry | Instance identifier. -/
  inst : Nat
  /-- 31 x 64 bits | 07 R265 | R324 | g1 to g31. -/
  regs : List Word
  /-- 32 bits | 07 R266 | entry offset | pc. -/
  pc : Nat
  flags : KFlags
  /-- 64 bits | 07 R266 | granted mask | cap. -/
  cap : Word
  /-- 10 bits | 07 R266 | entry | Compartment. -/
  comp : Nat
  /-- 9 bits | 07 R266 | entry | Reel-store slot, or 0x1FF. -/
  slot : Nat
  /-- 1 bit | 07 R266 | 0 | relieved. -/
  relieved : Bool
  /-- 32 bits | 07 R266 | 0 | epoch. -/
  epoch : BitVec 32
  /-- 16 KiB | 07 R267 | 0 (R324) | Scratch; unlisted bytes are 0. -/
  scratch : SMap Byte
  /-- 1 MiB | 08 R310 | entry | Image bytes; unlisted bytes are 0. -/
  image : SMap Byte
  /-- 20 bits | 08 R310 | entry | Code length. -/
  codeLen : Nat
  /-- 32 bits | 08 R323 | entry | Instruction budget. -/
  budget : Nat
  /-- 32 bits | 08 R323 | 0 | Instructions retired since the last WAIT, COMMIT, start or resume. -/
  count : Nat
  /-- 64 bits | 08 R325 | 0 | Instructions retired since start. -/
  retired : Nat
  wait : KWait
  tickets : List Ticket
  /-- 256 x 32 bytes | 08 R328 | none | Journal. -/
  journal : List JEntry
  /-- 9 bits | 07 R275 | 0 | Next journal position. -/
  jpos : Nat
  /-- list | 07 R278 | none | Held effects, in program order. -/
  held : List Held
  /-- tickets | 07 R275, R330 | none | Tickets of the interval being run again, with the results that the units keep. -/
  kept : List Ticket
  /-- records | 07 R275 | none | Results that units keep for the context, by tag: `epoch`, position and what they answered. -/
  unitKept : List (BitVec 32 × Nat × JEntry)
  /-- 32 bits | 07 R278 | none | Tag of the last commit whose held effects the units have applied: its `epoch`. -/
  applied : Option (BitVec 32)
  saved : KSaved
  /-- 1 bit | 08 R325 | 0 | Halt pending, with the TIM_NOW at which the grace ends. -/
  haltAt : Option Nat
  /-- 16 bits | 08 R327 | 0 | Grace time of the halt pending, in ms. -/
  grace : Nat
  /-- commands | 08 R327 | none | Reel Halt commands that complete when the reel stops. -/
  halts : List HostCmd
deriving DecidableEq, Repr

/-- More of a context: what the host named at start. -/
structure KInst where
  /-- 8 bits | 08 R320 | entry | Context index now: caller × 4 + context. -/
  ctx : Nat
  /-- 2 bits | 08 R318 | entry | Source: 0 host memory, 1 cache handle, 2 store slot. -/
  source : Nat
  /-- 64 bits | 08 R318 | entry | Address, handle or slot. -/
  place : Nat
  /-- 21 bits | 08 R318 | entry | PASID, none for untranslated. -/
  pasid : Option Nat
  /-- 1 bit | 08 R318 | entry | Port of the starting controller. -/
  port : Nat
  /-- 1 bit | 08 R319 | entry | Single instance. -/
  single : Bool
  /-- 1 bit | 08 R325 | entry | Signed. -/
  signed : Bool
  /-- 64 bits | 08 R319 | entry | Image check. -/
  check : Word
  /-- 64 bits | 08 R325 | entry | TIM_NOW at start. -/
  startAt : Nat
  /-- 64 records | 07 R305 | none | Event queue, oldest first. -/
  events : List EvRec
  /-- count | 07 R305 | 0 | Records lost since the last EVNEXT. -/
  eventsLost : Nat
  /-- 4 ranges | 07 R305 | none | Subscribed ranges of event codes. -/
  subs : List (Nat × Nat)
  /-- lines | 08 R333 | entry | Image lines resident in the reel cache. -/
  lines : List Nat
  /-- 4 x 1 bit | 08 R334 | entry | Block of the pair of its store block that was live on each replica at start. -/
  versions : List Nat
deriving DecidableEq, Repr

/-- The status record of an instance that stopped (R325). -/
structure KRecord where
  inst : Nat
  state : Nat
  trapCode : Nat
  trapDetail : Nat
  pc : Nat
  epoch : BitVec 32
  result : Word
  retired : Nat
  ctx : Nat
  relieved : Bool
  single : Bool
  signed : Bool
  comp : Nat
  slot : Nat
  startAt : Nat
  endAt : Nat
  journal : Nat
  tickets : Nat
deriving DecidableEq, Repr

/-- One pinned image of the reel cache (R314). -/
structure Pinned where
  /-- 10 bits | 11 R427 | entry | Compartment that loaded it. -/
  comp : Nat
  image : SMap Byte
  length : Nat
deriving DecidableEq, Repr

/-- The operations of Reel Store Write (R335). -/
inductive StoreOp where
  | enter | leave | write | clear
deriving DecidableEq, Repr

/-- A Reel Store Write in progress or waiting (R335, R336). -/
structure StoreWrite where
  /-- command | 08 R335 | entry | The command, if its completion still counts. -/
  cmd : Option HostCmd
  /-- 2 bits | 11 R427 | entry | Operation. -/
  op : StoreOp
  /-- 8 bits | 11 R427 | entry | Slot. -/
  slot : Nat
  /-- image | 08 R335 | entry | Image written, and its length. -/
  image : SMap Byte × Nat
  /-- 2 bits | 08 R338 | 0 | Replica being written. -/
  replica : Nat
  /-- count | 08 R335 | 0 | 0 while the version to be erased is in use; 1 once its erase is issued; 2 + n once n program units of the new version are issued. -/
  unit : Nat
  /-- count | 08 R335 | 0 | Replicas written. -/
  written : Nat
  /-- 56 bits | 08 R316 | 0 | `seq` of the version being written. -/
  seq : Nat
deriving DecidableEq, Repr

/-- On whose behalf a reel's host transfer runs (R318, R345). -/
structure DmaFrom where
  /-- 1 bit | 08 R318 | entry | Port. -/
  port : Nat
  /-- 20 bits | 08 R318 | entry | PASID, none for untranslated. -/
  pasid : Option Nat
  /-- 10 bits | 08 R318 | entry | Compartment. -/
  comp : Nat
deriving DecidableEq, Repr

/-- What a unit carries out for a ticket (R293). -/
inductive UnitOp where
  /-- FREAD of a page into a buffer. -/
  | readPage (die block page handle off : Nat) (raw : Bool)
  /-- FRECORD of a page into scratch. -/
  | readRecord (die block page scratch : Nat)
  /-- FTEMP. -/
  | readTemp (die : Nat)
  /-- FPROG and FERASE. -/
  | program (die block page : Nat)
  | erase (die block : Nat)
  /-- FRESERVE: the erase of a block returned. -/
  | give (die block : Nat)
  /-- HDMARD and HDMAWR. -/
  | hostRead (who : DmaFrom) (addr len handle off : Nat)
  | hostWrite (who : DmaFrom) (addr len handle off : Nat)
  /-- CXSAVE and CXRESTORE. -/
  | saveCodec (ctx handle off : Nat)
  | restoreCodec (ctx handle off : Nat)
  /-- ZCTL, on a flight. -/
  | zone (flight : Nat)
  /-- NSCTL delete of a namespace. -/
  | deleteSpace (nsid : Nat)
  /-- UNCOUPLE of a carriage. -/
  | uncouple (carriage : Nat)
  | mount
  | checkpoint
  | stop
  /-- A refusal, or a FRESERVE take: the answer is there at once. -/
  | answered (status : Nat) (result : Word)
deriving DecidableEq, Repr

/-- One operation that a unit has accepted from a reel and not yet completed. -/
structure KOp where
  /-- 8 bits | 07 R293 | entry | Context to which the completion is posted. -/
  ctx : Nat
  /-- 32 bits | 08 R320 | entry | Instance that issued it. -/
  inst : Nat
  /-- 6 bits | 07 R293 | entry | Ticket. -/
  ticket : Nat
  op : UnitOp
deriving DecidableEq, Repr

/-- Callers, instances, cache and store. -/
structure Reels where
  /-- 144 contexts | 07 R265 | empty | Contexts that hold a reel, by caller × 4 + context. -/
  ctxs : SMap (Option KCtx)
  /-- table | 08 R320 | none | Running instances by identifier. -/
  insts : SMap (Option KInst)
  /-- 36 bits | 08 R339 | 0 | Callers declared failed. -/
  failed : BitVec 36
  /-- 36 x 32 bits | 08 R339 | 0 | RC: instructions retired by each caller; saturates. -/
  retired : SMap Nat
  /-- 256 records | 08 R325 | none | Records of ended instances, newest first. -/
  records : List KRecord
  /-- 24 bits | 08 R320 | 0: DESIGN CHOICE (log 13) | Start serial. -/
  serial : BitVec 24
  /-- 64 handles | 08 R314 | none | Pinned images by handle. -/
  pinned : SMap (Option Pinned)
  /-- 1 bit | 08 R338 | 0 | Store in maintenance. -/
  maint : Bool
  /-- list | 08 R336 | none | Store operations: the first runs, the rest wait. -/
  writes : List StoreWrite
  /-- list | 08 R317, R338 | none | Store blocks of a replica that cannot be read, at replica × 16 + i; a bit of `replica_ok` is 1 while its replica has none. -/
  unread : List Nat
  /-- 32 bits | 08 R338 | 0 | RC: store fills that suspended a die; saturates. -/
  fillsSuspended : Nat
  /-- 4 x 2 x 256 slots | 08 R315 | empty: DESIGN CHOICE (log 9) | Images in both versions of each store block, at (replica × 2 + version) × 256 + slot: bytes and length. -/
  store : SMap (Option (SMap Byte × Nat))
  /-- 32 bits | 08 R338 | 0 | RC: line fills from host memory or the store; saturates. -/
  misses : Nat
  /-- 7 bits | 08 R338 | 0x10 | steward_ctx. -/
  stewardCtx : Nat
  /-- 3 bits | 08 R338 | 2 | per_cmp. -/
  perCmp : Nat
  /-- 4 x 16 | 08 R316 | 0: DESIGN CHOICE (log 9) | Which of the pair of blocks of store block i is live, at replica × 16 + i. -/
  alternate : SMap Nat
  /-- 4 x 2 x 16 x 56 bits | 08 R316 | none: DESIGN CHOICE (log 9) | seq of each version, 0 where it has no valid directory, at (replica × 2 + version) × 16 + i. -/
  storeSeq : SMap Nat
  /-- table | 04 R599 | none | Blocks that replace retired store blocks: 1 + block, at (replica × 2 + version) × 16 + i. -/
  moved : SMap Nat
  /-- table | 08 R331, R332 | none | What the takeover contexts of a failed caller or region held when they received their last
  commit. -/
  mirrors : SMap (Option (KCtx × KInst))
  /-- list | 08 R337 | none | Store blocks that a reel has programmed since their last erase, at die × 8,192 + block. -/
  touched : List Nat
  /-- list | 07 R293 | none | Operations that units carry out for tickets, oldest first. -/
  ops : List KOp
deriving DecidableEq, Repr

/-! ### Host link (R407 to R439) -/

/-- Standard features of a controller (R418). -/
structure Features where
  /-- 4 x 2 x 16 bits | 14 R508 | log 14 | Over and under thresholds of the composite temperature and sensors 1 to 3, in kelvin. -/
  tempOver : List Nat
  tempUnder : List Nat
  /-- 16 bits | 11 R418 | 0 | Interrupt Coalescing. -/
  coalescing : BitVec 32
  /-- table | 11 R418 | 0 | Interrupt Vector Configuration, by vector. -/
  vectors : SMap Nat
  /-- 32 bits | 11 R418 | every event of R433 enabled: DESIGN CHOICE (log 24) | Asynchronous Event Configuration. -/
  asyncCfg : BitVec 32
  /-- count | 11 R415 | 0 | Queue pairs granted by Number of Queues. -/
  queues : Nat
deriving DecidableEq, Repr

/-- A submission or completion queue (R346, R355). -/
structure Queue where
  /-- 11 bits | 09 R355 | entry | Controller: 0 and 1 the steward controllers of the ports, 1 + n compartment n. -/
  ctl : Nat
  /-- 16 bits | 11 R417 | entry | Queue identifier. -/
  qid : Nat
  /-- 1 bit | 11 R417 | entry | Submission queue. -/
  sq : Bool
  /-- 13 bits | 11 R414 | entry | Entries. -/
  size : Nat
  /-- 16 bits | 11 R417 | 0 | Head. -/
  head : Nat
  /-- 16 bits | 11 R417 | 0 | Tail. -/
  tail : Nat
  /-- 21 bits | 09 R346 | entry | PASID. -/
  pasid : Option Nat
  /-- 16 bits | 11 R417 | entry | Completion queue of a submission queue. -/
  cq : Nat
  /-- 3 bits | 11 R416 | entry | Interrupt vector of a completion queue. -/
  vector : Nat
  /-- 1 bit | 09 R367 | entry | Interrupts enabled. -/
  ien : Bool
  /-- 64 bits | 11 R417 | entry | Base. -/
  base : Nat
  /-- 1 bit | 09 R367 | 1 at creation | Phase of the entries a completion queue receives. -/
  phase : Bool
deriving DecidableEq, Repr

/-- One entry of an Error Information log (R419): a command that failed, or a program refused to a hardware issuer (R149). -/
inductive ErrRec where
  | command (c : Cqe)
  | program (die block page status : Nat)
deriving DecidableEq, Repr

/-- One PCIe port and its steward controller (R412, R413, R436). -/
structure Port where
  /-- 1 bit | 11 R436 | opt: DESIGN CHOICE single until step 6 (log 8) | Present. -/
  present : Bool
  /-- 1 bit | 11 R436 | 0 | Data link up. -/
  linkUp : Bool
  /-- 1 bit | 11 R436 | 0 | Degraded. -/
  degraded : Bool
  /-- 3 bits | 11 R436 | 0 | Rate. -/
  rate : Nat
  /-- 5 bits | 11 R436 | 0 | Width. -/
  width : Nat
  /-- 16 bits | 11 R436 | 0 | Losses since cold reset; wraps. -/
  losses : BitVec 16
  /-- 1 bit | 12 R452 | 1 (pull-down) | PERST asserted. -/
  perst : Bool
  /-- 1 bit | 12 R459 | 0 | Link training. -/
  training : Bool
  /-- 1 bit | 13 R476 | 0 | In L1.2. -/
  l12 : Bool
  /-- 1 bit | 11 R413 | 0 | CC.EN. -/
  en : Bool
  /-- 1 bit | 11 R413 | 0 | CSTS.RDY. -/
  rdy : Bool
  feat : Features
  /-- list | 11 R414 | none | Asynchronous Event Requests outstanding, oldest first. -/
  aers : List HostCmd
  /-- list | 11 R433 | none | Standard events not yet reported: (type, information, log page). -/
  asyncEvents : List (Nat × Nat × Nat)
  /-- 64 entries | 11 R419 | none | Error Information log, newest first. -/
  errors : List ErrRec
  /-- 1 bit | 11 R412, R413 | 0 | The controller was reset, and its squash instant is still to come. -/
  squashing : Bool
  /-- count | 17 R566, 11 R410 | 0 | Requests logged through AER as unsupported. -/
  aerLogged : Nat
deriving DecidableEq, Repr

/-- Outputs, the host link and the event engine. -/
structure HostLink where
  /-- 2 records | 11 R436 | R436 | Ports. -/
  port0 : Port
  port1 : Port
  /-- 1 bit | 11 R436 | opt: DESIGN CHOICE single until step 6 (log 8) | Dual configuration. -/
  dual : Bool
  /-- list | 11 R415 | none | Queues. -/
  queues : List Queue
  /-- table | 11 R418 | none | Features of compartment controllers, by compartment. -/
  compFeat : SMap (Option Features)
  /-- table | 11 R417 | none | Asynchronous Event Requests of compartment controllers: (compartment, command). -/
  compAers : List (Nat × HostCmd)
  /-- list | 11 R433 | none | Standard events of compartment controllers not yet reported: (compartment, type, information, log page). -/
  compEvents : List (Nat × Nat × Nat × Nat)
  /-- list | 11 R419 | none | Zones in the Changed Zone Lists: (controller, zone); controllers as queues number them. -/
  changedZones : List (Nat × Nat)
  /-- list | 11 R419 | none | Namespaces in the Changed Namespace Lists: (controller, NSID). -/
  changedNs : List (Nat × Nat)
  /-- 64 entries each | 11 R419 | none | Error Information logs of compartment controllers, by compartment, newest first. -/
  compErrors : SMap (List ErrRec)
  /-- record | 11 R433, R435 | closed | Steward event ring. -/
  ring : Option Ring
  /-- 32 bits | 11 R435 | 0 | RC: records lost; saturates. -/
  lost : Nat
  /-- table | 09 R373 | closed | Compartment event rings. -/
  compRings : SMap (Option Ring)
  /-- table | 09 R351 | 0 | CMPW_EVT_LOST of each compartment. -/
  compLost : SMap Nat
  /-- list | 11 R432 | none | Every event record raised, newest first (log 5). -/
  raised : List EvRec
  /-- list | 12 R463 | none | Outputs, newest first (log 5). -/
  out : List Output
  /-- 2 x 8,192 x 16 bytes | 11 R409, R410 | every vector masked: PRESUMED (log 39) | MSI-X tables in double words, at port × 32,768 + vector × 4 + i. -/
  msix : SMap (BitVec 32)
  /-- 2 x 8,192 bits | 11 R409, R410 | none: PRESUMED (log 39) | MSI-X pending bits: port × 8,192 + vector. -/
  msixPending : List Nat
  /-- bytes | 11 R419 | 0 | Data units and commands of the SMART log: bytes read, bytes written, commands. -/
  smart : Nat × Nat × Nat
  /-- table | 09 R357 | (0, 0) | Data units of a compartment's SMART log: bytes read, bytes written. -/
  compSmart : SMap (Nat × Nat)
deriving DecidableEq, Repr

/-! ### Debug and management -/

/-- The instructions of the test access port (R449). -/
inductive JtagIr where
  | bypass | idcode | sample | extest | clamp | highz
deriving DecidableEq, Repr

/-- A request of the management bus (R438). -/
inductive MiReq where
  | poll
  | vpd (off len : Nat)
  | identify (cns csi cntid nsid off len : Nat)
  | log (lid nsid off len : Nat)
  | other (opcode : Nat)
deriving DecidableEq, Repr

/-- Debug connector and management bus. -/
structure Service where
  /-- 3 bits | 12 R449 | IDCODE: PRESUMED (log 16) | Instruction of the test access port. -/
  ir : JtagIr
  /-- 1 bit | 11 R437 | 0 | The management interface runs as an I3C target. -/
  i3c : Bool
  /-- 7 bits | 11 R437 | none | Dynamic I3C address. -/
  i3cAddr : Option Nat
  /-- list | 11 R439 | none | MCTP requests accepted while the module slept, to be answered after the wake, oldest first. -/
  requests : List MiReq
deriving DecidableEq, Repr

/-! ### The whole state -/

/-- What a mount reads back from flash (R207, R343, R554): the metadata as last made durable. -/
structure Durable where
  zones : Zones
  comps : Comps
  keys : SMap Nat
  foldCfg : FoldCfg
  shares : SMap Nat
  /-- table | 05 R207, R212 | 0 | Read counters as the newest valid checkpoint holds them, at die × 8,192 + block. -/
  reads : SMap Nat
deriving DecidableEq, Repr

/-- The module. -/
structure State where
  part : Part
  boot : Boot
  pins : Pins
  pwr : Power
  plog : PowerLog
  tim : TimeBase
  thm : Thermal
  fan : Fans
  lvl : Levels
  zns : Zones
  car : Carriages
  fls : Flash
  mnt : Mount
  jrn : Journal
  nv : Durable
  /-- record | 05 R206 | as `nv` | The metadata as the journal units under way make it durable. -/
  nvNext : Durable
  bpm : Pools
  mem : Integrity
  cmp : Comps
  fcd : Codec
  kry : Reels
  hif : HostLink
  cpl : Coupler
  sec : Security
  svc : Service
  /-- counter | the model's own (log 6) | 0: DESIGN CHOICE (log 6) | Free values drawn so far. -/
  free : Nat
  /-- queue | the model's own | empty | Commands waiting, first in, first out. -/
  pending : List Instr
deriving DecidableEq, Repr


/-! ### Why a command stops -/

/-- The faults. -/
inductive Fault where
  /-- INPUT_RANGE_CHANGE reports an input above 72 V, beyond the absolute maximum, where R222 promises no behaviour.
  Safe: nothing can be proved of what follows. -/
  | beyondAbsoluteMaximum
deriving DecidableEq, Repr

/-- The refusals. -/
inductive Refusal where
  /-- The command has no meaning in this model. Safe. -/
  | notModelled (mnemonic : String)
  /-- The event names something that is not in progress in this state, so it cannot arise there (log 4). Raised by
  the meanings of events. Safe: a step that the hardware cannot take is not taken. -/
  | cannotArise (event : String)
deriving DecidableEq, Repr

/-! ### Reset -/

/-- Features of a controller at reset; the thresholds are those of log 14. -/
def Features.reset : Features :=
  { tempOver := [368, 0xFFFF, 0xFFFF, 0xFFFF], tempUnder := [0, 0, 0, 0], coalescing := 0, vectors := [], asyncCfg := 0x0800011F,
    queues := 0 }

/-- A port at reset. -/
def Port.reset (present : Bool) : Port :=
  { present := present, linkUp := false, degraded := false, rate := 0, width := 0, losses := 0, perst := true,
    training := false, l12 := false, en := false, rdy := false, feat := Features.reset, aers := [], asyncEvents := [],
    errors := [], squashing := false, aerLogged := 0 }

/-- Compartment 0 at reset (R349): quotas 24,576 and 512, Express, no floor. -/
def Comp.steward : Comp :=
  { state := .active, port := 0, fetchStopped := false, resetByHost := false, resets := 0, since := 0, en := false,
    rdy := false, cfs := false, aqa := 0, asq := 0, acq := 0, apasid := 0,
    res := { queuePairs := 64, activeQuota := 24576, directQuota := 512, floor := 0, reserved := 0, cls := 0 },
    intMask := 0, intStat := 0, bytesRead := 0, bytesWritten := 0, refused := 0, dieTime := 0, keyErased := false,
    reset := none, wasFrozen := false, waiting := none, token := none, saveBytes := 0, control := [] }

/-- The compartments at reset (R341). -/
def Comps.reset : Comps := { table := [(0, Comp.steward)], pasids := [] }

/-- The zone and translation engines before a mount. -/
def Zones.reset : Zones :=
  { zones := [], pgroups := [], spaces := [], sgSel := 0, pgSel := 0, zoneStat := 0, data := [], tags := [], rows := [],
    carved := 0, convMap := [], convData := [], convTags := [], convShare := 0, convNext := 0, convPend := [],
    convRegionNext := 0, convSlots := [],
    reclaimPct := 50, convRows := [], convFills := [], unreadable := [], online := false, seq := 0 }

/-- A cluster's read-around budget at reset (R127, R128). -/
def RaBudget.reset : RaBudget :=
  { fraction := 0x0C, express := 0x028, standard := 0x096, bulk := 0x7D0, written := none, allowance := 0, used := 0,
    reconstructed := 0, suspended := 0, readUs := 0 }

/-- A cluster's media settings at reset (R176, R182, R186). -/
def ClusterCfg.reset : ClusterCfg :=
  { media := { promHours := 0x48, promBits := 0x60, rcQlc := 0x064, rcSlc := 0x400, relocClass := 2, rebuildClass := 1 },
    mediaNext := none, spread := 0x0190, roleGap := 0x00C8, hist := List.replicate 8 0, promNext := 0 }

/-- A pool of `n` buffers of 2^`k` bytes, all free. -/
def Pool.ofSize (k n : Nat) : Pool :=
  { sizeLog2 := k, enabled := true, count := n, held := 0, lost := 0, entered := 0, freed := [], fresh := 0
    onDie := min n 3584 }

/-- A disabled pool. -/
def Pool.off : Pool :=
  { sizeLog2 := 0, enabled := false, count := 0, held := 0, lost := 0, entered := 0, freed := [], fresh := 0, onDie := 0 }

/-- The reset layout of one general-area partition (R377). -/
def Pool.generalPart : List Pool :=
  [Pool.ofSize 14 32768, Pool.ofSize 16 16384, Pool.ofSize 18 8192, Pool.ofSize 20 2048, Pool.ofSize 22 1024,
   Pool.off, Pool.off, Pool.off]

/-- The reset layout of one cluster's SRAM (R377). -/
def Pool.sramPart : List Pool :=
  [Pool.ofSize 14 128, Pool.ofSize 16 96, Pool.off, Pool.off, Pool.off, Pool.off, Pool.off, Pool.off]

/-- The default image of the option area (R201, R549), generation 0: Minuet, FAN_CMD analogue, the default thermal
limits and grace window, level Closed, dirty limit 80 steps of 256 MiB. -/
def OptImage.default : OptImage :=
  { generation := 0,
    bytes := [(17, 2), (24, 95), (25, 110), (26, 120), (27, 70), (28, 80), (29, 85), (30, 0xD0), (31, 0x07), (32, 1),
              (33, 80)] }

/-- A coupler port at reset. -/
def CplPort.reset : CplPort :=
  { state := 0, peer := 0, peerPort := 0, retries := 0, downs := 0, replays := 0, replayBuf := [], nextFlit := 0, sendQueue := [] }

/-- A fan output at reset. -/
def FanOut.reset : FanOut :=
  { state := 0, cmdPct := 0, rpm := 0, dutyPct := 0, starts := 0, retries := 0, lost := false, crossings := 0,
    commutation := 0, interval := 0, nextCommutation := 0, faultAt := 0 }

/-- The module right after reset: before input power has been valid for 10 ms, so before step 1 of R197. -/
def State.reset : State :=
  { part := { variant := .z880, codec := true, history := true, fan := true, coupler := true, hwRev := 0, serial := 0,
              sealFuse := false },
    boot := { step := 0, stalled := false, optValid := 0, optCopy := 0, optDefault := false, cause := 0,
              optGeneration := 0, parked := true, offLatch := false, inputBack := false, tripped := false },
    pins := { modIdStrap := 0, modIdLive := 0, wakeN := true, ppsIn := false, modOkLow := false, ppsOutEn := false,
              srcCritEvent := false, srcIdChanged := false, alertEn := 0xF, fanCmdPct := 0x7F, fanCmdFault := false,
              ppsOut := false, cable := List.replicate 4 false, ppsCounting := false, wakeStuck := false },
    pwr := { mode := .minuet, pendingMode := none, modeCommands := [], phasesOk := 0x1FF, phaseLimit := 0, vIn := 0,
             iIn := 0, pAvg := 0, underRange := false, overRange := false, pstate := .dark, entry := none,
             idleUs := 0x0186A0, hinted := [], idleEntries := 0, lastActivity := 0, wakeEn := 0x1EE,
             wakeTimer := 0xFFFFFFFFFFFFFFFF, wakeSource := 0, wakeLeft := 0, wakeMask := 0, wakes := 0, exitUs := 0,
             wakeAt := 0, lossPending := false },
    plog := { abortCause := 0, abortTarget := 0, abortSource := 0, aborts := 0, abortUs := 0, closeDomain := 0,
              closing := false, forced := false, closeMs := 0x0032, squashed := 0, vBank := 0, bankCap := 0, bankEsr := 0,
              charged := false, measBusy := false, measuredAt := 0, charger := false, dirtyCfg := 80, limitMib := 0, singlePath := false,
              marker := 0, ltrUs := 2, sleepNotices := 0 },
    tim := { now := 0, running := false, ppsEn := true, ptmEn := false, ptmMs := 0x0A, source := 0, locked := false,
             holdover := false, secSuspect := true, saturated := false, steps := 0, lastErr := 0, freqPpb := 0,
             ppsLast := 0, goodEdges := 0, heldEdge := none, slew := 0, slewPhase := 0, disciplinedAt := 0,
             timeSet := false, ptmOffset := none, ppsAlive := false },
    thm := { level := 0, step := 0, source := 0, dieTemp := 0, flashTemp := 0, flashDie := 0, stopped := false,
             excluded := [], strayRuns := [], slope := 0, die := { notice := 95, critical := 110, trip := 120 },
             flash := { notice := 70, critical := 80, trip := 85 }, graceMs := 2000, hystC := 5, stopMs := 0x05DC,
             stopEn := true, board := List.replicate 6 0, windowAt := none, readings := [], critRuns := (0, 0),
             tripRuns := (0, 0), dieTemps := [], dieRuns := [], tripRecord := none, fanFloor := false },
    fan := { cmdSrc := 0, cmdMode := 0, enable := 0, minPct := 0x0F, ratedRpm := 0, polePairs := 0, stall := 0,
             startFail := 0, overcurrent := 0, openPhase := 0, speedLow := 0, clampFault := false, rail28 := false,
             rail30 := false, heldOff := 0, railV := 0, clampOn := false, zeroVector := false, gatesOff := false, restartAt := 0,
             clampGood := true, outs := List.replicate 4 FanOut.reset },
    lvl := { clusterOwner := 0xFF00, regionA := true, regionB := true, takeover := false, takeoverBy := 0,
             clusterLost := 0, bridgeOk := true, xbarLost := (0, 0),
             budgetA := { demandMw := 0, demandProg := 0, shareMw := 0, shareProg := 0 },
             budgetB := { demandMw := 0, demandProg := 0, shareMw := 0, shareProg := 0 }, rowInForce := 2, rowPower := 2,
             windowStart := 0, excessMw := 0, clocks := 0, unitsFailed := [], takeoverAt := 0, takeoverMark := 0, singleStaging := false,
             bothLost := false },
    zns := Zones.reset,
    car := { table := [], miss := 0, flights := [], nextFlight := 0, staged := [],
             ra := List.replicate 16 RaBudget.reset, share := (List.range 16).map (fun k => (k * 1024, 1000)),
             credit := [], shareNext := [] },
    fls := { dies := [], blocks := [],
             channels := List.replicate 64 { lost := false, starveLimit := 0x0100, dieSel := 0 },
             clusters := List.replicate 16 ClusterCfg.reset,
             fold := { startPct := 0, urgentPct := 0x4B, foldClass := 2, urgentClass := 0, maxFolds := 0x28 },
             foldNext := none, landing := [], landingNext := 0, relocs := [], relocNext := 0, refresh := [], rebuild := [],
             compacting := [], stale := [], pinWarning := false, fullErases := 0, refusals := [], cells := [] },
    mnt := { state := 0, scanned := false, shutdown := 0, progress := 0, fallback := 0, elapsed := 0, requestedAt := 0,
             firstCkpt := false, waiting := false, stopping := false, closing := false, known := false },
    jrn := { tail := 0, tailAt := 0, units := 0, before := 0, ckptS := 0x03C, slot := 0, valid := false, running := false,
             beganAt := 0, lastSeq := 0, tailSeq := 0, open_ := [], blocks := [], covered := [], ckptOpen := [],
             ckptNew := [], slotA := [], slotB := [], stripes := 0, stripe := 0, marks := [], markSlot := 0, markSeq := 0 },
    nv := { zones := Zones.reset, comps := Comps.reset, keys := [],
            foldCfg := { startPct := 0, urgentPct := 0x4B, foldClass := 2, urgentClass := 0, maxFolds := 0x28 },
            shares := [], reads := [] },
    nvNext := { zones := Zones.reset, comps := Comps.reset, keys := [],
                foldCfg := { startPct := 0, urgentPct := 0x4B, foldClass := 2, urgentClass := 0, maxFolds := 0x28 },
                shares := [], reads := [] },
    bpm := { dramCell := false, sramCell := false, cfgRefused := false,
             wm0 := { amber := 0x4B, red := 0x5A, black := 0x61, hyst := 2 },
             wm1 := { amber := 0x4B, red := 0x5A, black := 0x61, hyst := 2 }, sel := 0,
             general := Pool.generalPart ++ Pool.generalPart,
             sram := (List.replicate 16 Pool.sramPart).flatten, staging := Pool.ofSize 18 32768, bufs := [],
             nextHandle := 1, bytes := [], owners := [], ownerCmd := 0, ownerStatus := 0, ownerDone := true,
             ownerLimit := 0, ownerInfo := 0, leakMs := 0x2710, segments := [], leaving := [] },
    mem := { sramCe := 0, dramCe := 0, sramUe := 0, dramUe := 0, marked := List.replicate 8 15, dramH := 0x18,
             sramMin := 0x3C, dramPct := 0, sramPct := 0, passes := 0, frozen := [], flipSel := 0, flipMask := 0,
             softPending := [], remap := [], corrections := [], deviceRuns := [], frameRuns := [], bad := [],
             tableWarning := false, spareFrames := 16384 },
    cmp := Comps.reset,
    fcd := { lanesOk := 0xFF, lanesInUse := 8, ctxs := [], jobs := [], coded := [], sel := 0, rawBytes := 0, recordBytes := 0 },
    kry := { ctxs := [], insts := [], failed := 0, retired := [], records := [], serial := 0, pinned := [],
             maint := false, writes := [], unread := [], fillsSuspended := 0, store := [],
             misses := 0, stewardCtx := 0x10, perCmp := 2, alternate := [], storeSeq := [], moved := [],
             mirrors := [], touched := [],
             ops := [] },
    hif := { port0 := Port.reset true, port1 := Port.reset false, dual := false, queues := [], compFeat := [],
             compAers := [], compEvents := [], changedZones := [], changedNs := [], compErrors := [], ring := none, lost := 0, compRings := [],
             compLost := [], raised := [], out := [], msix := [], msixPending := [], smart := (0, 0, 0), compSmart := [] },
    cpl := { ports := List.replicate 4 CplPort.reset, membersCfg := 0, membersSeen := 0, sleeping := 0, quorum := false,
             timeLeadEn := false, leaderValid := false, leader := 0, hops := 0, lastErr := 0, pairs := [], cmdDone := true,
             cmdStatus := 0, cmdPgroup := 0, leads := 0, locks := 0, fenced := 0, cmdLatch := 0, copies := [],
             absent := 0 },
    sec := { level := .closed, lowering := false, protStatus := 0, protDone := true, optStatus := 0, optDone := true,
             optInForce := OptImage.default, optStage := OptImage.default.bytes,
             optCopies := List.replicate 4 { image := none, block := 0, units := 0, retired := [] }, keys := [],
             keyPresent := false, keyDone := true, keyStatus := 0, keyData := List.replicate 9 0,
             keyErasing := Option.none, sanAction := .none, sanActive := false, sanFailed := false, sanResumed := false,
             sanAuse := false, sanPct := 0, sanStart := 0 },
    svc := { ir := .idcode, i3c := false, i3cAddr := none, requests := [] },
    free := 0, pending := [] }

end Sys2Proof.Machine
end

