-- ==== Sys2Proof/Machine/Ops.lean ====
section
/-! DEFINITION. The named operations that every family of commands shares: sparse tables, time, events, completions,
outputs, and the small questions asked of the state again and again. -/

namespace Sys2Proof.Machine

/-! ### Sparse tables -/

/-- The entry of a sparse table at index `k`, the default `d` where none is listed. -/
def look {V : Type} (d : V) : SMap V → Nat → V
  | [], _ => d
  | (j, v) :: r, k => if j = k then v else look d r k

/-- Writes entry `k` of a sparse table, keeping its one canonical form. -/
def put {V : Type} [DecidableEq V] (d : V) : SMap V → Nat → V → SMap V
  | [], k, v => if v = d then [] else [(k, v)]
  | (j, w) :: r, k, v =>
    if k < j then (if v = d then (j, w) :: r else (k, v) :: (j, w) :: r)
    else if k = j then (if v = d then r else (k, v) :: r)
    else (j, w) :: put d r k v

/-- Applies `f` to entry `k`. -/
def upd {V : Type} [DecidableEq V] (d : V) (m : SMap V) (k : Nat) (f : V → V) : SMap V := put d m k (f (look d m k))

/-- The canonical form: indexes strictly rising, no entry equal to the default, every index at least `lo`. -/
def canonFrom {V : Type} [DecidableEq V] (d : V) : Nat → SMap V → Bool
  | _, [] => true
  | lo, (j, v) :: r => decide (lo ≤ j) && decide (v ≠ d) && canonFrom d (j + 1) r

/-- The canonical form of a whole table. -/
def canon {V : Type} [DecidableEq V] (d : V) (m : SMap V) : Bool := canonFrom d 0 m

/-- `n` bytes of a byte table from address `a`; unlisted bytes are 0. -/
def readBytes (m : SMap Byte) (a : Nat) : Nat → List Byte
  | 0 => []
  | n + 1 => look 0 m a :: readBytes m (a + 1) n

/-- Writes bytes of a byte table from address `a`. -/
def writeBytes (m : SMap Byte) (a : Nat) : List Byte → SMap Byte
  | [] => m
  | b :: bs => writeBytes (put 0 m a b) (a + 1) bs

/-- Clears `n` bytes from address `a`. -/
def clearBytes (m : SMap Byte) (a n : Nat) : SMap Byte := m.filter (fun e => decide (e.1 < a ∨ a + n ≤ e.1))

/-- Removes the entries with index from `a` to `a + n − 1`. -/
def clearRange {V : Type} (m : SMap V) (a n : Nat) : SMap V := m.filter (fun e => decide (e.1 < a ∨ a + n ≤ e.1))

/-- Little-endian number of a list of bytes. -/
def leNat : List Byte → Nat
  | [] => 0
  | b :: bs => b.toNat + 256 * leNat bs

/-- The `n` low bytes of a number, least significant first. -/
def leBytes : Nat → Nat → List Byte
  | 0, _ => []
  | n + 1, v => BitVec.ofNat 8 v :: leBytes n (v / 256)

/-- Saturating sum. -/
def satAdd (limit a b : Nat) : Nat := min limit (a + b)

/-- Bits `[lo + n − 1 : lo]` of a number. -/
def bits (v lo n : Nat) : Nat := v / 2 ^ lo % 2 ^ n

/-- Element `i` of a list replaced by `f` of it. -/
def modAt {V : Type} (l : List V) (i : Nat) (f : V → V) : List V := l.mapIdx (fun j x => if j = i then f x else x)

/-- Sum of a list of numbers by `f`. -/
def sumBy {V : Type} (f : V → Nat) (l : List V) : Nat := (l.map f).foldl (· + ·) 0

/-! ### Part and geometry (R1, R42, R53, R156) -/

/-- Dies per channel. -/
def Variant.ranks : Variant → Nat
  | .z440 => 16 | .z660 => 24 | .z880 => 32

/-- Stripe groups: four positions of every rank. -/
def Variant.groups (v : Variant) : Nat := v.ranks * 4

/-- Dies of the module. -/
def Variant.dies (v : Variant) : Nat := v.ranks * 64

/-- `variant` field of `GLB_CAP` (R6). -/
def Variant.code : Variant → Nat
  | .z440 => 0 | .z660 => 1 | .z880 => 2

/-- PCIe device ID (R408). -/
def Variant.deviceId : Variant → Nat
  | .z440 => 0x4C44 | .z660 => 0x4C66 | .z880 => 0x4C80

/-- 4 KiB units of a zone's unreduced capacity (R53). -/
def zoneCapUnits : Nat := 368640

/-- 4 KiB units of one stripe row: 15 MiB. -/
def rowUnits : Nat := 3840

/-- 4 KiB units of one LBA. -/
def NsEntry.unitsPerLba (n : NsEntry) : Nat := if n.lba16 then 4 else 1

/-- LBAs of a zone size ZSZE (R53). -/
def NsEntry.zsze (n : NsEntry) : Nat := if n.lba16 then 131072 else 524288

/-- The die of member `k` (cluster `k`) of stripe group `g` (R42). -/
def memberDie (g k : Nat) : Nat := (g / 4) * 64 + (4 * k + g % 4)

/-- Channel of a die (R42). -/
def dieChannel (die : Nat) : Nat := die % 64

/-- Cluster of a die (R42). -/
def dieCluster (die : Nat) : Nat := die % 64 / 4

/-- Rank of a die (R42). -/
def dieRank (die : Nat) : Nat := die / 64

/-- Region that owns the zone's state (R27): 0 even stripe group, 1 odd. -/
def zoneRegion (z : Nat) : Nat := z / 5000 % 2

/-! ### Source field of event records (R43) -/

/-- Source of kind `k`, instance `i`. -/
def src (k i : Nat) : Nat := k * 4096 + i

def srcHost : Nat := src 0 0
def srcCoupler : Nat := src 0 1
def srcSecurity : Nat := src 0 2
def srcPower : Nat := src 0 3
def srcTime : Nat := src 0 4
def srcThermal : Nat := src 0 5
def srcFan : Nat := src 0 6
def srcLoader : Nat := src 0 7
def srcEvents : Nat := src 0 8
def srcStage : Nat := src 0 9
def srcBank : Nat := src 0 10
def srcBoard : Nat := src 0 11

/-- Source of a part of a region (R43). -/
def srcRegion (region part : Nat) : Nat := src 0xA (region * 16 + part)

/-- Source of the zone engine that owns zone `z`. -/
def srcZone (z : Nat) : Nat := srcRegion (zoneRegion z) 1

/-! ### Records read with their defaults -/

/-- A zone slot that is Empty and was never set. -/
def Zone.none : Zone :=
  { state := .empty, direct := false, setting := Option.none, wp := 0, cap := zoneCapUnits, pinned := false,
    reduced := false, members := [], active := false, dataEnd := Option.none, acked := 0, runs := [],
    beforeFull := Option.none, finishing := false, failed := [] }

/-- A compartment number that is Free (R341). -/
def Comp.free : Comp :=
  { state := .free, port := 0, fetchStopped := false, resetByHost := false, resets := 0, since := 0, en := false,
    rdy := false, cfs := false, aqa := 0, asq := 0, acq := 0, apasid := 0,
    res := { queuePairs := 0, activeQuota := 0, directQuota := 0, floor := 0, reserved := 0, cls := 0 },
    intMask := 0, intStat := 0, bytesRead := 0, bytesWritten := 0, refused := 0, dieTime := 0, keyErased := false,
    reset := Option.none, wasFrozen := false, waiting := Option.none, token := Option.none, saveBytes := 0,
    control := [] }

/-- A carriage entry at reset (R102 to R105). -/
def Carriage.none : Carriage :=
  { coupled := false, handleType := 0, handle := 0, comp := 0, readClass := 0, writeClass := 0, twin := false,
    encrypt := false, codec := false, keySlot := 0, codecCtx := 0, owner := 0, dmaGroups := 0, generation := 0,
    nsid := 0, outstanding := 0, draining := false }

/-- An idle die. -/
def Die.idle : Die :=
  { op := Option.none, queue := [], lost := false, starved := false, eraseQueue := [], loans := 0, passed := 0,
    landingBlock := Option.none, owed := 0 }

/-- The role of block index `b` when the module leaves the factory (R599). -/
def factoryRole (b : Nat) : Role :=
  if b < 90 then .system else if b < 320 then .landing else if b < 600 then .spare else .zone

/-- Block index `b` of a die as the module leaves the factory: erased in the mode of its role (log 9). -/
def factoryBlock (b : Nat) : Block :=
  { role := factoryRole b, qlc := decide (320 ≤ b), wear := 0, reads := 0, wp := 0,
    use := if b < 90 then .system else .free, first := 0, last := 0, temps := 0, hint := 0,
    gen := 0 }

/-- Block index `b` of a die that nothing has touched since `n` block erases of the whole module (R172, R560). -/
def freshBlock (n b : Nat) : Block :=
  { factoryBlock b with wear := if b < 90 then 0 else if b < 320 then min 0xFFFFF n else min 0xFFFFF (4 * n) }

/-- The coupler port's link is up, on four lanes or on two. -/
def CplPort.up (p : CplPort) : Bool := decide (p.state = 2) || decide (p.state = 3)

/-- Codes of the compartment states (R341). -/
def CState.code : CState → Nat
  | .free => 0 | .active => 1 | .resetting => 2 | .freezing => 3 | .frozen => 4 | .saving => 5 | .saved => 6

/-- Code of a protection level (R548). -/
def ProtLevel.code : ProtLevel → Nat
  | .opened => 0 | .closed => 1 | .sealed => 2

/-- Code of a pair's role (R536). -/
def PairRole.code : PairRole → Nat
  | .none => 0 | .primary => 1 | .mirror => 2 | .promoted => 3 | .broken => 4 | .superseded => 5

/-- A carved slot of the conventional region that holds no block. -/
def ConvSlot.none : ConvSlot := { members := [], failed := [] }

/-- A codec context that was never granted. -/
def CodecState.zero : CodecState :=
  { format := 0, planes := 0, linesValid := false, frameDone := false, used := false, width := 0, height := 0,
    nextLine := 0, stream := 0, frame := 0, runs := [0, 0, 0, 0], ctxs := [], lines := [] }

/-- A codec context at reset. -/
def CodecCtx.none : CodecCtx := { grant := Option.none, coded := false, st := CodecState.zero }

/-- The row record of a stripe row that holds nothing. -/
def Row.none : Row :=
  { qlc := false, pinned := false, programmed := 0, issued := false, folding := false, reloaded := false,
    foldableAt := 0 }

namespace State

/-- Zone `z`. -/
def zone (s : State) (z : Nat) : Zone := look Zone.none s.zns.zones z

/-- Writes zone `z`. -/
def setZone (s : State) (z : Nat) (v : Zone) : State :=
  { s with zns := { s.zns with zones := put Zone.none s.zns.zones z v } }

/-- Placement group `p`. -/
def pgroup (s : State) (p : Nat) : Option PGroup := look Option.none s.zns.pgroups p

/-- Writes placement group `p`. -/
def setPgroup (s : State) (p : Nat) (v : Option PGroup) : State :=
  { s with zns := { s.zns with pgroups := put Option.none s.zns.pgroups p v } }

/-- Namespace `n`. -/
def space (s : State) (n : Nat) : Option NsEntry := look Option.none s.zns.spaces n

/-- Writes namespace `n`. -/
def setSpace (s : State) (n : Nat) (v : Option NsEntry) : State :=
  { s with zns := { s.zns with spaces := put Option.none s.zns.spaces n v } }

/-- Compartment `c`. -/
def comp (s : State) (c : Nat) : Comp := look Comp.free s.cmp.table c

/-- Writes compartment `c`. -/
def setComp (s : State) (c : Nat) (v : Comp) : State :=
  { s with cmp := { s.cmp with table := put Comp.free s.cmp.table c v } }

/-- Carriage entry `n`. -/
def carriage (s : State) (n : Nat) : Carriage := look Carriage.none s.car.table n

/-- Writes carriage entry `n`. -/
def setCarriage (s : State) (n : Nat) (v : Carriage) : State :=
  { s with car := { s.car with table := put Carriage.none s.car.table n v } }

/-- Die `d`. -/
def die (s : State) (d : Nat) : Die := look Die.idle s.fls.dies d

/-- Writes die `d`. -/
def setDie (s : State) (d : Nat) (v : Die) : State :=
  { s with fls := { s.fls with dies := put Die.idle s.fls.dies d v } }

/-- Block `b` of die `d`. -/
def block (s : State) (d b : Nat) : Block := look (freshBlock s.fls.fullErases b) s.fls.blocks (d * 8192 + b)

/-- Writes block `b` of die `d`. -/
def setBlock (s : State) (d b : Nat) (v : Block) : State :=
  { s with fls := { s.fls with blocks := put (freshBlock s.fls.fullErases b) s.fls.blocks (d * 8192 + b) v } }

/-- Stripe row `r` of zone `z`. -/
def row (s : State) (z r : Nat) : Row := look Row.none s.zns.rows (z * 96 + r)

/-- Writes stripe row `r` of zone `z`. -/
def setRow (s : State) (z r : Nat) (v : Row) : State :=
  { s with zns := { s.zns with rows := put Row.none s.zns.rows (z * 96 + r) v } }

/-- Codec context `c`. -/
def codecCtx (s : State) (c : Nat) : CodecCtx := look CodecCtx.none s.fcd.ctxs c

/-- Writes codec context `c`. -/
def setCodecCtx (s : State) (c : Nat) (v : CodecCtx) : State :=
  { s with fcd := { s.fcd with ctxs := put CodecCtx.none s.fcd.ctxs c v } }

/-- The reel context at index `c`. -/
def kctx (s : State) (c : Nat) : Option KCtx := look Option.none s.kry.ctxs c

/-- Writes the reel context at index `c`. -/
def setKctx (s : State) (c : Nat) (v : Option KCtx) : State :=
  { s with kry := { s.kry with ctxs := put Option.none s.kry.ctxs c v } }

/-- The running instance `i`. -/
def kinst (s : State) (i : Nat) : Option KInst := look Option.none s.kry.insts i

/-- Writes the running instance `i`. -/
def setKinst (s : State) (i : Nat) (v : Option KInst) : State :=
  { s with kry := { s.kry with insts := put Option.none s.kry.insts i v } }

/-- Buffer of handle `h`. -/
def buf (s : State) (h : Nat) : Option Buf := look Option.none s.bpm.bufs h

/-- Writes the buffer of handle `h`. -/
def setBuf (s : State) (h : Nat) (v : Option Buf) : State :=
  { s with bpm := { s.bpm with bufs := put Option.none s.bpm.bufs h v } }

/-- Registered owner `o`; system owners 0 to 15 are permanently registered to compartment 0 (R379). -/
def owner (s : State) (o : Nat) : Option Owner :=
  if o < 16 then some ((look Option.none s.bpm.owners o).getD { comp := 0, segLimit := 0, leak := false })
  else look Option.none s.bpm.owners o

/-- Writes owner `o`. -/
def setOwner (s : State) (o : Nat) (v : Option Owner) : State :=
  { s with bpm := { s.bpm with owners := put Option.none s.bpm.owners o v } }

/-- Port `p`. -/
def port (s : State) (p : Nat) : Port := if p = 0 then s.hif.port0 else s.hif.port1

/-- Writes port `p`. -/
def setPort (s : State) (p : Nat) (v : Port) : State :=
  if p = 0 then { s with hif := { s.hif with port0 := v } } else { s with hif := { s.hif with port1 := v } }

/-- Puts `o` among the outputs. -/
def emit (s : State) (o : Output) : State := { s with hif := { s.hif with out := o :: s.hif.out } }

/-! ### Questions -/

/-- `TIM_NOW`. -/
def now (s : State) : Nat := s.tim.now

/-- The module is Parked or later and its logic is awake: Run, Idle, an entry before step 5, or a wake past
`LOGIC_RDY` (R472, R484). -/
def awake (s : State) : Bool :=
  match s.pwr.pstate with
  | .run | .idle => true
  | .entering _ n => decide (n < 5)
  | .waking _ n => decide (n = 5)
  | _ => false

/-- Parked (R15): step 9 reached and not unparked. -/
def parked (s : State) : Bool := s.boot.parked

/-- A mount has completed (R214). -/
def mounted (s : State) : Bool := decide (s.mnt.state = 4)

/-- Protection level Open. -/
def isOpen (s : State) : Bool := decide (s.sec.level = .opened)

/-- The compartment is frozen for every rule that names it: Freezing or Frozen (R364). -/
def frozen (s : State) (c : Nat) : Bool :=
  decide ((s.comp c).state = .freezing) || decide ((s.comp c).state = .frozen)

/-- Clears the sign of time: no `TIM_NOW` is below the one in force. -/
def maxNow : Nat := 0xFFFFFFFFFFFFFFFF

/-- Moves `TIM_NOW` forward to the instant `t` at which an event happens, never back (log 3). -/
def advanceTo (s : State) (t : Nat) : State := { s with tim := { s.tim with now := max s.tim.now (min t maxNow) } }

/-- Work arrives in the clock domains of a mask: their clocks run (R34; log 165 says which work arrives where). -/
def startClocks (s : State) (mask : BitVec 256) : State := { s with lvl := { s.lvl with clocks := s.lvl.clocks ||| mask } }

/-- Work arrives in a clock domain. -/
def startClock (s : State) (d : Nat) : State := s.startClocks (BitVec.ofNat 256 (2 ^ d))

/-- The domains of the DRAM channels, the crossbars and the buffer-pool partitions, which staged data crosses (R33). -/
def memoryDomains : BitVec 256 := BitVec.ofNat 256 (255 * 2 ^ 140 + 15 * 2 ^ 168)

/-- The domains of the host interface and of the zone and translation engines, where an I/O command arrives (R33). -/
def commandDomains : BitVec 256 := BitVec.ofNat 256 (2 + 15 * 2 ^ 164)

/-! ### Events (R432 to R434, R373, R305, R450, R461) -/

/-- A ring with one more record, and whether it was empty before; none where the ring is full (R433). -/
def ringPush (r : Ring) (e : EvRec) : Option (Ring × Bool) :=
  if (r.tail + 1) % r.size = r.head then Option.none
  else some ({ r with tail := (r.tail + 1) % r.size, slots := put Option.none r.slots r.tail (some e) },
             decide (r.head = r.tail))

/-- Double word `i` of the MSI-X entry of a vector on a port: an entry that was never written is masked (log 39). -/
def msixWord (s : State) (port vector i : Nat) : BitVec 32 :=
  look (if i = 3 then 1#32 else 0#32) s.hif.msix (port * 32768 + vector * 4 + i)

/-- Raises an interrupt: a message, or its pending bit where the vector is masked (R409, R410, log 39). -/
def interrupt (s : State) (port vector : Nat) : State :=
  if (s.msixWord port vector 3).getLsbD 0 then
    { s with hif := { s.hif with msixPending := (s.hif.msixPending ++ [port * 8192 + vector]).dedup } }
  else s.emit (.irq port vector)

/-- Delivers a record to the steward ring (R433). -/
def toStewardRing (s : State) (e : EvRec) : State :=
  match s.hif.ring with
  | Option.none => { s with hif := { s.hif with lost := satAdd 0xFFFFFFFF s.hif.lost 1 } }
  | some r =>
    match ringPush r e with
    | Option.none => { s with hif := { s.hif with lost := satAdd 0xFFFFFFFF s.hif.lost 1 } }
    | some (r', first) =>
      let s' := { s with hif := { s.hif with ring := some r' } }
      if first then s'.interrupt r.port r.vector else s'

/-- Sets bits of `CMPW_INTSTAT`, and raises the admin vector where an unmasked bit is set (R351, R355). -/
def compIrq (s : State) (c : Nat) (bit : Nat) : State :=
  let v := s.comp c
  let s' := s.setComp c { v with intStat := v.intStat ||| BitVec.ofNat 4 (2 ^ bit) }
  if v.intMask.getLsbD bit then s' else s'.interrupt v.port (8 * c)

/-- Delivers a record to the ring of its compartment (R373). -/
def toCompRing (s : State) (e : EvRec) : State :=
  if e.comp = 0 then s
  else match look Option.none s.hif.compRings e.comp with
    | Option.none => s
    | some r =>
      match ringPush r e with
      | Option.none =>
        ({ s with hif := { s.hif with
            compLost := upd 0 s.hif.compLost e.comp (fun n => satAdd 0xFFFFFFFF n 1) } }).compIrq e.comp 3
      | some (r', _) =>
        ({ s with hif := { s.hif with compRings := put Option.none s.hif.compRings e.comp (some r') } }).compIrq e.comp 2

/-- A reel instance's event queue after a record (R305). -/
def KInst.hears (i : KInst) (comp : Nat) (e : EvRec) : KInst :=
  if i.subs.any (fun r => decide (r.1 ≤ e.code) && decide (e.code ≤ r.2)) && (decide (comp = 0) || decide (comp = e.comp))
  then (if i.events.length < 64 then { i with events := i.events ++ [e] } else { i with eventsLost := i.eventsLost + 1 })
  else i

/-- Compartment of the reel that runs as instance `i`. -/
def instComp (s : State) (i : KInst) : Nat :=
  match s.kctx i.ctx with
  | some c => c.comp
  | Option.none => 0

/-- Delivers a record to the event queues of the reels that subscribed to its code. -/
def toReels (s : State) (e : EvRec) : State :=
  { s with kry := { s.kry with
      insts := s.kry.insts.map (fun p => (p.1, p.2.map (fun i => KInst.hears i (s.instComp i) e))) } }

/-- Raises an event: the record goes to the UART at Open, to the steward ring, to its compartment's ring and to the
subscribed reels, and level 4 sets `src_crit_event`. -/
def raise (s : State) (code level source c : Nat) (p : Payload) : State :=
  let e : EvRec := { time := s.tim.now, code := code, source := source, comp := c, level := level, payload := p }
  let s1 := { s with hif := { s.hif with raised := e :: s.hif.raised } }.startClock 9
  let s2 := if s1.isOpen then s1.emit (.uartEvent e) else s1
  let s3 := ((s2.toStewardRing e).toCompRing e).toReels e
  if level = 4 then { s3 with pins := { s3.pins with srcCritEvent := true } } else s3

/-- Raises an event whose payload the manual lists as fields. -/
def event (s : State) (code level source c : Nat) (fields : List Int) : State :=
  s.raise code level source c (.fields fields)

/-! ### Coupler links (R520, R521) -/

/-- A flit enters the replay buffer of a port, where it has room (R520). -/
def pushFlit (s : State) (p : Nat) : State :=
  { s with cpl := { s.cpl with ports := modAt s.cpl.ports p (fun (x : CplPort) =>
      if x.replayBuf.length < 512 then { x with replayBuf := x.replayBuf ++ [x.nextFlit], nextFlit := x.nextFlit + 1 } else x) } }

/-- The lowest port with a link up to a neighbour. -/
def linkTo (s : State) (m : Nat) : Option Nat := s.cpl.ports.findIdx? (fun (x : CplPort) => x.up && decide (x.peer = m))

/-- What port `p` sends next of what waits: the lowest rank, the oldest among equals (R522). -/
def nextSending (x : CplPort) : Option Sending :=
  x.sendQueue.foldl (fun (acc : Option Sending) w => match acc with
    | some a => if w.rank < a.rank then some w else some a
    | Option.none => some w) Option.none

/-- Sends one message that waits on port `p`, where the replay buffer has room for its flit (R520). -/
def sendOne (s : State) (p : Nat) : State :=
  match s.cpl.ports[p]? with
  | some x => match nextSending x with
    | some w =>
      if 512 ≤ x.replayBuf.length then s
      else (({ s with cpl := { s.cpl with ports := modAt s.cpl.ports p (fun (y : CplPort) =>
        { y with sendQueue := y.sendQueue.erase w }) } }).pushFlit p).emit w.out
    | Option.none => s
  | Option.none => s

/-- Sends what waits on port `p` as far as the replay buffer has room. -/
def sendWaiting (s : State) (p : Nat) : State :=
  match s.cpl.ports[p]? with
  | some x => (List.range x.sendQueue.length).foldl (fun t _ => t.sendOne p) s
  | Option.none => s

/-- A message of a rank goes to port `p`, and is sent in its turn (R522). -/
def sendOn (s : State) (p rank : Nat) (o : Output) : State :=
  let w : Sending := { rank := rank, out := o }
  ({ s with cpl := { s.cpl with ports := modAt s.cpl.ports p (fun (y : CplPort) =>
    { y with sendQueue := y.sendQueue ++ [w] }) } }).sendWaiting p

/-- Rank of what serves a command of a class, and of resync traffic, which is Bulk and goes behind all else (R522). -/
def classRank (cls : Nat) : Nat := 1 + min cls 2
def resyncRank : Nat := 4

/-- Sends something of a rank to a neighbour on a link to it (R522). -/
def toPeer (s : State) (m rank : Nat) (o : Output) : State :=
  match s.linkTo m with
  | some p => (s.startClock 2).sendOn p rank o
  | Option.none => s.emit o

/-! ### The time leader and the key that goes (R537, R558) -/

/-- Chooses the time leader: the lowest member that may lead and is locked, else the lowest that may lead (R537). -/
def chooseLeader (s : State) : State :=
  let own := fun (v : BitVec 8) (b : Bool) => if b then v ||| BitVec.ofNat 8 (2 ^ s.pins.modIdStrap) else v
  let may := own (s.cpl.leads &&& s.cpl.membersSeen) s.cpl.timeLeadEn
  let best := own (s.cpl.locks &&& s.cpl.membersSeen) s.tim.locked &&& may
  let first := fun (v : BitVec 8) => (List.range 8).find? (fun i => v.getLsbD i)
  match (first best).orElse (fun _ => first may) with
  | Option.none => { s with cpl := { s.cpl with leaderValid := false } }
  | some m =>
    if s.cpl.leaderValid && decide (s.cpl.leader = m) then s
    else
      let t : State := { s with cpl := { s.cpl with leaderValid := true, leader := m,
                                                    hops := if m = s.pins.modIdStrap then 0 else s.cpl.hops } }
      t.event 0x0E08 1 srcCoupler 0 [s.cpl.leader, m]

/-- This module's own say in the choice has changed from `may` and `locked`: it tells the others and chooses again. -/
def leadChanged (s : State) (may locked : Bool) : State :=
  if s.part.coupler && (decide (s.cpl.timeLeadEn ≠ may) || decide (s.tim.locked ≠ locked)) then
    (s.emit (.timeStatus s.cpl.timeLeadEn s.tim.locked)).chooseLeader
  else s

/-- No command in flight uses the key that is being erased any more: the operation is done (R556, R558). -/
def settleKey (s : State) : State :=
  match s.sec.keyErasing with
  | Option.none => s
  | some (slot, k) =>
    let uses := fun (c key : Nat) => decide (key = k) && decide ((s.carriage c).keySlot = slot)
    let job := fun (j : CodecJob) => match j.work with
      | .append _ _ _ _ c _ _ _ key => uses c key
      | _ => false
    if s.car.flights.any (fun v => v.peer.isNone && uses v.carriage v.key) || s.fcd.jobs.any job then s
    else { s with sec := { s.sec with keyErasing := Option.none, keyDone := true, keyStatus := 0
                                      keyData := List.replicate 9 0 } }

end State

/-! ### Completions (R431, R596) -/

/-- Do Not Retry of a status: R431 for the vendor codes, R596 for the others. -/
def Status.dnr : Status → Bool
  | .success | .namespaceNotReady | .sequenceError | .sanitizeInProgress | .tooManyActive | .writeProtected
  | .accessDenied | .dataTransferError => false
  | .vendor c => decide (c ≠ 0x83 ∧ c ≠ 0x85)
  | .invalidOpcode | .invalidField | .internalError | .abortRequested | .capacityExceeded | .invalidNamespace
  | .invalidQueue | .invalidLogPage | .sanitizeFailed | .zoneBoundary | .zoneFull | .zoneReadOnly | .zoneOffline | .zoneInvalidWrite
  | .invalidTransition | .unrecoveredRead | .guardCheck | .appTagCheck | .refTagCheck | .compareFailure
  | .lbaOutOfRange | .completionQueueInvalid | .invalidQueueSize | .asyncLimit | .invalidQueueDeletion => true

/-- (Status Code Type × 256) + Status Code, as ZCTL returns it (R298). The standard codes are those of the NVMe
specifications. PRESUMED (log 21). -/
def Status.code : Status → Nat
  | .success => 0x000 | .invalidOpcode => 0x001 | .invalidField => 0x002 | .dataTransferError => 0x004
  | .internalError => 0x006 | .abortRequested => 0x007 | .invalidNamespace => 0x00B | .sequenceError => 0x00C
  | .sanitizeFailed => 0x01C | .sanitizeInProgress => 0x01D | .writeProtected => 0x020 | .lbaOutOfRange => 0x080 | .capacityExceeded => 0x081
  | .namespaceNotReady => 0x082
  | .completionQueueInvalid => 0x100 | .invalidQueue => 0x101 | .invalidQueueSize => 0x102 | .asyncLimit => 0x105
  | .invalidLogPage => 0x109 | .invalidQueueDeletion => 0x10C
  | .zoneBoundary => 0x1B8 | .zoneFull => 0x1B9 | .zoneReadOnly => 0x1BA | .zoneOffline => 0x1BB
  | .zoneInvalidWrite => 0x1BC | .tooManyActive => 0x1BD | .invalidTransition => 0x1BF
  | .unrecoveredRead => 0x281 | .guardCheck => 0x282 | .appTagCheck => 0x283 | .refTagCheck => 0x284
  | .compareFailure => 0x285 | .accessDenied => 0x286
  | .vendor c => 0x700 + c

/-- The controller a command came through: the steward controller of its port, or its compartment's (R414). -/
def ctlOf (h : HostCmd) : Nat := if h.comp = 0 then h.port else 1 + h.comp

namespace State

/-- The queue `qid` of a controller. -/
def queue (s : State) (ctl qid : Nat) (sq : Bool) : Option Queue :=
  s.hif.queues.find? (fun q => decide (q.ctl = ctl) && decide (q.qid = qid) && (q.sq == sq))

/-- MSI-X vector of the completion queue a command completes to (R355, R416). -/
def cqVector (s : State) (h : HostCmd) : Nat :=
  let v := match s.queue (ctlOf h) h.qid true with
    | some q => match s.queue (ctlOf h) q.cq false with
      | some c => c.vector
      | Option.none => 0
    | Option.none => 0
  8 * h.comp + v

/-- The completion queue that a command completes to raises interrupts: an admin queue always does (R355, R367). -/
def cqIen (s : State) (h : HostCmd) : Bool :=
  match s.queue (ctlOf h) h.qid true with
  | some q => match s.queue (ctlOf h) q.cq false with
    | some c => c.ien
    | Option.none => true
  | Option.none => true

/-- Rewrites the queues that `f` names. -/
def modQueues (s : State) (f : Queue → Bool) (g : Queue → Queue) : State :=
  { s with hif := { s.hif with queues := s.hif.queues.map (fun q => if f q then g q else q) } }

/-- The completion queue of the submission queue a command came from. -/
def cqOf (s : State) (h : HostCmd) : Nat :=
  match s.queue (ctlOf h) h.qid true with
  | some q => q.cq
  | Option.none => h.qid

/-- PASID of the completion queue of a command (R345, R346). -/
def cqPasid (s : State) (h : HostCmd) : Option Nat := (s.queue (ctlOf h) (s.cqOf h) false).bind (fun q => q.pasid)

/-- The completion queue takes one entry: its tail moves on, and its phase turns at the wrap (R367). -/
def cqPush (s : State) (h : HostCmd) : State :=
  s.modQueues (fun q => decide (q.ctl = ctlOf h) && decide (q.qid = s.cqOf h) && !q.sq) (fun q =>
    if q.tail + 1 < q.size then { q with tail := q.tail + 1 } else { q with tail := 0, phase := !q.phase })

/-- Adds an entry to the Error Information log of the controller a command came through: 64 entries (R419). -/
def logError (s : State) (h : HostCmd) (e : ErrRec) : State :=
  if h.comp = 0 then
    let p := s.port h.port
    s.setPort h.port { p with errors := (e :: p.errors).take 64 }
  else { s with hif := { s.hif with compErrors := upd [] s.hif.compErrors h.comp (fun l => (e :: l).take 64) } }

/-- Adds an entry for a program refused to a hardware issuer to the steward controllers' logs (R149). -/
def logProgram (s : State) (die block page status : Nat) : State :=
  let add := fun (p : Port) => { p with errors := (.program die block page status :: p.errors).take 64 }
  { s with hif := { s.hif with port0 := add s.hif.port0, port1 := add s.hif.port1 } }

/-- Posts the completion of a host command: the entry, its interrupt, and an Error Information entry where the status
is not success (R419, R431). -/
def complete (s : State) (h : HostCmd) (st : Status) (dw0 dw1 : BitVec 32) : State :=
  let c : Cqe := { cmd := h, status := st, dnr := st.dnr, dw0 := dw0, dw1 := dw1, pasid := s.cqPasid h }
  let s0 := ((s.startClock 1).cqPush h).emit (.cqe c)
  let s1 := if s.cqIen h then s0.interrupt h.port (s.cqVector h) else s0
  if st = .success then s1
  else
    s1.logError h (.command c)

/-- Completes with a status and zero dwords. -/
def fail (s : State) (h : HostCmd) (st : Status) : State := s.complete h st 0 0

/-- Completes with success. -/
def done (s : State) (h : HostCmd) (dw0 : BitVec 32) : State := s.complete h .success dw0 0

/-- Reports a standard event on one steward controller: on an outstanding request, else at the next one (R417, R433). -/
def portAsync (s : State) (p bit type info page : Nat) : State :=
  let v := s.port p
  if v.en && v.feat.asyncCfg.getLsbD bit then
    match v.aers with
    | h :: r => (s.setPort p { v with aers := r }).done h (BitVec.ofNat 32 (page * 65536 + info * 256 + type))
    | [] => if v.asyncEvents.contains (type, info, page) then s
            else s.setPort p { v with asyncEvents := v.asyncEvents ++ [(type, info, page)] }
  else s

/-- Reports a standard event on the controller of a compartment (R357, R433). -/
def compAsync (s : State) (c bit type info page : Nat) : State :=
  match look Option.none s.hif.compFeat c with
  | Option.none => s
  | some f =>
    if f.asyncCfg.getLsbD bit then
      match s.hif.compAers.find? (fun x => decide (x.1 = c)) with
      | some x => ({ s with hif := { s.hif with compAers := s.hif.compAers.erase x } }).done x.2
          (BitVec.ofNat 32 (page * 65536 + info * 256 + type))
      | Option.none => if s.hif.compEvents.contains (c, type, info, page) then s
          else { s with hif := { s.hif with compEvents := s.hif.compEvents ++ [(c, type, info, page)] } }
    else s

/-- Reports a critical warning on every controller (R357, R502): event type 1, the SMART / Health log (log 24). -/
def warning (s : State) (bit info : Nat) : State :=
  s.hif.compFeat.foldl (fun t e => t.compAsync e.1 bit 1 info 2) ((s.portAsync 0 bit 1 info 2).portAsync 1 bit 1 info 2)

/-- Posts a final status and result to ticket `n` of a context: to its table, to the mirror of its last commit and to the
results kept for an interval that is run again (R293, R330). Scratch bytes land with the completion (R299). -/
def posted (k : KCtx) (n : Nat) (t : Ticket) : KCtx :=
  let f := fun (x : Ticket) => if x.num = n ∧ x.done = Option.none then { t with num := n } else x
  let here := k.tickets.any (fun x => decide (x.num = n) && decide (x.done = Option.none))
  { k with tickets := k.tickets.map f, kept := k.kept.map f, saved := { k.saved with tickets := k.saved.tickets.map f }
           scratch := if here then t.scratch.foldl (fun m e => put 0 m e.1 e.2) k.scratch else k.scratch }

/-- Posts the completion of a ticket to the context that runs instance `i`; it is discarded where the reel has stopped
(R293, R326). -/
def postTicket (s : State) (i n : Nat) (t : Ticket) : State :=
  match s.kinst i with
  | Option.none => s
  | some x => match s.kctx x.ctx with
    | Option.none => s
    | some k => s.setKctx x.ctx (some (posted k n t))

/-- A completion with a status and a result. -/
def answer (status : Nat) (result : Word) : Ticket :=
  { num := 0, done := some (status, result), dmaFault := Option.none, scratch := [] }

/-- Completes the operations that `f` names with one status. -/
def answerOps (s : State) (f : UnitOp → Bool) (status : Nat) : State :=
  (s.kry.ops.filter (fun o => f o.op)).foldl (fun (t : State) (o : KOp) => t.postTicket o.inst o.ticket (answer status 0))
    { s with kry := { s.kry with ops := s.kry.ops.filter (fun o => !f o.op) } }

/-- The operation under way for a ticket of an instance. -/
def opOf (s : State) (i n : Nat) : Option UnitOp :=
  (s.kry.ops.find? (fun o => decide (o.inst = i) && decide (o.ticket = n))).map (fun o => o.op)

/-- Ends the operation under way for a ticket and posts its completion. -/
def settleOp (s : State) (i n : Nat) (t : Ticket) : State :=
  ({ s with kry := { s.kry with ops := s.kry.ops.filter (fun o => !(decide (o.inst = i) && decide (o.ticket = n))) } }).postTicket i n t

/-- Activity: Idle ends and the idle timer starts again (R474). -/
def activity (s : State) : State :=
  { s with pwr := { s.pwr with pstate := if s.pwr.pstate = .idle then .run else s.pwr.pstate, lastActivity := s.now } }

/-- Counts one more draw of a free value. -/
def draw (s : State) : State := { s with free := s.free + 1 }

end State

/-! ### Outcomes -/

/-- The outcome of a command. -/
abbrev Out := Host.Outcome State Fault Refusal

/-- The event named cannot arise in this state (log 4). -/
def cannot (name : String) : Out := .refused (.cannotArise name)

/-- `s` where `b` holds; otherwise the event named cannot arise (log 4). -/
def arises (b : Bool) (name : String) (s : State) : Out := if b then .next s else cannot name

/-! ### Time that passes while no command waits (R492, R494, log 2) -/

/-- One nanosecond of the oscillator: the count moves by one, or by none or two where the slew of R494, one nanosecond
in 5,000, takes one off or puts one on. -/
def TimeBase.tick (t : TimeBase) : TimeBase :=
  if t.running && decide (t.now < State.maxNow) then
    if t.slew = 0 then { t with now := t.now + 1, slewPhase := 0 }
    else if t.slewPhase < 4999 then { t with now := t.now + 1, slewPhase := t.slewPhase + 1 }
    else if 0 < t.slew then { t with slew := t.slew - 1, slewPhase := 0 }
    else { t with now := min State.maxNow (t.now + 2), slew := t.slew + 1, slewPhase := 0 }
  else t

/-- What an empty queue does (log 2). -/
def State.tick (s : State) : State := { s with tim := s.tim.tick }

end Sys2Proof.Machine
end

