-- ==== Sys2Proof/Machine/Records.lean ====
section
/-! DEFINITION. The pages of flash: where the table of bytes holds the data and the record of each, the fields of a record
and its check, the spare, and the write sequence (R140, R141, R202 to R205). -/

namespace Sys2Proof.Machine

/-! ### Addresses (R140, R204) -/

/-- Byte of a block's data page, and of its page record, in the table of bytes. -/
def pageByte (d b p : Nat) : Nat := (d * 8192 + b) * 2 ^ 27 + p * 16384
def recordByte (d b p : Nat) : Nat := (d * 8192 + b) * 2 ^ 27 + 6144 * 16384 + p * 32

/-- The 37-bit physical address of a page (R204). -/
def pageAddress (d b p : Nat) : Nat := d * 2 ^ 26 + b * 2 ^ 13 + p

/-! ### Where the reel store lies (R315, R599) -/

/-- Die of replica `r` of the reel store (R315). -/
def replicaDie (r : Nat) : Nat := if r = 0 then 64 else if r = 1 then 85 else if r = 2 then 106 else 127

namespace State

/-- Block of version `v` of store block `i` on replica `r`: one of the factory pair, or its replacement (R599). -/
def pairBlock (s : State) (r i v : Nat) : Nat :=
  match look 0 s.kry.moved ((r * 2 + v) * 16 + i) with
  | 0 => 8 + 2 * i + v
  | n + 1 => n

/-- Replica, store block and version that a flash block holds (R315, R599). -/
def storePlace (s : State) (d b : Nat) : Option (Nat × Nat × Nat) :=
  match (List.range 4).find? (fun r => decide (replicaDie r = d)) with
  | some r => ((List.range 32).find? (fun k => decide (s.pairBlock r (k / 2) (k % 2) = b))).map (fun k => (r, k / 2, k % 2))
  | Option.none => Option.none

end State

/-! ### Records (R202, R204) -/

/-- The CRC-16 of a page record (R204): polynomial 0x1021, initial value 0xFFFF, most significant bit first. -/
def crcRecord (bs : List Byte) : Nat :=
  let bit := fun (c : BitVec 16) => if c.msb then (c <<< (1 : Nat)) ^^^ 0x1021#16 else c <<< (1 : Nat)
  (bs.foldl (fun (c : BitVec 16) (b : Byte) => times bit 8 (c ^^^ ((b.setWidth 16 : BitVec 16) <<< (8 : Nat)))) 0xFFFF#16).toNat

/-- The record's `check` matches the page it is read from (R204). -/
def recordChecks (r : List Byte) (d b p : Nat) : Bool :=
  decide (leNat (r.drop 30) = crcRecord (r.take 30 ++ leBytes 5 (pageAddress d b p)))

/-- The fields of a page record that are known before the page is programmed (R202). -/
structure PageRecord where
  parity : Bool
  filler : Bool
  cw : Nat
  seq : Nat
  time : Nat
  space : Nat
  landing : Bool
  direct : Bool
  zone : Nat
  lpage : Nat
  comp : Nat
  place : Nat
deriving DecidableEq, Repr

/-- The record of a page of the system space: object, page within it, parity, and write sequence. -/
def systemRecord (object lpage : Nat) (parity : Bool) (seq time : Nat) : PageRecord :=
  { parity := parity, filler := false, cw := 15, seq := seq, time := time, space := 3, landing := false, direct := false
    zone := object, lpage := lpage, comp := 0, place := 0 }

/-- Field of a number: `w` bits from bit `lo`. -/
def fieldOf (n lo w v : Nat) : Nat := n - bits n lo w * 2 ^ lo + v % 2 ^ w * 2 ^ lo

/-- The record's 256 bits, without what is settled as the page is programmed: `hdr`, `flushed`, `temp`, `reloc_gen` and
`check`. -/
def PageRecord.number (r : PageRecord) : Nat :=
  let flag := fun (b : Bool) (i : Nat) => if b then 2 ^ i else 0
  flag r.parity 1 + flag r.filler 2 + r.cw % 16 * 2 ^ 4 + r.seq % 2 ^ 56 * 2 ^ 8 + r.time % 2 ^ 64 * 2 ^ 64 +
    r.space % 8 * 2 ^ 128 + flag r.landing 131 + flag r.direct 132 + r.zone % 2 ^ 24 * 2 ^ 136 + r.lpage % 2 ^ 27 * 2 ^ 160 +
    r.comp % 2 ^ 10 * 2 ^ 192 + r.place % 2 ^ 30 * 2 ^ 210

/-- Bits that are 1 in a list of bytes. -/
def onesIn (bs : List Byte) : Nat := sumBy (fun (b : Byte) => sumBy (fun i => if b.getLsbD i then 1 else 0) (List.range 8)) bs

/-- Byte-wise exclusive OR; the shorter list goes on with zeroes. -/
def xorBytes : List Byte → List Byte → List Byte
  | [], bs => bs
  | as, [] => as
  | a :: as, b :: bs => (a ^^^ b) :: xorBytes as bs

/-- Highest write sequence value. -/
def State.seqMax : Nat := 2 ^ 56 - 1

namespace State

/-! ### Bytes of a page (R141, R204, R299) -/

/-- The data and the record of a page. -/
def pageData (s : State) (d b p : Nat) : List Byte := readBytes s.fls.cells (pageByte d b p) 16384
def pageRecord (s : State) (d b p : Nat) : List Byte := readBytes s.fls.cells (recordByte d b p) 32

/-- The spare of a page: in each codeword the slice of its record, then the parity that the encoder computed (R141, R146,
R299, log 19). -/
def pageSpare (s : State) (d b p : Nat) : List Byte :=
  (List.range 4).flatMap (fun k =>
    let slice := ((s.pageRecord d b p).drop (8 * k)).take 8
    let code := ((s.pageData d b p).drop (4096 * k)).take 4096 ++ slice
    slice ++ (List.range 504).map (Config.ldpcByte code))

/-- The page reads as erased: it has not been programmed, or more than 99 % of its raw bits are ones (R204), which takes
more ones in its data than a spare of ones could leave out. -/
def readsErased (s : State) (d b p : Nat) : Bool :=
  let n := onesIn (s.pageData d b p)
  decide ((s.block d b).wp ≤ p) ||
    (decide (99 * 147456 < 100 * (n + 16384)) && decide (99 * 147456 < 100 * (n + onesIn (s.pageSpare d b p))))

/-- The data and the record of a page that is to be programmed. -/
def layPage (s : State) (d b p : Nat) (data : List Byte) (r : Nat) : State :=
  { s with fls := { s.fls with
      cells := writeBytes (writeBytes s.fls.cells (pageByte d b p) data) (recordByte d b p) (leBytes 32 r) } }

/-- The pages of a program unit from page `p`. -/
def layPages (s : State) (d b p : Nat) (pages : List (List Byte × PageRecord)) : State :=
  (pages.mapIdx (fun j x => (j, x))).foldl (fun t x => t.layPage d b (p + x.1) x.2.1 x.2.2.number) s

/-- What the `n` pages from `p` of one block hold goes to the pages of another. -/
def copyPages (s : State) (d b e c p n : Nat) : State :=
  (List.range n).foldl (fun (t : State) j => t.layPage e c (p + j) (s.pageData d b (p + j)) (leNat (s.pageRecord d b (p + j)))) s

/-- An erase leaves nothing in a block. -/
def eraseCells (s : State) (d b : Nat) : State :=
  { s with fls := { s.fls with cells := clearRange s.fls.cells ((d * 8192 + b) * 2 ^ 27) (2 ^ 27) } }

/-! ### The write sequence (R203) -/

/-- Takes `n` write sequence values: the first of them, and the state; the sequence stays at its last value once it is
exhausted, with event 0x0605 (R203). -/
def takeSeq (s : State) (n : Nat) : Nat × State :=
  let a := s.zns.seq + 1
  let e := min seqMax (s.zns.seq + n)
  let s1 := { s with zns := { s.zns with seq := e } }
  (a, if e = seqMax ∧ s.zns.seq < seqMax then s1.event 0x0605 4 (srcRegion 0 1) 0 [] else s1)

/-- The last record fields of a program unit of `n` pages from page `p` are settled as its program starts: `hdr`, `flushed`,
the die's temperature, the block's generation, a new sequence value in each page that takes one, and the check (R183,
R202 to R204). -/
def sealPages (s : State) (d b p n : Nat) (flush : Bool) (fresh : Nat → Bool) : State :=
  let new := (List.range n).filter fresh
  let (a, s1) := s.takeSeq new.length
  let temp := if s.part.history then look 0 s.thm.dieTemps d else 0xFF
  let k := s.block d b
  let record := fun (j : Nat) =>
    let r0 := leNat (s.pageRecord d b (p + j))
    let r1 := if fresh j then fieldOf (fieldOf r0 8 56 (min seqMax (a + new.idxOf j))) 64 64 s.now else r0
    let r2 := fieldOf (fieldOf (fieldOf r1 0 1 (if p + j = 0 then 1 else 0)) 3 1 (if flush then 1 else 0)) 202 8 temp
    let r3 := if r2.testBit 131 then r2 else fieldOf r2 215 4 k.gen
    fieldOf r3 240 16 (crcRecord (leBytes 30 r3 ++ leBytes 5 (pageAddress d b (p + j))))
  { s1 with fls := { s1.fls with
      cells := (List.range n).foldl (fun m j => writeBytes m (recordByte d b (p + j)) (leBytes 32 (record j))) s1.fls.cells } }

end State

end Sys2Proof.Machine
end

