-- ==== Sys2Proof/Machine/Media.lean ====
section
/-! DEFINITION. The operations that everything on flash shares: blocks by role, the concurrent-program cap, die queues,
starting, suspending and resuming an operation, allocation, retirement and the landing pool. -/

namespace Sys2Proof.Machine

/-! ### Times and modes (R143, R467, R504) -/

/-- A channel's settings where none is listed. -/
def Channel.none : Channel := { lost := false, starveLimit := 0x0100, dieSel := 0 }

/-- Nominal time in ns (R143). -/
def nominalNs (k : DieOpKind) (qlc : Bool) : Nat :=
  match k with
  | .read => if qlc then 60000 else 22000
  | .progSlc => 180000
  | .progQlc => 17476000
  | .eraseSlc => 6000000
  | .eraseQlc => 12000000

/-- A program or an erase, which holds a slot of the cap (R145). -/
def isProgErase (k : DieOpKind) : Bool :=
  match k with
  | .read => false
  | .progSlc | .progQlc | .eraseSlc | .eraseQlc => true

/-- A program. -/
def isProgram (k : DieOpKind) : Bool :=
  match k with
  | .progSlc | .progQlc => true
  | .read | .eraseSlc | .eraseQlc => false

/-- An erase. -/
def isErase (k : DieOpKind) : Bool :=
  match k with
  | .eraseSlc | .eraseQlc => true
  | .read | .progSlc | .progQlc => false

/-- Plane in which block `b` of a die lies (R139): the pages of one member block lie in one plane, so a QLC read
operation of one member senses one page. -/
def planeOf (b : Nat) : Nat := b % 4

/-- Pages of a block in its mode (R139). -/
def pagesOf (qlc : Bool) : Nat := if qlc then 6144 else 1536

/-- Pages of one program unit (R139). -/
def unitPages (qlc : Bool) : Nat := if qlc then 64 else 4

/-- Row of the ladder of a mode (R504). -/
def Mode.row : Mode → Nat
  | .galop => 0 | .waltz => 1 | .minuet => 2

/-- `PWR_MODE` code of a mode (R470). -/
def Mode.code : Mode → Nat
  | .galop => 0 | .waltz => 1 | .minuet => 2

/-- Mode of a code; 3 and above are taken as Minuet by none of the callers. -/
def Mode.ofCode : Nat → Mode
  | 0 => .galop | 1 => .waltz | _ => .minuet

/-- Input-power cap of a row in W (R504). -/
def rowWatts : Nat → Nat
  | 0 => 220 | 1 => 130 | 2 => 70 | 3 => 50 | _ => 40

/-- Dies programming or erasing at once in a row (R504). -/
def rowProg : Nat → Nat
  | 0 => 640 | 1 => 384 | 2 => 128 | 3 => 64 | _ => 32

/-- Read-around fraction of a row in percent (R504). -/
def rowRa : Nat → Nat
  | 0 => 12 | 1 => 8 | 2 => 4 | 3 => 2 | _ => 0

/-- Codec lanes in use in a mode (R467). -/
def Mode.lanes : Mode → Nat
  | .galop => 8 | .waltz => 4 | .minuet => 2

namespace State

/-! ### Blocks by role (R142, R173, R599) -/

/-- The blocks of a die that differ from the factory. -/
def dieBlocks (s : State) (d : Nat) : List (Nat × Block) :=
  s.fls.blocks.filterMap (fun e => if e.1 / 8192 = d then some (e.1 % 8192, e.2) else none)

/-- First index and number of the blocks of a role on a die as the module leaves the factory (R599). -/
def factoryRange : Role → Nat × Nat
  | .system => (0, 90) | .landing => (90, 230) | .spare => (320, 280) | .zone => (600, 5000)

/-- Blocks of a role on a die that satisfy `f`, which holds of the untouched ones: none on a lost die, whose blocks all
count as failed (R193). -/
def roleWhere (s : State) (d : Nat) (r : Role) (f : Block → Bool) : Nat :=
  if (s.die d).lost then 0
  else
    let l := s.dieBlocks d
    (factoryRange r).2 - (l.filter (fun e => decide (factoryRole e.1 = r))).length
      + (l.filter (fun e => decide (e.2.role = r) && f e.2)).length

/-- Erased and free blocks of a role on a die. -/
def freeBlocks (s : State) (d : Nat) (r : Role) : Nat := s.roleWhere d r (fun b => decide (b.use = .free))

/-- Blocks in a role on a die (R155). -/
def roleBlocks (s : State) (d : Nat) (r : Role) : Nat := s.roleWhere d r (fun b => decide (b.use ≠ .retired))

/-- Spare blocks of a die: 0 on a lost die (R193). -/
def spares (s : State) (d : Nat) : Nat := s.freeBlocks d .spare

/-- The lowest index of the role's factory range that was never touched. -/
def firstUntouched (s : State) (d : Nat) (r : Role) : Option Nat :=
  let l := s.dieBlocks d
  ((List.range (factoryRange r).2).map (· + (factoryRange r).1)).find? (fun b => l.all (fun e => decide (e.1 ≠ b)))

/-- The better of two candidates (wear, index): lower wear, then lower index (R173). -/
def lowerWear (a b : Nat × Nat) : Nat × Nat := if b.1 < a.1 ∨ (b.1 = a.1 ∧ b.2 < a.2) then b else a

/-- The lowest-wear free block of a role on a die (R173). -/
def bestFree (s : State) (d : Nat) (r : Role) : Option Nat :=
  if (s.die d).lost then Option.none
  else
  let cs := ((s.dieBlocks d).filter (fun e => decide (e.2.role = r) && decide (e.2.use = .free))).map
    (fun e => (e.2.wear, e.1))
  let cs := match s.firstUntouched d r with
    | some b => ((freshBlock s.fls.fullErases b).wear, b) :: cs
    | Option.none => cs
  match cs with
  | [] => Option.none
  | c :: r' => some (r'.foldl lowerWear c).2

/-- The highest-wear free zone block of a die (R175). -/
def worstFree (s : State) (d : Nat) : Option (Nat × Nat) :=
  let cs := ((s.dieBlocks d).filter (fun e => decide (e.2.role = .zone) && decide (e.2.use = .free))).map
    (fun e => (e.2.wear, e.1))
  cs.foldl (fun acc c => match acc with
    | Option.none => some c
    | some a => if a.1 < c.1 then some c else some a) Option.none

/-- The 16 dies of a stripe group (R42). -/
def groupDies (g : Nat) : List Nat := (List.range 16).map (memberDie g)

/-- The least spare count among the dies of a stripe group (R86). -/
def spareMin (s : State) (g : Nat) : Nat := ((groupDies g).map s.spares).foldl min 280

/-- Raises 0x0301 or 0x0302 where the lowest spare count of the group of die `d` has fallen below 28 or to 0
(R65, R77). -/
def spareEvents (s : State) (d before : Nat) : State :=
  let g := d / 64 * 4 + d % 4
  let after := s.spareMin g
  let s1 := if 28 ≤ before ∧ after < 28 then
      (s.event 0x0301 2 (srcRegion (g % 2) 1) 0 [g, after]).warning 0 2 else s
  if 0 < before ∧ after = 0 then s1.event 0x0302 3 (srcRegion (g % 2) 1) 0 [g] else s1

/-- Runs a change of die `d`'s spares and raises what it calls for. -/
def withSpares (s : State) (d : Nat) (f : State → State) : State :=
  (f s).spareEvents d (s.spareMin (d / 64 * 4 + d % 4))

/-! ### The concurrent-program cap (R30, R145, R504) -/

/-- Region that owns the cluster of a die (R52): 0 A, 1 B. -/
def dieRegion (s : State) (d : Nat) : Nat := if s.lvl.clusterOwner.getLsbD (dieCluster d) then 1 else 0

/-- Slots that draw on a region's share. -/
def slotsHeld (s : State) (region : Nat) : Nat :=
  (s.fls.dies.filter (fun e => match e.2.op with
    | some o => o.slot && decide (o.region = region)
    | Option.none => false)).length

/-- The region's share of the cap, as the power manager apportioned it. -/
def progShare (s : State) (region : Nat) : Nat :=
  if region = 0 then s.lvl.budgetA.shareProg else s.lvl.budgetB.shareProg

/-- Background work: fold, relocation and conventional copy programs, deferred erases and the promenade (R474). -/
def isBackground (p : Purpose) : Bool :=
  match p with
  | .fold _ _ _ | .reloc _ | .erase _ | .patrol | .conventional _ _ => true
  | _ => false

/-- The part of a region's share that it may admit programs within: a power cap that fell during the window cuts it at once in
the proportion of the caps (R31, R504; log 162). -/
def progLimit (s : State) (region : Nat) : Nat :=
  if s.lvl.rowPower ≤ s.lvl.rowInForce then s.progShare region
  else s.progShare region * rowWatts s.lvl.rowPower / rowWatts s.lvl.rowInForce

/-- The clusters whose primary is a region, but for those lost as a whole (R26). -/
def regionClusters (s : State) (region : Nat) : List Nat :=
  (List.range 16).filter (fun k => decide ((if s.lvl.clusterOwner.getLsbD k then 1 else 0) = region) &&
    !s.lvl.clusterLost.getLsbD k)

/-- The slots that a region apportions to one of its clusters: equal parts, the remainder one each from the lowest-numbered
cluster on (R30, R145; log 162). -/
def clusterSlots (s : State) (k : Nat) : Nat :=
  let r := if s.lvl.clusterOwner.getLsbD k then 1 else 0
  let ks := s.regionClusters r
  s.progLimit r / ks.length + (if (ks.filter (fun j => decide (j < k))).length < s.progLimit r % ks.length then 1 else 0)

/-- Slots of the owning region's share that operations of a cluster hold. -/
def clusterHeld (s : State) (k : Nat) : Nat :=
  (s.fls.dies.filter (fun e => decide (dieCluster e.1 = k) && (match e.2.op with
    | some o => o.slot && decide (o.region = s.dieRegion e.1)
    | Option.none => false))).length

/-- The module flushes staged data on a power loss. -/
def inFlush (s : State) : Bool :=
  match s.pwr.pstate with
  | .flushing _ => true
  | _ => false

/-- Flash may not be written: while a mount reads it, and until the first checkpoint after it is valid, but for system blocks
(R211). -/
def flashHeld (s : State) (d : Nat) (e : QEntry) : Bool :=
  !s.inFlush && (s.mnt.firstCkpt || decide (s.mnt.state = 1) || decide (s.mnt.state = 2) || decide (s.mnt.state = 3)) &&
    decide ((s.block d e.block).role ≠ .system)

/-- A slot of the cap is free for an entry of die `d` in its cluster's part of the region's share (R30, R145), within
`idle_prog` in Idle (R474), and flash may be written. Flush traffic is never held back. -/
def slotFree (s : State) (d : Nat) (e : QEntry) : Bool :=
  e.flush ||
    (!s.flashHeld d e && decide (s.clusterHeld (dieCluster d) < s.clusterSlots (dieCluster d)) &&
      (!decide (s.pwr.pstate = .idle) || !isBackground e.purpose ||
        decide (s.slotsHeld 0 + s.slotsHeld 1 < 64)))

/-! ### Credit (R129 to R131) -/

/-- Unspent credit of a compartment in a cluster, in µs. -/
def credit (s : State) (cluster c : Nat) : Nat := look 0 s.car.credit (cluster * 1024 + c)

/-- Charges a die operation to a compartment: never below zero (R130, R131). -/
def charge (s : State) (cluster c ns : Nat) : State :=
  let us := ns / 1000
  let s1 := { s with car := { s.car with
    credit := upd 0 s.car.credit (cluster * 1024 + c) (fun v => v - us) } }
  s1.setComp c { s1.comp c with dieTime := satAdd 0xFFFFFFFFFFFF (s1.comp c).dieTime us }

/-! ### Owners of logical pages (R130, R202) -/

/-- Logical page number of conventional page `p`. -/
def convPage (p : Nat) : Nat := 2 ^ 40 + p

/-- The placement group a stripe group belongs to. -/
def groupPgroup (s : State) (g : Nat) : Option Nat :=
  (s.zns.pgroups.find? (fun e => match e.2 with
    | some p => p.groups.contains g
    | Option.none => false)).map (·.1)

/-- Compartment that owns zone `z`. -/
def zoneComp (s : State) (z : Nat) : Nat :=
  match s.groupPgroup (z / 5000) with
  | some p => match s.pgroup p with
    | some g => g.comp
    | Option.none => 0
  | Option.none => 0

/-- The conventional namespace: its NSID and entry. -/
def convSpace (s : State) : Option (Nat × NsEntry) :=
  s.zns.spaces.findSome? (fun e => match e.2 with
    | some n => match n.kind with
      | .conventional _ => some (e.1, n)
      | .zoned _ => Option.none
    | Option.none => Option.none)

/-- Compartment that owns a logical page. -/
def pageComp (s : State) (p : Nat) : Nat :=
  if p < 2 ^ 40 then s.zoneComp (p / 92160)
  else match s.convSpace with
    | some (_, n) => n.comp
    | Option.none => 0

/-- Valid 4 KiB units of a page. -/
def cwCount (m : Nat) : Nat := m % 2 + m / 2 % 2 + m / 4 % 2 + m / 8 % 2

/-- Charges an operation on landing unit `k` of row `r` to the compartments in it, by 4 KiB units; the parity unit in
the proportions of the row's data (R130). -/
def chargeUnit (s : State) (cluster r k ns : Nat) : State :=
  match look Option.none s.fls.landing r with
  | Option.none => s
  | some row =>
    let own := match row.units[k]? with
      | some u => u.pages
      | Option.none => []
    let pages := if own.isEmpty then row.units.flatMap (·.pages) else own
    let total := sumBy (fun p => cwCount p.2) pages
    if total = 0 then s
    else pages.foldl (fun t p => t.charge cluster (t.pageComp p.1) (ns * cwCount p.2 / total)) s

/-! ### Die queues (R22, R144) -/

/-- The entry is of a command in flight at a region fault from which the survivor has not drained yet (R135). -/
def redriven (s : State) (e : QEntry) : Bool :=
  s.lvl.takeover && decide (e.admittedAt ≤ s.lvl.takeoverAt) && (match e.purpose with
    | .hostRead f _ | .around f _ | .segment f _ _ _ => decide (f < s.lvl.takeoverMark)
    | _ => false)

/-- The order of R22 on one die, all of whose entries are of one channel: flush traffic, class, what is re-driven after a takeover
(R135), more unspent credit, age; among equals the earlier in the queue. -/
def ranksBefore (s : State) (d : Nat) (a b : QEntry) : Bool :=
  if a.flush ≠ b.flush then a.flush
  else if a.cls ≠ b.cls then decide (a.cls < b.cls)
  else if s.redriven a ≠ s.redriven b then s.redriven a
  else
    let ca := s.credit (dieCluster d) a.comp
    let cb := s.credit (dieCluster d) b.comp
    if ca ≠ cb then decide (cb < ca) else decide (a.admittedAt < b.admittedAt)

/-- A program of the same block with a lower page waits too: the pages of a block are programmed in ascending order
(R148). -/
def outOfTurn (s : State) (d : Nat) (e : QEntry) : Bool :=
  isProgram e.kind && (s.die d).queue.any (fun q => isProgram q.kind && decide (q.block = e.block) && decide (q.page < e.page))

/-- First of a list under an order. -/
def firstBy {V : Type} (lt : V → V → Bool) : List V → Option V
  | [] => Option.none
  | x :: r => match firstBy lt r with
    | Option.none => some x
    | some y => if lt y x then some y else some x

/-- A program on the source of a relocation whose target has caught up waits for the commit (R188). -/
def heldBack (s : State) (d : Nat) (e : QEntry) : Bool :=
  isProgram e.kind && s.fls.relocs.any (fun r =>
    decide (r.srcDie = d) && decide (r.srcBlock = e.block) && decide (r.kind ≠ .rebuild) &&
      decide (r.copied * 64 = (s.block d e.block).wp))

/-- The head among the queued reads, and among the queued programs and erases. -/
def headRead (s : State) (d : Nat) : Option QEntry :=
  firstBy (s.ranksBefore d) ((s.die d).queue.filter (fun e => !isProgErase e.kind))

def headProg (s : State) (d : Nat) : Option QEntry :=
  firstBy (s.ranksBefore d) ((s.die d).queue.filter (fun e => isProgErase e.kind && !s.heldBack d e && !s.outOfTurn d e))

/-- What the channel engine refuses a program with, in the order of R149: 0x89 or 0x8A. -/
def refusal (s : State) (d : Nat) (e : QEntry) : Option Nat :=
  let b := s.block d e.block
  if (s.die d).lost || decide (b.use = .retired) || (match b.use with
      | .deferred _ => true
      | _ => false) then some 0x89
  else if b.qlc ≠ decide (e.kind = .progQlc) then some 0x89
  else if e.page < b.wp then some 0x89
  else if b.wp < e.page then some 0x8A
  else Option.none

/-- The write pointer of a block as it reads: the page count of a retired block, a block of a lost die, or a block in the
deferred-erase queue (R148). -/
def pointerOf (s : State) (d b : Nat) : Nat :=
  let k := s.block d b
  if (s.die d).lost || decide (k.use = .retired) || (match k.use with
      | .deferred _ => true
      | _ => false) then pagesOf k.qlc else k.wp

/-- The program of an entry is refused and never reaches the die (R149). -/
def refused (s : State) (d : Nat) (e : QEntry) : Bool := isProgram e.kind && (s.refusal d e).isSome

/-! ### The settings of a cluster, and refresh (R127, R178, R185, R186) -/

/-- Settings of a cluster. -/
def clusterOf (s : State) (k : Nat) : ClusterCfg := (s.fls.clusters[k]?).getD ClusterCfg.reset

/-- A class field whose code 3 is taken as Bulk (R169, R186). -/
def classOf (c : Nat) : Nat := min 2 c

/-- The block is the source of a relocation. -/
def moving (s : State) (d b : Nat) : Bool := s.fls.relocs.any (fun r => decide (r.srcDie = d) && decide (r.srcBlock = b))

/-- Queues a block for refresh; the request is dropped where it is being relocated or waits already (R178, R189). -/
def queueRefresh (s : State) (d b : Nat) : State :=
  let movable := match (s.block d b).use with
    | .zone _ | .conventional | .landingOpen | .landingClosed => true
    | _ => false
  if s.moving d b || s.fls.refresh.contains (d, b) || !movable then s
  else { s with fls := { s.fls with refresh := s.fls.refresh ++ [(d, b)] } }

/-- Queues a block whose read counter has reached its threshold (R178, R186). -/
def readLimit (s : State) (d b : Nat) : State :=
  let k := s.block d b
  let m := (s.clusterOf (dieCluster d)).media
  let lim := max 1 (if k.qlc then m.rcQlc else m.rcSlc) * 1024
  if lim ≤ k.reads then s.queueRefresh d b else s

/-- Counts `n` senses of a block (R177). -/
def countReads (s : State) (d b n : Nat) : State :=
  let k := s.block d b
  (s.setBlock d b { k with reads := satAdd 0xFFFFFF k.reads n }).readLimit d b

/-- Data page within the zone of page `j` of the unit that data member `k` holds of row `r` (R156, R157). -/
def dataPage (r k j : Nat) : Nat := r * 960 + (j / 4 * 15 + (if k < r % 16 then k else k - 1)) * 4 + j % 4

/-- Page `j` of a program unit takes a write sequence value as it is programmed: a page of zone parity, landing parity or
filler (R69, R203). -/
def takesSeq (s : State) (d : Nat) (p : Purpose) (j : Nat) : Bool :=
  match p with
  | .zoneRow z r k | .fold z r k => decide (k = r % 16) || (match (s.zone z).dataEnd with
      | some e => decide (e ≤ dataPage r k j * 4)
      | Option.none => false)
  | .landing n _ | .segment _ _ n _ => decide (dieCluster d = n % 16)
  | .conventional n k => decide (k = n % 16)
  | _ => false

/-- The module writes the page records of the program; a reel supplies those of its own (R299). -/
def sealsPages (p : Purpose) : Bool :=
  match p with
  | .reel _ _ => false
  | _ => true

/-- Records a sense or a program on its block (R148, R177, R178, R180, R202). -/
def noteStart (s : State) (d : Nat) (e : QEntry) : State :=
  let b := s.block d e.block
  match e.kind with
  | .read => s.countReads d e.block 1
  | .progSlc | .progQlc =>
    let t := s.setBlock d e.block { b with
      wp := min (pagesOf b.qlc) (b.wp + unitPages b.qlc)
      first := if b.wp = 0 then s.now else b.first
      last := s.now
      temps := b.temps + look 0 s.thm.dieTemps d }
    if sealsPages e.purpose then
      t.sealPages d e.block e.page (unitPages (decide (e.kind = .progQlc))) e.flush (s.takesSeq d e.purpose)
    else t
  | .eraseSlc | .eraseQlc => s

/-- Die-time spent on reads in a cluster in this window (R125). -/
def addReadUs (s : State) (cluster us : Nat) : State :=
  { s with car := { s.car with ra := modAt s.car.ra cluster (fun r => { r with readUs := r.readUs + us }) } }

/-- Reads that have passed the head once another read of die `d` starts (R144): only a head that can have its slot counts
them. -/
def passedNext (s : State) (d : Nat) : Nat :=
  match s.headProg d with
  | some p => if s.slotFree d p then (s.die d).passed + 1 else (s.die d).passed
  | Option.none => 0

/-- Starts an entry on a free die (R145, R130). -/
def startEntry (s : State) (d : Nat) (e : QEntry) : State :=
  let ns := nominalNs e.kind (s.block d e.block).qlc
  let op : DieOp := { entry := e, issuedAt := s.now, leftNs := ns, sinceAt := s.now, suspended := false,
                      slot := isProgErase e.kind, suspends := 0, served := 0, posted := false,
                      region := s.dieRegion d }
  let v := s.die d
  let s1 := (s.startClock (80 + dieCluster d)).setDie d { v with
    op := some op
    queue := v.queue.erase e
    passed := if isProgErase e.kind then 0 else s.passedNext d }
  let s2 := s1.noteStart d e
  let s3 := if e.flush then s2 else match e.purpose with
    | .landing r k => s2.chargeUnit (dieCluster d) r k ns
    | .segment _ _ r k => s2.chargeUnit (dieCluster d) r k ns
    | _ => s2.charge (dieCluster d) e.comp ns
  if isProgErase e.kind then s3 else s3.addReadUs (dieCluster d) (ns / 1000)

/-- Marks the waiting programs of a die as waiting for a slot. -/
def markCapWait (s : State) (d : Nat) (e : QEntry) : State :=
  let v := s.die d
  s.setDie d { v with queue := v.queue.map (fun q => if q = e then { q with capWait := true } else q) }

/-- The entry that a free die takes next: a read ahead of a program or erase, but for one that has been passed over by
four reads; a program or erase only with a slot (R144, R145). -/
def chooseNext (s : State) (d : Nat) : Option QEntry :=
  match s.headRead d, s.headProg d with
  | some r, some p => if decide (4 ≤ (s.die d).passed) && s.slotFree d p then some p else some r
  | some r, Option.none => some r
  | Option.none, some p => if s.slotFree d p then some p else Option.none
  | Option.none, Option.none => Option.none

/-- The channel engine refuses a program: it leaves the die queue and never reaches the die, and its issuer is to be told
(R149). -/
def refuseEntry (s : State) (d : Nat) (e : QEntry) : State :=
  let s1 := s.setDie d { s.die d with queue := (s.die d).queue.erase e }
  { s1 with fls := { s1.fls with refusals := s1.fls.refusals ++ [(d, e)] } }

/-- A free die takes its next entry, behind at most `n` programs that are refused. -/
def takeNext : Nat → State → Nat → State
  | 0, s, _ => s
  | n + 1, s, d =>
    match s.chooseNext d with
    | some e => if s.refused d e then takeNext n (s.refuseEntry d e) d else s.startEntry d e
    | Option.none => match s.headProg d with
      | some p => s.markCapWait d p
      | Option.none => s

/-- A free die takes its next queued entry (R144, R145, R149). -/
def dieNext (s : State) (d : Nat) : State :=
  if (s.die d).lost || (s.die d).op.isSome then s else takeNext ((s.die d).queue.length + 1) s d

/-- Puts an entry into a die queue; a free die starts its next entry at once. -/
def enqueue (s : State) (d : Nat) (e : QEntry) : State :=
  let v := s.die d
  ((s.setDie d { v with queue := v.queue ++ [e] }).startClock (16 + dieChannel d)).dieNext d

/-- Takes the entries that `f` names out of every die queue. -/
def unqueue (s : State) (f : QEntry → Bool) : State :=
  { s with fls := { s.fls with dies := (s.fls.dies.map (fun e =>
      (e.1, { e.2 with queue := e.2.queue.filter (fun q => !f q) }))).filter (fun e => decide (e.2 ≠ Die.idle)) } }

/-! ### Suspend and resume (R126, R143, R151 to R153) -/

/-- Operation type of a starved-operation event (R152). -/
def opTypeCode : DieOpKind → Nat
  | .progQlc => 0 | .progSlc => 1 | .eraseQlc => 2 | .eraseSlc => 3 | .read => 4

/-- Settings of a channel. -/
def channel (s : State) (c : Nat) : Channel := (s.fls.channels[c]?).getD Channel.none

/-- Suspends the program or erase of a die, counts it, and posts the starved-operation event where the count reaches
`starve_limit`, once for an operation (R151, R152). -/
def suspend (s : State) (d : Nat) : State :=
  let v := s.die d
  match v.op with
  | Option.none => s
  | some o =>
    if o.suspended || !isProgErase o.entry.kind then s
    else
      let n := o.suspends + 1
      let lim := (s.channel (dieChannel d)).starveLimit
      let hit := decide (lim ≠ 0) && decide (n = lim)
      let s1 := s.setDie d { v with
        op := some { o with suspended := true, suspends := n, served := 0, posted := o.posted || hit,
                            leftNs := o.leftNs - (s.now - o.sinceAt), sinceAt := s.now }
        starved := v.starved || hit }
      if hit && !o.posted then
        s1.event 0x0500 2 (src 1 (dieChannel d)) o.entry.comp
          [d, o.entry.block, opTypeCode o.entry.kind, o.issuedAt, n]
      else s1

/-- Resumes a suspended operation: 20 µs are added to its remaining time (R143). -/
def resume (s : State) (d : Nat) : State :=
  let v := s.die d
  match v.op with
  | Option.none => s
  | some o =>
    if !o.suspended then s
    else s.setDie d { v with op := some { o with suspended := false, leftNs := o.leftNs + 20000, sinceAt := s.now } }

/-- Ends the operation of a die: its slot, its count and its starved mark go, and the die takes its next entry. -/
def endOp (s : State) (d : Nat) : State :=
  let v := s.die d
  (s.setDie d { v with op := Option.none, starved := false }).dieNext d

/-- Predicted wait of a read of class `cls` at a die, in µs (R121). DESIGN CHOICE (log 146): the remaining time is taken in
whole µs, rounded down. -/
def predictWait (s : State) (d cls : Nat) : Nat :=
  let v := s.die d
  let left := match v.op with
    | some o => if o.suspended then o.leftNs else o.leftNs - (s.now - o.sinceAt)
    | Option.none => 0
  left / 1000 + 65 * (v.queue.filter (fun e => !isProgErase e.kind && decide (e.cls ≤ cls))).length

/-- The die holds a program or an erase. -/
def busyProgErase (s : State) (d : Nat) : Bool :=
  match (s.die d).op with
  | some o => isProgErase o.entry.kind
  | Option.none => false

/-! ### Retirement and deferred erase (R148, R171, R192) -/

/-- Code of a role in table 1 (R295). -/
def roleCode : Role → Nat
  | .zone => 0 | .landing => 1 | .spare => 2 | .system => 3

/-- Puts a block at the end of its die's deferred-erase queue, for the role it is to have next. -/
def deferErase (s : State) (d b : Nat) (next : Role) : State :=
  let v := s.die d
  if v.lost || decide ((s.block d b).use = .retired) || v.eraseQueue.contains b then s
  else (s.setBlock d b { s.block d b with use := .deferred next }).setDie d { v with eraseQueue := v.eraseQueue ++ [b] }

/-- Takes the lowest-wear spare of a die for `role` and `use`; none where the die has no spare. -/
def takeSpare (s : State) (d : Nat) (role : Role) (use : BlockUse) : Option (Nat × State) :=
  if (s.die d).lost then Option.none
  else match s.bestFree d .spare with
    | Option.none => Option.none
    | some b => some (b, s.withSpares d (fun s => s.setBlock d b { s.block d b with role := role, use := use }))

/-- Retires a block, posts event 0x0501, and replaces it in its role where the spares allow (R192). A zone member is
replaced by the caller; a free zone block is replaced here. The replacement of a store block takes its place (R599). -/
def retire (s : State) (d b cause : Nat) : State :=
  let k := s.block d b
  if decide (k.use = .retired) then s
  else
    let v := s.die d
    let s1 := s.withSpares d (fun s => s.setBlock d b { k with use := .retired })
    let s2 := s1.setDie d { s1.die d with
      eraseQueue := v.eraseQueue.filter (fun x => decide (x ≠ b))
      landingBlock := if v.landingBlock = some b then Option.none else v.landingBlock }
    let s3 := s2.event 0x0501 2 (src 1 (dieChannel d)) 0 [d, b, roleCode k.role, cause]
    let repl := fun (u : BlockUse) => match s3.takeSpare d k.role u with
      | some (n, t) => match s.storePlace d b with
        | some (r, i, v) => { t with kry := { t.kry with moved := put 0 t.kry.moved ((r * 2 + v) * 16 + i) (n + 1) } }
        | Option.none => t
      | Option.none => s3
    match k.role with
    | .landing => if 28 ≤ s3.spares d then repl .free else s3
    | .system => if b < 8 ∧ (d = 0 ∨ d = 21 ∨ d = 42 ∨ d = 63) then s3 else repl .system
    | .zone => match k.use with
      | .zone _ | .conventional | .target => s3
      | _ => repl .free
    | .spare => s3

/-! ### Landing pool (R160 to R170) -/

/-- Landing-role blocks on dies in service whose die satisfies `ok`, among `n` dies, that satisfy `f`, which holds of the
untouched ones: the blocks of a lost die count as failed (R193). -/
def landingWhere (s : State) (n : Nat) (ok : Nat → Bool) (f : Block → Bool) : Nat :=
  let here := fun (d : Nat) => ok d && !(s.die d).lost
  let lost := (s.fls.dies.filter (fun e => ok e.1 && e.2.lost)).length
  (n - lost) * 230 - (s.fls.blocks.filter (fun e => here (e.1 / 8192) && decide (factoryRole (e.1 % 8192) = .landing))).length
    + (s.fls.blocks.filter (fun e => here (e.1 / 8192) && decide (e.2.role = .landing) && f e.2)).length

/-- Landing-role blocks of the module: the landing pool. -/
def landingTotal (s : State) : Nat :=
  s.landingWhere s.part.variant.dies (fun _ => true) (fun b => decide (b.use ≠ .retired))

/-- Erased and free landing blocks of the module. -/
def landingFree (s : State) : Nat := s.landingWhere s.part.variant.dies (fun _ => true) (fun b => decide (b.use = .free))

/-- Landing blocks of the flush reserve (R168): the limit × 16 / 15 plus 2 GiB, in blocks of 24 MiB. -/
def reserveBlocks (s : State) : Nat := (s.plog.limitMib * 16 / 15 + 2048 + 23) / 24

/-- Blocks that shadow copies have taken from the reserve on dies that satisfy `ok`, and that are still to be replaced. -/
def owedBlocks (s : State) (ok : Nat → Bool) : Nat := sumBy (fun (e : Nat × Die) => if ok e.1 then e.2.owed else 0) s.fls.dies

/-- Free landing blocks outside the reserve. -/
def landingAvail (s : State) : Nat := s.landingFree - (s.reserveBlocks - s.owedBlocks (fun _ => true))

/-- Free landing blocks of a cluster outside its part of the reserve, which is spread evenly over the 16 clusters (R168).
DESIGN CHOICE (log 147): a cluster's part is rounded up to whole blocks. -/
def clusterAvail (s : State) (k : Nat) : Nat :=
  let mine := fun (d : Nat) => decide (dieCluster d = k)
  s.landingWhere (s.part.variant.dies / 16) mine (fun b => decide (b.use = .free)) -
    ((s.reserveBlocks + 15) / 16 - s.owedBlocks mine)

/-- Percentage Used (R172): the mean erase counter of the zone and landing blocks in service over 12,000, capped at 255.
DESIGN CHOICE (log 148): it is rounded down, and blocks that are retired or lie on a lost die do not count. -/
def percentUsed (s : State) : Nat :=
  let ours := fun (r : Role) => decide (r = .zone) || decide (r = .landing)
  let here := s.fls.blocks.filter (fun e => !(s.die (e.1 / 8192)).lost)
  let listed := here.filter (fun e => ours e.2.role && decide (e.2.use ≠ .retired))
  let dies := s.part.variant.dies - (s.fls.dies.filter (fun e => e.2.lost)).length
  let plain := fun (r : Role) (b : Nat) =>
    let n := dies * (factoryRange r).2 - (here.filter (fun e => decide (factoryRole (e.1 % 8192) = r))).length
    (n, n * (freshBlock s.fls.fullErases b).wear)
  let z := plain .zone 600
  let l := plain .landing 90
  let n := z.1 + l.1 + listed.length
  min 255 ((z.2 + l.2 + sumBy (fun (e : Nat × Block) => e.2.wear) listed) * 100 / (12000 * max 1 n))

/-- Occupancy in percent (R164, R168). -/
def occupancyPct (s : State) : Nat :=
  if s.landingTotal = 0 then 0 else (s.landingTotal - s.landingAvail) * 100 / s.landingTotal

/-- Landing row `r`. -/
def landRow (s : State) (r : Nat) : Option LandRow := look Option.none s.fls.landing r

/-- Writes landing row `r`. -/
def setLandRow (s : State) (r : Nat) (v : Option LandRow) : State :=
  { s with fls := { s.fls with landing := put Option.none s.fls.landing r v } }

/-- Landing units that satisfy `f`. -/
def countUnits (s : State) (f : LandUnit → Bool) : Nat :=
  sumBy (fun e => match e.2 with
    | some r => (r.units.filter f).length
    | Option.none => 0) s.fls.landing

/-- Pinned units in 64 KiB. -/
def pinnedUnits (s : State) : Nat := s.countUnits (fun u => u.pinned && u.valid)

/-- Keeps the pinned-landing warning of R167: raised above 25 % of the pool, lowered below 20 %; event 0x0303. -/
def pinCheck (s : State) : State :=
  let pool := s.landingTotal * 384
  let p := s.pinnedUnits
  if !s.fls.pinWarning && decide (pool < 4 * p) then
    ({ s with fls := { s.fls with pinWarning := true } }).event 0x0303 2 (srcRegion 0 1) 0 [p / 16384] |>.warning 2 0
  else if s.fls.pinWarning && decide (5 * p < pool) then { s with fls := { s.fls with pinWarning := false } }
  else s

/-- Dies of a cluster, by number. -/
def clusterDies (s : State) (k : Nat) : List Nat :=
  (List.range (s.part.variant.ranks * 4)).map (fun j => j / 4 * 64 + 4 * k + j % 4)

/-- The die of cluster `k`, other than those `but` names, that the landing allocator picks: not lost and not starved, fewest
queued entries, lowest index (R160). Where every die in service is starved, one of them must be used (R153). -/
def landingDieBut (s : State) (k : Nat) (but : Nat → Bool) : Option Nat :=
  let sound := (s.clusterDies k).filter (fun d => !but d && !(s.die d).lost)
  let calm := sound.filter (fun d => !(s.die d).starved)
  (if calm.isEmpty then sound else calm).foldl (fun acc d => match acc with
    | Option.none => some d
    | some a => if (s.die d).queue.length < (s.die a).queue.length then some d else some a) Option.none

/-- The landing allocator's die in cluster `k` (R160). -/
def landingDie (s : State) (k : Nat) : Option Nat := s.landingDieBut k (fun _ => false)

/-- Programs of a block already queued but not started, in pages: the next unit of the block follows them. -/
def queuedPages (s : State) (d b : Nat) : Nat :=
  sumBy (fun (e : QEntry) => if isProgram e.kind && decide (e.block = b) then unitPages (decide (e.kind = .progQlc)) else 0)
    (s.die d).queue

/-- Next page to program of a block, behind what is queued. -/
def nextPage (s : State) (d b : Nat) : Nat := (s.block d b).wp + s.queuedPages d b

/-- A program of the block waits or runs. -/
def programming (s : State) (d b : Nat) : Bool :=
  decide (0 < s.queuedPages d b) || (match (s.die d).op with
    | some o => isProgram o.entry.kind && decide (o.entry.block = b)
    | Option.none => false)

/-- Opens the lowest-wear erased landing block of a die (R160, R168): outside the reserve, or from it where `reserve` allows
it, and the reserve is then owed a block. -/
def freshLanding (s : State) (d : Nat) (reserve : Bool) : Option (Nat × State) :=
  let outside := decide (0 < s.clusterAvail (dieCluster d)) && decide ((s.die d).owed < s.freeBlocks d .landing)
  if !outside && !reserve then Option.none
  else match s.bestFree d .landing with
    | Option.none => Option.none
    | some b =>
      let v := s.die d
      some (b, (s.setBlock d b { s.block d b with use := .landingOpen }).setDie d
        { v with landingBlock := some b, owed := if outside then v.owed else v.owed + 1 })

/-- The next program unit of the die's open landing block: block and page, opening a block where there is none (R160). A
block whose last unit is taken is full, and closed. -/
def landingPlace (s : State) (d : Nat) (reserve : Bool) : Option (Nat × Nat × State) :=
  let opened := match (s.die d).landingBlock with
    | some b => some (b, s)
    | Option.none => s.freshLanding d reserve
  match opened with
  | Option.none => Option.none
  | some (b, t) =>
    let pg := t.nextPage d b
    if pg + 4 < 1536 then some (b, pg, t)
    else some (b, pg, (t.setBlock d b { t.block d b with use := .landingClosed }).setDie d
      { t.die d with landingBlock := Option.none })

end State

end Sys2Proof.Machine
end

