-- ==== Sys2Proof/Machine/PoolOps.lean ====
section
/-! DEFINITION. Pools, cell stores and the staging pool: occupancy, watermark levels, floors, and taking and giving back
an entry. -/

namespace Sys2Proof.Machine

/-- The stores that have an occupancy of their own (R374, R375). -/
inductive PoolRef where
  | staging
  | general (part pool : Nat)
  | sram (cluster pool : Nat)
deriving DecidableEq, Repr

/-- Domain of a store. -/
def poolDomain : PoolRef → Nat
  | .staging => 0 | .general _ _ => 0 | .sram _ _ => 1

/-- Domain, part and pool as event 0x0A00 names them (R383); the staging pool is one pool across both regions. -/
def poolName : PoolRef → List Int
  | .staging => [0, 0, 0] | .general p k => [0, p, k] | .sram c k => [1, c, k]

namespace State

/-- A store. -/
def pool (s : State) : PoolRef → Pool
  | .staging => s.bpm.staging
  | .general p k => (s.bpm.general[p * 8 + k]?).getD Pool.off
  | .sram c k => (s.bpm.sram[c * 8 + k]?).getD Pool.off

/-- Writes a store. -/
def setPool (s : State) (r : PoolRef) (v : Pool) : State :=
  match r with
  | .staging => { s with bpm := { s.bpm with staging := v } }
  | .general p k => { s with bpm := { s.bpm with general := modAt s.bpm.general (p * 8 + k) (fun _ => v) } }
  | .sram c k => { s with bpm := { s.bpm with sram := modAt s.bpm.sram (c * 8 + k) (fun _ => v) } }

/-- Staging segments an owner holds. -/
def ownerSegs (s : State) (o : Nat) : Nat := (s.bpm.segments.filter (fun e => decide (e.1 = o))).length

/-- Compartment of an owner; 0 where it is not registered. -/
def ownerComp (s : State) (o : Nat) : Nat :=
  match s.owner o with
  | some w => w.comp
  | Option.none => 0

/-- Staging segments the owners of a compartment hold. -/
def compSegs (s : State) (c : Nat) : Nat := (s.bpm.segments.filter (fun e => decide (s.ownerComp e.1 = c))).length

/-- Reserved floor segments that stand unused (R382, R385). -/
def unusedReserve (s : State) : Nat := sumBy (fun e => e.2.res.reserved - s.compSegs e.1) s.cmp.table

/-- Entries held for the occupancy of a store: the unused floor counts in the staging pool (R382). -/
def poolHeld (s : State) (r : PoolRef) : Nat :=
  match r with
  | .staging => s.bpm.staging.held + s.unusedReserve
  | _ => (s.pool r).held

/-- Capacity of a store: what memory errors have withdrawn is gone (R400). -/
def poolCap (s : State) (r : PoolRef) : Nat := (s.pool r).count - (s.pool r).lost

/-- Free entries, reserved floor segments excluded (R394). -/
def poolFree (s : State) (r : PoolRef) : Nat := s.poolCap r - s.poolHeld r

/-- Occupancy in percent (R382); an empty store stands at 100 %. -/
def poolPct (s : State) (r : PoolRef) : Nat :=
  if s.poolCap r = 0 then 100 else min 100 (s.poolHeld r * 100 / s.poolCap r)

/-- Watermarks of a domain. -/
def marks (s : State) (d : Nat) : Marks := if d = 0 then s.bpm.wm0 else s.bpm.wm1

/-- The thresholds in force: at most 100, and none below the one beneath it (R384). -/
def thresholds (m : Marks) : List Nat :=
  let a := min 100 m.amber
  let r := max a (min 100 m.red)
  let b := max r (min 100 m.black)
  [a, r, b]

/-- Whether level `i` is entered, given that it was or was not: entered at or above the threshold, left below the
threshold minus the hysteresis (R382). -/
def levelNow (s : State) (r : PoolRef) (thr : Nat) (was : Bool) : Bool :=
  let h := s.poolHeld r * 100
  let c := s.poolCap r
  let hy := (s.marks (poolDomain r)).hyst
  if c = 0 then true
  else if was then decide ((thr - hy) * c ≤ h) else decide (thr * c ≤ h)

/-- Posts one level change (R383): the payload's last field is the level entered, or its negative where it is left. -/
def levelEvent (s : State) (r : PoolRef) (lvl : Nat) (entered : Bool) : State :=
  s.event 0x0A00 2 (srcRegion (match r with | .general p _ => p | _ => 0) 4) 0
    (poolName r ++ [if entered then (lvl : Int) else -(lvl : Int)])

/-- Judges the levels of a store after a change: entries in ascending order, exits in descending order, an event for
each (R382, R383). -/
def levels (s : State) (r : PoolRef) : State :=
  let p := s.pool r
  let thr := thresholds (s.marks (poolDomain r))
  let new := thr.mapIdx (fun i t => s.levelNow r t (p.entered.getLsbD i))
  let bits := BitVec.ofNat 3 ((new.mapIdx (fun i b => if b then 2 ^ i else 0)).foldl (· + ·) 0)
  let s1 := s.setPool r { p with entered := bits }
  let up := [0, 1, 2].foldl (fun t i => if bits.getLsbD i && !p.entered.getLsbD i then t.levelEvent r (i + 1) true else t) s1
  [2, 1, 0].foldl (fun t i => if !bits.getLsbD i && p.entered.getLsbD i then t.levelEvent r (i + 1) false else t) up

/-- Level in force of a store: 0 none, 1 Amber, 2 Red, 3 Black. -/
def level (s : State) (r : PoolRef) : Nat :=
  let e := (s.pool r).entered
  if e.getLsbD 2 then 3 else if e.getLsbD 1 then 2 else if e.getLsbD 0 then 1 else 0

/-- A grant of this class may be served under the level in force; `pass` marks relocation and flush traffic of owners 0,
1 and 2 (R379, R383). -/
def mayGrant (s : State) (r : PoolRef) (cls : Nat) (pass : Bool) : Bool :=
  pass || decide (s.level r < 2) || (decide (s.level r = 2) && decide (cls = 0))

/-- Free entries of a store, in its on-die stack and in the spill area. -/
def storeFree (p : Pool) : Nat := p.count - p.lost - p.held

/-- The on-die stack of a free store after a change that leaves `n` entries in it: above 3,584 it spills 512, below 512 it
refills 512 (R378). -/
def settleStack (p : Pool) (n : Nat) : Pool :=
  let k := min n (storeFree p)
  { p with onDie := if 3584 < k then k - 512 else if k < 512 then k + min 512 (storeFree p - k) else k }

/-- Pops an index: the most recently freed first, else the lowest never handed out (R378). -/
def popIndex (p : Pool) : Nat × Pool :=
  match p.freed with
  | i :: r => (i, settleStack { p with freed := r, held := p.held + 1 } (p.onDie - 1))
  | [] => (p.fresh, settleStack { p with fresh := p.fresh + 1, held := p.held + 1 } (p.onDie - 1))

/-- Pushes an index back, or withdraws the entry where `gone` says so (R378, R400). -/
def pushIndex (p : Pool) (i : Nat) (gone : Bool) : Pool :=
  if gone then { p with held := p.held - 1, lost := satAdd 255 p.lost 1 }
  else settleStack { p with held := p.held - 1, freed := i :: p.freed } (p.onDie + 1)

/-- A free-store entry is discarded, or the entry it names is withdrawn (R399, R405). -/
def discardEntry (s : State) (r : PoolRef) : State :=
  let p := s.pool r
  if poolFree s r = 0 then s
  else (s.setPool r { (popIndex p).2 with held := p.held, lost := satAdd 0xFF p.lost 1 }).levels r

/-- A free staging segment exists for a compartment: in its reserve while it holds less than that, else in the shared
part (R385). -/
def segFree (s : State) (c : Nat) : Bool :=
  decide (s.compSegs c < (s.comp c).res.reserved) || decide (0 < s.poolFree .staging)

/-- Takes a staging segment for an owner. -/
def takeSeg (s : State) (o : Nat) : Nat × State :=
  let (i, p) := popIndex s.bpm.staging
  let s1 := { s with bpm := { s.bpm with staging := p, segments := s.bpm.segments ++ [(o, i, s.now)] } }
  (i, (s1.startClocks memoryDomains).levels .staging)

/-- Reserves released segments for floors still short, in ascending compartment order (R385). -/
def refillFloors (s : State) : State :=
  match s.cmp.table.find? (fun e => decide (e.2.res.reserved < e.2.res.floor)) with
  | Option.none => s
  | some e => if 0 < s.poolFree .staging then
      s.setComp e.1 { s.comp e.1 with res := { (s.comp e.1).res with reserved := (s.comp e.1).res.reserved + 1 } }
    else s

/-- Releases a staging segment and its twin (R386). -/
def giveSeg (s : State) (i : Nat) (gone : Bool) : State :=
  let s1 := { s with bpm := { s.bpm with
    staging := pushIndex s.bpm.staging i (gone || s.bpm.leaving.contains i)
    leaving := s.bpm.leaving.filter (fun x => decide (x ≠ i))
    segments := s.bpm.segments.filter (fun e => decide (e.2.1 ≠ i)) } }
  (s1.refillFloors).levels .staging

/-- Number of buffers and segments an owner holds (R391). -/
def ownerHeld (s : State) (o : Nat) : Nat :=
  s.ownerSegs o + (s.bpm.bufs.filter (fun e => match e.2 with
    | some b => b.holders.any (fun h => decide (h.1 = o))
    | Option.none => false)).length

/-- Age in ms of the oldest buffer or segment an owner holds (R391). -/
def ownerAge (s : State) (o : Nat) : Nat :=
  let ts := (s.bpm.segments.filter (fun e => decide (e.1 = o))).map (fun e => e.2.2)
    ++ s.bpm.bufs.flatMap (fun e => match e.2 with
      | some b => (b.holders.filter (fun h => decide (h.1 = o))).map (·.2)
      | Option.none => [])
  match ts with
  | [] => 0
  | t :: r => (s.now - r.foldl min t) / 1000000

/-- Clears the leak bit of an owner whose oldest buffer is young enough again (R391). -/
def leakCheck (s : State) (o : Nat) : State :=
  match s.owner o with
  | some w =>
    if w.leak && (decide (s.ownerHeld o = 0) || decide (s.ownerAge o < s.bpm.leakMs)) then
      s.setOwner o (some { w with leak := false })
    else s
  | Option.none => s

end State

end Sys2Proof.Machine
end

