-- ==== Sys2Proof/Machine/Operands.lean ====
section
/-! DEFINITION. The operand forms of Krytfer: registers, immediates, the instruction word and its unused fields, branch
targets, and the memory spaces that load, store and copy reach (R265 to R273, R290). -/

namespace Sys2Proof.Machine

/-! ### Registers (R265) -/

/-- General register `i`; g0 reads 0. -/
def reg (k : KCtx) (i : Nat) : Word := if i = 0 then 0 else (k.regs[i - 1]?).getD 0

/-- Writes general register `i`; a write to g0 is discarded. -/
def setReg (k : KCtx) (i : Nat) (v : Word) : KCtx := if i = 0 then k else { k with regs := k.regs.set (i - 1) v }

/-- Writes registers in order. -/
def setRegs (k : KCtx) (rs : List (Nat × Word)) : KCtx := rs.foldl (fun (t : KCtx) (r : Nat × Word) => setReg t r.1 r.2) k

/-- The registers that the fields of an instruction word name. -/
def regA (k : KCtx) (w : KWord) : Word := reg k w.a.toNat
def regB (k : KCtx) (w : KWord) : Word := reg k w.b.toNat
def regD (k : KCtx) (w : KWord) : Word := reg k w.d.toNat

/-! ### Immediates and the instruction word (R272) -/

/-- The immediate sign-extended, and zero-extended. -/
def sextImm (w : KWord) : Word := w.imm.signExtend 64
def zextImm (w : KWord) : Word := w.imm.setWidth 64

/-- The instruction word with an opcode. -/
def wordOf (op : Nat) (w : KWord) : Nat :=
  op * 2 ^ 56 + w.d.toNat * 2 ^ 51 + w.a.toNat * 2 ^ 46 + w.b.toNat * 2 ^ 41 + w.mod.toNat * 2 ^ 32 + w.imm.toNat

/-- What an instruction uses of its word: opcode, register fields and `mod` bits. -/
structure Form where
  /-- 8 bits: the opcode (R284). -/
  op : Nat
  useD : Bool
  useA : Bool
  useB : Bool
  /-- `mod` bits the instruction defines. -/
  mask : Nat
deriving DecidableEq, Repr

/-- A register field that is not used, or a `mod` bit that is not defined, is not 0 (R272). -/
def badForm (f : Form) (w : KWord) : Bool :=
  (!f.useD && decide (w.d ≠ 0)) || (!f.useA && decide (w.a ≠ 0)) || (!f.useB && decide (w.b ≠ 0)) ||
    decide (w.mod &&& ~~~(BitVec.ofNat 9 f.mask) ≠ 0)

/-- Operand values of an instruction, as the journal records them (R275, R328). -/
def operands (k : KCtx) (w : KWord) : List Word :=
  [regA k w, regB k w, regD k w, w.mod.setWidth 64, w.imm.setWidth 64]

/-! ### The code area (R270, R273) -/

/-- Bytes of the image that an instruction may reach: header and code area. -/
def imageEnd (k : KCtx) : Nat := 64 + k.codeLen

/-- Traps of an instruction address: 0x06 with detail 0 where it is misaligned, with detail 1 outside the code area. -/
def codeTraps (k : KCtx) (t : Nat) : List (Bool × Nat × Nat) :=
  [(decide (t % 8 ≠ 0), 0x06, 0), (decide (t < 64) || decide (imageEnd k ≤ t), 0x06, 1)]

/-- Target of a branch: the branch's own address plus imm × 8, in 64 bits. -/
def branchTarget (k : KCtx) (w : KWord) : Nat := (BitVec.ofNat 64 k.pc + sextImm w * 8).toNat

/-! ### Special registers (R266, R291) -/

/-- The special register `ctx`. -/
def ctxReg (k : KCtx) (c : Nat) : Word :=
  BitVec.ofNat 64 (c / 4 + c % 4 * 2 ^ 6 + (if k.relieved then 2 ^ 8 else 0) + k.comp * 2 ^ 9 + k.slot * 2 ^ 19 +
    k.epoch.toNat * 2 ^ 32)

/-- The special register `flags`. -/
def flagsReg (f : KFlags) : Word :=
  BitVec.ofNat 64 ((if f.z then 1 else 0) + (if f.n then 2 else 0) + (if f.c then 4 else 0) + (if f.v then 8 else 0))

/-- Flags from bits 3 to 0 of a word; the other bits are ignored. -/
def flagsOf (w : Word) : KFlags := { z := w.getLsbD 0, n := w.getLsbD 1, c := w.getLsbD 2, v := w.getLsbD 3 }

/-- The special register that a selection names: 0 `pc`, 1 `cap`, 2 `ctx`, 3 `flags`. -/
def specialReg (k : KCtx) (c sel : Nat) : Word :=
  if sel = 0 then BitVec.ofNat 64 k.pc else if sel = 1 then k.cap else if sel = 2 then ctxReg k c else flagsReg k.flags

/-! ### Memory spaces (R267, R269, R270, R290) -/

/-- Size of an access in bytes: `mod` [1:0]. -/
def accessSize (w : KWord) : Nat := 2 ^ (w.mod.toNat % 4)

/-- Space of an access, `mod` [4:3], and destination space of a COPY, `mod` [6:5]. -/
def srcSpace (w : KWord) : Nat := w.mod.toNat / 8 % 4
def dstSpace (w : KWord) : Nat := w.mod.toNat / 32 % 4

/-- Address of LD and ST: g[a] plus the sign-extended immediate. -/
def memAddr (k : KCtx) (w : KWord) : Nat := (regA k w + sextImm w).toNat

/-- First byte of a buffer in the byte table. -/
def bufBase (h : Nat) : Nat := h * 2 ^ 22

namespace State

/-- A reel may reach the buffer: its own compartment's, and for the steward's reels any (R281, R302). -/
def mayReach (s : State) (k : KCtx) (b : Buf) : Bool := decide (k.comp = 0) || decide (s.ownerComp b.owner = k.comp)

/-- Traps of a buffer handle: 0x08 with detail 1 where it names no buffer, with detail 5 where the buffer is another
compartment's (R281, R388). -/
def handleTraps (s : State) (k : KCtx) (h : Word) : List (Bool × Nat × Nat) :=
  match s.buf h.toNat with
  | none => [(true, 0x08, 1)]
  | some b => [(!s.mayReach k b, 0x08, 5)]

/-- Size of the buffer that a handle names; none where the handle is not the reel's to use. -/
def bufSize (s : State) (k : KCtx) (h : Word) : Option Nat :=
  match s.buf h.toNat with
  | some b => if s.mayReach k b then some b.size else none
  | none => none

/-- The access [`a`, `a` + `n`) lies wholly or partly outside its space. -/
def outside (s : State) (k : KCtx) (sp a n : Nat) (h : Word) : Bool :=
  if n = 0 then false
  else if sp = 0 then decide (16384 < a + n)
  else if sp = 1 then decide (imageEnd k < a + n)
  else match s.bufSize k h with
    | some z => decide (z < a + n)
    | none => false

/-- A byte of [`a`, `a` + `n`) of the space holds an uncorrectable word, or the buffer's contents are lost (R271, R389,
R405). -/
def badSource (s : State) (k : KCtx) (c sp a n : Nat) (h : Word) : Bool :=
  let hits := fun (o : Nat) => decide (o < a + n) && decide (a < o + 8) && decide (0 < n)
  s.mem.bad.any (fun x => match x with
    | .scratch c' o => decide (sp = 0) && decide (c' = c) && hits o
    | .image i o => decide (sp = 1) && decide (i = k.inst) && hits o
    | .buffer h' o => decide (sp = 2) && decide (h' = h.toNat) && hits o
    | _ => false) ||
  (decide (sp = 2) && match s.buf h.toNat with
    | some b => b.gone
    | none => false)

/-- `n` bytes of a space. -/
def spaceRead (s : State) (k : KCtx) (sp a n : Nat) (h : Word) : List Byte :=
  if sp = 0 then readBytes k.scratch a n
  else if sp = 1 then readBytes k.image a n
  else readBytes s.bpm.bytes (bufBase h.toNat + a) n

/-- Writes bytes of a buffer. -/
def writeBuf (s : State) (h a : Nat) (bs : List Byte) : State :=
  { s with bpm := { s.bpm with bytes := writeBytes s.bpm.bytes (bufBase h + a) bs }
           mem := { s.mem with bad := s.mem.bad.filter (fun x => match x with
             | .buffer h' o => !(decide (h' = h) && decide (a ≤ o) && decide (o + 8 ≤ a + bs.length))
             | _ => true) } }

/-- Writes bytes of scratch or of a buffer for the reel in context `c`. -/
def spaceWrite (s : State) (c sp a : Nat) (h : Word) (bs : List Byte) : State :=
  if sp = 2 then s.writeBuf h.toNat a bs
  else match s.kctx c with
    | none => s
    | some k =>
      let t := s.setKctx c (some { k with scratch := writeBytes k.scratch a bs })
      { t with mem := { t.mem with bad := t.mem.bad.filter (fun x => match x with
        | .scratch c' o => !(decide (c' = c) && decide (a ≤ o) && decide (o + 8 ≤ a + bs.length))
        | _ => true) } }

end State

end Sys2Proof.Machine
end

