-- ==== Sys2Proof/Machine/BufOps.lean ====
section
/-! DEFINITION. Buffers: allocation from pools and cell stores, sharing, dropping, freeing and reclaim (R374 to R378, R380,
R383, R388, R390, R391). -/

namespace Sys2Proof.Machine

/-- The store a buffer comes from. -/
def bufStore (b : Buf) : PoolRef := if b.domain = 0 then .general b.part b.pool else .sram b.part b.pool

/-- The final owner: the one named by the first share, before that the allocating owner (R388). -/
def finalOwner (b : Buf) : Nat := b.final.getD b.owner

namespace State

/-! ### Freeing (R388, R390, R400) -/

/-- A buffer returns to its free store; a withdrawn one leaves it (R400). -/
def freeBuf (s : State) (h : Nat) : State :=
  match s.buf h with
  | none => s
  | some b =>
    let r := bufStore b
    let p := b.cells.foldl (fun p i => pushIndex p i b.withdraw) (s.pool r)
    let s1 := (s.setBuf h none).setPool r p
    let s2 := { s1 with
      bpm := { s1.bpm with bytes := clearRange s1.bpm.bytes (bufBase h) (2 ^ 22) }
      mem := { s1.mem with bad := s1.mem.bad.filter (fun x => match x with
        | .buffer h' _ => decide (h' ≠ h)
        | _ => true) } }
    b.holders.foldl (fun (t : State) o => t.leakCheck o.1) (State.levels s2 r)

/-- Holder `o` leaves a buffer, which returns to its store with its last holder. -/
def leaveBuf (s : State) (h o : Nat) : State :=
  match s.buf h with
  | none => s
  | some b =>
    let hs := b.holders.filter (fun x => decide (x.1 ≠ o))
    let s1 := s.setBuf h (some { b with holders := hs })
    (if hs.isEmpty then s1.freeBuf h else s1).leakCheck o

/-- BDROP: status 1 where the owner is no holder, or is the final owner. -/
def dropShare (s : State) (h o : Nat) : Nat × State :=
  match s.buf h with
  | none => (1, s)
  | some b => if b.holders.all (fun x => decide (x.1 ≠ o)) ∨ finalOwner b = o then (1, s) else (0, s.leaveBuf h o)

/-- BFREE: status 4 where the owner is not the final owner; the buffer is freeing while others hold it. -/
def freeShare (s : State) (h o : Nat) : Nat × State :=
  match s.buf h with
  | none => (4, s)
  | some b => if finalOwner b ≠ o then (4, s) else (0, (s.setBuf h (some { b with freeing := true })).leaveBuf h o)

/-- Buffers whose owners belong to compartment `n`. -/
def compBufs (s : State) (n : Nat) : List Nat :=
  s.bpm.bufs.filterMap (fun e => match e.2 with
    | some b => if s.ownerComp b.owner = n then some e.1 else none
    | none => none)

/-- Frees every buffer of a compartment's owners, whatever its holders (R390). -/
def freeCompBufs (s : State) (n : Nat) : State := (s.compBufs n).foldl freeBuf s

/-- Reclaim of an owner (R380): its buffers are freed, and its other shares dropped. -/
def reclaim (s : State) (o : Nat) : State :=
  s.bpm.bufs.foldl (fun t e => match t.buf e.1 with
    | some b =>
      if finalOwner b = o then (t.freeShare e.1 o).2
      else if b.holders.any (fun x => decide (x.1 = o)) then t.leaveBuf e.1 o
      else t
    | none => t) s

/-! ### Allocation (R374, R375, R378, R383) -/

/-- The domain is in cell mode. -/
def cellMode (s : State) (domain : Nat) : Bool := if domain = 0 then s.bpm.dramCell else s.bpm.sramCell

/-- The store of pool `k` in a part of a domain. -/
def storeAt (domain part k : Nat) : PoolRef := if domain = 0 then .general part k else .sram part k

/-- The store that serves a request, and the entries it takes: the smallest pool whose size is at least the request, or the
cells it needs; none where the domain's mode does not serve the size (R375). -/
def storeFor (s : State) (domain part size : Nat) : Option (Nat × Nat) :=
  if s.cellMode domain then
    let n := (size + 511) / 512
    if 2 ^ 22 < size ∨ (s.pool (storeAt domain part 0)).count < n then none else some (0, n)
  else
    let fits := (List.range 8).filter (fun k =>
      let p := s.pool (storeAt domain part k)
      p.enabled && decide (size ≤ 2 ^ p.sizeLog2))
    (fits.foldl (fun acc k => match acc with
      | some j => if (s.pool (storeAt domain part k)).sizeLog2 < (s.pool (storeAt domain part j)).sizeLog2 then some k else some j
      | none => some k) none).map (fun k => (k, 1))

/-- A watermark pauses an allocation of class `cls` from a store (R383). -/
def pausesAlloc (s : State) (r : PoolRef) (cls : Nat) : Bool :=
  decide (s.level r = 3) || (decide (s.level r = 2) && decide (cls ≠ 0))

/-- Pops `n` entries of a free store. -/
def popMany (p : Pool) : Nat → List Nat × Pool
  | 0 => ([], p)
  | n + 1 =>
    let (i, q) := popIndex p
    let (is, q') := popMany q n
    (i :: is, q')

/-- BALLOC: status 2 where no store serves the size, 1 where a watermark or an empty store pauses it, else the handle. -/
def alloc (s : State) (owner size domain part cls : Nat) : Nat × Nat × State :=
  match s.storeFor domain part size with
  | none => (2, 0, s)
  | some (k, n) =>
    let r := storeAt domain part k
    if s.pausesAlloc r cls || decide (s.poolFree r < n) then (1, 0, s)
    else
      let (is, p) := popMany (s.pool r) n
      let h := s.bpm.nextHandle
      let b : Buf := { domain := domain, part := part, pool := k, cells := is, size := size, owner := owner
                       holders := [(owner, s.now)], final := none, freeing := false, gone := false, at_ := s.now
                       withdraw := false }
      let s1 := (s.setPool r p).setBuf h (some b)
      (0, h, State.levels { s1 with bpm := { s1.bpm with nextHandle := if h + 1 < 2 ^ 32 then h + 1 else 1 } } r)

end State

end Sys2Proof.Machine
end

