-- ==== Sys2Proof/Machine/Lane.lean ====
section
/-! DEFINITION. The frame codec's arithmetic: bands and their layouts, prediction, contexts, the residue code, runs,
blocks, frame headers, records and codec state records (R224 to R247, R258). -/

namespace Sys2Proof.Machine

/-! ### Bands (R224 to R227, R239) -/

/-- Number of bytes from position `i` of a list, little-endian. -/
def leAt (bs : List Byte) (i n : Nat) : Nat := leNat ((bs.drop i).take n)

/-- The host fields of a band descriptor, or of a frame header (R239). -/
def bandOf (d : List Byte) : Band :=
  { historyIn := decide (leAt d 5 1 / 4 % 2 = 1), format := leAt d 6 1, planes := leAt d 7 1, width := leAt d 8 2
    height := leAt d 10 2, firstLine := leAt d 12 2, lines := leAt d 14 2, stream := leAt d 16 4, frame := leAt d 20 4 }

namespace Band

/-- Depth B, packing and layout of the format byte. -/
def depth (b : Band) : Nat := b.format % 32
def packed (b : Band) : Bool := decide (b.format / 32 % 2 = 1)
def layout (b : Band) : Nat := b.format / 64

/-- W, H and the number of lines; the fields hold them less 1. -/
def w (b : Band) : Nat := b.width + 1
def h (b : Band) : Nat := b.height + 1
def n (b : Band) : Nat := b.lines + 1

/-- Components of the layout (R226). -/
def comps (b : Band) : Nat := if b.layout = 1 then 4 else if b.layout = 2 then b.planes + 1 else 1

/-- Component width. -/
def wc (b : Band) : Nat := if b.layout = 1 then b.w / 2 else b.w

/-- Component lines of the band. -/
def compLines (b : Band) : Nat := if b.layout = 1 then b.n / 2 else b.n

/-- Bytes per line (R224). -/
def lineBytes (b : Band) : Nat :=
  if b.packed then (b.w * b.depth + 7) / 8 else if b.depth = 8 then b.w else 2 * b.w

/-- Lines as they lie in host memory: plane after plane (R225). -/
def rawLines (b : Band) : Nat := if b.layout = 2 then (b.planes + 1) * b.n else b.n

/-- Raw length (R224). -/
def rawLen (b : Band) : Nat := b.rawLines * b.lineBytes

/-- Samples of the band. -/
def samples (b : Band) : Nat := b.comps * b.compLines * b.wc

/-- The band is the last of its frame. -/
def last (b : Band) : Bool := decide (b.firstLine + b.n = b.h)

/-- Every field is legal (R224). -/
def legal (b : Band) : Bool :=
  decide (8 ≤ b.depth) && decide (b.depth ≤ 16) && decide (b.layout < 3) &&
  (if b.layout = 2 then decide (1 ≤ b.planes) && decide (b.planes ≤ 3) && decide ((b.planes + 1) * b.w ≤ 65536)
   else decide (b.planes = 0)) &&
  decide (b.w ≤ 32768) && decide (b.h ≤ 65536) && decide (b.firstLine + b.n ≤ b.h) &&
  (if b.layout = 1 then decide (b.w % 2 = 0) && decide (b.h % 2 = 0) && decide (b.firstLine % 2 = 0) && decide (b.n % 2 = 0)
   else true) &&
  decide (b.rawLen ≤ 16777216)

/-- Line of host memory and column of sample (i, j, x) of the band (R226, R227). -/
def place (b : Band) (i j x : Nat) : Nat × Nat :=
  if b.layout = 1 then (2 * j + i / 2, 2 * x + i % 2) else if b.layout = 2 then (i * b.n + j, x) else (j, x)

/-- Sample (i, j, x) of a raw band. -/
def sample (b : Band) (raw : List Byte) (i j x : Nat) : Nat :=
  let p := b.place i j x
  let at_ := p.1 * b.lineBytes
  if b.packed then
    let bit := p.2 * b.depth
    leAt raw (at_ + bit / 8) 3 / 2 ^ (bit % 8) % 2 ^ b.depth
  else if b.depth = 8 then leAt raw (at_ + p.2) 1
  else leAt raw (at_ + 2 * p.2) 2

/-- Every bit above bit B − 1 and every pad bit is 0 (R225). -/
def clean (b : Band) (raw : List Byte) : Bool :=
  if b.packed then
    (List.range b.rawLines).all (fun l => decide (leAt raw (l * b.lineBytes) b.lineBytes < 2 ^ (b.w * b.depth)))
  else if b.depth = 8 then true
  else (List.range (b.rawLines * b.w)).all (fun k => decide (leAt raw (2 * k) 2 < 2 ^ b.depth))

end Band

/-! ### Lane state (R228 to R231) -/

/-- What a lane carries from sample to sample: 128 contexts, four run indices, and the last line of every component, none
where there is no line above. -/
structure LaneState where
  ctxs : List CodeCtx
  runs : List Nat
  above : List (Option (List Nat))
deriving DecidableEq, Repr

/-- A context at a chain start (R230). -/
def CodeCtx.first (b : Band) : CodeCtx := { s := 2 ^ (b.depth - 5), d := 0, n := 1, c := 0 }

/-- A context that holds zero. -/
def CodeCtx.zero : CodeCtx := { s := 0, d := 0, n := 0, c := 0 }

/-- The neighbours a, b, c, d at column `x` (R228). -/
def neighbours (h wc : Nat) (above : Option (List Nat)) (left x : Nat) : Nat × Nat × Nat × Nat :=
  match above with
  | none => if x = 0 then (h, h, h, h) else (left, left, left, left)
  | some l =>
    let up := (l[x]?).getD 0
    let a := if x = 0 then up else left
    let c := if x = 0 then up else (l[x - 1]?).getD 0
    (a, up, c, if x = wc - 1 then up else (l[x + 1]?).getD 0)

/-- bitlen of R229. -/
def bitlen (v : Nat) : Nat := if v = 0 then 0 else Nat.log2 v + 1

/-- Difference of two samples. -/
def dist (a b : Nat) : Nat := max a b - min a b

/-- Context index of component `i` (R229). -/
def ctxIndex (i a b c d : Nat) : Nat :=
  i * 32 + 2 * min 15 (bitlen (dist d b + dist b c + dist c a)) + (if b < a then 1 else 0)

/-- The predicted value px (R231). -/
def predict (depth : Nat) (k : CodeCtx) (a b c : Nat) : Int :=
  let p : Int := if max a b ≤ c then (min a b : Nat) else if c ≤ min a b then (max a b : Nat) else (a : Int) + b - c
  max 0 (min (p + k.c) (2 ^ depth - 1))

/-- The residue e of sample `s` (R231). -/
def residue (depth s : Nat) (px : Int) : Int := ((s : Int) - px + 2 ^ (depth - 1)) % 2 ^ depth - 2 ^ (depth - 1)

/-- The mapped residue m, and back (R231). -/
def mapped (e : Int) : Nat := if 0 ≤ e then (2 * e).toNat else (-2 * e - 1).toNat
def unmapped (m : Nat) : Int := if m % 2 = 0 then (m / 2 : Nat) else -((m / 2 + 1 : Nat) : Int)

/-- The Rice parameter g (R231). -/
def riceOf (depth : Nat) (k : CodeCtx) : Nat :=
  ((List.range depth).find? (fun g => decide (k.s ≤ k.n * 2 ^ g))).getD (depth - 1)

/-- A context after residue `e` (R231): the halving comes before the bias step. -/
def CodeCtx.after (k : CodeCtx) (e : Int) : CodeCtx :=
  let k1 : CodeCtx := { k with s := k.s + e.natAbs, d := k.d + e, n := k.n + 1 }
  let k2 : CodeCtx := if k1.n = 64 then { k1 with n := 32, s := k1.s / 2, d := k1.d / 2 } else k1
  if (k2.n : Int) ≤ k2.d then { k2 with c := min (k2.c + 1) 127, d := k2.d - k2.n }
  else if k2.d ≤ -(k2.n : Int) then { k2 with c := max (k2.c - 1) (-128), d := k2.d + k2.n }
  else k2

/-- Run index after a run of `r` (R234). -/
def runAfter (ri r : Nat) : Nat := if 2 ^ ri ≤ r then min (ri + 1) 15 else ri - 1

/-! ### The residue code (R232, R233) -/

/-- The `n` low bits of a number, most significant first. -/
def msbBits (n v : Nat) : List Bool := (List.range n).map (fun i => decide (v / 2 ^ (n - 1 - i) % 2 = 1))

/-- Number of a list of bits, most significant first. -/
def bitsNat (bs : List Bool) : Nat := bs.foldl (fun v b => 2 * v + (if b then 1 else 0)) 0

/-- put_rice (R232). -/
def putRice (m g w : Nat) : List Bool :=
  let q := m / 2 ^ g
  if q < 23 then List.replicate q true ++ [false] ++ msbBits g m else List.replicate 23 true ++ msbBits w m

/-- Leading ones of a list of bits, at most `n`, and what follows them. -/
def leadingOnes : Nat → List Bool → Nat × List Bool
  | 0, l => (0, l)
  | n + 1, true :: r => ((leadingOnes n r).1 + 1, (leadingOnes n r).2)
  | _ + 1, l => (0, l)

/-- Reads `n` bits; none where there are fewer. -/
def takeBits (n : Nat) (l : List Bool) : Option (Nat × List Bool) :=
  if l.length < n then none else some (bitsNat (l.take n), l.drop n)

/-- Reads a value coded by `putRice`; none where the bits run out. -/
def getRice (g w : Nat) (l : List Bool) : Option (Nat × List Bool) :=
  let (q, r) := leadingOnes 23 l
  if q = 23 then takeBits w r
  else match r with
    | [] => none
    | _ :: r' => (takeBits g r').map (fun x => (q * 2 ^ g + x.1, x.2))

/-- Bits packed into bytes, the most significant first, the last padded with zeroes (R233, R236): `n` bytes at most. -/
def packBits : Nat → List Bool → List Byte
  | 0, _ => []
  | n + 1, l => if l.isEmpty then [] else BitVec.ofNat 8 (bitsNat ((l ++ List.replicate 7 false).take 8)) :: packBits n (l.drop 8)

/-- The bits of bytes, the most significant first. -/
def unpackBits (bs : List Byte) : List Bool := bs.flatMap (fun b => msbBits 8 b.toNat)

/-! ### Coding (R231, R234 to R238) -/

/-- Samples of a full block (R236). -/
def blockSamples : Nat := 32768

/-- A coder at work: lane state, code bits of the block being coded (newest first), its samples (newest first), samples so
far, and the blocks written (newest first). -/
structure Coder where
  lane : LaneState
  bits : List Bool
  cur : List Nat
  n : Nat
  blocks : List (List Byte)
deriving DecidableEq, Repr

/-- End of the block in which sample `n` of `total` lies. -/
def blockEnd (n total : Nat) : Nat := min total ((n / blockSamples + 1) * blockSamples)

/-- A block with its header: coded where that is shorter, else stored (R236, R238). -/
def blockBytes (depth : Nat) (bits : List Bool) (cur : List Nat) : List Byte :=
  let coded := packBits ((bits.length + 7) / 8) bits
  let plain := cur.flatMap (msbBits depth)
  let stored := packBits ((plain.length + 7) / 8) plain
  if coded.length < stored.length then leBytes 4 coded.length ++ coded
  else leBytes 4 (stored.length + 2 ^ 31) ++ stored

/-- Ends the block where its last sample has been coded. -/
def Coder.close (k : Coder) (depth end_ : Nat) : Coder :=
  if k.n = end_ then { k with bits := [], cur := [], blocks := blockBytes depth k.bits.reverse k.cur.reverse :: k.blocks } else k

/-- Adds code bits. -/
def Coder.put (k : Coder) (bs : List Bool) : Coder := { k with bits := bs.reverse ++ k.bits }

/-- One sample in regular mode (R231). -/
def Coder.regular (k : Coder) (depth i s a b c d : Nat) : Coder :=
  let j := ctxIndex i a b c d
  let x := (k.lane.ctxs[j]?).getD CodeCtx.zero
  let e := residue depth s (predict depth x a b c)
  let t := k.put (putRice (mapped e) (riceOf depth x) depth)
  { t with lane := { t.lane with ctxs := modAt t.lane.ctxs j (fun _ => x.after e) }, cur := s :: t.cur, n := t.n + 1 }

/-- Length of the run of value `v` at the head of a list, at most `m`. -/
def runOf (v : Nat) : Nat → List Nat → Nat
  | 0, _ => 0
  | _ + 1, [] => 0
  | m + 1, s :: r => if s = v then runOf v m r + 1 else 0

/-- Codes the rest of a component line from column `x` (R235). -/
def codeRest (depth i wc total : Nat) (above : Option (List Nat)) : Nat → Nat → Nat → List Nat → Coder → Coder
  | 0, _, _, _, k => k
  | fuel + 1, x, left, rest, k =>
    if wc ≤ x then k
    else
      let end_ := blockEnd k.n total
      let (a, b, c, d) := neighbours (2 ^ (depth - 1)) wc above left x
      let one := fun (x : Nat) (rest : List Nat) (k : Coder) (a b c d : Nat) =>
        match rest with
        | [] => k
        | s :: r => codeRest depth i wc total above fuel (x + 1) s r ((k.regular depth i s a b c d).close depth end_)
      if a = b ∧ b = c ∧ c = d then
        let r := runOf a (min (wc - x) (end_ - k.n)) rest
        let ri := (k.lane.runs[i]?).getD 0
        let k1 := k.put (putRice r ri 16)
        let k2 := { k1 with lane := { k1.lane with runs := modAt k1.lane.runs i (fun _ => runAfter ri r) }
                            cur := List.replicate r a ++ k1.cur, n := k1.n + r }
        let left' := if r = 0 then left else a
        if x + r = wc ∨ k2.n = end_ then codeRest depth i wc total above fuel (x + r) left' (rest.drop r) (k2.close depth end_)
        else
          let (a', b', c', d') := neighbours (2 ^ (depth - 1)) wc above left' (x + r)
          one (x + r) (rest.drop r) k2 a' b' c' d'
      else one x rest k a b c d

/-- Codes component line `j` of component `i`, which becomes the line above. -/
def codeLine (b : Band) (raw : List Byte) (k : Coder) (ji : Nat × Nat) : Coder :=
  let line := (List.range b.wc).map (b.sample raw ji.2 ji.1)
  let above := ((k.lane.above[ji.2]?).getD none)
  let t := codeRest b.depth ji.2 b.wc b.samples above b.wc 0 0 line k
  { t with lane := { t.lane with above := modAt t.lane.above ji.2 (fun _ => some line) } }

/-- Component lines in coding order (R227). -/
def codingOrder (b : Band) : List (Nat × Nat) :=
  (List.range b.compLines).flatMap (fun j => (List.range b.comps).map (fun i => (j, i)))

/-- Codes a band: the lane's state after it, and its blocks in order. -/
def codeBand (b : Band) (raw : List Byte) (l : LaneState) : LaneState × List (List Byte) :=
  let k := (codingOrder b).foldl (codeLine b raw) { lane := l, bits := [], cur := [], n := 0, blocks := [] }
  (k.lane, k.blocks.reverse)

/-! ### Decoding (R231, R237, R253) -/

/-- A decoder at work: lane state, the code bits left of the block, or its stored samples, the blocks to come, and samples so
far. -/
structure Decoder where
  lane : LaneState
  bits : List Bool
  stored : Bool
  blocks : List Byte
  n : Nat
deriving DecidableEq, Repr

/-- Opens the next block where the last one has ended; none where its header or payload is not whole (R238). -/
def Decoder.next (k : Decoder) (total : Nat) : Option Decoder :=
  if k.n % blockSamples ≠ 0 ∨ total ≤ k.n then some k
  else
    let hd := leAt k.blocks 0 4
    let len := hd % 2 ^ 17
    if k.blocks.length < 4 + len ∨ len = 0 then none
    else some { k with bits := unpackBits ((k.blocks.drop 4).take len), stored := decide (2 ^ 31 ≤ hd), blocks := k.blocks.drop (4 + len) }

/-- Samples of `depth` bits at the head of a list of bits, at most `m`, that equal `v`. -/
def storedRun (depth v : Nat) : Nat → List Bool → Nat
  | 0, _ => 0
  | m + 1, l => match takeBits depth l with
    | some (s, r) => if s = v then storedRun depth v m r + 1 else 0
    | none => 0

/-- Decodes the rest of a component line: the samples found, newest first. -/
def decodeRest (depth i wc total : Nat) (above : Option (List Nat)) : Nat → Nat → List Nat → Decoder → Option (List Nat × Decoder)
  | 0, _, done, k => some (done, k)
  | fuel + 1, x, done, k0 =>
    if wc ≤ x then some (done, k0)
    else match k0.next total with
      | none => none
      | some k =>
        let end_ := blockEnd k.n total
        let left := done.headD 0
        let (a, b, c, d) := neighbours (2 ^ (depth - 1)) wc above left x
        let one := fun (x : Nat) (done : List Nat) (k : Decoder) (a b c d : Nat) =>
          let j := ctxIndex i a b c d
          let y := (k.lane.ctxs[j]?).getD CodeCtx.zero
          let px := predict depth y a b c
          let got := if k.stored then takeBits depth k.bits
            else (getRice (riceOf depth y) depth k.bits).map (fun m => (((px + unmapped m.1) % 2 ^ depth).toNat, m.2))
          match got with
          | none => none
          | some (s, bs) =>
            decodeRest depth i wc total above fuel (x + 1) (s :: done)
              { k with lane := { k.lane with ctxs := modAt k.lane.ctxs j (fun _ => y.after (residue depth s px)) }, bits := bs, n := k.n + 1 }
        if a = b ∧ b = c ∧ c = d then
          let room := min (wc - x) (end_ - k.n)
          let ri := (k.lane.runs[i]?).getD 0
          let got := if k.stored then let r := storedRun depth a room k.bits; some (r, k.bits.drop (r * depth))
            else getRice ri 16 k.bits
          match got with
          | none => none
          | some (r, bs) =>
            if room < r then none
            else
              let k2 : Decoder := { k with lane := { k.lane with runs := modAt k.lane.runs i (fun _ => runAfter ri r) }, bits := bs, n := k.n + r }
              let done2 := List.replicate r a ++ done
              if x + r = wc ∨ k2.n = end_ then decodeRest depth i wc total above fuel (x + r) done2 k2
              else
                let (a', b', c', d') := neighbours (2 ^ (depth - 1)) wc above (done2.headD 0) (x + r)
                one (x + r) done2 k2 a' b' c' d'
        else one x done k a b c d

/-- Decodes component line (j, i). -/
def decodeLine (b : Band) (acc : Option (List (Nat × Nat × List Nat) × Decoder)) (ji : Nat × Nat) :
    Option (List (Nat × Nat × List Nat) × Decoder) :=
  match acc with
  | none => none
  | some (ls, k) =>
    match decodeRest b.depth ji.2 b.wc b.samples ((k.lane.above[ji.2]?).getD none) b.wc 0 [] k with
    | none => none
    | some (done, t) =>
      let line := done.reverse
      some (ls ++ [(ji.1, ji.2, line)], { t with lane := { t.lane with above := modAt t.lane.above ji.2 (fun _ => some line) } })

/-- The sample of a decoded band at (i, j, x). -/
def decodedAt (ls : List (Nat × Nat × List Nat)) (i j x : Nat) : Nat :=
  match ls.find? (fun l => decide (l.1 = j) && decide (l.2.1 = i)) with
  | some l => (l.2.2[x]?).getD 0
  | none => 0

/-- Component, component line and component column of column `x` of host line `l` (R226). -/
def Band.component (b : Band) (l x : Nat) : Nat × Nat × Nat :=
  if b.layout = 1 then (2 * (l % 2) + x % 2, l / 2, x / 2) else if b.layout = 2 then (l / b.n, l % b.n, x) else (0, l, x)

/-- One host line of a decoded band, in its packing (R224). -/
def Band.lineOf (b : Band) (ls : List (Nat × Nat × List Nat)) (l : Nat) : List Byte :=
  let s := (List.range b.w).map (fun x => let c := b.component l x; decodedAt ls c.1 c.2.1 c.2.2)
  if b.packed then leBytes b.lineBytes ((s.mapIdx (fun x v => v * 2 ^ (x * b.depth))).foldl (· + ·) 0)
  else s.flatMap (fun v => leBytes (if b.depth = 8 then 1 else 2) v)

/-- Decodes a block sequence: the raw band, and the lane's state after it; none where a payload runs out. -/
def decodeBand (b : Band) (blocks : List Byte) (l : LaneState) : Option (List Byte × LaneState) :=
  match (codingOrder b).foldl (decodeLine b) (some ([], { lane := l, bits := [], stored := false, blocks := blocks, n := 0 })) with
  | none => none
  | some (ls, k) => some ((List.range b.rawLines).flatMap (b.lineOf ls), k.lane)

/-! ### Codec contexts (R241 to R244) -/

/-- Lane state of a chain start (R243). -/
def LaneState.start (b : Band) : LaneState :=
  { ctxs := List.replicate 128 (CodeCtx.first b), runs := [0, 0, 0, 0], above := List.replicate 4 none }

/-- Lane state that a context carries on; `lines`: with its line buffers. -/
def LaneState.carried (c : CodecState) (b : Band) (lines : Bool) : LaneState :=
  { ctxs := (List.range 128).map (fun i => look CodeCtx.zero c.ctxs i), runs := c.runs
    above := (List.range 4).map (fun i =>
      if lines && decide (i < b.comps) then some ((List.range b.wc).map (fun x => look 0 c.lines (i * b.wc + x))) else none) }

/-- The lane state with which a context takes a band, where it may (R243). -/
def continuity (c : CodecState) (b : Band) : Option LaneState :=
  let same := c.used && decide (c.stream = b.stream) && decide (c.format = b.format) && decide (c.planes = b.planes)
  if !b.historyIn then some (LaneState.start b)
  else if same && decide (c.frame = b.frame) && decide (c.width = b.width) && decide (c.height = b.height)
      && decide (b.firstLine = c.nextLine) && c.linesValid then some (LaneState.carried c b true)
  else if same && c.frameDone && decide (b.frame = (c.frame + 1) % 2 ^ 32) && decide (b.firstLine = 0) then
    some (LaneState.carried c b false)
  else none

/-- The context after a band (R244). -/
def contextAfter (b : Band) (l : LaneState) : CodecState :=
  { format := b.format, planes := b.planes, linesValid := !b.last, frameDone := b.last, used := true, width := b.width
    height := b.height, nextLine := (b.firstLine + b.n) % 65536, stream := b.stream, frame := b.frame, runs := l.runs
    ctxs := (l.ctxs.mapIdx (fun i x => (i, x))).foldl (fun m e => put CodeCtx.zero m e.1 e.2) []
    lines := if b.last then [] else
      (l.above.mapIdx (fun i o => (i, o))).foldl (fun m e => match e.2 with
        | some v => (v.mapIdx (fun x s => (x, s))).foldl (fun m p => put 0 m (e.1 * b.wc + p.1) p.2) m
        | none => m) [] }

/-! ### Frame headers (R239) -/

/-- The 64-byte frame header of a band. -/
def frameHeader (b : Band) (time : Nat) (check : Word) (raw coded blocks ctx : Nat) : List Byte :=
  let flags := (if b.firstLine = 0 then 1 else 0) + (if b.last then 2 else 0) + (if b.historyIn then 4 else 0)
  let body := leBytes 4 0x44485246 ++ [1, BitVec.ofNat 8 flags] ++ leBytes 1 b.format ++ leBytes 1 b.planes ++ leBytes 2 b.width
    ++ leBytes 2 b.height ++ leBytes 2 b.firstLine ++ leBytes 2 b.lines ++ leBytes 4 b.stream ++ leBytes 4 b.frame
    ++ leBytes 8 time ++ leBytes 8 check.toNat ++ leBytes 4 raw ++ leBytes 4 coded ++ leBytes 2 blocks ++ leBytes 2 ctx ++ leBytes 4 0
  body ++ leBytes 8 (crcEcma body).toNat

/-- A frame header is whole: magic, version, check and length (R253, R254). -/
def headerGood (hd : List Byte) (recLen : Nat) : Bool :=
  decide (64 ≤ hd.length) && decide (leAt hd 0 4 = 0x44485246) && decide (leAt hd 4 1 = 1) &&
  decide (leAt hd 56 8 = (crcEcma (hd.take 56)).toNat) && decide (leAt hd 44 4 + 64 = recLen)

/-- Records of the coded band: header and blocks. -/
def recordOfBand (b : Band) (raw : List Byte) (time ctx : Nat) (blocks : List (List Byte)) : List Byte :=
  let body := blocks.flatten
  frameHeader b time (crcGuard raw) raw.length body.length blocks.length ctx ++ body

/-! ### Codec state records (R246) -/

/-- Length of a codec state record. -/
def stateRecordLen : Nat := 132160

/-- Low `n` bits of a signed number. -/
def twos (n : Nat) (v : Int) : Nat := (v % 2 ^ n).toNat

/-- Signed number of `n` bits. -/
def signed (n v : Nat) : Int := if v < 2 ^ (n - 1) then v else (v : Int) - 2 ^ n

/-- Bit of a flag. -/
def bit (b : Bool) (i : Nat) : Nat := if b then 2 ^ i else 0

/-- The codec state record of a context. -/
def stateRecord (c : CodecState) : List Byte :=
  let head := leBytes 4 0x54534443 ++ [1] ++ leBytes 1 c.format ++
    leBytes 1 (c.planes + bit c.linesValid 2 + bit c.frameDone 3 + bit c.used 4) ++ [0] ++ leBytes 2 c.width ++ leBytes 2 c.height
    ++ leBytes 2 c.nextLine ++ leBytes 2 0 ++ leBytes 4 c.stream ++ leBytes 4 c.frame
    ++ leBytes 2 ((c.runs.mapIdx (fun i r => r * 2 ^ (4 * i))).foldl (· + ·) 0) ++ List.replicate 30 0
  let body := (List.range 65536).flatMap (fun i => leBytes 2 (look 0 c.lines i)) ++
    (List.range 128).flatMap (fun i =>
      let k := look CodeCtx.zero c.ctxs i
      leBytes 8 (k.s + twos 24 k.d * 2 ^ 24 + k.n * 2 ^ 48 + twos 8 k.c * 2 ^ 56))
  head ++ leBytes 8 (crcEcmaFrom (crcEcma head) body).toNat ++ body

/-- The context that a codec state record holds; none where its magic, version, check or a reserved bit is wrong (R255). -/
def stateOf (r : List Byte) : Option CodecState :=
  let st := leAt r 6 1
  let zero := fun (i n : Nat) => ((r.drop i).take n).all (fun b => decide (b = 0))
  let ctx := fun (i : Nat) => leAt r (131136 + 8 * i) 8
  let good := decide (r.length = stateRecordLen) && decide (leAt r 0 4 = 0x54534443) && decide (leAt r 4 1 = 1) &&
    decide (leAt r 56 8 = (crcEcmaFrom (crcEcma (r.take 56)) (r.drop 64)).toNat) && decide (st < 32) && zero 7 1 && zero 14 2
    && zero 26 30 && (List.range 128).all (fun i => decide (ctx i / 2 ^ 54 % 4 = 0))
  if !good then none
  else some
    { format := leAt r 5 1, planes := st % 4, linesValid := decide (st / 4 % 2 = 1), frameDone := decide (st / 8 % 2 = 1)
      used := decide (st / 16 % 2 = 1), width := leAt r 8 2, height := leAt r 10 2, nextLine := leAt r 12 2, stream := leAt r 16 4
      frame := leAt r 20 4, runs := (List.range 4).map (fun i => leAt r 24 2 / 2 ^ (4 * i) % 16)
      ctxs := (List.range 128).foldl (fun m i =>
        let w := ctx i
        put CodeCtx.zero m i { s := w % 2 ^ 24, d := signed 24 (w / 2 ^ 24 % 2 ^ 24), n := w / 2 ^ 48 % 64, c := signed 8 (w / 2 ^ 56) }) []
      lines := (List.range 65536).foldl (fun m i => put 0 m i (leAt r (64 + 2 * i) 2)) [] }

end Sys2Proof.Machine
end

