-- ==== Sys2Proof/Machine/CodecOps.lean ====
section
/-! DEFINITION. The codec block's queue: whose turn a codec context is, which lane takes a job, and what a context keeps
of a record once it is acknowledged (R138, R241 to R249, R260). -/

namespace Sys2Proof.Machine

namespace State

/-- Lanes that hold a job. -/
def lanesBusy (s : State) : List Nat := s.fcd.jobs.filterMap (·.lane)

/-- The lane that a job takes: the lowest-numbered one in service that holds no job, while fewer lanes are busy than the mode
allows (R260); for a job whose lane failed, one of the same region as long as any of that region is in service (R44, R138). -/
def freeLane (s : State) (near : Option Nat) : Option Nat :=
  let here := fun (l : Nat) => match near with
    | some r => decide (l / 4 = r) || (List.range 4).all (fun i => !s.fcd.lanesOk.getLsbD (4 * r + i))
    | Option.none => true
  if s.fcd.lanesInUse ≤ s.lanesBusy.length then Option.none
  else (List.range 8).find? (fun l => s.fcd.lanesOk.getLsbD l && !s.lanesBusy.contains l && here l)

/-- Job `i` is first on its context, and no record of an earlier band of the context waits for its acknowledgement
(R245). -/
def codecTurn (s : State) (i : Nat) : Bool :=
  match s.fcd.jobs[i]? with
  | some j => (s.fcd.jobs.take i).all (fun x => decide (x.ctx ≠ j.ctx)) && !s.fcd.coded.any (fun x => decide (x.ctx = j.ctx))
  | Option.none => false

/-- Every sense of a flight is done, and it waits for no other side; none where the flight has ended. -/
def dataRead (s : State) (f : Nat) : Option Bool :=
  (s.car.flights.find? (fun v => decide (v.id = f))).map (fun v => !v.forwarded && v.senses.all (·.done))

/-- Carriage that a job counts on. -/
def jobCarriage (j : CodecJob) : Option Nat :=
  match j.work with
  | .append _ _ _ _ c _ _ _ _ => some c
  | _ => Option.none

/-- A job leaves the queue. -/
def dropJob (s : State) (i : Nat) : State :=
  match s.fcd.jobs[i]? with
  | Option.none => s
  | some j =>
    let t := { s with fcd := { s.fcd with jobs := s.fcd.jobs.eraseIdx i } }
    match jobCarriage j with
    | some c => (t.setCarriage c { t.carriage c with outstanding := (t.carriage c).outstanding - 1 }).settleKey
    | Option.none => t

/-- Gives job `i` a lane, whose clock starts. -/
def giveLane (s : State) (i l : Nat) : State :=
  { s with fcd := { s.fcd with jobs := modAt s.fcd.jobs i (fun j => { j with lane := some l, near := Option.none }) } }.startClock
    (132 + l)

/-- Sets what a codec context carries; `coded`: a band has been coded, in place of a restore (R263). -/
def setCodecState (s : State) (c : Nat) (v : CodecState) (coded : Bool) : State :=
  s.setCodecCtx c { s.codecCtx c with st := v, coded := coded }

/-- What job `i` can do now that it waits: take a lane, complete, or nothing (R243, R249, R255). -/
def codecMove (s : State) (i : Nat) : Option State :=
  match s.fcd.jobs[i]? with
  | Option.none => Option.none
  | some j =>
    if j.lane.isSome || !s.codecTurn i then Option.none
    else match j.work with
      | .append cmd band _ _ _ _ _ _ _ =>
        match continuity (s.codecCtx j.ctx).st band with
        | Option.none => some ((s.dropJob i).fail cmd .sequenceError)
        | some _ => (s.freeLane j.near).map (s.giveLane i)
      | .read f _ _ => match s.dataRead f with
        | Option.none => some (s.dropJob i)
        | some true => (s.freeLane j.near).map (s.giveLane i)
        | some false => Option.none
      | .save cmd => some (((s.dropJob i).emit (.data cmd (stateRecord (s.codecCtx j.ctx).st))).done cmd 0)
      | .restore cmd record => match stateOf record with
        | some v => some (((s.dropJob i).setCodecState j.ctx v false).done cmd 0)
        | Option.none => some ((s.dropJob i).fail cmd .invalidField)
      | .reel _ _ => Option.none

/-- Lets waiting jobs go on, at most `n` times, in order of admission. -/
def codecMoves : Nat → State → State
  | 0, s => s
  | n + 1, s =>
    match (List.range s.fcd.jobs.length).findSome? s.codecMove with
    | some t => codecMoves n t
    | Option.none => s

/-- Every waiting codec job that can go on does. -/
def settleCodec (s : State) : State := codecMoves (2 * s.fcd.jobs.length) s

/-- A record has been acknowledged, or has failed: its context takes the new state only with success, and the counters the
bytes (R249, R250, R264). -/
def codecEnd (s : State) (v : Flight) : State :=
  match s.fcd.coded.find? (fun x => decide (x.flight = v.id)) with
  | Option.none => s
  | some x =>
    let t := { s with fcd := { s.fcd with coded := s.fcd.coded.filter (fun y => decide (y ≠ x)) } }
    if v.status = .success then
      let u := t.setCodecState x.ctx x.st true
      { u with fcd := { u.fcd with rawBytes := u.fcd.rawBytes + leAt v.data 40 4
                                   recordBytes := u.fcd.recordBytes + leAt v.data 44 4 + 64 } }
    else t

/-- What the end of a flight means to the codec (R245). -/
def codecLeft (s : State) (v : Flight) : State :=
  if v.kind = .frameAppend then (s.codecEnd v).settleCodec
  else if v.kind = .frameRead then
    (match s.fcd.jobs.findIdx? (fun (j : CodecJob) => match j.work with
        | .read f _ _ => decide (f = v.id)
        | _ => false) with
      | some i => s.dropJob i
      | Option.none => s).settleCodec
  else s

end State

end Sys2Proof.Machine
end

