-- ==== Sys2Proof/Machine/StoreOps.lean ====
section
/-! DEFINITION. The reel store and the check of reel images: replicas and versions, the one store operation that runs, and
the versions that a reset finds (R310 to R317, R334 to R337). -/

namespace Sys2Proof.Machine

/-- Bytes of an image as a table. -/
def imageOf (bs : List Byte) : SMap Byte × Nat := (writeBytes [] 0 bs, bs.length)

/-- The little-endian number in `n` bytes from `off`. -/
def leIn (m : SMap Byte) (off n : Nat) : Nat := leNat (readBytes m off n)

/-! ### Headers (R310, R311) -/

/-- `signed` and `single instance` of the header's flags. -/
def imageSigned (m : SMap Byte) : Bool := decide (bits (leIn m 6 2) 0 1 = 1)
def imageSingle (m : SMap Byte) : Bool := decide (bits (leIn m 6 2) 1 1 = 1)

/-- Code length, entry, capability request, budget and image check of the header. -/
def imageCode (m : SMap Byte) : Nat := leIn m 8 4
def imageEntry (m : SMap Byte) : Nat := leIn m 12 4
def imageCaps (m : SMap Byte) : Word := BitVec.ofNat 64 (leIn m 16 8)
def imageBudget (m : SMap Byte) : Nat := leIn m 24 4
def imageCheckField (m : SMap Byte) : Word := BitVec.ofNat 64 (leIn m 56 8)

/-- Check 1 of R312: magic, version, lengths, entry and reserved bytes as R310 fixes. -/
def imageFormed (m : SMap Byte) (n : Nat) : Bool :=
  let c := imageCode m
  let e := imageEntry m
  decide (n ≤ 1048576) && decide (leIn m 0 4 = 0x5459524B) && decide (leIn m 4 2 = 1) && decide (leIn m 6 2 < 4) &&
    decide (c % 8 = 0) && decide (8 ≤ c) && decide (c ≤ 1048304) && decide (e % 8 = 0) && decide (64 ≤ e) &&
    decide (e < 64 + c) && (readBytes m 28 28).all (fun b => decide (b = 0)) &&
    decide (n = 64 + c + (if imageSigned m then 208 else 0))

/-- The image check as it should be (R310). -/
def imageCrc (m : SMap Byte) : Word := crcEcma (readBytes m 0 56 ++ readBytes m 64 (imageCode m))

namespace State

/-- The key hash at an index, where it is present (R311, R549). -/
def keyHash (s : State) (i : Nat) : Option (List Byte) :=
  let h := readBytes s.sec.optInForce.bytes (512 + 48 * i) 48
  if 8 ≤ i ∨ h.all (fun b => decide (b = 0)) then Option.none else some h

/-- Check 5 of R312: the signature block's magic and reserved bytes, the key hash and the signature (R311). -/
def signatureOk (s : State) (m : SMap Byte) : Bool :=
  let o := 64 + imageCode m
  let key := readBytes m (o + 8) 97
  let zero := fun (bs : List Byte) => bs.all (fun b => decide (b = 0))
  decide (leIn m o 4 = 0x4749534B) && zero (readBytes m (o + 5) 3) && zero (readBytes m (o + 105) 7) &&
    (match s.keyHash (leIn m (o + 4) 1) with
      | some h => decide (Config.sha384 key = h)
      | Option.none => false) &&
    Config.ecdsaVerifies key (readBytes m (o + 112) 48) (readBytes m (o + 160) 48) (Config.sha384 (readBytes m 0 o))

/-- The checks of R312 in order: the status of the first that fails. -/
def imageRefusal (s : State) (m : SMap Byte) (n : Nat) : Option Status :=
  if !imageFormed m n then some .invalidField
  else if imageCheckField m ≠ imageCrc m then some .invalidField
  else if imageCaps m >>> (19 : Nat) ≠ 0 then some .invalidField
  else if s.sec.level ≠ .opened ∧ (!imageSigned m || (s.keyHash (leIn m (68 + imageCode m) 1)).isNone) then
    some (.vendor 0x8B)
  else if imageSigned m ∧ !s.signatureOk m then some .invalidField
  else Option.none

/-! ### Replicas and versions (R315 to R317, R334) -/

/-- Replica `r` of store block `i` can be read. -/
def replicaReadable (s : State) (r i : Nat) : Bool := !(s.die (replicaDie r)).lost && !s.kry.unread.contains (r * 16 + i)

/-- The live version of store block `i` on replica `r`: 0 or 1. -/
def liveVersion (s : State) (r i : Nat) : Nat := look 0 s.kry.alternate (r * 16 + i)

/-- Block of the live version of store block `i` on replica `r` (R316, R599). -/
def storeBlock (s : State) (r i : Nat) : Nat := s.pairBlock r i (s.liveVersion r i)

/-- The image in a slot of a version. -/
def storeImage (s : State) (r v slot : Nat) : Option (SMap Byte × Nat) :=
  look Option.none s.kry.store ((r * 2 + v) * 256 + slot)

/-- The lowest replica that can be read of the block of a slot. -/
def firstReadable (s : State) (slot : Nat) : Option Nat := (List.range 4).find? (fun r => s.replicaReadable r (slot / 16))

/-- The image of a slot as a start reads it: none where no replica can be read, an empty slot where the live version holds no
image there. -/
def slotImage (s : State) (slot : Nat) : Option (Option (SMap Byte × Nat)) :=
  (s.firstReadable slot).map (fun r => s.storeImage r (s.liveVersion r (slot / 16)) slot)

/-- Marks replica `r` of store block `i` as unreadable, with event 0x0804 where it was readable (R317). -/
def loseReplica (s : State) (i r : Nat) : State :=
  if s.kry.unread.contains (r * 16 + i) then s
  else ({ s with kry := { s.kry with unread := s.kry.unread ++ [r * 16 + i] } }).event 0x0804 3 (src 0xC (replicaDie r)) 0 [r, i]

/-- An instance that runs from a store slot. -/
def runsSlot (s : State) (slot : Nat) : Bool :=
  s.kry.insts.any (fun e => match e.2 with
    | some x => decide (x.source = 2) && decide (x.place = slot)
    | Option.none => false)

/-- An instance runs from version `v` of store block `i` on replica `r`: it was live there when the instance started. -/
def versionRuns (s : State) (r i v : Nat) : Bool :=
  s.kry.insts.any (fun e => match e.2 with
    | some x => decide (x.source = 2) && decide (x.place / 16 = i) && decide (x.versions[r]? = some v)
    | Option.none => false)

/-- A block that a running instance holds (R334). -/
def holdsImage (s : State) (d b : Nat) : Bool :=
  match s.storePlace d b with
  | some (r, i, v) => s.versionRuns r i v || (decide (s.liveVersion r i = v) && s.kry.insts.any (fun e => match e.2 with
      | some x => decide (x.source = 2) && decide (x.place / 16 = i)
      | Option.none => false))
  | Option.none => false

/-- A store block has been erased: its version is gone. -/
def versionErased (s : State) (d b : Nat) : State :=
  match s.storePlace d b with
  | Option.none => s
  | some (r, i, v) =>
    let k := r * 2 + v
    { s with
      kry := { s.kry with
        store := clearRange s.kry.store (k * 256 + i * 16) 16
        storeSeq := put 0 s.kry.storeSeq (k * 16 + i) 0
        touched := s.kry.touched.filter (fun x => decide (x ≠ d * 8192 + b)) } }

/-! ### The store operation that runs (R335, R336, R427) -/

/-- The store operation at the front of the queue. -/
def storeHead (s : State) : Option StoreWrite := s.kry.writes.head?

/-- Rewrites the operation at the front. -/
def setStoreHead (s : State) (w : StoreWrite) : State := { s with kry := { s.kry with writes := w :: s.kry.writes.tail } }

/-- Takes the operation at the front off the queue. -/
def popStore (s : State) : State := { s with kry := { s.kry with writes := s.kry.writes.tail } }

/-- Completes a command whose completion still counts. -/
def answerCmd (s : State) (h : Option HostCmd) (st : Status) : State :=
  match h with
  | some c => s.complete c st 0 0
  | Option.none => s

/-- The slot that a store write or clear in progress names. -/
def slotBusy (s : State) (slot : Nat) : Bool :=
  match s.storeHead with
  | some w => (decide (w.op = .write) || decide (w.op = .clear)) && decide (w.slot = slot)
  | Option.none => false

/-- What refuses a write or clear that reaches the front (R312, R335, R336). -/
def storeRefusal (s : State) (w : StoreWrite) : Option Status :=
  if !s.kry.maint then some .sequenceError
  else match (if w.op = .write then s.imageRefusal w.image.1 w.image.2 else Option.none) with
    | some st => some st
    | Option.none => if s.runsSlot w.slot then some .sequenceError else Option.none

/-- One entry of a store write in the queue of its replica's die. -/
def storeEntry (s : State) (kind : DieOpKind) (b page : Nat) : QEntry :=
  { kind := kind, block := b, page := page, cls := 1, comp := 0, admittedAt := s.now, capWait := false, flush := false
    purpose := .store }

/-- Block into which the operation writes on its replica: the alternate. -/
def storeTarget (s : State) (w : StoreWrite) : Nat :=
  s.pairBlock w.replica (w.slot / 16) (1 - s.liveVersion w.replica (w.slot / 16))

/-- Image of slot `n` in the version that the operation writes: its own in the slot it names, the live version's in the others. -/
def newImage (s : State) (w : StoreWrite) (n : Nat) : Option (SMap Byte × Nat) :=
  if n = w.slot then (if w.op = .write then some w.image else Option.none)
  else s.storeImage w.replica (s.liveVersion w.replica (w.slot / 16)) n

/-- The directory of the version: for each slot, whether it is occupied, the image check and the code length; and the CRC-64 of
the slot pages (R315). -/
def newDirectory (s : State) (w : StoreWrite) : List (Nat × Nat × Nat) × Nat :=
  let d := replicaDie w.replica
  let b := s.storeTarget w
  ((List.range 16).map (fun n => match s.newImage w (w.slot / 16 * 16 + n) with
      | some x => (1, (imageCheckField x.1).toNat, imageCode x.1)
      | Option.none => (0, 0, 0)),
    (crcEcma ((List.range 1024).flatMap (fun p => s.pageData d b p))).toNat)

/-- Page `p` of the version that the operation writes: slot pages, then the directory unit (R315, R316). -/
def newPage (s : State) (w : StoreWrite) (p : Nat) : List Byte × PageRecord :=
  let bs := if p < 1024 then
      match s.newImage w (w.slot / 16 * 16 + p / 64) with
      | some x => (readBytes x.1 (p % 64 * 16384) (min 16384 (x.2 - p % 64 * 16384))) ++
          List.replicate (16384 - min 16384 (x.2 - p % 64 * 16384)) 0
      | Option.none => List.replicate 16384 0
    else
      let e := s.newDirectory w
      (List.range 16384).map (fun i => Config.directoryByte e.1 e.2 ((p - 1024) * 16384 + i))
  (bs, systemRecord 2 (w.slot / 16 * 1536 + p) false w.seq s.now)

/-- Issues the next program unit on the replica being written. -/
def storeIssue (s : State) (w : StoreWrite) : State :=
  let d := replicaDie w.replica
  let b := s.storeTarget w
  let p := (w.unit - 2) * 4
  ((s.setStoreHead { w with unit := w.unit + 1 }).layPages d b p ((List.range 4).map (fun j => s.newPage w (p + j)))).enqueue d
    (s.storeEntry .progSlc b p)

/-- The alternate of a store block that has been retired and has no replacement takes a spare of its die (R192, R599). -/
def storeSpare (s : State) (r i : Nat) : State :=
  let v := 1 - s.liveVersion r i
  let d := replicaDie r
  if decide ((s.block d (s.pairBlock r i v)).use = .retired) then
    match s.takeSpare d .system .system with
    | some (b, t) => { t with kry := { t.kry with moved := put 0 t.kry.moved ((r * 2 + v) * 16 + i) (b + 1) } }
    | Option.none => s
  else s

/-- Goes on with the next readable replica that has an alternate: it is erased unless it already is, and not while an instance
runs from the version it holds; none where no replica is left. -/
def storeGo (s0 : State) (w : StoreWrite) : Option State :=
  let i := w.slot / 16
  let s := (List.range 4).foldl (fun t r => if w.replica ≤ r ∧ t.replicaReadable r i then t.storeSpare r i else t) s0
  match (List.range 4).find? (fun r => decide (w.replica ≤ r) && s.replicaReadable r i &&
      decide ((s.block (replicaDie r) (s.pairBlock r i (1 - s.liveVersion r i))).use ≠ .retired)) with
  | Option.none => Option.none
  | some r =>
    let v := s.liveVersion r i
    let w1 := { w with replica := r, unit := 0, seq := max s.zns.seq (look 0 s.kry.storeSeq ((r * 2 + v) * 16 + i)) + 1 }
    let d := replicaDie r
    let b := s.storeTarget w1
    let k := s.block d b
    some (if !k.qlc ∧ k.wp = 0 then s.storeIssue { w1 with unit := 2 }
      else if s.versionRuns r i (1 - v) then s.setStoreHead w1
      else (s.setStoreHead { w1 with unit := 1 }).enqueue d (s.storeEntry .eraseSlc b 0))

/-- The write at the front has served every replica: event 0x0803, and its command completes (R335). -/
def storeEnd (s : State) (w : StoreWrite) : State :=
  (s.popStore.event 0x0803 1 srcHost 0 [w.slot, w.written]).answerCmd w.cmd .success

/-- Runs the operations at the front, `n` of them at most, up to one that takes time (R336, R337, R427). -/
def storeRun : Nat → State → State
  | 0, s => s
  | n + 1, s => match s.storeHead with
    | Option.none => s
    | some w => match w.op with
      | .enter => storeRun n (({ s.popStore with kry := { s.popStore.kry with maint := true } }).answerCmd w.cmd .success)
      | .leave => storeRun n (({ s.popStore with kry := { s.popStore.kry with maint := false } }).answerCmd w.cmd .success)
      | .write | .clear => match s.storeRefusal w with
        | some st => storeRun n (s.popStore.answerCmd w.cmd st)
        | Option.none => match s.storeGo w with
          | some t => t
          | Option.none => storeRun n (s.storeEnd w)

/-- Takes a Reel Store Write: it starts at once where none is before it. -/
def storeAdmit (s : State) (w : StoreWrite) : State :=
  let t := { s with kry := { s.kry with writes := s.kry.writes ++ [w] } }
  if s.kry.writes.isEmpty then storeRun 1 t else t

/-- Replicas from `a` to below `b` that are readable and have no alternate left to write: they keep the previous version, and are left
out (R317, R335). -/
def storeSkips (s : State) (w : StoreWrite) (a b : Nat) : State :=
  let i := w.slot / 16
  (List.range 4).foldl (fun t r => if a ≤ r ∧ r < b ∧ t.replicaReadable r i then t.loseReplica i r else t) s

/-- The write at the front goes on with the replicas from `w.replica` on, or ends and lets the next one start; those that it
passes over while it writes some are left out. -/
def storeNext (s0 : State) (w : StoreWrite) : State :=
  let s := match s0.storeGo w with
    | some t => match t.storeHead with
      | some x => s0.storeSkips w w.replica x.replica
      | Option.none => s0
    | Option.none => if w.written = 0 then s0 else s0.storeSkips w w.replica 4
  match s.storeGo w with
  | some t => t
  | Option.none => let t := s.storeEnd w; storeRun t.kry.writes.length t

/-- An instance has stopped: a write that waited for it goes on (R334). -/
def storeWake (s : State) : State :=
  match s.storeHead with
  | some w => if w.unit = 0 then s.storeNext w else s
  | Option.none => s

/-- The alternate is erased: the programs of the new version begin. -/
def storeErased (s : State) : State :=
  match s.storeHead with
  | some w => if w.unit = 1 then s.storeIssue { w with unit := 2 } else s
  | Option.none => s

/-- The slots of store block `i` in a table of versions: those of version `k` from those of version `j`, with one replaced. -/
def copySlots (m : SMap (Option (SMap Byte × Nat))) (j k i slot : Nat) (img : Option (SMap Byte × Nat)) :
    SMap (Option (SMap Byte × Nat)) :=
  (List.range 16).foldl (fun t n =>
    let q := i * 16 + n
    put Option.none t (k * 256 + q) (if q = slot then img else look Option.none m (j * 256 + q))) m

/-- The new version has been programmed and read back: it is live on this replica, above the version before it in
`seq` (R316, R335). -/
def storeLive (s : State) (w : StoreWrite) : State :=
  let i := w.slot / 16
  let r := w.replica
  let v := s.liveVersion r i
  let j := r * 2 + v
  let k := r * 2 + (1 - v)
  { s with kry := { s.kry with
      store := copySlots s.kry.store j k i w.slot (if w.op = .write then some w.image else Option.none)
      storeSeq := put 0 s.kry.storeSeq (k * 16 + i) w.seq
      alternate := put 0 s.kry.alternate (r * 16 + i) (1 - v) } }

/-- A program unit of the new version is done: 256 units of slots and the directory unit (R336). -/
def storeProgrammed (s : State) : State :=
  match s.storeHead with
  | some w =>
    if w.unit < 2 then s
    else if w.unit < 259 then s.storeIssue w
    else (s.storeLive w).storeNext { w with replica := w.replica + 1, written := w.written + 1 }
  | Option.none => s

/-- The write on a replica has failed: with its die lost the write goes on with the next replica (R317); a block that failed has been
retired, and the write starts again in the spare that takes its place (R192, R335, R599). -/
def storeFails (s : State) : State :=
  match s.storeHead with
  | some w =>
    if (s.die (replicaDie w.replica)).lost then (s.loseReplica (w.slot / 16) w.replica).storeNext { w with replica := w.replica + 1 }
    else s.storeNext { w with unit := 0 }
  | Option.none => s

/-! ### The versions that a reset finds (R316, R337) -/

/-- The bytes that a reel has programmed in a block. -/
def reelBytes (s : State) (d b : Nat) : List (Nat × Byte) :=
  let a := (d * 8192 + b) * 2 ^ 27
  (s.fls.cells.filter (fun e => decide (a ≤ e.1) && decide (e.1 < a + 2 ^ 27))).map (fun e => (e.1 - a, e.2))

/-- A version of a store block: its `seq`, 0 where it has no valid directory, and its images by slot of the block. -/
def versionFound (s : State) (r i v : Nat) : Nat × List (Nat × SMap Byte × Nat) :=
  let d := replicaDie r
  let b := s.pairBlock r i v
  let k := r * 2 + v
  if s.kry.touched.contains (d * 8192 + b) then
    let bs := s.reelBytes d b
    match Config.storeDirectory d b bs with
    | Option.none => (0, [])
    | some (q, l) => (q, l.map (fun x => (x.1 % 16,
        ((bs.filter (fun e => decide (x.1 % 16 * 1048576 ≤ e.1) && decide (e.1 < x.1 % 16 * 1048576 + x.2))).map
          (fun e => (e.1 - x.1 % 16 * 1048576, e.2)), x.2))))
  else (look 0 s.kry.storeSeq (k * 16 + i), (List.range 16).filterMap (fun n =>
    (s.storeImage r v (i * 16 + n)).map (fun x => (n, x))))

/-- A block outside the factory pairs shows by the record of its page 0 that it is a version of store block `i` (R316, R599). -/
def showsBlock (s : State) (d b i : Nat) : Bool :=
  let n := leNat (s.pageRecord d b 0)
  decide (0 < (s.block d b).wp) && recordChecks (s.pageRecord d b 0) d b 0 && decide (bits n 128 3 = 3) && decide (bits n 136 24 = 2) &&
    decide (bits n 160 27 = i * 1536)

/-- The replacements of store blocks that a reset finds by reading page-0 records (R599). -/
def movedLeft (s : State) : SMap Nat :=
  s.kry.moved.filter (fun e => s.showsBlock (replicaDie (e.1 / 32)) (e.2 - 1) (e.1 % 16))

/-- The store as a reset finds it: for each replica and block the version with the highest `seq` is live, and a version
without a valid directory is ignored (R316). -/
def storeLeft (s0 : State) : Reels :=
  let s := { s0 with kry := { s0.kry with moved := s0.movedLeft } }
  let k0 : Reels := { State.reset.kry with touched := s.kry.touched, moved := s.kry.moved }
  (List.range 4).foldl (fun (t : Reels) r => (List.range 16).foldl (fun (t : Reels) i =>
    let f0 := s.versionFound r i 0
    let f1 := s.versionFound r i 1
    let live := if f0.1 < f1.1 then 1 else 0
    let place := fun (m : SMap (Option (SMap Byte × Nat))) (v : Nat) (f : Nat × List (Nat × SMap Byte × Nat)) =>
      f.2.foldl (fun m x => put Option.none m ((r * 2 + v) * 256 + i * 16 + x.1) (some x.2)) m
    { t with
      store := place (place t.store 0 f0) 1 f1
      storeSeq := put 0 (put 0 t.storeSeq (r * 2 * 16 + i) f0.1) ((r * 2 + 1) * 16 + i) f1.1
      alternate := put 0 t.alternate (r * 16 + i) live }) t) k0

end State

end Sys2Proof.Machine
end

