-- ==== Sys2Proof/Machine/Pages.lean ====
section
/-! DEFINITION. What the module programs: the data and the record of each page of a zone's rows, of landing units, of the
conventional region, and of the system blocks; and the system blocks that hold the journal, the checkpoints and the
marker (R141, R146, R157, R158, R200 to R208, R600). -/

namespace Sys2Proof.Machine

namespace State

/-! ### Zone numbers (R54, R55) -/

/-- Zone slots per stripe group: 5,000 less the carve-out. -/
def slots (s : State) : Nat := 5000 - s.zns.carved

/-- The identifier names a zone slot of this variant that is not carved out (R54). -/
def zoneExists (s : State) (z : Nat) : Bool :=
  decide (z / 5000 < s.part.variant.groups) && decide (z % 5000 < s.slots)

/-- Namespace on the placement group of zone `z`. -/
def zoneNsid (s : State) (z : Nat) : Option Nat :=
  match s.groupPgroup (z / 5000) with
  | some p => match s.pgroup p with
    | some g => g.nsid
    | Option.none => Option.none
  | Option.none => Option.none

/-- Stripe groups of a zoned namespace. -/
def spaceGroups (s : State) (n : NsEntry) : List Nat :=
  match n.kind with
  | .zoned p => match s.pgroup p with
    | some g => g.groups
    | Option.none => []
  | .conventional _ => []

/-- Number of zones of a zoned namespace. -/
def spaceZones (s : State) (n : NsEntry) : Nat := (s.spaceGroups n).length * s.slots

/-- Zone `i` of a namespace (R55). -/
def spaceZone (s : State) (n : NsEntry) (i : Nat) : Option Nat :=
  match (s.spaceGroups n)[i / s.slots]? with
  | some g => some (g * 5000 + i % s.slots)
  | Option.none => Option.none

/-- Size of a namespace in LBAs (R55, R91). -/
def spaceLbas (s : State) (n : NsEntry) : Nat :=
  match n.kind with
  | .zoned _ => s.spaceZones n * n.zsze
  | .conventional g => g * 262144 / n.unitsPerLba

/-- First LBA of zone `z` in its namespace. -/
def zoneSlba (s : State) (n : NsEntry) (z : Nat) : Nat :=
  ((s.spaceGroups n).idxOf (z / 5000) * s.slots + z % 5000) * n.zsze

/-! ### Pages and units (R156, R157, R600) -/

/-- Logical page of unit `u` of zone `z`. -/
def zonePage (z u : Nat) : Nat := z * 92160 + u / 4

/-- Member cluster and page of unit `u` in the zone's blocks (R156, R157): (cluster, page). -/
def locate (u : Nat) : Nat × Nat :=
  let r := u / rowUnits
  let q := u % rowUnits
  let du := q / 16
  let d := du % 15
  let p := r % 16
  (if d < p then d else d + 1, r * 64 + du / 15 * 4 + q % 16 / 4)

/-- Landing page of conventional page `p` that flight `f` has programmed and not yet acknowledged: the translation engine
does not know it before. -/
def ownPage (f p : Nat) : Nat := (f + 1) * 2 ^ 41 + p

/-- A page of a landing unit that holds nothing valid any more, or never did. -/
def deadPage : Nat × Nat := (2 ^ 41 - 1, 0)

/-- A page of a landing unit holds something valid. -/
def livePage (p : Nat × Nat) : Bool := decide (p.2 ≠ 0)

/-- A landing page belongs to flight `f` and not yet to the conventional map. -/
def isOwn (f p : Nat) : Bool := decide (2 ^ 41 ≤ p) && decide (p / 2 ^ 41 = f + 1)

/-- The unit is the parity unit of landing row `n`: it lies in cluster `n` mod 16 (R160). -/
def isParity (n : Nat) (u : LandUnit) : Bool := decide (dieCluster u.die = n % 16)

/-- Flight `f`. -/
def flight (s : State) (f : Nat) : Option Flight := s.car.flights.find? (fun x => decide (x.id = f))

/-- Tag of a zone unit. -/
def zoneTag (s : State) (z u : Nat) : Option UnitTag :=
  (s.zns.tags.find? (fun e => decide (e.1 = z * zoneCapUnits + u))).map (·.2)

/-- A tag that no unit carries. -/
def noTag : UnitTag := { seq := 0, time := 0, key := 0 }

/-- Deciphers a unit enciphered under `written` with `read` (R557, R558). -/
def decipher (written read tweak : Nat) (plain : List Byte) : List Byte :=
  if written = read then plain else (List.range 4096).map (Config.xtsByte written read tweak plain)

/-! ### Contents (R141, R158, R202, R600) -/

/-- A page of zeroes, and a unit of zeroes. -/
def zeroPage : List Byte := List.replicate 16384 0
def zeroUnit : List Byte := List.replicate 4096 0

/-- A unit of a zone as it is stored: the ciphertext where it is enciphered, zeroes where nothing was written. -/
def storedZone (s : State) (z u : Nat) : List Byte :=
  match s.zoneTag z u with
  | Option.none => zeroUnit
  | some t =>
    let n := (s.zoneNsid z).getD 0
    let base := match s.space n with
      | some e => s.zoneSlba e z * e.unitsPerLba
      | Option.none => 0
    decipher t.key 0 (n * 2 ^ 96 + base + u) (readBytes s.zns.data (z * 2 ^ 31 + u * 4096) 4096)

/-- A unit of the conventional namespace as it is stored. -/
def storedConv (s : State) (u : Nat) : List Byte :=
  match s.zns.convTags.find? (fun e => decide (e.1 = u)) with
  | Option.none => zeroUnit
  | some t =>
    let n := match s.convSpace with
      | some x => x.1
      | Option.none => 0
    decipher t.2.key 0 (n * 2 ^ 96 + u) (readBytes s.zns.convData (u * 4096) 4096)

/-- The segment of flight `f` that covers unit `u`. -/
def segOf (s : State) (f u : Nat) : Option (Flight × Seg) :=
  (s.flight f).bind (fun v => (v.segs.find? (fun g => decide (v.start + g.off ≤ u) && decide (u < v.start + g.off + g.len))).map
    (fun g => (v, g)))

/-- A conventional unit that flight `f` programs before its acknowledgement, as it is stored, and its tag. -/
def storedOwn (s : State) (f u : Nat) : List Byte × UnitTag :=
  match s.segOf f u with
  | Option.none => (zeroUnit, noTag)
  | some (v, g) =>
    let a := v.start + g.off
    (decipher v.key 0 (v.cmd.nsid * 2 ^ 96 + u) ((g.data.drop ((u - a) * 4096)).take 4096),
      { seq := g.seq + u / 4 - a / 4, time := v.admittedAt, key := v.key })

/-- The tag with the highest write sequence of a list. -/
def newestTag (l : List UnitTag) : UnitTag := l.foldl (fun a t => if a.seq < t.seq then t else a) noTag

/-- The codewords of a page, by their mask. -/
def codewords (m : Nat) : List Nat := [0, 1, 2, 3].filter (fun k => decide (m / 2 ^ k % 2 = 1))

/-- The data of a landing page, with zeroes in the codewords that are not valid, and the tags of its valid units (R600). -/
def landedPage (s : State) (p : Nat × Nat) : List Byte × List UnitTag :=
  let unit := fun (k : Nat) =>
    if p.1 < 2 ^ 40 then (s.storedZone (p.1 / 92160) (p.1 % 92160 * 4 + k), (s.zoneTag (p.1 / 92160) (p.1 % 92160 * 4 + k)).getD noTag)
    else if p.1 < 2 ^ 41 then (s.storedConv ((p.1 - 2 ^ 40) * 4 + k), look noTag s.zns.convTags ((p.1 - 2 ^ 40) * 4 + k))
    else s.storedOwn (p.1 / 2 ^ 41 - 1) (p.1 % 2 ^ 41 * 4 + k)
  ([0, 1, 2, 3].flatMap (fun k => if p.2 / 2 ^ k % 2 = 1 then (unit k).1 else zeroUnit), (codewords p.2).map (fun k => (unit k).2))

/-- A data page of landing row `n`: its data and its record (R202). DEDUCED (log 157): a page carries the newest write sequence
value of its units. -/
def landingPage (s : State) (n : Nat) (p : Nat × Nat) : List Byte × PageRecord :=
  let (bs, ts) := s.landedPage p
  let t := newestTag ts
  let zone := decide (p.1 < 2 ^ 40)
  let z := p.1 / 92160
  (bs, { parity := false, filler := false, cw := p.2, seq := t.seq, time := t.time, space := if zone then 0 else 1, landing := true
         direct := zone && (s.zone z).direct, zone := if zone then z else 0
         lpage := if zone then p.1 % 92160 else if p.1 < 2 ^ 41 then p.1 - 2 ^ 40 else p.1 % 2 ^ 41
         comp := s.pageComp p.1, place := n })

/-- The parity page of landing row `n`: the exclusive OR of the pages of its data units at the same place (R160). -/
def landingParity (s : State) (n j : Nat) (us : List LandUnit) : List Byte × PageRecord :=
  let data := us.filter (fun u => !isParity n u)
  (data.foldl (fun bs u => xorBytes bs (match u.pages[j]? with
      | some p => (s.landedPage p).1
      | Option.none => zeroPage)) zeroPage,
    { parity := true, filler := false, cw := 15, seq := 0, time := 0, space := 2, landing := true, direct := false, zone := 0
      lpage := 0, comp := 0, place := n })

/-- Lays unit of landing row `n` in cluster `c`, of the pages given or the parity of the row's units `us`, where its program will
write it; a unit that is filled in part holds pages without a valid codeword. -/
def layLanding (s : State) (n c : Nat) (us : List LandUnit) (pages : List (Nat × Nat)) (d b pg : Nat) : State :=
  s.layPages d b pg ((List.range 4).map (fun j =>
    if c = n % 16 then s.landingParity n j us else s.landingPage n ((pages[j]?).getD deadPage)))

/-- The data of data page `q` of a zone. -/
def zoneData (s : State) (z q : Nat) : List Byte := [0, 1, 2, 3].flatMap (fun k => s.storedZone z (q * 4 + k))

/-- Where a page of the zones' own blocks or of the conventional region lies: its member cluster, and `substitute` where the
block is not one of its stripe group (R194, R202). -/
def memberPlace (z k d : Nat) : Nat := k + (if d = memberDie (z / 5000) k then 0 else 16)

/-- Page `j` of the unit that member `k` on die `d` holds of row `r` of a zone (R158, R202). -/
def rowPage (s : State) (z r k d j : Nat) : List Byte × PageRecord :=
  let v := s.zone z
  let place := memberPlace z k d
  if k = r % 16 then
    (((List.range 16).filter (fun i => decide (i ≠ k))).foldl (fun bs i => xorBytes bs (s.zoneData z (dataPage r i j))) zeroPage,
      { parity := true, filler := false, cw := 15, seq := 0, time := 0, space := 0, landing := false, direct := v.direct, zone := z
        lpage := r, comp := 0, place := place })
  else
    let q := dataPage r k j
    let t := newestTag ([0, 1, 2, 3].map (fun i => (s.zoneTag z (q * 4 + i)).getD noTag))
    let filler := match v.dataEnd with
      | some e => decide (e ≤ q * 4)
      | Option.none => false
    (s.zoneData z q, { parity := false, filler := filler, cw := 15, seq := t.seq, time := t.time, space := 0, landing := false
                       direct := v.direct, zone := z, lpage := q, comp := s.zoneComp z, place := place })

/-- Lays the unit of a zone's row where its program will write it. -/
def layRow (s : State) (z r k d b : Nat) : State :=
  s.layPages d b (r * 64) ((List.range 64).map (fun j => s.rowPage z r k d j))

/-- The units on their way into data page `q` of a conventional stripe row, by codeword. -/
def fillUnits (f : ConvFill) (q : Nat) : List (Nat × Nat) :=
  (f.moves.filter (fun m => decide (m.2.2 / 4 = q))).map (fun m => (m.2.2 % 4, m.1))

/-- The data of data page `q` of a conventional stripe row. -/
def fillData (s : State) (f : ConvFill) (q : Nat) : List Byte :=
  let us := fillUnits f q
  [0, 1, 2, 3].flatMap (fun k => match us.find? (fun u => decide (u.1 = k)) with
    | some u => s.storedConv u.2
    | Option.none => zeroUnit)

/-- Page `j` of the unit that member `k` on die `d` holds of a conventional stripe row (R202). DESIGN CHOICE (log 158): a parity
page carries its stripe row as `lpage`, as in a zone. -/
def convRowPage (s : State) (f : ConvFill) (k d j : Nat) : List Byte × PageRecord :=
  let r := f.row % 96
  let place := memberPlace (f.row / 96) k d
  let comp := s.pageComp (convPage 0)
  if k = r % 16 then
    (((List.range 16).filter (fun i => decide (i ≠ k))).foldl (fun bs i => xorBytes bs (s.fillData f (dataPage 0 i j))) zeroPage,
      { parity := true, filler := false, cw := 15, seq := 0, time := 0, space := 1, landing := false, direct := false, zone := 0
        lpage := r, comp := 0, place := place })
  else
    let q := dataPage r k j - r * 960
    let us := fillUnits f q
    let t := newestTag (us.map (fun u => look noTag s.zns.convTags u.2))
    (s.fillData f q, { parity := false, filler := false, cw := 15, seq := t.seq, time := t.time, space := 1, landing := false
                       direct := false, zone := 0, lpage := (us.head?.map (fun u => u.2 / 4)).getD 0, comp := comp, place := place })

/-- Lays the unit of a conventional stripe row where its program will write it. -/
def layConv (s : State) (f : ConvFill) (k d b : Nat) : State :=
  s.layPages d b (f.row % 96 * 64) ((List.range 64).map (fun j => s.convRowPage f k d j))

/-! ### System blocks (R142, R206 to R208, R599) -/

/-- System blocks that the journal, a checkpoint or the marker holds. -/
def systemHeld (s : State) : List (Nat × Nat) :=
  s.jrn.open_ ++ s.jrn.blocks ++ s.jrn.covered ++ s.jrn.ckptOpen ++ s.jrn.ckptNew ++ s.jrn.slotA ++ s.jrn.slotB ++ s.jrn.marks

/-- A block that neither the option area nor the reel store uses (R599). -/
def plainSystem (s : State) (d b : Nat) : Bool :=
  !(decide (b < 8) && (decide (d = 0) || decide (d = 21) || decide (d = 42) || decide (d = 63))) && (s.storePlace d b).isNone

/-- The lowest erased system block of a die that nothing holds. DESIGN CHOICE (log 159). -/
def systemBlock (s : State) (d : Nat) : Option Nat :=
  if (s.die d).lost then Option.none
  else
    let more := ((s.dieBlocks d).filter (fun e => decide (90 ≤ e.1) && decide (e.2.role = .system))).map (·.1)
    (List.range 90 ++ more).find? (fun b =>
      let k := s.block d b
      decide (k.role = .system) && decide (k.use = .system) && decide (k.wp = 0) && !k.qlc && s.plainSystem d b &&
        !s.systemHeld.contains (d, b))

/-- An erased system block of cluster `k`: on its lowest die that has one. -/
def systemIn (s : State) (k : Nat) : Option (Nat × Nat) :=
  (s.clusterDies k).findSome? (fun d => (s.systemBlock d).map (fun b => (d, b)))

/-- The block has room for another SLC unit. -/
def unitFits (s : State) (d b : Nat) : Bool :=
  !(s.die d).lost && decide ((s.block d b).use = .system) && decide (s.nextPage d b + 4 ≤ 1536)

/-- The queue entry of a system program. -/
def systemEntry (s : State) (b page cls : Nat) (p : Purpose) : QEntry :=
  { kind := .progSlc, block := b, page := page, cls := cls, comp := 0, admittedAt := s.now, capWait := false, flush := false, purpose := p }

/-- The four pages of a system unit: content that the manual gives no layout for (log 160), and the records. -/
def systemUnit (object lpage seq time : Nat) : List (List Byte × PageRecord) :=
  (List.range 4).map (fun j => ((List.range 16384).map (Config.systemByte object seq (lpage + j)),
    systemRecord object (lpage + j) false seq time))

/-- A system unit is programmed outside the die queues, in a step of its own that ends when the program has (R208, R219). -/
def programNow (s : State) (d b : Nat) (pages : List (List Byte × PageRecord)) (flush : Bool) : State :=
  let p := (s.block d b).wp
  (s.layPages d b p pages).noteStart d { s.systemEntry b p 0 .journal with flush := flush }

/-- Some program of the purpose waits or runs. -/
def underWay (s : State) (p : Purpose) : Bool :=
  s.fls.dies.any (fun e => e.2.queue.any (fun q => decide (q.purpose = p)) || (match e.2.op with
    | some o => decide (o.entry.purpose = p)
    | Option.none => false))

/-! ### The journal's units (R206) -/

/-- The two blocks that take the journal's next unit, in the two lowest clusters that have one (log 159). -/
def journalBlocks (s : State) : State :=
  if decide (s.jrn.open_.length = 2) && s.jrn.open_.all (fun m => s.unitFits m.1 m.2) then s
  else
    let two := ((List.range 16).filterMap s.systemIn).take 2
    { s with jrn := { s.jrn with open_ := two, blocks := s.jrn.blocks ++ two } }

/-- The pages of the journal's next unit. -/
def journalUnit (s : State) : List (List Byte × PageRecord) := systemUnit 4 (s.jrn.units * 4) s.jrn.tailSeq s.now

/-- The unit is programmed on both dies; each program waits its turn. -/
def journalQueue (s : State) : State :=
  let t := s.journalBlocks
  t.jrn.open_.foldl (fun u m =>
    let p := u.nextPage m.1 m.2
    (u.layPages m.1 m.2 p s.journalUnit).enqueue m.1 (u.systemEntry m.2 p 0 .journal)) t

/-- The unit is programmed on both dies at once, as a step of the flush or of a stop. -/
def journalWrite (s : State) (flush : Bool) : State :=
  let t := s.journalBlocks
  t.jrn.open_.foldl (fun u m => u.programNow m.1 m.2 s.journalUnit flush) t

/-- A program of the journal is done: with the last of them, what the units record is durable. -/
def journalProgrammed (s : State) : State := if s.underWay .journal then s else { s with nv := s.nvNext }

/-! ### Checkpoints (R207) -/

/-- Class of a checkpoint's programs (R207): the `reloc_class` of the die's cluster. -/
def relocClassOf (s : State) (d : Nat) : Nat := classOf (s.clusterOf (dieCluster d)).media.relocClass

/-- The blocks that take the checkpoint's next stripe, one in each cluster that has one. -/
def ckptBlocks (s : State) : State :=
  if !s.jrn.ckptOpen.isEmpty && s.jrn.ckptOpen.all (fun m => s.unitFits m.1 m.2) then s
  else
    let l := (List.range 16).filterMap s.systemIn
    { s with jrn := { s.jrn with ckptOpen := l, ckptNew := s.jrn.ckptNew ++ l } }

/-- Page `j` of the unit of stripe `n` that lies in cluster `k`; the one in cluster `n` mod 16 is the parity (log 160). -/
def ckptPage (s : State) (n k j : Nat) : List Byte × PageRecord :=
  let lp := fun (i : Nat) => n * 60 + (if i < n % 16 then i else i - 1) * 4 + j
  let data := fun (i : Nat) => (List.range 16384).map (Config.systemByte 3 s.jrn.lastSeq (lp i))
  if k = n % 16 then
    (((List.range 16).filter (fun i => decide (i ≠ k))).foldl (fun bs i => xorBytes bs (data i)) zeroPage,
      systemRecord 3 (n * 4 + j) true s.jrn.lastSeq s.now)
  else (data k, systemRecord 3 (lp k) false s.jrn.lastSeq s.now)

/-- The next stripe of the checkpoint goes to the dies of all clusters. -/
def ckptStripe (s : State) : State :=
  let n := s.jrn.stripe
  let t := s.ckptBlocks
  let u := { t with jrn := { t.jrn with stripes := t.jrn.stripes - 1, stripe := n + 1 } }
  u.jrn.ckptOpen.foldl (fun u m =>
    let p := u.nextPage m.1 m.2
    (u.layPages m.1 m.2 p ((List.range 4).map (s.ckptPage n (dieCluster m.1)))).enqueue m.1
      (u.systemEntry m.2 p (u.relocClassOf m.1) .checkpoint)) u

/-- A program of the checkpoint is done: behind the last of a stripe comes the next one. -/
def ckptProgrammed (s : State) : State :=
  if s.underWay .checkpoint || decide (s.jrn.stripes = 0) then s else s.ckptStripe

/-- System blocks that are needed no more join the deferred-erase queues of their dies. -/
def freeSystem (s : State) (l : List (Nat × Nat)) : State := l.foldl (fun t m => t.deferErase m.1 m.2 .system) s

/-! ### The marker (R208) -/

/-- The marker is written on four dies, in clusters 0, 5, 10 and 15, with the shutdown kind, the checkpoint slot in force and the
last durable journal record. -/
def writeMarker (s : State) (kind : Nat) : State :=
  let l := [0, 5, 10, 15].filterMap s.systemIn
  let t := l.foldl (fun u m => u.programNow m.1 m.2 (systemUnit 5 0 s.jrn.lastSeq s.now) (decide (kind = 2))) s
  { t with
    plog := { t.plog with marker := kind }
    jrn := { t.jrn with marks := l, markSlot := t.jrn.slot, markSeq := t.jrn.lastSeq } }

/-- A mount erases the marker after it has read it. -/
def eraseMarker (s : State) : State :=
  let t := s.freeSystem s.jrn.marks
  { t with plog := { t.plog with marker := 0 }, jrn := { t.jrn with marks := [] } }

/-! ### System blocks that fail (R191) -/

/-- A block of the journal or of a checkpoint has failed with `e` as its program: what it held is written again into the spare
that replaces it, or into another system block of its cluster, from a replica or from the stripe's parity. -/
def rewriteSystem (s : State) (d b : Nat) (e : QEntry) : State :=
  let m := match s.systemBlock d with
    | some c => some (d, c)
    | Option.none => s.systemIn (dieCluster d)
  let l := fun (xs : List (Nat × Nat)) => match m with
    | some x => xs.map (fun y => if y = (d, b) then x else y)
    | Option.none => xs.filter (fun y => decide (y ≠ (d, b)))
  let t := { s with jrn := { s.jrn with
    open_ := l s.jrn.open_, blocks := l s.jrn.blocks, covered := l s.jrn.covered, ckptOpen := l s.jrn.ckptOpen
    ckptNew := l s.jrn.ckptNew, slotA := l s.jrn.slotA, slotB := l s.jrn.slotB, marks := l s.jrn.marks } }
  match m with
  | Option.none => t
  | some (f, c) => (List.range (e.page / 4 + 1)).foldl (fun u i =>
      (u.copyPages d b f c (i * 4) 4).enqueue f { e with block := c, page := i * 4 }) t

end State

end Sys2Proof.Machine
end

