-- ==== Sys2Proof/Machine/Stage.lean ====
section
/-! DEFINITION. The operations of the data path: zones and their numbers, the location of a unit, open checks, landing
rows, acknowledgement, completion of a command in flight, and what a write that does not take effect undoes. -/

namespace Sys2Proof.Machine

namespace State

/-- Zone write mode in force: latched while the zone is not Empty (R61). -/
def defaultDirect (s : State) (z : Nat) : Bool :=
  match (s.zone z).setting with
  | some d => d
  | Option.none => match s.groupPgroup (z / 5000) with
    | some p => match s.pgroup p with
      | some g => g.defaultDirect
      | Option.none => false
    | Option.none => false

/-! ### Mirror pairs (R527 to R533) -/

/-- The pair of a placement group. -/
def pairOf (s : State) (p : Nat) : Option Pair := s.cpl.pairs.find? (fun x => decide (x.pgroup = p))

/-- The pair that the zone belongs to. -/
def zonePair (s : State) (z : Nat) : Option Pair :=
  match s.groupPgroup (z / 5000) with
  | some p => s.pairOf p
  | Option.none => Option.none

/-- A member is lost: fenced since its loss (R533). -/
def peerLost (s : State) (m : Nat) : Bool := s.cpl.fenced.getLsbD m

/-- A neighbour of a pair that outlived a power cycle of this module has not joined since (R535). -/
def peerAbsent (s : State) (m : Nat) : Bool :=
  s.cpl.absent.getLsbD m && !s.peerLost m && s.cpl.pairs.any (fun x => x.formed && decide (x.peer = m))

/-- The pair of a zone while both sides keep it alike: formed, as primary or mirror, its neighbour not lost. -/
def livePair (s : State) (z : Nat) : Option Pair :=
  (s.zonePair z).filter (fun (p : Pair) => p.formed && (decide (p.role = .primary) || decide (p.role = .mirror)) &&
    !s.peerLost p.peer)

/-- Number of a zone within its namespace (R55). -/
def zoneNumber (s : State) (z : Nat) : Nat :=
  match (s.zoneNsid z).bind s.space with
  | some n => (s.spaceGroups n).idxOf (z / 5000) * s.slots + z % 5000
  | Option.none => 0

/-- The other side of a zone's pair is told of a zone action (R529, R530). -/
def tellPeer (s : State) (z cls act wp : Nat) : State :=
  match s.livePair z with
  | some p => s.toPeer p.peer (classRank cls) (.mirrorAction p.peer (s.zoneNumber z) act wp)
  | Option.none => s

/-! ### Active zones (R63, R64) -/

/-- Active zones that satisfy `f`. -/
def activeWhere (s : State) (f : Nat → Zone → Bool) : Nat :=
  (s.zns.zones.filter (fun e => e.2.active && f e.1 e.2)).length

/-- Active zones of the module and of a compartment. -/
def activeAll (s : State) : Nat := s.activeWhere (fun _ _ => true)
def activeComp (s : State) (c : Nat) : Nat := s.activeWhere (fun z _ => decide (s.zoneComp z = c))
def directAll (s : State) : Nat := s.activeWhere (fun _ v => v.direct)
def directComp (s : State) (c : Nat) : Nat := s.activeWhere (fun z v => v.direct && decide (s.zoneComp z = c))

/-- The open checks of R65, in order; none where all pass. `fromEmpty`: the zone leaves Empty. -/
def openCheck (s : State) (z : Nat) (fromEmpty direct : Bool) : Option Status :=
  let c := s.zoneComp z
  let r := (s.comp c).res
  if s.frozen c then some (.vendor 0x83)
  else if !fromEmpty then Option.none
  else if r.activeQuota ≤ s.activeComp c ∨ 24576 ≤ s.activeAll then some .tooManyActive
  else if direct && (decide (r.directQuota ≤ s.directComp c) || decide (512 ≤ s.directAll)) then some .tooManyActive
  else if (groupDies (z / 5000)).any (fun d => decide (s.spares d = 0)) then some (.vendor 0x88)
  else Option.none

/-- One block for a zone on die `d`: the lowest-wear free zone block, else a spare on loan (R57, R58). -/
def assignBlock (s : State) (z d : Nat) : Nat × State :=
  match s.bestFree d .zone with
  | some b => (b, s.setBlock d b { s.block d b with use := .zone z })
  | Option.none => match s.takeSpare d .zone (.zone z) with
    | some (b, t) => (b, t.setDie d { t.die d with loans := (t.die d).loans + 1 })
    | Option.none => (0, s)

/-- The 16 members of a zone that leaves Empty. -/
def assignMembers (s : State) (z : Nat) : List (Nat × Nat) × State :=
  (groupDies (z / 5000)).foldl (fun acc d =>
    let (b, t) := acc.2.assignBlock z d
    (acc.1 ++ [(d, b)], t)) ([], s)

/-- Takes the zone out of Empty into `st`: mode latched, blocks and active resource held (R57, R60, R61). -/
def leaveEmpty (s : State) (z : Nat) (st : ZState) : State :=
  let d := s.defaultDirect z
  let (ms, t) := s.assignMembers z
  t.setZone z { t.zone z with state := st, direct := d, members := ms, active := true, failed := [] }

/-- Records a change in the journal's DRAM tail; the record takes a write sequence value (R203, R206). -/
def journal (s : State) : State :=
  let t := (s.takeSeq 1).2
  { t with jrn := { t.jrn with tail := t.jrn.tail + 1, tailAt := if t.jrn.tail = 0 then t.now else t.jrn.tailAt
                               tailSeq := t.zns.seq } }

/-! ### Where a unit stands (R59, R116, R123, R600) -/

/-- The landing row, unit and page that hold a page with codeword `cw` valid, among rows and units that satisfy the
tests. -/
def findPage (s : State) (rowOk : LandRow → Bool) (unitOk : LandUnit → Bool) (page cw : Nat) :
    Option (Nat × Nat × Nat) :=
  s.fls.landing.findSome? (fun e => match e.2 with
    | Option.none => Option.none
    | some r =>
      if rowOk r then
        (r.units.mapIdx (fun k u => (k, u))).findSome? (fun ku =>
          if ku.2.valid && unitOk ku.2 then
            match ku.2.pages.findIdx? (fun p => decide (p.1 = page) && decide (p.2 / 2 ^ cw % 2 = 1)) with
            | some j => some (e.1, ku.1, j)
            | Option.none => Option.none
          else Option.none)
      else Option.none)

/-- Unit `u` of zone `z` is in flash: its row is closed in QLC, or a programmed landing unit holds it. -/
def unitProgrammed (s : State) (z u : Nat) : Bool :=
  (s.row z (u / rowUnits)).qlc ||
    (s.findPage (fun _ => true) (fun w => w.programmed) (zonePage z u) (u % 4)).isSome

/-- Unit `u` of zone `z` counts as dirty (R213, R216): acknowledged, and not programmed or in a reloaded front. -/
def unitDirty (s : State) (z u : Nat) : Bool :=
  let r := s.row z (u / rowUnits)
  !r.qlc && (r.reloaded || !s.unitProgrammed z u)

/-- Units of a zone at their acknowledgement point: up to the acknowledged end, and the runs beyond it. -/
def ackedUnits (v : Zone) : List Nat :=
  List.range v.acked ++ v.runs.flatMap (fun r => (List.range (r.2 - r.1)).map (· + r.1))

/-- The acknowledged-dirty count in 4 KiB units (R216), wherever the units stand in DRAM. -/
def dirtyUnits (s : State) : Nat :=
  sumBy (fun e => ((ackedUnits e.2).filter (fun u => s.unitDirty e.1 u)).length) s.zns.zones
    + s.zns.convPend.length

/-- End of the longest programmed run of a zone from its start. -/
def durableEnd (s : State) (z : Nat) : Nat :=
  let a := (s.zone z).acked
  ((List.range a).find? (fun u => !s.unitProgrammed z u)).getD a

/-- Where a read of a unit goes. -/
inductive Place where
  | dram
  | landed (row unit page : Nat)
  | qlc
deriving DecidableEq, Repr

/-- Where unit `u` of zone `z` is read from: QLC once its row has closed there, a closed landing row for a landed or
pinned zone, DRAM before that. -/
def unitPlace (s : State) (z u : Nat) : Place :=
  let v := s.zone z
  if (s.row z (u / rowUnits)).qlc then .qlc
  else if v.direct && !v.pinned then .dram
  else match s.findPage (fun r => r.closed) (fun _ => true) (zonePage z u) (u % 4) with
    | some (r, k, p) => .landed r k p
    | Option.none => .dram

/-! ### Data (R557, R602) -/

/-- What a read of unit `u` of zone `z` under a key returns: zeroes at or above the write pointer or the data end
(R56, R69). -/
def zoneUnit (s : State) (nsid base z u key : Nat) : List Byte :=
  let v := s.zone z
  let lim := v.dataEnd.getD v.wp
  match s.zoneTag z u with
  | Option.none => List.replicate 4096 0
  | some t =>
    if lim ≤ u then List.replicate 4096 0
    else decipher t.key key (nsid * 2 ^ 96 + base + u) (readBytes s.zns.data (z * 2 ^ 31 + u * 4096) 4096)

/-- What a read of conventional unit `u` under a key returns: zeroes where it is unmapped (R94). -/
def convUnit (s : State) (nsid u key : Nat) : List Byte :=
  match s.zns.convMap.find? (fun e => decide (e.1 = u)) with
  | Option.none => List.replicate 4096 0
  | some _ =>
    let t := look noTag s.zns.convTags u
    decipher t.key key (nsid * 2 ^ 96 + u) (readBytes s.zns.convData (u * 4096) 4096)

/-- Removes the data and tags of a zone from unit `u` on. -/
def dropData (s : State) (z u : Nat) : State :=
  { s with zns := { s.zns with
      data := clearRange s.zns.data (z * 2 ^ 31 + u * 4096) ((zoneCapUnits - u) * 4096)
      tags := clearRange s.zns.tags (z * zoneCapUnits + u) (zoneCapUnits - u) } }

/-! ### Landing rows (R160 to R162, R166) -/

/-- Removes pages from the landing pool: units that hold nothing are invalid, and the parity unit with the last of its
row. -/
def dropPages (s : State) (f : Nat → Bool) : State :=
  let unit := fun (u : LandUnit) =>
    if u.pages.isEmpty then u
    else
      let ps := u.pages.map (fun p => if f p.1 then deadPage else p)
      { u with pages := ps, valid := u.valid && ps.any livePage }
  let row := fun (r : LandRow) =>
    let us := r.units.map unit
    let front := r.front.filter (fun p => !f p.1)
    let live := us.any (fun u => u.valid && !u.pages.isEmpty) || !front.isEmpty || decide (us.length < 16)
    { r with units := us.map (fun u => if u.pages.isEmpty && !live then { u with valid := false } else u), front := front }
  { s with fls := { s.fls with landing := s.fls.landing.map (fun e => (e.1, e.2.map row)) } }

/-- A read that sampled the block has not completed (R123, R165). -/
def sensing (s : State) (d b : Nat) : Bool :=
  s.car.flights.any (fun v => v.senses.any (fun g => !g.done && decide (g.die = d) && decide (g.block = b))) ||
    ((s.die d).queue.any (fun q => !isProgErase q.kind && decide (q.block = b))) || (match (s.die d).op with
      | some o => !isProgErase o.entry.kind && decide (o.entry.block = b)
      | Option.none => false)

/-- Reclaims the landing pool: closed rows without a valid unit leave the table, and full landing blocks without a valid
unit join the deferred-erase queue of their die (R166). -/
def sweepLanding (s : State) : State :=
  let s1 := { s with fls := { s.fls with landing := s.fls.landing.filter (fun e => match e.2 with
    | some r => !(r.closed && r.units.all (fun u => !u.valid))
    | Option.none => false) } }
  let used := fun (d b : Nat) => decide (0 < s1.countUnits (fun u => u.valid && decide (u.die = d) && decide (u.block = b)))
  let busy := fun (d b : Nat) => s1.fls.compacting.any (fun x => decide (x.1 = d) && decide (x.2.1 = b)) || s1.sensing d b ||
    s1.programming d b
  (s1.fls.blocks.filter (fun e => decide (e.2.use = .landingClosed) && !used (e.1 / 8192) (e.1 % 8192) &&
    !busy (e.1 / 8192) (e.1 % 8192))).foldl
    (fun t e => t.deferErase (e.1 / 8192) (e.1 % 8192) .landing) s1

/-- What a placement in the landing pool runs as: the class and compartment of its programs, whether it is flush traffic,
whether it may take blocks of the flush reserve (R168), and the open rows that it leaves alone. -/
structure Landing where
  cls : Nat
  comp : Nat
  flush : Bool
  reserve : Bool
  skip : List Nat
deriving DecidableEq, Repr

/-- Landed writes, conventional writes, pinned rows and copies: never from the flush reserve. -/
def Landing.plain (cls comp : Nat) : Landing := { cls := cls, comp := comp, flush := false, reserve := false, skip := [] }

/-- The die number of a unit in a cluster that has no die in service: the row's parity covers it (R137). -/
def noDie (c : Nat) : Nat := 65536 + 4 * c

/-- The cluster of the next data unit of landing row `n`: the lowest in which the row has no unit, but for that of its
parity. -/
def nextCluster (n : Nat) (us : List LandUnit) : Nat :=
  ((List.range 16).find? (fun c => decide (c ≠ n % 16) && us.all (fun u => decide (dieCluster u.die ≠ c)))).getD (n % 16)

/-- Makes a unit of landing row `n` in cluster `c`: the allocator picks its die and block, and its program joins the die
queue. None where no erased landing block is to be had (R160, R168). -/
def makeUnit (s : State) (n c : Nat) (pages : List (Nat × Nat)) (a : Landing) (purpose : Nat → Purpose) : Option State :=
  match s.landRow n with
  | Option.none => Option.none
  | some r =>
    match s.landingDie c with
    | Option.none =>
      let u : LandUnit := { die := noDie c, block := 0, page := 0, pages := pages, valid := true, pinned := false,
                            programmed := true }
      some (s.setLandRow n (some { r with units := r.units ++ [u] }))
    | some d => match s.landingPlace d a.reserve with
      | Option.none => Option.none
      | some (b, pg, t) =>
        let u : LandUnit := { die := d, block := b, page := pg, pages := pages, valid := true, pinned := false,
                              programmed := false }
        let e : QEntry := { kind := .progSlc, block := b, page := pg, cls := a.cls, comp := a.comp, admittedAt := t.now,
                            capWait := false, flush := a.flush, purpose := purpose r.units.length }
        some (((t.setLandRow n (some { r with units := r.units ++ [u] })).layLanding n c r.units pages d b pg).enqueue d e)

/-- Room of an open landing row for another data unit beside what its front holds: it has no parity unit yet, and fewer
than 15 data units. -/
def hasRoom (n : Nat) (r : LandRow) (front : Nat) : Bool :=
  !r.closed && decide (r.units.length + front < 15) && r.units.all (fun u => !isParity n u)

/-- The landing row that takes the next page: the lowest-numbered one that passes the test, else a new one while fewer than
2,048 are open (R161); the flush opens as many as it needs (R219). -/
def rowFor (s : State) (a : Landing) (ok : Nat → LandRow → Bool) (fits : Nat → Bool) : Option (Nat × State) :=
  match s.fls.landing.find? (fun e => match e.2 with
      | some r => ok e.1 r && !a.skip.contains e.1
      | Option.none => false) with
  | some e => some (e.1, s)
  | Option.none =>
    let openRows := (s.fls.landing.filter (fun e => match e.2 with
      | some r => !r.closed
      | Option.none => false)).length
    let n := s.fls.landingNext
    if (2048 ≤ openRows ∧ !a.flush) ∨ !fits n then Option.none
    else some (n, ({ s with fls := { s.fls with landingNext := (n + 1) % 2 ^ 30 } }).setLandRow n
        (some { units := [], front := [], closed := false }))

/-- The landing row that takes the next page. -/
def rowForPage (s : State) (a : Landing) : Option (Nat × State) := s.rowFor a (fun n r => hasRoom n r 0) (fun _ => true)

/-- Makes a data unit, and the parity unit behind the 15th. -/
def addUnit (s : State) (n c : Nat) (pages : List (Nat × Nat)) (a : Landing) (purpose : Nat → Purpose) : Option State :=
  match s.makeUnit n c pages a purpose with
  | Option.none => Option.none
  | some t =>
    match t.landRow n with
    | Option.none => some t
    | some r => if r.units.length = 15 then t.makeUnit n (n % 16) [] a (fun k => .landing n k) else some t

/-- Makes a unit of what the front of row `n` holds. -/
def fillUnit (s : State) (n : Nat) (a : Landing) (purpose : Nat → Nat → Purpose) : Option State :=
  match s.landRow n with
  | Option.none => Option.none
  | some r => (s.setLandRow n (some { r with front := [] })).addUnit n (nextCluster n r.units) r.front a (purpose n)

/-- Puts one page into a landing front; the fourth page of a unit makes its program. -/
def placePage (s : State) (p : Nat × Nat) (a : Landing) (purpose : Nat → Nat → Purpose) : Option State :=
  match s.rowForPage a with
  | Option.none => Option.none
  | some (n, t) =>
    match t.landRow n with
    | Option.none => Option.none
    | some r =>
      let t1 := t.setLandRow n (some { r with front := r.front ++ [p] })
      if r.front.length = 3 then t1.fillUnit n a purpose else some t1

/-- Puts pages into landing fronts in order; none where they do not all find room. -/
def placePages (s : State) (ps : List (Nat × Nat)) (a : Landing) (purpose : Nat → Nat → Purpose) : Option State :=
  ps.foldl (fun acc p => match acc with
    | some t => t.placePage p a purpose
    | Option.none => Option.none) (some s)

/-- Puts pages into landing fronts in order, as far as there is room. -/
def placeSome (s : State) (ps : List (Nat × Nat)) (a : Landing) (purpose : Nat → Nat → Purpose) : State :=
  ps.foldl (fun t p => (t.placePage p a purpose).getD t) s

/-- Fills the unit that a landing front holds in part. -/
def closeFront (s : State) (a : Landing) (purpose : Nat → Nat → Purpose) : Option State :=
  match s.fls.landing.find? (fun e => match e.2 with
      | some r => !r.front.isEmpty && !a.skip.contains e.1
      | Option.none => false) with
  | some e => s.fillUnit e.1 a purpose
  | Option.none => some s

/-- Rebuilds a landing unit into a new landing row, on a die of cluster `c` (R194). -/
def placeUnit (s : State) (c : Nat) (pages : List (Nat × Nat)) (a : Landing) : Option State :=
  match s.rowFor a (fun n r => hasRoom n r (if r.front.isEmpty then 0 else 1) && decide (c ≠ n % 16) &&
      r.units.all (fun u => decide (dieCluster u.die ≠ c))) (fun n => decide (c ≠ n % 16)) with
  | some (n, t) => t.addUnit n c pages a (fun k => .landing n k)
  | Option.none => Option.none

/-- Programs what is left of an open landing row: its front, and its parity (R219, step 3). -/
def closeLandRow (s : State) (n : Nat) : State :=
  let a : Landing := { cls := 1, comp := 0, flush := true, reserve := true, skip := [] }
  let s1 := match s.landRow n with
    | some r => if r.front.isEmpty then s else (s.fillUnit n a (fun n k => .landing n k)).getD s
    | Option.none => s
  match s1.landRow n with
  | some r =>
    if r.closed || r.units.any (isParity n) then s1
    else (s1.makeUnit n (n % 16) [] a (fun k => .landing n k)).getD s1
  | Option.none => s1

/-- The pages that cover units `[a, b)` of zone `z`, each with the codewords of the range (R600). -/
def pagesCovering (z a b : Nat) : List (Nat × Nat) :=
  ((List.range (b / 4 + 1)).filter (fun p => decide (a < (p + 1) * 4) && decide (p * 4 < b))).map (fun p =>
    (z * 92160 + p, sumBy (fun k => if a ≤ p * 4 + k ∧ p * 4 + k < b then 2 ^ k else 0) [0, 1, 2, 3]))

/-- A landing row holds codeword `cw` of a logical page, or its front does. -/
def inLanding (s : State) (page cw : Nat) : Bool :=
  (s.findPage (fun _ => true) (fun _ => true) page cw).isSome || s.fls.landing.any (fun e => match e.2 with
    | some r => r.front.any (fun p => decide (p.1 = page) && decide (p.2 / 2 ^ cw % 2 = 1))
    | Option.none => false)

/-- The dirty units of the module that no landing row holds: (write sequence, logical page, codeword). -/
def dirtyList (s : State) : List (Nat × Nat × Nat) :=
  (s.zns.zones.flatMap (fun e => ((ackedUnits e.2).filter (fun u =>
      s.unitDirty e.1 u && !s.inLanding (zonePage e.1 u) (u % 4))).map (fun u =>
      ((look noTag s.zns.tags (e.1 * zoneCapUnits + u)).seq, zonePage e.1 u, u % 4))))
  ++ ((s.zns.convPend.filter (fun u => !s.inLanding (convPage (u / 4)) (u % 4))).map (fun u =>
      ((look noTag s.zns.convTags u).seq, convPage (u / 4), u % 4)))

/-- The pages that a list of units covers, each with the codewords listed. -/
def pagesOfUnits (us : List (Nat × Nat × Nat)) : List (Nat × Nat) :=
  (us.map (fun x => x.2.1)).dedup.map (fun p =>
    (p, sumBy (fun k => if us.any (fun x => decide (x.2.1 = p) && decide (x.2.2 = k)) then 2 ^ k else 0) [0, 1, 2, 3]))

/-- Landing rows that are open. -/
def openRows (s : State) : List Nat :=
  (s.fls.landing.filter (fun e => match e.2 with
    | some r => !r.closed
    | Option.none => false)).map (·.1)

/-- Copies units into the landing pool as shadow copies, from the flush reserve where need be, as far as there is room
(R217, R476); the flush copies into new landing rows (R219). -/
def shadow (s : State) (us : List (Nat × Nat × Nat)) (flush : Bool) : State :=
  let a : Landing := { cls := 1, comp := 0, flush := flush, reserve := true, skip := if flush then s.openRows else [] }
  let t := s.placeSome (pagesOfUnits us) a (fun n k => .landing n k)
  (t.closeFront a (fun n k => .landing n k)).getD t

/-- Shadow copies of all dirty data. -/
def shadowAll (s : State) (flush : Bool) : State := s.shadow s.dirtyList flush

/-- Shadow copies of the oldest dirty data until what remains fits the limit in force (R217). -/
def shadowExcess (s : State) : State :=
  let us := s.dirtyList
  let n := us.length - s.plog.limitMib * 256
  if n = 0 then s
  else s.shadow (us.filter (fun x => decide ((us.filter (fun y => decide (y.1 < x.1))).length < n))) false

/-! ### The acknowledged-dirty limit (R168, R216, R217) -/

/-- `d_max` of R216 in steps of 256 MiB, from the capacitance in 0.1 mF, the ESR in mΩ and the bank voltage in 20 mV. -/
def dirtyMaxSteps (cap esr v : Nat) : Nat :=
  let v2 := 4 * (20 * v) * (20 * v)
  let f2 := (24000 + 25 * esr) * (24000 + 25 * esr)
  cap * (v2 - f2) / 108000000000 - 20

/-- The limit in MiB that the bank, the steward's setting, the 20 GiB and the flush reserve allow; below 1 GiB it is 0. -/
def limitFor (s : State) (cap esr v : Nat) : Nat :=
  let steps := min (min s.plog.dirtyCfg 80) (dirtyMaxSteps cap esr v)
  let mib := min (steps * 256) ((s.landingFree * 24 - 2048) * 15 / 16)
  if mib < 1024 then 0 else mib

/-- Puts a limit in force: single path below 1 GiB, with event 0x0602, and shadow copies of what is above it (R217). -/
def setLimit (s : State) (mib : Nat) : State :=
  let s1 := { s with plog := { s.plog with limitMib := mib, singlePath := decide (mib = 0) } }
  let s2 := if mib = 0 ∧ !s.plog.singlePath then
      (s1.event 0x0602 4 srcBank 0 [s1.plog.bankCap, s1.plog.bankEsr]).warning 4 0
    else s1
  s2.shadowExcess

/-- Recomputes the limit from the present voltage once the bank has been measured (R216). -/
def relimit (s : State) : State :=
  if s.plog.bankCap = 0 then s else s.setLimit (s.limitFor s.plog.bankCap s.plog.bankEsr s.plog.vBank)

/-- Where the erased landing space for the flush reserve falls short of what the limit in force needs, the limit is lowered to
what the reserve covers (R168). -/
def reserveCheck (s : State) : State :=
  if s.limitFor s.plog.bankCap s.plog.bankEsr s.plog.vBank < s.plog.limitMib then s.relimit else s

/-! ### Rows of a zone (R159, R163, R165) -/

/-- Issues the 16 programs of row `r` of zone `z`; a member that has failed or whose die is lost is covered by parity
(R137, R159). -/
def issueRow (s : State) (z r cls : Nat) (purpose : Nat → Purpose) : State :=
  let v := s.zone z
  let missing := fun (k : Nat) => v.failed.contains k || match v.members[k]? with
    | some (d, _) => (s.die d).lost
    | Option.none => true
  let mask := sumBy (fun k => if missing k then 2 ^ k else 0) (List.range 16)
  let s1 := s.setRow z r { s.row z r with issued := true, programmed := BitVec.ofNat 16 mask }
  (List.range 16).foldl (fun t k =>
    if missing k then t
    else match v.members[k]? with
      | some (d, b) => (t.layRow z r k d b).enqueue d
          { kind := .progQlc, block := b, page := r * 64, cls := cls, comp := s.zoneComp z, admittedAt := s.now, capWait := false
            flush := false, purpose := purpose k }
      | Option.none => t) s1

/-- Rows of a zone whose data is complete: up to `acked`, or to the data end rounded up for a Finish. -/
def rowsComplete (v : Zone) : Nat :=
  match v.dataEnd with
  | some e => if v.acked < e then v.acked / rowUnits else (e + rowUnits - 1) / rowUnits
  | Option.none => if v.acked = v.cap then (v.acked + rowUnits - 1) / rowUnits else v.acked / rowUnits

/-- Issues the programs of the direct rows of a zone whose data is complete, in ascending order (R159). -/
def issueDirect (s : State) (z cls : Nat) : State :=
  let v := s.zone z
  if !v.direct || v.pinned then s
  else (List.range (rowsComplete v)).foldl (fun t r =>
    if (t.row z r).issued || (t.row z r).qlc then t else t.issueRow z r cls (fun k => .zoneRow z r k)) s

/-- Marks the rows of a landed zone that have become foldable (R163). -/
def markFoldable (s : State) (z before : Nat) : State :=
  let v := s.zone z
  if v.direct then s
  else ((List.range (v.wp / rowUnits)).filter (fun r => decide (before / rowUnits ≤ r))).foldl
    (fun t r => t.setRow z r { t.row z r with foldableAt := t.now }) s

/-- All programs of row `r` of zone `z` that have been issued have started on their dies. -/
def rowStarted (s : State) (z r : Nat) : Bool :=
  s.fls.dies.all (fun e => e.2.queue.all (fun q => match q.purpose with
    | .zoneRow y x _ | .fold y x _ => !(decide (y = z) && decide (x = r))
    | _ => true))

/-- A row of a landed zone may start to fold (R163, R165): its data is complete, it is not pinned, in QLC or folding, and
every row below has started all its programs. -/
def foldable (s : State) (z r : Nat) : Bool :=
  let v := s.zone z
  !v.direct && !(s.row z r).pinned && !(s.row z r).qlc && !(s.row z r).folding
    && decide (r < max (rowsComplete v) (min (v.acked / rowUnits) 96))
    && (List.range r).all (fun q => (s.row z q).qlc || ((s.row z q).issued && s.rowStarted z q))

/-- The active resource of a zone, and a direct zone's front, are released (R60, R69, R602). -/
def releaseActive (s : State) (z : Nat) : State := s.setZone z { s.zone z with active := false, beforeFull := Option.none }

/-- The blocks of a zone leave it for the deferred-erase queues of their dies (R67, R70). -/
def releaseBlocks (s : State) (z : Nat) : State :=
  (s.zone z).members.foldl (fun t m => if (t.block m.1 m.2).use = .zone z then t.deferErase m.1 m.2 .zone else t) s

/-- The blocks of a zone in which nothing was programmed return to the free lists without erase (R71, R213). -/
def returnBlocks (s : State) (z : Nat) : State :=
  (s.zone z).members.foldl (fun t m =>
    if (t.block m.1 m.2).use = .zone z then t.setBlock m.1 m.2 { t.block m.1 m.2 with use := .free } else t) s

/-- Forgets the rows of a zone and its copies in the landing pool, and abandons its relocations (R70, R165). -/
def dropRows (s : State) (z : Nat) : State :=
  let targets := s.fls.relocs.filter (fun r => decide (r.zone = z))
  let kept := (s.fls.rebuild.filter (fun r => decide (r.zone = z))).filterMap (·.target)
  let s1 := { s with
    zns := { s.zns with rows := clearRange s.zns.rows (z * 96) 96
                        unreadable := s.zns.unreadable.filter (fun k => decide (k / 96 ≠ z)) }
    fls := { s.fls with relocs := s.fls.relocs.filter (fun r => decide (r.zone ≠ z))
                        rebuild := s.fls.rebuild.filter (fun r => decide (r.zone ≠ z)) } }
  let s2 := (s1.dropPages (fun p => decide (p < 2 ^ 40) && decide (p / 92160 = z))).unqueue (fun q =>
    match q.purpose with
    | .zoneRow y _ _ => decide (y = z)
    | .fold y _ _ => decide (y = z)
    | _ => false)
  let s3 := kept.foldl (fun t m => t.deferErase m.1 m.2 .zone) s2
  (targets.foldl (fun t r => t.deferErase r.dstDie r.dstBlock .zone) s3).sweepLanding.pinCheck

/-- The zone as it stands when it has become Empty: mode setting kept or cleared by the caller. -/
def emptied (v : Zone) : Zone := { Zone.none with setting := v.setting }

/-- Zone Reset takes effect: Empty, write pointer at the start, blocks to the deferred-erase queues, setting cleared
(R62, R70). -/
def resetZone (s : State) (z : Nat) : State :=
  (((s.releaseBlocks z).dropRows z).dropData z 0).setZone z Zone.none |>.journal

/-- Back to Empty without a reset: blocks return without erase and the setting is kept (R71, R213, R363). -/
def emptyZone (s : State) (z : Nat) : State :=
  let v := s.zone z
  (((s.returnBlocks z).dropRows z).dropData z 0).setZone z (emptied v) |>.journal

/-! ### Flights -/

/-- Writes flight `f` back. -/
def setFlight (s : State) (v : Flight) : State :=
  { s with car := { s.car with flights := s.car.flights.map (fun x => if x.id = v.id then v else x) } }

/-- Rewrites segment `j` of flight `f`. -/
def setSeg (s : State) (f j : Nat) (g : Seg → Seg) : State :=
  match s.flight f with
  | some v => s.setFlight { v with segs := modAt v.segs j g }
  | Option.none => s

/-- A segment needs nothing more. -/
def segDone (g : Seg) : Bool :=
  match g.step with
  | .acked | .released | .dropped => true
  | .waiting | .granted | .dirtyWait | .programming => false

/-- The flight writes a zone or the conventional namespace. -/
def isWrite (k : FlightKind) : Bool :=
  match k with
  | .write | .append | .zeroes | .frameAppend | .convWrite => true
  | _ => false

/-- Bytes moved, for the counters of R351 and the SMART log. -/
def count (s : State) (c read written : Nat) : State :=
  let v := s.comp c
  let (r, w, n) := s.hif.smart
  ({ s with hif := { s.hif with smart := (r + read, w + written, n + 1)
                                compSmart := upd (0, 0) s.hif.compSmart c (fun x => (x.1 + read, x.2 + written)) } }).setComp c
    { v with bytesRead := v.bytesRead + read, bytesWritten := v.bytesWritten + written }

/-- A flight leaves the list and its carriage. -/
def removeFlight (s : State) (v : Flight) : State :=
  let c := s.carriage v.carriage
  let t := { s with car := { s.car with flights := s.car.flights.filter (fun x => decide (x.id ≠ v.id)) } }
  ((if v.ticket.isSome || v.peer.isSome then t
    else t.setCarriage v.carriage { c with outstanding := c.outstanding - 1 }).settleKey).codecLeft v

/-- First LBA of a flight's zone data, for the completion of an append. -/
def flightLba (s : State) (v : Flight) : Nat :=
  match s.space v.cmd.nsid, v.zone with
  | some n, some z => s.zoneSlba n z + v.start / n.unitsPerLba
  | _, _ => 0

/-- Low and high dwords of a 64-bit completion value. -/
def lowDw (n : Nat) : BitVec 32 := BitVec.ofNat 32 n
def highDw (n : Nat) : BitVec 32 := BitVec.ofNat 32 (n / 2 ^ 32)

/-- The answer to a neighbour: a mirrored segment confirmed or refused, a forwarded read with its data (R528, R532). -/
def answerPeer (s : State) (v : Flight) : State :=
  match v.peer, v.zone with
  | some (m, _), some z =>
    if v.kind ≠ .read then s.toPeer m (classRank v.cls) (.mirrorAck m (s.zoneNumber z) v.start v.status.code)
    else s.toPeer m (classRank v.cls) (.forwardedData m (s.zoneNumber z) v.start (decide (v.status = .success))
      (if v.status = .success then v.data else []))
  | _, _ => s

/-- The completion entry of a flight: an append returns the LBA it was given (R72); none is written for a squashed
command (R361); a Frame Append its record's offset and length, and its header (R248, R249); a Select All command completes with success with the last of its zones (R73). -/
def postFlight (s : State) (v : Flight) : State :=
  if v.squashed then s
  else if v.peer.isSome then s.answerPeer v
  else if v.group then
    if s.car.flights.any (fun x => x.group && decide (x.cmd = v.cmd) && decide (x.id ≠ v.id)) then s else s.done v.cmd 0
  else if v.ticket.isSome then s.answerOps (fun o => decide (o = .zone v.id)) v.status.code
  else match v.kind with
    | .append =>
      let a := if v.status = .success then s.flightLba v else 0
      s.complete v.cmd v.status (lowDw a) (highDw a)
    | .frameAppend =>
      if v.status = .success then
        let per := match s.space v.cmd.nsid with
          | some n => n.unitsPerLba
          | Option.none => 1
        (s.emit (.data v.cmd (v.data.take 64))).complete v.cmd .success (lowDw (v.start / per)) (lowDw (leAt v.data 44 4 + 64))
      else s.fail v.cmd v.status
    | _ => s.complete v.cmd v.status 0 0

/-- A write flight ends: its completion, its counters, and the resources of a zone that it made Full (R602). -/
def endWrite (s : State) (v : Flight) : State :=
  let s1 := (s.removeFlight v).postFlight v
  let s2 := if v.status = .success ∧ v.peer = Option.none then s1.count v.cmd.comp 0 (v.len * 4096) else s1
  match v.zone with
  | some z =>
    let w := s2.zone z
    if w.state = .full ∧ w.dataEnd = Option.none ∧ v.status = .success ∧ v.start + v.len = w.cap then s2.releaseActive z
    else s2
  | Option.none => s2.dropPages (isOwn v.id)

/-- Merges acknowledged runs into the acknowledged end of a zone (R75). -/
def mergeRuns : Nat → Nat → List (Nat × Nat) → Nat × List (Nat × Nat)
  | 0, a, rs => (a, rs)
  | n + 1, a, rs =>
    match rs.find? (fun r => decide (r.1 ≤ a) && decide (a < r.2)) with
    | some r => mergeRuns n r.2 (rs.filter (fun x => decide (x ≠ r)))
    | Option.none => (a, rs.filter (fun x => decide (a < x.2)))

/-- Records that units `[a, b)` of a zone are acknowledged; direct rows that are complete are issued. -/
def ackUnits (s : State) (z a b cls : Nat) : State :=
  let v := s.zone z
  let (e, rs) := mergeRuns (v.runs.length + 1) v.acked (v.runs ++ [(a, b)])
  (s.setZone z { v with acked := e, runs := rs }).issueDirect z cls

/-! ### What does not take effect (R423, R602) -/

/-- Leaves Full without the checks of R65, to the open state held before (R602). -/
def unFull (v : Zone) : Zone :=
  match v.beforeFull with
  | some st => if v.state = .full then { v with state := st, beforeFull := Option.none } else v
  | Option.none => v

/-- Drops the segments of a flight from index `j` on: their staging goes back and queued programs are withdrawn. -/
def dropSegs (s : State) (v : Flight) (j : Nat) : State :=
  let held := (v.segs.mapIdx (fun i g => (i, g))).filter (fun x => decide (j ≤ x.1))
  let kept := s.car.staged.filter (fun x => decide (x.flight = v.id) && decide (j ≤ x.seg))
  let s0 := held.foldl (fun t x => match x.2.buffer with
    | some h => t.giveSeg h false
    | Option.none => t) s
  let s1 := kept.foldl (fun t x => t.giveSeg x.buffer false)
    { s0 with car := { s0.car with staged := s0.car.staged.filter (fun x => !kept.contains x) } }
  let s2 := s1.unqueue (fun q => match q.purpose with
    | .segment f i _ _ => decide (f = v.id) && decide (j ≤ i)
    | _ => false)
  s2.setFlight { v with segs := v.segs.mapIdx (fun i g => if j ≤ i then { g with step := .dropped, buffer := Option.none } else g) }

/-- Moves a zone's write pointer back to unit `u`: data, acknowledgements and landing copies beyond it go (R602). -/
def rollBack (s : State) (z u : Nat) : State :=
  let v := unFull (s.zone z)
  let s1 := s.setZone z { v with wp := if v.dataEnd.isSome then v.wp else u, dataEnd := v.dataEnd.map (min u), acked := min v.acked u,
                                 runs := (v.runs.filter (fun r => decide (r.1 < u))).map (fun r => (r.1, min r.2 u)) }
  (s1.dropData z u).dropPages (fun p => decide (p < 2 ^ 40) && decide (p / 92160 = z) && decide ((u + 3) / 4 ≤ p % 92160))

/-- Write flights admitted to a zone after flight `f`, in order. -/
def laterWrites (s : State) (z f : Nat) : List Flight :=
  s.car.flights.filter (fun x => isWrite x.kind && decide (x.zone = some z) && decide (f < x.id))

/-- A write to a zone stops taking effect at unit `u` of the zone: its segments from `j` on are dropped, the write pointer
moves back, and every later write to the zone completes with Zone Invalid Write (R602). -/
def failWrite (s : State) (v : Flight) (j u : Nat) (st : Status) : State :=
  match v.zone with
  | Option.none => s.dropSegs { v with status := st } j
  | some z =>
    let s1 := (s.dropSegs { v with status := st } j).rollBack z u
    (s1.laterWrites z v.id).foldl (fun t w =>
      let w' := { w with status := .zoneInvalidWrite, segs := w.segs }
      match (t.dropSegs w' 0).flight w.id with
      | some w'' => (t.dropSegs w' 0).endWrite w''
      | Option.none => t) s1

/-- An earlier write to the same zone is still in flight: commands of one zone take effect in admission order (R362,
R602). -/
def behind (s : State) (v : Flight) : Bool :=
  v.zone.isSome && s.car.flights.any (fun x => isWrite x.kind && decide (x.zone = v.zone) && decide (x.id < v.id))

/-- Completes the write flights whose segments are all done and that no earlier write to their zone holds back, at most
`n` of them. -/
def settleReady : Nat → State → Option Nat → State
  | 0, s, _ => s
  | n + 1, s, zone =>
    match s.car.flights.find? (fun v => isWrite v.kind && decide (v.zone = zone) && v.segs.all segDone && !s.behind v) with
    | some v => settleReady n (s.endWrite v) zone
    | Option.none => s

/-- Completes the writes to a zone, or to the conventional namespace, that can complete. -/
def settleWrites (s : State) (zone : Option Nat) : State := settleReady s.car.flights.length s zone

/-- Settles the writes beside flight `f`. -/
def settleWrite (s : State) (f : Nat) : State :=
  match s.flight f with
  | some v => s.settleWrites v.zone
  | Option.none => s

/-! ### Zone management in flight (R69, R70) -/

/-- Earlier commands of the zone are done: nothing admitted before flight `v` still writes the zone. -/
def clearBefore (s : State) (v : Flight) (z : Nat) : Bool :=
  s.car.flights.all (fun x => !decide (x.id < v.id) || !decide (x.zone = some z) ||
    !(isWrite x.kind || decide (x.kind = .reset) || decide (x.kind = .finish)))

/-- Every row of a finished zone stands in its QLC blocks, or is pinned. -/
def finished (s : State) (z : Nat) : Bool :=
  let v := s.zone z
  (List.range (rowsComplete v)).all (fun r => (s.row z r).qlc || (s.row z r).pinned) &&
    decide (v.acked = v.dataEnd.getD v.acked)

/-- The Finish of a zone completes once its rows are programmed: active resource and front released (R69). On a mirrored
zone both wait for the mirror first (R529). -/
def settleZone (s : State) (z : Nat) : State :=
  match s.car.flights.find? (fun x => decide (x.zone = some z) && (decide (x.kind = .reset) || decide (x.kind = .finish))
      && !x.mirrorWait && s.clearBefore x z) with
  | Option.none => s
  | some v =>
    if v.kind = .reset then ((s.resetZone z).removeFlight v).postFlight v
    else if s.finished z then
      ((((s.setZone z { s.zone z with finishing := false }).releaseActive z).journal).removeFlight v).postFlight v
    else s

/-- Settles a zone's waiting management commands, one after the other. -/
def settleZones (s : State) (z : Nat) : State := (s.settleZone z).settleZone z

/-! ### The conventional namespace in the landing share (R94, R95, R98) -/

/-- Slot that holds unit `u` of the conventional region, and the unit within it (R94). -/
def convPlace (s : State) (u : Nat) : Nat × Nat :=
  let o := u / zoneCapUnits
  (o / s.zns.carved * 5000 + s.slots + o % s.zns.carved, u % zoneCapUnits)

/-- Units of the landing share: an eighth of the landing pool (R95). -/
def shareUnits (s : State) : Nat := s.landingTotal * 6144 / 8

/-- The first index of the landing share that no map entry holds. -/
def shareIndex (s : State) : Nat :=
  let used := (s.zns.convMap.filter (fun e => decide (2 ^ 31 ≤ e.2.toNat))).map (fun e => e.2.toNat - 2 ^ 31)
  ((List.range (used.length + 1)).find? (fun i => !used.contains i)).getD used.length

/-- Row of the conventional region that a map entry lies in, at slot × 96 + row. -/
def convRowOf (s : State) (e : Nat) : Nat :=
  let (z, u) := s.convPlace e
  z * 96 + u / rowUnits

/-- A conventional unit leaves the place its map entry names: the landing share, or a stripe row of the region. -/
def convLeave (s : State) (u : Nat) : State :=
  let e := (look 0xFFFFFFFF s.zns.convMap u).toNat
  if e = 0xFFFFFFFF ∨ e = 0xFFFFFFFE then s
  else if 2 ^ 31 ≤ e then
    ({ s with zns := { s.zns with convShare := s.zns.convShare - 1, convPend := s.zns.convPend.filter (fun x => decide (x ≠ u)) } })
  else { s with zns := { s.zns with convRows := upd 0 s.zns.convRows (s.convRowOf e) (fun n => n - 1) } }

/-- Removes a conventional unit from the landing pages that hold it. -/
def convUnland (s : State) (u : Nat) : State :=
  let p := convPage (u / 4)
  let cut := fun (x : Nat × Nat) => if x.1 = p ∧ x.2 / 2 ^ (u % 4) % 2 = 1 then (x.1, x.2 - 2 ^ (u % 4)) else x
  let dead := fun (x : Nat × Nat) => if livePage x then x else deadPage
  { s with fls := { s.fls with landing := s.fls.landing.map (fun e => (e.1, e.2.map (fun (r : LandRow) =>
      { r with
        units := r.units.map (fun w => if w.pages.isEmpty then w else
          { w with pages := w.pages.map (fun x => dead (cut x)), valid := w.valid && (w.pages.map cut).any livePage })
        front := (r.front.map cut).filter livePage }))) } }

/-- Unmaps a conventional unit (R98). -/
def convUnmap (s : State) (u : Nat) : State :=
  let t := (s.convLeave u).convUnland u
  { t with zns := { t.zns with convMap := put 0xFFFFFFFF t.zns.convMap u 0xFFFFFFFF } }

/-- Maps a conventional unit into the landing share; it counts as dirty until its landing unit is programmed (R95, R216). -/
def convLand (s : State) (u : Nat) : State :=
  let t := (s.convLeave u).convUnland u
  { t with zns := { t.zns with
      convMap := put 0xFFFFFFFF t.zns.convMap u (BitVec.ofNat 32 (2 ^ 31 + t.shareIndex))
      convShare := t.zns.convShare + 1
      convPend := t.zns.convPend ++ [u] } }

/-- A landing row holds codeword `cw` of conventional page `p` for flight `f`. -/
def ownHeld (s : State) (f p cw : Nat) : Bool := (s.findPage (fun _ => true) (fun _ => true) (ownPage f p) cw).isSome

/-- The landing pages of flight `f` that cover nothing but units `[a, b)` become pages of the conventional map. -/
def adoptPages (s : State) (f a b : Nat) : State :=
  let inside := fun (p m : Nat) => [0, 1, 2, 3].all (fun k => decide (m / 2 ^ k % 2 = 0) ||
    (decide (a ≤ p * 4 + k) && decide (p * 4 + k < b)))
  let page := fun (x : Nat × Nat) =>
    if isOwn f x.1 && inside (x.1 % 2 ^ 41) x.2 then (convPage (x.1 % 2 ^ 41), x.2) else x
  { s with fls := { s.fls with landing := s.fls.landing.map (fun e => (e.1, e.2.map (fun (r : LandRow) =>
      { r with units := r.units.map (fun w => { w with pages := w.pages.map page }), front := r.front.map page }))) } }

/-- A segment of a conventional write is acknowledged: the map entry, the bytes and the tag of each of its units (R95); a
unit that the segment has programmed is not dirty (R216). -/
def convCommit (s : State) (v : Flight) (g : Seg) : State :=
  let a := v.start + g.off
  let s1 := (List.range g.len).foldl (fun (t : State) i =>
    let u := a + i
    let held := t.ownHeld v.id (u / 4) (u % 4)
    let t1 := t.convLand u
    { t1 with zns := { t1.zns with
        convPend := if held then t1.zns.convPend.filter (fun x => decide (x ≠ u)) else t1.zns.convPend
        convData := writeBytes t1.zns.convData (u * 4096) ((g.data.drop (i * 4096)).take 4096)
        convTags := put noTag t1.zns.convTags u { seq := g.seq + u / 4 - a / 4, time := v.admittedAt, key := v.key } } }) s
  s1.adoptPages v.id a (a + g.len)

/-! ### Stripe rows of the conventional region (R95, R96) -/

/-- Unit of the conventional region at unit `u` of carved slot `z` (R94). -/
def convUnitAt (s : State) (z u : Nat) : Nat :=
  (z / 5000 * s.zns.carved + (z % 5000 - s.slots)) * zoneCapUnits + u

/-- A unit that still stands in the landing share as it did when its copy began moves to its place in stripe row `k`. -/
def convMove (s : State) (k : Nat) (m : Nat × Nat × Nat) : State :=
  let e := (look 0xFFFFFFFF s.zns.convMap m.1).toNat
  if e < 2 ^ 31 ∨ 0xFFFFFFFE ≤ e ∨ (look noTag s.zns.convTags m.1).seq ≠ m.2.1 then s
  else
    let t := (s.convLeave m.1).convUnland m.1
    { t with zns := { t.zns with
        convMap := put 0xFFFFFFFF t.zns.convMap m.1 (BitVec.ofNat 32 (t.convUnitAt (k / 96) (k % 96 * rowUnits + m.2.2)))
        convRows := upd 0 t.zns.convRows k (· + 1) } }

/-- A stripe row of the conventional region that is being filled. -/
def convFill (s : State) (k : Nat) : Option ConvFill := s.zns.convFills.find? (fun f => decide (f.row = k))

/-- All 16 members of a conventional stripe row are programmed: the row counts as filled, and the map entries of its units
switch to it (R95). -/
def convSwitch (s : State) (f : ConvFill) : State :=
  let t := { s with zns := { s.zns with convFills := s.zns.convFills.filter (fun g => decide (g.row ≠ f.row))
                                        convRows := put 0 s.zns.convRows f.row 1 } }
  (f.moves.foldl (fun u m => u.convMove f.row m) t).sweepLanding

/-- Member `k` of a conventional stripe row is programmed, or covered by its parity; the 16th switches the row. -/
def convProgrammed (s : State) (row k : Nat) : State :=
  match s.convFill row with
  | Option.none => s
  | some f =>
    let g := { f with programmed := f.programmed ||| BitVec.ofNat 16 (2 ^ k) }
    if g.programmed = 0xFFFF then s.convSwitch g
    else { s with zns := { s.zns with convFills := s.zns.convFills.map (fun x => if x.row = row then g else x) } }

/-! ### Programs that end (R148, R159, R161) -/

/-- An acknowledged segment keeps its staging buffer until it is released (R386). -/
def stageSeg (s : State) (v : Flight) (j : Nat) (g : Seg) : State :=
  match g.buffer with
  | some h => { s with car := { s.car with staged := s.car.staged ++
      [{ flight := v.id, seg := j, zone := v.zone, start := v.start + g.off, len := g.len, cls := v.cls, comp := v.cmd.comp,
         buffer := h }] } }
  | Option.none => s

/-- Acknowledges segment `j` of a flight at its acknowledgement point, and completes the command with its last segment
(R113 to R115); a segment of a mirrored write waits for the mirror first (R529). -/
def ackSeg (s : State) (f j : Nat) : State :=
  match s.flight f with
  | Option.none => s
  | some v =>
    match v.segs[j]? with
    | Option.none => s
    | some g =>
      if v.mirrorWait && !g.mirrored then s
      else
        let s1 := (s.setSeg f j (fun g => { g with step := .acked, buffer := Option.none, data := [] })).stageSeg v j g
        let s2 := match v.zone with
          | some z => s1.ackUnits z (v.start + g.off) (v.start + g.off + g.len) v.cls
          | Option.none => s1.convCommit v g
        let s3 := s2.settleWrite f
        match v.zone with
        | some z => s3.settleZones z
        | Option.none => s3

/-- No program of segment `j` of flight `f` waits or runs any more. -/
def segPrograms (s : State) (f j : Nat) : Bool :=
  let mine := fun (p : Purpose) => match p with
    | .segment f' j' _ _ => decide (f' = f) && decide (j' = j)
    | _ => false
  s.fls.dies.all (fun e => e.2.queue.all (fun q => !mine q.purpose) && match e.2.op with
    | some o => !mine o.entry.purpose
    | Option.none => true)

/-- Landing unit `k` of row `r` holds copies of `ps` now: the units that held those pages before are invalid as far as it
holds them (R162). -/
def supersede (s : State) (r k : Nat) (ps : List (Nat × Nat)) : State :=
  let cut := fun (x : Nat × Nat) => match ps.find? (fun p => decide (p.1 = x.1)) with
    | some p => (x.1, x.2 &&& (15 ^^^ p.2))
    | Option.none => x
  let old := fun (u : LandUnit) =>
    let left := u.pages.map (fun x => if livePage (cut x) then cut x else deadPage)
    if u.pages.isEmpty || !u.programmed then u else { u with pages := left, valid := u.valid && left.any livePage }
  { s with fls := { s.fls with landing := s.fls.landing.map (fun e => (e.1, e.2.map (fun (w : LandRow) =>
      { w with units := w.units.mapIdx (fun i u => if e.1 = r ∧ i = k then u else old u) }))) } }

/-- Landing unit `k` of row `r` is programmed: its conventional units are no longer dirty, and it takes the place of the units
whose pages it copied. -/
def unitDone (s0 : State) (r k : Nat) : State :=
  let s := match s0.landRow r with
    | some row => match row.units[k]? with
      | some u => s0.supersede r k u.pages
      | Option.none => s0
    | Option.none => s0
  match s.landRow r with
  | Option.none => s
  | some row =>
    let ps := match row.units[k]? with
      | some u => u.pages
      | Option.none => []
    let conv := ps.flatMap (fun p => if 2 ^ 40 ≤ p.1 then
      ([0, 1, 2, 3].filter (fun i => decide (p.2 / 2 ^ i % 2 = 1))).map (fun i => (p.1 - 2 ^ 40) * 4 + i) else [])
    ({ s with zns := { s.zns with convPend := s.zns.convPend.filter (fun u => !conv.contains u) } }).setLandRow r
      (some { row with units := modAt row.units k (fun u => { u with programmed := true }) })

/-- What a completed program settles, by its purpose. -/
def settleProgram (s : State) (p : Purpose) : State :=
  match p with
  | .zoneRow z r k | .fold z r k =>
    s.setRow z r { s.row z r with programmed := (s.row z r).programmed ||| BitVec.ofNat 16 (2 ^ k) }
  | .landing r k => s.unitDone r k
  | .segment f j r k =>
    let t := s.unitDone r k
    if t.segPrograms f j then t.ackSeg f j else t
  | .reloc i => { s with fls := { s.fls with relocs := s.fls.relocs.map (fun x => if x.id = i then { x with copied := x.copied + 1 } else x) } }
  | .reel i n => s.settleOp i n (answer 0 0)
  | .store => s.storeProgrammed
  | .conventional row k => s.convProgrammed row k
  | .journal => s.journalProgrammed
  | .checkpoint => s.ckptProgrammed
  | .hostRead _ _ | .around _ _ | .erase _ | .patrol => s

/-- The first die with a program that runs, or that waits and that `f` names. -/
def firstProgram (s : State) (f : QEntry → Bool) : Option (Nat × QEntry) :=
  let waits := fun (d : Nat) (v : Die) => (v.queue.find? (fun q => isProgram q.kind && f q)).map (fun q => (d, q))
  s.fls.dies.findSome? (fun e => match e.2.op with
    | some o => if isProgram o.entry.kind then some (e.1, o.entry) else waits e.1 e.2
    | Option.none => waits e.1 e.2)

/-- Programs that run, and of those that wait the ones that `f` names, run to completion: at most `n` of them. -/
def drainPrograms (f : QEntry → Bool) : Nat → State → State
  | 0, s => s
  | n + 1, s =>
    match s.firstProgram f with
    | Option.none => s
    | some (d, q) =>
      let v := s.die d
      let running := match v.op with
        | some o => decide (o.entry = q)
        | Option.none => false
      let s1 := if running then s.setDie d { v with op := Option.none, starved := false }
        else (s.setDie d { v with queue := v.queue.erase q }).noteStart d q
      drainPrograms f n (s1.settleProgram q.purpose)

/-- Programs running and waiting. -/
def programCount (s : State) : Nat :=
  sumBy (fun (e : Nat × Die) => (e.2.queue.filter (fun q => isProgram q.kind)).length + (match e.2.op with
    | some o => if isProgram o.entry.kind then 1 else 0
    | Option.none => 0)) s.fls.dies

/-- Every program that runs or waits runs to completion. -/
def programsDone (s : State) : State := drainPrograms (fun _ => true) s.programCount s

/-- Every program that runs, and of those that wait the ones that `f` names, runs to completion. -/
def programsOf (s : State) (f : QEntry → Bool) : State := drainPrograms f s.programCount s

/-! ### Commands that end early (R361, R434, R489, R602) -/

/-- Withdraws the senses of a flight that wait for a die. -/
def dropSenses (s : State) (f : Nat) : State :=
  s.unqueue (fun q => match q.purpose with
    | .hostRead g _ => decide (g = f)
    | .around g _ => decide (g = f)
    | _ => false)

/-- A write fails at segment `j`: it takes no effect from there on (R602); a Frame Append takes none at all, and the zone is left
in the state it was in (R250). -/
def failSegment (s : State) (v : Flight) (j : Nat) (st : Status) : State :=
  let off := match v.segs[j]? with
    | some g => g.off
    | Option.none => 0
  if v.kind = .frameAppend then
    let t := s.failWrite v 0 v.start st
    match v.zone, v.opened with
    | some z, some was =>
      if (t.zone z).state ≠ .implicitOpen then t
      else if was = .empty then t.emptyZone z
      else t.setZone z { t.zone z with state := was }
    | _, _ => t
  else s.failWrite v j (v.start + off) st

/-- Ends a flight with a status: a write takes no effect from its first segment that is not done, and every other command
simply ends. -/
def killFlight (s : State) (v : Flight) (st : Status) : State :=
  if isWrite v.kind then
    match v.segs.findIdx? (fun g => !segDone g) with
    | Option.none => s
    | some j =>
      let t := (s.failSegment v j st).settleWrites v.zone
      match v.zone with
      | some z => t.settleZones z
      | Option.none => t
  else
    let t := ((s.dropSenses v.id).removeFlight v).postFlight { v with status := st }
    match v.zone with
    | some z => t.settleZones z
    | Option.none => t

end State

end Sys2Proof.Machine
end

