-- ==== Sys2Proof/Machine/CarOps.lean ====
section
/-! DEFINITION. The carriage table: its words, coupling, replacement and uncoupling (R101 to R112, R301, R597). -/

namespace Sys2Proof.Machine

/-- Word `w` of a carriage entry (R102 to R105). -/
def carriageWord (c : Carriage) (w : Nat) : Nat :=
  let flag := fun (b : Bool) (i : Nat) => if b then 2 ^ i else 0
  match w with
  | 0 => flag c.coupled 0 + c.handleType % 4 * 2 + c.handle % 2 ^ 24 * 2 ^ 8 + c.comp % 1024 * 2 ^ 32 + c.readClass % 4 * 2 ^ 42
    + c.writeClass % 4 * 2 ^ 44 + flag c.twin 46 + flag c.encrypt 47 + flag c.codec 48
  | 1 => c.keySlot % 2048 + c.codecCtx % 2048 * 2 ^ 16 + c.owner % 4096 * 2 ^ 32 + c.dmaGroups.toNat * 2 ^ 48
  | 2 => c.generation.toNat + c.nsid % 2 ^ 32 * 2 ^ 32
  | _ => c.outstanding % 2 ^ 24 + flag c.draining 24

/-- The entry that a descriptor describes; what it says of `coupled` and `generation` is ignored (R301). -/
def ofDescriptor (w0 w1 w2 : Nat) : Carriage :=
  { coupled := false, handleType := bits w0 1 2, handle := bits w0 8 24, comp := bits w0 32 10, readClass := bits w0 42 2
    writeClass := bits w0 44 2, twin := w0.testBit 46, encrypt := w0.testBit 47, codec := w0.testBit 48
    keySlot := bits w1 0 11, codecCtx := bits w1 16 11, owner := bits w1 32 12, dmaGroups := BitVec.ofNat 16 (w1 / 2 ^ 48)
    generation := 0, nsid := bits w2 32 32, outstanding := 0, draining := false }

/-- A descriptor is malformed (R597, detail 7). -/
def badDescriptor (w0 w1 w2 : Nat) : Bool :=
  let c := ofDescriptor w0 w1 w2
  decide (c.handleType = 3) || decide (c.readClass = 3) || decide (c.writeClass = 3) ||
    decide (bits w0 3 5 ≠ 0) || decide (bits w0 49 15 ≠ 0) || decide (bits w1 11 5 ≠ 0) || decide (bits w1 27 5 ≠ 0) ||
    decide (bits w1 44 4 ≠ 0) || decide (bits w2 16 16 ≠ 0) ||
    (decide (c.handleType = 1) && decide (128 ≤ c.handle)) || (decide (c.handleType = 2) && decide (c.handle ≠ 0)) ||
    decide (c.dmaGroups.toNat % 256 = 0) || decide (c.dmaGroups.toNat / 256 = 0)

namespace State

/-- The entry is coupled or draining. -/
def carBusy (s : State) (n : Nat) : Bool := (s.carriage n).coupled || (s.carriage n).draining

/-- The lowest free index of the carriage table (R109). -/
def freeCarriage (s : State) : Option Nat :=
  let n := (List.range (s.car.table.length + 1)).find? (fun i => !s.carBusy i)
  match n with
  | some i => if i < 32768 then some i else none
  | none => none

/-- The compartment and the NSID of a handle that exists (R597). -/
def handleHolder (s : State) (ty h : Nat) : Option (Nat × Nat) :=
  let ofGroup := fun (p : Nat) => match s.pgroup p with
    | some g => g.nsid.map (fun n => (g.comp, n))
    | none => none
  match ty with
  | 0 => if s.zoneExists h then (s.groupPgroup (h / 5000)).bind ofGroup else none
  | 1 => ofGroup h
  | 2 => s.convSpace.map (fun e => (e.2.comp, e.1))
  | _ => none

/-- What a coupling ends in: a trap, a status, or the table index it took. -/
inductive Coupled where
  | trap (code detail : Nat)
  | status (st : Nat)
  | at_ (index : Nat)
deriving DecidableEq, Repr

/-- The checks of R109 and R597 in their order, for a reel of compartment `who`; an empty key slot fails check 5 (R558). In the
Parked state no carriage is coupled (R41): no handle is there to couple to. Detail 7 goes before detail 5, and a draining
carriage does not hold its handle (log 163). -/
def coupleCheck (s : State) (w0 w1 w2 : Nat) (replace : Bool) (who : Nat) : Coupled :=
  let c := ofDescriptor w0 w1 w2
  if c.codec && !s.part.codec then .trap 0x03 0
  else if badDescriptor w0 w1 w2 then .trap 0x08 7
  else if decide (who ≠ 0 ∧ c.comp ≠ who) || decide (c.owner < 16) then .trap 0x08 5
  else match s.freeCarriage with
    | none => .status 1
    | some i =>
      if s.parked || s.handleHolder c.handleType c.handle ≠ some (c.comp, c.nsid) then .status 2
      else if !replace && s.car.table.any (fun e => e.2.coupled && !e.2.draining && decide (e.2.handleType = c.handleType) &&
          decide (e.2.handle = c.handle)) then .status 3
      else if c.encrypt && !((decide (c.keySlot = c.comp) && decide (1 ≤ c.keySlot ∧ c.keySlot ≤ 1023)) ||
          (decide (c.comp = 0) && decide (1025 ≤ c.keySlot ∧ c.keySlot ≤ 1038))) then .status 4
      else if c.encrypt && decide (look 0 s.sec.keys c.keySlot = 0) then .status 4
      else if c.codec && decide (c.handleType = 2) then .status 5
      else if (s.owner c.owner).map (·.comp) ≠ some c.comp then .status 6
      else if c.readClass < (s.comp c.comp).res.cls ∨ c.writeClass < (s.comp c.comp).res.cls then .status 7
      else if s.frozen c.comp then .status 8
      else .at_ i

/-- A coupling takes effect at index `i`; the carriage it replaces drains (R110, R111). -/
def couple (s : State) (i w0 w1 w2 : Nat) : State :=
  let c := ofDescriptor w0 w1 w2
  let s1 := { s with car := { s.car with table := s.car.table.map (fun (e : Nat × Carriage) =>
    if e.2.coupled ∧ e.2.handleType = c.handleType ∧ e.2.handle = c.handle then (e.1, { e.2 with draining := true }) else e) } }
  s1.setCarriage i { c with coupled := true, generation := (s.carriage i).generation + 1 }

/-- An uncoupling completes: the entry keeps its other fields, and the instructions that waited for it end (R40, R112,
R301). -/
def uncoupleNow (s : State) (i : Nat) : State :=
  (s.setCarriage i { s.carriage i with coupled := false, draining := false }).answerOps (fun o => decide (o = .uncouple i)) 0

end State

end Sys2Proof.Machine
end

