-- ==== Sys2Proof/Machine/Flags.lean ====
section
/-! DEFINITION. The condition flags of a reel context: what each kind of result writes, and when a condition holds
(R266, R286 to R289, R292). -/

namespace Sys2Proof.Machine

/-- z and n from a result; c and v unchanged. -/
def flagsZN (f : KFlags) (r : Word) : KFlags := { f with z := decide (r = 0), n := r.msb }

/-- z from a result; the rest unchanged. -/
def flagsZ (f : KFlags) (r : Word) : KFlags := { f with z := decide (r = 0) }

/-- z and n from a result; c and v cleared. -/
def flagsLogic (r : Word) : KFlags := { z := decide (r = 0), n := r.msb, c := false, v := false }

/-- All four flags of a sum: c the carry out of bit 63, v signed overflow. -/
def flagsAdd (x y : Word) : KFlags :=
  { z := decide (x + y = 0), n := (x + y).msb, c := decide (2 ^ 64 ≤ x.toNat + y.toNat)
    v := decide (x.msb = y.msb ∧ (x + y).msb ≠ x.msb) }

/-- All four flags of a difference: c 1 where there is no borrow, v signed overflow. -/
def flagsSub (x y : Word) : KFlags :=
  { z := decide (x - y = 0), n := (x - y).msb, c := decide (y.toNat ≤ x.toNat)
    v := decide (x.msb ≠ y.msb ∧ (x - y).msb ≠ x.msb) }

/-- z and n from a quotient or remainder, v where the divisor is 0. -/
def flagsDiv (f : KFlags) (r y : Word) : KFlags := { f with z := decide (r = 0), n := r.msb, v := decide (y = 0) }

/-- The condition of a code 0 to 10 holds (R289). -/
def condHolds (f : KFlags) (code : Nat) : Bool :=
  match code with
  | 0 => true
  | 1 => f.z
  | 2 => !f.z
  | 3 => f.c
  | 4 => !f.c
  | 5 => f.n != f.v
  | 6 => f.n == f.v
  | 7 => !f.z && (f.n == f.v)
  | 8 => f.z || (f.n != f.v)
  | 9 => f.c && !f.z
  | 10 => !f.c || f.z
  | _ => false

end Sys2Proof.Machine
end

