-- ==== Sys2Proof/Machine/Reel.lean ====
section
/-! DEFINITION. What every Krytfer instruction shares: issue from a ready context, traps in their one order, retirement, the
three classes with the journal and tickets, and the end of a reel (R268, R274 to R283, R292, R293, R325 to R327). -/

namespace Sys2Proof.Machine

/-- A trap that applies where its condition holds: code and detail (R282). -/
abbrev TrapIf := Bool × Nat × Nat

/-- The first trap that applies, in the order given (R283). -/
def firstTrap (ts : List TrapIf) : Option (Nat × Nat) := (ts.find? (fun t => t.1)).map (·.2)

/-- Source of a caller in event records (R43). -/
def srcCaller (c : Nat) : Nat := src 0x6 (c / 4)

/-- Region of a caller: the caller of context index `c` (R19). -/
def ctxRegion (c : Nat) : Nat :=
  if c / 4 < 16 then 0 else if c / 4 < 32 then 1 else if c / 4 < 34 then 0 else 1

namespace State

/-- Rewrites the context at index `c`. -/
def modK (s : State) (c : Nat) (f : KCtx → KCtx) : State :=
  match s.kctx c with
  | none => s
  | some k => s.setKctx c (some (f k))

/-- Rewrites the running instance `i`. -/
def modInst (s : State) (i : Nat) (f : KInst → KInst) : State :=
  match s.kinst i with
  | none => s
  | some x => s.setKinst i (some (f x))

/-! ### Issue (R268, R270 to R272, R333) -/

/-- Pinned bytes of an image, in whole lines of 4 KiB. -/
def pinnedBytes (n : Nat) : Nat := (n + 4095) / 4096 * 4096

/-- Bytes pinned in each half of the cache. -/
def pinnedTotal (s : State) : Nat := sumBy (fun e => match e.2 with
  | some x => pinnedBytes x.length
  | Option.none => 0) s.kry.pinned

/-- Lines of the reel cache's half of region `r` that hold lines filled on demand: instance and line (R313). -/
def demandLines (s : State) (r : Nat) : List (Nat × Nat) :=
  s.kry.insts.flatMap (fun e => match e.2 with
    | some i => if i.source ≠ 1 ∧ ctxRegion i.ctx = r then i.lines.map (fun l => (e.1, l)) else []
    | none => [])

/-- Lines that each half has beside its pinned images. -/
def demandRoom (s : State) : Nat := (16777216 - s.pinnedTotal) / 4096

/-- One line gives way, none of those just filled. DESIGN CHOICE (log 171): the manual names no rule for which; it is free. -/
def evictLine (s : State) (r : Nat) (just : List (Nat × Nat)) : State :=
  let ls := (s.demandLines r).filter (fun x => !just.contains x)
  match ls[Config.freeNat s.free % ls.length]? with
  | some (n, l) => (s.modInst n (fun i => { i with lines := i.lines.filter (fun y => decide (y ≠ l)) })).draw
  | none => s

/-- Lines give way until the half of region `r` holds what it has room for (R313). -/
def makeRoom (s : State) (r : Nat) (just : List (Nat × Nat)) : State :=
  (List.range ((s.demandLines r).length - s.demandRoom)).foldl (fun t _ => t.evictLine r just) s

/-- A reel may issue: the logic is awake and no entry has reached the step in which contexts halt, once their tickets have
settled (R476). -/
def mayIssue (s : State) (k : KCtx) : Bool :=
  s.awake && (match s.pwr.pstate with
    | .entering _ n => decide (n < 2) || k.tickets.any (fun t => t.done.isNone)
    | _ => true)

/-- A context issues an instruction other than WAIT, or leaves WAIT: its caller's clock runs, and that is activity (R34,
R474). -/
def reelIssues (s : State) (c : Nat) : State := (s.startClock (96 + c / 4)).activity

/-- The instruction word at `pc`. -/
def fetched (k : KCtx) : Nat := leNat (readBytes k.image k.pc 8)

/-- The context issues this instruction next: it is ready, and the word at `pc`, in a resident line, is the instruction;
where `pc` has left the code area, whatever is issued traps. -/
def issues (s : State) (op : Nat) (w : KWord) : Bool :=
  match s.kctx w.ctx with
  | none => false
  | some k => match s.kinst k.inst with
    | none => false
    | some i =>
      s.mayIssue k && decide (k.wait = .ready) &&
        ((codeTraps k k.pc).any (·.1) || (i.lines.contains (k.pc / 4096) && decide (fetched k = wordOf op w)))

/-- Traps that come before those of the instruction itself: 0x04, then the budget, then its form and its `pc` (R283). -/
def baseTraps (s : State) (k : KCtx) (free : Bool) (bad : Bool) : List TrapIf :=
  [(s.mem.bad.any (fun x => match x with
      | .image i o => decide (i = k.inst) && decide (o / 8 = k.pc / 8)
      | _ => false), 0x04, 0),
   (!free && decide (k.budget < k.count + 1), 0x07, 0)] ++ codeTraps k k.pc ++ [(bad, 0x01, 1)]

/-! ### Retirement -/

/-- Counts a retired instruction of context `c` and moves its `pc` (R323, R325, R339). -/
def retire_ (s : State) (c next : Nat) : State :=
  let t := s.modK c (fun k => { k with pc := next, count := k.count + 1, retired := k.retired + 1 })
  { t with kry := { t.kry with retired := upd 0 t.kry.retired (c / 4) (fun n => satAdd 0xFFFFFFFF n 1) } }

/-! ### The end of a reel (R282, R325 to R327) -/

/-- The status record of a reel that stops. -/
def recordOf (s : State) (c : Nat) (k : KCtx) (i : KInst) (state code detail : Nat) : KRecord :=
  { inst := k.inst, state := state, trapCode := code, trapDetail := detail, pc := k.pc, epoch := k.epoch
    result := reg k 1, retired := k.retired, ctx := c, relieved := k.relieved, single := i.single, signed := i.signed
    comp := k.comp, slot := k.slot, startAt := i.startAt, endAt := s.now, journal := k.journal.length
    tickets := k.tickets.length }

/-- A reel stops: its record is kept among the last 256, its context is free at once, event 0x0801 is posted and the Reel
Halt commands that waited complete, with vendor status 0x84 where a trap stopped it (R429). -/
def stopReel (s : State) (c state code detail : Nat) : State :=
  match s.kctx c with
  | none => s
  | some k => match s.kinst k.inst with
    | none => s
    | some i =>
      let s1 := { s with kry := { s.kry with records := (s.recordOf c k i state code detail :: s.kry.records).take 256 } }
      let s2 := { (s1.setKctx c none).setKinst k.inst none with
        mem := { s.mem with bad := s.mem.bad.filter (fun x => match x with
          | .image j _ => decide (j ≠ k.inst)
          | .scratch c' _ => decide (c' ≠ c)
          | _ => true) } }
      let s3 := s2.event 0x0801 1 (srcCaller c) k.comp [k.inst, state, code, detail]
      k.halts.foldl (fun t h =>
        if state = 5 then t.complete h (.vendor 0x84) (BitVec.ofNat 32 (code % 256 + detail % 65536 * 65536)) 0
        else t.done h 0) s3.storeWake

/-- A trap stops the reel in state 5 (R282). -/
def trapReel (s : State) (c : Nat) (t : Nat × Nat) : State := s.stopReel c 5 t.1 t.2

/-! ### Idempotent instructions (R274) -/

/-- Runs an instruction that only its own context sees: its traps in order, else its effect, and it retires. `eff` gives the
context after it and the next `pc`. -/
def runLocal (s : State) (name : String) (f : Form) (w : KWord) (traps : KCtx → List TrapIf)
    (eff : KCtx → KCtx × Nat) : Out :=
  match s.kctx w.ctx with
  | none => cannot name
  | some k =>
    let s0 := s.reelIssues w.ctx
    arises (s.issues f.op w) name
      (match firstTrap (s.baseTraps k false (badForm f w) ++ traps k) with
        | some t => s0.trapReel w.ctx t
        | none => (s0.setKctx w.ctx (some (eff k).1)).retire_ w.ctx (eff k).2)

/-! ### Unit instructions (R281, R283, R292) -/

/-- Writes the status of a unit instruction, z with it, and its results from g2 up (R292). -/
def setStatus (k : KCtx) (status : Nat) (rs : List Word) : KCtx :=
  let k1 := setReg k 1 (BitVec.ofNat 64 status)
  { setRegs k1 (rs.mapIdx (fun i v => (2 + i, v))) with flags := { k.flags with z := decide (status = 0) } }

/-- Traps of a unit instruction before its operands are judged: capability, absent unit, frozen compartment (R281 to
R283). -/
def unitTraps (s : State) (k : KCtx) (cap : Option Nat) (more : List TrapIf) : List TrapIf :=
  (match cap with
    | some n => [(!k.cap.getLsbD n, 0x02, n)]
    | none => []) ++ more ++ [(s.frozen k.comp, 0x0B, 0)]

/-! ### The journal (R275 to R277, R328) -/

/-- Ticket `n`, as the units still hold its result, or in progress (R275, R330). -/
def keptTicket (k : KCtx) (n : Nat) : Ticket :=
  ((k.kept.find? (fun t => decide (t.num = n)))).getD { num := n, done := none, dmaFault := none, scratch := [] }

/-- Returns a recorded entry: registers, z, tickets and scratch as the first execution left them. -/
def replay (k : KCtx) (e : JEntry) : KCtx :=
  let k1 := setRegs k e.results
  let taken := match e.takes with
    | some n => [keptTicket k n]
    | none => []
  let k2 := { k1 with
    flags := match e.z with
      | some z => { k1.flags with z := z }
      | none => k1.flags
    tickets := (k1.tickets ++ taken).filter (fun t => decide (some t.num ≠ e.frees))
    jpos := k1.jpos + 1 }
  { k2 with scratch := (e.scratch ++ taken.flatMap (·.scratch)).foldl (fun m x => put 0 m x.1 x.2) k2.scratch }

/-- The journal holds the next position: the entry recorded there. -/
def recorded (k : KCtx) : Option JEntry := k.journal[k.jpos]?

/-- The recorded entry is another instruction's (R277). -/
def mismatch (e : JEntry) (op : Nat) (args : List Word) : Bool := decide (e.op ≠ op) || decide (e.args ≠ args)

/-- Every journal position is in use (R276). -/
def journalFull (k : KCtx) : Bool := decide (256 ≤ k.jpos)

/-- Lowest free ticket (R293, R330). -/
def freeTicket (k : KCtx) : Option Nat := (List.range 64).find? (fun n => k.tickets.all (fun t => decide (t.num ≠ n)))

/-- What a synchronous journalled instruction answers: the state after its effect, registers written, z, and scratch
bytes. -/
structure Answer where
  s : State
  results : List (Nat × Word)
  z : Option Bool
  scratch : List (Nat × Byte)

/-- An answer with a status and results from g2 up. -/
def status (s : State) (st : Nat) (rs : List Word) : Answer :=
  { s := s, results := (1, BitVec.ofNat 64 st) :: rs.mapIdx (fun i v => (2 + i, v)), z := some (decide (st = 0))
    scratch := [] }

/-- What the unit kept under the instruction's original tag, where it has performed it (R275, case 2). -/
def unitHolds (k : KCtx) : Option JEntry :=
  (k.unitKept.find? (fun x => decide (x.1 = k.epoch) && decide (x.2.1 = k.jpos))).map (·.2.2)

/-- Runs a journalled synchronous instruction. `gate`: traps judged at every execution; `traps`: those judged when the unit
performs it; `late`: those behind a full journal (R283). -/
def runJournal (s : State) (name : String) (f : Form) (w : KWord) (gate traps : KCtx → List TrapIf)
    (late : KCtx → List TrapIf) (eff : KCtx → Answer) : Out :=
  match s.kctx w.ctx with
  | none => cannot name
  | some k =>
    let s0 := s.reelIssues w.ctx
    let args := operands k w
    arises (s.issues f.op w) name
      (match firstTrap (s.baseTraps k false (badForm f w) ++ gate k) with
        | some t => s0.trapReel w.ctx t
        | none => match recorded k with
          | some e =>
            if mismatch e f.op args then s0.trapReel w.ctx (0x08, 6)
            else (s0.setKctx w.ctx (some (replay k e))).retire_ w.ctx (k.pc + 8)
          | none => match unitHolds k with
            | some e => (s0.setKctx w.ctx (some { replay k e with journal := k.journal ++ [e] })).retire_ w.ctx (k.pc + 8)
            | none => match firstTrap (traps k ++ [(journalFull k, 0x07, 1)] ++ late k) with
              | some t => s0.trapReel w.ctx t
              | none =>
                let a := eff k
                let e : JEntry := { op := f.op, args := args, results := a.results, z := a.z, takes := none, frees := none,
                                    scratch := a.scratch }
                ((a.s.reelIssues w.ctx).modK w.ctx (fun k => { replay k e with
                  journal := k.journal ++ [e], unitKept := k.unitKept ++ [(k.epoch, k.jpos, e)] })).retire_ w.ctx (k.pc + 8))

/-- Registers an operation that a unit has accepted. -/
def addOp (s : State) (c inst ticket : Nat) (op : UnitOp) : State :=
  { s with kry := { s.kry with ops := s.kry.ops ++ [{ ctx := c, inst := inst, ticket := ticket, op := op }] } }

/-- Runs a journalled asynchronous instruction: the lowest free ticket is taken, g1 is 0 and g2 the ticket, and `eff` starts
the operation under that ticket (R292, R293). -/
def runTicket (s : State) (name : String) (f : Form) (w : KWord) (gate traps : KCtx → List TrapIf)
    (late : KCtx → List TrapIf) (eff : KCtx → Nat → State → State) : Out :=
  match s.kctx w.ctx with
  | none => cannot name
  | some k =>
    let s0 := s.reelIssues w.ctx
    let args := operands k w
    arises (s.issues f.op w) name
      (match firstTrap (s.baseTraps k false (badForm f w) ++ gate k) with
        | some t => s0.trapReel w.ctx t
        | none => match recorded k with
          | some e =>
            if mismatch e f.op args then s0.trapReel w.ctx (0x08, 6)
            else (s0.setKctx w.ctx (some (replay k e))).retire_ w.ctx (k.pc + 8)
          | none =>
            match firstTrap (traps k ++ [(journalFull k, 0x07, 1), ((freeTicket k).isNone, 0x07, 2)] ++ late k) with
            | some t => s0.trapReel w.ctx t
            | none =>
              let n := (freeTicket k).getD 0
              let e : JEntry := { op := f.op, args := args, results := [(1, 0), (2, BitVec.ofNat 64 n)], z := some true,
                                  takes := some n, frees := none, scratch := [] }
              let t := s0.setKctx w.ctx (some { replay { k with kept := [] } e with
                journal := k.journal ++ [e], kept := k.kept })
              (eff k n t).retire_ w.ctx (k.pc + 8))

/-! ### Commit-only instructions (R274, R278) -/

/-- Runs a commit-only instruction: checked when it issues, its effect held until the commit. -/
def runHeld (s : State) (name : String) (f : Form) (w : KWord) (traps : KCtx → List TrapIf)
    (eff : KCtx → Held) : Out :=
  match s.kctx w.ctx with
  | none => cannot name
  | some k =>
    let s0 := s.reelIssues w.ctx
    arises (s.issues f.op w) name
      (match firstTrap (s.baseTraps k false (badForm f w) ++ traps k) with
        | some t => s0.trapReel w.ctx t
        | none =>
          (s0.setKctx w.ctx (some { setStatus k 0 [] with held := k.held ++ [eff k] })).retire_ w.ctx (k.pc + 8))

/-! ### WAIT (R293) -/

/-- The ticket that a WAIT takes: the lowest-numbered completed one where it waits for any, else the one it names. -/
def waitTicket (k : KCtx) (m : Nat) (a : Word) : Option Ticket :=
  if bits m 1 1 = 1 ∧ k.tickets.any (fun t => t.done.isSome) then
    (List.range 64).findSome? (fun n => k.tickets.find? (fun t => decide (t.num = n) && t.done.isSome))
  else if bits m 0 1 = 1 then k.tickets.find? (fun t => decide (t.num = a.toNat) && t.done.isSome)
  else none

/-- The mask of the conditions of a WAIT that hold (R293). -/
def waitMask (s : State) (k : KCtx) (m : Nat) (a b : Word) : Nat :=
  let on := fun (i : Nat) (c : Bool) => if bits m i 1 = 1 ∧ c then 2 ^ i else 0
  on 0 (k.tickets.any (fun t => decide (t.num = a.toNat) && t.done.isSome)) +
  on 1 (k.tickets.any (fun t => t.done.isSome)) +
  on 2 (match s.kinst k.inst with
    | some i => !i.events.isEmpty
    | none => false) +
  on 3 (decide (b.toNat ≤ s.now)) +
  on 4 k.haltAt.isSome

/-- A WAIT returns: its registers and z, the ticket freed, the journal entry, and the budget count at 0; a host DMA fault
traps 0x0C (R271, R293, R323). -/
def endWait (s : State) (c : Nat) (k : KCtx) (args : List Word) (mask : Nat) (t : Option Ticket) : State :=
  match t.bind (·.dmaFault) with
  | some st => (s.setKctx c (some { k with wait := .ready })).trapReel c (0x0C, st)
  | none =>
    let (st, res) := match t with
      | some x => x.done.getD (0, 0)
      | none => (0, 0)
    let rs : List (Nat × Word) := match t with
      | some x => [(3, BitVec.ofNat 64 mask), (1, BitVec.ofNat 64 st), (2, res), (4, BitVec.ofNat 64 x.num)]
      | none => [(3, BitVec.ofNat 64 mask), (1, 0)]
    let e : JEntry := { op := 0x02, args := args, results := rs, z := some (decide (st = 0)), takes := none
                        frees := t.map (·.num), scratch := match t with
                          | some x => x.scratch
                          | none => [] }
    let k1 := { setRegs k rs with
      flags := { k.flags with z := decide (st = 0) }
      tickets := k.tickets.filter (fun x => decide (some x.num ≠ t.map (·.num)))
      wait := .ready, journal := k.journal ++ [e], jpos := k.jpos + 1 }
    ((s.setKctx c (some k1)).retire_ c (k.pc + 8)).modK c (fun k => { k with count := 0 })

end State

end Sys2Proof.Machine
end

