-- ==== Sys2Proof/Machine/SpaceOps.lean ====
section
/-! DEFINITION. The end of a namespace (R67, R92, R297) and the Changed Namespace Lists (R419). -/

namespace Sys2Proof.Machine

namespace State

/-- A namespace that the module made or removed enters the Changed Namespace Lists of the steward controllers; its
compartment is told as well (R357, R419, R424, log 24). -/
def spaceChanged (s : State) (n c : Nat) : State :=
  let es : List (Nat × Nat) := [(0, n), (1, n)]
  let l := s.hif.changedNs
  let s1 := { s with hif := { s.hif with changedNs := l ++ es.filter (fun e => !l.contains e) } }
  ((s1.portAsync 0 8 2 0 4).portAsync 1 8 2 0 4).compAsync c 8 2 0 4

/-- The carved slots become zone slots again once no namespace of either kind stands on them (R92). -/
def uncarve (s : State) : State :=
  if s.convSpace.isNone && s.zns.spaces.isEmpty then { s with zns := { s.zns with carved := 0 } } else s

/-- Every carved slot gives its blocks back. -/
def freeSlots (s : State) : State :=
  let ms := s.zns.convSlots.flatMap (fun e => e.2.members)
  let t := ms.foldl (fun t m => t.deferErase m.1 m.2 .zone) s
  { t with zns := { t.zns with convSlots := [], convRows := [], convFills := [], convRegionNext := 0, convData := [], convTags := [] } }

/-- A namespace is deleted: its zones are reset logically, its data goes, and what waited for it ends (R67, R70, R297). -/
def deleteSpace (s : State) (n : Nat) : State :=
  match s.space n with
  | none => s
  | some e =>
    let zs : List Nat := s.zns.zones.map (·.1)
    let us : List Nat := s.zns.convMap.map (·.1)
    let s1 : State := match e.kind with
      | .zoned p =>
        let t := (zs.filter (fun z => decide (s.zoneNsid z = some n))).foldl resetZone s
        (match t.pgroup p with
          | some g => t.setPgroup p (some { g with nsid := none })
          | none => t)
      | .conventional _ => (us.foldl convUnmap s).freeSlots
    (((s1.setSpace n none).uncarve.spaceChanged n e.comp).answerOps (fun o => decide (o = .deleteSpace n)) 0).journal

/-- Every carriage of a namespace has drained, and no command on its zones runs. -/
def spaceQuiet (s : State) (n : Nat) : Bool :=
  s.car.table.all (fun e => decide (e.2.nsid ≠ n) || !(e.2.coupled || e.2.draining)) &&
    s.car.flights.all (fun v => match v.zone with
      | some z => decide (s.zoneNsid z ≠ some n)
      | none => decide (v.cmd.nsid ≠ n))

/-- Namespaces whose delete waits are deleted once they are quiet (R297). -/
def settleDeletes (s : State) : State :=
  s.zns.spaces.foldl (fun t e => match e.2 with
    | some x => if x.deleting ∧ t.spaceQuiet e.1 then t.deleteSpace e.1 else t
    | none => t) s

end State

end Sys2Proof.Machine
end

