-- ==== Sys2Proof/Machine/SaveOps.lean ====
section
/-! DEFINITION. The compartment record and the end of a Save (R365 to R367, R390), and the changes of a compartment's state
that post its event (R352, R373). -/

namespace Sys2Proof.Machine

namespace State

/-- A compartment takes a state: the time begins, the host is told, and event 0x0900 is posted (R351, R352, R373). -/
def compState (s : State) (n : Nat) (st : CState) : State :=
  let v := s.comp n
  if v.state = st then s
  else ((s.setComp n { v with state := st, since := s.now }).compIrq n 0).event 0x0900 1 srcHost n
    [v.state.code, st.code]

/-- Entries of a compartment in the PASID map, oldest first: (port, PASID). -/
def compPasids (s : State) (n : Nat) : List (Nat × Nat) :=
  (s.cmp.pasids.filter (fun e => decide (e.2.2 = n))).map (fun e => (e.1, e.2.1))

/-- Placement groups of a compartment, ascending. -/
def compGroups (s : State) (n : Nat) : List Nat :=
  (List.range 128).filter (fun p => match s.pgroup p with
    | some g => decide (g.comp = n)
    | none => false)

/-- Coupled carriages of a compartment, ascending. -/
def compCarriages (s : State) (n : Nat) : List Nat :=
  (s.car.table.filter (fun e => (e.2.coupled || e.2.draining) && decide (e.2.comp = n))).map (·.1)

/-- Codec contexts granted to a compartment, ascending. -/
def compContexts (s : State) (n : Nat) : List Nat :=
  (s.fcd.ctxs.filter (fun e => decide (e.2.grant = some n))).map (·.1)

/-- Owners registered to a compartment, ascending. -/
def compOwners (s : State) (n : Nat) : List Nat :=
  (s.bpm.owners.filter (fun e => decide (16 ≤ e.1) && decide ((e.2.map (·.comp)) = some n))).map (·.1)

/-- Reel instances of a compartment that run. -/
def compReels (s : State) (n : Nat) : List Nat :=
  (s.kry.ctxs.filter (fun e => decide ((e.2.map (·.comp)) = some n))).map (·.1)

/-! ### The record (R366, R367) -/

/-- Key slot whose key wraps the keys of compartment records. -/
def recordSlot : Nat := 1039

/-- The queue entries of a record: one for each queue identifier, the admin queue first. -/
def queueEntries (s : State) (n : Nat) : List (List Byte) :=
  let mine := s.hif.queues.filter (fun q => decide (q.ctl = 1 + n))
  ((List.range 65).filter (fun i => mine.any (fun q => decide (q.qid = i)))).map (fun i =>
    let sq := mine.find? (fun q => decide (q.qid = i) && q.sq)
    let cq := mine.find? (fun q => decide (q.qid = i) && !q.sq)
    let num := fun (q : Option Queue) (f : Queue → Nat) => match q with
      | some x => f x
      | none => 0
    let flag := fun (b : Bool) (k : Nat) => if b then 2 ^ k else 0
    let pasid := match sq with
      | some q => q.pasid
      | none => cq.bind (·.pasid)
    let idx := ((s.compPasids n).findIdx? (fun e => decide (some e.2 = pasid))).getD 0
    leBytes 2 i ++
      leBytes 2 (flag sq.isSome 0 + flag cq.isSome 1 + num cq (fun q => flag q.ien 2) + num cq (fun q => q.vector % 8 * 8)) ++
      leBytes 2 (num sq (fun q => q.size - 1)) ++ leBytes 2 (num cq (fun q => q.size - 1)) ++
      leBytes 2 (num sq (·.head)) ++ leBytes 2 (num sq (·.tail)) ++ leBytes 2 (num cq (·.head)) ++ leBytes 2 (num cq (·.tail)) ++
      leBytes 1 (num cq (fun q => flag q.phase 0)) ++ leBytes 1 idx ++ leBytes 2 (num sq (·.cq)) ++ leBytes 12 0)

/-- The entry of a placement group. -/
def groupEntry (s : State) (p : Nat) : List Byte :=
  match s.pgroup p with
  | some g =>
    let e := g.nsid.bind (fun n => s.space n)
    leBytes 1 p ++ leBytes 1 (if g.defaultDirect then 1 else 0) ++
      leBytes 1 (match e with
        | some x => if x.lba16 then 1 else 0
        | none => 0) ++ leBytes 1 0 ++
      leBytes 4 (match e with
        | some x => s.spaceZones x
        | none => 0) ++ leBytes 4 (g.nsid.getD 0) ++ leBytes 4 0
  | none => leBytes 16 0

/-- The entry of a carriage: a zone handle becomes the zone's number within its namespace. -/
def carriageEntry (s : State) (i : Nat) : List Byte :=
  let c := s.carriage i
  let group := match c.handleType with
    | 0 => (s.groupPgroup (c.handle / 5000)).getD 0
    | 1 => c.handle
    | _ => 0
  let handle := if c.handleType = 0 then match s.space c.nsid with
      | some e => ((List.range (s.spaceZones e)).find? (fun k => decide (s.spaceZone e k = some c.handle))).getD 0
      | none => 0
    else c.handle
  let d := { c with handle := handle }
  leBytes 8 (carriageWord d 0) ++ leBytes 8 (carriageWord d 1) ++ leBytes 8 (carriageWord d 2) ++ leBytes 4 group ++
    leBytes 4 0

/-- The wrapped keys of a compartment's slot. -/
def wrappedKey (s : State) (slot : Nat) : List Byte :=
  (List.range 72).map (fun i => Config.wrapByte (look 0 s.sec.keys recordSlot) (look 0 s.sec.keys slot) i)

/-- The record of compartment `n` (R366, R367). -/
def compRecord (s : State) (n : Nat) : List Byte :=
  let v := s.comp n
  let ps := s.compPasids n
  let qs := s.queueEntries n
  let gs := s.compGroups n
  let cs := s.compCarriages n
  let xs := s.compContexts n
  let os := s.compOwners n
  let hasKey := decide (look 0 s.sec.keys n ≠ 0)
  let length := 256 + 8 * ps.length + 32 * qs.length + 16 * gs.length + 32 * cs.length + (8 + stateRecordLen) * xs.length + 8
  let ring := look none s.hif.compRings n
  let ofRing := fun (f : Ring → Nat) => match ring with
    | some r => f r
    | none => 0
  let fixed := leBytes 4 0x52504D43 ++ leBytes 1 1 ++ leBytes 1 (if hasKey then 1 else 0) ++ leBytes 2 n ++ leBytes 1 s.pins.modIdStrap ++
    leBytes 3 0 ++ leBytes 4 length ++ leBytes 8 s.now ++ leBytes 2 ps.length ++ leBytes 2 qs.length ++
    leBytes 2 gs.length ++ leBytes 2 xs.length ++ leBytes 4 cs.length ++ leBytes 4 os.length ++ leBytes 24 0 ++
    leBytes 2 v.res.queuePairs ++ leBytes 2 v.res.activeQuota ++ leBytes 2 v.res.directQuota ++ leBytes 2 v.res.cls ++
    leBytes 4 v.res.floor ++ leBytes 4 0 ++
    (List.range 16).flatMap (fun k => leBytes 2 (look (look 0 s.car.share (k * 1024 + n)) s.car.shareNext (k * 1024 + n))) ++
    leBytes 16 0 ++ (if hasKey then s.wrappedKey n else leBytes 72 0) ++ leBytes 8 0 ++
    leBytes 4 (ofRing (·.size)) ++ leBytes 2 (ofRing (·.head)) ++ leBytes 2 (ofRing (·.tail)) ++ leBytes 40 0
  let body := fixed ++
    ps.flatMap (fun e => leBytes 8 (e.2 + (if e.2 = v.apasid then 2 ^ 32 else 0))) ++ qs.flatten ++
    gs.flatMap s.groupEntry ++ cs.flatMap s.carriageEntry ++
    xs.flatMap (fun x => leBytes 2 x ++ leBytes 6 0 ++ stateRecord (s.codecCtx x).st)
  body ++ leBytes 8 (crcEcma body).toNat

/-! ### The end of a Save (R365, R390) -/

/-- Revokes a codec context. -/
def revokeCtx (s : State) (x : Nat) : State := s.setCodecCtx x { s.codecCtx x with grant := none }

/-- What a saved compartment gives up. -/
def strip (s : State) (n : Nat) : State :=
  let freed := (s.compBufs n).length
  let s1 := (s.compCarriages n).foldl uncoupleNow s
  let s2 := (s1.compContexts n).foldl revokeCtx (s1.freeCompBufs n)
  let s3 := (s2.compOwners n).foldl (fun t o => t.setOwner o none) s2
  let s4 := { s3 with
    cmp := { s3.cmp with pasids := s3.cmp.pasids.filter (fun e => decide (e.2.2 ≠ n)) }
    hif := { s3.hif with queues := s3.hif.queues.filter (fun q => decide (q.ctl ≠ 1 + n))
                         compRings := put none s3.hif.compRings n none
                         compAers := s3.hif.compAers.filter (fun e => decide (e.1 ≠ n)) } }
  let s5 := s4.settleDeletes
  if freed = 0 then s5 else s5.event 0x0903 2 (srcRegion 0 4) n [freed]

/-- Commands of a compartment that are in progress (R354): those squashed whose action still runs are among them (R361). -/
def compCmds (s : State) (n : Nat) : Nat :=
  (s.car.flights.filter (fun v => decide (v.cmd.comp = n) && v.ticket.isNone && v.peer.isNone)).length

/-- Codec jobs of a compartment (R354). -/
def jobComp (s : State) (j : CodecJob) : Nat :=
  match j.work with
  | .append cmd _ _ _ _ _ _ _ _ => cmd.comp
  | .read f _ _ => match s.car.flights.find? (fun v => decide (v.id = f)) with
    | some v => v.cmd.comp
    | none => 0
  | .save cmd => cmd.comp
  | .restore cmd _ => cmd.comp
  | .reel i _ => match s.kinst i with
    | some x => match s.kctx x.ctx with
      | some k => k.comp
      | none => 0
    | none => 0

/-- Frame codec jobs queued or running for a compartment (R354). -/
def compJobs (s : State) (n : Nat) : Nat := (s.fcd.jobs.filter (fun j => decide (s.jobComp j = n))).length

/-- The Save of compartment `n` writes its record: Saved, or refused where the buffer is too short (R365). -/
def endSave (s : State) (n : Nat) : State :=
  let v := s.comp n
  let record := s.compRecord n
  let dw0 := BitVec.ofNat 32 record.length
  if v.saveBytes < record.length then
    let s1 := (s.setComp n { v with fetchStopped := false, waiting := none }).compState n .frozen
    match v.waiting with
    | some h => s1.complete h .invalidField dw0 0
    | none => s1
  else
    let s1 := (s.strip n).setComp n { v with
      en := false, rdy := false, waiting := none, token := some s.now, reset := none }
    let s2 := s1.compState n .saved
    match v.waiting with
    | some h => ((s2.emit (.data h record)).done h dw0).journal
    | none => s2.journal

end State

end Sys2Proof.Machine
end

