-- ==== Sys2Proof/Machine/ControlOps.lean ====
section
/-! DEFINITION. Compartment Control: the operations, the order in which they act, the PASID map, resources, the start of a
reset, deletion and Restore (R344 to R349, R358 to R360, R364 to R372). -/

namespace Sys2Proof.Machine

namespace State

/-! ### Reset and deletion (R360, R348, R372) -/

/-- A reset begins, or joins the one that runs (R360). -/
def beginReset (s : State) (n : Nat) (k : ResetKind) : State :=
  let v := s.comp n
  match v.reset with
  | some r => s.setComp n { v with en := false, rdy := false, reset := some { r with kinds := r.kinds ++ [k] } }
  | none =>
    if v.state = .active ∨ v.state = .freezing ∨ v.state = .frozen then
      let s1 := (s.setComp n { v with
        en := false, rdy := false, cfs := false, fetchStopped := true, resetByHost := decide (k = .host)
        wasFrozen := decide (v.state ≠ .active)
        reset := some { kinds := [k], at_ := s.now, squashed := false } }).compState n .resetting
      (s1.compReels n).foldl (fun t c => t.stopReel c 6 0 0) s1
    else s.setComp n { v with en := false, rdy := false, cfs := false }

/-- Erases a key slot; the window of its compartment shows it (R351, R555). -/
def eraseKey (s : State) (slot : Nat) : State :=
  let s1 := { s with sec := { s.sec with keys := put 0 s.sec.keys slot 0 } }
  if 1 ≤ slot ∧ slot < 1024 ∧ (s.comp slot).state ≠ .free then s1.setComp slot { s1.comp slot with keyErased := true } else s1

/-- A deleted compartment: its key slot is erased, its PASIDs unmapped, and it is Free (R348, R372). -/
def freeComp (s : State) (n : Nat) : State :=
  let s1 := s.compState n .free
  let s2 := (s1.setComp n Comp.free).eraseKey n
  ({ s2 with
    cmp := { s2.cmp with pasids := s2.cmp.pasids.filter (fun e => decide (e.2.2 ≠ n)) }
    car := { s2.car with share := s2.car.share.filter (fun e => decide (e.1 % 1024 ≠ n))
                         credit := s2.car.credit.filter (fun e => decide (e.1 % 1024 ≠ n))
                         shareNext := s2.car.shareNext.filter (fun e => decide (e.1 % 1024 ≠ n)) }
    hif := { s2.hif with
      compFeat := put none s2.hif.compFeat n none, compRings := put none s2.hif.compRings n none
      compSmart := put (0, 0) s2.hif.compSmart n (0, 0)
      compLost := put 0 s2.hif.compLost n 0, compErrors := put [] s2.hif.compErrors n []
      compAers := s2.hif.compAers.filter (fun e => decide (e.1 ≠ n))
      compEvents := s2.hif.compEvents.filter (fun e => decide (e.1 ≠ n))
      queues := s2.hif.queues.filter (fun q => decide (q.ctl ≠ 1 + n)) } }).journal

/-! ### The PASID map (R344, R347) -/

/-- A PASID is mapped to the compartment on the port. -/
def pasidMapped (s : State) (port pasid n : Nat) : Bool := s.cmp.pasids.contains (port, pasid, n)

/-- Maps a PASID; none where R347 refuses it. -/
def mapPasid (s : State) (n pasid port : Nat) : Option State :=
  if s.cmp.pasids.any (fun e => decide (e.1 = port) && decide (e.2.1 = pasid)) ∨ 1024 ≤ s.cmp.pasids.length ∨
      (n ≠ 0 ∧ (64 ≤ (s.compPasids n).length ∨ (s.comp n).port ≠ port)) then none
  else some { s with cmp := { s.cmp with pasids := s.cmp.pasids ++ [(port, pasid, n)] } }

/-- A mapped PASID is in use (R347). -/
def pasidUsed (s : State) (n pasid port : Nat) : Bool :=
  let ctl := fun (q : Queue) => if n = 0 then decide (q.ctl = port) else decide (q.ctl = 1 + n)
  let ring := if n = 0 then s.hif.ring else look none s.hif.compRings n
  s.hif.queues.any (fun q => ctl q && decide (q.pasid = some pasid)) ||
    (match ring with
      | some r => decide (r.pasid = some pasid) && decide (r.port = port)
      | none => false) ||
    s.kry.insts.any (fun e => match e.2 with
      | some i => decide (i.pasid = some pasid) && decide (i.port = port) && decide (s.instComp i = n)
      | none => false) ||
    (decide (n ≠ 0) && (s.comp n).en && decide ((s.comp n).apasid = pasid))

/-! ### Resources (R307, R349, R358) -/

/-- Sets one resource of a compartment. -/
def setResource (s : State) (n res value cluster : Nat) : State :=
  let v := s.comp n
  let put_ := fun (r : CompRes) => s.setComp n { v with res := r }
  match res with
  | 0 => put_ { v.res with queuePairs := value }
  | 1 => put_ { v.res with activeQuota := value }
  | 2 => put_ { v.res with directQuota := value }
  | 3 => (List.range (value - v.res.floor)).foldl (fun (t : State) _ => t.refillFloors)
      (put_ { v.res with floor := value, reserved := min v.res.reserved value })
  | 4 =>
    let rest := s.car.shareNext.filter (fun e => decide (e.1 ≠ cluster * 1024 + n))
    { s with car := { s.car with shareNext := (cluster * 1024 + n, value) :: rest } }
  | _ => put_ { v.res with cls := value }

/-- The state-changing record of a compartment reaches the journal with the next unit (R206, R343). -/
def createComp (s : State) (n port : Nat) : State :=
  let s1 := s.setComp n { Comp.free with port := port }
  let s2 := s1.compState n .active
  let s3 := { s2 with hif := { s2.hif with compFeat := put none s2.hif.compFeat n (some Features.reset) } }
  (s3.setResource n 3 2 0).setResource n 5 2 0 |>.journal


/-! ### Restore (R368, R369) -/

/-- What a record holds, as far as Restore uses it. -/
structure Record where
  bytes : List Byte
  /-- Numbers of PASIDs, queues, placement groups, codec contexts, carriages and owners. -/
  p : Nat
  q : Nat
  g : Nat
  x : Nat
  c : Nat
  owners : Nat
deriving DecidableEq, Repr

/-- The counts of a record. -/
def recordOfBytes (b : List Byte) : Record :=
  { bytes := b, p := leAt b 24 2, q := leAt b 26 2, g := leAt b 28 2, x := leAt b 30 2, c := leAt b 32 4, owners := leAt b 36 4 }

/-- Offsets of a record's sections: queues, placement groups, carriages, codec contexts, trailer. -/
def Record.queuesAt (r : Record) : Nat := 256 + 8 * r.p
def Record.groupsAt (r : Record) : Nat := r.queuesAt + 32 * r.q
def Record.carsAt (r : Record) : Nat := r.groupsAt + 16 * r.g
def Record.ctxsAt (r : Record) : Nat := r.carsAt + 32 * r.c
def Record.endAt (r : Record) : Nat := r.ctxsAt + (8 + stateRecordLen) * r.x

/-- Entry `i` of a section. -/
def Record.entry (r : Record) (at_ size i : Nat) : List Byte := (r.bytes.drop (at_ + size * i)).take size

/-- Bytes `[i, i + n)` are all 0. -/
def zeroAt (b : List Byte) (i n : Nat) : Bool := ((b.drop i).take n).all (fun x => decide (x = 0))

/-- Check 1: magic, version, lengths, trailer, and reserved bytes 0. -/
def recordValid (params : List Byte) (r : Record) : Bool :=
  let b := r.bytes
  decide (params.length = 4096) && zeroAt params 1440 2656 && decide (leAt params 8 4 = b.length) &&
    decide (leAt b 0 4 = 0x52504D43) && decide (leAt b 4 1 = 1) && decide (leAt b 5 1 < 2) && decide (leAt b 8 1 < 8) &&
    zeroAt b 9 3 && decide (leAt b 12 4 = b.length) && zeroAt b 40 24 && zeroAt b 76 4 && zeroAt b 112 16 && zeroAt b 200 8 &&
    zeroAt b 216 40 && decide (r.endAt + 8 = b.length) && decide (r.q ≤ 65) && decide (r.p ≤ 64) && decide (r.x ≤ 2048) &&
    decide (leAt b r.endAt 8 = (crcEcma (b.take r.endAt)).toNat) &&
    (List.range r.p).all (fun i => decide (leAt (r.entry 256 8 i) 0 8 % 2 ^ 32 < 2 ^ 20) &&
      decide (leAt (r.entry 256 8 i) 4 4 < 2)) &&
    (List.range r.q).all (fun i => zeroAt (r.entry r.queuesAt 32 i) 20 12) &&
    (List.range r.g).all (fun i => zeroAt (r.entry r.groupsAt 16 i) 3 1 && zeroAt (r.entry r.groupsAt 16 i) 12 4) &&
    (List.range r.c).all (fun i => zeroAt (r.entry r.carsAt 32 i) 28 4) &&
    (List.range r.x).all (fun i => zeroAt (r.entry r.ctxsAt (8 + stateRecordLen) i) 2 6 &&
      (stateOf ((r.entry r.ctxsAt (8 + stateRecordLen) i).drop 8)).isSome)

/-- Check 2: the target can take the record. -/
def targetFits (s : State) (n : Nat) (r : Record) : Bool :=
  let v := s.comp n
  if leAt r.bytes 8 1 = s.pins.modIdStrap then
    decide (v.state = .saved) && decide (v.token = some (leAt r.bytes 16 8))
  else decide (v.state = .active) && s.hif.queues.all (fun q => decide (q.ctl ≠ 1 + n)) && (s.compPasids n).isEmpty &&
    (s.compCarriages n).isEmpty && (s.compContexts n).isEmpty && (s.compOwners n).isEmpty && (s.compReels n).isEmpty

/-- The new PASIDs of a parameter block. -/
def newPasids (params : List Byte) : List Nat :=
  (List.range (leAt params 15 1)).map (fun i => leAt params (144 + 4 * i) 4 % 2 ^ 20)

/-- Check 3: the PASIDs. -/
def pasidsFit (s : State) (params : List Byte) (port : Nat) (r : Record) : Bool :=
  let ps := newPasids params
  decide (leAt params 15 1 = r.p) && decide (ps.eraseDups.length = ps.length) &&
    ps.all (fun x => s.cmp.pasids.all (fun e => decide (e.1 ≠ port) || decide (e.2.1 ≠ x))) &&
    decide (s.cmp.pasids.length + r.p ≤ 1024)

/-- The target placement group of a source placement group. -/
def groupTo (params : List Byte) (p : Nat) : Option Nat :=
  let t := leAt params (16 + p) 1
  if p < 128 ∧ t ≠ 0xFF then some t else none

/-- Check 4: the placement group map. -/
def groupsFit (s : State) (n : Nat) (params : List Byte) (r : Record) : Bool :=
  let same := decide (leAt r.bytes 8 1 = s.pins.modIdStrap)
  (List.range r.g).all (fun i =>
    let e := r.entry r.groupsAt 16 i
    let p := leAt e 0 1
    if same && decide (groupTo params p ≠ some p) then false
    else match groupTo params p with
      | none => true
      | some t => match s.pgroup t with
        | none => false
        | some g => decide (g.comp = n) && (match g.nsid.bind s.space with
          | none => decide (leAt e 8 4 = 0)
          | some ns => decide (ns.lba16 = decide (leAt e 2 1 = 1)) && decide (leAt e 4 4 ≤ s.spaceZones ns)))

/-- Owner identifiers that nobody registered, the first `k` of them. -/
def freshOwners (s : State) (k : Nat) : List Nat :=
  (((List.range (s.bpm.owners.length + k)).map (· + 16)).filter (fun o => (s.owner o).isNone && decide (o < 4096))).take k

/-- Codec contexts granted to nobody, the first `k` of them. -/
def freshContexts (s : State) (k : Nat) : List Nat :=
  ((List.range (min 2048 (s.fcd.ctxs.length + k))).filter (fun c => (s.codecCtx c).grant.isNone)).take k

/-- Check 5: room for queues, carriages, codec contexts and owners. -/
def roomFor (s : State) (r : Record) : Bool :=
  let io := (List.range r.q).filter (fun i => decide (leAt (r.entry r.queuesAt 32 i) 0 2 ≠ 0))
  decide ((s.hif.queues.filter (fun q => q.sq && decide (q.qid ≠ 0))).length + io.length ≤ 8192) &&
    decide ((s.car.table.filter (fun e => e.2.coupled || e.2.draining)).length + r.c ≤ 32768) &&
    decide ((s.freshContexts r.x).length = r.x) && (s.part.codec || decide (r.x = 0)) &&
    decide ((s.freshOwners r.owners).length = r.owners)

/-- What a record of wrapped keys unwraps to: a key that the module holds, where it wraps to that record, else what the
record says (R554, log 18). -/
def unwrapKey (s : State) (record : List Byte) : Option Nat :=
  match s.sec.keys.find? (fun e => decide (s.wrappedKey e.1 = record)) with
  | some e => some e.2
  | none => Config.unwrap (look 0 s.sec.keys recordSlot) record

/-- The key of a record: none where it does not unwrap, 0 where the record has none (check 6). -/
def recordKey (s : State) (r : Record) : Option Nat :=
  if leAt r.bytes 5 1 % 2 = 0 then some 0
  else if look 0 s.sec.keys recordSlot = 0 then none
  else s.unwrapKey ((r.bytes.drop 128).take 72)

/-- The queues of a record entry, at the bases given. -/
def recordQueues (n : Nat) (params : List Byte) (r : Record) : List Queue :=
  let ps := newPasids params
  (List.range r.q).flatMap (fun i =>
    let e := r.entry r.queuesAt 32 i
    let flags := leAt e 2 2
    let base : Queue := {
      ctl := 1 + n, qid := leAt e 0 2, sq := true, size := leAt e 4 2 + 1, head := leAt e 8 2, tail := leAt e 10 2
      pasid := ps[leAt e 17 1]?, cq := leAt e 18 2, vector := 0, ien := false, base := leAt params (400 + 16 * i) 8, phase := true }
    (if flags.testBit 0 then [base] else []) ++
    (if flags.testBit 1 then [{ base with
      sq := false, size := leAt e 6 2 + 1, head := leAt e 12 2, tail := leAt e 14 2, cq := 0, vector := flags / 8 % 8
      ien := flags.testBit 2, phase := decide (leAt e 16 1 % 2 = 1), base := leAt params (408 + 16 * i) 8 }] else []))

/-- Couples carriage entry `i` of a record, translated to the target; none where the coupling fails. -/
def coupleRecord (s : State) (n : Nat) (params : List Byte) (r : Record) (owners ctxs : List Nat) (i : Nat) : Option State :=
  let e := r.entry r.carsAt 32 i
  let c := ofDescriptor (leAt e 0 8) (leAt e 8 8) (leAt e 16 8)
  let old := ((List.range r.c).map (fun j => (ofDescriptor 0 (leAt (r.entry r.carsAt 32 j) 8 8) 0).owner)).eraseDups.mergeSort
  let owner := ((old.findIdx? (fun o => decide (o = c.owner))).bind (fun j => owners[j]?)).getD 0
  let ctx := (((List.range r.x).findIdx? (fun j =>
    decide (leAt (r.entry r.ctxsAt (8 + stateRecordLen) j) 0 2 = c.codecCtx))).bind (fun j => ctxs[j]?)).getD 0
  let target := (groupTo params (leAt e 24 4)).bind (fun t => (s.pgroup t).bind (fun g => g.nsid.bind (fun ns =>
    (s.space ns).map (fun x => (t, ns, x)))))
  let placed : Option (Nat × Nat) := match c.handleType with
    | 0 => target.bind (fun x => (s.spaceZone x.2.2 c.handle).map (fun z => (z, x.2.1)))
    | 1 => target.map (fun x => (x.1, x.2.1))
    | _ => s.convSpace.map (fun x => (0, x.1))
  match placed with
  | none => none
  | some (handle, ns) =>
    let d := { c with handle := handle, nsid := ns, comp := n, owner := owner, codecCtx := ctx
                      keySlot := if c.encrypt then n else c.keySlot }
    match s.coupleCheck (carriageWord d 0) (carriageWord d 1) (carriageWord d 2) false 0 with
    | .at_ k => some (s.couple k (carriageWord d 0) (carriageWord d 1) (carriageWord d 2))
    | _ => none

/-- The actions of a Restore whose checks have passed; none where a coupling fails (R369). -/
def restoreNow (s : State) (n port key : Nat) (params : List Byte) (r : Record) : Option State :=
  let b := r.bytes
  let v := s.comp n
  let s1 := s.setComp n { v with
    port := port, fetchStopped := false
    res := { v.res with queuePairs := leAt b 64 2, activeQuota := leAt b 66 2, directQuota := leAt b 68 2, cls := leAt b 70 2 } }
  let s2 := (List.range 16).foldl (fun (t : State) k => t.setResource n 4 (leAt b (80 + 2 * k) 2) k) (s1.setResource n 3 (leAt b 72 4) 0)
  let s3 := { s2 with
    sec := { s2.sec with keys := if key = 0 then s2.sec.keys else put 0 s2.sec.keys n key }
    cmp := { s2.cmp with pasids := s2.cmp.pasids ++ (newPasids params).map (fun x => (port, x, n)) }
    hif := { s2.hif with queues := s2.hif.queues ++ recordQueues n params r } }
  let owners := s3.freshOwners r.owners
  let s4 := owners.foldl (fun t o => t.setOwner o (some { comp := n, segLimit := 0, leak := false })) s3
  let ctxs := s4.freshContexts r.x
  let s5 := (ctxs.zipIdx).foldl (fun t x => t.setCodecCtx x.1 { grant := some n, coded := false, st :=
    (stateOf ((r.entry r.ctxsAt (8 + stateRecordLen) x.2).drop 8)).getD CodecState.zero }) s4
  match (List.range r.c).foldl (fun (t : Option State) i => t.bind (fun u => u.coupleRecord n params r owners ctxs i)) (some s5) with
  | none => none
  | some s6 =>
    let admin := (recordQueues n params r).filter (fun q => decide (q.qid = 0))
    let sq := admin.find? (·.sq)
    let cq := admin.find? (fun q => !q.sq)
    let on := sq.isSome
    let w := s6.comp n
    let of := fun (q : Option Queue) (f : Queue → Nat) => match q with
      | some x => f x
      | none => 0
    let s7 := s6.setComp n { w with
      en := on, rdy := on, token := none
      aqa := BitVec.ofNat 32 (of sq (fun q => q.size - 1) + of cq (fun q => q.size - 1) * 65536)
      asq := BitVec.ofNat 64 (of sq (·.base)), acq := BitVec.ofNat 64 (of cq (·.base))
      apasid := match sq.bind (·.pasid) with
        | some p => p
        | none => w.apasid }
    let size := leAt b 208 4
    let ring : Option Ring := if size = 0 then none
      else match look none s7.hif.compRings n with
        | some x => some { x with size := size, head := leAt b 212 2, tail := leAt b 214 2 }
        | none => some { size := size, head := leAt b 212 2, tail := leAt b 214 2, base := Config.freeNat s7.free
                         pasid := (newPasids params)[0]?, port := port, vector := 0, slots := [] }
    let s8 := ({ s7 with hif := { s7.hif with compRings := put none s7.hif.compRings n ring } }).draw
    some (s8.compState n .frozen).journal

/-- Restore (R348, R369): the checks in order, then the actions. -/
def restore (s : State) (params record : List Byte) (h : HostCmd) : State :=
  let n := leAt params 12 2
  let port := leAt params 14 1
  let r := recordOfBytes record
  if n = 0 ∨ 1023 < n ∨ 1 < port ∨ (port = 1 ∧ !s.hif.dual) then s.fail h .invalidField
  else if (s.comp n).state ≠ .saved ∧ (s.comp n).state ≠ .active then s.fail h .sequenceError
  else if !recordValid params r then s.fail h .invalidField
  else if !s.targetFits n r then s.fail h .sequenceError
  else if !s.pasidsFit params port r then s.fail h .invalidField
  else if !s.groupsFit n params r then s.fail h .invalidField
  else if !s.roomFor r then s.fail h .sequenceError
  else match s.recordKey r with
    | none => s.fail h (.vendor 0x8B)
    | some key => match s.restoreNow n port key params r with
      | some t => t.done h 0
      | none => s.fail h .sequenceError

/-! ### The operations in their order (R348) -/

/-- A Compartment Control command on the compartment is being carried out. -/
def controlBusy (s : State) (n : Nat) : Bool :=
  let v := s.comp n
  decide (v.state = .freezing) || decide (v.state = .saving) || (match v.reset with
    | some r => r.kinds.any (fun k => match k with
      | .control _ => true
      | .delete _ => true
      | _ => false)
    | none => false)

/-- Carries out one operation at its start: its state is checked now. -/
def controlAct (s : State) (n : Nat) (x : CtlCmd) : State :=
  let h := x.cmd
  let v := s.comp n
  let refuse := s.fail h .sequenceError
  let mapped := n = 0 ∨ v.state = .active ∨ v.state = .frozen
  match x.op with
  | .create port => if v.state = .free then (s.createComp n port).done h 0 else refuse
  | .delete =>
    if !(s.compGroups n).isEmpty then refuse
    else if v.state = .saved then (s.freeComp n).done h 0
    else if v.state = .active ∨ v.state = .frozen ∨ v.state = .resetting then s.beginReset n (.delete (some h))
    else refuse
  | .mapPasid pasid port =>
    if mapped then match s.mapPasid n pasid port with
      | some t => t.done h 0
      | none => s.fail h .invalidField
    else refuse
  | .unmapPasid pasid port =>
    if !mapped then refuse
    else if !s.pasidMapped port pasid n then s.fail h .invalidField
    else if s.pasidUsed n pasid port then refuse
    else ({ s with cmp := { s.cmp with pasids := s.cmp.pasids.erase (port, pasid, n) } }).done h 0
  | .reset =>
    if v.state = .active ∨ v.state = .frozen ∨ v.state = .resetting then s.beginReset n (.control (some h)) else refuse
  | .freeze => if v.state = .active then (s.setComp n { v with waiting := some h }).compState n .freezing else refuse
  | .thaw => if v.state = .frozen then (s.compState n .active).done h 0 else refuse
  | .save bytes =>
    if v.state = .frozen ∧ (s.compReels n).isEmpty then
      let t := (s.setComp n { v with waiting := some h, saveBytes := bytes, fetchStopped := true }).compState n .saving
      if t.compCmds n = 0 then t.endSave n else t
    else refuse
  | .restore params record => s.restore params record h

/-- A command may start: nothing is being carried out, and a Freeze waits for a reset that runs (R364). -/
def controlReady (s : State) (n : Nat) (x : CtlCmd) : Bool :=
  !s.controlBusy n && !(decide (x.op = .freeze) && decide ((s.comp n).state = .resetting))

/-- Commands that waited start, in the order the module admitted them; at most `k` of them. -/
def drainControl : Nat → State → Nat → State
  | 0, s, _ => s
  | k + 1, s, n => match (s.comp n).control with
    | [] => s
    | x :: r =>
      if s.controlReady n x then drainControl k ((s.setComp n { s.comp n with control := r }).controlAct n x) n else s

/-- Every waiting command of a compartment that can start does. -/
def settleControl (s : State) (n : Nat) : State := drainControl (s.comp n).control.length s n

/-- A Compartment Control command (R348): a Reset or Delete joins a reset that runs (R360); otherwise the commands of one
compartment act in order. -/
def control (s : State) (n : Nat) (x : CtlCmd) : State :=
  let v := s.comp n
  if v.state = .resetting ∧ (x.op = .reset ∨ x.op = .delete) then s.controlAct n x
  else (s.setComp n { v with control := v.control ++ [x] }).settleControl n

/-- Saves whose commands have drained write their records, and what waited behind them starts. -/
def settleSaves (s : State) : State :=
  s.cmp.table.foldl (fun t e =>
    if e.2.state = .saving ∧ t.compCmds e.1 = 0 then (t.endSave e.1).settleControl e.1 else t) s

end State

end Sys2Proof.Machine
end

