-- ==== Sys2Proof/Machine/ReadPath.lean ====
section
/-! DEFINITION. Reads of flash: the carved slots of the conventional region, the peers of a page in its row, the schedule of
R122, the service of reads on a suspended die, the threshold sets and the decoding tiers. -/

namespace Sys2Proof.Machine

namespace State

/-! ### Members of zones and of conventional slots (R57, R91, R94) -/

/-- Carved slot `z`, by its module-wide identifier. -/
def convSlot (s : State) (z : Nat) : ConvSlot := look ConvSlot.none s.zns.convSlots z

/-- Writes carved slot `z`. -/
def setConvSlot (s : State) (z : Nat) (v : ConvSlot) : State :=
  { s with zns := { s.zns with convSlots := put ConvSlot.none s.zns.convSlots z v } }

/-- The identifier names a slot carved out for the conventional region. -/
def isCarved (s : State) (z : Nat) : Bool := decide (s.slots ≤ z % 5000)

/-- Members of a zone or of a carved slot, and those of them that have failed. -/
def membersOf (s : State) (z : Nat) : List (Nat × Nat) := if s.isCarved z then (s.convSlot z).members else (s.zone z).members
def failedOf (s : State) (z : Nat) : List Nat := if s.isCarved z then (s.convSlot z).failed else (s.zone z).failed

/-- Writes the members of a zone or of a carved slot, and those that have failed. -/
def setMembersOf (s : State) (z : Nat) (ms : List (Nat × Nat)) (fs : List Nat) : State :=
  if s.isCarved z then s.setConvSlot z { members := ms, failed := fs }
  else s.setZone z { s.zone z with members := ms, failed := fs }

/-- Stripe rows of a carved slot that have been started: rows are filled in ascending order, and the member furthest on
shows how far. -/
def startedRows (s : State) (z : Nat) : Nat :=
  (s.convSlot z).members.foldl (fun n m => if (s.block m.1 m.2).use = .conventional then max n ((s.block m.1 m.2).wp / 64) else n) 0

/-- Stripe rows that have closed in the blocks of a zone or a carved slot, counted from row 0. -/
def closedRows (s : State) (z : Nat) : Nat :=
  if s.isCarved z then
    (s.zns.convFills.filter (fun f => decide (f.row / 96 = z))).foldl (fun n f => min n (f.row % 96)) (s.startedRows z)
  else ((List.range 96).find? (fun r => !(s.row z r).qlc)).getD 96

/-- Compartment that owns a zone or the conventional region. -/
def slotComp (s : State) (z : Nat) : Nat := if s.isCarved z then s.pageComp (convPage 0) else s.zoneComp z

/-- Zone or carved slot and member that a block serves. -/
def servedBy (s : State) (d b : Nat) : Option (Nat × Nat) :=
  match (s.block d b).use with
  | .zone z => ((s.zone z).members.findIdx? (fun m => decide (m = (d, b)))).map (fun k => (z, k))
  | .conventional => s.zns.convSlots.findSome? (fun e =>
      (e.2.members.findIdx? (fun m => decide (m = (d, b)))).map (fun k => (e.1, k)))
  | _ => Option.none

/-! ### The settings of a cluster (R127, R186) -/

/-- Read-around budget of a cluster. -/
def raOf (s : State) (k : Nat) : RaBudget := (s.car.ra[k]?).getD RaBudget.reset

/-- Slack of a class in a cluster, in µs (R119, R127). -/
def slackUs (s : State) (k cls : Nat) : Nat :=
  if cls = 0 then (s.raOf k).express else if cls = 1 then (s.raOf k).standard else (s.raOf k).bulk

/-! ### Threshold sets (R180 to R183) -/

/-- Time at which program unit `i` of a block was written (R180). -/
def writeTime (b : Block) (i : Nat) : Nat :=
  let n := b.wp / unitPages b.qlc
  if b.first ≤ b.last then b.first + (b.last - b.first) * i / max (n - 1) 1
  else b.first - (b.first - b.last) * i / max (n - 1) 1

/-- Retention bin (R181). -/
def retentionBin (ns : Nat) : Nat :=
  let h := 3600000000000
  if ns < h then 0 else if ns < 8 * h then 1 else if ns < 24 * h then 2 else if ns < 96 * h then 3
  else if ns < 384 * h then 4 else if ns < 1536 * h then 5 else if ns < 6144 * h then 6 else 7

/-- Temperature bin of a block on a die: the latest reading against the mean at its programs (R181). -/
def tempBin (s : State) (d : Nat) (b : Block) : Nat :=
  let n := b.wp / unitPages b.qlc
  let now := look 0 s.thm.dieTemps d * n
  if now + 20 * n < b.temps then 0 else if now < b.temps then 1 else if now < b.temps + 20 * n then 2 else 3

/-- Wear bin (R181). -/
def wearBin (w : Nat) : Nat := min 3 (w / 3000)

/-- Threshold set of the first sense of a page: from the table with the H unit, the hint set without it (R181, R183). -/
def firstSet (s : State) (d b page : Nat) : Nat :=
  let k := s.block d b
  if !s.part.history then k.hint
  else if !k.qlc then 0
  else
    let i := retentionBin (s.now - writeTime k (page / 64)) * 16 + s.tempBin d k * 4 + wearBin k.wear
    bits (((s.clusterOf (dieCluster d)).hist[i / 16]?).getD 0).toNat (i % 16 * 4) 4

/-! ### The peers of a page (R122, R124, R158, R160) -/

/-- A block yields nothing any more. -/
def deadBlock (s : State) (d b : Nat) : Bool := (s.die d).lost || decide (noDie 0 ≤ d) || decide ((s.block d b).use = .retired)

/-- Member of the row that a sense reads: its index among the members, by its block, else by its cluster. -/
def senseMember (s : State) (z : Nat) (g : Sense) : Nat :=
  let ms := s.membersOf z
  ((ms.findIdx? (fun m => decide (m = (g.die, g.block)))).orElse
    (fun _ => ms.findIdx? (fun m => decide (dieCluster m.1 = dieCluster g.die)))).getD 16

/-- Zone or carved slot whose row a sense of a QLC page reads. -/
def senseZone (s : State) (v : Flight) (g : Sense) : Nat :=
  match v.zone with
  | some z => z
  | Option.none => match s.servedBy g.die g.block with
    | some (z, _) => z
    | Option.none => (s.convPlace ((look 0xFFFFFFFF s.zns.convMap g.unit).toNat % 2 ^ 31)).1

/-- The other members of the row: die, block, page, and whether the member cannot serve. -/
def peers (s : State) (v : Flight) (g : Sense) : List (Nat × Nat × Nat × Bool) :=
  match g.land with
  | some (r, k) => match s.landRow r with
    | some row =>
      let base := match row.units[k]? with
        | some u => u.page
        | Option.none => 0
      ((row.units.mapIdx (fun i u => (i, u))).filter (fun x => decide (x.1 ≠ k))).map (fun x =>
        (x.2.die, x.2.block, x.2.page + (g.page - base), !x.2.programmed || s.deadBlock x.2.die x.2.block))
    | Option.none => []
  | Option.none =>
    let z := s.senseZone v g
    let k := s.senseMember z g
    (((s.membersOf z).mapIdx (fun i m => (i, m))).filter (fun x => decide (x.1 ≠ k))).map (fun x =>
      (x.2.1, x.2.2, g.page, (s.failedOf z).contains x.1 || s.deadBlock x.2.1 x.2.2))

/-- The target of a sense has failed: its member, or its block (R122). -/
def targetFailed (s : State) (v : Flight) (g : Sense) : Bool :=
  s.deadBlock g.die g.block || (match g.land with
    | some _ => false
    | Option.none => let z := s.senseZone v g
        (s.failedOf z).contains (s.senseMember z g))

/-- All 15 peers can serve. -/
def peersSound (ps : List (Nat × Nat × Nat × Bool)) : Bool :=
  decide (ps.length = 15) && ps.all (fun p => !p.2.2.2)

/-! ### Reservation of the read-around budget (R125) -/

/-- Member senses that a cluster is asked for. -/
def askedOf (ps : List (Nat × Nat × Nat × Bool)) (k : Nat) : Nat :=
  (ps.filter (fun p => decide (dieCluster p.1 = k))).length

/-- Every member cluster's remaining allowance covers its senses. -/
def budgetCovers (s : State) (ps : List (Nat × Nat × Nat × Bool)) (us : Nat) : Bool :=
  (List.range 16).all (fun k => decide ((s.raOf k).used + askedOf ps k * us ≤ (s.raOf k).allowance) || decide (askedOf ps k = 0))

/-- Charges the member clusters, and counts the read-around at the target cluster. -/
def spendBudget (s : State) (ps : List (Nat × Nat × Nat × Bool)) (us target : Nat) : State :=
  { s with car := { s.car with ra := s.car.ra.mapIdx (fun k (b : RaBudget) =>
      { b with used := b.used + askedOf ps k * us
               reconstructed := if k = target then satAdd 0xFFFFFFFF b.reconstructed 1 else b.reconstructed }) } }

/-- Counts a read that fell back to suspend (R128). -/
def countSuspended (s : State) (k : Nat) : State :=
  { s with car := { s.car with ra := modAt s.car.ra k (fun b => { b with suspended := satAdd 0xFFFFFFFF b.suspended 1 }) } }

/-! ### Senses -/

/-- Rewrites sense `j` of flight `f`. -/
def setSense (s : State) (f j : Nat) (h : Sense → Sense) : State :=
  match s.flight f with
  | some v => s.setFlight { v with senses := modAt v.senses j h }
  | Option.none => s

/-- The queue entry of a sense. -/
def senseEntry (v : Flight) (block page : Nat) (p : Purpose) : QEntry :=
  { kind := .read, block := block, page := page, cls := v.cls, comp := v.cmd.comp, admittedAt := v.admittedAt,
    capWait := false, flush := false, purpose := p }

/-- Senses the pages of the other 15 members (R122): a read-around or a degraded read. -/
def senseAround (s : State) (v : Flight) (j : Nat) (ps : List (Nat × Nat × Nat × Bool)) : State :=
  let s1 := s.setSense v.id j (fun g => { g with around := true })
  ps.foldl (fun t p => t.enqueue p.1 (senseEntry v p.2.1 p.2.2.1 (.around v.id j))) s1

/-- Suspends the die where it holds a program or an erase, and queues the sense there (R122, R126). DESIGN CHOICE (log 173): every
such read counts as one that fell back to suspend (R128), a Bulk read and one whose reconstruction failed too. -/
def suspendAndRead (s : State) (v : Flight) (j : Nat) (g : Sense) : State :=
  let s1 := (s.countSuspended (dieCluster g.die)).setSense v.id j (fun g => { g with around := false })
  (s1.suspend g.die).enqueue g.die (senseEntry v g.block g.page (.hostRead v.id j))

/-- A sense that cannot be served: tier 5 (R76, R124, R184). -/
def loseSense (s : State) (v : Flight) (j : Nat) : State :=
  match s.flight v.id with
  | some w => s.setFlight { w with status := .unrecoveredRead, senses := modAt w.senses j (fun g => { g with done := true }) }
  | Option.none => s

/-- A degraded read, outside the budget; Unrecovered Read Error where a second member of the row is lost (R122, R124). -/
def degraded (s : State) (v : Flight) (j : Nat) (g : Sense) : State :=
  let ps := s.peers v g
  if peersSound ps then s.senseAround v j ps else s.loseSense v j

/-- The schedule of R122 for sense `j` of a flight whose row state was sampled closed. -/
def scheduleSense (s : State) (v : Flight) (j : Nat) (g : Sense) : State :=
  let k := dieCluster g.die
  let slack := s.slackUs k v.cls
  let us := if (s.block g.die g.block).qlc then 60 else 22
  if s.targetFailed v g then s.degraded v j g
  else if decide (s.predictWait g.die v.cls ≤ slack) || !s.busyProgErase g.die then
    s.enqueue g.die (senseEntry v g.block g.page (.hostRead v.id j))
  else
    let ps := s.peers v g
    if decide (v.cls ≠ 2) && peersSound ps && ps.all (fun p => decide (s.predictWait p.1 v.cls ≤ slack)) &&
        s.budgetCovers ps us then
      (s.spendBudget ps us k).senseAround v j ps
    else s.suspendAndRead v j g

/-- Schedules every sense of a flight, in order. -/
def scheduleSenses (s : State) (f : Nat) : State :=
  match s.flight f with
  | Option.none => s
  | some v => (List.range v.senses.length).foldl (fun t j =>
      match t.flight f with
      | some w => match w.senses[j]? with
        | some g => t.scheduleSense w j g
        | Option.none => t
      | Option.none => t) s

/-! ### Which senses a read needs (R117, R139, R157, R600) -/

/-- A sense of one page, or of the pages of one landing unit, that serves one 4 KiB unit. -/
def newSense (s : State) (unit d b page : Nat) (land : Option (Nat × Nat)) : Sense :=
  { unit := unit, count := 1, die := d, block := b, page := page, tier := 1, attempt := 0, around := false, land := land,
    set0 := s.firstSet d b page, best := Option.none, done := false }

/-- Two units are served by one read operation: both lie in one page, or in one landing unit (R139, R600). -/
def oneSense (h g : Sense) : Bool :=
  decide (h.die = g.die) && decide (h.block = g.block) && decide (h.land = g.land) &&
    (decide (h.page = g.page) || decide (g.land ≠ Option.none))

/-- Adds the sense of one unit to a list, joining it to the one that reads its page or its landing unit. -/
def addSense (l : List Sense) (g : Sense) : List Sense :=
  if l.any (fun h => oneSense h g) then l.map (fun h => if oneSense h g then { h with count := g.unit + 1 - h.unit } else h)
  else l ++ [g]

/-- The sense of a landed unit. -/
def landSense (s : State) (unit r k p : Nat) : Option Sense :=
  match s.landRow r with
  | Option.none => Option.none
  | some row => match row.units[k]? with
    | some u => some (s.newSense unit u.die u.block (u.page + p) (some (r, k)))
    | Option.none => Option.none

/-- The sense that a read of unit `u` of zone `z` needs; none where it is served from DRAM, or lies beyond the data end
and returns zeroes (R69, R116). -/
def zoneSense (s : State) (z u : Nat) : Option Sense :=
  let v := s.zone z
  if v.dataEnd.getD v.wp ≤ u then Option.none
  else match s.unitPlace z u with
    | .dram => Option.none
    | .landed r k p => s.landSense u r k p
    | .qlc =>
      let (k, page) := locate u
      match v.members[k]? with
      | some (d, b) => some (s.newSense u d b page Option.none)
      | Option.none => Option.none

/-- The sense that a read of conventional unit `u` needs: none where it is unmapped, or not yet in a closed landing row
(R94, R116). -/
def convSense (s : State) (u : Nat) : Option Sense :=
  let e := (look 0xFFFFFFFF s.zns.convMap u).toNat
  if e = 0xFFFFFFFF then Option.none
  else if 2 ^ 31 ≤ e then
    match s.findPage (fun r => r.closed) (fun _ => true) (convPage (u / 4)) (u % 4) with
    | some (r, k, p) => s.landSense u r k p
    | Option.none => Option.none
  else
    let (z, w) := s.convPlace e
    let (k, page) := locate w
    match (s.convSlot z).members[k]? with
    | some (d, b) => some (s.newSense u d b page Option.none)
    | Option.none => Option.none

/-- The senses of a read of `n` units from unit `u`, of a zone or of the conventional namespace. -/
def sensesOf (s : State) (zone : Option Nat) (u n : Nat) : List Sense :=
  (List.range n).foldl (fun l i =>
    match (match zone with
      | some z => s.zoneSense z (u + i)
      | Option.none => s.convSense (u + i)) with
    | some g => addSense l g
    | Option.none => l) []

/-! ### Service on a die (R126, R144) -/

/-- Dies where a read of this purpose runs or waits. -/
def diesWith (s : State) (p : Purpose) : List Nat :=
  (s.fls.dies.filter (fun e => e.2.queue.any (fun q => decide (q.purpose = p)) || (match e.2.op with
    | some o => decide (o.entry.purpose = p)
    | Option.none => false))).map (·.1)

/-- Counts one sense of a block: its read counter, the credit of a compartment, the die-time of the cluster (R125, R130,
R177). -/
def chargeSense (s : State) (d : Nat) (e : QEntry) : State :=
  let ns := nominalNs .read (s.block d e.block).qlc
  ((s.noteStart d e).charge (dieCluster d) e.comp ns).addReadUs (dieCluster d) (ns / 1000)

/-- An operation suspended for reads goes on: one that holds its slot and has reported no failure. -/
def resumeAfter (s : State) (d : Nat) : State :=
  match (s.die d).op with
  | some o => if o.slot then s.resume d else s
  | Option.none => s

/-- A read waiting at a die that has a suspended operation is served in the suspension; the operation goes on after four,
or after the last (R126). -/
def serveQueued (s : State) (d : Nat) (e : QEntry) : State :=
  let v := s.die d
  let s1 := (s.setDie d { v with
    queue := v.queue.erase e
    op := v.op.map (fun o => if o.suspended then { o with served := o.served + 1 } else o) }).chargeSense d e
  match (s1.die d).op with
  | some o =>
    if o.suspended && (decide (4 ≤ o.served) || (s1.headRead d).isNone) then s1.resumeAfter d else s1
  | Option.none => s1.dieNext d

/-- The entry of a purpose that waits at a die. -/
def waitingOf (s : State) (d : Nat) (p : Purpose) : Option QEntry := (s.die d).queue.find? (fun q => decide (q.purpose = p))

/-- A read of this purpose runs on the die. -/
def runsOn (s : State) (d : Nat) (p : Purpose) : Bool :=
  match (s.die d).op with
  | some o => decide (o.entry.purpose = p) && !isProgErase o.entry.kind
  | Option.none => false

/-- The die can finish a read of this purpose now: it runs, or it is the head of the reads served in a suspension. -/
def canFinish (s : State) (d : Nat) (p : Purpose) : Bool :=
  s.runsOn d p || (match (s.die d).op with
    | some o => o.suspended && decide (o.served < 4) && (match s.headRead d with
      | some e => decide (e.purpose = p)
      | Option.none => false)
    | Option.none => false)

/-- The die finishes a read of this purpose. -/
def finishRead (s : State) (d : Nat) (p : Purpose) : State :=
  if s.runsOn d p then s.endOp d
  else match s.waitingOf d p with
    | some e => s.serveQueued d e
    | Option.none => s

/-- The senses of a read-around can have ended: none of them waits behind a program or an erase that runs. -/
def aroundReady (s : State) (p : Purpose) : Bool :=
  (s.diesWith p).all (fun d => s.runsOn d p || (match (s.die d).op with
    | some o => o.suspended || !isProgErase o.entry.kind
    | Option.none => true))

/-- Every read of this purpose ends. -/
def finishAll (s : State) (p : Purpose) : State := (s.diesWith p).foldl (fun t d => t.finishRead d p) s

/-- Counts `n` senses of a block for the media's own work, at the cost of compartment `c` (R130, R177). -/
def senseBlock (s : State) (d b n c : Nat) : State :=
  let ns := nominalNs .read (s.block d b).qlc * n
  ((s.countReads d b n).charge (dieCluster d) c ns).addReadUs (dieCluster d) (ns / 1000)

/-- Charges an operation of die `d` on the data of landing unit `k` of row `r` to the owners of that data (R130); data of the
zones' own pages and of the conventional namespace alike. -/
def senseLanding (s : State) (r k d b : Nat) : State :=
  let ns := nominalNs .read (s.block d b).qlc
  ((s.countReads d b 1).chargeUnit (dieCluster d) r k ns).addReadUs (dieCluster d) (ns / 1000)

/-- Reads landing unit `k` of row `r` for the media's own work: on its die, or where that is lost or the block has failed as
a degraded read from the other 15 units (R165, R177, R194). -/
def senseUnit (s : State) (r k : Nat) : State :=
  match s.landRow r with
  | Option.none => s
  | some row => match row.units[k]? with
    | Option.none => s
    | some u =>
      if s.deadBlock u.die u.block then
        ((row.units.mapIdx (fun i w => (i, w))).filter (fun x => decide (x.1 ≠ k) && !s.deadBlock x.2.die x.2.block)).foldl
          (fun t x => t.senseLanding r k x.2.die x.2.block) s
      else s.senseLanding r k u.die u.block

/-- A landing unit yields its data: its own block does, or all 15 other units of its row do. -/
def unitYields (s : State) (r k : Nat) : Bool :=
  match s.landRow r with
  | Option.none => false
  | some row => match row.units[k]? with
    | Option.none => false
    | some u => !s.deadBlock u.die u.block || (decide (row.units.length = 16) &&
        (row.units.mapIdx (fun i w => (i, w))).all (fun x => decide (x.1 = k) || !s.deadBlock x.2.die x.2.block))

/-! ### Tiers (R183, R184) -/

/-- Set of an attempt of a ladder. -/
def ladderSet (g : Sense) : Nat := (g.set0 + 1 + g.attempt) % 16

/-- Set with which the present attempt was made. -/
def attemptSet (history : Bool) (g : Sense) : Nat :=
  if history then (if g.tier = 3 then ladderSet g else g.set0)
  else if g.tier = 2 then ladderSet g
  else if g.tier = 3 then (match g.best with
    | some b => b.2
    | Option.none => g.set0)
  else g.set0

/-- The better of two attempts of a ladder: fewer unsatisfied checks, the earlier set among equals. -/
def betterSet (old : Option (Nat × Nat)) (w set_ : Nat) : Option (Nat × Nat) :=
  match old with
  | some b => if w < b.1 then some (w, set_) else some b
  | Option.none => some (w, set_)

/-- The sense after an attempt that did not decode: the next attempt of the tier, or the first of the next tier. -/
def nextAttempt (history : Bool) (g : Sense) (w : Nat) : Sense :=
  if history then
    let last := if g.tier = 1 then 0 else if g.tier = 2 then 1 else 3
    if g.attempt < last then { g with attempt := g.attempt + 1 } else { g with tier := g.tier + 1, attempt := 0 }
  else
    let last := if g.tier = 1 then 0 else if g.tier = 2 then 6 else 1
    let g1 := if g.tier = 2 then { g with best := betterSet g.best w (ladderSet g) } else g
    if g.attempt < last then { g1 with attempt := g.attempt + 1 } else { g1 with tier := g.tier + 1, attempt := 0 }

/-- After a success without the H unit the hint set becomes the set that read the page (R183). -/
def learnSet (s : State) (g : Sense) : State :=
  if s.part.history then s
  else
    let b := s.block g.die g.block
    s.setBlock g.die g.block { b with hint := attemptSet false g }

/-! ### A read ends (R117, R421) -/

/-- Every sense of the flight is done. -/
def sensed (v : Flight) : Bool := v.senses.all (fun g => g.done)

/-- The flight only reads. -/
def isRead (k : FlightKind) : Bool :=
  match k with
  | .read | .verify | .compare | .frameRead => true
  | _ => false

/-- A read whose senses are done completes: its data goes to the host unless it is only compared or verified. -/
def endRead (s : State) (v : Flight) : State :=
  let s1 := s.removeFlight v
  let s2 := if v.status = .success ∧ v.kind = .read ∧ !v.squashed ∧ v.peer = Option.none then s1.emit (.data v.cmd v.data) else s1
  let s3 := s2.postFlight v
  let s4 := if v.status = .success ∧ v.peer = Option.none then s3.count v.cmd.comp (v.len * 4096) 0 else s3
  State.settleSaves (match v.zone with
    | some z => s4.settleZones z
    | Option.none => s4)

/-- The member blocks that relocations have left join the deferred-erase queues once no read needs them (R123). -/
def releaseLeft (s : State) : State :=
  (s.fls.blocks.filter (fun e => decide (e.2.use = .leaving) && !s.sensing (e.1 / 8192) (e.1 % 8192))).foldl
    (fun t e => t.deferErase (e.1 / 8192) (e.1 % 8192) .zone) s

end State

end Sys2Proof.Machine
end

