-- ==== Sys2Proof/Machine/Failure.lean ====
section
/-! DEFINITION. What a block, a die or a channel that fails does: members and their rebuilds, zones finished with reduced
capacity, landing units programmed again, relocations, and the conventional region (R74 to R76, R95 to R97, R187 to R196). -/

namespace Sys2Proof.Machine

namespace State

/-! ### Zones that the module itself changes (R75, R76) -/

/-- A zone whose state the module changed enters the Changed Zone Lists of the controllers that list its namespace (R419,
R424, log 24). -/
def zoneChanged (s : State) (z : Nat) : State :=
  let c := s.zoneComp z
  let es := (if c = 0 then [0, 1] else [0, 1, 1 + c]).map (fun i => (i, z))
  let zs := s.hif.changedZones
  let s1 := { s with hif := { s.hif with changedZones := zs ++ es.filter (fun e => !zs.contains e) } }
  ((s1.portAsync 0 27 2 0xEF 0xBF).portAsync 1 27 2 0xEF 0xBF).compAsync c 27 2 0xEF 0xBF

/-- Marks as pinned the landing units that hold data of a zone (R75, R162). -/
def pinUnits (s : State) (z : Nat) : State :=
  let mine := fun (u : LandUnit) => u.valid && u.pages.any (fun p => decide (p.1 < 2 ^ 40) && decide (p.1 / 92160 = z))
  { s with fls := { s.fls with landing := s.fls.landing.map (fun e => (e.1, e.2.map (fun (r : LandRow) =>
      { r with units := r.units.map (fun u => if mine u then { u with pinned := true } else u) }))) } }

/-- The acknowledged units of a zone that neither its QLC blocks nor the landing pool hold. -/
def unheld (s : State) (z : Nat) : List (Nat × Nat × Nat) :=
  ((List.range (s.zone z).acked).filter (fun u =>
    !(s.row z (u / rowUnits)).qlc && !s.inLanding (zonePage z u) (u % 4))).map (fun u =>
      ((look noTag s.zns.tags (z * zoneCapUnits + u)).seq, zonePage z u, u % 4))

/-- Programs into the landing pool what of a zone's acknowledged data stands nowhere on flash, as far as there is room; the rest
follows when landing space comes free (R75, R167). -/
def placePinned (s : State) (z : Nat) : State :=
  let a := Landing.plain 1 (s.zoneComp z)
  let us := s.unheld z
  if us.isEmpty then s
  else
    let t := s.placeSome (pagesOfUnits us) a (fun n k => .landing n k)
    ((t.closeFront a (fun n k => .landing n k)).getD t).pinUnits z

/-- Fails the write flights of a zone that reach beyond its last durable write pointer `a` (R75, step 3). -/
def failWrites (s : State) (z a : Nat) (st : Status) : State :=
  (s.car.flights.filter (fun x => isWrite x.kind && decide (x.zone = some z) && decide (a < x.start + x.len))).foldl (fun t v =>
    let j := (v.segs.findIdx? (fun g => decide (a < v.start + g.off + g.len))).getD 0
    let t1 := t.dropSegs { v with status := st } j
    match t1.flight v.id with
    | some w => t1.endWrite w
    | Option.none => t1) s

/-- The zone is finished with reduced capacity at write pointer `a`, the last durable one; its
rows outside QLC are programmed into the landing pool and pinned there (R75). -/
def reduceTo (s : State) (z a : Nat) : State :=
  let s1 := s.unqueue (fun q => match q.purpose with
    | .zoneRow y _ _ => decide (y = z)
    | .fold y _ _ => decide (y = z)
    | _ => false)
  let comp := s.zoneComp z
  let s2 := s1.placePinned z
  let rows := (List.range ((a + rowUnits - 1) / rowUnits)).filter (fun r => !(s2.row z r).qlc)
  let s3 := rows.foldl (fun t r => t.setRow z r { t.row z r with pinned := true, folding := false }) (s2.pinUnits z)
  let s4 := (s3.failWrites z a (.vendor 0x87)).rollBack z a
  let s5 := s4.setZone z { s4.zone z with
    state := .full, cap := a, wp := a, acked := a, runs := [], reduced := true, pinned := !rows.isEmpty, active := false,
    dataEnd := Option.none, beforeFull := Option.none }
  let per := match s5.zoneNsid z with
    | some n => match s5.space n with
      | some e => e.unitsPerLba
      | Option.none => 1
    | Option.none => 1
  ((((s5.event 0x0300 3 (srcZone z) comp [z, a / per]).pinCheck).journal).zoneChanged z).settleZones z

/-- A member of an active zone fails and its die has no spare; the other side of its pair follows (R75, R530). -/
def reduceZone (s : State) (z : Nat) : State :=
  let a := (s.zone z).acked
  (s.tellPeer z 0 5 a).reduceTo z a

/-- A member of a Full zone fails and its die has no spare: Read Only (R76). -/
def readOnlyZone (s : State) (z : Nat) : State :=
  ((s.setZone z { s.zone z with state := .readOnly }).journal).zoneChanged z

/-! ### The conventional landing share (R94, R95) -/

/-- Places conventional units that stand in no landing row into landing fronts, as far as the landing share and the pool have room
(R95, R600); `us` count in the share already. -/
def convPlaceUnits (s : State) (us : List Nat) : State :=
  let a := Landing.plain 1 (s.pageComp (convPage 0))
  let room := s.shareUnits - (s.zns.convShare - us.length)
  let t := s.placeSome (pagesOfUnits ((us.take room).map (fun u => (0, convPage (u / 4), u % 4)))) a (fun n k => .landing n k)
  (t.closeFront a (fun n k => .landing n k)).getD t

/-- Units of the landing share that stand in no landing row and in no staging segment. -/
def convWaiting (s : State) : List Nat :=
  s.zns.convPend.filter (fun u => !s.inLanding (convPage (u / 4)) (u % 4) &&
    !s.car.staged.any (fun x => decide (x.zone = Option.none) && decide (x.start ≤ u) && decide (u < x.start + x.len)))

/-- Mapped units that lie in a stripe row of the conventional region. -/
def unitsInRow (s : State) (k : Nat) : List Nat :=
  (s.zns.convMap.filter (fun e => decide (e.2.toNat < 2 ^ 31) && decide (s.convRowOf e.2.toNat = k))).map (·.1)

/-- Reads the members of a conventional stripe row that hold given places of it (R177). -/
def senseConvRow (s : State) (k : Nat) : State :=
  let used := ((s.unitsInRow k).map (fun u =>
    (locate (s.convPlace (look 0xFFFFFFFF s.zns.convMap u).toNat).2).1)).dedup
  let c := s.pageComp (convPage 0)
  ((s.convSlot (k / 96)).members.mapIdx (fun i m => (i, m))).foldl (fun t x =>
    if used.contains x.1 && !t.deadBlock x.2.1 x.2.2 then t.senseBlock x.2.1 x.2.2 64 c else t) s

/-- Copies the valid units of a conventional stripe row to the landing share and counts the row as reclaimed (R96, R191).
DESIGN CHOICE (log 149): the landing share is where a reclaimed row's valid units go. -/
def convEvacuate (s : State) (k : Nat) : State :=
  let us := s.unitsInRow k
  let t := us.foldl convLand (s.senseConvRow k)
  ({ t with zns := { t.zns with convRows := put 0 t.zns.convRows k 0 } }).convPlaceUnits us

/-- The blocks of a carved slot without valid data join the deferred-erase queues, and the slot is free again. -/
def freeSlot (s : State) (z : Nat) : State :=
  let t0 := (s.unqueue (fun q => match q.purpose with
    | .conventional k _ => decide (k / 96 = z)
    | _ => false))
  let t := (t0.convSlot z).members.foldl (fun t m => t.deferErase m.1 m.2 .zone)
    { t0 with zns := { t0.zns with convFills := t0.zns.convFills.filter (fun f => decide (f.row / 96 ≠ z)) } }
  let t1 := t.setConvSlot z ConvSlot.none
  if t1.zns.convRegionNext / 96 = z then { t1 with zns := { t1.zns with convRegionNext := 0 } } else t1

/-- A conventional member fails and its die has no spare: the slot's valid units go to the landing share, and the slot's
capacity is taken from over-provision (R191). -/
def convReduce (s : State) (z : Nat) : State :=
  ((List.range 96).foldl (fun t r => if 0 < look 0 t.zns.convRows (z * 96 + r) then t.convEvacuate (z * 96 + r) else t) s).freeSlot z

/-- A member fails and no spare replaces it (R75, R76, R191, R196). -/
def noSpare (s : State) (z : Nat) : State :=
  if s.isCarved z then s.convReduce z
  else if (s.zone z).active then s.reduceZone z
  else if (s.zone z).state = .full then s.readOnlyZone z
  else s

/-- Stripe rows of a zone or a carved slot that are issued and have not closed in its blocks. -/
def rowsInFlight (s : State) (z : Nat) : List Nat :=
  if s.isCarved z then (s.zns.convFills.filter (fun f => decide (f.row / 96 = z))).map (fun f => f.row % 96)
  else (List.range 96).filter (fun r => (s.row z r).issued && !(s.row z r).qlc && !(s.row z r).pinned)

/-- Removes a relocation from the list. -/
def dropReloc (s : State) (id : Nat) : State :=
  { s with fls := { s.fls with relocs := s.fls.relocs.filter (fun r => decide (r.id ≠ id)) } }

/-- A second member of the same rows is lost, and no rebuild of the zone can go on: its targets are erased again, and the zone
is finished or goes Read Only (R75, R76, R194). The rows of a carved slot stay where they are and read with an error. -/
def secondLoss (s : State) (z : Nat) : State :=
  let mine := s.fls.relocs.filter (fun r => decide (r.zone = z) && decide (r.kind = .rebuild))
  let kept := (s.fls.rebuild.filter (fun r => decide (r.zone = z))).filterMap (·.target)
  let s1 := { s with fls := { s.fls with rebuild := s.fls.rebuild.filter (fun r => decide (r.zone ≠ z)) } }
  let s2 := mine.foldl (fun t r =>
    ((t.unqueue (fun q => decide (q.purpose = .reloc r.id))).dropReloc r.id).deferErase r.dstDie r.dstBlock .zone) s1
  let s3 := kept.foldl (fun t m => t.deferErase m.1 m.2 .zone) s2
  if s3.isCarved z then s3 else s3.noSpare z

/-! ### Members that fail (R74, R137, R189, R191) -/

/-- Member `k` of a zone or carved slot has failed: a relocation of it goes on as a rebuild, and a spare takes the block's place
in the zone role (R189, R192); else a spare of its die replaces it, else there is none. On a lost die the rebuild finds its
substitute when it starts (R194). -/
def memberFailed (s : State) (z k : Nat) (dieLost : Bool) : State :=
  let fs := s.failedOf z
  if fs.contains k then s
  else
    let s1 := s.setMembersOf z (s.membersOf z) (fs ++ [k])
    let running := s1.fls.relocs.any (fun r => decide (r.zone = z) && decide (r.member = k))
    if !fs.isEmpty && decide (0 < s1.closedRows z) then s1.secondLoss z
    else if running && !dieLost then
      let t := match (s1.membersOf z)[k]? with
        | some (d, _) => match s1.takeSpare d .zone .free with
          | some (_, t) => t
          | Option.none => s1
        | Option.none => s1
      { t with fls := { t.fls with relocs := t.fls.relocs.map (fun (r : Reloc) =>
          if r.zone = z ∧ r.member = k then { r with kind := .rebuild } else r) } }
    else if dieLost then
      { s1 with fls := { s1.fls with rebuild := s1.fls.rebuild ++ [{ zone := z, member := k, target := Option.none }] } }
    else match (s1.membersOf z)[k]? with
      | Option.none => s1
      | some (d, _) => match s1.takeSpare d .zone .target with
        | some (b, t) =>
          { t with fls := { t.fls with rebuild := t.fls.rebuild ++ [{ zone := z, member := k, target := some (d, b) }] } }
        | Option.none => s1.noSpare z

/-! ### Landing units that fail (R160, R191, R194) -/

/-- Unit `k` of landing row `r` is programmed again on another die of its cluster; with none to be had it counts as covered by
parity until it can be rebuilt (R137, R191). -/
def redoUnit (s : State) (r k : Nat) (cls comp : Nat) (p : Purpose) : State :=
  match s.landRow r with
  | Option.none => s
  | some row => match row.units[k]? with
    | Option.none => s
    | some u =>
      let c := dieCluster u.die
      let give := fun (t : State) => (t.setLandRow r (some { row with
        units := modAt row.units k (fun u => { u with die := noDie c, block := 0, page := 0 }) })).settleProgram p
      match s.landingDieBut c (fun d => decide (d = u.die)) with
      | Option.none => give s
      | some d => match s.landingPlace d false with
        | Option.none => give s
        | some (b, pg, t) =>
          let e : QEntry := { kind := .progSlc, block := b, page := pg, cls := cls, comp := comp, admittedAt := t.now,
                              capWait := false, flush := false, purpose := p }
          ((t.setLandRow r (some { row with
            units := modAt row.units k (fun u => { u with die := d, block := b, page := pg, programmed := false }) })).layLanding
              r c row.units u.pages d b pg).enqueue d e

/-- A copy of a page is under way: a landing front, or a unit that is not programmed yet, holds codewords of it. -/
def copying (s : State) (p : Nat × Nat) : Bool :=
  let same := fun (q : Nat × Nat) => decide (q.1 = p.1) && decide (q.2 &&& p.2 ≠ 0)
  s.fls.landing.any (fun e => match e.2 with
    | some r => r.front.any same || r.units.any (fun u => u.valid && !u.programmed && u.pages.any same)
    | Option.none => false)

/-- Moves landing unit `k` of row `r`: the unit is read, or rebuilt from the other 15 of its row, and its pages go into new landing
rows, a rebuilt unit's on a die of its own cluster (R166, R191, R194); a parity unit is programmed again in its cluster. The
unit stays valid until its copy is programmed (R162). Nothing changes where there is no room or no data. -/
def moveUnit (s : State) (a : Landing) (rebuild : Bool) (r k : Nat) (u : LandUnit) : State :=
  let c := dieCluster u.die
  if !s.unitYields r k || (rebuild && (s.landingDie c).isNone) then s
  else if isParity r u then (s.senseUnit r k).redoUnit r k a.cls 0 (.landing r k)
  else if (u.pages.filter livePage).all s.copying then s
  else
    let ps := u.pages.filter livePage
    let b : Landing := { a with comp := match ps with
      | p :: _ => s.pageComp p.1
      | [] => 0 }
    let t := s.senseUnit r k
    match (if rebuild then t.placeUnit c ps b else t.placePages ps b (fun n k => .landing n k)) with
    | Option.none => s
    | some w => if u.pinned then (ps.filter (fun p => decide (p.1 < 2 ^ 40))).foldl (fun x p => x.pinUnits (p.1 / 92160)) w else w

/-- A block becomes the target of a relocation of another: its pages carry the next generation of the member (R202, DEDUCED
log 157). -/
def setTarget (s : State) (sd sb d b : Nat) : State :=
  s.setBlock d b { s.block d b with use := .target, gen := ((s.block sd sb).gen + 1) % 16 }

/-- Page `p` of the target of a relocation or rebuild: the source's page, or for a rebuild the exclusive OR of the other 15
members', and the record, which keeps `seq` and `time` (R158, R187, R203). -/
def copyPage (s : State) (r : Reloc) (p : Nat) : List Byte × Nat :=
  let ms := (s.membersOf r.zone).mapIdx (fun k m => (k, m))
  let n := leNat (s.pageRecord r.srcDie r.srcBlock p)
  let place := memberPlace r.zone r.member r.dstDie
  (if r.kind = .rebuild then (ms.filter (fun x => decide (x.1 ≠ r.member))).foldl (fun bs x => xorBytes bs (s.pageData x.2.1 x.2.2 p)) zeroPage
    else s.pageData r.srcDie r.srcBlock p,
   fieldOf (if n = 0 then (s.rowPage r.zone (p / 64) r.member r.dstDie (p % 64)).2.number else n) 210 5 place)

/-- Lays the next unit of a relocation or rebuild. -/
def layCopy (s : State) (r : Reloc) : State :=
  (List.range 64).foldl (fun t j =>
    let x := s.copyPage r (r.copied * 64 + j)
    t.layPage r.dstDie r.dstBlock (r.copied * 64 + j) x.1 x.2) s

/-- Moves the programmed landing units that `f` names. -/
def moveUnits (s : State) (a : Landing) (rebuild : Bool) (f : LandUnit → Bool) : State :=
  let found : List (Nat × Nat × LandUnit) := s.fls.landing.flatMap (fun e => match e.2 with
    | some r => ((r.units.mapIdx (fun k u => (k, u))).filter (fun x => x.2.valid && x.2.programmed && f x.2)).map
        (fun x => (e.1, x.1, x.2))
    | Option.none => [])
  let t := found.foldl (fun t x => t.moveUnit a rebuild x.1 x.2.1 x.2.2) s
  if rebuild || found.isEmpty then t else (t.closeFront a (fun n k => .landing n k)).getD t

/-- Class of rebuilds on a die (R186). -/
def rebuildCls (s : State) (d : Nat) : Nat := classOf (s.clusterOf (dieCluster d)).media.rebuildClass

/-- Landing space has come free: what waits for it goes on (R75, R95, R167, R191, R194, R217). -/
def landingGoes (s : State) : State :=
  let s1 := s.moveUnits (Landing.plain 1 0) true (fun u => s.deadBlock u.die u.block)
  let s2 := (s1.zns.zones.filter (fun e => e.2.pinned)).foldl (fun t e => t.placePinned e.1) s1
  let s3 := if s2.convWaiting.isEmpty then s2 else s2.convPlaceUnits s2.convWaiting
  if s3.plog.limitMib * 256 < s3.dirtyUnits then s3.shadowExcess else s3

/-! ### Relocation (R187, R188) -/

/-- Program units that a relocation or rebuild has to copy by now: those of the rows that have closed (R188); where no row is in
flight, all that the source holds. -/
def relocGoal (s : State) (r : Reloc) : Nat :=
  match r.kind with
  | .rebuild => s.closedRows r.zone
  | .refresh | .wear =>
    let w := (s.block r.srcDie r.srcBlock).wp / 64
    (s.rowsInFlight r.zone).foldl min w

/-- Class of a relocation (R175, R186, R194). -/
def relocCls (s : State) (r : Reloc) : Nat :=
  let m := (s.clusterOf (dieCluster r.dstDie)).media
  match r.kind with
  | .rebuild => classOf m.rebuildClass
  | .refresh | .wear => classOf m.relocClass

/-- A program of the relocation waits or runs. -/
def relocBusy (s : State) (id : Nat) : Bool := !(s.diesWith (.reloc id)).isEmpty

/-- Copies the next program unit: it is read from the source, or rebuilt from the other 15 members, and its program joins
the target's die queue (R187). -/
def relocStep (s : State) (id : Nat) : State :=
  match s.fls.relocs.find? (fun r => decide (r.id = id)) with
  | Option.none => s
  | some r =>
    let others := ((s.membersOf r.zone).mapIdx (fun k m => (k, m))).filter (fun (x : Nat × Nat × Nat) => decide (x.1 ≠ r.member))
    if s.relocBusy id || decide (s.relocGoal r ≤ r.copied) then s
    else if decide (r.kind = .rebuild) && others.any (fun x => (s.failedOf r.zone).contains x.1 || s.deadBlock x.2.1 x.2.2) then
      s.secondLoss r.zone
    else
      let c := s.slotComp r.zone
      let s1 := match r.kind with
        | .rebuild => others.foldl (fun (t : State) (x : Nat × Nat × Nat) => t.senseBlock x.2.1 x.2.2 64 c) s
        | .refresh | .wear => s.senseBlock r.srcDie r.srcBlock 64 c
      (s1.layCopy r).enqueue r.dstDie
        { kind := .progQlc, block := r.dstBlock, page := r.copied * 64, cls := s.relocCls r, comp := c, admittedAt := s.now
          capWait := false, flush := false, purpose := .reloc id }

/-- Every relocation of a zone goes on. -/
def relocZone (s : State) (z : Nat) : State :=
  (s.fls.relocs.filter (fun r => decide (r.zone = z))).foldl (fun t r => t.relocStep r.id) s

/-- Starts a relocation or rebuild of member `k` into a target. -/
def startReloc (s : State) (kind : RelocKind) (z k d b : Nat) : State :=
  match (s.membersOf z)[k]? with
  | Option.none => s
  | some (sd, sb) =>
    let r : Reloc := { id := s.fls.relocNext, kind := kind, zone := z, member := k, srcDie := sd, srcBlock := sb,
                       dstDie := d, dstBlock := b, copied := 0 }
    let s1 := s.setTarget sd sb d b
    ({ s1 with fls := { s1.fls with relocs := s1.fls.relocs ++ [r], relocNext := s1.fls.relocNext + 1 } }).relocStep r.id

/-- The die of a cluster with the most spares, or the lowest index among equals; none where none has a spare (R194). -/
def richestDie (s : State) (k : Nat) : Option Nat :=
  firstBy (fun a b => decide (s.spares b < s.spares a)) ((s.clusterDies k).filter (fun d => decide (0 < s.spares d)))

/-- Members of a zone that lie in a cluster. -/
def membersIn (s : State) (z k : Nat) : Nat := ((s.membersOf z).filter (fun m => decide (dieCluster m.1 = k))).length

/-- Spares of a cluster. -/
def clusterSpares (s : State) (k : Nat) : Nat := sumBy s.spares (s.clusterDies k)

/-- The die that gives the substitute of member `k` of a zone: in the same cluster while it has a die, else in the cluster
with the fewest members of the zone, the most spares, the lowest index (R194). -/
def substituteDie (s : State) (z k : Nat) : Option Nat :=
  let home := match (s.membersOf z)[k]? with
    | some m => dieCluster m.1
    | Option.none => k
  if (s.clusterDies home).all (fun d => (s.die d).lost) then
    let others := (List.range 16).filter (fun c => decide (c ≠ home) && (s.richestDie c).isSome)
    match firstBy (fun a b => decide (s.membersIn z a < s.membersIn z b) || (decide (s.membersIn z a = s.membersIn z b) &&
        decide (s.clusterSpares b < s.clusterSpares a))) others with
    | some c => s.richestDie c
    | Option.none => Option.none
  else s.richestDie home

/-- The die that gives another target in place of one that has failed: the target's own; for a member of a lost die, the die of
another substitute (R189, R194). -/
def retargetDie (s : State) (r : Reloc) : Nat :=
  if s.spares r.dstDie = 0 ∧ (s.die r.srcDie).lost then (s.substituteDie r.zone r.member).getD r.dstDie else r.dstDie

/-- The target of a relocation or rebuild fails: another spare takes its place, or the relocation is abandoned (R189). The pages
of a block are programmed in ascending order (R148), so the units already copied go into the new target first, then the
affected one, then the later ones (log 150). -/
def targetFails (s : State) (id cause : Nat) : State :=
  match s.fls.relocs.find? (fun r => decide (r.id = id)) with
  | Option.none => s
  | some r =>
    let s1 := (s.unqueue (fun q => decide (q.purpose = .reloc id))).retire r.dstDie r.dstBlock cause
    let d := s1.retargetDie r
    match s1.takeSpare d .zone .target with
    | some (b, t) =>
      let u := t.setTarget r.srcDie r.srcBlock d b
      ({ u with fls := { u.fls with relocs := u.fls.relocs.map (fun (x : Reloc) =>
          if x.id = id then { x with dstDie := d, dstBlock := b, copied := 0 } else x) } }).relocStep id
    | Option.none =>
      let s2 := (s1.dropReloc id).event 0x0505 3 (srcZone r.zone) (s1.slotComp r.zone) [r.srcDie, r.srcBlock]
      if r.kind = .rebuild then s2.noSpare r.zone else s2

/-! ### Blocks that fail (R190 to R192) -/

/-- A block fails: it is retired and replaced, and what it holds is recovered by its role. -/
def blockFails (s : State) (d b cause : Nat) : State :=
  let k := s.block d b
  let served := s.servedBy d b
  let waiting := (s.die d).queue.filter (fun q => isProgram q.kind && decide (q.block = b))
  let s1 := (s.unqueue (fun q => isProgram q.kind && waiting.contains q)).retire d b cause
  let s2 := waiting.foldl (fun t q => match q.purpose with
    | .landing r j => t.redoUnit r j q.cls q.comp q.purpose
    | .segment _ _ r j => t.redoUnit r j q.cls q.comp q.purpose
    | _ => t) s1
  match served with
  | some (z, j) => s2.memberFailed z j false
  | Option.none =>
    if k.role = .landing then
      (s2.moveUnits (Landing.plain (s2.rebuildCls d) 0) true (fun u => decide (u.die = d) && decide (u.block = b))).reserveCheck
    else s2

/-- The blocks of a completed read that needed tier 4, or reached tier 5, are retired (R185, R191). -/
def retireRead (s : State) (v : Flight) : State :=
  v.senses.foldl (fun t g =>
    if 4 ≤ g.tier ∧ !t.deadBlock g.die g.block then t.blockFails g.die g.block (if g.tier = 4 then 2 else 3) else t) s

/-- A read that failed here goes to the other side of its pair, or one of a zone that this side is still receiving: the
neighbour, where the other side can be asked (R532). -/
def forwards (s : State) (v : Flight) : Option Nat :=
  match v.zone with
  | Option.none => Option.none
  | some z =>
    if v.forwarded || v.peer.isSome then Option.none
    else ((s.livePair z).filter (fun (p : Pair) => decide (v.status = .unrecoveredRead) ||
      (decide (p.role = .mirror) && p.resync.contains z))).map (fun (p : Pair) => p.peer)

/-- Sends a read to the other side (R532). -/
def forwardRead (s : State) (v : Flight) (m : Nat) : State :=
  match v.zone with
  | some z => (s.setFlight { v with forwarded := true }).toPeer m (classRank v.cls) (.forwardRead m (s.zoneNumber z) v.start v.len v.cls)
  | Option.none => s

/-- Settles a read whose senses may all be done. -/
def settleRead (s : State) (f : Nat) : State :=
  match s.flight f with
  | some v =>
    if v.forwarded then s
    else if isRead v.kind && sensed v then
      match s.forwards v with
      | some m => ((s.forwardRead v m).retireRead v).releaseLeft
      | Option.none =>
      if v.kind = .frameRead ∧ v.status = .success then s.settleCodec else ((s.endRead v).retireRead v).releaseLeft
    else s
  | Option.none => s

/-- The program or erase of an entry has failed: its block is retired, and the issuer recovers (R190, R191). -/
def entryFails (s : State) (d : Nat) (e : QEntry) (cause : Nat) : State :=
  match e.purpose with
  | .reloc id => s.targetFails id cause
  | .landing r k => (s.blockFails d e.block cause).redoUnit r k e.cls e.comp e.purpose
  | .segment _ _ r k => (s.blockFails d e.block cause).redoUnit r k e.cls e.comp e.purpose
  | .store => (s.blockFails d e.block cause).storeFails
  | .journal | .checkpoint => (s.blockFails d e.block cause).rewriteSystem d e.block e
  | .reel i n => (s.blockFails d e.block cause).settleOp i n (answer (match s.opOf i n with
      | some (.give _ _) => 0
      | _ => 1) 0)
  | _ => s.blockFails d e.block cause

/-- The failure that a die reports for its operation (R190, R191). -/
def opFails (s : State) (d : Nat) (o : DieOp) : State :=
  let e := o.entry
  let v := s.die d
  let s1 := s.setDie d { v with op := Option.none, starved := false }
  (s1.entryFails d e (if isErase e.kind then 1 else 0)).dieNext d

/-- The oldest program that the channel engine of die `d` has refused and whose issuer has not been told. -/
def refusedAt (s : State) (d : Nat) : Option QEntry := (s.fls.refusals.find? (fun x => decide (x.1 = d))).map (·.2)

/-- The issuer of a refused program is told: it posts event 0x0504 with itself as the source, and the block counts as one whose
program failed (R149, R190). -/
def tellRefusal (s : State) (d : Nat) (e : QEntry) : State :=
  let issuer := match e.purpose with
    | .zoneRow z _ _ => srcZone z
    | .fold z _ _ => srcZone z
    | .conventional _ _ => srcRegion (s.dieRegion d) 2
    | _ => srcRegion (s.dieRegion d) 1
  let code := (s.refusal d e).getD 0x89
  let s1 := { s with fls := { s.fls with refusals := s.fls.refusals.erase (d, e) } }
  let s2 := (s1.event 0x0504 3 issuer e.comp [d, e.block, e.page, code]).logProgram d e.block e.page code
  (s2.entryFails d e 4).dieNext d

/-! ### Dies and channels that are lost (R193, R194, R137) -/

/-- A read-around or degraded read gives up its senses. -/
def cancelAround (s : State) (f j : Nat) : State :=
  let p := Purpose.around f j
  let running := (s.diesWith p).filter (fun d => s.runsOn d p)
  running.foldl (fun t d => t.endOp d) (s.unqueue (fun q => decide (q.purpose = p)))

/-- A sense in flight to a lost die is scheduled again as a degraded read (R137); one that was itself a reconstruction is
read from its target, or fails where the target has failed too (R124). -/
def resense (s : State) (f j : Nat) : State :=
  match s.flight f with
  | Option.none => s
  | some v => match v.senses[j]? with
    | Option.none => s
    | some g =>
      if g.done then s
      else
        let t := s.cancelAround f j
        (if t.targetFailed v g then t.degraded v j g else t.suspendAndRead v j g).settleRead f

/-- What becomes of an operation that a lost die held or that waited for it. -/
def orphan (s : State) (e : QEntry) : State :=
  match e.purpose with
  | .zoneRow z r k | .fold z r k =>
    s.setRow z r { s.row z r with programmed := (s.row z r).programmed ||| BitVec.ofNat 16 (2 ^ k) }
  | .landing r k => s.redoUnit r k e.cls e.comp e.purpose
  | .segment _ _ r k => s.redoUnit r k e.cls e.comp e.purpose
  | .hostRead f j => s.resense f j
  | .around f j => s.resense f j
  | .store => s.storeFails
  | .reel i n => if isProgErase e.kind then s.settleOp i n (answer 1 0) else s
  | .conventional r k => s.convProgrammed r k
  | .journal => s.journalProgrammed
  | .checkpoint => s.ckptProgrammed
  | .reloc _ | .erase _ | .patrol => s

/-- Operation and queue of a die. -/
def entriesOf (v : Die) : List QEntry :=
  (match v.op with
    | some o => [o.entry]
    | Option.none => []) ++ v.queue

/-- The die is out of service: nothing runs or waits there, it has no spare and no deferred erase; event 0x0502. -/
def dieDown (s : State) (d : Nat) : State :=
  let f := fun (t : State) => t.setDie d { t.die d with
    op := Option.none, queue := [], lost := true, starved := false, eraseQueue := [], landingBlock := Option.none, passed := 0, owed := 0 }
  (s.withSpares d f).event 0x0502 4 (src 1 (dieChannel d)) 0 [d]

/-- Relocations that a lost die takes part in end; a rebuild whose target it held asks for another. -/
def relocsDown (s : State) (d : Nat) : State :=
  let hit := s.fls.relocs.filter (fun r => decide (r.dstDie = d) || decide (r.srcDie = d) && decide (r.kind ≠ .rebuild))
  let again : List Rebuild := (hit.filter (fun r => decide (r.kind = .rebuild))).map (fun r =>
    { zone := r.zone, member := r.member, target := Option.none })
  let s1 := hit.foldl (fun t r => t.dropReloc r.id) s
  { s1 with fls := { s1.fls with
      rebuild := s1.fls.rebuild.map (fun (r : Rebuild) => match r.target with
        | some (x, _) => if x = d then { r with target := Option.none } else r
        | Option.none => r) ++ again
      refresh := s1.fls.refresh.filter (fun x => decide (x.1 ≠ d)) } }

/-- Zones and carved slots with a member on a die: (zone, member), in ascending zone order. -/
def membersOn (s : State) (d : Nat) : List (Nat × Nat) :=
  let of := fun (z : Nat) (ms : List (Nat × Nat)) =>
    ((ms.mapIdx (fun k m => (k, m))).filter (fun x => decide (x.2.1 = d))).map (fun x => (z, x.1))
  s.zns.zones.flatMap (fun e => of e.1 e.2.members) ++ s.zns.convSlots.flatMap (fun e => of e.1 e.2.members)

/-- Dies that one fault takes away: all are out of service before anything is rebuilt (R194). -/
def loseDies (s : State) (ds : List Nat) : State :=
  let ds := ds.filter (fun d => !(s.die d).lost)
  let es := ds.flatMap (fun d => entriesOf (s.die d))
  let s1 := ds.foldl dieDown s
  let s2 := ds.foldl relocsDown s1
  let s3 := ds.foldl (fun t d => (t.membersOn d).foldl (fun u m => u.memberFailed m.1 m.2 true) t) s2
  let s4 := es.foldl orphan s3
  let s5 := ds.foldl (fun t d => t.moveUnits (Landing.plain (t.rebuildCls d) 0) true (fun u => decide (u.die = d))) s4
  s5.sweepLanding.reserveCheck

/-- Dies of a channel. -/
def channelDies (s : State) (c : Nat) : List Nat := (List.range s.part.variant.ranks).map (fun r => r * 64 + c)

/-- A channel or its engine is lost, and every die on it (R193); the cluster watchdog posts event 0x0503. -/
def loseChannel (s : State) (c : Nat) : State :=
  let s1 := { s with fls := { s.fls with channels := modAt s.fls.channels c (fun x => { x with lost := true }) } }
  (s1.event 0x0503 4 (src 9 (c / 4)) 0 [c]).loseDies (s1.channelDies c)

end State

end Sys2Proof.Machine
end

