-- ==== Sys2Proof/Machine/Durable.lean ====
section
/-! DEFINITION. What flash keeps: the journal, what is left when the core regulator goes off, and what a mount reads back
(R206, R207, R210 to R213, R343). -/

namespace Sys2Proof.Machine

namespace State

/-! ### The journal (R206) -/

/-- A zone as flash would give it back at this moment: its data up to the end of the programmed run. -/
def trimZone (s : State) (z : Nat) (v : Zone) : Zone :=
  let d := s.durableEnd z
  { v with wp := if v.dataEnd.isSome then v.wp else d, acked := d, runs := [], finishing := false,
           beforeFull := Option.none }

/-- The zone tables as flash would give them back. -/
def durableZones (s : State) : Zones :=
  { s.zns with
    zones := s.zns.zones.map (fun e => (e.1, s.trimZone e.1 e.2))
    rows := s.zns.rows.filter (fun e => e.2.qlc || e.2.pinned) }

/-- The metadata as it stands; before a mount there is nothing that a record could add to what flash holds. -/
def durableNow (s : State) : Durable :=
  if s.mounted then
    { zones := s.durableZones, comps := s.cmp, keys := s.sec.keys, foldCfg := s.fls.fold, shares := s.car.share, reads := s.nv.reads }
  else s.nv

/-- The units that the journal's DRAM tail fills, each written by `f` (R206). -/
def journalUnits (s : State) (f : State → State) : State :=
  let t := times (fun u => let w := f u; { w with jrn := { w.jrn with units := w.jrn.units + 1 } }) ((s.jrn.tail * 64 + 65535) / 65536) s
  { t with jrn := { t.jrn with tail := 0, lastSeq := if s.jrn.tail = 0 then t.jrn.lastSeq else t.jrn.tailSeq } }

/-- Programs the journal's DRAM tail in a step that ends when its programs have: everything recorded so far is durable (R206). -/
def journalNow (s : State) : State :=
  let t := s.journalUnits (fun u => u.journalWrite false)
  { t with nv := s.durableNow, nvNext := s.durableNow }

/-- The flush programs the journal's tail (R219, step 4). -/
def journalFlush (s : State) : State :=
  let t := s.journalUnits (fun u => u.journalWrite true)
  { t with nv := s.durableNow, nvNext := s.durableNow }

/-- Queues the programs of the journal's DRAM tail: what it records is durable once they have completed (R206). -/
def journalGo (s : State) : State :=
  let t := s.journalUnits journalQueue
  ({ t with nvNext := s.durableNow }).journalProgrammed

/-! ### Power goes (R213, R219 step 6, R220) -/

/-- States that the journal alone tells: a finish, a failure, an offline (R206, R212). -/
def journalled (v : Zone) : Bool :=
  match v.state with
  | .full => v.dataEnd.isSome || v.reduced
  | .readOnly | .offline => true
  | _ => false

/-- The zone as the next mount will find it: from its data where it has any, else as the journal last gave it
(R212, R213). The data end of a finished zone is the first page marked filler: the page behind its last data (R69). -/
def zoneLeft (s : State) (z : Nat) : Zone × Bool :=
  let l := s.zone z
  let j := look Zone.none s.nv.zones.zones z
  let d := s.durableEnd z
  if d = 0 ∧ (0 < j.acked ∨ journalled j) then (j, false)
  else if journalled j then ({ j with acked := d, active := false, finishing := false,
                                         dataEnd := j.dataEnd.map (fun e => if e ≤ d then min j.cap ((e + 3) / 4 * 4) else d) }, true)
  else
    let st : ZState := if d = l.cap then .full else if 0 < d then .closed else .empty
    ({ l with state := st, wp := d, acked := d, runs := [], finishing := false, beforeFull := Option.none,
              dataEnd := Option.none, active := decide (st = .closed), members := if d = 0 then [] else l.members }, true)

/-- Numbers of the zones that either table lists. -/
def zonesListed (s : State) : List Nat := ((s.zns.zones.map (·.1)) ++ (s.nv.zones.zones.map (·.1))).dedup

/-- Entries of `old` overlaid by those of `new`. -/
def overlay {V : Type} [DecidableEq V] (d : V) (old new : SMap V) : SMap V := new.foldl (fun m e => put d m e.1 e.2) old

/-- The zone and translation tables that the next mount will find. -/
def zonesLeft (s : State) : Zones :=
  let ls := (s.zonesListed.map (fun z => (z, s.zoneLeft z)))
  let live := fun (z : Nat) => ls.any (fun e => decide (e.1 = z) && e.2.2)
  let n := s.nv.zones
  let end_ := fun (z : Nat) => (s.zoneLeft z).1.acked
  let conv := s.zns.convMap.filter (fun e => !s.zns.convPend.contains e.1)
  { s.zns with
    zones := ls.foldl (fun m e => put Zone.none m e.1 e.2.1) []
    data := overlay 0 (n.data.filter (fun e => !live (e.1 / 2 ^ 31)))
      (s.zns.data.filter (fun e => live (e.1 / 2 ^ 31) && decide (e.1 % 2 ^ 31 < end_ (e.1 / 2 ^ 31) * 4096)))
    tags := overlay noTag (n.tags.filter (fun e => !live (e.1 / zoneCapUnits)))
      (s.zns.tags.filter (fun e => live (e.1 / zoneCapUnits) && decide (e.1 % zoneCapUnits < end_ (e.1 / zoneCapUnits))))
    rows := overlay Row.none (n.rows.filter (fun e => !live (e.1 / 96)))
      (s.zns.rows.filter (fun e => live (e.1 / 96) && (e.2.qlc || e.2.pinned)))
    pgroups := n.pgroups, spaces := n.spaces, carved := n.carved, convShare := n.convShare, convNext := s.zns.convNext
    convRegionNext := n.convRegionNext, reclaimPct := n.reclaimPct
    convMap := overlay 0xFFFFFFFF n.convMap conv
    convData := overlay 0 n.convData (s.zns.convData.filter (fun e => conv.any (fun c => decide (c.1 = e.1 / 4096))))
    convTags := overlay noTag n.convTags (s.zns.convTags.filter (fun e => conv.any (fun c => decide (c.1 = e.1))))
    convPend := [], online := false }

/-- The landing pool as flash keeps it: programmed units only. -/
def landingLeft (s : State) : SMap (Option LandRow) :=
  s.fls.landing.filterMap (fun e => match e.2 with
    | some r =>
      let kept := fun (u : LandUnit) =>
        let ps := u.pages.map (fun p => if p.1 < 2 ^ 41 then p else deadPage)
        if u.pages.isEmpty then u else { u with pages := ps, valid := u.valid && ps.any livePage }
      let us := (r.units.map kept).filter (fun u => u.programmed && u.valid)
      if us.isEmpty then Option.none else some (e.1, some { units := us, front := [], closed := true })
    | Option.none => Option.none)

/-- The blocks as flash keeps them: members of a zone that comes back Empty are free again, members of a zone whose reset
was not recorded are its own again (R213). -/
def blocksLeft (s : State) : SMap Block :=
  let back := s.zonesListed.filter (fun z => !(s.zoneLeft z).2)
  let empty := s.zonesListed.filter (fun z => (s.zoneLeft z).2 && decide ((s.zoneLeft z).1.state = .empty))
  (s.fls.blocks.map (fun e =>
    let mine := back.find? (fun z => (look Zone.none s.nv.zones.zones z).members.any
      (fun m => decide (m.1 * 8192 + m.2 = e.1)))
    match mine, e.2.use with
    | some z, .deferred _ => (e.1, { e.2 with use := .zone z })
    | _, .zone z => if empty.contains z then (e.1, { e.2 with use := .free }) else e
    | _, _ => e)).foldl (fun m e => put (freshBlock s.fls.fullErases (e.1 % 8192)) m e.1 e.2) []

/-- Compartment state after a mount (R343). -/
def stateAfterMount (v : CState) : CState :=
  match v with
  | .resetting => .active
  | .freezing | .frozen | .saving => .frozen
  | .free => .free | .active => .active | .saved => .saved

/-- A compartment as a mount gives it back: state, port, resources and save token (R343). -/
def compAfterMount (v : Comp) : Comp :=
  { Comp.free with state := stateAfterMount v.state, port := v.port, res := v.res, token := v.token }

/-- The core regulator goes off (R219, step 6; R197): flash, the straps and inputs, and the latches of the standby rail
are kept, and everything else is as before step 1 of R197; a blown fuse keeps the level Sealed (R544). The erases that were
suspended or queued stand in the deferred-erase queues again (R219); refreshes and rebuilds that were cut start again, and what
they had written is stale (R187). -/
def powerOff (s : State) : State :=
  let r := State.reset
  let again : List Rebuild := (s.fls.rebuild.map (fun (x : Rebuild) => { x with target := Option.none })) ++
    ((s.fls.relocs.filter (fun x => decide (x.kind = .rebuild))).map
      (fun x => { zone := x.zone, member := x.member, target := Option.none }))
  let pairs := s.cpl.pairs.filter (fun (x : Pair) => x.formed)
  let cut := (s.fls.relocs.filter (fun x => decide (x.kind = .refresh))).map (fun x => (x.srcDie, x.srcBlock))
  let stale := s.fls.relocs.map (fun x => (x.dstDie, x.dstBlock)) ++ s.fls.rebuild.filterMap (·.target) ++
    (s.fls.blocks.filter (fun e => decide (e.2.use = .leaving))).map (fun e => (e.1 / 8192, e.1 % 8192))
  let erasing := fun (v : Die) => ((match v.op with
      | some o => [o.entry]
      | Option.none => []) ++ v.queue).filterMap (fun q => match q.purpose with
    | .erase _ => some q.block
    | _ => Option.none)
  let dies := (s.fls.dies.map (fun e => (e.1, { e.2 with
      op := Option.none, queue := [], starved := false, passed := 0, eraseQueue := erasing e.2 ++ e.2.eraseQueue }))).filter
    (fun e => decide (e.2 ≠ Die.idle))
  { r with
    part := s.part
    boot := { r.boot with offLatch := s.boot.offLatch, tripped := s.boot.tripped }
    pins := { r.pins with modIdLive := s.pins.modIdLive, wakeN := s.pins.wakeN, ppsIn := s.pins.ppsIn, cable := s.pins.cable }
    plog := { r.plog with marker := s.plog.marker }
    thm := { r.thm with tripRecord := s.thm.tripRecord }
    fls := { r.fls with dies := dies, blocks := s.blocksLeft, landing := s.landingLeft, landingNext := s.fls.landingNext
                        rebuild := again, refresh := cut, stale := s.fls.stale ++ stale, fullErases := s.fls.fullErases
                        cells := s.fls.cells }
    jrn := { r.jrn with units := s.jrn.units, slot := s.jrn.slot, valid := s.jrn.valid, lastSeq := s.jrn.lastSeq
                        tailSeq := s.jrn.lastSeq, open_ := s.jrn.open_, blocks := s.jrn.blocks
                        covered := s.jrn.covered ++ s.jrn.ckptNew, slotA := s.jrn.slotA, slotB := s.jrn.slotB
                        marks := s.jrn.marks, markSlot := s.jrn.markSlot, markSeq := s.jrn.markSeq }
    nv := { s.nv with zones := s.zonesLeft }
    nvNext := { s.nv with zones := s.zonesLeft }
    sec := { r.sec with optCopies := s.sec.optCopies, sanAction := s.sec.sanAction, sanActive := s.sec.sanActive,
                        sanFailed := s.sec.sanFailed, sanAuse := s.sec.sanAuse
                        level := if s.part.sealFuse then .sealed else r.sec.level }
    kry := s.storeLeft
    cpl := { r.cpl with pairs := pairs
                        absent := pairs.foldl (fun (v : BitVec 8) x => v ||| BitVec.ofNat 8 (2 ^ x.peer)) 0 }
    hif := { r.hif with out := s.hif.out, raised := s.hif.raised
                        port0 := { r.hif.port0 with perst := s.hif.port0.perst }
                        port1 := { r.hif.port1 with perst := s.hif.port1.perst } }
    free := s.free, pending := s.pending }

/-! ### A mount (R203, R210 to R213, R343) -/

/-- Highest write sequence found on flash. -/
def maxSeq (s : State) (z : Zones) : Nat :=
  ((z.tags.map (·.2.seq)) ++ (z.convTags.map (·.2.seq)) ++ (s.kry.storeSeq.map (·.2))).foldl max (max z.seq s.jrn.lastSeq)

/-- Counters that a mount takes from the checkpoint and the journal: the read counter of a block is the checkpoint's; with no
checkpoint to read, every block of a die that was ever touched takes the die's highest erase counter, and a programmed block half its
threshold as its read counter (R212, log 161). -/
def countersFound (s : State) (known : Bool) : SMap Block :=
  if known then
    s.fls.blocks.map (fun e => (e.1, { e.2 with reads := if e.2.wp = 0 then 0 else look 0 s.nv.reads e.1 }))
  else
    let dies := (s.fls.blocks.map (fun e => e.1 / 8192)).dedup
    dies.foldl (fun m d =>
      let top := ((s.dieBlocks d).map (fun e => e.2.wear)).foldl max 0
      let c := (s.clusterOf (dieCluster d)).media
      (List.range 5600).foldl (fun m b =>
        let k := s.block d b
        put (freshBlock s.fls.fullErases b) m (d * 8192 + b) { k with
          wear := top, reads := if k.wp = 0 then 0 else max 1 (if k.qlc then c.rcQlc else c.rcSlc) * 512 }) m) s.fls.blocks

/-- What a mount leaves: zones, namespaces, compartments, keys and settings from flash, the open rows of direct zones
reloaded into fronts, the count restarted 65,536 above the highest value found. -/
def remount (s : State) (known : Bool) : State :=
  let n := s.nv
  let top := 2 ^ 56 - 1
  let reload := n.zones.zones.flatMap (fun e =>
    if e.2.direct && !e.2.pinned && (decide (e.2.state = .closed) || decide (e.2.state = .full)) then
      ((List.range 96).filter (fun r => decide (r * rowUnits < e.2.acked) &&
        !(look Row.none n.zones.rows (e.1 * 96 + r)).qlc)).map (fun r => e.1 * 96 + r)
    else [])
  let rows := reload.foldl (fun m k => upd Row.none m k (fun r => { r with reloaded := true })) n.zones.rows
  let comps := (n.comps.table.map (fun e =>
    (e.1, if e.1 = 0 then { s.comp 0 with res := e.2.res } else compAfterMount e.2))).filter
      (fun e => decide (e.2 ≠ Comp.free))
  { s with
    zns := { n.zones with rows := rows, online := true, seq := min top (s.maxSeq n.zones + 65536) }
    cmp := { s.cmp with table := comps }
    sec := { s.sec with keys := n.keys }
    fls := { s.fls with fold := n.foldCfg, blocks := s.countersFound known }
    car := { s.car with share := n.shares } }

end State

end Sys2Proof.Machine
end

