-- ==== Sys2Proof/Machine/PowerOps.lean ====
section
/-! DEFINITION. The shared operations of the power manager: budgets and modes, the power-loss flush, Trip, the orderly
stop, entries into the sleeping states, their abort, and waking. -/

namespace Sys2Proof.Machine

/-- Code of a state in events and in `PWR_LAST_WAKE` (R475, R487). -/
def SleepTarget.code : SleepTarget → Nat
  | .sleep => 1 | .deep => 2 | .off => 3

namespace State

/-! ### Pins (R458, R461) -/

/-- `MOD_OK` is released (R458). -/
def modOk (s : State) : Bool :=
  decide (s.boot.step = 9) && !s.lvl.bothLost && !s.pins.modOkLow && !s.pins.wakeStuck && (match s.pwr.pstate with
    | .run | .idle | .entering _ _ | .asleep .sleep | .asleep .deep | .waking _ _ => true
    | .dark | .starting | .asleep .off | .flushing _ => false)

/-! ### Activity (R474) -/

/-- A command of compartment `c` is admitted: activity, and the compartment's idle hint goes. -/
def admitted (s : State) (c : Nat) : State :=
  let t := s.activity
  { t with pwr := { t.pwr with hinted := t.pwr.hinted.filter (fun x => decide (x ≠ c)) } }

/-- Commands of the steward or of a compartment that an operation of the module still holds: mode changes, Compartment Control,
resets, Reel Halt (R348, R360, R468). -/
def commandHeld (s : State) : Bool :=
  !s.pwr.modeCommands.isEmpty || s.cmp.table.any (fun e => e.2.waiting.isSome || e.2.reset.isSome || !e.2.control.isEmpty) ||
    s.kry.ctxs.any (fun e => e.2.any (fun x => !x.halts.isEmpty))

/-- No command is outstanding in any compartment or the steward, and every reel ticket has settled (R474, R476). -/
def drained (s : State) : Bool :=
  s.car.flights.isEmpty && s.fcd.jobs.isEmpty && s.kry.writes.isEmpty && !s.commandHeld &&
    s.kry.ctxs.all (fun e => match e.2 with
      | some k => k.tickets.all (fun t => t.done.isSome)
      | none => true)

/-- Enters Idle (R474, R475). -/
def enterIdle (s : State) : State :=
  { s with pwr := { s.pwr with pstate := .idle, idleEntries := satAdd 0xFFFFFFFF s.pwr.idleEntries 1 } }

/-- Every compartment that holds an I/O queue is hinted, the steward included, and no command is outstanding (R474). -/
def allHinted (s : State) : Bool :=
  s.pwr.hinted.contains 0 && s.car.flights.isEmpty && s.fcd.jobs.isEmpty &&
    s.hif.queues.all (fun q => decide (q.qid = 0) || s.pwr.hinted.contains (q.ctl - 1))

/-! ### Budgets (R30, R31, R49, R504) -/

/-- Row of the ladder called for now (R504). -/
def ladderRow (s : State) : Nat := min 4 (s.pwr.mode.row + s.thm.step)

/-- A bank measurement begins, unless one is in progress: the charger pauses (R215). -/
def startMeasurement (s : State) : State :=
  if s.plog.measBusy then s else { s with plog := { s.plog with measBusy := true, measuredAt := s.now } }

/-- What a region receives of a budget: a reserve of 25 % and its part of the middle 50 % by demand; the whole budget
where the other region is out of service (R31, R49). Each part is rounded down, to whole dies or mW, and no region receives
the remainder (log 58). -/
def shareOf (total mine other : Nat) (alone : Bool) : Nat :=
  if alone then total
  else total / 4 + (if mine = 0 then 0 else total / 2 * mine / (mine + other))

/-- What the power manager apportions of the input-power cap in force, in mW: less the excess of the last window (R466), the
charger's 25 W while it charges the bank (R215), and what the fans draw (R36; a free value, log 68). -/
def capMw (s : State) : Nat :=
  rowWatts s.lvl.rowPower * 1000 - s.lvl.excessMw - (if s.plog.charger && !s.plog.charged then 25000 else 0)
    - (if s.fan.outs.all (fun f => decide (f.dutyPct = 0)) then 0 else Config.fanMw (s.fan.outs.map (fun f => f.dutyPct)))

/-- Apportions the input-power cap by the demand last reported, between the regions that take part. -/
def apportionAmong (s : State) (inA inB : Bool) : State :=
  let a := s.lvl.budgetA
  let b := s.lvl.budgetB
  let mw := fun (mine other : Nat) (alive peer : Bool) => if alive then shareOf s.capMw mine other (!peer) else 0
  { s with lvl := { s.lvl with
      budgetA := { a with shareMw := mw a.demandMw b.demandMw inA inB }
      budgetB := { b with shareMw := mw b.demandMw a.demandMw inB inA } } }

/-- Apportions the input-power cap at a window boundary, between the healthy regions. -/
def apportionPower (s : State) : State := s.apportionAmong s.lvl.regionA s.lvl.regionB

/-- Apportions the concurrent-program cap by the demand last reported. -/
def apportionProg (s : State) : State :=
  let a := s.lvl.budgetA
  let b := s.lvl.budgetB
  let pr := fun (mine other : Nat) (alive peer : Bool) =>
    if alive then shareOf (rowProg s.lvl.rowInForce) mine other (!peer) else 0
  { s with lvl := { s.lvl with
      budgetA := { a with shareProg := pr a.demandProg b.demandProg s.lvl.regionA s.lvl.regionB }
      budgetB := { b with shareProg := pr b.demandProg a.demandProg s.lvl.regionB s.lvl.regionA } } }

/-- A power cap that has fallen applies at once, between the regions that hold a share of the window: that of a region which
failed in it stays spent (R31, R49, R504). -/
def lowerPower (s : State) : State :=
  if s.lvl.rowPower < s.ladderRow then
    ({ s with lvl := { s.lvl with rowPower := s.ladderRow } }).apportionAmong (decide (0 < s.lvl.budgetA.shareMw))
      (decide (0 < s.lvl.budgetB.shareMw))
  else s

/-! ### The program cap falls (R469) -/

/-- The operation that holds a slot and was issued last: (TIM_NOW at issue, die). -/
def lastIssued (s : State) : Option (Nat × Nat) :=
  s.fls.dies.foldl (fun acc e => match e.2.op with
    | some o =>
      if o.slot then match acc with
        | none => some (o.issuedAt, e.1)
        | some a => if a.1 ≤ o.issuedAt then some (o.issuedAt, e.1) else some a
      else acc
    | none => acc) none

/-- Suspends a die's operation for the cap and takes its slot. -/
def capSuspend (s : State) (d : Nat) : State :=
  let t := s.suspend d
  t.setDie d { t.die d with op := (t.die d).op.map (fun o => { o with slot := false }) }

/-- Suspends the most recently issued operations until `cap` fit; at most `n` of them. -/
def trimSlots (cap : Nat) : Nat → State → State
  | 0, s => s
  | n + 1, s =>
    if s.slotsHeld 0 + s.slotsHeld 1 ≤ cap then s
    else match s.lastIssued with
      | some (_, d) => trimSlots cap n (s.capSuspend d)
      | none => s

/-- The operation suspended for the cap that was issued first: (TIM_NOW at issue, die) (R469). -/
def firstHeldBack (s : State) : Option (Nat × Nat) :=
  s.fls.dies.foldl (fun acc e => match e.2.op with
    | some o =>
      if isProgErase o.entry.kind && !o.slot && o.suspended then match acc with
        | none => some (o.issuedAt, e.1)
        | some a => if o.issuedAt < a.1 then some (o.issuedAt, e.1) else some a
      else acc
    | none => acc) none

/-! ### Modes (R465, R467, R468) -/

/-- Limit that the phases in service put on the mode: the lowest row allowed. -/
def phaseRow (s : State) : Nat :=
  let n := ((List.range 9).filter (fun i => s.pwr.phasesOk.getLsbD i)).length
  if 8 ≤ n then 0 else if 6 ≤ n then 1 else 2

/-- The mode that the next boundary puts in force, and the cause that event 0x0C00 gives it. -/
def nextMode (s : State) : Mode × Nat :=
  let want := s.pwr.pendingMode.getD s.pwr.mode
  if want.row < s.phaseRow then (Mode.ofCode s.phaseRow, 1) else (want, 0)

/-- The mode change of a boundary: the mode, its lanes, the events and the commands that waited for it. -/
def applyMode (s : State) : State :=
  let (m, cause) := s.nextMode
  let old := s.pwr.mode
  let s1 := { s with
    pwr := { s.pwr with mode := m, pendingMode := none, modeCommands := [], phaseLimit := s.phaseRow }
    fcd := { s.fcd with lanesInUse := if s.part.codec then m.lanes else 0 } }
  let s1 := s1.settleCodec
  let s2 := if m = old then s1 else s1.event 0x0C00 1 srcPower 0 [old.code, m.code, cause]
  s.pwr.modeCommands.foldl (fun t h => t.done h 0) s2

/-! ### Power loss (R197, R219 to R221, R480) -/

/-- Step 1 of the flush: everything that may stop stops, and commands not yet acknowledged are abandoned. Of what waits in a
die queue only the units of open landing rows are still programmed, in step 3; the erases stay for the queues they came
from. -/
def cut (s : State) : State :=
  let kept := fun (q : QEntry) => isErase q.kind || (match q.purpose with
    | .landing _ _ | .segment _ _ _ _ => true
    | _ => false)
  let dies := (s.fls.dies.map (fun e => (e.1, { e.2 with
    queue := e.2.queue.filter kept
    op := e.2.op.map (fun o => if isErase o.entry.kind then { o with suspended := true } else o) }))).filter
      (fun e => decide (e.2 ≠ Die.idle))
  { s with
    pwr := { s.pwr with pstate := .flushing 1, entry := none, lossPending := false, modeCommands := [] }
    plog := { s.plog with charger := false, measBusy := false }
    fan := { s.fan with outs := s.fan.outs.map (fun f => { f with state := 0, cmdPct := 0, dutyPct := 0 }) }
    fls := { s.fls with dies := dies }
    car := { s.car with flights := [], staged := [] }
    fcd := { s.fcd with jobs := [], coded := [] } }

/-- The step that follows step `n` of the flush (R219): the programs of step `n` complete, and those of the next one are issued.
The marker stands once step 5 completes (R220). -/
def flushNext (s : State) (n : Nat) : State :=
  let at_ := fun (t : State) => { t with pwr := { t.pwr with pstate := .flushing (n + 1) } }
  if n = 1 then at_ ((s.programsOf (fun _ => false)).shadowAll true)
  else if n = 2 then
    let p := s.programsOf (fun q => q.flush)
    at_ (p.openRows.foldl closeLandRow p)
  else if n = 3 then at_ s.programsDone.journalFlush
  else if n = 4 then at_ s
  else
    let p := s.writeMarker 2
    let off := p.powerOff
    if p.boot.inputBack && !p.boot.tripped then
      { off with boot := { off.boot with cause := 1 }, pwr := { off.pwr with pstate := .starting }, lvl := { off.lvl with clocks := 1 } }
    else off

/-! ### A region out of service (R48, R52, R197) -/

/-- What the loss of a region takes away: its bit in `GLB_OWNER`, its clusters, its codec lanes and the second copy of
staged data; with the other region lost too, I/O stops (R51). -/
def regionOut (s : State) (r : Nat) : State :=
  let a := s.lvl.regionA && decide (r ≠ 0)
  let b := s.lvl.regionB && decide (r = 0)
  let s1 := { s with
    lvl := { s.lvl with regionA := a, regionB := b, clusterOwner := if !a && !b then s.lvl.clusterOwner else if r = 0 then 0xFFFF else 0, singleStaging := true
                        bothLost := !a && !b }
    fcd := { s.fcd with lanesOk := s.fcd.lanesOk &&& (if r = 0 then 0xF0 else 0x0F) } }
  if a || b then s1 else s1.event 0x0206 4 (srcRegion r 0) 0 []

/-! ### The orderly stop (R306, R481, R505) -/

/-- The orderly stop begins: admission stops and every carriage drains. -/
def beginStop (s : State) : State :=
  { s with
    mnt := { s.mnt with stopping := true }
    car := { s.car with table := s.car.table.map (fun (e : Nat × Carriage) =>
      (e.1, if e.2.coupled then { e.2 with draining := true } else e.2)) } }

/-- A zone as the orderly stop closes it: open zones become Closed, or Empty where nothing was written. -/
def stopZone (s : State) (z : Nat) : State :=
  let v := s.zone z
  if v.state = .implicitOpen ∨ v.state = .explicitOpen then
    if v.wp = 0 then s.emptyZone z else s.setZone z { v with state := .closed }
  else s

/-- Another checkpoint starts, in place of one that is being written (R207). -/
def startCkpt (s : State) : State :=
  let s1 : State := { s with jrn := { s.jrn with
    running := true, beganAt := s.now, before := s.jrn.units
    covered := s.jrn.covered ++ s.jrn.ckptNew ++ s.jrn.blocks.filter (fun m => !s.jrn.open_.contains m)
    blocks := s.jrn.open_, ckptOpen := [], ckptNew := [], stripe := 0, stripes := Config.ckptStripes s.free + 1 } }
  ((s1.unqueue (fun q => decide (q.purpose = .checkpoint))).ckptStripe).draw

/-- The whole of a checkpoint is written in a step that ends with it, in place of one that is being written (R207, R560). -/
def ckptWhole (s : State) : State :=
  let s1 : State := { s with jrn := { s.jrn with
    running := true, beganAt := s.now, before := s.jrn.units
    covered := s.jrn.covered ++ s.jrn.ckptNew ++ s.jrn.blocks.filter (fun m => !s.jrn.open_.contains m)
    blocks := s.jrn.open_, ckptOpen := [], ckptNew := [], stripe := 0, stripes := 0 } }
  let stripe := fun (u : State) =>
    let t := u.ckptBlocks
    t.jrn.ckptOpen.foldl (fun v m => v.programNow m.1 m.2 ((List.range 4).map (u.ckptPage u.jrn.stripe (dieCluster m.1))) false)
      { t with jrn := { t.jrn with stripe := t.jrn.stripe + 1 } }
  let t := times stripe (Config.ckptStripes s.free + 1) s1
  ({ s1 with fls := t.fls, jrn := t.jrn }).draw

/-- The metadata in flash is that of the checkpoint: its slot is in force, and what it replaces and covers is free (R207). -/
def ckptInForce (s : State) : State :=
  let s1 := s.journalNow
  let n := if s1.jrn.valid then 1 - s1.jrn.slot else 0
  let old := (if n = 0 then s1.jrn.slotA else s1.jrn.slotB) ++ s1.jrn.covered
  let s2 := { s1 with
    nv := { s1.nv with reads := (s1.fls.blocks.map (fun (e : Nat × Block) => (e.1, e.2.reads))).filter (fun e => decide (e.2 ≠ 0)) }
    jrn := { s1.jrn with
      slot := n, valid := true, running := false, units := s1.jrn.units - s1.jrn.before, before := 0
      slotA := if n = 0 then s1.jrn.ckptNew else s1.jrn.slotA, slotB := if n = 0 then s1.jrn.slotB else s1.jrn.ckptNew
      covered := [], ckptOpen := [], ckptNew := [] } }
  ({ s2 with nvNext := s2.nv }).freeSystem old

/-- The orderly stop has drained: carriages are uncoupled, zones closed, all data is programmed, and the stop's checkpoint
begins (R208, R306). -/
def endStop (s : State) : State :=
  let s1 := { s with car := { s.car with table := s.car.table.map (fun (e : Nat × Carriage) =>
    (e.1, if e.2.coupled then { e.2 with coupled := false, draining := false } else e.2)) } }
  let s2 := (s1.zns.zones.map (·.1)).foldl stopZone s1
  let s3 := s2.car.staged.foldl (fun (t : State) x => t.giveSeg x.buffer false) ((s2.shadowAll false).programsDone)
  ({ s3 with mnt := { s3.mnt with closing := true }, car := { s3.car with staged := [] } }).journalNow.startCkpt

/-- The stop's checkpoint is valid: the marker of kind 1, and the Parked state with the mount undone (R208, R306). -/
def stopDone (s : State) : State :=
  let s4 := s.ckptInForce.writeMarker 1
  let s5 := { s4 with
    boot := { s4.boot with parked := true }
    mnt := { s4.mnt with state := 0, stopping := false, closing := false, firstCkpt := false }
    sec := { s4.sec with keys := [] }
    zns := { s4.zns with online := false } }
  s5.answerOps (fun o => decide (o = .stop) || decide (o = .checkpoint)) 0

/-- Ends an orderly stop that has drained. -/
def stopCheck (s : State) : State :=
  if s.mnt.stopping && !s.mnt.closing && s.car.flights.isEmpty && s.fcd.jobs.isEmpty then s.endStop else s

/-! ### Entries and aborts (R476 to R478, R488) -/

/-- Microseconds of a span of `TIM_NOW`. -/
def usSince (s : State) (t : Nat) : Nat := (s.now - t) / 1000

/-- Erases suspended for an entry go on (R477, R485). -/
def resumeErases (s : State) : State :=
  s.fls.dies.foldl (fun t e => match e.2.op with
    | some o => if isErase o.entry.kind && o.slot then t.resume e.1 else t
    | none => t) s

/-- An entry is undone (R477): cause 1 a wake, 2 power loss, 3 a takeover. -/
def abortEntry (s : State) (t : SleepTarget) (n cause source : Nat) : State :=
  let at_ := match s.pwr.entry with
    | some e => e.requestedAt
    | none => s.now
  let cmd := match s.pwr.entry with
    | some e => e.command
    | none => none
  let us := min 0xFFFFFFFF (s.usSince at_)
  let s1 := { s with
    pwr := { s.pwr with pstate := .run, entry := none }
    plog := { s.plog with abortCause := cause, abortTarget := t.code, abortSource := if cause = 1 then source else 0,
                          aborts := s.plog.aborts + 1, abortUs := us, ltrUs := 2, closing := false } }
  let s2 := if n < 3 then s1 else s1.resumeErases
  let s3 := (s2.emit (.ltr 2)).event 0x0C03 1 srcPower 0 [cause, t.code, if cause = 1 then source else 0, us]
  match cmd with
  | some h => s3.done h 0
  | none => s3

/-- The enabled wake sources that stand asserted now (R482): the timer, and a thermal level. -/
def wakeLevels (s : State) : List Nat :=
  (if s.pwr.wakeEn.getLsbD 5 && decide (s.pwr.wakeTimer ≠ maxNow) && decide (s.pwr.wakeTimer ≤ s.now) then [5] else []) ++
  (if 1 ≤ s.thm.level then [6] else [])

/-- Lowest source of a list, 0 where there is none. -/
def lowestSource (l : List Nat) : Nat :=
  match l with
  | [] => 0
  | a :: r => r.foldl min a

/-- A request for a sleeping state (R473, R476, R477). -/
def beginEntry (s : State) (t : SleepTarget) (cmd : Option HostCmd) : State :=
  match s.pwr.pstate with
  | .entering _ _ =>
    let s1 := s.event 0x0C04 2 srcPower 0 [t.code]
    match cmd with
    | some h => s1.fail h .sequenceError
    | none => s1
  | _ =>
    let s1 := { s with pwr := { s.pwr with
      pstate := .entering t 1, entry := some { requestedAt := s.now, command := cmd, heldWake := [] } } }
    if s.wakeLevels.isEmpty then s1 else s1.abortEntry t 1 1 (lowestSource s.wakeLevels)

/-- Step 3 of an entry: erases are suspended, the dirty data is shadowed and the journal tail programmed; an entry into
Off makes the orderly stop where a mount has completed (R476, R481). -/
def secureStep (s : State) (t : SleepTarget) : State :=
  let s1 := s.fls.dies.foldl (fun u e => match e.2.op with
    | some o => if isErase o.entry.kind then u.suspend e.1 else u
    | none => u) s
  if decide (t = .off) && s.mounted then s1.beginStop.stopCheck
  else (s1.shadowAll false).journalNow

/-- Every die is idle or holds a suspended erase, and nothing waits to be programmed (R476). -/
def diesSettled (s : State) : Bool :=
  s.fls.dies.all (fun e => e.2.queue.all (fun q => !isProgram q.kind) && (match e.2.op with
    | some o => isErase o.entry.kind && o.suspended
    | none => true))

/-- Step 4 of an entry: the completion, the LTR of 3 ms and the sleep notices (R476). -/
def announceStep (s : State) : State :=
  let ports := (s.cpl.ports.mapIdx (fun i p => (i, p))).filter (fun x => decide (x.2.state = 2) || decide (x.2.state = 3))
  let s1 := match s.pwr.entry with
    | some e => match e.command with
      | some h => s.done h 0
      | none => s
    | none => s
  let s2 := { s1 with
    pwr := { s1.pwr with entry := s1.pwr.entry.map (fun (e : Entry) => { e with command := none }) }
    plog := { s1.plog with ltrUs := 3000, sleepNotices := s1.plog.sleepNotices + ports.length } }
  ports.foldl (fun t x => t.sendOn x.1 0 (.sleepNotice x.1)) (s2.emit (.ltr 3000))

/-! ### Waking (R478, R482 to R487) -/

/-- A wake begins from a sleeping state; `PWR_LAST_WAKE` records its sources (R487). -/
def startWake (s : State) (t : SleepTarget) (sources : List Nat) : State :=
  { s with pwr := { s.pwr with
      pstate := .waking t 1, wakeAt := s.now, wakeSource := lowestSource sources, wakeLeft := t.code
      wakeMask := BitVec.ofNat 9 (sumBy (fun i => 2 ^ i) sources.dedup), wakes := s.pwr.wakes + 1 } }

/-- The state is entered: in Off everything but the standby rail goes, and the latch is set (R476, R481); a wake held
since step 5 began starts at once (R478). -/
def enterSleep (s : State) (t : SleepTarget) : State :=
  if t = .off then
    let o := s.powerOff
    { o with pwr := { o.pwr with pstate := .asleep .off }, boot := { o.boot with offLatch := true } }
  else
    let held := match s.pwr.entry with
      | some e => e.heldWake
      | none => []
    let l12 := fun (p : Port) => { p with l12 := p.linkUp }
    let s1 := { s with
      pwr := { s.pwr with pstate := .asleep t, entry := none }
      hif := { s.hif with port0 := l12 s.hif.port0, port1 := l12 s.hif.port1 }
      lvl := { s.lvl with clocks := s.lvl.clocks &&& 0x81 } }
    if held.isEmpty then s1 else s1.startWake t held

/-- What follows `LOGIC_RDY` (R485): Run in the mode held, erases resumed, the LTR of Run, the two events; the budgets of
the window's rest are the reserves of R31. -/
def wakeResume (s : State) (t : SleepTarget) (exitUs : Nat) : State :=
  let s1 := { s with
    pwr := { s.pwr with pstate := .waking t 5, exitUs := min 0xFFFF exitUs }
    plog := { s.plog with ltrUs := 2 }
    lvl := { s.lvl with budgetA := { s.lvl.budgetA with demandMw := 0, demandProg := 0 }
                        budgetB := { s.lvl.budgetB with demandMw := 0, demandProg := 0 } } }
  let s2 := (((s1.apportionPower).apportionProg).resumeErases).emit (.ltr 2)
  let s3 := s2.event 0x0C01 0 srcPower 0 [t.code]
  s3.event 0x0C02 0 srcPower 0 [s3.pwr.wakeSource, s3.pwr.wakeMask.toNat, t.code, s3.pwr.exitUs]

/-- Power loss is declared (R197, R219, R477, R480, R507). -/
def declareLoss (s : State) : State :=
  match s.pwr.pstate with
  | .dark => s
  | .starting => s.powerOff
  | .run | .idle => s.cut
  | .entering t n => (s.abortEntry t n 2 0).cut
  | .asleep .off => { s with boot := { s.boot with offLatch := false }, pwr := { s.pwr with pstate := .dark } }
  | .asleep t => { s with pwr := { s.pwr with pstate := .waking t 1, wakeAt := s.now, lossPending := true } }
  | .waking _ 5 => s.cut
  | .waking _ _ => { s with pwr := { s.pwr with lossPending := true } }
  | .flushing _ => s

/-- The action of Trip and of an early Trip (R507): the flush path with the Trip latch set; event 0x0D03 follows at the
next start. -/
def trip (s : State) (source temp : Nat) (early : Bool) : State :=
  ({ s with thm := { s.thm with tripRecord := some (source, temp, early) },
            boot := { s.boot with tripped := true } }).declareLoss

end State

end Sys2Proof.Machine
end

