-- ==== Sys2Proof/Machine/HostOps.lean ====
section
/-! DEFINITION. What every command of a host shares: which command can be fetched, the checks before it is admitted, the
carriage it rides, and the flight it becomes. -/

namespace Sys2Proof.Machine

namespace State

/-! ### Fetch (R346, R350, R360, R412 to R414, R476) -/

/-- The module fetches commands: it runs and at least one region serves (R51, R476). -/
def serves (s : State) : Bool :=
  (decide (s.pwr.pstate = .run) || decide (s.pwr.pstate = .idle)) && !s.lvl.bothLost

/-- The submission queue a command names exists; queue 0 of a steward controller is its admin queue. -/
def hasQueue (s : State) (h : HostCmd) : Bool :=
  (decide (h.comp = 0) && decide (h.qid = 0)) || (s.queue (ctlOf h) h.qid true).isSome

/-- A command can be fetched from its queue: the port and its controller are up, and a compartment is one whose queues
are served. -/
def fetchable (s : State) (h : HostCmd) : Bool :=
  let p := s.port h.port
  let v := s.comp h.comp
  s.serves && p.present && p.linkUp && s.hasQueue h &&
    (if h.comp = 0 then p.en && p.rdy
     else !s.parked && v.en && v.rdy && !v.fetchStopped && decide (v.port = h.port) &&
       (decide (v.state = .active) || decide (v.state = .freezing) || decide (v.state = .frozen)))

/-- Takes a command from its queue and admits it: the head moves on, and the module is active (R474). -/
def fetch (s : State) (h : HostCmd) : State :=
  (s.modQueues (fun q => decide (q.ctl = ctlOf h) && decide (q.qid = h.qid) && q.sq) (fun q =>
    { q with head := if q.head + 1 < q.size then q.head + 1 else 0 })).admitted h.comp

end State

/-- A command of an I/O queue, where it can be fetched. -/
def onIo (name : String) (h : HostCmd) (s : State) (f : State → State) : Out :=
  arises (s.fetchable h && decide (h.qid ≠ 0)) name (f (s.fetch h))

/-- A command of an admin queue, where it can be fetched. -/
def onAdmin (name : String) (h : HostCmd) (s : State) (f : State → State) : Out :=
  arises (s.fetchable h && decide (h.qid = 0)) name (f (s.fetch h))

namespace State

/-! ### Refusals -/

/-- Counts a command refused for want of a carriage or with 0x83 (R351). -/
def countRefused (s : State) (c : Nat) : State :=
  s.setComp c { s.comp c with refused := satAdd 0xFFFFFFFF (s.comp c).refused 1 }

/-- Completes a command of a frozen compartment (R364). -/
def refuseFrozen (s : State) (h : HostCmd) : State := (s.countRefused h.comp).fail h (.vendor 0x83)

/-- Completes a command that no carriage serves (R108). -/
def refuseMiss (s : State) (h : HostCmd) : State :=
  let t := s.countRefused h.comp
  ({ t with car := { t.car with miss := satAdd 0xFFFFFFFF t.car.miss 1 } }).fail h .namespaceNotReady

/-! ### Carriages (R107, R108, R118) -/

/-- The coupled carriages of a handle. -/
def coupledTo (s : State) (ty handle : Nat) : List (Nat × Carriage) :=
  s.car.table.filter (fun e => e.2.coupled && decide (e.2.handleType = ty) && decide (e.2.handle = handle))

/-- The carriage that serves a handle: coupled and not draining. -/
def servingOf (l : List (Nat × Carriage)) : Option Nat := (l.find? (fun e => !e.2.draining)).map (·.1)

/-- The carriage that a command of compartment `c` rides: its zone's, else its placement group's; for the conventional
namespace that of the map (R107). While an orderly stop drains, admission has stopped (R306). -/
def carriageFor (s : State) (c : Nat) (zone : Option Nat) : Option Nat :=
  let l := match zone with
    | Option.none => s.coupledTo 2 0
    | some z =>
      let own := s.coupledTo 0 z
      if own.isEmpty then (match s.groupPgroup (z / 5000) with
        | some p => s.coupledTo 1 p
        | Option.none => []) else own
  match servingOf l with
  | some n => if !s.mnt.stopping && decide ((s.carriage n).comp = c) then some n else Option.none
  | Option.none => Option.none

/-- The class of a command on a carriage: the compartment's where that is lower (R118). -/
def classFor (s : State) (n c : Nat) (write : Bool) : Nat :=
  let e := s.carriage n
  max (classOf (if write then e.writeClass else e.readClass)) (s.comp c).res.cls

/-- The key a command on a carriage takes; none where the slot is empty (R558). -/
def keyFor (s : State) (n : Nat) : Option Nat :=
  let e := s.carriage n
  if !e.encrypt then some 0
  else
    let k := look 0 s.sec.keys e.keySlot
    if k = 0 then Option.none else some k

/-! ### Mirror pairs (R527 to R536) -/

/-- What the zone's pair says to a state-changing command: a status that refuses it, or whether it waits for the mirror
(R529, R530, R533, R535). -/
def pairGate (s : State) (z : Nat) : Except Status Bool :=
  match s.zonePair z with
  | Option.none => .ok false
  | some p =>
    if p.formed then
      match p.role with
      | .mirror | .superseded => .error .writeProtected
      | .primary => if s.peerLost p.peer then (if s.cpl.quorum then .ok false else .error .namespaceNotReady) else .ok true
      | .none | .promoted | .broken => .ok false
    else .ok false

/-- Records that a zone was written while its pair is broken (R535). -/
def noteWritten (s : State) (z : Nat) : State :=
  match s.zonePair z with
  | some p =>
    if (p.role = .broken ∨ (p.role = .primary ∧ s.peerLost p.peer)) ∧ !p.writtenSince.contains z then
      { s with cpl := { s.cpl with pairs := s.cpl.pairs.map (fun x =>
          if x.pgroup = p.pgroup then { x with writtenSince := x.writtenSince ++ [z] } else x) } }
    else s
  | Option.none => s

/-! ### Flights -/

/-- A flight of a host command with nothing to transfer. -/
def newFlight (s : State) (h : HostCmd) (k : FlightKind) (carriage cls : Nat) (zone : Option Nat) : Flight :=
  { id := s.car.nextFlight, cmd := h, kind := k, carriage := carriage, cls := cls, admittedAt := s.now, zone := zone,
    start := 0, len := 0, key := 0, segs := [], senses := [], data := [], status := .success, prchk := 0,
    lbat := (0, 0), ilbrt := 0, squashed := false, mirrorWait := false, ticket := Option.none, peer := Option.none,
    forwarded := false, opened := Option.none, group := false }

/-- Admits a flight to its carriage. -/
def addFlight (s : State) (v : Flight) : State :=
  let t := { s with car := { s.car with flights := s.car.flights ++ [v], nextFlight := v.id + 1 } }.startClocks
    commandDomains
  if v.ticket.isSome || v.peer.isSome then t
  else t.setCarriage v.carriage { t.carriage v.carriage with outstanding := (t.carriage v.carriage).outstanding + 1 }

/-- The segments of `len` units: a boundary every 256 KiB from the first (R113). -/
def segsOf (len : Nat) : List Seg :=
  (List.range ((len + 63) / 64)).map (fun i =>
    { off := i * 64, len := min 64 (len - i * 64), step := .waiting, channel := 0, buffer := Option.none, seq := 0,
      data := [], mirrored := false })

/-! ### What an I/O command names (R15, R55, R91, R421, R561) -/

/-- The checks that come before a command's fields: the Parked state, a sanitize, fused and reserved bits. -/
def ioGate (s : State) (h : HostCmd) : Option Status :=
  if s.parked then some .sequenceError
  else if s.sec.sanActive then some .sanitizeInProgress
  else if h.fused || h.rsvd then some .invalidField
  else Option.none

/-- Where LBA `slba` of a namespace lies: its zone, and the unit from ZSLBA or from the start of the conventional
namespace; none beyond its end. -/
def placeOf (s : State) (n : NsEntry) (slba : Nat) : Option (Option Nat × Nat) :=
  match n.kind with
  | .conventional _ => if slba < s.spaceLbas n then some (Option.none, slba * n.unitsPerLba) else Option.none
  | .zoned _ => match s.spaceZone n (slba / n.zsze) with
    | some z => some (some z, slba % n.zsze * n.unitsPerLba)
    | Option.none => Option.none

end State

namespace State

/-- A reset of the zone waits for the writes before it: a later write or management command to the zone is admitted after
it (R70, log 34). -/
def resetPending (s : State) (z : Nat) : Bool :=
  s.car.flights.any (fun x => decide (x.kind = .reset) && decide (x.zone = some z))

/-- A reset is pending on the zone that a command names by an LBA. -/
def resetAhead (s : State) (nsid slba : Nat) : Bool :=
  match s.space nsid with
  | some n => match s.placeOf n slba with
    | some (some z, _) => s.resetPending z
    | _ => false
  | Option.none => false

end State

/-- A command that writes or manages a zone, where it can be fetched and no reset of the zone comes first. -/
def onZoneQueue (name : String) (h : HostCmd) (slba : Nat) (s : State) (f : State → State) : Out :=
  arises (s.fetchable h && decide (h.qid ≠ 0) && !s.resetAhead h.nsid slba) name (f (s.fetch h))

/-- What an I/O command that has passed its first checks acts on: its namespace, zone, first unit, length in units,
carriage, class and key. -/
structure IoTarget where
  ns : NsEntry
  zone : Option Nat
  unit : Nat
  units : Nat
  carriage : Nat
  cls : Nat
  key : Nat
deriving DecidableEq, Repr

namespace State

/-- 16 MiB, the largest data transfer, in units (R414). -/
def mdtsUnits : Nat := 4096

/-- What a frozen compartment's command completes with: a write to a zone that is Full, Read Only or Offline fails as its state has
it (R66), and everything else that changes state with 0x83 (R364). -/
def frozenStatus (s : State) (z : Option Nat) (write : Bool) : Status :=
  match z with
  | some z => if !write then .vendor 0x83 else match (s.zone z).state with
    | .full => .zoneFull
    | .readOnly => .zoneReadOnly
    | .offline => .zoneOffline
    | _ => .vendor 0x83
  | Option.none => .vendor 0x83

/-- Carries out `f` on what an I/O command names, or completes the command with the first check that fails: the gate,
the namespace, its LBAs, the transfer size, the freeze, the carriage, its key. `write`: the command is in its carriage's write class;
`changes`: a frozen compartment may not send it (R364); `sized`: the transfer size is limited. -/
def onTarget (s : State) (h : HostCmd) (slba nlb : Nat) (write changes sized : Bool) (f : State → IoTarget → State) : State :=
  match s.ioGate h with
  | some st => s.fail h st
  | Option.none => match s.space h.nsid with
    | Option.none => s.fail h .invalidNamespace
    | some n => match s.placeOf n slba with
      | Option.none => s.fail h .lbaOutOfRange
      | some (z, u) =>
        if s.spaceLbas n < slba + nlb then s.fail h .lbaOutOfRange
        else if sized && decide (mdtsUnits < nlb * n.unitsPerLba) then s.fail h .invalidField
        else if changes && s.frozen h.comp then (s.countRefused h.comp).fail h (s.frozenStatus z write)
        else match s.carriageFor h.comp z with
          | Option.none => s.refuseMiss h
          | some c => match s.keyFor c with
            | Option.none => s.fail h .accessDenied
            | some k => f s { ns := n, zone := z, unit := u, units := nlb * n.unitsPerLba, carriage := c,
                              cls := s.classFor c h.comp write, key := k }

/-- As `onTarget`, for a command that only a zoned namespace serves: `other` refuses it on the conventional one. -/
def onZone (s : State) (h : HostCmd) (slba : Nat) (write changes : Bool) (other : Status)
    (f : State → IoTarget → Nat → State) : State :=
  match s.ioGate h with
  | some st => s.fail h st
  | Option.none => match s.space h.nsid with
    | Option.none => s.fail h .invalidNamespace
    | some n => match s.placeOf n slba with
      | some (Option.none, _) => s.fail h other
      | Option.none => match n.kind with
        | .conventional _ => s.fail h other
        | .zoned _ => s.fail h .lbaOutOfRange
      | some (some z, u) =>
        if changes && s.frozen h.comp then s.refuseFrozen h
        else match s.carriageFor h.comp (some z) with
          | Option.none => s.refuseMiss h
          | some c => f s { ns := n, zone := some z, unit := u, units := 0, carriage := c,
                            cls := s.classFor c h.comp write, key := 0 } z

end State

end Sys2Proof.Machine
end

