-- ==== Sys2Proof/Machine/WakeOps.lean ====
section
/-! DEFINITION. The wake sources and what each does in every power state (R477, R478, R481 to R483, R486). -/

namespace Sys2Proof.Machine

namespace State

/-- The wake sources of a mask that are enabled, lowest first: `WAKE_N` and thermal always are (R482, R486). -/
def enabledSources (s : State) (mask : BitVec 9) : List Nat :=
  [1, 2, 3, 4, 5, 6, 7, 8].filter (fun i => mask.getLsbD i && (s.pwr.wakeEn.getLsbD i || decide (i = 1) || decide (i = 6)))

/-- What sources of the power manager do while the module is awake (R483): `WAKE_N` posts event 0x0C0E, and the timer
posts 0x0C0F and disarms. -/
def ordinaryWake (s : State) (mask : BitVec 9) : State :=
  let s1 := if mask.getLsbD 1 then s.event 0x0C0E 0 srcPower 0 [] else s
  if mask.getLsbD 5 && decide (s1.pwr.wakeTimer ≠ maxNow) then
    let t := s1.event 0x0C0F 0 srcPower 0 [s1.pwr.wakeTimer]
    { t with pwr := { t.pwr with wakeTimer := maxNow } }
  else s1

/-- The timer disarms when it fires (R486). -/
def disarm (s : State) (mask : BitVec 9) : State :=
  if mask.getLsbD 5 then { s with pwr := { s.pwr with wakeTimer := maxNow } } else s

/-- A wake source fires (R477, R478, R481 to R483); none where the module has no supply for it. -/
def wakeFired (s : State) (mask : BitVec 9) : Option State :=
  let on := s.enabledSources mask
  match s.pwr.pstate with
  | .run | .idle => some (s.ordinaryWake mask)
  | .entering t n =>
    if on.isEmpty then some s
    else if n < 5 then some ((s.abortEntry t n 1 (lowestSource on)).ordinaryWake mask)
    else some (({ s with pwr := { s.pwr with entry := s.pwr.entry.map (fun (e : Entry) =>
      { e with heldWake := (e.heldWake ++ on).dedup }) } }).disarm mask)
  | .asleep .off =>
    if mask.getLsbD 1 then
      some { s with pwr := { s.pwr with pstate := .starting }, boot := { s.boot with step := 1, stalled := false, cause := 0 }
                    lvl := { s.lvl with clocks := 1 } }
    else none
  | .asleep t => if on.isEmpty then some s else some ((s.startWake t on).disarm mask)
  | .waking _ _ => some s
  | .dark | .starting | .flushing _ => none

end State

end Sys2Proof.Machine
end

