-- ==== Sys2Proof/Machine/Flash.lean ====
section
/-! DEFINITION. The events of the flash side: slots of the cap, senses, programs and erases that end, failures, rows that
close, fold, compaction, deferred erase, wear, the promenade, relocation, rebuild and the conventional region. -/

namespace Sys2Proof.Machine

namespace State

/-! ### Slots of the cap (R22, R145, R469) -/

/-- The waiting program or erase at the head of a die, where it waits for a slot. -/
def capHead (s : State) (d : Nat) : Option QEntry :=
  if (s.die d).op.isSome || (s.die d).lost then Option.none
  else match s.headProg d with
    | some e => if e.capWait then some e else Option.none
    | Option.none => Option.none

/-- The head of die `a` is served before the head of die `b` (R22): flush traffic, class, what is re-driven (R135), unspent credit, age,
the lower channel, the lower rank. -/
def slotBefore (s : State) (a : Nat) (x : QEntry) (b : Nat) (y : QEntry) : Bool :=
  if x.flush ≠ y.flush then x.flush
  else if x.cls ≠ y.cls then decide (x.cls < y.cls)
  else if s.redriven x ≠ s.redriven y then s.redriven x
  else
    let cx := s.credit (dieCluster a) x.comp
    let cy := s.credit (dieCluster b) y.comp
    if cx ≠ cy then decide (cy < cx)
    else if x.admittedAt ≠ y.admittedAt then decide (x.admittedAt < y.admittedAt)
    else if dieChannel a ≠ dieChannel b then decide (dieChannel a < dieChannel b) else decide (a < b)

/-- No die of the same cluster has a head that is served before this one (R22). -/
def slotFirst (s : State) (d : Nat) (e : QEntry) : Bool :=
  s.fls.dies.all (fun x => match s.capHead x.1 with
    | some y => !decide (dieCluster x.1 = dieCluster d) || !s.slotBefore x.1 y d e
    | Option.none => true)

/-- An operation suspended for the cap takes a slot and goes on (R469). -/
def retakeSlot (s : State) (d : Nat) : State :=
  let v := s.die d
  (s.setDie d { v with op := v.op.map (fun o => { o with slot := true }) }).resume d

/-- A slot is free for the operation suspended for the cap. -/
def slotForHeld (s : State) (d : Nat) : Bool :=
  match (s.die d).op with
  | some o => s.slotFree d o.entry
  | Option.none => false

/-! ### Background work (R164, R211, R474, R476) -/

/-- The module is mounted and past its first checkpoint, and neither enters a sleeping state nor stops. -/
def working (s : State) : Bool :=
  s.zns.online && s.mounted && !s.mnt.firstCkpt && !s.mnt.stopping && (decide (s.pwr.pstate = .run) || decide (s.pwr.pstate = .idle))

/-- The next row of a landed zone that has not begun to fold, where it may. -/
def nextFold (s : State) (z : Nat) : Option Nat :=
  match (List.range 96).find? (fun r => !(s.row z r).qlc && !(s.row z r).issued) with
  | some r => if s.foldable z r then some r else Option.none
  | Option.none => Option.none

/-- Rows that fold now. -/
def foldsRunning (s : State) : Nat := (s.zns.rows.filter (fun e => e.2.folding)).length

/-- Class in which rows fold now (R164, R169). DESIGN CHOICE (log 151): a row that a Zone Management Finish needs folds in this
class below `start_pct` too. -/
def foldClassNow (s : State) : Nat :=
  if s.fls.fold.urgentPct ≤ s.occupancyPct then State.classOf s.fls.fold.urgentClass else State.classOf s.fls.fold.foldClass

/-- No zone has a foldable row older than this one. -/
def oldestFold (s : State) (z r : Nat) : Bool :=
  s.zns.zones.all (fun e => match s.nextFold e.1 with
    | some q => decide ((s.row z r).foldableAt ≤ (s.row e.1 q).foldableAt)
    | Option.none => true)

/-- Row `r` of zone `z` may start to fold (R163, R164). -/
def mayFold (s : State) (z r : Nat) : Bool :=
  s.working && decide (s.nextFold z = some r) && decide (s.foldsRunning < max 1 s.fls.fold.maxFolds) &&
    ((s.zone z).finishing || (decide (s.fls.fold.startPct ≤ s.occupancyPct) && s.oldestFold z r))

/-- Units of closed landing rows that hold data of a row, by landing row and unit: a unit whose row is still open is read from its
front (R165). -/
def rowSources (s : State) (z r : Nat) : List (Nat × Nat) :=
  s.fls.landing.flatMap (fun e => match e.2 with
    | some w => if w.closed then
        ((w.units.mapIdx (fun k u => (k, u))).filter (fun x => x.2.valid && x.2.pages.any (fun p =>
          decide (p.1 < 2 ^ 40) && decide (p.1 / 92160 = z) && decide (p.1 % 92160 / 960 = r)))).map (fun x => (e.1, x.1))
      else []
    | Option.none => [])

/-- A fold starts: the row's landing units are read, those of a lost die by degraded reads, and its 16 programs are issued
(R165, R177, R194). -/
def startFold (s : State) (z r : Nat) : State :=
  let s1 := (s.rowSources z r).foldl (fun t m => t.senseUnit m.1 m.2) s
  let s2 := s1.issueRow z r s.foldClassNow (fun k => .fold z r k)
  s2.setRow z r { s2.row z r with folding := true }

/-- A row stands in the member blocks: its landing copies are invalid, relocations of its members go on, and a Finish may
end (R159, R162, R165). -/
def rowCloses (s : State) (z r : Nat) : State :=
  let s1 := s.setRow z r { s.row z r with qlc := true, folding := false, reloaded := false, issued := true }
  let s2 := (s1.dropPages (fun p => decide (p < 2 ^ 40) && decide (p / 92160 = z) && decide (p % 92160 / 960 = r))).sweepLanding
  ((s2.pinCheck).relocZone z).settleZones z

/-- All 16 programs of a row have completed. -/
def rowProgrammed (s : State) (z r : Nat) : Bool := decide ((s.row z r).programmed = 0xFFFF)

/-! ### The landing pool (R161, R166, R202) -/

/-- Valid landing units of a block. -/
def validUnits (s : State) (d b : Nat) : Nat := s.countUnits (fun u => u.valid && decide (u.die = d) && decide (u.block = b))

/-- A landing block holds a unit of a row opened 2^29 or more rows earlier (R202). -/
def tooOld (s : State) (d b : Nat) : Bool :=
  s.fls.landing.any (fun e => match e.2 with
    | some r => decide (2 ^ 29 ≤ (s.fls.landingNext + 2 ^ 30 - e.1) % 2 ^ 30) &&
        r.units.any (fun u => u.valid && decide (u.die = d) && decide (u.block = b))
    | Option.none => false)

/-- Closed landing blocks that may be compacted. -/
def closedLanding (s : State) : List (Nat × Nat) :=
  (s.fls.blocks.filter (fun e => decide (e.2.use = .landingClosed) && !(s.die (e.1 / 8192)).lost &&
    !s.programming (e.1 / 8192) (e.1 % 8192) &&
    !s.fls.compacting.any (fun x => decide (x.1 * 8192 + x.2.1 = e.1)))).map (fun e => (e.1 / 8192, e.1 % 8192))

/-- The closed landing block to compact next: one that is too old, one that is queued for refresh, else the one with the fewest
valid units (R166, R178, R202). -/
def compactPick (s : State) : Option (Nat × Nat) :=
  let l := s.closedLanding
  ((l.find? (fun m => s.tooOld m.1 m.2)).orElse (fun _ => s.fls.refresh.find? (fun m => l.contains m))).orElse (fun _ => firstBy (fun a b => decide (s.validUnits a.1 a.2 < s.validUnits b.1 b.2)) l)

/-- Copies the valid units of a landing block into new landing rows, each read at its owners' cost (R130, R166); a block queued
for refresh is refreshed with it (R178). -/
def compactBlock (s : State) (d b cls : Nat) : State :=
  let s1 := s.moveUnits (Landing.plain cls 0) false (fun u => decide (u.die = d) && decide (u.block = b))
  { s1 with fls := { s1.fls with compacting := s1.fls.compacting ++ [(d, b, s1.fls.landingNext)]
                                 refresh := s1.fls.refresh.filter (fun x => decide (x ≠ (d, b))) } }

/-- A compacted block joins the deferred-erase queue once its copies are programmed (R166). -/
def compactCheck (s : State) : State :=
  let pending := fun (n : Nat) => s.fls.landing.any (fun e => decide (e.1 < n) && match e.2 with
    | some r => r.units.any (fun u => !u.programmed)
    | Option.none => false)
  ({ s with fls := { s.fls with compacting := s.fls.compacting.filter (fun x => pending x.2.2) } }).sweepLanding

/-! ### Erases (R150, R171, R172, R174, R206) -/

/-- The change that freed the block has not reached the journal (R206). -/
def unjournalled (s : State) (d b : Nat) : Bool :=
  s.nv.zones.zones.any (fun e => e.2.members.contains (d, b))

/-- A landing block whose counter exceeds that of the lowest-wear free zone block by `role_gap` swaps roles with it, both at
once, so that the counts of R142 stay (R174): the role it is erased for, and the state with the zone block in the queue. -/
def swapRole (s : State) (d b : Nat) (next : Role) : Role × State :=
  let gap := (s.clusterOf (dieCluster d)).roleGap
  match next with
  | .landing => match s.bestFree d .zone with
    | some z =>
      if gap ≠ 0 ∧ (s.block d z).wear + gap ≤ (s.block d b).wear then
        let t := s.setBlock d b { s.block d b with role := .zone }
        (.zone, (t.setBlock d z { t.block d z with role := .landing }).deferErase d z .landing)
      else (next, s)
    | Option.none => (next, s)
  | _ => (next, s)

/-- Mode in which a block is erased for a role (R171): QLC for zone and spare, SLC for landing and system. -/
def eraseKind : Role → DieOpKind
  | .zone => .eraseQlc | .spare => .eraseQlc | .landing => .eraseSlc | .system => .eraseSlc

/-- Takes the block at the head of a die's deferred-erase queue and queues its erase in `reloc_class` (R171). -/
def startErase (s : State) (d b : Nat) (next : Role) : State :=
  let v := s.die d
  let s1 := s.setDie d { v with eraseQueue := v.eraseQueue.filter (fun x => decide (x ≠ b)) }
  let (r, s2) := s1.swapRole d b next
  let s3 := s2.setBlock d b { s2.block d b with use := .deferred r }
  s3.enqueue d { kind := eraseKind r, block := b, page := 0, cls := classOf (s.clusterOf (dieCluster d)).media.relocClass,
                 comp := 0, admittedAt := s.now, capWait := false, flush := false, purpose := .erase r }

/-- An erased block: its counters and its write record start again (R148, R172, R177, R180). -/
def erasedBlock (b : Block) (kind : DieOpKind) : Block :=
  let q := decide (kind = .eraseQlc)
  { b with qlc := q, wear := satAdd 0xFFFFF b.wear (if q then 4 else 1), reads := 0, wp := 0, first := 0, last := 0,
           temps := 0, hint := 0, gen := 0 }

/-- The erased block repays a loan, replaces one taken from the flush reserve, or joins the free list of its role (R58, R168,
R171). -/
def joinRole (s : State) (d b : Nat) (kind : DieOpKind) (next : Role) : State :=
  let k := erasedBlock (s.block d b) kind
  let v := s.die d
  match next with
  | .zone =>
    if 0 < v.loans then
      s.withSpares d (fun t => (t.setDie d { t.die d with loans := (t.die d).loans - 1 }).setBlock d b { k with role := .spare, use := .free })
    else s.setBlock d b { k with role := .zone, use := .free }
  | .spare => s.withSpares d (fun t => t.setBlock d b { k with role := .spare, use := .free })
  | .landing =>
    ((s.setBlock d b { k with role := .landing, use := .free }).setDie d { v with owed := v.owed - 1 }).landingGoes
  | .system => s.setBlock d b { k with role := .system, use := .system }

/-- What a completed erase leaves, by its purpose. -/
def settleErase (s0 : State) (d : Nat) (e : QEntry) : State :=
  let s := s0.eraseCells d e.block
  match e.purpose with
  | .erase r => s.joinRole d e.block e.kind r
  | .store => ((s.setBlock d e.block (erasedBlock (s.block d e.block) e.kind)).versionErased d e.block).storeErased
  | .reel i n =>
    let t := match s.opOf i n with
      | some (.give _ _) => s.joinRole d e.block e.kind .spare
      | _ => (s.setBlock d e.block (erasedBlock (s.block d e.block) e.kind)).versionErased d e.block
    t.settleOp i n (answer 0 0)
  | _ => s.setBlock d e.block (erasedBlock (s.block d e.block) e.kind)

/-! ### Wear and the promenade (R175, R179) -/

/-- The member of a Full zone with the lowest counter on a die: (counter, zone, member). -/
def coldMember (s : State) (d : Nat) : Option (Nat × Nat × Nat) :=
  let l := s.zns.zones.flatMap (fun e => if e.2.state = .full then
    ((e.2.members.mapIdx (fun k m => (k, m))).filter (fun x => decide (x.2.1 = d) && !s.moving x.2.1 x.2.2 &&
      !e.2.failed.contains x.1)).map (fun x => ((s.block x.2.1 x.2.2).wear, e.1, x.1)) else [])
  firstBy (fun a b => decide (a.1 < b.1)) l

/-- The wear relocation that a die calls for: zone, member and target block (R175). -/
def wearPick (s : State) (d : Nat) : Option (Nat × Nat × Nat) :=
  let spread := (s.clusterOf (dieCluster d)).spread
  match s.worstFree d, s.coldMember d with
  | some (w, b), some (c, z, k) =>
    if spread ≠ 0 ∧ c + spread ≤ w ∧ !(s.fls.relocs.any (fun r => decide (r.kind = .wear) && decide (r.dstDie = d))) then
      some (z, k, b) else Option.none
  | _, _ => Option.none

/-- Programmed blocks of a cluster that the promenade visits, in ascending die and block order: (order, die, block). -/
def promenade (s : State) (k : Nat) : List (Nat × Nat × Nat) :=
  let dies := (s.clusterDies k).mapIdx (fun i d => (i, d))
  dies.flatMap (fun x => if (s.die x.2).lost then [] else
    ((s.dieBlocks x.2).filter (fun e => decide (0 < e.2.wp) && !s.moving x.2 e.1 && (match e.2.use with
      | .retired => false
      | .deferred _ => false
      | _ => true))).map (fun e => (x.1 * 5600 + e.1, x.2, e.1)))

/-- The next block of the promenade: the first at or after the place it has reached, else the first of the next round. -/
def promNext (s : State) (k : Nat) : Option (Nat × Nat × Nat) :=
  let l := s.promenade k
  (l.find? (fun x => decide ((s.clusterOf k).promNext ≤ x.1))).orElse (fun _ => l.head?)

/-- Rewrites a cluster's settings. -/
def setCluster (s : State) (k : Nat) (f : ClusterCfg → ClusterCfg) : State :=
  { s with fls := { s.fls with clusters := modAt s.fls.clusters k f } }

/-- The visit of one block: 8 pages are sensed, charged to no compartment; the block is queued for refresh where they read badly
(R179), and retired where one needs tier 4 or reaches tier 5 (R185, R190). -/
def visit (s : State) (k : Nat) (x : Nat × Nat × Nat) (bits tier : Nat) : State :=
  let m := (s.clusterOf k).media
  let b := s.block x.2.1 x.2.2
  let s1 := (s.countReads x.2.1 x.2.2 8).addReadUs k (8 * nominalNs .read b.qlc / 1000)
  let s2 := s1.setCluster k (fun c => { c with promNext := x.1 + 1 })
  if 4 ≤ tier then s2.blockFails x.2.1 x.2.2 (if tier = 4 then 2 else 3)
  else if max 1 m.promBits ≤ bits ∨ 2 ≤ tier then s2.queueRefresh x.2.1 x.2.2 else s2

/-! ### Relocation, commit and rebuild (R187, R188, R194, R196) -/

/-- The target of a refresh: the lowest-wear free zone block of the die, else a spare on loan (R187). -/
def refreshTarget (s : State) (d : Nat) : Option (Nat × State) :=
  match s.bestFree d .zone with
  | some b => some (b, s)
  | Option.none => match s.takeSpare d .zone .target with
    | some (b, t) => some (b, t.setDie d { t.die d with loans := (t.die d).loans + 1 })
    | Option.none => Option.none

/-- The refresh of a block: a member is relocated, a landing block is compacted in `reloc_class`, once it is full (R178, R186,
R187). -/
def startRefresh (s : State) (d b : Nat) : Option State :=
  let s1 := { s with fls := { s.fls with refresh := s.fls.refresh.filter (fun x => decide (x ≠ (d, b))) } }
  if s.moving d b then some s1
  else match s.servedBy d b with
    | some (z, k) => match s1.refreshTarget d with
      | some (t, s2) => some (s2.startReloc .refresh z k d t)
      | Option.none => Option.none
    | Option.none => match (s.block d b).use with
      | .landingClosed => if s.programming d b then Option.none
          else some (s1.compactBlock d b (classOf (s.clusterOf (dieCluster d)).media.relocClass))
      | .landingOpen => Option.none
      | _ => some s1

/-- No program runs on the source of a relocation. -/
def sourceQuiet (s : State) (r : Reloc) : Bool :=
  match (s.die r.srcDie).op with
  | some o => !(isProgram o.entry.kind && decide (o.entry.block = r.srcBlock))
  | Option.none => true

/-- The target has caught up, and the relocation may commit (R188). -/
def mayCommit (s : State) (r : Reloc) : Bool :=
  s.working && decide (s.relocGoal r ≤ r.copied) && !s.relocBusy r.id && (decide (r.kind = .rebuild) || s.sourceQuiet r)

/-- The programs that waited for the commit go to the target; a rebuilt member takes its unit of every row in flight
(R188, R191). -/
def redirect (s : State) (r : Reloc) : State :=
  if r.kind = .rebuild then
    let bit := BitVec.ofNat 16 (2 ^ r.member)
    (s.rowsInFlight r.zone).foldl (fun t q =>
      let w := t.row r.zone q
      let k := r.zone * 96 + q
      let p : Purpose := if t.isCarved r.zone then .conventional k r.member
        else if w.folding then .fold r.zone q r.member else .zoneRow r.zone q r.member
      let u := if t.isCarved r.zone then { t with zns := { t.zns with convFills := t.zns.convFills.map (fun f =>
            if f.row = k then { f with programmed := f.programmed &&& ~~~bit } else f) } }
        else t.setRow r.zone q { w with programmed := w.programmed &&& ~~~bit }
      let laid := match (if t.isCarved r.zone then t.convFill k else Option.none) with
        | some f => u.layConv f r.member r.dstDie r.dstBlock
        | Option.none => u.layRow r.zone q r.member r.dstDie r.dstBlock
      laid.enqueue r.dstDie
        { kind := .progQlc, block := r.dstBlock, page := q * 64, cls := t.relocCls r, comp := t.slotComp r.zone, admittedAt := t.now,
          capWait := false, flush := false, purpose := p }) s
  else
    let v := s.die r.srcDie
    let moved := v.queue.filter (fun q => isProgram q.kind && decide (q.block = r.srcBlock))
    let t := moved.foldl (fun (t : State) q => t.copyPages r.srcDie r.srcBlock r.dstDie r.dstBlock q.page 64) s
    (t.setDie r.srcDie { v with queue := v.queue.map (fun q =>
      if isProgram q.kind && decide (q.block = r.srcBlock) then { q with block := r.dstBlock } else q) }).dieNext r.srcDie

/-- The commit: the member's location switches to the target; the source joins the deferred-erase queue as R123 allows
(R187). -/
def commitReloc (s : State) (r : Reloc) : State :=
  let ms := modAt (s.membersOf r.zone) r.member (fun _ => (r.dstDie, r.dstBlock))
  let s1 := s.setMembersOf r.zone ms ((s.failedOf r.zone).filter (fun k => decide (k ≠ r.member)))
  let use : BlockUse := if s.isCarved r.zone then .conventional else .zone r.zone
  let s2 := s1.setBlock r.dstDie r.dstBlock { s1.block r.dstDie r.dstBlock with use := use }
  let s3 := if r.kind = .rebuild then s2
    else (s2.setBlock r.srcDie r.srcBlock { s2.block r.srcDie r.srcBlock with use := .leaving }).releaseLeft
  ((s3.dropReloc r.id).redirect r).journal

/-- The target of a rebuild: the spare kept for it, a spare of the member's own die, or a substitute (R74, R194). -/
def rebuildTarget (s : State) (q : Rebuild) : Option (Nat × Nat × State) :=
  match q.target with
  | some (d, b) => some (d, b, s)
  | Option.none =>
    let own := match (s.membersOf q.zone)[q.member]? with
      | some (d, _) => if (s.die d).lost then Option.none else some d
      | Option.none => Option.none
    match own.orElse (fun _ => s.substituteDie q.zone q.member) with
    | some d => match s.takeSpare d .zone .target with
      | some (b, t) => some (d, b, t)
      | Option.none => Option.none
    | Option.none => Option.none

/-- A rebuild waits for this member, and none that needs a substitute waits for a lower zone (R196). -/
def rebuildFirst (s : State) (q : Rebuild) : Bool :=
  q.target.isSome || s.fls.rebuild.all (fun x => x.target.isSome || decide (q.zone ≤ x.zone))

/-- The rebuild starts, or the zone is finished or goes Read Only for want of a spare (R194, R196). -/
def startRebuild (s : State) (q : Rebuild) : State :=
  let s1 := { s with fls := { s.fls with rebuild := s.fls.rebuild.erase q } }
  match s1.rebuildTarget q with
  | some (d, b, t) => t.startReloc .rebuild q.zone q.member d b
  | Option.none => s1.noSpare q.zone

/-! ### The conventional region (R91, R94 to R97) -/

/-- Carved slots, by ordinal: the lowest that holds no block (R94). -/
def emptySlot (s : State) : Option Nat :=
  (((List.range s.part.variant.groups).flatMap (fun g => (List.range s.zns.carved).map (fun i => g * 5000 + s.slots + i))).find?
    (fun z => (s.convSlot z).members.isEmpty && (groupDies (z / 5000)).all (fun d =>
      !(s.die d).lost && ((s.bestFree d .zone).isSome || decide (0 < s.spares d)))))

/-- Takes the 16 blocks of a carved slot. -/
def openSlot (s : State) (z : Nat) : State :=
  let (ms, t) := (groupDies (z / 5000)).foldl (fun (acc : List (Nat × Nat) × State) d =>
    let (b, u) := acc.2.assignBlock z d
    (acc.1 ++ [(d, b)], u.setBlock d b { u.block d b with use := .conventional })) ([], s)
  t.setConvSlot z { members := ms, failed := [] }

/-- The stripe row that the next copy fills, and the state with its slot open; none where there is no free row (R97). -/
def freeConvRow (s : State) : Option (Nat × State) :=
  if s.zns.convRegionNext ≠ 0 then some (s.zns.convRegionNext, s)
  else match s.emptySlot with
    | some z => some (z * 96, s.openSlot z)
    | Option.none => Option.none

/-- A carved slot all of whose rows have been filled and reclaimed gives its blocks back. -/
def slotCheck (s : State) (z : Nat) : State :=
  if !(s.convSlot z).members.isEmpty && decide (s.closedRows z = 96) &&
      (List.range 96).all (fun r => decide (look 0 s.zns.convRows (z * 96 + r) = 0)) then s.freeSlot z else s

/-- Issues the 16 programs of a conventional stripe row; a member that has failed or whose die is lost is covered by parity
(R137, R145, R159). DESIGN CHOICE (log 152): they rank Bulk. -/
def programConv (s : State) (k : Nat) : State :=
  let z := k / 96
  let c := s.slotComp z
  ((s.convSlot z).members.mapIdx (fun i m => (i, m))).foldl (fun t x =>
    if (s.convSlot z).failed.contains x.1 || t.deadBlock x.2.1 x.2.2 then t.convProgrammed k x.1
    else match t.convFill k with
      | some f => (t.layConv f x.1 x.2.1 x.2.2).enqueue x.2.1
          { kind := .progQlc, block := x.2.2, page := k % 96 * 64, cls := 2, comp := c, admittedAt := t.now, capWait := false
            flush := false, purpose := .conventional k x.1 }
      | Option.none => t) s

/-- Logical pages of a strictly ascending list of units. -/
def pagesOfAsc (us : List Nat) : List Nat :=
  us.foldr (fun u l => match l with
    | p :: r => if u / 4 = p then p :: r else u / 4 :: p :: r
    | [] => [u / 4]) []

/-- Every element of an ascending list is in another ascending list. -/
def ascSub : List Nat → List Nat → Bool
  | [], _ => true
  | _ :: _, [] => false
  | a :: r, b :: t => if a = b then ascSub r t else if b < a then ascSub (a :: r) t else false

/-- Strictly ascending. -/
def ascending : List Nat → Bool
  | a :: b :: r => decide (a < b) && ascending (b :: r)
  | _ => true

/-- Mapped units that lie in the landing share, in ascending order. -/
def landedUnits (s : State) : List Nat :=
  (s.zns.convMap.filter (fun e => decide (2 ^ 31 ≤ e.2.toNat) && decide (e.2 ≠ 0xFFFFFFFE))).map (·.1)

/-- The units of a logical page that stand in the landing share, each with its write sequence and its place in page `i` of a
row (R202). -/
def pageMoves (s : State) (i page : Nat) : List (Nat × Nat × Nat) :=
  ([0, 1, 2, 3].filter (fun k =>
    let e := (look 0xFFFFFFFF s.zns.convMap (page * 4 + k)).toNat
    decide (2 ^ 31 ≤ e) && decide (e < 0xFFFFFFFE))).map (fun k =>
      (page * 4 + k, (look noTag s.zns.convTags (page * 4 + k)).seq, i * 4 + k))

/-- Reads the landing units that hold conventional pages, in closed landing rows: what stands in an open one is read from its
front (R165, R177). -/
def senseConvPages (s : State) (ps : List Nat) : State :=
  let src : List (Nat × Nat) := s.fls.landing.flatMap (fun e => match e.2 with
    | some w => if w.closed then
        ((w.units.mapIdx (fun k u => (k, u))).filter (fun x => x.2.valid && x.2.pages.any (fun p =>
          decide (2 ^ 40 ≤ p.1) && ps.contains (p.1 - 2 ^ 40)))).map (fun x => (e.1, x.1))
      else []
    | Option.none => [])
  src.foldl (fun t m => t.senseUnit m.1 m.2) s

/-- Starts to copy the logical pages of landed units into a full stripe row of the conventional region (R95): the pages are read,
the 16 programs are issued, and the map entries switch when all 16 have completed. -/
def copyConv (s : State) (row : Nat) (us : List Nat) : State :=
  let ps := pagesOfAsc us
  let moves := (ps.mapIdx (fun i p => s.pageMoves i p)).flatten
  let next := if row % 96 = 95 then 0 else row + 1
  let fill : ConvFill := { row := row, moves := moves, programmed := 0 }
  let t := s.senseConvPages ps
  ({ t with zns := { t.zns with convRegionNext := next
                                convFills := t.zns.convFills ++ [fill] } }).programConv row

/-- The units fill a stripe row: strictly ascending, landed, and of 960 logical pages. -/
def copyable (s : State) (us : List Nat) : Bool :=
  s.working && ascending us && ascSub us s.landedUnits && decide ((pagesOfAsc us).length = 960)

/-- The filled conventional stripe row with the fewest valid units, and that number, where it qualifies for reclaim (R96). DESIGN
CHOICE (log 153): among rows with equally few, the lowest slot and row. -/
def reclaimPick (s : State) : Option (Nat × Nat) :=
  match firstBy (fun (a b : Nat × Nat) => decide (a.2 < b.2)) s.zns.convRows with
  | some e => if (e.2 - 1) * 100 < s.zns.reclaimPct * rowUnits then some (e.1, e.2 - 1) else Option.none
  | Option.none => Option.none

/-- A conventional stripe row can be reclaimed: its valid units have room in the landing share. DESIGN CHOICE (log 149): the
reclaim waits for that room. -/
def canReclaim (s : State) : Bool :=
  match s.reclaimPick with
  | some (_, n) => decide (n = 0) || decide (s.zns.convShare + n ≤ s.shareUnits)
  | Option.none => false

end State

/-! ### The events -/

/-- CAP_SLOT_GRANT (R145, R469): a slot has come free; an operation suspended for the cap takes it first, then the first
waiting head of its region. -/
def execCapSlotGrant (die : Nat) (s : State) : Out :=
  match s.firstHeldBack with
  | some (_, d) => arises (decide (d = die) && s.slotForHeld d) "CAP_SLOT_GRANT" (s.retakeSlot d)
  | none => match s.capHead die with
    | some e => arises (s.slotFree die e && s.slotFirst die e) "CAP_SLOT_GRANT"
        (if s.refused die e then (s.refuseEntry die e).dieNext die else s.startEntry die e)
    | none => cannot "CAP_SLOT_GRANT"

/-- What an attempt of a sense leads to (R183 to R185). -/
def State.senseOutcome (s : State) (v : Flight) (j : Nat) (g : Sense) (decoded : Bool) (weight : Nat) : State :=
  let f := v.id
  if decoded then
    let s1 := if g.around then s else s.learnSet g
    let s2 := s1.setSense f j (fun g => { g with done := true })
    (if g.tier = 3 then s2.queueRefresh g.die g.block else s2).settleRead f
  else if g.around then
    if decide (4 ≤ g.tier) || s.targetFailed v g then
      ((s.setSense f j (fun g => { g with tier := max 5 g.tier })).loseSense v j).settleRead f
    else s.suspendAndRead v j g
  else
    let n := State.nextAttempt s.part.history g weight
    let s1 := s.setSense f j (fun _ => n)
    if n.tier < 4 then s1.enqueue g.die (State.senseEntry v g.block g.page (.hostRead f j))
    else if State.peersSound (s1.peers v g) then s1.senseAround v j (s1.peers v g)
    else ((s1.setSense f j (fun g => { g with tier := 5 })).loseSense v j).settleRead f

/-- READ_SENSE_COMPLETE (R117, R126, R144, R184): a die finishes a sense, or all 15 senses of a reconstruction have ended; the
data is decoded, or the read moves through its tiers. A sense whose command has ended only frees its die. -/
def execReadSenseComplete (flight sense : Nat) (decoded : Bool) (weight : Nat) (s : State) : Out :=
  let host := Purpose.hostRead flight sense
  let around := Purpose.around flight sense
  match s.flight flight with
  | none =>
    arises (!(s.diesWith host ++ s.diesWith around).isEmpty) "READ_SENSE_COMPLETE" ((s.finishAll host).finishAll around)
  | some v =>
    match v.senses[sense]? with
    | none => cannot "READ_SENSE_COMPLETE"
    | some g =>
      if g.around then
        arises (!g.done && !(s.diesWith around).isEmpty && s.aroundReady around) "READ_SENSE_COMPLETE"
          ((s.finishAll around).senseOutcome v sense g decoded weight)
      else
        arises (!g.done && s.canFinish g.die host) "READ_SENSE_COMPLETE"
          ((s.finishRead g.die host).senseOutcome v sense g decoded weight)

/-- The operation of a die, where `f` holds of it and it is not suspended. -/
def State.endable (s : State) (d : Nat) (f : DieOpKind → Bool) : Option DieOp :=
  match (s.die d).op with
  | some o => if f o.entry.kind && !o.suspended then some o else none
  | none => none

/-- PROGRAM_COMPLETE (R144, R148): the program settles by its purpose, its slot is free, and the die takes its next entry. -/
def execProgramComplete (die : Nat) (s : State) : Out :=
  match s.endable die isProgram with
  | none => cannot "PROGRAM_COMPLETE"
  | some o =>
    let s1 := (s.endOp die).settleProgram o.entry.purpose
    .next (match o.entry.purpose with
      | .reloc id => s1.relocStep id
      | .landing _ _ => s1.compactCheck.sweepLanding
      | _ => s1)

/-- ERASE_COMPLETE (R58, R171, R172): the block repays a loan, or joins the free list or its new role. -/
def execEraseComplete (die : Nat) (s : State) : Out :=
  match s.endable die isErase with
  | none => cannot "ERASE_COMPLETE"
  | some o => .next ((s.settleErase die o.entry).endOp die)

/-- DIE_STATUS_REPORT (R149, R190, R191): the status of a pass, of a suspension or of the end. A failure retires the block and
starts its recovery; the refusal of a program by the channel engine, which is reported first, stands as one. -/
def execDieStatusReport (die : Nat) (failed : Bool) (s : State) : Out :=
  match s.refusedAt die with
  | some e => .next (s.tellRefusal die e)
  | none => match (s.die die).op with
    | none => cannot "DIE_STATUS_REPORT"
    | some o =>
      if isProgErase o.entry.kind then .next (if failed then s.opFails die o else s) else cannot "DIE_STATUS_REPORT"

/-- DIE_TIMEOUT (R137, R193, R194): the die is lost, or with its channel every die on it. -/
def execDieTimeout (die : Nat) (channelLost : Bool) (s : State) : Out :=
  if channelLost then
    arises (decide (die < s.part.variant.dies) && !(s.channel (dieChannel die)).lost) "DIE_TIMEOUT" (s.loseChannel (dieChannel die))
  else arises (decide (die < s.part.variant.dies) && !(s.die die).lost && (s.die die).op.isSome) "DIE_TIMEOUT" (s.loseDies [die])

/-- STRIPE_ROW_CLOSE (R159): a direct row, all 16 of whose programs have completed, closes. -/
def execStripeRowClose (zone row : Nat) (s : State) : Out :=
  let r := s.row zone row
  arises (r.issued && !r.qlc && !r.folding && !r.pinned && s.rowProgrammed zone row) "STRIPE_ROW_CLOSE" (s.rowCloses zone row)

/-- LANDING_ROW_CLOSE (R161): all 16 units are programmed, and the front is free. -/
def execLandingRowClose (row : Nat) (s : State) : Out :=
  match s.landRow row with
  | none => cannot "LANDING_ROW_CLOSE"
  | some r =>
    arises (!r.closed && decide (r.units.length = 16) && r.units.all (fun u => u.programmed)) "LANDING_ROW_CLOSE"
      ((s.setLandRow row (some { r with closed := true })).sweepLanding.landingGoes)

/-- FOLD_START (R163 to R165): a foldable row starts to fold under the policy. -/
def execFoldStart (zone row : Nat) (s : State) : Out :=
  arises (s.mayFold zone row) "FOLD_START" (s.startFold zone row)

/-- FOLD_SWITCH (R165): the fold's 16 programs have completed, and the row's location switches. -/
def execFoldSwitch (zone row : Nat) (s : State) : Out :=
  arises ((s.row zone row).folding && s.rowProgrammed zone row) "FOLD_SWITCH" (s.rowCloses zone row)

/-- COMPACTION_START (R166, R202): below 5 % of free landing blocks, below 2 % in `urgent_class`, or for a block too old. -/
def execCompactionStart (s : State) : Out :=
  match s.compactPick with
  | none => cannot "COMPACTION_START"
  | some (d, b) =>
    let cls := if s.landingAvail * 50 < s.landingTotal then State.classOf s.fls.fold.urgentClass else State.classOf s.fls.fold.foldClass
    arises (s.working && (decide (s.landingAvail * 20 < s.landingTotal) || s.tooOld d b)) "COMPACTION_START" (s.compactBlock d b cls)

/-- DEFERRED_ERASE_START (R171, R174, R206, R211): the block at the head of the queue is erased in its next role's mode. -/
def execDeferredEraseStart (die : Nat) (s : State) : Out :=
  match (s.die die).eraseQueue with
  | [] => cannot "DEFERRED_ERASE_START"
  | b :: _ => match (s.block die b).use with
    | .deferred next =>
      arises (s.working && !(s.die die).lost && !s.unjournalled die b && !s.sensing die b) "DEFERRED_ERASE_START"
        (s.startErase die b next)
    | _ => cannot "DEFERRED_ERASE_START"

/-- WEAR_RELOCATION_START (R175). -/
def execWearRelocationStart (die : Nat) (s : State) : Out :=
  match s.wearPick die with
  | some (z, k, b) => arises s.working "WEAR_RELOCATION_START" (s.startReloc .wear z k die b)
  | none => cannot "WEAR_RELOCATION_START"

/-- PROMENADE_VISIT (R179): the next programmed block of the cluster is sampled. -/
def execPromenadeVisit (cluster bits tier : Nat) (s : State) : Out :=
  match s.promNext cluster with
  | some x => arises (s.working && decide ((s.clusterOf cluster).media.promHours ≠ 0)) "PROMENADE_VISIT" (s.visit cluster x bits tier)
  | none => cannot "PROMENADE_VISIT"

/-- RELOCATION_START (R178, R187, R189): a block queued for refresh starts to move, unless it already does. -/
def execRelocationStart (die block : Nat) (s : State) : Out :=
  match s.startRefresh die block with
  | some t => arises (s.working && s.fls.refresh.contains (die, block)) "RELOCATION_START" t
  | none => cannot "RELOCATION_START"

/-- RELOCATION_COMMIT (R187, R188): the relocation or rebuild that has caught up switches its member's location. -/
def execRelocationCommit (idx : Nat) (s : State) : Out :=
  match s.fls.relocs.find? (fun r => decide (r.id = idx)) with
  | some r => arises (s.mayCommit r) "RELOCATION_COMMIT" (s.commitReloc r)
  | none => cannot "RELOCATION_COMMIT"

/-- REBUILD_START (R74, R194, R196). -/
def execRebuildStart (zone member : Nat) (s : State) : Out :=
  match s.fls.rebuild.find? (fun q => decide (q.zone = zone) && decide (q.member = member)) with
  | some q => arises (s.working && s.rebuildFirst q) "REBUILD_START" (s.startRebuild q)
  | none => cannot "REBUILD_START"

/-- CONVENTIONAL_COPY (R95): landed units start on their way into a full stripe row of the conventional region. -/
def execConventionalCopy (units : List Nat) (s : State) : Out :=
  match s.freeConvRow with
  | some (row, t) => arises (s.copyable units) "CONVENTIONAL_COPY" (t.copyConv row units)
  | none => cannot "CONVENTIONAL_COPY"

/-- CONVENTIONAL_RECLAIM (R96): the row with the fewest valid units is emptied into the landing share. -/
def execConventionalReclaim (s : State) : Out :=
  match s.reclaimPick with
  | some (k, _) => arises (s.working && s.canReclaim) "CONVENTIONAL_RECLAIM" ((s.convEvacuate k).slotCheck (k / 96))
  | none => cannot "CONVENTIONAL_RECLAIM"

end Sys2Proof.Machine
end

