-- ==== Sys2Proof/Machine/HostIo.lean ====
section
/-! DEFINITION. The I/O commands of a host that read and write data: READ, WRITE, ZONE_APPEND, WRITE_ZEROES,
DATASET_MANAGEMENT, COMPARE, VERIFY and FLUSH. -/

namespace Sys2Proof.Machine

namespace State

/-! ### Admission of a write to a zone (R65, R66, R72, R602) -/

/-- The open state a zone is in once a write is admitted to it. -/
def openedBy (st : ZState) : ZState := if st = .explicitOpen then .explicitOpen else .implicitOpen

/-- The zone `z`, open in state `st`, with `n` units admitted to it: Full where they reach ZCAP (R602). -/
def advanceWp (s : State) (z n : Nat) (st : ZState) : State :=
  let v := s.zone z
  let s1 := s.setZone z (if v.wp + n = v.cap then { v with wp := v.cap, state := .full, beforeFull := some st }
                         else { v with wp := v.wp + n, state := st })
  (s1.markFoldable z v.wp).noteWritten z

/-- Admits `n` units at unit `off` of a zone, or at its write pointer; the rows of R66 in their order. -/
def admitWrite (s : State) (z : Nat) (off : Option Nat) (n : Nat) : Except Status State :=
  let v := s.zone z
  let st := v.state
  if st = .full then .error .zoneFull
  else if st = .readOnly then .error .zoneReadOnly
  else if st = .offline then .error .zoneOffline
  else if off.any (fun o => decide (o ≠ v.wp)) then .error .zoneInvalidWrite
  else if v.cap < v.wp + n then .error .zoneBoundary
  else match (if st = .empty ∨ st = .closed then s.openCheck z (decide (st = .empty)) (s.defaultDirect z) else Option.none) with
    | some e => .error e
    | Option.none =>
      let s1 := if st = .empty then s.leaveEmpty z .implicitOpen else s
      .ok ((s1.advanceWp z n (openedBy st)).journal)

/-- The flight of a write at unit `at_` (R113). -/
def writeFlight (s : State) (h : HostCmd) (io : IoArgs) (k : FlightKind) (t : IoTarget) (at_ : Nat) (mirror : Bool) : Flight :=
  { s.newFlight h k t.carriage t.cls t.zone with
    start := at_, len := t.units, key := t.key, segs := segsOf t.units, mirrorWait := mirror
    prchk := if io.pract then 0 else io.prchk, lbat := (io.lbat, io.lbatm), ilbrt := io.ilbrt }

/-- A write, append or Write Zeroes of a zone. -/
def writeZone (s : State) (h : HostCmd) (io : IoArgs) (k : FlightKind) (t : IoTarget) (z : Nat) (off : Option Nat) : State :=
  match s.pairGate z with
  | .error st => s.fail h st
  | .ok mirror => match s.admitWrite z off t.units with
    | .error st => if st = .vendor 0x83 then s.refuseFrozen h else s.fail h st
    | .ok s1 => s1.addFlight (s1.writeFlight h io k t ((s.zone z).wp) mirror)

/-- A write to the conventional namespace finds no room in the landing share and no stripe row to make some (R97). -/
def convExhausted (s : State) (n : Nat) : Bool :=
  decide (s.shareUnits < s.zns.convShare + n) && s.freeConvRow.isNone && !s.canReclaim

/-- A write to the conventional namespace. -/
def writeConv (s : State) (h : HostCmd) (io : IoArgs) (t : IoTarget) : State :=
  if s.convExhausted t.units then (s.event 0x0304 3 (srcRegion 0 2) h.comp [0]).fail h .capacityExceeded
  else s.addFlight (s.writeFlight h io .convWrite t t.unit false)

/-- Unmaps units of the conventional namespace (R98). -/
def unmapRange (s : State) (u n : Nat) : State := ((List.range n).foldl (fun t i => t.convUnmap (u + i)) s).sweepLanding

/-! ### Reads (R56, R66, R117, R421, R423) -/

/-- What the units of a read hold under its key. -/
def dataOf (s : State) (nsid : Nat) (t : IoTarget) : List Byte :=
  (List.range t.units).flatMap (fun i => match t.zone with
    | some z => s.zoneUnit nsid (s.zoneSlba t.ns z * t.ns.unitsPerLba) z (t.unit + i) t.key
    | Option.none => s.convUnit nsid (t.unit + i) t.key)

/-- The data of some unit is lost: its only copy is an uncorrectable word, or its map entry says so (R405). -/
def dataLost (s : State) (t : IoTarget) : Bool :=
  (List.range t.units).any (fun i => match t.zone with
    | some z => s.mem.bad.contains (.zoneData z (t.unit + i)) && decide (s.unitPlace z (t.unit + i) = .dram)
    | Option.none => decide ((look 0xFFFFFFFF s.zns.convMap (t.unit + i)) = 0xFFFFFFFE) ||
        s.mem.bad.contains (.convData (t.unit + i)))

/-- The checks of protection information generated for a read at LBA `lba` (R423): application tag 0, reference tag the
low 48 bits of the LBA. -/
def readChecks (io : IoArgs) : Status :=
  if io.prchk.getLsbD 1 && decide (io.lbat &&& io.lbatm ≠ 0) then .appTagCheck
  else if io.prchk.getLsbD 0 && decide (io.ilbrt % 2 ^ 48 ≠ io.slba % 2 ^ 48) then .refTagCheck
  else .success

/-- Admits a read, a Verify or a Compare: located, scheduled, and completed at once where nothing must be sensed. -/
def startRead (s : State) (h : HostCmd) (k : FlightKind) (t : IoTarget) (st : Status) : State :=
  let off : Bool := match t.zone with
    | some z => decide ((s.zone z).state = .offline)
    | Option.none => false
  let across := t.zone.isSome && decide (t.ns.zsze * t.ns.unitsPerLba < t.unit + t.units)
  if off then s.fail h .zoneOffline
  else if across then s.fail h .zoneBoundary
  else
    let v := { s.newFlight h k t.carriage t.cls t.zone with
      start := t.unit, len := t.units, key := t.key, data := s.dataOf h.nsid t, senses := s.sensesOf t.zone t.unit t.units
      status := if s.dataLost t then .unrecoveredRead else st }
    ((s.addFlight v).scheduleSenses v.id).settleRead v.id

/-- The namespace is conventional. -/
def isConv (s : State) (nsid : Nat) : Bool :=
  match s.space nsid with
  | some n => match n.kind with
    | .conventional _ => true
    | .zoned _ => false
  | Option.none => false

/-! ### Protection information of a transfer (R423) -/

/-- The first check that one LBA's protection information fails, `ref` being the reference tag expected, or none where it
is not checked. -/
def piCheck (prchk : BitVec 3) (lbat : BitVec 16 × BitVec 16) (ref : Option Nat) (p : PiTuple) (data : List Byte) :
    Option Status :=
  if prchk.getLsbD 2 && decide (p.guard ≠ crcGuard data) then some .guardCheck
  else if prchk.getLsbD 1 && decide ((p.app ^^^ lbat.1) &&& lbat.2 ≠ 0) then some .appTagCheck
  else if prchk.getLsbD 0 && ref.any (fun r => decide (p.ref % 2 ^ 48 ≠ r % 2 ^ 48)) then some .refTagCheck
  else Option.none

/-- The first LBA of a transfer whose check fails, and its status: LBA `k` of the list holds `size` bytes. -/
def piFail (prchk : BitVec 3) (lbat : BitVec 16 × BitVec 16) (ref : Option Nat) (size : Nat) (pi : List PiTuple)
    (data : List Byte) : Option (Nat × Status) :=
  (pi.mapIdx (fun k p => (k, p))).findSome? (fun kp =>
    (piCheck prchk lbat (ref.map (· + kp.1)) kp.2 ((data.drop (kp.1 * size)).take size)).map (fun st => (kp.1, st)))

/-- Bytes moved by a list of tuples: one tuple for each LBA where protection information crosses the link. -/
def piFits (prchk : BitVec 3) (lbas : Nat) (pi : List PiTuple) : Bool := decide (prchk = 0) || decide (pi.length = lbas)

end State

/-! ### The commands -/

/-- READ (R117, R421, R423). -/
def execRead (h : HostCmd) (io : IoArgs) (s : State) : Out :=
  onIo "READ" h s (fun s => s.onTarget h io.slba io.nlb false false true (fun s t =>
    s.startRead h .read t (State.readChecks io)))

/-- VERIFY (R421): as a read, with no transfer. -/
def execVerify (h : HostCmd) (io : IoArgs) (s : State) : Out :=
  onIo "VERIFY" h s (fun s => s.onTarget h io.slba io.nlb false false false (fun s t =>
    s.startRead h .verify t (State.readChecks io)))

/-- COMPARE (R421, R423): the host's data, checked with its protection information, against the stored data. -/
def execCompare (h : HostCmd) (io : IoArgs) (data : List Byte) (pi : List PiTuple) (s : State) : Out :=
  onIo "COMPARE" h s (fun s => s.onTarget h io.slba io.nlb false false true (fun s t =>
    let prchk := if io.pract then 0 else io.prchk
    let st := match State.piFail prchk (io.lbat, io.lbatm) (some io.ilbrt) (t.ns.unitsPerLba * 4096) pi data with
      | some (_, e) => e
      | none => if data = s.dataOf h.nsid t then .success else .compareFailure
    s.startRead h .compare t st))

/-- WRITE (R66, R72, R113, R602). -/
def execWrite (h : HostCmd) (io : IoArgs) (s : State) : Out :=
  onZoneQueue "WRITE" h io.slba s (fun s => s.onTarget h io.slba io.nlb true true true (fun s t =>
    if State.seqMax ≤ s.zns.seq then s.fail h .internalError
    else match t.zone with
      | some z => s.writeZone h io .write t z (some t.unit)
      | none => s.writeConv h io t))

/-- ZONE_APPEND (R56, R66, R72): ZSLBA names the zone. -/
def execZoneAppend (h : HostCmd) (io : IoArgs) (s : State) : Out :=
  onZoneQueue "ZONE_APPEND" h io.slba s (fun s =>
    if s.isConv h.nsid && (s.ioGate h).isNone then s.fail h .invalidOpcode
    else s.onTarget h io.slba io.nlb true true true (fun s t =>
      if t.unit ≠ 0 then s.fail h .invalidField
      else if State.seqMax ≤ s.zns.seq then s.fail h .internalError
      else match t.zone with
        | some z => s.writeZone h io .append t z none
        | none => s.fail h .invalidOpcode))

/-- WRITE_ZEROES: zeroes at the write pointer of a zone (R66), or map entries unmapped (R98). -/
def execWriteZeroes (h : HostCmd) (io : IoArgs) (s : State) : Out :=
  onZoneQueue "WRITE_ZEROES" h io.slba s (fun s => s.onTarget h io.slba io.nlb true true false (fun s t =>
    if State.seqMax ≤ s.zns.seq then s.fail h .internalError
    else match t.zone with
      | some z => s.writeZone h io .zeroes t z (some t.unit)
      | none => (s.unmapRange t.unit t.units).done h 0))

/-- DATASET_MANAGEMENT: a Deallocate unmaps conventional entries (R98), and has no effect on a zoned namespace (R56). Its
ranges are (starting LBA, LBAs). -/
def execDatasetManagement (h : HostCmd) (dealloc : Bool) (ranges : List (Nat × Nat)) (s : State) : Out :=
  onIo "DATASET_MANAGEMENT" h s (fun s =>
    match ranges with
    | [] => s.fail h .invalidField
    | (a, n) :: _ => s.onTarget h a n false true false (fun s t =>
      if t.zone.isSome || !dealloc then s.done h 0
      else if ranges.any (fun r => decide (s.spaceLbas t.ns < r.1 + r.2)) then s.fail h .lbaOutOfRange
      else (ranges.foldl (fun (u : State) (r : Nat × Nat) => u.unmapRange (r.1 * t.ns.unitsPerLba) (r.2 * t.ns.unitsPerLba)) s).done h 0))

/-- FLUSH (R421): success at once. -/
def execFlush (h : HostCmd) (s : State) : Out :=
  onIo "FLUSH" h s (fun s => match s.ioGate h with
    | some st => s.fail h st
    | none => s.done h 0)

end Sys2Proof.Machine
end

