-- ==== Sys2Proof/Machine/Staging.lean ====
section
/-! DEFINITION. The staging of writes: SEGMENT_GRANT, SEGMENT_TRANSFER_COMPLETE, DIRTY_LIMIT_WAIT_END,
STAGING_SEGMENT_RELEASE and HOST_DMA_FAULT. -/

namespace Sys2Proof.Machine

namespace State

/-! ### Grants (R381 to R385) -/

/-- Buffer-pool owner that a flight's staging is charged to (R103, R528). -/
def stagingOwner (s : State) (v : Flight) : Nat :=
  match v.peer with
  | some (_, o) => o
  | Option.none => (s.carriage v.carriage).owner

/-- A segment of the flight may be granted now: its class, the floor or the shared part, and the owner's cap. -/
def grantable (s : State) (v : Flight) : Bool :=
  let o := s.stagingOwner v
  let cap := match s.owner o with
    | some w => w.segLimit
    | Option.none => 0
  s.mayGrant .staging v.cls false && s.segFree v.cmd.comp && (decide (cap = 0) || decide (s.ownerSegs o < cap))

/-- Unspent credit of a compartment, over the 16 clusters (R384). -/
def creditSum (s : State) (c : Nat) : Nat := sumBy (fun k => s.credit k c) (List.range 16)

/-- The compartment holds fewer staging segments than its reserved floor (R384). -/
def underFloor (s : State) (c : Nat) : Bool := decide (s.compSegs c < (s.comp c).res.reserved)

/-- The command was in flight at a region fault from which the survivor has not drained yet: it is re-driven (R48, R135). -/
def redrivenFlight (s : State) (v : Flight) : Bool := s.lvl.takeover && decide (v.id < s.lvl.takeoverMark)

/-- The waiting grants of flight `v` are served before those of `w` (R384): reserves, class, what is re-driven after a takeover
(R135), credit, age. -/
def servedBefore (s : State) (v w : Flight) : Bool :=
  let fv := s.underFloor v.cmd.comp
  let fw := s.underFloor w.cmd.comp
  if fv ≠ fw then fv
  else if v.cls ≠ w.cls then decide (v.cls < w.cls)
  else if s.redrivenFlight v ≠ s.redrivenFlight w then s.redrivenFlight v
  else if s.creditSum v.cmd.comp ≠ s.creditSum w.cmd.comp then decide (s.creditSum w.cmd.comp < s.creditSum v.cmd.comp)
  else decide (v.id < w.id)

/-- The first waiting segment of a flight. -/
def nextWaiting (v : Flight) : Option Nat := v.segs.findIdx? (fun g => decide (g.step = .waiting))

/-- The grant that is served next: flight and segment. -/
def nextGrant (s : State) : Option (Nat × Nat) :=
  match firstBy s.servedBefore (s.car.flights.filter (fun v => (nextWaiting v).isSome && s.grantable v)) with
  | some v => (nextWaiting v).map (fun j => (v.id, j))
  | Option.none => Option.none

/-! ### Host DMA channels (R113, R138) -/

/-- A host DMA channel is in service: its region is, and it has neither failed nor halted. -/
def dmaInService (s : State) (ch : Nat) : Bool :=
  (if ch < 64 then s.lvl.regionA else s.lvl.regionB) && decide (look 0 s.lvl.unitsFailed (src 7 ch) = 0) &&
    !s.mem.frozen.any (fun x => decide (x.1 = ch))

/-- Segments that a channel serves or is to serve. -/
def dmaQueued (s : State) (ch : Nat) : Nat :=
  sumBy (fun (v : Flight) => (v.segs.filter (fun g => decide (g.step = .granted) && decide (g.channel = ch))).length) s.car.flights

/-- The channel with the fewest entries, the lower number among equals. -/
def leastQueued (s : State) (cs : List Nat) : Option Nat :=
  cs.foldl (fun acc ch => match acc with
    | some b => if s.dmaQueued ch < s.dmaQueued b then some ch else some b
    | Option.none => some ch) Option.none

/-- The channel of a segment: the named one in service with the fewest entries, the lower number among equals; any
channel in service where every named one has failed. -/
def pickChannel (s : State) (groups : BitVec 16) : Option Nat :=
  let up := (List.range 128).filter s.dmaInService
  let named := up.filter (fun ch => groups.getLsbD (ch / 8))
  s.leastQueued (if named.isEmpty then up else named)

/-- The channel that takes an entry of a failed one of region `r`: a named sibling of that region, else the other region's that
are named, else any in service (R44, R138). -/
def siblingChannel (s : State) (groups : BitVec 16) (r : Nat) : Option Nat :=
  let up := (List.range 128).filter s.dmaInService
  let named := up.filter (fun ch => groups.getLsbD (ch / 8))
  let near := named.filter (fun ch => decide (ch / 64 = r))
  s.leastQueued (if !near.isEmpty then near else if !named.isEmpty then named else up)

/-- Place of a granted segment in the order of the grants. -/
def grantPlace (s : State) (g : Seg) : Nat :=
  match g.buffer with
  | some b => s.bpm.segments.findIdx (fun x => decide (x.2.1 = b))
  | Option.none => s.bpm.segments.length

/-- The segment is the first in the queue of its host DMA channel, which completes its entries in order (R20). -/
def firstOnChannel (s : State) (g : Seg) : Bool :=
  s.car.flights.all (fun v => v.segs.all (fun h =>
    !decide (h.step = .granted) || decide (h.channel ≠ g.channel) || decide (128 ≤ g.channel) ||
      decide (s.grantPlace g ≤ s.grantPlace h)))

/-- Logical pages that `n` units from unit `u` cover. -/
def pagesCovered (u n : Nat) : Nat := if n = 0 then 0 else (u + n - 1) / 4 - u / 4 + 1

/-- Grants segment `j` of flight `v` its buffer, its sequence values and its channel `ch`. -/
def grantSeg (s : State) (v : Flight) (j ch : Nat) : State :=
  match v.segs[j]? with
  | Option.none => s
  | some g =>
    let (b, s1) := s.takeSeg (s.stagingOwner v)
    let (q, s2) := s1.takeSeq (pagesCovered (v.start + g.off) g.len)
    (s2.startClock (148 + ch / 8)).setSeg v.id j (fun g => { g with step := .granted, buffer := some b, seq := q, channel := ch })

/-! ### Transfers (R113 to R115, R423) -/

/-- The bytes that the transfer of a segment brings: zeroes of a Write Zeroes, the record of a Frame Append, the host's
data of any other write. -/
def segBytes (v : Flight) (g : Seg) (data : List Byte) : List Byte :=
  if v.peer.isSome then v.data
  else match v.kind with
  | .zeroes => List.replicate (g.len * 4096) 0
  | .frameAppend => (v.data.drop (g.off * 4096)).take (g.len * 4096)
  | _ => data

/-- Units of an LBA in the namespace of a flight. -/
def perLba (s : State) (v : Flight) : Nat :=
  match s.space v.cmd.nsid with
  | some n => n.unitsPerLba
  | Option.none => 1

/-- The data of a transfer is whole: its length, and one tuple of protection information for each LBA. -/
def transferFits (s : State) (v : Flight) (g : Seg) (data : List Byte) (pi : List PiTuple) : Bool :=
  if v.peer.isSome then true
  else match v.kind with
  | .zeroes | .frameAppend => true
  | _ => decide (data.length = g.len * 4096) && piFits v.prchk (g.len / s.perLba v) pi

/-- The reference tag of the first LBA of a segment; an append's is never checked (R423). -/
def segRef (s : State) (v : Flight) (g : Seg) : Option Nat :=
  if v.kind = .append then Option.none else some (v.ilbrt + g.off / s.perLba v)

/-- The front of a direct zone can take the segment: every row below its first has closed (R60, log 42). -/
def frontReady (s : State) (v : Flight) (g : Seg) : Bool :=
  match v.zone with
  | some z => !(s.zone z).direct || (List.range ((v.start + g.off) / rowUnits)).all (fun r => (s.row z r).qlc)
  | Option.none => true

/-- Stores the data and the tags of a zone's segment. -/
def storeSeg (s : State) (v : Flight) (g : Seg) (data : List Byte) : State :=
  match v.zone with
  | Option.none => s
  | some z =>
    let u := v.start + g.off
    let tags := (List.range g.len).foldl (fun (m : SMap UnitTag) i =>
      put noTag m (z * zoneCapUnits + u + i) { seq := g.seq + (u + i) / 4 - u / 4, time := v.admittedAt, key := v.key }) s.zns.tags
    { s with zns := { s.zns with data := writeBytes s.zns.data (z * 2 ^ 31 + u * 4096) data, tags := tags } }

/-- A segment of a mirrored write streams to the other side of the pair (R529, R559). -/
def mirrorOut (s : State) (v : Flight) (g : Seg) (data : List Byte) : State :=
  match v.mirrorWait, v.zone with
  | true, some z => match s.zonePair z with
    | some p => s.toPeer p.peer (classRank v.cls) (.mirrorData p.peer (s.zoneNumber z) (v.start + g.off) v.key data)
    | Option.none => s
  | _, _ => s

/-- The segment takes the path without a twin: the carriage has none, or the limit in force is 0 (R115, R217). -/
def slcPath (s : State) (v : Flight) : Bool :=
  (v.peer.isNone && !(s.carriage v.carriage).twin) || decide (s.plog.limitMib = 0)

/-- The pages of a segment as the landing pool takes them from the SLC path. -/
def segPages (v : Flight) (g : Seg) : List (Nat × Nat) :=
  let u := v.start + g.off
  match v.zone with
  | some z => pagesCovering z u (u + g.len)
  | Option.none => (pagesCovering 0 u (u + g.len)).map (fun p => (ownPage v.id p.1, p.2))

/-- Programs a segment into the landing pool in SLC mode; none where the pool has no room (R115). -/
def programSeg (s : State) (v : Flight) (j : Nat) (g : Seg) : Option State :=
  let mine := fun (n k : Nat) => Purpose.segment v.id j n k
  if v.zone.isNone && decide (s.shareUnits < s.zns.convShare + g.len) then Option.none
  else
  let t := s.setSeg v.id j (fun g => { g with step := .programming })
  match t.placePages (segPages v g) (.plain v.cls v.cmd.comp) mine with
  | Option.none => Option.none
  | some t1 => match t1.closeFront (.plain v.cls v.cmd.comp) mine with
    | Option.none => Option.none
    | some t2 => some (if t2.segPrograms v.id j then t2.ackSeg v.id j else t2)

/-- The segment of a direct zone gives its staging back once its data is in the front (R386). -/
def releaseDirect (s : State) (v : Flight) (j : Nat) : State :=
  match v.zone, (s.flight v.id).bind (fun w => w.segs[j]?) with
  | some z, some g =>
    if (s.zone z).direct then
      match g.buffer with
      | some b => (s.setSeg v.id j (fun g => { g with buffer := Option.none })).giveSeg b false
      | Option.none => s
    else s
  | _, _ => s

/-- Step 4 of R114 for a segment whose data has come: it waits for the dirty limit, takes the SLC path, or is twinned and
acknowledged (R115, R217). None where the SLC path finds no landing block. -/
def twinSeg (s : State) (v : Flight) (j : Nat) (g : Seg) : Option State :=
  if s.slcPath v then s.programSeg v j g
  else if s.plog.limitMib * 256 < s.dirtyUnits + g.len then some (s.setSeg v.id j (fun g => { g with step := .dirtyWait }))
  else some (((s.setSeg v.id j (fun g => { g with step := .programming })).releaseDirect v j).ackSeg v.id j)

/-- A transfer whose data fails a check of protection information: the data up to the failing LBA takes effect (R423). -/
def truncateSeg (s : State) (v : Flight) (j k : Nat) (g : Seg) (data : List Byte) (st : Status) : State :=
  let n := k * s.perLba v
  let u := v.start + g.off + n
  if n = 0 then s.failWrite v j u st
  else
    let w := { v with segs := modAt v.segs j (fun g => { g with len := n }) }
    let s1 := (s.setFlight w).failWrite w (j + 1) u st
    match (s1.flight v.id).bind (fun x => x.segs[j]?), s1.flight v.id with
    | some g', some w' =>
      let bytes := data.take (n * 4096)
      let s2 := ((s1.storeSeg w' g' bytes).mirrorOut w' g' bytes).setSeg v.id j (fun g => { g with data := bytes })
      (s2.twinSeg w' j g').getD s2
    | _, _ => s1

/-- A transfer ends with its data. -/
def transferSeg (s : State) (v : Flight) (j : Nat) (g : Seg) (data : List Byte) (pi : List PiTuple) : Option State :=
  let bytes := segBytes v g data
  match (if isWrite v.kind && decide (v.kind ≠ .zeroes) && decide (v.kind ≠ .frameAppend)
         then piFail v.prchk v.lbat (s.segRef v g) (s.perLba v * 4096) pi bytes else Option.none) with
  | some (k, st) =>
    let t := (s.truncateSeg v j k g bytes st).settleWrites v.zone
    some (match v.zone with
      | some z => t.settleZones z
      | Option.none => t)
  | Option.none => (((s.storeSeg v g bytes).mirrorOut v g bytes).setSeg v.id j (fun g => { g with data := bytes })).twinSeg v j g

/-! ### Release (R386, R600) -/

/-- The pages of a landed segment that are complete and not yet in the landing pool: every unit acknowledged. -/
def completePages (s : State) (z a b : Nat) : List (Nat × Nat) :=
  let v := s.zone z
  let acked := fun (u : Nat) => decide (u < v.acked) || v.runs.any (fun r => decide (r.1 ≤ u) && decide (u < r.2))
  (pagesCovering z a b).filterMap (fun p =>
    let q := p.1 % 92160
    let us := [0, 1, 2, 3].map (fun k => q * 4 + k)
    if us.all acked && !(s.row z (q * 4 / rowUnits)).qlc && us.all (fun u => !s.inLanding p.1 (u % 4)) then some (p.1, 15)
    else Option.none)

/-- The conventional units of a segment that stand in staging alone. -/
def convToPlace (s : State) (a n : Nat) : List Nat :=
  ((List.range n).map (a + ·)).filter (fun u =>
    let e := (look 0xFFFFFFFF s.zns.convMap u).toNat
    decide (2 ^ 31 ≤ e) && decide (e < 0xFFFFFFFE) && !s.inLanding (convPage (u / 4)) (u % 4))

/-- The staging mover copies an acknowledged segment into its landing front; none while there is no room. -/
def moveStaged (s : State) (x : Staged) : Option State :=
  match x.zone with
  | some z =>
    if (s.zone z).direct then some s
    else s.placePages (s.completePages z x.start (x.start + x.len)) (.plain x.cls x.comp) (fun n k => .landing n k)
  | Option.none =>
    if s.shareUnits < s.zns.convShare then Option.none
    else s.placePages (pagesOfUnits ((s.convToPlace x.start x.len).map (fun u => (0, convPage (u / 4), u % 4))))
      (.plain x.cls x.comp) (fun n k => .landing n k)

/-! ### Host DMA faults (R434) -/

/-- PASID that a host command's transfers use; 0 where they are untranslated (log 45). -/
def cmdPasid (s : State) (h : HostCmd) : Nat :=
  match s.queue (ctlOf h) h.qid true with
  | some q => q.pasid.getD 0
  | Option.none => 0

/-- Event 0x0103. -/
def dmaEvent (s : State) (channel status pasid comp : Nat) : State :=
  s.event 0x0103 3 (src 7 channel) comp [channel, status, pasid]

/-- A transfer of a flight fails: a write takes no effect from the failing segment on (R602). -/
def failTransfer (s : State) (v : Flight) (j : Nat) : State :=
  let t := (s.failSegment v j .dataTransferError).settleWrites v.zone
  match v.zone with
  | some z => t.settleZones z
  | Option.none => t

end State

/-- SEGMENT_GRANT (R113, R382 to R385): the grant that is served next. -/
def execSegmentGrant (flight seg : Nat) (s : State) : Out :=
  match s.flight flight, s.nextGrant with
  | some v, some g =>
    if s.serves && decide (g = (flight, seg)) then
      match (if v.peer.isSome then some 128 else s.pickChannel (s.carriage v.carriage).dmaGroups) with
      | some ch => .next (s.grantSeg v seg ch)
      | none => cannot "SEGMENT_GRANT"
    else cannot "SEGMENT_GRANT"
  | _, _ => cannot "SEGMENT_GRANT"

/-- SEGMENT_TRANSFER_COMPLETE (R20, R113 to R115, R217, R423): the data of the first entry of a channel's queue has come, is checked, and is twinned or programmed. -/
def execSegmentTransferComplete (flight seg : Nat) (data : List Byte) (pi : List PiTuple) (s : State) : Out :=
  match s.flight flight with
  | none => cannot "SEGMENT_TRANSFER_COMPLETE"
  | some v => match v.segs[seg]? with
    | none => cannot "SEGMENT_TRANSFER_COMPLETE"
    | some g =>
      if decide (g.step = .granted) && s.serves && s.firstOnChannel g && s.transferFits v g data pi && s.frontReady v g then
        match s.transferSeg v seg g data pi with
        | some t => .next t
        | none => cannot "SEGMENT_TRANSFER_COMPLETE"
      else cannot "SEGMENT_TRANSFER_COMPLETE"

/-- DIRTY_LIMIT_WAIT_END (R217): the count has fallen, or the limit has become 0. -/
def execDirtyLimitWaitEnd (flight seg : Nat) (s : State) : Out :=
  match s.flight flight with
  | none => cannot "DIRTY_LIMIT_WAIT_END"
  | some v => match v.segs[seg]? with
    | none => cannot "DIRTY_LIMIT_WAIT_END"
    | some g =>
      if g.step = .dirtyWait ∧ s.serves ∧ (s.slcPath v ∨ s.dirtyUnits + g.len ≤ s.plog.limitMib * 256) then
        match s.twinSeg v seg g with
        | some t => .next t
        | none => cannot "DIRTY_LIMIT_WAIT_END"
      else cannot "DIRTY_LIMIT_WAIT_END"

/-- STAGING_SEGMENT_RELEASE (R386, R382): the segment and its twin are released. -/
def execStagingSegmentRelease (flight seg : Nat) (s : State) : Out :=
  match s.car.staged.find? (fun x => decide (x.flight = flight) && decide (x.seg = seg)) with
  | none => cannot "STAGING_SEGMENT_RELEASE"
  | some x =>
    if s.serves then
      match s.moveStaged x with
      | some t => .next (({ t with car := { t.car with staged := t.car.staged.filter (fun y => decide (y ≠ x)) } }).giveSeg x.buffer false)
      | none => cannot "STAGING_SEGMENT_RELEASE"
    else cannot "STAGING_SEGMENT_RELEASE"

/-- HOST_DMA_FAULT (R271, R434, R602): event 0x0103; the transfer's command ends with Data Transfer Error, a reel's ticket
with the fault. -/
def execHostDmaFault (channel status : Nat) (victim : DmaVictim) (s : State) : Out :=
  if 128 ≤ channel then cannot "HOST_DMA_FAULT"
  else match victim with
  | .seg f j => match s.flight f with
    | none => cannot "HOST_DMA_FAULT"
    | some v => match v.segs[j]? with
      | none => cannot "HOST_DMA_FAULT"
      | some g =>
        arises (decide (g.step = .granted) && decide (g.channel = channel) && s.firstOnChannel g) "HOST_DMA_FAULT"
          ((s.dmaEvent channel status (s.cmdPasid v.cmd) v.cmd.comp).failTransfer v j)
  | .flight f => match s.flight f with
    | none => cannot "HOST_DMA_FAULT"
    | some v =>
      arises (State.isRead v.kind && decide (v.kind ≠ .verify)) "HOST_DMA_FAULT"
        ((s.dmaEvent channel status (s.cmdPasid v.cmd) v.cmd.comp).killFlight v .dataTransferError)
  | .ticket ctx ticket =>
    match s.kry.ops.find? (fun o => decide (o.ctx = ctx) && decide (o.ticket = ticket)) with
    | none => cannot "HOST_DMA_FAULT"
    | some o =>
      match o.op with
      | .hostRead x _ _ _ _ | .hostWrite x _ _ _ _ =>
        let s1 := s.dmaEvent channel status (x.pasid.getD 0) x.comp
        .next (({ s1 with kry := { s1.kry with ops := s1.kry.ops.erase o } }).postTicket o.inst ticket
          { num := ticket, done := some (1, 0), dmaFault := some status, scratch := [] })
      | _ => cannot "HOST_DMA_FAULT"

end Sys2Proof.Machine
end

