-- ==== Sys2Proof/Machine/LevelOps.lean ====
section
/-! DEFINITION. What the levels do about a fault: relief of a caller's reels, the takeover of a region, and the moves of
queued work to sibling units (R21, R26, R44 to R52, R134 to R138, R330 to R332). -/

namespace Sys2Proof.Machine

namespace State

/-- Region `r` is in service. -/
def regionUp (s : State) (r : Nat) : Bool := if r = 0 then s.lvl.regionA else s.lvl.regionB

/-! ### Relief (R50, R330 to R332) -/

/-- Contexts of the relief callers of region `r`. -/
def reliefCtxs (r : Nat) : List Nat := (List.range 8).map (fun i => 128 + 8 * r + i)

/-- A context of a caller in service stands free. -/
def ctxFree (s : State) (c : Nat) : Bool :=
  s.regionUp (ctxRegion c) && !s.kry.failed.getLsbD (c / 4) && (s.kctx c).isNone

/-- A free relief context for a reel of region `r`: its own region's first (R50). -/
def freeRelief (s : State) (r : Nat) : Option Nat := (reliefCtxs r ++ reliefCtxs (1 - r)).find? s.ctxFree

/-- A context as it resumes from its last commit: the results that units have given since then are kept for the run
again, and a halt that is pending starts its grace time again (R269, R275, R327, R330). -/
def fromCommit (s : State) (k : KCtx) : KCtx :=
  { k with
    regs := k.saved.regs, pc := k.saved.pc, flags := k.saved.flags
    scratch := k.saved.tickets.foldl (fun m t => t.scratch.foldl (fun m e => put 0 m e.1 e.2) m) k.saved.scratch
    tickets := k.saved.tickets, epoch := k.saved.epoch, retired := k.saved.retired
    kept := k.tickets.filter (fun t => k.saved.tickets.all (fun u => decide (u.num ≠ t.num))) ++ k.kept
    relieved := true, wait := .ready, count := 0, jpos := 0, held := []
    haltAt := k.haltAt.map (fun _ => s.now + k.grace * 1000000) }

/-- The lines that a reel which moves from context `c` to `d` finds in the reel cache: those of its region, and a pinned image. -/
def keptLines (c d : Nat) (i : KInst) : List Nat := if ctxRegion c = ctxRegion d ∨ i.source = 1 then i.lines else []

/-- The reel in context `c` resumes in context `d` from its last commit. The half of the reel cache in another region holds none of
its lines but those of a pinned image (R313). -/
def moveReel (s : State) (c d : Nat) : State :=
  match s.kctx c with
  | none => s
  | some k =>
    let s1 := ((s.setKctx c none).setKctx d (some (s.fromCommit k))).modInst k.inst (fun i => { i with ctx := d, lines := keptLines c d i })
    { s1 with
      kry := { s1.kry with ops := s1.kry.ops.map (fun o => if o.inst = k.inst then { o with ctx := d } else o) }
      mem := { s1.mem with bad := s1.mem.bad.filter (fun x => match x with
        | .scratch c' _ => decide (c' ≠ c)
        | _ => true) } }

/-- The reel in context `c` moves to `d`, or stops in state 7 where there is no relief context for it (R50). -/
def moveOrStop (s : State) (c : Nat) (d : Option Nat) : State :=
  match s.kctx c with
  | none => s
  | some k => match d with
    | some d => s.moveReel c d
    | none => ((s.setKctx c (some (s.fromCommit k))).event 0x0205 4 (srcCaller c) k.comp [k.inst]).stopReel c 7 0 0

/-- One reel of a failed caller is relieved (R50, R330): event 0x0204 names the failed caller as its source. -/
def relieve (s : State) (c : Nat) : State :=
  match s.kctx c with
  | none => s
  | some k => match s.freeRelief (ctxRegion c) with
    | some d => (s.moveReel c d).event 0x0204 3 (srcCaller c) k.comp [k.inst, d / 4, d % 4]
    | none => s.moveOrStop c none

/-- The reel whose mirror a takeover context holds: the home context of the other region that starts it (R28, R331). -/
def mirrorOf (s : State) (c : Nat) : Option (KCtx × KInst) :=
  if c < 128 ∧ 2 ≤ c % 4 then
    let home := (c / 4 + 16) % 32 * 4 + (c % 4 - 2)
    match s.kry.insts.find? (fun e => decide (e.1 % 256 = home) && e.2.isSome) with
    | some (_, some x) => (s.kctx x.ctx).map (fun k => (k, x))
    | _ => none
  else none

/-- What a takeover context shows: the mirror, or, once its caller or its region has failed, what it held by then; the survivor
keeps later commits in DRAM (R331, R332). -/
def mirrorShown (s : State) (c : Nat) : Option (KCtx × KInst) :=
  if s.kry.failed.getLsbD (c / 4) || !s.regionUp (ctxRegion c) then look none s.kry.mirrors c else s.mirrorOf c

/-- The takeover contexts that `f` names receive no commits from now on. -/
def stopMirrors (s : State) (f : Nat → Bool) : State :=
  let cs := (List.range 128).filter (fun c => f c && decide (2 ≤ c % 4))
  { s with kry := { s.kry with mirrors := cs.foldl (fun m c => put none m c (s.mirrorShown c)) s.kry.mirrors } }

/-- A caller is declared failed and its reels are relieved (R50). -/
def loseCaller (s0 : State) (n : Nat) : State :=
  let s := s0.stopMirrors (fun c => decide (c / 4 = n))
  (List.range 4).foldl (fun t i => t.relieve (n * 4 + i))
    { s with kry := { s.kry with failed := s.kry.failed ||| BitVec.ofNat 36 (2 ^ n) } }

/-- A context of caller `n` is ready to issue (R50). -/
def holdsWork (s : State) (n : Nat) : Bool :=
  (List.range 4).any (fun i => match s.kctx (n * 4 + i) with
    | none => false
    | some k => s.mayIssue k && decide (k.wait = .ready) && (match s.kinst k.inst with
      | some x => x.lines.contains (k.pc / 4096)
      | none => false))

/-! ### Work moves to siblings (R21, R134, R138) -/

/-- Granted segments on host DMA channels out of service go to siblings, in their order (R21, R44, R138). -/
def moveSegs (s : State) : State :=
  s.car.flights.foldl (fun t v => (List.range v.segs.length).foldl (fun t j => match v.segs[j]? with
    | some g =>
      if g.step = .granted ∧ t.dmaInService g.channel = false then
        let carriage := t.carriage v.carriage
        match t.siblingChannel carriage.dmaGroups (g.channel / 64) with
        | some ch => t.setSeg v.id j (fun x => { x with channel := ch })
        | none => t
      else t
    | none => t) t) s

/-- Segments granted on channels out of service. -/
def segsToMove (s : State) : Nat :=
  sumBy (fun (v : Flight) => (v.segs.filter (fun g => decide (g.step = .granted) && !s.dmaInService g.channel)).length)
    s.car.flights

/-- Codec jobs on lanes out of service start again on another lane, of the same region while it has one (R44, R134, R138): event
0x0701 names the lane lost. -/
def moveJobs (s : State) : State :=
  let lost := s.fcd.jobs.filterMap (fun j => match j.lane with
    | some l => if s.fcd.lanesOk.getLsbD l then none else some (j.ctx, l)
    | none => none)
  let s1 := { s with fcd := { s.fcd with jobs := s.fcd.jobs.map (fun (j : CodecJob) => match j.lane with
    | some l => if s.fcd.lanesOk.getLsbD l then j else { j with lane := none, near := some (l / 4) }
    | none => j) } }
  (lost.foldl (fun (t : State) x => t.event 0x0701 2 (src 8 x.2) 0 [x.1, x.2]) s1).settleCodec

/-- Codec jobs on lanes out of service. -/
def jobsToMove (s : State) : Nat :=
  (s.fcd.jobs.filter (fun j => match j.lane with
    | some l => !s.fcd.lanesOk.getLsbD l
    | none => false)).length

/-! ### Region takeover (R46 to R52) -/

/-- Buffers of a failed region's general area have lost their contents (R389). -/
def losePart (s : State) (r : Nat) : State :=
  { s with bpm := { s.bpm with bufs := s.bpm.bufs.map (fun e => (e.1, e.2.map (fun b =>
    if b.domain = 0 ∧ b.part = r then { b with gone := true } else b))) } }

/-- Where a reel of failed region `r` resumes: the takeover context that mirrors it, or a relief context where its paired
caller had failed (R28, R331, R332). -/
def takeoverCtx (s : State) (r c : Nat) (k : KCtx) : Option Nat :=
  let home : Option Nat :=
    if c < 128 then some c
    else if ctxRegion (k.inst % 256) = r ∧ k.inst % 256 < 128 then some (k.inst % 256) else none
  match home with
  | some h =>
    let d := (if h / 4 < 16 then h / 4 + 16 else h / 4 - 16) * 4 + 2 + h % 2
    if s.ctxFree d then some d else s.freeRelief (1 - r)
  | none => s.freeRelief (1 - r)

/-- The survivor runs the reels of failed region `r` from their last commits. -/
def takeReels (s : State) (r : Nat) : State :=
  (List.range 144).foldl (fun t c =>
    if ctxRegion c = r then match t.kctx c with
      | some k => t.moveOrStop c (t.takeoverCtx r c k)
      | none => t
    else t) s

/-- Every command in flight completes with an error status: no region is left to serve it (R51; log 164). -/
def completeAll (s : State) : State :=
  let s1 := s.car.flights.foldl (fun (t : State) v => match t.flight v.id with
    | some w => t.killFlight w .internalError
    | none => t) s
  let s2 := s1.fcd.jobs.foldl (fun (t : State) j => match j.work with
    | .append cmd _ _ _ _ _ _ _ _ => t.fail cmd .internalError
    | .save cmd => t.fail cmd .internalError
    | .restore cmd _ => t.fail cmd .internalError
    | .read _ _ _ => t
    | .reel _ _ => t) s1
  s2.pwr.modeCommands.foldl (fun (t : State) h => t.fail h .internalError) s2

/-- Region `r` has failed (R48): the other takes it over, or, where it has failed as well, the module stops serving and
flushes (R51). -/
def takeOver (s : State) (r : Nat) : State :=
  if s.regionUp (1 - r) then
    let s1 := (s.stopMirrors (fun c => decide (ctxRegion c = r))).regionOut r
    let s2 := { s1 with lvl := { s1.lvl with takeover := true, takeoverBy := 1 - r, takeoverAt := s.now
                                             takeoverMark := s.car.nextFlight } }
    let s3 := (s2.event 0x0202 4 (srcRegion (1 - r) 0) 0 [r]).event 0x0400 3 (srcRegion (1 - r) 0) 0 [1 - r]
    let s4 := match s3.pwr.pstate with
      | .entering t n => if n < 5 then s3.abortEntry t n 3 0 else s3
      | _ => s3
    ((s4.losePart r).takeReels r).moveSegs.moveJobs
  else ((s.regionOut r).completeAll).declareLoss

/-- Every command in flight at the region fault has completed (R48). -/
def takeoverDrained (s : State) : Bool :=
  s.car.flights.all (fun v => decide (s.lvl.takeoverMark ≤ v.id)) &&
    s.fcd.jobs.all (fun j => match j.work with
      | .append _ _ _ _ _ _ _ admittedAt _ => decide (s.lvl.takeoverAt < admittedAt)
      | _ => true)

/-! ### Unit faults (R21, R138, R193) -/

/-- Marks a unit as failed. -/
def markFailed (s : State) (kind inst cause : Nat) : State :=
  { s with lvl := { s.lvl with unitsFailed := put 0 s.lvl.unitsFailed (src kind inst) (cause + 1) } }

/-- The event of a unit's fault: its cause, and the entries moved to a sibling. -/
def faultEvent (s : State) (kind inst cause : Nat) (moved : Int) : State := s.event 0x0200 3 (src kind inst) 0 [cause, moved]

/-- The event of a unit whose queue the model does not hold: how many entries move is free. -/
def faultFree (s : State) (kind inst cause : Nat) : State :=
  (s.faultEvent kind inst cause (Config.freeNat s.free)).draw

/-- A cluster is lost as a whole: every die of it (R44, R137). -/
def loseCluster (s : State) (k : Nat) : State :=
  { s with lvl := { s.lvl with clusterLost := s.lvl.clusterLost ||| BitVec.ofNat 16 (2 ^ k) } }.loseDies (s.clusterDies k)

/-- A unit reports a fault of its own, or its level's watchdog reports that it stopped responding (R21): the event names
it, and its queue moves to a sibling. A halted DMA channel counts among the frozen ones (R405, R406). None where the unit
is not one that reports by event 0x0200. -/
def unitFault (s : State) (kind inst cause : Nat) : Option State :=
  let up := decide (look 0 s.lvl.unitsFailed (src kind inst) = 0)
  match kind with
  | 0 => if decide (inst < 12) && up then some ((s.markFailed 0 inst cause).faultFree 0 inst cause) else none
  | 1 => if decide (inst < 64) && !(s.channel inst).lost then some ((s.faultFree 1 inst cause).loseChannel inst) else none
  | 2 => if decide (inst < 64) && up then some ((s.markFailed 2 inst cause).faultFree 2 inst cause) else none
  | 3 => if decide (inst < 32) && up then some ((s.markFailed 3 inst cause).faultFree 3 inst cause) else none
  | 4 => if decide (inst < 64) && up then some ((s.markFailed 4 inst cause).faultFree 4 inst cause) else none
  | 5 => if decide (inst < 16) && up then some ((s.markFailed 5 inst cause).faultFree 5 inst cause) else none
  | 6 =>
    if decide (inst < 36) && !s.kry.failed.getLsbD inst then
      some ((s.faultEvent 6 inst cause ((List.range 4).filter (fun i => (s.kctx (inst * 4 + i)).isSome)).length).loseCaller inst)
    else none
  | 7 =>
    if decide (inst < 128) && s.dmaInService inst then
      let s1 : State := if cause = 3 then
          { s with mem := { s.mem with frozen := s.mem.frozen ++ [(inst, (Config.freeNat s.free) % 2 ^ 48 )] } }.draw
        else s.markFailed 7 inst cause
      some ((s1.faultEvent 7 inst cause s1.segsToMove).moveSegs)
    else none
  | 8 =>
    if decide (inst < 8) && s.fcd.lanesOk.getLsbD inst then
      let s1 := (s.markFailed 8 inst cause)
      let s2 := { s1 with fcd := { s1.fcd with lanesOk := s1.fcd.lanesOk &&& ~~~(BitVec.ofNat 8 (2 ^ inst)) } }
      some ((s2.faultEvent 8 inst cause s2.jobsToMove).moveJobs)
    else none
  | 9 =>
    if decide (inst < 16) && !s.lvl.clusterLost.getLsbD inst then some ((s.faultFree 9 inst cause).loseCluster inst)
    else none
  | 10 => if decide (inst < 32 ∧ inst % 16 < 6) && up then some ((s.markFailed 10 inst cause).faultFree 10 inst cause) else none
  | 11 => if decide (inst < 8) && up then some ((s.markFailed 11 inst cause).faultFree 11 inst cause) else none
  | _ => none

/-- The crossbar of region `r` has lost its attachment to cluster `k`. -/
def xbarLoss (s : State) (k r : Nat) : State :=
  let bit := BitVec.ofNat 16 (2 ^ k)
  { s with lvl := { s.lvl with xbarLost := if r = 0 then (s.lvl.xbarLost.1 ||| bit, s.lvl.xbarLost.2)
                                           else (s.lvl.xbarLost.1, s.lvl.xbarLost.2 ||| bit) } }

/-- Cluster `k` is attached to the crossbar of region `r`, and the region is in service. -/
def attached (s : State) (k r : Nat) : Bool :=
  s.regionUp r && !(if r = 0 then s.lvl.xbarLost.1.getLsbD k else s.lvl.xbarLost.2.getLsbD k)

end State

end Sys2Proof.Machine
end

