-- ==== Sys2Proof/Machine/Windows.lean ====
section
/-! DEFINITION. What happens at the edge of a credit window, the core phases, and clocks that stop (R30 to R36, R129 to
R133, R465 to R469). -/

namespace Sys2Proof.Machine

namespace State

/-- Programs and erases that wait or run on the dies of a region: its demand on the program cap (log 22). -/
def progDemand (s : State) (region : Nat) : Nat :=
  sumBy (fun (e : Nat × Die) => if s.dieRegion e.1 = region then
      (e.2.queue.filter (fun q => isProgErase q.kind)).length + (match e.2.op with
        | some o => if isProgErase o.entry.kind then 1 else 0
        | none => 0)
    else 0) s.fls.dies

/-- The demand each region reported in the window that ends; the power demand is a free value (log 22). -/
def reportDemand (s : State) : State :=
  { s with
    lvl := { s.lvl with
      budgetA := { s.lvl.budgetA with demandMw := Config.freeNat s.free, demandProg := s.progDemand 0 }
      budgetB := { s.lvl.budgetB with demandMw := Config.freeNat (s.free + 1), demandProg := s.progDemand 1 } }
    free := s.free + 2 }

/-- Compares the measured average with the power the budget modelled, a free value (log 22): what exceeds it comes off
the next window (R466). -/
def judgePower (s : State) (pAvg : Nat) : State :=
  let model := Config.freeNat s.free
  let over_ := pAvg * 100 - model
  let s1 := { s with lvl := { s.lvl with excessMw := over_ }, free := s.free + 1 }
  if over_ = 0 then s1
  else s1.event 0x0C07 2 srcPower 0 [pAvg, model, rowWatts s.lvl.rowPower]

/-- The fans that count as lost (R512, R516). -/
def fansLost (s : State) : Nat := (s.fan.outs.filter (fun f => f.lost)).length

/-- The Enforce floor of two lost fans goes at a boundary once fewer are lost (R512). -/
def liftFanFloor (s : State) : State :=
  if s.thm.fanFloor && decide (s.fansLost < 2) then
    let s1 := { s with thm := { s.thm with fanFloor := false } }
    if s.thm.level = 0 ∧ s.thm.step ≠ 0 then
      ({ s1 with thm := { s1.thm with step := 0 } }).event 0x0D01 2 srcThermal 0 [s.thm.step, 0]
    else s1
  else s

/-- The read-around budget of a cluster in the window that opens (R125, R127): slacks written take effect. The
allowance is rounded to the nearest µs, as R128's worked example has it (log 167). -/
def RaBudget.renew (r : RaBudget) (fraction : Nat) : RaBudget :=
  let (e, st, b) := r.written.getD (r.express, r.standard, r.bulk)
  { r with fraction := fraction, express := e, standard := st, bulk := b, written := none,
           allowance := (fraction * r.readUs + 50) / 100, used := 0, readUs := 0 }

/-- Dies in service in a cluster. -/
def clusterSize (s : State) : Nat := s.part.variant.ranks * 4

/-- Credits of the window that opens (R129, R132). -/
def renewCredit (s : State) : State :=
  let share := s.car.shareNext.foldl (fun m e => put 0 m e.1 e.2) s.car.share
  let n := s.clusterSize
  { s with car := { s.car with share := share, shareNext := [], credit := share.map (fun e => (e.1, e.2 * n)) } }

/-- The bank is measured every 24 h (R215). -/
def measureDaily (s : State) : State :=
  if s.plog.charger && s.plog.measuredAt + 86400000000000 ≤ s.now then s.startMeasurement else s

/-- Everything that a boundary does once `TIM_NOW` stands in the new window, but for the judgement of the window that
ended. -/
def windowEdge (s : State) : State :=
  let s1 := ((((s.startClock 4).reportDemand).applyMode).liftFanFloor).measureDaily
  let row := s1.ladderRow
  let s2 := { s1 with
    lvl := { s1.lvl with rowInForce := row, rowPower := row, windowStart := s1.now - s1.now % 1000000 }
    fls := { s1.fls with
      dies := s1.fls.dies.map (fun (e : Nat × Die) => (e.1, { e.2 with op := e.2.op.map (fun (o : DieOp) =>
        { o with region := s1.dieRegion e.1 }) }))
      clusters := s1.fls.clusters.map (fun (c : ClusterCfg) => { c with media := c.mediaNext.getD c.media, mediaNext := none })
      fold := s1.fls.foldNext.getD s1.fls.fold, foldNext := none }
    car := { s1.car with ra := s1.car.ra.map (fun (r : RaBudget) => RaBudget.renew r (rowRa row)) } }
  let s3 := ((s2.apportionPower).apportionProg).renewCredit
  trimSlots (rowProg row) (s3.slotsHeld 0 + s3.slotsHeld 1) s3

/-- A boundary: the window that ends is judged by its measured power, and the next one opens. -/
def openWindow (s : State) (pAvg iIn : Nat) : State :=
  let t := s.judgePower pAvg
  ({ t with pwr := { t.pwr with pAvg := pAvg, iIn := iIn } }).windowEdge

end State

/-! ### Commands -/

/-- CREDIT_WINDOW_BOUNDARY (R30, R31, R49, R125, R129, R132, R466, R468, R469, R504, R512): `TIM_NOW` reaches the end of
the window. -/
def execCreditWindowBoundary (pAvg iIn : Nat) (s : State) : Out :=
  arises s.awake "CREDIT_WINDOW_BOUNDARY" ((s.advanceTo (s.lvl.windowStart + 1000000)).openWindow pAvg iIn)

/-- CORE_PHASE_CHECK (R465): each phase found failed posts event 0x0C06; below four phases power loss is declared. -/
def execCorePhaseCheck (failed : BitVec 9) (s : State) : Out :=
  let new := (List.range 9).filter (fun i => failed.getLsbD i && s.pwr.phasesOk.getLsbD i)
  let t := new.foldl (fun (t : State) i =>
    let ok := t.pwr.phasesOk &&& ~~~ BitVec.ofNat 9 (2 ^ i)
    ({ t with pwr := { t.pwr with phasesOk := ok } }).event 0x0C06 3 srcPower 0
      [i, ((List.range 9).filter (fun j => ok.getLsbD j)).length]) s
  let left := ((List.range 9).filter (fun j => t.pwr.phasesOk.getLsbD j)).length
  arises s.awake "CORE_PHASE_CHECK" (if left < 4 then t.declareLoss else t)

/-- A clock domain has work in a queue (R33, R34): a channel engine, a caller that holds work, a codec lane with a job, a host DMA
group with a granted segment; the engines of a region while commands are in flight. -/
def domainBusy (s : State) (d : Nat) : Bool :=
  if d < 16 then false
  else if d < 80 then s.fls.dies.any (fun e => decide (dieChannel e.1 + 16 = d) && (e.2.op.isSome || !e.2.queue.isEmpty))
  else if d < 96 then false
  else if d < 132 then s.holdsWork (d - 96)
  else if d < 140 then s.lanesBusy.contains (d - 132)
  else if d < 148 then false
  else if d < 164 then s.car.flights.any (fun v => v.segs.any (fun g => decide (g.step = .granted) && decide (g.channel / 8 + 148 = d)))
  else false

/-- The domain that is being closed: the lowest of domains 16 to 171 with a transfer in flight while an entry drains (R476, R489,
R490). -/
def State.closingDomain (s : State) : Option Nat :=
  match s.pwr.pstate with
  | .entering _ 2 => ((List.range 156).map (· + 16)).find? (domainBusy s)
  | _ => none

/-- CLOCK_IDLE_STOP (R34): the clock of a domain that has been idle for 4 µs stops; domain 0 never does. -/
def execClockIdleStop (domain : Nat) (s : State) : Out :=
  arises (decide (domain ≠ 0) && s.lvl.clocks.getLsbD domain && !domainBusy s domain) "CLOCK_IDLE_STOP"
    { s with lvl := { s.lvl with clocks := s.lvl.clocks &&& ~~~ BitVec.ofNat 256 (2 ^ domain) } }

end Sys2Proof.Machine
end

