-- ==== Sys2Proof/Machine/Thermal.lean ====
section
/-! DEFINITION. The thermal manager: sensors, levels, grace windows, Critical and Trip (R499 to R508). -/

namespace Sys2Proof.Machine

/-- A reading as its source gives it: 0 controller die, 1 flash. Temperatures are °C + 40 (R509). -/
abbrev Reading := Nat × Nat × Nat

/-- Pairs (ms before the newest, °C + 40) of a source's readings of the last second (R505). -/
def slopePoints (rs : List Reading) (source now : Nat) : List (Int × Int) :=
  (rs.filter (fun r => decide (r.2.1 = source) && decide (now ≤ r.1 + 1000000000))).map (fun r =>
    ((r.1 : Int) - now, (r.2.2 : Int)))

/-- Least-squares slope of points as a fraction: numerator and denominator in °C per ns; the denominator is positive or
0. -/
def leastSquares (ps : List (Int × Int)) : Int × Int :=
  let n : Int := ps.length
  let st := (ps.map (·.1)).foldl (· + ·) 0
  let sy := (ps.map (·.2)).foldl (· + ·) 0
  let sty := (ps.map (fun p => p.1 * p.2)).foldl (· + ·) 0
  let stt := (ps.map (fun p => p.1 * p.1)).foldl (· + ·) 0
  (n * sty - st * sy, n * stt - st * st)

/-- Slope in units of 0.01 °C/s. -/
def slopeUnits (f : Int × Int) : Int := if f.2 = 0 then 0 else f.1 * 100000000000 / f.2

/-- Time to Trip in ms, none where the slope gives no limit (R505). -/
def timeToTrip (f : Int × Int) (trip reading : Int) : Option Int :=
  if f.1 ≤ 0 ∨ f.2 = 0 then none else some ((trip - reading) * f.2 / (f.1 * 1000000))

namespace State

/-- The grace window in ns; a field of 0 is taken as 1 ms (R510). -/
def graceNs (s : State) : Nat := max 1 s.thm.graceMs * 1000000

/-- Limits of a source. -/
def limits (s : State) (k : Nat) : Limits := if k = 1 then s.thm.flash else s.thm.die

/-- Kelvin of a reading in °C + 40 (R508). -/
def kelvin (t : Nat) : Nat := t + 233

/-- The four temperatures the host sees: composite and sensors 1 to 3, in kelvin (R508). -/
def hostTemps (s : State) : List Nat :=
  [kelvin s.thm.dieTemp, kelvin s.thm.dieTemp, kelvin s.thm.flashTemp, kelvin ((s.thm.board[0]?).getD 0)]

/-- A threshold of a steward controller is crossed (R508). -/
def hostCrossed (s : State) : Bool :=
  [s.hif.port0.feat, s.hif.port1.feat].any (fun f =>
    (s.hostTemps.mapIdx (fun i t => (i, t))).any (fun x =>
      decide ((f.tempOver[x.1]?).getD 0xFFFF ≤ x.2) || decide (x.2 ≤ (f.tempUnder[x.1]?).getD 0)))

/-- Runs an update of the readings and reports a threshold it crosses (R508). -/
def withThresholds (s : State) (f : State → State) : State :=
  let t := f s
  if t.hostCrossed && !s.hostCrossed then t.warning 1 1 else t

/-- Lowest spare percentage over the stripe groups (R77). -/
def sparePct (s : State) : Nat :=
  ((List.range s.part.variant.groups).map (fun g => s.spareMin g * 100 / 280)).foldl min 100

/-- Thermal level in force: at least 2 while two lost fans hold their floor (R509, R512). -/
def thermalLevel (s : State) : Nat := if s.thm.fanFloor then max 2 s.thm.level else s.thm.level

/-- Critical warning of the SMART / Health log (R419). -/
def criticalWarning (s : State) : Nat :=
  (if s.sparePct < 10 then 1 else 0) + (if 1 ≤ s.thermalLevel ∨ s.hostCrossed then 2 else 0)
    + (if s.fls.pinWarning ∨ s.mem.tableWarning then 4 else 0) + (if s.plog.singlePath then 16 else 0)

/-- A change of the level with event 0x0D00. -/
def setLevel (s : State) (lvl source temp : Nat) : State :=
  if s.thm.level = lvl then s
  else ({ s with thm := { s.thm with level := lvl, source := source } }).event 0x0D00 2 srcThermal 0
    [s.thm.level, lvl, source, (temp : Int) - 40]

/-- A change of the Enforce step with event 0x0D01; a lowered power cap applies at once (R503, R504). -/
def setStep (s : State) (n : Nat) : State :=
  if s.thm.step = n then s
  else (({ s with thm := { s.thm with step := n } }).event 0x0D01 2 srcThermal 0 [s.thm.step, n]).lowerPower

/-- Every fan at 100 % (R505, R511). -/
def fansFull (s : State) : State :=
  if s.part.fan then { s with fan := { s.fan with outs := s.fan.outs.map (fun (f : FanOut) =>
    if f.state = 6 then { f with cmdPct := 100 } else f) } }
  else s

/-- Notice is entered: the grace window opens at the reading's stamp, the host is told, and the thermal wake source
fires (R501 to R503). -/
def enterNotice (s : State) (k temp stamp : Nat) : State :=
  let s1 := ({ s with thm := { s.thm with windowAt := some stamp } }).setLevel 1 k temp
  let s2 := (s1.warning 1 1).fansFull
  match s2.wakeFired 0x40 with
  | some t => t
  | none => s2

/-- Critical is entered (R505): the fans, and then the orderly stop or the early Trip where a mount has completed. -/
def enterCritical (s : State) (k temp : Nat) : State :=
  let f := leastSquares (slopePoints s.thm.readings (if k = 2 then 0 else k) s.now)
  let lim : Int := (s.limits k).trip + 40
  let left := timeToTrip f lim temp
  let s1 := (({ s with thm := { s.thm with windowAt := some (s.thm.windowAt.getD s.now) } }).setLevel 3 k temp).fansFull
  let s2 := if s.thm.level = 0 then s1.warning 1 1 else s1
  if !s.mounted then s2
  else
    let early := !s.thm.stopEn || (match left with
      | some ms => decide (ms < s.thm.stopMs)
      | none => false)
    if early then s2.trip k temp true
    else
      let t := s2.event 0x0D02 4 srcThermal 0 [(temp : Int) - 40, slopeUnits f, left.getD (-1)]
      ({ t with thm := { t.thm with stopped := true } }).beginStop.stopCheck

/-- Sets element `k` of a pair of counters. -/
def setRun (p : Nat × Nat) (k n : Nat) : Nat × Nat := if k = 1 then (p.1, n) else (n, p.2)
def getRun (p : Nat × Nat) (k : Nat) : Nat := if k = 1 then p.2 else p.1

/-- Level that the readings leave in force once none is at Critical. -/
def calmLevel (s : State) : Nat := if 0 < s.thm.step then 2 else 1

/-- Judges a reading of source `k` against its limits (R501 to R507): `temp` is the source's temperature, and `own` what the
sensor or die just read gave, whose consecutive readings count (log 183). In the sleeping states only Notice, by its wake, and
Trip act. -/
def judge (s : State) (k temp own stamp : Nat) : State :=
  let lim := s.limits k
  let run : Nat → Nat → Nat := fun n limit => if limit + 40 ≤ own then min 2 (n + 1) else 0
  let crit := run (getRun s.thm.critRuns k) lim.critical
  let trp := run (getRun s.thm.tripRuns k) lim.trip
  let rs := ((stamp, k, temp) :: s.thm.readings).filter (fun r =>
    decide (stamp ≤ r.1 + max (2 * s.graceNs) 1000000000))
  let s1 : State := { s with thm := { s.thm with
    readings := rs, critRuns := setRun s.thm.critRuns k crit, tripRuns := setRun s.thm.tripRuns k trp
    slope := if s.thm.source = k then slopeUnits (leastSquares (slopePoints rs k s.now)) else s.thm.slope } }
  if trp = 2 then s1.trip k temp false
  else
    let s2 := if temp < lim.notice + 40 then s1 else if s1.thm.level = 0 then s1.enterNotice k temp stamp
      else (s1.wakeFired 0x40).getD s1
    if crit = 2 ∧ s2.thm.level < 3 ∧ s2.awake then s2.enterCritical k temp
    else if s2.thm.level = 3 ∧ s2.thm.source = k ∧ temp < lim.critical + 40 then s2.setLevel s2.calmLevel k temp
    else s2

/-! ### Sensors (R499, R500) -/

/-- Latest temperature of a sensor in a list of readings. -/
def sensorTemp (rs : List SensorReading) (i : Nat) : Option Nat := (rs.find? (fun r => decide (r.idx = i))).map (·.temp)

/-- Twice the median of eight numbers: the sum of the two in the middle. -/
def median2 (l : List Nat) : Nat :=
  let below := fun (x : Nat) => (l.filter (fun y => decide (y < x))).length
  let upTo := fun (x : Nat) => (l.filter (fun y => decide (y ≤ x))).length
  let at_ := fun (i : Nat) => (l.find? (fun x => decide (below x ≤ i) && decide (i < upTo x))).getD 0
  at_ 3 + at_ 4

/-- Takes a sensor out of service with event 0x0D04. -/
def excludeSensor (s : State) (i temp med : Nat) : State :=
  ({ s with thm := { s.thm with excluded := i :: s.thm.excluded } }).event 0x0D04 2 srcThermal 0
    [i, (temp : Int) - 40, (med : Int) - 40]

/-- Judges one sensor against its fuses and its neighbours (R500). -/
def judgeSensor (rs : List SensorReading) (s : State) (r : SensorReading) : State :=
  if s.thm.excluded.contains r.idx then s
  else
    let ns := (List.range 8).filterMap (fun k => sensorTemp rs (Config.neighbour r.idx k % 128))
    let m2 := median2 ns
    let far := decide (ns.length = 8) && (decide (2 * r.temp + 30 < m2) || decide (m2 + 30 < 2 * r.temp))
    let n := if far then look 0 s.thm.strayRuns r.idx + 1 else 0
    let s1 := { s with thm := { s.thm with strayRuns := put 0 s.thm.strayRuns r.idx n } }
    if !r.inRange ∨ 10 ≤ n then s1.excludeSensor r.idx r.temp (m2 / 2) else s1

/-- Highest reading of the sensors in service; the last temperature where there is none. -/
def hottest (s : State) (rs : List SensorReading) : Nat :=
  let ts := (rs.filter (fun r => !s.thm.excluded.contains r.idx)).map (·.temp)
  if ts.isEmpty then s.thm.dieTemp else ts.foldl max 0

/-- The periodic reading of the controller die. -/
def readDie (s : State) (stamp : Nat) (rs : List SensorReading) : State :=
  let s1 := rs.foldl (judgeSensor rs) (s.advanceTo stamp)
  let t := s1.hottest rs
  let s2 := s1.withThresholds (fun (u : State) => { u with thm := { u.thm with dieTemp := t } })
  let s3 := s2.judge 0 t t stamp
  if 64 < s3.thm.excluded.length ∧ s3.thm.level < 3 ∧ s3.awake then s3.enterCritical 2 t else s3

/-- The temperature of one flash die (R499). -/
def readFlash (s : State) (stamp die temp : Nat) : State :=
  let s1 := s.advanceTo stamp
  let ts := put 0 s1.thm.dieTemps die temp
  let hot := ts.foldl (fun (a : Nat × Nat) e => if a.2 < e.2 then e else a) (0, 0)
  let s2 := s1.withThresholds (fun (u : State) => { u with thm := { u.thm with
    dieTemps := ts, flashTemp := hot.2, flashDie := hot.1 } })
  let (c, t) := look (0, 0) s2.thm.dieRuns die
  let s3 := { s2 with thm := { s2.thm with critRuns := (s2.thm.critRuns.1, c), tripRuns := (s2.thm.tripRuns.1, t) } }
  let s4 := s3.judge 1 hot.2 temp stamp
  { s4 with thm := { s4.thm with dieRuns := put (0, 0) s4.thm.dieRuns die (s4.thm.critRuns.2, s4.thm.tripRuns.2) } }

/-! ### The grace window (R502, R503) -/

/-- The end of a grace window, half-open: the step rises, falls or stays; the next window follows without a gap. -/
def endWindow (s : State) (at_ : Nat) : State :=
  let stop := at_ + s.graceNs
  let k := if s.thm.source = 1 then 1 else 0
  let lim := s.limits k
  let mine := s.thm.readings.filter (fun r => decide (r.2.1 = k) && decide (at_ ≤ r.1) && decide (r.1 < stop))
  let s1 := s.advanceTo stop
  let next := { s1 with thm := { s1.thm with windowAt := some stop } }
  match mine with
  | [] => next
  | last :: _ =>
    if lim.notice + 40 ≤ last.2.2 then
      let u := next.setStep (min 4 (s.thm.step + 1))
      if u.thm.level = 1 then u.setLevel 2 u.thm.source last.2.2 else u
    else if mine.all (fun r => decide (r.2.2 + s.thm.hystC < lim.notice + 40)) && decide (s.thm.level < 3) then
      let n := max (s.thm.step - 1) (if s.thm.fanFloor then 1 else 0)
      let u := next.setStep n
      if n = 0 ∨ (s.thm.fanFloor ∧ s.thm.step ≤ 1) then
        let other := 1 - k
        let otherTemp := if other = 1 then s.thm.flashTemp else s.thm.dieTemp
        if (s.limits other).notice + 40 ≤ otherTemp then
          { u with thm := { u.thm with level := 1, source := other } }
        else
          let w := u.setLevel 0 u.thm.source last.2.2
          { w with thm := { w.thm with windowAt := none } }
      else u
    else next

end State

/-! ### Commands -/

/-- The sensors are read in Run, Idle, Sleep and Deep Sleep (R499). -/
def State.sensorsRead (s : State) : Bool :=
  match s.pwr.pstate with
  | .run | .idle | .entering _ _ | .asleep .sleep | .asleep .deep | .waking _ _ => true
  | .dark | .starting | .asleep .off | .flushing _ => false

/-- DIE_SENSOR_READING (R479, R499 to R508). -/
def execDieSensorReading (stamp : Nat) (readings : List SensorReading) (s : State) : Out :=
  arises s.sensorsRead "DIE_SENSOR_READING" ((s.startClock 6).readDie stamp readings)

/-- FLASH_TEMPERATURE_READ (R499, R501, R505, R507): read in Run and Idle only. -/
def execFlashTemperatureRead (stamp die temp : Nat) (s : State) : Out :=
  arises (s.awake && !(s.die die).lost) "FLASH_TEMPERATURE_READ" ((s.startClock 6).readFlash stamp die temp)

/-- BOARD_SENSOR_READING (R499, R508, R510). -/
def execBoardSensorReading (temps : List Nat) (s : State) : Out :=
  arises (s.sensorsRead && decide (temps.length = 6)) "BOARD_SENSOR_READING"
    ((s.startClock 6).withThresholds (fun (u : State) => { u with thm := { u.thm with board := temps } }))

/-- GRACE_WINDOW_END (R502 to R504). -/
def execGraceWindowEnd (s : State) : Out :=
  match s.thm.windowAt with
  | some w => .next (s.endWindow w)
  | none => cannot "GRACE_WINDOW_END"

end Sys2Proof.Machine
end

