-- ==== Sys2Proof/Machine/AdminData.lean ====
section
/-! DEFINITION. The data that Identify and Get Log Page return: the fields the manual gives a value, at the places the NVMe
specifications give them, PRESUMED; every other byte is open (R414, R419, R420, R422, R424, R508, R536; log 20, 21). -/

namespace Sys2Proof.Machine

/-- `n` bytes of a structure: those that `known` lists by offset, every other byte left open (log 20). -/
def structBytes (kind : Nat) (args : List Nat) (n : Nat) (known : List (Nat × List Byte)) : List Byte :=
  (List.range n).map (fun i =>
    (known.findSome? (fun e => if e.1 ≤ i then e.2[i - e.1]? else none)).getD (Config.standardByte kind args i))

/-- `GLB_CAP` (R6). -/
def glbCap (p : Part) : Nat :=
  let flag := fun (b : Bool) (i : Nat) => if b then 2 ^ i else 0
  flag p.codec 0 + flag (p.history && decide (p.variant = .z880)) 1 + flag p.fan 2 + flag p.coupler 3 + p.variant.code * 2 ^ 8 +
    p.variant.ranks * 2 ^ 16 + p.variant.groups * 2 ^ 32

/-- CNTLID of a controller (R414). -/
def cntlid (h : HostCmd) : Nat := if h.comp = 0 then h.port + 1 else 0x1000 + h.comp

/-- The first 16 bytes of a function's configuration header (R408), in the layout of the PCI specification, PRESUMED (log 188):
vendor, device, class code 0x01_0802 and the revision, that of the hardware. The vendor identifier and the command and status
words are open. -/
def pciHeader (p : Part) : List Byte :=
  structBytes 0x301 [] 16 [(2, leBytes 2 p.variant.deviceId), (8, leBytes 1 p.hwRev.toNat ++ leBytes 3 0x010802)]

/-- The subsystem vendor and subsystem identifiers: those of the vendor and the device (R408). -/
def pciSubsystem (p : Part) : List Byte := (pciHeader p).take 4

/-- One power state descriptor of R491: power in units of 10 mW, non-operational, latencies in µs, idle power in 10 mW where it
is reported. -/
structure PowerDesc where
  mp : Nat
  nops : Bool
  enlat : Nat
  exlat : Nat
  idlp : Option Nat
deriving DecidableEq, Repr

/-- PS0 to PS4 (R491). -/
def powerDescs : List PowerDesc :=
  [⟨22000, false, 0, 0, some 2800⟩, ⟨13000, false, 0, 0, some 2800⟩, ⟨7000, false, 0, 0, some 2800⟩,
   ⟨900, true, 600000, 2470, none⟩, ⟨250, true, 600000, 2470, none⟩]

/-- A descriptor in its 32 bytes, at the places of the NVMe specification, PRESUMED (log 188). -/
def PowerDesc.known (d : PowerDesc) (at_ : Nat) : List (Nat × List Byte) :=
  [(at_, leBytes 2 d.mp), (at_ + 3, leBytes 1 (if d.nops then 2 else 0) ++ leBytes 4 d.enlat ++ leBytes 4 d.exlat)] ++
  (match d.idlp with
    | some n => [(at_ + 16, leBytes 2 n ++ leBytes 1 0x80)]
    | none => [(at_ + 18, leBytes 1 0)])

/-- Characters as bytes. -/
def asciiBytes (t : List Nat) : List Byte := t.map (BitVec.ofNat 8)

/-- "nqn.2014-08.org.nvmexpress:uuid:" (R414); the UUID that follows it is open. -/
def nqnPrefix : List Byte := asciiBytes
  [0x6E, 0x71, 0x6E, 0x2E, 0x32, 0x30, 0x31, 0x34, 0x2D, 0x30, 0x38, 0x2E, 0x6F, 0x72, 0x67, 0x2E,
   0x6E, 0x76, 0x6D, 0x65, 0x78, 0x70, 0x72, 0x65, 0x73, 0x73, 0x3A, 0x75, 0x75, 0x69, 0x64, 0x3A]

namespace State

/-- A namespace is listed on a controller: the steward lists every one, a compartment its own (R357, R424). -/
def listed (s : State) (comp n : Nat) : Option NsEntry :=
  match s.space n with
  | some e => if !e.deleting ∧ (comp = 0 ∨ e.comp = comp) then some e else none
  | none => none

/-- NSIDs listed on a controller, ascending, that a command set serves: 0 the conventional namespace, 2 zoned ones. -/
def nsids (s : State) (comp : Nat) (csi : Option Nat) : List Nat :=
  (s.zns.spaces.map (·.1)).filter (fun n => match s.listed comp n with
    | some e => (match csi, e.kind with
      | none, _ => true
      | some c, .zoned _ => decide (c = 2)
      | some c, .conventional _ => decide (c = 0))
    | none => false)

/-- Identify Controller: the values of R414 and the vendor area of R420. -/
def identifyController (s : State) (h : HostCmd) : List Byte :=
  let flag := fun (b : Bool) (i : Nat) => if b then 2 ^ i else 0
  structBytes 0x01 [h.comp, h.port] 4096 ([
    (0, (pciHeader s.part).take 2 ++ (pciSubsystem s.part).take 2), (76, leBytes 1 (flag s.hif.dual 0 + 2)), (77, leBytes 1 12), (78, leBytes 2 (cntlid h)), (80, leBytes 4 0x20000),
    (258, leBytes 1 3), (259, leBytes 1 7), (263, leBytes 1 4), (266, leBytes 2 (s.thm.die.notice + 273)),
    (268, leBytes 2 (s.thm.die.critical + 273)), (256, leBytes 2 0), (260, leBytes 1 3),
    (265, leBytes 1 0), (512, leBytes 1 0x66), (513, leBytes 1 0x44), (520, leBytes 2 0xCD), (522, leBytes 2 0),
    (525, leBytes 1 0), (768, nqnPrefix),
    (3072, leBytes 8 (glbCap s.part) ++ leBytes 1 (flag s.hif.dual 0 + h.port % 2 * 2) ++ leBytes 1 s.pins.modIdStrap ++
      leBytes 1 s.sec.level.code ++ leBytes 1 s.pwr.mode.code ++ leBytes 1 (flag s.parked 0 + flag s.mounted 1) ++ leBytes 3 0 ++
      leBytes 2 h.comp ++ leBytes 1006 0)] ++ (powerDescs.mapIdx (fun i d => d.known (2048 + 32 * i))).flatten)

/-- Identify Namespace: size, format, sharing and the pair (R55, R422, R424, R536). -/
def identifySpace (s : State) (n : Nat) (e : NsEntry) : List Byte :=
  let pair : Option Pair := match e.kind with
    | .zoned p => (s.pairOf p).filter (fun x => x.formed)
    | .conventional _ => none
  structBytes 0x00 [n] 4096 [
    (0, leBytes 8 (s.spaceLbas e)), (25, leBytes 1 1), (26, leBytes 1 (if e.lba16 then 1 else 0) ++ leBytes 1 2), (30, leBytes 1 1),
    (128, leBytes 4 (16 + 12 * 65536)), (132, leBytes 4 (16 + 14 * 65536)),
    (3840, match pair with
      | some p => leBytes 1 p.role.code ++ leBytes 1 p.peer ++ leBytes 2 0 ++ leBytes 4 p.peerNsid ++ leBytes 8 p.changed
      | none => leBytes 16 0)]

/-- The zoned command set's Identify Namespace (R56): variable zone capacity, no reads across zones, MAR and MOR 0's based, no
zone descriptor extension. PRESUMED (log 169): the places of the fields. -/
def identifyZoned (s : State) (n : Nat) (e : NsEntry) : List Byte :=
  let most := min (s.comp e.comp).res.activeQuota 24576 - 1
  let size := fun (lbas : Nat) => leBytes 8 lbas ++ leBytes 1 0
  structBytes 0x05 [n, 2] 4096 [(0, leBytes 2 1), (2, leBytes 2 0), (4, leBytes 4 most), (8, leBytes 4 most),
    (2816, size 524288), (2832, size 131072)]

/-- The NVM command set's Identify Namespace (R422): both formats carry the 64-bit guard and a storage tag of size 0. PRESUMED
(log 188): the places of the fields. -/
def identifyNvm (n csi : Nat) : List Byte :=
  structBytes 0x05 [n, csi] 4096 (if csi = 0 then [(12, leBytes 4 0x100), (16, leBytes 4 0x100)] else [])

/-- What Identify returns, or the status that refuses it (R420). -/
def identifyData (s : State) (h : HostCmd) (cns csi cntid : Nat) : Except Status (List Byte) :=
  let set := csi = 0 ∨ csi = 2
  let ofSpace := fun (f : NsEntry → List Byte) => match s.listed h.comp h.nsid with
    | some e => .ok (f e)
    | none => if 1 ≤ h.nsid ∧ h.nsid ≤ 129 then .ok (leBytes 4096 0) else .error Status.invalidNamespace
  let listOf := fun (l : List Nat) =>
    let ns := (l.filter (fun n => decide (h.nsid < n))).take 1024
    ns.flatMap (fun n => leBytes 4 n) ++ leBytes (4096 - 4 * ns.length) 0
  match cns with
  | 0x00 => ofSpace (s.identifySpace h.nsid)
  | 0x01 => .ok (s.identifyController h)
  | 0x02 => .ok (listOf (s.nsids h.comp none))
  | 0x03 => ofSpace (fun _ => structBytes 0x03 [h.nsid] 4096 [])
  | 0x05 => if set then ofSpace (fun e => if csi = 2 then s.identifyZoned h.nsid e else identifyNvm h.nsid csi) else .error .invalidField
  | 0x06 => if set then .ok (structBytes 0x06 [h.comp, h.port, csi] 4096 (if csi = 2 then [(0, leBytes 1 12)] else [])) else .error .invalidField
  | 0x07 => if set then .ok (listOf (s.nsids h.comp (some csi))) else .error .invalidField
  | 0x08 => ofSpace (fun _ => structBytes 0x08 [h.nsid] 4096 [(4, leBytes 1 1)])
  | 0x1C => .ok (structBytes 0x1C [cntid] 4096 [])
  | _ => .error .invalidField

/-! ### Logs (R419) -/

/-- Opcodes of the admin and I/O commands that the module serves (R417, R421). -/
def servedAdmin : List Nat := [0x00, 0x01, 0x02, 0x04, 0x05, 0x06, 0x08, 0x09, 0x0A, 0x0C, 0x84, 0xC0, 0xC1, 0xC4, 0xC5, 0xC6, 0xC8, 0xCA]
def servedIo : List Nat := [0x00, 0x01, 0x02, 0x05, 0x08, 0x09, 0x0C, 0x79, 0x7A, 0x7D, 0x81, 0x82, 0x84, 0x85]

/-- Bytes read and written that a controller's SMART log counts: the module's for the steward, a compartment's own. -/
def smartUnits (s : State) (comp : Nat) : Nat × Nat :=
  if comp = 0 then (s.hif.smart.1, s.hif.smart.2.1) else look (0, 0) s.hif.compSmart comp

/-- SMART / Health (R77, R172, R357, R419, R508): a compartment's log has the module's warnings and its own data units. -/
def smartLog (s : State) (comp : Nat) : List Byte :=
  let t := fun (i : Nat) => leBytes 2 ((s.hostTemps[i]?).getD 0)
  let units := fun (n : Nat) => leBytes 16 ((n + 511999) / 512000)
  structBytes 0x102 [comp] 512 ([
    (0, leBytes 1 s.criticalWarning ++ t 0 ++ leBytes 1 s.sparePct ++ leBytes 1 10 ++ leBytes 1 s.percentUsed), (200, t 1 ++ t 2 ++ t 3),
    (32, units (s.smartUnits comp).1), (48, units (s.smartUnits comp).2)])

/-- One entry of the Error Information log. -/
def errorEntry (e : ErrRec) : List Byte :=
  match e with
  | .command c => structBytes 0x101 [c.cmd.qid, c.cmd.cid, c.status.code, c.cmd.nsid] 64 []
  | .program d b p st => structBytes 0x101 [d, b, p, st] 64 []

/-- The entries of a controller's Error Information log, newest first. -/
def errorLog (s : State) (h : HostCmd) : List ErrRec :=
  if h.comp = 0 then (s.port h.port).errors else look [] s.hif.compErrors h.comp

/-- The Commands Supported and Effects log (R419): the CSUPP bit of every command of R417 and R421, and zeroes for every other
opcode; which effects a command reports is open. The layout is that of the NVMe specification, PRESUMED (log 188). -/
def effectsLog : List Byte :=
  structBytes 0x105 [] 4096 (((List.range 256).flatMap (fun op =>
    let entry := fun (at_ : Nat) (served : Bool) => (at_ + 4 * op,
      if served then [Config.standardByte 0x105 [] (at_ + 4 * op) ||| 1] else leBytes 4 0)
    [entry 0 (servedAdmin.contains op), entry 1024 (servedIo.contains op)])) ++ [(2048, leBytes 2048 0)])

/-- Zones of a namespace in a controller's Changed Zone List. -/
def changedIn (s : State) (h : HostCmd) : List Nat :=
  (s.hif.changedZones.filter (fun e => decide (e.1 = ctlOf h) && decide (s.zoneNsid e.2 = some h.nsid))).map (·.2)

/-- A log: its bytes and the state once it has been read, or the status that refuses it. -/
def logData (s : State) (h : HostCmd) (lid : Nat) : Except Status (List Byte × State) :=
  if h.comp ≠ 0 ∧ lid ≠ 0x01 ∧ lid ≠ 0x02 ∧ lid ≠ 0xBF then .error .invalidLogPage
  else match lid with
    | 0x01 =>
      let es := (s.errorLog h).map errorEntry
      .ok (es.flatten ++ leBytes (64 * (64 - es.length)) 0, s)
    | 0x02 => if h.nsid = 0xFFFFFFFF then .ok (s.smartLog h.comp, s) else .error .invalidField
    | 0x03 => .ok (structBytes 0x103 [s.part.hwRev.toNat] 512 [(0, leBytes 8 1)], s)
    | 0x04 =>
      let ns := ((s.hif.changedNs.filter (fun e => decide (e.1 = ctlOf h))).map (·.2)).mergeSort.take 1024
      .ok (ns.flatMap (fun n => leBytes 4 n) ++ leBytes (4096 - 4 * ns.length) 0,
        { s with hif := { s.hif with changedNs := s.hif.changedNs.filter (fun e => decide (e.1 ≠ ctlOf h)) } })
    | 0x05 => .ok (effectsLog, s)
    | 0xBF => match s.listed h.comp h.nsid with
      | none => .error .invalidField
      | some e =>
        let zs := (s.changedIn h).take 511
        let left := s.hif.changedZones.filter (fun x => decide (x.1 ≠ ctlOf h) || !zs.contains x.2)
        .ok (leBytes 8 zs.length ++ zs.flatMap (fun z => leBytes 8 (s.zoneSlba e z)) ++ leBytes (8 * (511 - zs.length)) 0,
          { s with hif := { s.hif with changedZones := left } })
    | _ => .error .invalidLogPage

end State

end Sys2Proof.Machine
end

