-- ==== Sys2Proof/Machine/AdminOps.lean ====
section
/-! DEFINITION. The checks that every admin command passes before its fields are looked at (R15, R357, R364, R417, R421,
R427, R561). -/

namespace Sys2Proof.Machine

namespace State

/-- What an admin command's row of R417 and R357 says of it. -/
structure AdminRow where
  /-- Served in the Parked state. -/
  parked : Bool
  /-- Served while a sanitize runs. -/
  sanitize : Bool
  /-- Served from a compartment's admin queue. -/
  compartment : Bool
  /-- Refused with 0x83 in a frozen compartment. -/
  changes : Bool
deriving DecidableEq, Repr

/-- The first check that refuses an admin command. -/
def adminGate (s : State) (h : HostCmd) (r : AdminRow) : Option Status :=
  if h.comp ≠ 0 ∧ !r.compartment then some .invalidOpcode
  else if s.sec.sanActive ∧ !r.sanitize then some .sanitizeInProgress
  else if s.parked ∧ !r.parked then some .sequenceError
  else if h.fused || h.rsvd then some .invalidField
  else if r.changes && s.frozen h.comp then some (.vendor 0x83)
  else Option.none

/-- Runs an admin command that its row lets through, else completes it with the refusal. -/
def gated (s : State) (h : HostCmd) (r : AdminRow) (f : State → State) : State :=
  match s.adminGate h r with
  | some (.vendor c) => (s.countRefused h.comp).fail h (.vendor c)
  | some st => s.fail h st
  | Option.none => f s

end State

/-- An admin command, where it can be fetched: gated by its row. -/
def admin (name : String) (h : HostCmd) (r : State.AdminRow) (s : State) (f : State → State) : Out :=
  onAdmin name h s (fun t => t.gated h r f)

end Sys2Proof.Machine
end

