-- ==== Sys2Proof/Machine/CompartOps.lean ====
section
/-! DEFINITION. Compartments: their counts, the squash, the end of a reset and of a freeze (R354, R360 to R364). -/

namespace Sys2Proof.Machine

namespace State

/-! ### Counts (R354) -/

/-- A die operation counts among the programs and erases issued for commands and reels. -/
def countsFlash (p : Purpose) : Bool :=
  match p with
  | .zoneRow _ _ _ | .landing _ _ | .segment _ _ _ _ | .reel _ _ => true
  | _ => false

/-- Programs and erases issued to dies for a compartment's commands and reels. -/
def compFlash (s : State) (n : Nat) : Nat :=
  (s.fls.dies.filter (fun e => match e.2.op with
    | some o => isProgErase o.entry.kind && decide (o.entry.comp = n) && countsFlash o.entry.purpose
    | none => false)).length

/-- Host DMA transfers issued for a compartment's commands and not confirmed. -/
def compDma (s : State) (n : Nat) : Nat :=
  sumBy (fun (v : Flight) => if v.cmd.comp = n then (v.segs.filter (fun g => decide (g.step = .granted))).length else 0)
    s.car.flights

/-! ### The squash (R361, R362, R412, R413) -/

/-- No command that `f` names completes any more: squashed commands lose their completions, and an admin command that
already executes goes on without one. -/
def mute (s : State) (f : HostCmd → Bool) : State :=
  let keep := fun (h : Option HostCmd) => match h with
    | some x => if f x then none else some x
    | none => none
  let kind := fun (k : ResetKind) => match k with
    | .control h => .control (keep h)
    | .delete h => .delete (keep h)
    | x => x
  let comp := fun (v : Comp) => { v with
    waiting := keep v.waiting
    reset := v.reset.map (fun r => { r with kinds := r.kinds.map kind })
    control := v.control.filter (fun x => !f x.cmd) }
  let port := fun (p : Port) => { p with aers := p.aers.filter (fun h => !f h) }
  { s with
    pwr := { s.pwr with modeCommands := s.pwr.modeCommands.filter (fun h => !f h)
                        entry := s.pwr.entry.map (fun e => { e with command := keep e.command }) }
    kry := { s.kry with
      ctxs := s.kry.ctxs.map (fun e => (e.1, e.2.map (fun k => { k with halts := k.halts.filter (fun h => !f h) })))
      writes := s.kry.writes.map (fun w => { w with cmd := keep w.cmd }) }
    cmp := { s.cmp with table := s.cmp.table.map (fun e => (e.1, comp e.2)) }
    hif := { s.hif with port0 := port s.hif.port0, port1 := port s.hif.port1
                        compAers := s.hif.compAers.filter (fun e => !f e.2) } }

/-- A codec job belongs to a host command that `f` names. -/
def jobOf (s : State) (f : HostCmd → Bool) (j : CodecJob) : Bool :=
  match j.work with
  | .append cmd _ _ _ _ _ _ _ _ => f cmd
  | .read id _ _ => match s.flight id with
    | some v => f v.cmd
    | none => false
  | .save cmd => f cmd
  | .restore cmd _ => f cmd
  | .reel _ _ => false

/-- Codec jobs that `f` names are squashed; nothing is appended. -/
def squashJobs (f : HostCmd → Bool) : Nat → State → State
  | 0, s => s
  | n + 1, s => match s.fcd.jobs.findIdx? (fun j => s.jobOf f j) with
    | some i => squashJobs f n (s.dropJob i)
    | none => s

/-- One squashed command: reads are dropped; a write with a segment short of its acknowledgement does not take effect;
zone management runs on (R361, R362). -/
def squashFlight (s : State) (v : Flight) : State :=
  if isRead v.kind then s.killFlight v .abortRequested
  else if isWrite v.kind then
    if v.segs.all segDone then s
    else
      let t := (s.failWrite v 0 v.start .abortRequested).settleWrites v.zone
      match v.zone with
      | some z => t.settleZones z
      | none => t
  else s

/-- The squash instant of the commands that `f` names. -/
def squash (s : State) (f : HostCmd → Bool) : State :=
  let hit := fun (v : Flight) => f v.cmd && v.ticket.isNone && v.peer.isNone
  let ids := (s.car.flights.filter hit).map (·.id)
  let s1 := { s with car := { s.car with flights := s.car.flights.map (fun v => if hit v then { v with squashed := true } else v) } }
  let s2 := squashJobs f s1.fcd.jobs.length s1
  let s3 := ids.foldl (fun t i => match t.flight i with
    | some v => t.squashFlight v
    | none => t) s2
  (s3.mute f).settleCodec

/-! ### Reset (R360 to R363) -/

/-- The squash instant of a compartment. -/
def squashComp (s : State) (n : Nat) : State :=
  let s1 := s.squash (fun h => decide (h.comp = n))
  let v := s1.comp n
  s1.setComp n { v with reset := v.reset.map (fun r => { r with squashed := true }) }

/-- Every count of R354 is 0. -/
def compQuiet (s : State) (n : Nat) : Bool :=
  decide (s.compCmds n = 0) && decide (s.compJobs n = 0) && decide (s.compFlash n = 0) && decide (s.compDma n = 0) &&
    (s.compReels n).isEmpty

/-- Zones of a compartment. -/
def compZones (s : State) (n : Nat) : List Nat := (s.zns.zones.map (·.1)).filter (fun z => decide (s.zoneComp z = n))

/-- What follows a completed reset for one of those that asked for it. -/
def afterReset (s : State) (n : Nat) (k : ResetKind) : State :=
  match k with
  | .host => s
  | .sanitize => s
  | .control h => match h with
    | some x => s.done x 0
    | none => s
  | .delete h =>
    let s1 := if (s.comp n).state = .free then s else s.freeComp n
    match h with
    | some x => s1.done x 0
    | none => s1

/-- The reset is complete (R361, R363): carriages uncoupled, buffers freed, queues and ring gone, open zones closed. -/
def endReset (s : State) (n : Nat) : State :=
  match (s.comp n).reset with
  | none => s
  | some r =>
    let s1 := (s.compCarriages n).foldl uncoupleNow s
    let s2 := ((s1.compZones n).foldl stopZone (s1.freeCompBufs n)).settleDeletes
    let s3 := { s2 with hif := { s2.hif with
      queues := s2.hif.queues.filter (fun q => decide (q.ctl ≠ 1 + n))
      compRings := put none s2.hif.compRings n none
      compAers := s2.hif.compAers.filter (fun e => decide (e.1 ≠ n)) } }
    let v := s3.comp n
    let s4 := s3.setComp n { v with reset := none, fetchStopped := false, resets := v.resets + 1 }
    let s5 := (s4.compState n (if v.wasFrozen then .frozen else .active)).event 0x0901 1 srcHost n
      [(v.resets + 1).toNat, (s.now - r.at_) / 1000]
    let s6 := match v.wasFrozen, v.waiting with
      | true, some h => (s5.setComp n { s5.comp n with waiting := none }).done h 0
      | _, _ => s5
    ((r.kinds.foldl (fun t k => t.afterReset n k) s6).settleControl n).journal.stopCheck

/-! ### Freeze (R364) -/

/-- A kind of command that changes state. -/
def changesState (k : FlightKind) : Bool :=
  match k with
  | .read | .verify | .compare => false
  | _ => true

/-- The state-changing commands admitted before a Freeze have completed. -/
def freezeQuiet (s : State) (n : Nat) : Bool :=
  s.car.flights.all (fun v => decide (v.cmd.comp ≠ n) || !changesState v.kind) && decide (s.compJobs n = 0) &&
    decide (s.compFlash n = 0)

end State

end Sys2Proof.Machine
end

