-- ==== Sys2Proof/Machine/Compart.lean ====
section
/-! DEFINITION. Controllers, ports and compartments: enabling and losing them, the squash, the end of a reset, a freeze or a
drain, Compartment Control, and event rings (R341 to R373, R411 to R413, R427, R428, R433). -/

namespace Sys2Proof.Machine

namespace State

/-- The host reaches the registers behind a port: the link is up, and the logic runs or the reset sequence has reached
step 4. -/
def reachable (s : State) (p : Nat) : Bool :=
  decide (p < 2) && (s.port p).present && (s.port p).linkUp && (s.awake || decide (s.pwr.pstate = .starting))

/-- The window of a compartment answers on a port (R343, R350). -/
def windowOpen (s : State) (p n : Nat) : Bool :=
  let v := s.comp n
  decide (1 ≤ n) && decide (n < 1024) && !s.parked && decide (v.port = p) && decide (v.state ≠ .free) &&
    decide (v.state ≠ .saved)

/-! ### Losing a port (R412, R413, R433) -/

/-- `CC.EN` of a steward controller goes to 0: its squash instant comes 2 µs later. -/
def disablePort (s : State) (p : Nat) : State :=
  s.setPort p { s.port p with en := false, rdy := false, squashing := true }

/-- Commands of a port in progress. -/
def portCmds (s : State) (p : Nat) : Nat :=
  (s.car.flights.filter (fun v => decide (v.cmd.port = p) && v.ticket.isNone && v.peer.isNone && !v.squashed)).length

/-- The link of a port after a loss: an FLR leaves it up, a DL_Down trains again, PERST holds it in reset. -/
def linkLost (v : Port) (cause : LossCause) : Port :=
  match cause with
  | .flr => v
  | .perst => { v with perst := true, linkUp := false, training := false, rate := 0, width := 0, degraded := false, l12 := false }
  | .dlDown => { v with linkUp := false, training := true, rate := 0, width := 0, degraded := false, l12 := false }

/-- A port is lost: its steward controller and its compartments are reset, the ring it carried closes, its MSI-X table is
masked again (log 39), and event 0x0101 is posted. -/
def losePort (s : State) (p : Nat) (cause : LossCause) : State :=
  let code : Int := match cause with
    | .perst => 0 | .flr => 1 | .dlDown => 2
  let n := s.portCmds p
  let v := s.port p
  let s1 := s.setPort p { linkLost v cause with losses := v.losses + 1 }
  let hif : HostLink := { s1.hif with
    ring := s1.hif.ring.filter (fun (r : Ring) => decide (r.port ≠ p))
    msix := clearRange s1.hif.msix (p * 32768) 32768
    msixPending := s1.hif.msixPending.filter (fun i => decide (i / 8192 ≠ p)) }
  let s2 := { s1 with hif := hif }
  let mine := (s2.cmp.table.filter (fun e => decide (e.1 ≠ 0) && decide (e.2.port = p))).map (·.1)
  (mine.foldl (fun (t : State) c => t.beginReset c .host) (s2.disablePort p)).event 0x0101 3 srcHost 0 [p, code, n]

/-! ### Enabling (R346, R350, R360, R413) -/

/-- `CC.EN` of a steward controller (R413). -/
def controllerEn (s : State) (p : Nat) (en : Bool) : State :=
  let v := s.port p
  if en && !v.en then s.setPort p { v with en := true, rdy := decide (s.boot.step = 9) && !v.squashing }
  else if !en && v.en then s.disablePort p
  else s

/-- `CMPW_CC` (R346, R350, R360): setting `en` enables an Active compartment's admin queue, clearing it resets the
compartment. -/
def compartmentEn (s : State) (p n : Nat) (en : Bool) : State :=
  let v := s.comp n
  let q : Queue := { ctl := 1 + n, qid := 0, sq := true, size := v.aqa.toNat % 4096 + 1, head := 0, tail := 0
                     pasid := some v.apasid, cq := 0, vector := 0, ien := false, base := v.asq.toNat, phase := true }
  let c : Queue := { q with sq := false, size := v.aqa.toNat / 65536 % 4096 + 1, ien := true, base := v.acq.toNat }
  if en then
    if v.en || decide (v.state ≠ .active) then s
    else if s.pasidMapped p v.apasid n then
      let t := s.setComp n { v with en := true, rdy := true, cfs := false }
      { t with hif := { t.hif with queues := t.hif.queues ++ [q, c] } }
    else s.setComp n { v with en := true, rdy := false, cfs := true }
  else if v.en then s.beginReset n .host
  else s

/-! ### Event rings (R373, R427, R428, R433) -/

/-- A ring of that size at that base may be set up. -/
def ringOk (h : HostCmd) (r : RingArgs) (s : State) : Bool :=
  decide (16 ≤ r.records) && decide (r.records ≤ if h.comp = 0 then 65536 else 4096) &&
    decide (2 ^ Nat.log2 r.records = r.records) && decide (r.base % 4096 = 0) &&
    (if h.comp = 0 then decide (r.vector < 8) else decide (r.vector = 0)) &&
    (match r.pasid with
      | some p => s.pasidMapped h.port p h.comp
      | none => decide (h.comp = 0))

/-- The ring that a setup opens. -/
def openRing (h : HostCmd) (r : RingArgs) : Ring :=
  { size := r.records, head := 0, tail := 0, base := r.base, pasid := r.pasid, port := h.port, vector := r.vector, slots := [] }

/-- Replaces the event ring of the controller a command came through. -/
def setRing (s : State) (h : HostCmd) (r : Option Ring) : State :=
  if h.comp = 0 then { s with hif := { s.hif with ring := r } }
  else { s with hif := { s.hif with compRings := put none s.hif.compRings h.comp r } }

end State

/-! ### Ports and controllers -/

/-- PORT_LINK_UP (R411, R434, R436): the port has trained. -/
def execPortLinkUp (port rate width : Nat) (s : State) : Out :=
  let v := s.port port
  let full := if s.hif.dual then 8 else 16
  let slow := decide (rate < 6) || decide (width < full)
  let s1 := (s.setPort port { v with linkUp := true, training := false, rate := rate, width := width, degraded := slow }).event
    0x0100 0 srcHost 0 [port, rate, width]
  arises (decide (port < 2) && v.present && v.training && !v.linkUp && decide (1 ≤ rate) && decide (rate ≤ 6) &&
      decide (1 ≤ width) && decide (width ≤ full)) "PORT_LINK_UP"
    (if slow then s1.event 0x0102 2 srcHost 0 [port, rate, width] else s1)

/-- PORT_LOST (R412): PERST is asserted, the function receives an FLR, or the data link layer reports DL_Down. -/
def execPortLost (port : Nat) (cause : LossCause) (s : State) : Out :=
  let v := s.port port
  let down := match cause with
    | .perst => !v.perst
    | _ => v.linkUp
  arises (decide (port < 2) && v.present && down) "PORT_LOST" (s.losePort port cause)

/-- CONTROLLER_ENABLE (R413): `CC.EN` goes to 1; `CSTS.RDY` follows once the module is Parked and no squash is left. -/
def execControllerEnable (port : Nat) (s : State) : Out :=
  arises (s.reachable port) "CONTROLLER_ENABLE" (s.controllerEn port true)

/-- CONTROLLER_DISABLE (R413): `CC.EN` goes to 0. -/
def execControllerDisable (port : Nat) (s : State) : Out :=
  arises (s.reachable port) "CONTROLLER_DISABLE" (s.controllerEn port false)

/-- COMPARTMENT_EN_SET (R346, R350, R363): the host sets `en` in an Active compartment's window; an unmapped admin PASID
sets `cfs`. -/
def execCompartmentEnSet (port comp : Nat) (s : State) : Out :=
  arises (s.reachable port) "COMPARTMENT_EN_SET" (if s.windowOpen port comp then s.compartmentEn port comp true else s)

/-- COMPARTMENT_EN_CLEAR (R360): the host clears `en`, which resets the compartment. -/
def execCompartmentEnClear (port comp : Nat) (s : State) : Out :=
  arises (s.reachable port) "COMPARTMENT_EN_CLEAR"
    (if s.windowOpen port comp then s.compartmentEn port comp false else s)

/-! ### Squash, reset and freeze -/

/-- SQUASH_INSTANT (R361, R362, R412, R413): 2 µs after a compartment's reset or a controller's loss. -/
def execSquashInstant (who : SquashTarget) (s : State) : Out :=
  match who with
  | .compartment n => match (s.comp n).reset with
    | some r => arises (!r.squashed) "SQUASH_INSTANT" ((s.advanceTo (r.at_ + 2000)).squashComp n)
    | none => cannot "SQUASH_INSTANT"
  | .controller p =>
    let s1 := s.squash (fun h => decide (h.port = p) && decide (h.comp = 0))
    let s2 := { s1 with hif := { s1.hif with queues := s1.hif.queues.filter (fun q => decide (q.ctl ≠ p)) } }
    let v := s2.port p
    arises (decide (p < 2) && (s.port p).squashing) "SQUASH_INSTANT"
      (s2.setPort p { v with squashing := false, rdy := v.en && decide (s.boot.step = 9) }).stopCheck

/-- COMPARTMENT_RESET_COMPLETE (R361, R363): every count of R354 is 0. -/
def execCompartmentResetComplete (comp : Nat) (s : State) : Out :=
  match (s.comp comp).reset with
  | some r => arises (r.squashed && s.compQuiet comp) "COMPARTMENT_RESET_COMPLETE" (s.endReset comp)
  | none => cannot "COMPARTMENT_RESET_COMPLETE"

/-- COMPARTMENT_FREEZE_COMPLETE (R364): what was admitted before the Freeze and changes state has completed. -/
def execCompartmentFreezeComplete (comp : Nat) (s : State) : Out :=
  let v := s.comp comp
  let s1 := (s.setComp comp { v with waiting := none }).compState comp .frozen
  let s2 := match v.waiting with
    | some h => s1.done h 0
    | none => s1
  arises (decide (v.state = .freezing) && s.freezeQuiet comp) "COMPARTMENT_FREEZE_COMPLETE" (s2.settleControl comp).journal

/-- CARRIAGE_DRAIN_COMPLETE (R40, R111, R112, R297): the last command of a draining carriage has completed. -/
def execCarriageDrainComplete (idx : Nat) (s : State) : Out :=
  let v := s.carriage idx
  arises (v.draining && decide (v.outstanding = 0)) "CARRIAGE_DRAIN_COMPLETE" ((s.uncoupleNow idx).settleDeletes).stopCheck

/-! ### Compartment Control (R348, R427) -/

/-- The row of Compartment Control: steward only, after UNPARK. -/
def controlRow : State.AdminRow := { parked := false, sanitize := false, compartment := false, changes := false }

/-- A Compartment Control command whose fields `ok` accepts takes its turn among those of its compartment. -/
def compartmentControl (name : String) (h : HostCmd) (comp : Nat) (ok : Bool) (op : CtlOp) (s : State) : Out :=
  admin name h controlRow s (fun t =>
    if ok then t.control comp { cmd := h, op := op } else t.fail h .invalidField)

/-- A compartment number that the operations on compartments other than the steward take. -/
def isTenant (comp : Nat) : Bool := decide (1 ≤ comp) && decide (comp < 1024)

/-- The port exists: port 1 only in the dual configuration. -/
def portOk (s : State) (port : Nat) : Bool := decide (port = 0) || (decide (port = 1) && s.hif.dual)

/-- COMPARTMENT_CREATE (R348, R349). -/
def execCompartmentCreate (h : HostCmd) (comp port : Nat) (s : State) : Out :=
  compartmentControl "COMPARTMENT_CREATE" h comp (isTenant comp && portOk s port) (.create port) s

/-- COMPARTMENT_DELETE (R348, R372). -/
def execCompartmentDelete (h : HostCmd) (comp : Nat) (s : State) : Out :=
  compartmentControl "COMPARTMENT_DELETE" h comp (isTenant comp) .delete s

/-- MAP_PASID (R344, R347, R348). -/
def execMapPasid (h : HostCmd) (comp pasid port : Nat) (s : State) : Out :=
  compartmentControl "MAP_PASID" h comp (decide (comp < 1024) && decide (pasid < 2 ^ 20) && portOk s port)
    (.mapPasid pasid port) s

/-- UNMAP_PASID (R347, R348). -/
def execUnmapPasid (h : HostCmd) (comp pasid port : Nat) (s : State) : Out :=
  compartmentControl "UNMAP_PASID" h comp (decide (comp < 1024) && decide (pasid < 2 ^ 20) && portOk s port)
    (.unmapPasid pasid port) s

/-- COMPARTMENT_RESET (R348, R360). -/
def execCompartmentReset (h : HostCmd) (comp : Nat) (s : State) : Out :=
  compartmentControl "COMPARTMENT_RESET" h comp (isTenant comp) .reset s

/-- COMPARTMENT_FREEZE (R348, R364). -/
def execCompartmentFreeze (h : HostCmd) (comp : Nat) (s : State) : Out :=
  compartmentControl "COMPARTMENT_FREEZE" h comp (isTenant comp) .freeze s

/-- COMPARTMENT_THAW (R348, R364). -/
def execCompartmentThaw (h : HostCmd) (comp : Nat) (s : State) : Out :=
  compartmentControl "COMPARTMENT_THAW" h comp (isTenant comp) .thaw s

/-- COMPARTMENT_SAVE (R348, R365 to R367). -/
def execCompartmentSave (h : HostCmd) (comp bytes : Nat) (s : State) : Out :=
  compartmentControl "COMPARTMENT_SAVE" h comp (isTenant comp) (.save bytes) s

/-- COMPARTMENT_RESTORE (R348, R368, R369): the compartment is the one that the parameter block names. -/
def execCompartmentRestore (h : HostCmd) (params record : List Byte) (s : State) : Out :=
  let n := leNat ((params.drop 12).take 2)
  compartmentControl "COMPARTMENT_RESTORE" h n (isTenant n) (.restore params record) s

/-! ### Event rings -/

/-- The row of Event Ring Setup. -/
def ringRow : State.AdminRow := { parked := false, sanitize := false, compartment := true, changes := true }

/-- EVENT_RING_SETUP (R373, R427, R428, R433): opens a ring, or replaces the open one. -/
def execEventRingSetup (h : HostCmd) (r : RingArgs) (s : State) : Out :=
  admin "EVENT_RING_SETUP" h ringRow s (fun t =>
    if State.ringOk h r t then (t.setRing h (some (State.openRing h r))).done h 0 else t.fail h .invalidField)

/-- EVENT_RING_CLOSE (R427, R428). -/
def execEventRingClose (h : HostCmd) (s : State) : Out :=
  admin "EVENT_RING_CLOSE" h ringRow s (fun t => (t.setRing h none).done h 0)

end Sys2Proof.Machine
end

