-- ==== Sys2Proof/Machine/TimeBase.lean ====
section
/-! DEFINITION. The time base: steps, PPS, hold-over, PTM, saturation and the `PPS_OUT` pulse (R133, R455, R456, R492 to
R497). -/

namespace Sys2Proof.Machine

namespace State

/-- `TIM_NOW` reaches its maximum and stays there (R492). -/
def saturate (s : State) : State :=
  if s.tim.saturated then s
  else ({ s with tim := { s.tim with now := maxNow, saturated := true } }).event 0x0C0B 4 srcTime 0 []

/-- `PPS_OUT` rises at a whole second, and its 10 ms begin (R456). -/
def pulse (s : State) : State := { s with pins := { s.pins with ppsOut := true, ppsCounting := true } }

/-- A step of the count to `t`: the count of steps, event 0x0C09, the pulse of a forward step across a whole second, and
the window that the new time lies in (R133, R456, R492 to R494). -/
def stepTime (s : State) (t : Nat) : State :=
  if s.tim.saturated || decide (t = s.now) then s
  else if maxNow ≤ t then s.saturate
  else
    let old := s.now
    let s1 := ({ s with tim := { s.tim with now := t, steps := s.tim.steps + 1, slew := 0, slewPhase := 0 } }).event
      0x0C09 1 srcTime 0 [(t : Int) - old, s.tim.source]
    let s2 := if s1.pins.ppsOutEn && decide (old / 1000000000 < t / 1000000000) then s1.pulse else s1
    if s2.awake && decide (s2.lvl.windowStart + 1000000 ≤ t) then s2.windowEdge else s2

/-- Sets the whole seconds of the count (R493). -/
def setSeconds (s : State) (sec : Nat) : State :=
  let t := s.stepTime (sec * 1000000000 + s.now % 1000000000)
  { t with tim := { t.tim with secSuspect := false, timeSet := true } }

/-- Set Features Timestamp in ms: the whole count where the time base runs free, else the whole seconds (R493). -/
def setStamp (s : State) (ms : Nat) : State :=
  if s.tim.source = 0 then
    let t := s.stepTime (ms * 1000000)
    { t with tim := { t.tim with secSuspect := false, timeSet := true } }
  else s.setSeconds (ms / 1000)

/-- err of a stamp (R494): its signed distance from the nearest whole second; half a second counts back from the next
one. -/
def ppsErr (stamp : Nat) : Int := (stamp : Int) - 1000000000 * (((stamp + 500000000) / 1000000000 : Nat) : Int)

/-- The frequency correction learned from the interval between edges: a free value within ±50 ppm (log 23). -/
def learnFreq (s : State) : State :=
  { s with tim := { s.tim with freqPpb := (Config.freeNat s.free % 100001 : Nat) - (50000 : Int) }, free := s.free + 1 }

/-- What an accepted edge with `pps_en` set does, once a held edge has been dealt with (R494). -/
def judgeEdge (s : State) (stamp : Nat) (err : Int) : State :=
  if err.natAbs ≤ 1000 then
    let n := min 3 (s.tim.goodEdges + 1)
    { s with tim := { s.tim with slew := err, slewPhase := 0, goodEdges := n, locked := s.tim.locked || decide (n = 3)
                                 disciplinedAt := s.now } }
  else if err.natAbs ≤ 100000 ∨ !s.tim.locked then
    let t := s.stepTime ((s.now : Int) - err).toNat
    { t with tim := { t.tim with goodEdges := 0, disciplinedAt := t.tim.now } }
  else { s with tim := { s.tim with goodEdges := 0, heldEdge := some (stamp, err) } }

/-- An accepted edge under `pps_en`: it confirms or discards a held edge, or is judged by itself (R494, R495). -/
def edge (s : State) (stamp : Nat) : State :=
  let err := ppsErr stamp
  let s0 := if s.tim.ppsLast = 0 then s else s.learnFreq
  let s1 := { s0 with tim := { s0.tim with source := 1, holdover := false, ppsAlive := true, ppsLast := stamp
                                           lastErr := err, ptmOffset := none, heldEdge := none } }
  match s.tim.heldEdge with
  | some (at_, was) =>
    if stamp ≤ at_ + 1500000000 ∧ (err - was).natAbs ≤ 1000 then
      let t := s1.stepTime ((s1.now : Int) - err).toNat
      { t with tim := { t.tim with locked := false, goodEdges := 0, disciplinedAt := t.tim.now } }
    else (s1.event 0x0C0A 2 srcTime 0 [at_, was]).judgeEdge stamp err
  | none => s1.judgeEdge stamp err

/-- The source that takes over when PPS is lost (R495): the coupler's leader, PTM, or none. -/
def nextSource (s : State) : Nat :=
  if s.cpl.leaderValid && decide (s.cpl.leader ≠ s.pins.modIdStrap) then 3 else if s.tim.ptmEn then 2 else 0

end State

/-! ### Commands -/

/-- An edge of `PPS_IN` in Sleep or Deep Sleep is ignored, unless PPS wake is enabled: then it is wake source 4 (R479, R482). -/
def State.edgeAsleep (name : String) (s : State) (accepted : Bool) : Out :=
  match s.pwr.pstate with
  | .asleep .sleep | .asleep .deep => .next (if accepted then (s.wakeFired 0x10).getD s else s)
  | _ => cannot name

/-- PPS_EDGE (R133, R479, R494, R495, R497): an accepted edge is stamped; with `pps_en` it disciplines the time base. -/
def execPpsEdge (stamp : Nat) (s : State) : Out :=
  let t := (s.advanceTo stamp).startClock 5
  if !s.awake then State.edgeAsleep "PPS_EDGE" s true
  else arises (s.tim.running && !s.tim.saturated) "PPS_EDGE"
    ((if s.tim.ppsEn then t.edge stamp else { t with tim := { t.tim with ppsLast := stamp } }).leadChanged
      s.cpl.timeLeadEn s.tim.locked)

/-- PPS_EDGE_DISCARDED (R455, R462): an edge with less than 1 µs of high or low time. -/
def execPpsEdgeDiscarded (highNs lowNs : Nat) (s : State) : Out :=
  if !s.awake then State.edgeAsleep "PPS_EDGE_DISCARDED" s false
  else arises (decide (highNs < 1000) || decide (lowNs < 1000)) "PPS_EDGE_DISCARDED"
    (s.event 0x0B01 1 srcTime 0 [highNs, lowNs])

/-- PPS_LOSS (R494, R495): no edge for 1.5 s. A held edge is discarded with event 0x0C0A. -/
def execPpsLoss (s : State) : Out :=
  let t := s.advanceTo (s.tim.ppsLast + 1500000000)
  let t1 := { t with tim := { t.tim with locked := false, holdover := true, ppsAlive := false, goodEdges := 0
                                         heldEdge := none, source := t.nextSource } }
  let t2 := match s.tim.heldEdge with
    | some (at_, was) => t1.event 0x0C0A 2 srcTime 0 [at_, was]
    | none => t1
  arises (s.tim.running && s.tim.ppsAlive) "PPS_LOSS" ((t2.event 0x0C08 2 srcTime 0 [s.tim.ppsLast]).leadChanged
    s.cpl.timeLeadEn s.tim.locked)

/-- SEC_SUSPECT_LIMIT (R495): the bounds added up since the last disciplined second exceed 0.5 s. -/
def execSecSuspectLimit (s : State) : Out :=
  arises s.tim.running "SEC_SUSPECT_LIMIT" { s with tim := { s.tim with secSuspect := true } }

/-- PTM_DIALOG (R495, R496): with PTM the source, its first dialog records the offset from the master time, and later
ones slew the count towards the master time plus that offset. -/
def execPtmDialog (master : Nat) (s : State) : Out :=
  let best := !s.tim.ppsAlive && decide (s.nextSource = 2)
  let fresh := best && (decide (s.tim.source ≠ 2) || s.tim.ptmOffset.isNone)
  let t :=
    if !best then s
    else if fresh then { s with tim := { s.tim with source := 2, ptmOffset := some ((s.now : Int) - master) } }
    else match s.tim.ptmOffset with
      | some o => { s with tim := { s.tim with slew := (s.now : Int) - (master + o), slewPhase := 0
                                               disciplinedAt := s.now } }
      | none => s
  arises (s.tim.running && s.tim.ptmEn && (s.hif.port0.linkUp || s.hif.port1.linkUp)) "PTM_DIALOG" t

/-- TIM_NOW_SATURATION (R492): the count stays at its maximum. -/
def execTimNowSaturation (s : State) : Out :=
  arises (s.tim.running && !s.tim.saturated) "TIM_NOW_SATURATION" s.saturate

/-- PPS_OUT_PULSE (R456): `TIM_NOW` reaches the next whole second with `pps_out_en` set. -/
def execPpsOutPulse (s : State) : Out :=
  arises (s.tim.running && s.pins.ppsOutEn && !s.tim.saturated) "PPS_OUT_PULSE"
    ((s.advanceTo ((s.now / 1000000000 + 1) * 1000000000)).pulse)

/-- PPS_OUT_PULSE_END (R456): the 10 ms are over, by the local oscillator. -/
def execPpsOutPulseEnd (s : State) : Out :=
  arises s.pins.ppsCounting "PPS_OUT_PULSE_END" { s with pins := { s.pins with ppsOut := false, ppsCounting := false } }

end Sys2Proof.Machine
end

