-- ==== Sys2Proof/Machine/Admin.lean ====
section
/-! DEFINITION. Doorbells and the standard admin commands: Identify, queues, logs, features, Abort, Asynchronous Event
Request, and what the module does not serve (R346, R355, R357, R413 to R421). -/

namespace Sys2Proof.Machine

/-! ### Doorbells (R355, R412) -/

namespace State

/-- A doorbell write that a window ignores: `CMPW_INTSTAT` bit 1 and event 0x0902. -/
def ignoreDoorbell (s : State) (comp qid value : Nat) : State :=
  (s.compIrq comp 1).event 0x0902 2 srcHost comp [qid, value]

/-- A doorbell write: `sq` the tail of a submission queue, else the head of a completion queue. The admin queue of a steward
controller lies in its properties. Every doorbell write is activity (R474). -/
def doorbell (s : State) (port comp qid value : Nat) (sq : Bool) : State :=
  let ctl := if comp = 0 then port else 1 + comp
  let size := match s.queue ctl qid sq with
    | some q => q.size
    | none => 0
  let fits := decide (value < size)
  let t := s.activity.modQueues (fun q => decide (q.ctl = ctl) && decide (q.qid = qid) && (q.sq == sq))
    (fun q => if sq then { q with tail := value } else { q with head := value })
  if comp = 0 then (if !(s.port port).en then s else if fits then t else s.activity)
  else if !s.windowOpen port comp then s
  else if (s.comp comp).fetchStopped || !fits then s.activity.ignoreDoorbell comp qid value
  else t

end State

/-- SQ_TAIL_DOORBELL (R355, R412). -/
def execSqTailDoorbell (port comp qid value : Nat) (s : State) : Out :=
  arises (s.reachable port && decide (qid ≤ 64)) "SQ_TAIL_DOORBELL" (s.doorbell port comp qid value true)

/-- CQ_HEAD_DOORBELL (R355, R412). -/
def execCqHeadDoorbell (port comp qid value : Nat) (s : State) : Out :=
  arises (s.reachable port && decide (qid ≤ 64)) "CQ_HEAD_DOORBELL" (s.doorbell port comp qid value false)

/-! ### Identify and Get Log Page -/

/-- The row of commands that the Parked state, a sanitize and a compartment let through. -/
def queryRow : State.AdminRow := { parked := true, sanitize := true, compartment := true, changes := false }

/-- IDENTIFY (R357, R420). -/
def execIdentify (h : HostCmd) (cns csi cntid : Nat) (s : State) : Out :=
  admin "IDENTIFY" h queryRow s (fun t => match t.identifyData h cns csi cntid with
    | .ok bytes => (t.emit (.data h bytes)).done h 0
    | .error st => t.fail h st)

/-- GET_LOG_PAGE (R357, R419): `bytes` of the log from offset `off`. -/
def execGetLogPage (h : HostCmd) (lid off bytes : Nat) (s : State) : Out :=
  admin "GET_LOG_PAGE" h queryRow s (fun t => match t.logData h lid with
    | .ok (log, u) =>
      if log.length < off then t.fail h .invalidField else (u.emit (.data h ((log.drop off).take bytes))).done h 0
    | .error st => t.fail h st)

/-! ### Queues (R346, R355, R414 to R416) -/

/-- The row of queue create and delete. -/
def queueRow : State.AdminRow := { parked := true, sanitize := true, compartment := true, changes := true }

namespace State

/-- I/O queues of one kind on a controller, and on the module. -/
def queueCount (s : State) (ctl : Option Nat) (sq : Bool) : Nat :=
  (s.hif.queues.filter (fun q => (q.sq == sq) && decide (q.qid ≠ 0) && (match ctl with
    | some c => decide (q.ctl = c)
    | none => true))).length

/-- The PASID a new queue takes; none where it is not mapped (R346). -/
def queuePasid (s : State) (h : HostCmd) (p : Option Nat) : Option (Option Nat) :=
  match p with
  | some x => if s.pasidMapped h.port x h.comp then some (some x) else none
  | none =>
    if h.comp = 0 then some none
    else
      let x := (s.comp h.comp).apasid
      if s.pasidMapped h.port x h.comp then some (some x) else none

/-- What refuses the create of a queue: its identifier, the limits, its size, its memory, its vector (R346, R355, R415,
R416). -/
def createRefusal (s : State) (h : HostCmd) (q : CreateQ) (sq : Bool) : Option Status :=
  let grant := if h.comp = 0 then 64 else (s.comp h.comp).res.queuePairs
  if q.qid = 0 ∨ 64 < q.qid ∨ (s.queue (ctlOf h) q.qid sq).isSome ∨ grant ≤ s.queueCount (some (ctlOf h)) sq ∨
      8192 ≤ s.queueCount none sq then some .invalidQueue
  else if q.size < 2 ∨ 4096 < q.size then some .invalidQueueSize
  else if !q.pc ∨ q.base % 4096 ≠ 0 then some .invalidField
  else if (s.queuePasid h q.pasid).isNone then some .invalidField
  else if !sq && decide (7 < q.vector) then some .invalidField
  else if sq && (decide (q.cqid = 0) || (s.queue (ctlOf h) q.cqid false).isNone) then some .completionQueueInvalid
  else none

/-- Creates a queue, or completes with what refuses it. -/
def createQueue (s : State) (h : HostCmd) (q : CreateQ) (sq : Bool) : State :=
  match s.createRefusal h q sq with
  | some st => s.fail h st
  | none =>
    let e : Queue := { ctl := ctlOf h, qid := q.qid, sq := sq, size := q.size, head := 0, tail := 0
                       pasid := (s.queuePasid h q.pasid).getD none, cq := if sq then q.cqid else 0
                       vector := if sq then 0 else q.vector, ien := !sq && q.ien, base := q.base, phase := true }
    ({ s with hif := { s.hif with queues := s.hif.queues ++ [e] } }).done h 0

/-- Deletes a queue: a completion queue only once no submission queue completes to it. -/
def deleteQueue (s : State) (h : HostCmd) (qid : Nat) (sq : Bool) : State :=
  let mine := fun (q : Queue) => decide (q.ctl = ctlOf h) && decide (q.qid = qid) && (q.sq == sq)
  if qid = 0 ∨ !s.hif.queues.any mine then s.fail h .invalidQueue
  else if !sq && s.hif.queues.any (fun q => decide (q.ctl = ctlOf h) && q.sq && decide (q.qid ≠ 0) && decide (q.cq = qid)) then
    s.fail h .invalidQueueDeletion
  else ({ s with hif := { s.hif with queues := s.hif.queues.filter (fun q => !mine q) } }).done h 0

end State

/-- CREATE_IO_SQ (R346, R415). -/
def execCreateIoSq (h : HostCmd) (q : CreateQ) (s : State) : Out :=
  admin "CREATE_IO_SQ" h queueRow s (fun t => t.createQueue h q true)

/-- CREATE_IO_CQ (R346, R355, R415, R416). -/
def execCreateIoCq (h : HostCmd) (q : CreateQ) (s : State) : Out :=
  admin "CREATE_IO_CQ" h queueRow s (fun t => t.createQueue h q false)

/-- DELETE_IO_SQ (R417). -/
def execDeleteIoSq (h : HostCmd) (qid : Nat) (s : State) : Out :=
  admin "DELETE_IO_SQ" h queueRow s (fun t => t.deleteQueue h qid true)

/-- DELETE_IO_CQ (R417). -/
def execDeleteIoCq (h : HostCmd) (qid : Nat) (s : State) : Out :=
  admin "DELETE_IO_CQ" h queueRow s (fun t => t.deleteQueue h qid false)

/-! ### Abort and asynchronous events (R357, R414, R417, R433) -/

/-- The row of the commands that are served after UNPARK from every admin queue. -/
def serveRow : State.AdminRow := { parked := false, sanitize := false, compartment := true, changes := false }

namespace State

/-- Asynchronous Event Requests outstanding on a controller. -/
def aersOf (s : State) (h : HostCmd) : List HostCmd :=
  if h.comp = 0 then (s.port h.port).aers else (s.hif.compAers.filter (fun e => decide (e.1 = h.comp))).map (·.2)

/-- Takes the Asynchronous Event Requests that `f` names off a controller. -/
def dropAers (s : State) (h : HostCmd) (f : HostCmd → Bool) : State :=
  if h.comp = 0 then s.setPort h.port { s.port h.port with aers := (s.port h.port).aers.filter (fun x => !f x) }
  else { s with hif := { s.hif with compAers := s.hif.compAers.filter (fun e => decide (e.1 ≠ h.comp) || !f e.2) } }

/-- Compartment Control commands of a controller that have not started. -/
def waitingControl (s : State) (f : HostCmd → Bool) : List HostCmd :=
  s.cmp.table.flatMap (fun e => (e.2.control.map (·.cmd)).filter f)

/-- Takes Compartment Control commands that have not started out of their queues. -/
def dropControl (s : State) (f : HostCmd → Bool) : State :=
  { s with cmp := { s.cmp with table := s.cmp.table.map (fun (e : Nat × Comp) =>
    (e.1, { e.2 with control := e.2.control.filter (fun x => !f x.cmd) })) } }

/-- The next standard event that has not been reported, as completion DW0, and the state without it. -/
def nextAsync (s : State) (h : HostCmd) : Option (Nat × State) :=
  let dw := fun (type info page : Nat) => page * 65536 + info * 256 + type
  if h.comp = 0 then match (s.port h.port).asyncEvents with
    | [] => none
    | (t, i, p) :: r => some (dw t i p, s.setPort h.port { s.port h.port with asyncEvents := r })
  else match s.hif.compEvents.find? (fun e => decide (e.1 = h.comp)) with
    | none => none
    | some e => some (dw e.2.1 e.2.2.1 e.2.2.2, { s with hif := { s.hif with compEvents := s.hif.compEvents.erase e } })

end State

/-- ABORT (R417): a command that waits and rides no carriage is aborted; any other is not, and DW0 [0] says so. -/
def execAbort (h : HostCmd) (sqid cid : Nat) (s : State) : Out :=
  admin "ABORT" h serveRow s (fun t =>
    let same := fun (x : HostCmd) => decide (ctlOf x = ctlOf h) && decide (x.qid = sqid) && decide (x.cid = cid)
    match ((t.aersOf h).filter same ++ t.waitingControl same).head? with
    | some x => (((t.dropAers h same).dropControl same).fail x .abortRequested).done h 0
    | none => t.done h 1)

/-- ASYNCHRONOUS_EVENT_REQUEST (R357, R414, R433): completes with the oldest event not yet reported, else waits; at most
eight wait. -/
def execAsynchronousEventRequest (h : HostCmd) (s : State) : Out :=
  admin "ASYNCHRONOUS_EVENT_REQUEST" h serveRow s (fun t => match t.nextAsync h with
    | some (dw, u) => u.done h (BitVec.ofNat 32 dw)
    | none =>
      if 8 ≤ (t.aersOf h).length then t.fail h .asyncLimit
      else if h.comp = 0 then t.setPort h.port { t.port h.port with aers := (t.port h.port).aers ++ [h] }
      else { t with hif := { t.hif with compAers := t.hif.compAers ++ [(h.comp, h)] } })

/-! ### Features (R418, R468, R473, R493, R508) -/

namespace State

/-- The features of the controller a command came through. -/
def featOf (s : State) (h : HostCmd) : Features :=
  if h.comp = 0 then (s.port h.port).feat else (look none s.hif.compFeat h.comp).getD Features.reset

/-- Rewrites the features of a controller. -/
def modFeat (s : State) (h : HostCmd) (f : Features → Features) : State :=
  if h.comp = 0 then s.setPort h.port { s.port h.port with feat := f (s.port h.port).feat }
  else { s with hif := { s.hif with compFeat := put none s.hif.compFeat h.comp (some (f (s.featOf h))) } }

/-- Queue pairs a controller may be granted (R357, R415). -/
def pairLimit (s : State) (h : HostCmd) : Nat := if h.comp = 0 then 64 else (s.comp h.comp).res.queuePairs

/-- DW0 of Number of Queues for a grant of `n` and `m`: each less one. -/
def queuesDw (n m : Nat) : BitVec 32 := BitVec.ofNat 32 (n - 1 + (m - 1) * 65536)

/-- Replaces the threshold of a sensor; 15 names every sensor. -/
def setThreshold (l : List Nat) (sensor v : Nat) : List Nat := l.mapIdx (fun i x => if i = sensor ∨ sensor = 15 then v else x)

/-- A Set Features command: those that a compartment does not serve are refused there (R418). -/
def steward (s : State) (h : HostCmd) (f : State → State) : State := if h.comp = 0 then f s else s.fail h .invalidField

/-- What Get Features answers: DW0 and the bytes transferred (R418, R493). -/
def featureValue (s : State) (h : HostCmd) (fid : Nat) (arg : BitVec 32) : Except Status (Nat × List Byte × State) :=
  let f := s.featOf h
  let a := arg.toNat
  if h.comp ≠ 0 ∧ fid ≠ 0x07 ∧ fid ≠ 0x08 ∧ fid ≠ 0x0B then .error .invalidField
  else match fid with
    | 0x02 => .ok (s.pwr.mode.code, [], s)
    | 0x04 =>
      let k := bits a 16 4
      if 3 < k then .error .invalidField
      else .ok (((if bits a 20 2 = 1 then f.tempUnder else f.tempOver)[k]?).getD 0, [], s)
    | 0x07 =>
      let n := if f.queues = 0 then s.pairLimit h else min f.queues (s.pairLimit h)
      if n = 0 then .ok (Config.freeNat s.free, [], s.draw) else .ok ((queuesDw n n).toNat, [], s)
    | 0x08 => .ok (f.coalescing.toNat, [], s)
    | 0x09 => if 7 < bits a 0 16 then .error .invalidField else .ok (bits a 0 16 + look 0 f.vectors (bits a 0 16) * 65536, [], s)
    | 0x0B => .ok (f.asyncCfg.toNat, [], s)
    | 0x0E => .ok (0, leBytes 6 (s.now / 1000000) ++
        leBytes 2 ((if s.tim.secSuspect then 1 else 0) + (if s.tim.timeSet then 2 else 0)), s)
    | _ => .error .invalidField

end State

/-- GET_FEATURES (R418). -/
def execGetFeatures (h : HostCmd) (fid : Nat) (arg : BitVec 32) (s : State) : Out :=
  admin "GET_FEATURES" h serveRow s (fun t => match t.featureValue h fid arg with
    | .ok (dw, bytes, u) => (if bytes.isEmpty then u else u.emit (.data h bytes)).done h (BitVec.ofNat 32 dw)
    | .error st => t.fail h st)

/-- SET_POWER_MANAGEMENT (R418, R468, R473): PS0 to PS2 ask for a mode and complete when it takes effect; PS3 and PS4 ask for
Sleep and Deep Sleep. -/
def execSetPowerManagement (h : HostCmd) (ps : Nat) (s : State) : Out :=
  admin "SET_POWER_MANAGEMENT" h serveRow s (fun t => t.steward h (fun u =>
    match ps with
    | 0 | 1 | 2 => { u with pwr := { u.pwr with pendingMode := some (Mode.ofCode ps), modeCommands := u.pwr.modeCommands ++ [h] } }
    | 3 => u.beginEntry .sleep (some h)
    | 4 => u.beginEntry .deep (some h)
    | _ => u.fail h .invalidField))

/-- SET_TEMPERATURE_THRESHOLD (R418, R508). -/
def execSetTemperatureThreshold (h : HostCmd) (tmpth sensor : Nat) (under : Bool) (s : State) : Out :=
  admin "SET_TEMPERATURE_THRESHOLD" h serveRow s (fun t => t.steward h (fun u =>
    if 3 < sensor ∧ sensor ≠ 15 then u.fail h .invalidField
    else (u.withThresholds (fun x => x.modFeat h (fun f =>
      if under then { f with tempUnder := State.setThreshold f.tempUnder sensor tmpth }
      else { f with tempOver := State.setThreshold f.tempOver sensor tmpth }))).done h 0))

/-- SET_NUMBER_OF_QUEUES (R357, R415, R418): grants at most the limit; what a limit of 0 answers is open. -/
def execSetNumberOfQueues (h : HostCmd) (nsq ncq : Nat) (s : State) : Out :=
  admin "SET_NUMBER_OF_QUEUES" h serveRow s (fun t =>
    let m := t.pairLimit h
    let n := min (min (nsq + 1) (ncq + 1)) m
    if 65534 < nsq ∨ 65534 < ncq then t.fail h .invalidField
    else if m = 0 then t.draw.done h (BitVec.ofNat 32 (Config.freeNat t.free))
    else (t.modFeat h (fun f => { f with queues := n })).done h (State.queuesDw (min (nsq + 1) m) (min (ncq + 1) m)))

/-- SET_INTERRUPT_COALESCING (R418). -/
def execSetInterruptCoalescing (h : HostCmd) (value : BitVec 32) (s : State) : Out :=
  admin "SET_INTERRUPT_COALESCING" h serveRow s (fun t => (t.modFeat h (fun f => { f with coalescing := value })).done h 0)

/-- SET_INTERRUPT_VECTOR_CONFIGURATION (R416, R418): vectors 0 to 7. -/
def execSetInterruptVectorConfiguration (h : HostCmd) (iv : Nat) (cd : Bool) (s : State) : Out :=
  admin "SET_INTERRUPT_VECTOR_CONFIGURATION" h serveRow s (fun t => t.steward h (fun u =>
    if 7 < iv then u.fail h .invalidField
    else (u.modFeat h (fun f => { f with vectors := put 0 f.vectors iv (if cd then 1 else 0) })).done h 0))

/-- SET_ASYNC_EVENT_CONFIGURATION (R418). -/
def execSetAsyncEventConfiguration (h : HostCmd) (value : BitVec 32) (s : State) : Out :=
  admin "SET_ASYNC_EVENT_CONFIGURATION" h serveRow s (fun t => (t.modFeat h (fun f => { f with asyncCfg := value })).done h 0)

/-- SET_TIMESTAMP (R418, R493). -/
def execSetTimestamp (h : HostCmd) (ms : Nat) (s : State) : Out :=
  admin "SET_TIMESTAMP" h serveRow s (fun t => t.steward h (fun u => (u.setStamp ms).done h 0))

/-- A feature that neither kind of controller serves. -/
def featureUnserved (fid : Nat) : Bool := !([0x02, 0x04, 0x07, 0x08, 0x09, 0x0B, 0x0E].contains fid)

/-- SET_FEATURES_UNSUPPORTED (R418): Invalid Field in Command. -/
def execSetFeaturesUnsupported (h : HostCmd) (fid : Nat) (s : State) : Out :=
  if featureUnserved fid then admin "SET_FEATURES_UNSUPPORTED" h serveRow s (fun t => t.fail h .invalidField)
  else cannot "SET_FEATURES_UNSUPPORTED"

/-! ### What the module does not serve (R16, R417, R421) -/

/-- FIRMWARE_COMMIT (R16, R357, R417): Invalid Command Opcode, Parked or not. -/
def execFirmwareCommit (h : HostCmd) (s : State) : Out :=
  onAdmin "FIRMWARE_COMMIT" h s (fun t => t.fail h .invalidOpcode)

/-- FIRMWARE_IMAGE_DOWNLOAD (R16, R357, R417). -/
def execFirmwareImageDownload (h : HostCmd) (s : State) : Out :=
  onAdmin "FIRMWARE_IMAGE_DOWNLOAD" h s (fun t => t.fail h .invalidOpcode)

/-- Opcodes with a row of their own: those that are served, and the firmware commands (R16, R417). -/
def adminOpcodes : List Nat := State.servedAdmin ++ [0x10, 0x11]

/-- INVALID_COMMAND_OPCODE (R15, R357, R417, R421, R561): Invalid Command Opcode; in the Parked state every such command of a
steward controller completes with Command Sequence Error. -/
def execInvalidCommandOpcode (h : HostCmd) (opcode : Nat) (io : Bool) (s : State) : Out :=
  let refuse := fun (t : State) =>
    if h.comp ≠ 0 ∧ !io then t.fail h .invalidOpcode
    else if t.sec.sanActive then t.fail h .sanitizeInProgress
    else if t.parked then t.fail h .sequenceError
    else t.fail h .invalidOpcode
  if io then
    (if State.servedIo.contains opcode ∨ 255 < opcode then cannot "INVALID_COMMAND_OPCODE" else onIo "INVALID_COMMAND_OPCODE" h s refuse)
  else if adminOpcodes.contains opcode ∨ 255 < opcode then cannot "INVALID_COMMAND_OPCODE"
  else onAdmin "INVALID_COMMAND_OPCODE" h s refuse

end Sys2Proof.Machine
end

