-- ==== Sys2Proof/Machine/Boot.lean ====
section
/-! DEFINITION. Power-on, the reset sequence of R197, the option loader, and what the ports do meanwhile. -/

namespace Sys2Proof.Machine

/-! ### Limits and the option area (R197 to R201, R510, R549) -/

/-- The limits in force for what was written: none above its default, Critical above Notice and Trip above Critical
(R501, R510). -/
def limitsFor (d : Limits) (n c t : Nat) : Limits :=
  let n' := min n d.notice
  let c' := min c d.critical
  let t' := min t d.trip
  if c' ≤ n' ∨ t' ≤ c' then { notice := n', critical := n' + 1, trip := n' + 2 }
  else { notice := n', critical := c', trip := t' }

/-- Default limits of the controller die and of flash (R501). -/
def dieDefaults : Limits := { notice := 95, critical := 110, trip := 120 }
def flashDefaults : Limits := { notice := 70, critical := 80, trip := 85 }

/-- Byte `i` of an image of the option area. -/
def OptImage.byte (o : OptImage) (i : Nat) : Nat := (look 0 o.bytes i).toNat

/-- Generation `a` is newer than `b` by serial comparison (R199). -/
def newer (a b : Nat) : Bool :=
  let d := (a + 2 ^ 32 - b % 2 ^ 32) % 2 ^ 32
  decide (0 < d) && decide (d < 2 ^ 31)

/-- The copy the loader chooses: the newest valid one, the lower index where generations are equal (R199). -/
def chooseCopy (cs : List OptCopy) : Option (Nat × OptImage) :=
  (cs.mapIdx (fun i c => (i, c.image))).foldl (fun acc x => match x.2, acc with
    | none, a => a
    | some o, none => some (x.1, o)
    | some o, some a => if newer o.generation a.2.generation then some (x.1, o) else some a) none

/-- Bit i: option copy i is valid. -/
def validCopies (cs : List OptCopy) : BitVec 4 :=
  BitVec.ofNat 4 (sumBy (fun x => if x.2 then 2 ^ x.1 else 0) (cs.mapIdx (fun i c => (i, c.image.isSome))))

/-- The bytes of an image with the 16 header bytes left out (R550). -/
def OptImage.body (o : OptImage) : SMap Byte := o.bytes.filter (fun e => decide (16 ≤ e.1))

/-- The 16 header bytes of an image (R199); none for the defaults, which no copy holds (R201). -/
def OptImage.header (o : OptImage) : List Byte :=
  if o = OptImage.default then []
  else [0x4F, 0x50, 0x54, 0x41] ++ leBytes 4 o.generation ++ leBytes 8 (crcEcma (readBytes o.bytes 16 65520)).toNat

/-- Level of the option area's level byte (R544, R549): 0 Open, else Closed. -/
def levelOf (b : Nat) : ProtLevel := if b = 0 then .opened else .closed

namespace State

/-- Every value that step 6 of R197 takes from an image; with it the second port is known to exist, and trains if its reset is
released (R197). -/
def loadOptions (s : State) (o : OptImage) : State :=
  let dual := decide (o.byte 16 = 1)
  let grace := o.byte 30 + 256 * o.byte 31
  { s with
    pwr := { s.pwr with mode := Mode.ofCode (o.byte 17) }
    fan := { s.fan with cmdMode := o.byte 18 % 4, enable := BitVec.ofNat 4 (o.byte 19),
                        ratedRpm := o.byte 20 + 256 * o.byte 21, polePairs := o.byte 22 % 16 }
    thm := { s.thm with die := limitsFor dieDefaults (o.byte 24) (o.byte 25) (o.byte 26)
                        flash := limitsFor flashDefaults (o.byte 27) (o.byte 28) (o.byte 29)
                        graceMs := grace % 4096 }
    plog := { s.plog with dirtyCfg := o.byte 33 % 128 }
    hif := { s.hif with dual := dual, port1 := { s.hif.port1 with present := dual, training := dual && !s.hif.port1.perst } }
    sec := { s.sec with optInForce := o, optStage := writeBytes o.body 0 o.header
                        level := if s.part.sealFuse then .sealed else levelOf (o.byte 32) } }

/-- Step 6: a copy is chosen, or the defaults are taken (R199, R201). -/
def optionStep (s : State) : State :=
  let v := validCopies s.sec.optCopies
  match chooseCopy s.sec.optCopies with
  | some (i, o) =>
    let t := s.loadOptions o
    { t with boot := { t.boot with optValid := v, optCopy := i, optDefault := false, optGeneration := o.generation } }
  | none =>
    let t := s.loadOptions OptImage.default
    { t with boot := { t.boot with optValid := v, optCopy := 0, optDefault := true, optGeneration := 0 } }

/-- Step 4: the straps by majority, and the released ports start link training (R197, R460). -/
def fuseStep (s : State) (a b c : Nat) : State :=
  let train := fun (p : Port) => if p.present && !p.perst then { p with training := true } else p
  { s with
    pins := { s.pins with modIdStrap := ((a &&& b) ||| (a &&& c) ||| (b &&& c)) % 8 }
    hif := { s.hif with port0 := train s.hif.port0, port1 := train s.hif.port1 } }

/-- Step 7: the soft repairs of the image in force are applied (R399, R401). -/
def repairStep (s : State) : State :=
  let o := s.sec.optInForce
  let n := min 512 (o.byte 448 + 256 * o.byte 449)
  let macros := (List.range n).map (fun i => leNat (readBytes o.bytes (8192 + 8 * i) 8) % 2048)
  { s with mem := { s.mem with
      remap := (macros.filter (fun m => decide (m < 2040))).foldl (fun r m => upd 0 r m (fun k => min 16 (k + 1)))
        s.mem.remap } }

/-- Step 7: a word that fails the self-test is remapped; where its macro's table is full, a unit reports a fault and a buffer
of cluster SRAM is withdrawn (R399). -/
def selfTestWord (s : State) (macro_ word : Nat) (o : MacroOwner) : State :=
  if look 0 s.mem.remap macro_ < 16 then
    ({ s with mem := { s.mem with remap := upd 0 s.mem.remap macro_ (· + 1) } }).event 0x0A03 2 (src 0 8) 0 [macro_, word]
  else match o with
    | .unit kind inst => (s.unitFault kind inst 0).getD s
    | .buffers cluster pool => s.discardEntry (.sram cluster pool)

/-- Step 7 with what the self-test found: words that fail are remapped, and a failed checker takes its unit out of service;
where that unit belongs to a die-level block the step stalls (R399, R402). -/
def selfTestStep (s : State) (words : List (Nat × Nat × MacroOwner)) (checkers : List (Nat × Nat)) : State :=
  if checkers.any (fun c => decide (c.1 = 0)) then { s with boot := { s.boot with stalled := true } }
  else
    let t := (words.filter (fun w => decide (w.1 < 2040))).foldl (fun (t : State) w => t.selfTestWord w.1 w.2.1 w.2.2) s.repairStep
    let u := checkers.foldl (fun (t : State) c => (t.unitFault c.1 c.2 0).getD t) t
    { u with boot := { u.boot with step := 7 } }

/-- Step 8: a device that fails its patterns is marked, and a channel that fails training takes its region out
(R197, R398). `takeover_by` keeps its reset value: nothing was taken over (R52; log 166). -/
def dramStep (s : State) (badDevices : List (Nat × Nat)) (badChannels : List Nat) : State :=
  let s1 := badDevices.foldl (fun t x =>
    if t.mem.marked[x.1]? = some 15 then
      ({ t with mem := { t.mem with marked := modAt t.mem.marked x.1 (fun _ => x.2) } }).event 0x0A02 3 (src 0xB x.1) 0
        [x.1, x.2]
    else t) s
  let s2 := if badChannels.any (fun c => decide (c < 4)) then s1.regionOut 0 else s1
  if badChannels.any (fun c => decide (4 ≤ c)) then s2.regionOut 1 else s2

/-- Step 9 resumes a sanitize that a reset cut short, from the beginning of its block erase (R562). -/
def resumeSanitize (s : State) : State :=
  if s.sec.sanActive then
    let code : Int := match s.sec.sanAction with
      | .none => 0 | .crypto => 1 | .block => 2 | .lowering => 3
    ({ s with sec := { s.sec with sanResumed := true, sanPct := 0, sanStart := s.now
                                  lowering := decide (s.sec.sanAction = Sanitizing.lowering) } }).event 0x0F01 2 srcSecurity 0
      [code, 1]
  else s

/-- Step 9: the event engine runs and tells of an input out of range since the start (R222), the charger starts, and the module is Parked (R197, R201, R481, R507). -/
def parkStep (s : State) : State :=
  let s1 := { s with
    boot := { s.boot with step := 9, parked := true, offLatch := false }
    pwr := { s.pwr with
      pstate := .run, lastActivity := s.now
      wakeSource := if s.boot.offLatch then 1 else s.pwr.wakeSource
      wakeLeft := if s.boot.offLatch then 3 else s.pwr.wakeLeft
      wakeMask := if s.boot.offLatch then 2 else s.pwr.wakeMask
      wakes := if s.boot.offLatch then s.pwr.wakes + 1 else s.pwr.wakes }
    plog := { s.plog with charger := true }
    hif := { s.hif with port0 := { s.hif.port0 with rdy := s.hif.port0.en && !s.hif.port0.squashing }
                        port1 := { s.hif.port1 with rdy := s.hif.port1.en && !s.hif.port1.squashing } }
    lvl := { s.lvl with windowStart := s.now - s.now % 1000000, rowInForce := s.ladderRow, rowPower := s.ladderRow } }
  let s2 := (s1.apportionPower).apportionProg
  let s3 := if s2.boot.optDefault then s2.event 0x0600 4 srcLoader 0 [s2.boot.optValid.toNat] else s2
  let s4 := match s3.thm.tripRecord with
    | some (k, t, early) =>
      ({ s3 with thm := { s3.thm with tripRecord := none } }).event 0x0D03 4 srcThermal 0 [k, (t : Int) - 40, if early then 1 else 0]
    | none => s3
  let s5 := if s4.pwr.underRange then s4.event 0x0C0C 2 srcStage 0 [s4.pwr.vIn] else s4
  (if s5.pwr.overRange then s5.event 0x0C0D 2 srcStage 0 [s5.pwr.vIn] else s5).resumeSanitize

/-- The effect of completing step `n` of R197 with what it found; none where the report does not belong to the step. -/
def bootStep (s : State) (n : Nat) (b : BootReport) : Option State :=
  let at_ := fun (t : State) => { t with boot := { t.boot with step := n } }
  match n, b with
  | 3, .ready => some (at_ { s with tim := { s.tim with running := true, now := 0 } })
  | 4, .fuses a b c => some (at_ (s.fuseStep a b c))
  | 4, _ => none
  | 6, .ready => some (at_ s.optionStep)
  | 7, .ready => some (at_ s.repairStep)
  | 7, .selfTest w c => some (s.selfTestStep w c)
  | 8, .dram d c => some (at_ (s.dramStep d c))
  | 8, _ => none
  | 9, .ready => some s.parkStep
  | _, .ready => some (at_ s)
  | _, _ => none

end State

/-! ### Commands -/

/-- POWER_ON (R197, R198, R222, R507): the input and `PWR_EN` have been valid for 10 ms, which is step 1. After a Trip
only a rise of `PWR_EN` starts the module. -/
def execPowerOn (vIn : Nat) (pwrEn restored : Bool) (s : State) : Out :=
  arises (decide (s.pwr.pstate = .dark) && decide (440 ≤ vIn) && decide (vIn ≤ 3150) && (pwrEn || !s.boot.tripped))
    "POWER_ON"
    { s with
      boot := { s.boot with
        step := 1, stalled := false, tripped := false
        cause := if s.boot.tripped then 2 else if restored then 1 else if pwrEn then 3 else 0 }
      pwr := { s.pwr with pstate := .starting, vIn := vIn, underRange := decide (vIn < 450)
                          overRange := decide (3000 < vIn) }
      lvl := { s.lvl with clocks := 1 } }

/-- BOOT_STEP_ADVANCE (R197): the ready condition of the next step is met. -/
def execBootStepAdvance (b : BootReport) (s : State) : Out :=
  if decide (s.pwr.pstate = .starting) && !s.boot.stalled then
    match s.bootStep (s.boot.step + 1) b with
    | some t => .next t
    | none => cannot "BOOT_STEP_ADVANCE"
  else cannot "BOOT_STEP_ADVANCE"

/-- BOOT_STEP_STALL (R197, R198): the module stops at the step. -/
def execBootStepStall (s : State) : Out :=
  arises (decide (s.pwr.pstate = .starting) && !s.boot.stalled) "BOOT_STEP_STALL"
    { s with boot := { s.boot with stalled := true } }

/-- PERST_RELEASE (R197, R452): the port starts link training, from step 4 on, where the configuration has it. -/
def execPerstRelease (port : Nat) (s : State) : Out :=
  let p := s.port port
  let on := match s.pwr.pstate with
    | .dark | .asleep .off => false
    | _ => decide (4 ≤ s.boot.step)
  arises p.perst "PERST_RELEASE" (s.setPort port { p with perst := false, training := p.present && on })

/-- CONFIGURATION_REQUEST (R197): Configuration Request Retry Status until step 9 has completed. -/
def execConfigurationRequest (port : Nat) (s : State) : Out :=
  arises (s.port port).linkUp "CONFIGURATION_REQUEST"
    (s.emit (if s.boot.step = 9 then .configServed port else .crs port))

end Sys2Proof.Machine
end

