-- ==== Sys2Proof/Machine/Codec.lean ====
section
/-! DEFINITION. The frame codec's commands: FRAME_APPEND, FRAME_CODING_COMPLETE, FRAME_READ, CODEC_STATE_SAVE and
CODEC_STATE_RESTORE. -/

namespace Sys2Proof.Machine

namespace State

/-- The context is one of the 2,048 and is granted to the compartment. -/
def ctxGranted (s : State) (c comp : Nat) : Bool := decide (c < 2048) && decide ((s.codecCtx c).grant = some comp)

/-- Queues a command on a codec context, and lets it start where it can. -/
def addJob (s : State) (j : CodecJob) : State := { s with fcd := { s.fcd with jobs := s.fcd.jobs ++ [j] } }.settleCodec

/-- The checks that come first for every codec command (R223, R250, R364): the gate, the C unit, the freeze. -/
def codecGate (s : State) (h : HostCmd) : Option Status :=
  match s.ioGate h with
  | some st => some st
  | Option.none =>
    if !s.part.codec then some (.vendor 0x82) else if s.frozen h.comp then some (.vendor 0x83) else Option.none

/-- Completes a codec command with a status of its gate. -/
def refuseCodec (s : State) (h : HostCmd) (st : Status) : State :=
  if st = .vendor 0x83 then s.refuseFrozen h else s.fail h st

/-! ### Frame Append (R248 to R251) -/

/-- Admits a Frame Append to the carriage of its zone (R249, steps 1 and 2). -/
def admitFrame (s : State) (h : HostCmd) (t : IoTarget) (z : Nat) (rawLen limit : Nat) (desc raw : List Byte) : State :=
  let e := s.carriage t.carriage
  let b := bandOf desc
  if !e.codec || !s.ctxGranted e.codecCtx h.comp then s.fail h .invalidField
  else if rawLen = 0 ∨ 16777216 < rawLen ∨ !b.legal ∨ b.rawLen ≠ rawLen then s.fail h .invalidField
  else match s.keyFor t.carriage with
    | Option.none => s.fail h .accessDenied
    | some k =>
      (s.setCarriage t.carriage { e with outstanding := e.outstanding + 1 }).addJob
        { ctx := e.codecCtx, lane := Option.none, near := Option.none
          work := .append h b raw limit t.carriage t.cls z s.now k }

/-- The refusal of a record of `n` units at a zone's write pointer (R66, R250, R251). -/
def frameRefusal (s : State) (z n : Nat) : Option Status :=
  let v := s.zone z
  match v.state with
  | .full => some .zoneFull
  | .readOnly => some .zoneReadOnly
  | .offline => some .zoneOffline
  | .empty | .closed | .implicitOpen | .explicitOpen => if v.cap < v.wp + n then some (.vendor 0x80) else Option.none

/-- A coded record takes its place at the zone's write pointer and goes through staging (R249, steps 4 and 5). -/
def placeRecord (s : State) (i : Nat) (j : CodecJob) (cmd : HostCmd) (carriage cls z admittedAt key : Nat) (record : List Byte)
    (st : CodecState) : State :=
  let s0 := s.dropJob i
  let per := match s0.space cmd.nsid with
    | some n => n.unitsPerLba
    | Option.none => 1
  let units := (record.length + per * 4096 - 1) / (per * 4096) * per
  match s0.frameRefusal z units with
  | some e => (s0.fail cmd e).settleCodec
  | Option.none => match s0.pairGate z with
    | .error e => (s0.fail cmd e).settleCodec
    | .ok mirror => match s0.admitWrite z Option.none units with
      | .error e => (s0.refuseCodec cmd e).settleCodec
      | .ok s1 =>
        let v := { s1.newFlight cmd .frameAppend carriage cls (some z) with
          start := (s0.zone z).wp, len := units, key := key, segs := segsOf units, mirrorWait := mirror, admittedAt := admittedAt
          opened := if (s0.zone z).state = .empty ∨ (s0.zone z).state = .closed then some (s0.zone z).state else Option.none
          data := record ++ List.replicate (units * 4096 - record.length) 0 }
        let s2 := s1.addFlight v
        let s3 : State := { s2 with fcd := { s2.fcd with coded := s2.fcd.coded ++ [{ flight := v.id, ctx := j.ctx, st := st }] } }
        State.settleCodec s3

/-- The lane has coded a band (R225, R249 to R251). -/
def codedFrame (s : State) (i : Nat) (j : CodecJob) (cmd : HostCmd) (band : Band) (raw : List Byte)
    (limit carriage cls z admittedAt key : Nat) : State :=
  let lost := fun (st : Status) => ((s.dropJob i).fail cmd st).settleCodec
  if !band.clean raw then lost .invalidField
  else match continuity (s.codecCtx j.ctx).st band with
    | Option.none => lost .sequenceError
    | some l =>
      let (l', blocks) := codeBand band raw l
      let record := recordOfBand band raw admittedAt j.ctx blocks
      if limit ≠ 0 ∧ limit < record.length then lost (.vendor 0x80)
      else if seqMax ≤ s.zns.seq then lost .internalError
      else s.placeRecord i j cmd carriage cls z admittedAt key record (contextAfter band l')

/-! ### Frame Read (R252 to R254) -/

/-- A Frame Read ends: its flight, the blocks it found bad, and what waited behind it. -/
def endFrameRead (s : State) (v : Flight) (st : Status) (dw0 : Nat) : State :=
  let s1 := if v.squashed then s.removeFlight v
    else (s.removeFlight v).complete v.cmd st (BitVec.ofNat 32 dw0) 0
  let s2 := if st = .success then s1.count v.cmd.comp (v.len * 4096) 0 else s1
  let s3 := match v.zone with
    | some z => s2.settleZones z
    | Option.none => s2
  (s3.retireRead v).releaseLeft

/-- The lane decodes a record that has been read (R253, R254). -/
def decodedFrame (s : State) (j : CodecJob) (v : Flight) (recLen bufBytes : Nat) : State :=
  let hd := v.data.take 64
  let bad := s.endFrameRead v (.vendor 0x81) 0
  let lba := match s.space v.cmd.nsid, v.zone with
    | some n, some z => s.zoneSlba n z + v.start / n.unitsPerLba
    | _, _ => 0
  if recLen < 64 ∨ v.data.length < recLen ∨ !headerGood hd recLen then bad
  else
    let b := bandOf hd
    match continuity (s.codecCtx j.ctx).st b with
    | Option.none => s.endFrameRead v .sequenceError 0
    | some l =>
      if bufBytes < leAt hd 40 4 then s.endFrameRead v .invalidField 0
      else match decodeBand b ((v.data.drop 64).take (recLen - 64)) l with
        | Option.none => bad
        | some (raw, l') =>
          if leAt hd 32 8 ≠ (crcGuard raw).toNat then
            ((s.event 0x0700 3 (src 8 (j.lane.getD 0)) v.cmd.comp [j.ctx, lba]).endFrameRead v (.vendor 0x81) 0)
          else
            let s1 := s.setCodecState j.ctx (contextAfter b l') true
            let s2 := if v.squashed then s1 else (s1.emit (.data v.cmd hd)).emit (.data v.cmd raw)
            s2.endFrameRead v .success raw.length

/-- Admits a Frame Read (R252, R254). -/
def admitFrameRead (s : State) (h : HostCmd) (t : IoTarget) (z : Nat) (recLen ctx bufBytes : Nat) : State :=
  let per := t.ns.unitsPerLba
  let units := max per ((recLen + per * 4096 - 1) / (per * 4096) * per)
  if !s.ctxGranted ctx h.comp then s.fail h .invalidField
  else if (s.zone z).state = .offline then s.fail h .zoneOffline
  else if t.ns.zsze * per < t.unit + units then s.fail h .zoneBoundary
  else match s.keyFor t.carriage with
    | Option.none => s.fail h .accessDenied
    | some k =>
      let t := { t with units := units, key := k }
      let v := { s.newFlight h .frameRead t.carriage t.cls (some z) with
        start := t.unit, len := units, key := k, data := s.dataOf h.nsid t, senses := s.sensesOf t.zone t.unit units
        status := if s.dataLost t then .unrecoveredRead else .success }
      let s1 := (s.addFlight v).addJob { ctx := ctx, lane := Option.none, near := Option.none, work := .read v.id recLen bufBytes }
      (s1.scheduleSenses v.id).settleRead v.id

/-! ### Codec state (R255) -/

/-- The checks of a state save or restore: a namespace of the compartment, admission not stopped (R306), a context granted to it. -/
def stateCheck (s : State) (h : HostCmd) (ctx : Nat) : Option Status :=
  match s.codecGate h with
  | some st => some st
  | Option.none => match s.space h.nsid with
    | Option.none => some .invalidNamespace
    | some n => if n.comp ≠ h.comp then some .invalidNamespace
      else if s.mnt.stopping then some .namespaceNotReady
      else if s.ctxGranted ctx h.comp then Option.none else some .invalidField

end State

/-- FRAME_APPEND (R223 to R225, R243, R248 to R251). -/
def execFrameAppend (h : HostCmd) (zslba rawLen limit : Nat) (desc raw : List Byte) (s : State) : Out :=
  if desc.length ≠ 64 ∨ raw.length ≠ rawLen then cannot "FRAME_APPEND"
  else onIo "FRAME_APPEND" h s (fun s => match s.codecGate h with
    | some st => s.refuseCodec h st
    | none => s.onZone h zslba true true .invalidField (fun s t z =>
      if t.unit ≠ 0 then s.fail h .invalidField else s.admitFrame h t z rawLen limit desc raw))

/-- FRAME_CODING_COMPLETE (R239, R244, R249 to R254): the lane has coded its band, or decoded its record. -/
def execFrameCodingComplete (lane : Nat) (s : State) : Out :=
  match s.fcd.jobs.findIdx? (fun j => decide (j.lane = some lane)) with
  | none => cannot "FRAME_CODING_COMPLETE"
  | some i => match s.fcd.jobs[i]? with
    | none => cannot "FRAME_CODING_COMPLETE"
    | some j => match j.work with
      | .append cmd band raw limit carriage cls z at_ key =>
        arises (s.serves && !s.resetPending z) "FRAME_CODING_COMPLETE"
          (s.codedFrame i j cmd band raw limit carriage cls z at_ key)
      | .read f recLen buf => match s.flight f with
        | some v => arises s.serves "FRAME_CODING_COMPLETE" (s.decodedFrame j v recLen buf)
        | none => cannot "FRAME_CODING_COMPLETE"
      | .save _ | .restore _ _ | .reel _ _ => cannot "FRAME_CODING_COMPLETE"

/-- FRAME_READ (R223, R252 to R254). -/
def execFrameRead (h : HostCmd) (slba recLen ctx bufBytes : Nat) (s : State) : Out :=
  onIo "FRAME_READ" h s (fun s => match s.codecGate h with
    | some st => s.refuseCodec h st
    | none => s.onZone h slba false true .invalidField (fun s t z => s.admitFrameRead h t z recLen ctx bufBytes))

/-- CODEC_STATE_SAVE (R223, R245, R246, R255). -/
def execCodecStateSave (h : HostCmd) (ctx : Nat) (s : State) : Out :=
  onIo "CODEC_STATE_SAVE" h s (fun s => match s.stateCheck h ctx with
    | some st => s.refuseCodec h st
    | none => s.addJob { ctx := ctx, lane := none, near := none, work := .save h })

/-- CODEC_STATE_RESTORE (R223, R245 to R247, R255). -/
def execCodecStateRestore (h : HostCmd) (ctx : Nat) (record : List Byte) (s : State) : Out :=
  onIo "CODEC_STATE_RESTORE" h s (fun s => match s.stateCheck h ctx with
    | some st => s.refuseCodec h st
    | none => s.addJob { ctx := ctx, lane := none, near := none, work := .restore h record })

end Sys2Proof.Machine
end

