-- ==== Sys2Proof/Machine/ZoneOps.lean ====
section
/-! DEFINITION. Zone management by a host: ZONE_OPEN, ZONE_CLOSE, ZONE_FINISH, ZONE_RESET, ZONE_OFFLINE and
ZONE_MANAGEMENT_RECEIVE; the actions themselves serve reels too (R298). -/

namespace Sys2Proof.Machine

/-- The management actions of R66. -/
inductive ZAct where
  | open_ | close | finish | reset | offline
deriving DecidableEq, Repr

/-- Zone state values of the Zoned Namespace command set (R90). -/
def ZState.code : ZState → Nat
  | .empty => 0x1 | .implicitOpen => 0x2 | .explicitOpen => 0x3 | .closed => 0x4 | .readOnly => 0xD | .full => 0xE
  | .offline => 0xF

/-- Number of an action between two modules. -/
def ZAct.num : ZAct → Nat
  | .open_ => 0 | .close => 1 | .finish => 2 | .reset => 3 | .offline => 4

/-- The kind of flight an action becomes. -/
def ZAct.kind : ZAct → FlightKind
  | .open_ => .open_ | .close => .close | .finish => .finish | .reset => .reset | .offline => .offline_

/-- R66 gives the action a transition from this state. -/
def ZAct.from_ : ZAct → ZState → Bool
  | .open_, st => decide (st = .empty ∨ st = .implicitOpen ∨ st = .explicitOpen ∨ st = .closed)
  | .close, st => decide (st = .implicitOpen ∨ st = .explicitOpen ∨ st = .closed)
  | .finish, st => decide (st ≠ .readOnly ∧ st ≠ .offline)
  | .reset, st => decide (st ≠ .readOnly ∧ st ≠ .offline)
  | .offline, st => decide (st = .readOnly)

namespace State

/-- What refuses an action on a zone: no transition, or an open check of R65. -/
def zoneRefusal (s : State) (z : Nat) (a : ZAct) : Option Status :=
  let st := (s.zone z).state
  if !a.from_ st then some .invalidTransition
  else if a = .open_ ∧ (st = .empty ∨ st = .closed) then s.openCheck z (decide (st = .empty)) (s.defaultDirect z)
  else Option.none

/-- Open takes effect (R57, R66). -/
def openZone (s : State) (z : Nat) : State :=
  if (s.zone z).state = .empty then (s.leaveEmpty z .explicitOpen).journal
  else (s.setZone z { s.zone z with state := .explicitOpen }).journal

/-- Close takes effect: Empty where nothing was written (R71). -/
def closeZone (s : State) (z : Nat) : State :=
  let v := s.zone z
  if v.state = .explicitOpen ∧ v.wp = 0 then s.emptyZone z else (s.setZone z { v with state := .closed }).journal

/-- Relocations and rebuilds of a zone are abandoned. -/
def dropMoves (s : State) (z : Nat) : State :=
  let targets := (s.fls.relocs.filter (fun r => decide (r.zone = z))).map (fun r => (r.dstDie, r.dstBlock))
    ++ (s.fls.rebuild.filter (fun r => decide (r.zone = z))).filterMap (·.target)
  let s1 := { s with fls := { s.fls with relocs := s.fls.relocs.filter (fun r => decide (r.zone ≠ z))
                                         rebuild := s.fls.rebuild.filter (fun r => decide (r.zone ≠ z)) } }
  targets.foldl (fun t m => t.deferErase m.1 m.2 .zone) s1

/-- Offline takes effect: the blocks are released (R67). -/
def offlineZone (s : State) (z : Nat) : State :=
  let t := (s.releaseBlocks z).dropMoves z
  (t.setZone z { t.zone z with state := .offline, members := [], failed := [] }).journal

/-- Finish is admitted: the zone is Full, its data end is the write pointer it held, and its rows are complete (R68, R69); one
that was Empty leaves Empty with its mode latched (R61). -/
def finishZone (s : State) (z cls : Nat) : State :=
  let v := s.zone z
  if v.state = .full then s
  else if v.state = .empty then
    (s.setZone z { v with state := .full, direct := s.defaultDirect z, wp := v.cap, dataEnd := some 0 }).journal
  else
    let s1 := s.setZone z { v with state := .full, wp := v.cap, dataEnd := some v.wp, finishing := true, beforeFull := Option.none }
    let rows := if v.direct then [] else
      (List.range ((v.wp + rowUnits - 1) / rowUnits)).filter (fun r => decide (v.wp / rowUnits ≤ r))
    let s2 := rows.foldl (fun t r => t.setRow z r { t.row z r with foldableAt := t.now }) s1
    (s2.issueDirect z cls).journal

/-- A management flight ends with a status. -/
def endZone (s : State) (v : Flight) (st : Status) : State := (s.removeFlight v).postFlight { v with status := st }

/-- Carries out an action for a flight that has been added: at once, or when what comes before it is done. -/
def zoneAct (s : State) (v : Flight) (z : Nat) (a : ZAct) : State :=
  match s.pairGate z with
  | .error st => s.endZone v st
  | .ok mirror => match s.zoneRefusal z a with
    | some st => s.endZone v st
    | Option.none =>
      let s1 := ((s.setFlight { v with mirrorWait := mirror }).noteWritten z).tellPeer z v.cls a.num 0
      match a with
      | .open_ => if mirror then s1 else (s1.openZone z).endZone v .success
      | .close => if mirror then s1 else (s1.closeZone z).endZone v .success
      | .offline => if mirror then s1 else (s1.offlineZone z).endZone v .success
      | .finish =>
        if (s.zone z).state = .empty ∨ (s.zone z).state = .full then
          if mirror then s1.finishZone z v.cls else (s1.finishZone z v.cls).endZone v .success
        else (s1.finishZone z v.cls).settleZones z
      | .reset => s1.settleZones z

/-- A Select All command: every zone with a transition, one flight each; success even with none (R73). -/
def zoneAll (s : State) (h : HostCmd) (t : IoTarget) (a : ZAct) : State :=
  let zs := ((List.range (s.spaceZones t.ns)).filterMap (s.spaceZone t.ns)).filter (fun z => a.from_ (s.zone z).state)
  if zs.isEmpty then s.done h 0
  else
    let first := s.car.nextFlight
    let s1 := zs.foldl (fun (u : State) (z : Nat) =>
      u.addFlight { u.newFlight h a.kind t.carriage t.cls (some z) with group := true }) s
    (zs.mapIdx (fun i z => (first + i, z))).foldl (fun (u : State) (p : Nat × Nat) => match u.flight p.1 with
      | some v => u.zoneAct v p.2 a
      | Option.none => u) s1

/-- One zone descriptor of a report (R56, R602): type, state, attributes, ZCAP, ZSLBA and write pointer; the layout is that
of the Zoned Namespace command set. PRESUMED (log 21). -/
def zoneDescriptor (s : State) (n : NsEntry) (z : Nat) : List Byte :=
  let v := s.zone z
  let base := s.zoneSlba n z
  [2, BitVec.ofNat 8 (v.state.code * 16), if v.reduced then 1 else 0] ++ List.replicate 5 0 ++
    leBytes 8 (v.cap / n.unitsPerLba) ++ leBytes 8 base ++ leBytes 8 (base + v.wp / n.unitsPerLba) ++ List.replicate 32 0

/-- The state a reporting option selects: 0 every zone; none where the option is not defined. PRESUMED (log 21). -/
def reportState (option_ : Nat) : Option (Option ZState) :=
  match option_ with
  | 0 => some Option.none
  | 1 => some (some .empty) | 2 => some (some .implicitOpen) | 3 => some (some .explicitOpen) | 4 => some (some .closed)
  | 5 => some (some .full) | 6 => some (some .readOnly) | 7 => some (some .offline)
  | _ => Option.none

/-- The zone report from zone number `i` of a namespace on, cut to the buffer. -/
def zoneReport (s : State) (n : NsEntry) (i : Nat) (want : Option ZState) (bytes : Nat) (partial_ : Bool) : List Byte :=
  let zs := (((List.range (s.spaceZones n)).drop i).filterMap (s.spaceZone n)).filter (fun z =>
    want.all (fun st => decide ((s.zone z).state = st)))
  let shown := zs.take ((bytes - 64) / 64)
  let count := if partial_ then shown.length else zs.length
  (leBytes 8 count ++ List.replicate 56 0 ++ shown.flatMap (s.zoneDescriptor n)).take bytes

end State

/-- A Zone Management Send command (R66, R73): without Select All its LBA must be a ZSLBA. -/
def zoneSend (name : String) (a : ZAct) (h : HostCmd) (slba : Nat) (all : Bool) (s : State) : Out :=
  let lba := if all then 0 else slba
  onZoneQueue name h lba s (fun s => s.onZone h lba true true .invalidOpcode (fun s t z =>
    if all then s.zoneAll h t a
    else if t.unit ≠ 0 then s.fail h .invalidField
    else
      let v := s.newFlight h a.kind t.carriage t.cls (some z)
      (s.addFlight v).zoneAct v z a))

/-- ZONE_OPEN (R65, R66). -/
def execZoneOpen (h : HostCmd) (slba : Nat) (all : Bool) (s : State) : Out := zoneSend "ZONE_OPEN" .open_ h slba all s

/-- ZONE_CLOSE (R66, R71). -/
def execZoneClose (h : HostCmd) (slba : Nat) (all : Bool) (s : State) : Out := zoneSend "ZONE_CLOSE" .close h slba all s

/-- ZONE_FINISH (R68, R69). -/
def execZoneFinish (h : HostCmd) (slba : Nat) (all : Bool) (s : State) : Out := zoneSend "ZONE_FINISH" .finish h slba all s

/-- ZONE_RESET (R62, R70). -/
def execZoneReset (h : HostCmd) (slba : Nat) (all : Bool) (s : State) : Out := zoneSend "ZONE_RESET" .reset h slba all s

/-- ZONE_OFFLINE (R67). -/
def execZoneOffline (h : HostCmd) (slba : Nat) (all : Bool) (s : State) : Out := zoneSend "ZONE_OFFLINE" .offline h slba all s

/-- ZONE_MANAGEMENT_RECEIVE (R56, R602): the zone report; an extended report is refused. -/
def execZoneManagementReceive (h : HostCmd) (slba action option_ bytes : Nat) (partial_ : Bool) (s : State) : Out :=
  onIo "ZONE_MANAGEMENT_RECEIVE" h s (fun s => s.onZone h slba false false .invalidOpcode (fun s t _ =>
    match State.reportState option_ with
    | none => s.fail h .invalidField
    | some want =>
      if action ≠ 0 ∨ State.mdtsUnits * 4096 < bytes then s.fail h .invalidField
      else (s.emit (.data h (s.zoneReport t.ns (slba / t.ns.zsze) want bytes partial_))).done h 0))

end Sys2Proof.Machine
end

