-- ==== Sys2Proof/Machine/CouplerOps.lean ====
section
/-! DEFINITION. The coupler: links and their replay buffers, membership and quorum, mirror pairs, what a neighbour asks of
this module, and the exchange of time (R519 to R542). -/

namespace Sys2Proof.Machine

namespace State

/-! ### Links (R520 to R522) -/

/-- A coupler port. -/
def cplPort (s : State) (p : Nat) : CplPort := (s.cpl.ports[p]?).getD CplPort.reset

/-- Writes a coupler port. -/
def setCplPort (s : State) (p : Nat) (v : CplPort) : State :=
  { s with cpl := { s.cpl with ports := modAt s.cpl.ports p (fun _ => v) } }

/-- The coupler works: the P unit is there and the module is awake. -/
def coupled (s : State) : Bool := s.part.coupler && s.awake

/-- The cable of a port is present (R446). -/
def mated (s : State) (p : Nat) : Bool := (s.pins.cable[p]?).getD false

/-- Ports with a link up. -/
def portsUp (s : State) : List Nat := (List.range 4).filter (fun p => (s.cplPort p).up)

/-- Sends `n` flits again on port `p`. -/
def resend (s : State) (p : Nat) (l : List Nat) : State := l.foldl (fun t n => t.emit (.flit p n)) s

/-- The link of a port goes down and retrains: what was not acknowledged goes out on another link to the same neighbour,
where one is up (R520). -/
def linkDown (s : State) (p cause : Nat) : State :=
  let v := s.cplPort p
  let t := (s.setCplPort p { v with state := 1, downs := v.downs + 1, replays := 0, replayBuf := [], sendQueue := [] }).event 0x0E01 2
    srcCoupler 0 [p, cause]
  match t.linkTo v.peer with
  | some q => v.sendQueue.foldl (fun (u : State) w => u.sendOn q w.rank w.out)
      (v.replayBuf.foldl (fun (u : State) _ => (u.pushFlit q).emit (.flit q (u.cplPort q).nextFlit)) t)
  | Option.none => t

/-- Acknowledges the flits of a port up to number `n`; what waits for the room is sent (R520, R522). -/
def ackFlits (s : State) (p n : Nat) : State :=
  let v := s.cplPort p
  let rest := v.replayBuf.filter (fun x => decide (n < x))
  (s.setCplPort p { v with replayBuf := rest, replays := if rest = v.replayBuf then v.replays else 0 }).sendWaiting p

/-- A flit of a port is negatively acknowledged: it and every later one are sent again, in order; the ninth time, the link
goes down (R520). -/
def nakFlit (s : State) (p n : Nat) : State :=
  let v := s.cplPort p
  let rest := v.replayBuf.filter (fun x => decide (n ≤ x))
  let again := if rest = v.replayBuf then v.replays else 0
  if rest.isEmpty then s
  else if 8 ≤ again then (s.setCplPort p { v with replayBuf := rest }).linkDown p 0
  else (s.setCplPort p { v with replayBuf := rest, replays := again + 1, retries := satAdd 0xFFFF v.retries rest.length }).resend p rest

/-- The ends of a link exchange their hello (R521). -/
def linkTrained (s : State) (p peer peerPort lanes : Nat) : State :=
  let v := s.cplPort p
  if peer = s.pins.modIdStrap then
    (s.setCplPort p { v with state := 5, peer := peer, peerPort := peerPort, replays := 0 }).event 0x0E09 4 srcCoupler 0 [p]
  else
    (s.setCplPort p { v with state := if lanes = 4 then 2 else 3, peer := peer, peerPort := peerPort, replays := 0 }).event
      0x0E00 0 srcCoupler 0 [p, peer, lanes]

/-! ### Members and quorum (R524 to R526) -/

/-- Bit of a module. -/
def memberBit (m : Nat) : BitVec 8 := BitVec.ofNat 8 (2 ^ m)

/-- Sets or clears the bit of a module in a mask. -/
def setMember (v : BitVec 8) (m : Nat) (b : Bool) : BitVec 8 := if b then v ||| memberBit m else v &&& ~~~(memberBit m)

/-- The configured members, this module among them (R540). -/
def members (s : State) : BitVec 8 := setMember s.cpl.membersCfg s.pins.modIdStrap true

/-- Bits set in a mask. -/
def bitCount (v : BitVec 8) : Nat := ((List.range 8).filter (fun i => v.getLsbD i)).length

/-- The module holds quorum (R525). -/
def holdsQuorum (s : State) : Bool :=
  let cfg := s.members
  let seen := cfg &&& setMember s.cpl.membersSeen s.pins.modIdStrap true
  let lowest := (List.range 8).find? (fun i => cfg.getLsbD i)
  decide (bitCount cfg < 2 * bitCount seen) ||
    (decide (bitCount cfg = 2 * bitCount seen) && lowest.any (fun i => seen.getLsbD i))

/-- Compartment of a placement group. -/
def pgroupComp (s : State) (p : Nat) : Nat :=
  match s.pgroup p with
  | some g => g.comp
  | Option.none => 0

/-- Rewrites the pair of a placement group. -/
def setPair (s : State) (x : Pair) : State :=
  { s with cpl := { s.cpl with pairs := s.cpl.pairs.map (fun y => if y.pgroup = x.pgroup then x else y) } }

/-- The side of a pair takes a role (R533, R535). -/
def setRole (s : State) (x : Pair) (r : PairRole) : State := s.setPair { x with role := r, changed := s.now }

/-- Flights that wait for the other side of a pair. -/
def waitingOn (s : State) (p : Nat) : List Flight :=
  s.car.flights.filter (fun v => v.mirrorWait && (match v.zone with
    | some z => decide (s.groupPgroup (z / 5000) = some p)
    | Option.none => false))

/-- A zone action of a pair takes effect, now that both sides can make it (R529). -/
def confirmZone (s : State) (v : Flight) : State :=
  match v.zone with
  | Option.none => s
  | some z =>
    let t := s.setFlight { v with mirrorWait := false }
    match v.kind with
    | .open_ => (t.openZone z).endZone v .success
    | .close => (t.closeZone z).endZone v .success
    | .offline_ => (t.offlineZone z).endZone v .success
    | _ => t.settleZones z

/-- Acknowledges the segments of a flight that only the mirror held back. -/
def ackReady (s : State) (f : Nat) : State :=
  match s.flight f with
  | Option.none => s
  | some v => (List.range v.segs.length).foldl (fun (t : State) j =>
      match (t.flight f).bind (fun w => w.segs[j]?) with
      | some g => if decide (g.step = .programming) && t.segPrograms f j then t.ackSeg f j else t
      | Option.none => t) s

/-- A command no longer waits for the other side (R533). -/
def stopWaiting (s : State) (f : Nat) : State :=
  match s.flight f with
  | Option.none => s
  | some v =>
    if isWrite v.kind then
      (s.setFlight { v with mirrorWait := false, segs := v.segs.map (fun g => { g with mirrored := true }) }).ackReady f
    else s.confirmZone v

/-- Reads that wait for the other side of a pair fail (R532). -/
def failForwarded (s : State) (p : Nat) : State :=
  ((s.car.flights.filter (fun v => v.forwarded && (match v.zone with
    | some z => decide (s.groupPgroup (z / 5000) = some p)
    | Option.none => false))).map (·.id)).foldl (fun (t : State) f => match t.flight f with
    | some v => t.endRead { v with status := .unrecoveredRead }
    | Option.none => t) s

/-- What waited for a pair's other side completes: once this side has acknowledged it where `go`, else with Namespace Not
Ready (R533). -/
def settlePair (s : State) (p : Nat) (go : Bool) : State :=
  ((s.waitingOn p).map (·.id)).foldl (fun (t : State) f =>
    if go then t.stopWaiting f
    else match t.flight f with
      | some v => t.killFlight v .namespaceNotReady
      | Option.none => t) (s.failForwarded p)

/-- Promote or break, for a pair whose neighbour is lost (R533). -/
def promoteOrBreak (s : State) (x : Pair) : State :=
  if !x.formed then s
  else match x.role with
    | .primary =>
      if s.cpl.quorum then
        ((s.settlePair x.pgroup true).setRole x .broken).event 0x0E05 3 srcCoupler (s.pgroupComp x.pgroup) [x.pgroup, x.peer]
      else s.settlePair x.pgroup false
    | .mirror =>
      let t := s.failForwarded x.pgroup
      if s.cpl.quorum then
        (t.setRole { x with resync := [] } .promoted).event 0x0E04 3 srcCoupler (s.pgroupComp x.pgroup) [x.pgroup, x.peer, 0]
      else t
    | .none | .promoted | .broken | .superseded => s

/-- Promotes or breaks the pairs whose neighbour satisfies `f`. -/
def promotePairs (s : State) (f : Nat → Bool) : State :=
  (s.cpl.pairs.filter (fun x => f x.peer)).foldl (fun t x => t.promoteOrBreak x) s

/-- Quorum is judged again: event 0x0E07 with a change; once it is regained, pairs with a lost neighbour go on (R38, R525). -/
def judgeQuorum (s : State) : State :=
  let q := s.holdsQuorum
  if q = s.cpl.quorum then s
  else
    let t := ({ s with cpl := { s.cpl with quorum := q } }).event 0x0E07 4 srcCoupler 0
      [if q then 1 else 0, s.cpl.membersSeen.toNat]
    if q then t.promotePairs (fun m => t.peerLost m) else t

/-- Members that a heartbeat names are seen, but for those that are lost or have not joined yet (R524, R535). -/
def hearBeat (s : State) (sender : Nat) (sleeping : Bool) (heard : BitVec 8) : State :=
  if !s.members.getLsbD sender || s.peerLost sender || s.peerAbsent sender || decide (sender = s.pins.modIdStrap) then s
  else
    let gone := (List.range 8).foldl (fun v m => if s.peerAbsent m then setMember v m true else v) s.cpl.fenced
    let named := setMember heard sender true &&& s.members &&& ~~~gone &&& ~~~(memberBit s.pins.modIdStrap)
    ({ s with cpl := { s.cpl with membersSeen := s.cpl.membersSeen ||| named
                                  sleeping := setMember s.cpl.sleeping sender sleeping } }).judgeQuorum

/-- A member is lost (R533). -/
def loseMember (s : State) (m lastHeard : Nat) : State :=
  let s1 := ({ s with cpl := { s.cpl with
    membersSeen := setMember s.cpl.membersSeen m false, sleeping := setMember s.cpl.sleeping m false
    leads := setMember s.cpl.leads m false, locks := setMember s.cpl.locks m false
    fenced := setMember s.cpl.fenced m true, absent := setMember s.cpl.absent m false } }).event 0x0E02 3 srcCoupler 0 [m, lastHeard]
  let s2 := if s1.cpl.leaderValid && decide (s1.cpl.leader = m) then
      ({ s1 with cpl := { s1.cpl with leaderValid := false } }).chooseLeader
    else s1
  s2.judgeQuorum.promotePairs (fun x => decide (x = m))

/-- What the pairs with a member that joins again do (R535): `promoted`, its side of the placement group was promoted. -/
def rejoinPair (s : State) (x : Pair) (promoted : Bool) : State :=
  if !x.formed then s
  else match x.role with
    | .primary | .broken =>
      if promoted then s.setRole x .superseded
      else
        let y := { x with resync := (x.resync ++ x.writtenSince).dedup, writtenSince := [] }
        let t := if x.role = .broken then s.setRole y .primary else s.setPair y
        if y.resync.isEmpty then t else t.toPeer x.peer resyncRank (.resyncStart x.peer x.peerPgroup (y.resync.map t.zoneNumber))
    | .promoted => s.setRole x .broken
    | .none | .mirror | .superseded => s

/-- A lost member joins again, or one that a pair kept through a power cycle waits for (R524, R535): where its side was promoted,
what waited for it is refused. -/
def joinMember (s : State) (m : Nat) (promoted : List Nat) : State :=
  let s1 := (({ s with cpl := { s.cpl with
    membersSeen := setMember s.cpl.membersSeen m true, fenced := setMember s.cpl.fenced m false
    absent := setMember s.cpl.absent m false } }).event
      0x0E03 1 srcCoupler 0 [m]).judgeQuorum
  let s2 := if s.peerAbsent m then
      (s1.cpl.pairs.filter (fun x => decide (x.peer = m) && promoted.contains x.pgroup)).foldl (fun t x => t.settlePair x.pgroup false) s1
    else s1
  (s2.cpl.pairs.filter (fun x => decide (x.peer = m))).foldl (fun t x => t.rejoinPair x (promoted.contains x.pgroup)) s2

/-! ### Mirror operations (R527, R531, R533, R535, R541) -/

/-- Outcome of a mirror operation. -/
def mirrorAnswer (s : State) (p st : Nat) : State := { s with cpl := { s.cpl with cmdStatus := st, cmdPgroup := p } }

/-- The neighbour is a configured member reached directly. -/
def reached (s : State) (m : Nat) : Bool := s.members.getLsbD m && !s.peerLost m && (s.linkTo m).isSome

/-- Namespace of a placement group. -/
def pgroupSpace (s : State) (p : Nat) : Option NsEntry := ((s.pgroup p).bind (fun g => g.nsid)).bind s.space

/-- Zones of a placement group that are not Empty. -/
def usedZones (s : State) (p : Nat) : List Nat :=
  (s.zns.zones.filter (fun e => decide (e.2.state ≠ .empty) && decide (s.groupPgroup (e.1 / 5000) = some p))).map (·.1)

/-- The two namespaces match: both there, one LBA format, and as many zones on the mirror as on the primary (R527). -/
def spacesMatch (s : State) (m : MirrorArgs) (mirror : Bool) : Bool :=
  match s.pgroupSpace m.pgroup, m.peerNs with
  | some n, some (_, lba16, zones) =>
    decide (n.lba16 = lba16) && (if mirror then decide (zones ≤ s.spaceZones n) else decide (s.spaceZones n ≤ zones))
  | _, _ => false

/-- Runs a mirror operation unless another one runs. -/
def mirrorOp (s : State) (p : Nat) (f : State → State) : State :=
  if s.cpl.cmdDone then f s else s.mirrorAnswer p 4

/-- A pair is formed: a primary resyncs every zone that is not Empty (R527). -/
def formPair (s : State) (x : Pair) : State :=
  let zs := if x.role = .primary then s.usedZones x.pgroup else []
  let t := s.setPair { x with formed := true, resync := zs, changed := s.now }
  if zs.isEmpty then t else t.toPeer x.peer resyncRank (.resyncStart x.peer x.peerPgroup (zs.map t.zoneNumber))

/-- Bind. -/
def mirrorBind (s : State) (m : MirrorArgs) : State :=
  s.mirrorOp m.pgroup (fun s =>
    if !s.reached m.peer then s.mirrorAnswer m.pgroup 2
    else if !s.spacesMatch m m.mirrorRole then s.mirrorAnswer m.pgroup 3
    else if (s.pairOf m.pgroup).any (fun (x : Pair) => x.formed) then s.mirrorAnswer m.pgroup 1
    else
      let x : Pair := {
        pgroup := m.pgroup, peer := m.peer, peerPgroup := m.peerPgroup, role := if m.mirrorRole then .mirror else .primary
        formed := false, owner := m.owner, changed := s.now, resync := [], writtenSince := []
        peerNsid := match m.peerNs with
          | some (n, _, _) => n
          | Option.none => 0 }
      let s1 : State := { s with cpl := { s.cpl with
        pairs := s.cpl.pairs.filter (fun (y : Pair) => decide (y.pgroup ≠ m.pgroup)) ++ [x] } }
      let s2 := s1.toPeer m.peer 0 (.bindTold m.peer m.pgroup m.peerPgroup)
      (if m.peerBound then s2.formPair x else s2).mirrorAnswer m.pgroup 0)

/-- A pair, or a bind that waits, is gone; what waited for it goes on (R535). -/
def dropPair (s : State) (p : Nat) : State :=
  let t := s.settlePair p true
  { t with cpl := { t.cpl with pairs := t.cpl.pairs.filter (fun (y : Pair) => decide (y.pgroup ≠ p)) } }

/-- Unbind. -/
def mirrorUnbind (s : State) (m : MirrorArgs) : State :=
  s.mirrorOp m.pgroup (fun s => match s.pairOf m.pgroup with
    | Option.none => s.mirrorAnswer m.pgroup 1
    | some x => ((s.dropPair m.pgroup).toPeer x.peer 0 (.unbindTold x.peer x.peerPgroup)).mirrorAnswer m.pgroup 0)

/-- Promote, whatever the quorum (R533). -/
def mirrorPromote (s : State) (m : MirrorArgs) : State :=
  s.mirrorOp m.pgroup (fun s => match s.pairOf m.pgroup with
    | some x =>
      if x.formed && decide (x.role = .mirror) then
        ((s.setRole { x with resync := [] } .promoted).event 0x0E04 3 srcCoupler (s.pgroupComp m.pgroup)
          [m.pgroup, x.peer, 1]).mirrorAnswer m.pgroup 0
      else s.mirrorAnswer m.pgroup 1
    | Option.none => s.mirrorAnswer m.pgroup 1)

/-- Resync, on the primary (R531). -/
def mirrorResync (s : State) (m : MirrorArgs) : State :=
  s.mirrorOp m.pgroup (fun s => match s.pairOf m.pgroup with
    | some x =>
      if !(x.formed && decide (x.role = .primary)) then s.mirrorAnswer m.pgroup 1
      else if !s.reached x.peer then s.mirrorAnswer m.pgroup 2
      else (s.formPair x).mirrorAnswer m.pgroup 0
    | Option.none => s.mirrorAnswer m.pgroup 1)

/-- Copy zone (R531, R371): it runs until RESYNC_COMPLETE. -/
def mirrorCopy (s : State) (m : MirrorArgs) : State :=
  s.mirrorOp m.pgroup (fun s =>
    if !s.reached m.peer then s.mirrorAnswer m.pgroup 2
    else if !s.spacesMatch m false then s.mirrorAnswer m.pgroup 3
    else match (s.pgroupSpace m.pgroup).bind (fun n => if m.zone < s.spaceZones n then s.spaceZone n m.zone else Option.none) with
      | Option.none => s.mirrorAnswer m.pgroup 3
      | some z =>
        ({ s with cpl := { s.cpl with copies := s.cpl.copies ++ [(m.pgroup, m.peer, m.peerPgroup, z)], cmdDone := false } }).mirrorAnswer
          m.pgroup 0)

/-- Query. -/
def mirrorQuery (s : State) (m : MirrorArgs) : State := s.mirrorOp m.pgroup (fun s => s.mirrorAnswer m.pgroup 0)

/-- The data of a zone up to its write pointer, in runs of units under one key (R531, R559). -/
def copiedUnits (s : State) (z : Nat) : List (Nat × List Byte) :=
  match (s.zoneNsid z).bind (fun m => (s.space m).map (fun n => (m, n))) with
  | Option.none => []
  | some (m, n) =>
    let key := fun (u : Nat) => match s.zoneTag z u with
      | some t => t.key
      | Option.none => 0
    let runs := ((List.range (s.zone z).wp).map (fun u => (key u, u))).splitBy (fun a b => decide (a.1 = b.1))
    runs.filterMap (fun r => r.head?.map (fun a =>
      (a.1, r.flatMap (fun b => s.zoneUnit m (s.zoneSlba n z * n.unitsPerLba) z b.2 b.1))))

/-- Sends a zone as it stands to a neighbour, data and all (R531). -/
def copyZone (s : State) (peer rank z : Nat) : State :=
  let v := s.zone z
  s.toPeer peer rank (.zoneCopy peer (s.zoneNumber z) v.state.code v.wp v.cap (s.copiedUnits z))

/-- The copies of a placement group are complete; none where none runs (R531). -/
def resyncDone (s : State) (p : Nat) : Option State :=
  match (s.pairOf p).filter (fun (x : Pair) => x.formed && !x.resync.isEmpty) with
  | some x =>
    let s1 := if x.role = .primary then x.resync.foldl (fun t z => t.copyZone x.peer resyncRank z) s else s
    some ((s1.setPair { x with resync := [] }).event 0x0E06 1 srcCoupler (s.pgroupComp p) [p, x.resync.length])
  | Option.none => match s.cpl.copies.find? (fun c => decide (c.1 = p)) with
    | some c =>
      let s1 := s.copyZone c.2.1 (classRank 2) c.2.2.2
      some (({ s1 with cpl := { s1.cpl with copies := s1.cpl.copies.erase c, cmdDone := true, cmdStatus := 0 } }).event
        0x0E06 1 srcCoupler (s.pgroupComp p) [p, 1])
    | Option.none => Option.none

/-! ### What a neighbour asks (R528 to R532) -/

/-- A formed pair of this module with the neighbour. -/
def pairWith (s : State) (peer p : Nat) : Option Pair :=
  (s.pairOf p).filter (fun (x : Pair) => x.formed && decide (x.peer = peer) && !s.peerLost peer)

/-- Zone `i` of the namespace on a placement group. -/
def pgroupZone (s : State) (p i : Nat) : Option Nat :=
  (s.pgroupSpace p).bind (fun n => if i < s.spaceZones n then s.spaceZone n i else Option.none)

/-- The command of a neighbour, in place of a host's. -/
def peerCmd (s : State) (p : Nat) : HostCmd :=
  { port := 0, comp := s.pgroupComp p, qid := 0, cid := 0, nsid := ((s.pgroup p).bind (fun g => g.nsid)).getD 0,
    fused := false, rsvd := false }

/-- Some die of the zone's stripe group has no spare (R530). -/
def noSpareFor (s : State) (z : Nat) : Bool := (groupDies (z / 5000)).any (fun d => decide (s.spares d = 0))

/-- The zone leaves Empty with the write mode latched on the primary (R528). -/
def leaveEmptyAs (s : State) (z : Nat) (st : ZState) (direct : Bool) : State :=
  let t := s.leaveEmpty z st
  t.setZone z { t.zone z with direct := direct }

/-- The mirror zone takes `n` units at unit `a`: at its write pointer, or anywhere while the zone is being copied. -/
def admitMirror (s : State) (z a n : Nat) (direct copying : Bool) : Except Status State :=
  let v := s.zone z
  if v.state = .readOnly then .error .zoneReadOnly
  else if v.state = .offline then .error .zoneOffline
  else if v.cap < a + n then .error .zoneBoundary
  else if v.state = .full ∧ !copying then .error .zoneFull
  else if a ≠ v.wp ∧ !copying then .error .zoneInvalidWrite
  else if v.state = .empty ∧ s.noSpareFor z then .error (.vendor 0x86)
  else
    let s1 := if v.state = .empty then s.leaveEmptyAs z .implicitOpen direct else s
    if copying then
      let w := s1.zone z
      .ok ((s1.setZone z { w with wp := max w.wp (a + n) }).journal)
    else .ok ((s1.advanceWp z n (openedBy v.state)).journal)

/-- A mirrored segment that has its grant is stored, and twinned or programmed (R528). -/
def stageMirrored (s : State) (f : Nat) : State :=
  match s.flight f with
  | Option.none => s
  | some v => match v.segs[0]? with
    | some g => if decide (g.step = .granted) && s.frontReady v g then (s.transferSeg v 0 g v.data []).getD s else s
    | Option.none => s

/-- A mirrored segment arrives (R528, R530, R531); none where it cannot. -/
def mirrorSegment (s : State) (peer p zoneNo start key : Nat) (data : List Byte) (direct : Bool) (cls : Nat) : Option State :=
  let n := data.length / 4096
  if n = 0 ∨ 64 < n ∨ data.length % 4096 ≠ 0 then Option.none
  else if s.peerLost peer then some s
  else
    let pair := s.pairWith peer p
    let copy := (s.pairOf p).isNone && s.reached peer
    match s.pgroupZone p zoneNo with
    | Option.none => Option.none
    | some z =>
      if !(pair.any (fun (x : Pair) => decide (x.role = .mirror)) || copy) then Option.none
      else
        let copying := copy || pair.any (fun (x : Pair) => x.resync.contains z)
        let owner := match pair with
          | some x => x.owner
          | Option.none => 0
        match s.admitMirror z start n direct copying with
        | .error st => some (s.toPeer peer (classRank cls) (.mirrorAck peer zoneNo start st.code))
        | .ok s1 =>
          let v := { s1.newFlight (s1.peerCmd p) .write 0 (classOf cls) (some z) with
            start := start, len := n, key := key, segs := segsOf n, data := data, peer := some (peer, owner) }
          let s2 := s1.addFlight v
          some (if s2.nextGrant = some (v.id, 0) then (s2.grantSeg v 0 128).stageMirrored v.id else s2)

/-- A zone action arrives from the other side of a pair (R529, R530). -/
def mirrorZoneAct (s : State) (peer p zoneNo act wp : Nat) : State :=
  match s.pairWith peer p, s.pgroupZone p zoneNo with
  | some x, some z =>
    if act = 5 then s.reduceTo z (min wp (s.zone z).acked)
    else if x.role ≠ .mirror then s
    else
      let say := fun (t : State) (st : Status) => t.toPeer peer (classRank 2) (.mirrorAck peer zoneNo 0 st.code)
      let a : ZAct := match act with
        | 0 => .open_ | 1 => .close | 2 => .finish | 3 => .reset | _ => .offline
      if !a.from_ (s.zone z).state then say s .invalidTransition
      else
        let v := { s.newFlight (s.peerCmd p) a.kind 0 2 (some z) with peer := some (peer, x.owner) }
        match a with
        | .open_ =>
          if (s.zone z).state = .empty then
            if s.noSpareFor z then say s (.vendor 0x86)
            else say ((s.leaveEmptyAs z .explicitOpen (decide (wp = 1))).journal) .success
          else say (s.openZone z) .success
        | .close => say (s.closeZone z) .success
        | .offline => say (s.offlineZone z) .success
        | .finish =>
          let t := (s.addFlight v).finishZone z 2
          if (s.zone z).state = .empty ∨ (s.zone z).state = .full then t.endZone v .success else t.settleZones z
        | .reset => (s.addFlight v).settleZones z
  | _, _ => s

/-- The answer to a read that was forwarded (R532); a record that came so is checked and decoded as any other (R253, R254). -/
def readReply (s : State) (f : Nat) (ok : Bool) (data : List Byte) : State :=
  match s.flight f with
  | some v =>
    if v.forwarded && decide (v.kind = .frameRead) then
      (if ok then (s.setFlight { v with forwarded := false, status := .success, senses := [], data := data }).settleCodec
       else ((s.endFrameRead v .unrecoveredRead 0).settleCodec).releaseLeft)
    else if v.forwarded then
      (if ok then s.endRead { v with status := .success, data := data } else s.endRead { v with status := .unrecoveredRead }).releaseLeft
    else s
  | Option.none => s

/-- The bytes of units of a zone under the keys that they were written with (R559). -/
def sealedUnits (s : State) (nsid : Nat) (n : NsEntry) (z u k : Nat) : List Byte :=
  (List.range k).flatMap (fun i =>
    let key := match s.zoneTag z (u + i) with
      | some t => t.key
      | Option.none => 0
    s.zoneUnit nsid (s.zoneSlba n z * n.unitsPerLba) z (u + i) key)

/-- A forwarded read is served from the local copy, in its class (R532); none where it cannot arrive. -/
def serveForwarded (s : State) (peer p zoneNo start len cls : Nat) : Option State :=
  match s.pairWith peer p, s.pgroupZone p zoneNo, s.pgroupSpace p with
  | some _, some z, some n =>
    let h := s.peerCmd p
    let lost := (List.range len).any (fun i => s.mem.bad.contains (.zoneData z (start + i)) && decide (s.unitPlace z (start + i) = .dram))
    let v := { s.newFlight h .read 0 (classOf cls) (some z) with
      start := start, len := len, data := s.sealedUnits h.nsid n z start len, senses := s.sensesOf (some z) start len
      status := if lost || decide ((s.zone z).state = .offline) then .unrecoveredRead else .success, peer := some (peer, 0) }
    some (((s.addFlight v).scheduleSenses v.id).settleRead v.id)
  | _, _, _ => Option.none

/-- The mirror confirms or refuses a segment or a zone action (R529, R530); none where nothing waits for it. -/
def mirrorAcked (s : State) (f j st : Nat) : Option State :=
  match s.flight f with
  | Option.none => Option.none
  | some v =>
    if !v.mirrorWait then Option.none
    else if isWrite v.kind then
      match v.segs[j]? with
      | Option.none => Option.none
      | some _ =>
        if st = 0 then some ((s.setSeg f j (fun g => { g with mirrored := true })).ackReady f)
        else
          let t := s.killFlight v (.vendor st)
          some (match v.zone with
            | some z => if (t.zone z).wp = 0 ∧ (t.zone z).state = .implicitOpen then t.emptyZone z else t
            | Option.none => t)
    else if st = 0 then some (s.confirmZone v)
    else some (s.endZone v (.vendor st))

/-! ### Flits (R519 to R522, R533) -/

/-- A flit that asks something of the module, beyond the link's own business, heartbeats, membership and time (R522, R526). -/
def asksPeer : Flit → Bool
  | .zoneAction .. | .bindAgrees .. | .unbound .. | .resync .. | .readReply .. => true
  | .corrupt | .ack _ | .nak _ | .heartbeat .. | .idle | .timeStatus .. => false

/-- A flit that arrives on a port: none of a fenced member's counts (R533). -/
def takeFlit (s : State) (p : Nat) (f : Flit) : State :=
  if s.peerLost (s.cplPort p).peer then s
  else match f with
    | .corrupt => s.emit (.nak p)
    | .ack n => s.ackFlits p n
    | .nak n => s.nakFlit p n
    | .heartbeat m sl heard => s.hearBeat m sl heard
    | .idle => s
    | .zoneAction peer q zoneNo act wp => s.mirrorZoneAct peer q zoneNo act wp
    | .bindAgrees peer q => match (s.pairOf q).filter (fun (x : Pair) => !x.formed && decide (x.peer = peer)) with
      | some x => s.formPair x
      | Option.none => s
    | .unbound peer q => if (s.pairOf q).any (fun (x : Pair) => decide (x.peer = peer)) then s.dropPair q else s
    | .resync peer q zones => match s.pairWith peer q with
      | some x => if x.role = .mirror then s.setPair { x with resync := zones.filterMap (s.pgroupZone q) } else s
      | Option.none => s
    | .readReply fl ok data => s.readReply fl ok data
    | .timeStatus m leads locked =>
      if s.members.getLsbD m && decide (m ≠ s.pins.modIdStrap) then
        ({ s with cpl := { s.cpl with leads := setMember s.cpl.leads m leads, locks := setMember s.cpl.locks m locked } }).chooseLeader
      else s

/-! ### Time (R537, R538) -/

/-- The error of an exchange: how far `TIM_NOW` is ahead of the leader, the cable taken as symmetric (R537). -/
def exchangeErr (t1 t2 t3 t4 : Nat) : Int := (((t1 : Int) - t2) + ((t4 : Int) - t3)) / 2

/-- The error of an exchange is applied where the coupler's leader is the source (R495, R538). -/
def followLeader (s : State) (err : Int) (seconds : Nat) (suspect : Bool) : State :=
  let s1 : State := { s with tim := { s.tim with source := 3, disciplinedAt := s.now, ptmOffset := Option.none } }
  let s2 := if err.natAbs ≤ 1000 then { s1 with tim := { s1.tim with slew := err, slewPhase := 0 } }
    else s1.stepTime ((s1.now : Int) - err).toNat
  let s3 := if s2.now / 1000000000 = seconds then s2 else s2.stepTime (seconds * 1000000000 + s2.now % 1000000000)
  { s3 with tim := { s3.tim with secSuspect := suspect } }

end State

end Sys2Proof.Machine
end

