-- ==== Sys2Proof/Machine/Coupler.lean ====
section
/-! DEFINITION. The commands of the coupler: links, members, mirror pairs and time (R519 to R542). -/

namespace Sys2Proof.Machine

/-- A write of `CPL_MIRROR_CMD`: ignored without the P unit (R10). -/
def State.mirrorCommand (name : String) (s t : State) : Out := if s.part.coupler then arises s.awake name t else .next s

/-- MIRROR_BIND (R527, R541). -/
def execMirrorBind (m : MirrorArgs) (s : State) : Out := State.mirrorCommand "MIRROR_BIND" s (s.mirrorBind m)

/-- MIRROR_UNBIND (R535, R541). -/
def execMirrorUnbind (m : MirrorArgs) (s : State) : Out := State.mirrorCommand "MIRROR_UNBIND" s (s.mirrorUnbind m)

/-- MIRROR_PROMOTE (R533, R541). -/
def execMirrorPromote (m : MirrorArgs) (s : State) : Out := State.mirrorCommand "MIRROR_PROMOTE" s (s.mirrorPromote m)

/-- MIRROR_RESYNC (R531, R541). -/
def execMirrorResync (m : MirrorArgs) (s : State) : Out := State.mirrorCommand "MIRROR_RESYNC" s (s.mirrorResync m)

/-- MIRROR_COPY_ZONE (R371, R531, R541). -/
def execMirrorCopyZone (m : MirrorArgs) (s : State) : Out := State.mirrorCommand "MIRROR_COPY_ZONE" s (s.mirrorCopy m)

/-- MIRROR_QUERY (R541). -/
def execMirrorQuery (m : MirrorArgs) (s : State) : Out := State.mirrorCommand "MIRROR_QUERY" s (s.mirrorQuery m)

/-- RESYNC_COMPLETE (R531): `resync_left` reaches 0. -/
def execResyncComplete (pgroup : Nat) (s : State) : Out :=
  match s.resyncDone pgroup with
  | some t => arises s.coupled "RESYNC_COMPLETE" t
  | none => cannot "RESYNC_COMPLETE"

/-- Traffic on a link that is up: the module takes it while it is awake; in Sleep and Deep Sleep what asks something of it is
wake source 7 and waits, sent again, for the wake, and the rest has no effect (R482, R526). -/
def State.traffic (name : String) (s : State) (link asks : Bool) (t : Out) : Out :=
  if s.coupled then t
  else match s.pwr.pstate with
    | .asleep .sleep | .asleep .deep =>
      arises (s.part.coupler && link) name (if asks then (s.wakeFired 0x80).getD s else s)
    | _ => cannot name

/-- FLIT_RECEIVED (R519, R520, R524, R533). -/
def execFlitReceived (port : Nat) (f : Flit) (s : State) : Out :=
  let up := (s.cplPort port).up
  State.traffic "FLIT_RECEIVED" s up (State.asksPeer f) (arises up "FLIT_RECEIVED" (s.takeFlit port f))

/-- LINK_SILENCE_TIMEOUT (R520): 50 µs without a flit. -/
def execLinkSilenceTimeout (port : Nat) (s : State) : Out :=
  arises (s.coupled && (s.cplPort port).up) "LINK_SILENCE_TIMEOUT" (s.linkDown port 1)

/-- COUPLER_LINK_TRAINED (R520, R521): on four lanes, or on two. -/
def execCouplerLinkTrained (port peer peerPort lanes : Nat) (s : State) : Out :=
  arises (s.coupled && decide (port < 4) && s.mated port && decide ((s.cplPort port).state = 1) &&
      (decide (lanes = 4) || decide (lanes = 2)) && decide (peer < 8) && decide (peerPort < 4)) "COUPLER_LINK_TRAINED"
    (s.linkTrained port peer peerPort lanes)

/-- LINK_TRAINING_RETRY (R520): the link tries again, its cable being present. -/
def execLinkTrainingRetry (port : Nat) (s : State) : Out :=
  arises (s.coupled && decide (port < 4) && s.mated port && decide ((s.cplPort port).state = 1))
    "LINK_TRAINING_RETRY" (s.setCplPort port { s.cplPort port with state := 1 })

/-- HEARTBEAT_SEND (R524, R526, R533): on every link that is up, but for those to a fenced member; the health it tells is that of
`MOD_OK` (log 191). -/
def execHeartbeatSend (s : State) : Out :=
  arises s.coupled "HEARTBEAT_SEND"
    ((s.portsUp.filter (fun p => !s.peerLost (s.cplPort p).peer)).foldl (fun t p => t.sendOn p 0
      (.heartbeat p s.pins.modIdStrap s.modOk false (State.setMember s.cpl.membersSeen s.pins.modIdStrap true))) s)

/-- MEMBER_LOST (R524, R525, R533): no heartbeat has named the member for 200 µs. -/
def execMemberLost (member lastHeard : Nat) (s : State) : Out :=
  arises (s.coupled && (s.cpl.membersSeen.getLsbD member || s.peerAbsent member) && !s.cpl.sleeping.getLsbD member && decide (member ≠ s.pins.modIdStrap))
    "MEMBER_LOST" (s.loseMember member lastHeard)

/-- MEMBER_JOINED (R524, R535): its heartbeats have been heard for 1 ms; `promotedPairs` are the placement groups here whose
other side was promoted. -/
def execMemberJoined (member : Nat) (promotedPairs : List Nat) (s : State) : Out :=
  arises (s.coupled && (s.peerLost member || s.peerAbsent member) && s.members.getLsbD member) "MEMBER_JOINED" (s.joinMember member promotedPairs)

/-- SLEEP_NOTICE (R526): the member is marked sleeping and counts as seen. -/
def execSleepNotice (member : Nat) (s : State) : Out :=
  arises (s.coupled && s.members.getLsbD member && !s.peerLost member && decide (member ≠ s.pins.modIdStrap)) "SLEEP_NOTICE"
    (({ s with cpl := { s.cpl with sleeping := State.setMember s.cpl.sleeping member true
                                   membersSeen := State.setMember s.cpl.membersSeen member true } }).judgeQuorum)

/-- SLEEPING_MEMBER_TIMEOUT (R526): not heard within 5 ms after its wake was triggered. -/
def execSleepingMemberTimeout (member lastHeard : Nat) (s : State) : Out :=
  arises (s.coupled && s.cpl.sleeping.getLsbD member) "SLEEPING_MEMBER_TIMEOUT" (s.loseMember member lastHeard)

/-- MIRROR_SEGMENT (R528, R530, R531, R559): a mirrored segment arrives, enciphered under `key`. -/
def execMirrorSegment (peer pgroup zoneNo start key : Nat) (data : List Byte) (direct : Bool) (cls : Nat) (s : State) : Out :=
  State.traffic "MIRROR_SEGMENT" s (s.linkTo peer).isSome true
    (match s.mirrorSegment peer pgroup zoneNo start key data direct cls with
      | some t => arises s.serves "MIRROR_SEGMENT" t
      | none => cannot "MIRROR_SEGMENT")

/-- MIRROR_ACK (R529, R530): status 0 confirms; 0x86, the mirror's stripe group has no spare. -/
def execMirrorAck (flight seg : Nat) (status : Nat) (s : State) : Out :=
  match s.mirrorAcked flight seg status with
  | some t => arises s.coupled "MIRROR_ACK" t
  | none => cannot "MIRROR_ACK"

/-- FORWARDED_READ (R532). -/
def execForwardedRead (peer pgroup zoneNo start len cls : Nat) (s : State) : Out :=
  State.traffic "FORWARDED_READ" s (s.linkTo peer).isSome true
    (match s.serveForwarded peer pgroup zoneNo start len cls with
      | some t => arises s.serves "FORWARDED_READ" t
      | none => cannot "FORWARDED_READ")

/-- TIME_EXCHANGE (R495, R537, R538): the stamps of sending, arrival, answer and return. -/
def execTimeExchange (t1 t2 t3 t4 : Nat) (leaderSeconds : Nat) (leaderSuspect : Bool) (hops : Nat) (s : State) : Out :=
  let err := State.exchangeErr t1 t2 t3 t4
  let s0 := s.advanceTo t4
  let s1 : State := { s0 with cpl := { s0.cpl with lastErr := err, hops := hops } }
  let s2 := s.portsUp.foldl (fun (t : State) p => t.sendOn p 0 (.timeFlit p)) s1
  arises (s.coupled && s.tim.running && !s.tim.saturated && s.cpl.leaderValid && decide (s.cpl.leader ≠ s.pins.modIdStrap) &&
      decide (0 < hops) && decide (hops ≤ 7)) "TIME_EXCHANGE"
    (if !s.tim.ppsAlive then s2.followLeader err leaderSeconds leaderSuspect else s2)

end Sys2Proof.Machine
end

