-- ==== Sys2Proof/Machine/Fan.lean ====
section
/-! DEFINITION. The fan drive: the command, starts, commutation, the rail clamp and faults (R457, R511 to R516). -/

namespace Sys2Proof.Machine

/-- The two points of a fan curve: percent and °C of the first, °C of the second (R511). -/
def curvePoints : Mode → Nat × Nat × Nat
  | .galop => (35, 60, 90) | .waltz => (25, 65, 92) | .minuet => (20, 70, 95)

/-- The loop command of a curve at a temperature in °C + 40, rounded down. -/
def loopPct (m : Mode) (t : Nat) : Nat :=
  let (p, lo, hi) := curvePoints m
  if t ≤ lo + 40 then p
  else if hi + 40 ≤ t then 100
  else p + (t - 40 - lo) * (100 - p) / (hi - lo)

/-- Code of a fault in event 0x0D05 (log 26). -/
def fanCauseCode : FanFaultCause → Nat
  | .stall => 0 | .startFail => 1 | .overcurrent => 2 | .openPhase => 3 | .speedLow => 4

namespace State

/-- Output `i`. -/
def fanOut (s : State) (i : Nat) : FanOut := (s.fan.outs[i]?).getD FanOut.reset

/-- Rewrites output `i`. -/
def setFanOut (s : State) (i : Nat) (f : FanOut → FanOut) : State :=
  { s with fan := { s.fan with outs := modAt s.fan.outs i f } }

/-- The fan command of R511. -/
def fanCommand (s : State) : Nat :=
  let loop := loopPct s.pwr.mode (max s.thm.dieTemp (s.thm.flashTemp + 25))
  let pin := s.pins.fanCmdPct
  let base := if s.fan.cmdSrc = 1 then pin else if s.fan.cmdSrc = 2 then loop else max loop pin
  if 1 ≤ s.thm.level ∨ s.thm.fanFloor ∨ (s.fan.cmdSrc ≠ 2 ∧ pin = 0x7F) then 100 else min 100 (max base s.fan.minPct)

/-- The command with the outputs lost (R512). -/
def fanTarget (s : State) : Nat :=
  let c := s.fanCommand
  match s.fansLost with
  | 0 => c
  | 1 => min 100 (c * 4 / 3)
  | _ => 100

/-- The fan controller works: the F unit is present and the module runs or sleeps (R11, R459, R479). -/
def fanAlive (s : State) : Bool := s.part.fan && s.sensorsRead

/-- A start begins with the clamp test (R513, R515). -/
def fanStart (s : State) (i : Nat) (good : Bool) : State :=
  let s1 := s.setFanOut i (fun f => { f with state := 2, starts := f.starts + 1, crossings := 0 })
  let s2 := { s1 with fan := { s1.fan with
    clampGood := good
    clampFault := s1.fan.clampFault || !good
    zeroVector := if good then s1.fan.zeroVector && decide (130 ≤ s1.fan.railV) else true } }
  if good then s2 else s2.event 0x0D07 3 srcFan 0 [0, s2.fan.railV]

/-- The bit of an output put into a fault field. -/
def fanBit (b : BitVec 4) (i : Nat) : BitVec 4 := b ||| BitVec.ofNat 4 (2 ^ i)

/-- Two lost outputs put the Enforce floor in force at once (R512). -/
def fanFloorCheck (s : State) (before : Nat) : State :=
  if before < 2 ∧ 2 ≤ s.fansLost then
    let t := ({ s with thm := { s.thm with fanFloor := true } }).event 0x0D08 4 srcFan 0 [s.fansLost]
    let u := t.setStep (max 1 t.thm.step)
    if s.thm.level = 0 then u.warning 1 1 else u
  else s

/-- A fault stops its output (R516): its bit, event 0x0D05, and the hold-off after three failed retries in a row. -/
def fanFault (s : State) (i : Nat) (c : FanFaultCause) : State :=
  let f := s.fanOut i
  let n := if f.lost then min 3 (f.retries + 1) else 0
  let s1 := s.setFanOut i (fun f => { f with
    state := 7, cmdPct := 0, dutyPct := 0, retries := n, lost := true, faultAt := s.now, crossings := 0 })
  let v := s1.fan
  let s2 := { s1 with fan := match c with
    | .stall => { v with stall := fanBit v.stall i }
    | .startFail => { v with startFail := fanBit v.startFail i }
    | .overcurrent => { v with overcurrent := fanBit v.overcurrent i }
    | .openPhase => { v with openPhase := fanBit v.openPhase i }
    | .speedLow => { v with speedLow := fanBit v.speedLow i } }
  let s3 := if n = 3 then { s2 with fan := { s2.fan with heldOff := fanBit s2.fan.heldOff i } } else s2
  (s3.event 0x0D05 3 srcFan 0 [i, fanCauseCode c, n]).fanFloorCheck s.fansLost

/-- A start step of an output (R513); none where the output is not at that step. -/
def fanStep (s : State) (i : Nat) (ev : FanStart) : Option State :=
  let f := s.fanOut i
  let goto := fun (n : Nat) => some (s.setFanOut i (fun f => { f with state := n, crossings := 0 }))
  match ev with
  | .clampTest good =>
    if (f.state = 0 ∨ f.state = 1) ∧ s.fan.enable.getLsbD i ∧ !s.fan.gatesOff then
      some ((s.advanceTo s.fan.restartAt).fanStart i good)
    else none
  | .measured p =>
    if f.state = 2 then (if 50 < p then goto 6 else if p < -50 then goto 3 else goto 4) else none
  | .standstill => if f.state = 3 then goto 4 else none
  | .aligned => if f.state = 4 then goto 5 else none
  | .ramped => if f.state = 5 then goto 6 else none
  | .missed =>
    if (2 ≤ f.state ∧ f.state ≤ 5) ∨ (f.state = 6 ∧ f.crossings < 12) then some (s.fanFault i .startFail) else none

/-- A running output brakes: its target speed lies more than 10 % below the measured one (R515). -/
def fanBraking (s : State) (f : FanOut) : Bool := decide (f.state = 6) && decide (f.cmdPct * s.fan.ratedRpm < f.rpm * 90)

/-- How the outputs brake (R515). -/
inductive BrakeMethod where
  | regenerative | zeroVector | gatesOff
deriving DecidableEq, Repr

/-- The method that R515 chooses, in its order from the last row up. -/
def brakeMethod (s : State) : BrakeMethod :=
  if s.fan.gatesOff then .gatesOff else if s.fan.zeroVector then .zeroVector else .regenerative

/-- The state that `FAN_STAT` shows: an output that brakes shows braking (R517; log 184). -/
def fanShown (s : State) (f : FanOut) : Nat := if s.fanBraking f then 3 else f.state

/-- Speed in rpm of a step interval in ns (R514). -/
def fanRpm (s : State) (interval : Nat) : Nat := min 0xFFFF (10000000000 / (interval * s.fan.polePairs))

/-- A zero crossing of a running output at time `t` (R514): ignored in the first 20 % of a step, else the next commutation
follows half a step interval later. -/
def fanCross (s : State) (i t : Nat) : State :=
  let f := s.fanOut i
  let past := t - f.nextCommutation
  if past * 5 < f.interval then s
  else
    let half := if f.interval = 0 then past else f.interval / 2
    let next := t + half
    let step := next - f.nextCommutation
    s.setFanOut i (fun f => { f with
      commutation := (f.commutation + 1) % 6, interval := step, nextCommutation := next
      crossings := min 12 (f.crossings + 1), rpm := s.fanRpm step })

/-- The fan rail moves to `v`, in units of 0.2 V (R515). -/
def fanRail (s : State) (v : Nat) : State :=
  let up28 := decide (140 < v) && decide (s.fan.railV ≤ 140)
  let up30 := decide (150 ≤ v) && decide (s.fan.railV < 150)
  let s1 := { s with fan := { s.fan with
    railV := v
    clampOn := if 130 < v then true else if 2 * v < 255 then false else s.fan.clampOn
    zeroVector := s.fan.zeroVector || decide (140 < v)
    rail28 := s.fan.rail28 || up28
    rail30 := s.fan.rail30 || up30
    gatesOff := if 150 ≤ v then true else if v < 130 then false else s.fan.gatesOff
    restartAt := if v < 130 ∧ s.fan.gatesOff then s.now + 100000000 else s.fan.restartAt
    outs := if 150 ≤ v then s.fan.outs.map (fun (f : FanOut) =>
      if f.state = 7 then f else { f with state := 0, dutyPct := 0 }) else s.fan.outs } }
  let s2 := if up28 then s1.event 0x0D07 3 srcFan 0 [1, v] else s1
  if up30 then s2.event 0x0D07 3 srcFan 0 [2, v] else s2

/-- What a measurement of `FAN_CMD` says: percent, whether it is out of range, and the measured value (R457); none where
it does not belong to the mode. -/
def fanCmdDecode (mode : Nat) (m : FanCmdSample) : Option (Nat × Bool × Nat) :=
  match m with
  | .analogue mv => if mode = 0 then some (if 3300 < mv then (100, true, mv) else (mv * 100 / 3300, false, mv)) else none
  | .duty p hz level =>
    if mode = 1 then
      some (if hz = 0 then (if level then 100 else 0, true, hz)
        else if hz < 1000 ∨ 100000 < hz then (100, true, hz) else (min 100 (p / 10), false, hz))
    else none
  | .frequency hz =>
    if mode = 2 then some (if hz = 0 ∨ 1000 < hz then (100, true, hz) else (min 100 (hz / 10), false, hz)) else none

/-- A held-off output is let go and starts a retry (R516). -/
def clearHeld (s : State) (i : Nat) : State :=
  ({ s with fan := { s.fan with heldOff := s.fan.heldOff &&& ~~~ BitVec.ofNat 4 (2 ^ i) } }).setFanOut i
    (fun f => { f with state := 1, retries := 0 })

end State

/-! ### Commands -/

/-- FAN_COMMAND_UPDATE (R511, R512): every 10 ms, with the speeds and duties of the speed loop. -/
def execFanCommandUpdate (rpms duties : List Nat) (s : State) : Out :=
  let c := s.fanTarget
  let outs := s.fan.outs.mapIdx (fun i (f : FanOut) => { f with
    cmdPct := if f.state = 7 ∨ !s.fan.enable.getLsbD i then 0 else c
    rpm := (rpms[i]?).getD 0, dutyPct := (duties[i]?).getD 0 })
  arises (s.fanAlive && decide (rpms.length = 4) && decide (duties.length = 4)) "FAN_COMMAND_UPDATE"
    ({ s with fan := { s.fan with outs := outs } }.startClock 7)

/-- FAN_START_STEP (R513, R515). -/
def execFanStartStep (out : Nat) (ev : FanStart) (s : State) : Out :=
  if s.fanAlive then
    match (s.startClock 7).fanStep out ev with
    | some t => .next t
    | none => cannot "FAN_START_STEP"
  else cannot "FAN_START_STEP"

/-- FAN_ZERO_CROSSING (R514). -/
def execFanZeroCrossing (out now_ : Nat) (s : State) : Out :=
  arises (s.fanAlive && decide ((s.fanOut out).state = 6)) "FAN_ZERO_CROSSING" (((s.advanceTo now_).startClock 7).fanCross out now_)

/-- FAN_FAULT (R512, R516). -/
def execFanFault (out : Nat) (cause : FanFaultCause) (s : State) : Out :=
  arises (s.fanAlive && decide (1 ≤ (s.fanOut out).state) && decide ((s.fanOut out).state ≤ 6)) "FAN_FAULT"
    ((s.startClock 7).fanFault out cause)

/-- FAN_RETRY (R516): the faulted output starts again. -/
def execFanRetry (out : Nat) (s : State) : Out :=
  arises (s.fanAlive && decide ((s.fanOut out).state = 7) && !s.fan.heldOff.getLsbD out) "FAN_RETRY"
    ((s.advanceTo ((s.fanOut out).faultAt + 5000000000)).setFanOut out (fun f => { f with state := 1 }))

/-- FAN_RECOVERED (R512, R516): 10 s without fault. -/
def execFanRecovered (out : Nat) (s : State) : Out :=
  arises (s.fanAlive && decide ((s.fanOut out).state = 6) && (s.fanOut out).lost) "FAN_RECOVERED"
    ((s.setFanOut out (fun f => { f with lost := false, retries := 0 })).event 0x0D06 1 srcFan 0 [out])

/-- HELD_OFF_CLEAR (R10, R516): writing 1 clears the bit and starts a retry; a bit that is 0, or an absent unit's, ignores the
write. -/
def execHeldOffClear (out : Nat) (s : State) : Out :=
  if s.part.fan && s.fan.heldOff.getLsbD out then arises s.fanAlive "HELD_OFF_CLEAR" ((s.startClock 7).clearHeld out)
  else .next s

/-- FAN_RAIL_THRESHOLD (R515): the rail in units of 0.2 V. -/
def execFanRailThreshold (volts : Nat) (s : State) : Out :=
  arises s.fanAlive "FAN_RAIL_THRESHOLD" ((s.startClock 7).fanRail volts)

/-- FAN_CMD_MEASUREMENT (R11, R457, R461): ignored without the F unit; event 0x0B02 is posted once until a reading is in range again. -/
def execFanCmdMeasurement (m : FanCmdSample) (s : State) : Out :=
  if !s.part.fan then .next s
  else if s.fanAlive then
    match State.fanCmdDecode s.fan.cmdMode m with
    | some (pct, bad, v) =>
      let t := { s with pins := { s.pins with fanCmdPct := pct, fanCmdFault := bad } }
      .next (if bad && !s.pins.fanCmdFault then t.event 0x0B02 2 srcFan 0 [s.fan.cmdMode, v] else t)
    | none => cannot "FAN_CMD_MEASUREMENT"
  else cannot "FAN_CMD_MEASUREMENT"

end Sys2Proof.Machine
end

