-- ==== Sys2Proof/Machine/JournalMount.lean ====
section
/-! DEFINITION. The journal, checkpoints and mounts: JOURNAL_UNIT_PROGRAM, CHECKPOINT_START, CHECKPOINT_VALID and
MOUNT_COMPLETE. -/

namespace Sys2Proof.Machine

namespace State

/-- The module is up, or enters a sleeping state, which may need a checkpoint of its orderly stop. -/
def logsOpen (s : State) : Bool :=
  s.awake || (match s.pwr.pstate with
    | .entering _ _ => true
    | _ => false)

/-- The module may write its journal: it is up, no mount reads flash, and the first checkpoint after a mount comes first
(R206, R211). -/
def journalOpen (s : State) : Bool :=
  s.logsOpen && !(decide (s.mnt.state = 1) || decide (s.mnt.state = 2) || decide (s.mnt.state = 3)) && !s.mnt.firstCkpt

/-- 64 KiB units of 2 GiB. -/
def ckptUnits : Nat := 32768

/-- `TIM_NOW` at which the next checkpoint starts of itself (R207, R209). -/
def ckptDue (s : State) : Nat := s.jrn.beganAt + max 1 s.jrn.ckptS * 1000000000

/-- The rows of direct zones that a mount reloaded and that are complete close once flash may be written (R159, R211). -/
def closeReloaded (s : State) : State := (s.zns.zones.map (·.1)).foldl (fun t z => t.issueDirect z 1) s

/-- What waited for the first checkpoint after a mount goes on: stale blocks are freed, reloaded rows close, and what staging
holds beyond the limit is shadowed (R187, R211, R217). -/
def afterFirst (s : State) : State :=
  ((s.fls.stale.foldl (fun (t : State) m => t.deferErase m.1 m.2 .zone) { s with fls := { s.fls with stale := [] } }).closeReloaded).landingGoes

/-- The checkpoint being written is valid (R207, R211, R306): the metadata is durable, the slot it replaces and the journal it
covers are free, and what waited for it completes. -/
def ckptDone (s : State) : State :=
  if s.mnt.closing then s.stopDone
  else
    let s1 := s.ckptInForce
    let s2 := { s1 with mnt := { s1.mnt with firstCkpt := false } }
    (if s.mnt.firstCkpt then s2.afterFirst else s2).answerOps (fun o => decide (o = .checkpoint)) 0

/-- The checkpoint path can run (R210): a marker, and the checkpoint and journal it names. -/
def ckptPath (s : State) (good : Bool) : Bool := decide (s.mnt.state = 1) && decide (s.plog.marker ≠ 0) && s.jrn.valid && good

/-- The bank is measured at every mount (R215). -/
def measureAtMount (s : State) : State := if s.plog.charger then s.startMeasurement else s

/-- A mount ends with its tables in force; the first one generates slot 1,024 (R203, R208, R210 to R214, R343, R554). -/
def mountDone (s : State) (scan good : Bool) (fallback ms : Nat) : State :=
  let s0 := (s.remount (s.jrn.valid && good)).settleDeletes
  let s1 : State := if look 0 s0.sec.keys 1024 = 0 then
      ({ s0 with sec := { s0.sec with keys := put 0 s0.sec.keys 1024 (Config.freeNat s0.free + 1) } }).draw
    else s0
  let s2 := { s1 with
    mnt := { s1.mnt with state := 4, scanned := scan, shutdown := s.plog.marker, progress := 100
                         fallback := if scan then fallback else 0, elapsed := ms, firstCkpt := true, known := true } }.measureAtMount
  (s2.eraseMarker.event 0x0603 1 (srcRegion 0 0) 0 [if scan then 1 else 0, ms]).answerOps (fun o => decide (o = .mount)) 0

/-- A mount fails (R214): the module stays Parked. -/
def mountFails (s : State) (ms : Nat) : State :=
  let s1 := { s with mnt := { s.mnt with state := 5, elapsed := ms, shutdown := s.plog.marker } }
  (s1.eraseMarker.event 0x0604 4 (srcRegion 0 0) 0 []).answerOps (fun o => decide (o = .mount)) 2

end State

/-- JOURNAL_UNIT_PROGRAM (R206): the unit has filled, or 1 ms has passed since its first record. -/
def execJournalUnitProgram (s : State) : Out :=
  let s1 := if 1024 ≤ s.jrn.tail then s else s.advanceTo (s.jrn.tailAt + 1000000)
  arises (decide (0 < s.jrn.tail) && s.journalOpen) "JOURNAL_UNIT_PROGRAM" s1.journalGo

/-- CHECKPOINT_START (R207, R211): `ckpt_s` seconds after the last one began, at 2 GiB of journal, or first after a mount. -/
def execCheckpointStart (s : State) : Out :=
  let s1 := if s.mnt.firstCkpt || decide (State.ckptUnits < s.jrn.units) then s else s.advanceTo s.ckptDue
  arises (s.awake && s.mounted && !s.jrn.running && !s.mnt.stopping) "CHECKPOINT_START" s1.startCkpt

/-- CHECKPOINT_VALID (R187, R207, R211, R306): every stripe of the checkpoint has been programmed. -/
def execCheckpointValid (s : State) : Out :=
  arises (s.logsOpen && s.jrn.running && decide (s.jrn.stripes = 0) && !s.underWay .checkpoint) "CHECKPOINT_VALID" s.ckptDone

/-- MOUNT_COMPLETE (R210 to R214): `readable`, some checkpoint or journal replica gives the configuration; `ckptGood`, the
checkpoint the marker names and the journal after it are whole; `fallback` per mille of record reads were full reads. -/
def execMountComplete (readable ckptGood : Bool) (fallback elapsedMs : Nat) (s : State) : Out :=
  let s1 := s.advanceTo (s.mnt.requestedAt + elapsedMs * 1000000)
  arises (s.awake && (decide (s.mnt.state = 1) || decide (s.mnt.state = 2) || decide (s.mnt.state = 3)) && !s.mnt.waiting)
    "MOUNT_COMPLETE"
    (if readable then s1.mountDone (!s.ckptPath ckptGood) ckptGood fallback elapsedMs else s1.mountFails elapsedMs)

end Sys2Proof.Machine
end

