-- ==== Sys2Proof/Machine/KCore.lean ====
section
/-! DEFINITION. Krytfer inside a context: control, register and immediate arithmetic, compare and branch, load and store,
special registers, unassigned words, and line fills (R284 to R293, R333, R598). -/

namespace Sys2Proof.Machine

/-! ### Forms (R272) -/

/-- No field is used; d, a and b; d and a; d; a and b; a. -/
def formNone (op : Nat) : Form := { op := op, useD := false, useA := false, useB := false, mask := 0 }
def formDAB (op : Nat) : Form := { op := op, useD := true, useA := true, useB := true, mask := 0 }
def formDA (op : Nat) : Form := { op := op, useD := true, useA := true, useB := false, mask := 0 }
def formD (op : Nat) : Form := { op := op, useD := true, useA := false, useB := false, mask := 0 }
def formAB (op : Nat) : Form := { op := op, useD := false, useA := true, useB := true, mask := 0 }
def formA (op : Nat) : Form := { op := op, useD := false, useA := true, useB := false, mask := 0 }

/-! ### Control (R285, R293) -/

/-- NOP (R285): nothing but the next `pc`. -/
def execNop (w : KWord) (s : State) : Out := s.runLocal "NOP" (formNone 0x00) w (fun _ => []) (fun k => (k, k.pc + 8))

/-- TRAP (R285): trap 0x0A with detail `imm` [15:0]. -/
def execTrap (w : KWord) (s : State) : Out :=
  s.runLocal "TRAP" (formNone 0x01) w (fun _ => [(true, 0x0A, w.imm.toNat % 65536)]) (fun k => (k, k.pc + 8))

/-- Form of WAIT. -/
def formWait : Form := { op := 0x02, useD := false, useA := true, useB := true, mask := 0x1F }

/-- WAIT (R293): traps where no condition is named or the ticket is not in use, returns at once where a condition holds, and
waits otherwise; a WAIT that is run again returns its recorded result. -/
def execWait (w : KWord) (s : State) : Out :=
  match s.kctx w.ctx with
  | none => cannot "WAIT"
  | some k =>
    let s0 := s.startClock (96 + w.ctx / 4)
    let m := w.mod.toNat
    let args := operands k w
    arises (s.issues 0x02 w) "WAIT"
      (match firstTrap (s.baseTraps k true (badForm formWait w) ++ [(decide (m % 32 = 0), 0x01, 1)]) with
        | some t => s0.trapReel w.ctx t
        | none => match State.recorded k with
          | some e =>
            if State.mismatch e 0x02 args then s0.trapReel w.ctx (0x08, 6)
            else (((s.reelIssues w.ctx).setKctx w.ctx (some (State.replay k e))).retire_ w.ctx (k.pc + 8)).modK w.ctx
              (fun k => { k with count := 0 })
          | none =>
            match firstTrap [(decide (bits m 0 1 = 1) && k.tickets.all (fun t => decide (t.num ≠ (regA k w).toNat)), 0x08, 8),
                (State.journalFull k, 0x07, 1)] with
            | some t => s0.trapReel w.ctx t
            | none =>
              let mask := s0.waitMask k m (regA k w) (regB k w)
              if mask = 0 then s0.setKctx w.ctx (some { k with wait := .inWait w.mod (regA k w) (regB k w) })
              else (s.reelIssues w.ctx).endWait w.ctx k args mask (State.waitTicket k m (regA k w)))

/-- WAIT_CONDITION_MET (R293): a context in WAIT returns with the conditions that hold. -/
def execWaitConditionMet (ctx : Nat) (s : State) : Out :=
  match s.kctx ctx with
  | none => cannot "WAIT_CONDITION_MET"
  | some k => match k.wait with
    | .ready => cannot "WAIT_CONDITION_MET"
    | .inWait m a b =>
      let mask := s.waitMask k m.toNat a b
      let w := State.fetched k
      let args := [a, b, 0, m.setWidth 64, BitVec.ofNat 64 (w % 2 ^ 32)]
      arises (s.mayIssue k && decide (mask ≠ 0)) "WAIT_CONDITION_MET"
        ((s.reelIssues ctx).endWait ctx k args mask (State.waitTicket k m.toNat a))

/-! ### Register arithmetic (R286) -/

/-- An instruction that computes g[d] and flags from the context. -/
def runAlu (s : State) (name : String) (f : Form) (w : KWord) (r : KCtx → Word) (fl : KCtx → KFlags) : Out :=
  s.runLocal name f w (fun _ => []) (fun k => ({ setReg k w.d.toNat (r k) with flags := fl k }, k.pc + 8))

/-- ADD: the sum, all four flags. -/
def execAdd (w : KWord) (s : State) : Out :=
  runAlu s "ADD" (formDAB 0x10) w (fun k => regA k w + regB k w) (fun k => flagsAdd (regA k w) (regB k w))

/-- SUB: the difference, all four flags. -/
def execSub (w : KWord) (s : State) : Out :=
  runAlu s "SUB" (formDAB 0x11) w (fun k => regA k w - regB k w) (fun k => flagsSub (regA k w) (regB k w))

/-- AND: z and n, c and v cleared. -/
def execAnd (w : KWord) (s : State) : Out :=
  runAlu s "AND" (formDAB 0x12) w (fun k => regA k w &&& regB k w) (fun k => flagsLogic (regA k w &&& regB k w))

/-- OR: z and n, c and v cleared. -/
def execOr (w : KWord) (s : State) : Out :=
  runAlu s "OR" (formDAB 0x13) w (fun k => regA k w ||| regB k w) (fun k => flagsLogic (regA k w ||| regB k w))

/-- XOR: z and n, c and v cleared. -/
def execXor (w : KWord) (s : State) : Out :=
  runAlu s "XOR" (formDAB 0x14) w (fun k => regA k w ^^^ regB k w) (fun k => flagsLogic (regA k w ^^^ regB k w))

/-- A result with z and n; c and v unchanged. -/
def runZN (s : State) (name : String) (f : Form) (w : KWord) (r : KCtx → Word) : Out :=
  runAlu s name f w r (fun k => flagsZN k.flags (r k))

/-- SHL by g[b] [5:0]. -/
def execShl (w : KWord) (s : State) : Out :=
  runZN s "SHL" (formDAB 0x15) w (fun k => regA k w <<< ((regB k w).toNat % 64))

/-- SHR by g[b] [5:0], zero fill. -/
def execShr (w : KWord) (s : State) : Out :=
  runZN s "SHR" (formDAB 0x16) w (fun k => regA k w >>> ((regB k w).toNat % 64))

/-- SAR by g[b] [5:0], sign fill. -/
def execSar (w : KWord) (s : State) : Out :=
  runZN s "SAR" (formDAB 0x17) w (fun k => (regA k w).sshiftRight ((regB k w).toNat % 64))

/-- MUL: the low 64 bits of the product. -/
def execMul (w : KWord) (s : State) : Out :=
  runZN s "MUL" (formDAB 0x18) w (fun k => regA k w * regB k w)

/-- MULHU: the high 64 bits of the unsigned product. -/
def execMulhu (w : KWord) (s : State) : Out :=
  runZN s "MULHU" (formDAB 0x19) w (fun k => BitVec.ofNat 64 ((regA k w).toNat * (regB k w).toNat / 2 ^ 64))

/-- Unsigned quotient: all ones for a divisor of 0. -/
def quotient (x y : Word) : Word := if y = 0 then BitVec.allOnes 64 else x / y

/-- Unsigned remainder: the dividend for a divisor of 0. -/
def remainder (x y : Word) : Word := if y = 0 then x else x % y

/-- DIVU. -/
def execDivu (w : KWord) (s : State) : Out :=
  runAlu s "DIVU" (formDAB 0x1A) w (fun k => quotient (regA k w) (regB k w))
    (fun k => flagsDiv k.flags (quotient (regA k w) (regB k w)) (regB k w))

/-- REMU. -/
def execRemu (w : KWord) (s : State) : Out :=
  runAlu s "REMU" (formDAB 0x1B) w (fun k => remainder (regA k w) (regB k w))
    (fun k => flagsDiv k.flags (remainder (regA k w) (regB k w)) (regB k w))

/-- MINU: the unsigned minimum. -/
def execMinu (w : KWord) (s : State) : Out :=
  runZN s "MINU" (formDAB 0x1C) w (fun k => if (regA k w).toNat ≤ (regB k w).toNat then regA k w else regB k w)

/-- MAXU: the unsigned maximum. -/
def execMaxu (w : KWord) (s : State) : Out :=
  runZN s "MAXU" (formDAB 0x1D) w (fun k => if (regA k w).toNat ≤ (regB k w).toNat then regB k w else regA k w)

/-! ### Immediate arithmetic (R287) -/

/-- ADDI. -/
def execAddi (w : KWord) (s : State) : Out :=
  runAlu s "ADDI" (formDA 0x20) w (fun k => regA k w + sextImm w) (fun k => flagsAdd (regA k w) (sextImm w))

/-- ANDI with the sign-extended immediate. -/
def execAndi (w : KWord) (s : State) : Out := runZN s "ANDI" (formDA 0x21) w (fun k => regA k w &&& sextImm w)

/-- ORI with the zero-extended immediate. -/
def execOri (w : KWord) (s : State) : Out := runZN s "ORI" (formDA 0x22) w (fun k => regA k w ||| zextImm w)

/-- XORI with the zero-extended immediate. -/
def execXori (w : KWord) (s : State) : Out := runZN s "XORI" (formDA 0x23) w (fun k => regA k w ^^^ zextImm w)

/-- SHLI by imm [5:0]. -/
def execShli (w : KWord) (s : State) : Out := runZN s "SHLI" (formDA 0x24) w (fun k => regA k w <<< (w.imm.toNat % 64))

/-- SHRI by imm [5:0], zero fill. -/
def execShri (w : KWord) (s : State) : Out := runZN s "SHRI" (formDA 0x25) w (fun k => regA k w >>> (w.imm.toNat % 64))

/-- SARI by imm [5:0], sign fill. -/
def execSari (w : KWord) (s : State) : Out :=
  runZN s "SARI" (formDA 0x26) w (fun k => (regA k w).sshiftRight (w.imm.toNat % 64))

/-- LI: the sign-extended immediate; flags unchanged. -/
def execLi (w : KWord) (s : State) : Out := runAlu s "LI" (formD 0x27) w (fun _ => sextImm w) (fun k => k.flags)

/-- LIH: the upper half; flags unchanged. -/
def execLih (w : KWord) (s : State) : Out :=
  runAlu s "LIH" (formD 0x28) w (fun k => w.imm ++ lowHalf (regD k w)) (fun k => k.flags)

/-- Mask of the width imm [13:8] + 1 of a bit field. -/
def fieldMask (w : KWord) : Word := BitVec.ofNat 64 (2 ^ (w.imm.toNat / 256 % 64 + 1) - 1)

/-- Lowest bit of a bit field: imm [5:0]. -/
def fieldLow (w : KWord) : Nat := w.imm.toNat % 64

/-- BFX: a bit field of g[a], z only. -/
def execBfx (w : KWord) (s : State) : Out :=
  let r := fun (k : KCtx) => (regA k w >>> fieldLow w) &&& fieldMask w
  runAlu s "BFX" (formDA 0x29) w r (fun k => flagsZ k.flags (r k))

/-- BFI: a bit field of g[d] replaced, z only. -/
def execBfi (w : KWord) (s : State) : Out :=
  let m := fieldMask w <<< fieldLow w
  let r := fun (k : KCtx) => (regD k w &&& ~~~m) ||| ((regA k w <<< fieldLow w) &&& m)
  runAlu s "BFI" (formDA 0x2A) w r (fun k => flagsZ k.flags (r k))

/-! ### Compare and branch (R273, R288, R289) -/

/-- CMP: flags as SUB. -/
def execCmp (w : KWord) (s : State) : Out :=
  s.runLocal "CMP" (formAB 0x30) w (fun _ => [])
    (fun k => ({ k with flags := flagsSub (regA k w) (regB k w) }, k.pc + 8))

/-- CMPI: flags as SUB of the sign-extended immediate. -/
def execCmpi (w : KWord) (s : State) : Out :=
  s.runLocal "CMPI" (formA 0x31) w (fun _ => [])
    (fun k => ({ k with flags := flagsSub (regA k w) (sextImm w) }, k.pc + 8))

/-- B: branches where the condition of `mod` [3:0] holds; codes 11 to 15 trap 0x01. -/
def execB (w : KWord) (s : State) : Out :=
  let c := w.mod.toNat % 16
  s.runLocal "B" { op := 0x32, useD := false, useA := false, useB := false, mask := 0xF } w
    (fun k => (decide (11 ≤ c), 0x01, 2) :: (if condHolds k.flags c then codeTraps k (branchTarget k w) else []))
    (fun k => (k, if condHolds k.flags c then branchTarget k w else k.pc + 8))

/-- CALL: g31 takes the address behind the call. -/
def execCall (w : KWord) (s : State) : Out :=
  s.runLocal "CALL" (formNone 0x33) w (fun k => codeTraps k (branchTarget k w))
    (fun k => (setReg k 31 (BitVec.ofNat 64 (k.pc + 8)), branchTarget k w))

/-- RET: to g31. -/
def execRet (w : KWord) (s : State) : Out :=
  s.runLocal "RET" (formNone 0x34) w (fun k => codeTraps k (reg k 31).toNat) (fun k => (k, (reg k 31).toNat))

/-- JR: to g[a]. -/
def execJr (w : KWord) (s : State) : Out :=
  s.runLocal "JR" (formA 0x35) w (fun k => codeTraps k (regA k w).toNat) (fun k => (k, (regA k w).toNat))

/-- CALLR: to g[a], g31 taking the address behind the call. -/
def execCallr (w : KWord) (s : State) : Out :=
  s.runLocal "CALLR" (formA 0x36) w (fun k => codeTraps k (regA k w).toNat)
    (fun k => (setReg k 31 (BitVec.ofNat 64 (k.pc + 8)), (regA k w).toNat))

/-! ### Load, store and copy (R270, R271, R290) -/

/-- Traps of one side of a load, store or copy: capability 6 for the buffer space. -/
def bufferCap (k : KCtx) (used : Bool) : List TrapIf := if used then [(!k.cap.getLsbD 6, 0x02, 6)] else []

/-- The value of a load: its bytes, sign-extended where `mod` [2] says so. -/
def loadValue (bs : List Byte) (signed : Bool) : Word :=
  let n := 8 * bs.length
  let v := leNat bs
  if signed && decide (2 ^ (n - 1) ≤ v) && decide (0 < n) then BitVec.ofInt 64 ((v : Int) - (2 : Int) ^ n) else BitVec.ofNat 64 v

/-- LD: a value from scratch, image or a buffer; a load without effect traps in the order of R283. -/
def execLd (w : KWord) (s : State) : Out :=
  let sp := srcSpace w
  let n := accessSize w
  s.runLocal "LD" { op := 0x40, useD := true, useA := true, useB := true, mask := 0x1F } w
    (fun k =>
      let a := memAddr k w
      let h := regB k w
      [(decide (sp = 3), 0x01, 2)] ++ bufferCap k (decide (sp = 2)) ++
      [(decide (a % n ≠ 0), 0x06, 0), (s.outside k sp a n h, 0x06, 1)] ++
      (if sp = 2 then s.handleTraps k h else []) ++ [(s.badSource k w.ctx sp a n h, 0x05, sp)])
    (fun k => (setReg k w.d.toNat (loadValue (s.spaceRead k sp (memAddr k w) n (regB k w)) (w.mod.getLsbD 2)), k.pc + 8))

/-- ST: a value to scratch or a buffer; a store to the image traps 0x01 with detail 3. -/
def execSt (w : KWord) (s : State) : Out :=
  let sp := srcSpace w
  let n := accessSize w
  match s.kctx w.ctx with
  | none => cannot "ST"
  | some k =>
    let a := memAddr k w
    let h := regB k w
    let f : Form := { op := 0x41, useD := true, useA := true, useB := true, mask := 0x1B }
    let s0 := s.reelIssues w.ctx
    arises (s.issues 0x41 w) "ST"
      (match firstTrap (s.baseTraps k false (badForm f w) ++ [(decide (sp = 3), 0x01, 2), (decide (sp = 1), 0x01, 3)] ++
          bufferCap k (decide (sp = 2)) ++ [(decide (a % n ≠ 0), 0x06, 0), (s.outside k sp a n h, 0x06, 1)] ++
          (if sp = 2 then s.handleTraps k h ++ [((s.buf h.toNat).any (·.gone), 0x05, 2)] else [])) with
        | some t => s0.trapReel w.ctx t
        | none => (s0.spaceWrite w.ctx sp a h (leBytes n (regD k w).toNat)).retire_ w.ctx (k.pc + 8))

/-- COPY: imm [16:0] bytes from g[a] to g[d], the source read whole before the destination is written. -/
def execCopy (w : KWord) (s : State) : Out :=
  let sp := srcSpace w
  let dp := dstSpace w
  let n := w.imm.toNat % 2 ^ 17
  match s.kctx w.ctx with
  | none => cannot "COPY"
  | some k =>
    let a := (regA k w).toNat
    let d := (regD k w).toNat
    let h := regB k w
    let f : Form := { op := 0x42, useD := true, useA := true, useB := true, mask := 0x78 }
    let s0 := s.reelIssues w.ctx
    arises (s.issues 0x42 w) "COPY"
      (match firstTrap (s.baseTraps k false (badForm f w) ++
          [(decide (sp = 3) || decide (dp = 3) || (decide (sp = 2) && decide (dp = 2)), 0x01, 2), (decide (dp = 1), 0x01, 3)] ++
          bufferCap k (decide (sp = 2) || decide (dp = 2)) ++
          [(decide (65536 < n) || s.outside k sp a n h || s.outside k dp d n h, 0x06, 1)] ++
          (if sp = 2 ∨ dp = 2 then s.handleTraps k h else []) ++ [(s.badSource k w.ctx sp a n h, 0x05, sp)] ++
          (if dp = 2 then [((s.buf h.toNat).any (·.gone), 0x05, 2)] else [])) with
        | some t => s0.trapReel w.ctx t
        | none => (s0.spaceWrite w.ctx dp d h (s.spaceRead k sp a n h)).retire_ w.ctx (k.pc + 8))

/-! ### Special registers (R291) -/

/-- MFS: reads `pc`, `cap`, `ctx` or `flags`. -/
def execMfs (w : KWord) (s : State) : Out :=
  s.runLocal "MFS" { op := 0x50, useD := true, useA := false, useB := false, mask := 0x3 } w (fun _ => [])
    (fun k => (setReg k w.d.toNat (specialReg k w.ctx (w.mod.toNat % 4)), k.pc + 8))

/-- MTS: writes `flags`; any other selection traps 0x02 with detail 0x41. -/
def execMts (w : KWord) (s : State) : Out :=
  s.runLocal "MTS" { op := 0x51, useD := false, useA := true, useB := false, mask := 0x3 } w
    (fun _ => [(decide (w.mod.toNat % 4 ≠ 3), 0x02, 0x41)])
    (fun k => ({ k with flags := flagsOf (regA k w) }, k.pc + 8))

/-! ### Words that are no instruction (R284, R598) -/

/-- The opcode is assigned (R284). -/
def assigned (op : Nat) : Bool :=
  decide (op ≤ 0x04) || (decide (0x10 ≤ op) && decide (op ≤ 0x1D)) || (decide (0x20 ≤ op) && decide (op ≤ 0x2A)) ||
  (decide (0x30 ≤ op) && decide (op ≤ 0x36)) || (decide (0x40 ≤ op) && decide (op ≤ 0x42)) ||
  (decide (0x50 ≤ op) && decide (op ≤ 0x51)) || (decide (0x60 ≤ op) && decide (op ≤ 0x65)) ||
  (decide (0x70 ≤ op) && decide (op ≤ 0x75)) || (decide (0x80 ≤ op) && decide (op ≤ 0x82)) ||
  (decide (0x90 ≤ op) && decide (op ≤ 0x94)) || (decide (0xA0 ≤ op) && decide (op ≤ 0xA3)) ||
  (decide (0xB0 ≤ op) && decide (op ≤ 0xB3)) || (decide (0xC0 ≤ op) && decide (op ≤ 0xC6)) ||
  (decide (0xD0 ≤ op) && decide (op ≤ 0xD3)) || decide (op = 0xE0)

/-- Capability and first unassigned sub-operation of the instructions that have sub-operations. -/
def subOps (op : Nat) : Option (Nat × Nat) :=
  match op with
  | 0x62 => some (2, 6) | 0x63 => some (4, 3) | 0x64 => some (1, 5) | 0xE0 => some (18, 6)
  | _ => none

/-- UNASSIGNED_OPCODE (R284, R598): an unassigned opcode traps 0x01 with detail 0, an unassigned sub-operation 0x08 with
detail 7. -/
def execUnassignedOpcode (ctx : Nat) (w : Word) (s : State) : Out :=
  match s.kctx ctx with
  | none => cannot "UNASSIGNED_OPCODE"
  | some k =>
    let op := w.toNat / 2 ^ 56
    let kw : KWord := { ctx := ctx, d := w.extractLsb' 51 5, a := w.extractLsb' 46 5, b := w.extractLsb' 41 5,
                        mod := w.extractLsb' 32 9, imm := w.extractLsb' 0 32 }
    let s0 := s.reelIssues ctx
    if !assigned op then
      arises (s.issues op kw) "UNASSIGNED_OPCODE"
        (s0.trapReel ctx ((firstTrap (s.baseTraps k false false)).getD (0x01, 0)))
    else match subOps op with
      | none => cannot "UNASSIGNED_OPCODE"
      | some (cap, n) =>
        arises (s.issues op kw && decide (n ≤ kw.mod.toNat % 16)) "UNASSIGNED_OPCODE"
          (s0.trapReel ctx ((firstTrap (s.baseTraps k false (badForm
            { op := op, useD := false, useA := true, useB := decide (op ≠ 0x64), mask := 0xF } kw) ++
              State.unitTraps s k (some cap) [])).getD (0x08, 7)))

/-! ### Line fills (R315, R317, R333) -/

/-- The readable replica of store block `i` that `f` names with the least `key`, the lowest index among equals. -/
def State.leastReplica (s : State) (i : Nat) (f : Nat → Bool) (key : Nat → Nat) : Option Nat :=
  ((List.range 4).filter (fun r => s.replicaReadable r i && f r)).foldl (fun (acc : Option Nat) r => match acc with
    | none => some r
    | some a => if key r < key a then some r else some a) none

/-- Time that the operation of a die has left, in ns. -/
def State.leftOf (s : State) (d : Nat) : Nat :=
  match (s.die d).op with
  | some o => if o.suspended then o.leftNs else o.leftNs - (s.now - o.sinceAt)
  | none => 0

/-- The replica that serves a fill of store block `i`, and whether its die is suspended for it (R333): one whose die has no program or
erase in progress, with the fewest entries queued; else the one with the lowest predicted wait, where that is at most 40 µs; else
the one whose operation has the least time left. None where no replica is readable. -/
def State.fillFrom (s : State) (i : Nat) : Option (Nat × Bool) :=
  let die := fun (r : Nat) => replicaDie r
  match s.leastReplica i (fun r => !s.busyProgErase (die r)) (fun r => (s.die (die r)).queue.length) with
  | some r => some (r, false)
  | none => match s.leastReplica i (fun _ => true) (fun r => s.predictWait (die r) 0) with
    | none => none
    | some r =>
      if s.predictWait (die r) 0 ≤ 40 then some (r, false)
      else (s.leastReplica i (fun _ => true) (fun r => s.leftOf (die r))).map (fun q => (q, true))

/-- LINE_FILL_COMPLETE (R313, R317, R333): a missing line arrives, from the store with the three others of its page; a mismatch and
a block that no replica gives trap 0x04, a failed host read 0x0C. `noReplica`: the reads of those still readable fail too. -/
def execLineFillComplete (ctx : Nat) (r : FillResult) (s : State) : Out :=
  match s.kctx ctx with
  | none => cannot "LINE_FILL_COMPLETE"
  | some k => match s.kinst k.inst with
    | none => cannot "LINE_FILL_COMPLETE"
    | some i =>
      let line := k.pc / 4096
      let blk := i.place / 16
      let ls := if i.source = 2 then (List.range 4).map (fun j => line / 4 * 4 + j) else [line]
      let s1 := { s with kry := { s.kry with misses := satAdd 0xFFFFFFFF s.kry.misses 1 } }
      let fill := fun (t : State) => (t.modInst k.inst (fun x => { x with lines := (x.lines ++ ls).dedup })).makeRoom
        (ctxRegion ctx) (ls.map (fun l => (k.inst, l)))
      let sense := fun (t : State) (q : Nat) => t.senseBlock (replicaDie q) (t.storeBlock q blk) 1 0
      let waits := s.mayIssue k && decide (k.wait = .ready) && !(codeTraps k k.pc).any (·.1) && !i.lines.contains line
      match r with
      | .filled =>
        if i.source = 2 then match s.fillFrom blk with
          | some (q, false) => arises waits "LINE_FILL_COMPLETE" (fill (sense s1 q))
          | _ => cannot "LINE_FILL_COMPLETE"
        else arises waits "LINE_FILL_COMPLETE" (fill s1)
      | .filledSuspended =>
        if i.source = 2 then match s.fillFrom blk with
          | some (q, true) =>
            let s2 := { s1 with kry := { s1.kry with fillsSuspended := satAdd 0xFFFFFFFF s1.kry.fillsSuspended 1 } }
            arises waits "LINE_FILL_COMPLETE" (fill ((sense (s2.suspend (replicaDie q)) q).resumeAfter (replicaDie q)))
          | _ => cannot "LINE_FILL_COMPLETE"
        else cannot "LINE_FILL_COMPLETE"
      | .crcMismatch => arises waits "LINE_FILL_COMPLETE" (s1.trapReel ctx (0x04, 0))
      | .hostFault st => arises (waits && decide (i.source = 0)) "LINE_FILL_COMPLETE" (s1.trapReel ctx (0x0C, st))
      | .noReplica =>
        arises (waits && decide (i.source = 2)) "LINE_FILL_COMPLETE"
          (((List.range 4).foldl (fun (t : State) q => t.loseReplica blk q) s1).trapReel ctx (0x04, 0))

end Sys2Proof.Machine
end

