-- ==== Sys2Proof/Machine/KFlash.lean ====
section
/-! DEFINITION. The raw flash instructions of Krytfer: FREAD, FPROG, FERASE, FRECORD, FTEMP and FRESERVE (R148, R149, R204,
R205, R281, R299, R300, R334). -/

namespace Sys2Proof.Machine

/-! ### Operands (R204, R299) -/

/-- Die, block and page of a physical address. -/
def flashDie (a : Word) : Nat := bits a.toNat 26 11
def flashBlock (a : Word) : Nat := bits a.toNat 13 13
def flashPage (a : Word) : Nat := bits a.toNat 0 13

/-- Latency class: `mod` [6:5], coded as `fold_class`. -/
def flashCls (w : KWord) : Nat := State.classOf (bits w.mod.toNat 5 2)

/-- `mod` [0]: SLC. -/
def slcBit (w : KWord) : Bool := w.mod.getLsbD 0

/-- `mod` [4] of FREAD: raw. -/
def rawBit (w : KWord) : Bool := w.mod.getLsbD 4

/-- Bytes that FREAD writes. -/
def readLen (raw : Bool) : Nat := if raw then 18432 else 16384

/-- Bytes that FPROG takes: the data of a program unit, then 32 bytes of record per page. -/
def progLen (slc : Bool) : Nat := unitPages (!slc) * (16384 + 32)

namespace State

/-- Trap of an address: a die or block that the variant lacks, or a page at or beyond `pages` (R204, R283). -/
def addrTraps (s : State) (a : Word) (pages : Nat) : List TrapIf :=
  [(decide (2 ^ 37 ≤ a.toNat) || decide (s.part.variant.dies ≤ flashDie a) || decide (5600 ≤ flashBlock a) ||
    decide (pages ≤ flashPage a), 0x06, 1)]

/-- Trap of a span of a buffer that a unit reads or writes (R269, R302). -/
def spanTraps (s : State) (k : KCtx) (h : Word) (off n : Nat) : List TrapIf := [(s.outside k 2 off n h, 0x06, 1)]

/-- Protection level above Open (R281, R299). -/
def levelTrap (s : State) : List TrapIf := [(!s.isOpen, 0x02, 0x40)]

/-! ### Blocks that a reel may write (R149, R300, R334) -/

/-- A reel returns the block, and its erase has not ended. -/
def givenBack (s : State) (d b : Nat) : Bool := s.kry.ops.any (fun o => decide (o.op = .give d b))

/-- The block is reel-owned. -/
def reelOwned (s : State) (d b : Nat) : Bool := decide ((s.block d b).use = .reel) && !s.givenBack d b

/-- Reel-owned blocks of a die. -/
def reelBlocks (s : State) (d : Nat) : Nat := ((s.dieBlocks d).filter (fun e => decide (e.2.use = .reel))).length

/-- A reel may program or erase the block: reel-owned at Open, or a store block while the store is in maintenance. -/
def reelMay (s : State) (d b : Nat) : Bool :=
  (s.isOpen && s.reelOwned d b) || (s.kry.maint && (s.storePlace d b).isSome)

/-- The queue entry of a reel's flash operation. -/
def reelEntry (s : State) (k : KCtx) (t : Nat) (kind : DieOpKind) (b page cls : Nat) : QEntry :=
  { kind := kind, block := b, page := page, cls := cls, comp := k.comp, admittedAt := s.now, capWait := false,
    flush := false, purpose := .reel k.inst t }

/-- What the channel engine refuses a reel's program with: queued programs of the block count as done (R149). -/
def reelRefusal (s : State) (d : Nat) (e : QEntry) : Option Nat :=
  (s.setBlock d e.block { s.block d e.block with wp := s.nextPage d e.block }).refusal d e

/-- Traps 0x09 of a program or erase, in the order of R149. -/
def writeTraps (s : State) (d b : Nat) (refused : Option Nat) : List TrapIf :=
  [(!s.reelMay d b, 0x09, 0x02), (s.holdsImage d b, 0x09, 0x01), (refused.isSome, 0x09, refused.getD 0)]

/-- The live version of a store block that a reel programs or erases is a version no more (R316, R317). -/
def disturb (s : State) (d b : Nat) : State :=
  match s.storePlace d b with
  | none => s
  | some (r, i, v) => if s.liveVersion r i = v then s.loseReplica i r else s

/-- The bytes of a program unit reach the block: data pages, then page records (R299). -/
def layProgram (s : State) (d b page n : Nat) (bs : List Byte) : State :=
  let m1 := writeBytes s.fls.cells (pageByte d b page) (bs.take (n * 16384))
  let m2 := writeBytes m1 (recordByte d b page) (bs.drop (n * 16384))
  let x := d * 8192 + b
  { s with
    fls := { s.fls with cells := m2 }
    kry := { s.kry with touched := if (s.storePlace d b).isSome && !s.kry.touched.contains x then s.kry.touched ++ [x]
                                   else s.kry.touched } }

/-- A uncorrectable word in what a unit reads from a buffer, or a buffer whose contents are lost (R389, R405). -/
def badSpan (s : State) (k : KCtx) (h : Word) (off n : Nat) : Bool := s.badSource k 0 2 off n h

end State

open State

/-- FREAD (R117, R299): the page is read when its die has served it. -/
def execFread (w : KWord) (s : State) : Out :=
  s.runTicket "FREAD" { op := 0x70, useD := false, useA := true, useB := true, mask := 0x7F } w
    (fun k => s.unitTraps k (some 9) s.levelTrap ++ s.addrTraps (regA k w) 6144 ++
      s.spanTraps k (regB k w) w.imm.toNat (readLen (rawBit w)))
    (fun k => s.handleTraps k (regB k w)) (fun _ => [])
    (fun k t s =>
      let d := flashDie (regA k w)
      let b := flashBlock (regA k w)
      let p := flashPage (regA k w)
      let s1 := s.addOp w.ctx k.inst t (.readPage d b p (regB k w).toNat w.imm.toNat (rawBit w))
      if (s.die d).lost then s1 else s1.enqueue d (s.reelEntry k t .read b p (flashCls w)))

/-- Kind of a reel's program. -/
def progKind (slc : Bool) : DieOpKind := if slc then .progSlc else .progQlc

/-- Kind of a reel's erase. -/
def eraseOf (slc : Bool) : DieOpKind := if slc then .eraseSlc else .eraseQlc

/-- FPROG (R148, R149, R299, R300, R334, R337). -/
def execFprog (w : KWord) (s : State) : Out :=
  let slc := slcBit w
  let entry := fun (s : State) (k : KCtx) (t : Nat) =>
    s.reelEntry k t (progKind slc) (flashBlock (regA k w)) (flashPage (regA k w)) (flashCls w)
  s.runTicket "FPROG" { op := 0x71, useD := false, useA := true, useB := true, mask := 0x61 } w
    (fun k => s.unitTraps k (some 10) [] ++ s.addrTraps (regA k w) (pagesOf (!slc)) ++
      s.spanTraps k (regB k w) w.imm.toNat (progLen slc))
    (fun k => s.handleTraps k (regB k w))
    (fun k => s.writeTraps (flashDie (regA k w)) (flashBlock (regA k w))
      (s.reelRefusal (flashDie (regA k w)) (entry s k 0)))
    (fun k t s =>
      let d := flashDie (regA k w)
      let b := flashBlock (regA k w)
      let p := flashPage (regA k w)
      if s.badSpan k (regB k w) w.imm.toNat (progLen slc) then s.addOp w.ctx k.inst t (.answered 1 0)
      else
        let bs := s.spaceRead k 2 w.imm.toNat (progLen slc) (regB k w)
        (((s.addOp w.ctx k.inst t (.program d b p)).disturb d b).layProgram d b p (unitPages (!slc)) bs).enqueue d (entry s k t))

/-- FERASE (R150, R299, R300, R334, R337): a retired block and a block of a lost die are refused with detail 0x89. -/
def execFerase (w : KWord) (s : State) : Out :=
  let slc := slcBit w
  s.runTicket "FERASE" { op := 0x72, useD := false, useA := true, useB := false, mask := 0x61 } w
    (fun k => s.unitTraps k (some 10) [] ++ s.addrTraps (regA k w) 8192)
    (fun _ => [])
    (fun k => s.writeTraps (flashDie (regA k w)) (flashBlock (regA k w))
      (if s.deadBlock (flashDie (regA k w)) (flashBlock (regA k w)) then some 0x89 else none))
    (fun k t s =>
      let d := flashDie (regA k w)
      let b := flashBlock (regA k w)
      ((s.addOp w.ctx k.inst t (.erase d b)).disturb d b).enqueue d (s.reelEntry k t (eraseOf slc) b 0 (flashCls w)))

/-- FRECORD (R205, R299): the record reaches scratch with the completion. -/
def execFrecord (w : KWord) (s : State) : Out :=
  s.runTicket "FRECORD" { op := 0x73, useD := false, useA := true, useB := true, mask := 0x60 } w
    (fun k => s.unitTraps k (some 9) [] ++ s.addrTraps (regA k w) 6144 ++
      [(s.outside k 0 (regB k w).toNat 32 0, 0x06, 1)])
    (fun _ => []) (fun _ => [])
    (fun k t s =>
      let d := flashDie (regA k w)
      let b := flashBlock (regA k w)
      let p := flashPage (regA k w)
      let s1 := s.addOp w.ctx k.inst t (.readRecord d b p (regB k w).toNat)
      if (s.die d).lost then s1 else s1.enqueue d (s.reelEntry k t .read b p (flashCls w)))

/-- FTEMP (R299, R499). -/
def execFtemp (w : KWord) (s : State) : Out :=
  s.runTicket "FTEMP" { op := 0x74, useD := false, useA := true, useB := false, mask := 0x60 } w
    (fun k => s.unitTraps k (some 9) [])
    (fun k => [(decide (s.part.variant.dies ≤ (regA k w).toNat), 0x08, 1)]) (fun _ => [])
    (fun k t s => s.addOp w.ctx k.inst t (.readTemp (regA k w).toNat))

/-- Form of FRESERVE. -/
def formFreserve : Form := { op := 0x75, useD := false, useA := true, useB := true, mask := 0x61 }

/-- FRESERVE take or return, by `mod` [0]. -/
def runFreserve (s : State) (name : String) (give : Bool) (w : KWord) (eff : KCtx → Nat → State → State) : Out :=
  if w.mod.getLsbD 0 ≠ give then cannot name
  else s.runTicket name formFreserve w (fun k => s.unitTraps k (some 10) s.levelTrap)
    (fun k => [(decide (s.part.variant.dies ≤ (regA k w).toNat), 0x08, 1)]) (fun _ => []) eff

/-- FRESERVE_TAKE (R299, R300): at most 16 blocks of a die are reel-owned. -/
def execFreserveTake (w : KWord) (s : State) : Out :=
  runFreserve s "FRESERVE_TAKE" false w (fun k t s =>
    let d := (regA k w).toNat
    let taken := if 16 ≤ s.reelBlocks d then none else s.takeSpare d .spare .reel
    match taken with
    | some (b, s1) => s1.addOp w.ctx k.inst t (.answered 0 (BitVec.ofNat 64 b))
    | none => s.addOp w.ctx k.inst t (.answered 1 0))

/-- FRESERVE_RETURN (R299, R300): the block is erased in QLC mode and rejoins the spares. -/
def execFreserveReturn (w : KWord) (s : State) : Out :=
  runFreserve s "FRESERVE_RETURN" true w (fun k t s =>
    let d := (regA k w).toNat
    let b := (regB k w).toNat
    if decide (5600 ≤ b) || !s.reelOwned d b then s.addOp w.ctx k.inst t (.answered 2 0)
    else if (s.die d).lost then s.addOp w.ctx k.inst t (.answered 0 0)
    else
      (s.addOp w.ctx k.inst t (.give d b)).enqueue d (s.reelEntry k t .eraseQlc b 0 (flashCls w)))

end Sys2Proof.Machine
end

