-- ==== Sys2Proof/Machine/KTab.lean ====
section
/-! DEFINITION. The table instructions of Krytfer: TRD, TWR, PGCTL, NSCTL, ZCTL and TFIND (R79 to R83, R91 to R93, R294 to
R298, R598). -/

namespace Sys2Proof.Machine

/-- Sub-operation, table, resource or state code: `mod` [3:0]. -/
def modSel (w : KWord) : Nat := w.mod.toNat % 16

/-- The word selects sub-operation `n`; bits above [3:0] are judged by the form of the instruction. -/
def selects (w : KWord) (n : Nat) : Bool := decide (modSel w = n)

/-- Field that TRD and TWR name: `imm` [7:0]. -/
def fieldSel (w : KWord) : Nat := w.imm.toNat % 256

namespace State

/-! ### Tables (R294, R295) -/

/-- Entries of a table; none for a table number above 5. -/
def tableHas (s : State) (t i : Nat) : Bool :=
  match t with
  | 0 => s.zoneExists i
  | 1 => decide (i / 8192 < s.part.variant.dies) && decide (i % 8192 < 5600)
  | 2 => match s.convSpace with
    | some (_, n) => decide (i < s.spaceLbas n * n.unitsPerLba)
    | none => false
  | 3 => decide (i < 128)
  | 4 => decide (i < s.part.variant.groups)
  | 5 => decide (i = 0)
  | _ => false

/-- Field `f` is assigned in table `t`. -/
def fieldKnown (t f : Nat) : Bool :=
  match t with
  | 0 => decide (f ≤ 8) || (decide (16 ≤ f) && decide (f ≤ 31))
  | 1 => decide (f ≤ 9)
  | 2 => decide (f = 0)
  | 3 => decide (f ≤ 5)
  | 4 => decide (f ≤ 4)
  | 5 => decide (f ≤ 3)
  | _ => false

/-- A reel of compartment `c` may reach entry `i` of table `t`: the steward's any, another's its own. -/
def tableOpen (s : State) (t i c : Nat) : Bool :=
  decide (c = 0) || (match t with
    | 0 => decide (s.zoneComp i = c)
    | 2 => match s.convSpace with
      | some (_, n) => decide (n.comp = c)
      | none => false
    | 3 => match s.pgroup i with
      | some g => decide (g.comp = c)
      | none => false
    | _ => false)

/-- Bits of a set of stripe groups from `lo` on. -/
def groupMask (gs : List Nat) (lo : Nat) : Nat :=
  sumBy (fun g => if lo ≤ g ∧ g < lo + 64 then 2 ^ (g - lo) else 0) gs

/-- Table 0. -/
def zoneField (s : State) (z f : Nat) : Nat :=
  let v := s.zone z
  match f with
  | 0 => v.state.code
  | 1 => v.wp
  | 2 => v.cap
  | 3 => match v.setting with
    | none => 0
    | some false => 1
    | some true => 2
  | 4 => if v.direct then 1 else 0
  | 5 => (s.zoneNsid z).getD 0
  | 6 => s.zoneNumber z
  | 7 => s.zoneComp z
  | 8 => if v.pinned then 1 else 0
  | _ => match v.members[f - 16]? with
    | some m => m.1 * 8192 + m.2
    | none => 0xFFFFFFFF

/-- Table 1. -/
def blockField (s : State) (d b f : Nat) : Nat :=
  let k := s.block d b
  match f with
  | 0 => match k.use with
    | .retired => 4
    | .reel => 5
    | _ => roleCode k.role
  | 1 => k.wear
  | 2 => k.reads
  | 3 => s.pointerOf d b
  | 4 => if k.qlc then 0 else 1
  | 5 => match k.use with
    | .zone z => z
    | _ => 0xFFFFFF
  | 6 => k.first
  | 7 => k.last
  | 8 => k.hint
  | _ => match k.use with
    | .deferred _ => 1
    | _ => 0

/-- Table 3; an entry that is not valid reads 0. -/
def pgroupField (s : State) (p f : Nat) : Nat :=
  match s.pgroup p with
  | none => 0
  | some g => match f with
    | 0 => g.comp
    | 1 => 1
    | 2 => if g.defaultDirect then 1 else 0
    | 3 => g.nsid.getD 0
    | 4 => groupMask g.groups 0
    | _ => groupMask g.groups 64

/-- Zones of a stripe group that are not Empty. -/
def nonEmptyZones (s : State) (g : Nat) : Nat :=
  (s.zns.zones.filter (fun e => decide (e.1 / 5000 = g) && s.zoneExists e.1 && decide (e.2.state ≠ .empty))).length

/-- Table 4. -/
def stripeField (s : State) (g f : Nat) : Nat :=
  match f with
  | 0 => (s.groupPgroup g).getD 0xFF
  | 1 => s.spareMin g
  | 2 => if s.spareMin g = 0 then 1 else 0
  | 3 => s.nonEmptyZones g
  | _ => sumBy (fun d => (s.die d).loans) (groupDies g)

/-- Stripe rows of the conventional region that no copy has filled yet. -/
def freeConvRows (s : State) : Nat :=
  96 * (s.zns.carved * s.part.variant.groups - s.zns.convSlots.length) +
    (if s.zns.convRegionNext = 0 then 0 else 96 - s.zns.convRegionNext % 96)

/-- Table 5. -/
def translationField (s : State) (f : Nat) : Nat :=
  match f with
  | 0 => s.zns.reclaimPct
  | 1 => match s.convSpace with
    | some (_, n) => match n.kind with
      | .conventional g => g
      | .zoned _ => 0
    | none => 0
  | 2 => s.zns.carved
  | _ => s.freeConvRows

/-- What TRD reads. -/
def tableField (s : State) (t i f : Nat) : Nat :=
  match t with
  | 0 => s.zoneField i f
  | 1 => s.blockField (i / 8192) (i % 8192) f
  | 2 => (look 0xFFFFFFFF#32 s.zns.convMap i).toNat
  | 3 => s.pgroupField i f
  | 4 => s.stripeField i f
  | _ => s.translationField f

/-- Traps of the table, its field and its owner, in this order. -/
def tableTraps (s : State) (k : KCtx) (w : KWord) (write : Bool) : List TrapIf :=
  let t := modSel w
  let i := (regA k w).toNat
  let f := fieldSel w
  [(!s.tableHas t i, 0x08, 1), (!fieldKnown t f, 0x08, 2),
   (write && !((decide (t = 0) && decide (f = 3)) || (decide (t = 5) && decide (f = 0))), 0x08, 3),
   (!s.tableOpen t i k.comp, 0x08, 5)]

/-- Capability that TWR needs: zone fields or translation fields (R281). -/
def twrCap (w : KWord) : Option Nat := if modSel w = 0 then some 1 else if modSel w = 5 then some 3 else none

/-- A value that TWR may write (R61, R96). -/
def twrValue (w : KWord) (v : Nat) : Bool := if modSel w = 0 then decide (v ≤ 2) else decide (1 ≤ v) && decide (v ≤ 99)

/-- What TWR writes. -/
def tableWrite (s : State) (t i v : Nat) : State :=
  if t = 0 then
    (s.setZone i { s.zone i with setting := if v = 0 then none else some (decide (v = 2)) }).journal
  else ({ s with zns := { s.zns with reclaimPct := v } }).journal

/-! ### Placement groups (R79 to R83, R296) -/

/-- A placement group exists and carries a namespace. -/
def carriesSpace (s : State) (p : Nat) : Bool :=
  match s.pgroup p with
  | some g => g.nsid.isSome
  | none => false

/-- Traps of a compartment named in an operand (R296). -/
def compTraps (s : State) (c : Nat) : List TrapIf :=
  [(decide (1023 < c), 0x08, 7), (decide (c ≠ 0) && decide ((s.comp c).state = .free), 0x08, 4)]

/-- The stripe group joins a placement group; its groups stay in ascending order. -/
def addGroup (gs : List Nat) (g : Nat) : List Nat :=
  (gs.filter (fun x => decide (x < g))) ++ [g] ++ (gs.filter (fun x => decide (g < x)))

end State

open State

/-- Form of PGCTL. -/
def formPgctl : Form := { op := 0x62, useD := false, useA := true, useB := true, mask := 0xF }

/-- A PGCTL sub-operation: gated by capability 2, its placement group in range. -/
def runPgctl (s : State) (name : String) (sub : Nat) (w : KWord) (traps : Nat → Nat → List TrapIf)
    (eff : State → Nat → Nat → Answer) : Out :=
  if !selects w sub then cannot name
  else s.runJournal name formPgctl w (fun k => s.unitTraps k (some 2) [])
    (fun k => (decide (127 < (regA k w).toNat), 0x08, 1) :: traps (regA k w).toNat (regB k w).toNat) (fun _ => [])
    (fun k => eff s (regA k w).toNat (regB k w).toNat)

/-- TRD (R294, R295). -/
def execTrd (w : KWord) (s : State) : Out :=
  s.runJournal "TRD" { op := 0x60, useD := false, useA := true, useB := false, mask := 0xF } w
    (fun k => s.unitTraps k (some 0) []) (fun k => s.tableTraps k w false) (fun _ => [])
    (fun k => status s 0 [BitVec.ofNat 64 (s.tableField (modSel w) (regA k w).toNat (fieldSel w))])

/-- TWR (R61, R96, R294, R295). -/
def execTwr (w : KWord) (s : State) : Out :=
  s.runJournal "TWR" { op := 0x61, useD := false, useA := true, useB := true, mask := 0xF } w
    (fun k => s.unitTraps k (twrCap w) [])
    (fun k => s.tableTraps k w true ++ [(!twrValue w (regB k w).toNat, 0x08, 7)]) (fun _ => [])
    (fun k => status (s.tableWrite (modSel w) (regA k w).toNat (regB k w).toNat) 0 [])

/-- PGCTL_CREATE (R79, R296). -/
def execPgctlCreate (w : KWord) (s : State) : Out :=
  runPgctl s "PGCTL_CREATE" 0 w (fun _ b => s.compTraps b) (fun s p b => match s.pgroup p with
    | some _ => status s 1 []
    | none => status (s.setPgroup p (some { comp := b, defaultDirect := false, groups := [], nsid := none })).journal 0 [])

/-- PGCTL_DELETE (R296). -/
def execPgctlDelete (w : KWord) (s : State) : Out :=
  runPgctl s "PGCTL_DELETE" 1 w
    (fun p _ => match s.pgroup p with
      | some g => [(!g.groups.isEmpty || g.nsid.isSome, 0x08, 4)]
      | none => [])
    (fun s p _ => match s.pgroup p with
      | some _ => status (s.setPgroup p none).journal 0 []
      | none => status s 1 [])

/-- PGCTL_ADD_STRIPE_GROUP (R79, R80, R296). -/
def execPgctlAddStripeGroup (w : KWord) (s : State) : Out :=
  runPgctl s "PGCTL_ADD_STRIPE_GROUP" 2 w
    (fun p b => [(decide (s.part.variant.groups ≤ b), 0x08, 7),
      (s.carriesSpace p && decide (s.groupPgroup b ≠ some p), 0x08, 4)])
    (fun s p b => match s.pgroup p with
      | none => status s 1 []
      | some g => match s.groupPgroup b with
        | some q => if q = p then status s 0 [] else status s 2 []
        | none => status (s.setPgroup p (some { g with groups := addGroup g.groups b })).journal 0 [])

/-- PGCTL_REMOVE_STRIPE_GROUP (R80, R296). -/
def execPgctlRemoveStripeGroup (w : KWord) (s : State) : Out :=
  runPgctl s "PGCTL_REMOVE_STRIPE_GROUP" 3 w
    (fun p b => [(decide (s.part.variant.groups ≤ b), 0x08, 7), (s.carriesSpace p, 0x08, 4)])
    (fun s p b => match s.pgroup p with
      | none => status s 1 []
      | some g =>
        if g.groups.contains b then
          status (s.setPgroup p (some { g with groups := g.groups.filter (fun x => decide (x ≠ b)) })).journal 0 []
        else status s 3 [])

/-- PGCTL_MOVE (R81, R296). -/
def execPgctlMove (w : KWord) (s : State) : Out :=
  runPgctl s "PGCTL_MOVE" 4 w (fun p b => s.compTraps b ++ [(s.carriesSpace p, 0x08, 4)])
    (fun s p b => match s.pgroup p with
      | none => status s 1 []
      | some g => status (s.setPgroup p (some { g with comp := b })).journal 0 [])

/-- PGCTL_SET_DEFAULT_MODE (R81, R296). -/
def execPgctlSetDefaultMode (w : KWord) (s : State) : Out :=
  runPgctl s "PGCTL_SET_DEFAULT_MODE" 5 w (fun _ b => [(decide (1 < b), 0x08, 7)])
    (fun s p b => match s.pgroup p with
      | none => status s 1 []
      | some g => status (s.setPgroup p (some { g with defaultDirect := decide (b = 1) })).journal 0 [])

/-! ### Namespaces (R91 to R93, R297) -/

/-- NSID of the conventional namespace. -/
def convNsid : Nat := 129

/-- Slots carved per stripe group for a size in GiB (R91). -/
def carveOut (groups gib : Nat) : Nat := (gib * 1024 * 17 + 16 * (groups * 1440) - 1) / (16 * (groups * 1440))

/-- Form of NSCTL. -/
def formNsctl : Form := { op := 0x63, useD := false, useA := true, useB := true, mask := 0xF }

/-- A namespace comes into being (R55, R297, R419). -/
def State.makeSpace (s : State) (n : Nat) (e : NsEntry) : State := ((s.setSpace n (some e)).spaceChanged n e.comp).journal

/-- NSCTL_CREATE_ZONED (R55, R297, R422). -/
def execNsctlCreateZoned (w : KWord) (s : State) : Out :=
  if !selects w 0 then cannot "NSCTL_CREATE_ZONED"
  else s.runJournal "NSCTL_CREATE_ZONED" formNsctl w (fun k => s.unitTraps k (some 4) [])
    (fun k => [(decide (127 < (regA k w).toNat), 0x08, 1)]) (fun _ => [])
    (fun k =>
      let p := (regA k w).toNat
      match s.pgroup p with
      | none => status s 2 []
      | some g =>
        if g.nsid.isSome then status s 1 []
        else if g.groups.isEmpty then status s 2 []
        else
          status ((s.setPgroup p (some { g with nsid := some (p + 1) })).makeSpace (p + 1)
            { kind := .zoned p, comp := g.comp, lba16 := w.imm.getLsbD 0, deleting := false }) 0 [BitVec.ofNat 64 (p + 1)])

/-- NSCTL_CREATE_CONVENTIONAL (R91 to R93, R297). -/
def execNsctlCreateConventional (w : KWord) (s : State) : Out :=
  if !selects w 1 then cannot "NSCTL_CREATE_CONVENTIONAL"
  else s.runJournal "NSCTL_CREATE_CONVENTIONAL" formNsctl w (fun k => s.unitTraps k (some 4) [])
    (fun k =>
      let g := (regA k w).toNat
      [(decide (g < 1) || decide (2048 < g), 0x08, 7)] ++ s.compTraps (regB k w).toNat ++
      [(s.zns.spaces.any (fun e => match e.2 with
        | some n => match n.kind with
          | .zoned _ => true
          | .conventional _ => false
        | none => false), 0x08, 4)]) (fun _ => [])
    (fun k =>
      let g := (regA k w).toNat
      if s.convSpace.isSome then status s 1 []
      else
        let s1 := { s with zns := { s.zns with carved := carveOut s.part.variant.groups g } }
        status (s1.makeSpace convNsid
          { kind := .conventional g, comp := (regB k w).toNat, lba16 := w.imm.getLsbD 0, deleting := false }) 0
          [BitVec.ofNat 64 convNsid])

/-- A delete is admitted: it is journalled, and the namespace's carriages drain (R40, R297). -/
def State.beginDelete (s : State) (n : Nat) (e : NsEntry) : State :=
  let drain := fun (c : Carriage) => if c.coupled ∧ c.nsid = n then { c with draining := true } else c
  let s1 := s.setSpace n (some { e with deleting := true })
  ({ s1 with car := { s1.car with table := s1.car.table.map (fun (x : Nat × Carriage) => (x.1, drain x.2)) } }).journal

/-- NSCTL_DELETE (R40, R67, R70, R92, R297). -/
def execNsctlDelete (w : KWord) (s : State) : Out :=
  if !selects w 2 then cannot "NSCTL_DELETE"
  else s.runTicket "NSCTL_DELETE" formNsctl w (fun k => s.unitTraps k (some 4) []) (fun _ => []) (fun _ => [])
    (fun k t s =>
      let n := (regA k w).toNat
      match s.space n with
      | none => s.addOp w.ctx k.inst t (.answered 1 0)
      | some e =>
        let s1 := s.addOp w.ctx k.inst t (.deleteSpace n)
        if e.deleting then s1 else (s1.beginDelete n e).settleDeletes)

/-! ### Zones (R66, R298) -/

/-- Form of ZCTL. -/
def formZctl : Form := { op := 0x64, useD := false, useA := true, useB := false, mask := 0xF }

/-- The command of the zone's owner, in place of a host's (R298). -/
def State.ownerCmd (s : State) (z : Nat) : HostCmd :=
  { port := 0, comp := s.zoneComp z, qid := 0, cid := 0, nsid := (s.zoneNsid z).getD 0, fused := false, rsvd := false }

/-- A zone management action of a reel, carried out as the owning compartment's: refused while that compartment is frozen
(R364). -/
def State.reelZone (s : State) (c inst t z : Nat) (a : ZAct) : State :=
  let o := s.zoneComp z
  if s.frozen o then s.addOp c inst t (.answered (Status.vendor 0x83).code 0)
  else
    let v := { s.newFlight (s.ownerCmd z) a.kind 0 (s.comp o).res.cls (some z) with ticket := some (inst, t) }
    (((s.addOp c inst t (.zone v.id)).admitted o).addFlight v).zoneAct v z a

/-- A ZCTL zone action (R298): a carved slot or an identifier beyond the variant is out of range, another compartment's
zone not owned. -/
def runZctl (s : State) (name : String) (sub : Nat) (a : ZAct) (w : KWord) : Out :=
  if !selects w sub then cannot name
  else s.runTicket name formZctl w (fun k => s.unitTraps k (some 1) [])
    (fun k => [(!s.zoneExists (regA k w).toNat, 0x08, 1), (!s.tableOpen 0 (regA k w).toNat k.comp, 0x08, 5)]) (fun _ => [])
    (fun k t s => s.reelZone w.ctx k.inst t (regA k w).toNat a)

/-- ZCTL_OPEN (R65, R66, R298). -/
def execZctlOpen (w : KWord) (s : State) : Out := runZctl s "ZCTL_OPEN" 0 .open_ w

/-- ZCTL_CLOSE (R66, R71, R298). -/
def execZctlClose (w : KWord) (s : State) : Out := runZctl s "ZCTL_CLOSE" 1 .close w

/-- ZCTL_FINISH (R68, R69, R298). -/
def execZctlFinish (w : KWord) (s : State) : Out := runZctl s "ZCTL_FINISH" 2 .finish w

/-- ZCTL_RESET (R62, R70, R298). -/
def execZctlReset (w : KWord) (s : State) : Out := runZctl s "ZCTL_RESET" 3 .reset w

/-- ZCTL_OFFLINE (R67, R298). -/
def execZctlOffline (w : KWord) (s : State) : Out := runZctl s "ZCTL_OFFLINE" 4 .offline w

/-! ### TFIND (R294) -/

/-- The code names a zone state of `ZNE_ZONE_STAT` (R90, R598). -/
def stateCode (c : Nat) : Bool := [0x1, 0x2, 0x3, 0x4, 0xD, 0xE, 0xF].contains c

/-- Zone `z` is what a TFIND of compartment `c` looks for. -/
def State.finds (s : State) (c nsid code z : Nat) : Bool :=
  s.zoneExists z && (if nsid = 0 then decide (c = 0) || decide (s.zoneComp z = c) else decide (s.zoneNsid z = some nsid)) &&
    decide ((s.zone z).state.code = code)

/-- TFIND's status and g2: every index from the start on counts as visited, 65,536 of them at most. -/
def State.tableFind (s : State) (c start nsid code : Nat) : Nat × Nat :=
  let total := s.part.variant.groups * 5000
  let last := min total (start + 65536)
  match (List.range' start (last - start)).find? (s.finds c nsid code) with
  | some z => (0, z)
  | none => (if last = total then 1 else 2, last)

/-- TFIND (R294, R598). -/
def execTfind (w : KWord) (s : State) : Out :=
  s.runJournal "TFIND" { op := 0x65, useD := false, useA := true, useB := true, mask := 0xF } w
    (fun k => s.unitTraps k (some 0) [])
    (fun k => [(decide (s.part.variant.groups * 5000 ≤ (regA k w).toNat), 0x08, 1),
      (decide (k.comp ≠ 0) && (match s.space (regB k w).toNat with
        | some n => decide (n.comp ≠ k.comp)
        | none => false), 0x08, 5), (!stateCode (modSel w), 0x08, 7)]) (fun _ => [])
    (fun k =>
      let r := s.tableFind k.comp (regA k w).toNat (regB k w).toNat (modSel w)
      status s r.1 [BitVec.ofNat 64 r.2])

end Sys2Proof.Machine
end

