-- ==== Sys2Proof/Machine/ReelAdmin.lean ====
section
/-! DEFINITION. The reel commands of a host: the cache, the store, start, halt and status (R314, R318 to R327, R335 to R337,
R427, R429). -/

namespace Sys2Proof.Machine

/-- Reel Load, Halt and Reel Start; Reel Status; Reel Store Write (R15, R357, R364, R561). -/
def reelRow : State.AdminRow := { parked := true, sanitize := false, compartment := true, changes := false }
def startRow : State.AdminRow := { parked := true, sanitize := false, compartment := true, changes := true }
def statusRow : State.AdminRow := { parked := true, sanitize := true, compartment := true, changes := false }
def storeRow : State.AdminRow := { parked := true, sanitize := false, compartment := false, changes := false }

/-- Capabilities marked "steward" in R281. -/
def stewardCaps : Word := 0x7769C

/-- An admin command reaches an object of compartment `c`: its own, or any for the steward (R357, R427). -/
def reaches (h : HostCmd) (c : Nat) : Bool := decide (h.comp = 0) || decide (h.comp = c)

namespace State

/-! ### The cache (R313, R314) -/

/-- The lowest free cache handle. -/
def freeHandle (s : State) : Option Nat := (List.range 64).find? (fun n => (look Option.none s.kry.pinned n).isNone)

/-- The pinned image of a handle. -/
def pinnedAt (s : State) (n : Nat) : Option Pinned := look Option.none s.kry.pinned n

/-- Writes the pinned image of a handle. -/
def setPinned (s : State) (n : Nat) (v : Option Pinned) : State :=
  { s with kry := { s.kry with pinned := put Option.none s.kry.pinned n v } }

/-- Reel Load: the image is checked, and pinned where there is a handle and room. -/
def loadImage (s : State) (h : HostCmd) (image : List Byte) : State :=
  let m := imageOf image
  match s.imageRefusal m.1 m.2 with
  | some st => s.fail h st
  | Option.none => match s.freeHandle with
    | some n =>
      if s.pinnedTotal + pinnedBytes m.2 ≤ 12582912 then
        (((s.setPinned n (some { comp := h.comp, image := m.1, length := m.2 })).makeRoom 0 []).makeRoom 1 []).done h (BitVec.ofNat 32 n)
      else s.fail h .sequenceError
    | Option.none => s.fail h .sequenceError

/-- An instance runs from a cache handle. -/
def runsHandle (s : State) (n : Nat) : Bool :=
  s.kry.insts.any (fun e => match e.2 with
    | some x => decide (x.source = 1) && decide (x.place = n)
    | Option.none => false)

/-- Unload of a handle. -/
def unloadImage (s : State) (h : HostCmd) (n : Nat) : State :=
  match s.pinnedAt n with
  | Option.none => s.fail h .invalidField
  | some x =>
    if !reaches h x.comp then s.fail h .invalidField
    else if s.runsHandle n then s.fail h .sequenceError
    else (s.setPinned n Option.none).done h 0

/-! ### Start (R318 to R324) -/

/-- Port on which the PASID of a start is judged: the compartment's, or the command's for the steward. -/
def startPort (s : State) (h : HostCmd) (c : Nat) : Nat := if c = 0 then h.port else (s.comp c).port

/-- The parameters of a Reel Start as R318, R322 and R427 allow them. -/
def startFormed (s : State) (h : HostCmd) (a : ReelArgs) : Bool :=
  decide (a.comp < 1024) && reaches h a.comp &&
    (match a.source with
      | 0 => decide (a.place % 4096 = 0)
      | 1 => decide (a.place < 64)
      | 2 => decide (a.place < 256)
      | _ => false) &&
    (match a.pasid with
      | some p => s.cmp.pasids.contains (s.startPort h a.comp, p, a.comp)
      | Option.none => decide (a.comp = 0))

/-- The image that a start names, or the status that refuses it. -/
def startImage (s : State) (h : HostCmd) (a : ReelArgs) : Except Status (SMap Byte × Nat) :=
  match a.source with
  | 0 => if a.readOk then .ok (imageOf a.image) else .error .dataTransferError
  | 1 => match s.pinnedAt a.place with
    | some x => if reaches h x.comp then .ok (x.image, x.length) else .error .invalidField
    | Option.none => .error .invalidField
  | _ =>
    if s.slotBusy a.place then .error .sequenceError
    else match s.slotImage a.place with
      | Option.none => .error .unrecoveredRead
      | some Option.none => .error .invalidField
      | some (some m) => .ok m

/-- A running instance whose image has this check, of this compartment (R319). -/
def twinOf (s : State) (check : Word) (c : Nat) : Option Nat :=
  (s.kry.insts.find? (fun e => match e.2 with
    | some x => decide (x.check = check) && decide (s.instComp x = c)
    | Option.none => false)).map (·.1)

/-- Home contexts of region `r`, in ascending order (R28). -/
def homeCtxs (r : Nat) : List Nat := (List.range 32).map (fun i => (r * 16 + i / 2) * 4 + i % 2)

/-- Free and busy home contexts of a region. -/
def freeHomes (s : State) (r : Nat) : List Nat := (homeCtxs r).filter s.ctxFree
def busyHomes (s : State) (r : Nat) : Nat := ((homeCtxs r).filter (fun c => (s.kctx c).isSome)).length

/-- Running instances of a compartment. -/
def instancesOf (s : State) (c : Nat) : Nat := (s.kry.ctxs.filter (fun e => match e.2 with
  | some k => decide (k.comp = c)
  | Option.none => false)).length

/-- The home context that a new reel of compartment `c` takes (R321). -/
def homeFor (s : State) (c : Nat) : Option Nat :=
  let a := s.freeHomes 0
  let b := s.freeHomes 1
  if c ≠ 0 ∧ (a.length + b.length ≤ min 64 s.kry.stewardCtx ∨ max 1 s.kry.perCmp ≤ s.instancesOf c) then Option.none
  else if s.busyHomes 0 ≤ s.busyHomes 1 then a.head?.orElse (fun _ => b.head?) else b.head?.orElse (fun _ => a.head?)

/-- The instruction budget of an image for compartment `c` (R323). -/
def budgetOf (m : SMap Byte) (c : Nat) : Nat :=
  let b := if imageBudget m = 0 then 65536 else imageBudget m
  if c = 0 then b else min b 65536

/-- g1 to g31 at start (R324). -/
def startRegs (args : List Word) : List Word :=
  (List.range 7).map (fun i => (args[i]?).getD 0) ++ List.replicate 22 0 ++ [0x4000, 0]

/-- The context of a reel that starts (R266, R324). -/
def startCtx (inst : Nat) (a : ReelArgs) (m : SMap Byte) : KCtx :=
  let regs := startRegs a.args
  let flags : KFlags := { z := false, n := false, c := false, v := false }
  { inst := inst, regs := regs, pc := imageEntry m, flags := flags, cap := imageCaps m, comp := a.comp
    slot := if a.source = 2 then a.place else 0x1FF, relieved := false, epoch := 0, scratch := [], image := m
    codeLen := imageCode m, budget := budgetOf m a.comp, count := 0, retired := 0, wait := .ready, tickets := []
    journal := [], jpos := 0, held := [], kept := [], unitKept := [], applied := Option.none
    saved := { regs := regs, pc := imageEntry m, flags := flags, scratch := [], tickets := [], epoch := 0, retired := 0 }
    haltAt := Option.none, grace := 0, halts := [] }

/-- What the module keeps of an instance (R318 to R320, R333, R334). -/
def startInst (s : State) (h : HostCmd) (a : ReelArgs) (c : Nat) (m : SMap Byte × Nat) : KInst :=
  { ctx := c, source := a.source, place := a.place, pasid := a.pasid, port := s.startPort h a.comp
    single := imageSingle m.1, signed := imageSigned m.1, check := imageCheckField m.1, startAt := s.now, events := []
    eventsLost := 0, subs := [], lines := if a.source = 1 then List.range ((m.2 + 4095) / 4096) else []
    versions := if a.source = 2 then (List.range 4).map (fun r => s.liveVersion r (a.place / 16)) else [] }

/-- Starts a reel in context `c`: the serial moves on, and event 0x0800 names the instance (R320). -/
def launch (s : State) (h : HostCmd) (a : ReelArgs) (c : Nat) (m : SMap Byte × Nat) : State :=
  let n := s.kry.serial + 1
  let inst := n.toNat * 256 + c
  let s1 := { s with kry := { s.kry with serial := n } }
  let s2 := (s1.setKctx c (some (startCtx inst a m.1))).setKinst inst (some (s1.startInst h a c m))
  ((s2.startClock (96 + c / 4)).event 0x0800 0 (srcCaller c) a.comp
    [inst, if a.source = 2 then a.place else 0x1FF, a.comp]).complete h .success (BitVec.ofNat 32 inst) 0

/-- Reel Start: the parameters, the freeze, the image and its checks, the capabilities, the argument block, a single
instance that runs already, and a free context, in that order. -/
def startReel (s : State) (h : HostCmd) (a : ReelArgs) : State :=
  if !s.startFormed h a then s.fail h .invalidField
  else if s.frozen a.comp then (s.countRefused h.comp).fail h (.vendor 0x83)
  else match s.startImage h a with
    | .error st => s.fail h st
    | .ok m => match s.imageRefusal m.1 m.2 with
      | some st => s.fail h st
      | Option.none =>
        if a.comp ≠ 0 ∧ imageCaps m.1 &&& stewardCaps ≠ 0 then s.fail h .invalidField
        else if !a.readOk then s.fail h .dataTransferError
        else match (if imageSingle m.1 then s.twinOf (imageCheckField m.1) a.comp else Option.none) with
          | some i => s.complete h .success (BitVec.ofNat 32 i) 1
          | Option.none => match s.homeFor a.comp with
            | some c => s.launch h a c m
            | Option.none => s.fail h .sequenceError

/-! ### Halt and status (R325, R327, R429) -/

/-- The record of an instance that has stopped. -/
def endedRecord (s : State) (i : Nat) : Option KRecord := s.kry.records.find? (fun r => decide (r.inst = i))

/-- The record of an instance, running or among the last 256 that stopped (R325). -/
def statusOf (s : State) (i : Nat) : Option KRecord :=
  match s.kinst i with
  | some x => (s.kctx x.ctx).map (fun k =>
      let st := if k.haltAt.isSome then 3 else if k.wait = .ready then 1 else 2
      { s.recordOf x.ctx k x st 0 0 with endAt := 0 })
  | Option.none => s.endedRecord i

/-- The 64 bytes of a status record (R325). -/
def recordBytes (r : KRecord) : List Byte :=
  let flag := fun (b : Bool) (n : Nat) => if b then 2 ^ n else 0
  leBytes 4 r.inst ++ leBytes 1 r.state ++ leBytes 1 r.trapCode ++ leBytes 2 r.trapDetail ++ leBytes 4 r.pc ++
    leBytes 4 r.epoch.toNat ++ leBytes 8 r.result.toNat ++ leBytes 8 r.retired ++ leBytes 1 (r.ctx / 4) ++
    leBytes 1 (r.ctx % 4) ++ leBytes 1 (flag r.relieved 0 + flag r.single 1 + flag r.signed 2) ++ leBytes 1 0 ++
    leBytes 2 r.comp ++ leBytes 2 r.slot ++ leBytes 8 r.startAt ++ leBytes 8 r.endAt ++ leBytes 2 r.journal ++
    leBytes 1 r.tickets ++ leBytes 5 0

/-- A Reel Halt of a running instance: halt-pending with the shorter remaining grace, or the stop at once (R327). -/
def haltInst (s : State) (h : HostCmd) (x : KInst) (graceMs : Nat) : State :=
  match s.kctx x.ctx with
  | Option.none => s
  | some k =>
    let t := s.now + graceMs * 1000000
    let sooner := match k.haltAt with
      | some u => decide (t < u)
      | Option.none => true
    let k1 := { k with
      haltAt := if sooner then some t else k.haltAt
      grace := if sooner then graceMs else k.grace
      halts := k.halts ++ [h] }
    let s1 := s.setKctx x.ctx (some k1)
    if graceMs = 0 then s1.stopReel x.ctx 6 0 0 else s1

/-- Reel Halt (R327, R429). -/
def haltReel (s : State) (h : HostCmd) (i graceMs : Nat) : State :=
  match s.statusOf i with
  | Option.none => s.fail h .invalidField
  | some r =>
    if !reaches h r.comp then s.fail h .invalidField
    else match s.kinst i with
      | some x => s.haltInst h x graceMs
      | Option.none => s.done h 0

/-- Reel Status (R325). -/
def statusReel (s : State) (h : HostCmd) (i : Nat) : State :=
  match s.statusOf i with
  | Option.none => s.fail h .invalidField
  | some r => if reaches h r.comp then (s.emit (.data h (recordBytes r))).done h 0 else s.fail h .invalidField

end State

/-! ### The commands -/

/-- REEL_LOAD (R312 to R314, R427). -/
def execReelLoad (h : HostCmd) (image : List Byte) (s : State) : Out :=
  admin "REEL_LOAD" h reelRow s (fun t => t.loadImage h image)

/-- REEL_UNLOAD (R314, R427). -/
def execReelUnload (h : HostCmd) (handle : Nat) (s : State) : Out :=
  admin "REEL_UNLOAD" h reelRow s (fun t => t.unloadImage h handle)

/-- A store operation of a host command. -/
def storeWriteOf (h : HostCmd) (op : StoreOp) (slot : Nat) (image : List Byte) : StoreWrite :=
  { cmd := some h, op := op, slot := slot, image := imageOf image, replica := 0, unit := 0, written := 0, seq := 0 }

/-- ENTER_MAINTENANCE (R335, R336, R427). -/
def execEnterMaintenance (h : HostCmd) (s : State) : Out :=
  admin "ENTER_MAINTENANCE" h storeRow s (fun t => t.storeAdmit (storeWriteOf h .enter 0 []))

/-- LEAVE_MAINTENANCE (R335 to R337, R427): behind every store write before it. -/
def execLeaveMaintenance (h : HostCmd) (s : State) : Out :=
  admin "LEAVE_MAINTENANCE" h storeRow s (fun t => t.storeAdmit (storeWriteOf h .leave 0 []))

/-- STORE_WRITE_SLOT (R335, R336, R427). -/
def execStoreWriteSlot (h : HostCmd) (slot : Nat) (image : List Byte) (s : State) : Out :=
  admin "STORE_WRITE_SLOT" h storeRow s (fun t => t.storeAdmit (storeWriteOf h .write slot image))

/-- STORE_CLEAR_SLOT (R335, R336, R427). -/
def execStoreClearSlot (h : HostCmd) (slot : Nat) (s : State) : Out :=
  admin "STORE_CLEAR_SLOT" h storeRow s (fun t => t.storeAdmit (storeWriteOf h .clear slot []))

/-- REEL_START (R318 to R324, R427). -/
def execReelStart (h : HostCmd) (a : ReelArgs) (s : State) : Out :=
  admin "REEL_START" h startRow s (fun t => t.startReel h a)

/-- REEL_HALT (R327, R429): a grace time above 65,535 ms is a reserved field that is not 0. -/
def execReelHalt (h : HostCmd) (inst graceMs : Nat) (s : State) : Out :=
  admin "REEL_HALT" h reelRow s (fun t => if 65536 ≤ graceMs then t.fail h .invalidField else t.haltReel h inst graceMs)

/-- REEL_HALT_GRACE_EXPIRY (R327): the grace time has ended, and the module stops the reel in state 6. -/
def execReelHaltGraceExpiry (inst : Nat) (s : State) : Out :=
  match s.kinst inst with
  | none => cannot "REEL_HALT_GRACE_EXPIRY"
  | some x => match (s.kctx x.ctx).bind (·.haltAt) with
    | none => cannot "REEL_HALT_GRACE_EXPIRY"
    | some t => .next ((s.advanceTo t).stopReel x.ctx 6 0 0)

/-- REEL_STATUS (R325). -/
def execReelStatus (h : HostCmd) (inst : Nat) (s : State) : Out :=
  admin "REEL_STATUS" h statusRow s (fun t => t.statusReel h inst)

end Sys2Proof.Machine
end

