-- ==== Sys2Proof/Machine/SecOps.lean ====
section
/-! DEFINITION. The security engine: the option area, the protection levels, the key slots and what a sanitize does (R199,
R200, R543 to R564). -/

namespace Sys2Proof.Machine

/-- Code of a sanitize action in `SEC_SANITIZE` and in its events (R563). -/
def Sanitizing.code : Sanitizing → Nat
  | .none => 0 | .crypto => 1 | .block => 2 | .lowering => 3

namespace State

/-! ### The option area (R199, R200, R401, R549 to R552) -/

/-- Die of option copy `i` (R199). -/
def copyDie (i : Nat) : Nat := 21 * i

/-- Option copy `i`. -/
def optCopy (s : State) (i : Nat) : OptCopy :=
  (s.sec.optCopies[i]?).getD { image := Option.none, block := 0, units := 0, retired := [] }

/-- A block of 0 to 7 of a copy's die is retired. -/
def copyRetired (s : State) (i b : Nat) : Bool :=
  (s.optCopy i).retired.contains b || decide ((s.block (copyDie i) b).use = .retired)

/-- The block that the next image of copy `i` goes to, and whether it is a move; none where all eight are retired (R200). -/
def copyBlock (s : State) (i : Nat) : Option (Nat × Bool) :=
  let c := s.optCopy i
  if c.units < 384 && !s.copyRetired i c.block then some (c.block, false)
  else (((List.range 8).map (fun k => (c.block + 1 + k) % 8)).find? (fun b => !s.copyRetired i b)).map (fun b => (b, true))

/-- Sets what copy `i` holds. -/
def setCopy (s : State) (i : Nat) (c : OptCopy) : State :=
  { s with sec := { s.sec with optCopies := modAt s.sec.optCopies i (fun _ => c) } }

/-- The pages of an image (R199, R202). -/
def optionPages (img : OptImage) (lpage seq time : Nat) : List (List Byte × PageRecord) :=
  (List.range 4).map (fun j => (readBytes (writeBytes img.body 0 img.header) (j * 16384) 16384, systemRecord 1 (lpage + j) false seq time))

/-- Writes an image to copy `i` and reads it back (R199, R200); `fails` blocks fail their erase or program first, are retired
(R192), and the next takes the image. A copy on a lost die, or with no block left, holds none. At most `n` blocks are tried. -/
def writeCopy : Nat → State → Nat → OptImage → Bool → Nat → State
  | 0, s, i, _, _, _ => s.setCopy i { s.optCopy i with image := Option.none }
  | n + 1, s, i, img, good, fails =>
    let d := copyDie i
    let c := s.optCopy i
    match (if (s.die d).lost then Option.none else s.copyBlock i) with
    | Option.none => s.setCopy i { c with image := Option.none }
    | some (b, move) =>
      let k := s.block d b
      let s1 := if move && decide (0 < k.wp) then (s.eraseCells d b).setBlock d b (erasedBlock k .eraseSlc) else s
      let s2 := (s1.takeSeq 1).2
      let s3 := s2.programNow d b (optionPages img ((s1.block d b).wp) s2.zns.seq s.now) false
      if 0 < fails then
        writeCopy n ((s3.retire d b 0).setCopy i { c with block := b, units := 384, retired := c.retired ++ [b] }) i img good (fails - 1)
      else s3.setCopy i { c with image := if good then some img else Option.none, block := b
                                 units := if move then 1 else c.units + 1 }

/-- The copies that hold an image after a commit. -/
def copiesWith (s : State) (img : OptImage) : Nat :=
  (s.sec.optCopies.filter (fun c => decide (c.image = some img))).length

/-- The pending soft repairs joined to an image's bytes: entries behind those in use, and the count (R401, R549). -/
def mergeRepairs (s : State) (m : SMap Byte) : SMap Byte :=
  let n := min 512 (leNat (readBytes m 448 2))
  let new := s.mem.softPending.take (512 - n)
  writeBytes (writeBytes m (8192 + 8 * n) (new.flatMap (fun e => leBytes 8 e.toNat))) 448 (leBytes 2 (n + new.length))

/-- A commit of the option area with a level byte (R550): true where some copy reads back. -/
def commitOption (s : State) (level : Nat) (merge : Bool) (readBack : BitVec 4) (failed : List Nat) : State × Bool :=
  let m := if merge then s.mergeRepairs s.sec.optStage else s.sec.optStage
  let s1 : State := if merge then { s with mem := { s.mem with softPending := [] }, sec := { s.sec with optStage := m } } else s
  let img : OptImage := {
    generation := (s.sec.optInForce.generation + 1) % 2 ^ 32
    bytes := put 0 (m.filter (fun (e : Nat × Byte) => decide (16 ≤ e.1))) 32 (BitVec.ofNat 8 level) }
  let s2 := [0, 1, 2, 3].foldl (fun (t : State) i => writeCopy 9 t i img (readBack.getLsbD i) (failed.filter (fun x => decide (x = i))).length) s1
  let n := s2.copiesWith img
  if n = 0 then (s2, false)
  else
    let s3 : State := { s2 with sec := { s2.sec with optInForce := img, optStage := put 0 s2.sec.optStage 32 (BitVec.ofNat 8 level) } }
    (s3.event 0x0F04 1 srcSecurity 0 [img.generation, n], true)

/-- Level byte that goes with the level in force (R544, R546). -/
def levelByte (s : State) : Nat := if s.sec.level = .opened then 0 else 1

/-- The commit of `SEC_OPT_CMD` (R551, R552). -/
def optionCommit (s : State) (merge : Bool) (readBack : BitVec 4) (failed : List Nat) : State :=
  if (look 0 s.sec.optStage 32).toNat ≠ s.levelByte then { s with sec := { s.sec with optStatus := 1 } }
  else
    let (t, ok) := s.commitOption s.levelByte merge readBack failed
    { t with sec := { t.sec with optStatus := if ok then 0 else 2 } }

/-- The reload of `SEC_OPT_CMD` (R552). -/
def optionReload (s : State) : State :=
  let o := s.sec.optInForce
  { s with sec := { s.sec with optStage := writeBytes o.body 0 o.header, optStatus := 0 } }

/-! ### What a sanitize erases (R547, R560 to R562) -/

/-- What a zone engine and the translation engine keep: every zone Empty, every conventional unit unmapped. -/
def wipedZones (z : Zones) : Zones :=
  { z with
    zones := [], data := [], tags := [], rows := [], convMap := [], convData := [], convTags := [], convShare := 0
    convNext := 0, convPend := [], convRegionNext := 0, convSlots := [], convRows := [], convFills := [], unreadable := [], online := false }

/-- The role that a block has once it is erased. -/
def nextRole (b : Block) : Role :=
  match b.use with
  | .deferred r => r
  | _ => b.role

/-- The block erase reaches a block: it is no system block, not retired, and its die is not lost. -/
def wipeable (s : State) (d : Nat) (b : Block) : Bool :=
  !((s.die d).lost || decide (b.use = .retired) || decide (b.role = .system))

/-- A zone, landing or spare block after the block erase: in its role's mode and free; a reel's block stays the reel's
(R560). Retired blocks, and those of lost dies, are as they were. -/
def wipedBlock (s : State) (d : Nat) (b : Block) : Block :=
  if !s.wipeable d b then b
  else
    let r := nextRole b
    { erasedBlock b (if r = .landing then .eraseSlc else .eraseQlc) with
      role := r, use := if b.use = .reel then .reel else .free }

/-- The block erase (R560). -/
def eraseAll (s : State) : State :=
  let n := s.fls.fullErases + 1
  { s with fls := { s.fls with
      fullErases := n
      blocks := (s.fls.blocks.map (fun e => (e.1, s.wipedBlock (e.1 / 8192) e.2))).foldl
        (fun m e => put (freshBlock n (e.1 % 8192)) m e.1 e.2) []
      cells := s.fls.cells.filter (fun e => !s.wipeable (e.1 / 2 ^ 27 / 8192) (s.block (e.1 / 2 ^ 27 / 8192) (e.1 / 2 ^ 27 % 8192)))
      dies := (s.fls.dies.map (fun e => (e.1, { e.2 with eraseQueue := [] }))).filter (fun e => decide (e.2 ≠ Die.idle)) } }

/-- The blocks that held data join the deferred-erase queues of their dies (R171, R560). -/
def dropAll (s : State) : State :=
  (s.fls.blocks.filter (fun e => match e.2.use with
    | .zone _ | .conventional | .landingOpen | .landingClosed | .target | .leaving => true
    | _ => false)).foldl (fun t e => t.deferErase (e.1 / 8192) (e.1 % 8192) e.2.role) s

/-- Everything the media was doing for zones ends. -/
def mediaStops (s : State) : State :=
  let kept := fun (p : Purpose) => match p with
    | .store => true
    | _ => false
  { s with
    zns := wipedZones s.zns
    nv := { s.nv with zones := wipedZones s.nv.zones }
    fls := { s.fls with
      landing := [], relocs := [], refresh := [], rebuild := [], compacting := [], pinWarning := false
      dies := (s.fls.dies.map (fun e => (e.1, { e.2 with
        landingBlock := Option.none, starved := false, passed := 0, owed := 0
        queue := e.2.queue.filter (fun q => kept q.purpose)
        op := e.2.op.filter (fun (o : DieOp) => kept o.entry.purpose) }))).filter (fun e => decide (e.2 ≠ Die.idle)) }
    car := { s.car with flights := [], staged := [] } }

/-- Ends a job of the codec with a status. -/
def failJob (s : State) (i : Nat) (j : CodecJob) : State :=
  match j.work with
  | .append cmd _ _ _ _ _ _ _ _ => (s.dropJob i).fail cmd .sanitizeInProgress
  | .save cmd => (s.dropJob i).fail cmd .sanitizeInProgress
  | .restore cmd _ => (s.dropJob i).fail cmd .sanitizeInProgress
  | .read _ _ _ | .reel _ _ => s.dropJob i

/-- Codec jobs of compartment 0 and of reels end, at most `n` of them. -/
def failJobs : Nat → State → State
  | 0, s => s
  | n + 1, s =>
    let mine := fun (j : CodecJob) => match j.work with
      | .reel _ _ => true
      | _ => s.jobOf (fun h => decide (h.comp = 0)) j
    match s.fcd.jobs.findIdx? mine with
    | some i => match s.fcd.jobs[i]? with
      | some j => failJobs n (s.failJob i j)
      | Option.none => s
    | Option.none => s

/-- Carriages of compartment 0 that are coupled. -/
def mainCarriages (s : State) : List Nat :=
  (s.car.table.filter (fun e => e.2.coupled && decide (e.2.comp = 0))).map (·.1)

/-- A sanitize begins (R561): reels stop in state 6, compartments are reset, carriages are uncoupled and what still rides
them completes, the crypto erase is in the journal, and the module is Parked; a mount under way waits (R562). -/
def beginSanitize (s : State) (a : Sanitizing) (ause : Bool) : State :=
  let s1 := (s.kry.ctxs.map (·.1)).foldl (fun t c => t.stopReel c 6 0 0) s
  let s2 := (((List.range 1024).drop 1).filter (fun n => decide ((s1.comp n).state ≠ .free))).foldl
    (fun t n => t.beginReset n .sanitize) s1
  let s3 := failJobs s2.fcd.jobs.length s2
  let own := fun (v : Flight) => decide (v.cmd.comp = 0) || v.ticket.isSome || v.peer.isSome
  let s4 := ((s3.car.flights.filter own).map (·.id)).foldl (fun (t : State) i => match t.flight i with
    | some v => t.killFlight v .sanitizeInProgress
    | Option.none => t) s3
  let s5 := (s4.mainCarriages.foldl uncoupleNow s4).journalNow
  let gone := (s5.sec.keys.filter (fun e => decide (e.1 < 1024) && decide ((s5.comp e.1).state ≠ .free))).map (·.1)
  let s6 := gone.foldl (fun t n => t.setComp n { t.comp n with keyErased := true }) s5
  let mounting := decide (s.mnt.state = 1) || decide (s.mnt.state = 2) || decide (s.mnt.state = 3)
  let s7 : State := { s6 with
    sec := { s6.sec with keys := [], sanAction := a, sanActive := true, sanResumed := false, sanAuse := ause
                         sanPct := 0, sanStart := s.now, lowering := decide (a = .lowering) }
    nv := { s6.nv with keys := s6.nv.keys.filter (fun e => decide (e.1 = 1039)) }
    boot := { s6.boot with parked := true }
    zns := { s6.zns with online := false }
    mnt := { s6.mnt with state := if mounting then s.mnt.state else 0, waiting := mounting, stopping := false, closing := false, firstCkpt := false }
    jrn := { s6.jrn with running := false } }
  s7.settleKey.event 0x0F01 2 srcSecurity 0 [a.code, 0]

/-- A sanitize ends with its checkpoint written (R547, R560): what it erases is gone, slot 1,024 is new, a waiting mount goes
on, and a lowering commits the level byte. -/
def endSanitize (s : State) (ms : Nat) : State :=
  let a := s.sec.sanAction
  let s1 := (if a = .crypto then s.dropAll else s).mediaStops
  let s2 := (if a = .crypto then s1 else s1.eraseAll)
  let s3 : State := (({ s2 with
    sec := { s2.sec with sanActive := false, sanFailed := false, sanPct := 100 }
    nv := { s2.nv with keys := put 0 s2.nv.keys 1024 (Config.freeNat s2.free + 1) }
    jrn := { s2.jrn with tail := 0 }
    mnt := { s2.mnt with waiting := false } }).draw.ckptWhole.ckptInForce).writeMarker 1
  let s4 := s3.event 0x0F02 1 srcSecurity 0 [a.code, ms]
  if a = .lowering then
    let (t, ok) := s4.commitOption 0 false 15 []
    let u : State := { t with sec := { t.sec with lowering := false, protDone := true, protStatus := 0
                                                  level := if ok then .opened else t.sec.level } }
    if ok then u.event 0x0F00 4 srcSecurity 0 [1, 0] else u
  else s4

/-- A sanitize fails: no journal or checkpoint replica could be written (R562). -/
def sanitizeFails (s : State) : State :=
  let t : State := { s with sec := { s.sec with sanActive := false, sanFailed := true, lowering := false
                                                protDone := s.sec.protDone || decide (s.sec.sanAction = .lowering) }
                            mnt := { s.mnt with waiting := false, state := if s.mnt.waiting then 5 else s.mnt.state } }
  (t.event 0x0F03 4 srcSecurity 0 [s.sec.sanAction.code]).answerOps (fun o => decide (o = .mount)) 2

/-! ### Levels (R543 to R548) -/

/-- A level command that finds another one, a lowering or a sanitize running (R548). -/
def protBusy (s : State) : Bool := s.sec.sanActive || s.sec.lowering || !s.sec.protDone

/-- Status of the last level command. -/
def protAnswer (s : State) (st : Nat) : State := { s with sec := { s.sec with protStatus := st } }

/-- An instance started from an unsigned image runs (R545). -/
def unsignedRuns (s : State) : Bool :=
  s.kry.insts.any (fun e => match e.2 with
    | some i => !i.signed
    | Option.none => false)

/-- The key-hash table of the image in force holds a hash (R545, R551). -/
def hasHash (s : State) : Bool := (List.range 8).any (fun i => (s.keyHash i).isSome)

/-- Reel-owned blocks are erased in QLC mode and rejoin the spares (R545). -/
def takeBack (s : State) : State :=
  (s.fls.blocks.filter (fun e => decide (e.2.use = .reel))).foldl (fun (t : State) e =>
    (t.eraseCells (e.1 / 8192) (e.1 % 8192)).joinRole (e.1 / 8192) (e.1 % 8192) .eraseQlc .spare) s

/-- A raise to Closed (R545). -/
def raiseClosed (s : State) : State :=
  if s.protBusy then s.protAnswer 5
  else if s.sec.level ≠ .opened then s.protAnswer 1
  else if s.unsignedRuns then s.protAnswer 2
  else if !s.hasHash then s.protAnswer 4
  else
    let (t, ok) := s.takeBack.commitOption 1 false 15 []
    if ok then
      (({ t with sec := { t.sec with level := .closed } }).protAnswer 0).event 0x0F00 4 srcSecurity 0 [0, 1]
    else t.protAnswer 0

/-- A raise to Sealed (R546). -/
def raiseSealed (s : State) (confirm : BitVec 16) : State :=
  if s.protBusy then s.protAnswer 5
  else if s.sec.level ≠ .closed then s.protAnswer 1
  else if confirm ≠ 0x5EA1 then s.protAnswer 3
  else
    (({ s with part := { s.part with sealFuse := true }, sec := { s.sec with level := .sealed } }).protAnswer 0).event
      0x0F00 4 srcSecurity 0 [1, 2]

/-- A lowering to Open (R547). -/
def lowerOpen (s : State) (confirm : BitVec 16) : State :=
  if s.protBusy then s.protAnswer 5
  else if s.sec.level ≠ .closed then s.protAnswer 1
  else if confirm ≠ 0x10E7 then s.protAnswer 3
  else
    let t := s.beginSanitize .lowering false
    { t with sec := { t.sec with protDone := false, protStatus := 0 } }

/-! ### Key slots (R553 to R556) -/

/-- Status of a key operation that ends: the key data is cleared (R556). -/
def keyAnswer (s : State) (st : Nat) : State :=
  { s with sec := { s.sec with keyStatus := st, keyData := List.replicate 9 0 } }

/-- The slot accepts an operation: query any, the others neither slot 0 nor 1,024 nor that of a Free compartment (R555). -/
def keyAllowed (s : State) (slot : Nat) (query : Bool) : Bool :=
  decide (slot ≤ 1039) && (query || decide (slot ≠ 1024)) && (query || decide (slot ≠ 0)) &&
    (decide (slot = 0) || decide (1024 ≤ slot) || decide ((s.comp slot).state ≠ .free))

/-- A key is put into a slot, and its wrapped record into the journal (R555). -/
def fillKey (s : State) (slot key : Nat) : State :=
  let s1 : State := { s with sec := { s.sec with keys := put 0 s.sec.keys slot key } }
  (if slot < 1024 then s1.setComp slot { s1.comp slot with keyErased := false } else s1).journalNow

/-- Runs a key operation where the slot allows it and none is running. -/
def keyOp (s : State) (slot : Nat) (query : Bool) (f : State → State) : State :=
  if !s.sec.keyDone then { s with sec := { s.sec with keyStatus := 4 } }
  else if !s.keyAllowed slot query then s.keyAnswer 3
  else f s

/-- Query (R556). -/
def keyQuery (s : State) (slot : Nat) : State :=
  s.keyOp slot true (fun t =>
    ({ t with sec := { t.sec with keyPresent := decide (look 0 t.sec.keys slot ≠ 0) } }).keyAnswer 0)

/-- Generate: a free value, since the key comes from the module's random source (R554, log 18). -/
def keyGenerate (s : State) (slot : Nat) : State :=
  s.keyOp slot false (fun t =>
    if look 0 t.sec.keys slot ≠ 0 then t.keyAnswer 1
    else ((t.fillKey slot (Config.freeNat t.free % 2 ^ 512 + 1)).draw).keyAnswer 0)

/-- The bytes that `SEC_KEY_DATA` holds. -/
def keyBytes (s : State) : List Byte := s.sec.keyData.flatMap (fun w => leBytes 8 w.toNat)

/-- Install from `SEC_KEY_DATA[0–7]`. -/
def keyInstall (s : State) (slot : Nat) : State :=
  s.keyOp slot false (fun t =>
    if look 0 t.sec.keys slot ≠ 0 then t.keyAnswer 1
    else (t.fillKey slot (leNat (t.keyBytes.take 64) + 1)).keyAnswer 0)

/-- Install the record of `SEC_KEY_DATA[0–8]`, wrapped under slot 1,039. -/
def keyInstallWrapped (s : State) (slot : Nat) : State :=
  s.keyOp slot false (fun t =>
    if look 0 t.sec.keys slot ≠ 0 then t.keyAnswer 1
    else if look 0 t.sec.keys recordSlot = 0 then t.keyAnswer 2
    else match t.unwrapKey t.keyBytes with
      | some k => (t.fillKey slot k).keyAnswer 0
      | Option.none => t.keyAnswer 2)

/-- Erase: done once no command in flight uses the key (R556, R558). -/
def keyErase (s : State) (slot : Nat) : State :=
  s.keyOp slot false (fun t =>
    let k := look 0 t.sec.keys slot
    let u := (t.eraseKey slot).journalNow
    if k = 0 then u.keyAnswer 0
    else ({ u with sec := { u.sec with keyErasing := some (slot, k), keyDone := false } }).settleKey)

end State

end Sys2Proof.Machine
end

