-- ==== Sys2Proof/Machine/RegRead.lean ====
section
/-! DEFINITION. What every register reads as: BAR 2 block by block, the compartment windows and the controller properties
(R6, R52, R84 to R90, R350 to R356, R414, R565 to R583, and the register tables of the chapters they name). -/

namespace Sys2Proof.Machine

/-! ### Fields -/

/-- `v` as the field of `n` bits from bit `lo` on. -/
def field (v lo n : Nat) : Nat := v % 2 ^ n * 2 ^ lo

/-- A flag as bit `i`. -/
def flagAt (b : Bool) (i : Nat) : Nat := if b then 2 ^ i else 0

/-- A signed number as the field of `n` bits from bit `lo` on. -/
def signedField (v : Int) (lo n : Nat) : Nat := (v % (2 ^ n : Nat)).toNat * 2 ^ lo

/-- A count in a field where it saturates. -/
def satField (v lo n : Nat) : Nat := min v (2 ^ n - 1) * 2 ^ lo

/-- Bits of a list of flags, the first lowest. -/
def flagList (l : List Bool) (lo : Nat) : Nat := (l.mapIdx (fun i b => flagAt b (lo + i))).foldl (· + ·) 0

namespace State

/-- Milliseconds since an instant. -/
def msSince (s : State) (t : Nat) : Nat := (s.now - t) / 1000000

/-! ### GLB (R6, R52, R198, R214, R461, R570, R571) -/

/-- Sources of `ALERT_N`: a critical warning, a thermal level, an event of level 4, straps that changed (R461). -/
def alertSources (s : State) : List Bool :=
  [decide (s.criticalWarning ≠ 0), decide (s.thermalLevel ≠ 0), s.pins.srcCritEvent, s.pins.srcIdChanged]

/-- `ALERT_N` is asserted. -/
def alert (s : State) : Bool :=
  (List.range 4).any (fun i => (s.alertSources[i]?).getD false && s.pins.alertEn.getLsbD i)

/-- A relief caller holds a context. -/
def reliefBusy (s : State) (i : Nat) : Bool := (List.range 4).any (fun k => (s.kctx (128 + 4 * i + k)).isSome)

/-- `GLB_MOUNT` state: how far a mount that runs has come, from the path it began on, is open (R210, R214; log 40). -/
def mountPhase (s : State) : Nat :=
  if s.mnt.state = 1 then 1 + Config.freeNat s.free % 3
  else if s.mnt.state = 2 then 2 + Config.freeNat s.free % 2
  else s.mnt.state

/-- `GLB_MOUNT` progress: open while a mount runs (log 40). -/
def mountPct (s : State) : Nat :=
  if 1 ≤ s.mnt.state ∧ s.mnt.state ≤ 3 then Config.freeNat s.free % 101 else s.mnt.progress

/-- `GLB_MOUNT` elapsed time: it runs with the mount. -/
def mountMs (s : State) : Nat :=
  if 1 ≤ s.mnt.state ∧ s.mnt.state ≤ 3 then s.msSince s.mnt.requestedAt else s.mnt.elapsed

def glbRead (s : State) (off : Nat) : Nat :=
  match off with
  | 0x00 => s.part.hwRev.toNat + field s.part.variant.deviceId 16 16 + field 0x5A4E464C 32 32
  | 0x08 => glbCap s.part
  | 0x10 => s.part.serial.toNat
  | 0x20 => s.lvl.clusterOwner.toNat + flagAt s.lvl.regionA 16 + flagAt s.lvl.regionB 17 + flagAt s.lvl.takeover 18 +
      field s.lvl.takeoverBy 19 1 + flagList ((List.range 4).map s.reliefBusy) 24 + field s.lvl.clusterLost.toNat 32 16
  | 0x30 => field s.boot.step 0 4 + flagAt s.boot.stalled 4 + field s.boot.optValid.toNat 8 4 + field s.boot.optCopy 12 2 +
      flagAt s.boot.optDefault 14 + field s.boot.cause 16 4 + field s.boot.optGeneration 32 32
  | 0x38 => field s.mountPhase 0 3 + flagAt s.mnt.scanned 3 + field s.mnt.shutdown 4 2 + field s.mountPct 8 8 +
      field s.mnt.fallback 16 16 + satField s.mountMs 32 32
  | 0x40 => field s.pins.modIdStrap 0 3 + field s.pins.modIdLive 3 3 + flagAt s.pins.wakeN 6 + flagAt s.pins.ppsIn 7 +
      flagAt s.modOk 8 + flagAt s.alert 9 + flagAt s.pins.modOkLow 10 + flagAt s.pins.ppsOutEn 11 +
      flagList s.alertSources 16 + field s.pins.alertEn.toNat 20 4 +
      (if s.part.fan then field s.pins.fanCmdPct 32 7 + flagAt s.pins.fanCmdFault 39 else 0)
  | _ => 0

/-! ### OPT (R550) -/

def optRead (s : State) (off : Nat) : Nat := leNat (readBytes s.sec.optStage off 8)

/-! ### PWR (R218, R470, R471, R475, R486 to R490, R572) -/

/-- `PWR_STATE`: 0 Run, 1 Idle, 2 to 4 an entry. -/
def stateCode (s : State) : Nat :=
  match s.pwr.pstate with
  | .idle => 1
  | .entering t _ => t.code + 1
  | _ => 0

/-- Step of the entry in progress. -/
def entryCode (s : State) : Nat :=
  match s.pwr.pstate with
  | .entering _ n => n
  | _ => 0

/-- `PWR_WAKE_EN`: `WAKE_N` and thermal always read 1, and the bits that name no source 0. -/
def wakeEnables (s : State) : Nat := ((s.pwr.wakeEn &&& 0x1BC) ||| 0x042).toNat

def pwrRead (s : State) (off : Nat) : Nat :=
  let row := s.pwr.mode.row
  match off with
  | 0x00 => s.pwr.mode.code + (match s.pwr.pendingMode with
      | some m => field m.code 2 2
      | none => field 3 2 2) +
      field (rowWatts row) 8 8 + field (rowProg row) 16 10 + (if s.part.codec then field s.pwr.mode.lanes 32 4 else 0) +
      field (rowRa row) 40 8 + field s.pwr.mode.code 48 2 + field s.pwr.phaseLimit 50 2
  | 0x08 => s.stateCode + flagAt s.parked 3 + field s.entryCode 8 3 + field s.pwr.hinted.length 16 11 +
      field s.pwr.idleEntries 32 32
  | 0x10 => field s.pwr.idleUs 0 24 + field 0x40 24 7
  | 0x18 => s.wakeEnables
  | 0x20 => s.pwr.wakeTimer
  | 0x28 => field s.pwr.wakeSource 0 4 + field s.pwr.wakeLeft 4 2 + field s.pwr.wakeMask.toNat 8 9 +
      field s.pwr.wakes.toNat 32 16 + satField s.pwr.exitUs 48 16
  | 0x30 => field s.plog.abortCause 0 2 + field s.plog.abortTarget 2 2 + field s.plog.abortSource 4 4 +
      field s.plog.aborts.toNat 16 16 + satField s.plog.abortUs 32 32
  | 0x38 => (match s.closingDomain with
      | some d => field d 0 8 + flagAt true 8
      | none => field s.plog.closeDomain 0 8 + flagAt s.plog.closing 8) + flagAt s.plog.forced 9 + field s.plog.closeMs 16 16 +
      field s.plog.squashed 32 32
  | 0x100 => field s.plog.vBank 0 12 + field s.plog.bankCap 12 12 + satField s.plog.bankEsr 24 8 + flagAt s.plog.charged 32 +
      flagAt (decide (s.plog.bankCap ≠ 0) && decide (s.plog.limitMib = 0)) 33 + flagAt s.plog.measBusy 34
  | 0x108 => field ((s.dirtyUnits + 255) / 256) 0 16 + field s.plog.limitMib 16 16 + field s.plog.dirtyCfg 32 7 +
      flagAt s.plog.singlePath 39
  | 0x110 => field s.pwr.vIn 0 12 + field s.pwr.iIn 12 12 + satField s.pwr.pAvg 24 12 + field s.pwr.phasesOk.toNat 36 9 +
      flagAt s.pwr.underRange 45 + flagAt s.pwr.overRange 46
  | _ => 0

/-! ### TIM, THM and FAN (R497, R509, R510, R517, R573) -/

def timRead (s : State) (off : Nat) : Nat :=
  match off with
  | 0x00 => s.now
  | 0x08 => flagAt s.tim.ppsEn 0 + flagAt s.tim.ptmEn 1 + field s.tim.ptmMs 8 8
  | 0x10 => field s.tim.source 0 2 + flagAt s.tim.locked 2 + flagAt s.tim.holdover 3 + flagAt s.tim.secSuspect 4 +
      flagAt s.tim.saturated 5 + field s.tim.steps.toNat 16 16 + signedField s.tim.lastErr 32 32
  | 0x18 => signedField s.tim.freqPpb 0 32
  | 0x20 => s.tim.ppsLast
  | _ => 0

def thmRead (s : State) (off : Nat) : Nat :=
  let t := s.thm
  match off with
  | 0x00 => field s.thermalLevel 0 3 + field t.step 3 3 + field t.source 6 2 + field t.dieTemp 8 8 + field t.flashTemp 16 8 +
      field t.flashDie 24 11 + flagAt t.stopped 35 + field (128 - t.excluded.length) 36 8 + signedField t.slope 48 16
  | 0x08 => field t.die.notice 0 8 + field t.die.critical 8 8 + field t.die.trip 16 8 + field t.flash.notice 24 8 +
      field t.flash.critical 32 8 + field t.flash.trip 40 8 + field t.graceMs 48 12 + field t.hystC 60 4
  | 0x10 => field t.stopMs 0 16 + flagAt t.stopEn 16
  | 0x18 => (t.board.mapIdx (fun i v => field v (8 * i) 8)).foldl (· + ·) 0
  | _ => 0

def fanRead (s : State) (off : Nat) : Nat :=
  let f := s.fan
  let out := fun (i : Nat) => match f.outs[i]? with
    | some o => field (s.fanShown o) 0 3 + field o.cmdPct 4 7 + field o.rpm 16 16 + field o.dutyPct 32 7 + field o.starts.toNat 48 16
    | none => 0
  if !s.part.fan then 0
  else match off with
  | 0x00 => field f.cmdSrc 0 2 + field f.cmdMode 2 2 + field f.enable.toNat 4 4 + field f.minPct 8 7 + field f.ratedRpm 16 16 +
      field f.polePairs 32 4
  | 0x10 => f.stall.toNat + field f.startFail.toNat 4 4 + field f.overcurrent.toNat 8 4 + field f.openPhase.toNat 12 4 +
      field f.speedLow.toNat 16 4 + flagAt f.clampFault 20 + flagAt f.rail28 21 + flagAt f.rail30 22 +
      field f.heldOff.toNat 24 4 + field s.fansLost 28 3 + field f.railV 40 8
  | 0x20 => out 0
  | 0x28 => out 1
  | 0x30 => out 2
  | 0x38 => out 3
  | _ => 0

/-! ### SEC, MEM and BPM (R392 to R406, R548, R552, R556, R563, R574) -/

/-- `SEC_SANITIZE` progress: open while the erase runs (log 40). -/
def sanitizePct (s : State) : Nat := if s.sec.sanActive then Config.freeNat s.free % 101 else s.sec.sanPct

def secRead (s : State) (off : Nat) : Nat :=
  let v := s.sec
  match off with
  | 0x00 => v.level.code + flagAt s.part.sealFuse 2 + flagAt v.lowering 3 + field v.protStatus 32 3 + flagAt v.protDone 35
  | 0x08 => field v.optStatus 8 3 + flagAt v.optDone 11 + field v.optInForce.generation 32 32
  | 0x18 => flagAt v.keyPresent 0 + flagAt v.keyDone 1 + field v.keyStatus 2 3
  | 0x80 => v.sanAction.code + flagAt v.sanActive 2 + flagAt v.sanFailed 3 + flagAt v.sanResumed 4 +
      field s.sanitizePct 8 7 + (if v.sanActive then satField (s.msSince v.sanStart) 32 32 else 0)
  | _ => 0

def memRead (s : State) (off : Nat) : Nat :=
  let m := s.mem
  match off with
  | 0x00 => field m.sramCe 0 16 + field m.dramCe 16 16 + field m.sramUe 32 8 + field m.dramUe 40 8 +
      satField m.softPending.length 48 8 + satField (m.remap.filter (fun e => decide (16 ≤ e.2))).length 56 8
  | 0x08 => (m.marked.mapIdx (fun i v => field v (4 * i) 4)).foldl (· + ·) 0
  | 0x10 => field m.dramH 0 8 + field m.sramMin 8 8 + field m.dramPct 16 7 + field m.sramPct 24 7 + field m.passes.toNat 32 32
  | 0x20 => match m.frozen with
    | [] => 0
    | (c, a) :: _ => 1 + field c 1 7 + satField m.frozen.length 8 8 + field a 16 48
  | 0x80 => if s.isOpen then m.flipSel.toNat else m.flipSel.toNat &&& 0xFFFFFFFF7FFFFFFF
  | 0x88 => m.flipMask.toNat
  | _ => 0

/-- The store that `BPM_POOL_SEL` names; none for area 3 and for a part that the area lacks. -/
def selectedPool (s : State) : Option PoolRef :=
  let v := s.bpm.sel.toNat
  let part := bits v 8 4
  let k := bits v 12 3
  match bits v 0 2 with
  | 0 => some .staging
  | 1 => if part < 2 then some (.general part k) else none
  | 2 => some (.sram part k)
  | _ => none

/-- Hardware grants that wait for a store: the segments that wait for a staging buffer. -/
def grantsWaiting (s : State) (r : PoolRef) : Nat :=
  if r = .staging then sumBy (fun (v : Flight) => (v.segs.filter (fun g => decide (g.step = .waiting))).length) s.car.flights else 0

def marksWord (m : Marks) : Nat := field m.amber 0 7 + field m.red 8 7 + field m.black 16 7 + field m.hyst 24 4

def bpmRead (s : State) (off : Nat) : Nat :=
  let b := s.bpm
  match off with
  | 0x00 => flagAt b.dramCell 0 + flagAt b.sramCell 1 + flagAt b.cfgRefused 2
  | 0x08 => marksWord b.wm0
  | 0x10 => marksWord b.wm1
  | 0x18 => b.sel.toNat
  | 0x20 => match s.selectedPool with
    | some r => field (s.pool r).sizeLog2 0 5 + flagAt (s.pool r).enabled 5 + field (s.pool r).count 8 32
    | none => 0
  | 0x28 => match s.selectedPool with
    | some r => field (s.poolFree r) 0 25 + field (s.level r) 25 2 + satField (s.grantsWaiting r) 32 16 +
        field (s.pool r).lost 48 8 + field (s.poolPct r) 56 7
    | none => 0
  | 0x38 => field b.ownerStatus 0 2 + flagAt b.ownerDone 2 + field b.ownerLimit 8 16 +
      field (4080 - (b.owners.filter (fun e => e.2.isSome && decide (16 ≤ e.1))).length) 24 12
  | 0x40 => b.ownerInfo.toNat
  | 0x48 => field b.leakMs 0 32
  | _ => 0

/-! ### HIF, CPL, TRN and FCD (R99, R262 to R264, R435, R436, R539 to R541, R575) -/

def portWord (s : State) (p : Nat) : Nat :=
  let v := s.port p
  flagAt v.present 0 + flagAt v.linkUp 1 + flagAt v.degraded 2 + flagAt s.hif.dual 3 + field v.rate 8 3 + field v.width 16 5 +
    field v.losses.toNat 32 16

def hifRead (s : State) (off : Nat) : Nat :=
  match off with
  | 0x00 => s.portWord 0
  | 0x08 => s.portWord 1
  | 0x100 => match s.hif.ring with
    | some r => field r.tail 0 16 + field r.head 16 16 + flagAt true 32 + field r.port 33 1 + field r.size 34 17
    | none => 0
  | 0x108 => field s.hif.lost 0 32
  | _ => 0

/-- Zones still to copy: while copies run, an open number not above those that are left (log 40). -/
def resyncLeft (s : State) (x : Pair) : Nat :=
  if x.resync.isEmpty then 0 else 1 + Config.freeNat s.free % x.resync.length

def mirrorInfo (s : State) : Nat :=
  let c := s.cpl
  field c.cmdStatus 0 3 + flagAt c.cmdDone 3 + (match s.pairOf c.cmdPgroup with
    | some x => if x.formed then field x.role.code 4 3 + field x.peer 8 3 + field x.peerPgroup 12 7 + field (s.resyncLeft x) 20 24
      else 0
    | none => 0)

def cplRead (s : State) (off : Nat) : Nat :=
  let p := fun (i : Nat) => let v := s.cplPort i
    field v.state 0 3 + field v.peer 4 3 + field v.peerPort 8 2 + field v.retries 16 16 + field v.downs.toNat 32 16
  if !s.part.coupler then 0
  else match off with
  | 0x00 => p 0
  | 0x08 => p 1
  | 0x10 => p 2
  | 0x18 => p 3
  | 0x20 => s.cpl.membersCfg.toNat + field s.cpl.membersSeen.toNat 8 8 + field s.cpl.sleeping.toNat 16 8 + flagAt s.cpl.quorum 24
  | 0x28 => flagAt s.cpl.timeLeadEn 0 + flagAt s.cpl.leaderValid 1 + field s.cpl.leader 2 3 + field s.cpl.hops 5 3 +
      signedField s.cpl.lastErr 32 32
  | 0x108 => s.mirrorInfo
  | _ => 0

def trnRead (s : State) (off : Nat) : Nat :=
  if off ≠ 0 then 0
  else match s.convSpace with
  | some (n, e) => (match e.kind with
      | .conventional g => field g 0 12
      | .zoned _ => 0) + field s.zns.carved 16 5 + flagAt e.lba16 24 + field n 32 32
  | none => field s.zns.carved 16 5

/-- A codec job or a coded band on the context. -/
def codecBusy (s : State) (c : Nat) : Bool :=
  s.fcd.jobs.any (fun j => decide (j.ctx = c)) || s.fcd.coded.any (fun x => decide (x.ctx = c))

/-- MiB of a count of bytes. -/
def mib (n : Nat) : Nat := n / 1048576

def fcdRead (s : State) (off : Nat) : Nat :=
  let f := s.fcd
  let x := s.codecCtx f.sel
  if !s.part.codec then 0
  else match off with
  | 0x00 => f.lanesOk.toNat + field f.lanesInUse 8 4 + field (f.ctxs.filter (fun e => e.2.grant.isSome)).length 16 12 +
      flagList ((List.range 8).map (fun j => f.jobs.any (fun w => decide (w.lane = some j)))) 32
  | 0x08 => field f.sel 0 11
  | 0x10 => (match x.grant with
      | some c => field c 0 10 + flagAt true 10
      | none => 0) + flagAt (s.codecBusy f.sel) 11 + flagAt x.st.linesValid 12 + flagAt x.st.frameDone 13 +
      flagAt x.coded 14 + field x.st.nextLine 16 16 + field x.st.frame 32 32
  | 0x18 => field x.st.stream 0 32
  | 0x20 => satField (mib f.rawBytes) 0 32 + satField (mib f.recordBytes) 32 32
  | _ => 0

/-! ### CLR (R338, R339, R576 to R578) -/

/-- One register of a context that holds a reel. -/
def kctxWord (c m : Nat) (k : KCtx) (x : KInst) (state : Nat) : Nat :=
  match m with
  | 0 => k.pc
  | 1 => k.cap.toNat
  | 2 => (ctxReg k c).toNat
  | 3 => (flagsReg k.flags).toNat
  | 4 => k.inst
  | 5 => state + flagAt k.relieved 3 + field k.journal.length 4 9 + field k.tickets.length 13 7 + field k.epoch.toNat 32 32
  | 6 => (reg k 1).toNat
  | 7 => k.retired % 2 ^ 64
  | 8 => field k.budget 0 32 + field k.count 32 32
  | 9 => x.startAt
  | _ => 0

/-- A reel as its mirror holds it: as of its last commit. -/
def atCommit (k : KCtx) : KCtx :=
  { k with regs := k.saved.regs, pc := k.saved.pc, flags := k.saved.flags, epoch := k.saved.epoch, retired := k.saved.retired
           tickets := k.saved.tickets, journal := [], count := 0 }

/-- Register `m` of context `c`; a context that holds no reel reads 0. -/
def ctxWord (s : State) (c m : Nat) : Nat :=
  match s.kctx c with
  | some k => match s.kinst k.inst with
    | some x => kctxWord c m k x (if k.haltAt.isSome then 3 else if k.wait = .ready then 1 else 2)
    | none => 0
  | none => match s.mirrorShown c with
    | some (k, x) => kctxWord x.ctx m (atCommit k) x 1
    | none => 0

def clrRead (s : State) (off : Nat) : Nat :=
  let i := off / 0x4000
  let o := off % 0x4000
  if 36 ≤ i then match off with
    | 0x90000 => flagAt s.kry.maint 0 + (match s.storeHead with
        | some w => if w.op = .write ∨ w.op = .clear then 2 + field w.slot 2 8 + field w.replica 10 2 else 0
        | none => 0) +
        flagList ((List.range 4).map (fun r => (List.range 16).all (fun i => s.replicaReadable r i))) 12 +
        field s.kry.fillsSuspended 32 32
    | 0x90008 => field (s.kry.pinned.filter (fun e => e.2.isSome)).length 0 7 + field (s.pinnedTotal / 1024) 16 14 +
        field s.kry.misses 32 32
    | 0x90010 => field s.kry.stewardCtx 0 7 + field s.kry.perCmp 8 3
    | _ => 0
  else if o = 0 then
    flagList ((List.range 4).map (fun k => (s.kctx (4 * i + k)).isSome)) 0 + flagAt (s.kry.failed.getLsbD i) 4 +
      flagAt (decide (32 ≤ i)) 5 + field (look 0 s.kry.retired i) 32 32
  else if 0x100 ≤ o ∧ o < 0x300 then s.ctxWord (4 * i + (o - 0x100) / 0x80) ((o - 0x100) % 0x80 / 8)
  else 0

/-! ### CAR and ZNE (R84 to R90, R102 to R106, R169, R170, R209, R579) -/

def carRead (s : State) (off : Nat) : Nat :=
  if 0x100000 ≤ off then carriageWord (s.carriage ((off - 0x100000) / 0x20)) ((off - 0x100000) % 0x20 / 8)
  else match off with
  | 0x00 => field (s.car.table.filter (fun e => e.2.coupled || e.2.draining)).length 0 16 + field 0x8000 32 16
  | 0x08 => field s.car.miss 0 32
  | _ => 0

/-- `ZNE_SG_INFO` (R85, R86). DESIGN CHOICE (log 154): `loans` saturates at 511. -/
def groupInfo (s : State) (g : Nat) : Nat :=
  let least := s.spareMin g
  let dies := groupDies g
  if !s.zns.online || decide (s.part.variant.groups ≤ g) then 0
  else (s.groupPgroup g).getD 0xFF + flagAt (decide (least < 28)) 8 + flagAt (decide (least = 0)) 9 +
    field (s.zns.zones.filter (fun e => decide (e.1 / 5000 = g) && decide (e.2.state ≠ .empty))).length 16 13 +
    field least 32 9 + satField (sumBy (fun d => (s.die d).loans) dies) 48 9

/-- `ZNE_PG_INFO` (R88). -/
def pgroupInfo (s : State) (p : Nat) : Nat :=
  match s.pgroup p with
  | none => 0
  | some v => field v.comp 0 10 + flagAt true 10 + flagAt v.defaultDirect 11 + flagAt v.nsid.isSome 12 +
      field v.groups.length 16 8 + field (v.nsid.getD 0) 32 32

/-- Blocks of landing space in GiB: 24 MiB each. -/
def landingGib (n : Nat) : Nat := n * 24 / 1024

/-- `ZNE_LANDING` (R168, R170): the flush reserve counts as not free. DESIGN CHOICE (log 156): the GiB and percent fields are
rounded down. -/
def landingInfo (s : State) : Nat :=
  if !s.zns.online then 0
  else field (landingGib s.landingTotal) 0 16 + field (landingGib s.landingAvail) 16 16 + field (s.pinnedUnits / 16384) 32 16 +
    field s.occupancyPct 48 7

def zneRead (s : State) (off : Nat) : Nat :=
  match off with
  | 0x00 => field s.activeAll 0 15 + field s.directAll 16 10 + field 0x6000 32 15 + field 0x200 48 10
  | 0x10 => field s.zns.sgSel 0 7
  | 0x18 => s.groupInfo s.zns.sgSel
  | 0x20 => field s.zns.pgSel 0 7
  | 0x28 => s.pgroupInfo s.zns.pgSel
  | 0x38 => s.zns.zoneStat.toNat
  | 0x100 =>
    let f := s.fls.foldNext.getD s.fls.fold
    field f.startPct 0 7 + field f.urgentPct 8 7 + field f.foldClass 16 2 + field f.urgentClass 18 2 + field f.maxFolds 24 6
  | 0x108 => s.landingInfo
  | 0x200 => field s.jrn.ckptS 0 12 + field (if s.jrn.valid && s.mnt.known then s.jrn.slot else 0) 12 1 +
      field (if s.mnt.known then s.jrn.units * 64 else 0) 16 48
  | _ => 0

/-! ### CLU and CHN (R127, R128, R147, R154, R155, R176, R182, R186, R580 to R582) -/

/-- `CLU[k]_DQ[j]`: the queue of one die (R581). -/
def queueWord (s : State) (d : Nat) : Nat :=
  let q := (s.die d).queue
  let n := fun (c : Nat) => (q.filter (fun e => decide (e.cls = c) && !e.flush)).length
  let oldest := (q.map (fun e => e.admittedAt)).foldl min s.now
  if s.part.variant.dies ≤ d then 0
  else satField (n 0) 0 8 + satField (n 1) 8 8 + satField (n 2) 16 8 + flagAt (q.any (fun e => e.capWait)) 24 +
    flagAt (q.any (fun e => e.flush)) 25 + satField ((s.now - oldest) / 1000) 32 32

/-- Media settings as a register holds them. -/
def mediaWord (m : MediaCfg) : Nat :=
  field m.promHours 0 8 + field m.promBits 8 8 + field m.rcQlc 16 12 + field m.rcSlc 28 12 + field m.relocClass 40 2 +
    field m.rebuildClass 42 2

/-- The die at a rank and position of a cluster. -/
def dieOf (cluster pos rank : Nat) : Nat := rank * 64 + cluster * 4 + pos

def cluRead (s : State) (k off : Nat) : Nat :=
  let r := (s.car.ra[k]?).getD RaBudget.reset
  let c := (s.fls.clusters[k]?).getD ClusterCfg.reset
  let (e, st, b) := r.written.getD (r.express, r.standard, r.bulk)
  if 0x1000 ≤ off ∧ off < 0x1400 then
    let j := (off - 0x1000) / 8
    s.queueWord (dieOf k (j % 4) (j / 4))
  else if 0x300 ≤ off ∧ off < 0x340 then
    if s.part.history then ((c.hist[(off - 0x300) / 8]?).getD 0).toNat else 0
  else match off with
  | 0x100 => field r.fraction 0 8 + field e 8 12 + field st 20 12 + field b 32 12
  | 0x108 => satField r.allowance 0 24 + satField r.used 24 24
  | 0x110 => field r.reconstructed 0 32 + field r.suspended 32 32
  | 0x200 => mediaWord (c.mediaNext.getD c.media)
  | 0x208 => field c.spread 0 16 + field c.roleGap 16 16
  | _ => 0

/-- Remaining nominal time of an operation in µs (R121). -/
def leftUs (s : State) (o : DieOp) : Nat := (if o.suspended then o.leftNs else o.leftNs - (s.now - o.sinceAt)) / 1000

/-- Code of an operation in `CHN[c]_DIE_OP[r]` (R582). -/
def opCode : DieOpKind → Nat
  | .read => 1 | .progSlc => 2 | .progQlc => 3 | .eraseSlc => 4 | .eraseQlc => 5

/-- `CHN[c]_DIE_OP[r]`. -/
def dieOpWord (s : State) (d : Nat) : Nat :=
  match (s.die d).op with
  | none => 0
  | some o => opCode o.entry.kind + flagAt o.suspended 3 + flagAt o.slot 4 + flagAt (s.die d).starved 5 +
      field o.entry.block 8 13 + satField o.suspends 24 16 + satField (s.leftUs o) 40 24

/-- Entries in the engine queue of channel `c` (R144, R147): the heads of the die queues that were moved there when a suspension
was decided and wait for their turn in it; every other entry starts as it is moved. DESIGN CHOICE (log 155). -/
def queueDepth (s : State) (c : Nat) : Nat :=
  min 32 ((List.range s.part.variant.ranks).filter (fun r => match (s.die (r * 64 + c)).op with
    | some o => o.suspended && decide (o.served < 4) && (s.headRead (r * 64 + c)).isSome
    | none => false)).length

/-- `CHN[c]_DIE_INFO` (R155). -/
def dieInfo (s : State) (d : Nat) : Nat :=
  let v := s.die d
  if !s.zns.online || decide (s.part.variant.dies ≤ d) then 0
  else field (s.spares d) 0 9 + flagAt v.lost 9 + flagAt v.starved 10 + field (s.roleBlocks d .landing) 12 8 +
    field v.eraseQueue.length 20 12 + field (s.freeBlocks d .zone) 32 13 + field (look 0 s.thm.dieTemps d) 48 8 +
    satField v.loans 56 8

/-- Ranks of a channel whose die satisfies `f`, as a mask. -/
def rankMask (s : State) (c : Nat) (f : Die → Bool) : Nat :=
  flagList ((List.range s.part.variant.ranks).map (fun r => f (s.die (r * 64 + c)))) 0

/-- Ranks of a channel whose die satisfies `f`. -/
def rankCount (s : State) (c : Nat) (f : Die → Bool) : Nat :=
  ((List.range s.part.variant.ranks).filter (fun r => f (s.die (r * 64 + c)))).length

def chnRead (s : State) (c off : Nat) : Nat :=
  let h := s.channel c
  let op := fun (f : DieOp → Bool) (v : Die) => (v.op.map f).getD false
  if 0x100 ≤ off ∧ off < 0x200 then s.dieOpWord ((off - 0x100) / 8 * 64 + c)
  else match off with
  | 0x00 => flagAt h.lost 0 + flagAt (s.rankCount c (op (fun o => o.suspended)) ≠ 0) 1 + field (s.queueDepth c) 8 6 +
      field (s.rankCount c (op (fun o => isProgErase o.entry.kind))) 16 6 + field (s.rankCount c (op (fun o => o.slot))) 24 6 +
      field (s.rankMask c (fun v => v.lost)) 32 32
  | 0x10 => field h.starveLimit 0 16 + field 4 16 8
  | 0x18 => s.rankMask c (fun v => v.starved)
  | 0x20 => field h.dieSel 0 5
  | 0x28 => s.dieInfo (h.dieSel * 64 + c)
  | _ => 0

/-! ### Compartments (R350 to R356) -/

/-- PASID entries and holdings of a compartment as its window reports them (R351, R354, R356). -/
def window (s : State) (n off : Nat) : Nat :=
  let v := s.comp n
  let owners := s.compOwners n
  let ring := look none s.hif.compRings n
  let groups := s.compGroups n
  let created := (s.hif.queues.filter (fun q => decide (q.ctl = 1 + n) && q.sq && decide (q.qid ≠ 0))).length
  if 0x60 ≤ off ∧ off < 0xE0 then
    let k := (off - 0x60) / 8
    field (look 0 s.car.share (k * 1024 + n)) 0 10 + satField (s.credit k n) 32 24
  else match off with
  | 0x000 => n + field v.port 10 1 + field s.pins.modIdStrap 11 3
  | 0x008 => v.state.code + flagAt v.fetchStopped 3 + flagAt v.resetByHost 4 + field v.resets.toNat 16 16 +
      satField (s.msSince v.since) 32 32
  | 0x010 => flagAt v.en 0
  | 0x018 => flagAt v.rdy 0 + flagAt v.cfs 1 + flagAt (s.frozen n) 2
  | 0x020 => v.aqa.toNat
  | 0x028 => v.asq.toNat
  | 0x030 => v.acq.toNat
  | 0x038 => field v.apasid 0 20
  | 0x040 => field v.res.queuePairs 0 7 + field created 16 7
  | 0x048 => field v.res.activeQuota 0 15 + field (s.activeComp n) 16 15 + field v.res.directQuota 32 10 +
      field (s.directComp n) 48 10
  | 0x050 => field v.res.floor 0 16 + field v.res.reserved 16 16 + field (s.compSegs n) 32 16
  | 0x058 => field v.res.cls 0 2
  | 0x0E0 => sumBy (fun p => if p < 64 then 2 ^ p else 0) groups
  | 0x0E8 => sumBy (fun p => if 64 ≤ p ∧ p < 128 then 2 ^ (p - 64) else 0) groups
  | 0x0F0 => field (s.compCarriages n).length 0 16 + field (s.compContexts n).length 16 12 + field owners.length 32 12 +
      field (s.compReels n).length 48 3
  | 0x0F8 => flagAt (decide (look 0 s.sec.keys n ≠ 0)) 0 + flagAt v.keyErased 1
  | 0x100 => field ((ring.map (fun r => r.tail)).getD 0) 0 12
  | 0x108 => field ((ring.map (fun r => r.head)).getD 0) 0 12
  | 0x110 => field (look 0 s.hif.compLost n) 0 32
  | 0x118 => field (s.compCmds n) 0 24 + satField (s.compJobs n) 24 8 + satField (s.compDma n) 32 16 +
      satField (s.compFlash n) 48 12 + satField (s.compReels n).length 60 4
  | 0x120 => satField (mib v.bytesRead) 0 48
  | 0x128 => satField (mib v.bytesWritten) 0 48
  | 0x130 => field v.refused 0 32
  | 0x138 => field v.dieTime 0 48
  | 0x140 => satField (sumBy (fun o => s.ownerHeld o) owners) 0 32 + satField ((owners.map s.ownerAge).foldl max 0) 32 32
  | 0x148 => s.now
  | 0x150 => v.intMask.toNat
  | 0x158 => v.intStat.toNat
  | _ => 0

/-- `CMP[n]_PASID[j]` (R356). -/
def pasidWord (s : State) (n j : Nat) : Nat :=
  match (s.compPasids n)[j]? with
  | some (port, pasid) => field pasid 0 20 + flagAt true 31 + field port 32 1
  | none => 0

/-- The steward's view of a compartment; that of a Free one reads zero (R341, R356). -/
def cmpRead (s : State) (n off : Nat) : Nat :=
  if s.comp n = Comp.free then 0
  else if off < 0x180 then s.window n off
  else if 0x400 ≤ off ∧ off < 0x600 then s.pasidWord n ((off - 0x400) / 8)
  else 0

/-! ### The register space (R567, R569) -/

/-- The 64 bits that BAR 2 holds at an offset that is a multiple of 8. -/
def regRead (s : State) (off : Nat) : Nat :=
  if off < 0x10000 then s.glbRead off
  else if off < 0x20000 then s.optRead (off - 0x10000)
  else if off < 0x30000 then s.pwrRead (off - 0x20000)
  else if off < 0x40000 then s.timRead (off - 0x30000)
  else if off < 0x50000 then s.thmRead (off - 0x40000)
  else if off < 0x60000 then s.fanRead (off - 0x50000)
  else if off < 0x70000 then s.secRead (off - 0x60000)
  else if off < 0x80000 then s.memRead (off - 0x70000)
  else if off < 0xA0000 then s.bpmRead (off - 0x80000)
  else if off < 0xC0000 then s.hifRead (off - 0xA0000)
  else if off < 0x100000 then s.cplRead (off - 0xC0000)
  else if off < 0x200000 then s.clrRead (off - 0x100000)
  else if off < 0x400000 then s.carRead (off - 0x200000)
  else if off < 0x500000 then s.zneRead (off - 0x400000)
  else if off < 0x600000 then s.trnRead (off - 0x500000)
  else if off < 0x800000 then s.fcdRead (off - 0x600000)
  else if off < 0x900000 then s.cluRead ((off - 0x800000) / 0x10000) (off % 0x10000)
  else if off < 0x1000000 then 0
  else if off < 0x1400000 then s.chnRead ((off - 0x1000000) / 0x10000) (off % 0x10000)
  else if off < 0x2000000 then 0
  else if off < 0x2400000 then s.cmpRead ((off - 0x2000000) / 0x1000) (off % 0x1000)
  else 0

/-! ### BAR 0 and BAR 4 (R350, R409, R413, R414, R565) -/

/-- `CAP` (R414), in the layout of the NVMe specification (log 20). -/
def capWord : Nat := field 0x0FFF 0 16 + field 1 16 1 + field 0x02 24 8 + field 0x41 37 8 + field 4 52 4

/-- The controller properties of a port, the MSI-X pending bits and the MSI-X table. -/
def barZero (s : State) (p off : Nat) : Nat :=
  let v := s.port p
  if 0x20000 ≤ off ∧ off < 0x40000 then
    let w := fun (o : Nat) => (s.msixWord p (o / 16) (o % 16 / 4)).toNat
    w (off - 0x20000) + w (off - 0x20000 + 4) * 2 ^ 32
  else if 0x8000 ≤ off ∧ off < 0x8400 then
    sumBy (fun i => if s.hif.msixPending.contains (p * 8192 + (off - 0x8000) * 8 + i) then 2 ^ i else 0) (List.range 64)
  else match off with
  | 0x00 => capWord
  | 0x08 => 0x00020000
  | 0x10 => field (flagAt v.en 0) 32 32
  | 0x18 => field (flagAt v.rdy 0) 32 32
  | _ => 0

/-- A compartment's window on a port: the register set, and zero beyond it (R350, R583). -/
def barFour (s : State) (p off : Nat) : Nat :=
  let n := off / 0x10000
  if s.windowOpen p n && decide (off % 0x10000 < 0x180) then s.window n (off % 0x10000) else 0

end State

end Sys2Proof.Machine
end

