-- ==== Sys2Proof/Machine/Owners.lean ====
section
/-! DEFINITION. The owner operations of `BPM_OWNER_CMD` (R379 to R381, R391, R395). -/

namespace Sys2Proof.Machine

namespace State

/-- A coupled carriage names the owner. -/
def ownerNamed (s : State) (o : Nat) : Bool := s.car.table.any (fun e => e.2.coupled && decide (e.2.owner = o))

/-- A system owner, or an identifier above 4,095: no operation but a query takes it (R379, R380). -/
def badOwner (o : Nat) : Bool := decide (o < 16) || decide (4096 ≤ o)

/-- `BPM_OWNER_INFO` of an owner (R395). -/
def ownerInfoOf (s : State) (o : Nat) : Word :=
  BitVec.ofNat 64 (s.ownerComp o + (if (s.owner o).isSome then 1024 else 0) +
    (match s.owner o with
      | some x => if x.leak then 2048 else 0
      | Option.none => 0) + min 0xFFFFF (s.ownerHeld o) * 4096 + min 0xFFFFFFFF (s.ownerAge o) * 4294967296)

/-- An owner operation ends with a status. -/
def ownerEnds (s : State) (st : Nat) : State := { s with bpm := { s.bpm with ownerStatus := st, ownerDone := true } }

/-- Query (R380): the owner's record and limit are loaded. -/
def ownerQuery (s : State) (o : Nat) : State :=
  if 4096 ≤ o then s.ownerEnds 3
  else
    let lim := match s.owner o with
      | some x => x.segLimit
      | Option.none => 0
    ({ s with bpm := { s.bpm with ownerInfo := s.ownerInfoOf o, ownerLimit := lim } }).ownerEnds 0

/-- Register (R380): an owner of the same compartment changes only its limit. -/
def ownerRegister (s : State) (c o lim : Nat) : State :=
  if badOwner o || decide (1024 ≤ c) || decide (lim = 1) then s.ownerEnds 3
  else match s.owner o with
    | some x => if x.comp = c then (s.setOwner o (some { x with segLimit := lim })).ownerEnds 0 else s.ownerEnds 1
    | Option.none => (s.setOwner o (some { comp := c, segLimit := lim, leak := false })).ownerEnds 0

/-- Unregister (R380). -/
def ownerUnregister (s : State) (o : Nat) : State :=
  if badOwner o then s.ownerEnds 3
  else if s.ownerNamed o then s.ownerEnds 1
  else if s.ownerHeld o ≠ 0 then s.ownerEnds 2
  else (s.setOwner o Option.none).ownerEnds 0

/-- Set `seg_limit` (R380, R381). -/
def ownerLimits (s : State) (o lim : Nat) : State :=
  if badOwner o || decide (lim = 1) then s.ownerEnds 3
  else match s.owner o with
    | some x => (s.setOwner o (some { x with segLimit := lim })).ownerEnds 0
    | Option.none => s.ownerEnds 1

/-- A reel of compartment `c` is running. -/
def reelRuns (s : State) (c : Nat) : Bool := s.kry.ctxs.any (fun e => match e.2 with
  | some k => decide (k.comp = c)
  | Option.none => false)

/-- Reclaim (R380). -/
def ownerReclaim (s : State) (o : Nat) : State :=
  if badOwner o then s.ownerEnds 3
  else if s.ownerNamed o || ((s.owner o).isSome && s.reelRuns (s.ownerComp o)) then s.ownerEnds 1
  else (s.reclaim o).ownerEnds 0

/-- The operation that a write of `BPM_OWNER_CMD` starts, with the fields last written; 5 to 7 start none (R395). -/
def ownerOp (s : State) (op c o lim : Nat) : State :=
  match op with
  | 0 => s.ownerQuery o
  | 1 => s.ownerRegister c o lim
  | 2 => s.ownerUnregister o
  | 3 => s.ownerLimits o lim
  | 4 => s.ownerReclaim o
  | _ => s

/-- Fields of `BPM_OWNER_CMD` as a whole write leaves them. -/
def ownerWord (op c o lim : Nat) : Word :=
  BitVec.ofNat 64 (op % 8 + c % 1024 * 256 + o % 4096 * 4294967296 + lim % 65536 * 281474976710656)

/-- An 8-byte write of `BPM_OWNER_CMD`. -/
def ownerWrite (s : State) (op c o lim : Nat) : State :=
  ({ s with bpm := { s.bpm with ownerCmd := ownerWord op c o lim } }).ownerOp op c o lim

end State

/-- An owner operation that a write of BAR 2 on a port starts; it has no field for a number above its width. -/
def ownerCommand (name : String) (port op comp owner segLimit : Nat) (s : State) : Out :=
  arises (s.reachable port && decide (comp < 1024) && decide (owner < 4096) && decide (segLimit < 65536)) name
    (s.ownerWrite op comp owner segLimit)

/-- OWNER_QUERY (R380, R395). -/
def execOwnerQuery (port comp owner segLimit : Nat) (s : State) : Out :=
  ownerCommand "OWNER_QUERY" port 0 comp owner segLimit s

/-- OWNER_REGISTER (R380, R381). -/
def execOwnerRegister (port comp owner segLimit : Nat) (s : State) : Out :=
  ownerCommand "OWNER_REGISTER" port 1 comp owner segLimit s

/-- OWNER_UNREGISTER (R380). -/
def execOwnerUnregister (port comp owner segLimit : Nat) (s : State) : Out :=
  ownerCommand "OWNER_UNREGISTER" port 2 comp owner segLimit s

/-- OWNER_SET_LIMIT (R380, R381). -/
def execOwnerSetLimit (port comp owner segLimit : Nat) (s : State) : Out :=
  ownerCommand "OWNER_SET_LIMIT" port 3 comp owner segLimit s

/-- OWNER_RECLAIM (R380). -/
def execOwnerReclaim (port comp owner segLimit : Nat) (s : State) : Out :=
  ownerCommand "OWNER_RECLAIM" port 4 comp owner segLimit s

end Sys2Proof.Machine
end

