-- ==== Sys2Proof/Machine/PowerLoss.lean ====
section
/-! DEFINITION. The input, the hold-up bank, the acknowledged-dirty limit and the power-loss flush (R215 to R222). -/

namespace Sys2Proof.Machine

/-! ### Commands -/

/-- POWER_LOSS_DECLARED (R197, R219, R477, R480, R481): the declaration cannot be withdrawn; one made while a flush runs
lets that flush go on (R507). A fall of `PWR_EN` also releases the Trip latch's hold, once it rises again. -/
def execPowerLossDeclared (cause : InputCause) (s : State) : Out :=
  match s.pwr.pstate with
  | .dark => cannot "POWER_LOSS_DECLARED"
  | _ => .next (match cause with
    | .low | .high | .pwrEn => s.declareLoss)

/-- FLUSH_STEP (R219, R221, R507): every program of the step has completed, and the next step's are issued. -/
def execFlushStep (s : State) : Out :=
  match s.pwr.pstate with
  | .flushing n => .next (s.flushNext n)
  | _ => cannot "FLUSH_STEP"

/-- BANK_LOW_STOP (R220): no further programs; those issued complete, and the module turns off without a marker. -/
def execBankLowStop (s : State) : Out :=
  match s.pwr.pstate with
  | .flushing n =>
    if n ≤ 5 then
      let issued := s.unqueue (fun q => isProgram q.kind)
      .next issued.programsDone.powerOff
    else cannot "BANK_LOW_STOP"
  | _ => cannot "BANK_LOW_STOP"

/-- INPUT_RESTORED (R221): the flush runs on, and the module starts again behind it. -/
def execInputRestored (s : State) : Out :=
  match s.pwr.pstate with
  | .flushing _ => .next { s with boot := { s.boot with inputBack := true } }
  | _ => cannot "INPUT_RESTORED"

/-- INPUT_RANGE_CHANGE (R222, R471): the events go with the entry into a band; above 72 V no behaviour is promised. Before
step 9 no event engine runs, and the start posts them. A dip pauses a bank measurement, which is repeated: it stays in progress.
The bands beyond 8.0 V and 63 V are those of POWER_LOSS_DECLARED. -/
def execInputRangeChange (vIn : Nat) (s : State) : Out :=
  if 3600 < vIn then .fault .beyondAbsoluteMaximum
  else
    match s.pwr.pstate with
    | .dark | .asleep .off => cannot "INPUT_RANGE_CHANGE"
    | _ =>
      let under := decide (400 ≤ vIn) && decide (vIn < 450)
      let above := decide (3000 < vIn) && decide (vIn ≤ 3150)
      let s1 := { s with pwr := { s.pwr with vIn := vIn, underRange := under, overRange := above } }
      let on := decide (s.pwr.pstate ≠ .starting)
      let s2 := if under && !s.pwr.underRange && on then s1.event 0x0C0C 2 srcStage 0 [vIn] else s1
      .next (if above && !s.pwr.overRange && on then s2.event 0x0C0D 2 srcStage 0 [vIn] else s2)

/-- BANK_MEASUREMENT (R215 to R217): the measurement in progress ends: C, ESR and the limit are recorded; event 0x0601. -/
def execBankMeasurement (cap esr : Nat) (s : State) : Out :=
  let s1 := { s with plog := { s.plog with bankCap := cap, bankEsr := esr, measBusy := false } }
  let mib := s1.limitFor (cap) (esr) s1.plog.vBank
  arises (s.awake && s.plog.charger && s.plog.measBusy) "BANK_MEASUREMENT"
    ((s1.event 0x0601 1 srcBank 0 [s1.plog.bankCap, s1.plog.bankEsr, mib]).setLimit mib)

/-- MEAS_START (R215, R218): ignored while a measurement is in progress. -/
def execMeasStart (s : State) : Out := arises s.awake "MEAS_START" s.startMeasurement

/-- BANK_VOLTAGE_CHANGE (R215 to R218, R479): the voltage, `charged` at 54 V, and the limit that follows it. -/
def execBankVoltageChange (v : Nat) (s : State) : Out :=
  match s.pwr.pstate with
  | .dark | .starting | .asleep .off => cannot "BANK_VOLTAGE_CHANGE"
  | _ => .next ({ s with plog := { s.plog with vBank := v % 4096, charged := decide (2700 ≤ v % 4096) } }).relimit

end Sys2Proof.Machine
end

