-- ==== Sys2Proof/Machine/RegWrite.lean ====
section
/-! DEFINITION. What a write of every register does, and what a read clears: RW fields, fields cleared or set by writing 1,
fields cleared by reading, and command registers (R350, R351, R376, R403, R541, R548 to R556, R565 to R583). -/

namespace Sys2Proof.Machine

/-- Bits of a register after a write: those under the mask from the value. -/
def merged (old v mask : Nat) : Nat := (old &&& (2 ^ 64 - 1 - mask)) ||| (v &&& mask)

/-- The mask of an access covers the field of `n` bits from bit `lo` on. -/
def covers (mask lo n : Nat) : Bool := decide (bits mask lo n = 2 ^ n - 1)

namespace State

/-! ### Reads that clear (R566, R567) -/

/-- The RC fields of a BAR 2 register that an access covers go to 0. -/
def regClear (s : State) (off mask : Nat) : State :=
  let low := covers mask 0 32
  let high := covers mask 32 32
  if off = 0x20008 ∧ high then { s with pwr := { s.pwr with idleEntries := 0 } }
  else if off = 0x20038 ∧ high then { s with plog := { s.plog with squashed := 0 } }
  else if off = 0x70000 then
    let m := s.mem
    let m1 : Integrity := if low then { m with sramCe := 0, dramCe := 0 } else m
    { s with mem := if high then { m1 with sramUe := 0, dramUe := 0 } else m1 }
  else if off = 0xA0108 ∧ low then { s with hif := { s.hif with lost := 0 } }
  else if 0xC0000 ≤ off ∧ off < 0xC0020 ∧ low ∧ s.part.coupler then
    s.setCplPort ((off - 0xC0000) / 8) { s.cplPort ((off - 0xC0000) / 8) with retries := 0 }
  else if off = 0x190000 ∧ high then { s with kry := { s.kry with fillsSuspended := 0 } }
  else if off = 0x190008 ∧ high then { s with kry := { s.kry with misses := 0 } }
  else if 0x100000 ≤ off ∧ off < 0x190000 ∧ off % 0x4000 = 0 ∧ high then
    { s with kry := { s.kry with retired := put 0 s.kry.retired ((off - 0x100000) / 0x4000) 0 } }
  else if off = 0x200008 ∧ low then { s with car := { s.car with miss := 0 } }
  else if off = 0x600020 ∧ s.part.codec then
    let f := s.fcd
    let f1 : Codec := if low then { f with rawBytes := 0 } else f
    { s with fcd := if high then { f1 with recordBytes := 0 } else f1 }
  else if 0x800000 ≤ off ∧ off < 0x900000 ∧ off % 0x10000 = 0x110 then
    { s with car := { s.car with ra := modAt s.car.ra ((off - 0x800000) / 0x10000) (fun (r : RaBudget) =>
      let r1 : RaBudget := if low then { r with reconstructed := 0 } else r
      if high then { r1 with suspended := 0 } else r1) } }
  else s

/-- The RC fields of a compartment's window that an access covers go to 0. -/
def windowClear (s : State) (n off mask : Nat) : State :=
  let v := s.comp n
  match off with
  | 0x110 => if covers mask 0 32 then { s with hif := { s.hif with compLost := put 0 s.hif.compLost n 0 } } else s
  | 0x120 => if covers mask 0 48 then s.setComp n { v with bytesRead := 0 } else s
  | 0x128 => if covers mask 0 48 then s.setComp n { v with bytesWritten := 0 } else s
  | 0x130 => if covers mask 0 32 then s.setComp n { v with refused := 0 } else s
  | 0x138 => if covers mask 0 48 then s.setComp n { v with dieTime := 0 } else s
  | _ => s

/-! ### GLB, OPT, PWR, TIM, THM and FAN -/

def glbWrite (s : State) (off v mask : Nat) : State :=
  let m := merged (s.glbRead off) v mask
  let ones := v &&& mask
  if off ≠ 0x40 then s
  else { s with pins := { s.pins with
    modOkLow := m.testBit 10, ppsOutEn := m.testBit 11, alertEn := BitVec.ofNat 4 (bits m 20 4)
    srcCritEvent := s.pins.srcCritEvent && !ones.testBit 18, srcIdChanged := s.pins.srcIdChanged && !ones.testBit 19 } }

/-- A write of the staging copy; above Open, only a steward reel changes the key-hash table while it holds a hash
(R551). -/
def optWrite (s : State) (off v mask : Nat) (reel : Bool) : State :=
  let table := decide (512 ≤ off) && decide (off < 896)
  if table && !reel && !s.isOpen && s.hasHash then s
  else { s with sec := { s.sec with optStage := writeBytes s.sec.optStage off (leBytes 8 (merged (s.optRead off) v mask)) } }

def pwrWrite (s : State) (off v mask : Nat) : State :=
  let m := merged (s.pwrRead off) v mask
  let ones := v &&& mask
  match off with
  | 0x10 => { s with pwr := { s.pwr with idleUs := bits m 0 24 } }
  | 0x18 => { s with pwr := { s.pwr with wakeEn := (BitVec.ofNat 32 m &&& 0x1BC) ||| 0x042 } }
  | 0x20 => { s with pwr := { s.pwr with wakeTimer := m } }
  | 0x38 => { s with plog := { s.plog with closeMs := bits m 16 16, forced := s.plog.forced && !ones.testBit 9 } }
  | 0x100 => if ones.testBit 35 then { s with plog := { s.plog with measBusy := true } } else s
  | 0x108 => ({ s with plog := { s.plog with dirtyCfg := bits m 32 7 } }).relimit
  | _ => s

def timWrite (s : State) (off v mask : Nat) : State :=
  let m := merged (s.timRead off) v mask
  if off ≠ 0x08 then s
  else { s with tim := { s.tim with ppsEn := m.testBit 0, ptmEn := m.testBit 1, ptmMs := bits m 8 8 } }

/-- Limits and grace window change at Open only; none stands above its default (R501, R510, R568). -/
def thmWrite (s : State) (off v mask : Nat) : State :=
  let m := merged (s.thmRead off) v mask
  match off with
  | 0x08 => if !s.isOpen then s else { s with thm := { s.thm with
      die := limitsFor dieDefaults (bits m 0 8) (bits m 8 8) (bits m 16 8)
      flash := limitsFor flashDefaults (bits m 24 8) (bits m 32 8) (bits m 40 8)
      graceMs := bits m 48 12, hystC := bits m 60 4 } }
  | 0x10 => { s with thm := { s.thm with stopMs := bits m 0 16, stopEn := m.testBit 16 } }
  | _ => s

/-- Writing 1 to `held_off` clears the bit and starts a retry (R516). -/
def retryHeld (s : State) (ones : Nat) : State :=
  (List.range 4).foldl (fun (t : State) i =>
    if ones.testBit (24 + i) && t.fan.heldOff.getLsbD i then t.clearHeld i else t) s

def fanWrite (s : State) (off v mask : Nat) : State :=
  let m := merged (s.fanRead off) v mask
  let ones := v &&& mask
  let clear := fun (b : BitVec 4) (lo : Nat) => b &&& ~~~ BitVec.ofNat 4 (bits ones lo 4)
  if !s.part.fan then s
  else match off with
  | 0x00 =>
    let f : Fans := { s.fan with cmdSrc := bits m 0 2, enable := BitVec.ofNat 4 (bits m 4 4), minPct := bits m 8 7
                                 outs := s.fan.outs.mapIdx (fun i (o : FanOut) => if (bits m 4 4).testBit i then o
                                   else { o with state := 0, cmdPct := 0, dutyPct := 0 }) }
    { s with fan := if s.isOpen then { f with ratedRpm := bits m 16 16, polePairs := bits m 32 4 } else f }
  | 0x10 =>
    let f : Fans := { s.fan with
      stall := clear s.fan.stall 0, startFail := clear s.fan.startFail 4, overcurrent := clear s.fan.overcurrent 8
      openPhase := clear s.fan.openPhase 12, speedLow := clear s.fan.speedLow 16
      clampFault := s.fan.clampFault && !ones.testBit 20, rail28 := s.fan.rail28 && !ones.testBit 21
      rail30 := s.fan.rail30 && !ones.testBit 22 }
    ({ s with fan := f }).retryHeld ones
  | _ => s

/-! ### SEC -/

/-- `SEC_PROT`: a write that covers `cmd` starts a level command (R548). -/
def protWrite (s : State) (v mask : Nat) : State :=
  if !covers mask 8 3 then s
  else match bits v 8 3 with
  | 1 => s.raiseClosed
  | 2 => s.raiseSealed (BitVec.ofNat 16 (bits v 16 16))
  | 3 => s.lowerOpen (BitVec.ofNat 16 (bits v 16 16))
  | _ => s

/-- `SEC_OPT_CMD` (R552): which copies read back is open (log 41). -/
def optCmdWrite (s : State) (v mask : Nat) : State :=
  if !covers mask 0 2 then s
  else match bits v 0 2 with
  | 1 => (s.optionCommit (v.testBit 2) (BitVec.ofNat 4 (Config.freeNat s.free)) []).draw
  | 2 => s.optionReload
  | _ => s

/-- `SEC_KEY_CMD` (R556). -/
def keyCmdWrite (s : State) (v mask : Nat) : State :=
  let slot := bits v 16 11
  if !covers mask 0 3 then s
  else match bits v 0 3 with
  | 0 => s.keyQuery slot
  | 1 => s.keyGenerate slot
  | 2 => s.keyInstall slot
  | 3 => s.keyInstallWrapped slot
  | 4 => s.keyErase slot
  | _ => s

def secWrite (s : State) (off v mask : Nat) : State :=
  if 0x20 ≤ off ∧ off < 0x68 then
    let data := modAt s.sec.keyData ((off - 0x20) / 8) (fun (w : Word) => BitVec.ofNat 64 (merged w.toNat v mask))
    { s with sec := { s.sec with keyData := data } }
  else match off with
  | 0x00 => s.protWrite v mask
  | 0x08 => s.optCmdWrite v mask
  | 0x10 => s.keyCmdWrite v mask
  | _ => s

/-! ### MEM and BPM -/

/-- The oldest halted host DMA channel returns to service (R406). -/
def releaseChannel (s : State) : State := { s with mem := { s.mem with frozen := s.mem.frozen.drop 1 } }

def memWrite (s : State) (off v mask : Nat) : State :=
  let ones := v &&& mask
  match off with
  | 0x10 =>
    let m := merged (s.memRead off) v mask
    { s with mem := { s.mem with dramH := bits m 0 8, sramMin := bits m 8 8 } }
  | 0x20 => if ones.testBit 0 then s.releaseChannel else s
  | 0x80 => if !s.isOpen then s else { s with mem := { s.mem with
      flipSel := BitVec.ofNat 64 (merged s.mem.flipSel.toNat v mask) &&& 0x800FF7FF } }
  | 0x88 => if !s.isOpen then s else { s with mem := { s.mem with
      flipMask := BitVec.ofNat 64 (merged s.mem.flipMask.toNat v mask) } }
  | _ => s

/-- A mode or layout write is refused (R376). -/
def refuseLayout (s : State) : State := { s with bpm := { s.bpm with cfgRefused := true } }

/-- Some buffer of a domain is allocated. -/
def domainUsed (s : State) (d : Nat) : Bool := s.bpm.bufs.any (fun e => decide ((e.2.map (fun b => b.domain)) = some d))

/-- Pools of one part of a domain in a mode: the cell store, or the layout of R377 (log 43). -/
def partLayout (d : Nat) (cell : Bool) : List Pool :=
  if cell then Pool.ofSize 9 (if d = 0 then 19922944 else 16384) :: List.replicate 7 Pool.off
  else if d = 0 then Pool.generalPart else Pool.sramPart

/-- `BPM_DOM_CFG` (R376, R392). -/
def domWrite (s : State) (v mask : Nat) : State :=
  let m := merged (s.bpmRead 0) v mask
  let s0 : State := if (v &&& mask).testBit 2 then { s with bpm := { s.bpm with cfgRefused := false } } else s
  let dram := m.testBit 0
  let sram := m.testBit 1
  let turns := fun (d : Nat) => if d = 0 then dram != s.bpm.dramCell else sram != s.bpm.sramCell
  if !turns 0 && !turns 1 then s0
  else if !s.parked || (turns 0 && s.domainUsed 0) || (turns 1 && s.domainUsed 1) then s0.refuseLayout
  else { s0 with bpm := { s0.bpm with
    dramCell := dram, sramCell := sram
    general := if turns 0 then partLayout 0 dram ++ partLayout 0 dram else s0.bpm.general
    sram := if turns 1 then (List.replicate 16 (partLayout 1 sram)).flatten else s0.bpm.sram } }

/-- Bytes that a pool's layout takes. -/
def poolBytes (p : Pool) : Nat := if p.enabled then p.count * 2 ^ p.sizeLog2 else 0

/-- The pools that share a part with a store. -/
def partPools (s : State) (r : PoolRef) : List Pool :=
  match r with
  | .staging => []
  | .general p _ => (List.range 8).map (fun k => s.pool (.general p k))
  | .sram c _ => (List.range 8).map (fun k => s.pool (.sram c k))

/-- Bytes of a part (R374). -/
def partBytes (r : PoolRef) : Nat :=
  match r with
  | .sram _ _ => 8388608
  | _ => 10200547328

/-- A layout that R376 accepts in place of what the store holds. -/
def layoutOk (s : State) (r : PoolRef) (p : Pool) : Bool :=
  let old := s.pool r
  let cell := s.cellMode (poolDomain r)
  let sizeOk := if cell then decide (p.sizeLog2 = 9) else decide (12 ≤ p.sizeLog2) && decide (p.sizeLog2 ≤ 22)
  s.parked && (!p.enabled || sizeOk) && (decide (old.held = 0) || (decide (p.sizeLog2 = old.sizeLog2) && p.enabled)) &&
    decide (old.held ≤ p.count) &&
    decide (sumBy poolBytes (s.partPools r) - poolBytes old + poolBytes p ≤ partBytes r)

/-- `BPM_POOL_CFG` (R376, R394): the staging pool cannot be written. -/
def poolWrite (s : State) (v mask : Nat) : State :=
  let m := merged (s.bpmRead 0x20) v mask
  match s.selectedPool with
  | none => s
  | some .staging => s
  | some r =>
    let old := s.pool r
    let p : Pool := { old with sizeLog2 := bits m 0 5, enabled := m.testBit 5, count := bits m 8 32 }
    if p = old then s
    else if !s.layoutOk r p then s.refuseLayout
    else (s.setPool r (settleStack (if old.held = 0 then { p with freed := [], fresh := 0 } else p) p.onDie)).levels r

/-- Stores whose levels a domain's watermarks judge. -/
def domainStores (d : Nat) : List PoolRef :=
  if d = 0 then .staging :: (List.range 16).map (fun i => .general (i / 8) (i % 8))
  else (List.range 128).map (fun i => .sram (i / 8) (i % 8))

/-- `BPM_WM[d]` (R382, R384, R393): the levels of the stores in use are judged by the new thresholds. -/
def marksWrite (s : State) (d v mask : Nat) : State :=
  let m := merged (marksWord (s.marks d)) v mask
  let w : Marks := { amber := bits m 0 7, red := bits m 8 7, black := bits m 16 7, hyst := bits m 24 4 }
  let s1 : State := if d = 0 then { s with bpm := { s.bpm with wm0 := w } } else { s with bpm := { s.bpm with wm1 := w } }
  (domainStores d).foldl (fun (t : State) r => if (t.pool r).enabled then t.levels r else t) s1

/-- `BPM_OWNER_CMD` (R395): a write that covers `op` starts the operation with the fields last written. -/
def ownerCmdWrite (s : State) (v mask : Nat) : State :=
  let w := merged s.bpm.ownerCmd.toNat v mask
  let s1 := { s with bpm := { s.bpm with ownerCmd := BitVec.ofNat 64 w } }
  if covers mask 0 3 then s1.ownerOp (bits w 0 3) (bits w 8 10) (bits w 32 12) (bits w 48 16) else s1

def bpmWrite (s : State) (off v mask : Nat) : State :=
  match off with
  | 0x00 => s.domWrite v mask
  | 0x08 => s.marksWrite 0 v mask
  | 0x10 => s.marksWrite 1 v mask
  | 0x18 => { s with bpm := { s.bpm with sel := BitVec.ofNat 32 (merged s.bpm.sel.toNat v mask) &&& 0x7F03 } }
  | 0x20 => s.poolWrite v mask
  | 0x30 => s.ownerCmdWrite v mask
  | 0x48 => { s with bpm := { s.bpm with leakMs := bits (merged s.bpm.leakMs v mask) 0 32 } }
  | _ => s

/-! ### HIF and CPL -/

/-- The host's index of the steward ring; a value at or above the ring size is ignored (R435). -/
def hifWrite (s : State) (off v mask : Nat) : State :=
  let h := bits (merged (s.hifRead off) v mask) 16 16
  match s.hif.ring with
  | some r => if off = 0x100 ∧ h < r.size then { s with hif := { s.hif with ring := some { r with head := h } } } else s
  | none => s

/-- What a register write knows of the neighbour's side of a mirror operation: nothing, so it is open (log 41). -/
def mirrorFields (s : State) (w : Nat) : MirrorArgs :=
  let f := fun (i : Nat) => Config.freeNat (s.free + i)
  { mirrorRole := w.testBit 3, pgroup := bits w 4 7, peer := bits w 12 3, peerPgroup := bits w 16 7, owner := bits w 24 12
    zone := bits w 36 24
    peerNs := if f 0 % 2 = 1 then some (f 1, decide (f 2 % 2 = 1), f 3) else none
    peerBound := decide (f 4 % 2 = 1) }

/-- `CPL_MIRROR_CMD` (R541, R566). -/
def mirrorCmdWrite (s : State) (v mask : Nat) : State :=
  let w := merged s.cpl.cmdLatch.toNat v mask
  let s1 := { s with cpl := { s.cpl with cmdLatch := BitVec.ofNat 64 w } }
  let m := s1.mirrorFields w
  let s2 := { s1 with free := s1.free + 5 }
  if !covers mask 0 3 then s1
  else match bits w 0 3 with
  | 0 => s2.mirrorBind m
  | 1 => s2.mirrorUnbind m
  | 2 => s2.mirrorPromote m
  | 3 => s2.mirrorResync m
  | 4 => s2.mirrorCopy m
  | 5 => s2.mirrorQuery m
  | _ => s1

def cplWrite (s : State) (off v mask : Nat) : State :=
  let m := merged (s.cplRead off) v mask
  if !s.part.coupler then s
  else match off with
  | 0x20 =>
    let t := { s with cpl := { s.cpl with membersCfg := BitVec.ofNat 8 m } }
    ({ t with cpl := { t.cpl with membersSeen := t.cpl.membersSeen &&& t.members } }).judgeQuorum
  | 0x28 => ({ s with cpl := { s.cpl with timeLeadEn := m.testBit 0 } }).leadChanged s.cpl.timeLeadEn s.tim.locked
  | 0x100 => s.mirrorCmdWrite v mask
  | _ => s

/-! ### CLR, ZNE, FCD, CLU and CHN -/

def clrWrite (s : State) (off v mask : Nat) : State :=
  let m := merged (s.clrRead off) v mask
  if off ≠ 0x90010 then s
  else { s with kry := { s.kry with stewardCtx := bits m 0 7, perCmp := bits m 8 3 } }

/-- `ZNE_ZONE_STAT` of a zone (R90); state 0 where there is no such zone. -/
def zoneStatus (s : State) (z : Nat) : Nat :=
  let v := s.zone z
  if !s.zoneExists z then 0x80
  else v.state.code + flagAt v.direct 4 + flagAt v.pinned 5 + flagAt v.reduced 6 + flagAt true 7 + field v.wp 8 19 +
    field v.cap 32 19

/-- A query of one zone, whose result is there at once (R89). -/
def queryZone (s : State) (z : Nat) : State := { s with zns := { s.zns with zoneStat := BitVec.ofNat 64 (s.zoneStatus z) } }

def zneWrite (s : State) (off v mask : Nat) : State :=
  let m := merged (s.zneRead off) v mask
  match off with
  | 0x10 => { s with zns := { s.zns with sgSel := bits m 0 7 } }
  | 0x20 => { s with zns := { s.zns with pgSel := bits m 0 7 } }
  | 0x30 => if covers mask 0 24 then s.queryZone (bits v 0 24) else s
  | 0x100 =>
    let f : FoldCfg := { startPct := bits m 0 7, urgentPct := bits m 8 7, foldClass := bits m 16 2
                         urgentClass := bits m 18 2, maxFolds := bits m 24 6 }
    { s with fls := { s.fls with foldNext := some f } }
  | 0x200 => { s with jrn := { s.jrn with ckptS := bits m 0 12 } }
  | _ => s

def fcdWrite (s : State) (off v mask : Nat) : State :=
  let m := merged (s.fcdRead off) v mask
  if s.part.codec && decide (off = 0x08) then { s with fcd := { s.fcd with sel := bits m 0 11 } } else s

/-- A write to the registers of a cluster. DESIGN CHOICE (log 168): a slack written as 0 is held and read as 1 (R127). -/
def cluWrite (s : State) (k off v mask : Nat) : State :=
  let m := merged (s.cluRead k off) v mask
  let least := fun (n : Nat) => max 1 n
  let cfg := fun (f : ClusterCfg → ClusterCfg) => { s with fls := { s.fls with clusters := modAt s.fls.clusters k f } }
  if 0x300 ≤ off ∧ off < 0x340 then
    if s.part.history then
      cfg (fun (c : ClusterCfg) => { c with hist := modAt c.hist ((off - 0x300) / 8) (fun (_ : Word) => BitVec.ofNat 64 m) })
    else s
  else match off with
  | 0x100 => { s with car := { s.car with ra := modAt s.car.ra k (fun (r : RaBudget) =>
      { r with written := some (least (bits m 8 12), least (bits m 20 12), least (bits m 32 12)) }) } }
  | 0x200 =>
    let n : MediaCfg := { promHours := bits m 0 8, promBits := bits m 8 8, rcQlc := bits m 16 12, rcSlc := bits m 28 12
                          relocClass := bits m 40 2, rebuildClass := bits m 42 2 }
    cfg (fun (c : ClusterCfg) => { c with mediaNext := some n })
  | 0x208 => cfg (fun (c : ClusterCfg) => { c with spread := bits m 0 16, roleGap := bits m 16 16 })
  | _ => s

def chnWrite (s : State) (c off v mask : Nat) : State :=
  let m := merged (s.chnRead c off) v mask
  let cfg := fun (f : Channel → Channel) => { s with fls := { s.fls with channels := modAt s.fls.channels c f } }
  match off with
  | 0x10 => cfg (fun (h : Channel) => { h with starveLimit := bits m 0 16 })
  | 0x20 => cfg (fun (h : Channel) => { h with dieSel := bits m 0 5 })
  | _ => s

/-! ### The register space -/

/-- A write of the 64 bits of BAR 2 at an offset that is a multiple of 8, under a mask; `reel`: the held effect of a REGWR
(R551, R566, R569). -/
def regWrite (s : State) (off v mask : Nat) (reel : Bool) : State :=
  if off < 0x10000 then s.glbWrite off v mask
  else if off < 0x20000 then s.optWrite (off - 0x10000) v mask reel
  else if off < 0x30000 then s.pwrWrite (off - 0x20000) v mask
  else if off < 0x40000 then s.timWrite (off - 0x30000) v mask
  else if off < 0x50000 then s.thmWrite (off - 0x40000) v mask
  else if off < 0x60000 then s.fanWrite (off - 0x50000) v mask
  else if off < 0x70000 then s.secWrite (off - 0x60000) v mask
  else if off < 0x80000 then s.memWrite (off - 0x70000) v mask
  else if off < 0xA0000 then s.bpmWrite (off - 0x80000) v mask
  else if off < 0xC0000 then s.hifWrite (off - 0xA0000) v mask
  else if off < 0x100000 then s.cplWrite (off - 0xC0000) v mask
  else if off < 0x200000 then s.clrWrite (off - 0x100000) v mask
  else if off < 0x400000 then s
  else if off < 0x500000 then s.zneWrite (off - 0x400000) v mask
  else if off < 0x600000 then s
  else if off < 0x800000 then s.fcdWrite (off - 0x600000) v mask
  else if off < 0x900000 then s.cluWrite ((off - 0x800000) / 0x10000) (off % 0x10000) v mask
  else if off < 0x1000000 then s
  else if off < 0x1400000 then s.chnWrite ((off - 0x1000000) / 0x10000) (off % 0x10000) v mask
  else s

/-! ### BAR 0 and BAR 4 -/

/-- The doorbells of a queue: the tail of its submission queue in the lower half, the head of its completion queue in the
upper half (R355). -/
def bellWrite (s : State) (p comp qid v mask : Nat) : State :=
  let s1 := if covers mask 0 32 then s.doorbell p comp qid (bits v 0 16) true else s
  if covers mask 32 32 then s1.doorbell p comp qid (bits v 32 16) false else s1

/-- One double word of the MSI-X table; an entry that is unmasked sends the message that was pending (log 39). -/
def msixWrite (s : State) (p i w : Nat) : State :=
  let s1 := { s with hif := { s.hif with
    msix := put (if i % 4 = 3 then 1#32 else 0#32) s.hif.msix (p * 32768 + i) (BitVec.ofNat 32 w) } }
  if i % 4 = 3 ∧ ¬ (w % 2 = 1) ∧ s1.hif.msixPending.contains (p * 8192 + i / 4) then
    ({ s1 with hif := { s1.hif with msixPending := s1.hif.msixPending.filter (fun k => decide (k ≠ p * 8192 + i / 4)) } }).emit
      (.irq p (i / 4))
  else s1

/-- A write of BAR 0 (R409, R413, R414, R565). -/
def barZeroWrite (s : State) (p off v mask : Nat) : State :=
  if 0x20000 ≤ off ∧ off < 0x40000 then
    let i := (off - 0x20000) / 4
    let s1 := if covers mask 0 32 then s.msixWrite p i (bits v 0 32) else s
    if covers mask 32 32 then s1.msixWrite p (i + 1) (bits v 32 32) else s1
  else if 0x1000 ≤ off ∧ off < 0x1208 then s.bellWrite p 0 ((off - 0x1000) / 8) v mask
  else if off = 0x10 ∧ covers mask 32 32 then s.controllerEn p (v.testBit 32)
  else s

/-- A write of a compartment's register set (R351). -/
def windowWrite (s : State) (p n off v mask : Nat) : State :=
  let c := s.comp n
  let m := merged (s.window n off) v mask
  match off with
  | 0x010 => if covers mask 0 32 then s.compartmentEn p n (v.testBit 0) else s
  | 0x020 => if c.en then s else s.setComp n { c with aqa := BitVec.ofNat 32 m &&& 0x0FFF0FFF }
  | 0x028 => s.setComp n { c with asq := BitVec.ofNat 64 m &&& 0xFFFFFFFFFFFFF000 }
  | 0x030 => s.setComp n { c with acq := BitVec.ofNat 64 m &&& 0xFFFFFFFFFFFFF000 }
  | 0x038 => s.setComp n { c with apasid := bits m 0 20 }
  | 0x108 => match look none s.hif.compRings n with
    | some r => if bits m 0 12 < r.size then
        { s with hif := { s.hif with compRings := put none s.hif.compRings n (some { r with head := bits m 0 12 }) } }
      else s
    | none => s
  | 0x150 => s.setComp n { c with intMask := BitVec.ofNat 4 m }
  | 0x158 => s.setComp n { c with intStat := c.intStat &&& ~~~ BitVec.ofNat 4 (v &&& mask) }
  | _ => s

/-- A write of BAR 4 (R350, R355). -/
def barFourWrite (s : State) (p off v mask : Nat) : State :=
  let n := off / 0x10000
  let o := off % 0x10000
  if !s.windowOpen p n then s
  else if 0x1000 ≤ o ∧ o < 0x1208 then s.bellWrite p n ((o - 0x1000) / 8) v mask
  else if o < 0x180 then s.windowWrite p n o v mask
  else s

end State

end Sys2Proof.Machine
end

