-- ==== Sys2Proof/Machine/KSys.lean ====
section
/-! DEFINITION. The power, time, event, register, host memory, mount and compartment instructions of Krytfer (R304 to R307,
R358, R385, R432). -/

namespace Sys2Proof.Machine

open State

/-! ### Power and time (R304) -/

/-- TIMERD: g[d] takes `TIM_NOW`; it is no unit instruction and sets no status (R292). -/
def execTimerd (w : KWord) (s : State) : Out :=
  s.runJournal "TIMERD" (formD 0xB0) w (fun _ => []) (fun _ => []) (fun _ => [])
    (fun _ => { s := s, results := [(w.d.toNat, BitVec.ofNat 64 s.now)], z := none, scratch := [] })

/-- TIMSET (R304, R493). -/
def execTimset (w : KWord) (s : State) : Out :=
  s.runHeld "TIMSET" (formA 0xB1) w (fun k => s.unitTraps k (some 16) []) (fun k => .timset (regA k w))

/-- PMODE (R304, R468). -/
def execPmode (w : KWord) (s : State) : Out :=
  s.runHeld "PMODE" (formA 0xB2) w
    (fun k => s.unitTraps k (some 14) [] ++ [(decide (2 < (regA k w).toNat), 0x08, 7)]) (fun k => .pmode (regA k w).toNat)

/-- PSTATE (R304, R473): the idle hint needs no capability. -/
def execPstate (w : KWord) (s : State) : Out :=
  s.runHeld "PSTATE" (formA 0xB3) w
    (fun k => s.unitTraps k (if (regA k w).toNat = 0 then none else some 14) [] ++
      [(decide (3 < (regA k w).toNat), 0x08, 7)])
    (fun k => .pstate (regA k w).toNat)

/-! ### Events (R305, R432) -/

/-- The 16 payload bytes of a record. -/
def payloadBytes (e : EvRec) : List Byte :=
  match e.payload with
  | .raw bs => bs
  | .fields vs => (List.range 16).map (Config.payloadByte e.code vs)

/-- The 32 bytes of an event record. -/
def eventBytes (e : EvRec) : List Byte :=
  leBytes 8 e.time ++ leBytes 2 e.code ++ leBytes 2 e.source ++ leBytes 2 e.comp ++ leBytes 1 e.level ++ [0] ++ payloadBytes e

/-- EVPOST (R305): the payload is read when the instruction issues. -/
def execEvpost (w : KWord) (s : State) : Out :=
  let code := w.imm.toNat % 65536
  s.runHeld "EVPOST" { op := 0xC0, useD := false, useA := false, useB := true, mask := 0x7 } w
    (fun k => s.unitTraps k (some 15) [] ++
      [(decide (w.b ≠ 0) && s.outside k 0 (regB k w).toNat 16 0, 0x06, 1), (decide (code < 0x8000), 0x08, 7)])
    (fun k => .evpost code (w.mod.toNat % 8)
      (if w.b = 0 then List.replicate 16 0 else readBytes k.scratch (regB k w).toNat 16))

/-- EVNEXT (R305). -/
def execEvnext (w : KWord) (s : State) : Out :=
  s.runJournal "EVNEXT" (formA 0xC1) w
    (fun k => s.unitTraps k (some 15) [] ++ [(s.outside k 0 (regA k w).toNat 32 0, 0x06, 1)]) (fun _ => []) (fun _ => [])
    (fun k => match s.kinst k.inst with
      | none => status s 1 [0]
      | some i =>
        let lost := BitVec.ofNat 64 i.eventsLost
        match i.events with
        | [] => status (s.setKinst k.inst (some { i with eventsLost := 0 })) 1 [lost]
        | e :: r =>
          let a := (regA k w).toNat
          { status (s.setKinst k.inst (some { i with events := r, eventsLost := 0 })) 0 [lost] with
            scratch := (eventBytes e).mapIdx (fun j b => (a + j, b)) })

/-- Form of EVSUB. -/
def formEvsub : Form := { op := 0xC2, useD := false, useA := true, useB := true, mask := 0x1 }

/-- EVSUB add or clear, by `mod` [0]. -/
def runEvsub (s : State) (name : String) (clear : Bool) (w : KWord) (eff : KCtx → Answer) : Out :=
  if w.mod.getLsbD 0 ≠ clear then cannot name
  else s.runJournal name formEvsub w (fun k => s.unitTraps k (some 15) []) (fun _ => []) (fun _ => []) eff

/-- EVSUB_ADD (R305): at most four ranges. -/
def execEvsubAdd (w : KWord) (s : State) : Out :=
  runEvsub s "EVSUB_ADD" false w (fun k => match s.kinst k.inst with
    | none => status s 1 []
    | some i =>
      if 4 ≤ i.subs.length then status s 1 []
      else status (s.setKinst k.inst (some { i with subs := i.subs ++ [((regA k w).toNat, (regB k w).toNat)] })) 0 [])

/-- EVSUB_CLEAR (R305). -/
def execEvsubClear (w : KWord) (s : State) : Out :=
  runEvsub s "EVSUB_CLEAR" true w (fun k => match s.kinst k.inst with
    | none => status s 0 []
    | some i => status (s.setKinst k.inst (some { i with subs := [] })) 0 [])

/-! ### Registers (R305, R567) -/

/-- Traps of a BAR 2 offset. -/
def offsetTraps (a : Word) : List TrapIf := [(decide (a.toNat % 8 ≠ 0), 0x06, 0), (decide (2 ^ 26 ≤ a.toNat), 0x06, 1)]

/-- REGRD: it clears what is cleared by a read (R305, R567). -/
def execRegrd (w : KWord) (s : State) : Out :=
  s.runJournal "REGRD" (formA 0xC3) w (fun k => s.unitTraps k (some 12) [] ++ offsetTraps (regA k w)) (fun _ => [])
    (fun _ => [])
    (fun k =>
      let a := (regA k w).toNat
      status (s.regClear a (2 ^ 64 - 1)).draw 0 [BitVec.ofNat 64 (s.regRead a)])

/-- REGWR (R305, R567). -/
def execRegwr (w : KWord) (s : State) : Out :=
  s.runHeld "REGWR" (formDA 0xC4) w (fun k => s.unitTraps k (some 13) [] ++ offsetTraps (regA k w))
    (fun k => .regwr (regA k w).toNat (regD k w))

/-! ### Host memory (R305) -/

/-- Port, PASID and compartment of a reel's host transfers (R318). -/
def State.dmaFrom (s : State) (k : KCtx) : DmaFrom :=
  match s.kinst k.inst with
  | some i => { port := i.port, pasid := i.pasid, comp := k.comp }
  | none => { port := 0, pasid := none, comp := k.comp }

/-- HDMARD and HDMAWR: up to 16 MiB, at a span of the buffer. -/
def runHostDma (s : State) (name : String) (op : Nat) (w : KWord) (unitOp : DmaFrom → Nat → Nat → Nat → Nat → UnitOp) : Out :=
  let off := w.imm.toNat % 2 ^ 24
  s.runTicket name (formDAB op) w
    (fun k => s.unitTraps k (some 11) [] ++
      [(decide (2 ^ 24 < (regD k w).toNat) || s.outside k 2 off (regD k w).toNat (regB k w), 0x06, 1)])
    (fun k => s.handleTraps k (regB k w)) (fun _ => [])
    (fun k t s => s.addOp w.ctx k.inst t (unitOp (s.dmaFrom k) (regA k w).toNat (regD k w).toNat (regB k w).toNat off))

/-- HDMARD (R305). -/
def execHdmard (w : KWord) (s : State) : Out := runHostDma s "HDMARD" 0xC5 w .hostRead

/-- HDMAWR (R305). -/
def execHdmawr (w : KWord) (s : State) : Out := runHostDma s "HDMAWR" 0xC6 w .hostWrite

/-! ### Mount (R206 to R214, R306, R561) -/

/-- A mount is requested (R210, R561): the checkpoint path, or the full scan where no marker names a valid checkpoint. -/
def State.startMount (s : State) (full : Bool) : State :=
  { s with mnt := { s.mnt with state := if full || decide (s.plog.marker = 0) || !s.jrn.valid then 2 else 1, scanned := false, progress := 0, fallback := 0, elapsed := 0
                               requestedAt := s.now, waiting := s.sec.sanActive } }

/-- MOUNT: refused outside the Parked state, and after a sanitize that failed (R562); one that runs is joined. -/
def runMount (s : State) (name : String) (full : Bool) (w : KWord) : Out :=
  if w.mod.getLsbD 0 ≠ full then cannot name
  else s.runTicket name { op := 0xD0, useD := false, useA := false, useB := false, mask := 0x1 } w
    (fun k => s.unitTraps k (some 17) []) (fun _ => []) (fun _ => [])
    (fun k t s =>
      let now := fun (st : Nat) => s.addOp w.ctx k.inst t (.answered st 0)
      if !s.parked then now 1
      else if s.mnt.state = 4 then now 0
      else if s.sec.sanFailed then now 2
      else
        let s1 := s.addOp w.ctx k.inst t .mount
        if 1 ≤ s.mnt.state ∧ s.mnt.state ≤ 3 then s1 else s1.startMount full)

/-- MOUNT_CHECKPOINT (R210, R306). -/
def execMountCheckpoint (w : KWord) (s : State) : Out := runMount s "MOUNT_CHECKPOINT" false w

/-- MOUNT_FULL_SCAN (R212, R306). -/
def execMountFullScan (w : KWord) (s : State) : Out := runMount s "MOUNT_FULL_SCAN" true w

/-- CKPT (R207, R306). -/
def execCkpt (w : KWord) (s : State) : Out :=
  s.runTicket "CKPT" (formNone 0xD1) w (fun k => s.unitTraps k (some 17) []) (fun _ => []) (fun _ => [])
    (fun k t s =>
      if !s.mounted then s.addOp w.ctx k.inst t (.answered 1 0)
      else
        let s1 := s.addOp w.ctx k.inst t .checkpoint
        if s.jrn.running then s1 else s1.startCkpt)

/-- UNPARK (R306). -/
def execUnpark (w : KWord) (s : State) : Out :=
  s.runHeld "UNPARK" (formNone 0xD2) w (fun k => s.unitTraps k (some 17) [] ++ [(!s.mounted, 0x08, 4)])
    (fun _ => .unpark)

/-- STOP (R208, R306). -/
def execStop (w : KWord) (s : State) : Out :=
  s.runTicket "STOP" (formNone 0xD3) w (fun k => s.unitTraps k (some 17) []) (fun _ => []) (fun _ => [])
    (fun k t s =>
      if s.parked then s.addOp w.ctx k.inst t (.answered 1 0)
      else
        let s1 := s.addOp w.ctx k.inst t .stop
        if s.mnt.stopping then s1 else s1.beginStop.stopCheck)

/-! ### Compartments (R307, R358, R385) -/

/-- A value that a resource may take. -/
def resourceValue (res v : Nat) : Bool :=
  match res with
  | 0 => decide (v ≤ 64)
  | 1 => decide (v ≤ 24576)
  | 2 => decide (v ≤ 512)
  | 3 => decide (2 ≤ v)
  | 4 => decide (v ≤ 1000)
  | _ => decide (v ≤ 2)

/-- The floors would exceed 16,384 segments (R385). -/
def State.floorsExceed (s : State) (n v : Nat) : Bool :=
  decide (16384 < v + sumBy (fun (e : Nat × Comp) => if e.1 = n then 0 else e.2.res.floor) s.cmp.table)

/-- What refuses a setting of compartment `n` by a rule: Free, compartment 0, or the sum of floors (R307, R385). -/
def State.cmpsetRefused (s : State) (n res v : Nat) : Bool :=
  (decide (n ≠ 0) && decide ((s.comp n).state = .free)) || (decide (n = 0) && (decide (res = 0) || decide (res = 3))) ||
    (decide (res = 3) && s.floorsExceed n v)

/-- CMPSET of one resource. -/
def runCmpset (s : State) (name : String) (res : Nat) (w : KWord) : Out :=
  if !selects w res then cannot name
  else s.runHeld name { op := 0xE0, useD := false, useA := true, useB := true, mask := 0xF } w
    (fun k =>
      let n := (regA k w).toNat
      let v := (regB k w).toNat
      s.unitTraps k (some 18) [] ++
        [(decide (1023 < n) || !resourceValue res v, 0x08, 7), (s.cmpsetRefused n res v, 0x08, 4)])
    (fun k => .cmpset (regA k w).toNat res (regB k w).toNat (w.imm.toNat % 16))

/-- CMPSET_QUEUE_PAIRS (R307, R358). -/
def execCmpsetQueuePairs (w : KWord) (s : State) : Out := runCmpset s "CMPSET_QUEUE_PAIRS" 0 w

/-- CMPSET_ACTIVE_QUOTA (R64, R307, R358). -/
def execCmpsetActiveQuota (w : KWord) (s : State) : Out := runCmpset s "CMPSET_ACTIVE_QUOTA" 1 w

/-- CMPSET_DIRECT_QUOTA (R64, R307, R358). -/
def execCmpsetDirectQuota (w : KWord) (s : State) : Out := runCmpset s "CMPSET_DIRECT_QUOTA" 2 w

/-- CMPSET_BUFFER_FLOOR (R307, R358, R385). -/
def execCmpsetBufferFloor (w : KWord) (s : State) : Out := runCmpset s "CMPSET_BUFFER_FLOOR" 3 w

/-- CMPSET_CREDIT_SHARE (R132, R307, R358). -/
def execCmpsetCreditShare (w : KWord) (s : State) : Out := runCmpset s "CMPSET_CREDIT_SHARE" 4 w

/-- CMPSET_LATENCY_CLASS (R307, R358). -/
def execCmpsetLatencyClass (w : KWord) (s : State) : Out := runCmpset s "CMPSET_LATENCY_CLASS" 5 w

end Sys2Proof.Machine
end

