-- ==== Sys2Proof/Machine/KCommit.lean ====
section
/-! DEFINITION. Commits, the effects they release, and the completions of tickets (R271, R275, R278, R285, R293, R299, R303,
R305, R328). -/

namespace Sys2Proof.Machine

namespace State

/-! ### Held effects (R278) -/

/-- Event 0x0802: a held effect whose check no longer holds is dropped (R278). DESIGN CHOICE (log 170): the unit that refuses an
UNPARK or a CMPSET, and posts the event, is the host interface. -/
def dropHeld (s : State) (c comp : Nat) (epoch : BitVec 32) (op : Nat) : State :=
  s.event 0x0802 2 srcHost comp [c / 4, epoch.toNat, op]

/-- The module leaves the Parked state (R306). -/
def unpark (s : State) : State := { s with boot := { s.boot with parked := false } }

/-- An idle hint of a compartment (R474). -/
def hintIdle (s : State) (comp : Nat) : State :=
  let s1 := { s with pwr := { s.pwr with hinted := if s.pwr.hinted.contains comp then s.pwr.hinted else s.pwr.hinted ++ [comp] } }
  if s1.allHinted && decide (s1.pwr.pstate = .run) then s1.enterIdle else s1

/-- A held effect is applied. -/
def applyHeld (c comp : Nat) (epoch : BitVec 32) (s : State) (h : Held) : State :=
  match h with
  | .timset v => s.setSeconds v.toNat
  | .pmode v => { s with pwr := { s.pwr with pendingMode := some (Mode.ofCode v) } }
  | .pstate v => match v with
    | 0 => s.hintIdle comp
    | 1 => s.beginEntry .sleep none
    | 2 => s.beginEntry .deep none
    | _ => s.beginEntry .off none
  | .evpost code level payload => s.raise code level (srcCaller c) comp (.raw payload)
  | .regwr off v => s.regWrite off v.toNat (2 ^ 64 - 1) true
  | .unpark => if s.mounted then s.unpark else s.dropHeld c comp epoch 0xD2
  | .cmpset n res v cluster =>
    if s.cmpsetRefused n res v then s.dropHeld c comp epoch 0xE0 else (s.setResource n res v cluster).journal

/-- The context as a commit leaves it, with its next `pc` and `epoch`: what is mirrored is what it now holds, and the
journal is free for the next interval (R278, R328). -/
def committed (k : KCtx) (pc : Nat) (epoch : BitVec 32) : KCtx :=
  let ts := k.tickets.map (fun t => { t with scratch := [] })
  { k with
    pc := pc, epoch := epoch, count := 0, retired := k.retired + 1, tickets := ts, journal := [], jpos := 0, held := []
    kept := [], unitKept := [], applied := some k.epoch
    saved := { regs := k.regs, pc := pc, flags := k.flags, scratch := k.scratch, tickets := ts, epoch := epoch
               retired := k.retired + 1 } }

/-- A commit of the reel in context `c`: its state is mirrored, and its held effects are then applied in program order, but for a
list that bears the tag of the commit last applied (R278). -/
def commitReel (s : State) (c : Nat) (k : KCtx) (pc : Nat) (epoch : BitVec 32) : State :=
  let s1 := s.setKctx c (some (committed k pc epoch))
  let s2 := { s1 with kry := { s1.kry with retired := upd 0 s1.kry.retired (c / 4) (fun n => satAdd 0xFFFFFFFF n 1) } }
  if k.applied = some k.epoch then s2 else k.held.foldl (applyHeld c k.comp k.epoch) s2

end State

/-- A commit-only control instruction; the budget does not stop the one that is `free`, a COMMIT (R323). -/
def runCommit (s : State) (name : String) (op : Nat) (free : Bool) (w : KWord) (eff : State → KCtx → State) : Out :=
  match s.kctx w.ctx with
  | none => cannot name
  | some k =>
    let s0 := s.reelIssues w.ctx
    arises (s.issues op w) name
      (match firstTrap (s.baseTraps k free (badForm (formNone op) w)) with
        | some t => s0.trapReel w.ctx t
        | none => eff s0 k)

/-- COMMIT (R278, R285, R323, R328). -/
def execCommit (w : KWord) (s : State) : Out :=
  runCommit s "COMMIT" 0x03 true w (fun s k => s.commitReel w.ctx k (k.pc + 8) (k.epoch + 1))

/-- HALT (R278, R285, R326): commits, and the reel ends in state 4 with g1 as its result. -/
def execHalt (w : KWord) (s : State) : Out :=
  runCommit s "HALT" 0x04 false w (fun s k => (s.commitReel w.ctx k k.pc k.epoch).stopReel w.ctx 4 0 0)

/-! ### Completions (R293) -/

namespace State

/-- A transfer reaches a buffer, where the buffer still stands. -/
def fillBuf (s : State) (h off : Nat) (bs : List Byte) : State :=
  match s.buf h with
  | some b => if off + bs.length ≤ b.size then s.writeBuf h off bs else s
  | none => s

/-- FREAD completes (R204, R299): the page as it was programmed, or for a raw read as it is sensed, in which `flips` names the
bits that the sense has wrong. None where the status is none of the rule's. -/
def pageRead (s : State) (o : KOp) (d b p h off : Nat) (raw : Bool) (st : Nat) (flips : List Byte) : Option State :=
  let pur := Purpose.reel o.inst o.ticket
  if (s.die d).lost then some (s.settleOp o.inst o.ticket (answer 3 0))
  else if !s.canFinish d pur then none
  else
    let t := s.finishRead d pur
    let out := fun (bs : List Byte) => some ((t.fillBuf h off bs).settleOp o.inst o.ticket (answer 0 0))
    if s.readsErased d b p then some (t.settleOp o.inst o.ticket (answer 2 0))
    else if raw then out ((xorBytes (s.pageData d b p ++ s.pageSpare d b p) flips).take 18432)
    else if st = 0 then out (s.pageData d b p)
    else if st = 1 then some (t.settleOp o.inst o.ticket (answer 1 0))
    else none

/-- FRECORD completes (R204, R205, R299): the slices as they are sensed, in which `flips` names the wrong bits, where their check
matches; else the page is decoded, and the decoded record is used, or with status 1 the decoding has failed. The record reaches
scratch unless the page is erased. -/
def recordRead (s : State) (o : KOp) (d b p a st : Nat) (flips : List Byte) : Option State :=
  let pur := Purpose.reel o.inst o.ticket
  if (s.die d).lost then some (s.settleOp o.inst o.ticket (answer 1 0))
  else if !s.canFinish d pur then none
  else
    let t := s.finishRead d pur
    let out := fun (n : Nat) (bs : List Byte) => some (t.settleOp o.inst o.ticket
      { answer n 0 with scratch := bs.mapIdx (fun i x => (a + i, x)) })
    let sensed := (xorBytes (s.pageRecord d b p) flips).take 32
    if s.readsErased d b p then some (t.settleOp o.inst o.ticket (answer 2 0))
    else if recordChecks sensed d b p then out 0 sensed
    else if st = 1 then out 1 sensed
    else if st = 0 then out (if recordChecks (s.pageRecord d b p) d b p then 0 else 1) (s.pageRecord d b p)
    else none

/-- A byte of a buffer's span is uncorrectable, or its contents are lost (R389, R405). -/
def badBytes (s : State) (h off n : Nat) : Bool :=
  s.mem.bad.any (fun x => match x with
    | .buffer h' p => decide (h' = h) && decide (p < off + n) && decide (off < p + 8) && decide (0 < n)
    | _ => false) || (match s.buf h with
    | some b => b.gone
    | none => false)

/-- HDMARD completes without a fault (R305). -/
def hostRead (s : State) (o : KOp) (len h off : Nat) (data : List Byte) : Option State :=
  if data.length = len then some ((s.fillBuf h off data).settleOp o.inst o.ticket (answer 0 0)) else none

/-- HDMAWR completes without a fault: status 1 where no intact copy of its data is left (R305, R405). -/
def hostWrite (s : State) (o : KOp) (x : DmaFrom) (addr len h off : Nat) : State :=
  if s.badBytes h off len then s.settleOp o.inst o.ticket (answer 1 0)
  else (s.emit (.reelData x.port x.pasid addr (readBytes s.bpm.bytes (bufBase h + off) len))).settleOp
    o.inst o.ticket (answer 0 0)

/-- CXSAVE and CXRESTORE complete once every earlier command of their context has (R245, R246, R255). -/
def codecDone (s : State) (o : KOp) (x h off : Nat) (restore : Bool) : Option State :=
  match s.fcd.jobs.findIdx? (fun (j : CodecJob) => decide (j.work = .reel o.inst o.ticket)) with
  | none => none
  | some i =>
    if !s.codecTurn i then none
    else
      let t := s.dropJob i
      let end_ := fun (u : State) (st : Nat) => some (u.settleOp o.inst o.ticket (answer st 0)).settleCodec
      if restore then
        if s.badBytes h off stateRecordLen then end_ t 3
        else match stateOf (readBytes s.bpm.bytes (bufBase h + off) stateRecordLen) with
          | some v => end_ (t.setCodecState x v false) 0
          | none => end_ t 3
      else end_ (t.fillBuf h off (stateRecord (s.codecCtx x).st)) 0

/-- What ends an operation under way; none where it ends with another event, or not yet. -/
def completeOp (s : State) (o : KOp) (st : Nat) (result : Word) (data : List Byte) : Option State :=
  match o.op with
  | .readPage d b p h off raw => s.pageRead o d b p h off raw st data
  | .readRecord d b p a => s.recordRead o d b p a st data
  | .readTemp _ => if result.toNat < 256 then some (s.settleOp o.inst o.ticket (answer 0 result)) else none
  | .hostRead _ _ len h off => s.hostRead o len h off data
  | .hostWrite x addr len h off => some (s.hostWrite o x addr len h off)
  | .saveCodec x h off => s.codecDone o x h off false
  | .restoreCodec x h off => s.codecDone o x h off true
  | .answered n r => some (s.settleOp o.inst o.ticket (answer n r))
  | .program _ _ _ | .erase _ _ | .give _ _ | .zone _ | .deleteSpace _ | .uncouple _ | .mount | .checkpoint | .stop => none

end State

/-- TICKET_COMPLETION (R293, R299, R303, R305): the operation under way for a ticket of the context ends. Programs, erases,
zone actions, deletes, uncouplings, mounts, checkpoints, stops and host transfers that fault end with their own events. -/
def execTicketCompletion (ctx ticket st : Nat) (result : Word) (data : List Byte) (s : State) : Out :=
  match s.kry.ops.find? (fun o => decide (o.ctx = ctx) && decide (o.ticket = ticket)) with
  | none => cannot "TICKET_COMPLETION"
  | some o =>
    if !s.awake then cannot "TICKET_COMPLETION"
    else match s.completeOp o st result data with
      | some t => .next t
      | none => cannot "TICKET_COMPLETION"

end Sys2Proof.Machine
end

