-- ==== Sys2Proof/Machine/KUnit.lean ====
section
/-! DEFINITION. The carriage, buffer and codec instructions of Krytfer (R109 to R111, R301 to R303, R388, R597). -/

namespace Sys2Proof.Machine

open State

/-! ### Carriages (R301) -/

/-- Space of COUPLE's descriptor: `mod` [1]: 1 image, 0 scratch. -/
def descSpace (w : KWord) : Nat := if w.mod.getLsbD 1 then 1 else 0

/-- Word `i` of the descriptor that COUPLE names. -/
def descWord (s : State) (k : KCtx) (w : KWord) (i : Nat) : Nat :=
  leNat (s.spaceRead k (descSpace w) ((regA k w).toNat + 8 * i) 8 0)

/-- What COUPLE's descriptor ends in (R109, R597). -/
def coupling (s : State) (k : KCtx) (w : KWord) : Coupled :=
  s.coupleCheck (descWord s k w 0) (descWord s k w 1) (descWord s k w 2) (w.mod.getLsbD 0) k.comp

/-- COUPLE (R109 to R111, R301, R597). -/
def execCouple (w : KWord) (s : State) : Out :=
  s.runJournal "COUPLE" { op := 0x80, useD := false, useA := true, useB := false, mask := 0x3 } w
    (fun k =>
      let out := s.outside k (descSpace w) (regA k w).toNat 24 0
      s.unitTraps k (some 5) [(!out && (descWord s k w 0).testBit 48 && !s.part.codec, 0x03, 0)] ++
        [(decide ((regA k w).toNat % 8 ≠ 0), 0x06, 0), (out, 0x06, 1)])
    (fun k => match coupling s k w with
      | .trap c d => [(true, c, d)]
      | _ => []) (fun _ => [])
    (fun k => match coupling s k w with
      | .at_ i => status (s.couple i (descWord s k w 0) (descWord s k w 1) (descWord s k w 2)) 0 [BitVec.ofNat 64 i]
      | .status st => status s st []
      | .trap _ _ => status s 0 [])

/-- Trap of a carriage index: the table has 32,768 entries (R101). -/
def carIndexTraps (a : Word) : List TrapIf := [(decide (32768 ≤ a.toNat), 0x08, 1)]

/-- UNCOUPLE (R40, R111, R112, R301). -/
def execUncouple (w : KWord) (s : State) : Out :=
  s.runTicket "UNCOUPLE" (formA 0x81) w (fun k => s.unitTraps k (some 5) []) (fun k => carIndexTraps (regA k w))
    (fun _ => [])
    (fun k t s =>
      let i := (regA k w).toNat
      let c := s.carriage i
      if !s.carBusy i then s.addOp w.ctx k.inst t (.answered 1 0)
      else if k.comp ≠ 0 ∧ c.comp ≠ k.comp then s.addOp w.ctx k.inst t (.answered 2 0)
      else (s.addOp w.ctx k.inst t (.uncouple i)).setCarriage i { c with draining := true })

/-- CARRD (R102 to R105, R301). -/
def execCarrd (w : KWord) (s : State) : Out :=
  s.runJournal "CARRD" { op := 0x82, useD := false, useA := true, useB := false, mask := 0x3 } w
    (fun k => s.unitTraps k (some 0) [])
    (fun k => carIndexTraps (regA k w) ++
      [(decide (k.comp ≠ 0) && decide ((s.carriage (regA k w).toNat).comp ≠ k.comp), 0x08, 5)]) (fun _ => [])
    (fun k => status s 0 [BitVec.ofNat 64 (carriageWord (s.carriage (regA k w).toNat) (w.mod.toNat % 4))])

/-! ### Buffers (R302, R388) -/

/-- The owner identifier is registered to the reel's compartment. -/
def ownsId (s : State) (k : KCtx) (o : Word) : Bool := decide ((s.owner o.toNat).map (fun x => x.comp) = some k.comp)

/-- Trap of an owner identifier that is not (R302). -/
def ownerTrap (s : State) (k : KCtx) (o : Word) : List TrapIf := [(!ownsId s k o, 0x08, 5)]

/-- A journalled buffer instruction, gated by capability 6. -/
def runBuffer (s : State) (name : String) (f : Form) (w : KWord) (traps : KCtx → List TrapIf) (eff : KCtx → Answer) : Out :=
  s.runJournal name f w (fun k => s.unitTraps k (some 6) []) traps (fun _ => []) eff

/-- BALLOC (R302, R374, R375, R383). -/
def execBalloc (w : KWord) (s : State) : Out :=
  runBuffer s "BALLOC" { op := 0x90, useD := false, useA := true, useB := true, mask := 0x1 } w
    (fun k => ownerTrap s k (regB k w))
    (fun k =>
      let domain := if w.mod.getLsbD 0 then 1 else 0
      let part := if domain = 0 then ctxRegion w.ctx else w.imm.toNat % 16
      let (st, h, t) := s.alloc (regB k w).toNat (regA k w).toNat domain part (s.comp k.comp).res.cls
      if st = 0 then status t 0 [BitVec.ofNat 64 h] else status t st [])

/-- The first share names the final owner; a further one with `mod` [0] set is refused (R388). -/
def State.shareBuf (s : State) (h o : Nat) (final : Bool) : Nat × State :=
  match s.buf h with
  | none => (0, s)
  | some b =>
    if final && b.final.isSome then (3, s)
    else
      let hs := if b.holders.any (fun x => decide (x.1 = o)) then b.holders else b.holders ++ [(o, s.now)]
      (0, s.setBuf h (some { b with
        holders := hs, final := some (b.final.getD (if final then o else b.owner)) }))

/-- Traps of BSHARE beyond those of its handle and owner (R388). -/
def shareTraps (s : State) (h o : Nat) : List TrapIf :=
  match s.buf h with
  | none => []
  | some b =>
    [(decide (s.ownerComp o ≠ s.ownerComp b.owner), 0x08, 5), (b.freeing, 0x08, 4),
     (decide (255 ≤ b.holders.length) && !b.holders.any (fun x => decide (x.1 = o)), 0x08, 7)]

/-- BSHARE (R302, R388). -/
def execBshare (w : KWord) (s : State) : Out :=
  runBuffer s "BSHARE" { op := 0x91, useD := false, useA := true, useB := true, mask := 0x1 } w
    (fun k => s.handleTraps k (regA k w) ++ ownerTrap s k (regB k w) ++ shareTraps s (regA k w).toNat (regB k w).toNat)
    (fun k =>
      let (st, t) := s.shareBuf (regA k w).toNat (regB k w).toNat (w.mod.getLsbD 0)
      status t st [])

/-- BDROP (R302, R388). -/
def execBdrop (w : KWord) (s : State) : Out :=
  runBuffer s "BDROP" (formAB 0x92) w (fun k => s.handleTraps k (regA k w) ++ ownerTrap s k (regB k w))
    (fun k =>
      let (st, t) := s.dropShare (regA k w).toNat (regB k w).toNat
      status t st [])

/-- BFREE (R302, R388). -/
def execBfree (w : KWord) (s : State) : Out :=
  runBuffer s "BFREE" (formAB 0x93) w (fun k => s.handleTraps k (regA k w) ++ ownerTrap s k (regB k w))
    (fun k =>
      let (st, t) := s.freeShare (regA k w).toNat (regB k w).toNat
      status t st [])

/-- BINFO (R302). -/
def execBinfo (w : KWord) (s : State) : Out :=
  runBuffer s "BINFO" (formA 0x94) w (fun k => s.handleTraps k (regA k w))
    (fun k => status s 0 [BitVec.ofNat 64 (match s.buf (regA k w).toNat with
      | some b => b.size
      | none => 0)])

/-! ### The codec (R241, R245, R246, R303) -/

/-- Unit C absent. -/
def codecTrap (s : State) : List TrapIf := [(!s.part.codec, 0x03, 0)]

/-- Trap of a codec context number. -/
def codecIndexTraps (a : Word) : List TrapIf := [(decide (2048 ≤ a.toNat), 0x08, 1)]

/-- A command waits for the context or works on it, or a record of it is being written. -/
def codecBusy (s : State) (c : Nat) : Bool :=
  s.fcd.jobs.any (fun j => decide (j.ctx = c)) || s.fcd.coded.any (fun x => decide (x.ctx = c))

/-- CXGRANT (R241, R303). -/
def execCxgrant (w : KWord) (s : State) : Out :=
  s.runJournal "CXGRANT" (formAB 0xA0) w (fun k => s.unitTraps k (some 7) (codecTrap s))
    (fun k => codecIndexTraps (regA k w) ++ s.compTraps (regB k w).toNat) (fun _ => [])
    (fun k =>
      let x := (regA k w).toNat
      let c := (regB k w).toNat
      let other := match (s.codecCtx x).grant with
        | some g => decide (g ≠ c)
        | none => false
      if other then status s 1 []
      else if codecBusy s x then status s 2 []
      else status (s.setCodecCtx x { s.codecCtx x with grant := some c, coded := false, st := CodecState.zero }) 0 [])

/-- CXREVOKE (R303). -/
def execCxrevoke (w : KWord) (s : State) : Out :=
  s.runJournal "CXREVOKE" (formA 0xA1) w (fun k => s.unitTraps k (some 7) (codecTrap s))
    (fun k => codecIndexTraps (regA k w)) (fun _ => [])
    (fun k => if codecBusy s (regA k w).toNat then status s 2 [] else status (s.revokeCtx (regA k w).toNat) 0 [])

/-- CXSAVE and CXRESTORE: the record's span of the buffer, the context, its owner, the handle. -/
def runCodecState (s : State) (name : String) (op : Nat) (w : KWord) (unitOp : Nat → Nat → Nat → UnitOp) : Out :=
  s.runTicket name (formAB op) w
    (fun k => s.unitTraps k (some 8) (codecTrap s) ++
      [(s.outside k 2 w.imm.toNat stateRecordLen (regB k w), 0x06, 1)])
    (fun k => codecIndexTraps (regA k w) ++
      [(decide (k.comp ≠ 0) && decide ((s.codecCtx (regA k w).toNat).grant ≠ some k.comp), 0x08, 5)] ++
      s.handleTraps k (regB k w)) (fun _ => [])
    (fun k t s =>
      let x := (regA k w).toNat
      (s.addOp w.ctx k.inst t (unitOp x (regB k w).toNat w.imm.toNat)).addJob
        { ctx := x, lane := none, near := none, work := .reel k.inst t })

/-- CXSAVE (R245, R246, R303). -/
def execCxsave (w : KWord) (s : State) : Out := runCodecState s "CXSAVE" 0xA2 w .saveCodec

/-- CXRESTORE (R245, R246, R255, R303). -/
def execCxrestore (w : KWord) (s : State) : Out := runCodecState s "CXRESTORE" 0xA3 w .restoreCodec

end Sys2Proof.Machine
end

