-- ==== Sys2Proof/Machine/Levels.lean ====
section
/-! DEFINITION. Faults of regions, callers, units and crossbars as the module detects them (R21, R26, R44 to R52). -/

namespace Sys2Proof.Machine

open State

/-- REGION_HEARTBEAT_MISS (R46, R47): region `asking` misses three bridge heartbeats. Where the power manager has heard the
other region the bridge has failed, and region A takes region B over; otherwise the asking region takes the other over. -/
def execRegionHeartbeatMiss (asking : Nat) (otherHeard : Bool) (s : State) : Out :=
  arises (s.awake && s.lvl.regionA && s.lvl.regionB) "REGION_HEARTBEAT_MISS"
    (if otherHeard then { s with lvl := { s.lvl with bridgeOk := false } }.takeOver 1 else s.takeOver (1 - asking))

/-- REGION_SELF_FAILURE (R46, R51): a region in service declares itself failed. -/
def execRegionSelfFailure (region : Nat) (s : State) : Out :=
  arises (s.awake && s.regionUp region) "REGION_SELF_FAILURE" (s.takeOver region)

/-- TAKEOVER_DRAIN_COMPLETE (R48): the commands in flight at the fault have completed; how many the survivor re-drove is
free. -/
def execTakeoverDrainComplete (s : State) : Out :=
  arises (s.lvl.takeover && s.takeoverDrained) "TAKEOVER_DRAIN_COMPLETE"
    ({ s with lvl := { s.lvl with takeover := false } }.event 0x0203 2 (srcRegion s.lvl.takeoverBy 0) 0
      [Config.freeNat s.free]).draw

/-- CALLER_WATCHDOG_EXPIRY (R50): the caller holds work and has retired nothing for 100 µs. -/
def execCallerWatchdogExpiry (caller : Nat) (s : State) : Out :=
  arises (decide (caller < 36) && s.regionUp (ctxRegion (caller * 4)) && !s.kry.failed.getLsbD caller && s.holdsWork caller)
    "CALLER_WATCHDOG_EXPIRY" (s.loseCaller caller)

/-- UNIT_FAULT (R21): the unit reports a fault of its own; cause 2 is its watchdog's to report (R601). -/
def execUnitFault (kind inst cause : Nat) (s : State) : Out :=
  if s.awake ∧ (cause < 2 ∨ cause = 3 ∧ kind = 7) then
    match s.unitFault kind inst cause with
    | some t => .next t
    | none => cannot "UNIT_FAULT"
  else cannot "UNIT_FAULT"

/-- LEVEL_WATCHDOG_EXPIRY (R21): the unit has stopped responding; its level's watchdog posts cause 2 with the unit as
source. -/
def execLevelWatchdogExpiry (kind inst : Nat) (s : State) : Out :=
  if s.awake ∧ kind ≠ 6 then
    match s.unitFault kind inst 2 with
    | some t => .next t
    | none => cannot "LEVEL_WATCHDOG_EXPIRY"
  else cannot "LEVEL_WATCHDOG_EXPIRY"

/-- CROSSBAR_ATTACHMENT_LOST (R26): the cluster stays in service through the other crossbar; with none left the cluster is
lost (R44). -/
def execCrossbarAttachmentLost (cluster region : Nat) (s : State) : Out :=
  let s1 := (s.xbarLoss cluster region).event 0x0201 3 (srcRegion region 3) 0 [cluster, region]
  arises (s.awake && s.attached cluster region && !s.lvl.clusterLost.getLsbD cluster) "CROSSBAR_ATTACHMENT_LOST"
    (if s1.attached cluster (1 - region) then s1 else s1.loseCluster cluster)

/-- POWER_MANAGER_HEARTBEAT_MISS (R47): the power manager no longer hears the region while the bridge is sound. No table
gives the event's code and level, which are free (log 35). -/
def execPowerManagerHeartbeatMiss (region : Nat) (s : State) : Out :=
  arises (s.awake && s.lvl.regionA && s.lvl.regionB && s.lvl.bridgeOk) "POWER_MANAGER_HEARTBEAT_MISS"
    (s.event (Config.freeNat s.free % 65536) (Config.freeNat (s.free + 1) % 5) srcPower 0 [region]).draw.draw

end Sys2Proof.Machine
end

