-- ==== Sys2Proof/Machine/MemInt.lean ====
section
/-! DEFINITION. Memory integrity: the scrubs, device marking, remapping, withdrawal of frames, what uncorrectable words mean
to the area that holds them, and the leak audit (R391, R396 to R406). -/

namespace Sys2Proof.Machine

namespace State

/-- The soft repairs that the option area in force holds (R401, R549). -/
def repairsKept (s : State) : Nat := min 512 (leNat (readBytes s.sec.optInForce.bytes 448 2))

/-- Records a repair found in service (R401): event 0x0A04 where 512 entries are in use. -/
def softRepair (s : State) (macro_ address source : Nat) : State :=
  let e : Word := BitVec.ofNat 64 (macro_ + address * 2 ^ 16)
  if s.mem.softPending.contains e then s
  else
    let full := decide (512 ≤ s.repairsKept + s.mem.softPending.length)
    let s1 := { s with mem := { s.mem with softPending := s.mem.softPending ++ [e] } }
    if full then s1.event 0x0A04 2 source 0 [e.toNat] else s1

/-- A buffer leaves its free store at its next free (R400). -/
def withdrawBuf (s : State) (h : Nat) : State :=
  match s.buf h with
  | some b => s.setBuf h (some { b with withdraw := true })
  | Option.none => s

/-- Staging segment index of a segment in flight, or of one acknowledged and not released. -/
def segBuffer (s : State) (f j : Nat) : Option Nat :=
  match s.car.staged.find? (fun x => decide (x.flight = f ∧ x.seg = j)) with
  | some x => some x.buffer
  | Option.none => ((s.flight f).bind (fun v => v.segs[j]?)).bind (·.buffer)

/-- The units that a staging segment holds: the zone, first unit and length. -/
def segUnits (s : State) (f j : Nat) : Option (Option Nat × Nat × Nat) :=
  match s.car.staged.find? (fun x => decide (x.flight = f ∧ x.seg = j)) with
  | some x => some (x.zone, x.start, x.len)
  | Option.none => (s.flight f).bind (fun v => (v.segs[j]?).map (fun g => (v.zone, v.start + g.off, g.len)))

/-- A bad frame is withdrawn by the area that holds it (R400); event 0x0A03. -/
def withdrawFrame (s : State) (channel frame : Nat) (a : DramArea) : State :=
  let s1 := (s.event 0x0A03 2 (src 0xB channel) 0 [channel, frame]).softRepair (2040 + channel) frame (src 0xB channel)
  match a with
  | .buffer h _ => s1.withdrawBuf h
  | .seg f j _ => match s1.segBuffer f j with
    | some i => { s1 with bpm := { s1.bpm with leaving := s1.bpm.leaving ++ [i] } }
    | Option.none => s1
  | .image _ _ | .zoneEntry _ _ | .convEntry _ _ | .freeStore _ _ _ | .front _ _ | .fixed =>
    { s1 with mem := { s1.mem with spareFrames := s1.mem.spareFrames - 1 } }

/-- Records an uncorrectable word that its consumer will meet. -/
def markBad (s : State) (w : BadWord) : State :=
  if s.mem.bad.contains w then s else { s with mem := { s.mem with bad := s.mem.bad ++ [w] } }

/-- The only copies of data of a zone that was in staging or in a front are lost: the zone is finished at its last durable
write pointer (R75, R405). -/
def loseZoneData (s : State) (z : Nat) : State :=
  let v := s.zone z
  if v.state = .empty ∨ v.state = .readOnly ∨ v.state = .offline then s
  else
    let d := s.durableEnd z
    (s.setZone z { v with acked := min v.acked d, runs := [] }).reduceZone z

/-- The only copies of conventional units are lost: their map entries read 0xFFFF_FFFE (R405). -/
def loseConvData (s : State) (us : List Nat) : State :=
  us.foldl (fun (t : State) u =>
    let t1 := t.convUnmap u
    { t1 with zns := { t1.zns with
        convMap := put 0xFFFFFFFF t1.zns.convMap u 0xFFFFFFFE
        convPend := t1.zns.convPend.filter (fun x => decide (x ≠ u)) } }) s

/-- Both copies of a staging segment are bad (R405). -/
def loseSeg (s : State) (f j : Nat) : State :=
  match s.segUnits f j with
  | some (some z, a, n) =>
    if (List.range n).all (fun i => s.unitProgrammed z (a + i)) then s else s.loseZoneData z
  | some (Option.none, a, n) =>
    let s1 := match s.flight f with
      | some v => s.failTransfer v j
      | Option.none => s
    s1.loseConvData (((List.range n).map (fun i => a + i)).filter (fun u =>
      s.zns.convPend.contains u && !s.inLanding (convPage (u / 4)) (u % 4)))
  | Option.none => s

/-- A table entry is bad in both copies: it is rebuilt from flash, with the warning of reliability degraded (R405): table
and index as table reads number them. -/
def rebuildEntry (s : State) (table index : Nat) : State :=
  (({ s with mem := { s.mem with tableWarning := true } }.event 0x0A05 4 (srcRegion (if table = 0 then zoneRegion index else 0)
    (if table = 0 then 1 else 2)) 0 [table, index])).warning 2 0

/-- The store that the scrub names by area, part and pool, as `BPM_POOL_SEL` does. -/
def storeOf (area part pool : Nat) : Option PoolRef :=
  match area with
  | 0 => some .staging
  | 1 => if part < 2 ∧ pool < 8 then some (.general part pool) else Option.none
  | 2 => if part < 16 ∧ pool < 8 then some (.sram part pool) else Option.none
  | _ => Option.none

/-- What an uncorrectable DRAM word means to its area; one with a sound twin or mirror is rewritten from it (R404, R405). -/
def dramLost (s : State) (a : DramArea) : State :=
  match a with
  | .image i off => s.markBad (.image i off)
  | .buffer h off => s.markBad (.buffer h off)
  | .seg f j both => if both then s.loseSeg f j else s
  | .zoneEntry z both => if both then s.rebuildEntry 0 z else s
  | .convEntry u both => if both then s.rebuildEntry 2 u else s
  | .freeStore area part pool => match storeOf area part pool with
    | some r => s.discardEntry r
    | Option.none => s
  | .front z both => if both then s.loseZoneData z else s
  | .fixed => s

/-- One hour in ns. -/
def hourNs : Nat := 3600000000000

/-- A corrected DRAM codeword: device marking and frame counts (R398, R400). -/
def dramCorrected (s : State) (channel device frame : Nat) (a : DramArea) : State :=
  let s1 := { s with mem := { s.mem with dramCe := satAdd 0xFFFF s.mem.dramCe 1 } }
  if s1.mem.marked[channel]? = some device then s1
  else
    let key := channel * 16 + device
    let runs := s1.mem.deviceRuns.filter (fun e => decide (s.now < e.2 + hourNs)) ++ [(key, s.now)]
    let f := channel * 2 ^ 32 + frame
    let s2 : State := { s1 with mem := { s1.mem with deviceRuns := runs, frameRuns := upd 0 s1.mem.frameRuns f (· + 1) } }
    let s3 :=
      if decide (1024 < (runs.filter (fun e => decide (e.1 = key))).length) && decide (s2.mem.marked[channel]? = some 15) then
        ({ s2 with mem := { s2.mem with marked := modAt s2.mem.marked channel (fun _ => device) } }).event 0x0A02 3
          (src 0xB channel) 0 [channel, device]
      else s2
    if look 0 s3.mem.frameRuns f = 3 then s3.withdrawFrame channel frame a else s3

/-! ### On-die memories -/

/-- Source of an on-die memory, by what it holds (log 36). -/
def sramSource (a : SramArea) : Nat :=
  match a with
  | .scratch c _ => srcCaller c
  | .unit kind inst => src kind inst
  | .readBuffer _ => src 0 8
  | .poolBuffer _ _ => src 0 8
  | .other => src 0 8

/-- The remap table of a macro is full: the buffer is withdrawn, or the owning unit reports a fault (R399). -/
def macroFull (s : State) (a : SramArea) : State :=
  match a with
  | .poolBuffer h _ => s.withdrawBuf h
  | .readBuffer _ => s
  | .scratch c _ => (s.unitFault 6 (c / 4) 0).getD s
  | .unit kind inst => (s.unitFault kind inst 0).getD s
  | .other => ((s.unitFault 0 (Config.freeNat s.free % 12) 0).getD s).draw

/-- A word of a macro is remapped (R399); event 0x0A03. -/
def remapWord (s : State) (macro_ word : Nat) (a : SramArea) : State :=
  if look 0 s.mem.remap macro_ < 16 then
    (({ s with mem := { s.mem with remap := upd 0 s.mem.remap macro_ (· + 1) } }).event 0x0A03 2 (sramSource a) 0
      [macro_, word]).softRepair macro_ word (sramSource a)
  else s.macroFull a

/-- A read whose data lay in a bad read buffer is driven again from its sense (R117, R405). -/
def redrive (s : State) (f : Nat) : State :=
  match s.flight f with
  | Option.none => s
  | some v => match v.senses.findIdx? (·.done) with
    | Option.none => s
    | some j => match v.senses[j]? with
      | Option.none => s
      | some g => (s.setSense f j (fun x => { x with done := false, tier := 0, attempt := 0, best := Option.none })).enqueue
          g.die (senseEntry v g.block g.page (.hostRead f j))

/-- What an uncorrectable on-die word means to its consumer (R405). -/
def sramLost (s : State) (a : SramArea) : State :=
  match a with
  | .scratch c off => s.markBad (.scratch c off)
  | .poolBuffer h off => s.markBad (.buffer h off)
  | .readBuffer f => s.redrive f
  | .unit _ _ => s
  | .other => s

/-- The scrubs run: in Run and Idle (R404). -/
def scrubs (s : State) : Bool := decide (s.pwr.pstate = .run) || decide (s.pwr.pstate = .idle)

/-- What the scrub names exists. -/
def dramAreaOk (s : State) (a : DramArea) : Bool :=
  match a with
  | .image i _ => (s.kinst i).isSome
  | .buffer h _ => match s.buf h with
    | some b => decide (b.domain = 0)
    | Option.none => false
  | .seg f j _ => (s.segBuffer f j).isSome
  | .zoneEntry z _ => s.zoneExists z
  | .convEntry _ _ => s.convSpace.isSome
  | .freeStore area part pool => decide (area < 2) && (storeOf area part pool).isSome
  | .front z _ => s.zoneExists z && (s.zone z).active
  | .fixed => true

/-- What the scrub names exists. -/
def sramAreaOk (s : State) (a : SramArea) : Bool :=
  match a with
  | .scratch c _ => (s.kctx c).isSome
  | .readBuffer f => match s.flight f with
    | some v => v.senses.any (·.done)
    | Option.none => false
  | .poolBuffer h _ => match s.buf h with
    | some b => decide (b.domain = 1)
    | Option.none => false
  | .unit _ _ => true
  | .other => true

end State

open State

/-- DRAM_SCRUB_STEP (R398, R400, R404, R405): a word that is sound, corrected or uncorrectable, and the area that holds it. -/
def execDramScrubStep (r : DramScrub) (s : State) : Out :=
  if s.scrubs ∧ s.mem.dramH ≠ 0 then
    match r with
    | .clean pct passDone =>
      .next (if passDone then { s with mem := { s.mem with dramPct := 0, passes := s.mem.passes + 1, frameRuns := [] } }
        else { s with mem := { s.mem with dramPct := pct } })
    | .corrected channel device frame a =>
      arises (decide (channel < 8 ∧ device < 10) && s.dramAreaOk a) "DRAM_SCRUB_STEP" (s.dramCorrected channel device frame a)
    | .uncorrectable channel frame a =>
      arises (decide (channel < 8) && s.dramAreaOk a) "DRAM_SCRUB_STEP"
        ((({ s with mem := { s.mem with dramUe := satAdd 0xFF s.mem.dramUe 1 } }).withdrawFrame channel frame a).dramLost a)
  else cannot "DRAM_SCRUB_STEP"

/-- SRAM_SCRUB_STEP (R399, R404, R405): a word that is sound, corrected or uncorrectable, and what it holds. -/
def execSramScrubStep (r : SramScrub) (s : State) : Out :=
  if s.scrubs ∧ s.mem.sramMin ≠ 0 then
    match r with
    | .clean pct =>
      .next { s with mem := { s.mem with
        sramPct := pct, corrections := if pct < s.mem.sramPct then [] else s.mem.corrections } }
    | .corrected macro_ word a =>
      let s1 := { s with mem := { s.mem with sramCe := satAdd 0xFFFF s.mem.sramCe 1
                                             corrections := upd 0 s.mem.corrections (macro_ * 2 ^ 32 + word) (· + 1) } }
      arises (decide (macro_ < 2040) && s.sramAreaOk a) "SRAM_SCRUB_STEP"
        (if look 0 s1.mem.corrections (macro_ * 2 ^ 32 + word) = 3 then s1.remapWord macro_ word a else s1)
    | .uncorrectable macro_ word a =>
      arises (decide (macro_ < 2040) && s.sramAreaOk a) "SRAM_SCRUB_STEP"
        ((({ s with mem := { s.mem with sramUe := satAdd 0xFF s.mem.sramUe 1 } }).remapWord macro_ word a).sramLost a)
  else cannot "SRAM_SCRUB_STEP"

/-- BUFFER_LEAK (R391): the owner's oldest age has reached `leak_ms`. -/
def execBufferLeak (owner : Nat) (s : State) : Out :=
  match s.owner owner with
  | some w =>
    arises (decide (s.bpm.leakMs ≠ 0) && decide (0 < s.ownerHeld owner) && decide (s.bpm.leakMs ≤ s.ownerAge owner) && !w.leak &&
        s.awake) "BUFFER_LEAK"
      ((s.setOwner owner (some { w with leak := true })).event 0x0A01 2 (srcRegion 0 4) w.comp
        [owner, s.ownerHeld owner, s.ownerAge owner])
  | Option.none => cannot "BUFFER_LEAK"

end Sys2Proof.Machine
end

