-- ==== Sys2Proof/Machine/MgmtOps.lean ====
section
/-! DEFINITION. What the management endpoint answers (R437 to R439); the layouts and status codes are those of NVMe-MI, PRESUMED
(log 20, 21). -/

namespace Sys2Proof.Machine

namespace State

/-- NVMe-MI status codes: Invalid Command Opcode and Invalid Parameter (log 21). -/
def miBadOpcode : Nat := 0x03
def miBadParameter : Nat := 0x04

/-- Composite temperature as a signed byte in °C, from −60 to 127. -/
def miTemp (s : State) : Nat :=
  let k := (s.hostTemps[0]?).getD 0
  if 273 ≤ k then min 127 (k - 273) else 256 - min 60 (273 - k)

/-- Critical warnings, each bit inverted. -/
def miWarnings (s : State) : Nat := 255 - s.criticalWarning % 256

/-- The block that the Basic Management Command returns. -/
def basicBlock (s : State) : List Byte :=
  structBytes 0x201 [] 8 [(0, leBytes 1 6), (2, leBytes 1 s.miWarnings ++ leBytes 1 s.miTemp ++ leBytes 1 s.percentUsed)]

/-- The NVM subsystem health status. -/
def healthBlock (s : State) : List Byte := structBytes 0x202 [] 8 [(1, leBytes 1 s.miWarnings ++ leBytes 1 s.miTemp ++ leBytes 1 s.percentUsed)]

/-- The 256 bytes of the VPD: part number, serial number, date of manufacture, in IPMI FRU format. -/
def vpd (s : State) : List Byte := structBytes 0x203 [s.part.variant.code, s.part.serial.toNat] 256 []

/-- A tunnelled admin command stands for one of the steward controller of port 0. -/
def tunnelled (nsid : Nat) : HostCmd := { port := 0, comp := 0, qid := 0, cid := 0, nsid := nsid, fused := false, rsvd := false }

/-- The part of a data structure that one response carries. -/
def slice (bytes : List Byte) (off len : Nat) : List Byte := (bytes.drop off).take (min len 4096)

/-- Answers one request (R438). -/
def answerMi (s : State) (r : MiReq) : State :=
  match r with
  | .poll => s.emit (.mi 0 s.healthBlock)
  | .vpd off len => if 256 < off + len then s.emit (.mi miBadParameter []) else s.emit (.mi 0 ((s.vpd.drop off).take len))
  | .identify cns csi cntid nsid off len => match s.identifyData (tunnelled nsid) cns csi cntid with
    | .ok bytes => s.emit (.mi 0 (slice bytes off len))
    | .error st => s.emit (.mi st.code [])
  | .log lid nsid off len => match s.logData (tunnelled nsid) lid with
    | .ok (bytes, t) => t.emit (.mi 0 (slice bytes off len))
    | .error st => s.emit (.mi st.code [])
  | .other _ => s.emit (.mi miBadOpcode [])

/-- The requests accepted while the module slept are answered after the wake, oldest first (R439). -/
def answerWaiting (s : State) : State :=
  s.svc.requests.foldl (fun (t : State) r => t.answerMi r) { s with svc := { s.svc with requests := [] } }

end State

end Sys2Proof.Machine
end

