-- ==== Sys2Proof/Machine/Mgmt.lean ====
section
/-! DEFINITION. The management bus (R437 to R439). -/

namespace Sys2Proof.Machine

namespace State

/-- The management pins are driven: from step 9 of R197 on, but not in Off. -/
def mgmtAlive (s : State) : Bool :=
  match s.pwr.pstate with
  | .run | .idle | .entering _ _ | .waking _ _ => true
  | .asleep t => decide (t ≠ .off)
  | .dark | .starting | .flushing _ => false

/-- An MCTP request: answered at once while the module is awake; in Sleep and Deep Sleep it wakes the module, and the answer
follows the wake (R439, R482). -/
def miRequest (s : State) (name : String) (r : MiReq) : Out :=
  match s.wakeFired 0x100 with
  | some t =>
    if s.awake then .next (t.answerMi r)
    else arises s.mgmtAlive name { t with svc := { t.svc with requests := t.svc.requests ++ [r] } }
  | none => cannot name

end State

/-! ### Commands -/

/-- I3C_BROADCAST (R437): the interface runs as an I3C target until the next cold reset; `daa`: ENTDAA assigns a dynamic
address. -/
def execI3cBroadcast (daa : Option Nat) (s : State) : Out :=
  arises s.mgmtAlive "I3C_BROADCAST"
    { s with svc := { s.svc with i3c := true, i3cAddr := match daa with
      | some a => some (a % 128)
      | none => s.svc.i3cAddr } }

/-- BASIC_MANAGEMENT_COMMAND (R437 to R439), SMBus only: not acknowledged until the module is awake. -/
def execBasicManagementCommand (s : State) : Out :=
  arises (s.mgmtAlive && !s.svc.i3c) "BASIC_MANAGEMENT_COMMAND" (if s.awake then s.emit (.mi 0 s.basicBlock) else s)

/-- SUBSYSTEM_HEALTH_STATUS_POLL (R438, R439). -/
def execSubsystemHealthStatusPoll (s : State) : Out := s.miRequest "SUBSYSTEM_HEALTH_STATUS_POLL" .poll

/-- VPD_READ (R438, R439). -/
def execVpdRead (off len : Nat) (s : State) : Out := s.miRequest "VPD_READ" (.vpd off len)

/-- TUNNELLED_IDENTIFY (R438, R439). -/
def execTunnelledIdentify (cns csi cntid nsid off len : Nat) (s : State) : Out :=
  s.miRequest "TUNNELLED_IDENTIFY" (.identify cns csi cntid nsid off len)

/-- TUNNELLED_GET_LOG_PAGE (R438, R439). -/
def execTunnelledGetLogPage (lid nsid off len : Nat) (s : State) : Out :=
  s.miRequest "TUNNELLED_GET_LOG_PAGE" (.log lid nsid off len)

/-- MI_INVALID_COMMAND (R438, R439): VPD Write and every request that the endpoint does not serve. -/
def execMiInvalidCommand (opcode : Nat) (s : State) : Out := s.miRequest "MI_INVALID_COMMAND" (.other opcode)

end Sys2Proof.Machine
end

