-- ==== Sys2Proof/Machine/Pins.lean ====
section
/-! DEFINITION. The straps, the cable-present inputs and the debug connector (R446, R449, R450, R460 to R462). -/

namespace Sys2Proof.Machine

namespace State

/-- The module has supply and has passed step `n` of R197. -/
def pastStep (s : State) (n : Nat) : Bool :=
  match s.pwr.pstate with
  | .dark | .asleep .off => false
  | _ => decide (n ≤ s.boot.step)

/-- The cable of a port is mated or removed (R446): a removed cable takes the link down, a mated one lets it train. -/
def cableChange (s : State) (p : Nat) (mated : Bool) : State :=
  let s1 := { s with pins := { s.pins with cable := modAt s.pins.cable p (fun _ => mated) } }
  let s2 := if !mated && (s1.cplPort p).up then s1.linkDown p 2 else s1
  (s2.setCplPort p { s2.cplPort p with state := if mated then 1 else 0 }).event 0x0B03 0 srcCoupler 0 [p, if mated then 1 else 0]

/-- An instruction of the test access port: the port works from step 2 on, at every protection level, and reaches no
register, no memory and no flash (R449). -/
def jtag (s : State) (name : String) (i : JtagIr) : Out := arises (s.pastStep 2) name { s with svc := { s.svc with ir := i } }

end State

/-! ### Pins -/

/-- MOD_ID_CHANGE (R460, R461): the straps' live value; where it differs from the sampled one, `src_id_changed` is set and
event 0x0B00 gives both. -/
def execModIdChange (live : Nat) (s : State) : Out :=
  let s1 := { s with pins := { s.pins with modIdLive := live % 8 } }
  arises (s.pastStep 4) "MOD_ID_CHANGE"
    (if live % 8 = s.pins.modIdStrap then s1
     else ({ s1 with pins := { s1.pins with srcIdChanged := true } }).event 0x0B00 2 srcHost 0 [s.pins.modIdStrap, live % 8])

/-- CABLE_PRESENT_CHANGE (R11, R446): a debounced change; without the P unit the inputs are ignored. -/
def execCablePresentChange (port : Nat) (mated : Bool) (s : State) : Out :=
  arises (s.awake && decide (port < 4) && (s.mated port != mated)) "CABLE_PRESENT_CHANGE"
    (if s.part.coupler then s.cableChange port mated else s)

/-! ### Debug connector -/

/-- PEEK (R450, R567): at Open the answer is the register, or a question mark for a bad offset; above Open the receiver is
ignored. No RC field is cleared. -/
def execPeek (off : Nat) (s : State) : Out :=
  arises s.awake "PEEK"
    (if !s.isOpen then s
     else if off % 8 ≠ 0 ∨ 0x4000000 ≤ off then s.emit .uartQuestion
     else (s.emit (.uartPeek (BitVec.ofNat 64 (s.regRead off)))).draw)

/-- BYPASS (R449). -/
def execBypass (s : State) : Out := s.jtag "BYPASS" .bypass

/-- IDCODE (R449). -/
def execIdcode (s : State) : Out := s.jtag "IDCODE" .idcode

/-- SAMPLE_PRELOAD (R449). -/
def execSamplePreload (s : State) : Out := s.jtag "SAMPLE_PRELOAD" .sample

/-- EXTEST (R449). -/
def execExtest (s : State) : Out := s.jtag "EXTEST" .extest

/-- CLAMP (R449). -/
def execClamp (s : State) : Out := s.jtag "CLAMP" .clamp

/-- HIGHZ (R449). -/
def execHighz (s : State) : Out := s.jtag "HIGHZ" .highz

end Sys2Proof.Machine
end

