-- ==== Sys2Proof/Machine/Protect.lean ====
section
/-! DEFINITION. The commands of the security block: the levels, the option area, the key slots and Sanitize (R543 to R564). -/

namespace Sys2Proof.Machine

/-- RAISE_TO_CLOSED (R545, R548); its confirmation field is not read. -/
def execRaiseToClosed (_confirm : BitVec 16) (s : State) : Out := arises s.awake "RAISE_TO_CLOSED" (s.startClock 3).raiseClosed

/-- RAISE_TO_SEALED (R546, R548). -/
def execRaiseToSealed (confirm : BitVec 16) (s : State) : Out := arises s.awake "RAISE_TO_SEALED" ((s.startClock 3).raiseSealed confirm)

/-- LOWER_TO_OPEN (R547, R548). -/
def execLowerToOpen (confirm : BitVec 16) (s : State) : Out := arises s.awake "LOWER_TO_OPEN" ((s.startClock 3).lowerOpen confirm)

/-- OPTION_COMMIT (R200, R550 to R552). -/
def execOptionCommit (merge : Bool) (report : CommitReport) (s : State) : Out :=
  arises s.awake "OPTION_COMMIT" ((s.startClocks 0x108).optionCommit merge report.readBack report.failed)

/-- OPTION_RELOAD (R552). -/
def execOptionReload (s : State) : Out := arises s.awake "OPTION_RELOAD" (s.startClocks 0x108).optionReload

/-- KEY_QUERY (R555, R556). -/
def execKeyQuery (slot : Nat) (s : State) : Out := arises s.awake "KEY_QUERY" ((s.startClock 3).keyQuery slot)

/-- KEY_GENERATE (R555, R556). -/
def execKeyGenerate (slot : Nat) (s : State) : Out := arises s.awake "KEY_GENERATE" ((s.startClock 3).keyGenerate slot)

/-- KEY_INSTALL (R555, R556). -/
def execKeyInstall (slot : Nat) (s : State) : Out := arises s.awake "KEY_INSTALL" ((s.startClock 3).keyInstall slot)

/-- KEY_INSTALL_WRAPPED (R555, R556, R559). -/
def execKeyInstallWrapped (slot : Nat) (s : State) : Out := arises s.awake "KEY_INSTALL_WRAPPED" ((s.startClock 3).keyInstallWrapped slot)

/-- KEY_ERASE (R555, R556, R558). -/
def execKeyErase (slot : Nat) (s : State) : Out := arises s.awake "KEY_ERASE" ((s.startClock 3).keyErase slot)

/-- The row of Sanitize (R417, R561): served in the Parked state, by a steward controller, not while one runs. -/
def sanitizeRow : State.AdminRow := { parked := true, sanitize := false, compartment := false, changes := true }

/-- SANITIZE_BLOCK_ERASE (R560, R561): the command completes as the sanitize begins. -/
def execSanitizeBlockErase (h : HostCmd) (ause : Bool) (s : State) : Out :=
  admin "SANITIZE_BLOCK_ERASE" h sanitizeRow s (fun t => (t.beginSanitize .block ause).done h 0)

/-- SANITIZE_CRYPTO_ERASE (R560, R561). -/
def execSanitizeCryptoErase (h : HostCmd) (ause : Bool) (s : State) : Out :=
  admin "SANITIZE_CRYPTO_ERASE" h sanitizeRow s (fun t => (t.beginSanitize .crypto ause).done h 0)

/-- SANITIZE_OVERWRITE (R560): Invalid Field in Command. -/
def execSanitizeOverwrite (h : HostCmd) (s : State) : Out :=
  admin "SANITIZE_OVERWRITE" h sanitizeRow s (fun t => t.fail h .invalidField)

/-- SANITIZE_EXIT_FAILURE_MODE (R560, R562): clears a failed sanitize that was started with AUSE 1. -/
def execSanitizeExitFailureMode (h : HostCmd) (s : State) : Out :=
  admin "SANITIZE_EXIT_FAILURE_MODE" h sanitizeRow s (fun t =>
    if !t.sec.sanFailed then t.done h 0
    else if t.sec.sanAuse then ({ t with sec := { t.sec with sanFailed := false } }).done h 0
    else t.fail h .sanitizeFailed)

/-- SANITIZE_COMPLETE (R547, R560 to R562), once the resets that it began are complete: `written`, some journal or checkpoint
replica could be written. -/
def execSanitizeComplete (written : Bool) (elapsedMs : Nat) (s : State) : Out :=
  let quiet := s.cmp.table.all (fun e => e.2.reset.isNone) && s.car.flights.isEmpty
  let t := s.advanceTo (s.sec.sanStart + elapsedMs * 1000000)
  arises (s.awake && s.sec.sanActive && quiet) "SANITIZE_COMPLETE"
    (if written then t.endSanitize elapsedMs else t.sanitizeFails)

end Sys2Proof.Machine
end

