-- ==== Sys2Proof/Machine/Regs.lean ====
section
/-! DEFINITION. Accesses of the host to the registers, and the register operations that have rows of their own (R89, R406,
R566). -/

namespace Sys2Proof.Machine

namespace State

/-- Bytes of a BAR (R409); 0 for a BAR the function does not have. -/
def barBytes (bar : Nat) : Nat :=
  match bar with
  | 0 => 0x40000
  | 2 => 0x4000000
  | 4 => 0x4000000
  | _ => 0

/-- A naturally aligned access of 4 or 8 bytes inside a BAR (R566). -/
def goodAccess (bar off bytes : Nat) : Bool :=
  (decide (bytes = 4) || decide (bytes = 8)) && decide (off % bytes = 0) && decide (off + bytes ≤ barBytes bar)

/-- The bits of the 64-bit register that an access reaches. -/
def accessMask (off bytes : Nat) : Nat :=
  if bytes = 8 then 2 ^ 64 - 1 else if off % 8 = 0 then 0xFFFFFFFF else 0xFFFFFFFF00000000

/-- What a read of a BAR returns: the register, or the half it reaches. -/
def accessRead (s : State) (port bar off bytes : Nat) : Nat :=
  let a := off - off % 8
  let w := match bar with
    | 0 => s.barZero port a
    | 2 => s.regRead a
    | _ => s.barFour port a
  if bytes = 8 then w else bits w (off % 8 * 8) 32

/-- What a read of a BAR clears. -/
def accessClear (s : State) (port bar off bytes : Nat) : State :=
  let a := off - off % 8
  let mask := accessMask off bytes
  match bar with
  | 2 => s.regClear a mask
  | 4 => if s.windowOpen port (a / 0x10000) then s.windowClear (a / 0x10000) (a % 0x10000) mask else s
  | _ => s

/-- What a write of a BAR does. -/
def accessWrite (s : State) (port bar off bytes : Nat) (value : Word) : State :=
  let a := off - off % 8
  let mask := accessMask off bytes
  let v := if bytes = 8 then value.toNat else value.toNat % 2 ^ 32 * 2 ^ (off % 8 * 8)
  match bar with
  | 0 => s.barZeroWrite port a v mask
  | 2 => s.regWrite a v mask false
  | _ => s.barFourWrite port a v mask

end State

/-! ### Commands -/

/-- REGISTER_READ_CLEAR (R566, R567): a register read, which clears the RC fields it covers. -/
def execRegisterReadClear (port bar off bytes : Nat) (s : State) : Out :=
  arises (s.reachable port && State.goodAccess bar off bytes) "REGISTER_READ_CLEAR"
    (((s.accessClear port bar off bytes).emit
      (.mmio port bar off (BitVec.ofNat 64 (s.accessRead port bar off bytes)))).draw)

/-- REGISTER_WRITE (R566 to R568). -/
def execRegisterWrite (port bar off bytes : Nat) (value : Word) (s : State) : Out :=
  arises (s.reachable port && State.goodAccess bar off bytes) "REGISTER_WRITE" (s.accessWrite port bar off bytes value)

/-- MISALIGNED_ACCESS (R410, R566): a write is dropped; a read completes with Unsupported Request and is logged. -/
def execMisalignedAccess (port : Nat) (isRead : Bool) (_bytes : Nat) (s : State) : Out :=
  let v := s.port port
  arises (s.reachable port) "MISALIGNED_ACCESS"
    (if isRead then (s.setPort port { v with aerLogged := v.aerLogged + 1 }).emit (.unsupported port) else s)

/-- ZONE_QUERY (R89, R90): a write of `ZNE_ZONE_CMD`. -/
def execZoneQuery (zone : Nat) (s : State) : Out := arises s.awake "ZONE_QUERY" (s.queryZone (zone % 2 ^ 24))

/-- DMA_CHANNEL_RELEASE (R406): writing 1 to `frozen`, which releases nothing where no channel is halted. -/
def execDmaChannelRelease (s : State) : Out :=
  arises s.awake "DMA_CHANNEL_RELEASE" s.releaseChannel

end Sys2Proof.Machine
end

