-- ==== Sys2Proof/Machine/Sleep.lean ====
section
/-! DEFINITION. Idle, the entries into Sleep, Deep Sleep and Off, the wake sources, the wake order and the closing of
domains (R472 to R490). -/

namespace Sys2Proof.Machine

namespace State

/-- The next step of an entry (R476, R481); none where its condition does not hold. -/
def entryStep (s : State) (t : SleepTarget) (n : Nat) : Option State :=
  let at_ := fun (u : State) => { u with pwr := { u.pwr with pstate := .entering t (n + 1) } }
  match n with
  | 1 => some (at_ s)
  | 2 => if s.drained then some (at_ (s.secureStep t)) else none
  | 3 => if decide (s.dirtyUnits = 0) && s.diesSettled && !s.mnt.stopping then some (at_ s.announceStep) else none
  | 4 => some (at_ s)
  | 5 => some (s.enterSleep t)
  | _ => none

/-- Some port is still in L1.2. -/
def inL12 (s : State) : Bool := s.hif.port0.l12 || s.hif.port1.l12

/-- The ready signal of a wake step (R484): at `LOGIC_RDY` the module resumes, and the flush follows where power loss or
Trip came while it slept (R480, R507). -/
def wakeStep (s : State) (t : SleepTarget) (n elapsedUs : Nat) : State :=
  let s0 := s.advanceTo (s.pwr.wakeAt + elapsedUs * 1000)
  if n < 4 then { s0 with pwr := { s0.pwr with pstate := .waking t (n + 1) } }
  else if n = 4 then
    let r := (s0.wakeResume t elapsedUs).answerWaiting
    if s.pwr.lossPending then r.cut
    else if r.inL12 then r
    else { r with pwr := { r.pwr with pstate := .run } }
  else
    { s0 with
      pwr := { s0.pwr with pstate := .run }
      hif := { s0.hif with port0 := { s0.hif.port0 with l12 := false }, port1 := { s0.hif.port1 with l12 := false } } }

end State

/-! ### Commands -/

/-- IDLE_TIMER_EXPIRY (R474, R475): `idle_us` have passed without activity. -/
def execIdleTimerExpiry (s : State) : Out :=
  arises (decide (s.pwr.pstate = .run) && decide (s.pwr.idleUs ≠ 0)) "IDLE_TIMER_EXPIRY"
    ((s.advanceTo (s.pwr.lastActivity + s.pwr.idleUs * 1000)).enterIdle)

/-- SLEEP_ENTRY_STEP (R476, R478, R481, R489): the condition of the entry's step is met. -/
def execSleepEntryStep (s : State) : Out :=
  match s.pwr.pstate with
  | .entering t n => match s.entryStep t n with
    | some u => .next u
    | none => cannot "SLEEP_ENTRY_STEP"
  | _ => cannot "SLEEP_ENTRY_STEP"

/-- WAKE_SOURCE_FIRED (R477, R478, R481 to R483, R488). -/
def execWakeSourceFired (mask : BitVec 9) (s : State) : Out :=
  match s.wakeFired mask with
  | some t => .next t
  | none => cannot "WAKE_SOURCE_FIRED"

/-- WAKE_STEP (R484, R485, R487). -/
def execWakeStep (elapsedUs : Nat) (s : State) : Out :=
  match s.pwr.pstate with
  | .waking t n => arises (!s.pins.wakeStuck) "WAKE_STEP" (s.wakeStep t n elapsedUs)
  | _ => cannot "WAKE_STEP"

/-- WAKE_STEP_TIMEOUT (R484): the module holds at the step and lowers `MOD_OK`. -/
def execWakeStepTimeout (s : State) : Out :=
  match s.pwr.pstate with
  | .waking _ _ => .next { s with pins := { s.pins with wakeStuck := true } }
  | _ => cannot "WAKE_STEP_TIMEOUT"

/-- WAKE_TIMER_EXPIRY (R482, R483, R486): `TIM_NOW` reaches `PWR_WAKE_TIMER`. -/
def execWakeTimerExpiry (s : State) : Out :=
  if s.pwr.wakeTimer = State.maxNow ∨ s.pwr.pstate = .asleep .off then cannot "WAKE_TIMER_EXPIRY"
  else match (s.advanceTo s.pwr.wakeTimer).wakeFired 0x20 with
    | some t => .next (t.disarm 0x20)
    | none => cannot "WAKE_TIMER_EXPIRY"

/-- A reel's transfer that is still queued or running in a domain: a read of the channel's dies, or a transfer of a host DMA group
(R33, R489, log 194); programs and erases are never squashed. -/
def squashes (d : Nat) (o : KOp) : Bool :=
  match o.op with
  | .readPage die .. | .readRecord die .. | .readTemp die => decide (dieChannel die + 16 = d)
  | .hostRead .. | .hostWrite .. => decide (148 ≤ d) && decide (d < 164)
  | _ => false

/-- DOMAIN_CLOSE_FORCED (R489, R490): what is still queued or running in the domain is squashed; a host command completes
with 0x85, a reel's ticket ends with 0x785, and event 0x0C05 gives the count. -/
def execDomainCloseForced (domain : Nat) (victims : List HostCmd) (s : State) : Out :=
  let hit := s.car.flights.filter (fun v => victims.contains v.cmd)
  let ops := s.kry.ops.filter (squashes domain)
  let n := hit.length + ops.length
  let t := hit.foldl (fun (t : State) v => match t.flight v.id with
    | some w => t.killFlight w (.vendor 0x85)
    | none => t) (ops.foldl (fun (t : State) o => t.settleOp o.inst o.ticket (State.answer 0x785 0)) s)
  let t1 := { t with plog := { t.plog with
    closeDomain := domain, closing := false, forced := true, squashed := satAdd 0xFFFFFFFF t.plog.squashed n } }
  match s.pwr.pstate with
  | .entering _ 2 => arises (decide (16 ≤ domain) && decide (domain < 172)) "DOMAIN_CLOSE_FORCED"
      (t1.event 0x0C05 2 srcPower 0 [domain, n])
  | _ => cannot "DOMAIN_CLOSE_FORCED"

end Sys2Proof.Machine
end

