-- ==== Sys2Proof/Machine/Dispatch.lean ====
section
/-! DEFINITION. One arm per command: the meaning that the family files give it. -/

namespace Sys2Proof.Machine

/-- The effect of a command on the module, but for the queue of waiting commands. -/
def exec (i : Instr) (s : State) : Host.Outcome State Fault Refusal :=
  match i with
  | .powerOn vIn pwrEn restored => Sys2Proof.Machine.execPowerOn vIn pwrEn restored s
  | .bootStepAdvance b => Sys2Proof.Machine.execBootStepAdvance b s
  | .bootStepStall => Sys2Proof.Machine.execBootStepStall s
  | .perstRelease port => Sys2Proof.Machine.execPerstRelease port s
  | .portLinkUp port rate width => Sys2Proof.Machine.execPortLinkUp port rate width s
  | .portLost port cause => Sys2Proof.Machine.execPortLost port cause s
  | .powerLossDeclared cause => Sys2Proof.Machine.execPowerLossDeclared cause s
  | .flushStep => Sys2Proof.Machine.execFlushStep s
  | .bankLowStop => Sys2Proof.Machine.execBankLowStop s
  | .inputRestored => Sys2Proof.Machine.execInputRestored s
  | .inputRangeChange vIn => Sys2Proof.Machine.execInputRangeChange vIn s
  | .bankMeasurement cap esr => Sys2Proof.Machine.execBankMeasurement cap esr s
  | .measStart => Sys2Proof.Machine.execMeasStart s
  | .creditWindowBoundary pAvg iIn => Sys2Proof.Machine.execCreditWindowBoundary pAvg iIn s
  | .corePhaseCheck failed => Sys2Proof.Machine.execCorePhaseCheck failed s
  | .clockIdleStop domain => Sys2Proof.Machine.execClockIdleStop domain s
  | .idleTimerExpiry => Sys2Proof.Machine.execIdleTimerExpiry s
  | .sleepEntryStep => Sys2Proof.Machine.execSleepEntryStep s
  | .wakeSourceFired mask => Sys2Proof.Machine.execWakeSourceFired mask s
  | .wakeStep elapsedUs => Sys2Proof.Machine.execWakeStep elapsedUs s
  | .wakeStepTimeout => Sys2Proof.Machine.execWakeStepTimeout s
  | .wakeTimerExpiry => Sys2Proof.Machine.execWakeTimerExpiry s
  | .domainCloseForced domain victims => Sys2Proof.Machine.execDomainCloseForced domain victims s
  | .ppsEdge stamp => Sys2Proof.Machine.execPpsEdge stamp s
  | .ppsEdgeDiscarded highNs lowNs => Sys2Proof.Machine.execPpsEdgeDiscarded highNs lowNs s
  | .ppsLoss => Sys2Proof.Machine.execPpsLoss s
  | .secSuspectLimit => Sys2Proof.Machine.execSecSuspectLimit s
  | .ptmDialog master => Sys2Proof.Machine.execPtmDialog master s
  | .timNowSaturation => Sys2Proof.Machine.execTimNowSaturation s
  | .ppsOutPulse => Sys2Proof.Machine.execPpsOutPulse s
  | .ppsOutPulseEnd => Sys2Proof.Machine.execPpsOutPulseEnd s
  | .modIdChange live => Sys2Proof.Machine.execModIdChange live s
  | .cablePresentChange port mated => Sys2Proof.Machine.execCablePresentChange port mated s
  | .dieSensorReading stamp readings => Sys2Proof.Machine.execDieSensorReading stamp readings s
  | .flashTemperatureRead stamp die temp => Sys2Proof.Machine.execFlashTemperatureRead stamp die temp s
  | .boardSensorReading temps => Sys2Proof.Machine.execBoardSensorReading temps s
  | .graceWindowEnd => Sys2Proof.Machine.execGraceWindowEnd s
  | .fanCommandUpdate rpms duties => Sys2Proof.Machine.execFanCommandUpdate rpms duties s
  | .fanStartStep out ev => Sys2Proof.Machine.execFanStartStep out ev s
  | .fanZeroCrossing out now_ => Sys2Proof.Machine.execFanZeroCrossing out now_ s
  | .fanFault out cause => Sys2Proof.Machine.execFanFault out cause s
  | .fanRetry out => Sys2Proof.Machine.execFanRetry out s
  | .fanRecovered out => Sys2Proof.Machine.execFanRecovered out s
  | .heldOffClear out => Sys2Proof.Machine.execHeldOffClear out s
  | .fanRailThreshold volts => Sys2Proof.Machine.execFanRailThreshold volts s
  | .regionHeartbeatMiss asking otherHeard => Sys2Proof.Machine.execRegionHeartbeatMiss asking otherHeard s
  | .regionSelfFailure region => Sys2Proof.Machine.execRegionSelfFailure region s
  | .takeoverDrainComplete => Sys2Proof.Machine.execTakeoverDrainComplete s
  | .callerWatchdogExpiry caller => Sys2Proof.Machine.execCallerWatchdogExpiry caller s
  | .unitFault kind inst cause => Sys2Proof.Machine.execUnitFault kind inst cause s
  | .crossbarAttachmentLost cluster region => Sys2Proof.Machine.execCrossbarAttachmentLost cluster region s
  | .read h io => Sys2Proof.Machine.execRead h io s
  | .write h io => Sys2Proof.Machine.execWrite h io s
  | .zoneAppend h io => Sys2Proof.Machine.execZoneAppend h io s
  | .writeZeroes h io => Sys2Proof.Machine.execWriteZeroes h io s
  | .datasetManagement h dealloc ranges => Sys2Proof.Machine.execDatasetManagement h dealloc ranges s
  | .compare h io data pi => Sys2Proof.Machine.execCompare h io data pi s
  | .verify h io => Sys2Proof.Machine.execVerify h io s
  | .flush h => Sys2Proof.Machine.execFlush h s
  | .zoneOpen h slba all => Sys2Proof.Machine.execZoneOpen h slba all s
  | .zoneClose h slba all => Sys2Proof.Machine.execZoneClose h slba all s
  | .zoneFinish h slba all => Sys2Proof.Machine.execZoneFinish h slba all s
  | .zoneReset h slba all => Sys2Proof.Machine.execZoneReset h slba all s
  | .zoneOffline h slba all => Sys2Proof.Machine.execZoneOffline h slba all s
  | .zoneManagementReceive h slba action option_ bytes partial_ => Sys2Proof.Machine.execZoneManagementReceive h slba action option_ bytes partial_ s
  | .segmentGrant flight seg => Sys2Proof.Machine.execSegmentGrant flight seg s
  | .segmentTransferComplete flight seg data pi => Sys2Proof.Machine.execSegmentTransferComplete flight seg data pi s
  | .stagingSegmentRelease flight seg => Sys2Proof.Machine.execStagingSegmentRelease flight seg s
  | .dirtyLimitWaitEnd flight seg => Sys2Proof.Machine.execDirtyLimitWaitEnd flight seg s
  | .hostDmaFault channel status victim => Sys2Proof.Machine.execHostDmaFault channel status victim s
  | .capSlotGrant die => Sys2Proof.Machine.execCapSlotGrant die s
  | .readSenseComplete flight sense decoded weight => Sys2Proof.Machine.execReadSenseComplete flight sense decoded weight s
  | .programComplete die => Sys2Proof.Machine.execProgramComplete die s
  | .eraseComplete die => Sys2Proof.Machine.execEraseComplete die s
  | .dieStatusReport die failed => Sys2Proof.Machine.execDieStatusReport die failed s
  | .dieTimeout die channelLost => Sys2Proof.Machine.execDieTimeout die channelLost s
  | .stripeRowClose zone row => Sys2Proof.Machine.execStripeRowClose zone row s
  | .landingRowClose row => Sys2Proof.Machine.execLandingRowClose row s
  | .foldStart zone row => Sys2Proof.Machine.execFoldStart zone row s
  | .foldSwitch zone row => Sys2Proof.Machine.execFoldSwitch zone row s
  | .compactionStart => Sys2Proof.Machine.execCompactionStart s
  | .deferredEraseStart die => Sys2Proof.Machine.execDeferredEraseStart die s
  | .wearRelocationStart die => Sys2Proof.Machine.execWearRelocationStart die s
  | .promenadeVisit cluster bits tier => Sys2Proof.Machine.execPromenadeVisit cluster bits tier s
  | .relocationStart die block => Sys2Proof.Machine.execRelocationStart die block s
  | .relocationCommit idx => Sys2Proof.Machine.execRelocationCommit idx s
  | .rebuildStart zone member => Sys2Proof.Machine.execRebuildStart zone member s
  | .journalUnitProgram => Sys2Proof.Machine.execJournalUnitProgram s
  | .checkpointStart => Sys2Proof.Machine.execCheckpointStart s
  | .checkpointValid => Sys2Proof.Machine.execCheckpointValid s
  | .mountComplete readable ckptGood fallback elapsedMs => Sys2Proof.Machine.execMountComplete readable ckptGood fallback elapsedMs s
  | .dramScrubStep r => Sys2Proof.Machine.execDramScrubStep r s
  | .sramScrubStep r => Sys2Proof.Machine.execSramScrubStep r s
  | .bufferLeak owner => Sys2Proof.Machine.execBufferLeak owner s
  | .carriageDrainComplete idx => Sys2Proof.Machine.execCarriageDrainComplete idx s
  | .squashInstant who => Sys2Proof.Machine.execSquashInstant who s
  | .compartmentResetComplete comp => Sys2Proof.Machine.execCompartmentResetComplete comp s
  | .compartmentFreezeComplete comp => Sys2Proof.Machine.execCompartmentFreezeComplete comp s
  | .sqTailDoorbell port comp qid value => Sys2Proof.Machine.execSqTailDoorbell port comp qid value s
  | .cqHeadDoorbell port comp qid value => Sys2Proof.Machine.execCqHeadDoorbell port comp qid value s
  | .compartmentEnSet port comp => Sys2Proof.Machine.execCompartmentEnSet port comp s
  | .compartmentEnClear port comp => Sys2Proof.Machine.execCompartmentEnClear port comp s
  | .controllerEnable port => Sys2Proof.Machine.execControllerEnable port s
  | .controllerDisable port => Sys2Proof.Machine.execControllerDisable port s
  | .identify h cns csi cntid => Sys2Proof.Machine.execIdentify h cns csi cntid s
  | .createIoSq h q => Sys2Proof.Machine.execCreateIoSq h q s
  | .createIoCq h q => Sys2Proof.Machine.execCreateIoCq h q s
  | .deleteIoSq h qid => Sys2Proof.Machine.execDeleteIoSq h qid s
  | .deleteIoCq h qid => Sys2Proof.Machine.execDeleteIoCq h qid s
  | .getLogPage h lid off bytes => Sys2Proof.Machine.execGetLogPage h lid off bytes s
  | .abort h sqid cid => Sys2Proof.Machine.execAbort h sqid cid s
  | .asynchronousEventRequest h => Sys2Proof.Machine.execAsynchronousEventRequest h s
  | .getFeatures h fid arg => Sys2Proof.Machine.execGetFeatures h fid arg s
  | .setPowerManagement h ps => Sys2Proof.Machine.execSetPowerManagement h ps s
  | .setTemperatureThreshold h tmpth sensor under => Sys2Proof.Machine.execSetTemperatureThreshold h tmpth sensor under s
  | .setNumberOfQueues h nsq ncq => Sys2Proof.Machine.execSetNumberOfQueues h nsq ncq s
  | .setInterruptCoalescing h value => Sys2Proof.Machine.execSetInterruptCoalescing h value s
  | .setInterruptVectorConfiguration h iv cd => Sys2Proof.Machine.execSetInterruptVectorConfiguration h iv cd s
  | .setAsyncEventConfiguration h value => Sys2Proof.Machine.execSetAsyncEventConfiguration h value s
  | .setTimestamp h ms => Sys2Proof.Machine.execSetTimestamp h ms s
  | .firmwareCommit h => Sys2Proof.Machine.execFirmwareCommit h s
  | .firmwareImageDownload h => Sys2Proof.Machine.execFirmwareImageDownload h s
  | .sanitizeBlockErase h ause => Sys2Proof.Machine.execSanitizeBlockErase h ause s
  | .sanitizeCryptoErase h ause => Sys2Proof.Machine.execSanitizeCryptoErase h ause s
  | .sanitizeOverwrite h => Sys2Proof.Machine.execSanitizeOverwrite h s
  | .sanitizeExitFailureMode h => Sys2Proof.Machine.execSanitizeExitFailureMode h s
  | .sanitizeComplete written elapsedMs => Sys2Proof.Machine.execSanitizeComplete written elapsedMs s
  | .reelLoad h image => Sys2Proof.Machine.execReelLoad h image s
  | .reelUnload h handle => Sys2Proof.Machine.execReelUnload h handle s
  | .enterMaintenance h => Sys2Proof.Machine.execEnterMaintenance h s
  | .leaveMaintenance h => Sys2Proof.Machine.execLeaveMaintenance h s
  | .storeWriteSlot h slot image => Sys2Proof.Machine.execStoreWriteSlot h slot image s
  | .storeClearSlot h slot => Sys2Proof.Machine.execStoreClearSlot h slot s
  | .reelStart h a => Sys2Proof.Machine.execReelStart h a s
  | .reelHalt h inst graceMs => Sys2Proof.Machine.execReelHalt h inst graceMs s
  | .reelHaltGraceExpiry inst => Sys2Proof.Machine.execReelHaltGraceExpiry inst s
  | .reelStatus h inst => Sys2Proof.Machine.execReelStatus h inst s
  | .compartmentCreate h comp port => Sys2Proof.Machine.execCompartmentCreate h comp port s
  | .compartmentDelete h comp => Sys2Proof.Machine.execCompartmentDelete h comp s
  | .mapPasid h comp pasid port => Sys2Proof.Machine.execMapPasid h comp pasid port s
  | .unmapPasid h comp pasid port => Sys2Proof.Machine.execUnmapPasid h comp pasid port s
  | .compartmentReset h comp => Sys2Proof.Machine.execCompartmentReset h comp s
  | .compartmentFreeze h comp => Sys2Proof.Machine.execCompartmentFreeze h comp s
  | .compartmentThaw h comp => Sys2Proof.Machine.execCompartmentThaw h comp s
  | .compartmentSave h comp bytes => Sys2Proof.Machine.execCompartmentSave h comp bytes s
  | .compartmentRestore h params record => Sys2Proof.Machine.execCompartmentRestore h params record s
  | .eventRingSetup h r => Sys2Proof.Machine.execEventRingSetup h r s
  | .eventRingClose h => Sys2Proof.Machine.execEventRingClose h s
  | .frameAppend h zslba rawLen limit desc raw => Sys2Proof.Machine.execFrameAppend h zslba rawLen limit desc raw s
  | .frameCodingComplete lane => Sys2Proof.Machine.execFrameCodingComplete lane s
  | .frameRead h slba recLen ctx bufBytes => Sys2Proof.Machine.execFrameRead h slba recLen ctx bufBytes s
  | .codecStateSave h ctx => Sys2Proof.Machine.execCodecStateSave h ctx s
  | .codecStateRestore h ctx record => Sys2Proof.Machine.execCodecStateRestore h ctx record s
  | .nop k => Sys2Proof.Machine.execNop k s
  | .trap k => Sys2Proof.Machine.execTrap k s
  | .wait k => Sys2Proof.Machine.execWait k s
  | .waitConditionMet ctx => Sys2Proof.Machine.execWaitConditionMet ctx s
  | .ticketCompletion ctx ticket status result data => Sys2Proof.Machine.execTicketCompletion ctx ticket status result data s
  | .commit k => Sys2Proof.Machine.execCommit k s
  | .halt k => Sys2Proof.Machine.execHalt k s
  | .add k => Sys2Proof.Machine.execAdd k s
  | .sub k => Sys2Proof.Machine.execSub k s
  | .and k => Sys2Proof.Machine.execAnd k s
  | .or k => Sys2Proof.Machine.execOr k s
  | .xor k => Sys2Proof.Machine.execXor k s
  | .shl k => Sys2Proof.Machine.execShl k s
  | .shr k => Sys2Proof.Machine.execShr k s
  | .sar k => Sys2Proof.Machine.execSar k s
  | .mul k => Sys2Proof.Machine.execMul k s
  | .mulhu k => Sys2Proof.Machine.execMulhu k s
  | .divu k => Sys2Proof.Machine.execDivu k s
  | .remu k => Sys2Proof.Machine.execRemu k s
  | .minu k => Sys2Proof.Machine.execMinu k s
  | .maxu k => Sys2Proof.Machine.execMaxu k s
  | .addi k => Sys2Proof.Machine.execAddi k s
  | .andi k => Sys2Proof.Machine.execAndi k s
  | .ori k => Sys2Proof.Machine.execOri k s
  | .xori k => Sys2Proof.Machine.execXori k s
  | .shli k => Sys2Proof.Machine.execShli k s
  | .shri k => Sys2Proof.Machine.execShri k s
  | .sari k => Sys2Proof.Machine.execSari k s
  | .li k => Sys2Proof.Machine.execLi k s
  | .lih k => Sys2Proof.Machine.execLih k s
  | .bfx k => Sys2Proof.Machine.execBfx k s
  | .bfi k => Sys2Proof.Machine.execBfi k s
  | .cmp k => Sys2Proof.Machine.execCmp k s
  | .cmpi k => Sys2Proof.Machine.execCmpi k s
  | .b k => Sys2Proof.Machine.execB k s
  | .call k => Sys2Proof.Machine.execCall k s
  | .ret k => Sys2Proof.Machine.execRet k s
  | .jr k => Sys2Proof.Machine.execJr k s
  | .callr k => Sys2Proof.Machine.execCallr k s
  | .ld k => Sys2Proof.Machine.execLd k s
  | .st k => Sys2Proof.Machine.execSt k s
  | .copy k => Sys2Proof.Machine.execCopy k s
  | .mfs k => Sys2Proof.Machine.execMfs k s
  | .mts k => Sys2Proof.Machine.execMts k s
  | .trd k => Sys2Proof.Machine.execTrd k s
  | .twr k => Sys2Proof.Machine.execTwr k s
  | .pgctlCreate k => Sys2Proof.Machine.execPgctlCreate k s
  | .pgctlDelete k => Sys2Proof.Machine.execPgctlDelete k s
  | .pgctlAddStripeGroup k => Sys2Proof.Machine.execPgctlAddStripeGroup k s
  | .pgctlRemoveStripeGroup k => Sys2Proof.Machine.execPgctlRemoveStripeGroup k s
  | .pgctlMove k => Sys2Proof.Machine.execPgctlMove k s
  | .pgctlSetDefaultMode k => Sys2Proof.Machine.execPgctlSetDefaultMode k s
  | .nsctlCreateZoned k => Sys2Proof.Machine.execNsctlCreateZoned k s
  | .nsctlCreateConventional k => Sys2Proof.Machine.execNsctlCreateConventional k s
  | .nsctlDelete k => Sys2Proof.Machine.execNsctlDelete k s
  | .zctlOpen k => Sys2Proof.Machine.execZctlOpen k s
  | .zctlClose k => Sys2Proof.Machine.execZctlClose k s
  | .zctlFinish k => Sys2Proof.Machine.execZctlFinish k s
  | .zctlReset k => Sys2Proof.Machine.execZctlReset k s
  | .zctlOffline k => Sys2Proof.Machine.execZctlOffline k s
  | .tfind k => Sys2Proof.Machine.execTfind k s
  | .fread k => Sys2Proof.Machine.execFread k s
  | .fprog k => Sys2Proof.Machine.execFprog k s
  | .ferase k => Sys2Proof.Machine.execFerase k s
  | .frecord k => Sys2Proof.Machine.execFrecord k s
  | .ftemp k => Sys2Proof.Machine.execFtemp k s
  | .freserveTake k => Sys2Proof.Machine.execFreserveTake k s
  | .freserveReturn k => Sys2Proof.Machine.execFreserveReturn k s
  | .couple k => Sys2Proof.Machine.execCouple k s
  | .uncouple k => Sys2Proof.Machine.execUncouple k s
  | .carrd k => Sys2Proof.Machine.execCarrd k s
  | .balloc k => Sys2Proof.Machine.execBalloc k s
  | .bshare k => Sys2Proof.Machine.execBshare k s
  | .bdrop k => Sys2Proof.Machine.execBdrop k s
  | .bfree k => Sys2Proof.Machine.execBfree k s
  | .binfo k => Sys2Proof.Machine.execBinfo k s
  | .cxgrant k => Sys2Proof.Machine.execCxgrant k s
  | .cxrevoke k => Sys2Proof.Machine.execCxrevoke k s
  | .cxsave k => Sys2Proof.Machine.execCxsave k s
  | .cxrestore k => Sys2Proof.Machine.execCxrestore k s
  | .timerd k => Sys2Proof.Machine.execTimerd k s
  | .timset k => Sys2Proof.Machine.execTimset k s
  | .pmode k => Sys2Proof.Machine.execPmode k s
  | .pstate k => Sys2Proof.Machine.execPstate k s
  | .evpost k => Sys2Proof.Machine.execEvpost k s
  | .evnext k => Sys2Proof.Machine.execEvnext k s
  | .evsubAdd k => Sys2Proof.Machine.execEvsubAdd k s
  | .evsubClear k => Sys2Proof.Machine.execEvsubClear k s
  | .regrd k => Sys2Proof.Machine.execRegrd k s
  | .regwr k => Sys2Proof.Machine.execRegwr k s
  | .hdmard k => Sys2Proof.Machine.execHdmard k s
  | .hdmawr k => Sys2Proof.Machine.execHdmawr k s
  | .mountCheckpoint k => Sys2Proof.Machine.execMountCheckpoint k s
  | .mountFullScan k => Sys2Proof.Machine.execMountFullScan k s
  | .ckpt k => Sys2Proof.Machine.execCkpt k s
  | .unpark k => Sys2Proof.Machine.execUnpark k s
  | .stop k => Sys2Proof.Machine.execStop k s
  | .cmpsetQueuePairs k => Sys2Proof.Machine.execCmpsetQueuePairs k s
  | .cmpsetActiveQuota k => Sys2Proof.Machine.execCmpsetActiveQuota k s
  | .cmpsetDirectQuota k => Sys2Proof.Machine.execCmpsetDirectQuota k s
  | .cmpsetBufferFloor k => Sys2Proof.Machine.execCmpsetBufferFloor k s
  | .cmpsetCreditShare k => Sys2Proof.Machine.execCmpsetCreditShare k s
  | .cmpsetLatencyClass k => Sys2Proof.Machine.execCmpsetLatencyClass k s
  | .lineFillComplete ctx r => Sys2Proof.Machine.execLineFillComplete ctx r s
  | .ownerQuery port comp owner segLimit => Sys2Proof.Machine.execOwnerQuery port comp owner segLimit s
  | .ownerRegister port comp owner segLimit => Sys2Proof.Machine.execOwnerRegister port comp owner segLimit s
  | .ownerUnregister port comp owner segLimit => Sys2Proof.Machine.execOwnerUnregister port comp owner segLimit s
  | .ownerSetLimit port comp owner segLimit => Sys2Proof.Machine.execOwnerSetLimit port comp owner segLimit s
  | .ownerReclaim port comp owner segLimit => Sys2Proof.Machine.execOwnerReclaim port comp owner segLimit s
  | .raiseToClosed confirm => Sys2Proof.Machine.execRaiseToClosed confirm s
  | .raiseToSealed confirm => Sys2Proof.Machine.execRaiseToSealed confirm s
  | .lowerToOpen confirm => Sys2Proof.Machine.execLowerToOpen confirm s
  | .optionCommit merge report => Sys2Proof.Machine.execOptionCommit merge report s
  | .optionReload => Sys2Proof.Machine.execOptionReload s
  | .keyQuery slot => Sys2Proof.Machine.execKeyQuery slot s
  | .keyGenerate slot => Sys2Proof.Machine.execKeyGenerate slot s
  | .keyInstall slot => Sys2Proof.Machine.execKeyInstall slot s
  | .keyInstallWrapped slot => Sys2Proof.Machine.execKeyInstallWrapped slot s
  | .keyErase slot => Sys2Proof.Machine.execKeyErase slot s
  | .zoneQuery zone => Sys2Proof.Machine.execZoneQuery zone s
  | .dmaChannelRelease => Sys2Proof.Machine.execDmaChannelRelease s
  | .registerReadClear port bar off bytes => Sys2Proof.Machine.execRegisterReadClear port bar off bytes s
  | .registerWrite port bar off bytes value => Sys2Proof.Machine.execRegisterWrite port bar off bytes value s
  | .mirrorBind m => Sys2Proof.Machine.execMirrorBind m s
  | .mirrorUnbind m => Sys2Proof.Machine.execMirrorUnbind m s
  | .mirrorPromote m => Sys2Proof.Machine.execMirrorPromote m s
  | .mirrorResync m => Sys2Proof.Machine.execMirrorResync m s
  | .mirrorCopyZone m => Sys2Proof.Machine.execMirrorCopyZone m s
  | .mirrorQuery m => Sys2Proof.Machine.execMirrorQuery m s
  | .resyncComplete pgroup => Sys2Proof.Machine.execResyncComplete pgroup s
  | .flitReceived port f => Sys2Proof.Machine.execFlitReceived port f s
  | .linkSilenceTimeout port => Sys2Proof.Machine.execLinkSilenceTimeout port s
  | .couplerLinkTrained port peer peerPort lanes => Sys2Proof.Machine.execCouplerLinkTrained port peer peerPort lanes s
  | .linkTrainingRetry port => Sys2Proof.Machine.execLinkTrainingRetry port s
  | .heartbeatSend => Sys2Proof.Machine.execHeartbeatSend s
  | .memberLost member lastHeard => Sys2Proof.Machine.execMemberLost member lastHeard s
  | .memberJoined member promotedPairs => Sys2Proof.Machine.execMemberJoined member promotedPairs s
  | .sleepNotice member => Sys2Proof.Machine.execSleepNotice member s
  | .sleepingMemberTimeout member lastHeard => Sys2Proof.Machine.execSleepingMemberTimeout member lastHeard s
  | .mirrorSegment peer pgroup zoneNo start key data direct cls => Sys2Proof.Machine.execMirrorSegment peer pgroup zoneNo start key data direct cls s
  | .mirrorAck flight seg status => Sys2Proof.Machine.execMirrorAck flight seg status s
  | .forwardedRead peer pgroup zoneNo start len cls => Sys2Proof.Machine.execForwardedRead peer pgroup zoneNo start len cls s
  | .timeExchange t1 t2 t3 t4 leaderSeconds leaderSuspect hops => Sys2Proof.Machine.execTimeExchange t1 t2 t3 t4 leaderSeconds leaderSuspect hops s
  | .peek off => Sys2Proof.Machine.execPeek off s
  | .bypass => Sys2Proof.Machine.execBypass s
  | .idcode => Sys2Proof.Machine.execIdcode s
  | .samplePreload => Sys2Proof.Machine.execSamplePreload s
  | .extest => Sys2Proof.Machine.execExtest s
  | .clamp => Sys2Proof.Machine.execClamp s
  | .highz => Sys2Proof.Machine.execHighz s
  | .i3cBroadcast daa => Sys2Proof.Machine.execI3cBroadcast daa s
  | .basicManagementCommand => Sys2Proof.Machine.execBasicManagementCommand s
  | .subsystemHealthStatusPoll => Sys2Proof.Machine.execSubsystemHealthStatusPoll s
  | .vpdRead off len => Sys2Proof.Machine.execVpdRead off len s
  | .tunnelledIdentify cns csi cntid nsid off len => Sys2Proof.Machine.execTunnelledIdentify cns csi cntid nsid off len s
  | .tunnelledGetLogPage lid nsid off len => Sys2Proof.Machine.execTunnelledGetLogPage lid nsid off len s
  | .powerManagerHeartbeatMiss region => Sys2Proof.Machine.execPowerManagerHeartbeatMiss region s
  | .levelWatchdogExpiry kind inst => Sys2Proof.Machine.execLevelWatchdogExpiry kind inst s
  | .bankVoltageChange v => Sys2Proof.Machine.execBankVoltageChange v s
  | .fanCmdMeasurement m => Sys2Proof.Machine.execFanCmdMeasurement m s
  | .conventionalCopy units => Sys2Proof.Machine.execConventionalCopy units s
  | .conventionalReclaim => Sys2Proof.Machine.execConventionalReclaim s
  | .invalidCommandOpcode h opcode io => Sys2Proof.Machine.execInvalidCommandOpcode h opcode io s
  | .setFeaturesUnsupported h fid => Sys2Proof.Machine.execSetFeaturesUnsupported h fid s
  | .unassignedOpcode ctx w => Sys2Proof.Machine.execUnassignedOpcode ctx w s
  | .miInvalidCommand opcode => Sys2Proof.Machine.execMiInvalidCommand opcode s
  | .configurationRequest port => Sys2Proof.Machine.execConfigurationRequest port s
  | .misalignedAccess port isRead bytes => Sys2Proof.Machine.execMisalignedAccess port isRead bytes s

end Sys2Proof.Machine
end

