-- ==== Sys2Proof/Safety.lean ====
section
/-! DEFINITION. What the statements are said in: a command that goes on, a reel that is ready for an instruction, the rows of
the manual's tables that a statement goes through, and what a command leaves as it was. -/

namespace Sys2Proof

open Machine

/-- The command answers a next state, and that state satisfies `P`. -/
def Goes (i : Instr) (s : State) (P : State → Prop) : Prop := ∃ t, exec i s = .next t ∧ P t

/-- The command stops in `s`: no next state follows. -/
def Stops (i : Instr) (s : State) : Prop := ∀ t, exec i s ≠ .next t

/-! ### A reel that issues an instruction (R268, R283, R323) -/

/-- The tables of the contexts and of the running instances are in their one canonical form. -/
def ReelTables (s : State) : Prop := canon none s.kry.ctxs = true ∧ canon none s.kry.insts = true

/-- The reel in context `w.ctx` is `k`, it issues the word `w` with the opcode and form `f`, and none of the traps that come
before the instruction's own applies (R270 to R272, R283, R323): the word is intact, the budget is not spent unless the
instruction is free of it, the `pc` is aligned and in the code area, and no unused field is set. -/
structure Ready (s : State) (f : Form) (free : Bool) (w : KWord) (k : KCtx) : Prop where
  tables : ReelTables s
  here : s.kctx w.ctx = some k
  issues : s.issues f.op w = true
  intact : ∀ i o, BadWord.image i o ∈ s.mem.bad → i = k.inst → o / 8 ≠ k.pc / 8
  budget : free = true ∨ k.count < k.budget
  aligned : k.pc % 8 = 0
  inside : 64 ≤ k.pc ∧ k.pc < 64 + k.codeLen
  form : badForm f w = false

/-- The context after an instruction that retires: its next `pc`, and its counts. -/
def stepped (k : KCtx) (pc : Nat) : KCtx := { k with pc := pc, count := k.count + 1, retired := k.retired + 1 }

/-- `s` with what every issue of an instruction may touch taken from `t`: the contexts, the count of retired instructions, the
clocks, and the record of activity (R34, R325, R474). -/
def reelPart (s t : State) : State :=
  { s with kry := { s.kry with ctxs := t.kry.ctxs, retired := t.kry.retired }
           lvl := { s.lvl with clocks := t.lvl.clocks }
           pwr := { s.pwr with pstate := t.pwr.pstate, lastActivity := t.pwr.lastActivity } }

/-- Everything but context `c` and what `reelPart` names is as it was. -/
def OnlyReel (s t : State) (c : Nat) : Prop := (∀ d, d ≠ c → t.kctx d = s.kctx d) ∧ t = reelPart s t

/-- The instruction retires in one step, leaves context `k'` and nothing else but what `OnlyReel` names. -/
def Retires (i : Instr) (s : State) (c : Nat) (k' : KCtx) : Prop :=
  Goes i s (fun t => t.kctx c = some k' ∧ OnlyReel s t c)

/-- The instruction traps: the reel `k` in context `c` stops, its record says state 5, the code, the detail and the `pc`
(R282), no other reel changes, and, unless a Reel Store Write waits for the reel to stop, no zone, no carriage, no block and
no buffer changes. -/
def TrapsWith (i : Instr) (s : State) (c : Nat) (k : KCtx) (code detail : Nat) : Prop :=
  Goes i s (fun t => t.kctx c = none ∧ t.kinst k.inst = none ∧
    (∃ r, t.kry.records.head? = some r ∧ r.inst = k.inst ∧ r.state = 5 ∧ r.trapCode = code ∧ r.trapDetail = detail ∧
      r.pc = k.pc) ∧
    (∀ d, d ≠ c → t.kctx d = s.kctx d) ∧
    (s.kry.writes = [] → t.zns = s.zns ∧ t.car = s.car ∧ t.fls = s.fls ∧ t.bpm = s.bpm))
/-! ### Krytfer: the rows of R286 and R287, and what a condition code asks -/

/-- A row of R286: the opcode, the command, the value of g[d] from g[a] and g[b], and the flags from the flags before, the two
operands and the value. -/
structure ArithmeticRow where
  op : Nat
  cmd : KWord → Instr
  value : Word → Word → Word
  flags : KFlags → Word → Word → Word → KFlags

/-- z and n of a value (R266). -/
def zn (f : KFlags) (r : Word) : KFlags := { f with z := decide (r.toNat = 0), n := r.getLsbD 63 }

/-- z and n of a value; c and v cleared. -/
def znCleared (_ : KFlags) (_ _ r : Word) : KFlags := zn { z := false, n := false, c := false, v := false } r

/-- z and n of a value; c and v unchanged. -/
def znOnly (f : KFlags) (_ _ r : Word) : KFlags := zn f r

/-- The flags of a sum: carry where it does not fit 64 bits, overflow where the signed sum does not. -/
def sumFlags (_ : KFlags) (x y r : Word) : KFlags :=
  zn { z := false, n := false, c := decide (2 ^ 64 ≤ x.toNat + y.toNat), v := decide (r.toInt ≠ x.toInt + y.toInt) } r

/-- The flags of a difference: c where there is no borrow, overflow where the signed difference does not fit. -/
def differenceFlags (_ : KFlags) (x y r : Word) : KFlags :=
  zn { z := false, n := false, c := decide (y.toNat ≤ x.toNat), v := decide (r.toInt ≠ x.toInt - y.toInt) } r

/-- z and n of a quotient or remainder; v where the divisor is 0. -/
def divisionFlags (f : KFlags) (_ y r : Word) : KFlags := { zn f r with v := decide (y.toNat = 0) }

/-- R286. -/
def arithmeticRows : List ArithmeticRow :=
  [{ op := 0x10, cmd := .add, value := fun x y => BitVec.ofNat 64 (x.toNat + y.toNat), flags := sumFlags },
   { op := 0x11, cmd := .sub, value := fun x y => BitVec.ofInt 64 (x.toInt - y.toInt), flags := differenceFlags },
   { op := 0x12, cmd := .and, value := fun x y => x &&& y, flags := znCleared },
   { op := 0x13, cmd := .or, value := fun x y => x ||| y, flags := znCleared },
   { op := 0x14, cmd := .xor, value := fun x y => x ^^^ y, flags := znCleared },
   { op := 0x15, cmd := .shl, value := fun x y => BitVec.ofNat 64 (x.toNat * 2 ^ (y.toNat % 64)), flags := znOnly },
   { op := 0x16, cmd := .shr, value := fun x y => BitVec.ofNat 64 (x.toNat / 2 ^ (y.toNat % 64)), flags := znOnly },
   { op := 0x17, cmd := .sar, value := fun x y => BitVec.ofInt 64 (x.toInt / (2 : Int) ^ (y.toNat % 64)), flags := znOnly },
   { op := 0x18, cmd := .mul, value := fun x y => BitVec.ofNat 64 (x.toNat * y.toNat), flags := znOnly },
   { op := 0x19, cmd := .mulhu, value := fun x y => BitVec.ofNat 64 (x.toNat * y.toNat / 2 ^ 64), flags := znOnly },
   { op := 0x1A, cmd := .divu
     value := fun x y => if y.toNat = 0 then BitVec.ofInt 64 (-1) else BitVec.ofNat 64 (x.toNat / y.toNat)
     flags := divisionFlags },
   { op := 0x1B, cmd := .remu, value := fun x y => if y.toNat = 0 then x else BitVec.ofNat 64 (x.toNat % y.toNat)
     flags := divisionFlags },
   { op := 0x1C, cmd := .minu, value := fun x y => BitVec.ofNat 64 (min x.toNat y.toNat), flags := znOnly },
   { op := 0x1D, cmd := .maxu, value := fun x y => BitVec.ofNat 64 (max x.toNat y.toNat), flags := znOnly }]

/-- A row of R287: whether the instruction uses g[a], the value of g[d] from g[a], g[d] and `imm`, and the flags from the
flags before, g[a], `imm` and the value. -/
structure ImmediateRow where
  op : Nat
  cmd : KWord → Instr
  useA : Bool
  value : Word → Word → BitVec 32 → Word
  flags : KFlags → Word → BitVec 32 → Word → KFlags

/-- The immediate as a signed number, in 64 bits. -/
def signed (imm : BitVec 32) : Word := BitVec.ofInt 64 imm.toInt

/-- The immediate as an unsigned number, in 64 bits. -/
def unsigned_ (imm : BitVec 32) : Word := BitVec.ofNat 64 imm.toNat

/-- Lowest bit and width of a bit field. -/
def low (imm : BitVec 32) : Nat := imm.toNat % 64
def width (imm : BitVec 32) : Nat := imm.toNat / 2 ^ 8 % 64 + 1

/-- Flags of the immediate instructions. -/
def immZn (f : KFlags) (_ : Word) (_ : BitVec 32) (r : Word) : KFlags := zn f r
def immZ (f : KFlags) (_ : Word) (_ : BitVec 32) (r : Word) : KFlags := { f with z := decide (r.toNat = 0) }
def immNone (f : KFlags) (_ : Word) (_ : BitVec 32) (_ : Word) : KFlags := f

/-- R287. -/
def immediateRows : List ImmediateRow :=
  [{ op := 0x20, cmd := .addi, useA := true, value := fun x _ i => BitVec.ofInt 64 (x.toInt + i.toInt)
     flags := fun f x i r => sumFlags f x (signed i) r },
   { op := 0x21, cmd := .andi, useA := true, value := fun x _ i => x &&& signed i, flags := immZn },
   { op := 0x22, cmd := .ori, useA := true, value := fun x _ i => x ||| unsigned_ i, flags := immZn },
   { op := 0x23, cmd := .xori, useA := true, value := fun x _ i => x ^^^ unsigned_ i, flags := immZn },
   { op := 0x24, cmd := .shli, useA := true, value := fun x _ i => BitVec.ofNat 64 (x.toNat * 2 ^ (i.toNat % 64))
     flags := immZn },
   { op := 0x25, cmd := .shri, useA := true, value := fun x _ i => BitVec.ofNat 64 (x.toNat / 2 ^ (i.toNat % 64))
     flags := immZn },
   { op := 0x26, cmd := .sari, useA := true, value := fun x _ i => BitVec.ofInt 64 (x.toInt / (2 : Int) ^ (i.toNat % 64))
     flags := immZn },
   { op := 0x27, cmd := .li, useA := false, value := fun _ _ i => signed i, flags := immNone },
   { op := 0x28, cmd := .lih, useA := false, value := fun _ d i => BitVec.ofNat 64 (i.toNat * 2 ^ 32 + d.toNat % 2 ^ 32)
     flags := immNone },
   { op := 0x29, cmd := .bfx, useA := true, value := fun x _ i => BitVec.ofNat 64 (x.toNat / 2 ^ low i % 2 ^ width i)
     flags := immZ },
   { op := 0x2A, cmd := .bfi, useA := true
     value := fun x d i => BitVec.ofNat 64 (d.toNat % 2 ^ low i + x.toNat % 2 ^ width i * 2 ^ low i +
       d.toNat / 2 ^ (low i + width i) * 2 ^ (low i + width i))
     flags := immZ }]

/-- R289: the conditions of B by their codes. -/
def condition : Nat → KFlags → Prop
  | 0, _ => True
  | 1, f => f.z = true
  | 2, f => f.z = false
  | 3, f => f.c = true
  | 4, f => f.c = false
  | 5, f => f.n ≠ f.v
  | 6, f => f.n = f.v
  | 7, f => f.z = false ∧ f.n = f.v
  | 8, f => f.z = true ∨ f.n ≠ f.v
  | 9, f => f.c = true ∧ f.z = false
  | 10, f => f.c = false ∨ f.z = true
  | _, _ => False

/-- An address from which instructions may be fetched: aligned to 8 bytes, in the code area (R270). -/
def FetchAddress (k : KCtx) (a : Nat) : Prop := a % 8 = 0 ∧ 64 ≤ a ∧ a < 64 + k.codeLen

/-- Target of B and CALL: the instruction's own address plus `imm` × 8 (R273). -/
def target (k : KCtx) (w : KWord) : Nat := ((k.pc : Int) + w.imm.toInt * 8).toNat

/-! ### Loads, stores and copies (R269 to R271, R290) -/

/-- Bytes of a space: 16 KiB of scratch, the image up to the end of the code area, or a buffer that the reel may reach. -/
def spaceSize (s : State) (k : KCtx) (sp : Nat) (h : Word) : Option Nat :=
  match sp with
  | 0 => some 16384
  | 1 => some (64 + k.codeLen)
  | 2 => match s.buf h.toNat with
    | some b => if k.comp = 0 ∨ s.ownerComp b.owner = k.comp then some b.size else none
    | none => none
  | _ => none

/-- Byte `a` of a space. -/
def spaceByte (s : State) (k : KCtx) (sp : Nat) (h : Word) (a : Nat) : Byte :=
  match sp with
  | 0 => look 0 k.scratch a
  | 1 => look 0 k.image a
  | _ => look 0 s.bpm.bytes (h.toNat * 2 ^ 22 + a)

/-- The `n` bytes from `a` of a space may be read: they lie in it, capability 6 is held for a buffer, no word of them is
uncorrectable, and the buffer's contents are not lost. -/
structure Readable (s : State) (k : KCtx) (c sp : Nat) (h : Word) (a n : Nat) : Prop where
  inside : ∃ z, spaceSize s k sp h = some z ∧ (n = 0 ∨ a + n ≤ z)
  cap : sp = 2 → k.cap.getLsbD 6 = true
  intact : s.badSource k c sp a n h = false

/-- The `n` bytes from `a` of a space may be written. -/
structure Writable (s : State) (k : KCtx) (sp : Nat) (h : Word) (a n : Nat) : Prop where
  space : sp = 0 ∨ sp = 2
  inside : ∃ z, spaceSize s k sp h = some z ∧ (n = 0 ∨ a + n ≤ z)
  cap : sp = 2 → k.cap.getLsbD 6 = true
  kept : sp = 2 → ∀ b, s.buf h.toNat = some b → b.gone = false

/-- The byte memories are in their one canonical form. -/
def ByteTables (s : State) (k : KCtx) : Prop := canon 0 k.scratch = true ∧ canon 0 s.bpm.bytes = true

/-- The little-endian number of `n` bytes of a space from `a`. -/
def spaceNat (s : State) (k : KCtx) (sp : Nat) (h : Word) (a : Nat) : Nat → Nat
  | 0 => 0
  | n + 1 => (spaceByte s k sp h a).toNat + 256 * spaceNat s k sp h (a + 1) n

/-- A value of `n` bytes, sign-extended to 64 bits where it is taken as signed. -/
def extended (signed : Bool) (n v : Nat) : Word :=
  if signed ∧ 2 ^ (8 * n - 1) ≤ v then BitVec.ofInt 64 ((v : Int) - (2 : Int) ^ (8 * n)) else BitVec.ofNat 64 v

/-- The instruction retires and stores `n` bytes, byte `i` being `f i`, at `a` of a space: every other byte of scratch and of
every buffer reads as before, and so do the registers, the flags, the zones, the carriages and the blocks. -/
def Stores (i : Instr) (s : State) (c : Nat) (k : KCtx) (sp : Nat) (h : Word) (a n : Nat) (f : Nat → Byte) : Prop :=
  Goes i s (fun t => ∃ k', t.kctx c = some k' ∧ k' = { stepped k (k.pc + 8) with scratch := k'.scratch } ∧
    (∀ x, look 0 k'.scratch x = if sp = 0 ∧ a ≤ x ∧ x < a + n then f (x - a) else look 0 k.scratch x) ∧
    (∀ x, look 0 t.bpm.bytes x = if sp = 2 ∧ h.toNat * 2 ^ 22 + a ≤ x ∧ x < h.toNat * 2 ^ 22 + a + n
      then f (x - (h.toNat * 2 ^ 22 + a)) else look 0 s.bpm.bytes x) ∧
    (∀ d, d ≠ c → t.kctx d = s.kctx d) ∧
    t = { reelPart s t with bpm := { s.bpm with bytes := t.bpm.bytes }, mem := { s.mem with bad := t.mem.bad } })

/-! ### Unit instructions: the journal, tickets and held effects (R274 to R278, R281, R292, R293) -/

/-- The reel holds the capability, where one is asked for, and its compartment is not frozen (R281, R283). -/
def Granted (s : State) (k : KCtx) (cap : Option Nat) : Prop :=
  (∀ n, cap = some n → k.cap.getLsbD n = true) ∧ s.frozen k.comp = false

/-- The next journal position holds nothing and is one of the 256 (R275, R276). -/
def FreshPosition (k : KCtx) : Prop := k.journal.length = k.jpos ∧ k.jpos < 256

/-- No unit has performed the instruction at the next journal position before (R275, case 3). -/
def NotPerformed (k : KCtx) : Prop := ∀ x ∈ k.unitKept, ¬ (x.1 = k.epoch ∧ x.2.1 = k.jpos)

/-- The journal entry of an instruction: its operand values and what it answered. -/
def entryOf (k : KCtx) (op : Nat) (w : KWord) (rs : List (Nat × Word)) (z : Option Bool) : JEntry :=
  { op := op, args := [regA k w, regB k w, regD k w, w.mod.setWidth 64, w.imm.setWidth 64], results := rs, z := z
    takes := none, frees := none, scratch := [] }

/-- The context after a synchronous journalled instruction with results `rs`: its registers and z, one more entry, and
the same entry among the results that the units keep, under the instruction's tag (R275). -/
def answeredWith (k : KCtx) (op : Nat) (w : KWord) (rs : List (Nat × Word)) (z : Option Bool) : KCtx :=
  stepped { setRegs k rs with
    flags := { k.flags with z := z.getD k.flags.z }
    journal := k.journal ++ [entryOf k op w rs z]
    unitKept := k.unitKept ++ [(k.epoch, k.jpos, entryOf k op w rs z)]
    jpos := k.jpos + 1 } (k.pc + 8)

/-- Status `st` in g1 and results from g2 up. -/
def answers (st : Nat) (rs : List Word) : List (Nat × Word) := (1, BitVec.ofNat 64 st) :: rs.mapIdx (fun i v => (2 + i, v))

/-- A synchronous instruction that answers status `st` and `rs`, with the rest of the state as `rest` says. -/
def Answers (i : Instr) (s : State) (op : Nat) (w : KWord) (k : KCtx) (st : Nat) (rs : List Word) (rest : State → Prop) : Prop :=
  Goes i s (fun t => t.kctx w.ctx = some (answeredWith k op w (answers st rs) (some (decide (st = 0)))) ∧
    (∀ d, d ≠ w.ctx → t.kctx d = s.kctx d) ∧ rest t)

/-- The write pointer of a block as it reads: the page count of a retired block, of one in the deferred-erase queue, and of one
on a lost die (R148). -/
def pointerReads (s : State) (d b : Nat) : Nat :=
  let whole := if (s.block d b).qlc then 6144 else 1536
  match (s.block d b).use with
  | .retired => whole
  | .deferred _ => whole
  | _ => if (s.die d).lost then whole else (s.block d b).wp

/-- A row of the table fields of R295: table, field and what it reads of entry `i`. -/
structure FieldRow where
  table : Nat
  field : Nat
  value : State → Nat → Nat

/-- Fields of the tables (R295). -/
def fieldRows : List FieldRow :=
  [{ table := 0, field := 0, value := fun s z => (s.zone z).state.code },
   { table := 0, field := 1, value := fun s z => (s.zone z).wp },
   { table := 0, field := 2, value := fun s z => (s.zone z).cap },
   { table := 0, field := 4, value := fun s z => if (s.zone z).direct then 1 else 0 },
   { table := 0, field := 8, value := fun s z => if (s.zone z).pinned then 1 else 0 },
   { table := 1, field := 1, value := fun s x => (s.block (x / 8192) (x % 8192)).wear },
   { table := 1, field := 2, value := fun s x => (s.block (x / 8192) (x % 8192)).reads },
   { table := 1, field := 3, value := fun s x => pointerReads s (x / 8192) (x % 8192) },
   { table := 1, field := 4, value := fun s x => if (s.block (x / 8192) (x % 8192)).qlc then 0 else 1 },
   { table := 1, field := 6, value := fun s x => (s.block (x / 8192) (x % 8192)).first },
   { table := 1, field := 7, value := fun s x => (s.block (x / 8192) (x % 8192)).last },
   { table := 1, field := 8, value := fun s x => (s.block (x / 8192) (x % 8192)).hint },
   { table := 3, field := 1, value := fun s p => if (s.pgroup p).isSome then 1 else 0 },
   { table := 5, field := 0, value := fun s _ => s.zns.reclaimPct },
   { table := 5, field := 2, value := fun s _ => s.zns.carved }]

/-- The entry exists (R54, R295). -/
def entryExists (s : State) (table i : Nat) : Prop :=
  match table with
  | 0 => s.zoneExists i = true
  | 1 => i / 8192 < s.part.variant.dies ∧ i % 8192 < 5600
  | 3 => i < 128
  | _ => i = 0

/-- A commit-only instruction: its form, the capability it needs, what its operands must satisfy, and the effect held. -/
structure HeldRow where
  cmd : KWord → Instr
  form : Form
  cap : KCtx → KWord → Option Nat
  ok : State → KCtx → KWord → Prop
  held : KCtx → KWord → Held

/-- A resource of CMPSET: number, capability 18, and its legal values (R307). -/
def cmpsetRow (cmd : KWord → Instr) (res : Nat) (legal : Nat → Prop) : HeldRow :=
  { cmd := cmd
    form := { op := 0xE0, useD := false, useA := true, useB := true, mask := 0xF }
    cap := fun _ _ => some 18
    ok := fun s k w => w.mod.toNat = res ∧ (regA k w).toNat ≤ 1023 ∧ legal (regB k w).toNat ∧
      ((regA k w).toNat ≠ 0 → (s.comp (regA k w).toNat).state ≠ .free) ∧ ((regA k w).toNat = 0 → res ≠ 0 ∧ res ≠ 3) ∧
      (res = 3 → (regB k w).toNat + sumBy (fun (e : Nat × Comp) => if e.1 = (regA k w).toNat then 0 else e.2.res.floor)
        s.cmp.table ≤ 16384)
    held := fun k w => .cmpset (regA k w).toNat res (regB k w).toNat (w.imm.toNat % 16) }

/-- The commit-only instructions (R304 to R307). -/
def IsHeldRow (row : HeldRow) : Prop := row ∈
  [{ cmd := .timset, form := { op := 0xB1, useD := false, useA := true, useB := false, mask := 0 }
     cap := fun _ _ => some 16, ok := fun _ _ _ => True, held := fun k w => .timset (regA k w) },
   { cmd := .pmode, form := { op := 0xB2, useD := false, useA := true, useB := false, mask := 0 }
     cap := fun _ _ => some 14, ok := fun _ k w => (regA k w).toNat ≤ 2, held := fun k w => .pmode (regA k w).toNat },
   { cmd := .pstate, form := { op := 0xB3, useD := false, useA := true, useB := false, mask := 0 }
     cap := fun k w => if (regA k w).toNat = 0 then none else some 14
     ok := fun _ k w => (regA k w).toNat ≤ 3, held := fun k w => .pstate (regA k w).toNat },
   { cmd := .evpost, form := { op := 0xC0, useD := false, useA := false, useB := true, mask := 7 }
     cap := fun _ _ => some 15
     ok := fun _ k w => 0x8000 ≤ w.imm.toNat % 2 ^ 16 ∧ (w.b ≠ 0 → (regB k w).toNat + 16 ≤ 16384)
     held := fun k w => .evpost (w.imm.toNat % 2 ^ 16) w.mod.toNat
       (if w.b = 0 then List.replicate 16 0 else (List.range 16).map (fun i => look 0 k.scratch ((regB k w).toNat + i))) },
   { cmd := .regwr, form := { op := 0xC4, useD := true, useA := true, useB := false, mask := 0 }
     cap := fun _ _ => some 13, ok := fun _ k w => (regA k w).toNat % 8 = 0 ∧ (regA k w).toNat < 2 ^ 26
     held := fun k w => .regwr (regA k w).toNat (regD k w) },
   { cmd := .unpark, form := { op := 0xD2, useD := false, useA := false, useB := false, mask := 0 }
     cap := fun _ _ => some 17, ok := fun s _ _ => s.mnt.state = 4, held := fun _ _ => .unpark },
   cmpsetRow .cmpsetQueuePairs 0 (fun v => v ≤ 64),
   cmpsetRow .cmpsetActiveQuota 1 (fun v => v ≤ 24576),
   cmpsetRow .cmpsetDirectQuota 2 (fun v => v ≤ 512),
   cmpsetRow .cmpsetBufferFloor 3 (fun v => 2 ≤ v),
   cmpsetRow .cmpsetCreditShare 4 (fun v => v ≤ 1000),
   cmpsetRow .cmpsetLatencyClass 5 (fun v => v ≤ 2)]

/-- An asynchronous instruction: its form, the capability it needs, what must hold of the state and its operands, and the
operation that the unit accepts. -/
structure TicketRow where
  cmd : KWord → Instr
  form : Form
  cap : Nat
  ok : State → KCtx → KWord → Prop
  op : State → KCtx → KWord → UnitOp

/-- A span of a buffer lies in it, and the reel may reach the buffer. -/
def spanOk (s : State) (k : KCtx) (h : Word) (off n : Nat) : Prop := ∃ z, spaceSize s k 2 h = some z ∧ (n = 0 ∨ off + n ≤ z)

/-- A flash address of the variant, with its page below `pages` (R204). -/
def addressOk (s : State) (a : Word) (pages : Nat) : Prop :=
  a.toNat < 2 ^ 37 ∧ flashDie a < s.part.variant.dies ∧ flashBlock a < 5600 ∧ flashPage a < pages

/-- The block is the reels' to program and erase, and no instance runs from it (R300). -/
def blockOpen (s : State) (a : Word) : Prop :=
  s.reelMay (flashDie a) (flashBlock a) = true ∧ s.holdsImage (flashDie a) (flashBlock a) = false

/-- The asynchronous instructions of units (R299, R301, R303, R305, R306). -/
def IsTicketRow (row : TicketRow) : Prop := row ∈
  [{ cmd := .fread, form := { op := 0x70, useD := false, useA := true, useB := true, mask := 0x7F }, cap := 9
     ok := fun s k w => s.sec.level = .opened ∧ addressOk s (regA k w) 6144 ∧
       spanOk s k (regB k w) w.imm.toNat (if w.mod.getLsbD 4 then 18432 else 16384)
     op := fun _ k w => .readPage (flashDie (regA k w)) (flashBlock (regA k w)) (flashPage (regA k w)) (regB k w).toNat
       w.imm.toNat (w.mod.getLsbD 4) },
   { cmd := .fprog, form := { op := 0x71, useD := false, useA := true, useB := true, mask := 0x61 }, cap := 10
     ok := fun s k w => addressOk s (regA k w) (if w.mod.getLsbD 0 then 1536 else 6144) ∧
       spanOk s k (regB k w) w.imm.toNat ((if w.mod.getLsbD 0 then 4 else 64) * (16384 + 32)) ∧ blockOpen s (regA k w) ∧
       s.badSpan k (regB k w) w.imm.toNat ((if w.mod.getLsbD 0 then 4 else 64) * (16384 + 32)) = false ∧
       (s.die (flashDie (regA k w))).lost = false ∧
       (s.block (flashDie (regA k w)) (flashBlock (regA k w))).use ≠ .retired ∧
       (∀ r, (s.block (flashDie (regA k w)) (flashBlock (regA k w))).use ≠ .deferred r) ∧
       (s.block (flashDie (regA k w)) (flashBlock (regA k w))).qlc = !w.mod.getLsbD 0 ∧
       flashPage (regA k w) = s.nextPage (flashDie (regA k w)) (flashBlock (regA k w)) ∧
       (s.fls.blocks.map (·.1)).Pairwise (· < ·)
     op := fun _ k w => .program (flashDie (regA k w)) (flashBlock (regA k w)) (flashPage (regA k w)) },
   { cmd := .ferase, form := { op := 0x72, useD := false, useA := true, useB := false, mask := 0x61 }, cap := 10
     ok := fun s k w => addressOk s (regA k w) 8192 ∧ blockOpen s (regA k w) ∧
       (s.block (flashDie (regA k w)) (flashBlock (regA k w))).use ≠ .retired ∧ (s.die (flashDie (regA k w))).lost = false
     op := fun _ k w => .erase (flashDie (regA k w)) (flashBlock (regA k w)) },
   { cmd := .frecord, form := { op := 0x73, useD := false, useA := true, useB := true, mask := 0x60 }, cap := 9
     ok := fun s k w => addressOk s (regA k w) 6144 ∧ (regB k w).toNat + 32 ≤ 16384
     op := fun _ k w => .readRecord (flashDie (regA k w)) (flashBlock (regA k w)) (flashPage (regA k w)) (regB k w).toNat },
   { cmd := .ftemp, form := { op := 0x74, useD := false, useA := true, useB := false, mask := 0x60 }, cap := 9
     ok := fun s k w => (regA k w).toNat < s.part.variant.dies
     op := fun _ k w => .readTemp (regA k w).toNat },
   { cmd := .freserveTake, form := { op := 0x75, useD := false, useA := true, useB := true, mask := 0x61 }, cap := 10
     ok := fun s k w => w.mod.getLsbD 0 = false ∧ s.sec.level = .opened ∧ (regA k w).toNat < s.part.variant.dies ∧
       (s.die (regA k w).toNat).lost = false ∧ s.reelBlocks (regA k w).toNat < 16 ∧
       (s.bestFree (regA k w).toNat .spare).isSome = true
     op := fun s k w => .answered 0 (BitVec.ofNat 64 ((s.bestFree (regA k w).toNat .spare).getD 0)) },
   { cmd := .freserveReturn, form := { op := 0x75, useD := false, useA := true, useB := true, mask := 0x61 }, cap := 10
     ok := fun s k w => w.mod.getLsbD 0 = true ∧ s.sec.level = .opened ∧ (regA k w).toNat < s.part.variant.dies ∧
       (s.die (regA k w).toNat).lost = false ∧ (regB k w).toNat < 5600 ∧
       s.reelOwned (regA k w).toNat (regB k w).toNat = true
     op := fun _ k w => .give (regA k w).toNat (regB k w).toNat },
   { cmd := .uncouple, form := { op := 0x81, useD := false, useA := true, useB := false, mask := 0 }, cap := 5
     ok := fun s k w => (regA k w).toNat < 32768 ∧ ((s.carriage (regA k w).toNat).coupled = true ∨
       (s.carriage (regA k w).toNat).draining = true) ∧ (k.comp = 0 ∨ (s.carriage (regA k w).toNat).comp = k.comp)
     op := fun _ k w => .uncouple (regA k w).toNat },
   { cmd := .cxsave, form := { op := 0xA2, useD := false, useA := true, useB := true, mask := 0 }, cap := 8
     ok := fun s k w => s.part.codec = true ∧ (regA k w).toNat < 2048 ∧
       (k.comp = 0 ∨ (s.codecCtx (regA k w).toNat).grant = some k.comp) ∧ spanOk s k (regB k w) w.imm.toNat 132160
     op := fun _ k w => .saveCodec (regA k w).toNat (regB k w).toNat w.imm.toNat },
   { cmd := .cxrestore, form := { op := 0xA3, useD := false, useA := true, useB := true, mask := 0 }, cap := 8
     ok := fun s k w => s.part.codec = true ∧ (regA k w).toNat < 2048 ∧
       (k.comp = 0 ∨ (s.codecCtx (regA k w).toNat).grant = some k.comp) ∧ spanOk s k (regB k w) w.imm.toNat 132160
     op := fun _ k w => .restoreCodec (regA k w).toNat (regB k w).toNat w.imm.toNat },
   { cmd := .hdmard, form := { op := 0xC5, useD := true, useA := true, useB := true, mask := 0 }, cap := 11
     ok := fun s k w => (regD k w).toNat ≤ 2 ^ 24 ∧ spanOk s k (regB k w) (w.imm.toNat % 2 ^ 24) (regD k w).toNat
     op := fun s k w => .hostRead (s.dmaFrom k) (regA k w).toNat (regD k w).toNat (regB k w).toNat (w.imm.toNat % 2 ^ 24) },
   { cmd := .hdmawr, form := { op := 0xC6, useD := true, useA := true, useB := true, mask := 0 }, cap := 11
     ok := fun s k w => (regD k w).toNat ≤ 2 ^ 24 ∧ spanOk s k (regB k w) (w.imm.toNat % 2 ^ 24) (regD k w).toNat
     op := fun s k w => .hostWrite (s.dmaFrom k) (regA k w).toNat (regD k w).toNat (regB k w).toNat (w.imm.toNat % 2 ^ 24) },
   { cmd := .mountCheckpoint, form := { op := 0xD0, useD := false, useA := false, useB := false, mask := 1 }, cap := 17
     ok := fun s _ w => w.mod.getLsbD 0 = false ∧ s.boot.parked = true ∧ s.mnt.state = 0 ∧ s.sec.sanFailed = false
     op := fun _ _ _ => .mount },
   { cmd := .mountFullScan, form := { op := 0xD0, useD := false, useA := false, useB := false, mask := 1 }, cap := 17
     ok := fun s _ w => w.mod.getLsbD 0 = true ∧ s.boot.parked = true ∧ s.mnt.state = 0 ∧ s.sec.sanFailed = false
     op := fun _ _ _ => .mount },
   { cmd := .ckpt, form := { op := 0xD1, useD := false, useA := false, useB := false, mask := 0 }, cap := 17
     ok := fun s _ _ => s.mnt.state = 4, op := fun _ _ _ => .checkpoint }]

/-- The lowest free ticket of a context is `n` (R293). -/
def LowestFree (k : KCtx) (n : Nat) : Prop :=
  n < 64 ∧ (∀ x ∈ k.tickets, x.num ≠ n) ∧ ∀ m, m < n → ∃ x ∈ k.tickets, x.num = m

/-- The context after the unit has accepted an asynchronous instruction under ticket `n`: g1 is 0, g2 the ticket, z is set,
the ticket is in use, and the journal has one entry more. -/
structure Accepted (k k' : KCtx) (op : Nat) (w : KWord) (n : Nat) : Prop where
  regs : k'.regs = (setReg (setReg k 1 0) 2 (BitVec.ofNat 64 n)).regs
  flags : k'.flags = { k.flags with z := true }
  pc : k'.pc = k.pc + 8
  counts : k'.count = k.count + 1 ∧ k'.retired = k.retired + 1
  journal : k'.journal = k.journal ++ [{ entryOf k op w [(1, 0), (2, BitVec.ofNat 64 n)] (some true) with takes := some n }]
  position : k'.jpos = k.jpos + 1
  tickets : ∀ m, (∃ x ∈ k'.tickets, x.num = m) ↔ m = n ∨ ∃ x ∈ k.tickets, x.num = m
  rest : k'.held = k.held ∧ k'.epoch = k.epoch ∧ k'.wait = k.wait ∧ k'.cap = k.cap ∧ k'.comp = k.comp ∧ k'.inst = k.inst

/-! ### Placement groups, namespaces, buffers, carriages and codec contexts (R296, R297, R301 to R303, R388) -/

/-- Only placement groups, and the journal's tail with its write sequence value, may differ, beside the reel. -/
def OnlyPgroups (s t : State) : Prop :=
  t = { reelPart s t with zns := { s.zns with pgroups := t.zns.pgroups, seq := t.zns.seq }
                          jrn := { s.jrn with tail := t.jrn.tail, tailAt := t.jrn.tailAt, tailSeq := t.jrn.tailSeq } }

/-- Placement group `p` becomes `v`; every other one, and everything else, is as it was. -/
def PgroupBecomes (s t : State) (p : Nat) (v : Option PGroup) : Prop :=
  t.pgroup p = v ∧ (∀ q, q ≠ p → t.pgroup q = s.pgroup q) ∧ OnlyPgroups s t

/-- A compartment number that PGCTL and CXGRANT accept: the steward, or one that is not Free (R296). -/
def CompOk (s : State) (c : Nat) : Prop := c ≤ 1023 ∧ (c ≠ 0 → (s.comp c).state ≠ .free)

/-- What R109 and R597 ask of a descriptor, whose carriage is `c`, for a reel of compartment `who`: every check passes, and `i` is
the lowest free index of the table. -/
structure Couplable (s : State) (w0 w1 w2 : Nat) (replace : Bool) (who i : Nat) (c : Carriage) : Prop where
  described : c = ofDescriptor w0 w1 w2
  fields : badDescriptor w0 w1 w2 = false
  codec : c.codec = true → s.part.codec = true ∧ c.handleType ≠ 2
  free : s.freeCarriage = some i
  unparked : s.boot.parked = false
  handle : s.handleHolder c.handleType c.handle = some (c.comp, c.nsid)
  alone : replace = true ∨ ∀ x e, (x, e) ∈ s.car.table → e.coupled = true → e.draining = false →
    ¬ (e.handleType = c.handleType ∧ e.handle = c.handle)
  key : c.encrypt = true → look 0 s.sec.keys c.keySlot ≠ 0 ∧ (c.keySlot = c.comp ∧ 1 ≤ c.keySlot ∧ c.keySlot ≤ 1023 ∨
    c.comp = 0 ∧ 1025 ≤ c.keySlot ∧ c.keySlot ≤ 1038)
  owner : (who = 0 ∨ c.comp = who) ∧ 16 ≤ c.owner ∧ (s.owner c.owner).map (·.comp) = some c.comp
  classes : (s.comp c.comp).res.cls ≤ c.readClass ∧ (s.comp c.comp).res.cls ≤ c.writeClass
  thawed : s.frozen c.comp = false

/-- Only buffers' records may differ, beside the reel. -/
def OnlyBuffers (s t : State) : Prop := t = { reelPart s t with bpm := { s.bpm with bufs := t.bpm.bufs } }

/-- The owner is registered to the reel's compartment (R302). -/
def OwnsId (s : State) (k : KCtx) (o : Word) : Prop := ∃ x, s.owner o.toNat = some x ∧ x.comp = k.comp

/-! ### WAIT (R293) -/

/-- What a WAIT's conditions are, in the order of its `mod` bits (R293): its ticket has completed, any ticket has, the event
queue is not empty, the deadline has passed, a Reel Halt is pending. -/
def conditions (s : State) (k : KCtx) (i : KInst) (a b : Word) : List Bool :=
  [k.tickets.any (fun t => decide (t.num = a.toNat) && t.done.isSome), k.tickets.any (fun t => t.done.isSome),
   !i.events.isEmpty, decide (b.toNat ≤ s.tim.now), k.haltAt.isSome]

/-- The mask of the named conditions that hold. -/
def heldMask (mod : BitVec 9) (cs : List Bool) : Nat :=
  sumBy (fun i => if mod.getLsbD i ∧ cs.getD i false then 2 ^ i else 0) [0, 1, 2, 3, 4]

/-- The ticket that a WAIT delivers: with `mod` [1] the lowest-numbered completed one, else the one it names. -/
def Delivers (k : KCtx) (mod : BitVec 9) (a : Word) (x : Ticket) : Prop :=
  x ∈ k.tickets ∧ x.done.isSome = true ∧
    (mod.getLsbD 1 = true ∧ (∀ y ∈ k.tickets, y.done.isSome = true → x.num ≤ y.num) ∨
     mod.getLsbD 1 = false ∧ mod.getLsbD 0 = true ∧ x.num = a.toNat)

/-- A WAIT of the conditions `mod` returns to the reel: g3 is the mask; with a ticket g1 is its status, g2 its result, g4 its
number, and it is free; with none g1 is 0; z is g1 = 0; the budget starts again. -/
def WaitReturns (i : Instr) (s : State) (c : Nat) (k : KCtx) (mod : BitVec 9) (a b : Word) (q : KInst) : Prop :=
  (∀ x, Delivers k mod a x → x.dmaFault = none → ∀ st res, x.done = some (st, res) →
    ∃ k', Goes i s (fun t => t.kctx c = some k' ∧ OnlyReel s t c) ∧
      k'.regs = (setRegs k [(3, BitVec.ofNat 64 (heldMask mod (conditions s k q a b))), (1, BitVec.ofNat 64 st), (2, res),
        (4, BitVec.ofNat 64 x.num)]).regs ∧
      k'.tickets = k.tickets.filter (fun y => decide (y.num ≠ x.num)) ∧ k'.flags = { k.flags with z := decide (st = 0) } ∧
      k'.pc = k.pc + 8 ∧ k'.count = 0 ∧ k'.retired = k.retired + 1 ∧ k'.wait = .ready ∧
      k'.journal.length = k.journal.length + 1 ∧ k'.jpos = k.jpos + 1 ∧ k'.held = k.held ∧ k'.epoch = k.epoch) ∧
  ((∀ x, ¬ Delivers k mod a x) →
    ∃ k', Goes i s (fun t => t.kctx c = some k' ∧ OnlyReel s t c) ∧
      k'.regs = (setRegs k [(3, BitVec.ofNat 64 (heldMask mod (conditions s k q a b))), (1, 0)]).regs ∧
      k'.tickets = k.tickets ∧ k'.flags = { k.flags with z := true } ∧
      k'.pc = k.pc + 8 ∧ k'.count = 0 ∧ k'.retired = k.retired + 1 ∧ k'.wait = .ready ∧
      k'.journal.length = k.journal.length + 1 ∧ k'.jpos = k.jpos + 1 ∧ k'.held = k.held ∧ k'.epoch = k.epoch) ∧
  (∀ x st, Delivers k mod a x → x.dmaFault = some st → TrapsWith i s c k 0x0C st)

/-! ### Host commands (R346, R360, R431, R474) -/

/-- The command completes with a status: its completion entry is among the outputs. -/
def Completed (t : State) (h : HostCmd) (st : Status) : Prop :=
  ∃ c, Output.cqe c ∈ t.hif.out ∧ c.cmd = h ∧ c.status = st ∧ c.dnr = st.dnr

/-- The command completes with a status, and no zone, carriage, block, buffer, namespace, reel or compartment setting
changes. -/
def OnlyCompletes (i : Instr) (s : State) (h : HostCmd) (st : Status) : Prop :=
  Goes i s (fun t => Completed t h st ∧ t.zns = s.zns ∧ t.car = s.car ∧ t.fls = s.fls ∧ t.bpm = s.bpm ∧ t.kry = s.kry ∧
    t.cmp = s.cmp ∧ t.sec = s.sec ∧ t.jrn = s.jrn)

/-- An I/O command that is fetched and passes the first checks: the queue is served, the module is unparked, no sanitize
runs, no reserved field is set, and the compartment is not frozen (R15, R346, R364, R421, R561). -/
structure IoReady (s : State) (h : HostCmd) : Prop where
  fetched : s.fetchable h = true
  queue : h.qid ≠ 0
  unparked : s.boot.parked = false
  sanitize : s.sec.sanActive = false
  fields : h.fused = false ∧ h.rsvd = false
  thawed : s.frozen h.comp = false

/-- The command names LBA `slba` of namespace `n`: unit `u` of zone `z`, which carriage `c` serves, with key `key`, and no
reset of the zone is pending (R55, R107, R558). -/
structure OnZone (s : State) (h : HostCmd) (slba : Nat) (n : NsEntry) (z u c key : Nat) : Prop where
  space : s.space h.nsid = some n
  zoned : ∃ p, n.kind = .zoned p
  place : s.placeOf n slba = some (some z, u)
  carriage : s.carriageFor h.comp (some z) = some c
  key : s.keyFor c = some key
  noReset : s.resetPending z = false

/-- `nlb` blocks from `slba` lie in the namespace. -/
def InSpace (s : State) (n : NsEntry) (slba nlb : Nat) : Prop := slba + nlb ≤ s.spaceLbas n

/-- A write of `len` units at the write pointer of zone `z` takes effect: the write pointer moves by `len`, the zone is Full
where it reaches ZCAP and in state `st` otherwise, no other zone and no data changes, and a flight carries the command. -/
def WriteAdmitted (i : Instr) (s : State) (h : HostCmd) (k : FlightKind) (z len c key : Nat) (st : ZState) : Prop :=
  Goes i s (fun t => (t.zone z).wp = (s.zone z).wp + len ∧
    (t.zone z).state = (if (s.zone z).wp + len = (s.zone z).cap then .full else st) ∧
    (∀ y, y ≠ z → t.zone y = s.zone y) ∧ t.zns.data = s.zns.data ∧
    ∃ v ∈ t.car.flights, v.id = s.car.nextFlight ∧ v.cmd = h ∧ v.kind = k ∧ v.zone = some z ∧ v.start = (s.zone z).wp ∧
      v.len = len ∧ v.carriage = c ∧ v.key = key)

/-! ### The data path and the flash -/

/-- The tables of zones, rows, dies, blocks, landing rows, carriages and compartments list every index once, in rising order,
and no entry that equals its default. -/
structure Tables (s : State) : Prop where
  zones : canon Zone.none s.zns.zones = true
  rows : canon Row.none s.zns.rows = true
  dies : canon Die.idle s.fls.dies = true
  blocks : (s.fls.blocks.map (·.1)).Pairwise (· < ·)
  landing : canon none s.fls.landing = true
  carriages : canon Carriage.none s.car.table = true
  comps : canon Comp.free s.cmp.table = true

/-- The only command in flight is the host write `v` of one segment `g`, staged in buffer `b`, to the landed zone `z`, which is
in no pair; no key is being erased. -/
structure LoneWrite (s : State) (v : Flight) (g : Seg) (z b : Nat) : Prop where
  alone : s.car.flights = [v]
  kind : v.kind = .write ∧ v.peer = none ∧ v.ticket = none ∧ v.group = false ∧ v.squashed = false ∧ v.mirrorWait = false
  status : v.status = .success
  fields : v.prchk = 0 ∧ v.zone = some z ∧ v.segs = [g] ∧ g.off = 0 ∧ g.len = v.len ∧ 0 < g.len
  buffer : g.buffer = some b
  landed : (s.zone z).direct = false
  calm : s.sec.keyErasing = none

/-- Nothing waits for landing space: every landing unit stands on a block that still yields it, no zone is pinned, no conventional
unit waits for room, and what staging holds is within the dirty limit (R75, R95, R167, R217). -/
structure LandingCalm (s : State) : Prop where
  units : ∀ r w u, (r, some w) ∈ s.fls.landing → u ∈ w.units → s.deadBlock u.die u.block = false
  zones : ∀ z v, (z, v) ∈ s.zns.zones → v.pinned = false
  conv : s.convWaiting = []
  dirty : s.dirtyUnits ≤ s.plog.limitMib * 256

/-- `s` with the clocks that run in `t`: work that arrives in a domain starts its clock (R34). -/
def clocked (s t : State) : State := { s with lvl := { s.lvl with clocks := t.lvl.clocks } }

/-- The message has gone out, or waits in the send queue of a port for room in its replay buffer; where no port had anything
waiting and every replay buffer had room it has gone out (R520, R522). -/
def Tells (s t : State) (o : Output) : Prop :=
  (o ∈ t.hif.out ∨ ∃ p ∈ t.cpl.ports, ∃ w ∈ p.sendQueue, w.out = o) ∧
  ((∀ p ∈ s.cpl.ports, p.sendQueue = [] ∧ p.replayBuf.length < 512) → o ∈ t.hif.out)

/-- Nothing of the zone engine changes but the write sequence, of which programs that start may take values (R203). -/
def SameZones (s t : State) : Prop := t.zns = { s.zns with seq := t.zns.seq }

/-- The segment takes the path with a twin, and the dirty limit lets it (R115, R217). -/
def Twinned (s : State) (v : Flight) (g : Seg) : Prop :=
  (s.carriage v.carriage).twin = true ∧ s.plog.limitMib ≠ 0 ∧ s.dirtyUnits + g.len ≤ s.plog.limitMib * 256

/-- The only command in flight is the host read `v` of one sense `g`, still in its first tiers, on zone `z`, which is in no
pair; no key is being erased and no compartment is being saved. -/
structure LoneRead (s : State) (v : Flight) (g : Sense) (z : Nat) : Prop where
  alone : s.car.flights = [v]
  kind : v.kind = .read ∧ v.peer = none ∧ v.ticket = none ∧ v.group = false ∧ v.squashed = false ∧ v.forwarded = false
  status : v.status = .success
  fields : v.zone = some z ∧ v.senses = [g] ∧ g.done = false ∧ g.around = false ∧ g.tier < 3
  unpaired : s.zonePair z = none
  calm : s.sec.keyErasing = none ∧ ∀ m c, (m, c) ∈ s.cmp.table → c.state ≠ .saving

/-! ### Admin commands (R346, R348, R357, R364, R413 to R418, R561) -/

/-- An admin command that is fetched and passes the first checks: the controller is served, the module is unparked, no sanitize
runs, no reserved field is set, and the compartment is not frozen. -/
structure AdminReady (s : State) (h : HostCmd) : Prop where
  fetched : s.fetchable h = true
  queue : h.qid = 0
  unparked : s.boot.parked = false
  sanitize : s.sec.sanActive = false
  fields : h.fused = false ∧ h.rsvd = false
  thawed : s.frozen h.comp = false

/-- The command completes with success, and the state satisfies `P`. -/
def Serves (i : Instr) (s : State) (h : HostCmd) (P : State → Prop) : Prop := Goes i s (fun t => Completed t h .success ∧ P t)

/-- The command completes with success and `dw` in dword 0. -/
def CompletesWith (i : Instr) (s : State) (h : HostCmd) (dw : BitVec 32) (P : State → Prop) : Prop :=
  Goes i s (fun t => (∃ c, Output.cqe c ∈ t.hif.out ∧ c.cmd = h ∧ c.status = .success ∧ c.dw0 = dw) ∧ P t)

/-- A Compartment Control command of the steward finds compartment `c` with none waiting or in progress on it. -/
structure ControlReady (s : State) (h : HostCmd) (c : Nat) : Prop where
  ready : AdminReady s h
  steward : h.comp = 0
  tenant : 1 ≤ c ∧ c < 1024
  alone : (s.comp c).control = [] ∧ (s.comp c).reset = none ∧ (s.comp c).waiting = none
  tables : Tables s

/-- A queue as it is created (R346, R355, R415, R416). -/
def HasQueue (t : State) (ctl : Nat) (sq : Bool) (q : CreateQ) : Prop :=
  ∃ e ∈ t.hif.queues, e.ctl = ctl ∧ e.qid = q.qid ∧ e.sq = sq ∧ e.size = q.size ∧ e.head = 0 ∧ e.base = q.base ∧
    (sq = true → e.cq = q.cqid ∧ e.tail = 0) ∧ (sq = false → e.vector = q.vector ∧ e.ien = q.ien)

/-! ### Reset and the protection level (R544, R546, R547) -/

/-- A module whose seal fuse is blown stands at Sealed, and no lowering runs on it. -/
def Sealed (s : State) : Prop :=
  s.part.sealFuse = true → s.sec.level = .sealed ∧ (s.sec.sanActive = true → s.sec.sanAction ≠ .lowering)

end Sys2Proof
end

