-- ==== Sys2Proof/Certificates/Slice0/Obligations.lean ====
section
/-! DEFINITION. The statements for the provers. -/

open Sys2Proof Sys2Proof.Machine

/-! ## The step -/

/-- A step takes the command at the front of the queue and carries it out on the state with the rest of the queue. -/
def Obligations.StepCarriesOutFrontCommand : Prop :=
  ∀ (s : State) (c : Instr) (rest : List Instr), s.pending = c :: rest → step s = exec c { s with pending := rest }

/-- The model's choice (log 2): with no command waiting one nanosecond passes, and nothing but TIM_NOW and its slew
changes. -/
def Obligations.EmptyQueueLetsOneNanosecondPass : Prop :=
  ∀ s : State, s.pending = [] → ∃ t, step s = .next t ∧ t = { s with tim := t.tim } ∧
    (s.tim.running = false → t = s) ∧
    (s.tim.running = true → s.tim.slew = 0 → s.tim.now < 2 ^ 64 - 1 → t.tim.now = s.tim.now + 1) ∧
    (s.tim.now ≤ 2 ^ 64 - 1 → s.tim.now ≤ t.tim.now ∧ t.tim.now ≤ 2 ^ 64 - 1)
/-! ## Krytfer inside a context -/

/-- R286, R287: every register arithmetic instruction writes g[d] and its flags from g[a] and g[b], and every immediate one from g[a],
g[d] and `imm`, for every register and value, and changes nothing else of the context but its `pc` and counts. -/
def Obligations.ArithmeticWritesResultAndFlags : Prop :=
  (∀ row ∈ arithmeticRows, ∀ (s : State) (w : KWord) (k : KCtx),
    Ready s { op := row.op, useD := true, useA := true, useB := true, mask := 0 } false w k →
    Retires (row.cmd w) s w.ctx (stepped { setReg k w.d.toNat (row.value (regA k w) (regB k w)) with
      flags := row.flags k.flags (regA k w) (regB k w) (row.value (regA k w) (regB k w)) } (k.pc + 8))) ∧
  (∀ row ∈ immediateRows, ∀ (s : State) (w : KWord) (k : KCtx),
    Ready s { op := row.op, useD := true, useA := row.useA, useB := false, mask := 0 } false w k →
    Retires (row.cmd w) s w.ctx (stepped { setReg k w.d.toNat (row.value (regA k w) (regD k w) w.imm) with
      flags := row.flags k.flags (regA k w) w.imm (row.value (regA k w) (regD k w) w.imm) } (k.pc + 8)))

/-- R265: g0 reads 0 and discards writes; every other general register reads what was last written to it, and a write
leaves the others. -/
def Obligations.RegisterZeroReadsZeroAndDiscardsWrites : Prop :=
  ∀ (k : KCtx), k.regs.length = 31 →
    reg k 0 = 0 ∧ (∀ v, setReg k 0 v = k) ∧
    ∀ i v, 0 < i → i < 32 → (setReg k i v).regs.length = 31 ∧ reg (setReg k i v) i = v ∧
      (∀ j, j ≠ i → reg (setReg k i v) j = reg k j) ∧ setReg k i v = { k with regs := (setReg k i v).regs }

/-- R273, R288, R289: CMP and CMPI write the flags of the difference and no register; B, CALL, RET, JR and CALLR move the `pc`
to their target, or past the branch where the condition of B's code does not hold, CALL and CALLR write g31, and codes 11 to 15
of B trap 0x01 with detail 2. -/
def Obligations.ComparesAndBranchesDoWhatTheirRowsSay : Prop :=
  ∀ (s : State) (w : KWord) (k : KCtx), k.codeLen ≤ 2 ^ 20 →
    (Ready s { op := 0x30, useD := false, useA := true, useB := true, mask := 0 } false w k →
      Retires (.cmp w) s w.ctx (stepped { k with
        flags := differenceFlags k.flags (regA k w) (regB k w) (regA k w - regB k w) } (k.pc + 8))) ∧
    (Ready s { op := 0x31, useD := false, useA := true, useB := false, mask := 0 } false w k →
      Retires (.cmpi w) s w.ctx (stepped { k with
        flags := differenceFlags k.flags (regA k w) (signed w.imm) (regA k w - signed w.imm) } (k.pc + 8))) ∧
    (Ready s { op := 0x32, useD := false, useA := false, useB := false, mask := 15 } false w k → w.mod.toNat ≤ 10 →
      (condition w.mod.toNat k.flags → FetchAddress k (target k w) → Retires (.b w) s w.ctx (stepped k (target k w))) ∧
      (¬ condition w.mod.toNat k.flags → Retires (.b w) s w.ctx (stepped k (k.pc + 8)))) ∧
    (Ready s { op := 0x32, useD := false, useA := false, useB := false, mask := 15 } false w k → 10 < w.mod.toNat →
      TrapsWith (.b w) s w.ctx k 0x01 2) ∧
    (Ready s { op := 0x33, useD := false, useA := false, useB := false, mask := 0 } false w k →
      FetchAddress k (target k w) →
      Retires (.call w) s w.ctx (stepped (setReg k 31 (BitVec.ofNat 64 (k.pc + 8))) (target k w))) ∧
    (Ready s { op := 0x34, useD := false, useA := false, useB := false, mask := 0 } false w k →
      FetchAddress k (reg k 31).toNat → Retires (.ret w) s w.ctx (stepped k (reg k 31).toNat)) ∧
    (Ready s { op := 0x35, useD := false, useA := true, useB := false, mask := 0 } false w k →
      FetchAddress k (regA k w).toNat → Retires (.jr w) s w.ctx (stepped k (regA k w).toNat)) ∧
    (Ready s { op := 0x36, useD := false, useA := true, useB := false, mask := 0 } false w k →
      FetchAddress k (regA k w).toNat →
      Retires (.callr w) s w.ctx (stepped (setReg k 31 (BitVec.ofNat 64 (k.pc + 8))) (regA k w).toNat))

/-- R270, R282, R283, R288 to R290: a branch that is taken traps 0x06 where its target
may not be fetched, with detail 0 where it is misaligned, else with detail 1; a misaligned LD or ST traps 0x06 with detail 0, one
outside scratch or the image with detail 1, a store to the image traps 0x01 with detail 3, and a buffer access without
capability 6 traps 0x02 with detail 6. -/
def Obligations.BranchesLoadsAndStoresTrapAsTheirRulesSay : Prop :=
  (∀ (s : State) (w : KWord) (k : KCtx), k.codeLen ≤ 2 ^ 20 →
    (Ready s { op := 0x32, useD := false, useA := false, useB := false, mask := 15 } false w k →
      w.mod.toNat ≤ 10 → condition w.mod.toNat k.flags → ¬ FetchAddress k (target k w) →
      TrapsWith (.b w) s w.ctx k 0x06 1) ∧
    (Ready s { op := 0x33, useD := false, useA := false, useB := false, mask := 0 } false w k →
      ¬ FetchAddress k (target k w) → TrapsWith (.call w) s w.ctx k 0x06 1) ∧
    (Ready s { op := 0x34, useD := false, useA := false, useB := false, mask := 0 } false w k →
      ¬ FetchAddress k (reg k 31).toNat →
      TrapsWith (.ret w) s w.ctx k 0x06 (if (reg k 31).toNat % 8 = 0 then 1 else 0)) ∧
    (Ready s { op := 0x35, useD := false, useA := true, useB := false, mask := 0 } false w k →
      ¬ FetchAddress k (regA k w).toNat →
      TrapsWith (.jr w) s w.ctx k 0x06 (if (regA k w).toNat % 8 = 0 then 1 else 0)) ∧
    (Ready s { op := 0x36, useD := false, useA := true, useB := false, mask := 0 } false w k →
      ¬ FetchAddress k (regA k w).toNat →
      TrapsWith (.callr w) s w.ctx k 0x06 (if (regA k w).toNat % 8 = 0 then 1 else 0))) ∧
  (∀ (s : State) (w : KWord) (k : KCtx),
    (Ready s { op := 0x40, useD := true, useA := true, useB := true, mask := 0x1F } false w k →
      (w.mod.toNat / 8 = 3 → TrapsWith (.ld w) s w.ctx k 0x01 2) ∧
      (w.mod.toNat / 8 = 2 → k.cap.getLsbD 6 = false → TrapsWith (.ld w) s w.ctx k 0x02 6) ∧
      (w.mod.toNat / 8 ≤ 1 → (regA k w + signed w.imm).toNat % 2 ^ (w.mod.toNat % 4) ≠ 0 →
        TrapsWith (.ld w) s w.ctx k 0x06 0) ∧
      (w.mod.toNat / 8 ≤ 1 → (regA k w + signed w.imm).toNat % 2 ^ (w.mod.toNat % 4) = 0 →
        (∀ z, spaceSize s k (w.mod.toNat / 8) 0 = some z →
          z < (regA k w + signed w.imm).toNat + 2 ^ (w.mod.toNat % 4)) →
        TrapsWith (.ld w) s w.ctx k 0x06 1)) ∧
    (Ready s { op := 0x41, useD := true, useA := true, useB := true, mask := 0x1B } false w k →
      (w.mod.toNat / 8 = 1 → TrapsWith (.st w) s w.ctx k 0x01 3) ∧
      (w.mod.toNat / 8 = 2 → k.cap.getLsbD 6 = false → TrapsWith (.st w) s w.ctx k 0x02 6) ∧
      (w.mod.toNat / 8 = 0 → (regA k w + signed w.imm).toNat % 2 ^ (w.mod.toNat % 4) ≠ 0 →
        TrapsWith (.st w) s w.ctx k 0x06 0) ∧
      (w.mod.toNat / 8 = 0 → (regA k w + signed w.imm).toNat % 2 ^ (w.mod.toNat % 4) = 0 →
        16384 < (regA k w + signed w.imm).toNat + 2 ^ (w.mod.toNat % 4) → TrapsWith (.st w) s w.ctx k 0x06 1)))

/-- R285, R284, R598, R282: TRAP stops its reel with code 0x0A and `imm` [15:0]; an unassigned opcode with code 0x01 and
detail 0; an unassigned sub-operation of PGCTL, NSCTL, ZCTL and CMPSET with code 0x08 and detail 7. -/
def Obligations.TrapAndUnassignedWordsStopTheReel : Prop :=
  (∀ (s : State) (w : KWord) (k : KCtx),
    Ready s { op := 0x01, useD := false, useA := false, useB := false, mask := 0 } false w k →
    TrapsWith (.trap w) s w.ctx k 0x0A (w.imm.toNat % 2 ^ 16)) ∧
  (∀ (s : State) (w : KWord) (k : KCtx) (x : Word), x.toNat = wordOf (x.toNat / 2 ^ 56) w →
    x.toNat / 2 ^ 56 ∉ [0x00, 0x01, 0x02, 0x03, 0x04, 0x10, 0x11, 0x12, 0x13, 0x14, 0x15, 0x16, 0x17, 0x18, 0x19, 0x1A,
      0x1B, 0x1C, 0x1D, 0x20, 0x21, 0x22, 0x23, 0x24, 0x25, 0x26, 0x27, 0x28, 0x29, 0x2A, 0x30, 0x31, 0x32, 0x33, 0x34,
      0x35, 0x36, 0x40, 0x41, 0x42, 0x50, 0x51, 0x60, 0x61, 0x62, 0x63, 0x64, 0x65, 0x70, 0x71, 0x72, 0x73, 0x74, 0x75,
      0x80, 0x81, 0x82, 0x90, 0x91, 0x92, 0x93, 0x94, 0xA0, 0xA1, 0xA2, 0xA3, 0xB0, 0xB1, 0xB2, 0xB3, 0xC0, 0xC1, 0xC2,
      0xC3, 0xC4, 0xC5, 0xC6, 0xD0, 0xD1, 0xD2, 0xD3, 0xE0] →
    Ready s { op := x.toNat / 2 ^ 56, useD := true, useA := true, useB := true, mask := 0x1FF } false w k →
    TrapsWith (.unassignedOpcode w.ctx x) s w.ctx k 0x01 0) ∧
  (∀ op cap n : Nat, (op, cap, n) ∈ [(0x62, 2, 6), (0x63, 4, 3), (0x64, 1, 5), (0xE0, 18, 6)] →
    ∀ (s : State) (w : KWord) (k : KCtx) (x : Word), x.toNat = wordOf op w → n ≤ w.mod.toNat →
    Ready s { op := op, useD := false, useA := true, useB := decide (op ≠ 0x64), mask := 0xF } false w k →
    k.cap.getLsbD cap = true → s.frozen k.comp = false →
    TrapsWith (.unassignedOpcode w.ctx x) s w.ctx k 0x08 7)

/-- R285, R291, R266: NOP does nothing but step; MFS reads `pc`, `cap`, `ctx` and `flags`; MTS writes `flags`, and traps 0x02
with detail 0x41 for any other selection; none makes a journal entry or holds an effect. -/
def Obligations.SpecialRegistersAreReadAndOnlyFlagsWritten : Prop :=
  ∀ (s : State) (w : KWord) (k : KCtx),
    (Ready s { op := 0x00, useD := false, useA := false, useB := false, mask := 0 } false w k →
      Retires (.nop w) s w.ctx (stepped k (k.pc + 8))) ∧
    (Ready s { op := 0x50, useD := true, useA := false, useB := false, mask := 3 } false w k →
      (w.mod.toNat = 0 → Retires (.mfs w) s w.ctx (stepped (setReg k w.d.toNat (BitVec.ofNat 64 k.pc)) (k.pc + 8))) ∧
      (w.mod.toNat = 1 → Retires (.mfs w) s w.ctx (stepped (setReg k w.d.toNat k.cap) (k.pc + 8))) ∧
      (w.mod.toNat = 2 → Retires (.mfs w) s w.ctx (stepped (setReg k w.d.toNat (BitVec.ofNat 64 (w.ctx / 4 +
        w.ctx % 4 * 2 ^ 6 + (if k.relieved then 2 ^ 8 else 0) + k.comp * 2 ^ 9 + k.slot * 2 ^ 19 + k.epoch.toNat * 2 ^ 32)))
        (k.pc + 8))) ∧
      (w.mod.toNat = 3 → Retires (.mfs w) s w.ctx (stepped (setReg k w.d.toNat (BitVec.ofNat 64
        ((if k.flags.z then 1 else 0) + (if k.flags.n then 2 else 0) + (if k.flags.c then 4 else 0) +
          (if k.flags.v then 8 else 0)))) (k.pc + 8)))) ∧
    (Ready s { op := 0x51, useD := false, useA := true, useB := false, mask := 3 } false w k →
      (w.mod.toNat = 3 → Retires (.mts w) s w.ctx (stepped { k with
        flags := ⟨(regA k w).getLsbD 0, (regA k w).getLsbD 1, (regA k w).getLsbD 2, (regA k w).getLsbD 3⟩ } (k.pc + 8))) ∧
      (w.mod.toNat ≠ 3 → TrapsWith (.mts w) s w.ctx k 0x02 0x41))

/-- R270, R290: LD writes g[d] with the 1, 2, 4 or 8 bytes at g[a] + sext(`imm`) of scratch, the image or a buffer, extended as
`mod` [2] says, and changes no memory. -/
def Obligations.LoadReadsItsBytesAndExtendsThem : Prop :=
  ∀ (s : State) (w : KWord) (k : KCtx),
    Ready s { op := 0x40, useD := true, useA := true, useB := true, mask := 0x1F } false w k →
    (regA k w + signed w.imm).toNat % 2 ^ (w.mod.toNat % 4) = 0 →
    Readable s k w.ctx (w.mod.toNat / 8) (regB k w) (regA k w + signed w.imm).toNat (2 ^ (w.mod.toNat % 4)) →
    Retires (.ld w) s w.ctx (stepped (setReg k w.d.toNat (extended (w.mod.getLsbD 2) (2 ^ (w.mod.toNat % 4))
      (spaceNat s k (w.mod.toNat / 8) (regB k w) (regA k w + signed w.imm).toNat (2 ^ (w.mod.toNat % 4))))) (k.pc + 8))

/-- R270, R290: ST stores the low 1, 2, 4 or 8 bytes of g[d] at g[a] + sext(`imm`), and COPY the `imm` [16:0] bytes at g[a] at
g[d]; no other byte, register or flag changes. -/
def Obligations.StoreAndCopyWriteExactlyTheirBytes : Prop :=
  ∀ (s : State) (w : KWord) (k : KCtx), ByteTables s k →
    (Ready s { op := 0x41, useD := true, useA := true, useB := true, mask := 0x1B } false w k →
      (regA k w + signed w.imm).toNat % 2 ^ (w.mod.toNat % 4) = 0 →
      Writable s k (w.mod.toNat / 8) (regB k w) (regA k w + signed w.imm).toNat (2 ^ (w.mod.toNat % 4)) →
      Stores (.st w) s w.ctx k (w.mod.toNat / 8) (regB k w) (regA k w + signed w.imm).toNat (2 ^ (w.mod.toNat % 4))
        (fun i => BitVec.ofNat 8 ((regD k w).toNat / 256 ^ i))) ∧
    (Ready s { op := 0x42, useD := true, useA := true, useB := true, mask := 0x78 } false w k →
      ¬ (w.mod.toNat / 8 % 4 = 2 ∧ w.mod.toNat / 32 = 2) → w.imm.toNat % 2 ^ 17 ≤ 65536 →
      Readable s k w.ctx (w.mod.toNat / 8 % 4) (regB k w) (regA k w).toNat (w.imm.toNat % 2 ^ 17) →
      Writable s k (w.mod.toNat / 32) (regB k w) (regD k w).toNat (w.imm.toNat % 2 ^ 17) →
      Stores (.copy w) s w.ctx k (w.mod.toNat / 32) (regB k w) (regD k w).toNat (w.imm.toNat % 2 ^ 17)
        (fun i => spaceByte s k (w.mod.toNat / 8 % 4) (regB k w) ((regA k w).toNat + i)))

/-! ## Unit instructions, the journal, tickets and commits -/

/-- R274, R278, R292, R304 to R307: every commit-only instruction that passes its checks writes g1 = 0 and z, and its effect is
held, after those already held, and nothing else changes. -/
def Obligations.CommitOnlyInstructionsHoldTheirEffect : Prop :=
  ∀ row, IsHeldRow row → ∀ (s : State) (w : KWord) (k : KCtx), Ready s row.form false w k → Granted s k (row.cap k w) →
    row.ok s k w →
    Retires (row.cmd w) s w.ctx (stepped { setReg k 1 0 with
      flags := { k.flags with z := true }, held := k.held ++ [row.held k w] } (k.pc + 8))

/-- R275, R292, R293, R299, R301, R303, R305, R306: every asynchronous instruction that passes its checks takes the lowest free
ticket, writes g1 = 0 and the ticket to g2, is journalled, and its unit holds the operation under that ticket; no
table of zones, namespaces or units changes (programs that start may take write sequence values, R203). -/
def Obligations.AsynchronousInstructionsTakeTheLowestFreeTicket : Prop :=
  ∀ row, IsTicketRow row → ∀ (s : State) (w : KWord) (k : KCtx) (n : Nat), Ready s row.form false w k →
    Granted s k (some row.cap) → FreshPosition k → LowestFree k n → row.ok s k w →
    Goes (row.cmd w) s (fun t => (∃ k', t.kctx w.ctx = some k' ∧ Accepted k k' row.form.op w n) ∧
      (∀ d, d ≠ w.ctx → t.kctx d = s.kctx d) ∧
      t.kry.ops = s.kry.ops ++ [{ ctx := w.ctx, inst := k.inst, ticket := n, op := row.op s k w }] ∧
      (∃ q, t.zns = { s.zns with seq := q }) ∧ t.bpm = s.bpm)

/-- R276, R281, R282, R285, R293: an asynchronous instruction without its capability traps 0x02 with the capability's bit; with a
full journal it traps 0x07 with detail 1, and with all 64 tickets in use 0x07 with detail 2. WAIT traps 0x01 where it names
no condition, and 0x08 with detail 8 for a ticket that is not in use. -/
def Obligations.TicketInstructionsTrapWithoutRoomOrTicket : Prop :=
  (∀ row, IsTicketRow row → ∀ (s : State) (w : KWord) (k : KCtx), Ready s row.form false w k → row.ok s k w →
    (k.cap.getLsbD row.cap = false → TrapsWith (row.cmd w) s w.ctx k 0x02 row.cap) ∧
    (Granted s k (some row.cap) → k.journal.length = k.jpos → 256 ≤ k.jpos → TrapsWith (row.cmd w) s w.ctx k 0x07 1) ∧
    (Granted s k (some row.cap) → FreshPosition k → (∀ m, m < 64 → ∃ x ∈ k.tickets, x.num = m) →
      TrapsWith (row.cmd w) s w.ctx k 0x07 2)) ∧
  (∀ (s : State) (w : KWord) (k : KCtx), Ready s { op := 0x02, useD := false, useA := true, useB := true, mask := 0x1F } true w k →
    (w.mod.toNat = 0 → TrapsWith (.wait w) s w.ctx k 0x01 1) ∧
    (w.mod.toNat ≠ 0 → FreshPosition k → w.mod.getLsbD 0 = true → (∀ x ∈ k.tickets, x.num ≠ (regA k w).toNat) →
      TrapsWith (.wait w) s w.ctx k 0x08 8))

/-- R275, R277: an asynchronous instruction that finds its journal position recorded returns the recorded registers and z and
sends nothing to the unit; with other operand values recorded it traps 0x08 with detail 6. A synchronous one whose unit has
kept its result under the instruction's tag (BALLOC and TIMERD are named) returns that result without performing again. -/
def Obligations.RecordedInstructionsReturnTheirRecord : Prop :=
  (∀ row, IsTicketRow row → ∀ (s : State) (w : KWord) (k : KCtx) (e : JEntry), Ready s row.form false w k →
    Granted s k (some row.cap) → row.ok s k w → k.journal[k.jpos]? = some e →
    (e.op = row.form.op → e.args = [regA k w, regB k w, regD k w, w.mod.setWidth 64, w.imm.setWidth 64] →
      ∃ k', Retires (row.cmd w) s w.ctx k' ∧ k'.regs = (setRegs k e.results).regs ∧
        k'.flags = { k.flags with z := e.z.getD k.flags.z } ∧ k'.pc = k.pc + 8 ∧ k'.journal = k.journal ∧
        k'.jpos = k.jpos + 1 ∧ k'.held = k.held) ∧
    ((e.op ≠ row.form.op ∨ e.args ≠ [regA k w, regB k w, regD k w, w.mod.setWidth 64, w.imm.setWidth 64]) →
      TrapsWith (row.cmd w) s w.ctx k 0x08 6)) ∧
  (∀ (s : State) (w : KWord) (k : KCtx) (e : JEntry), FreshPosition k → k.unitKept = [(k.epoch, k.jpos, e)] →
    (Ready s { op := 0x90, useD := false, useA := true, useB := true, mask := 1 } false w k → Granted s k (some 6) →
      ∃ k', Retires (.balloc w) s w.ctx k' ∧ k'.regs = (setRegs k e.results).regs ∧ k'.pc = k.pc + 8 ∧
        k'.journal = k.journal ++ [e] ∧ k'.jpos = k.jpos + 1 ∧ k'.unitKept = k.unitKept) ∧
    (Ready s { op := 0xB0, useD := true, useA := false, useB := false, mask := 0 } false w k →
      ∃ k', Retires (.timerd w) s w.ctx k' ∧ k'.regs = (setRegs k e.results).regs ∧ k'.pc = k.pc + 8 ∧
        k'.journal = k.journal ++ [e] ∧ k'.jpos = k.jpos + 1 ∧ k'.unitKept = k.unitKept))

/-- R291, R294, R295, R301, R302, R304, R305: the instructions that only read answer status 0 with what they read in g2 (TIMERD
writes g[d] alone and sets no status), one journal entry more, and change nothing else. -/
def Obligations.ReadingInstructionsAnswerWhatTheyRead : Prop :=
  ∀ (s : State) (w : KWord) (k : KCtx), FreshPosition k → NotPerformed k →
    (Ready s { op := 0x60, useD := false, useA := true, useB := false, mask := 0xF } false w k → Granted s k (some 0) →
      k.comp = 0 → ∀ row ∈ fieldRows, w.mod.toNat = row.table → w.imm.toNat % 256 = row.field →
      entryExists s row.table (regA k w).toNat →
      Retires (.trd w) s w.ctx (answeredWith k 0x60 w
        (answers 0 [BitVec.ofNat 64 (row.value s (regA k w).toNat)]) (some true))) ∧
    (Ready s { op := 0x82, useD := false, useA := true, useB := false, mask := 3 } false w k → Granted s k (some 0) →
      (regA k w).toNat < 32768 → (k.comp = 0 ∨ (s.carriage (regA k w).toNat).comp = k.comp) →
      Retires (.carrd w) s w.ctx (answeredWith k 0x82 w
        (answers 0 [BitVec.ofNat 64 (carriageWord (s.carriage (regA k w).toNat) w.mod.toNat)]) (some true))) ∧
    (Ready s { op := 0x94, useD := false, useA := true, useB := false, mask := 0 } false w k → Granted s k (some 6) →
      ∀ b, s.buf (regA k w).toNat = some b → (k.comp = 0 ∨ s.ownerComp b.owner = k.comp) →
      Retires (.binfo w) s w.ctx (answeredWith k 0x94 w (answers 0 [BitVec.ofNat 64 b.size]) (some true))) ∧
    (Ready s { op := 0xB0, useD := true, useA := false, useB := false, mask := 0 } false w k →
      Retires (.timerd w) s w.ctx (answeredWith k 0xB0 w [(w.d.toNat, BitVec.ofNat 64 s.tim.now)] none))

/-- R294: TFIND answers 0 and the first zone at or above g[a] in the state asked for, 1 and the end of the table, or 2 and the
next index where it has visited 65,536 entries. -/
def Obligations.TfindAnswersFirstZoneEndOrLimit : Prop :=
  ∀ (s : State) (w : KWord) (k : KCtx), FreshPosition k → NotPerformed k →
    Ready s { op := 0x65, useD := false, useA := true, useB := true, mask := 0xF } false w k → Granted s k (some 0) →
    k.comp = 0 → (regA k w).toNat < s.part.variant.groups * 5000 →
    w.mod.toNat ∈ [0x1, 0x2, 0x3, 0x4, 0xD, 0xE, 0xF] →
    let found := fun z => s.zoneExists z = true ∧ (s.zone z).state.code = w.mod.toNat ∧
      ((regB k w).toNat = 0 ∨ s.zoneNsid z = some (regB k w).toNat)
    let limit := min (s.part.variant.groups * 5000) ((regA k w).toNat + 65536)
    (∀ z, (regA k w).toNat ≤ z → z < limit → found z → (∀ y, (regA k w).toNat ≤ y → y < z → ¬ found y) →
      Retires (.tfind w) s w.ctx (answeredWith k 0x65 w (answers 0 [BitVec.ofNat 64 z]) (some true))) ∧
    ((∀ y, (regA k w).toNat ≤ y → y < limit → ¬ found y) →
      Retires (.tfind w) s w.ctx (answeredWith k 0x65 w (answers
        (if limit = s.part.variant.groups * 5000 then 1 else 2) [BitVec.ofNat 64 limit]) (some false)))

/-- R296: PGCTL creates, deletes, fills, empties, moves and sets placement groups with the statuses of its table; nothing but
the placement group named changes. -/
def Obligations.PlacementGroupsChangeAsTheirTableSays : Prop :=
  ∀ (s : State) (w : KWord) (k : KCtx), FreshPosition k → NotPerformed k →
    canon none s.zns.pgroups = true → s.zns.seq + 1 ≠ 2 ^ 56 - 1 →
    Ready s { op := 0x62, useD := false, useA := true, useB := true, mask := 0xF } false w k → Granted s k (some 2) →
    (regA k w).toNat ≤ 127 →
    let p := (regA k w).toNat
    let b := (regB k w).toNat
    (w.mod.toNat = 0 → CompOk s b →
      (s.pgroup p = none → Answers (.pgctlCreate w) s 0x62 w k 0 [] (fun t => PgroupBecomes s t p
        (some { comp := b, defaultDirect := false, groups := [], nsid := none }))) ∧
      (s.pgroup p ≠ none → Answers (.pgctlCreate w) s 0x62 w k 1 [] (fun t => t = reelPart s t))) ∧
    (w.mod.toNat = 1 →
      (∀ g, s.pgroup p = some g → g.groups = [] → g.nsid = none →
        Answers (.pgctlDelete w) s 0x62 w k 0 [] (fun t => PgroupBecomes s t p none)) ∧
      (s.pgroup p = none → Answers (.pgctlDelete w) s 0x62 w k 1 [] (fun t => t = reelPart s t))) ∧
    (w.mod.toNat = 2 → b < s.part.variant.groups →
      (∀ g, s.pgroup p = some g → g.nsid = none →
        (s.groupPgroup b = none → Answers (.pgctlAddStripeGroup w) s 0x62 w k 0 [] (fun t => ∃ gs,
          PgroupBecomes s t p (some { g with groups := gs }) ∧ ∀ x, x ∈ gs ↔ x = b ∨ x ∈ g.groups)) ∧
        (s.groupPgroup b = some p → Answers (.pgctlAddStripeGroup w) s 0x62 w k 0 [] (fun t => t = reelPart s t)) ∧
        (∀ q, q ≠ p → s.groupPgroup b = some q →
          Answers (.pgctlAddStripeGroup w) s 0x62 w k 2 [] (fun t => t = reelPart s t))) ∧
      (s.pgroup p = none → Answers (.pgctlAddStripeGroup w) s 0x62 w k 1 [] (fun t => t = reelPart s t))) ∧
    (w.mod.toNat = 3 → b < s.part.variant.groups →
      (∀ g, s.pgroup p = some g → g.nsid = none →
        (b ∈ g.groups → Answers (.pgctlRemoveStripeGroup w) s 0x62 w k 0 [] (fun t => ∃ gs,
          PgroupBecomes s t p (some { g with groups := gs }) ∧ ∀ x, x ∈ gs ↔ x ≠ b ∧ x ∈ g.groups)) ∧
        (b ∉ g.groups → Answers (.pgctlRemoveStripeGroup w) s 0x62 w k 3 [] (fun t => t = reelPart s t))) ∧
      (s.pgroup p = none → Answers (.pgctlRemoveStripeGroup w) s 0x62 w k 1 [] (fun t => t = reelPart s t))) ∧
    (w.mod.toNat = 4 → CompOk s b →
      (∀ g, s.pgroup p = some g → g.nsid = none → Answers (.pgctlMove w) s 0x62 w k 0 [] (fun t =>
        PgroupBecomes s t p (some { g with comp := b }))) ∧
      (s.pgroup p = none → Answers (.pgctlMove w) s 0x62 w k 1 [] (fun t => t = reelPart s t))) ∧
    (w.mod.toNat = 5 → b ≤ 1 →
      (∀ g, s.pgroup p = some g → Answers (.pgctlSetDefaultMode w) s 0x62 w k 0 [] (fun t =>
        PgroupBecomes s t p (some { g with defaultDirect := decide (b = 1) }))) ∧
      (s.pgroup p = none → Answers (.pgctlSetDefaultMode w) s 0x62 w k 1 [] (fun t => t = reelPart s t)))

/-- R294 to R297, R91: TWR sets a zone's mode setting or the reclaim threshold; NSCTL gives the zoned namespace on placement
group p the NSID p + 1 and the conventional one 129, in the LBA format of `imm` [0]. -/
def Obligations.TablesAndNamespacesTakeWhatIsWritten : Prop :=
  ∀ (s : State) (w : KWord) (k : KCtx), FreshPosition k → NotPerformed k → s.zns.seq + 1 ≠ 2 ^ 56 - 1 →
    (Ready s { op := 0x61, useD := false, useA := true, useB := true, mask := 0xF } false w k →
      (w.mod.toNat = 0 → w.imm.toNat % 256 = 3 → Granted s k (some 1) → s.zoneExists (regA k w).toNat = true →
        (k.comp = 0 ∨ s.zoneComp (regA k w).toNat = k.comp) → (regB k w).toNat ≤ 2 → canon Zone.none s.zns.zones = true →
        Answers (.twr w) s 0x61 w k 0 [] (fun t =>
          (t.zone (regA k w).toNat) = { s.zone (regA k w).toNat with
            setting := if (regB k w).toNat = 0 then none else some (decide ((regB k w).toNat = 2)) } ∧
          (∀ z, z ≠ (regA k w).toNat → t.zone z = s.zone z) ∧
          t = { reelPart s t with zns := { s.zns with zones := t.zns.zones, seq := t.zns.seq }
                                  jrn := { s.jrn with tail := t.jrn.tail, tailAt := t.jrn.tailAt, tailSeq := t.jrn.tailSeq } })) ∧
      (w.mod.toNat = 5 → w.imm.toNat % 256 = 0 → Granted s k (some 3) → (regA k w).toNat = 0 → k.comp = 0 →
        1 ≤ (regB k w).toNat → (regB k w).toNat ≤ 99 →
        Answers (.twr w) s 0x61 w k 0 [] (fun t =>
          t = { reelPart s t with zns := { s.zns with reclaimPct := (regB k w).toNat, seq := t.zns.seq }
                                  jrn := { s.jrn with tail := t.jrn.tail, tailAt := t.jrn.tailAt, tailSeq := t.jrn.tailSeq } })) ∧
      (w.mod.toNat = 0 → w.imm.toNat % 256 ≤ 8 → w.imm.toNat % 256 ≠ 3 → Granted s k (some 1) →
        s.zoneExists (regA k w).toNat = true → TrapsWith (.twr w) s w.ctx k 0x08 3)) ∧
    (Ready s { op := 0x63, useD := false, useA := true, useB := true, mask := 0xF } false w k → Granted s k (some 4) →
      (w.mod.toNat = 0 → ∀ g, s.pgroup (regA k w).toNat = some g → (regA k w).toNat ≤ 127 → g.nsid = none → g.groups ≠ [] →
        Answers (.nsctlCreateZoned w) s 0x63 w k 0 [BitVec.ofNat 64 ((regA k w).toNat + 1)] (fun t =>
          t.space ((regA k w).toNat + 1) = some { kind := .zoned (regA k w).toNat, comp := g.comp, lba16 := w.imm.getLsbD 0
                                                  deleting := false } ∧
          t.pgroup (regA k w).toNat = some { g with nsid := some ((regA k w).toNat + 1) } ∧
          (∀ n, n ≠ (regA k w).toNat + 1 → t.space n = s.space n) ∧
          (∀ q, q ≠ (regA k w).toNat → t.pgroup q = s.pgroup q) ∧ t.zns.zones = s.zns.zones ∧ t.fls = s.fls ∧ t.car = s.car)) ∧
      (w.mod.toNat = 1 → 1 ≤ (regA k w).toNat → (regA k w).toNat ≤ 2048 → CompOk s (regB k w).toNat →
        (∀ n e, (n, some e) ∈ s.zns.spaces → ∀ p, e.kind ≠ .zoned p) → s.convSpace = none →
        Answers (.nsctlCreateConventional w) s 0x63 w k 0 [129] (fun t =>
          t.space 129 = some { kind := .conventional (regA k w).toNat, comp := (regB k w).toNat, lba16 := w.imm.getLsbD 0
                               deleting := false } ∧
          (∀ n, n ≠ 129 → t.space n = s.space n) ∧ t.zns.zones = s.zns.zones ∧ t.zns.pgroups = s.zns.pgroups ∧
          t.fls = s.fls ∧ t.car = s.car)))

/-- R302, R388: a buffer that BALLOC allocates has the size and owner asked for, and its owner holds it; BSHARE adds a holder
and names the final owner once; BDROP and BFREE let go only for the right owner. -/
def Obligations.BuffersAreAllocatedSharedAndFreedByTheirOwners : Prop :=
  ∀ (s : State) (w : KWord) (k : KCtx), FreshPosition k → NotPerformed k → canon none s.bpm.bufs = true → Granted s k (some 6) →
    (Ready s { op := 0x90, useD := false, useA := true, useB := true, mask := 1 } false w k → OwnsId s k (regB k w) →
      ∀ j n, s.storeFor (w.mod.toNat) (if w.mod.toNat = 0 then ctxRegion w.ctx else w.imm.toNat % 16) (regA k w).toNat =
          some (j, n) →
        let r := State.storeAt w.mod.toNat (if w.mod.toNat = 0 then ctxRegion w.ctx else w.imm.toNat % 16) j
        (s.level r < 2 → n ≤ s.poolFree r →
          Answers (.balloc w) s 0x90 w k 0 [BitVec.ofNat 64 s.bpm.nextHandle] (fun t =>
            (∃ b, t.buf s.bpm.nextHandle = some b ∧ b.size = (regA k w).toNat ∧ b.owner = (regB k w).toNat ∧
              b.holders = [((regB k w).toNat, s.tim.now)] ∧ b.final = none ∧ b.cells.length = n) ∧
            (∀ h, h ≠ s.bpm.nextHandle → t.buf h = s.buf h) ∧ t.bpm.bytes = s.bpm.bytes)) ∧
        (s.level r = 3 → Answers (.balloc w) s 0x90 w k 1 [] (fun t => t = reelPart s t))) ∧
    (Ready s { op := 0x91, useD := false, useA := true, useB := true, mask := 1 } false w k → OwnsId s k (regB k w) →
      ∀ b, s.buf (regA k w).toNat = some b → (k.comp = 0 ∨ s.ownerComp b.owner = k.comp) →
      s.ownerComp (regB k w).toNat = s.ownerComp b.owner → b.freeing = false → b.holders.length < 255 →
      (¬ (w.mod.toNat = 1 ∧ b.final.isSome = true) → Answers (.bshare w) s 0x91 w k 0 [] (fun t => OnlyBuffers s t ∧
        (∀ h, h ≠ (regA k w).toNat → t.buf h = s.buf h) ∧ ∃ b', t.buf (regA k w).toNat = some b' ∧
        b'.final = some (b.final.getD (if w.mod.toNat = 1 then (regB k w).toNat else b.owner)) ∧
        (∀ o, (∃ x ∈ b'.holders, x.1 = o) ↔ o = (regB k w).toNat ∨ ∃ x ∈ b.holders, x.1 = o))) ∧
      ((w.mod.toNat = 1 ∧ b.final.isSome = true) → Answers (.bshare w) s 0x91 w k 3 [] (fun t => t = reelPart s t))) ∧
    (Ready s { op := 0x92, useD := false, useA := true, useB := true, mask := 0 } false w k → OwnsId s k (regB k w) →
      ∀ b, s.buf (regA k w).toNat = some b → (k.comp = 0 ∨ s.ownerComp b.owner = k.comp) →
      (((∀ x ∈ b.holders, x.1 ≠ (regB k w).toNat) ∨ b.final.getD b.owner = (regB k w).toNat) →
        Answers (.bdrop w) s 0x92 w k 1 [] (fun t => t = reelPart s t)) ∧
      ((∃ x ∈ b.holders, x.1 = (regB k w).toNat) → b.final.getD b.owner ≠ (regB k w).toNat →
        (∃ x ∈ b.holders, x.1 ≠ (regB k w).toNat) → Answers (.bdrop w) s 0x92 w k 0 [] (fun t =>
          (∀ h, h ≠ (regA k w).toNat → t.buf h = s.buf h) ∧ ∃ b', t.buf (regA k w).toNat = some b' ∧
          ∀ o, (∃ x ∈ b'.holders, x.1 = o) ↔ o ≠ (regB k w).toNat ∧ ∃ x ∈ b.holders, x.1 = o))) ∧
    (Ready s { op := 0x93, useD := false, useA := true, useB := true, mask := 0 } false w k → OwnsId s k (regB k w) →
      ∀ b, s.buf (regA k w).toNat = some b → (k.comp = 0 ∨ s.ownerComp b.owner = k.comp) →
      (b.final.getD b.owner ≠ (regB k w).toNat → Answers (.bfree w) s 0x93 w k 4 [] (fun t => t = reelPart s t)) ∧
      (b.final.getD b.owner = (regB k w).toNat → (∀ x ∈ b.holders, x.1 = (regB k w).toNat) →
        Answers (.bfree w) s 0x93 w k 0 [] (fun t => t.buf (regA k w).toNat = none ∧
          ∀ h, h ≠ (regA k w).toNat → t.buf h = s.buf h)))

/-- R109 to R111, R301, R303, R305: a COUPLE whose checks pass completes with status 0 and the lowest free index, whose entry is
then its descriptor's, coupled, with a generation one higher; CXGRANT and CXREVOKE complete and write the grant; EVNEXT moves the
oldest record to scratch, or answers 1 where there is none; EVSUB adds a range, or answers 1 at four, and clears them; REGRD
answers the register. Each answers a next state from the conditions named on the state and the operands alone. -/
def Obligations.CarriagesContextsEventsAndRegistersAnswer : Prop :=
  ∀ (s : State) (w : KWord) (k : KCtx), FreshPosition k → NotPerformed k →
    (Ready s { op := 0x80, useD := false, useA := true, useB := false, mask := 3 } false w k → Granted s k (some 5) →
      (regA k w).toNat % 8 = 0 →
      (regA k w).toNat + 24 ≤ (if w.mod.getLsbD 1 then 64 + k.codeLen else 16384) →
      ∀ (i : Nat) (c : Carriage), Couplable s (descWord s k w 0) (descWord s k w 1) (descWord s k w 2) (w.mod.getLsbD 0) k.comp i c →
        ∃ t, exec (.couple w) s = .next t ∧
          t.kctx w.ctx = some (answeredWith k 0x80 w (answers 0 [BitVec.ofNat 64 i]) (some true)) ∧
          (∀ d, d ≠ w.ctx → t.kctx d = s.kctx d) ∧
          t.carriage i = { c with coupled := true, generation := (s.carriage i).generation + 1 } ∧
          s.carBusy i = false ∧ i < 32768 ∧ t = { reelPart s t with car := { s.car with table := t.car.table } }) ∧
    (Ready s { op := 0xA0, useD := false, useA := true, useB := true, mask := 0 } false w k → Granted s k (some 7) →
      s.part.codec = true → (regA k w).toNat < 2048 → CompOk s (regB k w).toNat →
      (((s.codecCtx (regA k w).toNat).grant = none ∨ (s.codecCtx (regA k w).toNat).grant = some (regB k w).toNat) →
        codecBusy s (regA k w).toNat = false → canon CodecCtx.none s.fcd.ctxs = true →
        ∃ t, exec (.cxgrant w) s = .next t ∧
          t.kctx w.ctx = some (answeredWith k 0xA0 w (answers 0 []) (some true)) ∧
          (∀ d, d ≠ w.ctx → t.kctx d = s.kctx d) ∧
          t.codecCtx (regA k w).toNat = { grant := some (regB k w).toNat, coded := false, st := CodecState.zero } ∧
          (∀ x, x ≠ (regA k w).toNat → t.codecCtx x = s.codecCtx x) ∧
          t = { reelPart s t with fcd := { s.fcd with ctxs := t.fcd.ctxs } }) ∧
      (∀ c, c ≠ (regB k w).toNat → (s.codecCtx (regA k w).toNat).grant = some c →
        ∃ t, exec (.cxgrant w) s = .next t ∧
          t.kctx w.ctx = some (answeredWith k 0xA0 w (answers 1 []) (some false)) ∧ OnlyReel s t w.ctx)) ∧
    (Ready s { op := 0xA1, useD := false, useA := true, useB := false, mask := 0 } false w k → Granted s k (some 7) →
      s.part.codec = true → (regA k w).toNat < 2048 →
      (codecBusy s (regA k w).toNat = false → canon CodecCtx.none s.fcd.ctxs = true →
        ∃ t, exec (.cxrevoke w) s = .next t ∧
          t.kctx w.ctx = some (answeredWith k 0xA1 w (answers 0 []) (some true)) ∧
          (∀ d, d ≠ w.ctx → t.kctx d = s.kctx d) ∧
          t.codecCtx (regA k w).toNat = { s.codecCtx (regA k w).toNat with grant := none } ∧
          (∀ x, x ≠ (regA k w).toNat → t.codecCtx x = s.codecCtx x) ∧
          t = { reelPart s t with fcd := { s.fcd with ctxs := t.fcd.ctxs } }) ∧
      (codecBusy s (regA k w).toNat = true →
        ∃ t, exec (.cxrevoke w) s = .next t ∧
          t.kctx w.ctx = some (answeredWith k 0xA1 w (answers 2 []) (some false)) ∧ OnlyReel s t w.ctx)) ∧
    (Ready s { op := 0xC1, useD := false, useA := true, useB := false, mask := 0 } false w k → Granted s k (some 15) →
      (regA k w).toNat + 32 ≤ 16384 → ∀ i, s.kinst k.inst = some i →
      (i.events = [] →
        ∃ t, exec (.evnext w) s = .next t ∧
          t.kctx w.ctx = some (answeredWith k 0xC1 w (answers 1 [BitVec.ofNat 64 i.eventsLost]) (some false)) ∧
          t.kinst k.inst = some { i with eventsLost := 0 } ∧ (∀ d, d ≠ w.ctx → t.kctx d = s.kctx d)) ∧
      (∀ e r, i.events = e :: r → (eventBytes e).length = 32 → canon 0 k.scratch = true →
        ∃ t, exec (.evnext w) s = .next t ∧ t.kinst k.inst = some { i with events := r, eventsLost := 0 } ∧
          (∀ d, d ≠ w.ctx → t.kctx d = s.kctx d) ∧ ∃ k', t.kctx w.ctx = some k' ∧
          k'.regs = (setRegs k [(1, 0), (2, BitVec.ofNat 64 i.eventsLost)]).regs ∧ k'.flags = { k.flags with z := true } ∧
          k'.pc = k.pc + 8 ∧ k'.jpos = k.jpos + 1 ∧ k'.journal.length = k.journal.length + 1 ∧
          (∀ x, look 0 k'.scratch x = if (regA k w).toNat ≤ x ∧ x < (regA k w).toNat + 32
            then (eventBytes e).getD (x - (regA k w).toNat) 0 else look 0 k.scratch x) ∧
          (eventBytes e).take 8 = leBytes 8 e.time ∧ ((eventBytes e).drop 8).take 2 = leBytes 2 e.code)) ∧
    (Ready s { op := 0xC2, useD := false, useA := true, useB := true, mask := 1 } false w k → Granted s k (some 15) →
      ∀ i, s.kinst k.inst = some i →
      (w.mod.toNat = 0 → i.subs.length < 4 →
        ∃ t, exec (.evsubAdd w) s = .next t ∧
          t.kctx w.ctx = some (answeredWith k 0xC2 w (answers 0 []) (some true)) ∧ (∀ d, d ≠ w.ctx → t.kctx d = s.kctx d) ∧
          t.kinst k.inst = some { i with subs := i.subs ++ [((regA k w).toNat, (regB k w).toNat)] }) ∧
      (w.mod.toNat = 0 → 4 ≤ i.subs.length →
        ∃ t, exec (.evsubAdd w) s = .next t ∧
          t.kctx w.ctx = some (answeredWith k 0xC2 w (answers 1 []) (some false)) ∧ OnlyReel s t w.ctx) ∧
      (w.mod.toNat = 1 →
        ∃ t, exec (.evsubClear w) s = .next t ∧
          t.kctx w.ctx = some (answeredWith k 0xC2 w (answers 0 []) (some true)) ∧ (∀ d, d ≠ w.ctx → t.kctx d = s.kctx d) ∧
          t.kinst k.inst = some { i with subs := [] })) ∧
    (Ready s { op := 0xC3, useD := false, useA := true, useB := false, mask := 0 } false w k → Granted s k (some 12) →
      (regA k w).toNat % 8 = 0 → (regA k w).toNat < 2 ^ 26 →
      ∃ t, exec (.regrd w) s = .next t ∧
        t.kctx w.ctx = some (answeredWith k 0xC3 w (answers 0 [BitVec.ofNat 64 (s.regRead (regA k w).toNat)]) (some true)) ∧
        (∀ d, d ≠ w.ctx → t.kctx d = s.kctx d))

/-- R66, R67, R70, R71, R293, R298: a zone action of a reel on a zone that is in no pair takes a ticket and takes effect: open
makes an open or Closed zone Explicitly Open, close makes an open zone with data Closed and one without data Empty, finish
makes an Empty zone Full with its write pointer at ZCAP, reset makes a zone that no command works on Empty, offline makes a
Read Only zone Offline; no other zone changes. -/
def Obligations.ZoneActionsOfReelsTakeEffect : Prop :=
  ∀ (s : State) (w : KWord) (k : KCtx) (n : Nat), FreshPosition k → LowestFree k n →
    Ready s { op := 0x64, useD := false, useA := true, useB := false, mask := 0xF } false w k → Granted s k (some 1) →
    s.zoneExists (regA k w).toNat = true → (k.comp = 0 ∨ s.zoneComp (regA k w).toNat = k.comp) →
    s.frozen (s.zoneComp (regA k w).toNat) = false → s.zonePair (regA k w).toNat = none →
    (∀ x ∈ s.car.flights, x.zone ≠ some (regA k w).toNat ∧ x.id < s.car.nextFlight) → canon Zone.none s.zns.zones = true →
    let z := (regA k w).toNat
    let v := s.zone z
    let gives := fun (c : Instr) (P : Zone → Prop) => Goes c s (fun t =>
      (∃ k', t.kctx w.ctx = some k' ∧ Accepted k k' 0x64 w n) ∧ P (t.zone z) ∧ ∀ y, y ≠ z → t.zone y = s.zone y)
    (w.mod.toNat = 0 → v.state ∈ [.implicitOpen, .explicitOpen, .closed] →
      gives (.zctlOpen w) (fun u => u = { v with state := .explicitOpen })) ∧
    (w.mod.toNat = 1 → v.state ∈ [.implicitOpen, .explicitOpen] → 0 < v.wp →
      gives (.zctlClose w) (fun u => u = { v with state := .closed })) ∧
    (w.mod.toNat = 1 → v.state = .explicitOpen → v.wp = 0 →
      gives (.zctlClose w) (fun u => u.state = .empty ∧ u.active = false ∧ u.setting = v.setting)) ∧
    (w.mod.toNat = 2 → v.state = .empty → gives (.zctlFinish w) (fun u => u.state = .full ∧ u.wp = v.cap)) ∧
    (w.mod.toNat = 3 → v.state ∈ [.empty, .implicitOpen, .explicitOpen, .closed, .full] →
      gives (.zctlReset w) (fun u => u.state = .empty ∧ u.wp = 0 ∧ u.setting = none ∧ u.active = false)) ∧
    (w.mod.toNat = 4 → v.state = .readOnly → gives (.zctlOffline w) (fun u => u.state = .offline ∧ u.members = []))

/-- R65, R66, R298: a zone action without a transition takes effect on nothing: the ticket completes with the status of R66,
Invalid Zone State Transition, and no zone changes. -/
def Obligations.ZoneActionsWithoutTransitionChangeNoZone : Prop :=
  ∀ (s : State) (w : KWord) (k : KCtx) (n : Nat) (i : KInst), FreshPosition k → LowestFree k n →
    Ready s { op := 0x64, useD := false, useA := true, useB := false, mask := 0xF } false w k → Granted s k (some 1) →
    s.kinst k.inst = some i → i.ctx = w.ctx →
    s.zoneExists (regA k w).toNat = true → (k.comp = 0 ∨ s.zoneComp (regA k w).toNat = k.comp) →
    s.frozen (s.zoneComp (regA k w).toNat) = false → s.zonePair (regA k w).toNat = none →
    (∀ x ∈ s.car.flights, x.zone ≠ some (regA k w).toNat ∧ x.id < s.car.nextFlight) →
    (∀ o ∈ s.kry.ops, ∀ f, o.op = .zone f → f < s.car.nextFlight) →
    let st := (s.zone (regA k w).toNat).state
    let refused := fun (c : Instr) => Goes c s (fun t => t.zns = s.zns ∧ ∃ k', t.kctx w.ctx = some k' ∧
      Accepted k k' 0x64 w n ∧ ∃ x ∈ k'.tickets, x.num = n ∧ x.done = some (Status.invalidTransition.code, 0))
    (w.mod.toNat = 0 → st ∈ [.full, .readOnly, .offline] → refused (.zctlOpen w)) ∧
    (w.mod.toNat = 1 → st ∈ [.empty, .full, .readOnly, .offline] → refused (.zctlClose w)) ∧
    (w.mod.toNat = 2 → st ∈ [.readOnly, .offline] → refused (.zctlFinish w)) ∧
    (w.mod.toNat = 3 → st ∈ [.readOnly, .offline] → refused (.zctlReset w)) ∧
    (w.mod.toNat = 4 → st ≠ .readOnly → refused (.zctlOffline w))

/-- R40, R208, R297, R306: NSCTL delete marks the namespace and drains its carriages; STOP drains every carriage and, where no
command is outstanding, parks the module with its mount undone and the marker of kind 1; both take a ticket. -/
def Obligations.DeleteAndStopDrainTheirCarriages : Prop :=
  ∀ (s : State) (w : KWord) (k : KCtx) (n : Nat), FreshPosition k → LowestFree k n →
    (Ready s { op := 0x63, useD := false, useA := true, useB := true, mask := 0xF } false w k → Granted s k (some 4) →
      w.mod.toNat = 2 → ∀ e, s.space (regA k w).toNat = some e → e.deleting = false →
      (∃ c, (s.carriage c).coupled = true ∧ (s.carriage c).nsid = (regA k w).toNat) →
      (∀ m f, (m, some f) ∈ s.zns.spaces → f.deleting = false) → canon Carriage.none s.car.table = true →
      canon none s.zns.spaces = true →
      Goes (.nsctlDelete w) s (fun t => (∃ k', t.kctx w.ctx = some k' ∧ Accepted k k' 0x63 w n) ∧
        t.space (regA k w).toNat = some { e with deleting := true } ∧
        (∀ m, m ≠ (regA k w).toNat → t.space m = s.space m) ∧
        (∀ c, t.carriage c = if (s.carriage c).coupled ∧ (s.carriage c).nsid = (regA k w).toNat
          then { s.carriage c with draining := true } else s.carriage c) ∧
        t.zns.zones = s.zns.zones ∧ t.fls = s.fls)) ∧
    (Ready s { op := 0xD3, useD := false, useA := false, useB := false, mask := 0 } false w k → Granted s k (some 17) →
      s.boot.parked = false → s.mnt.stopping = false →
      (s.car.flights ≠ [] → canon Carriage.none s.car.table = true → Goes (.stop w) s (fun t =>
        (∃ k', t.kctx w.ctx = some k' ∧ Accepted k k' 0xD3 w n) ∧ t.mnt = { s.mnt with stopping := true } ∧
        (∀ c, t.carriage c = if (s.carriage c).coupled then { s.carriage c with draining := true } else s.carriage c) ∧
        t.zns = s.zns ∧ t.fls = s.fls)) ∧
      (s.car.flights = [] → s.fcd.jobs = [] → s.mnt.closing = false → canon Carriage.none s.car.table = true →
        Goes (.stop w) s (fun t => (∃ k', t.kctx w.ctx = some k' ∧ Accepted k k' 0xD3 w n) ∧
          t.mnt = { s.mnt with stopping := true, closing := true } ∧ t.boot = s.boot ∧ t.jrn.running = true ∧
          (∀ c, (t.carriage c).coupled = false) ∧ t.sec.keys = s.sec.keys))) ∧
    (s.mnt.closing = true → s.awake = true → s.jrn.running = true → s.jrn.stripes = 0 → s.underWay .checkpoint = false →
      Goes .checkpointValid s (fun t => t.boot = { s.boot with parked := true } ∧ t.mnt.state = 0 ∧ t.mnt.stopping = false ∧
        t.mnt.closing = false ∧ t.plog.marker = 1 ∧ t.zns.online = false ∧ t.sec.keys = [] ∧ t.jrn.running = false))

/-- R293, R323: WAIT waits while no named condition holds, and returns when one does, at issue or later. -/
def Obligations.WaitReturnsWhenAConditionHolds : Prop :=
  ∀ (s : State) (k : KCtx) (q : KInst), (k.tickets.map (·.num)).Nodup → (∀ x ∈ k.tickets, x.num < 64) →
    s.kinst k.inst = some q →
    (∀ (w : KWord), Ready s { op := 0x02, useD := false, useA := true, useB := true, mask := 0x1F } true w k →
      FreshPosition k → w.mod.toNat ≠ 0 →
      (w.mod.getLsbD 0 = true → ∃ x ∈ k.tickets, x.num = (regA k w).toNat) →
      (heldMask w.mod (conditions s k q (regA k w) (regB k w)) = 0 → Goes (.wait w) s (fun t =>
        t.kctx w.ctx = some { k with wait := .inWait w.mod (regA k w) (regB k w) } ∧ OnlyReel s t w.ctx)) ∧
      (heldMask w.mod (conditions s k q (regA k w) (regB k w)) ≠ 0 →
        WaitReturns (.wait w) s w.ctx k w.mod (regA k w) (regB k w) q)) ∧
    (∀ (c : Nat) (mod : BitVec 9) (a b : Word), s.kctx c = some k → ReelTables s → s.mayIssue k = true →
      k.wait = .inWait mod a b → heldMask mod (conditions s k q a b) ≠ 0 →
      WaitReturns (.waitConditionMet c) s c k mod a b q)

/-- R266, R278, R285, R323, R326: COMMIT adds one to `epoch`, frees the journal, starts the budget again, and applies the held
effects in program order, but for a list whose tag is that of the commit last applied: of two power modes the second is in force,
an event is posted, UNPARK leaves Parked; HALT, where the budget is not spent, commits as well and ends the reel in state 4 with g1 as its result. -/
def Obligations.CommitAppliesHeldEffectsInOrder : Prop :=
  ∀ (s : State) (w : KWord) (k : KCtx),
    (Ready s { op := 0x03, useD := false, useA := false, useB := false, mask := 0 } true w k →
      (k.held = [] → ∃ k', Retires (.commit w) s w.ctx k' ∧ k'.regs = k.regs ∧ k'.flags = k.flags ∧ k'.scratch = k.scratch ∧
        k'.pc = k.pc + 8 ∧ k'.epoch = k.epoch + 1 ∧ k'.count = 0 ∧ k'.retired = k.retired + 1 ∧ k'.journal = [] ∧
        k'.jpos = 0 ∧ k'.held = [] ∧ k'.unitKept = [] ∧ k'.applied = some k.epoch ∧ k'.tickets.map (·.num) = k.tickets.map (·.num) ∧
        k'.saved.regs = k.regs ∧ k'.saved.pc = k.pc + 8 ∧ k'.saved.scratch = k.scratch ∧ k'.saved.epoch = k.epoch + 1) ∧
      (∀ m n, k.held = [.pmode m, .pmode n] → k.applied ≠ some k.epoch → n ≤ 2 → Goes (.commit w) s (fun t =>
        t.pwr.pendingMode = some (if n = 0 then .galop else if n = 1 then .waltz else .minuet) ∧
        ∃ k', t.kctx w.ctx = some k' ∧ k'.held = [] ∧ k'.epoch = k.epoch + 1)) ∧
      (∀ m n, k.held = [.pmode m, .pmode n] → k.applied = some k.epoch → Goes (.commit w) s (fun t =>
        t.pwr.pendingMode = s.pwr.pendingMode ∧ ∃ k', t.kctx w.ctx = some k' ∧ k'.held = [] ∧ k'.epoch = k.epoch + 1)) ∧
      (∀ code level bs, k.held = [.evpost code level bs] → k.applied ≠ some k.epoch → Goes (.commit w) s (fun t =>
        (∃ e, t.hif.raised = e :: s.hif.raised ∧ e.code = code ∧ e.level = level ∧ e.payload = .raw bs ∧
          e.source = 0x6000 + w.ctx / 4 ∧ e.comp = k.comp ∧ e.time = s.tim.now) ∧
        ∃ k', t.kctx w.ctx = some k' ∧ k'.held = [] ∧ k'.epoch = k.epoch + 1)) ∧
      (k.held = [.unpark] → k.applied ≠ some k.epoch → s.mnt.state = 4 → Goes (.commit w) s (fun t => t.boot = { s.boot with parked := false }))) ∧
    (Ready s { op := 0x04, useD := false, useA := false, useB := false, mask := 0 } false w k → k.held = [] →
      Goes (.halt w) s (fun t => t.kctx w.ctx = none ∧ t.kinst k.inst = none ∧
        (∃ r, t.kry.records.head? = some r ∧ r.inst = k.inst ∧ r.state = 4 ∧ r.result = reg k 1 ∧ r.trapCode = 0 ∧
          r.retired = k.retired + 1) ∧
        (∀ d, d ≠ w.ctx → t.kctx d = s.kctx d)))

/-- R293, R299, R305, R317, R333: a line fill makes the missing line resident and counts one miss, from a suspended die one
suspended fill beside it, and displaces no line of its reel while the half of the cache has room; the completion of a
temperature reading or of a host transfer is posted to its ticket with its status and result, and the transfer's bytes
stand in the buffer. -/
def Obligations.FillsAndCompletionsReachTheirReel : Prop :=
  (∀ (s : State) (c : Nat) (k : KCtx) (i : KInst), s.kctx c = some k → s.kinst k.inst = some i → s.mayIssue k = true →
    k.wait = .ready → FetchAddress k k.pc → k.pc / 4096 ∉ i.lines →
    let filled := fun (t : State) => t.kry.misses = min 0xFFFFFFFF (s.kry.misses + 1) ∧
      ∃ j, t.kinst k.inst = some j ∧ k.pc / 4096 ∈ j.lines
    (i.source ≠ 2 → Goes (.lineFillComplete c .filled) s (fun t => filled t ∧
      (∀ j, t.kinst k.inst = some j → j = { i with lines := j.lines }) ∧
      t = { s with kry := { s.kry with insts := t.kry.insts, misses := t.kry.misses }, free := t.free })) ∧
    (i.source ≠ 2 → (s.demandLines (ctxRegion c)).length + 1 ≤ s.demandRoom → i.ctx = c → ReelTables s →
      Goes (.lineFillComplete c .filled) s (fun t => filled t ∧ ∀ j, t.kinst k.inst = some j → ∀ l ∈ i.lines, l ∈ j.lines)) ∧
    (∀ q, i.source = 2 → s.fillFrom (i.place / 16) = some (q, false) → Goes (.lineFillComplete c .filled) s (fun t => filled t ∧
      t.zns = s.zns ∧ t.bpm = s.bpm ∧ t.kry.fillsSuspended = s.kry.fillsSuspended)) ∧
    (∀ q, i.source = 2 → s.fillFrom (i.place / 16) = some (q, true) → Goes (.lineFillComplete c .filledSuspended) s (fun t =>
      filled t ∧ t.kry.fillsSuspended = min 0xFFFFFFFF (s.kry.fillsSuspended + 1))) ∧
    (ReelTables s → TrapsWith (.lineFillComplete c .crcMismatch) s c k 0x04 0)) ∧
  (∀ (s : State) (c n st : Nat) (res : Word) (data : List Byte) (o : KOp) (k : KCtx) (i : KInst), s.awake = true →
    s.kry.ops.find? (fun o => decide (o.ctx = c) && decide (o.ticket = n)) = some o → o.ticket = n →
    s.kinst o.inst = some i → i.ctx = c → s.kctx c = some k →
    (∃ x ∈ k.tickets, x.num = n ∧ x.done = none) →
    let posted := fun (t : State) (st : Nat) (res : Word) => ∃ k', t.kctx c = some k' ∧
      (∃ x ∈ k'.tickets, x.num = n ∧ x.done = some (st, res)) ∧
      (∀ x ∈ k.tickets, x.num ≠ n → x ∈ k'.tickets) ∧ k'.regs = k.regs ∧ k'.pc = k.pc ∧ k'.journal = k.journal
    (∀ d, o.op = .readTemp d → res.toNat < 256 → Goes (.ticketCompletion c n st res data) s (fun t => posted t 0 res)) ∧
    (∀ a r, o.op = .answered a r → Goes (.ticketCompletion c n st res data) s (fun t => posted t a r)) ∧
    (∀ x addr h off b, o.op = .hostRead x addr data.length h off → s.buf h = some b → off + data.length ≤ b.size →
      canon 0 s.bpm.bytes = true → Goes (.ticketCompletion c n st res data) s (fun t => posted t 0 0 ∧
        ∀ y, look 0 t.bpm.bytes y = if h * 2 ^ 22 + off ≤ y ∧ y < h * 2 ^ 22 + off + data.length
          then data.getD (y - (h * 2 ^ 22 + off)) 0 else look 0 s.bpm.bytes y)))

/-! ## The host's I/O commands and the data path -/

/-- R65, R66, R72, R602: WRITE at the write pointer, ZONE_APPEND and WRITE_ZEROES advance the zone by what they write: an Empty
or Closed zone opens implicitly once the open checks pass, an open zone stays as it is open, and a zone that reaches ZCAP is
Full. -/
def Obligations.WritesAdvanceTheWritePointerOfTheirZone : Prop :=
  ∀ (s : State) (h : HostCmd) (io : IoArgs) (n : NsEntry) (z u c key : Nat), IoReady s h → OnZone s h io.slba n z u c key →
    InSpace s n io.slba io.nlb → s.zns.seq < 2 ^ 56 - 1 → s.zonePair z = none →
    (s.zone z).wp + io.nlb * n.unitsPerLba ≤ (s.zone z).cap →
    ∀ st, ((s.zone z).state ∈ [.implicitOpen, .explicitOpen] ∧ st = (s.zone z).state ∨
      (s.zone z).state ∈ [.empty, .closed] ∧ st = .implicitOpen ∧
        s.openCheck z (decide ((s.zone z).state = .empty)) (s.defaultDirect z) = none) →
    (u = (s.zone z).wp → io.nlb * n.unitsPerLba ≤ 4096 →
      WriteAdmitted (.write h io) s h .write z (io.nlb * n.unitsPerLba) c key st) ∧
    (u = 0 → io.nlb * n.unitsPerLba ≤ 4096 →
      WriteAdmitted (.zoneAppend h io) s h .append z (io.nlb * n.unitsPerLba) c key st) ∧
    (u = (s.zone z).wp → WriteAdmitted (.writeZeroes h io) s h .zeroes z (io.nlb * n.unitsPerLba) c key st)

/-- R66: a write that its zone's row refuses completes with that row's status and takes no effect: Zone Is Full, Zone Is Read
Only, Zone Is Offline, Zone Invalid Write away from the write pointer, Zone Boundary Error beyond ZCAP. -/
def Obligations.RefusedWritesLeaveTheirZone : Prop :=
  ∀ (s : State) (h : HostCmd) (io : IoArgs) (n : NsEntry) (z u c key : Nat), IoReady s h → OnZone s h io.slba n z u c key →
    InSpace s n io.slba io.nlb → s.zns.seq < 2 ^ 56 - 1 → s.zonePair z = none → io.nlb * n.unitsPerLba ≤ 4096 →
    ((s.zone z).state = .full → OnlyCompletes (.write h io) s h .zoneFull) ∧
    ((s.zone z).state = .readOnly → OnlyCompletes (.write h io) s h .zoneReadOnly) ∧
    ((s.zone z).state = .offline → OnlyCompletes (.write h io) s h .zoneOffline) ∧
    ((s.zone z).state ∉ [.full, .readOnly, .offline] → u ≠ (s.zone z).wp → OnlyCompletes (.write h io) s h .zoneInvalidWrite) ∧
    ((s.zone z).state ∉ [.full, .readOnly, .offline] → u = (s.zone z).wp →
      (s.zone z).cap < (s.zone z).wp + io.nlb * n.unitsPerLba → OnlyCompletes (.write h io) s h .zoneBoundary) ∧
    ((s.zone z).state = .full → u = 0 → OnlyCompletes (.zoneAppend h io) s h .zoneFull) ∧
    (u ≠ 0 → OnlyCompletes (.zoneAppend h io) s h .invalidField)

/-- R15, R108, R364, R421, R561: an I/O command completes with the first check that fails: Command Sequence Error while Parked,
Sanitize In Progress, Invalid Field for a reserved or fused bit, Invalid Namespace, LBA Out of Range, Namespace Not Ready
where no carriage serves it. -/
def Obligations.IoCommandsCompleteWithTheFirstCheckThatFails : Prop :=
  ∀ (s : State) (h : HostCmd) (io : IoArgs), s.fetchable h = true → h.qid ≠ 0 → s.resetAhead h.nsid io.slba = false →
    ∀ i ∈ [Instr.read h io, .write h io, .writeZeroes h io, .verify h io, .flush h],
    (s.boot.parked = true → OnlyCompletes i s h .sequenceError) ∧
    (s.boot.parked = false → s.sec.sanActive = true → OnlyCompletes i s h .sanitizeInProgress) ∧
    (s.boot.parked = false → s.sec.sanActive = false → (h.fused = true ∨ h.rsvd = true) → OnlyCompletes i s h .invalidField) ∧
    (s.boot.parked = false → s.sec.sanActive = false → h.fused = false → h.rsvd = false → i ≠ .flush h →
      (s.space h.nsid = none → OnlyCompletes i s h .invalidNamespace) ∧
      (∀ n, s.space h.nsid = some n → s.placeOf n io.slba = none → OnlyCompletes i s h .lbaOutOfRange) ∧
      (∀ n z u, s.space h.nsid = some n → s.placeOf n io.slba = some (z, u) → InSpace s n io.slba io.nlb →
        io.nlb * n.unitsPerLba ≤ 4096 → s.frozen h.comp = false → s.carriageFor h.comp z = none →
        Goes i s (fun t => Completed t h .namespaceNotReady ∧ t.zns = s.zns ∧ t.fls = s.fls ∧
          t.car = { s.car with miss := min 0xFFFFFFFF (s.car.miss + 1) })))

/-- R66, R117, R421: READ, VERIFY and COMPARE of units that need no sense complete at once, a READ with their data; a COMPARE
whose data differ completes with Compare Failure; on an Offline zone READ completes with Zone Is Offline; FLUSH and, on a
zoned namespace, DATASET_MANAGEMENT complete with success and change nothing. -/
def Obligations.ReadsCompleteWithTheirData : Prop :=
  ∀ (s : State) (h : HostCmd) (io : IoArgs) (n : NsEntry) (z u c key : Nat), IoReady s h → OnZone s h io.slba n z u c key →
    InSpace s n io.slba io.nlb → io.nlb * n.unitsPerLba ≤ 4096 → s.car.flights = [] →
    (∀ m v, (m, v) ∈ s.cmp.table → v.state ≠ .saving) →
    ((s.zone z).state = .offline → OnlyCompletes (.read h io) s h .zoneOffline) ∧
    ((s.zone z).state ≠ .offline → u + io.nlb * n.unitsPerLba ≤ n.zsze * n.unitsPerLba →
      s.sensesOf (some z) u (io.nlb * n.unitsPerLba) = [] → io.prchk = 0 → s.mem.bad = [] → s.sec.keyErasing = none →
      s.zonePair z = none →
      let bytes := (List.range (io.nlb * n.unitsPerLba)).flatMap (fun i =>
        s.zoneUnit h.nsid (s.zoneSlba n z * n.unitsPerLba) z (u + i) key)
      Goes (.read h io) s (fun t => Completed t h .success ∧ Output.data h bytes ∈ t.hif.out ∧ t.zns = s.zns) ∧
      Goes (.verify h io) s (fun t => Completed t h .success ∧ t.zns = s.zns) ∧
      Goes (.compare h io bytes []) s (fun t => Completed t h .success ∧ t.zns = s.zns) ∧
      (∀ other, other ≠ bytes → Goes (.compare h io other []) s (fun t => Completed t h .compareFailure ∧ t.zns = s.zns))) ∧
    OnlyCompletes (.flush h) s h .success ∧
    (∀ dealloc, OnlyCompletes (.datasetManagement h dealloc [(io.slba, io.nlb)]) s h .success)

/-- R66, R67, R69 to R71, R73: the zone management commands of a host on a zone that is in no pair and that no command works
on take effect and complete with success; without a transition they complete with Invalid Zone State Transition and change
nothing. -/
def Obligations.ZoneManagementTakesEffectAndCompletes : Prop :=
  ∀ (s : State) (h : HostCmd) (slba : Nat) (n : NsEntry) (z c key : Nat), IoReady s h → OnZone s h slba n z 0 c key →
    s.zonePair z = none → (∀ x ∈ s.car.flights, x.zone ≠ some z ∧ x.id < s.car.nextFlight) →
    s.frozen (s.zoneComp z) = false → s.sec.keyErasing = none → canon Zone.none s.zns.zones = true →
    let v := s.zone z
    let gives := fun (i : Instr) (P : Zone → Prop) => Goes i s (fun t => Completed t h .success ∧ P (t.zone z) ∧
      ∀ y, y ≠ z → t.zone y = s.zone y)
    (v.state ∈ [.implicitOpen, .explicitOpen, .closed] →
      gives (.zoneOpen h slba false) (fun w => w = { v with state := .explicitOpen })) ∧
    (v.state ∈ [.implicitOpen, .explicitOpen] → 0 < v.wp → gives (.zoneClose h slba false) (fun w => w = { v with state := .closed })) ∧
    (v.state = .empty → gives (.zoneFinish h slba false) (fun w => w.state = .full ∧ w.wp = v.cap)) ∧
    (v.state ∈ [.empty, .implicitOpen, .explicitOpen, .closed, .full] →
      gives (.zoneReset h slba false) (fun w => w.state = .empty ∧ w.wp = 0 ∧ w.setting = none ∧ w.active = false)) ∧
    (v.state = .readOnly → gives (.zoneOffline h slba false) (fun w => w.state = .offline ∧ w.members = [])) ∧
    (v.state ∈ [.full, .readOnly, .offline] → Goes (.zoneOpen h slba false) s (fun t => Completed t h .invalidTransition ∧
      t.zns = s.zns)) ∧
    (v.state ∈ [.empty, .full, .readOnly, .offline] → Goes (.zoneClose h slba false) s (fun t =>
      Completed t h .invalidTransition ∧ t.zns = s.zns)) ∧
    (v.state ∈ [.readOnly, .offline] → Goes (.zoneReset h slba false) s (fun t => Completed t h .invalidTransition ∧
      t.zns = s.zns)) ∧
    (∀ bytes, 64 ≤ bytes → bytes ≤ 16777216 → Goes (.zoneManagementReceive h slba 0 0 bytes false) s (fun t =>
      Completed t h .success ∧ t.zns = s.zns ∧ t.car = s.car ∧
      ∃ d, Output.data h d ∈ t.hif.out ∧ d.length ≤ bytes ∧
        d.take 8 = leBytes 8 (((List.range (s.spaceZones n)).drop (slba / n.zsze)).filterMap (s.spaceZone n)).length)) ∧
    (∀ action bytes, action ≠ 0 → OnlyCompletes (.zoneManagementReceive h slba action 0 bytes false) s h .invalidField)

/-- R113 to R115, R382, R386, R434, R602: a grant gives a segment its buffer, its write sequence values and its channel; the
transfer that brings the data of a write with one segment stores it and completes the write, at once or when the dirty limit
lets it; a released segment leaves its owner; a transfer that fails ends its command with Data Transfer Error. -/
def Obligations.StagingSegmentsAreGrantedFilledAndReleased : Prop :=
  ∀ s : State, s.serves = true →
    (∀ v g j ch, s.flight v.id = some v → v.peer = none → v.segs[j]? = some g → s.nextGrant = some (v.id, j) →
      s.pickChannel (s.carriage v.carriage).dmaGroups = some ch →
      Goes (.segmentGrant v.id j) s (fun t =>
        let b := s.bpm.staging.freed.head?.getD s.bpm.staging.fresh
        (∃ w, t.flight v.id = some w ∧
          w.segs[j]? = some { g with step := .granted, buffer := some b, seq := s.zns.seq + 1, channel := ch }) ∧
        t.bpm.segments = s.bpm.segments ++ [((s.carriage v.carriage).owner, b, s.now)] ∧
        t.bpm.staging.held = s.bpm.staging.held + 1 ∧
        t.zns = { s.zns with seq := min (2 ^ 56 - 1) (s.zns.seq + State.pagesCovered (v.start + g.off) g.len) })) ∧
    (∀ v g z b, LoneWrite s v g z b → Twinned s v g →
      (∀ data, g.step = .granted → data.length = g.len * 4096 →
        Goes (.segmentTransferComplete v.id 0 data []) s (fun t => Completed t v.cmd .success ∧ t.car.flights = [] ∧
          (∀ x, look 0 t.zns.data x = if z * 2 ^ 31 + v.start * 4096 ≤ x ∧ x < z * 2 ^ 31 + (v.start + g.len) * 4096
            then data.getD (x - (z * 2 ^ 31 + v.start * 4096)) 0 else look 0 s.zns.data x))) ∧
      (g.step = .dirtyWait → Goes (.dirtyLimitWaitEnd v.id 0) s (fun t => Completed t v.cmd .success ∧ t.car.flights = [] ∧
        t.zns.data = s.zns.data)) ∧
      (∀ ch st, ch < 128 → g.channel = ch → g.step = .granted → canon Zone.none s.zns.zones = true →
        Goes (.hostDmaFault ch st (.seg v.id 0)) s (fun t => Completed t v.cmd .dataTransferError ∧
          (∃ e ∈ t.hif.raised, e.code = 0x0103) ∧ ((s.zone z).dataEnd = none → (t.zone z).wp = v.start)))) ∧
    (∀ x z, x ∈ s.car.staged → (∀ y ∈ s.car.staged, y.flight = x.flight → y.seg = x.seg → y = x) → x.zone = some z →
      (s.zone z).direct = true →
      Goes (.stagingSegmentRelease x.flight x.seg) s (fun t => t.car = { s.car with staged := s.car.staged.filter (· ≠ x) } ∧
        t.bpm.segments = s.bpm.segments.filter (fun e => decide (e.2.1 ≠ x.buffer)) ∧
        t.bpm.staging.held = s.bpm.staging.held - 1 ∧
        (x.buffer ∉ s.bpm.leaving → t.bpm.staging.freed = x.buffer :: s.bpm.staging.freed))) ∧
    (∀ ch st ctx n o a addr len h off k, ch < 128 →
      s.kry.ops.find? (fun o => decide (o.ctx = ctx) && decide (o.ticket = n)) = some o →
      o.op = .hostRead a addr len h off → (∃ i, s.kinst o.inst = some i ∧ i.ctx = ctx) → s.kctx ctx = some k →
      (∃ x ∈ k.tickets, x.num = n ∧ x.done = none) →
      Goes (.hostDmaFault ch st (.ticket ctx n)) s (fun t => (∃ e ∈ t.hif.raised, e.code = 0x0103) ∧
        t.kry.ops = s.kry.ops.erase o ∧ ∃ k', t.kctx ctx = some k' ∧
          ∃ x ∈ k'.tickets, x.num = n ∧ x.done = some (1, 0) ∧ x.dmaFault = some st))

/-- R117, R144, R145, R148, R151, R171, R172, R190, R193: a slot of the
cap goes to the entry whose turn it is, unless its block now refuses it, or lets a suspended operation go on; the last sense of a lone read completes it with its
data; a program records what it wrote, an erase frees its block with its wear counted; a failed status retires the block, a
refusal is told to its issuer with event 0x0504, and a die or channel that does not answer is lost. -/
def Obligations.DieOperationsStartEndAndFail : Prop :=
  ∀ s : State, Tables s →
    (∀ d e, s.firstHeldBack = none → s.capHead d = some e → s.slotFree d e = true → s.slotFirst d e = true →
      s.refused d e = false →
      Goes (.capSlotGrant d) s (fun t => (∃ o, (t.die d).op = some o ∧ o.entry = e ∧ o.slot = true ∧ o.suspended = false ∧
          o.issuedAt = s.now) ∧ (t.die d).queue = (s.die d).queue.erase e ∧ (∀ x, x ≠ d → t.die x = s.die x) ∧ SameZones s t)) ∧
    (∀ d o a, s.firstHeldBack = some (a, d) → (s.die d).op = some o → o.suspended = true →
      s.slotFree d o.entry = true →
      Goes (.capSlotGrant d) s (fun t => t.die d = { s.die d with op := some { o with
          slot := true, suspended := false, leftNs := o.leftNs + 20000, sinceAt := s.now } } ∧
        (∀ x, x ≠ d → t.die x = s.die x) ∧ t.zns = s.zns)) ∧
    (∀ v g z w, LoneRead s v g z → s.canFinish g.die (.hostRead v.id 0) = true →
      Goes (.readSenseComplete v.id 0 true w) s (fun t => Completed t v.cmd .success ∧ Output.data v.cmd v.data ∈ t.hif.out ∧
        t.car.flights = [] ∧ SameZones s t)) ∧
    (∀ d o, s.endable d isProgram = some o → (s.die d).queue = [] →
      (∃ t, exec (.programComplete d) s = .next t) ∧
      (∀ z r k, o.entry.purpose = .zoneRow z r k ∨ o.entry.purpose = .fold z r k → k < 16 →
        Goes (.programComplete d) s (fun t => (t.die d).op = none ∧
          t.row z r = { s.row z r with programmed := (s.row z r).programmed ||| BitVec.ofNat 16 (2 ^ k) } ∧
          t.zns = { s.zns with rows := t.zns.rows } ∧ t.fls.blocks = s.fls.blocks)) ∧
      (∀ r k w u, o.entry.purpose = .landing r k → s.landRow r = some w → w.closed = false → w.units[k]? = some u →
        Goes (.programComplete d) s (fun t => t.zns.zones = s.zns.zones ∧ ∃ us, t.landRow r = some { w with units := us } ∧
          us.length = w.units.length ∧ us[k]? = some { u with programmed := true } ∧
          ∀ i x y, i ≠ k → w.units[i]? = some x → us[i]? = some y →
            y = { x with pages := y.pages, valid := y.valid } ∧ (y.valid = true → x.valid = true)))) ∧
    (∀ d o role, s.endable d isErase = some o → (s.die d).queue = [] → o.entry.purpose = .erase role →
      (role = .landing → LandingCalm s) →
      Goes (.eraseComplete d) s (fun t =>
        let b := s.block d o.entry.block
        let loan := role = .zone ∧ 0 < (s.die d).loans
        t.block d o.entry.block = { b with
          role := if loan then .spare else role, qlc := decide (o.entry.kind = .eraseQlc), reads := 0, wp := 0, first := 0
          last := 0, temps := 0, hint := 0, gen := 0, wear := min 0xFFFFF (b.wear + if o.entry.kind = .eraseQlc then 4 else 1)
          use := if role = .system then .system else .free } ∧
        (t.die d).op = none ∧ (t.die d).loans = (s.die d).loans - (if loan then 1 else 0) ∧ t.zns = s.zns)) ∧
    (∀ d e f, s.refusedAt d = some e → e.block < 8192 → (∀ z r k, e.purpose = .zoneRow z r k →
      Goes (.dieStatusReport d f) s (fun t => (t.block d e.block).use = .retired ∧
        ∃ v ∈ t.hif.raised, v.code = 0x0504 ∧ v.source = srcZone z ∧ v.comp = e.comp))) ∧
    (∀ d o, (s.die d).op = some o → isProgErase o.entry.kind = true → o.entry.block < 8192 → s.refusedAt d = none →
      exec (.dieStatusReport d false) s = .next s ∧
      (∀ z r k, o.entry.purpose = .zoneRow z r k → Goes (.dieStatusReport d true) s (fun t =>
        (t.block d o.entry.block).use = .retired)) ∧
      (∀ r, o.entry.purpose = .erase r → Goes (.dieStatusReport d true) s (fun t =>
        (t.block d o.entry.block).use = .retired))) ∧
    (∀ d, d < s.part.variant.dies →
      ((s.die d).lost = false → (s.die d).op.isSome = true → Goes (.dieTimeout d false) s (fun t => (t.die d).lost = true)) ∧
      ((s.channel (dieChannel d)).lost = false → dieChannel d < s.fls.channels.length → Goes (.dieTimeout d true) s (fun t =>
        (t.channel (dieChannel d)).lost = true ∧ (t.die d).lost = true)))

/-- R159, R161, R165, R166, R171, R174, R175, R179: a row that is programmed
whole closes, a folded one switches to its QLC copy, a landing row closes; a fold, a compaction, a deferred erase and a wear
relocation start on what the rules pick; a promenade visit counts its reads, queues a block past its limits, and
retires one that needs tier 4 or is not read at all. -/
def Obligations.RowsCloseAndMediaUpkeepStarts : Prop :=
  ∀ s : State, Tables s →
    (∀ z r, s.fls.relocs = [] → (∀ x ∈ s.car.flights, x.zone ≠ some z) →
      let closes := fun (i : Instr) => Goes i s (fun t =>
        t.row z r = { s.row z r with qlc := true, folding := false, reloaded := false, issued := true } ∧
        (∀ k, k ≠ z * 96 + r → look Row.none t.zns.rows k = look Row.none s.zns.rows k) ∧
        t.zns = { s.zns with rows := t.zns.rows } ∧ t.car = s.car)
      ((s.row z r).issued = true → (s.row z r).qlc = false → (s.row z r).folding = false → (s.row z r).pinned = false →
        (s.row z r).programmed = 0xFFFF → closes (.stripeRowClose z r)) ∧
      ((s.row z r).folding = true → (s.row z r).programmed = 0xFFFF → closes (.foldSwitch z r))) ∧
    (∀ r w, s.landRow r = some w → w.closed = false → w.units.length = 16 → (∀ u ∈ w.units, u.programmed = true) →
      (∃ u ∈ w.units, u.valid = true) → LandingCalm s → Goes (.landingRowClose r) s (fun t => t.landRow r = some { w with closed := true } ∧
        t.zns = s.zns)) ∧
    (∀ z r, s.mayFold z r = true → Goes (.foldStart z r) s (fun t => (t.row z r).folding = true ∧ (t.row z r).issued = true ∧
      (t.row z r).qlc = (s.row z r).qlc ∧ t.zns = { s.zns with rows := t.zns.rows, seq := t.zns.seq })) ∧
    (∀ d b, s.compactPick = some (d, b) → s.working = true → s.landingAvail * 20 < s.landingTotal →
      Goes .compactionStart s (fun t => ∃ n, (d, b, n) ∈ t.fls.compacting)) ∧
    (∀ d b rest next, (s.die d).eraseQueue = b :: rest → (s.block d b).use = .deferred next → next ≠ .landing →
      s.working = true → (s.die d).lost = false → s.unjournalled d b = false → s.sensing d b = false →
      Goes (.deferredEraseStart d) s (fun t => b ∉ (t.die d).eraseQueue ∧ SameZones s t ∧
        ∃ e : QEntry, e.kind = (if next = .system then .eraseSlc else .eraseQlc) ∧ e.block = b ∧ e.purpose = .erase next ∧
          (e ∈ (t.die d).queue ∨ ∃ o, (t.die d).op = some o ∧ o.entry = e))) ∧
    (∀ d z k b m, s.wearPick d = some (z, k, b) → s.working = true → (s.membersOf z)[k]? = some m →
      Goes (.wearRelocationStart d) s (fun t => (t.block d b).use = .target ∧ SameZones s t ∧
        t.fls.relocs = s.fls.relocs ++ [{ id := s.fls.relocNext, kind := .wear, zone := z, member := k, srcDie := m.1
                                          srcBlock := m.2, dstDie := d, dstBlock := b, copied := 0 }])) ∧
    (∀ c x bits tier, s.promNext c = some x → s.working = true → c < s.fls.clusters.length →
      (s.clusterOf c).media.promHours ≠ 0 →
      (4 ≤ tier → x.2.2 < 8192 → Goes (.promenadeVisit c bits tier) s (fun t => (t.block x.2.1 x.2.2).use = .retired)) ∧
      (tier < 4 → Goes (.promenadeVisit c bits tier) s (fun t =>
        (t.block x.2.1 x.2.2).reads = min 0xFFFFFF ((s.block x.2.1 x.2.2).reads + 8) ∧ (t.clusterOf c).promNext = x.1 + 1 ∧
        t.zns = s.zns ∧ ((max 1 (s.clusterOf c).media.promBits ≤ bits ∨ 2 ≤ tier) →
          (∃ z, (s.block x.2.1 x.2.2).use = .zone z) → s.moving x.2.1 x.2.2 = false → (x.2.1, x.2.2) ∈ t.fls.refresh))))

/-- R95, R96, R187, R188, R191, R194: relocations and rebuilds start, a commit switches the member's location, and units of the
conventional region move between the landing pool and its stripe rows without changing what they hold: a copy starts with the
map as it was, and its last program switches the entry of every unit that has not been written since. -/
def Obligations.MembersAndConventionalUnitsMove : Prop :=
  ∀ s : State, Tables s → s.working = true →
    (∀ d b z k n, (d, b) ∈ s.fls.refresh → s.moving d b = false → s.servedBy d b = some (z, k) → s.isCarved z = false →
      s.bestFree d .zone = some n → Goes (.relocationStart d b) s (fun t => SameZones s t ∧ ∃ r ∈ t.fls.relocs,
        r.id = s.fls.relocNext ∧ r.kind = .refresh ∧ r.zone = z ∧ r.member = k ∧ r.srcDie = d ∧ r.srcBlock = b ∧
        r.dstDie = d ∧ r.dstBlock = n)) ∧
    (∀ i r, s.fls.relocs.find? (fun r => decide (r.id = i)) = some r → s.mayCommit r = true → r.kind ≠ .rebuild →
      s.isCarved r.zone = false → (r.srcDie, r.srcBlock) ≠ (r.dstDie, r.dstBlock) →
      r.srcBlock < 8192 → r.dstBlock < 8192 → Goes (.relocationCommit i) s (fun t =>
        (t.zone r.zone).members = modAt (s.zone r.zone).members r.member (fun _ => (r.dstDie, r.dstBlock)) ∧
        (∀ y, y ≠ r.zone → t.zone y = s.zone y) ∧ (t.block r.dstDie r.dstBlock).use = .zone r.zone ∧
        ((t.block r.srcDie r.srcBlock).use = .leaving ∨ (t.block r.srcDie r.srcBlock).use = .deferred .zone) ∧
        (∀ x ∈ t.fls.relocs, x.id ≠ i) ∧ t.zns.data = s.zns.data)) ∧
    (∀ z k d b m q, s.fls.rebuild.find? (fun q => decide (q.zone = z) && decide (q.member = k)) = some q →
      q.target = some (d, b) → (s.membersOf z)[k]? = some m →
      (∀ j x, j ≠ k → (s.membersOf z)[j]? = some x → j ∉ s.failedOf z ∧ s.deadBlock x.1 x.2 = false) →
      Goes (.rebuildStart z k) s (fun t => t.fls.rebuild = s.fls.rebuild.erase q ∧ SameZones s t ∧ ∃ r ∈ t.fls.relocs, r.id = s.fls.relocNext ∧
          r.kind = .rebuild ∧ r.zone = z ∧ r.member = k ∧ r.dstDie = d ∧ r.dstBlock = b)) ∧
    (∀ us row t0, s.freeConvRow = some (row, t0) → s.copyable us = true → (t0.convSlot (row / 96)).failed = [] →
      (∀ m ∈ (t0.convSlot (row / 96)).members, t0.deadBlock m.1 m.2 = false) →
      Goes (.conventionalCopy us) s (fun t => (∃ f ∈ t.zns.convFills, f.row = row ∧ f.programmed = 0) ∧
        t.zns.convMap = s.zns.convMap ∧ t.zns.convData = s.zns.convData ∧ t.zns.convTags = s.zns.convTags ∧
        t.zns.zones = s.zns.zones)) ∧
    (∀ d o row k f, s.endable d isProgram = some o → (s.die d).queue = [] → o.entry.purpose = .conventional row k →
      s.convFill row = some f → canon 0xFFFFFFFF s.zns.convMap = true → (f.moves.map (·.1)).Nodup →
      (f.programmed ||| BitVec.ofNat 16 (2 ^ k) ≠ 0xFFFF → Goes (.programComplete d) s (fun t =>
        t.zns = { s.zns with convFills := s.zns.convFills.map (fun x =>
          if x.row = row then { f with programmed := f.programmed ||| BitVec.ofNat 16 (2 ^ k) } else x) })) ∧
      (f.programmed ||| BitVec.ofNat 16 (2 ^ k) = 0xFFFF → f.row = row → Goes (.programComplete d) s (fun t =>
        (∀ u q i, (u, q, i) ∈ f.moves →
          let e := look 0xFFFFFFFF s.zns.convMap u
          look 0xFFFFFFFF t.zns.convMap u =
            if 2 ^ 31 ≤ e.toNat ∧ e.toNat < 0xFFFFFFFE ∧ (look State.noTag s.zns.convTags u).seq = q
            then BitVec.ofNat 32 (s.convUnitAt (row / 96) (row % 96 * 3840 + i)) else e) ∧
        (∀ u, (∀ x ∈ f.moves, x.1 ≠ u) → look 0xFFFFFFFF t.zns.convMap u = look 0xFFFFFFFF s.zns.convMap u) ∧
        (∀ g ∈ t.zns.convFills, g.row ≠ row) ∧
        t.zns.convData = s.zns.convData ∧ t.zns.convTags = s.zns.convTags ∧ t.zns.zones = s.zns.zones))) ∧
    (∀ k n, s.reclaimPick = some (k, n) → n = 0 ∨ s.zns.convShare + n ≤ s.shareUnits → canon 0xFFFFFFFF s.zns.convMap = true →
      s.zns.convMap.length < 2 ^ 31 → Goes .conventionalReclaim s (fun t =>
      (∀ u ∈ s.unitsInRow k, ∃ i < 2 ^ 31, look 0xFFFFFFFF t.zns.convMap u = BitVec.ofNat 32 (2 ^ 31 + i)) ∧
      t.zns.convData = s.zns.convData ∧ t.zns.convTags = s.zns.convTags ∧ t.zns.zones = s.zns.zones))

/-- R187, R206, R207, R210 to R214: a journal unit programs what was recorded, which is durable with its last program; a
checkpoint runs and becomes valid in the other slot; a mount ends mounted, with the shutdown marker taken, or fails and leaves
the module Parked. -/
def Obligations.JournalCheckpointsAndMounts : Prop :=
  ∀ s : State,
    (0 < s.jrn.tail → s.journalOpen = true → Goes .journalUnitProgram s (fun t => t.jrn.tail = 0 ∧
      t.jrn.units = s.jrn.units + (s.jrn.tail * 64 + 65535) / 65536 ∧
      (s.mnt.state = 4 → t.nvNext.comps = s.cmp ∧ t.nvNext.keys = s.sec.keys ∧ t.nvNext.shares = s.car.share ∧
        t.nvNext.foldCfg = s.fls.fold) ∧
      t.nv = (if t.underWay .journal = true then s.nv else t.nvNext) ∧
      SameZones s t ∧ t.sec = s.sec ∧ t.bpm = s.bpm ∧ t.mnt = s.mnt ∧ t.kry.ctxs = s.kry.ctxs)) ∧
    (∀ d o, s.endable d isProgram = some o → (s.die d).queue = [] → o.entry.purpose = .journal →
      canon Die.idle s.fls.dies = true →
      (∀ x v, (x, v) ∈ s.fls.dies → x ≠ d → (∀ q ∈ v.queue, q.purpose ≠ .journal) ∧ ∀ p, v.op = some p → p.entry.purpose ≠ .journal) →
      Goes (.programComplete d) s (fun t => t.nv = s.nvNext ∧ t.zns = s.zns)) ∧
    (s.awake = true → s.mnt.state = 4 → s.jrn.running = false → s.mnt.stopping = false →
      Goes .checkpointStart s (fun t => t.jrn.running = true ∧ t.jrn.before = s.jrn.units ∧ t.jrn.beganAt = t.tim.now ∧
        (s.mnt.firstCkpt = true ∨ 32768 < s.jrn.units → t.tim = s.tim) ∧ SameZones s t ∧ t.sec = s.sec ∧ t.bpm = s.bpm ∧
        t.mnt = s.mnt ∧ t.nv = s.nv)) ∧
    (s.awake = true → s.jrn.running = true → s.jrn.stripes = 0 → s.underWay .checkpoint = false → s.mnt.closing = false →
      Goes .checkpointValid s (fun t => t.jrn.running = false ∧ t.jrn.valid = true ∧
        t.jrn.slot = (if s.jrn.valid = true then 1 - s.jrn.slot else 0) ∧ t.mnt.firstCkpt = false ∧
        (s.mnt.state = 4 → t.nv.keys = s.sec.keys) ∧ t.sec = s.sec ∧
        (s.mnt.firstCkpt = false → t.jrn.tail = 0 ∧ SameZones s t))) ∧
    (∀ good fb ms, s.awake = true → s.mnt.state = 1 ∨ s.mnt.state = 2 ∨ s.mnt.state = 3 → s.mnt.waiting = false →
      Goes (.mountComplete true good fb ms) s (fun t => t.mnt.state = 4 ∧ t.mnt.progress = 100 ∧ t.mnt.firstCkpt = true ∧
        t.mnt.shutdown = s.plog.marker ∧ t.plog.marker = 0 ∧ t.zns.online = true ∧
        (t.mnt.scanned = false ↔ s.mnt.state = 1 ∧ s.plog.marker ≠ 0 ∧ s.jrn.valid = true ∧ good = true) ∧
        ∃ e, t.hif.raised.head? = some e ∧ e.code = 0x0603 ∧ e.level = 1) ∧
      Goes (.mountComplete false good fb ms) s (fun t => t.mnt.state = 5 ∧ t.mnt.shutdown = s.plog.marker ∧ t.zns = s.zns ∧
        t.boot = s.boot ∧ ∃ e, t.hif.raised.head? = some e ∧ e.code = 0x0604 ∧ e.level = 4))

/-- R391, R398 to R400, R404, R405: the scrubs count what they correct and what they cannot, mark what a consumer will meet, and
withdraw the frame or buffer; an owner whose oldest buffer is older than `leak_ms` is reported once. -/
def Obligations.ScrubsCountAndWithdraw : Prop :=
  ∀ s : State, (s.pwr.pstate = .run ∨ s.pwr.pstate = .idle) →
    (s.mem.dramH ≠ 0 →
      (∀ pct, Goes (.dramScrubStep (.clean pct false)) s (fun t => t = { s with mem := { s.mem with dramPct := pct } }) ∧
        Goes (.dramScrubStep (.clean pct true)) s (fun t =>
          t = { s with mem := { s.mem with dramPct := 0, passes := s.mem.passes + 1, frameRuns := [] } })) ∧
      (∀ ch dev fr a, ch < 8 → dev < 10 → s.dramAreaOk a = true →
        Goes (.dramScrubStep (.corrected ch dev fr a)) s (fun t => t.mem.dramCe = min 0xFFFF (s.mem.dramCe + 1) ∧
          t.mem.dramUe = s.mem.dramUe ∧ t.zns = s.zns ∧ t.car = s.car ∧
          (s.mem.marked[ch]? = some dev → t = { s with mem := { s.mem with dramCe := t.mem.dramCe } }))) ∧
      (∀ ch fr h off b, ch < 8 → s.buf h = some b → b.domain = 0 →
        Goes (.dramScrubStep (.uncorrectable ch fr (.buffer h off))) s (fun t =>
          t.mem.dramUe = min 0xFF (s.mem.dramUe + 1) ∧ BadWord.buffer h off ∈ t.mem.bad ∧
          t.buf h = some { b with withdraw := true } ∧ (∃ e, t.hif.raised.head? = some e ∧ e.code = 0x0A03 ∨
            ∃ e, t.hif.raised[1]? = some e ∧ e.code = 0x0A03) ∧ t.zns = s.zns))) ∧
    (s.mem.sramMin ≠ 0 →
      (∀ pct, Goes (.sramScrubStep (.clean pct)) s (fun t => t.mem.sramPct = pct ∧ t.mem.sramCe = s.mem.sramCe ∧
        t = { s with mem := { s.mem with sramPct := pct, corrections := t.mem.corrections } })) ∧
      (∀ m w a, m < 2040 → s.sramAreaOk a = true → look 0 s.mem.corrections (m * 2 ^ 32 + w) ≠ 2 →
        Goes (.sramScrubStep (.corrected m w a)) s (fun t => t.mem.sramCe = min 0xFFFF (s.mem.sramCe + 1) ∧
          look 0 t.mem.corrections (m * 2 ^ 32 + w) = look 0 s.mem.corrections (m * 2 ^ 32 + w) + 1 ∧
          t = { s with mem := { s.mem with sramCe := t.mem.sramCe, corrections := t.mem.corrections } })) ∧
      (∀ m w a, m < 2040 → s.sramAreaOk a = true → look 0 s.mem.corrections (m * 2 ^ 32 + w) = 2 → look 0 s.mem.remap m < 16 →
        Goes (.sramScrubStep (.corrected m w a)) s (fun t => look 0 t.mem.remap m = look 0 s.mem.remap m + 1)) ∧
      (∀ m w c off, m < 2040 → (s.kctx c).isSome = true → look 0 s.mem.remap m < 16 →
        Goes (.sramScrubStep (.uncorrectable m w (.scratch c off))) s (fun t =>
          t.mem.sramUe = min 0xFF (s.mem.sramUe + 1) ∧ look 0 t.mem.remap m = look 0 s.mem.remap m + 1 ∧
          BadWord.scratch c off ∈ t.mem.bad))) ∧
    (∀ o w, s.owner o = some w → w.leak = false → s.bpm.leakMs ≠ 0 → 0 < s.ownerHeld o → s.bpm.leakMs ≤ s.ownerAge o →
      Goes (.bufferLeak o) s (fun t => t.owner o = some { w with leak := true } ∧ (∀ x, x ≠ o → t.owner x = s.owner x) ∧
        ∃ e, t.hif.raised.head? = some e ∧ e.code = 0x0A01 ∧ e.comp = w.comp ∧
          e.payload = .fields [o, s.ownerHeld o, s.ownerAge o]))

/-- R343, R347 to R349, R360, R364, R365, R369, R372: Compartment Control: create makes a Free compartment Active with the
floor and class of its defaults; delete frees one that is Saved, and resets an Active one first; a PASID is mapped once and
unmapped; reset, freeze, thaw, save and restore move the compartment to the state they give; a create on one that is in use, and
a delete of one that has stripe groups, are Command Sequence Errors. -/
def Obligations.CompartmentControlTakesEffect : Prop :=
  ∀ (s : State) (h : HostCmd) (c : Nat), ControlReady s h c →
    let v := s.comp c
    (∀ p, v.state = .free → p = 0 ∨ p = 1 ∧ s.hif.dual = true → Serves (.compartmentCreate h c p) s h (fun t =>
      (t.comp c).state = .active ∧ (t.comp c).port = p ∧ (t.comp c).en = false ∧ (t.comp c).res.floor = 2 ∧
      (t.comp c).res.cls = 2 ∧ (t.comp c).res.queuePairs = 0 ∧ (t.comp c).res.activeQuota = 0)) ∧
    (v.state ∉ [.free, .freezing, .saving] → ∀ p, p = 0 ∨ p = 1 ∧ s.hif.dual = true →
      Goes (.compartmentCreate h c p) s (fun t => Completed t h .sequenceError ∧ (t.comp c).state = v.state)) ∧
    (s.compGroups c = [] → v.state = .saved → canon 0 s.sec.keys = true → Serves (.compartmentDelete h c) s h (fun t =>
      t.comp c = Comp.free ∧ look 0 t.sec.keys c = 0 ∧ (∀ e ∈ t.cmp.pasids, e.2.2 ≠ c) ∧ ∀ q ∈ t.hif.queues, q.ctl ≠ 1 + c)) ∧
    (s.compGroups c = [] → v.state = .active → s.compReels c = [] → Goes (.compartmentDelete h c) s (fun t =>
      (t.comp c).state = .resetting ∧ ∃ r, (t.comp c).reset = some r ∧ r.kinds = [.delete (some h)] ∧ r.at_ = s.now)) ∧
    (s.compGroups c ≠ [] → v.state ∉ [.freezing, .saving] → Goes (.compartmentDelete h c) s (fun t => Completed t h .sequenceError ∧ (t.comp c).state = v.state)) ∧
    (∀ x p, v.state = .active → x < 2 ^ 20 → p = v.port → p = 0 ∨ p = 1 ∧ s.hif.dual = true →
      (∀ e ∈ s.cmp.pasids, ¬ (e.1 = p ∧ e.2.1 = x)) → s.cmp.pasids.length < 1024 → (s.compPasids c).length < 64 →
      Serves (.mapPasid h c x p) s h (fun t => t.cmp.pasids = s.cmp.pasids ++ [(p, x, c)] ∧ t.hif.queues.length = s.hif.queues.length)) ∧
    (∀ x p, v.state = .active → x < 2 ^ 20 → p = 0 ∨ p = 1 ∧ s.hif.dual = true → (p, x, c) ∈ s.cmp.pasids →
      s.pasidUsed c x p = false → Serves (.unmapPasid h c x p) s h (fun t => t.cmp.pasids = s.cmp.pasids.erase (p, x, c))) ∧
    (v.state = .active → s.compReels c = [] → Goes (.compartmentReset h c) s (fun t => (t.comp c).state = .resetting ∧
      (t.comp c).en = false ∧ (t.comp c).fetchStopped = true ∧ (t.comp c).resetByHost = false ∧
      ∃ r, (t.comp c).reset = some r ∧ r.kinds = [.control (some h)] ∧ r.at_ = s.now ∧ r.squashed = false)) ∧
    (v.state = .active → Goes (.compartmentFreeze h c) s (fun t => (t.comp c).state = .freezing ∧ (t.comp c).waiting = some h ∧
      t.frozen c = true)) ∧
    (v.state = .frozen → Serves (.compartmentThaw h c) s h (fun t => (t.comp c).state = .active ∧ t.frozen c = false)) ∧
    (∀ n, v.state = .frozen → s.compReels c = [] → s.compCmds c = 0 → (s.compRecord c).length ≤ n →
      Serves (.compartmentSave h c n) s h (fun t => (t.comp c).state = .saved ∧ (t.comp c).token = some s.now ∧
        (t.comp c).en = false ∧ ∃ d, Output.data h d ∈ t.hif.out ∧ d.length = (s.compRecord c).length)) ∧
    (∀ n, v.state = .frozen → s.compReels c = [] → s.compCmds c ≠ 0 → Goes (.compartmentSave h c n) s (fun t =>
      (t.comp c).state = .saving ∧ (t.comp c).fetchStopped = true ∧ (t.comp c).waiting = some h)) ∧
    (∀ params record key w, leAt params 12 2 = c → let u := s.fetch h
      let r := State.recordOfBytes record
      let p := leAt params 14 1
      (p = 0 ∨ p = 1 ∧ s.hif.dual = true) → v.state = .saved ∨ v.state = .active → State.recordValid params r = true →
      u.targetFits c r = true → u.pasidsFit params p r = true → u.groupsFit c params r = true → u.roomFor r = true →
      u.recordKey r = some key → u.restoreNow c p key params r = some w →
      Serves (.compartmentRestore h params record) s h (fun t => (t.comp c).state = .frozen ∧ t.cmp = w.cmp ∧ t.car = w.car))

/-- R111, R297, R346, R350, R360 to R364, R412, R413: a compartment's controller is enabled and disabled, commands are squashed, and
resets, freezes and drains end. -/
def Obligations.ControllersSquashesResetsAndDrains : Prop :=
  ∀ s : State, Tables s →
    (∀ p, s.reachable p = true →
      ((s.port p).en = false → Goes (.controllerEnable p) s (fun t => (t.port p).en = true ∧
        ((t.port p).rdy = true ↔ s.boot.step = 9 ∧ (s.port p).squashing = false) ∧ t = { s with hif := t.hif })) ∧
      ((s.port p).en = true → Goes (.controllerDisable p) s (fun t => (t.port p).en = false ∧ (t.port p).rdy = false ∧
        (t.port p).squashing = true ∧ t = { s with hif := t.hif })) ∧
      (∀ c, s.windowOpen p c = true → (s.comp c).state = .active →
        ((s.comp c).en = false → s.pasidMapped p (s.comp c).apasid c = true → Goes (.compartmentEnSet p c) s (fun t =>
          t.comp c = { s.comp c with en := true, rdy := true, cfs := false } ∧
          ∃ a b, t.hif.queues = s.hif.queues ++ [a, b] ∧ a.ctl = 1 + c ∧ a.qid = 0 ∧ a.sq = true ∧
            a.size = (s.comp c).aqa.toNat % 4096 + 1 ∧ b.ctl = 1 + c ∧ b.qid = 0 ∧ b.sq = false ∧
            b.size = (s.comp c).aqa.toNat / 65536 % 4096 + 1)) ∧
        ((s.comp c).en = false → s.pasidMapped p (s.comp c).apasid c = false → Goes (.compartmentEnSet p c) s (fun t =>
          t.comp c = { s.comp c with en := true, rdy := false, cfs := true } ∧ t.hif = s.hif)) ∧
        ((s.comp c).en = true → (s.comp c).reset = none → s.compReels c = [] → Goes (.compartmentEnClear p c) s (fun t =>
          (t.comp c).state = .resetting ∧ (t.comp c).en = false ∧ (t.comp c).resetByHost = true)))) ∧
    (∀ c r v g z, LoneRead s v g z → s.fcd.jobs = [] → v.cmd.comp = c → (s.comp c).state = .resetting →
      (s.comp c).reset = some r → r.squashed = false → Goes (.squashInstant (.compartment c)) s (fun t =>
        t.car.flights = [] ∧ t.hif.out = s.hif.out ∧ t.zns = s.zns ∧
        t.tim.now = max s.now (min (r.at_ + 2000) 0xFFFFFFFFFFFFFFFF) ∧
        ∃ r', (t.comp c).reset = some r' ∧ r'.squashed = true)) ∧
    (∀ p, p < 2 → (s.port p).squashing = true → s.car.flights = [] → s.fcd.jobs = [] → s.mnt.stopping = false →
      Goes (.squashInstant (.controller p)) s (fun t => (t.port p).squashing = false ∧ (∀ q ∈ t.hif.queues, q.ctl ≠ p) ∧
        ((t.port p).rdy = true ↔ (s.port p).en = true ∧ s.boot.step = 9) ∧ t.zns = s.zns)) ∧
    (∀ c r, (s.comp c).reset = some r → r.squashed = true → s.compQuiet c = true → r.kinds = [.host] →
      (s.comp c).control = [] → (s.comp c).wasFrozen = false → (s.comp c).state = .resetting → s.mnt.stopping = false →
      Goes (.compartmentResetComplete c) s (fun t => (t.comp c).state = .active ∧ (t.comp c).reset = none ∧
        (t.comp c).fetchStopped = false ∧ (t.comp c).resets = (s.comp c).resets + 1 ∧
        (∀ i, (t.carriage i).comp = c → (t.carriage i).coupled = false) ∧ ∀ q ∈ t.hif.queues, q.ctl ≠ 1 + c)) ∧
    (∀ c, (s.comp c).state = .freezing → s.freezeQuiet c = true → (s.comp c).control = [] →
      Goes (.compartmentFreezeComplete c) s (fun t => (t.comp c).state = .frozen ∧ (t.comp c).waiting = none ∧
        (∀ h, (s.comp c).waiting = some h → Completed t h .success) ∧ t.zns = s.zns ∧ t.car = s.car)) ∧
    (∀ i, (s.carriage i).draining = true → (s.carriage i).outstanding = 0 →
      (∀ n x, (n, some x) ∈ s.zns.spaces → x.deleting = false) → s.mnt.stopping = false →
      Goes (.carriageDrainComplete i) s (fun t => t.carriage i = { s.carriage i with coupled := false, draining := false } ∧
        (∀ j, j ≠ i → t.carriage j = s.carriage j) ∧ t.zns = s.zns ∧ t.fls = s.fls))

/-- R346, R355, R412, R415 to R417: I/O queues are created and deleted, and doorbells move a queue's tail or head; a doorbell value
beyond the queue's size is ignored, on a compartment's window with event 0x0902. -/
def Obligations.QueuesAndDoorbells : Prop :=
  ∀ s : State,
    (∀ h q, AdminReady s h → h.comp = 0 → 1 ≤ q.qid → q.qid ≤ 64 → 2 ≤ q.size → q.size ≤ 4096 → q.pc = true →
      q.base % 4096 = 0 → q.pasid = none →
      (s.queue (ctlOf h) q.qid false = none → s.queueCount (some (ctlOf h)) false < 64 → s.queueCount none false < 8192 →
        q.vector ≤ 7 → Serves (.createIoCq h q) s h (fun t => HasQueue t (ctlOf h) false q)) ∧
      (s.queue (ctlOf h) q.qid true = none → s.queueCount (some (ctlOf h)) true < 64 → s.queueCount none true < 8192 →
        q.cqid ≠ 0 → (s.queue (ctlOf h) q.cqid false).isSome = true →
        Serves (.createIoSq h q) s h (fun t => HasQueue t (ctlOf h) true q)) ∧
      (s.queue (ctlOf h) q.qid true = none → s.queueCount (some (ctlOf h)) true < 64 → s.queueCount none true < 8192 →
        s.queue (ctlOf h) q.cqid false = none → OnlyCompletes (.createIoSq h q) s h .completionQueueInvalid)) ∧
    (∀ h qid, AdminReady s h → qid ≠ 0 →
      (∀ sq, (s.queue (ctlOf h) qid sq).isSome = true →
        (sq = false → ∀ e ∈ s.hif.queues, e.ctl = ctlOf h → e.sq = true → e.qid ≠ 0 → e.cq ≠ qid) →
        Serves (if sq then .deleteIoSq h qid else .deleteIoCq h qid) s h (fun t =>
          ∀ e ∈ t.hif.queues, ¬ (e.ctl = ctlOf h ∧ e.qid = qid ∧ e.sq = sq))) ∧
      (s.queue (ctlOf h) qid true = none → OnlyCompletes (.deleteIoSq h qid) s h .invalidQueue) ∧
      (s.queue (ctlOf h) qid false = none → OnlyCompletes (.deleteIoCq h qid) s h .invalidQueue)) ∧
    (∀ p c qid v q, s.reachable p = true → qid ≤ 64 →
      let ctl := if c = 0 then p else 1 + c
      let bell := fun (sq : Bool) => if sq then Instr.sqTailDoorbell p c qid v else Instr.cqHeadDoorbell p c qid v
      (∀ sq, s.queue ctl qid sq = some q → v < q.size → (c = 0 → (s.port p).en = true) →
        (c ≠ 0 → s.windowOpen p c = true ∧ (s.comp c).fetchStopped = false) → Goes (bell sq) s (fun t =>
          (∃ e, t.queue ctl qid sq = some e ∧ e = { q with tail := if sq then v else q.tail, head := if sq then q.head else v }) ∧
          t = { s with hif := { s.hif with queues := t.hif.queues }, pwr := s.activity.pwr })) ∧
      (∀ sq, s.queue ctl qid sq = some q → q.size ≤ v → c = 0 → (s.port p).en = true → Goes (bell sq) s (fun t => t = s.activity)) ∧
      (∀ sq, s.queue ctl qid sq = some q → q.size ≤ v → c ≠ 0 → s.windowOpen p c = true → Goes (bell sq) s (fun t =>
        t.hif.queues = s.hif.queues ∧ (t.comp c).intStat.getLsbD 1 = true ∧
        ∃ e, t.hif.raised.head? = some e ∧ e.code = 0x0902 ∧ e.payload = .fields [qid, v])))

/-- R355, R357, R414, R417 to R421, R433: Identify, logs, Abort, Asynchronous Event Request and features complete with what they
return, and what the module does not serve completes with Invalid Command Opcode. -/
def Obligations.StandardAdminCommandsComplete : Prop :=
  ∀ (s : State) (h : HostCmd), AdminReady s h → h.comp = 0 → h.port < 2 →
    let p := s.port h.port
    let sets := fun (i : Instr) (f : Features) => Serves i s h (fun t => (t.port h.port).feat = f ∧ t.zns = s.zns ∧ t.pwr = (s.fetch h).pwr)
    (∀ csi cntid, Serves (.identify h 0x01 csi cntid) s h (fun t => Output.data h ((s.fetch h).identifyController h) ∈ t.hif.out)) ∧
    (∀ cntid, OnlyCompletes (.identify h 0x05 1 cntid) s h .invalidField) ∧
    (∀ cns csi cntid, cns ∉ [0x00, 0x01, 0x02, 0x03, 0x05, 0x06, 0x07, 0x08, 0x1C] →
      OnlyCompletes (.identify h cns csi cntid) s h .invalidField) ∧
    (∀ off n, off ≤ 4096 → Serves (.getLogPage h 0x01 off n) s h (fun t =>
      ∃ d, Output.data h d ∈ t.hif.out ∧ d.length ≤ n)) ∧
    (∀ lid off n, lid ∉ [0x01, 0x02, 0x03, 0x04, 0x05, 0xBF] → OnlyCompletes (.getLogPage h lid off n) s h .invalidLogPage) ∧
    (∀ sqid cid x, x ∈ p.aers → ctlOf x = ctlOf h → x.qid = sqid → x.cid = cid → (∀ y ∈ p.aers, y = x ∨ y.cid ≠ cid) →
      Goes (.abort h sqid cid) s (fun t => Completed t x .abortRequested ∧ Completed t h .success ∧
        (t.port h.port).aers = p.aers.filter (fun y => decide (y.cid ≠ cid)) )) ∧
    (∀ sqid cid, (∀ y ∈ p.aers, y.cid ≠ cid) → (∀ m v, (m, v) ∈ s.cmp.table → v.control = []) →
      CompletesWith (.abort h sqid cid) s h 1 (fun t => t.car = s.car ∧ t.zns = s.zns)) ∧
    (∀ a i g r, p.asyncEvents = (a, i, g) :: r → CompletesWith (.asynchronousEventRequest h) s h
      (BitVec.ofNat 32 (g * 65536 + i * 256 + a)) (fun t => (t.port h.port).asyncEvents = r)) ∧
    (p.asyncEvents = [] → p.aers.length < 8 → Goes (.asynchronousEventRequest h) s (fun t =>
      (t.port h.port).aers = p.aers ++ [h] ∧ t.hif.out = s.hif.out)) ∧
    (p.asyncEvents = [] → 8 ≤ p.aers.length → OnlyCompletes (.asynchronousEventRequest h) s h .asyncLimit) ∧
    (∀ arg, CompletesWith (.getFeatures h 0x02 arg) s h (BitVec.ofNat 32 s.pwr.mode.code) (fun t => t.zns = s.zns) ∧
      CompletesWith (.getFeatures h 0x08 arg) s h p.feat.coalescing (fun t => t.zns = s.zns) ∧
      CompletesWith (.getFeatures h 0x0B arg) s h p.feat.asyncCfg (fun t => t.zns = s.zns)) ∧
    (∀ ps, ps ≤ 2 → Goes (.setPowerManagement h ps) s (fun t => t.pwr.pendingMode = some (Mode.ofCode ps) ∧
      t.pwr.modeCommands = s.pwr.modeCommands ++ [h] ∧ t.hif.out = s.hif.out)) ∧
    (∀ sensor k, sensor ≤ 3 → p.feat.tempOver.length = 4 → p.feat.tempUnder.length = 4 →
      Serves (.setTemperatureThreshold h k sensor false) s h (fun t =>
        (t.port h.port).feat.tempOver = p.feat.tempOver.set sensor k ∧ (t.port h.port).feat.tempUnder = p.feat.tempUnder) ∧
      Serves (.setTemperatureThreshold h k sensor true) s h (fun t =>
        (t.port h.port).feat.tempUnder = p.feat.tempUnder.set sensor k ∧ (t.port h.port).feat.tempOver = p.feat.tempOver)) ∧
    (∀ nsq ncq, nsq ≤ 65534 → ncq ≤ 65534 → CompletesWith (.setNumberOfQueues h nsq ncq) s h
      (BitVec.ofNat 32 (min nsq 63 + min ncq 63 * 65536)) (fun t => (t.port h.port).feat.queues = min (min nsq ncq) 63 + 1)) ∧
    (∀ v, sets (.setInterruptCoalescing h v) { p.feat with coalescing := v }) ∧
    (∀ iv cd, iv ≤ 7 → sets (.setInterruptVectorConfiguration h iv cd) { p.feat with
      vectors := put 0 p.feat.vectors iv (if cd = true then 1 else 0) }) ∧
    (∀ v, sets (.setAsyncEventConfiguration h v) { p.feat with asyncCfg := v }) ∧
    (∀ ms, s.tim.source = 0 → Serves (.setTimestamp h ms) s h (fun t => t.tim.secSuspect = false ∧ t.tim.timeSet = true)) ∧
    (∀ fid, fid ∉ [0x02, 0x04, 0x07, 0x08, 0x09, 0x0B, 0x0E] → OnlyCompletes (.setFeaturesUnsupported h fid) s h .invalidField) ∧
    OnlyCompletes (.firmwareCommit h) s h .invalidOpcode ∧ OnlyCompletes (.firmwareImageDownload h) s h .invalidOpcode ∧
    (∀ op, op < 256 → op ∉ [0x00, 0x01, 0x02, 0x04, 0x05, 0x06, 0x08, 0x09, 0x0A, 0x0C, 0x10, 0x11, 0x84, 0xC0, 0xC1, 0xC4, 0xC5
      , 0xC6, 0xC8, 0xCA] → OnlyCompletes (.invalidCommandOpcode h op false) s h .invalidOpcode)

/-- R373, R427, R428, R433: an event ring is set up at its base with no record in it, and closed; a record is put at its tail, and a
full ring loses it. -/
def Obligations.EventRingsTakeRecordsUntilFull : Prop :=
  (∀ (s : State) (h : HostCmd) (r : RingArgs), AdminReady s h → h.comp = 0 →
    16 ≤ r.records → r.records ≤ 65536 → 2 ^ Nat.log2 r.records = r.records → r.base % 4096 = 0 → r.vector < 8 → r.pasid = none →
    Serves (.eventRingSetup h r) s h (fun t => t.hif.ring = some { size := r.records, head := 0, tail := 0, base := r.base
                                                                   pasid := none, port := h.port, vector := r.vector
                                                                   slots := [] }) ∧
    Serves (.eventRingClose h) s h (fun t => t.hif.ring = none) ∧
    (∀ bad : RingArgs, bad.records < 16 → OnlyCompletes (.eventRingSetup h bad) s h .invalidField)) ∧
  (∀ (s : State) (r : Ring) (code level source c : Nat) (f : List Int), s.hif.ring = some r → r.tail < r.size →
    let t := s.event code level source c f
    (∃ e, t.hif.raised = e :: s.hif.raised ∧ e.code = code ∧ e.level = level ∧ e.source = source ∧ e.comp = c ∧
      e.payload = .fields f ∧ e.time = s.now ∧
      ((r.tail + 1) % r.size ≠ r.head → ∃ r', t.hif.ring = some r' ∧ r'.tail = (r.tail + 1) % r.size ∧ r'.head = r.head ∧
        look none r'.slots r.tail = some e ∧ t.hif.lost = s.hif.lost)) ∧
    ((r.tail + 1) % r.size = r.head → t.hif.ring = some r ∧ t.hif.lost = min 0xFFFFFFFF (s.hif.lost + 1)) ∧
    t.zns = s.zns ∧ t.car = s.car ∧ t.fls = s.fls ∧ t.bpm = s.bpm ∧ t.sec = s.sec ∧ t.kry.ctxs = s.kry.ctxs)

/-- R312 to R314, R318 to R325, R327, R335 to R337, R427, R429: reels are loaded, unloaded, started, halted and reported, and the
reel store goes into and out of maintenance and takes writes; at the end of its grace time a reel that was told to halt is
stopped in state 6, and the commands that waited for it complete. -/
def Obligations.ReelAdministrationTakesEffect : Prop :=
  (∀ (s : State) (h : HostCmd), AdminReady s h → h.comp = 0 → ReelTables s →
    (∀ image n, s.imageRefusal (imageOf image).1 (imageOf image).2 = none → s.freeHandle = some n →
      s.pinnedTotal + State.pinnedBytes (imageOf image).2 ≤ 12582912 →
      CompletesWith (.reelLoad h image) s h (BitVec.ofNat 32 n) (fun t =>
        t.pinnedAt n = some { comp := h.comp, image := (imageOf image).1, length := (imageOf image).2 } ∧
        ∀ m, m ≠ n → t.pinnedAt m = s.pinnedAt m)) ∧
    (∀ image st, s.imageRefusal (imageOf image).1 (imageOf image).2 = some st → OnlyCompletes (.reelLoad h image) s h st) ∧
    (∀ n x, s.pinnedAt n = some x → s.runsHandle n = false → canon none s.kry.pinned = true →
      Serves (.reelUnload h n) s h (fun t => t.pinnedAt n = none ∧ ∀ m, m ≠ n → t.pinnedAt m = s.pinnedAt m)) ∧
    (∀ n, s.pinnedAt n = none → OnlyCompletes (.reelUnload h n) s h .invalidField) ∧
    (s.kry.writes = [] →
      Serves (.enterMaintenance h) s h (fun t => t.kry.maint = true ∧ t.kry.writes = []) ∧
      Serves (.leaveMaintenance h) s h (fun t => t.kry.maint = false ∧ t.kry.writes = []) ∧
      (s.kry.maint = false → ∀ slot image, OnlyCompletes (.storeWriteSlot h slot image) s h .sequenceError ∧
        OnlyCompletes (.storeClearSlot h slot) s h .sequenceError) ∧
      (∀ slot image r w, s.kry.maint = true → s.runsSlot slot = false → s.kry.insts = [] →
        (∀ q < 4, (s.block (replicaDie q) (s.pairBlock q (slot / 16) (1 - s.liveVersion q (slot / 16)))).use = .system) →
        (List.range 4).find? (fun r => s.replicaReadable r (slot / 16)) = some r →
        let b := s.pairBlock r (slot / 16) (1 - s.liveVersion r (slot / 16))
        let k := s.block (replicaDie r) b
        let issued := fun (op : StoreOp) (t : State) => (∃ x, t.kry.writes = [x] ∧ x.cmd = some h ∧ x.op = op ∧ x.slot = slot ∧
            x.replica = r ∧ x.unit = w) ∧
          ∃ e : QEntry, e.kind = (if w = 1 then .eraseSlc else .progSlc) ∧ e.block = b ∧ e.purpose = .store ∧
            (e ∈ (t.die (replicaDie r)).queue ∨ ∃ o, (t.die (replicaDie r)).op = some o ∧ o.entry = e)
        w = (if k.qlc = false ∧ k.wp = 0 then 3 else 1) →
        (s.imageRefusal (imageOf image).1 (imageOf image).2 = none → Goes (.storeWriteSlot h slot image) s (issued .write)) ∧
        Goes (.storeClearSlot h slot) s (issued .clear))) ∧
    (∀ a m c, s.startFormed h a = true → s.frozen a.comp = false → a.readOk = true → s.startImage h a = .ok m →
      s.imageRefusal m.1 m.2 = none → (a.comp ≠ 0 → imageCaps m.1 &&& stewardCaps = 0) →
      (imageSingle m.1 = true → s.twinOf (imageCheckField m.1) a.comp = none) → s.homeFor a.comp = some c →
      let i := (s.kry.serial + 1).toNat * 256 + c
      CompletesWith (.reelStart h a) s h (BitVec.ofNat 32 i) (fun t => t.kry.serial = s.kry.serial + 1 ∧
        (∃ x, t.kinst i = some x ∧ x.ctx = c ∧ x.source = a.source ∧ x.place = a.place ∧ x.startAt = s.now) ∧
        ∃ k, t.kctx c = some k ∧ k.inst = i ∧ k.pc = imageEntry m.1 ∧ k.cap = imageCaps m.1 ∧ k.comp = a.comp ∧
          (∀ j < 7, reg k (j + 1) = a.args.getD j 0) ∧ reg k 30 = 0x4000 ∧ reg k 29 = 0 ∧ k.scratch = [] ∧
          k.flags = { z := false, n := false, c := false, v := false } ∧ k.epoch = 0 ∧ k.journal = [] ∧ k.held = [])) ∧
    (∀ a m i, s.startFormed h a = true → s.frozen a.comp = false → a.readOk = true → s.startImage h a = .ok m →
      s.imageRefusal m.1 m.2 = none → (a.comp ≠ 0 → imageCaps m.1 &&& stewardCaps = 0) → imageSingle m.1 = true →
      s.twinOf (imageCheckField m.1) a.comp = some i → CompletesWith (.reelStart h a) s h (BitVec.ofNat 32 i) (fun t =>
        t.kry = s.kry)) ∧
    (∀ i x k, s.kinst i = some x → s.kctx x.ctx = some k → k.inst = i →
      Serves (.reelHalt h i 0) s h (fun t => t.kctx x.ctx = none ∧ t.kinst i = none ∧
        ∃ r, t.kry.records.head? = some r ∧ r.inst = i ∧ r.state = 6) ∧
      (∀ ms, 0 < ms → ms < 65536 → k.haltAt = none → Goes (.reelHalt h i ms) s (fun t => t.hif.out = s.hif.out ∧
        t.kctx x.ctx = some { k with haltAt := some (s.now + ms * 1000000), grace := ms, halts := k.halts ++ [h] })) ∧
      Serves (.reelStatus h i) s h (fun t => ∃ r, Output.data h (State.recordBytes r) ∈ t.hif.out ∧ r.inst = i ∧
        r.state = (if k.haltAt.isSome = true then 3 else if k.wait = .ready then 1 else 2) ∧ r.pc = k.pc ∧ r.retired = k.retired)) ∧
    (∀ i r, s.kinst i = none → s.kry.records.find? (fun r => decide (r.inst = i)) = some r →
      Serves (.reelHalt h i 0) s h (fun t => t.kry = s.kry) ∧
      Serves (.reelStatus h i) s h (fun t => Output.data h (State.recordBytes r) ∈ t.hif.out)) ∧
    (∀ i, s.kinst i = none → (∀ r ∈ s.kry.records, r.inst ≠ i) → OnlyCompletes (.reelHalt h i 0) s h .invalidField ∧
      OnlyCompletes (.reelStatus h i) s h .invalidField)) ∧
  (∀ (s : State) (i : Nat) (x : KInst) (k : KCtx) (at_ : Nat), ReelTables s → s.kinst i = some x → s.kctx x.ctx = some k →
    k.inst = i → k.haltAt = some at_ →
    Goes (.reelHaltGraceExpiry i) s (fun t => t.kctx x.ctx = none ∧ t.kinst i = none ∧
      (∃ r, t.kry.records.head? = some r ∧ r.inst = i ∧ r.state = 6 ∧ r.endAt = t.tim.now) ∧
      t.tim.now = max s.now (min at_ 0xFFFFFFFFFFFFFFFF) ∧ (∀ h ∈ k.halts, Completed t h .success) ∧
      ∀ c, c ≠ x.ctx → t.kctx c = s.kctx c))

/-- R380, R381: the owner operations: a query loads the limit and the compartment of the owner; register, unregister, set limit
and reclaim change the owner they name, or answer status 1, 2 or 3 and change nothing: a system owner is refused with 3. -/
def Obligations.OwnerOperationsAnswer : Prop :=
  ∀ (s : State) (p c o lim : Nat), s.reachable p = true → c < 1024 → o < 4096 → lim < 65536 →
    let ends := fun (i : Instr) (st : Nat) (P : State → Prop) => Goes i s (fun t => t.bpm.ownerStatus = st ∧
      t.bpm.ownerDone = true ∧ P t)
    let quiet := fun (t : State) => t.bpm.owners = s.bpm.owners ∧ t.bpm.bufs = s.bpm.bufs ∧
      t.bpm.segments = s.bpm.segments ∧ t.zns = s.zns ∧ t.car = s.car
    ends (.ownerQuery p c o lim) 0 (fun t => quiet t ∧ t.bpm.ownerLimit = (match s.owner o with
      | some x => x.segLimit
      | none => 0) ∧ (t.bpm.ownerInfo.toNat % 1024 = (match s.owner o with
      | some x => x.comp % 1024
      | none => 0))) ∧
    (o < 16 → ends (.ownerRegister p c o lim) 3 quiet ∧ ends (.ownerUnregister p c o lim) 3 quiet ∧
      ends (.ownerSetLimit p c o lim) 3 quiet ∧ ends (.ownerReclaim p c o lim) 3 quiet) ∧
    (16 ≤ o → lim ≠ 1 →
      (s.owner o = none → ends (.ownerRegister p c o lim) 0 (fun t => t.owner o = some { comp := c, segLimit := lim, leak := false } ∧
        (∀ x, x ≠ o → t.owner x = s.owner x) ∧ t.bpm.bufs = s.bpm.bufs)) ∧
      (∀ x, s.owner o = some x →
        (x.comp = c → ends (.ownerRegister p c o lim) 0 (fun t => t.owner o = some { x with segLimit := lim })) ∧
        (x.comp ≠ c → ends (.ownerRegister p c o lim) 1 quiet) ∧
        ends (.ownerSetLimit p c o lim) 0 (fun t => t.owner o = some { x with segLimit := lim } ∧
          (∀ y, y ≠ o → t.owner y = s.owner y))) ∧
      (s.owner o = none → ends (.ownerSetLimit p c o lim) 1 quiet)) ∧
    (16 ≤ o → canon none s.bpm.owners = true →
      (s.ownerNamed o = false → s.ownerHeld o = 0 → ends (.ownerUnregister p c o lim) 0 (fun t => t.owner o = none ∧
        ∀ x, x ≠ o → t.owner x = s.owner x)) ∧
      (s.ownerNamed o = true → ends (.ownerUnregister p c o lim) 1 quiet ∧ ends (.ownerReclaim p c o lim) 1 quiet) ∧
      (s.ownerNamed o = false → s.ownerHeld o ≠ 0 → ends (.ownerUnregister p c o lim) 2 quiet) ∧
      (∀ b, s.ownerNamed o = false → s.reelRuns (s.ownerComp o) = false → s.bpm.bufs = [b] →
        (∃ x, b.2 = some x ∧ finalOwner x = o ∧ x.holders.map (·.1) = [o]) →
        ends (.ownerReclaim p c o lim) 0 (fun t => t.bpm.bufs = [])))

/-- R543 to R548: a raise to Closed writes the level byte, needs a key hash and no unsigned reel; a raise to Sealed blows the
fuse and needs its confirmation; a lowering begins the erase that precedes it; each posts its event or its status. -/
def Obligations.LevelCommandsRaiseAndLower : Prop :=
  ∀ s : State, s.awake = true →
    let only := fun (i : Instr) (st : Nat) => Goes i s (fun t => t = clocked { s with sec := { s.sec with protStatus := st } } t)
    (s.protBusy = true → ∀ c, only (.raiseToClosed c) 5 ∧ only (.raiseToSealed c) 5 ∧ only (.lowerToOpen c) 5) ∧
    (s.protBusy = false →
      (s.sec.level ≠ .opened → ∀ c, only (.raiseToClosed c) 1) ∧
      (s.sec.level ≠ .closed → ∀ c, only (.raiseToSealed c) 1 ∧ only (.lowerToOpen c) 1) ∧
      (s.sec.level = .opened → ∀ c, (s.unsignedRuns = true → only (.raiseToClosed c) 2) ∧
        (s.unsignedRuns = false → s.hasHash = false → only (.raiseToClosed c) 4) ∧
        (s.unsignedRuns = false → s.hasHash = true → s.sec.optCopies.length = 4 → (s.die 0).lost = false →
          s.copyBlock 0 ≠ none → Goes (.raiseToClosed c) s (fun t => t.sec.level = .closed ∧ t.sec.protStatus = 0 ∧
            t.sec.optInForce.generation = (s.sec.optInForce.generation + 1) % 2 ^ 32 ∧
            (look 0 t.sec.optInForce.bytes 32).toNat = 1 ∧ t.part = s.part ∧
            ∃ e, t.hif.raised.head? = some e ∧ e.code = 0x0F00 ∧ e.payload = .fields [0, 1]))) ∧
      (s.sec.level = .closed → (∀ c, c ≠ 0x5EA1 → only (.raiseToSealed c) 3) ∧ (∀ c, c ≠ 0x10E7 → only (.lowerToOpen c) 3) ∧
        Goes (.raiseToSealed 0x5EA1) s (fun t => t.sec = { s.sec with level := .sealed, protStatus := 0 } ∧
          t.part.sealFuse = true ∧ t.zns = s.zns ∧ t.fls = s.fls ∧
          ∃ e, t.hif.raised.head? = some e ∧ e.code = 0x0F00 ∧ e.payload = .fields [1, 2]) ∧
        Goes (.lowerToOpen 0x10E7) s (fun t => t.sec.sanActive = true ∧ t.sec.sanAction = .lowering ∧ t.sec.lowering = true ∧
          t.sec.protDone = false ∧ t.sec.keys = [] ∧ t.boot.parked = true ∧ t.zns.online = false)))

/-- R199, R549 to R552: a commit of the option area whose level byte is that of the level in force takes the next generation into
force, with event 0x0F04, where a copy reads back; a reload stages the image in force. -/
def Obligations.OptionAreaIsCommittedAndReloaded : Prop :=
  ∀ s : State, s.awake = true →
    (∀ rb, (look 0 s.sec.optStage 32).toNat ≠ s.levelByte → ∀ m fs, Goes (.optionCommit m ⟨rb, fs⟩) s (fun t =>
      t = clocked { s with sec := { s.sec with optStatus := 1 } } t)) ∧
    (∀ rb : BitVec 4, canon 0 s.sec.optStage = true → rb.getLsbD 0 = true → (look 0 s.sec.optStage 32).toNat = s.levelByte → s.sec.optCopies.length = 4 →
      (s.die 0).lost = false → s.copyBlock 0 ≠ none → ∀ fs : List Nat, 0 ∉ fs → Goes (.optionCommit false ⟨rb, fs⟩) s (fun t => t.sec.optStatus = 0 ∧
        t.sec.level = s.sec.level ∧ t.sec.optInForce.generation = (s.sec.optInForce.generation + 1) % 2 ^ 32 ∧
        (∀ a, 16 ≤ a → look 0 t.sec.optInForce.bytes a = (if a = 32 then BitVec.ofNat 8 s.levelByte else look 0 s.sec.optStage a)) ∧
        (∃ c, t.sec.optCopies[0]? = some c ∧ c.image = some t.sec.optInForce) ∧ SameZones s t ∧
        ∃ e n, t.hif.raised.head? = some e ∧ e.code = 0x0F04 ∧ e.payload = .fields [(t.sec.optInForce.generation : Int), n])) ∧
    ((look 0 s.sec.optStage 32).toNat = s.levelByte → (∀ i < 4, (s.die (State.copyDie i)).lost = true) →
      s.sec.optCopies.length = 4 → ∀ fs, Goes (.optionCommit false ⟨15, fs⟩) s (fun t => t.sec.optStatus = 2 ∧
        t.sec.optInForce = s.sec.optInForce ∧ ∀ c ∈ t.sec.optCopies, c.image = none)) ∧
    Goes .optionReload s (fun t => t.sec.optStatus = 0 ∧ t.sec.optInForce = s.sec.optInForce ∧
      t = clocked { s with sec := { s.sec with optStage := t.sec.optStage, optStatus := 0 } } t ∧
      (canon 0 s.sec.optInForce.bytes = true → ∀ a, 64 ≤ a → look 0 t.sec.optStage a = look 0 s.sec.optInForce.body a))

/-- R553 to R558: a query says whether its slot holds a key, generate, install and wrapped install fill an empty slot and that one
alone, an erase empties it; each clears the key data; a filled slot, a slot not allowed, a blob that does not unwrap and an
operation still running are refused with their status. -/
def Obligations.KeyOperationsAnswer : Prop :=
  ∀ (s : State) (slot : Nat), s.awake = true →
    let only := fun (i : Instr) (st : Nat) => Goes i s (fun t => t = clocked { s with sec := { s.sec with
      keyStatus := st, keyData := List.replicate 9 0 } } t)
    let filled := fun (i : Instr) (P : Nat → Prop) => Goes i s (fun t => t.sec.keyStatus = 0 ∧
      t.sec.keyData = List.replicate 9 0 ∧ look 0 t.sec.keys slot ≠ 0 ∧ P (look 0 t.sec.keys slot) ∧
      (∀ n, n ≠ slot → look 0 t.sec.keys n = look 0 s.sec.keys n) ∧ (s.mnt.state = 4 → t.nv.keys = t.sec.keys) ∧ SameZones s t)
    (s.sec.keyDone = false → ∀ i ∈ [Instr.keyQuery slot, .keyGenerate slot, .keyInstall slot, .keyInstallWrapped slot, .keyErase slot],
      Goes i s (fun t => t = clocked { s with sec := { s.sec with keyStatus := 4 } } t)) ∧
    (s.sec.keyDone = true →
      (1039 < slot → only (.keyQuery slot) 3) ∧
      (slot = 0 ∨ slot = 1024 ∨ 1039 < slot ∨ (slot < 1024 ∧ (s.comp slot).state = .free) →
        only (.keyGenerate slot) 3 ∧ only (.keyInstall slot) 3 ∧ only (.keyInstallWrapped slot) 3 ∧ only (.keyErase slot) 3) ∧
      (slot ≤ 1039 → slot = 0 ∨ 1024 ≤ slot ∨ (s.comp slot).state ≠ .free → Goes (.keyQuery slot) s (fun t =>
        t = clocked { s with sec := { s.sec with keyPresent := decide (look 0 s.sec.keys slot ≠ 0), keyStatus := 0
                                                 keyData := List.replicate 9 0 } } t)) ∧
      (slot ≤ 1039 → slot ≠ 0 → slot ≠ 1024 → 1024 ≤ slot ∨ (s.comp slot).state ≠ .free →
        (look 0 s.sec.keys slot ≠ 0 → only (.keyGenerate slot) 1 ∧ only (.keyInstall slot) 1 ∧ only (.keyInstallWrapped slot) 1) ∧
        (look 0 s.sec.keys slot = 0 → filled (.keyGenerate slot) (fun _ => True) ∧
          filled (.keyInstall slot) (fun k => k = leNat ((s.sec.keyData.flatMap (fun w => leBytes 8 w.toNat)).take 64) + 1) ∧
          (look 0 s.sec.keys 1039 = 0 → only (.keyInstallWrapped slot) 2) ∧
          (look 0 s.sec.keys 1039 ≠ 0 → s.unwrapKey s.keyBytes = none → only (.keyInstallWrapped slot) 2) ∧
          (∀ k, look 0 s.sec.keys 1039 ≠ 0 → s.unwrapKey s.keyBytes = some k → k ≠ 0 →
            filled (.keyInstallWrapped slot) (fun x => x = k))) ∧
        (canon 0 s.sec.keys = true → s.car.flights = [] → s.fcd.jobs = [] → s.sec.keyErasing = none →
          Goes (.keyErase slot) s (fun t =>
          look 0 t.sec.keys slot = 0 ∧ (∀ n, n ≠ slot → look 0 t.sec.keys n = look 0 s.sec.keys n) ∧ t.sec.keyStatus = 0 ∧
          t.sec.keyDone = true ∧ (slot < 1024 → (t.comp slot).keyErased = true) ∧ SameZones s t))))

/-- R547, R560 to R562: a sanitize erases the keys and Parks the module as it begins and completes its command at once; it ends with
every zone Empty and no data, and its event, or fails; Exit Failure Mode clears a failure that allowed it. -/
def Obligations.SanitizeBeginsEndsAndFails : Prop :=
  ∀ s : State,
    (∀ h, s.fetchable h = true → h.qid = 0 → h.comp = 0 → s.sec.sanActive = false → h.fused = false → h.rsvd = false →
      s.frozen 0 = false →
      let begins := fun (i : Instr) (a : Sanitizing) (ause : Bool) => Serves i s h (fun t => t.sec.sanActive = true ∧
        t.sec.sanAction = a ∧ t.sec.sanAuse = ause ∧ t.sec.keys = [] ∧ t.boot.parked = true ∧ t.zns.online = false ∧
        (∃ e ∈ t.hif.raised, e.code = 0x0F01 ∧ e.payload = .fields [a.code, 0]))
      (∀ ause, begins (.sanitizeBlockErase h ause) .block ause ∧ begins (.sanitizeCryptoErase h ause) .crypto ause) ∧
      OnlyCompletes (.sanitizeOverwrite h) s h .invalidField ∧
      (s.sec.sanFailed = false → OnlyCompletes (.sanitizeExitFailureMode h) s h .success) ∧
      (s.sec.sanFailed = true → s.sec.sanAuse = true → Serves (.sanitizeExitFailureMode h) s h (fun t =>
        t.sec = { s.sec with sanFailed := false } ∧ t.zns = s.zns)) ∧
      (s.sec.sanFailed = true → s.sec.sanAuse = false → OnlyCompletes (.sanitizeExitFailureMode h) s h .sanitizeFailed)) ∧
    (∀ ms, s.awake = true → s.sec.sanActive = true → (∀ n c, (n, c) ∈ s.cmp.table → c.reset = none) → s.car.flights = [] →
      Goes (.sanitizeComplete true ms) s (fun t => t.sec.sanActive = false ∧ t.sec.sanFailed = false ∧ t.sec.sanPct = 100 ∧
        t.zns.zones = [] ∧ t.zns.data = [] ∧ t.zns.convData = [] ∧ t.nv.zones.zones = [] ∧ t.nv.zones.data = [] ∧
        t.fls.landing = [] ∧ t.plog.marker = 1 ∧ t.jrn.valid = true ∧ (s.mnt.state ≠ 4 → look 0 t.nv.keys 1024 ≠ 0) ∧
        (∃ e ∈ t.hif.raised, e.code = 0x0F02 ∧ e.payload = .fields [s.sec.sanAction.code, ms]) ∧
        (s.sec.sanAction ≠ .lowering → t.sec.level = s.sec.level)) ∧
      (s.sec.sanAction = .lowering → s.sec.optCopies.length = 4 → (s.die 0).lost = false → s.copyBlock 0 = some (0, false) →
        Tables s → (s.block 0 0).use = .system → (s.block 0 0).role = .system →
        Goes (.sanitizeComplete true ms) s (fun t => t.sec.level = .opened ∧ t.sec.protDone = true ∧ t.sec.lowering = false)) ∧
      Goes (.sanitizeComplete false ms) s (fun t => t.sec.sanActive = false ∧ t.sec.sanFailed = true ∧ t.zns = s.zns ∧
        t.sec.level = s.sec.level ∧ t.sec.keys = s.sec.keys ∧
        ∃ e ∈ t.hif.raised, e.code = 0x0F03 ∧ e.payload = .fields [s.sec.sanAction.code]))

/-- R21, R26, R44 to R52, R134, R137, R138, R193, R330: the levels' faults. A region that fails is taken over by the other; a caller
that fails has its reels relieved; a unit that fails is marked, and its event names it; a cluster goes with its last
attachment. -/
def Obligations.FaultsAreTakenOverAndReported : Prop :=
  ∀ s : State, s.awake = true →
    let taken := fun (i : Instr) (r : Nat) (bridge : Bool) => Goes i s (fun t =>
      (t.lvl.regionA = decide (r = 1)) ∧ (t.lvl.regionB = decide (r = 0)) ∧ t.lvl.takeover = true ∧ t.lvl.takeoverBy = 1 - r ∧
      t.lvl.clusterOwner = (if r = 0 then 0xFFFF else 0) ∧ t.lvl.bridgeOk = bridge ∧ t.lvl.bothLost = false ∧
      (∃ e ∈ t.hif.raised, e.code = 0x0202) ∧ (∃ e ∈ t.hif.raised, e.code = 0x0400) ∧ t.sec = s.sec)
    (s.lvl.regionA = true → s.lvl.regionB = true →
      (∀ r, r = 0 ∨ r = 1 → taken (.regionHeartbeatMiss r false) (1 - r) s.lvl.bridgeOk ∧
        taken (.regionHeartbeatMiss r true) 1 false ∧ taken (.regionSelfFailure r) r s.lvl.bridgeOk) ∧
      (s.lvl.bridgeOk = true → ∀ r, Goes (.powerManagerHeartbeatMiss r) s (fun t => t.lvl = (clocked s t).lvl ∧ t.pwr = s.pwr ∧
        ∃ e, t.hif.raised = e :: s.hif.raised ∧ e.payload = .fields [r]))) ∧
    (s.lvl.takeover = true → s.takeoverDrained = true → Goes .takeoverDrainComplete s (fun t =>
      t.lvl = { (clocked s t).lvl with takeover := false } ∧ t.zns = s.zns ∧ t.car = s.car ∧
      ∃ e, t.hif.raised.head? = some e ∧ e.code = 0x0203)) ∧
    (∀ n, n < 36 → s.regionUp (ctxRegion (n * 4)) = true → s.kry.failed.getLsbD n = false → s.holdsWork n = true →
      ReelTables s → (∀ c k, s.kctx c = some k → ∃ x, s.kinst k.inst = some x ∧ x.ctx = c) →
      Goes (.callerWatchdogExpiry n) s (fun t => t.kry.failed = s.kry.failed ||| BitVec.ofNat 36 (2 ^ n) ∧
        (∀ i < 4, t.kctx (n * 4 + i) = none) ∧ (s.kry.writes = [] → t.zns = s.zns))) ∧
    (∀ k i, (k = 0 ∧ i < 12) ∨ (k = 2 ∧ i < 64) ∨ (k = 3 ∧ i < 32) ∨ (k = 4 ∧ i < 64) ∨ (k = 5 ∧ i < 16) ∨
        (k = 10 ∧ i % 16 < 6 ∧ i < 32) ∨ (k = 11 ∧ i < 8) →
      look 0 s.lvl.unitsFailed (src k i) = 0 →
      let fails := fun (c : Instr) (cause : Nat) => Goes c s (fun t => look 0 t.lvl.unitsFailed (src k i) = cause + 1 ∧
        (∀ x, x ≠ src k i → look 0 t.lvl.unitsFailed x = look 0 s.lvl.unitsFailed x) ∧
        (∃ e, t.hif.raised.head? = some e ∧ e.code = 0x0200 ∧ e.source = src k i) ∧ t.zns = s.zns ∧ t.car = s.car)
      (∀ cause, cause < 2 → fails (.unitFault k i cause) cause) ∧ fails (.levelWatchdogExpiry k i) 2) ∧
    (∀ c, c < 64 → (s.channel c).lost = false → s.fls.channels.length = 64 →
      Goes (.unitFault 1 c 0) s (fun t => (t.channel c).lost = true ∧ ∀ r < s.part.variant.ranks, (t.die (r * 64 + c)).lost = true)) ∧
    (∀ k r, k < 16 → r = 0 ∨ r = 1 → s.attached k r = true → s.lvl.clusterLost.getLsbD k = false →
      (s.attached k (1 - r) = true → Goes (.crossbarAttachmentLost k r) s (fun t => t.attached k r = false ∧
        t.attached k (1 - r) = true ∧ t.lvl.clusterLost = s.lvl.clusterLost ∧ t.fls = s.fls ∧
        ∃ e, t.hif.raised.head? = some e ∧ e.code = 0x0201)) ∧
      (s.attached k (1 - r) = false → Goes (.crossbarAttachmentLost k r) s (fun t => t.attached k r = false ∧
        t.lvl.clusterLost.getLsbD k = true ∧ ∀ d ∈ s.clusterDies k, (t.die d).lost = true)))
/-- R197 to R201, R412, R434: the steps of the table advance in order, each with its own effect; MOD_OK stays low and configuration
requests are put off until the ninth, which leaves the module Parked; a stalled start goes no further; ports train and are
lost. -/
def Obligations.StartUpRunsItsStepsAndPortsTrain : Prop :=
  ∀ s : State,
    (∀ v en back, s.pwr.pstate = .dark → 440 ≤ v → v ≤ 3150 → (en = true ∨ s.boot.tripped = false) →
      Goes (.powerOn v en back) s (fun t => t = { s with boot := t.boot, pwr := t.pwr, lvl := { s.lvl with clocks := 1 } } ∧
        t.boot = { s.boot with step := 1, stalled := false, tripped := false
                               cause := if s.boot.tripped then 2 else if back then 1 else if en then 3 else 0 } ∧
        t.pwr = { s.pwr with pstate := .starting, vIn := v, underRange := decide (v < 450), overRange := decide (3000 < v) })) ∧
    (s.pwr.pstate = .starting → s.modOk = false) ∧
    (s.pwr.pstate = .starting → s.boot.stalled = false →
      let advances := fun (b : BootReport) (P : State → Prop) => Goes (.bootStepAdvance b) s P
      (s.boot.step = 1 ∨ s.boot.step = 4 → advances .ready (fun t => t = { s with boot := { s.boot with step := s.boot.step + 1 } })) ∧
      (s.boot.step = 2 → advances .ready (fun t => t = { s with boot := { s.boot with step := 3 }
                                                                tim := { s.tim with running := true, now := 0 } })) ∧
      (s.boot.step = 3 → ∀ a b c, advances (.fuses a b c) (fun t => t.boot = { s.boot with step := 4 } ∧
        (∀ i < 3, t.pins.modIdStrap.testBit i = (a.testBit i && b.testBit i || a.testBit i && c.testBit i || b.testBit i && c.testBit i)) ∧
        ∀ n < 2, (s.port n).present = true → (s.port n).perst = false → (t.port n).training = true)) ∧
      (s.boot.step = 5 →
        (∀ i o, (∃ c, s.sec.optCopies[i]? = some c ∧ c.image = some o) → (∀ j c p, s.sec.optCopies[j]? = some c → c.image = some p →
          j = i ∨ (p.generation = o.generation ∧ i < j) ∨ (0 < (o.generation + 2 ^ 32 - p.generation % 2 ^ 32) % 2 ^ 32 ∧
            (o.generation + 2 ^ 32 - p.generation % 2 ^ 32) % 2 ^ 32 < 2 ^ 31)) →
          advances .ready (fun t => t.boot.step = 6 ∧ t.boot.optDefault = false ∧ t.boot.optCopy = i ∧
            t.boot.optGeneration = o.generation ∧ t.sec.optInForce = o ∧ t.sec.optCopies = s.sec.optCopies ∧
            t.sec.level = (if s.part.sealFuse then .sealed else if (look 0 o.bytes 32).toNat = 0 then .opened else .closed))) ∧
        ((∀ c ∈ s.sec.optCopies, c.image = none) → advances .ready (fun t => t.boot.step = 6 ∧ t.boot.optDefault = true ∧
          t.boot.optGeneration = 0 ∧ t.sec.level = (if s.part.sealFuse then .sealed else .closed) ∧ t.pwr.mode = .minuet ∧
          t.fan.cmdMode = 0 ∧ t.plog.dirtyCfg = 80 ∧ t.thm.die = ⟨95, 110, 120⟩ ∧ t.thm.flash = ⟨70, 80, 85⟩ ∧
          t.hif.dual = false))) ∧
      (s.boot.step = 6 → advances .ready (fun t => t.boot = { s.boot with step := 7 } ∧
        t = { s with boot := t.boot, mem := { s.mem with remap := t.mem.remap } })) ∧
      (s.boot.step = 7 → advances (.dram [] []) (fun t => t = { s with boot := { s.boot with step := 8 } }) ∧
        (∀ d m, s.mem.marked[d]? = some 15 → advances (.dram [(d, m)] []) (fun t => t.boot.step = 8 ∧ t.mem.marked[d]? = some m ∧
          (∀ x, x ≠ d → t.mem.marked[x]? = s.mem.marked[x]?) ∧
          ∃ e, t.hif.raised = e :: s.hif.raised ∧ e.code = 0x0A02 ∧ e.payload = .fields [d, m])) ∧
        (s.lvl.regionA = true → s.lvl.regionB = true → ∀ c < 8, advances (.dram [] [c]) (fun t => t.boot.step = 8 ∧
          t.lvl.regionA = decide (4 ≤ c) ∧ t.lvl.regionB = decide (c < 4) ∧ t.lvl.bothLost = false))) ∧
      (s.boot.step = 8 → advances .ready (fun t => t.boot = { s.boot with step := 9, parked := true, offLatch := false } ∧
        t.pwr.pstate = .run ∧ t.plog = { s.plog with charger := true } ∧ t.thm.tripRecord = none ∧
        (s.lvl.bothLost = false → s.pins.modOkLow = false → s.pins.wakeStuck = false → t.modOk = true) ∧
        (s.boot.optDefault = true → ∃ e ∈ t.hif.raised, e.code = 0x0600) ∧
        (∀ k d early, s.thm.tripRecord = some (k, d, early) → ∃ e ∈ t.hif.raised, e.code = 0x0D03 ∧
          e.payload = .fields [k, (d : Int) - 40, if early then 1 else 0]) ∧
        t.zns = s.zns ∧ t.fls = s.fls ∧ t.part = s.part)) ∧
      Goes .bootStepStall s (fun t => t = { s with boot := { s.boot with stalled := true } })) ∧
    (∀ n < 2,
      ((s.port n).perst = true → Goes (.perstRelease n) s (fun t => (t.port n).perst = false ∧ t.port (1 - n) = s.port (1 - n) ∧
        (s.pwr.pstate = .starting → s.boot.step < 4 → (t.port n).training = false) ∧
        (s.pwr.pstate = .run → 4 ≤ s.boot.step → (t.port n).training = (s.port n).present))) ∧
      ((s.port n).linkUp = true →
        (s.boot.step ≠ 9 → Goes (.configurationRequest n) s (fun t =>
          t = { s with hif := { s.hif with out := .crs n :: s.hif.out } })) ∧
        (s.boot.step = 9 → Goes (.configurationRequest n) s (fun t =>
          t = { s with hif := { s.hif with out := .configServed n :: s.hif.out } }))) ∧
      (∀ r w, (s.port n).present = true → (s.port n).training = true → (s.port n).linkUp = false → 1 ≤ r → r ≤ 6 → 1 ≤ w →
        w ≤ (if s.hif.dual then 8 else 16) → Goes (.portLinkUp n r w) s (fun t => (t.port n).linkUp = true ∧
          (t.port n).rate = r ∧ (t.port n).width = w ∧ t.port (1 - n) = s.port (1 - n) ∧
          (t.port n).degraded = (decide (r < 6) || decide (w < (if s.hif.dual then 8 else 16))) ∧
          ∃ e ∈ t.hif.raised, e.code = 0x0100 ∧ e.payload = .fields [n, r, w])) ∧
      (∀ cause, (s.port n).present = true → (s.port n).perst = false → (s.port n).linkUp = true →
        (∀ x c, (x, c) ∈ s.cmp.table → x = 0 ∨ c.port ≠ n) → Goes (.portLost n cause) s (fun t =>
          (t.port n).losses = (s.port n).losses + 1 ∧ (t.port n).en = false ∧ (t.port n).rdy = false ∧
          (t.port n).perst = decide (cause = .perst) ∧ (t.port n).linkUp = decide (cause = .flr) ∧
          t.port (1 - n) = s.port (1 - n) ∧ t.zns = s.zns ∧ t.boot = s.boot ∧ t.mnt = s.mnt ∧
          ∃ e, t.hif.raised = e :: s.hif.raised ∧ e.code = 0x0101)))
/-- R215 to R222, R480, R507: power loss cuts what runs and the flush goes through its steps to Off; a bank that is too low ends it
without a marker; the input's bands post their events; a measurement puts the limit of R216 in force. -/
def Obligations.PowerLossFlushesAndTheBankSetsTheLimit : Prop :=
  ∀ s : State,
    let off := fun (t : State) => t.boot.step = 0 ∧ t.car.flights = [] ∧ t.kry.ctxs = [] ∧ t.zns.online = false ∧ t.hif.queues = []
    (∀ cause, s.pwr.pstate = .run ∨ s.pwr.pstate = .idle → Goes (.powerLossDeclared cause) s (fun t => t.pwr.pstate = .flushing 1 ∧
      t.plog = { s.plog with charger := false, measBusy := false } ∧ t.car.flights = [] ∧ t.fcd.jobs = [] ∧ t.modOk = false ∧
      (∀ f ∈ t.fan.outs, f.state = 0 ∧ f.cmdPct = 0) ∧
      (∀ d v o, (d, v) ∈ s.fls.dies → v.op = some o → isErase o.entry.kind = true → ∃ v' o', (d, v') ∈ t.fls.dies ∧
        v'.op = some o' ∧ o'.entry = o.entry ∧ o'.suspended = true) ∧
      t.zns = s.zns ∧ t.nv = s.nv ∧ t.sec = s.sec ∧ t.hif = s.hif)) ∧
    (∀ cause n, s.pwr.pstate = .flushing n → Goes (.powerLossDeclared cause) s (fun t => t = s)) ∧
    (∀ cause, s.pwr.pstate = .starting → Goes (.powerLossDeclared cause) s (fun t => t.pwr.pstate = .dark ∧ off t ∧
      t.part = s.part ∧ t.sec.optCopies = s.sec.optCopies ∧ t.plog.marker = s.plog.marker)) ∧
    (∀ cause x, x ≠ .off → s.pwr.pstate = .asleep x → Goes (.powerLossDeclared cause) s (fun t =>
      t = { s with pwr := { s.pwr with pstate := .waking x 1, wakeAt := s.tim.now, lossPending := true } })) ∧
    (∀ cause x n, n ≠ 5 → s.pwr.pstate = .waking x n → Goes (.powerLossDeclared cause) s (fun t =>
      t = { s with pwr := { s.pwr with lossPending := true } })) ∧
    (∀ cause x n, s.pwr.pstate = .entering x n → Goes (.powerLossDeclared cause) s (fun t => t.pwr.pstate = .flushing 1 ∧
      t.plog.aborts = s.plog.aborts + 1 ∧ t.plog.abortCause = 2 ∧ ∃ e ∈ t.hif.raised, e.code = 0x0C03)) ∧
    (∀ n, s.pwr.pstate = .flushing n →
      (1 ≤ n → n < 5 → Goes .flushStep s (fun t => t.pwr.pstate = .flushing (n + 1) ∧
        (s.programCount = 0 → n = 3 → t.jrn.tail = 0 ∧ (0 < s.jrn.tail → t.jrn.lastSeq = s.jrn.tailSeq) ∧ SameZones s t) ∧
        (n = 4 → t = { s with pwr := { s.pwr with pstate := .flushing 5 } }))) ∧
      (n = 5 → Goes .flushStep s (fun t => off { t with boot := { t.boot with step := 0 } } ∧ t.plog.marker = 2 ∧ t.boot.tripped = s.boot.tripped ∧
        (s.boot.inputBack = true → s.boot.tripped = false → t.pwr.pstate = .starting ∧ t.boot.cause = 1) ∧
        (s.boot.inputBack = false ∨ s.boot.tripped = true → t.pwr.pstate = .dark))) ∧
      (n ≤ 5 → Goes .bankLowStop s (fun t => t.pwr.pstate = .dark ∧ off t ∧ (s.fls.dies = [] → t.plog.marker = s.plog.marker))) ∧
      Goes .inputRestored s (fun t => t = { s with boot := { s.boot with inputBack := true } })) ∧
    (∀ v, s.pwr.pstate = .run → v ≤ 3600 → Goes (.inputRangeChange v) s (fun t =>
      t.pwr = { s.pwr with vIn := v, underRange := decide (400 ≤ v ∧ v < 450), overRange := decide (3000 < v ∧ v ≤ 3150) } ∧
      (400 ≤ v → v < 450 → s.pwr.underRange = false → ∃ e, t.hif.raised = e :: s.hif.raised ∧ e.code = 0x0C0C ∧
        e.payload = .fields [v]) ∧
      (3000 < v → v ≤ 3150 → s.pwr.overRange = false → ∃ e, t.hif.raised = e :: s.hif.raised ∧ e.code = 0x0C0D ∧
        e.payload = .fields [v]) ∧
      (450 ≤ v → v ≤ 3000 → t = { s with pwr := t.pwr }))) ∧
    (∀ v, 3600 < v → exec (.inputRangeChange v) s = .fault .beyondAbsoluteMaximum) ∧
    (s.awake = true → (s.plog.measBusy = true → Goes .measStart s (fun t => t = s)) ∧
      (s.plog.measBusy = false → Goes .measStart s (fun t =>
        t = { s with plog := { s.plog with measBusy := true, measuredAt := s.tim.now } }))) ∧
    (∀ cap esr : Nat, s.awake = true → s.plog.charger = true → s.plog.measBusy = true → s.dirtyList = [] → 20480 ≤ (s.landingFree * 24 - 2048) * 15 / 16 →
      let volts : ℚ := (s.plog.vBank : ℚ) * 2 / 100
      let floor : ℚ := 12 + 125 / 10 * ((esr : ℚ) / 1000)
      let joules : ℚ := 1 / 2 * ((cap : ℚ) / 10000) * (volts ^ 2 - floor ^ 2)
      let most : ℤ := max 0 ⌊4 * (joules / (15 / 10) - 18) / (36 / 10)⌋
      let steps : Nat := min (min s.plog.dirtyCfg 80) most.toNat
      Goes (.bankMeasurement cap esr) s (fun t => t.plog.bankCap = cap ∧ t.plog.bankEsr = esr ∧ t.plog.measBusy = false ∧
        t.plog.limitMib = (if steps < 4 then 0 else steps * 256) ∧ t.plog.singlePath = decide (steps < 4) ∧
        (∃ e ∈ t.hif.raised, e.code = 0x0601 ∧ e.payload = .fields [cap, esr, t.plog.limitMib]) ∧
        (steps < 4 → s.plog.singlePath = false → ∃ e ∈ t.hif.raised, e.code = 0x0602) ∧ t.zns = s.zns ∧ t.fls = s.fls)) ∧
    (∀ v, s.pwr.pstate = .run → s.plog.bankCap = 0 → v < 4096 → Goes (.bankVoltageChange v) s (fun t =>
      t = { s with plog := { s.plog with vBank := v, charged := decide (2700 ≤ v) } }))
/-- R30 to R34, R465 to R490: Idle, the entries into the sleeping states and their abort, the wake sources and the wake order, a
domain closed by force, the edge of a credit window, the core phases and a clock that stops. -/
def Obligations.PowerStatesModesAndWindowsChange : Prop :=
  ∀ s : State,
    (s.pwr.pstate = .run → s.pwr.idleUs ≠ 0 → Goes .idleTimerExpiry s (fun t => t.pwr.pstate = .idle ∧
      t.pwr.idleEntries = min (2 ^ 32 - 1) (s.pwr.idleEntries + 1) ∧ s.tim.now ≤ t.tim.now ∧
      t = { s with tim := { s.tim with now := t.tim.now }
                   pwr := { s.pwr with pstate := .idle, idleEntries := t.pwr.idleEntries } })) ∧
    (∀ x n, s.pwr.pstate = .entering x n →
      let goes := fun (P : State → Prop) => Goes .sleepEntryStep s P
      (n = 1 ∨ n = 4 → goes (fun t => t = { s with pwr := { s.pwr with pstate := .entering x (n + 1) } })) ∧
      (n = 2 → s.drained = true → goes (fun t => t.pwr.pstate = .entering x 3 ∧ (x ≠ .off ∨ s.mounted = false → t.jrn.tail = 0))) ∧
      (n = 3 → s.dirtyUnits = 0 → s.diesSettled = true → s.mnt.stopping = false → goes (fun t => t.pwr.pstate = .entering x 4 ∧
        t.plog.ltrUs = 3000 ∧ (∀ e h, s.pwr.entry = some e → e.command = some h → Completed t h .success) ∧
        t.zns = s.zns ∧ t.fls = s.fls)) ∧
      (n = 5 → x ≠ .off → (∀ e, s.pwr.entry = some e → e.heldWake = []) → goes (fun t => t.pwr.pstate = .asleep x ∧
        t.pwr.entry = none ∧ (∀ p < 2, t.port p = { s.port p with l12 := (s.port p).linkUp }) ∧
        t = { s with pwr := t.pwr, hif := t.hif, lvl := { s.lvl with clocks := s.lvl.clocks &&& 0x81 } })) ∧
      (n = 5 → x ≠ .off → ∀ e i, s.pwr.entry = some e → i ∈ e.heldWake → (∀ j ∈ e.heldWake, i ≤ j) → goes (fun t =>
        t.pwr.pstate = .waking x 1 ∧ t.pwr.wakeSource = i ∧ t.pwr.wakes = s.pwr.wakes + 1)) ∧
      (n = 5 → x = .off → goes (fun t => t.pwr.pstate = .asleep .off ∧ t.boot.offLatch = true ∧ t.kry.ctxs = [] ∧
        t.part = s.part ∧ t.sec.optCopies = s.sec.optCopies ∧ t.plog.marker = s.plog.marker))) ∧
    (∀ mask : BitVec 9,
      let on := fun (i : Nat) => 1 ≤ i ∧ i ≤ 8 ∧ mask.getLsbD i = true ∧ (s.pwr.wakeEn.getLsbD i = true ∨ i = 1 ∨ i = 6)
      let goes := fun (P : State → Prop) => Goes (.wakeSourceFired mask) s P
      (∀ x, x ≠ .off → s.pwr.pstate = .asleep x →
        ((∀ i, ¬ on i) → goes (fun t => t = s)) ∧
        (∀ i, on i → (∀ j, on j → i ≤ j) → goes (fun t => t.pwr.pstate = .waking x 1 ∧ t.pwr.wakeSource = i ∧
          t.pwr.wakeAt = s.tim.now ∧ t.pwr.wakes = s.pwr.wakes + 1 ∧ t.pwr.wakeLeft = (if x = .sleep then 1 else 2) ∧
          (∀ j, 1 ≤ j → j ≤ 8 → (t.pwr.wakeMask.getLsbD j = true ↔ on j)) ∧
          t.pwr.wakeTimer = (if mask.getLsbD 5 then 2 ^ 64 - 1 else s.pwr.wakeTimer) ∧ t = { s with pwr := t.pwr }))) ∧
      (s.pwr.pstate = .asleep .off → mask.getLsbD 1 = true → goes (fun t =>
        t = { s with pwr := { s.pwr with pstate := .starting }, boot := { s.boot with step := 1, stalled := false, cause := 0 }
                     lvl := { s.lvl with clocks := 1 } })) ∧
      (s.pwr.pstate = .run ∨ s.pwr.pstate = .idle →
        (mask.getLsbD 1 = true → goes (fun t => t.pwr.pstate = s.pwr.pstate ∧ ∃ e ∈ t.hif.raised, e.code = 0x0C0E)) ∧
        (mask.getLsbD 5 = true → s.pwr.wakeTimer ≠ 2 ^ 64 - 1 → goes (fun t => t.pwr = { s.pwr with wakeTimer := 2 ^ 64 - 1 } ∧
          ∃ e ∈ t.hif.raised, e.code = 0x0C0F ∧ e.payload = .fields [s.pwr.wakeTimer])) ∧
        (mask.getLsbD 1 = false → mask.getLsbD 5 = false → goes (fun t => t = s))) ∧
      (∀ x n, s.pwr.pstate = .entering x n → ∀ i, on i → (∀ j, on j → i ≤ j) →
        (n < 5 → goes (fun t => t.pwr.pstate = .run ∧ t.pwr.entry = none ∧ t.pwr.wakes = s.pwr.wakes ∧
          t.plog.abortCause = 1 ∧ t.plog.abortSource = i ∧ t.plog.aborts = s.plog.aborts + 1 ∧ t.plog.ltrUs = 2 ∧
          (∃ e ∈ t.hif.raised, e.code = 0x0C03) ∧
          (∀ e h, s.pwr.entry = some e → e.command = some h → Completed t h .success))) ∧
        (n = 5 → ∀ e, s.pwr.entry = some e → goes (fun t => t.pwr.pstate = .entering x 5 ∧ ∃ e', t.pwr.entry = some e' ∧
          ∀ j, j ∈ e'.heldWake ↔ j ∈ e.heldWake ∨ on j)))) ∧
    (s.pwr.wakeTimer ≠ 2 ^ 64 - 1 →
      (∀ x, x ≠ .off → s.pwr.pstate = .asleep x → s.pwr.wakeEn.getLsbD 5 = true → Goes .wakeTimerExpiry s (fun t =>
        t.pwr.pstate = .waking x 1 ∧ t.pwr.wakeSource = 5 ∧ t.pwr.wakeTimer = 2 ^ 64 - 1 ∧
        t.tim.now = max s.tim.now (min s.pwr.wakeTimer (2 ^ 64 - 1)))) ∧
      (s.pwr.pstate = .run ∨ s.pwr.pstate = .idle → Goes .wakeTimerExpiry s (fun t => t.pwr = { s.pwr with wakeTimer := 2 ^ 64 - 1 } ∧
        ∃ e ∈ t.hif.raised, e.code = 0x0C0F))) ∧
    (∀ x n us, s.pwr.pstate = .waking x n → s.pins.wakeStuck = false →
      let goes := fun (P : State → Prop) => Goes (.wakeStep us) s P
      (n < 4 → goes (fun t => t.pwr = { s.pwr with pstate := .waking x (n + 1) } ∧
        t = { s with pwr := t.pwr, tim := { s.tim with now := t.tim.now } })) ∧
      (n = 4 → s.svc.requests = [] → s.pwr.lossPending = false → goes (fun t =>
        t.pwr.pstate = (if s.hif.port0.l12 || s.hif.port1.l12 then .waking x 5 else .run) ∧ t.pwr.mode = s.pwr.mode ∧
        t.pwr.exitUs = min 0xFFFF us ∧ t.plog.ltrUs = 2 ∧ (∃ e ∈ t.hif.raised, e.code = 0x0C01) ∧
        ∃ e ∈ t.hif.raised, e.code = 0x0C02 ∧
          e.payload = .fields [s.pwr.wakeSource, s.pwr.wakeMask.toNat, (if x = .sleep then 1 else if x = .deep then 2 else 3),
            (min 0xFFFF us : Nat)])) ∧
      (n = 4 → s.svc.requests = [] → s.pwr.lossPending = true → goes (fun t => t.pwr.pstate = .flushing 1 ∧ t.pwr.lossPending = false)) ∧
      (n = 5 → goes (fun t => t.pwr.pstate = .run ∧ ∀ p < 2, t.port p = { s.port p with l12 := false })) ∧
      Goes .wakeStepTimeout s (fun t => t = { s with pins := { s.pins with wakeStuck := true } } ∧ t.modOk = false)) ∧
    (∀ x d vs, s.pwr.pstate = .entering x 2 → 16 ≤ d → d < 172 → Goes (.domainCloseForced d vs) s (fun t =>
      t.plog.closeDomain = d ∧ t.plog.closing = false ∧ t.plog.forced = true ∧
      (s.car.flights = [] → ∀ o ∈ s.kry.ops, squashes d o = true → o ∉ t.kry.ops) ∧
      ((∀ v ∈ s.car.flights, v.cmd ∉ vs) → (∀ o ∈ s.kry.ops, squashes d o = false) → t.plog.squashed = min (2 ^ 32 - 1) s.plog.squashed ∧ t.car = s.car ∧
        ∃ e, t.hif.raised = e :: s.hif.raised ∧ e.code = 0x0C05 ∧ e.payload = .fields [d, 0]))) ∧
    (s.awake = true →
      (∀ avg amps m, s.fls.dies = [] → s.fcd.jobs = [] → s.pwr.modeCommands = [] → s.pwr.phasesOk = 0x1FF → s.thm.step = 0 →
        s.thm.fanFloor = false → s.lvl.regionA = true → s.lvl.regionB = true → s.pwr.pendingMode.getD s.pwr.mode = m →
        Goes (.creditWindowBoundary avg amps) s (fun t => t.pwr.mode = m ∧ t.pwr.pendingMode = none ∧ t.pwr.pAvg = avg ∧
          t.pwr.iIn = amps ∧ t.tim.now = max s.tim.now (min (s.lvl.windowStart + 1000000) (2 ^ 64 - 1)) ∧
          t.lvl.windowStart = t.tim.now / 1000000 * 1000000 ∧
          (match m with
            | .galop => t.lvl.budgetA.shareProg = 160 ∧ t.lvl.budgetB.shareProg = 160 ∧ ∀ r ∈ t.car.ra, r.fraction = 12
            | .waltz => t.lvl.budgetA.shareProg = 96 ∧ t.lvl.budgetB.shareProg = 96 ∧ ∀ r ∈ t.car.ra, r.fraction = 8
            | .minuet => t.lvl.budgetA.shareProg = 32 ∧ t.lvl.budgetB.shareProg = 32 ∧ ∀ r ∈ t.car.ra, r.fraction = 4) ∧
          (s.part.codec = true → t.fcd.lanesInUse = (match m with | .galop => 8 | .waltz => 4 | .minuet => 2)) ∧
          t.zns = s.zns ∧ t.fls.blocks = s.fls.blocks)) ∧
      (∀ i < 9, s.pwr.phasesOk.getLsbD i = true →
        let left := ((List.range 9).filter (fun j => s.pwr.phasesOk.getLsbD j)).length - 1
        (4 ≤ left → Goes (.corePhaseCheck (BitVec.ofNat 9 (2 ^ i))) s (fun t =>
          t.pwr = { s.pwr with phasesOk := t.pwr.phasesOk } ∧
          (∀ j < 9, t.pwr.phasesOk.getLsbD j = (s.pwr.phasesOk.getLsbD j && decide (j ≠ i))) ∧
          ∃ e, t.hif.raised = e :: s.hif.raised ∧ e.code = 0x0C06 ∧ e.payload = .fields [i, left])) ∧
        (left < 4 → s.pwr.pstate = .run → Goes (.corePhaseCheck (BitVec.ofNat 9 (2 ^ i))) s (fun t => t.pwr.pstate = .flushing 1)))) ∧
    (∀ d, 0 < d → d < 256 → s.lvl.clocks.getLsbD d = true → domainBusy s d = false → Goes (.clockIdleStop d) s (fun t =>
      t = { s with lvl := { s.lvl with clocks := t.lvl.clocks } } ∧
      ∀ j < 256, t.lvl.clocks.getLsbD j = (s.lvl.clocks.getLsbD j && decide (j ≠ d))))
/-- R133, R455, R456, R492 to R497: an accepted PPS edge within 1 µs slews and counts towards the lock, a larger error steps the
count back by it, and one above 100 µs under a lock is held until the next edge confirms it; the loss of PPS ends the lock; PTM
slews; the count saturates; PPS_OUT pulses. -/
def Obligations.TimeBaseFollowsItsSources : Prop :=
  ∀ s : State, s.tim.running = true →
    (∀ stamp : Nat, s.awake = true → s.tim.saturated = false → s.part.coupler = false → s.tim.now ≤ stamp → stamp < 2 ^ 64 - 1 →
      let err : Int := stamp - 1000000000 * ((stamp + 500000000) / 1000000000)
      let goes := fun (P : State → Prop) => Goes (.ppsEdge stamp) s P
      (s.tim.ppsEn = false → goes (fun t => t = clocked { s with tim := { s.tim with now := stamp, ppsLast := stamp } } t)) ∧
      (s.tim.ppsEn = true → s.tim.heldEdge = none →
        (err.natAbs ≤ 1000 → goes (fun t => t.tim.now = stamp ∧ t.tim.slew = err ∧ t.tim.ppsLast = stamp ∧ t.tim.lastErr = err ∧
          t.tim.source = 1 ∧ t.tim.holdover = false ∧ t.tim.steps = s.tim.steps ∧
          t.tim.locked = (s.tim.locked || decide (2 ≤ s.tim.goodEdges)) ∧ t.hif.raised = s.hif.raised ∧ t.pins = s.pins)) ∧
        (s.fcd.jobs = [] → 1000 < err.natAbs → err.natAbs ≤ 100000 ∨ s.tim.locked = false → (stamp : Int) - err < 2 ^ 64 - 1 →
          goes (fun t => (t.tim.now : Int) = stamp - err ∧ t.tim.steps = s.tim.steps + 1 ∧ t.tim.slew = 0 ∧ t.tim.lastErr = err ∧
            t.tim.locked = s.tim.locked ∧ t.tim.goodEdges = 0 ∧
            ∃ e ∈ t.hif.raised, e.code = 0x0C09 ∧ e.payload = .fields [-err, 1])) ∧
        (100000 < err.natAbs → s.tim.locked = true → goes (fun t => t.tim.now = stamp ∧ t.tim.heldEdge = some (stamp, err) ∧
          t.tim.steps = s.tim.steps ∧ t.tim.locked = true ∧ t.hif.raised = s.hif.raised))) ∧
      (∀ at_ was, s.fcd.jobs = [] → s.tim.ppsEn = true → s.tim.heldEdge = some (at_, was) →
        (stamp ≤ at_ + 1500000000 → (err - was).natAbs ≤ 1000 → err ≠ 0 → (stamp : Int) - err < 2 ^ 64 - 1 → goes (fun t =>
          (t.tim.now : Int) = stamp - err ∧ t.tim.locked = false ∧ t.tim.heldEdge = none ∧ t.tim.steps = s.tim.steps + 1)) ∧
        (1000 < (err - was).natAbs ∨ at_ + 1500000000 < stamp → goes (fun t =>
          ∃ e ∈ t.hif.raised, e.code = 0x0C0A ∧ e.payload = .fields [at_, was])))) ∧
    (∀ high low, s.awake = true → high < 1000 ∨ low < 1000 → Goes (.ppsEdgeDiscarded high low) s (fun t => t.tim = s.tim ∧
      ∃ e, t.hif.raised = e :: s.hif.raised ∧ e.code = 0x0B01 ∧ e.payload = .fields [high, low])) ∧
    (s.tim.ppsAlive = true → s.part.coupler = false → Goes .ppsLoss s (fun t => t.tim.locked = false ∧ t.tim.holdover = true ∧
      t.tim.heldEdge = none ∧ t.tim.steps = s.tim.steps ∧
      (s.cpl.leaderValid = false → t.tim.source = if s.tim.ptmEn then 2 else 0) ∧
      ∃ e, t.hif.raised.head? = some e ∧ e.code = 0x0C08 ∧ e.payload = .fields [s.tim.ppsLast])) ∧
    Goes .secSuspectLimit s (fun t => t = { s with tim := { s.tim with secSuspect := true } }) ∧
    (∀ master, s.tim.ptmEn = true → s.hif.port0.linkUp = true → s.cpl.leaderValid = false →
      (s.tim.ppsAlive = true → Goes (.ptmDialog master) s (fun t => t = s)) ∧
      (s.tim.ppsAlive = false → s.tim.source ≠ 2 → Goes (.ptmDialog master) s (fun t =>
        t = { s with tim := { s.tim with source := 2, ptmOffset := some ((s.tim.now : Int) - master) } })) ∧
      (∀ o, s.tim.ppsAlive = false → s.tim.source = 2 → s.tim.ptmOffset = some o → Goes (.ptmDialog master) s (fun t =>
        t = { s with tim := { s.tim with slew := (s.tim.now : Int) - (master + o), slewPhase := 0
                                         disciplinedAt := s.tim.now } }))) ∧
    (s.tim.saturated = false → Goes .timNowSaturation s (fun t => t.tim = { s.tim with now := 2 ^ 64 - 1, saturated := true } ∧
      ∃ e, t.hif.raised = e :: s.hif.raised ∧ e.code = 0x0C0B)) ∧
    (s.pins.ppsOutEn = true → s.tim.saturated = false → Goes .ppsOutPulse s (fun t => t.pins = { s.pins with ppsOut := true, ppsCounting := true } ∧
      t.tim = { s.tim with now := max s.tim.now (min ((s.tim.now / 1000000000 + 1) * 1000000000) (2 ^ 64 - 1)) })) ∧
    (s.pins.ppsCounting = true → Goes .ppsOutPulseEnd s (fun t => t = { s with pins := { s.pins with ppsOut := false, ppsCounting := false } }))
/-- R10, R457, R499 to R516: readings move the thermal level through Notice, Critical and Trip; the grace window raises and lowers the
Enforce step; the fan outputs follow the command, the start steps, the crossings, the rail and the faults. -/
def Obligations.ThermalLevelsAndFansFollowTheirRules : Prop :=
  ∀ s : State, s.pwr.pstate = .run →
    (∀ stamp i x, i ∉ s.thm.excluded → s.thm.excluded.length ≤ 63 →
      let goes := fun (ok : Bool) (P : State → Prop) => Goes (.dieSensorReading stamp [⟨i, x, ok⟩]) s P
      (s.thm.level = 0 → x < s.thm.die.notice + 40 → x < s.thm.die.critical + 40 → x < s.thm.die.trip + 40 → goes true (fun t =>
        t.thm.dieTemp = x ∧ t.thm.level = 0 ∧ t.thm.step = s.thm.step ∧ t.thm.critRuns.1 = 0 ∧ t.thm.tripRuns.1 = 0 ∧
        t.thm.excluded = s.thm.excluded ∧ t.hif.raised = s.hif.raised ∧ t.zns = s.zns)) ∧
      (s.thm.level = 0 → s.thm.die.notice + 40 ≤ x → x < s.thm.die.critical + 40 → x < s.thm.die.trip + 40 → goes true (fun t =>
        t.thm.dieTemp = x ∧ t.thm.level = 1 ∧ t.thm.source = 0 ∧ t.thm.windowAt = some stamp ∧ t.thm.step = s.thm.step ∧
        (∃ e ∈ t.hif.raised, e.code = 0x0D00 ∧ e.payload = .fields [0, 1, 0, (x : Int) - 40]) ∧
        (s.part.fan = true → ∀ f ∈ t.fan.outs, f.state = 6 → f.cmdPct = 100) ∧ t.zns = s.zns)) ∧
      (s.thm.level < 3 → s.thm.die.notice + 40 ≤ x → s.thm.die.critical + 40 ≤ x → x < s.thm.die.trip + 40 →
        1 ≤ s.thm.critRuns.1 → s.mounted = false → goes true (fun t => t.thm.dieTemp = x ∧ t.thm.level = 3 ∧ t.thm.source = 0 ∧
          (∃ e ∈ t.hif.raised, e.code = 0x0D00) ∧ (s.part.fan = true → ∀ f ∈ t.fan.outs, f.state = 6 → f.cmdPct = 100) ∧
          t.zns = s.zns ∧ t.mnt = s.mnt)) ∧
      (s.thm.die.trip + 40 ≤ x → 1 ≤ s.thm.tripRuns.1 → goes true (fun t => t.pwr.pstate = .flushing 1 ∧ t.boot.tripped = true ∧
        t.thm.tripRecord = some (0, x, false) ∧ t.modOk = false)) ∧
      (s.mounted = false → s.thm.tripRuns.1 = 0 → goes false (fun t => i ∈ t.thm.excluded ∧ ∃ e ∈ t.hif.raised, e.code = 0x0D04))) ∧
    (∀ stamp d x, (s.die d).lost = false → canon 0 s.thm.dieTemps = true → s.thm.level = 0 →
      (∀ y, look 0 s.thm.dieTemps y < s.thm.flash.notice + 40) → x < s.thm.flash.critical + 40 → x < s.thm.flash.trip + 40 →
      s.thm.flash.notice ≤ s.thm.flash.critical → s.thm.flash.notice ≤ s.thm.flash.trip →
      Goes (.flashTemperatureRead stamp d x) s (fun t => look 0 t.thm.dieTemps d = x ∧
        (∀ y, y ≠ d → look 0 t.thm.dieTemps y = look 0 s.thm.dieTemps y) ∧
        (∀ y, look 0 t.thm.dieTemps y ≤ t.thm.flashTemp) ∧ (0 < t.thm.flashTemp → look 0 t.thm.dieTemps t.thm.flashDie = t.thm.flashTemp) ∧
        (x < s.thm.flash.notice + 40 → t.thm.level = 0) ∧
        (s.thm.flash.notice + 40 ≤ x → t.thm.level = 1 ∧ t.thm.source = 1 ∧ t.thm.windowAt = some stamp) ∧ t.zns = s.zns)) ∧
    (∀ temps, temps.length = 6 → Goes (.boardSensorReading temps) s (fun t => t.thm = { s.thm with board := temps } ∧ t.zns = s.zns ∧
      t.pwr = s.pwr)) ∧
    (∀ w, s.thm.windowAt = some w →
      let k := if s.thm.source = 1 then 1 else 0
      let lim := if s.thm.source = 1 then s.thm.flash else s.thm.die
      let stop := w + max 1 s.thm.graceMs * 1000000
      let mine := s.thm.readings.filter (fun r => decide (r.2.1 = k ∧ w ≤ r.1 ∧ r.1 < stop))
      (∀ r, mine.head? = some r → lim.notice + 40 ≤ r.2.2 → Goes .graceWindowEnd s (fun t =>
        t.thm.step = min 4 (s.thm.step + 1) ∧ t.thm.level = (if s.thm.level = 1 then 2 else s.thm.level) ∧
        t.thm.windowAt = some stop ∧ (s.thm.step < 4 → min 4 (s.pwr.mode.row + s.thm.step + 1) ≤ t.lvl.rowPower ∧
          ∃ e ∈ t.hif.raised, e.code = 0x0D01 ∧ e.payload = .fields [s.thm.step, (s.thm.step + 1 : Nat)]) ∧
        t.lvl.rowInForce = s.lvl.rowInForce ∧ t.zns = s.zns)) ∧
      (mine ≠ [] → (∀ r ∈ mine, r.2.2 + s.thm.hystC < lim.notice + 40) → s.thm.level < 3 → s.thm.fanFloor = false →
        (2 ≤ s.thm.step → Goes .graceWindowEnd s (fun t => t.thm.step = s.thm.step - 1 ∧ t.thm.level = s.thm.level ∧
          t.thm.windowAt = some stop ∧ t.lvl.rowInForce = s.lvl.rowInForce)) ∧
        (s.thm.step ≤ 1 → (if k = 1 then s.thm.dieTemp < s.thm.die.notice + 40 else s.thm.flashTemp < s.thm.flash.notice + 40) →
          Goes .graceWindowEnd s (fun t => t.thm.step = 0 ∧ t.thm.level = 0 ∧ t.thm.windowAt = none))) ∧
      (mine = [] → Goes .graceWindowEnd s (fun t => t.thm = { s.thm with windowAt := some stop } ∧
        t = { s with thm := t.thm, tim := { s.tim with now := t.tim.now } }))) ∧
    (s.part.fan = true → s.fan.outs.length = 4 →
      (∀ rpms duties, rpms.length = 4 → duties.length = 4 →
        let loopTemp := max s.thm.dieTemp (s.thm.flashTemp + 25)
        let curve := fun (p lo hi : Nat) => if loopTemp ≤ lo + 40 then p else if hi + 40 ≤ loopTemp then 100
          else p + (loopTemp - 40 - lo) * (100 - p) / (hi - lo)
        let loop := match s.pwr.mode with
          | .galop => curve 35 60 90
          | .waltz => curve 25 65 92
          | .minuet => curve 20 70 95
        let pin := s.pins.fanCmdPct
        let wanted := if 1 ≤ s.thm.level ∨ s.thm.fanFloor = true ∨ (s.fan.cmdSrc ≠ 2 ∧ pin = 0x7F) then 100
          else min 100 (max s.fan.minPct (if s.fan.cmdSrc = 1 then pin else if s.fan.cmdSrc = 2 then loop else max loop pin))
        let lost := (s.fan.outs.filter (fun f => f.lost)).length
        let command := if lost = 0 then wanted else if lost = 1 then min 100 (wanted * 4 / 3) else 100
        Goes (.fanCommandUpdate rpms duties) s (fun t => t = clocked { s with fan := { s.fan with outs := t.fan.outs } } t ∧
          ∀ i f, s.fan.outs[i]? = some f → ∃ r d g, rpms[i]? = some r ∧ duties[i]? = some d ∧ t.fan.outs[i]? = some g ∧
            g.cmdPct = (if f.state = 7 ∨ s.fan.enable.getLsbD i = false then 0 else command) ∧ g.rpm = r ∧ g.dutyPct = d ∧
            g.state = f.state ∧ g.lost = f.lost ∧ g.retries = f.retries ∧ g.starts = f.starts)) ∧
      (∀ i f, s.fan.outs[i]? = some f →
        let starts := fun (ev : FanStart) (P : State → Prop) => Goes (.fanStartStep i ev) s P
        let becomes := fun (t : State) (g : FanOut) => t.fan.outs[i]? = some g ∧ t.fan.outs.length = 4 ∧
          ∀ j, j ≠ i → t.fan.outs[j]? = s.fan.outs[j]?
        let goto := fun (ev : FanStart) (n : Nat) => starts ev (fun t => becomes t { f with state := n, crossings := 0 } ∧
          t = clocked { s with fan := { s.fan with outs := t.fan.outs } } t)
        (f.state ≤ 1 → s.fan.enable.getLsbD i = true → s.fan.gatesOff = false →
          starts (.clampTest true) (fun t => becomes t { f with state := 2, starts := f.starts + 1, crossings := 0 } ∧
            t.fan.clampFault = s.fan.clampFault ∧ (s.fan.railV < 130 → t.fan.zeroVector = false)) ∧
          starts (.clampTest false) (fun t => becomes t { f with state := 2, starts := f.starts + 1, crossings := 0 } ∧
            t.fan.clampFault = true ∧ t.fan.zeroVector = true ∧ ∃ e, t.hif.raised = e :: s.hif.raised ∧ e.code = 0x0D07)) ∧
        (f.state = 2 → ∀ p : Int, (50 < p → goto (.measured p) 6) ∧ (p < -50 → goto (.measured p) 3) ∧
          (-50 ≤ p → p ≤ 50 → goto (.measured p) 4)) ∧
        (f.state = 3 → goto .standstill 4) ∧ (f.state = 4 → goto .aligned 5) ∧ (f.state = 5 → goto .ramped 6) ∧
        (∀ now_, f.state = 6 → s.fan.polePairs ≠ 0 →
          ((now_ - f.nextCommutation) * 5 < f.interval → Goes (.fanZeroCrossing i now_) s (fun t =>
            t = clocked { s with tim := { s.tim with now := t.tim.now } } t)) ∧
          (0 < f.interval → f.interval ≤ (now_ - f.nextCommutation) * 5 → Goes (.fanZeroCrossing i now_) s (fun t => ∃ g,
            becomes t g ∧ g.commutation = (f.commutation + 1) % 6 ∧ g.crossings = min 12 (f.crossings + 1) ∧
            g.nextCommutation = now_ + f.interval / 2 ∧ g.interval = g.nextCommutation - f.nextCommutation ∧
            g.rpm = min 0xFFFF (10000000000 / (g.interval * s.fan.polePairs)) ∧ g.state = 6 ∧ g.lost = f.lost))) ∧
        (1 ≤ f.state → f.state ≤ 6 → ∀ c,
          let n := if f.lost then min 3 (f.retries + 1) else 0
          let others := (s.fan.outs.filter (fun g => g.lost)).length
          Goes (.fanFault i c) s (fun t => (∃ g, becomes t g ∧ g.state = 7 ∧ g.cmdPct = 0 ∧ g.lost = true ∧ g.retries = n) ∧
            (match c with
              | .stall => t.fan.stall.getLsbD i
              | .startFail => t.fan.startFail.getLsbD i
              | .overcurrent => t.fan.overcurrent.getLsbD i
              | .openPhase => t.fan.openPhase.getLsbD i
              | .speedLow => t.fan.speedLow.getLsbD i) = true ∧
            (n = 3 → t.fan.heldOff.getLsbD i = true) ∧ (n ≠ 3 → t.fan.heldOff = s.fan.heldOff) ∧
            (∃ e ∈ t.hif.raised, e.code = 0x0D05) ∧
            (f.lost = false → others = 1 → t.thm.fanFloor = true ∧ t.thm.step = max 1 s.thm.step ∧
              ∃ e ∈ t.hif.raised, e.code = 0x0D08 ∧ e.payload = .fields [2]) ∧
            (f.lost = true ∨ others = 0 → t.thm = s.thm))) ∧
        (2 ≤ f.state → f.state ≤ 5 → starts .missed (fun t => (∃ g, becomes t g ∧ g.state = 7) ∧ t.fan.startFail.getLsbD i = true)) ∧
        (f.state = 7 → s.fan.heldOff.getLsbD i = false → Goes (.fanRetry i) s (fun t => becomes t { f with state := 1 })) ∧
        (f.state = 6 → f.lost = true → Goes (.fanRecovered i) s (fun t => becomes t { f with lost := false, retries := 0 } ∧
          ∃ e, t.hif.raised = e :: s.hif.raised ∧ e.code = 0x0D06 ∧ e.payload = .fields [i])) ∧
        (s.fan.heldOff.getLsbD i = true → Goes (.heldOffClear i) s (fun t => becomes t { f with state := 1, retries := 0 } ∧
          t.fan.heldOff.getLsbD i = false ∧ t.hif = s.hif))) ∧
      (∀ v, Goes (.fanRailThreshold v) s (fun t => t.fan.railV = v ∧
        (130 < v → t.fan.clampOn = true) ∧ (2 * v < 255 → t.fan.clampOn = false) ∧
        (140 < v → t.fan.zeroVector = true ∧ (s.fan.railV ≤ 140 → t.fan.rail28 = true ∧ ∃ e ∈ t.hif.raised, e.code = 0x0D07)) ∧
        (150 ≤ v → t.fan.gatesOff = true ∧ (∀ f ∈ t.fan.outs, f.state = 0 ∨ f.state = 7) ∧ (s.fan.railV < 150 → t.fan.rail30 = true)) ∧
        (v < 130 → t.fan.gatesOff = false ∧ t.fan.outs = s.fan.outs))) ∧
      (∀ m pct bad,
        ((∃ mv, s.fan.cmdMode = 0 ∧ m = .analogue mv ∧ bad = decide (3300 < mv) ∧ pct = (if 3300 < mv then 100 else mv * 100 / 3300)) ∨
         (∃ p hz lev, s.fan.cmdMode = 1 ∧ m = .duty p hz lev ∧ bad = decide (hz < 1000 ∨ 100000 < hz) ∧
            pct = (if hz = 0 then (if lev then 100 else 0) else if hz < 1000 ∨ 100000 < hz then 100 else min 100 (p / 10))) ∨
         (∃ hz, s.fan.cmdMode = 2 ∧ m = .frequency hz ∧ bad = decide (hz = 0 ∨ 1000 < hz) ∧
            pct = (if hz = 0 ∨ 1000 < hz then 100 else min 100 (hz / 10)))) →
        Goes (.fanCmdMeasurement m) s (fun t => t.pins.fanCmdPct = pct ∧ t.pins.fanCmdFault = bad ∧ t.fan = s.fan ∧
          (bad = true → s.pins.fanCmdFault = false → ∃ e, t.hif.raised = e :: s.hif.raised ∧ e.code = 0x0B02) ∧
          (bad = false ∨ s.pins.fanCmdFault = true → t.hif = s.hif)))) ∧
    (s.part.fan = false → (∀ m, Goes (.fanCmdMeasurement m) s (fun t => t = s)) ∧ ∀ i, Goes (.heldOffClear i) s (fun t => t = s)) ∧
    (∀ live, 4 ≤ s.boot.step → live < 8 →
      (live = s.pins.modIdStrap → Goes (.modIdChange live) s (fun t => t = { s with pins := { s.pins with modIdLive := live } })) ∧
      (live ≠ s.pins.modIdStrap → Goes (.modIdChange live) s (fun t =>
        t.pins = { s.pins with modIdLive := live, srcIdChanged := true } ∧
        ∃ e, t.hif.raised = e :: s.hif.raised ∧ e.code = 0x0B00 ∧ e.payload = .fields [s.pins.modIdStrap, live])))
/-- R223 to R225, R239, R243 to R255: a Frame Append waits for its context and takes a lane; the coded record goes to the write
pointer of its zone, or nothing is appended and the context stays; a Frame Read decodes on its context; a saved context
answers its record and a restored one holds what the record says. -/
def Obligations.FrameCodecCommandsCodeAndDecode : Prop :=
  ∀ (s : State) (h : HostCmd),
    (IoReady s h → (s.part.codec = false → ∀ zslba len limit desc raw ctx buf record, desc.length = 64 → raw.length = len →
      OnlyCompletes (.frameAppend h zslba len limit desc raw) s h (.vendor 0x82) ∧
      OnlyCompletes (.frameRead h zslba len ctx buf) s h (.vendor 0x82) ∧ OnlyCompletes (.codecStateSave h ctx) s h (.vendor 0x82) ∧
      OnlyCompletes (.codecStateRestore h ctx record) s h (.vendor 0x82)) ∧
    (s.part.codec = true →
      (∀ zslba len limit desc raw n z u c key, OnZone s h zslba n z u c key → desc.length = 64 → raw.length = len →
        let goes := fun (P : State → Prop) => Goes (.frameAppend h zslba len limit desc raw) s P
        let e := s.carriage c
        let x := e.codecCtx
        let b := bandOf desc
        let granted := x < 2048 ∧ (s.codecCtx x).grant = some h.comp
        (u ≠ 0 ∨ e.codec = false ∨ ¬ granted ∨ len = 0 ∨ 16777216 < len ∨ b.legal = false ∨ b.rawLen ≠ len →
          OnlyCompletes (.frameAppend h zslba len limit desc raw) s h .invalidField) ∧
        (u = 0 → e.codec = true → granted → 0 < len → len ≤ 16777216 → b.legal = true → b.rawLen = len → s.fcd.jobs = [] →
          s.fcd.coded = [] →
          (continuity (s.codecCtx x).st b = none → goes (fun t => Completed t h .sequenceError ∧ t.zns = s.zns ∧ t.fcd = s.fcd)) ∧
          (∀ l, continuity (s.codecCtx x).st b ≠ none → s.freeLane none = some l → goes (fun t =>
            (∃ cls, t.fcd.jobs = [{ ctx := x, lane := some l, near := none, work := .append h b raw limit c cls z s.tim.now key }]) ∧
            (t.carriage c).outstanding = e.outstanding + 1 ∧ t.fcd.ctxs = s.fcd.ctxs ∧ t.zns = s.zns ∧ t.fls = s.fls)))) ∧
      (∀ slba recLen ctx buf n z u c key, OnZone s h slba n z u c key →
        let units := max n.unitsPerLba ((recLen + n.unitsPerLba * 4096 - 1) / (n.unitsPerLba * 4096) * n.unitsPerLba)
        (¬ (ctx < 2048 ∧ (s.codecCtx ctx).grant = some h.comp) → OnlyCompletes (.frameRead h slba recLen ctx buf) s h .invalidField) ∧
        (ctx < 2048 → (s.codecCtx ctx).grant = some h.comp →
          ((s.zone z).state = .offline → OnlyCompletes (.frameRead h slba recLen ctx buf) s h .zoneOffline) ∧
          (∀ l, (s.zone z).state ≠ .offline → u + units ≤ n.zsze * n.unitsPerLba → s.fcd.jobs = [] → s.fcd.coded = [] →
            s.car.flights = [] → s.sensesOf (some z) u units = [] → s.mem.bad = [] → s.zonePair z = none → s.freeLane none = some l →
            Goes (.frameRead h slba recLen ctx buf) s (fun t => ∃ v ∈ t.car.flights, v.cmd = h ∧ v.kind = .frameRead ∧ v.start = u ∧
              v.len = units ∧ v.data = (List.range units).flatMap (fun i =>
                s.zoneUnit h.nsid (s.zoneSlba n z * n.unitsPerLba) z (u + i) key) ∧
              t.fcd.jobs = [{ ctx := ctx, lane := some l, near := none, work := .read v.id recLen buf }] ∧ t.zns = s.zns)))) ∧
      (∀ ctx record n, s.space h.nsid = some n → n.comp = h.comp →
        (s.mnt.stopping = false → ¬ (ctx < 2048 ∧ (s.codecCtx ctx).grant = some h.comp) → OnlyCompletes (.codecStateSave h ctx) s h .invalidField ∧
          OnlyCompletes (.codecStateRestore h ctx record) s h .invalidField) ∧
        (s.mnt.stopping = true → OnlyCompletes (.codecStateSave h ctx) s h .namespaceNotReady ∧
          OnlyCompletes (.codecStateRestore h ctx record) s h .namespaceNotReady) ∧
        (s.mnt.stopping = false → ctx < 2048 → (s.codecCtx ctx).grant = some h.comp → s.fcd.jobs = [] → s.fcd.coded = [] →
          Goes (.codecStateSave h ctx) s (fun t => Completed t h .success ∧
            Output.data h (stateRecord (s.codecCtx ctx).st) ∈ t.hif.out ∧ t.fcd = s.fcd ∧ t.zns = s.zns) ∧
          (stateOf record = none → Goes (.codecStateRestore h ctx record) s (fun t => Completed t h .invalidField ∧
            t.fcd = s.fcd ∧ t.zns = s.zns)) ∧
          (∀ st, stateOf record = some st → Goes (.codecStateRestore h ctx record) s (fun t => Completed t h .success ∧
            t.codecCtx ctx = { s.codecCtx ctx with st := st, coded := false } ∧ (∀ y, y ≠ ctx → t.codecCtx y = s.codecCtx y) ∧ t.zns = s.zns)))))) ∧
      (∀ x l b raw limit c cls z at_ key n, s.fcd.jobs = [{ ctx := x, lane := some l, near := none, work := .append h b raw limit c cls z at_ key }] →
        s.fcd.coded = [] → s.serves = true → s.resetPending z = false → s.space h.nsid = some n → s.zonePair z = none →
        s.zns.seq < 2 ^ 56 - 1 → s.sec.keyErasing = none →
        let goes := fun (P : State → Prop) => Goes (.frameCodingComplete l) s P
        (b.clean raw = false → goes (fun t => Completed t h .invalidField ∧ t.zns = s.zns ∧ t.fcd.jobs = [] ∧ t.fcd.ctxs = s.fcd.ctxs)) ∧
        (∀ la, b.clean raw = true → continuity (s.codecCtx x).st b = some la →
          let record := recordOfBand b raw at_ x (codeBand b raw la).2
          let units := (record.length + n.unitsPerLba * 4096 - 1) / (n.unitsPerLba * 4096) * n.unitsPerLba
          (limit ≠ 0 → limit < record.length → goes (fun t => Completed t h (.vendor 0x80) ∧ t.zns = s.zns ∧ t.fcd.jobs = [] ∧
            t.fcd.ctxs = s.fcd.ctxs)) ∧
          (limit = 0 ∨ record.length ≤ limit → (s.zone z).state ∈ [.implicitOpen, .explicitOpen] →
            ((s.zone z).cap < (s.zone z).wp + units → goes (fun t => Completed t h (.vendor 0x80) ∧ t.zns = s.zns ∧
              t.fcd.jobs = [] ∧ t.fcd.ctxs = s.fcd.ctxs)) ∧
            ((s.zone z).wp + units ≤ (s.zone z).cap → goes (fun t => (t.zone z).wp = (s.zone z).wp + units ∧
              (∀ y, y ≠ z → t.zone y = s.zone y) ∧ t.fcd.jobs = [] ∧ t.fcd.ctxs = s.fcd.ctxs ∧
              ∃ v ∈ t.car.flights, v.cmd = h ∧ v.kind = .frameAppend ∧ v.zone = some z ∧ v.start = (s.zone z).wp ∧ v.len = units ∧
                v.key = key ∧ v.data = record ++ List.replicate (units * 4096 - record.length) 0 ∧
                t.fcd.coded = [{ flight := v.id, ctx := x, st := contextAfter b (codeBand b raw la).1 }]))))) ∧
      (∀ x l recLen buf v, s.fcd.jobs = [{ ctx := x, lane := some l, near := none, work := .read v.id recLen buf }] → s.fcd.coded = [] →
        s.car.flights = [v] → v.cmd = h → v.kind = .frameRead → v.senses = [] → v.squashed = false → v.zone.isSome = true →
        v.ticket = none → v.peer = none → s.serves = true → s.sec.keyErasing = none → s.fls.blocks = [] →
        let goes := fun (P : State → Prop) => Goes (.frameCodingComplete l) s P
        let hd := v.data.take 64
        let b := bandOf hd
        let fails := fun (st : Status) => goes (fun t => Completed t h st ∧ t.fcd.ctxs = s.fcd.ctxs ∧ t.zns = s.zns)
        (recLen < 64 ∨ v.data.length < recLen ∨ headerGood hd recLen = false → fails (.vendor 0x81)) ∧
        (64 ≤ recLen → recLen ≤ v.data.length → headerGood hd recLen = true →
          (continuity (s.codecCtx x).st b = none → fails .sequenceError) ∧
          (∀ la, continuity (s.codecCtx x).st b = some la →
            (buf < leAt hd 40 4 → fails .invalidField) ∧
            (leAt hd 40 4 ≤ buf →
              (decodeBand b ((v.data.drop 64).take (recLen - 64)) la = none → fails (.vendor 0x81)) ∧
              (∀ raw lb, decodeBand b ((v.data.drop 64).take (recLen - 64)) la = some (raw, lb) →
                (leAt hd 32 8 ≠ (crcGuard raw).toNat → fails (.vendor 0x81)) ∧
                (leAt hd 32 8 = (crcGuard raw).toNat → goes (fun t => Completed t h .success ∧ Output.data h raw ∈ t.hif.out ∧
                  Output.data h hd ∈ t.hif.out ∧ t.codecCtx x = { s.codecCtx x with st := contextAfter b lb, coded := true } ∧
                  (∀ y, y ≠ x → t.codecCtx y = s.codecCtx y) ∧ t.zns = s.zns)))))))
/-- R10, R446, R519 to R535, R541: the mirror operations answer with their statuses and change the pair of their placement group; links
train, replay and go down; members are heard, lost and joined, and pairs are promoted, broken or superseded with them;
mirrored segments, their acknowledgements and forwarded reads take effect; the error of an exchange of time is followed. -/
def Obligations.CoupledModulesMirrorAndFollow : Prop :=
  (∀ s : State, s.part.coupler = false → ∀ m, ∀ i ∈ [Instr.mirrorBind m, .mirrorUnbind m, .mirrorPromote m, .mirrorResync m,
    .mirrorCopyZone m, .mirrorQuery m], Goes i s (fun t => t = s)) ∧
  ∀ s : State, s.coupled = true → s.cpl.ports.length = 4 →
    let only := fun (i : Instr) (m : MirrorArgs) (st : Nat) => Goes i s (fun t =>
      t = { s with cpl := { s.cpl with cmdStatus := st, cmdPgroup := m.pgroup } })
    let answers_ := fun (i : Instr) (m : MirrorArgs) (P : State → Prop) => Goes i s (fun t => t.cpl.cmdStatus = 0 ∧
      t.cpl.cmdPgroup = m.pgroup ∧ t.zns = s.zns ∧ P t)
    (∀ m, s.cpl.cmdDone = false → only (.mirrorBind m) m 4 ∧ only (.mirrorUnbind m) m 4 ∧ only (.mirrorPromote m) m 4 ∧
      only (.mirrorResync m) m 4 ∧ only (.mirrorCopyZone m) m 4 ∧ only (.mirrorQuery m) m 4) ∧
    (∀ m, s.cpl.cmdDone = true → only (.mirrorQuery m) m 0 ∧
      (s.reached m.peer = false → only (.mirrorBind m) m 2 ∧ only (.mirrorCopyZone m) m 2) ∧
      (s.reached m.peer = true →
        (s.spacesMatch m m.mirrorRole = false → only (.mirrorBind m) m 3) ∧
        (s.spacesMatch m m.mirrorRole = true →
          (∀ x, s.pairOf m.pgroup = some x → x.formed = true → only (.mirrorBind m) m 1) ∧
          ((∀ x, s.pairOf m.pgroup = some x → x.formed = false) → answers_ (.mirrorBind m) m (fun t => ∃ x, t.pairOf m.pgroup = some x ∧
            x.pgroup = m.pgroup ∧ x.peer = m.peer ∧ x.peerPgroup = m.peerPgroup ∧ x.formed = m.peerBound ∧ x.owner = m.owner ∧
            x.role = (if m.mirrorRole then .mirror else .primary) ∧
            x.resync = (if m.peerBound && !m.mirrorRole then s.usedZones m.pgroup else []) ∧
            ∀ p, p ≠ m.pgroup → t.pairOf p = s.pairOf p))) ∧
        (s.spacesMatch m false = false → only (.mirrorCopyZone m) m 3) ∧
        (∀ n z, s.spacesMatch m false = true → s.pgroupSpace m.pgroup = some n → m.zone < s.spaceZones n → s.spaceZone n m.zone = some z →
          answers_ (.mirrorCopyZone m) m (fun t => t.cpl.cmdDone = false ∧
            t.cpl.copies = s.cpl.copies ++ [(m.pgroup, m.peer, m.peerPgroup, z)]))) ∧
      (s.pairOf m.pgroup = none → only (.mirrorUnbind m) m 1 ∧ only (.mirrorPromote m) m 1 ∧ only (.mirrorResync m) m 1) ∧
      (∀ x, s.pairOf m.pgroup = some x →
        (s.car.flights = [] → answers_ (.mirrorUnbind m) m (fun t => t.pairOf m.pgroup = none ∧
          (∀ p, p ≠ m.pgroup → t.pairOf p = s.pairOf p) ∧ Tells s t (.unbindTold x.peer x.peerPgroup))) ∧
        (¬ (x.formed = true ∧ x.role = .mirror) → only (.mirrorPromote m) m 1) ∧
        (x.formed = true → x.role = .mirror → answers_ (.mirrorPromote m) m (fun t =>
          t.pairOf m.pgroup = some { x with role := .promoted, resync := [], changed := s.tim.now } ∧
          ∃ e ∈ t.hif.raised, e.code = 0x0E04 ∧ e.payload = .fields [m.pgroup, x.peer, 1])) ∧
        (¬ (x.formed = true ∧ x.role = .primary) → only (.mirrorResync m) m 1) ∧
        (x.formed = true → x.role = .primary → s.reached x.peer = false → only (.mirrorResync m) m 2) ∧
        (x.formed = true → x.role = .primary → s.reached x.peer = true → answers_ (.mirrorResync m) m (fun t =>
          t.pairOf m.pgroup = some { x with resync := s.usedZones m.pgroup, changed := s.tim.now })))) ∧
    (∀ p x, s.pairOf p = some x → x.formed = true → x.resync ≠ [] → Goes (.resyncComplete p) s (fun t =>
      t.pairOf p = some { x with resync := [] } ∧ t.zns = s.zns ∧
      ∃ e, t.hif.raised.head? = some e ∧ e.code = 0x0E06 ∧ e.payload = .fields [p, x.resync.length])) ∧
    (∀ p c, s.pairOf p = none → s.cpl.copies = [(p, c)] → Goes (.resyncComplete p) s (fun t => t.cpl.copies = [] ∧
      t.cpl.cmdDone = true ∧ t.zns = s.zns)) ∧
    (∀ p < 4,
      let v := s.cplPort p
      let others := fun (t : State) => ∀ q, q ≠ p → t.cplPort q = s.cplPort q
      let down := fun (i : Instr) (cause : Nat) => Goes i s (fun t => (t.cplPort p).state = 1 ∧ (t.cplPort p).downs = v.downs + 1 ∧
        (t.cplPort p).replayBuf = [] ∧ (t.cplPort p).sendQueue = [] ∧ (t.cplPort p).peer = v.peer ∧
        ∃ e, t.hif.raised.head? = some e ∧ e.code = 0x0E01 ∧ e.payload = .fields [p, cause])
      (v.up = true → down (.linkSilenceTimeout p) 1 ∧
        (s.peerLost v.peer = true → ∀ f, Goes (.flitReceived p f) s (fun t => t = s)) ∧
        (s.peerLost v.peer = false →
          Goes (.flitReceived p .idle) s (fun t => t = s) ∧
          Goes (.flitReceived p .corrupt) s (fun t => t = { s with hif := { s.hif with out := .nak p :: s.hif.out } }) ∧
          (∀ n, let left := v.replayBuf.filter (fun x => decide (n < x))
            Goes (.flitReceived p (.ack n)) s (fun t => others t ∧ (∀ x ∈ left, x ∈ (t.cplPort p).replayBuf) ∧
              (v.sendQueue = [] → (t.cplPort p).replayBuf = left ∧ t.hif = s.hif) ∧
              (left.length + v.sendQueue.length ≤ 512 → (t.cplPort p).sendQueue = [] ∧ ∀ w ∈ v.sendQueue, w.out ∈ t.hif.out) ∧
              (∀ a b, v.sendQueue = [a, b] → left.length = 511 →
                (t.cplPort p).sendQueue = (if b.rank < a.rank then [a] else [b])))) ∧
          (∀ n, (∃ x ∈ v.replayBuf, n ≤ x) → (∀ x ∈ v.replayBuf, n ≤ x) →
            (v.replays < 8 → Goes (.flitReceived p (.nak n)) s (fun t => others t ∧ (t.cplPort p).replays = v.replays + 1 ∧
              (t.cplPort p).replayBuf = v.replayBuf ∧ (∀ x ∈ v.replayBuf, Output.flit p x ∈ t.hif.out) ∧
              (t.cplPort p).retries = min 0xFFFF (v.retries + v.replayBuf.length))) ∧
            (8 ≤ v.replays → down (.flitReceived p (.nak n)) 0)) ∧
          (∀ m heard sl, s.members.getLsbD m = true → s.peerLost m = false → m ≠ s.pins.modIdStrap → m < 8 → s.cpl.pairs = [] →
            Goes (.flitReceived p (.heartbeat m sl heard)) s (fun t => t.cpl.membersSeen.getLsbD m = true ∧
              t.cpl.sleeping.getLsbD m = sl ∧ t.cpl.quorum = t.holdsQuorum ∧ t.cpl.fenced = s.cpl.fenced ∧
              ∀ j < 8, s.cpl.membersSeen.getLsbD j = true → t.cpl.membersSeen.getLsbD j = true)))) ∧
      (v.state = 1 → s.mated p = true →
        Goes (.linkTrainingRetry p) s (fun t => t = s) ∧
        (∀ peer far lanes, peer < 8 → far < 4 → lanes = 2 ∨ lanes = 4 → Goes (.couplerLinkTrained p peer far lanes) s (fun t =>
          others t ∧ (t.cplPort p).peer = peer ∧ (t.cplPort p).peerPort = far ∧ (t.cplPort p).replays = 0 ∧
          (t.cplPort p).state = (if peer = s.pins.modIdStrap then 5 else if lanes = 4 then 2 else 3) ∧
          ∃ e, t.hif.raised = e :: s.hif.raised ∧ e.code = (if peer = s.pins.modIdStrap then 0x0E09 else 0x0E00)))) ∧
      (s.mated p = false → Goes (.cablePresentChange p true) s (fun t => t.mated p = (s.pins.cable.length > p : Bool) ∧
        (t.cplPort p).state = 1 ∧ ∃ e, t.hif.raised.head? = some e ∧ e.code = 0x0B03 ∧ e.payload = .fields [p, 1])) ∧
      (s.mated p = true → Goes (.cablePresentChange p false) s (fun t => t.mated p = false ∧ (t.cplPort p).state = 0 ∧
        ∃ e, t.hif.raised.head? = some e ∧ e.code = 0x0B03 ∧ e.payload = .fields [p, 0]))) ∧
    Goes .heartbeatSend s (fun t => t = { s with cpl := { s.cpl with ports := t.cpl.ports }, hif := { s.hif with out := t.hif.out } } ∧
      ∀ p < 4, (s.cplPort p).up = true → s.peerLost (s.cplPort p).peer = false → Tells s t
        (.heartbeat p s.pins.modIdStrap s.modOk false (State.setMember s.cpl.membersSeen s.pins.modIdStrap true))) ∧
    (∀ m at_ : Nat, m < 8 → s.car.flights = [] ∨ s.cpl.pairs = [] →
      let lost := fun (i : Instr) => Goes i s (fun t => t.cpl.membersSeen.getLsbD m = false ∧ t.cpl.sleeping.getLsbD m = false ∧
          t.cpl.fenced.getLsbD m = true ∧ (∃ e ∈ t.hif.raised, e.code = 0x0E02 ∧ e.payload = .fields [m, at_]) ∧
          (s.cpl.pairs = [] → t.cpl.quorum = t.holdsQuorum) ∧
          (∀ x, s.cpl.pairs = [x] → x.peer = m → x.formed = true → s.car.flights = [] →
            (t.holdsQuorum = true → x.role = .mirror → t.cpl.pairs = [{ x with role := .promoted, resync := [], changed := s.tim.now }] ∧
              ∃ e ∈ t.hif.raised, e.code = 0x0E04 ∧ e.payload = .fields [x.pgroup, m, 0]) ∧
            (t.holdsQuorum = true → x.role = .primary → t.cpl.pairs = [{ x with role := .broken, changed := s.tim.now }] ∧
              ∃ e ∈ t.hif.raised, e.code = 0x0E05 ∧ e.payload = .fields [x.pgroup, m]) ∧
            (t.holdsQuorum = false → t.cpl.pairs = [x])) ∧ (s.car.flights = [] → t.zns = s.zns))
      (s.cpl.membersSeen.getLsbD m = true → s.cpl.sleeping.getLsbD m = false → m ≠ s.pins.modIdStrap → lost (.memberLost m at_)) ∧
      (s.cpl.sleeping.getLsbD m = true → lost (.sleepingMemberTimeout m at_)) ∧
      (s.peerLost m = true → s.members.getLsbD m = true → ∀ ps, Goes (.memberJoined m ps) s (fun t =>
        t.cpl.membersSeen.getLsbD m = true ∧ t.cpl.fenced.getLsbD m = false ∧
        (∃ e ∈ t.hif.raised, e.code = 0x0E03 ∧ e.payload = .fields [m]) ∧
        (∀ x, s.cpl.pairs = [x] → x.peer = m → x.formed = true →
          (x.role = .promoted → t.cpl.pairs = [{ x with role := .broken, changed := s.tim.now }]) ∧
          (x.role = .primary ∨ x.role = .broken → x.pgroup ∈ ps → t.cpl.pairs = [{ x with role := .superseded, changed := s.tim.now }]) ∧
          (x.role = .broken → x.pgroup ∉ ps → t.cpl.pairs = [{ x with role := .primary, changed := s.tim.now, writtenSince := []
                                                                      resync := (x.resync ++ x.writtenSince).dedup }])))) ∧
      (s.members.getLsbD m = true → s.peerLost m = false → m ≠ s.pins.modIdStrap → s.cpl.pairs = [] → Goes (.sleepNotice m) s (fun t =>
        t.cpl.sleeping.getLsbD m = true ∧ t.cpl.membersSeen.getLsbD m = true ∧ t.cpl.quorum = t.holdsQuorum ∧ t.zns = s.zns))) ∧
    (s.serves = true → ∀ peer p zoneNo z x, s.peerLost peer = false → s.pairOf p = some x → x.formed = true → x.peer = peer →
      s.pgroupZone p zoneNo = some z →
      (∀ start key data direct cls n, s.mayGrant .staging (State.classOf cls) false = false → 1 ≤ n → n ≤ 64 → data.length = 4096 * n → x.role = .mirror → z ∉ x.resync →
        (s.zone z).state ∈ [.implicitOpen, .explicitOpen] →
        (start = (s.zone z).wp → start + n ≤ (s.zone z).cap → Goes (.mirrorSegment peer p zoneNo start key data direct cls) s (fun t =>
          (t.zone z).wp = start + n ∧ (∀ y, y ≠ z → t.zone y = s.zone y) ∧ ∃ v ∈ t.car.flights, v.kind = .write ∧ v.zone = some z ∧
            v.start = start ∧ v.len = n ∧ v.key = key ∧ v.peer = some (peer, x.owner))) ∧
        (start ≠ (s.zone z).wp → start + n ≤ (s.zone z).cap → Goes (.mirrorSegment peer p zoneNo start key data direct cls) s (fun t =>
          t.zns = s.zns ∧ t.car = s.car ∧ Tells s t (.mirrorAck peer zoneNo start Status.zoneInvalidWrite.code)))) ∧
      (∀ n start len cls, (∀ m c, (m, c) ∈ s.cmp.table → c.state ≠ .saving) → s.pgroupSpace p = some n → s.car.flights = [] → s.sensesOf (some z) start len = [] → s.mem.bad = [] →
        (s.zone z).state ≠ .offline →
        s.zoneNumber z = zoneNo → s.fls.blocks = [] →
        Goes (.forwardedRead peer p zoneNo start len cls) s (fun t => t.zns = s.zns ∧
          Tells s t (.forwardedData peer zoneNo start true (s.sealedUnits (s.peerCmd p).nsid n z start len))))) ∧
    (∀ v j st, s.car.flights = [v] → v.mirrorWait = true → v.squashed = false → v.peer = none → v.ticket = none → v.group = false →
      (∀ g, State.isWrite v.kind = true → v.segs = [g] → j = 0 → g.step ≠ .programming → Goes (.mirrorAck v.id 0 0) s (fun t =>
        t.car.flights = [{ v with segs := [{ g with mirrored := true }] }] ∧ t.zns = s.zns)) ∧
      (v.kind = .offline_ ∨ v.kind = .open_ ∨ v.kind = .close → st ≠ 0 → Goes (.mirrorAck v.id j st) s (fun t =>
        Completed t v.cmd (.vendor st) ∧ t.zns = s.zns ∧ t.car.flights = [])) ∧
      (∀ z, v.kind = .offline_ → v.zone = some z → Goes (.mirrorAck v.id j 0) s (fun t => (t.zone z).state = .offline ∧
        Completed t v.cmd .success))) ∧
    (∀ (t1 t2 t3 t4 sec hops : Nat) (suspect : Bool), s.tim.running = true → s.tim.saturated = false → s.cpl.leaderValid = true →
      s.cpl.leader ≠ s.pins.modIdStrap → 1 ≤ hops → hops ≤ 7 → s.tim.now ≤ t4 → t4 < 2 ^ 64 - 1 →
      let err : Int := (((t1 : Int) - t2) + ((t4 : Int) - t3)) / 2
      let goes := fun (P : State → Prop) => Goes (.timeExchange t1 t2 t3 t4 sec suspect hops) s P
      (s.tim.ppsAlive = true → goes (fun t => t.cpl.lastErr = err ∧ t.cpl.hops = hops ∧ t.tim = { s.tim with now := t4 })) ∧
      (s.tim.ppsAlive = false → err.natAbs ≤ 1000 → t4 / 1000000000 = sec → goes (fun t => t.cpl.lastErr = err ∧ t.cpl.hops = hops ∧
        t.tim.source = 3 ∧ t.tim.slew = err ∧ t.tim.now = t4 ∧ t.tim.secSuspect = suspect ∧ t.tim.steps = s.tim.steps)) ∧
      (s.tim.ppsAlive = false → 1000 < err.natAbs → 0 ≤ (t4 : Int) - err → (t4 : Int) - err < 2 ^ 64 - 1 → s.fcd.jobs = [] →
        ((t4 : Int) - err) / 1000000000 = sec → goes (fun t => (t.tim.now : Int) = t4 - err ∧ t.tim.steps = s.tim.steps + 1 ∧
          t.tim.source = 3 ∧ t.tim.secSuspect = suspect ∧ ∃ e ∈ t.hif.raised, e.code = 0x0C09)))
/-- R89, R406, R410, R437 to R439, R449, R450, R482, R566 to R568: registers answer a good access and clear what it reads, take
writes where they may and drop the rest; a misaligned access is refused; the debug connector's instructions reach no register
but by PEEK at Open; the management bus answers each request, and wakes a sleeping module for it. -/
def Obligations.RegistersPinsAndTheManagementBusAnswer : Prop :=
  ∀ s : State,
    (∀ p, s.reachable p = true →
      let reads := fun (off n : Nat) (P : State → Prop) => Goes (.registerReadClear p 2 off n) s P
      let writes := fun (off n : Nat) (v : Word) (P : State → Prop) => Goes (.registerWrite p 2 off n v) s P
      reads 0x20008 8 (fun t => Output.mmio p 2 0x20008 (BitVec.ofNat 64 (s.regRead 0x20008)) ∈ t.hif.out ∧
        t.pwr = { s.pwr with idleEntries := 0 } ∧ t.zns = s.zns) ∧
      reads 0x20008 4 (fun t => Output.mmio p 2 0x20008 (BitVec.ofNat 64 (s.regRead 0x20008 % 2 ^ 32)) ∈ t.hif.out ∧ t.pwr = s.pwr) ∧
      reads 0x30000 8 (fun t => Output.mmio p 2 0x30000 (BitVec.ofNat 64 s.tim.now) ∈ t.hif.out ∧ t.tim = s.tim) ∧
      (∀ off, off % 8 = 0 → 0x2400000 ≤ off → off < 0x4000000 →
        reads off 8 (fun t => Output.mmio p 2 off 0 ∈ t.hif.out ∧ t.pwr = s.pwr) ∧ ∀ v, writes off 8 v (fun t => t = s)) ∧
      (∀ v, writes 0x20020 8 v (fun t => t = { s with pwr := { s.pwr with wakeTimer := v.toNat } })) ∧
      (∀ v, s.pwr.wakeTimer < 2 ^ 64 → writes 0x20024 4 v (fun t => t = { s with pwr := { s.pwr with
        wakeTimer := s.pwr.wakeTimer % 2 ^ 32 + v.toNat % 2 ^ 32 * 2 ^ 32 } })) ∧
      (∀ v, writes 0x20010 4 v (fun t => t = { s with pwr := { s.pwr with idleUs := v.toNat % 2 ^ 24 } })) ∧
      (∀ v, writes 0x30008 4 v (fun t => t = { s with tim := { s.tim with
        ppsEn := v.getLsbD 0, ptmEn := v.getLsbD 1, ptmMs := v.toNat / 2 ^ 8 % 2 ^ 8 } })) ∧
      (∀ v, s.sec.level ≠ .opened → writes 0x40008 8 v (fun t => t = s)) ∧
      (∀ off v, s.part.fan = false → off % 8 = 0 → 0x50000 ≤ off → off < 0x60000 → writes off 8 v (fun t => t = s)) ∧
      (∀ v : Word, v.getLsbD 19 = true → writes 0x40 8 v (fun t => t.pins.srcIdChanged = false ∧
        (v.getLsbD 18 = false → t.pins.srcCritEvent = s.pins.srcCritEvent))) ∧
      (∀ n, Goes (.misalignedAccess p false n) s (fun t => t = s) ∧ Goes (.misalignedAccess p true n) s (fun t =>
        (t.port p).aerLogged = (s.port p).aerLogged + 1 ∧ Output.unsupported p ∈ t.hif.out ∧ t.pwr = s.pwr))) ∧
    (s.awake = true →
      (∀ z, Goes (.zoneQuery z) s (fun t => t = { s with zns := { s.zns with zoneStat := t.zns.zoneStat } } ∧
        (s.zoneExists (z % 2 ^ 24) = true → t.zns.zoneStat.toNat % 16 = (s.zone (z % 2 ^ 24)).state.code % 16) ∧
        (s.zoneExists (z % 2 ^ 24) = false → t.zns.zoneStat.toNat % 16 = 0))) ∧
      (∀ x r, s.mem.frozen = x :: r → Goes .dmaChannelRelease s (fun t => t = { s with mem := { s.mem with frozen := r } })) ∧
      (∀ off,
        (s.sec.level ≠ .opened → Goes (.peek off) s (fun t => t = s)) ∧
        (s.sec.level = .opened → off % 8 ≠ 0 ∨ 0x4000000 ≤ off → Goes (.peek off) s (fun t =>
          t = { s with hif := { s.hif with out := .uartQuestion :: s.hif.out } })) ∧
        (s.sec.level = .opened → off % 8 = 0 → off < 0x4000000 → Goes (.peek off) s (fun t =>
          t = { s with free := t.free, hif := { s.hif with out := .uartPeek (BitVec.ofNat 64 (s.regRead off)) :: s.hif.out } })))) ∧
    (s.pwr.pstate = .run → 2 ≤ s.boot.step → ∀ row ∈ [(Instr.bypass, JtagIr.bypass), (.idcode, .idcode), (.samplePreload, .sample),
        (.extest, .extest), (.clamp, .clamp), (.highz, .highz)], Goes row.1 s (fun t => t = { s with svc := { s.svc with ir := row.2 } })) ∧
    (s.pwr.pstate = .run →
      let replies := fun (i : Instr) (st : Nat) (bytes : List Byte) => Goes i s (fun t =>
        t = { s with hif := { s.hif with out := .mi st bytes :: s.hif.out } })
      (∀ a, a < 128 → Goes (.i3cBroadcast (some a)) s (fun t => t = { s with svc := { s.svc with i3c := true, i3cAddr := some a } })) ∧
      Goes (.i3cBroadcast none) s (fun t => t = { s with svc := { s.svc with i3c := true } }) ∧
      (s.svc.i3c = false → replies .basicManagementCommand 0 s.basicBlock) ∧
      replies .subsystemHealthStatusPoll 0 s.healthBlock ∧
      (∀ off len, off + len ≤ 256 → replies (.vpdRead off len) 0 ((s.vpd.drop off).take len)) ∧
      (∀ off len, 256 < off + len → replies (.vpdRead off len) State.miBadParameter []) ∧
      (∀ cns csi cntid nsid off len,
        (∀ bytes, s.identifyData (State.tunnelled nsid) cns csi cntid = .ok bytes →
          replies (.tunnelledIdentify cns csi cntid nsid off len) 0 ((bytes.drop off).take (min len 4096))) ∧
        (∀ st, s.identifyData (State.tunnelled nsid) cns csi cntid = .error st →
          replies (.tunnelledIdentify cns csi cntid nsid off len) st.code [])) ∧
      (∀ lid nsid off len,
        (∀ bytes u, s.logData (State.tunnelled nsid) lid = .ok (bytes, u) → Goes (.tunnelledGetLogPage lid nsid off len) s (fun t =>
          t = { u with hif := { u.hif with out := .mi 0 ((bytes.drop off).take (min len 4096)) :: u.hif.out } })) ∧
        (∀ st, s.logData (State.tunnelled nsid) lid = .error st → replies (.tunnelledGetLogPage lid nsid off len) st.code [])) ∧
      (∀ op, replies (.miInvalidCommand op) State.miBadOpcode [])) ∧
    (∀ x, x ≠ .off → s.pwr.pstate = .asleep x →
      (s.svc.i3c = false → Goes .basicManagementCommand s (fun t => t = s)) ∧
      (s.pwr.wakeEn.getLsbD 8 = true → ∀ off len op,
        let waits := fun (i : Instr) (r : MiReq) => Goes i s (fun t => t.svc.requests = s.svc.requests ++ [r] ∧
          t.pwr.pstate = .waking x 1 ∧ t.pwr.wakeSource = 8 ∧ t.hif = s.hif)
        waits .subsystemHealthStatusPoll .poll ∧ waits (.vpdRead off len) (.vpd off len) ∧ waits (.miInvalidCommand op) (.other op) ∧
        (∀ cns csi cntid nsid, waits (.tunnelledIdentify cns csi cntid nsid off len) (.identify cns csi cntid nsid off len)) ∧
        (∀ lid nsid, waits (.tunnelledGetLogPage lid nsid off len) (.log lid nsid off len))))

/-! ## The whole machine -/

/-- The values that the Reset columns of the register tables give, read at their BAR 2 offsets with the default straps and
inputs (which part is modelled, its straps and options are the model's choice, log 1); no command waits, nothing has been
answered, and the module is dark before step 1 of R197. -/
def Obligations.ResetLeavesTheRegistersTheirResetValues : Prop :=
  (∀ r ∈ [(0x00020, 0x3FF00), (0x00030, 0), (0x00038, 0), (0x00040, 0x7F00F00040), (0x20008, 8), (0x20010, 0x400186A0),
      (0x20018, 0x1EE), (0x20020, 0xFFFFFFFFFFFFFFFF), (0x20028, 0), (0x20030, 0), (0x20038, 0x320000), (0x20100, 0),
      (0x30000, 0), (0x30008, 0xA01), (0x30010, 0x10), (0x30018, 0), (0x30020, 0), (0x40000, 0x80000000000),
      (0x40010, 0x105DC), (0x40018, 0), (0x60018, 2), (0x60080, 0), (0x70000, 0), (0x70008, 0xFFFFFFFF), (0x70010, 0x3C18),
      (0x80000, 0), (0x80008, 0x2615A4B), (0x80018, 0), (0x80020, 0x800032), (0x80038, 0xFF0000004),
      (0x80048, 0x2710), (0xA0100, 0), (0xA0108, 0), (0xC0000, 0), (0xC0020, 0), (0xC0028, 0), (0xC0108, 8),
      (0x190000, 0xF000), (0x190008, 0), (0x190010, 0x210), (0x200000, 0x800000000000), (0x400000, 0x200600000000000),
      (0x400100, 0x28024B00), (0x400200, 0x3C), (0x500000, 0), (0x600000, 0x8FF), (0x800100, 0x7D00960280C),
      (0x800200, 0x64000646048), (0x800208, 0xC80190), (0x800300, 0), (0x1000000, 0), (0x1000010, 0x40100)],
    State.reset.regRead r.1 = r.2) ∧
  State.reset.pending = [] ∧ State.reset.hif.out = [] ∧ State.reset.hif.raised = [] ∧ State.reset.pwr.pstate = .dark ∧
  State.reset.boot.step = 0 ∧ Sealed State.reset

/-- Every step takes the command at the front of the queue and leaves the others waiting in their order; the fuses of the part
never change, but that the seal fuse may blow, and a blown one stays blown (R4 to R6, R546). -/
def Obligations.StepTakesOneCommandAndKeepsTheFuses : Prop :=
  ∀ s t : State, step s = .next t → t.pending = s.pending.tail ∧
    t.part = { s.part with sealFuse := t.part.sealFuse } ∧ (s.part.sealFuse = true → t.part.sealFuse = true)

/-- R544, R546, R547: Sealed is never left: where the fuse is blown, every step leaves the level Sealed with no lowering under
way. -/
def Obligations.SealedModuleStaysSealed : Prop :=
  ∀ s t : State, Sealed s → step s = .next t → Sealed t
end

