-- ==== Sys2Proof/Laws/Table.lean ====
section
/-! SUPPORT. The laws of the sparse tables: what a table reads after an entry, a run of bytes or a range was written, and that every
operation keeps the canonical form, which the tables of State.reset have. -/

namespace Sys2Proof.Machine

variable {V : Type} [DecidableEq V]

/-- A table reads its default below its first index. -/
theorem look_below (d : V) : ∀ (lo : Nat) (m : SMap V) (k : Nat), canonFrom d lo m = true → k < lo → look d m k = d
  | _, [], _, _, _ => rfl
  | lo, (j, v) :: r, k, h, hk => by
    simp only [canonFrom, Bool.and_eq_true, decide_eq_true_eq] at h
    simp only [look]
    rw [if_neg (by omega)]
    exact look_below d (j + 1) r k h.2 (by omega)

/-- A table that starts later starts earlier too. -/
theorem canonFrom_mono (d : V) {a b : Nat} (h : a ≤ b) : ∀ m : SMap V, canonFrom d b m = true → canonFrom d a m = true
  | [], _ => rfl
  | (j, v) :: r, hm => by
    simp only [canonFrom, Bool.and_eq_true, decide_eq_true_eq] at hm ⊢
    exact ⟨⟨by omega, hm.1.2⟩, hm.2⟩

/-- Writing an entry keeps the canonical form. -/
theorem canonFrom_put (d : V) (k : Nat) (v : V) : ∀ (lo : Nat) (m : SMap V), lo ≤ k → canonFrom d lo m = true →
    canonFrom d lo (put d m k v) = true
  | lo, [], hk, _ => by simp only [put]; split <;> simp [canonFrom, *]
  | lo, (j, w) :: r, hk, h => by
    have hm := h
    simp only [canonFrom, Bool.and_eq_true, decide_eq_true_eq] at h
    obtain ⟨⟨h1, h2⟩, h3⟩ := h
    simp only [put]
    split
    · split
      · exact hm
      · simp only [canonFrom, Bool.and_eq_true, decide_eq_true_eq]
        exact ⟨⟨hk, by assumption⟩, ⟨by omega, h2⟩, h3⟩
    · split
      · next he =>
        split
        · exact canonFrom_mono d (by omega) r h3
        · simp only [canonFrom, Bool.and_eq_true, decide_eq_true_eq]
          exact ⟨⟨hk, by assumption⟩, he ▸ h3⟩
      · simp only [canonFrom, Bool.and_eq_true, decide_eq_true_eq]
        exact ⟨⟨h1, h2⟩, canonFrom_put d k v (j + 1) r (by omega) h3⟩

@[simp] theorem canon_nil (d : V) : canon d ([] : SMap V) = true := rfl

theorem canon_put (d : V) (m : SMap V) (k : Nat) (v : V) (h : canon d m = true) : canon d (put d m k v) = true :=
  canonFrom_put d k v 0 m (Nat.zero_le _) h

theorem canon_upd (d : V) (m : SMap V) (k : Nat) (f : V → V) (h : canon d m = true) : canon d (upd d m k f) = true :=
  canon_put d m k _ h

/-- What a table reads where an entry that is not the default was written. -/
theorem look_put_of_ne (d : V) (m : SMap V) (k : Nat) (v : V) (h : v ≠ d) : look d (put d m k v) k = v := by
  induction m with
  | nil => simp [put, look, h]
  | cons e r ih =>
    obtain ⟨j, w⟩ := e
    simp only [put, h, if_false]
    split
    · simp [look]
    · split
      · simp [look]
      · next h1 h2 => simp [look, ih, Ne.symm h2]

/-- A write to an index leaves every other one alone. -/
theorem look_put_other (d : V) (m : SMap V) (k j : Nat) (v : V) (h : j ≠ k) : look d (put d m k v) j = look d m j := by
  induction m with
  | nil => simp only [put]; split <;> simp [look, Ne.symm h]
  | cons e r ih =>
    obtain ⟨i, w⟩ := e
    simp only [put]
    split
    · split <;> simp [look, Ne.symm h]
    · split
      · next h1 h2 => subst h2; split <;> simp [look, Ne.symm h]
      · simp [look, ih]

theorem look_put_from (d : V) (k : Nat) (v : V) : ∀ (lo : Nat) (m : SMap V), canonFrom d lo m = true → look d (put d m k v) k = v
  | lo, m, h => by
    by_cases hv : v = d
    · subst hv
      induction m generalizing lo with
      | nil => simp [put, look]
      | cons e r ih =>
        obtain ⟨j, w⟩ := e
        have hm := h
        simp only [canonFrom, Bool.and_eq_true, decide_eq_true_eq] at h
        simp only [put, if_true]
        split
        · simp only [look]; rw [if_neg (by omega)]; exact look_below _ _ _ _ h.2 (by omega)
        · split
          · next h1 h2 => subst h2; exact look_below _ _ _ _ h.2 (by omega)
          · next h1 h2 => simp only [look]; rw [if_neg (by omega)]; exact ih _ h.2
    · exact look_put_of_ne d m k v hv

/-- A canonical table reads what was written. -/
theorem look_put (d : V) (m : SMap V) (k : Nat) (v : V) (h : canon d m = true) : look d (put d m k v) k = v :=
  look_put_from d k v 0 m h

/-- What a table reads after a write, in a canonical table. -/
theorem look_put_if (d : V) (m : SMap V) (k j : Nat) (v : V) (h : canon d m = true) :
    look d (put d m k v) j = if j = k then v else look d m j := by
  split
  · next e => subst e; exact look_put d m j v h
  · next e => exact look_put_other d m k j v e

/-- Dropping entries keeps the canonical form. -/
theorem canonFrom_filter (d : V) (p : Nat × V → Bool) : ∀ (lo : Nat) (m : SMap V), canonFrom d lo m = true →
    canonFrom d lo (m.filter p) = true
  | _, [], _ => rfl
  | lo, (j, v) :: r, h => by
    simp only [canonFrom, Bool.and_eq_true, decide_eq_true_eq] at h
    simp only [List.filter_cons]
    split
    · simp only [canonFrom, Bool.and_eq_true, decide_eq_true_eq]
      exact ⟨h.1, canonFrom_filter d p _ r h.2⟩
    · exact canonFrom_mono d (by omega) _ (canonFrom_filter d p _ r h.2)

theorem canon_clearRange (d : V) (m : SMap V) (a n : Nat) (h : canon d m = true) : canon d (clearRange m a n) = true :=
  canonFrom_filter d _ 0 m h

theorem canon_clearBytes (m : SMap Byte) (a n : Nat) (h : canon 0 m = true) : canon 0 (clearBytes m a n) = true :=
  canonFrom_filter 0 _ 0 m h

theorem canon_writeBytes (bs : List Byte) : ∀ (m : SMap Byte) (a : Nat), canon 0 m = true → canon 0 (writeBytes m a bs) = true := by
  induction bs with
  | nil => intro m a h; exact h
  | cons b bs ih => intro m a h; exact ih _ _ (canon_put 0 m a b h)

/-- A write of bytes leaves every byte outside of them alone. -/
theorem look_writeBytes_other (bs : List Byte) : ∀ (m : SMap Byte) (a j : Nat), j < a ∨ a + bs.length ≤ j →
    look 0 (writeBytes m a bs) j = look 0 m j := by
  induction bs with
  | nil => intro m a j _; rfl
  | cons b bs ih =>
    intro m a j h
    simp only [List.length_cons] at h
    simp only [writeBytes]
    rw [ih _ _ _ (by omega), look_put_other _ _ _ _ _ (by omega)]

/-- A write of bytes reads back byte by byte. -/
theorem look_writeBytes (bs : List Byte) : ∀ (m : SMap Byte) (a i : Nat) (b : Byte), canon 0 m = true → bs[i]? = some b →
    look 0 (writeBytes m a bs) (a + i) = b := by
  induction bs with
  | nil => intro m a i b _ h; simp at h
  | cons c bs ih =>
    intro m a i b hm h
    simp only [writeBytes]
    cases i with
    | zero =>
      simp only [List.getElem?_cons_zero, Option.some.injEq] at h
      subst h
      rw [look_writeBytes_other _ _ _ _ (by omega), Nat.add_zero, look_put _ _ _ _ hm]
    | succ i =>
      rw [show a + (i + 1) = a + 1 + i by omega]
      exact ih _ _ _ _ (canon_put 0 m a c hm) (by simpa using h)

@[simp] theorem length_readBytes (m : SMap Byte) (n : Nat) : ∀ a, (readBytes m a n).length = n := by
  induction n with
  | zero => intro a; rfl
  | succ n ih => intro a; simp [readBytes, ih]

/-- A write then a read of the same bytes gives them back. -/
theorem readBytes_writeBytes (bs : List Byte) (m : SMap Byte) (a : Nat) (h : canon 0 m = true) :
    readBytes (writeBytes m a bs) a bs.length = bs := by
  have key : ∀ (n : Nat) (t : SMap Byte) (x : Nat) (l : List Byte), l.length = n →
      (∀ i b, l[i]? = some b → look 0 t (x + i) = b) → readBytes t x n = l := by
    intro n
    induction n with
    | zero => intro t x l hl _; exact (List.length_eq_zero_iff.1 hl).symm
    | succ n ih =>
      intro t x l hl hi
      cases l with
      | nil => cases hl
      | cons c l =>
        simp only [readBytes]
        rw [show look 0 t x = c from by simpa using hi 0 c rfl,
          ih t (x + 1) l (by simpa using hl) (fun i b hb => by
            rw [show x + 1 + i = x + (i + 1) by omega]; exact hi (i + 1) b (by simpa using hb))]
  exact key bs.length _ a bs rfl (fun i b hb => look_writeBytes bs m a i b h hb)

/-- Reading a table entry by entry through a map of its entries. -/
theorem look_map {V W : Type} (d : V) (e : W) (f : V → W) (h : f d = e) (m : SMap V) (k : Nat) :
    look e (m.map (fun p => (p.1, f p.2))) k = f (look d m k) := by
  induction m with
  | nil => simp [look, h]
  | cons a r ih => obtain ⟨j, v⟩ := a; simp only [List.map, look]; split <;> simp [ih]

/-- Every table of the reset state is canonical. -/
theorem reset_tables_canonical :
    canon Zone.none State.reset.zns.zones = true ∧ canon Row.none State.reset.zns.rows = true ∧
    canon Option.none State.reset.zns.pgroups = true ∧ canon Option.none State.reset.zns.spaces = true ∧
    canon Carriage.none State.reset.car.table = true ∧ canon Die.idle State.reset.fls.dies = true ∧
    canon Option.none State.reset.bpm.bufs = true ∧ canon Option.none State.reset.bpm.owners = true ∧
    canon Option.none State.reset.kry.ctxs = true ∧ canon Option.none State.reset.kry.insts = true ∧
    canon CodecCtx.none State.reset.fcd.ctxs = true ∧ canon 0 State.reset.sec.keys = true := by decide +kernel

end Sys2Proof.Machine
end

