-- ==== Sys2Proof/Laws/State.lean ====
section
/-! SUPPORT. One lemma per field per named update of State, each true by rfl, so that no proof unfolds a record update; and what the
accessors of the numbered tables read after their own update. -/

namespace Sys2Proof.Machine.State

/-! ### setZone -/

@[simp] theorem setZone_part (s : State) (z : Nat) (v : Zone) : (s.setZone z v).part = s.part := rfl
@[simp] theorem setZone_boot (s : State) (z : Nat) (v : Zone) : (s.setZone z v).boot = s.boot := rfl
@[simp] theorem setZone_pins (s : State) (z : Nat) (v : Zone) : (s.setZone z v).pins = s.pins := rfl
@[simp] theorem setZone_pwr (s : State) (z : Nat) (v : Zone) : (s.setZone z v).pwr = s.pwr := rfl
@[simp] theorem setZone_plog (s : State) (z : Nat) (v : Zone) : (s.setZone z v).plog = s.plog := rfl
@[simp] theorem setZone_tim (s : State) (z : Nat) (v : Zone) : (s.setZone z v).tim = s.tim := rfl
@[simp] theorem setZone_thm (s : State) (z : Nat) (v : Zone) : (s.setZone z v).thm = s.thm := rfl
@[simp] theorem setZone_fan (s : State) (z : Nat) (v : Zone) : (s.setZone z v).fan = s.fan := rfl
@[simp] theorem setZone_lvl (s : State) (z : Nat) (v : Zone) : (s.setZone z v).lvl = s.lvl := rfl
@[simp] theorem setZone_car (s : State) (z : Nat) (v : Zone) : (s.setZone z v).car = s.car := rfl
@[simp] theorem setZone_fls (s : State) (z : Nat) (v : Zone) : (s.setZone z v).fls = s.fls := rfl
@[simp] theorem setZone_mnt (s : State) (z : Nat) (v : Zone) : (s.setZone z v).mnt = s.mnt := rfl
@[simp] theorem setZone_jrn (s : State) (z : Nat) (v : Zone) : (s.setZone z v).jrn = s.jrn := rfl
@[simp] theorem setZone_nv (s : State) (z : Nat) (v : Zone) : (s.setZone z v).nv = s.nv := rfl
@[simp] theorem setZone_nvNext (s : State) (z : Nat) (v : Zone) : (s.setZone z v).nvNext = s.nvNext := rfl
@[simp] theorem setZone_bpm (s : State) (z : Nat) (v : Zone) : (s.setZone z v).bpm = s.bpm := rfl
@[simp] theorem setZone_mem (s : State) (z : Nat) (v : Zone) : (s.setZone z v).mem = s.mem := rfl
@[simp] theorem setZone_cmp (s : State) (z : Nat) (v : Zone) : (s.setZone z v).cmp = s.cmp := rfl
@[simp] theorem setZone_fcd (s : State) (z : Nat) (v : Zone) : (s.setZone z v).fcd = s.fcd := rfl
@[simp] theorem setZone_kry (s : State) (z : Nat) (v : Zone) : (s.setZone z v).kry = s.kry := rfl
@[simp] theorem setZone_hif (s : State) (z : Nat) (v : Zone) : (s.setZone z v).hif = s.hif := rfl
@[simp] theorem setZone_cpl (s : State) (z : Nat) (v : Zone) : (s.setZone z v).cpl = s.cpl := rfl
@[simp] theorem setZone_sec (s : State) (z : Nat) (v : Zone) : (s.setZone z v).sec = s.sec := rfl
@[simp] theorem setZone_svc (s : State) (z : Nat) (v : Zone) : (s.setZone z v).svc = s.svc := rfl
@[simp] theorem setZone_free (s : State) (z : Nat) (v : Zone) : (s.setZone z v).free = s.free := rfl
@[simp] theorem setZone_pending (s : State) (z : Nat) (v : Zone) : (s.setZone z v).pending = s.pending := rfl
@[simp] theorem setZone_zns_pgroups (s : State) (z : Nat) (v : Zone) : (s.setZone z v).zns.pgroups = s.zns.pgroups := rfl
@[simp] theorem setZone_zns_spaces (s : State) (z : Nat) (v : Zone) : (s.setZone z v).zns.spaces = s.zns.spaces := rfl
@[simp] theorem setZone_zns_sgSel (s : State) (z : Nat) (v : Zone) : (s.setZone z v).zns.sgSel = s.zns.sgSel := rfl
@[simp] theorem setZone_zns_pgSel (s : State) (z : Nat) (v : Zone) : (s.setZone z v).zns.pgSel = s.zns.pgSel := rfl
@[simp] theorem setZone_zns_zoneStat (s : State) (z : Nat) (v : Zone) : (s.setZone z v).zns.zoneStat = s.zns.zoneStat := rfl
@[simp] theorem setZone_zns_data (s : State) (z : Nat) (v : Zone) : (s.setZone z v).zns.data = s.zns.data := rfl
@[simp] theorem setZone_zns_tags (s : State) (z : Nat) (v : Zone) : (s.setZone z v).zns.tags = s.zns.tags := rfl
@[simp] theorem setZone_zns_rows (s : State) (z : Nat) (v : Zone) : (s.setZone z v).zns.rows = s.zns.rows := rfl
@[simp] theorem setZone_zns_carved (s : State) (z : Nat) (v : Zone) : (s.setZone z v).zns.carved = s.zns.carved := rfl
@[simp] theorem setZone_zns_convMap (s : State) (z : Nat) (v : Zone) : (s.setZone z v).zns.convMap = s.zns.convMap := rfl
@[simp] theorem setZone_zns_convData (s : State) (z : Nat) (v : Zone) : (s.setZone z v).zns.convData = s.zns.convData := rfl
@[simp] theorem setZone_zns_convTags (s : State) (z : Nat) (v : Zone) : (s.setZone z v).zns.convTags = s.zns.convTags := rfl
@[simp] theorem setZone_zns_convShare (s : State) (z : Nat) (v : Zone) : (s.setZone z v).zns.convShare = s.zns.convShare := rfl
@[simp] theorem setZone_zns_convNext (s : State) (z : Nat) (v : Zone) : (s.setZone z v).zns.convNext = s.zns.convNext := rfl
@[simp] theorem setZone_zns_convPend (s : State) (z : Nat) (v : Zone) : (s.setZone z v).zns.convPend = s.zns.convPend := rfl
@[simp] theorem setZone_zns_convRegionNext (s : State) (z : Nat) (v : Zone) : (s.setZone z v).zns.convRegionNext = s.zns.convRegionNext := rfl
@[simp] theorem setZone_zns_reclaimPct (s : State) (z : Nat) (v : Zone) : (s.setZone z v).zns.reclaimPct = s.zns.reclaimPct := rfl
@[simp] theorem setZone_zns_convSlots (s : State) (z : Nat) (v : Zone) : (s.setZone z v).zns.convSlots = s.zns.convSlots := rfl
@[simp] theorem setZone_zns_convRows (s : State) (z : Nat) (v : Zone) : (s.setZone z v).zns.convRows = s.zns.convRows := rfl
@[simp] theorem setZone_zns_convFills (s : State) (z : Nat) (v : Zone) : (s.setZone z v).zns.convFills = s.zns.convFills := rfl
@[simp] theorem setZone_zns_unreadable (s : State) (z : Nat) (v : Zone) : (s.setZone z v).zns.unreadable = s.zns.unreadable := rfl
@[simp] theorem setZone_zns_online (s : State) (z : Nat) (v : Zone) : (s.setZone z v).zns.online = s.zns.online := rfl
@[simp] theorem setZone_zns_seq (s : State) (z : Nat) (v : Zone) : (s.setZone z v).zns.seq = s.zns.seq := rfl

/-! ### setPgroup -/

@[simp] theorem setPgroup_part (s : State) (p : Nat) (v : Option PGroup) : (s.setPgroup p v).part = s.part := rfl
@[simp] theorem setPgroup_boot (s : State) (p : Nat) (v : Option PGroup) : (s.setPgroup p v).boot = s.boot := rfl
@[simp] theorem setPgroup_pins (s : State) (p : Nat) (v : Option PGroup) : (s.setPgroup p v).pins = s.pins := rfl
@[simp] theorem setPgroup_pwr (s : State) (p : Nat) (v : Option PGroup) : (s.setPgroup p v).pwr = s.pwr := rfl
@[simp] theorem setPgroup_plog (s : State) (p : Nat) (v : Option PGroup) : (s.setPgroup p v).plog = s.plog := rfl
@[simp] theorem setPgroup_tim (s : State) (p : Nat) (v : Option PGroup) : (s.setPgroup p v).tim = s.tim := rfl
@[simp] theorem setPgroup_thm (s : State) (p : Nat) (v : Option PGroup) : (s.setPgroup p v).thm = s.thm := rfl
@[simp] theorem setPgroup_fan (s : State) (p : Nat) (v : Option PGroup) : (s.setPgroup p v).fan = s.fan := rfl
@[simp] theorem setPgroup_lvl (s : State) (p : Nat) (v : Option PGroup) : (s.setPgroup p v).lvl = s.lvl := rfl
@[simp] theorem setPgroup_car (s : State) (p : Nat) (v : Option PGroup) : (s.setPgroup p v).car = s.car := rfl
@[simp] theorem setPgroup_fls (s : State) (p : Nat) (v : Option PGroup) : (s.setPgroup p v).fls = s.fls := rfl
@[simp] theorem setPgroup_mnt (s : State) (p : Nat) (v : Option PGroup) : (s.setPgroup p v).mnt = s.mnt := rfl
@[simp] theorem setPgroup_jrn (s : State) (p : Nat) (v : Option PGroup) : (s.setPgroup p v).jrn = s.jrn := rfl
@[simp] theorem setPgroup_nv (s : State) (p : Nat) (v : Option PGroup) : (s.setPgroup p v).nv = s.nv := rfl
@[simp] theorem setPgroup_nvNext (s : State) (p : Nat) (v : Option PGroup) : (s.setPgroup p v).nvNext = s.nvNext := rfl
@[simp] theorem setPgroup_bpm (s : State) (p : Nat) (v : Option PGroup) : (s.setPgroup p v).bpm = s.bpm := rfl
@[simp] theorem setPgroup_mem (s : State) (p : Nat) (v : Option PGroup) : (s.setPgroup p v).mem = s.mem := rfl
@[simp] theorem setPgroup_cmp (s : State) (p : Nat) (v : Option PGroup) : (s.setPgroup p v).cmp = s.cmp := rfl
@[simp] theorem setPgroup_fcd (s : State) (p : Nat) (v : Option PGroup) : (s.setPgroup p v).fcd = s.fcd := rfl
@[simp] theorem setPgroup_kry (s : State) (p : Nat) (v : Option PGroup) : (s.setPgroup p v).kry = s.kry := rfl
@[simp] theorem setPgroup_hif (s : State) (p : Nat) (v : Option PGroup) : (s.setPgroup p v).hif = s.hif := rfl
@[simp] theorem setPgroup_cpl (s : State) (p : Nat) (v : Option PGroup) : (s.setPgroup p v).cpl = s.cpl := rfl
@[simp] theorem setPgroup_sec (s : State) (p : Nat) (v : Option PGroup) : (s.setPgroup p v).sec = s.sec := rfl
@[simp] theorem setPgroup_svc (s : State) (p : Nat) (v : Option PGroup) : (s.setPgroup p v).svc = s.svc := rfl
@[simp] theorem setPgroup_free (s : State) (p : Nat) (v : Option PGroup) : (s.setPgroup p v).free = s.free := rfl
@[simp] theorem setPgroup_pending (s : State) (p : Nat) (v : Option PGroup) : (s.setPgroup p v).pending = s.pending := rfl
@[simp] theorem setPgroup_zns_zones (s : State) (p : Nat) (v : Option PGroup) : (s.setPgroup p v).zns.zones = s.zns.zones := rfl
@[simp] theorem setPgroup_zns_spaces (s : State) (p : Nat) (v : Option PGroup) : (s.setPgroup p v).zns.spaces = s.zns.spaces := rfl
@[simp] theorem setPgroup_zns_sgSel (s : State) (p : Nat) (v : Option PGroup) : (s.setPgroup p v).zns.sgSel = s.zns.sgSel := rfl
@[simp] theorem setPgroup_zns_pgSel (s : State) (p : Nat) (v : Option PGroup) : (s.setPgroup p v).zns.pgSel = s.zns.pgSel := rfl
@[simp] theorem setPgroup_zns_zoneStat (s : State) (p : Nat) (v : Option PGroup) : (s.setPgroup p v).zns.zoneStat = s.zns.zoneStat := rfl
@[simp] theorem setPgroup_zns_data (s : State) (p : Nat) (v : Option PGroup) : (s.setPgroup p v).zns.data = s.zns.data := rfl
@[simp] theorem setPgroup_zns_tags (s : State) (p : Nat) (v : Option PGroup) : (s.setPgroup p v).zns.tags = s.zns.tags := rfl
@[simp] theorem setPgroup_zns_rows (s : State) (p : Nat) (v : Option PGroup) : (s.setPgroup p v).zns.rows = s.zns.rows := rfl
@[simp] theorem setPgroup_zns_carved (s : State) (p : Nat) (v : Option PGroup) : (s.setPgroup p v).zns.carved = s.zns.carved := rfl
@[simp] theorem setPgroup_zns_convMap (s : State) (p : Nat) (v : Option PGroup) : (s.setPgroup p v).zns.convMap = s.zns.convMap := rfl
@[simp] theorem setPgroup_zns_convData (s : State) (p : Nat) (v : Option PGroup) : (s.setPgroup p v).zns.convData = s.zns.convData := rfl
@[simp] theorem setPgroup_zns_convTags (s : State) (p : Nat) (v : Option PGroup) : (s.setPgroup p v).zns.convTags = s.zns.convTags := rfl
@[simp] theorem setPgroup_zns_convShare (s : State) (p : Nat) (v : Option PGroup) : (s.setPgroup p v).zns.convShare = s.zns.convShare := rfl
@[simp] theorem setPgroup_zns_convNext (s : State) (p : Nat) (v : Option PGroup) : (s.setPgroup p v).zns.convNext = s.zns.convNext := rfl
@[simp] theorem setPgroup_zns_convPend (s : State) (p : Nat) (v : Option PGroup) : (s.setPgroup p v).zns.convPend = s.zns.convPend := rfl
@[simp] theorem setPgroup_zns_convRegionNext (s : State) (p : Nat) (v : Option PGroup) : (s.setPgroup p v).zns.convRegionNext = s.zns.convRegionNext := rfl
@[simp] theorem setPgroup_zns_reclaimPct (s : State) (p : Nat) (v : Option PGroup) : (s.setPgroup p v).zns.reclaimPct = s.zns.reclaimPct := rfl
@[simp] theorem setPgroup_zns_convSlots (s : State) (p : Nat) (v : Option PGroup) : (s.setPgroup p v).zns.convSlots = s.zns.convSlots := rfl
@[simp] theorem setPgroup_zns_convRows (s : State) (p : Nat) (v : Option PGroup) : (s.setPgroup p v).zns.convRows = s.zns.convRows := rfl
@[simp] theorem setPgroup_zns_convFills (s : State) (p : Nat) (v : Option PGroup) : (s.setPgroup p v).zns.convFills = s.zns.convFills := rfl
@[simp] theorem setPgroup_zns_unreadable (s : State) (p : Nat) (v : Option PGroup) : (s.setPgroup p v).zns.unreadable = s.zns.unreadable := rfl
@[simp] theorem setPgroup_zns_online (s : State) (p : Nat) (v : Option PGroup) : (s.setPgroup p v).zns.online = s.zns.online := rfl
@[simp] theorem setPgroup_zns_seq (s : State) (p : Nat) (v : Option PGroup) : (s.setPgroup p v).zns.seq = s.zns.seq := rfl

/-! ### setSpace -/

@[simp] theorem setSpace_part (s : State) (n : Nat) (v : Option NsEntry) : (s.setSpace n v).part = s.part := rfl
@[simp] theorem setSpace_boot (s : State) (n : Nat) (v : Option NsEntry) : (s.setSpace n v).boot = s.boot := rfl
@[simp] theorem setSpace_pins (s : State) (n : Nat) (v : Option NsEntry) : (s.setSpace n v).pins = s.pins := rfl
@[simp] theorem setSpace_pwr (s : State) (n : Nat) (v : Option NsEntry) : (s.setSpace n v).pwr = s.pwr := rfl
@[simp] theorem setSpace_plog (s : State) (n : Nat) (v : Option NsEntry) : (s.setSpace n v).plog = s.plog := rfl
@[simp] theorem setSpace_tim (s : State) (n : Nat) (v : Option NsEntry) : (s.setSpace n v).tim = s.tim := rfl
@[simp] theorem setSpace_thm (s : State) (n : Nat) (v : Option NsEntry) : (s.setSpace n v).thm = s.thm := rfl
@[simp] theorem setSpace_fan (s : State) (n : Nat) (v : Option NsEntry) : (s.setSpace n v).fan = s.fan := rfl
@[simp] theorem setSpace_lvl (s : State) (n : Nat) (v : Option NsEntry) : (s.setSpace n v).lvl = s.lvl := rfl
@[simp] theorem setSpace_car (s : State) (n : Nat) (v : Option NsEntry) : (s.setSpace n v).car = s.car := rfl
@[simp] theorem setSpace_fls (s : State) (n : Nat) (v : Option NsEntry) : (s.setSpace n v).fls = s.fls := rfl
@[simp] theorem setSpace_mnt (s : State) (n : Nat) (v : Option NsEntry) : (s.setSpace n v).mnt = s.mnt := rfl
@[simp] theorem setSpace_jrn (s : State) (n : Nat) (v : Option NsEntry) : (s.setSpace n v).jrn = s.jrn := rfl
@[simp] theorem setSpace_nv (s : State) (n : Nat) (v : Option NsEntry) : (s.setSpace n v).nv = s.nv := rfl
@[simp] theorem setSpace_nvNext (s : State) (n : Nat) (v : Option NsEntry) : (s.setSpace n v).nvNext = s.nvNext := rfl
@[simp] theorem setSpace_bpm (s : State) (n : Nat) (v : Option NsEntry) : (s.setSpace n v).bpm = s.bpm := rfl
@[simp] theorem setSpace_mem (s : State) (n : Nat) (v : Option NsEntry) : (s.setSpace n v).mem = s.mem := rfl
@[simp] theorem setSpace_cmp (s : State) (n : Nat) (v : Option NsEntry) : (s.setSpace n v).cmp = s.cmp := rfl
@[simp] theorem setSpace_fcd (s : State) (n : Nat) (v : Option NsEntry) : (s.setSpace n v).fcd = s.fcd := rfl
@[simp] theorem setSpace_kry (s : State) (n : Nat) (v : Option NsEntry) : (s.setSpace n v).kry = s.kry := rfl
@[simp] theorem setSpace_hif (s : State) (n : Nat) (v : Option NsEntry) : (s.setSpace n v).hif = s.hif := rfl
@[simp] theorem setSpace_cpl (s : State) (n : Nat) (v : Option NsEntry) : (s.setSpace n v).cpl = s.cpl := rfl
@[simp] theorem setSpace_sec (s : State) (n : Nat) (v : Option NsEntry) : (s.setSpace n v).sec = s.sec := rfl
@[simp] theorem setSpace_svc (s : State) (n : Nat) (v : Option NsEntry) : (s.setSpace n v).svc = s.svc := rfl
@[simp] theorem setSpace_free (s : State) (n : Nat) (v : Option NsEntry) : (s.setSpace n v).free = s.free := rfl
@[simp] theorem setSpace_pending (s : State) (n : Nat) (v : Option NsEntry) : (s.setSpace n v).pending = s.pending := rfl
@[simp] theorem setSpace_zns_zones (s : State) (n : Nat) (v : Option NsEntry) : (s.setSpace n v).zns.zones = s.zns.zones := rfl
@[simp] theorem setSpace_zns_pgroups (s : State) (n : Nat) (v : Option NsEntry) : (s.setSpace n v).zns.pgroups = s.zns.pgroups := rfl
@[simp] theorem setSpace_zns_sgSel (s : State) (n : Nat) (v : Option NsEntry) : (s.setSpace n v).zns.sgSel = s.zns.sgSel := rfl
@[simp] theorem setSpace_zns_pgSel (s : State) (n : Nat) (v : Option NsEntry) : (s.setSpace n v).zns.pgSel = s.zns.pgSel := rfl
@[simp] theorem setSpace_zns_zoneStat (s : State) (n : Nat) (v : Option NsEntry) : (s.setSpace n v).zns.zoneStat = s.zns.zoneStat := rfl
@[simp] theorem setSpace_zns_data (s : State) (n : Nat) (v : Option NsEntry) : (s.setSpace n v).zns.data = s.zns.data := rfl
@[simp] theorem setSpace_zns_tags (s : State) (n : Nat) (v : Option NsEntry) : (s.setSpace n v).zns.tags = s.zns.tags := rfl
@[simp] theorem setSpace_zns_rows (s : State) (n : Nat) (v : Option NsEntry) : (s.setSpace n v).zns.rows = s.zns.rows := rfl
@[simp] theorem setSpace_zns_carved (s : State) (n : Nat) (v : Option NsEntry) : (s.setSpace n v).zns.carved = s.zns.carved := rfl
@[simp] theorem setSpace_zns_convMap (s : State) (n : Nat) (v : Option NsEntry) : (s.setSpace n v).zns.convMap = s.zns.convMap := rfl
@[simp] theorem setSpace_zns_convData (s : State) (n : Nat) (v : Option NsEntry) : (s.setSpace n v).zns.convData = s.zns.convData := rfl
@[simp] theorem setSpace_zns_convTags (s : State) (n : Nat) (v : Option NsEntry) : (s.setSpace n v).zns.convTags = s.zns.convTags := rfl
@[simp] theorem setSpace_zns_convShare (s : State) (n : Nat) (v : Option NsEntry) : (s.setSpace n v).zns.convShare = s.zns.convShare := rfl
@[simp] theorem setSpace_zns_convNext (s : State) (n : Nat) (v : Option NsEntry) : (s.setSpace n v).zns.convNext = s.zns.convNext := rfl
@[simp] theorem setSpace_zns_convPend (s : State) (n : Nat) (v : Option NsEntry) : (s.setSpace n v).zns.convPend = s.zns.convPend := rfl
@[simp] theorem setSpace_zns_convRegionNext (s : State) (n : Nat) (v : Option NsEntry) : (s.setSpace n v).zns.convRegionNext = s.zns.convRegionNext := rfl
@[simp] theorem setSpace_zns_reclaimPct (s : State) (n : Nat) (v : Option NsEntry) : (s.setSpace n v).zns.reclaimPct = s.zns.reclaimPct := rfl
@[simp] theorem setSpace_zns_convSlots (s : State) (n : Nat) (v : Option NsEntry) : (s.setSpace n v).zns.convSlots = s.zns.convSlots := rfl
@[simp] theorem setSpace_zns_convRows (s : State) (n : Nat) (v : Option NsEntry) : (s.setSpace n v).zns.convRows = s.zns.convRows := rfl
@[simp] theorem setSpace_zns_convFills (s : State) (n : Nat) (v : Option NsEntry) : (s.setSpace n v).zns.convFills = s.zns.convFills := rfl
@[simp] theorem setSpace_zns_unreadable (s : State) (n : Nat) (v : Option NsEntry) : (s.setSpace n v).zns.unreadable = s.zns.unreadable := rfl
@[simp] theorem setSpace_zns_online (s : State) (n : Nat) (v : Option NsEntry) : (s.setSpace n v).zns.online = s.zns.online := rfl
@[simp] theorem setSpace_zns_seq (s : State) (n : Nat) (v : Option NsEntry) : (s.setSpace n v).zns.seq = s.zns.seq := rfl

/-! ### setRow -/

@[simp] theorem setRow_part (s : State) (z r : Nat) (v : Row) : (s.setRow z r v).part = s.part := rfl
@[simp] theorem setRow_boot (s : State) (z r : Nat) (v : Row) : (s.setRow z r v).boot = s.boot := rfl
@[simp] theorem setRow_pins (s : State) (z r : Nat) (v : Row) : (s.setRow z r v).pins = s.pins := rfl
@[simp] theorem setRow_pwr (s : State) (z r : Nat) (v : Row) : (s.setRow z r v).pwr = s.pwr := rfl
@[simp] theorem setRow_plog (s : State) (z r : Nat) (v : Row) : (s.setRow z r v).plog = s.plog := rfl
@[simp] theorem setRow_tim (s : State) (z r : Nat) (v : Row) : (s.setRow z r v).tim = s.tim := rfl
@[simp] theorem setRow_thm (s : State) (z r : Nat) (v : Row) : (s.setRow z r v).thm = s.thm := rfl
@[simp] theorem setRow_fan (s : State) (z r : Nat) (v : Row) : (s.setRow z r v).fan = s.fan := rfl
@[simp] theorem setRow_lvl (s : State) (z r : Nat) (v : Row) : (s.setRow z r v).lvl = s.lvl := rfl
@[simp] theorem setRow_car (s : State) (z r : Nat) (v : Row) : (s.setRow z r v).car = s.car := rfl
@[simp] theorem setRow_fls (s : State) (z r : Nat) (v : Row) : (s.setRow z r v).fls = s.fls := rfl
@[simp] theorem setRow_mnt (s : State) (z r : Nat) (v : Row) : (s.setRow z r v).mnt = s.mnt := rfl
@[simp] theorem setRow_jrn (s : State) (z r : Nat) (v : Row) : (s.setRow z r v).jrn = s.jrn := rfl
@[simp] theorem setRow_nv (s : State) (z r : Nat) (v : Row) : (s.setRow z r v).nv = s.nv := rfl
@[simp] theorem setRow_nvNext (s : State) (z r : Nat) (v : Row) : (s.setRow z r v).nvNext = s.nvNext := rfl
@[simp] theorem setRow_bpm (s : State) (z r : Nat) (v : Row) : (s.setRow z r v).bpm = s.bpm := rfl
@[simp] theorem setRow_mem (s : State) (z r : Nat) (v : Row) : (s.setRow z r v).mem = s.mem := rfl
@[simp] theorem setRow_cmp (s : State) (z r : Nat) (v : Row) : (s.setRow z r v).cmp = s.cmp := rfl
@[simp] theorem setRow_fcd (s : State) (z r : Nat) (v : Row) : (s.setRow z r v).fcd = s.fcd := rfl
@[simp] theorem setRow_kry (s : State) (z r : Nat) (v : Row) : (s.setRow z r v).kry = s.kry := rfl
@[simp] theorem setRow_hif (s : State) (z r : Nat) (v : Row) : (s.setRow z r v).hif = s.hif := rfl
@[simp] theorem setRow_cpl (s : State) (z r : Nat) (v : Row) : (s.setRow z r v).cpl = s.cpl := rfl
@[simp] theorem setRow_sec (s : State) (z r : Nat) (v : Row) : (s.setRow z r v).sec = s.sec := rfl
@[simp] theorem setRow_svc (s : State) (z r : Nat) (v : Row) : (s.setRow z r v).svc = s.svc := rfl
@[simp] theorem setRow_free (s : State) (z r : Nat) (v : Row) : (s.setRow z r v).free = s.free := rfl
@[simp] theorem setRow_pending (s : State) (z r : Nat) (v : Row) : (s.setRow z r v).pending = s.pending := rfl
@[simp] theorem setRow_zns_zones (s : State) (z r : Nat) (v : Row) : (s.setRow z r v).zns.zones = s.zns.zones := rfl
@[simp] theorem setRow_zns_pgroups (s : State) (z r : Nat) (v : Row) : (s.setRow z r v).zns.pgroups = s.zns.pgroups := rfl
@[simp] theorem setRow_zns_spaces (s : State) (z r : Nat) (v : Row) : (s.setRow z r v).zns.spaces = s.zns.spaces := rfl
@[simp] theorem setRow_zns_sgSel (s : State) (z r : Nat) (v : Row) : (s.setRow z r v).zns.sgSel = s.zns.sgSel := rfl
@[simp] theorem setRow_zns_pgSel (s : State) (z r : Nat) (v : Row) : (s.setRow z r v).zns.pgSel = s.zns.pgSel := rfl
@[simp] theorem setRow_zns_zoneStat (s : State) (z r : Nat) (v : Row) : (s.setRow z r v).zns.zoneStat = s.zns.zoneStat := rfl
@[simp] theorem setRow_zns_data (s : State) (z r : Nat) (v : Row) : (s.setRow z r v).zns.data = s.zns.data := rfl
@[simp] theorem setRow_zns_tags (s : State) (z r : Nat) (v : Row) : (s.setRow z r v).zns.tags = s.zns.tags := rfl
@[simp] theorem setRow_zns_carved (s : State) (z r : Nat) (v : Row) : (s.setRow z r v).zns.carved = s.zns.carved := rfl
@[simp] theorem setRow_zns_convMap (s : State) (z r : Nat) (v : Row) : (s.setRow z r v).zns.convMap = s.zns.convMap := rfl
@[simp] theorem setRow_zns_convData (s : State) (z r : Nat) (v : Row) : (s.setRow z r v).zns.convData = s.zns.convData := rfl
@[simp] theorem setRow_zns_convTags (s : State) (z r : Nat) (v : Row) : (s.setRow z r v).zns.convTags = s.zns.convTags := rfl
@[simp] theorem setRow_zns_convShare (s : State) (z r : Nat) (v : Row) : (s.setRow z r v).zns.convShare = s.zns.convShare := rfl
@[simp] theorem setRow_zns_convNext (s : State) (z r : Nat) (v : Row) : (s.setRow z r v).zns.convNext = s.zns.convNext := rfl
@[simp] theorem setRow_zns_convPend (s : State) (z r : Nat) (v : Row) : (s.setRow z r v).zns.convPend = s.zns.convPend := rfl
@[simp] theorem setRow_zns_convRegionNext (s : State) (z r : Nat) (v : Row) : (s.setRow z r v).zns.convRegionNext = s.zns.convRegionNext := rfl
@[simp] theorem setRow_zns_reclaimPct (s : State) (z r : Nat) (v : Row) : (s.setRow z r v).zns.reclaimPct = s.zns.reclaimPct := rfl
@[simp] theorem setRow_zns_convSlots (s : State) (z r : Nat) (v : Row) : (s.setRow z r v).zns.convSlots = s.zns.convSlots := rfl
@[simp] theorem setRow_zns_convRows (s : State) (z r : Nat) (v : Row) : (s.setRow z r v).zns.convRows = s.zns.convRows := rfl
@[simp] theorem setRow_zns_convFills (s : State) (z r : Nat) (v : Row) : (s.setRow z r v).zns.convFills = s.zns.convFills := rfl
@[simp] theorem setRow_zns_unreadable (s : State) (z r : Nat) (v : Row) : (s.setRow z r v).zns.unreadable = s.zns.unreadable := rfl
@[simp] theorem setRow_zns_online (s : State) (z r : Nat) (v : Row) : (s.setRow z r v).zns.online = s.zns.online := rfl
@[simp] theorem setRow_zns_seq (s : State) (z r : Nat) (v : Row) : (s.setRow z r v).zns.seq = s.zns.seq := rfl

/-! ### setComp -/

@[simp] theorem setComp_part (s : State) (c : Nat) (v : Comp) : (s.setComp c v).part = s.part := rfl
@[simp] theorem setComp_boot (s : State) (c : Nat) (v : Comp) : (s.setComp c v).boot = s.boot := rfl
@[simp] theorem setComp_pins (s : State) (c : Nat) (v : Comp) : (s.setComp c v).pins = s.pins := rfl
@[simp] theorem setComp_pwr (s : State) (c : Nat) (v : Comp) : (s.setComp c v).pwr = s.pwr := rfl
@[simp] theorem setComp_plog (s : State) (c : Nat) (v : Comp) : (s.setComp c v).plog = s.plog := rfl
@[simp] theorem setComp_tim (s : State) (c : Nat) (v : Comp) : (s.setComp c v).tim = s.tim := rfl
@[simp] theorem setComp_thm (s : State) (c : Nat) (v : Comp) : (s.setComp c v).thm = s.thm := rfl
@[simp] theorem setComp_fan (s : State) (c : Nat) (v : Comp) : (s.setComp c v).fan = s.fan := rfl
@[simp] theorem setComp_lvl (s : State) (c : Nat) (v : Comp) : (s.setComp c v).lvl = s.lvl := rfl
@[simp] theorem setComp_zns (s : State) (c : Nat) (v : Comp) : (s.setComp c v).zns = s.zns := rfl
@[simp] theorem setComp_car (s : State) (c : Nat) (v : Comp) : (s.setComp c v).car = s.car := rfl
@[simp] theorem setComp_fls (s : State) (c : Nat) (v : Comp) : (s.setComp c v).fls = s.fls := rfl
@[simp] theorem setComp_mnt (s : State) (c : Nat) (v : Comp) : (s.setComp c v).mnt = s.mnt := rfl
@[simp] theorem setComp_jrn (s : State) (c : Nat) (v : Comp) : (s.setComp c v).jrn = s.jrn := rfl
@[simp] theorem setComp_nv (s : State) (c : Nat) (v : Comp) : (s.setComp c v).nv = s.nv := rfl
@[simp] theorem setComp_nvNext (s : State) (c : Nat) (v : Comp) : (s.setComp c v).nvNext = s.nvNext := rfl
@[simp] theorem setComp_bpm (s : State) (c : Nat) (v : Comp) : (s.setComp c v).bpm = s.bpm := rfl
@[simp] theorem setComp_mem (s : State) (c : Nat) (v : Comp) : (s.setComp c v).mem = s.mem := rfl
@[simp] theorem setComp_fcd (s : State) (c : Nat) (v : Comp) : (s.setComp c v).fcd = s.fcd := rfl
@[simp] theorem setComp_kry (s : State) (c : Nat) (v : Comp) : (s.setComp c v).kry = s.kry := rfl
@[simp] theorem setComp_hif (s : State) (c : Nat) (v : Comp) : (s.setComp c v).hif = s.hif := rfl
@[simp] theorem setComp_cpl (s : State) (c : Nat) (v : Comp) : (s.setComp c v).cpl = s.cpl := rfl
@[simp] theorem setComp_sec (s : State) (c : Nat) (v : Comp) : (s.setComp c v).sec = s.sec := rfl
@[simp] theorem setComp_svc (s : State) (c : Nat) (v : Comp) : (s.setComp c v).svc = s.svc := rfl
@[simp] theorem setComp_free (s : State) (c : Nat) (v : Comp) : (s.setComp c v).free = s.free := rfl
@[simp] theorem setComp_pending (s : State) (c : Nat) (v : Comp) : (s.setComp c v).pending = s.pending := rfl
@[simp] theorem setComp_cmp_pasids (s : State) (c : Nat) (v : Comp) : (s.setComp c v).cmp.pasids = s.cmp.pasids := rfl

/-! ### setCarriage -/

@[simp] theorem setCarriage_part (s : State) (n : Nat) (v : Carriage) : (s.setCarriage n v).part = s.part := rfl
@[simp] theorem setCarriage_boot (s : State) (n : Nat) (v : Carriage) : (s.setCarriage n v).boot = s.boot := rfl
@[simp] theorem setCarriage_pins (s : State) (n : Nat) (v : Carriage) : (s.setCarriage n v).pins = s.pins := rfl
@[simp] theorem setCarriage_pwr (s : State) (n : Nat) (v : Carriage) : (s.setCarriage n v).pwr = s.pwr := rfl
@[simp] theorem setCarriage_plog (s : State) (n : Nat) (v : Carriage) : (s.setCarriage n v).plog = s.plog := rfl
@[simp] theorem setCarriage_tim (s : State) (n : Nat) (v : Carriage) : (s.setCarriage n v).tim = s.tim := rfl
@[simp] theorem setCarriage_thm (s : State) (n : Nat) (v : Carriage) : (s.setCarriage n v).thm = s.thm := rfl
@[simp] theorem setCarriage_fan (s : State) (n : Nat) (v : Carriage) : (s.setCarriage n v).fan = s.fan := rfl
@[simp] theorem setCarriage_lvl (s : State) (n : Nat) (v : Carriage) : (s.setCarriage n v).lvl = s.lvl := rfl
@[simp] theorem setCarriage_zns (s : State) (n : Nat) (v : Carriage) : (s.setCarriage n v).zns = s.zns := rfl
@[simp] theorem setCarriage_fls (s : State) (n : Nat) (v : Carriage) : (s.setCarriage n v).fls = s.fls := rfl
@[simp] theorem setCarriage_mnt (s : State) (n : Nat) (v : Carriage) : (s.setCarriage n v).mnt = s.mnt := rfl
@[simp] theorem setCarriage_jrn (s : State) (n : Nat) (v : Carriage) : (s.setCarriage n v).jrn = s.jrn := rfl
@[simp] theorem setCarriage_nv (s : State) (n : Nat) (v : Carriage) : (s.setCarriage n v).nv = s.nv := rfl
@[simp] theorem setCarriage_nvNext (s : State) (n : Nat) (v : Carriage) : (s.setCarriage n v).nvNext = s.nvNext := rfl
@[simp] theorem setCarriage_bpm (s : State) (n : Nat) (v : Carriage) : (s.setCarriage n v).bpm = s.bpm := rfl
@[simp] theorem setCarriage_mem (s : State) (n : Nat) (v : Carriage) : (s.setCarriage n v).mem = s.mem := rfl
@[simp] theorem setCarriage_cmp (s : State) (n : Nat) (v : Carriage) : (s.setCarriage n v).cmp = s.cmp := rfl
@[simp] theorem setCarriage_fcd (s : State) (n : Nat) (v : Carriage) : (s.setCarriage n v).fcd = s.fcd := rfl
@[simp] theorem setCarriage_kry (s : State) (n : Nat) (v : Carriage) : (s.setCarriage n v).kry = s.kry := rfl
@[simp] theorem setCarriage_hif (s : State) (n : Nat) (v : Carriage) : (s.setCarriage n v).hif = s.hif := rfl
@[simp] theorem setCarriage_cpl (s : State) (n : Nat) (v : Carriage) : (s.setCarriage n v).cpl = s.cpl := rfl
@[simp] theorem setCarriage_sec (s : State) (n : Nat) (v : Carriage) : (s.setCarriage n v).sec = s.sec := rfl
@[simp] theorem setCarriage_svc (s : State) (n : Nat) (v : Carriage) : (s.setCarriage n v).svc = s.svc := rfl
@[simp] theorem setCarriage_free (s : State) (n : Nat) (v : Carriage) : (s.setCarriage n v).free = s.free := rfl
@[simp] theorem setCarriage_pending (s : State) (n : Nat) (v : Carriage) : (s.setCarriage n v).pending = s.pending := rfl
@[simp] theorem setCarriage_car_miss (s : State) (n : Nat) (v : Carriage) : (s.setCarriage n v).car.miss = s.car.miss := rfl
@[simp] theorem setCarriage_car_flights (s : State) (n : Nat) (v : Carriage) : (s.setCarriage n v).car.flights = s.car.flights := rfl
@[simp] theorem setCarriage_car_nextFlight (s : State) (n : Nat) (v : Carriage) : (s.setCarriage n v).car.nextFlight = s.car.nextFlight := rfl
@[simp] theorem setCarriage_car_staged (s : State) (n : Nat) (v : Carriage) : (s.setCarriage n v).car.staged = s.car.staged := rfl
@[simp] theorem setCarriage_car_ra (s : State) (n : Nat) (v : Carriage) : (s.setCarriage n v).car.ra = s.car.ra := rfl
@[simp] theorem setCarriage_car_share (s : State) (n : Nat) (v : Carriage) : (s.setCarriage n v).car.share = s.car.share := rfl
@[simp] theorem setCarriage_car_credit (s : State) (n : Nat) (v : Carriage) : (s.setCarriage n v).car.credit = s.car.credit := rfl
@[simp] theorem setCarriage_car_shareNext (s : State) (n : Nat) (v : Carriage) : (s.setCarriage n v).car.shareNext = s.car.shareNext := rfl

/-! ### setDie -/

@[simp] theorem setDie_part (s : State) (d : Nat) (v : Die) : (s.setDie d v).part = s.part := rfl
@[simp] theorem setDie_boot (s : State) (d : Nat) (v : Die) : (s.setDie d v).boot = s.boot := rfl
@[simp] theorem setDie_pins (s : State) (d : Nat) (v : Die) : (s.setDie d v).pins = s.pins := rfl
@[simp] theorem setDie_pwr (s : State) (d : Nat) (v : Die) : (s.setDie d v).pwr = s.pwr := rfl
@[simp] theorem setDie_plog (s : State) (d : Nat) (v : Die) : (s.setDie d v).plog = s.plog := rfl
@[simp] theorem setDie_tim (s : State) (d : Nat) (v : Die) : (s.setDie d v).tim = s.tim := rfl
@[simp] theorem setDie_thm (s : State) (d : Nat) (v : Die) : (s.setDie d v).thm = s.thm := rfl
@[simp] theorem setDie_fan (s : State) (d : Nat) (v : Die) : (s.setDie d v).fan = s.fan := rfl
@[simp] theorem setDie_lvl (s : State) (d : Nat) (v : Die) : (s.setDie d v).lvl = s.lvl := rfl
@[simp] theorem setDie_zns (s : State) (d : Nat) (v : Die) : (s.setDie d v).zns = s.zns := rfl
@[simp] theorem setDie_car (s : State) (d : Nat) (v : Die) : (s.setDie d v).car = s.car := rfl
@[simp] theorem setDie_mnt (s : State) (d : Nat) (v : Die) : (s.setDie d v).mnt = s.mnt := rfl
@[simp] theorem setDie_jrn (s : State) (d : Nat) (v : Die) : (s.setDie d v).jrn = s.jrn := rfl
@[simp] theorem setDie_nv (s : State) (d : Nat) (v : Die) : (s.setDie d v).nv = s.nv := rfl
@[simp] theorem setDie_nvNext (s : State) (d : Nat) (v : Die) : (s.setDie d v).nvNext = s.nvNext := rfl
@[simp] theorem setDie_bpm (s : State) (d : Nat) (v : Die) : (s.setDie d v).bpm = s.bpm := rfl
@[simp] theorem setDie_mem (s : State) (d : Nat) (v : Die) : (s.setDie d v).mem = s.mem := rfl
@[simp] theorem setDie_cmp (s : State) (d : Nat) (v : Die) : (s.setDie d v).cmp = s.cmp := rfl
@[simp] theorem setDie_fcd (s : State) (d : Nat) (v : Die) : (s.setDie d v).fcd = s.fcd := rfl
@[simp] theorem setDie_kry (s : State) (d : Nat) (v : Die) : (s.setDie d v).kry = s.kry := rfl
@[simp] theorem setDie_hif (s : State) (d : Nat) (v : Die) : (s.setDie d v).hif = s.hif := rfl
@[simp] theorem setDie_cpl (s : State) (d : Nat) (v : Die) : (s.setDie d v).cpl = s.cpl := rfl
@[simp] theorem setDie_sec (s : State) (d : Nat) (v : Die) : (s.setDie d v).sec = s.sec := rfl
@[simp] theorem setDie_svc (s : State) (d : Nat) (v : Die) : (s.setDie d v).svc = s.svc := rfl
@[simp] theorem setDie_free (s : State) (d : Nat) (v : Die) : (s.setDie d v).free = s.free := rfl
@[simp] theorem setDie_pending (s : State) (d : Nat) (v : Die) : (s.setDie d v).pending = s.pending := rfl
@[simp] theorem setDie_fls_blocks (s : State) (d : Nat) (v : Die) : (s.setDie d v).fls.blocks = s.fls.blocks := rfl
@[simp] theorem setDie_fls_channels (s : State) (d : Nat) (v : Die) : (s.setDie d v).fls.channels = s.fls.channels := rfl
@[simp] theorem setDie_fls_clusters (s : State) (d : Nat) (v : Die) : (s.setDie d v).fls.clusters = s.fls.clusters := rfl
@[simp] theorem setDie_fls_fold (s : State) (d : Nat) (v : Die) : (s.setDie d v).fls.fold = s.fls.fold := rfl
@[simp] theorem setDie_fls_foldNext (s : State) (d : Nat) (v : Die) : (s.setDie d v).fls.foldNext = s.fls.foldNext := rfl
@[simp] theorem setDie_fls_landing (s : State) (d : Nat) (v : Die) : (s.setDie d v).fls.landing = s.fls.landing := rfl
@[simp] theorem setDie_fls_landingNext (s : State) (d : Nat) (v : Die) : (s.setDie d v).fls.landingNext = s.fls.landingNext := rfl
@[simp] theorem setDie_fls_relocs (s : State) (d : Nat) (v : Die) : (s.setDie d v).fls.relocs = s.fls.relocs := rfl
@[simp] theorem setDie_fls_relocNext (s : State) (d : Nat) (v : Die) : (s.setDie d v).fls.relocNext = s.fls.relocNext := rfl
@[simp] theorem setDie_fls_refresh (s : State) (d : Nat) (v : Die) : (s.setDie d v).fls.refresh = s.fls.refresh := rfl
@[simp] theorem setDie_fls_rebuild (s : State) (d : Nat) (v : Die) : (s.setDie d v).fls.rebuild = s.fls.rebuild := rfl
@[simp] theorem setDie_fls_compacting (s : State) (d : Nat) (v : Die) : (s.setDie d v).fls.compacting = s.fls.compacting := rfl
@[simp] theorem setDie_fls_stale (s : State) (d : Nat) (v : Die) : (s.setDie d v).fls.stale = s.fls.stale := rfl
@[simp] theorem setDie_fls_pinWarning (s : State) (d : Nat) (v : Die) : (s.setDie d v).fls.pinWarning = s.fls.pinWarning := rfl
@[simp] theorem setDie_fls_fullErases (s : State) (d : Nat) (v : Die) : (s.setDie d v).fls.fullErases = s.fls.fullErases := rfl
@[simp] theorem setDie_fls_refusals (s : State) (d : Nat) (v : Die) : (s.setDie d v).fls.refusals = s.fls.refusals := rfl
@[simp] theorem setDie_fls_cells (s : State) (d : Nat) (v : Die) : (s.setDie d v).fls.cells = s.fls.cells := rfl

/-! ### setBlock -/

@[simp] theorem setBlock_part (s : State) (d b : Nat) (v : Block) : (s.setBlock d b v).part = s.part := rfl
@[simp] theorem setBlock_boot (s : State) (d b : Nat) (v : Block) : (s.setBlock d b v).boot = s.boot := rfl
@[simp] theorem setBlock_pins (s : State) (d b : Nat) (v : Block) : (s.setBlock d b v).pins = s.pins := rfl
@[simp] theorem setBlock_pwr (s : State) (d b : Nat) (v : Block) : (s.setBlock d b v).pwr = s.pwr := rfl
@[simp] theorem setBlock_plog (s : State) (d b : Nat) (v : Block) : (s.setBlock d b v).plog = s.plog := rfl
@[simp] theorem setBlock_tim (s : State) (d b : Nat) (v : Block) : (s.setBlock d b v).tim = s.tim := rfl
@[simp] theorem setBlock_thm (s : State) (d b : Nat) (v : Block) : (s.setBlock d b v).thm = s.thm := rfl
@[simp] theorem setBlock_fan (s : State) (d b : Nat) (v : Block) : (s.setBlock d b v).fan = s.fan := rfl
@[simp] theorem setBlock_lvl (s : State) (d b : Nat) (v : Block) : (s.setBlock d b v).lvl = s.lvl := rfl
@[simp] theorem setBlock_zns (s : State) (d b : Nat) (v : Block) : (s.setBlock d b v).zns = s.zns := rfl
@[simp] theorem setBlock_car (s : State) (d b : Nat) (v : Block) : (s.setBlock d b v).car = s.car := rfl
@[simp] theorem setBlock_mnt (s : State) (d b : Nat) (v : Block) : (s.setBlock d b v).mnt = s.mnt := rfl
@[simp] theorem setBlock_jrn (s : State) (d b : Nat) (v : Block) : (s.setBlock d b v).jrn = s.jrn := rfl
@[simp] theorem setBlock_nv (s : State) (d b : Nat) (v : Block) : (s.setBlock d b v).nv = s.nv := rfl
@[simp] theorem setBlock_nvNext (s : State) (d b : Nat) (v : Block) : (s.setBlock d b v).nvNext = s.nvNext := rfl
@[simp] theorem setBlock_bpm (s : State) (d b : Nat) (v : Block) : (s.setBlock d b v).bpm = s.bpm := rfl
@[simp] theorem setBlock_mem (s : State) (d b : Nat) (v : Block) : (s.setBlock d b v).mem = s.mem := rfl
@[simp] theorem setBlock_cmp (s : State) (d b : Nat) (v : Block) : (s.setBlock d b v).cmp = s.cmp := rfl
@[simp] theorem setBlock_fcd (s : State) (d b : Nat) (v : Block) : (s.setBlock d b v).fcd = s.fcd := rfl
@[simp] theorem setBlock_kry (s : State) (d b : Nat) (v : Block) : (s.setBlock d b v).kry = s.kry := rfl
@[simp] theorem setBlock_hif (s : State) (d b : Nat) (v : Block) : (s.setBlock d b v).hif = s.hif := rfl
@[simp] theorem setBlock_cpl (s : State) (d b : Nat) (v : Block) : (s.setBlock d b v).cpl = s.cpl := rfl
@[simp] theorem setBlock_sec (s : State) (d b : Nat) (v : Block) : (s.setBlock d b v).sec = s.sec := rfl
@[simp] theorem setBlock_svc (s : State) (d b : Nat) (v : Block) : (s.setBlock d b v).svc = s.svc := rfl
@[simp] theorem setBlock_free (s : State) (d b : Nat) (v : Block) : (s.setBlock d b v).free = s.free := rfl
@[simp] theorem setBlock_pending (s : State) (d b : Nat) (v : Block) : (s.setBlock d b v).pending = s.pending := rfl
@[simp] theorem setBlock_fls_dies (s : State) (d b : Nat) (v : Block) : (s.setBlock d b v).fls.dies = s.fls.dies := rfl
@[simp] theorem setBlock_fls_channels (s : State) (d b : Nat) (v : Block) : (s.setBlock d b v).fls.channels = s.fls.channels := rfl
@[simp] theorem setBlock_fls_clusters (s : State) (d b : Nat) (v : Block) : (s.setBlock d b v).fls.clusters = s.fls.clusters := rfl
@[simp] theorem setBlock_fls_fold (s : State) (d b : Nat) (v : Block) : (s.setBlock d b v).fls.fold = s.fls.fold := rfl
@[simp] theorem setBlock_fls_foldNext (s : State) (d b : Nat) (v : Block) : (s.setBlock d b v).fls.foldNext = s.fls.foldNext := rfl
@[simp] theorem setBlock_fls_landing (s : State) (d b : Nat) (v : Block) : (s.setBlock d b v).fls.landing = s.fls.landing := rfl
@[simp] theorem setBlock_fls_landingNext (s : State) (d b : Nat) (v : Block) : (s.setBlock d b v).fls.landingNext = s.fls.landingNext := rfl
@[simp] theorem setBlock_fls_relocs (s : State) (d b : Nat) (v : Block) : (s.setBlock d b v).fls.relocs = s.fls.relocs := rfl
@[simp] theorem setBlock_fls_relocNext (s : State) (d b : Nat) (v : Block) : (s.setBlock d b v).fls.relocNext = s.fls.relocNext := rfl
@[simp] theorem setBlock_fls_refresh (s : State) (d b : Nat) (v : Block) : (s.setBlock d b v).fls.refresh = s.fls.refresh := rfl
@[simp] theorem setBlock_fls_rebuild (s : State) (d b : Nat) (v : Block) : (s.setBlock d b v).fls.rebuild = s.fls.rebuild := rfl
@[simp] theorem setBlock_fls_compacting (s : State) (d b : Nat) (v : Block) : (s.setBlock d b v).fls.compacting = s.fls.compacting := rfl
@[simp] theorem setBlock_fls_stale (s : State) (d b : Nat) (v : Block) : (s.setBlock d b v).fls.stale = s.fls.stale := rfl
@[simp] theorem setBlock_fls_pinWarning (s : State) (d b : Nat) (v : Block) : (s.setBlock d b v).fls.pinWarning = s.fls.pinWarning := rfl
@[simp] theorem setBlock_fls_fullErases (s : State) (d b : Nat) (v : Block) : (s.setBlock d b v).fls.fullErases = s.fls.fullErases := rfl
@[simp] theorem setBlock_fls_refusals (s : State) (d b : Nat) (v : Block) : (s.setBlock d b v).fls.refusals = s.fls.refusals := rfl
@[simp] theorem setBlock_fls_cells (s : State) (d b : Nat) (v : Block) : (s.setBlock d b v).fls.cells = s.fls.cells := rfl

/-! ### setCodecCtx -/

@[simp] theorem setCodecCtx_part (s : State) (c : Nat) (v : CodecCtx) : (s.setCodecCtx c v).part = s.part := rfl
@[simp] theorem setCodecCtx_boot (s : State) (c : Nat) (v : CodecCtx) : (s.setCodecCtx c v).boot = s.boot := rfl
@[simp] theorem setCodecCtx_pins (s : State) (c : Nat) (v : CodecCtx) : (s.setCodecCtx c v).pins = s.pins := rfl
@[simp] theorem setCodecCtx_pwr (s : State) (c : Nat) (v : CodecCtx) : (s.setCodecCtx c v).pwr = s.pwr := rfl
@[simp] theorem setCodecCtx_plog (s : State) (c : Nat) (v : CodecCtx) : (s.setCodecCtx c v).plog = s.plog := rfl
@[simp] theorem setCodecCtx_tim (s : State) (c : Nat) (v : CodecCtx) : (s.setCodecCtx c v).tim = s.tim := rfl
@[simp] theorem setCodecCtx_thm (s : State) (c : Nat) (v : CodecCtx) : (s.setCodecCtx c v).thm = s.thm := rfl
@[simp] theorem setCodecCtx_fan (s : State) (c : Nat) (v : CodecCtx) : (s.setCodecCtx c v).fan = s.fan := rfl
@[simp] theorem setCodecCtx_lvl (s : State) (c : Nat) (v : CodecCtx) : (s.setCodecCtx c v).lvl = s.lvl := rfl
@[simp] theorem setCodecCtx_zns (s : State) (c : Nat) (v : CodecCtx) : (s.setCodecCtx c v).zns = s.zns := rfl
@[simp] theorem setCodecCtx_car (s : State) (c : Nat) (v : CodecCtx) : (s.setCodecCtx c v).car = s.car := rfl
@[simp] theorem setCodecCtx_fls (s : State) (c : Nat) (v : CodecCtx) : (s.setCodecCtx c v).fls = s.fls := rfl
@[simp] theorem setCodecCtx_mnt (s : State) (c : Nat) (v : CodecCtx) : (s.setCodecCtx c v).mnt = s.mnt := rfl
@[simp] theorem setCodecCtx_jrn (s : State) (c : Nat) (v : CodecCtx) : (s.setCodecCtx c v).jrn = s.jrn := rfl
@[simp] theorem setCodecCtx_nv (s : State) (c : Nat) (v : CodecCtx) : (s.setCodecCtx c v).nv = s.nv := rfl
@[simp] theorem setCodecCtx_nvNext (s : State) (c : Nat) (v : CodecCtx) : (s.setCodecCtx c v).nvNext = s.nvNext := rfl
@[simp] theorem setCodecCtx_bpm (s : State) (c : Nat) (v : CodecCtx) : (s.setCodecCtx c v).bpm = s.bpm := rfl
@[simp] theorem setCodecCtx_mem (s : State) (c : Nat) (v : CodecCtx) : (s.setCodecCtx c v).mem = s.mem := rfl
@[simp] theorem setCodecCtx_cmp (s : State) (c : Nat) (v : CodecCtx) : (s.setCodecCtx c v).cmp = s.cmp := rfl
@[simp] theorem setCodecCtx_kry (s : State) (c : Nat) (v : CodecCtx) : (s.setCodecCtx c v).kry = s.kry := rfl
@[simp] theorem setCodecCtx_hif (s : State) (c : Nat) (v : CodecCtx) : (s.setCodecCtx c v).hif = s.hif := rfl
@[simp] theorem setCodecCtx_cpl (s : State) (c : Nat) (v : CodecCtx) : (s.setCodecCtx c v).cpl = s.cpl := rfl
@[simp] theorem setCodecCtx_sec (s : State) (c : Nat) (v : CodecCtx) : (s.setCodecCtx c v).sec = s.sec := rfl
@[simp] theorem setCodecCtx_svc (s : State) (c : Nat) (v : CodecCtx) : (s.setCodecCtx c v).svc = s.svc := rfl
@[simp] theorem setCodecCtx_free (s : State) (c : Nat) (v : CodecCtx) : (s.setCodecCtx c v).free = s.free := rfl
@[simp] theorem setCodecCtx_pending (s : State) (c : Nat) (v : CodecCtx) : (s.setCodecCtx c v).pending = s.pending := rfl
@[simp] theorem setCodecCtx_fcd_lanesOk (s : State) (c : Nat) (v : CodecCtx) : (s.setCodecCtx c v).fcd.lanesOk = s.fcd.lanesOk := rfl
@[simp] theorem setCodecCtx_fcd_lanesInUse (s : State) (c : Nat) (v : CodecCtx) : (s.setCodecCtx c v).fcd.lanesInUse = s.fcd.lanesInUse := rfl
@[simp] theorem setCodecCtx_fcd_jobs (s : State) (c : Nat) (v : CodecCtx) : (s.setCodecCtx c v).fcd.jobs = s.fcd.jobs := rfl
@[simp] theorem setCodecCtx_fcd_coded (s : State) (c : Nat) (v : CodecCtx) : (s.setCodecCtx c v).fcd.coded = s.fcd.coded := rfl
@[simp] theorem setCodecCtx_fcd_sel (s : State) (c : Nat) (v : CodecCtx) : (s.setCodecCtx c v).fcd.sel = s.fcd.sel := rfl
@[simp] theorem setCodecCtx_fcd_rawBytes (s : State) (c : Nat) (v : CodecCtx) : (s.setCodecCtx c v).fcd.rawBytes = s.fcd.rawBytes := rfl
@[simp] theorem setCodecCtx_fcd_recordBytes (s : State) (c : Nat) (v : CodecCtx) : (s.setCodecCtx c v).fcd.recordBytes = s.fcd.recordBytes := rfl

/-! ### setKctx -/

@[simp] theorem setKctx_part (s : State) (c : Nat) (v : Option KCtx) : (s.setKctx c v).part = s.part := rfl
@[simp] theorem setKctx_boot (s : State) (c : Nat) (v : Option KCtx) : (s.setKctx c v).boot = s.boot := rfl
@[simp] theorem setKctx_pins (s : State) (c : Nat) (v : Option KCtx) : (s.setKctx c v).pins = s.pins := rfl
@[simp] theorem setKctx_pwr (s : State) (c : Nat) (v : Option KCtx) : (s.setKctx c v).pwr = s.pwr := rfl
@[simp] theorem setKctx_plog (s : State) (c : Nat) (v : Option KCtx) : (s.setKctx c v).plog = s.plog := rfl
@[simp] theorem setKctx_tim (s : State) (c : Nat) (v : Option KCtx) : (s.setKctx c v).tim = s.tim := rfl
@[simp] theorem setKctx_thm (s : State) (c : Nat) (v : Option KCtx) : (s.setKctx c v).thm = s.thm := rfl
@[simp] theorem setKctx_fan (s : State) (c : Nat) (v : Option KCtx) : (s.setKctx c v).fan = s.fan := rfl
@[simp] theorem setKctx_lvl (s : State) (c : Nat) (v : Option KCtx) : (s.setKctx c v).lvl = s.lvl := rfl
@[simp] theorem setKctx_zns (s : State) (c : Nat) (v : Option KCtx) : (s.setKctx c v).zns = s.zns := rfl
@[simp] theorem setKctx_car (s : State) (c : Nat) (v : Option KCtx) : (s.setKctx c v).car = s.car := rfl
@[simp] theorem setKctx_fls (s : State) (c : Nat) (v : Option KCtx) : (s.setKctx c v).fls = s.fls := rfl
@[simp] theorem setKctx_mnt (s : State) (c : Nat) (v : Option KCtx) : (s.setKctx c v).mnt = s.mnt := rfl
@[simp] theorem setKctx_jrn (s : State) (c : Nat) (v : Option KCtx) : (s.setKctx c v).jrn = s.jrn := rfl
@[simp] theorem setKctx_nv (s : State) (c : Nat) (v : Option KCtx) : (s.setKctx c v).nv = s.nv := rfl
@[simp] theorem setKctx_nvNext (s : State) (c : Nat) (v : Option KCtx) : (s.setKctx c v).nvNext = s.nvNext := rfl
@[simp] theorem setKctx_bpm (s : State) (c : Nat) (v : Option KCtx) : (s.setKctx c v).bpm = s.bpm := rfl
@[simp] theorem setKctx_mem (s : State) (c : Nat) (v : Option KCtx) : (s.setKctx c v).mem = s.mem := rfl
@[simp] theorem setKctx_cmp (s : State) (c : Nat) (v : Option KCtx) : (s.setKctx c v).cmp = s.cmp := rfl
@[simp] theorem setKctx_fcd (s : State) (c : Nat) (v : Option KCtx) : (s.setKctx c v).fcd = s.fcd := rfl
@[simp] theorem setKctx_hif (s : State) (c : Nat) (v : Option KCtx) : (s.setKctx c v).hif = s.hif := rfl
@[simp] theorem setKctx_cpl (s : State) (c : Nat) (v : Option KCtx) : (s.setKctx c v).cpl = s.cpl := rfl
@[simp] theorem setKctx_sec (s : State) (c : Nat) (v : Option KCtx) : (s.setKctx c v).sec = s.sec := rfl
@[simp] theorem setKctx_svc (s : State) (c : Nat) (v : Option KCtx) : (s.setKctx c v).svc = s.svc := rfl
@[simp] theorem setKctx_free (s : State) (c : Nat) (v : Option KCtx) : (s.setKctx c v).free = s.free := rfl
@[simp] theorem setKctx_pending (s : State) (c : Nat) (v : Option KCtx) : (s.setKctx c v).pending = s.pending := rfl
@[simp] theorem setKctx_kry_insts (s : State) (c : Nat) (v : Option KCtx) : (s.setKctx c v).kry.insts = s.kry.insts := rfl
@[simp] theorem setKctx_kry_failed (s : State) (c : Nat) (v : Option KCtx) : (s.setKctx c v).kry.failed = s.kry.failed := rfl
@[simp] theorem setKctx_kry_retired (s : State) (c : Nat) (v : Option KCtx) : (s.setKctx c v).kry.retired = s.kry.retired := rfl
@[simp] theorem setKctx_kry_records (s : State) (c : Nat) (v : Option KCtx) : (s.setKctx c v).kry.records = s.kry.records := rfl
@[simp] theorem setKctx_kry_serial (s : State) (c : Nat) (v : Option KCtx) : (s.setKctx c v).kry.serial = s.kry.serial := rfl
@[simp] theorem setKctx_kry_pinned (s : State) (c : Nat) (v : Option KCtx) : (s.setKctx c v).kry.pinned = s.kry.pinned := rfl
@[simp] theorem setKctx_kry_maint (s : State) (c : Nat) (v : Option KCtx) : (s.setKctx c v).kry.maint = s.kry.maint := rfl
@[simp] theorem setKctx_kry_writes (s : State) (c : Nat) (v : Option KCtx) : (s.setKctx c v).kry.writes = s.kry.writes := rfl
@[simp] theorem setKctx_kry_unread (s : State) (c : Nat) (v : Option KCtx) : (s.setKctx c v).kry.unread = s.kry.unread := rfl
@[simp] theorem setKctx_kry_fillsSuspended (s : State) (c : Nat) (v : Option KCtx) : (s.setKctx c v).kry.fillsSuspended = s.kry.fillsSuspended := rfl
@[simp] theorem setKctx_kry_store (s : State) (c : Nat) (v : Option KCtx) : (s.setKctx c v).kry.store = s.kry.store := rfl
@[simp] theorem setKctx_kry_misses (s : State) (c : Nat) (v : Option KCtx) : (s.setKctx c v).kry.misses = s.kry.misses := rfl
@[simp] theorem setKctx_kry_stewardCtx (s : State) (c : Nat) (v : Option KCtx) : (s.setKctx c v).kry.stewardCtx = s.kry.stewardCtx := rfl
@[simp] theorem setKctx_kry_perCmp (s : State) (c : Nat) (v : Option KCtx) : (s.setKctx c v).kry.perCmp = s.kry.perCmp := rfl
@[simp] theorem setKctx_kry_alternate (s : State) (c : Nat) (v : Option KCtx) : (s.setKctx c v).kry.alternate = s.kry.alternate := rfl
@[simp] theorem setKctx_kry_storeSeq (s : State) (c : Nat) (v : Option KCtx) : (s.setKctx c v).kry.storeSeq = s.kry.storeSeq := rfl
@[simp] theorem setKctx_kry_moved (s : State) (c : Nat) (v : Option KCtx) : (s.setKctx c v).kry.moved = s.kry.moved := rfl
@[simp] theorem setKctx_kry_mirrors (s : State) (c : Nat) (v : Option KCtx) : (s.setKctx c v).kry.mirrors = s.kry.mirrors := rfl
@[simp] theorem setKctx_kry_touched (s : State) (c : Nat) (v : Option KCtx) : (s.setKctx c v).kry.touched = s.kry.touched := rfl
@[simp] theorem setKctx_kry_ops (s : State) (c : Nat) (v : Option KCtx) : (s.setKctx c v).kry.ops = s.kry.ops := rfl

/-! ### setKinst -/

@[simp] theorem setKinst_part (s : State) (i : Nat) (v : Option KInst) : (s.setKinst i v).part = s.part := rfl
@[simp] theorem setKinst_boot (s : State) (i : Nat) (v : Option KInst) : (s.setKinst i v).boot = s.boot := rfl
@[simp] theorem setKinst_pins (s : State) (i : Nat) (v : Option KInst) : (s.setKinst i v).pins = s.pins := rfl
@[simp] theorem setKinst_pwr (s : State) (i : Nat) (v : Option KInst) : (s.setKinst i v).pwr = s.pwr := rfl
@[simp] theorem setKinst_plog (s : State) (i : Nat) (v : Option KInst) : (s.setKinst i v).plog = s.plog := rfl
@[simp] theorem setKinst_tim (s : State) (i : Nat) (v : Option KInst) : (s.setKinst i v).tim = s.tim := rfl
@[simp] theorem setKinst_thm (s : State) (i : Nat) (v : Option KInst) : (s.setKinst i v).thm = s.thm := rfl
@[simp] theorem setKinst_fan (s : State) (i : Nat) (v : Option KInst) : (s.setKinst i v).fan = s.fan := rfl
@[simp] theorem setKinst_lvl (s : State) (i : Nat) (v : Option KInst) : (s.setKinst i v).lvl = s.lvl := rfl
@[simp] theorem setKinst_zns (s : State) (i : Nat) (v : Option KInst) : (s.setKinst i v).zns = s.zns := rfl
@[simp] theorem setKinst_car (s : State) (i : Nat) (v : Option KInst) : (s.setKinst i v).car = s.car := rfl
@[simp] theorem setKinst_fls (s : State) (i : Nat) (v : Option KInst) : (s.setKinst i v).fls = s.fls := rfl
@[simp] theorem setKinst_mnt (s : State) (i : Nat) (v : Option KInst) : (s.setKinst i v).mnt = s.mnt := rfl
@[simp] theorem setKinst_jrn (s : State) (i : Nat) (v : Option KInst) : (s.setKinst i v).jrn = s.jrn := rfl
@[simp] theorem setKinst_nv (s : State) (i : Nat) (v : Option KInst) : (s.setKinst i v).nv = s.nv := rfl
@[simp] theorem setKinst_nvNext (s : State) (i : Nat) (v : Option KInst) : (s.setKinst i v).nvNext = s.nvNext := rfl
@[simp] theorem setKinst_bpm (s : State) (i : Nat) (v : Option KInst) : (s.setKinst i v).bpm = s.bpm := rfl
@[simp] theorem setKinst_mem (s : State) (i : Nat) (v : Option KInst) : (s.setKinst i v).mem = s.mem := rfl
@[simp] theorem setKinst_cmp (s : State) (i : Nat) (v : Option KInst) : (s.setKinst i v).cmp = s.cmp := rfl
@[simp] theorem setKinst_fcd (s : State) (i : Nat) (v : Option KInst) : (s.setKinst i v).fcd = s.fcd := rfl
@[simp] theorem setKinst_hif (s : State) (i : Nat) (v : Option KInst) : (s.setKinst i v).hif = s.hif := rfl
@[simp] theorem setKinst_cpl (s : State) (i : Nat) (v : Option KInst) : (s.setKinst i v).cpl = s.cpl := rfl
@[simp] theorem setKinst_sec (s : State) (i : Nat) (v : Option KInst) : (s.setKinst i v).sec = s.sec := rfl
@[simp] theorem setKinst_svc (s : State) (i : Nat) (v : Option KInst) : (s.setKinst i v).svc = s.svc := rfl
@[simp] theorem setKinst_free (s : State) (i : Nat) (v : Option KInst) : (s.setKinst i v).free = s.free := rfl
@[simp] theorem setKinst_pending (s : State) (i : Nat) (v : Option KInst) : (s.setKinst i v).pending = s.pending := rfl
@[simp] theorem setKinst_kry_ctxs (s : State) (i : Nat) (v : Option KInst) : (s.setKinst i v).kry.ctxs = s.kry.ctxs := rfl
@[simp] theorem setKinst_kry_failed (s : State) (i : Nat) (v : Option KInst) : (s.setKinst i v).kry.failed = s.kry.failed := rfl
@[simp] theorem setKinst_kry_retired (s : State) (i : Nat) (v : Option KInst) : (s.setKinst i v).kry.retired = s.kry.retired := rfl
@[simp] theorem setKinst_kry_records (s : State) (i : Nat) (v : Option KInst) : (s.setKinst i v).kry.records = s.kry.records := rfl
@[simp] theorem setKinst_kry_serial (s : State) (i : Nat) (v : Option KInst) : (s.setKinst i v).kry.serial = s.kry.serial := rfl
@[simp] theorem setKinst_kry_pinned (s : State) (i : Nat) (v : Option KInst) : (s.setKinst i v).kry.pinned = s.kry.pinned := rfl
@[simp] theorem setKinst_kry_maint (s : State) (i : Nat) (v : Option KInst) : (s.setKinst i v).kry.maint = s.kry.maint := rfl
@[simp] theorem setKinst_kry_writes (s : State) (i : Nat) (v : Option KInst) : (s.setKinst i v).kry.writes = s.kry.writes := rfl
@[simp] theorem setKinst_kry_unread (s : State) (i : Nat) (v : Option KInst) : (s.setKinst i v).kry.unread = s.kry.unread := rfl
@[simp] theorem setKinst_kry_fillsSuspended (s : State) (i : Nat) (v : Option KInst) : (s.setKinst i v).kry.fillsSuspended = s.kry.fillsSuspended := rfl
@[simp] theorem setKinst_kry_store (s : State) (i : Nat) (v : Option KInst) : (s.setKinst i v).kry.store = s.kry.store := rfl
@[simp] theorem setKinst_kry_misses (s : State) (i : Nat) (v : Option KInst) : (s.setKinst i v).kry.misses = s.kry.misses := rfl
@[simp] theorem setKinst_kry_stewardCtx (s : State) (i : Nat) (v : Option KInst) : (s.setKinst i v).kry.stewardCtx = s.kry.stewardCtx := rfl
@[simp] theorem setKinst_kry_perCmp (s : State) (i : Nat) (v : Option KInst) : (s.setKinst i v).kry.perCmp = s.kry.perCmp := rfl
@[simp] theorem setKinst_kry_alternate (s : State) (i : Nat) (v : Option KInst) : (s.setKinst i v).kry.alternate = s.kry.alternate := rfl
@[simp] theorem setKinst_kry_storeSeq (s : State) (i : Nat) (v : Option KInst) : (s.setKinst i v).kry.storeSeq = s.kry.storeSeq := rfl
@[simp] theorem setKinst_kry_moved (s : State) (i : Nat) (v : Option KInst) : (s.setKinst i v).kry.moved = s.kry.moved := rfl
@[simp] theorem setKinst_kry_mirrors (s : State) (i : Nat) (v : Option KInst) : (s.setKinst i v).kry.mirrors = s.kry.mirrors := rfl
@[simp] theorem setKinst_kry_touched (s : State) (i : Nat) (v : Option KInst) : (s.setKinst i v).kry.touched = s.kry.touched := rfl
@[simp] theorem setKinst_kry_ops (s : State) (i : Nat) (v : Option KInst) : (s.setKinst i v).kry.ops = s.kry.ops := rfl

/-! ### setBuf -/

@[simp] theorem setBuf_part (s : State) (h : Nat) (v : Option Buf) : (s.setBuf h v).part = s.part := rfl
@[simp] theorem setBuf_boot (s : State) (h : Nat) (v : Option Buf) : (s.setBuf h v).boot = s.boot := rfl
@[simp] theorem setBuf_pins (s : State) (h : Nat) (v : Option Buf) : (s.setBuf h v).pins = s.pins := rfl
@[simp] theorem setBuf_pwr (s : State) (h : Nat) (v : Option Buf) : (s.setBuf h v).pwr = s.pwr := rfl
@[simp] theorem setBuf_plog (s : State) (h : Nat) (v : Option Buf) : (s.setBuf h v).plog = s.plog := rfl
@[simp] theorem setBuf_tim (s : State) (h : Nat) (v : Option Buf) : (s.setBuf h v).tim = s.tim := rfl
@[simp] theorem setBuf_thm (s : State) (h : Nat) (v : Option Buf) : (s.setBuf h v).thm = s.thm := rfl
@[simp] theorem setBuf_fan (s : State) (h : Nat) (v : Option Buf) : (s.setBuf h v).fan = s.fan := rfl
@[simp] theorem setBuf_lvl (s : State) (h : Nat) (v : Option Buf) : (s.setBuf h v).lvl = s.lvl := rfl
@[simp] theorem setBuf_zns (s : State) (h : Nat) (v : Option Buf) : (s.setBuf h v).zns = s.zns := rfl
@[simp] theorem setBuf_car (s : State) (h : Nat) (v : Option Buf) : (s.setBuf h v).car = s.car := rfl
@[simp] theorem setBuf_fls (s : State) (h : Nat) (v : Option Buf) : (s.setBuf h v).fls = s.fls := rfl
@[simp] theorem setBuf_mnt (s : State) (h : Nat) (v : Option Buf) : (s.setBuf h v).mnt = s.mnt := rfl
@[simp] theorem setBuf_jrn (s : State) (h : Nat) (v : Option Buf) : (s.setBuf h v).jrn = s.jrn := rfl
@[simp] theorem setBuf_nv (s : State) (h : Nat) (v : Option Buf) : (s.setBuf h v).nv = s.nv := rfl
@[simp] theorem setBuf_nvNext (s : State) (h : Nat) (v : Option Buf) : (s.setBuf h v).nvNext = s.nvNext := rfl
@[simp] theorem setBuf_mem (s : State) (h : Nat) (v : Option Buf) : (s.setBuf h v).mem = s.mem := rfl
@[simp] theorem setBuf_cmp (s : State) (h : Nat) (v : Option Buf) : (s.setBuf h v).cmp = s.cmp := rfl
@[simp] theorem setBuf_fcd (s : State) (h : Nat) (v : Option Buf) : (s.setBuf h v).fcd = s.fcd := rfl
@[simp] theorem setBuf_kry (s : State) (h : Nat) (v : Option Buf) : (s.setBuf h v).kry = s.kry := rfl
@[simp] theorem setBuf_hif (s : State) (h : Nat) (v : Option Buf) : (s.setBuf h v).hif = s.hif := rfl
@[simp] theorem setBuf_cpl (s : State) (h : Nat) (v : Option Buf) : (s.setBuf h v).cpl = s.cpl := rfl
@[simp] theorem setBuf_sec (s : State) (h : Nat) (v : Option Buf) : (s.setBuf h v).sec = s.sec := rfl
@[simp] theorem setBuf_svc (s : State) (h : Nat) (v : Option Buf) : (s.setBuf h v).svc = s.svc := rfl
@[simp] theorem setBuf_free (s : State) (h : Nat) (v : Option Buf) : (s.setBuf h v).free = s.free := rfl
@[simp] theorem setBuf_pending (s : State) (h : Nat) (v : Option Buf) : (s.setBuf h v).pending = s.pending := rfl
@[simp] theorem setBuf_bpm_dramCell (s : State) (h : Nat) (v : Option Buf) : (s.setBuf h v).bpm.dramCell = s.bpm.dramCell := rfl
@[simp] theorem setBuf_bpm_sramCell (s : State) (h : Nat) (v : Option Buf) : (s.setBuf h v).bpm.sramCell = s.bpm.sramCell := rfl
@[simp] theorem setBuf_bpm_cfgRefused (s : State) (h : Nat) (v : Option Buf) : (s.setBuf h v).bpm.cfgRefused = s.bpm.cfgRefused := rfl
@[simp] theorem setBuf_bpm_wm0 (s : State) (h : Nat) (v : Option Buf) : (s.setBuf h v).bpm.wm0 = s.bpm.wm0 := rfl
@[simp] theorem setBuf_bpm_wm1 (s : State) (h : Nat) (v : Option Buf) : (s.setBuf h v).bpm.wm1 = s.bpm.wm1 := rfl
@[simp] theorem setBuf_bpm_sel (s : State) (h : Nat) (v : Option Buf) : (s.setBuf h v).bpm.sel = s.bpm.sel := rfl
@[simp] theorem setBuf_bpm_general (s : State) (h : Nat) (v : Option Buf) : (s.setBuf h v).bpm.general = s.bpm.general := rfl
@[simp] theorem setBuf_bpm_sram (s : State) (h : Nat) (v : Option Buf) : (s.setBuf h v).bpm.sram = s.bpm.sram := rfl
@[simp] theorem setBuf_bpm_staging (s : State) (h : Nat) (v : Option Buf) : (s.setBuf h v).bpm.staging = s.bpm.staging := rfl
@[simp] theorem setBuf_bpm_nextHandle (s : State) (h : Nat) (v : Option Buf) : (s.setBuf h v).bpm.nextHandle = s.bpm.nextHandle := rfl
@[simp] theorem setBuf_bpm_bytes (s : State) (h : Nat) (v : Option Buf) : (s.setBuf h v).bpm.bytes = s.bpm.bytes := rfl
@[simp] theorem setBuf_bpm_owners (s : State) (h : Nat) (v : Option Buf) : (s.setBuf h v).bpm.owners = s.bpm.owners := rfl
@[simp] theorem setBuf_bpm_ownerCmd (s : State) (h : Nat) (v : Option Buf) : (s.setBuf h v).bpm.ownerCmd = s.bpm.ownerCmd := rfl
@[simp] theorem setBuf_bpm_ownerStatus (s : State) (h : Nat) (v : Option Buf) : (s.setBuf h v).bpm.ownerStatus = s.bpm.ownerStatus := rfl
@[simp] theorem setBuf_bpm_ownerDone (s : State) (h : Nat) (v : Option Buf) : (s.setBuf h v).bpm.ownerDone = s.bpm.ownerDone := rfl
@[simp] theorem setBuf_bpm_ownerLimit (s : State) (h : Nat) (v : Option Buf) : (s.setBuf h v).bpm.ownerLimit = s.bpm.ownerLimit := rfl
@[simp] theorem setBuf_bpm_ownerInfo (s : State) (h : Nat) (v : Option Buf) : (s.setBuf h v).bpm.ownerInfo = s.bpm.ownerInfo := rfl
@[simp] theorem setBuf_bpm_leakMs (s : State) (h : Nat) (v : Option Buf) : (s.setBuf h v).bpm.leakMs = s.bpm.leakMs := rfl
@[simp] theorem setBuf_bpm_segments (s : State) (h : Nat) (v : Option Buf) : (s.setBuf h v).bpm.segments = s.bpm.segments := rfl
@[simp] theorem setBuf_bpm_leaving (s : State) (h : Nat) (v : Option Buf) : (s.setBuf h v).bpm.leaving = s.bpm.leaving := rfl

/-! ### setOwner -/

@[simp] theorem setOwner_part (s : State) (o : Nat) (v : Option Owner) : (s.setOwner o v).part = s.part := rfl
@[simp] theorem setOwner_boot (s : State) (o : Nat) (v : Option Owner) : (s.setOwner o v).boot = s.boot := rfl
@[simp] theorem setOwner_pins (s : State) (o : Nat) (v : Option Owner) : (s.setOwner o v).pins = s.pins := rfl
@[simp] theorem setOwner_pwr (s : State) (o : Nat) (v : Option Owner) : (s.setOwner o v).pwr = s.pwr := rfl
@[simp] theorem setOwner_plog (s : State) (o : Nat) (v : Option Owner) : (s.setOwner o v).plog = s.plog := rfl
@[simp] theorem setOwner_tim (s : State) (o : Nat) (v : Option Owner) : (s.setOwner o v).tim = s.tim := rfl
@[simp] theorem setOwner_thm (s : State) (o : Nat) (v : Option Owner) : (s.setOwner o v).thm = s.thm := rfl
@[simp] theorem setOwner_fan (s : State) (o : Nat) (v : Option Owner) : (s.setOwner o v).fan = s.fan := rfl
@[simp] theorem setOwner_lvl (s : State) (o : Nat) (v : Option Owner) : (s.setOwner o v).lvl = s.lvl := rfl
@[simp] theorem setOwner_zns (s : State) (o : Nat) (v : Option Owner) : (s.setOwner o v).zns = s.zns := rfl
@[simp] theorem setOwner_car (s : State) (o : Nat) (v : Option Owner) : (s.setOwner o v).car = s.car := rfl
@[simp] theorem setOwner_fls (s : State) (o : Nat) (v : Option Owner) : (s.setOwner o v).fls = s.fls := rfl
@[simp] theorem setOwner_mnt (s : State) (o : Nat) (v : Option Owner) : (s.setOwner o v).mnt = s.mnt := rfl
@[simp] theorem setOwner_jrn (s : State) (o : Nat) (v : Option Owner) : (s.setOwner o v).jrn = s.jrn := rfl
@[simp] theorem setOwner_nv (s : State) (o : Nat) (v : Option Owner) : (s.setOwner o v).nv = s.nv := rfl
@[simp] theorem setOwner_nvNext (s : State) (o : Nat) (v : Option Owner) : (s.setOwner o v).nvNext = s.nvNext := rfl
@[simp] theorem setOwner_mem (s : State) (o : Nat) (v : Option Owner) : (s.setOwner o v).mem = s.mem := rfl
@[simp] theorem setOwner_cmp (s : State) (o : Nat) (v : Option Owner) : (s.setOwner o v).cmp = s.cmp := rfl
@[simp] theorem setOwner_fcd (s : State) (o : Nat) (v : Option Owner) : (s.setOwner o v).fcd = s.fcd := rfl
@[simp] theorem setOwner_kry (s : State) (o : Nat) (v : Option Owner) : (s.setOwner o v).kry = s.kry := rfl
@[simp] theorem setOwner_hif (s : State) (o : Nat) (v : Option Owner) : (s.setOwner o v).hif = s.hif := rfl
@[simp] theorem setOwner_cpl (s : State) (o : Nat) (v : Option Owner) : (s.setOwner o v).cpl = s.cpl := rfl
@[simp] theorem setOwner_sec (s : State) (o : Nat) (v : Option Owner) : (s.setOwner o v).sec = s.sec := rfl
@[simp] theorem setOwner_svc (s : State) (o : Nat) (v : Option Owner) : (s.setOwner o v).svc = s.svc := rfl
@[simp] theorem setOwner_free (s : State) (o : Nat) (v : Option Owner) : (s.setOwner o v).free = s.free := rfl
@[simp] theorem setOwner_pending (s : State) (o : Nat) (v : Option Owner) : (s.setOwner o v).pending = s.pending := rfl
@[simp] theorem setOwner_bpm_dramCell (s : State) (o : Nat) (v : Option Owner) : (s.setOwner o v).bpm.dramCell = s.bpm.dramCell := rfl
@[simp] theorem setOwner_bpm_sramCell (s : State) (o : Nat) (v : Option Owner) : (s.setOwner o v).bpm.sramCell = s.bpm.sramCell := rfl
@[simp] theorem setOwner_bpm_cfgRefused (s : State) (o : Nat) (v : Option Owner) : (s.setOwner o v).bpm.cfgRefused = s.bpm.cfgRefused := rfl
@[simp] theorem setOwner_bpm_wm0 (s : State) (o : Nat) (v : Option Owner) : (s.setOwner o v).bpm.wm0 = s.bpm.wm0 := rfl
@[simp] theorem setOwner_bpm_wm1 (s : State) (o : Nat) (v : Option Owner) : (s.setOwner o v).bpm.wm1 = s.bpm.wm1 := rfl
@[simp] theorem setOwner_bpm_sel (s : State) (o : Nat) (v : Option Owner) : (s.setOwner o v).bpm.sel = s.bpm.sel := rfl
@[simp] theorem setOwner_bpm_general (s : State) (o : Nat) (v : Option Owner) : (s.setOwner o v).bpm.general = s.bpm.general := rfl
@[simp] theorem setOwner_bpm_sram (s : State) (o : Nat) (v : Option Owner) : (s.setOwner o v).bpm.sram = s.bpm.sram := rfl
@[simp] theorem setOwner_bpm_staging (s : State) (o : Nat) (v : Option Owner) : (s.setOwner o v).bpm.staging = s.bpm.staging := rfl
@[simp] theorem setOwner_bpm_bufs (s : State) (o : Nat) (v : Option Owner) : (s.setOwner o v).bpm.bufs = s.bpm.bufs := rfl
@[simp] theorem setOwner_bpm_nextHandle (s : State) (o : Nat) (v : Option Owner) : (s.setOwner o v).bpm.nextHandle = s.bpm.nextHandle := rfl
@[simp] theorem setOwner_bpm_bytes (s : State) (o : Nat) (v : Option Owner) : (s.setOwner o v).bpm.bytes = s.bpm.bytes := rfl
@[simp] theorem setOwner_bpm_ownerCmd (s : State) (o : Nat) (v : Option Owner) : (s.setOwner o v).bpm.ownerCmd = s.bpm.ownerCmd := rfl
@[simp] theorem setOwner_bpm_ownerStatus (s : State) (o : Nat) (v : Option Owner) : (s.setOwner o v).bpm.ownerStatus = s.bpm.ownerStatus := rfl
@[simp] theorem setOwner_bpm_ownerDone (s : State) (o : Nat) (v : Option Owner) : (s.setOwner o v).bpm.ownerDone = s.bpm.ownerDone := rfl
@[simp] theorem setOwner_bpm_ownerLimit (s : State) (o : Nat) (v : Option Owner) : (s.setOwner o v).bpm.ownerLimit = s.bpm.ownerLimit := rfl
@[simp] theorem setOwner_bpm_ownerInfo (s : State) (o : Nat) (v : Option Owner) : (s.setOwner o v).bpm.ownerInfo = s.bpm.ownerInfo := rfl
@[simp] theorem setOwner_bpm_leakMs (s : State) (o : Nat) (v : Option Owner) : (s.setOwner o v).bpm.leakMs = s.bpm.leakMs := rfl
@[simp] theorem setOwner_bpm_segments (s : State) (o : Nat) (v : Option Owner) : (s.setOwner o v).bpm.segments = s.bpm.segments := rfl
@[simp] theorem setOwner_bpm_leaving (s : State) (o : Nat) (v : Option Owner) : (s.setOwner o v).bpm.leaving = s.bpm.leaving := rfl

/-! ### emit -/

@[simp] theorem emit_part (s : State) (o : Output) : (s.emit o).part = s.part := rfl
@[simp] theorem emit_boot (s : State) (o : Output) : (s.emit o).boot = s.boot := rfl
@[simp] theorem emit_pins (s : State) (o : Output) : (s.emit o).pins = s.pins := rfl
@[simp] theorem emit_pwr (s : State) (o : Output) : (s.emit o).pwr = s.pwr := rfl
@[simp] theorem emit_plog (s : State) (o : Output) : (s.emit o).plog = s.plog := rfl
@[simp] theorem emit_tim (s : State) (o : Output) : (s.emit o).tim = s.tim := rfl
@[simp] theorem emit_thm (s : State) (o : Output) : (s.emit o).thm = s.thm := rfl
@[simp] theorem emit_fan (s : State) (o : Output) : (s.emit o).fan = s.fan := rfl
@[simp] theorem emit_lvl (s : State) (o : Output) : (s.emit o).lvl = s.lvl := rfl
@[simp] theorem emit_zns (s : State) (o : Output) : (s.emit o).zns = s.zns := rfl
@[simp] theorem emit_car (s : State) (o : Output) : (s.emit o).car = s.car := rfl
@[simp] theorem emit_fls (s : State) (o : Output) : (s.emit o).fls = s.fls := rfl
@[simp] theorem emit_mnt (s : State) (o : Output) : (s.emit o).mnt = s.mnt := rfl
@[simp] theorem emit_jrn (s : State) (o : Output) : (s.emit o).jrn = s.jrn := rfl
@[simp] theorem emit_nv (s : State) (o : Output) : (s.emit o).nv = s.nv := rfl
@[simp] theorem emit_nvNext (s : State) (o : Output) : (s.emit o).nvNext = s.nvNext := rfl
@[simp] theorem emit_bpm (s : State) (o : Output) : (s.emit o).bpm = s.bpm := rfl
@[simp] theorem emit_mem (s : State) (o : Output) : (s.emit o).mem = s.mem := rfl
@[simp] theorem emit_cmp (s : State) (o : Output) : (s.emit o).cmp = s.cmp := rfl
@[simp] theorem emit_fcd (s : State) (o : Output) : (s.emit o).fcd = s.fcd := rfl
@[simp] theorem emit_kry (s : State) (o : Output) : (s.emit o).kry = s.kry := rfl
@[simp] theorem emit_cpl (s : State) (o : Output) : (s.emit o).cpl = s.cpl := rfl
@[simp] theorem emit_sec (s : State) (o : Output) : (s.emit o).sec = s.sec := rfl
@[simp] theorem emit_svc (s : State) (o : Output) : (s.emit o).svc = s.svc := rfl
@[simp] theorem emit_free (s : State) (o : Output) : (s.emit o).free = s.free := rfl
@[simp] theorem emit_pending (s : State) (o : Output) : (s.emit o).pending = s.pending := rfl
@[simp] theorem emit_hif_port0 (s : State) (o : Output) : (s.emit o).hif.port0 = s.hif.port0 := rfl
@[simp] theorem emit_hif_port1 (s : State) (o : Output) : (s.emit o).hif.port1 = s.hif.port1 := rfl
@[simp] theorem emit_hif_dual (s : State) (o : Output) : (s.emit o).hif.dual = s.hif.dual := rfl
@[simp] theorem emit_hif_queues (s : State) (o : Output) : (s.emit o).hif.queues = s.hif.queues := rfl
@[simp] theorem emit_hif_compFeat (s : State) (o : Output) : (s.emit o).hif.compFeat = s.hif.compFeat := rfl
@[simp] theorem emit_hif_compAers (s : State) (o : Output) : (s.emit o).hif.compAers = s.hif.compAers := rfl
@[simp] theorem emit_hif_compEvents (s : State) (o : Output) : (s.emit o).hif.compEvents = s.hif.compEvents := rfl
@[simp] theorem emit_hif_changedZones (s : State) (o : Output) : (s.emit o).hif.changedZones = s.hif.changedZones := rfl
@[simp] theorem emit_hif_changedNs (s : State) (o : Output) : (s.emit o).hif.changedNs = s.hif.changedNs := rfl
@[simp] theorem emit_hif_compErrors (s : State) (o : Output) : (s.emit o).hif.compErrors = s.hif.compErrors := rfl
@[simp] theorem emit_hif_ring (s : State) (o : Output) : (s.emit o).hif.ring = s.hif.ring := rfl
@[simp] theorem emit_hif_lost (s : State) (o : Output) : (s.emit o).hif.lost = s.hif.lost := rfl
@[simp] theorem emit_hif_compRings (s : State) (o : Output) : (s.emit o).hif.compRings = s.hif.compRings := rfl
@[simp] theorem emit_hif_compLost (s : State) (o : Output) : (s.emit o).hif.compLost = s.hif.compLost := rfl
@[simp] theorem emit_hif_raised (s : State) (o : Output) : (s.emit o).hif.raised = s.hif.raised := rfl
@[simp] theorem emit_hif_msix (s : State) (o : Output) : (s.emit o).hif.msix = s.hif.msix := rfl
@[simp] theorem emit_hif_msixPending (s : State) (o : Output) : (s.emit o).hif.msixPending = s.hif.msixPending := rfl
@[simp] theorem emit_hif_smart (s : State) (o : Output) : (s.emit o).hif.smart = s.hif.smart := rfl
@[simp] theorem emit_hif_compSmart (s : State) (o : Output) : (s.emit o).hif.compSmart = s.hif.compSmart := rfl

/-! ### advanceTo -/

@[simp] theorem advanceTo_part (s : State) (t : Nat) : (s.advanceTo t).part = s.part := rfl
@[simp] theorem advanceTo_boot (s : State) (t : Nat) : (s.advanceTo t).boot = s.boot := rfl
@[simp] theorem advanceTo_pins (s : State) (t : Nat) : (s.advanceTo t).pins = s.pins := rfl
@[simp] theorem advanceTo_pwr (s : State) (t : Nat) : (s.advanceTo t).pwr = s.pwr := rfl
@[simp] theorem advanceTo_plog (s : State) (t : Nat) : (s.advanceTo t).plog = s.plog := rfl
@[simp] theorem advanceTo_thm (s : State) (t : Nat) : (s.advanceTo t).thm = s.thm := rfl
@[simp] theorem advanceTo_fan (s : State) (t : Nat) : (s.advanceTo t).fan = s.fan := rfl
@[simp] theorem advanceTo_lvl (s : State) (t : Nat) : (s.advanceTo t).lvl = s.lvl := rfl
@[simp] theorem advanceTo_zns (s : State) (t : Nat) : (s.advanceTo t).zns = s.zns := rfl
@[simp] theorem advanceTo_car (s : State) (t : Nat) : (s.advanceTo t).car = s.car := rfl
@[simp] theorem advanceTo_fls (s : State) (t : Nat) : (s.advanceTo t).fls = s.fls := rfl
@[simp] theorem advanceTo_mnt (s : State) (t : Nat) : (s.advanceTo t).mnt = s.mnt := rfl
@[simp] theorem advanceTo_jrn (s : State) (t : Nat) : (s.advanceTo t).jrn = s.jrn := rfl
@[simp] theorem advanceTo_nv (s : State) (t : Nat) : (s.advanceTo t).nv = s.nv := rfl
@[simp] theorem advanceTo_nvNext (s : State) (t : Nat) : (s.advanceTo t).nvNext = s.nvNext := rfl
@[simp] theorem advanceTo_bpm (s : State) (t : Nat) : (s.advanceTo t).bpm = s.bpm := rfl
@[simp] theorem advanceTo_mem (s : State) (t : Nat) : (s.advanceTo t).mem = s.mem := rfl
@[simp] theorem advanceTo_cmp (s : State) (t : Nat) : (s.advanceTo t).cmp = s.cmp := rfl
@[simp] theorem advanceTo_fcd (s : State) (t : Nat) : (s.advanceTo t).fcd = s.fcd := rfl
@[simp] theorem advanceTo_kry (s : State) (t : Nat) : (s.advanceTo t).kry = s.kry := rfl
@[simp] theorem advanceTo_hif (s : State) (t : Nat) : (s.advanceTo t).hif = s.hif := rfl
@[simp] theorem advanceTo_cpl (s : State) (t : Nat) : (s.advanceTo t).cpl = s.cpl := rfl
@[simp] theorem advanceTo_sec (s : State) (t : Nat) : (s.advanceTo t).sec = s.sec := rfl
@[simp] theorem advanceTo_svc (s : State) (t : Nat) : (s.advanceTo t).svc = s.svc := rfl
@[simp] theorem advanceTo_free (s : State) (t : Nat) : (s.advanceTo t).free = s.free := rfl
@[simp] theorem advanceTo_pending (s : State) (t : Nat) : (s.advanceTo t).pending = s.pending := rfl
@[simp] theorem advanceTo_tim_running (s : State) (t : Nat) : (s.advanceTo t).tim.running = s.tim.running := rfl
@[simp] theorem advanceTo_tim_ppsEn (s : State) (t : Nat) : (s.advanceTo t).tim.ppsEn = s.tim.ppsEn := rfl
@[simp] theorem advanceTo_tim_ptmEn (s : State) (t : Nat) : (s.advanceTo t).tim.ptmEn = s.tim.ptmEn := rfl
@[simp] theorem advanceTo_tim_ptmMs (s : State) (t : Nat) : (s.advanceTo t).tim.ptmMs = s.tim.ptmMs := rfl
@[simp] theorem advanceTo_tim_source (s : State) (t : Nat) : (s.advanceTo t).tim.source = s.tim.source := rfl
@[simp] theorem advanceTo_tim_locked (s : State) (t : Nat) : (s.advanceTo t).tim.locked = s.tim.locked := rfl
@[simp] theorem advanceTo_tim_holdover (s : State) (t : Nat) : (s.advanceTo t).tim.holdover = s.tim.holdover := rfl
@[simp] theorem advanceTo_tim_secSuspect (s : State) (t : Nat) : (s.advanceTo t).tim.secSuspect = s.tim.secSuspect := rfl
@[simp] theorem advanceTo_tim_saturated (s : State) (t : Nat) : (s.advanceTo t).tim.saturated = s.tim.saturated := rfl
@[simp] theorem advanceTo_tim_steps (s : State) (t : Nat) : (s.advanceTo t).tim.steps = s.tim.steps := rfl
@[simp] theorem advanceTo_tim_lastErr (s : State) (t : Nat) : (s.advanceTo t).tim.lastErr = s.tim.lastErr := rfl
@[simp] theorem advanceTo_tim_freqPpb (s : State) (t : Nat) : (s.advanceTo t).tim.freqPpb = s.tim.freqPpb := rfl
@[simp] theorem advanceTo_tim_ppsLast (s : State) (t : Nat) : (s.advanceTo t).tim.ppsLast = s.tim.ppsLast := rfl
@[simp] theorem advanceTo_tim_goodEdges (s : State) (t : Nat) : (s.advanceTo t).tim.goodEdges = s.tim.goodEdges := rfl
@[simp] theorem advanceTo_tim_heldEdge (s : State) (t : Nat) : (s.advanceTo t).tim.heldEdge = s.tim.heldEdge := rfl
@[simp] theorem advanceTo_tim_slew (s : State) (t : Nat) : (s.advanceTo t).tim.slew = s.tim.slew := rfl
@[simp] theorem advanceTo_tim_slewPhase (s : State) (t : Nat) : (s.advanceTo t).tim.slewPhase = s.tim.slewPhase := rfl
@[simp] theorem advanceTo_tim_disciplinedAt (s : State) (t : Nat) : (s.advanceTo t).tim.disciplinedAt = s.tim.disciplinedAt := rfl
@[simp] theorem advanceTo_tim_timeSet (s : State) (t : Nat) : (s.advanceTo t).tim.timeSet = s.tim.timeSet := rfl
@[simp] theorem advanceTo_tim_ptmOffset (s : State) (t : Nat) : (s.advanceTo t).tim.ptmOffset = s.tim.ptmOffset := rfl
@[simp] theorem advanceTo_tim_ppsAlive (s : State) (t : Nat) : (s.advanceTo t).tim.ppsAlive = s.tim.ppsAlive := rfl

/-! ### startClocks -/

@[simp] theorem startClocks_part (s : State) (mask : BitVec 256) : (s.startClocks mask).part = s.part := rfl
@[simp] theorem startClocks_boot (s : State) (mask : BitVec 256) : (s.startClocks mask).boot = s.boot := rfl
@[simp] theorem startClocks_pins (s : State) (mask : BitVec 256) : (s.startClocks mask).pins = s.pins := rfl
@[simp] theorem startClocks_pwr (s : State) (mask : BitVec 256) : (s.startClocks mask).pwr = s.pwr := rfl
@[simp] theorem startClocks_plog (s : State) (mask : BitVec 256) : (s.startClocks mask).plog = s.plog := rfl
@[simp] theorem startClocks_tim (s : State) (mask : BitVec 256) : (s.startClocks mask).tim = s.tim := rfl
@[simp] theorem startClocks_thm (s : State) (mask : BitVec 256) : (s.startClocks mask).thm = s.thm := rfl
@[simp] theorem startClocks_fan (s : State) (mask : BitVec 256) : (s.startClocks mask).fan = s.fan := rfl
@[simp] theorem startClocks_zns (s : State) (mask : BitVec 256) : (s.startClocks mask).zns = s.zns := rfl
@[simp] theorem startClocks_car (s : State) (mask : BitVec 256) : (s.startClocks mask).car = s.car := rfl
@[simp] theorem startClocks_fls (s : State) (mask : BitVec 256) : (s.startClocks mask).fls = s.fls := rfl
@[simp] theorem startClocks_mnt (s : State) (mask : BitVec 256) : (s.startClocks mask).mnt = s.mnt := rfl
@[simp] theorem startClocks_jrn (s : State) (mask : BitVec 256) : (s.startClocks mask).jrn = s.jrn := rfl
@[simp] theorem startClocks_nv (s : State) (mask : BitVec 256) : (s.startClocks mask).nv = s.nv := rfl
@[simp] theorem startClocks_nvNext (s : State) (mask : BitVec 256) : (s.startClocks mask).nvNext = s.nvNext := rfl
@[simp] theorem startClocks_bpm (s : State) (mask : BitVec 256) : (s.startClocks mask).bpm = s.bpm := rfl
@[simp] theorem startClocks_mem (s : State) (mask : BitVec 256) : (s.startClocks mask).mem = s.mem := rfl
@[simp] theorem startClocks_cmp (s : State) (mask : BitVec 256) : (s.startClocks mask).cmp = s.cmp := rfl
@[simp] theorem startClocks_fcd (s : State) (mask : BitVec 256) : (s.startClocks mask).fcd = s.fcd := rfl
@[simp] theorem startClocks_kry (s : State) (mask : BitVec 256) : (s.startClocks mask).kry = s.kry := rfl
@[simp] theorem startClocks_hif (s : State) (mask : BitVec 256) : (s.startClocks mask).hif = s.hif := rfl
@[simp] theorem startClocks_cpl (s : State) (mask : BitVec 256) : (s.startClocks mask).cpl = s.cpl := rfl
@[simp] theorem startClocks_sec (s : State) (mask : BitVec 256) : (s.startClocks mask).sec = s.sec := rfl
@[simp] theorem startClocks_svc (s : State) (mask : BitVec 256) : (s.startClocks mask).svc = s.svc := rfl
@[simp] theorem startClocks_free (s : State) (mask : BitVec 256) : (s.startClocks mask).free = s.free := rfl
@[simp] theorem startClocks_pending (s : State) (mask : BitVec 256) : (s.startClocks mask).pending = s.pending := rfl
@[simp] theorem startClocks_lvl_clusterOwner (s : State) (mask : BitVec 256) : (s.startClocks mask).lvl.clusterOwner = s.lvl.clusterOwner := rfl
@[simp] theorem startClocks_lvl_regionA (s : State) (mask : BitVec 256) : (s.startClocks mask).lvl.regionA = s.lvl.regionA := rfl
@[simp] theorem startClocks_lvl_regionB (s : State) (mask : BitVec 256) : (s.startClocks mask).lvl.regionB = s.lvl.regionB := rfl
@[simp] theorem startClocks_lvl_takeover (s : State) (mask : BitVec 256) : (s.startClocks mask).lvl.takeover = s.lvl.takeover := rfl
@[simp] theorem startClocks_lvl_takeoverBy (s : State) (mask : BitVec 256) : (s.startClocks mask).lvl.takeoverBy = s.lvl.takeoverBy := rfl
@[simp] theorem startClocks_lvl_clusterLost (s : State) (mask : BitVec 256) : (s.startClocks mask).lvl.clusterLost = s.lvl.clusterLost := rfl
@[simp] theorem startClocks_lvl_bridgeOk (s : State) (mask : BitVec 256) : (s.startClocks mask).lvl.bridgeOk = s.lvl.bridgeOk := rfl
@[simp] theorem startClocks_lvl_xbarLost (s : State) (mask : BitVec 256) : (s.startClocks mask).lvl.xbarLost = s.lvl.xbarLost := rfl
@[simp] theorem startClocks_lvl_budgetA (s : State) (mask : BitVec 256) : (s.startClocks mask).lvl.budgetA = s.lvl.budgetA := rfl
@[simp] theorem startClocks_lvl_budgetB (s : State) (mask : BitVec 256) : (s.startClocks mask).lvl.budgetB = s.lvl.budgetB := rfl
@[simp] theorem startClocks_lvl_rowInForce (s : State) (mask : BitVec 256) : (s.startClocks mask).lvl.rowInForce = s.lvl.rowInForce := rfl
@[simp] theorem startClocks_lvl_rowPower (s : State) (mask : BitVec 256) : (s.startClocks mask).lvl.rowPower = s.lvl.rowPower := rfl
@[simp] theorem startClocks_lvl_windowStart (s : State) (mask : BitVec 256) : (s.startClocks mask).lvl.windowStart = s.lvl.windowStart := rfl
@[simp] theorem startClocks_lvl_excessMw (s : State) (mask : BitVec 256) : (s.startClocks mask).lvl.excessMw = s.lvl.excessMw := rfl
@[simp] theorem startClocks_lvl_unitsFailed (s : State) (mask : BitVec 256) : (s.startClocks mask).lvl.unitsFailed = s.lvl.unitsFailed := rfl
@[simp] theorem startClocks_lvl_takeoverAt (s : State) (mask : BitVec 256) : (s.startClocks mask).lvl.takeoverAt = s.lvl.takeoverAt := rfl
@[simp] theorem startClocks_lvl_takeoverMark (s : State) (mask : BitVec 256) : (s.startClocks mask).lvl.takeoverMark = s.lvl.takeoverMark := rfl
@[simp] theorem startClocks_lvl_singleStaging (s : State) (mask : BitVec 256) : (s.startClocks mask).lvl.singleStaging = s.lvl.singleStaging := rfl
@[simp] theorem startClocks_lvl_bothLost (s : State) (mask : BitVec 256) : (s.startClocks mask).lvl.bothLost = s.lvl.bothLost := rfl

/-! ### modQueues -/

@[simp] theorem modQueues_part (s : State) (f : Queue → Bool) (g : Queue → Queue) : (s.modQueues f g).part = s.part := rfl
@[simp] theorem modQueues_boot (s : State) (f : Queue → Bool) (g : Queue → Queue) : (s.modQueues f g).boot = s.boot := rfl
@[simp] theorem modQueues_pins (s : State) (f : Queue → Bool) (g : Queue → Queue) : (s.modQueues f g).pins = s.pins := rfl
@[simp] theorem modQueues_pwr (s : State) (f : Queue → Bool) (g : Queue → Queue) : (s.modQueues f g).pwr = s.pwr := rfl
@[simp] theorem modQueues_plog (s : State) (f : Queue → Bool) (g : Queue → Queue) : (s.modQueues f g).plog = s.plog := rfl
@[simp] theorem modQueues_tim (s : State) (f : Queue → Bool) (g : Queue → Queue) : (s.modQueues f g).tim = s.tim := rfl
@[simp] theorem modQueues_thm (s : State) (f : Queue → Bool) (g : Queue → Queue) : (s.modQueues f g).thm = s.thm := rfl
@[simp] theorem modQueues_fan (s : State) (f : Queue → Bool) (g : Queue → Queue) : (s.modQueues f g).fan = s.fan := rfl
@[simp] theorem modQueues_lvl (s : State) (f : Queue → Bool) (g : Queue → Queue) : (s.modQueues f g).lvl = s.lvl := rfl
@[simp] theorem modQueues_zns (s : State) (f : Queue → Bool) (g : Queue → Queue) : (s.modQueues f g).zns = s.zns := rfl
@[simp] theorem modQueues_car (s : State) (f : Queue → Bool) (g : Queue → Queue) : (s.modQueues f g).car = s.car := rfl
@[simp] theorem modQueues_fls (s : State) (f : Queue → Bool) (g : Queue → Queue) : (s.modQueues f g).fls = s.fls := rfl
@[simp] theorem modQueues_mnt (s : State) (f : Queue → Bool) (g : Queue → Queue) : (s.modQueues f g).mnt = s.mnt := rfl
@[simp] theorem modQueues_jrn (s : State) (f : Queue → Bool) (g : Queue → Queue) : (s.modQueues f g).jrn = s.jrn := rfl
@[simp] theorem modQueues_nv (s : State) (f : Queue → Bool) (g : Queue → Queue) : (s.modQueues f g).nv = s.nv := rfl
@[simp] theorem modQueues_nvNext (s : State) (f : Queue → Bool) (g : Queue → Queue) : (s.modQueues f g).nvNext = s.nvNext := rfl
@[simp] theorem modQueues_bpm (s : State) (f : Queue → Bool) (g : Queue → Queue) : (s.modQueues f g).bpm = s.bpm := rfl
@[simp] theorem modQueues_mem (s : State) (f : Queue → Bool) (g : Queue → Queue) : (s.modQueues f g).mem = s.mem := rfl
@[simp] theorem modQueues_cmp (s : State) (f : Queue → Bool) (g : Queue → Queue) : (s.modQueues f g).cmp = s.cmp := rfl
@[simp] theorem modQueues_fcd (s : State) (f : Queue → Bool) (g : Queue → Queue) : (s.modQueues f g).fcd = s.fcd := rfl
@[simp] theorem modQueues_kry (s : State) (f : Queue → Bool) (g : Queue → Queue) : (s.modQueues f g).kry = s.kry := rfl
@[simp] theorem modQueues_cpl (s : State) (f : Queue → Bool) (g : Queue → Queue) : (s.modQueues f g).cpl = s.cpl := rfl
@[simp] theorem modQueues_sec (s : State) (f : Queue → Bool) (g : Queue → Queue) : (s.modQueues f g).sec = s.sec := rfl
@[simp] theorem modQueues_svc (s : State) (f : Queue → Bool) (g : Queue → Queue) : (s.modQueues f g).svc = s.svc := rfl
@[simp] theorem modQueues_free (s : State) (f : Queue → Bool) (g : Queue → Queue) : (s.modQueues f g).free = s.free := rfl
@[simp] theorem modQueues_pending (s : State) (f : Queue → Bool) (g : Queue → Queue) : (s.modQueues f g).pending = s.pending := rfl

/-! ### activity -/

@[simp] theorem activity_part (s : State) : (s.activity).part = s.part := rfl
@[simp] theorem activity_boot (s : State) : (s.activity).boot = s.boot := rfl
@[simp] theorem activity_pins (s : State) : (s.activity).pins = s.pins := rfl
@[simp] theorem activity_plog (s : State) : (s.activity).plog = s.plog := rfl
@[simp] theorem activity_tim (s : State) : (s.activity).tim = s.tim := rfl
@[simp] theorem activity_thm (s : State) : (s.activity).thm = s.thm := rfl
@[simp] theorem activity_fan (s : State) : (s.activity).fan = s.fan := rfl
@[simp] theorem activity_lvl (s : State) : (s.activity).lvl = s.lvl := rfl
@[simp] theorem activity_zns (s : State) : (s.activity).zns = s.zns := rfl
@[simp] theorem activity_car (s : State) : (s.activity).car = s.car := rfl
@[simp] theorem activity_fls (s : State) : (s.activity).fls = s.fls := rfl
@[simp] theorem activity_mnt (s : State) : (s.activity).mnt = s.mnt := rfl
@[simp] theorem activity_jrn (s : State) : (s.activity).jrn = s.jrn := rfl
@[simp] theorem activity_nv (s : State) : (s.activity).nv = s.nv := rfl
@[simp] theorem activity_nvNext (s : State) : (s.activity).nvNext = s.nvNext := rfl
@[simp] theorem activity_bpm (s : State) : (s.activity).bpm = s.bpm := rfl
@[simp] theorem activity_mem (s : State) : (s.activity).mem = s.mem := rfl
@[simp] theorem activity_cmp (s : State) : (s.activity).cmp = s.cmp := rfl
@[simp] theorem activity_fcd (s : State) : (s.activity).fcd = s.fcd := rfl
@[simp] theorem activity_kry (s : State) : (s.activity).kry = s.kry := rfl
@[simp] theorem activity_hif (s : State) : (s.activity).hif = s.hif := rfl
@[simp] theorem activity_cpl (s : State) : (s.activity).cpl = s.cpl := rfl
@[simp] theorem activity_sec (s : State) : (s.activity).sec = s.sec := rfl
@[simp] theorem activity_svc (s : State) : (s.activity).svc = s.svc := rfl
@[simp] theorem activity_free (s : State) : (s.activity).free = s.free := rfl
@[simp] theorem activity_pending (s : State) : (s.activity).pending = s.pending := rfl

/-! ### draw -/

@[simp] theorem draw_part (s : State) : (s.draw).part = s.part := rfl
@[simp] theorem draw_boot (s : State) : (s.draw).boot = s.boot := rfl
@[simp] theorem draw_pins (s : State) : (s.draw).pins = s.pins := rfl
@[simp] theorem draw_pwr (s : State) : (s.draw).pwr = s.pwr := rfl
@[simp] theorem draw_plog (s : State) : (s.draw).plog = s.plog := rfl
@[simp] theorem draw_tim (s : State) : (s.draw).tim = s.tim := rfl
@[simp] theorem draw_thm (s : State) : (s.draw).thm = s.thm := rfl
@[simp] theorem draw_fan (s : State) : (s.draw).fan = s.fan := rfl
@[simp] theorem draw_lvl (s : State) : (s.draw).lvl = s.lvl := rfl
@[simp] theorem draw_zns (s : State) : (s.draw).zns = s.zns := rfl
@[simp] theorem draw_car (s : State) : (s.draw).car = s.car := rfl
@[simp] theorem draw_fls (s : State) : (s.draw).fls = s.fls := rfl
@[simp] theorem draw_mnt (s : State) : (s.draw).mnt = s.mnt := rfl
@[simp] theorem draw_jrn (s : State) : (s.draw).jrn = s.jrn := rfl
@[simp] theorem draw_nv (s : State) : (s.draw).nv = s.nv := rfl
@[simp] theorem draw_nvNext (s : State) : (s.draw).nvNext = s.nvNext := rfl
@[simp] theorem draw_bpm (s : State) : (s.draw).bpm = s.bpm := rfl
@[simp] theorem draw_mem (s : State) : (s.draw).mem = s.mem := rfl
@[simp] theorem draw_cmp (s : State) : (s.draw).cmp = s.cmp := rfl
@[simp] theorem draw_fcd (s : State) : (s.draw).fcd = s.fcd := rfl
@[simp] theorem draw_kry (s : State) : (s.draw).kry = s.kry := rfl
@[simp] theorem draw_hif (s : State) : (s.draw).hif = s.hif := rfl
@[simp] theorem draw_cpl (s : State) : (s.draw).cpl = s.cpl := rfl
@[simp] theorem draw_sec (s : State) : (s.draw).sec = s.sec := rfl
@[simp] theorem draw_svc (s : State) : (s.draw).svc = s.svc := rfl
@[simp] theorem draw_pending (s : State) : (s.draw).pending = s.pending := rfl

/-! ### toReels -/

@[simp] theorem toReels_part (s : State) (e : EvRec) : (s.toReels e).part = s.part := rfl
@[simp] theorem toReels_boot (s : State) (e : EvRec) : (s.toReels e).boot = s.boot := rfl
@[simp] theorem toReels_pins (s : State) (e : EvRec) : (s.toReels e).pins = s.pins := rfl
@[simp] theorem toReels_pwr (s : State) (e : EvRec) : (s.toReels e).pwr = s.pwr := rfl
@[simp] theorem toReels_plog (s : State) (e : EvRec) : (s.toReels e).plog = s.plog := rfl
@[simp] theorem toReels_tim (s : State) (e : EvRec) : (s.toReels e).tim = s.tim := rfl
@[simp] theorem toReels_thm (s : State) (e : EvRec) : (s.toReels e).thm = s.thm := rfl
@[simp] theorem toReels_fan (s : State) (e : EvRec) : (s.toReels e).fan = s.fan := rfl
@[simp] theorem toReels_lvl (s : State) (e : EvRec) : (s.toReels e).lvl = s.lvl := rfl
@[simp] theorem toReels_zns (s : State) (e : EvRec) : (s.toReels e).zns = s.zns := rfl
@[simp] theorem toReels_car (s : State) (e : EvRec) : (s.toReels e).car = s.car := rfl
@[simp] theorem toReels_fls (s : State) (e : EvRec) : (s.toReels e).fls = s.fls := rfl
@[simp] theorem toReels_mnt (s : State) (e : EvRec) : (s.toReels e).mnt = s.mnt := rfl
@[simp] theorem toReels_jrn (s : State) (e : EvRec) : (s.toReels e).jrn = s.jrn := rfl
@[simp] theorem toReels_nv (s : State) (e : EvRec) : (s.toReels e).nv = s.nv := rfl
@[simp] theorem toReels_nvNext (s : State) (e : EvRec) : (s.toReels e).nvNext = s.nvNext := rfl
@[simp] theorem toReels_bpm (s : State) (e : EvRec) : (s.toReels e).bpm = s.bpm := rfl
@[simp] theorem toReels_mem (s : State) (e : EvRec) : (s.toReels e).mem = s.mem := rfl
@[simp] theorem toReels_cmp (s : State) (e : EvRec) : (s.toReels e).cmp = s.cmp := rfl
@[simp] theorem toReels_fcd (s : State) (e : EvRec) : (s.toReels e).fcd = s.fcd := rfl
@[simp] theorem toReels_hif (s : State) (e : EvRec) : (s.toReels e).hif = s.hif := rfl
@[simp] theorem toReels_cpl (s : State) (e : EvRec) : (s.toReels e).cpl = s.cpl := rfl
@[simp] theorem toReels_sec (s : State) (e : EvRec) : (s.toReels e).sec = s.sec := rfl
@[simp] theorem toReels_svc (s : State) (e : EvRec) : (s.toReels e).svc = s.svc := rfl
@[simp] theorem toReels_free (s : State) (e : EvRec) : (s.toReels e).free = s.free := rfl
@[simp] theorem toReels_pending (s : State) (e : EvRec) : (s.toReels e).pending = s.pending := rfl

/-! ### pushFlit -/

@[simp] theorem pushFlit_part (s : State) (p : Nat) : (s.pushFlit p).part = s.part := rfl
@[simp] theorem pushFlit_boot (s : State) (p : Nat) : (s.pushFlit p).boot = s.boot := rfl
@[simp] theorem pushFlit_pins (s : State) (p : Nat) : (s.pushFlit p).pins = s.pins := rfl
@[simp] theorem pushFlit_pwr (s : State) (p : Nat) : (s.pushFlit p).pwr = s.pwr := rfl
@[simp] theorem pushFlit_plog (s : State) (p : Nat) : (s.pushFlit p).plog = s.plog := rfl
@[simp] theorem pushFlit_tim (s : State) (p : Nat) : (s.pushFlit p).tim = s.tim := rfl
@[simp] theorem pushFlit_thm (s : State) (p : Nat) : (s.pushFlit p).thm = s.thm := rfl
@[simp] theorem pushFlit_fan (s : State) (p : Nat) : (s.pushFlit p).fan = s.fan := rfl
@[simp] theorem pushFlit_lvl (s : State) (p : Nat) : (s.pushFlit p).lvl = s.lvl := rfl
@[simp] theorem pushFlit_zns (s : State) (p : Nat) : (s.pushFlit p).zns = s.zns := rfl
@[simp] theorem pushFlit_car (s : State) (p : Nat) : (s.pushFlit p).car = s.car := rfl
@[simp] theorem pushFlit_fls (s : State) (p : Nat) : (s.pushFlit p).fls = s.fls := rfl
@[simp] theorem pushFlit_mnt (s : State) (p : Nat) : (s.pushFlit p).mnt = s.mnt := rfl
@[simp] theorem pushFlit_jrn (s : State) (p : Nat) : (s.pushFlit p).jrn = s.jrn := rfl
@[simp] theorem pushFlit_nv (s : State) (p : Nat) : (s.pushFlit p).nv = s.nv := rfl
@[simp] theorem pushFlit_nvNext (s : State) (p : Nat) : (s.pushFlit p).nvNext = s.nvNext := rfl
@[simp] theorem pushFlit_bpm (s : State) (p : Nat) : (s.pushFlit p).bpm = s.bpm := rfl
@[simp] theorem pushFlit_mem (s : State) (p : Nat) : (s.pushFlit p).mem = s.mem := rfl
@[simp] theorem pushFlit_cmp (s : State) (p : Nat) : (s.pushFlit p).cmp = s.cmp := rfl
@[simp] theorem pushFlit_fcd (s : State) (p : Nat) : (s.pushFlit p).fcd = s.fcd := rfl
@[simp] theorem pushFlit_kry (s : State) (p : Nat) : (s.pushFlit p).kry = s.kry := rfl
@[simp] theorem pushFlit_hif (s : State) (p : Nat) : (s.pushFlit p).hif = s.hif := rfl
@[simp] theorem pushFlit_sec (s : State) (p : Nat) : (s.pushFlit p).sec = s.sec := rfl
@[simp] theorem pushFlit_svc (s : State) (p : Nat) : (s.pushFlit p).svc = s.svc := rfl
@[simp] theorem pushFlit_free (s : State) (p : Nat) : (s.pushFlit p).free = s.free := rfl
@[simp] theorem pushFlit_pending (s : State) (p : Nat) : (s.pushFlit p).pending = s.pending := rfl

/-! ### setLandRow -/

@[simp] theorem setLandRow_part (s : State) (r : Nat) (v : Option LandRow) : (s.setLandRow r v).part = s.part := rfl
@[simp] theorem setLandRow_boot (s : State) (r : Nat) (v : Option LandRow) : (s.setLandRow r v).boot = s.boot := rfl
@[simp] theorem setLandRow_pins (s : State) (r : Nat) (v : Option LandRow) : (s.setLandRow r v).pins = s.pins := rfl
@[simp] theorem setLandRow_pwr (s : State) (r : Nat) (v : Option LandRow) : (s.setLandRow r v).pwr = s.pwr := rfl
@[simp] theorem setLandRow_plog (s : State) (r : Nat) (v : Option LandRow) : (s.setLandRow r v).plog = s.plog := rfl
@[simp] theorem setLandRow_tim (s : State) (r : Nat) (v : Option LandRow) : (s.setLandRow r v).tim = s.tim := rfl
@[simp] theorem setLandRow_thm (s : State) (r : Nat) (v : Option LandRow) : (s.setLandRow r v).thm = s.thm := rfl
@[simp] theorem setLandRow_fan (s : State) (r : Nat) (v : Option LandRow) : (s.setLandRow r v).fan = s.fan := rfl
@[simp] theorem setLandRow_lvl (s : State) (r : Nat) (v : Option LandRow) : (s.setLandRow r v).lvl = s.lvl := rfl
@[simp] theorem setLandRow_zns (s : State) (r : Nat) (v : Option LandRow) : (s.setLandRow r v).zns = s.zns := rfl
@[simp] theorem setLandRow_car (s : State) (r : Nat) (v : Option LandRow) : (s.setLandRow r v).car = s.car := rfl
@[simp] theorem setLandRow_mnt (s : State) (r : Nat) (v : Option LandRow) : (s.setLandRow r v).mnt = s.mnt := rfl
@[simp] theorem setLandRow_jrn (s : State) (r : Nat) (v : Option LandRow) : (s.setLandRow r v).jrn = s.jrn := rfl
@[simp] theorem setLandRow_nv (s : State) (r : Nat) (v : Option LandRow) : (s.setLandRow r v).nv = s.nv := rfl
@[simp] theorem setLandRow_nvNext (s : State) (r : Nat) (v : Option LandRow) : (s.setLandRow r v).nvNext = s.nvNext := rfl
@[simp] theorem setLandRow_bpm (s : State) (r : Nat) (v : Option LandRow) : (s.setLandRow r v).bpm = s.bpm := rfl
@[simp] theorem setLandRow_mem (s : State) (r : Nat) (v : Option LandRow) : (s.setLandRow r v).mem = s.mem := rfl
@[simp] theorem setLandRow_cmp (s : State) (r : Nat) (v : Option LandRow) : (s.setLandRow r v).cmp = s.cmp := rfl
@[simp] theorem setLandRow_fcd (s : State) (r : Nat) (v : Option LandRow) : (s.setLandRow r v).fcd = s.fcd := rfl
@[simp] theorem setLandRow_kry (s : State) (r : Nat) (v : Option LandRow) : (s.setLandRow r v).kry = s.kry := rfl
@[simp] theorem setLandRow_hif (s : State) (r : Nat) (v : Option LandRow) : (s.setLandRow r v).hif = s.hif := rfl
@[simp] theorem setLandRow_cpl (s : State) (r : Nat) (v : Option LandRow) : (s.setLandRow r v).cpl = s.cpl := rfl
@[simp] theorem setLandRow_sec (s : State) (r : Nat) (v : Option LandRow) : (s.setLandRow r v).sec = s.sec := rfl
@[simp] theorem setLandRow_svc (s : State) (r : Nat) (v : Option LandRow) : (s.setLandRow r v).svc = s.svc := rfl
@[simp] theorem setLandRow_free (s : State) (r : Nat) (v : Option LandRow) : (s.setLandRow r v).free = s.free := rfl
@[simp] theorem setLandRow_pending (s : State) (r : Nat) (v : Option LandRow) : (s.setLandRow r v).pending = s.pending := rfl

/-! ### unqueue -/

@[simp] theorem unqueue_part (s : State) (f : QEntry → Bool) : (s.unqueue f).part = s.part := rfl
@[simp] theorem unqueue_boot (s : State) (f : QEntry → Bool) : (s.unqueue f).boot = s.boot := rfl
@[simp] theorem unqueue_pins (s : State) (f : QEntry → Bool) : (s.unqueue f).pins = s.pins := rfl
@[simp] theorem unqueue_pwr (s : State) (f : QEntry → Bool) : (s.unqueue f).pwr = s.pwr := rfl
@[simp] theorem unqueue_plog (s : State) (f : QEntry → Bool) : (s.unqueue f).plog = s.plog := rfl
@[simp] theorem unqueue_tim (s : State) (f : QEntry → Bool) : (s.unqueue f).tim = s.tim := rfl
@[simp] theorem unqueue_thm (s : State) (f : QEntry → Bool) : (s.unqueue f).thm = s.thm := rfl
@[simp] theorem unqueue_fan (s : State) (f : QEntry → Bool) : (s.unqueue f).fan = s.fan := rfl
@[simp] theorem unqueue_lvl (s : State) (f : QEntry → Bool) : (s.unqueue f).lvl = s.lvl := rfl
@[simp] theorem unqueue_zns (s : State) (f : QEntry → Bool) : (s.unqueue f).zns = s.zns := rfl
@[simp] theorem unqueue_car (s : State) (f : QEntry → Bool) : (s.unqueue f).car = s.car := rfl
@[simp] theorem unqueue_mnt (s : State) (f : QEntry → Bool) : (s.unqueue f).mnt = s.mnt := rfl
@[simp] theorem unqueue_jrn (s : State) (f : QEntry → Bool) : (s.unqueue f).jrn = s.jrn := rfl
@[simp] theorem unqueue_nv (s : State) (f : QEntry → Bool) : (s.unqueue f).nv = s.nv := rfl
@[simp] theorem unqueue_nvNext (s : State) (f : QEntry → Bool) : (s.unqueue f).nvNext = s.nvNext := rfl
@[simp] theorem unqueue_bpm (s : State) (f : QEntry → Bool) : (s.unqueue f).bpm = s.bpm := rfl
@[simp] theorem unqueue_mem (s : State) (f : QEntry → Bool) : (s.unqueue f).mem = s.mem := rfl
@[simp] theorem unqueue_cmp (s : State) (f : QEntry → Bool) : (s.unqueue f).cmp = s.cmp := rfl
@[simp] theorem unqueue_fcd (s : State) (f : QEntry → Bool) : (s.unqueue f).fcd = s.fcd := rfl
@[simp] theorem unqueue_kry (s : State) (f : QEntry → Bool) : (s.unqueue f).kry = s.kry := rfl
@[simp] theorem unqueue_hif (s : State) (f : QEntry → Bool) : (s.unqueue f).hif = s.hif := rfl
@[simp] theorem unqueue_cpl (s : State) (f : QEntry → Bool) : (s.unqueue f).cpl = s.cpl := rfl
@[simp] theorem unqueue_sec (s : State) (f : QEntry → Bool) : (s.unqueue f).sec = s.sec := rfl
@[simp] theorem unqueue_svc (s : State) (f : QEntry → Bool) : (s.unqueue f).svc = s.svc := rfl
@[simp] theorem unqueue_free (s : State) (f : QEntry → Bool) : (s.unqueue f).free = s.free := rfl
@[simp] theorem unqueue_pending (s : State) (f : QEntry → Bool) : (s.unqueue f).pending = s.pending := rfl

/-! ### addReadUs -/

@[simp] theorem addReadUs_part (s : State) (cluster us : Nat) : (s.addReadUs cluster us).part = s.part := rfl
@[simp] theorem addReadUs_boot (s : State) (cluster us : Nat) : (s.addReadUs cluster us).boot = s.boot := rfl
@[simp] theorem addReadUs_pins (s : State) (cluster us : Nat) : (s.addReadUs cluster us).pins = s.pins := rfl
@[simp] theorem addReadUs_pwr (s : State) (cluster us : Nat) : (s.addReadUs cluster us).pwr = s.pwr := rfl
@[simp] theorem addReadUs_plog (s : State) (cluster us : Nat) : (s.addReadUs cluster us).plog = s.plog := rfl
@[simp] theorem addReadUs_tim (s : State) (cluster us : Nat) : (s.addReadUs cluster us).tim = s.tim := rfl
@[simp] theorem addReadUs_thm (s : State) (cluster us : Nat) : (s.addReadUs cluster us).thm = s.thm := rfl
@[simp] theorem addReadUs_fan (s : State) (cluster us : Nat) : (s.addReadUs cluster us).fan = s.fan := rfl
@[simp] theorem addReadUs_lvl (s : State) (cluster us : Nat) : (s.addReadUs cluster us).lvl = s.lvl := rfl
@[simp] theorem addReadUs_zns (s : State) (cluster us : Nat) : (s.addReadUs cluster us).zns = s.zns := rfl
@[simp] theorem addReadUs_fls (s : State) (cluster us : Nat) : (s.addReadUs cluster us).fls = s.fls := rfl
@[simp] theorem addReadUs_mnt (s : State) (cluster us : Nat) : (s.addReadUs cluster us).mnt = s.mnt := rfl
@[simp] theorem addReadUs_jrn (s : State) (cluster us : Nat) : (s.addReadUs cluster us).jrn = s.jrn := rfl
@[simp] theorem addReadUs_nv (s : State) (cluster us : Nat) : (s.addReadUs cluster us).nv = s.nv := rfl
@[simp] theorem addReadUs_nvNext (s : State) (cluster us : Nat) : (s.addReadUs cluster us).nvNext = s.nvNext := rfl
@[simp] theorem addReadUs_bpm (s : State) (cluster us : Nat) : (s.addReadUs cluster us).bpm = s.bpm := rfl
@[simp] theorem addReadUs_mem (s : State) (cluster us : Nat) : (s.addReadUs cluster us).mem = s.mem := rfl
@[simp] theorem addReadUs_cmp (s : State) (cluster us : Nat) : (s.addReadUs cluster us).cmp = s.cmp := rfl
@[simp] theorem addReadUs_fcd (s : State) (cluster us : Nat) : (s.addReadUs cluster us).fcd = s.fcd := rfl
@[simp] theorem addReadUs_kry (s : State) (cluster us : Nat) : (s.addReadUs cluster us).kry = s.kry := rfl
@[simp] theorem addReadUs_hif (s : State) (cluster us : Nat) : (s.addReadUs cluster us).hif = s.hif := rfl
@[simp] theorem addReadUs_cpl (s : State) (cluster us : Nat) : (s.addReadUs cluster us).cpl = s.cpl := rfl
@[simp] theorem addReadUs_sec (s : State) (cluster us : Nat) : (s.addReadUs cluster us).sec = s.sec := rfl
@[simp] theorem addReadUs_svc (s : State) (cluster us : Nat) : (s.addReadUs cluster us).svc = s.svc := rfl
@[simp] theorem addReadUs_free (s : State) (cluster us : Nat) : (s.addReadUs cluster us).free = s.free := rfl
@[simp] theorem addReadUs_pending (s : State) (cluster us : Nat) : (s.addReadUs cluster us).pending = s.pending := rfl

/-! ### setFlight -/

@[simp] theorem setFlight_part (s : State) (v : Flight) : (s.setFlight v).part = s.part := rfl
@[simp] theorem setFlight_boot (s : State) (v : Flight) : (s.setFlight v).boot = s.boot := rfl
@[simp] theorem setFlight_pins (s : State) (v : Flight) : (s.setFlight v).pins = s.pins := rfl
@[simp] theorem setFlight_pwr (s : State) (v : Flight) : (s.setFlight v).pwr = s.pwr := rfl
@[simp] theorem setFlight_plog (s : State) (v : Flight) : (s.setFlight v).plog = s.plog := rfl
@[simp] theorem setFlight_tim (s : State) (v : Flight) : (s.setFlight v).tim = s.tim := rfl
@[simp] theorem setFlight_thm (s : State) (v : Flight) : (s.setFlight v).thm = s.thm := rfl
@[simp] theorem setFlight_fan (s : State) (v : Flight) : (s.setFlight v).fan = s.fan := rfl
@[simp] theorem setFlight_lvl (s : State) (v : Flight) : (s.setFlight v).lvl = s.lvl := rfl
@[simp] theorem setFlight_zns (s : State) (v : Flight) : (s.setFlight v).zns = s.zns := rfl
@[simp] theorem setFlight_fls (s : State) (v : Flight) : (s.setFlight v).fls = s.fls := rfl
@[simp] theorem setFlight_mnt (s : State) (v : Flight) : (s.setFlight v).mnt = s.mnt := rfl
@[simp] theorem setFlight_jrn (s : State) (v : Flight) : (s.setFlight v).jrn = s.jrn := rfl
@[simp] theorem setFlight_nv (s : State) (v : Flight) : (s.setFlight v).nv = s.nv := rfl
@[simp] theorem setFlight_nvNext (s : State) (v : Flight) : (s.setFlight v).nvNext = s.nvNext := rfl
@[simp] theorem setFlight_bpm (s : State) (v : Flight) : (s.setFlight v).bpm = s.bpm := rfl
@[simp] theorem setFlight_mem (s : State) (v : Flight) : (s.setFlight v).mem = s.mem := rfl
@[simp] theorem setFlight_cmp (s : State) (v : Flight) : (s.setFlight v).cmp = s.cmp := rfl
@[simp] theorem setFlight_fcd (s : State) (v : Flight) : (s.setFlight v).fcd = s.fcd := rfl
@[simp] theorem setFlight_kry (s : State) (v : Flight) : (s.setFlight v).kry = s.kry := rfl
@[simp] theorem setFlight_hif (s : State) (v : Flight) : (s.setFlight v).hif = s.hif := rfl
@[simp] theorem setFlight_cpl (s : State) (v : Flight) : (s.setFlight v).cpl = s.cpl := rfl
@[simp] theorem setFlight_sec (s : State) (v : Flight) : (s.setFlight v).sec = s.sec := rfl
@[simp] theorem setFlight_svc (s : State) (v : Flight) : (s.setFlight v).svc = s.svc := rfl
@[simp] theorem setFlight_free (s : State) (v : Flight) : (s.setFlight v).free = s.free := rfl
@[simp] theorem setFlight_pending (s : State) (v : Flight) : (s.setFlight v).pending = s.pending := rfl

/-! ### dropData -/

@[simp] theorem dropData_part (s : State) (z u : Nat) : (s.dropData z u).part = s.part := rfl
@[simp] theorem dropData_boot (s : State) (z u : Nat) : (s.dropData z u).boot = s.boot := rfl
@[simp] theorem dropData_pins (s : State) (z u : Nat) : (s.dropData z u).pins = s.pins := rfl
@[simp] theorem dropData_pwr (s : State) (z u : Nat) : (s.dropData z u).pwr = s.pwr := rfl
@[simp] theorem dropData_plog (s : State) (z u : Nat) : (s.dropData z u).plog = s.plog := rfl
@[simp] theorem dropData_tim (s : State) (z u : Nat) : (s.dropData z u).tim = s.tim := rfl
@[simp] theorem dropData_thm (s : State) (z u : Nat) : (s.dropData z u).thm = s.thm := rfl
@[simp] theorem dropData_fan (s : State) (z u : Nat) : (s.dropData z u).fan = s.fan := rfl
@[simp] theorem dropData_lvl (s : State) (z u : Nat) : (s.dropData z u).lvl = s.lvl := rfl
@[simp] theorem dropData_car (s : State) (z u : Nat) : (s.dropData z u).car = s.car := rfl
@[simp] theorem dropData_fls (s : State) (z u : Nat) : (s.dropData z u).fls = s.fls := rfl
@[simp] theorem dropData_mnt (s : State) (z u : Nat) : (s.dropData z u).mnt = s.mnt := rfl
@[simp] theorem dropData_jrn (s : State) (z u : Nat) : (s.dropData z u).jrn = s.jrn := rfl
@[simp] theorem dropData_nv (s : State) (z u : Nat) : (s.dropData z u).nv = s.nv := rfl
@[simp] theorem dropData_nvNext (s : State) (z u : Nat) : (s.dropData z u).nvNext = s.nvNext := rfl
@[simp] theorem dropData_bpm (s : State) (z u : Nat) : (s.dropData z u).bpm = s.bpm := rfl
@[simp] theorem dropData_mem (s : State) (z u : Nat) : (s.dropData z u).mem = s.mem := rfl
@[simp] theorem dropData_cmp (s : State) (z u : Nat) : (s.dropData z u).cmp = s.cmp := rfl
@[simp] theorem dropData_fcd (s : State) (z u : Nat) : (s.dropData z u).fcd = s.fcd := rfl
@[simp] theorem dropData_kry (s : State) (z u : Nat) : (s.dropData z u).kry = s.kry := rfl
@[simp] theorem dropData_hif (s : State) (z u : Nat) : (s.dropData z u).hif = s.hif := rfl
@[simp] theorem dropData_cpl (s : State) (z u : Nat) : (s.dropData z u).cpl = s.cpl := rfl
@[simp] theorem dropData_sec (s : State) (z u : Nat) : (s.dropData z u).sec = s.sec := rfl
@[simp] theorem dropData_svc (s : State) (z u : Nat) : (s.dropData z u).svc = s.svc := rfl
@[simp] theorem dropData_free (s : State) (z u : Nat) : (s.dropData z u).free = s.free := rfl
@[simp] theorem dropData_pending (s : State) (z u : Nat) : (s.dropData z u).pending = s.pending := rfl

/-! ### addOp -/

@[simp] theorem addOp_part (s : State) (c inst ticket : Nat) (op : UnitOp) : (s.addOp c inst ticket op).part = s.part := rfl
@[simp] theorem addOp_boot (s : State) (c inst ticket : Nat) (op : UnitOp) : (s.addOp c inst ticket op).boot = s.boot := rfl
@[simp] theorem addOp_pins (s : State) (c inst ticket : Nat) (op : UnitOp) : (s.addOp c inst ticket op).pins = s.pins := rfl
@[simp] theorem addOp_pwr (s : State) (c inst ticket : Nat) (op : UnitOp) : (s.addOp c inst ticket op).pwr = s.pwr := rfl
@[simp] theorem addOp_plog (s : State) (c inst ticket : Nat) (op : UnitOp) : (s.addOp c inst ticket op).plog = s.plog := rfl
@[simp] theorem addOp_tim (s : State) (c inst ticket : Nat) (op : UnitOp) : (s.addOp c inst ticket op).tim = s.tim := rfl
@[simp] theorem addOp_thm (s : State) (c inst ticket : Nat) (op : UnitOp) : (s.addOp c inst ticket op).thm = s.thm := rfl
@[simp] theorem addOp_fan (s : State) (c inst ticket : Nat) (op : UnitOp) : (s.addOp c inst ticket op).fan = s.fan := rfl
@[simp] theorem addOp_lvl (s : State) (c inst ticket : Nat) (op : UnitOp) : (s.addOp c inst ticket op).lvl = s.lvl := rfl
@[simp] theorem addOp_zns (s : State) (c inst ticket : Nat) (op : UnitOp) : (s.addOp c inst ticket op).zns = s.zns := rfl
@[simp] theorem addOp_car (s : State) (c inst ticket : Nat) (op : UnitOp) : (s.addOp c inst ticket op).car = s.car := rfl
@[simp] theorem addOp_fls (s : State) (c inst ticket : Nat) (op : UnitOp) : (s.addOp c inst ticket op).fls = s.fls := rfl
@[simp] theorem addOp_mnt (s : State) (c inst ticket : Nat) (op : UnitOp) : (s.addOp c inst ticket op).mnt = s.mnt := rfl
@[simp] theorem addOp_jrn (s : State) (c inst ticket : Nat) (op : UnitOp) : (s.addOp c inst ticket op).jrn = s.jrn := rfl
@[simp] theorem addOp_nv (s : State) (c inst ticket : Nat) (op : UnitOp) : (s.addOp c inst ticket op).nv = s.nv := rfl
@[simp] theorem addOp_nvNext (s : State) (c inst ticket : Nat) (op : UnitOp) : (s.addOp c inst ticket op).nvNext = s.nvNext := rfl
@[simp] theorem addOp_bpm (s : State) (c inst ticket : Nat) (op : UnitOp) : (s.addOp c inst ticket op).bpm = s.bpm := rfl
@[simp] theorem addOp_mem (s : State) (c inst ticket : Nat) (op : UnitOp) : (s.addOp c inst ticket op).mem = s.mem := rfl
@[simp] theorem addOp_cmp (s : State) (c inst ticket : Nat) (op : UnitOp) : (s.addOp c inst ticket op).cmp = s.cmp := rfl
@[simp] theorem addOp_fcd (s : State) (c inst ticket : Nat) (op : UnitOp) : (s.addOp c inst ticket op).fcd = s.fcd := rfl
@[simp] theorem addOp_hif (s : State) (c inst ticket : Nat) (op : UnitOp) : (s.addOp c inst ticket op).hif = s.hif := rfl
@[simp] theorem addOp_cpl (s : State) (c inst ticket : Nat) (op : UnitOp) : (s.addOp c inst ticket op).cpl = s.cpl := rfl
@[simp] theorem addOp_sec (s : State) (c inst ticket : Nat) (op : UnitOp) : (s.addOp c inst ticket op).sec = s.sec := rfl
@[simp] theorem addOp_svc (s : State) (c inst ticket : Nat) (op : UnitOp) : (s.addOp c inst ticket op).svc = s.svc := rfl
@[simp] theorem addOp_free (s : State) (c inst ticket : Nat) (op : UnitOp) : (s.addOp c inst ticket op).free = s.free := rfl
@[simp] theorem addOp_pending (s : State) (c inst ticket : Nat) (op : UnitOp) : (s.addOp c inst ticket op).pending = s.pending := rfl

/-! ### setStoreHead -/

@[simp] theorem setStoreHead_part (s : State) (w : StoreWrite) : (s.setStoreHead w).part = s.part := rfl
@[simp] theorem setStoreHead_boot (s : State) (w : StoreWrite) : (s.setStoreHead w).boot = s.boot := rfl
@[simp] theorem setStoreHead_pins (s : State) (w : StoreWrite) : (s.setStoreHead w).pins = s.pins := rfl
@[simp] theorem setStoreHead_pwr (s : State) (w : StoreWrite) : (s.setStoreHead w).pwr = s.pwr := rfl
@[simp] theorem setStoreHead_plog (s : State) (w : StoreWrite) : (s.setStoreHead w).plog = s.plog := rfl
@[simp] theorem setStoreHead_tim (s : State) (w : StoreWrite) : (s.setStoreHead w).tim = s.tim := rfl
@[simp] theorem setStoreHead_thm (s : State) (w : StoreWrite) : (s.setStoreHead w).thm = s.thm := rfl
@[simp] theorem setStoreHead_fan (s : State) (w : StoreWrite) : (s.setStoreHead w).fan = s.fan := rfl
@[simp] theorem setStoreHead_lvl (s : State) (w : StoreWrite) : (s.setStoreHead w).lvl = s.lvl := rfl
@[simp] theorem setStoreHead_zns (s : State) (w : StoreWrite) : (s.setStoreHead w).zns = s.zns := rfl
@[simp] theorem setStoreHead_car (s : State) (w : StoreWrite) : (s.setStoreHead w).car = s.car := rfl
@[simp] theorem setStoreHead_fls (s : State) (w : StoreWrite) : (s.setStoreHead w).fls = s.fls := rfl
@[simp] theorem setStoreHead_mnt (s : State) (w : StoreWrite) : (s.setStoreHead w).mnt = s.mnt := rfl
@[simp] theorem setStoreHead_jrn (s : State) (w : StoreWrite) : (s.setStoreHead w).jrn = s.jrn := rfl
@[simp] theorem setStoreHead_nv (s : State) (w : StoreWrite) : (s.setStoreHead w).nv = s.nv := rfl
@[simp] theorem setStoreHead_nvNext (s : State) (w : StoreWrite) : (s.setStoreHead w).nvNext = s.nvNext := rfl
@[simp] theorem setStoreHead_bpm (s : State) (w : StoreWrite) : (s.setStoreHead w).bpm = s.bpm := rfl
@[simp] theorem setStoreHead_mem (s : State) (w : StoreWrite) : (s.setStoreHead w).mem = s.mem := rfl
@[simp] theorem setStoreHead_cmp (s : State) (w : StoreWrite) : (s.setStoreHead w).cmp = s.cmp := rfl
@[simp] theorem setStoreHead_fcd (s : State) (w : StoreWrite) : (s.setStoreHead w).fcd = s.fcd := rfl
@[simp] theorem setStoreHead_hif (s : State) (w : StoreWrite) : (s.setStoreHead w).hif = s.hif := rfl
@[simp] theorem setStoreHead_cpl (s : State) (w : StoreWrite) : (s.setStoreHead w).cpl = s.cpl := rfl
@[simp] theorem setStoreHead_sec (s : State) (w : StoreWrite) : (s.setStoreHead w).sec = s.sec := rfl
@[simp] theorem setStoreHead_svc (s : State) (w : StoreWrite) : (s.setStoreHead w).svc = s.svc := rfl
@[simp] theorem setStoreHead_free (s : State) (w : StoreWrite) : (s.setStoreHead w).free = s.free := rfl
@[simp] theorem setStoreHead_pending (s : State) (w : StoreWrite) : (s.setStoreHead w).pending = s.pending := rfl

/-! ### popStore -/

@[simp] theorem popStore_part (s : State) : (s.popStore).part = s.part := rfl
@[simp] theorem popStore_boot (s : State) : (s.popStore).boot = s.boot := rfl
@[simp] theorem popStore_pins (s : State) : (s.popStore).pins = s.pins := rfl
@[simp] theorem popStore_pwr (s : State) : (s.popStore).pwr = s.pwr := rfl
@[simp] theorem popStore_plog (s : State) : (s.popStore).plog = s.plog := rfl
@[simp] theorem popStore_tim (s : State) : (s.popStore).tim = s.tim := rfl
@[simp] theorem popStore_thm (s : State) : (s.popStore).thm = s.thm := rfl
@[simp] theorem popStore_fan (s : State) : (s.popStore).fan = s.fan := rfl
@[simp] theorem popStore_lvl (s : State) : (s.popStore).lvl = s.lvl := rfl
@[simp] theorem popStore_zns (s : State) : (s.popStore).zns = s.zns := rfl
@[simp] theorem popStore_car (s : State) : (s.popStore).car = s.car := rfl
@[simp] theorem popStore_fls (s : State) : (s.popStore).fls = s.fls := rfl
@[simp] theorem popStore_mnt (s : State) : (s.popStore).mnt = s.mnt := rfl
@[simp] theorem popStore_jrn (s : State) : (s.popStore).jrn = s.jrn := rfl
@[simp] theorem popStore_nv (s : State) : (s.popStore).nv = s.nv := rfl
@[simp] theorem popStore_nvNext (s : State) : (s.popStore).nvNext = s.nvNext := rfl
@[simp] theorem popStore_bpm (s : State) : (s.popStore).bpm = s.bpm := rfl
@[simp] theorem popStore_mem (s : State) : (s.popStore).mem = s.mem := rfl
@[simp] theorem popStore_cmp (s : State) : (s.popStore).cmp = s.cmp := rfl
@[simp] theorem popStore_fcd (s : State) : (s.popStore).fcd = s.fcd := rfl
@[simp] theorem popStore_hif (s : State) : (s.popStore).hif = s.hif := rfl
@[simp] theorem popStore_cpl (s : State) : (s.popStore).cpl = s.cpl := rfl
@[simp] theorem popStore_sec (s : State) : (s.popStore).sec = s.sec := rfl
@[simp] theorem popStore_svc (s : State) : (s.popStore).svc = s.svc := rfl
@[simp] theorem popStore_free (s : State) : (s.popStore).free = s.free := rfl
@[simp] theorem popStore_pending (s : State) : (s.popStore).pending = s.pending := rfl

/-! ### setConvSlot -/

@[simp] theorem setConvSlot_part (s : State) (z : Nat) (v : ConvSlot) : (s.setConvSlot z v).part = s.part := rfl
@[simp] theorem setConvSlot_boot (s : State) (z : Nat) (v : ConvSlot) : (s.setConvSlot z v).boot = s.boot := rfl
@[simp] theorem setConvSlot_pins (s : State) (z : Nat) (v : ConvSlot) : (s.setConvSlot z v).pins = s.pins := rfl
@[simp] theorem setConvSlot_pwr (s : State) (z : Nat) (v : ConvSlot) : (s.setConvSlot z v).pwr = s.pwr := rfl
@[simp] theorem setConvSlot_plog (s : State) (z : Nat) (v : ConvSlot) : (s.setConvSlot z v).plog = s.plog := rfl
@[simp] theorem setConvSlot_tim (s : State) (z : Nat) (v : ConvSlot) : (s.setConvSlot z v).tim = s.tim := rfl
@[simp] theorem setConvSlot_thm (s : State) (z : Nat) (v : ConvSlot) : (s.setConvSlot z v).thm = s.thm := rfl
@[simp] theorem setConvSlot_fan (s : State) (z : Nat) (v : ConvSlot) : (s.setConvSlot z v).fan = s.fan := rfl
@[simp] theorem setConvSlot_lvl (s : State) (z : Nat) (v : ConvSlot) : (s.setConvSlot z v).lvl = s.lvl := rfl
@[simp] theorem setConvSlot_car (s : State) (z : Nat) (v : ConvSlot) : (s.setConvSlot z v).car = s.car := rfl
@[simp] theorem setConvSlot_fls (s : State) (z : Nat) (v : ConvSlot) : (s.setConvSlot z v).fls = s.fls := rfl
@[simp] theorem setConvSlot_mnt (s : State) (z : Nat) (v : ConvSlot) : (s.setConvSlot z v).mnt = s.mnt := rfl
@[simp] theorem setConvSlot_jrn (s : State) (z : Nat) (v : ConvSlot) : (s.setConvSlot z v).jrn = s.jrn := rfl
@[simp] theorem setConvSlot_nv (s : State) (z : Nat) (v : ConvSlot) : (s.setConvSlot z v).nv = s.nv := rfl
@[simp] theorem setConvSlot_nvNext (s : State) (z : Nat) (v : ConvSlot) : (s.setConvSlot z v).nvNext = s.nvNext := rfl
@[simp] theorem setConvSlot_bpm (s : State) (z : Nat) (v : ConvSlot) : (s.setConvSlot z v).bpm = s.bpm := rfl
@[simp] theorem setConvSlot_mem (s : State) (z : Nat) (v : ConvSlot) : (s.setConvSlot z v).mem = s.mem := rfl
@[simp] theorem setConvSlot_cmp (s : State) (z : Nat) (v : ConvSlot) : (s.setConvSlot z v).cmp = s.cmp := rfl
@[simp] theorem setConvSlot_fcd (s : State) (z : Nat) (v : ConvSlot) : (s.setConvSlot z v).fcd = s.fcd := rfl
@[simp] theorem setConvSlot_kry (s : State) (z : Nat) (v : ConvSlot) : (s.setConvSlot z v).kry = s.kry := rfl
@[simp] theorem setConvSlot_hif (s : State) (z : Nat) (v : ConvSlot) : (s.setConvSlot z v).hif = s.hif := rfl
@[simp] theorem setConvSlot_cpl (s : State) (z : Nat) (v : ConvSlot) : (s.setConvSlot z v).cpl = s.cpl := rfl
@[simp] theorem setConvSlot_sec (s : State) (z : Nat) (v : ConvSlot) : (s.setConvSlot z v).sec = s.sec := rfl
@[simp] theorem setConvSlot_svc (s : State) (z : Nat) (v : ConvSlot) : (s.setConvSlot z v).svc = s.svc := rfl
@[simp] theorem setConvSlot_free (s : State) (z : Nat) (v : ConvSlot) : (s.setConvSlot z v).free = s.free := rfl
@[simp] theorem setConvSlot_pending (s : State) (z : Nat) (v : ConvSlot) : (s.setConvSlot z v).pending = s.pending := rfl

/-! ### setCplPort -/

@[simp] theorem setCplPort_part (s : State) (p : Nat) (v : CplPort) : (s.setCplPort p v).part = s.part := rfl
@[simp] theorem setCplPort_boot (s : State) (p : Nat) (v : CplPort) : (s.setCplPort p v).boot = s.boot := rfl
@[simp] theorem setCplPort_pins (s : State) (p : Nat) (v : CplPort) : (s.setCplPort p v).pins = s.pins := rfl
@[simp] theorem setCplPort_pwr (s : State) (p : Nat) (v : CplPort) : (s.setCplPort p v).pwr = s.pwr := rfl
@[simp] theorem setCplPort_plog (s : State) (p : Nat) (v : CplPort) : (s.setCplPort p v).plog = s.plog := rfl
@[simp] theorem setCplPort_tim (s : State) (p : Nat) (v : CplPort) : (s.setCplPort p v).tim = s.tim := rfl
@[simp] theorem setCplPort_thm (s : State) (p : Nat) (v : CplPort) : (s.setCplPort p v).thm = s.thm := rfl
@[simp] theorem setCplPort_fan (s : State) (p : Nat) (v : CplPort) : (s.setCplPort p v).fan = s.fan := rfl
@[simp] theorem setCplPort_lvl (s : State) (p : Nat) (v : CplPort) : (s.setCplPort p v).lvl = s.lvl := rfl
@[simp] theorem setCplPort_zns (s : State) (p : Nat) (v : CplPort) : (s.setCplPort p v).zns = s.zns := rfl
@[simp] theorem setCplPort_car (s : State) (p : Nat) (v : CplPort) : (s.setCplPort p v).car = s.car := rfl
@[simp] theorem setCplPort_fls (s : State) (p : Nat) (v : CplPort) : (s.setCplPort p v).fls = s.fls := rfl
@[simp] theorem setCplPort_mnt (s : State) (p : Nat) (v : CplPort) : (s.setCplPort p v).mnt = s.mnt := rfl
@[simp] theorem setCplPort_jrn (s : State) (p : Nat) (v : CplPort) : (s.setCplPort p v).jrn = s.jrn := rfl
@[simp] theorem setCplPort_nv (s : State) (p : Nat) (v : CplPort) : (s.setCplPort p v).nv = s.nv := rfl
@[simp] theorem setCplPort_nvNext (s : State) (p : Nat) (v : CplPort) : (s.setCplPort p v).nvNext = s.nvNext := rfl
@[simp] theorem setCplPort_bpm (s : State) (p : Nat) (v : CplPort) : (s.setCplPort p v).bpm = s.bpm := rfl
@[simp] theorem setCplPort_mem (s : State) (p : Nat) (v : CplPort) : (s.setCplPort p v).mem = s.mem := rfl
@[simp] theorem setCplPort_cmp (s : State) (p : Nat) (v : CplPort) : (s.setCplPort p v).cmp = s.cmp := rfl
@[simp] theorem setCplPort_fcd (s : State) (p : Nat) (v : CplPort) : (s.setCplPort p v).fcd = s.fcd := rfl
@[simp] theorem setCplPort_kry (s : State) (p : Nat) (v : CplPort) : (s.setCplPort p v).kry = s.kry := rfl
@[simp] theorem setCplPort_hif (s : State) (p : Nat) (v : CplPort) : (s.setCplPort p v).hif = s.hif := rfl
@[simp] theorem setCplPort_sec (s : State) (p : Nat) (v : CplPort) : (s.setCplPort p v).sec = s.sec := rfl
@[simp] theorem setCplPort_svc (s : State) (p : Nat) (v : CplPort) : (s.setCplPort p v).svc = s.svc := rfl
@[simp] theorem setCplPort_free (s : State) (p : Nat) (v : CplPort) : (s.setCplPort p v).free = s.free := rfl
@[simp] theorem setCplPort_pending (s : State) (p : Nat) (v : CplPort) : (s.setCplPort p v).pending = s.pending := rfl

/-! ### setPair -/

@[simp] theorem setPair_part (s : State) (x : Pair) : (s.setPair x).part = s.part := rfl
@[simp] theorem setPair_boot (s : State) (x : Pair) : (s.setPair x).boot = s.boot := rfl
@[simp] theorem setPair_pins (s : State) (x : Pair) : (s.setPair x).pins = s.pins := rfl
@[simp] theorem setPair_pwr (s : State) (x : Pair) : (s.setPair x).pwr = s.pwr := rfl
@[simp] theorem setPair_plog (s : State) (x : Pair) : (s.setPair x).plog = s.plog := rfl
@[simp] theorem setPair_tim (s : State) (x : Pair) : (s.setPair x).tim = s.tim := rfl
@[simp] theorem setPair_thm (s : State) (x : Pair) : (s.setPair x).thm = s.thm := rfl
@[simp] theorem setPair_fan (s : State) (x : Pair) : (s.setPair x).fan = s.fan := rfl
@[simp] theorem setPair_lvl (s : State) (x : Pair) : (s.setPair x).lvl = s.lvl := rfl
@[simp] theorem setPair_zns (s : State) (x : Pair) : (s.setPair x).zns = s.zns := rfl
@[simp] theorem setPair_car (s : State) (x : Pair) : (s.setPair x).car = s.car := rfl
@[simp] theorem setPair_fls (s : State) (x : Pair) : (s.setPair x).fls = s.fls := rfl
@[simp] theorem setPair_mnt (s : State) (x : Pair) : (s.setPair x).mnt = s.mnt := rfl
@[simp] theorem setPair_jrn (s : State) (x : Pair) : (s.setPair x).jrn = s.jrn := rfl
@[simp] theorem setPair_nv (s : State) (x : Pair) : (s.setPair x).nv = s.nv := rfl
@[simp] theorem setPair_nvNext (s : State) (x : Pair) : (s.setPair x).nvNext = s.nvNext := rfl
@[simp] theorem setPair_bpm (s : State) (x : Pair) : (s.setPair x).bpm = s.bpm := rfl
@[simp] theorem setPair_mem (s : State) (x : Pair) : (s.setPair x).mem = s.mem := rfl
@[simp] theorem setPair_cmp (s : State) (x : Pair) : (s.setPair x).cmp = s.cmp := rfl
@[simp] theorem setPair_fcd (s : State) (x : Pair) : (s.setPair x).fcd = s.fcd := rfl
@[simp] theorem setPair_kry (s : State) (x : Pair) : (s.setPair x).kry = s.kry := rfl
@[simp] theorem setPair_hif (s : State) (x : Pair) : (s.setPair x).hif = s.hif := rfl
@[simp] theorem setPair_sec (s : State) (x : Pair) : (s.setPair x).sec = s.sec := rfl
@[simp] theorem setPair_svc (s : State) (x : Pair) : (s.setPair x).svc = s.svc := rfl
@[simp] theorem setPair_free (s : State) (x : Pair) : (s.setPair x).free = s.free := rfl
@[simp] theorem setPair_pending (s : State) (x : Pair) : (s.setPair x).pending = s.pending := rfl

/-! ### setFanOut -/

@[simp] theorem setFanOut_part (s : State) (i : Nat) (f : FanOut → FanOut) : (s.setFanOut i f).part = s.part := rfl
@[simp] theorem setFanOut_boot (s : State) (i : Nat) (f : FanOut → FanOut) : (s.setFanOut i f).boot = s.boot := rfl
@[simp] theorem setFanOut_pins (s : State) (i : Nat) (f : FanOut → FanOut) : (s.setFanOut i f).pins = s.pins := rfl
@[simp] theorem setFanOut_pwr (s : State) (i : Nat) (f : FanOut → FanOut) : (s.setFanOut i f).pwr = s.pwr := rfl
@[simp] theorem setFanOut_plog (s : State) (i : Nat) (f : FanOut → FanOut) : (s.setFanOut i f).plog = s.plog := rfl
@[simp] theorem setFanOut_tim (s : State) (i : Nat) (f : FanOut → FanOut) : (s.setFanOut i f).tim = s.tim := rfl
@[simp] theorem setFanOut_thm (s : State) (i : Nat) (f : FanOut → FanOut) : (s.setFanOut i f).thm = s.thm := rfl
@[simp] theorem setFanOut_lvl (s : State) (i : Nat) (f : FanOut → FanOut) : (s.setFanOut i f).lvl = s.lvl := rfl
@[simp] theorem setFanOut_zns (s : State) (i : Nat) (f : FanOut → FanOut) : (s.setFanOut i f).zns = s.zns := rfl
@[simp] theorem setFanOut_car (s : State) (i : Nat) (f : FanOut → FanOut) : (s.setFanOut i f).car = s.car := rfl
@[simp] theorem setFanOut_fls (s : State) (i : Nat) (f : FanOut → FanOut) : (s.setFanOut i f).fls = s.fls := rfl
@[simp] theorem setFanOut_mnt (s : State) (i : Nat) (f : FanOut → FanOut) : (s.setFanOut i f).mnt = s.mnt := rfl
@[simp] theorem setFanOut_jrn (s : State) (i : Nat) (f : FanOut → FanOut) : (s.setFanOut i f).jrn = s.jrn := rfl
@[simp] theorem setFanOut_nv (s : State) (i : Nat) (f : FanOut → FanOut) : (s.setFanOut i f).nv = s.nv := rfl
@[simp] theorem setFanOut_nvNext (s : State) (i : Nat) (f : FanOut → FanOut) : (s.setFanOut i f).nvNext = s.nvNext := rfl
@[simp] theorem setFanOut_bpm (s : State) (i : Nat) (f : FanOut → FanOut) : (s.setFanOut i f).bpm = s.bpm := rfl
@[simp] theorem setFanOut_mem (s : State) (i : Nat) (f : FanOut → FanOut) : (s.setFanOut i f).mem = s.mem := rfl
@[simp] theorem setFanOut_cmp (s : State) (i : Nat) (f : FanOut → FanOut) : (s.setFanOut i f).cmp = s.cmp := rfl
@[simp] theorem setFanOut_fcd (s : State) (i : Nat) (f : FanOut → FanOut) : (s.setFanOut i f).fcd = s.fcd := rfl
@[simp] theorem setFanOut_kry (s : State) (i : Nat) (f : FanOut → FanOut) : (s.setFanOut i f).kry = s.kry := rfl
@[simp] theorem setFanOut_hif (s : State) (i : Nat) (f : FanOut → FanOut) : (s.setFanOut i f).hif = s.hif := rfl
@[simp] theorem setFanOut_cpl (s : State) (i : Nat) (f : FanOut → FanOut) : (s.setFanOut i f).cpl = s.cpl := rfl
@[simp] theorem setFanOut_sec (s : State) (i : Nat) (f : FanOut → FanOut) : (s.setFanOut i f).sec = s.sec := rfl
@[simp] theorem setFanOut_svc (s : State) (i : Nat) (f : FanOut → FanOut) : (s.setFanOut i f).svc = s.svc := rfl
@[simp] theorem setFanOut_free (s : State) (i : Nat) (f : FanOut → FanOut) : (s.setFanOut i f).free = s.free := rfl
@[simp] theorem setFanOut_pending (s : State) (i : Nat) (f : FanOut → FanOut) : (s.setFanOut i f).pending = s.pending := rfl

/-! ### setCluster -/

@[simp] theorem setCluster_part (s : State) (k : Nat) (f : ClusterCfg → ClusterCfg) : (s.setCluster k f).part = s.part := rfl
@[simp] theorem setCluster_boot (s : State) (k : Nat) (f : ClusterCfg → ClusterCfg) : (s.setCluster k f).boot = s.boot := rfl
@[simp] theorem setCluster_pins (s : State) (k : Nat) (f : ClusterCfg → ClusterCfg) : (s.setCluster k f).pins = s.pins := rfl
@[simp] theorem setCluster_pwr (s : State) (k : Nat) (f : ClusterCfg → ClusterCfg) : (s.setCluster k f).pwr = s.pwr := rfl
@[simp] theorem setCluster_plog (s : State) (k : Nat) (f : ClusterCfg → ClusterCfg) : (s.setCluster k f).plog = s.plog := rfl
@[simp] theorem setCluster_tim (s : State) (k : Nat) (f : ClusterCfg → ClusterCfg) : (s.setCluster k f).tim = s.tim := rfl
@[simp] theorem setCluster_thm (s : State) (k : Nat) (f : ClusterCfg → ClusterCfg) : (s.setCluster k f).thm = s.thm := rfl
@[simp] theorem setCluster_fan (s : State) (k : Nat) (f : ClusterCfg → ClusterCfg) : (s.setCluster k f).fan = s.fan := rfl
@[simp] theorem setCluster_lvl (s : State) (k : Nat) (f : ClusterCfg → ClusterCfg) : (s.setCluster k f).lvl = s.lvl := rfl
@[simp] theorem setCluster_zns (s : State) (k : Nat) (f : ClusterCfg → ClusterCfg) : (s.setCluster k f).zns = s.zns := rfl
@[simp] theorem setCluster_car (s : State) (k : Nat) (f : ClusterCfg → ClusterCfg) : (s.setCluster k f).car = s.car := rfl
@[simp] theorem setCluster_mnt (s : State) (k : Nat) (f : ClusterCfg → ClusterCfg) : (s.setCluster k f).mnt = s.mnt := rfl
@[simp] theorem setCluster_jrn (s : State) (k : Nat) (f : ClusterCfg → ClusterCfg) : (s.setCluster k f).jrn = s.jrn := rfl
@[simp] theorem setCluster_nv (s : State) (k : Nat) (f : ClusterCfg → ClusterCfg) : (s.setCluster k f).nv = s.nv := rfl
@[simp] theorem setCluster_nvNext (s : State) (k : Nat) (f : ClusterCfg → ClusterCfg) : (s.setCluster k f).nvNext = s.nvNext := rfl
@[simp] theorem setCluster_bpm (s : State) (k : Nat) (f : ClusterCfg → ClusterCfg) : (s.setCluster k f).bpm = s.bpm := rfl
@[simp] theorem setCluster_mem (s : State) (k : Nat) (f : ClusterCfg → ClusterCfg) : (s.setCluster k f).mem = s.mem := rfl
@[simp] theorem setCluster_cmp (s : State) (k : Nat) (f : ClusterCfg → ClusterCfg) : (s.setCluster k f).cmp = s.cmp := rfl
@[simp] theorem setCluster_fcd (s : State) (k : Nat) (f : ClusterCfg → ClusterCfg) : (s.setCluster k f).fcd = s.fcd := rfl
@[simp] theorem setCluster_kry (s : State) (k : Nat) (f : ClusterCfg → ClusterCfg) : (s.setCluster k f).kry = s.kry := rfl
@[simp] theorem setCluster_hif (s : State) (k : Nat) (f : ClusterCfg → ClusterCfg) : (s.setCluster k f).hif = s.hif := rfl
@[simp] theorem setCluster_cpl (s : State) (k : Nat) (f : ClusterCfg → ClusterCfg) : (s.setCluster k f).cpl = s.cpl := rfl
@[simp] theorem setCluster_sec (s : State) (k : Nat) (f : ClusterCfg → ClusterCfg) : (s.setCluster k f).sec = s.sec := rfl
@[simp] theorem setCluster_svc (s : State) (k : Nat) (f : ClusterCfg → ClusterCfg) : (s.setCluster k f).svc = s.svc := rfl
@[simp] theorem setCluster_free (s : State) (k : Nat) (f : ClusterCfg → ClusterCfg) : (s.setCluster k f).free = s.free := rfl
@[simp] theorem setCluster_pending (s : State) (k : Nat) (f : ClusterCfg → ClusterCfg) : (s.setCluster k f).pending = s.pending := rfl

/-! ### setCopy -/

@[simp] theorem setCopy_part (s : State) (i : Nat) (c : OptCopy) : (s.setCopy i c).part = s.part := rfl
@[simp] theorem setCopy_boot (s : State) (i : Nat) (c : OptCopy) : (s.setCopy i c).boot = s.boot := rfl
@[simp] theorem setCopy_pins (s : State) (i : Nat) (c : OptCopy) : (s.setCopy i c).pins = s.pins := rfl
@[simp] theorem setCopy_pwr (s : State) (i : Nat) (c : OptCopy) : (s.setCopy i c).pwr = s.pwr := rfl
@[simp] theorem setCopy_plog (s : State) (i : Nat) (c : OptCopy) : (s.setCopy i c).plog = s.plog := rfl
@[simp] theorem setCopy_tim (s : State) (i : Nat) (c : OptCopy) : (s.setCopy i c).tim = s.tim := rfl
@[simp] theorem setCopy_thm (s : State) (i : Nat) (c : OptCopy) : (s.setCopy i c).thm = s.thm := rfl
@[simp] theorem setCopy_fan (s : State) (i : Nat) (c : OptCopy) : (s.setCopy i c).fan = s.fan := rfl
@[simp] theorem setCopy_lvl (s : State) (i : Nat) (c : OptCopy) : (s.setCopy i c).lvl = s.lvl := rfl
@[simp] theorem setCopy_zns (s : State) (i : Nat) (c : OptCopy) : (s.setCopy i c).zns = s.zns := rfl
@[simp] theorem setCopy_car (s : State) (i : Nat) (c : OptCopy) : (s.setCopy i c).car = s.car := rfl
@[simp] theorem setCopy_fls (s : State) (i : Nat) (c : OptCopy) : (s.setCopy i c).fls = s.fls := rfl
@[simp] theorem setCopy_mnt (s : State) (i : Nat) (c : OptCopy) : (s.setCopy i c).mnt = s.mnt := rfl
@[simp] theorem setCopy_jrn (s : State) (i : Nat) (c : OptCopy) : (s.setCopy i c).jrn = s.jrn := rfl
@[simp] theorem setCopy_nv (s : State) (i : Nat) (c : OptCopy) : (s.setCopy i c).nv = s.nv := rfl
@[simp] theorem setCopy_nvNext (s : State) (i : Nat) (c : OptCopy) : (s.setCopy i c).nvNext = s.nvNext := rfl
@[simp] theorem setCopy_bpm (s : State) (i : Nat) (c : OptCopy) : (s.setCopy i c).bpm = s.bpm := rfl
@[simp] theorem setCopy_mem (s : State) (i : Nat) (c : OptCopy) : (s.setCopy i c).mem = s.mem := rfl
@[simp] theorem setCopy_cmp (s : State) (i : Nat) (c : OptCopy) : (s.setCopy i c).cmp = s.cmp := rfl
@[simp] theorem setCopy_fcd (s : State) (i : Nat) (c : OptCopy) : (s.setCopy i c).fcd = s.fcd := rfl
@[simp] theorem setCopy_kry (s : State) (i : Nat) (c : OptCopy) : (s.setCopy i c).kry = s.kry := rfl
@[simp] theorem setCopy_hif (s : State) (i : Nat) (c : OptCopy) : (s.setCopy i c).hif = s.hif := rfl
@[simp] theorem setCopy_cpl (s : State) (i : Nat) (c : OptCopy) : (s.setCopy i c).cpl = s.cpl := rfl
@[simp] theorem setCopy_svc (s : State) (i : Nat) (c : OptCopy) : (s.setCopy i c).svc = s.svc := rfl
@[simp] theorem setCopy_free (s : State) (i : Nat) (c : OptCopy) : (s.setCopy i c).free = s.free := rfl
@[simp] theorem setCopy_pending (s : State) (i : Nat) (c : OptCopy) : (s.setCopy i c).pending = s.pending := rfl

/-! ### What an accessor reads after the update of its own table -/

theorem zone_setZone (s : State) (z j : Nat) (v : Zone) (hc : canon Zone.none s.zns.zones = true) :
    (s.setZone z v).zone j = if j = z then v else s.zone j := look_put_if _ _ _ _ _ hc
theorem zone_setZone_other (s : State) (z j : Nat) (v : Zone) (ne : j ≠ z) : (s.setZone z v).zone j = s.zone j :=
  look_put_other _ _ _ _ _ ne
theorem pgroup_setPgroup (s : State) (p j : Nat) (v : Option PGroup) (hc : canon Option.none s.zns.pgroups = true) :
    (s.setPgroup p v).pgroup j = if j = p then v else s.pgroup j := look_put_if _ _ _ _ _ hc
theorem pgroup_setPgroup_other (s : State) (p j : Nat) (v : Option PGroup) (ne : j ≠ p) : (s.setPgroup p v).pgroup j = s.pgroup j :=
  look_put_other _ _ _ _ _ ne
theorem space_setSpace (s : State) (n j : Nat) (v : Option NsEntry) (hc : canon Option.none s.zns.spaces = true) :
    (s.setSpace n v).space j = if j = n then v else s.space j := look_put_if _ _ _ _ _ hc
theorem space_setSpace_other (s : State) (n j : Nat) (v : Option NsEntry) (ne : j ≠ n) : (s.setSpace n v).space j = s.space j :=
  look_put_other _ _ _ _ _ ne
theorem comp_setComp (s : State) (c j : Nat) (v : Comp) (hc : canon Comp.free s.cmp.table = true) :
    (s.setComp c v).comp j = if j = c then v else s.comp j := look_put_if _ _ _ _ _ hc
theorem comp_setComp_other (s : State) (c j : Nat) (v : Comp) (ne : j ≠ c) : (s.setComp c v).comp j = s.comp j :=
  look_put_other _ _ _ _ _ ne
theorem carriage_setCarriage (s : State) (n j : Nat) (v : Carriage) (hc : canon Carriage.none s.car.table = true) :
    (s.setCarriage n v).carriage j = if j = n then v else s.carriage j := look_put_if _ _ _ _ _ hc
theorem carriage_setCarriage_other (s : State) (n j : Nat) (v : Carriage) (ne : j ≠ n) : (s.setCarriage n v).carriage j = s.carriage j :=
  look_put_other _ _ _ _ _ ne
theorem die_setDie (s : State) (d j : Nat) (v : Die) (hc : canon Die.idle s.fls.dies = true) :
    (s.setDie d v).die j = if j = d then v else s.die j := look_put_if _ _ _ _ _ hc
theorem die_setDie_other (s : State) (d j : Nat) (v : Die) (ne : j ≠ d) : (s.setDie d v).die j = s.die j :=
  look_put_other _ _ _ _ _ ne
theorem codecCtx_setCodecCtx (s : State) (c j : Nat) (v : CodecCtx) (hc : canon CodecCtx.none s.fcd.ctxs = true) :
    (s.setCodecCtx c v).codecCtx j = if j = c then v else s.codecCtx j := look_put_if _ _ _ _ _ hc
theorem codecCtx_setCodecCtx_other (s : State) (c j : Nat) (v : CodecCtx) (ne : j ≠ c) : (s.setCodecCtx c v).codecCtx j = s.codecCtx j :=
  look_put_other _ _ _ _ _ ne
theorem kctx_setKctx (s : State) (c j : Nat) (v : Option KCtx) (hc : canon Option.none s.kry.ctxs = true) :
    (s.setKctx c v).kctx j = if j = c then v else s.kctx j := look_put_if _ _ _ _ _ hc
theorem kctx_setKctx_other (s : State) (c j : Nat) (v : Option KCtx) (ne : j ≠ c) : (s.setKctx c v).kctx j = s.kctx j :=
  look_put_other _ _ _ _ _ ne
theorem kinst_setKinst (s : State) (i j : Nat) (v : Option KInst) (hc : canon Option.none s.kry.insts = true) :
    (s.setKinst i v).kinst j = if j = i then v else s.kinst j := look_put_if _ _ _ _ _ hc
theorem kinst_setKinst_other (s : State) (i j : Nat) (v : Option KInst) (ne : j ≠ i) : (s.setKinst i v).kinst j = s.kinst j :=
  look_put_other _ _ _ _ _ ne
theorem buf_setBuf (s : State) (h j : Nat) (v : Option Buf) (hc : canon Option.none s.bpm.bufs = true) :
    (s.setBuf h v).buf j = if j = h then v else s.buf j := look_put_if _ _ _ _ _ hc
theorem buf_setBuf_other (s : State) (h j : Nat) (v : Option Buf) (ne : j ≠ h) : (s.setBuf h v).buf j = s.buf j :=
  look_put_other _ _ _ _ _ ne

end Sys2Proof.Machine.State
end

