-- ==== Sys2Proof/Laws/Event.lean ====
section
/-! SUPPORT. What raising an event and posting a completion can change: the host's side, the pins, the clocks, the compartments'
interrupt bits and the event queues of the reels, and nothing else. -/

namespace Sys2Proof.Machine

/-- What an event or a completion leaves: `t` differs from `s` in the clocks, the host link, the compartments' interrupt bits, the
pins and the reels' event queues alone. -/
structure EventFrame (s t : State) : Prop where
  rest : t = { s with lvl := { s.lvl with clocks := t.lvl.clocks }, hif := t.hif, kry := { s.kry with insts := t.kry.insts }
                      cmp := t.cmp, pins := t.pins }
  gone : ∀ j, s.kinst j = none → t.kinst j = none
  kept : ∀ j x, s.kinst j = some x →
    ∃ y, t.kinst j = some y ∧ y = { x with events := y.events, eventsLost := y.eventsLost }

namespace EventFrame

theorem refl (s : State) : EventFrame s s := ⟨rfl, fun _ h => h, fun _ x h => ⟨x, h, rfl⟩⟩

theorem trans {s t u : State} (a : EventFrame s t) (b : EventFrame t u) : EventFrame s u := by
  refine ⟨?_, fun j h => b.gone j (a.gone j h), ?_⟩
  · have h1 := a.rest; have h2 := b.rest; rw [h2, h1]
  · intro j x h
    obtain ⟨y, h1, h2⟩ := a.kept j x h
    obtain ⟨z, h3, h4⟩ := b.kept j y h1
    exact ⟨z, h3, by rw [h4, h2]⟩

theorem host (s : State) (h : HostLink) : EventFrame s { s with hif := h } := ⟨rfl, fun _ h => h, fun _ x h => ⟨x, h, rfl⟩⟩
theorem comps (s : State) (h : Comps) : EventFrame s { s with cmp := h } := ⟨rfl, fun _ h => h, fun _ x h => ⟨x, h, rfl⟩⟩
theorem pins (s : State) (p : Pins) : EventFrame s { s with pins := p } := ⟨rfl, fun _ h => h, fun _ x h => ⟨x, h, rfl⟩⟩
theorem clocks (s : State) (m : BitVec 256) : EventFrame s (s.startClocks m) := ⟨rfl, fun _ h => h, fun _ x h => ⟨x, h, rfl⟩⟩

theorem ite {s t u : State} {c : Prop} [Decidable c] (a : EventFrame s t) (b : EventFrame s u) :
    EventFrame s (if c then t else u) := by split <;> assumption

theorem foldl {α : Type} (f : State → α → State) (hf : ∀ s x, EventFrame s (f s x)) (l : List α) : ∀ s, EventFrame s (l.foldl f s) := by
  induction l with
  | nil => exact refl
  | cons a l ih => exact fun s => (hf s a).trans (ih _)

theorem reels (s : State) (e : EvRec) : EventFrame s (s.toReels e) := by
  refine ⟨rfl, ?_, ?_⟩
  · intro j h
    simp only [State.toReels, State.kinst] at *
    rw [look_map none none (fun p => Option.map (fun i => State.KInst.hears i (s.instComp i) e) p) rfl, h]; rfl
  · intro j x h
    simp only [State.toReels, State.kinst] at *
    rw [look_map none none (fun p => Option.map (fun i => State.KInst.hears i (s.instComp i) e) p) rfl, h]
    refine ⟨_, rfl, ?_⟩
    simp only [State.KInst.hears]; repeat' split
    all_goals rfl

end EventFrame

theorem interrupt_frame (s : State) (p v : Nat) : EventFrame s (s.interrupt p v) := by
  unfold State.interrupt; exact .ite (.host _ _) (.host _ _)

theorem compIrq_frame (s : State) (c b : Nat) : EventFrame s (s.compIrq c b) := by
  unfold State.compIrq
  exact .ite (.comps _ _) ((EventFrame.comps s _).trans (interrupt_frame _ _ _))

theorem toStewardRing_frame (s : State) (e : EvRec) : EventFrame s (s.toStewardRing e) := by
  unfold State.toStewardRing
  split
  · exact .host _ _
  · split
    · exact .host _ _
    · exact .ite ((EventFrame.host s _).trans (interrupt_frame _ _ _)) (.host _ _)

theorem toCompRing_frame (s : State) (e : EvRec) : EventFrame s (s.toCompRing e) := by
  unfold State.toCompRing
  refine .ite (.refl s) ?_
  split
  · exact .refl s
  · split
    · exact (EventFrame.host s _).trans (compIrq_frame _ _ _)
    · exact (EventFrame.host s _).trans (compIrq_frame _ _ _)

/-- What raising an event leaves. -/
theorem raise_frame (s : State) (code level source c : Nat) (p : Payload) : EventFrame s (s.raise code level source c p) := by
  unfold State.raise
  extract_lets e src s1 s2 s3
  have h1 : EventFrame s s1 := (EventFrame.host s _).trans (.clocks _ _)
  clear_value s1
  have h2 : EventFrame s s2 := .ite (h1.trans (.host _ _)) h1
  clear_value s2
  have h3 : EventFrame s s3 := ((h2.trans (toStewardRing_frame _ e)).trans (toCompRing_frame _ e)).trans (.reels _ e)
  clear_value s3
  exact .ite (h3.trans (.pins _ _)) h3

/-- What an event leaves. -/
theorem event_frame (s : State) (code level source c : Nat) (fields : List Int) : EventFrame s (s.event code level source c fields) :=
  raise_frame _ _ _ _ _ _

theorem logError_frame (s : State) (h : HostCmd) (e : ErrRec) : EventFrame s (s.logError h e) := by
  unfold State.logError State.setPort
  exact .ite (.ite (.host _ _) (.host _ _)) (.host _ _)

theorem cqPush_frame (s : State) (h : HostCmd) : EventFrame s (s.cqPush h) := EventFrame.host _ _

/-- What posting a completion leaves. -/
theorem complete_frame (s : State) (h : HostCmd) (st : Status) (a b : BitVec 32) : EventFrame s (s.complete h st a b) := by
  unfold State.complete
  extract_lets c s0 s1
  have h0 : EventFrame s s0 := ((EventFrame.clocks s _).trans (cqPush_frame _ h)).trans (.host _ _)
  clear_value s0
  have h1 : EventFrame s s1 := .ite (h0.trans (interrupt_frame _ _ _)) h0
  clear_value s1
  exact .ite h1 (h1.trans (logError_frame _ _ _))

theorem fail_frame (s : State) (h : HostCmd) (st : Status) : EventFrame s (s.fail h st) := complete_frame _ _ _ _ _
theorem done_frame (s : State) (h : HostCmd) (a : BitVec 32) : EventFrame s (s.done h a) := complete_frame _ _ _ _ _

end Sys2Proof.Machine
end

