-- ==== Sys2Proof/Laws/Reel.lean ====
section
/-! SUPPORT. What the issue of a reel's instruction does: the context table read back, the traps that a ready context does not
take, and what a local instruction leaves (R281, R282). -/

namespace Sys2Proof.Machine

open Sys2Proof.Machine.State

/-- A context just set reads back. -/
@[simp] theorem kctx_setKctx (s : State) (c : Nat) (k : KCtx) : (s.setKctx c (some k)).kctx c = some k := by
  simp [setKctx, kctx, look_put_of_ne]

/-- Setting one context leaves every other as it was. -/
theorem kctx_setKctx_other (s : State) (c d : Nat) (k : Option KCtx) (h : d ≠ c) : (s.setKctx c k).kctx d = s.kctx d := by
  simp [setKctx, kctx, look_put_other _ _ _ _ _ h]

/-- A context emptied reads empty, in the table's canonical form. -/
theorem kctx_setKctx_none (s : State) (c : Nat) (h : ReelTables s) : (s.setKctx c none).kctx c = none :=
  look_put none s.kry.ctxs c none h.1

/-- A reel whose context issues an instruction is bound to an instance. -/
theorem inst_of_issues {s : State} {op : Nat} {w : KWord} {k : KCtx} (h : s.issues op w = true) (hk : s.kctx w.ctx = some k) :
    ∃ i, s.kinst k.inst = some i := by
  unfold issues at h
  rw [hk] at h
  cases hi : s.kinst k.inst with
  | none => simp [hi] at h
  | some i => exact ⟨i, rfl⟩

/-- None of the checks that every instruction makes (R281) fires in a ready context. -/
theorem ready_no_trap {s : State} {f : Form} {free : Bool} {w : KWord} {k : KCtx} (h : Ready s f free w k) :
    ∀ x ∈ s.baseTraps k free (badForm f w), x.1 = false := by
  obtain ⟨_, _, _, intact, budget, aligned, inside, form⟩ := h
  simp only [baseTraps, codeTraps, imageEnd, List.mem_append, List.mem_cons, List.mem_nil_iff, or_false]
  intro x hx
  rcases hx with (((rfl | rfl) | (rfl | rfl)) | rfl)
  · simp only [List.any_eq_false]
    intro y hy
    cases y <;> simp_all
    intro e; subst e
    exact intact _ _ hy rfl
  · rcases budget with hb | hb
    · simp [hb]
    · simp; intro; omega
  · simp [aligned]
  · show (decide (k.pc < 64) || decide (64 + k.codeLen ≤ k.pc)) = false
    simp only [Bool.or_eq_false_iff, decide_eq_false_iff_not]; omega
  · simp [form]

/-- Checks that do not fire leave the trap to the ones after them. -/
theorem firstTrap_append_none {a b : List TrapIf} (h : ∀ x ∈ a, x.1 = false) : firstTrap (a ++ b) = firstTrap b := by
  unfold firstTrap
  rw [List.find?_append, List.find?_eq_none.2 (by intro x hx; simp [h x hx])]
  simp

/-- A retiring instruction moves its own context on. -/
theorem kctx_retire (s : State) (c next : Nat) (k : KCtx) :
    ((s.setKctx c (some k)).retire_ c next).kctx c = some (stepped k next) := by
  simp only [retire_, modK, kctx_setKctx]
  exact kctx_setKctx _ _ _

/-- A retiring instruction leaves every other context as it was. -/
theorem kctx_retire_other (s : State) (c d next : Nat) (k : KCtx) (h : d ≠ c) :
    ((s.setKctx c (some k)).retire_ c next).kctx d = s.kctx d := by
  simp only [retire_, modK, kctx_setKctx]
  show State.kctx (State.setKctx _ _ _) d = _
  rw [kctx_setKctx_other _ _ _ _ h, kctx_setKctx_other _ _ _ _ h]

/-- A local instruction that no check stops: its effect on the context, and the context retired. -/
theorem runLocal_ready {s : State} {n : String} {f : Form} {w : KWord} {k : KCtx} {ts : KCtx → List TrapIf}
    {eff : KCtx → KCtx × Nat} (h : Ready s f false w k) (ht : firstTrap (ts k) = none) :
    s.runLocal n f w ts eff = .next (((s.reelIssues w.ctx).setKctx w.ctx (some (eff k).1)).retire_ w.ctx (eff k).2) := by
  unfold runLocal
  rw [h.here]
  simp only [h.issues, arises]
  rw [firstTrap_append_none (ready_no_trap h), ht]
  simp

/-- A local instruction that one of its own checks stops: the reel is trapped with that code and detail. -/
theorem runLocal_trap {s : State} {n : String} {f : Form} {w : KWord} {k : KCtx} {ts : KCtx → List TrapIf}
    {eff : KCtx → KCtx × Nat} {x : Nat × Nat} (h : Ready s f false w k) (ht : firstTrap (ts k) = some x) :
    s.runLocal n f w ts eff = .next ((s.reelIssues w.ctx).trapReel w.ctx x) := by
  unfold runLocal
  rw [h.here]
  simp only [h.issues, arises]
  rw [firstTrap_append_none (ready_no_trap h), ht]
  simp

/-- What a local instruction that retires leaves: its context, and nothing outside the reel's part. -/
theorem retires_of_runLocal {i : Instr} {s : State} {n : String} {f : Form} {w : KWord} {k : KCtx} {ts : KCtx → List TrapIf}
    {eff : KCtx → KCtx × Nat} (hi : exec i s = s.runLocal n f w ts eff) (h : Ready s f false w k)
    (ht : firstTrap (ts k) = none) : Retires i s w.ctx (stepped (eff k).1 (eff k).2) := by
  refine ⟨_, hi.trans (runLocal_ready h ht), kctx_retire _ _ _ _, fun d hd => ?_, ?_⟩
  · rw [kctx_retire_other _ _ _ _ _ hd]; rfl
  · simp only [retire_, modK, kctx_setKctx]; rfl

end Sys2Proof.Machine
end

