-- ==== Sys2Proof/Machine/Signals.lean ====
section
/-! DEFINITION. The connectors: what every contact carries, the order in which contacts mate, what each outward signal does in
every state of the module, and the lines of the diagnostic UART (R441, R443 to R448, R450, R459). -/

namespace Sys2Proof.Machine

/-! ### Contacts (R441, R443 to R445, R447, R448) -/

/-- The two sides of a connector (R441). -/
inductive Side where
  | a | b
deriving DecidableEq, Repr

/-- One wire of a differential pair. -/
inductive Wire where
  | pos | neg
deriving DecidableEq, Repr

/-- The signals of HX (R443). -/
inductive HxSignal where
  | gnd | refclkA (w : Wire) | refclkB (w : Wire) | hsi (lane : Nat) (w : Wire) | hso (lane : Nat) (w : Wire)
  | mgmtScl | mgmtSda | ppsIn | ppsOut | fanCmd | modOk | alertN | reserved | prsntN | perstAN | perstBN | clkreqN | wakeN
  | pwrEn | modId (bit : Nat)
deriving DecidableEq, Repr

/-- What a contact of HX carries; none for a contact that is not there (R443). -/
def hxContact (side : Side) (n : Nat) : Option HxSignal :=
  if n = 0 ∨ 84 < n then none
  else if n = 84 then some .prsntN
  else if 8 ≤ n ∧ n ≤ 55 then
    let lane := (n - 8) / 3
    let pair := fun (w : Wire) => match side with
      | .a => some (HxSignal.hsi lane w)
      | .b => some (HxSignal.hso lane w)
    match (n - 8) % 3 with
    | 0 => pair .pos
    | 1 => pair .neg
    | _ => some .gnd
  else match side, n with
    | .a, 1 | .a, 4 | .a, 7 | .a, 56 | .a, 59 | .a, 61 | .a, 63 | .a, 65 | .a, 68 => some .gnd
    | .b, 1 | .b, 7 | .b, 56 | .b, 60 => some .gnd
    | .a, 2 => some (.refclkA .pos)
    | .a, 3 => some (.refclkA .neg)
    | .a, 5 => some (.refclkB .pos)
    | .a, 6 => some (.refclkB .neg)
    | .a, 57 => some .mgmtScl
    | .a, 58 => some .mgmtSda
    | .a, 60 => some .ppsIn
    | .a, 62 => some .ppsOut
    | .a, 64 => some .fanCmd
    | .a, 66 => some .modOk
    | .a, 67 => some .alertN
    | .b, 2 => some .perstAN
    | .b, 3 => some .perstBN
    | .b, 4 => some .clkreqN
    | .b, 5 => some .wakeN
    | .b, 6 => some .pwrEn
    | .b, 57 => some (.modId 0)
    | .b, 58 => some (.modId 1)
    | .b, 59 => some (.modId 2)
    | _, _ => some .reserved

/-- Port and lane of lane `n` of the connector (R443). -/
def portLane (dual : Bool) (n : Nat) : Nat × Nat := if dual then (n / 8, n % 8) else (0, n)

/-- The signals of PX (R444). -/
inductive PxSignal where
  | vin | vinSns | vrtn | vrtnSns
deriving DecidableEq, Repr

/-- What a contact of PX carries (R444). -/
def pxContact (side : Side) (n : Nat) : Option PxSignal :=
  if n = 0 ∨ 5 < n then none
  else match side with
    | .a => some (if n = 5 then .vinSns else .vin)
    | .b => some (if n = 5 then .vrtnSns else .vrtn)

/-- The stage, 1 to 3, in which a contact of HX or PX mates; on extraction the stages break in the reverse order (R441). -/
def HxSignal.stage : HxSignal → Nat
  | .gnd => 1
  | .prsntN => 3
  | _ => 2
def PxSignal.stage : PxSignal → Nat
  | .vrtn => 1
  | .vin => 2
  | .vinSns | .vrtnSns => 3

/-- The signals of CX-A and CX-B (R445): pair `k`, 0 to 7. -/
inductive CxSignal where
  | gnd | ctx (k : Nat) (w : Wire) | crx (k : Nat) (w : Wire) | cblPrsntLoN | cblPrsntHiN | reserved
deriving DecidableEq, Repr

/-- What a contact of CX-A or CX-B carries (R445). -/
def cxContact (side : Side) (n : Nat) : Option CxSignal :=
  if n = 0 ∨ 28 < n then none
  else if n = 1 ∨ n = 28 then some .gnd
  else if n ≤ 25 then
    let k := (n - 2) / 3
    match (n - 2) % 3, side with
    | 0, .a => some (.ctx k .pos)
    | 1, .a => some (.ctx k .neg)
    | 0, .b => some (.crx k .pos)
    | 1, .b => some (.crx k .neg)
    | _, _ => some .gnd
  else match side with
    | .a => some (if n = 26 then .cblPrsntLoN else .cblPrsntHiN)
    | .b => some .reserved

/-- Coupler port and lane of pair `k` of a connector, 0 for CX-A and 1 for CX-B (R445). -/
def couplerLane (connector k : Nat) : Nat × Nat := (2 * connector + k / 4, k % 4)

/-- The contacts of a fan connector (R447) and of DX (R448). -/
inductive FxSignal where
  | fanU | fanV | fanW | shield
deriving DecidableEq, Repr
def fxContact (side : Side) (n : Nat) : Option FxSignal :=
  match side, n with
  | .a, 1 => some .fanU
  | .a, 2 => some .fanV
  | .b, 1 => some .fanW
  | .b, 2 => some .shield
  | _, _ => none
inductive DxSignal where
  | tck | tms | tdi | tdo | trstN | gnd | uartTxd | uartRxd | vref
deriving DecidableEq, Repr
def dxContact (side : Side) (n : Nat) : Option DxSignal :=
  match side, n with
  | .a, 1 => some .tck
  | .a, 2 => some .tms
  | .a, 3 => some .tdi
  | .a, 4 => some .tdo
  | .a, 5 => some .trstN
  | .b, 1 | .b, 5 => some .gnd
  | .b, 2 => some .uartTxd
  | .b, 3 => some .uartRxd
  | .b, 4 => some .vref
  | _, _ => none

/-! ### Outward signals (R459) -/

/-- The columns of R459. -/
inductive Phase where
  | unpowered | reset | off | running | flush
deriving DecidableEq, Repr

/-- What an outward signal does. -/
inductive Drive where
  | highZ | undriven | low | high
  /-- Open drain, not pulled low. -/
  | released
  | electricalIdle | training | linkUp
  /-- The link is in L1.2. -/
  | asleep
  /-- Driven as its own rules say: a fan's phases, a coupler's pairs, UART lines, the management bus. -/
  | driven
  /-- Driven only while the test access port shifts. -/
  | whileShifting
deriving DecidableEq, Repr

namespace State

/-- The column of R459 that the module stands in. -/
def phase (s : State) : Phase :=
  match s.pwr.pstate with
  | .dark => .unpowered
  | .starting => .reset
  | .asleep .off => .off
  | .flushing n => if n ≤ 5 then .flush else .off
  | .run | .idle | .entering _ _ | .asleep _ | .waking _ _ => .running

/-- What a port's link does. -/
def linkDrive (p : Port) : Drive :=
  if p.l12 then .asleep else if p.linkUp then .linkUp else if p.training then .training else .electricalIdle

/-- The `HSO` pairs of a port. -/
def hsoPairs (s : State) (port : Nat) : Drive :=
  match s.phase with
  | .unpowered | .off => .undriven
  | .reset | .running | .flush => linkDrive (s.port port)

/-- `CLKREQ_N`, shared by both ports: released once every port is in L1.2. -/
def clkreqPin (s : State) : Drive :=
  match s.phase with
  | .unpowered | .off => .highZ
  | .reset | .flush => .low
  | .running => if [s.hif.port0, s.hif.port1].all (fun p => !p.present || p.l12) then .released else .low

/-- `MOD_OK` (R453, R458). -/
def modOkPin (s : State) : Drive := if decide (s.phase = .running) && s.modOk then .released else .low

/-- `ALERT_N` (R461). -/
def alertPin (s : State) : Drive := if decide (s.phase = .running) && s.alert then .low else .highZ

/-- `PPS_OUT` (R456). -/
def ppsPin (s : State) : Drive := if decide (s.phase = .running) && s.pins.ppsOut then .high else .low

/-- `MGMT_SDA` (R437 to R439). -/
def sdaPin (s : State) : Drive := if s.phase = .running then .driven else .released

/-- The phases of fan output `i`: high impedance without the F unit, while an output is off, measures or is faulted, and while
all gates are off (R447, R513, R515, R516). -/
def fanPhases (s : State) (i : Nat) : Drive :=
  let n := (s.fanOut i).state
  if decide (s.phase = .running) && s.part.fan && !s.fan.gatesOff && (decide (n = 1) || decide (3 ≤ n ∧ n ≤ 6)) then .driven else .highZ

/-- The transmit pairs of coupler port `p` (R446). -/
def ctxPairs (s : State) (p : Nat) : Drive :=
  match s.phase with
  | .unpowered => .undriven
  | .reset | .off => .electricalIdle
  | .running | .flush => if s.part.coupler && s.mated p then .driven else .electricalIdle

/-- `UART_TXD`: lines at Open, high at Closed, fused off at Sealed (R450). -/
def uartPin (s : State) : Drive :=
  match s.phase with
  | .unpowered | .reset | .off => .highZ
  | .running | .flush => match s.sec.level with
    | .opened => .driven
    | .closed => .high
    | .sealed => .highZ

/-- `TDO`. -/
def tdoPin (s : State) : Drive :=
  match s.phase with
  | .unpowered | .off => .highZ
  | .reset => if s.boot.step < 2 then .highZ else .whileShifting
  | .running | .flush => .whileShifting

/-- `PRSNT_N` is tied to GND on the carrier (R443). -/
def prsntPin (_s : State) : Drive := .low

end State

/-! ### The diagnostic UART (R450) -/

/-- The character of a hexadecimal digit. -/
def hexDigit (n : Nat) : Byte := BitVec.ofNat 8 (if n % 16 < 10 then 0x30 + n % 16 else 0x37 + n % 16)

/-- The lowest `k` hexadecimal digits of a number, the most significant first. -/
def hexDigits (k n : Nat) : List Byte := (List.range k).map (fun i => hexDigit (n / 16 ^ (k - 1 - i)))

/-- The end of a line. -/
def lineEnd : List Byte := [0x0D, 0x0A]

/-- The line of an event record: its 32 bytes as 8 groups of 8 digits, the least significant group first. -/
def uartLine (e : EvRec) : List Byte :=
  (List.intercalate [0x20] ((List.range 8).map (fun i => hexDigits 8 (leAt (eventBytes e) (4 * i) 4)))) ++ lineEnd

/-- The answer to `peek`: the 64-bit value in the notation of the manual, digits in groups of four (log 189). -/
def peekLine (w : Word) : List Byte :=
  [0x30, 0x78] ++ List.intercalate [0x5F] ((List.range 4).map (fun i => hexDigits 4 (w.toNat / 2 ^ (16 * (3 - i))))) ++ lineEnd

/-- What `UART_TXD` sends for an output; nothing for what goes elsewhere. -/
def uartText (o : Output) : List Byte :=
  match o with
  | .uartEvent e => uartLine e
  | .uartPeek w => peekLine w
  | .uartQuestion => [0x3F] ++ lineEnd
  | _ => []

end Sys2Proof.Machine
end

