-- ==== Sys2Proof/WellFormed.lean ====
section
/-! DEFINITION. Which commands are well formed: every number inside the range the manual gives it. -/

namespace Sys2Proof

/-- Host and coupler ports: a host port is 0 or 1 (R407). -/
def portOk (n : Nat) : Bool := decide (n < 2)

/-- Compartments 0 to 1,023 (R341). -/
def compOk (n : Nat) : Bool := decide (n < 1024)

/-- Dies 0 to 2,047 (R42). -/
def dieOk (n : Nat) : Bool := decide (n < 2048)

/-- Zone identifiers, 5,000 slots of each of 128 stripe groups (R54). -/
def zoneOk (n : Nat) : Bool := decide (n < 640000)

/-- Clusters 0 to 15 (R42). -/
def clusterOk (n : Nat) : Bool := decide (n < 16)

/-- Fan outputs 0 to 3 (R511). -/
def fanOk (n : Nat) : Bool := decide (n < 4)

/-- Regions 0 and 1 (R27). -/
def regionOk (n : Nat) : Bool := decide (n < 2)

/-- Callers 0 to 35 (R265). -/
def callerOk (n : Nat) : Bool := decide (n < 36)

/-- Clock domains 0 to 255 (R33). -/
def domainOk (n : Nat) : Bool := decide (n < 256)

/-- Buffer owners 0 to 4,095 (R379). -/
def ownerOk (n : Nat) : Bool := decide (n < 4096)

/-- Module identifiers 0 to 7 (R460). -/
def moduleIdOk (n : Nat) : Bool := decide (n < 8)

/-- Channels 0 to 63 (R42). -/
def channelOk (n : Nat) : Bool := decide (n < 64)

/-- Codec lanes 0 to 7 (R223). -/
def laneOk (n : Nat) : Bool := decide (n < 8)

/-- 20-bit PASIDs (R344). -/
def pasidOk (n : Nat) : Bool := decide (n < 1048576)

/-- 16-bit queue identifiers. -/
def qidOk (n : Nat) : Bool := decide (n < 65536)

/-- 16-bit placement group numbers (R79). -/
def pgroupOk (n : Nat) : Bool := decide (n < 65536)

/-- TIM_NOW stamps are 64 bits wide (R492). -/
def timeOk (n : Nat) : Bool := decide (n < 18446744073709551616)

/-- 32-bit namespace identifiers. -/
def nsidOk (n : Nat) : Bool := decide (n < 4294967296)

/-- Blocks 0 to 5,599 of a die (R42). -/
def blockOk (n : Nat) : Bool := decide (n < 5600)

/-- 12-bit input voltages (R471). -/
def voltsOk (n : Nat) : Bool := decide (n < 4096)

/-- A coupler port is 0 to 3 (R519). -/
def couplerPortOk (n : Nat) : Bool := decide (n < 4)

/-- A reel context index, caller × 4 + context, is below 144 (R265). -/
def ctxOk (n : Nat) : Bool := decide (n < 144)

/-- A host command names a port, a compartment, 16-bit queue and command identifiers and a 32-bit namespace. -/
def HostCmd.ok (h : HostCmd) : Bool :=
  portOk h.port && compOk h.comp && qidOk h.qid && decide (h.cid < 65536) && nsidOk h.nsid

/-- A read or write counts its blocks from 1 to 65,536 (R421). -/
def IoArgs.ok (a : IoArgs) : Bool := decide (1 ≤ a.nlb) && decide (a.nlb ≤ 65536) && decide (a.slba < 2 ^ 64)

/-- A list of option-area copies, 0 to 3 (R199). -/
def copiesOk (l : List Nat) : Bool := l.all (fun n => decide (n < 4))

/-- An instruction word's context is one of the 144. -/
def KWord.ok (k : KWord) : Bool := ctxOk k.ctx

/-- Every number of the command is inside its range. -/
def wellFormed (i : Instr) : Bool :=
  match i with
  | .powerOn vIn _ _ => voltsOk vIn
  | .bootStepAdvance _ => true
  | .bootStepStall => true
  | .perstRelease port => portOk port
  | .portLinkUp port _ _ => portOk port
  | .portLost port _ => portOk port
  | .powerLossDeclared _ => true
  | .flushStep => true
  | .bankLowStop => true
  | .inputRestored => true
  | .inputRangeChange vIn => voltsOk vIn
  | .bankMeasurement _ _ => true
  | .measStart => true
  | .creditWindowBoundary _ _ => true
  | .corePhaseCheck _ => true
  | .clockIdleStop domain => domainOk domain
  | .idleTimerExpiry => true
  | .sleepEntryStep => true
  | .wakeSourceFired _ => true
  | .wakeStep _ => true
  | .wakeStepTimeout => true
  | .wakeTimerExpiry => true
  | .domainCloseForced domain _ => domainOk domain
  | .ppsEdge stamp => timeOk stamp
  | .ppsEdgeDiscarded _ _ => true
  | .ppsLoss => true
  | .secSuspectLimit => true
  | .ptmDialog _ => true
  | .timNowSaturation => true
  | .ppsOutPulse => true
  | .ppsOutPulseEnd => true
  | .modIdChange _ => true
  | .cablePresentChange port _ => couplerPortOk port
  | .dieSensorReading stamp _ => timeOk stamp
  | .flashTemperatureRead stamp die _ => timeOk stamp && dieOk die
  | .boardSensorReading _ => true
  | .graceWindowEnd => true
  | .fanCommandUpdate _ _ => true
  | .fanStartStep out _ => fanOk out
  | .fanZeroCrossing out _ => fanOk out
  | .fanFault out _ => fanOk out
  | .fanRetry out => fanOk out
  | .fanRecovered out => fanOk out
  | .heldOffClear out => fanOk out
  | .fanRailThreshold _ => true
  | .regionHeartbeatMiss asking _ => regionOk asking
  | .regionSelfFailure region => regionOk region
  | .takeoverDrainComplete => true
  | .callerWatchdogExpiry caller => callerOk caller
  | .unitFault _ _ _ => true
  | .crossbarAttachmentLost cluster region => clusterOk cluster && regionOk region
  | .read h io => h.ok && io.ok
  | .write h io => h.ok && io.ok
  | .zoneAppend h io => h.ok && io.ok
  | .writeZeroes h io => h.ok && io.ok
  | .datasetManagement h _ _ => h.ok
  | .compare h io _ _ => h.ok && io.ok
  | .verify h io => h.ok && io.ok
  | .flush h => h.ok
  | .zoneOpen h _ _ => h.ok
  | .zoneClose h _ _ => h.ok
  | .zoneFinish h _ _ => h.ok
  | .zoneReset h _ _ => h.ok
  | .zoneOffline h _ _ => h.ok
  | .zoneManagementReceive h _ _ _ _ _ => h.ok
  | .segmentGrant _ _ => true
  | .segmentTransferComplete _ _ _ _ => true
  | .stagingSegmentRelease _ _ => true
  | .dirtyLimitWaitEnd _ _ => true
  | .hostDmaFault channel _ _ => channelOk channel
  | .capSlotGrant die => dieOk die
  | .readSenseComplete _ _ _ _ => true
  | .programComplete die => dieOk die
  | .eraseComplete die => dieOk die
  | .dieStatusReport die _ => dieOk die
  | .dieTimeout die _ => dieOk die
  | .stripeRowClose zone _ => zoneOk zone
  | .landingRowClose _ => true
  | .foldStart zone _ => zoneOk zone
  | .foldSwitch zone _ => zoneOk zone
  | .compactionStart => true
  | .deferredEraseStart die => dieOk die
  | .wearRelocationStart die => dieOk die
  | .promenadeVisit cluster _ _ => clusterOk cluster
  | .relocationStart die block => dieOk die && blockOk block
  | .relocationCommit _ => true
  | .rebuildStart zone member => zoneOk zone && moduleIdOk member
  | .journalUnitProgram => true
  | .checkpointStart => true
  | .checkpointValid => true
  | .mountComplete _ _ _ _ => true
  | .dramScrubStep _ => true
  | .sramScrubStep _ => true
  | .bufferLeak owner => ownerOk owner
  | .carriageDrainComplete _ => true
  | .squashInstant _ => true
  | .compartmentResetComplete comp => compOk comp
  | .compartmentFreezeComplete comp => compOk comp
  | .sqTailDoorbell port comp qid _ => portOk port && compOk comp && qidOk qid
  | .cqHeadDoorbell port comp qid _ => portOk port && compOk comp && qidOk qid
  | .compartmentEnSet port comp => portOk port && compOk comp
  | .compartmentEnClear port comp => portOk port && compOk comp
  | .controllerEnable port => portOk port
  | .controllerDisable port => portOk port
  | .identify h _ _ _ => h.ok
  | .createIoSq h _ => h.ok
  | .createIoCq h _ => h.ok
  | .deleteIoSq h qid => h.ok && qidOk qid
  | .deleteIoCq h qid => h.ok && qidOk qid
  | .getLogPage h _ _ _ => h.ok
  | .abort h _ _ => h.ok
  | .asynchronousEventRequest h => h.ok
  | .getFeatures h _ _ => h.ok
  | .setPowerManagement h _ => h.ok
  | .setTemperatureThreshold h _ _ _ => h.ok
  | .setNumberOfQueues h _ _ => h.ok
  | .setInterruptCoalescing h _ => h.ok
  | .setInterruptVectorConfiguration h _ _ => h.ok
  | .setAsyncEventConfiguration h _ => h.ok
  | .setTimestamp h _ => h.ok
  | .firmwareCommit h => h.ok
  | .firmwareImageDownload h => h.ok
  | .sanitizeBlockErase h _ => h.ok
  | .sanitizeCryptoErase h _ => h.ok
  | .sanitizeOverwrite h => h.ok
  | .sanitizeExitFailureMode h => h.ok
  | .sanitizeComplete _ _ => true
  | .reelLoad h _ => h.ok
  | .reelUnload h _ => h.ok
  | .enterMaintenance h => h.ok
  | .leaveMaintenance h => h.ok
  | .storeWriteSlot h _ _ => h.ok
  | .storeClearSlot h _ => h.ok
  | .reelStart h _ => h.ok
  | .reelHalt h _ _ => h.ok
  | .reelHaltGraceExpiry _ => true
  | .reelStatus h _ => h.ok
  | .compartmentCreate h comp port => h.ok && compOk comp && portOk port
  | .compartmentDelete h comp => h.ok && compOk comp
  | .mapPasid h comp pasid port => h.ok && compOk comp && pasidOk pasid && portOk port
  | .unmapPasid h comp pasid port => h.ok && compOk comp && pasidOk pasid && portOk port
  | .compartmentReset h comp => h.ok && compOk comp
  | .compartmentFreeze h comp => h.ok && compOk comp
  | .compartmentThaw h comp => h.ok && compOk comp
  | .compartmentSave h comp _ => h.ok && compOk comp
  | .compartmentRestore h _ _ => h.ok
  | .eventRingSetup h _ => h.ok
  | .eventRingClose h => h.ok
  | .frameAppend h _ _ _ _ _ => h.ok
  | .frameCodingComplete lane => laneOk lane
  | .frameRead h _ _ _ _ => h.ok
  | .codecStateSave h _ => h.ok
  | .codecStateRestore h _ _ => h.ok
  | .nop k => k.ok
  | .trap k => k.ok
  | .wait k => k.ok
  | .waitConditionMet ctx => ctxOk ctx
  | .ticketCompletion ctx _ _ _ _ => ctxOk ctx
  | .commit k => k.ok
  | .halt k => k.ok
  | .add k => k.ok
  | .sub k => k.ok
  | .and k => k.ok
  | .or k => k.ok
  | .xor k => k.ok
  | .shl k => k.ok
  | .shr k => k.ok
  | .sar k => k.ok
  | .mul k => k.ok
  | .mulhu k => k.ok
  | .divu k => k.ok
  | .remu k => k.ok
  | .minu k => k.ok
  | .maxu k => k.ok
  | .addi k => k.ok
  | .andi k => k.ok
  | .ori k => k.ok
  | .xori k => k.ok
  | .shli k => k.ok
  | .shri k => k.ok
  | .sari k => k.ok
  | .li k => k.ok
  | .lih k => k.ok
  | .bfx k => k.ok
  | .bfi k => k.ok
  | .cmp k => k.ok
  | .cmpi k => k.ok
  | .b k => k.ok
  | .call k => k.ok
  | .ret k => k.ok
  | .jr k => k.ok
  | .callr k => k.ok
  | .ld k => k.ok
  | .st k => k.ok
  | .copy k => k.ok
  | .mfs k => k.ok
  | .mts k => k.ok
  | .trd k => k.ok
  | .twr k => k.ok
  | .pgctlCreate k => k.ok
  | .pgctlDelete k => k.ok
  | .pgctlAddStripeGroup k => k.ok
  | .pgctlRemoveStripeGroup k => k.ok
  | .pgctlMove k => k.ok
  | .pgctlSetDefaultMode k => k.ok
  | .nsctlCreateZoned k => k.ok
  | .nsctlCreateConventional k => k.ok
  | .nsctlDelete k => k.ok
  | .zctlOpen k => k.ok
  | .zctlClose k => k.ok
  | .zctlFinish k => k.ok
  | .zctlReset k => k.ok
  | .zctlOffline k => k.ok
  | .tfind k => k.ok
  | .fread k => k.ok
  | .fprog k => k.ok
  | .ferase k => k.ok
  | .frecord k => k.ok
  | .ftemp k => k.ok
  | .freserveTake k => k.ok
  | .freserveReturn k => k.ok
  | .couple k => k.ok
  | .uncouple k => k.ok
  | .carrd k => k.ok
  | .balloc k => k.ok
  | .bshare k => k.ok
  | .bdrop k => k.ok
  | .bfree k => k.ok
  | .binfo k => k.ok
  | .cxgrant k => k.ok
  | .cxrevoke k => k.ok
  | .cxsave k => k.ok
  | .cxrestore k => k.ok
  | .timerd k => k.ok
  | .timset k => k.ok
  | .pmode k => k.ok
  | .pstate k => k.ok
  | .evpost k => k.ok
  | .evnext k => k.ok
  | .evsubAdd k => k.ok
  | .evsubClear k => k.ok
  | .regrd k => k.ok
  | .regwr k => k.ok
  | .hdmard k => k.ok
  | .hdmawr k => k.ok
  | .mountCheckpoint k => k.ok
  | .mountFullScan k => k.ok
  | .ckpt k => k.ok
  | .unpark k => k.ok
  | .stop k => k.ok
  | .cmpsetQueuePairs k => k.ok
  | .cmpsetActiveQuota k => k.ok
  | .cmpsetDirectQuota k => k.ok
  | .cmpsetBufferFloor k => k.ok
  | .cmpsetCreditShare k => k.ok
  | .cmpsetLatencyClass k => k.ok
  | .lineFillComplete ctx _ => ctxOk ctx
  | .ownerQuery port comp owner _ => portOk port && compOk comp && ownerOk owner
  | .ownerRegister port comp owner _ => portOk port && compOk comp && ownerOk owner
  | .ownerUnregister port comp owner _ => portOk port && compOk comp && ownerOk owner
  | .ownerSetLimit port comp owner _ => portOk port && compOk comp && ownerOk owner
  | .ownerReclaim port comp owner _ => portOk port && compOk comp && ownerOk owner
  | .raiseToClosed _ => true
  | .raiseToSealed _ => true
  | .lowerToOpen _ => true
  | .optionCommit _ report => copiesOk report.failed
  | .optionReload => true
  | .keyQuery _ => true
  | .keyGenerate _ => true
  | .keyInstall _ => true
  | .keyInstallWrapped _ => true
  | .keyErase _ => true
  | .zoneQuery zone => zoneOk zone
  | .dmaChannelRelease => true
  | .registerReadClear port _ _ _ => portOk port
  | .registerWrite port _ _ _ _ => portOk port
  | .mirrorBind _ => true
  | .mirrorUnbind _ => true
  | .mirrorPromote _ => true
  | .mirrorResync _ => true
  | .mirrorCopyZone _ => true
  | .mirrorQuery _ => true
  | .resyncComplete pgroup => pgroupOk pgroup
  | .flitReceived port _ => couplerPortOk port
  | .linkSilenceTimeout port => couplerPortOk port
  | .couplerLinkTrained port peer _ _ => couplerPortOk port && moduleIdOk peer
  | .linkTrainingRetry port => couplerPortOk port
  | .heartbeatSend => true
  | .memberLost member _ => moduleIdOk member
  | .memberJoined member _ => moduleIdOk member
  | .sleepNotice member => moduleIdOk member
  | .sleepingMemberTimeout member _ => moduleIdOk member
  | .mirrorSegment peer pgroup zoneNo _ _ _ _ _ => moduleIdOk peer && pgroupOk pgroup && zoneOk zoneNo
  | .mirrorAck _ _ _ => true
  | .forwardedRead peer pgroup zoneNo _ _ _ => moduleIdOk peer && pgroupOk pgroup && zoneOk zoneNo
  | .timeExchange _ _ _ _ _ _ _ => true
  | .peek _ => true
  | .bypass => true
  | .idcode => true
  | .samplePreload => true
  | .extest => true
  | .clamp => true
  | .highz => true
  | .i3cBroadcast _ => true
  | .basicManagementCommand => true
  | .subsystemHealthStatusPoll => true
  | .vpdRead _ _ => true
  | .tunnelledIdentify _ _ _ nsid _ _ => nsidOk nsid
  | .tunnelledGetLogPage _ nsid _ _ => nsidOk nsid
  | .powerManagerHeartbeatMiss region => regionOk region
  | .levelWatchdogExpiry _ _ => true
  | .bankVoltageChange _ => true
  | .fanCmdMeasurement _ => true
  | .conventionalCopy _ => true
  | .conventionalReclaim => true
  | .invalidCommandOpcode h _ _ => h.ok
  | .setFeaturesUnsupported h _ => h.ok
  | .unassignedOpcode ctx _ => ctxOk ctx
  | .miInvalidCommand _ => true
  | .configurationRequest port => portOk port
  | .misalignedAccess port _ _ => portOk port

end Sys2Proof
end

