-- ==== Sys2Proof/Tests/Slice0.lean ====
section
/-! SUPPORT. The model's own tests: ill-formed terms that the check refuses, the worked examples of the manual, and, for every
statement with hypotheses, a state and operands that meet them, at which the command goes on. -/

open Sys2Proof Sys2Proof.Machine

namespace Sys2Proof.Tests

set_option Elab.async false

/-! ## Small states -/

/-- An awake module. -/
def up : State := { State.reset with pwr := { State.reset.pwr with pstate := .run } }

/-- The command answers a next state that satisfies the check. -/
def after (i : Instr) (s : State) (p : State → Bool) : Bool :=
  match exec i s with
  | .next t => p t
  | _ => false

/-- The command answers a next state. -/
def runs (i : Instr) (s : State) : Bool := after i s (fun _ => true)

/-- A running instance in context `c`. -/
def inst (c : Nat) : KInst :=
  { ctx := c, source := 0, place := 0, pasid := none, port := 0, single := true, signed := false, check := 0, startAt := 0
    events := [], eventsLost := 0, subs := [], lines := [0], versions := [] }

/-- A fresh context with registers from g1 on. -/
def ctx0 (regs : List Word) : KCtx :=
  { inst := 1, regs := regs ++ List.replicate (31 - regs.length) 0, pc := 64, flags := ⟨false, false, false, false⟩
    cap := 0x7FFFF, comp := 0, slot := 0x1FF, relieved := false, epoch := 0, scratch := [], image := [], codeLen := 64
    budget := 100, count := 0, retired := 0, wait := .ready, tickets := [], journal := [], jpos := 0, unitKept := [], applied := none, held := [], kept := []
    saved := { regs := [], pc := 64, flags := ⟨false, false, false, false⟩, scratch := [], tickets := [], epoch := 0
               retired := 0 }
    haltAt := none, grace := 0, halts := [] }

/-- The context `k` with the word at its `pc`. -/
def reelOf (op : Nat) (w : KWord) (k : KCtx) : KCtx := { k with image := writeBytes [] k.pc (leBytes 8 (wordOf op w)) }

/-- The module `s` with the reel `k` in context `w.ctx`, about to issue the word `w`. -/
def withReel (s : State) (op : Nat) (w : KWord) (k : KCtx) : State :=
  { s with kry := { s.kry with insts := [(1, some (inst w.ctx))], ctxs := [(w.ctx, some (reelOf op w k))] } }

/-- The reel is ready to issue the word (a Bool). -/
def isReady (s : State) (f : Form) (free : Bool) (w : KWord) (k : KCtx) : Bool :=
  s.mem.bad.isEmpty && canon none s.kry.ctxs && canon none s.kry.insts && decide (s.kctx w.ctx = some k) && s.issues f.op w &&
    (free || decide (k.count < k.budget)) && decide (k.pc % 8 = 0) && decide (64 ≤ k.pc) && decide (k.pc < 64 + k.codeLen) &&
    !badForm f w

theorem ready_of {s : State} {f : Form} {free : Bool} {w : KWord} {k : KCtx} (h : isReady s f free w k = true) :
    Ready s f free w k := by
  simp only [isReady, Bool.and_eq_true, Bool.or_eq_true, decide_eq_true_eq, Bool.not_eq_true', List.isEmpty_iff] at h
  obtain ⟨⟨⟨⟨⟨⟨⟨⟨⟨h0, ha⟩, hb⟩, h1⟩, h2⟩, h3⟩, h4⟩, h5⟩, h6⟩, h7⟩ := h
  exact { tables := ⟨ha, hb⟩, here := h1, issues := h2, intact := by simp [h0], budget := h3, aligned := h4, inside := ⟨h5, h6⟩
          form := h7 }

/-- A small part with everything in place: mounted, unparked and Open; compartment 1 Active on port 0; placement group 0 of the
steward with stripe group 0 and namespace 1, carriage 0 coupled to it without encryption; owner 16 of the steward; buffer 1 of
16 KiB and buffer 2 of 4 MiB; port 0 up with an I/O queue pair; the key slots of the module and of wrapping filled. -/
def world : State :=
  { up with
    part := { up.part with variant := .z440 }
    boot := { up.boot with step := 9, parked := false }
    pwr := { up.pwr with mode := .galop }
    plog := { up.plog with charger := true, limitMib := 1024 }
    tim := { up.tim with running := true, now := 5000000000 }
    zns := { up.zns with
      pgroups := [(0, some { comp := 0, defaultDirect := false, groups := [0], nsid := some 1 })]
      spaces := [(1, some { kind := .zoned 0, comp := 0, lba16 := false, deleting := false })], online := true }
    car := { up.car with table := [(0, { Carriage.none with coupled := true, handleType := 1, owner := 16, dmaGroups := 0xFFFF
                                                            generation := 1, nsid := 1, twin := true, codec := true })] }
    mnt := { up.mnt with state := 4 }
    jrn := { up.jrn with valid := true }
    bpm := { up.bpm with
      owners := [(16, some { comp := 0, segLimit := 64, leak := false })], nextHandle := 3
      bufs := [(1, some { domain := 0, part := 0, pool := 0, cells := [0], size := 16384, owner := 16, holders := [(16, 0)]
                          final := none, freeing := false, gone := false, at_ := 0, withdraw := false }),
               (2, some { domain := 0, part := 0, pool := 4, cells := [0], size := 4194304, owner := 16, holders := [(16, 0)]
                          final := none, freeing := false, gone := false, at_ := 0, withdraw := false })] }
    cmp := { table := [(0, Comp.steward), (1, { Comp.free with state := .active })], pasids := [(0, 5, 1)] }
    fcd := { up.fcd with ctxs := [(0, { grant := some 0, coded := false, st := CodecState.zero })] }
    sec := { up.sec with level := .opened, keys := [(1024, 1), (1039, 2)] }
    hif := { up.hif with
      port0 := { up.hif.port0 with linkUp := true, rate := 6, width := 16, perst := false, en := true, rdy := true }
      queues := [{ ctl := 0, qid := 1, sq := true, size := 16, head := 0, tail := 0, pasid := none, cq := 1, vector := 0
                   ien := false, base := 0, phase := true },
                 { ctl := 0, qid := 1, sq := false, size := 16, head := 0, tail := 0, pasid := none, cq := 0, vector := 0
                   ien := false, base := 0, phase := true }] } }

/-- A command of the steward's I/O queue, and one of its admin queue. -/
def io1 : HostCmd := { port := 0, comp := 0, qid := 1, cid := 7, nsid := 1, fused := false, rsvd := false }
def adm : HostCmd := { io1 with qid := 0 }

/-! ## Krytfer inside a context -/

/-- A word of context 1. -/
def wd (d a b : Nat) (mod : Nat) (imm : Int) : KWord :=
  { ctx := 1, d := BitVec.ofNat 5 d, a := BitVec.ofNat 5 a, b := BitVec.ofNat 5 b, mod := BitVec.ofNat 9 mod, imm := BitVec.ofInt 32 imm }

/-- The reel that issues `w`, its registers 5, 0 and the most negative number. -/
def k0 (op : Nat) (w : KWord) : KCtx := reelOf op w (ctx0 [5, 0, 0x8000000000000000, 60])

/-- Its state. -/
def s0 (op : Nat) (w : KWord) : State := withReel up op w (ctx0 [5, 0, 0x8000000000000000, 60])

/-- Ready, and the command goes on (a Bool). -/
def go (op : Nat) (i : KWord → Instr) (f : Form) (free : Bool) (w : KWord) : Bool :=
  isReady (s0 op w) f free w (k0 op w) && runs (i w) (s0 op w)

theorem test_arithmetic_ready :
    (∀ row ∈ arithmeticRows, go row.op row.cmd { op := row.op, useD := true, useA := true, useB := true, mask := 0 } false
      (wd 31 3 2 0 0) = true) ∧
    (∀ row ∈ immediateRows, go row.op row.cmd { op := row.op, useD := true, useA := row.useA, useB := false, mask := 0 } false
      (wd 31 (if row.useA then 3 else 0) 0 0 (-1)) = true) := by decide +kernel

theorem test_registers_zero : (ctx0 [1]).regs.length = 31 ∧ (0 < 1 ∧ 1 < 32) ∧ (0 < 31 ∧ 31 < 32) := by decide +kernel

theorem test_div_by_zero : after (.divu (wd 5 1 2 0 0)) (s0 0x1A (wd 5 1 2 0 0)) (fun t => match t.kctx 1 with
    | some k => decide (reg k 5 = 0xFFFFFFFFFFFFFFFF) && k.flags.v
    | none => false) = true := by decide +kernel

theorem test_subtract_borrows : after (.sub (wd 5 2 1 0 0)) (s0 0x11 (wd 5 2 1 0 0)) (fun t => match t.kctx 1 with
    | some k => decide (reg k 5 = 0xFFFFFFFFFFFFFFFB) && !k.flags.c && k.flags.n && !k.flags.v
    | none => false) = true := by decide +kernel

/-- R289: a code that holds and one that does not, and the first code that is not assigned; targets at both ends of the code. -/
theorem test_branches_ready :
    (k0 0x30 (wd 0 1 2 0 0)).codeLen ≤ 2 ^ 20 ∧
    go 0x30 .cmp { op := 0x30, useD := false, useA := true, useB := true, mask := 0 } false (wd 0 1 2 0 0) = true ∧
    go 0x31 .cmpi { op := 0x31, useD := false, useA := true, useB := false, mask := 0 } false (wd 0 1 0 0 (-1)) = true ∧
    (∀ w ∈ [wd 0 0 0 0 0, wd 0 0 0 2 7, wd 0 0 0 1 100, wd 0 0 0 11 0, wd 0 0 0 0 8],
      go 0x32 .b { op := 0x32, useD := false, useA := false, useB := false, mask := 15 } false w = true) ∧
    (∀ w ∈ [wd 0 0 0 0 0, wd 0 0 0 0 7, wd 0 0 0 0 8, wd 0 0 0 0 (-1)],
      go 0x33 .call { op := 0x33, useD := false, useA := false, useB := false, mask := 0 } false w = true) ∧
    go 0x34 .ret { op := 0x34, useD := false, useA := false, useB := false, mask := 0 } false (wd 0 0 0 0 0) = true ∧
    (∀ a ∈ [1, 2], go 0x35 .jr { op := 0x35, useD := false, useA := true, useB := false, mask := 0 } false (wd 0 a 0 0 0) = true ∧
      go 0x36 .callr { op := 0x36, useD := false, useA := true, useB := false, mask := 0 } false (wd 0 a 0 0 0) = true) := by
  decide +kernel

theorem test_branch_targets (op : Nat) (w : KWord) (h : w.imm = 0 ∨ w.imm = 7) : FetchAddress (k0 op w) (target (k0 op w) w) := by
  rcases h with h | h <;> simp [FetchAddress, target, h, k0, reelOf, ctx0]

theorem test_branch_conditions : condition 0 (k0 0 (wd 0 0 0 0 0)).flags ∧ condition 2 (k0 0 (wd 0 0 0 0 0)).flags ∧
    ¬ condition 1 (k0 0 (wd 0 0 0 0 0)).flags := by simp [condition, k0, reelOf, ctx0]

theorem test_branch_bad_target : ¬ FetchAddress (k0 0x32 (wd 0 0 0 0 8)) (target (k0 0x32 (wd 0 0 0 0 8)) (wd 0 0 0 0 8)) ∧
    ¬ FetchAddress (k0 0x33 (wd 0 0 0 0 (-1))) (target (k0 0x33 (wd 0 0 0 0 (-1))) (wd 0 0 0 0 (-1))) ∧
    ¬ FetchAddress (k0 0x35 (wd 0 1 0 0 0)) (regA (k0 0x35 (wd 0 1 0 0 0)) (wd 0 1 0 0 0)).toNat := by
  unfold FetchAddress; decide +kernel

/-- Registers that hold code addresses: JR, CALLR and RET to the first and the last word of the code. -/
theorem test_jump_targets (v : Word) (h : v = 64 ∨ v = 120) : FetchAddress (ctx0 [v]) (reg (ctx0 [v]) 1).toNat ∧
    FetchAddress (ctx0 (List.replicate 30 0 ++ [v])) (reg (ctx0 (List.replicate 30 0 ++ [v])) 31).toNat := by
  rcases h with rfl | rfl <;> simp [FetchAddress, reg, ctx0]

theorem test_traps_ready :
    go 0x01 .trap { op := 0x01, useD := false, useA := false, useB := false, mask := 0 } false (wd 0 0 0 0 0xFFFF) = true ∧
    (∀ op ∈ [0x05, 0x1E, 0xFF], isReady (s0 op (wd 1 1 1 0x1FF 0)) { op := op, useD := true, useA := true, useB := true, mask := 0x1FF }
        false (wd 1 1 1 0x1FF 0) (k0 op (wd 1 1 1 0x1FF 0)) = true ∧
      runs (.unassignedOpcode 1 (BitVec.ofNat 64 (wordOf op (wd 1 1 1 0x1FF 0)))) (s0 op (wd 1 1 1 0x1FF 0)) = true) ∧
    (∀ x ∈ [(0x62, 2, 6), (0x63, 4, 3), (0x64, 1, 5), (0xE0, 18, 6), (0x62, 2, 15)],
      let w := wd 0 1 (if x.1 = 0x64 then 0 else 1) x.2.2 0
      isReady (s0 x.1 w) { op := x.1, useD := false, useA := true, useB := decide (x.1 ≠ 0x64), mask := 0xF } false w (k0 x.1 w) = true ∧
      (k0 x.1 w).cap.getLsbD x.2.1 = true ∧ (s0 x.1 w).frozen 0 = false ∧
      runs (.unassignedOpcode 1 (BitVec.ofNat 64 (wordOf x.1 w))) (s0 x.1 w) = true) := by decide +kernel

theorem test_special_registers_ready :
    go 0x00 .nop { op := 0x00, useD := false, useA := false, useB := false, mask := 0 } false (wd 0 0 0 0 0) = true ∧
    (∀ m ∈ [0, 1, 2, 3],
      go 0x50 .mfs { op := 0x50, useD := true, useA := false, useB := false, mask := 3 } false (wd 1 0 0 m 0) = true ∧
      go 0x51 .mts { op := 0x51, useD := false, useA := true, useB := false, mask := 3 } false (wd 0 1 0 m 0) = true) := by decide +kernel

/-- Loads, stores and copies of scratch and the image at both ends of their space, and the ones that trap. -/
theorem test_memory_ready :
    (∀ w ∈ [wd 1 2 0 0 0, wd 1 2 0 7 16376, wd 1 2 0 8 127, wd 1 2 0 24 0, wd 1 2 0 1 1, wd 1 2 0 3 16384],
      go 0x40 .ld { op := 0x40, useD := true, useA := true, useB := true, mask := 0x1F } false w = true) ∧
    (∀ w ∈ [wd 1 2 0 0 0, wd 1 2 0 3 16376, wd 1 2 0 8 0, wd 1 2 0 1 1, wd 1 2 0 3 16384],
      go 0x41 .st { op := 0x41, useD := true, useA := true, useB := true, mask := 0x1B } false w = true) ∧
    go 0x42 .copy { op := 0x42, useD := true, useA := true, useB := true, mask := 0x78 } false (wd 2 2 0 8 128) = true := by
  decide +kernel

theorem test_load_readable (k : KCtx) (hk : k.codeLen = 64) :
    Readable up k 1 0 0 16376 8 ∧ Readable up k 1 1 0 127 1 ∧ Writable up k 0 0 16376 8 ∧ Readable up k 1 1 0 0 128 := by
  refine ⟨⟨⟨_, rfl, by decide +kernel⟩, by simp, rfl⟩, ⟨⟨_, rfl, by simp [hk]⟩, by simp, rfl⟩,
    ⟨by decide +kernel, ⟨_, rfl, by decide +kernel⟩, by simp, by simp⟩, ⟨⟨_, rfl, by simp [hk]⟩, by simp, rfl⟩⟩

theorem test_byte_tables : ByteTables up (ctx0 []) := by unfold ByteTables; decide +kernel

/-! ## Unit instructions -/

/-- A word of context 1. -/
def wu (d a b mod imm : Nat) : KWord :=
  { ctx := 1, d := BitVec.ofNat 5 d, a := BitVec.ofNat 5 a, b := BitVec.ofNat 5 b, mod := BitVec.ofNat 9 mod, imm := BitVec.ofNat 32 imm }

/-- The reel with these registers is ready for the word in `s`, and the instruction goes on. -/
def goIn (s : State) (i : KWord → Instr) (f : Form) (w : KWord) (regs : List Word) : Bool :=
  isReady (withReel s f.op w (ctx0 regs)) f false w (reelOf f.op w (ctx0 regs)) && runs (i w) (withReel s f.op w (ctx0 regs))

/-- A row of R304 to R307 has operands in the world at which its checks pass and it goes on. -/
def HeldAt (row : HeldRow) : Prop :=
  ∃ (w : KWord) (regs : List Word), goIn world row.cmd row.form w regs = true ∧
    Granted (withReel world row.form.op w (ctx0 regs)) (reelOf row.form.op w (ctx0 regs)) (row.cap (reelOf row.form.op w (ctx0 regs)) w) ∧
    row.ok (withReel world row.form.op w (ctx0 regs)) (reelOf row.form.op w (ctx0 regs)) w

theorem granted_all (s : State) (op : Nat) (w : KWord) (regs : List Word) (n : Nat) (h : n < 19)
    (hf : (withReel s op w (ctx0 regs)).frozen 0 = false) :
    Granted (withReel s op w (ctx0 regs)) (reelOf op w (ctx0 regs)) (some n) := by
  refine ⟨fun m hm => ?_, hf⟩
  cases hm
  show (0x7FFFF : Word).getLsbD n = true
  interval_cases n <;> rfl

theorem granted_none (s : State) (op : Nat) (w : KWord) (regs : List Word) (hf : (withReel s op w (ctx0 regs)).frozen 0 = false) :
    Granted (withReel s op w (ctx0 regs)) (reelOf op w (ctx0 regs)) none := ⟨fun _ h => (by cases h), hf⟩

theorem test_held_rows : ∀ row, IsHeldRow row → HeldAt row := by
  intro row h
  simp only [IsHeldRow, List.mem_cons, List.mem_nil_iff, or_false] at h
  rcases h with rfl | rfl | rfl | rfl | rfl | rfl | rfl | rfl | rfl | rfl | rfl | rfl
  · exact ⟨wu 0 1 0 0 0, [5], by decide +kernel, granted_all _ _ _ _ _ (by decide +kernel) rfl, trivial⟩
  · exact ⟨wu 0 1 0 0 0, [2], by decide +kernel, granted_all _ _ _ _ _ (by decide +kernel) rfl, by decide +kernel⟩
  · exact ⟨wu 0 1 0 0 0, [0], by decide +kernel, granted_none _ _ _ _ rfl, by decide +kernel⟩
  · exact ⟨wu 0 0 1 7 0x8000, [16368], by decide +kernel, granted_all _ _ _ _ _ (by decide +kernel) rfl, by decide +kernel⟩
  · exact ⟨wu 1 2 0 0 0, [1, 0x3FFFFF8], by decide +kernel, granted_all _ _ _ _ _ (by decide +kernel) rfl, by decide +kernel⟩
  · exact ⟨wu 0 0 0 0 0, [], by decide +kernel, granted_all _ _ _ _ _ (by decide +kernel) rfl, by decide +kernel⟩
  · exact ⟨wu 0 1 2 0 0, [1, 64], by decide +kernel, granted_all _ _ _ _ _ (by decide +kernel) rfl, by refine ⟨rfl, by decide +kernel, by decide +kernel, by decide +kernel, by decide +kernel, by decide +kernel⟩⟩
  · exact ⟨wu 0 1 2 1 0, [0, 24576], by decide +kernel, granted_all _ _ _ _ _ (by decide +kernel) rfl, by refine ⟨rfl, by decide +kernel, by decide +kernel, by decide +kernel, by decide +kernel, by decide +kernel⟩⟩
  · exact ⟨wu 0 1 2 2 0, [1, 512], by decide +kernel, granted_all _ _ _ _ _ (by decide +kernel) rfl, by refine ⟨rfl, by decide +kernel, by decide +kernel, by decide +kernel, by decide +kernel, by decide +kernel⟩⟩
  · exact ⟨wu 0 1 2 3 0, [1, 16384], by decide +kernel, granted_all _ _ _ _ _ (by decide +kernel) rfl, by refine ⟨rfl, by decide +kernel, by decide +kernel, by decide +kernel, by decide +kernel, by decide +kernel⟩⟩
  · exact ⟨wu 0 1 2 4 15, [0, 1000], by decide +kernel, granted_all _ _ _ _ _ (by decide +kernel) rfl, by refine ⟨rfl, by decide +kernel, by decide +kernel, by decide +kernel, by decide +kernel, by decide +kernel⟩⟩
  · exact ⟨wu 0 1 2 5 0, [0, 2], by decide +kernel, granted_all _ _ _ _ _ (by decide +kernel) rfl, by refine ⟨rfl, by decide +kernel, by decide +kernel, by decide +kernel, by decide +kernel, by decide +kernel⟩⟩

/-- A row of the asynchronous instructions has a state and operands at which its checks pass and it goes on. -/
def TicketAt (row : TicketRow) : Prop :=
  ∃ (s : State) (w : KWord) (regs : List Word), goIn s row.cmd row.form w regs = true ∧ row.cap < 19 ∧
    row.ok (withReel s row.form.op w (ctx0 regs)) (reelOf row.form.op w (ctx0 regs)) w

/-- The world with a block of die 0 that the reels own, erased in SLC mode, and a spare reserved. -/
def reelWorld : State := { world with fls := { world.fls with blocks :=
  [(300, { freshBlock 0 300 with use := .reel, qlc := false, wp := 0, role := .spare })] } }

/-- The world Parked before a mount. -/
def parkedWorld : State := { world with boot := { world.boot with parked := true }, mnt := { world.mnt with state := 0 } }

theorem test_ticket_rows : ∀ row, IsTicketRow row → TicketAt row := by
  intro row h
  simp only [IsTicketRow, List.mem_cons, List.mem_nil_iff, or_false] at h
  rcases h with rfl | rfl | rfl | rfl | rfl | rfl | rfl | rfl | rfl | rfl | rfl | rfl | rfl | rfl | rfl
  · exact ⟨world, wu 0 1 2 0 0, [0, 1], by decide +kernel, by decide +kernel, by decide +kernel, by unfold addressOk; decide +kernel, 16384, rfl, by decide +kernel⟩
  · exact ⟨reelWorld, wu 0 1 2 1 0, [BitVec.ofNat 64 (300 * 8192), 2], by decide +kernel, by decide +kernel, by unfold addressOk; decide +kernel, ⟨4194304, rfl, by decide +kernel⟩,
      by unfold blockOpen; decide +kernel, rfl, rfl, by decide +kernel, (by intro r; cases r <;> decide +kernel), by decide +kernel, by decide +kernel, by decide +kernel⟩
  · exact ⟨reelWorld, wu 0 1 0 0 0, [BitVec.ofNat 64 (300 * 8192)], by decide +kernel, by decide +kernel, by unfold addressOk; decide +kernel, by unfold blockOpen; decide +kernel, by decide +kernel, by decide +kernel⟩
  · exact ⟨world, wu 0 1 2 0 0, [6143, 16352], by decide +kernel, by decide +kernel, by unfold addressOk; decide +kernel, by decide +kernel⟩
  · exact ⟨world, wu 0 1 0 0 0, [1023], by decide +kernel, by decide +kernel, by decide +kernel⟩
  · exact ⟨world, wu 0 1 0 0 0, [1023], by decide +kernel, by decide +kernel, by decide +kernel⟩
  · exact ⟨reelWorld, wu 0 1 2 1 0, [0, 300], by decide +kernel, by decide +kernel, by decide +kernel⟩
  · exact ⟨world, wu 0 1 0 0 0, [0], by decide +kernel, by decide +kernel, by decide +kernel⟩
  · exact ⟨world, wu 0 1 2 0 4062144, [0, 2], by decide +kernel, by decide +kernel, rfl, by decide +kernel, by decide +kernel, 4194304, rfl, by decide +kernel⟩
  · exact ⟨world, wu 0 1 2 0 0, [0, 2], by decide +kernel, by decide +kernel, rfl, by decide +kernel, by decide +kernel, 4194304, rfl, by decide +kernel⟩
  · exact ⟨world, wu 3 1 2 0 0, [0, 1, 16384], by decide +kernel, by decide +kernel, by decide +kernel, 16384, rfl, by decide +kernel⟩
  · exact ⟨world, wu 3 1 2 0 16, [0, 1, 16368], by decide +kernel, by decide +kernel, by decide +kernel, 16384, rfl, by decide +kernel⟩
  · exact ⟨parkedWorld, wu 0 0 0 0 0, [], by decide +kernel, by decide +kernel, by decide +kernel⟩
  · exact ⟨parkedWorld, wu 0 0 0 1 0, [], by decide +kernel, by decide +kernel, by decide +kernel⟩
  · exact ⟨world, wu 0 0 0 0 0, [], by decide +kernel, by decide +kernel, by decide +kernel⟩

theorem test_fresh_position (regs : List Word) : FreshPosition (ctx0 regs) ∧ LowestFree (ctx0 regs) 0 := by
  refine ⟨⟨rfl, ?_⟩, ?_, ?_, ?_⟩
  · simp [ctx0]
  · simp
  · simp [ctx0]
  · omega

/-- Every ticket in use, or the journal full, or no capability, or a recorded position: the other hypotheses hold as above. -/
theorem test_tickets_full :
    (let k := { ctx0 [] with tickets := (List.range 64).map (fun n => { num := n, done := none, dmaFault := none, scratch := [] }) }
     ∀ m, m < 64 → ∃ x ∈ k.tickets, x.num = m) ∧
    (let k := { ctx0 [] with journal := List.replicate 256 (entryOf (ctx0 []) 0x74 (wu 0 1 0 0 0) [] none), jpos := 256 }
     k.journal.length = k.jpos ∧ 256 ≤ k.jpos) ∧
    (∀ n, n < 19 → ({ ctx0 [] with cap := 0 } : KCtx).cap.getLsbD n = false) ∧
    (let k := { ctx0 [7] with journal := [entryOf (ctx0 [7]) 0x74 (wu 0 1 0 0 0) [(1, 0), (2, 0)] (some true)] }
     ∃ e, k.journal[k.jpos]? = some e ∧ e.op = 0x74 ∧
       e.args = [regA k (wu 0 1 0 0 0), regB k (wu 0 1 0 0 0), regD k (wu 0 1 0 0 0), (wu 0 1 0 0 0).mod.setWidth 64,
         (wu 0 1 0 0 0).imm.setWidth 64]) := by
  refine ⟨fun m h => ⟨{ num := m, done := none, dmaFault := none, scratch := [] }, ?_, rfl⟩, ⟨List.length_replicate, Nat.le_refl 256⟩, by simp, ⟨_, rfl, rfl, rfl⟩⟩
  simp [h]

/-- WAIT: with no condition named, and for a ticket that is not in use. -/
theorem test_wait_traps : ∀ m ∈ [0, 1, 31], isReady (s0 0x02 (wd 0 1 2 m 0)) { op := 0x02, useD := false, useA := true, useB := true, mask := 0x1F }
    true (wd 0 1 2 m 0) (k0 0x02 (wd 0 1 2 m 0)) = true ∧ runs (.wait (wd 0 1 2 m 0)) (s0 0x02 (wd 0 1 2 m 0)) = true := by decide +kernel

/-- R291, R294, R295, R301, R302, R304: each reading instruction at a state that meets its checks. -/
theorem test_reading_ready :
    (∀ row ∈ fieldRows, goIn world .trd { op := 0x60, useD := false, useA := true, useB := false, mask := 0xF } (wu 0 1 0 row.table row.field)
      [0] = true) ∧
    (∀ m ∈ [0, 3], goIn world .carrd { op := 0x82, useD := false, useA := true, useB := false, mask := 3 } (wu 0 1 0 m 0) [32767] = true) ∧
    goIn world .binfo { op := 0x94, useD := false, useA := true, useB := false, mask := 0 } (wu 0 1 0 0 0) [1] = true ∧
    goIn world .timerd { op := 0xB0, useD := true, useA := false, useB := false, mask := 0 } (wu 31 0 0 0 0) [] = true ∧
    (world.zoneExists 0 = true ∧ (0 / 8192 < world.part.variant.dies ∧ 0 % 8192 < 5600)) ∧ (world.buf 1).isSome = true := by decide +kernel

/-- TFIND from a zone: the first that matches, the end, and the limit of 65,536. -/
theorem test_tfind_ready :
    (∀ x ∈ [(1, 319999), (0xE, 319999), (0xF, 319999)], goIn world .tfind { op := 0x65, useD := false, useA := true, useB := true, mask := 0xF }
      (wu 0 1 2 x.1 0) [BitVec.ofNat 64 x.2, 1] = true ∧ x.2 < world.part.variant.groups * 5000) ∧
    min (world.part.variant.groups * 5000) (319999 + 65536) = 320000 := by decide +kernel

/-! ## Groups, namespaces, buffers, carriages, codec contexts and events -/

/-- Context 1 with any record in place of the fresh one: ready, and the instruction goes on. -/
def goK (s : State) (i : KWord → Instr) (f : Form) (free : Bool) (w : KWord) (k : KCtx) : Bool :=
  isReady (withReel s f.op w k) f free w (reelOf f.op w k) && runs (i w) (withReel s f.op w k)

/-- The world with two more placement groups: 3 without stripe groups, 4 with stripe group 5, neither with a namespace. -/
def groups : State := { world with zns := { world.zns with pgroups := world.zns.pgroups ++
  [(3, some { comp := 0, defaultDirect := false, groups := [], nsid := none }),
   (4, some { comp := 1, defaultDirect := true, groups := [5], nsid := none })] } }

def pg : Form := { op := 0x62, useD := false, useA := true, useB := true, mask := 0xF }

/-- R296: each line of its table with the outcome 0 and with the refusals, at both ends of the ranges. -/
theorem test_pgctl_ready : canon none groups.zns.pgroups = true ∧
    (∀ x ∈ [(127, 1), (127, 0), (0, 0)], goIn groups .pgctlCreate pg (wu 0 1 2 0 0) [BitVec.ofNat 64 x.1, BitVec.ofNat 64 x.2] = true) ∧
    (∀ x ∈ [3, 127], goIn groups .pgctlDelete pg (wu 0 1 0 1 0) [BitVec.ofNat 64 x] = true) ∧
    (∀ x ∈ [(3, 63), (4, 5), (3, 0), (127, 0)], goIn groups .pgctlAddStripeGroup pg (wu 0 1 2 2 0) [BitVec.ofNat 64 x.1, BitVec.ofNat 64 x.2] = true) ∧
    (∀ x ∈ [(4, 5), (3, 0), (127, 0)], goIn groups .pgctlRemoveStripeGroup pg (wu 0 1 2 3 0) [BitVec.ofNat 64 x.1, BitVec.ofNat 64 x.2] = true) ∧
    (∀ x ∈ [(3, 1), (127, 0)], goIn groups .pgctlMove pg (wu 0 1 2 4 0) [BitVec.ofNat 64 x.1, BitVec.ofNat 64 x.2] = true) ∧
    (∀ x ∈ [(3, 1), (0, 0), (127, 0)], goIn groups .pgctlSetDefaultMode pg (wu 0 1 2 5 0) [BitVec.ofNat 64 x.1, BitVec.ofNat 64 x.2] = true) ∧
    groups.groupPgroup 63 = none ∧ groups.groupPgroup 5 = some 4 ∧ groups.groupPgroup 0 = some 0 ∧ groups.pgroup 127 = none ∧
    groups.pgroup 3 = some { comp := 0, defaultDirect := false, groups := [], nsid := none } ∧ (groups.comp 1).state ≠ .free := by
  decide +kernel

/-- The world before its first namespace. -/
def bare : State := { world with zns := { world.zns with
  pgroups := [(0, some { comp := 0, defaultDirect := false, groups := [0], nsid := none })], spaces := [] } }

theorem test_tables_ready :
    (∀ v ∈ [0, 2], goIn world .twr { op := 0x61, useD := false, useA := true, useB := true, mask := 0xF } (wu 0 1 2 0 3) [0, BitVec.ofNat 64 v] = true) ∧
    (∀ v ∈ [1, 99], goIn world .twr { op := 0x61, useD := false, useA := true, useB := true, mask := 0xF } (wu 0 1 2 5 0) [0, BitVec.ofNat 64 v] = true) ∧
    (∀ f ∈ [0, 8], goIn world .twr { op := 0x61, useD := false, useA := true, useB := true, mask := 0xF } (wu 0 1 2 0 f) [0, 0] = true) ∧
    (∀ f ∈ [0, 1], goIn bare .nsctlCreateZoned { op := 0x63, useD := false, useA := true, useB := true, mask := 0xF } (wu 0 1 2 0 f) [0, 0] = true) ∧
    (∀ g ∈ [1, 2048], goIn bare .nsctlCreateConventional { op := 0x63, useD := false, useA := true, useB := true, mask := 0xF } (wu 0 1 2 1 0)
      [BitVec.ofNat 64 g, 1] = true) ∧
    canon Zone.none world.zns.zones = true ∧ bare.convSpace = none ∧ bare.zns.spaces = [] := by decide +kernel

/-- The world with buffer 1 shared by owners 16 and 17, its final owner 16. -/
def shared : State := { world with bpm := { world.bpm with
  owners := world.bpm.owners ++ [(17, some { comp := 0, segLimit := 2, leak := false })]
  bufs := [(1, some { domain := 0, part := 0, pool := 0, cells := [0], size := 16384, owner := 16, holders := [(16, 0), (17, 0)]
                      final := some 16, freeing := false, gone := false, at_ := 0, withdraw := false })] } }

/-- The world at Black in every pool of region A, and owner 17 registered. -/
def black : State := { world with bpm := { world.bpm with
  owners := world.bpm.owners ++ [(17, some { comp := 0, segLimit := 2, leak := false })]
  general := world.bpm.general.map (fun p => { p with entered := 7 }) } }

def bf (op : Nat) (m : Nat) : Form := { op := op, useD := false, useA := true, useB := true, mask := m }

theorem test_buffers_ready : canon none world.bpm.bufs = true ∧ canon none shared.bpm.bufs = true ∧
    (∀ x ∈ [(0, 0, 1), (0, 0, 4194304), (1, 15, 65536)], goIn world .balloc (bf 0x90 1) (wu 0 1 2 x.1 x.2.1) [BitVec.ofNat 64 x.2.2, 16] = true ∧
      (world.storeFor x.1 (if x.1 = 0 then ctxRegion 1 else x.2.1) x.2.2).isSome = true) ∧
    (goIn black .balloc (bf 0x90 1) (wu 0 1 2 0 0) [4096, 16] = true ∧ black.level (State.storeAt 0 0 0) = 3) ∧
    (goIn black .bshare (bf 0x91 1) (wu 0 1 2 0 0) [1, 17] = true ∧ goIn black .bshare (bf 0x91 1) (wu 0 1 2 1 0) [1, 17] = true ∧
      goIn shared .bshare (bf 0x91 1) (wu 0 1 2 1 0) [1, 17] = true) ∧
    (goIn black .bdrop (bf 0x92 0) (wu 0 1 2 0 0) [1, 17] = true ∧ goIn shared .bdrop (bf 0x92 0) (wu 0 1 2 0 0) [1, 16] = true ∧
      goIn shared .bdrop (bf 0x92 0) (wu 0 1 2 0 0) [1, 17] = true) ∧
    (goIn shared .bfree (bf 0x93 0) (wu 0 1 2 0 0) [1, 17] = true ∧ goIn world .bfree (bf 0x93 0) (wu 0 1 2 0 0) [1, 16] = true) ∧
    (world.owner 16).map (·.comp) = some 0 ∧ (shared.owner 17).map (·.comp) = some 0 := by decide +kernel

/-- The world with a record in the queue of the instance, and the context it runs in. -/
def evented (op : Nat) (w : KWord) (k : KCtx) (es : List EvRec) (subs : List (Nat × Nat)) : State :=
  let s := withReel world op w k
  { s with kry := { s.kry with insts := [(1, some { inst w.ctx with events := es, eventsLost := 2, subs := subs })] } }

/-- An event record. -/
def anEvent : EvRec := { time := 1, code := 0x0D00, source := srcThermal, comp := 0, level := 2, payload := .fields [0, 1, 0, 5] }

def goE (i : KWord → Instr) (f : Form) (w : KWord) (regs : List Word) (es : List EvRec) (subs : List (Nat × Nat)) : Bool :=
  isReady (evented f.op w (ctx0 regs) es subs) f false w (reelOf f.op w (ctx0 regs)) && runs (i w) (evented f.op w (ctx0 regs) es subs)

theorem test_events_registers_ready :
    (∀ es ∈ [[], [anEvent]], goE .evnext { op := 0xC1, useD := false, useA := true, useB := false, mask := 0 } (wu 0 1 0 0 0) [16352] es [] = true) ∧
    (eventBytes anEvent).length = 32 ∧
    (∀ x ∈ [[], [(0, 1), (2, 3), (4, 5), (6, 7)]], goE .evsubAdd { op := 0xC2, useD := false, useA := true, useB := true, mask := 1 }
      (wu 0 1 2 0 0) [0, 0xFFFF] [] x = true) ∧
    goE .evsubClear { op := 0xC2, useD := false, useA := true, useB := true, mask := 1 } (wu 0 1 2 1 0) [0, 0xFFFF] [] [(0, 1)] = true ∧
    (∀ a ∈ [0, 0x3FFFFF8], goIn world .regrd { op := 0xC3, useD := false, useA := true, useB := false, mask := 0 } (wu 0 1 0 0 0)
      [BitVec.ofNat 64 a] = true) := by decide +kernel

theorem test_codec_contexts_ready :
    world.part.codec = true ∧ codecBusy world 0 = false ∧ canon CodecCtx.none world.fcd.ctxs = true ∧
    (∀ x ∈ [(0, 0), (2047, 1), (0, 1)], goIn world .cxgrant { op := 0xA0, useD := false, useA := true, useB := true, mask := 0 }
      (wu 0 1 2 0 0) [BitVec.ofNat 64 x.1, BitVec.ofNat 64 x.2] = true) ∧
    goIn world .cxrevoke { op := 0xA1, useD := false, useA := true, useB := false, mask := 0 } (wu 0 1 0 0 0) [0] = true ∧
    (world.codecCtx 0).grant = some 0 ∧ (world.codecCtx 2047).grant = none := by decide +kernel

/-! ## Zone actions of reels, WAIT, COMMIT -/

def zf : Form := { op := 0x64, useD := false, useA := true, useB := false, mask := 0xF }

/-- The world with zone 0 in a state, its write pointer at `wp`. -/
def zoned (st : ZState) (wp : Nat) : State := { world with zns := { world.zns with
  zones := [(0, { Zone.none with state := st, wp := wp, active := decide (st = .implicitOpen ∨ st = .explicitOpen ∨ st = .closed)
                                 setting := some false, acked := wp })] } }

/-- R66: every transition that an action of a reel has, and every state that has none. -/
theorem test_zone_actions_ready :
    (∀ st ∈ [ZState.implicitOpen, .explicitOpen, .closed, .full, .readOnly, .offline],
      goIn (zoned st 64) .zctlOpen zf (wu 0 1 0 0 0) [0] = true ∧ canon Zone.none (zoned st 64).zns.zones = true) ∧
    (∀ x ∈ [(ZState.implicitOpen, 64), (.explicitOpen, 64), (.explicitOpen, 0), (.empty, 0), (.full, 64), (.readOnly, 64), (.offline, 0)],
      goIn (zoned x.1 x.2) .zctlClose zf (wu 0 1 0 1 0) [0] = true) ∧
    (∀ x ∈ [(ZState.empty, 0), (.readOnly, 64), (.offline, 0)], goIn (zoned x.1 x.2) .zctlFinish zf (wu 0 1 0 2 0) [0] = true) ∧
    (∀ st ∈ [ZState.empty, .implicitOpen, .explicitOpen, .closed, .full, .readOnly, .offline],
      goIn (zoned st 0) .zctlReset zf (wu 0 1 0 3 0) [0] = true ∧ goIn (zoned st 0) .zctlOffline zf (wu 0 1 0 4 0) [0] = true) ∧
    world.zoneExists 0 = true ∧ world.frozen (world.zoneComp 0) = false ∧ world.zonePair 0 = none ∧ world.car.flights = [] ∧
    world.kry.ops = [] := by decide +kernel

theorem test_delete_stop_ready :
    goIn world .nsctlDelete { op := 0x63, useD := false, useA := true, useB := true, mask := 0xF } (wu 0 1 0 2 0) [1] = true ∧
    (world.carriage 0).coupled = true ∧ (world.carriage 0).nsid = 1 ∧ world.space 1 = some { kind := .zoned 0, comp := 0, lba16 := false, deleting := false } ∧
    canon Carriage.none world.car.table = true ∧ canon none world.zns.spaces = true ∧
    goIn world .stop { op := 0xD3, useD := false, useA := false, useB := false, mask := 0 } (wu 0 0 0 0 0) [] = true ∧
    world.boot.parked = false ∧ world.mnt.stopping = false ∧ world.fcd.jobs = [] := by decide +kernel

/-- A context with ticket 0 complete, ticket 5 complete with a host DMA fault, and ticket 63 open. -/
def tickets : KCtx := { ctx0 [5, 0, 63] with tickets :=
  [{ num := 0, done := some (0, 7), dmaFault := none, scratch := [] }, { num := 5, done := some (1, 0), dmaFault := some 2, scratch := [] },
   { num := 63, done := none, dmaFault := none, scratch := [] }] }

def wf : Form := { op := 0x02, useD := false, useA := true, useB := true, mask := 0x1F }

theorem test_wait_ready :
    (∀ w ∈ [wu 0 0 2 1 0, wu 0 0 2 2 0, wu 0 1 2 1 0, wu 0 3 2 1 0, wu 0 0 3 8 0, wu 0 0 2 4 0, wu 0 0 2 16 0, wu 0 3 2 31 0],
      goK world .wait wf true w tickets = true) ∧
    (tickets.tickets.map (·.num)).Nodup ∧ (∀ x ∈ tickets.tickets, x.num < 64) ∧
    heldMask 1 (conditions world tickets (inst 1) 63 0) = 0 ∧ heldMask 2 (conditions world tickets (inst 1) 0 0) ≠ 0 ∧
    heldMask 8 (conditions world tickets (inst 1) 0 0) ≠ 0 := by decide +kernel

theorem test_wait_delivers : Delivers tickets 2 0 { num := 0, done := some (0, 7), dmaFault := none, scratch := [] } ∧
    Delivers tickets 1 5 { num := 5, done := some (1, 0), dmaFault := some 2, scratch := [] } ∧
    (∀ x, ¬ Delivers tickets 8 0 x) := by
  refine ⟨⟨by simp [tickets], rfl, Or.inl ⟨by decide, by decide⟩⟩, ⟨by simp [tickets], rfl, Or.inr ⟨by decide, by decide, rfl⟩⟩, ?_⟩
  rintro x ⟨-, -, h | h⟩
  · exact absurd h.1 (by decide)
  · exact absurd h.2.1 (by decide)

/-- The same reel once it waits. -/
def waiting : State := { world with kry := { world.kry with
  insts := [(1, some (inst 1))], ctxs := [(1, some { tickets with wait := .inWait 2 0 0 })] } }

theorem test_wait_met : runs (.waitConditionMet 1) waiting = true ∧ waiting.kinst 1 = some (inst 1) ∧
    (waiting.kctx 1).map (·.wait) = some (.inWait 2 0 0) := by decide +kernel

/-- The world, mounted and still Parked. -/
def parkedMounted : State := { world with boot := { world.boot with parked := true } }

def cf (op : Nat) : Form := { op := op, useD := false, useA := false, useB := false, mask := 0 }

theorem test_commit_ready :
    (∀ h ∈ [[], [Held.pmode 0, .pmode 2], [.evpost 0x8000 2 (List.replicate 16 1)]],
      goK world .commit (cf 0x03) true (wu 0 0 0 0 0) { ctx0 [] with held := h } = true) ∧
    goK parkedMounted .commit (cf 0x03) true (wu 0 0 0 0 0) { ctx0 [] with held := [.unpark] } = true ∧ parkedMounted.mnt.state = 4 ∧
    goK world .halt (cf 0x04) false (wu 0 0 0 0 0) (ctx0 [9]) = true := by decide +kernel

/-- A reel whose line is not resident, and one with a ticket open in each of its units. -/
def missing : State := { world with kry := { world.kry with
  insts := [(1, some { inst 1 with lines := [] })], ctxs := [(1, some (ctx0 []))] } }

def opened (op : UnitOp) : State := { world with kry := { world.kry with
  insts := [(1, some (inst 1))], ops := [{ ctx := 1, inst := 1, ticket := 3, op := op }]
  ctxs := [(1, some { ctx0 [] with tickets := [{ num := 3, done := none, dmaFault := none, scratch := [] }] })] } }

theorem test_completions_ready :
    runs (.lineFillComplete 1 .filled) missing = true ∧ runs (.lineFillComplete 1 .crcMismatch) missing = true ∧
    missing.mayIssue (ctx0 []) = true ∧ canon none missing.kry.ctxs = true ∧ canon none missing.kry.insts = true ∧
    (∀ x ∈ [(UnitOp.readTemp 0, 255), (.answered 4 9, 0)], runs (.ticketCompletion 1 3 0 (BitVec.ofNat 64 x.2) []) (opened x.1) = true) ∧
    runs (.ticketCompletion 1 3 0 0 [1, 2, 3]) (opened (.hostRead { port := 0, pasid := none, comp := 0 } 0 3 1 16381)) = true := by
  decide +kernel

theorem test_fetch_address : FetchAddress (ctx0 []) (ctx0 []).pc := by simp [FetchAddress, ctx0]
/-! ## COUPLE, and the host's I/O commands -/

/-- A descriptor in scratch that couples a carriage to zone 5 of namespace 1, owner 16, with DMA groups of both halves. -/
def coupler : KCtx := { ctx0 [16] with
  scratch := writeBytes [] 16 (leBytes 8 (5 * 256) ++ leBytes 8 (0x0101 * 2 ^ 48 + 16 * 2 ^ 32) ++ leBytes 8 (2 ^ 32)) }

theorem test_couple_ready :
    goK world .couple { op := 0x80, useD := false, useA := true, useB := false, mask := 3 } false (wu 0 1 0 0 0) coupler = true ∧
    coupling world (reelOf 0x80 (wu 0 1 0 0 0) coupler) (wu 0 1 0 0 0) = .at_ 1 ∧ world.carBusy 1 = false := by decide +kernel

def completed (t : State) (h : HostCmd) (st : Status) : Bool :=
  t.hif.out.any (fun o => match o with
    | .cqe c => decide (c.cmd = h) && decide (c.status = st) && decide (c.dnr = st.dnr)
    | _ => false)

/-- The command completes with the status and leaves the tables as they are. -/
def only (i : Instr) (s : State) (h : HostCmd) (st : Status) : Bool :=
  after i s (fun t => completed t h st && decide (t.zns = s.zns) && decide (t.car = s.car) && decide (t.fls = s.fls) &&
    decide (t.bpm = s.bpm) && decide (t.kry = s.kry) && decide (t.cmp = s.cmp) && decide (t.sec = s.sec) && decide (t.jrn = s.jrn))

/-- One LBA of 4 KiB. -/
def ioAt (slba : Nat) (n : Nat) : IoArgs := { slba := slba, nlb := n, pract := true, prchk := 0, lbat := 0, lbatm := 0, ilbrt := 0 }

def nsOne : NsEntry := { kind := .zoned 0, comp := 0, lba16 := false, deleting := false }

def ioReady (s : State) : Bool := s.fetchable io1 && !s.boot.parked && !s.sec.sanActive && !s.frozen 0

theorem io_ready {s : State} (h : ioReady s = true) : IoReady s io1 := by
  simp only [ioReady, Bool.and_eq_true, Bool.not_eq_true'] at h
  exact ⟨h.1.1.1, by decide, h.1.1.2, h.1.2, ⟨rfl, rfl⟩, h.2⟩

def onZone (s : State) (slba z u c key : Nat) : Bool :=
  decide (s.space 1 = some nsOne) && decide (s.placeOf nsOne slba = some (some z, u)) &&
    decide (s.carriageFor 0 (some z) = some c) && decide (s.keyFor c = some key) && !s.resetPending z && ioReady s

theorem on_zone {s : State} {slba z u c key : Nat} (h : onZone s slba z u c key = true) :
    OnZone s io1 slba nsOne z u c key ∧ IoReady s io1 := by
  simp only [onZone, Bool.and_eq_true, Bool.not_eq_true', decide_eq_true_eq] at h
  exact ⟨⟨h.1.1.1.1.1, ⟨0, rfl⟩, h.1.1.1.1.2, h.1.1.1.2, h.1.1.2, h.1.2⟩, io_ready h.2⟩

/-- The write is admitted: the pointer moves, the state is `st`, and a flight carries the command. -/
def admitted (i : Instr) (s : State) (k : FlightKind) (len : Nat) (st : ZState) : Bool :=
  after i s (fun t => decide ((t.zone 0).wp = (s.zone 0).wp + len) && decide ((t.zone 0).state = st) && decide (t.zns.data = s.zns.data) &&
    t.car.flights.any (fun v => decide (v.id = s.car.nextFlight ∧ v.kind = k ∧ v.zone = some 0 ∧ v.start = (s.zone 0).wp ∧ v.len = len)))

theorem test_writes_admitted :
    (∀ x ∈ [(ZState.empty, 0, ZState.implicitOpen), (.implicitOpen, 64, .implicitOpen), (.explicitOpen, 64, .explicitOpen),
        (.closed, 64, .implicitOpen), (.implicitOpen, 368639, .full)],
      onZone (zoned x.1 x.2.1) x.2.1 0 x.2.1 0 0 = true ∧ onZone (zoned x.1 x.2.1) 0 0 0 0 0 = true ∧
      ((zoned x.1 x.2.1).zone 0).wp + 1 ≤ ((zoned x.1 x.2.1).zone 0).cap ∧
      (x.1 ∈ [.empty, .closed] → (zoned x.1 x.2.1).openCheck 0 (decide (x.1 = .empty)) ((zoned x.1 x.2.1).defaultDirect 0) = none) ∧
      admitted (.write io1 (ioAt x.2.1 1)) (zoned x.1 x.2.1) .write 1 x.2.2 = true ∧
      admitted (.zoneAppend io1 (ioAt 0 1)) (zoned x.1 x.2.1) .append 1 x.2.2 = true ∧
      admitted (.writeZeroes io1 (ioAt x.2.1 1)) (zoned x.1 x.2.1) .zeroes 1 x.2.2 = true) ∧
    world.spaceLbas nsOne ≥ 368640 ∧ nsOne.unitsPerLba = 1 := by decide +kernel

theorem test_writes_refused :
    (∀ x ∈ [(ZState.full, 64, 64, Status.zoneFull), (.readOnly, 64, 64, .zoneReadOnly), (.offline, 0, 0, .zoneOffline),
        (.implicitOpen, 64, 65, .zoneInvalidWrite), (.empty, 0, 1, .zoneInvalidWrite), (.implicitOpen, 368640, 368640, .zoneBoundary)],
      onZone (zoned x.1 x.2.1) x.2.2.1 0 x.2.2.1 0 0 = true ∧ only (.write io1 (ioAt x.2.2.1 1)) (zoned x.1 x.2.1) io1 x.2.2.2 = true) ∧
    only (.zoneAppend io1 (ioAt 0 1)) (zoned .full 64) io1 .zoneFull = true ∧
    only (.zoneAppend io1 (ioAt 64 1)) (zoned .empty 64) io1 .invalidField = true := by decide +kernel

/-- The world in which a sanitize runs, and one without carriages. -/
def sanitizing : State := { world with sec := { world.sec with sanActive := true } }
def uncoupled : State := { world with car := { world.car with table := [] } }
def parked : State := { world with boot := { world.boot with parked := true } }

theorem test_first_check :
    (∀ i ∈ [Instr.read io1 (ioAt 0 1), .write io1 (ioAt 0 1), .writeZeroes io1 (ioAt 0 1), .verify io1 (ioAt 0 1), .flush io1],
      only i parked io1 .sequenceError = true ∧ only i sanitizing io1 .sanitizeInProgress = true) ∧
    (∀ h ∈ [{ io1 with fused := true }, { io1 with rsvd := true }],
      ∀ i ∈ [Instr.read h (ioAt 0 1), .write h (ioAt 0 1), .writeZeroes h (ioAt 0 1), .verify h (ioAt 0 1), .flush h],
        only i world h .invalidField = true) ∧
    (∀ x ∈ [({ io1 with nsid := 3 }, 0, Status.invalidNamespace), (io1, 3000000000, .lbaOutOfRange)],
      ∀ i ∈ [Instr.read x.1 (ioAt x.2.1 1), .write x.1 (ioAt x.2.1 1), .writeZeroes x.1 (ioAt x.2.1 1), .verify x.1 (ioAt x.2.1 1)],
        world.fetchable x.1 = true ∧ only i world x.1 x.2.2 = true) ∧
    (∀ i ∈ [Instr.read io1 (ioAt 0 1), .write io1 (ioAt 0 1), .writeZeroes io1 (ioAt 0 1), .verify io1 (ioAt 0 1)],
      uncoupled.placeOf nsOne 0 = some (some 0, 0) ∧ uncoupled.carriageFor 0 (some 0) = none ∧
      after i uncoupled (fun t => completed t io1 .namespaceNotReady &&
        decide (t.car = { uncoupled.car with miss := uncoupled.car.miss + 1 })) = true) ∧
    parked.fetchable io1 = true ∧ sanitizing.fetchable io1 = true := by decide +kernel

/-- Completes with the status, and no zone changes. -/
def quietly (i : Instr) (s : State) (st : Status) : Bool := after i s (fun t => completed t io1 st && decide (t.zns = s.zns))

theorem test_reads_ready :
    onZone (zoned .implicitOpen 64) 70 0 70 0 0 = true ∧ (zoned .implicitOpen 64).sensesOf (some 0) 70 1 = [] ∧
    70 + 1 ≤ nsOne.zsze * nsOne.unitsPerLba ∧
    only (.read io1 (ioAt 0 1)) (zoned .offline 0) io1 .zoneOffline = true ∧
    quietly (.read io1 (ioAt 70 1)) (zoned .implicitOpen 64) .success = true ∧
    quietly (.verify io1 (ioAt 70 1)) (zoned .implicitOpen 64) .success = true ∧
    quietly (.compare io1 (ioAt 70 1) [] []) (zoned .implicitOpen 64) .compareFailure = true ∧
    only (.flush io1) (zoned .implicitOpen 64) io1 .success = true ∧
    (∀ d ∈ [true, false], only (.datasetManagement io1 d [(70, 1)]) (zoned .implicitOpen 64) io1 .success = true) := by decide +kernel

/-- The command completes with success and the zone is then in the state with the pointer. -/
def gives (i : Instr) (s : State) (st : ZState) (wp : Nat) : Bool :=
  after i s (fun t => completed t io1 .success && decide ((t.zone 0).state = st) && decide ((t.zone 0).wp = wp))

theorem test_zone_management_ready :
    (∀ st ∈ [ZState.empty, .implicitOpen, .explicitOpen, .closed, .full, .readOnly, .offline],
      onZone (zoned st 64) 0 0 0 0 0 = true ∧ canon Zone.none (zoned st 64).zns.zones = true) ∧
    (∀ st ∈ [ZState.implicitOpen, .explicitOpen, .closed], gives (.zoneOpen io1 0 false) (zoned st 64) .explicitOpen 64 = true) ∧
    (∀ st ∈ [ZState.implicitOpen, .explicitOpen], gives (.zoneClose io1 0 false) (zoned st 64) .closed 64 = true) ∧
    gives (.zoneFinish io1 0 false) (zoned .empty 0) .full 368640 = true ∧
    (∀ st ∈ [ZState.empty, .implicitOpen, .explicitOpen, .closed, .full], gives (.zoneReset io1 0 false) (zoned st 64) .empty 0 = true) ∧
    gives (.zoneOffline io1 0 false) (zoned .readOnly 64) .offline 64 = true ∧
    (∀ st ∈ [ZState.full, .readOnly, .offline], quietly (.zoneOpen io1 0 false) (zoned st 64) .invalidTransition = true) ∧
    (∀ st ∈ [ZState.empty, .full, .readOnly, .offline], quietly (.zoneClose io1 0 false) (zoned st 64) .invalidTransition = true) ∧
    (∀ st ∈ [ZState.readOnly, .offline], quietly (.zoneReset io1 0 false) (zoned st 64) .invalidTransition = true) ∧
    quietly (.zoneManagementReceive io1 0 0 0 64 false) (zoned .implicitOpen 64) .success = true ∧
    only (.zoneManagementReceive io1 0 1 0 64 false) (zoned .implicitOpen 64) io1 .invalidField = true := by decide +kernel
/-! ## Staging, dies, rows and members -/

/-- A host write of one unit at unit 64 of zone 0. -/
def lone (g : Seg) : Flight :=
  { world.newFlight io1 .write 0 1 (some 0) with id := 5, start := 64, len := 1, segs := [g] }

def seg (st : SegStep) (b : Option Nat) : Seg :=
  { off := 0, len := 1, step := st, channel := 3, buffer := b, seq := 1, data := [], mirrored := false }

/-- The zone after the write was admitted, and the write in flight. -/
def writing (g : Seg) : State := let s := zoned .implicitOpen 65; { s with car := { s.car with flights := [lone g], nextFlight := 6 } }

/-- An acknowledged segment of a direct zone. -/
def stagedSeg : Staged := { flight := 5, seg := 0, zone := some 0, start := 64, len := 1, cls := 1, comp := 0, buffer := 77 }

def directStaged : State := { world with
  zns := { world.zns with zones := [(0, { Zone.none with state := .implicitOpen, wp := 65, direct := true, active := true })] }
  car := { world.car with staged := [stagedSeg] }
  bpm := { world.bpm with segments := [(16, 77, 0)], staging := { world.bpm.staging with held := 1 } } }

theorem test_staging_ready :
    (writing (seg .waiting none)).nextGrant = some (5, 0) ∧ (world.pickChannel 0xFFFF).isSome = true ∧
    runs (.segmentGrant 5 0) (writing (seg .waiting none)) = true ∧
    (lone (seg .granted (some 77))).status = .success ∧ (world.carriage 0).twin = true ∧ world.plog.limitMib ≠ 0 ∧
    (writing (seg .granted (some 77))).dirtyUnits + 1 ≤ 1024 * 256 ∧
    after (.segmentTransferComplete 5 0 (List.replicate 4096 7) []) (writing (seg .granted (some 77)))
      (fun t => completed t io1 .success && decide (t.car.flights = [])) = true ∧
    after (.dirtyLimitWaitEnd 5 0) (writing (seg .dirtyWait (some 77)))
      (fun t => completed t io1 .success && decide (t.car.flights = [])) = true ∧
    (∀ st ∈ [1, 2], after (.hostDmaFault 3 st (.seg 5 0)) (writing (seg .granted (some 77)))
      (fun t => completed t io1 .dataTransferError && t.hif.raised.any (fun e => decide (e.code = 0x0103)) &&
        decide ((t.zone 0).wp = 64)) = true) ∧
    after (.stagingSegmentRelease 5 0) directStaged (fun t => decide (t.car.staged = []) && decide (t.bpm.segments = []) &&
      decide (t.bpm.staging.held = 0)) = true := by decide +kernel

/-- A reel whose ticket 3 waits for a host read. -/
def hostReading : State := { world with kry := { world.kry with
  insts := [(1, some (inst 1))], ops := [{ ctx := 1, inst := 1, ticket := 3, op := .hostRead (world.dmaFrom (ctx0 [])) 0 4096 1 0 }]
  ctxs := [(1, some { ctx0 [] with tickets := [{ num := 3, done := none, dmaFault := none, scratch := [] }] })] } }

theorem test_ticket_fault : (∀ st ∈ [1, 2], after (.hostDmaFault 127 st (.ticket 1 3)) hostReading (fun t =>
    t.hif.raised.any (fun e => decide (e.code = 0x0103)) && decide (t.kry.ops = []) &&
    (match t.kctx 1 with
     | some k => k.tickets.any (fun x => decide (x.num = 3 ∧ x.done = some (1, 0) ∧ x.dmaFault = some st))
     | none => false)) = true) := by decide +kernel

/-- An entry of a die queue. -/
def entry (k : DieOpKind) (b : Nat) (p : Purpose) (wait : Bool) : QEntry :=
  { kind := k, block := b, page := 0, cls := 1, comp := 0, admittedAt := 0, capWait := wait, flush := false, purpose := p }

def opOf (e : QEntry) (susp slot : Bool) : DieOp :=
  { entry := e, issuedAt := 1, leftNs := 1000, sinceAt := 1, suspended := susp, slot := slot, suspends := 0, served := 0, posted := false
    region := 0 }

/-- The world with one die that holds an operation and a queue, and a share of the cap on programs. -/
def dieWith (s : State) (op : Option DieOp) (q : List QEntry) : State :=
  { s with lvl := { s.lvl with budgetA := { s.lvl.budgetA with shareProg := 128 } }, fls := { s.fls with dies := [(0, { Die.idle with op := op, queue := q })] } }

theorem test_cap_slots :
    (let e := entry .progQlc 1000 (.zoneRow 0 0 0) true
     let s := dieWith world none [e]
     s.firstHeldBack = none ∧ s.capHead 0 = some e ∧ s.slotFree 0 e = true ∧ s.slotFirst 0 e = true ∧
     after (.capSlotGrant 0) s (fun t => decide ((t.die 0).queue = []) && decide ((t.die 0).op.map (·.entry) = some e)) = true) ∧
    (let e := entry .progQlc 1000 (.zoneRow 0 0 0) false
     let s := dieWith world (some (opOf e true false)) []
     s.firstHeldBack = some (1, 0) ∧ s.slotFree 0 e = true ∧
     after (.capSlotGrant 0) s (fun t => decide ((t.die 0).op.map (fun o => (o.slot, o.suspended, o.leftNs)) = some (true, false, 21000)))
       = true) := by decide +kernel

theorem test_cap_slot_refused :
    (let e := entry .progQlc 7 (.zoneRow 0 0 0) true
     let s := dieWith world none [e]
     s.capHead 0 = some e ∧ s.slotFree 0 e = true ∧ s.refused 0 e = true ∧
     after (.capSlotGrant 0) s (fun t => decide ((t.die 0).queue = []) && decide ((t.die 0).op = none) &&
       decide (t.fls.refusals ≠ [])) = true) := by decide +kernel

/-- A host read of one unit in its first tier. -/
def sense : Sense := { unit := 0, count := 1, die := 0, block := 7, page := 0, tier := 0, attempt := 0, around := false, land := none
                       set0 := 0, best := none, done := false }

def reading : State := let s := dieWith (zoned .full 368640) (some (opOf (entry .read 7 (.hostRead 5 0) false) false false)) []
  { s with car := { s.car with nextFlight := 6, flights := [{ world.newFlight io1 .read 0 1 (some 0) with
      id := 5, len := 1, senses := [sense], data := [1, 2] }] } }

theorem test_sense_ready : reading.canFinish 0 (.hostRead 5 0) = true ∧ reading.zonePair 0 = none ∧
    after (.readSenseComplete 5 0 true 0) reading (fun t => completed t io1 .success && decide (t.car.flights = []) &&
      decide (Output.data io1 [1, 2] ∈ t.hif.out) && decide (t.zns = reading.zns)) = true := by decide +kernel

/-- A landing row with one unit on die 0. -/
def landUnit (done : Bool) : LandUnit := { die := 0, block := 7, page := 0, pages := [(0, 15)], valid := true, pinned := false, programmed := done }

def landed (done : Bool) (n : Nat) : State := { world with fls := { world.fls with
  dies := [(0, { Die.idle with op := some (opOf (entry .progSlc 7 (.landing 1 0) false) false true) })]
  landing := [(1, some { units := List.replicate n (landUnit done), front := [], closed := false })] } }

theorem test_programs_end :
    (let s := dieWith (zoned .implicitOpen 64) (some (opOf (entry .progQlc 7 (.zoneRow 0 0 3) false) false true)) []
     (s.endable 0 isProgram).isSome = true ∧ after (.programComplete 0) s (fun t => decide ((t.die 0).op = none) &&
       decide ((t.row 0 0).programmed = 8) && decide (t.fls.blocks = s.fls.blocks)) = true) ∧
    (let s := dieWith (zoned .implicitOpen 64) (some (opOf (entry .progQlc 7 (.fold 0 95 15) false) false true)) []
     after (.programComplete 0) s (fun t => decide ((t.row 0 95).programmed = 0x8000)) = true) ∧
    (∀ p ∈ [Purpose.conventional 0 0, .journal, .checkpoint, .store, .reloc 1, .segment 1 0 1 0, .reel 1 3],
      runs (.programComplete 0) (dieWith world (some (opOf (entry .progSlc 7 p false) false true)) []) = true) ∧
    (let s := landed false 1
     after (.programComplete 0) s (fun t => match t.landRow 1 with
       | some w => decide (w.units.map (·.programmed) = [true])
       | none => false) = true) ∧
    (∀ x ∈ [(Role.zone, DieOpKind.eraseQlc, Role.zone, 4), (.landing, .eraseSlc, .landing, 1), (.spare, .eraseQlc, .spare, 4),
        (.system, .eraseSlc, .system, 1)],
      let s := dieWith world (some (opOf (entry x.2.1 7 (.erase x.1) false) false true)) []
      (s.endable 0 isErase).isSome = true ∧ after (.eraseComplete 0) s (fun t =>
        decide ((t.block 0 7).role = x.2.2.1 ∧ (t.block 0 7).wear = (s.block 0 7).wear + x.2.2.2 ∧ (t.block 0 7).wp = 0 ∧
          (t.die 0).op = none)) = true) ∧
    (∀ p ∈ [Purpose.zoneRow 0 0 0, .erase .zone],
      let s := dieWith (zoned .implicitOpen 64) (some (opOf (entry .progQlc 7 p false) false true)) []
      after (.dieStatusReport 0 true) s (fun t => decide ((t.block 0 7).use = .retired)) = true ∧
      runs (.dieStatusReport 0 false) s = true ∧
      after (.dieTimeout 0 false) s (fun t => (t.die 0).lost) = true ∧
      after (.dieTimeout 0 true) s (fun t => (t.die 0).lost && (t.channel (dieChannel 0)).lost) = true) := by decide +kernel
/-- The world, past its first checkpoint, with row 0 of zone 0. -/
def rowed (r : Row) : State := let s := zoned .full 368640
  { s with mnt := { s.mnt with firstCkpt := false }
           zns := { s.zns with rows := [(0, r)] } }

def open16 : List (Nat × Nat) := (List.range 16).map (fun k => (k * 16, 20))

/-- The same with the members of the zone. -/
def membered : State := let s := rowed { Row.none with programmed := 0xFFFF, qlc := true, issued := true }
  { s with
    zns := { s.zns with zones := [(0, { s.zone 0 with members := open16 })] }
    fls := { s.fls with blocks := [(20, { freshBlock 0 20 with role := .zone, use := .zone 0, wp := 5760 })] } }

theorem test_rows_ready : world.working = true ∧
    (let s := rowed { Row.none with issued := true, programmed := 0xFFFF }
     runs (.stripeRowClose 0 0) s = true ∧ after (.stripeRowClose 0 0) s (fun t => (t.row 0 0).qlc && decide (t.car = s.car)) = true) ∧
    (let s := rowed { Row.none with issued := true, folding := true, programmed := 0xFFFF }
     after (.foldSwitch 0 0) s (fun t => (t.row 0 0).qlc && !(t.row 0 0).folding) = true) ∧
    after (.landingRowClose 1) (landed true 16) (fun t => match t.landRow 1 with
      | some w => w.closed
      | none => false) = true ∧
    (let s := rowed { Row.none with foldableAt := 5 }
     s.nextFold 0 = some 0 ∧ s.oldestFold 0 0 = true ∧ s.mayFold 0 0 = true ∧
       after (.foldStart 0 0) s (fun t => (t.row 0 0).folding && (t.row 0 0).issued && !(t.row 0 0).qlc) = true) ∧
    (let s := { world with fls := { world.fls with blocks := [(7, { freshBlock 0 7 with use := .landingClosed })] } }
     s.compactPick = some (0, 7)) ∧
    (∀ x ∈ [(Role.zone, DieOpKind.eraseQlc), (.system, .eraseSlc), (.spare, .eraseQlc)],
     let s := { dieWith world none [] with fls := { (dieWith world none []).fls with
       dies := [(0, { Die.idle with eraseQueue := [7] })], blocks := [(7, { freshBlock 0 7 with use := .deferred x.1 })] } }
     s.unjournalled 0 7 = false ∧ s.sensing 0 7 = false ∧ after (.deferredEraseStart 0) s (fun t => decide ((t.die 0).eraseQueue = []) &&
       ((t.die 0).queue.any (fun e => decide (e.kind = x.2)) ||
         decide ((t.die 0).op.map (fun o => o.entry.kind) = some x.2))) = true) ∧
    (let s := { membered with fls := { membered.fls with blocks := membered.fls.blocks ++ [(30, { freshBlock 0 30 with role := .zone, use := .free, wear := 5000 })] } }
     s.wearPick 0 = some (0, 0, 30) ∧ after (.wearRelocationStart 0) s (fun t => decide ((t.block 0 30).use = .target) &&
       decide (t.fls.relocs.map (fun r => (r.srcDie, r.srcBlock, r.dstBlock)) = [(0, 20, 30)])) = true) ∧
    (membered.promNext 0 = some (20, 0, 20) ∧ (membered.clusterOf 0).media.promHours ≠ 0 ∧
      after (.promenadeVisit 0 0x60 0) membered (fun t => decide ((t.block 0 20).reads = 8) && decide ((t.clusterOf 0).promNext = 21) &&
        decide ((0, 20) ∈ t.fls.refresh)) = true) := by decide +kernel
/-- The members' zone, a free block on die 0, and what the relocation commands work on. -/
def moving (q : List Rebuild) (rl : List Reloc) (rf : List (Nat × Nat)) : State := { membered with fls := { membered.fls with
  blocks := membered.fls.blocks ++ [(30, { freshBlock 0 30 with role := .zone, use := .target })]
  rebuild := q, relocs := rl, refresh := rf } }

/-- Units 0, 4, 8 … of the conventional namespace, all in the landing share. -/
def convUnits : List Nat := (List.range 960).map (· * 4)

def conventional (n : Nat) : State := { world with zns := { world.zns with
  carved := 1, convRegionNext := 4999 * 96 + 1
  convMap := (List.range n).map (fun i => (i * 4, BitVec.ofNat 32 (2 ^ 31 + i))) } }

theorem test_compaction_ready :
    (let s := { world with plog := { world.plog with limitMib := 50000000 }
                           fls := { world.fls with blocks := [(7, { freshBlock 0 7 with use := .landingClosed })] } }
     s.compactPick = some (0, 7) ∧ s.working = true ∧ s.landingAvail * 20 < s.landingTotal ∧
     after .compactionStart s (fun t => t.fls.compacting.any (fun x => decide (x.1 = 0 ∧ x.2.1 = 7))) = true) := by decide +kernel

theorem test_members_move_ready :
    (let s := moving [] [] [(0, 20)]
     s.moving 0 20 = false ∧ s.servedBy 0 20 = some (0, 0) ∧ s.isCarved 0 = false ∧ (s.bestFree 0 .zone).isSome = true ∧
     after (.relocationStart 0 20) s (fun t => decide (t.fls.relocs.map (fun r => (r.zone, r.member, r.srcBlock)) = [(0, 0, 20)])) = true) ∧
    (∀ k ∈ [RelocKind.refresh, .wear], let s := moving [] [{ id := 1, kind := k, zone := 0, member := 0, srcDie := 0, srcBlock := 20, dstDie := 0, dstBlock := 30, copied := 90 }] []
     after (.relocationCommit 1) s (fun t => decide ((t.zone 0).members = (0, 30) :: open16.tail) && decide ((t.block 0 30).use = .zone 0) &&
       decide (t.fls.relocs = [])) = true) ∧
    (let s := moving [{ zone := 0, member := 15, target := some (240, 30) }] [] []
     after (.rebuildStart 0 15) s (fun t => decide (t.fls.rebuild = []) &&
       decide (t.fls.relocs.map (fun r => (r.member, r.dstDie, r.dstBlock)) = [(15, 240, 30)])) = true) := by decide +kernel

theorem test_conventional_ready : (conventional 960).copyable convUnits = true ∧ canon 0xFFFFFFFF (conventional 960).zns.convMap = true ∧
    (conventional 960).freeConvRow.map (fun x => (x.1, decide ((x.2.convSlot (x.1 / 96)).failed = []) &&
      (x.2.convSlot (x.1 / 96)).members.all (fun m => !x.2.deadBlock m.1 m.2))) = some (4999 * 96 + 1, true) ∧
    after (.conventionalCopy convUnits) (conventional 960) (fun t => t.zns.convFills.any (fun f => decide (f.row = 4999 * 96 + 1)) &&
      decide (t.zns.convMap = (conventional 960).zns.convMap)) = true := by decide +kernel

/-- Unit 8 is on its way into row 1 of the carved slot, whose last program runs. -/
def filling (done : BitVec 16) : State :=
  let s := dieWith world (some (opOf (entry .progQlc 1000 (.conventional (4999 * 96 + 1) 15) false) false true)) []
  { s with zns := { s.zns with carved := 1, convMap := [(8, 0x80000005)]
                               convFills := [{ row := 4999 * 96 + 1, moves := [(8, 0, 3)], programmed := done }] } }

theorem test_conventional_row_programmed :
    ((filling 0x7FFF).endable 0 isProgram).isSome = true ∧ (filling 0x7FFF).working = true ∧
    after (.programComplete 0) (filling 0x7FFF) (fun t => decide (t.zns.convFills = []) &&
      decide (look 0xFFFFFFFF t.zns.convMap 8 = BitVec.ofNat 32 ((filling 0).convUnitAt 4999 (3840 + 3)))) = true ∧
    after (.programComplete 0) (filling 1) (fun t => decide (t.zns.convFills.map (·.programmed) = [0x8001]) &&
      decide (t.zns.convMap = [(8, 0x80000005)])) = true := by decide +kernel

theorem test_refused_and_promenade :
    (let e := entry .progQlc 7 (.zoneRow 0 0 0) false
     let s := { dieWith world none [] with fls := { (dieWith world none []).fls with refusals := [(0, e)] } }
     s.refusedAt 0 = some e ∧ after (.dieStatusReport 0 false) s (fun t => decide ((t.block 0 7).use = .retired) &&
       t.hif.raised.any (fun v => decide (v.code = 0x0504))) = true) ∧
    after (.promenadeVisit 0 0 4) membered (fun t => decide ((t.block 0 20).use = .retired)) = true := by decide +kernel

/-- Units 0 and 5 in row 1 of the carved slot, and nothing else in it. -/
def reclaimable : State := { world with zns := { world.zns with
  carved := 1, convMap := [(0, 3840), (5, 3841)], convRows := [(4999 * 96 + 1, 3)]
  convSlots := [(4999, { members := open16, failed := [] })] } }

theorem test_reclaim_empty_row : (let s := { reclaimable with zns := { reclaimable.zns with convMap := [], convRows := [(4999 * 96 + 1, 1)] } }
    s.reclaimPick = some (4999 * 96 + 1, 0) ∧ runs .conventionalReclaim s = true) := by decide +kernel

theorem test_reclaim_ready : reclaimable.reclaimPick = some (4999 * 96 + 1, 2) ∧ reclaimable.unitsInRow (4999 * 96 + 1) = [0, 5] ∧
    canon 0xFFFFFFFF reclaimable.zns.convMap = true ∧ 2 ≤ reclaimable.shareUnits ∧
    after .conventionalReclaim reclaimable (fun t => decide (2 ^ 31 ≤ (look 0xFFFFFFFF t.zns.convMap 0).toNat) &&
      decide (2 ^ 31 ≤ (look 0xFFFFFFFF t.zns.convMap 5).toNat)) = true := by decide +kernel
/-! ## Journal, mounts, scrubs, Compartment Control, controllers -/

theorem test_journal_ready :
    (let s := { world with jrn := { world.jrn with tail := 3 } }
     s.journalOpen = true ∧ after .journalUnitProgram s (fun t => decide (t.jrn.tail = 0 ∧ t.jrn.units = s.jrn.units + 1 ∧ t.nvNext.keys = s.sec.keys ∧ t.underWay .journal = true)) = true) ∧
    world.awake = true ∧ world.jrn.running = false ∧ world.mnt.stopping = false ∧
    after .checkpointStart world (fun t => t.jrn.running) = true ∧
    (let s := { world with jrn := { world.jrn with running := true } }
     s.jrn.stripes = 0 ∧ s.underWay .checkpoint = false ∧ s.mnt.closing = false ∧ after .checkpointValid s (fun t => !t.jrn.running && t.jrn.valid && decide (t.jrn.slot = 1 - s.jrn.slot)) = true) ∧
    (∀ x ∈ [(1, true), (2, false), (3, false)],
      let s := { world with mnt := { world.mnt with state := x.1 }, plog := { world.plog with marker := 1 } }
      s.mnt.waiting = false ∧ after (.mountComplete true true 3 40) s (fun t =>
        decide (t.mnt.state = 4 ∧ t.mnt.shutdown = 1 ∧ t.plog.marker = 0 ∧ t.mnt.scanned = !x.2)) = true ∧
      after (.mountComplete false true 3 40) s (fun t => decide (t.mnt.state = 5 ∧ t.zns = s.zns)) = true) := by decide +kernel

/-- The world with buffer 1 in the DRAM frame pool and a reel in context 1. -/
def scrubbed : State := { world with kry := { world.kry with insts := [(1, some (inst 1))], ctxs := [(1, some (ctx0 []))] } }

def corrected (n r : Nat) : State := { world with mem := { world.mem with
  corrections := put 0 world.mem.corrections (5 * 2 ^ 32 + 9) n, remap := put 0 world.mem.remap 5 r } }

theorem test_scrubs_ready : world.mem.dramH ≠ 0 ∧ world.mem.sramMin ≠ 0 ∧ world.dramAreaOk .fixed = true ∧ world.sramAreaOk .other = true ∧
    (∀ i ∈ [Instr.dramScrubStep (.clean 50 false), .dramScrubStep (.clean 100 true), .sramScrubStep (.clean 7)], runs i world = true) ∧
    after (.dramScrubStep (.corrected 7 9 1 .fixed)) world (fun t => decide (t.mem.dramCe = 1)) = true ∧
    (let s := { world with mem := { world.mem with marked := [9] } }
     after (.dramScrubStep (.corrected 0 9 1 .fixed)) s (fun t => decide (t.mem.dramCe = 1)) = true) ∧
    (world.buf 1).map (·.domain) = some 0 ∧
    after (.dramScrubStep (.uncorrectable 7 1 (.buffer 1 64))) world (fun t => decide (t.mem.dramUe = 1) &&
      decide (BadWord.buffer 1 64 ∈ t.mem.bad) && decide ((t.buf 1).map (·.withdraw) = some true)) = true ∧
    after (.sramScrubStep (.corrected 5 9 .other)) (corrected 1 0) (fun t => decide (look 0 t.mem.corrections (5 * 2 ^ 32 + 9) = 2)) = true ∧
    after (.sramScrubStep (.corrected 5 9 .other)) (corrected 2 15) (fun t => decide (look 0 t.mem.remap 5 = 16)) = true ∧
    after (.sramScrubStep (.uncorrectable 2039 9 (.scratch 1 8))) scrubbed (fun t => decide (t.mem.sramUe = 1) &&
      decide (look 0 t.mem.remap 2039 = 1) && decide (BadWord.scratch 1 8 ∈ t.mem.bad)) = true ∧
    (let s := { world with bpm := { world.bpm with leakMs := 100 } }
     0 < s.ownerHeld 16 ∧ s.bpm.leakMs ≤ s.ownerAge 16 ∧ s.owner 16 = some { comp := 0, segLimit := 64, leak := false } ∧
     after (.bufferLeak 16) s (fun t => decide ((t.owner 16).map (·.leak) = some true)) = true) := by decide +kernel

/-- The world with compartment 2 in a state. -/
def comped (v : Comp) : State := { world with cmp := { world.cmp with table := world.cmp.table ++ [(2, v)] }
                                              sec := { world.sec with keys := (2, 9) :: world.sec.keys } }

def inState (st : CState) : State := comped { Comp.free with state := st }

def controlReady (s : State) (c : Nat) : Bool :=
  s.fetchable adm && !s.boot.parked && !s.sec.sanActive && !s.frozen 0 && decide (1 ≤ c ∧ c < 1024) &&
    decide ((s.comp c).control = [] ∧ (s.comp c).reset = none ∧ (s.comp c).waiting = none) &&
    canon Zone.none s.zns.zones && canon Row.none s.zns.rows && canon Die.idle s.fls.dies &&
    decide ((s.fls.blocks.map (·.1)).Pairwise (· < ·)) && canon none s.fls.landing && canon Carriage.none s.car.table &&
    canon Comp.free s.cmp.table

theorem control_ready {s : State} {c : Nat} (h : controlReady s c = true) : ControlReady s adm c := by
  simp only [controlReady, Bool.and_eq_true, Bool.not_eq_true', decide_eq_true_eq] at h
  obtain ⟨⟨⟨⟨⟨⟨⟨⟨⟨⟨⟨⟨h1, h2⟩, h3⟩, h4⟩, h5⟩, h6⟩, h7⟩, h8⟩, h9⟩, h10⟩, h11⟩, h12⟩, h13⟩ := h
  exact ⟨⟨h1, rfl, h2, h3, ⟨rfl, rfl⟩, h4⟩, rfl, h5, h6, ⟨h7, h8, h9, h10, h11, h12, h13⟩⟩

/-- The command completes with the status, and compartment 2 is then in the state. -/
def controls (i : Instr) (s : State) (st : Status) (st2 : CState) : Bool :=
  controlReady s 2 && after i s (fun t => completed t adm st && decide ((t.comp 2).state = st2))

/-- The command waits, and compartment 2 is then in the state. -/
def waits (i : Instr) (s : State) (st2 : CState) : Bool :=
  controlReady s 2 && after i s (fun t => decide ((t.comp 2).state = st2))

/-- The record of compartment 2, frozen and without a key, and the parameters that bring it back to the same module. -/
def record : List Byte := ({ inState .frozen with sec := world.sec } : State).compRecord 2

def params : List Byte := leBytes 8 0 ++ leBytes 4 record.length ++ leBytes 2 2 ++ leBytes 2 0 ++ List.replicate 1424 0xFF ++ List.replicate 2656 0

/-- The world with groups owned by compartment 2, and with two commands in flight on it. -/
def groupOf (st : CState) : State := { inState st with zns := { world.zns with
  pgroups := world.zns.pgroups ++ [(9, some { comp := 2, defaultDirect := false, groups := [9], nsid := none })] } }

def busy : State := { inState .frozen with car := { world.car with flights := [{ lone (seg .granted (some 77)) with
  kind := .read, cmd := { io1 with comp := 2 } }] } }

theorem test_compartment_control :
    controls (.compartmentCreate adm 2 0) world .success .active = true ∧
    (∀ st ∈ [CState.active, .frozen, .saved, .resetting], controls (.compartmentCreate adm 2 0) (inState st) .sequenceError st = true) ∧
    controls (.compartmentDelete adm 2) (inState .saved) .success .free = true ∧ (inState .saved).compGroups 2 = [] ∧
    waits (.compartmentDelete adm 2) (inState .active) .resetting = true ∧ (inState .active).compReels 2 = [] ∧
    (groupOf .active).compGroups 2 ≠ [] ∧ controls (.compartmentDelete adm 2) (groupOf .active) .sequenceError .active = true ∧
    controls (.mapPasid adm 2 0xFFFFF 0) (inState .active) .success .active = true ∧
    (let s := { inState .active with cmp := { (inState .active).cmp with pasids := [(0, 7, 2)] } }
     s.pasidUsed 2 7 0 = false ∧ controls (.unmapPasid adm 2 7 0) s .success .active = true) ∧
    waits (.compartmentReset adm 2) (inState .active) .resetting = true ∧
    waits (.compartmentFreeze adm 2) (inState .active) .freezing = true ∧
    controls (.compartmentThaw adm 2) (inState .frozen) .success .active = true ∧
    controls (.compartmentSave adm 2 record.length) (inState .frozen) .success .saved = true ∧ (inState .frozen).compCmds 2 = 0 ∧
    busy.compCmds 2 ≠ 0 ∧ waits (.compartmentSave adm 2 4096) busy .saving = true := by decide +kernel

/-- Compartment 2 saved at the token of its record. -/
def savedTwo : State := comped { Comp.free with state := .saved, token := some world.now }

set_option maxRecDepth 100000 in
theorem test_restore_ready :
    (let s := savedTwo
     let u := s.fetch adm
     let r := State.recordOfBytes record
     leAt params 12 2 = 2 ∧ leAt params 14 1 = 0 ∧ State.recordValid params r = true ∧ u.targetFits 2 r = true ∧
     u.pasidsFit params 0 r = true ∧ u.groupsFit 2 params r = true ∧ u.roomFor r = true ∧ (u.recordKey r).isSome = true ∧
     (u.restoreNow 2 0 ((u.recordKey r).getD 0) params r).isSome = true ∧
     controls (.compartmentRestore adm params record) s .success .frozen = true) := by decide +kernel
/-- Compartment 1 of the world with these fields. -/
def tenant (v : Comp) : State := { world with cmp := { world.cmp with table := [(0, Comp.steward), (1, v)] } }

def act : Comp := { Comp.free with state := .active }

def theRead : Flight := { world.newFlight { io1 with comp := 1 } .read 0 1 (some 0) with id := 5, len := 1, senses := [sense] }

def resetting (r : ResetRun) : State := tenant { act with state := .resetting, reset := some r }

def run0 (sq : Bool) (k : List ResetKind) : ResetRun := { kinds := k, at_ := 7, squashed := sq }

theorem test_controllers_ready :
    world.reachable 0 = true ∧ world.port 0 = { world.port 0 with en := true } ∧
    after (.controllerDisable 0) world (fun t => !(t.port 0).en && (t.port 0).squashing) = true ∧
    (let s := { world with hif := { world.hif with port0 := { world.hif.port0 with en := false } } }
     s.reachable 0 = true ∧ after (.controllerEnable 0) s (fun t => (t.port 0).en && (t.port 0).rdy) = true) ∧
    world.windowOpen 0 1 = true ∧ world.comp 1 = act ∧ (tenant { act with apasid := 5 }).pasidMapped 0 5 1 = true ∧
    after (.compartmentEnSet 0 1) (tenant { act with apasid := 5 }) (fun t => (t.comp 1).en && (t.comp 1).rdy &&
      decide (t.hif.queues.length = 4)) = true ∧
    after (.compartmentEnSet 0 1) world (fun t => (t.comp 1).en && !(t.comp 1).rdy && (t.comp 1).cfs) = true ∧
    after (.compartmentEnClear 0 1) (tenant { act with en := true, rdy := true }) (fun t => !(t.comp 1).en &&
      (t.comp 1).resetByHost && decide ((t.comp 1).state = .resetting)) = true := by decide +kernel

theorem test_squashes_resets_drains :
    (let s := { resetting (run0 false [.host]) with car := { world.car with flights := [theRead] } }
     after (.squashInstant (.compartment 1)) s (fun t => decide (t.car.flights = [] ∧ t.hif.out = s.hif.out ∧
       (t.comp 1).reset.map (·.squashed) = some true)) = true) ∧
    (let s := { world with hif := { world.hif with port0 := { world.hif.port0 with squashing := true, en := false } } }
     after (.squashInstant (.controller 0)) s (fun t => !(t.port 0).squashing && decide (t.hif.queues = [])) = true) ∧
    (resetting (run0 true [.host])).compQuiet 1 = true ∧
    after (.compartmentResetComplete 1) (resetting (run0 true [.host])) (fun t => decide ((t.comp 1).state = .active ∧ (t.comp 1).resets = 1 ∧
      (t.comp 1).reset = none)) = true ∧
    (∀ w ∈ [none, some adm], (tenant { act with state := .freezing, waiting := w }).freezeQuiet 1 = true ∧
      after (.compartmentFreezeComplete 1) (tenant { act with state := .freezing, waiting := w }) (fun t =>
        decide ((t.comp 1).state = .frozen) && (w.isNone || completed t adm .success)) = true) ∧
    (let s := { world with car := { world.car with table := [(0, { world.carriage 0 with draining := true })] } }
     after (.carriageDrainComplete 0) s (fun t => decide (t.carriage 0 = { s.carriage 0 with coupled := false, draining := false }))) = true := by
  decide +kernel
/-! ## Queues, doorbells, admin commands, rings -/

def cq2 : CreateQ := { qid := 2, size := 16, pasid := none, cqid := 0, vector := 7, ien := true, pc := true, base := 4096 }
def sq2 : CreateQ := { qid := 2, size := 4096, pasid := none, cqid := 1, vector := 0, ien := false, pc := true, base := 8192 }

/-- The command completes with success, and the state satisfies the check. -/
def serves (i : Instr) (s : State) (p : State → Bool) : Bool := after i s (fun t => completed t adm .success && p t)

/-- The world with an enabled compartment 1 whose admin queues have 32 entries. -/
def enabledOne : State := { tenant { act with en := true, rdy := true, apasid := 5 } with hif := { world.hif with queues := world.hif.queues ++
  [{ ctl := 2, qid := 0, sq := true, size := 32, head := 0, tail := 0, pasid := some 5, cq := 0, vector := 0, ien := false, base := 0, phase := true },
   { ctl := 2, qid := 0, sq := false, size := 32, head := 0, tail := 0, pasid := some 5, cq := 0, vector := 0, ien := true, base := 0, phase := true }] } }

theorem test_queues_ready :
    controlReady world 1 = true ∧ (world.queue 0 2 false = none ∧ world.queue 0 2 true = none ∧ (world.queue 0 1 false).isSome = true) ∧
    serves (.createIoCq adm cq2) world (fun t => t.hif.queues.any (fun e => decide (e.qid = 2 ∧ e.sq = false ∧ e.vector = 7 ∧ e.size = 16))) = true ∧
    serves (.createIoSq adm sq2) world (fun t => t.hif.queues.any (fun e => decide (e.qid = 2 ∧ e.sq = true ∧ e.cq = 1 ∧ e.size = 4096))) = true ∧
    only (.createIoSq adm { sq2 with cqid := 3 }) world adm .completionQueueInvalid = true ∧
    serves (.deleteIoSq adm 1) world (fun t => decide (t.hif.queues.length = 1)) = true ∧
    serves (.deleteIoCq adm 1) { world with hif := { world.hif with queues := world.hif.queues.drop 1 } } (fun t => decide (t.hif.queues = [])) = true ∧
    only (.deleteIoSq adm 2) world adm .invalidQueue = true ∧ only (.deleteIoCq adm 2) world adm .invalidQueue = true ∧
    (∀ v ∈ [0, 15], after (.sqTailDoorbell 0 0 1 v) world (fun t => decide ((t.queue 0 1 true).map (·.tail) = some v)) = true ∧
      after (.cqHeadDoorbell 0 0 1 v) world (fun t => decide ((t.queue 0 1 false).map (·.head) = some v)) = true) ∧
    enabledOne.windowOpen 0 1 = true ∧ (enabledOne.queue 2 0 true).isSome = true ∧
    after (.sqTailDoorbell 0 1 0 31) enabledOne (fun t => decide ((t.queue 2 0 true).map (·.tail) = some 31)) = true ∧
    after (.sqTailDoorbell 0 0 1 16) world (fun t => decide (t.hif = world.hif)) = true ∧
    after (.cqHeadDoorbell 0 1 0 32) enabledOne (fun t => (t.comp 1).intStat.getLsbD 1 &&
      t.hif.raised.any (fun e => decide (e.code = 0x0902 ∧ e.payload = .fields [0, 32]))) = true := by decide +kernel

/-- Completes with success and this dword 0. -/
def answers (i : Instr) (s : State) (dw : Nat) : Bool := after i s (fun t => t.hif.out.any (fun o => match o with
  | .cqe c => decide (c.cmd = adm ∧ c.status = .success ∧ c.dw0 = BitVec.ofNat 32 dw)
  | _ => false))

/-- Port 0 of the world with these waiting requests and events. -/
def aered (a : List HostCmd) (e : List (Nat × Nat × Nat)) : State :=
  { world with hif := { world.hif with port0 := { world.hif.port0 with aers := a, asyncEvents := e } } }

theorem test_admin_ready :
    serves (.identify adm 0x01 0 0) world (fun _ => true) = true ∧ only (.identify adm 0x05 1 0) world adm .invalidField = true ∧
    only (.identify adm 0x04 0 0) world adm .invalidField = true ∧ only (.identify adm 0xFF 0 0) world adm .invalidField = true ∧
    (∀ x ∈ [(0, 64), (4096, 64)], serves (.getLogPage adm 0x01 x.1 x.2) world (fun _ => true) = true) ∧
    only (.getLogPage adm 0x06 0 64) world adm .invalidLogPage = true ∧
    (let x := { adm with cid := 99 }
     after (.abort adm 0 99) (aered [x] []) (fun t => completed t x .abortRequested && completed t adm .success && decide ((t.port 0).aers = []))
       = true) ∧
    answers (.abort adm 0 99) world 1 = true ∧
    answers (.asynchronousEventRequest adm) (aered [] [(2, 1, 3)]) 0x30102 = true ∧
    after (.asynchronousEventRequest adm) world (fun t => decide ((t.port 0).aers = [adm] ∧ t.hif.out = [])) = true ∧
    only (.asynchronousEventRequest adm) (aered (List.replicate 8 adm) []) adm .asyncLimit = true ∧
    answers (.getFeatures adm 0x02 0) world world.pwr.mode.code = true ∧ answers (.getFeatures adm 0x08 0) world 0 = true ∧
    answers (.getFeatures adm 0x0B 0) world (world.port 0).feat.asyncCfg.toNat = true ∧
    (∀ ps ∈ [0, 2], after (.setPowerManagement adm ps) world (fun t => decide (t.pwr.pendingMode = some (Mode.ofCode ps) ∧
      t.pwr.modeCommands = [adm])) = true) ∧
    ((world.port 0).feat.tempOver.length = 4 ∧ (world.port 0).feat.tempUnder.length = 4) ∧
    (∀ u ∈ [true, false], serves (.setTemperatureThreshold adm 300 3 u) world (fun t =>
      decide ((if u then (t.port 0).feat.tempUnder else (t.port 0).feat.tempOver).getD 3 0 = 300)) = true) ∧
    answers (.setNumberOfQueues adm 65534 7) world 0x7003F = true ∧
    serves (.setInterruptCoalescing adm 5) world (fun t => decide ((t.port 0).feat.coalescing = 5)) = true ∧
    serves (.setInterruptVectorConfiguration adm 7 true) world (fun t => decide (look 0 (t.port 0).feat.vectors 7 = 1)) = true ∧
    serves (.setAsyncEventConfiguration adm 9) world (fun t => decide ((t.port 0).feat.asyncCfg = 9)) = true ∧
    world.tim.source = 0 ∧ serves (.setTimestamp adm 1000) world (fun t => t.tim.timeSet && !t.tim.secSuspect) = true ∧
    only (.setFeaturesUnsupported adm 0x01) world adm .invalidField = true ∧
    only (.firmwareCommit adm) world adm .invalidOpcode = true ∧ only (.firmwareImageDownload adm) world adm .invalidOpcode = true ∧
    (∀ op ∈ [0x03, 0xFF], only (.invalidCommandOpcode adm op false) world adm .invalidOpcode = true) := by decide +kernel

def ring16 (head tail : Nat) : Ring := { size := 16, head := head, tail := tail, base := 0, pasid := none, port := 0, vector := 0, slots := [] }

theorem test_rings_ready :
    (∀ n ∈ [16, 65536], serves (.eventRingSetup adm { records := n, base := 4096, pasid := none, vector := 7 }) world (fun t =>
      decide (t.hif.ring.map (·.size) = some n)) = true) ∧
    only (.eventRingSetup adm { records := 15, base := 4096, pasid := none, vector := 0 }) world adm .invalidField = true ∧
    serves (.eventRingClose adm) { world with hif := { world.hif with ring := some (ring16 0 0) } } (fun t => decide (t.hif.ring = none)) = true ∧
    (let s : State := { world with hif := { world.hif with ring := some (ring16 0 14) } }
     let t := s.event 0x0D00 2 0 0 [1]
     t.hif.ring.map (·.tail) = some 15 ∧ t.hif.lost = s.hif.lost) ∧
    (let s : State := { world with hif := { world.hif with ring := some (ring16 0 15) } }
     let t := s.event 0x0D00 2 0 0 [1]
     t.hif.ring = some (ring16 0 15) ∧ t.hif.lost = s.hif.lost + 1) := by decide +kernel
/-! ## Reels, owners -/

/-- The head of an image of one word with these capabilities and its check. -/
def imageWith (caps : Nat) : List Byte :=
  let head := leBytes 4 0x5459524B ++ leBytes 2 1 ++ leBytes 2 2 ++ leBytes 4 8 ++ leBytes 4 64 ++ leBytes 8 caps ++ leBytes 4 100 ++
    leBytes 28 0
  head ++ leBytes 8 (crcEcma (head ++ leBytes 8 (wordOf 0x01 (wu 0 0 0 0 0)))).toNat ++ leBytes 8 (wordOf 0x01 (wu 0 0 0 0 0))

def image0 : List Byte := imageWith 1

/-- The world with image 0 pinned under handle 0, and with the store in maintenance. -/
def pinned : State := { world with kry := { world.kry with
  pinned := [(0, some { comp := 0, image := (imageOf image0).1, length := (imageOf image0).2 })] } }

def maint (wp : Nat) : State := { world with
  kry := { world.kry with maint := true }
  fls := { world.fls with blocks := [(replicaDie 0 * 8192 + 9, { freshBlock 0 9 with wp := wp, qlc := false })] } }

theorem test_images_ready :
    world.imageRefusal (imageOf image0).1 (imageOf image0).2 = none ∧ world.freeHandle = some 0 ∧
    answers (.reelLoad adm image0) world 0 = true ∧ answers (.reelLoad adm image0) pinned 1 = true ∧
    world.imageRefusal (imageOf []).1 (imageOf []).2 = some .invalidField ∧ only (.reelLoad adm []) world adm .invalidField = true ∧
    pinned.runsHandle 0 = false ∧ serves (.reelUnload adm 0) pinned (fun t => (t.pinnedAt 0).isNone) = true ∧
    only (.reelUnload adm 0) world adm .invalidField = true := by decide +kernel

theorem test_store_ready : world.kry.writes = [] ∧
    serves (.enterMaintenance adm) world (fun t => t.kry.maint) = true ∧
    serves (.leaveMaintenance adm) (maint 0) (fun t => !t.kry.maint) = true ∧
    only (.storeWriteSlot adm 5 image0) world adm .sequenceError = true ∧ only (.storeClearSlot adm 5) world adm .sequenceError = true ∧
    (∀ x ∈ [(0, 3), (64, 1)], let s := maint x.1
      s.runsSlot 5 = false ∧ s.replicaReadable 0 0 = true ∧ (s.block (replicaDie 0) 9).use ≠ .retired ∧ s.liveVersion 0 0 = 0 ∧
      after (.storeWriteSlot adm 5 image0) s (fun t => decide (t.kry.writes.map (fun y => (y.slot, y.replica, y.unit)) = [(5, 0, x.2)])) = true ∧
      after (.storeClearSlot adm 5) s (fun t => decide (t.kry.writes.map (fun y => (y.slot, y.replica, y.unit)) = [(5, 0, x.2)])) = true) := by
  decide +kernel

/-- A start of image 0 from handle 0, of image 0 from host memory, and of a tenant. -/
def start (src c : Nat) (p : Option Nat) (im : List Byte) : ReelArgs :=
  { source := src, comp := c, pasid := p, place := 0, image := im, args := [7, 8], readOk := true }

/-- The world in which the twin of image 0 runs in context 1. -/
def twinned : State := { pinned with kry := { pinned.kry with
  insts := [(1, some { inst 1 with check := imageCheckField (imageOf image0).1 })], ctxs := [(1, some (ctx0 []))] } }

theorem test_starts_ready :
    (∀ x ∈ [(pinned, start 1 0 none []), (world, start 0 0 none image0), (world, start 0 1 (some 5) image0)],
      x.1.startFormed adm x.2 = true ∧ x.1.frozen x.2.comp = false ∧ imageCaps (imageOf image0).1 &&& stewardCaps = 0 ∧
      x.1.twinOf (imageCheckField (imageOf image0).1) x.2.comp = none ∧ (x.1.homeFor x.2.comp).isSome = true ∧
      after (.reelStart adm x.2) x.1 (fun t => completed t adm .success && decide (t.kry.serial = 1) &&
        t.kry.ctxs.any (fun c => (match c.2 with
          | some k => decide (reg k 1 = 7 ∧ reg k 2 = 8 ∧ reg k 30 = 0x4000 ∧ k.pc = 64 ∧ k.cap = 1)
          | none => false))) = true) ∧
    twinned.twinOf (imageCheckField (imageOf image0).1) 0 = some 1 ∧ imageSingle (imageOf image0).1 = true ∧
    answers (.reelStart adm (start 1 0 none [])) twinned 1 = true := by decide +kernel

/-- A reel told to halt, with a command that waits. -/
def halting : State := { twinned with kry := { twinned.kry with
  ctxs := [(1, some { ctx0 [] with haltAt := some 6000000000, grace := 1000, halts := [adm] })] } }

def stopped : State := { world with kry := { world.kry with records := [
  { inst := 257, state := 4, trapCode := 0, trapDetail := 0, pc := 64, epoch := 0, result := 0, retired := 1, ctx := 1, relieved := false
    single := false, signed := false, comp := 0, slot := 511, startAt := 0, endAt := 0, journal := 0, tickets := 0 }] } }

theorem test_halts_ready :
    serves (.reelHalt adm 1 0) twinned (fun t => (t.kctx 1).isNone && decide (t.kry.records.head?.map (·.state) = some 6)) = true ∧
    (∀ ms ∈ [1, 65535], after (.reelHalt adm 1 ms) twinned (fun t => decide (t.hif.out = []) &&
      decide ((t.kctx 1).map (·.haltAt) = some (some (twinned.now + ms * 1000000)))) = true) ∧
    serves (.reelStatus adm 1) twinned (fun _ => true) = true ∧
    serves (.reelHalt adm 257 0) stopped (fun _ => true) = true ∧ serves (.reelStatus adm 257) stopped (fun _ => true) = true ∧
    only (.reelHalt adm 1 0) world adm .invalidField = true ∧ only (.reelStatus adm 1) world adm .invalidField = true ∧
    canon none halting.kry.ctxs = true ∧ canon none halting.kry.insts = true ∧
    after (.reelHaltGraceExpiry 1) halting (fun t => (t.kctx 1).isNone && completed t adm .success &&
      decide (t.tim.now = 6000000000)) = true := by decide +kernel

/-- The operation ends with the status. -/
def ends (i : Instr) (s : State) (st : Nat) : Bool := after i s (fun t => decide (t.bpm.ownerStatus = st) && t.bpm.ownerDone)

/-- The world with owner 20 of compartment 1 that holds a buffer, or nothing. -/
def owned (b : Bool) : State := { world with bpm := { world.bpm with
  owners := world.bpm.owners ++ [(20, some { comp := 1, segLimit := 4, leak := false })]
  bufs := if b then [(1, some { domain := 0, part := 0, pool := 0, cells := [0], size := 16384, owner := 20, holders := [(20, 0)]
                                final := none, freeing := false, gone := false, at_ := 0, withdraw := false })] else [] } }

theorem test_owners_ready :
    (∀ o ∈ [0, 16, 4095], ends (.ownerQuery 0 0 o 9) world 0 = true) ∧
    (∀ o ∈ [0, 15], ∀ i ∈ [Instr.ownerRegister 0 0 o 9, .ownerUnregister 0 0 o 9, .ownerSetLimit 0 0 o 9, .ownerReclaim 0 0 o 9],
      ends i world 3 = true) ∧
    ends (.ownerRegister 0 1 4095 0) world 0 = true ∧ ends (.ownerRegister 0 1 20 9) (owned false) 0 = true ∧
    ends (.ownerRegister 0 0 20 9) (owned false) 1 = true ∧ ends (.ownerSetLimit 0 1 20 9) (owned false) 0 = true ∧
    ends (.ownerSetLimit 0 1 21 9) (owned false) 1 = true ∧ canon none (owned false).bpm.owners = true ∧
    (owned false).ownerNamed 20 = false ∧ (owned false).ownerHeld 20 = 0 ∧ ends (.ownerUnregister 0 0 20 0) (owned false) 0 = true ∧
    world.ownerNamed 16 = true ∧ ends (.ownerUnregister 0 0 16 0) world 1 = true ∧ ends (.ownerReclaim 0 0 16 0) world 1 = true ∧
    (owned true).ownerHeld 20 ≠ 0 ∧ ends (.ownerUnregister 0 0 20 0) (owned true) 2 = true ∧ (owned true).reelRuns 1 = false ∧
    after (.ownerReclaim 0 0 20 0) (owned true) (fun t => decide (t.bpm.ownerStatus = 0 ∧ t.bpm.bufs = [])) = true := by decide +kernel

/-! ## The premises of the statements, met -/

theorem test_landing_calm : LandingCalm (landed true 16) where
  units := by
    have h : ((landed true 16).fls.landing.all (fun e => match e.2 with
      | some w => w.units.all (fun u => !(landed true 16).deadBlock u.die u.block)
      | none => true)) = true := by decide +kernel
    intro r w u h1 h2
    have h3 := List.all_eq_true.mp h _ h1
    simpa using List.all_eq_true.mp h3 _ h2
  zones := by intro z v h; cases h
  conv := by decide +kernel
  dirty := by decide +kernel

theorem test_couplable : Couplable world (5 * 256) (0x0101 * 2 ^ 48 + 16 * 2 ^ 32) (2 ^ 32) false 0 1
    (ofDescriptor (5 * 256) (0x0101 * 2 ^ 48 + 16 * 2 ^ 32) (2 ^ 32)) where
  described := rfl
  fields := by decide +kernel
  codec := by decide +kernel
  free := by decide +kernel
  unparked := rfl
  handle := by decide +kernel
  alone := by
    right
    intro x e h
    simp only [world, List.mem_singleton, Prod.mk.injEq] at h
    obtain ⟨-, rfl⟩ := h
    decide +kernel
  key := by decide +kernel
  owner := by decide +kernel
  classes := by decide +kernel
  thawed := by decide +kernel

/-- What a unit keeps of the instruction at the next position, and an empty list of what units keep. -/
theorem test_not_performed (regs : List Word) : NotPerformed (ctx0 regs) := by simp [NotPerformed, ctx0]

theorem test_kept_by_the_unit :
    let e : JEntry := { op := 0x90, args := [], results := [(1, 0), (2, 7)], z := some true, takes := none, frees := none, scratch := [] }
    let k : KCtx := { ctx0 [16, 0, 64] with unitKept := [(0, 0, e)] }
    goK world .balloc (bf 0x90 1) false (wu 0 1 3 0 0) k = true ∧
    goK world .timerd { op := 0xB0, useD := true, useA := false, useB := false, mask := 0 } false (wu 2 0 0 0 0) k = true := by
  decide +kernel

theorem test_stop_closes :
    goK world .stop (cf 0xD3) false (wu 0 0 0 0 0) (ctx0 []) = true ∧ world.mnt.stopping = false ∧
    (let s := { world with mnt := { world.mnt with stopping := true, closing := true }, jrn := { world.jrn with running := true } }
     s.jrn.stripes = 0 ∧ s.underWay .checkpoint = false ∧
     after .checkpointValid s (fun t => t.boot.parked && decide (t.mnt.state = 0) && decide (t.plog.marker = 1)) = true) := by
  decide +kernel

theorem test_commit_repeated : (let k : KCtx := { ctx0 [] with held := [.pmode 1, .pmode 2], applied := some 0 }
    goK world .commit (cf 0x03) true (wu 0 0 0 0 0) k = true ∧ k.applied = some k.epoch ∧
    after (.commit (wu 0 0 0 0 0)) (withReel world 0x03 (wu 0 0 0 0 0) k) (fun t => decide (t.pwr.pendingMode = none)) = true) := by
  decide +kernel

/-- A reel started from slot 5 of the store, none of whose lines is resident, and dies that all program. -/
def stored (busy : Bool) : State := { missing with
  kry := { missing.kry with insts := [(1, some { inst 1 with source := 2, place := 5, lines := [], versions := [0, 0, 0, 0] })] }
  fls := { missing.fls with dies := if busy then ((List.range 4).map replicaDie).map (fun d =>
    (d, { Die.idle with op := some { opOf (entry .progSlc 1000 .patrol false) false true with leftNs := 3000000, sinceAt := 5000000000 } })) else [] } }

theorem test_fills_from_the_store :
    ((stored false).fillFrom 0).map (·.2) = some false ∧ runs (.lineFillComplete 1 .filled) (stored false) = true ∧
    ((stored true).fillFrom 0).map (·.2) = some true ∧ runs (.lineFillComplete 1 .filledSuspended) (stored true) = true ∧
    ((stored false).demandLines 0).length + 1 ≤ (stored false).demandRoom := by decide +kernel

theorem test_journal_programmed :
    (let s := { dieWith world (some (opOf (entry .progSlc 1000 .journal false) false true)) [] with
       nvNext := { world.nv with keys := [(1024, 5)] } }
     (s.endable 0 isProgram).isSome = true ∧ after (.programComplete 0) s (fun t => decide (t.nv.keys = [(1024, 5)])) = true) := by
  decide +kernel

/-! ## Protection levels, the option area, keys, sanitize -/

/-- A state at a protection level. -/
def leveled (s : State) (l : ProtLevel) : State := { s with sec := { s.sec with level := l } }

/-- The world with a key hash in the option area, and no reel. -/
def hashed : State := { world with sec := { world.sec with optInForce := { generation := 5, bytes := [(512, 1)] } } }

theorem test_levels_ready :
    world.awake = true ∧ sanitizing.protBusy = true ∧ world.protBusy = false ∧ world.unsignedRuns = false ∧ world.hasHash = false ∧
    scrubbed.unsignedRuns = true ∧ hashed.hasHash = true ∧ world.sec.optCopies.length = 4 ∧ world.copyBlock 0 = some (0, false) ∧
    (∀ x ∈ [(sanitizing, 5), (leveled world .closed, 1), (scrubbed, 2), (world, 4)],
      after (.raiseToClosed 0) x.1 (fun t => decide (t.sec.protStatus = x.2)) = true) ∧
    (∀ x ∈ [(sanitizing, 5), (world, 1), (leveled world .closed, 3)],
      after (.raiseToSealed 7) x.1 (fun t => decide (t.sec.protStatus = x.2)) = true ∧
      after (.lowerToOpen 7) x.1 (fun t => decide (t.sec.protStatus = x.2)) = true) ∧
    after (.raiseToClosed 0) hashed (fun t => decide (t.sec.level = .closed)) = true ∧
    after (.raiseToSealed 0x5EA1) (leveled world .closed) (fun t => decide (t.sec.level = .sealed) && t.part.sealFuse) = true ∧
    after (.lowerToOpen 0x10E7) (leveled world .closed) (fun t => t.sec.sanActive && t.sec.lowering && decide (t.sec.keys = [])) = true := by
  decide +kernel

/-- All four dies that hold option copies are lost. -/
def copiesLost : State := { world with fls := { world.fls with dies := (List.range 4).map (fun i => (21 * i, { Die.idle with lost := true })) } }

theorem test_option_area_ready :
    world.levelByte = 0 ∧ canon 0 world.sec.optStage = true ∧
    after (.optionCommit false ⟨15, []⟩) (leveled world .closed) (fun t => decide (t.sec.optStatus = 0)) = true ∧
    after (.optionCommit false ⟨15, []⟩) world (fun t => decide (t.sec.optStatus = 1)) = true ∧
    (let s := { world with sec := { world.sec with optStage := [] } }
     (∀ fs ∈ [[], [1, 2], [3, 3]], after (.optionCommit false ⟨1, fs⟩) s (fun t => decide (t.sec.optStatus = 0) &&
       decide (t.sec.optInForce.generation = 1)) = true) ∧
     after (.optionCommit false ⟨0, []⟩) s (fun t => decide (t.sec.optStatus = 2)) = true) ∧
    (let s := { copiesLost with sec := { world.sec with optStage := [] } }
     after (.optionCommit false ⟨15, [0]⟩) s (fun t => decide (t.sec.optStatus = 2)) = true) ∧
    runs .optionReload world = true := by decide +kernel

theorem test_key_operations_ready :
    (let s := { world with sec := { world.sec with keyDone := false } }
     ∀ i ∈ [Instr.keyQuery 0, .keyGenerate 0, .keyInstall 0, .keyInstallWrapped 0, .keyErase 0],
       after i s (fun t => decide (t.sec.keyStatus = 4)) = true) ∧
    (∀ n ∈ [0, 1, 1024, 1039], after (.keyQuery n) world (fun t => decide (t.sec.keyStatus = 0)) = true) ∧
    after (.keyQuery 1040) world (fun t => decide (t.sec.keyStatus = 3)) = true ∧
    (∀ n ∈ [0, 2, 1024, 1040], ∀ i ∈ [Instr.keyGenerate n, .keyInstall n, .keyInstallWrapped n, .keyErase n],
      after i world (fun t => decide (t.sec.keyStatus = 3)) = true) ∧
    (∀ i ∈ [Instr.keyGenerate 1039, .keyInstall 1039, .keyInstallWrapped 1039], after i world (fun t => decide (t.sec.keyStatus = 1)) = true) ∧
    after (.keyInstall 1) world (fun t => decide (t.sec.keyStatus = 0 ∧ look 0 t.sec.keys 1 = 1)) = true ∧
    after (.keyGenerate 1025) world (fun t => decide (t.sec.keyStatus = 0)) = true ∧
    (let s := { world with sec := { world.sec with keys := [] } }
     after (.keyInstallWrapped 1) s (fun t => decide (t.sec.keyStatus = 2)) = true) ∧
    (let s := { world with sec := { world.sec with keys := [(1, 9), (1039, 2)] } }
     canon 0 s.sec.keys = true ∧ after (.keyErase 1) s (fun t => decide (t.sec.keyStatus = 0 ∧ t.sec.keys = [(1039, 2)] ∧ t.sec.keyDone = true)) = true) := by
  decide +kernel

/-- A sanitize runs, and nothing else; one that failed. -/
def erasing (a : Sanitizing) : State := { world with
  sec := { world.sec with sanActive := true, sanAction := a, keys := [], level := .closed }, mnt := { world.mnt with state := 0 } }
def failed (ause : Bool) : State := { world with sec := { world.sec with sanFailed := true, sanAuse := ause } }

theorem test_sanitize_ready :
    world.fetchable adm = true ∧
    (∀ i ∈ [Instr.sanitizeBlockErase adm true, .sanitizeCryptoErase adm false],
      serves i world (fun t => t.sec.sanActive && decide (t.sec.keys = []) && t.boot.parked && t.hif.raised.any (fun e => decide (e.code = 0x0F01))) = true) ∧
    only (.sanitizeOverwrite adm) world adm .invalidField = true ∧ only (.sanitizeExitFailureMode adm) world adm .success = true ∧
    serves (.sanitizeExitFailureMode adm) (failed true) (fun t => !t.sec.sanFailed) = true ∧
    only (.sanitizeExitFailureMode adm) (failed false) adm .sanitizeFailed = true := by decide +kernel

theorem test_sanitize_ends :
    (∀ a ∈ [Sanitizing.block, .crypto, .lowering], runs (.sanitizeComplete true 40) (erasing a) = true ∧ (erasing a).mnt.state ≠ 4 ∧
      after (.sanitizeComplete false 40) (erasing a) (fun t => !t.sec.sanActive && t.sec.sanFailed) = true) ∧
    (erasing .lowering).copyBlock 0 = some (0, false) ∧ ((erasing .lowering).block 0 0).role = .system ∧
    ((erasing .lowering).block 0 0).use = .system ∧ (erasing .lowering).sec.optCopies.length = 4 := by decide +kernel

/-! ## Faults of the levels -/

theorem test_region_faults_ready : world.awake = true ∧ world.lvl.regionA = true ∧ world.lvl.regionB = true ∧ world.lvl.bridgeOk = true ∧
    (∀ r ∈ [0, 1], after (.regionHeartbeatMiss r false) world (fun t => t.lvl.takeover && decide (t.lvl.takeoverBy = r)) = true ∧
      after (.regionHeartbeatMiss r true) world (fun t => t.lvl.takeover && decide (t.lvl.takeoverBy = 0)) = true ∧
      after (.regionSelfFailure r) world (fun t => t.lvl.takeover && decide (t.lvl.takeoverBy = 1 - r)) = true) ∧
    runs (.powerManagerHeartbeatMiss 1) world = true ∧
    (let s := { world with lvl := { world.lvl with takeover := true, regionA := false, takeoverBy := 1 } }
     s.takeoverDrained = true ∧ after .takeoverDrainComplete s (fun t => !t.lvl.takeover) = true) := by decide +kernel

theorem test_unit_faults_ready :
    scrubbed.regionUp (ctxRegion 0) = true ∧ scrubbed.kry.failed.getLsbD 0 = false ∧ scrubbed.holdsWork 0 = true ∧
    canon none scrubbed.kry.ctxs = true ∧ canon none scrubbed.kry.insts = true ∧ scrubbed.kry.writes = [] ∧
    after (.callerWatchdogExpiry 0) scrubbed (fun t => decide (t.kry.failed = 1) && (t.kctx 1).isNone) = true ∧
    (∀ x ∈ [(0, 11), (2, 63), (3, 31), (4, 63), (5, 15), (10, 21), (10, 0), (11, 7)], look 0 world.lvl.unitsFailed (src x.1 x.2) = 0 ∧
      (∀ c ∈ [0, 1], after (.unitFault x.1 x.2 c) world (fun t => decide (look 0 t.lvl.unitsFailed (src x.1 x.2) = c + 1)) = true) ∧
      after (.levelWatchdogExpiry x.1 x.2) world (fun t => decide (look 0 t.lvl.unitsFailed (src x.1 x.2) = 3)) = true) ∧
    world.fls.channels.length = 64 ∧ (∀ c ∈ [0, 63], (world.channel c).lost = false ∧
      after (.unitFault 1 c 0) world (fun t => (t.channel c).lost && (t.die c).lost && (t.die (64 + c)).lost) = true) := by decide +kernel

set_option maxRecDepth 100000 in
theorem test_crossbars_ready :
    (∀ x ∈ [(0, 0), (15, 1)], world.attached x.1 x.2 = true ∧ world.lvl.clusterLost.getLsbD x.1 = false ∧ world.attached x.1 (1 - x.2) = true ∧
      after (.crossbarAttachmentLost x.1 x.2) world (fun t => !t.attached x.1 x.2 && decide (t.lvl.clusterLost = 0)) = true ∧
      (let s := world.xbarLoss x.1 (1 - x.2)
       s.attached x.1 x.2 = true ∧ s.attached x.1 (1 - x.2) = false ∧
       runs (.crossbarAttachmentLost x.1 x.2) s = true)) := by decide +kernel

/-! ## Start-up, power loss -/

/-- A module that has completed a step of its start. -/
def starting (n : Nat) : State := { State.reset with
  boot := { State.reset.boot with step := n }, pwr := { State.reset.pwr with pstate := .starting }
  hif := { State.reset.hif with port0 := { State.reset.hif.port0 with perst := false } } }

/-- A copy with an image of a generation. -/
def copy (g : Nat) : OptCopy := { image := some { generation := g, bytes := [(32, 0)] }, block := 0, units := 1, retired := [] }

/-- Copies that hold images: the newest on copy 2, the same on copy 3, across the wrap of the generation. -/
def optioned : State := { starting 5 with sec := { State.reset.sec with optCopies := [copy (2 ^ 32 - 1), { copy 0 with image := none }, copy 1, copy 1] } }

theorem test_start_ready :
    State.reset.pwr.pstate = .dark ∧ (∀ v ∈ [440, 449, 3001, 3150], after (.powerOn v true false) State.reset (fun t =>
      decide (t.boot.step = 1) && decide (t.pwr.underRange = decide (v < 450))) = true) ∧
    (∀ n ∈ [1, 2, 4, 6, 8], after (.bootStepAdvance .ready) (starting n) (fun t => decide (t.boot.step = n + 1)) = true) ∧
    after (.bootStepAdvance (.fuses 5 3 1)) (starting 3) (fun t => decide (t.pins.modIdStrap = 1) && t.hif.port0.training) = true ∧
    (starting 3).hif.port0.present = true ∧
    after (.bootStepAdvance .ready) optioned (fun t => decide (t.boot.optCopy = 2 ∧ t.boot.optGeneration = 1 ∧ t.sec.level = .opened)) = true ∧
    (∀ c ∈ (starting 5).sec.optCopies, c.image = none) ∧
    after (.bootStepAdvance .ready) (starting 5) (fun t => t.boot.optDefault && decide (t.sec.level = .closed)) = true ∧
    (starting 7).mem.marked[3]? = some 15 ∧ (starting 7).lvl.regionA = true ∧ (starting 7).lvl.regionB = true ∧
    after (.bootStepAdvance (.dram [(3, 9)] [])) (starting 7) (fun t => decide (t.mem.marked[3]? = some 9)) = true ∧
    (∀ c ∈ [0, 3, 4, 7], after (.bootStepAdvance (.dram [] [c])) (starting 7) (fun t => decide (t.lvl.regionA = decide (4 ≤ c))) = true) ∧
    (let s := { starting 8 with thm := { State.reset.thm with tripRecord := some (1, 30, true) }, boot := { (starting 8).boot with optDefault := true } }
     after (.bootStepAdvance .ready) s (fun t => t.modOk && t.hif.raised.any (fun e => decide (e.code = 0x0600)) &&
       t.hif.raised.any (fun e => decide (e.code = 0x0D03))) = true) ∧
    runs .bootStepStall (starting 5) = true := by decide +kernel

/-- Port 0 trains. -/
def training : State := { world with hif := { world.hif with port0 := { world.hif.port0 with linkUp := false, training := true } } }

theorem test_ports_ready :
    State.reset.hif.port0.perst = true ∧ runs (.perstRelease 0) State.reset = true ∧ runs (.configurationRequest 0) world = true ∧
    world.boot.step = 9 ∧ (let s := { world with boot := { world.boot with step := 5 } }; runs (.configurationRequest 0) s = true) ∧
    (∀ x ∈ [(1, 1), (6, 16)], after (.portLinkUp 0 x.1 x.2) training (fun t => t.hif.port0.linkUp && decide (t.hif.port0.width = x.2)) = true) ∧
    (let s := { training with hif := { training.hif with dual := true } }
     after (.portLinkUp 0 6 8) s (fun t => !t.hif.port0.degraded) = true) ∧
    world.hif.port0.perst = false ∧ (world.cmp.table.all (fun e => decide (e.1 = 0) || decide (e.2.port ≠ 1))) = true ∧
    (let s := { world with cmp := { world.cmp with table := [(0, Comp.steward)] } }
     ∀ c ∈ [LossCause.perst, .flr, .dlDown], after (.portLost 0 c) s (fun t => decide (t.hif.port0.losses = 1) && !t.hif.port0.en &&
       decide (t.hif.port0.perst = decide (c = .perst))) = true) := by decide +kernel

/-- The world in another power state. -/
def inPower (p : PState) : State := { world with pwr := { world.pwr with pstate := p } }

theorem test_power_loss_ready :
    (∀ p ∈ [PState.run, .idle], ∀ c ∈ [InputCause.low, .pwrEn], after (.powerLossDeclared c) (inPower p) (fun t =>
      decide (t.pwr.pstate = .flushing 1) && !t.modOk && decide (t.hif = world.hif)) = true) ∧
    (∀ n ∈ [1, 5], runs (.powerLossDeclared .high) (inPower (.flushing n)) = true) ∧
    after (.powerLossDeclared .low) (starting 4) (fun t => decide (t.pwr.pstate = .dark)) = true ∧
    (∀ x ∈ [SleepTarget.sleep, .deep], after (.powerLossDeclared .low) (inPower (.asleep x)) (fun t => t.pwr.lossPending) = true ∧
      after (.powerLossDeclared .low) (inPower (.waking x 4)) (fun t => t.pwr.lossPending) = true ∧
      after (.powerLossDeclared .low) (inPower (.entering x 4)) (fun t => decide (t.pwr.pstate = .flushing 1)) = true) ∧
    (∀ n ∈ [1, 2, 3, 4], world.programCount = 0 ∧ after .flushStep (inPower (.flushing n)) (fun t => decide (t.pwr.pstate = .flushing (n + 1))) = true) ∧
    (let s := { inPower (.flushing 3) with jrn := { world.jrn with tail := 2, tailSeq := 9 } }
     after .flushStep s (fun t => decide (t.jrn.tail = 0 ∧ t.jrn.lastSeq = 9)) = true) ∧
    after .flushStep (inPower (.flushing 5)) (fun t => decide (t.pwr.pstate = .dark ∧ t.plog.marker = 2)) = true ∧
    (let s := { inPower (.flushing 5) with boot := { world.boot with inputBack := true } }
     after .flushStep s (fun t => decide (t.pwr.pstate = .starting ∧ t.boot.cause = 1)) = true) ∧
    (∀ n ∈ [1, 5], after .bankLowStop (inPower (.flushing n)) (fun t => decide (t.pwr.pstate = .dark ∧ t.plog.marker = world.plog.marker)) = true ∧
      runs .inputRestored (inPower (.flushing n)) = true) ∧ world.fls.dies = [] := by decide +kernel

/-- R218: 82.0 mF and 40 mΩ at 54.0 V allow 63 steps of 256 MiB, 16,128 MiB. -/
theorem test_bank_ready :
    (∀ v ∈ [399, 400, 449, 450, 3000, 3001, 3150, 3600], after (.inputRangeChange v) world (fun t =>
      decide (t.pwr.underRange = decide (400 ≤ v ∧ v < 450) ∧ t.pwr.overRange = decide (3000 < v ∧ v ≤ 3150))) = true) ∧
    after .measStart world (fun t => t.plog.measBusy) = true ∧
    (let s := { world with plog := { world.plog with measBusy := true, vBank := 2700, dirtyCfg := 80 } }
     s.dirtyList = [] ∧ 20480 ≤ (s.landingFree * 24 - 2048) * 15 / 16 ∧ runs .measStart s = true ∧
     after (.bankMeasurement 820 40) s (fun t => decide (t.plog.limitMib = 16128) && !t.plog.singlePath) = true ∧
     after (.bankMeasurement 10 4000) s (fun t => decide (t.plog.limitMib = 0) && t.plog.singlePath) = true) ∧
    (∀ v ∈ [0, 2699, 2700, 4095], after (.bankVoltageChange v) world (fun t => decide (t.plog.charged = decide (2700 ≤ v))) = true) ∧
    world.plog.bankCap = 0 := by decide +kernel

/-! ## Power states, windows, clocks -/

/-- An entry that a host command asked for, with the wakes it holds. -/
def entryOf (held : List Nat) : Entry := { requestedAt := 5000000000, command := some adm, heldWake := held }

/-- The world at step `n` of an entry into `x`. -/
def enteringAt (x : SleepTarget) (n : Nat) (held : List Nat) : State := let s := inPower (.entering x n)
  { s with pwr := { s.pwr with entry := some (entryOf held) } }

theorem test_entries_ready :
    after .idleTimerExpiry world (fun t => decide (t.pwr.pstate = .idle)) = true ∧ world.pwr.idleUs ≠ 0 ∧
    (∀ x ∈ [SleepTarget.sleep, .deep, .off], ∀ n ∈ [1, 2, 3, 4],
      let s := enteringAt x n []
      s.drained = true ∧ s.dirtyUnits = 0 ∧ s.diesSettled = true ∧ s.mnt.stopping = false ∧
      after .sleepEntryStep s (fun t => decide (t.pwr.pstate = .entering x (n + 1)) && (decide (n ≠ 3) || completed t adm .success)) = true) ∧
    (∀ x ∈ [SleepTarget.sleep, .deep], after .sleepEntryStep (enteringAt x 5 []) (fun t => decide (t.pwr.pstate = .asleep x)) = true ∧
      after .sleepEntryStep (enteringAt x 5 [6, 3]) (fun t => decide (t.pwr.pstate = .waking x 1 ∧ t.pwr.wakeSource = 3)) = true) ∧
    after .sleepEntryStep (enteringAt .off 5 []) (fun t => decide (t.pwr.pstate = .asleep .off) && t.boot.offLatch) = true ∧
    (∀ d ∈ [16, 171], after (.domainCloseForced d []) (enteringAt .sleep 2 []) (fun t => decide (t.plog.closeDomain = d)) = true) ∧
    (let s := enteringAt .sleep 2 []
     let u := { s with kry := { s.kry with ops := [⟨0, 7, 3, .readTemp 0⟩] } }
     u.car.flights = [] ∧ after (.domainCloseForced 16 []) u (fun t => t.kry.ops.isEmpty && decide (t.plog.squashed = 1)) = true ∧
     after (.domainCloseForced 17 []) u (fun t => decide (t.kry.ops.length = 1) && decide (t.plog.squashed = 0)) = true) := by
  decide +kernel

/-- The world, its wake timer armed and its wake sources enabled. -/
def wakeful (p : PState) : State := let s := inPower p
  { s with pwr := { s.pwr with wakeEn := 0x1FF, wakeTimer := 6000000000 } }

theorem test_wakes_ready :
    (∀ x ∈ [SleepTarget.sleep, .deep], (∀ m ∈ [(0 : BitVec 9), 1], runs (.wakeSourceFired m) (wakeful (.asleep x)) = true) ∧
      after (.wakeSourceFired 0x1FE) (wakeful (.asleep x)) (fun t => decide (t.pwr.pstate = .waking x 1 ∧ t.pwr.wakeSource = 1)) = true ∧
      after (.wakeSourceFired 0x100) (wakeful (.asleep x)) (fun t => decide (t.pwr.wakeSource = 8)) = true ∧
      after .wakeTimerExpiry (wakeful (.asleep x)) (fun t => decide (t.pwr.wakeSource = 5 ∧ t.tim.now = 6000000000)) = true) ∧
    after (.wakeSourceFired 2) (wakeful (.asleep .off)) (fun t => decide (t.pwr.pstate = .starting ∧ t.boot.step = 1)) = true ∧
    (∀ p ∈ [PState.run, .idle], (∀ m ∈ [(2 : BitVec 9), 0x20, 4], runs (.wakeSourceFired m) (wakeful p) = true) ∧ runs .wakeTimerExpiry (wakeful p) = true) ∧
    (let s := { enteringAt .deep 4 [] with pwr := { (enteringAt .deep 4 []).pwr with wakeEn := 0x1FF } }
     after (.wakeSourceFired 0x48) s (fun t => decide (t.pwr.pstate = .run ∧ t.plog.abortSource = 3) && completed t adm .success) = true) ∧
    (let s := { enteringAt .deep 5 [4] with pwr := { (enteringAt .deep 5 [4]).pwr with wakeEn := 0x1FF } }
     after (.wakeSourceFired 0x48) s (fun t => decide (t.pwr.entry.map (·.heldWake) = some [4, 3, 6])) = true) ∧
    (∀ n ∈ [1, 2, 3], after (.wakeStep 5) (wakeful (.waking .deep n)) (fun t => decide (t.pwr.pstate = .waking .deep (n + 1))) = true) ∧
    after (.wakeStep 70) (wakeful (.waking .deep 4)) (fun t => decide (t.pwr.pstate = .run ∧ t.pwr.exitUs = 70)) = true ∧
    (let s := { wakeful (.waking .deep 4) with pwr := { (wakeful (.waking .deep 4)).pwr with lossPending := true } }
     after (.wakeStep 70) s (fun t => decide (t.pwr.pstate = .flushing 1)) = true) ∧
    after (.wakeStep 70) (wakeful (.waking .deep 5)) (fun t => decide (t.pwr.pstate = .run)) = true ∧
    after .wakeStepTimeout (wakeful (.waking .deep 2)) (fun t => t.pins.wakeStuck && !t.modOk) = true := by decide +kernel

theorem test_windows_ready :
    (∀ m ∈ [Mode.galop, .waltz, .minuet], let s := { world with pwr := { world.pwr with pendingMode := some m } }
      s.fls.dies = [] ∧ s.pwr.modeCommands = [] ∧ s.pwr.phasesOk = 0x1FF ∧ s.thm.step = 0 ∧ s.thm.fanFloor = false ∧ s.part.codec = true ∧
      s.fcd.jobs = [] ∧ s.lvl.regionA = true ∧ s.lvl.regionB = true ∧ runs (.creditWindowBoundary 900 30) s = true ∧
      (let t := (s.advanceTo 1000000).windowEdge
       t.pwr.mode = m ∧ t.lvl.budgetA.shareProg = (match m with | .galop => 160 | .waltz => 96 | .minuet => 32))) ∧
    (∀ i ∈ [0, 8], world.pwr.phasesOk.getLsbD i = true ∧ after (.corePhaseCheck (BitVec.ofNat 9 (2 ^ i))) world (fun t =>
      !t.pwr.phasesOk.getLsbD i) = true) ∧
    (let s := { world with pwr := { world.pwr with phasesOk := 0xF } }
     after (.corePhaseCheck 1) s (fun t => decide (t.pwr.pstate = .flushing 1)) = true) ∧
    (∀ d ∈ [1, 16, 132, 255], let s := world.startClock d
      s.lvl.clocks.getLsbD d = true ∧ domainBusy s d = false ∧ after (.clockIdleStop d) s (fun t => !t.lvl.clocks.getLsbD d) = true) := by
  decide +kernel

/-! ## The time base, temperatures, fans -/

/-- The world without the coupler, with PPS as a source, and a held edge. -/
def timed (held : Option (Nat × Int)) (locked : Bool) : State := { world with
  part := { world.part with coupler := false }
  tim := { world.tim with ppsEn := true, heldEdge := held, locked := locked, ppsAlive := true } }

theorem test_time_ready :
    (let s := { timed none false with tim := { (timed none false).tim with ppsEn := false } }
     after (.ppsEdge 6000000000) s (fun t => decide (t.tim.ppsLast = 6000000000)) = true) ∧
    (∀ x ∈ [(6000000000, 0), (6000001000, 1000), (5999999000, -1000)], after (.ppsEdge x.1) (timed none false) (fun t =>
      decide (t.tim.slew = x.2 ∧ t.tim.source = 1)) = true) ∧
    (∀ x ∈ [(6000001001, false), (6000100000, true), (6000100001, false)], after (.ppsEdge x.1) (timed none x.2) (fun t =>
      decide (t.tim.now = 6000000000 ∧ t.tim.steps = 1)) = true) ∧
    after (.ppsEdge 6000100001) (timed none true) (fun t => decide (t.tim.heldEdge = some (6000100001, 100001))) = true ∧
    after (.ppsEdge 7000200000) (timed (some (6000200000, 200000)) true) (fun t => decide (t.tim.now = 7000000000) && !t.tim.locked) = true ∧
    after (.ppsEdge 7000000000) (timed (some (6000200000, 200000)) true) (fun t => t.hif.raised.any (fun e => decide (e.code = 0x0C0A))) = true ∧
    (∀ x ∈ [(999, 5000), (5000, 999)], runs (.ppsEdgeDiscarded x.1 x.2) world = true) ∧
    after .ppsLoss (timed none true) (fun t => t.tim.holdover && !t.tim.locked) = true ∧ (timed none true).cpl.leaderValid = false ∧
    runs .secSuspectLimit world = true ∧
    (∀ x ∈ [(true, 0, none), (false, 0, none), (false, 2, some 5)],
      let s := { world with tim := { world.tim with ptmEn := true, ppsAlive := x.1, source := x.2.1, ptmOffset := x.2.2 } }
      s.hif.port0.linkUp = true ∧ s.cpl.leaderValid = false ∧ runs (.ptmDialog 4999999990) s = true) ∧
    after .timNowSaturation world (fun t => t.tim.saturated) = true ∧
    (let s := { world with pins := { world.pins with ppsOutEn := true } }
     after .ppsOutPulse s (fun t => t.pins.ppsCounting && decide (t.tim.now = 6000000000)) = true) ∧
    (let s := { world with pins := { world.pins with ppsCounting := true } }
     after .ppsOutPulseEnd s (fun t => !t.pins.ppsCounting) = true) := by decide +kernel

/-- The world, not mounted, at a thermal level with runs of readings over Critical and Trip behind it. -/
def heated (level crit trip : Nat) : State := { world with
  mnt := { world.mnt with state := 0 }
  thm := { world.thm with die := ⟨95, 110, 120⟩, flash := ⟨70, 80, 85⟩, level := level, critRuns := (crit, 0), tripRuns := (trip, 0) } }

theorem test_thermal_ready :
    (heated 0 0 0).pwr.pstate = .run ∧ (heated 0 0 0).mounted = false ∧ (heated 0 0 0).thm.excluded.length ≤ 63 ∧
    (∀ x ∈ [(heated 0 0 0, 134, true), (heated 0 0 0, 135, true), (heated 1 1 0, 150, true), (heated 3 1 1, 160, true), (heated 0 0 0, 40, false)],
      3 ∉ x.1.thm.excluded ∧ runs (.dieSensorReading 5000000001 [⟨3, x.2.1, x.2.2⟩]) x.1 = true) ∧
    (∀ x ∈ [109, 110, 119], ((heated 0 0 0).die 5).lost = false ∧ after (.flashTemperatureRead 5000000001 5 x) (heated 0 0 0) (fun t =>
      decide (t.thm.flashTemp = x ∧ t.thm.flashDie = 5 ∧ t.thm.level = if x < 110 then 0 else 1)) = true) ∧
    runs (.boardSensorReading [1, 2, 3, 4, 5, 6]) (heated 0 0 0) = true := by decide +kernel

/-- A grace window over the die, with its readings. -/
def gracing (level step : Nat) (r : List (Nat × Nat × Nat)) : State := { heated level 0 0 with thm := { (heated level 0 0).thm with
  windowAt := some 4000000000, source := 0, step := step, readings := r, graceMs := 2000 } }

theorem test_grace_ready :
    after .graceWindowEnd (gracing 1 0 [(5000000000, 0, 135)]) (fun t => decide (t.thm.step = 1 ∧ t.thm.level = 2)) = true ∧
    after .graceWindowEnd (gracing 2 4 [(5000000000, 0, 140)]) (fun t => decide (t.thm.step = 4)) = true ∧
    after .graceWindowEnd (gracing 2 2 [(5000000000, 0, 40)]) (fun t => decide (t.thm.step = 1 ∧ t.thm.level = 2)) = true ∧
    after .graceWindowEnd (gracing 2 1 [(5000000000, 0, 40)]) (fun t => decide (t.thm.step = 0 ∧ t.thm.level = 0 ∧ t.thm.windowAt = none)) = true ∧
    after .graceWindowEnd (gracing 2 1 []) (fun t => decide (t.thm.windowAt = some 6000000000 ∧ t.thm.step = 1)) = true := by decide +kernel

/-! ## Fans and identity -/

/-- The world with output 2 as given, running at minute mode. -/
def fanned (f : FanOut) : State := { world with fan := { world.fan with
  enable := 15, polePairs := 2, outs := [FanOut.reset, FanOut.reset, f, FanOut.reset] } }

def fan0 : FanOut := FanOut.reset

theorem test_fan_steps_ready : world.part.fan = true ∧
    runs (.fanCommandUpdate [1, 2, 3, 4] [5, 6, 7, 8]) (fanned fan0) = true ∧
    (∀ st ∈ [0, 1], (fanned { fan0 with state := st }).fan.gatesOff = false ∧ (∀ ok ∈ [true, false],
      after (.fanStartStep 2 (.clampTest ok)) (fanned { fan0 with state := st }) (fun t => decide (t.fan.outs[2]?.map (·.state) = some 2)) = true)) ∧
    (∀ x ∈ [((51 : Int), 6), (-51, 3), (50, 4), (-50, 4)], after (.fanStartStep 2 (.measured x.1)) (fanned { fan0 with state := 2 }) (fun t =>
      decide (t.fan.outs[2]?.map (·.state) = some x.2)) = true) := by decide +kernel

theorem test_fan_ramp_ready :
    after (.fanStartStep 2 .standstill) (fanned { fan0 with state := 3 }) (fun t => decide (t.fan.outs[2]?.map (·.state) = some 4)) = true ∧
    after (.fanStartStep 2 .aligned) (fanned { fan0 with state := 4 }) (fun t => decide (t.fan.outs[2]?.map (·.state) = some 5)) = true ∧
    after (.fanStartStep 2 .ramped) (fanned { fan0 with state := 5 }) (fun t => decide (t.fan.outs[2]?.map (·.state) = some 6)) = true ∧
    (∀ st ∈ [2, 5], after (.fanStartStep 2 .missed) (fanned { fan0 with state := st }) (fun t => decide (t.fan.outs[2]?.map (·.state) = some 7)) = true) := by decide +kernel

theorem test_fan_runs_and_faults_ready :
    (let s := fanned { fan0 with state := 6, interval := 1000, nextCommutation := 5000000000 }
     runs (.fanZeroCrossing 2 5000000199) s = true ∧ after (.fanZeroCrossing 2 5000000200) s (fun t =>
       decide (t.fan.outs[2]?.map (fun f => (f.commutation, f.crossings, f.nextCommutation)) = some (1, 1, 5000000700))) = true) ∧
    (∀ c ∈ [FanFaultCause.stall, .startFail, .overcurrent, .openPhase, .speedLow],
      after (.fanFault 2 c) (fanned { fan0 with state := 6 }) (fun t => decide (t.fan.outs[2]?.map (·.state) = some 7)) = true) ∧
    after (.fanFault 2 .stall) (fanned { fan0 with state := 4, lost := true, retries := 2 }) (fun t => t.fan.heldOff.getLsbD 2) = true ∧
    after (.fanRetry 2) (fanned { fan0 with state := 7 }) (fun t => decide (t.fan.outs[2]?.map (·.state) = some 1)) = true ∧
    after (.fanRecovered 2) (fanned { fan0 with state := 6, lost := true }) (fun t => decide (t.fan.outs[2]?.map (·.lost) = some false)) = true ∧
    (let s := { fanned { fan0 with state := 7, retries := 3 } with fan := { (fanned { fan0 with state := 7, retries := 3 }).fan with heldOff := 4 } }
     after (.heldOffClear 2) s (fun t => !t.fan.heldOff.getLsbD 2 && decide (t.fan.outs[2]?.map (·.state) = some 1)) = true) := by
  decide +kernel

/-- The world with an input of the given mode on `FAN_CMD`. -/
def commanded (m : Nat) : State := { world with fan := { world.fan with cmdMode := m } }

theorem test_fan_inputs_ready :
    (∀ v ∈ [125, 127, 128, 129, 130, 131, 140, 141, 149, 150], runs (.fanRailThreshold v) world = true) ∧
    (∀ x ∈ [(0, 0), (1650, 50), (3300, 100), (3301, 100)], after (.fanCmdMeasurement (.analogue x.1)) (commanded 0) (fun t =>
      decide (t.pins.fanCmdPct = x.2)) = true) ∧
    (∀ x ∈ [(780, 25000, 78), (5, 999, 100), (1001, 100000, 100)], after (.fanCmdMeasurement (.duty x.1 x.2.1 true)) (commanded 1) (fun t =>
      decide (t.pins.fanCmdPct = x.2.2)) = true) ∧
    (∀ x ∈ [(0, 100), (10, 1), (1000, 100), (1001, 100)], after (.fanCmdMeasurement (.frequency x.1)) (commanded 2) (fun t =>
      decide (t.pins.fanCmdPct = x.2)) = true) ∧
    (let s := { world with part := { world.part with fan := false } }
     after (.fanCmdMeasurement (.analogue 5)) s (fun t => decide (t.pins = s.pins)) = true ∧ runs (.heldOffClear 2) s = true) ∧
    (∀ live ∈ [0, 5], runs (.modIdChange live) world = true) ∧ world.pins.modIdStrap = 0 := by decide +kernel

/-! ## The frame codec -/

/-- The manual's mosaic patch: 4 by 2 samples of 12 bits, unpacked, a chain start. -/
def patchDesc : List Byte := [0, 0, 0, 0, 0, 0, 76, 0, 3, 0, 1, 0, 0, 0, 1, 0] ++ List.replicate 48 0
def patchRaw : List Byte := [2000, 1500, 2004, 1498, 1502, 900, 1502, 903].flatMap (fun v => leBytes 2 v)
def patch : Band := bandOf patchDesc

/-- The worked example of R226 to R237: the lane state after the patch, its one block in stored form, and its record's length. -/
theorem test_mosaic_patch :
    (codeBand patch patchRaw (LaneState.start patch)).2 =
      [[0x0C, 0, 0, 0x80, 0x7D, 0x07, 0xD4, 0x5D, 0xC5, 0xDA, 0x5D, 0xE5, 0xDE, 0x38, 0x43, 0x87]] ∧
    [0, 32, 64, 96].map (fun i => ((codeBand patch patchRaw (LaneState.start patch)).1.ctxs[i]?)) =
      [some ⟨181, -38, 3, -2⟩, some ⟨677, -544, 3, -2⟩, some ⟨674, -544, 2, -1⟩, some ⟨1280, -1139, 3, -2⟩] ∧
    (codeBand patch patchRaw (LaneState.start patch)).1.runs[2]? = some 1 ∧
    (recordOfBand patch patchRaw 0 0 (codeBand patch patchRaw (LaneState.start patch)).2).length = 80 := by decide +kernel

/-- A job of the patch on lane 0, and the world in which it codes for zone 0. -/
def patchJob (limit : Nat) : CodecJob :=
  { ctx := 0, lane := some 0, near := none, work := .append io1 patch patchRaw limit 0 1 0 5000000000 0 }
def coding (limit : Nat) (z : State) : State := { z with fcd := { z.fcd with jobs := [patchJob limit] } }

theorem test_frame_append_ready :
    ioReady world = true ∧ ({ world.part with codec := false } : Part).codec = false ∧
    (let s := { world with part := { world.part with codec := false } }
     ioReady s = true ∧ only (.codecStateSave io1 0) s io1 (.vendor 0x82) = true) ∧
    (let s := zoned .implicitOpen 64
     onZone s 0 0 0 0 0 = true ∧ onZone s 1 0 1 0 0 = true ∧ patch.legal = true ∧ patch.rawLen = 16 ∧
     (continuity (s.codecCtx 0).st patch).isSome = true ∧ s.freeLane none = some 0 ∧
     runs (.frameAppend io1 0 16 0 patchDesc patchRaw) s = true ∧
     only (.frameAppend io1 1 16 0 patchDesc patchRaw) s io1 .invalidField = true ∧
     only (.frameAppend io1 0 15 0 patchDesc (patchRaw.take 15)) s io1 .invalidField = true ∧
     after (.frameAppend io1 0 16 0 (patchDesc.set 5 4) patchRaw) s (fun t => completed t io1 .sequenceError) = true) ∧
    (∀ limit ∈ [0, 80], after (.frameCodingComplete 0) (coding limit (zoned .implicitOpen 64)) (fun t =>
      decide ((t.zone 0).wp = 65 ∧ t.fcd.jobs = [] ∧ t.fcd.coded.length = 1)) = true) ∧
    after (.frameCodingComplete 0) (coding 79 (zoned .implicitOpen 64)) (fun t => completed t io1 (.vendor 0x80)) = true ∧
    after (.frameCodingComplete 0) (coding 0 (zoned .implicitOpen 368640)) (fun t => completed t io1 (.vendor 0x80)) = true ∧
    (coding 0 (zoned .implicitOpen 64)).serves = true ∧ (coding 0 (zoned .implicitOpen 64)).zonePair 0 = none := by decide +kernel

/-- The patch's record, filled up to one unit, and the Frame Read that holds it with its job on lane 0. -/
def patchRecord : List Byte := recordOfBand patch patchRaw 5 0 [[0x0C, 0, 0, 0x80, 0x7D, 0x07, 0xD4, 0x5D, 0xC5, 0xDA, 0x5D, 0xE5, 0xDE, 0x38, 0x43, 0x87]]
def patchFlight (d : List Byte) : Flight := { world.newFlight io1 .frameRead 0 1 (some 0) with id := 5, len := 1, data := d }
def decoding (recLen buf : Nat) (d : List Byte) : State := { world with
  car := { world.car with flights := [patchFlight d], nextFlight := 6 }
  fcd := { world.fcd with jobs := [{ ctx := 0, lane := some 0, near := none, work := .read 5 recLen buf }] } }

theorem test_frame_read_ready :
    (let s := zoned .implicitOpen 64
     onZone s 3 0 3 0 0 = true ∧ s.sensesOf (some 0) 3 1 = [] ∧ runs (.frameRead io1 3 80 0 16) s = true ∧
     only (.frameRead io1 3 80 1 16) s io1 .invalidField = true ∧ only (.frameRead io1 3 80 0 16) (zoned .offline 0) io1 .zoneOffline = true) ∧
    headerGood (patchRecord.take 64) 80 = true ∧
    (∀ x ∈ [(80, 16, patchRecord, Status.success), (80, 15, patchRecord, .invalidField), (63, 16, patchRecord, .vendor 0x81),
        (81, 16, patchRecord, .vendor 0x81), (80, 16, patchRecord.set 79 0, .vendor 0x81)],
      after (.frameCodingComplete 0) (decoding x.1 x.2.1 x.2.2.1) (fun t => completed t io1 x.2.2.2) = true) ∧
    after (.frameCodingComplete 0) (decoding 80 16 patchRecord) (fun t =>
      t.hif.out.any (fun o => decide (o = .data io1 patchRaw)) && (t.codecCtx 0).st.used) = true := by decide +kernel

theorem test_codec_state_ready :
    runs (.codecStateSave io1 0) world = true ∧ only (.codecStateSave io1 1) world io1 .invalidField = true ∧
    stateOf [1, 2] = none ∧ after (.codecStateRestore io1 0 [1, 2]) world (fun t => completed t io1 .invalidField) = true ∧
    (let s := { world with mnt := { world.mnt with stopping := true } }
     only (.codecStateSave io1 0) s io1 .namespaceNotReady = true) := by decide +kernel

/-! ## Coupled modules -/

/-- A port that is up to member 3, with a flit to acknowledge. -/
def portUp : CplPort := { CplPort.reset with state := 2, peer := 3, replayBuf := [7], nextFlit := 8 }

/-- The world with coupler port 1 up to member 3, a member seen, port 2 training, the pairs given and time followed. -/
def linked (ps : List Pair) (fs : List Flight) : State := { world with
  pins := { world.pins with cable := [false, true, true, false] }
  car := { world.car with flights := fs, nextFlight := 6 }
  cpl := { world.cpl with
    ports := [CplPort.reset, portUp, { CplPort.reset with state := 1 }, CplPort.reset], membersCfg := 8, membersSeen := 8
    leaderValid := true, leader := 3, pairs := ps } }

def pair (r : PairRole) (formed : Bool) (resync : List Nat) : Pair :=
  { pgroup := 0, peer := 3, peerPgroup := 4, role := r, formed := formed, owner := 16, changed := 0, resync := resync, writtenSince := []
    peerNsid := 1 }

/-- MIRROR_BIND's operands for group 0 and member 3. -/
def bindArgs (mirror : Bool) (zones : Nat) : MirrorArgs :=
  { mirrorRole := mirror, pgroup := 0, peer := 3, peerPgroup := 4, owner := 16, zone := 0, peerNs := some (1, false, zones), peerBound := true }

def cplStatus (i : Instr) (s : State) : Option Nat := match exec i s with
  | .next t => some t.cpl.cmdStatus
  | _ => none

theorem test_mirror_commands_ready :
    (linked [] []).coupled = true ∧ (linked [] []).cpl.ports.length = 4 ∧ (linked [] []).cpl.cmdDone = true ∧
    (linked [] []).reached 3 = true ∧ (linked [] []).reached 4 = false ∧
    (let s := { world with part := { world.part with coupler := false } }
     after (.mirrorQuery (bindArgs false 1)) s (fun t => decide (t.cpl = s.cpl)) = true) ∧
    (let s := { linked [] [] with cpl := { (linked [] []).cpl with cmdDone := false } }
     cplStatus (.mirrorResync (bindArgs false 1)) s = some 4) ∧
    cplStatus (.mirrorQuery (bindArgs false 1)) (linked [] []) = some 0 ∧
    cplStatus (.mirrorBind { bindArgs false 1 with peer := 4 }) (linked [] []) = some 2 ∧
    (∀ x ∈ [(true, 0, some 0), (true, 1000000, some 3), (false, 1000000, some 0), (false, 0, some 3)],
      cplStatus (.mirrorBind (bindArgs x.1 x.2.1)) (linked [] []) = x.2.2) ∧
    cplStatus (.mirrorBind (bindArgs false 1000000)) (linked [pair .primary true []] []) = some 1 ∧
    after (.mirrorCopyZone (bindArgs false 1000000)) (linked [] []) (fun t => decide (t.cpl.copies = [(0, 3, 4, 0)])) = true ∧
    cplStatus (.mirrorUnbind (bindArgs false 1)) (linked [] []) = some 1 ∧
    after (.mirrorUnbind (bindArgs false 1)) (linked [pair .primary true []] []) (fun t => decide (t.cpl.pairs = [])) = true ∧
    cplStatus (.mirrorPromote (bindArgs false 1)) (linked [pair .primary true []] []) = some 1 ∧
    after (.mirrorPromote (bindArgs false 1)) (linked [pair .mirror true []] []) (fun t =>
      decide (t.cpl.pairs.map (·.role) = [.promoted])) = true ∧
    cplStatus (.mirrorResync (bindArgs false 1)) (linked [pair .primary true []] []) = some 0 ∧
    cplStatus (.mirrorResync { bindArgs false 1 with peer := 3 }) (linked [{ pair .primary true [] with peer := 4 }] []) = some 2 ∧
    after (.resyncComplete 0) (linked [pair .primary true [1]] []) (fun t => decide (t.cpl.pairs.map (·.resync) = [[]])) = true ∧
    (let s := { linked [] [] with cpl := { (linked [] []).cpl with copies := [(0, 3, 4, 0)], cmdDone := false } }
     after (.resyncComplete 0) s (fun t => t.cpl.cmdDone) = true) := by decide +kernel

theorem test_links_ready :
    after (.linkSilenceTimeout 1) (linked [] []) (fun t => decide (t.cpl.ports[1]?.map (fun p => (p.state, p.downs)) = some (1, 1))) = true ∧
    (linked [] []).peerLost 3 = false ∧ runs (.flitReceived 1 .idle) (linked [] []) = true ∧
    after (.flitReceived 1 .corrupt) (linked [] []) (fun t => t.hif.out.any (fun o => decide (o = .nak 1))) = true ∧
    (∀ x ∈ [(6, [7]), (7, [])], after (.flitReceived 1 (.ack x.1)) (linked [] []) (fun t =>
      decide (t.cpl.ports[1]?.map (·.replayBuf) = some x.2)) = true) ∧
    (let full := { portUp with replayBuf := List.range 512, nextFlit := 512, sendQueue := [⟨4, .nak 3⟩, ⟨0, .timeFlit 1⟩] }
     let s := { linked [] [] with cpl := { (linked [] []).cpl with ports := [CplPort.reset, full, CplPort.reset, CplPort.reset] } }
     after (.flitReceived 1 (.ack 0)) s (fun t => decide (t.cpl.ports[1]?.map (fun p => (p.replayBuf.length, p.sendQueue)) =
       some (512, [⟨4, .nak 3⟩]))) = true) ∧
    after (.flitReceived 1 (.nak 7)) (linked [] []) (fun t => decide (t.cpl.ports[1]?.map (·.replays) = some 1)) = true ∧
    (let s := { linked [] [] with cpl := { (linked [] []).cpl with ports := [CplPort.reset, { portUp with replays := 8 }, CplPort.reset, CplPort.reset] } }
     after (.flitReceived 1 (.nak 7)) s (fun t => decide (t.cpl.ports[1]?.map (·.state) = some 1)) = true) ∧
    runs (.flitReceived 1 (.heartbeat 3 true 8)) (linked [] []) = true ∧ (linked [] []).members.getLsbD 3 = true ∧
    (∀ x ∈ [(3, 4, 2), (3, 2, 3), (0, 4, 5)], after (.couplerLinkTrained 2 x.1 0 x.2.1) (linked [] []) (fun t =>
      decide (t.cpl.ports[2]?.map (·.state) = some x.2.2)) = true) ∧ (linked [] []).mated 2 = true ∧
    (linked [] []).mated 0 = false ∧ (linked [] []).pins.modIdStrap = 0 ∧ runs (.linkTrainingRetry 2) (linked [] []) = true ∧
    after (.cablePresentChange 0 true) (linked [] []) (fun t => decide (t.cpl.ports[0]?.map (·.state) = some 1)) = true ∧
    after (.cablePresentChange 1 false) (linked [] []) (fun t => decide (t.cpl.ports[1]?.map (·.state) = some 0)) = true ∧
    after .heartbeatSend (linked [] []) (fun t => t.hif.out.any (fun o => decide (o = .heartbeat 1 0 (linked [] []).modOk false 0x09))) = true := by decide +kernel

def roles (i : Instr) (s : State) (rs : List PairRole) : Bool := after i s (fun t => decide (t.cpl.pairs.map (·.role) = rs))

theorem test_pairs_after_power :
    (let s := (linked [pair .primary true []] []).powerOff
     s.cpl.pairs.map (·.role) = [.primary] ∧ s.peerAbsent 3 = true ∧ s.peerLost 3 = false) ∧
    (let s := { linked [pair .primary true []] [] with cpl := { (linked [pair .primary true []] []).cpl with absent := 8, membersSeen := 0 } }
     roles (.memberJoined 3 [0]) s [.superseded] = true ∧
     after (.flitReceived 1 (.heartbeat 3 false 8)) s (fun t => decide (t.cpl.membersSeen = 0)) = true) ∧
    (let s := { linked [] [] with pwr := { (linked [] []).pwr with pstate := .asleep .deep, wakeEn := 0x1FF } }
     after (.flitReceived 1 (.unbound 3 0)) s (fun t => decide (t.pwr.pstate = .waking .deep 1 ∧ t.pwr.wakeSource = 7)) = true ∧
     after (.flitReceived 1 (.heartbeat 3 false 8)) s (fun t => decide (t.pwr.pstate = .asleep .deep)) = true) := by decide +kernel

theorem test_members_ready :
    roles (.memberLost 3 9) (linked [pair .mirror true []] []) [.promoted] = true ∧
    roles (.memberLost 3 9) (linked [pair .primary true []] []) [.broken] = true ∧
    (let s := fun r => { linked [pair r true []] [] with cpl := { (linked [pair r true []] []).cpl with membersCfg := 0x18 } }
     roles (.memberLost 3 9) (s .primary) [.primary] = true) ∧
    after (.memberLost 3 9) (linked [] []) (fun t => t.cpl.fenced.getLsbD 3 && t.cpl.quorum) = true ∧
    (let s := { linked [] [] with cpl := { (linked [] []).cpl with sleeping := 8 } }
     after (.sleepingMemberTimeout 3 9) s (fun t => t.cpl.fenced.getLsbD 3) = true) ∧
    (let s := fun r => { linked [pair r true []] [] with cpl := { (linked [pair r true []] []).cpl with fenced := 8, membersSeen := 0 } }
     (s .broken).peerLost 3 = true ∧ roles (.memberJoined 3 []) (s .promoted) [.broken] = true ∧
     roles (.memberJoined 3 [0]) (s .primary) [.superseded] = true ∧ roles (.memberJoined 3 [0]) (s .broken) [.superseded] = true ∧
     roles (.memberJoined 3 []) (s .broken) [.primary] = true) ∧
    after (.sleepNotice 3) (linked [] []) (fun t => t.cpl.sleeping.getLsbD 3) = true := by decide +kernel

/-- A mirror's zone 0, implicitly open at 64; a write of the primary that waits for its mirror, and a zone action that does. -/
def mirrorSide (st : ZState) : State := { linked [pair .mirror true []] [] with
  zns := (zoned st 64).zns, bpm := { world.bpm with staging := { world.bpm.staging with entered := 7 } } }
def waitingFor (k : FlightKind) : State :=
  linked [pair .primary true []] [{ world.newFlight io1 k 0 1 (some 0) with id := 5, mirrorWait := true, segs := if k = .write then [seg .granted none] else [] }]

theorem test_mirrored_commands_ready :
    (mirrorSide .implicitOpen).pgroupZone 0 0 = some 0 ∧ (mirrorSide .implicitOpen).serves = true ∧
    (mirrorSide .implicitOpen).mayGrant .staging (State.classOf 1) false = false ∧
    after (.mirrorSegment 3 0 0 64 0 (List.replicate 4096 0) false 1) (mirrorSide .implicitOpen) (fun t =>
      decide ((t.zone 0).wp = 65) && t.car.flights.any (fun v => decide (v.peer = some (3, 16)))) = true ∧
    after (.mirrorSegment 3 0 0 63 0 (List.replicate 4096 0) false 1) (mirrorSide .implicitOpen) (fun t =>
      t.hif.out.any (fun o => decide (o = .mirrorAck 3 0 63 Status.zoneInvalidWrite.code))) = true ∧
    (mirrorSide .implicitOpen).sensesOf (some 0) 64 1 = [] ∧ runs (.forwardedRead 3 0 0 64 1 1) (mirrorSide .implicitOpen) = true ∧
    after (.mirrorAck 5 0 0) (waitingFor .write) (fun t => t.car.flights.any (fun v => v.segs.any (·.mirrored))) = true ∧
    (∀ k ∈ [FlightKind.open_, .close, .offline_], after (.mirrorAck 5 0 0x86) (waitingFor k) (fun t => completed t io1 (.vendor 0x86)) = true) ∧
    after (.mirrorAck 5 0 0) (waitingFor .offline_) (fun t => decide ((t.zone 0).state = .offline)) = true := by decide +kernel

theorem test_time_exchange_ready :
    (∀ err ∈ [1000, 1001], let s := linked [] []
      let x := fun (pps : Bool) => { s with tim := { s.tim with ppsAlive := pps } }
      (after (.timeExchange (5500000000 + 2 * err) 5500000000 5500000500 5500000500 5 true 1) (x false) (fun t =>
        decide (t.tim.source = 3 ∧ t.cpl.lastErr = err ∧ t.tim.secSuspect = true ∧
          t.tim.now = (if err = 1000 then 5500000500 else 5500000500 - 1001))) = true) ∧
      after (.timeExchange (5500000000 + 2 * err) 5500000000 5500000500 5500000500 5 true 7) (x true) (fun t =>
        decide (t.tim.now = 5500000500 ∧ t.tim.source = 0 ∧ t.cpl.lastErr = err ∧ t.cpl.hops = 7)) = true) := by decide +kernel

/-! ## Registers, the management bus and the whole machine -/

/-- The link of port 0 reaches the registers; a read answers the value, or the write leaves it. -/
def reads (i : Instr) (s : State) (off : Nat) (v : Word) : Bool :=
  after i s (fun t => t.hif.out.any (fun o => decide (o = .mmio 0 2 off v)))

theorem test_registers_ready :
    world.reachable 0 = true ∧ reads (.registerReadClear 0 2 0x20008 8) world 0x20008 (BitVec.ofNat 64 (world.regRead 0x20008)) = true ∧
    reads (.registerReadClear 0 2 0x30000 8) world 0x30000 5000000000 = true ∧ reads (.registerReadClear 0 2 0x2400000 8) world 0x2400000 0 = true ∧ reads (.registerReadClear 0 2 0x3FFFFF8 8) world 0x3FFFFF8 0 = true ∧
    (∀ off ∈ [0x2400000, 0x3FFFFF8], after (.registerWrite 0 2 off 8 1) world (fun t => decide (t.zns = world.zns)) = true) ∧
    after (.registerWrite 0 2 0x20020 8 77) world (fun t => decide (t.pwr.wakeTimer = 77)) = true ∧
    after (.registerWrite 0 2 0x20024 4 1) world (fun t => decide (t.pwr.wakeTimer = 0x1FFFFFFFF)) = true ∧
    after (.registerWrite 0 2 0x20010 4 5) world (fun t => decide (t.pwr.idleUs = 5)) = true ∧
    after (.registerWrite 0 2 0x30008 4 3) world (fun t => t.tim.ppsEn && t.tim.ptmEn) = true ∧
    (leveled world .closed).sec.level ≠ .opened ∧ runs (.registerWrite 0 2 0x40008 8 1) (leveled world .closed) = true ∧
    (let s := { world with part := { world.part with fan := false } }
     ∀ off ∈ [0x50000, 0x5FFF8], after (.registerWrite 0 2 off 8 1) s (fun t => decide (t.fan = s.fan)) = true) ∧
    after (.registerWrite 0 2 0x40 8 0x80000) world (fun t => !t.pins.srcIdChanged) = true ∧
    (∀ b ∈ [true, false], runs (.misalignedAccess 0 b 4) world = true) ∧ world.awake = true ∧ world.pwr.wakeTimer < 2 ^ 64 := by
  decide +kernel

theorem test_pins_and_debug_ready :
    (∀ z ∈ [0, 16777216, 700000], runs (.zoneQuery z) world = true) ∧ world.zoneExists 0 = true ∧ world.zoneExists 700000 = false ∧
    (let s := { world with mem := { world.mem with frozen := [(3, 0)] } }
     after .dmaChannelRelease s (fun t => decide (t.mem.frozen = [])) = true) ∧
    (∀ off ∈ [0, 3, 0x3FFFFF8, 0x4000000], runs (.peek off) world = true ∧
      after (.peek off) (leveled world .closed) (fun t => decide (t.hif.out = [])) = true) ∧
    world.boot.step = 9 ∧ after .extest world (fun t => decide (t.svc.ir = .extest)) = true := by decide +kernel

theorem test_management_bus_ready :
    world.pwr.pstate = .run ∧ world.svc.i3c = false ∧
    (∀ a ∈ [0, 127], after (.i3cBroadcast (some a)) world (fun t => t.svc.i3c && decide (t.svc.i3cAddr = some a)) = true) ∧
    runs (.i3cBroadcast none) world = true ∧ runs .basicManagementCommand world = true ∧ runs .subsystemHealthStatusPoll world = true ∧
    runs (.vpdRead 255 1) world = true ∧
    after (.vpdRead 255 2) world (fun t => t.hif.out.any (fun o => decide (o = .mi 4 []))) = true ∧
    runs (.tunnelledIdentify 1 0 0 0 0 4096) world = true ∧ runs (.tunnelledIdentify 0xFF 0 0 0 0 4096) world = true ∧
    runs (.tunnelledGetLogPage 2 0xFFFFFFFF 0 512) world = true ∧ runs (.tunnelledGetLogPage 9 0 0 512) world = true ∧
    after (.miInvalidCommand 0xFF) world (fun t => t.hif.out.any (fun o => decide (o = .mi 3 []))) = true ∧
    (∀ x ∈ [SleepTarget.sleep, .deep], let s := wakeful (.asleep x)
      runs .basicManagementCommand s = true ∧ after .subsystemHealthStatusPoll s (fun t =>
        decide (t.svc.requests = [.poll] ∧ t.pwr.pstate = .waking x 1 ∧ t.pwr.wakeSource = 8)) = true ∧
      after (.vpdRead 3 4) s (fun t => decide (t.svc.requests = [.vpd 3 4])) = true ∧
      after (.tunnelledGetLogPage 2 1 0 4) s (fun t => decide (t.svc.requests = [.log 2 1 0 4])) = true) := by decide +kernel

/-- A sealed part: a step leaves it so; the queue moves on by one; and nanoseconds pass on an empty queue. -/
def sealedPart : State := { world with part := { world.part with sealFuse := true }, sec := { world.sec with level := .sealed } }

theorem test_whole_machine_ready :
    (∀ s ∈ [sealedPart, world], (match step { s with pending := [.carriageDrainComplete 0, .zoneQuery 0] } with
      | .next _ => false
      | _ => true) = true) ∧
    (∀ s ∈ [sealedPart, world], (match step { s with pending := [.zoneQuery 0, .extest] } with
      | .next t => decide (t.pending = [.extest] ∧ t.part = s.part ∧ t.sec.level = s.sec.level)
      | _ => false) = true) ∧
    (match step world with
      | .next t => decide (t.tim.now = world.tim.now + 1)
      | _ => false) = true ∧ world.pending = [] ∧ world.tim.running = true ∧ world.tim.slew = 0 ∧
    decodeTableWord 64 0 = none := by decide +kernel

theorem test_sealed_witness : Sealed State.reset ∧ Sealed sealedPart := by
  unfold Sealed; decide +kernel

/-! ## Ill-formed commands, and the manual's worked examples -/

/-- Every check refuses a number outside its range. -/
theorem test_ill_formed :
    ∀ i ∈ [Instr.mapPasid adm 1 5 2, .mapPasid adm 1024 5 1, .mapPasid adm 1 1048576 1, .mapPasid { adm with port := 2 } 1 5 1,
        .mapPasid { adm with comp := 1024 } 1 5 1, .mapPasid { adm with cid := 65536 } 1 5 1, .mapPasid { adm with qid := 65536 } 1 5 1,
        .mapPasid { adm with nsid := 4294967296 } 1 5 1, .sqTailDoorbell 0 0 65536 1, .resyncComplete 65536,
        .ppsEdge 18446744073709551616, .tunnelledIdentify 0 0 0 4294967296 0 0, .relocationStart 0 5600, .relocationStart 2048 0,
        .powerOn 4096 true false, .clockIdleStop 256, .bufferLeak 4096, .frameCodingComplete 8, .crossbarAttachmentLost 16 0,
        .crossbarAttachmentLost 0 2, .fanStartStep 4 .ramped, .callerWatchdogExpiry 36, .nop { wu 0 0 0 0 0 with ctx := 144 }, .stripeRowClose 640000 0, .hostDmaFault 64 0 (.flight 0), .optionCommit true ⟨15, [4]⟩, .unassignedOpcode 144 0,
        .linkSilenceTimeout 4, .sleepNotice 8, .read io1 (ioAt 0 0), .read io1 (ioAt 0 65537), .read io1 (ioAt 18446744073709551616 1)],
      wellFormed i = false := by decide +kernel

/-- Numbers at the ends of their ranges pass. -/
theorem test_well_formed :
    ∀ i ∈ [Instr.mapPasid adm 1023 1048575 1, .sqTailDoorbell 1 1023 65535 1, .resyncComplete 65535, .ppsEdge 18446744073709551615,
        .relocationStart 2047 5599, .powerOn 4095 true false, .clockIdleStop 255, .frameCodingComplete 7, .crossbarAttachmentLost 15 1,
        .nop { wu 0 0 0 0 0 with ctx := 143 }, .optionCommit true ⟨15, [0, 3]⟩, .stripeRowClose 639999 0, .sleepNotice 7, .read io1 (ioAt 18446744073709551615 65536)], wellFormed i = true := by decide +kernel

/-- R281: the word of NSCTL's clear from g8 under g10. R7: `GLB_CAP` of an LFN-660Z-CFP. R125, R128: 12 % of 17,624 µs.
R52: 300 W to 100 W of demand, of 220 W and of 640 dies. R505: 10 °C to Trip at 4 and at 8 °C/s. R518: curve 0 at 80 °C. -/
theorem test_worked_examples :
    wordOf 0x62 { ctx := 0, d := 0, a := 8, b := 10, mod := 2, imm := 0 } = 0x6202140200000000 ∧
    glbCap { variant := .z660, codec := true, history := false, fan := true, coupler := true, hwRev := 0, serial := 0, sealFuse := false } =
      0x000000600018010D ∧
    (State.RaBudget.renew { RaBudget.reset with readUs := 17624 } 12).allowance = 2115 ∧
    State.shareOf 220000 300000 100000 false = 137500 ∧ State.shareOf 220000 100000 300000 false = 82500 ∧
    State.shareOf 640 3 1 false = 400 ∧ State.shareOf 640 1 3 false = 240 ∧
    timeToTrip (4, 1000000000) 120 110 = some 2500 ∧ timeToTrip (8, 1000000000) 120 110 = some 1250 ∧ timeToTrip (0, 1) 120 110 = none ∧
    loopPct .galop 120 = 78 := by decide +kernel

/-- R397: the generator's check symbols leave no syndrome; one device in error is found and corrected, two are not. -/
theorem test_dram_codeword :
    (let d : List (BitVec 16) := [1, 2, 0x8000, 0xFFFF, 0, 7, 0x1234, 0x00FF]
     let c := d ++ [(dramCheck d).1, (dramCheck d).2]
     dramDecode none c = some (none, c) ∧
     (∀ i ∈ [0, 3, 9], dramDecode none (c.mapIdx (fun k x => if k = i then x ^^^ 0x0A51 else x)) = some (some i, c) ∧
       dramDecode (some i) (c.mapIdx (fun k x => if k = i then x ^^^ 0x0A51 else x)) = some (some i, c)) ∧
     dramDecode none (c.mapIdx (fun k x => if k < 2 then x ^^^ 0x0A51 else x)) = none ∧
     dramDecode (some 4) (c.mapIdx (fun k x => if k = 3 then x ^^^ 1 else x)) = none) := by decide +kernel

end Sys2Proof.Tests
end

section
/-! SUPPORT. The arithmetic of Krytfer (R286 to R289): what the model computes on words is what the rows of the manual's tables say of
their numbers. -/

namespace Sys2Proof.Proofs

open Sys2Proof Sys2Proof.Machine

/-! ### Flags (R266) -/

theorem flagsZN_eq_zn (f : KFlags) (r : Word) : flagsZN f r = zn f r := by
  simp [flagsZN, zn, BitVec.msb_eq_getLsbD_last, BitVec.toNat_eq]

theorem flagsLogic_eq_znCleared (f : KFlags) (x y r : Word) : flagsLogic r = znCleared f x y r := by
  simp [znCleared, ← flagsZN_eq_zn, flagsZN, flagsLogic]

theorem flagsDiv_eq_divisionFlags (f : KFlags) (x y r : Word) : flagsDiv f r y = divisionFlags f x y r := by
  simp [flagsDiv, divisionFlags, ← flagsZN_eq_zn, flagsZN, BitVec.toNat_eq]

theorem flagsZ_eq_immZ (f : KFlags) (x : Word) (i : BitVec 32) (r : Word) : flagsZ f r = immZ f x i r := by
  simp [flagsZ, immZ, BitVec.toNat_eq]

/-- A signed sum overflows exactly where its operands share a sign that it does not have. -/
theorem sum_overflow_iff (x y : Word) :
    (x.msb = y.msb ∧ (x + y).msb ≠ x.msb) ↔ (x + y).toInt ≠ x.toInt + y.toInt := by
  have hx := x.toInt_lt; have hx' := x.le_toInt; have hy := y.toInt_lt; have hy' := y.le_toInt
  simp only [BitVec.msb_eq_toInt, ne_eq, decide_eq_decide, BitVec.toInt_add, Int.bmod_def]
  split <;> omega

/-- A signed difference overflows exactly where its operands differ in sign and it has not the sign of the first. -/
theorem difference_overflow_iff (x y : Word) :
    (x.msb ≠ y.msb ∧ (x - y).msb ≠ x.msb) ↔ (x - y).toInt ≠ x.toInt - y.toInt := by
  have hx := x.toInt_lt; have hx' := x.le_toInt; have hy := y.toInt_lt; have hy' := y.le_toInt
  simp only [BitVec.msb_eq_toInt, ne_eq, decide_eq_decide, BitVec.toInt_sub, Int.bmod_def]
  split <;> omega

theorem flagsAdd_eq_sumFlags (f : KFlags) (x y : Word) : flagsAdd x y = sumFlags f x y (x + y) := by
  rw [sumFlags, ← flagsZN_eq_zn, flagsZN, flagsAdd]
  simp only [sum_overflow_iff]

theorem flagsSub_eq_differenceFlags (f : KFlags) (x y : Word) : flagsSub x y = differenceFlags f x y (x - y) := by
  rw [differenceFlags, ← flagsZN_eq_zn, flagsZN, flagsSub]
  simp only [difference_overflow_iff]

/-! ### Values (R286) -/

theorem ofNat_toNat_add (x y : Word) : BitVec.ofNat 64 (x.toNat + y.toNat) = x + y := by
  simp [BitVec.ofNat_add]

theorem ofInt_toInt_add (x y : Word) : BitVec.ofInt 64 (x.toInt + y.toInt) = x + y := by
  simp [BitVec.ofInt_add]

theorem ofInt_toInt_sub (x y : Word) : BitVec.ofInt 64 (x.toInt - y.toInt) = x - y := by
  simp [Int.sub_eq_add_neg, BitVec.ofInt_add, BitVec.ofInt_neg, BitVec.sub_eq_add_neg]

theorem ofNat_toNat_mul (x y : Word) : BitVec.ofNat 64 (x.toNat * y.toNat) = x * y := by
  simp [BitVec.ofNat_mul]

theorem ofNat_toNat_mul_two_pow (x : Word) (n : Nat) : BitVec.ofNat 64 (x.toNat * 2 ^ n) = x <<< n := by
  simp [BitVec.toNat_eq, Nat.shiftLeft_eq]

theorem ofNat_toNat_div_two_pow (x : Word) (n : Nat) : BitVec.ofNat 64 (x.toNat / 2 ^ n) = x >>> n := by
  rw [← Nat.shiftRight_eq_div_pow, ← BitVec.toNat_ushiftRight, BitVec.ofNat_toNat, BitVec.setWidth_eq]

theorem ofInt_toInt_div_two_pow (x : Word) (n : Nat) : BitVec.ofInt 64 (x.toInt / (2 : Int) ^ n) = x.sshiftRight n := by
  have h : x.toInt / (2 : Int) ^ n = (x.sshiftRight n).toInt := by
    rw [BitVec.toInt_sshiftRight, Int.shiftRight_eq_div_pow, Nat.cast_pow]; rfl
  rw [h, BitVec.ofInt_toInt]

theorem quotient_eq (x y : Word) :
    quotient x y = if y.toNat = 0 then BitVec.ofInt 64 (-1) else BitVec.ofNat 64 (x.toNat / y.toNat) := by
  by_cases hy : y = 0
  · subst hy; rfl
  · have hn : y.toNat ≠ 0 := by simpa [BitVec.toNat_eq] using hy
    rw [quotient, if_neg hy, if_neg hn, ← BitVec.toNat_udiv, BitVec.ofNat_toNat, BitVec.setWidth_eq]

theorem remainder_eq (x y : Word) :
    remainder x y = if y.toNat = 0 then x else BitVec.ofNat 64 (x.toNat % y.toNat) := by
  by_cases hy : y = 0
  · subst hy; rfl
  · have hn : y.toNat ≠ 0 := by simpa [BitVec.toNat_eq] using hy
    rw [remainder, if_neg hy, if_neg hn, ← BitVec.toNat_umod, BitVec.ofNat_toNat, BitVec.setWidth_eq]

theorem ofNat_min_toNat (x y : Word) :
    BitVec.ofNat 64 (min x.toNat y.toNat) = if x.toNat ≤ y.toNat then x else y := by
  rw [Nat.min_def]; split <;> simp

theorem ofNat_max_toNat (x y : Word) :
    BitVec.ofNat 64 (max x.toNat y.toNat) = if x.toNat ≤ y.toNat then y else x := by
  rw [Nat.max_def]; split <;> simp

/-! ### Immediates and bit fields (R272, R287) -/

theorem sextImm_eq_signed (w : KWord) : sextImm w = signed w.imm := rfl

theorem zextImm_eq_unsigned (w : KWord) : zextImm w = unsigned_ w.imm := by
  simp [zextImm, unsigned_, BitVec.ofNat_toNat]

theorem toInt_signed (i : BitVec 32) : (signed i).toInt = i.toInt := by
  have h := i.toInt_lt; have h' := i.le_toInt
  rw [signed, BitVec.toInt_ofInt]
  exact Int.bmod_eq_of_le (by omega) (by omega)

theorem append_lowHalf (i : BitVec 32) (d : Word) :
    i ++ lowHalf d = BitVec.ofNat 64 (i.toNat * 2 ^ 32 + d.toNat % 2 ^ 32) := by
  have hd : (lowHalf d).toNat = d.toNat % 2 ^ 32 := by simp [lowHalf]
  have hi := i.isLt
  apply BitVec.eq_of_toNat_eq
  rw [BitVec.toNat_append, hd, ← Nat.shiftLeft_add_eq_or_of_lt (Nat.mod_lt _ (by decide)), Nat.shiftLeft_eq, BitVec.toNat_ofNat]
  omega

theorem fieldLow_eq_low (w : KWord) : fieldLow w = low w.imm := rfl

theorem getLsbD_fieldMask (w : KWord) (i : Nat) : (fieldMask w).getLsbD i = decide (i < width w.imm) := by
  have h : width w.imm ≤ 64 := by unfold width; omega
  have e : fieldMask w = BitVec.ofNat 64 (2 ^ width w.imm - 1) := rfl
  rw [e, BitVec.getLsbD_ofNat, Nat.testBit_two_pow_sub_one]
  by_cases hi : i < width w.imm
  · simp [hi]; omega
  · simp [hi]

theorem extract_field_eq (w : KWord) (x : Word) :
    (x >>> fieldLow w) &&& fieldMask w = BitVec.ofNat 64 (x.toNat / 2 ^ low w.imm % 2 ^ width w.imm) := by
  apply BitVec.eq_of_getLsbD_eq
  intro i hi
  rw [BitVec.getLsbD_and, BitVec.getLsbD_ushiftRight, getLsbD_fieldMask, BitVec.getLsbD_ofNat, Nat.testBit_mod_two_pow,
    Nat.testBit_div_two_pow, BitVec.testBit_toNat, fieldLow_eq_low]
  simp [hi, Bool.and_comm, Nat.add_comm]

/-- Bit `i` of a number whose field of `n` bits from `l` was replaced. -/
theorem testBit_replaceField (d x l n i : Nat) :
    (d % 2 ^ l + x % 2 ^ n * 2 ^ l + d / 2 ^ (l + n) * 2 ^ (l + n)).testBit i =
      if l ≤ i ∧ i - l < n then x.testBit (i - l) else d.testBit i := by
  have e : d % 2 ^ l + x % 2 ^ n * 2 ^ l + d / 2 ^ (l + n) * 2 ^ (l + n) =
      2 ^ l * (2 ^ n * (d / 2 ^ (l + n)) + x % 2 ^ n) + d % 2 ^ l := by rw [pow_add]; ring
  rw [e, Nat.testBit_two_pow_mul_add _ (Nat.mod_lt _ (Nat.two_pow_pos l)),
    Nat.testBit_two_pow_mul_add _ (Nat.mod_lt _ (Nat.two_pow_pos n))]
  rcases Nat.lt_or_ge i l with hl | hl
  · simp [hl, Nat.not_le.2 hl]
  · rcases Nat.lt_or_ge (i - l) n with hn | hn
    · simp [hl, hn, Nat.not_lt.2 hl]
    · simp [hl, Nat.not_lt.2 hl, Nat.not_lt.2 hn, Nat.testBit_div_two_pow, show i - l - n + (l + n) = i by omega]

theorem replace_field_eq (w : KWord) (x d : Word) :
    (d &&& ~~~(fieldMask w <<< fieldLow w)) ||| ((x <<< fieldLow w) &&& (fieldMask w <<< fieldLow w)) =
      BitVec.ofNat 64 (d.toNat % 2 ^ low w.imm + x.toNat % 2 ^ width w.imm * 2 ^ low w.imm +
        d.toNat / 2 ^ (low w.imm + width w.imm) * 2 ^ (low w.imm + width w.imm)) := by
  apply BitVec.eq_of_getLsbD_eq
  intro i hi
  rw [BitVec.getLsbD_ofNat, testBit_replaceField, BitVec.testBit_toNat, BitVec.testBit_toNat, fieldLow_eq_low]
  simp only [BitVec.getLsbD_or, BitVec.getLsbD_and, BitVec.getLsbD_not, BitVec.getLsbD_shiftLeft, getLsbD_fieldMask, hi]
  rcases Nat.lt_or_ge i (low w.imm) with hl | hl
  · simp [hl, Nat.not_le.2 hl]
  · rcases Nat.lt_or_ge (i - low w.imm) (width w.imm) with hn | hn
    · simp [hl, hn, Nat.not_lt.2 hl]
    · simp [hl, Nat.not_lt.2 hl, Nat.not_lt.2 hn]

/-! ### Conditions (R289) -/

theorem condHolds_iff (f : KFlags) : ∀ c : Nat, condHolds f c = true ↔ condition c f
  | 0 | 1 | 2 | 3 | 4 | 5 | 6 | 7 | 8 | 9 | 10 => by simp [condHolds, condition]
  | n + 11 => by simp [condHolds, condition]

end Sys2Proof.Proofs
end

section
/-! SUPPORT. The register and immediate arithmetic (R286, R287): every row retires with its value and its flags. -/

namespace Sys2Proof.Proofs

open Sys2Proof Sys2Proof.Machine

/-- What a register instruction that is ready leaves: its value in g[d], its flags, and the next `pc`. -/
theorem retires_of_runAlu {i : Instr} {s : State} {n : String} {f : Form} {w : KWord} {k : KCtx} {r : KCtx → Word}
    {fl : KCtx → KFlags} {v : Word} {g : KFlags} (hi : exec i s = runAlu s n f w r fl) (h : Ready s f false w k)
    (hv : r k = v) (hg : fl k = g) :
    Retires i s w.ctx (stepped { setReg k w.d.toNat v with flags := g } (k.pc + 8)) := by
  subst hv hg
  exact retires_of_runLocal hi h rfl

/-- The same where z and n follow from the value. -/
theorem retires_of_runZN {i : Instr} {s : State} {n : String} {f : Form} {w : KWord} {k : KCtx} {r : KCtx → Word} {v : Word}
    (hi : exec i s = runZN s n f w r) (h : Ready s f false w k) (hv : r k = v) :
    Retires i s w.ctx (stepped { setReg k w.d.toNat v with flags := zn k.flags v } (k.pc + 8)) :=
  retires_of_runAlu hi h hv (by rw [hv, flagsZN_eq_zn])

/-- Every row of R286 retires with its value in g[d] and its flags. -/
theorem arithmeticRow_retires : ∀ row ∈ arithmeticRows, ∀ (s : State) (w : KWord) (k : KCtx),
    Ready s { op := row.op, useD := true, useA := true, useB := true, mask := 0 } false w k →
    Retires (row.cmd w) s w.ctx (stepped { setReg k w.d.toNat (row.value (regA k w) (regB k w)) with
      flags := row.flags k.flags (regA k w) (regB k w) (row.value (regA k w) (regB k w)) } (k.pc + 8)) := by
  simp only [arithmeticRows, List.forall_mem_cons, List.not_mem_nil, false_imp_iff, implies_true, and_true]
  refine ⟨?add, ?sub, ?and, ?or, ?xor, ?shl, ?shr, ?sar, ?mul, ?mulhu, ?divu, ?remu, ?minu, ?maxu⟩
  all_goals intro s w k h
  case add =>
    rw [ofNat_toNat_add]
    exact retires_of_runAlu (n := "ADD") rfl h rfl (flagsAdd_eq_sumFlags _ _ _)
  case sub =>
    rw [ofInt_toInt_sub]
    exact retires_of_runAlu (n := "SUB") rfl h rfl (flagsSub_eq_differenceFlags _ _ _)
  case and => exact retires_of_runAlu (n := "AND") rfl h rfl (flagsLogic_eq_znCleared _ _ _ _)
  case or => exact retires_of_runAlu (n := "OR") rfl h rfl (flagsLogic_eq_znCleared _ _ _ _)
  case xor => exact retires_of_runAlu (n := "XOR") rfl h rfl (flagsLogic_eq_znCleared _ _ _ _)
  case shl => exact retires_of_runZN (n := "SHL") rfl h (ofNat_toNat_mul_two_pow _ _).symm
  case shr => exact retires_of_runZN (n := "SHR") rfl h (ofNat_toNat_div_two_pow _ _).symm
  case sar => exact retires_of_runZN (n := "SAR") rfl h (ofInt_toInt_div_two_pow _ _).symm
  case mul => exact retires_of_runZN (n := "MUL") rfl h (ofNat_toNat_mul _ _).symm
  case mulhu => exact retires_of_runZN (n := "MULHU") rfl h rfl
  case divu =>
    rw [← quotient_eq]
    exact retires_of_runAlu (n := "DIVU") rfl h rfl (flagsDiv_eq_divisionFlags _ _ _ _)
  case remu =>
    rw [← remainder_eq]
    exact retires_of_runAlu (n := "REMU") rfl h rfl (flagsDiv_eq_divisionFlags _ _ _ _)
  case minu => exact retires_of_runZN (n := "MINU") rfl h (ofNat_min_toNat _ _).symm
  case maxu => exact retires_of_runZN (n := "MAXU") rfl h (ofNat_max_toNat _ _).symm

/-- Every row of R287 retires with its value in g[d] and its flags. -/
theorem immediateRow_retires : ∀ row ∈ immediateRows, ∀ (s : State) (w : KWord) (k : KCtx),
    Ready s { op := row.op, useD := true, useA := row.useA, useB := false, mask := 0 } false w k →
    Retires (row.cmd w) s w.ctx (stepped { setReg k w.d.toNat (row.value (regA k w) (regD k w) w.imm) with
      flags := row.flags k.flags (regA k w) w.imm (row.value (regA k w) (regD k w) w.imm) } (k.pc + 8)) := by
  simp only [immediateRows, List.forall_mem_cons, List.not_mem_nil, false_imp_iff, implies_true, and_true]
  refine ⟨?addi, ?andi, ?ori, ?xori, ?shli, ?shri, ?sari, ?li, ?lih, ?bfx, ?bfi⟩
  all_goals intro s w k h
  case addi =>
    rw [← toInt_signed w.imm, ofInt_toInt_add]
    exact retires_of_runAlu (n := "ADDI") rfl h rfl (flagsAdd_eq_sumFlags _ _ _)
  case andi => exact retires_of_runZN (n := "ANDI") rfl h rfl
  case ori => exact retires_of_runZN (n := "ORI") rfl h (by rw [zextImm_eq_unsigned])
  case xori => exact retires_of_runZN (n := "XORI") rfl h (by rw [zextImm_eq_unsigned])
  case shli => exact retires_of_runZN (n := "SHLI") rfl h (ofNat_toNat_mul_two_pow _ _).symm
  case shri => exact retires_of_runZN (n := "SHRI") rfl h (ofNat_toNat_div_two_pow _ _).symm
  case sari => exact retires_of_runZN (n := "SARI") rfl h (ofInt_toInt_div_two_pow _ _).symm
  case li => exact retires_of_runAlu (n := "LI") rfl h rfl rfl
  case lih => exact retires_of_runAlu (n := "LIH") rfl h (append_lowHalf _ _) rfl
  case bfx =>
    rw [← extract_field_eq]
    exact retires_of_runAlu (n := "BFX") rfl h rfl (flagsZ_eq_immZ _ _ _ _)
  case bfi =>
    rw [← replace_field_eq]
    exact retires_of_runAlu (n := "BFI") rfl h rfl (flagsZ_eq_immZ _ _ _ _)

/-- Settles O3: the rows of R286 and R287, row by row, the value and the flags of the model against those of the table. -/
theorem arithmeticWritesResultAndFlags : Obligations.ArithmeticWritesResultAndFlags :=
  ⟨arithmeticRow_retires, immediateRow_retires⟩

end Sys2Proof.Proofs
end

section
/-! SUPPORT. What a trap leaves (R282, R325): every event and completion, and the store operations that a stop may set going, leave the
contexts and the records alone and start no reel. -/

namespace Sys2Proof.Proofs

open Sys2Proof Sys2Proof.Machine

/-- From `s` to `t` no context and no record changed, and no reel began to run. -/
structure ReelsKept (s t : State) : Prop where
  ctxs : t.kry.ctxs = s.kry.ctxs
  records : t.kry.records = s.kry.records
  gone : ∀ j, s.kinst j = none → t.kinst j = none

namespace ReelsKept

theorem trans {s t u : State} (a : ReelsKept s t) (b : ReelsKept t u) : ReelsKept s u :=
  ⟨b.ctxs.trans a.ctxs, b.records.trans a.records, fun j h => b.gone j (a.gone j h)⟩

theorem of_kry {s t : State} (h : t.kry = s.kry) : ReelsKept s t :=
  ⟨by rw [h], by rw [h], fun j hj => by unfold State.kinst at *; rw [h]; exact hj⟩

theorem refl (s : State) : ReelsKept s s := of_kry rfl

theorem after_kry {s t u : State} (h : ReelsKept t u) (e : t.kry = s.kry) : ReelsKept s u := (of_kry e).trans h

theorem of_eventFrame {s t : State} (h : EventFrame s t) : ReelsKept s t :=
  ⟨by rw [h.rest], by rw [h.rest], h.gone⟩

theorem foldl {α : Type} {f : State → α → State} (hf : ∀ s x, ReelsKept s (f s x)) (l : List α) :
    ∀ s, ReelsKept s (l.foldl f s) := by
  induction l with
  | nil => exact refl
  | cons a l ih => exact fun s => (hf s a).trans (ih _)

theorem ite {s t u : State} {c : Prop} [Decidable c] (a : ReelsKept s t) (b : ReelsKept s u) :
    ReelsKept s (if c then t else u) := by split <;> assumption

end ReelsKept

/-! ### Events and warnings -/

theorem event_kept (s : State) (code level source c : Nat) (fields : List Int) :
    ReelsKept s (s.event code level source c fields) := .of_eventFrame (event_frame _ _ _ _ _ _)

theorem complete_kept (s : State) (h : HostCmd) (st : Status) (a b : BitVec 32) : ReelsKept s (s.complete h st a b) :=
  .of_eventFrame (complete_frame _ _ _ _ _)

theorem setPort_kept (s : State) (p : Nat) (v : Port) : ReelsKept s (s.setPort p v) := .ite (.of_kry rfl) (.of_kry rfl)

theorem portAsync_kept (s : State) (p bit type info page : Nat) : ReelsKept s (s.portAsync p bit type info page) := by
  unfold State.portAsync
  extract_lets v
  refine .ite ?_ (.refl s)
  split
  · exact (setPort_kept _ _ _).trans (complete_kept _ _ _ _ _)
  · exact .ite (.refl s) (setPort_kept _ _ _)

theorem compAsync_kept (s : State) (c bit type info page : Nat) : ReelsKept s (s.compAsync c bit type info page) := by
  unfold State.compAsync
  split
  · exact .refl s
  · refine .ite ?_ (.refl s)
    split
    · exact (complete_kept _ _ _ _ _).after_kry rfl
    · exact .ite (.refl s) (.of_kry rfl)

theorem warning_kept (s : State) (bit info : Nat) : ReelsKept s (s.warning bit info) :=
  ((portAsync_kept _ _ _ _ _ _).trans (portAsync_kept _ _ _ _ _ _)).trans
    (.foldl (fun _ _ => compAsync_kept _ _ _ _ _ _) _ _)

/-! ### Blocks and die queues -/

theorem withSpares_kept (s : State) (d : Nat) (f : State → State) (hf : ReelsKept s (f s)) : ReelsKept s (s.withSpares d f) := by
  unfold State.withSpares
  refine hf.trans ?_
  generalize f s = t
  unfold State.spareEvents
  extract_lets g after s1
  have h1 : ReelsKept t s1 := .ite ((event_kept _ _ _ _ _ _).trans (warning_kept _ _ _)) (.refl t)
  clear_value s1
  exact .ite (h1.trans (event_kept _ _ _ _ _ _)) h1

theorem takeSpare_kept {s t : State} {d b : Nat} {role : Role} {use : BlockUse} (h : s.takeSpare d role use = some (b, t)) :
    ReelsKept s t := by
  unfold State.takeSpare at h
  split at h
  · cases h
  · split at h
    · cases h
    · cases h; exact withSpares_kept _ _ _ (.of_kry rfl)

theorem layPage_kry (s : State) (d b p : Nat) (data : List Byte) (r : Nat) : (s.layPage d b p data r).kry = s.kry := by
  simp only [State.layPage]

theorem layPages_kept (s : State) (d b p : Nat) (pages : List (List Byte × PageRecord)) : ReelsKept s (s.layPages d b p pages) := by
  unfold State.layPages
  exact .foldl (fun _ _ => .of_kry (layPage_kry _ _ _ _ _ _)) _ _

theorem takeSeq_kept (s : State) (n : Nat) : ReelsKept s (s.takeSeq n).2 := by
  unfold State.takeSeq
  exact .ite ((event_kept _ _ _ _ _ _).after_kry rfl) (.of_kry rfl)

theorem sealPages_kept (s : State) (d b p n : Nat) (flush : Bool) (fresh : Nat → Bool) :
    ReelsKept s (s.sealPages d b p n flush fresh) := (takeSeq_kept s _).trans (.of_kry rfl)

theorem readLimit_kept (s : State) (d b : Nat) : ReelsKept s (s.readLimit d b) := by
  unfold State.readLimit State.queueRefresh
  exact .ite (.ite (.refl s) (.of_kry rfl)) (.refl s)

theorem noteStart_kept (s : State) (d : Nat) (e : QEntry) : ReelsKept s (s.noteStart d e) := by
  unfold State.noteStart
  extract_lets b
  cases e.kind with
  | read => exact (readLimit_kept _ _ _).after_kry rfl
  | progSlc | progQlc => exact .ite ((sealPages_kept _ _ _ _ _ _ _).after_kry rfl) (.of_kry rfl)
  | eraseSlc | eraseQlc => exact .refl s

theorem chargeUnit_kept (s : State) (cluster r k ns : Nat) : ReelsKept s (s.chargeUnit cluster r k ns) := by
  unfold State.chargeUnit
  split
  · exact .refl s
  · refine .ite (.refl s) (.foldl (fun t p => ?_) _ _)
    exact .of_kry rfl

theorem startEntry_kept (s : State) (d : Nat) (e : QEntry) : ReelsKept s (s.startEntry d e) := by
  unfold State.startEntry
  extract_lets ns op v s1 s2 s3
  have h2 : ReelsKept s s2 := (noteStart_kept _ _ _).after_kry rfl
  clear_value s2
  have h3 : ReelsKept s s3 := by
    refine .ite h2 ?_
    split
    · exact h2.trans (chargeUnit_kept _ _ _ _ _)
    · exact h2.trans (chargeUnit_kept _ _ _ _ _)
    · exact h2.trans (.of_kry rfl)
  clear_value s3
  exact .ite h3 (h3.trans (.of_kry rfl))

theorem takeNext_kept (d : Nat) : ∀ (n : Nat) (s : State), ReelsKept s (State.takeNext n s d)
  | 0, s => .refl s
  | n + 1, s => by
    unfold State.takeNext
    split
    · exact .ite ((takeNext_kept d n _).after_kry rfl) (startEntry_kept _ _ _)
    · split
      · exact .of_kry rfl
      · exact .refl s

theorem dieNext_kept (s : State) (d : Nat) : ReelsKept s (s.dieNext d) := .ite (.refl s) (takeNext_kept _ _ _)

theorem enqueue_kept (s : State) (d : Nat) (e : QEntry) : ReelsKept s (s.enqueue d e) :=
  (dieNext_kept _ d).after_kry rfl

/-! ### The store operation that runs -/

theorem loseReplica_kept (s : State) (i r : Nat) : ReelsKept s (s.loseReplica i r) := by
  refine .ite (.refl s) (ReelsKept.trans ?_ (event_kept _ _ _ _ _ _))
  exact ⟨rfl, rfl, fun _ h => h⟩

theorem setStoreHead_kept (s : State) (w : StoreWrite) : ReelsKept s (s.setStoreHead w) := ⟨rfl, rfl, fun _ h => h⟩

theorem popStore_kept (s : State) : ReelsKept s s.popStore := ⟨rfl, rfl, fun _ h => h⟩

theorem answerCmd_kept (s : State) (h : Option HostCmd) (st : Status) : ReelsKept s (s.answerCmd h st) := by
  cases h with
  | none => exact .refl s
  | some c => exact complete_kept _ _ _ _ _

theorem storeIssue_kept (s : State) (w : StoreWrite) : ReelsKept s (s.storeIssue w) :=
  ((setStoreHead_kept _ _).trans (layPages_kept _ _ _ _ _)).trans (enqueue_kept _ _ _)

theorem storeSpare_kept (s : State) (r i : Nat) : ReelsKept s (s.storeSpare r i) := by
  unfold State.storeSpare
  extract_lets v d
  refine .ite ?_ (.refl s)
  split
  · next b t h => exact (takeSpare_kept h).trans ⟨rfl, rfl, fun _ hj => hj⟩
  · exact .refl s

theorem storeGo_kept {s t : State} {w : StoreWrite} (h : s.storeGo w = some t) : ReelsKept s t := by
  unfold State.storeGo at h
  extract_lets i s1 at h
  have h1 : ReelsKept s s1 := .foldl (fun _ _ => .ite (storeSpare_kept _ _ _) (.refl _)) _ _
  clear_value s1
  split at h
  · cases h
  · cases h
    refine h1.trans (.ite (storeIssue_kept _ _) (.ite (setStoreHead_kept _ _) ?_))
    exact (setStoreHead_kept _ _).trans (enqueue_kept _ _ _)

theorem storeEnd_kept (s : State) (w : StoreWrite) : ReelsKept s (s.storeEnd w) :=
  ((popStore_kept s).trans (event_kept _ _ _ _ _ _)).trans (answerCmd_kept _ _ _)

theorem storeRun_kept : ∀ (n : Nat) (s : State), ReelsKept s (State.storeRun n s)
  | 0, s => .refl s
  | n + 1, s => by
    have answered : ∀ (t : State) (h : Option HostCmd) (st : Status), ReelsKept s t →
        ReelsKept s (State.storeRun n (t.answerCmd h st)) :=
      fun t h st ht => (ht.trans (answerCmd_kept _ _ _)).trans (storeRun_kept n _)
    unfold State.storeRun
    split
    · exact .refl s
    · split
      · exact answered _ _ _ ⟨rfl, rfl, fun _ h => h⟩
      · exact answered _ _ _ ⟨rfl, rfl, fun _ h => h⟩
      all_goals
        split
        · exact answered _ _ _ (popStore_kept s)
        · split
          · next h => exact storeGo_kept h
          · exact (storeEnd_kept _ _).trans (storeRun_kept n _)

theorem storeSkips_kept (s : State) (w : StoreWrite) (a b : Nat) : ReelsKept s (s.storeSkips w a b) :=
  .foldl (fun _ _ => .ite (loseReplica_kept _ _ _) (.refl _)) _ _

theorem storeNext_kept (s : State) (w : StoreWrite) : ReelsKept s (s.storeNext w) := by
  unfold State.storeNext
  extract_lets s1
  have h1 : ReelsKept s s1 := by
    simp only [s1]
    split
    · split
      · exact storeSkips_kept _ _ _ _
      · exact .refl s
    · exact .ite (.refl s) (storeSkips_kept _ _ _ _)
  clear_value s1
  split
  · next h => exact h1.trans (storeGo_kept h)
  · exact (h1.trans (storeEnd_kept _ _)).trans (storeRun_kept _ _)

theorem storeWake_kept (s : State) : ReelsKept s s.storeWake := by
  unfold State.storeWake
  split
  · exact .ite (storeNext_kept _ _) (.refl s)
  · exact .refl s

/-- No store operation waits for a reel to stop where none is queued. -/
theorem storeWake_of_no_writes {s : State} (h : s.kry.writes = []) : s.storeWake = s := by
  simp [State.storeWake, State.storeHead, h]

/-! ### A reel that traps -/

/-- A stop before its event, its completions and the store's turn: the record is kept, and the context and its entry among
the running reels are free. -/
def stopped (s : State) (c : Nat) (k : KCtx) (r : KRecord) : State :=
  let s1 := { s with kry := { s.kry with records := (r :: s.kry.records).take 256 } }
  { (s1.setKctx c none).setKinst k.inst none with
    mem := { s.mem with bad := s.mem.bad.filter (fun x => match x with
      | .image j _ => decide (j ≠ k.inst)
      | .scratch c' _ => decide (c' ≠ c)
      | _ => true) } }

/-- A stop is an event, the store's turn, and the completions of the Reel Halt commands that waited. -/
theorem stopReel_frames {s : State} {c state code detail : Nat} {k : KCtx} {i : KInst} (hk : s.kctx c = some k)
    (hi : s.kinst k.inst = some i) :
    ∃ t, EventFrame (stopped s c k (s.recordOf c k i state code detail)) t ∧
      EventFrame t.storeWake (s.stopReel c state code detail) := by
  refine ⟨_, event_frame _ 0x0801 1 (srcCaller c) k.comp [k.inst, state, code, detail], ?_⟩
  unfold State.stopReel
  rw [hk]
  simp only [hi]
  exact .foldl _ (fun _ _ => .ite (complete_frame _ _ _ _ _) (done_frame _ _ _)) _ _

/-- An event or a completion changes no zone, no carriage, no block and no buffer. -/
theorem media_of_eventFrame {s t : State} (h : EventFrame s t) :
    t.zns = s.zns ∧ t.car = s.car ∧ t.fls = s.fls ∧ t.bpm = s.bpm := by
  rw [h.rest]; exact ⟨rfl, rfl, rfl, rfl⟩

theorem writes_of_eventFrame {s t : State} (h : EventFrame s t) : t.kry.writes = s.kry.writes := by rw [h.rest]

/-- A trap of a reel that runs. -/
theorem trapsWith_of_trapReel {ins : Instr} {s : State} {c code detail : Nat} {k : KCtx} {i : KInst} (ht : ReelTables s)
    (hk : s.kctx c = some k) (hi : s.kinst k.inst = some i)
    (he : exec ins s = .next ((s.reelIssues c).trapReel c (code, detail))) : TrapsWith ins s c k code detail := by
  obtain ⟨t, before, after⟩ := stopReel_frames (s := s.reelIssues c) (state := 5) (code := code) (detail := detail) hk hi
  have kept := ((ReelsKept.of_eventFrame before).trans (storeWake_kept t)).trans (.of_eventFrame after)
  refine ⟨_, he, ?_, ?_, ⟨_, congrArg List.head? kept.records, ?_⟩, fun d hd => ?_, fun hw => ?_⟩
  · exact (congrArg (look none · c) kept.ctxs).trans (kctx_setKctx_none s c ht)
  · exact kept.gone _ (look_put none s.kry.insts k.inst none ht.2)
  · exact ⟨rfl, rfl, rfl, rfl, rfl⟩
  · exact (congrArg (look none · d) kept.ctxs).trans (kctx_setKctx_other s c d none hd)
  · have hwt : t.kry.writes = [] := (writes_of_eventFrame before).trans hw
    rw [storeWake_of_no_writes hwt] at after
    have media := media_of_eventFrame (before.trans after)
    exact media

/-- A local instruction that is ready and that one of its own checks stops. -/
theorem trapsWith_of_runLocal {i : Instr} {s : State} {n : String} {f : Form} {w : KWord} {k : KCtx} {ts : KCtx → List TrapIf}
    {eff : KCtx → KCtx × Nat} {code detail : Nat} (hi : exec i s = s.runLocal n f w ts eff) (h : Ready s f false w k)
    (ht : firstTrap (ts k) = some (code, detail)) : TrapsWith i s w.ctx k code detail := by
  obtain ⟨x, hx⟩ := inst_of_issues h.issues h.here
  exact trapsWith_of_trapReel h.tables h.here hx (hi.trans (runLocal_trap h ht))

end Sys2Proof.Proofs
end

section
/-! SUPPORT. Compare, branch and the special registers (R273, R288, R289, R291). -/

namespace Sys2Proof.Proofs

open Sys2Proof Sys2Proof.Machine

/-! ### The instruction word and the code area (R270, R272, R273) -/

/-- No `mod` bit stands outside the mask of a form that is met. -/
theorem mod_le_mask {f : Form} {w : KWord} (h : badForm f w = false) : w.mod.toNat ≤ f.mask := by
  simp only [badForm, Bool.or_eq_false_iff, decide_eq_false_iff_not, not_not] at h
  have e : w.mod &&& BitVec.ofNat 9 f.mask = w.mod := by
    apply BitVec.eq_of_getLsbD_eq
    intro i hi
    have hb := congrArg (BitVec.getLsbD · i) h.2
    simp only [BitVec.getLsbD_and, BitVec.getLsbD_not, hi] at hb ⊢
    revert hb
    cases w.mod.getLsbD i <;> simp
  calc w.mod.toNat = w.mod.toNat &&& (BitVec.ofNat 9 f.mask).toNat := by rw [← BitVec.toNat_and, e]
    _ ≤ (BitVec.ofNat 9 f.mask).toNat := Nat.and_le_right
    _ ≤ f.mask := by rw [BitVec.toNat_ofNat]; exact Nat.mod_le _ _

/-- An address from which instructions may be fetched passes the checks of R270. -/
theorem codeTraps_of_fetchAddress {k : KCtx} {a : Nat} (h : FetchAddress k a) : firstTrap (codeTraps k a) = none := by
  obtain ⟨aligned, low, high⟩ := h
  simp [firstTrap, codeTraps, imageEnd, aligned, low, Nat.not_le.2 high]

/-- A target in the code area is reached without wrapping around. -/
theorem branchTarget_of_fetchAddress {k : KCtx} {w : KWord} (hc : k.codeLen ≤ 2 ^ 20) (h : FetchAddress k (target k w)) :
    branchTarget k w = target k w := by
  obtain ⟨-, low, high⟩ := h
  have e : BitVec.ofNat 64 k.pc + sextImm w * 8 = BitVec.ofInt 64 ((k.pc : Int) + w.imm.toInt * 8) := by
    rw [BitVec.ofInt_add, BitVec.ofInt_mul, BitVec.ofInt_natCast]; rfl
  unfold target at *
  rw [branchTarget, e, BitVec.toNat_ofInt, Int.emod_eq_of_lt (by omega) (by norm_num; omega)]

/-! ### Local instructions -/

/-- A local instruction that is ready and that none of its own checks stops, with its effect on the context named. -/
theorem retires_of_effect {i : Instr} {s : State} {n : String} {f : Form} {w : KWord} {k k' : KCtx} {ts : KCtx → List TrapIf}
    {eff : KCtx → KCtx × Nat} {a : Nat} (hi : exec i s = s.runLocal n f w ts eff) (h : Ready s f false w k)
    (ht : firstTrap (ts k) = none) (he : eff k = (k', a)) : Retires i s w.ctx (stepped k' a) := by
  have r := retires_of_runLocal hi h ht
  rwa [he] at r

theorem firstTrap_cons_false (c d : Nat) (ts : List TrapIf) : firstTrap ((false, c, d) :: ts) = firstTrap ts := rfl

theorem firstTrap_cons_true (c d : Nat) (ts : List TrapIf) : firstTrap ((true, c, d) :: ts) = some (c, d) := rfl

section Branches

variable {s : State} {w : KWord} {k : KCtx}

/-- B with a code that names a condition. -/
theorem b_retires (hc : k.codeLen ≤ 2 ^ 20)
    (h : Ready s { op := 0x32, useD := false, useA := false, useB := false, mask := 15 } false w k) (hm : w.mod.toNat ≤ 10) :
    (condition w.mod.toNat k.flags → FetchAddress k (target k w) → Retires (.b w) s w.ctx (stepped k (target k w))) ∧
    (¬ condition w.mod.toNat k.flags → Retires (.b w) s w.ctx (stepped k (k.pc + 8))) := by
  have hmod : w.mod.toNat % 16 = w.mod.toNat := Nat.mod_eq_of_lt (by omega)
  have named : decide (11 ≤ w.mod.toNat % 16) = false := by simp; omega
  constructor
  · intro taken ha
    have holds : condHolds k.flags (w.mod.toNat % 16) = true := by rwa [hmod, condHolds_iff]
    have hb := branchTarget_of_fetchAddress hc ha
    refine retires_of_effect (n := "B") rfl h ?_ (by rw [if_pos holds, hb])
    rw [named, firstTrap_cons_false, if_pos holds, hb]
    exact codeTraps_of_fetchAddress ha
  · intro past
    have fails : ¬ condHolds k.flags (w.mod.toNat % 16) = true := by rwa [hmod, condHolds_iff]
    refine retires_of_effect (n := "B") rfl h ?_ (by rw [if_neg fails])
    rw [named, firstTrap_cons_false, if_neg fails]
    rfl

/-- B with one of the codes 11 to 15. -/
theorem b_traps (h : Ready s { op := 0x32, useD := false, useA := false, useB := false, mask := 15 } false w k)
    (hm : 10 < w.mod.toNat) : TrapsWith (.b w) s w.ctx k 0x01 2 := by
  have hmax : w.mod.toNat ≤ 15 := mod_le_mask h.form
  have unnamed : decide (11 ≤ w.mod.toNat % 16) = true := by simp; omega
  exact trapsWith_of_runLocal (n := "B") rfl h (by rw [unnamed, firstTrap_cons_true])

end Branches

/-- Settles O5: each row's own checks decide between its effect and its trap, and a target in the code area does not wrap. -/
theorem comparesAndBranchesDoWhatTheirRowsSay : Obligations.ComparesAndBranchesDoWhatTheirRowsSay := by
  intro s w k hc
  refine ⟨?cmp, ?cmpi, b_retires hc, b_traps, ?call, ?ret, ?jr, ?callr⟩
  case cmp =>
    intro h
    rw [← flagsSub_eq_differenceFlags]
    exact retires_of_effect (n := "CMP") rfl h rfl rfl
  case cmpi =>
    intro h
    rw [← flagsSub_eq_differenceFlags]
    exact retires_of_effect (n := "CMPI") rfl h rfl rfl
  case call =>
    intro h ha
    have hb := branchTarget_of_fetchAddress hc ha
    exact retires_of_effect (n := "CALL") rfl h (by rw [hb]; exact codeTraps_of_fetchAddress ha) (by rw [hb])
  case ret => exact fun h ha => retires_of_effect (n := "RET") rfl h (codeTraps_of_fetchAddress ha) rfl
  case jr => exact fun h ha => retires_of_effect (n := "JR") rfl h (codeTraps_of_fetchAddress ha) rfl
  case callr => exact fun h ha => retires_of_effect (n := "CALLR") rfl h (codeTraps_of_fetchAddress ha) rfl

/-- Settles O8: MFS and MTS by the selection in `mod`, of which a form that is met leaves only 0 to 3. -/
theorem specialRegistersAreReadAndOnlyFlagsWritten : Obligations.SpecialRegistersAreReadAndOnlyFlagsWritten := by
  intro s w k
  refine ⟨fun h => retires_of_effect (n := "NOP") rfl h rfl rfl, fun h => ?mfs, fun h => ?mts⟩
  case mfs =>
    have reads : ∀ v, specialReg k w.ctx (w.mod.toNat % 4) = v →
        Retires (.mfs w) s w.ctx (stepped (setReg k w.d.toNat v) (k.pc + 8)) :=
      fun v hv => retires_of_effect (n := "MFS") rfl h rfl (by rw [hv])
    refine ⟨fun hm => ?pc, fun hm => ?cap, fun hm => ?ctx, fun hm => ?flags⟩ <;> exact reads _ (by rw [hm]; rfl)
  case mts =>
    have hmax : w.mod.toNat ≤ 3 := mod_le_mask h.form
    have hmod : w.mod.toNat % 4 = w.mod.toNat := Nat.mod_eq_of_lt (by omega)
    constructor
    · intro hm
      exact retires_of_effect (n := "MTS") rfl h (by simp [firstTrap, hm]) rfl
    · intro hm
      exact trapsWith_of_runLocal (n := "MTS") rfl h (by simp [firstTrap, hmod, hm])

end Sys2Proof.Proofs
end

section
/-! SUPPORT. What each function of the model leaves of the queue, the part, the level and the sanitize: one lemma per function, in
the order of the model's files. Used by: the proofs of the two invariants of every step. -/

namespace Sys2Proof.Machine
open Sys2Proof

/-- The part of the state that the two invariants speak of: the queue, the part, the level in force and the sanitize. -/
structure Fixed where
  queue : List Instr
  part : Part
  level : ProtLevel
  sanActive : Bool
  sanAction : Sanitizing

def State.fixed (s : State) : Fixed :=
  { queue := s.pending, part := s.part, level := s.sec.level, sanActive := s.sec.sanActive, sanAction := s.sec.sanAction }

/-- The next state, where there is one, has the same queue, part, level and sanitize. -/
def Kept (s : State) : Out → Prop
  | .next t => t.fixed = s.fixed
  | _ => True

/-- An update of other components. -/
theorem fixed_mk (s : State)
    (boot pins pwr plog tim thm fan lvl zns car fls mnt jrn nv nvNext bpm mem cmp fcd kry hif cpl svc free) :
    (State.mk s.part boot pins pwr plog tim thm fan lvl zns car fls mnt jrn nv nvNext bpm mem cmp fcd kry hif cpl s.sec svc free
      s.pending).fixed = s.fixed := by rfl

/-- An update of other fields of the security state. -/
theorem fixed_sec (s : State) (boot pins pwr plog tim thm fan lvl zns car fls mnt jrn nv nvNext bpm mem cmp fcd kry hif cpl)
    (sec : Security) (svc free) (hl : sec.level = s.sec.level) (ha : sec.sanActive = s.sec.sanActive)
    (hn : sec.sanAction = s.sec.sanAction) :
    (State.mk s.part boot pins pwr plog tim thm fan lvl zns car fls mnt jrn nv nvNext bpm mem cmp fcd kry hif cpl sec svc free
      s.pending).fixed = s.fixed := by
  simp only [State.fixed, hl, ha, hn]

theorem fixed_ite (c : Prop) [Decidable c] (s t : State) : (if c then s else t).fixed = if c then s.fixed else t.fixed :=
  apply_ite _ _ _ _

theorem fixed_foldl {α : Type} (f : State → α → State) (h : ∀ s a, (f s a).fixed = s.fixed) (l : List α) :
    ∀ s, (l.foldl f s).fixed = s.fixed := by
  induction l with
  | nil => exact fun _ => rfl
  | cons a l ih => exact fun s => (ih _).trans (h s a)

theorem kept_next (s t : State) : Kept s (.next t) ↔ t.fixed = s.fixed := Iff.rfl

theorem kept_refused (s : State) (r) : Kept s (.refused r) ↔ True := Iff.rfl

theorem kept_fault (s : State) (r) : Kept s (.fault r) ↔ True := Iff.rfl

theorem kept_cannot (s : State) (n : String) : Kept s (cannot n) ↔ True := Iff.rfl

theorem kept_ite (s : State) (c : Prop) [Decidable c] (a b : Out) :
    Kept s (if c then a else b) ↔ (c → Kept s a) ∧ (¬ c → Kept s b) := by split <;> simp [*]

theorem kept_arises (s t : State) (b : Bool) (n : String) : Kept s (arises b n t) ↔ (b = true → t.fixed = s.fixed) := by
  cases b <;> simp [arises, Kept, cannot]

theorem fixed_getD {o : Option State} {s : State} (h : ∀ t, o = some t → t.fixed = s.fixed) : (o.getD s).fixed = s.fixed := by
  cases o with
  | none => rfl
  | some t => exact h t rfl

theorem fixed_times (f : State → State) (h : ∀ s, (f s).fixed = s.fixed) :
    ∀ (n : Nat) (s : State), (times f n s).fixed = s.fixed
  | 0, _ => rfl
  | n + 1, s => (fixed_times f h n (f s)).trans (h s)

/-! ### Machine/Ops -/

theorem State.setZone_fixed (s : State) (z) (v) : (State.setZone s z v).fixed = s.fixed := by rfl

theorem State.setPgroup_fixed (s : State) (p) (v) : (State.setPgroup s p v).fixed = s.fixed := by rfl

theorem State.setSpace_fixed (s : State) (n) (v) : (State.setSpace s n v).fixed = s.fixed := by rfl

theorem State.setComp_fixed (s : State) (c) (v) : (State.setComp s c v).fixed = s.fixed := by rfl

theorem State.setCarriage_fixed (s : State) (n) (v) : (State.setCarriage s n v).fixed = s.fixed := by rfl

theorem State.setDie_fixed (s : State) (d) (v) : (State.setDie s d v).fixed = s.fixed := by rfl

theorem State.setBlock_fixed (s : State) (d) (b) (v) : (State.setBlock s d b v).fixed = s.fixed := by rfl

theorem State.setRow_fixed (s : State) (z) (r) (v) : (State.setRow s z r v).fixed = s.fixed := by rfl

theorem State.setCodecCtx_fixed (s : State) (c) (v) : (State.setCodecCtx s c v).fixed = s.fixed := by rfl

theorem State.setKctx_fixed (s : State) (c) (v) : (State.setKctx s c v).fixed = s.fixed := by rfl

theorem State.setKinst_fixed (s : State) (i) (v) : (State.setKinst s i v).fixed = s.fixed := by rfl

theorem State.setBuf_fixed (s : State) (h) (v) : (State.setBuf s h v).fixed = s.fixed := by rfl

theorem State.setOwner_fixed (s : State) (o) (v) : (State.setOwner s o v).fixed = s.fixed := by rfl

theorem State.setPort_fixed (s : State) (p) (v) : (State.setPort s p v).fixed = s.fixed := by
  simp only [State.setPort, fixed_sec, fixed_ite, ite_self]

theorem State.emit_fixed (s : State) (o) : (State.emit s o).fixed = s.fixed := by rfl

theorem State.advanceTo_fixed (s : State) (t) : (State.advanceTo s t).fixed = s.fixed := by rfl

theorem State.startClocks_fixed (s : State) (mask) : (State.startClocks s mask).fixed = s.fixed := by rfl

theorem State.startClock_fixed (s : State) (d) : (State.startClock s d).fixed = s.fixed := by rfl

theorem State.interrupt_fixed (s : State) (port) (vector) : (State.interrupt s port vector).fixed = s.fixed := by
  simp only [State.interrupt, fixed_sec, fixed_ite, ite_self, State.emit_fixed]

theorem State.toStewardRing_fixed (s : State) (e) : (State.toStewardRing s e).fixed = s.fixed := by
  unfold State.toStewardRing; repeat' split
  all_goals simp only [fixed_sec, State.interrupt_fixed]

theorem State.compIrq_fixed (s : State) (c) (bit) : (State.compIrq s c bit).fixed = s.fixed := by
  simp only [State.compIrq, fixed_ite, ite_self, State.setComp_fixed, State.interrupt_fixed]

theorem State.toCompRing_fixed (s : State) (e) : (State.toCompRing s e).fixed = s.fixed := by
  unfold State.toCompRing; repeat' split
  all_goals simp only [fixed_sec, State.compIrq_fixed]

theorem State.toReels_fixed (s : State) (e) : (State.toReels s e).fixed = s.fixed := by rfl

theorem State.raise_fixed (s : State) (code) (level) (source) (c) (p) :
    (State.raise s code level source c p).fixed = s.fixed := by
  simp only [State.raise, fixed_sec, fixed_ite, ite_self, State.startClock_fixed, State.emit_fixed, State.toReels_fixed,
    State.toCompRing_fixed, State.toStewardRing_fixed]

theorem State.event_fixed (s : State) (code) (level) (source) (c) (fields) :
    (State.event s code level source c fields).fixed = s.fixed := by
  simp only [State.event, State.raise_fixed]

theorem State.pushFlit_fixed (s : State) (p) : (State.pushFlit s p).fixed = s.fixed := by rfl

theorem State.sendOne_fixed (s : State) (p) : (State.sendOne s p).fixed = s.fixed := by
  unfold State.sendOne; repeat' split
  all_goals simp only [fixed_sec, State.emit_fixed, State.pushFlit_fixed]

theorem State.sendWaiting_fixed (s : State) (p) : (State.sendWaiting s p).fixed = s.fixed := by
  unfold State.sendWaiting; repeat' split
  all_goals simp only [fixed_foldl, implies_true, State.sendOne_fixed]

theorem State.sendOn_fixed (s : State) (p) (rank) (o) : (State.sendOn s p rank o).fixed = s.fixed := by
  simp only [State.sendOn, fixed_sec, State.sendWaiting_fixed]

theorem State.toPeer_fixed (s : State) (m) (rank) (o) : (State.toPeer s m rank o).fixed = s.fixed := by
  unfold State.toPeer; repeat' split
  all_goals simp only [State.sendOn_fixed, State.startClock_fixed, State.emit_fixed]

theorem State.chooseLeader_fixed (s : State) : (State.chooseLeader s).fixed = s.fixed := by
  simp only [State.chooseLeader]
  repeat' split
  all_goals simp only [fixed_sec, State.event_fixed]

theorem State.leadChanged_fixed (s : State) (may) (locked) : (State.leadChanged s may locked).fixed = s.fixed := by
  simp only [State.leadChanged, fixed_ite, ite_self, State.chooseLeader_fixed, State.emit_fixed]

theorem State.settleKey_fixed (s : State) : (State.settleKey s).fixed = s.fixed := by
  unfold State.settleKey; repeat' split
  all_goals simp only [fixed_sec, fixed_ite, ite_self]

theorem State.modQueues_fixed (s : State) (f : Queue → Bool) (g : Queue → Queue) :
    (State.modQueues s f g).fixed = s.fixed := by rfl

theorem State.cqPush_fixed (s : State) (h) : (State.cqPush s h).fixed = s.fixed := by rfl

theorem State.logError_fixed (s : State) (h) (e) : (State.logError s h e).fixed = s.fixed := by
  simp only [State.logError, fixed_sec, fixed_ite, ite_self, State.setPort_fixed]

theorem State.logProgram_fixed (s : State) (die) (block) (page) (status) :
    (State.logProgram s die block page status).fixed = s.fixed := by rfl

theorem State.complete_fixed (s : State) (h) (st) (dw0) (dw1) : (State.complete s h st dw0 dw1).fixed = s.fixed := by
  simp only [State.complete, fixed_ite, ite_self, State.emit_fixed, State.cqPush_fixed, State.startClock_fixed,
    State.interrupt_fixed, State.logError_fixed]

theorem State.fail_fixed (s : State) (h) (st) : (State.fail s h st).fixed = s.fixed := by
  simp only [State.fail, State.complete_fixed]

theorem State.done_fixed (s : State) (h) (dw0) : (State.done s h dw0).fixed = s.fixed := by
  simp only [State.done, State.complete_fixed]

theorem State.portAsync_fixed (s : State) (p) (bit) (type) (info) (page) :
    (State.portAsync s p bit type info page).fixed = s.fixed := by
  simp only [State.portAsync, fixed_ite]
  repeat' split
  all_goals simp only [State.done_fixed, State.setPort_fixed]

theorem State.compAsync_fixed (s : State) (c) (bit) (type) (info) (page) :
    (State.compAsync s c bit type info page).fixed = s.fixed := by
  unfold State.compAsync; repeat' split
  all_goals simp only [fixed_sec, State.done_fixed]

theorem State.warning_fixed (s : State) (bit) (info) : (State.warning s bit info).fixed = s.fixed := by
  simp only [State.warning, fixed_foldl, implies_true, State.compAsync_fixed, State.portAsync_fixed]

theorem State.postTicket_fixed (s : State) (i) (n) (t) : (State.postTicket s i n t).fixed = s.fixed := by
  unfold State.postTicket; repeat' split
  all_goals simp only [State.setKctx_fixed]

theorem State.answerOps_fixed (s : State) (f : UnitOp → Bool) (status) : (State.answerOps s f status).fixed = s.fixed := by
  simp only [State.answerOps, fixed_sec, fixed_foldl, implies_true, State.postTicket_fixed]

theorem State.settleOp_fixed (s : State) (i) (n) (t) : (State.settleOp s i n t).fixed = s.fixed := by
  simp only [State.settleOp, fixed_sec, State.postTicket_fixed]

theorem State.activity_fixed (s : State) : (State.activity s).fixed = s.fixed := by rfl

theorem State.draw_fixed (s : State) : (State.draw s).fixed = s.fixed := by rfl

theorem State.tick_fixed (s : State) : (State.tick s).fixed = s.fixed := by rfl

/-! ### Machine/Records -/

theorem State.layPage_fixed (s : State) (d) (b) (p) (data) (r) : (State.layPage s d b p data r).fixed = s.fixed := by
  simp only [State.layPage, fixed_sec]

theorem State.layPages_fixed (s : State) (d) (b) (p) (pages) : (State.layPages s d b p pages).fixed = s.fixed := by
  simp only [State.layPages, fixed_foldl, implies_true, State.layPage_fixed]

theorem State.copyPages_fixed (s : State) (d) (b) (e) (c) (p) (n) : (State.copyPages s d b e c p n).fixed = s.fixed := by
  simp only [State.copyPages, fixed_foldl, implies_true, State.layPage_fixed]

theorem State.eraseCells_fixed (s : State) (d) (b) : (State.eraseCells s d b).fixed = s.fixed := by rfl

theorem State.takeSeq_fixed (s : State) (n) : (State.takeSeq s n).2.fixed = s.fixed := by
  simp only [State.takeSeq, fixed_sec, fixed_ite, ite_self, State.event_fixed]

theorem State.sealPages_fixed (s : State) (d) (b) (p) (n) (flush) (fresh : Nat → Bool) :
    (State.sealPages s d b p n flush fresh).fixed = s.fixed := by
  simp only [State.sealPages, fixed_sec, State.takeSeq_fixed]

/-! ### Machine/Media -/

theorem State.spareEvents_fixed (s : State) (d) (before) : (State.spareEvents s d before).fixed = s.fixed := by
  simp only [State.spareEvents, fixed_ite, ite_self, State.warning_fixed, State.event_fixed]

theorem State.withSpares_fixed (s : State) (d) (f : State → State) (hf : ∀ t, (f t).fixed = t.fixed) :
    (State.withSpares s d f).fixed = s.fixed := by
  simp only [State.withSpares, State.spareEvents_fixed, hf]

theorem State.charge_fixed (s : State) (cluster) (c) (ns) : (State.charge s cluster c ns).fixed = s.fixed := by rfl

theorem State.chargeUnit_fixed (s : State) (cluster) (r) (k) (ns) : (State.chargeUnit s cluster r k ns).fixed = s.fixed := by
  unfold State.chargeUnit; repeat' split
  all_goals simp only [fixed_ite, fixed_foldl, ite_self, implies_true, State.charge_fixed]

theorem State.queueRefresh_fixed (s : State) (d) (b) : (State.queueRefresh s d b).fixed = s.fixed := by
  simp only [State.queueRefresh, fixed_sec, fixed_ite, ite_self]

theorem State.readLimit_fixed (s : State) (d) (b) : (State.readLimit s d b).fixed = s.fixed := by
  simp only [State.readLimit, fixed_ite, ite_self, State.queueRefresh_fixed]

theorem State.countReads_fixed (s : State) (d) (b) (n) : (State.countReads s d b n).fixed = s.fixed := by
  simp only [State.countReads, State.readLimit_fixed, State.setBlock_fixed]

theorem State.noteStart_fixed (s : State) (d) (e) : (State.noteStart s d e).fixed = s.fixed := by
  unfold State.noteStart; repeat' split
  all_goals simp only [State.countReads_fixed, State.setBlock_fixed, State.sealPages_fixed]

theorem State.addReadUs_fixed (s : State) (cluster) (us) : (State.addReadUs s cluster us).fixed = s.fixed := by rfl

theorem State.startEntry_fixed (s : State) (d) (e) : (State.startEntry s d e).fixed = s.fixed := by
  unfold State.startEntry; repeat' split
  all_goals simp only [State.setDie_fixed, State.startClock_fixed, State.noteStart_fixed, State.chargeUnit_fixed,
    State.charge_fixed, State.addReadUs_fixed]

theorem State.markCapWait_fixed (s : State) (d) (e) : (State.markCapWait s d e).fixed = s.fixed := by rfl

theorem State.refuseEntry_fixed (s : State) (d) (e) : (State.refuseEntry s d e).fixed = s.fixed := by rfl

theorem State.takeNext_fixed (d : Nat) : ∀ (n : Nat) (s : State), (State.takeNext n s d).fixed = s.fixed
  | 0, _ => rfl
  | n + 1, s => by
    unfold State.takeNext
    repeat' split
    · simp only [State.takeNext_fixed d n, State.refuseEntry_fixed]
    · simp only [State.startEntry_fixed]
    · simp only [State.markCapWait_fixed]
    · rfl

theorem State.dieNext_fixed (s : State) (d) : (State.dieNext s d).fixed = s.fixed := by
  simp only [State.dieNext, fixed_ite, ite_self, State.takeNext_fixed]

theorem State.enqueue_fixed (s : State) (d) (e) : (State.enqueue s d e).fixed = s.fixed := by
  simp only [State.enqueue, State.dieNext_fixed, State.startClock_fixed, State.setDie_fixed]

theorem State.unqueue_fixed (s : State) (f : QEntry → Bool) : (State.unqueue s f).fixed = s.fixed := by rfl

theorem State.suspend_fixed (s : State) (d) : (State.suspend s d).fixed = s.fixed := by
  simp only [State.suspend]
  repeat' split
  all_goals simp only [State.setDie_fixed, State.event_fixed]

theorem State.resume_fixed (s : State) (d) : (State.resume s d).fixed = s.fixed := by
  simp only [State.resume]
  repeat' split
  all_goals simp only [State.setDie_fixed]

theorem State.endOp_fixed (s : State) (d) : (State.endOp s d).fixed = s.fixed := by
  simp only [State.endOp, State.dieNext_fixed, State.setDie_fixed]

theorem State.deferErase_fixed (s : State) (d) (b) (next) : (State.deferErase s d b next).fixed = s.fixed := by
  simp only [State.deferErase, fixed_ite, ite_self, State.setDie_fixed, State.setBlock_fixed]

theorem State.takeSpare_fixed {s : State} {d} {role} {use} {i t} (h : State.takeSpare s d role use = some (i, t)) :
    t.fixed = s.fixed := by
  unfold State.takeSpare at h
  repeat' split at h
  all_goals cases h
  exact State.withSpares_fixed _ _ _ fun u => State.setBlock_fixed u _ _ _

theorem State.retire_fixed (s : State) (d) (b) (cause) : (State.retire s d b cause).fixed = s.fixed := by
  unfold State.retire
  extract_lets k v s1 d1 s2 s3 repl
  have h3 : s3.fixed = s.fixed := by simp only [s3, s2, s1, State.event_fixed, State.setDie_fixed, State.withSpares_fixed,
    State.setBlock_fixed, implies_true]
  have hr : ∀ u, (repl u).fixed = s.fixed := fun u => by
    simp only [repl]
    split
    · next h =>
      have ht := (State.takeSpare_fixed h).trans h3
      split <;> simp only [fixed_mk, ht]
    · exact h3
  clear_value s3 repl
  repeat' split
  all_goals simp only [h3, hr]

theorem State.setLandRow_fixed (s : State) (r) (v) : (State.setLandRow s r v).fixed = s.fixed := by rfl

theorem State.pinCheck_fixed (s : State) : (State.pinCheck s).fixed = s.fixed := by
  simp only [State.pinCheck, fixed_sec, fixed_ite, ite_self, State.warning_fixed, State.event_fixed]

theorem State.freshLanding_fixed {s : State} {d} {reserve} {i t} (h : State.freshLanding s d reserve = some (i, t)) :
    t.fixed = s.fixed := by
  unfold State.freshLanding at h
  extract_lets at h
  repeat' split at h
  all_goals cases h
  all_goals simp +zetaDelta only [State.setDie_fixed, State.setBlock_fixed]

theorem State.landingPlace_fixed {s : State} {d} {reserve} {i j t} (h : State.landingPlace s d reserve = some (i, j, t)) :
    t.fixed = s.fixed := by
  unfold State.landingPlace at h
  extract_lets opened at h
  have ho : ∀ b u, opened = some (b, u) → u.fixed = s.fixed := fun b u e => by
    simp only [opened] at e
    split at e
    · cases e; rfl
    · exact State.freshLanding_fixed e
  clear_value opened
  split at h
  · cases h
  next b u =>
    have hu := ho b u rfl
    extract_lets pg at h
    clear_value pg
    split at h <;> cases h <;> simp only [State.setDie_fixed, State.setBlock_fixed, hu]

/-! ### Machine/PoolOps -/

theorem State.setPool_fixed (s : State) (r) (v) : (State.setPool s r v).fixed = s.fixed := by
  unfold State.setPool; repeat' split
  all_goals simp only [fixed_sec]

theorem State.levelEvent_fixed (s : State) (r) (lvl) (entered) : (State.levelEvent s r lvl entered).fixed = s.fixed := by
  simp only [State.levelEvent, State.event_fixed]

theorem State.levels_fixed (s : State) (r) : (State.levels s r).fixed = s.fixed := by
  simp only [State.levels, fixed_ite, fixed_foldl, ite_self, implies_true, State.setPool_fixed, State.levelEvent_fixed]

theorem State.discardEntry_fixed (s : State) (r) : (State.discardEntry s r).fixed = s.fixed := by
  simp only [State.discardEntry, fixed_ite, ite_self, State.levels_fixed, State.setPool_fixed]

theorem State.takeSeg_fixed (s : State) (o) : (State.takeSeg s o).2.fixed = s.fixed := by
  simp only [State.takeSeg, fixed_sec, State.levels_fixed, State.startClocks_fixed]

theorem State.refillFloors_fixed (s : State) : (State.refillFloors s).fixed = s.fixed := by
  unfold State.refillFloors; repeat' split
  all_goals simp only [State.setComp_fixed]

theorem State.giveSeg_fixed (s : State) (i) (gone) : (State.giveSeg s i gone).fixed = s.fixed := by
  simp only [State.giveSeg, fixed_sec, State.levels_fixed, State.refillFloors_fixed]

theorem State.leakCheck_fixed (s : State) (o) : (State.leakCheck s o).fixed = s.fixed := by
  unfold State.leakCheck; repeat' split
  all_goals simp only [State.setOwner_fixed]

/-! ### Machine/Operands -/

theorem State.writeBuf_fixed (s : State) (h) (a) (bs) : (State.writeBuf s h a bs).fixed = s.fixed := by rfl

theorem State.spaceWrite_fixed (s : State) (c) (sp) (a) (h) (bs) : (State.spaceWrite s c sp a h bs).fixed = s.fixed := by
  unfold State.spaceWrite; repeat' split
  all_goals simp only [fixed_sec, State.writeBuf_fixed, State.setKctx_fixed]

/-! ### Machine/BufOps -/

theorem State.freeBuf_fixed (s : State) (h) : (State.freeBuf s h).fixed = s.fixed := by
  unfold State.freeBuf; repeat' split
  all_goals simp only [fixed_sec, fixed_foldl, implies_true, State.setPool_fixed, State.setBuf_fixed, State.leakCheck_fixed,
    State.levels_fixed]

theorem State.leaveBuf_fixed (s : State) (h) (o) : (State.leaveBuf s h o).fixed = s.fixed := by
  unfold State.leaveBuf; repeat' split
  all_goals simp only [fixed_ite, ite_self, State.setBuf_fixed, State.leakCheck_fixed, State.freeBuf_fixed]

theorem State.dropShare_fixed (s : State) (h) (o) : (State.dropShare s h o).2.fixed = s.fixed := by
  unfold State.dropShare; repeat' split
  all_goals simp only [State.leaveBuf_fixed]

theorem State.freeShare_fixed (s : State) (h) (o) : (State.freeShare s h o).2.fixed = s.fixed := by
  unfold State.freeShare; repeat' split
  all_goals simp only [State.leaveBuf_fixed, State.setBuf_fixed]

theorem State.freeCompBufs_fixed (s : State) (n) : (State.freeCompBufs s n).fixed = s.fixed := by
  simp only [State.freeCompBufs, fixed_foldl, implies_true, State.freeBuf_fixed]

theorem State.reclaim_fixed (s : State) (o) : (State.reclaim s o).fixed = s.fixed := by
  unfold State.reclaim
  refine fixed_foldl _ (fun t e => ?_) _ _
  repeat' split
  all_goals simp only [State.freeShare_fixed, State.leaveBuf_fixed]

theorem State.alloc_fixed (s : State) (owner) (size) (domain) (part) (cls) :
    (State.alloc s owner size domain part cls).2.2.fixed = s.fixed := by
  simp only [State.alloc]
  repeat' split
  all_goals simp only [fixed_sec, State.setBuf_fixed, State.setPool_fixed, State.levels_fixed]

/-! ### Machine/CodecOps -/

theorem State.dropJob_fixed (s : State) (i) : (State.dropJob s i).fixed = s.fixed := by
  unfold State.dropJob; repeat' split
  all_goals simp only [fixed_sec, State.settleKey_fixed, State.setCarriage_fixed]

theorem State.giveLane_fixed (s : State) (i) (l) : (State.giveLane s i l).fixed = s.fixed := by rfl

theorem State.setCodecState_fixed (s : State) (c) (v) (coded) : (State.setCodecState s c v coded).fixed = s.fixed := by rfl

theorem State.codecMove_fixed {s : State} {i} {t} (h : State.codecMove s i = some t) : t.fixed = s.fixed := by
  have lane : ∀ {o : Option Nat}, o.map (s.giveLane i) = some t → t.fixed = s.fixed := fun e => by
    obtain ⟨l, -, rfl⟩ := Option.map_eq_some_iff.1 e
    exact State.giveLane_fixed s i l
  unfold State.codecMove at h
  repeat' split at h
  all_goals try exact lane h
  all_goals cases h
  all_goals simp only [State.fail_fixed, State.done_fixed, State.emit_fixed, State.setCodecState_fixed, State.dropJob_fixed]

theorem State.codecMoves_fixed : ∀ (n : Nat) (s : State), (State.codecMoves n s).fixed = s.fixed
  | 0, _ => rfl
  | n + 1, s => by
    unfold State.codecMoves
    split
    · next t h =>
      obtain ⟨i, -, hi⟩ := List.exists_of_findSome?_eq_some h
      rw [State.codecMoves_fixed n, State.codecMove_fixed hi]
    · rfl

theorem State.settleCodec_fixed (s : State) : (State.settleCodec s).fixed = s.fixed := by
  simp only [State.settleCodec, State.codecMoves_fixed]

theorem State.codecEnd_fixed (s : State) (v) : (State.codecEnd s v).fixed = s.fixed := by
  unfold State.codecEnd; repeat' split
  all_goals simp only [fixed_sec, State.setCodecState_fixed]

theorem State.codecLeft_fixed (s : State) (v) : (State.codecLeft s v).fixed = s.fixed := by
  unfold State.codecLeft; repeat' split
  all_goals simp only [State.settleCodec_fixed, State.codecEnd_fixed, State.dropJob_fixed]

/-! ### Machine/StoreOps -/

theorem State.loseReplica_fixed (s : State) (i) (r) : (State.loseReplica s i r).fixed = s.fixed := by
  simp only [State.loseReplica, fixed_sec, fixed_ite, ite_self, State.event_fixed]

theorem State.versionErased_fixed (s : State) (d) (b) : (State.versionErased s d b).fixed = s.fixed := by
  unfold State.versionErased; repeat' split
  all_goals simp only [fixed_sec]

theorem State.setStoreHead_fixed (s : State) (w) : (State.setStoreHead s w).fixed = s.fixed := by rfl

theorem State.popStore_fixed (s : State) : (State.popStore s).fixed = s.fixed := by rfl

theorem State.answerCmd_fixed (s : State) (h) (st) : (State.answerCmd s h st).fixed = s.fixed := by
  unfold State.answerCmd; repeat' split
  all_goals simp only [State.complete_fixed]

theorem State.storeIssue_fixed (s : State) (w) : (State.storeIssue s w).fixed = s.fixed := by
  simp only [State.storeIssue, State.enqueue_fixed, State.layPages_fixed, State.setStoreHead_fixed]

theorem State.storeSpare_fixed (s : State) (r) (i) : (State.storeSpare s r i).fixed = s.fixed := by
  simp only [State.storeSpare, fixed_ite]
  repeat' split
  all_goals simp only [fixed_sec]
  all_goals exact State.takeSpare_fixed ‹_›

theorem State.storeGo_fixed {s0 : State} {w} {t} (h : State.storeGo s0 w = some t) : t.fixed = s0.fixed := by
  unfold State.storeGo at h
  extract_lets at h
  repeat' split at h
  all_goals cases h
  all_goals simp +zetaDelta only [fixed_ite, fixed_foldl, ite_self, implies_true, State.storeSpare_fixed,
    State.storeIssue_fixed, State.setStoreHead_fixed, State.enqueue_fixed]

theorem State.storeEnd_fixed (s : State) (w) : (State.storeEnd s w).fixed = s.fixed := by
  simp only [State.storeEnd, State.answerCmd_fixed, State.event_fixed, State.popStore_fixed]

theorem State.storeRun_fixed : ∀ (n : Nat) (s : State), (State.storeRun n s).fixed = s.fixed
  | 0, _ => rfl
  | n + 1, s => by
    unfold State.storeRun
    repeat' split
    all_goals try simp only [State.storeRun_fixed n, fixed_mk, State.answerCmd_fixed, State.popStore_fixed,
      State.storeEnd_fixed]
    all_goals exact State.storeGo_fixed ‹_›

theorem State.storeAdmit_fixed (s : State) (w) : (State.storeAdmit s w).fixed = s.fixed := by
  simp only [State.storeAdmit, fixed_sec, fixed_ite, ite_self, State.storeRun_fixed]

theorem State.storeSkips_fixed (s : State) (w) (a) (b) : (State.storeSkips s w a b).fixed = s.fixed := by
  simp only [State.storeSkips, fixed_ite, fixed_foldl, ite_self, implies_true, State.loseReplica_fixed]

theorem State.storeNext_fixed (s0 : State) (w) : (State.storeNext s0 w).fixed = s0.fixed := by
  unfold State.storeNext
  extract_lets s1
  have h1 : s1.fixed = s0.fixed := by
    simp only [s1]
    repeat' split
    all_goals simp only [State.storeSkips_fixed]
  clear_value s1
  split
  · next h => exact (State.storeGo_fixed h).trans h1
  · exact (State.storeRun_fixed _ _).trans ((State.storeEnd_fixed _ _).trans h1)

theorem State.storeWake_fixed (s : State) : (State.storeWake s).fixed = s.fixed := by
  unfold State.storeWake; repeat' split
  all_goals simp only [State.storeNext_fixed]

theorem State.storeErased_fixed (s : State) : (State.storeErased s).fixed = s.fixed := by
  unfold State.storeErased; repeat' split
  all_goals simp only [State.storeIssue_fixed]

theorem State.storeLive_fixed (s : State) (w) : (State.storeLive s w).fixed = s.fixed := by rfl

theorem State.storeProgrammed_fixed (s : State) : (State.storeProgrammed s).fixed = s.fixed := by
  unfold State.storeProgrammed; repeat' split
  all_goals simp only [State.storeIssue_fixed, State.storeNext_fixed, State.storeLive_fixed]

theorem State.storeFails_fixed (s : State) : (State.storeFails s).fixed = s.fixed := by
  unfold State.storeFails; repeat' split
  all_goals simp only [State.storeNext_fixed, State.loseReplica_fixed]

/-! ### Machine/Pages -/

theorem State.layLanding_fixed (s : State) (n) (c) (us) (pages) (d) (b) (pg) :
    (State.layLanding s n c us pages d b pg).fixed = s.fixed := by
  simp only [State.layLanding, State.layPages_fixed]

theorem State.layRow_fixed (s : State) (z) (r) (k) (d) (b) : (State.layRow s z r k d b).fixed = s.fixed := by
  simp only [State.layRow, State.layPages_fixed]

theorem State.layConv_fixed (s : State) (f) (k) (d) (b) : (State.layConv s f k d b).fixed = s.fixed := by
  simp only [State.layConv, State.layPages_fixed]

theorem State.programNow_fixed (s : State) (d) (b) (pages) (flush) : (State.programNow s d b pages flush).fixed = s.fixed := by
  simp only [State.programNow, State.noteStart_fixed, State.layPages_fixed]

theorem State.journalBlocks_fixed (s : State) : (State.journalBlocks s).fixed = s.fixed := by
  simp only [State.journalBlocks, fixed_sec, fixed_ite, ite_self]

theorem State.journalQueue_fixed (s : State) : (State.journalQueue s).fixed = s.fixed := by
  simp only [State.journalQueue, fixed_foldl, implies_true, State.journalBlocks_fixed, State.enqueue_fixed,
    State.layPages_fixed]

theorem State.journalWrite_fixed (s : State) (flush) : (State.journalWrite s flush).fixed = s.fixed := by
  simp only [State.journalWrite, fixed_foldl, implies_true, State.journalBlocks_fixed, State.programNow_fixed]

theorem State.journalProgrammed_fixed (s : State) : (State.journalProgrammed s).fixed = s.fixed := by
  simp only [State.journalProgrammed, fixed_sec, fixed_ite, ite_self]

theorem State.ckptBlocks_fixed (s : State) : (State.ckptBlocks s).fixed = s.fixed := by
  simp only [State.ckptBlocks, fixed_sec, fixed_ite, ite_self]

theorem State.ckptStripe_fixed (s : State) : (State.ckptStripe s).fixed = s.fixed := by
  simp only [State.ckptStripe, fixed_sec, fixed_foldl, implies_true, State.ckptBlocks_fixed, State.enqueue_fixed,
    State.layPages_fixed]

theorem State.ckptProgrammed_fixed (s : State) : (State.ckptProgrammed s).fixed = s.fixed := by
  simp only [State.ckptProgrammed, fixed_ite, ite_self, State.ckptStripe_fixed]

theorem State.freeSystem_fixed (s : State) (l) : (State.freeSystem s l).fixed = s.fixed := by
  simp only [State.freeSystem, fixed_foldl, implies_true, State.deferErase_fixed]

theorem State.writeMarker_fixed (s : State) (kind) : (State.writeMarker s kind).fixed = s.fixed := by
  simp only [State.writeMarker, fixed_sec, fixed_foldl, implies_true, State.programNow_fixed]

theorem State.eraseMarker_fixed (s : State) : (State.eraseMarker s).fixed = s.fixed := by
  simp only [State.eraseMarker, fixed_sec, State.freeSystem_fixed]

theorem State.rewriteSystem_fixed (s : State) (d) (b) (e) : (State.rewriteSystem s d b e).fixed = s.fixed := by
  simp only [State.rewriteSystem]
  repeat' split
  all_goals simp only [fixed_sec, fixed_foldl, implies_true, State.enqueue_fixed, State.copyPages_fixed]

/-! ### Machine/Stage -/

theorem State.tellPeer_fixed (s : State) (z) (cls) (act) (wp) : (State.tellPeer s z cls act wp).fixed = s.fixed := by
  unfold State.tellPeer; repeat' split
  all_goals simp only [State.toPeer_fixed]

theorem State.assignBlock_fixed (s : State) (z) (d) : (State.assignBlock s z d).2.fixed = s.fixed := by
  simp only [State.assignBlock]
  repeat' split
  all_goals simp only [State.setBlock_fixed, State.setDie_fixed]
  all_goals exact State.takeSpare_fixed ‹_›

theorem State.assignMembers_fixed (s : State) (z) : (State.assignMembers s z).2.fixed = s.fixed := by
  unfold State.assignMembers
  have key : ∀ (l : List Nat) (acc : List (Nat × Nat) × State), (l.foldl (fun acc d =>
      let (b, t) := acc.2.assignBlock z d
      (acc.1 ++ [(d, b)], t)) acc).2.fixed = acc.2.fixed := by
    intro l
    induction l with
    | nil => exact fun _ => rfl
    | cons d l ih => exact fun acc => (ih _).trans (State.assignBlock_fixed _ _ _)
  exact key _ _

theorem State.leaveEmpty_fixed (s : State) (z) (st) : (State.leaveEmpty s z st).fixed = s.fixed := by
  simp only [State.leaveEmpty, State.assignMembers_fixed, State.setZone_fixed]

theorem State.journal_fixed (s : State) : (State.journal s).fixed = s.fixed := by
  simp only [State.journal, fixed_sec, State.takeSeq_fixed]

theorem State.dropData_fixed (s : State) (z) (u) : (State.dropData s z u).fixed = s.fixed := by rfl

theorem State.dropPages_fixed (s : State) (f : Nat → Bool) : (State.dropPages s f).fixed = s.fixed := by rfl

theorem State.sweepLanding_fixed (s : State) : (State.sweepLanding s).fixed = s.fixed := by
  simp only [State.sweepLanding, fixed_sec, fixed_foldl, implies_true, State.deferErase_fixed]

theorem State.makeUnit_fixed {s : State} {n} {c} {pages} {a} {purpose : Nat → Purpose} {t}
    (h : State.makeUnit s n c pages a purpose = some t) : t.fixed = s.fixed := by
  unfold State.makeUnit at h
  repeat' split at h
  all_goals cases h
  all_goals simp only [State.setLandRow_fixed, State.enqueue_fixed, State.layLanding_fixed]
  all_goals exact State.landingPlace_fixed ‹_›

theorem State.rowFor_fixed {s : State} {a} {ok : Nat → LandRow → Bool} {fits : Nat → Bool} {i t}
    (h : State.rowFor s a ok fits = some (i, t)) : t.fixed = s.fixed := by
  simp only [State.rowFor] at h
  repeat' split at h
  all_goals cases h
  all_goals simp +zetaDelta only [fixed_sec, State.setLandRow_fixed]

theorem State.rowForPage_fixed {s : State} {a} {i t} (h : State.rowForPage s a = some (i, t)) : t.fixed = s.fixed := by
  exact State.rowFor_fixed h

theorem State.addUnit_fixed {s : State} {n} {c} {pages} {a} {purpose : Nat → Purpose} {t}
    (h : State.addUnit s n c pages a purpose = some t) : t.fixed = s.fixed := by
  unfold State.addUnit at h
  repeat' split at h
  · cases h
  · cases h; exact State.makeUnit_fixed ‹_›
  · exact (State.makeUnit_fixed h).trans (State.makeUnit_fixed ‹_›)
  · cases h; exact State.makeUnit_fixed ‹_›

theorem State.fillUnit_fixed {s : State} {n} {a} {purpose : Nat → Nat → Purpose} {t} (h : State.fillUnit s n a purpose = some t) :
    t.fixed = s.fixed := by
  unfold State.fillUnit at h
  split at h
  · cases h
  · exact (State.addUnit_fixed h).trans (State.setLandRow_fixed _ _ _)

theorem State.placePage_fixed {s : State} {p} {a} {purpose : Nat → Nat → Purpose} {t}
    (h : State.placePage s p a purpose = some t) : t.fixed = s.fixed := by
  unfold State.placePage at h
  split at h
  · cases h
  next n u hu =>
    split at h
    · cases h
    next r _ =>
      have h1 := (State.setLandRow_fixed u n (some { r with front := r.front ++ [p] })).trans (State.rowForPage_fixed hu)
      split at h
      · exact (State.fillUnit_fixed h).trans h1
      · cases h; exact h1

theorem State.placePages_fixed {s : State} {ps} {a} {purpose : Nat → Nat → Purpose} {t}
    (h : State.placePages s ps a purpose = some t) : t.fixed = s.fixed := by
  have go : ∀ (l : List (Nat × Nat)) (acc : Option State), (∀ u, acc = some u → u.fixed = s.fixed) → ∀ t,
      l.foldl (fun acc p => match acc with | some t => t.placePage p a purpose | none => none) acc = some t → t.fixed = s.fixed
        := by
    intro l
    induction l with
    | nil => exact fun acc hacc t e => hacc t e
    | cons p l ih =>
      refine fun acc hacc t e => ih _ (fun u hu => ?_) t e
      cases acc with
      | none => cases hu
      | some v => exact (State.placePage_fixed hu).trans (hacc v rfl)
  exact go ps (some s) (fun u e => by cases e; rfl) t h

theorem State.placeSome_fixed (s : State) (ps) (a) (purpose : Nat → Nat → Purpose) :
    (State.placeSome s ps a purpose).fixed = s.fixed := fixed_foldl _ (fun _ _ => fixed_getD fun _ h => State.placePage_fixed
      h) _ _

theorem State.closeFront_fixed {s : State} {a} {purpose : Nat → Nat → Purpose} {t} (h : State.closeFront s a purpose = some t) :
    t.fixed = s.fixed := by
  unfold State.closeFront at h
  split at h
  · exact State.fillUnit_fixed h
  · cases h; rfl

theorem State.placeUnit_fixed {s : State} {c} {pages} {a} {t} (h : State.placeUnit s c pages a = some t) :
    t.fixed = s.fixed := by
  unfold State.placeUnit at h
  split at h
  next hu => exact (State.addUnit_fixed h).trans (State.rowFor_fixed hu)
  next => cases h

theorem State.closeLandRow_fixed (s : State) (n) : (State.closeLandRow s n).fixed = s.fixed := by
  unfold State.closeLandRow
  extract_lets a s1
  have h1 : s1.fixed = s.fixed := by
    simp only [s1]
    repeat' split
    · rfl
    · exact fixed_getD fun _ h => State.fillUnit_fixed h
    · rfl
  clear_value s1
  repeat' split
  · exact h1
  · exact (fixed_getD fun _ h => State.makeUnit_fixed h).trans h1
  · exact h1

theorem State.shadow_fixed (s : State) (us) (flush) :
    (State.shadow s us flush).fixed = s.fixed := (fixed_getD fun _ h => State.closeFront_fixed h).trans (State.placeSome_fixed
      _ _ _ _)

theorem State.shadowAll_fixed (s : State) (flush) : (State.shadowAll s flush).fixed = s.fixed := by
  simp only [State.shadowAll, State.shadow_fixed]

theorem State.shadowExcess_fixed (s : State) : (State.shadowExcess s).fixed = s.fixed := by
  simp only [State.shadowExcess, fixed_ite, ite_self, State.shadow_fixed]

theorem State.setLimit_fixed (s : State) (mib) : (State.setLimit s mib).fixed = s.fixed := by
  simp only [State.setLimit, fixed_sec, fixed_ite, ite_self, State.warning_fixed, State.event_fixed, State.shadowExcess_fixed]

theorem State.relimit_fixed (s : State) : (State.relimit s).fixed = s.fixed := by
  simp only [State.relimit, fixed_ite, ite_self, State.setLimit_fixed]

theorem State.reserveCheck_fixed (s : State) : (State.reserveCheck s).fixed = s.fixed := by
  simp only [State.reserveCheck, fixed_ite, ite_self, State.relimit_fixed]

theorem State.issueRow_fixed (s : State) (z) (r) (cls) (purpose : Nat → Purpose) :
    (State.issueRow s z r cls purpose).fixed = s.fixed := by
  unfold State.issueRow
  refine (fixed_foldl _ (fun t k => ?_) _ _).trans (State.setRow_fixed _ _ _ _)
  dsimp only
  repeat' split
  all_goals simp only [State.enqueue_fixed, State.layRow_fixed]

theorem State.issueDirect_fixed (s : State) (z) (cls) : (State.issueDirect s z cls).fixed = s.fixed := by
  simp only [State.issueDirect, fixed_ite, fixed_foldl, ite_self, implies_true, State.issueRow_fixed]

theorem State.markFoldable_fixed (s : State) (z) (before) : (State.markFoldable s z before).fixed = s.fixed := by
  simp only [State.markFoldable, fixed_ite, fixed_foldl, ite_self, implies_true, State.setRow_fixed]

theorem State.releaseActive_fixed (s : State) (z) : (State.releaseActive s z).fixed = s.fixed := by rfl

theorem State.releaseBlocks_fixed (s : State) (z) : (State.releaseBlocks s z).fixed = s.fixed := by
  simp only [State.releaseBlocks, fixed_ite, fixed_foldl, ite_self, implies_true, State.deferErase_fixed]

theorem State.returnBlocks_fixed (s : State) (z) : (State.returnBlocks s z).fixed = s.fixed := by
  simp only [State.returnBlocks, fixed_ite, fixed_foldl, ite_self, implies_true, State.setBlock_fixed]

theorem State.dropRows_fixed (s : State) (z) : (State.dropRows s z).fixed = s.fixed := by
  simp only [State.dropRows, fixed_sec, fixed_foldl, implies_true, State.unqueue_fixed, State.dropPages_fixed,
    State.deferErase_fixed, State.pinCheck_fixed, State.sweepLanding_fixed]

theorem State.resetZone_fixed (s : State) (z) : (State.resetZone s z).fixed = s.fixed := by
  simp only [State.resetZone, State.journal_fixed, State.setZone_fixed, State.dropData_fixed, State.dropRows_fixed,
    State.releaseBlocks_fixed]

theorem State.emptyZone_fixed (s : State) (z) : (State.emptyZone s z).fixed = s.fixed := by
  simp only [State.emptyZone, State.journal_fixed, State.setZone_fixed, State.dropData_fixed, State.dropRows_fixed,
    State.returnBlocks_fixed]

theorem State.setFlight_fixed (s : State) (v) : (State.setFlight s v).fixed = s.fixed := by rfl

theorem State.setSeg_fixed (s : State) (f) (j) (g : Seg → Seg) : (State.setSeg s f j g).fixed = s.fixed := by
  unfold State.setSeg; repeat' split
  all_goals simp only [State.setFlight_fixed]

theorem State.count_fixed (s : State) (c) (read) (written) : (State.count s c read written).fixed = s.fixed := by rfl

theorem State.removeFlight_fixed (s : State) (v) : (State.removeFlight s v).fixed = s.fixed := by
  simp only [State.removeFlight, fixed_sec, fixed_ite, ite_self, State.codecLeft_fixed, State.settleKey_fixed,
    State.setCarriage_fixed]

theorem State.answerPeer_fixed (s : State) (v) : (State.answerPeer s v).fixed = s.fixed := by
  unfold State.answerPeer; repeat' split
  all_goals simp only [State.toPeer_fixed]

theorem State.postFlight_fixed (s : State) (v) : (State.postFlight s v).fixed = s.fixed := by
  unfold State.postFlight; repeat' split
  all_goals simp only [State.answerPeer_fixed, State.done_fixed, State.answerOps_fixed, State.complete_fixed, State.emit_fixed,
    State.fail_fixed]

theorem State.endWrite_fixed (s : State) (v) : (State.endWrite s v).fixed = s.fixed := by
  unfold State.endWrite; repeat' split
  all_goals simp only [fixed_ite, ite_self, State.postFlight_fixed, State.removeFlight_fixed, State.count_fixed,
    State.releaseActive_fixed, State.dropPages_fixed]

theorem State.ackUnits_fixed (s : State) (z) (a) (b) (cls) : (State.ackUnits s z a b cls).fixed = s.fixed := by
  simp only [State.ackUnits, State.issueDirect_fixed, State.setZone_fixed]

theorem State.dropSegs_fixed (s : State) (v) (j) : (State.dropSegs s v j).fixed = s.fixed := by
  unfold State.dropSegs
  extract_lets held kept s0 c0 s1 s2
  have h0 : s0.fixed = s.fixed := by
    refine fixed_foldl _ (fun t x => ?_) _ _
    split <;> simp only [State.giveSeg_fixed]
  have h1 : s1.fixed = s.fixed := by
    simp only [s1, fixed_foldl, State.giveSeg_fixed, fixed_mk, implies_true, h0]
  clear_value s0 s1
  simp only [s2, State.setFlight_fixed, State.unqueue_fixed, h1]

theorem State.rollBack_fixed (s : State) (z) (u) : (State.rollBack s z u).fixed = s.fixed := by rfl

theorem State.failWrite_fixed (s : State) (v) (j) (u) (st) : (State.failWrite s v j u st).fixed = s.fixed := by
  unfold State.failWrite
  split
  · exact State.dropSegs_fixed _ _ _
  · extract_lets s1
    refine (fixed_foldl _ (fun t w => ?_) _ _).trans (by simp only [s1, State.rollBack_fixed, State.dropSegs_fixed])
    dsimp only
    split <;> simp only [State.endWrite_fixed, State.dropSegs_fixed]

theorem State.settleReady_fixed : ∀ (n : Nat) (s : State) (z : Option Nat), (State.settleReady n s z).fixed = s.fixed
  | 0, _, _ => rfl
  | n + 1, s, z => by
    unfold State.settleReady
    split
    · simp only [State.settleReady_fixed n, State.endWrite_fixed]
    · rfl

theorem State.settleWrites_fixed (s : State) (zone) : (State.settleWrites s zone).fixed = s.fixed := by
  simp only [State.settleWrites, State.settleReady_fixed]

theorem State.settleWrite_fixed (s : State) (f) : (State.settleWrite s f).fixed = s.fixed := by
  unfold State.settleWrite; repeat' split
  all_goals simp only [State.settleWrites_fixed]

theorem State.settleZone_fixed (s : State) (z) : (State.settleZone s z).fixed = s.fixed := by
  unfold State.settleZone; repeat' split
  all_goals simp only [State.postFlight_fixed, State.removeFlight_fixed, State.resetZone_fixed, State.journal_fixed,
    State.releaseActive_fixed, State.setZone_fixed]

theorem State.settleZones_fixed (s : State) (z) : (State.settleZones s z).fixed = s.fixed := by
  simp only [State.settleZones, State.settleZone_fixed]

theorem State.convLeave_fixed (s : State) (u) : (State.convLeave s u).fixed = s.fixed := by
  simp only [State.convLeave, fixed_sec, fixed_ite, ite_self]

theorem State.convUnland_fixed (s : State) (u) : (State.convUnland s u).fixed = s.fixed := by rfl

theorem State.convUnmap_fixed (s : State) (u) : (State.convUnmap s u).fixed = s.fixed := by
  simp only [State.convUnmap, fixed_sec, State.convUnland_fixed, State.convLeave_fixed]

theorem State.convLand_fixed (s : State) (u) : (State.convLand s u).fixed = s.fixed := by
  simp only [State.convLand, fixed_sec, State.convUnland_fixed, State.convLeave_fixed]

theorem State.adoptPages_fixed (s : State) (f) (a) (b) : (State.adoptPages s f a b).fixed = s.fixed := by rfl

theorem State.convCommit_fixed (s : State) (v) (g) : (State.convCommit s v g).fixed = s.fixed := by
  simp only [State.convCommit, fixed_sec, fixed_foldl, implies_true, State.convLand_fixed, State.adoptPages_fixed]

theorem State.convMove_fixed (s : State) (k) (m) : (State.convMove s k m).fixed = s.fixed := by
  simp only [State.convMove, fixed_sec, fixed_ite, ite_self, State.convUnland_fixed, State.convLeave_fixed]

theorem State.convSwitch_fixed (s : State) (f) : (State.convSwitch s f).fixed = s.fixed := by
  simp only [State.convSwitch, fixed_sec, fixed_foldl, implies_true, State.sweepLanding_fixed, State.convMove_fixed]

theorem State.convProgrammed_fixed (s : State) (row) (k) : (State.convProgrammed s row k).fixed = s.fixed := by
  unfold State.convProgrammed; repeat' split
  all_goals simp only [fixed_sec, fixed_ite, ite_self, State.convSwitch_fixed]

theorem State.stageSeg_fixed (s : State) (v) (j) (g) : (State.stageSeg s v j g).fixed = s.fixed := by
  unfold State.stageSeg; repeat' split
  all_goals simp only [fixed_sec]

theorem State.ackSeg_fixed (s : State) (f) (j) : (State.ackSeg s f j).fixed = s.fixed := by
  unfold State.ackSeg; repeat' split
  all_goals simp only [State.stageSeg_fixed, State.setSeg_fixed, State.ackUnits_fixed, State.convCommit_fixed,
    State.settleWrite_fixed, State.settleZones_fixed]

theorem State.supersede_fixed (s : State) (r) (k) (ps) : (State.supersede s r k ps).fixed = s.fixed := by rfl

theorem State.unitDone_fixed (s0 : State) (r) (k) : (State.unitDone s0 r k).fixed = s0.fixed := by
  simp only [State.unitDone]
  repeat' split
  all_goals simp only [fixed_sec, State.supersede_fixed, State.setLandRow_fixed]

theorem State.settleProgram_fixed (s : State) (p) : (State.settleProgram s p).fixed = s.fixed := by
  unfold State.settleProgram; repeat' split
  all_goals simp only [fixed_sec, fixed_ite, ite_self, State.setRow_fixed, State.unitDone_fixed, State.ackSeg_fixed,
    State.settleOp_fixed, State.storeProgrammed_fixed, State.convProgrammed_fixed, State.journalProgrammed_fixed,
    State.ckptProgrammed_fixed]

theorem State.drainPrograms_fixed (f : QEntry → Bool) : ∀ (n : Nat) (s : State), (State.drainPrograms f n s).fixed = s.fixed
  | 0, _ => rfl
  | n + 1, s => by
    unfold State.drainPrograms
    split
    · rfl
    · simp only [State.drainPrograms_fixed f n, State.settleProgram_fixed, fixed_ite, State.setDie_fixed,
      State.noteStart_fixed, ite_self]

theorem State.programsDone_fixed (s : State) : (State.programsDone s).fixed = s.fixed := by
  simp only [State.programsDone, State.drainPrograms_fixed]

theorem State.programsOf_fixed (s : State) (f : QEntry → Bool) : (State.programsOf s f).fixed = s.fixed := by
  simp only [State.programsOf, State.drainPrograms_fixed]

theorem State.dropSenses_fixed (s : State) (f) : (State.dropSenses s f).fixed = s.fixed := by rfl

theorem State.failSegment_fixed (s : State) (v) (j) (st) : (State.failSegment s v j st).fixed = s.fixed := by
  unfold State.failSegment; repeat' split
  all_goals simp only [fixed_ite, ite_self, State.failWrite_fixed, State.emptyZone_fixed, State.setZone_fixed]

theorem State.killFlight_fixed (s : State) (v) (st) : (State.killFlight s v st).fixed = s.fixed := by
  unfold State.killFlight; repeat' split
  all_goals simp only [State.settleWrites_fixed, State.failSegment_fixed, State.settleZones_fixed, State.postFlight_fixed,
    State.removeFlight_fixed, State.dropSenses_fixed]

/-! ### Machine/CarOps -/

theorem State.couple_fixed (s : State) (i) (w0) (w1) (w2) : (State.couple s i w0 w1 w2).fixed = s.fixed := by rfl

theorem State.uncoupleNow_fixed (s : State) (i) : (State.uncoupleNow s i).fixed = s.fixed := by
  simp only [State.uncoupleNow, State.answerOps_fixed, State.setCarriage_fixed]

/-! ### Machine/Reel -/

theorem State.modK_fixed (s : State) (c) (f : KCtx → KCtx) : (State.modK s c f).fixed = s.fixed := by
  unfold State.modK; repeat' split
  all_goals simp only [State.setKctx_fixed]

theorem State.modInst_fixed (s : State) (i) (f : KInst → KInst) : (State.modInst s i f).fixed = s.fixed := by
  unfold State.modInst; repeat' split
  all_goals simp only [State.setKinst_fixed]

theorem State.evictLine_fixed (s : State) (r) (just) : (State.evictLine s r just).fixed = s.fixed := by
  simp only [State.evictLine]
  repeat' split
  all_goals simp only [State.draw_fixed, State.modInst_fixed]

theorem State.makeRoom_fixed (s : State) (r) (just) : (State.makeRoom s r just).fixed = s.fixed := by
  simp only [State.makeRoom, fixed_foldl, implies_true, State.evictLine_fixed]

theorem State.reelIssues_fixed (s : State) (c) : (State.reelIssues s c).fixed = s.fixed := by rfl

theorem State.retireReel_fixed (s : State) (c) (next) : (State.retire_ s c next).fixed = s.fixed := by
  simp only [State.retire_, fixed_sec, State.modK_fixed]

theorem State.stopReel_fixed (s : State) (c) (state) (code) (detail) :
    (State.stopReel s c state code detail).fixed = s.fixed := by
  unfold State.stopReel; repeat' split
  all_goals simp only [fixed_sec, fixed_foldl, implies_true, State.setKinst_fixed, State.setKctx_fixed, State.event_fixed,
    State.complete_fixed, State.done_fixed, State.storeWake_fixed]

theorem State.trapReel_fixed (s : State) (c) (t) : (State.trapReel s c t).fixed = s.fixed := by
  simp only [State.trapReel, State.stopReel_fixed]

theorem State.runLocal_fixed (s : State) (name) (f) (w) (traps : KCtx → List TrapIf) (eff : KCtx → KCtx × Nat) :
    Kept s (State.runLocal s name f w traps eff) := by
  unfold State.runLocal; repeat' split
  all_goals simp only [implies_true, kept_cannot, kept_arises, State.reelIssues_fixed, State.trapReel_fixed,
    State.retireReel_fixed, State.setKctx_fixed]

theorem State.status_fixed (s : State) (st) (rs) : (State.status s st rs).s.fixed = s.fixed := by rfl

theorem State.runJournal_fixed (s : State) (name) (f) (w) (gate : KCtx → List TrapIf) (traps : KCtx → List TrapIf)
    (late : KCtx → List TrapIf) (eff : KCtx → State.Answer) (heff : ∀ y0, (eff y0).s.fixed = s.fixed) :
    Kept s (State.runJournal s name f w gate traps late eff) := by
  unfold State.runJournal; repeat' split
  all_goals simp only [fixed_ite, ite_self, implies_true, kept_cannot, kept_arises, State.reelIssues_fixed,
    State.trapReel_fixed, State.retireReel_fixed, State.setKctx_fixed, State.modK_fixed, heff]

theorem State.addOp_fixed (s : State) (c) (inst) (ticket) (op) : (State.addOp s c inst ticket op).fixed = s.fixed := by rfl

theorem State.runTicket_fixed (s : State) (name) (f) (w) (gate : KCtx → List TrapIf) (traps : KCtx → List TrapIf)
    (late : KCtx → List TrapIf) (eff : KCtx → Nat → State → State) (heff : ∀ y0 y1 t, (eff y0 y1 t).fixed = t.fixed) :
    Kept s (State.runTicket s name f w gate traps late eff) := by
  unfold State.runTicket; repeat' split
  all_goals simp only [fixed_ite, ite_self, implies_true, kept_cannot, kept_arises, State.reelIssues_fixed,
    State.trapReel_fixed, State.retireReel_fixed, State.setKctx_fixed, heff]

theorem State.runHeld_fixed (s : State) (name) (f) (w) (traps : KCtx → List TrapIf) (eff : KCtx → Held) :
    Kept s (State.runHeld s name f w traps eff) := by
  unfold State.runHeld; repeat' split
  all_goals simp only [implies_true, kept_cannot, kept_arises, State.reelIssues_fixed, State.trapReel_fixed,
    State.retireReel_fixed, State.setKctx_fixed]

theorem State.endWait_fixed (s : State) (c) (k) (args) (mask) (t) : (State.endWait s c k args mask t).fixed = s.fixed := by
  unfold State.endWait; repeat' split
  all_goals simp only [State.trapReel_fixed, State.setKctx_fixed, State.modK_fixed, State.retireReel_fixed]

/-! ### Machine/SpaceOps -/

theorem State.spaceChanged_fixed (s : State) (n) (c) : (State.spaceChanged s n c).fixed = s.fixed := by
  simp only [State.spaceChanged, fixed_sec, State.compAsync_fixed, State.portAsync_fixed]

theorem State.uncarve_fixed (s : State) : (State.uncarve s).fixed = s.fixed := by
  simp only [State.uncarve, fixed_sec, fixed_ite, ite_self]

theorem State.freeSlots_fixed (s : State) : (State.freeSlots s).fixed = s.fixed := by
  simp only [State.freeSlots, fixed_sec, fixed_foldl, implies_true, State.deferErase_fixed]

theorem State.deleteSpace_fixed (s : State) (n) : (State.deleteSpace s n).fixed = s.fixed := by
  simp only [State.deleteSpace]
  repeat' split
  all_goals simp only [fixed_foldl, implies_true, State.resetZone_fixed, State.setPgroup_fixed, State.freeSlots_fixed,
    State.convUnmap_fixed, State.journal_fixed, State.answerOps_fixed, State.spaceChanged_fixed, State.uncarve_fixed,
    State.setSpace_fixed]

theorem State.settleDeletes_fixed (s : State) : (State.settleDeletes s).fixed = s.fixed := by
  unfold State.settleDeletes
  refine fixed_foldl _ (fun t e => ?_) _ _
  repeat' split
  all_goals simp only [State.deleteSpace_fixed]

/-! ### Machine/SaveOps -/

theorem State.compState_fixed (s : State) (n) (st) : (State.compState s n st).fixed = s.fixed := by
  simp only [State.compState, fixed_ite, ite_self, State.event_fixed, State.compIrq_fixed, State.setComp_fixed]

theorem State.revokeCtx_fixed (s : State) (x) : (State.revokeCtx s x).fixed = s.fixed := by rfl

theorem State.strip_fixed (s : State) (n) : (State.strip s n).fixed = s.fixed := by
  simp only [State.strip, fixed_sec, fixed_ite, fixed_foldl, ite_self, implies_true, State.uncoupleNow_fixed,
    State.revokeCtx_fixed, State.freeCompBufs_fixed, State.setOwner_fixed, State.settleDeletes_fixed, State.event_fixed]

theorem State.endSave_fixed (s : State) (n) : (State.endSave s n).fixed = s.fixed := by
  simp only [State.endSave, fixed_ite]
  repeat' split
  all_goals simp only [State.compState_fixed, State.setComp_fixed, State.complete_fixed, State.strip_fixed,
    State.journal_fixed, State.done_fixed, State.emit_fixed]

/-! ### Machine/ControlOps -/

theorem State.beginReset_fixed (s : State) (n) (k) : (State.beginReset s n k).fixed = s.fixed := by
  simp only [State.beginReset]
  repeat' split
  all_goals simp only [fixed_foldl, implies_true, State.setComp_fixed, State.compState_fixed, State.stopReel_fixed]

theorem State.eraseKey_fixed (s : State) (slot) : (State.eraseKey s slot).fixed = s.fixed := by
  simp only [State.eraseKey, fixed_sec, fixed_ite, ite_self, State.setComp_fixed]

theorem State.freeComp_fixed (s : State) (n) : (State.freeComp s n).fixed = s.fixed := by
  simp only [State.freeComp, fixed_sec, State.compState_fixed, State.eraseKey_fixed, State.setComp_fixed, State.journal_fixed]

theorem State.mapPasid_fixed {s : State} {n} {pasid} {port} {t} (h : State.mapPasid s n pasid port = some t) :
    t.fixed = s.fixed := by
  unfold State.mapPasid at h
  repeat' split at h
  all_goals cases h
  all_goals simp only [fixed_sec]

theorem State.setResource_fixed (s : State) (n) (res) (value) (cluster) :
    (State.setResource s n res value cluster).fixed = s.fixed := by
  unfold State.setResource; repeat' split
  all_goals simp only [fixed_sec, fixed_foldl, implies_true, State.setComp_fixed, State.refillFloors_fixed]

theorem State.createComp_fixed (s : State) (n) (port) : (State.createComp s n port).fixed = s.fixed := by
  simp only [State.createComp, fixed_sec, State.setComp_fixed, State.compState_fixed, State.journal_fixed,
    State.setResource_fixed]

theorem State.coupleRecord_fixed {s : State} {n} {params} {r} {owners} {ctxs} {i} {t}
    (h : State.coupleRecord s n params r owners ctxs i = some t) : t.fixed = s.fixed := by
  -- The check is held opaque: the kernel would otherwise evaluate it on the descriptor's words.
  obtain ⟨check, hcheck⟩ : ∃ c, c = @State.coupleCheck := ⟨_, rfl⟩
  obtain ⟨f, hf⟩ : ∃ f, f = @State.coupleRecord := ⟨_, rfl⟩
  rw [← hf] at h
  delta State.coupleRecord at hf
  rw [← hcheck] at hf
  rw [hf] at h
  beta_reduce at h
  extract_lets e c old owner ctx target placed at h
  clear_value placed
  split at h
  · cases h
  · extract_lets d at h
    split at h
    · injection h with h
      rw [← h]
      exact State.couple_fixed _ _ _ _ _
    · cases h

theorem State.restoreNow_fixed {s : State} {n} {port} {key} {params} {r} {t}
    (h : State.restoreNow s n port key params r = some t) : t.fixed = s.fixed := by
  unfold State.restoreNow at h
  extract_lets b v _ s1 s2 _ _ _ s3 owners s4 ctxs s5 at h
  have h2 : s2.fixed = s.fixed := by
    simp only [s2, s1, fixed_foldl, State.setResource_fixed, State.setComp_fixed, implies_true]
  clear_value s2 b
  have h3 : s3.fixed = s.fixed :=
    (fixed_sec s2 _ _ _ _ _ _ _ _ _ _ _ _ _ _ _ _ _ _ _ _ _ _ _ _ _ rfl rfl rfl).trans h2
  clear_value s3
  have h5 : s5.fixed = s.fixed := by
    simp only [s5, s4, fixed_foldl, State.setCodecCtx_fixed, State.setOwner_fixed, implies_true, h3]
  clear_value s5 ctxs owners
  have go : ∀ (l : List Nat) (acc : Option State), (∀ u, acc = some u → u.fixed = s.fixed) → ∀ u,
      l.foldl (fun acc i => acc.bind (fun u => u.coupleRecord n params r owners ctxs i)) acc = some u → u.fixed = s.fixed := by
    intro l
    induction l with
    | nil => exact fun acc hacc t e => hacc t e
    | cons i l ih =>
      refine fun acc hacc t e => ih _ (fun u hu => ?_) t e
      obtain ⟨w, hw, hc⟩ := Option.bind_eq_some_iff.1 hu
      exact (State.coupleRecord_fixed hc).trans (hacc w hw)
  split at h
  · cases h
  next s6 e6 =>
    have h6 : s6.fixed = s.fixed := go _ _ (fun u e => by cases e; exact h5) _ e6
    injection h with h
    rw [← h]
    simp only [State.journal_fixed, State.compState_fixed, State.draw_fixed, fixed_mk, State.setComp_fixed, h6]

theorem State.restore_fixed (s : State) (params) (record) (h) : (State.restore s params record h).fixed = s.fixed := by
  simp only [State.restore, fixed_ite, State.fail_fixed]
  repeat' split
  all_goals simp only [State.fail_fixed, State.done_fixed]
  all_goals exact State.restoreNow_fixed ‹_›

theorem State.controlAct_fixed (s : State) (n) (x) : (State.controlAct s n x).fixed = s.fixed := by
  simp only [State.controlAct]
  repeat' split
  all_goals simp only [fixed_sec, State.fail_fixed, State.done_fixed, State.createComp_fixed, State.freeComp_fixed,
    State.beginReset_fixed, State.compState_fixed, State.setComp_fixed, State.endSave_fixed, State.restore_fixed]
  all_goals exact State.mapPasid_fixed ‹_›

theorem State.drainControl_fixed (n : Nat) : ∀ (k : Nat) (s : State), (State.drainControl k s n).fixed = s.fixed
  | 0, _ => rfl
  | k + 1, s => by
    unfold State.drainControl
    repeat' split
    all_goals simp only [State.drainControl_fixed n k, State.controlAct_fixed, State.setComp_fixed]

theorem State.settleControl_fixed (s : State) (n) : (State.settleControl s n).fixed = s.fixed := by
  simp only [State.settleControl, State.drainControl_fixed]

theorem State.control_fixed (s : State) (n) (x) : (State.control s n x).fixed = s.fixed := by
  simp only [State.control, fixed_ite, ite_self, State.controlAct_fixed, State.settleControl_fixed, State.setComp_fixed]

theorem State.settleSaves_fixed (s : State) : (State.settleSaves s).fixed = s.fixed := by
  simp only [State.settleSaves, fixed_ite, fixed_foldl, ite_self, implies_true, State.settleControl_fixed, State.endSave_fixed]

/-! ### Machine/ReadPath -/

theorem State.setConvSlot_fixed (s : State) (z) (v) : (State.setConvSlot s z v).fixed = s.fixed := by rfl

theorem State.setMembersOf_fixed (s : State) (z) (ms) (fs) : (State.setMembersOf s z ms fs).fixed = s.fixed := by
  simp only [State.setMembersOf, fixed_ite, ite_self, State.setConvSlot_fixed, State.setZone_fixed]

theorem State.spendBudget_fixed (s : State) (ps) (us) (target) : (State.spendBudget s ps us target).fixed = s.fixed := by rfl

theorem State.countSuspended_fixed (s : State) (k) : (State.countSuspended s k).fixed = s.fixed := by rfl

theorem State.setSense_fixed (s : State) (f) (j) (h : Sense → Sense) : (State.setSense s f j h).fixed = s.fixed := by
  unfold State.setSense; repeat' split
  all_goals simp only [State.setFlight_fixed]

theorem State.senseAround_fixed (s : State) (v) (j) (ps) : (State.senseAround s v j ps).fixed = s.fixed := by
  simp only [State.senseAround, fixed_foldl, implies_true, State.setSense_fixed, State.enqueue_fixed]

theorem State.suspendAndRead_fixed (s : State) (v) (j) (g) : (State.suspendAndRead s v j g).fixed = s.fixed := by
  simp only [State.suspendAndRead, State.setSense_fixed, State.countSuspended_fixed, State.enqueue_fixed, State.suspend_fixed]

theorem State.loseSense_fixed (s : State) (v) (j) : (State.loseSense s v j).fixed = s.fixed := by
  unfold State.loseSense; repeat' split
  all_goals simp only [State.setFlight_fixed]

theorem State.degraded_fixed (s : State) (v) (j) (g) : (State.degraded s v j g).fixed = s.fixed := by
  simp only [State.degraded, fixed_ite, ite_self, State.senseAround_fixed, State.loseSense_fixed]

theorem State.scheduleSense_fixed (s : State) (v) (j) (g) : (State.scheduleSense s v j g).fixed = s.fixed := by
  simp only [State.scheduleSense, fixed_ite, ite_self, State.degraded_fixed, State.enqueue_fixed, State.senseAround_fixed,
    State.spendBudget_fixed, State.suspendAndRead_fixed]

theorem State.scheduleSenses_fixed (s : State) (f) : (State.scheduleSenses s f).fixed = s.fixed := by
  unfold State.scheduleSenses
  split
  · rfl
  · refine fixed_foldl _ (fun t j => ?_) _ _
    repeat' split
    all_goals simp only [State.scheduleSense_fixed]

theorem State.chargeSense_fixed (s : State) (d) (e) : (State.chargeSense s d e).fixed = s.fixed := by
  simp only [State.chargeSense, State.addReadUs_fixed, State.charge_fixed, State.noteStart_fixed]

theorem State.resumeAfter_fixed (s : State) (d) : (State.resumeAfter s d).fixed = s.fixed := by
  unfold State.resumeAfter; repeat' split
  all_goals simp only [State.resume_fixed]

theorem State.serveQueued_fixed (s : State) (d) (e) : (State.serveQueued s d e).fixed = s.fixed := by
  simp only [State.serveQueued]
  repeat' split
  all_goals simp only [State.chargeSense_fixed, State.setDie_fixed, State.resumeAfter_fixed, State.dieNext_fixed]

theorem State.finishRead_fixed (s : State) (d) (p) : (State.finishRead s d p).fixed = s.fixed := by
  unfold State.finishRead; repeat' split
  all_goals simp only [State.endOp_fixed, State.serveQueued_fixed]

theorem State.finishAll_fixed (s : State) (p) : (State.finishAll s p).fixed = s.fixed := by
  simp only [State.finishAll, fixed_foldl, implies_true, State.finishRead_fixed]

theorem State.senseBlock_fixed (s : State) (d) (b) (n) (c) : (State.senseBlock s d b n c).fixed = s.fixed := by
  simp only [State.senseBlock, State.addReadUs_fixed, State.charge_fixed, State.countReads_fixed]

theorem State.senseLanding_fixed (s : State) (r) (k) (d) (b) : (State.senseLanding s r k d b).fixed = s.fixed := by
  simp only [State.senseLanding, State.addReadUs_fixed, State.chargeUnit_fixed, State.countReads_fixed]

theorem State.senseUnit_fixed (s : State) (r) (k) : (State.senseUnit s r k).fixed = s.fixed := by
  unfold State.senseUnit; repeat' split
  all_goals simp only [fixed_foldl, implies_true, State.senseLanding_fixed]

theorem State.learnSet_fixed (s : State) (g) : (State.learnSet s g).fixed = s.fixed := by
  simp only [State.learnSet, fixed_ite, ite_self, State.setBlock_fixed]

theorem State.endRead_fixed (s : State) (v) : (State.endRead s v).fixed = s.fixed := by
  unfold State.endRead; repeat' split
  all_goals simp only [State.removeFlight_fixed, State.emit_fixed, State.postFlight_fixed, State.count_fixed,
    State.settleSaves_fixed, State.settleZones_fixed]

theorem State.releaseLeft_fixed (s : State) : (State.releaseLeft s).fixed = s.fixed := by
  simp only [State.releaseLeft, fixed_foldl, implies_true, State.deferErase_fixed]

/-! ### Machine/Failure -/

theorem State.zoneChanged_fixed (s : State) (z) : (State.zoneChanged s z).fixed = s.fixed := by
  simp only [State.zoneChanged, fixed_sec, State.compAsync_fixed, State.portAsync_fixed]

theorem State.pinUnits_fixed (s : State) (z) : (State.pinUnits s z).fixed = s.fixed := by rfl

theorem State.placePinned_fixed (s : State) (z) : (State.placePinned s z).fixed = s.fixed := by
  unfold State.placePinned
  extract_lets a us t
  split
  · rfl
  · rw [State.pinUnits_fixed]
    exact (fixed_getD fun _ h => State.closeFront_fixed h).trans (State.placeSome_fixed _ _ _ _)

theorem State.failWrites_fixed (s : State) (z) (a) (st) : (State.failWrites s z a st).fixed = s.fixed := by
  unfold State.failWrites
  refine fixed_foldl _ (fun t v => ?_) _ _
  dsimp only
  split <;> simp only [State.endWrite_fixed, State.dropSegs_fixed]

theorem State.reduceTo_fixed (s : State) (z) (a) : (State.reduceTo s z a).fixed = s.fixed := by
  simp only [State.reduceTo, fixed_foldl, implies_true, State.unqueue_fixed, State.placePinned_fixed, State.setRow_fixed,
    State.pinUnits_fixed, State.rollBack_fixed, State.failWrites_fixed, State.setZone_fixed, State.settleZones_fixed,
    State.zoneChanged_fixed, State.journal_fixed, State.pinCheck_fixed, State.event_fixed]

theorem State.reduceZone_fixed (s : State) (z) : (State.reduceZone s z).fixed = s.fixed := by
  simp only [State.reduceZone, State.reduceTo_fixed, State.tellPeer_fixed]

theorem State.readOnlyZone_fixed (s : State) (z) : (State.readOnlyZone s z).fixed = s.fixed := by
  simp only [State.readOnlyZone, State.zoneChanged_fixed, State.journal_fixed, State.setZone_fixed]

theorem State.convPlaceUnits_fixed (s : State) (us) :
    (State.convPlaceUnits s us).fixed = s.fixed := (fixed_getD fun _ h => State.closeFront_fixed h).trans
      (State.placeSome_fixed _ _ _ _)

theorem State.senseConvRow_fixed (s : State) (k) : (State.senseConvRow s k).fixed = s.fixed := by
  simp only [State.senseConvRow, fixed_ite, fixed_foldl, ite_self, implies_true, State.senseBlock_fixed]

theorem State.convEvacuate_fixed (s : State) (k) : (State.convEvacuate s k).fixed = s.fixed := by
  simp only [State.convEvacuate, fixed_sec, fixed_foldl, implies_true, State.convLand_fixed, State.senseConvRow_fixed,
    State.convPlaceUnits_fixed]

theorem State.freeSlot_fixed (s : State) (z) : (State.freeSlot s z).fixed = s.fixed := by
  simp only [State.freeSlot, fixed_sec, fixed_ite, fixed_foldl, ite_self, implies_true, State.unqueue_fixed,
    State.deferErase_fixed, State.setConvSlot_fixed]

theorem State.convReduce_fixed (s : State) (z) : (State.convReduce s z).fixed = s.fixed := by
  simp only [State.convReduce, fixed_ite, fixed_foldl, ite_self, implies_true, State.freeSlot_fixed, State.convEvacuate_fixed]

theorem State.noSpare_fixed (s : State) (z) : (State.noSpare s z).fixed = s.fixed := by
  simp only [State.noSpare, fixed_ite, ite_self, State.convReduce_fixed, State.reduceZone_fixed, State.readOnlyZone_fixed]

theorem State.dropReloc_fixed (s : State) (id) : (State.dropReloc s id).fixed = s.fixed := by rfl

theorem State.secondLoss_fixed (s : State) (z) : (State.secondLoss s z).fixed = s.fixed := by
  simp only [State.secondLoss, fixed_sec, fixed_ite, fixed_foldl, ite_self, implies_true, State.deferErase_fixed,
    State.dropReloc_fixed, State.unqueue_fixed, State.noSpare_fixed]

theorem State.memberFailed_fixed (s : State) (z) (k) (dieLost) : (State.memberFailed s z k dieLost).fixed = s.fixed := by
  unfold State.memberFailed
  extract_lets fs s1 running t
  have h1 : s1.fixed = s.fixed := State.setMembersOf_fixed _ _ _ _
  clear_value s1
  have ht : t.fixed = s.fixed := by
    simp only [t]
    repeat' split
    · next h => exact (State.takeSpare_fixed h).trans h1
    all_goals exact h1
  clear_value t
  repeat' split
  · rfl
  · simp only [State.secondLoss_fixed, h1]
  · simp only [fixed_mk, ht]
  · simp only [fixed_mk, h1]
  · exact h1
  · next h => simp only [fixed_mk, State.takeSpare_fixed h, h1]
  · simp only [State.noSpare_fixed, h1]

theorem State.redoUnit_fixed (s : State) (r) (k) (cls) (comp) (p) : (State.redoUnit s r k cls comp p).fixed = s.fixed := by
  simp only [State.redoUnit]
  repeat' split
  all_goals simp only [State.settleProgram_fixed, State.setLandRow_fixed, State.enqueue_fixed, State.layLanding_fixed]
  all_goals exact State.landingPlace_fixed ‹_›

theorem State.moveUnit_fixed (s : State) (a) (rebuild) (r) (k) (u) : (State.moveUnit s a rebuild r k u).fixed = s.fixed := by
  unfold State.moveUnit
  extract_lets c ps b t
  have ht : t.fixed = s.fixed := State.senseUnit_fixed _ _ _
  have placed : ∀ w, (if rebuild = true then t.placeUnit c ps b else t.placePages ps b fun n k => .landing n k) = some w →
      w.fixed = s.fixed := fun w hw => by
    split at hw
    · exact (State.placeUnit_fixed hw).trans ht
    · exact (State.placePages_fixed hw).trans ht
  repeat' split
  · rfl
  · simp only [State.redoUnit_fixed, State.senseUnit_fixed]
  · rfl
  · rfl
  · next h _ => simp only [fixed_foldl, State.pinUnits_fixed, implies_true, placed _ h]
  · next h _ => exact placed _ h

theorem State.setTarget_fixed (s : State) (sd) (sb) (d) (b) : (State.setTarget s sd sb d b).fixed = s.fixed := by rfl

theorem State.layCopy_fixed (s : State) (r) : (State.layCopy s r).fixed = s.fixed := by
  simp only [State.layCopy, fixed_foldl, implies_true, State.layPage_fixed]

theorem State.moveUnits_fixed (s : State) (a) (rebuild) (f : LandUnit → Bool) :
    (State.moveUnits s a rebuild f).fixed = s.fixed := by
  unfold State.moveUnits
  extract_lets found t
  have ht : t.fixed = s.fixed := fixed_foldl _ (fun _ _ => State.moveUnit_fixed _ _ _ _ _ _) _ _
  split
  · exact ht
  · exact (fixed_getD fun _ h => State.closeFront_fixed h).trans ht

theorem State.landingGoes_fixed (s : State) : (State.landingGoes s).fixed = s.fixed := by
  simp only [State.landingGoes, fixed_ite, fixed_foldl, ite_self, implies_true, State.moveUnits_fixed, State.placePinned_fixed,
    State.convPlaceUnits_fixed, State.shadowExcess_fixed]

theorem State.relocStep_fixed (s : State) (id) : (State.relocStep s id).fixed = s.fixed := by
  unfold State.relocStep; repeat' split
  all_goals simp only [fixed_ite, fixed_foldl, ite_self, implies_true, State.secondLoss_fixed, State.senseBlock_fixed,
    State.enqueue_fixed, State.layCopy_fixed]

theorem State.relocZone_fixed (s : State) (z) : (State.relocZone s z).fixed = s.fixed := by
  simp only [State.relocZone, fixed_foldl, implies_true, State.relocStep_fixed]

theorem State.startReloc_fixed (s : State) (kind) (z) (k) (d) (b) : (State.startReloc s kind z k d b).fixed = s.fixed := by
  unfold State.startReloc; repeat' split
  all_goals simp only [fixed_sec, State.setTarget_fixed, State.relocStep_fixed]

theorem State.targetFails_fixed (s : State) (id) (cause) : (State.targetFails s id cause).fixed = s.fixed := by
  unfold State.targetFails
  split
  · rfl
  · extract_lets s1 d s2
    have h1 : s1.fixed = s.fixed := by simp only [s1, State.retire_fixed, State.unqueue_fixed]
    clear_value s1
    split
    · next h => simp only [State.relocStep_fixed, fixed_mk, State.setTarget_fixed, State.takeSpare_fixed h, h1]
    · simp only [s2, fixed_ite, State.noSpare_fixed, State.event_fixed, State.dropReloc_fixed, h1, ite_self]

theorem State.blockFails_fixed (s : State) (d) (b) (cause) : (State.blockFails s d b cause).fixed = s.fixed := by
  unfold State.blockFails
  extract_lets k served waiting s1 s2
  have h2 : s2.fixed = s.fixed := by
    refine (fixed_foldl _ (fun t q => ?_) _ _).trans (by simp only [s1, State.retire_fixed, State.unqueue_fixed])
    split <;> simp only [State.redoUnit_fixed]
  clear_value s2 served
  repeat' split
  · simp only [State.memberFailed_fixed, h2]
  · simp only [State.reserveCheck_fixed, State.moveUnits_fixed, h2]
  · exact h2

theorem State.retireRead_fixed (s : State) (v) : (State.retireRead s v).fixed = s.fixed := by
  simp only [State.retireRead, fixed_ite, fixed_foldl, ite_self, implies_true, State.blockFails_fixed]

theorem State.forwardRead_fixed (s : State) (v) (m) : (State.forwardRead s v m).fixed = s.fixed := by
  unfold State.forwardRead; repeat' split
  all_goals simp only [State.toPeer_fixed, State.setFlight_fixed]

theorem State.settleRead_fixed (s : State) (f) : (State.settleRead s f).fixed = s.fixed := by
  unfold State.settleRead; repeat' split
  all_goals simp only [State.releaseLeft_fixed, State.retireRead_fixed, State.forwardRead_fixed, State.settleCodec_fixed,
    State.endRead_fixed]

theorem State.entryFails_fixed (s : State) (d) (e) (cause) : (State.entryFails s d e cause).fixed = s.fixed := by
  unfold State.entryFails; repeat' split
  all_goals simp only [State.targetFails_fixed, State.redoUnit_fixed, State.blockFails_fixed, State.storeFails_fixed,
    State.rewriteSystem_fixed, State.settleOp_fixed]

theorem State.opFails_fixed (s : State) (d) (o) : (State.opFails s d o).fixed = s.fixed := by
  simp only [State.opFails, State.setDie_fixed, State.dieNext_fixed, State.entryFails_fixed]

theorem State.tellRefusal_fixed (s : State) (d) (e) : (State.tellRefusal s d e).fixed = s.fixed := by
  simp only [State.tellRefusal, fixed_sec, State.logProgram_fixed, State.event_fixed, State.dieNext_fixed,
    State.entryFails_fixed]

theorem State.cancelAround_fixed (s : State) (f) (j) : (State.cancelAround s f j).fixed = s.fixed := by
  simp only [State.cancelAround, fixed_foldl, implies_true, State.endOp_fixed, State.unqueue_fixed]

theorem State.resense_fixed (s : State) (f) (j) : (State.resense s f j).fixed = s.fixed := by
  unfold State.resense; repeat' split
  all_goals simp only [fixed_ite, ite_self, State.cancelAround_fixed, State.settleRead_fixed, State.degraded_fixed,
    State.suspendAndRead_fixed]

theorem State.orphan_fixed (s : State) (e) : (State.orphan s e).fixed = s.fixed := by
  unfold State.orphan; repeat' split
  all_goals simp only [State.setRow_fixed, State.redoUnit_fixed, State.resense_fixed, State.storeFails_fixed,
    State.settleOp_fixed, State.convProgrammed_fixed, State.journalProgrammed_fixed, State.ckptProgrammed_fixed]

theorem State.dieDown_fixed (s : State) (d) : (State.dieDown s d).fixed = s.fixed := by
  simp only [State.dieDown, implies_true, State.setDie_fixed, State.event_fixed, State.withSpares_fixed]

theorem State.relocsDown_fixed (s : State) (d) : (State.relocsDown s d).fixed = s.fixed := by
  simp only [State.relocsDown, fixed_sec, fixed_foldl, implies_true, State.dropReloc_fixed]

theorem State.loseDies_fixed (s : State) (ds) : (State.loseDies s ds).fixed = s.fixed := by
  simp only [State.loseDies, fixed_foldl, implies_true, State.dieDown_fixed, State.relocsDown_fixed, State.memberFailed_fixed,
    State.orphan_fixed, State.moveUnits_fixed, State.reserveCheck_fixed, State.sweepLanding_fixed]

theorem State.loseChannel_fixed (s : State) (c) : (State.loseChannel s c).fixed = s.fixed := by
  simp only [State.loseChannel, fixed_sec, State.loseDies_fixed, State.event_fixed]

/-! ### Machine/Durable -/

theorem State.journalUnits_fixed (s : State) (f : State → State) (hf : ∀ t, (f t).fixed = t.fixed) :
    (State.journalUnits s f).fixed = s.fixed := by
  unfold State.journalUnits
  rw [fixed_mk]
  exact fixed_times _ (fun t => by simp only [fixed_mk, hf]) _ _

theorem State.journalNow_fixed (s : State) : (State.journalNow s).fixed = s.fixed := by
  simp only [State.journalNow, fixed_sec, implies_true, State.journalUnits_fixed, State.journalWrite_fixed]

theorem State.journalFlush_fixed (s : State) : (State.journalFlush s).fixed = s.fixed := by
  simp only [State.journalFlush, fixed_sec, implies_true, State.journalUnits_fixed, State.journalWrite_fixed]

theorem State.journalGo_fixed (s : State) : (State.journalGo s).fixed = s.fixed := by
  simp only [State.journalGo, fixed_sec, implies_true, State.journalUnits_fixed, State.journalQueue_fixed,
    State.journalProgrammed_fixed]

theorem State.remount_fixed (s : State) (known) : (State.remount s known).fixed = s.fixed := by rfl

/-! ### Machine/PowerOps -/

theorem State.admitted_fixed (s : State) (c) : (State.admitted s c).fixed = s.fixed := by rfl

theorem State.enterIdle_fixed (s : State) : (State.enterIdle s).fixed = s.fixed := by rfl

theorem State.startMeasurement_fixed (s : State) : (State.startMeasurement s).fixed = s.fixed := by
  simp only [State.startMeasurement, fixed_sec, fixed_ite, ite_self]

theorem State.apportionAmong_fixed (s : State) (inA) (inB) : (State.apportionAmong s inA inB).fixed = s.fixed := by rfl

theorem State.apportionPower_fixed (s : State) : (State.apportionPower s).fixed = s.fixed := by rfl

theorem State.apportionProg_fixed (s : State) : (State.apportionProg s).fixed = s.fixed := by rfl

theorem State.lowerPower_fixed (s : State) : (State.lowerPower s).fixed = s.fixed := by
  simp only [State.lowerPower, fixed_sec, fixed_ite, ite_self, State.apportionAmong_fixed]

theorem State.capSuspend_fixed (s : State) (d) : (State.capSuspend s d).fixed = s.fixed := by
  simp only [State.capSuspend, State.suspend_fixed, State.setDie_fixed]

theorem State.trimSlots_fixed (cap : Nat) : ∀ (n : Nat) (s : State), (State.trimSlots cap n s).fixed = s.fixed
  | 0, _ => rfl
  | n + 1, s => by
    unfold State.trimSlots
    repeat' split
    all_goals simp only [State.trimSlots_fixed cap n, State.capSuspend_fixed]

theorem State.applyMode_fixed (s : State) : (State.applyMode s).fixed = s.fixed := by
  simp only [State.applyMode, fixed_sec, fixed_ite, fixed_foldl, ite_self, implies_true, State.settleCodec_fixed,
    State.event_fixed, State.done_fixed]

theorem State.cut_fixed (s : State) : (State.cut s).fixed = s.fixed := by rfl

theorem State.regionOut_fixed (s : State) (r) : (State.regionOut s r).fixed = s.fixed := by
  simp only [State.regionOut, fixed_sec, fixed_ite, ite_self, State.event_fixed]

theorem State.beginStop_fixed (s : State) : (State.beginStop s).fixed = s.fixed := by rfl

theorem State.stopZone_fixed (s : State) (z) : (State.stopZone s z).fixed = s.fixed := by
  simp only [State.stopZone, fixed_ite, ite_self, State.emptyZone_fixed, State.setZone_fixed]

theorem State.startCkpt_fixed (s : State) : (State.startCkpt s).fixed = s.fixed := by
  simp only [State.startCkpt, fixed_sec, State.draw_fixed, State.ckptStripe_fixed, State.unqueue_fixed]

theorem State.ckptWhole_fixed (s : State) : (State.ckptWhole s).fixed = s.fixed := by rfl

theorem State.ckptInForce_fixed (s : State) : (State.ckptInForce s).fixed = s.fixed := by
  simp only [State.ckptInForce, fixed_sec, State.journalNow_fixed, State.freeSystem_fixed]

theorem State.endStop_fixed (s : State) : (State.endStop s).fixed = s.fixed := by
  simp only [State.endStop, fixed_sec, fixed_foldl, implies_true, State.stopZone_fixed, State.giveSeg_fixed,
    State.programsDone_fixed, State.shadowAll_fixed, State.startCkpt_fixed, State.journalNow_fixed]

theorem State.stopDone_fixed (s : State) : (State.stopDone s).fixed = s.fixed := by
  simp only [State.stopDone, fixed_sec, State.writeMarker_fixed, State.ckptInForce_fixed, State.answerOps_fixed]

theorem State.stopCheck_fixed (s : State) : (State.stopCheck s).fixed = s.fixed := by
  simp only [State.stopCheck, fixed_ite, ite_self, State.endStop_fixed]

theorem State.resumeErases_fixed (s : State) : (State.resumeErases s).fixed = s.fixed := by
  unfold State.resumeErases
  refine fixed_foldl _ (fun t e => ?_) _ _
  repeat' split
  all_goals simp only [State.resume_fixed]

theorem State.abortEntry_fixed (s : State) (t) (n) (cause) (source) :
    (State.abortEntry s t n cause source).fixed = s.fixed := by
  simp only [State.abortEntry]
  repeat' split
  all_goals simp only [fixed_sec, State.resumeErases_fixed, State.event_fixed, State.emit_fixed, State.done_fixed]

theorem State.beginEntry_fixed (s : State) (t) (cmd) : (State.beginEntry s t cmd).fixed = s.fixed := by
  unfold State.beginEntry; repeat' split
  all_goals simp only [fixed_sec, State.event_fixed, State.fail_fixed, State.abortEntry_fixed]

theorem State.secureStep_fixed (s : State) (t) : (State.secureStep s t).fixed = s.fixed := by
  unfold State.secureStep
  extract_lets s1
  have h1 : s1.fixed = s.fixed := by
    refine fixed_foldl _ (fun u e => ?_) _ _
    repeat' split
    all_goals simp only [State.suspend_fixed]
  clear_value s1
  split
  · simp only [State.stopCheck_fixed, State.beginStop_fixed, h1]
  · simp only [State.journalNow_fixed, State.shadowAll_fixed, h1]

theorem State.announceStep_fixed (s : State) : (State.announceStep s).fixed = s.fixed := by
  unfold State.announceStep; repeat' split
  all_goals simp only [fixed_sec, fixed_foldl, implies_true, State.done_fixed, State.sendOn_fixed, State.emit_fixed]

theorem State.startWake_fixed (s : State) (t) (sources) : (State.startWake s t sources).fixed = s.fixed := by rfl

theorem State.wakeResume_fixed (s : State) (t) (exitUs) : (State.wakeResume s t exitUs).fixed = s.fixed := by
  simp only [State.wakeResume, fixed_sec, State.emit_fixed, State.resumeErases_fixed, State.apportionProg_fixed,
    State.apportionPower_fixed, State.event_fixed]

/-! ### Machine/HostOps -/

theorem State.fetch_fixed (s : State) (h) : (State.fetch s h).fixed = s.fixed := by rfl

theorem onIo_fixed (name) (h) (s : State) (f : State → State) (hf : ∀ t, (f t).fixed = t.fixed) : Kept s (onIo name h s f) := by
  simp only [onIo, implies_true, kept_arises, State.fetch_fixed, hf]

theorem onAdmin_fixed (name) (h) (s : State) (f : State → State) (hf : ∀ t, (f t).fixed = t.fixed) :
    Kept s (onAdmin name h s f) := by
  simp only [onAdmin, implies_true, kept_arises, State.fetch_fixed, hf]

theorem State.countRefused_fixed (s : State) (c) : (State.countRefused s c).fixed = s.fixed := by rfl

theorem State.refuseFrozen_fixed (s : State) (h) : (State.refuseFrozen s h).fixed = s.fixed := by
  simp only [State.refuseFrozen, State.fail_fixed, State.countRefused_fixed]

theorem State.refuseMiss_fixed (s : State) (h) : (State.refuseMiss s h).fixed = s.fixed := by
  simp only [State.refuseMiss, fixed_sec, State.countRefused_fixed, State.fail_fixed]

theorem State.noteWritten_fixed (s : State) (z) : (State.noteWritten s z).fixed = s.fixed := by
  unfold State.noteWritten; repeat' split
  all_goals simp only [fixed_sec]

theorem State.addFlight_fixed (s : State) (v) : (State.addFlight s v).fixed = s.fixed := by
  simp only [State.addFlight, fixed_sec, fixed_ite, ite_self, State.startClocks_fixed, State.setCarriage_fixed]

theorem onZoneQueue_fixed (name) (h) (slba) (s : State) (f : State → State) (hf : ∀ t, (f t).fixed = t.fixed) :
    Kept s (onZoneQueue name h slba s f) := by
  simp only [onZoneQueue, implies_true, kept_arises, State.fetch_fixed, hf]

theorem State.onTarget_fixed (s : State) (h) (slba) (nlb) (write) (changes) (sized) (f : State → IoTarget → State)
    (hf : ∀ t y1, (f t y1).fixed = t.fixed) : (State.onTarget s h slba nlb write changes sized f).fixed = s.fixed := by
  unfold State.onTarget; repeat' split
  all_goals simp only [State.fail_fixed, State.countRefused_fixed, State.refuseMiss_fixed, hf]

theorem State.onZone_fixed (s : State) (h) (slba) (write) (changes) (other) (f : State → IoTarget → Nat → State)
    (hf : ∀ t y1 y2, (f t y1 y2).fixed = t.fixed) : (State.onZone s h slba write changes other f).fixed = s.fixed := by
  unfold State.onZone; repeat' split
  all_goals simp only [State.fail_fixed, State.refuseFrozen_fixed, State.refuseMiss_fixed, hf]

/-! ### Machine/WakeOps -/

theorem State.ordinaryWake_fixed (s : State) (mask) : (State.ordinaryWake s mask).fixed = s.fixed := by
  simp only [State.ordinaryWake, fixed_sec, fixed_ite, ite_self, State.event_fixed]

theorem State.disarm_fixed (s : State) (mask) : (State.disarm s mask).fixed = s.fixed := by
  simp only [State.disarm, fixed_sec, fixed_ite, ite_self]

theorem State.wakeFired_fixed {s : State} {mask} {t} (h : State.wakeFired s mask = some t) : t.fixed = s.fixed := by
  unfold State.wakeFired at h
  extract_lets at h
  repeat' split at h
  all_goals cases h
  all_goals simp +zetaDelta only [fixed_sec, State.ordinaryWake_fixed, State.abortEntry_fixed, State.disarm_fixed,
    State.startWake_fixed]

/-! ### Machine/Flash -/

theorem State.retakeSlot_fixed (s : State) (d) : (State.retakeSlot s d).fixed = s.fixed := by
  simp only [State.retakeSlot, State.resume_fixed, State.setDie_fixed]

theorem State.startFold_fixed (s : State) (z) (r) : (State.startFold s z r).fixed = s.fixed := by
  simp only [State.startFold, fixed_foldl, implies_true, State.senseUnit_fixed, State.issueRow_fixed, State.setRow_fixed]

theorem State.rowCloses_fixed (s : State) (z) (r) : (State.rowCloses s z r).fixed = s.fixed := by
  simp only [State.rowCloses, State.setRow_fixed, State.sweepLanding_fixed, State.dropPages_fixed, State.settleZones_fixed,
    State.relocZone_fixed, State.pinCheck_fixed]

theorem State.compactBlock_fixed (s : State) (d) (b) (cls) : (State.compactBlock s d b cls).fixed = s.fixed := by
  simp only [State.compactBlock, fixed_sec, State.moveUnits_fixed]

theorem State.compactCheck_fixed (s : State) : (State.compactCheck s).fixed = s.fixed := by
  simp only [State.compactCheck, fixed_sec, State.sweepLanding_fixed]

theorem State.swapRole_fixed (s : State) (d) (b) (next) : (State.swapRole s d b next).2.fixed = s.fixed := by
  simp only [State.swapRole]
  repeat' split
  all_goals simp only [State.setBlock_fixed, State.deferErase_fixed]

theorem State.startErase_fixed (s : State) (d) (b) (next) : (State.startErase s d b next).fixed = s.fixed := by
  simp only [State.startErase, State.setDie_fixed, State.swapRole_fixed, State.setBlock_fixed, State.enqueue_fixed]

theorem State.joinRole_fixed (s : State) (d) (b) (kind) (next) : (State.joinRole s d b kind next).fixed = s.fixed := by
  unfold State.joinRole; repeat' split
  all_goals simp only [fixed_ite, ite_self, implies_true, State.withSpares_fixed, State.setBlock_fixed, State.setDie_fixed,
    State.landingGoes_fixed]

theorem State.settleErase_fixed (s0 : State) (d) (e) : (State.settleErase s0 d e).fixed = s0.fixed := by
  simp only [State.settleErase]
  repeat' split
  all_goals simp only [State.eraseCells_fixed, State.joinRole_fixed, State.storeErased_fixed, State.versionErased_fixed,
    State.setBlock_fixed, State.settleOp_fixed]

theorem State.setCluster_fixed (s : State) (k) (f : ClusterCfg → ClusterCfg) :
    (State.setCluster s k f).fixed = s.fixed := by rfl

theorem State.visit_fixed (s : State) (k) (x) (bits) (tier) : (State.visit s k x bits tier).fixed = s.fixed := by
  simp only [State.visit, fixed_ite, ite_self, State.addReadUs_fixed, State.countReads_fixed, State.setCluster_fixed,
    State.blockFails_fixed, State.queueRefresh_fixed]

theorem State.refreshTarget_fixed {s : State} {d} {i t} (h : State.refreshTarget s d = some (i, t)) : t.fixed = s.fixed := by
  unfold State.refreshTarget at h
  repeat' split at h
  all_goals cases h
  all_goals simp only [State.setDie_fixed]
  all_goals exact State.takeSpare_fixed ‹_›

theorem State.startRefresh_fixed {s : State} {d} {b} {t} (h : State.startRefresh s d b = some t) : t.fixed = s.fixed := by
  unfold State.startRefresh at h
  extract_lets _ s1 at h
  have h1 : s1.fixed = s.fixed := by simp only [s1, fixed_mk]
  clear_value s1
  split at h
  · cases h; exact h1
  split at h
  · split at h
    next hu => cases h; simp only [State.startReloc_fixed, State.refreshTarget_fixed hu, h1]
    next => cases h
  · split at h
    · split at h
      · cases h
      · cases h; simp only [State.compactBlock_fixed, h1]
    · cases h
    · cases h; exact h1

theorem State.redirect_fixed (s : State) (r) : (State.redirect s r).fixed = s.fixed := by
  unfold State.redirect
  split
  · refine fixed_foldl _ (fun t q => ?_) _ _
    extract_lets w k p z0 u laid
    have hu : u.fixed = t.fixed := by simp only [u, fixed_ite, fixed_mk, State.setRow_fixed, ite_self]
    clear_value u
    rw [State.enqueue_fixed]
    simp only [laid]
    split <;> simp only [State.layConv_fixed, State.layRow_fixed, hu]
  · simp only [State.dieNext_fixed, State.setDie_fixed, fixed_foldl, State.copyPages_fixed, implies_true]

theorem State.commitReloc_fixed (s : State) (r) : (State.commitReloc s r).fixed = s.fixed := by
  simp only [State.commitReloc, fixed_ite, ite_self, State.setMembersOf_fixed, State.setBlock_fixed, State.releaseLeft_fixed,
    State.journal_fixed, State.redirect_fixed, State.dropReloc_fixed]

theorem State.rebuildTarget_fixed {s : State} {q} {i j t} (h : State.rebuildTarget s q = some (i, j, t)) :
    t.fixed = s.fixed := by
  unfold State.rebuildTarget at h
  split at h
  · cases h; rfl
  extract_lets at h
  repeat' split at h
  all_goals cases h
  exact State.takeSpare_fixed ‹_›

theorem State.startRebuild_fixed (s : State) (q) : (State.startRebuild s q).fixed = s.fixed := by
  unfold State.startRebuild
  extract_lets s1
  split
  · next h => rw [State.startReloc_fixed, State.rebuildTarget_fixed h]; rfl
  · rw [State.noSpare_fixed]; rfl

theorem State.openSlot_fixed (s : State) (z) : (State.openSlot s z).fixed = s.fixed := by
  unfold State.openSlot
  have key : ∀ (l : List Nat) (acc : List (Nat × Nat) × State), (l.foldl (fun (acc : List (Nat × Nat) × State) d =>
      let (b, u) := acc.2.assignBlock z d
      (acc.1 ++ [(d, b)], u.setBlock d b { u.block d b with use := .conventional })) acc).2.fixed = acc.2.fixed := by
    intro l
    induction l with
    | nil => exact fun _ => rfl
    | cons d l ih =>
      exact fun acc => (ih _).trans ((State.setBlock_fixed _ _ _ _).trans (State.assignBlock_fixed _ _ _))
  split
  next h =>
    rw [State.setConvSlot_fixed]
    exact (congrArg (·.2.fixed) h).symm.trans (key _ _)

theorem State.freeConvRow_fixed {s : State} {i t} (h : State.freeConvRow s = some (i, t)) : t.fixed = s.fixed := by
  unfold State.freeConvRow at h
  repeat' split at h
  all_goals cases h
  all_goals simp only [State.openSlot_fixed]

theorem State.slotCheck_fixed (s : State) (z) : (State.slotCheck s z).fixed = s.fixed := by
  simp only [State.slotCheck, fixed_ite, ite_self, State.freeSlot_fixed]

theorem State.programConv_fixed (s : State) (k) : (State.programConv s k).fixed = s.fixed := by
  unfold State.programConv
  extract_lets z c
  refine fixed_foldl _ (fun t x => ?_) _ _
  repeat' split
  all_goals simp only [State.convProgrammed_fixed, State.enqueue_fixed, State.layConv_fixed]

theorem State.senseConvPages_fixed (s : State) (ps) : (State.senseConvPages s ps).fixed = s.fixed := by
  simp only [State.senseConvPages, fixed_foldl, implies_true, State.senseUnit_fixed]

theorem State.copyConv_fixed (s : State) (row) (us) : (State.copyConv s row us).fixed = s.fixed := by
  simp only [State.copyConv, fixed_sec, State.senseConvPages_fixed, State.programConv_fixed]

theorem execCapSlotGrant_fixed (die) (s : State) : Kept s (execCapSlotGrant die s) := by
  unfold execCapSlotGrant; repeat' split
  all_goals simp only [implies_true, kept_cannot, kept_arises, State.retakeSlot_fixed, State.dieNext_fixed,
    State.refuseEntry_fixed, State.startEntry_fixed]

theorem State.senseOutcome_fixed (s : State) (v) (j) (g) (decoded) (weight) :
    (State.senseOutcome s v j g decoded weight).fixed = s.fixed := by
  simp only [State.senseOutcome, fixed_ite, ite_self, State.learnSet_fixed, State.setSense_fixed, State.settleRead_fixed,
    State.queueRefresh_fixed, State.loseSense_fixed, State.suspendAndRead_fixed, State.enqueue_fixed, State.senseAround_fixed]

theorem execReadSenseComplete_fixed (flight) (sense) (decoded) (weight) (s : State) :
    Kept s (execReadSenseComplete flight sense decoded weight s) := by
  unfold execReadSenseComplete; repeat' split
  all_goals simp only [implies_true, kept_cannot, kept_arises, State.finishAll_fixed, State.senseOutcome_fixed,
    State.finishRead_fixed]

theorem execProgramComplete_fixed (die) (s : State) : Kept s (execProgramComplete die s) := by
  unfold execProgramComplete; repeat' split
  all_goals simp only [kept_next, kept_cannot, State.settleProgram_fixed, State.endOp_fixed, State.relocStep_fixed,
    State.sweepLanding_fixed, State.compactCheck_fixed]

theorem execEraseComplete_fixed (die) (s : State) : Kept s (execEraseComplete die s) := by
  unfold execEraseComplete; repeat' split
  all_goals simp only [kept_next, kept_cannot, State.endOp_fixed, State.settleErase_fixed]

theorem execDieStatusReport_fixed (die) (failed) (s : State) : Kept s (execDieStatusReport die failed s) := by
  unfold execDieStatusReport; repeat' split
  all_goals simp only [kept_next, kept_cannot, State.tellRefusal_fixed, State.opFails_fixed]

theorem execDieTimeout_fixed (die) (channelLost) (s : State) : Kept s (execDieTimeout die channelLost s) := by
  simp only [execDieTimeout, implies_true, kept_ite, kept_arises, and_self, State.loseChannel_fixed, State.loseDies_fixed]

theorem execStripeRowClose_fixed (zone) (row) (s : State) : Kept s (execStripeRowClose zone row s) := by
  simp only [execStripeRowClose, implies_true, kept_arises, State.rowCloses_fixed]

theorem execLandingRowClose_fixed (row) (s : State) : Kept s (execLandingRowClose row s) := by
  unfold execLandingRowClose; repeat' split
  all_goals simp only [implies_true, kept_cannot, kept_arises, State.landingGoes_fixed, State.sweepLanding_fixed,
    State.setLandRow_fixed]

theorem execFoldStart_fixed (zone) (row) (s : State) : Kept s (execFoldStart zone row s) := by
  simp only [execFoldStart, implies_true, kept_arises, State.startFold_fixed]

theorem execFoldSwitch_fixed (zone) (row) (s : State) : Kept s (execFoldSwitch zone row s) := by
  simp only [execFoldSwitch, implies_true, kept_arises, State.rowCloses_fixed]

theorem execCompactionStart_fixed (s : State) : Kept s (execCompactionStart s) := by
  unfold execCompactionStart; repeat' split
  all_goals simp only [implies_true, kept_cannot, kept_arises, State.compactBlock_fixed]

theorem execDeferredEraseStart_fixed (die) (s : State) : Kept s (execDeferredEraseStart die s) := by
  unfold execDeferredEraseStart; repeat' split
  all_goals simp only [implies_true, kept_cannot, kept_arises, State.startErase_fixed]

theorem execWearRelocationStart_fixed (die) (s : State) : Kept s (execWearRelocationStart die s) := by
  unfold execWearRelocationStart; repeat' split
  all_goals simp only [implies_true, kept_cannot, kept_arises, State.startReloc_fixed]

theorem execPromenadeVisit_fixed (cluster) (bits) (tier) (s : State) : Kept s (execPromenadeVisit cluster bits tier s) := by
  unfold execPromenadeVisit; repeat' split
  all_goals simp only [implies_true, kept_cannot, kept_arises, State.visit_fixed]

theorem execRelocationStart_fixed (die) (block) (s : State) : Kept s (execRelocationStart die block s) := by
  unfold execRelocationStart
  split
  · next h => simp only [kept_arises, State.startRefresh_fixed h, implies_true]
  · trivial

theorem execRelocationCommit_fixed (idx) (s : State) : Kept s (execRelocationCommit idx s) := by
  unfold execRelocationCommit; repeat' split
  all_goals simp only [implies_true, kept_cannot, kept_arises, State.commitReloc_fixed]

theorem execRebuildStart_fixed (zone) (member) (s : State) : Kept s (execRebuildStart zone member s) := by
  unfold execRebuildStart; repeat' split
  all_goals simp only [implies_true, kept_cannot, kept_arises, State.startRebuild_fixed]

theorem execConventionalCopy_fixed (units) (s : State) : Kept s (execConventionalCopy units s) := by
  unfold execConventionalCopy
  split
  · next h => simp only [kept_arises, State.copyConv_fixed, State.freeConvRow_fixed h, implies_true]
  · trivial

theorem execConventionalReclaim_fixed (s : State) : Kept s (execConventionalReclaim s) := by
  unfold execConventionalReclaim; repeat' split
  all_goals simp only [implies_true, kept_cannot, kept_arises, State.slotCheck_fixed, State.convEvacuate_fixed]

/-! ### Machine/HostIo -/

theorem State.advanceWp_fixed (s : State) (z) (n) (st) : (State.advanceWp s z n st).fixed = s.fixed := by
  simp only [State.advanceWp, State.setZone_fixed, State.noteWritten_fixed, State.markFoldable_fixed]

theorem State.admitWrite_fixed {s : State} {z} {off} {n} {t} (h : State.admitWrite s z off n = .ok t) : t.fixed = s.fixed := by
  unfold State.admitWrite at h
  extract_lets at h
  repeat' split at h
  all_goals cases h
  all_goals simp +zetaDelta only [fixed_ite, ite_self, State.leaveEmpty_fixed, State.journal_fixed, State.advanceWp_fixed]

theorem State.writeZone_fixed (s : State) (h) (io) (k) (t) (z) (off) : (State.writeZone s h io k t z off).fixed = s.fixed := by
  simp only [State.writeZone]
  repeat' split
  all_goals simp only [State.fail_fixed, State.refuseFrozen_fixed, State.addFlight_fixed]
  all_goals exact State.admitWrite_fixed ‹_›

theorem State.writeConv_fixed (s : State) (h) (io) (t) : (State.writeConv s h io t).fixed = s.fixed := by
  simp only [State.writeConv, fixed_ite, ite_self, State.fail_fixed, State.event_fixed, State.addFlight_fixed]

theorem State.unmapRange_fixed (s : State) (u) (n) : (State.unmapRange s u n).fixed = s.fixed := by
  simp only [State.unmapRange, fixed_foldl, implies_true, State.sweepLanding_fixed, State.convUnmap_fixed]

theorem State.startRead_fixed (s : State) (h) (k) (t) (st) : (State.startRead s h k t st).fixed = s.fixed := by
  simp only [State.startRead, fixed_ite, ite_self, State.fail_fixed, State.settleRead_fixed, State.scheduleSenses_fixed,
    State.addFlight_fixed]

theorem execRead_fixed (h) (io) (s : State) : Kept s (execRead h io s) := by
  simp only [execRead, implies_true, onIo_fixed, State.onTarget_fixed, State.startRead_fixed]

theorem execVerify_fixed (h) (io) (s : State) : Kept s (execVerify h io s) := by
  simp only [execVerify, implies_true, onIo_fixed, State.onTarget_fixed, State.startRead_fixed]

theorem execCompare_fixed (h) (io) (data) (pi) (s : State) : Kept s (execCompare h io data pi s) := by
  simp only [execCompare, implies_true, onIo_fixed, State.onTarget_fixed, State.startRead_fixed]

theorem execWrite_fixed (h) (io) (s : State) : Kept s (execWrite h io s) := by
  refine onZoneQueue_fixed _ _ _ _ _ fun t => State.onTarget_fixed _ _ _ _ _ _ _ _ fun t y => ?_
  repeat' split
  all_goals simp only [State.fail_fixed, State.writeZone_fixed, State.writeConv_fixed]

theorem execZoneAppend_fixed (h) (io) (s : State) : Kept s (execZoneAppend h io s) := by
  refine onZoneQueue_fixed _ _ _ _ _ fun t => ?_
  split
  · exact State.fail_fixed _ _ _
  · refine State.onTarget_fixed _ _ _ _ _ _ _ _ fun t y => ?_
    repeat' split
    all_goals simp only [State.fail_fixed, State.writeZone_fixed]

theorem execWriteZeroes_fixed (h) (io) (s : State) : Kept s (execWriteZeroes h io s) := by
  refine onZoneQueue_fixed _ _ _ _ _ fun t => State.onTarget_fixed _ _ _ _ _ _ _ _ fun t y => ?_
  repeat' split
  all_goals simp only [State.fail_fixed, State.writeZone_fixed, State.done_fixed, State.unmapRange_fixed]

theorem execDatasetManagement_fixed (h) (dealloc) (ranges) (s : State) : Kept s (execDatasetManagement h dealloc ranges s) := by
  refine onIo_fixed _ _ _ _ fun t => ?_
  split
  · exact State.fail_fixed _ _ _
  · refine State.onTarget_fixed _ _ _ _ _ _ _ _ fun t y => ?_
    repeat' split
    all_goals simp only [State.fail_fixed, State.done_fixed, fixed_foldl, State.unmapRange_fixed, implies_true]

theorem execFlush_fixed (h) (s : State) : Kept s (execFlush h s) := by
  refine onIo_fixed _ _ _ _ fun t => ?_
  split <;> simp only [State.fail_fixed, State.done_fixed]

/-! ### Machine/Staging -/

theorem State.grantSeg_fixed (s : State) (v) (j) (ch) : (State.grantSeg s v j ch).fixed = s.fixed := by
  simp only [State.grantSeg]
  repeat' split
  all_goals simp only [State.takeSeg_fixed, State.takeSeq_fixed, State.setSeg_fixed, State.startClock_fixed]

theorem State.storeSeg_fixed (s : State) (v) (g) (data) : (State.storeSeg s v g data).fixed = s.fixed := by
  unfold State.storeSeg; repeat' split
  all_goals simp only [fixed_sec]

theorem State.mirrorOut_fixed (s : State) (v) (g) (data) : (State.mirrorOut s v g data).fixed = s.fixed := by
  unfold State.mirrorOut; repeat' split
  all_goals simp only [State.toPeer_fixed]

theorem State.programSeg_fixed {s : State} {v} {j} {g} {t} (h : State.programSeg s v j g = some t) : t.fixed = s.fixed := by
  unfold State.programSeg at h
  extract_lets mine u at h
  have hu : u.fixed = s.fixed := State.setSeg_fixed _ _ _ _
  clear_value u
  split at h
  · cases h
  split at h
  · cases h
  next t1 e1 =>
  split at h
  · cases h
  next t2 e2 =>
    cases h
    simp only [fixed_ite, State.ackSeg_fixed, ite_self, State.closeFront_fixed e2, State.placePages_fixed e1, hu]

theorem State.releaseDirect_fixed (s : State) (v) (j) : (State.releaseDirect s v j).fixed = s.fixed := by
  unfold State.releaseDirect; repeat' split
  all_goals simp only [State.giveSeg_fixed, State.setSeg_fixed]

theorem State.twinSeg_fixed {s : State} {v} {j} {g} {t} (h : State.twinSeg s v j g = some t) : t.fixed = s.fixed := by
  unfold State.twinSeg at h
  repeat' split at h
  · exact State.programSeg_fixed h
  · cases h; exact State.setSeg_fixed _ _ _ _
  · cases h; simp only [State.setSeg_fixed, State.ackSeg_fixed, State.releaseDirect_fixed]

theorem State.truncateSeg_fixed (s : State) (v) (j) (k) (g) (data) (st) :
    (State.truncateSeg s v j k g data st).fixed = s.fixed := by
  unfold State.truncateSeg
  extract_lets n u w s1
  have h1 : s1.fixed = s.fixed := by simp only [s1, State.failWrite_fixed, State.setFlight_fixed]
  clear_value s1
  split
  · exact State.failWrite_fixed _ _ _ _ _
  · split
    · refine (fixed_getD fun _ h => State.twinSeg_fixed h).trans ?_
      simp only [State.setSeg_fixed, State.mirrorOut_fixed, State.storeSeg_fixed, h1]
    · exact h1

theorem State.transferSeg_fixed {s : State} {v} {j} {g} {data} {pi} {t} (h : State.transferSeg s v j g data pi = some t) :
    t.fixed = s.fixed := by
  unfold State.transferSeg at h
  extract_lets bytes at h
  split at h
  · extract_lets u at h
    have hu : u.fixed = s.fixed := by simp only [u, State.settleWrites_fixed, State.truncateSeg_fixed]
    clear_value u
    cases h
    split <;> simp only [State.settleZones_fixed, hu]
  · exact (State.twinSeg_fixed h).trans (by simp only [State.setSeg_fixed, State.mirrorOut_fixed, State.storeSeg_fixed])

theorem State.moveStaged_fixed {s : State} {x} {t} (h : State.moveStaged s x = some t) : t.fixed = s.fixed := by
  unfold State.moveStaged at h
  repeat' split at h
  · cases h; rfl
  · exact State.placePages_fixed h
  · cases h
  · exact State.placePages_fixed h

theorem State.dmaEvent_fixed (s : State) (channel) (status) (pasid) (comp) :
    (State.dmaEvent s channel status pasid comp).fixed = s.fixed := by
  simp only [State.dmaEvent, State.event_fixed]

theorem State.failTransfer_fixed (s : State) (v) (j) : (State.failTransfer s v j).fixed = s.fixed := by
  unfold State.failTransfer; repeat' split
  all_goals simp only [State.settleWrites_fixed, State.failSegment_fixed, State.settleZones_fixed]

theorem execSegmentGrant_fixed (flight) (seg) (s : State) : Kept s (execSegmentGrant flight seg s) := by
  unfold execSegmentGrant; repeat' split
  all_goals simp only [kept_next, kept_cannot, State.grantSeg_fixed]

theorem execSegmentTransferComplete_fixed (flight) (seg) (data) (pi) (s : State) :
    Kept s (execSegmentTransferComplete flight seg data pi s) := by
  simp only [execSegmentTransferComplete]
  repeat' split
  all_goals simp only [kept_next, kept_cannot]
  all_goals exact State.transferSeg_fixed ‹_›

theorem execDirtyLimitWaitEnd_fixed (flight) (seg) (s : State) : Kept s (execDirtyLimitWaitEnd flight seg s) := by
  simp only [execDirtyLimitWaitEnd]
  repeat' split
  all_goals simp only [kept_next, kept_cannot]
  all_goals exact State.twinSeg_fixed ‹_›

theorem execStagingSegmentRelease_fixed (flight) (seg) (s : State) : Kept s (execStagingSegmentRelease flight seg s) := by
  simp only [execStagingSegmentRelease]
  repeat' split
  all_goals simp only [fixed_sec, kept_next, kept_cannot, State.giveSeg_fixed]
  all_goals exact State.moveStaged_fixed ‹_›

theorem execHostDmaFault_fixed (channel) (status) (victim) (s : State) : Kept s (execHostDmaFault channel status victim s) := by
  unfold execHostDmaFault; repeat' split
  all_goals simp only [fixed_sec, implies_true, kept_next, kept_cannot, kept_arises, State.failTransfer_fixed,
    State.dmaEvent_fixed, State.killFlight_fixed, State.postTicket_fixed]

/-! ### Machine/LevelOps -/

theorem State.moveReel_fixed (s : State) (c) (d) : (State.moveReel s c d).fixed = s.fixed := by
  unfold State.moveReel; repeat' split
  all_goals simp only [fixed_sec, State.modInst_fixed, State.setKctx_fixed]

theorem State.moveOrStop_fixed (s : State) (c) (d) : (State.moveOrStop s c d).fixed = s.fixed := by
  unfold State.moveOrStop; repeat' split
  all_goals simp only [State.moveReel_fixed, State.stopReel_fixed, State.event_fixed, State.setKctx_fixed]

theorem State.relieve_fixed (s : State) (c) : (State.relieve s c).fixed = s.fixed := by
  unfold State.relieve; repeat' split
  all_goals simp only [State.event_fixed, State.moveReel_fixed, State.moveOrStop_fixed]

theorem State.stopMirrors_fixed (s : State) (f : Nat → Bool) : (State.stopMirrors s f).fixed = s.fixed := by rfl

theorem State.loseCaller_fixed (s0 : State) (n) : (State.loseCaller s0 n).fixed = s0.fixed := by
  simp only [State.loseCaller, fixed_sec, fixed_foldl, implies_true, State.stopMirrors_fixed, State.relieve_fixed]

theorem State.moveSegs_fixed (s : State) : (State.moveSegs s).fixed = s.fixed := by
  unfold State.moveSegs
  refine fixed_foldl _ (fun t v => fixed_foldl _ (fun t j => ?_) _ _) _ _
  dsimp only
  repeat' split
  all_goals simp only [State.setSeg_fixed]

theorem State.moveJobs_fixed (s : State) : (State.moveJobs s).fixed = s.fixed := by
  simp only [State.moveJobs, fixed_sec, fixed_foldl, implies_true, State.settleCodec_fixed, State.event_fixed]

theorem State.losePart_fixed (s : State) (r) : (State.losePart s r).fixed = s.fixed := by rfl

theorem State.takeReels_fixed (s : State) (r) : (State.takeReels s r).fixed = s.fixed := by
  unfold State.takeReels
  refine fixed_foldl _ (fun t c => ?_) _ _
  repeat' split
  all_goals simp only [State.moveOrStop_fixed]

theorem State.completeAll_fixed (s : State) : (State.completeAll s).fixed = s.fixed := by
  unfold State.completeAll
  extract_lets s1 s2
  have h1 : s1.fixed = s.fixed := by
    refine fixed_foldl _ (fun t v => ?_) _ _
    split <;> simp only [State.killFlight_fixed]
  have h2 : s2.fixed = s1.fixed := by
    refine fixed_foldl _ (fun t j => ?_) _ _
    split <;> simp only [State.fail_fixed]
  exact (fixed_foldl _ (fun t h => State.fail_fixed _ _ _) _ _).trans (h2.trans h1)

theorem State.markFailed_fixed (s : State) (kind) (inst) (cause) :
    (State.markFailed s kind inst cause).fixed = s.fixed := by rfl

theorem State.faultEvent_fixed (s : State) (kind) (inst) (cause) (moved) :
    (State.faultEvent s kind inst cause moved).fixed = s.fixed := by
  simp only [State.faultEvent, State.event_fixed]

theorem State.faultFree_fixed (s : State) (kind) (inst) (cause) : (State.faultFree s kind inst cause).fixed = s.fixed := by
  simp only [State.faultFree, State.draw_fixed, State.faultEvent_fixed]

theorem State.loseCluster_fixed (s : State) (k) : (State.loseCluster s k).fixed = s.fixed := by
  simp only [State.loseCluster, fixed_sec, State.loseDies_fixed]

theorem State.unitFault_fixed {s : State} {kind} {inst} {cause} {t} (h : State.unitFault s kind inst cause = some t) :
    t.fixed = s.fixed := by
  unfold State.unitFault at h
  extract_lets at h
  repeat' split at h
  all_goals cases h
  all_goals simp +zetaDelta only [fixed_sec, fixed_ite, ite_self, State.faultFree_fixed, State.markFailed_fixed,
    State.loseChannel_fixed, State.loseCaller_fixed, State.faultEvent_fixed, State.draw_fixed, State.moveSegs_fixed,
    State.moveJobs_fixed, State.loseCluster_fixed]

theorem State.xbarLoss_fixed (s : State) (k) (r) : (State.xbarLoss s k r).fixed = s.fixed := by rfl

/-! ### Machine/Windows -/

theorem State.reportDemand_fixed (s : State) : (State.reportDemand s).fixed = s.fixed := by rfl

theorem State.judgePower_fixed (s : State) (pAvg) : (State.judgePower s pAvg).fixed = s.fixed := by
  simp only [State.judgePower, fixed_sec, fixed_ite, ite_self, State.event_fixed]

theorem State.liftFanFloor_fixed (s : State) : (State.liftFanFloor s).fixed = s.fixed := by
  simp only [State.liftFanFloor, fixed_sec, fixed_ite, ite_self, State.event_fixed]

theorem State.renewCredit_fixed (s : State) : (State.renewCredit s).fixed = s.fixed := by rfl

theorem State.measureDaily_fixed (s : State) : (State.measureDaily s).fixed = s.fixed := by
  simp only [State.measureDaily, fixed_ite, ite_self, State.startMeasurement_fixed]

theorem State.windowEdge_fixed (s : State) : (State.windowEdge s).fixed = s.fixed := by
  simp only [State.windowEdge, fixed_sec, State.measureDaily_fixed, State.liftFanFloor_fixed, State.applyMode_fixed,
    State.reportDemand_fixed, State.startClock_fixed, State.renewCredit_fixed, State.apportionProg_fixed,
    State.apportionPower_fixed, State.trimSlots_fixed]

theorem State.openWindow_fixed (s : State) (pAvg) (iIn) : (State.openWindow s pAvg iIn).fixed = s.fixed := by
  simp only [State.openWindow, fixed_sec, State.judgePower_fixed, State.windowEdge_fixed]

theorem execCreditWindowBoundary_fixed (pAvg) (iIn) (s : State) : Kept s (execCreditWindowBoundary pAvg iIn s) := by
  simp only [execCreditWindowBoundary, implies_true, kept_arises, State.openWindow_fixed, State.advanceTo_fixed]

theorem execClockIdleStop_fixed (domain) (s : State) : Kept s (execClockIdleStop domain s) := by
  simp only [execClockIdleStop, fixed_sec, implies_true, kept_arises]

/-! ### Machine/Thermal -/

theorem State.withThresholds_fixed (s : State) (f : State → State) (hf : ∀ t, (f t).fixed = t.fixed) :
    (State.withThresholds s f).fixed = s.fixed := by
  simp only [State.withThresholds, fixed_ite, ite_self, State.warning_fixed, hf]

theorem State.setLevel_fixed (s : State) (lvl) (source) (temp) : (State.setLevel s lvl source temp).fixed = s.fixed := by
  simp only [State.setLevel, fixed_sec, fixed_ite, ite_self, State.event_fixed]

theorem State.setStep_fixed (s : State) (n) : (State.setStep s n).fixed = s.fixed := by
  simp only [State.setStep, fixed_sec, fixed_ite, ite_self, State.lowerPower_fixed, State.event_fixed]

theorem State.fansFull_fixed (s : State) : (State.fansFull s).fixed = s.fixed := by
  simp only [State.fansFull, fixed_sec, fixed_ite, ite_self]

theorem State.enterNotice_fixed (s : State) (k) (temp) (stamp) : (State.enterNotice s k temp stamp).fixed = s.fixed := by
  unfold State.enterNotice
  extract_lets m1 s1 s2
  have h2 : s2.fixed = s.fixed := by simp only [s2, s1, State.fansFull_fixed, State.warning_fixed, State.setLevel_fixed,
    fixed_mk]
  clear_value s2
  split
  · next h => exact (State.wakeFired_fixed h).trans h2
  · exact h2

theorem State.excludeSensor_fixed (s : State) (i) (temp) (med) : (State.excludeSensor s i temp med).fixed = s.fixed := by
  simp only [State.excludeSensor, fixed_sec, State.event_fixed]

theorem State.judgeSensor_fixed (rs) (s : State) (r) : (State.judgeSensor rs s r).fixed = s.fixed := by
  simp only [State.judgeSensor, fixed_sec, fixed_ite, ite_self, State.excludeSensor_fixed]

theorem State.endWindow_fixed (s : State) (at_) : (State.endWindow s at_).fixed = s.fixed := by
  simp only [State.endWindow]
  repeat' split
  all_goals simp only [fixed_sec, State.advanceTo_fixed, State.setStep_fixed, State.setLevel_fixed]

theorem execBoardSensorReading_fixed (temps) (s : State) : Kept s (execBoardSensorReading temps s) := by
  simp only [execBoardSensorReading, fixed_sec, implies_true, kept_arises, State.withThresholds_fixed, State.startClock_fixed]

theorem execGraceWindowEnd_fixed (s : State) : Kept s (execGraceWindowEnd s) := by
  unfold execGraceWindowEnd; repeat' split
  all_goals simp only [kept_next, kept_cannot, State.endWindow_fixed]

/-! ### Machine/AdminData -/

theorem State.logData_fixed {s : State} {h : HostCmd} {lid : Nat} {bs : List Byte} {t : State} (hd : s.logData h lid = .ok
    (bs, t)) :
    t.fixed = s.fixed := by
  unfold State.logData at hd
  repeat' split at hd
  all_goals
    simp only [Except.ok.injEq, Prod.mk.injEq, reduceCtorEq] at hd
  all_goals
    obtain ⟨-, rfl⟩ := hd
    rfl

/-! ### Machine/AdminOps -/

theorem State.gated_fixed (s : State) (h) (r) (f : State → State) (hf : ∀ t, (f t).fixed = t.fixed) :
    (State.gated s h r f).fixed = s.fixed := by
  unfold State.gated; repeat' split
  all_goals simp only [State.fail_fixed, State.countRefused_fixed, hf]

theorem admin_fixed (name) (h) (r) (s : State) (f : State → State) (hf : ∀ t, (f t).fixed = t.fixed) :
    Kept s (admin name h r s f) := by
  simp only [admin, implies_true, onAdmin_fixed, State.gated_fixed, hf]

/-! ### Machine/CompartOps -/

theorem State.mute_fixed (s : State) (f : HostCmd → Bool) : (State.mute s f).fixed = s.fixed := by rfl

theorem State.squashJobs_fixed (f : HostCmd → Bool) : ∀ (n : Nat) (s : State), (State.squashJobs f n s).fixed = s.fixed
  | 0, _ => rfl
  | n + 1, s => by
    unfold State.squashJobs
    split
    · simp only [State.squashJobs_fixed f n, State.dropJob_fixed]
    · rfl

theorem State.squashFlight_fixed (s : State) (v) : (State.squashFlight s v).fixed = s.fixed := by
  unfold State.squashFlight; repeat' split
  all_goals simp only [State.killFlight_fixed, State.settleWrites_fixed, State.failWrite_fixed, State.settleZones_fixed]

theorem State.squash_fixed (s : State) (f : HostCmd → Bool) : (State.squash s f).fixed = s.fixed := by
  unfold State.squash
  extract_lets hit ids c1 s1 s2 s3
  have h3 : s3.fixed = s.fixed := by
    refine (fixed_foldl _ (fun t i => ?_) _ _).trans (by simp only [s2, s1, State.squashJobs_fixed, fixed_mk])
    split <;> simp only [State.squashFlight_fixed]
  clear_value s3
  simp only [State.settleCodec_fixed, State.mute_fixed, h3]

theorem State.squashComp_fixed (s : State) (n) : (State.squashComp s n).fixed = s.fixed := by
  simp only [State.squashComp, State.squash_fixed, State.setComp_fixed]

theorem State.afterReset_fixed (s : State) (n) (k) : (State.afterReset s n k).fixed = s.fixed := by
  unfold State.afterReset; repeat' split
  all_goals simp only [State.done_fixed, State.freeComp_fixed]

theorem State.endReset_fixed (s : State) (n) : (State.endReset s n).fixed = s.fixed := by
  simp only [State.endReset]
  repeat' split
  all_goals simp only [fixed_sec, fixed_foldl, implies_true, State.uncoupleNow_fixed, State.settleDeletes_fixed,
    State.stopZone_fixed, State.freeCompBufs_fixed, State.setComp_fixed, State.event_fixed, State.compState_fixed,
    State.done_fixed, State.stopCheck_fixed, State.journal_fixed, State.settleControl_fixed, State.afterReset_fixed]

/-! ### Machine/Compart -/

theorem State.disablePort_fixed (s : State) (p) : (State.disablePort s p).fixed = s.fixed := by
  simp only [State.disablePort, State.setPort_fixed]

theorem State.losePort_fixed (s : State) (p) (cause) : (State.losePort s p cause).fixed = s.fixed := by
  simp only [State.losePort, fixed_sec, fixed_foldl, implies_true, State.setPort_fixed, State.event_fixed,
    State.beginReset_fixed, State.disablePort_fixed]

theorem State.controllerEn_fixed (s : State) (p) (en) : (State.controllerEn s p en).fixed = s.fixed := by
  simp only [State.controllerEn, fixed_ite, ite_self, State.setPort_fixed, State.disablePort_fixed]

theorem State.compartmentEn_fixed (s : State) (p) (n) (en) : (State.compartmentEn s p n en).fixed = s.fixed := by
  simp only [State.compartmentEn, fixed_sec, fixed_ite, ite_self, State.setComp_fixed, State.beginReset_fixed]

theorem State.setRing_fixed (s : State) (h) (r) : (State.setRing s h r).fixed = s.fixed := by
  simp only [State.setRing, fixed_sec, fixed_ite, ite_self]

theorem execPortLinkUp_fixed (port) (rate) (width) (s : State) : Kept s (execPortLinkUp port rate width s) := by
  simp only [execPortLinkUp, fixed_ite, ite_self, implies_true, kept_arises, State.event_fixed, State.setPort_fixed]

theorem execPortLost_fixed (port) (cause) (s : State) : Kept s (execPortLost port cause s) := by
  simp only [execPortLost, implies_true, kept_arises, State.losePort_fixed]

theorem execControllerEnable_fixed (port) (s : State) : Kept s (execControllerEnable port s) := by
  simp only [execControllerEnable, implies_true, kept_arises, State.controllerEn_fixed]

theorem execControllerDisable_fixed (port) (s : State) : Kept s (execControllerDisable port s) := by
  simp only [execControllerDisable, implies_true, kept_arises, State.controllerEn_fixed]

theorem execCompartmentEnSet_fixed (port) (comp) (s : State) : Kept s (execCompartmentEnSet port comp s) := by
  simp only [execCompartmentEnSet, fixed_ite, ite_self, implies_true, kept_arises, State.compartmentEn_fixed]

theorem execCompartmentEnClear_fixed (port) (comp) (s : State) : Kept s (execCompartmentEnClear port comp s) := by
  simp only [execCompartmentEnClear, fixed_ite, ite_self, implies_true, kept_arises, State.compartmentEn_fixed]

theorem execSquashInstant_fixed (who) (s : State) : Kept s (execSquashInstant who s) := by
  unfold execSquashInstant; repeat' split
  all_goals simp only [fixed_sec, implies_true, kept_cannot, kept_arises, State.squashComp_fixed, State.advanceTo_fixed,
    State.squash_fixed, State.stopCheck_fixed, State.setPort_fixed]

theorem execCompartmentResetComplete_fixed (comp) (s : State) : Kept s (execCompartmentResetComplete comp s) := by
  unfold execCompartmentResetComplete; repeat' split
  all_goals simp only [implies_true, kept_cannot, kept_arises, State.endReset_fixed]

theorem execCompartmentFreezeComplete_fixed (comp) (s : State) : Kept s (execCompartmentFreezeComplete comp s) := by
  simp only [execCompartmentFreezeComplete, kept_arises, State.journal_fixed, State.settleControl_fixed]
  repeat' split
  all_goals simp only [implies_true, State.compState_fixed, State.setComp_fixed, State.done_fixed]

theorem execCarriageDrainComplete_fixed (idx) (s : State) : Kept s (execCarriageDrainComplete idx s) := by
  simp only [execCarriageDrainComplete, implies_true, kept_arises, State.stopCheck_fixed, State.settleDeletes_fixed,
    State.uncoupleNow_fixed]

theorem compartmentControl_fixed (name) (h) (comp) (ok) (op) (s : State) : Kept s (compartmentControl name h comp ok op s) := by
  simp only [compartmentControl, fixed_ite, ite_self, implies_true, admin_fixed, State.control_fixed, State.fail_fixed]

theorem execCompartmentCreate_fixed (h) (comp) (port) (s : State) : Kept s (execCompartmentCreate h comp port s) := by
  simp only [execCompartmentCreate, compartmentControl_fixed]

theorem execCompartmentDelete_fixed (h) (comp) (s : State) : Kept s (execCompartmentDelete h comp s) := by
  simp only [execCompartmentDelete, compartmentControl_fixed]

theorem execMapPasid_fixed (h) (comp) (pasid) (port) (s : State) : Kept s (execMapPasid h comp pasid port s) := by
  simp only [execMapPasid, compartmentControl_fixed]

theorem execUnmapPasid_fixed (h) (comp) (pasid) (port) (s : State) : Kept s (execUnmapPasid h comp pasid port s) := by
  simp only [execUnmapPasid, compartmentControl_fixed]

theorem execCompartmentReset_fixed (h) (comp) (s : State) : Kept s (execCompartmentReset h comp s) := by
  simp only [execCompartmentReset, compartmentControl_fixed]

theorem execCompartmentFreeze_fixed (h) (comp) (s : State) : Kept s (execCompartmentFreeze h comp s) := by
  simp only [execCompartmentFreeze, compartmentControl_fixed]

theorem execCompartmentThaw_fixed (h) (comp) (s : State) : Kept s (execCompartmentThaw h comp s) := by
  simp only [execCompartmentThaw, compartmentControl_fixed]

theorem execCompartmentSave_fixed (h) (comp) (bytes) (s : State) : Kept s (execCompartmentSave h comp bytes s) := by
  simp only [execCompartmentSave, compartmentControl_fixed]

theorem execCompartmentRestore_fixed (h) (params) (record) (s : State) : Kept s (execCompartmentRestore h params record s) := by
  simp only [execCompartmentRestore, compartmentControl_fixed]

theorem execEventRingSetup_fixed (h) (r) (s : State) : Kept s (execEventRingSetup h r s) := by
  simp only [execEventRingSetup, fixed_ite, ite_self, implies_true, admin_fixed, State.done_fixed, State.setRing_fixed,
    State.fail_fixed]

theorem execEventRingClose_fixed (h) (s : State) : Kept s (execEventRingClose h s) := by
  simp only [execEventRingClose, implies_true, admin_fixed, State.done_fixed, State.setRing_fixed]

/-! ### Machine/TimeBase -/

theorem State.saturate_fixed (s : State) : (State.saturate s).fixed = s.fixed := by
  simp only [State.saturate, fixed_sec, fixed_ite, ite_self, State.event_fixed]

theorem State.pulse_fixed (s : State) : (State.pulse s).fixed = s.fixed := by rfl

theorem State.stepTime_fixed (s : State) (t) : (State.stepTime s t).fixed = s.fixed := by
  simp only [State.stepTime, fixed_sec, fixed_ite, ite_self, State.saturate_fixed, State.event_fixed, State.pulse_fixed,
    State.windowEdge_fixed]

theorem State.setSeconds_fixed (s : State) (sec) : (State.setSeconds s sec).fixed = s.fixed := by
  simp only [State.setSeconds, fixed_sec, State.stepTime_fixed]

theorem State.setStamp_fixed (s : State) (ms) : (State.setStamp s ms).fixed = s.fixed := by
  simp only [State.setStamp, fixed_sec, fixed_ite, ite_self, State.stepTime_fixed, State.setSeconds_fixed]

theorem State.learnFreq_fixed (s : State) : (State.learnFreq s).fixed = s.fixed := by rfl

theorem State.judgeEdge_fixed (s : State) (stamp) (err) : (State.judgeEdge s stamp err).fixed = s.fixed := by
  simp only [State.judgeEdge, fixed_sec, fixed_ite, ite_self, State.stepTime_fixed]

theorem State.edge_fixed (s : State) (stamp) : (State.edge s stamp).fixed = s.fixed := by
  unfold State.edge; repeat' split
  all_goals simp only [fixed_sec, fixed_ite, ite_self, State.learnFreq_fixed, State.stepTime_fixed, State.judgeEdge_fixed,
    State.event_fixed]

theorem State.edgeAsleep_fixed (name) (s : State) (accepted) : Kept s (State.edgeAsleep name s accepted) := by
  unfold State.edgeAsleep
  have woken : ((s.wakeFired 0x10).getD s).fixed = s.fixed := fixed_getD fun _ h => State.wakeFired_fixed h
  split
  · simp only [kept_next, fixed_ite, woken, ite_self]
  · simp only [kept_next, fixed_ite, woken, ite_self]
  · trivial

theorem execPpsEdge_fixed (stamp) (s : State) : Kept s (execPpsEdge stamp s) := by
  unfold execPpsEdge; repeat' split
  all_goals simp only [fixed_sec, implies_true, kept_arises, State.startClock_fixed, State.advanceTo_fixed,
    State.edgeAsleep_fixed, State.leadChanged_fixed, State.edge_fixed]

theorem execPpsEdgeDiscarded_fixed (highNs) (lowNs) (s : State) : Kept s (execPpsEdgeDiscarded highNs lowNs s) := by
  simp only [execPpsEdgeDiscarded, implies_true, kept_ite, kept_arises, and_self, State.edgeAsleep_fixed, State.event_fixed]

theorem execPpsLoss_fixed (s : State) : Kept s (execPpsLoss s) := by
  unfold execPpsLoss; repeat' split
  all_goals simp only [fixed_sec, implies_true, kept_arises, State.advanceTo_fixed, State.event_fixed, State.leadChanged_fixed]

theorem execSecSuspectLimit_fixed (s : State) : Kept s (execSecSuspectLimit s) := by
  simp only [execSecSuspectLimit, fixed_sec, implies_true, kept_arises]

theorem execPtmDialog_fixed (master) (s : State) : Kept s (execPtmDialog master s) := by
  unfold execPtmDialog; repeat' split
  all_goals simp only [fixed_sec, fixed_ite, ite_self, implies_true, kept_arises]

theorem execTimNowSaturation_fixed (s : State) : Kept s (execTimNowSaturation s) := by
  simp only [execTimNowSaturation, implies_true, kept_arises, State.saturate_fixed]

theorem execPpsOutPulse_fixed (s : State) : Kept s (execPpsOutPulse s) := by
  simp only [execPpsOutPulse, implies_true, kept_arises, State.pulse_fixed, State.advanceTo_fixed]

theorem execPpsOutPulseEnd_fixed (s : State) : Kept s (execPpsOutPulseEnd s) := by
  simp only [execPpsOutPulseEnd, fixed_sec, implies_true, kept_arises]

/-! ### Machine/Admin -/

theorem State.ignoreDoorbell_fixed (s : State) (comp) (qid) (value) :
    (State.ignoreDoorbell s comp qid value).fixed = s.fixed := by
  simp only [State.ignoreDoorbell, State.event_fixed, State.compIrq_fixed]

theorem State.doorbell_fixed (s : State) (port) (comp) (qid) (value) (sq) :
    (State.doorbell s port comp qid value sq).fixed = s.fixed := by
  simp only [State.doorbell, fixed_ite, ite_self, State.modQueues_fixed, State.activity_fixed, State.ignoreDoorbell_fixed]

theorem execSqTailDoorbell_fixed (port) (comp) (qid) (value) (s : State) :
    Kept s (execSqTailDoorbell port comp qid value s) := by
  simp only [execSqTailDoorbell, implies_true, kept_arises, State.doorbell_fixed]

theorem execCqHeadDoorbell_fixed (port) (comp) (qid) (value) (s : State) :
    Kept s (execCqHeadDoorbell port comp qid value s) := by
  simp only [execCqHeadDoorbell, implies_true, kept_arises, State.doorbell_fixed]

theorem execIdentify_fixed (h) (cns) (csi) (cntid) (s : State) : Kept s (execIdentify h cns csi cntid s) := by
  refine admin_fixed _ _ _ _ _ fun t => ?_
  split <;> simp only [State.fail_fixed, State.done_fixed, State.emit_fixed]

theorem execGetLogPage_fixed (h) (lid) (off) (bytes) (s : State) : Kept s (execGetLogPage h lid off bytes s) := by
  refine admin_fixed _ _ _ _ _ fun t => ?_
  split
  · next hd =>
    have ht := State.logData_fixed hd
    split
    · exact State.fail_fixed _ _ _
    · simp only [State.done_fixed, State.emit_fixed, ht]
  · exact State.fail_fixed _ _ _

theorem State.createQueue_fixed (s : State) (h) (q) (sq) : (State.createQueue s h q sq).fixed = s.fixed := by
  unfold State.createQueue; repeat' split
  all_goals simp only [fixed_sec, State.fail_fixed, State.done_fixed]

theorem State.deleteQueue_fixed (s : State) (h) (qid) (sq) : (State.deleteQueue s h qid sq).fixed = s.fixed := by
  simp only [State.deleteQueue, fixed_sec, fixed_ite, ite_self, State.fail_fixed, State.done_fixed]

theorem execCreateIoSq_fixed (h) (q) (s : State) : Kept s (execCreateIoSq h q s) := by
  simp only [execCreateIoSq, implies_true, admin_fixed, State.createQueue_fixed]

theorem execCreateIoCq_fixed (h) (q) (s : State) : Kept s (execCreateIoCq h q s) := by
  simp only [execCreateIoCq, implies_true, admin_fixed, State.createQueue_fixed]

theorem execDeleteIoSq_fixed (h) (qid) (s : State) : Kept s (execDeleteIoSq h qid s) := by
  simp only [execDeleteIoSq, implies_true, admin_fixed, State.deleteQueue_fixed]

theorem execDeleteIoCq_fixed (h) (qid) (s : State) : Kept s (execDeleteIoCq h qid s) := by
  simp only [execDeleteIoCq, implies_true, admin_fixed, State.deleteQueue_fixed]

theorem State.dropAers_fixed (s : State) (h) (f : HostCmd → Bool) : (State.dropAers s h f).fixed = s.fixed := by
  simp only [State.dropAers, fixed_sec, fixed_ite, ite_self, State.setPort_fixed]

theorem State.dropControl_fixed (s : State) (f : HostCmd → Bool) : (State.dropControl s f).fixed = s.fixed := by rfl

theorem State.nextAsync_fixed {s : State} {h} {i t} (h : State.nextAsync s h = some (i, t)) : t.fixed = s.fixed := by
  unfold State.nextAsync at h
  repeat' split at h
  all_goals cases h
  all_goals simp only [fixed_sec, State.setPort_fixed]

theorem execAbort_fixed (h) (sqid) (cid) (s : State) : Kept s (execAbort h sqid cid s) := by
  refine admin_fixed _ _ _ _ _ fun t => ?_
  dsimp only
  split <;> simp only [State.fail_fixed, State.done_fixed, State.dropControl_fixed, State.dropAers_fixed]

theorem execAsynchronousEventRequest_fixed (h) (s : State) : Kept s (execAsynchronousEventRequest h s) := by
  refine admin_fixed _ _ _ _ _ fun t => ?_
  split
  · next h => simp only [State.done_fixed, State.nextAsync_fixed h]
  · simp only [fixed_ite, State.fail_fixed, State.setPort_fixed, fixed_mk, ite_self]

theorem State.modFeat_fixed (s : State) (h) (f : Features → Features) : (State.modFeat s h f).fixed = s.fixed := by
  simp only [State.modFeat, fixed_sec, fixed_ite, ite_self, State.setPort_fixed]

theorem State.steward_fixed (s : State) (h) (f : State → State) (hf : ∀ t, (f t).fixed = t.fixed) :
    (State.steward s h f).fixed = s.fixed := by
  simp only [State.steward, fixed_ite, ite_self, State.fail_fixed, hf]

theorem State.featureValue_fixed {s : State} {h : HostCmd} {fid : Nat} {arg : BitVec 32} {n : Nat} {bs : List Byte} {t : State}
    (hv : s.featureValue h fid arg = .ok (n, bs, t)) : t.fixed = s.fixed := by
  unfold State.featureValue at hv
  extract_lets f a k m at hv
  repeat' split at hv
  all_goals
    simp only [Except.ok.injEq, Prod.mk.injEq, reduceCtorEq] at hv
  all_goals
    obtain ⟨-, -, rfl⟩ := hv
    rfl

theorem execGetFeatures_fixed (h) (fid) (arg) (s : State) : Kept s (execGetFeatures h fid arg s) := by
  refine admin_fixed _ _ _ _ _ fun t => ?_
  split
  · next hv => simp only [State.done_fixed, fixed_ite, State.emit_fixed, State.featureValue_fixed hv, ite_self]
  · exact State.fail_fixed _ _ _

theorem execSetPowerManagement_fixed (h) (ps) (s : State) : Kept s (execSetPowerManagement h ps s) := by
  refine admin_fixed _ _ _ _ _ fun t => State.steward_fixed _ _ _ fun u => ?_
  split <;> simp only [fixed_mk, State.beginEntry_fixed, State.fail_fixed]

theorem execSetTemperatureThreshold_fixed (h) (tmpth) (sensor) (under) (s : State) :
    Kept s (execSetTemperatureThreshold h tmpth sensor under s) := by
  refine admin_fixed _ _ _ _ _ fun t => State.steward_fixed _ _ _ fun u => ?_
  split
  · exact State.fail_fixed _ _ _
  · exact (State.done_fixed _ _ _).trans (State.withThresholds_fixed _ _ fun _ => State.modFeat_fixed _ _ _)

theorem execSetNumberOfQueues_fixed (h) (nsq) (ncq) (s : State) : Kept s (execSetNumberOfQueues h nsq ncq s) := by
  simp only [execSetNumberOfQueues, fixed_ite, ite_self, implies_true, admin_fixed, State.fail_fixed, State.done_fixed,
    State.draw_fixed, State.modFeat_fixed]

theorem execSetInterruptCoalescing_fixed (h) (value) (s : State) : Kept s (execSetInterruptCoalescing h value s) := by
  simp only [execSetInterruptCoalescing, implies_true, admin_fixed, State.done_fixed, State.modFeat_fixed]

theorem execSetInterruptVectorConfiguration_fixed (h) (iv) (cd) (s : State) :
    Kept s (execSetInterruptVectorConfiguration h iv cd s) := by
  simp only [execSetInterruptVectorConfiguration, fixed_ite, ite_self, implies_true, admin_fixed, State.steward_fixed,
    State.fail_fixed, State.done_fixed, State.modFeat_fixed]

theorem execSetAsyncEventConfiguration_fixed (h) (value) (s : State) : Kept s (execSetAsyncEventConfiguration h value s) := by
  simp only [execSetAsyncEventConfiguration, implies_true, admin_fixed, State.done_fixed, State.modFeat_fixed]

theorem execSetTimestamp_fixed (h) (ms) (s : State) : Kept s (execSetTimestamp h ms s) := by
  simp only [execSetTimestamp, implies_true, admin_fixed, State.steward_fixed, State.done_fixed, State.setStamp_fixed]

theorem execSetFeaturesUnsupported_fixed (h) (fid) (s : State) : Kept s (execSetFeaturesUnsupported h fid s) := by
  simp only [execSetFeaturesUnsupported, implies_true, kept_cannot, kept_ite, and_self, admin_fixed, State.fail_fixed]

theorem execFirmwareCommit_fixed (h) (s : State) : Kept s (execFirmwareCommit h s) := by
  simp only [execFirmwareCommit, implies_true, onAdmin_fixed, State.fail_fixed]

theorem execFirmwareImageDownload_fixed (h) (s : State) : Kept s (execFirmwareImageDownload h s) := by
  simp only [execFirmwareImageDownload, implies_true, onAdmin_fixed, State.fail_fixed]

theorem execInvalidCommandOpcode_fixed (h) (opcode) (io) (s : State) : Kept s (execInvalidCommandOpcode h opcode io s) := by
  unfold execInvalidCommandOpcode; repeat' split
  all_goals simp only [fixed_ite, ite_self, implies_true, kept_cannot, State.fail_fixed, onIo_fixed, onAdmin_fixed]

/-! ### Machine/Boot -/

theorem State.fuseStep_fixed (s : State) (a) (b) (c) : (State.fuseStep s a b c).fixed = s.fixed := by rfl

theorem State.repairStep_fixed (s : State) : (State.repairStep s).fixed = s.fixed := by rfl

theorem State.selfTestWord_fixed (s : State) (macro_) (word) (o) : (State.selfTestWord s macro_ word o).fixed = s.fixed := by
  unfold State.selfTestWord
  repeat' split
  · simp only [State.event_fixed, fixed_mk]
  · exact fixed_getD fun _ h => State.unitFault_fixed h
  · exact State.discardEntry_fixed _ _

theorem State.selfTestStep_fixed (s : State) (words) (checkers) : (State.selfTestStep s words checkers).fixed = s.fixed := by
  unfold State.selfTestStep
  split
  · simp only [fixed_mk]
  · extract_lets t u
    have ht : t.fixed = s.fixed := by
      simp only [t, fixed_foldl, State.selfTestWord_fixed, State.repairStep_fixed, implies_true]
    have hu : u.fixed = t.fixed := fixed_foldl _ (fun t c => fixed_getD fun _ h => State.unitFault_fixed h) _ _
    rw [fixed_mk]
    exact hu.trans ht

theorem State.dramStep_fixed (s : State) (badDevices) (badChannels) :
    (State.dramStep s badDevices badChannels).fixed = s.fixed := by
  simp only [State.dramStep, fixed_sec, fixed_ite, fixed_foldl, ite_self, implies_true, State.event_fixed,
    State.regionOut_fixed]

theorem State.resumeSanitize_fixed (s : State) : (State.resumeSanitize s).fixed = s.fixed := by
  simp only [State.resumeSanitize, fixed_sec, fixed_ite, ite_self, State.event_fixed]

theorem State.parkStep_fixed (s : State) : (State.parkStep s).fixed = s.fixed := by
  simp only [State.parkStep, fixed_ite, ite_self, State.event_fixed, State.resumeSanitize_fixed]
  repeat' split
  all_goals simp only [fixed_sec, State.apportionProg_fixed, State.apportionPower_fixed, State.event_fixed]

theorem execPowerOn_fixed (vIn) (pwrEn) (restored) (s : State) : Kept s (execPowerOn vIn pwrEn restored s) := by
  simp only [execPowerOn, fixed_sec, implies_true, kept_arises]

theorem execBootStepStall_fixed (s : State) : Kept s (execBootStepStall s) := by
  simp only [execBootStepStall, fixed_sec, implies_true, kept_arises]

theorem execPerstRelease_fixed (port) (s : State) : Kept s (execPerstRelease port s) := by
  simp only [execPerstRelease, implies_true, kept_arises, State.setPort_fixed]

theorem execConfigurationRequest_fixed (port) (s : State) : Kept s (execConfigurationRequest port s) := by
  simp only [execConfigurationRequest, implies_true, kept_arises, State.emit_fixed]

/-! ### Machine/Codec -/

theorem State.addJob_fixed (s : State) (j) : (State.addJob s j).fixed = s.fixed := by
  simp only [State.addJob, fixed_sec, State.settleCodec_fixed]

theorem State.refuseCodec_fixed (s : State) (h) (st) : (State.refuseCodec s h st).fixed = s.fixed := by
  simp only [State.refuseCodec, fixed_ite, ite_self, State.refuseFrozen_fixed, State.fail_fixed]

theorem State.admitFrame_fixed (s : State) (h) (t) (z) (rawLen) (limit) (desc) (raw) :
    (State.admitFrame s h t z rawLen limit desc raw).fixed = s.fixed := by
  unfold State.admitFrame; repeat' split
  all_goals simp only [fixed_ite, ite_self, State.fail_fixed, State.addJob_fixed, State.setCarriage_fixed]

theorem State.placeRecord_fixed (s : State) (i) (j) (cmd) (carriage) (cls) (z) (admittedAt) (key) (record) (st) :
    (State.placeRecord s i j cmd carriage cls z admittedAt key record st).fixed = s.fixed := by
  unfold State.placeRecord
  extract_lets s0 per units
  have h0 : s0.fixed = s.fixed := State.dropJob_fixed _ _
  clear_value s0
  repeat' split
  · simp only [State.settleCodec_fixed, State.fail_fixed, h0]
  · simp only [State.settleCodec_fixed, State.fail_fixed, h0]
  · simp only [State.settleCodec_fixed, State.refuseCodec_fixed, h0]
  all_goals
    simp only [State.settleCodec_fixed, fixed_mk, State.addFlight_fixed]
    exact (State.admitWrite_fixed ‹_›).trans h0

theorem State.codedFrame_fixed (s : State) (i) (j) (cmd) (band) (raw) (limit) (carriage) (cls) (z) (admittedAt) (key) :
    (State.codedFrame s i j cmd band raw limit carriage cls z admittedAt key).fixed = s.fixed := by
  unfold State.codedFrame; repeat' split
  all_goals simp only [fixed_ite, ite_self, State.settleCodec_fixed, State.fail_fixed, State.dropJob_fixed,
    State.placeRecord_fixed]

theorem State.endFrameRead_fixed (s : State) (v) (st) (dw0) : (State.endFrameRead s v st dw0).fixed = s.fixed := by
  unfold State.endFrameRead; repeat' split
  all_goals simp only [State.removeFlight_fixed, State.complete_fixed, State.count_fixed, State.settleZones_fixed,
    State.releaseLeft_fixed, State.retireRead_fixed]

theorem State.decodedFrame_fixed (s : State) (j) (v) (recLen) (bufBytes) :
    (State.decodedFrame s j v recLen bufBytes).fixed = s.fixed := by
  simp only [State.decodedFrame, fixed_ite, State.endFrameRead_fixed]
  repeat' split
  all_goals simp only [State.endFrameRead_fixed, State.event_fixed, State.setCodecState_fixed, State.emit_fixed]

theorem State.admitFrameRead_fixed (s : State) (h) (t) (z) (recLen) (ctx) (bufBytes) :
    (State.admitFrameRead s h t z recLen ctx bufBytes).fixed = s.fixed := by
  unfold State.admitFrameRead; repeat' split
  all_goals simp only [fixed_ite, ite_self, State.fail_fixed, State.addJob_fixed, State.addFlight_fixed,
    State.settleRead_fixed, State.scheduleSenses_fixed]

theorem execFrameAppend_fixed (h) (zslba) (rawLen) (limit) (desc) (raw) (s : State) :
    Kept s (execFrameAppend h zslba rawLen limit desc raw s) := by
  unfold execFrameAppend
  split
  · trivial
  · refine onIo_fixed _ _ _ _ fun t => ?_
    split
    · exact State.refuseCodec_fixed _ _ _
    · refine State.onZone_fixed _ _ _ _ _ _ _ fun t y z => ?_
      simp only [fixed_ite, State.fail_fixed, State.admitFrame_fixed, ite_self]

theorem execFrameCodingComplete_fixed (lane) (s : State) : Kept s (execFrameCodingComplete lane s) := by
  unfold execFrameCodingComplete; repeat' split
  all_goals simp only [implies_true, kept_cannot, kept_arises, State.codedFrame_fixed, State.decodedFrame_fixed]

theorem execFrameRead_fixed (h) (slba) (recLen) (ctx) (bufBytes) (s : State) :
    Kept s (execFrameRead h slba recLen ctx bufBytes s) := by
  refine onIo_fixed _ _ _ _ fun t => ?_
  split
  · exact State.refuseCodec_fixed _ _ _
  · exact State.onZone_fixed _ _ _ _ _ _ _ fun t y z => State.admitFrameRead_fixed _ _ _ _ _ _ _

theorem execCodecStateSave_fixed (h) (ctx) (s : State) : Kept s (execCodecStateSave h ctx s) := by
  refine onIo_fixed _ _ _ _ fun t => ?_
  split <;> simp only [State.refuseCodec_fixed, State.addJob_fixed]

theorem execCodecStateRestore_fixed (h) (ctx) (record) (s : State) : Kept s (execCodecStateRestore h ctx record s) := by
  refine onIo_fixed _ _ _ _ fun t => ?_
  split <;> simp only [State.refuseCodec_fixed, State.addJob_fixed]

/-! ### Machine/ZoneOps -/

theorem State.openZone_fixed (s : State) (z) : (State.openZone s z).fixed = s.fixed := by
  simp only [State.openZone, fixed_ite, ite_self, State.journal_fixed, State.leaveEmpty_fixed, State.setZone_fixed]

theorem State.closeZone_fixed (s : State) (z) : (State.closeZone s z).fixed = s.fixed := by
  simp only [State.closeZone, fixed_ite, ite_self, State.emptyZone_fixed, State.journal_fixed, State.setZone_fixed]

theorem State.dropMoves_fixed (s : State) (z) : (State.dropMoves s z).fixed = s.fixed := by
  simp only [State.dropMoves, fixed_sec, fixed_foldl, implies_true, State.deferErase_fixed]

theorem State.offlineZone_fixed (s : State) (z) : (State.offlineZone s z).fixed = s.fixed := by
  simp only [State.offlineZone, State.dropMoves_fixed, State.releaseBlocks_fixed, State.journal_fixed, State.setZone_fixed]

theorem State.finishZone_fixed (s : State) (z) (cls) : (State.finishZone s z cls).fixed = s.fixed := by
  simp only [State.finishZone, fixed_ite, fixed_foldl, ite_self, implies_true, State.journal_fixed, State.setZone_fixed,
    State.setRow_fixed, State.issueDirect_fixed]

theorem State.endZone_fixed (s : State) (v) (st) : (State.endZone s v st).fixed = s.fixed := by
  simp only [State.endZone, State.postFlight_fixed, State.removeFlight_fixed]

theorem State.zoneAct_fixed (s : State) (v) (z) (a) : (State.zoneAct s v z a).fixed = s.fixed := by
  unfold State.zoneAct; repeat' split
  all_goals simp only [State.endZone_fixed, State.tellPeer_fixed, State.noteWritten_fixed, State.setFlight_fixed,
    State.openZone_fixed, State.closeZone_fixed, State.offlineZone_fixed, State.finishZone_fixed, State.settleZones_fixed]

theorem State.zoneAll_fixed (s : State) (h) (t) (a) : (State.zoneAll s h t a).fixed = s.fixed := by
  unfold State.zoneAll
  extract_lets zs first s1
  split
  · exact State.done_fixed _ _ _
  · refine (fixed_foldl _ (fun u p => ?_) _ _).trans (fixed_foldl _ (fun u z => State.addFlight_fixed _ _) _ _)
    split <;> simp only [State.zoneAct_fixed]

theorem zoneSend_fixed (name) (a) (h) (slba) (all) (s : State) : Kept s (zoneSend name a h slba all s) := by
  simp only [zoneSend, fixed_ite, ite_self, implies_true, onZoneQueue_fixed, State.onZone_fixed, State.zoneAll_fixed,
    State.fail_fixed, State.zoneAct_fixed, State.addFlight_fixed]

theorem execZoneOpen_fixed (h) (slba) (all) (s : State) : Kept s (execZoneOpen h slba all s) := by
  simp only [execZoneOpen, zoneSend_fixed]

theorem execZoneClose_fixed (h) (slba) (all) (s : State) : Kept s (execZoneClose h slba all s) := by
  simp only [execZoneClose, zoneSend_fixed]

theorem execZoneFinish_fixed (h) (slba) (all) (s : State) : Kept s (execZoneFinish h slba all s) := by
  simp only [execZoneFinish, zoneSend_fixed]

theorem execZoneReset_fixed (h) (slba) (all) (s : State) : Kept s (execZoneReset h slba all s) := by
  simp only [execZoneReset, zoneSend_fixed]

theorem execZoneOffline_fixed (h) (slba) (all) (s : State) : Kept s (execZoneOffline h slba all s) := by
  simp only [execZoneOffline, zoneSend_fixed]

theorem execZoneManagementReceive_fixed (h) (slba) (action) (option_) (bytes) (partial_) (s : State) :
    Kept s (execZoneManagementReceive h slba action option_ bytes partial_ s) := by
  unfold execZoneManagementReceive; repeat' split
  all_goals simp only [implies_true, onIo_fixed, State.onZone_fixed, State.fail_fixed, State.done_fixed, State.emit_fixed]

/-! ### Machine/CouplerOps -/

theorem State.setCplPort_fixed (s : State) (p) (v) : (State.setCplPort s p v).fixed = s.fixed := by rfl

theorem State.resend_fixed (s : State) (p) (l) : (State.resend s p l).fixed = s.fixed := by
  simp only [State.resend, fixed_foldl, implies_true, State.emit_fixed]

theorem State.linkDown_fixed (s : State) (p) (cause) : (State.linkDown s p cause).fixed = s.fixed := by
  simp only [State.linkDown]
  repeat' split
  all_goals simp only [fixed_foldl, implies_true, State.event_fixed, State.setCplPort_fixed, State.sendOn_fixed,
    State.emit_fixed, State.pushFlit_fixed]

theorem State.ackFlits_fixed (s : State) (p) (n) : (State.ackFlits s p n).fixed = s.fixed := by
  simp only [State.ackFlits, State.sendWaiting_fixed, State.setCplPort_fixed]

theorem State.nakFlit_fixed (s : State) (p) (n) : (State.nakFlit s p n).fixed = s.fixed := by
  simp only [State.nakFlit, fixed_ite, ite_self, State.linkDown_fixed, State.setCplPort_fixed, State.resend_fixed]

theorem State.linkTrained_fixed (s : State) (p) (peer) (peerPort) (lanes) :
    (State.linkTrained s p peer peerPort lanes).fixed = s.fixed := by
  simp only [State.linkTrained, fixed_ite, ite_self, State.event_fixed, State.setCplPort_fixed]

theorem State.setPair_fixed (s : State) (x) : (State.setPair s x).fixed = s.fixed := by rfl

theorem State.setRole_fixed (s : State) (x) (r) : (State.setRole s x r).fixed = s.fixed := by rfl

theorem State.confirmZone_fixed (s : State) (v) : (State.confirmZone s v).fixed = s.fixed := by
  unfold State.confirmZone; repeat' split
  all_goals simp only [State.setFlight_fixed, State.endZone_fixed, State.openZone_fixed, State.closeZone_fixed,
    State.offlineZone_fixed, State.settleZones_fixed]

theorem State.ackReady_fixed (s : State) (f) : (State.ackReady s f).fixed = s.fixed := by
  unfold State.ackReady
  split
  · rfl
  · refine fixed_foldl _ (fun t j => ?_) _ _
    repeat' split
    all_goals simp only [State.ackSeg_fixed]

theorem State.stopWaiting_fixed (s : State) (f) : (State.stopWaiting s f).fixed = s.fixed := by
  unfold State.stopWaiting; repeat' split
  all_goals simp only [State.ackReady_fixed, State.setFlight_fixed, State.confirmZone_fixed]

theorem State.failForwarded_fixed (s : State) (p) : (State.failForwarded s p).fixed = s.fixed := by
  unfold State.failForwarded
  refine fixed_foldl _ (fun t f => ?_) _ _
  split <;> simp only [State.endRead_fixed]

theorem State.settlePair_fixed (s : State) (p) (go) : (State.settlePair s p go).fixed = s.fixed := by
  unfold State.settlePair
  refine (fixed_foldl _ (fun t f => ?_) _ _).trans (State.failForwarded_fixed _ _)
  repeat' split
  all_goals simp only [State.stopWaiting_fixed, State.killFlight_fixed]

theorem State.promoteOrBreak_fixed (s : State) (x) : (State.promoteOrBreak s x).fixed = s.fixed := by
  unfold State.promoteOrBreak; repeat' split
  all_goals simp only [State.event_fixed, State.setRole_fixed, State.settlePair_fixed, State.failForwarded_fixed]

theorem State.promotePairs_fixed (s : State) (f : Nat → Bool) : (State.promotePairs s f).fixed = s.fixed := by
  simp only [State.promotePairs, fixed_foldl, implies_true, State.promoteOrBreak_fixed]

theorem State.judgeQuorum_fixed (s : State) : (State.judgeQuorum s).fixed = s.fixed := by
  simp only [State.judgeQuorum, fixed_sec, fixed_ite, ite_self, State.event_fixed, State.promotePairs_fixed]

theorem State.hearBeat_fixed (s : State) (sender) (sleeping) (heard) :
    (State.hearBeat s sender sleeping heard).fixed = s.fixed := by
  simp only [State.hearBeat, fixed_sec, fixed_ite, ite_self, State.judgeQuorum_fixed]

theorem State.loseMember_fixed (s : State) (m) (lastHeard) : (State.loseMember s m lastHeard).fixed = s.fixed := by
  simp only [State.loseMember, fixed_sec, fixed_ite, ite_self, State.event_fixed, State.chooseLeader_fixed,
    State.promotePairs_fixed, State.judgeQuorum_fixed]

theorem State.rejoinPair_fixed (s : State) (x) (promoted) : (State.rejoinPair s x promoted).fixed = s.fixed := by
  unfold State.rejoinPair; repeat' split
  all_goals simp only [fixed_ite, ite_self, State.setRole_fixed, State.setPair_fixed, State.toPeer_fixed]

theorem State.joinMember_fixed (s : State) (m) (promoted) : (State.joinMember s m promoted).fixed = s.fixed := by
  simp only [State.joinMember, fixed_sec, fixed_ite, fixed_foldl, ite_self, implies_true, State.judgeQuorum_fixed,
    State.event_fixed, State.settlePair_fixed, State.rejoinPair_fixed]

theorem State.mirrorAnswer_fixed (s : State) (p) (st) : (State.mirrorAnswer s p st).fixed = s.fixed := by rfl

theorem State.mirrorOp_fixed (s : State) (p) (f : State → State) (hf : ∀ t, (f t).fixed = t.fixed) :
    (State.mirrorOp s p f).fixed = s.fixed := by
  simp only [State.mirrorOp, fixed_ite, ite_self, State.mirrorAnswer_fixed, hf]

theorem State.formPair_fixed (s : State) (x) : (State.formPair s x).fixed = s.fixed := by
  simp only [State.formPair, fixed_ite, ite_self, State.setPair_fixed, State.toPeer_fixed]

theorem State.mirrorBind_fixed (s : State) (m) : (State.mirrorBind s m).fixed = s.fixed := by
  simp only [State.mirrorBind, fixed_sec, fixed_ite, ite_self, implies_true, State.mirrorOp_fixed, State.mirrorAnswer_fixed,
    State.toPeer_fixed, State.formPair_fixed]

theorem State.dropPair_fixed (s : State) (p) : (State.dropPair s p).fixed = s.fixed := by
  simp only [State.dropPair, fixed_sec, State.settlePair_fixed]

theorem State.mirrorUnbind_fixed (s : State) (m) : (State.mirrorUnbind s m).fixed = s.fixed := by
  refine State.mirrorOp_fixed _ _ _ fun t => ?_
  split <;> simp only [State.mirrorAnswer_fixed, State.toPeer_fixed, State.dropPair_fixed]

theorem State.mirrorPromote_fixed (s : State) (m) : (State.mirrorPromote s m).fixed = s.fixed := by
  refine State.mirrorOp_fixed _ _ _ fun t => ?_
  repeat' split
  all_goals simp only [State.mirrorAnswer_fixed, State.event_fixed, State.setRole_fixed]

theorem State.mirrorResync_fixed (s : State) (m) : (State.mirrorResync s m).fixed = s.fixed := by
  refine State.mirrorOp_fixed _ _ _ fun t => ?_
  repeat' split
  all_goals simp only [State.mirrorAnswer_fixed, State.formPair_fixed]

theorem State.mirrorCopy_fixed (s : State) (m) : (State.mirrorCopy s m).fixed = s.fixed := by
  refine State.mirrorOp_fixed _ _ _ fun t => ?_
  repeat' split
  all_goals simp only [State.mirrorAnswer_fixed, fixed_mk]

theorem State.mirrorQuery_fixed (s : State) (m) : (State.mirrorQuery s m).fixed = s.fixed := by
  simp only [State.mirrorQuery, implies_true, State.mirrorOp_fixed, State.mirrorAnswer_fixed]

theorem State.copyZone_fixed (s : State) (peer) (rank) (z) : (State.copyZone s peer rank z).fixed = s.fixed := by
  simp only [State.copyZone, State.toPeer_fixed]

theorem State.resyncDone_fixed {s : State} {p} {t} (h : State.resyncDone s p = some t) : t.fixed = s.fixed := by
  unfold State.resyncDone at h
  repeat' split at h
  all_goals cases h
  all_goals simp only [fixed_sec, fixed_foldl, implies_true, State.copyZone_fixed, State.event_fixed, State.setPair_fixed]

theorem State.leaveEmptyAs_fixed (s : State) (z) (st) (direct) : (State.leaveEmptyAs s z st direct).fixed = s.fixed := by
  simp only [State.leaveEmptyAs, State.leaveEmpty_fixed, State.setZone_fixed]

theorem State.admitMirror_fixed {s : State} {z} {a} {n} {direct} {copying} {t}
    (h : State.admitMirror s z a n direct copying = .ok t) : t.fixed = s.fixed := by
  unfold State.admitMirror at h
  extract_lets at h
  repeat' split at h
  all_goals cases h
  all_goals simp +zetaDelta only [fixed_ite, ite_self, State.leaveEmptyAs_fixed, State.journal_fixed, State.setZone_fixed,
    State.advanceWp_fixed]

theorem State.stageMirrored_fixed (s : State) (f) : (State.stageMirrored s f).fixed = s.fixed := by
  unfold State.stageMirrored
  repeat' split
  all_goals try rfl
  exact fixed_getD fun _ h => State.transferSeg_fixed h

theorem State.mirrorSegment_fixed {s : State} {peer} {p} {zoneNo} {start} {key} {data} {direct} {cls} {t}
    (h : State.mirrorSegment s peer p zoneNo start key data direct cls = some t) : t.fixed = s.fixed := by
  simp only [State.mirrorSegment] at h
  repeat' split at h
  all_goals cases h
  all_goals simp +zetaDelta only [State.toPeer_fixed, State.addFlight_fixed, State.stageMirrored_fixed, State.grantSeg_fixed]
  all_goals exact State.admitMirror_fixed ‹_›

theorem State.mirrorZoneAct_fixed (s : State) (peer) (p) (zoneNo) (act) (wp) :
    (State.mirrorZoneAct s peer p zoneNo act wp).fixed = s.fixed := by
  unfold State.mirrorZoneAct; repeat' split
  all_goals simp only [fixed_ite, ite_self, State.reduceTo_fixed, State.toPeer_fixed, State.journal_fixed,
    State.leaveEmptyAs_fixed, State.openZone_fixed, State.closeZone_fixed, State.offlineZone_fixed, State.finishZone_fixed,
    State.addFlight_fixed, State.endZone_fixed, State.settleZones_fixed]

theorem State.readReply_fixed (s : State) (f) (ok) (data) : (State.readReply s f ok data).fixed = s.fixed := by
  unfold State.readReply; repeat' split
  all_goals simp only [State.settleCodec_fixed, State.setFlight_fixed, State.releaseLeft_fixed, State.endFrameRead_fixed,
    State.endRead_fixed]

theorem State.serveForwarded_fixed {s : State} {peer} {p} {zoneNo} {start} {len} {cls} {t}
    (h : State.serveForwarded s peer p zoneNo start len cls = some t) : t.fixed = s.fixed := by
  unfold State.serveForwarded at h
  repeat' split at h
  all_goals cases h
  all_goals simp only [State.settleRead_fixed, State.scheduleSenses_fixed, State.addFlight_fixed]

theorem State.mirrorAcked_fixed {s : State} {f} {j} {st} {t} (h : State.mirrorAcked s f j st = some t) : t.fixed = s.fixed := by
  unfold State.mirrorAcked at h
  repeat' split at h
  all_goals cases h
  all_goals simp only [fixed_ite, ite_self, State.ackReady_fixed, State.setSeg_fixed, State.killFlight_fixed,
    State.emptyZone_fixed, State.confirmZone_fixed, State.endZone_fixed]

theorem State.takeFlit_fixed (s : State) (p) (f) : (State.takeFlit s p f).fixed = s.fixed := by
  unfold State.takeFlit; repeat' split
  all_goals simp only [fixed_sec, State.emit_fixed, State.ackFlits_fixed, State.nakFlit_fixed, State.hearBeat_fixed,
    State.mirrorZoneAct_fixed, State.formPair_fixed, State.dropPair_fixed, State.setPair_fixed, State.readReply_fixed,
    State.chooseLeader_fixed]

theorem State.followLeader_fixed (s : State) (err) (seconds) (suspect) :
    (State.followLeader s err seconds suspect).fixed = s.fixed := by
  simp only [State.followLeader, fixed_sec, fixed_ite, ite_self, State.stepTime_fixed]

/-! ### Machine/Coupler -/

theorem State.mirrorCommand_fixed (name : String) (s t : State) (h : t.fixed = s.fixed) :
    Kept s (State.mirrorCommand name s t) := by
  unfold State.mirrorCommand
  simp only [kept_ite, kept_arises, kept_next, h, implies_true, and_self]

theorem execMirrorBind_fixed (m) (s : State) : Kept s (execMirrorBind m s) := by
  simp only [execMirrorBind, State.mirrorCommand_fixed, State.mirrorBind_fixed]

theorem execMirrorUnbind_fixed (m) (s : State) : Kept s (execMirrorUnbind m s) := by
  simp only [execMirrorUnbind, State.mirrorCommand_fixed, State.mirrorUnbind_fixed]

theorem execMirrorPromote_fixed (m) (s : State) : Kept s (execMirrorPromote m s) := by
  simp only [execMirrorPromote, State.mirrorCommand_fixed, State.mirrorPromote_fixed]

theorem execMirrorResync_fixed (m) (s : State) : Kept s (execMirrorResync m s) := by
  simp only [execMirrorResync, State.mirrorCommand_fixed, State.mirrorResync_fixed]

theorem execMirrorCopyZone_fixed (m) (s : State) : Kept s (execMirrorCopyZone m s) := by
  simp only [execMirrorCopyZone, State.mirrorCommand_fixed, State.mirrorCopy_fixed]

theorem execMirrorQuery_fixed (m) (s : State) : Kept s (execMirrorQuery m s) := by
  simp only [execMirrorQuery, State.mirrorCommand_fixed, State.mirrorQuery_fixed]

theorem execResyncComplete_fixed (pgroup) (s : State) : Kept s (execResyncComplete pgroup s) := by
  unfold execResyncComplete
  split
  · next h => simp only [kept_arises, State.resyncDone_fixed h, implies_true]
  · trivial

theorem State.traffic_fixed (name : String) (s : State) (link asks : Bool) (t : Out) (h : Kept s t) :
    Kept s (State.traffic name s link asks t) := by
  unfold State.traffic
  have woken : ((s.wakeFired 0x80).getD s).fixed = s.fixed := fixed_getD fun _ h => State.wakeFired_fixed h
  repeat' split
  all_goals simp only [h, kept_arises, woken, implies_true, kept_cannot]

theorem execFlitReceived_fixed (port) (f) (s : State) : Kept s (execFlitReceived port f s) := by
  simp only [execFlitReceived, implies_true, kept_arises, State.traffic_fixed, State.takeFlit_fixed]

theorem execLinkSilenceTimeout_fixed (port) (s : State) : Kept s (execLinkSilenceTimeout port s) := by
  simp only [execLinkSilenceTimeout, implies_true, kept_arises, State.linkDown_fixed]

theorem execCouplerLinkTrained_fixed (port) (peer) (peerPort) (lanes) (s : State) :
    Kept s (execCouplerLinkTrained port peer peerPort lanes s) := by
  simp only [execCouplerLinkTrained, implies_true, kept_arises, State.linkTrained_fixed]

theorem execLinkTrainingRetry_fixed (port) (s : State) : Kept s (execLinkTrainingRetry port s) := by
  simp only [execLinkTrainingRetry, implies_true, kept_arises, State.setCplPort_fixed]

theorem execHeartbeatSend_fixed (s : State) : Kept s (execHeartbeatSend s) := by
  simp only [execHeartbeatSend, fixed_foldl, implies_true, kept_arises, State.sendOn_fixed]

theorem execMemberLost_fixed (member) (lastHeard) (s : State) : Kept s (execMemberLost member lastHeard s) := by
  simp only [execMemberLost, implies_true, kept_arises, State.loseMember_fixed]

theorem execMemberJoined_fixed (member) (promotedPairs) (s : State) : Kept s (execMemberJoined member promotedPairs s) := by
  simp only [execMemberJoined, implies_true, kept_arises, State.joinMember_fixed]

theorem execSleepNotice_fixed (member) (s : State) : Kept s (execSleepNotice member s) := by
  simp only [execSleepNotice, fixed_sec, implies_true, kept_arises, State.judgeQuorum_fixed]

theorem execSleepingMemberTimeout_fixed (member) (lastHeard) (s : State) :
    Kept s (execSleepingMemberTimeout member lastHeard s) := by
  simp only [execSleepingMemberTimeout, implies_true, kept_arises, State.loseMember_fixed]

theorem execMirrorSegment_fixed (peer) (pgroup) (zoneNo) (start) (key) (data) (direct) (cls) (s : State) :
    Kept s (execMirrorSegment peer pgroup zoneNo start key data direct cls s) := by
  refine State.traffic_fixed _ _ _ _ _ ?_
  split
  · next h => simp only [kept_arises, State.mirrorSegment_fixed h, implies_true]
  · trivial

theorem execMirrorAck_fixed (flight) (seg) (status) (s : State) : Kept s (execMirrorAck flight seg status s) := by
  unfold execMirrorAck
  split
  · next h => simp only [kept_arises, State.mirrorAcked_fixed h, implies_true]
  · trivial

theorem execForwardedRead_fixed (peer) (pgroup) (zoneNo) (start) (len) (cls) (s : State) :
    Kept s (execForwardedRead peer pgroup zoneNo start len cls s) := by
  refine State.traffic_fixed _ _ _ _ _ ?_
  split
  · next h => simp only [kept_arises, State.serveForwarded_fixed h, implies_true]
  · trivial

theorem execTimeExchange_fixed (t1) (t2) (t3) (t4) (leaderSeconds) (leaderSuspect) (hops) (s : State) :
    Kept s (execTimeExchange t1 t2 t3 t4 leaderSeconds leaderSuspect hops s) := by
  simp only [execTimeExchange, fixed_sec, fixed_ite, fixed_foldl, ite_self, implies_true, kept_arises, State.advanceTo_fixed,
    State.sendOn_fixed, State.followLeader_fixed]

/-! ### Machine/Fan -/

theorem State.setFanOut_fixed (s : State) (i) (f : FanOut → FanOut) : (State.setFanOut s i f).fixed = s.fixed := by rfl

theorem State.fanStart_fixed (s : State) (i) (good) : (State.fanStart s i good).fixed = s.fixed := by
  simp only [State.fanStart, fixed_sec, fixed_ite, ite_self, State.setFanOut_fixed, State.event_fixed]

theorem State.fanFloorCheck_fixed (s : State) (before) : (State.fanFloorCheck s before).fixed = s.fixed := by
  simp only [State.fanFloorCheck, fixed_sec, fixed_ite, ite_self, State.event_fixed, State.setStep_fixed, State.warning_fixed]

theorem State.fanFault_fixed (s : State) (i) (c) : (State.fanFault s i c).fixed = s.fixed := by
  simp only [State.fanFault, fixed_sec, fixed_ite, ite_self, State.setFanOut_fixed, State.fanFloorCheck_fixed,
    State.event_fixed]

theorem State.fanStep_fixed {s : State} {i} {ev} {t} (h : State.fanStep s i ev = some t) : t.fixed = s.fixed := by
  unfold State.fanStep at h
  extract_lets at h
  repeat' split at h
  all_goals cases h
  all_goals simp +zetaDelta only [State.setFanOut_fixed, State.fanStart_fixed, State.advanceTo_fixed, State.fanFault_fixed]

theorem State.fanCross_fixed (s : State) (i) (t) : (State.fanCross s i t).fixed = s.fixed := by
  simp only [State.fanCross, fixed_ite, ite_self, State.setFanOut_fixed]

theorem State.fanRail_fixed (s : State) (v) : (State.fanRail s v).fixed = s.fixed := by
  simp only [State.fanRail, fixed_sec, fixed_ite, ite_self, State.event_fixed]

theorem State.clearHeld_fixed (s : State) (i) : (State.clearHeld s i).fixed = s.fixed := by rfl

theorem execFanCommandUpdate_fixed (rpms) (duties) (s : State) : Kept s (execFanCommandUpdate rpms duties s) := by
  simp only [execFanCommandUpdate, fixed_sec, implies_true, kept_arises, State.startClock_fixed]

theorem execFanStartStep_fixed (out) (ev) (s : State) : Kept s (execFanStartStep out ev s) := by
  unfold execFanStartStep
  repeat' split
  · next h => exact (State.fanStep_fixed h).trans (State.startClock_fixed _ _)
  all_goals trivial

theorem execFanZeroCrossing_fixed (out) (now_) (s : State) : Kept s (execFanZeroCrossing out now_ s) := by
  simp only [execFanZeroCrossing, implies_true, kept_arises, State.fanCross_fixed, State.startClock_fixed,
    State.advanceTo_fixed]

theorem execFanFault_fixed (out) (cause) (s : State) : Kept s (execFanFault out cause s) := by
  simp only [execFanFault, implies_true, kept_arises, State.fanFault_fixed, State.startClock_fixed]

theorem execFanRetry_fixed (out) (s : State) : Kept s (execFanRetry out s) := by
  simp only [execFanRetry, implies_true, kept_arises, State.setFanOut_fixed, State.advanceTo_fixed]

theorem execFanRecovered_fixed (out) (s : State) : Kept s (execFanRecovered out s) := by
  simp only [execFanRecovered, implies_true, kept_arises, State.event_fixed, State.setFanOut_fixed]

theorem execHeldOffClear_fixed (out) (s : State) : Kept s (execHeldOffClear out s) := by
  simp only [execHeldOffClear, implies_true, kept_next, kept_ite, kept_arises, and_self, State.clearHeld_fixed,
    State.startClock_fixed]

theorem execFanRailThreshold_fixed (volts) (s : State) : Kept s (execFanRailThreshold volts s) := by
  simp only [execFanRailThreshold, implies_true, kept_arises, State.fanRail_fixed, State.startClock_fixed]

theorem execFanCmdMeasurement_fixed (m) (s : State) : Kept s (execFanCmdMeasurement m s) := by
  unfold execFanCmdMeasurement; repeat' split
  all_goals simp only [fixed_sec, kept_next, kept_cannot, State.event_fixed]

/-! ### Machine/JournalMount -/

theorem State.closeReloaded_fixed (s : State) : (State.closeReloaded s).fixed = s.fixed := by
  simp only [State.closeReloaded, fixed_foldl, implies_true, State.issueDirect_fixed]

theorem State.afterFirst_fixed (s : State) : (State.afterFirst s).fixed = s.fixed := by
  simp only [State.afterFirst, fixed_sec, fixed_foldl, implies_true, State.landingGoes_fixed, State.closeReloaded_fixed,
    State.deferErase_fixed]

theorem State.ckptDone_fixed (s : State) : (State.ckptDone s).fixed = s.fixed := by
  simp only [State.ckptDone, fixed_sec, fixed_ite, ite_self, State.stopDone_fixed, State.ckptInForce_fixed,
    State.answerOps_fixed, State.afterFirst_fixed]

theorem State.measureAtMount_fixed (s : State) : (State.measureAtMount s).fixed = s.fixed := by
  simp only [State.measureAtMount, fixed_ite, ite_self, State.startMeasurement_fixed]

theorem State.mountDone_fixed (s : State) (scan) (good) (fallback) (ms) :
    (State.mountDone s scan good fallback ms).fixed = s.fixed := by
  simp only [State.mountDone, fixed_sec, fixed_ite, ite_self, State.settleDeletes_fixed, State.remount_fixed, State.draw_fixed,
    State.measureAtMount_fixed, State.answerOps_fixed, State.event_fixed, State.eraseMarker_fixed]

theorem State.mountFails_fixed (s : State) (ms) : (State.mountFails s ms).fixed = s.fixed := by
  simp only [State.mountFails, fixed_sec, State.answerOps_fixed, State.event_fixed, State.eraseMarker_fixed]

theorem execJournalUnitProgram_fixed (s : State) : Kept s (execJournalUnitProgram s) := by
  simp only [execJournalUnitProgram, fixed_ite, ite_self, implies_true, kept_arises, State.advanceTo_fixed,
    State.journalGo_fixed]

theorem execCheckpointStart_fixed (s : State) : Kept s (execCheckpointStart s) := by
  simp only [execCheckpointStart, fixed_ite, ite_self, implies_true, kept_arises, State.advanceTo_fixed, State.startCkpt_fixed]

theorem execCheckpointValid_fixed (s : State) : Kept s (execCheckpointValid s) := by
  simp only [execCheckpointValid, implies_true, kept_arises, State.ckptDone_fixed]

theorem execMountComplete_fixed (readable) (ckptGood) (fallback) (elapsedMs) (s : State) :
    Kept s (execMountComplete readable ckptGood fallback elapsedMs s) := by
  simp only [execMountComplete, fixed_ite, ite_self, implies_true, kept_arises, State.advanceTo_fixed, State.mountDone_fixed,
    State.mountFails_fixed]

/-! ### Machine/KCore -/

theorem execNop_fixed (w) (s : State) : Kept s (execNop w s) := by
  simp only [execNop, State.runLocal_fixed]

theorem execTrap_fixed (w) (s : State) : Kept s (execTrap w s) := by
  simp only [execTrap, State.runLocal_fixed]

theorem execWait_fixed (w) (s : State) : Kept s (execWait w s) := by
  unfold execWait; extract_lets; repeat' split
  all_goals simp +zetaDelta only [fixed_ite, ite_self, implies_true, kept_cannot, kept_arises, State.startClock_fixed,
    State.trapReel_fixed, State.modK_fixed, State.retireReel_fixed, State.setKctx_fixed, State.reelIssues_fixed,
    State.endWait_fixed]

theorem execWaitConditionMet_fixed (ctx) (s : State) : Kept s (execWaitConditionMet ctx s) := by
  unfold execWaitConditionMet; repeat' split
  all_goals simp only [implies_true, kept_cannot, kept_arises, State.endWait_fixed, State.reelIssues_fixed]

theorem runAlu_fixed (s : State) (name) (f) (w) (r : KCtx → Word) (fl : KCtx → KFlags) : Kept s (runAlu s name f w r fl) := by
  simp only [runAlu, State.runLocal_fixed]

theorem execAdd_fixed (w) (s : State) : Kept s (execAdd w s) := by
  simp only [execAdd, runAlu_fixed]

theorem execSub_fixed (w) (s : State) : Kept s (execSub w s) := by
  simp only [execSub, runAlu_fixed]

theorem execAnd_fixed (w) (s : State) : Kept s (execAnd w s) := by
  simp only [execAnd, runAlu_fixed]

theorem execOr_fixed (w) (s : State) : Kept s (execOr w s) := by
  simp only [execOr, runAlu_fixed]

theorem execXor_fixed (w) (s : State) : Kept s (execXor w s) := by
  simp only [execXor, runAlu_fixed]

theorem runZN_fixed (s : State) (name) (f) (w) (r : KCtx → Word) : Kept s (runZN s name f w r) := by
  simp only [runZN, runAlu_fixed]

theorem execShl_fixed (w) (s : State) : Kept s (execShl w s) := by
  simp only [execShl, runZN_fixed]

theorem execShr_fixed (w) (s : State) : Kept s (execShr w s) := by
  simp only [execShr, runZN_fixed]

theorem execSar_fixed (w) (s : State) : Kept s (execSar w s) := by
  simp only [execSar, runZN_fixed]

theorem execMul_fixed (w) (s : State) : Kept s (execMul w s) := by
  simp only [execMul, runZN_fixed]

theorem execMulhu_fixed (w) (s : State) : Kept s (execMulhu w s) := by
  simp only [execMulhu, runZN_fixed]

theorem execDivu_fixed (w) (s : State) : Kept s (execDivu w s) := by
  simp only [execDivu, runAlu_fixed]

theorem execRemu_fixed (w) (s : State) : Kept s (execRemu w s) := by
  simp only [execRemu, runAlu_fixed]

theorem execMinu_fixed (w) (s : State) : Kept s (execMinu w s) := by
  simp only [execMinu, runZN_fixed]

theorem execMaxu_fixed (w) (s : State) : Kept s (execMaxu w s) := by
  simp only [execMaxu, runZN_fixed]

theorem execAddi_fixed (w) (s : State) : Kept s (execAddi w s) := by
  simp only [execAddi, runAlu_fixed]

theorem execAndi_fixed (w) (s : State) : Kept s (execAndi w s) := by
  simp only [execAndi, runZN_fixed]

theorem execOri_fixed (w) (s : State) : Kept s (execOri w s) := by
  simp only [execOri, runZN_fixed]

theorem execXori_fixed (w) (s : State) : Kept s (execXori w s) := by
  simp only [execXori, runZN_fixed]

theorem execShli_fixed (w) (s : State) : Kept s (execShli w s) := by
  simp only [execShli, runZN_fixed]

theorem execShri_fixed (w) (s : State) : Kept s (execShri w s) := by
  simp only [execShri, runZN_fixed]

theorem execSari_fixed (w) (s : State) : Kept s (execSari w s) := by
  simp only [execSari, runZN_fixed]

theorem execLi_fixed (w) (s : State) : Kept s (execLi w s) := by
  simp only [execLi, runAlu_fixed]

theorem execLih_fixed (w) (s : State) : Kept s (execLih w s) := by
  simp only [execLih, runAlu_fixed]

theorem execBfx_fixed (w) (s : State) : Kept s (execBfx w s) := by
  simp only [execBfx, runAlu_fixed]

theorem execBfi_fixed (w) (s : State) : Kept s (execBfi w s) := by
  simp only [execBfi, runAlu_fixed]

theorem execCmp_fixed (w) (s : State) : Kept s (execCmp w s) := by
  simp only [execCmp, State.runLocal_fixed]

theorem execCmpi_fixed (w) (s : State) : Kept s (execCmpi w s) := by
  simp only [execCmpi, State.runLocal_fixed]

theorem execB_fixed (w) (s : State) : Kept s (execB w s) := by
  simp only [execB, State.runLocal_fixed]

theorem execCall_fixed (w) (s : State) : Kept s (execCall w s) := by
  simp only [execCall, State.runLocal_fixed]

theorem execRet_fixed (w) (s : State) : Kept s (execRet w s) := by
  simp only [execRet, State.runLocal_fixed]

theorem execJr_fixed (w) (s : State) : Kept s (execJr w s) := by
  simp only [execJr, State.runLocal_fixed]

theorem execCallr_fixed (w) (s : State) : Kept s (execCallr w s) := by
  simp only [execCallr, State.runLocal_fixed]

theorem execLd_fixed (w) (s : State) : Kept s (execLd w s) := by
  simp only [execLd, State.runLocal_fixed]

theorem execSt_fixed (w) (s : State) : Kept s (execSt w s) := by
  simp only [execSt]
  repeat' split
  all_goals simp only [implies_true, kept_cannot, kept_arises, State.reelIssues_fixed, State.trapReel_fixed,
    State.retireReel_fixed, State.spaceWrite_fixed]

theorem execCopy_fixed (w) (s : State) : Kept s (execCopy w s) := by
  simp only [execCopy]
  repeat' split
  all_goals simp only [implies_true, kept_cannot, kept_arises, State.reelIssues_fixed, State.trapReel_fixed,
    State.retireReel_fixed, State.spaceWrite_fixed]

theorem execMfs_fixed (w) (s : State) : Kept s (execMfs w s) := by
  simp only [execMfs, State.runLocal_fixed]

theorem execMts_fixed (w) (s : State) : Kept s (execMts w s) := by
  simp only [execMts, State.runLocal_fixed]

theorem execUnassignedOpcode_fixed (ctx) (w) (s : State) : Kept s (execUnassignedOpcode ctx w s) := by
  simp only [execUnassignedOpcode]
  repeat' split
  all_goals simp only [implies_true, kept_cannot, kept_arises, State.reelIssues_fixed, State.trapReel_fixed]

theorem execLineFillComplete_fixed (ctx) (r) (s : State) : Kept s (execLineFillComplete ctx r s) := by
  simp only [execLineFillComplete]
  repeat' split
  all_goals simp only [fixed_sec, fixed_foldl, implies_true, kept_cannot, kept_arises, State.makeRoom_fixed,
    State.modInst_fixed, State.senseBlock_fixed, State.resumeAfter_fixed, State.suspend_fixed, State.trapReel_fixed,
    State.loseReplica_fixed]

/-! ### Machine/KFlash -/

theorem State.disturb_fixed (s : State) (d) (b) : (State.disturb s d b).fixed = s.fixed := by
  unfold State.disturb; repeat' split
  all_goals simp only [State.loseReplica_fixed]

theorem State.layProgram_fixed (s : State) (d) (b) (page) (n) (bs) :
    (State.layProgram s d b page n bs).fixed = s.fixed := by rfl

theorem execFread_fixed (w) (s : State) : Kept s (execFread w s) := by
  simp only [execFread, fixed_ite, ite_self, implies_true, State.runTicket_fixed, State.addOp_fixed, State.enqueue_fixed]

theorem execFprog_fixed (w) (s : State) : Kept s (execFprog w s) := by
  simp only [execFprog, fixed_ite, ite_self, implies_true, State.runTicket_fixed, State.addOp_fixed, State.enqueue_fixed,
    State.layProgram_fixed, State.disturb_fixed]

theorem execFerase_fixed (w) (s : State) : Kept s (execFerase w s) := by
  simp only [execFerase, implies_true, State.runTicket_fixed, State.enqueue_fixed, State.disturb_fixed, State.addOp_fixed]

theorem execFrecord_fixed (w) (s : State) : Kept s (execFrecord w s) := by
  simp only [execFrecord, fixed_ite, ite_self, implies_true, State.runTicket_fixed, State.addOp_fixed, State.enqueue_fixed]

theorem execFtemp_fixed (w) (s : State) : Kept s (execFtemp w s) := by
  simp only [execFtemp, implies_true, State.runTicket_fixed, State.addOp_fixed]

theorem runFreserve_fixed (s : State) (name) (give) (w) (eff : KCtx → Nat → State → State) (heff : ∀ y0 y1 t,
    (eff y0 y1 t).fixed = t.fixed) : Kept s (runFreserve s name give w eff) := by
  simp only [runFreserve, implies_true, kept_cannot, kept_ite, and_self, State.runTicket_fixed, heff]

theorem execFreserveTake_fixed (w) (s : State) : Kept s (execFreserveTake w s) := by
  refine runFreserve_fixed _ _ _ _ _ fun k n t => ?_
  dsimp only
  split
  · next b s1 h =>
    have h1 : s1.fixed = t.fixed := by
      split at h
      · cases h
      · exact State.takeSpare_fixed h
    simp only [State.addOp_fixed, h1]
  · exact State.addOp_fixed _ _ _ _ _

theorem execFreserveReturn_fixed (w) (s : State) : Kept s (execFreserveReturn w s) := by
  simp only [execFreserveReturn, fixed_ite, ite_self, implies_true, runFreserve_fixed, State.addOp_fixed, State.enqueue_fixed]

/-! ### Machine/KTab -/

theorem State.tableWrite_fixed (s : State) (t) (i) (v) : (State.tableWrite s t i v).fixed = s.fixed := by
  simp only [State.tableWrite, fixed_sec, fixed_ite, ite_self, State.journal_fixed, State.setZone_fixed]

theorem runPgctl_fixed (s : State) (name) (sub) (w) (traps : Nat → Nat → List TrapIf) (eff : State → Nat → Nat → State.Answer)
    (heff : ∀ t y1 y2, (eff t y1 y2).s.fixed = t.fixed) : Kept s (runPgctl s name sub w traps eff) := by
  simp only [runPgctl, implies_true, kept_cannot, kept_ite, and_self, State.runJournal_fixed, heff]

theorem execTrd_fixed (w) (s : State) : Kept s (execTrd w s) := by
  simp only [execTrd, implies_true, State.runJournal_fixed, State.status_fixed]

theorem execTwr_fixed (w) (s : State) : Kept s (execTwr w s) := by
  simp only [execTwr, implies_true, State.runJournal_fixed, State.status_fixed, State.tableWrite_fixed]

theorem execPgctlCreate_fixed (w) (s : State) : Kept s (execPgctlCreate w s) := by
  refine runPgctl_fixed _ _ _ _ _ _ fun t p b => ?_
  repeat' split
  all_goals simp only [State.status_fixed, State.journal_fixed, State.setPgroup_fixed]

theorem execPgctlDelete_fixed (w) (s : State) : Kept s (execPgctlDelete w s) := by
  refine runPgctl_fixed _ _ _ _ _ _ fun t p b => ?_
  repeat' split
  all_goals simp only [State.status_fixed, State.journal_fixed, State.setPgroup_fixed]

theorem execPgctlAddStripeGroup_fixed (w) (s : State) : Kept s (execPgctlAddStripeGroup w s) := by
  refine runPgctl_fixed _ _ _ _ _ _ fun t p b => ?_
  repeat' split
  all_goals simp only [State.status_fixed, State.journal_fixed, State.setPgroup_fixed]

theorem execPgctlRemoveStripeGroup_fixed (w) (s : State) : Kept s (execPgctlRemoveStripeGroup w s) := by
  refine runPgctl_fixed _ _ _ _ _ _ fun t p b => ?_
  repeat' split
  all_goals simp only [State.status_fixed, State.journal_fixed, State.setPgroup_fixed]

theorem execPgctlMove_fixed (w) (s : State) : Kept s (execPgctlMove w s) := by
  refine runPgctl_fixed _ _ _ _ _ _ fun t p b => ?_
  repeat' split
  all_goals simp only [State.status_fixed, State.journal_fixed, State.setPgroup_fixed]

theorem execPgctlSetDefaultMode_fixed (w) (s : State) : Kept s (execPgctlSetDefaultMode w s) := by
  refine runPgctl_fixed _ _ _ _ _ _ fun t p b => ?_
  repeat' split
  all_goals simp only [State.status_fixed, State.journal_fixed, State.setPgroup_fixed]

theorem State.makeSpace_fixed (s : State) (n) (e) : (State.makeSpace s n e).fixed = s.fixed := by
  simp only [State.makeSpace, State.journal_fixed, State.spaceChanged_fixed, State.setSpace_fixed]

theorem execNsctlCreateZoned_fixed (w) (s : State) : Kept s (execNsctlCreateZoned w s) := by
  unfold execNsctlCreateZoned
  split
  · trivial
  · refine State.runJournal_fixed _ _ _ _ _ _ _ _ fun k => ?_
    dsimp only
    repeat' split
    all_goals simp only [State.status_fixed, State.makeSpace_fixed, State.setPgroup_fixed]

theorem execNsctlCreateConventional_fixed (w) (s : State) : Kept s (execNsctlCreateConventional w s) := by
  unfold execNsctlCreateConventional; repeat' split
  all_goals simp only [fixed_sec, implies_true, kept_cannot, State.runJournal_fixed, State.status_fixed, State.makeSpace_fixed]

theorem State.beginDelete_fixed (s : State) (n) (e) : (State.beginDelete s n e).fixed = s.fixed := by
  simp only [State.beginDelete, fixed_sec, State.setSpace_fixed, State.journal_fixed]

theorem execNsctlDelete_fixed (w) (s : State) : Kept s (execNsctlDelete w s) := by
  unfold execNsctlDelete
  split
  · trivial
  · refine State.runTicket_fixed _ _ _ _ _ _ _ _ fun k n t => ?_
    dsimp only
    repeat' split
    all_goals simp only [State.settleDeletes_fixed, State.beginDelete_fixed, State.addOp_fixed]

theorem State.reelZone_fixed (s : State) (c) (inst) (t) (z) (a) : (State.reelZone s c inst t z a).fixed = s.fixed := by
  simp only [State.reelZone, fixed_ite, ite_self, State.addOp_fixed, State.zoneAct_fixed, State.addFlight_fixed,
    State.admitted_fixed]

theorem runZctl_fixed (s : State) (name) (sub) (a) (w) : Kept s (runZctl s name sub a w) := by
  simp only [runZctl, implies_true, kept_cannot, kept_ite, and_self, State.runTicket_fixed, State.reelZone_fixed]

theorem execZctlOpen_fixed (w) (s : State) : Kept s (execZctlOpen w s) := by
  simp only [execZctlOpen, runZctl_fixed]

theorem execZctlClose_fixed (w) (s : State) : Kept s (execZctlClose w s) := by
  simp only [execZctlClose, runZctl_fixed]

theorem execZctlFinish_fixed (w) (s : State) : Kept s (execZctlFinish w s) := by
  simp only [execZctlFinish, runZctl_fixed]

theorem execZctlReset_fixed (w) (s : State) : Kept s (execZctlReset w s) := by
  simp only [execZctlReset, runZctl_fixed]

theorem execZctlOffline_fixed (w) (s : State) : Kept s (execZctlOffline w s) := by
  simp only [execZctlOffline, runZctl_fixed]

theorem execTfind_fixed (w) (s : State) : Kept s (execTfind w s) := by
  simp only [execTfind, implies_true, State.runJournal_fixed, State.status_fixed]

/-! ### Machine/ReelAdmin -/

theorem State.setPinned_fixed (s : State) (n) (v) : (State.setPinned s n v).fixed = s.fixed := by rfl

theorem State.loadImage_fixed (s : State) (h) (image) : (State.loadImage s h image).fixed = s.fixed := by
  unfold State.loadImage; extract_lets; repeat' split
  all_goals simp +zetaDelta only [State.fail_fixed, State.done_fixed, State.makeRoom_fixed, State.setPinned_fixed]

theorem State.unloadImage_fixed (s : State) (h) (n) : (State.unloadImage s h n).fixed = s.fixed := by
  unfold State.unloadImage; repeat' split
  all_goals simp only [State.fail_fixed, State.done_fixed, State.setPinned_fixed]

theorem State.launch_fixed (s : State) (h) (a) (c) (m) : (State.launch s h a c m).fixed = s.fixed := by
  simp only [State.launch, fixed_sec, State.setKinst_fixed, State.setKctx_fixed, State.complete_fixed, State.event_fixed,
    State.startClock_fixed]

theorem State.startReel_fixed (s : State) (h) (a) : (State.startReel s h a).fixed = s.fixed := by
  unfold State.startReel; repeat' split
  all_goals simp only [State.fail_fixed, State.countRefused_fixed, State.complete_fixed, State.launch_fixed]

theorem State.haltInst_fixed (s : State) (h) (x) (graceMs) : (State.haltInst s h x graceMs).fixed = s.fixed := by
  unfold State.haltInst; repeat' split
  all_goals simp only [State.setKctx_fixed, State.stopReel_fixed]

theorem State.haltReel_fixed (s : State) (h) (i) (graceMs) : (State.haltReel s h i graceMs).fixed = s.fixed := by
  unfold State.haltReel; repeat' split
  all_goals simp only [State.fail_fixed, State.haltInst_fixed, State.done_fixed]

theorem State.statusReel_fixed (s : State) (h) (i) : (State.statusReel s h i).fixed = s.fixed := by
  unfold State.statusReel; repeat' split
  all_goals simp only [State.fail_fixed, State.done_fixed, State.emit_fixed]

theorem execReelLoad_fixed (h) (image) (s : State) : Kept s (execReelLoad h image s) := by
  simp only [execReelLoad, implies_true, admin_fixed, State.loadImage_fixed]

theorem execReelUnload_fixed (h) (handle) (s : State) : Kept s (execReelUnload h handle s) := by
  simp only [execReelUnload, implies_true, admin_fixed, State.unloadImage_fixed]

theorem execEnterMaintenance_fixed (h) (s : State) : Kept s (execEnterMaintenance h s) := by
  simp only [execEnterMaintenance, implies_true, admin_fixed, State.storeAdmit_fixed]

theorem execLeaveMaintenance_fixed (h) (s : State) : Kept s (execLeaveMaintenance h s) := by
  simp only [execLeaveMaintenance, implies_true, admin_fixed, State.storeAdmit_fixed]

theorem execStoreWriteSlot_fixed (h) (slot) (image) (s : State) : Kept s (execStoreWriteSlot h slot image s) := by
  simp only [execStoreWriteSlot, implies_true, admin_fixed, State.storeAdmit_fixed]

theorem execStoreClearSlot_fixed (h) (slot) (s : State) : Kept s (execStoreClearSlot h slot s) := by
  simp only [execStoreClearSlot, implies_true, admin_fixed, State.storeAdmit_fixed]

theorem execReelStart_fixed (h) (a) (s : State) : Kept s (execReelStart h a s) := by
  simp only [execReelStart, implies_true, admin_fixed, State.startReel_fixed]

theorem execReelHalt_fixed (h) (inst) (graceMs) (s : State) : Kept s (execReelHalt h inst graceMs s) := by
  simp only [execReelHalt, fixed_ite, ite_self, implies_true, admin_fixed, State.fail_fixed, State.haltReel_fixed]

theorem execReelHaltGraceExpiry_fixed (inst) (s : State) : Kept s (execReelHaltGraceExpiry inst s) := by
  unfold execReelHaltGraceExpiry; repeat' split
  all_goals simp only [kept_next, kept_cannot, State.stopReel_fixed, State.advanceTo_fixed]

theorem execReelStatus_fixed (h) (inst) (s : State) : Kept s (execReelStatus h inst s) := by
  simp only [execReelStatus, implies_true, admin_fixed, State.statusReel_fixed]

/-! ### Machine/SecOps -/

theorem State.setCopy_fixed (s : State) (i) (c) : (State.setCopy s i c).fixed = s.fixed := by rfl

theorem State.writeCopy_fixed (i : Nat) (img : OptImage) (good : Bool) : ∀ (n : Nat) (s : State) (fails : Nat),
    (State.writeCopy n s i img good fails).fixed = s.fixed
  | 0, s, _ => State.setCopy_fixed _ _ _
  | n + 1, s, fails => by
    unfold State.writeCopy
    extract_lets d c
    split
    · exact State.setCopy_fixed _ _ _
    · simp only [fixed_ite, State.writeCopy_fixed i img good n, State.setCopy_fixed, State.retire_fixed, State.programNow_fixed,
        State.takeSeq_fixed, State.setBlock_fixed, State.eraseCells_fixed, ite_self]

theorem State.commitOption_fixed (s : State) (level) (merge) (readBack) (failed) :
    (State.commitOption s level merge readBack failed).1.fixed = s.fixed := by
  simp only [State.commitOption]
  repeat' split
  all_goals simp only [fixed_sec, fixed_foldl, implies_true, State.writeCopy_fixed, State.event_fixed]

theorem State.optionCommit_fixed (s : State) (merge) (readBack) (failed) :
    (State.optionCommit s merge readBack failed).fixed = s.fixed := by
  unfold State.optionCommit
  split
  · simp only [fixed_sec]
  · simp only [fixed_sec, State.commitOption_fixed]

theorem State.optionReload_fixed (s : State) : (State.optionReload s).fixed = s.fixed := by rfl

theorem State.eraseAll_fixed (s : State) : (State.eraseAll s).fixed = s.fixed := by rfl

theorem State.dropAll_fixed (s : State) : (State.dropAll s).fixed = s.fixed := by
  simp only [State.dropAll, fixed_foldl, implies_true, State.deferErase_fixed]

theorem State.mediaStops_fixed (s : State) : (State.mediaStops s).fixed = s.fixed := by rfl

theorem State.failJob_fixed (s : State) (i) (j) : (State.failJob s i j).fixed = s.fixed := by
  unfold State.failJob; repeat' split
  all_goals simp only [State.fail_fixed, State.dropJob_fixed]

theorem State.failJobs_fixed : ∀ (n : Nat) (s : State), (State.failJobs n s).fixed = s.fixed
  | 0, _ => rfl
  | n + 1, s => by
    unfold State.failJobs
    dsimp only
    repeat' split
    all_goals simp only [State.failJobs_fixed n, State.failJob_fixed]

theorem State.protAnswer_fixed (s : State) (st) : (State.protAnswer s st).fixed = s.fixed := by rfl

theorem State.takeBack_fixed (s : State) : (State.takeBack s).fixed = s.fixed := by
  simp only [State.takeBack, fixed_foldl, implies_true, State.joinRole_fixed, State.eraseCells_fixed]

theorem State.keyAnswer_fixed (s : State) (st) : (State.keyAnswer s st).fixed = s.fixed := by rfl

theorem State.fillKey_fixed (s : State) (slot) (key) : (State.fillKey s slot key).fixed = s.fixed := by
  simp only [State.fillKey, fixed_sec, fixed_ite, ite_self, State.journalNow_fixed, State.setComp_fixed]

theorem State.keyOp_fixed (s : State) (slot) (query) (f : State → State) (hf : ∀ t, (f t).fixed = t.fixed) :
    (State.keyOp s slot query f).fixed = s.fixed := by
  simp only [State.keyOp, fixed_sec, fixed_ite, ite_self, State.keyAnswer_fixed, hf]

theorem State.keyQuery_fixed (s : State) (slot) : (State.keyQuery s slot).fixed = s.fixed := by
  simp only [State.keyQuery, fixed_sec, implies_true, State.keyOp_fixed, State.keyAnswer_fixed]

theorem State.keyGenerate_fixed (s : State) (slot) : (State.keyGenerate s slot).fixed = s.fixed := by
  simp only [State.keyGenerate, fixed_ite, ite_self, implies_true, State.keyOp_fixed, State.keyAnswer_fixed, State.draw_fixed,
    State.fillKey_fixed]

theorem State.keyInstall_fixed (s : State) (slot) : (State.keyInstall s slot).fixed = s.fixed := by
  simp only [State.keyInstall, fixed_ite, ite_self, implies_true, State.keyOp_fixed, State.keyAnswer_fixed, State.fillKey_fixed]

theorem State.keyInstallWrapped_fixed (s : State) (slot) : (State.keyInstallWrapped s slot).fixed = s.fixed := by
  refine State.keyOp_fixed _ _ _ _ fun t => ?_
  repeat' split
  all_goals simp only [State.keyAnswer_fixed, State.fillKey_fixed]

theorem State.keyErase_fixed (s : State) (slot) : (State.keyErase s slot).fixed = s.fixed := by
  simp only [State.keyErase, fixed_sec, fixed_ite, ite_self, implies_true, State.keyOp_fixed, State.journalNow_fixed,
    State.eraseKey_fixed, State.keyAnswer_fixed, State.settleKey_fixed]

/-! ### Machine/Owners -/

theorem State.ownerEnds_fixed (s : State) (st) : (State.ownerEnds s st).fixed = s.fixed := by rfl

theorem State.ownerQuery_fixed (s : State) (o) : (State.ownerQuery s o).fixed = s.fixed := by
  simp only [State.ownerQuery, fixed_sec, fixed_ite, ite_self, State.ownerEnds_fixed]

theorem State.ownerRegister_fixed (s : State) (c) (o) (lim) : (State.ownerRegister s c o lim).fixed = s.fixed := by
  unfold State.ownerRegister; repeat' split
  all_goals simp only [State.ownerEnds_fixed, State.setOwner_fixed]

theorem State.ownerUnregister_fixed (s : State) (o) : (State.ownerUnregister s o).fixed = s.fixed := by
  simp only [State.ownerUnregister, fixed_ite, ite_self, State.ownerEnds_fixed, State.setOwner_fixed]

theorem State.ownerLimits_fixed (s : State) (o) (lim) : (State.ownerLimits s o lim).fixed = s.fixed := by
  unfold State.ownerLimits; repeat' split
  all_goals simp only [State.ownerEnds_fixed, State.setOwner_fixed]

theorem State.ownerReclaim_fixed (s : State) (o) : (State.ownerReclaim s o).fixed = s.fixed := by
  simp only [State.ownerReclaim, fixed_ite, ite_self, State.ownerEnds_fixed, State.reclaim_fixed]

theorem State.ownerOp_fixed (s : State) (op) (c) (o) (lim) : (State.ownerOp s op c o lim).fixed = s.fixed := by
  unfold State.ownerOp; repeat' split
  all_goals simp only [State.ownerQuery_fixed, State.ownerRegister_fixed, State.ownerUnregister_fixed, State.ownerLimits_fixed,
    State.ownerReclaim_fixed]

theorem State.ownerWrite_fixed (s : State) (op) (c) (o) (lim) : (State.ownerWrite s op c o lim).fixed = s.fixed := by
  simp only [State.ownerWrite, fixed_sec, State.ownerOp_fixed]

theorem ownerCommand_fixed (name) (port) (op) (comp) (owner) (segLimit) (s : State) :
    Kept s (ownerCommand name port op comp owner segLimit s) := by
  simp only [ownerCommand, implies_true, kept_arises, State.ownerWrite_fixed]

theorem execOwnerQuery_fixed (port) (comp) (owner) (segLimit) (s : State) :
    Kept s (execOwnerQuery port comp owner segLimit s) := by
  simp only [execOwnerQuery, ownerCommand_fixed]

theorem execOwnerRegister_fixed (port) (comp) (owner) (segLimit) (s : State) :
    Kept s (execOwnerRegister port comp owner segLimit s) := by
  simp only [execOwnerRegister, ownerCommand_fixed]

theorem execOwnerUnregister_fixed (port) (comp) (owner) (segLimit) (s : State) :
    Kept s (execOwnerUnregister port comp owner segLimit s) := by
  simp only [execOwnerUnregister, ownerCommand_fixed]

theorem execOwnerSetLimit_fixed (port) (comp) (owner) (segLimit) (s : State) :
    Kept s (execOwnerSetLimit port comp owner segLimit s) := by
  simp only [execOwnerSetLimit, ownerCommand_fixed]

theorem execOwnerReclaim_fixed (port) (comp) (owner) (segLimit) (s : State) :
    Kept s (execOwnerReclaim port comp owner segLimit s) := by
  simp only [execOwnerReclaim, ownerCommand_fixed]

/-! ### Machine/PowerLoss -/

theorem execInputRestored_fixed (s : State) : Kept s (execInputRestored s) := by
  unfold execInputRestored; repeat' split
  all_goals simp only [fixed_sec, kept_next, kept_cannot]

theorem execInputRangeChange_fixed (vIn) (s : State) : Kept s (execInputRangeChange vIn s) := by
  unfold execInputRangeChange; repeat' split
  all_goals simp only [fixed_sec, fixed_ite, ite_self, kept_next, kept_fault, kept_cannot, State.event_fixed]

theorem execBankMeasurement_fixed (cap) (esr) (s : State) : Kept s (execBankMeasurement cap esr s) := by
  simp only [execBankMeasurement, fixed_sec, implies_true, kept_arises, State.setLimit_fixed, State.event_fixed]

theorem execMeasStart_fixed (s : State) : Kept s (execMeasStart s) := by
  simp only [execMeasStart, implies_true, kept_arises, State.startMeasurement_fixed]

theorem execBankVoltageChange_fixed (v) (s : State) : Kept s (execBankVoltageChange v s) := by
  unfold execBankVoltageChange; repeat' split
  all_goals simp only [fixed_sec, kept_next, kept_cannot, State.relimit_fixed]

/-! ### Machine/RegWrite -/

theorem State.regClear_fixed (s : State) (off) (mask) : (State.regClear s off mask).fixed = s.fixed := by
  simp only [State.regClear, fixed_sec, fixed_ite, ite_self, State.setCplPort_fixed]

theorem State.windowClear_fixed (s : State) (n) (off) (mask) : (State.windowClear s n off mask).fixed = s.fixed := by
  unfold State.windowClear; repeat' split
  all_goals simp only [fixed_sec, State.setComp_fixed]

theorem State.glbWrite_fixed (s : State) (off) (v) (mask) : (State.glbWrite s off v mask).fixed = s.fixed := by
  simp only [State.glbWrite, fixed_sec, fixed_ite, ite_self]

theorem State.optWrite_fixed (s : State) (off) (v) (mask) (reel) : (State.optWrite s off v mask reel).fixed = s.fixed := by
  simp only [State.optWrite, fixed_sec, fixed_ite, ite_self]

theorem State.pwrWrite_fixed (s : State) (off) (v) (mask) : (State.pwrWrite s off v mask).fixed = s.fixed := by
  unfold State.pwrWrite; repeat' split
  all_goals simp only [fixed_sec, fixed_ite, ite_self, State.relimit_fixed]

theorem State.timWrite_fixed (s : State) (off) (v) (mask) : (State.timWrite s off v mask).fixed = s.fixed := by
  simp only [State.timWrite, fixed_sec, fixed_ite, ite_self]

theorem State.thmWrite_fixed (s : State) (off) (v) (mask) : (State.thmWrite s off v mask).fixed = s.fixed := by
  unfold State.thmWrite; repeat' split
  all_goals simp only [fixed_sec]

theorem State.retryHeld_fixed (s : State) (ones) : (State.retryHeld s ones).fixed = s.fixed := by
  simp only [State.retryHeld, fixed_ite, fixed_foldl, ite_self, implies_true, State.clearHeld_fixed]

theorem State.fanWrite_fixed (s : State) (off) (v) (mask) : (State.fanWrite s off v mask).fixed = s.fixed := by
  unfold State.fanWrite; repeat' split
  all_goals simp only [fixed_sec, State.retryHeld_fixed]

theorem State.optCmdWrite_fixed (s : State) (v) (mask) : (State.optCmdWrite s v mask).fixed = s.fixed := by
  unfold State.optCmdWrite; repeat' split
  all_goals simp only [State.draw_fixed, State.optionCommit_fixed, State.optionReload_fixed]

theorem State.keyCmdWrite_fixed (s : State) (v) (mask) : (State.keyCmdWrite s v mask).fixed = s.fixed := by
  unfold State.keyCmdWrite; repeat' split
  all_goals simp only [State.keyQuery_fixed, State.keyGenerate_fixed, State.keyInstall_fixed, State.keyInstallWrapped_fixed,
    State.keyErase_fixed]

theorem State.releaseChannel_fixed (s : State) : (State.releaseChannel s).fixed = s.fixed := by rfl

theorem State.memWrite_fixed (s : State) (off) (v) (mask) : (State.memWrite s off v mask).fixed = s.fixed := by
  unfold State.memWrite; repeat' split
  all_goals simp only [fixed_sec, fixed_ite, ite_self, State.releaseChannel_fixed]

theorem State.refuseLayout_fixed (s : State) : (State.refuseLayout s).fixed = s.fixed := by rfl

theorem State.domWrite_fixed (s : State) (v) (mask) : (State.domWrite s v mask).fixed = s.fixed := by
  simp only [State.domWrite, fixed_sec, fixed_ite, ite_self, State.refuseLayout_fixed]

theorem State.poolWrite_fixed (s : State) (v) (mask) : (State.poolWrite s v mask).fixed = s.fixed := by
  unfold State.poolWrite; repeat' split
  all_goals simp only [fixed_ite, ite_self, State.refuseLayout_fixed, State.levels_fixed, State.setPool_fixed]

theorem State.marksWrite_fixed (s : State) (d) (v) (mask) : (State.marksWrite s d v mask).fixed = s.fixed := by
  simp only [State.marksWrite, fixed_sec, fixed_ite, fixed_foldl, ite_self, implies_true, State.levels_fixed]

theorem State.ownerCmdWrite_fixed (s : State) (v) (mask) : (State.ownerCmdWrite s v mask).fixed = s.fixed := by
  simp only [State.ownerCmdWrite, fixed_sec, fixed_ite, ite_self, State.ownerOp_fixed]

theorem State.bpmWrite_fixed (s : State) (off) (v) (mask) : (State.bpmWrite s off v mask).fixed = s.fixed := by
  unfold State.bpmWrite; repeat' split
  all_goals simp only [fixed_sec, State.domWrite_fixed, State.marksWrite_fixed, State.poolWrite_fixed,
    State.ownerCmdWrite_fixed]

theorem State.hifWrite_fixed (s : State) (off) (v) (mask) : (State.hifWrite s off v mask).fixed = s.fixed := by
  unfold State.hifWrite; repeat' split
  all_goals simp only [fixed_sec, fixed_ite, ite_self]

theorem State.mirrorCmdWrite_fixed (s : State) (v) (mask) : (State.mirrorCmdWrite s v mask).fixed = s.fixed := by
  simp only [State.mirrorCmdWrite, fixed_sec, fixed_ite]
  repeat' split
  all_goals simp only [fixed_sec, State.mirrorBind_fixed, State.mirrorUnbind_fixed, State.mirrorPromote_fixed,
    State.mirrorResync_fixed, State.mirrorCopy_fixed, State.mirrorQuery_fixed]

theorem State.cplWrite_fixed (s : State) (off) (v) (mask) : (State.cplWrite s off v mask).fixed = s.fixed := by
  unfold State.cplWrite; repeat' split
  all_goals simp only [fixed_sec, State.judgeQuorum_fixed, State.leadChanged_fixed, State.mirrorCmdWrite_fixed]

theorem State.clrWrite_fixed (s : State) (off) (v) (mask) : (State.clrWrite s off v mask).fixed = s.fixed := by
  simp only [State.clrWrite, fixed_sec, fixed_ite, ite_self]

theorem State.queryZone_fixed (s : State) (z) : (State.queryZone s z).fixed = s.fixed := by rfl

theorem State.zneWrite_fixed (s : State) (off) (v) (mask) : (State.zneWrite s off v mask).fixed = s.fixed := by
  unfold State.zneWrite; repeat' split
  all_goals simp only [fixed_sec, State.queryZone_fixed]

theorem State.fcdWrite_fixed (s : State) (off) (v) (mask) : (State.fcdWrite s off v mask).fixed = s.fixed := by
  simp only [State.fcdWrite, fixed_sec, fixed_ite, ite_self]

theorem State.cluWrite_fixed (s : State) (k) (off) (v) (mask) : (State.cluWrite s k off v mask).fixed = s.fixed := by
  unfold State.cluWrite; repeat' split
  all_goals simp only [fixed_sec]

theorem State.chnWrite_fixed (s : State) (c) (off) (v) (mask) : (State.chnWrite s c off v mask).fixed = s.fixed := by
  unfold State.chnWrite; repeat' split
  all_goals simp only [fixed_sec]

theorem State.bellWrite_fixed (s : State) (p) (comp) (qid) (v) (mask) :
    (State.bellWrite s p comp qid v mask).fixed = s.fixed := by
  simp only [State.bellWrite, fixed_ite, ite_self, State.doorbell_fixed]

theorem State.msixWrite_fixed (s : State) (p) (i) (w) : (State.msixWrite s p i w).fixed = s.fixed := by
  simp only [State.msixWrite, fixed_sec, fixed_ite, ite_self, State.emit_fixed]

theorem State.barZeroWrite_fixed (s : State) (p) (off) (v) (mask) : (State.barZeroWrite s p off v mask).fixed = s.fixed := by
  simp only [State.barZeroWrite, fixed_ite, ite_self, State.msixWrite_fixed, State.bellWrite_fixed, State.controllerEn_fixed]

theorem State.windowWrite_fixed (s : State) (p) (n) (off) (v) (mask) :
    (State.windowWrite s p n off v mask).fixed = s.fixed := by
  unfold State.windowWrite; repeat' split
  all_goals simp only [fixed_sec, fixed_ite, ite_self, State.compartmentEn_fixed, State.setComp_fixed]

theorem State.barFourWrite_fixed (s : State) (p) (off) (v) (mask) : (State.barFourWrite s p off v mask).fixed = s.fixed := by
  simp only [State.barFourWrite, fixed_ite, ite_self, State.bellWrite_fixed, State.windowWrite_fixed]

/-! ### Machine/KSys -/

theorem execTimerd_fixed (w) (s : State) : Kept s (execTimerd w s) := by
  simp only [execTimerd, implies_true, State.runJournal_fixed]

theorem execTimset_fixed (w) (s : State) : Kept s (execTimset w s) := by
  simp only [execTimset, State.runHeld_fixed]

theorem execPmode_fixed (w) (s : State) : Kept s (execPmode w s) := by
  simp only [execPmode, State.runHeld_fixed]

theorem execPstate_fixed (w) (s : State) : Kept s (execPstate w s) := by
  simp only [execPstate, State.runHeld_fixed]

theorem execEvpost_fixed (w) (s : State) : Kept s (execEvpost w s) := by
  simp only [execEvpost, State.runHeld_fixed]

theorem execEvnext_fixed (w) (s : State) : Kept s (execEvnext w s) := by
  refine State.runJournal_fixed _ _ _ _ _ _ _ _ fun k => ?_
  dsimp only
  repeat' split
  all_goals simp only [State.status_fixed, State.setKinst_fixed]

theorem runEvsub_fixed (s : State) (name) (clear) (w) (eff : KCtx → State.Answer) (heff : ∀ y0, (eff y0).s.fixed = s.fixed) :
    Kept s (runEvsub s name clear w eff) := by
  simp only [runEvsub, implies_true, kept_cannot, kept_ite, and_self, State.runJournal_fixed, heff]

theorem execEvsubAdd_fixed (w) (s : State) : Kept s (execEvsubAdd w s) := by
  refine runEvsub_fixed _ _ _ _ _ fun k => ?_
  repeat' split
  all_goals simp only [State.status_fixed, State.setKinst_fixed]

theorem execEvsubClear_fixed (w) (s : State) : Kept s (execEvsubClear w s) := by
  refine runEvsub_fixed _ _ _ _ _ fun k => ?_
  repeat' split
  all_goals simp only [State.status_fixed, State.setKinst_fixed]

theorem execRegrd_fixed (w) (s : State) : Kept s (execRegrd w s) := by
  simp only [execRegrd, implies_true, State.runJournal_fixed, State.status_fixed, State.draw_fixed, State.regClear_fixed]

theorem execRegwr_fixed (w) (s : State) : Kept s (execRegwr w s) := by
  simp only [execRegwr, State.runHeld_fixed]

theorem runHostDma_fixed (s : State) (name) (op) (w) (unitOp : DmaFrom → Nat → Nat → Nat → Nat → UnitOp) :
    Kept s (runHostDma s name op w unitOp) := by
  simp only [runHostDma, implies_true, State.runTicket_fixed, State.addOp_fixed]

theorem execHdmard_fixed (w) (s : State) : Kept s (execHdmard w s) := by
  simp only [execHdmard, runHostDma_fixed]

theorem execHdmawr_fixed (w) (s : State) : Kept s (execHdmawr w s) := by
  simp only [execHdmawr, runHostDma_fixed]

theorem State.startMount_fixed (s : State) (full) : (State.startMount s full).fixed = s.fixed := by rfl

theorem runMount_fixed (s : State) (name) (full) (w) : Kept s (runMount s name full w) := by
  simp only [runMount, fixed_ite, ite_self, implies_true, kept_cannot, kept_ite, and_self, State.runTicket_fixed,
    State.addOp_fixed, State.startMount_fixed]

theorem execMountCheckpoint_fixed (w) (s : State) : Kept s (execMountCheckpoint w s) := by
  simp only [execMountCheckpoint, runMount_fixed]

theorem execMountFullScan_fixed (w) (s : State) : Kept s (execMountFullScan w s) := by
  simp only [execMountFullScan, runMount_fixed]

theorem execCkpt_fixed (w) (s : State) : Kept s (execCkpt w s) := by
  simp only [execCkpt, fixed_ite, ite_self, implies_true, State.runTicket_fixed, State.addOp_fixed, State.startCkpt_fixed]

theorem execUnpark_fixed (w) (s : State) : Kept s (execUnpark w s) := by
  simp only [execUnpark, State.runHeld_fixed]

theorem execStop_fixed (w) (s : State) : Kept s (execStop w s) := by
  simp only [execStop, fixed_ite, ite_self, implies_true, State.runTicket_fixed, State.addOp_fixed, State.stopCheck_fixed,
    State.beginStop_fixed]

theorem runCmpset_fixed (s : State) (name) (res) (w) : Kept s (runCmpset s name res w) := by
  simp only [runCmpset, implies_true, kept_cannot, kept_ite, and_self, State.runHeld_fixed]

theorem execCmpsetQueuePairs_fixed (w) (s : State) : Kept s (execCmpsetQueuePairs w s) := by
  simp only [execCmpsetQueuePairs, runCmpset_fixed]

theorem execCmpsetActiveQuota_fixed (w) (s : State) : Kept s (execCmpsetActiveQuota w s) := by
  simp only [execCmpsetActiveQuota, runCmpset_fixed]

theorem execCmpsetDirectQuota_fixed (w) (s : State) : Kept s (execCmpsetDirectQuota w s) := by
  simp only [execCmpsetDirectQuota, runCmpset_fixed]

theorem execCmpsetBufferFloor_fixed (w) (s : State) : Kept s (execCmpsetBufferFloor w s) := by
  simp only [execCmpsetBufferFloor, runCmpset_fixed]

theorem execCmpsetCreditShare_fixed (w) (s : State) : Kept s (execCmpsetCreditShare w s) := by
  simp only [execCmpsetCreditShare, runCmpset_fixed]

theorem execCmpsetLatencyClass_fixed (w) (s : State) : Kept s (execCmpsetLatencyClass w s) := by
  simp only [execCmpsetLatencyClass, runCmpset_fixed]

/-! ### Machine/KCommit -/

theorem State.dropHeld_fixed (s : State) (c) (comp) (epoch) (op) : (State.dropHeld s c comp epoch op).fixed = s.fixed := by
  simp only [State.dropHeld, State.event_fixed]

theorem State.unpark_fixed (s : State) : (State.unpark s).fixed = s.fixed := by rfl

theorem State.hintIdle_fixed (s : State) (comp) : (State.hintIdle s comp).fixed = s.fixed := by
  simp only [State.hintIdle, fixed_sec, fixed_ite, ite_self, State.enterIdle_fixed]

theorem runCommit_fixed (s : State) (name) (op) (free) (w) (eff : State → KCtx → State) (heff : ∀ t y1,
    (eff t y1).fixed = t.fixed) : Kept s (runCommit s name op free w eff) := by
  unfold runCommit; repeat' split
  all_goals simp only [implies_true, kept_cannot, kept_arises, State.reelIssues_fixed, State.trapReel_fixed, heff]

theorem State.fillBuf_fixed (s : State) (h) (off) (bs) : (State.fillBuf s h off bs).fixed = s.fixed := by
  unfold State.fillBuf; repeat' split
  all_goals simp only [State.writeBuf_fixed]

theorem State.pageRead_fixed {s : State} {o} {d} {b} {p} {h} {off} {raw} {st} {flips} {t}
    (h : State.pageRead s o d b p h off raw st flips = some t) : t.fixed = s.fixed := by
  unfold State.pageRead at h
  extract_lets at h
  repeat' split at h
  all_goals cases h
  all_goals simp +zetaDelta only [State.settleOp_fixed, State.finishRead_fixed, State.fillBuf_fixed]

theorem State.recordRead_fixed {s : State} {o} {d} {b} {p} {a} {st} {flips} {t}
    (h : State.recordRead s o d b p a st flips = some t) : t.fixed = s.fixed := by
  unfold State.recordRead at h
  extract_lets at h
  repeat' split at h
  all_goals cases h
  all_goals simp +zetaDelta only [State.settleOp_fixed, State.finishRead_fixed]

theorem State.hostRead_fixed {s : State} {o} {len} {h} {off} {data} {t} (h : State.hostRead s o len h off data = some t) :
    t.fixed = s.fixed := by
  unfold State.hostRead at h
  repeat' split at h
  all_goals cases h
  all_goals simp only [State.settleOp_fixed, State.fillBuf_fixed]

theorem State.hostWrite_fixed (s : State) (o) (x) (addr) (len) (h) (off) :
    (State.hostWrite s o x addr len h off).fixed = s.fixed := by
  simp only [State.hostWrite, fixed_ite, ite_self, State.settleOp_fixed, State.emit_fixed]

theorem State.codecDone_fixed {s : State} {o} {x} {h} {off} {restore} {t} (h : State.codecDone s o x h off restore = some t) :
    t.fixed = s.fixed := by
  unfold State.codecDone at h
  repeat' split at h
  all_goals cases h
  all_goals simp only [State.dropJob_fixed, State.settleCodec_fixed, State.settleOp_fixed, State.setCodecState_fixed,
    State.fillBuf_fixed]

theorem State.completeOp_fixed {s : State} {o} {st} {result} {data} {t} (h : State.completeOp s o st result data = some t) :
    t.fixed = s.fixed := by
  unfold State.completeOp at h
  split at h
  · exact State.pageRead_fixed h
  · exact State.recordRead_fixed h
  · split at h
    · cases h; exact State.settleOp_fixed _ _ _ _
    · cases h
  · exact State.hostRead_fixed h
  · cases h; exact State.hostWrite_fixed _ _ _ _ _ _ _
  · exact State.codecDone_fixed h
  · exact State.codecDone_fixed h
  · cases h; exact State.settleOp_fixed _ _ _ _
  all_goals cases h

theorem execTicketCompletion_fixed (ctx) (ticket) (st) (result) (data) (s : State) :
    Kept s (execTicketCompletion ctx ticket st result data s) := by
  simp only [execTicketCompletion]
  repeat' split
  all_goals simp only [kept_next, kept_cannot]
  all_goals exact State.completeOp_fixed ‹_›

/-! ### Machine/KUnit -/

theorem execCouple_fixed (w) (s : State) : Kept s (execCouple w s) := by
  refine State.runJournal_fixed _ _ _ _ _ _ _ _ fun k => ?_
  split <;> simp only [State.status_fixed, State.couple_fixed]

theorem execUncouple_fixed (w) (s : State) : Kept s (execUncouple w s) := by
  simp only [execUncouple, fixed_ite, ite_self, implies_true, State.runTicket_fixed, State.addOp_fixed, State.setCarriage_fixed]

theorem execCarrd_fixed (w) (s : State) : Kept s (execCarrd w s) := by
  simp only [execCarrd, implies_true, State.runJournal_fixed, State.status_fixed]

theorem runBuffer_fixed (s : State) (name) (f) (w) (traps : KCtx → List TrapIf) (eff : KCtx → State.Answer) (heff : ∀ y0,
    (eff y0).s.fixed = s.fixed) : Kept s (runBuffer s name f w traps eff) := by
  simp only [runBuffer, implies_true, State.runJournal_fixed, heff]

theorem execBalloc_fixed (w) (s : State) : Kept s (execBalloc w s) := by
  refine runBuffer_fixed _ _ _ _ _ _ fun k => ?_
  dsimp only
  simp only [apply_ite State.Answer.s, fixed_ite, State.status_fixed, State.alloc_fixed, ite_self]

theorem State.shareBuf_fixed (s : State) (h) (o) (final) : (State.shareBuf s h o final).2.fixed = s.fixed := by
  unfold State.shareBuf; repeat' split
  all_goals simp only [State.setBuf_fixed]

theorem execBshare_fixed (w) (s : State) : Kept s (execBshare w s) := by
  simp only [execBshare, implies_true, runBuffer_fixed, State.shareBuf_fixed, State.status_fixed]

theorem execBdrop_fixed (w) (s : State) : Kept s (execBdrop w s) := by
  simp only [execBdrop, implies_true, runBuffer_fixed, State.dropShare_fixed, State.status_fixed]

theorem execBfree_fixed (w) (s : State) : Kept s (execBfree w s) := by
  simp only [execBfree, implies_true, runBuffer_fixed, State.freeShare_fixed, State.status_fixed]

theorem execBinfo_fixed (w) (s : State) : Kept s (execBinfo w s) := by
  simp only [execBinfo, implies_true, runBuffer_fixed, State.status_fixed]

theorem execCxgrant_fixed (w) (s : State) : Kept s (execCxgrant w s) := by
  refine State.runJournal_fixed _ _ _ _ _ _ _ _ fun k => ?_
  dsimp only
  repeat' split
  all_goals simp only [State.status_fixed, State.setCodecCtx_fixed]

theorem execCxrevoke_fixed (w) (s : State) : Kept s (execCxrevoke w s) := by
  refine State.runJournal_fixed _ _ _ _ _ _ _ _ fun k => ?_
  split <;> simp only [State.status_fixed, State.revokeCtx_fixed]

theorem runCodecState_fixed (s : State) (name) (op) (w) (unitOp : Nat → Nat → Nat → UnitOp) :
    Kept s (runCodecState s name op w unitOp) := by
  simp only [runCodecState, implies_true, State.runTicket_fixed, State.addJob_fixed, State.addOp_fixed]

theorem execCxsave_fixed (w) (s : State) : Kept s (execCxsave w s) := by
  simp only [execCxsave, runCodecState_fixed]

theorem execCxrestore_fixed (w) (s : State) : Kept s (execCxrestore w s) := by
  simp only [execCxrestore, runCodecState_fixed]

/-! ### Machine/Levels -/

theorem execTakeoverDrainComplete_fixed (s : State) : Kept s (execTakeoverDrainComplete s) := by
  simp only [execTakeoverDrainComplete, fixed_sec, implies_true, kept_arises, State.draw_fixed, State.event_fixed]

theorem execCallerWatchdogExpiry_fixed (caller) (s : State) : Kept s (execCallerWatchdogExpiry caller s) := by
  simp only [execCallerWatchdogExpiry, implies_true, kept_arises, State.loseCaller_fixed]

theorem execUnitFault_fixed (kind) (inst) (cause) (s : State) : Kept s (execUnitFault kind inst cause s) := by
  unfold execUnitFault; repeat' split
  all_goals simp only [kept_next, kept_cannot]
  all_goals exact State.unitFault_fixed ‹_›

theorem execLevelWatchdogExpiry_fixed (kind) (inst) (s : State) : Kept s (execLevelWatchdogExpiry kind inst s) := by
  unfold execLevelWatchdogExpiry; repeat' split
  all_goals simp only [kept_next, kept_cannot]
  all_goals exact State.unitFault_fixed ‹_›

theorem execCrossbarAttachmentLost_fixed (cluster) (region) (s : State) :
    Kept s (execCrossbarAttachmentLost cluster region s) := by
  simp only [execCrossbarAttachmentLost, fixed_ite, ite_self, implies_true, kept_arises, State.event_fixed,
    State.xbarLoss_fixed, State.loseCluster_fixed]

theorem execPowerManagerHeartbeatMiss_fixed (region) (s : State) : Kept s (execPowerManagerHeartbeatMiss region s) := by
  simp only [execPowerManagerHeartbeatMiss, implies_true, kept_arises, State.draw_fixed, State.event_fixed]

/-! ### Machine/MemInt -/

theorem State.softRepair_fixed (s : State) (macro_) (address) (source) :
    (State.softRepair s macro_ address source).fixed = s.fixed := by
  simp only [State.softRepair, fixed_sec, fixed_ite, ite_self, State.event_fixed]

theorem State.withdrawBuf_fixed (s : State) (h) : (State.withdrawBuf s h).fixed = s.fixed := by
  unfold State.withdrawBuf; repeat' split
  all_goals simp only [State.setBuf_fixed]

theorem State.withdrawFrame_fixed (s : State) (channel) (frame) (a) :
    (State.withdrawFrame s channel frame a).fixed = s.fixed := by
  simp only [State.withdrawFrame]
  repeat' split
  all_goals simp only [fixed_sec, State.softRepair_fixed, State.event_fixed, State.withdrawBuf_fixed]

theorem State.markBad_fixed (s : State) (w) : (State.markBad s w).fixed = s.fixed := by
  simp only [State.markBad, fixed_sec, fixed_ite, ite_self]

theorem State.loseZoneData_fixed (s : State) (z) : (State.loseZoneData s z).fixed = s.fixed := by
  simp only [State.loseZoneData, fixed_ite, ite_self, State.reduceZone_fixed, State.setZone_fixed]

theorem State.loseConvData_fixed (s : State) (us) : (State.loseConvData s us).fixed = s.fixed := by
  simp only [State.loseConvData, fixed_sec, fixed_foldl, implies_true, State.convUnmap_fixed]

theorem State.loseSeg_fixed (s : State) (f) (j) : (State.loseSeg s f j).fixed = s.fixed := by
  unfold State.loseSeg; repeat' split
  all_goals simp only [State.loseZoneData_fixed, State.failTransfer_fixed, State.loseConvData_fixed]

theorem State.rebuildEntry_fixed (s : State) (table) (index) : (State.rebuildEntry s table index).fixed = s.fixed := by
  simp only [State.rebuildEntry, fixed_sec, State.warning_fixed, State.event_fixed]

theorem State.dramLost_fixed (s : State) (a) : (State.dramLost s a).fixed = s.fixed := by
  unfold State.dramLost; repeat' split
  all_goals simp only [State.markBad_fixed, State.loseSeg_fixed, State.rebuildEntry_fixed, State.discardEntry_fixed,
    State.loseZoneData_fixed]

theorem State.dramCorrected_fixed (s : State) (channel) (device) (frame) (a) :
    (State.dramCorrected s channel device frame a).fixed = s.fixed := by
  simp only [State.dramCorrected, fixed_sec, fixed_ite, ite_self, State.event_fixed, State.withdrawFrame_fixed]

theorem State.macroFull_fixed (s : State) (a) : (State.macroFull s a).fixed = s.fixed := by
  unfold State.macroFull
  split
  · exact State.withdrawBuf_fixed _ _
  · rfl
  · exact fixed_getD fun _ h => State.unitFault_fixed h
  · exact fixed_getD fun _ h => State.unitFault_fixed h
  · exact (State.draw_fixed _).trans (fixed_getD fun _ h => State.unitFault_fixed h)

theorem State.remapWord_fixed (s : State) (macro_) (word) (a) : (State.remapWord s macro_ word a).fixed = s.fixed := by
  simp only [State.remapWord, fixed_sec, fixed_ite, ite_self, State.softRepair_fixed, State.event_fixed, State.macroFull_fixed]

theorem State.redrive_fixed (s : State) (f) : (State.redrive s f).fixed = s.fixed := by
  unfold State.redrive; repeat' split
  all_goals simp only [State.enqueue_fixed, State.setSense_fixed]

theorem State.sramLost_fixed (s : State) (a) : (State.sramLost s a).fixed = s.fixed := by
  unfold State.sramLost; repeat' split
  all_goals simp only [State.markBad_fixed, State.redrive_fixed]

theorem execDramScrubStep_fixed (r) (s : State) : Kept s (execDramScrubStep r s) := by
  unfold execDramScrubStep; repeat' split
  all_goals simp only [fixed_sec, implies_true, kept_next, kept_cannot, kept_arises, State.dramCorrected_fixed,
    State.dramLost_fixed, State.withdrawFrame_fixed]

theorem execSramScrubStep_fixed (r) (s : State) : Kept s (execSramScrubStep r s) := by
  unfold execSramScrubStep; repeat' split
  all_goals simp only [fixed_sec, fixed_ite, ite_self, implies_true, kept_next, kept_cannot, kept_arises,
    State.remapWord_fixed, State.sramLost_fixed]

theorem execBufferLeak_fixed (owner) (s : State) : Kept s (execBufferLeak owner s) := by
  unfold execBufferLeak; repeat' split
  all_goals simp only [implies_true, kept_cannot, kept_arises, State.event_fixed, State.setOwner_fixed]

/-! ### Machine/MgmtOps -/

theorem State.answerMi_fixed (s : State) (r) : (State.answerMi s r).fixed = s.fixed := by
  simp only [State.answerMi]
  repeat' split
  all_goals simp only [State.emit_fixed]
  all_goals exact State.logData_fixed ‹_›

theorem State.answerWaiting_fixed (s : State) : (State.answerWaiting s).fixed = s.fixed := by
  simp only [State.answerWaiting, fixed_sec, fixed_foldl, implies_true, State.answerMi_fixed]

/-! ### Machine/Mgmt -/

theorem State.miRequest_fixed (s : State) (name) (r) : Kept s (State.miRequest s name r) := by
  unfold State.miRequest
  split
  · next h => simp only [kept_ite, kept_next, kept_arises, State.answerMi_fixed, fixed_mk, State.wakeFired_fixed h,
    implies_true, and_self]
  · trivial

theorem execI3cBroadcast_fixed (daa) (s : State) : Kept s (execI3cBroadcast daa s) := by
  simp only [execI3cBroadcast, fixed_sec, implies_true, kept_arises]

theorem execBasicManagementCommand_fixed (s : State) : Kept s (execBasicManagementCommand s) := by
  simp only [execBasicManagementCommand, fixed_ite, ite_self, implies_true, kept_arises, State.emit_fixed]

theorem execSubsystemHealthStatusPoll_fixed (s : State) : Kept s (execSubsystemHealthStatusPoll s) := by
  simp only [execSubsystemHealthStatusPoll, State.miRequest_fixed]

theorem execVpdRead_fixed (off) (len) (s : State) : Kept s (execVpdRead off len s) := by
  simp only [execVpdRead, State.miRequest_fixed]

theorem execTunnelledIdentify_fixed (cns) (csi) (cntid) (nsid) (off) (len) (s : State) :
    Kept s (execTunnelledIdentify cns csi cntid nsid off len s) := by
  simp only [execTunnelledIdentify, State.miRequest_fixed]

theorem execTunnelledGetLogPage_fixed (lid) (nsid) (off) (len) (s : State) :
    Kept s (execTunnelledGetLogPage lid nsid off len s) := by
  simp only [execTunnelledGetLogPage, State.miRequest_fixed]

theorem execMiInvalidCommand_fixed (opcode) (s : State) : Kept s (execMiInvalidCommand opcode s) := by
  simp only [execMiInvalidCommand, State.miRequest_fixed]

/-! ### Machine/Pins -/

theorem State.cableChange_fixed (s : State) (p) (mated) : (State.cableChange s p mated).fixed = s.fixed := by
  simp only [State.cableChange, fixed_sec, fixed_ite, ite_self, State.linkDown_fixed, State.event_fixed, State.setCplPort_fixed]

theorem State.jtag_fixed (s : State) (name) (i) : Kept s (State.jtag s name i) := by
  simp only [State.jtag, fixed_sec, implies_true, kept_arises]

theorem execModIdChange_fixed (live) (s : State) : Kept s (execModIdChange live s) := by
  simp only [execModIdChange, fixed_sec, fixed_ite, ite_self, implies_true, kept_arises, State.event_fixed]

theorem execCablePresentChange_fixed (port) (mated) (s : State) : Kept s (execCablePresentChange port mated s) := by
  simp only [execCablePresentChange, fixed_ite, ite_self, implies_true, kept_arises, State.cableChange_fixed]

theorem execPeek_fixed (off) (s : State) : Kept s (execPeek off s) := by
  simp only [execPeek, fixed_ite, ite_self, implies_true, kept_arises, State.emit_fixed, State.draw_fixed]

theorem execBypass_fixed (s : State) : Kept s (execBypass s) := by
  simp only [execBypass, State.jtag_fixed]

theorem execIdcode_fixed (s : State) : Kept s (execIdcode s) := by
  simp only [execIdcode, State.jtag_fixed]

theorem execSamplePreload_fixed (s : State) : Kept s (execSamplePreload s) := by
  simp only [execSamplePreload, State.jtag_fixed]

theorem execExtest_fixed (s : State) : Kept s (execExtest s) := by
  simp only [execExtest, State.jtag_fixed]

theorem execClamp_fixed (s : State) : Kept s (execClamp s) := by
  simp only [execClamp, State.jtag_fixed]

theorem execHighz_fixed (s : State) : Kept s (execHighz s) := by
  simp only [execHighz, State.jtag_fixed]

/-! ### Machine/Protect -/

theorem execOptionCommit_fixed (merge) (report) (s : State) : Kept s (execOptionCommit merge report s) := by
  simp only [execOptionCommit, implies_true, kept_arises, State.optionCommit_fixed, State.startClocks_fixed]

theorem execOptionReload_fixed (s : State) : Kept s (execOptionReload s) := by
  simp only [execOptionReload, implies_true, kept_arises, State.optionReload_fixed, State.startClocks_fixed]

theorem execKeyQuery_fixed (slot) (s : State) : Kept s (execKeyQuery slot s) := by
  simp only [execKeyQuery, implies_true, kept_arises, State.keyQuery_fixed, State.startClock_fixed]

theorem execKeyGenerate_fixed (slot) (s : State) : Kept s (execKeyGenerate slot s) := by
  simp only [execKeyGenerate, implies_true, kept_arises, State.keyGenerate_fixed, State.startClock_fixed]

theorem execKeyInstall_fixed (slot) (s : State) : Kept s (execKeyInstall slot s) := by
  simp only [execKeyInstall, implies_true, kept_arises, State.keyInstall_fixed, State.startClock_fixed]

theorem execKeyInstallWrapped_fixed (slot) (s : State) : Kept s (execKeyInstallWrapped slot s) := by
  simp only [execKeyInstallWrapped, implies_true, kept_arises, State.keyInstallWrapped_fixed, State.startClock_fixed]

theorem execKeyErase_fixed (slot) (s : State) : Kept s (execKeyErase slot s) := by
  simp only [execKeyErase, implies_true, kept_arises, State.keyErase_fixed, State.startClock_fixed]

theorem execSanitizeOverwrite_fixed (h) (s : State) : Kept s (execSanitizeOverwrite h s) := by
  simp only [execSanitizeOverwrite, implies_true, admin_fixed, State.fail_fixed]

theorem execSanitizeExitFailureMode_fixed (h) (s : State) : Kept s (execSanitizeExitFailureMode h s) := by
  simp only [execSanitizeExitFailureMode, fixed_sec, fixed_ite, ite_self, implies_true, admin_fixed, State.done_fixed,
    State.fail_fixed]

/-! ### Machine/Regs -/

theorem State.accessClear_fixed (s : State) (port) (bar) (off) (bytes) :
    (State.accessClear s port bar off bytes).fixed = s.fixed := by
  unfold State.accessClear; repeat' split
  all_goals simp only [fixed_ite, ite_self, State.regClear_fixed, State.windowClear_fixed]

theorem execRegisterReadClear_fixed (port) (bar) (off) (bytes) (s : State) :
    Kept s (execRegisterReadClear port bar off bytes s) := by
  simp only [execRegisterReadClear, implies_true, kept_arises, State.draw_fixed, State.emit_fixed, State.accessClear_fixed]

theorem execMisalignedAccess_fixed (port) (isRead) (_bytes) (s : State) :
    Kept s (execMisalignedAccess port isRead _bytes s) := by
  simp only [execMisalignedAccess, fixed_ite, ite_self, implies_true, kept_arises, State.emit_fixed, State.setPort_fixed]

theorem execZoneQuery_fixed (zone) (s : State) : Kept s (execZoneQuery zone s) := by
  simp only [execZoneQuery, implies_true, kept_arises, State.queryZone_fixed]

theorem execDmaChannelRelease_fixed (s : State) : Kept s (execDmaChannelRelease s) := by
  simp only [execDmaChannelRelease, implies_true, kept_arises, State.releaseChannel_fixed]

/-! ### Machine/Sleep -/

theorem State.wakeStep_fixed (s : State) (t) (n) (elapsedUs) : (State.wakeStep s t n elapsedUs).fixed = s.fixed := by
  simp only [State.wakeStep, fixed_sec, fixed_ite, ite_self, State.advanceTo_fixed, State.answerWaiting_fixed,
    State.wakeResume_fixed, State.cut_fixed]

theorem execIdleTimerExpiry_fixed (s : State) : Kept s (execIdleTimerExpiry s) := by
  simp only [execIdleTimerExpiry, implies_true, kept_arises, State.enterIdle_fixed, State.advanceTo_fixed]

theorem execWakeSourceFired_fixed (mask) (s : State) : Kept s (execWakeSourceFired mask s) := by
  simp only [execWakeSourceFired]
  repeat' split
  all_goals simp only [kept_next, kept_cannot]
  all_goals exact State.wakeFired_fixed ‹_›

theorem execWakeStep_fixed (elapsedUs) (s : State) : Kept s (execWakeStep elapsedUs s) := by
  unfold execWakeStep; repeat' split
  all_goals simp only [implies_true, kept_cannot, kept_arises, State.wakeStep_fixed]

theorem execWakeStepTimeout_fixed (s : State) : Kept s (execWakeStepTimeout s) := by
  unfold execWakeStepTimeout; repeat' split
  all_goals simp only [fixed_sec, kept_next, kept_cannot]

theorem execWakeTimerExpiry_fixed (s : State) : Kept s (execWakeTimerExpiry s) := by
  unfold execWakeTimerExpiry
  repeat' split
  · trivial
  · next h => simp only [kept_next, State.disarm_fixed, State.wakeFired_fixed h, State.advanceTo_fixed]
  · trivial

theorem execDomainCloseForced_fixed (domain) (victims) (s : State) : Kept s (execDomainCloseForced domain victims s) := by
  unfold execDomainCloseForced
  extract_lets hit ops n t p1 t1
  have ht : t.fixed = s.fixed := by
    refine (fixed_foldl _ (fun t v => ?_) _ _).trans (fixed_foldl _ (fun t o => State.settleOp_fixed _ _ _ _) _ _)
    split <;> simp only [State.killFlight_fixed]
  clear_value t
  split
  · simp only [t1, kept_arises, State.event_fixed, fixed_mk, ht, implies_true]
  · trivial

end Sys2Proof.Machine
end

section
/-! SUPPORT. The functions that change the level, the sanitize or the seal fuse, and the two invariants of every step. -/

namespace Sys2Proof.Machine
open Sys2Proof

/-! ### What every step keeps (R4 to R6, R544, R546, R547) -/

/-- The queue stays, of the part only the seal fuse may change, which never mends, and a sealed module stays sealed. -/
structure Guarded (s t : State) : Prop where
  queue : t.pending = s.pending
  part : t.part = { s.part with sealFuse := t.part.sealFuse }
  fuse : s.part.sealFuse = true → t.part.sealFuse = true
  sealed : Sealed s → Sealed t

/-- Every next state is guarded. -/
def Guards (s : State) (o : Out) : Prop := ∀ t, o = .next t → Guarded s t

namespace Guarded

theorem trans {s t u : State} (a : Guarded s t) (b : Guarded t u) : Guarded s u :=
  ⟨b.queue.trans a.queue, by rw [b.part, a.part], fun h => b.fuse (a.fuse h), fun h => b.sealed (a.sealed h)⟩

theorem of_fixed {s t : State} (h : t.fixed = s.fixed) : Guarded s t := by
  simp only [State.fixed, Fixed.mk.injEq] at h
  obtain ⟨hq, hp, hl, ha, hn⟩ := h
  exact ⟨hq, by rw [hp], by rw [hp]; exact id, by unfold Sealed; rw [hp, hl, ha, hn]; exact id⟩

theorem refl (s : State) : Guarded s s := of_fixed rfl

theorem ite {s t u : State} {c : Prop} [Decidable c] (a : Guarded s t) (b : Guarded s u) : Guarded s (if c then t else u) := by
  split <;> assumption

theorem foldl {α : Type} {f : State → α → State} (hf : ∀ s a, Guarded s (f s a)) (l : List α) :
    ∀ s, Guarded s (l.foldl f s) := by
  induction l with
  | nil => exact refl
  | cons a l ih => exact fun s => (hf s a).trans (ih _)

/-- An update that leaves queue and part, and a level and sanitize that keep a blown module sealed. -/
theorem of_sec {s t : State} (hq : t.pending = s.pending) (hp : t.part = s.part) (hs : Sealed s → Sealed t) : Guarded s t :=
  ⟨hq, by rw [hp], by rw [hp]; exact id, hs⟩

end Guarded

theorem guards_of_kept {s : State} {o : Out} (h : Kept s o) : Guards s o := fun _ ho => by
  subst ho; exact .of_fixed h

theorem guards_next {s t : State} (h : Guarded s t) : Guards s (.next t) := fun _ e => by cases e; exact h

theorem guards_cannot (s : State) (n : String) : Guards s (cannot n) := fun _ e => by cases e

theorem guards_arises {s t : State} (b : Bool) (n : String) (h : b = true → Guarded s t) : Guards s (arises b n t) := by
  cases b
  · exact guards_cannot s n
  · exact guards_next (h rfl)

/-! ### Power off and the flush -/

theorem powerOff_guarded (s : State) : Guarded s s.powerOff := by
  refine .of_sec rfl rfl fun h => ?_
  intro hf
  have hf' : s.part.sealFuse = true := hf
  refine ⟨?_, (h hf').2⟩
  show (if s.part.sealFuse then ProtLevel.sealed else _) = _
  rw [if_pos hf']

theorem flushNext_guarded (s : State) (n : Nat) : Guarded s (s.flushNext n) := by
  unfold State.flushNext
  extract_lets at_ p0 p off b w l
  have hoff : Guarded s off := (Guarded.of_fixed (State.writeMarker_fixed s 2)).trans (powerOff_guarded p)
  clear_value off
  refine .ite ?_ (.ite ?_ (.ite ?_ (.ite ?_ (.ite (hoff.trans (.of_fixed ?_)) hoff))))
  · exact .of_fixed (by simp only [at_, fixed_mk, State.shadowAll_fixed, State.programsOf_fixed])
  · exact .of_fixed (by simp only [at_, p0, fixed_mk, fixed_foldl, State.closeLandRow_fixed, State.programsOf_fixed, implies_true])
  · exact .of_fixed (by simp only [at_, fixed_mk, State.journalFlush_fixed, State.programsDone_fixed])
  · exact .of_fixed (by simp only [at_, fixed_mk])
  · simp only [fixed_mk]

theorem declareLoss_guarded (s : State) : Guarded s s.declareLoss := by
  unfold State.declareLoss
  split
  case h_2 => exact powerOff_guarded s
  all_goals exact .of_fixed (by simp only [fixed_mk, State.cut_fixed, State.abortEntry_fixed])

theorem trip_guarded (s : State) (k temp : Nat) (early : Bool) : Guarded s (s.trip k temp early) :=
  (Guarded.of_fixed (by simp only [fixed_mk])).trans (declareLoss_guarded _)

theorem enterSleep_guarded (s : State) (t : SleepTarget) : Guarded s (s.enterSleep t) := by
  unfold State.enterSleep
  refine .ite ((powerOff_guarded s).trans (.of_fixed ?_)) (.of_fixed ?_)
  · simp only [fixed_mk]
  · simp only [fixed_ite, State.startWake_fixed, fixed_mk, ite_self]

theorem entryStep_guarded {s u : State} {t : SleepTarget} {n : Nat} (h : s.entryStep t n = some u) : Guarded s u := by
  unfold State.entryStep at h
  extract_lets at_ at h
  have hat : ∀ v : State, (at_ v).fixed = v.fixed := fun v => by simp only [at_, fixed_mk]
  repeat' split at h
  case h_5 => cases h; exact enterSleep_guarded s t
  all_goals cases h
  all_goals exact .of_fixed (by simp only [hat, State.secureStep_fixed, State.announceStep_fixed])

/-! ### Temperatures and the takeover -/

theorem enterCritical_guarded (s : State) (k temp : Nat) : Guarded s (s.enterCritical k temp) := by
  unfold State.enterCritical
  extract_lets f lim left m s1 s2 early t
  have h2 : s2.fixed = s.fixed := by
    simp only [s2, s1, fixed_ite, State.warning_fixed, State.fansFull_fixed, State.setLevel_fixed, fixed_mk, ite_self]
  clear_value s2
  refine .ite (.of_fixed h2) (.ite ((Guarded.of_fixed h2).trans (trip_guarded _ _ _ _)) (.of_fixed ?_))
  simp only [t, State.stopCheck_fixed, State.beginStop_fixed, fixed_mk, State.event_fixed, h2]

theorem judge_guarded (s : State) (k temp own stamp : Nat) : Guarded s (s.judge k temp own stamp) := by
  unfold State.judge
  extract_lets lim run crit trp rs m s1 s2
  have h1 : s1.fixed = s.fixed := by simp only [s1, fixed_mk]
  clear_value s1
  have h2 : s2.fixed = s.fixed := by
    have woken : ((s1.wakeFired 0x40).getD s1).fixed = s1.fixed := fixed_getD fun _ h => State.wakeFired_fixed h
    simp only [s2, fixed_ite, State.enterNotice_fixed, woken, h1, ite_self]
  clear_value s2
  refine .ite ((Guarded.of_fixed h1).trans (trip_guarded _ _ _ _))
    (.ite ((Guarded.of_fixed h2).trans (enterCritical_guarded _ _ _)) (.of_fixed ?_))
  simp only [fixed_ite, State.setLevel_fixed, h2, ite_self]

theorem readDie_guarded (s : State) (stamp : Nat) (rs : List SensorReading) : Guarded s (s.readDie stamp rs) := by
  unfold State.readDie
  extract_lets s1 t s2 s3
  have h2 : s2.fixed = s.fixed := by
    refine (State.withThresholds_fixed _ _ fun u => by simp only [fixed_mk]).trans ?_
    simp only [s1, fixed_foldl, State.judgeSensor_fixed, State.advanceTo_fixed, implies_true]
  have h3 : Guarded s s3 := (Guarded.of_fixed h2).trans (judge_guarded _ _ _ _ _)
  clear_value s3
  exact .ite (h3.trans (enterCritical_guarded _ _ _)) h3

theorem readFlash_guarded (s : State) (stamp die temp : Nat) : Guarded s (s.readFlash stamp die temp) := by
  unfold State.readFlash
  extract_lets s1 ts hot s2
  have h2 : s2.fixed = s.fixed :=
    (State.withThresholds_fixed _ _ fun u => by simp only [fixed_mk]).trans (State.advanceTo_fixed _ _)
  clear_value s2
  split
  next c t _ =>
    extract_lets s3 s4
    have h3 : s3.fixed = s.fixed := by simp only [s3, fixed_mk, h2]
    have h4 : Guarded s s4 := (Guarded.of_fixed h3).trans (judge_guarded _ _ _ _ _)
    clear_value s4
    exact h4.trans (.of_fixed (by simp only [fixed_mk]))

theorem takeOver_guarded (s : State) (r : Nat) : Guarded s (s.takeOver r) := by
  unfold State.takeOver
  refine .ite (.of_fixed ?_) ((Guarded.of_fixed ?_).trans (declareLoss_guarded _))
  · extract_lets s1 l s2 s3 s4
    have h3 : s3.fixed = s.fixed := by
      simp only [s3, s2, s1, State.event_fixed, fixed_mk, State.regionOut_fixed, State.stopMirrors_fixed]
    clear_value s3
    have h4 : s4.fixed = s.fixed := by
      simp only [s4]
      split <;> simp only [fixed_ite, State.abortEntry_fixed, h3, ite_self]
    clear_value s4
    simp only [State.moveJobs_fixed, State.moveSegs_fixed, State.takeReels_fixed, State.losePart_fixed, h4]
  · simp only [State.completeAll_fixed, State.regionOut_fixed]

/-! ### Start-up -/

theorem loadOptions_guarded (s : State) (o : OptImage) : Guarded s (s.loadOptions o) := by
  refine .of_sec rfl rfl fun h hf => ⟨?_, (h hf).2⟩
  have hf' : s.part.sealFuse = true := hf
  show (if s.part.sealFuse then ProtLevel.sealed else _) = _
  rw [if_pos hf']

theorem optionStep_guarded (s : State) : Guarded s s.optionStep := by
  unfold State.optionStep
  extract_lets v t
  split
  next i o _ => exact (loadOptions_guarded s o).trans (.of_fixed (by simp only [fixed_mk]))
  next => exact (loadOptions_guarded s OptImage.default).trans (.of_fixed (by simp only [fixed_mk, t]))

theorem bootStep_guarded {s t : State} {n : Nat} {b : BootReport} (h : s.bootStep n b = some t) : Guarded s t := by
  unfold State.bootStep at h
  extract_lets at_ at h
  have hat : ∀ v : State, (at_ v).fixed = v.fixed := fun v => by simp only [at_, fixed_mk]
  repeat' split at h
  case h_4 => cases h; exact (optionStep_guarded s).trans (.of_fixed (hat _))
  all_goals cases h
  all_goals
    exact .of_fixed (by simp only [hat, fixed_mk, State.fuseStep_fixed, State.repairStep_fixed, State.selfTestStep_fixed,
      State.dramStep_fixed, State.parkStep_fixed])

/-! ### Sanitizes and levels (R544 to R547, R560 to R562) -/

/-- The beginning of a sanitize leaves the level; which one runs is in force. -/
theorem beginSanitize_security (s : State) (a : Sanitizing) (ause : Bool) :
    (s.beginSanitize a ause).fixed = ⟨s.pending, s.part, s.sec.level, true, a⟩ := by
  unfold State.beginSanitize
  extract_lets s1 s2 s3 own s4 s5 gone s6 mounting _ _ _ _ _ _ s7
  have h3 : s3.fixed = s.fixed := by
    simp only [s3, s2, s1, State.failJobs_fixed, fixed_foldl, State.beginReset_fixed, State.stopReel_fixed, implies_true]
  have h4 : s4.fixed = s3.fixed := by
    refine fixed_foldl _ (fun t i => ?_) _ _
    split <;> simp only [State.killFlight_fixed]
  have h6 : s6.fixed = s.fixed := by
    simp only [s6, s5, fixed_foldl, State.setComp_fixed, State.journalNow_fixed, State.uncoupleNow_fixed, implies_true, h4, h3]
  clear_value s6
  simp only [State.fixed, Fixed.mk.injEq] at h6
  obtain ⟨hq, hp, hl, -, -⟩ := h6
  rw [State.event_fixed, State.settleKey_fixed]
  show Fixed.mk s6.pending s6.part s6.sec.level true a = _
  rw [hq, hp, hl]

/-- A sanitize that is not a lowering may begin at every level. -/
theorem beginSanitize_guarded (s : State) {a : Sanitizing} (ause : Bool) (ha : a ≠ .lowering) : Guarded s (s.beginSanitize a ause) := by
  have h := beginSanitize_security s a ause
  simp only [State.fixed, Fixed.mk.injEq] at h
  obtain ⟨hq, hp, hl, -, hn⟩ := h
  refine .of_sec hq hp fun hs hf => ⟨?_, fun _ => by rwa [hn]⟩
  rw [hp] at hf
  exact hl.trans (hs hf).1

/-- Below Sealed nothing is asked of a module whose fuse is whole. -/
theorem fuse_whole {s : State} (hs : Sealed s) (hl : s.sec.level ≠ .sealed) : s.part.sealFuse = false := by
  cases hf : s.part.sealFuse with
  | false => rfl
  | true => exact absurd (hs hf).1 hl

theorem lowerOpen_guarded (s : State) (confirm : BitVec 16) : Guarded s (s.lowerOpen confirm) := by
  unfold State.lowerOpen
  extract_lets t m
  have answers : ∀ st, Guarded s (s.protAnswer st) := fun st => .of_fixed (State.protAnswer_fixed _ _)
  split
  · exact answers 5
  split
  · exact answers 1
  next hl =>
  split
  · exact answers 3
  have h := beginSanitize_security s .lowering false
  simp only [State.fixed, Fixed.mk.injEq] at h
  obtain ⟨hq, hp, -, -, -⟩ := h
  refine .of_sec hq hp fun hs hf => ?_
  have whole := fuse_whole hs (fun e => hl (by rw [e]; decide))
  have hf' : s.part.sealFuse = true := by rw [← hp]; exact hf
  rw [whole] at hf'
  cases hf'

theorem sanitizeFails_guarded (s : State) : Guarded s s.sanitizeFails := by
  unfold State.sanitizeFails
  extract_lets _ _ t
  have ht : Guarded s t := .of_sec rfl rfl fun hs hf => ⟨(hs hf).1, fun h => by cases h⟩
  clear_value t
  exact ht.trans (.of_fixed (by simp only [State.answerOps_fixed, State.event_fixed]))

/-- The end of a sanitize; a lowering ends only where the module is not sealed. -/
theorem endSanitize_guarded (s : State) (ms : Nat) (active : s.sec.sanActive = true) : Guarded s (s.endSanitize ms) := by
  unfold State.endSanitize
  extract_lets a s1 s2 _ _ _ _ s3 s4
  have h2 : s2.fixed = s.fixed := by
    simp only [s2, s1, fixed_ite, State.eraseAll_fixed, State.mediaStops_fixed, State.dropAll_fixed, ite_self]
  have h4 : s4.fixed = ⟨s.pending, s.part, s.sec.level, false, a⟩ := by
    clear_value s2
    simp only [State.fixed, Fixed.mk.injEq] at h2
    obtain ⟨hq, hp, hl, -, hn⟩ := h2
    simp only [s4, s3, State.event_fixed, State.writeMarker_fixed, State.ckptInForce_fixed, State.ckptWhole_fixed,
      State.draw_fixed]
    show Fixed.mk s2.pending s2.part s2.sec.level false s2.sec.sanAction = _
    rw [hq, hp, hl, hn]
  clear_value s4 s3 s2
  have ended : ∀ {u : State}, u.fixed = s4.fixed → Guarded s u := fun {u} hu => by
    rw [h4] at hu
    simp only [State.fixed, Fixed.mk.injEq] at hu
    obtain ⟨hq, hp, hl, ha, -⟩ := hu
    refine .of_sec hq hp fun hs hf => ⟨hl.trans (hs (hp ▸ hf)).1, fun h => ?_⟩
    rw [ha] at h
    cases h
  split
  case isFalse => exact ended rfl
  next lowering =>
  have ht := State.commitOption_fixed s4 0 false 15 []
  generalize s4.commitOption 0 false 15 [] = w at ht
  obtain ⟨t, ok⟩ := w
  have part : t.part = s.part := by
    rw [h4] at ht
    simp only [State.fixed, Fixed.mk.injEq] at ht
    exact ht.2.1
  have queue : t.pending = s.pending := by
    rw [h4] at ht
    simp only [State.fixed, Fixed.mk.injEq] at ht
    exact ht.1
  dsimp -zeta only
  extract_lets _ u
  have hu : Guarded s u := .of_sec queue part fun hs hf =>
    absurd lowering ((hs (part ▸ hf)).2 active)
  clear_value u
  exact .ite (hu.trans (.of_fixed (State.event_fixed _ _ _ _ _ _))) hu

theorem raiseClosed_guarded (s : State) : Guarded s s.raiseClosed := by
  unfold State.raiseClosed
  refine .ite (.of_fixed (State.protAnswer_fixed _ _)) ?_
  split
  · exact .of_fixed (State.protAnswer_fixed _ _)
  next opened =>
  refine .ite (.of_fixed (State.protAnswer_fixed _ _)) (.ite (.of_fixed (State.protAnswer_fixed _ _)) ?_)
  have ht := (State.commitOption_fixed s.takeBack 1 false 15 []).trans (State.takeBack_fixed s)
  generalize s.takeBack.commitOption 1 false 15 [] = w at ht
  obtain ⟨t, ok⟩ := w
  refine .ite (Guarded.trans (t := { t with sec := { t.sec with level := .closed } }) ?_ (.of_fixed ?_)) (.of_fixed ?_)
  · simp only [State.fixed, Fixed.mk.injEq] at ht
    obtain ⟨hq, hp, -, -, -⟩ := ht
    refine .of_sec hq hp fun hs hf => ?_
    have whole := fuse_whole hs (fun e => opened (by rw [e]; decide))
    rw [show s.part.sealFuse = true from hp ▸ hf] at whole
    cases whole
  · simp only [State.event_fixed, State.protAnswer_fixed]
  · simp only [State.protAnswer_fixed, ht]

theorem raiseSealed_guarded (s : State) (confirm : BitVec 16) : Guarded s (s.raiseSealed confirm) := by
  unfold State.raiseSealed
  split
  · exact .of_fixed (State.protAnswer_fixed _ _)
  next busy =>
  refine .ite (.of_fixed (State.protAnswer_fixed _ _)) (.ite (.of_fixed (State.protAnswer_fixed _ _)) ?_)
  refine Guarded.trans (t := { s with part := { s.part with sealFuse := true }, sec := { s.sec with level := .sealed } }) ?_
    (.of_fixed (by simp only [State.event_fixed, State.protAnswer_fixed]))
  refine ⟨rfl, rfl, fun _ => rfl, fun _ _ => ⟨rfl, fun active => ?_⟩⟩
  have idle : s.sec.sanActive = false := by
    unfold State.protBusy at busy
    cases h : s.sec.sanActive with
    | false => rfl
    | true => simp [h] at busy
  rw [idle] at active
  cases active

/-! ### Register writes -/

theorem protWrite_guarded (s : State) (v mask : Nat) : Guarded s (s.protWrite v mask) := by
  unfold State.protWrite
  refine .ite (.refl s) ?_
  split
  · exact raiseClosed_guarded s
  · exact raiseSealed_guarded s _
  · exact lowerOpen_guarded s _
  · exact .refl s

theorem secWrite_guarded (s : State) (off v mask : Nat) : Guarded s (s.secWrite off v mask) := by
  unfold State.secWrite
  split
  · exact .of_sec rfl rfl fun hs => hs
  split
  · exact protWrite_guarded s v mask
  · exact .of_fixed (State.optCmdWrite_fixed _ _ _)
  · exact .of_fixed (State.keyCmdWrite_fixed _ _ _)
  · exact .refl s

theorem regWrite_guarded (s : State) (off v mask : Nat) (reel : Bool) : Guarded s (s.regWrite off v mask reel) := by
  unfold State.regWrite
  refine .ite (.of_fixed (State.glbWrite_fixed _ _ _ _)) ?_
  refine .ite (.of_fixed (State.optWrite_fixed _ _ _ _ _)) ?_
  refine .ite (.of_fixed (State.pwrWrite_fixed _ _ _ _)) ?_
  refine .ite (.of_fixed (State.timWrite_fixed _ _ _ _)) ?_
  refine .ite (.of_fixed (State.thmWrite_fixed _ _ _ _)) ?_
  refine .ite (.of_fixed (State.fanWrite_fixed _ _ _ _)) ?_
  refine .ite (secWrite_guarded s _ v mask) ?_
  refine .ite (.of_fixed (State.memWrite_fixed _ _ _ _)) ?_
  refine .ite (.of_fixed (State.bpmWrite_fixed _ _ _ _)) ?_
  refine .ite (.of_fixed (State.hifWrite_fixed _ _ _ _)) ?_
  refine .ite (.of_fixed (State.cplWrite_fixed _ _ _ _)) ?_
  refine .ite (.of_fixed (State.clrWrite_fixed _ _ _ _)) ?_
  refine .ite (.refl s) ?_
  refine .ite (.of_fixed (State.zneWrite_fixed _ _ _ _)) ?_
  refine .ite (.refl s) ?_
  refine .ite (.of_fixed (State.fcdWrite_fixed _ _ _ _)) ?_
  refine .ite (.of_fixed (State.cluWrite_fixed _ _ _ _ _)) ?_
  refine .ite (.refl s) ?_
  refine .ite (.of_fixed (State.chnWrite_fixed _ _ _ _ _)) ?_
  exact .refl s

theorem accessWrite_guarded (s : State) (port bar off bytes : Nat) (value : Word) :
    Guarded s (s.accessWrite port bar off bytes value) := by
  unfold State.accessWrite
  extract_lets a mask v
  split
  · exact .of_fixed (State.barZeroWrite_fixed _ _ _ _ _)
  · exact regWrite_guarded s a v mask false
  · exact .of_fixed (State.barFourWrite_fixed _ _ _ _ _)

/-! ### Held effects and commits -/

theorem applyHeld_guarded (c comp : Nat) (epoch : BitVec 32) (s : State) (h : Held) :
    Guarded s (State.applyHeld c comp epoch s h) := by
  cases h with
  | timset v => exact .of_fixed (State.setSeconds_fixed _ _)
  | pmode v => exact .of_fixed (by simp only [State.applyHeld, fixed_mk])
  | pstate v =>
    match v with
    | 0 => exact .of_fixed (State.hintIdle_fixed _ _)
    | 1 | 2 | _ + 3 => exact .of_fixed (State.beginEntry_fixed _ _ _)
  | evpost code level payload => exact .of_fixed (State.raise_fixed _ _ _ _ _ _)
  | regwr off v => exact regWrite_guarded s off v.toNat _ true
  | unpark => exact .ite (.of_fixed (State.unpark_fixed _)) (.of_fixed (State.dropHeld_fixed _ _ _ _ _))
  | cmpset n res v cluster =>
    exact .ite (.of_fixed (State.dropHeld_fixed _ _ _ _ _))
      (.of_fixed (by simp only [State.journal_fixed, State.setResource_fixed]))

theorem commitReel_guarded (s : State) (c : Nat) (k : KCtx) (pc : Nat) (epoch : BitVec 32) :
    Guarded s (s.commitReel c k pc epoch) := by
  unfold State.commitReel
  extract_lets s1 _ s2
  have h2 : s2.fixed = s.fixed := by simp only [s2, s1, fixed_mk, State.setKctx_fixed]
  clear_value s2
  exact .ite (.of_fixed h2) ((Guarded.of_fixed h2).trans (.foldl (applyHeld_guarded c k.comp k.epoch) _ _))

theorem runCommit_guards (s : State) (name : String) (op : Nat) (free : Bool) (w : KWord) {eff : State → KCtx → State}
    (h : ∀ u k, Guarded u (eff u k)) : Guards s (runCommit s name op free w eff) := by
  unfold runCommit
  split
  · exact guards_cannot s name
  next k _ =>
  refine guards_arises _ _ fun _ => ?_
  have h0 : Guarded s (s.reelIssues w.ctx) := .of_fixed (State.reelIssues_fixed _ _)
  split
  · exact h0.trans (.of_fixed (State.trapReel_fixed _ _ _))
  · exact h0.trans (h _ k)

/-! ### The commands that do more than the fixed part allows -/

theorem execCommit_guards (w : KWord) (s : State) : Guards s (execCommit w s) :=
  runCommit_guards s _ _ _ w fun u k => commitReel_guarded u _ k _ _

theorem execHalt_guards (w : KWord) (s : State) : Guards s (execHalt w s) :=
  runCommit_guards s _ _ _ w fun u k => (commitReel_guarded u _ k _ _).trans (.of_fixed (State.stopReel_fixed _ _ _ _ _))

theorem execCorePhaseCheck_guards (failed : BitVec 9) (s : State) : Guards s (execCorePhaseCheck failed s) := by
  unfold execCorePhaseCheck
  extract_lets new t left
  have ht : Guarded s t := .of_fixed (fixed_foldl _ (fun u i => by simp only [State.event_fixed, fixed_mk]) _ _)
  clear_value t
  exact guards_arises _ _ fun _ => .ite (ht.trans (declareLoss_guarded t)) ht

theorem execDieSensorReading_guards (stamp : Nat) (rs : List SensorReading) (s : State) :
    Guards s (execDieSensorReading stamp rs s) :=
  guards_arises _ _ fun _ => (Guarded.of_fixed (State.startClock_fixed s 6)).trans (readDie_guarded _ stamp rs)

theorem execFlashTemperatureRead_guards (stamp die temp : Nat) (s : State) :
    Guards s (execFlashTemperatureRead stamp die temp s) :=
  guards_arises _ _ fun _ => (Guarded.of_fixed (State.startClock_fixed s 6)).trans (readFlash_guarded _ stamp die temp)

theorem execBootStepAdvance_guards (b : BootReport) (s : State) : Guards s (execBootStepAdvance b s) := by
  unfold execBootStepAdvance
  split
  · split
    next h => exact guards_next (bootStep_guarded h)
    next => exact guards_cannot s _
  · exact guards_cannot s _

theorem execPowerLossDeclared_guards (cause : InputCause) (s : State) : Guards s (execPowerLossDeclared cause s) := by
  unfold execPowerLossDeclared
  split
  · exact guards_cannot s _
  · cases cause <;> exact guards_next (declareLoss_guarded s)

theorem execFlushStep_guards (s : State) : Guards s (execFlushStep s) := by
  unfold execFlushStep
  split
  · exact guards_next (flushNext_guarded s _)
  · exact guards_cannot s _

theorem execBankLowStop_guards (s : State) : Guards s (execBankLowStop s) := by
  unfold execBankLowStop
  split
  · split
    · extract_lets issued
      exact guards_next ((Guarded.of_fixed (by simp only [issued, State.programsDone_fixed, State.unqueue_fixed])).trans
        (powerOff_guarded _))
    · exact guards_cannot s _
  · exact guards_cannot s _

theorem execRegionHeartbeatMiss_guards (asking : Nat) (otherHeard : Bool) (s : State) :
    Guards s (execRegionHeartbeatMiss asking otherHeard s) := by
  refine guards_arises _ _ fun _ => .ite (Guarded.trans (.of_fixed ?_) (takeOver_guarded _ 1)) (takeOver_guarded s _)
  simp only [fixed_mk]

theorem execRegionSelfFailure_guards (region : Nat) (s : State) : Guards s (execRegionSelfFailure region s) :=
  guards_arises _ _ fun _ => takeOver_guarded s region

theorem execRaiseToClosed_guards (confirm : BitVec 16) (s : State) : Guards s (execRaiseToClosed confirm s) :=
  guards_arises _ _ fun _ => (Guarded.of_fixed (State.startClock_fixed s 3)).trans (raiseClosed_guarded _)

theorem execRaiseToSealed_guards (confirm : BitVec 16) (s : State) : Guards s (execRaiseToSealed confirm s) :=
  guards_arises _ _ fun _ => (Guarded.of_fixed (State.startClock_fixed s 3)).trans (raiseSealed_guarded _ confirm)

theorem execLowerToOpen_guards (confirm : BitVec 16) (s : State) : Guards s (execLowerToOpen confirm s) :=
  guards_arises _ _ fun _ => (Guarded.of_fixed (State.startClock_fixed s 3)).trans (lowerOpen_guarded _ confirm)

theorem admin_guards (s : State) (name : String) (h : HostCmd) (r : State.AdminRow) {f : State → State}
    (hf : ∀ u, Guarded u (f u)) : Guards s (admin name h r s f) := by
  refine guards_arises _ _ fun _ => (Guarded.of_fixed (State.fetch_fixed s h)).trans ?_
  generalize s.fetch h = t
  show Guarded t (t.gated h r f)
  unfold State.gated
  split
  · exact .of_fixed (by simp only [State.fail_fixed, State.countRefused_fixed])
  · exact .of_fixed (by simp only [State.fail_fixed])
  · exact hf _

theorem execSanitizeBlockErase_guards (h : HostCmd) (ause : Bool) (s : State) : Guards s (execSanitizeBlockErase h ause s) :=
  admin_guards s _ h _ fun u => (beginSanitize_guarded u ause (by decide)).trans (.of_fixed (State.done_fixed _ _ _))

theorem execSanitizeCryptoErase_guards (h : HostCmd) (ause : Bool) (s : State) : Guards s (execSanitizeCryptoErase h ause s) :=
  admin_guards s _ h _ fun u => (beginSanitize_guarded u ause (by decide)).trans (.of_fixed (State.done_fixed _ _ _))

theorem execSanitizeComplete_guards (written : Bool) (elapsedMs : Nat) (s : State) :
    Guards s (execSanitizeComplete written elapsedMs s) := by
  unfold execSanitizeComplete
  extract_lets quiet t
  have ht : t.fixed = s.fixed := State.advanceTo_fixed _ _
  clear_value t
  refine guards_arises _ _ fun guard => (Guarded.of_fixed ht).trans (.ite (endSanitize_guarded t _ ?_) (sanitizeFails_guarded t))
  simp only [Bool.and_eq_true] at guard
  exact (congrArg Fixed.sanActive ht).trans guard.1.2

theorem execRegisterWrite_guards (port bar off bytes : Nat) (value : Word) (s : State) :
    Guards s (execRegisterWrite port bar off bytes value s) :=
  guards_arises _ _ fun _ => accessWrite_guarded s port bar off bytes value

theorem execSleepEntryStep_guards (s : State) : Guards s (execSleepEntryStep s) := by
  unfold execSleepEntryStep
  split
  · split
    next h => exact guards_next (entryStep_guarded h)
    next => exact guards_cannot s _
  · exact guards_cannot s _

/-- Every command leaves queue and part, but that the seal fuse may blow, and a sealed module sealed. -/
theorem exec_guards (i : Instr) (s : State) : Guards s (exec i s) := by
  cases i with
  | powerOn vIn pwrEn restored => exact guards_of_kept (execPowerOn_fixed vIn pwrEn restored s)
  | bootStepAdvance b => exact execBootStepAdvance_guards b s
  | bootStepStall => exact guards_of_kept (execBootStepStall_fixed s)
  | perstRelease port => exact guards_of_kept (execPerstRelease_fixed port s)
  | portLinkUp port rate width => exact guards_of_kept (execPortLinkUp_fixed port rate width s)
  | portLost port cause => exact guards_of_kept (execPortLost_fixed port cause s)
  | powerLossDeclared cause => exact execPowerLossDeclared_guards cause s
  | flushStep => exact execFlushStep_guards s
  | bankLowStop => exact execBankLowStop_guards s
  | inputRestored => exact guards_of_kept (execInputRestored_fixed s)
  | inputRangeChange vIn => exact guards_of_kept (execInputRangeChange_fixed vIn s)
  | bankMeasurement cap esr => exact guards_of_kept (execBankMeasurement_fixed cap esr s)
  | measStart => exact guards_of_kept (execMeasStart_fixed s)
  | creditWindowBoundary pAvg iIn => exact guards_of_kept (execCreditWindowBoundary_fixed pAvg iIn s)
  | corePhaseCheck failed => exact execCorePhaseCheck_guards failed s
  | clockIdleStop domain => exact guards_of_kept (execClockIdleStop_fixed domain s)
  | idleTimerExpiry => exact guards_of_kept (execIdleTimerExpiry_fixed s)
  | sleepEntryStep => exact execSleepEntryStep_guards s
  | wakeSourceFired mask => exact guards_of_kept (execWakeSourceFired_fixed mask s)
  | wakeStep elapsedUs => exact guards_of_kept (execWakeStep_fixed elapsedUs s)
  | wakeStepTimeout => exact guards_of_kept (execWakeStepTimeout_fixed s)
  | wakeTimerExpiry => exact guards_of_kept (execWakeTimerExpiry_fixed s)
  | domainCloseForced domain victims => exact guards_of_kept (execDomainCloseForced_fixed domain victims s)
  | ppsEdge stamp => exact guards_of_kept (execPpsEdge_fixed stamp s)
  | ppsEdgeDiscarded highNs lowNs => exact guards_of_kept (execPpsEdgeDiscarded_fixed highNs lowNs s)
  | ppsLoss => exact guards_of_kept (execPpsLoss_fixed s)
  | secSuspectLimit => exact guards_of_kept (execSecSuspectLimit_fixed s)
  | ptmDialog master => exact guards_of_kept (execPtmDialog_fixed master s)
  | timNowSaturation => exact guards_of_kept (execTimNowSaturation_fixed s)
  | ppsOutPulse => exact guards_of_kept (execPpsOutPulse_fixed s)
  | ppsOutPulseEnd => exact guards_of_kept (execPpsOutPulseEnd_fixed s)
  | modIdChange live => exact guards_of_kept (execModIdChange_fixed live s)
  | cablePresentChange port mated => exact guards_of_kept (execCablePresentChange_fixed port mated s)
  | dieSensorReading stamp readings => exact execDieSensorReading_guards stamp readings s
  | flashTemperatureRead stamp die temp => exact execFlashTemperatureRead_guards stamp die temp s
  | boardSensorReading temps => exact guards_of_kept (execBoardSensorReading_fixed temps s)
  | graceWindowEnd => exact guards_of_kept (execGraceWindowEnd_fixed s)
  | fanCommandUpdate rpms duties => exact guards_of_kept (execFanCommandUpdate_fixed rpms duties s)
  | fanStartStep out ev => exact guards_of_kept (execFanStartStep_fixed out ev s)
  | fanZeroCrossing out now_ => exact guards_of_kept (execFanZeroCrossing_fixed out now_ s)
  | fanFault out cause => exact guards_of_kept (execFanFault_fixed out cause s)
  | fanRetry out => exact guards_of_kept (execFanRetry_fixed out s)
  | fanRecovered out => exact guards_of_kept (execFanRecovered_fixed out s)
  | heldOffClear out => exact guards_of_kept (execHeldOffClear_fixed out s)
  | fanRailThreshold volts => exact guards_of_kept (execFanRailThreshold_fixed volts s)
  | regionHeartbeatMiss asking otherHeard => exact execRegionHeartbeatMiss_guards asking otherHeard s
  | regionSelfFailure region => exact execRegionSelfFailure_guards region s
  | takeoverDrainComplete => exact guards_of_kept (execTakeoverDrainComplete_fixed s)
  | callerWatchdogExpiry caller => exact guards_of_kept (execCallerWatchdogExpiry_fixed caller s)
  | unitFault kind inst cause => exact guards_of_kept (execUnitFault_fixed kind inst cause s)
  | crossbarAttachmentLost cluster region => exact guards_of_kept (execCrossbarAttachmentLost_fixed cluster region s)
  | read h io => exact guards_of_kept (execRead_fixed h io s)
  | write h io => exact guards_of_kept (execWrite_fixed h io s)
  | zoneAppend h io => exact guards_of_kept (execZoneAppend_fixed h io s)
  | writeZeroes h io => exact guards_of_kept (execWriteZeroes_fixed h io s)
  | datasetManagement h dealloc ranges => exact guards_of_kept (execDatasetManagement_fixed h dealloc ranges s)
  | compare h io data pi => exact guards_of_kept (execCompare_fixed h io data pi s)
  | verify h io => exact guards_of_kept (execVerify_fixed h io s)
  | flush h => exact guards_of_kept (execFlush_fixed h s)
  | zoneOpen h slba all => exact guards_of_kept (execZoneOpen_fixed h slba all s)
  | zoneClose h slba all => exact guards_of_kept (execZoneClose_fixed h slba all s)
  | zoneFinish h slba all => exact guards_of_kept (execZoneFinish_fixed h slba all s)
  | zoneReset h slba all => exact guards_of_kept (execZoneReset_fixed h slba all s)
  | zoneOffline h slba all => exact guards_of_kept (execZoneOffline_fixed h slba all s)
  | zoneManagementReceive h slba action option_ bytes partial_ => exact guards_of_kept (execZoneManagementReceive_fixed h slba action option_ bytes partial_ s)
  | segmentGrant flight seg => exact guards_of_kept (execSegmentGrant_fixed flight seg s)
  | segmentTransferComplete flight seg data pi => exact guards_of_kept (execSegmentTransferComplete_fixed flight seg data pi s)
  | stagingSegmentRelease flight seg => exact guards_of_kept (execStagingSegmentRelease_fixed flight seg s)
  | dirtyLimitWaitEnd flight seg => exact guards_of_kept (execDirtyLimitWaitEnd_fixed flight seg s)
  | hostDmaFault channel status victim => exact guards_of_kept (execHostDmaFault_fixed channel status victim s)
  | capSlotGrant die => exact guards_of_kept (execCapSlotGrant_fixed die s)
  | readSenseComplete flight sense decoded weight => exact guards_of_kept (execReadSenseComplete_fixed flight sense decoded weight s)
  | programComplete die => exact guards_of_kept (execProgramComplete_fixed die s)
  | eraseComplete die => exact guards_of_kept (execEraseComplete_fixed die s)
  | dieStatusReport die failed => exact guards_of_kept (execDieStatusReport_fixed die failed s)
  | dieTimeout die channelLost => exact guards_of_kept (execDieTimeout_fixed die channelLost s)
  | stripeRowClose zone row => exact guards_of_kept (execStripeRowClose_fixed zone row s)
  | landingRowClose row => exact guards_of_kept (execLandingRowClose_fixed row s)
  | foldStart zone row => exact guards_of_kept (execFoldStart_fixed zone row s)
  | foldSwitch zone row => exact guards_of_kept (execFoldSwitch_fixed zone row s)
  | compactionStart => exact guards_of_kept (execCompactionStart_fixed s)
  | deferredEraseStart die => exact guards_of_kept (execDeferredEraseStart_fixed die s)
  | wearRelocationStart die => exact guards_of_kept (execWearRelocationStart_fixed die s)
  | promenadeVisit cluster bits tier => exact guards_of_kept (execPromenadeVisit_fixed cluster bits tier s)
  | relocationStart die block => exact guards_of_kept (execRelocationStart_fixed die block s)
  | relocationCommit idx => exact guards_of_kept (execRelocationCommit_fixed idx s)
  | rebuildStart zone member => exact guards_of_kept (execRebuildStart_fixed zone member s)
  | journalUnitProgram => exact guards_of_kept (execJournalUnitProgram_fixed s)
  | checkpointStart => exact guards_of_kept (execCheckpointStart_fixed s)
  | checkpointValid => exact guards_of_kept (execCheckpointValid_fixed s)
  | mountComplete readable ckptGood fallback elapsedMs => exact guards_of_kept (execMountComplete_fixed readable ckptGood fallback elapsedMs s)
  | dramScrubStep r => exact guards_of_kept (execDramScrubStep_fixed r s)
  | sramScrubStep r => exact guards_of_kept (execSramScrubStep_fixed r s)
  | bufferLeak owner => exact guards_of_kept (execBufferLeak_fixed owner s)
  | carriageDrainComplete idx => exact guards_of_kept (execCarriageDrainComplete_fixed idx s)
  | squashInstant who => exact guards_of_kept (execSquashInstant_fixed who s)
  | compartmentResetComplete comp => exact guards_of_kept (execCompartmentResetComplete_fixed comp s)
  | compartmentFreezeComplete comp => exact guards_of_kept (execCompartmentFreezeComplete_fixed comp s)
  | sqTailDoorbell port comp qid value => exact guards_of_kept (execSqTailDoorbell_fixed port comp qid value s)
  | cqHeadDoorbell port comp qid value => exact guards_of_kept (execCqHeadDoorbell_fixed port comp qid value s)
  | compartmentEnSet port comp => exact guards_of_kept (execCompartmentEnSet_fixed port comp s)
  | compartmentEnClear port comp => exact guards_of_kept (execCompartmentEnClear_fixed port comp s)
  | controllerEnable port => exact guards_of_kept (execControllerEnable_fixed port s)
  | controllerDisable port => exact guards_of_kept (execControllerDisable_fixed port s)
  | identify h cns csi cntid => exact guards_of_kept (execIdentify_fixed h cns csi cntid s)
  | createIoSq h q => exact guards_of_kept (execCreateIoSq_fixed h q s)
  | createIoCq h q => exact guards_of_kept (execCreateIoCq_fixed h q s)
  | deleteIoSq h qid => exact guards_of_kept (execDeleteIoSq_fixed h qid s)
  | deleteIoCq h qid => exact guards_of_kept (execDeleteIoCq_fixed h qid s)
  | getLogPage h lid off bytes => exact guards_of_kept (execGetLogPage_fixed h lid off bytes s)
  | abort h sqid cid => exact guards_of_kept (execAbort_fixed h sqid cid s)
  | asynchronousEventRequest h => exact guards_of_kept (execAsynchronousEventRequest_fixed h s)
  | getFeatures h fid arg => exact guards_of_kept (execGetFeatures_fixed h fid arg s)
  | setPowerManagement h ps => exact guards_of_kept (execSetPowerManagement_fixed h ps s)
  | setTemperatureThreshold h tmpth sensor under => exact guards_of_kept (execSetTemperatureThreshold_fixed h tmpth sensor under s)
  | setNumberOfQueues h nsq ncq => exact guards_of_kept (execSetNumberOfQueues_fixed h nsq ncq s)
  | setInterruptCoalescing h value => exact guards_of_kept (execSetInterruptCoalescing_fixed h value s)
  | setInterruptVectorConfiguration h iv cd => exact guards_of_kept (execSetInterruptVectorConfiguration_fixed h iv cd s)
  | setAsyncEventConfiguration h value => exact guards_of_kept (execSetAsyncEventConfiguration_fixed h value s)
  | setTimestamp h ms => exact guards_of_kept (execSetTimestamp_fixed h ms s)
  | firmwareCommit h => exact guards_of_kept (execFirmwareCommit_fixed h s)
  | firmwareImageDownload h => exact guards_of_kept (execFirmwareImageDownload_fixed h s)
  | sanitizeBlockErase h ause => exact execSanitizeBlockErase_guards h ause s
  | sanitizeCryptoErase h ause => exact execSanitizeCryptoErase_guards h ause s
  | sanitizeOverwrite h => exact guards_of_kept (execSanitizeOverwrite_fixed h s)
  | sanitizeExitFailureMode h => exact guards_of_kept (execSanitizeExitFailureMode_fixed h s)
  | sanitizeComplete written elapsedMs => exact execSanitizeComplete_guards written elapsedMs s
  | reelLoad h image => exact guards_of_kept (execReelLoad_fixed h image s)
  | reelUnload h handle => exact guards_of_kept (execReelUnload_fixed h handle s)
  | enterMaintenance h => exact guards_of_kept (execEnterMaintenance_fixed h s)
  | leaveMaintenance h => exact guards_of_kept (execLeaveMaintenance_fixed h s)
  | storeWriteSlot h slot image => exact guards_of_kept (execStoreWriteSlot_fixed h slot image s)
  | storeClearSlot h slot => exact guards_of_kept (execStoreClearSlot_fixed h slot s)
  | reelStart h a => exact guards_of_kept (execReelStart_fixed h a s)
  | reelHalt h inst graceMs => exact guards_of_kept (execReelHalt_fixed h inst graceMs s)
  | reelHaltGraceExpiry inst => exact guards_of_kept (execReelHaltGraceExpiry_fixed inst s)
  | reelStatus h inst => exact guards_of_kept (execReelStatus_fixed h inst s)
  | compartmentCreate h comp port => exact guards_of_kept (execCompartmentCreate_fixed h comp port s)
  | compartmentDelete h comp => exact guards_of_kept (execCompartmentDelete_fixed h comp s)
  | mapPasid h comp pasid port => exact guards_of_kept (execMapPasid_fixed h comp pasid port s)
  | unmapPasid h comp pasid port => exact guards_of_kept (execUnmapPasid_fixed h comp pasid port s)
  | compartmentReset h comp => exact guards_of_kept (execCompartmentReset_fixed h comp s)
  | compartmentFreeze h comp => exact guards_of_kept (execCompartmentFreeze_fixed h comp s)
  | compartmentThaw h comp => exact guards_of_kept (execCompartmentThaw_fixed h comp s)
  | compartmentSave h comp bytes => exact guards_of_kept (execCompartmentSave_fixed h comp bytes s)
  | compartmentRestore h params record => exact guards_of_kept (execCompartmentRestore_fixed h params record s)
  | eventRingSetup h r => exact guards_of_kept (execEventRingSetup_fixed h r s)
  | eventRingClose h => exact guards_of_kept (execEventRingClose_fixed h s)
  | frameAppend h zslba rawLen limit desc raw => exact guards_of_kept (execFrameAppend_fixed h zslba rawLen limit desc raw s)
  | frameCodingComplete lane => exact guards_of_kept (execFrameCodingComplete_fixed lane s)
  | frameRead h slba recLen ctx bufBytes => exact guards_of_kept (execFrameRead_fixed h slba recLen ctx bufBytes s)
  | codecStateSave h ctx => exact guards_of_kept (execCodecStateSave_fixed h ctx s)
  | codecStateRestore h ctx record => exact guards_of_kept (execCodecStateRestore_fixed h ctx record s)
  | nop k => exact guards_of_kept (execNop_fixed k s)
  | trap k => exact guards_of_kept (execTrap_fixed k s)
  | wait k => exact guards_of_kept (execWait_fixed k s)
  | waitConditionMet ctx => exact guards_of_kept (execWaitConditionMet_fixed ctx s)
  | ticketCompletion ctx ticket status result data => exact guards_of_kept (execTicketCompletion_fixed ctx ticket status result data s)
  | commit k => exact execCommit_guards k s
  | halt k => exact execHalt_guards k s
  | add k => exact guards_of_kept (execAdd_fixed k s)
  | sub k => exact guards_of_kept (execSub_fixed k s)
  | and k => exact guards_of_kept (execAnd_fixed k s)
  | or k => exact guards_of_kept (execOr_fixed k s)
  | xor k => exact guards_of_kept (execXor_fixed k s)
  | shl k => exact guards_of_kept (execShl_fixed k s)
  | shr k => exact guards_of_kept (execShr_fixed k s)
  | sar k => exact guards_of_kept (execSar_fixed k s)
  | mul k => exact guards_of_kept (execMul_fixed k s)
  | mulhu k => exact guards_of_kept (execMulhu_fixed k s)
  | divu k => exact guards_of_kept (execDivu_fixed k s)
  | remu k => exact guards_of_kept (execRemu_fixed k s)
  | minu k => exact guards_of_kept (execMinu_fixed k s)
  | maxu k => exact guards_of_kept (execMaxu_fixed k s)
  | addi k => exact guards_of_kept (execAddi_fixed k s)
  | andi k => exact guards_of_kept (execAndi_fixed k s)
  | ori k => exact guards_of_kept (execOri_fixed k s)
  | xori k => exact guards_of_kept (execXori_fixed k s)
  | shli k => exact guards_of_kept (execShli_fixed k s)
  | shri k => exact guards_of_kept (execShri_fixed k s)
  | sari k => exact guards_of_kept (execSari_fixed k s)
  | li k => exact guards_of_kept (execLi_fixed k s)
  | lih k => exact guards_of_kept (execLih_fixed k s)
  | bfx k => exact guards_of_kept (execBfx_fixed k s)
  | bfi k => exact guards_of_kept (execBfi_fixed k s)
  | cmp k => exact guards_of_kept (execCmp_fixed k s)
  | cmpi k => exact guards_of_kept (execCmpi_fixed k s)
  | b k => exact guards_of_kept (execB_fixed k s)
  | call k => exact guards_of_kept (execCall_fixed k s)
  | ret k => exact guards_of_kept (execRet_fixed k s)
  | jr k => exact guards_of_kept (execJr_fixed k s)
  | callr k => exact guards_of_kept (execCallr_fixed k s)
  | ld k => exact guards_of_kept (execLd_fixed k s)
  | st k => exact guards_of_kept (execSt_fixed k s)
  | copy k => exact guards_of_kept (execCopy_fixed k s)
  | mfs k => exact guards_of_kept (execMfs_fixed k s)
  | mts k => exact guards_of_kept (execMts_fixed k s)
  | trd k => exact guards_of_kept (execTrd_fixed k s)
  | twr k => exact guards_of_kept (execTwr_fixed k s)
  | pgctlCreate k => exact guards_of_kept (execPgctlCreate_fixed k s)
  | pgctlDelete k => exact guards_of_kept (execPgctlDelete_fixed k s)
  | pgctlAddStripeGroup k => exact guards_of_kept (execPgctlAddStripeGroup_fixed k s)
  | pgctlRemoveStripeGroup k => exact guards_of_kept (execPgctlRemoveStripeGroup_fixed k s)
  | pgctlMove k => exact guards_of_kept (execPgctlMove_fixed k s)
  | pgctlSetDefaultMode k => exact guards_of_kept (execPgctlSetDefaultMode_fixed k s)
  | nsctlCreateZoned k => exact guards_of_kept (execNsctlCreateZoned_fixed k s)
  | nsctlCreateConventional k => exact guards_of_kept (execNsctlCreateConventional_fixed k s)
  | nsctlDelete k => exact guards_of_kept (execNsctlDelete_fixed k s)
  | zctlOpen k => exact guards_of_kept (execZctlOpen_fixed k s)
  | zctlClose k => exact guards_of_kept (execZctlClose_fixed k s)
  | zctlFinish k => exact guards_of_kept (execZctlFinish_fixed k s)
  | zctlReset k => exact guards_of_kept (execZctlReset_fixed k s)
  | zctlOffline k => exact guards_of_kept (execZctlOffline_fixed k s)
  | tfind k => exact guards_of_kept (execTfind_fixed k s)
  | fread k => exact guards_of_kept (execFread_fixed k s)
  | fprog k => exact guards_of_kept (execFprog_fixed k s)
  | ferase k => exact guards_of_kept (execFerase_fixed k s)
  | frecord k => exact guards_of_kept (execFrecord_fixed k s)
  | ftemp k => exact guards_of_kept (execFtemp_fixed k s)
  | freserveTake k => exact guards_of_kept (execFreserveTake_fixed k s)
  | freserveReturn k => exact guards_of_kept (execFreserveReturn_fixed k s)
  | couple k => exact guards_of_kept (execCouple_fixed k s)
  | uncouple k => exact guards_of_kept (execUncouple_fixed k s)
  | carrd k => exact guards_of_kept (execCarrd_fixed k s)
  | balloc k => exact guards_of_kept (execBalloc_fixed k s)
  | bshare k => exact guards_of_kept (execBshare_fixed k s)
  | bdrop k => exact guards_of_kept (execBdrop_fixed k s)
  | bfree k => exact guards_of_kept (execBfree_fixed k s)
  | binfo k => exact guards_of_kept (execBinfo_fixed k s)
  | cxgrant k => exact guards_of_kept (execCxgrant_fixed k s)
  | cxrevoke k => exact guards_of_kept (execCxrevoke_fixed k s)
  | cxsave k => exact guards_of_kept (execCxsave_fixed k s)
  | cxrestore k => exact guards_of_kept (execCxrestore_fixed k s)
  | timerd k => exact guards_of_kept (execTimerd_fixed k s)
  | timset k => exact guards_of_kept (execTimset_fixed k s)
  | pmode k => exact guards_of_kept (execPmode_fixed k s)
  | pstate k => exact guards_of_kept (execPstate_fixed k s)
  | evpost k => exact guards_of_kept (execEvpost_fixed k s)
  | evnext k => exact guards_of_kept (execEvnext_fixed k s)
  | evsubAdd k => exact guards_of_kept (execEvsubAdd_fixed k s)
  | evsubClear k => exact guards_of_kept (execEvsubClear_fixed k s)
  | regrd k => exact guards_of_kept (execRegrd_fixed k s)
  | regwr k => exact guards_of_kept (execRegwr_fixed k s)
  | hdmard k => exact guards_of_kept (execHdmard_fixed k s)
  | hdmawr k => exact guards_of_kept (execHdmawr_fixed k s)
  | mountCheckpoint k => exact guards_of_kept (execMountCheckpoint_fixed k s)
  | mountFullScan k => exact guards_of_kept (execMountFullScan_fixed k s)
  | ckpt k => exact guards_of_kept (execCkpt_fixed k s)
  | unpark k => exact guards_of_kept (execUnpark_fixed k s)
  | stop k => exact guards_of_kept (execStop_fixed k s)
  | cmpsetQueuePairs k => exact guards_of_kept (execCmpsetQueuePairs_fixed k s)
  | cmpsetActiveQuota k => exact guards_of_kept (execCmpsetActiveQuota_fixed k s)
  | cmpsetDirectQuota k => exact guards_of_kept (execCmpsetDirectQuota_fixed k s)
  | cmpsetBufferFloor k => exact guards_of_kept (execCmpsetBufferFloor_fixed k s)
  | cmpsetCreditShare k => exact guards_of_kept (execCmpsetCreditShare_fixed k s)
  | cmpsetLatencyClass k => exact guards_of_kept (execCmpsetLatencyClass_fixed k s)
  | lineFillComplete ctx r => exact guards_of_kept (execLineFillComplete_fixed ctx r s)
  | ownerQuery port comp owner segLimit => exact guards_of_kept (execOwnerQuery_fixed port comp owner segLimit s)
  | ownerRegister port comp owner segLimit => exact guards_of_kept (execOwnerRegister_fixed port comp owner segLimit s)
  | ownerUnregister port comp owner segLimit => exact guards_of_kept (execOwnerUnregister_fixed port comp owner segLimit s)
  | ownerSetLimit port comp owner segLimit => exact guards_of_kept (execOwnerSetLimit_fixed port comp owner segLimit s)
  | ownerReclaim port comp owner segLimit => exact guards_of_kept (execOwnerReclaim_fixed port comp owner segLimit s)
  | raiseToClosed confirm => exact execRaiseToClosed_guards confirm s
  | raiseToSealed confirm => exact execRaiseToSealed_guards confirm s
  | lowerToOpen confirm => exact execLowerToOpen_guards confirm s
  | optionCommit merge report => exact guards_of_kept (execOptionCommit_fixed merge report s)
  | optionReload => exact guards_of_kept (execOptionReload_fixed s)
  | keyQuery slot => exact guards_of_kept (execKeyQuery_fixed slot s)
  | keyGenerate slot => exact guards_of_kept (execKeyGenerate_fixed slot s)
  | keyInstall slot => exact guards_of_kept (execKeyInstall_fixed slot s)
  | keyInstallWrapped slot => exact guards_of_kept (execKeyInstallWrapped_fixed slot s)
  | keyErase slot => exact guards_of_kept (execKeyErase_fixed slot s)
  | zoneQuery zone => exact guards_of_kept (execZoneQuery_fixed zone s)
  | dmaChannelRelease => exact guards_of_kept (execDmaChannelRelease_fixed s)
  | registerReadClear port bar off bytes => exact guards_of_kept (execRegisterReadClear_fixed port bar off bytes s)
  | registerWrite port bar off bytes value => exact execRegisterWrite_guards port bar off bytes value s
  | mirrorBind m => exact guards_of_kept (execMirrorBind_fixed m s)
  | mirrorUnbind m => exact guards_of_kept (execMirrorUnbind_fixed m s)
  | mirrorPromote m => exact guards_of_kept (execMirrorPromote_fixed m s)
  | mirrorResync m => exact guards_of_kept (execMirrorResync_fixed m s)
  | mirrorCopyZone m => exact guards_of_kept (execMirrorCopyZone_fixed m s)
  | mirrorQuery m => exact guards_of_kept (execMirrorQuery_fixed m s)
  | resyncComplete pgroup => exact guards_of_kept (execResyncComplete_fixed pgroup s)
  | flitReceived port f => exact guards_of_kept (execFlitReceived_fixed port f s)
  | linkSilenceTimeout port => exact guards_of_kept (execLinkSilenceTimeout_fixed port s)
  | couplerLinkTrained port peer peerPort lanes => exact guards_of_kept (execCouplerLinkTrained_fixed port peer peerPort lanes s)
  | linkTrainingRetry port => exact guards_of_kept (execLinkTrainingRetry_fixed port s)
  | heartbeatSend => exact guards_of_kept (execHeartbeatSend_fixed s)
  | memberLost member lastHeard => exact guards_of_kept (execMemberLost_fixed member lastHeard s)
  | memberJoined member promotedPairs => exact guards_of_kept (execMemberJoined_fixed member promotedPairs s)
  | sleepNotice member => exact guards_of_kept (execSleepNotice_fixed member s)
  | sleepingMemberTimeout member lastHeard => exact guards_of_kept (execSleepingMemberTimeout_fixed member lastHeard s)
  | mirrorSegment peer pgroup zoneNo start key data direct cls => exact guards_of_kept (execMirrorSegment_fixed peer pgroup zoneNo start key data direct cls s)
  | mirrorAck flight seg status => exact guards_of_kept (execMirrorAck_fixed flight seg status s)
  | forwardedRead peer pgroup zoneNo start len cls => exact guards_of_kept (execForwardedRead_fixed peer pgroup zoneNo start len cls s)
  | timeExchange t1 t2 t3 t4 leaderSeconds leaderSuspect hops => exact guards_of_kept (execTimeExchange_fixed t1 t2 t3 t4 leaderSeconds leaderSuspect hops s)
  | peek off => exact guards_of_kept (execPeek_fixed off s)
  | bypass => exact guards_of_kept (execBypass_fixed s)
  | idcode => exact guards_of_kept (execIdcode_fixed s)
  | samplePreload => exact guards_of_kept (execSamplePreload_fixed s)
  | extest => exact guards_of_kept (execExtest_fixed s)
  | clamp => exact guards_of_kept (execClamp_fixed s)
  | highz => exact guards_of_kept (execHighz_fixed s)
  | i3cBroadcast daa => exact guards_of_kept (execI3cBroadcast_fixed daa s)
  | basicManagementCommand => exact guards_of_kept (execBasicManagementCommand_fixed s)
  | subsystemHealthStatusPoll => exact guards_of_kept (execSubsystemHealthStatusPoll_fixed s)
  | vpdRead off len => exact guards_of_kept (execVpdRead_fixed off len s)
  | tunnelledIdentify cns csi cntid nsid off len => exact guards_of_kept (execTunnelledIdentify_fixed cns csi cntid nsid off len s)
  | tunnelledGetLogPage lid nsid off len => exact guards_of_kept (execTunnelledGetLogPage_fixed lid nsid off len s)
  | powerManagerHeartbeatMiss region => exact guards_of_kept (execPowerManagerHeartbeatMiss_fixed region s)
  | levelWatchdogExpiry kind inst => exact guards_of_kept (execLevelWatchdogExpiry_fixed kind inst s)
  | bankVoltageChange v => exact guards_of_kept (execBankVoltageChange_fixed v s)
  | fanCmdMeasurement m => exact guards_of_kept (execFanCmdMeasurement_fixed m s)
  | conventionalCopy units => exact guards_of_kept (execConventionalCopy_fixed units s)
  | conventionalReclaim => exact guards_of_kept (execConventionalReclaim_fixed s)
  | invalidCommandOpcode h opcode io => exact guards_of_kept (execInvalidCommandOpcode_fixed h opcode io s)
  | setFeaturesUnsupported h fid => exact guards_of_kept (execSetFeaturesUnsupported_fixed h fid s)
  | unassignedOpcode ctx w => exact guards_of_kept (execUnassignedOpcode_fixed ctx w s)
  | miInvalidCommand opcode => exact guards_of_kept (execMiInvalidCommand_fixed opcode s)
  | configurationRequest port => exact guards_of_kept (execConfigurationRequest_fixed port s)
  | misalignedAccess port isRead bytes => exact guards_of_kept (execMisalignedAccess_fixed port isRead bytes s)

/-- One step against the queue that it takes its command from. -/
theorem step_guarded {s t : State} (h : step s = .next t) : Guarded { s with pending := s.pending.tail } t := by
  unfold step at h
  split at h
  next empty =>
    cases h
    rw [empty, List.tail_nil]
    have same : ({ s with pending := [] } : State) = s := by rw [← empty]
    rw [same]
    exact .of_fixed (State.tick_fixed s)
  next c rest waiting =>
    rw [waiting, List.tail_cons]
    exact exec_guards c _ t h

end Sys2Proof.Machine

namespace Sys2Proof.Proofs
open Sys2Proof Sys2Proof.Machine

/-- Settles O59: what every command leaves, over the queue's rest. -/
theorem stepTakesOneCommandAndKeepsTheFuses : Obligations.StepTakesOneCommandAndKeepsTheFuses := by
  intro s t h
  obtain ⟨queue, part, fuse, -⟩ := step_guarded h
  exact ⟨queue, part, fuse⟩

/-- Settles O60: no command leaves Sealed, and a lowering begins below it only. -/
theorem sealedModuleStaysSealed : Obligations.SealedModuleStaysSealed :=
  fun _ _ sealed h => (step_guarded h).sealed sealed

end Sys2Proof.Proofs
end

section
/-! SUPPORT. The step, the registers, and the checks of branches, loads, stores and traps (R265, R268 to R271, R282 to R290). -/

namespace Sys2Proof.Proofs

open Sys2Proof Sys2Proof.Machine

/-! ### The step -/

/-- Settles O1: it is the definition's second case. -/
theorem stepCarriesOutFrontCommand : Obligations.StepCarriesOutFrontCommand := by
  intro s c rest h
  rw [step, h]

theorem tick_of_stopped {t : TimeBase} (h : t.running = false) : t.tick = t := by
  simp [TimeBase.tick, h]

theorem tick_now {t : TimeBase} (run : t.running = true) (slew : t.slew = 0) (low : t.now < 2 ^ 64 - 1) :
    t.tick.now = t.now + 1 := by
  have below : t.now < State.maxNow := low
  simp [TimeBase.tick, run, slew, below]

theorem tick_now_mono {t : TimeBase} (low : t.now ≤ 2 ^ 64 - 1) : t.now ≤ t.tick.now ∧ t.tick.now ≤ 2 ^ 64 - 1 := by
  have top : State.maxNow = 2 ^ 64 - 1 := rfl
  unfold TimeBase.tick
  rw [top]
  split_ifs with running _ _ _ <;> simp only [Bool.and_eq_true, decide_eq_true_eq] at running ⊢ <;> omega

/-- Settles O2: the tick of the time base, case by case of its slew. -/
theorem emptyQueueLetsOneNanosecondPass : Obligations.EmptyQueueLetsOneNanosecondPass := by
  intro s empty
  refine ⟨s.tick, by rw [step, empty], rfl, fun stopped => ?_, tick_now, tick_now_mono⟩
  rw [State.tick, tick_of_stopped stopped]

/-! ### Registers (R265) -/

theorem setReg_zero (k : KCtx) (v : Word) : setReg k 0 v = k := rfl

theorem setReg_pos {i : Nat} (k : KCtx) (v : Word) (h : 0 < i) : setReg k i v = { k with regs := k.regs.set (i - 1) v } :=
  if_neg (by omega)

theorem reg_setReg_same {k : KCtx} {i : Nat} (v : Word) (hl : k.regs.length = 31) (h0 : 0 < i) (hi : i < 32) :
    reg (setReg k i v) i = v := by
  have inside : i - 1 < k.regs.length := by omega
  rw [setReg_pos k v h0, reg, if_neg (by omega)]
  simp [inside]

theorem reg_setReg_other (k : KCtx) {i j : Nat} (v : Word) (h : j ≠ i) : reg (setReg k i v) j = reg k j := by
  rcases Nat.eq_zero_or_pos i with rfl | hi
  · rw [setReg_zero]
  rcases Nat.eq_zero_or_pos j with rfl | hj
  · rfl
  rw [setReg_pos k v hi, reg, reg, if_neg (by omega), if_neg (by omega)]
  rw [List.getElem?_set_ne (by omega)]

/-- Settles O4: register `i` is entry `i - 1` of the list of 31, and g0 is none of them. -/
theorem registerZeroReadsZeroAndDiscardsWrites : Obligations.RegisterZeroReadsZeroAndDiscardsWrites := by
  intro k hl
  refine ⟨rfl, setReg_zero k, fun i v h0 hi => ⟨?_, reg_setReg_same v hl h0 hi, fun j hj => reg_setReg_other k v hj, ?_⟩⟩
  · rw [setReg_pos k v h0, List.length_set, hl]
  · rw [setReg_pos k v h0]

/-! ### Branches to what may not be fetched (R270, R288, R289) -/

/-- An address from which no instruction may be fetched traps 0x06, with detail 0 where it is misaligned. -/
theorem codeTraps_of_not_fetchAddress {k : KCtx} {a : Nat} (h : ¬ FetchAddress k a) :
    firstTrap (codeTraps k a) = some (0x06, if a % 8 = 0 then 1 else 0) := by
  by_cases aligned : a % 8 = 0
  · have out : (decide (a < 64) || decide (imageEnd k ≤ a)) = true := by
      unfold FetchAddress at h
      have ends : imageEnd k = 64 + k.codeLen := rfl
      rw [Bool.or_eq_true, decide_eq_true_eq, decide_eq_true_eq]
      omega
    simp [firstTrap, codeTraps, aligned, out]
  · simp [firstTrap, codeTraps, aligned]

/-- A relative target is aligned as its own instruction is. -/
theorem branchTarget_aligned {k : KCtx} {w : KWord} (h : k.pc % 8 = 0) : branchTarget k w % 8 = 0 := by
  obtain ⟨n, hn⟩ := Nat.dvd_of_mod_eq_zero h
  have split8 : BitVec.ofNat 64 k.pc + sextImm w * 8 = (BitVec.ofNat 64 n + sextImm w) * 8 := by
    rw [hn, BitVec.add_mul, Nat.mul_comm, BitVec.ofNat_mul]
    rfl
  rw [branchTarget, split8, BitVec.toNat_mul]
  show (BitVec.ofNat 64 n + sextImm w).toNat * 8 % 2 ^ 64 % 8 = 0
  omega

/-- A relative target outside the code area is no fetch address either once it has wrapped around. -/
theorem not_fetchAddress_branchTarget {k : KCtx} {w : KWord} (hc : k.codeLen ≤ 2 ^ 20) (inside : 64 ≤ k.pc ∧ k.pc < 64 + k.codeLen)
    (h : ¬ FetchAddress k (target k w)) : ¬ FetchAddress k (branchTarget k w) := by
  have e : BitVec.ofNat 64 k.pc + sextImm w * 8 = BitVec.ofInt 64 ((k.pc : Int) + w.imm.toInt * 8) := by
    rw [BitVec.ofInt_add, BitVec.ofInt_mul, BitVec.ofInt_natCast]; rfl
  have high := w.imm.toInt_lt
  have low := w.imm.le_toInt
  obtain ⟨pcLow, pcHigh⟩ := inside
  unfold FetchAddress target at *
  rw [branchTarget, e, BitVec.toNat_ofInt]
  omega

section Branches

variable {s : State} {w : KWord} {k : KCtx}

/-- A local instruction whose checks are those of a target that may not be fetched. -/
theorem trapsWith_of_target {i : Instr} {n : String} {f : Form} {eff : KCtx → KCtx × Nat} {ts : KCtx → List TrapIf} {a : Nat}
    (hi : exec i s = s.runLocal n f w ts eff) (h : Ready s f false w k) (ht : firstTrap (ts k) = firstTrap (codeTraps k a))
    (ha : ¬ FetchAddress k a) : TrapsWith i s w.ctx k 0x06 (if a % 8 = 0 then 1 else 0) :=
  trapsWith_of_runLocal hi h (ht.trans (codeTraps_of_not_fetchAddress ha))

/-- The same for a relative target, which is always aligned. -/
theorem trapsWith_of_relative {i : Instr} {n : String} {f : Form} {eff : KCtx → KCtx × Nat} {ts : KCtx → List TrapIf}
    (hi : exec i s = s.runLocal n f w ts eff) (h : Ready s f false w k)
    (ht : firstTrap (ts k) = firstTrap (codeTraps k (branchTarget k w))) (hc : k.codeLen ≤ 2 ^ 20)
    (ha : ¬ FetchAddress k (target k w)) : TrapsWith i s w.ctx k 0x06 1 := by
  have traps := trapsWith_of_target hi h ht (not_fetchAddress_branchTarget hc h.inside ha)
  rwa [if_pos (branchTarget_aligned h.aligned)] at traps

end Branches

/-! ### Loads and stores (R269 to R271, R290) -/

/-- The source space of a form without bits above the space's two. -/
theorem srcSpace_of_le {w : KWord} (h : w.mod.toNat ≤ 0x1F) : srcSpace w = w.mod.toNat / 8 :=
  Nat.mod_eq_of_lt (by omega)

/-- Scratch and the image end where `spaceSize` says. -/
theorem outside_of_low {s : State} {k : KCtx} {sp a n z : Nat} {h : Word} (low : sp ≤ 1) (hz : spaceSize s k sp 0 = some z)
    (out : z < a + n) (hn : 0 < n) : s.outside k sp a n h = true := by
  have n0 : n ≠ 0 := by omega
  obtain rfl | rfl : sp = 0 ∨ sp = 1 := by omega
  · cases hz
    simp [State.outside, n0, out]
  · cases hz
    simp [State.outside, n0, imageEnd, out]

theorem spaceSize_low (s : State) (k : KCtx) {sp : Nat} (h : Word) (low : sp ≤ 1) : ∃ z, spaceSize s k sp h = some z := by
  obtain rfl | rfl : sp = 0 ∨ sp = 1 := by omega
  · exact ⟨_, rfl⟩
  · exact ⟨_, rfl⟩

section Memory

variable {s : State} {w : KWord} {k : KCtx}

/-- An instruction with its own way of running that is ready and that one of its checks stops. -/
theorem trapsWith_of_checks {i : Instr} {f : Form} {free : Bool} {ts : List TrapIf} {code detail : Nat} {t : State}
    (h : Ready s f free w k) (ht : firstTrap ts = some (code, detail))
    (hi : exec i s = .next (match firstTrap (s.baseTraps k free (badForm f w) ++ ts) with
      | some x => (s.reelIssues w.ctx).trapReel w.ctx x
      | none => t)) : TrapsWith i s w.ctx k code detail := by
  obtain ⟨x, hx⟩ := inst_of_issues h.issues h.here
  rw [firstTrap_append_none (ready_no_trap h), ht] at hi
  exact trapsWith_of_trapReel h.tables h.here hx hi

/-- What ST does in a ready context: its checks, then its bytes. -/
theorem exec_st (h : Ready s { op := 0x41, useD := true, useA := true, useB := true, mask := 0x1B } false w k) :
    exec (.st w) s = .next (match firstTrap (s.baseTraps k false
        (badForm { op := 0x41, useD := true, useA := true, useB := true, mask := 0x1B } w) ++
        ([(decide (srcSpace w = 3), 0x01, 2), (decide (srcSpace w = 1), 0x01, 3)] ++ (bufferCap k (decide (srcSpace w = 2)) ++
        ([(decide (memAddr k w % accessSize w ≠ 0), 0x06, 0),
          (s.outside k (srcSpace w) (memAddr k w) (accessSize w) (regB k w), 0x06, 1)] ++
        if srcSpace w = 2 then s.handleTraps k (regB k w) ++ [((s.buf (regB k w).toNat).any (·.gone), 0x05, 2)] else [])))) with
      | some x => (s.reelIssues w.ctx).trapReel w.ctx x
      | none => ((s.reelIssues w.ctx).spaceWrite w.ctx (srcSpace w) (memAddr k w) (regB k w)
          (leBytes (accessSize w) (regD k w).toNat)).retire_ w.ctx (k.pc + 8)) := by
  show execSt w s = _
  unfold execSt
  rw [h.here]
  simp only [h.issues, arises, if_true, List.append_assoc] <;> rfl

theorem bufferCap_missing (hcap : k.cap.getLsbD 6 = false) : bufferCap k true = [(true, 0x02, 6)] := by
  simp only [bufferCap, if_true, hcap, Bool.not_false]

/-- The checks of LD, in their order. -/
theorem ld_traps (h : Ready s { op := 0x40, useD := true, useA := true, useB := true, mask := 0x1F } false w k) :
    (w.mod.toNat / 8 = 3 → TrapsWith (.ld w) s w.ctx k 0x01 2) ∧
    (w.mod.toNat / 8 = 2 → k.cap.getLsbD 6 = false → TrapsWith (.ld w) s w.ctx k 0x02 6) ∧
    (w.mod.toNat / 8 ≤ 1 → (regA k w + signed w.imm).toNat % 2 ^ (w.mod.toNat % 4) ≠ 0 →
      TrapsWith (.ld w) s w.ctx k 0x06 0) ∧
    (w.mod.toNat / 8 ≤ 1 → (regA k w + signed w.imm).toNat % 2 ^ (w.mod.toNat % 4) = 0 →
      (∀ z, spaceSize s k (w.mod.toNat / 8) 0 = some z → z < (regA k w + signed w.imm).toNat + 2 ^ (w.mod.toNat % 4)) →
      TrapsWith (.ld w) s w.ctx k 0x06 1) := by
  have space := srcSpace_of_le (mod_le_mask h.form)
  refine ⟨fun hs => ?_, fun hs cap => ?_, fun hs odd => ?_, fun hs even out => ?_⟩
  all_goals refine trapsWith_of_runLocal (n := "LD") rfl h ?_
  all_goals rw [space]
  · simp [hs, firstTrap]
  · simp [hs, bufferCap_missing cap, firstTrap]
  · have n3 : ¬ w.mod.toNat / 8 = 3 := by omega
    have n2 : ¬ w.mod.toNat / 8 = 2 := by omega
    replace odd : memAddr k w % accessSize w ≠ 0 := odd
    simp [n3, n2, bufferCap, odd, firstTrap]
  · have n3 : ¬ w.mod.toNat / 8 = 3 := by omega
    have n2 : ¬ w.mod.toNat / 8 = 2 := by omega
    obtain ⟨z, hz⟩ := spaceSize_low s k 0 hs
    have beyond : s.outside k (w.mod.toNat / 8) (memAddr k w) (accessSize w) (regB k w) = true :=
      outside_of_low hs hz (out z hz) (Nat.two_pow_pos _)
    replace even : memAddr k w % accessSize w = 0 := even
    simp [n3, n2, bufferCap, even, beyond, firstTrap]

/-- The checks of ST, in their order. -/
theorem st_traps (h : Ready s { op := 0x41, useD := true, useA := true, useB := true, mask := 0x1B } false w k) :
    (w.mod.toNat / 8 = 1 → TrapsWith (.st w) s w.ctx k 0x01 3) ∧
    (w.mod.toNat / 8 = 2 → k.cap.getLsbD 6 = false → TrapsWith (.st w) s w.ctx k 0x02 6) ∧
    (w.mod.toNat / 8 = 0 → (regA k w + signed w.imm).toNat % 2 ^ (w.mod.toNat % 4) ≠ 0 →
      TrapsWith (.st w) s w.ctx k 0x06 0) ∧
    (w.mod.toNat / 8 = 0 → (regA k w + signed w.imm).toNat % 2 ^ (w.mod.toNat % 4) = 0 →
      16384 < (regA k w + signed w.imm).toNat + 2 ^ (w.mod.toNat % 4) → TrapsWith (.st w) s w.ctx k 0x06 1) := by
  have hm : w.mod.toNat ≤ 0x1B := mod_le_mask h.form
  have space := srcSpace_of_le (w := w) (by omega)
  refine ⟨fun hs => ?_, fun hs cap => ?_, fun hs odd => ?_, fun hs even out => ?_⟩
  all_goals refine trapsWith_of_checks h ?_ (exec_st h)
  all_goals rw [space]
  · simp [hs, firstTrap]
  · simp [hs, bufferCap_missing cap, firstTrap]
  · replace odd : memAddr k w % accessSize w ≠ 0 := odd
    simp [hs, bufferCap, odd, firstTrap]
  · replace even : memAddr k w % accessSize w = 0 := even
    have beyond : s.outside k 0 (memAddr k w) (accessSize w) (regB k w) = true :=
      outside_of_low (Nat.zero_le 1) rfl out (Nat.two_pow_pos _)
    simp [hs, bufferCap, even, beyond, firstTrap]

end Memory

/-- Settles O6: a target's own checks for the branches, and the checks of LD and ST in their order. -/
theorem branchesLoadsAndStoresTrapAsTheirRulesSay : Obligations.BranchesLoadsAndStoresTrapAsTheirRulesSay := by
  refine ⟨fun s w k hc => ⟨fun h hm taken ha => ?b, fun h ha => ?call, fun h ha => ?ret, fun h ha => ?jr, fun h ha => ?callr⟩,
    fun s w k => ⟨ld_traps, st_traps⟩⟩
  case b =>
    have hmod : w.mod.toNat % 16 = w.mod.toNat := Nat.mod_eq_of_lt (by omega)
    have named : decide (11 ≤ w.mod.toNat % 16) = false := by simp; omega
    have holds : condHolds k.flags (w.mod.toNat % 16) = true := by rwa [hmod, condHolds_iff]
    exact trapsWith_of_relative (n := "B") rfl h (by rw [named, firstTrap_cons_false, if_pos holds]) hc ha
  case call => exact trapsWith_of_relative (n := "CALL") rfl h rfl hc ha
  case ret => exact trapsWith_of_target (n := "RET") rfl h rfl ha
  case jr => exact trapsWith_of_target (n := "JR") rfl h rfl ha
  case callr => exact trapsWith_of_target (n := "CALLR") rfl h rfl ha

end Sys2Proof.Proofs
end

section
/-! SUPPORT. The registers after reset (R566, R567). -/

namespace Sys2Proof.Proofs

open Sys2Proof Sys2Proof.Machine

/-! ### The warnings behind the pin register: the spares of a whole module -/

theorem spares_reset (d : Nat) : State.reset.spares d = 280 := by
  simp [State.spares, State.freeBlocks, State.roleWhere]
  rfl

theorem spareMin_reset (g : Nat) : State.reset.spareMin g = 280 := by
  rw [State.spareMin, List.foldl_map]
  exact List.foldl_fixed' (fun d => by rw [spares_reset]; rfl) _

theorem sparePct_reset : State.reset.sparePct = 100 := by
  rw [State.sparePct, List.foldl_map]
  exact List.foldl_fixed' (fun g => by rw [spareMin_reset]; rfl) _

theorem criticalWarning_reset : State.reset.criticalWarning = 0 := by
  unfold State.criticalWarning
  rw [sparePct_reset]
  decide

theorem alertSources_reset : State.reset.alertSources = [false, false, false, false] := by
  unfold State.alertSources
  rw [criticalWarning_reset]
  decide

theorem pinsRead_reset : State.reset.regRead 0x40 = 0x7F00F00040 := by
  show State.reset.glbRead 0x40 = _
  unfold State.glbRead State.alert
  rw [alertSources_reset]
  decide

/-- Settles O58: each register is evaluated; the pin register reads the spares of every group, which are counted above. -/
theorem resetLeavesTheRegistersTheirResetValues : Obligations.ResetLeavesTheRegistersTheirResetValues := by
  refine ⟨?_, rfl, rfl, rfl, rfl, rfl, fun blown => by cases blown⟩
  simp only [List.forall_mem_cons, List.not_mem_nil, false_imp_iff, implies_true, and_true]
  refine ⟨by decide, by decide, by decide, pinsRead_reset, ?_⟩
  decide

end Sys2Proof.Proofs
end

section
/-! SUPPORT. TRAP, unassigned words, and what loads, stores and copies read and write (R269 to R271, R284, R285, R290, R598). -/

namespace Sys2Proof.Proofs

open Sys2Proof Sys2Proof.Machine

/-! ### Words without an instruction (R284, R285, R598) -/

/-- The fields of an instruction word, read back from its number. -/
def wordFields (c : Nat) (x : Word) : KWord :=
  { ctx := c, d := x.extractLsb' 51 5, a := x.extractLsb' 46 5, b := x.extractLsb' 41 5, mod := x.extractLsb' 32 9
    imm := x.extractLsb' 0 32 }

theorem toNat_extract (x : Word) (i n : Nat) : (x.extractLsb' i n).toNat = x.toNat / 2 ^ i % 2 ^ n := by
  rw [BitVec.extractLsb'_toNat, Nat.shiftRight_eq_div_pow]

/-- Only one word has a given number. -/
theorem wordFields_eq {x : Word} {op : Nat} {w : KWord} (h : x.toNat = wordOf op w) : wordFields w.ctx x = w := by
  obtain ⟨c, d, a, b, mod, imm⟩ := w
  have hd := d.isLt
  have ha := a.isLt
  have hb := b.isLt
  have hm := mod.isLt
  have hi := imm.isLt
  simp only [wordOf] at h
  simp only [wordFields, KWord.mk.injEq, true_and, BitVec.toNat_eq, toNat_extract, h]
  omega

theorem opcode_of_word {x : Word} {op : Nat} {w : KWord} (h : x.toNat = wordOf op w) : x.toNat / 2 ^ 56 = op := by
  obtain ⟨c, d, a, b, mod, imm⟩ := w
  have hd := d.isLt
  have ha := a.isLt
  have hb := b.isLt
  have hm := mod.isLt
  have hi := imm.isLt
  simp only [wordOf] at h
  omega

/-- The opcodes of the manual's tables (R284). -/
theorem not_assigned {op : Nat} (h : op ∉ [0x00, 0x01, 0x02, 0x03, 0x04, 0x10, 0x11, 0x12, 0x13, 0x14, 0x15, 0x16, 0x17, 0x18,
      0x19, 0x1A, 0x1B, 0x1C, 0x1D, 0x20, 0x21, 0x22, 0x23, 0x24, 0x25, 0x26, 0x27, 0x28, 0x29, 0x2A, 0x30, 0x31, 0x32, 0x33,
      0x34, 0x35, 0x36, 0x40, 0x41, 0x42, 0x50, 0x51, 0x60, 0x61, 0x62, 0x63, 0x64, 0x65, 0x70, 0x71, 0x72, 0x73, 0x74, 0x75,
      0x80, 0x81, 0x82, 0x90, 0x91, 0x92, 0x93, 0x94, 0xA0, 0xA1, 0xA2, 0xA3, 0xB0, 0xB1, 0xB2, 0xB3, 0xC0, 0xC1, 0xC2,
      0xC3, 0xC4, 0xC5, 0xC6, 0xD0, 0xD1, 0xD2, 0xD3, 0xE0]) : assigned op = false := by
  simp only [List.mem_cons, List.not_mem_nil, or_false] at h
  simp only [assigned, Bool.or_eq_false_iff, Bool.and_eq_false_iff, decide_eq_false_iff_not]
  omega

/-- The form of an instruction with sub-operations, of which only ZCTL uses no g[b]. -/
def subOpForm (op : Nat) : Form := { op := op, useD := false, useA := true, useB := decide (op ≠ 0x64), mask := 0xF }

section Unassigned

variable {s : State} {w : KWord} {k : KCtx} {x : Word}

/-- No check of a form that uses every field fires, so the unassigned opcode's own trap is the first. -/
theorem unassignedOpcode_traps {op : Nat} (hx : x.toNat = wordOf op w) (ha : assigned op = false)
    (h : Ready s { op := op, useD := true, useA := true, useB := true, mask := 0x1FF } false w k) :
    TrapsWith (.unassignedOpcode w.ctx x) s w.ctx k 0x01 0 := by
  obtain ⟨i, hi⟩ := inst_of_issues h.issues h.here
  have none_fires : firstTrap (s.baseTraps k false false) = none := by
    have base := firstTrap_append_none (b := []) (ready_no_trap h)
    rwa [List.append_nil, h.form] at base
  refine trapsWith_of_trapReel h.tables h.here hi ?_
  show execUnassignedOpcode w.ctx x s = _
  unfold execUnassignedOpcode
  rw [h.here]
  change (if !assigned (x.toNat / 2 ^ 56) then arises (s.issues (x.toNat / 2 ^ 56) (wordFields w.ctx x)) "UNASSIGNED_OPCODE" _
    else _) = _
  rw [opcode_of_word hx, wordFields_eq hx, ha, none_fires]
  simp only [Bool.not_false, if_true, h.issues, arises]
  rfl

/-- A sub-operation beyond the last of its opcode, in a reel that may use the opcode. -/
theorem unassignedSubOp_traps {op cap n : Nat} (hx : x.toNat = wordOf op w) (ha : assigned op = true)
    (hsub : subOps op = some (cap, n)) (hn : n ≤ w.mod.toNat)
    (h : Ready s (subOpForm op) false w k) (granted : k.cap.getLsbD cap = true) (thawed : s.frozen k.comp = false) :
    TrapsWith (.unassignedOpcode w.ctx x) s w.ctx k 0x08 7 := by
  obtain ⟨i, hi⟩ := inst_of_issues h.issues h.here
  have hm : w.mod.toNat ≤ 0xF := mod_le_mask h.form
  have beyond : decide (n ≤ w.mod.toNat % 16) = true := by simp; omega
  have none_fires : firstTrap (s.baseTraps k false (badForm (subOpForm op) w) ++ State.unitTraps s k (some cap) []) = none := by
    rw [firstTrap_append_none (ready_no_trap h)]
    simp [State.unitTraps, granted, thawed, firstTrap]
  refine trapsWith_of_trapReel h.tables h.here hi ?_
  show execUnassignedOpcode w.ctx x s = _
  unfold execUnassignedOpcode
  rw [h.here]
  change (if !assigned (x.toNat / 2 ^ 56) then _ else match subOps (x.toNat / 2 ^ 56) with
    | none => _
    | some (cap, n) => arises (s.issues (x.toNat / 2 ^ 56) (wordFields w.ctx x) &&
        decide (n ≤ (wordFields w.ctx x).mod.toNat % 16)) "UNASSIGNED_OPCODE" ((s.reelIssues w.ctx).trapReel w.ctx
          ((firstTrap (s.baseTraps k false (badForm (subOpForm (x.toNat / 2 ^ 56)) (wordFields w.ctx x)) ++
            State.unitTraps s k (some cap) [])).getD (0x08, 7)))) = _
  rw [opcode_of_word hx, wordFields_eq hx, ha, hsub]
  have issues : s.issues op w = true := h.issues
  simp only [Bool.not_true, Bool.false_eq_true, if_false, issues, beyond, Bool.and_self, arises, if_true, none_fires]
  rfl

end Unassigned

/-- Settles O7: each word's own trap, where none of the checks before it fires. -/
theorem trapAndUnassignedWordsStopTheReel : Obligations.TrapAndUnassignedWordsStopTheReel := by
  refine ⟨fun s w k h => trapsWith_of_runLocal (n := "TRAP") rfl h rfl,
    fun s w k x hx op h => unassignedOpcode_traps hx (not_assigned op) h, ?_⟩
  intro op cap n row s w k x hx hn h granted thawed
  simp only [List.mem_cons, Prod.mk.injEq, List.not_mem_nil, or_false] at row
  obtain ⟨rfl, rfl, rfl⟩ | ⟨rfl, rfl, rfl⟩ | ⟨rfl, rfl, rfl⟩ | ⟨rfl, rfl, rfl⟩ := row
  all_goals exact unassignedSubOp_traps hx rfl rfl hn h granted thawed

/-! ### Bytes of a space (R269, R271) -/

/-- A reel reaches a buffer that the spec's table of sizes gives it. -/
theorem bufSize_eq_spaceSize (s : State) (k : KCtx) (h : Word) : s.bufSize k h = spaceSize s k 2 h := by
  unfold State.bufSize spaceSize
  cases s.buf h.toNat with
  | none => rfl
  | some b => simp [State.mayReach]

theorem space_of_size {s : State} {k : KCtx} {sp z : Nat} {h : Word} (hz : spaceSize s k sp h = some z) : sp ≤ 2 :=
  match sp, hz with
  | 0, _ | 1, _ | 2, _ => by omega
  | _ + 3, hz => by cases hz

theorem outside_of_inside {s : State} {k : KCtx} {sp a n z : Nat} {h : Word} (hz : spaceSize s k sp h = some z)
    (inside : n = 0 ∨ a + n ≤ z) : s.outside k sp a n h = false := by
  unfold State.outside
  split
  · rfl
  next n0 =>
    have fits : ¬ z < a + n := by omega
    match sp, hz with
    | 0, hz => cases hz; simp [fits]
    | 1, hz => cases hz; simp [imageEnd, fits]
    | 2, hz => simp [bufSize_eq_spaceSize, hz, fits]

/-- A buffer that has a size for the reel is one that it may reach. -/
theorem handleTraps_of_spaceSize {s : State} {k : KCtx} {h : Word} {z : Nat} (hz : spaceSize s k 2 h = some z) :
    firstTrap (s.handleTraps k h) = none := by
  unfold spaceSize at hz
  unfold State.handleTraps
  cases hb : s.buf h.toNat with
  | none => simp [hb] at hz
  | some b =>
    simp only [hb] at hz
    split at hz
    next may =>
      have reach : s.mayReach k b = true := by simpa [State.mayReach] using may
      simp [reach, firstTrap]
    next => cases hz

theorem firstTrap_append {a b : List TrapIf} (h : firstTrap a = none) : firstTrap (a ++ b) = firstTrap b := by
  refine firstTrap_append_none fun x hx => ?_
  simp only [firstTrap, Option.map_eq_none_iff, List.find?_eq_none, Bool.not_eq_true] at h
  exact h x hx

theorem bufferCap_of_held {k : KCtx} {used : Bool} (h : used = true → k.cap.getLsbD 6 = true) : firstTrap (bufferCap k used) = none := by
  cases used with
  | false => rfl
  | true =>
    rw [bufferCap, if_pos rfl, h rfl]
    rfl

/-- The bytes that an instruction reads, as their little-endian number. -/
theorem leNat_spaceRead (s : State) (k : KCtx) (h : Word) {sp : Nat} (low : sp ≤ 2) (n : Nat) :
    ∀ a, leNat (s.spaceRead k sp a n h) = spaceNat s k sp h a n := by
  induction n with
  | zero =>
    obtain rfl | rfl | rfl : sp = 0 ∨ sp = 1 ∨ sp = 2 := by omega
    all_goals exact fun _ => rfl
  | succ n ih =>
    intro a
    have step : s.spaceRead k sp a (n + 1) h = spaceByte s k sp h a :: s.spaceRead k sp (a + 1) n h := by
      obtain rfl | rfl | rfl : sp = 0 ∨ sp = 1 ∨ sp = 2 := by omega
      all_goals simp only [State.spaceRead, spaceByte, readBytes, bufBase, Nat.add_assoc]; rfl
    rw [step, leNat, ih, spaceNat]

theorem length_spaceRead (s : State) (k : KCtx) (sp a n : Nat) (h : Word) : (s.spaceRead k sp a n h).length = n := by
  unfold State.spaceRead
  split_ifs <;> exact length_readBytes _ _ _

/-- The value that LD writes. -/
theorem loadValue_eq {bs : List Byte} {n : Nat} (hl : bs.length = n) (hn : 0 < n) (e : Bool) :
    loadValue bs e = extended e n (leNat bs) := by
  have pos : 0 < 8 * n := by omega
  simp [loadValue, extended, hl, pos]

section Memory

variable {s : State} {k : KCtx}

/-- An aligned access inside its space passes both checks of its address. -/
theorem firstTrap_address {sp a n z : Nat} {h : Word} (hz : spaceSize s k sp h = some z) (even : a % n = 0)
    (inside : n = 0 ∨ a + n ≤ z) :
    firstTrap [(decide (a % n ≠ 0), 0x06, 0), (s.outside k sp a n h, 0x06, 1)] = none := by
  simp [firstTrap, even, outside_of_inside hz inside]

/-- The checks of an access to a space that it may make (R271, R290). -/
theorem firstTrap_access {sp a n z : Nat} {h : Word} {more : List TrapIf} (hz : spaceSize s k sp h = some z)
    (cap : sp = 2 → k.cap.getLsbD 6 = true) (even : a % n = 0) (inside : n = 0 ∨ a + n ≤ z) :
    firstTrap (bufferCap k (decide (sp = 2)) ++ ([(decide (a % n ≠ 0), 0x06, 0), (s.outside k sp a n h, 0x06, 1)] ++
      ((if sp = 2 then s.handleTraps k h else []) ++ more))) = firstTrap more := by
  rw [firstTrap_append (bufferCap_of_held (by simpa using cap)), firstTrap_append (firstTrap_address hz even inside),
    firstTrap_append]
  split
  next hs => exact handleTraps_of_spaceSize (hs ▸ hz)
  next => rfl

end Memory

/-- Settles O9: no check of LD fires where its bytes are readable, and the value is theirs. -/
theorem loadReadsItsBytesAndExtendsThem : Obligations.LoadReadsItsBytesAndExtendsThem := by
  intro s w k h even read
  obtain ⟨⟨z, hz, inside⟩, cap, intact⟩ := read
  have low := space_of_size hz
  have space := srcSpace_of_le (mod_le_mask h.form)
  refine retires_of_effect (n := "LD") rfl h ?_ ?_
  · simp only [List.append_assoc, space]
    rw [firstTrap_append (by simp [firstTrap]; omega)]
    refine (firstTrap_access (a := memAddr k w) (n := accessSize w) hz cap even inside).trans ?_
    exact congrArg (fun b => firstTrap [(b, 0x05, w.mod.toNat / 8)]) intact
  · rw [space, loadValue_eq (n := accessSize w) (length_spaceRead _ _ _ _ _ _) (Nat.two_pow_pos _), leNat_spaceRead _ _ _ low]
    rfl

end Sys2Proof.Proofs
end

section
/-! SUPPORT. What stores and copies write (R269 to R271, R290). -/

namespace Sys2Proof.Proofs

open Sys2Proof Sys2Proof.Machine

/-! ### Bytes written -/

theorem getElem?_leBytes (n : Nat) : ∀ v i, i < n → (leBytes n v)[i]? = some (BitVec.ofNat 8 (v / 256 ^ i)) := by
  induction n with
  | zero => intro v i h; omega
  | succ n ih =>
    intro v i h
    cases i with
    | zero => simp [leBytes]
    | succ i => rw [leBytes, List.getElem?_cons_succ, ih _ _ (by omega), Nat.div_div_eq_div_mul, pow_succ']

theorem length_leBytes (n : Nat) : ∀ v, (leBytes n v).length = n := by
  induction n with
  | zero => intro v; rfl
  | succ n ih => intro v; rw [leBytes, List.length_cons, ih]

theorem getElem?_readBytes (m : SMap Byte) (n : Nat) : ∀ a i, i < n → (readBytes m a n)[i]? = some (look 0 m (a + i)) := by
  induction n with
  | zero => intro a i h; omega
  | succ n ih =>
    intro a i h
    cases i with
    | zero => simp [readBytes]
    | succ i => rw [readBytes, List.getElem?_cons_succ, ih _ _ (by omega), Nat.add_right_comm, Nat.add_assoc]

theorem getElem?_spaceRead (s : State) (k : KCtx) {sp a n : Nat} {h : Word} (low : sp ≤ 2) {i : Nat} (hi : i < n) :
    (s.spaceRead k sp a n h)[i]? = some (spaceByte s k sp h (a + i)) := by
  obtain rfl | rfl | rfl : sp = 0 ∨ sp = 1 ∨ sp = 2 := by omega
  all_goals simp only [State.spaceRead, if_true, if_false, reduceCtorEq, OfNat.ofNat_ne_zero, OfNat.ofNat_ne_one, one_ne_zero]
  all_goals rw [getElem?_readBytes _ _ _ _ hi]
  · rfl
  · rfl
  · rw [Nat.add_assoc]; rfl

/-- A byte memory after a write, at every address. -/
theorem look_writeBytes_at {m : SMap Byte} (hm : canon 0 m = true) {bs : List Byte} {a n : Nat} {f : Nat → Byte}
    (hl : bs.length = n) (hf : ∀ i, i < n → bs[i]? = some (f i)) (x : Nat) :
    look 0 (writeBytes m a bs) x = if a ≤ x ∧ x < a + n then f (x - a) else look 0 m x := by
  split
  next inside =>
    have hx := look_writeBytes bs m a (x - a) _ hm (hf (x - a) (by omega))
    rwa [Nat.add_sub_cancel' inside.1] at hx
  next outside => exact look_writeBytes_other bs m a x (by omega)

/-! ### Retirement after a write -/

section

variable {s : State} {c next : Nat} {k : KCtx}

theorem retire_eq (h : s.kctx c = some k) : s.retire_ c next = { s with kry := { s.kry with
    ctxs := put none s.kry.ctxs c (some (stepped k next))
    retired := upd 0 s.kry.retired (c / 4) (fun n => satAdd 0xFFFFFFFF n 1) } } := by
  unfold State.retire_ State.modK
  rw [h]
  rfl

theorem kctx_retired (h : s.kctx c = some k) : (s.retire_ c next).kctx c = some (stepped k next) := by
  rw [retire_eq h]
  exact look_put_of_ne _ _ _ _ (by simp)

theorem kctx_retired_other (h : s.kctx c = some k) {d : Nat} (hd : d ≠ c) : (s.retire_ c next).kctx d = s.kctx d := by
  rw [retire_eq h]
  exact look_put_other _ _ _ _ _ hd

end

section Memory

variable {s : State} {w : KWord} {k : KCtx} {i : Instr} {h : Word} {a n : Nat} {f : Nat → Byte} {bs : List Byte}

/-- A write to scratch, and the instruction retires. -/
theorem stores_scratch (here : s.kctx w.ctx = some k) (tables : ByteTables s k) (hl : bs.length = n)
    (hf : ∀ j, j < n → bs[j]? = some (f j))
    (hi : exec i s = .next (((s.reelIssues w.ctx).spaceWrite w.ctx 0 a h bs).retire_ w.ctx (k.pc + 8))) :
    Stores i s w.ctx k 0 h a n f := by
  have here' : (s.reelIssues w.ctx).kctx w.ctx = some k := here
  generalize hu : (s.reelIssues w.ctx).spaceWrite w.ctx 0 a h bs = u at hi
  unfold State.spaceWrite at hu
  rw [if_neg (by decide), here'] at hu
  have written : u.kctx w.ctx = some { k with scratch := writeBytes k.scratch a bs } := by
    rw [← hu]
    exact kctx_setKctx (s.reelIssues w.ctx) _ _
  refine ⟨_, hi, _, kctx_retired written, rfl, fun x => ?_, fun x => ?_, fun d hd => ?_, ?_⟩
  · simp only [true_and]
    exact look_writeBytes_at tables.1 hl hf x
  · rw [if_neg (by omega), retire_eq written, ← hu]
    rfl
  · rw [kctx_retired_other written hd, ← hu]
    exact kctx_setKctx_other _ _ _ _ hd
  · rw [retire_eq written, ← hu]
    rfl

/-- A write to a buffer, and the instruction retires. -/
theorem stores_buffer (here : s.kctx w.ctx = some k) (tables : ByteTables s k) (hl : bs.length = n)
    (hf : ∀ j, j < n → bs[j]? = some (f j))
    (hi : exec i s = .next (((s.reelIssues w.ctx).spaceWrite w.ctx 2 a h bs).retire_ w.ctx (k.pc + 8))) :
    Stores i s w.ctx k 2 h a n f := by
  have written : ((s.reelIssues w.ctx).spaceWrite w.ctx 2 a h bs).kctx w.ctx = some k := here
  refine ⟨_, hi, _, kctx_retired written, rfl, fun x => ?_, fun x => ?_, fun d hd => ?_, ?_⟩
  · rw [if_neg (by omega)]
    rfl
  · rw [retire_eq written]
    simp only [true_and]
    exact look_writeBytes_at tables.2 hl hf x
  · exact kctx_retired_other written hd
  · rw [retire_eq written]
    rfl

/-- A write to the space that an instruction names. -/
theorem stores_of_spaceWrite {sp : Nat} (space : sp = 0 ∨ sp = 2) (here : s.kctx w.ctx = some k) (tables : ByteTables s k)
    (hl : bs.length = n) (hf : ∀ j, j < n → bs[j]? = some (f j))
    (hi : exec i s = .next (((s.reelIssues w.ctx).spaceWrite w.ctx sp a h bs).retire_ w.ctx (k.pc + 8))) :
    Stores i s w.ctx k sp h a n f := by
  obtain rfl | rfl := space
  · exact stores_scratch here tables hl hf hi
  · exact stores_buffer here tables hl hf hi

/-- The buffer that a reel writes has not lost its contents. -/
theorem gone_false {sp : Nat} (kept : sp = 2 → ∀ b, s.buf h.toNat = some b → b.gone = false) (hs : sp = 2) :
    (s.buf h.toNat).any (·.gone) = false := by
  cases hb : s.buf h.toNat with
  | none => rfl
  | some b => exact kept hs b hb

/-- The checks of a write to a space that may be written. -/
theorem firstTrap_kept {sp : Nat} (kept : sp = 2 → ∀ b, s.buf h.toNat = some b → b.gone = false) :
    firstTrap (if sp = 2 then [((s.buf h.toNat).any (·.gone), 0x05, 2)] else []) = none := by
  split
  next hs => rw [gone_false kept hs]; rfl
  next => rfl

/-- What COPY does in a ready context: its checks, then its bytes. -/
theorem exec_copy (h : Ready s { op := 0x42, useD := true, useA := true, useB := true, mask := 0x78 } false w k) :
    exec (.copy w) s = .next (match firstTrap (s.baseTraps k false
        (badForm { op := 0x42, useD := true, useA := true, useB := true, mask := 0x78 } w) ++
        ([(decide (srcSpace w = 3) || decide (dstSpace w = 3) || (decide (srcSpace w = 2) && decide (dstSpace w = 2)), 0x01, 2),
          (decide (dstSpace w = 1), 0x01, 3)] ++ (bufferCap k (decide (srcSpace w = 2) || decide (dstSpace w = 2)) ++
        ([(decide (65536 < w.imm.toNat % 2 ^ 17) ||
            s.outside k (srcSpace w) (regA k w).toNat (w.imm.toNat % 2 ^ 17) (regB k w) ||
            s.outside k (dstSpace w) (regD k w).toNat (w.imm.toNat % 2 ^ 17) (regB k w), 0x06, 1)] ++
        ((if srcSpace w = 2 ∨ dstSpace w = 2 then s.handleTraps k (regB k w) else []) ++
        ([(s.badSource k w.ctx (srcSpace w) (regA k w).toNat (w.imm.toNat % 2 ^ 17) (regB k w), 0x05, srcSpace w)] ++
          if dstSpace w = 2 then [((s.buf (regB k w).toNat).any (·.gone), 0x05, 2)] else [])))))) with
      | some x => (s.reelIssues w.ctx).trapReel w.ctx x
      | none => ((s.reelIssues w.ctx).spaceWrite w.ctx (dstSpace w) (regD k w).toNat (regB k w)
          (s.spaceRead k (srcSpace w) (regA k w).toNat (w.imm.toNat % 2 ^ 17) (regB k w))).retire_ w.ctx (k.pc + 8)) := by
  show execCopy w s = _
  unfold execCopy
  rw [h.here]
  simp only [h.issues, arises, if_true, List.append_assoc] <;> rfl

/-- ST of bytes that may be written. -/
theorem st_stores (tables : ByteTables s k)
    (h : Ready s { op := 0x41, useD := true, useA := true, useB := true, mask := 0x1B } false w k)
    (even : (regA k w + signed w.imm).toNat % 2 ^ (w.mod.toNat % 4) = 0)
    (write : Writable s k (w.mod.toNat / 8) (regB k w) (regA k w + signed w.imm).toNat (2 ^ (w.mod.toNat % 4))) :
    Stores (.st w) s w.ctx k (w.mod.toNat / 8) (regB k w) (regA k w + signed w.imm).toNat (2 ^ (w.mod.toNat % 4))
      (fun i => BitVec.ofNat 8 ((regD k w).toNat / 256 ^ i)) := by
  obtain ⟨space, ⟨z, hz, inside⟩, cap, kept⟩ := write
  have hm : w.mod.toNat ≤ 0x1B := mod_le_mask h.form
  have hs := srcSpace_of_le (w := w) (by omega)
  refine stores_of_spaceWrite space h.here tables (length_leBytes _ _) (fun j hj => getElem?_leBytes _ _ _ hj) ?_
  have checked : firstTrap (if w.mod.toNat / 8 = 2 then
      s.handleTraps k (regB k w) ++ [((s.buf (regB k w).toNat).any (·.gone), 0x05, 2)] else []) = none := by
    split
    next buffer =>
      rw [firstTrap_append (handleTraps_of_spaceSize (buffer ▸ hz)), gone_false kept buffer]
      rfl
    next => rfl
  rw [exec_st h, firstTrap_append_none (ready_no_trap h), hs, firstTrap_append (by simp [firstTrap]; omega),
    firstTrap_append (bufferCap_of_held (by simpa using cap)),
    firstTrap_append (firstTrap_address (a := memAddr k w) (n := accessSize w) hz even inside), checked]
  rfl

/-- COPY of bytes that may be read and written. -/
theorem copy_stores (tables : ByteTables s k)
    (h : Ready s { op := 0x42, useD := true, useA := true, useB := true, mask := 0x78 } false w k)
    (one : ¬ (w.mod.toNat / 8 % 4 = 2 ∧ w.mod.toNat / 32 = 2)) (short : w.imm.toNat % 2 ^ 17 ≤ 65536)
    (read : Readable s k w.ctx (w.mod.toNat / 8 % 4) (regB k w) (regA k w).toNat (w.imm.toNat % 2 ^ 17))
    (write : Writable s k (w.mod.toNat / 32) (regB k w) (regD k w).toNat (w.imm.toNat % 2 ^ 17)) :
    Stores (.copy w) s w.ctx k (w.mod.toNat / 32) (regB k w) (regD k w).toNat (w.imm.toNat % 2 ^ 17)
      (fun i => spaceByte s k (w.mod.toNat / 8 % 4) (regB k w) ((regA k w).toNat + i)) := by
  have hm : w.mod.toNat ≤ 0x78 := mod_le_mask h.form
  have hs : srcSpace w = w.mod.toNat / 8 % 4 := rfl
  have hd : dstSpace w = w.mod.toNat / 32 := Nat.mod_eq_of_lt (by omega)
  obtain ⟨⟨y, hy, from_⟩, readCap, intact⟩ := read
  obtain ⟨space, ⟨z, hz, to_⟩, writeCap, kept⟩ := write
  have low := space_of_size hy
  have run := exec_copy h
  generalize w.mod.toNat / 8 % 4 = sp at *
  generalize w.mod.toNat / 32 = dp at *
  generalize w.imm.toNat % 2 ^ 17 = n at *
  refine stores_of_spaceWrite space h.here tables (length_spaceRead _ _ _ _ _ _) (fun j hj => getElem?_spaceRead s k low hj) ?_
  have cap : (decide (sp = 2) || decide (dp = 2)) = true → k.cap.getLsbD 6 = true := by
    simp only [Bool.or_eq_true, decide_eq_true_eq]
    exact fun used => used.elim readCap writeCap
  have reach : firstTrap (if sp = 2 ∨ dp = 2 then s.handleTraps k (regB k w) else []) = none := by
    split
    next used =>
      obtain rfl | rfl := used
      · exact handleTraps_of_spaceSize hy
      · exact handleTraps_of_spaceSize hz
    next => rfl
  rw [run, firstTrap_append_none (ready_no_trap h), hs, hd, firstTrap_append, firstTrap_append (bufferCap_of_held cap),
    firstTrap_append, firstTrap_append reach, firstTrap_append, firstTrap_kept kept]
  · simp [firstTrap, intact]
  · simp [firstTrap, outside_of_inside hy from_, outside_of_inside hz to_, Nat.not_lt.2 short]
  · have d1 : dp ≠ 1 := by omega
    have d3 : dp ≠ 3 := by omega
    have s3 : sp ≠ 3 := by omega
    simpa [firstTrap, d1, d3, s3] using one

end Memory

/-- Settles O10: ST and COPY pass their checks, and the write reads back byte by byte. -/
theorem storeAndCopyWriteExactlyTheirBytes : Obligations.StoreAndCopyWriteExactlyTheirBytes :=
  fun _ _ _ tables => ⟨st_stores tables, copy_stores tables⟩

end Sys2Proof.Proofs
end

section
/-! SUPPORT. Unit instructions: commit-only instructions and their held effects (R274, R278, R281, R292, R304 to R307). -/

namespace Sys2Proof.Proofs

open Sys2Proof Sys2Proof.Machine

section Held

variable {i : Instr} {s : State} {n : String} {f : Form} {w : KWord} {k : KCtx}

/-- A reel that holds the capability, in a compartment that is not frozen, passes the checks of every unit instruction. -/
theorem firstTrap_unitTraps {cap : Option Nat} (g : Granted s k cap) : firstTrap (s.unitTraps k cap []) = none := by
  obtain ⟨held, thawed⟩ := g
  cases cap with
  | none => simp [State.unitTraps, firstTrap, thawed]
  | some n => simp [State.unitTraps, firstTrap, thawed, held n rfl]

theorem firstTrap_unitTraps_append {cap : Option Nat} {ts : List TrapIf} (g : Granted s k cap) :
    firstTrap (s.unitTraps k cap [] ++ ts) = firstTrap ts := firstTrap_append (firstTrap_unitTraps g)

/-- The context of a reel whose commit-only instruction was accepted. -/
def holding (k : KCtx) (e : Held) : KCtx :=
  { setReg k 1 0 with flags := { k.flags with z := true }, held := k.held ++ [e] }

/-- A commit-only instruction that no check stops: its effect is held, and it retires. -/
theorem retires_of_runHeld {ts : KCtx → List TrapIf} {eff : KCtx → Held} {e : Held} (hi : exec i s = s.runHeld n f w ts eff)
    (h : Ready s f false w k) (ht : firstTrap (ts k) = none) (he : eff k = e) :
    Retires i s w.ctx (stepped (holding k e) (k.pc + 8)) := by
  subst he
  have run : s.runHeld n f w ts eff =
      .next (((s.reelIssues w.ctx).setKctx w.ctx (some (holding k (eff k)))).retire_ w.ctx (k.pc + 8)) := by
    unfold State.runHeld
    rw [h.here]
    simp only [h.issues, arises]
    rw [firstTrap_append_none (ready_no_trap h), ht]
    rfl
  refine ⟨_, hi.trans run, kctx_retire _ _ _ _, fun d hd => ?_, ?_⟩
  · rw [kctx_retire_other _ _ _ _ _ hd]
    rfl
  · rw [retire_eq (kctx_setKctx _ _ _)]
    rfl

theorem readBytes_eq_map (m : SMap Byte) (n : Nat) : ∀ a, readBytes m a n = (List.range n).map (fun i => look 0 m (a + i)) := by
  intro a
  refine List.ext_getElem? fun i => ?_
  rcases Nat.lt_or_ge i n with hi | hi
  · rw [getElem?_readBytes _ _ _ _ hi, List.getElem?_map, List.getElem?_range hi]
    rfl
  · rw [List.getElem?_eq_none (by simpa using hi), List.getElem?_eq_none (by simpa using hi)]

/-- The checks of a resource of CMPSET (R307). -/
theorem cmpsetRow_retires {cmd : KWord → Instr} {res : Nat} {legal : Nat → Prop} (hres : res ≤ 5)
    (hcmd : ∀ w s, exec (cmd w) s = runCmpset s n res w) (hlegal : ∀ v, legal v → resourceValue res v = true)
    (h : Ready s (cmpsetRow cmd res legal).form false w k) (g : Granted s k (some 18)) (ok : (cmpsetRow cmd res legal).ok s k w) :
    Retires (cmd w) s w.ctx (stepped (holding k ((cmpsetRow cmd res legal).held k w)) (k.pc + 8)) := by
  obtain ⟨sub, compNo, value, used, steward, floors⟩ := ok
  have selected : selects w res = true :=
    decide_eq_true (by rw [modSel, sub]; exact Nat.mod_eq_of_lt (by omega))
  have free : s.cmpsetRefused (regA k w).toNat res (regB k w).toNat = false := by
    simp only [State.cmpsetRefused, Bool.or_eq_false_iff, Bool.and_eq_false_iff, decide_eq_false_iff_not]
    refine ⟨⟨?_, ?_⟩, ?_⟩
    · by_cases zero : (regA k w).toNat = 0
      · exact .inl (not_not.2 zero)
      · exact .inr (used zero)
    · by_cases zero : (regA k w).toNat = 0
      · exact .inr (steward zero)
      · exact .inl zero
    · by_cases three : res = 3
      · right
        simpa [State.floorsExceed] using floors three
      · exact .inl three
  have run : runCmpset s n res w = s.runHeld n { op := 0xE0, useD := false, useA := true, useB := true, mask := 0xF } w
      (fun k => s.unitTraps k (some 18) [] ++ [(decide (1023 < (regA k w).toNat) || !resourceValue res (regB k w).toNat, 0x08, 7),
        (s.cmpsetRefused (regA k w).toNat res (regB k w).toNat, 0x08, 4)])
      (fun k => .cmpset (regA k w).toNat res (regB k w).toNat (w.imm.toNat % 16)) := by
    unfold runCmpset
    rw [selected]
    rfl
  refine retires_of_runHeld ((hcmd w s).trans run) h ?_ rfl
  · rw [firstTrap_unitTraps_append g, hlegal _ value, free]
    simp [firstTrap]
    omega

end Held

/-- Settles O11: each row's checks pass, and what it holds is the row's effect. -/
theorem commitOnlyInstructionsHoldTheirEffect : Obligations.CommitOnlyInstructionsHoldTheirEffect := by
  simp only [Obligations.CommitOnlyInstructionsHoldTheirEffect, IsHeldRow, List.forall_mem_cons, List.not_mem_nil, false_imp_iff,
    implies_true, and_true]
  refine ⟨?timset, ?pmode, ?pstate, ?evpost, ?regwr, ?unpark, ?queuePairs, ?activeQuota, ?directQuota, ?bufferFloor,
    ?creditShare, ?latencyClass⟩
  all_goals intro s w k h g ok
  case timset => exact retires_of_runHeld (n := "TIMSET") rfl h (firstTrap_unitTraps g) rfl
  case pmode =>
    refine retires_of_runHeld (n := "PMODE") rfl h ((firstTrap_unitTraps_append g).trans ?_) rfl
    simp [firstTrap, ok]
  case pstate =>
    refine retires_of_runHeld (n := "PSTATE") rfl h ((firstTrap_unitTraps_append g).trans ?_) rfl
    simp [firstTrap, ok]
  case evpost =>
    obtain ⟨code, payload⟩ := ok
    have hm : w.mod.toNat ≤ 7 := mod_le_mask h.form
    have level : w.mod.toNat % 8 = w.mod.toNat := Nat.mod_eq_of_lt (by omega)
    have inside : (decide (w.b ≠ 0) && s.outside k 0 (regB k w).toNat 16 0) = false := by
      by_cases zero : w.b = 0
      · simp [zero]
      · have fits : spaceSize s k 0 0 = some 16384 := rfl
        rw [outside_of_inside fits (.inr (payload zero)), Bool.and_false]
    refine retires_of_runHeld (n := "EVPOST") rfl h ((firstTrap_unitTraps_append g).trans ?_) ?_
    · rw [inside]
      simpa [firstTrap] using code
    · rw [level, readBytes_eq_map]
      rfl
  case regwr =>
    refine retires_of_runHeld (n := "REGWR") rfl h ((firstTrap_unitTraps_append g).trans ?_) rfl
    obtain ⟨aligned, low⟩ := ok
    simp only [offsetTraps, aligned, Nat.not_le.2 low]
    rfl
  case unpark =>
    have mounted : s.mounted = true := decide_eq_true ok
    refine retires_of_runHeld (n := "UNPARK") rfl h ((firstTrap_unitTraps_append g).trans ?_) rfl
    simp [firstTrap, mounted]
  case queuePairs => exact cmpsetRow_retires (by decide) (fun _ _ => rfl) (fun _ => decide_eq_true) h g ok
  case activeQuota => exact cmpsetRow_retires (by decide) (fun _ _ => rfl) (fun _ => decide_eq_true) h g ok
  case directQuota => exact cmpsetRow_retires (by decide) (fun _ _ => rfl) (fun _ => decide_eq_true) h g ok
  case bufferFloor => exact cmpsetRow_retires (by decide) (fun _ _ => rfl) (fun _ => decide_eq_true) h g ok
  case creditShare => exact cmpsetRow_retires (by decide) (fun _ _ => rfl) (fun _ => decide_eq_true) h g ok
  case latencyClass => exact cmpsetRow_retires (by decide) (fun _ _ => rfl) (fun _ => decide_eq_true) h g ok

end Sys2Proof.Proofs
end

section
/-! SUPPORT. What the queues of the dies, the jobs of the codec, checkpoints and events leave of the contexts, the operations of the
units, the zones and the buffers (R203, R292). -/

namespace Sys2Proof.Machine

open Sys2Proof

/-- What no unit touches while it accepts an operation: the contexts, the operations held, the tables of zones and the buffers. The
write sequence value is left out, since programs that start may take some (R203). -/
structure Desk where
  ctxs : SMap (Option KCtx)
  ops : List KOp
  zns : Zones
  bpm : Pools

def State.desk (s : State) : Desk := { ctxs := s.kry.ctxs, ops := s.kry.ops, zns := { s.zns with seq := 0 }, bpm := s.bpm }

/-- An update of other components. -/
theorem desk_mk (s : State) (part boot pins pwr plog tim thm fan lvl car fls mnt jrn nv nvNext mem cmp fcd hif cpl sec svc free pending) :
    (State.mk part boot pins pwr plog tim thm fan lvl s.zns car fls mnt jrn nv nvNext s.bpm mem cmp fcd s.kry hif cpl sec svc free
      pending).desk = s.desk := by rfl

/-- An update of other fields of the contexts' component. -/
theorem desk_sec (s : State) (part boot pins pwr plog tim thm fan lvl car fls mnt jrn nv nvNext mem cmp fcd hif cpl sec svc free pending)
    (kry : Reels) (hc : kry.ctxs = s.kry.ctxs) (ho : kry.ops = s.kry.ops) :
    (State.mk part boot pins pwr plog tim thm fan lvl s.zns car fls mnt jrn nv nvNext s.bpm mem cmp fcd kry hif cpl sec svc free
      pending).desk = s.desk := by
  simp only [State.desk, hc, ho]

theorem desk_ite (c : Prop) [Decidable c] (s t : State) : (if c then s else t).desk = if c then s.desk else t.desk :=
  apply_ite _ _ _ _

theorem desk_foldl {α : Type} (f : State → α → State) (h : ∀ s a, (f s a).desk = s.desk) (l : List α) :
    ∀ s, (l.foldl f s).desk = s.desk := by
  induction l with
  | nil => exact fun _ => rfl
  | cons a l ih => exact fun s => (ih _).trans (h s a)

theorem desk_getD {o : Option State} {s : State} (h : ∀ t, o = some t → t.desk = s.desk) : (o.getD s).desk = s.desk := by
  cases o with
  | none => rfl
  | some t => exact h t rfl

theorem desk_of_eventFrame {s t : State} (h : EventFrame s t) : t.desk = s.desk := by
  unfold State.desk
  rw [h.rest]

theorem State.setComp_desk (s : State) (c) (v) : (State.setComp s c v).desk = s.desk := by rfl

theorem State.setCarriage_desk (s : State) (n) (v) : (State.setCarriage s n v).desk = s.desk := by rfl

theorem State.setDie_desk (s : State) (d) (v) : (State.setDie s d v).desk = s.desk := by rfl

theorem State.setBlock_desk (s : State) (d) (b) (v) : (State.setBlock s d b v).desk = s.desk := by rfl

theorem State.setCodecCtx_desk (s : State) (c) (v) : (State.setCodecCtx s c v).desk = s.desk := by rfl

theorem State.setPort_desk (s : State) (p) (v) : (State.setPort s p v).desk = s.desk := by
  simp only [State.setPort, desk_sec, desk_ite, ite_self]

theorem State.emit_desk (s : State) (o) : (State.emit s o).desk = s.desk := by rfl

theorem State.startClocks_desk (s : State) (mask) : (State.startClocks s mask).desk = s.desk := by rfl

theorem State.startClock_desk (s : State) (d) : (State.startClock s d).desk = s.desk := by rfl

theorem State.interrupt_desk (s : State) (port) (vector) : (State.interrupt s port vector).desk = s.desk :=
  desk_of_eventFrame (interrupt_frame _ _ _)

theorem State.toStewardRing_desk (s : State) (e) : (State.toStewardRing s e).desk = s.desk :=
  desk_of_eventFrame (toStewardRing_frame _ _)

theorem State.compIrq_desk (s : State) (c) (bit) : (State.compIrq s c bit).desk = s.desk :=
  desk_of_eventFrame (compIrq_frame _ _ _)

theorem State.toCompRing_desk (s : State) (e) : (State.toCompRing s e).desk = s.desk :=
  desk_of_eventFrame (toCompRing_frame _ _)

theorem State.toReels_desk (s : State) (e) : (State.toReels s e).desk = s.desk := by rfl

theorem State.raise_desk (s : State) (code) (level) (source) (c) (p) : (State.raise s code level source c p).desk = s.desk :=
  desk_of_eventFrame (raise_frame _ _ _ _ _ _)

theorem State.event_desk (s : State) (code) (level) (source) (c) (fields) :
    (State.event s code level source c fields).desk = s.desk := desk_of_eventFrame (event_frame _ _ _ _ _ _)

theorem State.settleKey_desk (s : State) : (State.settleKey s).desk = s.desk := by
  unfold State.settleKey; repeat' split
  all_goals simp only [desk_sec, desk_ite, ite_self]

theorem State.modQueues_desk (s : State) (f : Queue → Bool) (g : Queue → Queue) : (State.modQueues s f g).desk = s.desk :=
  by rfl

theorem State.cqPush_desk (s : State) (h) : (State.cqPush s h).desk = s.desk := by rfl

theorem State.logError_desk (s : State) (h) (e) : (State.logError s h e).desk = s.desk :=
  desk_of_eventFrame (logError_frame _ _ _)

theorem State.complete_desk (s : State) (h) (st) (dw0) (dw1) : (State.complete s h st dw0 dw1).desk = s.desk :=
  desk_of_eventFrame (complete_frame _ _ _ _ _)

theorem State.fail_desk (s : State) (h) (st) : (State.fail s h st).desk = s.desk := desk_of_eventFrame (fail_frame _ _ _)

theorem State.done_desk (s : State) (h) (dw0) : (State.done s h dw0).desk = s.desk := desk_of_eventFrame (done_frame _ _ _)

theorem State.portAsync_desk (s : State) (p) (bit) (type) (info) (page) :
    (State.portAsync s p bit type info page).desk = s.desk := by
  simp only [State.portAsync, desk_ite]
  repeat' split
  all_goals simp only [State.done_desk, State.setPort_desk]

theorem State.compAsync_desk (s : State) (c) (bit) (type) (info) (page) :
    (State.compAsync s c bit type info page).desk = s.desk := by
  unfold State.compAsync; repeat' split
  all_goals simp only [desk_sec, State.done_desk]

theorem State.warning_desk (s : State) (bit) (info) : (State.warning s bit info).desk = s.desk := by
  simp only [State.warning, desk_foldl, implies_true, State.compAsync_desk, State.portAsync_desk]

theorem State.draw_desk (s : State) : (State.draw s).desk = s.desk := by rfl

theorem State.layPage_desk (s : State) (d) (b) (p) (data) (r) : (State.layPage s d b p data r).desk = s.desk := by
  simp only [State.layPage, desk_sec]

theorem State.layPages_desk (s : State) (d) (b) (p) (pages) : (State.layPages s d b p pages).desk = s.desk := by
  simp only [State.layPages, desk_foldl, implies_true, State.layPage_desk]

theorem State.takeSeq_desk (s : State) (n) : (State.takeSeq s n).2.desk = s.desk := by
  unfold State.takeSeq
  extract_lets a e _ s1
  have h1 : s1.desk = s.desk := rfl
  simp only [apply_ite State.desk, State.event_desk, h1, ite_self]

theorem State.sealPages_desk (s : State) (d) (b) (p) (n) (flush) (fresh : ℕ → Bool) :
    (State.sealPages s d b p n flush fresh).desk = s.desk := by
  simp only [State.sealPages, desk_sec, State.takeSeq_desk]

theorem State.spareEvents_desk (s : State) (d) (before) : (State.spareEvents s d before).desk = s.desk := by
  simp only [State.spareEvents, desk_ite, ite_self, State.warning_desk, State.event_desk]

theorem State.withSpares_desk (s : State) (d) (f : State → State) (hf : ∀ t, (f t).desk = t.desk) :
    (State.withSpares s d f).desk = s.desk := by
  simp only [State.withSpares, State.spareEvents_desk, hf]

theorem State.charge_desk (s : State) (cluster) (c) (ns) : (State.charge s cluster c ns).desk = s.desk := by rfl

theorem State.chargeUnit_desk (s : State) (cluster) (r) (k) (ns) : (State.chargeUnit s cluster r k ns).desk = s.desk := by
  unfold State.chargeUnit; repeat' split
  all_goals simp only [desk_ite, desk_foldl, ite_self, implies_true, State.charge_desk]

theorem State.queueRefresh_desk (s : State) (d) (b) : (State.queueRefresh s d b).desk = s.desk := by
  simp only [State.queueRefresh, desk_sec, desk_ite, ite_self]

theorem State.readLimit_desk (s : State) (d) (b) : (State.readLimit s d b).desk = s.desk := by
  simp only [State.readLimit, desk_ite, ite_self, State.queueRefresh_desk]

theorem State.countReads_desk (s : State) (d) (b) (n) : (State.countReads s d b n).desk = s.desk := by
  simp only [State.countReads, State.readLimit_desk, State.setBlock_desk]

theorem State.noteStart_desk (s : State) (d) (e) : (State.noteStart s d e).desk = s.desk := by
  unfold State.noteStart; repeat' split
  all_goals simp only [State.countReads_desk, State.setBlock_desk, State.sealPages_desk]

theorem State.addReadUs_desk (s : State) (cluster) (us) : (State.addReadUs s cluster us).desk = s.desk := by rfl

theorem State.startEntry_desk (s : State) (d) (e) : (State.startEntry s d e).desk = s.desk := by
  unfold State.startEntry; repeat' split
  all_goals simp only [State.setDie_desk, State.startClock_desk, State.noteStart_desk, State.chargeUnit_desk, State.charge_desk,
      State.addReadUs_desk]

theorem State.markCapWait_desk (s : State) (d) (e) : (State.markCapWait s d e).desk = s.desk := by rfl

theorem State.refuseEntry_desk (s : State) (d) (e) : (State.refuseEntry s d e).desk = s.desk := by rfl

theorem State.takeNext_desk (d : Nat) : ∀ (n : Nat) (s : State), (State.takeNext n s d).desk = s.desk
  | 0, _ => rfl
  | n + 1, s => by
    unfold State.takeNext
    repeat' split
    · simp only [State.takeNext_desk d n, State.refuseEntry_desk]
    · simp only [State.startEntry_desk]
    · simp only [State.markCapWait_desk]
    · rfl

theorem State.dieNext_desk (s : State) (d) : (State.dieNext s d).desk = s.desk := by
  simp only [State.dieNext, desk_ite, ite_self, State.takeNext_desk]

theorem State.enqueue_desk (s : State) (d) (e) : (State.enqueue s d e).desk = s.desk := by
  simp only [State.enqueue, State.dieNext_desk, State.startClock_desk, State.setDie_desk]

theorem State.unqueue_desk (s : State) (f : QEntry → Bool) : (State.unqueue s f).desk = s.desk := by rfl

theorem State.takeSpare_desk {s : State} {d} {role} {use} {i t} (h : State.takeSpare s d role use = some (i, t)) :
    t.desk = s.desk := by
  unfold State.takeSpare at h
  repeat' split at h
  all_goals cases h
  exact State.withSpares_desk _ _ _ fun u => State.setBlock_desk u _ _ _

theorem State.dropJob_desk (s : State) (i) : (State.dropJob s i).desk = s.desk := by
  unfold State.dropJob; repeat' split
  all_goals simp only [desk_sec, State.settleKey_desk, State.setCarriage_desk]

theorem State.giveLane_desk (s : State) (i) (l) : (State.giveLane s i l).desk = s.desk := by rfl

theorem State.setCodecState_desk (s : State) (c) (v) (coded) : (State.setCodecState s c v coded).desk = s.desk := by rfl

theorem State.codecMove_desk {s : State} {i} {t} (h : State.codecMove s i = some t) : t.desk = s.desk := by
  have lane : ∀ {o : Option Nat}, o.map (s.giveLane i) = some t → t.desk = s.desk := fun e => by
    obtain ⟨l, -, rfl⟩ := Option.map_eq_some_iff.1 e
    exact State.giveLane_desk s i l
  unfold State.codecMove at h
  repeat' split at h
  all_goals try exact lane h
  all_goals cases h
  all_goals simp only [State.fail_desk, State.done_desk, State.emit_desk, State.setCodecState_desk, State.dropJob_desk]

theorem State.codecMoves_desk : ∀ (n : Nat) (s : State), (State.codecMoves n s).desk = s.desk
  | 0, _ => rfl
  | n + 1, s => by
    unfold State.codecMoves
    split
    · next t h =>
      obtain ⟨i, -, hi⟩ := List.exists_of_findSome?_eq_some h
      rw [State.codecMoves_desk n, State.codecMove_desk hi]
    · rfl

theorem State.settleCodec_desk (s : State) : (State.settleCodec s).desk = s.desk := by
  simp only [State.settleCodec, State.codecMoves_desk]

theorem State.loseReplica_desk (s : State) (i) (r) : (State.loseReplica s i r).desk = s.desk := by
  simp only [State.loseReplica, desk_sec, desk_ite, ite_self, State.event_desk]

theorem State.ckptBlocks_desk (s : State) : (State.ckptBlocks s).desk = s.desk := by
  simp only [State.ckptBlocks, desk_sec, desk_ite, ite_self]

theorem State.ckptStripe_desk (s : State) : (State.ckptStripe s).desk = s.desk := by
  simp only [State.ckptStripe, desk_sec, desk_foldl, implies_true, State.ckptBlocks_desk, State.enqueue_desk,
      State.layPages_desk]

theorem State.startCkpt_desk (s : State) : (State.startCkpt s).desk = s.desk := by
  simp only [State.startCkpt, desk_sec, State.draw_desk, State.ckptStripe_desk, State.unqueue_desk]

theorem State.addJob_desk (s : State) (j) : (State.addJob s j).desk = s.desk := by
  simp only [State.addJob, desk_sec, State.settleCodec_desk]

theorem State.disturb_desk (s : State) (d) (b) : (State.disturb s d b).desk = s.desk := by
  unfold State.disturb; repeat' split
  all_goals simp only [State.loseReplica_desk]

theorem State.layProgram_desk (s : State) (d) (b) (page) (n) (bs) : (State.layProgram s d b page n bs).desk = s.desk := by rfl

theorem State.startMount_desk (s : State) (full) : (State.startMount s full).desk = s.desk := by rfl

end Sys2Proof.Machine
end

section
/-! SUPPORT. Asynchronous instructions: their checks, tickets and journal entries, and what their units accept (R275 to R277, R281,
R292, R293, R299, R301, R303, R305, R306). -/

namespace Sys2Proof.Proofs

open Sys2Proof Sys2Proof.Machine

/-! ### Tables in rising order -/

section Tables

variable {V : Type} [DecidableEq V]

omit [DecidableEq V] in
theorem look_absent (d : V) (k : Nat) : ∀ m : SMap V, (∀ e ∈ m, e.1 ≠ k) → look d m k = d
  | [], _ => rfl
  | (j, v) :: r, h => by
    rw [look, if_neg (h _ (List.mem_cons_self))]
    exact look_absent d k r fun e he => h e (List.mem_cons_of_mem _ he)

/-- A table whose indices rise reads what was written, though it may hold entries that equal its default. -/
theorem look_put_rising (d v : V) (k : Nat) : ∀ m : SMap V, (m.map (·.1)).Pairwise (· < ·) → look d (put d m k v) k = v := by
  intro m rising
  by_cases hv : v = d
  · subst hv
    induction m with
    | nil => simp [put, look]
    | cons e r ih =>
      obtain ⟨j, w⟩ := e
      obtain ⟨above, rest⟩ := List.pairwise_cons.1 rising
      have later : ∀ e ∈ r, j < e.1 := fun e he => above _ (List.mem_map_of_mem he)
      simp only [put, if_true]
      split
      · exact look_absent _ _ _ fun e he => by
          rcases List.mem_cons.1 he with rfl | he
          · exact Ne.symm (by simp; omega)
          · have := later e he; omega
      · split
        · exact look_absent _ _ _ fun e he => by have := later e he; omega
        · next h => rw [look, if_neg (Ne.symm h)]; exact ih rest
  · exact look_put_of_ne d m k v hv

end Tables

theorem block_setBlock {s : State} (rising : (s.fls.blocks.map (·.1)).Pairwise (· < ·)) (d b : Nat) (v : Block) :
    (s.setBlock d b v).block d b = v := look_put_rising _ _ _ _ rising

/-! ### A reel that traps before its unit is asked -/

/-- A trap of a reel in a state that differs from `s` at most in its clocks, in what it records of activity, and in the reel's own
context, whose entry and `pc` stand. -/
theorem trapsWith_of_trapped_context {ins : Instr} {s t : State} {c code detail : Nat} {k k' : KCtx} {i : KInst} (ht : ReelTables t)
    (hk : t.kctx c = some k') (inst : k'.inst = k.inst) (pc : k'.pc = k.pc) (hi : s.kinst k.inst = some i)
    (same : t = { s with lvl := t.lvl, pwr := t.pwr, kry := { s.kry with ctxs := t.kry.ctxs } })
    (others : ∀ d, d ≠ c → t.kctx d = s.kctx d)
    (he : exec ins s = .next (t.trapReel c (code, detail))) : TrapsWith ins s c k code detail := by
  have kry : t.kry = { s.kry with ctxs := t.kry.ctxs } := by rw [same]
  have media : t.zns = s.zns ∧ t.car = s.car ∧ t.fls = s.fls ∧ t.bpm = s.bpm := by rw [same]; exact ⟨rfl, rfl, rfl, rfl⟩
  have hi' : t.kinst k'.inst = some i := by rw [inst, ← hi, State.kinst, kry]; rfl
  obtain ⟨u, before, after⟩ := stopReel_frames (state := 5) (code := code) (detail := detail) hk hi'
  have kept := ((ReelsKept.of_eventFrame before).trans (storeWake_kept u)).trans (.of_eventFrame after)
  refine ⟨_, he, ?_, ?_, ⟨_, congrArg List.head? kept.records, ?_⟩, fun d hd => ?_, fun hw => ?_⟩
  · exact (congrArg (look none · c) kept.ctxs).trans (kctx_setKctx_none t c ht)
  · rw [← inst]
    exact kept.gone _ (look_put none t.kry.insts k'.inst none ht.2)
  · exact ⟨inst, rfl, rfl, rfl, pc⟩
  · exact ((congrArg (look none · d) kept.ctxs).trans (kctx_setKctx_other t c d none hd)).trans (others d hd)
  · have none_queued : t.kry.writes = [] := by rw [kry]; exact hw
    have hwt : u.kry.writes = [] := (writes_of_eventFrame before).trans none_queued
    rw [storeWake_of_no_writes hwt] at after
    obtain ⟨z, c, f, b⟩ := media_of_eventFrame (before.trans after)
    obtain ⟨z', c', f', b'⟩ := media
    exact ⟨z.trans z', c.trans c', f.trans f', b.trans b'⟩

/-- The same where the context stands as well. -/
theorem trapsWith_of_trapped {ins : Instr} {s t : State} {c code detail : Nat} {k : KCtx} {i : KInst} (ht : ReelTables s)
    (hk : s.kctx c = some k) (hi : s.kinst k.inst = some i) (same : t = { s with lvl := t.lvl, pwr := t.pwr })
    (he : exec ins s = .next (t.trapReel c (code, detail))) : TrapsWith ins s c k code detail := by
  have kry : t.kry = s.kry := by rw [same]
  refine trapsWith_of_trapped_context (t := t) (k' := k) ?_ ?_ rfl rfl hi ?_ (fun d _ => ?_) he
  · rw [ReelTables, kry]; exact ht
  · rw [← hk, State.kctx, kry]; rfl
  · rw [kry]; exact same
  · rw [State.kctx, kry]; rfl

/-- A reel whose context is written and retires. -/
theorem retires_of_set {i : Instr} {s : State} {c pc : Nat} {k : KCtx}
    (he : exec i s = .next (((s.reelIssues c).setKctx c (some k)).retire_ c pc)) : Retires i s c (stepped k pc) := by
  refine ⟨_, he, kctx_retire _ _ _ _, fun d hd => kctx_retire_other _ _ _ _ _ hd, ?_⟩
  rw [retire_eq (kctx_setKctx _ _ _)]
  rfl

/-! ### What every asynchronous instruction does -/

/-- The journal entry of an asynchronous instruction under ticket `n`. -/
def ticketEntry (k : KCtx) (op : Nat) (w : KWord) (n : Nat) : JEntry :=
  { entryOf k op w [(1, 0), (2, BitVec.ofNat 64 n)] (some true) with takes := some n }

/-- The context under which the unit is asked: the registers, z, the ticket and the entry stand, the `pc` does not. -/
def asking (k : KCtx) (op : Nat) (w : KWord) (n : Nat) : KCtx :=
  { State.replay { k with kept := [] } (ticketEntry k op w n) with journal := k.journal ++ [ticketEntry k op w n], kept := k.kept }

/-- The instruction `row.cmd w` runs as a ticketed one: capability first, then checks that a frozen compartment alone fails, and a
unit that accepts `row.op` and leaves the desk as it was. -/
structure RunsTicket (row : TicketRow) (s : State) (w : KWord) (k : KCtx) : Prop where
  run : ∃ (name : String) (gate traps late : KCtx → List TrapIf) (eff : KCtx → Nat → State → State) (rest : List TrapIf),
    exec (row.cmd w) s = s.runTicket name row.form w gate traps late eff ∧
    gate k = (!k.cap.getLsbD row.cap, 0x02, row.cap) :: rest ∧ (s.frozen k.comp = false → firstTrap rest = none) ∧
    firstTrap (traps k) = none ∧ firstTrap (late k) = none ∧
    ∀ n t, t = reelPart s t → (eff k n t).desk = (t.addOp w.ctx k.inst n (row.op s k w)).desk

section Ticket

variable {row : TicketRow} {s : State} {w : KWord} {k : KCtx} {n : Nat}

theorem freeTicket_of_lowest (h : LowestFree k n) : State.freeTicket k = some n := by
  obtain ⟨low, free, used⟩ := h
  rw [State.freeTicket, List.find?_range_eq_some]
  refine ⟨by simpa using free, List.mem_range.2 low, fun m hm => ?_⟩
  obtain ⟨x, hx, e⟩ := used m hm
  simpa using ⟨x, hx, e⟩

theorem freeTicket_none (h : ∀ m, m < 64 → ∃ x ∈ k.tickets, x.num = m) : State.freeTicket k = none := by
  rw [State.freeTicket, List.find?_eq_none]
  intro m hm
  simpa using h m (List.mem_range.1 hm)

theorem recorded_none (h : k.journal.length = k.jpos) : State.recorded k = none := List.getElem?_eq_none (by omega)

theorem firstTrap_cons_held {c : Bool} {x : Nat × Nat} {ts : List TrapIf} (h : c = false) : firstTrap ((c, x) :: ts) = firstTrap ts := by
  simp [firstTrap, h]

theorem firstTrap_cons_hit {c : Bool} {x : Nat × Nat} {ts : List TrapIf} (h : c = true) : firstTrap ((c, x) :: ts) = some x := by
  simp [firstTrap, h]

theorem ready_ticket (h : Ready s row.form false w k) (r : RunsTicket row s w k) :
    ∃ (rest : List TrapIf) (ask : Nat → State → State), (s.frozen k.comp = false → firstTrap rest = none) ∧
      (∀ n t, t = reelPart s t → (ask n t).desk = (t.addOp w.ctx k.inst n (row.op s k w)).desk) ∧
      exec (row.cmd w) s = .next (match firstTrap ((!k.cap.getLsbD row.cap, 0x02, row.cap) :: rest) with
        | some x => (s.reelIssues w.ctx).trapReel w.ctx x
        | none => match State.recorded k with
          | some e => if State.mismatch e row.form.op (operands k w) then (s.reelIssues w.ctx).trapReel w.ctx (0x08, 6)
            else ((s.reelIssues w.ctx).setKctx w.ctx (some (State.replay k e))).retire_ w.ctx (k.pc + 8)
          | none => match firstTrap [(State.journalFull k, 0x07, 1), ((State.freeTicket k).isNone, 0x07, 2)] with
            | some x => (s.reelIssues w.ctx).trapReel w.ctx x
            | none => (ask ((State.freeTicket k).getD 0) ((s.reelIssues w.ctx).setKctx w.ctx
                (some (asking k row.form.op w ((State.freeTicket k).getD 0))))).retire_ w.ctx (k.pc + 8)) := by
  obtain ⟨name, gate, traps, late, eff, rest, run, hgate, passes, htraps, hlate, effect⟩ := r.run
  refine ⟨rest, eff k, passes, effect, run.trans ?_⟩
  have own : firstTrap (traps k ++ [(State.journalFull k, 0x07, 1), ((State.freeTicket k).isNone, 0x07, 2)] ++ late k) =
      firstTrap [(State.journalFull k, 0x07, 1), ((State.freeTicket k).isNone, 0x07, 2)] := by
    rw [List.append_assoc, firstTrap_append htraps]
    simp only [firstTrap, List.find?_append, Option.map_or]
    rw [show Option.map (·.2) ((late k).find? (·.1)) = none from hlate, Option.or_none]
  unfold State.runTicket
  rw [h.here]
  simp only [h.issues, arises]
  rw [firstTrap_append_none (ready_no_trap h), hgate, own]
  rfl

theorem ticket_without_capability (h : Ready s row.form false w k) (r : RunsTicket row s w k) (cap : k.cap.getLsbD row.cap = false) :
    TrapsWith (row.cmd w) s w.ctx k 0x02 row.cap := by
  obtain ⟨rest, ask, -, -, run⟩ := ready_ticket h r
  obtain ⟨x, hx⟩ := inst_of_issues h.issues h.here
  rw [firstTrap_cons_hit (by rw [cap]; rfl)] at run
  exact trapsWith_of_trapReel h.tables h.here hx run

/-- The checks before the journal pass for a reel that holds the capability in a compartment that is not frozen. -/
theorem granted_rest {rest : List TrapIf} (g : Granted s k (some row.cap)) (passes : s.frozen k.comp = false → firstTrap rest = none) :
    firstTrap ((!k.cap.getLsbD row.cap, 0x02, row.cap) :: rest) = none := by
  obtain ⟨held, thawed⟩ := g
  rw [firstTrap_cons_held (by rw [held _ rfl]; rfl), passes thawed]

theorem ticket_journal_full (h : Ready s row.form false w k) (r : RunsTicket row s w k) (g : Granted s k (some row.cap))
    (fresh : k.journal.length = k.jpos) (full : 256 ≤ k.jpos) : TrapsWith (row.cmd w) s w.ctx k 0x07 1 := by
  obtain ⟨rest, ask, passes, -, run⟩ := ready_ticket h r
  obtain ⟨x, hx⟩ := inst_of_issues h.issues h.here
  have isFull : State.journalFull k = true := decide_eq_true full
  rw [granted_rest g passes, recorded_none fresh, firstTrap_cons_hit isFull] at run
  exact trapsWith_of_trapReel h.tables h.here hx run

theorem ticket_none_free (h : Ready s row.form false w k) (r : RunsTicket row s w k) (g : Granted s k (some row.cap))
    (fresh : FreshPosition k) (used : ∀ m, m < 64 → ∃ x ∈ k.tickets, x.num = m) : TrapsWith (row.cmd w) s w.ctx k 0x07 2 := by
  obtain ⟨rest, ask, passes, -, run⟩ := ready_ticket h r
  obtain ⟨x, hx⟩ := inst_of_issues h.issues h.here
  obtain ⟨here, room⟩ := fresh
  have notFull : State.journalFull k = false := decide_eq_false (by omega)
  rw [granted_rest g passes, recorded_none here, firstTrap_cons_held notFull,
    firstTrap_cons_hit (by rw [freeTicket_none used]; rfl)] at run
  exact trapsWith_of_trapReel h.tables h.here hx run

theorem ticket_mismatch {e : JEntry} (h : Ready s row.form false w k) (r : RunsTicket row s w k) (g : Granted s k (some row.cap))
    (found : k.journal[k.jpos]? = some e) (other : e.op ≠ row.form.op ∨ e.args ≠ operands k w) :
    TrapsWith (row.cmd w) s w.ctx k 0x08 6 := by
  obtain ⟨rest, ask, passes, -, run⟩ := ready_ticket h r
  obtain ⟨x, hx⟩ := inst_of_issues h.issues h.here
  have differs : State.mismatch e row.form.op (operands k w) = true := by simpa [State.mismatch] using other
  rw [granted_rest g passes, State.recorded, found] at run
  simp only [differs, if_true] at run
  exact trapsWith_of_trapReel h.tables h.here hx run

theorem ticket_replays {e : JEntry} (h : Ready s row.form false w k) (r : RunsTicket row s w k) (g : Granted s k (some row.cap))
    (found : k.journal[k.jpos]? = some e) (op : e.op = row.form.op) (args : e.args = operands k w) :
    Retires (row.cmd w) s w.ctx (stepped (State.replay k e) (k.pc + 8)) := by
  obtain ⟨rest, ask, passes, -, run⟩ := ready_ticket h r
  have same : State.mismatch e row.form.op (operands k w) = false := by simp [State.mismatch, op, args]
  rw [granted_rest g passes, State.recorded, found] at run
  simp only [same] at run
  exact retires_of_set run

/-- What the unit's acceptance leaves: the context retired, the operation held, the zones but for the write sequence, the buffers. -/
theorem ticket_accepted (h : Ready s row.form false w k) (r : RunsTicket row s w k) (g : Granted s k (some row.cap))
    (fresh : FreshPosition k) (lowest : LowestFree k n) :
    Goes (row.cmd w) s (fun t => t.kctx w.ctx = some (stepped (asking k row.form.op w n) (k.pc + 8)) ∧
      (∀ d, d ≠ w.ctx → t.kctx d = s.kctx d) ∧
      t.kry.ops = s.kry.ops ++ [{ ctx := w.ctx, inst := k.inst, ticket := n, op := row.op s k w }] ∧
      (∃ q, t.zns = { s.zns with seq := q }) ∧ t.bpm = s.bpm) := by
  obtain ⟨rest, ask, passes, effect, run⟩ := ready_ticket h r
  obtain ⟨here, room⟩ := fresh
  have notFull : State.journalFull k = false := decide_eq_false (by omega)
  have free := freeTicket_of_lowest lowest
  rw [granted_rest g passes, recorded_none here, firstTrap_cons_held notFull, firstTrap_cons_held (by rw [free]; rfl), free] at run
  obtain ⟨u, hu⟩ : ∃ u, u = ask n ((s.reelIssues w.ctx).setKctx w.ctx (some (asking k row.form.op w n))) := ⟨_, rfl⟩
  have desk : u.desk = _ := (congrArg State.desk hu).trans (effect n _ rfl)
  have ctxs := congrArg Desk.ctxs desk
  have ops := congrArg Desk.ops desk
  have zns := congrArg Desk.zns desk
  have bpm := congrArg Desk.bpm desk
  have here' : u.kctx w.ctx = some (asking k row.form.op w n) := (congrArg (look none · w.ctx) ctxs).trans (kctx_setKctx _ _ _)
  refine ⟨u.retire_ w.ctx (k.pc + 8), run.trans (by rw [hu]; rfl), kctx_retired here',
    fun d hd => ?_, ?_⟩
  · exact (kctx_retired_other here' hd).trans ((congrArg (look none · d) ctxs).trans (kctx_setKctx_other _ _ _ _ hd))
  · rw [retire_eq here']
    exact ⟨ops, ⟨u.zns.seq, congrArg (fun z : Zones => { z with seq := u.zns.seq }) zns⟩, bpm⟩

end Ticket

/-! ### The fifteen asynchronous instructions -/

section Rows

variable {s : State} {w : KWord} {k : KCtx}

theorem firstTrap_addrTraps {a : Word} {pages : Nat} (h : addressOk s a pages) : firstTrap (s.addrTraps a pages) = none := by
  obtain ⟨high, die, block, page⟩ := h
  simp only [State.addrTraps, firstTrap, List.find?_cons, List.find?_nil, Nat.not_le.2 high, Nat.not_le.2 die, Nat.not_le.2 block,
    Nat.not_le.2 page, decide_false, Bool.or_self]
  rfl

theorem outside_of_span {h : Word} {off n : Nat} (ok : spanOk s k h off n) : s.outside k 2 off n h = false := by
  obtain ⟨z, hz, fits⟩ := ok
  exact outside_of_inside hz fits

theorem firstTrap_spanTraps {h : Word} {off n : Nat} (ok : spanOk s k h off n) : firstTrap (s.spanTraps k h off n) = none :=
  firstTrap_cons_held (outside_of_span ok)

theorem handleTraps_of_span {h : Word} {off n : Nat} (ok : spanOk s k h off n) : firstTrap (s.handleTraps k h) = none := by
  obtain ⟨z, hz, -⟩ := ok
  exact handleTraps_of_spaceSize hz

/-- The checks of flash programs and erases on a block that is open to the reels and whose page the block takes (R300). -/
theorem firstTrap_writeTraps {a : Word} (h : blockOpen s a) : firstTrap (s.writeTraps (flashDie a) (flashBlock a) none) = none := by
  obtain ⟨may, free⟩ := h
  simp [State.writeTraps, firstTrap, may, free]

theorem runsTicket_of {row : TicketRow} {name : String} {gate traps late : KCtx → List TrapIf} {eff : KCtx → Nat → State → State}
    {more rest : List TrapIf} (run : exec (row.cmd w) s = s.runTicket name row.form w gate traps late eff)
    (hgate : gate k = s.unitTraps k (some row.cap) more ++ rest) (hmore : firstTrap more = none) (hrest : firstTrap rest = none)
    (htraps : firstTrap (traps k) = none) (hlate : firstTrap (late k) = none)
    (effect : ∀ n t, t = reelPart s t → (eff k n t).desk = (t.addOp w.ctx k.inst n (row.op s k w)).desk) : RunsTicket row s w k := by
  refine ⟨_, _, _, _, _, more ++ [(s.frozen k.comp, 0x0B, 0)] ++ rest, run, hgate.trans rfl, fun thawed => ?_, htraps, hlate, effect⟩
  rw [List.append_assoc, firstTrap_append hmore, List.singleton_append, firstTrap_cons_held thawed, hrest]

/-- The units of an instruction that asks for its capability alone. -/
theorem unitTraps_nil {cap : Nat} {more : List TrapIf} : s.unitTraps k (some cap) more = s.unitTraps k (some cap) more ++ [] :=
  (List.append_nil _).symm

theorem firstTrap_levelTrap (h : s.sec.level = .opened) : firstTrap s.levelTrap = none :=
  firstTrap_cons_held (by simp [State.isOpen, h])

theorem addOp_desk {t u : State} (h : t.desk = u.desk) (c i n : Nat) (op : UnitOp) : (t.addOp c i n op).desk = (u.addOp c i n op).desk := by
  simp only [State.desk, Desk.mk.injEq] at h
  obtain ⟨ctxs, ops, zns, bpm⟩ := h
  simp only [State.desk, State.addOp, ctxs, ops, zns, bpm]

/-- FPROG with its operands written out. -/
theorem exec_fprog (s : State) (w : KWord) : exec (.fprog w) s =
    s.runTicket "FPROG" { op := 0x71, useD := false, useA := true, useB := true, mask := 0x61 } w
      (fun k => s.unitTraps k (some 10) [] ++ s.addrTraps (regA k w) (pagesOf (!slcBit w)) ++
        s.spanTraps k (regB k w) w.imm.toNat (progLen (slcBit w)))
      (fun k => s.handleTraps k (regB k w))
      (fun k => s.writeTraps (flashDie (regA k w)) (flashBlock (regA k w)) (s.reelRefusal (flashDie (regA k w))
        (s.reelEntry k 0 (progKind (slcBit w)) (flashBlock (regA k w)) (flashPage (regA k w)) (flashCls w))))
      (fun k t s =>
        if s.badSpan k (regB k w) w.imm.toNat (progLen (slcBit w)) then s.addOp w.ctx k.inst t (.answered 1 0)
        else (((s.addOp w.ctx k.inst t (.program (flashDie (regA k w)) (flashBlock (regA k w)) (flashPage (regA k w)))).disturb
            (flashDie (regA k w)) (flashBlock (regA k w))).layProgram (flashDie (regA k w)) (flashBlock (regA k w))
            (flashPage (regA k w)) (unitPages (!slcBit w))
            (s.spaceRead k 2 w.imm.toNat (progLen (slcBit w)) (regB k w))).enqueue (flashDie (regA k w))
          (s.reelEntry k t (progKind (slcBit w)) (flashBlock (regA k w)) (flashPage (regA k w)) (flashCls w))) := by
  show execFprog w s = _
  rfl

/-- FERASE with its operands written out. -/
theorem exec_ferase (s : State) (w : KWord) : exec (.ferase w) s =
    s.runTicket "FERASE" { op := 0x72, useD := false, useA := true, useB := false, mask := 0x61 } w
      (fun k => s.unitTraps k (some 10) [] ++ s.addrTraps (regA k w) 8192) (fun _ => [])
      (fun k => s.writeTraps (flashDie (regA k w)) (flashBlock (regA k w))
        (if s.deadBlock (flashDie (regA k w)) (flashBlock (regA k w)) then some 0x89 else none))
      (fun k t s => ((s.addOp w.ctx k.inst t (.erase (flashDie (regA k w)) (flashBlock (regA k w)))).disturb (flashDie (regA k w))
          (flashBlock (regA k w))).enqueue (flashDie (regA k w))
        (s.reelEntry k t (eraseOf (slcBit w)) (flashBlock (regA k w)) 0 (flashCls w))) := by
  show execFerase w s = _
  rfl

/-- A block in the mode of the program, at the page it takes next, refuses nothing (R300). -/
theorem reelRefusal_none {d : Nat} {e : QEntry} (rising : (s.fls.blocks.map (·.1)).Pairwise (· < ·))
    (present : (s.die d).lost = false) (used : (s.block d e.block).use ≠ .retired)
    (undeferred : ∀ r, (s.block d e.block).use ≠ .deferred r) (mode : (s.block d e.block).qlc = decide (e.kind = .progQlc))
    (next : e.page = s.nextPage d e.block) : s.reelRefusal d e = none := by
  have same : (s.setBlock d e.block { s.block d e.block with wp := s.nextPage d e.block }).die d = s.die d := rfl
  unfold State.reelRefusal State.refusal
  rw [block_setBlock rising, same]
  generalize s.block d e.block = b at *
  cases hu : b.use with
  | retired => exact absurd hu used
  | deferred r => exact absurd hu (undeferred r)
  | _ => simp [hu, present, mode, next]

/-- The two take-and-give forms of FRESERVE and the two mounts, of which `mod` [0] selects one. -/
theorem runFreserve_of {name : String} {give : Bool} {eff : KCtx → Nat → State → State} (h : w.mod.getLsbD 0 = give) :
    runFreserve s name give w eff = s.runTicket name formFreserve w (fun k => s.unitTraps k (some 10) s.levelTrap)
      (fun k => [(decide (s.part.variant.dies ≤ (regA k w).toNat), 0x08, 1)]) (fun _ => []) eff := by
  unfold runFreserve
  rw [if_neg (not_not.2 h)]

theorem runMount_of {name : String} {full : Bool} (h : w.mod.getLsbD 0 = full) :
    runMount s name full w = s.runTicket name { op := 0xD0, useD := false, useA := false, useB := false, mask := 0x1 } w
      (fun k => s.unitTraps k (some 17) []) (fun _ => []) (fun _ => [])
      (fun k t s =>
        if !s.parked then s.addOp w.ctx k.inst t (.answered 1 0)
        else if s.mnt.state = 4 then s.addOp w.ctx k.inst t (.answered 0 0)
        else if s.sec.sanFailed then s.addOp w.ctx k.inst t (.answered 2 0)
        else if 1 ≤ s.mnt.state ∧ s.mnt.state ≤ 3 then s.addOp w.ctx k.inst t .mount
        else (s.addOp w.ctx k.inst t .mount).startMount full) := by
  unfold runMount
  rw [if_neg (not_not.2 h)]

/-- CXSAVE and CXRESTORE (R303). -/
theorem codecState_runs {cmd : KWord → Instr} {name : String} {op : Nat} {unitOp : Nat → Nat → Nat → UnitOp} {good : State → KCtx → KWord → Prop}
    (run : exec (cmd w) s = runCodecState s name op w unitOp) (ok : s.part.codec = true ∧ (regA k w).toNat < 2048 ∧
      (k.comp = 0 ∨ (s.codecCtx (regA k w).toNat).grant = some k.comp) ∧ spanOk s k (regB k w) w.imm.toNat 132160) :
    RunsTicket { cmd := cmd, form := { op := op, useD := false, useA := true, useB := true, mask := 0 }, cap := 8, ok := good
                 op := fun _ k w => unitOp (regA k w).toNat (regB k w).toNat w.imm.toNat } s w k := by
  obtain ⟨codec, index, granted, span⟩ := ok
  have mine : (decide (k.comp ≠ 0) && decide ((s.codecCtx (regA k w).toNat).grant ≠ some k.comp)) = false := by
    rcases granted with h | h <;> simp [h]
  refine runsTicket_of run rfl (firstTrap_cons_held (by rw [codec]; rfl)) (firstTrap_cons_held (outside_of_span span)) ?_ rfl
    fun n t ht => State.addJob_desk _ _
  rw [List.append_assoc, firstTrap_append (firstTrap_cons_held (decide_eq_false (Nat.not_le.2 index))), List.singleton_append,
    firstTrap_cons_held mine, handleTraps_of_span span]

/-- HDMARD and HDMAWR (R305). -/
theorem hostDma_runs {cmd : KWord → Instr} {name : String} {op : Nat} {unitOp : DmaFrom → Nat → Nat → Nat → Nat → UnitOp}
    {good : State → KCtx → KWord → Prop} (run : exec (cmd w) s = runHostDma s name op w unitOp)
    (ok : (regD k w).toNat ≤ 2 ^ 24 ∧ spanOk s k (regB k w) (w.imm.toNat % 2 ^ 24) (regD k w).toNat) :
    RunsTicket { cmd := cmd, form := { op := op, useD := true, useA := true, useB := true, mask := 0 }, cap := 11, ok := good
                 op := fun s k w => unitOp (s.dmaFrom k) (regA k w).toNat (regD k w).toNat (regB k w).toNat (w.imm.toNat % 2 ^ 24) }
      s w k := by
  obtain ⟨size, span⟩ := ok
  dsimp only [runHostDma] at run
  refine runsTicket_of run rfl rfl (firstTrap_cons_held ?_) (handleTraps_of_span span) rfl fun n t ht => ?_
  · rw [outside_of_span span, Bool.or_false]
    exact decide_eq_false (Nat.not_lt.2 size)
  · have same : t.dmaFrom k = s.dmaFrom k := by rw [ht]; rfl
    dsimp only
    rw [same]

/-- The two mounts, in a module that is Parked and has not begun one (R306). -/
theorem mount_runs {cmd : KWord → Instr} {name : String} {full : Bool} {good : State → KCtx → KWord → Prop}
    (run : exec (cmd w) s = runMount s name full w) (selected : w.mod.getLsbD 0 = full)
    (ok : s.boot.parked = true ∧ s.mnt.state = 0 ∧ s.sec.sanFailed = false) :
    RunsTicket { cmd := cmd, form := { op := 0xD0, useD := false, useA := false, useB := false, mask := 1 }, cap := 17, ok := good
                 op := fun _ _ _ => .mount } s w k := by
  obtain ⟨parked, state, sound⟩ := ok
  refine runsTicket_of (run.trans (runMount_of selected)) unitTraps_nil rfl rfl rfl rfl fun n t ht => ?_
  have parked' : t.parked = true := by rw [ht]; exact parked
  have state' : t.mnt.state = 0 := by rw [ht]; exact state
  have sound' : t.sec.sanFailed = false := by rw [ht]; exact sound
  simp [parked', state', sound', State.startMount_desk]

theorem runsTicket : ∀ row, IsTicketRow row → ∀ (s : State) (w : KWord) (k : KCtx), Ready s row.form false w k → row.ok s k w →
    RunsTicket row s w k := by
  simp only [IsTicketRow, List.forall_mem_cons, List.not_mem_nil, false_imp_iff, implies_true, and_true]
  refine ⟨?fread, ?fprog, ?ferase, ?frecord, ?ftemp, ?take, ?give, ?uncouple, ?cxsave, ?cxrestore, ?hdmard, ?hdmawr, ?mount, ?scan,
    ?ckpt⟩
  all_goals intro s w k h ok
  case fread =>
    obtain ⟨opened, address, span⟩ := ok
    refine runsTicket_of (name := "FREAD") (show execFread w s = _ from rfl) (List.append_assoc _ _ _) (firstTrap_levelTrap opened)
      ((firstTrap_append (firstTrap_addrTraps address)).trans (firstTrap_spanTraps span)) (handleTraps_of_span span) rfl fun n t ht => ?_
    simp only [apply_ite State.desk, State.enqueue_desk, ite_self]
    rfl
  case frecord =>
    obtain ⟨address, inside⟩ := ok
    have scratch : spaceSize s k 0 0 = some 16384 := rfl
    refine runsTicket_of (name := "FRECORD") (show execFrecord w s = _ from rfl) (List.append_assoc _ _ _) rfl
      ((firstTrap_append (firstTrap_addrTraps address)).trans (firstTrap_cons_held (outside_of_inside scratch (.inr inside)))) rfl rfl
      fun n t ht => ?_
    simp only [apply_ite State.desk, State.enqueue_desk, ite_self]
  case ftemp =>
    exact runsTicket_of (name := "FTEMP") (show execFtemp w s = _ from rfl) unitTraps_nil rfl rfl
      (firstTrap_cons_held (decide_eq_false (Nat.not_le.2 ok))) rfl fun n t ht => rfl
  case fprog =>
    obtain ⟨address, span, opened, intact, present, used, undeferred, mode, next, rising⟩ := ok
    have kind : decide (progKind (slcBit w) = .progQlc) = !slcBit w := by cases slcBit w <;> rfl
    have pages : pagesOf (!slcBit w) = if slcBit w then 1536 else 6144 := by cases slcBit w <;> rfl
    have len : progLen (slcBit w) = (if slcBit w then 4 else 64) * (16384 + 32) := by cases slcBit w <;> rfl
    refine runsTicket_of (exec_fprog s w) (List.append_assoc _ _ _) rfl
      ((firstTrap_append (firstTrap_addrTraps ?_)).trans (firstTrap_spanTraps ?_)) (handleTraps_of_span span) ?_ fun n t ht => ?_
    · rw [pages]; exact address
    · rw [len]; exact span
    · rw [reelRefusal_none rising present used undeferred (mode.trans kind.symm) next]
      exact firstTrap_writeTraps opened
    · have intact' : t.badSpan k (regB k w) w.imm.toNat (progLen (slcBit w)) = false := by rw [ht, len]; exact intact
      simp only [intact', Bool.false_eq_true, if_false, State.enqueue_desk, State.layProgram_desk, State.disturb_desk]
  case ferase =>
    obtain ⟨address, opened, used, present⟩ := ok
    have small : flashDie (regA k w) < 65536 := lt_of_lt_of_le (Nat.mod_lt _ (by decide)) (by decide : 2 ^ 11 ≤ 65536)
    have alive : s.deadBlock (flashDie (regA k w)) (flashBlock (regA k w)) = false := by
      simp [State.deadBlock, State.noDie, present, used, small]
    refine runsTicket_of (exec_ferase s w) rfl rfl (firstTrap_addrTraps address) rfl ?_
      fun n t ht => ?_
    · rw [alive]; exact firstTrap_writeTraps opened
    · simp only [State.enqueue_desk, State.disturb_desk]
  case take =>
    obtain ⟨give, opened, die, present, room, spare⟩ := ok
    obtain ⟨b, hb⟩ := Option.isSome_iff_exists.1 spare
    refine runsTicket_of (show execFreserveTake w s = _ from runFreserve_of give) unitTraps_nil (firstTrap_levelTrap opened) rfl
      (firstTrap_cons_held (decide_eq_false (Nat.not_le.2 die))) rfl fun n t ht => ?_
    have few : ¬ 16 ≤ t.reelBlocks (regA k w).toNat := by rw [ht]; exact Nat.not_le.2 room
    have present' : (t.die (regA k w).toNat).lost = false := by rw [ht]; exact present
    have hb' : t.bestFree (regA k w).toNat .spare = some b := by rw [ht]; exact hb
    have taken : t.takeSpare (regA k w).toNat .spare .reel = some (b, t.withSpares (regA k w).toNat fun s => s.setBlock (regA k w).toNat b
        { s.block (regA k w).toNat b with role := .spare, use := .reel }) := by
      simp [State.takeSpare, present', hb']
    simp only [few, if_false, taken, hb, Option.getD_some]
    exact addOp_desk (State.takeSpare_desk taken) _ _ _ _
  case give =>
    obtain ⟨give, opened, die, present, block, owned⟩ := ok
    refine runsTicket_of (show execFreserveReturn w s = _ from runFreserve_of give) unitTraps_nil (firstTrap_levelTrap opened) rfl
      (firstTrap_cons_held (decide_eq_false (Nat.not_le.2 die))) rfl fun n t ht => ?_
    have owned' : t.reelOwned (regA k w).toNat (regB k w).toNat = true := by rw [ht]; exact owned
    have present' : (t.die (regA k w).toNat).lost = false := by rw [ht]; exact present
    simp [owned', present', Nat.not_le.2 block, State.enqueue_desk]
  case uncouple =>
    obtain ⟨index, busy, mine⟩ := ok
    refine runsTicket_of (name := "UNCOUPLE") (show execUncouple w s = _ from rfl) unitTraps_nil rfl rfl
      (firstTrap_cons_held (decide_eq_false (Nat.not_le.2 index))) rfl fun n t ht => ?_
    have busy' : t.carBusy (regA k w).toNat = true := by
      rw [ht]
      exact (Bool.or_eq_true _ _).mpr busy
    have mine' : ¬ (k.comp ≠ 0 ∧ (t.carriage (regA k w).toNat).comp ≠ k.comp) := by rw [ht]; exact fun h => mine.elim h.1 h.2
    simp only [busy', mine', Bool.not_true, Bool.false_eq_true, if_false, State.setCarriage_desk]
  case cxsave => exact codecState_runs (name := "CXSAVE") (show execCxsave w s = _ from rfl) ok
  case cxrestore => exact codecState_runs (name := "CXRESTORE") (show execCxrestore w s = _ from rfl) ok
  case hdmard => exact hostDma_runs (name := "HDMARD") (show execHdmard w s = _ from rfl) ok
  case hdmawr => exact hostDma_runs (name := "HDMAWR") (show execHdmawr w s = _ from rfl) ok
  case mount => exact mount_runs (show execMountCheckpoint w s = _ from rfl) ok.1 ok.2
  case scan => exact mount_runs (show execMountFullScan w s = _ from rfl) ok.1 ok.2
  case ckpt =>
    have mounted : s.mounted = true := decide_eq_true ok
    refine runsTicket_of (name := "CKPT") (show execCkpt w s = _ from rfl) unitTraps_nil rfl rfl rfl rfl fun n t ht => ?_
    have mounted' : t.mounted = true := by rw [ht]; exact mounted
    simp only [mounted', Bool.not_true, Bool.false_eq_true, if_false, apply_ite State.desk, State.startCkpt_desk, ite_self]

end Rows

/-- The context under which a unit is asked has the registers, flags, counts, entry and ticket of an accepted instruction. -/
theorem accepted_asking (k : KCtx) (op : Nat) (w : KWord) (n : Nat) :
    Accepted k (stepped (asking k op w n) (k.pc + 8)) op w n where
  regs := rfl
  flags := rfl
  pc := rfl
  counts := ⟨rfl, rfl⟩
  journal := rfl
  position := rfl
  tickets m := by
    have taken : (stepped (asking k op w n) (k.pc + 8)).tickets =
        (k.tickets ++ [({ num := n, done := none, dmaFault := none, scratch := [] } : Ticket)]).filter (fun t => decide (some t.num ≠ none)) := rfl
    simp [taken, or_comm, eq_comm]
  rest := ⟨rfl, rfl, rfl, rfl, rfl, rfl⟩

/-- A field of one bit is that bit. -/
theorem bit_iff (x : BitVec 9) (i : Nat) : bits x.toNat i 1 = 1 ↔ x.getLsbD i = true := by
  rw [BitVec.getLsbD, Nat.testBit, bits, Nat.pow_one, Nat.shiftRight_eq_div_pow, Nat.one_and_eq_mod_two]
  simp

section Wait

variable {s : State} {w : KWord} {k : KCtx}

/-- A ready WAIT that names a condition: its record, its checks, or its conditions. -/
theorem exec_wait (h : Ready s { op := 0x02, useD := false, useA := true, useB := true, mask := 0x1F } true w k)
    (names : w.mod.toNat ≠ 0) (fresh : FreshPosition k) : exec (.wait w) s = .next
      (if (decide (bits w.mod.toNat 0 1 = 1) && k.tickets.all (fun t => decide (t.num ≠ (regA k w).toNat))) = true then
        (s.startClock (96 + w.ctx / 4)).trapReel w.ctx (0x08, 8)
      else if s.waitMask k w.mod.toNat (regA k w) (regB k w) = 0 then
        (s.startClock (96 + w.ctx / 4)).setKctx w.ctx (some { k with wait := .inWait w.mod (regA k w) (regB k w) })
      else (s.reelIssues w.ctx).endWait w.ctx k (operands k w) (s.waitMask k w.mod.toNat (regA k w) (regB k w))
        (State.waitTicket k w.mod.toNat (regA k w))) := by
  obtain ⟨here, room⟩ := fresh
  have low : w.mod.toNat ≤ 0x1F := mod_le_mask h.form
  have named : decide (w.mod.toNat % 32 = 0) = false := decide_eq_false (by omega)
  have notFull : State.journalFull k = false := decide_eq_false (by omega)
  have same : (s.startClock (96 + w.ctx / 4)).waitMask k w.mod.toNat (regA k w) (regB k w) =
    s.waitMask k w.mod.toNat (regA k w) (regB k w) := rfl
  show execWait w s = _
  unfold execWait
  rw [h.here]
  simp only [h.issues, arises, if_true]
  rw [firstTrap_append_none (ready_no_trap (f := formWait) h), firstTrap_cons_held named, recorded_none here]
  cases absent : (decide (bits w.mod.toNat 0 1 = 1) && k.tickets.all (fun t => decide (t.num ≠ (regA k w).toNat))) with
  | true => rw [firstTrap_cons_hit rfl]; rfl
  | false => rw [firstTrap_cons_held rfl, firstTrap_cons_held notFull, same]; rfl

/-- A WAIT that names no condition (R293). -/
theorem wait_names_nothing (h : Ready s { op := 0x02, useD := false, useA := true, useB := true, mask := 0x1F } true w k)
    (nothing : w.mod.toNat = 0) : TrapsWith (.wait w) s w.ctx k 0x01 1 := by
  obtain ⟨x, hx⟩ := inst_of_issues h.issues h.here
  refine trapsWith_of_trapped h.tables h.here hx (t := s.startClock (96 + w.ctx / 4)) rfl ?_
  show execWait w s = _
  unfold execWait
  rw [h.here]
  simp only [h.issues, arises, if_true]
  rw [firstTrap_append_none (ready_no_trap (f := formWait) h), nothing]
  rfl

/-- A WAIT for a ticket that is not in use (R293). -/
theorem wait_without_ticket (h : Ready s { op := 0x02, useD := false, useA := true, useB := true, mask := 0x1F } true w k)
    (names : w.mod.toNat ≠ 0) (fresh : FreshPosition k) (named : w.mod.getLsbD 0 = true)
    (absent : ∀ x ∈ k.tickets, x.num ≠ (regA k w).toNat) : TrapsWith (.wait w) s w.ctx k 0x08 8 := by
  obtain ⟨x, hx⟩ := inst_of_issues h.issues h.here
  have asks : (decide (bits w.mod.toNat 0 1 = 1) && k.tickets.all (fun t => decide (t.num ≠ (regA k w).toNat))) = true := by
    rw [(bit_iff w.mod 0).2 named]
    simpa using absent
  exact trapsWith_of_trapped h.tables h.here hx (t := s.startClock (96 + w.ctx / 4)) rfl ((exec_wait h names fresh).trans (by rw [if_pos asks]))

end Wait

/-- Settles O12: the unit's acceptance, and the context under which it was asked. -/
theorem asynchronousInstructionsTakeTheLowestFreeTicket : Obligations.AsynchronousInstructionsTakeTheLowestFreeTicket := by
  intro row member s w k n h g fresh lowest ok
  obtain ⟨t, he, here, others, rest⟩ := ticket_accepted h (runsTicket row member s w k h ok) g fresh lowest
  exact ⟨t, he, ⟨_, here, accepted_asking k row.form.op w n⟩, others, rest⟩

/-- Settles O13: the checks of the asynchronous instructions in their order, and those of WAIT. -/
theorem ticketInstructionsTrapWithoutRoomOrTicket : Obligations.TicketInstructionsTrapWithoutRoomOrTicket := by
  refine ⟨fun row member s w k h ok => ?_, fun s w k h => ⟨wait_names_nothing h, wait_without_ticket h⟩⟩
  have run := runsTicket row member s w k h ok
  exact ⟨ticket_without_capability h run, ticket_journal_full h run, ticket_none_free h run⟩

/-! ### Records in the journal and with the units (R275, R277) -/

/-- Writing registers changes nothing else. -/
theorem setRegs_eq (rs : List (Nat × Word)) : ∀ k, setRegs k rs = { k with regs := (setRegs k rs).regs } := by
  have one : ∀ (k : KCtx) (i : Nat) (v : Word), setReg k i v = { k with regs := (setReg k i v).regs } := fun k i v => by
    unfold setReg; split <;> rfl
  induction rs with
  | nil => exact fun _ => rfl
  | cons x rs ih =>
    intro k
    refine (ih (setReg k x.1 x.2)).trans ?_
    show { setReg k x.1 x.2 with regs := (setRegs (setReg k x.1 x.2) rs).regs } =
      ({ k with regs := (setRegs (setReg k x.1 x.2) rs).regs } : KCtx)
    generalize (setRegs (setReg k x.1 x.2) rs).regs = r
    rw [one k x.1 x.2]

/-- A replayed entry writes the recorded registers and z; the journal and what is held stand. -/
theorem replay_eq (k : KCtx) (e : JEntry) : State.replay k e =
    { k with regs := (setRegs k e.results).regs, flags := { k.flags with z := e.z.getD k.flags.z }, jpos := k.jpos + 1
             tickets := (State.replay k e).tickets, scratch := (State.replay k e).scratch } := by
  unfold State.replay
  rw [setRegs_eq e.results k]
  cases e.z <;> rfl

section Kept

variable {s : State} {w : KWord} {k : KCtx} {e : JEntry}

/-- A synchronous instruction whose unit has kept its result returns it. -/
theorem journal_returns_kept {i : Instr} {name : String} {f : Form} {gate traps late : KCtx → List TrapIf} {eff : KCtx → State.Answer}
    (run : exec i s = s.runJournal name f w gate traps late eff) (h : Ready s f false w k) (pass : firstTrap (gate k) = none)
    (fresh : FreshPosition k) (kept : k.unitKept = [(k.epoch, k.jpos, e)]) :
    Retires i s w.ctx (stepped { State.replay k e with journal := k.journal ++ [e] } (k.pc + 8)) := by
  have holds : State.unitHolds k = some e := by simp [State.unitHolds, kept]
  refine retires_of_set (run.trans ?_)
  unfold State.runJournal
  rw [h.here]
  simp only [h.issues, arises]
  rw [firstTrap_append_none (ready_no_trap h), pass, recorded_none fresh.1, holds]
  rfl

theorem kept_result {i : Instr} (r : Retires i s w.ctx (stepped { State.replay k e with journal := k.journal ++ [e] } (k.pc + 8))) :
    ∃ k', Retires i s w.ctx k' ∧ k'.regs = (setRegs k e.results).regs ∧ k'.pc = k.pc + 8 ∧ k'.journal = k.journal ++ [e] ∧
      k'.jpos = k.jpos + 1 ∧ k'.unitKept = k.unitKept := by
  rw [replay_eq] at r
  exact ⟨_, r, rfl, rfl, rfl, rfl, rfl⟩

end Kept

/-- Settles O14: the journal's record, its mismatch, and the result that a unit has kept. -/
theorem recordedInstructionsReturnTheirRecord : Obligations.RecordedInstructionsReturnTheirRecord := by
  refine ⟨fun row member s w k e h g ok found => ⟨fun op args => ?_, fun other => ?_⟩, fun s w k e fresh kept => ⟨fun h g => ?_, fun h => ?_⟩⟩
  · have r := ticket_replays h (runsTicket row member s w k h ok) g found op args
    rw [replay_eq] at r
    exact ⟨_, r, rfl, rfl, rfl, rfl, rfl, rfl⟩
  · exact ticket_mismatch h (runsTicket row member s w k h ok) g found other
  · exact kept_result (journal_returns_kept (name := "BALLOC") (show execBalloc w s = _ from rfl) h (firstTrap_unitTraps g) fresh kept)
  · exact kept_result (journal_returns_kept (name := "TIMERD") (show execTimerd w s = _ from rfl) h rfl fresh kept)

end Sys2Proof.Proofs
end

section
/-! SUPPORT. WAIT: the conditions, the ticket delivered, and the return (R293, R323). -/

namespace Sys2Proof.Proofs

open Sys2Proof Sys2Proof.Machine

section Wait

variable {s : State} {c : Nat} {k : KCtx} {q : KInst} {m : BitVec 9} {a b : Word} {x : Ticket}

/-- The mask that the model computes is the mask of the named conditions that hold. -/
theorem waitMask_eq (hq : s.kinst k.inst = some q) : s.waitMask k m.toNat a b = heldMask m (conditions s k q a b) := by
  have on : ∀ (i : Nat) (p : Bool), (if bits m.toNat i 1 = 1 ∧ p = true then 2 ^ i else 0) =
      if m.getLsbD i = true ∧ p = true then 2 ^ i else 0 := fun i p => by simp only [bit_iff]
  have late : decide (b.toNat ≤ s.now) = decide (b.toNat ≤ s.tim.now) := rfl
  unfold State.waitMask
  simp only [on, hq, late]
  simp [heldMask, sumBy, conditions, Nat.add_assoc]

theorem find?_ticket (distinct : (k.tickets.map (·.num)).Nodup) (hx : x ∈ k.tickets) {p : Ticket → Bool}
    (hp : ∀ y, p y = true → y.num = x.num) (self : p x = true) : k.tickets.find? p = some x := by
  obtain ⟨y, hy⟩ : ∃ y, k.tickets.find? p = some y := Option.isSome_iff_exists.1 (List.find?_isSome.2 ⟨x, hx, self⟩)
  have found := List.find?_some hy
  have e : y = x := List.inj_on_of_nodup_map distinct (List.mem_of_find?_eq_some hy) hx (hp y found)
  rw [hy, e]

theorem range_split {n : Nat} (h : n < 64) : List.range 64 = List.range n ++ n :: List.range' (n + 1) (63 - n) := by
  have parts := List.range'_append_1 (s := 0) (m := n) (n := 63 - n + 1)
  rw [List.range'_succ, Nat.zero_add] at parts
  rw [List.range_eq_range', List.range_eq_range', parts]
  congr 1
  omega

/-- The ticket that the model delivers is the one that `Delivers` names. -/
theorem waitTicket_of_delivers (distinct : (k.tickets.map (·.num)).Nodup) (small : ∀ y ∈ k.tickets, y.num < 64)
    (h : Delivers k m a x) : State.waitTicket k m.toNat a = some x := by
  obtain ⟨hx, done, ⟨any, lowest⟩ | ⟨notAny, one, named⟩⟩ := h
  · have some_done : k.tickets.any (fun t => t.done.isSome) = true := List.any_eq_true.2 ⟨x, hx, done⟩
    rw [State.waitTicket, if_pos ⟨(bit_iff m 1).2 any, some_done⟩, List.findSome?_eq_some_iff]
    refine ⟨_, _, _, range_split (small x hx), ?_, fun n hn => ?_⟩
    · refine find?_ticket (p := fun t => decide (t.num = x.num) && t.done.isSome) distinct hx (fun y hy => ?_) (by simp [done])
      rw [Bool.and_eq_true, decide_eq_true_eq] at hy
      exact hy.1
    · refine List.find?_eq_none.2 fun y hy => ?_
      have below := List.mem_range.1 hn
      simp only [Bool.and_eq_true, decide_eq_true_eq, not_and]
      intro e d
      have := lowest y hy d
      omega
  · rw [State.waitTicket, if_neg fun h => Bool.false_ne_true (notAny.symm.trans ((bit_iff m 1).1 h.1)), if_pos ((bit_iff m 0).2 one)]
    refine find?_ticket (p := fun t => decide (t.num = a.toNat) && t.done.isSome) distinct hx (fun y hy => ?_) (by simp [named, done])
    rw [Bool.and_eq_true, decide_eq_true_eq] at hy
    rw [hy.1, named]

/-- The completed ticket of the lowest number, where any has completed. -/
theorem exists_lowest_done (h : k.tickets.any (fun t => t.done.isSome) = true) :
    ∃ x ∈ k.tickets, x.done.isSome = true ∧ ∀ y ∈ k.tickets, y.done.isSome = true → x.num ≤ y.num := by
  have some_ : ∃ n, ∃ x ∈ k.tickets, x.done.isSome = true ∧ x.num = n := by
    obtain ⟨x, hx, d⟩ := List.any_eq_true.1 h
    exact ⟨_, x, hx, d, rfl⟩
  obtain ⟨x, hx, d, e⟩ := Nat.find_spec some_
  exact ⟨x, hx, d, fun y hy dy => e ▸ Nat.find_min' some_ ⟨y, hy, dy, rfl⟩⟩

theorem waitTicket_of_none (h : ∀ x, ¬ Delivers k m a x) : State.waitTicket k m.toNat a = none := by
  have idle : ¬ (bits m.toNat 1 1 = 1 ∧ k.tickets.any (fun t => t.done.isSome) = true) := fun ⟨any, done⟩ => by
    obtain ⟨x, hx, d, lowest⟩ := exists_lowest_done done
    exact h x ⟨hx, d, .inl ⟨(bit_iff m 1).1 any, lowest⟩⟩
  rw [State.waitTicket, if_neg idle]
  split
  · next one =>
    refine List.find?_eq_none.2 fun y hy good => ?_
    simp only [Bool.and_eq_true, decide_eq_true_eq] at good
    obtain ⟨named, d⟩ := good
    cases any : m.getLsbD 1 with
    | true => exact idle ⟨(bit_iff m 1).2 any, List.any_eq_true.2 ⟨y, hy, d⟩⟩
    | false => exact h y ⟨hy, d, .inr ⟨any, (bit_iff m 0).1 one, named⟩⟩
  · rfl

/-! ### The return -/

/-- The context of a WAIT that returned: with a ticket's status, result and number, or with none. -/
def returned (k : KCtx) (args : List Word) (t : Option Ticket) (st : Nat) (rs : List (Nat × Word)) : KCtx :=
  { setRegs k rs with
    flags := { k.flags with z := decide (st = 0) }
    tickets := k.tickets.filter (fun x => decide (some x.num ≠ t.map (·.num)))
    wait := .ready
    journal := k.journal ++ [{ op := 0x02, args := args, results := rs, z := some (decide (st = 0)), takes := none
                               frees := t.map (·.num), scratch := (t.map (·.scratch)).getD [] }]
    jpos := k.jpos + 1 }

theorem endWait_of_ticket {args : List Word} {mask st : Nat} {res : Word} (sound : x.dmaFault = none) (done : x.done = some (st, res)) :
    s.endWait c k args mask (some x) = ((s.setKctx c (some (returned k args (some x) st [(3, BitVec.ofNat 64 mask),
      (1, BitVec.ofNat 64 st), (2, res), (4, BitVec.ofNat 64 x.num)]))).retire_ c (k.pc + 8)).modK c (fun k => { k with count := 0 }) := by
  unfold State.endWait
  rw [show (some x).bind (·.dmaFault) = none from sound]
  simp only [done, Option.getD_some]
  rfl

theorem endWait_of_none {args : List Word} {mask : Nat} : s.endWait c k args mask none =
    ((s.setKctx c (some (returned k args none 0 [(3, BitVec.ofNat 64 mask), (1, 0)]))).retire_ c (k.pc + 8)).modK c
      (fun k => { k with count := 0 }) := rfl

theorem goes_of_returned {i : Instr} {k1 : KCtx} {pc : Nat} (he : exec i s = .next
      ((((s.reelIssues c).setKctx c (some k1)).retire_ c pc).modK c (fun k => { k with count := 0 }))) :
    Goes i s (fun t => t.kctx c = some { stepped k1 pc with count := 0 } ∧ OnlyReel s t c) := by
  have here : (((s.reelIssues c).setKctx c (some k1)).retire_ c pc).kctx c = some (stepped k1 pc) := kctx_retire _ _ _ _
  unfold State.modK at he
  rw [here] at he
  refine ⟨_, he, kctx_setKctx _ _ _, fun d hd => ?_, ?_⟩
  · rw [kctx_setKctx_other _ _ _ _ hd]
    exact kctx_retire_other _ _ _ _ _ hd
  · rw [retire_eq (kctx_setKctx _ _ _)]
    rfl

/-- A WAIT that returns, with the ticket that its conditions deliver. -/
theorem waitReturns_of_endWait {i : Instr} {args : List Word} (distinct : (k.tickets.map (·.num)).Nodup)
    (small : ∀ x ∈ k.tickets, x.num < 64) (hq : s.kinst k.inst = some q) (tables : ReelTables s)
    (he : exec i s = .next ((s.reelIssues c).endWait c k args (s.waitMask k m.toNat a b) (State.waitTicket k m.toNat a))) :
    WaitReturns i s c k m a b q := by
  rw [waitMask_eq hq] at he
  refine ⟨fun x delivers sound st res done => ?_, fun idle => ?_, fun x st delivers fault => ?_⟩
  · rw [waitTicket_of_delivers distinct small delivers] at he
    have back := he.trans (congrArg _ (endWait_of_ticket sound done))
    refine ⟨_, goes_of_returned back, rfl, List.filter_congr fun y _ => ?_, rfl, rfl, rfl, rfl, rfl, List.length_append, rfl, rfl, rfl⟩
    simp
  · rw [waitTicket_of_none idle] at he
    have back := he.trans (congrArg _ endWait_of_none)
    exact ⟨_, goes_of_returned back, rfl, List.filter_eq_self.2 fun _ _ => rfl, rfl, rfl, rfl, rfl, rfl, List.length_append, rfl, rfl, rfl⟩
  · rw [waitTicket_of_delivers distinct small delivers] at he
    refine trapsWith_of_trapped_context (t := (s.reelIssues c).setKctx c (some { k with wait := .ready })) ?_ (kctx_setKctx _ _ _) rfl rfl hq
      rfl (fun d hd => kctx_setKctx_other _ _ _ _ hd) (he.trans ?_)
    · exact ⟨canon_put _ _ _ _ tables.1, tables.2⟩
    · unfold State.endWait
      rw [show (some x).bind (·.dmaFault) = some st from fault]

end Wait

/-- Settles O24: a WAIT at issue, and one whose condition comes to hold later. -/
theorem waitReturnsWhenAConditionHolds : Obligations.WaitReturnsWhenAConditionHolds := by
  refine fun s k q distinct small hq => ⟨fun w h fresh names inUse => ?_, fun c m a b hk tables may waits met => ?_⟩
  · have asked : (decide (bits w.mod.toNat 0 1 = 1) && k.tickets.all (fun t => decide (t.num ≠ (regA k w).toNat))) = false := by
      rw [Bool.and_eq_false_imp, decide_eq_true_eq, bit_iff]
      intro one
      obtain ⟨x, hx, e⟩ := inUse one
      exact List.all_eq_false.2 ⟨x, hx, by simp [e]⟩
    have run := exec_wait h names fresh
    rw [asked, if_neg Bool.false_ne_true] at run
    refine ⟨fun idle => ?_, fun met => ?_⟩
    · rw [if_pos ((waitMask_eq hq).trans idle)] at run
      exact ⟨_, run, kctx_setKctx _ _ _, fun d hd => kctx_setKctx_other _ _ _ _ hd, rfl⟩
    · rw [if_neg (fun e => met ((waitMask_eq hq).symm.trans e))] at run
      exact waitReturns_of_endWait distinct small hq h.tables run
  · refine waitReturns_of_endWait (args := [a, b, 0, m.setWidth 64, BitVec.ofNat 64 (State.fetched k % 2 ^ 32)]) distinct small hq tables ?_
    show execWaitConditionMet c s = _
    unfold execWaitConditionMet
    rw [hk]
    simp only [waits, may, waitMask_eq hq, met, ne_eq, not_false_eq_true, decide_true, Bool.and_self, arises]
    rfl

end Sys2Proof.Proofs
end

section
/-! SUPPORT. Synchronous unit instructions: what a unit answers, the entry that the journal and the unit keep, and the instructions
that only read (R275, R292, R294, R295). -/

namespace Sys2Proof.Proofs

open Sys2Proof Sys2Proof.Machine

section Answer

variable {i : Instr} {s t : State} {name : String} {f : Form} {w : KWord} {k : KCtx} {gate traps late : KCtx → List TrapIf}
  {eff : KCtx → State.Answer} {rs : List (Nat × Word)} {z : Option Bool} {op : Nat}

/-- The entry of a synchronous instruction, replayed, is its answer. -/
theorem replay_entryOf (k : KCtx) (op : Nat) (w : KWord) (rs : List (Nat × Word)) (z : Option Bool) :
    State.replay k (entryOf k op w rs z) =
      { setRegs k rs with flags := { k.flags with z := z.getD k.flags.z }, jpos := k.jpos + 1 } := by
  have tickets : (State.replay k (entryOf k op w rs z)).tickets = k.tickets := by
    show ((setRegs k rs).tickets ++ []).filter (fun t => decide (some t.num ≠ none)) = k.tickets
    rw [setRegs_eq]
    simp
  have scratch : (State.replay k (entryOf k op w rs z)).scratch = k.scratch := by
    show (setRegs k rs).scratch = k.scratch
    rw [setRegs_eq]
  rw [replay_eq, tickets, scratch, setRegs_eq rs k]
  rfl

theorem unitHolds_none (fresh : NotPerformed k) : State.unitHolds k = none := by
  rw [State.unitHolds, List.find?_eq_none.2 fun x hx => by simpa using fresh x hx]
  rfl

/-- A synchronous instruction that passes its checks and is at a fresh position: the unit's state, and in the context the entry
replayed and kept. -/
theorem goes_of_runJournal_entry {bs : List (Nat × Byte)} (run : exec i s = s.runJournal name f w gate traps late eff)
    (h : Ready s f false w k) (fresh : FreshPosition k) (first : NotPerformed k) (hg : firstTrap (gate k) = none)
    (ht : firstTrap (traps k) = none) (hl : firstTrap (late k) = none)
    (he : eff k = { s := t, results := rs, z := z, scratch := bs }) (here : t.kctx w.ctx = some k) (hop : f.op = op) :
    Goes i s (fun u => u.kctx w.ctx = some (stepped { State.replay k { entryOf k op w rs z with scratch := bs } with
        journal := k.journal ++ [{ entryOf k op w rs z with scratch := bs }]
        unitKept := k.unitKept ++ [(k.epoch, k.jpos, { entryOf k op w rs z with scratch := bs })] } (k.pc + 8)) ∧
      (∀ d, d ≠ w.ctx → u.kctx d = t.kctx d) ∧ u = reelPart t u) := by
  subst hop
  obtain ⟨at_, room⟩ := fresh
  have notFull : State.journalFull k = false := decide_eq_false (by omega)
  have checks : firstTrap (traps k ++ [(State.journalFull k, 0x07, 1)] ++ late k) = none := by
    rw [List.append_assoc, firstTrap_append ht, List.singleton_append, firstTrap_cons_held notFull, hl]
  have go : exec i s = .next (((t.reelIssues w.ctx).setKctx w.ctx (some { State.replay k { entryOf k f.op w rs z with scratch := bs } with
      journal := k.journal ++ [{ entryOf k f.op w rs z with scratch := bs }]
      unitKept := k.unitKept ++ [(k.epoch, k.jpos, { entryOf k f.op w rs z with scratch := bs })] })).retire_ w.ctx (k.pc + 8)) := by
    rw [run, State.runJournal, h.here]
    simp only [h.issues, arises]
    rw [firstTrap_append_none (ready_no_trap h), hg, recorded_none at_, unitHolds_none first, checks, he]
    have here' : (t.reelIssues w.ctx).kctx w.ctx = some k := here
    simp only [State.modK, here']
    rfl
  refine ⟨_, go, kctx_retire _ _ _ _, fun d hd => kctx_retire_other _ _ _ _ _ hd, ?_⟩
  rw [retire_eq (kctx_setKctx _ _ _)]
  rfl

/-- The same for an instruction that writes no scratch. -/
theorem goes_of_runJournal (run : exec i s = s.runJournal name f w gate traps late eff) (h : Ready s f false w k)
    (fresh : FreshPosition k) (first : NotPerformed k) (hg : firstTrap (gate k) = none) (ht : firstTrap (traps k) = none)
    (hl : firstTrap (late k) = none) (he : eff k = { s := t, results := rs, z := z, scratch := [] })
    (here : t.kctx w.ctx = some k) (hop : f.op = op) :
    Goes i s (fun u => u.kctx w.ctx = some (answeredWith k op w rs z) ∧ (∀ d, d ≠ w.ctx → u.kctx d = t.kctx d) ∧ u = reelPart t u) := by
  obtain ⟨u, go, at_, rest⟩ := goes_of_runJournal_entry run h fresh first hg ht hl he here hop
  refine ⟨u, go, at_.trans ?_, rest⟩
  rw [show ({ entryOf k op w rs z with scratch := [] } : JEntry) = entryOf k op w rs z from rfl, replay_entryOf]
  rfl

/-- The same where the unit changes nothing. -/
theorem retires_of_runJournal (run : exec i s = s.runJournal name f w gate traps late eff) (h : Ready s f false w k)
    (fresh : FreshPosition k) (first : NotPerformed k) (hg : firstTrap (gate k) = none) (ht : firstTrap (traps k) = none)
    (hl : firstTrap (late k) = none) (he : eff k = { s := s, results := rs, z := z, scratch := [] })
    (hop : f.op = op) : Retires i s w.ctx (answeredWith k op w rs z) := by
  obtain ⟨u, go, here, others, rest⟩ := goes_of_runJournal run h fresh first hg ht hl he h.here hop
  exact ⟨u, go, here, others, rest⟩

end Answer

section Reads

variable {s : State} {w : KWord} {k : KCtx}

theorem tableHas_of_exists {table i : Nat} (low : table ∈ [0, 1, 3, 5]) (h : entryExists s table i) : s.tableHas table i = true := by
  simp only [List.mem_cons, List.not_mem_nil, or_false] at low
  obtain rfl | rfl | rfl | rfl := low
  · exact h
  · exact (Bool.and_eq_true _ _).mpr ⟨decide_eq_true h.1, decide_eq_true h.2⟩
  · exact decide_eq_true h
  · exact decide_eq_true h

theorem fieldRows_known : ∀ row ∈ fieldRows, row.table ∈ [0, 1, 3, 5] ∧ State.fieldKnown row.table row.field = true := by
  simp only [fieldRows, List.forall_mem_cons, List.not_mem_nil, false_imp_iff, implies_true, and_true]
  decide

theorem pointerOf_eq (s : State) (d b : Nat) : s.pointerOf d b = pointerReads s d b := by
  unfold State.pointerOf pointerReads pagesOf
  cases h : (s.block d b).use <;> simp [h]

/-- Each row reads what the model's table field reads. -/
theorem tableField_eq (s : State) (i : Nat) : ∀ row ∈ fieldRows, s.tableField row.table i row.field = row.value s i := by
  have defined : s.pgroupField i 1 = if (s.pgroup i).isSome then 1 else 0 := by
    unfold State.pgroupField
    cases s.pgroup i <;> rfl
  simp only [fieldRows, List.forall_mem_cons, List.not_mem_nil, false_imp_iff, implies_true, and_true]
  exact ⟨rfl, rfl, rfl, rfl, rfl, rfl, rfl, pointerOf_eq _ _ _, rfl, rfl, rfl, rfl, defined, rfl, rfl⟩

/-- A table field that a row of the statement names, of an entry that exists, passes the checks of TRD for the steward (R295). -/
theorem firstTrap_tableTraps {row : FieldRow} (member : row ∈ fieldRows) (steward : k.comp = 0) (table : modSel w = row.table)
    (field : fieldSel w = row.field) (found : entryExists s row.table (regA k w).toNat) : firstTrap (s.tableTraps k w false) = none := by
  obtain ⟨low, known⟩ := fieldRows_known row member
  have open_ : s.tableOpen row.table (regA k w).toNat 0 = true := rfl
  unfold State.tableTraps
  dsimp only
  rw [table, field, steward, tableHas_of_exists low found, known, open_]
  rfl

theorem firstTrap_carIndexTraps {a : Word} (low : a.toNat < 32768) : firstTrap (carIndexTraps a) = none :=
  firstTrap_cons_held (decide_eq_false (Nat.not_le.2 low))

end Reads

/-- Settles O15: each instruction passes its checks, and answers the field, word, size or time it reads. -/
theorem readingInstructionsAnswerWhatTheyRead : Obligations.ReadingInstructionsAnswerWhatTheyRead := by
  refine fun s w k fresh first => ⟨fun h g steward row member table field found => ?_, fun h g low mine => ?_,
    fun h g b hb mine => ?_, fun h => ?_⟩
  · have small : row.table < 16 := by
      obtain ⟨low, -⟩ := fieldRows_known row member
      simp only [List.mem_cons, List.not_mem_nil, or_false] at low
      omega
    have selected : modSel w = row.table := by rw [modSel, table, Nat.mod_eq_of_lt small]
    have value : s.tableField (modSel w) (regA k w).toNat (fieldSel w) = row.value s (regA k w).toNat := by
      rw [selected, fieldSel, field, tableField_eq s _ row member]
    exact retires_of_runJournal (name := "TRD") (show execTrd w s = _ from rfl) h fresh first (firstTrap_unitTraps g)
      (firstTrap_tableTraps member steward selected field found) rfl (by rw [value]; rfl) rfl
  · have word : w.mod.toNat ≤ 3 := mod_le_mask h.form
    have other : (decide (k.comp ≠ 0) && decide ((s.carriage (regA k w).toNat).comp ≠ k.comp)) = false := by
      rcases mine with e | e <;> simp [e]
    exact retires_of_runJournal (name := "CARRD") (show execCarrd w s = _ from rfl) h fresh first (firstTrap_unitTraps g)
      ((firstTrap_append (firstTrap_carIndexTraps low)).trans (firstTrap_cons_held other)) rfl
      (by rw [Nat.mod_eq_of_lt (by omega : w.mod.toNat < 4)]; rfl) rfl
  · have size : spaceSize s k 2 (regA k w) = some b.size := by
      unfold spaceSize
      rw [hb]
      exact if_pos mine
    exact retires_of_runJournal (name := "BINFO") (show execBinfo w s = _ from rfl) h fresh first (firstTrap_unitTraps g)
      (handleTraps_of_spaceSize size) rfl (by rw [hb]; rfl) rfl
  · exact retires_of_runJournal (name := "TIMERD") (show execTimerd w s = _ from rfl) h fresh first rfl rfl rfl rfl rfl

section Find

variable {s : State} {w : KWord} {k : KCtx} {c a n code : Nat}

/-- Where a find over a run of numbers succeeds. -/
theorem find?_run_some {p : Nat → Bool} {a n z : Nat} (low : a ≤ z) (high : z < a + n) (hit : p z = true)
    (first : ∀ y, a ≤ y → y < z → p y = false) : (List.range' a n).find? p = some z := by
  have parts : List.range' a n = List.range' a (z - a) ++ z :: List.range' (z + 1) (n - (z - a) - 1) := by
    rw [← List.range'_succ, show z = a + (z - a) by omega, Nat.add_sub_cancel_left, List.range'_append_1]
    congr 1
    omega
  rw [parts, List.find?_append, List.find?_eq_none.2 fun y hy => ?_, List.find?_cons, hit]
  · rfl
  · obtain ⟨ge, lt⟩ := List.mem_range'_1.1 hy
    simp [first y ge (by omega)]

theorem find?_run_none {p : Nat → Bool} {a n : Nat} (miss : ∀ y, a ≤ y → y < a + n → p y = false) :
    (List.range' a n).find? p = none := by
  refine List.find?_eq_none.2 fun y hy => ?_
  obtain ⟨ge, lt⟩ := List.mem_range'_1.1 hy
  simp [miss y ge lt]

/-- What the steward's TFIND asks of a zone. -/
theorem finds_steward {nsid z : Nat} : s.finds 0 nsid code z = true ↔
    s.zoneExists z = true ∧ (s.zone z).state.code = code ∧ (nsid = 0 ∨ s.zoneNsid z = some nsid) := by
  unfold State.finds
  by_cases h : nsid = 0 <;> simp [h, and_comm, and_assoc]

end Find

/-- Settles O16: the first zone found, or the end of what is visited. -/
theorem tfindAnswersFirstZoneEndOrLimit : Obligations.TfindAnswersFirstZoneEndOrLimit := by
  intro s w k fresh first h g steward start codes found limit
  have selected : modSel w = w.mod.toNat := by
    rw [modSel, Nat.mod_eq_of_lt]
    have := mod_le_mask h.form
    simp at this
    omega
  have known : stateCode (modSel w) = true := by rw [selected]; exact List.contains_iff_mem.2 codes
  have checks : firstTrap [(decide (s.part.variant.groups * 5000 ≤ (regA k w).toNat), 0x08, 1),
      (decide (k.comp ≠ 0) && (match s.space (regB k w).toNat with
        | some n => decide (n.comp ≠ k.comp)
        | none => false), 0x08, 5), (!stateCode (modSel w), 0x08, 7)] = none := by
    rw [firstTrap_cons_held (decide_eq_false (Nat.not_le.2 start)), firstTrap_cons_held (by simp [steward]),
      firstTrap_cons_held (by rw [known]; rfl)]
    rfl
  have answer : ∀ st z, s.tableFind 0 (regA k w).toNat (regB k w).toNat w.mod.toNat = (st, z) →
      Retires (.tfind w) s w.ctx (answeredWith k 0x65 w (answers st [BitVec.ofNat 64 z]) (some (decide (st = 0)))) := fun st z r =>
    retires_of_runJournal (name := "TFIND") (show execTfind w s = _ from rfl) h fresh first (firstTrap_unitTraps g) checks rfl
      (by rw [selected, steward, r]; rfl) rfl
  have within : (regA k w).toNat + (limit - (regA k w).toNat) = limit := by
    show _ + (min _ _ - _) = min _ _
    omega
  have hit : ∀ z, s.finds 0 (regB k w).toNat w.mod.toNat z = true ↔ found z := fun z => finds_steward
  have miss : ∀ z, ¬ found z → s.finds 0 (regB k w).toNat w.mod.toNat z = false := fun z no =>
    Bool.eq_false_iff.2 fun yes => no ((hit z).1 yes)
  refine ⟨fun z low high yes before => answer 0 z ?_, fun none_found => ?_⟩
  · unfold State.tableFind
    dsimp only
    rw [find?_run_some low (by rw [within]; exact high) ((hit z).2 yes) fun y ge lt => miss y (before y ge lt)]
  · have r := answer (if limit = s.part.variant.groups * 5000 then 1 else 2) limit (by
      unfold State.tableFind
      dsimp only
      rw [find?_run_none fun y ge lt => miss y (none_found y ge (by rw [within] at lt; exact lt))])
    have failed : (decide ((if limit = s.part.variant.groups * 5000 then 1 else 2) = 0)) = false := by split <;> rfl
    rwa [failed] at r

end Sys2Proof.Proofs
end

section
/-! SUPPORT. PGCTL: a placement group written and recorded in the journal (R294, R296). -/

namespace Sys2Proof.Proofs

open Sys2Proof Sys2Proof.Machine

section Journal

variable {s : State}

/-- A change of a table is recorded: one write sequence value and a place in the journal's tail, where the sequence is not at its end. -/
theorem journal_eq (room : s.zns.seq + 1 ≠ 2 ^ 56 - 1) : s.journal =
    { s with zns := { s.zns with seq := s.journal.zns.seq }
             jrn := { s.jrn with tail := s.journal.jrn.tail, tailAt := s.journal.jrn.tailAt, tailSeq := s.journal.jrn.tailSeq } } := by
  have quiet : ¬ (min State.seqMax (s.zns.seq + 1) = State.seqMax ∧ s.zns.seq < State.seqMax) := by
    unfold State.seqMax
    omega
  have taken : (s.takeSeq 1).2 = { s with zns := { s.zns with seq := min State.seqMax (s.zns.seq + 1) } } := by
    unfold State.takeSeq
    exact if_neg quiet
  unfold State.journal
  rw [taken]

end Journal

section Pgctl

variable {cmd : KWord → Instr} {s t : State} {name : String} {sub st : Nat} {w : KWord} {k : KCtx} {traps : Nat → Nat → List TrapIf}
  {eff : State → Nat → Nat → State.Answer} {v : Option PGroup}

/-- A PGCTL instruction whose checks pass answers what its effect says, from the state that its effect leaves. -/
theorem pgctl_goes (run : exec (cmd w) s = runPgctl s name sub w traps eff)
    (h : Ready s { op := 0x62, useD := false, useA := true, useB := true, mask := 0xF } false w k) (g : Granted s k (some 2))
    (fresh : FreshPosition k) (first : NotPerformed k) (low : (regA k w).toNat ≤ 127) (selected : w.mod.toNat = sub)
    (pass : firstTrap (traps (regA k w).toNat (regB k w).toNat) = none)
    (he : eff s (regA k w).toNat (regB k w).toNat = State.status t st []) (here : t.kctx w.ctx = some k) :
    Goes (cmd w) s (fun u => u.kctx w.ctx = some (answeredWith k 0x62 w (answers st []) (some (decide (st = 0)))) ∧
      (∀ d, d ≠ w.ctx → u.kctx d = t.kctx d) ∧ u = reelPart t u) := by
  have small : sub < 16 := by have : w.mod.toNat ≤ 0xF := mod_le_mask h.form; omega
  have selects_ : selects w sub = true := decide_eq_true (by rw [modSel, selected, Nat.mod_eq_of_lt small])
  have run' : exec (cmd w) s = s.runJournal name formPgctl w (fun k => s.unitTraps k (some 2) [])
      (fun k => (decide (127 < (regA k w).toNat), 0x08, 1) :: traps (regA k w).toNat (regB k w).toNat) (fun _ => [])
      (fun k => eff s (regA k w).toNat (regB k w).toNat) := by
    rw [run, runPgctl, selects_]
    rfl
  exact goes_of_runJournal run' h fresh first (firstTrap_unitTraps g)
    ((firstTrap_cons_held (decide_eq_false (Nat.not_lt.2 low))).trans pass) rfl he here rfl

/-- A PGCTL instruction that answers without a change. -/
theorem pgctl_keeps (run : exec (cmd w) s = runPgctl s name sub w traps eff)
    (h : Ready s { op := 0x62, useD := false, useA := true, useB := true, mask := 0xF } false w k) (g : Granted s k (some 2))
    (fresh : FreshPosition k) (first : NotPerformed k) (low : (regA k w).toNat ≤ 127) (selected : w.mod.toNat = sub)
    (pass : firstTrap (traps (regA k w).toNat (regB k w).toNat) = none)
    (he : eff s (regA k w).toNat (regB k w).toNat = State.status s st []) :
    Answers (cmd w) s 0x62 w k st [] (fun t => t = reelPart s t) :=
  pgctl_goes run h g fresh first low selected pass he h.here

/-- A PGCTL instruction that writes its placement group. -/
theorem pgctl_writes (run : exec (cmd w) s = runPgctl s name sub w traps eff)
    (h : Ready s { op := 0x62, useD := false, useA := true, useB := true, mask := 0xF } false w k) (g : Granted s k (some 2))
    (fresh : FreshPosition k) (first : NotPerformed k) (low : (regA k w).toNat ≤ 127)
    (tables : canon none s.zns.pgroups = true) (room : s.zns.seq + 1 ≠ 2 ^ 56 - 1) (selected : w.mod.toNat = sub)
    (pass : firstTrap (traps (regA k w).toNat (regB k w).toNat) = none)
    (he : eff s (regA k w).toNat (regB k w).toNat = State.status (s.setPgroup (regA k w).toNat v).journal 0 []) :
    Answers (cmd w) s 0x62 w k 0 [] (fun t => PgroupBecomes s t (regA k w).toNat v) := by
  have recorded := journal_eq (s := s.setPgroup (regA k w).toNat v) room
  have kry : (s.setPgroup (regA k w).toNat v).journal.kry = s.kry := by rw [recorded]; rfl
  have here : (s.setPgroup (regA k w).toNat v).journal.kctx w.ctx = some k := by rw [State.kctx, kry]; exact h.here
  obtain ⟨u, go, at_, others, rest⟩ := pgctl_goes run h g fresh first low selected pass he here
  have groups : u.zns.pgroups = put none s.zns.pgroups (regA k w).toNat v := by rw [rest, recorded]; rfl
  refine ⟨u, go, at_, fun d hd => ?_, ?_, fun q hq => ?_, ?_⟩
  · rw [others d hd, State.kctx, kry]; rfl
  · rw [State.pgroup, groups]; exact look_put _ _ _ _ tables
  · rw [State.pgroup, groups]; exact look_put_other _ _ _ _ _ hq
  · unfold OnlyPgroups
    rw [rest, recorded]
    rfl

end Pgctl

theorem firstTrap_compTraps {s : State} {c : Nat} (ok : CompOk s c) : firstTrap (s.compTraps c) = none := by
  obtain ⟨low, used⟩ := ok
  have live : (decide (c ≠ 0) && decide ((s.comp c).state = .free)) = false := by
    rw [Bool.and_eq_false_imp, decide_eq_true_eq]
    exact fun n0 => decide_eq_false (used n0)
  rw [State.compTraps, firstTrap_cons_held (decide_eq_false (Nat.not_lt.2 low)), firstTrap_cons_held live]
  rfl

/-- Nothing stands on a placement group that carries no namespace. -/
theorem carriesSpace_of_free {s : State} {p : Nat} {g : PGroup} (hp : s.pgroup p = some g) (free : g.nsid = none) :
    s.carriesSpace p = false := by
  rw [State.carriesSpace, hp]
  simp [free]

theorem carriesSpace_of_none {s : State} {p : Nat} (hp : s.pgroup p = none) : s.carriesSpace p = false := by
  rw [State.carriesSpace, hp]

theorem mem_addGroup {gs : List Nat} {b x : Nat} : x ∈ State.addGroup gs b ↔ x = b ∨ x ∈ gs := by
  simp only [State.addGroup, List.mem_append, List.mem_filter, List.mem_singleton, decide_eq_true_eq]
  rcases Nat.lt_trichotomy x b with lt | rfl | gt
  · simp [lt, Nat.ne_of_lt lt, Nat.not_lt.2 (Nat.le_of_lt lt)]
  · simp
  · simp [gt, Nat.ne_of_gt gt, Nat.not_lt.2 (Nat.le_of_lt gt)]

/-- The checks of adding a stripe group to a placement group without a namespace, and of taking one from it. -/
theorem firstTrap_groupTraps {s : State} {p b : Nat} (inside : b < s.part.variant.groups) (bare : s.carriesSpace p = false) :
    firstTrap [(decide (s.part.variant.groups ≤ b), 0x08, 7), (s.carriesSpace p && decide (s.groupPgroup b ≠ some p), 0x08, 4)] =
      none := by
  rw [firstTrap_cons_held (decide_eq_false (Nat.not_le.2 inside)), bare]
  rfl

theorem firstTrap_emptyTraps {s : State} {p b : Nat} (inside : b < s.part.variant.groups) (bare : s.carriesSpace p = false) :
    firstTrap [(decide (s.part.variant.groups ≤ b), 0x08, 7), (s.carriesSpace p, 0x08, 4)] = none := by
  rw [firstTrap_cons_held (decide_eq_false (Nat.not_le.2 inside)), bare]
  rfl

theorem answers_imp {i : Instr} {s : State} {op st : Nat} {w : KWord} {k : KCtx} {rs : List Word} {P Q : State → Prop}
    (h : Answers i s op w k st rs P) (imp : ∀ t, P t → Q t) : Answers i s op w k st rs Q := by
  obtain ⟨t, go, here, others, p⟩ := h
  exact ⟨t, go, here, others, imp t p⟩

/-- Settles O17: the effect of each sub-operation on a placement group that is there or not. -/
theorem placementGroupsChangeAsTheirTableSays : Obligations.PlacementGroupsChangeAsTheirTableSays := by
  intro s w k fresh first tables room h granted low p b
  refine ⟨fun sel ok => ⟨fun absent => ?_, fun present => ?_⟩, fun sel => ⟨fun g hp empty free => ?_, fun absent => ?_⟩,
    fun sel inside => ⟨fun g hp free => ⟨fun unused => ?_, fun mine => ?_, fun q hq other => ?_⟩, fun absent => ?_⟩,
    fun sel inside => ⟨fun g hp free => ⟨fun member => ?_, fun missing => ?_⟩, fun absent => ?_⟩,
    fun sel ok => ⟨fun g hp free => ?_, fun absent => ?_⟩, fun sel bit => ⟨fun g hp => ?_, fun absent => ?_⟩⟩
  · exact pgctl_writes (name := "PGCTL_CREATE") (show execPgctlCreate w s = _ from rfl) h granted fresh first low tables room sel
      (firstTrap_compTraps ok) (by rw [absent])
  · obtain ⟨g, hp⟩ := Option.ne_none_iff_exists'.1 present
    exact pgctl_keeps (name := "PGCTL_CREATE") (show execPgctlCreate w s = _ from rfl) h granted fresh first low sel
      (firstTrap_compTraps ok) (by rw [hp])
  · exact pgctl_writes (name := "PGCTL_DELETE") (show execPgctlDelete w s = _ from rfl) h granted fresh first low tables room sel
      (by rw [hp]; simp [firstTrap, empty, free]) (by rw [hp])
  · exact pgctl_keeps (name := "PGCTL_DELETE") (show execPgctlDelete w s = _ from rfl) h granted fresh first low sel
      (by rw [absent]; rfl) (by rw [absent])
  · refine answers_imp (P := fun t => PgroupBecomes s t p (some { g with groups := State.addGroup g.groups b })) ?_
      fun t becomes => ⟨_, becomes, fun x => mem_addGroup⟩
    exact pgctl_writes (name := "PGCTL_ADD_STRIPE_GROUP") (show execPgctlAddStripeGroup w s = _ from rfl) h granted fresh first low tables room sel
      (firstTrap_groupTraps inside (carriesSpace_of_free hp free)) (by rw [hp, unused])
  · exact pgctl_keeps (name := "PGCTL_ADD_STRIPE_GROUP") (show execPgctlAddStripeGroup w s = _ from rfl) h granted fresh first low sel
      (firstTrap_groupTraps inside (carriesSpace_of_free hp free)) (by rw [hp, mine]; exact if_pos rfl)
  · exact pgctl_keeps (name := "PGCTL_ADD_STRIPE_GROUP") (show execPgctlAddStripeGroup w s = _ from rfl) h granted fresh first low sel
      (firstTrap_groupTraps inside (carriesSpace_of_free hp free)) (by rw [hp, other]; exact if_neg hq)
  · exact pgctl_keeps (name := "PGCTL_ADD_STRIPE_GROUP") (show execPgctlAddStripeGroup w s = _ from rfl) h granted fresh first low sel
      (firstTrap_groupTraps inside (carriesSpace_of_none absent)) (by rw [absent])
  · refine answers_imp (P := fun t => PgroupBecomes s t p (some { g with groups := g.groups.filter (fun x => decide (x ≠ b)) })) ?_
      fun t becomes => ⟨_, becomes, fun x => by simp [and_comm]⟩
    exact pgctl_writes (name := "PGCTL_REMOVE_STRIPE_GROUP") (show execPgctlRemoveStripeGroup w s = _ from rfl) h granted fresh first low tables room sel
      (firstTrap_emptyTraps inside (carriesSpace_of_free hp free)) (by rw [hp]; exact if_pos (List.contains_iff_mem.2 member))
  · exact pgctl_keeps (name := "PGCTL_REMOVE_STRIPE_GROUP") (show execPgctlRemoveStripeGroup w s = _ from rfl) h granted fresh first low sel
      (firstTrap_emptyTraps inside (carriesSpace_of_free hp free)) (by rw [hp]; exact if_neg fun c => missing (List.contains_iff_mem.1 c))
  · exact pgctl_keeps (name := "PGCTL_REMOVE_STRIPE_GROUP") (show execPgctlRemoveStripeGroup w s = _ from rfl) h granted fresh first low sel
      (firstTrap_emptyTraps inside (carriesSpace_of_none absent)) (by rw [absent])
  · exact pgctl_writes (name := "PGCTL_MOVE") (show execPgctlMove w s = _ from rfl) h granted fresh first low tables room sel
      ((firstTrap_append (firstTrap_compTraps ok)).trans (firstTrap_cons_held (carriesSpace_of_free hp free))) (by rw [hp])
  · exact pgctl_keeps (name := "PGCTL_MOVE") (show execPgctlMove w s = _ from rfl) h granted fresh first low sel
      ((firstTrap_append (firstTrap_compTraps ok)).trans (firstTrap_cons_held (carriesSpace_of_none absent))) (by rw [absent])
  · exact pgctl_writes (name := "PGCTL_SET_DEFAULT_MODE") (show execPgctlSetDefaultMode w s = _ from rfl) h granted fresh first low tables room sel
      (firstTrap_cons_held (decide_eq_false (Nat.not_lt.2 bit))) (by rw [hp])
  · exact pgctl_keeps (name := "PGCTL_SET_DEFAULT_MODE") (show execPgctlSetDefaultMode w s = _ from rfl) h granted fresh first low sel
      (firstTrap_cons_held (decide_eq_false (Nat.not_lt.2 bit))) (by rw [absent])

end Sys2Proof.Proofs
end

section
/-! SUPPORT. TWR and NSCTL: tables and namespaces written and recorded in the journal (R91, R294, R295, R297). -/

namespace Sys2Proof.Proofs

open Sys2Proof Sys2Proof.Machine

theorem setPort_frame (s : State) (p : Nat) (v : Port) : EventFrame s (s.setPort p v) := by
  unfold State.setPort
  exact .ite (.host _ _) (.host _ _)

theorem portAsync_frame (s : State) (p bit type info page : Nat) : EventFrame s (s.portAsync p bit type info page) := by
  unfold State.portAsync
  refine .ite ?_ (.refl s)
  split
  · exact (setPort_frame _ _ _).trans (done_frame _ _ _)
  · exact .ite (.refl s) (setPort_frame _ _ _)

theorem compAsync_frame (s : State) (c bit type info page : Nat) : EventFrame s (s.compAsync c bit type info page) := by
  unfold State.compAsync
  split
  · exact .refl s
  · refine .ite ?_ (.refl s)
    split
    · exact (EventFrame.host _ _).trans (done_frame _ _ _)
    · exact .ite (.refl s) (.host _ _)

theorem spaceChanged_frame (s : State) (n c : Nat) : EventFrame s (s.spaceChanged n c) :=
  (((EventFrame.host s _).trans (portAsync_frame _ _ _ _ _ _)).trans (portAsync_frame _ _ _ _ _ _)).trans (compAsync_frame _ _ _ _ _ _)

theorem ctxs_of_eventFrame {s t : State} (h : EventFrame s t) : t.kry.ctxs = s.kry.ctxs := by rw [h.rest]

section Checks

variable {i : Instr} {s : State} {name : String} {f : Form} {w : KWord} {k : KCtx} {gate traps late : KCtx → List TrapIf}
  {eff : KCtx → State.Answer} {code detail : Nat}

theorem firstTrap_append_hit {a b : List TrapIf} {x : Nat × Nat} (h : firstTrap a = some x) : firstTrap (a ++ b) = some x := by
  unfold firstTrap at *
  rw [List.find?_append, Option.map_or, h]
  rfl

/-- A synchronous instruction at a fresh position that one of its own checks stops. -/
theorem trapsWith_of_runJournal (run : exec i s = s.runJournal name f w gate traps late eff) (h : Ready s f false w k)
    (fresh : FreshPosition k) (first : NotPerformed k) (hg : firstTrap (gate k) = none) (ht : firstTrap (traps k) = some (code, detail)) :
    TrapsWith i s w.ctx k code detail := by
  obtain ⟨x, hx⟩ := inst_of_issues h.issues h.here
  refine trapsWith_of_trapReel h.tables h.here hx (run.trans ?_)
  unfold State.runJournal
  rw [h.here]
  simp only [h.issues, arises]
  rw [firstTrap_append_none (ready_no_trap h), hg, recorded_none fresh.1, unitHolds_none first, List.append_assoc,
    firstTrap_append_hit ht]
  rfl

/-- A synchronous instruction that passes its checks answers from the state that its unit leaves, whose reels stand. -/
theorem answers_of_unit {t : State} {st op : Nat} {rs : List Word} (run : exec i s = s.runJournal name f w gate traps late eff)
    (h : Ready s f false w k) (fresh : FreshPosition k) (first : NotPerformed k) (hg : firstTrap (gate k) = none)
    (ht : firstTrap (traps k) = none) (hl : firstTrap (late k) = none) (he : eff k = State.status t st rs)
    (reels : t.kry.ctxs = s.kry.ctxs) (hop : f.op = op) : Answers i s op w k st rs (fun u => u = reelPart t u) := by
  have kctx : ∀ d, t.kctx d = s.kctx d := fun d => congrArg (look none · d) reels
  obtain ⟨u, go, at_, others, rest⟩ := goes_of_runJournal run h fresh first hg ht hl he ((kctx _).trans h.here) hop
  exact ⟨u, go, at_, fun d hd => (others d hd).trans (kctx d), rest⟩

end Checks

section Tables

variable {s : State} {w : KWord} {k : KCtx}

/-- The form of TWR. -/
abbrev twrForm : Form := { op := 0x61, useD := false, useA := true, useB := true, mask := 0xF }

theorem modSel_eq {f : Form} (h : badForm f w = false) (low : f.mask ≤ 0xF) : modSel w = w.mod.toNat := by
  have := mod_le_mask h
  exact Nat.mod_eq_of_lt (by omega)

/-- TWR of a field that the steward or its owner may write. -/
theorem twr_answers {t : State} (h : Ready s twrForm false w k) (fresh : FreshPosition k) (first : NotPerformed k)
    (cap : firstTrap (s.unitTraps k (State.twrCap w) []) = none)
    (checks : firstTrap (s.tableTraps k w true ++ [(!State.twrValue w (regB k w).toNat, 0x08, 7)]) = none)
    (written : s.tableWrite (modSel w) (regA k w).toNat (regB k w).toNat = t) (reels : t.kry.ctxs = s.kry.ctxs) :
    Answers (.twr w) s 0x61 w k 0 [] (fun u => u = reelPart t u) :=
  answers_of_unit (name := "TWR") (show execTwr w s = _ from rfl) h fresh first cap checks rfl (by rw [written]) reels rfl

/-- TWR of a zone's mode setting (R295). -/
theorem twr_setting (h : Ready s twrForm false w k) (fresh : FreshPosition k) (first : NotPerformed k) (room : s.zns.seq + 1 ≠ 2 ^ 56 - 1)
    (table : w.mod.toNat = 0) (field : w.imm.toNat % 256 = 3) (g : Granted s k (some 1)) (found : s.zoneExists (regA k w).toNat = true)
    (mine : k.comp = 0 ∨ s.zoneComp (regA k w).toNat = k.comp) (value : (regB k w).toNat ≤ 2)
    (tables : canon Zone.none s.zns.zones = true) :
    Answers (.twr w) s 0x61 w k 0 [] (fun t =>
      (t.zone (regA k w).toNat) = { s.zone (regA k w).toNat with
        setting := if (regB k w).toNat = 0 then none else some (decide ((regB k w).toNat = 2)) } ∧
      (∀ z, z ≠ (regA k w).toNat → t.zone z = s.zone z) ∧
      t = { reelPart s t with zns := { s.zns with zones := t.zns.zones, seq := t.zns.seq }
                              jrn := { s.jrn with tail := t.jrn.tail, tailAt := t.jrn.tailAt, tailSeq := t.jrn.tailSeq } }) := by
  have selected : modSel w = 0 := (modSel_eq h.form (Nat.le_refl _)).trans table
  have open_ : s.tableOpen 0 (regA k w).toNat k.comp = true := by
    simp only [State.tableOpen, Bool.or_eq_true, decide_eq_true_eq]
    exact mine
  have checks : firstTrap (s.tableTraps k w true ++ [(!State.twrValue w (regB k w).toNat, 0x08, 7)]) = none := by
    have has : s.tableHas 0 (regA k w).toNat = true := found
    have legal : State.twrValue w (regB k w).toNat = true := by
      rw [State.twrValue, selected]
      exact decide_eq_true value
    have field' : fieldSel w = 3 := field
    unfold State.tableTraps
    rw [selected, field', legal]
    simp [has, open_, State.fieldKnown, firstTrap]
  obtain ⟨t, ht⟩ : ∃ t, t = s.setZone (regA k w).toNat { s.zone (regA k w).toNat with
    setting := if (regB k w).toNat = 0 then none else some (decide ((regB k w).toNat = 2)) } := ⟨_, rfl⟩
  have recorded : t.journal = _ := journal_eq (by rw [ht]; exact room)
  refine answers_imp (twr_answers (t := t.journal) h fresh first (by rw [State.twrCap, selected]; exact firstTrap_unitTraps g) checks
    (by rw [selected, ht]; rfl) (by rw [recorded, ht]; rfl)) fun u rest => ?_
  have zones : u.zns.zones = t.zns.zones := by rw [rest, recorded]; rfl
  refine ⟨?_, fun z hz => ?_, ?_⟩
  · rw [State.zone, zones, ht]; exact look_put _ _ _ _ tables
  · rw [State.zone, zones, ht]; exact look_put_other _ _ _ _ _ hz
  · rw [rest, recorded, ht]; rfl

/-- TWR of the reclaim threshold (R295). -/
theorem twr_threshold (h : Ready s twrForm false w k) (fresh : FreshPosition k) (first : NotPerformed k)
    (room : s.zns.seq + 1 ≠ 2 ^ 56 - 1) (table : w.mod.toNat = 5) (field : w.imm.toNat % 256 = 0) (g : Granted s k (some 3))
    (entry : (regA k w).toNat = 0) (steward : k.comp = 0) (low : 1 ≤ (regB k w).toNat) (high : (regB k w).toNat ≤ 99) :
    Answers (.twr w) s 0x61 w k 0 [] (fun t =>
      t = { reelPart s t with zns := { s.zns with reclaimPct := (regB k w).toNat, seq := t.zns.seq }
                              jrn := { s.jrn with tail := t.jrn.tail, tailAt := t.jrn.tailAt, tailSeq := t.jrn.tailSeq } }) := by
  have selected : modSel w = 5 := (modSel_eq h.form (Nat.le_refl _)).trans table
  have checks : firstTrap (s.tableTraps k w true ++ [(!State.twrValue w (regB k w).toNat, 0x08, 7)]) = none := by
    have legal : State.twrValue w (regB k w).toNat = true := by
      simp [State.twrValue, selected, low, high]
    have field' : fieldSel w = 0 := field
    unfold State.tableTraps
    rw [selected, field', legal, entry, steward]
    rfl
  obtain ⟨t, ht⟩ : ∃ t, t = ({ s with zns := { s.zns with reclaimPct := (regB k w).toNat } } : State) := ⟨_, rfl⟩
  have recorded : t.journal = _ := journal_eq (by rw [ht]; exact room)
  refine answers_imp (twr_answers (t := t.journal) h fresh first (by rw [State.twrCap, selected]; exact firstTrap_unitTraps g) checks
    (by rw [selected, ht]; rfl) (by rw [recorded, ht])) fun u rest => ?_
  rw [rest, recorded, ht]
  rfl

/-- TWR of a field of a zone that is read only (R294, R295). -/
theorem twr_readOnly (h : Ready s twrForm false w k) (fresh : FreshPosition k) (first : NotPerformed k) (table : w.mod.toNat = 0)
    (assigned : w.imm.toNat % 256 ≤ 8) (other : w.imm.toNat % 256 ≠ 3) (g : Granted s k (some 1))
    (found : s.zoneExists (regA k w).toNat = true) : TrapsWith (.twr w) s w.ctx k 0x08 3 := by
  have selected : modSel w = 0 := (modSel_eq h.form (Nat.le_refl _)).trans table
  refine trapsWith_of_runJournal (name := "TWR") (show execTwr w s = _ from rfl) h fresh first
    (by rw [State.twrCap, selected]; exact firstTrap_unitTraps g) (firstTrap_append_hit ?_)
  have has : s.tableHas 0 (regA k w).toNat = true := found
  have known : fieldSel w ≤ 8 := assigned
  have unwritable : fieldSel w ≠ 3 := other
  unfold State.tableTraps
  rw [selected]
  simp [has, State.fieldKnown, known, unwritable, firstTrap]

/-! ### Namespaces (R91, R297) -/

/-- A namespace that is made: its entry stands, and nothing that lists, tells or records it changes another table. -/
theorem makeSpace_facts {n : Nat} {e : NsEntry} (room : s.zns.seq + 1 ≠ 2 ^ 56 - 1) :
    (s.makeSpace n e).kry.ctxs = s.kry.ctxs ∧ (s.makeSpace n e).fls = s.fls ∧ (s.makeSpace n e).car = s.car ∧
      (s.makeSpace n e).zns = { s.zns with spaces := put none s.zns.spaces n (some e), seq := (s.makeSpace n e).zns.seq } := by
  have told := spaceChanged_frame (s.setSpace n (some e)) n e.comp
  have zns : ((s.setSpace n (some e)).spaceChanged n e.comp).zns = (s.setSpace n (some e)).zns := by rw [told.rest]
  have recorded : s.makeSpace n e = _ := journal_eq (s := (s.setSpace n (some e)).spaceChanged n e.comp) (by rw [zns]; exact room)
  refine ⟨?_, ?_, ?_, ?_⟩
  · rw [recorded]; exact (ctxs_of_eventFrame told).trans rfl
  · rw [recorded, told.rest]; rfl
  · rw [recorded, told.rest]; rfl
  · rw [recorded, zns]; rfl

/-- The form of NSCTL. -/
abbrev nsctlForm : Form := { op := 0x63, useD := false, useA := true, useB := true, mask := 0xF }

/-- The zoned namespace of a placement group with stripe groups and no namespace (R297). -/
theorem nsctl_zoned {g : PGroup} (h : Ready s nsctlForm false w k) (granted : Granted s k (some 4)) (fresh : FreshPosition k)
    (first : NotPerformed k) (room : s.zns.seq + 1 ≠ 2 ^ 56 - 1) (sel : w.mod.toNat = 0) (hp : s.pgroup (regA k w).toNat = some g)
    (low : (regA k w).toNat ≤ 127) (bare : g.nsid = none) (some_ : g.groups ≠ []) :
    Answers (.nsctlCreateZoned w) s 0x63 w k 0 [BitVec.ofNat 64 ((regA k w).toNat + 1)] (fun t =>
      t.space ((regA k w).toNat + 1) = some { kind := .zoned (regA k w).toNat, comp := g.comp, lba16 := w.imm.getLsbD 0
                                              deleting := false } ∧
      t.pgroup (regA k w).toNat = some { g with nsid := some ((regA k w).toNat + 1) } ∧
      (∀ n, n ≠ (regA k w).toNat + 1 → t.space n = s.space n) ∧
      (∀ q, q ≠ (regA k w).toNat → t.pgroup q = s.pgroup q) ∧ t.zns.zones = s.zns.zones ∧ t.fls = s.fls ∧ t.car = s.car) := by
  have selected : selects w 0 = true := decide_eq_true ((modSel_eq h.form (Nat.le_refl _)).trans sel)
  obtain ⟨t, ht⟩ : ∃ t, t = s.setPgroup (regA k w).toNat (some { g with nsid := some ((regA k w).toNat + 1) }) := ⟨_, rfl⟩
  obtain ⟨e, he⟩ : ∃ e : NsEntry, e = { kind := .zoned (regA k w).toNat, comp := g.comp, lba16 := w.imm.getLsbD 0, deleting := false } :=
    ⟨_, rfl⟩
  obtain ⟨reels, fls, car, zns⟩ := makeSpace_facts (s := t) (n := (regA k w).toNat + 1) (e := e) (by rw [ht]; exact room)
  have run : exec (.nsctlCreateZoned w) s = execNsctlCreateZoned w s := rfl
  rw [execNsctlCreateZoned, selected] at run
  refine answers_imp (answers_of_unit (t := t.makeSpace ((regA k w).toNat + 1) e) run h fresh first (firstTrap_unitTraps granted)
    (firstTrap_cons_held (decide_eq_false (Nat.not_lt.2 low))) rfl ?_ (by rw [reels, ht]; rfl) rfl) fun u rest => ?_
  · dsimp only
    rw [hp]
    simp only [bare, Option.isSome_none, Bool.false_eq_true, if_false, List.isEmpty_eq_false_iff.2 some_, ht, he]
  · have made : u.zns = (t.makeSpace ((regA k w).toNat + 1) e).zns := by rw [rest]; rfl
    have spaces : u.zns.spaces = put none s.zns.spaces ((regA k w).toNat + 1) (some e) := by rw [made, zns, ht]; rfl
    have groups : u.zns.pgroups = put none s.zns.pgroups (regA k w).toNat (some { g with nsid := some ((regA k w).toNat + 1) }) := by
      rw [made, zns, ht]; rfl
    refine ⟨?_, ?_, fun n hn => ?_, fun q hq => ?_, ?_, ?_, ?_⟩
    · rw [State.space, spaces, look_put_of_ne _ _ _ _ (by simp), he]
    · rw [State.pgroup, groups, look_put_of_ne _ _ _ _ (by simp)]
    · rw [State.space, spaces]; exact look_put_other _ _ _ _ _ hn
    · rw [State.pgroup, groups]; exact look_put_other _ _ _ _ _ hq
    · rw [made, zns, ht]; rfl
    · rw [rest]; exact fls.trans (by rw [ht]; rfl)
    · rw [rest]; exact car.trans (by rw [ht]; rfl)

/-- The conventional namespace, where there is no other namespace (R91, R297). -/
theorem nsctl_conventional (h : Ready s nsctlForm false w k) (granted : Granted s k (some 4)) (fresh : FreshPosition k)
    (first : NotPerformed k) (room : s.zns.seq + 1 ≠ 2 ^ 56 - 1) (sel : w.mod.toNat = 1) (least : 1 ≤ (regA k w).toNat)
    (most : (regA k w).toNat ≤ 2048) (ok : CompOk s (regB k w).toNat)
    (unzoned : ∀ n e, (n, some e) ∈ s.zns.spaces → ∀ p, e.kind ≠ .zoned p) (none_ : s.convSpace = none) :
    Answers (.nsctlCreateConventional w) s 0x63 w k 0 [129] (fun t =>
      t.space 129 = some { kind := .conventional (regA k w).toNat, comp := (regB k w).toNat, lba16 := w.imm.getLsbD 0
                           deleting := false } ∧
      (∀ n, n ≠ 129 → t.space n = s.space n) ∧ t.zns.zones = s.zns.zones ∧ t.zns.pgroups = s.zns.pgroups ∧
      t.fls = s.fls ∧ t.car = s.car) := by
  have selected : selects w 1 = true := decide_eq_true ((modSel_eq h.form (Nat.le_refl _)).trans sel)
  have alone : (s.zns.spaces.any (fun e => match e.2 with
      | some n => match n.kind with
        | .zoned _ => true
        | .conventional _ => false
      | none => false)) = false := by
    rw [List.any_eq_false]
    rintro ⟨n, x⟩ hx
    cases x with
    | none => exact Bool.false_ne_true
    | some e =>
      cases hk : e.kind with
      | zoned p => exact absurd hk (unzoned n e hx p)
      | conventional c => simp [hk]
  obtain ⟨t, ht⟩ : ∃ t, t = ({ s with zns := { s.zns with carved := carveOut s.part.variant.groups (regA k w).toNat } } : State) := ⟨_, rfl⟩
  obtain ⟨e, he⟩ : ∃ e : NsEntry, e = { kind := .conventional (regA k w).toNat, comp := (regB k w).toNat, lba16 := w.imm.getLsbD 0
                                        deleting := false } := ⟨_, rfl⟩
  obtain ⟨reels, fls, car, zns⟩ := makeSpace_facts (s := t) (n := 129) (e := e) (by rw [ht]; exact room)
  have run : exec (.nsctlCreateConventional w) s = execNsctlCreateConventional w s := rfl
  rw [execNsctlCreateConventional, selected] at run
  refine answers_imp (answers_of_unit (t := t.makeSpace 129 e) run h fresh first (firstTrap_unitTraps granted)
    ?_ rfl ?_ (by rw [reels, ht]) rfl) fun u rest => ?_
  · have size : (decide ((regA k w).toNat < 1) || decide (2048 < (regA k w).toNat)) = false := by simp; omega
    dsimp only
    rw [List.append_assoc, size, List.singleton_append, firstTrap_cons_held rfl, firstTrap_append (firstTrap_compTraps ok)]
    exact firstTrap_cons_held alone
  · dsimp only
    rw [none_, ht, he]
    rfl
  · have made : u.zns = (t.makeSpace 129 e).zns := by rw [rest]; rfl
    have spaces : u.zns.spaces = put none s.zns.spaces 129 (some e) := by rw [made, zns, ht]
    refine ⟨?_, fun n hn => ?_, ?_, ?_, ?_, ?_⟩
    · rw [State.space, spaces, look_put_of_ne _ _ _ _ (by simp), he]
    · rw [State.space, spaces]; exact look_put_other _ _ _ _ _ hn
    · rw [made, zns, ht]
    · rw [made, zns, ht]
    · rw [rest]; exact fls.trans (by rw [ht])
    · rw [rest]; exact car.trans (by rw [ht])

end Tables

/-- Settles O18: the two writes of TWR, its read-only fields, and the two namespaces. -/
theorem tablesAndNamespacesTakeWhatIsWritten : Obligations.TablesAndNamespacesTakeWhatIsWritten :=
  fun _ _ _ fresh first room =>
    ⟨fun h => ⟨fun table field g found mine value tables => twr_setting h fresh first room table field g found mine value tables,
      fun table field g entry steward low high => twr_threshold h fresh first room table field g entry steward low high,
      fun table assigned other g found => twr_readOnly h fresh first table assigned other g found⟩,
    fun h granted => ⟨fun sel _ hp low bare some_ => nsctl_zoned h granted fresh first room sel hp low bare some_,
      fun sel least most ok unzoned none_ => nsctl_conventional h granted fresh first room sel least most ok unzoned none_⟩⟩

end Sys2Proof.Proofs
end

section
/-! SUPPORT. Buffers: allocation, sharing, and letting go (R302, R374, R375, R383, R388). -/

namespace Sys2Proof.Proofs

open Sys2Proof Sys2Proof.Machine

/-- The reels' contexts, the buffers and their bytes are as they were. -/
structure BufsKept (s t : State) : Prop where
  reels : t.kry.ctxs = s.kry.ctxs
  bufs : t.bpm.bufs = s.bpm.bufs
  bytes : t.bpm.bytes = s.bpm.bytes

namespace BufsKept

variable {s t u : State}

theorem refl (s : State) : BufsKept s s := ⟨rfl, rfl, rfl⟩

theorem trans (a : BufsKept s t) (b : BufsKept t u) : BufsKept s u :=
  ⟨b.reels.trans a.reels, b.bufs.trans a.bufs, b.bytes.trans a.bytes⟩

theorem ite {c : Prop} [Decidable c] (a : BufsKept s t) (b : BufsKept s u) : BufsKept s (if c then t else u) := by
  split <;> assumption

theorem foldl {α : Type} (f : State → α → State) (hf : ∀ s x, BufsKept s (f s x)) (l : List α) : ∀ s, BufsKept s (l.foldl f s) := by
  induction l with
  | nil => exact refl
  | cons a l ih => exact fun s => (hf s a).trans (ih _)

theorem of_eventFrame (h : EventFrame s t) : BufsKept s t := by
  refine ⟨ctxs_of_eventFrame h, ?_, ?_⟩ <;> rw [h.rest]

end BufsKept

theorem setPool_kept (s : State) (r : PoolRef) (p : Pool) : BufsKept s (s.setPool r p) := by
  cases r <;> exact ⟨rfl, rfl, rfl⟩

theorem levels_kept (s : State) (r : PoolRef) : BufsKept s (s.levels r) := by
  have one : ∀ (t : State) (l : Nat) (up : Bool), BufsKept t (t.levelEvent r l up) := fun t l up => .of_eventFrame (event_frame _ _ _ _ _ _)
  have step : ∀ (up : Bool) (c : Nat → Bool) (t : State) (i : Nat), BufsKept t (if c i = true then t.levelEvent r (i + 1) up else t) :=
    fun up c t i => .ite (one _ _ _) (.refl t)
  exact ((setPool_kept s r _).trans (.foldl _ (step true _) _ _)).trans (.foldl _ (step false _) _ _)

theorem leakCheck_kept (s : State) (o : Nat) : BufsKept s (s.leakCheck o) := by
  unfold State.leakCheck
  split
  · exact .ite ⟨rfl, rfl, rfl⟩ (.refl s)
  · exact .refl s

theorem length_popMany (n : Nat) : ∀ p, (State.popMany p n).1.length = n := by
  induction n with
  | zero => exact fun _ => rfl
  | succ n ih => exact fun p => congrArg (· + 1) (ih _)

section Buffers

variable {s : State} {w : KWord} {k : KCtx} {b : Buf} {h o : Nat}

theorem firstTrap_ownerTrap {x : Word} (mine : OwnsId s k x) : firstTrap (ownerTrap s k x) = none := by
  obtain ⟨y, hy, comp⟩ := mine
  refine firstTrap_cons_held ?_
  simp [ownsId, hy, comp]

/-- The checks of a handle that the reel may reach. -/
theorem handleTraps_of_buf {x : Word} (hb : s.buf x.toNat = some b) (reach : k.comp = 0 ∨ s.ownerComp b.owner = k.comp) :
    firstTrap (s.handleTraps k x) = none := by
  refine handleTraps_of_spaceSize (z := b.size) ?_
  unfold spaceSize
  rw [hb]
  exact if_pos reach

/-! ### What the buffer operations leave -/

/-- A buffer that is allocated stands under the next handle, held by its owner. -/
theorem alloc_facts {size domain part cls j n : Nat} (served : s.storeFor domain part size = some (j, n))
    (calm : s.level (State.storeAt domain part j) < 2) (room : n ≤ s.poolFree (State.storeAt domain part j)) :
    ∃ t, s.alloc o size domain part cls = (0, s.bpm.nextHandle, t) ∧ t.kry.ctxs = s.kry.ctxs ∧ t.bpm.bytes = s.bpm.bytes ∧
      (∃ b, t.buf s.bpm.nextHandle = some b ∧ b.size = size ∧ b.owner = o ∧ b.holders = [(o, s.tim.now)] ∧ b.final = none ∧
        b.cells.length = n) ∧ ∀ h, h ≠ s.bpm.nextHandle → t.buf h = s.buf h := by
  have flows : (s.pausesAlloc (State.storeAt domain part j) cls || decide (s.poolFree (State.storeAt domain part j) < n)) = false := by
    rw [State.pausesAlloc, decide_eq_false (by omega : ¬ s.level (State.storeAt domain part j) = 3),
      decide_eq_false (by omega : ¬ s.level (State.storeAt domain part j) = 2), decide_eq_false (Nat.not_lt.2 room)]
    rfl
  unfold State.alloc
  rw [served]
  dsimp only
  rw [flows, if_neg Bool.false_ne_true]
  have pool := setPool_kept s (State.storeAt domain part j) (State.popMany (s.pool (State.storeAt domain part j)) n).2
  refine ⟨_, rfl, (levels_kept _ _).reels.trans pool.reels, (levels_kept _ _).bytes.trans pool.bytes,
    ⟨_, (congrArg (look none · _) (levels_kept _ _).bufs).trans (look_put_of_ne _ _ _ _ (Option.some_ne_none _)), rfl, rfl, rfl, rfl,
      length_popMany _ _⟩, fun h hh => ?_⟩
  exact (congrArg (look none · h) (levels_kept _ _).bufs).trans
    ((look_put_other _ _ _ _ _ hh).trans (congrArg (look none · h) pool.bufs))

theorem alloc_paused {size domain part cls j n : Nat} (served : s.storeFor domain part size = some (j, n))
    (full : s.level (State.storeAt domain part j) = 3) : s.alloc o size domain part cls = (1, 0, s) := by
  have paused : (s.pausesAlloc (State.storeAt domain part j) cls || decide (s.poolFree (State.storeAt domain part j) < n)) = true := by
    rw [State.pausesAlloc, full]
    rfl
  unfold State.alloc
  rw [served]
  exact if_pos paused

/-- A holder that leaves a buffer which another still holds. -/
theorem leaveBuf_shared (hb : s.buf h = some b) (other : ∃ x ∈ b.holders, x.1 ≠ o) :
    BufsKept (s.setBuf h (some { b with holders := b.holders.filter (fun x => decide (x.1 ≠ o)) })) (s.leaveBuf h o) := by
  obtain ⟨x, hx, ne⟩ := other
  have held : (b.holders.filter (fun x => decide (x.1 ≠ o))).isEmpty = false :=
    List.isEmpty_eq_false_iff.2 (List.ne_nil_of_mem (List.mem_filter.2 ⟨hx, decide_eq_true ne⟩))
  unfold State.leaveBuf
  rw [hb]
  dsimp only
  rw [held, if_neg Bool.false_ne_true]
  exact leakCheck_kept _ _

/-- The last holder of a buffer that leaves it: the buffer is gone, the others stand. -/
theorem leaveBuf_last (tables : canon none s.bpm.bufs = true) (hb : s.buf h = some b) (alone : ∀ x ∈ b.holders, x.1 = o) :
    (s.leaveBuf h o).kry.ctxs = s.kry.ctxs ∧ (s.leaveBuf h o).buf h = none ∧ ∀ g, g ≠ h → (s.leaveBuf h o).buf g = s.buf g := by
  have nobody : b.holders.filter (fun x => decide (x.1 ≠ o)) = [] := List.filter_eq_nil_iff.2 fun x hx => by simp [alone x hx]
  obtain ⟨t, ht⟩ : ∃ t, t = s.setBuf h (some { b with holders := [] }) := ⟨_, rfl⟩
  have here : t.buf h = some { b with holders := [] } := by rw [ht]; exact look_put_of_ne _ _ _ _ (Option.some_ne_none _)
  have freed : (t.freeBuf h).kry.ctxs = t.kry.ctxs ∧ (t.freeBuf h).bpm.bufs = put none t.bpm.bufs h none := by
    unfold State.freeBuf
    rw [here]
    exact ⟨(levels_kept _ _).reels.trans (setPool_kept _ _ _).reels, (levels_kept _ _).bufs.trans (setPool_kept _ _ _).bufs⟩
  have left_ : s.leaveBuf h o = (t.freeBuf h).leakCheck o := by
    unfold State.leaveBuf
    rw [hb]
    dsimp only
    rw [nobody, ht]
    rfl
  have leak := leakCheck_kept (t.freeBuf h) o
  rw [← left_] at leak
  have bufs := leak.bufs.trans freed.2
  have table : canon none t.bpm.bufs = true := by rw [ht]; exact canon_put _ _ _ _ tables
  refine ⟨(leak.reels.trans freed.1).trans (by rw [ht]; rfl), (congrArg (look none · h) bufs).trans (look_put _ _ _ _ table), fun g hg => ?_⟩
  refine (congrArg (look none · g) bufs).trans ((look_put_other _ _ _ _ _ hg).trans ?_)
  rw [ht]
  exact look_put_other _ _ _ _ _ hg

/-- An instruction on buffers that passes its checks. -/
theorem buffer_answers {i : Instr} {name : String} {f : Form} {traps : KCtx → List TrapIf} {eff : KCtx → State.Answer} {t : State}
    {op st : Nat} {rs : List Word} (run : exec i s = runBuffer s name f w traps eff) (h : Ready s f false w k) (fresh : FreshPosition k)
    (first : NotPerformed k) (g : Granted s k (some 6)) (ht : firstTrap (traps k) = none) (he : eff k = State.status t st rs)
    (reels : t.kry.ctxs = s.kry.ctxs) (hop : f.op = op) : Answers i s op w k st rs (fun u => u = reelPart t u) :=
  answers_of_unit run h fresh first (firstTrap_unitTraps g) ht rfl he reels hop

theorem buf_of_reelPart {t u : State} (h : u = reelPart t u) (x : Nat) : u.buf x = t.buf x := by rw [h]; rfl

theorem finalOwner_eq (b : Buf) : finalOwner b = b.final.getD b.owner := rfl

end Buffers

/-- A `mod` of one bit. -/
theorem mod_bit {w : KWord} (low : w.mod.toNat ≤ 1) : w.mod.getLsbD 0 = true ↔ w.mod.toNat = 1 := by
  rw [← bit_iff, bits, Nat.pow_zero, Nat.div_one, Nat.pow_one, Nat.mod_eq_of_lt (by omega)]

theorem mod_domain {w : KWord} (low : w.mod.toNat ≤ 1) : (if w.mod.getLsbD 0 = true then 1 else 0) = w.mod.toNat := by
  split
  · next h => rw [(mod_bit low).1 h]
  · next h => have := mt (mod_bit low).2 h; omega

/-- BALLOC, with its domain written out. -/
theorem exec_balloc (s : State) {w : KWord} (low : w.mod.toNat ≤ 1) : exec (.balloc w) s =
    runBuffer s "BALLOC" { op := 0x90, useD := false, useA := true, useB := true, mask := 0x1 } w (fun k => ownerTrap s k (regB k w))
      (fun k =>
        let r := s.alloc (regB k w).toNat (regA k w).toNat w.mod.toNat
          (if w.mod.toNat = 0 then ctxRegion w.ctx else w.imm.toNat % 16) (s.comp k.comp).res.cls
        if r.1 = 0 then State.status r.2.2 0 [BitVec.ofNat 64 r.2.1] else State.status r.2.2 r.1 []) := by
  show execBalloc w s = _
  unfold execBalloc
  rw [mod_domain low]

section Cases

variable {s : State} {w : KWord} {k : KCtx} {b : Buf}

/-- BSHARE of a buffer that is not being freed and has room for a holder (R388). -/
theorem bshare_checks (mine : OwnsId s k (regB k w)) (hb : s.buf (regA k w).toNat = some b)
    (reach : k.comp = 0 ∨ s.ownerComp b.owner = k.comp) (same : s.ownerComp (regB k w).toNat = s.ownerComp b.owner)
    (live : b.freeing = false) (few : b.holders.length < 255) :
    firstTrap (s.handleTraps k (regA k w) ++ ownerTrap s k (regB k w) ++ shareTraps s (regA k w).toNat (regB k w).toNat) = none := by
  rw [List.append_assoc, firstTrap_append (handleTraps_of_buf hb reach), firstTrap_append (firstTrap_ownerTrap mine), shareTraps, hb]
  simp [same, live, Nat.not_le.2 few, firstTrap]

/-- The holders after a share: the one added, and those before. -/
theorem mem_shared (hs : List (Nat × Nat)) (o n x : Nat) :
    (∃ y ∈ (if hs.any (fun x => decide (x.1 = o)) = true then hs else hs ++ [(o, n)]), y.1 = x) ↔ x = o ∨ ∃ y ∈ hs, y.1 = x := by
  split
  · next h =>
    obtain ⟨y, hy, e⟩ := List.any_eq_true.1 h
    exact ⟨.inr, fun h => h.elim (fun hx => ⟨y, hy, by rw [hx]; exact of_decide_eq_true e⟩) id⟩
  · simp [or_and_right, exists_or, or_comm, eq_comm]

theorem mem_dropped (hs : List (Nat × Nat)) (o x : Nat) :
    (∃ y ∈ hs.filter (fun x => decide (x.1 ≠ o)), y.1 = x) ↔ x ≠ o ∧ ∃ y ∈ hs, y.1 = x := by
  simp only [List.mem_filter, decide_eq_true_eq]
  exact ⟨fun ⟨y, ⟨hy, ne⟩, e⟩ => ⟨e ▸ ne, y, hy, e⟩, fun ⟨ne, y, hy, e⟩ => ⟨y, ⟨hy, e ▸ ne⟩, e⟩⟩

theorem let_go_checks (mine : OwnsId s k (regB k w)) (hb : s.buf (regA k w).toNat = some b)
    (reach : k.comp = 0 ∨ s.ownerComp b.owner = k.comp) :
    firstTrap (s.handleTraps k (regA k w) ++ ownerTrap s k (regB k w)) = none :=
  (firstTrap_append (handleTraps_of_buf hb reach)).trans (firstTrap_ownerTrap mine)

end Cases

/-- Settles O19: each instruction passes its checks; what its unit leaves is what the buffer operation leaves. -/
theorem buffersAreAllocatedSharedAndFreedByTheirOwners : Obligations.BuffersAreAllocatedSharedAndFreedByTheirOwners := by
  refine fun s w k fresh first tables g => ⟨fun h mine j n served => ⟨fun calm room => ?_, fun full => ?_⟩,
    fun h mine b hb reach same live few => ⟨fun open_ => ?_, fun named => ?_⟩,
    fun h mine b hb reach => ⟨fun refused => ?_, fun held other_ shared => ?_⟩, fun h mine b hb reach => ⟨fun other_ => ?_, fun own alone => ?_⟩⟩
  · obtain ⟨t, ht, reels, bytes, ⟨b, hb, facts⟩, others⟩ := alloc_facts (o := (regB k w).toNat) (cls := (s.comp k.comp).res.cls) served calm room
    refine answers_imp (buffer_answers (t := t) (exec_balloc s (mod_le_mask h.form)) h fresh first g (firstTrap_ownerTrap mine)
      (by dsimp only; rw [ht]; rfl) reels rfl) fun u rest => ⟨⟨b, ?_, facts⟩, fun x hx => ?_, ?_⟩
    · rw [buf_of_reelPart rest, hb]
    · rw [buf_of_reelPart rest, others x hx]
    · rw [rest]; exact bytes
  · exact buffer_answers (exec_balloc s (mod_le_mask h.form)) h fresh first g (firstTrap_ownerTrap mine)
      (by dsimp only; rw [alloc_paused served full]; rfl) rfl rfl
  · have final : w.mod.getLsbD 0 = decide (w.mod.toNat = 1) := by
      rw [Bool.eq_iff_iff, decide_eq_true_eq, mod_bit (mod_le_mask h.form)]
    have fits : (w.mod.getLsbD 0 && b.final.isSome) = false := by
      rw [final, Bool.eq_false_iff]
      exact fun both => open_ (by simpa using both)
    obtain ⟨b', hb'⟩ : ∃ b' : Buf, b' = { b with
        holders := if b.holders.any (fun x => decide (x.1 = (regB k w).toNat)) then b.holders else b.holders ++ [((regB k w).toNat, s.now)]
        final := some (b.final.getD (if w.mod.toNat = 1 then (regB k w).toNat else b.owner)) } := ⟨_, rfl⟩
    have shares : s.shareBuf (regA k w).toNat (regB k w).toNat (w.mod.getLsbD 0) = (0, s.setBuf (regA k w).toNat (some b')) := by
      unfold State.shareBuf
      rw [hb, hb']
      dsimp only
      rw [fits, if_neg Bool.false_ne_true, final]
      simp only [decide_eq_true_eq]
    refine answers_imp (buffer_answers (name := "BSHARE") (show execBshare w s = _ from rfl) h fresh first g
      (bshare_checks mine hb reach same live few) (congrArg (fun r : Nat × State => State.status r.2 r.1 []) shares) rfl rfl) fun u rest =>
        ⟨?_, fun x hx => ?_, b', ?_, ?_, fun o => ?_⟩
    · unfold OnlyBuffers; rw [rest]; rfl
    · rw [buf_of_reelPart rest]; exact look_put_other _ _ _ _ _ hx
    · rw [buf_of_reelPart rest]; exact look_put_of_ne _ _ _ _ (Option.some_ne_none _)
    · rw [hb']
    · rw [hb']; exact mem_shared _ _ _ _
  · have final : w.mod.getLsbD 0 = true := (mod_bit (mod_le_mask h.form)).2 named.1
    have refuses : s.shareBuf (regA k w).toNat (regB k w).toNat (w.mod.getLsbD 0) = (3, s) := by
      unfold State.shareBuf
      rw [hb, final]
      exact if_pos named.2
    exact buffer_answers (name := "BSHARE") (show execBshare w s = _ from rfl) h fresh first g (bshare_checks mine hb reach same live few)
      (by rw [refuses]) rfl rfl
  · have refuses : s.dropShare (regA k w).toNat (regB k w).toNat = (1, s) := by
      unfold State.dropShare
      rw [hb]
      exact if_pos (refused.imp (fun none_ => by simpa using none_) id)
    exact buffer_answers (name := "BDROP") (show execBdrop w s = _ from rfl) h fresh first g (let_go_checks mine hb reach) (by rw [refuses])
      rfl rfl
  · have drops : s.dropShare (regA k w).toNat (regB k w).toNat = (0, s.leaveBuf (regA k w).toNat (regB k w).toNat) := by
      unfold State.dropShare
      rw [hb]
      obtain ⟨x, hx, e⟩ := held
      exact if_neg (not_or.2 ⟨fun all => by simpa [e] using List.all_eq_true.1 all x hx, other_⟩)
    have left_ := leaveBuf_shared hb shared
    refine answers_imp (buffer_answers (name := "BDROP") (show execBdrop w s = _ from rfl) h fresh first g (let_go_checks mine hb reach)
      (by rw [drops]) left_.reels rfl) fun u rest =>
        ⟨fun x hx => ?_, { b with holders := b.holders.filter (fun x => decide (x.1 ≠ (regB k w).toNat)) }, ?_, fun o => ?_⟩
    · rw [buf_of_reelPart rest, State.buf, left_.bufs]; exact look_put_other _ _ _ _ _ hx
    · rw [buf_of_reelPart rest, State.buf, left_.bufs]; exact look_put_of_ne _ _ _ _ (Option.some_ne_none _)
    · exact mem_dropped _ _ _
  · have refuses : s.freeShare (regA k w).toNat (regB k w).toNat = (4, s) := by
      unfold State.freeShare
      rw [hb]
      exact if_pos other_
    exact buffer_answers (name := "BFREE") (show execBfree w s = _ from rfl) h fresh first g (let_go_checks mine hb reach) (by rw [refuses])
      rfl rfl
  · obtain ⟨t, ht⟩ : ∃ t, t = s.setBuf (regA k w).toNat (some { b with freeing := true }) := ⟨_, rfl⟩
    have frees : s.freeShare (regA k w).toNat (regB k w).toNat = (0, t.leaveBuf (regA k w).toNat (regB k w).toNat) := by
      unfold State.freeShare
      rw [hb, ht]
      exact if_neg (not_not.2 own)
    have here : t.buf (regA k w).toNat = some { b with freeing := true } := by rw [ht]; exact look_put_of_ne _ _ _ _ (Option.some_ne_none _)
    obtain ⟨reels, gone, others⟩ := leaveBuf_last (by rw [ht]; exact canon_put _ _ _ _ tables) here alone
    refine answers_imp (buffer_answers (name := "BFREE") (show execBfree w s = _ from rfl) h fresh first g (let_go_checks mine hb reach)
      (by rw [frees]) (by rw [reels, ht]; rfl) rfl) fun u rest => ⟨?_, fun x hx => ?_⟩
    · rw [buf_of_reelPart rest, gone]
    · rw [buf_of_reelPart rest, others x hx, ht]; exact look_put_other _ _ _ _ _ hx

end Sys2Proof.Proofs
end

section
/-! SUPPORT. COUPLE, the codec contexts' grants, the event instructions and REGRD (R109 to R111, R301, R303, R305). -/

namespace Sys2Proof.Proofs

open Sys2Proof Sys2Proof.Machine

section Answer

variable {i : Instr} {s t : State} {name : String} {f : Form} {w : KWord} {k : KCtx} {gate traps late : KCtx → List TrapIf}
  {eff : KCtx → State.Answer} {st op : Nat} {rs : List Word}

/-- An instruction that answers status `st` from the state that its unit leaves, whose contexts stand. -/
theorem exists_answers (run : exec i s = s.runJournal name f w gate traps late eff) (h : Ready s f false w k)
    (fresh : FreshPosition k) (first : NotPerformed k) (hg : firstTrap (gate k) = none) (ht : firstTrap (traps k) = none)
    (hl : firstTrap (late k) = none) (he : eff k = State.status t st rs) (reels : t.kry.ctxs = s.kry.ctxs) (hop : f.op = op) :
    ∃ u, exec i s = .next u ∧ u.kctx w.ctx = some (answeredWith k op w (answers st rs) (some (decide (st = 0)))) ∧
      (∀ d, d ≠ w.ctx → u.kctx d = s.kctx d) ∧ u = reelPart t u := answers_of_unit run h fresh first hg ht hl he reels hop

end Answer

section Couple

variable {s : State} {w : KWord} {k : KCtx} {w0 w1 w2 : Nat} {replace : Bool} {who i : Nat} {c : Carriage}

/-- A descriptor that meets every condition takes the lowest free index (R109, R597). -/
theorem coupleCheck_of_couplable (ok : Couplable s w0 w1 w2 replace who i c) : s.coupleCheck w0 w1 w2 replace who = .at_ i := by
  obtain ⟨rfl, fields, codec, free, unparked, handle, alone, key, ⟨mine, least, owner⟩, ⟨read, write⟩, thawed⟩ := ok
  obtain ⟨c, hc⟩ : ∃ c, c = ofDescriptor w0 w1 w2 := ⟨_, rfl⟩
  rw [← hc] at codec handle alone key mine least owner read write thawed
  have coded : (c.codec && !s.part.codec) ≠ true := by
    cases h : c.codec with
    | false => exact Bool.false_ne_true
    | true => simp [(codec h).1]
  have owned : (decide (who ≠ 0 ∧ c.comp ≠ who) || decide (c.owner < 16)) ≠ true := by
    simp only [ne_eq, Bool.or_eq_true, decide_eq_true_eq, not_or, Nat.not_lt]
    exact ⟨fun ⟨other, notMine⟩ => mine.elim other notMine, least⟩
  have held : (s.parked || decide (s.handleHolder c.handleType c.handle ≠ some (c.comp, c.nsid))) ≠ true := by
    simp [State.parked, unparked, handle]
  have single : (!replace && s.car.table.any (fun e => e.2.coupled && !e.2.draining && decide (e.2.handleType = c.handleType) &&
      decide (e.2.handle = c.handle))) ≠ true := by
    simp only [ne_eq, Bool.and_eq_true, Bool.not_eq_true', List.any_eq_true, decide_eq_true_eq, not_and, not_exists]
    rintro unreplaced ⟨x, e⟩ hx ⟨⟨on, still⟩, type_⟩ handle_
    refine alone.elim (fun r => ?_) fun none_ => none_ x e hx on still ⟨type_, handle_⟩
    rw [r] at unreplaced
    cases unreplaced
  have slot : (c.encrypt && !((decide (c.keySlot = c.comp) && decide (1 ≤ c.keySlot ∧ c.keySlot ≤ 1023)) ||
      (decide (c.comp = 0) && decide (1025 ≤ c.keySlot ∧ c.keySlot ≤ 1038)))) ≠ true := by
    cases h : c.encrypt with
    | false => exact Bool.false_ne_true
    | true =>
      obtain ⟨-, own | shared⟩ := key h
      · simp [own.1 ▸ own.2, own.1]
      · simp [shared]
  have filled : (c.encrypt && decide (look 0 s.sec.keys c.keySlot = 0)) ≠ true := by
    cases h : c.encrypt with
    | false => exact Bool.false_ne_true
    | true => simp [(key h).1]
  have whole : (c.codec && decide (c.handleType = 2)) ≠ true := by
    cases h : c.codec with
    | false => exact Bool.false_ne_true
    | true => simp [(codec h).2]
  have classes : ¬ (c.readClass < (s.comp c.comp).res.cls ∨ c.writeClass < (s.comp c.comp).res.cls) := by omega
  have thaw : s.frozen c.comp ≠ true := by rw [thawed]; exact Bool.false_ne_true
  have wellFormed : badDescriptor w0 w1 w2 ≠ true := by rw [fields]; exact Bool.false_ne_true
  unfold State.coupleCheck
  rw [← hc, free]
  dsimp only
  rw [if_neg coded, if_neg wellFormed, if_neg owned, if_neg held, if_neg single, if_neg slot, if_neg filled, if_neg whole,
    if_neg (not_not.2 owner), if_neg classes, if_neg thaw]

theorem freeCarriage_facts (h : s.freeCarriage = some i) : s.carBusy i = false ∧ i < 32768 := by
  unfold State.freeCarriage at h
  dsimp only at h
  split at h
  · next n hn =>
    split at h
    · next low =>
      cases h
      exact ⟨by simpa using List.find?_some hn, low⟩
    · cases h
  · cases h

theorem outside_descriptor (inside : (regA k w).toNat + 24 ≤ (if w.mod.getLsbD 1 then 64 + k.codeLen else 16384)) :
    s.outside k (descSpace w) (regA k w).toNat 24 0 = false := by
  unfold descSpace
  cases h : w.mod.getLsbD 1 with
  | false =>
    rw [h] at inside
    exact outside_of_inside (z := 16384) rfl (.inr inside)
  | true =>
    rw [h] at inside
    exact outside_of_inside (z := 64 + k.codeLen) rfl (.inr inside)

/-- A coupling takes effect at its index (R110, R111). -/
theorem carriage_couple (s : State) (i w0 w1 w2 : Nat) : (s.couple i w0 w1 w2).carriage i =
    { ofDescriptor w0 w1 w2 with coupled := true, generation := (s.carriage i).generation + 1 } :=
  look_put_of_ne _ _ _ _ fun e => Bool.false_ne_true (congrArg Carriage.coupled e).symm

theorem couple_eq (s : State) (i w0 w1 w2 : Nat) :
    s.couple i w0 w1 w2 = { s with car := { s.car with table := (s.couple i w0 w1 w2).car.table } } := rfl

/-- COUPLE of a descriptor that meets every condition. -/
theorem couple_answers (h : Ready s { op := 0x80, useD := false, useA := true, useB := false, mask := 3 } false w k)
    (fresh : FreshPosition k) (first : NotPerformed k) (g : Granted s k (some 5)) (aligned : (regA k w).toNat % 8 = 0)
    (inside : (regA k w).toNat + 24 ≤ (if w.mod.getLsbD 1 then 64 + k.codeLen else 16384))
    (ok : Couplable s (descWord s k w 0) (descWord s k w 1) (descWord s k w 2) (w.mod.getLsbD 0) k.comp i c) :
    ∃ t, exec (.couple w) s = .next t ∧
      t.kctx w.ctx = some (answeredWith k 0x80 w (answers 0 [BitVec.ofNat 64 i]) (some true)) ∧
      (∀ d, d ≠ w.ctx → t.kctx d = s.kctx d) ∧
      t.carriage i = { c with coupled := true, generation := (s.carriage i).generation + 1 } ∧
      s.carBusy i = false ∧ i < 32768 ∧ t = { reelPart s t with car := { s.car with table := t.car.table } } := by
  have within := outside_descriptor (s := s) inside
  have takes : coupling s k w = .at_ i := coupleCheck_of_couplable ok
  have coded : ((descWord s k w 0).testBit 48 && !s.part.codec) = false := by
    have described : c.codec = (descWord s k w 0).testBit 48 := by rw [ok.described]; rfl
    cases h : (descWord s k w 0).testBit 48 with
    | false => rfl
    | true => simp [(ok.codec (described.trans h)).1]
  obtain ⟨idle, low⟩ := freeCarriage_facts ok.free
  obtain ⟨u, go, at_, others, rest⟩ := exists_answers (i := .couple w) (s := s)
    (t := s.couple i (descWord s k w 0) (descWord s k w 1) (descWord s k w 2)) (st := 0) (rs := [BitVec.ofNat 64 i]) (op := 0x80)
    (name := "COUPLE") (show execCouple w s = _ from rfl) h fresh first
    (by rw [within]; simp [coded, aligned, State.unitTraps, firstTrap, g.1 5 rfl, g.2])
    (by rw [takes]; rfl) rfl (by rw [takes]) rfl rfl
  refine ⟨u, go, at_, others, ?_, idle, low, ?_⟩
  · rw [ok.described, ← carriage_couple, rest]
    rfl
  · rw [rest, couple_eq]
    rfl

end Couple

section Codec

variable {s : State} {w : KWord} {k : KCtx}

theorem firstTrap_unitTraps_codec (g : Granted s k (some 7)) (codec : s.part.codec = true) :
    firstTrap (s.unitTraps k (some 7) (codecTrap s)) = none := by
  obtain ⟨held, thawed⟩ := g
  simp [State.unitTraps, codecTrap, firstTrap, held 7 rfl, thawed, codec]

theorem firstTrap_codecIndexTraps {a : Word} (low : a.toNat < 2048) : firstTrap (codecIndexTraps a) = none :=
  firstTrap_cons_held (decide_eq_false (Nat.not_le.2 low))

theorem codecCtx_of_rest {t u : State} (h : u = reelPart t u) (x : Nat) : u.codecCtx x = t.codecCtx x := by rw [h]; rfl

/-- A codec context whose grant is written. -/
theorem setCodecCtx_answers {i : Instr} {name : String} {f : Form} {gate traps : KCtx → List TrapIf} {eff : KCtx → State.Answer}
    {op x : Nat} {v : CodecCtx} (run : exec i s = s.runJournal name f w gate traps (fun _ => []) eff) (h : Ready s f false w k)
    (fresh : FreshPosition k) (first : NotPerformed k) (hg : firstTrap (gate k) = none) (ht : firstTrap (traps k) = none)
    (he : eff k = State.status (s.setCodecCtx x v) 0 []) (hop : f.op = op) (tables : canon CodecCtx.none s.fcd.ctxs = true) :
    ∃ t, exec i s = .next t ∧ t.kctx w.ctx = some (answeredWith k op w (answers 0 []) (some true)) ∧
      (∀ d, d ≠ w.ctx → t.kctx d = s.kctx d) ∧ t.codecCtx x = v ∧ (∀ y, y ≠ x → t.codecCtx y = s.codecCtx y) ∧
      t = { reelPart s t with fcd := { s.fcd with ctxs := t.fcd.ctxs } } := by
  obtain ⟨u, go, at_, others, rest⟩ := exists_answers run h fresh first hg ht rfl he rfl hop
  refine ⟨u, go, at_, others, ?_, fun y hy => ?_, ?_⟩
  · rw [codecCtx_of_rest rest]; exact look_put _ _ _ _ tables
  · rw [codecCtx_of_rest rest]; exact look_put_other _ _ _ _ _ hy
  · rw [rest]; rfl

end Codec

section Events

variable {s : State} {w : KWord} {k : KCtx} {q : KInst}

theorem kinst_of_rest {t u : State} (h : u = reelPart t u) (x : Nat) : u.kinst x = t.kinst x := by rw [h]; rfl

/-- An event instruction that writes its running reel (R305, R432). -/
theorem setKinst_answers {i : Instr} {name : String} {f : Form} {gate traps : KCtx → List TrapIf} {eff : KCtx → State.Answer}
    {op st : Nat} {rs : List Word} {v : KInst} (run : exec i s = s.runJournal name f w gate traps (fun _ => []) eff) (h : Ready s f false w k)
    (fresh : FreshPosition k) (first : NotPerformed k) (hg : firstTrap (gate k) = none) (ht : firstTrap (traps k) = none)
    (he : eff k = State.status (s.setKinst k.inst (some v)) st rs) (hop : f.op = op) :
    ∃ t, exec i s = .next t ∧ t.kctx w.ctx = some (answeredWith k op w (answers st rs) (some (decide (st = 0)))) ∧
      (∀ d, d ≠ w.ctx → t.kctx d = s.kctx d) ∧ t.kinst k.inst = some v := by
  obtain ⟨u, go, at_, others, rest⟩ := exists_answers run h fresh first hg ht rfl he rfl hop
  exact ⟨u, go, at_, others, (kinst_of_rest rest _).trans (look_put_of_ne _ _ _ _ (Option.some_ne_none _))⟩

/-- A byte memory after a run of bytes from `a` was put into it one by one. -/
theorem look_foldl_put (bs : List Byte) : ∀ (a : Nat) (m : SMap Byte), canon 0 m = true → ∀ x,
    look 0 ((bs.mapIdx (fun j b => (a + j, b))).foldl (fun m x => put 0 m x.1 x.2) m) x =
      if a ≤ x ∧ x < a + bs.length then bs.getD (x - a) 0 else look 0 m x := by
  induction bs with
  | nil => intro a m _ x; simp
  | cons b bs ih =>
    intro a m hm x
    have shift : (fun (j : Nat) (b : Byte) => (a + (j + 1), b)) = fun j b => (a + 1 + j, b) := by
      funext j b; rw [Nat.add_right_comm, Nat.add_assoc a]
    rw [List.mapIdx_cons, List.foldl_cons, shift, ih (a + 1) _ (canon_put _ _ _ _ hm), look_put_if _ _ _ _ _ hm]
    rcases Nat.lt_trichotomy x a with lt | rfl | gt
    · rw [if_neg (by omega), if_neg (by omega), if_neg (by omega)]
    · rw [if_neg (by omega), if_pos (by simp)]
      simp
    · obtain ⟨d, rfl⟩ := Nat.exists_eq_add_of_lt gt
      have there : a + d + 1 - a = d + 1 := by omega
      have after : a + d + 1 - (a + 1) = d := by omega
      rw [there, after, List.getD_cons_succ]
      refine if_congr ?_ rfl (if_neg ?_)
      · simp only [List.length_cons]
        omega
      · show ¬ a + d + 1 = a + 0
        omega

theorem take_eventBytes (e : EvRec) : (eventBytes e).take 8 = leBytes 8 e.time := by
  simp only [eventBytes, List.append_assoc]
  exact List.take_left' (length_leBytes 8 e.time)

theorem drop_eventBytes (e : EvRec) : ((eventBytes e).drop 8).take 2 = leBytes 2 e.code := by
  simp only [eventBytes, List.append_assoc]
  rw [List.drop_left' (length_leBytes 8 e.time)]
  exact List.take_left' (length_leBytes 2 e.code)

/-- EVNEXT of the oldest record: it stands in scratch, and the queue is the rest (R305). -/
theorem evnext_answers {e : EvRec} {r : List EvRec} (h : Ready s { op := 0xC1, useD := false, useA := true, useB := false, mask := 0 } false w k)
    (fresh : FreshPosition k) (first : NotPerformed k) (g : Granted s k (some 15)) (inside : (regA k w).toNat + 32 ≤ 16384)
    (hq : s.kinst k.inst = some q) (some_ : q.events = e :: r) (len : (eventBytes e).length = 32) (tables : canon 0 k.scratch = true) :
    ∃ t, exec (.evnext w) s = .next t ∧ t.kinst k.inst = some { q with events := r, eventsLost := 0 } ∧
      (∀ d, d ≠ w.ctx → t.kctx d = s.kctx d) ∧ ∃ k', t.kctx w.ctx = some k' ∧
      k'.regs = (setRegs k [(1, 0), (2, BitVec.ofNat 64 q.eventsLost)]).regs ∧ k'.flags = { k.flags with z := true } ∧
      k'.pc = k.pc + 8 ∧ k'.jpos = k.jpos + 1 ∧ k'.journal.length = k.journal.length + 1 ∧
      (∀ x, look 0 k'.scratch x = if (regA k w).toNat ≤ x ∧ x < (regA k w).toNat + 32
        then (eventBytes e).getD (x - (regA k w).toNat) 0 else look 0 k.scratch x) ∧
      (eventBytes e).take 8 = leBytes 8 e.time ∧ ((eventBytes e).drop 8).take 2 = leBytes 2 e.code := by
  have scratch : spaceSize s k 0 0 = some 16384 := rfl
  obtain ⟨u, go, at_, others, rest⟩ := goes_of_runJournal_entry (i := .evnext w) (s := s) (op := 0xC1) (rs := answers 0 [BitVec.ofNat 64 q.eventsLost])
    (z := some true) (t := s.setKinst k.inst (some { q with events := r, eventsLost := 0 }))
    (bs := (eventBytes e).mapIdx (fun j b => ((regA k w).toNat + j, b))) (name := "EVNEXT") (show execEvnext w s = _ from rfl) h fresh first
    ((firstTrap_append (firstTrap_unitTraps g)).trans (firstTrap_cons_held (outside_of_inside scratch (.inr inside)))) rfl rfl
    (by rw [hq]; simp only [some_]; rfl) h.here rfl
  rw [replay_eq] at at_
  refine ⟨u, go, (kinst_of_rest rest _).trans (look_put_of_ne _ _ _ _ (Option.some_ne_none _)), others, _, at_, rfl, rfl, rfl, rfl,
    List.length_append, fun x => ?_, ?_, ?_⟩
  · have put := look_foldl_put (eventBytes e) (regA k w).toNat k.scratch tables x
    rw [len] at put
    refine Eq.trans (congrArg (fun m => look 0 m x) ?_) put
    unfold State.replay
    rw [setRegs_eq]
    exact congrArg (fun bs => List.foldl _ k.scratch bs) (List.append_nil _)
  · exact take_eventBytes e
  · exact drop_eventBytes e

/-- What a register read clears leaves the contexts (R567). -/
theorem ctxs_regClear (a m : Nat) : (s.regClear a m).kry.ctxs = s.kry.ctxs := by
  simp only [State.regClear, apply_ite State.kry, apply_ite Reels.ctxs, State.setCplPort, ite_self]

/-- EVSUB, which sets a subscription with `mod` 0 and clears them with 1 (R305). -/
theorem evsub_run {name : String} {eff : KCtx → State.Answer} {clear : Bool} {i : Instr}
    (run : exec i s = runEvsub s name clear w eff) (op : w.mod.toNat = clear.toNat) :
    exec i s = s.runJournal name formEvsub w (fun k => s.unitTraps k (some 15) []) (fun _ => []) (fun _ => []) eff := by
  have bit : w.mod.getLsbD 0 = clear := by
    rw [Bool.eq_iff_iff, mod_bit (by cases clear <;> simp [op]), op]
    cases clear <;> decide
  rw [run, runEvsub, if_neg (not_not.2 bit)]

/-- REGRD answers the register, and what the read clears is cleared (R303, R567). -/
theorem regrd_answers (h : Ready s { op := 0xC3, useD := false, useA := true, useB := false, mask := 0 } false w k)
    (fresh : FreshPosition k) (first : NotPerformed k) (g : Granted s k (some 12)) (aligned : (regA k w).toNat % 8 = 0)
    (low : (regA k w).toNat < 2 ^ 26) :
    ∃ t, exec (.regrd w) s = .next t ∧
      t.kctx w.ctx = some (answeredWith k 0xC3 w (answers 0 [BitVec.ofNat 64 (s.regRead (regA k w).toNat)]) (some true)) ∧
      (∀ d, d ≠ w.ctx → t.kctx d = s.kctx d) := by
  have good : firstTrap (offsetTraps (regA k w)) = none :=
    (firstTrap_cons_held (decide_eq_false (not_not.2 aligned))).trans (firstTrap_cons_held (decide_eq_false (Nat.not_le.2 low)))
  obtain ⟨t, go, at_, others, -⟩ := exists_answers (i := .regrd w) (s := s) (name := "REGRD") (show execRegrd w s = _ from rfl) h fresh first
    ((firstTrap_append (firstTrap_unitTraps g)).trans good) rfl rfl rfl (ctxs_regClear _ _) rfl
  exact ⟨t, go, at_, others⟩

end Events

/-- Settles O20, one lemma per instruction of the group. -/
theorem carriagesContextsEventsAndRegistersAnswer : Obligations.CarriagesContextsEventsAndRegistersAnswer := by
  intro s w k fresh first
  refine ⟨fun h g aligned inside i c ok => couple_answers h fresh first g aligned inside ok,
    fun h g codec low ok => ⟨fun mine idle tables => ?_, fun c other held => ?_⟩,
    fun h g codec low => ⟨fun idle tables => ?_, fun busy => ?_⟩,
    fun h g inside q hq => ⟨fun none_ => ?_, fun e r some_ len tables => ?_⟩,
    fun h g q hq => ⟨fun add room => ?_, fun add full => ?_, fun clear => ?_⟩, fun h g aligned low => ?_⟩
  · exact setCodecCtx_answers (name := "CXGRANT") (v := { grant := some (regB k w).toNat, coded := false, st := CodecState.zero })
      (show execCxgrant w s = _ from rfl) h fresh first (firstTrap_unitTraps_codec g codec)
      ((firstTrap_append (firstTrap_codecIndexTraps low)).trans (firstTrap_compTraps ok))
      (by rcases mine with e | e <;> simp [e, idle]) rfl tables
  · exact retires_of_runJournal (name := "CXGRANT") (show execCxgrant w s = _ from rfl) h fresh first (firstTrap_unitTraps_codec g codec)
      ((firstTrap_append (firstTrap_codecIndexTraps low)).trans (firstTrap_compTraps ok)) rfl (by simp [held, other]; rfl) rfl
  · exact setCodecCtx_answers (name := "CXREVOKE") (show execCxrevoke w s = _ from rfl) h fresh first (firstTrap_unitTraps_codec g codec)
      (firstTrap_codecIndexTraps low) (by rw [idle]; rfl) rfl tables
  · exact retires_of_runJournal (name := "CXREVOKE") (show execCxrevoke w s = _ from rfl) h fresh first (firstTrap_unitTraps_codec g codec)
      (firstTrap_codecIndexTraps low) rfl (by rw [busy]; rfl) rfl
  · have scratch : spaceSize s k 0 0 = some 16384 := rfl
    obtain ⟨t, go, at_, others, inst⟩ := setKinst_answers (i := .evnext w) (name := "EVNEXT") (s := s) (show execEvnext w s = _ from rfl) h fresh first
      ((firstTrap_append (firstTrap_unitTraps g)).trans (firstTrap_cons_held (outside_of_inside scratch (.inr inside)))) rfl
      (by rw [hq]; simp only [none_]; rfl) rfl
    exact ⟨t, go, at_, by rw [none_]; exact inst, others⟩
  · exact evnext_answers h fresh first g inside hq some_ len tables
  · exact setKinst_answers (name := "EVSUB_ADD") (evsub_run (clear := false) (show execEvsubAdd w s = _ from rfl) add) h fresh first
      (firstTrap_unitTraps g) rfl (by rw [hq]; simp only [if_neg (Nat.not_le.2 room)]) rfl
  · exact retires_of_runJournal (name := "EVSUB_ADD") (evsub_run (clear := false) (show execEvsubAdd w s = _ from rfl) add) h fresh first
      (firstTrap_unitTraps g) rfl rfl (by rw [hq]; simp only [if_pos full]; rfl) rfl
  · exact setKinst_answers (name := "EVSUB_CLEAR") (evsub_run (clear := true) (show execEvsubClear w s = _ from rfl) clear) h fresh first
      (firstTrap_unitTraps g) rfl (by rw [hq]) rfl
  · exact regrd_answers h fresh first g aligned low

end Sys2Proof.Proofs
end

section
/-! SUPPORT. What the release of blocks, the loss of rows and data and journal entries leave as it was (R67, R208, R298). -/

namespace Sys2Proof.Machine

open Sys2Proof

/-- What the release of blocks, the loss of rows and data, journal entries and events leave as it was: the start-up state, the levels
of protection, the carriages and flights, the buffers, the contexts and operations of reels, and the zones themselves. -/
structure Lot where
  boot : Boot
  mnt : Mount
  sec : Security
  car : Carriages
  bpm : Pools
  kry : Reels
  zns : Zones

def State.lot (s : State) : Lot :=
  { boot := s.boot, mnt := s.mnt, sec := s.sec, car := s.car, bpm := s.bpm, kry := { s.kry with insts := [] }
    zns := { s.zns with seq := 0, rows := [], unreadable := [], data := [], tags := [] } }

/-- An update of other components. -/
theorem lot_mk (s : State) (part pins pwr plog tim thm fan lvl fls jrn nv nvNext mem cmp fcd hif cpl svc free pending) :
    (State.mk part s.boot pins pwr plog tim thm fan lvl s.zns s.car fls s.mnt jrn nv nvNext s.bpm mem cmp fcd s.kry hif cpl s.sec svc free
      pending).lot = s.lot := by rfl

/-- An update of other fields of the zones' component. -/
theorem lot_sec (s : State) (part pins pwr plog tim thm fan lvl fls jrn nv nvNext mem cmp fcd hif cpl svc free pending)
    (zns : Zones) (kry : Reels) (hz : { zns with seq := 0, rows := [], unreadable := [], data := [], tags := [] } =
      { s.zns with seq := 0, rows := [], unreadable := [], data := [], tags := [] })
    (hk : { kry with insts := [] } = { s.kry with insts := [] }) :
    (State.mk part s.boot pins pwr plog tim thm fan lvl zns s.car fls s.mnt jrn nv nvNext s.bpm mem cmp fcd kry hif cpl s.sec svc free
      pending).lot = s.lot := by
  simp only [State.lot, hz, hk]

theorem lot_ite (c : Prop) [Decidable c] (s t : State) : (if c then s else t).lot = if c then s.lot else t.lot :=
  apply_ite _ _ _ _

theorem lot_foldl {α : Type} (f : State → α → State) (h : ∀ s a, (f s a).lot = s.lot) (l : List α) :
    ∀ s, (l.foldl f s).lot = s.lot := by
  induction l with
  | nil => exact fun _ => rfl
  | cons a l ih => exact fun s => (ih _).trans (h s a)

theorem lot_of_eventFrame {s t : State} (h : EventFrame s t) : t.lot = s.lot := by
  unfold State.lot
  rw [h.rest]

theorem State.setComp_lot (s : State) (c) (v) : (State.setComp s c v).lot = s.lot := by rfl

theorem State.setDie_lot (s : State) (d) (v) : (State.setDie s d v).lot = s.lot := by rfl

theorem State.setBlock_lot (s : State) (d) (b) (v) : (State.setBlock s d b v).lot = s.lot := by rfl

theorem State.setPort_lot (s : State) (p) (v) : (State.setPort s p v).lot = s.lot := by
  simp only [State.setPort, lot_sec, lot_ite, ite_self]

theorem State.emit_lot (s : State) (o) : (State.emit s o).lot = s.lot := by rfl

theorem State.startClocks_lot (s : State) (mask) : (State.startClocks s mask).lot = s.lot := by rfl

theorem State.startClock_lot (s : State) (d) : (State.startClock s d).lot = s.lot := by rfl

theorem State.interrupt_lot (s : State) (port) (vector) : (State.interrupt s port vector).lot = s.lot :=
  lot_of_eventFrame (interrupt_frame _ _ _)

theorem State.toStewardRing_lot (s : State) (e) : (State.toStewardRing s e).lot = s.lot :=
  lot_of_eventFrame (toStewardRing_frame _ _)

theorem State.compIrq_lot (s : State) (c) (bit) : (State.compIrq s c bit).lot = s.lot := lot_of_eventFrame (compIrq_frame _ _ _)

theorem State.toCompRing_lot (s : State) (e) : (State.toCompRing s e).lot = s.lot := lot_of_eventFrame (toCompRing_frame _ _)

theorem State.toReels_lot (s : State) (e) : (State.toReels s e).lot = s.lot := by rfl

theorem State.raise_lot (s : State) (code) (level) (source) (c) (p) : (State.raise s code level source c p).lot = s.lot :=
  lot_of_eventFrame (raise_frame _ _ _ _ _ _)

theorem State.event_lot (s : State) (code) (level) (source) (c) (fields) :
    (State.event s code level source c fields).lot = s.lot := lot_of_eventFrame (event_frame _ _ _ _ _ _)

theorem State.modQueues_lot (s : State) (f : Queue → Bool) (g : Queue → Queue) : (State.modQueues s f g).lot = s.lot := by rfl

theorem State.cqPush_lot (s : State) (h) : (State.cqPush s h).lot = s.lot := by rfl

theorem State.logError_lot (s : State) (h) (e) : (State.logError s h e).lot = s.lot := lot_of_eventFrame (logError_frame _ _ _)

theorem State.complete_lot (s : State) (h) (st) (dw0) (dw1) : (State.complete s h st dw0 dw1).lot = s.lot :=
  lot_of_eventFrame (complete_frame _ _ _ _ _)

theorem State.done_lot (s : State) (h) (dw0) : (State.done s h dw0).lot = s.lot := lot_of_eventFrame (done_frame _ _ _)

theorem State.portAsync_lot (s : State) (p) (bit) (type) (info) (page) : (State.portAsync s p bit type info page).lot = s.lot := by
  simp only [State.portAsync, lot_ite]
  repeat' split
  all_goals simp only [State.done_lot, State.setPort_lot]

theorem State.compAsync_lot (s : State) (c) (bit) (type) (info) (page) : (State.compAsync s c bit type info page).lot = s.lot := by
  unfold State.compAsync; repeat' split
  all_goals simp only [lot_sec, State.done_lot]

theorem State.warning_lot (s : State) (bit) (info) : (State.warning s bit info).lot = s.lot := by
  simp only [State.warning, lot_foldl, implies_true, State.compAsync_lot, State.portAsync_lot]

theorem State.takeSeq_lot (s : State) (n) : (State.takeSeq s n).2.lot = s.lot := by
  unfold State.takeSeq
  extract_lets a e _ s1
  have h1 : s1.lot = s.lot := rfl
  simp only [apply_ite State.lot, State.event_lot, h1, ite_self]

theorem State.unqueue_lot (s : State) (f : QEntry → Bool) : (State.unqueue s f).lot = s.lot := by rfl

theorem State.deferErase_lot (s : State) (d) (b) (next) : (State.deferErase s d b next).lot = s.lot := by
  simp only [State.deferErase, lot_ite, ite_self, State.setDie_lot, State.setBlock_lot]

theorem State.pinCheck_lot (s : State) : (State.pinCheck s).lot = s.lot := by
  simp only [State.pinCheck, lot_sec, lot_ite, ite_self, State.warning_lot, State.event_lot]

theorem State.journal_lot (s : State) : (State.journal s).lot = s.lot := by
  simp only [State.journal, lot_sec, State.takeSeq_lot]

theorem State.dropData_lot (s : State) (z) (u) : (State.dropData s z u).lot = s.lot := by rfl

theorem State.dropPages_lot (s : State) (f : ℕ → Bool) : (State.dropPages s f).lot = s.lot := by rfl

theorem State.sweepLanding_lot (s : State) : (State.sweepLanding s).lot = s.lot := by
  simp only [State.sweepLanding, lot_sec, lot_foldl, implies_true, State.deferErase_lot]

theorem State.releaseBlocks_lot (s : State) (z) : (State.releaseBlocks s z).lot = s.lot := by
  simp only [State.releaseBlocks, lot_ite, lot_foldl, ite_self, implies_true, State.deferErase_lot]

theorem State.returnBlocks_lot (s : State) (z) : (State.returnBlocks s z).lot = s.lot := by
  simp only [State.returnBlocks, lot_ite, lot_foldl, ite_self, implies_true, State.setBlock_lot]

theorem State.dropRows_lot (s : State) (z) : (State.dropRows s z).lot = s.lot := by
  simp only [State.dropRows, lot_sec, lot_foldl, implies_true, State.unqueue_lot, State.dropPages_lot, State.deferErase_lot,
      State.pinCheck_lot, State.sweepLanding_lot]

theorem State.dropMoves_lot (s : State) (z) : (State.dropMoves s z).lot = s.lot := by
  simp only [State.dropMoves, lot_sec, lot_foldl, implies_true, State.deferErase_lot]

end Sys2Proof.Machine
end

section
/-! SUPPORT. ZCTL: what a zone action does to its zone and what it leaves (R65 to R71, R298). -/

namespace Sys2Proof.Machine

open Sys2Proof

/-- What an action does to the zone itself, once it takes effect (R66). -/
def State.zoneEffect (s : State) (z cls : Nat) : ZAct → State
  | .open_ => s.openZone z
  | .close => s.closeZone z
  | .finish => s.finishZone z cls
  | .reset => s.resetZone z
  | .offline => s.offlineZone z

/-- The zone after the action: no Empty zone opens here, and only an Empty one finishes. -/
def State.zoneAfter (s : State) (z : Nat) : ZAct → Zone
  | .open_ => { s.zone z with state := .explicitOpen }
  | .close => if (s.zone z).state = .explicitOpen ∧ (s.zone z).wp = 0 then State.emptied (s.zone z) else { s.zone z with state := .closed }
  | .finish => { s.zone z with state := .full, direct := s.defaultDirect z, wp := (s.zone z).cap, dataEnd := some 0 }
  | .reset => Zone.none
  | .offline => { s.zone z with state := .offline, members := [], failed := [] }

end Sys2Proof.Machine

namespace Sys2Proof.Proofs

open Sys2Proof Sys2Proof.Machine

section Effect

variable {s t : State} {v : Flight} {z : Nat} {a : ZAct}

theorem zones_of_lot (h : t.lot = s.lot) : t.zns.zones = s.zns.zones := congrArg (fun l => l.zns.zones) h

theorem zone_of_lot (h : t.lot = s.lot) (y : Nat) : t.zone y = s.zone y := congrArg (look Zone.none · y) (zones_of_lot h)

theorem setZone_lot (h : t.lot = s.lot) (z : Nat) (v : Zone) : (t.setZone z v).lot = (s.setZone z v).lot := by
  have zones := zones_of_lot h
  injection h with boot mnt sec car bpm kry zns
  simp only [State.lot, State.setZone] at zns kry ⊢
  rw [boot, mnt, sec, car, bpm, kry, zones]
  exact congrArg (fun q : Zones => ({ boot := s.boot, mnt := s.mnt, sec := s.sec, car := s.car, bpm := s.bpm, kry := { s.kry with insts := [] }, zns := { q with zones := put Zone.none s.zns.zones z v } } : Lot)) zns

theorem zoneEffect_lot {cls : Nat} (opens : a = .open_ → (s.zone z).state ≠ .empty) (finishes : a = .finish → (s.zone z).state = .empty) :
    (s.zoneEffect z cls a).lot = (s.setZone z (s.zoneAfter z a)).lot := by
  cases a with
  | open_ => rw [State.zoneEffect, State.openZone, if_neg (opens rfl), State.journal_lot]; rfl
  | close =>
    rw [State.zoneEffect, State.closeZone, State.zoneAfter]
    dsimp only
    split
    · rw [State.emptyZone]
      refine (State.journal_lot _).trans (setZone_lot ?_ z _)
      rw [State.dropData_lot, State.dropRows_lot, State.returnBlocks_lot]
    · exact State.journal_lot _
  | finish =>
    rw [State.zoneEffect, State.finishZone]
    simp only [finishes rfl]
    exact State.journal_lot _
  | reset =>
    rw [State.zoneEffect, State.resetZone]
    refine (State.journal_lot _).trans (setZone_lot ?_ z _)
    rw [State.dropData_lot, State.dropRows_lot, State.releaseBlocks_lot]
  | offline =>
    rw [State.zoneEffect, State.offlineZone]
    have kept : ((s.releaseBlocks z).dropMoves z).lot = s.lot := by rw [State.dropMoves_lot, State.releaseBlocks_lot]
    refine (State.journal_lot _).trans ?_
    rw [zone_of_lot kept]
    exact setZone_lot kept z _

end Effect

section Flight

variable {s u : State} {v : Flight} {z : Nat} {a : ZAct}

theorem setFlight_self (mine : ∀ x ∈ u.car.flights, x.id = v.id → x = v) : u.setFlight v = u := by
  have same : u.car.flights.map (fun x => if x.id = v.id then v else x) = u.car.flights := by
    refine (List.map_congr_left fun x hx => ?_).trans (List.map_id _)
    split
    · next e => exact (mine x hx e).symm
    · rfl
  unfold State.setFlight
  rw [same]

/-- An action on a zone that is in no pair starts with the flight that carries it and nothing else. -/
theorem zoneAct_starts (pair : u.zonePair z = none) (wait : v.mirrorWait = false) (mine : ∀ x ∈ u.car.flights, x.id = v.id → x = v) :
    u.pairGate z = .ok false ∧ ((u.setFlight { v with mirrorWait := false }).noteWritten z).tellPeer z v.cls a.num 0 = u := by
  have same : ({ v with mirrorWait := false } : Flight) = v := by rw [← wait]
  refine ⟨by rw [State.pairGate, pair], ?_⟩
  rw [same, setFlight_self mine]
  have live : u.livePair z = none := by rw [State.livePair, pair]; rfl
  rw [State.noteWritten, pair]
  dsimp only
  rw [State.tellPeer, live]

theorem zoneAct_refused {st : Status} (pair : u.zonePair z = none) (refused : u.zoneRefusal z a = some st) :
    u.zoneAct v z a = u.endZone v st := by
  have gate : u.pairGate z = .ok false := by rw [State.pairGate, pair]
  rw [State.zoneAct, gate]
  dsimp only
  rw [refused]

theorem removeFlight_kept (h : v.kind ≠ .frameAppend ∧ v.kind ≠ .frameRead) : (u.removeFlight v).zns = u.zns ∧
    (u.removeFlight v).kry = u.kry ∧ (u.removeFlight v).car.flights = u.car.flights.filter (fun x => decide (x.id ≠ v.id)) := by
  unfold State.removeFlight
  rw [State.codecLeft, if_neg h.1, if_neg h.2]
  have key : ∀ t : State, t.settleKey.zns = t.zns ∧ t.settleKey.kry = t.kry ∧ t.settleKey.car = t.car := fun t => by
    unfold State.settleKey
    split
    · exact ⟨rfl, rfl, rfl⟩
    · dsimp only
      split <;> exact ⟨rfl, rfl, rfl⟩
  obtain ⟨zns, kry, car⟩ := key (if v.ticket.isSome || v.peer.isSome then
    { u with car := { u.car with flights := u.car.flights.filter (fun x => decide (x.id ≠ v.id)) } }
    else ({ u with car := { u.car with flights := u.car.flights.filter (fun x => decide (x.id ≠ v.id)) } }).setCarriage v.carriage
      { u.carriage v.carriage with outstanding := (u.carriage v.carriage).outstanding - 1 })
  rw [zns, kry, car]
  split <;> exact ⟨rfl, rfl, rfl⟩

/-- The flight carries a management action on zone `z` that waits for no other module. -/
structure Managing (v : Flight) (z : Nat) (a : ZAct) : Prop where
  kind : v.kind = a.kind
  zone : v.zone = some z
  alone : v.peer = none ∧ v.squashed = false ∧ v.group = false ∧ v.mirrorWait = false
  status : v.status = .success

theorem Managing.notFrame (m : Managing v z a) : v.kind ≠ .frameAppend ∧ v.kind ≠ .frameRead := by
  rw [m.kind]
  cases a <;> exact ⟨nofun, nofun⟩

theorem Managing.succeeds (m : Managing v z a) : ({ v with status := .success } : Flight) = v := by rw [← m.status]

theorem postFlight_managing (m : Managing v z a) (st : Status) : u.postFlight { v with status := st } =
    if v.ticket.isSome then u.answerOps (fun o => decide (o = .zone v.id)) st.code else u.complete v.cmd st 0 0 := by
  obtain ⟨peer, squashed, group, -⟩ := m.alone
  unfold State.postFlight
  simp only [peer, squashed, group, m.kind]
  cases a <;> rfl

theorem postTicket_eq (u : State) (i n : Nat) (t : Ticket) : u.postTicket i n t = { u with kry := (u.postTicket i n t).kry } := by
  unfold State.postTicket
  split
  · rfl
  · split <;> rfl

/-- Answers to reels change the reels' part alone. -/
theorem answerOps_eq (u : State) (f : UnitOp → Bool) (st : Nat) : u.answerOps f st = { u with kry := (u.answerOps f st).kry } := by
  have posts : ∀ (l : List KOp) (w : State), l.foldl (fun (t : State) (o : KOp) => t.postTicket o.inst o.ticket (State.answer st 0)) w =
      { w with kry := (l.foldl (fun (t : State) (o : KOp) => t.postTicket o.inst o.ticket (State.answer st 0)) w).kry } := by
    intro l
    induction l with
    | nil => exact fun w => rfl
    | cons o l ih =>
      intro w
      have others : ∀ r : Reels, { w.postTicket o.inst o.ticket (State.answer st 0) with kry := r } = { w with kry := r } := fun r => by
        rw [postTicket_eq]
      exact (ih _).trans (others _)
  exact posts _ _

theorem answerOps_media (u : State) (f : UnitOp → Bool) (st : Nat) : (u.answerOps f st).zns = u.zns ∧ (u.answerOps f st).car = u.car := by
  rw [answerOps_eq]
  exact ⟨rfl, rfl⟩

theorem postFlight_media (m : Managing v z a) (st : Status) :
    (u.postFlight { v with status := st }).zns = u.zns ∧ (u.postFlight { v with status := st }).car = u.car := by
  rw [postFlight_managing m]
  split
  · exact answerOps_media _ _ _
  · obtain ⟨zns, car, -, -⟩ := media_of_eventFrame (complete_frame u v.cmd st 0 0)
    exact ⟨zns, car⟩

theorem clearBefore_alone (only : ∀ x ∈ u.car.flights, x.zone = some z → x = v) : u.clearBefore v z = true := by
  simp only [State.clearBefore, List.all_eq_true, Bool.or_eq_true, Bool.not_eq_true', decide_eq_false_iff_not]
  intro x hx
  by_cases there : x.zone = some z
  · rw [only x hx there]
    exact .inl (.inl (Nat.lt_irrefl _))
  · exact .inl (.inr there)

/-- A reset that nothing comes before takes effect at once (R67). -/
theorem settleZones_reset (m : Managing v z .reset) (here : v ∈ u.car.flights) (only : ∀ x ∈ u.car.flights, x.zone = some z → x = v) :
    u.settleZones z = ((u.resetZone z).removeFlight v).postFlight v := by
  have same := m.succeeds
  have found : u.car.flights.find? (fun x => decide (x.zone = some z) && (decide (x.kind = .reset) || decide (x.kind = .finish))
      && !x.mirrorWait && u.clearBefore x z) = some v := by
    cases hf : u.car.flights.find? (fun x => decide (x.zone = some z) && (decide (x.kind = .reset) || decide (x.kind = .finish))
        && !x.mirrorWait && u.clearBefore x z) with
    | none =>
      have no := List.find?_eq_none.1 hf v here
      simp [m.zone, m.kind, ZAct.kind, m.alone.2.2.2, clearBefore_alone only] at no
    | some x =>
      have prop := List.find?_some hf
      simp only [Bool.and_eq_true, decide_eq_true_eq] at prop
      rw [only x (List.mem_of_find?_eq_some hf) prop.1.1.1]
  have first : u.settleZone z = ((u.resetZone z).removeFlight v).postFlight v := by
    rw [State.settleZone, found]
    simp [m.kind, ZAct.kind]
  have lot : (u.resetZone z).lot = _ := zoneEffect_lot (s := u) (z := z) (a := .reset) (cls := 0) nofun nofun
  have flights : (((u.resetZone z).removeFlight v).postFlight v).car.flights = u.car.flights.filter (fun x => decide (x.id ≠ v.id)) := by
    have post := (postFlight_media (u := (u.resetZone z).removeFlight v) m .success).2
    rw [same] at post
    rw [post, (removeFlight_kept m.notFrame).2.2]
    exact congrArg (fun l : Lot => l.car.flights.filter (fun x => decide (x.id ≠ v.id))) lot
  have none_ : (((u.resetZone z).removeFlight v).postFlight v).settleZone z = ((u.resetZone z).removeFlight v).postFlight v := by
    generalize ((u.resetZone z).removeFlight v).postFlight v = t at flights ⊢
    rw [State.settleZone, List.find?_eq_none.2]
    intro x hx
    rw [flights, List.mem_filter] at hx
    have other : x.zone ≠ some z := fun e => by simp [only x hx.1 e] at hx
    simp [other]
  rw [State.settleZones, first, none_]

/-- An action that nothing refuses takes effect, and its flight ends with success. -/
theorem zoneAct_takes (m : Managing v z a) (pair : u.zonePair z = none) (here : v ∈ u.car.flights)
    (ids : ∀ x ∈ u.car.flights, x.id = v.id → x = v) (only : ∀ x ∈ u.car.flights, x.zone = some z → x = v)
    (passes : u.zoneRefusal z a = none) (finishes : a = .finish → (u.zone z).state = .empty) :
    u.zoneAct v z a = ((u.zoneEffect z v.cls a).removeFlight v).postFlight v := by
  obtain ⟨gate, starts⟩ := zoneAct_starts (a := a) pair m.alone.2.2.2 ids
  have same := m.succeeds
  rw [State.zoneAct, gate]
  dsimp only
  rw [passes]
  dsimp only
  rw [starts]
  cases a with
  | open_ => simp only [State.endZone, same]; rfl
  | close => simp only [State.endZone, same]; rfl
  | finish => simp only [State.endZone, same, finishes rfl]; rfl
  | reset => exact settleZones_reset m here only
  | offline => simp only [State.endZone, same]; rfl

/-- A zone that no open check refuses and whose action has a transition (R65, R66). -/
theorem zoneRefusal_none (thawed : u.frozen (u.zoneComp z) = false) (from_ : a.from_ (u.zone z).state = true)
    (opens : a = .open_ → (u.zone z).state ≠ .empty) : u.zoneRefusal z a = none := by
  rw [State.zoneRefusal, from_]
  split
  · next e => cases e
  · split
    · next e =>
      rw [State.openCheck, thawed]
      simp [opens e.1]
    · rfl

/-- The zone that an action leaves, before its flight is answered: that zone alone changes. -/
theorem zoneAct_effect (m : Managing v z a) (pair : u.zonePair z = none) (here : v ∈ u.car.flights)
    (ids : ∀ x ∈ u.car.flights, x.id = v.id → x = v) (only : ∀ x ∈ u.car.flights, x.zone = some z → x = v)
    (passes : u.zoneRefusal z a = none) (opens : a = .open_ → (u.zone z).state ≠ .empty)
    (finishes : a = .finish → (u.zone z).state = .empty) :
    ∃ e : State, u.zoneAct v z a = e.postFlight v ∧ e.zns.zones = put Zone.none u.zns.zones z (u.zoneAfter z a) ∧
      e.kry.ctxs = u.kry.ctxs := by
  have lot := zoneEffect_lot (cls := v.cls) opens finishes
  obtain ⟨zns, kry, -⟩ := removeFlight_kept (u := u.zoneEffect z v.cls a) m.notFrame
  exact ⟨_, zoneAct_takes m pair here ids only passes finishes, (congrArg Zones.zones zns).trans (zones_of_lot lot),
    (congrArg Reels.ctxs kry).trans (congrArg (fun l : Lot => l.kry.ctxs) lot)⟩

end Flight

section Posted

/-- The context with answers posted to its tickets: nothing but the answers, what its tickets keep and scratch differs. -/
def PostedTo (k k' : KCtx) : Prop :=
  k' = { k with tickets := k'.tickets, kept := k'.kept, saved := k'.saved, scratch := k'.scratch } ∧
    k'.tickets.map (·.num) = k.tickets.map (·.num)

theorem PostedTo.refl (k : KCtx) : PostedTo k k := ⟨rfl, rfl⟩

theorem PostedTo.trans {k k' k'' : KCtx} (a : PostedTo k k') (b : PostedTo k' k'') : PostedTo k k'' := by
  obtain ⟨a, an⟩ := a
  obtain ⟨b, bn⟩ := b
  refine ⟨?_, bn.trans an⟩
  rw [b, a]

theorem postedTo_posted (k : KCtx) (n : Nat) (t : Ticket) : PostedTo k (State.posted k n t) := by
  refine ⟨rfl, ?_⟩
  show (k.tickets.map _).map _ = _
  rw [List.map_map]
  refine List.map_congr_left fun x _ => ?_
  show (if x.num = n ∧ x.done = none then { t with num := n } else x : Ticket).num = x.num
  split
  · next e => exact e.1.symm
  · rfl

variable {s : State} {c : Nat} {k : KCtx}

theorem postTicket_ctx (i n : Nat) (t : Ticket) (h : s.kctx c = some k) : ∃ k', (s.postTicket i n t).kctx c = some k' ∧ PostedTo k k' := by
  unfold State.postTicket
  split
  · exact ⟨k, h, .refl k⟩
  · next x hx =>
    split
    · exact ⟨k, h, .refl k⟩
    · next q hq =>
      by_cases e : c = x.ctx
      · subst e
        cases h.symm.trans hq
        exact ⟨_, kctx_setKctx _ _ _, postedTo_posted _ _ _⟩
      · exact ⟨k, (kctx_setKctx_other _ _ _ _ e).trans h, .refl k⟩

theorem answerOps_ctx (f : UnitOp → Bool) (st : Nat) (h : s.kctx c = some k) : ∃ k', (s.answerOps f st).kctx c = some k' ∧ PostedTo k k' := by
  have posts : ∀ (l : List KOp) (w : State) (k : KCtx), w.kctx c = some k →
      ∃ k', (l.foldl (fun (t : State) (o : KOp) => t.postTicket o.inst o.ticket (State.answer st 0)) w).kctx c = some k' ∧ PostedTo k k' := by
    intro l
    induction l with
    | nil => exact fun w k h => ⟨k, h, .refl k⟩
    | cons o l ih =>
      intro w k h
      obtain ⟨k1, h1, p1⟩ := postTicket_ctx o.inst o.ticket (State.answer st 0) h
      obtain ⟨k2, h2, p2⟩ := ih _ _ h1
      exact ⟨k2, h2, p1.trans p2⟩
  exact posts _ _ _ h

/-- An instruction stays accepted when answers are posted to its context. -/
theorem accepted_of_posted {k k' : KCtx} {op n : Nat} {w : KWord} (p : PostedTo (asking k op w n) k') :
    Accepted k (stepped k' (k.pc + 8)) op w n := by
  obtain ⟨same, nums⟩ := p
  obtain ⟨regs, flags, pc, counts, journal, position, tickets, rest⟩ := accepted_asking k op w n
  have ticket : ∀ (l : List Ticket) (m : Nat), (∃ x ∈ l, x.num = m) ↔ m ∈ l.map (·.num) := fun l m => by simp
  rw [same]
  refine ⟨regs, flags, pc, counts, journal, position, fun m => ?_, rest⟩
  rw [← tickets m, ticket, ticket]
  exact Eq.to_iff (congrArg (m ∈ ·) nums)

end Posted

section Run

variable {i : Instr} {s : State} {w : KWord} {k : KCtx} {n : Nat} {name : String} {f : Form} {gate traps late : KCtx → List TrapIf}
  {eff : KCtx → Nat → State → State}

/-- An asynchronous instruction that passes its checks: the ticket is taken, and the unit asked. -/
theorem runTicket_asks (run : exec i s = s.runTicket name f w gate traps late eff) (h : Ready s f false w k) (fresh : FreshPosition k)
    (lowest : LowestFree k n) (hg : firstTrap (gate k) = none) (ht : firstTrap (traps k) = none) (hl : firstTrap (late k) = none) :
    exec i s = .next ((eff k n ((s.reelIssues w.ctx).setKctx w.ctx (some (asking k f.op w n)))).retire_ w.ctx (k.pc + 8)) := by
  obtain ⟨here, room⟩ := fresh
  have notFull : State.journalFull k = false := decide_eq_false (by omega)
  have free := freeTicket_of_lowest lowest
  have own : firstTrap (traps k ++ [(State.journalFull k, 0x07, 1), ((State.freeTicket k).isNone, 0x07, 2)] ++ late k) = none := by
    rw [List.append_assoc, firstTrap_append ht]
    refine (firstTrap_cons_held notFull).trans ((firstTrap_cons_held ?_).trans hl)
    rw [free]
    rfl
  rw [run, State.runTicket, h.here]
  simp only [h.issues, arises]
  rw [firstTrap_append_none (ready_no_trap h), hg, recorded_none here, own, free]
  rfl

end Run

end Sys2Proof.Proofs
end

section
/-! SUPPORT. O21 and O22: a reel's zone action under its ticket (R66, R293, R298). -/

namespace Sys2Proof.Machine

open Sys2Proof

/-- The flight of a reel's zone action under ticket `n`. -/
def State.reelFlight (s : State) (inst n z : Nat) (a : ZAct) : Flight :=
  { s.newFlight (s.ownerCmd z) a.kind 0 (s.comp (s.zoneComp z)).res.cls (some z) with ticket := some (inst, n) }

/-- The state in which a reel's zone action is carried out: the unit holds it, and its flight is added. -/
def State.actionHeld (s : State) (c inst n z : Nat) (a : ZAct) : State :=
  ((s.addOp c inst n (.zone (s.reelFlight inst n z a).id)).admitted (s.zoneComp z)).addFlight (s.reelFlight inst n z a)

end Sys2Proof.Machine

namespace Sys2Proof.Proofs

open Sys2Proof Sys2Proof.Machine

/-- A reel may act on the zone of g[a], which is in no pair and which no command works on. -/
structure MayAct (s : State) (w : KWord) (k : KCtx) (n : Nat) : Prop where
  fresh : FreshPosition k
  lowest : LowestFree k n
  ready : Ready s { op := 0x64, useD := false, useA := true, useB := false, mask := 0xF } false w k
  granted : Granted s k (some 1)
  listed : s.zoneExists (regA k w).toNat = true
  mine : k.comp = 0 ∨ s.zoneComp (regA k w).toNat = k.comp
  thawed : s.frozen (s.zoneComp (regA k w).toNat) = false
  pair : s.zonePair (regA k w).toNat = none
  flights : ∀ x ∈ s.car.flights, x.zone ≠ some (regA k w).toNat ∧ x.id < s.car.nextFlight

section Act

variable {s t : State} {w : KWord} {k : KCtx} {n z c inst : Nat} {a : ZAct} {i : Instr}

theorem managing_reelFlight (s : State) (inst n z : Nat) (a : ZAct) : Managing (s.reelFlight inst n z a) z a :=
  ⟨rfl, rfl, ⟨rfl, rfl, rfl, rfl⟩, rfl⟩

theorem actionHeld_facts (s : State) (c inst n z : Nat) (a : ZAct) :
    (s.actionHeld c inst n z a).zns = s.zns ∧ (s.actionHeld c inst n z a).zonePair z = s.zonePair z ∧
    (s.actionHeld c inst n z a).frozen = s.frozen ∧ (s.actionHeld c inst n z a).zoneComp z = s.zoneComp z ∧
    (s.actionHeld c inst n z a).car.flights = s.car.flights ++ [s.reelFlight inst n z a] ∧
    (s.actionHeld c inst n z a).kry = { s.kry with ops := s.kry.ops ++
      [{ ctx := c, inst := inst, ticket := n, op := .zone s.car.nextFlight }] } := ⟨rfl, rfl, rfl, rfl, rfl, rfl⟩

theorem reelZone_eq (thawed : s.frozen (s.zoneComp z) = false) :
    s.reelZone c inst n z a = (s.actionHeld c inst n z a).zoneAct (s.reelFlight inst n z a) z a := by
  rw [State.reelZone]
  simp only [thawed]
  rfl

/-- The run of ZCTL up to its action. -/
theorem zctl_acts {name : String} {sub : Nat} (run : exec i s = runZctl s name sub a w) (m : MayAct s w k n) (hsub : w.mod.toNat = sub) :
    exec i s = .next ((((s.reelIssues w.ctx).setKctx w.ctx (some (asking k 0x64 w n))).reelZone w.ctx k.inst n (regA k w).toNat a).retire_
      w.ctx (k.pc + 8)) := by
  have selected : selects w sub = true := decide_eq_true ((modSel_eq m.ready.form (Nat.le_refl _)).trans hsub)
  have mine : s.tableOpen 0 (regA k w).toNat k.comp = true := by simpa [State.tableOpen] using m.mine
  have run' : exec i s = s.runTicket name formZctl w (fun k => s.unitTraps k (some 1) [])
      (fun k => [(!s.zoneExists (regA k w).toNat, 0x08, 1), (!s.tableOpen 0 (regA k w).toNat k.comp, 0x08, 5)]) (fun _ => [])
      (fun k t s => s.reelZone w.ctx k.inst t (regA k w).toNat a) := by
    rw [run, runZctl, selected]
    exact if_neg Bool.false_ne_true
  have open_ : firstTrap [(!s.zoneExists (regA k w).toNat, 0x08, 1), (!s.tableOpen 0 (regA k w).toNat k.comp, 0x08, 5)] = none :=
    (firstTrap_cons_held (by rw [m.listed]; rfl)).trans (firstTrap_cons_held (by rw [mine]; rfl))
  exact runTicket_asks run' m.ready m.fresh m.lowest (firstTrap_unitTraps m.granted) open_ rfl

/-- The unit carries out the action of ZCTL in `u`, with the flight `v` for it. -/
structure Carries (s : State) (w : KWord) (k : KCtx) (n : Nat) (a : ZAct) (u : State) (v : Flight) : Prop where
  managing : Managing v (regA k w).toNat a
  ticket : v.ticket.isSome = true
  id : v.id = s.car.nextFlight
  zns : u.zns = s.zns
  pair : u.zonePair (regA k w).toNat = none
  thawed : u.frozen (u.zoneComp (regA k w).toNat) = false
  flights : u.car.flights = s.car.flights ++ [v]
  ctx : u.kctx w.ctx = some (asking k 0x64 w n)
  ops : u.kry.ops = s.kry.ops ++ [{ ctx := w.ctx, inst := k.inst, ticket := n, op := .zone v.id }]
  insts : u.kry.insts = s.kry.insts

theorem zctl_carries {name : String} {sub : Nat} (run : exec i s = runZctl s name sub a w) (m : MayAct s w k n) (hsub : w.mod.toNat = sub) :
    ∃ u v, exec i s = .next ((u.zoneAct v (regA k w).toNat a).retire_ w.ctx (k.pc + 8)) ∧ Carries s w k n a u v := by
  obtain ⟨q, hq⟩ : ∃ q, q = (s.reelIssues w.ctx).setKctx w.ctx (some (asking k 0x64 w n)) := ⟨_, rfl⟩
  have go := zctl_acts run m hsub
  have thawed : q.frozen (q.zoneComp (regA k w).toNat) = false := by rw [hq]; exact m.thawed
  have pair : q.zonePair (regA k w).toNat = none := by rw [hq]; exact m.pair
  have car : q.car = s.car := by rw [hq]; rfl
  rw [← hq, reelZone_eq thawed] at go
  obtain ⟨zns, pair', frozen, comp, flights, kry⟩ := actionHeld_facts q w.ctx k.inst n (regA k w).toNat a
  refine ⟨_, _, go, managing_reelFlight _ _ _ _ _, rfl, congrArg Carriages.nextFlight car, zns.trans (by rw [hq]; rfl), pair'.trans pair,
    by rw [frozen, comp]; exact thawed, by rw [flights, car], ?_, ?_, ?_⟩
  · rw [State.kctx, kry, hq]
    exact kctx_setKctx _ _ _
  · rw [kry, hq]
    rfl
  · rw [kry, hq]
    rfl

/-- What is posted to the contexts when the flight ends. -/
theorem kctx_postFlight {v : Flight} {q : KCtx} (m : Managing v z a) (ticket : v.ticket.isSome = true) (st : Status) (h : t.kctx c = some q) :
    ∃ q', (t.postFlight { v with status := st }).kctx c = some q' ∧ PostedTo q q' := by
  rw [postFlight_managing m, if_pos ticket]
  exact answerOps_ctx _ _ h

theorem zoneAfter_of_zns (h : t.zns = s.zns) : t.zoneAfter z a = s.zoneAfter z a := by
  have zone : t.zone z = s.zone z := by rw [State.zone, h]; rfl
  have direct : t.defaultDirect z = s.defaultDirect z := by simp only [State.defaultDirect, zone, State.groupPgroup, State.pgroup, h]
  unfold State.zoneAfter
  rw [zone, direct]

namespace Carries

variable {u : State} {v : Flight} (held : Carries s w k n a u v) (m : MayAct s w k n)

include held

theorem mem {x : Flight} : x ∈ u.car.flights ↔ x ∈ s.car.flights ∨ x = v := by
  rw [held.flights, List.mem_append, List.mem_singleton]

include m

theorem ids : ∀ x ∈ u.car.flights, x.id = v.id → x = v := fun x hx e =>
  (held.mem.1 hx).elim (fun old => absurd (e.trans held.id) (Nat.ne_of_lt (m.flights x old).2)) fun mine => mine

theorem only : ∀ x ∈ u.car.flights, x.zone = some (regA k w).toNat → x = v := fun x hx e =>
  (held.mem.1 hx).elim (fun old => absurd e (m.flights x old).1) fun mine => mine

end Carries

/-- A zone action that nothing refuses takes a ticket and effect. -/
theorem zctl_takes {name : String} {sub : Nat} (run : exec i s = runZctl s name sub a w) (m : MayAct s w k n) (hsub : w.mod.toNat = sub)
    (tables : canon Zone.none s.zns.zones = true) (from_ : a.from_ (s.zone (regA k w).toNat).state = true)
    (opens : a = .open_ → (s.zone (regA k w).toNat).state ≠ .empty) (finishes : a = .finish → (s.zone (regA k w).toNat).state = .empty) :
    Goes i s (fun t => (∃ k', t.kctx w.ctx = some k' ∧ Accepted k k' 0x64 w n) ∧
      t.zone (regA k w).toNat = s.zoneAfter (regA k w).toNat a ∧ ∀ y, y ≠ (regA k w).toNat → t.zone y = s.zone y) := by
  obtain ⟨u, v, go, held⟩ := zctl_carries run m hsub
  have zone : ∀ y, u.zone y = s.zone y := fun y => by rw [State.zone, held.zns]; rfl
  rw [← zone] at from_ opens finishes
  obtain ⟨e, acts, zones, ctxs⟩ := zoneAct_effect held.managing held.pair (held.mem.2 (.inr rfl)) (held.ids m) (held.only m)
    (zoneRefusal_none held.thawed from_ opens) opens finishes
  obtain ⟨k', here, posted⟩ := kctx_postFlight (t := e) held.managing held.ticket .success
    ((congrArg (look none · w.ctx) ctxs).trans held.ctx)
  have media := (postFlight_media (u := e) held.managing .success).1
  rw [held.managing.succeeds] at here media
  rw [zoneAfter_of_zns held.zns, held.zns] at zones
  rw [acts, retire_eq here] at go
  refine ⟨_, go, ⟨_, look_put_of_ne _ _ _ _ (Option.some_ne_none _), accepted_of_posted posted⟩, ?_, fun y hy => ?_⟩
  · exact (congrArg (fun q : Zones => look Zone.none q.zones _) media).trans (by rw [zones]; exact look_put _ _ _ _ tables)
  · exact (congrArg (fun q : Zones => look Zone.none q.zones _) media).trans (by rw [zones]; exact look_put_other _ _ _ _ _ hy)

theorem posted_new (k : KCtx) (op : Nat) (w : KWord) (n st : Nat) :
    ∃ x ∈ (State.posted (asking k op w n) n (State.answer st 0)).tickets, x.num = n ∧ x.done = some (st, 0) := by
  have taken : (asking k op w n).tickets =
      (k.tickets ++ [({ num := n, done := none, dmaFault := none, scratch := [] } : Ticket)]).filter (fun t => decide (some t.num ≠ none)) := rfl
  refine ⟨{ State.answer st 0 with num := n }, List.mem_map.2 ⟨{ num := n, done := none, dmaFault := none, scratch := [] }, ?_, if_pos ⟨rfl, rfl⟩⟩,
    rfl, rfl⟩
  rw [taken]
  simp

/-- A zone action without a transition completes its ticket with Invalid Zone State Transition and changes no zone. -/
theorem zctl_refused {name : String} {sub : Nat} {q : KInst} (run : exec i s = runZctl s name sub a w) (m : MayAct s w k n)
    (inst : s.kinst k.inst = some q) (ctx : q.ctx = w.ctx) (ops : ∀ o ∈ s.kry.ops, ∀ f, o.op = .zone f → f < s.car.nextFlight)
    (hsub : w.mod.toNat = sub) (from_ : a.from_ (s.zone (regA k w).toNat).state = false) :
    Goes i s (fun t => t.zns = s.zns ∧ ∃ k', t.kctx w.ctx = some k' ∧
      Accepted k k' 0x64 w n ∧ ∃ x ∈ k'.tickets, x.num = n ∧ x.done = some (Status.invalidTransition.code, 0)) := by
  obtain ⟨u, v, go, held⟩ := zctl_carries run m hsub
  have refused : u.zoneRefusal (regA k w).toNat a = some .invalidTransition := by
    have zone : u.zone (regA k w).toNat = s.zone (regA k w).toNat := by rw [State.zone, held.zns]; rfl
    rw [State.zoneRefusal, zone, from_]
    rfl
  obtain ⟨zns, kry, -⟩ := removeFlight_kept (u := u) held.managing.notFrame
  have mine : u.kry.ops.filter (fun o => decide (o.op = .zone v.id)) =
      [{ ctx := w.ctx, inst := k.inst, ticket := n, op := .zone v.id }] := by
    rw [held.ops, List.filter_append, List.filter_eq_nil_iff.2]
    · simp
    · intro o ho
      simpa using fun e => absurd held.id (Nat.ne_of_lt (ops o ho _ e))
  have acts : u.zoneAct v (regA k w).toNat a =
      ({ u.removeFlight v with kry := { u.kry with ops := u.kry.ops.filter (fun o => !decide (o.op = .zone v.id)) } } : State).setKctx w.ctx
        (some (State.posted (asking k 0x64 w n) n (State.answer Status.invalidTransition.code 0))) := by
    rw [zoneAct_refused held.pair refused, State.endZone, postFlight_managing held.managing, if_pos held.ticket, State.answerOps, kry, mine]
    show State.postTicket _ _ _ _ = _
    have inst' : ({ u.removeFlight v with kry := { u.kry with ops := u.kry.ops.filter (fun o => !decide (o.op = .zone v.id)) } } : State).kinst
        k.inst = some q := (congrArg (look none · k.inst) held.insts).trans inst
    have ctx' : ({ u.removeFlight v with kry := { u.kry with ops := u.kry.ops.filter (fun o => !decide (o.op = .zone v.id)) } } : State).kctx
        q.ctx = some (asking k 0x64 w n) := by rw [ctx]; exact held.ctx
    rw [State.postTicket, inst']
    dsimp only
    rw [ctx', ctx]
  have here := congrArg (State.kctx · w.ctx) acts
  rw [kctx_setKctx] at here
  rw [retire_eq here, acts] at go
  exact ⟨_, go, zns.trans held.zns, _, look_put_of_ne _ _ _ _ (Option.some_ne_none _), accepted_of_posted (postedTo_posted _ _ _),
    posted_new _ _ _ _ _⟩

end Act

/-- Settles O21: each action takes effect as R66 says for the state of its zone. -/
theorem zoneActionsOfReelsTakeEffect : Obligations.ZoneActionsOfReelsTakeEffect := by
  intro s w k n fresh lowest ready granted listed mine thawed pair flights tables
  have m : MayAct s w k n := ⟨fresh, lowest, ready, granted, listed, mine, thawed, pair, flights⟩
  refine ⟨fun sub st => ?_, fun sub st wrote => ?_, fun sub st wrote => ?_, fun sub st => ?_, fun sub st => ?_, fun sub st => ?_⟩
  · simp only [List.mem_cons, List.not_mem_nil, or_false] at st
    exact zctl_takes (i := .zctlOpen w) (w := w) (name := "ZCTL_OPEN") (s := s) (show execZctlOpen w s = _ from rfl) m sub tables (decide_eq_true (.inr st)) (fun _ e => by simp [e] at st) nofun
  · simp only [List.mem_cons, List.not_mem_nil, or_false] at st
    obtain ⟨t, go, accepted, zone, others⟩ := zctl_takes (i := .zctlClose w) (w := w) (name := "ZCTL_CLOSE") (s := s) (show execZctlClose w s = _ from rfl) m sub tables (decide_eq_true (st.imp_right .inl)) nofun nofun
    exact ⟨t, go, accepted, zone.trans (if_neg fun e => absurd e.2 (Nat.ne_of_gt wrote)), others⟩
  · obtain ⟨t, go, accepted, zone, others⟩ := zctl_takes (i := .zctlClose w) (w := w) (name := "ZCTL_CLOSE") (s := s) (show execZctlClose w s = _ from rfl) m sub tables (decide_eq_true (.inr (.inl st))) nofun nofun
    rw [State.zoneAfter, if_pos ⟨st, wrote⟩] at zone
    exact ⟨t, go, accepted, by rw [zone]; exact ⟨rfl, rfl, rfl⟩, others⟩
  · obtain ⟨t, go, accepted, zone, others⟩ := zctl_takes (i := .zctlFinish w) (w := w) (name := "ZCTL_FINISH") (s := s) (show execZctlFinish w s = _ from rfl) m sub tables (by rw [st]; rfl) nofun (fun _ => st)
    exact ⟨t, go, accepted, by rw [zone]; exact ⟨rfl, rfl⟩, others⟩
  · simp only [List.mem_cons, List.not_mem_nil, or_false] at st
    obtain ⟨t, go, accepted, zone, others⟩ := zctl_takes (i := .zctlReset w) (w := w) (name := "ZCTL_RESET") (s := s) (show execZctlReset w s = _ from rfl) m sub tables
      (decide_eq_true ⟨fun e => by simp [e] at st, fun e => by simp [e] at st⟩) nofun nofun
    exact ⟨t, go, accepted, by rw [zone]; exact ⟨rfl, rfl, rfl, rfl⟩, others⟩
  · obtain ⟨t, go, accepted, zone, others⟩ := zctl_takes (i := .zctlOffline w) (w := w) (name := "ZCTL_OFFLINE") (s := s) (show execZctlOffline w s = _ from rfl) m sub tables (by rw [st]; rfl) nofun nofun
    exact ⟨t, go, accepted, by rw [zone]; exact ⟨rfl, rfl⟩, others⟩

/-- Settles O22: an action has no transition from the states that R66 does not give it. -/
theorem zoneActionsWithoutTransitionChangeNoZone : Obligations.ZoneActionsWithoutTransitionChangeNoZone := by
  intro s w k n q fresh lowest ready granted inst ctx listed mine thawed pair flights ops
  have m : MayAct s w k n := ⟨fresh, lowest, ready, granted, listed, mine, thawed, pair, flights⟩
  refine ⟨fun sub st => ?_, fun sub st => ?_, fun sub st => ?_, fun sub st => ?_, fun sub st => ?_⟩
  · refine zctl_refused (a := .open_) (name := "ZCTL_OPEN") (show execZctlOpen w s = _ from rfl) m inst ctx ops sub ?_
    simp only [List.mem_cons, List.not_mem_nil, or_false] at st
    rcases st with e | e | e <;> rw [e] <;> rfl
  · refine zctl_refused (a := .close) (name := "ZCTL_CLOSE") (show execZctlClose w s = _ from rfl) m inst ctx ops sub ?_
    simp only [List.mem_cons, List.not_mem_nil, or_false] at st
    rcases st with e | e | e | e <;> rw [e] <;> rfl
  · refine zctl_refused (a := .finish) (name := "ZCTL_FINISH") (show execZctlFinish w s = _ from rfl) m inst ctx ops sub ?_
    simp only [List.mem_cons, List.not_mem_nil, or_false] at st
    rcases st with e | e <;> rw [e] <;> rfl
  · refine zctl_refused (a := .reset) (name := "ZCTL_RESET") (show execZctlReset w s = _ from rfl) m inst ctx ops sub ?_
    simp only [List.mem_cons, List.not_mem_nil, or_false] at st
    rcases st with e | e <;> rw [e] <;> rfl
  · exact zctl_refused (a := .offline) (name := "ZCTL_OFFLINE") (show execZctlOffline w s = _ from rfl) m inst ctx ops sub (decide_eq_false st)

end Sys2Proof.Proofs
end

section
/-! SUPPORT. What programs, journal units, checkpoints, staging and zones that close leave as it was (R115, R206, R207, R306). -/

namespace Sys2Proof.Machine

open Sys2Proof

/-- What programs, the journal, staging and zones that close leave as it was: the start-up state, the mount, the levels of protection,
the carriages' table and the flights, the contexts, and whether a checkpoint runs. -/
structure Stand where
  boot : Boot
  mnt : Mount
  sec : Security
  table : SMap Carriage
  flights : List Flight
  ctxs : SMap (Option KCtx)
  running : Bool

def State.stand (s : State) : Stand :=
  { boot := s.boot, mnt := s.mnt, sec := s.sec, table := s.car.table, flights := s.car.flights, ctxs := s.kry.ctxs, running := s.jrn.running }

/-- An update of other components. -/
theorem stand_mk (s : State) (part pins pwr plog tim thm fan lvl zns fls nv nvNext bpm mem cmp fcd hif cpl svc free pending) :
    (State.mk part s.boot pins pwr plog tim thm fan lvl zns s.car fls s.mnt s.jrn nv nvNext bpm mem cmp fcd s.kry hif cpl s.sec svc free
      pending).stand = s.stand := by rfl

/-- An update of other fields of the components. -/
theorem stand_sec (s : State) (part pins pwr plog tim thm fan lvl zns fls nv nvNext bpm mem cmp fcd hif cpl svc free pending)
    (car : Carriages) (jrn : Journal) (kry : Reels) (hc : car.table = s.car.table) (hf : car.flights = s.car.flights) (hj : jrn.running = s.jrn.running)
    (hk : kry.ctxs = s.kry.ctxs) :
    (State.mk part s.boot pins pwr plog tim thm fan lvl zns car fls s.mnt jrn nv nvNext bpm mem cmp fcd kry hif cpl s.sec svc free
      pending).stand = s.stand := by
  simp only [State.stand, hc, hf, hj, hk]

theorem stand_ite (c : Prop) [Decidable c] (s t : State) : (if c then s else t).stand = if c then s.stand else t.stand :=
  apply_ite _ _ _ _

theorem stand_foldl {α : Type} (f : State → α → State) (h : ∀ s a, (f s a).stand = s.stand) (l : List α) :
    ∀ s, (l.foldl f s).stand = s.stand := by
  induction l with
  | nil => exact fun _ => rfl
  | cons a l ih => exact fun s => (ih _).trans (h s a)

theorem stand_getD {o : Option State} {s : State} (h : ∀ t, o = some t → t.stand = s.stand) : (o.getD s).stand = s.stand := by
  cases o with
  | none => rfl
  | some t => exact h t rfl

theorem stand_of_eventFrame {s t : State} (h : EventFrame s t) : t.stand = s.stand := by
  unfold State.stand
  rw [h.rest]

theorem stand_times (f : State → State) (h : ∀ t, (f t).stand = t.stand) : ∀ n s, (times f n s).stand = s.stand
  | 0, _ => rfl
  | n + 1, s => (stand_times f h n _).trans (h s)

theorem State.setZone_stand (s : State) (z) (v) : (State.setZone s z v).stand = s.stand := by rfl

theorem State.setComp_stand (s : State) (c) (v) : (State.setComp s c v).stand = s.stand := by rfl

theorem State.setDie_stand (s : State) (d) (v) : (State.setDie s d v).stand = s.stand := by rfl

theorem State.setBlock_stand (s : State) (d) (b) (v) : (State.setBlock s d b v).stand = s.stand := by rfl

theorem State.setPort_stand (s : State) (p) (v) : (State.setPort s p v).stand = s.stand := by
  simp only [State.setPort, stand_sec, stand_ite, ite_self]

theorem State.emit_stand (s : State) (o) : (State.emit s o).stand = s.stand := by rfl

theorem State.startClocks_stand (s : State) (mask) : (State.startClocks s mask).stand = s.stand := by rfl

theorem State.startClock_stand (s : State) (d) : (State.startClock s d).stand = s.stand := by rfl

theorem State.interrupt_stand (s : State) (port) (vector) : (State.interrupt s port vector).stand = s.stand :=
  stand_of_eventFrame (interrupt_frame _ _ _)

theorem State.toStewardRing_stand (s : State) (e) : (State.toStewardRing s e).stand = s.stand :=
  stand_of_eventFrame (toStewardRing_frame _ _)

theorem State.compIrq_stand (s : State) (c) (bit) : (State.compIrq s c bit).stand = s.stand :=
  stand_of_eventFrame (compIrq_frame _ _ _)

theorem State.toCompRing_stand (s : State) (e) : (State.toCompRing s e).stand = s.stand :=
  stand_of_eventFrame (toCompRing_frame _ _)

theorem State.toReels_stand (s : State) (e) : (State.toReels s e).stand = s.stand := by rfl

theorem State.raise_stand (s : State) (code) (level) (source) (c) (p) : (State.raise s code level source c p).stand = s.stand :=
  stand_of_eventFrame (raise_frame _ _ _ _ _ _)

theorem State.event_stand (s : State) (code) (level) (source) (c) (fields) :
    (State.event s code level source c fields).stand = s.stand := stand_of_eventFrame (event_frame _ _ _ _ _ _)

theorem State.modQueues_stand (s : State) (f : Queue → Bool) (g : Queue → Queue) : (State.modQueues s f g).stand = s.stand :=
  by rfl

theorem State.cqPush_stand (s : State) (h) : (State.cqPush s h).stand = s.stand := by rfl

theorem State.logError_stand (s : State) (h) (e) : (State.logError s h e).stand = s.stand :=
  stand_of_eventFrame (logError_frame _ _ _)

theorem State.complete_stand (s : State) (h) (st) (dw0) (dw1) : (State.complete s h st dw0 dw1).stand = s.stand :=
  stand_of_eventFrame (complete_frame _ _ _ _ _)

theorem State.done_stand (s : State) (h) (dw0) : (State.done s h dw0).stand = s.stand := stand_of_eventFrame (done_frame _ _ _)

theorem State.portAsync_stand (s : State) (p) (bit) (type) (info) (page) :
    (State.portAsync s p bit type info page).stand = s.stand := by
  simp only [State.portAsync, stand_ite]
  repeat' split
  all_goals simp only [State.done_stand, State.setPort_stand]

theorem State.compAsync_stand (s : State) (c) (bit) (type) (info) (page) :
    (State.compAsync s c bit type info page).stand = s.stand := by
  unfold State.compAsync; repeat' split
  all_goals simp only [stand_sec, State.done_stand]

theorem State.warning_stand (s : State) (bit) (info) : (State.warning s bit info).stand = s.stand := by
  simp only [State.warning, stand_foldl, implies_true, State.compAsync_stand, State.portAsync_stand]

theorem State.draw_stand (s : State) : (State.draw s).stand = s.stand := by rfl

theorem State.layPage_stand (s : State) (d) (b) (p) (data) (r) : (State.layPage s d b p data r).stand = s.stand := by
  simp only [State.layPage, stand_sec]

theorem State.layPages_stand (s : State) (d) (b) (p) (pages) : (State.layPages s d b p pages).stand = s.stand := by
  simp only [State.layPages, stand_foldl, implies_true, State.layPage_stand]

theorem State.takeSeq_stand (s : State) (n) : (State.takeSeq s n).2.stand = s.stand := by
  unfold State.takeSeq
  extract_lets a e _ s1
  have h1 : s1.stand = s.stand := rfl
  simp only [apply_ite State.stand, State.event_stand, h1, ite_self]

theorem State.sealPages_stand (s : State) (d) (b) (p) (n) (flush) (fresh : ℕ → Bool) :
    (State.sealPages s d b p n flush fresh).stand = s.stand := by
  simp only [State.sealPages, stand_sec, State.takeSeq_stand]

theorem State.spareEvents_stand (s : State) (d) (before) : (State.spareEvents s d before).stand = s.stand := by
  simp only [State.spareEvents, stand_ite, ite_self, State.warning_stand, State.event_stand]

theorem State.withSpares_stand (s : State) (d) (f : State → State) (hf : ∀ t, (f t).stand = t.stand) :
    (State.withSpares s d f).stand = s.stand := by
  simp only [State.withSpares, State.spareEvents_stand, hf]

theorem State.charge_stand (s : State) (cluster) (c) (ns) : (State.charge s cluster c ns).stand = s.stand := by rfl

theorem State.chargeUnit_stand (s : State) (cluster) (r) (k) (ns) : (State.chargeUnit s cluster r k ns).stand = s.stand := by
  unfold State.chargeUnit; repeat' split
  all_goals simp only [stand_ite, stand_foldl, ite_self, implies_true, State.charge_stand]

theorem State.queueRefresh_stand (s : State) (d) (b) : (State.queueRefresh s d b).stand = s.stand := by
  simp only [State.queueRefresh, stand_sec, stand_ite, ite_self]

theorem State.readLimit_stand (s : State) (d) (b) : (State.readLimit s d b).stand = s.stand := by
  simp only [State.readLimit, stand_ite, ite_self, State.queueRefresh_stand]

theorem State.countReads_stand (s : State) (d) (b) (n) : (State.countReads s d b n).stand = s.stand := by
  simp only [State.countReads, State.readLimit_stand, State.setBlock_stand]

theorem State.noteStart_stand (s : State) (d) (e) : (State.noteStart s d e).stand = s.stand := by
  unfold State.noteStart; repeat' split
  all_goals simp only [State.countReads_stand, State.setBlock_stand, State.sealPages_stand]

theorem State.addReadUs_stand (s : State) (cluster) (us) : (State.addReadUs s cluster us).stand = s.stand := by rfl

theorem State.startEntry_stand (s : State) (d) (e) : (State.startEntry s d e).stand = s.stand := by
  unfold State.startEntry; repeat' split
  all_goals simp only [State.setDie_stand, State.startClock_stand, State.noteStart_stand, State.chargeUnit_stand,
      State.charge_stand, State.addReadUs_stand]

theorem State.markCapWait_stand (s : State) (d) (e) : (State.markCapWait s d e).stand = s.stand := by rfl

theorem State.refuseEntry_stand (s : State) (d) (e) : (State.refuseEntry s d e).stand = s.stand := by rfl

theorem State.takeNext_stand (d : Nat) : ∀ (n : Nat) (s : State), (State.takeNext n s d).stand = s.stand
  | 0, _ => rfl
  | n + 1, s => by
    unfold State.takeNext
    repeat' split
    · simp only [State.takeNext_stand d n, State.refuseEntry_stand]
    · simp only [State.startEntry_stand]
    · simp only [State.markCapWait_stand]
    · rfl

theorem State.dieNext_stand (s : State) (d) : (State.dieNext s d).stand = s.stand := by
  simp only [State.dieNext, stand_ite, ite_self, State.takeNext_stand]

theorem State.enqueue_stand (s : State) (d) (e) : (State.enqueue s d e).stand = s.stand := by
  simp only [State.enqueue, State.dieNext_stand, State.startClock_stand, State.setDie_stand]

theorem State.unqueue_stand (s : State) (f : QEntry → Bool) : (State.unqueue s f).stand = s.stand := by rfl

theorem State.deferErase_stand (s : State) (d) (b) (next) : (State.deferErase s d b next).stand = s.stand := by
  simp only [State.deferErase, stand_ite, ite_self, State.setDie_stand, State.setBlock_stand]

theorem State.takeSpare_stand {s : State} {d} {role} {use} {i t} (h : State.takeSpare s d role use = some (i, t)) :
    t.stand = s.stand := by
  unfold State.takeSpare at h
  repeat' split at h
  all_goals cases h
  exact State.withSpares_stand _ _ _ fun u => State.setBlock_stand u _ _ _

theorem State.setLandRow_stand (s : State) (r) (v) : (State.setLandRow s r v).stand = s.stand := by rfl

theorem State.pinCheck_stand (s : State) : (State.pinCheck s).stand = s.stand := by
  simp only [State.pinCheck, stand_sec, stand_ite, ite_self, State.warning_stand, State.event_stand]

theorem State.freshLanding_stand {s : State} {d} {reserve} {i t} (h : State.freshLanding s d reserve = some (i, t)) :
    t.stand = s.stand := by
  unfold State.freshLanding at h
  extract_lets at h
  repeat' split at h
  all_goals cases h
  all_goals simp +zetaDelta only [State.setDie_stand, State.setBlock_stand]

theorem State.landingPlace_stand {s : State} {d} {reserve} {i j t} (h : State.landingPlace s d reserve = some (i, j, t)) :
    t.stand = s.stand := by
  unfold State.landingPlace at h
  extract_lets opened at h
  have ho : ∀ b u, opened = some (b, u) → u.stand = s.stand := fun b u e => by
    simp only [opened] at e
    split at e
    · cases e; rfl
    · exact State.freshLanding_stand e
  clear_value opened
  split at h
  · cases h
  next b u =>
    have hu := ho b u rfl
    extract_lets pg at h
    clear_value pg
    split at h <;> cases h <;> simp only [State.setDie_stand, State.setBlock_stand, hu]

theorem State.setPool_stand (s : State) (r) (v) : (State.setPool s r v).stand = s.stand := by
  unfold State.setPool; repeat' split
  all_goals simp only [stand_sec]

theorem State.levelEvent_stand (s : State) (r) (lvl) (entered) : (State.levelEvent s r lvl entered).stand = s.stand := by
  simp only [State.levelEvent, State.event_stand]

theorem State.levels_stand (s : State) (r) : (State.levels s r).stand = s.stand := by
  simp only [State.levels, stand_ite, stand_foldl, ite_self, implies_true, State.setPool_stand, State.levelEvent_stand]

theorem State.refillFloors_stand (s : State) : (State.refillFloors s).stand = s.stand := by
  unfold State.refillFloors; repeat' split
  all_goals simp only [State.setComp_stand]

theorem State.giveSeg_stand (s : State) (i) (gone) : (State.giveSeg s i gone).stand = s.stand := by
  simp only [State.giveSeg, stand_sec, State.levels_stand, State.refillFloors_stand]

theorem State.loseReplica_stand (s : State) (i) (r) : (State.loseReplica s i r).stand = s.stand := by
  simp only [State.loseReplica, stand_sec, stand_ite, ite_self, State.event_stand]

theorem State.setStoreHead_stand (s : State) (w) : (State.setStoreHead s w).stand = s.stand := by rfl

theorem State.popStore_stand (s : State) : (State.popStore s).stand = s.stand := by rfl

theorem State.answerCmd_stand (s : State) (h) (st) : (State.answerCmd s h st).stand = s.stand := by
  unfold State.answerCmd; repeat' split
  all_goals simp only [State.complete_stand]

theorem State.storeIssue_stand (s : State) (w) : (State.storeIssue s w).stand = s.stand := by
  simp only [State.storeIssue, State.enqueue_stand, State.layPages_stand, State.setStoreHead_stand]

theorem State.storeSpare_stand (s : State) (r) (i) : (State.storeSpare s r i).stand = s.stand := by
  simp only [State.storeSpare, stand_ite]
  repeat' split
  all_goals simp only [stand_sec]
  all_goals exact State.takeSpare_stand ‹_›

theorem State.storeGo_stand {s0 : State} {w} {t} (h : State.storeGo s0 w = some t) : t.stand = s0.stand := by
  unfold State.storeGo at h
  extract_lets at h
  repeat' split at h
  all_goals cases h
  all_goals simp +zetaDelta only [stand_ite, stand_foldl, ite_self, implies_true, State.storeSpare_stand,
      State.storeIssue_stand, State.setStoreHead_stand, State.enqueue_stand]

theorem State.storeEnd_stand (s : State) (w) : (State.storeEnd s w).stand = s.stand := by
  simp only [State.storeEnd, State.answerCmd_stand, State.event_stand, State.popStore_stand]

theorem State.storeRun_stand : ∀ (n : Nat) (s : State), (State.storeRun n s).stand = s.stand
  | 0, _ => rfl
  | n + 1, s => by
    unfold State.storeRun
    repeat' split
    · rfl
    · simp only [State.storeRun_stand n, State.answerCmd_stand]
      rfl
    · simp only [State.storeRun_stand n, State.answerCmd_stand]
      rfl
    · simp only [State.storeRun_stand n, State.answerCmd_stand, State.popStore_stand]
    · exact State.storeGo_stand ‹_›
    · simp only [State.storeRun_stand n, State.storeEnd_stand]
    · simp only [State.storeRun_stand n, State.answerCmd_stand, State.popStore_stand]
    · exact State.storeGo_stand ‹_›
    · simp only [State.storeRun_stand n, State.storeEnd_stand]

theorem State.storeSkips_stand (s : State) (w) (a) (b) : (State.storeSkips s w a b).stand = s.stand := by
  simp only [State.storeSkips, stand_ite, stand_foldl, ite_self, implies_true, State.loseReplica_stand]

theorem State.storeNext_stand (s0 : State) (w) : (State.storeNext s0 w).stand = s0.stand := by
  unfold State.storeNext
  extract_lets s1
  have h1 : s1.stand = s0.stand := by
    simp only [s1]
    repeat' split
    all_goals simp only [State.storeSkips_stand]
  clear_value s1
  split
  · next h => exact (State.storeGo_stand h).trans h1
  · exact (State.storeRun_stand _ _).trans ((State.storeEnd_stand _ _).trans h1)

theorem State.storeLive_stand (s : State) (w) : (State.storeLive s w).stand = s.stand := by rfl

theorem State.storeProgrammed_stand (s : State) : (State.storeProgrammed s).stand = s.stand := by
  unfold State.storeProgrammed; repeat' split
  all_goals simp only [State.storeIssue_stand, State.storeNext_stand, State.storeLive_stand]

theorem State.layLanding_stand (s : State) (n) (c) (us) (pages) (d) (b) (pg) :
    (State.layLanding s n c us pages d b pg).stand = s.stand := by
  simp only [State.layLanding, State.layPages_stand]

theorem State.programNow_stand (s : State) (d) (b) (pages) (flush) : (State.programNow s d b pages flush).stand = s.stand := by
  simp only [State.programNow, State.noteStart_stand, State.layPages_stand]

theorem State.journalBlocks_stand (s : State) : (State.journalBlocks s).stand = s.stand := by
  simp only [State.journalBlocks, stand_sec, stand_ite, ite_self]

theorem State.journalWrite_stand (s : State) (flush) : (State.journalWrite s flush).stand = s.stand := by
  simp only [State.journalWrite, stand_foldl, implies_true, State.journalBlocks_stand, State.programNow_stand]

theorem State.journalProgrammed_stand (s : State) : (State.journalProgrammed s).stand = s.stand := by
  simp only [State.journalProgrammed, stand_sec, stand_ite, ite_self]

theorem State.ckptBlocks_stand (s : State) : (State.ckptBlocks s).stand = s.stand := by
  simp only [State.ckptBlocks, stand_sec, stand_ite, ite_self]

theorem State.ckptStripe_stand (s : State) : (State.ckptStripe s).stand = s.stand := by
  simp only [State.ckptStripe, stand_sec, stand_foldl, implies_true, State.ckptBlocks_stand, State.enqueue_stand,
      State.layPages_stand]

theorem State.ckptProgrammed_stand (s : State) : (State.ckptProgrammed s).stand = s.stand := by
  simp only [State.ckptProgrammed, stand_ite, ite_self, State.ckptStripe_stand]

theorem State.freeSystem_stand (s : State) (l) : (State.freeSystem s l).stand = s.stand := by
  simp only [State.freeSystem, stand_foldl, implies_true, State.deferErase_stand]

theorem State.journal_stand (s : State) : (State.journal s).stand = s.stand := by
  simp only [State.journal, stand_sec, State.takeSeq_stand]

theorem State.dropData_stand (s : State) (z) (u) : (State.dropData s z u).stand = s.stand := by rfl

theorem State.dropPages_stand (s : State) (f : ℕ → Bool) : (State.dropPages s f).stand = s.stand := by rfl

theorem State.sweepLanding_stand (s : State) : (State.sweepLanding s).stand = s.stand := by
  simp only [State.sweepLanding, stand_sec, stand_foldl, implies_true, State.deferErase_stand]

theorem State.makeUnit_stand {s : State} {n} {c} {pages} {a} {purpose : ℕ → Purpose} {t} (h : State.makeUnit s n c pages a purpose = some t) : t.stand = s.stand := by
  unfold State.makeUnit at h
  repeat' split at h
  all_goals cases h
  all_goals simp only [State.setLandRow_stand, State.enqueue_stand, State.layLanding_stand]
  all_goals exact State.landingPlace_stand ‹_›

theorem State.rowFor_stand {s : State} {a} {ok : ℕ → LandRow → Bool} {fits : ℕ → Bool} {i t} (h : State.rowFor s a ok fits = some (i, t)) : t.stand = s.stand := by
  simp only [State.rowFor] at h
  repeat' split at h
  all_goals cases h
  all_goals simp +zetaDelta only [stand_sec, State.setLandRow_stand]

theorem State.rowForPage_stand {s : State} {a} {i t} (h : State.rowForPage s a = some (i, t)) : t.stand = s.stand := by
  simp only [State.rowForPage] at h
  exact State.rowFor_stand h

theorem State.addUnit_stand {s : State} {n} {c} {pages} {a} {purpose : ℕ → Purpose} {t} (h : State.addUnit s n c pages a purpose = some t) : t.stand = s.stand := by
  unfold State.addUnit at h
  repeat' split at h
  · cases h
  · cases h; exact State.makeUnit_stand ‹_›
  · exact (State.makeUnit_stand h).trans (State.makeUnit_stand ‹_›)
  · cases h; exact State.makeUnit_stand ‹_›

theorem State.fillUnit_stand {s : State} {n} {a} {purpose : ℕ → ℕ → Purpose} {t} (h : State.fillUnit s n a purpose = some t) :
    t.stand = s.stand := by
  unfold State.fillUnit at h
  split at h
  · cases h
  · exact (State.addUnit_stand h).trans (State.setLandRow_stand _ _ _)

theorem State.placePage_stand {s : State} {p} {a} {purpose : ℕ → ℕ → Purpose} {t} (h : State.placePage s p a purpose = some t) :
    t.stand = s.stand := by
  unfold State.placePage at h
  split at h
  · cases h
  next n u hu =>
    split at h
    · cases h
    next r _ =>
      have h1 := (State.setLandRow_stand u n (some { r with front := r.front ++ [p] })).trans (State.rowForPage_stand hu)
      split at h
      · exact (State.fillUnit_stand h).trans h1
      · cases h; exact h1

theorem State.placeSome_stand (s : State) (ps) (a) (purpose : ℕ → ℕ → Purpose) :
    (State.placeSome s ps a purpose).stand = s.stand :=
  stand_foldl _ (fun _ _ => stand_getD fun _ h => State.placePage_stand h) _ _

theorem State.closeFront_stand {s : State} {a} {purpose : ℕ → ℕ → Purpose} {t} (h : State.closeFront s a purpose = some t) :
    t.stand = s.stand := by
  simp only [State.closeFront] at h
  split at h
  · exact State.fillUnit_stand h
  · cases h
    rfl

theorem State.shadow_stand (s : State) (us) (flush) : (State.shadow s us flush).stand = s.stand :=
  (stand_getD fun _ h => State.closeFront_stand h).trans (State.placeSome_stand _ _ _ _)

theorem State.shadowAll_stand (s : State) (flush) : (State.shadowAll s flush).stand = s.stand := by
  simp only [State.shadowAll, State.shadow_stand]

theorem State.returnBlocks_stand (s : State) (z) : (State.returnBlocks s z).stand = s.stand := by
  simp only [State.returnBlocks, stand_ite, stand_foldl, ite_self, implies_true, State.setBlock_stand]

theorem State.dropRows_stand (s : State) (z) : (State.dropRows s z).stand = s.stand := by
  simp only [State.dropRows, stand_sec, stand_foldl, implies_true, State.unqueue_stand, State.dropPages_stand,
      State.deferErase_stand, State.pinCheck_stand, State.sweepLanding_stand]

theorem State.emptyZone_stand (s : State) (z) : (State.emptyZone s z).stand = s.stand := by
  simp only [State.emptyZone, State.journal_stand, State.setZone_stand, State.dropData_stand, State.dropRows_stand,
      State.returnBlocks_stand]

theorem State.convLeave_stand (s : State) (u) : (State.convLeave s u).stand = s.stand := by
  simp only [State.convLeave, stand_sec, stand_ite, ite_self]

theorem State.convUnland_stand (s : State) (u) : (State.convUnland s u).stand = s.stand := by rfl

theorem State.convMove_stand (s : State) (k) (m) : (State.convMove s k m).stand = s.stand := by
  simp only [State.convMove, stand_sec, stand_ite, ite_self, State.convUnland_stand, State.convLeave_stand]

theorem State.convSwitch_stand (s : State) (f) : (State.convSwitch s f).stand = s.stand := by
  simp only [State.convSwitch, stand_sec, stand_foldl, implies_true, State.sweepLanding_stand, State.convMove_stand]

theorem State.convProgrammed_stand (s : State) (row) (k) : (State.convProgrammed s row k).stand = s.stand := by
  unfold State.convProgrammed; repeat' split
  all_goals simp only [stand_sec, stand_ite, ite_self, State.convSwitch_stand]

theorem State.supersede_stand (s : State) (r) (k) (ps) : (State.supersede s r k ps).stand = s.stand := by rfl

theorem State.unitDone_stand (s0 : State) (r) (k) : (State.unitDone s0 r k).stand = s0.stand := by
  simp only [State.unitDone]
  repeat' split
  all_goals simp only [stand_sec, State.supersede_stand, State.setLandRow_stand]

theorem State.journalUnits_stand (s : State) (f : State → State) (hf : ∀ t, (f t).stand = t.stand) :
    (State.journalUnits s f).stand = s.stand := by
  exact stand_times (fun u => let w := f u; { w with jrn := { w.jrn with units := w.jrn.units + 1 } })
    (fun t => (show _ = (f t).stand from rfl).trans (hf t)) ((s.jrn.tail * 64 + 65535) / 65536) s

theorem State.journalNow_stand (s : State) : (State.journalNow s).stand = s.stand := by
  simp only [State.journalNow, stand_sec, implies_true, State.journalUnits_stand, State.journalWrite_stand]

theorem State.stopZone_stand (s : State) (z) : (State.stopZone s z).stand = s.stand := by
  simp only [State.stopZone, stand_ite, ite_self, State.emptyZone_stand, State.setZone_stand]

end Sys2Proof.Machine
end

section
/-! SUPPORT. O23: NSCTL delete and STOP under their tickets, and the end of an orderly stop (R40, R208, R297, R306). -/

namespace Sys2Proof.Proofs

open Sys2Proof Sys2Proof.Machine

section Programs

variable {s t u : State}

/-- What the programs that complete while no command is in flight leave: answers may be posted to reels, and all else that `stand` names
is as it was. -/
structure Calm (s t : State) : Prop where
  stand : { t.stand with ctxs := s.kry.ctxs } = s.stand
  posted : ∀ c k, s.kctx c = some k → ∃ k', t.kctx c = some k' ∧ PostedTo k k'

theorem Calm.of_stand (h : t.stand = s.stand) : Calm s t := by
  have ctxs : t.kry.ctxs = s.kry.ctxs := congrArg Stand.ctxs h
  refine ⟨by rw [h]; rfl, fun c k hk => ⟨k, ?_, .refl k⟩⟩
  rw [← hk, State.kctx, State.kctx, ctxs]

theorem Calm.trans (a : Calm s t) (b : Calm t u) : Calm s u := by
  refine ⟨?_, fun c k hk => ?_⟩
  · rw [← a.stand, ← b.stand]
  · obtain ⟨k1, h1, p1⟩ := a.posted c k hk
    obtain ⟨k2, h2, p2⟩ := b.posted c k1 h1
    exact ⟨k2, h2, p1.trans p2⟩

theorem Calm.flights (a : Calm s t) : t.car.flights = s.car.flights := congrArg Stand.flights a.stand

theorem calm_postTicket (s : State) (i n : Nat) (t : Ticket) : Calm s (s.postTicket i n t) := by
  refine ⟨?_, fun c k hk => postTicket_ctx i n t hk⟩
  rw [postTicket_eq]
  have ctxs : ∀ r : Reels, { ({ s with kry := r } : State).stand with ctxs := s.kry.ctxs } = s.stand := fun r => rfl
  exact ctxs _

theorem calm_settleProgram (none_ : s.car.flights = []) (p : Purpose) : Calm s (s.settleProgram p) := by
  unfold State.settleProgram
  split
  · exact .of_stand rfl
  · exact .of_stand rfl
  · exact .of_stand (State.unitDone_stand _ _ _)
  · next f j r k =>
    have unit := State.unitDone_stand s r k
    have flights : (s.unitDone r k).car.flights = [] := (congrArg Stand.flights unit).trans none_
    have nobody : (s.unitDone r k).flight f = none := by rw [State.flight, flights]; rfl
    have same : (s.unitDone r k).ackSeg f j = s.unitDone r k := by rw [State.ackSeg, nobody]
    dsimp only
    rw [same, ite_self]
    exact .of_stand unit
  · exact .of_stand rfl
  · next i n =>
    refine Calm.trans (t := { s with kry := { s.kry with ops := s.kry.ops.filter (fun o => !(decide (o.inst = i) && decide (o.ticket = n))) } })
      (.of_stand rfl) (calm_postTicket _ _ _ _)
  · exact .of_stand (State.storeProgrammed_stand _)
  · exact .of_stand (State.convProgrammed_stand _ _ _)
  · exact .of_stand (State.journalProgrammed_stand _)
  · exact .of_stand (State.ckptProgrammed_stand _)
  all_goals exact .of_stand rfl

theorem calm_drainPrograms (f : QEntry → Bool) : ∀ (n : Nat) (s : State), s.car.flights = [] → Calm s (s.drainPrograms f n)
  | 0, _, _ => .of_stand rfl
  | n + 1, s, none_ => by
    unfold State.drainPrograms
    split
    · exact .of_stand rfl
    · next d q _ =>
      dsimp only
      have start : ∀ b : Bool, (if b = true then s.setDie d { s.die d with op := Option.none, starved := false }
          else (s.setDie d { s.die d with queue := (s.die d).queue.erase q }).noteStart d q).stand = s.stand := by
        intro b
        cases b
        · exact State.noteStart_stand _ _ _
        · rfl
      have started := Calm.of_stand (start (match (s.die d).op with
        | some o => decide (o.entry = q)
        | Option.none => false))
      have settled := started.trans (calm_settleProgram (started.flights.trans none_) q.purpose)
      exact settled.trans (calm_drainPrograms f n _ (settled.flights.trans none_))

theorem calm_foldl {α : Type} (f : State → α → State) (h : ∀ s a, (f s a).stand = s.stand) (l : List α) (s : State) :
    Calm s (l.foldl f s) := .of_stand (stand_foldl f h l s)

end Programs

section Stop

variable {s t : State}

/-- Carriages are uncoupled where they drained. -/
def uncoupled (c : Carriage) : Carriage := if c.coupled then { c with coupled := false, draining := false } else c

theorem startCkpt_stand (s : State) : s.startCkpt.stand = { s.stand with running := true } := by
  rw [State.startCkpt, State.draw_stand, State.ckptStripe_stand, State.unqueue_stand]
  rfl

/-- The stop's end leaves the carriages uncoupled and its checkpoint under way. -/
theorem endStop_facts (none_ : s.car.flights = []) : s.endStop.boot = s.boot ∧ s.endStop.mnt = { s.mnt with closing := true } ∧
    s.endStop.sec = s.sec ∧ s.endStop.car.table = s.car.table.map (fun e => (e.1, uncoupled e.2)) ∧ s.endStop.jrn.running = true ∧
    ∀ c k, s.kctx c = some k → ∃ k', s.endStop.kctx c = some k' ∧ PostedTo k k' := by
  obtain ⟨s1, h1⟩ : ∃ s1, s1 = { s with car := { s.car with table := s.car.table.map (fun (e : Nat × Carriage) => (e.1, uncoupled e.2)) } } :=
    ⟨_, rfl⟩
  obtain ⟨s2, h2⟩ : ∃ s2, s2 = (s1.zns.zones.map (·.1)).foldl State.stopZone s1 := ⟨_, rfl⟩
  obtain ⟨s3, h3⟩ : ∃ s3, s3 = s2.car.staged.foldl (fun (t : State) x => t.giveSeg x.buffer false) ((s2.shadowAll false).programsDone) := ⟨_, rfl⟩
  have closes : Calm s1 s2 := by rw [h2]; exact calm_foldl _ State.stopZone_stand _ _
  have shadows : Calm s1 (s2.shadowAll false) := closes.trans (.of_stand (State.shadowAll_stand _ _))
  have flights : (s2.shadowAll false).car.flights = [] := shadows.flights.trans (by rw [h1]; exact none_)
  have programs : Calm s1 s3 := by
    rw [h3]
    exact (shadows.trans (calm_drainPrograms _ _ _ flights)).trans (calm_foldl _ (fun _ _ => State.giveSeg_stand _ _ _) _ _)
  obtain ⟨s4, h4⟩ : ∃ s4, s4 = { s3 with mnt := { s3.mnt with closing := true }, car := { s3.car with staged := [] } } := ⟨_, rfl⟩
  have unit : Calm s4 s4.journalNow := .of_stand (State.journalNow_stand _)
  have ends : s.endStop = s4.journalNow.startCkpt := by rw [h4, h3, h2, h1]; rfl
  have start := startCkpt_stand s4.journalNow
  rw [← ends] at start
  have sec : s.endStop.sec = s3.sec := (congrArg Stand.sec start).trans ((congrArg Stand.sec unit.stand).trans (by rw [h4]; rfl))
  have boot : s.endStop.boot = s3.boot := (congrArg Stand.boot start).trans ((congrArg Stand.boot unit.stand).trans (by rw [h4]; rfl))
  have mnt : s.endStop.mnt = { s3.mnt with closing := true } :=
    (congrArg Stand.mnt start).trans ((congrArg Stand.mnt unit.stand).trans (by rw [h4]; rfl))
  have table : s.endStop.car.table = s3.car.table :=
    (congrArg Stand.table start).trans ((congrArg Stand.table unit.stand).trans (by rw [h4]; rfl))
  refine ⟨boot.trans ((congrArg Stand.boot programs.stand).trans (by rw [h1]; rfl)),
    mnt.trans (congrArg (fun m : Mount => { m with closing := true }) ((congrArg Stand.mnt programs.stand).trans (by rw [h1]; rfl))),
    sec.trans ((congrArg Stand.sec programs.stand).trans (by rw [h1]; rfl)),
    table.trans ((congrArg Stand.table programs.stand).trans (by rw [h1]; rfl)), congrArg Stand.running start, fun c k hk => ?_⟩
  obtain ⟨k1, at1, p1⟩ := programs.posted c k (by rw [h1]; exact hk)
  obtain ⟨k2, at2, p2⟩ := unit.posted c k1 (by rw [h4]; exact at1)
  exact ⟨k2, (congrArg (look none · c) (congrArg Stand.ctxs start)).trans at2, p1.trans p2⟩

end Stop

section Ticket

variable {i : Instr} {s q u : State} {w : KWord} {k : KCtx} {n : Nat} {name : String} {f : Form} {gate traps late : KCtx → List TrapIf}
  {eff : KCtx → Nat → State → State} {P : State → Prop}

/-- The state in which the unit is asked: the instruction has issued, and the context stands as the unit will leave it. -/
def asked (s : State) (w : KWord) (k : KCtx) (op n : Nat) : State := (s.reelIssues w.ctx).setKctx w.ctx (some (asking k op w n))

/-- An asynchronous instruction whose unit leaves `u`. -/
theorem goes_of_runTicket (run : exec i s = s.runTicket name f w gate traps late eff) (h : Ready s f false w k) (fresh : FreshPosition k)
    (lowest : LowestFree k n) (hg : firstTrap (gate k) = none) (ht : firstTrap (traps k) = none) (hl : firstTrap (late k) = none)
    (hu : eff k n (asked s w k f.op n) = u) (posted : ∃ k', u.kctx w.ctx = some k' ∧ PostedTo (asking k f.op w n) k')
    (keeps : ∀ r : Reels, P { u with kry := r }) :
    Goes i s (fun t => (∃ k', t.kctx w.ctx = some k' ∧ Accepted k k' f.op w n) ∧ P t) := by
  obtain ⟨k', here, same⟩ := posted
  have go := runTicket_asks run h fresh lowest hg ht hl
  rw [← asked, hu, retire_eq here] at go
  exact ⟨_, go, ⟨_, look_put_of_ne _ _ _ _ (Option.some_ne_none _), accepted_of_posted same⟩, keeps _⟩

end Ticket

section StopIssues

variable {s : State} {w : KWord} {k : KCtx} {n : Nat}

/-- The state in which STOP's drain begins (R306). -/
def stopBegun (s : State) (w : KWord) (k : KCtx) (n : Nat) : State := ((asked s w k 0xD3 n).addOp w.ctx k.inst n .stop).beginStop

/-- STOP of an unparked module that no stop drains yet. -/
theorem stop_goes {P : State → Prop} (h : Ready s { op := 0xD3, useD := false, useA := false, useB := false, mask := 0 } false w k)
    (fresh : FreshPosition k) (lowest : LowestFree k n) (g : Granted s k (some 17)) (unparked : s.boot.parked = false)
    (idle : s.mnt.stopping = false)
    (posted : ∃ k', (stopBegun s w k n).stopCheck.kctx w.ctx = some k' ∧ PostedTo (asking k 0xD3 w n) k')
    (keeps : ∀ r : Reels, P { (stopBegun s w k n).stopCheck with kry := r }) :
    Goes (.stop w) s (fun t => (∃ k', t.kctx w.ctx = some k' ∧ Accepted k k' 0xD3 w n) ∧ P t) := by
  have unparked' : (asked s w k 0xD3 n).parked = false := unparked
  have idle' : (asked s w k 0xD3 n).mnt.stopping = false := idle
  refine goes_of_runTicket (i := .stop w) (s := s) (name := "STOP") (show execStop w s = _ from rfl) h fresh lowest (firstTrap_unitTraps g) rfl rfl ?_
    posted keeps
  show (if (asked s w k 0xD3 n).parked = true then _ else if (asked s w k 0xD3 n).mnt.stopping = true then _ else _) = _
  rw [unparked', idle']
  rfl

theorem stopBegun_facts (s : State) (w : KWord) (k : KCtx) (n : Nat) : (stopBegun s w k n).mnt = { s.mnt with stopping := true } ∧
    (stopBegun s w k n).boot = s.boot ∧ (stopBegun s w k n).sec = s.sec ∧ (stopBegun s w k n).zns = s.zns ∧ (stopBegun s w k n).fls = s.fls ∧
    (stopBegun s w k n).fcd = s.fcd ∧ (stopBegun s w k n).car.flights = s.car.flights ∧ (stopBegun s w k n).car.table =
      s.car.table.map (fun e => (e.1, if e.2.coupled then { e.2 with draining := true } else e.2)) ∧
    (stopBegun s w k n).kctx w.ctx = some (asking k 0xD3 w n) := ⟨rfl, rfl, rfl, rfl, rfl, rfl, rfl, rfl, kctx_setKctx _ _ _⟩

/-- STOP while commands are outstanding: the carriages drain. -/
theorem stop_drains (h : Ready s { op := 0xD3, useD := false, useA := false, useB := false, mask := 0 } false w k)
    (fresh : FreshPosition k) (lowest : LowestFree k n) (g : Granted s k (some 17)) (unparked : s.boot.parked = false)
    (idle : s.mnt.stopping = false) (busy : s.car.flights ≠ []) : Goes (.stop w) s (fun t =>
      (∃ k', t.kctx w.ctx = some k' ∧ Accepted k k' 0xD3 w n) ∧ t.mnt = { s.mnt with stopping := true } ∧
      (∀ c, t.carriage c = if (s.carriage c).coupled then { s.carriage c with draining := true } else s.carriage c) ∧
      t.zns = s.zns ∧ t.fls = s.fls) := by
  obtain ⟨mnt, -, -, zns, fls, -, flights, table, here⟩ := stopBegun_facts s w k n
  have waits : (stopBegun s w k n).stopCheck = stopBegun s w k n := by
    rw [State.stopCheck, flights, List.isEmpty_eq_false_iff.2 busy, Bool.and_false, Bool.false_and]
    rfl
  refine stop_goes h fresh lowest g unparked idle ⟨_, by rw [waits]; exact here, .refl _⟩ fun r => ?_
  rw [waits]
  refine ⟨mnt, fun c => ?_, zns, fls⟩
  rw [State.carriage]
  dsimp only
  rw [table]
  exact look_map Carriage.none Carriage.none (fun e => if e.coupled then { e with draining := true } else e) rfl _ _

/-- STOP while no command is outstanding: the carriages are uncoupled, and the stop's checkpoint runs. -/
theorem stop_ends (h : Ready s { op := 0xD3, useD := false, useA := false, useB := false, mask := 0 } false w k)
    (fresh : FreshPosition k) (lowest : LowestFree k n) (g : Granted s k (some 17)) (unparked : s.boot.parked = false)
    (idle : s.mnt.stopping = false) (calm : s.car.flights = []) (uncoded : s.fcd.jobs = []) (opens : s.mnt.closing = false) :
    Goes (.stop w) s (fun t => (∃ k', t.kctx w.ctx = some k' ∧ Accepted k k' 0xD3 w n) ∧
      t.mnt = { s.mnt with stopping := true, closing := true } ∧ t.boot = s.boot ∧ t.jrn.running = true ∧
      (∀ c, (t.carriage c).coupled = false) ∧ t.sec.keys = s.sec.keys) := by
  obtain ⟨mnt, boot, sec, -, -, fcd, flights, table, here⟩ := stopBegun_facts s w k n
  have ends : (stopBegun s w k n).stopCheck = (stopBegun s w k n).endStop := by
    rw [State.stopCheck, mnt, flights, fcd, calm, uncoded, opens]
    rfl
  obtain ⟨boot', mnt', sec', table', running, posts⟩ := endStop_facts (flights.trans calm)
  refine stop_goes h fresh lowest g unparked idle (by rw [ends]; exact posts _ _ here) fun r => ?_
  rw [ends]
  refine ⟨mnt'.trans (by rw [mnt]), boot'.trans boot, running, fun c => ?_, congrArg Security.keys (sec'.trans sec)⟩
  rw [State.carriage]
  dsimp only
  rw [table', look_map Carriage.none Carriage.none uncoupled rfl, uncoupled]
  split
  · rfl
  · next off => exact Bool.eq_false_iff.2 off

end StopIssues

section Parks

variable {s : State}

theorem ckptInForce_stand (s : State) : s.ckptInForce.stand = { s.stand with running := false } := by
  rw [State.ckptInForce]
  dsimp only
  rw [State.freeSystem_stand, ← State.journalNow_stand s]
  rfl

theorem writeMarker_stand (s : State) (n : Nat) : (s.writeMarker n).stand = s.stand :=
  stand_foldl (fun (u : State) (m : Nat × Nat) => u.programNow m.1 m.2 (State.systemUnit 5 0 s.jrn.lastSeq s.now) (decide (n = 2)))
    (fun _ _ => State.programNow_stand _ _ _ _ _) _ _

/-- The end of the stop's checkpoint parks the module with its mount undone (R208). -/
theorem checkpointValid_parks (closing : s.mnt.closing = true) (awake : s.awake = true) (running : s.jrn.running = true)
    (stripes : s.jrn.stripes = 0) (done : s.underWay .checkpoint = false) :
    Goes .checkpointValid s (fun t => t.boot = { s.boot with parked := true } ∧ t.mnt.state = 0 ∧ t.mnt.stopping = false ∧
      t.mnt.closing = false ∧ t.plog.marker = 1 ∧ t.zns.online = false ∧ t.sec.keys = [] ∧ t.jrn.running = false) := by
  have open_ : s.logsOpen = true := by rw [State.logsOpen, awake]; rfl
  refine ⟨s.stopDone, ?_, ?_⟩
  · show execCheckpointValid s = _
    rw [execCheckpointValid, open_, running, stripes, done, State.ckptDone, closing]
    rfl
  · have force := ckptInForce_stand s
    have marker := writeMarker_stand s.ckptInForce 1
    rw [State.stopDone, answerOps_eq]
    exact ⟨congrArg (fun b : Boot => { b with parked := true }) (congrArg Stand.boot (marker.trans force)), rfl, rfl, rfl, rfl, rfl, rfl,
      congrArg Stand.running (marker.trans force)⟩

end Parks

section Delete

variable {V : Type}

theorem mem_put [DecidableEq V] {d v : V} {k : Nat} {x : Nat × V} : ∀ {m : SMap V}, x ∈ put d m k v → x ∈ m ∨ x = (k, v)
  | [], h => by
    unfold put at h
    split at h
    · cases h
    · exact .inr (List.mem_singleton.1 h)
  | (j, u) :: r, h => by
    unfold put at h
    split at h
    · split at h
      · exact .inl h
      · exact (List.mem_cons.1 h).elim .inr .inl
    · split at h
      · split at h
        · exact .inl (List.mem_cons_of_mem _ h)
        · exact (List.mem_cons.1 h).elim .inr fun h => .inl (List.mem_cons_of_mem _ h)
      · exact (List.mem_cons.1 h).elim (fun e => .inl (e ▸ List.mem_cons_self)) fun h =>
          (mem_put h).imp_left (List.mem_cons_of_mem _)

theorem mem_of_look {d : V} {k : Nat} : ∀ {m : SMap V}, look d m k ≠ d → (k, look d m k) ∈ m
  | [], h => absurd rfl h
  | (j, u) :: r, h => by
    unfold look at h ⊢
    split
    · next e => exact e ▸ List.mem_cons_self
    · next e =>
      rw [if_neg e] at h
      exact List.mem_cons_of_mem _ (mem_of_look h)

theorem foldl_of_kept {α β : Type} {f : α → β → α} {s : α} : ∀ {l : List β}, (∀ x ∈ l, f s x = s) → l.foldl f s = s
  | [], _ => rfl
  | x :: l, h => by
    rw [List.foldl_cons, h x List.mem_cons_self]
    exact foldl_of_kept fun y hy => h y (List.mem_cons_of_mem _ hy)

variable {s : State} {w : KWord} {k : KCtx} {n m : Nat} {e : NsEntry} {c : Nat}

/-- A carriage drains where it serves namespace `m` (R40). -/
def drainedOf (m : Nat) (c : Carriage) : Carriage := if c.coupled ∧ c.nsid = m then { c with draining := true } else c

theorem journal_fls (s : State) : s.journal.fls = s.fls := by
  have seq : (s.takeSeq 1).2.fls = s.fls := by
    unfold State.takeSeq
    dsimp only
    split
    · exact (media_of_eventFrame (event_frame _ _ _ _ _ _)).2.2.1
    · rfl
  exact seq

/-- The delete marks its namespace and drains its carriages, and nothing else of the zones changes. -/
theorem beginDelete_facts (s : State) (m : Nat) (e : NsEntry) :
    (s.beginDelete m e).zns.spaces = put none s.zns.spaces m (some { e with deleting := true }) ∧
    (s.beginDelete m e).car.table = s.car.table.map (fun x => (x.1, drainedOf m x.2)) ∧
    (s.beginDelete m e).zns.zones = s.zns.zones ∧ (s.beginDelete m e).fls = s.fls ∧ (s.beginDelete m e).kry.ctxs = s.kry.ctxs := by
  have lot := State.journal_lot ({ s.setSpace m (some { e with deleting := true }) with
    car := { s.car with table := s.car.table.map (fun (x : Nat × Carriage) => (x.1, drainedOf m x.2)) } })
  exact ⟨congrArg (fun l : Lot => l.zns.spaces) lot, congrArg (fun l : Lot => l.car.table) lot, congrArg (fun l : Lot => l.zns.zones) lot,
    journal_fls _, congrArg (fun l : Lot => l.kry.ctxs) lot⟩

/-- A namespace with a coupled carriage waits for it. -/
theorem settleDeletes_waits (others : ∀ m' f, (m', some f) ∈ s.zns.spaces → f.deleting = false) (coupled : (s.carriage c).coupled = true)
    (serves : (s.carriage c).nsid = m) : (s.beginDelete m e).settleDeletes = s.beginDelete m e := by
  obtain ⟨spaces, table, -⟩ := beginDelete_facts s m e
  have listed : (c, s.carriage c) ∈ s.car.table := mem_of_look fun none_ => by
    rw [State.carriage, none_] at coupled
    cases coupled
  have busy : (s.beginDelete m e).spaceQuiet m = false := by
    have there : (c, drainedOf m (s.carriage c)) ∈ (s.beginDelete m e).car.table := by
      rw [table]
      exact List.mem_map_of_mem (f := fun x : Nat × Carriage => (x.1, drainedOf m x.2)) listed
    have draining : drainedOf m (s.carriage c) = { s.carriage c with draining := true } := if_pos ⟨coupled, serves⟩
    rw [State.spaceQuiet, List.all_eq_false.2 ⟨_, there, by simp [draining, serves, coupled]⟩]
    rfl
  refine foldl_of_kept fun x hx => ?_
  rw [spaces] at hx
  obtain ⟨j, v⟩ := x
  cases v with
  | none => rfl
  | some f =>
    rcases mem_put hx with old | new
    · have kept := others j f old
      simp [kept]
    · cases new
      simp [busy]

/-- NSCTL delete of a namespace that a carriage serves (R40, R297). -/
theorem delete_drains (h : Ready s { op := 0x63, useD := false, useA := true, useB := true, mask := 0xF } false w k)
    (fresh : FreshPosition k) (lowest : LowestFree k n) (g : Granted s k (some 4)) (sel : w.mod.toNat = 2)
    (here : s.space (regA k w).toNat = some e) (stays : e.deleting = false)
    (coupled : (s.carriage c).coupled = true) (serves : (s.carriage c).nsid = (regA k w).toNat)
    (others : ∀ m f, (m, some f) ∈ s.zns.spaces → f.deleting = false) :
    Goes (.nsctlDelete w) s (fun t => (∃ k', t.kctx w.ctx = some k' ∧ Accepted k k' 0x63 w n) ∧
      t.space (regA k w).toNat = some { e with deleting := true } ∧
      (∀ m, m ≠ (regA k w).toNat → t.space m = s.space m) ∧
      (∀ c, t.carriage c = if (s.carriage c).coupled ∧ (s.carriage c).nsid = (regA k w).toNat
        then { s.carriage c with draining := true } else s.carriage c) ∧
      t.zns.zones = s.zns.zones ∧ t.fls = s.fls) := by
  have selected : selects w 2 = true := decide_eq_true ((modSel_eq h.form (Nat.le_refl _)).trans sel)
  obtain ⟨q, hq⟩ : ∃ q, q = (asked s w k 0x63 n).addOp w.ctx k.inst n (.deleteSpace (regA k w).toNat) := ⟨_, rfl⟩
  obtain ⟨spaces, table, zones, fls, ctxs⟩ := beginDelete_facts q (regA k w).toNat e
  have waits : (q.beginDelete (regA k w).toNat e).settleDeletes = q.beginDelete (regA k w).toNat e :=
    settleDeletes_waits (c := c) (by rw [hq]; exact others) (by rw [hq]; exact coupled) (by rw [hq]; exact serves)
  have run := (show exec (.nsctlDelete w) s = execNsctlDelete w s from rfl)
  rw [execNsctlDelete, selected, if_neg (by decide)] at run
  refine goes_of_runTicket run h fresh lowest (firstTrap_unitTraps g) rfl rfl
    (u := q.beginDelete (regA k w).toNat e) ?_ ⟨_, ?_, .refl _⟩ fun r => ?_
  · have here' : (asked s w k 0x63 n).space (regA k w).toNat = some e := here
    show (match (asked s w k 0x63 n).space (regA k w).toNat with
      | none => _
      | some e => _) = _
    rw [here']
    dsimp only
    rw [stays, ← waits, hq]
    rfl
  · rw [State.kctx, ctxs, hq]
    exact kctx_setKctx _ _ _
  · refine ⟨?_, fun m hm => ?_, fun c => ?_, zones.trans (by rw [hq]; rfl), fls.trans (by rw [hq]; rfl)⟩
    · exact (congrArg (look none · _) spaces).trans (look_put_of_ne _ _ _ _ (Option.some_ne_none _))
    · exact (congrArg (look none · _) spaces).trans ((look_put_other _ _ _ _ _ hm).trans (by rw [hq]; rfl))
    · exact (congrArg (look Carriage.none · _) table).trans ((look_map Carriage.none Carriage.none (drainedOf _) rfl _ _).trans (by rw [hq]; rfl))

end Delete

/-- Settles O23, by what the delete, the stop that waits, the stop that finds nothing outstanding and its checkpoint do. -/
theorem deleteAndStopDrainTheirCarriages : Obligations.DeleteAndStopDrainTheirCarriages := by
  intro s w k n fresh lowest
  refine ⟨fun h g sel e here stays ⟨c, coupled, serves⟩ others _ _ => ?_, fun h g unparked idle => ⟨fun busy _ => ?_, fun calm uncoded opens _ => ?_⟩,
    fun closing awake running stripes done => ?_⟩
  · exact delete_drains h fresh lowest g sel here stays coupled serves others
  · exact stop_drains h fresh lowest g unparked idle busy
  · exact stop_ends h fresh lowest g unparked idle calm uncoded opens
  · exact checkpointValid_parks closing awake running stripes done

end Sys2Proof.Proofs
end

section
/-! SUPPORT. What completions and events add to what the host hears: completion entries and event records (R431, R432). -/

namespace Sys2Proof.Machine

open Sys2Proof

section Raised

variable {s : State}

theorem raised_interrupt (s : State) (p v : Nat) : (s.interrupt p v).hif.raised = s.hif.raised := by
  unfold State.interrupt
  split <;> rfl

theorem raised_compIrq (s : State) (c bit : Nat) : (s.compIrq c bit).hif.raised = s.hif.raised := by
  unfold State.compIrq
  dsimp only
  split
  · rfl
  · exact raised_interrupt _ _ _

theorem raised_toStewardRing (s : State) (e : EvRec) : (s.toStewardRing e).hif.raised = s.hif.raised := by
  unfold State.toStewardRing
  split
  · rfl
  · split
    · rfl
    · dsimp only
      split
      · exact raised_interrupt _ _ _
      · rfl

theorem raised_toCompRing (s : State) (e : EvRec) : (s.toCompRing e).hif.raised = s.hif.raised := by
  unfold State.toCompRing
  split
  · rfl
  · split
    · rfl
    · dsimp only
      split <;> exact raised_compIrq _ _ _

/-- The record of an event that is raised now. -/
def eventOf (s : State) (code level source c : Nat) (p : Payload) : EvRec :=
  { time := s.tim.now, code := code, source := source, comp := c, level := level, payload := p }

/-- An event is recorded as the newest one (R432). -/
theorem raised_raise (s : State) (code level source c : Nat) (p : Payload) :
    (s.raise code level source c p).hif.raised = eventOf s code level source c p :: s.hif.raised := by
  have rings : ∀ (t : State) (e : EvRec), (((t.toStewardRing e).toCompRing e).toReels e).hif.raised = t.hif.raised := fun t e =>
    (raised_toCompRing (t.toStewardRing e) e).trans (raised_toStewardRing t e)
  unfold State.raise
  dsimp only
  split <;> split <;> exact rings _ _

theorem raised_event (s : State) (code level source c : Nat) (fields : List Int) :
    (s.event code level source c fields).hif.raised = eventOf s code level source c (.fields fields) :: s.hif.raised := raised_raise _ _ _ _ _ _

end Raised

section Complete

variable {s : State} {h : HostCmd} {st : Status} {a b : BitVec 32}

theorem logError_host (s : State) (h : HostCmd) (e : ErrRec) : s.logError h e = { s with hif := (s.logError h e).hif } ∧
    (s.logError h e).hif.out = s.hif.out ∧ (s.logError h e).hif.raised = s.hif.raised := by
  unfold State.logError
  split
  · unfold State.setPort
    split <;> exact ⟨rfl, rfl, rfl⟩
  · exact ⟨rfl, rfl, rfl⟩

theorem interrupt_host (s : State) (p v : Nat) : s.interrupt p v = { s with hif := (s.interrupt p v).hif } ∧
    ∃ l, (s.interrupt p v).hif.out = l ++ s.hif.out := by
  unfold State.interrupt
  split
  · exact ⟨rfl, [], rfl⟩
  · exact ⟨rfl, [_], rfl⟩

/-- A completion changes what the host sees and the clock of its domain (R34, R431). -/
theorem complete_host (s : State) (h : HostCmd) (st : Status) (a b : BitVec 32) :
    s.complete h st a b = { s with hif := (s.complete h st a b).hif, lvl := { s.lvl with clocks := (s.complete h st a b).lvl.clocks } } ∧
    (s.complete h st a b).hif.raised = s.hif.raised ∧ ∃ l, (s.complete h st a b).hif.out = l ++
      Output.cqe { cmd := h, status := st, dnr := st.dnr, dw0 := a, dw1 := b, pasid := s.cqPasid h } :: s.hif.out := by
  obtain ⟨t, ht⟩ : ∃ t, t = ((s.startClock 1).cqPush h).emit (.cqe { cmd := h, status := st, dnr := st.dnr, dw0 := a, dw1 := b, pasid := s.cqPasid h }) :=
    ⟨_, rfl⟩
  obtain ⟨u, hu⟩ : ∃ u, u = if s.cqIen h then t.interrupt h.port (s.cqVector h) else t := ⟨_, rfl⟩
  have first : t = { s with hif := t.hif, lvl := { s.lvl with clocks := t.lvl.clocks } } ∧ t.hif.raised = s.hif.raised ∧
      t.hif.out = Output.cqe { cmd := h, status := st, dnr := st.dnr, dw0 := a, dw1 := b, pasid := s.cqPasid h } :: s.hif.out := by
    rw [ht]
    exact ⟨rfl, rfl, rfl⟩
  have second : u = { t with hif := u.hif } ∧ u.hif.raised = t.hif.raised ∧ ∃ l, u.hif.out = l ++ t.hif.out := by
    rw [hu]
    split
    · obtain ⟨same, out⟩ := interrupt_host t h.port (s.cqVector h)
      exact ⟨same, raised_interrupt _ _ _, out⟩
    · exact ⟨rfl, rfl, [], rfl⟩
  have last : s.complete h st a b = if st = .success then u else u.logError h (.command
      { cmd := h, status := st, dnr := st.dnr, dw0 := a, dw1 := b, pasid := s.cqPasid h }) := by
    rw [hu, ht]
    rfl
  obtain ⟨same, raised, out⟩ := first
  obtain ⟨same', raised', l, out'⟩ := second
  rw [last]
  split
  · exact ⟨by rw [same', same], raised'.trans raised, l, by rw [out', out]⟩
  · obtain ⟨log, log_out, log_raised⟩ := logError_host u h (.command
      { cmd := h, status := st, dnr := st.dnr, dw0 := a, dw1 := b, pasid := s.cqPasid h })
    exact ⟨by rw [log, same', same], log_raised.trans (raised'.trans raised), l, by rw [log_out, out', out]⟩

theorem completed_complete (s : State) (h : HostCmd) (st : Status) (a b : BitVec 32) : Completed (s.complete h st a b) h st := by
  obtain ⟨-, -, l, out⟩ := complete_host s h st a b
  exact ⟨_, by rw [out]; exact List.mem_append_right _ List.mem_cons_self, rfl, rfl, rfl⟩

end Complete

end Sys2Proof.Machine
end

section
/-! SUPPORT. O25: COMMIT, the effects it applies, and HALT (R278, R285, R323, R326). -/

namespace Sys2Proof.Proofs

open Sys2Proof Sys2Proof.Machine

section Commit

variable {s : State} {w : KWord} {k : KCtx} {P : State → Prop}

/-- The state of a commit before its held effects are applied. -/
def mirrored (s : State) (c : Nat) (k : KCtx) (pc : Nat) (epoch : BitVec 32) : State :=
  let s1 := s.setKctx c (some (State.committed k pc epoch))
  { s1 with kry := { s1.kry with retired := upd 0 s1.kry.retired (c / 4) (fun n => satAdd 0xFFFFFFFF n 1) } }

theorem commitReel_eq (s : State) (c : Nat) (k : KCtx) (pc : Nat) (epoch : BitVec 32) : s.commitReel c k pc epoch =
    if k.applied = some k.epoch then mirrored s c k pc epoch else k.held.foldl (State.applyHeld c k.comp k.epoch) (mirrored s c k pc epoch) := rfl

theorem kctx_mirrored (s : State) (c : Nat) (k : KCtx) (pc : Nat) (epoch : BitVec 32) :
    (mirrored s c k pc epoch).kctx c = some (State.committed k pc epoch) := kctx_setKctx _ _ _

theorem kctx_mirrored_other (s : State) (c : Nat) (k : KCtx) (pc : Nat) (epoch : BitVec 32) {d : Nat} (h : d ≠ c) :
    (mirrored s c k pc epoch).kctx d = s.kctx d := kctx_setKctx_other _ _ _ _ h

/-- A control instruction that commits, once none of its traps applies. -/
theorem runCommit_ready {name : String} {op : Nat} {free : Bool} {eff : State → KCtx → State} (h : Ready s (formNone op) free w k)
    (hop : (formNone op).op = op) : runCommit s name op free w eff = .next (eff (s.reelIssues w.ctx) k) := by
  have issues : s.issues op w = true := by rw [← hop]; exact h.issues
  have pass : firstTrap (s.baseTraps k free (badForm (formNone op) w)) = none := by
    have none_ := firstTrap_append_none (b := []) (ready_no_trap h)
    rw [List.append_nil] at none_
    exact none_
  rw [runCommit, h.here]
  simp only [issues, arises]
  rw [pass]
  rfl

/-- The state after COMMIT. -/
def committing (s : State) (w : KWord) (k : KCtx) : State := (s.reelIssues w.ctx).commitReel w.ctx k (k.pc + 8) (k.epoch + 1)

theorem commit_run (h : Ready s { op := 0x03, useD := false, useA := false, useB := false, mask := 0 } true w k) :
    exec (.commit w) s = .next (committing s w k) := (show exec (.commit w) s = execCommit w s from rfl).trans (runCommit_ready h rfl)

/-- The state of COMMIT before its effects are applied. -/
def committedFirst (s : State) (w : KWord) (k : KCtx) : State := mirrored (s.reelIssues w.ctx) w.ctx k (k.pc + 8) (k.epoch + 1)

theorem committing_applies (fresh : k.applied ≠ some k.epoch) :
    committing s w k = k.held.foldl (State.applyHeld w.ctx k.comp k.epoch) (committedFirst s w k) := if_neg fresh

theorem committing_skips (again : k.applied = some k.epoch) : committing s w k = committedFirst s w k := if_pos again

theorem kctx_committedFirst (s : State) (w : KWord) (k : KCtx) :
    (committedFirst s w k).kctx w.ctx = some (State.committed k (k.pc + 8) (k.epoch + 1)) := kctx_mirrored _ _ _ _ _

/-- COMMIT with held effects, in whose outcome the context stands. -/
theorem commit_goes (h : Ready s { op := 0x03, useD := false, useA := false, useB := false, mask := 0 } true w k)
    (here : (committing s w k).kctx w.ctx = some (State.committed k (k.pc + 8) (k.epoch + 1))) (p : P (committing s w k)) :
    Goes (.commit w) s (fun t => P t ∧ ∃ k', t.kctx w.ctx = some k' ∧ k'.held = [] ∧ k'.epoch = k.epoch + 1) :=
  ⟨_, commit_run h, p, _, here, rfl, rfl⟩

theorem commit_retires (h : Ready s { op := 0x03, useD := false, useA := false, useB := false, mask := 0 } true w k) (none_ : k.held = []) :
    Retires (.commit w) s w.ctx (State.committed k (k.pc + 8) (k.epoch + 1)) := by
  refine ⟨_, commit_run h, ?_⟩
  rw [committing, commitReel_eq, none_, List.foldl_nil, ite_self]
  exact ⟨kctx_mirrored _ _ _ _ _, fun d hd => kctx_mirrored_other _ _ _ _ _ hd, rfl⟩

/-- HALT of a reel that holds nothing: it ends in state 4, with g1 as its result (R326). -/
theorem halt_stops (h : Ready s { op := 0x04, useD := false, useA := false, useB := false, mask := 0 } false w k) (none_ : k.held = []) :
    Goes (.halt w) s (fun t => t.kctx w.ctx = none ∧ t.kinst k.inst = none ∧
      (∃ r, t.kry.records.head? = some r ∧ r.inst = k.inst ∧ r.state = 4 ∧ r.result = reg k 1 ∧ r.trapCode = 0 ∧
        r.retired = k.retired + 1) ∧
      (∀ d, d ≠ w.ctx → t.kctx d = s.kctx d)) := by
  obtain ⟨q, hq⟩ : ∃ q, q = mirrored (s.reelIssues w.ctx) w.ctx k k.pc k.epoch := ⟨_, rfl⟩
  have run : exec (.halt w) s = .next (q.stopReel w.ctx 4 0 0) := by
    refine (show exec (.halt w) s = execHalt w s from rfl).trans ((runCommit_ready h rfl).trans ?_)
    rw [commitReel_eq, none_, List.foldl_nil, ite_self, hq]
  obtain ⟨x, hx⟩ := inst_of_issues h.issues h.here
  have here : q.kctx w.ctx = some (State.committed k k.pc k.epoch) := by rw [hq]; exact kctx_mirrored _ _ _ _ _
  have inst : q.kinst (State.committed k k.pc k.epoch).inst = some x := by rw [hq]; exact hx
  have tables : ReelTables q := by
    rw [hq]
    exact ⟨canon_put _ _ _ _ h.tables.1, h.tables.2⟩
  obtain ⟨u, before, after⟩ := stopReel_frames (state := 4) (code := 0) (detail := 0) here inst
  have kept := ((ReelsKept.of_eventFrame before).trans (storeWake_kept u)).trans (.of_eventFrame after)
  refine ⟨_, run, ?_, ?_, ⟨_, congrArg List.head? kept.records, rfl, rfl, rfl, rfl, rfl⟩, fun d hd => ?_⟩
  · exact (congrArg (look none · w.ctx) kept.ctxs).trans (kctx_setKctx_none q w.ctx tables)
  · exact kept.gone _ (look_put none q.kry.insts _ none tables.2)
  · refine (congrArg (look none · d) kept.ctxs).trans ((kctx_setKctx_other q w.ctx d none hd).trans ?_)
    rw [hq]
    exact kctx_mirrored_other _ _ _ _ _ hd

end Commit

/-- Settles O25, by what is held: nothing, two power modes, an event, UNPARK. -/
theorem commitAppliesHeldEffectsInOrder : Obligations.CommitAppliesHeldEffectsInOrder := by
  intro s w k
  refine ⟨fun h => ⟨fun none_ => ?_, fun m n held fresh low => ?_, fun m n held again => ?_, fun code level bs held fresh => ?_,
    fun held fresh mounted => ?_⟩, fun h none_ => halt_stops h none_⟩
  · exact ⟨_, commit_retires h none_, rfl, rfl, rfl, rfl, rfl, rfl, rfl, rfl, rfl, rfl, rfl, rfl, by simp [State.committed], rfl, rfl, rfl, rfl⟩
  · refine commit_goes h ?_ ?_ <;> rw [committing_applies fresh, held]
    · exact kctx_committedFirst s w k
    · have code : Mode.ofCode n = if n = 0 then .galop else if n = 1 then .waltz else .minuet := by
        interval_cases n <;> rfl
      rw [← code]
      rfl
  · refine commit_goes h ?_ ?_ <;> rw [committing_skips again]
    · exact kctx_committedFirst s w k
    · rfl
  · have frame := raise_frame (committedFirst s w k) code level (srcCaller w.ctx) k.comp (.raw bs)
    refine commit_goes h ?_ ?_ <;> rw [committing_applies fresh, held]
    · exact (congrArg (look none · w.ctx) (ctxs_of_eventFrame frame)).trans (kctx_committedFirst s w k)
    · exact ⟨_, raised_raise _ _ _ _ _ _, rfl, rfl, rfl, rfl, rfl, rfl⟩
  · refine ⟨_, commit_run h, ?_⟩
    have mounted' : (committedFirst s w k).mounted = true := decide_eq_true mounted
    rw [committing_applies fresh, held, List.foldl_cons, List.foldl_nil, State.applyHeld, mounted']
    rfl

end Sys2Proof.Proofs
end

section
/-! SUPPORT. O26: line fills (R313, R317, R333) and the completions of tickets (R293, R299, R305). -/

namespace Sys2Proof.Proofs

open Sys2Proof Sys2Proof.Machine

section Lines

variable {s t u v : State} {just : List (Nat × Nat)}

/-- Lines give way in `v`, none of those just filled: of every running reel the lines alone differ. -/
structure Evicts (just : List (Nat × Nat)) (u v : State) : Prop where
  rest : v = { u with kry := { u.kry with insts := v.kry.insts }, free := v.free }
  kept : ∀ x i, u.kinst x = some i → ∃ j, v.kinst x = some j ∧ j = { i with lines := j.lines } ∧
    ∀ l ∈ i.lines, (x, l) ∈ just → l ∈ j.lines

theorem Evicts.refl (just : List (Nat × Nat)) (u : State) : Evicts just u u := ⟨rfl, fun _ i h => ⟨i, h, rfl, fun _ hl _ => hl⟩⟩

theorem Evicts.trans (a : Evicts just t u) (b : Evicts just u v) : Evicts just t v := by
  refine ⟨by rw [b.rest, a.rest], fun x i hi => ?_⟩
  obtain ⟨j, hj, same, lines⟩ := a.kept x i hi
  obtain ⟨q, hq, same', lines'⟩ := b.kept x j hj
  exact ⟨q, hq, by rw [same', same], fun l hl hx => lines' l (lines l hl hx) hx⟩

theorem evictLine_evicts (u : State) (r : Nat) (just : List (Nat × Nat)) : Evicts just u (u.evictLine r just) := by
  unfold State.evictLine
  dsimp only
  split
  · next n l hl =>
    have spared : (n, l) ∉ just := by simpa using (List.mem_filter.1 (List.mem_of_getElem? hl)).2
    unfold State.modInst
    split
    · exact ⟨rfl, (Evicts.refl just u).kept⟩
    · next y hy =>
      refine ⟨rfl, fun x i hi => ?_⟩
      by_cases e : x = n
      · subst e
        cases hi.symm.trans hy
        refine ⟨_, look_put_of_ne _ _ _ _ (Option.some_ne_none _), rfl, fun m hm hx => List.mem_filter.2 ⟨hm, ?_⟩⟩
        exact decide_eq_true fun e => spared (e ▸ hx)
      · exact ⟨i, (look_put_other _ _ _ _ _ e).trans hi, rfl, fun _ h _ => h⟩
  · exact .refl just u

theorem makeRoom_evicts (u : State) (r : Nat) (just : List (Nat × Nat)) : Evicts just u (u.makeRoom r just) := by
  unfold State.makeRoom
  generalize List.range _ = l
  induction l generalizing u with
  | nil => exact .refl just u
  | cons a l ih => exact (evictLine_evicts u r just).trans (ih _)

/-- A fill of the lines `ls` of reel `n` (R313). -/
def fills (u : State) (n r : Nat) (ls : List Nat) : State :=
  (u.modInst n (fun x => { x with lines := (x.lines ++ ls).dedup })).makeRoom r (ls.map (fun l => (n, l)))

theorem fills_facts {n r : Nat} {ls : List Nat} {i : KInst} (hi : u.kinst n = some i) :
    fills u n r ls = { u with kry := { u.kry with insts := (fills u n r ls).kry.insts }, free := (fills u n r ls).free } ∧
    ∃ j, (fills u n r ls).kinst n = some j ∧ j = { i with lines := j.lines } ∧ ∀ l ∈ ls, l ∈ j.lines := by
  obtain ⟨w, hw⟩ : ∃ w, w = u.modInst n (fun x => { x with lines := (x.lines ++ ls).dedup }) := ⟨_, rfl⟩
  have filled : w = u.setKinst n (some { i with lines := (i.lines ++ ls).dedup }) := by rw [hw, State.modInst, hi]
  have room := makeRoom_evicts w r (ls.map (fun l => (n, l)))
  have same : fills u n r ls = w.makeRoom r (ls.map (fun l => (n, l))) := by rw [hw]; rfl
  rw [same]
  obtain ⟨j, hj, other, lines⟩ := room.kept n _ (by rw [filled]; exact look_put_of_ne _ _ _ _ (Option.some_ne_none _))
  refine ⟨room.rest.trans (by rw [filled]; rfl), j, hj, other, fun l hl => ?_⟩
  exact lines l (List.mem_dedup.2 (List.mem_append_right _ hl)) (List.mem_map_of_mem hl)

end Lines

section Room

theorem length_flatMap_put {V α : Type} [DecidableEq V] (d v : V) (k : Nat) (g : Nat × V → List α) (hd : ∀ j, g (j, d) = []) :
    ∀ (lo : Nat) (m : SMap V), canonFrom d lo m = true →
      ((put d m k v).flatMap g).length + (g (k, look d m k)).length = (m.flatMap g).length + (g (k, v)).length := by
  intro lo m
  induction m generalizing lo with
  | nil =>
    intro _
    unfold put look
    split
    · next e => subst e; rfl
    · simp [hd]
  | cons a r ih =>
    obtain ⟨j, w⟩ := a
    intro h
    simp only [canonFrom, Bool.and_eq_true, decide_eq_true_eq] at h
    have below := look_below d (j + 1) r k h.2
    rcases Nat.lt_trichotomy k j with lt | rfl | gt
    · rw [put, if_pos lt, look, if_neg (Nat.ne_of_gt lt), below (by omega), hd]
      split
      · next e => rw [e, hd]
      · simp only [List.flatMap_cons, List.length_append, List.length_nil]
        omega
    · rw [put, if_neg (Nat.lt_irrefl k), if_pos rfl, look, if_pos rfl]
      split
      · next e =>
        rw [e, hd, List.flatMap_cons, List.length_append, List.length_nil]
        omega
      · simp only [List.flatMap_cons, List.length_append]
        omega
    · rw [put, if_neg (by omega), if_neg (by omega), look, if_neg (by omega)]
      have rest := ih (j + 1) h.2
      simp only [List.flatMap_cons, List.length_append]
      omega

variable {s : State} {c n : Nat} {i : KInst}

/-- The lines of one running reel that a half of the cache counts. -/
def linesOf (r : Nat) (e : Nat × Option KInst) : List (Nat × Nat) :=
  match e.2 with
  | some i => if i.source ≠ 1 ∧ ctxRegion i.ctx = r then i.lines.map (fun l => (e.1, l)) else []
  | none => []

theorem demandLines_eq (s : State) (r : Nat) : s.demandLines r = s.kry.insts.flatMap (linesOf r) := rfl

/-- A fill of one line displaces none while the half of the cache has room for it (R313). -/
theorem fills_with_room {l : Nat} (tables : canon none s.kry.insts = true) (hi : s.kinst n = some i)
    (room : (s.demandLines (ctxRegion c)).length + 1 ≤ s.demandRoom) :
    (fills s n (ctxRegion c) [l]).kinst n = some { i with lines := (i.lines ++ [l]).dedup } := by
  obtain ⟨w, hw⟩ : ∃ w, w = s.modInst n (fun x => { x with lines := (x.lines ++ [l]).dedup }) := ⟨_, rfl⟩
  have filled : w = s.setKinst n (some { i with lines := (i.lines ++ [l]).dedup }) := by rw [hw, State.modInst, hi]
  have count := length_flatMap_put none (some { i with lines := (i.lines ++ [l]).dedup }) n (linesOf (ctxRegion c)) (fun _ => rfl) 0 _ tables
  have old : look none s.kry.insts n = some i := hi
  have grows : (linesOf (ctxRegion c) (n, some { i with lines := (i.lines ++ [l]).dedup })).length ≤
      (linesOf (ctxRegion c) (n, some i)).length + 1 := by
    have dedup := (List.dedup_sublist (i.lines ++ [l])).length_le
    simp only [List.length_append, List.length_singleton] at dedup
    simp only [linesOf]
    split
    · simpa using dedup
    · exact Nat.zero_le _
  rw [old] at count
  have within : (w.demandLines (ctxRegion c)).length - w.demandRoom = 0 := by
    have rooms : w.demandRoom = s.demandRoom := by rw [filled]; rfl
    have lines : (w.demandLines (ctxRegion c)).length ≤ (s.demandLines (ctxRegion c)).length + 1 := by
      rw [filled, demandLines_eq, demandLines_eq]
      show (List.flatMap _ (put none s.kry.insts n _)).length ≤ _
      omega
    omega
  have same : fills s n (ctxRegion c) [l] = w := by
    show (State.modInst _ _ _).makeRoom _ _ = _
    rw [← hw, State.makeRoom, within]
    rfl
  rw [same, filled]
  exact look_put_of_ne _ _ _ _ (Option.some_ne_none _)

end Room

section Fill

variable {s t : State} {c : Nat} {k : KCtx} {i : KInst}

/-- A reel waits for the line that holds its next instruction. -/
structure Missing (s : State) (c : Nat) (k : KCtx) (i : KInst) : Prop where
  here : s.kctx c = some k
  inst : s.kinst k.inst = some i
  issues : s.mayIssue k = true
  ready : k.wait = .ready
  address : FetchAddress k k.pc
  absent : k.pc / 4096 ∉ i.lines

theorem Missing.waits (m : Missing s c k i) :
    (s.mayIssue k && decide (k.wait = .ready) && !(codeTraps k k.pc).any (·.1) && !i.lines.contains (k.pc / 4096)) = true := by
  obtain ⟨aligned, low, high⟩ := m.address
  have noTrap : (codeTraps k k.pc).any (·.1) = false := by
    simp [codeTraps, imageEnd, aligned, low, Nat.not_le.2 high]
  simp [m.issues, m.ready, noTrap, m.absent]

/-- `s` with one miss more. -/
def missed (s : State) : State := { s with kry := { s.kry with misses := satAdd 0xFFFFFFFF s.kry.misses 1 } }

/-- What every fill leaves: one miss more, and the missing line resident. -/
theorem filled_of {ls : List Nat} (line : k.pc / 4096 ∈ ls) {u : State} (misses : u.kry.misses = (missed s).kry.misses)
    {j : KInst} (hj : u.kinst k.inst = some j) : (fills u k.inst (ctxRegion c) ls).kry.misses = min 0xFFFFFFFF (s.kry.misses + 1) ∧
      ∃ j, (fills u k.inst (ctxRegion c) ls).kinst k.inst = some j ∧ k.pc / 4096 ∈ j.lines := by
  obtain ⟨rest, q, hq, -, lines⟩ := fills_facts (r := ctxRegion c) (ls := ls) hj
  refine ⟨?_, q, hq, lines _ line⟩
  rw [rest]
  exact misses

theorem lineFill_direct (m : Missing s c k i) (direct : i.source ≠ 2) :
    exec (.lineFillComplete c .filled) s = .next (fills (missed s) k.inst (ctxRegion c) [k.pc / 4096]) := by
  show execLineFillComplete c .filled s = _
  rw [execLineFillComplete, m.here]
  dsimp only
  rw [m.inst]
  dsimp only
  rw [m.waits, if_neg direct, if_neg direct]
  rfl

/-- The four lines of the page of the missing one (R317). -/
def pageLines (k : KCtx) : List Nat := (List.range 4).map (fun j => k.pc / 4096 / 4 * 4 + j)

theorem mem_pageLines (k : KCtx) : k.pc / 4096 ∈ pageLines k :=
  List.mem_map.2 ⟨k.pc / 4096 % 4, List.mem_range.2 (Nat.mod_lt _ (by decide)), Nat.div_add_mod' _ _⟩

/-- The page is sensed from replica `q` of the store block (R333). -/
def sensed (t s : State) (i : KInst) (q : Nat) : State := s.senseBlock (replicaDie q) (t.storeBlock q (i.place / 16)) 1 0

theorem lineFill_store (m : Missing s c k i) {q : Nat} (store : i.source = 2) (from_ : s.fillFrom (i.place / 16) = some (q, false)) :
    exec (.lineFillComplete c .filled) s = .next (fills (sensed (missed s) (missed s) i q) k.inst (ctxRegion c) (pageLines k)) := by
  show execLineFillComplete c .filled s = _
  rw [execLineFillComplete, m.here]
  dsimp only
  rw [m.inst]
  dsimp only
  rw [m.waits, if_pos store, if_pos store, from_]
  rfl

/-- A fill from a die that is suspended for it. -/
def suspendedFor (s : State) (i : KInst) (q : Nat) : State :=
  let t := ({ missed s with kry := { (missed s).kry with fillsSuspended := satAdd 0xFFFFFFFF s.kry.fillsSuspended 1 } } : State).suspend (replicaDie q)
  (sensed t t i q).resumeAfter (replicaDie q)

theorem lineFill_suspended (m : Missing s c k i) {q : Nat} (store : i.source = 2) (from_ : s.fillFrom (i.place / 16) = some (q, true)) :
    exec (.lineFillComplete c .filledSuspended) s = .next (fills (suspendedFor s i q) k.inst (ctxRegion c) (pageLines k)) := by
  show execLineFillComplete c .filledSuspended s = _
  rw [execLineFillComplete, m.here]
  dsimp only
  rw [m.inst]
  dsimp only
  rw [m.waits, if_pos store, if_pos store, from_]
  rfl

/-- Nothing but the flash's own tables differs. -/
def FlashOnly (s t : State) : Prop := t = { s with fls := t.fls }

namespace FlashOnly

theorem refl (s : State) : FlashOnly s s := rfl

theorem trans {s t u : State} (a : FlashOnly s t) (b : FlashOnly t u) : FlashOnly s u := by
  unfold FlashOnly at *
  rw [b, a]

theorem ite {s t u : State} {p : Prop} [Decidable p] (a : FlashOnly s t) (b : FlashOnly s u) : FlashOnly s (if p then t else u) := by
  split
  · exact a
  · exact b

end FlashOnly

theorem queueRefresh_flash (s : State) (d b : Nat) : FlashOnly s (s.queueRefresh d b) := .ite (.refl s) rfl

theorem readLimit_flash (s : State) (d b : Nat) : FlashOnly s (s.readLimit d b) := .ite (queueRefresh_flash s d b) (.refl s)

theorem countReads_flash (s : State) (d b n : Nat) : FlashOnly s (s.countReads d b n) :=
  FlashOnly.trans (t := s.setBlock d b { s.block d b with reads := satAdd 0xFFFFFF (s.block d b).reads n }) rfl (readLimit_flash _ _ _)

/-- A sense leaves the reels, the zones and the buffers. -/
theorem senseBlock_kept (s : State) (d b n c : Nat) : (s.senseBlock d b n c).kry = s.kry ∧ (s.senseBlock d b n c).zns = s.zns ∧
    (s.senseBlock d b n c).bpm = s.bpm := by
  have reads : FlashOnly s (s.countReads d b n) := countReads_flash s d b n
  unfold State.senseBlock
  generalize s.countReads d b n = t at reads ⊢
  rw [reads]
  exact ⟨rfl, rfl, rfl⟩

theorem suspend_frame (s : State) (d : Nat) : ∃ u, EventFrame u (s.suspend d) ∧ u.kry = s.kry := by
  unfold State.suspend
  dsimp only
  split
  · exact ⟨s, .refl s, rfl⟩
  · split
    · exact ⟨s, .refl s, rfl⟩
    · split
      · exact ⟨_, event_frame _ _ _ _ _ _, rfl⟩
      · exact ⟨_, .refl _, rfl⟩

theorem resumeAfter_kry (s : State) (d : Nat) : (s.resumeAfter d).kry = s.kry := by
  unfold State.resumeAfter State.resume
  split
  · split
    · dsimp only
      split
      · rfl
      · split <;> rfl
    · rfl
  · rfl

theorem suspendedFor_facts (m : Missing s c k i) (q : Nat) :
    (suspendedFor s i q).kry.misses = (missed s).kry.misses ∧
    (suspendedFor s i q).kry.fillsSuspended = min 0xFFFFFFFF (s.kry.fillsSuspended + 1) ∧ ∃ j, (suspendedFor s i q).kinst k.inst = some j := by
  obtain ⟨t, ht⟩ : ∃ t, t = ({ missed s with kry := { (missed s).kry with fillsSuspended := satAdd 0xFFFFFFFF s.kry.fillsSuspended 1 } } : State) :=
    ⟨_, rfl⟩
  obtain ⟨u, frame, kry⟩ := suspend_frame t (replicaDie q)
  have same : (suspendedFor s i q).kry = (t.suspend (replicaDie q)).kry := by
    rw [suspendedFor, ← ht, resumeAfter_kry, sensed]
    exact (senseBlock_kept _ _ _ _ _).1
  obtain ⟨j, hj, -⟩ := frame.kept k.inst i (by rw [State.kinst, kry, ht]; exact m.inst)
  have misses : (t.suspend (replicaDie q)).kry.misses = u.kry.misses := by rw [frame.rest]
  have suspended : (t.suspend (replicaDie q)).kry.fillsSuspended = u.kry.fillsSuspended := by rw [frame.rest]
  refine ⟨?_, ?_, j, ?_⟩
  · rw [same, misses, kry, ht]
  · rw [same, suspended, kry, ht]
    rfl
  · rw [State.kinst, same]
    exact hj

/-- A trap of a reel whose instruction never came. -/
theorem traps_missed {code detail : Nat} {ins : Instr} (m : Missing s c k i) (ht : ReelTables s)
    (he : exec ins s = .next ((missed s).trapReel c (code, detail))) : TrapsWith ins s c k code detail := by
  obtain ⟨q, hq⟩ : ∃ q, q = missed s := ⟨_, rfl⟩
  have kry : q.kry = (missed s).kry := by rw [hq]
  have media : q.zns = s.zns ∧ q.car = s.car ∧ q.fls = s.fls ∧ q.bpm = s.bpm := by rw [hq]; exact ⟨rfl, rfl, rfl, rfl⟩
  have here : q.kctx c = some k := by rw [State.kctx, kry]; exact m.here
  have inst : q.kinst k.inst = some i := by rw [State.kinst, kry]; exact m.inst
  have tables : ReelTables q := by rw [ReelTables, kry]; exact ht
  obtain ⟨u, before, after⟩ := stopReel_frames (state := 5) (code := code) (detail := detail) here inst
  have kept := ((ReelsKept.of_eventFrame before).trans (storeWake_kept u)).trans (.of_eventFrame after)
  refine ⟨_, he.trans (by rw [← hq]; rfl), ?_, ?_, ⟨_, congrArg List.head? kept.records, rfl, rfl, rfl, rfl, rfl⟩, fun d hd => ?_, fun hw => ?_⟩
  · exact (congrArg (look none · c) kept.ctxs).trans (kctx_setKctx_none q c tables)
  · exact kept.gone _ (look_put none q.kry.insts k.inst none tables.2)
  · refine (congrArg (look none · d) kept.ctxs).trans ((kctx_setKctx_other q c d none hd).trans ?_)
    rw [State.kctx, kry]
    rfl
  · have none_queued : q.kry.writes = [] := by rw [kry]; exact hw
    have none_after : u.kry.writes = [] := (writes_of_eventFrame before).trans none_queued
    rw [storeWake_of_no_writes none_after] at after
    obtain ⟨zns, car, fls, bpm⟩ := media_of_eventFrame (before.trans after)
    obtain ⟨zns', car', fls', bpm'⟩ := media
    exact ⟨zns.trans zns', car.trans car', fls.trans fls', bpm.trans bpm'⟩

theorem lineFill_mismatch (m : Missing s c k i) (ht : ReelTables s) : TrapsWith (.lineFillComplete c .crcMismatch) s c k 0x04 0 := by
  refine traps_missed m ht ?_
  show execLineFillComplete c .crcMismatch s = _
  rw [execLineFillComplete, m.here]
  dsimp only
  rw [m.inst]
  dsimp only
  rw [m.waits]
  rfl

end Fill

section Completion

variable {s t : State} {c n : Nat} {o : KOp} {k : KCtx} {i : KInst}

/-- The answer is posted to ticket `n` of the context: that ticket alone changes. -/
def AnswerPosted (t : State) (c n : Nat) (k : KCtx) (st : Nat) (res : Word) : Prop :=
  ∃ k', t.kctx c = some k' ∧ (∃ x ∈ k'.tickets, x.num = n ∧ x.done = some (st, res)) ∧
    (∀ x ∈ k.tickets, x.num ≠ n → x ∈ k'.tickets) ∧ k'.regs = k.regs ∧ k'.pc = k.pc ∧ k'.journal = k.journal

/-- An operation under way for ticket `n` of the reel `k`, which waits for it. -/
structure UnderWay (s : State) (c n : Nat) (o : KOp) (k : KCtx) (i : KInst) : Prop where
  awake : s.awake = true
  found : s.kry.ops.find? (fun o => decide (o.ctx = c) && decide (o.ticket = n)) = some o
  ticket : o.ticket = n
  inst : s.kinst o.inst = some i
  ctx : i.ctx = c
  here : s.kctx c = some k
  waits : ∃ x ∈ k.tickets, x.num = n ∧ x.done = none

theorem settleOp_posts (u : UnderWay s c n o k i) (kry : t.kry = s.kry) (st : Nat) (res : Word) :
    AnswerPosted (t.settleOp o.inst o.ticket (State.answer st res)) c n k st res := by
  have inst : ({ t with kry := { t.kry with ops := t.kry.ops.filter (fun p => !(decide (p.inst = o.inst) && decide (p.ticket = o.ticket))) } } :
      State).kinst o.inst = some i := by rw [State.kinst, kry]; exact u.inst
  have here : ({ t with kry := { t.kry with ops := t.kry.ops.filter (fun p => !(decide (p.inst = o.inst) && decide (p.ticket = o.ticket))) } } :
      State).kctx i.ctx = some k := by rw [u.ctx, State.kctx, kry]; exact u.here
  obtain ⟨x, hx, num, pending⟩ := u.waits
  rw [State.settleOp, State.postTicket, inst]
  dsimp only
  rw [here, u.ctx]
  refine ⟨_, kctx_setKctx _ _ _, ⟨{ State.answer st res with num := o.ticket }, List.mem_map.2 ⟨x, hx, ?_⟩, u.ticket, rfl⟩, fun y hy other => ?_,
    rfl, rfl, rfl⟩
  · exact if_pos ⟨num.trans u.ticket.symm, pending⟩
  · refine List.mem_map.2 ⟨y, hy, if_neg fun e => other (e.1.trans u.ticket)⟩

theorem ticketCompletion_of (u : UnderWay s c n o k i) {st : Nat} {res : Word} {data : List Byte} (h : s.completeOp o st res data = some t) :
    exec (.ticketCompletion c n st res data) s = .next t := by
  show execTicketCompletion c n st res data s = _
  rw [execTicketCompletion, u.found]
  dsimp only
  rw [u.awake, h]
  rfl

/-- A host transfer that completes: its bytes stand in the buffer (R305). -/
theorem hostRead_completes (u : UnderWay s c n o k i) {x : DmaFrom} {addr h off st : Nat} {res : Word} {data : List Byte} {b : Buf}
    (op : o.op = .hostRead x addr data.length h off) (buf : s.buf h = some b) (inside : off + data.length ≤ b.size)
    (tables : canon 0 s.bpm.bytes = true) : Goes (.ticketCompletion c n st res data) s (fun t => AnswerPosted t c n k 0 0 ∧
      ∀ y, look 0 t.bpm.bytes y = if h * 2 ^ 22 + off ≤ y ∧ y < h * 2 ^ 22 + off + data.length
        then data.getD (y - (h * 2 ^ 22 + off)) 0 else look 0 s.bpm.bytes y) := by
  have filled : s.fillBuf h off data = s.writeBuf h off data := by
    rw [State.fillBuf, buf]
    exact if_pos inside
  refine ⟨_, ticketCompletion_of u (t := (s.writeBuf h off data).settleOp o.inst o.ticket (State.answer 0 0)) ?_,
    settleOp_posts (t := s.writeBuf h off data) u rfl 0 0, fun y => ?_⟩
  · rw [State.completeOp, op]
    dsimp only
    rw [State.hostRead, if_pos rfl, filled]
  · rw [State.settleOp, postTicket_eq]
    have bytes : ∀ j, j < data.length → data[j]? = some (data.getD j 0) := fun j hj => by
      rw [List.getD_eq_getElem?_getD, List.getElem?_eq_getElem hj]
      rfl
    exact look_writeBytes_at (a := h * 2 ^ 22 + off) tables rfl bytes y

end Completion

/-- Settles O26: a fill from the host's memory, one from the store, one from a suspended die, a bad check, and the completions. -/
theorem fillsAndCompletionsReachTheirReel : Obligations.FillsAndCompletionsReachTheirReel := by
  refine ⟨fun s c k i here inst issues ready address absent => ?_, fun s c n st res data o k i awake found ticket inst ctx here waits => ?_⟩
  · have m : Missing s c k i := ⟨here, inst, issues, ready, address, absent⟩
    refine ⟨fun direct => ?_, fun direct room at_ tables => ?_, fun q store from_ => ?_, fun q store from_ => ?_, lineFill_mismatch m⟩
    · obtain ⟨rest, j, hj, same, -⟩ := fills_facts (u := missed s) (r := ctxRegion c) (ls := [k.pc / 4096]) inst
      refine ⟨_, lineFill_direct m direct, filled_of List.mem_cons_self rfl inst, fun x hx => ?_, ?_⟩
      · cases hj.symm.trans hx
        exact same
      · have misses : (fills (missed s) k.inst (ctxRegion c) [k.pc / 4096]).kry.misses = (missed s).kry.misses := by rw [rest]
        rw [misses]
        exact rest
    · refine ⟨_, lineFill_direct m direct, filled_of List.mem_cons_self rfl inst, fun j hj l hl => ?_⟩
      have held := fills_with_room (s := missed s) (c := c) (l := k.pc / 4096) tables.2 inst room
      cases held.symm.trans hj
      exact List.mem_dedup.2 (List.mem_append_left _ hl)
    · obtain ⟨kry, zns, bpm⟩ := senseBlock_kept (missed s) (replicaDie q) ((missed s).storeBlock q (i.place / 16)) 1 0
      have inst' : (sensed (missed s) (missed s) i q).kinst k.inst = some i := by
        rw [State.kinst, sensed, kry]
        exact inst
      obtain ⟨rest, -⟩ := fills_facts (r := ctxRegion c) (ls := pageLines k) inst'
      refine ⟨_, lineFill_store m store from_, filled_of (mem_pageLines k) (by rw [sensed, kry]) inst', ?_, ?_, ?_⟩ <;> rw [rest]
      · exact zns
      · exact bpm
      · show (sensed (missed s) (missed s) i q).kry.fillsSuspended = _
        rw [sensed, kry]
        rfl
    · obtain ⟨misses, suspended, j, hj⟩ := suspendedFor_facts m q
      obtain ⟨rest, -⟩ := fills_facts (r := ctxRegion c) (ls := pageLines k) hj
      refine ⟨_, lineFill_suspended m store from_, filled_of (mem_pageLines k) misses hj, ?_⟩
      rw [rest]
      exact suspended
  · have u : UnderWay s c n o k i := ⟨awake, found, ticket, inst, ctx, here, waits⟩
    refine ⟨fun d op low => ⟨_, ticketCompletion_of u ?_, settleOp_posts u rfl 0 res⟩, fun a r op => ⟨_, ticketCompletion_of u ?_, settleOp_posts u rfl a r⟩,
      fun x addr h off b op buf inside tables => hostRead_completes u op buf inside tables⟩
    · rw [State.completeOp, op]
      exact if_pos low
    · rw [State.completeOp, op]

end Sys2Proof.Proofs
end

section
/-! SUPPORT. What the fetch of a command and the members of a zone that opens leave as it was (R58, R61, R346). -/

namespace Sys2Proof.Machine

open Sys2Proof

theorem State.setRow_lot (s : State) (z) (r) (v) : (State.setRow s z r v).lot = s.lot := by rfl

theorem State.activity_lot (s : State) : (State.activity s).lot = s.lot := by rfl

theorem State.spareEvents_lot (s : State) (d) (before) : (State.spareEvents s d before).lot = s.lot := by
  simp only [State.spareEvents, lot_ite, ite_self, State.warning_lot, State.event_lot]

theorem State.withSpares_lot (s : State) (d) (f : State → State) (hf : ∀ t, (f t).lot = t.lot) :
    (State.withSpares s d f).lot = s.lot := by
  simp only [State.withSpares, State.spareEvents_lot, hf]

theorem State.takeSpare_lot {s : State} {d} {role} {use} {i t} (h : State.takeSpare s d role use = some (i, t)) : t.lot = s.lot := by
  unfold State.takeSpare at h
  repeat' split at h
  all_goals cases h
  exact State.withSpares_lot _ _ _ fun u => State.setBlock_lot u _ _ _

theorem State.assignBlock_lot (s : State) (z) (d) : (State.assignBlock s z d).2.lot = s.lot := by
  simp only [State.assignBlock]
  repeat' split
  all_goals simp only [State.setBlock_lot, State.setDie_lot]
  all_goals exact State.takeSpare_lot ‹_›

theorem State.assignMembers_lot (s : State) (z) : (State.assignMembers s z).2.lot = s.lot := by
  unfold State.assignMembers
  have key : ∀ (l : List Nat) (acc : List (Nat × Nat) × State), (l.foldl (fun acc d =>
      let (b, t) := acc.2.assignBlock z d
      (acc.1 ++ [(d, b)], t)) acc).2.lot = acc.2.lot := by
    intro l
    induction l with
    | nil => exact fun _ => rfl
    | cons d l ih => exact fun acc => (ih _).trans (State.assignBlock_lot _ _ _)
  exact key _ _

theorem State.markFoldable_lot (s : State) (z) (before) : (State.markFoldable s z before).lot = s.lot := by
  simp only [State.markFoldable, lot_ite, lot_foldl, ite_self, implies_true, State.setRow_lot]

theorem State.admitted_lot (s : State) (c) : (State.admitted s c).lot = s.lot := by rfl

theorem State.fetch_lot (s : State) (h) : (State.fetch s h).lot = s.lot := by rfl

theorem State.noteWritten_lot (s : State) (z) : (State.noteWritten s z).lot = s.lot := by
  unfold State.noteWritten; repeat' split
  all_goals simp only [lot_sec]

end Sys2Proof.Machine
end

section
/-! SUPPORT. The layer that every host command shares: its fetch, the first checks, a refusal, and the target of an I/O command (R15,
R107, R346, R421). -/

namespace Sys2Proof.Proofs

open Sys2Proof Sys2Proof.Machine

section Fetch

variable {s : State} {h : HostCmd} {i : Instr} {st : Status}

theorem fetch_eq (s : State) (h : HostCmd) : s.fetch h = { s with pwr := (s.fetch h).pwr, hif := (s.fetch h).hif } := rfl

theorem onIo_run {name : String} {f : State → State} (fetched : s.fetchable h = true) (queue : h.qid ≠ 0) :
    onIo name h s f = .next (f (s.fetch h)) := by
  rw [onIo, fetched, decide_eq_true queue]
  rfl

theorem onZoneQueue_run {name : String} {slba : Nat} {f : State → State} (fetched : s.fetchable h = true) (queue : h.qid ≠ 0)
    (clear : s.resetAhead h.nsid slba = false) : onZoneQueue name h slba s f = .next (f (s.fetch h)) := by
  rw [onZoneQueue, fetched, decide_eq_true queue, clear]
  rfl

/-- A command that is fetched and completed, and has no other effect. -/
theorem onlyCompletes_of_complete {a b : BitVec 32} (run : exec i s = .next ((s.fetch h).complete h st a b)) : OnlyCompletes i s h st := by
  obtain ⟨same, -⟩ := complete_host (s.fetch h) h st a b
  refine ⟨_, run, completed_complete _ _ _ _ _, ?_⟩
  rw [same]
  exact ⟨rfl, rfl, rfl, rfl, rfl, rfl, rfl, rfl⟩

end Fetch

section Target

variable {s : State} {h : HostCmd} {slba nlb z u c key : Nat} {n : NsEntry}

theorem ioGate_none (r : IoReady s h) : (s.fetch h).ioGate h = none := by
  have unparked : (s.fetch h).parked = false := r.unparked
  have sanitize : (s.fetch h).sec.sanActive = false := r.sanitize
  rw [State.ioGate, unparked, sanitize, r.fields.1, r.fields.2]
  rfl

/-- What a command names that `OnZone` places (R15, R55). -/
def targetOf (s : State) (h : HostCmd) (n : NsEntry) (z u len c key : Nat) (write : Bool) : IoTarget :=
  { ns := n, zone := some z, unit := u, units := len, carriage := c, cls := s.classFor c h.comp write, key := key }

theorem onTarget_passes (r : IoReady s h) (o : OnZone s h slba n z u c key) (inside : InSpace s n slba nlb) {write changes sized : Bool}
    (small : sized = true → nlb * n.unitsPerLba ≤ 4096) (f : State → IoTarget → State) :
    (s.fetch h).onTarget h slba nlb write changes sized f = f (s.fetch h) (targetOf s h n z u (nlb * n.unitsPerLba) c key write) := by
  have space : (s.fetch h).space h.nsid = some n := o.space
  have place : (s.fetch h).placeOf n slba = some (some z, u) := o.place
  have fits : ¬ (s.fetch h).spaceLbas n < slba + nlb := Nat.not_lt.2 inside
  have thawed : (s.fetch h).frozen h.comp = false := r.thawed
  have carriage : (s.fetch h).carriageFor h.comp (some z) = some c := o.carriage
  have keyed : (s.fetch h).keyFor c = some key := o.key
  have sizes : (sized && decide (State.mdtsUnits < nlb * n.unitsPerLba)) = false := by
    cases sized with
    | false => rfl
    | true => exact decide_eq_false (Nat.not_lt.2 (small rfl))
  rw [State.onTarget, ioGate_none r]
  dsimp only
  rw [space]
  dsimp only
  rw [place]
  dsimp only
  rw [if_neg fits, sizes, thawed, Bool.and_false, carriage]
  dsimp only
  rw [keyed]
  rfl

theorem resetAhead_none (o : OnZone s h slba n z u c key) : s.resetAhead h.nsid slba = false := by
  rw [State.resetAhead, o.space]
  dsimp only
  rw [o.place]
  exact o.noReset

end Target

end Sys2Proof.Proofs
end

section
/-! Settles O27: writes advance the write pointer of their zone (R56, R58, R66, R602). -/

namespace Sys2Proof.Machine

open Sys2Proof

theorem State.assignBlock_desk (s : State) (z) (d) : (State.assignBlock s z d).2.desk = s.desk := by
  simp only [State.assignBlock]
  repeat' split
  all_goals simp only [State.setBlock_desk, State.setDie_desk]
  all_goals exact State.takeSpare_desk ‹_›

theorem State.assignMembers_desk (s : State) (z) : (State.assignMembers s z).2.desk = s.desk := by
  unfold State.assignMembers
  have key : ∀ (l : List Nat) (acc : List (Nat × Nat) × State), (l.foldl (fun acc d =>
      let (b, t) := acc.2.assignBlock z d
      (acc.1 ++ [(d, b)], t)) acc).2.desk = acc.2.desk := by
    intro l
    induction l with
    | nil => exact fun _ => rfl
    | cons d l ih => exact fun acc => (ih _).trans (State.assignBlock_desk _ _ _)
  exact key _ _

theorem State.journal_desk (s : State) : (State.journal s).desk = s.desk := by
  simp only [State.journal, desk_sec, State.takeSeq_desk]

end Sys2Proof.Machine

namespace Sys2Proof.Proofs

open Sys2Proof Sys2Proof.Machine

section Admit

variable {s u : State} {z len c key : Nat} {st : ZState}

theorem data_of_desk {t : State} (h : t.desk = s.desk) : t.zns.data = s.zns.data := congrArg (fun d : Desk => d.zns.data) h

theorem car_of_lot {t : State} (h : t.lot = s.lot) : t.car = s.car := congrArg (fun l : Lot => l.car) h

theorem markFoldable_data (u : State) (z before : Nat) : (u.markFoldable z before).zns.data = u.zns.data := by
  unfold State.markFoldable
  dsimp only
  split
  · rfl
  · exact List.foldlRecOn (motive := fun t : State => t.zns.data = u.zns.data) _ _ rfl fun t ih r _ => ih

theorem noteWritten_zns (u : State) (z : Nat) : (u.noteWritten z).zns = u.zns := by
  unfold State.noteWritten
  repeat' split
  all_goals rfl

/-- An open zone is not the default entry of the table. -/
theorem ne_none_of_state {v : Zone} (h : v.state ≠ .empty) : v ≠ Zone.none := fun e => h (by rw [e]; rfl)

/-- What `u` with zone `z` set to `v` has of zones, data and carriages. -/
structure ZoneSet (s t : State) (z : Nat) (v : Zone) : Prop where
  zone : t.zone z = v
  others : ∀ y, y ≠ z → t.zone y = s.zone y
  data : t.zns.data = s.zns.data
  car : t.car = s.car

theorem zoneSet_setZone {v : Zone} (h : v.state ≠ .empty) (u : State) : ZoneSet u (u.setZone z v) z v where
  zone := look_put_of_ne _ _ _ _ (ne_none_of_state h)
  others _ ne := look_put_other _ _ _ _ _ ne
  data := rfl
  car := rfl

/-- What moves neither zones nor data nor carriages may follow. -/
theorem ZoneSet.then {t t' : State} {v : Zone} (h : ZoneSet s t z v) (lot : t'.lot = t.lot) (data : t'.zns.data = t.zns.data) :
    ZoneSet s t' z v where
  zone := (zone_of_lot lot z).trans h.zone
  others y ne := (zone_of_lot lot y).trans (h.others y ne)
  data := data.trans h.data
  car := (car_of_lot lot).trans h.car

theorem ZoneSet.after {t t' : State} {v w : Zone} (h : ZoneSet t t' z v) (first : ZoneSet s t z w) : ZoneSet s t' z v where
  zone := h.zone
  others y ne := (h.others y ne).trans (first.others y ne)
  data := h.data.trans first.data
  car := h.car.trans first.car

/-- The zone after a write of `len` units that leaves it in state `st` where it does not reach ZCAP. -/
def written (v : Zone) (len : Nat) (st : ZState) : Zone :=
  if v.wp + len = v.cap then { v with wp := v.cap, state := .full, beforeFull := some st } else { v with wp := v.wp + len, state := st }

theorem written_wp (v : Zone) (len : Nat) (st : ZState) : (written v len st).wp = v.wp + len := by
  unfold written
  split
  · next full => exact full.symm
  · rfl

theorem written_state (v : Zone) (len : Nat) (st : ZState) : (written v len st).state = if v.wp + len = v.cap then .full else st := by
  unfold written
  split <;> rfl

theorem advanceWp_sets (u : State) (z len : Nat) (h : st ≠ .empty) : ZoneSet u (u.advanceWp z len st) z (written (u.zone z) len st) := by
  have opened : (written (u.zone z) len st).state ≠ .empty := by
    rw [written_state]
    split
    · exact nofun
    · exact h
  refine ((zoneSet_setZone opened u).then (State.markFoldable_lot _ z (u.zone z).wp) (markFoldable_data _ _ _)).then
    (State.noteWritten_lot _ z) ?_
  exact congrArg (fun x => x.data) (noteWritten_zns _ z)

theorem leaveEmpty_sets (u : State) (z : Nat) (h : st ≠ .empty) : ∃ w : Zone, ZoneSet u (u.leaveEmpty z st) z w ∧ w.state = st ∧
    w.wp = (u.zone z).wp ∧ w.cap = (u.zone z).cap := by
  have lot : (u.assignMembers z).2.lot = u.lot := State.assignMembers_lot u z
  have same := zone_of_lot lot
  have data : (u.assignMembers z).2.zns.data = u.zns.data := data_of_desk (State.assignMembers_desk u z)
  have car := car_of_lot lot
  unfold State.leaveEmpty
  generalize u.assignMembers z = p at lot same data car
  obtain ⟨ms, t⟩ := p
  have here : t.zone z = u.zone z := same z
  dsimp only
  rw [here]
  exact ⟨_, ZoneSet.after (zoneSet_setZone h t) (w := u.zone z) ⟨here, fun y _ => same y, data, car⟩, rfl, rfl, rfl⟩

/-- The states from which a write goes on, and the state it leaves. -/
def WriteOpens (s : State) (z : Nat) (st : ZState) : Prop :=
  (s.zone z).state ∈ [.implicitOpen, .explicitOpen] ∧ st = (s.zone z).state ∨
    (s.zone z).state ∈ [.empty, .closed] ∧ st = .implicitOpen ∧
      s.openCheck z (decide ((s.zone z).state = .empty)) (s.defaultDirect z) = none

theorem WriteOpens.opened (o : WriteOpens s z st) : State.openedBy (s.zone z).state = st := by
  obtain ⟨open_, rfl⟩ | ⟨shut, rfl, -⟩ := o
  · obtain e | e : (s.zone z).state = .implicitOpen ∨ (s.zone z).state = .explicitOpen := by simpa using open_
    all_goals rw [e]; rfl
  · obtain e | e : (s.zone z).state = .empty ∨ (s.zone z).state = .closed := by simpa using shut
    all_goals rw [e]; rfl

theorem openedBy_ne (st : ZState) : State.openedBy st ≠ .empty := by
  unfold State.openedBy
  split <;> exact nofun

theorem admitWrite_takes (o : WriteOpens u z st) {off : Option Nat} (at_ : off = none ∨ off = some (u.zone z).wp)
    (fits : (u.zone z).wp + len ≤ (u.zone z).cap) : ∃ t, u.admitWrite z off len = .ok t ∧
    (t.zone z).wp = (u.zone z).wp + len ∧ (t.zone z).state = (if (u.zone z).wp + len = (u.zone z).cap then .full else st) ∧
    (∀ y, y ≠ z → t.zone y = u.zone y) ∧ t.zns.data = u.zns.data ∧ t.car = u.car := by
  have states : (u.zone z).state ∈ [.implicitOpen, .explicitOpen, .empty, .closed] := by
    obtain ⟨open_, -⟩ | ⟨shut, -⟩ := o
    · exact List.mem_append_left [.empty, .closed] open_
    · exact List.mem_append_right [.implicitOpen, .explicitOpen] shut
  have notFull : (u.zone z).state ≠ .full := fun e => by simp [e] at states
  have notReadOnly : (u.zone z).state ≠ .readOnly := fun e => by simp [e] at states
  have notOffline : (u.zone z).state ≠ .offline := fun e => by simp [e] at states
  have pointer : off.any (fun o => decide (o ≠ (u.zone z).wp)) = false := by
    obtain rfl | rfl := at_
    · rfl
    · exact decide_eq_false (not_not_intro rfl)
  have check : (if (u.zone z).state = .empty ∨ (u.zone z).state = .closed then
      u.openCheck z (decide ((u.zone z).state = .empty)) (u.defaultDirect z) else none) = none := by
    obtain ⟨open_, -⟩ | ⟨-, -, clear⟩ := o
    · refine if_neg fun shut => ?_
      obtain e | e := shut <;> simp [e] at open_
    · rw [clear, ite_self]
  have ran : u.admitWrite z off len =
      .ok (((if (u.zone z).state = .empty then u.leaveEmpty z .implicitOpen else u).advanceWp z len (State.openedBy (u.zone z).state)).journal) := by
    rw [State.admitWrite]
    dsimp only
    rw [if_neg notFull, if_neg notReadOnly, if_neg notOffline, pointer, if_neg Bool.false_ne_true, if_neg (Nat.not_lt.2 fits), check]
  obtain ⟨w, first, wp, cap⟩ : ∃ w : Zone, ZoneSet u (if (u.zone z).state = .empty then u.leaveEmpty z .implicitOpen else u) z w ∧
      w.wp = (u.zone z).wp ∧ w.cap = (u.zone z).cap := by
    split
    · obtain ⟨w, sets, -, wp, cap⟩ := leaveEmpty_sets u z (st := .implicitOpen) nofun
      exact ⟨w, sets, wp, cap⟩
    · exact ⟨_, ⟨rfl, fun _ _ => rfl, rfl, rfl⟩, rfl, rfl⟩
  have sets := (((advanceWp_sets _ z len (openedBy_ne (u.zone z).state)).after first).then (State.journal_lot _)
    (data_of_desk (State.journal_desk _)))
  rw [first.zone] at sets
  refine ⟨_, ran, ?_, ?_, sets.others, sets.data, sets.car⟩
  · rw [sets.zone, written_wp, wp]
  · rw [sets.zone, written_state, wp, cap, o.opened]

theorem addFlight_flights (u : State) (v : Flight) : (u.addFlight v).car.flights = u.car.flights ++ [v] := by
  unfold State.addFlight
  dsimp only
  split <;> rfl

theorem addFlight_zns (u : State) (v : Flight) : (u.addFlight v).zns = u.zns := by
  unfold State.addFlight
  dsimp only
  split <;> rfl

variable {h : HostCmd} {io : IoArgs} {n : NsEntry} {o cls slba nlb : Nat} {k : FlightKind} {i : Instr} {off : Option Nat}

/-- A write of a zone that is in no pair, in a state that takes it and within ZCAP, is admitted. -/
theorem writeZone_admits (write : WriteOpens s z st) (pair : s.zonePair z = none) (fits : (s.zone z).wp + len ≤ (s.zone z).cap)
    (at_ : off = none ∨ off = some (s.zone z).wp) {write_ : Bool}
    (run : exec i s = .next ((s.fetch h).writeZone h io k (targetOf s h n z o len c key write_) z off)) :
    WriteAdmitted i s h k z len c key st := by
  have write' : WriteOpens (s.fetch h) z st := write
  obtain ⟨t, ran, wp, state, others, data, car⟩ := admitWrite_takes write' (off := off) at_ fits
  have gate : (s.fetch h).pairGate z = .ok false := by
    have pair' : (s.fetch h).zonePair z = none := pair
    rw [State.pairGate, pair']
  have goes : (s.fetch h).writeZone h io k (targetOf s h n z o len c key write_) z off =
      t.addFlight (t.writeFlight h io k (targetOf s h n z o len c key write_) ((s.fetch h).zone z).wp false) := by
    rw [State.writeZone, gate]
    dsimp only
    rw [show (targetOf s h n z o len c key write_).units = len from rfl, ran]
  refine ⟨_, run.trans (congrArg Host.Outcome.next goes), ?_⟩
  have zns := addFlight_zns t (t.writeFlight h io k (targetOf s h n z o len c key write_) ((s.fetch h).zone z).wp false)
  have zones : ∀ y, (t.addFlight (t.writeFlight h io k (targetOf s h n z o len c key write_) ((s.fetch h).zone z).wp false)).zone y =
      t.zone y := fun y => congrArg (fun x : Zones => look Zone.none x.zones y) zns
  refine ⟨(congrArg Zone.wp (zones z)).trans wp, (congrArg Zone.state (zones z)).trans state,
    fun y ne => (zones y).trans (others y ne), (congrArg (fun x : Zones => x.data) zns).trans data, _,
    by rw [addFlight_flights]; exact List.mem_append_right _ (List.mem_singleton_self _),
    congrArg (fun x => x.nextFlight) car, rfl, rfl, rfl, rfl, rfl, rfl, rfl⟩

end Admit

end Sys2Proof.Proofs
end

section
/-! Settles O27, O28 and O29: host writes, and the first check that fails (R15, R56, R66, R108, R364, R421, R561). -/

namespace Sys2Proof.Proofs

open Sys2Proof Sys2Proof.Machine

section Write

variable {s : State} {h : HostCmd} {io : IoArgs} {n : NsEntry} {z u c key : Nat}

/-- Below the end of the write sequence (R203). -/
theorem seq_below (room : s.zns.seq < 2 ^ 56 - 1) : ¬ State.seqMax ≤ (s.fetch h).zns.seq := Nat.not_le.2 room

theorem write_runs (r : IoReady s h) (o : OnZone s h io.slba n z u c key) (inside : InSpace s n io.slba io.nlb)
    (room : s.zns.seq < 2 ^ 56 - 1) (small : io.nlb * n.unitsPerLba ≤ 4096) :
    exec (.write h io) s = .next ((s.fetch h).writeZone h io .write (targetOf s h n z u (io.nlb * n.unitsPerLba) c key true) z (some u)) := by
  rw [show exec (.write h io) s = execWrite h io s from rfl, execWrite, onZoneQueue_run r.fetched r.queue (resetAhead_none o),
    onTarget_passes r o inside (fun _ => small), if_neg (seq_below room)]
  rfl

theorem notConv_of_zone (o : OnZone s h io.slba n z u c key) : (s.fetch h).isConv h.nsid = false := by
  obtain ⟨p, zoned⟩ := o.zoned
  have space : (s.fetch h).space h.nsid = some n := o.space
  rw [State.isConv, space]
  dsimp only
  rw [zoned]

theorem zoneAppend_runs (r : IoReady s h) (o : OnZone s h io.slba n z u c key) (inside : InSpace s n io.slba io.nlb)
    (room : s.zns.seq < 2 ^ 56 - 1) (small : io.nlb * n.unitsPerLba ≤ 4096) (start : u = 0) :
    exec (.zoneAppend h io) s = .next ((s.fetch h).writeZone h io .append
      (targetOf s h n z u (io.nlb * n.unitsPerLba) c key true) z none) := by
  rw [show exec (.zoneAppend h io) s = execZoneAppend h io s from rfl, execZoneAppend,
    onZoneQueue_run r.fetched r.queue (resetAhead_none o), notConv_of_zone o, Bool.false_and, if_neg Bool.false_ne_true,
    onTarget_passes r o inside (fun _ => small), if_neg (not_not_intro (show (targetOf s h n z u _ c key true).unit = 0 from start)),
    if_neg (seq_below room)]
  rfl

/-- R66 gives no status to an Append off the ZSLBA: the model's choice is Invalid Field. -/
theorem zoneAppend_offStart (r : IoReady s h) (o : OnZone s h io.slba n z u c key) (inside : InSpace s n io.slba io.nlb)
    (small : io.nlb * n.unitsPerLba ≤ 4096) (off : u ≠ 0) :
    exec (.zoneAppend h io) s = .next ((s.fetch h).fail h .invalidField) := by
  rw [show exec (.zoneAppend h io) s = execZoneAppend h io s from rfl, execZoneAppend,
    onZoneQueue_run r.fetched r.queue (resetAhead_none o), notConv_of_zone o, Bool.false_and, if_neg Bool.false_ne_true,
    onTarget_passes r o inside (fun _ => small)]
  exact congrArg _ (if_pos off)

theorem writeZeroes_runs (r : IoReady s h) (o : OnZone s h io.slba n z u c key) (inside : InSpace s n io.slba io.nlb)
    (room : s.zns.seq < 2 ^ 56 - 1) :
    exec (.writeZeroes h io) s = .next ((s.fetch h).writeZone h io .zeroes
      (targetOf s h n z u (io.nlb * n.unitsPerLba) c key true) z (some u)) := by
  rw [show exec (.writeZeroes h io) s = execWriteZeroes h io s from rfl, execWriteZeroes,
    onZoneQueue_run r.fetched r.queue (resetAhead_none o), onTarget_passes r o inside (sized := false) (fun e => absurd e Bool.false_ne_true), if_neg (seq_below room)]
  rfl

/-- A write that its zone refuses with a status other than the frozen one completes with it and does nothing else. -/
theorem writeZone_refuses {k : FlightKind} {t : IoTarget} {off : Option Nat} {i : Instr} {st : Status} (pair : s.zonePair z = none)
    (run : exec i s = .next ((s.fetch h).writeZone h io k t z off)) (refused : (s.fetch h).admitWrite z off t.units = .error st)
    (other : st ≠ .vendor 0x83) : OnlyCompletes i s h st := by
  have pair' : (s.fetch h).zonePair z = none := pair
  have gate : (s.fetch h).pairGate z = .ok false := by rw [State.pairGate, pair']
  refine onlyCompletes_of_complete (a := 0) (b := 0) (run.trans (congrArg Host.Outcome.next ?_))
  rw [State.writeZone, gate]
  dsimp only
  rw [refused]
  exact if_neg other

end Write

/-- Settles O27: an open zone is written on, an Empty or Closed one is opened first; `writeZone_admits` follows the write. -/
theorem writesAdvanceTheWritePointerOfTheirZone : Obligations.WritesAdvanceTheWritePointerOfTheirZone := by
  unfold Obligations.WritesAdvanceTheWritePointerOfTheirZone
  intro s h io n z u c key r o inside room pair fits st opens
  refine ⟨fun at_ small => ?_, fun start small => ?_, fun at_ => ?_⟩
  · exact writeZone_admits opens pair fits (.inr (congrArg some at_)) (write_runs r o inside room small)
  · exact writeZone_admits opens pair fits (.inl rfl) (zoneAppend_runs r o inside room small start)
  · exact writeZone_admits opens pair fits (.inr (congrArg some at_)) (writeZeroes_runs r o inside room)

section Refused

variable {s : State} {z len : Nat} {off : Option Nat}

theorem admitWrite_full (full : (s.zone z).state = .full) : s.admitWrite z off len = .error .zoneFull := by
  rw [State.admitWrite]
  exact if_pos full

theorem admitWrite_readOnly (state : (s.zone z).state = .readOnly) : s.admitWrite z off len = .error .zoneReadOnly := by
  simp only [State.admitWrite, state, reduceCtorEq, if_false, if_true]

theorem admitWrite_offline (state : (s.zone z).state = .offline) : s.admitWrite z off len = .error .zoneOffline := by
  simp only [State.admitWrite, state, reduceCtorEq, if_false, if_true]

variable (live : (s.zone z).state ∉ [.full, .readOnly, .offline])
include live

theorem admitWrite_away {u : Nat} (away : u ≠ (s.zone z).wp) : s.admitWrite z (some u) len = .error .zoneInvalidWrite := by
  obtain ⟨notFull, notReadOnly, notOffline⟩ : _ ∧ _ ∧ _ := by simpa using live
  rw [State.admitWrite]
  dsimp only
  rw [if_neg notFull, if_neg notReadOnly, if_neg notOffline]
  exact if_pos (decide_eq_true away)

theorem admitWrite_beyond (beyond : (s.zone z).cap < (s.zone z).wp + len) :
    s.admitWrite z (some (s.zone z).wp) len = .error .zoneBoundary := by
  obtain ⟨notFull, notReadOnly, notOffline⟩ : _ ∧ _ ∧ _ := by simpa using live
  rw [State.admitWrite]
  dsimp only
  rw [if_neg notFull, if_neg notReadOnly, if_neg notOffline, if_neg (by simp)]
  exact if_pos beyond

end Refused

/-- Settles O28: each row of R66 refuses before the zone changes. -/
theorem refusedWritesLeaveTheirZone : Obligations.RefusedWritesLeaveTheirZone := by
  unfold Obligations.RefusedWritesLeaveTheirZone
  intro s h io n z u c key r o inside room pair small
  have write := write_runs r o inside room small
  refine ⟨fun full => ?_, fun state => ?_, fun state => ?_, fun live away => ?_, fun live at_ beyond => ?_, fun full start => ?_,
    fun off => onlyCompletes_of_complete (zoneAppend_offStart r o inside small off)⟩
  · exact writeZone_refuses pair write (admitWrite_full (s := s.fetch h) full) nofun
  · exact writeZone_refuses pair write (admitWrite_readOnly (s := s.fetch h) state) nofun
  · exact writeZone_refuses pair write (admitWrite_offline (s := s.fetch h) state) nofun
  · exact writeZone_refuses pair write (admitWrite_away (s := s.fetch h) live away) nofun
  · rw [at_] at write
    exact writeZone_refuses pair write (admitWrite_beyond (s := s.fetch h) live beyond) nofun
  · exact writeZone_refuses pair (zoneAppend_runs r o inside room small start) (admitWrite_full (s := s.fetch h) full) nofun

section Checks

variable {s : State} {h : HostCmd} {io : IoArgs} {i : Instr}

/-- The command goes through `onTarget`, and names nothing before it. -/
def Targets (i : Instr) (s : State) (h : HostCmd) (io : IoArgs) : Prop :=
  ∃ (write changes sized : Bool) (f : State → IoTarget → State),
    exec i s = .next ((s.fetch h).onTarget h io.slba io.nlb write changes sized f)

theorem targets_of_mem (fetched : s.fetchable h = true) (queue : h.qid ≠ 0) (clear : s.resetAhead h.nsid io.slba = false)
    (mem : i ∈ [Instr.read h io, .write h io, .writeZeroes h io, .verify h io, .flush h]) (other : i ≠ .flush h) : Targets i s h io := by
  simp only [List.mem_cons, List.not_mem_nil, or_false] at mem
  obtain rfl | rfl | rfl | rfl | rfl := mem
  · exact ⟨_, _, _, _, by rw [show exec (.read h io) s = execRead h io s from rfl, execRead, onIo_run fetched queue]⟩
  · exact ⟨_, _, _, _, by rw [show exec (.write h io) s = execWrite h io s from rfl, execWrite, onZoneQueue_run fetched queue clear]⟩
  · exact ⟨_, _, _, _, by rw [show exec (.writeZeroes h io) s = execWriteZeroes h io s from rfl, execWriteZeroes, onZoneQueue_run fetched queue clear]⟩
  · exact ⟨_, _, _, _, by rw [show exec (.verify h io) s = execVerify h io s from rfl, execVerify, onIo_run fetched queue]⟩
  · exact absurd rfl other

theorem ioGate_refuses {st : Status} (fetched : s.fetchable h = true) (queue : h.qid ≠ 0) (clear : s.resetAhead h.nsid io.slba = false)
    (mem : i ∈ [Instr.read h io, .write h io, .writeZeroes h io, .verify h io, .flush h]) (gate : (s.fetch h).ioGate h = some st) :
    OnlyCompletes i s h st := by
  refine onlyCompletes_of_complete (a := 0) (b := 0) ?_
  by_cases flush : i = .flush h
  · rw [flush, show exec (.flush h) s = execFlush h s from rfl, execFlush, onIo_run fetched queue, gate]
    rfl
  · obtain ⟨_, _, _, _, run⟩ := targets_of_mem fetched queue clear mem flush
    rw [run, State.onTarget, gate]
    rfl

variable (t : Targets i s h io) (gate : (s.fetch h).ioGate h = none)
include t gate

theorem targets_noSpace (space : s.space h.nsid = none) : OnlyCompletes i s h .invalidNamespace := by
  obtain ⟨_, _, _, _, run⟩ := t
  have space' : (s.fetch h).space h.nsid = none := space
  refine onlyCompletes_of_complete (a := 0) (b := 0) ?_
  rw [run, State.onTarget, gate]
  dsimp only
  rw [space']
  rfl

theorem targets_noPlace {n : NsEntry} (space : s.space h.nsid = some n) (place : s.placeOf n io.slba = none) :
    OnlyCompletes i s h .lbaOutOfRange := by
  obtain ⟨_, _, _, _, run⟩ := t
  have space' : (s.fetch h).space h.nsid = some n := space
  have place' : (s.fetch h).placeOf n io.slba = none := place
  refine onlyCompletes_of_complete (a := 0) (b := 0) ?_
  rw [run, State.onTarget, gate]
  dsimp only
  rw [space']
  dsimp only
  rw [place']
  rfl

theorem targets_missed {n : NsEntry} {z : Option Nat} {u : Nat} (space : s.space h.nsid = some n)
    (place : s.placeOf n io.slba = some (z, u)) (inside : InSpace s n io.slba io.nlb) (small : io.nlb * n.unitsPerLba ≤ 4096)
    (thawed : s.frozen h.comp = false) (missed : s.carriageFor h.comp z = none) : exec i s = .next ((s.fetch h).refuseMiss h) := by
  obtain ⟨_, _, sized, _, run⟩ := t
  have space' : (s.fetch h).space h.nsid = some n := space
  have place' : (s.fetch h).placeOf n io.slba = some (z, u) := place
  have thawed' : (s.fetch h).frozen h.comp = false := thawed
  have missed' : (s.fetch h).carriageFor h.comp z = none := missed
  have fits : ¬ (s.fetch h).spaceLbas n < io.slba + io.nlb := Nat.not_lt.2 inside
  have sizes : (sized && decide (State.mdtsUnits < io.nlb * n.unitsPerLba)) = false := by
    rw [show decide (State.mdtsUnits < io.nlb * n.unitsPerLba) = false from decide_eq_false (Nat.not_lt.2 small), Bool.and_false]
  rw [run, State.onTarget, gate]
  dsimp only
  rw [space']
  dsimp only
  rw [place']
  dsimp only
  rw [if_neg fits, sizes, thawed', Bool.and_false, missed']
  rfl

end Checks

/-- Settles O29: the checks that every I/O command shares come in one order, and the first that fails names the status. -/
theorem ioCommandsCompleteWithTheFirstCheckThatFails : Obligations.IoCommandsCompleteWithTheFirstCheckThatFails := by
  unfold Obligations.IoCommandsCompleteWithTheFirstCheckThatFails
  intro s h io fetched queue clear i mem
  have refuses : ∀ st, (s.fetch h).ioGate h = some st → OnlyCompletes i s h st := fun st => ioGate_refuses fetched queue clear mem
  have gate : (s.fetch h).ioGate h = if s.boot.parked then some .sequenceError else if s.sec.sanActive then some .sanitizeInProgress
    else if h.fused || h.rsvd then some .invalidField else none := rfl
  refine ⟨fun parked => refuses _ ?_, fun unparked active => refuses _ ?_, fun unparked idle bad => refuses _ ?_,
    fun unparked idle fused rsvd other => ?_⟩
  · rw [gate, parked]
    rfl
  · rw [gate, unparked, active]
    rfl
  · rw [gate, unparked, idle, if_neg Bool.false_ne_true, if_neg Bool.false_ne_true, if_pos]
    exact Bool.or_eq_true_iff.2 bad
  · have t := targets_of_mem fetched queue clear mem other
    have open_ : (s.fetch h).ioGate h = none := by
      rw [gate, unparked, idle, fused, rsvd]
      rfl
    refine ⟨targets_noSpace t open_, fun n => targets_noPlace t open_, fun n z u space place inside small thawed missed => ?_⟩
    refine ⟨_, targets_missed t open_ space place inside small thawed missed, completed_complete _ _ _ _ _, ?_⟩
    have miss : ∃ v, (s.fetch h).refuseMiss h = State.fail v h .namespaceNotReady ∧ v.zns = s.zns ∧ v.fls = s.fls ∧
      v.car = { s.car with miss := min 0xFFFFFFFF (s.car.miss + 1) } := ⟨_, rfl, rfl, rfl, rfl⟩
    obtain ⟨v, eq, zns, fls, car⟩ := miss
    obtain ⟨same, -⟩ := complete_host v h .namespaceNotReady 0 0
    rw [eq, State.fail, same]
    exact ⟨zns, fls, car⟩

end Sys2Proof.Proofs
end

section
/-! SUPPORT. The read path where nothing has to be sensed, and how a read ends (R117, R144). -/

namespace Sys2Proof.Proofs

open Sys2Proof Sys2Proof.Machine

section EndRead

variable {u : State} {v : Flight} {z : Nat}

/-- A read of a host on zone `z`, neither forwarded to nor from another module. -/
structure Reads (v : Flight) (z : Nat) : Prop where
  kind : v.kind ∈ [.read, .verify, .compare]
  zone : v.zone = some z
  alone : v.peer = none ∧ v.ticket = none ∧ v.group = false ∧ v.squashed = false ∧ v.forwarded = false

/-- No key is being erased and no compartment is being saved. -/
structure NoLeave (u : State) : Prop where
  keys : u.sec.keyErasing = none
  saves : ∀ m c, (m, c) ∈ u.cmp.table → c.state ≠ .saving

theorem Reads.notFrame (m : Reads v z) : v.kind ≠ .frameAppend ∧ v.kind ≠ .frameRead := by
  have mem := m.kind
  exact ⟨fun e => by simp [e] at mem, fun e => by simp [e] at mem⟩

theorem removeFlight_calm (m : v.kind ≠ .frameAppend ∧ v.kind ≠ .frameRead) (calm : u.sec.keyErasing = none) :
    u.removeFlight v = { u with car := (u.removeFlight v).car } := by
  unfold State.removeFlight
  rw [State.codecLeft, if_neg m.1, if_neg m.2]
  have key : ∀ t : State, t.sec.keyErasing = none → t.settleKey = t := fun t e => by rw [State.settleKey, e]
  rw [key _ (by split <;> exact calm)]
  split <;> rfl

theorem settleZones_idle (idle : u.car.flights = []) (z : Nat) : u.settleZones z = u := by
  have key : u.settleZone z = u := by rw [State.settleZone, idle]; rfl
  rw [State.settleZones, key, key]

theorem settleSaves_idle (saves : ∀ m c, (m, c) ∈ u.cmp.table → c.state ≠ .saving) : u.settleSaves = u :=
  foldl_of_kept fun e mem => if_neg fun both => saves e.1 e.2 mem both.1

theorem postFlight_reads (m : Reads v z) : u.postFlight v = u.complete v.cmd v.status 0 0 := by
  obtain ⟨peer, ticket, group, squashed, -⟩ := m.alone
  have mem := m.kind
  simp only [List.mem_cons, List.not_mem_nil, or_false] at mem
  unfold State.postFlight
  simp only [peer, squashed, group, ticket, Option.isSome_none, Bool.false_eq_true, if_false]
  obtain kind | kind | kind := mem <;> rw [kind]

/-- The state of no compartment moves when its bytes are counted. -/
theorem count_saves (saves : ∀ m c, (m, c) ∈ u.cmp.table → c.state ≠ .saving) (k a b : Nat) :
    ∀ m c, (m, c) ∈ (u.count k a b).cmp.table → c.state ≠ .saving := by
  intro m c mem
  obtain old | new : (m, c) ∈ u.cmp.table ∨ (m, c) = (k, { u.comp k with
      bytesRead := (u.comp k).bytesRead + a, bytesWritten := (u.comp k).bytesWritten + b }) := mem_put mem
  · exact saves m c old
  · obtain ⟨-, rfl⟩ := Prod.mk.inj new
    show (u.comp k).state ≠ .saving
    by_cases free : u.comp k = Comp.free
    · rw [free]
      exact nofun
    · exact saves k _ (mem_of_look free)

theorem count_kept (u : State) (k a b : Nat) : (u.count k a b).car = u.car ∧ (u.count k a b).zns = u.zns ∧ (u.count k a b).fls = u.fls ∧
    (u.count k a b).hif.out = u.hif.out := ⟨rfl, rfl, rfl, rfl⟩

/-- What a read leaves as it ends. -/
structure ReadEnds (u t : State) (v : Flight) : Prop where
  flights : t.car.flights = []
  zns : t.zns = u.zns
  fls : t.fls = u.fls
  completed : Completed t v.cmd v.status
  data : v.kind = .read → v.status = .success → Output.data v.cmd v.data ∈ t.hif.out

theorem endRead_reads (m : Reads v z) (last : u.car.flights.filter (fun x => decide (x.id ≠ v.id)) = []) (calm : NoLeave u) :
    ReadEnds u (u.endRead v) v := by
  obtain ⟨peer, -, -, squashed, -⟩ := m.alone
  obtain ⟨-, -, flights⟩ := removeFlight_kept (u := u) m.notFrame
  have gone := removeFlight_calm m.notFrame calm.keys
  rw [last] at flights
  unfold State.endRead
  obtain ⟨s1, h1⟩ : ∃ s1, s1 = u.removeFlight v := ⟨_, rfl⟩
  rw [← h1] at flights gone ⊢
  obtain ⟨s2, h2⟩ : ∃ s2, s2 = if v.status = .success ∧ v.kind = .read ∧ !v.squashed ∧ v.peer = none then s1.emit (.data v.cmd v.data)
    else s1 := ⟨_, rfl⟩
  rw [m.zone]
  dsimp only
  rw [← h2, postFlight_reads m]
  have zns : s1.zns = u.zns := by rw [gone]
  have fls : s1.fls = u.fls := by rw [gone]
  have cmp : s1.cmp = u.cmp := by rw [gone]
  have e2 : s2.zns = u.zns ∧ s2.fls = u.fls ∧ s2.cmp = u.cmp ∧ s2.car = s1.car := by
    rw [h2]
    split <;> exact ⟨zns, fls, cmp, rfl⟩
  have d2 : v.kind = .read → v.status = .success → Output.data v.cmd v.data ∈ s2.hif.out := by
    intro kind status
    rw [h2, if_pos ⟨status, kind, by rw [squashed]; rfl, peer⟩]
    exact List.mem_cons_self
  obtain ⟨same, -⟩ := complete_host s2 v.cmd v.status 0 0
  have done := completed_complete s2 v.cmd v.status 0 0
  obtain ⟨s3, h3⟩ : ∃ s3, s3 = s2.complete v.cmd v.status 0 0 := ⟨_, rfl⟩
  rw [← h3] at same done ⊢
  obtain ⟨s4, h4⟩ : ∃ s4, s4 = if v.status = .success ∧ v.peer = none then s3.count v.cmd.comp (v.len * 4096) 0 else s3 := ⟨_, rfl⟩
  rw [← h4]
  have e3 : s3.zns = u.zns ∧ s3.fls = u.fls ∧ s3.cmp = u.cmp ∧ s3.car.flights = [] := by
    rw [same]
    exact ⟨e2.1, e2.2.1, e2.2.2.1, (congrArg (fun c => c.flights) e2.2.2.2).trans flights⟩
  have saves3 : ∀ m c, (m, c) ∈ s3.cmp.table → c.state ≠ .saving := by
    rw [e3.2.2.1]
    exact calm.saves
  have e4 : s4.car = s3.car ∧ s4.zns = s3.zns ∧ s4.fls = s3.fls ∧ s4.hif.out = s3.hif.out := by
    rw [h4]
    split
    · exact count_kept _ _ _ _
    · exact ⟨rfl, rfl, rfl, rfl⟩
  have saves4 : ∀ m c, (m, c) ∈ s4.cmp.table → c.state ≠ .saving := by
    rw [h4]
    split
    · exact count_saves saves3 _ _ _
    · exact saves3
  have idle : s4.car.flights = [] := (congrArg (fun c => c.flights) e4.1).trans e3.2.2.2
  rw [settleZones_idle idle, settleSaves_idle saves4]
  obtain ⟨c, out, rest⟩ := done
  refine ⟨idle, e4.2.1.trans e3.1, e4.2.2.1.trans e3.2.1, ⟨c, e4.2.2.2 ▸ out, rest⟩, fun kind status => ?_⟩
  rw [e4.2.2.2, h3]
  obtain ⟨-, -, l, out3⟩ := complete_host s2 v.cmd v.status 0 0
  rw [out3]
  exact List.mem_append_right _ (List.mem_cons_of_mem _ (d2 kind status))

end EndRead

section StartRead

variable {u : State} {h : HostCmd} {k : FlightKind} {t : IoTarget} {st : Status} {z : Nat}

/-- A read that needs no sense and forwards nowhere ends as it starts. -/
theorem settleRead_ends {v : Flight} (m : Reads v z) (found : u.flight v.id = some v) (unpaired : u.zonePair z = none)
    (sensed : State.sensed v = true) : u.settleRead v.id = ((u.endRead v).retireRead v).releaseLeft := by
  obtain ⟨peer, -, -, -, forwarded⟩ := m.alone
  have read : State.isRead v.kind = true := by
    have mem := m.kind
    simp only [List.mem_cons, List.not_mem_nil, or_false] at mem
    obtain kind | kind | kind := mem <;> rw [kind] <;> rfl
  have stays : u.forwards v = none := by
    rw [State.forwards, m.zone]
    dsimp only
    rw [forwarded, peer, State.livePair, unpaired]
    rfl
  rw [State.settleRead, found]
  dsimp only
  rw [forwarded, read, sensed, stays, if_neg Bool.false_ne_true]
  exact if_neg fun frame : _ ∧ _ => m.notFrame.2 frame.1

theorem deferErase_fls (u : State) (d b : Nat) (r : Role) : u.deferErase d b r = { u with fls := (u.deferErase d b r).fls } := by
  unfold State.deferErase
  dsimp only
  split <;> rfl

theorem releaseLeft_fls (u : State) : u.releaseLeft = { u with fls := u.releaseLeft.fls } :=
  List.foldlRecOn (motive := fun t : State => t = { u with fls := t.fls }) _ _ rfl
    fun t ih e _ => (deferErase_fls t _ _ _).trans (by rw [ih])

theorem startRead_completes (alone : u.car.flights = []) (calm : NoLeave u) (unpaired : u.zonePair z = none) (zone : t.zone = some z)
    (online : (u.zone z).state ≠ .offline) (inside : t.unit + t.units ≤ t.ns.zsze * t.ns.unitsPerLba)
    (near : u.sensesOf (some z) t.unit t.units = []) (intact : u.mem.bad = []) (kind : k ∈ [.read, .verify, .compare]) :
    (u.startRead h k t st).zns = u.zns ∧ Completed (u.startRead h k t st) h st ∧
      (k = .read → st = .success → Output.data h (u.dataOf h.nsid t) ∈ (u.startRead h k t st).hif.out) := by
  have kept : u.dataLost t = false := by
    rw [State.dataLost, zone, List.any_eq_false]
    dsimp only
    rw [intact]
    exact fun _ _ => Bool.false_ne_true
  obtain ⟨v, hv⟩ : ∃ v : Flight, v = { u.newFlight h k t.carriage t.cls (some z) with
      start := t.unit, len := t.units, key := t.key, data := u.dataOf h.nsid t, senses := [], status := st } := ⟨_, rfl⟩
  have reads : Reads v z := by
    rw [hv]
    exact ⟨kind, rfl, rfl, rfl, rfl, rfl, rfl⟩
  have flights : (u.addFlight v).car.flights = [v] := by rw [addFlight_flights, alone]; rfl
  have found : (u.addFlight v).flight v.id = some v := by
    rw [State.flight, flights]
    exact List.find?_cons_of_pos (decide_eq_true rfl)
  have senses : v.senses = [] := by rw [hv]
  have id : v.id = (u.newFlight h k t.carriage t.cls (some z)).id := by rw [hv]
  have cmd : v.cmd = h := by rw [hv]; rfl
  have status : v.status = st := by rw [hv]
  have payload : v.data = u.dataOf h.nsid t := by rw [hv]
  have same : (u.addFlight v) = { u with car := (u.addFlight v).car, lvl := (u.addFlight v).lvl } := by
    unfold State.addFlight
    dsimp only
    split <;> rfl
  have ran : u.startRead h k t st = (u.addFlight v).settleRead v.id := by
    have across : (t.zone.isSome && decide (t.ns.zsze * t.ns.unitsPerLba < t.unit + t.units)) = false := by
      rw [zone, decide_eq_false (Nat.not_lt.2 inside)]
      rfl
    have schedule : (u.addFlight v).scheduleSenses v.id = u.addFlight v := by
      rw [State.scheduleSenses, found]
      dsimp only
      rw [senses]
      rfl
    have on : ¬ decide ((u.zone z).state = .offline) = true := by rw [decide_eq_false online]; exact Bool.false_ne_true
    rw [State.startRead, across, kept, zone, near]
    dsimp only
    rw [if_neg on]
    simp only [Bool.false_eq_true, if_false]
    rw [← hv, ← id, schedule]
  obtain ⟨_, zns, _, completed, data⟩ := endRead_reads (u := u.addFlight v) reads (by rw [flights]; simp) ⟨by rw [same]; exact calm.keys,
    by rw [same]; exact calm.saves⟩
  have left : (u.addFlight v).settleRead v.id = { (u.addFlight v).endRead v with
      fls := ((((u.addFlight v).endRead v).retireRead v).releaseLeft).fls } := by
    rw [settleRead_ends reads found (by rw [same]; exact unpaired) (by rw [State.sensed, senses]; rfl), releaseLeft_fls]
    rw [State.retireRead, senses]
    rfl
  rw [ran, left]
  refine ⟨zns.trans (by rw [same]), ?_, ?_⟩
  · rw [cmd, status] at completed
    exact completed
  · intro read success
    have out := data (by rw [hv]; exact read) (by rw [status]; exact success)
    rw [cmd, payload] at out
    exact out

end StartRead

end Sys2Proof.Proofs
end

section
/-! Settles O30: reads of units that need no sense, FLUSH and the hints of a zoned namespace (R66, R117, R421). -/

namespace Sys2Proof.Proofs

open Sys2Proof Sys2Proof.Machine

section Reads

variable {s : State} {h : HostCmd} {io : IoArgs} {n : NsEntry} {z u c key : Nat}

theorem read_runs (r : IoReady s h) (o : OnZone s h io.slba n z u c key) (inside : InSpace s n io.slba io.nlb)
    (small : io.nlb * n.unitsPerLba ≤ 4096) : exec (.read h io) s =
      .next ((s.fetch h).startRead h .read (targetOf s h n z u (io.nlb * n.unitsPerLba) c key false) (State.readChecks io)) := by
  rw [show exec (.read h io) s = execRead h io s from rfl, execRead, onIo_run r.fetched r.queue, onTarget_passes r o inside fun _ => small]

theorem verify_runs (r : IoReady s h) (o : OnZone s h io.slba n z u c key) (inside : InSpace s n io.slba io.nlb)
    (small : io.nlb * n.unitsPerLba ≤ 4096) : exec (.verify h io) s =
      .next ((s.fetch h).startRead h .verify (targetOf s h n z u (io.nlb * n.unitsPerLba) c key false) (State.readChecks io)) := by
  rw [show exec (.verify h io) s = execVerify h io s from rfl, execVerify, onIo_run r.fetched r.queue,
    onTarget_passes r o inside fun _ => small]

/-- A COMPARE without protection information compares the bytes alone. -/
theorem compare_runs (r : IoReady s h) (o : OnZone s h io.slba n z u c key) (inside : InSpace s n io.slba io.nlb)
    (small : io.nlb * n.unitsPerLba ≤ 4096) (bytes : List Byte) : exec (.compare h io bytes []) s =
      .next ((s.fetch h).startRead h .compare (targetOf s h n z u (io.nlb * n.unitsPerLba) c key false)
        (if bytes = (s.fetch h).dataOf h.nsid (targetOf s h n z u (io.nlb * n.unitsPerLba) c key false) then .success
          else .compareFailure)) := by
  rw [show exec (.compare h io bytes []) s = execCompare h io bytes [] s from rfl, execCompare, onIo_run r.fetched r.queue,
    onTarget_passes r o inside fun _ => small]
  rfl

theorem readChecks_none (h : io.prchk = 0) : State.readChecks io = .success := by
  rw [State.readChecks, h]
  rfl

theorem flush_completes (r : IoReady s h) : OnlyCompletes (.flush h) s h .success := by
  refine onlyCompletes_of_complete (a := 0) (b := 0) ?_
  rw [show exec (.flush h) s = execFlush h s from rfl, execFlush, onIo_run r.fetched r.queue, ioGate_none r]
  rfl

theorem datasetManagement_completes (r : IoReady s h) (o : OnZone s h io.slba n z u c key) (inside : InSpace s n io.slba io.nlb)
    (dealloc : Bool) : OnlyCompletes (.datasetManagement h dealloc [(io.slba, io.nlb)]) s h .success := by
  refine onlyCompletes_of_complete (a := 0) (b := 0) ?_
  rw [show exec (.datasetManagement h dealloc [(io.slba, io.nlb)]) s = execDatasetManagement h dealloc [(io.slba, io.nlb)] s from rfl,
    execDatasetManagement, onIo_run r.fetched r.queue]
  dsimp only
  rw [onTarget_passes r o inside (sized := false) (fun e => absurd e Bool.false_ne_true)]
  rfl

end Reads

/-- Settles O30: each read starts with nothing to sense, so it ends at once (`startRead_completes`). -/
theorem readsCompleteWithTheirData : Obligations.ReadsCompleteWithTheirData := by
  unfold Obligations.ReadsCompleteWithTheirData
  intro s h io n z u c key r o inside small alone saves
  refine ⟨fun offline => ?_, ?_, flush_completes r,
    datasetManagement_completes r o inside⟩
  · refine onlyCompletes_of_complete (a := 0) (b := 0) ((read_runs r o inside small).trans ?_)
    have off : ((s.fetch h).zone z).state = .offline := offline
    rw [State.startRead]
    dsimp only [targetOf]
    exact congrArg _ (if_pos (decide_eq_true off))
  · intro online within near noChecks intact keys unpaired bytes
    have completes : ∀ (k : FlightKind) (st : Status), k ∈ [.read, .verify, .compare] → _ := fun k st kind =>
      startRead_completes (u := s.fetch h) (h := h) (k := k) (t := targetOf s h n z u (io.nlb * n.unitsPerLba) c key false) (st := st) (z := z)
        alone ⟨keys, saves⟩ unpaired rfl online within near intact kind
    have payload : bytes = (s.fetch h).dataOf h.nsid (targetOf s h n z u (io.nlb * n.unitsPerLba) c key false) := rfl
    have read := read_runs r o inside small
    have verify := verify_runs r o inside small
    rw [readChecks_none noChecks] at read verify
    refine ⟨?_, ?_, ?_, fun other differs => ?_⟩
    · obtain ⟨zns, completed, data⟩ := completes .read .success (by simp)
      exact ⟨_, read, completed, data rfl rfl, zns⟩
    · obtain ⟨zns, completed, -⟩ := completes .verify .success (by simp)
      exact ⟨_, verify, completed, zns⟩
    · obtain ⟨zns, completed, -⟩ := completes .compare .success (by simp)
      have same := compare_runs r o inside small bytes
      rw [if_pos payload] at same
      exact ⟨_, same, completed, zns⟩
    · obtain ⟨zns, completed, -⟩ := completes .compare .compareFailure (by simp)
      have same := compare_runs r o inside small other
      rw [if_neg fun e => differs (e.trans payload.symm)] at same
      exact ⟨_, same, completed, zns⟩

end Sys2Proof.Proofs
end

section
/-! Settles O31: the zone management commands of a host (R66, R67, R69 to R71, R73). -/

namespace Sys2Proof.Proofs

open Sys2Proof Sys2Proof.Machine

section Zone

variable {s : State} {h : HostCmd} {slba : Nat} {n : NsEntry} {z u c key : Nat} {a : ZAct} {i : Instr}

/-- The target of a command on a whole zone. -/
def zoneTarget (s : State) (h : HostCmd) (n : NsEntry) (z u c : Nat) (write : Bool) : IoTarget :=
  { ns := n, zone := some z, unit := u, units := 0, carriage := c, cls := s.classFor c h.comp write, key := 0 }

theorem onZone_passes (r : IoReady s h) (o : OnZone s h slba n z u c key) {write changes : Bool} {other : Status}
    (f : State → IoTarget → Nat → State) :
    (s.fetch h).onZone h slba write changes other f = f (s.fetch h) (zoneTarget s h n z u c write) z := by
  have space : (s.fetch h).space h.nsid = some n := o.space
  have place : (s.fetch h).placeOf n slba = some (some z, u) := o.place
  have thawed : (s.fetch h).frozen h.comp = false := r.thawed
  have carriage : (s.fetch h).carriageFor h.comp (some z) = some c := o.carriage
  rw [State.onZone, ioGate_none r]
  dsimp only
  rw [space]
  dsimp only
  rw [place]
  dsimp only
  rw [thawed, Bool.and_false, carriage]
  rfl

/-- The flight of a zone action of a host. -/
def sendFlight (s : State) (h : HostCmd) (z c : Nat) (a : ZAct) : Flight :=
  (s.fetch h).newFlight h a.kind c (s.classFor c h.comp true) (some z)

theorem zoneSend_runs {name : String} (run : exec i s = zoneSend name a h slba false s) (r : IoReady s h) (o : OnZone s h slba n z 0 c key) :
    exec i s = .next (((s.fetch h).addFlight (sendFlight s h z c a)).zoneAct (sendFlight s h z c a) z a) := by
  have lba : (if false = true then 0 else slba) = slba := rfl
  rw [run, zoneSend]
  dsimp only
  rw [lba, onZoneQueue_run r.fetched r.queue (resetAhead_none o), onZone_passes r o]
  rfl

theorem managing_sendFlight : Managing (sendFlight s h z c a) z a := ⟨rfl, rfl, ⟨rfl, rfl, rfl, rfl⟩, rfl⟩

theorem postFlight_sendFlight (e : State) (st : Status) : e.postFlight { sendFlight s h z c a with status := st } = e.complete h st 0 0 :=
  (postFlight_managing managing_sendFlight st).trans (if_neg Bool.false_ne_true)

theorem addFlight_frame (u : State) (v : Flight) : u.addFlight v = { u with car := (u.addFlight v).car, lvl := (u.addFlight v).lvl } := by
  unfold State.addFlight
  dsimp only
  split <;> rfl

/-- What may fly beside a zone action of a host: nothing on its zone, and nothing with its number. -/
def ZoneFree (s : State) (z : Nat) : Prop := ∀ x ∈ s.car.flights, x.zone ≠ some z ∧ x.id < s.car.nextFlight

theorem flights_sendFlight (free : ZoneFree s z) :
    sendFlight s h z c a ∈ ((s.fetch h).addFlight (sendFlight s h z c a)).car.flights ∧
    (∀ x ∈ ((s.fetch h).addFlight (sendFlight s h z c a)).car.flights, x.id = (sendFlight s h z c a).id → x = sendFlight s h z c a) ∧
    (∀ x ∈ ((s.fetch h).addFlight (sendFlight s h z c a)).car.flights, x.zone = some z → x = sendFlight s h z c a) := by
  rw [addFlight_flights]
  refine ⟨List.mem_append_right _ (List.mem_singleton_self _), fun x mem same => ?_, fun x mem there => ?_⟩
  · obtain old | new := List.mem_append.1 mem
    · exact absurd same (Nat.ne_of_lt (free x old).2)
    · exact List.mem_singleton.1 new
  · obtain old | new := List.mem_append.1 mem
    · exact absurd there (free x old).1
    · exact List.mem_singleton.1 new

/-- What the statement asks of a zone action beside the command itself. -/
structure Sends (s : State) (z : Nat) : Prop where
  pair : s.zonePair z = none
  free : ZoneFree s z
  thawed : s.frozen (s.zoneComp z) = false
  canon : canon Zone.none s.zns.zones = true

theorem zoneSend_effect (sends : Sends s z)
    (run : exec i s = .next (((s.fetch h).addFlight (sendFlight s h z c a)).zoneAct (sendFlight s h z c a) z a))
    (from_ : a.from_ (s.zone z).state = true) (opens : a = .open_ → (s.zone z).state ≠ .empty)
    (finishes : a = .finish → (s.zone z).state = .empty) :
    Goes i s (fun t => Completed t h .success ∧ t.zone z = s.zoneAfter z a ∧ ∀ y, y ≠ z → t.zone y = s.zone y) := by
  obtain ⟨u, hu⟩ : ∃ u, u = (s.fetch h).addFlight (sendFlight s h z c a) := ⟨_, rfl⟩
  have same : u = { s with hif := u.hif, pwr := u.pwr, car := u.car, lvl := u.lvl } := by
    rw [hu, addFlight_frame]
    rfl
  have zone : ∀ y, u.zone y = s.zone y := fun y => by rw [same]; rfl
  obtain ⟨here, ids, only⟩ := flights_sendFlight (h := h) (c := c) (a := a) sends.free
  rw [← hu] at run here ids only
  have passes : u.zoneRefusal z a = none := zoneRefusal_none (by rw [same]; exact sends.thawed) (by rw [zone]; exact from_)
    (fun e => by rw [zone]; exact opens e)
  obtain ⟨e, ran, zones, -⟩ := zoneAct_effect managing_sendFlight (by rw [same]; exact sends.pair) here ids only passes
    (fun e => by rw [zone]; exact opens e) (fun e => by rw [zone]; exact finishes e)
  have post := postFlight_sendFlight (s := s) (h := h) (z := z) (c := c) (a := a) e .success
  have kept : (e.complete h .success 0 0).zns = e.zns := by rw [(complete_host e h .success 0 0).1]
  have after : u.zoneAfter z a = s.zoneAfter z a := by rw [same]; cases a <;> rfl
  have old : u.zns.zones = s.zns.zones := by rw [same]
  rw [ran] at run
  refine ⟨_, run.trans (congrArg Host.Outcome.next post), completed_complete _ _ _ _ _, ?_, fun y ne => ?_⟩
  · rw [State.zone, kept, zones, after, old]
    exact look_put _ _ _ _ sends.canon
  · rw [State.zone, kept, zones, old]
    exact look_put_other _ _ _ _ _ ne

theorem zoneSend_refused (pair : s.zonePair z = none)
    (run : exec i s = .next (((s.fetch h).addFlight (sendFlight s h z c a)).zoneAct (sendFlight s h z c a) z a))
    (from_ : a.from_ (s.zone z).state = false) : Goes i s (fun t => Completed t h .invalidTransition ∧ t.zns = s.zns) := by
  obtain ⟨u, hu⟩ : ∃ u, u = (s.fetch h).addFlight (sendFlight s h z c a) := ⟨_, rfl⟩
  have same : u = { s with hif := u.hif, pwr := u.pwr, car := u.car, lvl := u.lvl } := by
    rw [hu, addFlight_frame]
    rfl
  have zone : u.zone z = s.zone z := by rw [same]; rfl
  have refused : u.zoneRefusal z a = some .invalidTransition := by
    rw [State.zoneRefusal, zone, from_]
    rfl
  rw [← hu, zoneAct_refused (by rw [same]; exact pair) refused, State.endZone, postFlight_sendFlight] at run
  refine ⟨_, run, completed_complete _ _ _ _ _, ?_⟩
  rw [(complete_host _ h .invalidTransition 0 0).1]
  exact (removeFlight_kept (u := u) (managing_sendFlight (s := s) (h := h) (c := c)).notFrame).1.trans (by rw [same])

end Zone

section Receive

variable {s : State} {h : HostCmd} {slba : Nat} {n : NsEntry} {z u c key bytes : Nat}

theorem receive_runs (r : IoReady s h) (o : OnZone s h slba n z u c key) (action : Nat) :
    exec (.zoneManagementReceive h slba action 0 bytes false) s = .next (
      if action ≠ 0 ∨ State.mdtsUnits * 4096 < bytes then (s.fetch h).fail h .invalidField
      else ((s.fetch h).emit (.data h (s.zoneReport n (slba / n.zsze) none bytes false))).done h 0) := by
  rw [show exec (.zoneManagementReceive h slba action 0 bytes false) s = execZoneManagementReceive h slba action 0 bytes false s from rfl,
    execZoneManagementReceive, onIo_run r.fetched r.queue, onZone_passes r o]
  rfl

/-- The zones of a namespace from one index on. -/
def zonesFrom (s : State) (n : NsEntry) (k : Nat) : List Nat := ((List.range (s.spaceZones n)).drop k).filterMap (s.spaceZone n)

theorem zoneReport_count (s : State) (n : NsEntry) (k : Nat) (room : 64 ≤ bytes) :
    (s.zoneReport n k none bytes false).length ≤ bytes ∧ (s.zoneReport n k none bytes false).take 8 = leBytes 8 (zonesFrom s n k).length := by
  have all : (zonesFrom s n k).filter (fun z => (none : Option ZState).all (fun st => decide ((s.zone z).state = st))) = zonesFrom s n k :=
    List.filter_eq_self.2 fun _ _ => rfl
  have report : s.zoneReport n k none bytes false = (leBytes 8 (zonesFrom s n k).length ++ List.replicate 56 0 ++
      ((zonesFrom s n k).take ((bytes - 64) / 64)).flatMap (s.zoneDescriptor n)).take bytes := by
    rw [State.zoneReport, show ((List.range (s.spaceZones n)).drop k).filterMap (s.spaceZone n) = zonesFrom s n k from rfl, all]
    rfl
  have eight := length_leBytes 8 (zonesFrom s n k).length
  rw [report]
  refine ⟨List.length_take_le _ _, ?_⟩
  rw [List.take_take, Nat.min_eq_left (Nat.le_trans (by decide) room), List.append_assoc, List.take_append_of_le_length eight.ge,
    List.take_of_length_le eight.le]

end Receive

/-- Settles O31: `zoneSend_effect` carries out the actions that have a transition, `zoneSend_refused` the others. -/
theorem zoneManagementTakesEffectAndCompletes : Obligations.ZoneManagementTakesEffectAndCompletes := by
  unfold Obligations.ZoneManagementTakesEffectAndCompletes
  intro s h slba n z c key r o pair free thawed _ tables v gives
  have sends : Sends s z := ⟨pair, free, thawed, tables⟩
  have opens := zoneSend_runs (a := .open_) (i := .zoneOpen h slba false) rfl r o
  have closes := zoneSend_runs (a := .close) (i := .zoneClose h slba false) rfl r o
  have finishes := zoneSend_runs (a := .finish) (i := .zoneFinish h slba false) rfl r o
  have resets := zoneSend_runs (a := .reset) (i := .zoneReset h slba false) rfl r o
  have offlines := zoneSend_runs (a := .offline) (i := .zoneOffline h slba false) rfl r o
  have goes : ∀ {i : Instr} {P : Zone → Prop} {a : ZAct}, Goes i s (fun t => Completed t h .success ∧ t.zone z = s.zoneAfter z a ∧
      ∀ y, y ≠ z → t.zone y = s.zone y) → P (s.zoneAfter z a) → gives i P := by
    rintro i P a ⟨t, run, done, zone, others⟩ holds
    exact ⟨t, run, done, zone ▸ holds, others⟩
  refine ⟨fun state => ?_, fun state data => ?_, fun state => ?_, fun state => ?_, fun state => ?_, fun state => ?_, fun state => ?_,
    fun state => ?_, fun bytes room most => ?_, fun action bytes other => ?_⟩
  · exact goes (P := fun w => w = _) (zoneSend_effect sends opens
      ((by decide : ∀ x ∈ [ZState.implicitOpen, .explicitOpen, .closed], ZAct.from_ .open_ x = true) _ state)
      (fun _ => (by decide : ∀ x ∈ [ZState.implicitOpen, .explicitOpen, .closed], x ≠ .empty) _ state) nofun) rfl
  · have kept : s.zoneAfter z .close = { v with state := .closed } := if_neg fun both => Nat.ne_of_gt data both.2
    exact goes (P := fun w => w = _) (zoneSend_effect sends closes
      ((by decide : ∀ x ∈ [ZState.implicitOpen, .explicitOpen], ZAct.from_ .close x = true) _ state) nofun nofun) kept
  · exact goes (P := fun w => w.state = .full ∧ w.wp = v.cap) (zoneSend_effect sends finishes
      ((by decide : ∀ x ∈ [ZState.empty], ZAct.from_ .finish x = true) _ (List.mem_singleton.2 state)) nofun fun _ => state) ⟨rfl, rfl⟩
  · exact goes (P := fun w => w.state = .empty ∧ w.wp = 0 ∧ w.setting = none ∧ w.active = false) (zoneSend_effect sends resets
      ((by decide : ∀ x ∈ [ZState.empty, .implicitOpen, .explicitOpen, .closed, .full], ZAct.from_ .reset x = true) _ state) nofun nofun)
      ⟨rfl, rfl, rfl, rfl⟩
  · exact goes (P := fun w => w.state = .offline ∧ w.members = []) (zoneSend_effect sends offlines
      ((by decide : ∀ x ∈ [ZState.readOnly], ZAct.from_ .offline x = true) _ (List.mem_singleton.2 state)) nofun nofun) ⟨rfl, rfl⟩
  · exact zoneSend_refused pair opens
      ((by decide : ∀ x ∈ [ZState.full, .readOnly, .offline], ZAct.from_ .open_ x = false) _ state)
  · exact zoneSend_refused pair closes
      ((by decide : ∀ x ∈ [ZState.empty, .full, .readOnly, .offline], ZAct.from_ .close x = false) _ state)
  · exact zoneSend_refused pair resets
      ((by decide : ∀ x ∈ [ZState.readOnly, .offline], ZAct.from_ .reset x = false) _ state)
  · obtain ⟨most_, take8⟩ := zoneReport_count s n (slba / n.zsze) room
    have fits : ¬ ((0 : Nat) ≠ 0 ∨ State.mdtsUnits * 4096 < bytes) := fun bad => bad.elim (fun e => e rfl) (Nat.not_lt.2 most)
    have run := receive_runs (bytes := bytes) r o 0
    rw [if_neg fits] at run
    obtain ⟨same, -, l, out⟩ := complete_host ((s.fetch h).emit (.data h (s.zoneReport n (slba / n.zsze) none bytes false))) h .success 0 0
    refine ⟨_, run, completed_complete _ _ _ _ _, ?_, ?_, _, ?_, most_, take8⟩
    · rw [State.done, same]
      rfl
    · rw [State.done, same]
      rfl
    · rw [State.done, out]
      exact List.mem_append_right _ (List.mem_cons_of_mem _ List.mem_cons_self)
  · have run := receive_runs (bytes := bytes) r o action
    rw [if_pos (.inl other)] at run
    exact onlyCompletes_of_complete run

end Sys2Proof.Proofs
end

section
/-! Refutes O32: the table of data may hold an address twice, and a byte of 0 that is written uncovers the second entry. -/

namespace Sys2Proof.Proofs

open Sys2Proof Sys2Proof.Machine

/-- A write segment of one unit, staged in buffer 77. -/
def stagedUnit : Seg := { off := 0, len := 1, step := .granted, channel := 3, buffer := some 77, seq := 1, data := [], mirrored := false }

/-- The host write of unit 0 of zone 0 that it belongs to. -/
def unitWrite : Flight :=
  { State.reset.newFlight { port := 0, comp := 0, qid := 1, cid := 7, nsid := 1, fused := false, rsvd := false } .write 0 1 (some 0) with
    id := 5, len := 1, segs := [stagedUnit] }

/-- Byte 0 of the zone stands twice in the table of data. -/
def byteTwice : State :=
  { State.reset with
    pwr := { State.reset.pwr with pstate := .run }
    plog := { State.reset.plog with limitMib := 1024 }
    zns := { State.reset.zns with
      zones := [(0, { Zone.none with state := .implicitOpen, wp := 1, active := true })], data := [(0, 5), (0, 7)] }
    car := { State.reset.car with
      table := [(0, { Carriage.none with coupled := true, twin := true })], flights := [unitWrite], nextFlight := 6 } }

theorem byteTwice_lone : LoneWrite byteTwice unitWrite stagedUnit 0 77 where
  alone := rfl
  kind := ⟨rfl, rfl, rfl, rfl, rfl, rfl⟩
  status := rfl
  fields := ⟨rfl, rfl, rfl, rfl, rfl, Nat.zero_lt_one⟩
  buffer := rfl
  landed := by decide +kernel
  calm := by decide +kernel

theorem byteTwice_twinned : Twinned byteTwice unitWrite stagedUnit := by
  unfold Twinned
  decide +kernel

/-- The first byte of the zone's data after a transfer that brings a unit of zeros. -/
def firstByteAfter (o : Out) : Nat :=
  match o with
  | .next t => (look 0 t.zns.data 0).toNat
  | _ => 0

set_option maxRecDepth 100000 in
theorem byteTwice_uncovers :
    firstByteAfter (exec (.segmentTransferComplete 5 0 (List.replicate 4096 0) []) byteTwice) = 7 := by
  decide +kernel

/-- Refutes O32: where the table of data holds byte 0 twice, a write of zeros removes the first entry and the second is read. -/
theorem not_stagingSegmentsAreGrantedFilledAndReleased : ¬ Obligations.StagingSegmentsAreGrantedFilledAndReleased := by
  unfold Obligations.StagingSegmentsAreGrantedFilledAndReleased
  intro holds
  obtain ⟨-, lone, -⟩ := holds byteTwice (by decide +kernel)
  obtain ⟨transfer, -⟩ := lone unitWrite stagedUnit 0 77 byteTwice_lone byteTwice_twinned
  obtain ⟨t, run, -, -, data⟩ := transfer (List.replicate 4096 0) rfl List.length_replicate
  have zero : (look 0 t.zns.data 0).toNat = 0 := by
    rw [data 0, if_pos (by decide)]
    decide +kernel
  have seven := byteTwice_uncovers
  rw [show exec (.segmentTransferComplete 5 0 (List.replicate 4096 0) []) byteTwice = .next t from run] at seven
  exact absurd (zero.symm.trans seven) (by decide)

end Sys2Proof.Proofs
end

section
/-! Refutes O33: a die whose open landing block is numbered past 8,191 holds the block of another die. -/

namespace Sys2Proof.Proofs

open Sys2Proof Sys2Proof.Machine

/-- An erase of block 100. -/
def eraseEntry : QEntry :=
  { kind := .eraseSlc, block := 100, page := 0, cls := 1, comp := 0, admittedAt := 0, capWait := false, flush := false
    purpose := .erase .landing }

def erasing : DieOp :=
  { entry := eraseEntry, issuedAt := 0, leftNs := 1000, sinceAt := 0, suspended := false, slot := true, suspends := 0, served := 0
    posted := false, region := 0 }

/-- Landing row 0 with its parity unit on block 100 of die 1, and a unit on each other cluster. -/
def oneUnitRow : LandRow :=
  { units := { die := 1, block := 100, page := 0, pages := [], valid := true, pinned := false, programmed := true } ::
      (List.range 15).map (fun i =>
        { die := 4 * i + 4, block := 100, page := 0, pages := [], valid := false, pinned := false, programmed := true })
    front := [], closed := true }

/-- Die 1 erases its landing block 100; the open landing block of die 0, numbered 8,292, is the same entry of the table of blocks. -/
def sharedBlock : State :=
  { State.reset with
    fls := { State.reset.fls with
      dies := [(0, { Die.idle with landingBlock := some 8292 }), (1, { Die.idle with op := some erasing })]
      blocks := [(8292, { freshBlock 0 100 with role := .landing, use := .landingClosed, wp := 1536 })]
      landing := [(0, some oneUnitRow)] } }

theorem sharedBlock_tables : Tables sharedBlock where
  zones := by decide +kernel
  rows := by decide +kernel
  dies := by decide +kernel
  blocks := by decide +kernel
  landing := by decide +kernel
  carriages := by decide +kernel
  comps := by decide +kernel

/-- Whether block 100 of die 1 is retired. -/
def blockRetired (o : Out) : Bool :=
  match o with
  | .next t => decide ((t.block 1 100).use = .retired)
  | _ => true

theorem sharedBlock_closes : blockRetired (exec (.dieStatusReport 1 true) sharedBlock) = false := by decide +kernel

/-- Refutes O33: the erase fails and block 100 is retired, but its parity unit goes to die 0, which closes its own landing block
8,292 and with it the entry of block 100 of die 1. -/
theorem not_dieOperationsStartEndAndFail : ¬ Obligations.DieOperationsStartEndAndFail := by
  unfold Obligations.DieOperationsStartEndAndFail
  intro holds
  obtain ⟨-, -, -, -, -, -, failing, -⟩ := holds sharedBlock sharedBlock_tables
  obtain ⟨-, -, erases⟩ := failing 1 erasing rfl rfl (by decide) (by decide +kernel)
  obtain ⟨t, run, retired⟩ := erases .landing rfl
  have closes := sharedBlock_closes
  rw [run] at closes
  exact absurd retired (of_decide_eq_false closes)

end Sys2Proof.Proofs
end

section
/-! Refutes O34: the block that a promenade visit retires is an entry that another die's open landing block names too. -/

namespace Sys2Proof.Proofs

open Sys2Proof Sys2Proof.Machine

/-- The shared entry of `sharedBlock` in a mounted module whose dies are idle. -/
def visitedBlock : State :=
  { sharedBlock with
    pwr := { State.reset.pwr with pstate := .run }
    zns := { State.reset.zns with online := true }
    mnt := { State.reset.mnt with state := 4, firstCkpt := false, stopping := false }
    fls := { sharedBlock.fls with dies := [(0, { Die.idle with landingBlock := some 8292 })] } }

theorem visitedBlock_tables : Tables visitedBlock where
  zones := by decide +kernel
  rows := by decide +kernel
  dies := by decide +kernel
  blocks := by decide +kernel
  landing := by decide +kernel
  carriages := by decide +kernel
  comps := by decide +kernel

theorem visitedBlock_closes : blockRetired (exec (.promenadeVisit 0 0 4) visitedBlock) = false := by decide +kernel

/-- Refutes O34: the visit needs tier 4 and retires block 100 of die 1, but its parity unit goes to die 0, which closes its landing
block 8,292 and with it the entry of block 100 of die 1. -/
theorem not_rowsCloseAndMediaUpkeepStarts : ¬ Obligations.RowsCloseAndMediaUpkeepStarts := by
  unfold Obligations.RowsCloseAndMediaUpkeepStarts
  intro holds
  obtain ⟨-, -, -, -, -, -, visits⟩ := holds visitedBlock visitedBlock_tables
  obtain ⟨failing, -⟩ := visits 0 (5700, 1, 100) 0 4 (by decide +kernel) (by decide +kernel) (by decide +kernel) (by decide +kernel)
  obtain ⟨t, run, retired⟩ := failing (Nat.le_refl 4) (by decide)
  have closes := visitedBlock_closes
  rw [run] at closes
  exact absurd retired (of_decide_eq_false closes)

end Sys2Proof.Proofs
end

section
/-! Refutes O35: the number that a new relocation takes may stand in the list already. -/

namespace Sys2Proof.Proofs

open Sys2Proof Sys2Proof.Machine

/-- Relocation 0, a rebuild of member 0 of zone 7, though the next number to be given is 0. -/
def oldReloc : Reloc :=
  { id := 0, kind := .rebuild, zone := 7, member := 0, srcDie := 0, srcBlock := 700, dstDie := 0, dstBlock := 701, copied := 0 }

/-- Block 20 of die 0 holds the member of zone 0 and is due for a refresh; member 1 of zone 7 has failed, and its row 0 is closed. -/
def sameNumber : State :=
  { State.reset with
    pwr := { State.reset.pwr with pstate := .run }
    mnt := { State.reset.mnt with state := 4, firstCkpt := false, stopping := false }
    zns := { State.reset.zns with
      online := true
      zones := [(0, { Zone.none with state := .full, members := [(0, 20)] }),
                (7, { Zone.none with state := .full, members := [(0, 700), (4, 700)], failed := [1] })]
      rows := [(7 * 96, { Row.none with qlc := true })] }
    fls := { State.reset.fls with
      blocks := [(20, { freshBlock 0 20 with role := .zone, use := .zone 0 })]
      relocs := [oldReloc], refresh := [(0, 20)] } }

theorem sameNumber_tables : Tables sameNumber where
  zones := by decide +kernel
  rows := by decide +kernel
  dies := by decide +kernel
  blocks := by decide +kernel
  landing := by decide +kernel
  carriages := by decide +kernel
  comps := by decide +kernel

/-- Whether any relocation is left. -/
def relocsLeft (o : Out) : Bool :=
  match o with
  | .next t => !t.fls.relocs.isEmpty
  | _ => false

theorem sameNumber_drops : relocsLeft (exec (.relocationStart 0 20) sameNumber) = false := by decide +kernel

/-- Refutes O35: the first step of relocation 0 finds the old one, whose zone has lost a second member, and drops both. -/
theorem not_membersAndConventionalUnitsMove : ¬ Obligations.MembersAndConventionalUnitsMove := by
  unfold Obligations.MembersAndConventionalUnitsMove
  intro holds
  obtain ⟨starts, -⟩ := holds sameNumber sameNumber_tables (by decide +kernel)
  obtain ⟨t, run, -, r, mem, -⟩ := starts 0 20 0 0 600 (by decide +kernel) (by decide +kernel) (by decide +kernel) (by decide +kernel)
    (by decide +kernel)
  have drops := sameNumber_drops
  rw [run] at drops
  have none_left : t.fls.relocs = [] := by simpa [relocsLeft] using drops
  rw [none_left] at mem
  exact List.not_mem_nil mem

end Sys2Proof.Proofs
end

section
/-! Settles O37: the scrubs and the leak audit (R391, R398 to R400, R404, R405). -/

namespace Sys2Proof.Proofs

open Sys2Proof Sys2Proof.Machine

theorem mem_of_eventFrame {s t : State} (h : EventFrame s t) : t.mem = s.mem := by rw [h.rest]

section Scrub

variable {s : State}

theorem scrubs_of_power (power : s.pwr.pstate = .run ∨ s.pwr.pstate = .idle) : s.scrubs = true := by
  rw [State.scrubs]
  obtain e | e := power <;> rw [e] <;> rfl

theorem awake_of_power (power : s.pwr.pstate = .run ∨ s.pwr.pstate = .idle) : s.awake = true := by
  rw [State.awake]
  obtain e | e := power <;> rw [e]

theorem dramScrub_runs (power : s.pwr.pstate = .run ∨ s.pwr.pstate = .idle) (on : s.mem.dramH ≠ 0) : s.scrubs = true ∧ s.mem.dramH ≠ 0 :=
  ⟨scrubs_of_power power, on⟩

/-- What a repair or a withdrawal may leave: zones, carriages, counts of errors, corrections, remapped words and bad words are as they
were. -/
structure Repairs (s t : State) : Prop where
  zns : t.zns = s.zns
  car : t.car = s.car
  counts : t.mem.dramCe = s.mem.dramCe ∧ t.mem.dramUe = s.mem.dramUe ∧ t.mem.sramUe = s.mem.sramUe
  words : t.mem.remap = s.mem.remap ∧ t.mem.bad = s.mem.bad

theorem Repairs.refl (s : State) : Repairs s s := ⟨rfl, rfl, ⟨rfl, rfl, rfl⟩, rfl, rfl⟩

theorem Repairs.trans {s t u : State} (a : Repairs s t) (b : Repairs t u) : Repairs s u :=
  ⟨b.zns.trans a.zns, b.car.trans a.car, ⟨b.counts.1.trans a.counts.1, b.counts.2.1.trans a.counts.2.1, b.counts.2.2.trans a.counts.2.2⟩,
    b.words.1.trans a.words.1, b.words.2.trans a.words.2⟩

theorem Repairs.ite {s t u : State} {c : Prop} [Decidable c] (a : Repairs s t) (b : Repairs s u) : Repairs s (if c then t else u) := by
  split <;> assumption

theorem repairs_event (s : State) (code level source c : Nat) (fields : List Int) : Repairs s (s.event code level source c fields) := by
  obtain ⟨zns, car, -, -⟩ := media_of_eventFrame (event_frame s code level source c fields)
  have mem := mem_of_eventFrame (event_frame s code level source c fields)
  exact ⟨zns, car, by rw [mem]; exact ⟨rfl, rfl, rfl⟩, by rw [mem]; exact ⟨rfl, rfl⟩⟩

theorem repairs_softRepair (s : State) (m a source : Nat) : Repairs s (s.softRepair m a source) := by
  have listed : ∀ l, Repairs s { s with mem := { s.mem with softPending := l } } := fun _ => ⟨rfl, rfl, ⟨rfl, rfl, rfl⟩, rfl, rfl⟩
  unfold State.softRepair
  dsimp only
  split
  · exact .refl s
  · split
    · exact (listed _).trans (repairs_event _ _ _ _ _ _)
    · exact listed _

theorem repairs_withdrawFrame (s : State) (ch fr : Nat) (a : DramArea) : Repairs s (s.withdrawFrame ch fr a) := by
  have first := (repairs_event s 0x0A03 2 (src 0xB ch) 0 [ch, fr]).trans (repairs_softRepair _ (2040 + ch) fr (src 0xB ch))
  refine first.trans ?_
  unfold State.withdrawFrame
  generalize (s.event 0x0A03 2 (src 0xB ch) 0 [ch, fr]).softRepair (2040 + ch) fr (src 0xB ch) = t
  cases a with
  | buffer h off =>
    dsimp only
    unfold State.withdrawBuf
    split <;> exact ⟨rfl, rfl, ⟨rfl, rfl, rfl⟩, rfl, rfl⟩
  | seg f j both =>
    dsimp only
    split <;> exact ⟨rfl, rfl, ⟨rfl, rfl, rfl⟩, rfl, rfl⟩
  | _ => exact ⟨rfl, rfl, ⟨rfl, rfl, rfl⟩, rfl, rfl⟩

/-- A corrected codeword is counted, whatever it leads to (R398, R400). -/
theorem dramCorrected_counts (s : State) (ch dev fr : Nat) (a : DramArea) :
    Repairs { s with mem := { s.mem with dramCe := min 0xFFFF (s.mem.dramCe + 1) } } (s.dramCorrected ch dev fr a) := by
  have marks : ∀ t : State, Repairs { s with mem := { s.mem with dramCe := min 0xFFFF (s.mem.dramCe + 1) } } t →
      Repairs { s with mem := { s.mem with dramCe := min 0xFFFF (s.mem.dramCe + 1) } }
        (if look 0 t.mem.frameRuns (ch * 2 ^ 32 + fr) = 3 then t.withdrawFrame ch fr a else t) := fun t h =>
    .ite (h.trans (repairs_withdrawFrame t ch fr a)) h
  have counted : ∀ runs frames marked, Repairs { s with mem := { s.mem with dramCe := min 0xFFFF (s.mem.dramCe + 1) } }
      { s with mem := { s.mem with
        dramCe := min 0xFFFF (s.mem.dramCe + 1), deviceRuns := runs, frameRuns := frames, marked := marked } } :=
    fun _ _ _ => ⟨rfl, rfl, ⟨rfl, rfl, rfl⟩, rfl, rfl⟩
  unfold State.dramCorrected
  dsimp only
  split
  · exact .refl _
  · refine marks _ ?_
    split
    · exact (counted _ _ _).trans (repairs_event _ _ _ _ _ _)
    · exact counted _ _ s.mem.marked

theorem markBad_mem (s : State) (w : BadWord) : w ∈ (s.markBad w).mem.bad ∧ (s.markBad w).mem.dramUe = s.mem.dramUe ∧
    (s.markBad w).mem.sramUe = s.mem.sramUe ∧ (s.markBad w).mem.remap = s.mem.remap ∧ (s.markBad w).zns = s.zns ∧
    (s.markBad w).bpm = s.bpm ∧ (s.markBad w).hif = s.hif := by
  unfold State.markBad
  split
  · next there => exact ⟨List.contains_iff_mem.1 there, rfl, rfl, rfl, rfl, rfl, rfl⟩
  · exact ⟨List.mem_append_right _ (List.mem_singleton_self _), rfl, rfl, rfl, rfl, rfl, rfl⟩

/-- A repair tells at most one event and leaves the buffers. -/
theorem softRepair_tells (s : State) (m a source : Nat) : (s.softRepair m a source).bpm = s.bpm ∧
    ((s.softRepair m a source).hif.raised = s.hif.raised ∨ ∃ e, (s.softRepair m a source).hif.raised = e :: s.hif.raised) := by
  unfold State.softRepair
  dsimp only
  split
  · exact ⟨rfl, .inl rfl⟩
  · split
    · exact ⟨(media_of_eventFrame (event_frame _ _ _ _ _ _)).2.2.2, .inr ⟨_, raised_event _ _ _ _ _ _⟩⟩
    · exact ⟨rfl, .inl rfl⟩

/-- The frame of a buffer is withdrawn with event 0x0A03, after which a repair may be told (R400). -/
theorem withdrawFrame_buffer {b : Buf} {h : Nat} (found : s.buf h = some b) (ch fr off : Nat) :
    (s.withdrawFrame ch fr (.buffer h off)).buf h = some { b with withdraw := true } ∧
    ((∃ e, (s.withdrawFrame ch fr (.buffer h off)).hif.raised.head? = some e ∧ e.code = 0x0A03) ∨
      ∃ e, (s.withdrawFrame ch fr (.buffer h off)).hif.raised[1]? = some e ∧ e.code = 0x0A03) := by
  have raised := raised_event s 0x0A03 2 (src 0xB ch) 0 [ch, fr]
  have bpm := (media_of_eventFrame (event_frame s 0x0A03 2 (src 0xB ch) 0 [ch, fr])).2.2.2
  obtain ⟨bpm1, told⟩ := softRepair_tells (s.event 0x0A03 2 (src 0xB ch) 0 [ch, fr]) (2040 + ch) fr (src 0xB ch)
  unfold State.withdrawFrame
  generalize (s.event 0x0A03 2 (src 0xB ch) 0 [ch, fr]).softRepair (2040 + ch) fr (src 0xB ch) = t at bpm1 told
  have here : t.buf h = some b := (congrArg (fun p : Pools => look none p.bufs h) (bpm1.trans bpm)).trans found
  dsimp only
  rw [State.withdrawBuf, here]
  refine ⟨look_put_of_ne _ _ _ _ nofun, ?_⟩
  rw [raised] at told
  obtain same | ⟨e, one⟩ := told
  · exact .inl ⟨_, congrArg List.head? same, rfl⟩
  · exact .inr ⟨_, congrArg (fun l : List EvRec => l[1]?) one, rfl⟩

theorem remapWord_room {m : Nat} (room : look 0 s.mem.remap m < 16) (w : Nat) (a : SramArea) :
    look 0 (s.remapWord m w a).mem.remap m = look 0 s.mem.remap m + 1 ∧ (s.remapWord m w a).mem.sramUe = s.mem.sramUe := by
  have after := (repairs_event { s with mem := { s.mem with remap := upd 0 s.mem.remap m (· + 1) } } 0x0A03 2 (State.sramSource a) 0
    [m, w]).trans (repairs_softRepair _ m w (State.sramSource a))
  have ran : s.remapWord m w a = _ := if_pos room
  rw [ran, after.words.1, after.counts.2.2]
  exact ⟨look_put_of_ne _ _ _ _ (Nat.succ_ne_zero _), rfl⟩

section Steps

variable (power : s.pwr.pstate = .run ∨ s.pwr.pstate = .idle)
include power

theorem dramClean_runs (on : s.mem.dramH ≠ 0) (pct : Nat) (done : Bool) : exec (.dramScrubStep (.clean pct done)) s =
    .next (if done then { s with mem := { s.mem with dramPct := 0, passes := s.mem.passes + 1, frameRuns := [] } }
      else { s with mem := { s.mem with dramPct := pct } }) := by
  rw [show exec (.dramScrubStep (.clean pct done)) s = execDramScrubStep (.clean pct done) s from rfl, execDramScrubStep,
    if_pos ⟨scrubs_of_power power, on⟩]

theorem sramClean_runs (on : s.mem.sramMin ≠ 0) (pct : Nat) : exec (.sramScrubStep (.clean pct)) s =
    .next { s with mem := { s.mem with
      sramPct := pct, corrections := if pct < s.mem.sramPct then [] else s.mem.corrections } } := by
  rw [show exec (.sramScrubStep (.clean pct)) s = execSramScrubStep (.clean pct) s from rfl, execSramScrubStep,
    if_pos ⟨scrubs_of_power power, on⟩]

theorem dramCorrected_runs (on : s.mem.dramH ≠ 0) {ch dev fr : Nat} {a : DramArea} (named : ch < 8 ∧ dev < 10) (area : s.dramAreaOk a = true) :
    exec (.dramScrubStep (.corrected ch dev fr a)) s = .next (s.dramCorrected ch dev fr a) := by
  rw [show exec (.dramScrubStep (.corrected ch dev fr a)) s = execDramScrubStep (.corrected ch dev fr a) s from rfl, execDramScrubStep,
    if_pos ⟨scrubs_of_power power, on⟩]
  rw [decide_eq_true named, area]
  rfl

theorem dramUncorrectable_runs (on : s.mem.dramH ≠ 0) {ch fr : Nat} {a : DramArea} (named : ch < 8) (area : s.dramAreaOk a = true) :
    exec (.dramScrubStep (.uncorrectable ch fr a)) s =
      .next ((({ s with mem := { s.mem with dramUe := min 0xFF (s.mem.dramUe + 1) } }).withdrawFrame ch fr a).dramLost a) := by
  rw [show exec (.dramScrubStep (.uncorrectable ch fr a)) s = execDramScrubStep (.uncorrectable ch fr a) s from rfl, execDramScrubStep,
    if_pos ⟨scrubs_of_power power, on⟩]
  dsimp only
  rw [decide_eq_true named, area]
  rfl

/-- The state in which a corrected word of an on-die memory has been counted. -/
def sramCounted (s : State) (m w : Nat) : State :=
  { s with mem := { s.mem with sramCe := min 0xFFFF (s.mem.sramCe + 1), corrections := upd 0 s.mem.corrections (m * 2 ^ 32 + w) (· + 1) } }

omit power in
theorem sramCounted_corrections (m w : Nat) :
    look 0 (sramCounted s m w).mem.corrections (m * 2 ^ 32 + w) = look 0 s.mem.corrections (m * 2 ^ 32 + w) + 1 :=
  look_put_of_ne _ _ _ _ (Nat.succ_ne_zero _)

theorem sramCorrected_runs (on : s.mem.sramMin ≠ 0) {m w : Nat} {a : SramArea} (named : m < 2040) (area : s.sramAreaOk a = true) :
    exec (.sramScrubStep (.corrected m w a)) s = .next (if look 0 s.mem.corrections (m * 2 ^ 32 + w) + 1 = 3
      then (sramCounted s m w).remapWord m w a else sramCounted s m w) := by
  rw [show exec (.sramScrubStep (.corrected m w a)) s = execSramScrubStep (.corrected m w a) s from rfl, execSramScrubStep,
    if_pos ⟨scrubs_of_power power, on⟩]
  dsimp only
  rw [decide_eq_true named, area, ← sramCounted_corrections]
  rfl

theorem sramUncorrectable_runs (on : s.mem.sramMin ≠ 0) {m w : Nat} {a : SramArea} (named : m < 2040) (area : s.sramAreaOk a = true) :
    exec (.sramScrubStep (.uncorrectable m w a)) s =
      .next ((({ s with mem := { s.mem with sramUe := min 0xFF (s.mem.sramUe + 1) } }).remapWord m w a).sramLost a) := by
  rw [show exec (.sramScrubStep (.uncorrectable m w a)) s = execSramScrubStep (.uncorrectable m w a) s from rfl, execSramScrubStep,
    if_pos ⟨scrubs_of_power power, on⟩]
  dsimp only
  rw [decide_eq_true named, area]
  rfl

/-- The leak audit reports an owner whose oldest buffer is too old, once (R391). -/
theorem bufferLeak_runs {o : Nat} {w : Owner} (found : s.owner o = some w) (quiet : w.leak = false) (on : s.bpm.leakMs ≠ 0)
    (held : 0 < s.ownerHeld o) (old : s.bpm.leakMs ≤ s.ownerAge o) : exec (.bufferLeak o) s =
      .next ((s.setOwner o (some { w with leak := true })).event 0x0A01 2 (srcRegion 0 4) w.comp [o, s.ownerHeld o, s.ownerAge o]) := by
  rw [show exec (.bufferLeak o) s = execBufferLeak o s from rfl, execBufferLeak, found]
  dsimp only
  rw [decide_eq_true on, decide_eq_true held, decide_eq_true old, quiet, awake_of_power power]
  rfl

end Steps

theorem owner_setOwner_same (s : State) (o : Nat) (w : Owner) : (s.setOwner o (some w)).owner o = some w := by
  have here : look none (s.setOwner o (some w)).bpm.owners o = some w := look_put_of_ne _ _ _ _ nofun
  rw [State.owner, here]
  split <;> rfl

theorem owner_setOwner_other (s : State) {o x : Nat} (w : Option Owner) (ne : x ≠ o) : (s.setOwner o w).owner x = s.owner x := by
  have there : look none (s.setOwner o w).bpm.owners x = look none s.bpm.owners x := look_put_other _ _ _ _ _ ne
  rw [State.owner, there]
  rfl

end Scrub

/-- Settles O37: `Repairs` says what withdrawals and repairs leave, and each outcome of a scrub adds its own count. -/
theorem scrubsCountAndWithdraw : Obligations.ScrubsCountAndWithdraw := by
  unfold Obligations.ScrubsCountAndWithdraw
  intro s power
  refine ⟨fun on => ⟨fun pct => ⟨⟨_, dramClean_runs power on pct false, rfl⟩, ⟨_, dramClean_runs power on pct true, rfl⟩⟩, ?_, ?_⟩,
    fun on => ⟨fun pct => ?_, ?_, ?_, ?_⟩, ?_⟩
  · intro ch dev fr a chan device area
    have counts := dramCorrected_counts s ch dev fr a
    refine ⟨_, dramCorrected_runs power on ⟨chan, device⟩ area, counts.counts.1, counts.counts.2.1, counts.zns, counts.car, fun marked => ?_⟩
    rw [show s.dramCorrected ch dev fr a = _ from if_pos marked]
  · intro ch fr h off b chan found domain
    have area : s.dramAreaOk (.buffer h off) = true := by
      rw [State.dramAreaOk, found]
      exact decide_eq_true domain
    obtain ⟨u, hu⟩ : ∃ u, u = { s with mem := { s.mem with dramUe := min 0xFF (s.mem.dramUe + 1) } } := ⟨_, rfl⟩
    have found' : u.buf h = some b := by rw [hu]; exact found
    have repairs := repairs_withdrawFrame u ch fr (.buffer h off)
    obtain ⟨withdrawn, told⟩ := withdrawFrame_buffer found' ch fr off
    have run := dramUncorrectable_runs power on (fr := fr) chan area
    rw [← hu] at run
    obtain ⟨bad, ue, -, -, zns, bpm, hif⟩ := markBad_mem (u.withdrawFrame ch fr (.buffer h off)) (.buffer h off)
    refine ⟨_, run, ?_, bad, ?_, ?_, ?_⟩
    · exact ue.trans (repairs.counts.2.1.trans (by rw [hu]))
    · exact (congrArg (fun p : Pools => look none p.bufs h) bpm).trans withdrawn
    · rw [show ((u.withdrawFrame ch fr (.buffer h off)).dramLost (.buffer h off)).hif = _ from hif]
      obtain ⟨e, now⟩ | ⟨e, before⟩ := told
      · exact ⟨e, .inl now⟩
      · exact ⟨e, .inr ⟨e, before⟩⟩
    · exact zns.trans (repairs.zns.trans (by rw [hu]))
  · exact ⟨_, sramClean_runs power on pct, rfl, rfl, rfl⟩
  · intro m w a macro_ area few
    have run := sramCorrected_runs power on (w := w) macro_ area
    rw [if_neg fun third => few (Nat.succ.inj third)] at run
    exact ⟨_, run, rfl, sramCounted_corrections m w, rfl⟩
  · intro m w a macro_ area third room
    have run := sramCorrected_runs power on (w := w) macro_ area
    rw [if_pos (by rw [third])] at run
    exact ⟨_, run, (remapWord_room (s := sramCounted s m w) room w a).1⟩
  · intro m w c off macro_ reel room
    obtain ⟨u, hu⟩ : ∃ u, u = { s with mem := { s.mem with sramUe := min 0xFF (s.mem.sramUe + 1) } } := ⟨_, rfl⟩
    have run := sramUncorrectable_runs power on (a := .scratch c off) (w := w) macro_ reel
    rw [← hu] at run
    have room' : look 0 u.mem.remap m < 16 := by rw [hu]; exact room
    obtain ⟨remapped, ue⟩ := remapWord_room room' w (.scratch c off)
    obtain ⟨bad, -, ue', remap, -⟩ := markBad_mem (u.remapWord m w (.scratch c off)) (.scratch c off)
    refine ⟨_, run, ue'.trans (ue.trans (by rw [hu])), ?_, bad⟩
    rw [show ((u.remapWord m w (.scratch c off)).sramLost (.scratch c off)).mem.remap = _ from remap, remapped, hu]
  · intro o w found quiet on held old
    obtain ⟨u, hu⟩ : ∃ u, u = s.setOwner o (some { w with leak := true }) := ⟨_, rfl⟩
    have run := bufferLeak_runs power found quiet on held old
    rw [← hu] at run
    have bpm := (media_of_eventFrame (event_frame u 0x0A01 2 (srcRegion 0 4) w.comp [o, s.ownerHeld o, s.ownerAge o])).2.2.2
    have owners : ∀ x, (u.event 0x0A01 2 (srcRegion 0 4) w.comp [o, s.ownerHeld o, s.ownerAge o]).owner x = u.owner x := fun x => by
      rw [State.owner, bpm]
      rfl
    refine ⟨_, run, ?_, fun x ne => ?_, ?_⟩
    · rw [owners, hu]
      exact owner_setOwner_same s o _
    · rw [owners, hu]
      exact owner_setOwner_other s _ ne
    · exact ⟨_, congrArg List.head? (raised_event _ _ _ _ _ _), rfl, rfl, rfl⟩

end Sys2Proof.Proofs
end

section
/-! SUPPORT. What the journal's units, checkpoints and the upkeep of the landing pool leave as it was (R206, R207, R211). -/

namespace Sys2Proof.Machine

open Sys2Proof

/-- What programs, the journal's units and the upkeep of the landing pool leave as it was: the start-up state, the mount, the levels of
protection, the time, what is durable, and the state of the checkpoints. -/
structure Log where
  boot : Boot
  mnt : Mount
  sec : Security
  tim : TimeBase
  nv : Durable
  checkpoints : Bool × Bool × Nat × Nat × Nat × Nat

def State.log (s : State) : Log :=
  { boot := s.boot, mnt := s.mnt, sec := s.sec, tim := s.tim, nv := s.nv
    checkpoints := (s.jrn.running, s.jrn.valid, s.jrn.slot, s.jrn.before, s.jrn.beganAt, s.jrn.units) }

/-- An update of other components. -/
theorem log_mk (s : State) (part pins pwr plog thm fan lvl zns car fls nvNext bpm mem cmp fcd kry hif cpl svc free pending) :
    (State.mk part s.boot pins pwr plog s.tim thm fan lvl zns car fls s.mnt s.jrn s.nv nvNext bpm mem cmp fcd kry hif cpl s.sec svc free
      pending).log = s.log := by rfl

/-- An update of other fields of the journal. -/
theorem log_sec (s : State) (part pins pwr plog thm fan lvl zns car fls nvNext bpm mem cmp fcd kry hif cpl svc free pending)
    (jrn : Journal) (hr : jrn.running = s.jrn.running) (hv : jrn.valid = s.jrn.valid) (hs : jrn.slot = s.jrn.slot)
    (hb : jrn.before = s.jrn.before) (ha : jrn.beganAt = s.jrn.beganAt) (hu : jrn.units = s.jrn.units) :
    (State.mk part s.boot pins pwr plog s.tim thm fan lvl zns car fls s.mnt jrn s.nv nvNext bpm mem cmp fcd kry hif cpl s.sec svc free
      pending).log = s.log := by
  simp only [State.log, hr, hv, hs, hb, ha, hu]

theorem log_ite (c : Prop) [Decidable c] (s t : State) : (if c then s else t).log = if c then s.log else t.log :=
  apply_ite _ _ _ _

theorem log_foldl {α : Type} (f : State → α → State) (h : ∀ s a, (f s a).log = s.log) (l : List α) :
    ∀ s, (l.foldl f s).log = s.log := by
  induction l with
  | nil => exact fun _ => rfl
  | cons a l ih => exact fun s => (ih _).trans (h s a)

theorem log_getD {o : Option State} {s : State} (h : ∀ t, o = some t → t.log = s.log) : (o.getD s).log = s.log := by
  cases o with
  | none => rfl
  | some t => exact h t rfl

theorem log_of_eventFrame {s t : State} (h : EventFrame s t) : t.log = s.log := by
  unfold State.log
  rw [h.rest]

theorem log_times (f : State → State) (h : ∀ t, (f t).log = t.log) : ∀ n s, (times f n s).log = s.log
  | 0, _ => rfl
  | n + 1, s => (log_times f h n _).trans (h s)

theorem State.setComp_log (s : State) (c) (v) : (State.setComp s c v).log = s.log := by rfl

theorem State.setDie_log (s : State) (d) (v) : (State.setDie s d v).log = s.log := by rfl

theorem State.setBlock_log (s : State) (d) (b) (v) : (State.setBlock s d b v).log = s.log := by rfl

theorem State.setRow_log (s : State) (z) (r) (v) : (State.setRow s z r v).log = s.log := by rfl

theorem State.emit_log (s : State) (o) : (State.emit s o).log = s.log := by rfl

theorem State.startClocks_log (s : State) (mask) : (State.startClocks s mask).log = s.log := by rfl

theorem State.startClock_log (s : State) (d) : (State.startClock s d).log = s.log := by rfl

theorem State.interrupt_log (s : State) (port) (vector) : (State.interrupt s port vector).log = s.log :=
  log_of_eventFrame (interrupt_frame _ _ _)

theorem State.toStewardRing_log (s : State) (e) : (State.toStewardRing s e).log = s.log :=
  log_of_eventFrame (toStewardRing_frame _ _)

theorem State.compIrq_log (s : State) (c) (bit) : (State.compIrq s c bit).log = s.log := log_of_eventFrame (compIrq_frame _ _ _)

theorem State.toCompRing_log (s : State) (e) : (State.toCompRing s e).log = s.log := log_of_eventFrame (toCompRing_frame _ _)

theorem State.toReels_log (s : State) (e) : (State.toReels s e).log = s.log := by rfl

theorem State.raise_log (s : State) (code) (level) (source) (c) (p) : (State.raise s code level source c p).log = s.log :=
  log_of_eventFrame (raise_frame _ _ _ _ _ _)

theorem State.event_log (s : State) (code) (level) (source) (c) (fields) :
    (State.event s code level source c fields).log = s.log := log_of_eventFrame (event_frame _ _ _ _ _ _)

theorem State.layPage_log (s : State) (d) (b) (p) (data) (r) : (State.layPage s d b p data r).log = s.log := by
  simp only [State.layPage, log_sec]

theorem State.layPages_log (s : State) (d) (b) (p) (pages) : (State.layPages s d b p pages).log = s.log := by
  simp only [State.layPages, log_foldl, implies_true, State.layPage_log]

theorem State.takeSeq_log (s : State) (n) : (State.takeSeq s n).2.log = s.log := by
  unfold State.takeSeq
  extract_lets a e _ s1
  have h1 : s1.log = s.log := rfl
  simp only [apply_ite State.log, State.event_log, h1, ite_self]

theorem State.sealPages_log (s : State) (d) (b) (p) (n) (flush) (fresh : ℕ → Bool) :
    (State.sealPages s d b p n flush fresh).log = s.log := by
  simp only [State.sealPages, log_sec, State.takeSeq_log]

theorem State.charge_log (s : State) (cluster) (c) (ns) : (State.charge s cluster c ns).log = s.log := by rfl

theorem State.chargeUnit_log (s : State) (cluster) (r) (k) (ns) : (State.chargeUnit s cluster r k ns).log = s.log := by
  unfold State.chargeUnit; repeat' split
  all_goals simp only [log_ite, log_foldl, ite_self, implies_true, State.charge_log]

theorem State.queueRefresh_log (s : State) (d) (b) : (State.queueRefresh s d b).log = s.log := by
  simp only [State.queueRefresh, log_sec, log_ite, ite_self]

theorem State.readLimit_log (s : State) (d) (b) : (State.readLimit s d b).log = s.log := by
  simp only [State.readLimit, log_ite, ite_self, State.queueRefresh_log]

theorem State.countReads_log (s : State) (d) (b) (n) : (State.countReads s d b n).log = s.log := by
  simp only [State.countReads, State.readLimit_log, State.setBlock_log]

theorem State.noteStart_log (s : State) (d) (e) : (State.noteStart s d e).log = s.log := by
  unfold State.noteStart; repeat' split
  all_goals simp only [State.countReads_log, State.setBlock_log, State.sealPages_log]

theorem State.addReadUs_log (s : State) (cluster) (us) : (State.addReadUs s cluster us).log = s.log := by rfl

theorem State.startEntry_log (s : State) (d) (e) : (State.startEntry s d e).log = s.log := by
  unfold State.startEntry; repeat' split
  all_goals simp only [State.setDie_log, State.startClock_log, State.noteStart_log, State.chargeUnit_log, State.charge_log,
      State.addReadUs_log]

theorem State.markCapWait_log (s : State) (d) (e) : (State.markCapWait s d e).log = s.log := by rfl

theorem State.refuseEntry_log (s : State) (d) (e) : (State.refuseEntry s d e).log = s.log := by rfl

theorem State.takeNext_log (d : Nat) : ∀ (n : Nat) (s : State), (State.takeNext n s d).log = s.log
  | 0, _ => rfl
  | n + 1, s => by
    unfold State.takeNext
    repeat' split
    · simp only [State.takeNext_log d n, State.refuseEntry_log]
    · simp only [State.startEntry_log]
    · simp only [State.markCapWait_log]
    · rfl

theorem State.dieNext_log (s : State) (d) : (State.dieNext s d).log = s.log := by
  simp only [State.dieNext, log_ite, ite_self, State.takeNext_log]

theorem State.enqueue_log (s : State) (d) (e) : (State.enqueue s d e).log = s.log := by
  simp only [State.enqueue, State.dieNext_log, State.startClock_log, State.setDie_log]

theorem State.unqueue_log (s : State) (f : QEntry → Bool) : (State.unqueue s f).log = s.log := by rfl

theorem State.deferErase_log (s : State) (d) (b) (next) : (State.deferErase s d b next).log = s.log := by
  simp only [State.deferErase, log_ite, ite_self, State.setDie_log, State.setBlock_log]

theorem State.setLandRow_log (s : State) (r) (v) : (State.setLandRow s r v).log = s.log := by rfl

theorem State.freshLanding_log {s : State} {d} {reserve} {i t} (h : State.freshLanding s d reserve = some (i, t)) :
    t.log = s.log := by
  unfold State.freshLanding at h
  extract_lets at h
  repeat' split at h
  all_goals cases h
  all_goals simp +zetaDelta only [State.setDie_log, State.setBlock_log]

theorem State.landingPlace_log {s : State} {d} {reserve} {i j t} (h : State.landingPlace s d reserve = some (i, j, t)) :
    t.log = s.log := by
  unfold State.landingPlace at h
  extract_lets opened at h
  have ho : ∀ b u, opened = some (b, u) → u.log = s.log := fun b u e => by
    simp only [opened] at e
    split at e
    · cases e; rfl
    · exact State.freshLanding_log e
  clear_value opened
  split at h
  · cases h
  next b u =>
    have hu := ho b u rfl
    extract_lets pg at h
    clear_value pg
    split at h <;> cases h <;> simp only [State.setDie_log, State.setBlock_log, hu]

theorem State.layLanding_log (s : State) (n) (c) (us) (pages) (d) (b) (pg) :
    (State.layLanding s n c us pages d b pg).log = s.log := by
  simp only [State.layLanding, State.layPages_log]

theorem State.layRow_log (s : State) (z) (r) (k) (d) (b) : (State.layRow s z r k d b).log = s.log := by
  simp only [State.layRow, State.layPages_log]

theorem State.programNow_log (s : State) (d) (b) (pages) (flush) : (State.programNow s d b pages flush).log = s.log := by
  simp only [State.programNow, State.noteStart_log, State.layPages_log]

theorem State.journalBlocks_log (s : State) : (State.journalBlocks s).log = s.log := by
  simp only [State.journalBlocks, log_sec, log_ite, ite_self]

theorem State.journalQueue_log (s : State) : (State.journalQueue s).log = s.log := by
  simp only [State.journalQueue, log_foldl, implies_true, State.journalBlocks_log, State.enqueue_log, State.layPages_log]

theorem State.journalWrite_log (s : State) (flush) : (State.journalWrite s flush).log = s.log := by
  simp only [State.journalWrite, log_foldl, implies_true, State.journalBlocks_log, State.programNow_log]

theorem State.ckptBlocks_log (s : State) : (State.ckptBlocks s).log = s.log := by
  simp only [State.ckptBlocks, log_sec, log_ite, ite_self]

theorem State.ckptStripe_log (s : State) : (State.ckptStripe s).log = s.log := by
  simp only [State.ckptStripe, log_sec, log_foldl, implies_true, State.ckptBlocks_log, State.enqueue_log, State.layPages_log]

theorem State.freeSystem_log (s : State) (l) : (State.freeSystem s l).log = s.log := by
  simp only [State.freeSystem, log_foldl, implies_true, State.deferErase_log]

theorem State.makeUnit_log {s : State} {n} {c} {pages} {a} {purpose : ℕ → Purpose} {t} (h : State.makeUnit s n c pages a purpose = some t) : t.log = s.log := by
  unfold State.makeUnit at h
  repeat' split at h
  all_goals cases h
  all_goals simp only [State.setLandRow_log, State.enqueue_log, State.layLanding_log]
  all_goals exact State.landingPlace_log ‹_›

theorem State.rowFor_log {s : State} {a} {ok : ℕ → LandRow → Bool} {fits : ℕ → Bool} {i t} (h : State.rowFor s a ok fits = some (i, t)) : t.log = s.log := by
  simp only [State.rowFor] at h
  repeat' split at h
  all_goals cases h
  all_goals simp +zetaDelta only [log_sec, State.setLandRow_log]

theorem State.rowForPage_log {s : State} {a} {i t} (h : State.rowForPage s a = some (i, t)) : t.log = s.log :=
  State.rowFor_log h

theorem State.addUnit_log {s : State} {n} {c} {pages} {a} {purpose : ℕ → Purpose} {t} (h : State.addUnit s n c pages a purpose = some t) : t.log = s.log := by
  unfold State.addUnit at h
  repeat' split at h
  · cases h
  · cases h; exact State.makeUnit_log ‹_›
  · exact (State.makeUnit_log h).trans (State.makeUnit_log ‹_›)
  · cases h; exact State.makeUnit_log ‹_›

theorem State.fillUnit_log {s : State} {n} {a} {purpose : ℕ → ℕ → Purpose} {t} (h : State.fillUnit s n a purpose = some t) :
    t.log = s.log := by
  unfold State.fillUnit at h
  split at h
  · cases h
  · exact (State.addUnit_log h).trans (State.setLandRow_log _ _ _)

theorem State.placePage_log {s : State} {p} {a} {purpose : ℕ → ℕ → Purpose} {t} (h : State.placePage s p a purpose = some t) :
    t.log = s.log := by
  unfold State.placePage at h
  split at h
  · cases h
  next n u hu =>
    split at h
    · cases h
    next r _ =>
      have h1 := (State.setLandRow_log u n (some { r with front := r.front ++ [p] })).trans (State.rowForPage_log hu)
      split at h
      · exact (State.fillUnit_log h).trans h1
      · cases h; exact h1

theorem State.placePages_log {s : State} {ps} {a} {purpose : ℕ → ℕ → Purpose} {t} (h : State.placePages s ps a purpose = some t) : t.log = s.log := by
  have go : ∀ (l : List (Nat × Nat)) (acc : Option State), (∀ u, acc = some u → u.log = s.log) → ∀ t,
      l.foldl (fun acc p => match acc with | some t => t.placePage p a purpose | none => none) acc = some t → t.log = s.log :=
        by
    intro l
    induction l with
    | nil => exact fun acc hacc t e => hacc t e
    | cons p l ih =>
      refine fun acc hacc t e => ih _ (fun u hu => ?_) t e
      cases acc with
      | none => cases hu
      | some v => exact (State.placePage_log hu).trans (hacc v rfl)
  exact go ps (some s) (fun u e => by cases e; rfl) t h

theorem State.placeSome_log (s : State) (ps) (a) (purpose : ℕ → ℕ → Purpose) : (State.placeSome s ps a purpose).log = s.log :=
  log_foldl _ (fun _ _ => log_getD fun _ h => State.placePage_log h) _ _

theorem State.closeFront_log {s : State} {a} {purpose : ℕ → ℕ → Purpose} {t} (h : State.closeFront s a purpose = some t) :
    t.log = s.log := by
  simp only [State.closeFront] at h
  repeat' split at h
  all_goals try cases h
  all_goals try simp +zetaDelta only
  all_goals exact State.fillUnit_log ‹_›

theorem State.placeUnit_log {s : State} {c} {pages} {a} {t} (h : State.placeUnit s c pages a = some t) : t.log = s.log := by
  unfold State.placeUnit at h
  split at h
  next hu => exact (State.addUnit_log h).trans (State.rowFor_log hu)
  next => cases h

theorem State.shadow_log (s : State) (us) (flush) : (State.shadow s us flush).log = s.log :=
  (log_getD fun _ h => State.closeFront_log h).trans (State.placeSome_log _ _ _ _)

theorem State.shadowExcess_log (s : State) : (State.shadowExcess s).log = s.log := by
  simp only [State.shadowExcess, log_ite, ite_self, State.shadow_log]

theorem State.issueRow_log (s : State) (z) (r) (cls) (purpose : ℕ → Purpose) : (State.issueRow s z r cls purpose).log = s.log := by
  unfold State.issueRow
  refine (log_foldl _ (fun t k => ?_) _ _).trans (State.setRow_log _ _ _ _)
  dsimp only
  repeat' split
  all_goals simp only [State.enqueue_log, State.layRow_log]

theorem State.issueDirect_log (s : State) (z) (cls) : (State.issueDirect s z cls).log = s.log := by
  simp only [State.issueDirect, log_ite, log_foldl, ite_self, implies_true, State.issueRow_log]

theorem State.supersede_log (s : State) (r) (k) (ps) : (State.supersede s r k ps).log = s.log := by rfl

theorem State.unitDone_log (s0 : State) (r) (k) : (State.unitDone s0 r k).log = s0.log := by
  simp only [State.unitDone]
  repeat' split
  all_goals simp only [log_sec, State.supersede_log, State.setLandRow_log]

theorem State.senseLanding_log (s : State) (r) (k) (d) (b) : (State.senseLanding s r k d b).log = s.log := by
  simp only [State.senseLanding, State.addReadUs_log, State.chargeUnit_log, State.countReads_log]

theorem State.senseUnit_log (s : State) (r) (k) : (State.senseUnit s r k).log = s.log := by
  unfold State.senseUnit; repeat' split
  all_goals simp only [log_foldl, implies_true, State.senseLanding_log]

theorem State.pinUnits_log (s : State) (z) : (State.pinUnits s z).log = s.log := by rfl

theorem State.placePinned_log (s : State) (z) : (State.placePinned s z).log = s.log := by
  unfold State.placePinned
  extract_lets a us t
  split
  · rfl
  · rw [State.pinUnits_log]
    exact (log_getD fun _ h => State.closeFront_log h).trans (State.placeSome_log _ _ _ _)

theorem State.convPlaceUnits_log (s : State) (us) : (State.convPlaceUnits s us).log = s.log :=
  (log_getD fun _ h => State.closeFront_log h).trans (State.placeSome_log _ _ _ _)

theorem State.redoUnit_log (s : State) (r k cls comp n m : Nat) : (State.redoUnit s r k cls comp (.landing n m)).log = s.log := by
  have settled : ∀ t : State, (t.settleProgram (.landing n m)).log = t.log := fun t => State.unitDone_log t n m
  unfold State.redoUnit
  split
  · rfl
  · split
    · rfl
    · extract_lets c give
      have given : (give s).log = s.log := settled _
      split
      · exact given
      · split
        · exact given
        · next h =>
          simp only [State.enqueue_log, State.layLanding_log, State.setLandRow_log]
          exact State.landingPlace_log h

theorem State.moveUnit_log (s : State) (a) (rebuild) (r) (k) (u) : (State.moveUnit s a rebuild r k u).log = s.log := by
  unfold State.moveUnit
  extract_lets c ps b t
  have ht : t.log = s.log := State.senseUnit_log _ _ _
  have placed : ∀ w, (if rebuild = true then t.placeUnit c ps b else t.placePages ps b fun n k => .landing n k) = some w →
      w.log = s.log := fun w hw => by
    split at hw
    · exact (State.placeUnit_log hw).trans ht
    · exact (State.placePages_log hw).trans ht
  repeat' split
  · rfl
  · simp only [State.redoUnit_log, State.senseUnit_log]
  · rfl
  · rfl
  · next h _ => simp only [log_foldl, State.pinUnits_log, implies_true, placed _ h]
  · next h _ => exact placed _ h

theorem State.moveUnits_log (s : State) (a) (rebuild) (f : LandUnit → Bool) : (State.moveUnits s a rebuild f).log = s.log := by
  unfold State.moveUnits
  extract_lets found t
  have ht : t.log = s.log := log_foldl _ (fun _ _ => State.moveUnit_log _ _ _ _ _ _) _ _
  split
  · exact ht
  · exact (log_getD fun _ h => State.closeFront_log h).trans ht

theorem State.landingGoes_log (s : State) : (State.landingGoes s).log = s.log := by
  simp only [State.landingGoes, log_ite, log_foldl, ite_self, implies_true, State.moveUnits_log, State.placePinned_log,
      State.convPlaceUnits_log, State.shadowExcess_log]

theorem State.closeReloaded_log (s : State) : (State.closeReloaded s).log = s.log := by
  simp only [State.closeReloaded, log_foldl, implies_true, State.issueDirect_log]

theorem State.afterFirst_log (s : State) : (State.afterFirst s).log = s.log := by
  simp only [State.afterFirst, log_sec, log_foldl, implies_true, State.landingGoes_log, State.closeReloaded_log,
      State.deferErase_log]


end Sys2Proof.Machine
end

section
/-! SUPPORT. Whether the zones are served, through events and the deletion of namespaces (R211, R297). -/

namespace Sys2Proof.Machine

open Sys2Proof

/-- Whether the zones are served. -/
def State.online (s : State) : Bool := s.zns.online

/-- An update of other components. -/
theorem online_mk (s : State) (part boot pins pwr plog tim thm fan lvl car fls mnt jrn nv nvNext bpm mem cmp fcd kry hif cpl sec svc free pending) :
    (State.mk part boot pins pwr plog tim thm fan lvl s.zns car fls mnt jrn nv nvNext bpm mem cmp fcd kry hif cpl sec svc free
      pending).online = s.online := rfl

/-- An update that leaves the zones online as they were. -/
theorem online_sec (s : State) (part boot pins pwr plog tim thm fan lvl car fls mnt jrn nv nvNext bpm mem cmp fcd kry hif cpl sec svc free pending)
    (zns : Zones) (hz : zns.online = s.zns.online) :
    (State.mk part boot pins pwr plog tim thm fan lvl zns car fls mnt jrn nv nvNext bpm mem cmp fcd kry hif cpl sec svc free
      pending).online = s.online := hz

theorem online_ite (c : Prop) [Decidable c] (s t : State) : (if c then s else t).online = if c then s.online else t.online :=
  apply_ite _ _ _ _

theorem online_foldl {α : Type} (f : State → α → State) (h : ∀ s a, (f s a).online = s.online) (l : List α) :
    ∀ s, (l.foldl f s).online = s.online := by
  induction l with
  | nil => exact fun _ => rfl
  | cons a l ih => exact fun s => (ih _).trans (h s a)

theorem online_of_eventFrame {s t : State} (h : EventFrame s t) : t.online = s.online := by
  unfold State.online
  rw [h.rest]

theorem State.setZone_online (s : State) (z) (v) : (State.setZone s z v).online = s.online := by rfl

theorem State.setPgroup_online (s : State) (p) (v) : (State.setPgroup s p v).online = s.online := by rfl

theorem State.setSpace_online (s : State) (n) (v) : (State.setSpace s n v).online = s.online := by rfl

theorem State.setComp_online (s : State) (c) (v) : (State.setComp s c v).online = s.online := by rfl

theorem State.setDie_online (s : State) (d) (v) : (State.setDie s d v).online = s.online := by rfl

theorem State.setBlock_online (s : State) (d) (b) (v) : (State.setBlock s d b v).online = s.online := by rfl

theorem State.setKctx_online (s : State) (c) (v) : (State.setKctx s c v).online = s.online := by rfl

theorem State.setPort_online (s : State) (p) (v) : (State.setPort s p v).online = s.online := by
  simp only [State.setPort, online_mk, online_ite, ite_self]

theorem State.emit_online (s : State) (o) : (State.emit s o).online = s.online := by rfl

theorem State.startClocks_online (s : State) (mask) : (State.startClocks s mask).online = s.online := by rfl

theorem State.startClock_online (s : State) (d) : (State.startClock s d).online = s.online := by rfl

theorem State.interrupt_online (s : State) (port) (vector) : (State.interrupt s port vector).online = s.online :=
  online_of_eventFrame (interrupt_frame _ _ _)

theorem State.toStewardRing_online (s : State) (e) : (State.toStewardRing s e).online = s.online :=
  online_of_eventFrame (toStewardRing_frame _ _)

theorem State.compIrq_online (s : State) (c) (bit) : (State.compIrq s c bit).online = s.online :=
  online_of_eventFrame (compIrq_frame _ _ _)

theorem State.toCompRing_online (s : State) (e) : (State.toCompRing s e).online = s.online :=
  online_of_eventFrame (toCompRing_frame _ _)

theorem State.toReels_online (s : State) (e) : (State.toReels s e).online = s.online := by rfl

theorem State.raise_online (s : State) (code) (level) (source) (c) (p) :
    (State.raise s code level source c p).online = s.online := online_of_eventFrame (raise_frame _ _ _ _ _ _)

theorem State.event_online (s : State) (code) (level) (source) (c) (fields) :
    (State.event s code level source c fields).online = s.online := online_of_eventFrame (event_frame _ _ _ _ _ _)

theorem State.modQueues_online (s : State) (f : Queue → Bool) (g : Queue → Queue) : (State.modQueues s f g).online = s.online := rfl

theorem State.cqPush_online (s : State) (h) : (State.cqPush s h).online = s.online := by rfl

theorem State.logError_online (s : State) (h) (e) : (State.logError s h e).online = s.online :=
  online_of_eventFrame (logError_frame _ _ _)

theorem State.complete_online (s : State) (h) (st) (dw0) (dw1) : (State.complete s h st dw0 dw1).online = s.online :=
  online_of_eventFrame (complete_frame _ _ _ _ _)

theorem State.done_online (s : State) (h) (dw0) : (State.done s h dw0).online = s.online :=
  online_of_eventFrame (done_frame _ _ _)

theorem State.portAsync_online (s : State) (p) (bit) (type) (info) (page) :
    (State.portAsync s p bit type info page).online = s.online := by
  simp only [State.portAsync, online_ite]
  repeat' split
  all_goals simp only [State.done_online, State.setPort_online]

theorem State.compAsync_online (s : State) (c) (bit) (type) (info) (page) :
    (State.compAsync s c bit type info page).online = s.online := by
  unfold State.compAsync; repeat' split
  all_goals simp only [online_mk, State.done_online]

theorem State.warning_online (s : State) (bit) (info) : (State.warning s bit info).online = s.online := by
  simp only [State.warning, online_foldl, implies_true, State.compAsync_online, State.portAsync_online]

theorem State.postTicket_online (s : State) (i) (n) (t) : (State.postTicket s i n t).online = s.online := by
  unfold State.postTicket; repeat' split
  all_goals simp only [State.setKctx_online]

theorem State.answerOps_online (s : State) (f : UnitOp → Bool) (status) : (State.answerOps s f status).online = s.online := by
  simp only [State.answerOps, online_mk, online_foldl, implies_true, State.postTicket_online]

theorem State.takeSeq_online (s : State) (n) : (State.takeSeq s n).2.online = s.online := by
  unfold State.takeSeq
  extract_lets a e _ s1
  have h1 : s1.online = s.online := rfl
  simp only [apply_ite State.online, State.event_online, h1, ite_self]

theorem State.unqueue_online (s : State) (f : QEntry → Bool) : (State.unqueue s f).online = s.online := by rfl

theorem State.deferErase_online (s : State) (d) (b) (next) : (State.deferErase s d b next).online = s.online := by
  simp only [State.deferErase, online_ite, ite_self, State.setDie_online, State.setBlock_online]

theorem State.pinCheck_online (s : State) : (State.pinCheck s).online = s.online := by
  simp only [State.pinCheck, online_mk, online_ite, ite_self, State.warning_online, State.event_online]

theorem State.journal_online (s : State) : (State.journal s).online = s.online := by
  simp only [State.journal, online_mk, State.takeSeq_online]

theorem State.dropData_online (s : State) (z) (u) : (State.dropData s z u).online = s.online := by rfl

theorem State.dropPages_online (s : State) (f : ℕ → Bool) : (State.dropPages s f).online = s.online := by rfl

theorem State.sweepLanding_online (s : State) : (State.sweepLanding s).online = s.online := by
  simp only [State.sweepLanding, online_mk, online_foldl, implies_true, State.deferErase_online]

theorem State.releaseBlocks_online (s : State) (z) : (State.releaseBlocks s z).online = s.online := by
  simp only [State.releaseBlocks, online_ite, online_foldl, ite_self, implies_true, State.deferErase_online]

theorem State.dropRows_online (s : State) (z) : (State.dropRows s z).online = s.online := by
  have erased : ∀ (l : List Reloc) (u : State), (l.foldl (fun t r => t.deferErase r.dstDie r.dstBlock .zone) u).online = u.online :=
    online_foldl _ fun t r => State.deferErase_online t _ _ _
  have spared : ∀ (l : List (Nat × Nat)) (u : State), (l.foldl (fun t m => t.deferErase m.1 m.2 .zone) u).online = u.online :=
    online_foldl _ fun t r => State.deferErase_online t _ _ _
  unfold State.dropRows
  dsimp only
  rw [State.pinCheck_online, State.sweepLanding_online, erased, spared, State.unqueue_online, State.dropPages_online]
  rfl

theorem State.resetZone_online (s : State) (z) : (State.resetZone s z).online = s.online := by
  simp only [State.resetZone, State.journal_online, State.setZone_online, State.dropData_online, State.dropRows_online,
      State.releaseBlocks_online]

theorem State.convLeave_online (s : State) (u) : (State.convLeave s u).online = s.online := by
  unfold State.convLeave
  dsimp only
  repeat' split
  all_goals rfl

theorem State.convUnland_online (s : State) (u) : (State.convUnland s u).online = s.online := by rfl

theorem State.convUnmap_online (s : State) (u) : (State.convUnmap s u).online = s.online := by
  exact (State.convUnland_online (s.convLeave u) u).trans (State.convLeave_online s u)

theorem State.spaceChanged_online (s : State) (n) (c) : (State.spaceChanged s n c).online = s.online := by
  simp only [State.spaceChanged, online_mk, State.compAsync_online, State.portAsync_online]

theorem State.uncarve_online (s : State) : (State.uncarve s).online = s.online := by
  unfold State.uncarve
  split <;> rfl

theorem State.freeSlots_online (s : State) : (State.freeSlots s).online = s.online := by
  exact online_foldl (fun t (m : Nat × Nat) => t.deferErase m.1 m.2 .zone) (fun t m => State.deferErase_online t _ _ _) _ s

theorem State.deleteSpace_online (s : State) (n) : (State.deleteSpace s n).online = s.online := by
  simp only [State.deleteSpace]
  repeat' split
  all_goals simp only [online_foldl, implies_true, State.resetZone_online, State.setPgroup_online, State.freeSlots_online,
      State.convUnmap_online, State.journal_online, State.answerOps_online, State.spaceChanged_online, State.uncarve_online,
          State.setSpace_online]

end Sys2Proof.Machine
end

section
/-! Settles O36: journal units, checkpoints and mounts (R187, R206, R207, R210 to R214). -/

namespace Sys2Proof.Proofs

open Sys2Proof Sys2Proof.Machine

section Journal

variable {s t : State}

theorem journalBlocks_desk (s : State) : s.journalBlocks.desk = s.desk := by
  unfold State.journalBlocks
  split <;> rfl

theorem journalQueue_desk (s : State) : s.journalQueue.desk = s.desk :=
  (desk_foldl (fun (u : State) (m : Nat × Nat) => (u.layPages m.1 m.2 (u.nextPage m.1 m.2) s.journalUnit).enqueue m.1
      (u.systemEntry m.2 (u.nextPage m.1 m.2) 0 .journal))
    (fun _ _ => (State.enqueue_desk _ _ _).trans (State.layPages_desk _ _ _ _ _)) _ _).trans (journalBlocks_desk s)

theorem journalWrite_desk (s : State) (flush : Bool) : (s.journalWrite flush).desk = s.desk :=
  (desk_foldl (fun (u : State) (m : Nat × Nat) => u.programNow m.1 m.2 s.journalUnit flush)
    (fun _ _ => (State.noteStart_desk _ _ _).trans (State.layPages_desk _ _ _ _ _)) _ _).trans (journalBlocks_desk s)

theorem freeSystem_fls (l : List (Nat × Nat)) (s : State) : s.freeSystem l = { s with fls := (s.freeSystem l).fls } :=
  List.foldlRecOn (motive := fun t : State => t = { s with fls := t.fls }) _ _ rfl
    fun t ih m _ => (deferErase_fls t _ _ _).trans (by rw [ih])

/-- The units of the journal that its tail fills (R206). -/
def tailUnits (s : State) : Nat := (s.jrn.tail * 64 + 65535) / 65536

/-- One unit more is written, by `f`. -/
def oneUnit (f : State → State) (u : State) : State := let w := f u; { w with jrn := { w.jrn with units := w.jrn.units + 1 } }

theorem times_oneUnit {f : State → State} (hl : ∀ u, (f u).log = u.log) (hd : ∀ u, (f u).desk = u.desk) : ∀ n s,
    (times (oneUnit f) n s).log = { s.log with checkpoints := (s.jrn.running, s.jrn.valid, s.jrn.slot, s.jrn.before, s.jrn.beganAt, s.jrn.units + n) } ∧
      (times (oneUnit f) n s).desk = s.desk
  | 0, _ => ⟨rfl, rfl⟩
  | n + 1, s => by
    obtain ⟨log, desk⟩ := times_oneUnit hl hd n (oneUnit f s)
    have one := hl s
    have counts : (f s).log.checkpoints = s.log.checkpoints := congrArg Log.checkpoints one
    simp only [State.log, Prod.mk.injEq] at counts
    obtain ⟨running, valid, slot, before, began, units⟩ := counts
    injection one with boot mnt sec tim nv
    refine ⟨log.trans ?_, desk.trans (hd s)⟩
    simp only [State.log, oneUnit, boot, mnt, sec, tim, nv, running, valid, slot, before, began, units]
    rw [Nat.add_right_comm, Nat.add_assoc]

/-- The journal's units are written, and its tail is empty (R206). -/
theorem journalUnits_facts {f : State → State} (hl : ∀ u, (f u).log = u.log) (hd : ∀ u, (f u).desk = u.desk) (s : State) :
    (s.journalUnits f).log = { s.log with
      checkpoints := (s.jrn.running, s.jrn.valid, s.jrn.slot, s.jrn.before, s.jrn.beganAt, s.jrn.units + tailUnits s) } ∧
      (s.journalUnits f).desk = s.desk ∧ (s.journalUnits f).jrn.tail = 0 := by
  obtain ⟨log, desk⟩ := times_oneUnit hl hd (tailUnits s) s
  exact ⟨log, desk, rfl⟩

theorem sameZones_of_desk (h : t.desk = s.desk) : SameZones s t := by
  have zns : ({ t.zns with seq := 0 } : Zones) = { s.zns with seq := 0 } := congrArg Desk.zns h
  exact congrArg (fun z : Zones => { z with seq := t.zns.seq }) zns

theorem bpm_of_desk (h : t.desk = s.desk) : t.bpm = s.bpm := congrArg Desk.bpm h

theorem ctxs_of_desk (h : t.desk = s.desk) : t.kry.ctxs = s.kry.ctxs := congrArg Desk.ctxs h

/-- What is durable once the journal is written, where the module is mounted (R206). -/
theorem durableNow_mounted (mounted : s.mnt.state = 4) : s.durableNow.comps = s.cmp ∧ s.durableNow.keys = s.sec.keys ∧
    s.durableNow.shares = s.car.share ∧ s.durableNow.foldCfg = s.fls.fold := by
  rw [State.durableNow, State.mounted, decide_eq_true mounted]
  exact ⟨rfl, rfl, rfl, rfl⟩

theorem journalProgrammed_nv (s : State) : s.journalProgrammed = { s with nv := if s.underWay .journal = true then s.nv else s.nvNext } := by
  rw [State.journalProgrammed]
  split <;> rfl

end Journal

section Commands

variable {s : State}

theorem journalUnitProgram_runs (waits : 0 < s.jrn.tail) (open_ : s.journalOpen = true) : exec .journalUnitProgram s =
    .next (if 1024 ≤ s.jrn.tail then s else s.advanceTo (s.jrn.tailAt + 1000000)).journalGo := by
  rw [show exec .journalUnitProgram s = execJournalUnitProgram s from rfl, execJournalUnitProgram, open_, decide_eq_true waits]
  rfl

theorem journalGo_facts (s : State) :
    s.journalGo.jrn.tail = 0 ∧ s.journalGo.jrn.units = s.jrn.units + tailUnits s ∧ s.journalGo.nvNext = s.durableNow ∧
    s.journalGo.nv = (if s.journalGo.underWay .journal = true then s.nv else s.journalGo.nvNext) ∧ SameZones s s.journalGo ∧
    s.journalGo.sec = s.sec ∧ s.journalGo.bpm = s.bpm ∧ s.journalGo.mnt = s.mnt ∧ s.journalGo.kry.ctxs = s.kry.ctxs := by
  obtain ⟨log, desk, tail⟩ := journalUnits_facts (f := State.journalQueue) State.journalQueue_log journalQueue_desk s
  unfold State.journalGo
  generalize s.journalUnits State.journalQueue = u at log desk tail
  dsimp only
  rw [journalProgrammed_nv]
  have zones := sameZones_of_desk desk
  have units : u.jrn.units = s.jrn.units + tailUnits s := congrArg (fun l : Log => l.checkpoints.2.2.2.2.2) log
  have nv : u.nv = s.nv := congrArg Log.nv log
  refine ⟨tail, units, rfl, ?_, zones, congrArg Log.sec log, bpm_of_desk desk, congrArg Log.mnt log, ctxs_of_desk desk⟩
  exact congrArg (fun v => if ({ u with nvNext := s.durableNow } : State).underWay .journal = true then v else s.durableNow) nv

/-- With an empty queue a die starts nothing. -/
theorem dieNext_idle {d : Nat} (empty : (s.die d).queue = []) : s.dieNext d = s := by
  have noRead : s.headRead d = none := by rw [State.headRead, empty]; rfl
  have noProg : s.headProg d = none := by rw [State.headProg, empty]; rfl
  have nothing : s.chooseNext d = none := by rw [State.chooseNext, noRead, noProg]
  unfold State.dieNext
  split
  · rfl
  · rw [State.takeNext, nothing]
    dsimp only
    rw [noProg]

theorem lower_of_mem {V : Type} [DecidableEq V] {d : V} : ∀ {lo : Nat} {m : SMap V}, canonFrom d lo m = true → ∀ x ∈ m, lo ≤ x.1
  | _, [], _, x, mem => absurd mem List.not_mem_nil
  | lo, (j, w) :: r, h, x, mem => by
    simp only [canonFrom, Bool.and_eq_true, decide_eq_true_eq] at h
    obtain ⟨⟨low, -⟩, rest⟩ := h
    obtain rfl | later := List.mem_cons.1 mem
    · exact low
    · exact Nat.le_trans low (Nat.le_of_lt (lower_of_mem rest x later))

/-- A canonical table looks up each of its entries. -/
theorem look_of_mem {V : Type} [DecidableEq V] {d v : V} {k : Nat} : ∀ {lo : Nat} {m : SMap V}, canonFrom d lo m = true → (k, v) ∈ m →
    look d m k = v
  | _, [], _, mem => absurd mem List.not_mem_nil
  | lo, (j, w) :: r, h, mem => by
    simp only [canonFrom, Bool.and_eq_true, decide_eq_true_eq] at h
    obtain ⟨-, rest⟩ := h
    obtain e | later := List.mem_cons.1 mem
    · obtain ⟨rfl, rfl⟩ := Prod.mk.inj e
      exact if_pos rfl
    · have above : j < k := lower_of_mem rest _ later
      exact (if_neg (Nat.ne_of_lt above)).trans (look_of_mem rest later)

/-- A program ends on a die with nothing queued: the die is idle. -/
theorem endOp_idle {d : Nat} (tables : canon Die.idle s.fls.dies = true) (empty : (s.die d).queue = []) :
    s.endOp d = s.setDie d { s.die d with op := none, starved := false } := by
  have here : (s.setDie d { s.die d with op := none, starved := false }).die d = { s.die d with op := none, starved := false } :=
    look_put _ _ _ _ tables
  exact dieNext_idle (by rw [here]; exact empty)

/-- The journal's last program (R206): what was recorded is durable. -/
theorem programComplete_journal {d : Nat} {o : DieOp} (ends : s.endable d isProgram = some o) (empty : (s.die d).queue = [])
    (purpose : o.entry.purpose = .journal) (tables : canon Die.idle s.fls.dies = true)
    (others : ∀ x v, (x, v) ∈ s.fls.dies → x ≠ d → (∀ q ∈ v.queue, q.purpose ≠ .journal) ∧ ∀ p, v.op = some p → p.entry.purpose ≠ .journal) :
    Goes (.programComplete d) s (fun t => t.nv = s.nvNext ∧ t.zns = s.zns) := by
  obtain ⟨u, hu⟩ : ∃ u, u = s.setDie d { s.die d with op := none, starved := false } := ⟨_, rfl⟩
  have here : u.die d = { s.die d with op := none, starved := false } := by rw [hu]; exact look_put _ _ _ _ tables
  have quiet : u.underWay .journal = false := by
    rw [State.underWay, List.any_eq_false]
    rintro ⟨x, v⟩ mem
    have canon' : canon Die.idle u.fls.dies = true := by rw [hu]; exact canon_put _ _ _ _ tables
    have free : (∀ q ∈ v.queue, q.purpose ≠ .journal) ∧ ∀ p, v.op = some p → p.entry.purpose ≠ .journal := by
      by_cases same : x = d
      · have found := (look_of_mem canon' (same ▸ mem)).symm.trans here
        rw [found]
        exact ⟨by rw [show ({ s.die d with op := none, starved := false } : Die).queue = [] from empty]; exact nofun, nofun⟩
      · rw [hu] at mem
        obtain old | new := mem_put mem
        · exact others x v old same
        · exact absurd (Prod.mk.inj new).1 same
    obtain ⟨queue, op⟩ := free
    have noQueue : v.queue.any (fun q => decide (q.purpose = .journal)) = false :=
      List.any_eq_false.2 fun q mem => by simpa using queue q mem
    dsimp only
    rw [noQueue]
    cases running : v.op with
    | none => exact Bool.false_ne_true
    | some p => simpa using op p running
  have run : exec (.programComplete d) s = .next (u.settleProgram .journal) := by
    rw [show exec (.programComplete d) s = execProgramComplete d s from rfl, execProgramComplete, ends]
    dsimp only
    rw [purpose, endOp_idle tables empty, ← hu]
  refine ⟨_, run, ?_⟩
  rw [show u.settleProgram .journal = u.journalProgrammed from rfl, journalProgrammed_nv, quiet, hu]
  exact ⟨rfl, rfl⟩

theorem checkpointStart_runs (awake : s.awake = true) (mounted : s.mnt.state = 4) (idle : s.jrn.running = false) (stays : s.mnt.stopping = false) :
    exec .checkpointStart s =
      .next (if s.mnt.firstCkpt || decide (State.ckptUnits < s.jrn.units) then s else s.advanceTo s.ckptDue).startCkpt := by
  rw [show exec .checkpointStart s = execCheckpointStart s from rfl, execCheckpointStart, awake, State.mounted, decide_eq_true mounted, idle, stays]
  rfl

theorem startCkpt_facts (s : State) : s.startCkpt.jrn.running = true ∧ s.startCkpt.jrn.before = s.jrn.units ∧
    s.startCkpt.jrn.beganAt = s.tim.now ∧ s.startCkpt.tim = s.tim ∧ SameZones s s.startCkpt ∧ s.startCkpt.sec = s.sec ∧
    s.startCkpt.bpm = s.bpm ∧ s.startCkpt.mnt = s.mnt ∧ s.startCkpt.nv = s.nv := by
  obtain ⟨u, hu⟩ : ∃ u : State, u = { s with jrn := { s.jrn with
      running := true, beganAt := s.now, before := s.jrn.units
      covered := s.jrn.covered ++ s.jrn.ckptNew ++ s.jrn.blocks.filter (fun m => !s.jrn.open_.contains m)
      blocks := s.jrn.open_, ckptOpen := [], ckptNew := [], stripe := 0, stripes := Config.ckptStripes s.free + 1 } } := ⟨_, rfl⟩
  have ran : s.startCkpt = ((u.unqueue (fun q => decide (q.purpose = .checkpoint))).ckptStripe).draw := by
    rw [hu]
    rfl
  have log : s.startCkpt.log = u.log := by
    rw [ran]
    exact (State.ckptStripe_log _).trans (State.unqueue_log u _)
  have counts : s.startCkpt.log.checkpoints = (true, s.jrn.valid, s.jrn.slot, s.jrn.units, s.tim.now, s.jrn.units) := by
    rw [log, hu]
    rfl
  simp only [State.log, Prod.mk.injEq] at counts
  obtain ⟨running, -, -, before, began, -⟩ := counts
  have desk := State.startCkpt_desk s
  exact ⟨running, before, began, (congrArg Log.tim log).trans (by rw [hu]; rfl), sameZones_of_desk desk,
    (congrArg Log.sec log).trans (by rw [hu]; rfl), bpm_of_desk desk, (congrArg Log.mnt log).trans (by rw [hu]; rfl),
    (congrArg Log.nv log).trans (by rw [hu]; rfl)⟩

theorem logsOpen_of_awake (awake : s.awake = true) : s.logsOpen = true := by
  rw [State.logsOpen, awake]
  rfl

/-- The checkpoint in force after a journal that is written whole (R207). -/
theorem ckptInForce_facts (s : State) : s.ckptInForce.jrn.running = false ∧ s.ckptInForce.jrn.valid = true ∧
    s.ckptInForce.jrn.slot = (if s.jrn.valid = true then 1 - s.jrn.slot else 0) ∧ s.ckptInForce.mnt = s.mnt ∧
    (s.mnt.state = 4 → s.ckptInForce.nv.keys = s.sec.keys) ∧ s.ckptInForce.sec = s.sec ∧ s.ckptInForce.jrn.tail = 0 ∧
    SameZones s s.ckptInForce := by
  obtain ⟨log, desk, tail⟩ := journalUnits_facts (f := fun u => u.journalWrite false) (fun u => State.journalWrite_log u false)
    (fun u => journalWrite_desk u false) s
  obtain ⟨w, hw⟩ : ∃ w, w = s.journalNow := ⟨_, rfl⟩
  have logs : w.log.checkpoints = (s.jrn.running, s.jrn.valid, s.jrn.slot, s.jrn.before, s.jrn.beganAt, s.jrn.units + tailUnits s) := by
    rw [hw]
    exact congrArg Log.checkpoints log
  simp only [State.log, Prod.mk.injEq] at logs
  obtain ⟨-, valid, slot, -⟩ := logs
  have mnt : w.mnt = s.mnt := by rw [hw]; exact congrArg Log.mnt log
  have sec : w.sec = s.sec := by rw [hw]; exact congrArg Log.sec log
  have nv : w.nv = s.durableNow := by rw [hw]; rfl
  have empty : w.jrn.tail = 0 := by rw [hw]; exact tail
  have zones : SameZones s w := by rw [hw]; exact sameZones_of_desk desk
  unfold State.ckptInForce
  dsimp only
  rw [← hw, freeSystem_fls]
  refine ⟨rfl, rfl, ?_, mnt, fun mounted => ?_, sec, empty, zones⟩
  · rw [← valid, ← slot]
  · exact (congrArg Durable.keys nv).trans (durableNow_mounted mounted).2.1

theorem checkpointValid_runs (awake : s.awake = true) (running : s.jrn.running = true) (written : s.jrn.stripes = 0)
    (quiet : s.underWay .checkpoint = false) : exec .checkpointValid s = .next s.ckptDone := by
  rw [show exec .checkpointValid s = execCheckpointValid s from rfl, execCheckpointValid, logsOpen_of_awake awake, running,
    decide_eq_true written, quiet]
  rfl

/-- The checkpoint is in force, and no first one is owed. -/
def firstOver (s : State) : State := { s.ckptInForce with mnt := { s.ckptInForce.mnt with firstCkpt := false } }

theorem ckptDone_open (open_ : s.mnt.closing = false) : s.ckptDone =
    (if s.mnt.firstCkpt then (firstOver s).afterFirst else firstOver s).answerOps (fun o => decide (o = .checkpoint)) 0 := by
  rw [State.ckptDone, open_]
  rfl

theorem ckptDone_facts (open_ : s.mnt.closing = false) : s.ckptDone.jrn.running = false ∧ s.ckptDone.jrn.valid = true ∧
    s.ckptDone.jrn.slot = (if s.jrn.valid = true then 1 - s.jrn.slot else 0) ∧ s.ckptDone.mnt.firstCkpt = false ∧
    (s.mnt.state = 4 → s.ckptDone.nv.keys = s.sec.keys) ∧ s.ckptDone.sec = s.sec ∧
    (s.mnt.firstCkpt = false → s.ckptDone.jrn.tail = 0 ∧ SameZones s s.ckptDone) := by
  obtain ⟨running, valid, slot, -, keys, sec, tail, zones⟩ := ckptInForce_facts s
  obtain ⟨u, hu⟩ : ∃ u, u = if s.mnt.firstCkpt then (firstOver s).afterFirst else firstOver s := ⟨_, rfl⟩
  have log : u.log = (firstOver s).log := by
    rw [hu]
    split
    · exact State.afterFirst_log _
    · rfl
  have counts : u.log.checkpoints = (firstOver s).log.checkpoints := congrArg Log.checkpoints log
  simp only [State.log, Prod.mk.injEq] at counts
  obtain ⟨run', valid', slot', -⟩ := counts
  rw [ckptDone_open open_, ← hu, answerOps_eq]
  refine ⟨run'.trans running, valid'.trans valid, slot'.trans slot, congrArg (fun l : Log => l.mnt.firstCkpt) log, fun mounted => ?_,
    (congrArg Log.sec log).trans sec, fun later => ?_⟩
  · exact (congrArg (fun l : Log => l.nv.keys) log).trans (keys mounted)
  · rw [hu, later, if_neg Bool.false_ne_true]
    exact ⟨tail, zones⟩

end Commands

section Mount

variable {s : State}

theorem mountComplete_runs {good readable : Bool} {fb ms : Nat} (awake : s.awake = true)
    (mounting : s.mnt.state = 1 ∨ s.mnt.state = 2 ∨ s.mnt.state = 3) (begun : s.mnt.waiting = false) :
    exec (.mountComplete readable good fb ms) s = .next (if readable
      then (s.advanceTo (s.mnt.requestedAt + ms * 1000000)).mountDone (!s.ckptPath good) good fb ms
      else (s.advanceTo (s.mnt.requestedAt + ms * 1000000)).mountFails ms) := by
  have state : (decide (s.mnt.state = 1) || decide (s.mnt.state = 2) || decide (s.mnt.state = 3)) = true := by
    obtain e | e | e := mounting <;> rw [e] <;> rfl
  rw [show exec (.mountComplete readable good fb ms) s = execMountComplete readable good fb ms s from rfl, execMountComplete, awake, state, begun]
  rfl

/-- The marker is taken and the mount's outcome told (R212). -/
theorem eraseMarker_event (u : State) (code level : Nat) (fields : List Int) (f : UnitOp → Bool) (st : Nat) :
    ∃ t, t = (u.eraseMarker.event code level (srcRegion 0 0) 0 fields).answerOps f st ∧ t.mnt = u.mnt ∧ t.plog.marker = 0 ∧ t.zns = u.zns ∧
      t.boot = u.boot ∧ ∃ e, t.hif.raised.head? = some e ∧ e.code = code ∧ e.level = level := by
  have frame := event_frame u.eraseMarker code level (srcRegion 0 0) 0 fields
  have fls : u.freeSystem u.jrn.marks = { u with fls := (u.freeSystem u.jrn.marks).fls } := freeSystem_fls _ _
  have rest : (u.eraseMarker.event code level (srcRegion 0 0) 0 fields).mnt = u.eraseMarker.mnt ∧
      (u.eraseMarker.event code level (srcRegion 0 0) 0 fields).plog = u.eraseMarker.plog ∧
      (u.eraseMarker.event code level (srcRegion 0 0) 0 fields).zns = u.eraseMarker.zns ∧
      (u.eraseMarker.event code level (srcRegion 0 0) 0 fields).boot = u.eraseMarker.boot := by
    rw [frame.rest]
    exact ⟨rfl, rfl, rfl, rfl⟩
  have raised := raised_event u.eraseMarker code level (srcRegion 0 0) 0 fields
  obtain ⟨mnt, plog, zns, boot⟩ := rest
  have erased : u.eraseMarker.mnt = u.mnt ∧ u.eraseMarker.plog.marker = 0 ∧ u.eraseMarker.zns = u.zns ∧ u.eraseMarker.boot = u.boot := by
    unfold State.eraseMarker
    rw [fls]
    exact ⟨rfl, rfl, rfl, rfl⟩
  refine ⟨_, rfl, ?_⟩
  rw [answerOps_eq]
  refine ⟨mnt.trans erased.1, (congrArg PowerLog.marker plog).trans erased.2.1, zns.trans erased.2.2.1, boot.trans erased.2.2.2, _,
    congrArg List.head? raised, rfl, rfl⟩

theorem settleDeletes_online (s : State) : s.settleDeletes.online = s.online := by
  unfold State.settleDeletes
  refine online_foldl _ (fun t e => ?_) _ s
  split
  · split
    · exact State.deleteSpace_online t _
    · rfl
  · rfl

/-- The key of the journal, which a mount makes where there is none (R554). -/
def mountKey (s : State) : State :=
  if look 0 s.sec.keys 1024 = 0 then ({ s with sec := { s.sec with keys := put 0 s.sec.keys 1024 (Config.freeNat s.free + 1) } }).draw
  else s

/-- The module is mounted, with the marker that the flush left as its shutdown (R212). -/
def mountedAs (u : State) (marker fb ms : Nat) (scan : Bool) : State :=
  { u with mnt := { u.mnt with state := 4, scanned := scan, shutdown := marker, progress := 100
                               fallback := if scan then fb else 0, elapsed := ms, firstCkpt := true, known := true } }

theorem mountDone_eq (s : State) (scan good : Bool) (fb ms : Nat) : s.mountDone scan good fb ms =
    ((mountedAs (mountKey (s.remount (s.jrn.valid && good)).settleDeletes) s.plog.marker fb ms scan).measureAtMount.eraseMarker.event
      0x0603 1 (srcRegion 0 0) 0 [if scan then 1 else 0, ms]).answerOps (fun o => decide (o = .mount)) 0 := by
  unfold State.mountDone mountedAs mountKey
  generalize (s.remount (s.jrn.valid && good)).settleDeletes = s0
  rfl

theorem measureAtMount_kept (u : State) : u.measureAtMount.zns = u.zns ∧ u.measureAtMount.mnt = u.mnt := by
  unfold State.measureAtMount State.startMeasurement
  split
  · split <;> exact ⟨rfl, rfl⟩
  · exact ⟨rfl, rfl⟩

theorem mountKey_zns (u : State) : (mountKey u).zns = u.zns := by
  unfold mountKey
  split <;> rfl

theorem mountDone_facts (s : State) (scan good : Bool) (fb ms : Nat) : ∃ t, s.mountDone scan good fb ms = t ∧ t.mnt.state = 4 ∧
    t.mnt.progress = 100 ∧ t.mnt.firstCkpt = true ∧ t.mnt.shutdown = s.plog.marker ∧ t.plog.marker = 0 ∧ t.zns.online = true ∧
    t.mnt.scanned = scan ∧ ∃ e, t.hif.raised.head? = some e ∧ e.code = 0x0603 ∧ e.level = 1 := by
  obtain ⟨u, hu⟩ : ∃ u, u = mountedAs (mountKey (s.remount (s.jrn.valid && good)).settleDeletes) s.plog.marker fb ms scan := ⟨_, rfl⟩
  have online : u.zns.online = true := by
    rw [hu]
    exact (congrArg Zones.online (mountKey_zns _)).trans (settleDeletes_online _)
  obtain ⟨zns', mnt'⟩ := measureAtMount_kept u
  obtain ⟨t, ht, mnt, marker, zns, -, told⟩ := eraseMarker_event u.measureAtMount 0x0603 1 [if scan then 1 else 0, ms]
    (fun o => decide (o = .mount)) 0
  have all : t.mnt = u.mnt := mnt.trans mnt'
  refine ⟨t, by rw [mountDone_eq, ← hu, ht], ?_⟩
  rw [all, zns, zns', hu]
  exact ⟨rfl, rfl, rfl, rfl, marker, hu ▸ online, rfl, told⟩

end Mount

/-- Settles O36: each command's facts are stated above; the statement puts them together. -/
theorem journalCheckpointsAndMounts : Obligations.JournalCheckpointsAndMounts := by
  unfold Obligations.JournalCheckpointsAndMounts
  intro s
  refine ⟨fun waits open_ => ?_, fun d o ends empty purpose canon_ others => ?_, fun awake mounted idle stays => ?_,
    fun awake running written quiet open_ => ?_, fun good fb ms awake mounting begun => ⟨?_, ?_⟩⟩
  · obtain ⟨u, hu⟩ : ∃ u, u = if 1024 ≤ s.jrn.tail then s else s.advanceTo (s.jrn.tailAt + 1000000) := ⟨_, rfl⟩
    have same : u = { s with tim := u.tim } := by
      rw [hu]
      split <;> rfl
    have run := journalUnitProgram_runs waits open_
    rw [← hu] at run
    obtain ⟨tail, units, next, nv, zones, sec, bpm, mnt, ctxs⟩ := journalGo_facts u
    generalize u.journalGo = t at run tail units next nv zones sec bpm mnt ctxs
    refine ⟨t, run, tail, units.trans (by rw [same]; rfl), fun mounted => ?_, nv.trans (by rw [same]), ?_,
      sec.trans (by rw [same]), bpm.trans (by rw [same]), mnt.trans (by rw [same]), ctxs.trans (by rw [same])⟩
    · have durable := durableNow_mounted (s := u) (by rw [same]; exact mounted)
      rw [← next, same] at durable
      exact durable
    · rw [same] at zones
      exact zones
  · exact programComplete_journal ends empty purpose canon_ others
  · obtain ⟨u, hu⟩ : ∃ u, u = if s.mnt.firstCkpt || decide (State.ckptUnits < s.jrn.units) then s else s.advanceTo s.ckptDue := ⟨_, rfl⟩
    have same : u = { s with tim := u.tim } := by
      rw [hu]
      split <;> rfl
    have soon : s.mnt.firstCkpt = true ∨ 32768 < s.jrn.units → u = s := fun due => by
      rw [hu]
      refine if_pos (Bool.or_eq_true_iff.2 ?_)
      exact due.imp_right decide_eq_true
    have run := checkpointStart_runs awake mounted idle stays
    rw [← hu] at run
    obtain ⟨running, before, began, tim, zones, sec, bpm, mnt, nv⟩ := startCkpt_facts u
    generalize u.startCkpt = t at run running before began tim zones sec bpm mnt nv
    refine ⟨t, run, running, before.trans (by rw [same]), began.trans (by rw [tim]), fun due => tim.trans (by rw [soon due]), ?_,
      sec.trans (by rw [same]), bpm.trans (by rw [same]), mnt.trans (by rw [same]), nv.trans (by rw [same])⟩
    rw [same] at zones
    exact zones
  · obtain ⟨idle, valid, slot, first, keys, sec, later⟩ := ckptDone_facts open_
    exact ⟨_, checkpointValid_runs awake running written quiet, idle, valid, slot, first, keys, sec, later⟩
  · obtain ⟨t, ht, state, progress, first, shutdown, marker, online, scanned, told⟩ :=
      mountDone_facts (s.advanceTo (s.mnt.requestedAt + ms * 1000000)) (!s.ckptPath good) good fb ms
    have run := mountComplete_runs (readable := true) (good := good) (fb := fb) (ms := ms) awake mounting begun
    rw [if_pos rfl, ht] at run
    refine ⟨t, run, state, progress, first, shutdown, marker, online, ?_, told⟩
    rw [scanned, State.ckptPath]
    simp [and_assoc]
  · obtain ⟨t, ht, mnt, -, zns, boot, told⟩ := eraseMarker_event
      { s.advanceTo (s.mnt.requestedAt + ms * 1000000) with mnt := { s.mnt with state := 5, elapsed := ms, shutdown := s.plog.marker } }
      0x0604 4 [] (fun o => decide (o = .mount)) 2
    have run := mountComplete_runs (readable := false) (good := good) (fb := fb) (ms := ms) awake mounting begun
    rw [if_neg Bool.false_ne_true, show (s.advanceTo (s.mnt.requestedAt + ms * 1000000)).mountFails ms = t from ht.symm] at run
    exact ⟨t, run, congrArg Mount.state mnt, congrArg Mount.shutdown mnt, zns, boot, told⟩

end Sys2Proof.Proofs
end

section
/-! Refutes O39: what ends a freeze is journalled, and a journal entry takes a write sequence value. -/

namespace Sys2Proof.Proofs

open Sys2Proof Sys2Proof.Machine

/-- Compartment 1 is Freezing, and none of its work is left. -/
def lastOfFreeze : State :=
  { State.reset with cmp := { State.reset.cmp with table := [(1, { Comp.free with state := .freezing })] } }

theorem lastOfFreeze_tables : Tables lastOfFreeze where
  zones := by decide +kernel
  rows := by decide +kernel
  dies := by decide +kernel
  blocks := by decide +kernel
  landing := by decide +kernel
  carriages := by decide +kernel
  comps := by decide +kernel

/-- The write sequence value that follows the last one taken. -/
def seqLeft (o : Out) : Option Nat :=
  match o with
  | .next t => some t.zns.seq
  | _ => none

theorem lastOfFreeze_takes :
    seqLeft (exec (.compartmentFreezeComplete 1) lastOfFreeze) = some (lastOfFreeze.zns.seq + 1) := by decide +kernel

/-- Refutes O39: a freeze that ends leaves the zones, but not the write sequence values that are yet to be given. -/
theorem not_controllersSquashesResetsAndDrains : ¬ Obligations.ControllersSquashesResetsAndDrains := by
  unfold Obligations.ControllersSquashesResetsAndDrains
  intro holds
  obtain ⟨-, -, -, -, freezes, -⟩ := holds lastOfFreeze lastOfFreeze_tables
  obtain ⟨t, run, -, -, -, kept, -⟩ := freezes 1 (by decide +kernel) (by decide +kernel) (by decide +kernel)
  have takes := lastOfFreeze_takes
  rw [run] at takes
  have raised : t.zns.seq = lastOfFreeze.zns.seq + 1 := by simpa [seqLeft] using takes
  rw [kept] at raised
  omega

end Sys2Proof.Proofs
end

section
/-! Refutes O49: a takeover settles the Frame Codec, and a job that is dropped there may have been the last to use a key that is
being erased. -/

namespace Sys2Proof.Proofs

open Sys2Proof Sys2Proof.Machine

/-- A Frame Append that asks for the history of codec context 0, which has none, and waits with key 5. -/
def brokenBand : CodecJob :=
  { ctx := 0, lane := none, near := none
    work := .append { port := 0, comp := 0, qid := 1, cid := 1, nsid := 1, fused := false, rsvd := false }
      { historyIn := true, format := 0, planes := 1, width := 1, height := 1, firstLine := 0, lines := 1, stream := 0, frame := 0 }
      [] 0 0 0 0 0 5 }

/-- The module runs, and the erase of key 5 of slot 0 waits for that job alone. -/
def eraseAwaits : State :=
  { State.reset with
    pwr := { State.reset.pwr with pstate := .run }
    lvl := { State.reset.lvl with regionA := true, regionB := true }
    sec := { State.reset.sec with keyErasing := some (0, 5) }
    fcd := { State.reset.fcd with jobs := [brokenBand] } }

/-- Whether a key is being erased. -/
def keyGoing (o : Out) : Option Bool :=
  match o with
  | .next t => some t.sec.keyErasing.isSome
  | _ => none

theorem eraseAwaits_ends : keyGoing (exec (.regionSelfFailure 0) eraseAwaits) = some false := by decide +kernel

/-- Refutes O49: with the takeover the job is refused, and the erase of its key ends. -/
theorem not_faultsAreTakenOverAndReported : ¬ Obligations.FaultsAreTakenOverAndReported := by
  unfold Obligations.FaultsAreTakenOverAndReported
  intro holds
  obtain ⟨takes, -⟩ := holds eraseAwaits (by decide +kernel)
  obtain ⟨taken, -⟩ := takes (by decide +kernel) (by decide +kernel)
  obtain ⟨-, -, t, run, -, -, -, -, -, -, -, -, -, kept⟩ := taken 0 (.inl rfl)
  have ends := eraseAwaits_ends
  rw [run] at ends
  have ended : t.sec.keyErasing.isSome = false := by simpa [keyGoing] using ends
  rw [kept] at ended
  exact absurd ended (by decide)

end Sys2Proof.Proofs
end

section
/-! Refutes O56: the number that a mirrored write takes may be that of a command in flight already. -/

namespace Sys2Proof.Proofs

open Sys2Proof Sys2Proof.Machine

/-- A host write of class 0 whose segment waits for a buffer; its front is not ready. -/
def waitingWrite : Flight :=
  { State.reset.newFlight { port := 0, comp := 0, qid := 1, cid := 1, nsid := 1, fused := false, rsvd := false } .write 0 0 (some 5) with
    start := 3840, len := 1, segs := State.segsOf 1 }

/-- Placement group 0 is the mirror of member 1's; staging is at Red; flight 0 is in flight, though the next number is 0. -/
def mirrorTakesNumber : State :=
  { State.reset with
    pwr := { State.reset.pwr with pstate := .run }
    zns := { State.reset.zns with
      pgroups := [(0, some { comp := 0, defaultDirect := false, groups := [0], nsid := some 1 })]
      spaces := [(1, some { kind := .zoned 0, comp := 0, lba16 := false, deleting := false })]
      zones := [(0, { Zone.none with state := .implicitOpen }), (5, { Zone.none with state := .implicitOpen, direct := true })] }
    cpl := { State.reset.cpl with
      ports := [{ CplPort.reset with state := 2, peer := 1 }, CplPort.reset, CplPort.reset, CplPort.reset]
      pairs := [{ pgroup := 0, peer := 1, peerPgroup := 0, role := .mirror, formed := true, owner := 0, changed := 0, resync := []
                  writtenSince := [], peerNsid := 1 }] }
    bpm := { State.reset.bpm with staging := { State.reset.bpm.staging with entered := 2 } }
    car := { State.reset.car with flights := [waitingWrite] } }

/-- Whether a write of the neighbour is in flight. -/
def mirroredWrite (o : Out) : Bool :=
  match o with
  | .next t => t.car.flights.any (fun v => v.peer.isSome)
  | _ => true

theorem mirrorTakesNumber_loses :
    mirroredWrite (exec (.mirrorSegment 1 0 0 0 0 (List.replicate 4096 0) false 1) mirrorTakesNumber) = false := by decide +kernel

/-- Refutes O56: the grant that follows is the old command's, and what it records replaces the mirrored write. -/
theorem not_coupledModulesMirrorAndFollow : ¬ Obligations.CoupledModulesMirrorAndFollow := by
  unfold Obligations.CoupledModulesMirrorAndFollow
  rintro ⟨-, holds⟩
  obtain ⟨-, -, -, -, -, -, -, segments, -⟩ := holds mirrorTakesNumber (by decide +kernel) (by decide +kernel)
  obtain ⟨mirrors, -⟩ := segments (by decide +kernel) 1 0 0 0
    { pgroup := 0, peer := 1, peerPgroup := 0, role := .mirror, formed := true, owner := 0, changed := 0, resync := [],
      writtenSince := [], peerNsid := 1 } (by decide +kernel) (by decide +kernel) rfl rfl (by decide +kernel)
  obtain ⟨atPointer, -⟩ := mirrors 0 0 (List.replicate 4096 0) false 1 1 (by decide +kernel) (by decide) (by decide)
    (List.length_replicate ..) rfl (by decide) (by decide +kernel)
  obtain ⟨t, run, -, -, v, mem, -, -, -, -, -, peer⟩ := atPointer (by decide +kernel) (by decide +kernel)
  have loses := mirrorTakesNumber_loses
  rw [run] at loses
  have none_mirrored : ∀ w ∈ t.car.flights, w.peer.isSome = false := by simpa [mirroredWrite] using loses
  have gone := none_mirrored v mem
  rw [peer] at gone
  exact absurd gone (by decide)

end Sys2Proof.Proofs
end

section
/-! Settles O57: register accesses, the debug connector and the management bus. -/

namespace Sys2Proof.Proofs

open Sys2Proof Sys2Proof.Machine

/-- A rule whose premise holds gives its next state. -/
theorem goes_of_arises {i : Instr} {s : State} {P : State → Prop} {c : Bool} {name : String} {t : State}
    (run : exec i s = arises c name t) (may : c = true) (holds : P t) : Goes i s P :=
  ⟨t, by rw [run, arises, if_pos may], holds⟩

section Merging

/-- A written register takes the bits of the mask from the value and the others from what it held. -/
theorem merged_testBit (old v : Nat) {mask : Nat} (small : mask < 2 ^ 64) (i : Nat) :
    (merged old v mask).testBit i = ((old.testBit i && (decide (i < 64) && !mask.testBit i)) || (v.testBit i && mask.testBit i)) := by
  rw [merged, Nat.testBit_or, Nat.testBit_and, Nat.testBit_and, show 2 ^ 64 - 1 - mask = 2 ^ 64 - (mask + 1) by omega,
    Nat.testBit_two_pow_sub_succ small]

theorem bits_testBit (v lo n i : Nat) : (bits v lo n).testBit i = (decide (i < n) && v.testBit (lo + i)) := by
  rw [bits, Nat.testBit_mod_two_pow, Nat.testBit_div_two_pow, Nat.add_comm i lo]

theorem merged_all (old : Nat) {v : Nat} (small : v < 2 ^ 64) : merged old v (2 ^ 64 - 1) = v := by
  rw [merged, Nat.sub_self, Nat.and_zero, Nat.zero_or, Nat.and_two_pow_sub_one_eq_mod, Nat.mod_eq_of_lt small]

theorem lowMask_testBit (i : Nat) : (0xFFFFFFFF : Nat).testBit i = decide (i < 32) := Nat.testBit_two_pow_sub_one 32 i

/-- A bit of the low half is the value's, where the low half is written. -/
theorem merged_low (old v : Nat) {i : Nat} (low : i < 32) : (merged old (v % 2 ^ 32) 0xFFFFFFFF).testBit i = v.testBit i := by
  rw [merged_testBit old _ (by decide), lowMask_testBit, Nat.testBit_mod_two_pow]
  simp [low]

/-- A field of the low half is the value's, where the low half is written. -/
theorem bits_merged_low (old v lo n : Nat) (low : lo + n ≤ 32) :
    bits (merged old (v % 2 ^ 32) 0xFFFFFFFF) lo n = v / 2 ^ lo % 2 ^ n := by
  apply Nat.eq_of_testBit_eq
  intro i
  rw [bits_testBit, Nat.testBit_mod_two_pow, Nat.testBit_div_two_pow]
  by_cases inside : i < n
  · rw [merged_low old v (by omega), Nat.add_comm i lo]
  · simp [inside]

/-- Where the high half is written, the low half stays and the high half is the value's. -/
theorem merged_high (old v : Nat) :
    merged old (v % 2 ^ 32 * 2 ^ 32) 0xFFFFFFFF00000000 = old % 2 ^ 32 + v % 2 ^ 32 * 2 ^ 32 := by
  have kept : old &&& (2 ^ 64 - 1 - 0xFFFFFFFF00000000) = old % 2 ^ 32 := Nat.and_two_pow_sub_one_eq_mod old 32
  have written : v % 2 ^ 32 * 2 ^ 32 &&& 0xFFFFFFFF00000000 = v % 2 ^ 32 * 2 ^ 32 := by
    rw [show (0xFFFFFFFF00000000 : Nat) = (2 ^ 32 - 1) * 2 ^ 32 from rfl, ← Nat.shiftLeft_eq, ← Nat.shiftLeft_eq,
      ← Nat.shiftLeft_and_distrib, Nat.and_two_pow_sub_one_eq_mod, Nat.mod_mod]
  have low : old % 2 ^ 32 < 2 ^ 32 := Nat.mod_lt _ (by decide)
  rw [merged, kept, written, Nat.or_comm, ← Nat.shiftLeft_eq, ← Nat.shiftLeft_add_eq_or_of_lt low, Nat.add_comm]

end Merging

section Accesses

variable {s : State} {p : Nat} {P : State → Prop}

theorem registerRead_goes (reach : s.reachable p = true) {off n : Nat} (good : State.goodAccess 2 off n = true)
    (holds : P (((s.accessClear p 2 off n).emit (.mmio p 2 off (BitVec.ofNat 64 (s.accessRead p 2 off n)))).draw)) :
    Goes (.registerReadClear p 2 off n) s P :=
  goes_of_arises rfl (by rw [reach, good]; rfl) holds

theorem registerWrite_goes (reach : s.reachable p = true) {off n : Nat} (good : State.goodAccess 2 off n = true) {v : Word}
    (holds : P (s.accessWrite p 2 off n v)) : Goes (.registerWrite p 2 off n v) s P :=
  goes_of_arises rfl (by rw [reach, good]; rfl) holds

/-- An access of 8 bytes reads the whole register. -/
theorem accessRead_whole {off : Nat} (aligned : off % 8 = 0) : s.accessRead p 2 off 8 = s.regRead off := by
  rw [State.accessRead, aligned, Nat.sub_zero]; rfl

theorem accessClear_whole {off : Nat} (aligned : off % 8 = 0) : s.accessClear p 2 off 8 = s.regClear off (2 ^ 64 - 1) := by
  rw [State.accessClear, aligned, Nat.sub_zero]; rfl

theorem accessWrite_whole {off : Nat} (aligned : off % 8 = 0) (v : Word) :
    s.accessWrite p 2 off 8 v = s.regWrite off v.toNat (2 ^ 64 - 1) false := by
  rw [State.accessWrite, aligned, Nat.sub_zero]; rfl

/-- An aligned access of 8 bytes inside BAR 2 is good. -/
theorem goodAccess_whole {off : Nat} (aligned : off % 8 = 0) (inside : off < 0x4000000) : State.goodAccess 2 off 8 = true := by
  have fits : off + 8 ≤ 0x4000000 := by omega
  simp [State.goodAccess, aligned, State.barBytes, fits]

/-- The registers end at 0x2400000: what lies behind reads 0. -/
theorem regRead_behind {off : Nat} (behind : 0x2400000 ≤ off) : s.regRead off = 0 := by
  have above : ∀ n, n ≤ 0x2400000 → ¬ off < n := fun n le => by omega
  unfold State.regRead
  simp [above]

theorem regWrite_behind {off : Nat} (behind : 0x2400000 ≤ off) (v mask : Nat) (reel : Bool) : s.regWrite off v mask reel = s := by
  have above : ∀ n, n ≤ 0x2400000 → ¬ off < n := fun n le => by omega
  unfold State.regWrite
  simp [above]

theorem regClear_behind {off : Nat} (behind : 0x2400000 ≤ off) (mask : Nat) : s.regClear off mask = s := by
  unfold State.regClear
  repeat rw [if_neg (by omega)]

/-- A read of the whole of the idle register clears the count of its high half. -/
theorem regClear_idle : s.regClear 0x20008 (2 ^ 64 - 1) = { s with pwr := { s.pwr with idleEntries := 0 } } := by
  unfold State.regClear
  exact if_pos ⟨rfl, by decide⟩

/-- A read of its low half clears nothing. -/
theorem regClear_idle_low : s.regClear 0x20008 0xFFFFFFFF = s := by
  have high : ¬ covers 0xFFFFFFFF 32 32 = true := by decide
  unfold State.regClear
  rw [if_neg fun both => high both.2]
  repeat rw [if_neg (by omega)]

/-- A read of the time clears nothing. -/
theorem regClear_time (mask : Nat) : s.regClear 0x30000 mask = s := by
  unfold State.regClear
  repeat rw [if_neg (by omega)]

/-- A part without fans drops what is written to them. -/
theorem regWrite_fans {off : Nat} (none : s.part.fan = false) (low : 0x50000 ≤ off) (high : off < 0x60000) (v mask : Nat) (reel : Bool) :
    s.regWrite off v mask reel = s := by
  unfold State.regWrite
  repeat rw [if_neg (by omega)]
  rw [if_pos high]
  unfold State.fanWrite
  exact if_pos (by rw [none]; rfl)

end Accesses

section Rows

variable {s : State} {p : Nat}

/-- R450, R566 to R568: what a read of a register answers and clears. -/
theorem registerReads (reach : s.reachable p = true) :
    Goes (.registerReadClear p 2 0x20008 8) s (fun t => Output.mmio p 2 0x20008 (BitVec.ofNat 64 (s.regRead 0x20008)) ∈ t.hif.out ∧
      t.pwr = { s.pwr with idleEntries := 0 } ∧ t.zns = s.zns) ∧
    Goes (.registerReadClear p 2 0x20008 4) s (fun t => Output.mmio p 2 0x20008 (BitVec.ofNat 64 (s.regRead 0x20008 % 2 ^ 32)) ∈
      t.hif.out ∧ t.pwr = s.pwr) ∧
    Goes (.registerReadClear p 2 0x30000 8) s (fun t => Output.mmio p 2 0x30000 (BitVec.ofNat 64 s.tim.now) ∈ t.hif.out ∧
      t.tim = s.tim) ∧
    ∀ off, off % 8 = 0 → 0x2400000 ≤ off → off < 0x4000000 →
      Goes (.registerReadClear p 2 off 8) s (fun t => Output.mmio p 2 off 0 ∈ t.hif.out ∧ t.pwr = s.pwr) := by
  refine ⟨?_, ?_, ?_, fun off aligned behind inside => ?_⟩
  · refine registerRead_goes reach (by decide) ?_
    rw [accessRead_whole rfl, accessClear_whole rfl, regClear_idle]
    exact ⟨List.mem_cons_self, rfl, rfl⟩
  · have half : s.accessRead p 2 0x20008 4 = s.regRead 0x20008 % 2 ^ 32 := by
      rw [State.accessRead, if_neg (by decide), bits]
      exact congrArg (· % 2 ^ 32) (Nat.div_one _)
    have clear : s.accessClear p 2 0x20008 4 = s.regClear 0x20008 0xFFFFFFFF := by rw [State.accessClear]; rfl
    refine registerRead_goes reach (by decide) ?_
    rw [half, clear, regClear_idle_low]
    exact ⟨List.mem_cons_self, rfl⟩
  · refine registerRead_goes reach (by decide) ?_
    rw [accessRead_whole rfl, accessClear_whole rfl, regClear_time]
    exact ⟨List.mem_cons_self, rfl⟩
  · refine registerRead_goes reach (goodAccess_whole aligned inside) ⟨?_, ?_⟩
    · rw [accessRead_whole aligned, regRead_behind behind]
      exact List.mem_cons_self
    · rw [accessClear_whole aligned, regClear_behind behind]
      rfl

/-- R566: what is written where nothing may be written is dropped. -/
theorem registerWrites_dropped (reach : s.reachable p = true) :
    (∀ off, off % 8 = 0 → 0x2400000 ≤ off → off < 0x4000000 → ∀ v, Goes (.registerWrite p 2 off 8 v) s (fun t => t = s)) ∧
    (∀ v, s.sec.level ≠ .opened → Goes (.registerWrite p 2 0x40008 8 v) s (fun t => t = s)) ∧
    ∀ off v, s.part.fan = false → off % 8 = 0 → 0x50000 ≤ off → off < 0x60000 → Goes (.registerWrite p 2 off 8 v) s (fun t => t = s) := by
  refine ⟨fun off aligned behind inside v => ?_, fun v shut => ?_, fun off v none aligned low high => ?_⟩
  · exact registerWrite_goes reach (goodAccess_whole aligned inside) (by rw [accessWrite_whole aligned, regWrite_behind behind])
  · refine registerWrite_goes reach rfl ?_
    show (if !s.isOpen then s else _) = s
    rw [State.isOpen, decide_eq_false shut]
    rfl
  · exact registerWrite_goes reach (goodAccess_whole aligned (by omega)) (by rw [accessWrite_whole aligned, regWrite_fans none low high])

/-- R482, R567: what a register that takes writes holds. -/
theorem registerWrites_taken (reach : s.reachable p = true) (v : Word) :
    Goes (.registerWrite p 2 0x20020 8 v) s (fun t => t = { s with pwr := { s.pwr with wakeTimer := v.toNat } }) ∧
    Goes (.registerWrite p 2 0x20024 4 v) s (fun t => t = { s with pwr := { s.pwr with
      wakeTimer := s.pwr.wakeTimer % 2 ^ 32 + v.toNat % 2 ^ 32 * 2 ^ 32 } }) ∧
    Goes (.registerWrite p 2 0x20010 4 v) s (fun t => t = { s with pwr := { s.pwr with idleUs := v.toNat % 2 ^ 24 } }) ∧
    Goes (.registerWrite p 2 0x30008 4 v) s (fun t => t = { s with tim := { s.tim with
      ppsEn := v.getLsbD 0, ptmEn := v.getLsbD 1, ptmMs := v.toNat / 2 ^ 8 % 2 ^ 8 } }) ∧
    (v.getLsbD 19 = true → Goes (.registerWrite p 2 0x40 8 v) s (fun t => t.pins.srcIdChanged = false ∧
      (v.getLsbD 18 = false → t.pins.srcCritEvent = s.pins.srcCritEvent))) := by
  have low : v.toNat % 2 ^ 32 * 2 ^ 0 = v.toNat % 2 ^ 32 := Nat.mul_one _
  refine ⟨?_, ?_, ?_, ?_, fun named => ?_⟩
  · refine registerWrite_goes reach rfl ?_
    show ({ s with pwr := { s.pwr with wakeTimer := merged s.pwr.wakeTimer v.toNat (2 ^ 64 - 1) } } : State) = _
    rw [merged_all _ v.isLt]
  · refine registerWrite_goes reach rfl ?_
    show ({ s with pwr := { s.pwr with wakeTimer := merged s.pwr.wakeTimer (v.toNat % 2 ^ 32 * 2 ^ 32) 0xFFFFFFFF00000000 } } : State) = _
    rw [merged_high]
  · refine registerWrite_goes reach rfl ?_
    show ({ s with pwr := { s.pwr with idleUs := bits (merged (s.pwrRead 0x10) (v.toNat % 2 ^ 32 * 2 ^ 0) 0xFFFFFFFF) 0 24 } } : State) = _
    rw [low, bits_merged_low _ _ _ _ (by decide), Nat.pow_zero, Nat.div_one]
  · refine registerWrite_goes reach rfl ?_
    show ({ s with tim := { s.tim with
      ppsEn := (merged (s.timRead 8) (v.toNat % 2 ^ 32 * 2 ^ 0) 0xFFFFFFFF).testBit 0
      ptmEn := (merged (s.timRead 8) (v.toNat % 2 ^ 32 * 2 ^ 0) 0xFFFFFFFF).testBit 1
      ptmMs := bits (merged (s.timRead 8) (v.toNat % 2 ^ 32 * 2 ^ 0) 0xFFFFFFFF) 8 8 } } : State) = _
    rw [low, merged_low _ _ (by decide), merged_low _ _ (by decide), bits_merged_low _ _ _ _ (by decide), BitVec.getLsbD, BitVec.getLsbD]
  · have ones : v.toNat &&& (2 ^ 64 - 1) = v.toNat := by rw [Nat.and_two_pow_sub_one_eq_mod, Nat.mod_eq_of_lt v.isLt]
    refine registerWrite_goes reach rfl ⟨?_, fun other => ?_⟩
    · show (s.pins.srcIdChanged && !(v.toNat &&& (2 ^ 64 - 1)).testBit 19) = false
      rw [ones, show v.toNat.testBit 19 = true from named, Bool.not_true, Bool.and_false]
    · show (s.pins.srcCritEvent && !(v.toNat &&& (2 ^ 64 - 1)).testBit 18) = s.pins.srcCritEvent
      rw [ones, show v.toNat.testBit 18 = false from other, Bool.not_false, Bool.and_true]

/-- R406: a misaligned read is refused, and a misaligned write is dropped. -/
theorem misaligned_refused (reach : s.reachable p = true) (n : Nat) :
    Goes (.misalignedAccess p false n) s (fun t => t = s) ∧ Goes (.misalignedAccess p true n) s (fun t =>
      (t.port p).aerLogged = (s.port p).aerLogged + 1 ∧ Output.unsupported p ∈ t.hif.out ∧ t.pwr = s.pwr) := by
  refine ⟨goes_of_arises rfl reach rfl, goes_of_arises rfl reach ⟨?_, List.mem_cons_self, ?_⟩⟩
  · show (((s.setPort p { s.port p with aerLogged := (s.port p).aerLogged + 1 }).emit _).port p).aerLogged = _
    by_cases first : p = 0
    · subst first; rfl
    · simp [State.setPort, State.port, State.emit, first]
  · show (s.setPort p { s.port p with aerLogged := (s.port p).aerLogged + 1 }).pwr = s.pwr
    unfold State.setPort
    split <;> rfl

end Rows

section Service

variable {s : State}

theorem flag_field_mod (b : Bool) (x i n : Nat) : flagAt b (4 + i) % 16 = 0 ∧ field x (4 + i) n % 16 = 0 := by
  have sixteen : 2 ^ (4 + i) % 16 = 0 := by rw [Nat.pow_add]; exact Nat.mul_mod_right 16 _
  refine ⟨?_, ?_⟩
  · rw [flagAt]
    split
    · exact sixteen
    · rfl
  · rw [field, Nat.mul_mod, sixteen, Nat.mul_zero, Nat.zero_mod]

/-- R89: the low four bits of a zone's status are the code of its state. -/
theorem zoneStatus_state (z : Nat) (has : s.zoneExists z = true) : s.zoneStatus z % 16 = (s.zone z).state.code % 16 := by
  have flags : ∀ i b, flagAt b (4 + i) % 16 = 0 := fun i b => (flag_field_mod b 0 i 0).1
  have fields : ∀ i x n, field x (4 + i) n % 16 = 0 := fun i x n => (flag_field_mod true x i n).2
  have direct := flags 0 (s.zone z).direct
  have pinned := flags 1 (s.zone z).pinned
  have reduced := flags 2 (s.zone z).reduced
  have known := flags 3 true
  have wp := fields 4 (s.zone z).wp 19
  have cap := fields 28 (s.zone z).cap 19
  unfold State.zoneStatus
  rw [if_neg (by rw [has]; decide)]
  show ((s.zone z).state.code + flagAt (s.zone z).direct (4 + 0) + flagAt (s.zone z).pinned (4 + 1) +
    flagAt (s.zone z).reduced (4 + 2) + flagAt true (4 + 3) + field (s.zone z).wp (4 + 4) 19 +
    field (s.zone z).cap (4 + 28) 19) % 16 = _
  omega

theorem zoneStatus_none (z : Nat) (has : s.zoneExists z = false) : s.zoneStatus z = 0x80 := by
  rw [State.zoneStatus, has]; rfl

theorem toNat_ofNat_low (n : Nat) : (BitVec.ofNat 64 n).toNat % 16 = n % 16 := by
  rw [BitVec.toNat_ofNat]
  omega

theorem zoneQuery_answers (awake : s.awake = true) (z : Nat) :
    Goes (.zoneQuery z) s (fun t => t = { s with zns := { s.zns with zoneStat := t.zns.zoneStat } } ∧
      (s.zoneExists (z % 2 ^ 24) = true → t.zns.zoneStat.toNat % 16 = (s.zone (z % 2 ^ 24)).state.code % 16) ∧
      (s.zoneExists (z % 2 ^ 24) = false → t.zns.zoneStat.toNat % 16 = 0)) := by
  refine goes_of_arises rfl awake ⟨rfl, fun has => ?_, fun has => ?_⟩
  · exact (toNat_ofNat_low _).trans (zoneStatus_state _ has)
  · exact (toNat_ofNat_low _).trans (by rw [zoneStatus_none _ has])

/-- R450: a PEEK at Open answers the register, or a question mark; below Open it answers nothing. -/
theorem peek_answers (awake : s.awake = true) (off : Nat) :
    (s.sec.level ≠ .opened → Goes (.peek off) s (fun t => t = s)) ∧
    (s.sec.level = .opened → off % 8 ≠ 0 ∨ 0x4000000 ≤ off → Goes (.peek off) s (fun t =>
      t = { s with hif := { s.hif with out := .uartQuestion :: s.hif.out } })) ∧
    (s.sec.level = .opened → off % 8 = 0 → off < 0x4000000 → Goes (.peek off) s (fun t =>
      t = { s with free := t.free, hif := { s.hif with out := .uartPeek (BitVec.ofNat 64 (s.regRead off)) :: s.hif.out } })) := by
  refine ⟨fun shut => ?_, fun level bad => ?_, fun level aligned inside => ?_⟩
  · refine goes_of_arises rfl awake ?_
    rw [State.isOpen, decide_eq_false shut]; rfl
  · refine goes_of_arises rfl awake ?_
    rw [State.isOpen, decide_eq_true level, if_neg (by decide), if_pos bad]; rfl
  · refine goes_of_arises rfl awake ?_
    rw [State.isOpen, decide_eq_true level, if_neg (by decide), if_neg (by omega)]; rfl

/-- R449: each instruction of the connector is loaded once step 2 has run. -/
theorem jtag_loads (run : s.pwr.pstate = .run) (past : 2 ≤ s.boot.step) {i : Instr} {name : String} {ir : JtagIr}
    (does : exec i s = s.jtag name ir) : Goes i s (fun t => t = { s with svc := { s.svc with ir := ir } }) :=
  goes_of_arises does (by rw [State.pastStep, run]; exact decide_eq_true past) rfl

theorem mgmtAlive_of_run (run : s.pwr.pstate = .run) : s.mgmtAlive = true := by rw [State.mgmtAlive, run]

theorem awake_of_run (run : s.pwr.pstate = .run) : s.awake = true := by rw [State.awake, run]

/-- While the module runs a management request is answered at once. -/
theorem miRequest_run (run : s.pwr.pstate = .run) {i : Instr} {name : String} {r : MiReq} (does : exec i s = s.miRequest name r)
    {P : State → Prop} (holds : P (s.answerMi r)) : Goes i s P := by
  refine ⟨s.answerMi r, ?_, holds⟩
  have fired : s.wakeFired 0x100 = some s := by rw [State.wakeFired, run]; rfl
  rw [does, State.miRequest, fired]
  exact if_pos (awake_of_run run)

/-- A management request of a module that sleeps wakes it, and waits. -/
theorem miRequest_asleep {x : SleepTarget} (power : x ≠ .off) (asleep : s.pwr.pstate = .asleep x) (armed : s.pwr.wakeEn.getLsbD 8 = true)
    {i : Instr} {name : String} {r : MiReq} (does : exec i s = s.miRequest name r) :
    Goes i s (fun t => t.svc.requests = s.svc.requests ++ [r] ∧ t.pwr.pstate = .waking x 1 ∧ t.pwr.wakeSource = 8 ∧ t.hif = s.hif) := by
  have source : s.enabledSources 0x100 = [8] := by
    simp [State.enabledSources, armed]
  have fired : s.wakeFired 0x100 = some (s.startWake x [8]) := by
    rw [State.wakeFired, asleep]
    cases x with
    | off => exact absurd rfl power
    | sleep => rw [source]; rfl
    | deep => rw [source]; rfl
  have sleeps : s.awake = false := by rw [State.awake, asleep]
  have alive : s.mgmtAlive = true := by rw [State.mgmtAlive, asleep]; exact decide_eq_true power
  refine ⟨{ s.startWake x [8] with svc := { s.svc with requests := s.svc.requests ++ [r] } }, ?_, rfl, rfl, rfl, rfl⟩
  rw [does, State.miRequest, fired]
  show (if s.awake then _ else arises s.mgmtAlive name _) = _
  rw [sleeps, if_neg Bool.false_ne_true, alive]
  rfl

end Service

/-- Settles O57, by the rows of the register accesses and of the management bus. -/
theorem registersPinsAndTheManagementBusAnswer : Obligations.RegistersPinsAndTheManagementBusAnswer := by
  unfold Obligations.RegistersPinsAndTheManagementBusAnswer
  intro s
  refine ⟨fun p reach => ?_, fun awake => ?_, fun run past row mem => ?_, fun run => ?_, fun x power asleep => ?_⟩
  · obtain ⟨whole, half, time, behind⟩ := registerReads reach
    obtain ⟨nothing, limits, fans⟩ := registerWrites_dropped reach
    have taken := registerWrites_taken reach
    exact ⟨whole, half, time, fun off aligned low high => ⟨behind off aligned low high, nothing off aligned low high⟩,
      fun v => (taken v).1, fun v _ => (taken v).2.1, fun v => (taken v).2.2.1, fun v => (taken v).2.2.2.1, limits, fans,
      fun v => (taken v).2.2.2.2, misaligned_refused reach⟩
  · refine ⟨zoneQuery_answers awake, fun x r frozen => goes_of_arises rfl awake ?_, peek_answers awake⟩
    show ({ s with mem := { s.mem with frozen := s.mem.frozen.drop 1 } } : State) = _
    rw [frozen]; rfl
  · simp only [List.mem_cons, List.not_mem_nil, or_false] at mem
    obtain rfl | rfl | rfl | rfl | rfl | rfl := mem <;> exact jtag_loads run past rfl
  · have alive := mgmtAlive_of_run run
    refine ⟨fun a small => goes_of_arises rfl alive ?_, goes_of_arises rfl alive rfl, fun old => ?_,
      miRequest_run run rfl rfl, fun off len fits => miRequest_run run rfl ?_, fun off len beyond => miRequest_run run rfl ?_,
      fun cns csi cntid nsid off len => ⟨fun bytes found => miRequest_run run rfl ?_, fun st found => miRequest_run run rfl ?_⟩,
      fun lid nsid off len => ⟨fun bytes u found => miRequest_run run rfl ?_, fun st found => miRequest_run run rfl ?_⟩,
      fun op => miRequest_run run rfl rfl⟩
    · show ({ s with svc := { s.svc with i3c := true, i3cAddr := some (a % 128) } } : State) = _
      rw [Nat.mod_eq_of_lt small]
    · refine goes_of_arises rfl (by rw [alive, old]; rfl) ?_
      rw [if_pos (awake_of_run run)]; rfl
    · rw [State.answerMi, if_neg (by omega)]; rfl
    · rw [State.answerMi, if_pos beyond]; rfl
    · rw [State.answerMi, found]; rfl
    · rw [State.answerMi, found]; rfl
    · rw [State.answerMi, found]; rfl
    · rw [State.answerMi, found]; rfl
  · refine ⟨fun old => goes_of_arises rfl ?_ ?_, fun armed off len op => ⟨miRequest_asleep power asleep armed rfl,
      miRequest_asleep power asleep armed rfl, miRequest_asleep power asleep armed rfl,
      fun _ _ _ _ => miRequest_asleep power asleep armed rfl, fun _ _ => miRequest_asleep power asleep armed rfl⟩⟩
    · rw [State.mgmtAlive, asleep, old]; exact Bool.and_eq_true_iff.mpr ⟨decide_eq_true power, rfl⟩
    · rw [State.awake, asleep]; rfl

end Sys2Proof.Proofs
end

section
/-! Settles O44: the owner operations. -/

namespace Sys2Proof.Proofs

open Sys2Proof Sys2Proof.Machine

section Owners

variable {s : State} {p c o lim : Nat}

/-- The state with an owner command written. -/
def State.ordering (s : State) (word : Word) : State := { s with bpm := { s.bpm with ownerCmd := word } }

theorem badOwner_low (low : o < 16) : State.badOwner o = true := by rw [State.badOwner, decide_eq_true low, Bool.true_or]

theorem badOwner_high (high : 16 ≤ o) (small : o < 4096) : State.badOwner o = false := by
  rw [State.badOwner, decide_eq_false (by omega), decide_eq_false (by omega), Bool.or_false]

/-- An owner command comes over port `p`, each field within its width. -/
structure OwnerFields (s : State) (p c o lim : Nat) : Prop where
  reach : s.reachable p = true
  comp : c < 1024
  owner : o < 4096
  limit : lim < 65536

/-- An owner command within its fields carries out its operation. -/
theorem owner_goes (P : State → Prop) (f : OwnerFields s p c o lim) {i : Instr} {name : String}
    {op : Nat} {t : Word → State} {st : Nat} (run : exec i s = ownerCommand name p op c o lim s)
    (does : ∀ word, (State.ordering s word).ownerOp op c o lim = (t word).ownerEnds st) (holds : ∀ word, P ((t word).ownerEnds st)) :
    Goes i s (fun t => t.bpm.ownerStatus = st ∧ t.bpm.ownerDone = true ∧ P t) := by
  refine goes_of_arises run (by rw [f.reach, decide_eq_true f.comp, decide_eq_true f.owner, decide_eq_true f.limit]; rfl) ?_
  rw [State.ownerWrite, ← State.ordering, does]
  exact ⟨rfl, rfl, holds _⟩

/-- The one buffer there is goes with its last holder, who may free it. -/
theorem reclaim_only {b : Nat × Option Buf} (alone : s.bpm.bufs = [b])
    (held : ∃ x, b.2 = some x ∧ finalOwner x = o ∧ x.holders.map (·.1) = [o]) : (s.reclaim o).bpm.bufs = [] := by
  obtain ⟨h, v⟩ := b
  obtain ⟨x, rfl, final, holders⟩ := held
  have one : ∀ y : Buf, look none [(h, some y)] h = some y := fun y => if_pos rfl
  have here : s.buf h = some x := by rw [State.buf, alone]; exact one x
  have put_one : ∀ (y : Buf) (v : Option Buf), put none [(h, some y)] h v = if v = none then [] else [(h, v)] := fun y v => by
    simp [put]
  have nobody : x.holders.filter (fun y => decide (y.1 ≠ o)) = [] := List.filter_eq_nil_iff.2 fun y mem => by
    have name : y.1 ∈ x.holders.map (·.1) := List.mem_map_of_mem mem
    rw [holders] at name
    simp [List.mem_singleton.1 name]
  obtain ⟨t, ht⟩ : ∃ t, t = s.setBuf h (some { x with freeing := true }) := ⟨_, rfl⟩
  have bufs_t : t.bpm.bufs = [(h, some { x with freeing := true })] := by
    rw [ht]
    show put none s.bpm.bufs h _ = _
    rw [alone, put_one]
    rfl
  obtain ⟨u, hu⟩ : ∃ u, u = t.setBuf h (some { x with freeing := true, holders := [] }) := ⟨_, rfl⟩
  have bufs_u : u.bpm.bufs = [(h, some { x with freeing := true, holders := [] })] := by
    rw [hu]
    show put none t.bpm.bufs h _ = _
    rw [bufs_t, put_one]
    rfl
  have frees : s.reclaim o = (u.freeBuf h).leakCheck o := by
    unfold State.reclaim
    rw [alone, List.foldl_cons, List.foldl_nil]
    dsimp only
    rw [here]
    dsimp only
    rw [if_pos final]
    unfold State.freeShare
    rw [here]
    dsimp only
    rw [if_neg (not_not_intro final), ← ht]
    unfold State.leaveBuf
    rw [show t.buf h = some { x with freeing := true } by rw [State.buf, bufs_t]; exact one _]
    dsimp only
    rw [nobody, hu]
    rfl
  rw [frees, (leakCheck_kept _ _).bufs]
  unfold State.freeBuf
  rw [show u.buf h = some { x with freeing := true, holders := [] } by rw [State.buf, bufs_u]; exact one _]
  refine (levels_kept _ _).bufs.trans ?_
  show ((u.setBuf h none).setPool _ _).bpm.bufs = []
  rw [(setPool_kept _ _ _).bufs]
  show put none u.bpm.bufs h none = []
  rw [bufs_u, put_one]
  rfl

theorem ownerInfo_comp (s : State) (o : Nat) : (s.ownerInfoOf o).toNat % 1024 = s.ownerComp o % 1024 := by
  have whole : ∀ a b l n m : Nat, b % 1024 = 0 → l % 1024 = 0 →
      (BitVec.ofNat 64 (a + b + l + n * 4096 + m * 4294967296)).toNat % 1024 = a % 1024 := fun a b l n m hb hl => by
    rw [BitVec.toNat_ofNat]
    omega
  refine whole _ _ _ _ _ (by split <;> rfl) ?_
  split
  · split <;> rfl
  · rfl

theorem exec_ownerQuery : exec (.ownerQuery p c o lim) s = ownerCommand "OWNER_QUERY" p 0 c o lim s :=
  (show _ = execOwnerQuery p c o lim s from rfl)

theorem exec_ownerRegister : exec (.ownerRegister p c o lim) s = ownerCommand "OWNER_REGISTER" p 1 c o lim s :=
  (show _ = execOwnerRegister p c o lim s from rfl)

theorem exec_ownerUnregister : exec (.ownerUnregister p c o lim) s = ownerCommand "OWNER_UNREGISTER" p 2 c o lim s :=
  (show _ = execOwnerUnregister p c o lim s from rfl)

theorem exec_ownerSetLimit : exec (.ownerSetLimit p c o lim) s = ownerCommand "OWNER_SET_LIMIT" p 3 c o lim s :=
  (show _ = execOwnerSetLimit p c o lim s from rfl)

theorem exec_ownerReclaim : exec (.ownerReclaim p c o lim) s = ownerCommand "OWNER_RECLAIM" p 4 c o lim s :=
  (show _ = execOwnerReclaim p c o lim s from rfl)

section Operations

variable (good : State.badOwner o = false)
include good

theorem ownerRegister_good (comp : c < 1024) (free : lim ≠ 1) : s.ownerRegister c o lim = match s.owner o with
    | some x => if x.comp = c then (s.setOwner o (some { x with segLimit := lim })).ownerEnds 0 else s.ownerEnds 1
    | none => (s.setOwner o (some { comp := c, segLimit := lim, leak := false })).ownerEnds 0 :=
  if_neg (by rw [good, decide_eq_false (by omega), decide_eq_false free]; decide)

theorem ownerRegister_new (comp : c < 1024) (free : lim ≠ 1) (unknown : s.owner o = none) :
    s.ownerRegister c o lim = (s.setOwner o (some { comp := c, segLimit := lim, leak := false })).ownerEnds 0 := by
  rw [ownerRegister_good good comp free, unknown]

theorem ownerRegister_known (comp : c < 1024) (free : lim ≠ 1) {x : Owner} (known : s.owner o = some x) :
    s.ownerRegister c o lim =
      if x.comp = c then (s.setOwner o (some { x with segLimit := lim })).ownerEnds 0 else s.ownerEnds 1 := by
  rw [ownerRegister_good good comp free, known]

theorem ownerLimits_good (free : lim ≠ 1) : s.ownerLimits o lim = match s.owner o with
    | some x => (s.setOwner o (some { x with segLimit := lim })).ownerEnds 0
    | none => s.ownerEnds 1 :=
  if_neg (by rw [good, decide_eq_false free]; decide)

theorem ownerLimits_known (free : lim ≠ 1) {x : Owner} (known : s.owner o = some x) :
    s.ownerLimits o lim = (s.setOwner o (some { x with segLimit := lim })).ownerEnds 0 := by
  rw [ownerLimits_good good free, known]

theorem ownerLimits_unknown (free : lim ≠ 1) (unknown : s.owner o = none) : s.ownerLimits o lim = s.ownerEnds 1 := by
  rw [ownerLimits_good good free, unknown]

theorem ownerUnregister_good : s.ownerUnregister o = if s.ownerNamed o then s.ownerEnds 1
    else if s.ownerHeld o ≠ 0 then s.ownerEnds 2 else (s.setOwner o none).ownerEnds 0 :=
  if_neg (by rw [good]; decide)

theorem ownerReclaim_good : s.ownerReclaim o = if s.ownerNamed o || ((s.owner o).isSome && s.reelRuns (s.ownerComp o)) then s.ownerEnds 1
    else (s.reclaim o).ownerEnds 0 :=
  if_neg (by rw [good]; decide)

end Operations

end Owners

/-- Settles O44, by the operation each command carries out. -/
theorem ownerOperationsAnswer : Obligations.OwnerOperationsAnswer := by
  unfold Obligations.OwnerOperationsAnswer
  intro s p c o lim reach comp small fits
  have f : OwnerFields s p c o lim := ⟨reach, comp, small, fits⟩
  refine ⟨?_, fun low => ?_, fun high free => ?_, fun high tables => ?_⟩
  · refine owner_goes _ f exec_ownerQuery (fun _ => if_neg (by omega)) fun word => ⟨⟨rfl, rfl, rfl, rfl, rfl⟩, rfl, ?_⟩
    show ((State.ordering s word).ownerInfoOf o).toNat % 1024 = _
    rw [ownerInfo_comp]
    show (match s.owner o with
      | some w => w.comp
      | none => 0) % 1024 = _
    cases s.owner o <;> rfl
  · have bad := badOwner_low low
    exact ⟨owner_goes _ f exec_ownerRegister (t := fun word => State.ordering s word) (fun _ => if_pos (by rw [bad, Bool.true_or, Bool.true_or])) fun _ => ⟨rfl, rfl, rfl, rfl, rfl⟩,
      owner_goes _ f exec_ownerUnregister (t := fun word => State.ordering s word) (fun _ => if_pos bad) fun _ => ⟨rfl, rfl, rfl, rfl, rfl⟩,
      owner_goes _ f exec_ownerSetLimit (t := fun word => State.ordering s word) (fun _ => if_pos (by rw [bad, Bool.true_or])) fun _ => ⟨rfl, rfl, rfl, rfl, rfl⟩,
      owner_goes _ f exec_ownerReclaim (t := fun word => State.ordering s word) (fun _ => if_pos bad) fun _ => ⟨rfl, rfl, rfl, rfl, rfl⟩⟩
  · have good := badOwner_high high small
    refine ⟨fun unknown => ?_, fun x known => ⟨fun mine => ?_, fun other => ?_, ?_⟩, fun unknown => ?_⟩
    · exact owner_goes _ f exec_ownerRegister (fun word => ownerRegister_new (s := State.ordering s word) good comp free unknown)
        fun word => ⟨owner_setOwner_same (State.ordering s word) o _, fun x ne => owner_setOwner_other (State.ordering s word) _ ne, rfl⟩
    · exact owner_goes _ f exec_ownerRegister (fun word => (ownerRegister_known (s := State.ordering s word) good comp free known).trans (if_pos mine))
        fun word => owner_setOwner_same (State.ordering s word) o _
    · exact owner_goes _ f exec_ownerRegister (fun word => (ownerRegister_known (s := State.ordering s word) good comp free known).trans (if_neg other))
        fun _ => ⟨rfl, rfl, rfl, rfl, rfl⟩
    · exact owner_goes _ f exec_ownerSetLimit (fun word => ownerLimits_known (s := State.ordering s word) good free known)
        fun word => ⟨owner_setOwner_same (State.ordering s word) o _, fun y ne => owner_setOwner_other (State.ordering s word) _ ne⟩
    · exact owner_goes _ f exec_ownerSetLimit (fun word => ownerLimits_unknown (s := State.ordering s word) good free unknown) fun _ => ⟨rfl, rfl, rfl, rfl, rfl⟩
  · have good := badOwner_high high small
    have unregisters := fun word => ownerUnregister_good (s := State.ordering s word) good
    have reclaims := fun word => ownerReclaim_good (s := State.ordering s word) good
    refine ⟨fun unnamed none_held => ?_, fun named => ⟨?_, ?_⟩, fun unnamed some_held => ?_, fun b unnamed idle alone held => ?_⟩
    · refine owner_goes _ f exec_ownerUnregister (fun word => (unregisters word).trans ((if_neg (ne_true_of_eq_false unnamed)).trans (if_neg (not_not_intro none_held))))
        fun word => ⟨?_, fun x ne => owner_setOwner_other (State.ordering s word) _ ne⟩
      show (if o < 16 then _ else look none (put none s.bpm.owners o none) o) = none
      rw [if_neg (by omega), look_put _ _ _ _ tables]
    · exact owner_goes _ f exec_ownerUnregister (fun word => (unregisters word).trans (if_pos named)) fun _ => ⟨rfl, rfl, rfl, rfl, rfl⟩
    · exact owner_goes _ f exec_ownerReclaim (fun word => (reclaims word).trans (if_pos (Bool.or_eq_true_iff.mpr (.inl named)))) fun _ => ⟨rfl, rfl, rfl, rfl, rfl⟩
    · exact owner_goes _ f exec_ownerUnregister (fun word => (unregisters word).trans ((if_neg (ne_true_of_eq_false unnamed)).trans (if_pos some_held)))
        fun _ => ⟨rfl, rfl, rfl, rfl, rfl⟩
    · refine owner_goes _ f exec_ownerReclaim (fun word => (reclaims word).trans (if_neg ?_)) fun word => reclaim_only (s := State.ordering s word) alone held
      rw [show (State.ordering s word).ownerNamed o = false from unnamed,
        show (State.ordering s word).reelRuns ((State.ordering s word).ownerComp o) = false from idle, Bool.and_false]
      decide

end Sys2Proof.Proofs
end

section
/-! SUPPORT. Admin commands: what the first checks let through, and what a completion leaves of the queues. -/

namespace Sys2Proof.Proofs

open Sys2Proof Sys2Proof.Machine

section Admin

variable {s : State} {h : HostCmd} {i : Instr} {name : String} {row : State.AdminRow} {f : State → State}

/-- An admin command that is ready passes the gate of every row that its controller may use. -/
theorem adminGate_none (r : AdminReady s h) (may : h.comp = 0 ∨ row.compartment = true) : (s.fetch h).adminGate h row = none := by
  have unparked : (s.fetch h).parked = false := r.unparked
  have sanitize : (s.fetch h).sec.sanActive = false := r.sanitize
  have thawed : (s.fetch h).frozen h.comp = false := r.thawed
  obtain ⟨fused, rsvd⟩ := r.fields
  have allowed : ¬ (h.comp ≠ 0 ∧ (!row.compartment) = true) := by
    rintro ⟨other, shut⟩
    obtain steward | may := may
    · exact other steward
    · rw [may] at shut; exact absurd shut (by decide)
  rw [State.adminGate, if_neg allowed, sanitize, unparked, fused, rsvd, thawed]
  simp

theorem admin_run (r : AdminReady s h) (may : h.comp = 0 ∨ row.compartment = true) :
    admin name h row s f = .next (f (s.fetch h)) := by
  rw [admin, onAdmin, r.fetched, decide_eq_true r.queue, State.gated, adminGate_none r may]
  rfl

theorem admin_goes (r : AdminReady s h) (may : h.comp = 0 ∨ row.compartment = true) {P : State → Prop}
    (run : exec i s = admin name h row s f) (holds : P (f (s.fetch h))) : Goes i s P := ⟨_, run.trans (admin_run r may), holds⟩

/-- A command that a row's own check completes with a status has no other effect. -/
theorem admin_refuses (r : AdminReady s h) (may : h.comp = 0 ∨ row.compartment = true) {st : Status}
    (run : exec i s = admin name h row s f) (refuses : f (s.fetch h) = (s.fetch h).fail h st) : OnlyCompletes i s h st :=
  onlyCompletes_of_complete (by rw [run, admin_run r may, refuses]; rfl)

/-- A command whose work ends in its completion serves it. -/
theorem admin_serves (r : AdminReady s h) (may : h.comp = 0 ∨ row.compartment = true) {t : State} {dw : BitVec 32} {P : State → Prop}
    (run : exec i s = admin name h row s f) (does : f (s.fetch h) = t.done h dw) (holds : P (t.done h dw)) : Serves i s h P :=
  ⟨_, (run.trans (admin_run r may)).trans (by rw [does]; rfl), completed_complete _ _ _ _ _, holds⟩

end Admin

/-- One queue after a completion was put on its controller's queue: only a completion queue's tail and phase move. -/
def SameQueue (q r : Queue) : Prop := r = { q with tail := r.tail, phase := r.phase } ∧ (q.sq = true → r = q)

theorem interrupt_queues (s : State) (p n : Nat) : (s.interrupt p n).hif.queues = s.hif.queues := by
  rw [State.interrupt]
  split <;> rfl

theorem startClocks_queues (s : State) (b : BitVec 256) : (s.startClocks b).hif.queues = s.hif.queues := rfl

/-- A completion with success moves nothing of a queue but where completions are put. -/
theorem done_queues (s : State) (h : HostCmd) (dw : BitVec 32) :
    ∃ g, (∀ q, SameQueue q (g q)) ∧ (s.done h dw).hif.queues = s.hif.queues.map g := by
  refine ⟨fun q => if (decide (q.ctl = ctlOf h) && decide (q.qid = s.cqOf h) && !q.sq) = true then
    (if q.tail + 1 < q.size then { q with tail := q.tail + 1 } else { q with tail := 0, phase := !q.phase }) else q, fun q => ?_, ?_⟩
  · dsimp only
    split
    · next mine =>
      have no_sq : q.sq = false := by simpa using (Bool.and_eq_true_iff.mp mine).2
      refine ⟨?_, fun sq => absurd sq (by rw [no_sq]; decide)⟩
      split <;> rfl
    · exact ⟨rfl, fun _ => rfl⟩
  · unfold State.done State.complete
    rw [if_pos rfl]
    split
    · exact (interrupt_queues _ _ _).trans rfl
    · rfl

section Hearing

/-- What an event may change of the host's side: the rings, the outputs and the pending interrupts. -/
def Hears (a b : HostLink) : Prop :=
  b = { a with raised := b.raised, out := b.out, ring := b.ring, lost := b.lost, compRings := b.compRings, compLost := b.compLost
               msixPending := b.msixPending }

theorem Hears.refl (a : HostLink) : Hears a a := rfl

theorem Hears.trans {a b c : HostLink} (x : Hears a b) (y : Hears b c) : Hears a c := by
  rw [Hears] at *
  rw [y, x]

variable {s : State}

theorem hears_interrupt (s : State) (p n : Nat) : Hears s.hif (s.interrupt p n).hif := by
  rw [State.interrupt]
  split <;> rfl

theorem hears_compIrq (s : State) (c bit : Nat) : Hears s.hif (s.compIrq c bit).hif := by
  unfold State.compIrq
  dsimp only
  split
  · rfl
  · exact hears_interrupt (s.setComp c _) _ _

theorem hears_toStewardRing (s : State) (e : EvRec) : Hears s.hif (s.toStewardRing e).hif := by
  unfold State.toStewardRing
  split
  · rfl
  · next r _ =>
    cases State.ringPush r e with
    | none => rfl
    | some pushed =>
      obtain ⟨r', first⟩ := pushed
      have taken : Hears s.hif { s.hif with ring := some r' } := rfl
      dsimp only
      split
      · exact taken.trans (hears_interrupt { s with hif := { s.hif with ring := some r' } } _ _)
      · exact taken

theorem hears_toCompRing (s : State) (e : EvRec) : Hears s.hif (s.toCompRing e).hif := by
  unfold State.toCompRing
  split
  · rfl
  · split
    · rfl
    · next r _ =>
      have asks : ∀ (g : HostLink) (bit : Nat), Hears s.hif g → Hears s.hif (({ s with hif := g } : State).compIrq e.comp bit).hif :=
        fun g bit x => x.trans (hears_compIrq { s with hif := g } _ _)
      cases State.ringPush r e with
      | none => exact asks _ 3 rfl
      | some pushed => exact asks _ 2 rfl

theorem hears_event (s : State) (code level source c : Nat) (fields : List Int) : Hears s.hif (s.event code level source c fields).hif := by
  have rings : ∀ (t : State) (e : EvRec), Hears s.hif t.hif → Hears s.hif (((t.toStewardRing e).toCompRing e).toReels e).hif :=
    fun t e x => x.trans ((hears_toStewardRing t e).trans (hears_toCompRing (t.toStewardRing e) e))
  unfold State.event State.raise
  dsimp only
  split <;> split <;> exact rings _ _ rfl

end Hearing

section Interrupts

/-- Compartment `v` with interrupt bits more. -/
def Interrupted (v w : Comp) : Prop := w = { v with intStat := w.intStat } ∧ ∀ i, v.intStat.getLsbD i = true → w.intStat.getLsbD i = true

theorem Interrupted.refl (v : Comp) : Interrupted v v := ⟨rfl, fun _ h => h⟩

theorem Interrupted.trans {u v w : Comp} (x : Interrupted u v) (y : Interrupted v w) : Interrupted u w :=
  ⟨by obtain ⟨hx, -⟩ := x; obtain ⟨hy, -⟩ := y; rw [hy, hx], fun i h => y.2 i (x.2 i h)⟩

theorem interrupt_cmp (s : State) (p n : Nat) : (s.interrupt p n).cmp = s.cmp := by
  rw [State.interrupt]
  split <;> rfl

/-- Interrupt `bit` of compartment `c`. -/
def withIrq (v : Comp) (bit : Nat) : Comp := { v with intStat := v.intStat ||| BitVec.ofNat 4 (2 ^ bit) }

theorem comp_compIrq_same (s : State) (c : Nat) {bit : Nat} (low : bit < 4) : (s.compIrq c bit).comp c = withIrq (s.comp c) bit := by
  have asked : (withIrq (s.comp c) bit).intStat ≠ 0 := by
    intro zero
    have set : (withIrq (s.comp c) bit).intStat.getLsbD bit = (0#4).getLsbD bit := congrArg (fun b : BitVec 4 => b.getLsbD bit) zero
    have mine : (BitVec.ofNat 4 (2 ^ bit)).getLsbD bit = true := by
      have all : ∀ i < 4, (BitVec.ofNat 4 (2 ^ i)).getLsbD i = true := by decide
      exact all bit low
    rw [withIrq, BitVec.getLsbD_or, mine, Bool.or_true, BitVec.getLsbD_zero] at set
    exact absurd set (by decide)
  have used : withIrq (s.comp c) bit ≠ Comp.free := fun e => asked (by rw [e]; rfl)
  have here : ∀ t : State, t.cmp = (s.setComp c (withIrq (s.comp c) bit)).cmp → t.comp c = withIrq (s.comp c) bit := fun t e => by
    rw [State.comp, e]
    exact look_put_of_ne _ _ _ _ used
  unfold State.compIrq
  dsimp only
  split
  · exact here _ rfl
  · exact here _ (interrupt_cmp _ _ _)

theorem comp_compIrq_other (s : State) {c x : Nat} (ne : x ≠ c) (bit : Nat) : (s.compIrq c bit).comp x = s.comp x := by
  have there : ∀ t : State, t.cmp = (s.setComp c (withIrq (s.comp c) bit)).cmp → t.comp x = s.comp x := fun t e => by
    rw [State.comp, e]
    exact look_put_other _ _ _ _ _ ne
  unfold State.compIrq
  dsimp only
  split
  · exact there _ rfl
  · exact there _ (interrupt_cmp _ _ _)

theorem withIrq_interrupted (v : Comp) (bit : Nat) : Interrupted v (withIrq v bit) :=
  ⟨rfl, fun i h => by rw [withIrq, BitVec.getLsbD_or, h, Bool.true_or]⟩

theorem comp_compIrq (s : State) (c : Nat) {bit : Nat} (low : bit < 4) (x : Nat) : Interrupted (s.comp x) ((s.compIrq c bit).comp x) := by
  by_cases same : x = c
  · subst same
    rw [comp_compIrq_same s x low]
    exact withIrq_interrupted _ _
  · rw [comp_compIrq_other s same]
    exact .refl _

theorem toStewardRing_cmp (s : State) (e : EvRec) : (s.toStewardRing e).cmp = s.cmp := by
  unfold State.toStewardRing
  split
  · rfl
  · split
    · rfl
    · dsimp only
      split
      · exact interrupt_cmp _ _ _
      · rfl

theorem comp_toCompRing (s : State) (e : EvRec) (x : Nat) : Interrupted (s.comp x) ((s.toCompRing e).comp x) := by
  unfold State.toCompRing
  split
  · exact .refl _
  · split
    · exact .refl _
    · next r _ =>
      cases State.ringPush r e with
      | none => exact comp_compIrq _ _ (by decide) x
      | some pushed => exact comp_compIrq _ _ (by decide) x

/-- An event may interrupt compartments, and no more. -/
theorem comp_event (s : State) (code level source c : Nat) (fields : List Int) (x : Nat) :
    Interrupted (s.comp x) ((s.event code level source c fields).comp x) := by
  have rings : ∀ (t : State) (e : EvRec), t.cmp = s.cmp → Interrupted (s.comp x) ((((t.toStewardRing e).toCompRing e).toReels e).comp x) :=
    fun t e same => by
      have here : (t.toStewardRing e).comp x = s.comp x := by rw [State.comp, toStewardRing_cmp, same]; rfl
      have there := comp_toCompRing (t.toStewardRing e) e x
      rw [here] at there
      exact there
  unfold State.event State.raise
  dsimp only
  split <;> split <;> exact rings _ _ rfl

/-- An event of no compartment interrupts none. -/
theorem event_cmp (s : State) (code level source : Nat) (fields : List Int) : (s.event code level source 0 fields).cmp = s.cmp := by
  have rings : ∀ (t : State) (e : EvRec), e.comp = 0 → (((t.toStewardRing e).toCompRing e).toReels e).cmp = t.cmp := fun t e none => by
    have same : (t.toStewardRing e).toCompRing e = t.toStewardRing e := if_pos none
    rw [same]
    exact toStewardRing_cmp _ _
  unfold State.event State.raise
  dsimp only
  split <;> split <;> exact (rings _ _ rfl).trans rfl

end Interrupts

end Sys2Proof.Proofs
end

section
/-! Settles O40: queues and doorbells. -/

namespace Sys2Proof.Proofs

open Sys2Proof Sys2Proof.Machine

section Names

/-- A queue that may have moved, under its own name. -/
def SameName (g : Queue → Queue) : Prop :=
  ∀ q, (g q).ctl = q.ctl ∧ (g q).qid = q.qid ∧ (g q).sq = q.sq ∧ (g q).cq = q.cq

variable {s t : State} {g : Queue → Queue} {h : HostCmd}

theorem queue_map (names : SameName g) (e : t.hif.queues = s.hif.queues.map g) (ctl qid : Nat) (sq : Bool) :
    t.queue ctl qid sq = (s.queue ctl qid sq).map g := by
  have same : (fun q : Queue => decide (q.ctl = ctl) && decide (q.qid = qid) && (q.sq == sq)) ∘ g =
      fun q : Queue => decide (q.ctl = ctl) && decide (q.qid = qid) && (q.sq == sq) := by
    funext q
    obtain ⟨ctl', qid', sq', -⟩ := names q
    show (decide ((g q).ctl = ctl) && decide ((g q).qid = qid) && ((g q).sq == sq)) = _
    rw [ctl', qid', sq']
  rw [State.queue, e, List.find?_map, same]
  rfl

theorem queueCount_map (names : SameName g) (e : t.hif.queues = s.hif.queues.map g) (ctl : Option Nat) (sq : Bool) :
    t.queueCount ctl sq = s.queueCount ctl sq := by
  unfold State.queueCount
  rw [e, List.filter_map, List.length_map]
  refine congrArg List.length (List.filter_congr fun q _ => ?_)
  obtain ⟨ctl', qid', sq', -⟩ := names q
  show ((g q).sq == sq && decide ((g q).qid ≠ 0) && _) = _
  rw [sq', qid']
  cases ctl with
  | none => rfl
  | some c => rw [← ctl']

/-- What a fetch does to a queue: the head of the submission queue moves. -/
def fetched (h : HostCmd) (q : Queue) : Queue :=
  if (decide (q.ctl = ctlOf h) && decide (q.qid = h.qid) && q.sq) = true then { q with head := if q.head + 1 < q.size then q.head + 1 else 0 } else q

theorem fetched_names (h : HostCmd) : SameName (fetched h) := fun q => by
  rw [fetched]
  split <;> exact ⟨rfl, rfl, rfl, rfl⟩

theorem fetch_queues (s : State) (h : HostCmd) : (s.fetch h).hif.queues = s.hif.queues.map (fetched h) := rfl

theorem queue_fetch (s : State) (h : HostCmd) (ctl qid : Nat) (sq : Bool) :
    (s.fetch h).queue ctl qid sq = (s.queue ctl qid sq).map (fetched h) := queue_map (fetched_names h) (fetch_queues s h) ctl qid sq

theorem queue_fetch_none {ctl qid : Nat} {sq : Bool} (absent : s.queue ctl qid sq = none) : (s.fetch h).queue ctl qid sq = none := by
  rw [queue_fetch, absent]; rfl

theorem queueCount_fetch (s : State) (h : HostCmd) (ctl : Option Nat) (sq : Bool) : (s.fetch h).queueCount ctl sq = s.queueCount ctl sq :=
  queueCount_map (fetched_names h) (fetch_queues s h) ctl sq

theorem queue_none_iff (s : State) (ctl qid : Nat) (sq : Bool) :
    s.queue ctl qid sq = none ↔ s.hif.queues.any (fun q => decide (q.ctl = ctl) && decide (q.qid = qid) && (q.sq == sq)) = false := by
  rw [State.queue, List.find?_eq_none, List.any_eq_false]

end Names

section Create

variable {s : State} {h : HostCmd} {q : CreateQ} {sq : Bool}

/-- The parts of a create that its own fields give. -/
structure CreateFields (q : CreateQ) : Prop where
  low : 1 ≤ q.qid
  high : q.qid ≤ 64
  least : 2 ≤ q.size
  most : q.size ≤ 4096
  contiguous : q.pc = true
  aligned : q.base % 4096 = 0
  noPasid : q.pasid = none

/-- What is left to refuse a create once its fields, its name and the limits are good: the vector or the completion queue. -/
theorem createRefusal_fields (steward : h.comp = 0) (f : CreateFields q) (absent : s.queue (ctlOf h) q.qid sq = none)
    (mine : s.queueCount (some (ctlOf h)) sq < 64) (all : s.queueCount none sq < 8192) :
    s.createRefusal h q sq = if !sq && decide (7 < q.vector) then some .invalidField
      else if sq && (decide (q.cqid = 0) || (s.queue (ctlOf h) q.cqid false).isNone) then some .completionQueueInvalid else none := by
  have pasid : s.queuePasid h q.pasid = some none := by rw [f.noPasid]; exact if_pos steward
  have named : ¬ (q.qid = 0 ∨ 64 < q.qid ∨ (s.queue (ctlOf h) q.qid sq).isSome = true ∨
      (if h.comp = 0 then 64 else (s.comp h.comp).res.queuePairs) ≤ s.queueCount (some (ctlOf h)) sq ∨ 8192 ≤ s.queueCount none sq) := by
    rw [absent, if_pos steward]
    have low := f.low
    have high := f.high
    simp only [Option.isSome_none, Bool.false_eq_true, false_or]
    omega
  have sized : ¬ (q.size < 2 ∨ 4096 < q.size) := by
    have least := f.least
    have most := f.most
    omega
  have placed : ¬ ((!q.pc) = true ∨ q.base % 4096 ≠ 0) := by rw [f.contiguous, f.aligned]; decide
  unfold State.createRefusal
  dsimp only
  rw [if_neg named, if_neg sized, if_neg placed, pasid, if_neg (by simp)]

/-- The entry that a create adds. -/
def newQueue (s : State) (h : HostCmd) (q : CreateQ) (sq : Bool) : Queue :=
  { ctl := ctlOf h, qid := q.qid, sq := sq, size := q.size, head := 0, tail := 0, pasid := (s.queuePasid h q.pasid).getD none
    cq := if sq then q.cqid else 0, vector := if sq then 0 else q.vector, ien := !sq && q.ien, base := q.base, phase := true }

theorem createQueue_adds (passes : s.createRefusal h q sq = none) :
    s.createQueue h q sq = ({ s with hif := { s.hif with queues := s.hif.queues ++ [newQueue s h q sq] } } : State).done h 0 := by
  rw [State.createQueue, passes]
  rfl

/-- A queue that was added is there after the completion. -/
theorem hasQueue_done (s : State) (h : HostCmd) (q : CreateQ) (sq : Bool) :
    HasQueue (({ s with hif := { s.hif with queues := s.hif.queues ++ [newQueue s h q sq] } } : State).done h 0) (ctlOf h) sq q := by
  obtain ⟨g, same, queues⟩ := done_queues ({ s with hif := { s.hif with queues := s.hif.queues ++ [newQueue s h q sq] } } : State) h 0
  obtain ⟨moved, stays⟩ := same (newQueue s h q sq)
  refine ⟨g (newQueue s h q sq), ?_, ?_⟩
  · rw [queues]
    exact List.mem_map_of_mem (List.mem_append_right _ List.mem_cons_self)
  · refine ⟨by rw [moved]; rfl, by rw [moved]; rfl, by rw [moved]; rfl, by rw [moved]; rfl, by rw [moved]; rfl, by rw [moved]; rfl,
      fun is_sq => ?_, fun is_cq => ?_⟩
    · rw [stays is_sq]
      subst is_sq
      exact ⟨rfl, rfl⟩
    · subst is_cq
      exact ⟨by rw [moved]; rfl, by rw [moved]; rfl⟩

theorem createQueue_serves {i : Instr} {name : String} (r : AdminReady s h) (steward : h.comp = 0)
    (run : exec i s = admin name h queueRow s (fun t => t.createQueue h q sq)) (passes : (s.fetch h).createRefusal h q sq = none) :
    Serves i s h (fun t => HasQueue t (ctlOf h) sq q) :=
  admin_serves r (.inl steward) run (createQueue_adds passes) (hasQueue_done _ _ _ _)

end Create

section Delete

variable {s : State} {h : HostCmd} {qid : Nat} {sq : Bool} {i : Instr} {name : String}

theorem deleteQueue_refuses (r : AdminReady s h) (run : exec i s = admin name h queueRow s (fun t => t.deleteQueue h qid sq))
    (absent : s.queue (ctlOf h) qid sq = none) : OnlyCompletes i s h .invalidQueue := by
  refine admin_refuses r (.inr rfl) run ?_
  have none_named := (queue_none_iff _ _ _ _).mp (queue_fetch_none (h := h) absent)
  unfold State.deleteQueue
  exact if_pos (.inr (by rw [none_named]; rfl))

/-- A completion queue that no submission queue completes to, or a submission queue, goes. -/
theorem deleteQueue_serves (r : AdminReady s h) (run : exec i s = admin name h queueRow s (fun t => t.deleteQueue h qid sq))
    (io : qid ≠ 0) (there : (s.queue (ctlOf h) qid sq).isSome = true)
    (unused : sq = false → ∀ e ∈ s.hif.queues, e.ctl = ctlOf h → e.sq = true → e.qid ≠ 0 → e.cq ≠ qid) :
    Serves i s h (fun t => ∀ e ∈ t.hif.queues, ¬ (e.ctl = ctlOf h ∧ e.qid = qid ∧ e.sq = sq)) := by
  have named : (s.fetch h).hif.queues.any (fun q => decide (q.ctl = ctlOf h) && decide (q.qid = qid) && (q.sq == sq)) = true := by
    refine Bool.of_not_eq_false fun no => ?_
    have gone := (queue_none_iff _ _ _ _).mpr no
    rw [queue_fetch] at gone
    rw [Option.map_eq_none_iff.mp gone] at there
    exact absurd there (by decide)
  have free : (!sq && (s.fetch h).hif.queues.any (fun q => decide (q.ctl = ctlOf h) && q.sq && decide (q.qid ≠ 0) && decide (q.cq = qid))) =
      false := by
    cases sq with
    | true => rfl
    | false =>
      rw [Bool.not_false, Bool.true_and, List.any_eq_false]
      intro e mem
      rw [fetch_queues] at mem
      obtain ⟨old, old_mem, rfl⟩ := List.mem_map.mp mem
      obtain ⟨ctl', qid', sq', cq'⟩ := fetched_names h old
      rw [ctl', qid', sq', cq']
      intro all
      simp only [Bool.and_eq_true, decide_eq_true_eq] at all
      obtain ⟨⟨⟨ctl, is_sq⟩, io'⟩, cq⟩ := all
      exact unused rfl old old_mem ctl is_sq io' cq
  have deletes : (s.fetch h).deleteQueue h qid sq = ({ s.fetch h with hif := { (s.fetch h).hif with
      queues := (s.fetch h).hif.queues.filter (fun q => !(decide (q.ctl = ctlOf h) && decide (q.qid = qid) && (q.sq == sq))) } } : State).done h 0 := by
    unfold State.deleteQueue
    dsimp only
    rw [if_neg (by rw [named]; simp [io]), free, if_neg Bool.false_ne_true]
  refine admin_serves r (.inr rfl) run deletes fun e mem => ?_
  obtain ⟨g, same, queues⟩ := done_queues ({ s.fetch h with hif := { (s.fetch h).hif with
      queues := (s.fetch h).hif.queues.filter (fun q => !(decide (q.ctl = ctlOf h) && decide (q.qid = qid) && (q.sq == sq))) } } : State) h 0
  rw [queues] at mem
  obtain ⟨old, old_mem, rfl⟩ := List.mem_map.mp mem
  obtain ⟨-, kept⟩ := List.mem_filter.mp old_mem
  rintro ⟨ctl, name, kind⟩
  obtain ⟨moved, -⟩ := same old
  rw [moved] at ctl name kind
  have mine : (decide (old.ctl = ctlOf h) && decide (old.qid = qid) && (old.sq == sq)) = true := by
    rw [show old.ctl = ctlOf h from ctl, show old.qid = qid from name, show old.sq = sq from kind]
    simp
  rw [mine] at kept
  exact absurd kept (by decide)

end Delete

section Doorbell

variable {s : State} {p c qid v : Nat} {sq : Bool} {q : Queue}

/-- Queue `q` of the doorbell that was written. -/
def rung (v : Nat) (sq : Bool) (q : Queue) : Queue := if sq then { q with tail := v } else { q with head := v }

theorem rung_names (v : Nat) (sq : Bool) : ∀ q, (rung v sq q).ctl = q.ctl ∧ (rung v sq q).qid = q.qid ∧ (rung v sq q).sq = q.sq := fun q => by
  rw [rung]
  split <;> exact ⟨rfl, rfl, rfl⟩

/-- The state after a doorbell that fits its queue. -/
def rings (s : State) (ctl qid v : Nat) (sq : Bool) : State :=
  s.activity.modQueues (fun q => decide (q.ctl = ctl) && decide (q.qid = qid) && (q.sq == sq)) (rung v sq)

theorem find?_modified {ps : Queue → Bool} {f : Queue → Queue} (keeps : ∀ q, ps (f q) = ps q) :
    ∀ l : List Queue, (l.map (fun q => if ps q then f q else q)).find? ps = (l.find? ps).map f
  | [] => rfl
  | q :: l => by
    rw [List.map_cons]
    by_cases mine : ps q = true
    · rw [if_pos mine, List.find?_cons_of_pos (by rw [keeps]; exact mine), List.find?_cons_of_pos mine]
      rfl
    · rw [if_neg mine, List.find?_cons_of_neg mine, List.find?_cons_of_neg mine]
      exact find?_modified keeps l

theorem queue_rings (found : s.queue ctl qid sq = some q) : (rings s ctl qid v sq).queue ctl qid sq = some (rung v sq q) := by
  have keeps : ∀ q : Queue, (decide ((rung v sq q).ctl = ctl) && decide ((rung v sq q).qid = qid) && ((rung v sq q).sq == sq)) =
      (decide (q.ctl = ctl) && decide (q.qid = qid) && (q.sq == sq)) := fun q => by
    obtain ⟨ctl', qid', sq'⟩ := rung_names v sq q
    rw [ctl', qid', sq']
  refine (find?_modified keeps s.hif.queues).trans ?_
  rw [show s.hif.queues.find? _ = some q from found]
  rfl

theorem doorbell_found (found : s.queue (if c = 0 then p else 1 + c) qid sq = some q) : s.doorbell p c qid v sq =
    if c = 0 then (if !(s.port p).en then s else if decide (v < q.size) then rings s (if c = 0 then p else 1 + c) qid v sq else s.activity)
    else if !s.windowOpen p c then s
    else if (s.comp c).fetchStopped || !decide (v < q.size) then s.activity.ignoreDoorbell c qid v
    else rings s (if c = 0 then p else 1 + c) qid v sq := by
  unfold State.doorbell
  dsimp only
  rw [found]
  rfl

/-- A doorbell within the size of a queue that is served moves its tail or head. -/
theorem doorbell_rings (found : s.queue (if c = 0 then p else 1 + c) qid sq = some q) (fits : v < q.size)
    (steward : c = 0 → (s.port p).en = true) (window : c ≠ 0 → s.windowOpen p c = true ∧ (s.comp c).fetchStopped = false) :
    s.doorbell p c qid v sq = rings s (if c = 0 then p else 1 + c) qid v sq := by
  rw [doorbell_found found, decide_eq_true fits]
  by_cases zero : c = 0
  · rw [if_pos zero, steward zero]
    rfl
  · obtain ⟨opened, runs⟩ := window zero
    rw [if_neg zero, opened, runs]
    rfl

theorem doorbell_ignored (found : s.queue (if c = 0 then p else 1 + c) qid sq = some q) (beyond : q.size ≤ v) :
    (c = 0 → (s.port p).en = true → s.doorbell p c qid v sq = s.activity) ∧
    (c ≠ 0 → s.windowOpen p c = true → s.doorbell p c qid v sq = s.activity.ignoreDoorbell c qid v) := by
  rw [doorbell_found found, decide_eq_false (by omega)]
  refine ⟨fun zero on => ?_, fun other opened => ?_⟩
  · rw [if_pos zero, on]
    rfl
  · rw [if_neg other, opened, Bool.not_false, Bool.or_true]
    rfl

/-- R355: a compartment hears of a doorbell that is ignored. -/
theorem ignoreDoorbell_tells (s : State) (c qid v : Nat) :
    (s.ignoreDoorbell c qid v).hif.queues = s.hif.queues ∧ ((s.ignoreDoorbell c qid v).comp c).intStat.getLsbD 1 = true ∧
    ∃ e, (s.ignoreDoorbell c qid v).hif.raised.head? = some e ∧ e.code = 0x0902 ∧ e.payload = .fields [(qid : Int), (v : Int)] := by
  obtain ⟨t, ht⟩ : ∃ t, t = s.compIrq c 1 := ⟨_, rfl⟩
  have asked : (t.comp c).intStat.getLsbD 1 = true := by
    rw [ht, comp_compIrq_same s c (by decide), withIrq, BitVec.getLsbD_or, show (BitVec.ofNat 4 (2 ^ 1)).getLsbD 1 = true by decide, Bool.or_true]
  rw [State.ignoreDoorbell, ← ht]
  have queues : t.hif.queues = s.hif.queues := by
    rw [ht]
    have host := hears_compIrq s c 1
    rw [Hears] at host
    rw [host]
  refine ⟨?_, (comp_event t _ _ _ _ _ c).2 1 asked, _, congrArg List.head? (raised_event t _ _ _ _ _), rfl, rfl⟩
  have host := hears_event t 0x0902 2 srcHost c [(qid : Int), (v : Int)]
  rw [Hears] at host
  rw [host]
  exact queues

end Doorbell

/-- Settles O40: a create adds one queue, a delete leaves all others, and a doorbell moves one end. -/
theorem queuesAndDoorbells : Obligations.QueuesAndDoorbells := by
  unfold Obligations.QueuesAndDoorbells
  intro s
  refine ⟨fun h q r steward low high least most pc base pasid => ?_, fun h qid r io => ⟨fun sq there unused => ?_, fun absent => ?_, fun absent => ?_⟩,
    fun p c qid v q reach small => ⟨fun sq found fits on window => ?_, fun sq found beyond zero on => ?_, fun sq found beyond other opened => ?_⟩⟩
  · have f : CreateFields q := ⟨low, high, least, most, pc, base, pasid⟩
    have left : ∀ sq, s.queue (ctlOf h) q.qid sq = none → s.queueCount (some (ctlOf h)) sq < 64 → s.queueCount none sq < 8192 →
        (s.fetch h).createRefusal h q sq = _ := fun sq absent mine all =>
      createRefusal_fields steward f (queue_fetch_none absent) (by rw [queueCount_fetch]; exact mine) (by rw [queueCount_fetch]; exact all)
    refine ⟨fun absent mine all vector => ?_, fun absent mine all cq there => ?_, fun absent mine all gone => ?_⟩
    · exact createQueue_serves r steward rfl ((left false absent mine all).trans (by rw [decide_eq_false (by omega)]; rfl))
    · refine createQueue_serves r steward rfl ((left true absent mine all).trans ?_)
      obtain ⟨x, found⟩ := Option.isSome_iff_exists.mp there
      rw [decide_eq_false cq, queue_fetch, found]
      rfl
    · refine admin_refuses r (.inl steward) rfl ?_
      have refusal := left true absent mine all
      rw [queue_fetch_none gone, Option.isNone_none, Bool.or_true] at refusal
      show (s.fetch h).createQueue h q true = _
      rw [State.createQueue, refusal]
      rfl
  · cases sq with
    | true => exact deleteQueue_serves r rfl io there unused
    | false => exact deleteQueue_serves r rfl io there unused
  · exact deleteQueue_refuses r rfl absent
  · exact deleteQueue_refuses r rfl absent
  · have may : (s.reachable p && decide (qid ≤ 64)) = true := by rw [reach, decide_eq_true small]; rfl
    have does := doorbell_rings found fits on window
    have ends : (∃ e, (s.doorbell p c qid v sq).queue (if c = 0 then p else 1 + c) qid sq = some e ∧
        e = { q with tail := if sq then v else q.tail, head := if sq then q.head else v }) ∧
        s.doorbell p c qid v sq = { s with hif := { s.hif with queues := (s.doorbell p c qid v sq).hif.queues }, pwr := s.activity.pwr } := by
      rw [does]
      refine ⟨⟨_, queue_rings found, ?_⟩, rfl⟩
      cases sq <;> rfl
    cases sq with
    | true => exact goes_of_arises rfl may ends
    | false => exact goes_of_arises rfl may ends
  · have may : (s.reachable p && decide (qid ≤ 64)) = true := by rw [reach, decide_eq_true small]; rfl
    have ends := (doorbell_ignored found beyond).1 zero on
    cases sq with
    | true => exact goes_of_arises rfl may ends
    | false => exact goes_of_arises rfl may ends
  · have may : (s.reachable p && decide (qid ≤ 64)) = true := by rw [reach, decide_eq_true small]; rfl
    have ends : (s.doorbell p c qid v sq).hif.queues = s.hif.queues ∧ ((s.doorbell p c qid v sq).comp c).intStat.getLsbD 1 = true ∧
        ∃ e, (s.doorbell p c qid v sq).hif.raised.head? = some e ∧ e.code = 0x0902 ∧ e.payload = .fields [(qid : Int), (v : Int)] := by
      rw [(doorbell_ignored found beyond).2 other opened]
      exact ignoreDoorbell_tells s.activity c qid v
    cases sq with
    | true => exact goes_of_arises rfl may ends
    | false => exact goes_of_arises rfl may ends

end Sys2Proof.Proofs
end

section
/-! SUPPORT. Completions and the ports: features, requests and events of a controller. -/

namespace Sys2Proof.Proofs

open Sys2Proof Sys2Proof.Machine

/-- A completion with success changes the queues, the outputs and the pending interrupts of the host's side. -/
theorem done_hif (s : State) (h : HostCmd) (dw : BitVec 32) : (s.done h dw).hif = { s.hif with
    queues := (s.done h dw).hif.queues, out := (s.done h dw).hif.out, msixPending := (s.done h dw).hif.msixPending } := by
  unfold State.done State.complete
  rw [if_pos rfl]
  split
  · rw [State.interrupt]
    split <;> rfl
  · rfl

theorem port_done (s : State) (h : HostCmd) (dw : BitVec 32) (p : Nat) : (s.done h dw).port p = s.port p := by
  rw [State.port, State.port, done_hif]

/-- What a completion with success leaves outside the host's side. -/
theorem done_rest (s : State) (h : HostCmd) (dw : BitVec 32) :
    s.done h dw = { s with hif := (s.done h dw).hif, lvl := { s.lvl with clocks := (s.done h dw).lvl.clocks } } := (complete_host s h .success dw 0).1

/-- The two ports: 0 and any other number. -/
theorem port_congr (s : State) {p q : Nat} (same : q = 0 ↔ p = 0) : s.port q = s.port p := by
  rw [State.port, State.port]
  by_cases zero : p = 0
  · rw [if_pos zero, if_pos (same.mpr zero)]
  · rw [if_neg zero, if_neg (mt same.mp zero)]

theorem port_setPort_same (s : State) {p q : Nat} (same : q = 0 ↔ p = 0) (v : Port) : (s.setPort p v).port q = v := by
  rw [port_congr _ same, State.setPort, State.port]
  split <;> rfl

theorem port_setPort_other (s : State) {p q : Nat} (other : ¬ (q = 0 ↔ p = 0)) (v : Port) : (s.setPort p v).port q = s.port q := by
  rw [State.setPort, State.port, State.port]
  by_cases zero : p = 0
  · rw [if_pos zero, if_neg (fun z => other ⟨fun _ => zero, fun _ => z⟩), if_neg (fun z => other ⟨fun _ => zero, fun _ => z⟩)]
  · have q0 : q = 0 := by_contra fun z => other ⟨fun x => absurd x z, fun x => absurd x zero⟩
    rw [if_neg zero, if_pos q0, if_pos q0]

/-- Each port stands as it was, but for its error log. -/
def PortsStand (s t : State) : Prop := ∀ p, ∃ es, t.port p = { s.port p with errors := es }

theorem PortsStand.refl (s : State) : PortsStand s s := fun p => ⟨(s.port p).errors, rfl⟩

theorem PortsStand.trans {s t u : State} (x : PortsStand s t) (y : PortsStand t u) : PortsStand s u := fun p => by
  obtain ⟨es, hx⟩ := x p
  obtain ⟨es', hy⟩ := y p
  exact ⟨es', by rw [hy, hx]⟩

theorem PortsStand.of_ports {s t : State} (zero : t.hif.port0 = s.hif.port0) (one : t.hif.port1 = s.hif.port1) : PortsStand s t := fun p =>
  ⟨(s.port p).errors, by rw [State.port, zero, one]; rfl⟩

theorem interrupt_ports (s : State) (p n : Nat) : PortsStand s (s.interrupt p n) := by
  rw [State.interrupt]
  split <;> exact .of_ports rfl rfl

theorem logError_ports (s : State) (h : HostCmd) (e : ErrRec) : PortsStand s (s.logError h e) := by
  unfold State.logError
  split
  · intro p
    by_cases mine : (p = 0) ↔ (h.port = 0)
    · exact ⟨(e :: (s.port h.port).errors).take 64, by rw [port_setPort_same s mine, port_congr s mine]⟩
    · exact ⟨(s.port p).errors, by rw [port_setPort_other s mine]⟩
  · exact .of_ports rfl rfl

/-- A completion changes of a port its error log alone. -/
theorem complete_ports (s : State) (h : HostCmd) (st : Status) (a b : BitVec 32) : PortsStand s (s.complete h st a b) := by
  obtain ⟨t, ht⟩ : ∃ t, t = ((s.startClock 1).cqPush h).emit (.cqe { cmd := h, status := st, dnr := st.dnr, dw0 := a, dw1 := b, pasid := s.cqPasid h }) :=
    ⟨_, rfl⟩
  have first : PortsStand s t := by rw [ht]; exact .of_ports rfl rfl
  obtain ⟨u, hu⟩ : ∃ u, u = if s.cqIen h then t.interrupt h.port (s.cqVector h) else t := ⟨_, rfl⟩
  have second : PortsStand t u := by
    rw [hu]
    split
    · exact interrupt_ports _ _ _
    · exact .refl t
  have last : s.complete h st a b = if st = .success then u else u.logError h (.command
      { cmd := h, status := st, dnr := st.dnr, dw0 := a, dw1 := b, pasid := s.cqPasid h }) := by
    rw [hu, ht]
    rfl
  rw [last]
  split
  · exact first.trans second
  · exact (first.trans second).trans (logError_ports _ _ _)

/-- The features of each port stand. -/
def FeatsStand (s t : State) : Prop := ∀ p, (t.port p).feat = (s.port p).feat

theorem FeatsStand.trans {s t u : State} (x : FeatsStand s t) (y : FeatsStand t u) : FeatsStand s u := fun p => (y p).trans (x p)

theorem featsStand_of_ports {s t : State} (x : PortsStand s t) : FeatsStand s t := fun p => by
  obtain ⟨es, e⟩ := x p
  rw [e]

theorem setPort_feats (s : State) (p : Nat) {v : Port} (same : v.feat = (s.port p).feat) : FeatsStand s (s.setPort p v) := fun q => by
  by_cases mine : (q = 0) ↔ (p = 0)
  · rw [port_setPort_same s mine, port_congr s mine, same]
  · rw [port_setPort_other s mine]

theorem portAsync_feats (s : State) (p bit type info page : Nat) : FeatsStand s (s.portAsync p bit type info page) := by
  unfold State.portAsync
  dsimp only
  split
  · split
    · next h r _ => exact (setPort_feats s p (v := { s.port p with aers := r }) rfl).trans (featsStand_of_ports (complete_ports _ _ _ _ _))
    · split
      · exact fun _ => rfl
      · exact setPort_feats s p rfl
  · exact fun _ => rfl

theorem compAsync_feats (s : State) (c bit type info page : Nat) : FeatsStand s (s.compAsync c bit type info page) := by
  unfold State.compAsync
  split
  · exact fun _ => rfl
  · split
    · split
      · exact .trans (t := { s with hif := { s.hif with compAers := _ } }) (fun _ => rfl) (featsStand_of_ports (complete_ports _ _ _ _ _))
      · split
        · exact fun _ => rfl
        · exact fun _ => rfl
    · exact fun _ => rfl

/-- A warning may complete requests, and leaves what the hosts have set. -/
theorem warning_feats (s : State) (bit info : Nat) : FeatsStand s (s.warning bit info) := by
  have all : ∀ (l : List (Nat × Option Features)) (t : State), FeatsStand s t →
      FeatsStand s (l.foldl (fun t e => t.compAsync e.1 bit 1 info 2) t) := by
    intro l
    induction l with
    | nil => exact fun _ x => x
    | cons e l ih => exact fun t x => ih _ (x.trans (compAsync_feats t e.1 bit 1 info 2))
  exact all _ _ ((portAsync_feats s 0 bit 1 info 2).trans (portAsync_feats _ 1 bit 1 info 2))

end Sys2Proof.Proofs
end

section
/-! Settles O41: the standard admin commands. -/

namespace Sys2Proof.Proofs

open Sys2Proof Sys2Proof.Machine

section Rows

variable {s : State} {h : HostCmd}

/-- A completion with success puts double word 0 out. -/
theorem completesWith_done (t : State) (h : HostCmd) (dw : BitVec 32) :
    ∃ c, Output.cqe c ∈ (t.done h dw).hif.out ∧ c.cmd = h ∧ c.status = .success ∧ c.dw0 = dw := by
  obtain ⟨-, -, l, out⟩ := complete_host t h .success dw 0
  exact ⟨_, by rw [State.done, out]; exact List.mem_append_right _ List.mem_cons_self, rfl, rfl, rfl⟩

/-- A completion leaves what went out before it. -/
theorem out_complete {t : State} {o : Output} (mem : o ∈ t.hif.out) (h : HostCmd) (st : Status) (a b : BitVec 32) :
    o ∈ (t.complete h st a b).hif.out := by
  obtain ⟨-, -, l, out⟩ := complete_host t h st a b
  rw [out]
  exact List.mem_append_right _ (List.mem_cons_of_mem _ mem)

theorem admin_completesWith {i : Instr} {name : String} {row : State.AdminRow} {f : State → State} (r : AdminReady s h)
    (may : h.comp = 0 ∨ row.compartment = true) {t : State} {dw : BitVec 32} {P : State → Prop} (run : exec i s = admin name h row s f)
    (does : f (s.fetch h) = t.done h dw) (holds : P (t.done h dw)) : CompletesWith i s h dw P :=
  ⟨_, (run.trans (admin_run r may)).trans (by rw [does]), completesWith_done t h dw, holds⟩

theorem steward_runs {t : State} (steward : h.comp = 0) (f : State → State) : t.steward h f = f t := if_pos steward

theorem fetch_rest (s : State) (h : HostCmd) : s.fetch h = { s with pwr := (s.fetch h).pwr, hif := (s.fetch h).hif } := rfl

theorem port_fetch (s : State) (h : HostCmd) (p : Nat) : (s.fetch h).port p = s.port p := rfl

/-- The zones, the commands in flight and the power stand through a completion. -/
theorem done_stands (t : State) (h : HostCmd) (dw : BitVec 32) :
    (t.done h dw).zns = t.zns ∧ (t.done h dw).car = t.car ∧ (t.done h dw).pwr = t.pwr ∧ (t.done h dw).tim = t.tim := by
  rw [done_rest]
  exact ⟨rfl, rfl, rfl, rfl⟩

section Identify

theorem identify_serves (r : AdminReady s h) (csi cntid : Nat) :
    Serves (.identify h 0x01 csi cntid) s h (fun t => Output.data h ((s.fetch h).identifyController h) ∈ t.hif.out) :=
  admin_serves r (.inr rfl) rfl (t := (s.fetch h).emit (.data h ((s.fetch h).identifyController h))) (dw := 0) rfl
    (out_complete List.mem_cons_self h _ _ _)

theorem identify_refuses (r : AdminReady s h) {cns csi cntid : Nat} (bad : (s.fetch h).identifyData h cns csi cntid = .error .invalidField) :
    OnlyCompletes (.identify h cns csi cntid) s h .invalidField := by
  refine admin_refuses r (.inr rfl) (name := "IDENTIFY") (row := queryRow) (f := fun t => match t.identifyData h cns csi cntid with
    | .ok bytes => (t.emit (.data h bytes)).done h 0
    | .error st => t.fail h st) rfl ?_
  rw [bad]

theorem identifyData_other (t : State) {cns csi cntid : Nat} (other : cns ∉ [0x00, 0x01, 0x02, 0x03, 0x05, 0x06, 0x07, 0x08, 0x1C]) :
    t.identifyData h cns csi cntid = .error .invalidField := by
  simp only [List.mem_cons, List.not_mem_nil, or_false, not_or] at other
  obtain ⟨h0, h1, h2, h3, h5, h6, h7, h8, h1C⟩ := other
  simp [State.identifyData]

end Identify

section Logs

theorem length_errorEntry (e : ErrRec) : (State.errorEntry e).length = 64 := by
  cases e with
  | command c => exact (List.length_map ..).trans List.length_range
  | program d b p st => exact (List.length_map ..).trans List.length_range

theorem length_errorEntries : ∀ es : List ErrRec, (es.map State.errorEntry).flatten.length = 64 * es.length
  | [] => rfl
  | e :: es => by
    rw [List.map_cons, List.flatten_cons, List.length_append, length_errorEntry, length_errorEntries es, List.length_cons]
    omega

theorem getLogPage_errors (r : AdminReady s h) {off n : Nat} (inside : off ≤ 4096) :
    Serves (.getLogPage h 0x01 off n) s h (fun t => ∃ d, Output.data h d ∈ t.hif.out ∧ d.length ≤ n) := by
  obtain ⟨es, hes⟩ : ∃ es, es = (s.fetch h).errorLog h := ⟨_, rfl⟩
  obtain ⟨log, hlog⟩ : ∃ log, log = (es.map State.errorEntry).flatten ++ leBytes (64 * (64 - es.length)) 0 := ⟨_, rfl⟩
  have found : (s.fetch h).logData h 0x01 = .ok (log, s.fetch h) := by
    rw [hlog, hes, State.logData, if_neg (fun all => all.2.1 rfl)]
    dsimp only
    rw [List.length_map]
  have long : ¬ log.length < off := by
    rw [hlog, List.length_append, length_errorEntries, length_leBytes]
    omega
  refine admin_serves r (.inr rfl) (name := "GET_LOG_PAGE") (row := queryRow) (f := fun t => match t.logData h 0x01 with
    | .ok (log, u) => if log.length < off then t.fail h .invalidField else (u.emit (.data h ((log.drop off).take n))).done h 0
    | .error st => t.fail h st) rfl (t := (s.fetch h).emit (.data h ((log.drop off).take n))) (dw := 0) ?_
    ⟨_, out_complete List.mem_cons_self h _ _ _, List.length_take_le _ _⟩
  rw [found]
  exact if_neg long

theorem getLogPage_refuses (r : AdminReady s h) (steward : h.comp = 0) {lid off n : Nat} (other : lid ∉ [0x01, 0x02, 0x03, 0x04, 0x05, 0xBF]) :
    OnlyCompletes (.getLogPage h lid off n) s h .invalidLogPage := by
  simp only [List.mem_cons, List.not_mem_nil, or_false, not_or] at other
  obtain ⟨h1, h2, h3, h4, h5, hBF⟩ := other
  have bad : (s.fetch h).logData h lid = .error .invalidLogPage := by simp [State.logData, steward]
  refine admin_refuses r (.inr rfl) (name := "GET_LOG_PAGE") (row := queryRow) (f := fun t => match t.logData h lid with
    | .ok (log, u) => if log.length < off then t.fail h .invalidField else (u.emit (.data h ((log.drop off).take n))).done h 0
    | .error st => t.fail h st) rfl ?_
  rw [bad]

end Logs

section Requests

/-- An Abort of an Asynchronous Event Request completes both; of the port's requests no other goes. -/
theorem abort_found (r : AdminReady s h) (steward : h.comp = 0) {sqid cid : Nat} {x : HostCmd} (mem : x ∈ (s.port h.port).aers)
    (ctl : ctlOf x = ctlOf h) (qid : x.qid = sqid) (named : x.cid = cid) (only : ∀ y ∈ (s.port h.port).aers, y = x ∨ y.cid ≠ cid) :
    Goes (.abort h sqid cid) s (fun t => Completed t x .abortRequested ∧ Completed t h .success ∧
      (t.port h.port).aers = (s.port h.port).aers.filter (fun y => decide (y.cid ≠ cid))) := by
  obtain ⟨same, hsame⟩ : ∃ same : HostCmd → Bool, same = fun y => decide (ctlOf y = ctlOf h) && decide (y.qid = sqid) && decide (y.cid = cid) :=
    ⟨_, rfl⟩
  have same_iff : ∀ y ∈ (s.port h.port).aers, same y = decide (y.cid = cid) := fun y hy => by
    rw [hsame]
    obtain rfl | other := only y hy
    · simp [ctl, qid, named]
    · simp [other]
  have first : ((s.fetch h).aersOf h).filter same ++ (s.fetch h).waitingControl same ≠ [] ∧
      ∀ y, (((s.fetch h).aersOf h).filter same ++ (s.fetch h).waitingControl same).head? = some y → y = x := by
    have aers : (s.fetch h).aersOf h = (s.port h.port).aers := if_pos steward
    rw [aers]
    have among : x ∈ (s.port h.port).aers.filter same := List.mem_filter.mpr ⟨mem, by rw [same_iff x mem]; exact decide_eq_true named⟩
    obtain ⟨y, l, hl⟩ := List.exists_cons_of_ne_nil (List.ne_nil_of_mem among)
    have head : y ∈ (s.port h.port).aers.filter same := by rw [hl]; exact List.mem_cons_self
    obtain ⟨hy, is_same⟩ := List.mem_filter.mp head
    rw [same_iff y hy] at is_same
    refine ⟨fun none => List.ne_nil_of_mem among (List.append_eq_nil_iff.mp none).1, fun z hz => ?_⟩
    rw [hl] at hz
    obtain rfl : y = z := by simpa using hz
    exact (only y hy).resolve_right fun ne => ne (of_decide_eq_true is_same)
  obtain ⟨t, ht⟩ : ∃ t, t = ((s.fetch h).dropAers h same).dropControl same := ⟨_, rfl⟩
  have run : exec (.abort h sqid cid) s = .next ((t.fail x .abortRequested).done h 0) := by
    refine (admin_run (name := "ABORT") (row := serveRow) r (.inr rfl)).trans ?_
    show Host.Outcome.next (match (((s.fetch h).aersOf h).filter _ ++ (s.fetch h).waitingControl _).head? with
      | some x => _
      | none => _) = _
    rw [← hsame]
    cases head : (((s.fetch h).aersOf h).filter same ++ (s.fetch h).waitingControl same).head? with
    | none => exact absurd (List.head?_eq_none_iff.mp head) first.1
    | some y =>
      rw [first.2 y head, ht]
  refine ⟨_, run, ?_, completed_complete _ _ _ _ _, ?_⟩
  · obtain ⟨c, out, rest⟩ := completed_complete t x .abortRequested 0 0
    exact ⟨c, out_complete out h _ _ _, rest⟩
  · obtain ⟨es, left⟩ := ((complete_ports t x .abortRequested 0 0).trans (complete_ports _ h .success 0 0)) h.port
    have dropped : (t.port h.port).aers = (s.port h.port).aers.filter (fun y => !same y) := by
      rw [ht]
      show (((s.fetch h).dropAers h same).port h.port).aers = _
      rw [State.dropAers, if_pos steward, port_setPort_same _ Iff.rfl]
      rfl
    refine (congrArg Port.aers left).trans (dropped.trans ?_)
    refine List.filter_congr fun y hy => ?_
    rw [same_iff y hy, decide_not]

theorem abort_none (r : AdminReady s h) (steward : h.comp = 0) {sqid cid : Nat} (none_named : ∀ y ∈ (s.port h.port).aers, y.cid ≠ cid)
    (none_waits : ∀ m v, (m, v) ∈ s.cmp.table → v.control = []) :
    CompletesWith (.abort h sqid cid) s h 1 (fun t => t.car = s.car ∧ t.zns = s.zns) := by
  obtain ⟨same, hsame⟩ : ∃ same : HostCmd → Bool, same = fun y => decide (ctlOf y = ctlOf h) && decide (y.qid = sqid) && decide (y.cid = cid) :=
    ⟨_, rfl⟩
  have no_aer : ((s.fetch h).aersOf h).filter same = [] := by
    have aers : (s.fetch h).aersOf h = (s.port h.port).aers := if_pos steward
    rw [aers]
    refine List.filter_eq_nil_iff.mpr fun y hy => ?_
    rw [hsame]
    simp [none_named y hy]
  have no_control : (s.fetch h).waitingControl same = [] := by
    refine List.flatMap_eq_nil_iff.mpr fun e he => ?_
    rw [none_waits e.1 e.2 he]
    rfl
  obtain ⟨zns, car, -, -⟩ := done_stands (s.fetch h) h 1
  refine ⟨(s.fetch h).done h 1, (admin_run (name := "ABORT") (row := serveRow) r (.inr rfl)).trans ?_, completesWith_done _ h 1, car, zns⟩
  show Host.Outcome.next (match (((s.fetch h).aersOf h).filter _ ++ (s.fetch h).waitingControl _).head? with
    | some x => _
    | none => _) = _
  rw [← hsame, no_aer, no_control]
  rfl

theorem asyncRequest_answers (r : AdminReady s h) (steward : h.comp = 0) {a i g : Nat} {l : List (Nat × Nat × Nat)}
    (waits : (s.port h.port).asyncEvents = (a, i, g) :: l) :
    CompletesWith (.asynchronousEventRequest h) s h (BitVec.ofNat 32 (g * 65536 + i * 256 + a)) (fun t => (t.port h.port).asyncEvents = l) := by
  obtain ⟨t, ht⟩ : ∃ t, t = (s.fetch h).setPort h.port { s.port h.port with asyncEvents := l } := ⟨_, rfl⟩
  have next : (s.fetch h).nextAsync h = some (g * 65536 + i * 256 + a, t) := by
    have here : ((s.fetch h).port h.port).asyncEvents = (a, i, g) :: l := waits
    unfold State.nextAsync
    dsimp only
    rw [if_pos steward, here, ht]
    rfl
  refine admin_completesWith r (.inr rfl) (name := "ASYNCHRONOUS_EVENT_REQUEST") (row := serveRow) (f := fun t => match t.nextAsync h with
    | some (dw, u) => u.done h (BitVec.ofNat 32 dw)
    | none =>
      if 8 ≤ (t.aersOf h).length then t.fail h .asyncLimit
      else if h.comp = 0 then t.setPort h.port { t.port h.port with aers := (t.port h.port).aers ++ [h] }
      else { t with hif := { t.hif with compAers := t.hif.compAers ++ [(h.comp, h)] } }) rfl (t := t) (by rw [next]) ?_
  rw [port_done, ht, port_setPort_same _ Iff.rfl]

theorem asyncRequest_waits (r : AdminReady s h) (steward : h.comp = 0) (none_waits : (s.port h.port).asyncEvents = []) :
    exec (.asynchronousEventRequest h) s = .next (if 8 ≤ (s.port h.port).aers.length then (s.fetch h).fail h .asyncLimit
      else (s.fetch h).setPort h.port { s.port h.port with aers := (s.port h.port).aers ++ [h] }) := by
  have next : (s.fetch h).nextAsync h = none := by
    have here : ((s.fetch h).port h.port).asyncEvents = [] := none_waits
    unfold State.nextAsync
    dsimp only
    rw [if_pos steward, here]
  have aers : (s.fetch h).aersOf h = (s.port h.port).aers := if_pos steward
  refine (admin_run (name := "ASYNCHRONOUS_EVENT_REQUEST") (row := serveRow) r (.inr rfl)).trans ?_
  rw [next]
  dsimp only
  rw [aers, if_pos steward]
  rfl

end Requests

section Features

/-- A port's features, changed and completed. -/
theorem modFeat_done (steward : h.comp = 0) (g : Features → Features) (dw : BitVec 32) :
    ((((s.fetch h).modFeat h g).done h dw).port h.port).feat = g (s.port h.port).feat ∧ (((s.fetch h).modFeat h g).done h dw).zns = s.zns ∧
      (((s.fetch h).modFeat h g).done h dw).pwr = (s.fetch h).pwr := by
  have mods : (s.fetch h).modFeat h g = (s.fetch h).setPort h.port { s.port h.port with feat := g (s.port h.port).feat } := if_pos steward
  rw [mods]
  obtain ⟨zns, -, pwr, -⟩ := done_stands ((s.fetch h).setPort h.port { s.port h.port with feat := g (s.port h.port).feat }) h dw
  have rest : ∀ v, ((s.fetch h).setPort h.port v).zns = s.zns ∧ ((s.fetch h).setPort h.port v).pwr = (s.fetch h).pwr := fun v => by
    rw [State.setPort]
    split <;> exact ⟨rfl, rfl⟩
  refine ⟨?_, zns.trans (rest _).1, pwr.trans (rest _).2⟩
  rw [port_done, port_setPort_same _ Iff.rfl]

/-- A Set Features of the steward whose value is good. -/
theorem sets_feature {i : Instr} {name : String} {f : State → State} (r : AdminReady s h) (steward : h.comp = 0) (g : Features → Features)
    (run : exec i s = admin name h serveRow s f) (does : f (s.fetch h) = ((s.fetch h).modFeat h g).done h 0) :
    Serves i s h (fun t => (t.port h.port).feat = g (s.port h.port).feat ∧ t.zns = s.zns ∧ t.pwr = (s.fetch h).pwr) :=
  admin_serves r (.inr rfl) run does (modFeat_done steward g 0)

theorem withThresholds_feats (s : State) (f : State → State) : FeatsStand (f s) (s.withThresholds f) := by
  unfold State.withThresholds
  dsimp only
  split
  · exact warning_feats _ _ _
  · exact fun _ => rfl

/-- Sensor `i` of 0 to 3 takes its threshold alone. -/
theorem setThreshold_set (l : List Nat) {i : Nat} (low : i ≤ 3) (v : Nat) : State.setThreshold l i v = l.set i v := by
  have not_all : i ≠ 15 := by omega
  have mapped : l.mapIdx (fun j x => if j = i ∨ i = 15 then v else x) = l.set i v := by
    refine List.ext_getElem (by rw [List.length_mapIdx, List.length_set]) fun j hj hj' => ?_
    rw [List.getElem_mapIdx, List.getElem_set]
    by_cases mine : j = i
    · rw [if_pos (.inl mine), if_pos mine.symm]
    · rw [if_neg (fun both => both.elim mine not_all), if_neg (fun e => mine e.symm)]
  exact mapped

theorem setThreshold_serves (r : AdminReady s h) (steward : h.comp = 0) {sensor : Nat} (low : sensor ≤ 3) (k : Nat) (under : Bool)
    {P : Features → Prop} (holds : P (if under then { (s.port h.port).feat with
        tempUnder := State.setThreshold (s.port h.port).feat.tempUnder sensor k } else { (s.port h.port).feat with
        tempOver := State.setThreshold (s.port h.port).feat.tempOver sensor k })) :
    Serves (.setTemperatureThreshold h k sensor under) s h (fun t => P (t.port h.port).feat) := by
  obtain ⟨g, hg⟩ : ∃ g : Features → Features, g = fun f => if under then { f with tempUnder := State.setThreshold f.tempUnder sensor k }
    else { f with tempOver := State.setThreshold f.tempOver sensor k } := ⟨_, rfl⟩
  obtain ⟨t, ht⟩ : ∃ t, t = (s.fetch h).withThresholds (fun x => x.modFeat h g) := ⟨_, rfl⟩
  refine admin_serves r (.inr rfl) (name := "SET_TEMPERATURE_THRESHOLD") (row := serveRow) (f := fun t => t.steward h (fun u =>
    if 3 < sensor ∧ sensor ≠ 15 then u.fail h .invalidField
    else (u.withThresholds (fun x => x.modFeat h (fun f =>
      if under then { f with tempUnder := State.setThreshold f.tempUnder sensor k }
      else { f with tempOver := State.setThreshold f.tempOver sensor k }))).done h 0)) rfl (t := t) (dw := 0) ?_ ?_
  · rw [steward_runs steward, if_neg (by omega), ht, hg]
  · have kept : (t.port h.port).feat = g (s.port h.port).feat := by
      rw [ht, withThresholds_feats (s.fetch h) (fun x => x.modFeat h g) h.port]
      show ((((s.fetch h).modFeat h g)).port h.port).feat = _
      rw [State.modFeat, if_pos steward, port_setPort_same _ Iff.rfl]
      rfl
    rw [port_done, kept, hg]
    exact holds

/-- A Get Features of a value that the steward keeps. -/
theorem getFeatures_answers (r : AdminReady s h) {fid dw : Nat} {arg : BitVec 32}
    (found : (s.fetch h).featureValue h fid arg = .ok (dw, [], s.fetch h)) :
    CompletesWith (.getFeatures h fid arg) s h (BitVec.ofNat 32 dw) (fun t => t.zns = s.zns) := by
  refine admin_completesWith r (.inr rfl) (name := "GET_FEATURES") (row := serveRow) (f := fun t => match t.featureValue h fid arg with
    | .ok (dw, bytes, u) => (if bytes.isEmpty then u else u.emit (.data h bytes)).done h (BitVec.ofNat 32 dw)
    | .error st => t.fail h st) rfl (t := s.fetch h) ?_ (done_stands _ _ _).1
  rw [found]
  rfl

theorem onAdmin_refuses (r : AdminReady s h) {i : Instr} {name : String} {f : State → State} {st : Status}
    (run : exec i s = onAdmin name h s f) (refuses : f (s.fetch h) = (s.fetch h).fail h st) : OnlyCompletes i s h st :=
  onlyCompletes_of_complete (by rw [run, onAdmin, r.fetched, decide_eq_true r.queue, refuses]; rfl)

/-- R418: an operation code that is no admin command of the module. -/
theorem invalidOpcode_refuses (r : AdminReady s h) (steward : h.comp = 0) {op : Nat} (small : op < 256) (other : op ∉ adminOpcodes) :
    OnlyCompletes (.invalidCommandOpcode h op false) s h .invalidOpcode := by
  have absent : ¬ (adminOpcodes.contains op = true ∨ 255 < op) := by
    rintro (known | beyond)
    · exact other (List.contains_iff_mem.mp known)
    · omega
  have sanitize : (s.fetch h).sec.sanActive = false := r.sanitize
  have unparked : (s.fetch h).parked = false := r.unparked
  refine onAdmin_refuses r (name := "INVALID_COMMAND_OPCODE") (f := fun t =>
    if h.comp ≠ 0 ∧ !false then t.fail h .invalidOpcode
    else if t.sec.sanActive then t.fail h .sanitizeInProgress
    else if t.parked then t.fail h .sequenceError
    else t.fail h .invalidOpcode) (if_neg absent) ?_
  rw [if_neg (fun both => both.1 steward), sanitize, unparked]
  rfl

end Features

end Rows

/-- Settles O41, row by row. -/
theorem standardAdminCommandsComplete : Obligations.StandardAdminCommandsComplete := by
  unfold Obligations.StandardAdminCommandsComplete
  intro s h r steward port
  refine ⟨identify_serves r, fun cntid => identify_refuses r ?_, fun cns csi cntid other => identify_refuses r (identifyData_other _ other),
    fun off n inside => getLogPage_errors r inside, fun lid off n other => getLogPage_refuses r steward other,
    fun sqid cid x mem ctl qid named only => abort_found r steward mem ctl qid named only,
    fun sqid cid no_aer no_control => abort_none r steward no_aer no_control, fun a i g l waits => asyncRequest_answers r steward waits,
    fun none_waits room => ?_, fun none_waits full => ?_, fun arg => ⟨?_, ?_, ?_⟩, fun ps low => ?_, fun sensor k low _ _ => ⟨?_, ?_⟩,
    fun nsq ncq hs hc => ?_, fun v => ?_, fun iv cd low => ?_, fun v => ?_, fun ms source => ?_, fun fid other => ?_, ?_, ?_,
    fun op small other => ?_⟩
  · simp [State.identifyData]
  · refine ⟨_, (asyncRequest_waits r steward none_waits).trans (by rw [if_neg (by omega)]), ?_, ?_⟩
    · rw [port_setPort_same _ Iff.rfl]
    · rw [State.setPort]
      split <;> rfl
  · exact onlyCompletes_of_complete ((asyncRequest_waits r steward none_waits).trans (by rw [if_pos full]; rfl))
  · exact getFeatures_answers r (if_neg fun all => all.1 steward)
  · have coalescing := getFeatures_answers r (fid := 0x08) (dw := (s.port h.port).feat.coalescing.toNat) (arg := arg) (by
      rw [State.featureValue, State.featOf, if_pos steward]
      exact if_neg fun all => all.1 steward)
    rwa [BitVec.ofNat_toNat, BitVec.setWidth_eq] at coalescing
  · have config := getFeatures_answers r (fid := 0x0B) (dw := (s.port h.port).feat.asyncCfg.toNat) (arg := arg) (by
      rw [State.featureValue, State.featOf, if_pos steward]
      exact if_neg fun all => all.1 steward)
    rwa [BitVec.ofNat_toNat, BitVec.setWidth_eq] at config
  · refine admin_goes r (.inr rfl) (name := "SET_POWER_MANAGEMENT") (row := serveRow) rfl ?_
    rw [steward_runs steward]
    interval_cases ps <;> exact ⟨rfl, rfl, rfl⟩
  · exact setThreshold_serves r steward low k false (P := fun f => f.tempOver = _ ∧ f.tempUnder = _)
      ⟨setThreshold_set _ low k, rfl⟩
  · exact setThreshold_serves r steward low k true (P := fun f => f.tempUnder = _ ∧ f.tempOver = _)
      ⟨setThreshold_set _ low k, rfl⟩
  · have limit : (s.fetch h).pairLimit h = 64 := if_pos steward
    have dw : State.queuesDw (min (nsq + 1) 64) (min (ncq + 1) 64) = BitVec.ofNat 32 (min nsq 63 + min ncq 63 * 65536) := by
      rw [State.queuesDw, show min (nsq + 1) 64 - 1 = min nsq 63 by omega, show min (ncq + 1) 64 - 1 = min ncq 63 by omega]
    refine admin_completesWith r (.inr rfl) (name := "SET_NUMBER_OF_QUEUES") (row := serveRow) (f := fun t =>
      let m := t.pairLimit h
      let n := min (min (nsq + 1) (ncq + 1)) m
      if 65534 < nsq ∨ 65534 < ncq then t.fail h .invalidField
      else if m = 0 then t.draw.done h (BitVec.ofNat 32 (Config.freeNat t.free))
      else (t.modFeat h (fun f => { f with queues := n })).done h (State.queuesDw (min (nsq + 1) m) (min (ncq + 1) m))) rfl
      (t := (s.fetch h).modFeat h (fun f => { f with queues := min (min nsq ncq) 63 + 1 })) ?_ ?_
    · dsimp only
      rw [limit, if_neg (by omega), if_neg (by decide), dw, show min (min (nsq + 1) (ncq + 1)) 64 = min (min nsq ncq) 63 + 1 by omega]
    · rw [(modFeat_done steward _ _).1]
  · exact sets_feature r steward (fun f => { f with coalescing := v }) (name := "SET_INTERRUPT_COALESCING") rfl rfl
  · exact sets_feature r steward (fun f => { f with vectors := put 0 f.vectors iv (if cd then 1 else 0) })
      (name := "SET_INTERRUPT_VECTOR_CONFIGURATION") rfl ((steward_runs steward _).trans (if_neg (by omega)))
  · exact sets_feature r steward (fun f => { f with asyncCfg := v }) (name := "SET_ASYNC_EVENT_CONFIGURATION") rfl rfl
  · refine admin_serves r (.inr rfl) (name := "SET_TIMESTAMP") (row := serveRow) rfl (t := (s.fetch h).setStamp ms) (dw := 0)
      (steward_runs steward _) ?_
    have stamp : (s.fetch h).setStamp ms = { (s.fetch h).stepTime (ms * 1000000) with
        tim := { ((s.fetch h).stepTime (ms * 1000000)).tim with secSuspect := false, timeSet := true } } := if_pos source
    rw [(done_stands _ _ _).2.2.2, stamp]
    exact ⟨rfl, rfl⟩
  · have unserved : featureUnserved fid = true := by
      rw [featureUnserved, Bool.not_eq_true', Bool.eq_false_iff]
      exact fun known => other (List.contains_iff_mem.mp known)
    exact admin_refuses r (.inr rfl) (name := "SET_FEATURES_UNSUPPORTED") (row := serveRow) (f := fun t => t.fail h .invalidField)
      (if_pos unserved) rfl
  · exact onAdmin_refuses r (name := "FIRMWARE_COMMIT") (f := fun t => t.fail h .invalidOpcode) rfl rfl
  · exact onAdmin_refuses r (name := "FIRMWARE_IMAGE_DOWNLOAD") (f := fun t => t.fail h .invalidOpcode) rfl rfl
  · refine invalidOpcode_refuses r steward small fun known => other ?_
    have among : ∀ x ∈ adminOpcodes, x ∈ [0x00, 0x01, 0x02, 0x04, 0x05, 0x06, 0x08, 0x09, 0x0A, 0x0C, 0x10, 0x11, 0x84, 0xC0, 0xC1, 0xC4,
      0xC5, 0xC6, 0xC8, 0xCA] := by decide
    exact among op known

end Sys2Proof.Proofs
end

section
/-! Settles O42: event rings. -/

namespace Sys2Proof.Proofs

open Sys2Proof Sys2Proof.Machine

section Rings

variable {s : State} {e : EvRec}

/-- The steward's ring and the count of what it lost stand. -/
def RingStands (s t : State) : Prop := t.hif.ring = s.hif.ring ∧ t.hif.lost = s.hif.lost

theorem RingStands.trans {s t u : State} (x : RingStands s t) (y : RingStands t u) : RingStands s u := ⟨y.1.trans x.1, y.2.trans x.2⟩

theorem interrupt_ring (s : State) (p n : Nat) : RingStands s (s.interrupt p n) := by
  rw [State.interrupt]
  split <;> exact ⟨rfl, rfl⟩

theorem compIrq_ring (s : State) (c bit : Nat) : RingStands s (s.compIrq c bit) := by
  unfold State.compIrq
  dsimp only
  split
  · exact ⟨rfl, rfl⟩
  · exact interrupt_ring (s.setComp c _) _ _

theorem toCompRing_ring (s : State) (e : EvRec) : RingStands s (s.toCompRing e) := by
  unfold State.toCompRing
  split
  · exact ⟨rfl, rfl⟩
  · split
    · exact ⟨rfl, rfl⟩
    · next r _ =>
      have asks : ∀ (g : HostLink) (bit : Nat), RingStands s { s with hif := g } → RingStands s (({ s with hif := g } : State).compIrq e.comp bit) :=
        fun g bit x => x.trans (compIrq_ring { s with hif := g } _ _)
      cases State.ringPush r e with
      | none => exact asks _ 3 ⟨rfl, rfl⟩
      | some pushed => exact asks _ 2 ⟨rfl, rfl⟩

/-- A ring with room takes the record at its tail (R428). -/
theorem toStewardRing_takes {r : Ring} (open_ : s.hif.ring = some r) (room : (r.tail + 1) % r.size ≠ r.head) :
    (s.toStewardRing e).hif.ring = some { r with tail := (r.tail + 1) % r.size, slots := put none r.slots r.tail (some e) } ∧
      (s.toStewardRing e).hif.lost = s.hif.lost := by
  unfold State.toStewardRing
  rw [open_]
  dsimp only
  rw [State.ringPush, if_neg room]
  dsimp only
  split
  · exact interrupt_ring { s with hif := { s.hif with ring := some { r with tail := (r.tail + 1) % r.size, slots := put none r.slots r.tail (some e) } } } _ _
  · exact ⟨rfl, rfl⟩

/-- A full ring loses the record, and counts it. -/
theorem toStewardRing_loses {r : Ring} (open_ : s.hif.ring = some r) (full : (r.tail + 1) % r.size = r.head) :
    (s.toStewardRing e).hif.ring = some r ∧ (s.toStewardRing e).hif.lost = min 0xFFFFFFFF (s.hif.lost + 1) := by
  unfold State.toStewardRing
  rw [open_]
  dsimp only
  rw [State.ringPush, if_pos full]
  exact ⟨open_, rfl⟩

/-- What an event does to the steward's ring is what its record does. -/
theorem event_ring (s : State) (code level source c : Nat) (fields : List Int) :
    ∃ u : State, u.hif.ring = s.hif.ring ∧ u.hif.lost = s.hif.lost ∧
      RingStands (u.toStewardRing (eventOf s code level source c (.fields fields))) (s.event code level source c fields) := by
  have rings : ∀ (t : State) (e : EvRec), RingStands (t.toStewardRing e) (((t.toStewardRing e).toCompRing e).toReels e) := fun t e =>
    toCompRing_ring (t.toStewardRing e) e
  obtain ⟨u, hu⟩ : ∃ u : State, u = (State.startClock { s with hif := { s.hif with raised := eventOf s code level source c (.fields fields) :: s.hif.raised } } 9) :=
    ⟨_, rfl⟩
  obtain ⟨v, hv⟩ : ∃ v, v = if u.isOpen then u.emit (.uartEvent (eventOf s code level source c (.fields fields))) else u := ⟨_, rfl⟩
  refine ⟨v, ?_, ?_, ?_⟩
  · rw [hv, hu]; split <;> rfl
  · rw [hv, hu]; split <;> rfl
  · have last : s.event code level source c fields = if level = 4 then
        { ((v.toStewardRing (eventOf s code level source c (.fields fields))).toCompRing (eventOf s code level source c (.fields fields))).toReels
          (eventOf s code level source c (.fields fields)) with pins := { (((v.toStewardRing (eventOf s code level source c (.fields fields))).toCompRing
          (eventOf s code level source c (.fields fields))).toReels (eventOf s code level source c (.fields fields))).pins with srcCritEvent := true } }
        else ((v.toStewardRing (eventOf s code level source c (.fields fields))).toCompRing (eventOf s code level source c (.fields fields))).toReels
          (eventOf s code level source c (.fields fields)) := by rw [hv, hu]; rfl
    rw [last]
    split <;> exact rings v _

end Rings

/-- Settles O42: a set-up opens an empty ring, and an event goes to its tail while it has room. -/
theorem eventRingsTakeRecordsUntilFull : Obligations.EventRingsTakeRecordsUntilFull := by
  unfold Obligations.EventRingsTakeRecordsUntilFull
  refine ⟨fun s h r ready steward least most power base vector pasid => ⟨?_, ?_, fun bad few => ?_⟩, fun s r code level source c f open_ small => ⟨?_, ?_, ?_⟩⟩
  · have good : State.ringOk h r (s.fetch h) = true := by
      rw [State.ringOk, if_pos steward, if_pos steward, pasid]
      simp [least, most, power, base, vector, steward]
    refine admin_serves ready (.inr rfl) (name := "EVENT_RING_SETUP") (row := ringRow) rfl
      (t := (s.fetch h).setRing h (some (State.openRing h r))) (dw := 0) (if_pos good) ?_
    rw [done_hif, State.setRing, if_pos steward, State.openRing, pasid]
  · refine admin_serves ready (.inr rfl) (name := "EVENT_RING_CLOSE") (row := ringRow) rfl (t := (s.fetch h).setRing h none) (dw := 0) rfl ?_
    rw [done_hif, State.setRing, if_pos steward]
  · have refused : State.ringOk h bad (s.fetch h) = false := by
      rw [State.ringOk, decide_eq_false (by omega)]
      rfl
    exact admin_refuses ready (.inr rfl) (name := "EVENT_RING_SETUP") (row := ringRow) rfl (if_neg (ne_true_of_eq_false refused))
  · refine ⟨_, raised_event s code level source c f, rfl, rfl, rfl, rfl, rfl, rfl, fun room => ?_⟩
    obtain ⟨u, ring, lost, same⟩ := event_ring s code level source c f
    obtain ⟨takes, kept⟩ := toStewardRing_takes (e := eventOf s code level source c (.fields f)) (ring.trans open_) room
    exact ⟨_, same.1.trans takes, rfl, rfl, look_put_of_ne _ _ _ _ nofun, same.2.trans (kept.trans lost)⟩
  · intro full
    obtain ⟨u, ring, lost, same⟩ := event_ring s code level source c f
    obtain ⟨stays, counts⟩ := toStewardRing_loses (e := eventOf s code level source c (.fields f)) (ring.trans open_) full
    exact ⟨same.1.trans stays, same.2.trans (counts.trans (by rw [lost]))⟩
  · have rest := (event_frame s code level source c f).rest
    rw [rest]
    exact ⟨rfl, rfl, rfl, rfl, rfl, rfl⟩

end Sys2Proof.Proofs
end

section
/-! SUPPORT. What programs, retirements and the journal's units leave as it was (R192, R193, R206). -/

namespace Sys2Proof.Machine

open Sys2Proof

/-- What programs, retirements and the journal's units leave as it was: every component but the queues and blocks of the dies, the
journal, the write sequence values, the reels' records and what the host sees. -/
structure Aside where
  part : Part
  boot : Boot
  pwr : Power
  plog : PowerLog
  tim : TimeBase
  thm : Thermal
  fan : Fans
  car : Carriages
  mnt : Mount
  bpm : Pools
  mem : Integrity
  cmp : Comps
  fcd : Codec
  cpl : Coupler
  sec : Security
  svc : Service
  landing : SMap (Option LandRow)

def State.aside (s : State) : Aside :=
  { part := s.part, boot := s.boot, pwr := s.pwr, plog := s.plog, tim := s.tim, thm := s.thm, fan := s.fan, car := s.car, mnt := s.mnt
    bpm := s.bpm, mem := s.mem, cmp := s.cmp, fcd := s.fcd, cpl := s.cpl, sec := s.sec, svc := s.svc, landing := s.fls.landing }

/-- An update of other components. -/
theorem aside_mk (s : State) (pins lvl zns jrn nv nvNext kry hif free pending) :
    (State.mk s.part s.boot pins s.pwr s.plog s.tim s.thm s.fan lvl zns s.car s.fls s.mnt jrn nv nvNext s.bpm s.mem s.cmp s.fcd kry hif s.cpl
      s.sec s.svc free pending).aside = s.aside := by rfl

/-- An update of other fields of the dies'. -/
theorem aside_sec (s : State) (pins lvl zns fls jrn nv nvNext kry hif free pending) (hl : fls.landing = s.fls.landing) :
    (State.mk s.part s.boot pins s.pwr s.plog s.tim s.thm s.fan lvl zns s.car fls s.mnt jrn nv nvNext s.bpm s.mem s.cmp s.fcd kry hif s.cpl
      s.sec s.svc free pending).aside = s.aside := by
  simp only [State.aside, hl]

theorem aside_ite (c : Prop) [Decidable c] (s t : State) : (if c then s else t).aside = if c then s.aside else t.aside :=
  apply_ite _ _ _ _

theorem aside_foldl {α : Type} (f : State → α → State) (h : ∀ s a, (f s a).aside = s.aside) (l : List α) :
    ∀ s, (l.foldl f s).aside = s.aside := by
  induction l with
  | nil => exact fun _ => rfl
  | cons a l ih => exact fun s => (ih _).trans (h s a)

theorem aside_getD {o : Option State} {s : State} (h : ∀ t, o = some t → t.aside = s.aside) : (o.getD s).aside = s.aside := by
  cases o with
  | none => rfl
  | some t => exact h t rfl

theorem aside_times (f : State → State) (h : ∀ t, (f t).aside = t.aside) : ∀ n s, (times f n s).aside = s.aside
  | 0, _ => rfl
  | n + 1, s => (aside_times f h n _).trans (h s)

/-- A completion changes what the host sees alone. -/
theorem State.complete_aside (s : State) (h : HostCmd) (st : Status) (a b : BitVec 32) :
    (State.complete s h st a b).aside = s.aside := by
  rw [(complete_host s h st a b).1]
  rfl

theorem State.done_aside (s : State) (h : HostCmd) (dw : BitVec 32) : (State.done s h dw).aside = s.aside :=
  State.complete_aside s h _ _ _

theorem State.fail_aside (s : State) (h : HostCmd) (st : Status) : (State.fail s h st).aside = s.aside :=
  State.complete_aside s h _ _ _

/-- An event of no compartment leaves the compartments. -/
theorem State.event_aside (s : State) (code level source : Nat) (fields : List Int) :
    (State.event s code level source 0 fields).aside = s.aside := by
  have same := Sys2Proof.Proofs.event_cmp s code level source fields
  rw [State.aside, (event_frame s code level source 0 fields).rest, State.aside]
  dsimp only
  rw [same]

theorem State.setDie_aside (s : State) (d) (v) : (State.setDie s d v).aside = s.aside := by rfl

theorem State.setBlock_aside (s : State) (d) (b) (v) : (State.setBlock s d b v).aside = s.aside := by rfl

theorem State.setPort_aside (s : State) (p) (v) : (State.setPort s p v).aside = s.aside := by
  simp only [State.setPort, aside_sec, aside_ite, ite_self]

theorem State.portAsync_aside (s : State) (p) (bit) (type) (info) (page) :
    (State.portAsync s p bit type info page).aside = s.aside := by
  unfold State.portAsync; dsimp only; repeat' split
  all_goals simp only [State.done_aside, State.setPort_aside]

theorem State.compAsync_aside (s : State) (c) (bit) (type) (info) (page) :
    (State.compAsync s c bit type info page).aside = s.aside := by
  unfold State.compAsync; repeat' split
  all_goals simp only [aside_sec, State.done_aside]

theorem State.warning_aside (s : State) (bit) (info) : (State.warning s bit info).aside = s.aside := by
  simp only [State.warning, aside_foldl, implies_true, State.compAsync_aside, State.portAsync_aside]

theorem State.layPage_aside (s : State) (d) (b) (p) (data) (r) : (State.layPage s d b p data r).aside = s.aside := by
  simp only [State.layPage, aside_sec]

theorem State.layPages_aside (s : State) (d) (b) (p) (pages) : (State.layPages s d b p pages).aside = s.aside := by
  simp only [State.layPages, aside_foldl, implies_true, State.layPage_aside]

theorem State.takeSeq_aside (s : State) (n) : (State.takeSeq s n).2.aside = s.aside := by
  simp only [State.takeSeq, aside_sec, aside_ite, ite_self, State.event_aside]

theorem State.sealPages_aside (s : State) (d) (b) (p) (n) (flush) (fresh : ℕ → Bool) :
    (State.sealPages s d b p n flush fresh).aside = s.aside := by
  simp only [State.sealPages, aside_sec, State.takeSeq_aside]

theorem State.spareEvents_aside (s : State) (d) (before) : (State.spareEvents s d before).aside = s.aside := by
  simp only [State.spareEvents, aside_ite, ite_self, State.warning_aside, State.event_aside]

theorem State.withSpares_aside (s : State) (d) (f : State → State) (hf : ∀ t, (f t).aside = t.aside) :
    (State.withSpares s d f).aside = s.aside := by
  simp only [State.withSpares, State.spareEvents_aside, hf]

theorem State.queueRefresh_aside (s : State) (d) (b) : (State.queueRefresh s d b).aside = s.aside := by
  simp only [State.queueRefresh, aside_sec, aside_ite, ite_self]

theorem State.readLimit_aside (s : State) (d) (b) : (State.readLimit s d b).aside = s.aside := by
  simp only [State.readLimit, aside_ite, ite_self, State.queueRefresh_aside]

theorem State.countReads_aside (s : State) (d) (b) (n) : (State.countReads s d b n).aside = s.aside := by
  simp only [State.countReads, State.readLimit_aside, State.setBlock_aside]

theorem State.noteStart_aside (s : State) (d) (e) : (State.noteStart s d e).aside = s.aside := by
  unfold State.noteStart; repeat' split
  all_goals simp only [State.countReads_aside, State.setBlock_aside, State.sealPages_aside]

theorem State.deferErase_aside (s : State) (d) (b) (next) : (State.deferErase s d b next).aside = s.aside := by
  simp only [State.deferErase, aside_ite, ite_self, State.setDie_aside, State.setBlock_aside]

theorem State.takeSpare_aside {s : State} {d} {role} {use} {i t} (h : State.takeSpare s d role use = some (i, t)) :
    t.aside = s.aside := by
  unfold State.takeSpare at h
  repeat' split at h
  all_goals cases h
  exact State.withSpares_aside _ _ _ fun u => State.setBlock_aside u _ _ _

theorem State.retire_aside (s : State) (d) (b) (cause) : (State.retire s d b cause).aside = s.aside := by
  unfold State.retire
  extract_lets k v s1 d1 s2 s3 repl
  have h3 : s3.aside = s.aside := by simp only [s3, s2, s1, State.event_aside, State.setDie_aside, State.withSpares_aside,
      State.setBlock_aside, implies_true]
  have hr : ∀ u, (repl u).aside = s.aside := fun u => by
    simp only [repl]
    split
    · next h =>
      have ht := (State.takeSpare_aside h).trans h3
      split <;> simp only [aside_mk, ht]
    · exact h3
  clear_value s3 repl
  repeat' split
  all_goals simp only [h3, hr]

theorem State.programNow_aside (s : State) (d) (b) (pages) (flush) : (State.programNow s d b pages flush).aside = s.aside := by
  simp only [State.programNow, State.noteStart_aside, State.layPages_aside]

theorem State.journalBlocks_aside (s : State) : (State.journalBlocks s).aside = s.aside := by
  simp only [State.journalBlocks, aside_sec, aside_ite, ite_self]

theorem State.journalWrite_aside (s : State) (flush) : (State.journalWrite s flush).aside = s.aside := by
  simp only [State.journalWrite, aside_foldl, implies_true, State.journalBlocks_aside, State.programNow_aside]

theorem State.freeSystem_aside (s : State) (l) : (State.freeSystem s l).aside = s.aside := by
  simp only [State.freeSystem, aside_foldl, implies_true, State.deferErase_aside]

theorem State.journal_aside (s : State) : (State.journal s).aside = s.aside := by
  simp only [State.journal, aside_sec, State.takeSeq_aside]

theorem State.journalUnits_aside (s : State) (f : State → State) (hf : ∀ t, (f t).aside = t.aside) :
    (State.journalUnits s f).aside = s.aside := by
  unfold State.journalUnits
  rw [aside_mk]
  exact aside_times _ (fun t => by simp only [aside_mk, hf]) _ _

end Sys2Proof.Machine
end

section
/-! Settles O47: the key operations. -/

namespace Sys2Proof.Proofs

open Sys2Proof Sys2Proof.Machine

section Journal

variable {s t : State}

theorem sec_of_aside (h : t.aside = s.aside) : t.sec = s.sec := congrArg Aside.sec h

theorem cmp_of_aside (h : t.aside = s.aside) : t.cmp = s.cmp := congrArg Aside.cmp h

theorem car_of_aside (h : t.aside = s.aside) : t.car = s.car := congrArg Aside.car h

theorem fcd_of_aside (h : t.aside = s.aside) : t.fcd = s.fcd := congrArg Aside.fcd h

/-- What the journal writes at once leaves everything as it was but what is durable (R206). -/
theorem journalNow_aside (s : State) : s.journalNow.aside = s.aside := by
  unfold State.journalNow
  dsimp only
  rw [aside_mk]
  exact State.journalUnits_aside s _ fun u => State.journalWrite_aside u false

theorem journalNow_sameZones (s : State) : SameZones s s.journalNow := by
  obtain ⟨-, desk, -⟩ := journalUnits_facts (f := fun u => u.journalWrite false) (fun u => State.journalWrite_log u false)
    (fun u => journalWrite_desk u false) s
  refine sameZones_of_desk ?_
  unfold State.journalNow
  dsimp only
  rw [desk_mk]
  exact desk

theorem SameZones.trans {u : State} (x : SameZones s t) (y : SameZones t u) : SameZones s u := by
  rw [SameZones] at *
  rw [y, x]

end Journal

section Keys

variable {s : State} {slot : Nat}

theorem keyOp_busy (busy : s.sec.keyDone = false) (q : Bool) (f : State → State) :
    s.keyOp slot q f = { s with sec := { s.sec with keyStatus := 4 } } := by
  rw [State.keyOp, busy]; rfl

theorem keyOp_refused (idle : s.sec.keyDone = true) {q : Bool} (shut : s.keyAllowed slot q = false) (f : State → State) :
    s.keyOp slot q f = s.keyAnswer 3 := by
  rw [State.keyOp, idle, shut]; rfl

theorem keyOp_runs (idle : s.sec.keyDone = true) {q : Bool} (may : s.keyAllowed slot q = true) (f : State → State) : s.keyOp slot q f = f s := by
  rw [State.keyOp, idle, may]; rfl

/-- A slot takes a query where it is that of no Free compartment. -/
theorem keyAllowed_query (inside : slot ≤ 1039) (used : slot = 0 ∨ 1024 ≤ slot ∨ (s.comp slot).state ≠ .free) : s.keyAllowed slot true = true := by
  simp only [State.keyAllowed, Bool.true_or, Bool.and_true, Bool.and_eq_true, Bool.or_eq_true, decide_eq_true_eq]
  exact ⟨inside, by tauto⟩

/-- A slot takes the other operations where it is neither 0 nor 1,024 besides. -/
theorem keyAllowed_fill (inside : slot ≤ 1039) (main : slot ≠ 0) (journal : slot ≠ 1024) (used : 1024 ≤ slot ∨ (s.comp slot).state ≠ .free) :
    s.keyAllowed slot false = true := by
  simp only [State.keyAllowed, Bool.false_or, Bool.and_eq_true, Bool.or_eq_true, decide_eq_true_eq]
  exact ⟨⟨⟨inside, journal⟩, main⟩, by tauto⟩

theorem keyAllowed_not (bad : slot = 0 ∨ slot = 1024 ∨ 1039 < slot ∨ (slot < 1024 ∧ (s.comp slot).state = .free)) : s.keyAllowed slot false = false := by
  rw [Bool.eq_false_iff]
  intro may
  simp only [State.keyAllowed, Bool.false_or, Bool.and_eq_true, Bool.or_eq_true, decide_eq_true_eq] at may
  obtain ⟨⟨⟨inside, journal⟩, main⟩, used⟩ := may
  obtain zero | whole | beyond | ⟨low, free⟩ := bad
  · exact main zero
  · exact journal whole
  · omega
  · obtain (zero | high) | other := used
    · exact main zero
    · omega
    · exact other free

/-- A filled slot and its journal entry: no other key, no zone and no status changes. -/
theorem fillKey_facts (s : State) (slot : Nat) {k : Nat} (key : k ≠ 0) :
    (s.fillKey slot k).sec = { s.sec with keys := put 0 s.sec.keys slot k } ∧ look 0 (put 0 s.sec.keys slot k) slot = k ∧
      (∀ n, n ≠ slot → look 0 (put 0 s.sec.keys slot k) n = look 0 s.sec.keys n) ∧
      (s.mnt.state = 4 → (s.fillKey slot k).nv.keys = put 0 s.sec.keys slot k) ∧ SameZones s (s.fillKey slot k) := by
  obtain ⟨u, hu⟩ : ∃ u, u = if slot < 1024 then ({ s with sec := { s.sec with keys := put 0 s.sec.keys slot k } } : State).setComp slot
      { s.comp slot with keyErased := false } else { s with sec := { s.sec with keys := put 0 s.sec.keys slot k } } := ⟨_, rfl⟩
  have fills : s.fillKey slot k = u.journalNow := by rw [hu, State.fillKey]; rfl
  have parts : u.sec = { s.sec with keys := put 0 s.sec.keys slot k } ∧ u.mnt = s.mnt ∧ u.zns = s.zns := by
    rw [hu]; split <;> exact ⟨rfl, rfl, rfl⟩
  obtain ⟨sec, mnt, zns⟩ := parts
  rw [fills]
  refine ⟨(sec_of_aside (journalNow_aside u)).trans sec, look_put_of_ne _ _ _ _ key, fun n ne => look_put_other _ _ _ _ _ ne, fun mounted => ?_, ?_⟩
  · have kept : u.journalNow.nv = u.durableNow := by rw [State.journalNow]
    rw [kept, (durableNow_mounted (by rw [mnt]; exact mounted)).2.1, sec]
  · have same := journalNow_sameZones u
    rw [SameZones, zns] at same
    exact same

/-- A command of the security block wakes the block's clock, and no more, before it does its work. -/
theorem startClock_eq (s : State) (d : Nat) : ∃ m, s.startClock d = s.startClocks m := ⟨_, rfl⟩

theorem keyAnswer_sec (s : State) (st : Nat) : (s.keyAnswer st).sec = { s.sec with keyStatus := st, keyData := List.replicate 9 0 } := rfl

theorem keyAnswer_nv (s : State) (st : Nat) : (s.keyAnswer st).nv = s.nv := rfl

theorem keyAnswer_zns (s : State) (st : Nat) : (s.keyAnswer st).zns = s.zns := rfl

theorem keyAnswer_draw (s : State) (st : Nat) : (s.draw.keyAnswer st).sec = (s.keyAnswer st).sec ∧ (s.draw.keyAnswer st).nv = s.nv ∧
    (s.draw.keyAnswer st).zns = s.zns := ⟨rfl, rfl, rfl⟩

/-- A fill that ends with status 0. -/
theorem filled_of_fillKey {i : Instr} {name : String} {t : State} {k : Nat} {m : BitVec 256} {P : Nat → Prop} (awake : s.awake = true)
    (run : exec i s = arises s.awake name t) (sec' : t.sec = (((s.startClocks m).fillKey slot k).keyAnswer 0).sec)
    (nv' : t.nv = ((s.startClocks m).fillKey slot k).nv) (zns' : t.zns = ((s.startClocks m).fillKey slot k).zns) (key : k ≠ 0) (holds : P k) :
    Goes i s (fun t => t.sec.keyStatus = 0 ∧ t.sec.keyData = List.replicate 9 0 ∧ look 0 t.sec.keys slot ≠ 0 ∧ P (look 0 t.sec.keys slot) ∧
      (∀ n, n ≠ slot → look 0 t.sec.keys n = look 0 s.sec.keys n) ∧ (s.mnt.state = 4 → t.nv.keys = t.sec.keys) ∧ SameZones s t) := by
  obtain ⟨u, hu⟩ : ∃ u, u = s.startClocks m := ⟨_, rfl⟩
  have parts : u.sec = s.sec ∧ u.mnt = s.mnt ∧ u.zns = s.zns := by rw [hu, State.startClocks]; exact ⟨rfl, rfl, rfl⟩
  rw [← hu] at sec' nv' zns'
  obtain ⟨sec0, mnt0, zns0⟩ := parts
  obtain ⟨sec, here, others, durable, zones⟩ := fillKey_facts u slot key
  rw [sec0] at sec here others durable
  rw [SameZones, zns0] at zones
  have keys : t.sec.keys = put 0 s.sec.keys slot k := by rw [sec', keyAnswer_sec, sec]
  refine goes_of_arises run awake ⟨by rw [sec', keyAnswer_sec], by rw [sec', keyAnswer_sec], ?_, ?_, fun n ne => ?_, fun mounted => ?_, ?_⟩
  · rw [keys, here]; exact key
  · rw [keys, here]; exact holds
  · rw [keys]; exact others n ne
  · rw [nv', durable (by rw [mnt0]; exact mounted), keys]
  · exact (zns'.trans zones).trans (by rw [zns'])

end Keys

section Rows

variable {s : State} {slot : Nat}

/-- What a key operation may be: the form each of them runs in. -/
theorem exec_keyGenerate : exec (.keyGenerate slot) s = arises s.awake "KEY_GENERATE" ((s.startClock 3).keyOp slot false (fun t =>
    if look 0 t.sec.keys slot ≠ 0 then t.keyAnswer 1
    else ((t.fillKey slot (Config.freeNat t.free % 2 ^ 512 + 1)).draw).keyAnswer 0)) := (show _ = execKeyGenerate slot s from rfl)

theorem exec_keyInstall : exec (.keyInstall slot) s = arises s.awake "KEY_INSTALL" ((s.startClock 3).keyOp slot false (fun t =>
    if look 0 t.sec.keys slot ≠ 0 then t.keyAnswer 1
    else (t.fillKey slot (leNat (t.keyBytes.take 64) + 1)).keyAnswer 0)) := (show _ = execKeyInstall slot s from rfl)

theorem exec_keyInstallWrapped : exec (.keyInstallWrapped slot) s = arises s.awake "KEY_INSTALL_WRAPPED" ((s.startClock 3).keyOp slot false
    (fun t => if look 0 t.sec.keys slot ≠ 0 then t.keyAnswer 1
      else if look 0 t.sec.keys State.recordSlot = 0 then t.keyAnswer 2
      else match t.unwrapKey t.keyBytes with
        | some k => (t.fillKey slot k).keyAnswer 0
        | none => t.keyAnswer 2)) := (show _ = execKeyInstallWrapped slot s from rfl)

theorem exec_keyErase : exec (.keyErase slot) s = arises s.awake "KEY_ERASE" ((s.startClock 3).keyOp slot false (fun t =>
    if look 0 t.sec.keys slot = 0 then ((t.eraseKey slot).journalNow).keyAnswer 0
    else ({ (t.eraseKey slot).journalNow with sec := { ((t.eraseKey slot).journalNow).sec with
      keyErasing := some (slot, look 0 t.sec.keys slot), keyDone := false } } : State).settleKey)) :=
  (show _ = execKeyErase slot s from rfl)

theorem exec_keyQuery : exec (.keyQuery slot) s = arises s.awake "KEY_QUERY" ((s.startClock 3).keyOp slot true (fun t =>
    ({ t with sec := { t.sec with keyPresent := decide (look 0 t.sec.keys slot ≠ 0) } } : State).keyAnswer 0)) :=
  (show _ = execKeyQuery slot s from rfl)

/-- A key operation that ends with a status and nothing else. -/
theorem keyOnly {i : Instr} {name : String} {q : Bool} {f : State → State} {st : Nat} (awake : s.awake = true)
    (run : exec i s = arises s.awake name ((s.startClock 3).keyOp slot q f)) (ends : ∀ m, (s.startClocks m).keyOp slot q f = (s.startClocks m).keyAnswer st) :
    Goes i s (fun t => t = clocked { s with sec := { s.sec with keyStatus := st, keyData := List.replicate 9 0 } } t) := by
  obtain ⟨m, hm⟩ := startClock_eq s 3
  refine goes_of_arises run awake ?_
  rw [hm, ends]
  rfl

theorem key_busy {i : Instr} {name : String} {q : Bool} {f : State → State} (awake : s.awake = true) (busy : s.sec.keyDone = false)
    (run : exec i s = arises s.awake name ((s.startClock 3).keyOp slot q f)) :
    Goes i s (fun t => t = clocked { s with sec := { s.sec with keyStatus := 4 } } t) := by
  obtain ⟨m, hm⟩ := startClock_eq s 3
  refine goes_of_arises run awake ?_
  rw [hm, keyOp_busy (s := s.startClocks m) busy]
  rfl

end Rows

section Settling

variable {s : State} {slot : Nat}

/-- With no command in flight and no job waiting an erase ends at once. -/
theorem settleKey_quiet (flights : s.car.flights = []) (jobs : s.fcd.jobs = []) {k : Nat × Nat} (waits : s.sec.keyErasing = some k) :
    s.settleKey = { s with sec := { s.sec with keyErasing := none, keyDone := true, keyStatus := 0, keyData := List.replicate 9 0 } } := by
  rw [State.settleKey, waits]
  obtain ⟨slot, key⟩ := k
  dsimp only
  rw [flights, jobs]
  rfl

/-- What an erase of a slot changes: its key, and the mark of its compartment. -/
theorem eraseKey_facts (canonical : canon 0 s.sec.keys = true) (main : slot ≠ 0) (used : 1024 ≤ slot ∨ (s.comp slot).state ≠ .free) :
    (s.eraseKey slot).sec = { s.sec with keys := put 0 s.sec.keys slot 0 } ∧ look 0 (put 0 s.sec.keys slot 0) slot = 0 ∧
      (∀ n, n ≠ slot → look 0 (put 0 s.sec.keys slot 0) n = look 0 s.sec.keys n) ∧
      (slot < 1024 → ((s.eraseKey slot).comp slot).keyErased = true) ∧ (s.eraseKey slot).zns = s.zns ∧ (s.eraseKey slot).car = s.car ∧
      (s.eraseKey slot).fcd = s.fcd := by
  have parts : (s.eraseKey slot).sec = { s.sec with keys := put 0 s.sec.keys slot 0 } ∧ (s.eraseKey slot).zns = s.zns ∧
      (s.eraseKey slot).car = s.car ∧ (s.eraseKey slot).fcd = s.fcd := by
    unfold State.eraseKey
    dsimp only
    split <;> exact ⟨rfl, rfl, rfl, rfl⟩
  obtain ⟨sec, zns, car, fcd⟩ := parts
  refine ⟨sec, look_put _ _ _ _ canonical, fun n ne => look_put_other _ _ _ _ _ ne, fun low => ?_, zns, car, fcd⟩
  have mine : 1 ≤ slot ∧ slot < 1024 ∧ (s.comp slot).state ≠ .free := ⟨by omega, low, used.resolve_left (by omega)⟩
  have marked : ({ s.comp slot with keyErased := true } : Comp) ≠ Comp.free := fun e =>
    Bool.noConfusion (show true = false from congrArg Comp.keyErased e)
  unfold State.eraseKey
  dsimp only
  rw [if_pos mine]
  exact congrArg Comp.keyErased (look_put_of_ne _ s.cmp.table slot _ marked)

theorem keyErase_goes (awake : s.awake = true) (idle : s.sec.keyDone = true) (may : s.keyAllowed slot false = true)
    (canonical : canon 0 s.sec.keys = true) (main : slot ≠ 0) (used : 1024 ≤ slot ∨ (s.comp slot).state ≠ .free)
    (flights : s.car.flights = []) (jobs : s.fcd.jobs = []) : Goes (.keyErase slot) s (fun t =>
      look 0 t.sec.keys slot = 0 ∧ (∀ n, n ≠ slot → look 0 t.sec.keys n = look 0 s.sec.keys n) ∧ t.sec.keyStatus = 0 ∧
      t.sec.keyDone = true ∧ (slot < 1024 → (t.comp slot).keyErased = true) ∧ SameZones s t) := by
  obtain ⟨m, hm⟩ := startClock_eq s 3
  obtain ⟨u, hu⟩ : ∃ u, u = s.startClocks m := ⟨_, rfl⟩
  have parts : u.sec = s.sec ∧ u.cmp = s.cmp ∧ u.zns = s.zns ∧ u.car = s.car ∧ u.fcd = s.fcd := by
    rw [hu, State.startClocks]; exact ⟨rfl, rfl, rfl, rfl, rfl⟩
  obtain ⟨sec0, cmp0, zns0, car0, fcd0⟩ := parts
  have used_u : 1024 ≤ slot ∨ (u.comp slot).state ≠ .free := by rw [State.comp, cmp0]; exact used
  obtain ⟨sec1, gone, others, marked, zns1, car1, fcd1⟩ := eraseKey_facts (s := u) (by rw [sec0]; exact canonical) main used_u
  obtain ⟨w, hw⟩ : ∃ w, w = (u.eraseKey slot).journalNow := ⟨_, rfl⟩
  have aside : w.aside = (u.eraseKey slot).aside := by rw [hw]; exact journalNow_aside _
  have sec2 : w.sec = { u.sec with keys := put 0 u.sec.keys slot 0 } := (sec_of_aside aside).trans sec1
  have zones : SameZones (u.eraseKey slot) w := by rw [hw]; exact journalNow_sameZones _
  rw [SameZones, zns1, zns0] at zones
  have comp : slot < 1024 → (w.comp slot).keyErased = true := fun low => by
    rw [State.comp, cmp_of_aside aside]
    exact marked low
  rw [sec0] at gone others
  have ends : ∀ t : State, t.sec.keys = w.sec.keys → t.sec.keyStatus = 0 → t.sec.keyDone = true → t.cmp = w.cmp → t.zns = w.zns →
      look 0 t.sec.keys slot = 0 ∧ (∀ n, n ≠ slot → look 0 t.sec.keys n = look 0 s.sec.keys n) ∧ t.sec.keyStatus = 0 ∧
      t.sec.keyDone = true ∧ (slot < 1024 → (t.comp slot).keyErased = true) ∧ SameZones s t := fun t keys status done cmp zns => by
    have keys' : t.sec.keys = put 0 s.sec.keys slot 0 := by rw [keys, sec2, sec0]
    refine ⟨by rw [keys', gone], fun n ne => by rw [keys', others n ne], status, done, fun low => ?_, ?_⟩
    · rw [State.comp, cmp]
      exact comp low
    · exact (zns.trans zones).trans (by rw [zns])
  have may_u : u.keyAllowed slot false = true := by rw [hu]; exact may
  have idle_u : u.sec.keyDone = true := by rw [sec0]; exact idle
  refine goes_of_arises exec_keyErase awake ?_
  rw [hm, ← hu, keyOp_runs idle_u may_u, ← hw]
  dsimp only
  split
  · refine ends _ ?_ ?_ ?_ rfl rfl
    · rw [keyAnswer_sec]
    · rw [keyAnswer_sec]
    · rw [keyAnswer_sec, sec2, sec0]
      exact idle
  · have flights' : w.car.flights = [] := by rw [car_of_aside aside, car1, car0]; exact flights
    have jobs' : w.fcd.jobs = [] := by rw [fcd_of_aside aside, fcd1, fcd0]; exact jobs
    rw [settleKey_quiet (s := { w with sec := { w.sec with keyErasing := some (slot, look 0 u.sec.keys slot), keyDone := false } }) flights' jobs' rfl]
    exact ends _ rfl rfl rfl rfl rfl

end Settling

/-- Settles O47: each operation runs where none is running and its slot takes it, and ends with its status. -/
theorem keyOperationsAnswer : Obligations.KeyOperationsAnswer := by
  unfold Obligations.KeyOperationsAnswer
  intro s slot awake
  refine ⟨fun busy i mem => ?_, fun idle => ⟨fun beyond => ?_, fun bad => ?_, fun inside used => ?_, fun inside main journal used => ⟨fun full => ?_, fun empty => ?_,
    fun canonical flights jobs _ => keyErase_goes awake idle (keyAllowed_fill inside main journal used) canonical main used flights jobs⟩⟩⟩
  · simp only [List.mem_cons, List.not_mem_nil, or_false] at mem
    obtain rfl | rfl | rfl | rfl | rfl := mem
    · exact key_busy awake busy exec_keyQuery
    · exact key_busy awake busy exec_keyGenerate
    · exact key_busy awake busy exec_keyInstall
    · exact key_busy awake busy exec_keyInstallWrapped
    · exact key_busy awake busy exec_keyErase
  · have shut : s.keyAllowed slot true = false := by
      rw [State.keyAllowed, decide_eq_false (by omega)]
      rfl
    exact keyOnly awake exec_keyQuery fun m => keyOp_refused (s := s.startClocks m) idle shut _
  · have shut := keyAllowed_not (s := s) bad
    exact ⟨keyOnly awake exec_keyGenerate fun m => keyOp_refused (s := s.startClocks m) idle shut _,
      keyOnly awake exec_keyInstall fun m => keyOp_refused (s := s.startClocks m) idle shut _,
      keyOnly awake exec_keyInstallWrapped fun m => keyOp_refused (s := s.startClocks m) idle shut _,
      keyOnly awake exec_keyErase fun m => keyOp_refused (s := s.startClocks m) idle shut _⟩
  · have may := keyAllowed_query (s := s) inside used
    obtain ⟨m, hm⟩ := startClock_eq s 3
    refine goes_of_arises exec_keyQuery awake ?_
    rw [hm, keyOp_runs (s := s.startClocks m) idle may]
    rfl
  · have may := keyAllowed_fill (s := s) inside main journal used
    have answers : ∀ (m : BitVec 256) (f : State → State), f (s.startClocks m) = (s.startClocks m).keyAnswer 1 →
        (s.startClocks m).keyOp slot false f = (s.startClocks m).keyAnswer 1 := fun m f e => (keyOp_runs (s := s.startClocks m) idle may f).trans e
    exact ⟨keyOnly awake exec_keyGenerate fun m => answers m _ (if_pos full), keyOnly awake exec_keyInstall fun m => answers m _ (if_pos full),
      keyOnly awake exec_keyInstallWrapped fun m => answers m _ (if_pos full)⟩
  · have may := keyAllowed_fill (s := s) inside main journal used
    have runs : ∀ (m : BitVec 256) (f : State → State), (s.startClocks m).keyOp slot false f = f (s.startClocks m) := fun m f =>
      keyOp_runs (s := s.startClocks m) idle may f
    obtain ⟨m, hm⟩ := startClock_eq s 3
    have free : ∀ m, ¬ look 0 (s.startClocks m).sec.keys slot ≠ 0 := fun m => not_not_intro empty
    refine ⟨?_, ?_, fun unkeyed => ?_, fun keyed bad => ?_, fun k keyed good key => ?_⟩
    · have drawn := keyAnswer_draw ((s.startClocks m).fillKey slot (Config.freeNat (s.startClocks m).free % 2 ^ 512 + 1)) 0
      exact filled_of_fillKey (P := fun _ => True) (m := m) (k := Config.freeNat (s.startClocks m).free % 2 ^ 512 + 1) awake
        (exec_keyGenerate.trans (by rw [hm, runs, if_neg (free m)])) drawn.1 drawn.2.1 drawn.2.2 (Nat.succ_ne_zero _) trivial
    · exact filled_of_fillKey (P := fun k => k = leNat ((s.sec.keyData.flatMap (fun w => leBytes 8 w.toNat)).take 64) + 1) (m := m) (k := leNat ((s.startClocks m).keyBytes.take 64) + 1) awake
        (exec_keyInstall.trans (by rw [hm, runs, if_neg (free m)])) rfl (keyAnswer_nv _ _) (keyAnswer_zns _ _) (Nat.succ_ne_zero _) rfl
    · exact keyOnly awake exec_keyInstallWrapped fun m => (runs m _).trans ((if_neg (free m)).trans (if_pos unkeyed))
    · refine keyOnly awake exec_keyInstallWrapped fun m => (runs m _).trans ((if_neg (free m)).trans ((if_neg keyed).trans ?_))
      rw [show (s.startClocks m).unwrapKey (s.startClocks m).keyBytes = none from bad]
    · refine filled_of_fillKey (P := fun x => x = k) (name := "KEY_INSTALL_WRAPPED") (m := m) (k := k) awake (exec_keyInstallWrapped.trans ?_) rfl (keyAnswer_nv _ _) (keyAnswer_zns _ _) key rfl
      rw [hm, runs, if_neg (free m), if_neg (show ¬ look 0 (s.startClocks m).sec.keys State.recordSlot = 0 from keyed),
        show (s.startClocks m).unwrapKey (s.startClocks m).keyBytes = some k from good]

end Sys2Proof.Proofs
end

section
/-! SUPPORT. Retirements and the writes of the option copies (R192, R193, R199, R200). -/

namespace Sys2Proof.Machine

open Sys2Proof

theorem warning_frame (s : State) (bit info : Nat) : EventFrame s (s.warning bit info) := by
  have all : ∀ (l : List (Nat × Option Features)) (t : State), EventFrame s t →
      EventFrame s (l.foldl (fun t e => t.compAsync e.1 bit 1 info 2) t) := fun l => by
    induction l with
    | nil => exact fun _ x => x
    | cons e l ih => exact fun t x => ih _ (x.trans (Sys2Proof.Proofs.compAsync_frame t e.1 bit 1 info 2))
  exact all _ _ ((Sys2Proof.Proofs.portAsync_frame s 0 bit 1 info 2).trans (Sys2Proof.Proofs.portAsync_frame _ 1 bit 1 info 2))

/-- The events that a spare block's change brings (R193). -/
theorem spareEvents_frame (s : State) (d before : Nat) : EventFrame s (s.spareEvents d before) := by
  have first : EventFrame s (if 28 ≤ before ∧ s.spareMin (d / 64 * 4 + d % 4) < 28 then
      (s.event 0x0301 2 (srcRegion ((d / 64 * 4 + d % 4) % 2) 1) 0 [(d / 64 * 4 + d % 4 : Nat), s.spareMin (d / 64 * 4 + d % 4)]).warning 0 2 else s) := by
    split
    · exact (event_frame _ _ _ _ _ _).trans (warning_frame _ _ _)
    · exact .refl s
  unfold State.spareEvents
  dsimp only
  split
  · exact first.trans (event_frame _ _ _ _ _ _)
  · exact first

theorem State.withSpares_log (s : State) (d : Nat) (f : State → State) (hf : ∀ t, (f t).log = t.log) : (State.withSpares s d f).log = s.log :=
  (log_of_eventFrame (spareEvents_frame _ _ _)).trans (hf s)

theorem State.takeSpare_log {s : State} {d : Nat} {role : Role} {use : BlockUse} {i : Nat} {t : State}
    (h : State.takeSpare s d role use = some (i, t)) : t.log = s.log := by
  unfold State.takeSpare at h
  repeat' split at h
  all_goals cases h
  exact State.withSpares_log _ _ _ fun u => State.setBlock_log u _ _ _

/-- What a retirement leaves: the components of `log`, and of `desk`. -/
theorem State.retire_log_desk (s : State) (d b cause : Nat) : (s.retire d b cause).log = s.log ∧ (s.retire d b cause).desk = s.desk := by
  unfold State.retire
  extract_lets k v s1 d1 s2 s3 repl
  have h3 : s3.log = s.log ∧ s3.desk = s.desk :=
    ⟨((State.event_log ..).trans (State.setDie_log ..)).trans (State.withSpares_log _ _ _ fun t => State.setBlock_log t _ _ _),
      ((State.event_desk ..).trans (State.setDie_desk ..)).trans (State.withSpares_desk _ _ _ fun t => State.setBlock_desk t _ _ _)⟩
  have hr : ∀ u, (repl u).log = s.log ∧ (repl u).desk = s.desk := fun u => by
    simp only [repl]
    split
    · next h =>
      have log := (State.takeSpare_log h).trans h3.1
      have desk := (State.takeSpare_desk h).trans h3.2
      split
      · exact ⟨log, desk⟩
      · exact ⟨log, desk⟩
    · exact h3
  clear_value s3 repl
  split
  · exact ⟨rfl, rfl⟩
  · split
    · split
      · exact hr _
      · exact h3
    · split
      · exact h3
      · exact hr _
    · split
      · exact h3
      · exact h3
      · exact h3
      · exact hr _
    · exact h3

end Sys2Proof.Machine
end

section
/-! Settles O46: the option area's commit and reload (R199, R549 to R552). -/

namespace Sys2Proof.Proofs

open Sys2Proof Sys2Proof.Machine

section Copies

variable {s t : State} {i : Nat} {c : OptCopy}

theorem modAt_modAt {α : Type} (l : List α) (i : Nat) (a b : α) : modAt (modAt l i (fun _ => a)) i (fun _ => b) = modAt l i (fun _ => b) := by
  simp only [modAt, List.mapIdx_mapIdx]
  refine List.mapIdx_eq_mapIdx_iff.mpr fun j _ => ?_
  simp only [Function.comp_apply]
  split <;> rfl

/-- Copy `i` is replaced, and nothing else of what programs leave as it was. -/
def CopyReplaced (i : Nat) (c : OptCopy) (s t : State) : Prop :=
  t.aside = { s.aside with sec := { s.sec with optCopies := modAt s.sec.optCopies i (fun _ => c) } } ∧
    t.log = { s.log with sec := { s.sec with optCopies := modAt s.sec.optCopies i (fun _ => c) } } ∧ t.desk = s.desk

theorem copyReplaced_setCopy (aside : t.aside = s.aside) (log : t.log = s.log) (desk : t.desk = s.desk) (i : Nat) (c : OptCopy) :
    CopyReplaced i c s (t.setCopy i c) := by
  have sec := sec_of_aside aside
  refine ⟨?_, ?_, desk⟩
  · rw [← aside, ← sec]; rfl
  · rw [← log, ← sec]; rfl

theorem CopyReplaced.sec (h : CopyReplaced i c s t) : t.sec = { s.sec with optCopies := modAt s.sec.optCopies i (fun _ => c) } := congrArg Aside.sec h.1

theorem CopyReplaced.again {u : State} {c' : OptCopy} (x : CopyReplaced i c s t) (y : CopyReplaced i c' t u) : CopyReplaced i c' s u := by
  have sec := x.sec
  obtain ⟨aside, log, desk⟩ := x
  obtain ⟨aside', log', desk'⟩ := y
  refine ⟨?_, ?_, desk'.trans desk⟩
  · rw [aside', aside, sec]; simp only [modAt_modAt]
  · rw [log', log, sec]; simp only [modAt_modAt]

/-- The copy after its block is erased where the copy moves (R199). -/
def copyReady (s : State) (i b : Nat) (move : Bool) : State :=
  if move && decide (0 < (s.block (State.copyDie i) b).wp) then
    (s.eraseCells (State.copyDie i) b).setBlock (State.copyDie i) b (State.erasedBlock (s.block (State.copyDie i) b) .eraseSlc)
  else s

/-- The copy's pages are programmed. -/
def copyPrograms (s : State) (i : Nat) (img : OptImage) (b : Nat) (move : Bool) : State :=
  let t := (State.takeSeq (copyReady s i b move) 1).2
  t.programNow (State.copyDie i) b (State.optionPages img ((copyReady s i b move).block (State.copyDie i) b).wp t.zns.seq s.now) false

theorem copyPrograms_kept (s : State) (i : Nat) (img : OptImage) (b : Nat) (move : Bool) :
    (copyPrograms s i img b move).aside = s.aside ∧ (copyPrograms s i img b move).log = s.log ∧ (copyPrograms s i img b move).desk = s.desk := by
  have ready : (copyReady s i b move).aside = s.aside ∧ (copyReady s i b move).log = s.log ∧ (copyReady s i b move).desk = s.desk := by
    rw [copyReady]; split <;> exact ⟨rfl, rfl, rfl⟩
  obtain ⟨aside, log, desk⟩ := ready
  exact ⟨(State.programNow_aside ..).trans ((State.takeSeq_aside ..).trans aside), (State.programNow_log ..).trans ((State.takeSeq_log ..).trans log),
    (State.noteStart_desk ..).trans ((State.layPages_desk ..).trans ((State.takeSeq_desk ..).trans desk))⟩

section Live

variable {img : OptImage} {good : Bool} {n fails : Nat}

theorem writeCopy_lost (dead : (s.die (State.copyDie i)).lost = true) :
    State.writeCopy (n + 1) s i img good fails = s.setCopy i { s.optCopy i with image := none } := by
  rw [State.writeCopy, dead]; rfl

theorem writeCopy_none (none_ : s.copyBlock i = none) :
    State.writeCopy (n + 1) s i img good fails = s.setCopy i { s.optCopy i with image := none } := by
  rw [State.writeCopy, none_]; simp only [ite_self]

variable {b : Nat} {move : Bool}

theorem writeCopy_fails (live : (s.die (State.copyDie i)).lost = false) (some_ : s.copyBlock i = some (b, move)) (more : 0 < fails) :
    State.writeCopy (n + 1) s i img good fails = State.writeCopy n (((copyPrograms s i img b move).retire (State.copyDie i) b 0).setCopy i
      { s.optCopy i with block := b, units := 384, retired := (s.optCopy i).retired ++ [b] }) i img good (fails - 1) := by
  rw [State.writeCopy, live, some_]; exact if_pos more

theorem writeCopy_written (live : (s.die (State.copyDie i)).lost = false) (some_ : s.copyBlock i = some (b, move)) :
    State.writeCopy (n + 1) s i img good 0 = (copyPrograms s i img b move).setCopy i
      { s.optCopy i with image := if good then some img else none, block := b, units := if move then 1 else (s.optCopy i).units + 1 } := by
  rw [State.writeCopy, live, some_]; rfl

end Live

/-- A copy is written, or is not, and nothing else changes (R199). -/
theorem writeCopy_replaces (img : OptImage) (good : Bool) : ∀ (n : Nat) (s : State) (fails : Nat),
    ∃ c, CopyReplaced i c s (State.writeCopy n s i img good fails)
  | 0, s, _ => ⟨_, copyReplaced_setCopy rfl rfl rfl i _⟩
  | n + 1, s, fails => by
    cases live : (s.die (State.copyDie i)).lost
    case true =>
      rw [writeCopy_lost live]
      exact ⟨_, copyReplaced_setCopy rfl rfl rfl i _⟩
    case false =>
      cases block : s.copyBlock i
      case none =>
        rw [writeCopy_none block]
        exact ⟨_, copyReplaced_setCopy rfl rfl rfl i _⟩
      case some p =>
        obtain ⟨b, move⟩ := p
        obtain ⟨aside, log, desk⟩ := copyPrograms_kept s i img b move
        cases fails with
        | zero =>
          rw [writeCopy_written live block]
          exact ⟨_, copyReplaced_setCopy aside log desk i _⟩
        | succ f =>
          rw [writeCopy_fails live block (Nat.succ_pos f)]
          obtain ⟨rlog, rdesk⟩ := State.retire_log_desk (copyPrograms s i img b move) (State.copyDie i) b 0
          have first := copyReplaced_setCopy ((State.retire_aside ..).trans aside) (rlog.trans log) (rdesk.trans desk) i
            { s.optCopy i with block := b, units := 384, retired := (s.optCopy i).retired ++ [b] }
          obtain ⟨c, rest⟩ := writeCopy_replaces img good n _ _
          exact ⟨c, first.again rest⟩

end Copies

section Bytes

variable {V : Type} {d : V}

theorem look_filter {p : Nat → Bool} {k : Nat} (kept : p k = true) (m : SMap V) : look d (m.filter (fun e => p e.1)) k = look d m k := by
  induction m with
  | nil => rfl
  | cons e m ih =>
    obtain ⟨j, v⟩ := e
    by_cases jk : j = k
    · subst jk
      rw [List.filter_cons_of_pos (by exact kept), look, look, if_pos rfl, if_pos rfl]
    · rw [show look d ((j, v) :: m) k = look d m k from if_neg jk, ← ih, List.filter_cons]
      split
      · exact if_neg jk
      · rfl

theorem canonFrom_filter [DecidableEq V] (p : Nat × V → Bool) : ∀ (lo : Nat) (m : SMap V), canonFrom d lo m = true → canonFrom d lo (m.filter p) = true
  | _, [], _ => rfl
  | lo, (j, v) :: m, h => by
    simp only [canonFrom, Bool.and_eq_true, decide_eq_true_eq] at h
    obtain ⟨⟨low, used⟩, rest⟩ := h
    have below := canonFrom_filter p (j + 1) m rest
    rw [List.filter_cons]
    split
    · simp only [canonFrom, Bool.and_eq_true, decide_eq_true_eq]
      exact ⟨⟨low, used⟩, below⟩
    · exact canonFrom_mono d (by omega) _ below

end Bytes

section Commit

variable {s t : State} {img : OptImage}

/-- The copies of a list of numbers are written or not, and nothing else changes (R199). -/
def CopiesWritten (l : List Nat) (s t : State) : Prop :=
  ∃ cs, t.aside = { s.aside with sec := { s.sec with optCopies := cs } } ∧ t.log = { s.log with sec := { s.sec with optCopies := cs } } ∧
    t.desk = s.desk ∧ cs.length = s.sec.optCopies.length ∧ ∀ j ∉ l, cs[j]? = s.sec.optCopies[j]?

theorem modAt_other {α : Type} (l : List α) {i j : Nat} (ne : j ≠ i) (f : α → α) : (modAt l i f)[j]? = l[j]? := by
  simp only [modAt, List.getElem?_mapIdx, if_neg ne, Option.map_id']

theorem modAt_same {α : Type} {l : List α} {i : Nat} (inside : i < l.length) (a : α) : (modAt l i (fun _ => a))[i]? = some a := by
  rw [modAt, List.getElem?_mapIdx, List.getElem?_eq_getElem inside]
  exact congrArg some (if_pos rfl)

theorem copiesWritten_fold (good : Nat → Bool) (fails : Nat → Nat) : ∀ (l : List Nat) (s : State),
    CopiesWritten l s (l.foldl (fun t i => State.writeCopy 9 t i img (good i) (fails i)) s)
  | [], s => ⟨s.sec.optCopies, rfl, rfl, rfl, rfl, fun _ _ => rfl⟩
  | i :: l, s => by
    obtain ⟨c, one⟩ := writeCopy_replaces (i := i) img (good i) 9 s (fails i)
    obtain ⟨cs, aside, log, desk, len, others⟩ := copiesWritten_fold good fails l (State.writeCopy 9 s i img (good i) (fails i))
    have sec := one.sec
    obtain ⟨aside1, log1, desk1⟩ := one
    refine ⟨cs, ?_, ?_, desk.trans desk1, ?_, fun j out => ?_⟩
    · rw [List.foldl_cons, aside, aside1, sec]
    · rw [List.foldl_cons, log, log1, sec]
    · rw [len, sec]
      exact List.length_mapIdx
    · rw [others j (fun h => out (List.mem_cons_of_mem _ h)), sec]
      exact modAt_other _ (fun e => out (List.mem_cons.mpr (.inl e))) _

/-- What a commit stages: the next generation, with the level byte. -/
def commitImage (s : State) (level : Nat) : OptImage := {
  generation := (s.sec.optInForce.generation + 1) % 2 ^ 32
  bytes := put 0 (s.sec.optStage.filter (fun (e : Nat × Byte) => decide (16 ≤ e.1))) 32 (BitVec.ofNat 8 level) }

/-- The four copies written one after another. -/
def copiesOf (s : State) (level : Nat) (rb : BitVec 4) (fs : List Nat) : State :=
  [0, 1, 2, 3].foldl (fun t i => State.writeCopy 9 t i (commitImage s level) (rb.getLsbD i) (fs.filter (fun x => decide (x = i))).length) s

/-- The image that was written comes into force. -/
def imageInForce (s t : State) (level : Nat) : State :=
  { t with sec := { t.sec with optInForce := commitImage s level, optStage := put 0 t.sec.optStage 32 (BitVec.ofNat 8 level) } }

theorem commitOption_eq (level : Nat) (rb : BitVec 4) (fs : List Nat) : s.commitOption level false rb fs =
    if (copiesOf s level rb fs).copiesWith (commitImage s level) = 0 then (copiesOf s level rb fs, false)
    else ((imageInForce s (copiesOf s level rb fs) level).event 0x0F04 1 srcSecurity 0
      [(commitImage s level).generation, (copiesOf s level rb fs).copiesWith (commitImage s level)], true) := rfl

/-- The first copy holds what was written, where its die and a block of it are there. -/
theorem copiesOf_first {level : Nat} {rb : BitVec 4} {fs : List Nat} (reads : rb.getLsbD 0 = true) (four : s.sec.optCopies.length = 4)
    (live : (s.die 0).lost = false) (room : s.copyBlock 0 ≠ none) (sound : 0 ∉ fs) :
    ∃ cs c, (copiesOf s level rb fs).aside = { s.aside with sec := { s.sec with optCopies := cs } } ∧
      (copiesOf s level rb fs).log = { s.log with sec := { s.sec with optCopies := cs } } ∧ (copiesOf s level rb fs).desk = s.desk ∧
      cs[0]? = some c ∧ c.image = some (commitImage s level) := by
  obtain ⟨⟨b, move⟩, block⟩ := Option.ne_none_iff_exists'.mp room
  have none_ : (fs.filter (fun x => decide (x = 0))).length = 0 := by
    rw [List.length_eq_zero_iff, List.filter_eq_nil_iff]
    exact fun x mem => by
      rw [decide_eq_true_eq]
      exact fun e => sound (e ▸ mem)
  obtain ⟨c, hc⟩ : ∃ c : OptCopy, c = { s.optCopy 0 with image := if rb.getLsbD 0 then some (commitImage s level) else none
                                                         block := b, units := if move then 1 else (s.optCopy 0).units + 1 } := ⟨_, rfl⟩
  obtain ⟨u, hu⟩ : ∃ u, u = State.writeCopy 9 s 0 (commitImage s level) (rb.getLsbD 0) (fs.filter (fun x => decide (x = 0))).length := ⟨_, rfl⟩
  have wrote : u = (copyPrograms s 0 (commitImage s level) b move).setCopy 0 c := by
    rw [hu, hc, none_, writeCopy_written live block]
  obtain ⟨aside, log, desk⟩ := copyPrograms_kept s 0 (commitImage s level) b move
  have one : CopyReplaced 0 c s u := wrote ▸ copyReplaced_setCopy aside log desk 0 c
  have sec := one.sec
  obtain ⟨aside1, log1, desk1⟩ := one
  obtain ⟨cs, aside2, log2, desk2, -, others⟩ := copiesWritten_fold (img := commitImage s level) (fun i => rb.getLsbD i)
    (fun i => (fs.filter (fun x => decide (x = i))).length) [1, 2, 3] u
  have runs : copiesOf s level rb fs = [1, 2, 3].foldl (fun t i => State.writeCopy 9 t i (commitImage s level) (rb.getLsbD i)
      (fs.filter (fun x => decide (x = i))).length) u := by rw [hu]; rfl
  rw [runs]
  refine ⟨cs, c, ?_, ?_, desk2.trans desk1, ?_, ?_⟩
  · rw [aside2, aside1, sec]
  · rw [log2, log1, sec]
  · rw [others 0 (by decide), sec]
    exact modAt_same (by omega) c
  · rw [hc]
    exact if_pos reads

/-- A commit with a copy that reads back brings the next generation into force (R199, R551). -/
theorem commitOption_ok {level : Nat} {rb : BitVec 4} {fs : List Nat} (reads : rb.getLsbD 0 = true) (four : s.sec.optCopies.length = 4)
    (live : (s.die 0).lost = false) (room : s.copyBlock 0 ≠ none) (sound : 0 ∉ fs) :
    ∃ (t : State) (cs : List OptCopy) (c : OptCopy) (n : Nat), s.commitOption level false rb fs = (t.event 0x0F04 1 srcSecurity 0 [(commitImage s level).generation, n], true) ∧
      t.aside = { s.aside with sec := { s.sec with optCopies := cs, optInForce := commitImage s level,
                                                   optStage := put 0 s.sec.optStage 32 (BitVec.ofNat 8 level) } } ∧
      t.log = { s.log with sec := t.sec } ∧ t.desk = s.desk ∧ cs[0]? = some c ∧ c.image = some (commitImage s level) := by
  obtain ⟨cs, c, aside, log, desk, first, image⟩ := copiesOf_first (level := level) reads four live room sound
  obtain ⟨u, hu⟩ : ∃ u, u = copiesOf s level rb fs := ⟨_, rfl⟩
  rw [← hu] at aside log desk
  have sec : u.sec = { s.sec with optCopies := cs } := congrArg Aside.sec aside
  have some_ : u.copiesWith (commitImage s level) ≠ 0 := by
    rw [State.copiesWith, sec]
    exact Nat.ne_of_gt (List.length_pos_of_mem (List.mem_filter.mpr ⟨List.mem_of_getElem? first, decide_eq_true image⟩))
  refine ⟨imageInForce s u level, cs, c, u.copiesWith (commitImage s level), ?_, ?_, ?_, desk, first, image⟩
  · rw [commitOption_eq, ← hu, if_neg some_]
  · have all : (imageInForce s u level).aside = { u.aside with sec := (imageInForce s u level).sec } := rfl
    rw [all, aside, imageInForce, sec]
  · have all : (imageInForce s u level).log = { u.log with sec := (imageInForce s u level).sec } := rfl
    rw [all, log]

end Commit

end Sys2Proof.Proofs
end

section
/-! Settles O46: the rows of the option area (R199, R549 to R552). -/

namespace Sys2Proof.Proofs

open Sys2Proof Sys2Proof.Machine

section Rows

variable {s : State}

theorem exec_optionCommit (m : Bool) (rb : BitVec 4) (fs : List Nat) : exec (.optionCommit m ⟨rb, fs⟩) s =
    arises s.awake "OPTION_COMMIT" ((s.startClocks 0x108).optionCommit m rb fs) := (show _ = execOptionCommit m ⟨rb, fs⟩ s from rfl)

theorem exec_optionReload : exec .optionReload s = arises s.awake "OPTION_RELOAD" (s.startClocks 0x108).optionReload :=
  (show _ = execOptionReload s from rfl)

theorem optionCommit_refused {m : Bool} {rb : BitVec 4} {fs : List Nat} (other : (look 0 s.sec.optStage 32).toNat ≠ s.levelByte) :
    s.optionCommit m rb fs = { s with sec := { s.sec with optStatus := 1 } } := if_pos other

/-- The status a commit leaves (R551). -/
def committed (p : State × Bool) : State := { p.1 with sec := { p.1.sec with optStatus := if p.2 then 0 else 2 } }

theorem optionCommit_runs {m : Bool} {rb : BitVec 4} {fs : List Nat} (same : (look 0 s.sec.optStage 32).toNat = s.levelByte) :
    s.optionCommit m rb fs = committed (s.commitOption s.levelByte m rb fs) := by
  rw [State.optionCommit, if_neg (not_not_intro same)]
  generalize s.commitOption s.levelByte m rb fs = p
  rfl

/-- The bytes of the staged image from 16 on, with the level byte (R549). -/
theorem commitImage_look (canonical : canon 0 s.sec.optStage = true) (level : Nat) {a : Nat} (high : 16 ≤ a) :
    look 0 (commitImage s level).bytes a = if a = 32 then BitVec.ofNat 8 level else look 0 s.sec.optStage a := by
  rw [commitImage, look_put_if _ _ _ _ _ (canonFrom_filter _ _ _ canonical)]
  split
  · rfl
  · exact look_filter (p := fun k => decide (16 ≤ k)) (decide_eq_true high) _

/-- A commit in force: the status, the level, the image, the first copy and the event. -/
theorem optionCommit_ok {rb : BitVec 4} {fs : List Nat} (same : (look 0 s.sec.optStage 32).toNat = s.levelByte) (reads : rb.getLsbD 0 = true)
    (four : s.sec.optCopies.length = 4) (live : (s.die 0).lost = false) (room : s.copyBlock 0 ≠ none) (sound : 0 ∉ fs) :
    ∃ t, s.optionCommit false rb fs = t ∧ t.sec.optStatus = 0 ∧ t.sec.level = s.sec.level ∧ t.sec.optInForce = commitImage s s.levelByte ∧
      (∃ c, t.sec.optCopies[0]? = some c ∧ c.image = some (commitImage s s.levelByte)) ∧ SameZones s t ∧
      ∃ e n, t.hif.raised.head? = some e ∧ e.code = 0x0F04 ∧ e.payload = .fields [((commitImage s s.levelByte).generation : Int), n] := by
  obtain ⟨u, cs, c, n, runs, aside, -, desk, first, image⟩ := commitOption_ok (level := s.levelByte) reads four live room sound
  obtain ⟨v, hv⟩ : ∃ v, v = u.event 0x0F04 1 srcSecurity 0 [(commitImage s s.levelByte).generation, n] := ⟨_, rfl⟩
  have sec : v.sec = { s.sec with optCopies := cs, optInForce := commitImage s s.levelByte
                                  optStage := put 0 s.sec.optStage 32 (BitVec.ofNat 8 s.levelByte) } := by
    have all : v.aside = u.aside := by rw [hv, State.event_aside]
    exact (sec_of_aside all).trans (congrArg Aside.sec aside)
  have zones : SameZones s v := by
    rw [hv]
    exact sameZones_of_desk ((State.event_desk _ _ _ _ _ _).trans desk)
  have raised : v.hif.raised.head? = some (eventOf u 0x0F04 1 srcSecurity 0 (.fields [(commitImage s s.levelByte).generation, n])) := by
    rw [hv, raised_event]
    rfl
  refine ⟨_, rfl, ?_⟩
  rw [optionCommit_runs same, runs, ← hv]
  have first' : v.sec.optCopies[0]? = some c := by rw [sec]; exact first
  exact ⟨rfl, (congrArg Security.level sec :), (congrArg Security.optInForce sec :), ⟨c, first', image⟩, zones, _, _, raised, rfl, rfl⟩

/-- With the four dies lost no copy is left, and the commit fails (R199, R551). -/
theorem commitOption_lost {level : Nat} {rb : BitVec 4} {fs : List Nat} (dead : ∀ i < 4, (s.die (State.copyDie i)).lost = true)
    (four : s.sec.optCopies.length = 4) : ∃ u, s.commitOption level false rb fs = (u, false) ∧ u.sec.optInForce = s.sec.optInForce ∧
      ∀ c ∈ u.sec.optCopies, c.image = none := by
  have step : ∀ (t : State) (i : Nat), t.fls = s.fls → i < 4 → ∀ img good fails, ∃ c : OptCopy, c.image = none ∧ State.writeCopy 9 t i img good fails = t.setCopy i c :=
    fun t i fls low img good fails => ⟨_, rfl, writeCopy_lost (by rw [State.die, fls]; exact dead i low)⟩
  obtain ⟨img, himg⟩ : ∃ img, img = commitImage s level := ⟨_, rfl⟩
  have run : ∀ fails : Nat → Nat, ∃ c0 c1 c2 c3 : OptCopy, (c0.image = none ∧ c1.image = none ∧ c2.image = none ∧ c3.image = none) ∧
      [0, 1, 2, 3].foldl (fun t i => State.writeCopy 9 t i img (rb.getLsbD i) (fails i)) s = (((s.setCopy 0 c0).setCopy 1 c1).setCopy 2 c2).setCopy 3 c3 := fun fails => by
    obtain ⟨c0, h0, r0⟩ := step s 0 rfl (by decide) img (rb.getLsbD 0) (fails 0)
    obtain ⟨c1, h1, r1⟩ := step (s.setCopy 0 c0) 1 rfl (by decide) img (rb.getLsbD 1) (fails 1)
    obtain ⟨c2, h2, r2⟩ := step ((s.setCopy 0 c0).setCopy 1 c1) 2 rfl (by decide) img (rb.getLsbD 2) (fails 2)
    obtain ⟨c3, h3, r3⟩ := step (((s.setCopy 0 c0).setCopy 1 c1).setCopy 2 c2) 3 rfl (by decide) img (rb.getLsbD 3) (fails 3)
    refine ⟨c0, c1, c2, c3, ⟨h0, h1, h2, h3⟩, ?_⟩
    rw [List.foldl_cons, List.foldl_cons, List.foldl_cons, List.foldl_cons, List.foldl_nil, r0, r1, r2, r3]
  obtain ⟨c0, c1, c2, c3, ⟨h0, h1, h2, h3⟩, folds⟩ := run fun i => (fs.filter (fun x => decide (x = i))).length
  obtain ⟨u, hu⟩ : ∃ u, u = copiesOf s level rb fs := ⟨_, rfl⟩
  have eq : u = (((s.setCopy 0 c0).setCopy 1 c1).setCopy 2 c2).setCopy 3 c3 := by rw [hu, ← folds, himg]; rfl
  have copies : u.sec.optCopies = [c0, c1, c2, c3] := by
    obtain ⟨a, b, c, d, l⟩ := List.length_eq_four.mp four
    rw [eq]
    simp only [State.setCopy, l]
    rfl
  have blank : ∀ c ∈ u.sec.optCopies, c.image = none := by
    rw [copies]
    simp only [List.mem_cons, List.not_mem_nil, or_false, forall_eq_or_imp, forall_eq]
    exact ⟨h0, h1, h2, h3⟩
  refine ⟨u, ?_, by rw [eq]; rfl, blank⟩
  have zero : u.copiesWith (commitImage s level) = 0 := by
    rw [State.copiesWith, List.length_eq_zero_iff, List.filter_eq_nil_iff]
    exact fun c mem => by
      rw [blank c mem, decide_eq_true_eq]
      exact nofun
  rw [commitOption_eq, ← hu, if_pos zero]

theorem header_length (o : OptImage) : o.header.length ≤ 16 := by
  unfold OptImage.header
  split
  · exact Nat.zero_le _
  · exact Nat.le_refl 16

end Rows

/-- Settles O46: a commit runs where the staged level byte is that in force, and ends with the image where the first copy is written. -/
theorem optionAreaIsCommittedAndReloaded : Obligations.OptionAreaIsCommittedAndReloaded := by
  unfold Obligations.OptionAreaIsCommittedAndReloaded
  intro s awake
  obtain ⟨u, hu⟩ : ∃ u, u = s.startClocks 0x108 := ⟨_, rfl⟩
  have parts : u.sec = s.sec ∧ u.fls = s.fls ∧ u.zns = s.zns := by rw [hu, State.startClocks]; exact ⟨rfl, rfl, rfl⟩
  obtain ⟨sec, fls, zns⟩ := parts
  have level : u.levelByte = s.levelByte := by rw [State.levelByte, sec]; rfl
  refine ⟨fun rb other m fs => ?_, fun rb canonical reads same four live room fs sound => ?_, fun same dead four fs => ?_, ?_⟩
  · refine goes_of_arises (exec_optionCommit m rb fs) awake ?_
    rw [optionCommit_refused (s := s.startClocks 0x108) other]
    rfl
  · have block : u.copyBlock 0 ≠ none := by rw [hu]; exact room
    obtain ⟨t, ht, status, lev, force, ⟨c, first, image⟩, zones, e, n, head, code, payload⟩ := optionCommit_ok (s := u) (rb := rb) (fs := fs) (by rw [sec, level]; exact same)
      reads (by rw [sec]; exact four) (by rw [State.die, fls]; exact live) block sound
    have gen : t.sec.optInForce.generation = (s.sec.optInForce.generation + 1) % 2 ^ 32 := by rw [force, ← sec]; rfl
    refine goes_of_arises (exec_optionCommit false rb fs) awake ?_
    rw [← hu, ht]
    refine ⟨status, lev.trans (by rw [sec]), gen, fun a high => ?_, ⟨c, first, by rw [image, force]⟩, ?_, e, n, head, code, ?_⟩
    · rw [force, commitImage_look (by rw [sec]; exact canonical) _ high, level, sec]
    · rw [SameZones, zns] at zones
      exact zones
    · rw [payload, force]
  · obtain ⟨t, runs, force, blank⟩ := commitOption_lost (s := u) (level := u.levelByte) (rb := 15) (fs := fs) (fun i low => by rw [State.die, fls]; exact dead i low)
      (by rw [sec]; exact four)
    refine goes_of_arises (exec_optionCommit false 15 fs) awake ?_
    rw [← hu, optionCommit_runs (by rw [sec, level]; exact same), runs]
    exact ⟨rfl, force.trans (by rw [sec]), blank⟩
  · refine goes_of_arises exec_optionReload awake ⟨rfl, rfl, rfl, fun _ a high => ?_⟩
    exact look_writeBytes_other _ _ _ _ (.inr (Nat.le_trans (Nat.add_le_add_left (header_length _) 0) (by omega)))

end Sys2Proof.Proofs
end

section
/-! Refutes O45: where the table of blocks names a reel's block twice, the block that is erased and returned to the spares may read
back as it left the factory, which takes its entry out of the table: the entry behind it, retired, is then in force, and the copy of
the option area that the block held has no block left. -/

namespace Sys2Proof.Proofs

open Sys2Proof Sys2Proof.Machine

/-- A copy of the option area in block 400 of its die, whose other blocks are retired. -/
def cornered : OptCopy := { image := none, block := 400, units := 0, retired := [0, 1, 2, 3, 4, 5, 6, 7] }

/-- Block 400 of die 0 is a reel's block, and an entry behind it says retired; the dies of the other copies are lost. -/
def twiceNamed : State :=
  { State.reset with
    pwr := { State.reset.pwr with pstate := .run }
    sec := { State.reset.sec with
      level := .opened
      optInForce := { generation := 5, bytes := [(512, 1)] }
      optCopies := List.replicate 4 cornered }
    fls := { State.reset.fls with
      fullErases := 1
      blocks := [(400, { factoryBlock 400 with use := .reel }), (400, { factoryBlock 400 with use := .retired })]
      dies := [(21, { Die.idle with lost := true }), (42, { Die.idle with lost := true }), (63, { Die.idle with lost := true })] } }

/-- Whether the level is Open still. -/
def staysOpen (o : Out) : Option Bool :=
  match o with
  | .next t => some (decide (t.sec.level = .opened))
  | _ => none

theorem twiceNamed_stays : staysOpen (exec (.raiseToClosed 0) twiceNamed) = some true := by decide +kernel

/-- Refutes O45: no copy is written, and the level stays Open. -/
theorem not_levelCommandsRaiseAndLower : ¬ Obligations.LevelCommandsRaiseAndLower := by
  unfold Obligations.LevelCommandsRaiseAndLower
  intro holds
  obtain ⟨-, free⟩ := holds twiceNamed (by decide +kernel)
  obtain ⟨-, -, raises, -⟩ := free (by decide +kernel)
  obtain ⟨-, -, closes⟩ := raises (by decide +kernel) 0
  obtain ⟨t, run, level, -⟩ := closes (by decide +kernel) (by decide +kernel) (by decide +kernel) (by decide +kernel) (by decide +kernel)
  have stays := twiceNamed_stays
  rw [run] at stays
  have opened : t.sec.level = .opened := by simpa [staysOpen] using stays
  rw [level] at opened
  cases opened

end Sys2Proof.Proofs
end

section
/-! Settles O48: a sanitize begins (R547, R560, R561). -/

namespace Sys2Proof.Proofs

open Sys2Proof Sys2Proof.Machine

section Begins

variable {s : State} {h : HostCmd}

theorem settleKey_eq (s : State) : s.settleKey = { s with sec := s.settleKey.sec } ∧
    s.settleKey.sec = { s.sec with keyErasing := s.settleKey.sec.keyErasing, keyDone := s.settleKey.sec.keyDone
                                   keyStatus := s.settleKey.sec.keyStatus, keyData := s.settleKey.sec.keyData } := by
  unfold State.settleKey
  split
  · exact ⟨rfl, rfl⟩
  · extract_lets uses job
    split
    · exact ⟨rfl, rfl⟩
    · exact ⟨rfl, rfl⟩

/-- What a sanitize sets as it begins, whatever it stopped before (R560). -/
def sanitizeSet (u s : State) (a : Sanitizing) (ause waits : Bool) : State :=
  { u with
    sec := { u.sec with keys := [], sanAction := a, sanActive := true, sanResumed := false, sanAuse := ause
                        sanPct := 0, sanStart := s.now, lowering := decide (a = .lowering) }
    nv := { u.nv with keys := u.nv.keys.filter (fun e => decide (e.1 = 1039)) }
    boot := { u.boot with parked := true }
    zns := { u.zns with online := false }
    mnt := { u.mnt with state := if waits then s.mnt.state else 0, waiting := waits, stopping := false, closing := false, firstCkpt := false }
    jrn := { u.jrn with running := false } }

theorem beginSanitize_eq (s : State) (a : Sanitizing) (ause : Bool) : ∃ u waits,
    s.beginSanitize a ause = (sanitizeSet u s a ause waits).settleKey.event 0x0F01 2 srcSecurity 0 [a.code, 0] := by
  unfold State.beginSanitize
  extract_lets s1 s2 s3 own s4 s5 gone s6 mounting s7
  exact ⟨s6, mounting, rfl⟩

/-- A sanitize that begins. -/
structure Begun (t : State) (a : Sanitizing) (ause : Bool) : Prop where
  active : t.sec.sanActive = true
  action : t.sec.sanAction = a
  exit : t.sec.sanAuse = ause
  keys : t.sec.keys = []
  lowering : t.sec.lowering = decide (a = .lowering)
  parked : t.boot.parked = true
  offline : t.zns.online = false
  told : ∃ e ∈ t.hif.raised, e.code = 0x0F01 ∧ e.payload = .fields [a.code, 0]

theorem beginSanitize_begun (s : State) (a : Sanitizing) (ause : Bool) : Begun (s.beginSanitize a ause) a ause := by
  obtain ⟨u, waits, begins⟩ := beginSanitize_eq s a ause
  obtain ⟨v, hv⟩ : ∃ v, v = sanitizeSet u s a ause waits := ⟨_, rfl⟩
  rw [begins, ← hv]
  obtain ⟨rest, sec⟩ := settleKey_eq v
  obtain ⟨w, hw⟩ : ∃ w, w = v.settleKey := ⟨_, rfl⟩
  rw [← hw] at rest sec ⊢
  have boot : w.boot = v.boot := by rw [rest]
  have zns : w.zns = v.zns := by rw [rest]
  have raised := raised_event w 0x0F01 2 srcSecurity 0 [a.code, 0]
  obtain ⟨x, hx⟩ : ∃ x, x = w.event 0x0F01 2 srcSecurity 0 [a.code, 0] := ⟨_, rfl⟩
  have frame : EventFrame w x := by rw [hx]; exact event_frame ..
  have same := frame.rest
  have sec' : x.sec = w.sec := by rw [same]
  have boot' : x.boot = v.boot := by rw [same, ← boot]
  have zns' : x.zns = v.zns := by rw [same, ← zns]
  rw [← hx] at raised ⊢
  exact ⟨by rw [sec', sec, hv]; rfl, by rw [sec', sec, hv]; rfl, by rw [sec', sec, hv]; rfl, by rw [sec', sec, hv]; rfl, by rw [sec', sec, hv]; rfl,
    by rw [boot', hv]; rfl, by rw [zns', hv]; rfl, ⟨_, by rw [raised]; exact List.mem_cons_self, rfl, rfl⟩⟩

/-- A sanitize command is carried out where none runs, parked or not. -/
theorem sanitize_run {name : String} {f : State → State} (fetched : s.fetchable h = true) (queue : h.qid = 0) (steward : h.comp = 0)
    (idle : s.sec.sanActive = false) (fused : h.fused = false) (rsvd : h.rsvd = false) (thawed : s.frozen 0 = false) :
    admin name h sanitizeRow s f = .next (f (s.fetch h)) := by
  have idle' : (s.fetch h).sec.sanActive = false := idle
  have thawed' : (s.fetch h).frozen 0 = false := thawed
  have gate : (s.fetch h).adminGate h sanitizeRow = none := by
    rw [State.adminGate, steward, idle', fused, rsvd, thawed']
    simp [sanitizeRow]
  rw [admin, onAdmin, fetched, decide_eq_true queue, State.gated, gate]
  rfl

theorem begun_done {t : State} {a : Sanitizing} {ause : Bool} (b : Begun t a ause) (h : HostCmd) (dw : BitVec 32) : Begun (t.done h dw) a ause := by
  obtain ⟨same, raised, -⟩ := complete_host t h .success dw 0
  obtain ⟨v, hv⟩ : ∃ v, v = t.done h dw := ⟨_, rfl⟩
  rw [show t.complete h .success dw 0 = v from hv.symm] at same raised
  rw [← hv]
  have sec : v.sec = t.sec := by rw [same]
  have boot : v.boot = t.boot := by rw [same]
  have zns : v.zns = t.zns := by rw [same]
  exact ⟨sec ▸ b.active, sec ▸ b.action, sec ▸ b.exit, sec ▸ b.keys, sec ▸ b.lowering, boot ▸ b.parked, zns ▸ b.offline, raised ▸ b.told⟩

end Begins

end Sys2Proof.Proofs
end

section
/-! SUPPORT. What the checkpoint, the journal and the marker that end a sanitize leave (R206, R207, R547). -/

namespace Sys2Proof.Proofs

open Sys2Proof Sys2Proof.Machine

section Standing

variable {s t : State} {e : EvRec}

/-- Block 0 of die 0 is not retired, and the die is not lost, whichever entry of the tables is read. -/
def Standing (s : State) : Prop :=
  (∀ k, (0, k) ∈ s.fls.blocks → k.use ≠ .retired) ∧ ∀ v, (0, v) ∈ s.fls.dies → v.lost = false

theorem Standing.of_fls (h : Standing s) (same : t.fls.blocks = s.fls.blocks ∧ t.fls.dies = s.fls.dies) : Standing t := by
  unfold Standing
  rw [same.1, same.2]
  exact h

theorem Standing.live (h : Standing s) : (s.die 0).lost = false := by
  by_cases idle : s.die 0 = Die.idle
  · rw [idle]; rfl
  · exact h.2 _ (mem_of_look idle)

theorem Standing.use (h : Standing s) : (s.block 0 0).use ≠ .retired := by
  by_cases fresh : s.block 0 0 = freshBlock s.fls.fullErases 0
  · rw [fresh]; exact nofun
  · exact h.1 _ (mem_of_look fresh)

theorem Standing.setBlock (h : Standing s) {d b : Nat} {k : Block} (sound : d = 0 → b = 0 → k.use ≠ .retired) : Standing (s.setBlock d b k) :=
  ⟨fun x mem => (mem_put mem).elim (h.1 x) fun eq => by
    obtain ⟨key, rfl⟩ := Prod.mk.injEq .. ▸ eq
    exact sound (by omega) (by omega), h.2⟩

theorem Standing.setDie (h : Standing s) {d : Nat} {v : Die} (live : d = 0 → v.lost = false) : Standing (s.setDie d v) :=
  ⟨h.1, fun x mem => (mem_put mem).elim (h.2 x) fun eq => by
    obtain ⟨key, rfl⟩ := Prod.mk.injEq .. ▸ eq
    exact live key.symm⟩

theorem layPages_cells (s : State) (d b p : Nat) (pages : List (List Byte × PageRecord)) :
    s.layPages d b p pages = { s with fls := { s.fls with cells := (s.layPages d b p pages).fls.cells } } :=
  List.foldlRecOn (motive := fun t : State => t = { s with fls := { s.fls with cells := t.fls.cells } }) _ _ rfl
    fun t ih x _ => by rw [State.layPage, ih]

theorem takeSeq_fls (s : State) (n : Nat) : (s.takeSeq n).2.fls = s.fls := by
  rw [State.takeSeq]
  dsimp only
  split
  · rw [(event_frame _ _ _ _ _ _).rest]
  · rfl

/-- A value of the write sequence may bring the event of its end (R203). -/
theorem takeSeq_heard {n : Nat} (mem : e ∈ s.hif.raised) : e ∈ (s.takeSeq n).2.hif.raised := by
  rw [State.takeSeq]
  dsimp only
  split
  · rw [raised_event]
    exact List.mem_cons_of_mem _ mem
  · exact mem

theorem sealPages_fls (s : State) (d b p n : Nat) (flush : Bool) (fresh : Nat → Bool) :
    (s.sealPages d b p n flush fresh).fls.blocks = s.fls.blocks ∧ (s.sealPages d b p n flush fresh).fls.dies = s.fls.dies := by
  have fls := takeSeq_fls s ((List.range n).filter fresh).length
  exact ⟨(congrArg Flash.blocks fls :), (congrArg Flash.dies fls :)⟩

theorem sealPages_heard {d b p n : Nat} {flush : Bool} {fresh : Nat → Bool} (mem : e ∈ s.hif.raised) :
    e ∈ (s.sealPages d b p n flush fresh).hif.raised := takeSeq_heard (n := ((List.range n).filter fresh).length) mem

/-- The block of a system unit that starts (R148). -/
def systemStarted (s : State) (d b : Nat) : Block :=
  { s.block d b with
    wp := min (pagesOf (s.block d b).qlc) ((s.block d b).wp + unitPages (s.block d b).qlc)
    first := if (s.block d b).wp = 0 then s.now else (s.block d b).first
    last := s.now
    temps := (s.block d b).temps + look 0 s.thm.dieTemps d }

/-- A system unit that starts: its block's counts, the records of its pages and the sequence values they take (R148, R203). -/
theorem noteStart_system (s u : State) (d b p : Nat) (flush : Bool) : ∃ n fresh,
    u.noteStart d { s.systemEntry b p 0 .journal with flush := flush } = (u.setBlock d b (systemStarted u d b)).sealPages d b p n flush fresh :=
  ⟨_, _, rfl⟩

/-- A program of system pages, as what it does to the dies one by one. -/
theorem programNow_eq (s : State) (d b : Nat) (pages : List (List Byte × PageRecord)) (flush : Bool) : ∃ (u : State) (p n : Nat) (fresh : Nat → Bool),
    u.hif = s.hif ∧ u.fls.blocks = s.fls.blocks ∧ u.fls.dies = s.fls.dies ∧
      s.programNow d b pages flush = (u.setBlock d b (systemStarted u d b)).sealPages d b p n flush fresh := by
  have cells := layPages_cells s d b (s.block d b).wp pages
  obtain ⟨u, hu⟩ : ∃ u, u = s.layPages d b (s.block d b).wp pages := ⟨_, rfl⟩
  rw [← hu] at cells
  obtain ⟨n, fresh, start⟩ := noteStart_system s u d b (s.block d b).wp flush
  refine ⟨u, (s.block d b).wp, n, fresh, by rw [cells], by rw [cells], by rw [cells], ?_⟩
  rw [← start, hu]
  rfl

/-- A program of system pages leaves block 0 and die 0 in use. -/
theorem Standing.programNow (h : Standing s) (d b : Nat) (pages : List (List Byte × PageRecord)) (flush : Bool) :
    Standing (s.programNow d b pages flush) := by
  obtain ⟨u, p, n, fresh, -, blocks, dies, runs⟩ := programNow_eq s d b pages flush
  have before : Standing u := h.of_fls ⟨blocks, dies⟩
  rw [runs]
  refine (before.setBlock (fun d0 b0 => ?_)).of_fls (sealPages_fls (u.setBlock d b (systemStarted u d b)) d b p n flush fresh)
  rw [d0, b0]
  exact before.use

/-- What was told before a program is told still. -/
theorem programNow_heard (d b : Nat) (pages : List (List Byte × PageRecord)) (flush : Bool) (mem : e ∈ s.hif.raised) :
    e ∈ (s.programNow d b pages flush).hif.raised := by
  obtain ⟨u, p, n, fresh, hif, -, -, runs⟩ := programNow_eq s d b pages flush
  rw [runs]
  refine sealPages_heard ?_
  have same : (u.setBlock d b (systemStarted u d b)).hif = s.hif := hif
  rw [same]
  exact mem

theorem Standing.deferErase (h : Standing s) (d b : Nat) (next : Role) : Standing (s.deferErase d b next) := by
  unfold State.deferErase
  dsimp only
  split
  · exact h
  · next live =>
    refine (h.setBlock (fun _ _ => show BlockUse.deferred next ≠ .retired from nofun)).setDie fun d0 => ?_
    subst d0
    exact h.live

theorem Standing.foldl {α : Type} {f : State → α → State} (keeps : ∀ u x, Standing u → Standing (f u x)) :
    ∀ (l : List α) (s : State), Standing s → Standing (l.foldl f s)
  | [], _, h => h
  | x :: l, s, h => Standing.foldl keeps l _ (keeps s x h)

theorem Standing.times {f : State → State} (keeps : ∀ u, Standing u → Standing (f u)) : ∀ (n : Nat) (s : State), Standing s → Standing (times f n s)
  | 0, _, h => h
  | n + 1, s, h => Standing.times keeps n _ (keeps s h)

theorem Standing.journalWrite (h : Standing s) (flush : Bool) : Standing (s.journalWrite flush) := by
  have blocks : Standing s.journalBlocks := h.of_fls (by unfold State.journalBlocks; split <;> exact ⟨rfl, rfl⟩)
  rw [State.journalWrite]
  generalize s.journalUnit = pages
  exact Standing.foldl (fun _ m hu => hu.programNow m.1 m.2 pages flush) _ _ blocks

theorem Standing.journalNow (h : Standing s) : Standing s.journalNow :=
  (Standing.times (f := fun u => let w := u.journalWrite false; { w with jrn := { w.jrn with units := w.jrn.units + 1 } })
    (fun _ hu => (hu.journalWrite false).of_fls ⟨rfl, rfl⟩) ((s.jrn.tail * 64 + 65535) / 65536) s h).of_fls ⟨rfl, rfl⟩

theorem Standing.ckptInForce (h : Standing s) : Standing s.ckptInForce :=
  Standing.foldl (fun _ (m : Nat × Nat) hu => hu.deferErase m.1 m.2 .system) _ _ (h.journalNow.of_fls ⟨rfl, rfl⟩)

end Standing

section Whole

variable {s t : State}

/-- One stripe of a checkpoint that is written whole (R207). -/
def wholeStripe (u : State) : State :=
  let t := u.ckptBlocks
  t.jrn.ckptOpen.foldl (fun v m => v.programNow m.1 m.2 ((List.range 4).map (u.ckptPage u.jrn.stripe (dieCluster m.1))) false)
    { t with jrn := { t.jrn with stripe := t.jrn.stripe + 1 } }

theorem ckptBlocks_jrn (u : State) : u.ckptBlocks = { u with jrn := u.ckptBlocks.jrn } := by
  unfold State.ckptBlocks
  split <;> rfl

theorem wholeStripe_landing (u : State) : (wholeStripe u).fls.landing = u.fls.landing := by
  obtain ⟨t, ht⟩ : ∃ t : State, t = { u.ckptBlocks with jrn := { u.ckptBlocks.jrn with stripe := u.ckptBlocks.jrn.stripe + 1 } } := ⟨_, rfl⟩
  have fold := aside_foldl (fun (v : State) (m : Nat × Nat) => v.programNow m.1 m.2 ((List.range 4).map (u.ckptPage u.jrn.stripe (dieCluster m.1))) false)
    (fun v m => State.programNow_aside v m.1 m.2 _ _) u.ckptBlocks.jrn.ckptOpen t
  have start : t.fls = u.fls := by rw [ht, ckptBlocks_jrn]
  refine Eq.trans ?_ (congrArg Flash.landing start)
  refine Eq.trans ?_ (congrArg Aside.landing fold)
  rw [ht]
  rfl

theorem Standing.wholeStripe (h : Standing s) : Standing (wholeStripe s) := by
  refine Standing.foldl (fun _ m hu => hu.programNow m.1 m.2 _ false) _ _ (h.of_fls ?_)
  rw [ckptBlocks_jrn]
  exact ⟨rfl, rfl⟩

theorem times_landing {f : State → State} (keeps : ∀ u, (f u).fls.landing = u.fls.landing) : ∀ (n : Nat) (s : State),
    (times f n s).fls.landing = s.fls.landing
  | 0, _ => rfl
  | n + 1, s => (times_landing keeps n _).trans (keeps s)

/-- A checkpoint that is written whole changes the dies and the journal, and the landing rows stay (R207). -/
theorem ckptWhole_facts (s : State) : s.ckptWhole = { s with fls := s.ckptWhole.fls, jrn := s.ckptWhole.jrn, free := s.free + 1 } ∧
    s.ckptWhole.fls.landing = s.fls.landing ∧ (Standing s → Standing s.ckptWhole) := by
  obtain ⟨u, hu⟩ : ∃ u : State, u = { s with jrn := { s.jrn with
    running := true, beganAt := s.now, before := s.jrn.units
    covered := s.jrn.covered ++ s.jrn.ckptNew ++ s.jrn.blocks.filter (fun m => !s.jrn.open_.contains m)
    blocks := s.jrn.open_, ckptOpen := [], ckptNew := [], stripe := 0, stripes := 0 } } := ⟨_, rfl⟩
  have runs : s.ckptWhole = ({ u with fls := (times Proofs.wholeStripe (Config.ckptStripes s.free + 1) u).fls
                                      jrn := (times Proofs.wholeStripe (Config.ckptStripes s.free + 1) u).jrn } : State).draw := by
    rw [hu]
    rfl
  generalize Config.ckptStripes s.free + 1 = n at runs
  have landing := times_landing wholeStripe_landing n u
  have stands := fun h => Standing.times (fun v hv => Standing.wholeStripe hv) n u h
  generalize times Proofs.wholeStripe n u = w at runs landing stands
  rw [runs]
  refine ⟨by rw [hu]; rfl, landing.trans (by rw [hu]), fun h => (stands (h.of_fls ?_)).of_fls ⟨rfl, rfl⟩⟩
  rw [hu]
  exact ⟨rfl, rfl⟩

end Whole

end Sys2Proof.Proofs
end

section
/-! SUPPORT. The end of a sanitize: the media erased, the checkpoint in force and the marker written (R547, R562). -/

namespace Sys2Proof.Proofs

open Sys2Proof Sys2Proof.Machine

section Media

variable {s t u : State}

/-- The media with everything erased, by keys or by cells (R562). -/
def mediaErased (s : State) : State := if s.sec.sanAction = .crypto then s.dropAll.mediaStops else s.mediaStops.eraseAll

theorem dropAll_fls (s : State) : s.dropAll = { s with fls := s.dropAll.fls } :=
  List.foldlRecOn (motive := fun t : State => t = { s with fls := t.fls }) _ _ rfl fun t ih e _ => (deferErase_fls t _ _ _).trans (by rw [ih])

theorem mediaErased_facts (s : State) : (mediaErased s).zns = State.wipedZones s.zns ∧ (mediaErased s).nv.zones = State.wipedZones s.nv.zones ∧
    (mediaErased s).nv.keys = s.nv.keys ∧ (mediaErased s).fls.landing = [] ∧ (mediaErased s).sec = s.sec ∧ (mediaErased s).mnt = s.mnt := by
  rw [mediaErased]
  split
  · have fls := dropAll_fls s
    obtain ⟨u, hu⟩ : ∃ u, u = s.dropAll := ⟨_, rfl⟩
    rw [← hu] at fls ⊢
    have zns : u.zns = s.zns := by rw [fls]
    have nv : u.nv = s.nv := by rw [fls]
    have sec : u.sec = s.sec := by rw [fls]
    have mnt : u.mnt = s.mnt := by rw [fls]
    rw [← zns, ← nv, ← sec, ← mnt]
    exact ⟨rfl, rfl, rfl, rfl, rfl, rfl⟩
  · exact ⟨rfl, rfl, rfl, rfl, rfl, rfl⟩

/-- The journal after an erase: the key of the whole module is new, and nothing waits (R547). -/
def journalFresh (u : State) : State :=
  { u with
    sec := { u.sec with sanActive := false, sanFailed := false, sanPct := 100 }
    nv := { u.nv with keys := put 0 u.nv.keys 1024 (Config.freeNat u.free + 1) }
    jrn := { u.jrn with tail := 0 }
    mnt := { u.mnt with waiting := false } }

/-- The checkpoint and the marker that end a sanitize. -/
def sanitizeMarked (u : State) : State := ((journalFresh u).draw.ckptWhole.ckptInForce).writeMarker 1

theorem ckptInForce_nv (s : State) : s.ckptInForce.nv.zones = s.durableNow.zones ∧ s.ckptInForce.nv.keys = s.durableNow.keys := by
  have nv : s.journalNow.nv = s.durableNow := rfl
  unfold State.ckptInForce
  dsimp only
  rw [freeSystem_fls]
  exact ⟨(congrArg Durable.zones nv :), (congrArg Durable.keys nv :)⟩

theorem ckptInForce_aside (s : State) : s.ckptInForce.aside = s.aside := by
  have now := journalNow_aside s
  unfold State.ckptInForce
  dsimp only
  generalize s.journalNow = u at now ⊢
  rw [State.freeSystem_aside, aside_mk, aside_mk]
  exact now

theorem foldl_programNow (pages : List (List Byte × PageRecord)) (flush : Bool) : ∀ (l : List (Nat × Nat)) (s : State),
    (l.foldl (fun u m => u.programNow m.1 m.2 pages flush) s).aside = s.aside ∧
      (l.foldl (fun u m => u.programNow m.1 m.2 pages flush) s).log = s.log ∧
      (l.foldl (fun u m => u.programNow m.1 m.2 pages flush) s).desk = s.desk ∧
      (Standing s → Standing (l.foldl (fun u m => u.programNow m.1 m.2 pages flush) s))
  | [], _ => ⟨rfl, rfl, rfl, id⟩
  | m :: l, s => by
    obtain ⟨aside, log, desk, stands⟩ := foldl_programNow pages flush l (s.programNow m.1 m.2 pages flush)
    exact ⟨aside.trans (State.programNow_aside ..), log.trans (State.programNow_log ..),
      desk.trans ((State.noteStart_desk ..).trans (State.layPages_desk ..)), fun h => stands (h.programNow ..)⟩

/-- A marker that is written: nothing durable changes but the marker (R207, R211). -/
theorem writeMarker_facts (s : State) (kind : Nat) : (s.writeMarker kind).sec = s.sec ∧ (s.writeMarker kind).nv = s.nv ∧
    (s.writeMarker kind).fls.landing = s.fls.landing ∧ (s.writeMarker kind).plog.marker = kind ∧ (s.writeMarker kind).jrn.valid = s.jrn.valid ∧
    SameZones s (s.writeMarker kind) ∧ (Standing s → Standing (s.writeMarker kind)) := by
  unfold State.writeMarker
  extract_lets l t
  obtain ⟨aside, log, desk, stands⟩ := foldl_programNow (State.systemUnit 5 0 s.jrn.lastSeq s.now) (decide (kind = 2)) l s
  rw [show l.foldl (fun u m => u.programNow m.1 m.2 (State.systemUnit 5 0 s.jrn.lastSeq s.now) (decide (kind = 2))) s = t from rfl] at aside log desk stands
  clear_value t
  have marks := congrArg Log.checkpoints log
  simp only [State.log, Prod.mk.injEq] at marks
  obtain ⟨-, valid, -⟩ := marks
  exact ⟨(congrArg Log.sec log :), (congrArg Log.nv log :), (congrArg Aside.landing aside :), rfl, valid, sameZones_of_desk desk,
    fun h => (stands h).of_fls ⟨rfl, rfl⟩⟩

theorem durableNow_wiped {z : Zones} (zns : s.zns = State.wipedZones z) (nv : ∃ y, s.nv.zones = State.wipedZones y) :
    s.durableNow.zones.zones = [] ∧ s.durableNow.zones.data = [] := by
  rw [State.durableNow]
  split
  · refine ⟨?_, ?_⟩
    · show s.zns.zones.map _ = []
      rw [zns]; rfl
    · show s.zns.data = []
      rw [zns]; rfl
  · obtain ⟨y, nv⟩ := nv
    rw [nv]; exact ⟨rfl, rfl⟩

theorem durableNow_unmounted (out : s.mnt.state ≠ 4) : s.durableNow = s.nv := by
  rw [State.durableNow, State.mounted, decide_eq_false out]
  rfl

/-- What ends a sanitize once the media is erased (R547, R562). -/
structure Wiped (s t : State) : Prop where
  zones : t.zns.zones = [] ∧ t.zns.data = [] ∧ t.zns.convData = []
  durable : t.nv.zones.zones = [] ∧ t.nv.zones.data = []
  landing : t.fls.landing = []
  marker : t.plog.marker = 1
  valid : t.jrn.valid = true
  key : s.mnt.state ≠ 4 → look 0 t.nv.keys 1024 ≠ 0

theorem sanitizeMarked_facts (zns : ∃ z, u.zns = State.wipedZones z) (nv : ∃ y, u.nv.zones = State.wipedZones y) (landing : u.fls.landing = []) :
    Wiped u (sanitizeMarked u) ∧ (sanitizeMarked u).sec = { u.sec with sanActive := false, sanFailed := false, sanPct := 100 } ∧
      (Standing u → Standing (sanitizeMarked u)) := by
  obtain ⟨a, ha⟩ : ∃ a, a = (journalFresh u).draw := ⟨_, rfl⟩
  have fresh : a.zns = u.zns ∧ a.nv = { u.nv with keys := put 0 u.nv.keys 1024 (Config.freeNat u.free + 1) } ∧ a.fls = u.fls ∧
      a.sec = { u.sec with sanActive := false, sanFailed := false, sanPct := 100 } ∧ a.mnt.state = u.mnt.state := by
    rw [ha]; exact ⟨rfl, rfl, rfl, rfl, rfl⟩
  obtain ⟨zns_a, nv_a, fls_a, sec_a, mnt_a⟩ := fresh
  obtain ⟨whole, landing_b, stands_b⟩ := ckptWhole_facts a
  obtain ⟨b, hb⟩ : ∃ b, b = a.ckptWhole := ⟨_, rfl⟩
  rw [← hb] at whole landing_b stands_b
  have zns_b : b.zns = a.zns := by rw [whole]
  have nv_b : b.nv = a.nv := by rw [whole]
  have sec_b : b.sec = a.sec := by rw [whole]
  have mnt_b : b.mnt = a.mnt := by rw [whole]
  obtain ⟨-, valid_c, -, -, -, sec_c, -, zones_c⟩ := ckptInForce_facts b
  obtain ⟨nvz_c, nvk_c⟩ := ckptInForce_nv b
  have landing_c : b.ckptInForce.fls.landing = b.fls.landing := congrArg Aside.landing (ckptInForce_aside b)
  have stands_c : Standing b → Standing b.ckptInForce := Standing.ckptInForce
  obtain ⟨c, hc⟩ : ∃ c, c = b.ckptInForce := ⟨_, rfl⟩
  rw [← hc] at valid_c sec_c zones_c nvz_c nvk_c landing_c stands_c
  obtain ⟨sec_d, nv_d, landing_d, marker, valid_d, zones_d, stands_d⟩ := writeMarker_facts c 1
  obtain ⟨d, hd⟩ : ∃ d, d = c.writeMarker 1 := ⟨_, rfl⟩
  rw [← hd] at sec_d nv_d landing_d marker valid_d zones_d stands_d
  have runs : sanitizeMarked u = d := by rw [hd, hc, hb, ha]; rfl
  rw [runs]
  obtain ⟨z, zns⟩ := zns
  have all : SameZones b d := SameZones.trans zones_c zones_d
  have wiped : d.zns = { State.wipedZones z with seq := d.zns.seq } := by
    rw [SameZones, zns_b, zns_a, zns] at all
    exact all
  have durable := durableNow_wiped (s := b) (by rw [zns_b, zns_a, zns]) (by rw [nv_b, nv_a]; exact nv)
  refine ⟨⟨?_, ?_, ?_, marker, valid_d.trans valid_c, fun out => ?_⟩, ?_, fun h => ?_⟩
  · rw [wiped]; exact ⟨rfl, rfl, rfl⟩
  · rw [nv_d, nvz_c]; exact durable
  · rw [landing_d, landing_c, landing_b, fls_a, landing]
  · rw [nv_d, nvk_c, durableNow_unmounted (by rw [mnt_b, mnt_a]; exact out), nv_b, nv_a]
    exact ne_of_eq_of_ne (look_put_of_ne _ _ _ _ (Nat.succ_ne_zero _)) (Nat.succ_ne_zero _)
  · rw [sec_d, sec_c, sec_b, sec_a]
  · exact stands_d (stands_c (stands_b (h.of_fls (by rw [fls_a]; exact ⟨rfl, rfl⟩))))

end Media

end Sys2Proof.Proofs
end

section
/-! Settles O48: a sanitize ends or fails (R547, R560 to R562). -/

namespace Sys2Proof.Proofs

open Sys2Proof Sys2Proof.Machine

section Copies

variable {s t : State} {e : EvRec} {i : Nat} {img : OptImage}

theorem copyPrograms_heard {b : Nat} {move : Bool} (mem : e ∈ s.hif.raised) : e ∈ (copyPrograms s i img b move).hif.raised := by
  have ready : (copyReady s i b move).hif = s.hif := by rw [copyReady]; split <;> rfl
  exact programNow_heard _ _ _ _ (takeSeq_heard (ready ▸ mem))

theorem setCopy_hif (s : State) (i : Nat) (c : OptCopy) : (s.setCopy i c).hif = s.hif := rfl

/-- A copy that is written without a failed program takes nothing back that was told. -/
theorem writeCopy_heard {good : Bool} {n : Nat} (mem : e ∈ s.hif.raised) : e ∈ (State.writeCopy (n + 1) s i img good 0).hif.raised := by
  cases live : (s.die (State.copyDie i)).lost
  case true => rw [writeCopy_lost live, setCopy_hif]; exact mem
  case false =>
    cases block : s.copyBlock i
    case none => rw [writeCopy_none block, setCopy_hif]; exact mem
    case some p =>
      obtain ⟨b, move⟩ := p
      have heard : e ∈ (copyPrograms s i img b move).hif.raised := copyPrograms_heard mem
      rw [writeCopy_written live block, setCopy_hif]
      exact heard

theorem copiesOf_heard {level : Nat} {rb : BitVec 4} (mem : e ∈ s.hif.raised) : e ∈ (copiesOf s level rb []).hif.raised :=
  List.foldlRecOn (motive := fun t : State => e ∈ t.hif.raised) _ _ mem fun _ heard _ _ => writeCopy_heard heard

/-- A commit changes the option area alone of what programs leave, and tells one event more at most. -/
theorem commitOption_kept (level : Nat) (rb : BitVec 4) : ∃ (v : State) (ok : Bool), s.commitOption level false rb [] = (v, ok) ∧
    v.aside = { s.aside with sec := v.sec } ∧ v.log = { s.log with sec := v.sec } ∧ v.desk = s.desk ∧
    v.sec = { s.sec with optCopies := v.sec.optCopies, optInForce := v.sec.optInForce, optStage := v.sec.optStage } ∧
    (e ∈ s.hif.raised → e ∈ v.hif.raised) := by
  obtain ⟨cs, aside, log, desk, -, -⟩ := copiesWritten_fold (img := commitImage s level) (fun i => rb.getLsbD i)
    (fun i => (([] : List Nat).filter (fun x => decide (x = i))).length) [0, 1, 2, 3] s
  have heard : e ∈ s.hif.raised → e ∈ (copiesOf s level rb []).hif.raised := copiesOf_heard
  obtain ⟨u, hu⟩ : ∃ u, u = copiesOf s level rb [] := ⟨_, rfl⟩
  have uaside : u.aside = { s.aside with sec := { s.sec with optCopies := cs } } := by rw [hu]; exact aside
  have ulog : u.log = { s.log with sec := { s.sec with optCopies := cs } } := by rw [hu]; exact log
  have udesk : u.desk = s.desk := by rw [hu]; exact desk
  have usec : u.sec = { s.sec with optCopies := cs } := congrArg Aside.sec uaside
  rw [commitOption_eq, ← hu]
  rw [← hu] at heard
  split
  · exact ⟨u, false, rfl, by rw [uaside, usec], by rw [ulog, usec], udesk, by rw [usec], heard⟩
  · obtain ⟨w, hw⟩ : ∃ w, w = imageInForce s u level := ⟨_, rfl⟩
    have waside : w.aside = { u.aside with sec := w.sec } := by rw [hw]; rfl
    have wlog : w.log = { u.log with sec := w.sec } := by rw [hw]; rfl
    have wdesk : w.desk = u.desk := by rw [hw]; rfl
    have wsec : w.sec = { u.sec with optInForce := w.sec.optInForce, optStage := w.sec.optStage } := by rw [hw]; rfl
    have whif : w.hif = u.hif := by rw [hw]; rfl
    rw [← hw]
    refine ⟨_, true, rfl, ?_⟩
    have told := raised_event w 0x0F04 1 srcSecurity 0 [((commitImage s level).generation : Int), (u.copiesWith (commitImage s level) : Int)]
    have xaside := State.event_aside w 0x0F04 1 srcSecurity [((commitImage s level).generation : Int), (u.copiesWith (commitImage s level) : Int)]
    have xlog := State.event_log w 0x0F04 1 srcSecurity 0 [((commitImage s level).generation : Int), (u.copiesWith (commitImage s level) : Int)]
    have xdesk := State.event_desk w 0x0F04 1 srcSecurity 0 [((commitImage s level).generation : Int), (u.copiesWith (commitImage s level) : Int)]
    generalize w.event 0x0F04 1 srcSecurity 0 [((commitImage s level).generation : Int), (u.copiesWith (commitImage s level) : Int)] = x at told xaside xlog xdesk ⊢
    have xsec : x.sec = w.sec := sec_of_aside xaside
    refine ⟨?_, ?_, xdesk.trans (wdesk.trans udesk), ?_, fun mem => ?_⟩
    · rw [xaside, waside, uaside, xsec]
    · rw [xlog, wlog, ulog, xsec]
    · rw [xsec, wsec, usec]
    · rw [told, whif]
      exact List.mem_cons_of_mem _ (heard mem)

end Copies

section Lowering

variable {s : State}

theorem Standing.mediaErased (h : Standing s) (lowering : s.sec.sanAction = .lowering) : Standing (mediaErased s) := by
  rw [Proofs.mediaErased, lowering, if_neg (by decide)]
  have stopped : Standing s.mediaStops := ⟨h.1, fun v mem => by
    obtain ⟨mem, -⟩ := List.mem_filter.mp mem
    obtain ⟨x, inside, eq⟩ := List.mem_map.mp mem
    obtain ⟨key, rfl⟩ := Prod.mk.injEq .. ▸ eq
    exact h.2 x.2 (key ▸ inside)⟩
  generalize s.mediaStops = t at stopped
  refine ⟨fun k mem => ?_, fun v mem => ?_⟩
  · have all : ∀ (l : List (Nat × Block)) (m : SMap Block), (∀ k, (0, k) ∈ m → k.use ≠ .retired) → (∀ k, (0, k) ∈ l → k.use ≠ .retired) →
        ∀ k, (0, k) ∈ l.foldl (fun m e => put (freshBlock (t.fls.fullErases + 1) (e.1 % 8192)) m e.1 e.2) m → k.use ≠ .retired := fun l => by
      induction l with
      | nil => exact fun m hm _ => hm
      | cons e l ih =>
        refine fun m hm hl => ih _ (fun k mem => ?_) fun k mem => hl k (List.mem_cons_of_mem _ mem)
        exact (mem_put mem).elim (hm k) fun eq => hl k (by rw [eq]; exact List.mem_cons_self)
    refine all _ [] nofun (fun k mem => ?_) k mem
    obtain ⟨x, inside, eq⟩ := List.mem_map.mp mem
    obtain ⟨key, rfl⟩ := Prod.mk.injEq .. ▸ eq
    have used := stopped.1 x.2 (key ▸ inside)
    unfold State.wipedBlock
    split
    · exact used
    · dsimp only
      split
      · exact nofun
      · exact nofun
  · obtain ⟨mem, -⟩ := List.mem_filter.mp mem
    obtain ⟨x, inside, eq⟩ := List.mem_map.mp mem
    obtain ⟨key, rfl⟩ := Prod.mk.injEq .. ▸ eq
    exact stopped.2 x.2 (key ▸ inside)

theorem look_of_rising {V : Type} {d v : V} {k : Nat} : ∀ {m : SMap V}, (m.map (·.1)).Pairwise (· < ·) → (k, v) ∈ m → look d m k = v
  | (j, w) :: m, rising, mem => by
    obtain ⟨below, rest⟩ := List.pairwise_cons.mp rising
    obtain eq | mem := List.mem_cons.mp mem
    · obtain ⟨rfl, rfl⟩ := Prod.mk.injEq .. ▸ eq
      exact if_pos rfl
    · have above : j < k := below k (List.mem_map_of_mem mem)
      exact (if_neg (Nat.ne_of_lt above)).trans (look_of_rising rest mem)

/-- In tables with one entry for each block and die, block 0 of die 0 stands where it is neither retired nor on a lost die. -/
theorem standing_of_tables (tables : Tables s) (live : (s.die 0).lost = false) (system : (s.block 0 0).use = .system) : Standing s := by
  refine ⟨fun k mem => ?_, fun v mem => ?_⟩
  · have here : s.block 0 0 = k := look_of_rising tables.blocks mem
    rw [← here, system]
    exact nofun
  · have here : s.die 0 = v := look_of_mem tables.dies mem
    rw [← here]
    exact live

end Lowering

end Sys2Proof.Proofs
end

section
/-! Settles O48: the rows of a sanitize (R547, R560 to R562). -/

namespace Sys2Proof.Proofs

open Sys2Proof Sys2Proof.Machine

section Ends

variable {s u : State}

/-- The level comes down once its option area is committed (R547). -/
def lowered (u : State) : State :=
  let (t, ok) := u.commitOption 0 false 15 []
  let v : State := { t with sec := { t.sec with lowering := false, protDone := true, protStatus := 0
                                                level := if ok then .opened else t.sec.level } }
  if ok then v.event 0x0F00 4 srcSecurity 0 [1, 0] else v

theorem endSanitize_eq (s : State) (ms : Nat) : s.endSanitize ms =
    if s.sec.sanAction = .lowering then lowered ((sanitizeMarked (mediaErased s)).event 0x0F02 1 srcSecurity 0 [s.sec.sanAction.code, ms])
    else (sanitizeMarked (mediaErased s)).event 0x0F02 1 srcSecurity 0 [s.sec.sanAction.code, ms] := by
  have media : (if s.sec.sanAction = .crypto then (if s.sec.sanAction = .crypto then s.dropAll else s).mediaStops
      else ((if s.sec.sanAction = .crypto then s.dropAll else s).mediaStops).eraseAll) = mediaErased s := by
    rw [mediaErased]
    split <;> rfl
  rw [State.endSanitize]
  dsimp only
  rw [media]
  unfold sanitizeMarked journalFresh lowered
  generalize State.event _ _ _ _ _ _ = t
  generalize t.commitOption 0 false 15 [] = p
  rfl

theorem Wiped.of_log {t : State} (w : Wiped s u) (zones : SameZones u t) (log : t.log.nv = u.log.nv ∧ t.log.checkpoints = u.log.checkpoints)
    (aside : t.plog = u.plog ∧ t.fls.landing = u.fls.landing) : Wiped s t := by
  obtain ⟨nv, marks⟩ := log
  have nv : t.nv = u.nv := nv
  simp only [State.log, Prod.mk.injEq] at marks
  obtain ⟨-, valid, -⟩ := marks
  obtain ⟨plog, landing⟩ := aside
  have zns : t.zns = { u.zns with seq := t.zns.seq } := zones
  exact ⟨by rw [zns]; exact w.zones, nv ▸ w.durable, landing ▸ w.landing, plog ▸ w.marker, valid ▸ w.valid, nv ▸ w.key⟩

/-- What the status registers of a sanitize read at its end (R562). -/
def EndRead (s t : State) : Prop :=
  t.sec.sanActive = false ∧ t.sec.sanFailed = false ∧ t.sec.sanPct = 100 ∧ (s.sec.sanAction ≠ .lowering → t.sec.level = s.sec.level)

/-- The event of a sanitize that ended (R562). -/
def EndTold (s : State) (ms : Nat) (t : State) : Prop :=
  ∃ e ∈ t.hif.raised, e.code = 0x0F02 ∧ e.payload = .fields [s.sec.sanAction.code, ms]

theorem marked_event (s : State) (ms : Nat) : ∃ t, (sanitizeMarked (mediaErased s)).event 0x0F02 1 srcSecurity 0 [s.sec.sanAction.code, ms] = t ∧
    Wiped s t ∧ t.sec = { s.sec with sanActive := false, sanFailed := false, sanPct := 100 } ∧ EndTold s ms t ∧
    (Standing (mediaErased s) → Standing t) := by
  obtain ⟨zns, nvz, -, landing, sec, mnt⟩ := mediaErased_facts s
  obtain ⟨wiped, sec', stands⟩ := sanitizeMarked_facts ⟨_, zns⟩ ⟨_, nvz⟩ landing
  obtain ⟨w, hw⟩ : ∃ w, w = sanitizeMarked (mediaErased s) := ⟨_, rfl⟩
  rw [← hw] at wiped sec' stands ⊢
  have frame : EventFrame w (w.event 0x0F02 1 srcSecurity 0 [s.sec.sanAction.code, ms]) := event_frame _ _ _ _ _ _
  have raised := raised_event w 0x0F02 1 srcSecurity 0 [s.sec.sanAction.code, ms]
  generalize w.event 0x0F02 1 srcSecurity 0 [s.sec.sanAction.code, ms] = t at frame raised ⊢
  have same := frame.rest
  have fls : t.fls = w.fls := by rw [same]
  have kept : Wiped s w := ⟨wiped.zones, wiped.durable, wiped.landing, wiped.marker, wiped.valid, by rw [← mnt]; exact wiped.key⟩
  refine ⟨t, rfl, kept.of_log ?_ ?_ ?_, ?_, ⟨_, by rw [raised]; exact List.mem_cons_self, rfl, rfl⟩, fun h => (stands h).of_fls (by rw [fls]; exact ⟨rfl, rfl⟩)⟩
  · rw [SameZones, same]
  · have log := log_of_eventFrame frame
    rw [log]; exact ⟨rfl, rfl⟩
  · rw [fls, same]; exact ⟨rfl, rfl⟩
  · rw [show t.sec = w.sec by rw [same], sec', sec]

/-- Whether its copies are written or not, a lowering ends as any sanitize does. -/
theorem lowered_facts {ms : Nat} (wiped : Wiped s u) (active : u.sec.sanActive = false) (failed : u.sec.sanFailed = false) (pct : u.sec.sanPct = 100)
    (told : EndTold s ms u) : Wiped s (lowered u) ∧ (lowered u).sec.sanActive = false ∧ (lowered u).sec.sanFailed = false ∧
      (lowered u).sec.sanPct = 100 ∧ EndTold s ms (lowered u) := by
  obtain ⟨e, mem, code, payload⟩ := told
  obtain ⟨v, ok, runs, aside, log, desk, sec, heard⟩ := commitOption_kept (s := u) (e := e) 0 15
  have asides := congrArg (fun a : Aside => (a.plog, a.landing)) aside
  have logs := congrArg (fun l : Log => (l.nv, l.checkpoints)) log
  have plog : v.plog = u.plog := congrArg Prod.fst asides
  have landing : v.fls.landing = u.fls.landing := congrArg Prod.snd asides
  have wiped' : Wiped s v := wiped.of_log (sameZones_of_desk desk) ⟨congrArg Prod.fst logs, congrArg Prod.snd logs⟩ ⟨plog, landing⟩
  obtain ⟨w, hw⟩ : ∃ w : State, w = { v with sec := { v.sec with lowering := false, protDone := true, protStatus := 0
                                                                 level := if ok then .opened else v.sec.level } } := ⟨_, rfl⟩
  have fields : w.sec.sanActive = v.sec.sanActive ∧ w.sec.sanFailed = v.sec.sanFailed ∧ w.sec.sanPct = v.sec.sanPct ∧ w.hif = v.hif := by
    rw [hw]; exact ⟨rfl, rfl, rfl, rfl⟩
  obtain ⟨wactive, wfailed, wpct, hif⟩ := fields
  have wwiped : Wiped s w := wiped'.of_log (by rw [hw]; rfl) (by rw [hw]; exact ⟨rfl, rfl⟩) (by rw [hw]; exact ⟨rfl, rfl⟩)
  have all : Wiped s w ∧ w.sec.sanActive = false ∧ w.sec.sanFailed = false ∧ w.sec.sanPct = 100 ∧ e ∈ w.hif.raised :=
    ⟨wwiped, by rw [wactive, sec]; exact active, by rw [wfailed, sec]; exact failed, by rw [wpct, sec]; exact pct, hif ▸ heard mem⟩
  have ends : lowered u = if ok then w.event 0x0F00 4 srcSecurity 0 [1, 0] else w := by rw [lowered, runs, hw]
  rw [ends]
  obtain ⟨hwiped, hactive, hfailed, hpct, hmem⟩ := all
  split
  · have frame : EventFrame w (w.event 0x0F00 4 srcSecurity 0 [1, 0]) := event_frame _ _ _ _ _ _
    have raised := raised_event w 0x0F00 4 srcSecurity 0 [1, 0]
    generalize w.event 0x0F00 4 srcSecurity 0 [1, 0] = t at frame raised ⊢
    have same := frame.rest
    have tsec : t.sec = w.sec := by rw [same]
    have log' := log_of_eventFrame frame
    refine ⟨hwiped.of_log (by rw [SameZones, same]) (by rw [log']; exact ⟨rfl, rfl⟩) (by rw [same]; exact ⟨rfl, rfl⟩), tsec ▸ hactive, tsec ▸ hfailed,
      tsec ▸ hpct, e, ?_, code, payload⟩
    rw [raised]
    exact List.mem_cons_of_mem _ hmem
  · exact ⟨hwiped, hactive, hfailed, hpct, e, hmem, code, payload⟩

theorem endSanitize_facts (s : State) (ms : Nat) : Wiped s (s.endSanitize ms) ∧ EndRead s (s.endSanitize ms) ∧ EndTold s ms (s.endSanitize ms) := by
  obtain ⟨t, ends, wiped, sec, told, -⟩ := marked_event s ms
  have active : t.sec.sanActive = false := by rw [sec]
  have failed : t.sec.sanFailed = false := by rw [sec]
  have pct : t.sec.sanPct = 100 := by rw [sec]
  rw [endSanitize_eq, ends]
  split
  · next lowering =>
    obtain ⟨wiped', active', failed', pct', told'⟩ := lowered_facts wiped active failed pct told
    exact ⟨wiped', ⟨active', failed', pct', fun other => absurd lowering other⟩, told'⟩
  · exact ⟨wiped, ⟨active, failed, pct, fun _ => by rw [sec]⟩, told⟩

/-- A lowering whose first copy has a block ends at Open. -/
theorem endSanitize_lowers {ms : Nat} (lowering : s.sec.sanAction = .lowering) (four : s.sec.optCopies.length = 4) (live : (s.die 0).lost = false)
    (block : s.copyBlock 0 = some (0, false)) (tables : Tables s) (system : (s.block 0 0).use = .system) :
    (s.endSanitize ms).sec.level = .opened ∧ (s.endSanitize ms).sec.protDone = true ∧ (s.endSanitize ms).sec.lowering = false := by
  obtain ⟨t, ends, -, sec, -, stands⟩ := marked_event s ms
  have standing := stands ((standing_of_tables tables live system).mediaErased lowering)
  have copies : t.sec.optCopies = s.sec.optCopies := by rw [sec]
  have room : t.copyBlock 0 ≠ none := by
    have copy : t.optCopy 0 = s.optCopy 0 := by rw [State.optCopy, copies]; rfl
    have held := block
    unfold State.copyBlock at block ⊢
    dsimp only at block ⊢
    rw [copy]
    split at block
    · next open_ =>
      have at0 : (s.optCopy 0).block = 0 := congrArg Prod.fst (Option.some.inj block)
      have sound : t.copyRetired 0 (s.optCopy 0).block = false := by
        simp only [Bool.and_eq_true, Bool.not_eq_true', State.copyRetired, Bool.or_eq_false_iff] at open_
        rw [State.copyRetired, copy, open_.2.1, at0]
        exact decide_eq_false standing.use
      simp only [Bool.and_eq_true] at open_
      rw [if_pos (by rw [sound, open_.1]; rfl)]
      exact nofun
    · obtain ⟨x, -, eq⟩ := Option.map_eq_some_iff.mp block
      cases congrArg Prod.snd eq
  obtain ⟨v, cs, c, n, runs, -⟩ := commitOption_ok (s := t) (level := 0) (rb := 15) (fs := []) rfl (by rw [copies]; exact four) standing.live room nofun
  obtain ⟨w, hw⟩ : ∃ w, w = v.event 0x0F04 1 srcSecurity 0 [((commitImage t 0).generation : Int), (n : Int)] := ⟨_, rfl⟩
  rw [endSanitize_eq, if_pos lowering, ends, lowered, runs, ← hw]
  dsimp only
  rw [if_pos rfl, if_pos rfl, (event_frame _ _ _ _ _ _).rest]
  exact ⟨rfl, rfl, rfl⟩

theorem answerOps_kry (s : State) (f : UnitOp → Bool) (status : Nat) : s.answerOps f status = { s with kry := (s.answerOps f status).kry } := by
  refine List.foldlRecOn (motive := fun t : State => t = { s with kry := t.kry }) _ _ rfl fun t ih o _ => ?_
  have posts : ∀ (u : State) (i n : Nat) (x : Ticket), u.postTicket i n x = { u with kry := (u.postTicket i n x).kry } := fun u i n x => by
    unfold State.postTicket
    split
    · rfl
    · split <;> rfl
  rw [posts, ih]

theorem sanitizeFails_facts (s : State) : s.sanitizeFails.sec.sanActive = false ∧ s.sanitizeFails.sec.sanFailed = true ∧ s.sanitizeFails.zns = s.zns ∧
    s.sanitizeFails.sec.level = s.sec.level ∧ s.sanitizeFails.sec.keys = s.sec.keys ∧
    ∃ e ∈ s.sanitizeFails.hif.raised, e.code = 0x0F03 ∧ e.payload = .fields [s.sec.sanAction.code] := by
  obtain ⟨t, ht⟩ : ∃ t : State, t = { s with
    sec := { s.sec with sanActive := false, sanFailed := true, lowering := false, protDone := s.sec.protDone || decide (s.sec.sanAction = .lowering) }
    mnt := { s.mnt with waiting := false, state := if s.mnt.waiting then 5 else s.mnt.state } } := ⟨_, rfl⟩
  have runs : s.sanitizeFails = (t.event 0x0F03 4 srcSecurity 0 [s.sec.sanAction.code]).answerOps (fun o => decide (o = .mount)) 2 := by rw [ht]; rfl
  have fields : t.sec.sanActive = false ∧ t.sec.sanFailed = true ∧ t.zns = s.zns ∧ t.sec.level = s.sec.level ∧ t.sec.keys = s.sec.keys := by
    rw [ht]; exact ⟨rfl, rfl, rfl, rfl, rfl⟩
  have same := (event_frame t 0x0F03 4 srcSecurity 0 [s.sec.sanAction.code]).rest
  have raised := raised_event t 0x0F03 4 srcSecurity 0 [s.sec.sanAction.code]
  obtain ⟨w, hw⟩ : ∃ w, w = t.event 0x0F03 4 srcSecurity 0 [s.sec.sanAction.code] := ⟨_, rfl⟩
  rw [← hw] at runs same raised
  have sec : s.sanitizeFails.sec = t.sec := by rw [runs, answerOps_kry, same]
  have zns : s.sanitizeFails.zns = t.zns := by rw [runs, answerOps_kry, same]
  have hif : s.sanitizeFails.hif = w.hif := by rw [runs, answerOps_kry]
  obtain ⟨active, failed, zones, level, keys⟩ := fields
  rw [sec, zns, hif, raised]
  exact ⟨active, failed, zones, level, keys, _, List.mem_cons_self, rfl, rfl⟩

end Ends

/-- Settles O48: a sanitize begins for its command, and its end erases and marks, or fails. -/
theorem sanitizeBeginsEndsAndFails : Obligations.SanitizeBeginsEndsAndFails := by
  unfold Obligations.SanitizeBeginsEndsAndFails
  intro s
  refine ⟨fun h fetched queue steward idle fused rsvd thawed => ?_, fun ms awake active noReset noFlight => ?_⟩
  · have runs : ∀ (name : String) (f : State → State), admin name h sanitizeRow s f = .next (f (s.fetch h)) := fun name f =>
      sanitize_run fetched queue steward idle fused rsvd thawed
    have begins : ∀ {i : Instr} (name : String) (a : Sanitizing) (ause : Bool),
        exec i s = admin name h sanitizeRow s (fun t => (t.beginSanitize a ause).done h 0) → Serves i s h (fun t => t.sec.sanActive = true ∧
          t.sec.sanAction = a ∧ t.sec.sanAuse = ause ∧ t.sec.keys = [] ∧ t.boot.parked = true ∧ t.zns.online = false ∧
          (∃ e ∈ t.hif.raised, e.code = 0x0F01 ∧ e.payload = .fields [a.code, 0])) := fun {i} name a ause run => by
      obtain ⟨active, action, exit, keys, -, parked, offline, told⟩ := begun_done (beginSanitize_begun (s.fetch h) a ause) h 0
      exact ⟨_, run.trans (runs _ _), completed_complete _ _ _ _ _, active, action, exit, keys, parked, offline, told⟩
    have leaves : exec (.sanitizeExitFailureMode h) s = .next (if !(s.fetch h).sec.sanFailed then (s.fetch h).done h 0
        else if (s.fetch h).sec.sanAuse then ({ s.fetch h with sec := { (s.fetch h).sec with sanFailed := false } } : State).done h 0
        else (s.fetch h).fail h .sanitizeFailed) := (show _ = execSanitizeExitFailureMode h s from rfl).trans (runs _ _)
    refine ⟨fun ause => ⟨begins "SANITIZE_BLOCK_ERASE" .block ause (show _ = execSanitizeBlockErase h ause s from rfl),
      begins "SANITIZE_CRYPTO_ERASE" .crypto ause (show _ = execSanitizeCryptoErase h ause s from rfl)⟩,
      onlyCompletes_of_complete ((show _ = execSanitizeOverwrite h s from rfl).trans (runs _ _)), fun sound => ?_, fun failed exit => ?_, fun failed shut => ?_⟩
    · rw [show (s.fetch h).sec.sanFailed = false from sound] at leaves
      exact onlyCompletes_of_complete leaves
    · rw [show (s.fetch h).sec.sanFailed = true from failed, show (s.fetch h).sec.sanAuse = true from exit] at leaves
      obtain ⟨u, hu⟩ : ∃ u : State, u = { s.fetch h with sec := { (s.fetch h).sec with sanFailed := false } } := ⟨_, rfl⟩
      rw [← hu] at leaves
      obtain ⟨same, -⟩ := complete_host u h .success 0 0
      have leaves' : exec (.sanitizeExitFailureMode h) s = .next (u.complete h .success 0 0) := leaves
      refine ⟨_, leaves', completed_complete _ _ _ _ _, ?_⟩
      rw [same, hu]
      exact ⟨rfl, rfl⟩
    · rw [show (s.fetch h).sec.sanFailed = true from failed, show (s.fetch h).sec.sanAuse = false from shut] at leaves
      exact onlyCompletes_of_complete leaves
  · have quiet : (s.cmp.table.all (fun e => e.2.reset.isNone) && s.car.flights.isEmpty) = true := by
      rw [noFlight, Bool.and_eq_true]
      exact ⟨List.all_eq_true.mpr fun e mem => by rw [noReset e.1 e.2 mem]; rfl, rfl⟩
    obtain ⟨u, hu⟩ : ∃ u, u = s.advanceTo (s.sec.sanStart + ms * 1000000) := ⟨_, rfl⟩
    have parts : u.sec = s.sec ∧ u.mnt = s.mnt ∧ u.zns = s.zns ∧ u.fls = s.fls ∧ u.car = s.car ∧ u.cmp = s.cmp := by
      rw [hu, State.advanceTo]; exact ⟨rfl, rfl, rfl, rfl, rfl, rfl⟩
    obtain ⟨sec, mnt, zns, fls, car, cmp⟩ := parts
    have runs : ∀ written, exec (.sanitizeComplete written ms) s = arises true "SANITIZE_COMPLETE" (if written then u.endSanitize ms else u.sanitizeFails) :=
      fun written => by
        have eq : exec (.sanitizeComplete written ms) s = arises (s.awake && s.sec.sanActive && (s.cmp.table.all (fun e => e.2.reset.isNone) && s.car.flights.isEmpty))
          "SANITIZE_COMPLETE" (if written then (s.advanceTo (s.sec.sanStart + ms * 1000000)).endSanitize ms
            else (s.advanceTo (s.sec.sanStart + ms * 1000000)).sanitizeFails) := (show _ = execSanitizeComplete written ms s from rfl)
        rw [eq, awake, active, quiet, ← hu]
        rfl
    refine ⟨?_, fun lowering four live block tables system _ => ?_, ?_⟩
    · obtain ⟨wiped, ⟨active', failed, pct, level⟩, told⟩ := endSanitize_facts u ms
      obtain ⟨⟨zones, data, convData⟩, ⟨dzones, ddata⟩, landing, marker, valid, key⟩ := wiped
      refine goes_of_arises (runs true) rfl ⟨active', failed, pct, zones, data, convData, dzones, ddata, landing, marker, valid, ?_, ?_, ?_⟩
      · rw [← mnt]; exact key
      · rw [← sec]; exact told
      · rw [← sec]; exact level
    · refine goes_of_arises (runs true) rfl ?_
      have tables' : Tables u := by
        obtain ⟨a, b, c, d, e, f, g⟩ := tables
        exact ⟨zns ▸ a, zns ▸ b, fls ▸ c, fls ▸ d, fls ▸ e, car ▸ f, cmp ▸ g⟩
      exact endSanitize_lowers (by rw [sec]; exact lowering) (by rw [sec]; exact four) (by rw [State.die, fls]; exact live) (by rw [hu]; exact block)
        tables' (by rw [State.block, fls]; exact system)
    · refine goes_of_arises (runs false) rfl ?_
      have facts := sanitizeFails_facts u
      rw [sec, zns] at facts
      exact facts

end Sys2Proof.Proofs
end

section
/-! Settles O50: the choice of an option copy (R199). -/

namespace Sys2Proof.Proofs

open Sys2Proof Sys2Proof.Machine

section Choice

/-- A copy against the best of those before it (R199). -/
def betterCopy (acc : Option (Nat × OptImage)) (x : Nat × Option OptImage) : Option (Nat × OptImage) :=
  match x.2, acc with
  | none, a => a
  | some o, none => some (x.1, o)
  | some o, some a => if newer o.generation a.2.generation then some (x.1, o) else some a

theorem betterCopy_some (a : Nat × OptImage) (j : Nat) (o : OptImage) :
    betterCopy (some a) (j, some o) = if newer o.generation a.2.generation then some (j, o) else some a := rfl

theorem chooseCopy_eq (cs : List OptCopy) : chooseCopy cs = (cs.mapIdx (fun i c => (i, c.image))).foldl betterCopy none := rfl

theorem newer_self (a : Nat) : newer a a = false := by
  rw [newer]
  have zero : (a + 2 ^ 32 - a % 2 ^ 32) % 2 ^ 32 = 0 := by omega
  rw [zero]
  rfl

theorem not_newer_of_newer {a b : Nat} (h : newer a b = true) : newer b a = false := by
  simp only [newer, Bool.and_eq_true, decide_eq_true_eq] at h
  simp only [newer, Bool.and_eq_false_iff, decide_eq_false_iff_not]
  omega

/-- What is chosen among copies is one of them. -/
theorem foldl_betterCopy_mem : ∀ (l : List (Nat × Option OptImage)) (acc : Option (Nat × OptImage)) (a : Nat × OptImage),
    l.foldl betterCopy acc = some a → acc = some a ∨ (a.1, some a.2) ∈ l
  | [], _, _, h => .inl h
  | (j, image) :: l, acc, a, h => by
    obtain before | mem := foldl_betterCopy_mem l _ a h
    · cases image with
      | none => exact .inl before
      | some o =>
        cases acc with
        | none =>
          cases Option.some.inj before
          exact .inr List.mem_cons_self
        | some b =>
          rw [betterCopy_some] at before
          split at before
          · cases Option.some.inj before
            exact .inr List.mem_cons_self
          · exact .inl before
    · exact .inr (List.mem_cons_of_mem _ mem)

/-- A copy that none is newer than stays the one chosen. -/
theorem foldl_betterCopy_keeps {a : Nat × OptImage} : ∀ (l : List (Nat × Option OptImage)),
    (∀ j p, (j, some p) ∈ l → newer p.generation a.2.generation = false) → l.foldl betterCopy (some a) = some a
  | [], _ => rfl
  | (j, image) :: l, h => by
    have keeps : betterCopy (some a) (j, image) = some a := by
      cases image with
      | none => rfl
      | some p =>
        rw [betterCopy_some, h j p List.mem_cons_self]
        rfl
    rw [List.foldl_cons, keeps]
    exact foldl_betterCopy_keeps l fun j p mem => h j p (List.mem_cons_of_mem _ mem)

/-- The newest copy, the lowest of those of its generation, is chosen (R199). -/
theorem chooseCopy_newest {cs : List OptCopy} {i : Nat} {o : OptImage} (holds : ∃ c : OptCopy, cs[i]? = some c ∧ c.image = some o)
    (best : ∀ (j : Nat) (c : OptCopy) (p : OptImage), cs[j]? = some c → c.image = some p → j = i ∨ (p.generation = o.generation ∧ i < j) ∨ newer o.generation p.generation = true) :
    chooseCopy cs = some (i, o) := by
  obtain ⟨c, here, image⟩ := holds
  obtain ⟨l, hl⟩ : ∃ l, l = cs.mapIdx (fun i (c : OptCopy) => (i, c.image)) := ⟨_, rfl⟩
  have at_ : ∀ j, l[j]? = cs[j]?.map (fun (c : OptCopy) => (j, c.image)) := fun j => by rw [hl, List.getElem?_mapIdx]
  have cut := List.take_append_drop i l
  have next : l.drop i = (i, some o) :: l.drop (i + 1) := by
    rw [List.drop_eq_getElem?_toList_append, at_, here, Option.map_some, image]
    rfl
  have entry : ∀ j p k, l[k]? = some (j, some p) → k = j ∧ ∃ c : OptCopy, cs[j]? = some c ∧ c.image = some p := fun j p k h => by
    rw [at_, Option.map_eq_some_iff] at h
    obtain ⟨c, found, eq⟩ := h
    obtain ⟨rfl, image⟩ := Prod.mk.injEq .. ▸ eq
    exact ⟨rfl, c, found, image⟩
  have before : betterCopy ((l.take i).foldl betterCopy none) (i, some o) = some (i, o) := by
    rcases found : (l.take i).foldl betterCopy none with _ | a
    · rfl
    · obtain h | mem := foldl_betterCopy_mem _ _ _ found
      · cases h
      · obtain ⟨k, hk⟩ := List.getElem?_of_mem mem
        have low : k < i := by
          have := (List.getElem?_eq_some_iff.mp hk).1
          rw [List.length_take] at this
          omega
        rw [List.getElem?_take_of_lt low] at hk
        obtain ⟨kj, c', found', image'⟩ := entry _ _ _ hk
        rw [betterCopy_some, if_pos]
        obtain same | ⟨-, above⟩ | newer := best a.1 c' a.2 found' image'
        · omega
        · omega
        · exact newer
  have after : (l.drop (i + 1)).foldl betterCopy (some (i, o)) = some (i, o) := by
    refine foldl_betterCopy_keeps _ fun j p mem => ?_
    obtain ⟨k, hk⟩ := List.getElem?_of_mem mem
    rw [List.getElem?_drop] at hk
    obtain ⟨kj, c', found', image'⟩ := entry _ _ _ hk
    obtain same | ⟨same, -⟩ | newer := best j c' p found' image'
    · omega
    · rw [same, newer_self]
    · exact not_newer_of_newer newer
  rw [chooseCopy_eq, ← hl, ← cut, List.foldl_append, next, List.foldl_cons, before, after]

theorem chooseCopy_none {cs : List OptCopy} (blank : ∀ c ∈ cs, OptCopy.image c = none) : chooseCopy cs = none := by
  rcases found : chooseCopy cs with _ | a
  · rfl
  · obtain h | mem := foldl_betterCopy_mem _ _ _ (chooseCopy_eq cs ▸ found)
    · cases h
    · obtain ⟨k, hk⟩ := List.getElem?_of_mem mem
      rw [List.getElem?_mapIdx, Option.map_eq_some_iff] at hk
      obtain ⟨c, inside, eq⟩ := hk
      obtain ⟨-, image⟩ := Prod.mk.injEq .. ▸ eq
      rw [blank c (List.mem_of_getElem? inside)] at image
      cases image

end Choice

end Sys2Proof.Proofs
end

section
/-! Settles O50: the steps of the start-up and the ports (R197 to R201, R412, R434). -/

namespace Sys2Proof.Proofs

open Sys2Proof Sys2Proof.Machine

section Events

variable (s : State) (code level source c : Nat) (fields : List Int)

/-- An event tells the host's side of itself, and leaves the ports. -/
theorem port_event (p : Nat) : (s.event code level source c fields).port p = s.port p := by
  have same := hears_event s code level source c fields
  rw [State.port, State.port]
  generalize (s.event code level source c fields).hif = g at same ⊢
  rw [same]

theorem event_pins : (s.event code level source c fields).pins =
    if level = 4 then { s.pins with srcCritEvent := true } else s.pins := by
  have interrupts : ∀ (t : State) (p n : Nat), (t.interrupt p n).pins = t.pins := fun t p n => by
    rw [State.interrupt]; split <;> rfl
  have irqs : ∀ (t : State) (c bit : Nat), (t.compIrq c bit).pins = t.pins := fun t c bit => by
    unfold State.compIrq
    dsimp only
    split
    · rfl
    · rw [interrupts]; rfl
  have steward : ∀ (t : State) (e : EvRec), (t.toStewardRing e).pins = t.pins := fun t e => by
    unfold State.toStewardRing
    split
    · rfl
    · next r _ =>
      cases State.ringPush r e with
      | none => rfl
      | some pushed =>
        dsimp only
        split
        · rw [interrupts]
        · rfl
  have comps : ∀ (t : State) (e : EvRec), (t.toCompRing e).pins = t.pins := fun t e => by
    unfold State.toCompRing
    split
    · rfl
    · split
      · rfl
      · next r _ =>
        cases State.ringPush r e with
        | none => exact irqs _ _ _
        | some pushed => exact irqs _ _ _
  have lights : ∀ u : State, u.pins = s.pins → (if level = 4 then { u with pins := { u.pins with srcCritEvent := true } } else u : State).pins =
      if level = 4 then { s.pins with srcCritEvent := true } else s.pins := fun u same => by
    split
    · rw [same]
    · exact same
  have rings : ∀ (t : State) (e : EvRec), t.pins = s.pins → (((t.toStewardRing e).toCompRing e).toReels e).pins = s.pins := fun t e same =>
    (show (((t.toStewardRing e).toCompRing e).toReels e).pins = ((t.toStewardRing e).toCompRing e).pins from rfl).trans
      ((comps _ _).trans ((steward _ _).trans same))
  unfold State.event State.raise
  dsimp only
  refine lights _ (rings _ _ ?_)
  split <;> rfl

end Events

section Steps

variable {s : State}

/-- A step of the start-up that its report ends. -/
theorem boot_goes {b : BootReport} {t : State} {P : State → Prop} {n : Nat} (starting : s.pwr.pstate = .starting) (runs : s.boot.stalled = false)
    (at_ : s.boot.step = n) (step : s.bootStep (n + 1) b = some t) (holds : P t) : Goes (.bootStepAdvance b) s P := by
  refine ⟨t, ?_, holds⟩
  rw [show exec (.bootStepAdvance b) s = execBootStepAdvance b s from rfl, execBootStepAdvance, starting, runs, at_, step]
  rfl

theorem fuseStep_port (s : State) (a b c : Nat) {n : Nat} (present : (s.port n).present = true) (released : (s.port n).perst = false) :
    ((s.fuseStep a b c).port n).training = true := by
  by_cases zero : n = 0
  · rw [State.port, if_pos zero] at present released ⊢
    exact congrArg Port.training (if_pos (c := (s.hif.port0.present && !s.hif.port0.perst) = true) (by rw [present, released]; rfl))
  · rw [State.port, if_neg zero] at present released ⊢
    exact congrArg Port.training (if_pos (c := (s.hif.port1.present && !s.hif.port1.perst) = true) (by rw [present, released]; rfl))

/-- The strap bits are read by majority (R460). -/
theorem testBit_majority {i : Nat} (low : i < 3) (a b c : Nat) : (((a &&& b) ||| (a &&& c) ||| (b &&& c)) % 8).testBit i =
    (a.testBit i && b.testBit i || a.testBit i && c.testBit i || b.testBit i && c.testBit i) := by
  rw [show (8 : Nat) = 2 ^ 3 from rfl, Nat.testBit_mod_two_pow, decide_eq_true low, Nat.testBit_or, Nat.testBit_or, Nat.testBit_and, Nat.testBit_and,
    Nat.testBit_and, Bool.true_and]

theorem optionStep_some {i : Nat} {o : OptImage} (chosen : chooseCopy s.sec.optCopies = some (i, o)) : s.optionStep =
    { s.loadOptions o with boot := { (s.loadOptions o).boot with
      optValid := validCopies s.sec.optCopies, optCopy := i, optDefault := false, optGeneration := o.generation } } := by
  rw [State.optionStep, chosen]

theorem optionStep_none (chosen : chooseCopy s.sec.optCopies = none) : s.optionStep =
    { s.loadOptions OptImage.default with boot := { (s.loadOptions OptImage.default).boot with
      optValid := validCopies s.sec.optCopies, optCopy := 0, optDefault := true, optGeneration := 0 } } := by
  rw [State.optionStep, chosen]

theorem loadOptions_level (s : State) (o : OptImage) : (s.loadOptions o).sec.level =
    if s.part.sealFuse then .sealed else if (look 0 o.bytes 32).toNat = 0 then .opened else .closed := rfl

/-- The values of the defaults (R201). -/
theorem loadOptions_default (s : State) : (s.loadOptions OptImage.default).pwr.mode = .minuet ∧ (s.loadOptions OptImage.default).fan.cmdMode = 0 ∧
    (s.loadOptions OptImage.default).plog.dirtyCfg = 80 ∧ (s.loadOptions OptImage.default).thm.die = ⟨95, 110, 120⟩ ∧
    (s.loadOptions OptImage.default).thm.flash = ⟨70, 80, 85⟩ ∧ (s.loadOptions OptImage.default).hif.dual = false ∧
    (s.loadOptions OptImage.default).sec.level = (if s.part.sealFuse then .sealed else .closed) := by
  refine ⟨rfl, rfl, rfl, rfl, rfl, rfl, ?_⟩
  rw [loadOptions_level, if_neg (show ¬ (look 0 OptImage.default.bytes 32).toNat = 0 by decide)]

theorem regionOut_zero (b : s.lvl.regionB = true) : (s.regionOut 0).lvl.regionA = false ∧ (s.regionOut 0).lvl.regionB = true ∧
    (s.regionOut 0).lvl.bothLost = false := by
  simp [State.regionOut, b]

theorem regionOut_one (a : s.lvl.regionA = true) : (s.regionOut 1).lvl.regionA = true ∧ (s.regionOut 1).lvl.regionB = false ∧
    (s.regionOut 1).lvl.bothLost = false := by
  simp [State.regionOut, a]

/-- A device that fails its patterns is marked with its event (R398). -/
theorem dramStep_device {d m : Nat} (sound : s.mem.marked[d]? = some 15) : s.dramStep [(d, m)] [] =
    ({ s with mem := { s.mem with marked := modAt s.mem.marked d (fun _ => m) } } : State).event 0x0A02 3 (src 0xB d) 0 [d, m] := by
  rw [State.dramStep]
  simp only [List.foldl_cons, List.foldl_nil, if_pos sound, List.any_nil, Bool.false_eq_true, if_false]

end Steps

end Sys2Proof.Proofs
end

section
/-! Settles O50: the last step, and the rows of the start-up (R197 to R201, R412, R434). -/

namespace Sys2Proof.Proofs

open Sys2Proof Sys2Proof.Machine

section Park

variable {s t u : State}

/-- What the events and budgets of the last step leave (R197). -/
structure ParkSame (s t : State) : Prop where
  boot : t.boot = s.boot
  pwr : t.pwr = s.pwr
  plog : t.plog = s.plog
  zns : t.zns = s.zns
  fls : t.fls = s.fls
  part : t.part = s.part
  lost : t.lvl.bothLost = s.lvl.bothLost
  low : t.pins.modOkLow = s.pins.modOkLow
  stuck : t.pins.wakeStuck = s.pins.wakeStuck
  told : ∀ e ∈ s.hif.raised, e ∈ t.hif.raised

theorem ParkSame.refl (s : State) : ParkSame s s := ⟨rfl, rfl, rfl, rfl, rfl, rfl, rfl, rfl, rfl, fun _ h => h⟩

theorem ParkSame.trans (x : ParkSame s t) (y : ParkSame t u) : ParkSame s u :=
  ⟨y.boot.trans x.boot, y.pwr.trans x.pwr, y.plog.trans x.plog, y.zns.trans x.zns, y.fls.trans x.fls, y.part.trans x.part, y.lost.trans x.lost,
    y.low.trans x.low, y.stuck.trans x.stuck, fun e h => y.told e (x.told e h)⟩

theorem parkSame_event (s : State) (code level source c : Nat) (fields : List Int) : ParkSame s (s.event code level source c fields) := by
  have rest := (event_frame s code level source c fields).rest
  have pins := event_pins s code level source c fields
  have raised := raised_event s code level source c fields
  generalize s.event code level source c fields = t at rest pins raised ⊢
  refine ⟨by rw [rest], by rw [rest], by rw [rest], by rw [rest], by rw [rest], by rw [rest], by rw [rest], ?_, ?_, fun e h => ?_⟩
  · rw [pins]; split <;> rfl
  · rw [pins]; split <;> rfl
  · rw [raised]; exact List.mem_cons_of_mem _ h

theorem parkSame_ite (b : Prop) [Decidable b] (s : State) (code level source : Nat) (fields : List Int) :
    ParkSame s (if b then s.event code level source 0 fields else s) ∧ (if b then s.event code level source 0 fields else s).thm = s.thm := by
  split
  · exact ⟨parkSame_event _ _ _ _ _ _, by rw [(event_frame s code level source 0 fields).rest]⟩
  · exact ⟨.refl s, rfl⟩

/-- A sanitize that a reset cut short goes on (R562). -/
theorem parkSame_resume (s : State) : ParkSame s s.resumeSanitize ∧ s.resumeSanitize.thm = s.thm := by
  unfold State.resumeSanitize
  split
  · extract_lets code
    clear_value code
    obtain ⟨u, hu⟩ : ∃ u : State, u = { s with sec := { s.sec with
      sanResumed := true, sanPct := 0, sanStart := s.now, lowering := decide (s.sec.sanAction = Sanitizing.lowering) } } := ⟨_, rfl⟩
    rw [← hu]
    have first : ParkSame s u := by rw [hu]; exact ⟨rfl, rfl, rfl, rfl, rfl, rfl, rfl, rfl, rfl, fun _ h => h⟩
    refine ⟨first.trans (parkSame_event _ _ _ _ _ _), ?_⟩
    rw [(event_frame u _ _ _ _ _).rest, hu]
  · exact ⟨.refl s, rfl⟩

/-- The state of the last step before its events. -/
def parkSet (s : State) : State := { s with
    boot := { s.boot with step := 9, parked := true, offLatch := false }
    pwr := { s.pwr with
      pstate := .run, lastActivity := s.now
      wakeSource := if s.boot.offLatch then 1 else s.pwr.wakeSource
      wakeLeft := if s.boot.offLatch then 3 else s.pwr.wakeLeft
      wakeMask := if s.boot.offLatch then 2 else s.pwr.wakeMask
      wakes := if s.boot.offLatch then s.pwr.wakes + 1 else s.pwr.wakes }
    plog := { s.plog with charger := true }
    hif := { s.hif with port0 := { s.hif.port0 with rdy := s.hif.port0.en && !s.hif.port0.squashing }
                        port1 := { s.hif.port1 with rdy := s.hif.port1.en && !s.hif.port1.squashing } }
    lvl := { s.lvl with windowStart := s.now - s.now % 1000000, rowInForce := s.ladderRow, rowPower := s.ladderRow } }

/-- The event of a trip that the record kept (R507). -/
def tripTold (s : State) : State :=
  match s.thm.tripRecord with
  | some (k, t, early) =>
    ({ s with thm := { s.thm with tripRecord := none } }).event 0x0D03 4 srcThermal 0 [k, (t : Int) - 40, if early then 1 else 0]
  | none => s

theorem tripTold_facts (s : State) : ParkSame s (tripTold s) ∧ (tripTold s).thm.tripRecord = none ∧
    ∀ k d early, s.thm.tripRecord = some (k, d, early) → ∃ e ∈ (tripTold s).hif.raised, e.code = 0x0D03 ∧
      e.payload = .fields [k, (d : Int) - 40, if early then 1 else 0] := by
  unfold tripTold
  split
  · next k d early found =>
    obtain ⟨u, hu⟩ : ∃ u : State, u = { s with thm := { s.thm with tripRecord := none } } := ⟨_, rfl⟩
    rw [← hu]
    have first : ParkSame s u := by rw [hu]; exact ⟨rfl, rfl, rfl, rfl, rfl, rfl, rfl, rfl, rfl, fun _ h => h⟩
    refine ⟨first.trans (parkSame_event _ _ _ _ _ _), ?_, fun k' d' early' same => ?_⟩
    · rw [(event_frame u _ _ _ _ _).rest, hu]
    · rw [found] at same
      cases same
      exact ⟨_, by rw [raised_event]; exact List.mem_cons_self, rfl, rfl⟩
  · next found => exact ⟨.refl s, found, fun k d early same => by rw [found] at same; cases same⟩

/-- The last step leaves the module Parked, with its events (R197, R201, R222, R507). -/
theorem parkStep_facts (s : State) : ParkSame (parkSet s) s.parkStep ∧ s.parkStep.thm.tripRecord = none ∧
    (s.boot.optDefault = true → ∃ e ∈ s.parkStep.hif.raised, e.code = 0x0600) ∧
    (∀ k d early, s.thm.tripRecord = some (k, d, early) → ∃ e ∈ s.parkStep.hif.raised, e.code = 0x0D03 ∧
      e.payload = .fields [k, (d : Int) - 40, if early then 1 else 0]) := by
  obtain ⟨s2, h2⟩ : ∃ s2, s2 = ((parkSet s).apportionPower).apportionProg := ⟨_, rfl⟩
  obtain ⟨s3, h3⟩ : ∃ s3, s3 = if s2.boot.optDefault then s2.event 0x0600 4 srcLoader 0 [s2.boot.optValid.toNat] else s2 := ⟨_, rfl⟩
  obtain ⟨s4, h4⟩ : ∃ s4, s4 = tripTold s3 := ⟨_, rfl⟩
  obtain ⟨s5, h5⟩ : ∃ s5, s5 = if s4.pwr.underRange then s4.event 0x0C0C 2 srcStage 0 [s4.pwr.vIn] else s4 := ⟨_, rfl⟩
  obtain ⟨s6, h6⟩ : ∃ s6, s6 = if s5.pwr.overRange then s5.event 0x0C0D 2 srcStage 0 [s5.pwr.vIn] else s5 := ⟨_, rfl⟩
  have runs : s.parkStep = s6.resumeSanitize := by rw [h6, h5, h4, h3, h2]; rfl
  have same2 : ParkSame (parkSet s) s2 := by rw [h2]; exact ⟨rfl, rfl, rfl, rfl, rfl, rfl, rfl, rfl, rfl, fun _ h => h⟩
  have thm2 : s2.thm = s.thm := by rw [h2]; rfl
  obtain ⟨same3, thm3⟩ := h3 ▸ parkSame_ite (s2.boot.optDefault = true) s2 0x0600 4 srcLoader [s2.boot.optValid.toNat]
  obtain ⟨same4, trip4, told4⟩ := h4 ▸ tripTold_facts s3
  obtain ⟨same5, thm5⟩ := h5 ▸ parkSame_ite (s4.pwr.underRange = true) s4 0x0C0C 2 srcStage [s4.pwr.vIn]
  obtain ⟨same6, thm6⟩ := h6 ▸ parkSame_ite (s5.pwr.overRange = true) s5 0x0C0D 2 srcStage [s5.pwr.vIn]
  obtain ⟨same7, thm7⟩ := parkSame_resume s6
  have last := (same5.trans same6).trans same7
  rw [runs]
  refine ⟨((same2.trans same3).trans same4).trans last, by rw [thm7, thm6, thm5, trip4], fun defaults => ?_, fun k d early kept => ?_⟩
  · have here : s2.boot.optDefault = true := by rw [h2]; exact defaults
    rw [if_pos here] at h3
    have raised := raised_event s2 0x0600 4 srcLoader 0 [s2.boot.optValid.toNat]
    rw [← h3] at raised
    exact ⟨_, last.told _ (same4.told _ (by rw [raised]; exact List.mem_cons_self)), rfl⟩
  · obtain ⟨e, mem, code, payload⟩ := told4 k d early (by rw [thm3, thm2]; exact kept)
    exact ⟨e, last.told _ mem, code, payload⟩

end Park

end Sys2Proof.Proofs
end

section
/-! Settles O50: the rows of the start-up and of the ports (R197 to R201, R412, R434). -/

namespace Sys2Proof.Proofs

open Sys2Proof Sys2Proof.Machine

section Start

variable {s : State}

theorem modOk_of_starting (starting : s.pwr.pstate = .starting) : s.modOk = false := by
  rw [State.modOk, starting, Bool.and_false]

/-- R199: the newest copy is loaded, the lower of two of one generation. -/
theorem options_chosen (starting : s.pwr.pstate = .starting) (runs : s.boot.stalled = false) (at_ : s.boot.step = 5) {i : Nat} {o : OptImage}
    (holds : ∃ c : OptCopy, s.sec.optCopies[i]? = some c ∧ c.image = some o)
    (best : ∀ (j : Nat) (c : OptCopy) (p : OptImage), s.sec.optCopies[j]? = some c → c.image = some p →
      j = i ∨ (p.generation = o.generation ∧ i < j) ∨ (0 < (o.generation + 2 ^ 32 - p.generation % 2 ^ 32) % 2 ^ 32 ∧
        (o.generation + 2 ^ 32 - p.generation % 2 ^ 32) % 2 ^ 32 < 2 ^ 31)) :
    Goes (.bootStepAdvance .ready) s (fun t => t.boot.step = 6 ∧ t.boot.optDefault = false ∧ t.boot.optCopy = i ∧
      t.boot.optGeneration = o.generation ∧ t.sec.optInForce = o ∧ t.sec.optCopies = s.sec.optCopies ∧
      t.sec.level = (if s.part.sealFuse then .sealed else if (look 0 o.bytes 32).toNat = 0 then .opened else .closed)) := by
  have chosen := chooseCopy_newest holds fun j c p here image => by
    obtain same | older | ⟨pos, near⟩ := best j c p here image
    · exact .inl same
    · exact .inr (.inl older)
    · exact .inr (.inr (by rw [newer]; exact Bool.and_eq_true _ _ ▸ ⟨decide_eq_true pos, decide_eq_true near⟩))
  refine boot_goes starting runs at_ rfl ⟨rfl, ?_⟩
  rw [optionStep_some chosen]
  exact ⟨rfl, rfl, rfl, rfl, rfl, loadOptions_level s o⟩

/-- R201: without a copy the defaults are taken. -/
theorem options_default (starting : s.pwr.pstate = .starting) (runs : s.boot.stalled = false) (at_ : s.boot.step = 5)
    (blank : ∀ c ∈ s.sec.optCopies, c.image = none) :
    Goes (.bootStepAdvance .ready) s (fun t => t.boot.step = 6 ∧ t.boot.optDefault = true ∧
      t.boot.optGeneration = 0 ∧ t.sec.level = (if s.part.sealFuse then .sealed else .closed) ∧ t.pwr.mode = .minuet ∧
      t.fan.cmdMode = 0 ∧ t.plog.dirtyCfg = 80 ∧ t.thm.die = ⟨95, 110, 120⟩ ∧ t.thm.flash = ⟨70, 80, 85⟩ ∧ t.hif.dual = false) := by
  obtain ⟨mode, cmd, dirty, die, flash, dual, level⟩ := loadOptions_default s
  refine boot_goes starting runs at_ rfl ⟨rfl, ?_⟩
  rw [optionStep_none (chooseCopy_none blank)]
  exact ⟨rfl, rfl, level, mode, cmd, dirty, die, flash, dual⟩

/-- R398: a device that fails its patterns is marked, and its event posted. -/
theorem dram_device (starting : s.pwr.pstate = .starting) (runs : s.boot.stalled = false) (at_ : s.boot.step = 7) {d m : Nat}
    (sound : s.mem.marked[d]? = some 15) :
    Goes (.bootStepAdvance (.dram [(d, m)] [])) s (fun t => t.boot.step = 8 ∧ t.mem.marked[d]? = some m ∧
      (∀ x, x ≠ d → t.mem.marked[x]? = s.mem.marked[x]?) ∧
      ∃ e, t.hif.raised = e :: s.hif.raised ∧ e.code = 0x0A02 ∧ e.payload = .fields [d, m]) := by
  obtain ⟨inside, -⟩ := List.getElem?_eq_some_iff.mp sound
  refine boot_goes starting runs at_ rfl ⟨rfl, ?_⟩
  rw [dramStep_device sound]
  obtain ⟨u, hu⟩ : ∃ u : State, u = { s with mem := { s.mem with marked := modAt s.mem.marked d (fun _ => m) } } := ⟨_, rfl⟩
  rw [← hu]
  have mem : (u.event 0x0A02 3 (src 0xB d) 0 [d, m]).mem = u.mem := by rw [(event_frame u _ _ _ _ _).rest]
  have marked : u.mem.marked = modAt s.mem.marked d (fun _ => m) := by rw [hu]
  have raised := raised_event u 0x0A02 3 (src 0xB d) 0 [(d : Int), (m : Int)]
  refine ⟨?_, fun x ne => ?_, _, raised.trans (congrArg _ ?_), rfl, rfl⟩
  · exact (congrArg (fun x : Integrity => x.marked[d]?) mem).trans ((congrArg (·[d]?) marked).trans (modAt_same inside m))
  · exact (congrArg (fun y : Integrity => y.marked[x]?) mem).trans ((congrArg (·[x]?) marked).trans (modAt_other _ ne _))
  · rw [hu]

/-- R398: a channel of the memory that is not found takes its region out. -/
theorem dram_channel (starting : s.pwr.pstate = .starting) (runs : s.boot.stalled = false) (at_ : s.boot.step = 7)
    (a : s.lvl.regionA = true) (b : s.lvl.regionB = true) (c : Nat) :
    Goes (.bootStepAdvance (.dram [] [c])) s (fun t => t.boot.step = 8 ∧
      t.lvl.regionA = decide (4 ≤ c) ∧ t.lvl.regionB = decide (c < 4) ∧ t.lvl.bothLost = false) := by
  refine boot_goes starting runs at_ rfl ⟨rfl, ?_⟩
  by_cases first : c < 4
  · have region : s.dramStep [] [c] = s.regionOut 0 := by
      simp only [State.dramStep, List.foldl_nil, List.any_cons, List.any_nil, Bool.or_false, decide_eq_true first, if_true,
        decide_eq_false (Nat.not_le.mpr first), Bool.false_eq_true, if_false]
    rw [region, decide_eq_true first, decide_eq_false (Nat.not_le.mpr first)]
    exact regionOut_zero b
  · have region : s.dramStep [] [c] = s.regionOut 1 := by
      simp only [State.dramStep, List.foldl_nil, List.any_cons, List.any_nil, Bool.or_false, decide_eq_false first, if_true,
        decide_eq_true (Nat.not_lt.mp first), Bool.false_eq_true, if_false]
    rw [region, decide_eq_false first, decide_eq_true (Nat.not_lt.mp first)]
    exact regionOut_one a

/-- R197: the ninth step leaves the module Parked. -/
theorem parks (starting : s.pwr.pstate = .starting) (runs : s.boot.stalled = false) (at_ : s.boot.step = 8) :
    Goes (.bootStepAdvance .ready) s (fun t => t.boot = { s.boot with step := 9, parked := true, offLatch := false } ∧
      t.pwr.pstate = .run ∧ t.plog = { s.plog with charger := true } ∧ t.thm.tripRecord = none ∧
      (s.lvl.bothLost = false → s.pins.modOkLow = false → s.pins.wakeStuck = false → t.modOk = true) ∧
      (s.boot.optDefault = true → ∃ e ∈ t.hif.raised, e.code = 0x0600) ∧
      (∀ k d early, s.thm.tripRecord = some (k, d, early) → ∃ e ∈ t.hif.raised, e.code = 0x0D03 ∧
        e.payload = .fields [k, (d : Int) - 40, if early then 1 else 0]) ∧
      t.zns = s.zns ∧ t.fls = s.fls ∧ t.part = s.part) := by
  obtain ⟨same, record, defaults, trip⟩ := parkStep_facts s
  refine boot_goes starting runs at_ rfl ?_
  generalize s.parkStep = t at same record defaults trip ⊢
  have run : t.pwr.pstate = .run := congrArg Power.pstate same.pwr
  refine ⟨same.boot, run, same.plog, record, fun lost low stuck => ?_, defaults, trip, same.zns, same.fls, same.part⟩
  rw [State.modOk, run, same.lost.trans lost, same.low.trans low, same.stuck.trans stuck, same.boot]
  rfl

end Start

section Ports

variable {s : State}

theorem port_zero_iff {n : Nat} (low : n < 2) : ¬ (1 - n = 0 ↔ n = 0) := by omega

/-- R197, R412: a released port trains once step 4 has run. -/
theorem perst_releases {n : Nat} (low : n < 2) (held : (s.port n).perst = true) :
    Goes (.perstRelease n) s (fun t => (t.port n).perst = false ∧ t.port (1 - n) = s.port (1 - n) ∧
      (s.pwr.pstate = .starting → s.boot.step < 4 → (t.port n).training = false) ∧
      (s.pwr.pstate = .run → 4 ≤ s.boot.step → (t.port n).training = (s.port n).present)) := by
  refine goes_of_arises rfl held ⟨?_, port_setPort_other s (port_zero_iff low) _, fun starting early => ?_, fun run late => ?_⟩
  · rw [port_setPort_same s Iff.rfl]
  · rw [port_setPort_same s Iff.rfl, starting]
    exact (congrArg _ (decide_eq_false (Nat.not_le.mpr early))).trans (Bool.and_false _)
  · rw [port_setPort_same s Iff.rfl, run]
    exact (congrArg _ (decide_eq_true late)).trans (Bool.and_true _)

/-- R200: a configuration request is put off until the ninth step has run. -/
theorem configuration_answers {n : Nat} (up : (s.port n).linkUp = true) :
    (s.boot.step ≠ 9 → Goes (.configurationRequest n) s (fun t => t = { s with hif := { s.hif with out := .crs n :: s.hif.out } })) ∧
    (s.boot.step = 9 → Goes (.configurationRequest n) s (fun t => t = { s with hif := { s.hif with out := .configServed n :: s.hif.out } })) :=
  ⟨fun early => goes_of_arises rfl up (by rw [if_neg early]; rfl), fun done => goes_of_arises rfl up (by rw [if_pos done]; rfl)⟩

/-- R412: a port that has trained carries its rate and width, and says where it is below its own. -/
theorem port_links {n r w : Nat} (low : n < 2) (present : (s.port n).present = true) (training : (s.port n).training = true)
    (down : (s.port n).linkUp = false) (slowest : 1 ≤ r) (fastest : r ≤ 6) (narrow : 1 ≤ w) (wide : w ≤ (if s.hif.dual then 8 else 16)) :
    Goes (.portLinkUp n r w) s (fun t => (t.port n).linkUp = true ∧ (t.port n).rate = r ∧ (t.port n).width = w ∧
      t.port (1 - n) = s.port (1 - n) ∧ (t.port n).degraded = (decide (r < 6) || decide (w < (if s.hif.dual then 8 else 16))) ∧
      ∃ e ∈ t.hif.raised, e.code = 0x0100 ∧ e.payload = .fields [n, r, w]) := by
  obtain ⟨slow, hslow⟩ : ∃ slow, slow = (decide (r < 6) || decide (w < (if s.hif.dual then 8 else 16))) := ⟨_, rfl⟩
  obtain ⟨v, hv⟩ : ∃ v : Port, v = { s.port n with linkUp := true, training := false, rate := r, width := w, degraded := slow } := ⟨_, rfl⟩
  obtain ⟨u, hu⟩ : ∃ u, u = (s.setPort n v).event 0x0100 0 srcHost 0 [(n : Int), (r : Int), (w : Int)] := ⟨_, rfl⟩
  have run : exec (.portLinkUp n r w) s = arises (decide (n < 2) && (s.port n).present && (s.port n).training && !(s.port n).linkUp &&
      decide (1 ≤ r) && decide (r ≤ 6) && decide (1 ≤ w) && decide (w ≤ (if s.hif.dual then 8 else 16))) "PORT_LINK_UP"
      (if slow then u.event 0x0102 2 srcHost 0 [(n : Int), (r : Int), (w : Int)] else u) := by
    rw [hu, hv, hslow]; rfl
  have told : ∃ e ∈ u.hif.raised, e.code = 0x0100 ∧ e.payload = .fields [(n : Int), (r : Int), (w : Int)] :=
    ⟨_, by rw [hu, raised_event]; exact List.mem_cons_self, rfl, rfl⟩
  have ports : ∀ p, (if slow then u.event 0x0102 2 srcHost 0 [(n : Int), (r : Int), (w : Int)] else u).port p = (s.setPort n v).port p := fun p => by
    have first : u.port p = (s.setPort n v).port p := by rw [hu, port_event]
    split
    · rw [port_event, first]
    · exact first
  refine goes_of_arises run (by simp [low, present, training, down, slowest, fastest, narrow, wide]) ?_
  rw [ports, ports, port_setPort_same s Iff.rfl, port_setPort_other s (port_zero_iff low), ← hslow, hv]
  refine ⟨rfl, rfl, rfl, rfl, rfl, ?_⟩
  obtain ⟨e, mem, code, payload⟩ := told
  refine ⟨e, ?_, code, payload⟩
  split
  · rw [raised_event]; exact List.mem_cons_of_mem _ mem
  · exact mem

/-- R434: a port that is lost is disabled and its loss counted; the ring and the interrupts of the port are dropped. -/
def lostPort (s : State) (p : Nat) (cause : LossCause) : State :=
  let t := s.setPort p { State.linkLost (s.port p) cause with losses := (s.port p).losses + 1 }
  State.disablePort { t with hif := { t.hif with
    ring := t.hif.ring.filter (fun (r : Ring) => decide (r.port ≠ p))
    msix := clearRange t.hif.msix (p * 32768) 32768
    msixPending := t.hif.msixPending.filter (fun i => decide (i / 8192 ≠ p)) } } p

theorem losePort_eq (s : State) (p : Nat) (cause : LossCause) : ∃ code : Int, s.losePort p cause =
    (((((lostPort s p cause).cmp.table.filter (fun e => decide (e.1 ≠ 0) && decide (e.2.port = p))).map (·.1)).foldl
      (fun (t : State) c => t.beginReset c .host) (lostPort s p cause)).event 0x0101 3 srcHost 0 [(p : Int), code, s.portCmds p]) := by
  have same : (lostPort s p cause).cmp = s.cmp := by
    unfold lostPort State.disablePort State.setPort
    split <;> rfl
  have kept : ∀ v, (s.setPort p v).cmp = s.cmp := fun v => by rw [State.setPort]; split <;> rfl
  rw [same, ← kept { State.linkLost (s.port p) cause with losses := (s.port p).losses + 1 }]
  cases cause
  · exact ⟨0, rfl⟩
  · exact ⟨1, rfl⟩
  · exact ⟨2, rfl⟩

theorem port_lostPort_same (p : Nat) (cause : LossCause) : (lostPort s p cause).port p =
    { State.linkLost (s.port p) cause with losses := (s.port p).losses + 1, en := false, rdy := false, squashing := true } := by
  rw [lostPort, State.disablePort, port_setPort_same _ Iff.rfl]
  have held := port_setPort_same s (p := p) Iff.rfl { State.linkLost (s.port p) cause with losses := (s.port p).losses + 1 }
  rw [State.port] at held
  rw [State.port]
  dsimp only
  rw [held]

theorem port_lostPort_other {p q : Nat} (other : ¬ (q = 0 ↔ p = 0)) (cause : LossCause) : (lostPort s p cause).port q = s.port q := by
  rw [lostPort, State.disablePort, port_setPort_other _ other]
  exact port_setPort_other s other _

theorem lostPort_rest (p : Nat) (cause : LossCause) : ∃ hif : HostLink, lostPort s p cause = { s with hif := hif } ∧
    hif.raised = s.hif.raised := by
  unfold lostPort State.disablePort State.setPort
  split <;> exact ⟨_, rfl, rfl⟩

theorem losePort_alone {p : Nat} {cause : LossCause} (none : ∀ x c, (x, c) ∈ s.cmp.table → x = 0 ∨ c.port ≠ p) : ∃ fields : List Int,
    s.losePort p cause = (lostPort s p cause).event 0x0101 3 srcHost 0 fields := by
  obtain ⟨code, eq⟩ := losePort_eq s p cause
  obtain ⟨hif, rest, -⟩ := lostPort_rest (s := s) p cause
  have mine : ((lostPort s p cause).cmp.table.filter (fun e => decide (e.1 ≠ 0) && decide (e.2.port = p))) = [] := by
    rw [rest]
    refine List.filter_eq_nil_iff.mpr fun e mem => ?_
    obtain zero | other := none e.1 e.2 mem
    · simp [zero]
    · simp [other]
  rw [mine] at eq
  exact ⟨_, eq⟩

theorem port_is_lost {n : Nat} (low : n < 2) (present : (s.port n).present = true) (released : (s.port n).perst = false)
    (up : (s.port n).linkUp = true) (cause : LossCause) (none : ∀ x c, (x, c) ∈ s.cmp.table → x = 0 ∨ c.port ≠ n) :
    Goes (.portLost n cause) s (fun t => (t.port n).losses = (s.port n).losses + 1 ∧ (t.port n).en = false ∧ (t.port n).rdy = false ∧
      (t.port n).perst = decide (cause = .perst) ∧ (t.port n).linkUp = decide (cause = .flr) ∧
      t.port (1 - n) = s.port (1 - n) ∧ t.zns = s.zns ∧ t.boot = s.boot ∧ t.mnt = s.mnt ∧
      ∃ e, t.hif.raised = e :: s.hif.raised ∧ e.code = 0x0101) := by
  obtain ⟨fields, eq⟩ := losePort_alone (s := s) (p := n) (cause := cause) none
  obtain ⟨hif, rest, quiet⟩ := lostPort_rest (s := s) n cause
  refine goes_of_arises rfl (by cases cause <;> simp [low, present, released, up]) ?_
  rw [eq]
  have frame := event_frame (lostPort s n cause) 0x0101 3 srcHost 0 fields
  have raised := raised_event (lostPort s n cause) 0x0101 3 srcHost 0 fields
  have ports := fun q => port_event (s := lostPort s n cause) 0x0101 3 srcHost 0 fields q
  generalize (lostPort s n cause).event 0x0101 3 srcHost 0 fields = t at frame raised ports ⊢
  rw [ports, ports, port_lostPort_same, port_lostPort_other (port_zero_iff low)]
  refine ⟨rfl, rfl, rfl, ?_, ?_, rfl, ?_, ?_, ?_, _, raised.trans (congrArg _ ?_), rfl⟩
  · cases cause <;> simp [State.linkLost, released]
  · cases cause <;> simp [State.linkLost, up]
  · rw [frame.rest, rest]
  · rw [frame.rest, rest]
  · rw [frame.rest, rest]
  · rw [rest]; exact quiet

end Ports

/-- Settles O50 (R197 to R201, R412, R434). -/
theorem startUpRunsItsStepsAndPortsTrain : Obligations.StartUpRunsItsStepsAndPortsTrain := fun s =>
  ⟨fun v en back dark enough most free => goes_of_arises rfl
      (by obtain en | trip := free <;> simp [*]) ⟨rfl, rfl, rfl⟩,
    modOk_of_starting,
    fun starting runs =>
      ⟨fun at_ => by
          obtain one | four := at_
          · exact boot_goes starting runs one rfl (by rw [one])
          · exact boot_goes starting runs four rfl (by rw [four]),
        fun two => boot_goes starting runs two rfl rfl,
        fun three a b c => boot_goes starting runs three rfl ⟨rfl, fun _ low => testBit_majority low a b c,
          fun _ _ present released => fuseStep_port s a b c present released⟩,
        fun five => ⟨fun _ _ holds best => options_chosen starting runs five holds best, options_default starting runs five⟩,
        fun six => boot_goes starting runs six rfl ⟨rfl, rfl⟩,
        fun seven => ⟨boot_goes starting runs seven rfl rfl, fun _ _ sound => dram_device starting runs seven sound,
          fun a b c _ => dram_channel starting runs seven a b c⟩,
        parks starting runs,
        goes_of_arises rfl (by rw [starting, runs]; rfl) rfl⟩,
    fun _ low => ⟨perst_releases low, configuration_answers,
      fun _ _ present training down slowest fastest narrow wide => port_links low present training down slowest fastest narrow wide,
      fun cause present released up none => port_is_lost low present released up cause none⟩⟩

end Sys2Proof.Proofs
end

section
/-! SUPPORT: the edge of a credit window and a step of the time leave the time base otherwise, and lose no event (R492 to R495). -/

namespace Sys2Proof.Proofs

open Sys2Proof Sys2Proof.Machine

/-- The time base stands, and no event is lost. -/
structure TimeStands (s t : State) : Prop where
  tim : t.tim = s.tim
  told : ∀ e ∈ s.hif.raised, e ∈ t.hif.raised

section Window

variable {s t u : State}

theorem TimeStands.trans (x : TimeStands s t) (y : TimeStands t u) : TimeStands s u :=
  ⟨y.tim.trans x.tim, fun e mem => y.told e (x.told e mem)⟩

theorem timeStands_of (tim : t.tim = s.tim) (raised : t.hif.raised = s.hif.raised) : TimeStands s t :=
  ⟨tim, fun _ mem => raised ▸ mem⟩

theorem timeStands_event (s : State) (code level source c : Nat) (fields : List Int) : TimeStands s (s.event code level source c fields) :=
  ⟨by rw [(event_frame s code level source c fields).rest], fun e mem => by rw [raised_event]; exact List.mem_cons_of_mem _ mem⟩

theorem timeStands_done (s : State) (h : HostCmd) (dw : BitVec 32) : TimeStands s (s.done h dw) := by
  obtain ⟨same, raised, -⟩ := complete_host s h .success dw 0
  exact timeStands_of (by rw [State.done, same]) raised

theorem timeStands_foldl {α : Type} {f : State → α → State} (keeps : ∀ t x, TimeStands t (f t x)) : ∀ (l : List α) (s : State),
    TimeStands s (l.foldl f s)
  | [], _ => timeStands_of rfl rfl
  | x :: l, s => (keeps s x).trans (timeStands_foldl keeps l (f s x))

theorem settleCodec_idle (none : s.fcd.jobs = []) : s.settleCodec = s := by
  rw [State.settleCodec, none]
  rfl

/-- R465: the mode that waited is in force with the window, and its commands complete. -/
theorem timeStands_applyMode (idle : s.fcd.jobs = []) : TimeStands s s.applyMode := by
  obtain ⟨u, hu⟩ : ∃ u : State, u = { s with
    pwr := { s.pwr with mode := s.nextMode.1, pendingMode := none, modeCommands := [], phaseLimit := s.phaseRow }
    fcd := { s.fcd with lanesInUse := if s.part.codec then s.nextMode.1.lanes else 0 } } := ⟨_, rfl⟩
  have none : u.fcd.jobs = [] := by rw [hu]; exact idle
  have apply : s.applyMode = s.pwr.modeCommands.foldl (fun t h => t.done h 0) (if s.nextMode.1 = s.pwr.mode then u.settleCodec else
      u.settleCodec.event 0x0C00 1 srcPower 0 [s.pwr.mode.code, s.nextMode.1.code, s.nextMode.2]) := by rw [hu]; rfl
  have first : TimeStands s u := by rw [hu]; exact timeStands_of rfl rfl
  rw [apply, settleCodec_idle none]
  refine first.trans (TimeStands.trans ?_ (timeStands_foldl (fun t h => timeStands_done t h 0) _ _))
  split
  · exact timeStands_of rfl rfl
  · exact timeStands_event _ _ _ _ _ _

theorem timeStands_liftFanFloor (s : State) : TimeStands s s.liftFanFloor := by
  unfold State.liftFanFloor
  split
  · dsimp only
    split
    · exact TimeStands.trans (t := { s with thm := { s.thm with fanFloor := false, step := 0 } }) (timeStands_of rfl rfl)
        (timeStands_event _ _ _ _ _ _)
    · exact timeStands_of rfl rfl
  · exact timeStands_of rfl rfl

theorem timeStands_suspend (s : State) (d : Nat) : TimeStands s (s.suspend d) := by
  unfold State.suspend
  dsimp only
  split
  · exact timeStands_of rfl rfl
  · split
    · exact timeStands_of rfl rfl
    · split
      · refine TimeStands.trans ?_ (timeStands_event _ _ _ _ _ _)
        exact timeStands_of rfl rfl
      · exact timeStands_of rfl rfl

theorem timeStands_trimSlots (cap : Nat) : ∀ (n : Nat) (s : State), TimeStands s (State.trimSlots cap n s)
  | 0, s => timeStands_of rfl rfl
  | n + 1, s => by
    rw [State.trimSlots]
    split
    · exact timeStands_of rfl rfl
    · split
      · next d _ =>
        have one : TimeStands s (s.capSuspend d) := (timeStands_suspend s d).trans (timeStands_of rfl rfl)
        exact one.trans (timeStands_trimSlots cap n (s.capSuspend d))
      · exact timeStands_of rfl rfl

theorem timeStands_measureDaily (s : State) : TimeStands s s.measureDaily := by
  unfold State.measureDaily State.startMeasurement
  split
  · split <;> exact timeStands_of rfl rfl
  · exact timeStands_of rfl rfl

/-- R133: the edge of a credit window. -/
theorem timeStands_windowEdge (idle : s.fcd.jobs = []) : TimeStands s s.windowEdge := by
  obtain ⟨a, ha⟩ : ∃ a, a = (s.startClock 4).reportDemand := ⟨_, rfl⟩
  obtain ⟨b, hb⟩ : ∃ b, b = a.applyMode.liftFanFloor.measureDaily := ⟨_, rfl⟩
  obtain ⟨row, hrow⟩ : ∃ row, row = b.ladderRow := ⟨_, rfl⟩
  obtain ⟨c, hc⟩ : ∃ c : State, c = ({ b with
    lvl := { b.lvl with rowInForce := row, rowPower := row, windowStart := b.now - b.now % 1000000 }
    fls := { b.fls with
      dies := b.fls.dies.map (fun (e : Nat × Die) => (e.1, { e.2 with op := e.2.op.map (fun (o : DieOp) =>
        { o with region := b.dieRegion e.1 }) }))
      clusters := b.fls.clusters.map (fun (c : ClusterCfg) => { c with media := c.mediaNext.getD c.media, mediaNext := none })
      fold := b.fls.foldNext.getD b.fls.fold, foldNext := none }
    car := { b.car with ra := b.car.ra.map (fun (r : RaBudget) => State.RaBudget.renew r (rowRa row)) } } : State).apportionPower.apportionProg.renewCredit :=
    ⟨_, rfl⟩
  have edge : s.windowEdge = State.trimSlots (rowProg row) (c.slotsHeld 0 + c.slotsHeld 1) c := by rw [hc, hrow, hb, ha]; rfl
  have one : TimeStands s a := by rw [ha]; exact timeStands_of rfl rfl
  have two : TimeStands a b := by
    rw [hb]
    exact ((timeStands_applyMode (by rw [ha]; exact idle)).trans (timeStands_liftFanFloor _)).trans (timeStands_measureDaily _)
  have three : TimeStands b c := by rw [hc]; exact timeStands_of rfl rfl
  rw [edge]
  exact ((one.trans two).trans three).trans (timeStands_trimSlots _ _ _)

/-- R494: a step of the time and its event. -/
theorem stepTime_facts {n : Nat} (runs : s.tim.saturated = false) (moves : n ≠ s.now) (fits : n < State.maxNow) (idle : s.fcd.jobs = []) :
    (s.stepTime n).tim = { s.tim with now := n, steps := s.tim.steps + 1, slew := 0, slewPhase := 0 } ∧
    (∀ e ∈ s.hif.raised, e ∈ (s.stepTime n).hif.raised) ∧
    ∃ e ∈ (s.stepTime n).hif.raised, e.code = 0x0C09 ∧ e.payload = .fields [(n : Int) - s.now, s.tim.source] := by
  obtain ⟨a, ha⟩ : ∃ a : State, a = { s with tim := { s.tim with now := n, steps := s.tim.steps + 1, slew := 0, slewPhase := 0 } } := ⟨_, rfl⟩
  obtain ⟨b, hb⟩ : ∃ b, b = a.event 0x0C09 1 srcTime 0 [(n : Int) - s.now, s.tim.source] := ⟨_, rfl⟩
  obtain ⟨c, hc⟩ : ∃ c, c = if b.pins.ppsOutEn && decide (s.now / 1000000000 < n / 1000000000) then b.pulse else b := ⟨_, rfl⟩
  have step : s.stepTime n = if c.awake && decide (c.lvl.windowStart + 1000000 ≤ n) then c.windowEdge else c := by
    rw [State.stepTime, runs, Bool.false_or, decide_eq_false moves, if_neg Bool.false_ne_true, if_neg (Nat.not_le.mpr fits), hc, hb, ha]
  have tim : a.tim = { s.tim with now := n, steps := s.tim.steps + 1, slew := 0, slewPhase := 0 } := by rw [ha]
  have told : a.hif = s.hif := by rw [ha]
  have told' : b.hif.raised = eventOf a 0x0C09 1 srcTime 0 (.fields [(n : Int) - s.now, s.tim.source]) :: a.hif.raised := by rw [hb, raised_event]
  have first : TimeStands a b := hb ▸ timeStands_event _ _ _ _ _ _
  have second : TimeStands b c := by rw [hc]; split <;> exact timeStands_of rfl rfl
  have none : c.fcd.jobs = [] := by
    have same : b.fcd = a.fcd := by rw [hb, (event_frame _ _ _ _ _ _).rest]
    have jobs : a.fcd.jobs = [] := by rw [ha]; exact idle
    rw [hc]
    split <;> exact (congrArg Codec.jobs same).trans jobs
  have third : TimeStands c (s.stepTime n) := by
    rw [step]
    split
    · exact timeStands_windowEdge none
    · exact timeStands_of rfl rfl
  refine ⟨(third.tim.trans (second.tim.trans first.tim)).trans tim, fun e mem => third.told e (second.told e (first.told e (told ▸ mem))),
    _, third.told _ (second.told _ (told' ▸ List.mem_cons_self)), rfl, rfl⟩

theorem stepTime_told (idle : s.fcd.jobs = []) (n : Nat) {e : EvRec} (mem : e ∈ s.hif.raised) : e ∈ (s.stepTime n).hif.raised := by
  cases runs : s.tim.saturated with
  | true => rw [State.stepTime, runs, Bool.true_or, if_pos rfl]; exact mem
  | false =>
    by_cases moves : n = s.now
    · rw [State.stepTime, decide_eq_true moves, Bool.or_true, if_pos rfl]; exact mem
    · by_cases fits : n < State.maxNow
      · exact (stepTime_facts runs moves fits idle).2.1 e mem
      · rw [State.stepTime, runs, decide_eq_false moves, if_neg (by decide), if_pos (Nat.not_lt.mp fits), State.saturate, runs,
          if_neg Bool.false_ne_true, raised_event]
        exact List.mem_cons_of_mem _ mem

theorem judgeEdge_told (idle : s.fcd.jobs = []) (stamp : Nat) {err : Int} {e : EvRec} (mem : e ∈ s.hif.raised) :
    e ∈ (s.judgeEdge stamp err).hif.raised := by
  rw [State.judgeEdge]
  split
  · exact mem
  · split
    · exact stepTime_told idle _ mem
    · exact mem

end Window

end Sys2Proof.Proofs
end

section
/-! Settles O53: the edges and the other sources of the time base (R133, R455, R456, R492 to R497). -/

namespace Sys2Proof.Proofs

open Sys2Proof Sys2Proof.Machine

section Edges

variable {s : State} {stamp : Nat}

/-- The state in which an edge arrives: the time is its stamp. -/
def arrived (s : State) (stamp : Nat) : State := (s.advanceTo stamp).startClock 5

theorem arrived_facts (late : s.tim.now ≤ stamp) (fits : stamp < 2 ^ 64 - 1) :
    (arrived s stamp).tim = { s.tim with now := stamp } ∧ (arrived s stamp).hif = s.hif ∧ (arrived s stamp).pins = s.pins ∧
    (arrived s stamp).fcd = s.fcd ∧ (arrived s stamp).part = s.part := by
  refine ⟨?_, rfl, rfl, rfl, rfl⟩
  show ({ s.tim with now := max s.tim.now (min stamp State.maxNow) } : TimeBase) = _
  rw [State.maxNow, Nat.min_eq_left (by omega), Nat.max_eq_right late]

/-- An accepted edge before its error is judged. -/
def edgeTaken (s : State) (stamp : Nat) : State :=
  let t := if s.tim.ppsLast = 0 then s else s.learnFreq
  { t with tim := { t.tim with source := 1, holdover := false, ppsAlive := true, ppsLast := stamp
                               lastErr := State.ppsErr stamp, ptmOffset := none, heldEdge := none } }

theorem edge_none (none : s.tim.heldEdge = none) : s.edge stamp = (edgeTaken s stamp).judgeEdge stamp (State.ppsErr stamp) := by
  rw [State.edge, none]; rfl

theorem edge_some {at_ : Nat} {was : Int} (held : s.tim.heldEdge = some (at_, was)) : s.edge stamp =
    if stamp ≤ at_ + 1500000000 ∧ (State.ppsErr stamp - was).natAbs ≤ 1000 then
      let t := (edgeTaken s stamp).stepTime (((edgeTaken s stamp).now : Int) - State.ppsErr stamp).toNat
      { t with tim := { t.tim with locked := false, goodEdges := 0, disciplinedAt := t.tim.now } }
    else ((edgeTaken s stamp).event 0x0C0A 2 srcTime 0 [(at_ : Int), was]).judgeEdge stamp (State.ppsErr stamp) := by
  rw [State.edge, held]; rfl

theorem edgeTaken_facts (s : State) (stamp : Nat) : ∃ f : Int, (edgeTaken s stamp).tim = { s.tim with
      freqPpb := f, source := 1, holdover := false, ppsAlive := true, ppsLast := stamp, lastErr := State.ppsErr stamp
      ptmOffset := none, heldEdge := none } ∧
    (edgeTaken s stamp).hif = s.hif ∧ (edgeTaken s stamp).pins = s.pins ∧ (edgeTaken s stamp).fcd = s.fcd := by
  unfold edgeTaken
  split <;> exact ⟨_, rfl, rfl, rfl, rfl⟩

/-- The edge of a module without a coupler. -/
theorem ppsEdge_goes (running : s.tim.running = true) (awake : s.awake = true) (runs : s.tim.saturated = false) (alone : s.part.coupler = false)
    {P : State → Prop} (holds : P (if s.tim.ppsEn then (arrived s stamp).edge stamp else
      { arrived s stamp with tim := { (arrived s stamp).tim with ppsLast := stamp } })) : Goes (.ppsEdge stamp) s P := by
  obtain ⟨t, ht⟩ : ∃ t, t = if s.tim.ppsEn then (arrived s stamp).edge stamp else
      { arrived s stamp with tim := { (arrived s stamp).tim with ppsLast := stamp } } := ⟨_, rfl⟩
  have part : t.part = s.part := by
    rw [ht]
    split
    · exact congrArg Fixed.part (State.edge_fixed (arrived s stamp) stamp)
    · rfl
  have run : exec (.ppsEdge stamp) s = arises true "PPS_EDGE" (t.leadChanged s.cpl.timeLeadEn s.tim.locked) := by
    rw [show exec (.ppsEdge stamp) s = execPpsEdge stamp s from rfl, execPpsEdge, awake, Bool.not_true, if_neg Bool.false_ne_true, running, runs, ht]
    rfl
  have same : t.leadChanged s.cpl.timeLeadEn s.tim.locked = t := by rw [State.leadChanged, part, alone]; rfl
  rw [same] at run
  exact goes_of_arises run rfl (ht ▸ holds)

variable (running : s.tim.running = true) (awake : s.awake = true) (runs : s.tim.saturated = false) (alone : s.part.coupler = false)
  (late : s.tim.now ≤ stamp) (fits : stamp < 2 ^ 64 - 1)

include running awake runs alone late fits

/-- R492: an edge while the input is not enabled is only noted. -/
theorem edge_noted (off : s.tim.ppsEn = false) :
    Goes (.ppsEdge stamp) s (fun t => t = clocked { s with tim := { s.tim with now := stamp, ppsLast := stamp } } t) := by
  obtain ⟨tim, -⟩ := arrived_facts late fits
  refine ppsEdge_goes running awake runs alone ?_
  rw [off, if_neg Bool.false_ne_true, tim]
  rfl

/-- R493: an edge within 1 µs slews, and three of them lock. -/
theorem edge_slews (on : s.tim.ppsEn = true) (none : s.tim.heldEdge = none) (small : (State.ppsErr stamp).natAbs ≤ 1000) :
    Goes (.ppsEdge stamp) s (fun t => t.tim.now = stamp ∧ t.tim.slew = State.ppsErr stamp ∧ t.tim.ppsLast = stamp ∧
      t.tim.lastErr = State.ppsErr stamp ∧ t.tim.source = 1 ∧ t.tim.holdover = false ∧ t.tim.steps = s.tim.steps ∧
      t.tim.locked = (s.tim.locked || decide (2 ≤ s.tim.goodEdges)) ∧ t.hif.raised = s.hif.raised ∧ t.pins = s.pins) := by
  obtain ⟨tim, hif, pins, -⟩ := arrived_facts late fits
  obtain ⟨f, tim', hif', pins', -⟩ := edgeTaken_facts (arrived s stamp) stamp
  refine ppsEdge_goes running awake runs alone ?_
  rw [if_pos on, edge_none (by rw [tim]; exact none)]
  generalize edgeTaken (arrived s stamp) stamp = u at tim' hif' pins' ⊢
  rw [tim] at tim'
  have three : decide (min 3 (s.tim.goodEdges + 1) = 3) = decide (2 ≤ s.tim.goodEdges) := decide_eq_decide.mpr (by omega)
  rw [State.judgeEdge, if_pos small]
  refine ⟨?_, rfl, ?_, ?_, ?_, ?_, ?_, ?_, by rw [← hif, ← hif'], by rw [← pins, ← pins']⟩
  all_goals dsimp only
  all_goals rw [tim']
  exact congrArg (s.tim.locked || ·) three

/-- R494: a larger error steps the time back by it. -/
theorem edge_steps (on : s.tim.ppsEn = true) (none : s.tim.heldEdge = none) (idle : s.fcd.jobs = []) (large : 1000 < (State.ppsErr stamp).natAbs)
    (may : (State.ppsErr stamp).natAbs ≤ 100000 ∨ s.tim.locked = false) (back : (stamp : Int) - State.ppsErr stamp < 2 ^ 64 - 1) :
    Goes (.ppsEdge stamp) s (fun t => (t.tim.now : Int) = stamp - State.ppsErr stamp ∧ t.tim.steps = s.tim.steps + 1 ∧ t.tim.slew = 0 ∧
      t.tim.lastErr = State.ppsErr stamp ∧ t.tim.locked = s.tim.locked ∧ t.tim.goodEdges = 0 ∧
      ∃ e ∈ t.hif.raised, e.code = 0x0C09 ∧ e.payload = .fields [-State.ppsErr stamp, 1]) := by
  obtain ⟨tim, -, -, fcd, -⟩ := arrived_facts late fits
  obtain ⟨f, tim', -, -, fcd'⟩ := edgeTaken_facts (arrived s stamp) stamp
  refine ppsEdge_goes running awake runs alone ?_
  rw [if_pos on, edge_none (by rw [tim]; exact none)]
  generalize edgeTaken (arrived s stamp) stamp = u at tim' fcd' ⊢
  rw [tim] at tim'
  obtain ⟨n, hn⟩ : ∃ n : Nat, n = ((u.now : Int) - State.ppsErr stamp).toNat := ⟨_, rfl⟩
  have now : u.now = stamp := by rw [State.now, tim']
  have exact_ : (n : Int) = stamp - State.ppsErr stamp := by
    rw [hn, now]
    exact Int.toNat_of_nonneg (by rw [State.ppsErr]; omega)
  obtain ⟨stepped, -, e, mem, code, payload⟩ := stepTime_facts (s := u) (n := n) (by rw [tim']; exact runs) (by rw [now]; omega)
    (by rw [State.maxNow]; omega) (by rw [fcd', fcd]; exact idle)
  have open_ : (State.ppsErr stamp).natAbs ≤ 100000 ∨ (!u.tim.locked) = true := by
    rw [tim']; exact may.imp_right fun h => by rw [h]; rfl
  rw [State.judgeEdge, if_neg (Nat.not_le.mpr large), if_pos open_]
  dsimp only
  rw [← hn]
  refine ⟨?_, ?_, ?_, ?_, ?_, rfl, e, mem, code, ?_⟩
  · rw [stepped]; exact exact_
  · rw [stepped, tim']
  · rw [stepped]
  · rw [stepped, tim']
  · rw [stepped, tim']
  · rw [payload, now, exact_, tim']
    exact congrArg (fun x : Int => Payload.fields [x, 1]) (by omega)

/-- R495: under a lock an error above 100 µs is held until the next edge. -/
theorem edge_held (on : s.tim.ppsEn = true) (none : s.tim.heldEdge = none) (huge : 100000 < (State.ppsErr stamp).natAbs)
    (locked : s.tim.locked = true) :
    Goes (.ppsEdge stamp) s (fun t => t.tim.now = stamp ∧ t.tim.heldEdge = some (stamp, State.ppsErr stamp) ∧
      t.tim.steps = s.tim.steps ∧ t.tim.locked = true ∧ t.hif.raised = s.hif.raised) := by
  obtain ⟨tim, hif, -⟩ := arrived_facts late fits
  obtain ⟨f, tim', hif', -⟩ := edgeTaken_facts (arrived s stamp) stamp
  refine ppsEdge_goes running awake runs alone ?_
  rw [if_pos on, edge_none (by rw [tim]; exact none)]
  generalize edgeTaken (arrived s stamp) stamp = u at tim' hif' ⊢
  rw [tim] at tim'
  have shut : ¬ ((State.ppsErr stamp).natAbs ≤ 100000 ∨ (!u.tim.locked) = true) := by
    rw [tim', not_or]; exact ⟨by omega, by rw [locked]; decide⟩
  rw [State.judgeEdge, if_neg (by omega), if_neg shut]
  exact ⟨by dsimp only; rw [tim'], rfl, by dsimp only; rw [tim'], by dsimp only; rw [tim']; exact locked, by rw [← hif, ← hif']⟩

/-- R495: a second edge with the same error confirms the step, and the lock is lost. -/
theorem edge_confirms {at_ : Nat} {was : Int} (idle : s.fcd.jobs = []) (on : s.tim.ppsEn = true) (held : s.tim.heldEdge = some (at_, was))
    (soon : stamp ≤ at_ + 1500000000) (agrees : (State.ppsErr stamp - was).natAbs ≤ 1000) (err : State.ppsErr stamp ≠ 0)
    (back : (stamp : Int) - State.ppsErr stamp < 2 ^ 64 - 1) :
    Goes (.ppsEdge stamp) s (fun t => (t.tim.now : Int) = stamp - State.ppsErr stamp ∧ t.tim.locked = false ∧ t.tim.heldEdge = none ∧
      t.tim.steps = s.tim.steps + 1) := by
  obtain ⟨tim, -, -, fcd, -⟩ := arrived_facts late fits
  obtain ⟨f, tim', -, -, fcd'⟩ := edgeTaken_facts (arrived s stamp) stamp
  refine ppsEdge_goes running awake runs alone ?_
  rw [if_pos on, edge_some (by rw [tim]; exact held), if_pos ⟨soon, agrees⟩]
  generalize edgeTaken (arrived s stamp) stamp = u at tim' fcd' ⊢
  rw [tim] at tim'
  obtain ⟨n, hn⟩ : ∃ n : Nat, n = ((u.now : Int) - State.ppsErr stamp).toNat := ⟨_, rfl⟩
  have now : u.now = stamp := by rw [State.now, tim']
  have exact_ : (n : Int) = stamp - State.ppsErr stamp := by
    rw [hn, now]
    exact Int.toNat_of_nonneg (by rw [State.ppsErr]; omega)
  obtain ⟨stepped, -, -⟩ := stepTime_facts (s := u) (n := n) (by rw [tim']; exact runs) (by rw [now]; omega)
    (by rw [State.maxNow]; omega) (by rw [fcd', fcd]; exact idle)
  dsimp only
  rw [← hn]
  exact ⟨by rw [stepped]; exact exact_, rfl, by rw [stepped, tim'], by rw [stepped, tim']⟩

/-- R495: a held edge that is not confirmed is told. -/
theorem edge_unconfirmed {at_ : Nat} {was : Int} (idle : s.fcd.jobs = []) (on : s.tim.ppsEn = true) (held : s.tim.heldEdge = some (at_, was))
    (differs : 1000 < (State.ppsErr stamp - was).natAbs ∨ at_ + 1500000000 < stamp) :
    Goes (.ppsEdge stamp) s (fun t => ∃ e ∈ t.hif.raised, e.code = 0x0C0A ∧ e.payload = .fields [(at_ : Int), was]) := by
  obtain ⟨tim, -, -, fcd, -⟩ := arrived_facts late fits
  obtain ⟨f, tim', -, -, fcd'⟩ := edgeTaken_facts (arrived s stamp) stamp
  refine ppsEdge_goes running awake runs alone ?_
  rw [if_pos on, edge_some (by rw [tim]; exact held), if_neg (by omega)]
  generalize edgeTaken (arrived s stamp) stamp = u at fcd' ⊢
  have told := raised_event u 0x0C0A 2 srcTime 0 [(at_ : Int), was]
  have idle' : (u.event 0x0C0A 2 srcTime 0 [(at_ : Int), was]).fcd.jobs = [] := by
    rw [(event_frame u _ _ _ _ _).rest]; exact (congrArg Codec.jobs (fcd'.trans fcd)).trans idle
  generalize u.event 0x0C0A 2 srcTime 0 [(at_ : Int), was] = v at told idle' ⊢
  exact ⟨_, judgeEdge_told idle' _ (told ▸ List.mem_cons_self), rfl, rfl⟩

end Edges

section Sources

variable {s : State}

/-- R456: an edge that is too short is dropped and told. -/
theorem edge_discards {high low : Nat} (awake : s.awake = true) (short : high < 1000 ∨ low < 1000) :
    Goes (.ppsEdgeDiscarded high low) s (fun t => t.tim = s.tim ∧
      ∃ e, t.hif.raised = e :: s.hif.raised ∧ e.code = 0x0B01 ∧ e.payload = .fields [high, low]) := by
  have run : exec (.ppsEdgeDiscarded high low) s = arises (decide (high < 1000) || decide (low < 1000)) "PPS_EDGE_DISCARDED"
      (s.event 0x0B01 1 srcTime 0 [(high : Int), (low : Int)]) := by
    rw [show exec (.ppsEdgeDiscarded high low) s = execPpsEdgeDiscarded high low s from rfl, execPpsEdgeDiscarded, awake, Bool.not_true,
      if_neg Bool.false_ne_true]
  exact goes_of_arises run (by simpa using short) ⟨by rw [(event_frame s _ _ _ _ _).rest], _, raised_event _ _ _ _ _ _, rfl, rfl⟩

/-- The time base once the edges have stopped. -/
def lostTime (s : State) : State :=
  let t := s.advanceTo (s.tim.ppsLast + 1500000000)
  { t with tim := { t.tim with locked := false, holdover := true, ppsAlive := false, goodEdges := 0, heldEdge := none, source := t.nextSource } }

/-- R496: the loss of the edges ends the lock. -/
theorem pps_lost (running : s.tim.running = true) (alive : s.tim.ppsAlive = true) (alone : s.part.coupler = false) :
    Goes .ppsLoss s (fun t => t.tim.locked = false ∧ t.tim.holdover = true ∧ t.tim.heldEdge = none ∧ t.tim.steps = s.tim.steps ∧
      (s.cpl.leaderValid = false → t.tim.source = if s.tim.ptmEn then 2 else 0) ∧
      ∃ e, t.hif.raised.head? = some e ∧ e.code = 0x0C08 ∧ e.payload = .fields [s.tim.ppsLast]) := by
  obtain ⟨u, hu⟩ : ∃ u, u = match s.tim.heldEdge with
    | some (at_, was) => (lostTime s).event 0x0C0A 2 srcTime 0 [(at_ : Int), was]
    | none => lostTime s := ⟨_, rfl⟩
  obtain ⟨t, ht⟩ : ∃ t, t = u.event 0x0C08 2 srcTime 0 [(s.tim.ppsLast : Int)] := ⟨_, rfl⟩
  have run : exec .ppsLoss s = arises (s.tim.running && s.tim.ppsAlive) "PPS_LOSS" (t.leadChanged s.cpl.timeLeadEn s.tim.locked) := by
    rw [ht, hu]; rfl
  have kept : u.tim = (lostTime s).tim ∧ u.part = s.part := by
    rw [hu]
    split
    · rw [(event_frame _ _ _ _ _ _).rest]; exact ⟨rfl, rfl⟩
    · exact ⟨rfl, rfl⟩
  have frame : t.tim = u.tim ∧ t.part = u.part := by rw [ht, (event_frame _ _ _ _ _ _).rest]; exact ⟨rfl, rfl⟩
  have same : t.leadChanged s.cpl.timeLeadEn s.tim.locked = t := by rw [State.leadChanged, frame.2.trans kept.2, alone]; rfl
  rw [same] at run
  refine goes_of_arises run (by rw [running, alive]; rfl) ?_
  rw [frame.1.trans kept.1]
  refine ⟨rfl, rfl, rfl, rfl, fun member => ?_, eventOf u 0x0C08 2 srcTime 0 (.fields [(s.tim.ppsLast : Int)]), by rw [ht, raised_event]; rfl, rfl, rfl⟩
  show (if s.cpl.leaderValid && decide (s.cpl.leader ≠ s.pins.modIdStrap) then 3 else if s.tim.ptmEn then 2 else 0) = _
  rw [member]
  rfl

/-- R497: a dialog of PTM, which counts where no edge comes and no module leads. -/
theorem ptm_dialogs (running : s.tim.running = true) {master : Nat} (on : s.tim.ptmEn = true) (up : s.hif.port0.linkUp = true) (alone : s.cpl.leaderValid = false) :
    (s.tim.ppsAlive = true → Goes (.ptmDialog master) s (fun t => t = s)) ∧
    (s.tim.ppsAlive = false → s.tim.source ≠ 2 → Goes (.ptmDialog master) s (fun t =>
      t = { s with tim := { s.tim with source := 2, ptmOffset := some ((s.tim.now : Int) - master) } })) ∧
    (∀ o, s.tim.ppsAlive = false → s.tim.source = 2 → s.tim.ptmOffset = some o → Goes (.ptmDialog master) s (fun t =>
      t = { s with tim := { s.tim with slew := (s.tim.now : Int) - (master + o), slewPhase := 0, disciplinedAt := s.tim.now } })) := by
  have may : (s.tim.running && s.tim.ptmEn && (s.hif.port0.linkUp || s.hif.port1.linkUp)) = true := by rw [running, on, up]; rfl
  have second : s.nextSource = 2 := by rw [State.nextSource, alone, on]; rfl
  refine ⟨fun alive => goes_of_arises rfl may ?_, fun silent other => goes_of_arises rfl may ?_, fun o silent same kept => goes_of_arises rfl may ?_⟩
  · dsimp only
    rw [alive]; rfl
  · dsimp only
    rw [silent, second, decide_eq_true other]; rfl
  · dsimp only
    rw [silent, second, kept, same]; rfl

/-- R133: the count saturates. -/
theorem time_saturates (running : s.tim.running = true) (runs : s.tim.saturated = false) :
    Goes .timNowSaturation s (fun t => t.tim = { s.tim with now := 2 ^ 64 - 1, saturated := true } ∧
      ∃ e, t.hif.raised = e :: s.hif.raised ∧ e.code = 0x0C0B) := by
  refine goes_of_arises rfl (by rw [running, runs]; rfl) ?_
  rw [State.saturate, runs, if_neg Bool.false_ne_true]
  exact ⟨by rw [(event_frame _ _ _ _ _ _).rest]; rfl, _, raised_event _ _ _ _ _ _, rfl⟩

end Sources

/-- Settles O53 (R133, R455, R456, R492 to R497). -/
theorem timeBaseFollowsItsSources : Obligations.TimeBaseFollowsItsSources := fun _ running =>
  ⟨fun _ awake runs alone late fits =>
      ⟨edge_noted running awake runs alone late fits,
        fun on none => ⟨edge_slews running awake runs alone late fits on none,
          fun idle large may back => edge_steps running awake runs alone late fits on none idle large may back,
          edge_held running awake runs alone late fits on none⟩,
        fun _ _ idle on held => ⟨edge_confirms running awake runs alone late fits idle on held,
          edge_unconfirmed running awake runs alone late fits idle on held⟩⟩,
    fun _ _ => edge_discards,
    pps_lost running,
    goes_of_arises rfl running rfl,
    fun _ on up alone => ptm_dialogs running on up alone,
    time_saturates running,
    fun on runs => goes_of_arises rfl (by rw [running, on, runs]; rfl) ⟨rfl, rfl⟩,
    fun counts => goes_of_arises rfl counts rfl⟩

end Sys2Proof.Proofs
end

section
/-! SUPPORT: outputs under events, the wake sources, and what the notices and erases of a sleeping state change (R471 to R484). -/

namespace Sys2Proof.Proofs

open Sys2Proof Sys2Proof.Machine

section Outputs

variable {s t : State} {o : Output}

theorem out_interrupt (mem : o ∈ s.hif.out) (p n : Nat) : o ∈ (s.interrupt p n).hif.out := by
  rw [State.interrupt]
  split
  · exact mem
  · exact List.mem_cons_of_mem _ mem

theorem out_compIrq (mem : o ∈ s.hif.out) (c bit : Nat) : o ∈ (s.compIrq c bit).hif.out := by
  unfold State.compIrq
  dsimp only
  split
  · exact mem
  · exact out_interrupt (s := s.setComp c _) mem _ _

theorem out_toStewardRing (mem : o ∈ s.hif.out) (e : EvRec) : o ∈ (s.toStewardRing e).hif.out := by
  unfold State.toStewardRing
  split
  · exact mem
  · split
    · exact mem
    · next r' first _ =>
      dsimp only
      split
      · exact out_interrupt (s := { s with hif := { s.hif with ring := some r' } }) mem _ _
      · exact mem

theorem out_toCompRing (mem : o ∈ s.hif.out) (e : EvRec) : o ∈ (s.toCompRing e).hif.out := by
  unfold State.toCompRing
  split
  · exact mem
  · split
    · exact mem
    · next r _ =>
      split
      · exact out_compIrq (s := { s with hif := { s.hif with compLost := upd 0 s.hif.compLost e.comp (fun n => satAdd 0xFFFFFFFF n 1) } }) mem _ _
      · next r' _ _ =>
        exact out_compIrq (s := { s with hif := { s.hif with compRings := put none s.hif.compRings e.comp (some r') } }) mem _ _

/-- An event takes nothing back that the host has been told (R432). -/
theorem out_event (mem : o ∈ s.hif.out) (code level source c : Nat) (fields : List Int) :
    o ∈ (s.event code level source c fields).hif.out := by
  have rings : ∀ (t : State) (e : EvRec), o ∈ t.hif.out → o ∈ (((t.toStewardRing e).toCompRing e).toReels e).hif.out := fun t e h =>
    out_toCompRing (out_toStewardRing h e) e
  unfold State.event State.raise
  dsimp only
  split <;> split
  · exact rings _ _ (List.mem_cons_of_mem _ mem)
  · exact rings _ _ mem
  · exact rings _ _ (List.mem_cons_of_mem _ mem)
  · exact rings _ _ mem

end Outputs

section Sources

variable {s : State}

theorem lowestSource_eq {l : List Nat} {i : Nat} (mem : i ∈ l) (least : ∀ j ∈ l, i ≤ j) : State.lowestSource l = i := by
  cases l with
  | nil => cases mem
  | cons a r =>
    have below : ∀ (r : List Nat) (a : Nat), r.foldl min a ∈ a :: r ∧ ∀ j ∈ a :: r, r.foldl min a ≤ j := fun r => by
      induction r with
      | nil => simp
      | cons b r ih =>
        intro a
        obtain ⟨mem, low⟩ := ih (min a b)
        refine ⟨?_, fun j hj => ?_⟩
        · rcases List.mem_cons.mp mem with eq | mem
          · rw [List.foldl_cons, eq]
            rcases Nat.le_total a b with le | le
            · rw [Nat.min_eq_left le]; exact List.mem_cons_self
            · rw [Nat.min_eq_right le]; exact List.mem_cons_of_mem _ List.mem_cons_self
          · exact List.mem_cons_of_mem _ (List.mem_cons_of_mem _ mem)
        · have first := low _ List.mem_cons_self
          rw [List.foldl_cons]
          rcases List.mem_cons.mp hj with rfl | hj
          · omega
          · rcases List.mem_cons.mp hj with rfl | hj
            · omega
            · exact low j (List.mem_cons_of_mem _ hj)
    obtain ⟨inside, low⟩ := below r a
    exact Nat.le_antisymm (low i mem) (least _ inside)

/-- A wake source is enabled where the mask names it and it is armed; 1 and 6 always are (R477). -/
theorem mem_enabledSources {mask : BitVec 9} {i : Nat} : i ∈ s.enabledSources mask ↔
    1 ≤ i ∧ i ≤ 8 ∧ mask.getLsbD i = true ∧ (s.pwr.wakeEn.getLsbD i = true ∨ i = 1 ∨ i = 6) := by
  have range : i ∈ [1, 2, 3, 4, 5, 6, 7, 8] ↔ 1 ≤ i ∧ i ≤ 8 := by
    simp only [List.mem_cons, List.not_mem_nil, or_false]; omega
  rw [State.enabledSources, List.mem_filter, range, Bool.and_eq_true, Bool.or_eq_true, Bool.or_eq_true, decide_eq_true_eq, decide_eq_true_eq,
    and_assoc, or_assoc]

/-- The word whose bits are the members of an ascending list. -/
theorem getLsbD_sumBy {l : List Nat} (sorted : l.SortedLT) {j : Nat} (low : j < 9) :
    (BitVec.ofNat 9 (sumBy (fun i => 2 ^ i) l)).getLsbD j = decide (j ∈ l) := by
  have sum : sumBy (fun i => 2 ^ i) l = (l.map (2 ^ ·)).sum := List.sum_eq_foldl.symm
  rw [BitVec.getLsbD_ofNat, decide_eq_true low, Bool.true_and, sum, ← Bool.coe_iff_coe, decide_eq_true_eq, ← Nat.mem_bitIndices,
    Nat.bitIndices_sum_map_two_pow sorted]

theorem sorted_enabledSources (mask : BitVec 9) : (s.enabledSources mask).SortedLT :=
  ((by decide : List.Pairwise (· < ·) [1, 2, 3, 4, 5, 6, 7, 8]).filter _).sortedLT

end Sources

section Frames

variable {s : State}

theorem resume_fls (s : State) (d : Nat) : ∃ fls : Flash, s.resume d = { s with fls := fls } := by
  unfold State.resume
  dsimp only
  split
  · exact ⟨s.fls, rfl⟩
  · split <;> exact ⟨_, rfl⟩

theorem resumeErases_fls (s : State) : ∃ fls : Flash, s.resumeErases = { s with fls := fls } := by
  unfold State.resumeErases
  generalize s.fls.dies = l
  induction l generalizing s with
  | nil => exact ⟨s.fls, rfl⟩
  | cons e l ih =>
    rw [List.foldl_cons]
    split
    · split
      · obtain ⟨fls, eq⟩ := resume_fls s e.1
        obtain ⟨fls', eq'⟩ := ih (s.resume e.1)
        exact ⟨fls', by rw [eq', eq]⟩
      · exact ih s
    · exact ih s

/-- What a notice on a link changes: the link, and what has gone out. -/
def LinkOnly (s t : State) : Prop :=
  ∃ (cpl : Coupler) (out : List Output), t = { s with cpl := cpl, hif := { s.hif with out := out } } ∧ ∀ o ∈ s.hif.out, o ∈ out

theorem LinkOnly.refl (s : State) : LinkOnly s s := ⟨s.cpl, s.hif.out, rfl, fun _ h => h⟩

theorem LinkOnly.trans {s t u : State} (x : LinkOnly s t) (y : LinkOnly t u) : LinkOnly s u := by
  obtain ⟨cpl, out, eq, sub⟩ := x
  obtain ⟨cpl', out', eq', sub'⟩ := y
  refine ⟨cpl', out', by rw [eq', eq], fun o h => sub' o ?_⟩
  rw [eq]
  exact sub o h

theorem LinkOnly.foldl {α : Type} {f : State → α → State} (keeps : ∀ t x, LinkOnly t (f t x)) : ∀ (l : List α) (s : State), LinkOnly s (l.foldl f s)
  | [], s => .refl s
  | x :: l, s => (keeps s x).trans (LinkOnly.foldl keeps l (f s x))

theorem linkOnly_sendOne (s : State) (p : Nat) : LinkOnly s (s.sendOne p) := by
  unfold State.sendOne
  split
  · split
    · split
      · exact .refl s
      · exact ⟨_, _, rfl, fun _ h => List.mem_cons_of_mem _ h⟩
    · exact .refl s
  · exact .refl s

theorem linkOnly_sendOn (s : State) (p rank : Nat) (o : Output) : LinkOnly s (s.sendOn p rank o) := by
  have waiting : ∀ t : State, LinkOnly t (t.sendWaiting p) := fun t => by
    rw [State.sendWaiting]
    split
    · exact .foldl (fun u _ => linkOnly_sendOne u p) _ t
    · exact .refl t
  obtain ⟨u, hu⟩ : ∃ u : State, u = { s with cpl := { s.cpl with ports := modAt s.cpl.ports p (fun (y : CplPort) =>
    { y with sendQueue := y.sendQueue ++ [{ rank := rank, out := o }] }) } } := ⟨_, rfl⟩
  have queued : LinkOnly s u := ⟨u.cpl, s.hif.out, by rw [hu], fun _ h => h⟩
  have sends : s.sendOn p rank o = u.sendWaiting p := by rw [hu]; rfl
  rw [sends]
  exact queued.trans (waiting u)

theorem storeLeft_ctxs (s : State) : s.storeLeft.ctxs = [] := by
  unfold State.storeLeft
  refine List.foldlRecOn (motive := fun k : Reels => k.ctxs = []) _ _ rfl fun k hk r _ => ?_
  exact List.foldlRecOn (motive := fun k : Reels => k.ctxs = []) _ _ hk fun k hk i _ => hk

theorem powerOff_facts (s : State) : s.powerOff.kry.ctxs = [] ∧ s.powerOff.part = s.part ∧ s.powerOff.sec.optCopies = s.sec.optCopies ∧
    s.powerOff.plog.marker = s.plog.marker ∧ s.powerOff.boot.step = 0 ∧ s.powerOff.car.flights = [] ∧ s.powerOff.zns.online = false ∧
    s.powerOff.hif.queues = [] ∧ s.powerOff.pwr.pstate = .dark ∧ s.powerOff.boot.tripped = s.boot.tripped :=
  ⟨storeLeft_ctxs s, rfl, rfl, rfl, rfl, rfl, rfl, rfl, rfl, rfl⟩

end Frames

end Sys2Proof.Proofs
end

section
/-! SUPPORT: Idle, the entries into the sleeping states, their abort and the wakes (R471 to R484). -/

namespace Sys2Proof.Proofs

open Sys2Proof Sys2Proof.Machine

section Entry

variable {s t : State} {P : State → Prop} {x : SleepTarget} {n : Nat}

theorem entry_goes (entering : s.pwr.pstate = .entering x n) (step : s.entryStep x n = some t) (holds : P t) : Goes .sleepEntryStep s P := by
  refine ⟨t, ?_, holds⟩
  rw [show exec .sleepEntryStep s = execSleepEntryStep s from rfl, execSleepEntryStep, entering]
  dsimp only
  rw [step]

/-- R479: the notice of step 3 completes the command of the entry. -/
theorem announceStep_facts (s : State) : s.announceStep.plog.ltrUs = 3000 ∧
    (∀ e h, s.pwr.entry = some e → e.command = some h → Completed s.announceStep h .success) ∧
    s.announceStep.zns = s.zns ∧ s.announceStep.fls = s.fls := by
  obtain ⟨a, ha⟩ : ∃ a, a = match s.pwr.entry with
    | some e => match e.command with
      | some h => s.done h 0
      | none => s
    | none => s := ⟨_, rfl⟩
  obtain ⟨b, hb⟩ : ∃ b, b = ({ a with
    pwr := { a.pwr with entry := a.pwr.entry.map (fun (e : Entry) => { e with command := none }) }
    plog := { a.plog with ltrUs := 3000, sleepNotices := a.plog.sleepNotices + ((s.cpl.ports.mapIdx (fun i p => (i, p))).filter
      (fun x => decide (x.2.state = 2) || decide (x.2.state = 3))).length } } : State).emit (.ltr 3000) := ⟨_, rfl⟩
  have sends : LinkOnly b s.announceStep := by
    have eq : s.announceStep = ((s.cpl.ports.mapIdx (fun i p => (i, p))).filter (fun x => decide (x.2.state = 2) || decide (x.2.state = 3))).foldl
        (fun t x => t.sendOn x.1 0 (.sleepNotice x.1)) b := by rw [hb, ha]; rfl
    rw [eq]
    exact .foldl (fun t x => linkOnly_sendOn t _ _ _) _ b
  have kept : a.zns = s.zns ∧ a.fls = s.fls := by
    rw [ha]
    split
    · split
      · next h _ =>
        obtain ⟨same, -, -⟩ := complete_host s h .success 0 0
        rw [State.done, same]
        exact ⟨rfl, rfl⟩
      · exact ⟨rfl, rfl⟩
    · exact ⟨rfl, rfl⟩
  obtain ⟨cpl, out, eq, sub⟩ := sends
  rw [eq]
  refine ⟨by rw [hb]; rfl, fun e h found asked => ?_, by rw [hb]; exact kept.1, by rw [hb]; exact kept.2⟩
  have done : a = s.done h 0 := by rw [ha, found]; dsimp only; rw [asked]
  obtain ⟨c, mem, rest⟩ := completed_complete s h .success 0 0
  refine ⟨c, sub _ ?_, rest⟩
  rw [hb, done]
  exact List.mem_cons_of_mem _ mem

/-- The command that asked for the entry under way, and waits for it. -/
def entryCommand (s : State) : Option HostCmd :=
  match s.pwr.entry with
  | some e => e.command
  | none => none

/-- R480: what the abort of an entry leaves in force. -/
theorem abortEntry_facts (s : State) (x : SleepTarget) (n cause source : Nat) :
    (s.abortEntry x n cause source).pwr = { s.pwr with pstate := .run, entry := none } ∧
    (s.abortEntry x n cause source).plog.abortCause = cause ∧
    (s.abortEntry x n cause source).plog.abortSource = (if cause = 1 then source else 0) ∧
    (s.abortEntry x n cause source).plog.aborts = s.plog.aborts + 1 ∧ (s.abortEntry x n cause source).plog.ltrUs = 2 ∧
    (∃ e ∈ (s.abortEntry x n cause source).hif.raised, e.code = 0x0C03) ∧
    ∀ e h, s.pwr.entry = some e → e.command = some h → Completed (s.abortEntry x n cause source) h .success := by
  obtain ⟨us, hus⟩ : ∃ us, us = min 0xFFFFFFFF (s.usSince (match s.pwr.entry with
    | some e => e.requestedAt
    | none => s.now)) := ⟨_, rfl⟩
  obtain ⟨a, ha⟩ : ∃ a : State, a = { s with
    pwr := { s.pwr with pstate := .run, entry := none }
    plog := { s.plog with abortCause := cause, abortTarget := x.code, abortSource := if cause = 1 then source else 0,
                          aborts := s.plog.aborts + 1, abortUs := us, ltrUs := 2, closing := false } } := ⟨_, rfl⟩
  obtain ⟨b, hb⟩ : ∃ b, b = if n < 3 then a else a.resumeErases := ⟨_, rfl⟩
  obtain ⟨c, hc⟩ : ∃ c, c = (b.emit (.ltr 2)).event 0x0C03 1 srcPower 0 [(cause : Int), x.code, if cause = 1 then source else 0, us] := ⟨_, rfl⟩
  have eq : s.abortEntry x n cause source = match entryCommand s with
      | some h => c.done h 0
      | none => c := by rw [hc, hb, ha, hus]; rfl
  have resumed : b.pwr = a.pwr ∧ b.plog = a.plog := by
    obtain ⟨fls, same⟩ := resumeErases_fls a
    rw [hb]
    split
    · exact ⟨rfl, rfl⟩
    · rw [same]; exact ⟨rfl, rfl⟩
  have frame : c.pwr = b.pwr ∧ c.plog = b.plog := by rw [hc, (event_frame _ _ _ _ _ _).rest]; exact ⟨rfl, rfl⟩
  have told : ∃ e ∈ c.hif.raised, e.code = 0x0C03 := ⟨_, by rw [hc, raised_event]; exact List.mem_cons_self, rfl⟩
  have last : (s.abortEntry x n cause source).pwr = c.pwr ∧ (s.abortEntry x n cause source).plog = c.plog ∧
      (s.abortEntry x n cause source).hif.raised = c.hif.raised := by
    rw [eq]
    split
    · next h _ =>
      obtain ⟨same, raised, -⟩ := complete_host c h .success 0 0
      exact ⟨by rw [State.done, same], by rw [State.done, same], raised⟩
    · exact ⟨rfl, rfl, rfl⟩
  have pwr := last.1.trans (frame.1.trans resumed.1)
  have plog := last.2.1.trans (frame.2.trans resumed.2)
  refine ⟨by rw [pwr, ha], by rw [plog, ha], by rw [plog, ha], by rw [plog, ha], by rw [plog, ha], by rw [last.2.2]; exact told,
    fun e h found asked => ?_⟩
  have done : s.abortEntry x n cause source = c.done h 0 := by rw [eq, entryCommand, found]; dsimp only; rw [asked]
  rw [done]
  exact completed_complete _ _ _ _ _

/-- R482: what a wake source does to a module that is awake. -/
theorem ordinaryWake_facts (s : State) (mask : BitVec 9) :
    (s.ordinaryWake mask).pwr = { s.pwr with wakeTimer := if mask.getLsbD 5 && decide (s.pwr.wakeTimer ≠ State.maxNow) then State.maxNow else s.pwr.wakeTimer } ∧
    (s.ordinaryWake mask).plog = s.plog ∧ (∀ e ∈ s.hif.raised, e ∈ (s.ordinaryWake mask).hif.raised) ∧
    (∀ o ∈ s.hif.out, o ∈ (s.ordinaryWake mask).hif.out) ∧
    (mask.getLsbD 1 = true → ∃ e ∈ (s.ordinaryWake mask).hif.raised, e.code = 0x0C0E) ∧
    (mask.getLsbD 5 = true → s.pwr.wakeTimer ≠ State.maxNow → ∃ e ∈ (s.ordinaryWake mask).hif.raised, e.code = 0x0C0F ∧
      e.payload = .fields [(s.pwr.wakeTimer : Int)]) := by
  obtain ⟨a, ha⟩ : ∃ a, a = if mask.getLsbD 1 then s.event 0x0C0E 0 srcPower 0 [] else s := ⟨_, rfl⟩
  obtain ⟨b, hb⟩ : ∃ b, b = a.event 0x0C0F 0 srcPower 0 [(a.pwr.wakeTimer : Int)] := ⟨_, rfl⟩
  have eq : s.ordinaryWake mask = if mask.getLsbD 5 && decide (a.pwr.wakeTimer ≠ State.maxNow) then
      { b with pwr := { b.pwr with wakeTimer := State.maxNow } } else a := by rw [hb, ha]; rfl
  have first : a.pwr = s.pwr ∧ a.plog = s.plog ∧ (∀ e ∈ s.hif.raised, e ∈ a.hif.raised) ∧ (∀ o ∈ s.hif.out, o ∈ a.hif.out) ∧
      (mask.getLsbD 1 = true → ∃ e ∈ a.hif.raised, e.code = 0x0C0E) := by
    rw [ha]
    split
    · rw [raised_event]
      refine ⟨by rw [(event_frame _ _ _ _ _ _).rest], by rw [(event_frame _ _ _ _ _ _).rest], fun _ h => List.mem_cons_of_mem _ h,
        fun _ h => out_event h _ _ _ _ _, fun _ => ⟨_, List.mem_cons_self, rfl⟩⟩
    · next no => exact ⟨rfl, rfl, fun _ h => h, fun _ h => h, fun yes => absurd yes no⟩
  have second : b.pwr = a.pwr ∧ b.plog = a.plog ∧ (∀ o ∈ a.hif.out, o ∈ b.hif.out) := by
    rw [hb]
    exact ⟨by rw [(event_frame _ _ _ _ _ _).rest], by rw [(event_frame _ _ _ _ _ _).rest], fun _ h => out_event h _ _ _ _ _⟩
  have told : b.hif.raised = eventOf a 0x0C0F 0 srcPower 0 (.fields [(a.pwr.wakeTimer : Int)]) :: a.hif.raised := by rw [hb, raised_event]
  obtain ⟨pwr, plog, raised, out, named⟩ := first
  rw [pwr] at eq told
  rw [eq]
  split
  · refine ⟨by rw [second.1, pwr], second.2.1.trans plog, fun e h => ?_, fun o h => second.2.2 o (out o h), fun h => ?_, fun _ _ => ?_⟩
    · exact told ▸ List.mem_cons_of_mem _ (raised e h)
    · obtain ⟨e, mem, code⟩ := named h
      exact ⟨e, told ▸ List.mem_cons_of_mem _ mem, code⟩
    · exact ⟨_, told ▸ List.mem_cons_self, rfl, rfl⟩
  · next no =>
    exact ⟨pwr, plog, raised, out, named, fun five armed => absurd (by rw [five, decide_eq_true armed]; rfl) no⟩

end Entry

end Sys2Proof.Proofs
end

section
/-! SUPPORT: the rows of the sleeping states, the wake sources and the wake order (R471 to R484). -/

namespace Sys2Proof.Proofs

open Sys2Proof Sys2Proof.Machine

/-- A wake source that the mask names and that is enabled (R477). -/
def SourceOn (s : State) (mask : BitVec 9) (i : Nat) : Prop :=
  1 ≤ i ∧ i ≤ 8 ∧ mask.getLsbD i = true ∧ (s.pwr.wakeEn.getLsbD i = true ∨ i = 1 ∨ i = 6)

section Sleeping

variable {s t : State} {P : State → Prop} {x : SleepTarget} {n : Nat}

/-- R476: the last step of an entry into Sleep or Deep Sleep. -/
def asleepIn (s : State) (x : SleepTarget) : State :=
  let l12 := fun (p : Port) => { p with l12 := p.linkUp }
  { s with
    pwr := { s.pwr with pstate := .asleep x, entry := none }
    hif := { s.hif with port0 := l12 s.hif.port0, port1 := l12 s.hif.port1 }
    lvl := { s.lvl with clocks := s.lvl.clocks &&& 0x81 } }

/-- The wake sources that an entry has held back. -/
def heldSources (s : State) : List Nat :=
  match s.pwr.entry with
  | some e => e.heldWake
  | none => []

theorem enterSleep_eq (light : x ≠ .off) : s.enterSleep x =
    if (heldSources s).isEmpty then asleepIn s x else (asleepIn s x).startWake x (heldSources s) := by
  rw [State.enterSleep, if_neg light]
  rfl

theorem enterSleep_off (s : State) : s.enterSleep .off =
    { s.powerOff with pwr := { s.powerOff.pwr with pstate := .asleep .off }, boot := { s.powerOff.boot with offLatch := true } } := by
  rw [State.enterSleep, if_pos rfl]

theorem port_asleepIn (p : Nat) : (asleepIn s x).port p = { s.port p with l12 := (s.port p).linkUp } := by
  rw [State.port, State.port]
  split <;> rfl

/-- R476: nothing held back: the module sleeps. -/
theorem entry_sleeps (entering : s.pwr.pstate = .entering x 5) (light : x ≠ .off) (none : ∀ e, s.pwr.entry = some e → e.heldWake = []) :
    Goes .sleepEntryStep s (fun t => t.pwr.pstate = .asleep x ∧ t.pwr.entry = .none ∧
      (∀ p < 2, t.port p = { s.port p with l12 := (s.port p).linkUp }) ∧
      t = { s with pwr := t.pwr, hif := t.hif, lvl := { s.lvl with clocks := s.lvl.clocks &&& 0x81 } }) := by
  have held : heldSources s = [] := by
    rw [heldSources]
    split
    · next e found => exact none e found
    · rfl
  refine entry_goes entering rfl ?_
  rw [enterSleep_eq light, held, if_pos List.isEmpty_nil]
  exact ⟨rfl, rfl, fun p _ => port_asleepIn p, rfl⟩

/-- R476: a source held back wakes the module at once. -/
theorem entry_wakes (entering : s.pwr.pstate = .entering x 5) (light : x ≠ .off) {e : Entry} {i : Nat} (found : s.pwr.entry = some e)
    (mem : i ∈ e.heldWake) (least : ∀ j ∈ e.heldWake, i ≤ j) :
    Goes .sleepEntryStep s (fun t => t.pwr.pstate = .waking x 1 ∧ t.pwr.wakeSource = i ∧ t.pwr.wakes = s.pwr.wakes + 1) := by
  have held : heldSources s = e.heldWake := by rw [heldSources, found]
  refine entry_goes entering rfl ?_
  rw [enterSleep_eq light, held, if_neg (by rw [List.isEmpty_iff]; exact List.ne_nil_of_mem mem)]
  exact ⟨rfl, lowestSource_eq mem least, rfl⟩

/-- R476: Off leaves nothing but what no power is needed for. -/
theorem entry_off (entering : s.pwr.pstate = .entering .off 5) :
    Goes .sleepEntryStep s (fun t => t.pwr.pstate = .asleep .off ∧ t.boot.offLatch = true ∧ t.kry.ctxs = [] ∧ t.part = s.part ∧
      t.sec.optCopies = s.sec.optCopies ∧ t.plog.marker = s.plog.marker) := by
  obtain ⟨ctxs, part, copies, marker, -⟩ := powerOff_facts s
  refine entry_goes entering rfl ?_
  rw [enterSleep_off]
  exact ⟨rfl, rfl, ctxs, part, copies, marker⟩

/-- R476: step 2 writes what is not yet safe, and the journal with it. -/
theorem entry_secures (entering : s.pwr.pstate = .entering x 2) (drained : s.drained = true) :
    Goes .sleepEntryStep s (fun t => t.pwr.pstate = .entering x 3 ∧ (x ≠ .off ∨ s.mounted = false → t.jrn.tail = 0)) := by
  refine entry_goes (t := { s.secureStep x with pwr := { (s.secureStep x).pwr with pstate := .entering x 3 } }) entering ?_ ⟨rfl, fun stays => ?_⟩
  · show (if s.drained then _ else _) = _
    rw [if_pos drained]
  · have keeps : (decide (x = .off) && s.mounted) = false := by
      obtain light | absent := stays
      · rw [decide_eq_false light, Bool.false_and]
      · rw [absent, Bool.and_false]
    show (s.secureStep x).jrn.tail = 0
    rw [State.secureStep, keeps]
    rfl

/-- R479: step 3 gives its notices once nothing is dirty. -/
theorem entry_announces (entering : s.pwr.pstate = .entering x 3) (clean : s.dirtyUnits = 0) (settled : s.diesSettled = true)
    (stays : s.mnt.stopping = false) :
    Goes .sleepEntryStep s (fun t => t.pwr.pstate = .entering x 4 ∧ t.plog.ltrUs = 3000 ∧
      (∀ e h, s.pwr.entry = some e → e.command = some h → Completed t h .success) ∧ t.zns = s.zns ∧ t.fls = s.fls) := by
  obtain ⟨ltr, done, zns, fls⟩ := announceStep_facts s
  refine entry_goes (t := { s.announceStep with pwr := { s.announceStep.pwr with pstate := .entering x 4 } }) entering ?_ ⟨rfl, ltr, done, zns, fls⟩
  show (if decide (s.dirtyUnits = 0) && s.diesSettled && !s.mnt.stopping then _ else _) = _
  rw [clean, settled, stays]
  rfl

end Sleeping

section Waking

variable {s t : State} {P : State → Prop} {x : SleepTarget} {n i : Nat} {mask : BitVec 9}

theorem wake_goes (fired : s.wakeFired mask = some t) (holds : P t) : Goes (.wakeSourceFired mask) s P := by
  refine ⟨t, ?_, holds⟩
  rw [show exec (.wakeSourceFired mask) s = execWakeSourceFired mask s from rfl, execWakeSourceFired, fired]

theorem sources_none (none : ∀ i, ¬ SourceOn s mask i) : s.enabledSources mask = [] :=
  List.eq_nil_iff_forall_not_mem.mpr fun i mem => none i (mem_enabledSources.mp mem)

theorem sources_some (on : SourceOn s mask i) : (s.enabledSources mask).isEmpty = false := by
  rw [List.isEmpty_eq_false_iff]
  exact List.ne_nil_of_mem (mem_enabledSources.mpr on)

theorem sources_lowest (on : SourceOn s mask i) (least : ∀ j, SourceOn s mask j → i ≤ j) : State.lowestSource (s.enabledSources mask) = i :=
  lowestSource_eq (mem_enabledSources.mpr on) fun _ mem => least _ (mem_enabledSources.mp mem)

theorem wakeFired_run (run : s.pwr.pstate = .run ∨ s.pwr.pstate = .idle) : s.wakeFired mask = some (s.ordinaryWake mask) := by
  obtain run | idle := run
  · rw [State.wakeFired, run]
  · rw [State.wakeFired, idle]

theorem wakeFired_asleep (light : x ≠ .off) (asleep : s.pwr.pstate = .asleep x) : s.wakeFired mask =
    if (s.enabledSources mask).isEmpty then some s else some ((s.startWake x (s.enabledSources mask)).disarm mask) := by
  cases x with
  | off => exact absurd rfl light
  | sleep => rw [State.wakeFired, asleep]
  | deep => rw [State.wakeFired, asleep]

theorem wakeFired_entering (entering : s.pwr.pstate = .entering x n) (on : SourceOn s mask i) : s.wakeFired mask =
    if n < 5 then some ((s.abortEntry x n 1 (State.lowestSource (s.enabledSources mask))).ordinaryWake mask)
    else some (({ s with pwr := { s.pwr with entry := s.pwr.entry.map (fun (e : Entry) =>
      { e with heldWake := (e.heldWake ++ s.enabledSources mask).dedup }) } } : State).disarm mask) := by
  rw [State.wakeFired, entering]
  dsimp only
  rw [sources_some on, if_neg Bool.false_ne_true]

theorem disarm_eq (s : State) (mask : BitVec 9) : s.disarm mask =
    { s with pwr := { s.pwr with wakeTimer := if mask.getLsbD 5 then 2 ^ 64 - 1 else s.pwr.wakeTimer } } := by
  rw [State.disarm]
  split <;> rfl

/-- R477, R481: the wake of a sleeping module and its record. -/
theorem startWake_facts (s : State) (x : SleepTarget) (on : SourceOn s mask i) (least : ∀ j, SourceOn s mask j → i ≤ j) :
    (s.startWake x (s.enabledSources mask)).pwr.wakeSource = i ∧
    ∀ j, 1 ≤ j → j ≤ 8 → ((s.startWake x (s.enabledSources mask)).pwr.wakeMask.getLsbD j = true ↔ SourceOn s mask j) := by
  refine ⟨sources_lowest on least, fun j _ high => ?_⟩
  show (BitVec.ofNat 9 (sumBy (fun i => 2 ^ i) (s.enabledSources mask).dedup)).getLsbD j = true ↔ _
  have sorted := sorted_enabledSources (s := s) mask
  rw [sorted.nodup.dedup, getLsbD_sumBy sorted (by omega), decide_eq_true_eq, mem_enabledSources]
  rfl

theorem source_wakes (light : x ≠ .off) (asleep : s.pwr.pstate = .asleep x) (on : SourceOn s mask i) (least : ∀ j, SourceOn s mask j → i ≤ j) :
    Goes (.wakeSourceFired mask) s (fun t => t.pwr.pstate = .waking x 1 ∧ t.pwr.wakeSource = i ∧ t.pwr.wakeAt = s.tim.now ∧
      t.pwr.wakes = s.pwr.wakes + 1 ∧ t.pwr.wakeLeft = (if x = .sleep then 1 else 2) ∧
      (∀ j, 1 ≤ j → j ≤ 8 → (t.pwr.wakeMask.getLsbD j = true ↔ SourceOn s mask j)) ∧
      t.pwr.wakeTimer = (if mask.getLsbD 5 then 2 ^ 64 - 1 else s.pwr.wakeTimer) ∧ t = { s with pwr := t.pwr }) := by
  obtain ⟨source, bits⟩ := startWake_facts s x on least
  refine wake_goes ((wakeFired_asleep light asleep).trans (if_neg (by rw [sources_some on]; exact Bool.false_ne_true))) ?_
  rw [disarm_eq]
  refine ⟨rfl, source, rfl, rfl, ?_, bits, rfl, rfl⟩
  cases x with
  | off => exact absurd rfl light
  | sleep => rfl
  | deep => rfl

theorem source_aborts (entering : s.pwr.pstate = .entering x n) (on : SourceOn s mask i) (least : ∀ j, SourceOn s mask j → i ≤ j) (early : n < 5) :
    Goes (.wakeSourceFired mask) s (fun t => t.pwr.pstate = .run ∧ t.pwr.entry = none ∧ t.pwr.wakes = s.pwr.wakes ∧
      t.plog.abortCause = 1 ∧ t.plog.abortSource = i ∧ t.plog.aborts = s.plog.aborts + 1 ∧ t.plog.ltrUs = 2 ∧
      (∃ e ∈ t.hif.raised, e.code = 0x0C03) ∧ (∀ e h, s.pwr.entry = some e → e.command = some h → Completed t h .success)) := by
  refine wake_goes ((wakeFired_entering entering on).trans (if_pos early)) ?_
  rw [sources_lowest on least]
  obtain ⟨pwr, cause, source, aborts, ltr, ⟨e, mem, code⟩, done⟩ := abortEntry_facts s x n 1 i
  obtain ⟨pwr', plog, raised, out, -⟩ := ordinaryWake_facts (s.abortEntry x n 1 i) mask
  generalize s.abortEntry x n 1 i = a at *
  refine ⟨by rw [pwr', pwr], by rw [pwr', pwr], by rw [pwr', pwr], by rw [plog, cause], by rw [plog, source]; rfl, by rw [plog, aborts], by rw [plog, ltr],
    ⟨e, raised e mem, code⟩, fun e h found asked => ?_⟩
  obtain ⟨c, sent, rest⟩ := done e h found asked
  exact ⟨c, out _ sent, rest⟩

theorem source_held (entering : s.pwr.pstate = .entering x 5) (on : SourceOn s mask i) {e : Entry} (found : s.pwr.entry = some e) :
    Goes (.wakeSourceFired mask) s (fun t => t.pwr.pstate = .entering x 5 ∧ ∃ e', t.pwr.entry = some e' ∧
      ∀ j, j ∈ e'.heldWake ↔ j ∈ e.heldWake ∨ SourceOn s mask j) := by
  refine wake_goes ((wakeFired_entering entering on).trans (if_neg (by decide))) ?_
  rw [disarm_eq]
  refine ⟨entering, { e with heldWake := (e.heldWake ++ s.enabledSources mask).dedup }, ?_, fun j => ?_⟩
  · show s.pwr.entry.map _ = _
    rw [found]; rfl
  · show j ∈ (e.heldWake ++ s.enabledSources mask).dedup ↔ _
    rw [List.mem_dedup, List.mem_append, mem_enabledSources]
    rfl

theorem source_ordinary (run : s.pwr.pstate = .run ∨ s.pwr.pstate = .idle) :
    (mask.getLsbD 1 = true → Goes (.wakeSourceFired mask) s (fun t => t.pwr.pstate = s.pwr.pstate ∧ ∃ e ∈ t.hif.raised, e.code = 0x0C0E)) ∧
    (mask.getLsbD 5 = true → s.pwr.wakeTimer ≠ 2 ^ 64 - 1 → Goes (.wakeSourceFired mask) s (fun t =>
      t.pwr = { s.pwr with wakeTimer := 2 ^ 64 - 1 } ∧ ∃ e ∈ t.hif.raised, e.code = 0x0C0F ∧ e.payload = .fields [s.pwr.wakeTimer])) ∧
    (mask.getLsbD 1 = false → mask.getLsbD 5 = false → Goes (.wakeSourceFired mask) s (fun t => t = s)) := by
  obtain ⟨pwr, -, -, -, one, five⟩ := ordinaryWake_facts s mask
  refine ⟨fun h => wake_goes (wakeFired_run run) ⟨by rw [pwr], one h⟩, fun h armed => wake_goes (wakeFired_run run) ⟨?_, five h armed⟩,
    fun h h' => wake_goes (wakeFired_run run) ?_⟩
  · rw [pwr, h, decide_eq_true (show s.pwr.wakeTimer ≠ State.maxNow from armed)]; rfl
  · rw [State.ordinaryWake, h, h']; rfl

end Waking

section Timer

variable {s t : State} {x : SleepTarget} {n : Nat}

theorem timer_wakes (armed : s.pwr.wakeTimer ≠ 2 ^ 64 - 1) (light : x ≠ .off) (asleep : s.pwr.pstate = .asleep x) (en : s.pwr.wakeEn.getLsbD 5 = true) :
    Goes .wakeTimerExpiry s (fun t => t.pwr.pstate = .waking x 1 ∧ t.pwr.wakeSource = 5 ∧ t.pwr.wakeTimer = 2 ^ 64 - 1 ∧
      t.tim.now = max s.tim.now (min s.pwr.wakeTimer (2 ^ 64 - 1))) := by
  obtain ⟨u, hu⟩ : ∃ u, u = s.advanceTo s.pwr.wakeTimer := ⟨_, rfl⟩
  have pwr : u.pwr = s.pwr := by rw [hu]; rfl
  have sources : u.enabledSources 0x20 = [5] := by
    rw [State.enabledSources, pwr]
    have armed' : s.pwr.wakeEn[5] = true := en
    simp [List.filter, armed']
  have fired : u.wakeFired 0x20 = some ((u.startWake x [5]).disarm 0x20) := by
    rw [wakeFired_asleep light (by rw [pwr]; exact asleep), sources]; rfl
  have may : ¬ (s.pwr.wakeTimer = State.maxNow ∨ s.pwr.pstate = .asleep .off) :=
    not_or.mpr ⟨armed, by rw [asleep]; exact fun same => light (PState.asleep.inj same)⟩
  refine ⟨((u.startWake x [5]).disarm 0x20).disarm 0x20, ?_, ?_⟩
  · rw [show exec .wakeTimerExpiry s = execWakeTimerExpiry s from rfl, execWakeTimerExpiry, ← hu, fired, if_neg may]
  · rw [disarm_eq, disarm_eq]
    exact ⟨rfl, rfl, rfl, by rw [hu]; rfl⟩

theorem timer_expires (armed : s.pwr.wakeTimer ≠ 2 ^ 64 - 1) (run : s.pwr.pstate = .run ∨ s.pwr.pstate = .idle) :
    Goes .wakeTimerExpiry s (fun t => t.pwr = { s.pwr with wakeTimer := 2 ^ 64 - 1 } ∧ ∃ e ∈ t.hif.raised, e.code = 0x0C0F) := by
  obtain ⟨u, hu⟩ : ∃ u, u = s.advanceTo s.pwr.wakeTimer := ⟨_, rfl⟩
  have pwr : u.pwr = s.pwr := by rw [hu]; rfl
  obtain ⟨same, -, -, -, -, five⟩ := ordinaryWake_facts u 0x20
  obtain ⟨e, mem, code, -⟩ := five rfl (by rw [pwr]; exact armed)
  have may : ¬ (s.pwr.wakeTimer = State.maxNow ∨ s.pwr.pstate = .asleep .off) :=
    not_or.mpr ⟨armed, fun asleep => by rw [asleep] at run; exact run.elim PState.noConfusion PState.noConfusion⟩
  refine ⟨(u.ordinaryWake 0x20).disarm 0x20, ?_, ?_⟩
  · rw [show exec .wakeTimerExpiry s = execWakeTimerExpiry s from rfl, execWakeTimerExpiry, ← hu, wakeFired_run (by rw [pwr]; exact run),
      if_neg may]
  · rw [disarm_eq]
    exact ⟨by rw [same, pwr]; rfl, e, mem, code⟩

/-- R483: what the fourth step of a wake puts back. -/
theorem wakeResume_facts (s : State) (x : SleepTarget) (us : Nat) :
    (s.wakeResume x us).pwr = { s.pwr with pstate := .waking x 5, exitUs := min 0xFFFF us } ∧ (s.wakeResume x us).plog.ltrUs = 2 ∧
    (s.wakeResume x us).svc = s.svc ∧ (s.wakeResume x us).inL12 = s.inL12 ∧
    (∃ e ∈ (s.wakeResume x us).hif.raised, e.code = 0x0C01) ∧
    ∃ e ∈ (s.wakeResume x us).hif.raised, e.code = 0x0C02 ∧
      e.payload = .fields [s.pwr.wakeSource, s.pwr.wakeMask.toNat, x.code, (min 0xFFFF us : Nat)] := by
  obtain ⟨a, ha⟩ : ∃ a : State, a = (({ s with
    pwr := { s.pwr with pstate := .waking x 5, exitUs := min 0xFFFF us }
    plog := { s.plog with ltrUs := 2 }
    lvl := { s.lvl with budgetA := { s.lvl.budgetA with demandMw := 0, demandProg := 0 }
                        budgetB := { s.lvl.budgetB with demandMw := 0, demandProg := 0 } } } : State).apportionPower).apportionProg := ⟨_, rfl⟩
  obtain ⟨b, hb⟩ : ∃ b, b = a.resumeErases.emit (.ltr 2) := ⟨_, rfl⟩
  obtain ⟨c, hc⟩ : ∃ c, c = b.event 0x0C01 0 srcPower 0 [(x.code : Int)] := ⟨_, rfl⟩
  have eq : s.wakeResume x us = c.event 0x0C02 0 srcPower 0 [(c.pwr.wakeSource : Int), c.pwr.wakeMask.toNat, x.code, c.pwr.exitUs] := by
    rw [hc, hb, ha]; rfl
  have first : a.pwr = { s.pwr with pstate := .waking x 5, exitUs := min 0xFFFF us } ∧ a.plog.ltrUs = 2 ∧ a.svc = s.svc ∧ a.inL12 = s.inL12 := by
    rw [ha]; exact ⟨rfl, rfl, rfl, rfl⟩
  have second : b.pwr = a.pwr ∧ b.plog = a.plog ∧ b.svc = a.svc ∧ b.inL12 = a.inL12 := by
    obtain ⟨fls, same⟩ := resumeErases_fls a
    rw [hb, same]; exact ⟨rfl, rfl, rfl, rfl⟩
  have events : ∀ (t : State) (code : Nat) (l : List Int), (t.event code 0 srcPower 0 l).pwr = t.pwr ∧ (t.event code 0 srcPower 0 l).plog = t.plog ∧
      (t.event code 0 srcPower 0 l).svc = t.svc ∧ (t.event code 0 srcPower 0 l).inL12 = t.inL12 := fun t code l => by
    have ports : ∀ p, (t.event code 0 srcPower 0 l).port p = t.port p := port_event _ _ _ _ _ _
    refine ⟨by rw [(event_frame _ _ _ _ _ _).rest], by rw [(event_frame _ _ _ _ _ _).rest], by rw [(event_frame _ _ _ _ _ _).rest], ?_⟩
    have both : ∀ u : State, u.inL12 = ((u.port 0).l12 || (u.port 1).l12) := fun _ => rfl
    rw [both, both, ports, ports]
  have third : c.pwr = b.pwr ∧ c.plog = b.plog ∧ c.svc = b.svc ∧ c.inL12 = b.inL12 := by rw [hc]; exact events _ _ _
  have pwr : c.pwr = { s.pwr with pstate := .waking x 5, exitUs := min 0xFFFF us } := third.1.trans (second.1.trans first.1)
  obtain ⟨pwr', plog', svc', l12'⟩ := events c 0x0C02 [(c.pwr.wakeSource : Int), c.pwr.wakeMask.toNat, x.code, c.pwr.exitUs]
  have told : b.hif.raised ⊆ c.hif.raised := by rw [hc, raised_event]; exact List.subset_cons_self _ _
  rw [← eq] at pwr' plog' svc' l12'
  refine ⟨pwr'.trans pwr, ?_, svc'.trans (third.2.2.1.trans (second.2.2.1.trans first.2.2.1)),
    l12'.trans (third.2.2.2.trans (second.2.2.2.trans first.2.2.2)), ?_, ?_⟩
  · exact (congrArg PowerLog.ltrUs (plog'.trans (third.2.1.trans second.2.1))).trans first.2.1
  · rw [eq, raised_event, hc, raised_event]
    exact ⟨_, List.mem_cons_of_mem _ List.mem_cons_self, rfl⟩
  · rw [eq, raised_event, pwr]
    exact ⟨_, List.mem_cons_self, rfl, rfl⟩

theorem wakeStep_goes {us : Nat} {P : State → Prop} (waking : s.pwr.pstate = .waking x n) (free : s.pins.wakeStuck = false)
    (holds : P (s.wakeStep x n us)) : Goes (.wakeStep us) s P := by
  refine ⟨s.wakeStep x n us, ?_, holds⟩
  rw [show exec (.wakeStep us) s = execWakeStep us s from rfl, execWakeStep, waking]
  dsimp only
  rw [free]
  rfl

/-- The state that the fourth step of a wake begins on, and what it leaves there. -/
theorem wakeStep_four {us : Nat} (quiet : s.svc.requests = []) : ∃ r : State, (r.pwr = { s.pwr with pstate := .waking x 5, exitUs := min 0xFFFF us } ∧
    r.plog.ltrUs = 2 ∧ r.inL12 = s.inL12 ∧ (∃ e ∈ r.hif.raised, e.code = 0x0C01) ∧
    ∃ e ∈ r.hif.raised, e.code = 0x0C02 ∧ e.payload = .fields [s.pwr.wakeSource, s.pwr.wakeMask.toNat, x.code, (min 0xFFFF us : Nat)]) ∧
    s.wakeStep x 4 us = if s.pwr.lossPending then r.cut else if r.inL12 then r else { r with pwr := { r.pwr with pstate := .run } } := by
  obtain ⟨u, hu⟩ : ∃ u, u = s.advanceTo (s.pwr.wakeAt + us * 1000) := ⟨_, rfl⟩
  obtain ⟨a, ha⟩ : ∃ a, a = u.wakeResume x us := ⟨_, rfl⟩
  have same : u.pwr = s.pwr ∧ u.svc = s.svc ∧ u.inL12 = s.inL12 := by rw [hu]; exact ⟨rfl, rfl, rfl⟩
  obtain ⟨pwr, ltr, svc, l12, one, two⟩ := wakeResume_facts u x us
  rw [← ha] at pwr ltr svc l12 one two
  rw [same.1] at pwr two
  have answers : a.answerWaiting = { a with svc := { a.svc with requests := [] } } := by rw [State.answerWaiting, svc, same.2.1, quiet]; rfl
  refine ⟨{ a with svc := { a.svc with requests := [] } }, ⟨pwr, ltr, l12.trans same.2.2, one, two⟩, ?_⟩
  rw [← answers, ha, hu]
  rfl

theorem wake_resumes {us : Nat} (waking : s.pwr.pstate = .waking x 4) (free : s.pins.wakeStuck = false) (quiet : s.svc.requests = [])
    (fed : s.pwr.lossPending = false) :
    Goes (.wakeStep us) s (fun t => t.pwr.pstate = (if s.hif.port0.l12 || s.hif.port1.l12 then .waking x 5 else .run) ∧ t.pwr.mode = s.pwr.mode ∧
      t.pwr.exitUs = min 0xFFFF us ∧ t.plog.ltrUs = 2 ∧ (∃ e ∈ t.hif.raised, e.code = 0x0C01) ∧
      ∃ e ∈ t.hif.raised, e.code = 0x0C02 ∧ e.payload = .fields [s.pwr.wakeSource, s.pwr.wakeMask.toNat,
        (if x = .sleep then 1 else if x = .deep then 2 else 3), (min 0xFFFF us : Nat)]) := by
  obtain ⟨r, ⟨pwr, ltr, l12, one, two⟩, eq⟩ := wakeStep_four (x := x) (us := us) quiet
  have code : ((x.code : Nat) : Int) = if x = .sleep then 1 else if x = .deep then 2 else 3 := by cases x <;> rfl
  rw [code] at two
  refine wakeStep_goes waking free ?_
  rw [eq, fed, if_neg Bool.false_ne_true, l12]
  show _ = (if s.inL12 = true then _ else _) ∧ _
  split
  · exact ⟨by rw [pwr], by rw [pwr], by rw [pwr], ltr, one, two⟩
  · exact ⟨rfl, by dsimp only; rw [pwr], by dsimp only; rw [pwr], ltr, one, two⟩

theorem wake_lost {us : Nat} (waking : s.pwr.pstate = .waking x 4) (free : s.pins.wakeStuck = false) (quiet : s.svc.requests = [])
    (lost : s.pwr.lossPending = true) : Goes (.wakeStep us) s (fun t => t.pwr.pstate = .flushing 1 ∧ t.pwr.lossPending = false) := by
  obtain ⟨r, -, eq⟩ := wakeStep_four (x := x) (us := us) quiet
  refine wakeStep_goes waking free ?_
  rw [eq, if_pos lost]
  exact ⟨rfl, rfl⟩

theorem wake_leaves_l12 {us : Nat} (waking : s.pwr.pstate = .waking x 5) (free : s.pins.wakeStuck = false) :
    Goes (.wakeStep us) s (fun t => t.pwr.pstate = .run ∧ ∀ p < 2, t.port p = { s.port p with l12 := false }) := by
  refine wakeStep_goes waking free ⟨rfl, fun p _ => ?_⟩
  rw [State.port, State.port]
  split <;> rfl

theorem wake_advances {us : Nat} (waking : s.pwr.pstate = .waking x n) (free : s.pins.wakeStuck = false) (early : n < 4) :
    Goes (.wakeStep us) s (fun t => t.pwr = { s.pwr with pstate := .waking x (n + 1) } ∧
      t = { s with pwr := t.pwr, tim := { s.tim with now := t.tim.now } }) := by
  refine wakeStep_goes waking free ?_
  rw [State.wakeStep]
  dsimp only
  rw [if_pos early]
  exact ⟨rfl, rfl⟩

theorem wake_sticks (waking : s.pwr.pstate = .waking x n) :
    Goes .wakeStepTimeout s (fun t => t = { s with pins := { s.pins with wakeStuck := true } } ∧ t.modOk = false) := by
  refine ⟨{ s with pins := { s.pins with wakeStuck := true } }, ?_, rfl, ?_⟩
  · rw [show exec .wakeStepTimeout s = execWakeStepTimeout s from rfl, execWakeStepTimeout, waking]
  · rw [State.modOk]
    simp

end Timer

end Sys2Proof.Proofs
end

section
/-! Settles O52: domains closed by force, credit windows, core phases and clocks that stop, and the rows of the power states
(R30 to R34, R465 to R490). -/

namespace Sys2Proof.Proofs

open Sys2Proof Sys2Proof.Machine

section Forced

variable {s : State}

theorem ops_settleOp (s : State) (i n : Nat) (a : Ticket) :
    (s.settleOp i n a).kry.ops = s.kry.ops.filter (fun o => !(decide (o.inst = i) && decide (o.ticket = n))) := by
  rw [State.settleOp, State.postTicket]
  split
  · rfl
  · split <;> rfl

/-- The operations of a channel that a forced close answers (R487). -/
def answerSquashed (s : State) (ops : List KOp) : State := ops.foldl (fun (t : State) o => t.settleOp o.inst o.ticket (State.answer 0x785 0)) s

theorem answerSquashed_ops (o : KOp) : ∀ (ops : List KOp) (s : State), o ∈ (answerSquashed s ops).kry.ops → o ∈ s.kry.ops ∧ o ∉ ops
  | [], _, mem => ⟨mem, List.not_mem_nil⟩
  | p :: ops, s, mem => by
    obtain ⟨stays, other⟩ := answerSquashed_ops o ops (s.settleOp p.inst p.ticket (State.answer 0x785 0)) mem
    rw [ops_settleOp, List.mem_filter] at stays
    refine ⟨stays.1, fun here => ?_⟩
    rcases List.mem_cons.mp here with rfl | here
    · exact absurd stays.2 (by simp)
    · exact other here

/-- R486, R487: a domain closed by force, and the transfers it ends. -/
theorem domain_closes {x : SleepTarget} {d : Nat} {vs : List HostCmd} (entering : s.pwr.pstate = .entering x 2) (low : 16 ≤ d) (high : d < 172) :
    Goes (.domainCloseForced d vs) s (fun t => t.plog.closeDomain = d ∧ t.plog.closing = false ∧ t.plog.forced = true ∧
      (s.car.flights = [] → ∀ o ∈ s.kry.ops, squashes d o = true → o ∉ t.kry.ops) ∧
      ((∀ v ∈ s.car.flights, v.cmd ∉ vs) → (∀ o ∈ s.kry.ops, squashes d o = false) → t.plog.squashed = min (2 ^ 32 - 1) s.plog.squashed ∧
        t.car = s.car ∧ ∃ e, t.hif.raised = e :: s.hif.raised ∧ e.code = 0x0C05 ∧ e.payload = .fields [d, 0])) := by
  obtain ⟨hit, hhit⟩ : ∃ hit, hit = s.car.flights.filter (fun v => vs.contains v.cmd) := ⟨_, rfl⟩
  obtain ⟨ops, hops⟩ : ∃ ops, ops = s.kry.ops.filter (squashes d) := ⟨_, rfl⟩
  obtain ⟨t, ht⟩ : ∃ t, t = hit.foldl (fun (t : State) v => match t.flight v.id with
    | some w => t.killFlight w (.vendor 0x85)
    | none => t) (answerSquashed s ops) := ⟨_, rfl⟩
  obtain ⟨u, hu⟩ : ∃ u : State, u = { t with plog := { t.plog with
    closeDomain := d, closing := false, forced := true, squashed := satAdd 0xFFFFFFFF t.plog.squashed (hit.length + ops.length) } } := ⟨_, rfl⟩
  have run : exec (.domainCloseForced d vs) s = arises (decide (16 ≤ d) && decide (d < 172)) "DOMAIN_CLOSE_FORCED"
      (u.event 0x0C05 2 srcPower 0 [(d : Int), (hit.length + ops.length : Nat)]) := by
    rw [show exec (.domainCloseForced d vs) s = execDomainCloseForced d vs s from rfl, execDomainCloseForced, entering, hu, ht, hhit, hops]
    rfl
  refine goes_of_arises run (by rw [decide_eq_true low, decide_eq_true high]; rfl) ?_
  rw [raised_event]
  have rest := (event_frame u 0x0C05 2 srcPower 0 [(d : Int), (hit.length + ops.length : Nat)]).rest
  generalize u.event 0x0C05 2 srcPower 0 [(d : Int), (hit.length + ops.length : Nat)] = w at rest ⊢
  have plog : w.plog = u.plog := by rw [rest]
  have ops' : w.kry.ops = t.kry.ops := by rw [rest, hu]
  rw [plog]
  refine ⟨by rw [hu], by rw [hu], by rw [hu], fun none o _ hits inside => ?_, fun none away => ?_⟩
  · have same : t = answerSquashed s ops := by rw [ht, hhit, none]; rfl
    rw [ops', same] at inside
    exact (answerSquashed_ops o ops s inside).2 (by rw [hops, List.mem_filter]; exact ⟨by assumption, hits⟩)
  · have no_hit : hit = [] := hhit.trans (List.filter_eq_nil_iff.mpr fun v mem h => none v mem (List.contains_iff_mem.mp h))
    have no_op : ops = [] := hops.trans (List.filter_eq_nil_iff.mpr fun o mem h => by rw [away o mem] at h; exact absurd h (by decide))
    have same : t = s := by rw [ht, no_hit, no_op]; rfl
    refine ⟨?_, by rw [rest, hu, same], _, congrArg _ (by rw [hu, same]), rfl, ?_⟩
    · rw [hu, same, no_hit, no_op]; rfl
    · rw [no_hit, no_op]; rfl

end Forced

section Window

variable {s t : State}

/-- R465: with all core phases and no command waiting, the mode that was asked for is in force. -/
theorem applyMode_quiet (idle : s.fcd.jobs = []) (commands : s.pwr.modeCommands = []) (phases : s.pwr.phasesOk = 0x1FF) :
    EventFrame { s with
      pwr := { s.pwr with mode := s.pwr.pendingMode.getD s.pwr.mode, pendingMode := none, modeCommands := [], phaseLimit := 0 }
      fcd := { s.fcd with lanesInUse := if s.part.codec then (s.pwr.pendingMode.getD s.pwr.mode).lanes else 0 } } s.applyMode := by
  have row : s.phaseRow = 0 := by rw [State.phaseRow, phases]; decide
  have next : s.nextMode = (s.pwr.pendingMode.getD s.pwr.mode, 0) := by
    rw [State.nextMode, row]
    exact if_neg (Nat.not_lt_zero _)
  obtain ⟨u, hu⟩ : ∃ u : State, u = { s with
      pwr := { s.pwr with mode := s.pwr.pendingMode.getD s.pwr.mode, pendingMode := none, modeCommands := [], phaseLimit := 0 }
      fcd := { s.fcd with lanesInUse := if s.part.codec then (s.pwr.pendingMode.getD s.pwr.mode).lanes else 0 } } := ⟨_, rfl⟩
  have none : u.fcd.jobs = [] := by rw [hu]; exact idle
  have apply : s.applyMode = if s.pwr.pendingMode.getD s.pwr.mode = s.pwr.mode then u.settleCodec else
      u.settleCodec.event 0x0C00 1 srcPower 0 [s.pwr.mode.code, (s.pwr.pendingMode.getD s.pwr.mode).code, (0 : Nat)] := by
    rw [State.applyMode, next, row, commands, hu]
    rfl
  rw [← hu, apply, settleCodec_idle none]
  split
  · exact .refl u
  · exact event_frame _ _ _ _ _ _

theorem judgePower_frame (s : State) (avg : Nat) : ∃ u : State, EventFrame u (s.judgePower avg) ∧
    u = { s with lvl := { s.lvl with excessMw := u.lvl.excessMw }, free := s.free + 1 } := by
  unfold State.judgePower
  dsimp only
  split
  · exact ⟨_, .refl _, rfl⟩
  · exact ⟨_, event_frame _ _ _ _ _ _, rfl⟩

/-- What the start of a credit window puts in force: the row and the shares of the regions (R133). -/
theorem windowEdge_quiet (dies : s.fls.dies = []) (idle : s.fcd.jobs = []) (commands : s.pwr.modeCommands = [])
    (phases : s.pwr.phasesOk = 0x1FF) (still : s.thm.step = 0) (floor : s.thm.fanFloor = false) (a : s.lvl.regionA = true) (b : s.lvl.regionB = true) :
    s.windowEdge.pwr.mode = s.pwr.pendingMode.getD s.pwr.mode ∧ s.windowEdge.pwr.pendingMode = none ∧ s.windowEdge.pwr.pAvg = s.pwr.pAvg ∧
    s.windowEdge.pwr.iIn = s.pwr.iIn ∧ s.windowEdge.tim = s.tim ∧ s.windowEdge.lvl.windowStart = s.now - s.now % 1000000 ∧
    s.windowEdge.lvl.budgetA.shareProg = rowProg (min 4 (s.pwr.pendingMode.getD s.pwr.mode).row) / 4 ∧
    s.windowEdge.lvl.budgetB.shareProg = rowProg (min 4 (s.pwr.pendingMode.getD s.pwr.mode).row) / 4 ∧
    (∀ r ∈ s.windowEdge.car.ra, r.fraction = rowRa (min 4 (s.pwr.pendingMode.getD s.pwr.mode).row)) ∧
    (s.part.codec = true → s.windowEdge.fcd.lanesInUse = (s.pwr.pendingMode.getD s.pwr.mode).lanes) ∧
    s.windowEdge.zns = s.zns ∧ s.windowEdge.fls.blocks = s.fls.blocks := by
  obtain ⟨c, hc⟩ : ∃ c, c = (s.startClock 4).reportDemand := ⟨_, rfl⟩
  have demand : ∀ region, s.progDemand region = 0 := fun region => by rw [State.progDemand, dies]; rfl
  have first : c.pwr = s.pwr ∧ c.fcd = s.fcd ∧ c.fls = s.fls ∧ c.thm = s.thm ∧ c.part = s.part ∧ c.tim = s.tim ∧ c.zns = s.zns ∧
      c.lvl.regionA = true ∧ c.lvl.regionB = true ∧ c.lvl.budgetA.demandProg = 0 ∧ c.lvl.budgetB.demandProg = 0 := by
    rw [hc]
    exact ⟨rfl, rfl, rfl, rfl, rfl, rfl, rfl, a, b, demand 0, demand 1⟩
  obtain ⟨pwr, fcd, fls, thm, part, tim, zns, regionA, regionB, demandA, demandB⟩ := first
  have moded := applyMode_quiet (s := c) (by rw [fcd]; exact idle) (by rw [pwr]; exact commands) (by rw [pwr]; exact phases)
  obtain ⟨d, hd⟩ : ∃ d, d = c.applyMode := ⟨_, rfl⟩
  have rest := moded.rest
  rw [← hd] at rest
  obtain ⟨e, he⟩ : ∃ e, e = d.liftFanFloor.measureDaily := ⟨_, rfl⟩
  have fourth : e = { d with plog := e.plog } := by
    have floor' : d.thm.fanFloor = false := by rw [rest]; dsimp only; rw [thm]; exact floor
    have lifted : d.liftFanFloor = d := by rw [State.liftFanFloor, floor']; rfl
    rw [he, lifted]
    unfold State.measureDaily State.startMeasurement
    split
    · split <;> rfl
    · rfl
  obtain ⟨row, hrow⟩ : ∃ row, row = e.ladderRow := ⟨_, rfl⟩
  have ladder : row = min 4 (s.pwr.pendingMode.getD s.pwr.mode).row := by
    rw [hrow, State.ladderRow, fourth]
    dsimp only
    rw [rest]
    dsimp only
    rw [pwr, thm, still]
    rfl
  obtain ⟨f, hf⟩ : ∃ f : State, f = ({ e with
    lvl := { e.lvl with rowInForce := row, rowPower := row, windowStart := e.now - e.now % 1000000 }
    fls := { e.fls with
      dies := e.fls.dies.map (fun (x : Nat × Die) => (x.1, { x.2 with op := x.2.op.map (fun (o : DieOp) =>
        { o with region := e.dieRegion x.1 }) }))
      clusters := e.fls.clusters.map (fun (c : ClusterCfg) => { c with media := c.mediaNext.getD c.media, mediaNext := none })
      fold := e.fls.foldNext.getD e.fls.fold, foldNext := none }
    car := { e.car with ra := e.car.ra.map (fun (r : RaBudget) => State.RaBudget.renew r (rowRa row)) } } : State).apportionPower.apportionProg.renewCredit :=
    ⟨_, rfl⟩
  have edge : s.windowEdge = State.trimSlots (rowProg row) (f.slotsHeld 0 + f.slotsHeld 1) f := by rw [hf, hrow, he, hd, hc]; rfl
  have none : e.fls.dies = [] := by rw [fourth]; dsimp only; rw [rest]; dsimp only; rw [fls]; exact dies
  have none' : f.fls.dies = [] := by
    have same : f.fls.dies = e.fls.dies.map (fun (x : Nat × Die) => (x.1, { x.2 with op := x.2.op.map (fun (o : DieOp) =>
        { o with region := e.dieRegion x.1 }) })) := by rw [hf]; rfl
    rw [same, none]; rfl
  have last : s.windowEdge = f := by
    rw [edge, State.slotsHeld, State.slotsHeld, none']
    rfl
  have alive : e.lvl.regionA = true ∧ e.lvl.regionB = true ∧ e.lvl.budgetA.demandProg = 0 ∧ e.lvl.budgetB.demandProg = 0 := by
    rw [fourth]; dsimp only; rw [rest]; exact ⟨regionA, regionB, demandA, demandB⟩
  obtain ⟨aliveA, aliveB, noneA, noneB⟩ := alive
  have share : ∀ n : Nat, State.shareOf n 0 0 (!true) = n / 4 := fun n => rfl
  have same : e.pwr = { s.pwr with mode := s.pwr.pendingMode.getD s.pwr.mode, pendingMode := .none, modeCommands := [], phaseLimit := 0 } ∧
      e.tim = s.tim ∧ e.zns = s.zns ∧ e.fls = s.fls ∧ e.fcd.lanesInUse = if s.part.codec then (s.pwr.pendingMode.getD s.pwr.mode).lanes else 0 := by
    rw [fourth]; dsimp only; rw [rest]; dsimp only; rw [pwr, tim, zns, fls, part]; exact ⟨rfl, rfl, rfl, rfl, rfl⟩
  obtain ⟨pwr', tim', zns', fls', lanes⟩ := same
  rw [last, ← ladder]
  have final : f.pwr = e.pwr ∧ f.tim = e.tim ∧ f.zns = e.zns ∧ f.fcd = e.fcd ∧ f.fls.blocks = e.fls.blocks ∧
      f.lvl.windowStart = e.now - e.now % 1000000 ∧ f.car.ra = e.car.ra.map (fun (r : RaBudget) => State.RaBudget.renew r (rowRa row)) ∧
      f.lvl.budgetA.shareProg = (if e.lvl.regionA then State.shareOf (rowProg row) e.lvl.budgetA.demandProg e.lvl.budgetB.demandProg (!e.lvl.regionB) else 0) ∧
      f.lvl.budgetB.shareProg = (if e.lvl.regionB then State.shareOf (rowProg row) e.lvl.budgetB.demandProg e.lvl.budgetA.demandProg (!e.lvl.regionA) else 0) := by
    rw [hf]
    exact ⟨rfl, rfl, rfl, rfl, rfl, rfl, rfl, rfl, rfl⟩
  obtain ⟨fpwr, ftim, fzns, ffcd, fblocks, fstart, fra, fA, fB⟩ := final
  rw [aliveA, aliveB, noneA, noneB, if_pos rfl, share] at fA fB
  refine ⟨by rw [fpwr, pwr'], by rw [fpwr, pwr'], by rw [fpwr, pwr'], by rw [fpwr, pwr'], ftim.trans tim', ?_, fA, fB, fun r mem => ?_, fun has => ?_,
    fzns.trans zns', by rw [fblocks, fls']⟩
  · rw [fstart, State.now, State.now, tim']
  · rw [fra, List.mem_map] at mem
    obtain ⟨r', -, rfl⟩ := mem
    rfl
  · rw [ffcd, lanes, has]; rfl

end Window

section Power

variable {s : State}

/-- R133, R465: the edge of a credit window. -/
theorem window_opens (awake : s.awake = true) (avg amps : Nat) (m : Mode) (dies : s.fls.dies = []) (idle : s.fcd.jobs = [])
    (commands : s.pwr.modeCommands = []) (phases : s.pwr.phasesOk = 0x1FF) (still : s.thm.step = 0) (floor : s.thm.fanFloor = false)
    (a : s.lvl.regionA = true) (b : s.lvl.regionB = true) (want : s.pwr.pendingMode.getD s.pwr.mode = m) :
    Goes (.creditWindowBoundary avg amps) s (fun t => t.pwr.mode = m ∧ t.pwr.pendingMode = none ∧ t.pwr.pAvg = avg ∧
      t.pwr.iIn = amps ∧ t.tim.now = max s.tim.now (min (s.lvl.windowStart + 1000000) (2 ^ 64 - 1)) ∧
      t.lvl.windowStart = t.tim.now / 1000000 * 1000000 ∧
      t.lvl.budgetA.shareProg = rowProg (min 4 m.row) / 4 ∧ t.lvl.budgetB.shareProg = rowProg (min 4 m.row) / 4 ∧
      (∀ r ∈ t.car.ra, r.fraction = rowRa (min 4 m.row)) ∧ (s.part.codec = true → t.fcd.lanesInUse = m.lanes) ∧
      t.zns = s.zns ∧ t.fls.blocks = s.fls.blocks) := by
  obtain ⟨t0, h0⟩ : ∃ t0, t0 = s.advanceTo (s.lvl.windowStart + 1000000) := ⟨_, rfl⟩
  obtain ⟨v, frame, hv⟩ := judgePower_frame t0 avg
  obtain ⟨j, hj⟩ : ∃ j, j = t0.judgePower avg := ⟨_, rfl⟩
  obtain ⟨u, hu⟩ : ∃ u : State, u = { j with pwr := { j.pwr with pAvg := avg, iIn := amps } } := ⟨_, rfl⟩
  have run : exec (.creditWindowBoundary avg amps) s = arises s.awake "CREDIT_WINDOW_BOUNDARY" u.windowEdge := by rw [hu, hj, h0]; rfl
  have rest := frame.rest
  rw [← hj] at rest
  have same : u.fls = s.fls ∧ u.fcd = s.fcd ∧ u.pwr = { s.pwr with pAvg := avg, iIn := amps } ∧ u.thm = s.thm ∧ u.lvl.regionA = s.lvl.regionA ∧
      u.lvl.regionB = s.lvl.regionB ∧ u.zns = s.zns ∧ u.part = s.part ∧
      u.now = max s.tim.now (min (s.lvl.windowStart + 1000000) (2 ^ 64 - 1)) := by
    rw [hu, rest, hv, h0]
    exact ⟨rfl, rfl, rfl, rfl, rfl, rfl, rfl, rfl, rfl⟩
  obtain ⟨fls, fcd, pwr, thm, regionA, regionB, zns, part, now⟩ := same
  obtain ⟨mode, pending, pAvg, iIn, tim, start, shareA, shareB, fraction, lanes, zns', blocks⟩ := windowEdge_quiet (s := u) (by rw [fls]; exact dies)
    (by rw [fcd]; exact idle) (by rw [pwr]; exact commands) (by rw [pwr]; exact phases) (by rw [thm]; exact still) (by rw [thm]; exact floor)
    (regionA.trans a) (regionB.trans b)
  rw [pwr] at mode pAvg iIn shareA shareB fraction lanes
  dsimp only at mode pAvg iIn shareA shareB fraction lanes
  rw [want] at mode shareA shareB fraction lanes
  have time : u.windowEdge.tim.now = u.now := congrArg TimeBase.now tim
  refine goes_of_arises run awake ⟨mode, pending, pAvg, iIn, time.trans now, ?_, shareA, shareB, fraction,
    fun has => lanes (by rw [part]; exact has), zns'.trans zns, by rw [blocks, fls]⟩
  rw [start, time]
  omega

theorem getLsbD_and_not {w i j : Nat} (x : BitVec w) (low : j < w) :
    (x &&& ~~~ BitVec.ofNat w (2 ^ i)).getLsbD j = (x.getLsbD j && decide (j ≠ i)) := by
  rw [BitVec.getLsbD_and, BitVec.getLsbD_not, BitVec.getLsbD_ofNat, decide_eq_true low, Bool.true_and, Bool.true_and, Nat.testBit_two_pow]
  congr 1
  rw [← decide_not]
  exact decide_eq_decide.mpr (not_congr eq_comm)

/-- The core phases that are left when one fails. -/
theorem phases_left {i : Nat} (low : i < 9) (x : BitVec 9) (was : x.getLsbD i = true) :
    ((List.range 9).filter (fun j => (x &&& ~~~ BitVec.ofNat 9 (2 ^ i)).getLsbD j)).length =
      ((List.range 9).filter (fun j => x.getLsbD j)).length - 1 := by
  have same : (List.range 9).filter (fun j => (x &&& ~~~ BitVec.ofNat 9 (2 ^ i)).getLsbD j) = ((List.range 9).filter (fun j => x.getLsbD j)).erase i := by
    rw [(List.nodup_range.filter _).erase_eq_filter, List.filter_filter]
    refine List.filter_congr fun j mem => ?_
    rw [getLsbD_and_not x (List.mem_range.mp mem), Bool.and_comm]
    congr 1
    exact (decide_not (p := j = i)).trans rfl
  rw [same, List.length_erase_of_mem (List.mem_filter.mpr ⟨List.mem_range.mpr low, was⟩)]

/-- The phases that fail anew where one is named. -/
theorem phases_failed {i : Nat} (low : i < 9) (x : BitVec 9) (was : x.getLsbD i = true) :
    (List.range 9).filter (fun j => (BitVec.ofNat 9 (2 ^ i)).getLsbD j && x.getLsbD j) = [i] := by
  have same : (List.range 9).filter (fun j => (BitVec.ofNat 9 (2 ^ i)).getLsbD j && x.getLsbD j) = (List.range 9).filter (fun j => decide (i = j)) := by
    refine List.filter_congr fun j mem => ?_
    rw [BitVec.getLsbD_ofNat, decide_eq_true (List.mem_range.mp mem), Bool.true_and, Nat.testBit_two_pow]
    by_cases eq : i = j
    · rw [← eq, was, Bool.and_true]
    · rw [decide_eq_false eq, Bool.false_and]
  have one : ∀ i < 9, (List.range 9).filter (fun j => decide (i = j)) = [i] := by decide
  rw [same, one i low]

/-- R467: a core phase that fails, and the module that is left with too few. -/
theorem phase_fails (awake : s.awake = true) {i : Nat} (low : i < 9) (was : s.pwr.phasesOk.getLsbD i = true) :
    let left := ((List.range 9).filter (fun j => s.pwr.phasesOk.getLsbD j)).length - 1
    (4 ≤ left → Goes (.corePhaseCheck (BitVec.ofNat 9 (2 ^ i))) s (fun t =>
      t.pwr = { s.pwr with phasesOk := t.pwr.phasesOk } ∧
      (∀ j < 9, t.pwr.phasesOk.getLsbD j = (s.pwr.phasesOk.getLsbD j && decide (j ≠ i))) ∧
      ∃ e, t.hif.raised = e :: s.hif.raised ∧ e.code = 0x0C06 ∧ e.payload = .fields [i, left])) ∧
    (left < 4 → s.pwr.pstate = .run → Goes (.corePhaseCheck (BitVec.ofNat 9 (2 ^ i))) s (fun t => t.pwr.pstate = .flushing 1)) := by
  obtain ⟨ok, hok⟩ : ∃ ok, ok = s.pwr.phasesOk &&& ~~~ BitVec.ofNat 9 (2 ^ i) := ⟨_, rfl⟩
  have count : ((List.range 9).filter (fun j => ok.getLsbD j)).length = ((List.range 9).filter (fun j => s.pwr.phasesOk.getLsbD j)).length - 1 := by
    rw [hok]; exact phases_left low _ was
  obtain ⟨u, hu⟩ : ∃ u : State, u = { s with pwr := { s.pwr with phasesOk := ok } } := ⟨_, rfl⟩
  obtain ⟨t, ht⟩ : ∃ t, t = u.event 0x0C06 3 srcPower 0 [(i : Int), ((List.range 9).filter (fun j => ok.getLsbD j)).length] := ⟨_, rfl⟩
  have pwr : t.pwr = { s.pwr with phasesOk := ok } := by rw [ht, (event_frame _ _ _ _ _ _).rest, hu]
  have run : exec (.corePhaseCheck (BitVec.ofNat 9 (2 ^ i))) s = arises s.awake "CORE_PHASE_CHECK"
      (if ((List.range 9).filter (fun j => t.pwr.phasesOk.getLsbD j)).length < 4 then t.declareLoss else t) := by
    rw [show exec (.corePhaseCheck (BitVec.ofNat 9 (2 ^ i))) s = execCorePhaseCheck (BitVec.ofNat 9 (2 ^ i)) s from rfl, execCorePhaseCheck,
      phases_failed low _ was, ht, hu, hok]
    rfl
  rw [pwr] at run
  dsimp only at run
  rw [count] at run ht
  dsimp only
  generalize ((List.range 9).filter (fun j => s.pwr.phasesOk.getLsbD j)).length - 1 = left at run ht ⊢
  refine ⟨fun enough => goes_of_arises run awake ?_, fun few on => goes_of_arises run awake ?_⟩
  · rw [if_neg (Nat.not_lt.mpr enough), pwr]
    refine ⟨rfl, fun j high => ?_, _, by rw [ht, raised_event, hu], rfl, rfl⟩
    rw [hok]; exact getLsbD_and_not _ high
  · rw [if_pos few, State.declareLoss, show t.pwr.pstate = .run by rw [pwr]; exact on]
    rfl

end Power

/-- Settles O52 (R30 to R34, R465 to R490). -/
theorem powerStatesModesAndWindowsChange : Obligations.PowerStatesModesAndWindowsChange := fun s =>
  ⟨fun run timer => goes_of_arises rfl (by rw [run, decide_eq_true timer]; rfl) ⟨rfl, rfl, Nat.le_max_left _ _, rfl⟩,
    fun x n entering =>
      ⟨fun at_ => by
          obtain rfl | rfl := at_
          · exact entry_goes entering rfl rfl
          · exact entry_goes entering rfl rfl,
        fun two drained => by subst two; exact entry_secures entering drained,
        fun three clean settled stays => by subst three; exact entry_announces entering clean settled stays,
        fun five light none => by subst five; exact entry_sleeps entering light none,
        fun five light e i found mem least => by subst five; exact entry_wakes entering light found mem least,
        fun five off => by subst five off; exact entry_off entering⟩,
    fun mask =>
      ⟨fun _ light asleep => ⟨fun none => wake_goes ((wakeFired_asleep light asleep).trans (by rw [sources_none none]; rfl)) rfl,
          fun _ on least => source_wakes light asleep on least⟩,
        fun asleep one => wake_goes (by rw [State.wakeFired, asleep]; exact if_pos one) rfl,
        source_ordinary,
        fun _ n entering _ on least => ⟨source_aborts entering on least,
          fun five e found => by subst five; exact source_held entering on found⟩⟩,
    fun armed => ⟨fun _ light asleep en => timer_wakes armed light asleep en, timer_expires armed⟩,
    fun x n us waking free =>
      ⟨wake_advances waking free,
        fun four quiet fed => by subst four; exact wake_resumes waking free quiet fed,
        fun four quiet lost => by subst four; exact wake_lost waking free quiet lost,
        fun five => by subst five; exact wake_leaves_l12 waking free,
        wake_sticks waking⟩,
    fun _ _ _ entering low high => domain_closes entering low high,
    fun awake => ⟨fun avg amps m dies idle commands phases still floor a b want => by
        obtain ⟨t, run, mode, pending, pAvg, iIn, now, start, shareA, shareB, fraction, lanes, rest⟩ :=
          window_opens awake avg amps m dies idle commands phases still floor a b want
        refine ⟨t, run, mode, pending, pAvg, iIn, now, start, ?_⟩
        cases m with
        | galop => exact ⟨⟨shareA, shareB, fraction⟩, lanes, rest⟩
        | waltz => exact ⟨⟨shareA, shareB, fraction⟩, lanes, rest⟩
        | minuet => exact ⟨⟨shareA, shareB, fraction⟩, lanes, rest⟩, fun _ low was => phase_fails awake low was⟩,
    fun d pos low on idle => goes_of_arises rfl (by rw [decide_eq_true (Nat.ne_of_gt pos), on, idle]; rfl)
      ⟨rfl, fun _ high => getLsbD_and_not _ high⟩⟩

end Sys2Proof.Proofs
end

section
/-! SUPPORT: what the flush of a power loss programs, and the limit that a measurement of the bank sets (R215 to R222). -/

namespace Sys2Proof.Proofs

open Sys2Proof Sys2Proof.Machine

section Flush

variable {s t : State}

theorem sealPages_jrn (s : State) (d b p n : Nat) (flush : Bool) (fresh : Nat → Bool) : (s.sealPages d b p n flush fresh).jrn = s.jrn := by
  show (s.takeSeq _).2.jrn = s.jrn
  unfold State.takeSeq
  dsimp only
  split
  · rw [(event_frame _ _ _ _ _ _).rest]
  · rfl

theorem programNow_jrn (s : State) (d b : Nat) (pages : List (List Byte × PageRecord)) (flush : Bool) : (s.programNow d b pages flush).jrn = s.jrn := by
  have laid := layPages_cells s d b (s.block d b).wp pages
  obtain ⟨u, hu⟩ : ∃ u, u = s.layPages d b (s.block d b).wp pages := ⟨_, rfl⟩
  rw [← hu] at laid
  obtain ⟨n, fresh, start⟩ := noteStart_system s u d b (s.block d b).wp flush
  have runs : s.programNow d b pages flush = u.noteStart d { s.systemEntry b (s.block d b).wp 0 .journal with flush := flush } := by rw [hu]; rfl
  rw [runs, start, sealPages_jrn]
  show u.jrn = s.jrn
  rw [laid]

theorem journalWrite_tailSeq (s : State) (flush : Bool) : (s.journalWrite flush).jrn.tailSeq = s.jrn.tailSeq := by
  have all : ∀ (l : List (Nat × Nat)) (t : State),
      (l.foldl (fun u m => u.programNow m.1 m.2 s.journalUnit flush) t).jrn.tailSeq = t.jrn.tailSeq := fun l => by
    induction l with
    | nil => exact fun _ => rfl
    | cons m l ih => exact fun t => (ih _).trans (congrArg Journal.tailSeq (programNow_jrn t m.1 m.2 s.journalUnit flush))
  have blocks : s.journalBlocks.jrn.tailSeq = s.jrn.tailSeq := by
    unfold State.journalBlocks
    split <;> rfl
  rw [State.journalWrite]
  exact (all _ _).trans blocks

/-- R218: the flush writes out the journal. -/
theorem journalFlush_facts (s : State) : s.journalFlush.jrn.tail = 0 ∧ (0 < s.jrn.tail → s.journalFlush.jrn.lastSeq = s.jrn.tailSeq) ∧
    SameZones s s.journalFlush := by
  have all : ∀ n (t : State), (times (fun u => let w := State.journalWrite u true; { w with jrn := { w.jrn with units := w.jrn.units + 1 } }) n t).jrn.tailSeq =
      t.jrn.tailSeq := fun n => by
    induction n with
    | zero => exact fun _ => rfl
    | succ n ih => exact fun t => (ih _).trans (journalWrite_tailSeq t true)
  refine ⟨rfl, fun waits => ?_, ?_⟩
  · show (if s.jrn.tail = 0 then _ else _) = _
    rw [if_neg (by omega)]
    exact all _ s
  · obtain ⟨-, desk, -⟩ := journalUnits_facts (f := fun u => u.journalWrite true) (fun u => State.journalWrite_log u true)
      (fun u => journalWrite_desk u true) s
    have same : s.journalFlush.desk = (s.journalUnits (fun u => u.journalWrite true)).desk := rfl
    exact sameZones_of_desk (same.trans desk)

theorem programsDone_none (none : s.programCount = 0) : s.programsDone = s := by
  rw [State.programsDone, none]
  rfl

end Flush

section Bank

variable {s t : State}

theorem timeStands_portAsync (s : State) (p bit type info page : Nat) : TimeStands s (s.portAsync p bit type info page) := by
  have set : ∀ v, TimeStands s (s.setPort p v) := fun v => by
    rw [State.setPort]
    split <;> exact timeStands_of rfl rfl
  unfold State.portAsync
  dsimp only
  split
  · split
    · exact (set _).trans (timeStands_done _ _ _)
    · split
      · exact timeStands_of rfl rfl
      · exact set _
  · exact timeStands_of rfl rfl

theorem timeStands_compAsync (s : State) (c bit type info page : Nat) : TimeStands s (s.compAsync c bit type info page) := by
  unfold State.compAsync
  split
  · exact timeStands_of rfl rfl
  · split
    · split
      · refine TimeStands.trans ?_ (timeStands_done _ _ _)
        exact timeStands_of rfl rfl
      · split
        · exact timeStands_of rfl rfl
        · exact timeStands_of rfl rfl
    · exact timeStands_of rfl rfl

theorem timeStands_warning (s : State) (bit info : Nat) : TimeStands s (s.warning bit info) :=
  ((timeStands_portAsync s 0 bit 1 info 2).trans (timeStands_portAsync _ 1 bit 1 info 2)).trans
    (timeStands_foldl (fun t (e : Nat × Option Features) => timeStands_compAsync t e.1 bit 1 info 2) _ _)

theorem dirtyList_of_frame (h : EventFrame s t) : t.dirtyList = s.dirtyList := by
  rw [h.rest]
  rfl

/-- R216: a limit of the dirty data takes effect, and its end is told. -/
theorem setLimit_facts {mib : Nat} (clean : s.dirtyList = []) :
    (s.setLimit mib).plog = { s.plog with limitMib := mib, singlePath := decide (mib = 0) } ∧
    (∀ e ∈ s.hif.raised, e ∈ (s.setLimit mib).hif.raised) ∧
    (mib = 0 → s.plog.singlePath = false → ∃ e ∈ (s.setLimit mib).hif.raised, e.code = 0x0602) ∧
    (s.setLimit mib).zns = s.zns ∧ (s.setLimit mib).fls = s.fls := by
  obtain ⟨a, ha⟩ : ∃ a : State, a = { s with plog := { s.plog with limitMib := mib, singlePath := decide (mib = 0) } } := ⟨_, rfl⟩
  obtain ⟨e, he⟩ : ∃ e, e = a.event 0x0602 4 srcBank 0 [(a.plog.bankCap : Int), a.plog.bankEsr] := ⟨_, rfl⟩
  obtain ⟨b, hb⟩ : ∃ b, b = if mib = 0 ∧ (!s.plog.singlePath) = true then e.warning 4 0 else a := ⟨_, rfl⟩
  have runs : s.setLimit mib = b.shadowExcess := by rw [hb, he, ha]; rfl
  have frame : EventFrame a b := by
    rw [hb, he]
    split
    · exact (event_frame _ _ _ _ _ _).trans (warning_frame _ _ _)
    · exact .refl a
  have told : ∀ x ∈ a.hif.raised, x ∈ b.hif.raised := fun x mem => by
    rw [hb]
    split
    · exact (timeStands_warning e 4 0).told x (by rw [he, raised_event]; exact List.mem_cons_of_mem _ mem)
    · exact mem
  have clean' : b.dirtyList = [] := (dirtyList_of_frame frame).trans (by rw [ha]; exact clean)
  have none : b.shadowExcess = b := by rw [State.shadowExcess, clean']; exact if_pos (Nat.zero_sub _)
  have same : a.hif = s.hif ∧ a.zns = s.zns ∧ a.fls = s.fls ∧ a.plog = { s.plog with limitMib := mib, singlePath := decide (mib = 0) } := by
    rw [ha]; exact ⟨rfl, rfl, rfl, rfl⟩
  obtain ⟨hif, zns, fls, plog⟩ := same
  rw [runs, none]
  refine ⟨?_, fun x mem => told x (hif ▸ mem), fun zero pair => ?_, ?_, ?_⟩
  · rw [frame.rest]; exact plog
  · rw [hb, if_pos ⟨zero, by rw [pair]; rfl⟩]
    exact ⟨_, (timeStands_warning e 4 0).told _ (by rw [he, raised_event]; exact List.mem_cons_self), rfl⟩
  · rw [frame.rest]; exact zns
  · rw [frame.rest]; exact fls

/-- The energy of the bank, and the flush that it lasts for, in steps of 256 MiB (R216). -/
def bankSteps (cap esr v : Nat) : ℤ :=
  let volts : ℚ := (v : ℚ) * 2 / 100
  let floor : ℚ := 12 + 125 / 10 * ((esr : ℚ) / 1000)
  let joules : ℚ := 1 / 2 * ((cap : ℚ) / 10000) * (volts ^ 2 - floor ^ 2)
  max 0 ⌊4 * (joules / (15 / 10) - 18) / (36 / 10)⌋

theorem dirtyMaxSteps_eq (cap esr v : Nat) : (bankSteps cap esr v).toNat = State.dirtyMaxSteps cap esr v := by
  obtain ⟨n, hn⟩ : ∃ n : ℤ, n = cap * (4 * (20 * v) * (20 * v) - (24000 + 25 * esr) * (24000 + 25 * esr)) := ⟨_, rfl⟩
  have steps : bankSteps cap esr v = max 0 (n / 108000000000 - 20) := by
    have exact_ : 4 * (1 / 2 * ((cap : ℚ) / 10000) * (((v : ℚ) * 2 / 100) ^ 2 - (12 + 125 / 10 * ((esr : ℚ) / 1000)) ^ 2) / (15 / 10) - 18) / (36 / 10) =
        (n : ℚ) / (108000000000 : ℕ) - (20 : ℕ) := by
      rw [hn]
      push_cast
      ring
    rw [bankSteps]
    rw [exact_, Int.floor_sub_natCast, Rat.floor_intCast_div_natCast]
    rfl
  rw [steps, State.dirtyMaxSteps]
  obtain ⟨x, hx⟩ : ∃ x : Nat, x = 4 * (20 * v) * (20 * v) := ⟨_, rfl⟩
  obtain ⟨y, hy⟩ : ∃ y : Nat, y = (24000 + 25 * esr) * (24000 + 25 * esr) := ⟨_, rfl⟩
  have nxy : n = (cap : ℤ) * (x - y) := by rw [hn, hx, hy]; push_cast; ring
  rw [← hx, ← hy]
  rcases Nat.le_total y x with le | le
  · have nat : n = ((cap * (x - y) : ℕ) : ℤ) := by rw [nxy]; push_cast [Nat.cast_sub le]; rfl
    omega
  · have neg : n ≤ 0 := by
      rw [nxy]
      exact Int.mul_nonpos_of_nonneg_of_nonpos (Int.natCast_nonneg _) (by omega)
    rw [Nat.sub_eq_zero_of_le le, Nat.mul_zero]
    omega

end Bank

end Sys2Proof.Proofs
end

section
/-! Settles O51: the power loss, its flush, the bands of the input and the bank (R215 to R222, R480, R507). -/

namespace Sys2Proof.Proofs

open Sys2Proof Sys2Proof.Machine

section Loss

variable {s : State}

theorem loss_goes {cause : InputCause} {P : State → Prop} (on : s.pwr.pstate ≠ .dark) (holds : P s.declareLoss) : Goes (.powerLossDeclared cause) s P := by
  refine ⟨s.declareLoss, ?_, holds⟩
  rw [show exec (.powerLossDeclared cause) s = execPowerLossDeclared cause s from rfl]
  unfold execPowerLossDeclared
  split
  · next dark => exact absurd dark on
  · cases cause <;> rfl

/-- R217: what runs is cut. -/
theorem cut_facts (s : State) : s.cut.pwr.pstate = .flushing 1 ∧ s.cut.plog = { s.plog with charger := false, measBusy := false } ∧
    s.cut.car.flights = [] ∧ s.cut.fcd.jobs = [] ∧ s.cut.modOk = false ∧ (∀ f ∈ s.cut.fan.outs, f.state = 0 ∧ f.cmdPct = 0) ∧
    (∀ d v o, (d, v) ∈ s.fls.dies → v.op = some o → isErase o.entry.kind = true → ∃ v' o', (d, v') ∈ s.cut.fls.dies ∧
      v'.op = some o' ∧ o'.entry = o.entry ∧ o'.suspended = true) ∧
    s.cut.zns = s.zns ∧ s.cut.nv = s.nv ∧ s.cut.sec = s.sec ∧ s.cut.hif = s.hif := by
  refine ⟨rfl, rfl, rfl, rfl, ?_, fun f mem => ?_, fun d v o mem op erases => ?_, rfl, rfl, rfl, rfl⟩
  · rw [State.modOk, show s.cut.pwr.pstate = .flushing 1 from rfl, Bool.and_false]
  · obtain ⟨f', -, rfl⟩ := List.mem_map.mp (show f ∈ s.fan.outs.map _ from mem)
    exact ⟨rfl, rfl⟩
  · refine ⟨_, { o with suspended := true }, List.mem_filter.mpr ⟨List.mem_map_of_mem mem, ?_⟩, ?_, rfl, rfl⟩
    · dsimp only
      rw [op]
      exact decide_eq_true fun idle => absurd (congrArg Die.op idle) (Option.some_ne_none _)
    · dsimp only
      rw [op]
      exact congrArg some (if_pos erases)

theorem declareLoss_asleep {x : SleepTarget} (light : x ≠ .off) (asleep : s.pwr.pstate = .asleep x) : s.declareLoss =
    { s with pwr := { s.pwr with pstate := .waking x 1, wakeAt := s.tim.now, lossPending := true } } := by
  rw [State.declareLoss, asleep]
  cases x with
  | off => exact absurd rfl light
  | sleep => rfl
  | deep => rfl

theorem declareLoss_waking {x : SleepTarget} {n : Nat} (early : n ≠ 5) (waking : s.pwr.pstate = .waking x n) : s.declareLoss =
    { s with pwr := { s.pwr with lossPending := true } } := by
  rw [State.declareLoss, waking]
  rcases n with _ | _ | _ | _ | _ | _ | n
  iterate 5 · rfl
  · exact absurd rfl early
  · rfl

theorem entering_lost {cause : InputCause} {x : SleepTarget} {n : Nat} (entering : s.pwr.pstate = .entering x n) :
    Goes (.powerLossDeclared cause) s (fun t => t.pwr.pstate = .flushing 1 ∧ t.plog.aborts = s.plog.aborts + 1 ∧ t.plog.abortCause = 2 ∧
      ∃ e ∈ t.hif.raised, e.code = 0x0C03) := by
  refine loss_goes (by rw [entering]; exact PState.noConfusion) ?_
  obtain ⟨-, why, -, aborts, -, told, -⟩ := abortEntry_facts s x n 2 0
  rw [State.declareLoss, entering]
  exact ⟨rfl, aborts, why, told⟩

end Loss

section Steps

variable {s : State} {n : Nat}

theorem flush_goes {P : State → Prop} (flushing : s.pwr.pstate = .flushing n) (holds : P (s.flushNext n)) : Goes .flushStep s P := by
  refine ⟨s.flushNext n, ?_, holds⟩
  rw [show exec .flushStep s = execFlushStep s from rfl, execFlushStep, flushing]

/-- R218: the steps of the flush. -/
theorem flush_steps (flushing : s.pwr.pstate = .flushing n) (first : 1 ≤ n) (early : n < 5) :
    Goes .flushStep s (fun t => t.pwr.pstate = .flushing (n + 1) ∧
      (s.programCount = 0 → n = 3 → t.jrn.tail = 0 ∧ (0 < s.jrn.tail → t.jrn.lastSeq = s.jrn.tailSeq) ∧ SameZones s t) ∧
      (n = 4 → t = { s with pwr := { s.pwr with pstate := .flushing 5 } })) := by
  refine flush_goes flushing ?_
  obtain rfl | rfl | rfl | rfl : n = 1 ∨ n = 2 ∨ n = 3 ∨ n = 4 := by omega
  · exact ⟨rfl, fun _ h => absurd h (by decide), fun h => absurd h (by decide)⟩
  · exact ⟨rfl, fun _ h => absurd h (by decide), fun h => absurd h (by decide)⟩
  · refine ⟨rfl, fun none _ => ?_, fun h => absurd h (by decide)⟩
    obtain ⟨tail, last, zones⟩ := journalFlush_facts s
    have runs : s.flushNext 3 = { s.programsDone.journalFlush with pwr := { s.programsDone.journalFlush.pwr with pstate := .flushing 4 } } := rfl
    rw [runs, programsDone_none none]
    exact ⟨tail, last, zones⟩
  · exact ⟨rfl, fun _ h => absurd h (by decide), fun _ => rfl⟩

theorem writeMarker_boot (s : State) (kind : Nat) : (s.writeMarker kind).boot = s.boot := by
  obtain ⟨aside, -⟩ := foldl_programNow (State.systemUnit 5 0 s.jrn.lastSeq s.now) (decide (kind = 2)) ([0, 5, 10, 15].filterMap s.systemIn) s
  exact congrArg Aside.boot aside

/-- R219: the last step writes the marker and leaves the module dark, or starts it again. -/
theorem flush_ends (flushing : s.pwr.pstate = .flushing 5) :
    Goes .flushStep s (fun t => (0 = 0 ∧ t.car.flights = [] ∧ t.kry.ctxs = [] ∧ t.zns.online = false ∧ t.hif.queues = []) ∧ t.plog.marker = 2 ∧
      t.boot.tripped = s.boot.tripped ∧
      (s.boot.inputBack = true → s.boot.tripped = false → t.pwr.pstate = .starting ∧ t.boot.cause = 1) ∧
      (s.boot.inputBack = false ∨ s.boot.tripped = true → t.pwr.pstate = .dark)) := by
  obtain ⟨p, hp⟩ : ∃ p, p = s.writeMarker 2 := ⟨_, rfl⟩
  have boot : p.boot = s.boot := by rw [hp]; exact writeMarker_boot s 2
  have marker : p.plog.marker = 2 := by rw [hp]; rfl
  obtain ⟨ctxs, -, -, marker', -, flights, online, queues, dark, tripped⟩ := powerOff_facts p
  have runs : s.flushNext 5 = if p.boot.inputBack && !p.boot.tripped then
      { p.powerOff with boot := { p.powerOff.boot with cause := 1 }, pwr := { p.powerOff.pwr with pstate := .starting }
                        lvl := { p.powerOff.lvl with clocks := 1 } } else p.powerOff := by rw [hp]; rfl
  refine flush_goes flushing ?_
  rw [runs, boot]
  by_cases again : s.boot.inputBack = true ∧ s.boot.tripped = false
  · obtain ⟨back, fine⟩ := again
    rw [back, fine]
    exact ⟨⟨rfl, flights, ctxs, online, queues⟩, marker'.trans marker, tripped.trans (by rw [boot, fine]), fun _ _ => ⟨rfl, rfl⟩,
      fun h => h.elim (fun h => absurd h (by decide)) (fun h => absurd h (by decide))⟩
  · have stays : (s.boot.inputBack && !s.boot.tripped) = false := by simpa using again
    rw [stays, if_neg Bool.false_ne_true]
    exact ⟨⟨rfl, flights, ctxs, online, queues⟩, marker'.trans marker, tripped.trans (by rw [boot]), fun h h' => absurd ⟨h, h'⟩ again, fun _ => dark⟩

/-- R220: a bank that is too low ends the flush without a marker. -/
theorem bank_stops (flushing : s.pwr.pstate = .flushing n) (may : n ≤ 5) :
    Goes .bankLowStop s (fun t => t.pwr.pstate = .dark ∧ (t.boot.step = 0 ∧ t.car.flights = [] ∧ t.kry.ctxs = [] ∧ t.zns.online = false ∧ t.hif.queues = []) ∧
      (s.fls.dies = [] → t.plog.marker = s.plog.marker)) := by
  obtain ⟨p, hp⟩ : ∃ p, p = (s.unqueue (fun q => isProgram q.kind)).programsDone := ⟨_, rfl⟩
  obtain ⟨ctxs, -, -, marker, step, flights, online, queues, dark, -⟩ := powerOff_facts p
  refine ⟨p.powerOff, ?_, dark, ⟨step, flights, ctxs, online, queues⟩, fun none => ?_⟩
  · rw [show exec .bankLowStop s = execBankLowStop s from rfl, execBankLowStop, flushing]
    dsimp only
    rw [if_pos may, hp]
  · have idle : (s.unqueue (fun q => isProgram q.kind)).programCount = 0 := by
      rw [State.programCount, State.unqueue, none]
      rfl
    rw [marker, hp, programsDone_none idle]
    rfl

theorem input_restored (flushing : s.pwr.pstate = .flushing n) : Goes .inputRestored s (fun t => t = { s with boot := { s.boot with inputBack := true } }) :=
  ⟨_, by rw [show exec .inputRestored s = execInputRestored s from rfl, execInputRestored, flushing], rfl⟩

end Steps

section Input

variable {s : State}

/-- R221, R222: the bands of the input and their events. -/
theorem input_changes {v : Nat} (run : s.pwr.pstate = .run) (most : v ≤ 3600) :
    Goes (.inputRangeChange v) s (fun t =>
      t.pwr = { s.pwr with vIn := v, underRange := decide (400 ≤ v ∧ v < 450), overRange := decide (3000 < v ∧ v ≤ 3150) } ∧
      (400 ≤ v → v < 450 → s.pwr.underRange = false → ∃ e, t.hif.raised = e :: s.hif.raised ∧ e.code = 0x0C0C ∧ e.payload = .fields [v]) ∧
      (3000 < v → v ≤ 3150 → s.pwr.overRange = false → ∃ e, t.hif.raised = e :: s.hif.raised ∧ e.code = 0x0C0D ∧ e.payload = .fields [v]) ∧
      (450 ≤ v → v ≤ 3000 → t = { s with pwr := t.pwr })) := by
  obtain ⟨under, hu⟩ : ∃ under, under = (decide (400 ≤ v) && decide (v < 450)) := ⟨_, rfl⟩
  obtain ⟨above, ha⟩ : ∃ above, above = (decide (3000 < v) && decide (v ≤ 3150)) := ⟨_, rfl⟩
  obtain ⟨a, hst⟩ : ∃ a : State, a = { s with pwr := { s.pwr with vIn := v, underRange := under, overRange := above } } := ⟨_, rfl⟩
  obtain ⟨b, hb⟩ : ∃ b, b = if under && !s.pwr.underRange then a.event 0x0C0C 2 srcStage 0 [(v : Int)] else a := ⟨_, rfl⟩
  obtain ⟨c, hc⟩ : ∃ c, c = if above && !s.pwr.overRange then b.event 0x0C0D 2 srcStage 0 [(v : Int)] else b := ⟨_, rfl⟩
  have step : exec (.inputRangeChange v) s = .next c := by
    rw [show exec (.inputRangeChange v) s = execInputRangeChange v s from rfl, execInputRangeChange, if_neg (Nat.not_lt.mpr most), run, hc, hb, hst, hu, ha]
    simp only [ne_eq, reduceCtorEq, not_false_eq_true, decide_true, Bool.and_true]
  have pwr : c.pwr = a.pwr := by
    have first : b.pwr = a.pwr := by
      rw [hb]; split
      · rw [(event_frame _ _ _ _ _ _).rest]
      · rfl
    rw [hc, ← first]; split
    · rw [(event_frame _ _ _ _ _ _).rest]
    · rfl
  have hif : a.hif = s.hif := by rw [hst]
  refine ⟨c, step, ?_, fun low high quiet => ?_, fun low high quiet => ?_, fun low high => ?_⟩
  · rw [pwr, hst, hu, ha, Bool.decide_and, Bool.decide_and]
  · have yes : under = true := by rw [hu, decide_eq_true low, decide_eq_true high]; rfl
    have no : above = false := by rw [ha, decide_eq_false (by omega)]; rfl
    have one : c = a.event 0x0C0C 2 srcStage 0 [(v : Int)] := by rw [hc, no, hb, yes, quiet]; rfl
    exact ⟨_, by rw [one, raised_event, hif], rfl, rfl⟩
  · have no : under = false := by rw [hu, decide_eq_false (show ¬ v < 450 by omega), Bool.and_false]
    have yes : above = true := by rw [ha, decide_eq_true low, decide_eq_true high]; rfl
    have one : c = a.event 0x0C0D 2 srcStage 0 [(v : Int)] := by rw [hc, hb, yes, no, quiet]; rfl
    exact ⟨_, by rw [one, raised_event, hif], rfl, rfl⟩
  · have no : under = false := by rw [hu, decide_eq_false (show ¬ v < 450 by omega), Bool.and_false]
    have no' : above = false := by rw [ha, decide_eq_false (show ¬ 3000 < v by omega)]; rfl
    have same : c = a := by rw [hc, no', hb, no]; rfl
    rw [same, hst]

/-- R216: a measurement of the bank puts its limit in force. -/
theorem bank_measured {cap esr : Nat} (awake : s.awake = true) (charger : s.plog.charger = true) (busy : s.plog.measBusy = true)
    (clean : s.dirtyList = []) (room : 20480 ≤ (s.landingFree * 24 - 2048) * 15 / 16) :
    let steps : Nat := min (min s.plog.dirtyCfg 80) (State.dirtyMaxSteps cap esr s.plog.vBank)
    Goes (.bankMeasurement cap esr) s (fun t => t.plog.bankCap = cap ∧ t.plog.bankEsr = esr ∧ t.plog.measBusy = false ∧
      t.plog.limitMib = (if steps < 4 then 0 else steps * 256) ∧ t.plog.singlePath = decide (steps < 4) ∧
      (∃ e ∈ t.hif.raised, e.code = 0x0601 ∧ e.payload = .fields [cap, esr, t.plog.limitMib]) ∧
      (steps < 4 → s.plog.singlePath = false → ∃ e ∈ t.hif.raised, e.code = 0x0602) ∧ t.zns = s.zns ∧ t.fls = s.fls) := by
  obtain ⟨steps, hsteps⟩ : ∃ steps, steps = min (min s.plog.dirtyCfg 80) (State.dirtyMaxSteps cap esr s.plog.vBank) := ⟨_, rfl⟩
  obtain ⟨a, ha⟩ : ∃ a : State, a = { s with plog := { s.plog with bankCap := cap, bankEsr := esr, measBusy := false } } := ⟨_, rfl⟩
  obtain ⟨mib, hmib⟩ : ∃ mib, mib = a.limitFor cap esr a.plog.vBank := ⟨_, rfl⟩
  have few : steps ≤ 80 := by rw [hsteps]; omega
  have limit : mib = if steps < 4 then 0 else steps * 256 := by
    have eq : mib = if min (steps * 256) ((s.landingFree * 24 - 2048) * 15 / 16) < 1024 then 0 else
        min (steps * 256) ((s.landingFree * 24 - 2048) * 15 / 16) := by rw [hmib, hsteps, ha]; rfl
    rw [eq, Nat.min_eq_left (by omega)]
    by_cases low : steps < 4
    · rw [if_pos low, if_pos (by omega)]
    · rw [if_neg low, if_neg (by omega)]
  have zero : mib = 0 ↔ steps < 4 := by
    rw [limit]; split
    · simpa
    · omega
  obtain ⟨b, hb⟩ : ∃ b, b = a.event 0x0601 1 srcBank 0 [(a.plog.bankCap : Int), a.plog.bankEsr, mib] := ⟨_, rfl⟩
  have run : exec (.bankMeasurement cap esr) s = arises (s.awake && s.plog.charger && s.plog.measBusy) "BANK_MEASUREMENT" (b.setLimit mib) := by
    rw [hb, hmib, ha]; rfl
  have frame : EventFrame a b := hb ▸ event_frame _ _ _ _ _ _
  have clean' : b.dirtyList = [] := (dirtyList_of_frame frame).trans (by rw [ha]; exact clean)
  obtain ⟨plog, told, ends, zns, fls⟩ := setLimit_facts (mib := mib) clean'
  have before : b.plog = a.plog ∧ b.zns = s.zns ∧ b.fls = s.fls := by rw [frame.rest, ha]; exact ⟨rfl, rfl, rfl⟩
  obtain ⟨plog', zns', fls'⟩ := before
  have fields : a.plog = { s.plog with bankCap := cap, bankEsr := esr, measBusy := false } := by rw [ha]
  have mem : eventOf a 0x0601 1 srcBank 0 (.fields [(a.plog.bankCap : Int), a.plog.bankEsr, mib]) ∈ b.hif.raised := by
    rw [hb, raised_event]; exact List.mem_cons_self
  rw [plog', fields] at plog
  dsimp only
  rw [← hsteps]
  refine goes_of_arises run (by rw [awake, charger, busy]; rfl) ?_
  rw [plog]
  refine ⟨rfl, rfl, rfl, limit, decide_eq_decide.mpr zero, ⟨_, told _ mem, rfl, ?_⟩, fun low pair => ends (zero.mpr low) ?_, zns.trans zns', fls.trans fls'⟩
  · rw [eventOf, fields]
  · rw [plog', fields]; exact pair

theorem bank_voltage {v : Nat} (run : s.pwr.pstate = .run) (unmeasured : s.plog.bankCap = 0) (fits : v < 4096) :
    Goes (.bankVoltageChange v) s (fun t => t = { s with plog := { s.plog with vBank := v, charged := decide (2700 ≤ v) } }) := by
  refine ⟨{ s with plog := { s.plog with vBank := v, charged := decide (2700 ≤ v) } }, ?_, rfl⟩
  rw [show exec (.bankVoltageChange v) s = execBankVoltageChange v s from rfl, execBankVoltageChange, run, Nat.mod_eq_of_lt fits]
  dsimp only
  rw [State.relimit]
  dsimp only
  rw [if_pos unmeasured]

theorem measurement_starts (awake : s.awake = true) :
    (s.plog.measBusy = true → Goes .measStart s (fun t => t = s)) ∧
    (s.plog.measBusy = false → Goes .measStart s (fun t => t = { s with plog := { s.plog with measBusy := true, measuredAt := s.tim.now } })) :=
  ⟨fun busy => goes_of_arises rfl awake (by rw [State.startMeasurement, if_pos busy]),
    fun free => goes_of_arises rfl awake (by rw [State.startMeasurement, if_neg (by rw [free]; decide)]; rfl)⟩

end Input

/-- Settles O51 (R215 to R222, R480, R507). -/
theorem powerLossFlushesAndTheBankSetsTheLimit : Obligations.PowerLossFlushesAndTheBankSetsTheLimit := fun s =>
  ⟨fun cause on => by
      obtain run | idle := on
      · exact loss_goes (by rw [run]; exact PState.noConfusion) (by rw [State.declareLoss, run]; exact cut_facts s)
      · exact loss_goes (by rw [idle]; exact PState.noConfusion) (by rw [State.declareLoss, idle]; exact cut_facts s),
    fun cause n flushing => loss_goes (by rw [flushing]; exact PState.noConfusion) (by rw [State.declareLoss, flushing]),
    fun cause starting => loss_goes (by rw [starting]; exact PState.noConfusion) (by
      obtain ⟨ctxs, part, copies, marker, step, flights, online, queues, dark, -⟩ := powerOff_facts s
      rw [State.declareLoss, starting]
      exact ⟨dark, ⟨step, flights, ctxs, online, queues⟩, part, copies, marker⟩),
    fun cause x light asleep => loss_goes (by rw [asleep]; exact PState.noConfusion) (declareLoss_asleep light asleep),
    fun cause x n early waking => loss_goes (by rw [waking]; exact PState.noConfusion) (declareLoss_waking early waking),
    fun _ _ _ entering => entering_lost entering,
    fun _ flushing => ⟨flush_steps flushing, fun five => by subst five; exact flush_ends flushing, bank_stops flushing, input_restored flushing⟩,
    fun _ run most => input_changes run most,
    fun v high => by rw [show exec (.inputRangeChange v) s = execInputRangeChange v s from rfl, execInputRangeChange, if_pos high],
    measurement_starts,
    fun cap esr awake charger busy clean room => by
      have measured := bank_measured (cap := cap) (esr := esr) awake charger busy clean room
      rw [← dirtyMaxSteps_eq] at measured
      exact measured,
    fun _ run unmeasured fits => bank_voltage run unmeasured fits⟩

end Sys2Proof.Proofs
end

section
/-! SUPPORT: what a reading of the temperature sensors does to the level, the window and the fans (R499 to R507). -/

namespace Sys2Proof.Proofs

open Sys2Proof Sys2Proof.Machine

section Quiet

variable {s t u : State}

/-- What no warning and no threshold changes: everything that an event leaves, and the events. -/
structure QuietFrame (s t : State) : Prop where
  frame : EventFrame s t
  raised : t.hif.raised = s.hif.raised

theorem QuietFrame.refl (s : State) : QuietFrame s s := ⟨.refl s, rfl⟩

theorem QuietFrame.trans (x : QuietFrame s t) (y : QuietFrame t u) : QuietFrame s u := ⟨x.frame.trans y.frame, y.raised.trans x.raised⟩

theorem raised_done (s : State) (h : HostCmd) (dw : BitVec 32) : (s.done h dw).hif.raised = s.hif.raised := (complete_host s h .success dw 0).2.1

theorem raised_setPort (s : State) (p : Nat) (v : Port) : (s.setPort p v).hif.raised = s.hif.raised := by
  rw [State.setPort]
  split <;> rfl

theorem raised_portAsync (s : State) (p bit type info page : Nat) : (s.portAsync p bit type info page).hif.raised = s.hif.raised := by
  unfold State.portAsync
  dsimp only
  split
  · split
    · rw [raised_done, raised_setPort]
    · split
      · rfl
      · rw [raised_setPort]
  · rfl

theorem raised_compAsync (s : State) (c bit type info page : Nat) : (s.compAsync c bit type info page).hif.raised = s.hif.raised := by
  unfold State.compAsync
  split
  · rfl
  · split
    · split
      · rw [raised_done]
      · split <;> rfl
    · rfl

/-- A warning is told to the host, not posted as an event (R501). -/
theorem quiet_warning (s : State) (bit info : Nat) : QuietFrame s (s.warning bit info) := by
  have all : ∀ (l : List (Nat × Option Features)) (t : State), (l.foldl (fun t e => t.compAsync e.1 bit 1 info 2) t).hif.raised = t.hif.raised := fun l => by
    induction l with
    | nil => exact fun _ => rfl
    | cons e l ih => exact fun t => (ih _).trans (raised_compAsync t e.1 bit 1 info 2)
  exact ⟨warning_frame s bit info, (all _ _).trans ((raised_portAsync _ 1 bit 1 info 2).trans (raised_portAsync s 0 bit 1 info 2))⟩

theorem quiet_withThresholds (s : State) (f : State → State) : QuietFrame (f s) (s.withThresholds f) := by
  unfold State.withThresholds
  dsimp only
  split
  · exact quiet_warning _ _ _
  · exact .refl _

/-- A module that runs is not woken by a temperature (R482). -/
theorem wakeFired_warm (run : s.pwr.pstate = .run) : s.wakeFired 0x40 = some s := by
  rw [wakeFired_run (.inl run)]
  rfl

end Quiet

section Sensor

variable {s : State} {i x : Nat}

theorem median2_same (l : List Nat) (eight : l.length = 8) (same : ∀ y ∈ l, y = x) : State.median2 l = 2 * x := by
  have eq : l = List.replicate 8 x := List.eq_replicate_iff.mpr ⟨eight, same⟩
  rw [eq]
  simp [State.median2, List.replicate, List.filter]
  omega

/-- The readings around a sensor where it is the only one read. -/
theorem neighbours_alone (ok : Bool) (f : Nat → Nat) : ∀ y ∈ (List.range 8).filterMap (fun k => State.sensorTemp [⟨i, x, ok⟩] (f k)), y = x := fun y mem => by
  obtain ⟨k, -, found⟩ := List.mem_filterMap.mp mem
  rw [State.sensorTemp] at found
  simp only [List.find?] at found
  split at found
  · exact (Option.some.inj found).symm
  · cases found

/-- R500: a lone reading strays from no neighbour; one out of range takes its sensor out. -/
theorem judgeSensor_alone (ok : Bool) (serves : i ∉ s.thm.excluded) : ∃ m, State.judgeSensor [⟨i, x, ok⟩] s ⟨i, x, ok⟩ =
    if ok then { s with thm := { s.thm with strayRuns := put 0 s.thm.strayRuns i 0 } }
    else ({ s with thm := { s.thm with strayRuns := put 0 s.thm.strayRuns i 0 } } : State).excludeSensor i x m := by
  obtain ⟨ns, hns⟩ : ∃ ns, ns = (List.range 8).filterMap (fun k => State.sensorTemp [⟨i, x, ok⟩] (Config.neighbour i k % 128)) := ⟨_, rfl⟩
  have near : (decide (ns.length = 8) && (decide (2 * x + 30 < State.median2 ns) || decide (State.median2 ns + 30 < 2 * x))) = false := by
    by_cases eight : ns.length = 8
    · rw [median2_same ns eight (by rw [hns]; exact neighbours_alone ok _)]
      simp
    · rw [decide_eq_false eight, Bool.false_and]
  refine ⟨State.median2 ns / 2, ?_⟩
  unfold State.judgeSensor
  dsimp only
  rw [if_neg (by rw [List.contains_iff_mem]; exact serves), ← hns, near]
  cases ok
  · rfl
  · rfl

theorem hottest_alone (ok : Bool) (serves : i ∉ s.thm.excluded) : s.hottest [⟨i, x, ok⟩] = x := by
  have out : s.thm.excluded.contains i = false := by rw [List.contains_eq_mem]; exact decide_eq_false serves
  unfold State.hottest
  simp only [List.filter, out, Bool.not_false, List.map, List.isEmpty_cons, Bool.false_eq_true, if_false, List.foldl]
  exact Nat.zero_max x

theorem hottest_excluded (ok : Bool) (out : i ∈ s.thm.excluded) : s.hottest [⟨i, x, ok⟩] = s.thm.dieTemp := by
  have out' : s.thm.excluded.contains i = true := List.contains_iff_mem.mpr out
  unfold State.hottest
  simp only [List.filter, out', Bool.not_true, List.map, List.isEmpty_nil, if_true]

end Sensor

section Judge

variable {s : State} {k temp own stamp : Nat}

/-- How many readings in a row have reached a limit, up to 2 (R503). -/
def runOf (n limit own : Nat) : Nat := if limit + 40 ≤ own then min 2 (n + 1) else 0

/-- The thermal state with a reading taken in, before its level is judged. -/
def judged (s : State) (k temp own stamp : Nat) : State :=
  let rs := ((stamp, k, temp) :: s.thm.readings).filter (fun r => decide (stamp ≤ r.1 + max (2 * s.graceNs) 1000000000))
  { s with thm := { s.thm with
    readings := rs
    critRuns := State.setRun s.thm.critRuns k (runOf (State.getRun s.thm.critRuns k) (s.limits k).critical own)
    tripRuns := State.setRun s.thm.tripRuns k (runOf (State.getRun s.thm.tripRuns k) (s.limits k).trip own)
    slope := if s.thm.source = k then slopeUnits (leastSquares (slopePoints rs k s.now)) else s.thm.slope } }

/-- The state once a reading at or above Notice has been told. -/
def noticed (s : State) (k temp stamp : Nat) (j : State) : State :=
  if temp < (s.limits k).notice + 40 then j else if j.thm.level = 0 then j.enterNotice k temp stamp else (j.wakeFired 0x40).getD j

theorem judge_eq : s.judge k temp own stamp =
    if runOf (State.getRun s.thm.tripRuns k) (s.limits k).trip own = 2 then (judged s k temp own stamp).trip k temp false
    else
      let t := noticed s k temp stamp (judged s k temp own stamp)
      if runOf (State.getRun s.thm.critRuns k) (s.limits k).critical own = 2 ∧ t.thm.level < 3 ∧ t.awake then t.enterCritical k temp
      else if t.thm.level = 3 ∧ t.thm.source = k ∧ temp < (s.limits k).critical + 40 then t.setLevel t.calmLevel k temp
      else t := rfl

theorem runOf_below {n limit : Nat} (below : own < limit + 40) : runOf n limit own = 0 := if_neg (by omega)

theorem runOf_second {n limit : Nat} (reached : limit + 40 ≤ own) (again : 1 ≤ n) : runOf n limit own = 2 := by
  rw [runOf, if_pos reached]; omega

theorem runOf_first {limit : Nat} : runOf 0 limit own ≠ 2 := by
  rw [runOf]; split <;> omega

/-- What a change of the level leaves: the thermal state otherwise, and what an event leaves. -/
theorem setLevel_facts (s : State) (l k temp : Nat) (moves : s.thm.level ≠ l) :
    EventFrame { s with thm := { s.thm with level := l, source := k } } (s.setLevel l k temp) ∧
    (s.setLevel l k temp).hif.raised = eventOf s 0x0D00 2 srcThermal 0 (.fields [(s.thm.level : Int), l, k, (temp : Int) - 40]) :: s.hif.raised := by
  rw [State.setLevel, if_neg moves]
  exact ⟨event_frame _ _ _ _ _ _, raised_event _ _ _ _ _ _⟩

/-- R507: every output that turns goes to full speed. -/
def fansAtFull (s : State) : List FanOut :=
  if s.part.fan then s.fan.outs.map (fun (f : FanOut) => if f.state = 6 then { f with cmdPct := 100 } else f) else s.fan.outs

theorem fansFull_eq (s : State) : s.fansFull = { s with fan := { s.fan with outs := fansAtFull s } } := by
  unfold State.fansFull fansAtFull
  split <;> rfl

theorem fansAtFull_turn (has : s.part.fan = true) : ∀ f ∈ fansAtFull s, f.state = 6 → f.cmdPct = 100 := fun f mem turns => by
  rw [fansAtFull, if_pos has] at mem
  obtain ⟨g, -, rfl⟩ := List.mem_map.mp mem
  by_cases six : g.state = 6
  · rw [if_pos six]
  · rw [if_neg six] at turns
    exact absurd turns six

theorem eventFrame_withOuts {s t : State} (h : EventFrame s t) (outs : List FanOut) :
    EventFrame { s with fan := { s.fan with outs := outs } } { t with fan := { t.fan with outs := outs } } := by
  obtain ⟨rest, gone, kept⟩ := h
  refine ⟨?_, gone, kept⟩
  have fan : t.fan = s.fan := by rw [rest]
  rw [fan]
  exact congrArg (fun z : State => ({ z with fan := { s.fan with outs := outs } } : State)) rest

/-- The state whose fans have gone to full speed at a level (R502, R504, R507). -/
def atLevel (s : State) (l k : Nat) (w : Option Nat) : State :=
  { s with thm := { s.thm with windowAt := w, level := l, source := k }, fan := { s.fan with outs := fansAtFull s } }

theorem setLevel_full (s : State) (l k temp : Nat) (w : Option Nat) (moves : s.thm.level ≠ l) :
    EventFrame (atLevel s l k w) (({ s with thm := { s.thm with windowAt := w } } : State).setLevel l k temp).fansFull ∧
    (({ s with thm := { s.thm with windowAt := w } } : State).setLevel l k temp).fansFull.hif.raised =
      eventOf s 0x0D00 2 srcThermal 0 (.fields [(s.thm.level : Int), l, k, (temp : Int) - 40]) :: s.hif.raised := by
  obtain ⟨a, ha⟩ : ∃ a : State, a = { s with thm := { s.thm with windowAt := w } } := ⟨_, rfl⟩
  have moves' : a.thm.level ≠ l := by rw [ha]; exact moves
  obtain ⟨frame, raised⟩ := setLevel_facts a l k temp moves'
  rw [← ha]
  generalize a.setLevel l k temp = b at frame raised ⊢
  have outs : fansAtFull b = fansAtFull s := by rw [fansAtFull, fansAtFull, frame.rest, ha]
  rw [fansFull_eq, outs]
  refine ⟨?_, ?_⟩
  · have start : atLevel s l k w = { ({ a with thm := { a.thm with level := l, source := k } } : State) with fan := { a.fan with outs := fansAtFull s } } := by
      rw [ha]; rfl
    rw [start]
    exact eventFrame_withOuts frame (fansAtFull s)
  · exact raised.trans (by rw [ha]; rfl)

/-- The entry into Notice (R502): the level, the window, the fans, and what else stays. -/
theorem enterNotice_facts (run : s.pwr.pstate = .run) (zero : s.thm.level = 0) :
    EventFrame (atLevel s 1 k (some stamp)) (s.enterNotice k temp stamp) ∧
    (s.enterNotice k temp stamp).hif.raised = eventOf s 0x0D00 2 srcThermal 0 (.fields [0, 1, (k : Int), (temp : Int) - 40]) :: s.hif.raised := by
  obtain ⟨a, ha⟩ : ∃ a : State, a = { s with thm := { s.thm with windowAt := some stamp } } := ⟨_, rfl⟩
  have moves : a.thm.level ≠ 1 := by rw [ha]; exact fun h => absurd (zero.symm.trans h) (by decide)
  obtain ⟨frame, raised⟩ := setLevel_facts a 1 k temp moves
  have quiet := quiet_warning (a.setLevel 1 k temp) 1 1
  obtain ⟨u, hu⟩ : ∃ u, u = (a.setLevel 1 k temp).warning 1 1 := ⟨_, rfl⟩
  rw [← hu] at quiet
  have whole := frame.trans quiet.frame
  have outs : fansAtFull u = fansAtFull s := by rw [fansAtFull, fansAtFull, whole.rest, ha]
  have warm : u.fansFull.pwr.pstate = .run := by rw [fansFull_eq, whole.rest, ha]; exact run
  have enters : s.enterNotice k temp stamp = match u.fansFull.wakeFired 0x40 with
    | some t => t
    | none => u.fansFull := by rw [hu, ha]; rfl
  have start : atLevel s 1 k (some stamp) = { ({ a with thm := { a.thm with level := 1, source := k } } : State) with fan := { a.fan with outs := fansAtFull s } } := by
    rw [ha]; rfl
  rw [enters, wakeFired_warm warm, fansFull_eq, outs, start]
  refine ⟨eventFrame_withOuts whole _, ?_⟩
  show u.hif.raised = _
  rw [quiet.raised, raised, ha]
  dsimp only
  rw [zero]
  rfl

/-- The entry into Critical of a module that is not mounted (R504). -/
theorem enterCritical_facts (unmounted : s.mounted = false) (low : s.thm.level < 3) : ∃ w : Option Nat,
    EventFrame (atLevel s 3 k w) (s.enterCritical k temp) ∧ ∃ e, e.code = 0x0D00 ∧ (s.enterCritical k temp).hif.raised = e :: s.hif.raised := by
  obtain ⟨w, hw⟩ : ∃ w : Option Nat, w = some (s.thm.windowAt.getD s.now) := ⟨_, rfl⟩
  obtain ⟨frame, raised⟩ := setLevel_full s 3 k temp w (Nat.ne_of_lt low)
  obtain ⟨b, hb⟩ : ∃ b, b = (({ s with thm := { s.thm with windowAt := w } } : State).setLevel 3 k temp).fansFull := ⟨_, rfl⟩
  rw [← hb] at frame raised
  have enters : s.enterCritical k temp = if s.thm.level = 0 then b.warning 1 1 else b := by
    rw [State.enterCritical]
    dsimp only
    rw [← hw, ← hb, unmounted]
    rfl
  have quiet : QuietFrame b (s.enterCritical k temp) := by
    rw [enters]; split
    · exact quiet_warning _ _ _
    · exact .refl _
  exact ⟨w, frame.trans quiet.frame, _, rfl, quiet.raised.trans raised⟩

end Judge

end Sys2Proof.Proofs
end

section
/-! SUPPORT: the readings of the die, the flash and the board (R499 to R507). -/

namespace Sys2Proof.Proofs

open Sys2Proof Sys2Proof.Machine

section Readings

variable {s t : State} {i x stamp : Nat}

theorem sensorsRead_of_run (run : s.pwr.pstate = .run) : s.sensorsRead = true := by rw [State.sensorsRead, run]

/-- The state in which a reading has been taken in and is judged. -/
structure Taken (s u : State) (thm : Thermal) : Prop where
  thm : u.thm = thm
  pwr : u.pwr = s.pwr
  part : u.part = s.part
  mnt : u.mnt = s.mnt
  zns : u.zns = s.zns
  boot : u.boot = s.boot

theorem taken_of_quiet {u v : State} {thm : Thermal} (h : Taken s u thm) (q : EventFrame u v) : Taken s v thm := by
  obtain ⟨thm', pwr, part, mnt, zns, boot⟩ := h
  refine ⟨?_, ?_, ?_, ?_, ?_, ?_⟩ <;> rw [q.rest] <;> assumption

/-- What follows once a reading has been judged: too few sensors are left (R500). -/
def sensorsLeft (t : State) (temp : Nat) : State :=
  if 64 < t.thm.excluded.length ∧ t.thm.level < 3 ∧ t.awake then t.enterCritical 2 temp else t

theorem sensorsLeft_enough (enough : t.thm.excluded.length ≤ 63) (temp : Nat) : sensorsLeft t temp = t :=
  if_neg fun h => by omega

/-- A reading in range of a sensor in service. -/
theorem reading_taken (run : s.pwr.pstate = .run) (serves : i ∉ s.thm.excluded) : ∃ u : State,
    exec (.dieSensorReading stamp [⟨i, x, true⟩]) s = .next (sensorsLeft (u.judge 0 x x stamp) x) ∧
    Taken s u { s.thm with strayRuns := put 0 s.thm.strayRuns i 0, dieTemp := x } ∧ u.hif.raised = s.hif.raised := by
  obtain ⟨v, hv⟩ : ∃ v, v = (s.startClock 6).advanceTo stamp := ⟨_, rfl⟩
  have thm : v.thm = s.thm := by rw [hv]; rfl
  obtain ⟨m, judged⟩ := judgeSensor_alone (s := v) (i := i) (x := x) true (by rw [thm]; exact serves)
  obtain ⟨w, hw⟩ : ∃ w : State, w = { v with thm := { v.thm with strayRuns := put 0 v.thm.strayRuns i 0 } } := ⟨_, rfl⟩
  rw [if_pos rfl, ← hw] at judged
  have hot : w.hottest [⟨i, x, true⟩] = x := hottest_alone true (by rw [hw, thm]; exact serves)
  obtain ⟨u, hu⟩ : ∃ u, u = w.withThresholds (fun (z : State) => { z with thm := { z.thm with dieTemp := x } }) := ⟨_, rfl⟩
  have quiet : QuietFrame { w with thm := { w.thm with dieTemp := x } } u := by
    rw [hu]; exact quiet_withThresholds w (fun (z : State) => { z with thm := { z.thm with dieTemp := x } })
  refine ⟨u, ?_, taken_of_quiet ⟨?_, ?_, ?_, ?_, ?_, ?_⟩ quiet.frame, quiet.raised.trans (by rw [hw, hv]; rfl)⟩
  · have does : (s.startClock 6).readDie stamp [⟨i, x, true⟩] = sensorsLeft (u.judge 0 x x stamp) x := by
      rw [State.readDie, List.foldl_cons, List.foldl_nil, ← hv, judged]
      dsimp only
      rw [hot, ← hu]
      rfl
    rw [show exec (.dieSensorReading stamp [⟨i, x, true⟩]) s = execDieSensorReading stamp [⟨i, x, true⟩] s from rfl, execDieSensorReading,
      sensorsRead_of_run run, does]
    rfl
  · dsimp only
    rw [hw]
    dsimp only
    rw [thm]
  all_goals rw [hw, hv]; rfl

/-- A reading out of range takes its sensor out. -/
theorem reading_excludes (run : s.pwr.pstate = .run) (serves : i ∉ s.thm.excluded) : ∃ u : State,
    exec (.dieSensorReading stamp [⟨i, x, false⟩]) s = .next (sensorsLeft (u.judge 0 s.thm.dieTemp s.thm.dieTemp stamp) s.thm.dieTemp) ∧
    Taken s u { s.thm with strayRuns := put 0 s.thm.strayRuns i 0, excluded := i :: s.thm.excluded } ∧
    ∃ e, u.hif.raised = e :: s.hif.raised ∧ e.code = 0x0D04 := by
  obtain ⟨v, hv⟩ : ∃ v, v = (s.startClock 6).advanceTo stamp := ⟨_, rfl⟩
  have thm : v.thm = s.thm := by rw [hv]; rfl
  obtain ⟨m, judged⟩ := judgeSensor_alone (s := v) (i := i) (x := x) false (by rw [thm]; exact serves)
  rw [if_neg Bool.false_ne_true] at judged
  obtain ⟨a, ha⟩ : ∃ a : State, a = { v with thm := { v.thm with strayRuns := put 0 v.thm.strayRuns i 0, excluded := i :: v.thm.excluded } } := ⟨_, rfl⟩
  obtain ⟨w, hw⟩ : ∃ w, w = a.event 0x0D04 2 srcThermal 0 [(i : Int), (x : Int) - 40, (m : Int) - 40] := ⟨_, rfl⟩
  have out : ({ v with thm := { v.thm with strayRuns := put 0 v.thm.strayRuns i 0 } } : State).excludeSensor i x m = w := by rw [hw, ha]; rfl
  rw [out] at judged
  have frame : EventFrame a w := hw ▸ event_frame _ _ _ _ _ _
  have thm' : a.thm = { s.thm with strayRuns := put 0 s.thm.strayRuns i 0, excluded := i :: s.thm.excluded } := by rw [ha, thm]
  have wthm : w.thm = a.thm := by rw [frame.rest]
  have hot : w.hottest [⟨i, x, false⟩] = s.thm.dieTemp := by
    rw [hottest_excluded false (by rw [wthm, thm']; exact List.mem_cons_self), wthm, thm']
  obtain ⟨u, hu⟩ : ∃ u, u = w.withThresholds (fun (z : State) => { z with thm := { z.thm with dieTemp := s.thm.dieTemp } }) := ⟨_, rfl⟩
  have quiet : QuietFrame { w with thm := { w.thm with dieTemp := s.thm.dieTemp } } u := by
    rw [hu]; exact quiet_withThresholds w (fun (z : State) => { z with thm := { z.thm with dieTemp := s.thm.dieTemp } })
  have told : w.hif.raised = eventOf a 0x0D04 2 srcThermal 0 (.fields [(i : Int), (x : Int) - 40, (m : Int) - 40]) :: s.hif.raised := by
    rw [hw, raised_event, ha, hv]; rfl
  refine ⟨u, ?_, taken_of_quiet ⟨?_, ?_, ?_, ?_, ?_, ?_⟩ quiet.frame, _, quiet.raised.trans told, rfl⟩
  · have does : (s.startClock 6).readDie stamp [⟨i, x, false⟩] = sensorsLeft (u.judge 0 s.thm.dieTemp s.thm.dieTemp stamp) s.thm.dieTemp := by
      rw [State.readDie, List.foldl_cons, List.foldl_nil, ← hv, judged]
      dsimp only
      rw [hot, ← hu]
      rfl
    rw [show exec (.dieSensorReading stamp [⟨i, x, false⟩]) s = execDieSensorReading stamp [⟨i, x, false⟩] s from rfl, execDieSensorReading,
      sensorsRead_of_run run, does]
    rfl
  · dsimp only
    rw [wthm, thm']
  all_goals rw [show ∀ z : Thermal, ({ w with thm := z } : State) = { w with thm := z } from fun _ => rfl, frame.rest, ha, hv]; rfl

end Readings

section Levels

variable {s : State} {i x stamp : Nat}

/-- R501: a reading below every limit changes no level. -/
theorem reading_calm (run : s.pwr.pstate = .run) (serves : i ∉ s.thm.excluded) (enough : s.thm.excluded.length ≤ 63) (zero : s.thm.level = 0)
    (notice : x < s.thm.die.notice + 40) (critical : x < s.thm.die.critical + 40) (trip : x < s.thm.die.trip + 40) :
    Goes (.dieSensorReading stamp [⟨i, x, true⟩]) s (fun t => t.thm.dieTemp = x ∧ t.thm.level = 0 ∧ t.thm.step = s.thm.step ∧ t.thm.critRuns.1 = 0 ∧
      t.thm.tripRuns.1 = 0 ∧ t.thm.excluded = s.thm.excluded ∧ t.hif.raised = s.hif.raised ∧ t.zns = s.zns) := by
  obtain ⟨u, runs, taken, raised⟩ := reading_taken (s := s) (i := i) (x := x) (stamp := stamp) run serves
  have limits : u.limits 0 = s.thm.die := by rw [State.limits, if_neg (by decide), taken.thm]
  have same : u.judge 0 x x stamp = judged u 0 x x stamp := by
    rw [judge_eq, limits, runOf_below trip, runOf_below critical, if_neg (by decide)]
    dsimp only
    rw [noticed, limits, if_pos notice, if_neg (by omega), if_neg]
    rintro ⟨three, -⟩
    have level : (judged u 0 x x stamp).thm.level = 0 := by show u.thm.level = 0; rw [taken.thm]; exact zero
    omega
  have fields : (judged u 0 x x stamp).thm.dieTemp = x ∧ (judged u 0 x x stamp).thm.level = 0 ∧ (judged u 0 x x stamp).thm.step = s.thm.step ∧
      (judged u 0 x x stamp).thm.critRuns.1 = 0 ∧ (judged u 0 x x stamp).thm.tripRuns.1 = 0 ∧
      (judged u 0 x x stamp).thm.excluded = s.thm.excluded := by
    unfold judged
    dsimp only
    rw [limits, runOf_below trip, runOf_below critical, taken.thm]
    exact ⟨rfl, zero, rfl, rfl, rfl, rfl⟩
  obtain ⟨die, level, step, crit, trips, excluded⟩ := fields
  refine ⟨_, runs, ?_⟩
  rw [same, sensorsLeft_enough (by rw [excluded]; exact enough)]
  exact ⟨die, level, step, crit, trips, excluded, raised, taken.zns⟩

/-- R502: a reading at Notice. -/
theorem reading_notice (run : s.pwr.pstate = .run) (serves : i ∉ s.thm.excluded) (enough : s.thm.excluded.length ≤ 63) (zero : s.thm.level = 0)
    (notice : s.thm.die.notice + 40 ≤ x) (critical : x < s.thm.die.critical + 40) (trip : x < s.thm.die.trip + 40) :
    Goes (.dieSensorReading stamp [⟨i, x, true⟩]) s (fun t => t.thm.dieTemp = x ∧ t.thm.level = 1 ∧ t.thm.source = 0 ∧
      t.thm.windowAt = some stamp ∧ t.thm.step = s.thm.step ∧
      (∃ e ∈ t.hif.raised, e.code = 0x0D00 ∧ e.payload = .fields [0, 1, 0, (x : Int) - 40]) ∧
      (s.part.fan = true → ∀ f ∈ t.fan.outs, f.state = 6 → f.cmdPct = 100) ∧ t.zns = s.zns) := by
  obtain ⟨u, runs, taken, -⟩ := reading_taken (s := s) (i := i) (x := x) (stamp := stamp) run serves
  have limits : u.limits 0 = s.thm.die := by rw [State.limits, if_neg (by decide), taken.thm]
  obtain ⟨j, hj⟩ : ∃ j, j = judged u 0 x x stamp := ⟨_, rfl⟩
  have fields : j.thm.dieTemp = x ∧ j.thm.level = 0 ∧ j.thm.step = s.thm.step ∧ j.thm.excluded = s.thm.excluded ∧ j.zns = u.zns ∧
      j.part = u.part ∧ j.pwr = u.pwr := by
    rw [hj]
    unfold judged
    dsimp only
    rw [taken.thm]
    exact ⟨rfl, zero, rfl, rfl, rfl, rfl, rfl⟩
  obtain ⟨die, level, step, excluded, zns, part, pwr⟩ := fields
  obtain ⟨frame, told⟩ := enterNotice_facts (k := 0) (temp := x) (stamp := stamp) (by rw [pwr, taken.pwr]; exact run) level
  obtain ⟨t, ht⟩ : ∃ t, t = j.enterNotice 0 x stamp := ⟨_, rfl⟩
  rw [← ht] at frame told
  have thm : t.thm = { j.thm with windowAt := some stamp, level := 1, source := 0 } := by rw [frame.rest]; rfl
  have same : u.judge 0 x x stamp = t := by
    rw [judge_eq, limits, runOf_below trip, runOf_below critical, if_neg (by decide)]
    dsimp only
    rw [noticed, limits, ← hj, if_neg (Nat.not_lt.mpr notice), if_pos level, ← ht, if_neg (fun h => absurd h.1 (by decide)), if_neg]
    rintro ⟨three, -⟩
    rw [thm] at three
    exact absurd three (show ¬ (1 = 3) by decide)
  refine ⟨_, runs, ?_⟩
  rw [same, sensorsLeft_enough (by rw [thm]; exact excluded ▸ enough)]
  beta_reduce
  rw [thm]
  refine ⟨die, rfl, rfl, rfl, step, ⟨_, told ▸ List.mem_cons_self, rfl, rfl⟩, fun has => ?_, ?_⟩
  · have outs : t.fan.outs = fansAtFull j := by rw [frame.rest]; rfl
    rw [outs]
    exact fansAtFull_turn (by rw [part, taken.part]; exact has)
  · have same' : t.zns = j.zns := by rw [frame.rest]; rfl
    rw [same', zns, taken.zns]

/-- R504: a second reading at Critical, of a module that is not mounted. -/
theorem reading_critical (run : s.pwr.pstate = .run) (serves : i ∉ s.thm.excluded) (enough : s.thm.excluded.length ≤ 63) (low : s.thm.level < 3)
    (notice : s.thm.die.notice + 40 ≤ x) (critical : s.thm.die.critical + 40 ≤ x) (trip : x < s.thm.die.trip + 40)
    (again : 1 ≤ s.thm.critRuns.1) (unmounted : s.mounted = false) :
    Goes (.dieSensorReading stamp [⟨i, x, true⟩]) s (fun t => t.thm.dieTemp = x ∧ t.thm.level = 3 ∧ t.thm.source = 0 ∧
      (∃ e ∈ t.hif.raised, e.code = 0x0D00) ∧ (s.part.fan = true → ∀ f ∈ t.fan.outs, f.state = 6 → f.cmdPct = 100) ∧
      t.zns = s.zns ∧ t.mnt = s.mnt) := by
  obtain ⟨u, runs, taken, -⟩ := reading_taken (s := s) (i := i) (x := x) (stamp := stamp) run serves
  have limits : u.limits 0 = s.thm.die := by rw [State.limits, if_neg (by decide), taken.thm]
  obtain ⟨j, hj⟩ : ∃ j, j = judged u 0 x x stamp := ⟨_, rfl⟩
  have fields : j.thm.dieTemp = x ∧ j.thm.level = s.thm.level ∧ j.thm.excluded = s.thm.excluded ∧ j.zns = u.zns ∧
      j.part = u.part ∧ j.pwr = u.pwr ∧ j.mnt = u.mnt := by
    rw [hj]
    unfold judged
    dsimp only
    rw [taken.thm]
    exact ⟨rfl, rfl, rfl, rfl, rfl, rfl, rfl⟩
  obtain ⟨die, level, excluded, zns, part, pwr, mnt⟩ := fields
  have warm : j.pwr.pstate = .run := by rw [pwr, taken.pwr]; exact run
  obtain ⟨t, ht⟩ : ∃ t, t = noticed u 0 x stamp j := ⟨_, rfl⟩
  have told : t.thm.dieTemp = x ∧ t.thm.level < 3 ∧ t.thm.excluded = s.thm.excluded ∧ t.zns = s.zns ∧ t.part = s.part ∧ t.pwr.pstate = .run ∧
      t.mnt = s.mnt := by
    rw [ht, noticed, limits, if_neg (by omega)]
    split
    · next zero =>
      obtain ⟨frame, -⟩ := enterNotice_facts (s := j) (k := 0) (temp := x) (stamp := stamp) warm zero
      rw [frame.rest]
      exact ⟨die, (show 1 < 3 by decide), excluded, zns.trans taken.zns, part.trans taken.part, warm, mnt.trans taken.mnt⟩
    · rw [wakeFired_warm warm]
      exact ⟨die, level ▸ low, excluded, zns.trans taken.zns, part.trans taken.part, warm, mnt.trans taken.mnt⟩
  obtain ⟨die', low', excluded', zns', part', warm', mnt'⟩ := told
  obtain ⟨w, frame, e, code, raised⟩ := enterCritical_facts (s := t) (k := 0) (temp := x) (by rw [State.mounted, mnt']; exact unmounted) low'
  have same : u.judge 0 x x stamp = t.enterCritical 0 x := by
    rw [judge_eq, limits, runOf_below trip, if_neg (by decide)]
    dsimp only
    rw [← hj, ← ht, if_pos ⟨runOf_second critical (by rw [taken.thm]; exact again), low', awake_of_run warm'⟩]
  obtain ⟨v, hv⟩ : ∃ v, v = t.enterCritical 0 x := ⟨_, rfl⟩
  rw [← hv] at frame raised
  refine ⟨_, runs, ?_⟩
  have thm : v.thm = { t.thm with windowAt := w, level := 3, source := 0 } := by rw [frame.rest]; rfl
  rw [same, ← hv, sensorsLeft_enough (by rw [thm]; exact excluded' ▸ enough)]
  beta_reduce
  rw [thm]
  refine ⟨die', rfl, rfl, ⟨e, raised ▸ List.mem_cons_self, code⟩, fun has => ?_, ?_, ?_⟩
  · have outs : v.fan.outs = fansAtFull t := by rw [frame.rest]; rfl
    rw [outs]
    exact fansAtFull_turn (by rw [part']; exact has)
  · rw [frame.rest]; exact zns'
  · rw [frame.rest]; exact mnt'

/-- R507: a second reading at Trip. -/
theorem reading_trips (run : s.pwr.pstate = .run) (serves : i ∉ s.thm.excluded) (enough : s.thm.excluded.length ≤ 63)
    (trip : s.thm.die.trip + 40 ≤ x) (again : 1 ≤ s.thm.tripRuns.1) :
    Goes (.dieSensorReading stamp [⟨i, x, true⟩]) s (fun t => t.pwr.pstate = .flushing 1 ∧ t.boot.tripped = true ∧
      t.thm.tripRecord = some (0, x, false) ∧ t.modOk = false) := by
  obtain ⟨u, runs, taken, -⟩ := reading_taken (s := s) (i := i) (x := x) (stamp := stamp) run serves
  have limits : u.limits 0 = s.thm.die := by rw [State.limits, if_neg (by decide), taken.thm]
  obtain ⟨j, hj⟩ : ∃ j : State, j = { judged u 0 x x stamp with
    thm := { (judged u 0 x x stamp).thm with tripRecord := some (0, x, false) }, boot := { (judged u 0 x x stamp).boot with tripped := true } } := ⟨_, rfl⟩
  have warm : j.pwr.pstate = .run := by rw [hj]; show u.pwr.pstate = _; rw [taken.pwr]; exact run
  have excluded : j.thm.excluded = s.thm.excluded := by rw [hj]; show u.thm.excluded = _; rw [taken.thm]
  have same : u.judge 0 x x stamp = j.cut := by
    rw [judge_eq, limits, if_pos (runOf_second trip (by rw [taken.thm]; exact again)), State.trip, ← hj, State.declareLoss, warm]
  refine ⟨_, runs, ?_⟩
  rw [same, sensorsLeft_enough (by show j.thm.excluded.length ≤ 63; rw [excluded]; exact enough)]
  refine ⟨rfl, by rw [hj]; rfl, by rw [hj]; rfl, ?_⟩
  rw [State.modOk, show j.cut.pwr.pstate = .flushing 1 from rfl, Bool.and_false]

/-- What the exclusion of a sensor has done, through whatever its level brings. -/
structure Excluded (i : Nat) (t : State) : Prop where
  out : i ∈ t.thm.excluded
  told : ∃ e ∈ t.hif.raised, e.code = 0x0D04
  run : t.pwr.pstate = .run
  unmounted : t.mounted = false

theorem Excluded.of_frame {a t u : State} (h : Excluded i t) (frame : EventFrame a u) (out : a.thm.excluded = t.thm.excluded)
    (pwr : a.pwr = t.pwr) (mnt : a.mnt = t.mnt) (told : ∀ e ∈ t.hif.raised, e ∈ u.hif.raised) : Excluded i u := by
  obtain ⟨inside, ⟨e, mem, code⟩, run, unmounted⟩ := h
  refine ⟨?_, ⟨e, told e mem, code⟩, ?_, ?_⟩
  · rw [frame.rest]; exact out ▸ inside
  · rw [frame.rest]; exact pwr ▸ run
  · rw [frame.rest]; show decide (a.mnt.state = 4) = false; rw [mnt]; exact unmounted

theorem Excluded.enterCritical {t : State} (h : Excluded i t) (low : t.thm.level < 3) (k temp : Nat) : Excluded i (t.enterCritical k temp) := by
  obtain ⟨w, frame, e, -, raised⟩ := enterCritical_facts (s := t) (k := k) (temp := temp) h.unmounted low
  exact h.of_frame frame rfl rfl rfl fun e mem => raised ▸ List.mem_cons_of_mem _ mem

/-- R500: a reading out of range takes its sensor out. -/
theorem reading_takes_out (run : s.pwr.pstate = .run) (serves : i ∉ s.thm.excluded) (unmounted : s.mounted = false) (none : s.thm.tripRuns.1 = 0) :
    Goes (.dieSensorReading stamp [⟨i, x, false⟩]) s (fun t => i ∈ t.thm.excluded ∧ ∃ e ∈ t.hif.raised, e.code = 0x0D04) := by
  obtain ⟨u, runs, taken, e, raised, code⟩ := reading_excludes (s := s) (i := i) (x := x) (stamp := stamp) run serves
  obtain ⟨j, hj⟩ : ∃ j, j = judged u 0 s.thm.dieTemp s.thm.dieTemp stamp := ⟨_, rfl⟩
  have first : Excluded i j := by
    have whole : j.thm.excluded = u.thm.excluded ∧ j.hif = u.hif ∧ j.pwr = u.pwr ∧ j.mnt = u.mnt := by rw [hj]; exact ⟨rfl, rfl, rfl, rfl⟩
    obtain ⟨excluded, hif, pwr, mnt⟩ := whole
    refine ⟨by rw [excluded, taken.thm]; exact List.mem_cons_self, ⟨e, by rw [hif, raised]; exact List.mem_cons_self, code⟩, by rw [pwr, taken.pwr]; exact run, ?_⟩
    rw [State.mounted, mnt, taken.mnt]; exact unmounted
  obtain ⟨t, ht⟩ : ∃ t, t = noticed u 0 s.thm.dieTemp stamp j := ⟨_, rfl⟩
  have second : Excluded i t := by
    rw [ht, noticed]
    split
    · exact first
    · split
      · next zero =>
        obtain ⟨frame, told⟩ := enterNotice_facts (s := j) (k := 0) (temp := s.thm.dieTemp) (stamp := stamp) first.run zero
        exact first.of_frame frame rfl rfl rfl fun e mem => told ▸ List.mem_cons_of_mem _ mem
      · rw [wakeFired_warm first.run]
        exact first
  have third : Excluded i (u.judge 0 s.thm.dieTemp s.thm.dieTemp stamp) := by
    rw [judge_eq, if_neg (by rw [taken.thm]; show runOf s.thm.tripRuns.1 _ _ ≠ 2; rw [none]; exact runOf_first)]
    dsimp only
    rw [← hj, ← ht]
    split
    · next h => exact second.enterCritical h.2.1 0 _
    · split
      · unfold State.setLevel
        split
        · exact second
        · next moves => exact second.of_frame (event_frame _ _ _ _ _ _) rfl rfl rfl fun e mem => by rw [raised_event]; exact List.mem_cons_of_mem _ mem
      · exact second
  have last : Excluded i (sensorsLeft (u.judge 0 s.thm.dieTemp s.thm.dieTemp stamp) s.thm.dieTemp) := by
    rw [sensorsLeft]
    split
    · next h => exact third.enterCritical h.2.1 2 _
    · exact third
  exact ⟨_, runs, last.out, last.told⟩

end Levels

end Sys2Proof.Proofs
end

section
/-! SUPPORT: the readings of the flash and of the board, and the grace window (R499 to R506). -/

namespace Sys2Proof.Proofs

open Sys2Proof Sys2Proof.Machine

section Flash

variable {s : State} {d x stamp : Nat}

/-- The hottest of the flash dies (R502). -/
def hottestDie (m : SMap Nat) : Nat × Nat := m.foldl (fun (a : Nat × Nat) e => if a.2 < e.2 then e else a) (0, 0)

theorem foldl_hottest : ∀ (l : List (Nat × Nat)) (a : Nat × Nat),
    (l.foldl (fun (a : Nat × Nat) e => if a.2 < e.2 then e else a) a = a ∨ l.foldl (fun (a : Nat × Nat) e => if a.2 < e.2 then e else a) a ∈ l) ∧
    a.2 ≤ (l.foldl (fun (a : Nat × Nat) e => if a.2 < e.2 then e else a) a).2 ∧
    ∀ e ∈ l, e.2 ≤ (l.foldl (fun (a : Nat × Nat) e => if a.2 < e.2 then e else a) a).2
  | [], _ => ⟨.inl rfl, Nat.le_refl _, fun _ mem => absurd mem List.not_mem_nil⟩
  | e :: l, a => by
    obtain ⟨found, above, least⟩ := foldl_hottest l (if a.2 < e.2 then e else a)
    rw [List.foldl_cons]
    generalize l.foldl (fun (a : Nat × Nat) e => if a.2 < e.2 then e else a) (if a.2 < e.2 then e else a) = r at found above least ⊢
    by_cases hotter : a.2 < e.2
    · rw [if_pos hotter] at found above
      refine ⟨.inr (found.elim (fun h => h ▸ List.mem_cons_self) (List.mem_cons_of_mem _)), by omega, fun f mem => ?_⟩
      rcases List.mem_cons.mp mem with rfl | mem
      · exact above
      · exact least f mem
    · rw [if_neg hotter] at found above
      refine ⟨found.imp_right (List.mem_cons_of_mem _), above, fun f mem => ?_⟩
      rcases List.mem_cons.mp mem with rfl | mem
      · omega
      · exact least f mem

/-- What the hottest die reads. -/
theorem hottestDie_facts {m : SMap Nat} (canonical : canon 0 m = true) :
    (∀ y, look 0 m y ≤ (hottestDie m).2) ∧ (0 < (hottestDie m).2 → look 0 m (hottestDie m).1 = (hottestDie m).2) := by
  obtain ⟨found, -, least⟩ := foldl_hottest m (0, 0)
  refine ⟨fun y => ?_, fun warm => ?_⟩
  · by_cases zero : look 0 m y = 0
    · omega
    · exact least _ (mem_of_look zero)
  · rcases found with cold | mem
    · have : (hottestDie m).2 = 0 := congrArg Prod.snd cold
      omega
    · exact look_of_mem canonical mem

/-- The thermal state with the reading of a flash die. -/
def flashThermal (s : State) (d x : Nat) : Thermal :=
  let m := put 0 s.thm.dieTemps d x
  { s.thm with
    dieTemps := m, flashTemp := (hottestDie m).2, flashDie := (hottestDie m).1
    critRuns := (s.thm.critRuns.1, (look (0, 0) s.thm.dieRuns d).1), tripRuns := (s.thm.tripRuns.1, (look (0, 0) s.thm.dieRuns d).2) }

theorem flash_taken (run : s.pwr.pstate = .run) (live : (s.die d).lost = false) : ∃ u : State,
    exec (.flashTemperatureRead stamp d x) s = .next (let t := u.judge 1 (hottestDie (put 0 s.thm.dieTemps d x)).2 x stamp
      { t with thm := { t.thm with dieRuns := put (0, 0) t.thm.dieRuns d (t.thm.critRuns.2, t.thm.tripRuns.2) } }) ∧
    Taken s u (flashThermal s d x) := by
  obtain ⟨v, hv⟩ : ∃ v, v = (s.startClock 6).advanceTo stamp := ⟨_, rfl⟩
  have thm : v.thm = s.thm := by rw [hv]; rfl
  obtain ⟨m, hm⟩ : ∃ m, m = put 0 s.thm.dieTemps d x := ⟨_, rfl⟩
  obtain ⟨f, hf⟩ : ∃ f : State → State, f = fun (z : State) => { z with thm := { z.thm with
    dieTemps := m, flashTemp := (hottestDie m).2, flashDie := (hottestDie m).1 } } := ⟨_, rfl⟩
  obtain ⟨w, hw⟩ : ∃ w, w = v.withThresholds f := ⟨_, rfl⟩
  have quiet : QuietFrame (f v) w := by rw [hw]; exact quiet_withThresholds v f
  obtain ⟨u, hu⟩ : ∃ u : State, u = { w with thm := { w.thm with
    critRuns := (w.thm.critRuns.1, (look (0, 0) w.thm.dieRuns d).1), tripRuns := (w.thm.tripRuns.1, (look (0, 0) w.thm.dieRuns d).2) } } := ⟨_, rfl⟩
  have wthm : w.thm = { s.thm with dieTemps := m, flashTemp := (hottestDie m).2, flashDie := (hottestDie m).1 } := by
    rw [quiet.frame.rest, hf]
    dsimp only
    rw [thm]
  have step : Taken s (f v) (f v).thm := by rw [hf, hv]; exact ⟨rfl, rfl, rfl, rfl, rfl, rfl⟩
  obtain ⟨-, pwr, part, mnt, zns, boot⟩ := taken_of_quiet step quiet.frame
  refine ⟨u, ?_, ?_⟩
  · have does : (s.startClock 6).readFlash stamp d x = let t := u.judge 1 (hottestDie m).2 x stamp
        { t with thm := { t.thm with dieRuns := put (0, 0) t.thm.dieRuns d (t.thm.critRuns.2, t.thm.tripRuns.2) } } := by
      rw [hu, hw, hf, State.readFlash, ← hv, thm, ← hm]
      rfl
    rw [show exec (.flashTemperatureRead stamp d x) s = execFlashTemperatureRead stamp d x s from rfl, execFlashTemperatureRead,
      awake_of_run run, live, does, hm]
    rfl
  · rw [hu]
    refine ⟨?_, pwr, part, mnt, zns, boot⟩
    dsimp only
    rw [wthm, hm]
    rfl

/-- R502, R506: the reading of a flash die. -/
theorem flash_reading (run : s.pwr.pstate = .run) (live : (s.die d).lost = false) (canonical : canon 0 s.thm.dieTemps = true)
    (zero : s.thm.level = 0) (cool : ∀ y, look 0 s.thm.dieTemps y < s.thm.flash.notice + 40) (critical : x < s.thm.flash.critical + 40)
    (trip : x < s.thm.flash.trip + 40) :
    Goes (.flashTemperatureRead stamp d x) s (fun t => look 0 t.thm.dieTemps d = x ∧
      (∀ y, y ≠ d → look 0 t.thm.dieTemps y = look 0 s.thm.dieTemps y) ∧
      (∀ y, look 0 t.thm.dieTemps y ≤ t.thm.flashTemp) ∧ (0 < t.thm.flashTemp → look 0 t.thm.dieTemps t.thm.flashDie = t.thm.flashTemp) ∧
      (x < s.thm.flash.notice + 40 → t.thm.level = 0) ∧
      (s.thm.flash.notice + 40 ≤ x → t.thm.level = 1 ∧ t.thm.source = 1 ∧ t.thm.windowAt = some stamp) ∧ t.zns = s.zns) := by
  obtain ⟨u, runs, taken⟩ := flash_taken (s := s) (d := d) (x := x) (stamp := stamp) run live
  obtain ⟨m, hm⟩ : ∃ m, m = put 0 s.thm.dieTemps d x := ⟨_, rfl⟩
  obtain ⟨hot, hhot⟩ : ∃ hot, hot = (hottestDie m).2 := ⟨_, rfl⟩
  have canonical' : canon 0 m = true := by rw [hm]; exact canon_put _ _ _ _ canonical
  have own : look 0 m d = x := by rw [hm]; exact look_put _ _ _ _ canonical
  have others : ∀ y, y ≠ d → look 0 m y = look 0 s.thm.dieTemps y := fun y ne => by rw [hm]; exact look_put_other _ _ _ _ _ ne
  obtain ⟨most, which⟩ := hottestDie_facts canonical'
  have limits : u.limits 1 = s.thm.flash := by rw [State.limits, if_pos rfl, taken.thm]; rfl
  obtain ⟨j, hj⟩ : ∃ j, j = judged u 1 hot x stamp := ⟨_, rfl⟩
  have fields : j.thm.dieTemps = m ∧ j.thm.flashTemp = hot ∧ j.thm.flashDie = (hottestDie m).1 ∧ j.thm.level = 0 ∧ j.zns = u.zns ∧ j.pwr = u.pwr := by
    rw [hj]
    unfold judged
    dsimp only
    rw [taken.thm, hhot, hm]
    exact ⟨rfl, rfl, rfl, zero, rfl, rfl⟩
  obtain ⟨temps, flashTemp, flashDie, level, zns, pwr⟩ := fields
  have warm : j.pwr.pstate = .run := by rw [pwr, taken.pwr]; exact run
  have reads : look 0 j.thm.dieTemps d = x ∧ (∀ y, y ≠ d → look 0 j.thm.dieTemps y = look 0 s.thm.dieTemps y) ∧
      (∀ y, look 0 j.thm.dieTemps y ≤ j.thm.flashTemp) ∧ (0 < j.thm.flashTemp → look 0 j.thm.dieTemps j.thm.flashDie = j.thm.flashTemp) := by
    rw [temps, flashTemp, flashDie, hhot]
    exact ⟨own, others, most, which⟩
  obtain ⟨own', others', most', which'⟩ := reads
  rw [← hm, ← hhot] at runs
  refine ⟨_, runs, ?_⟩
  dsimp only
  have calm : u.judge 1 hot x stamp = noticed u 1 hot stamp j := by
    rw [judge_eq, limits, runOf_below trip, if_neg (by decide)]
    dsimp only
    rw [runOf_below critical, ← hj, if_neg (fun h => absurd h.1 (by decide)), if_neg]
    rintro ⟨three, -⟩
    rw [noticed] at three
    split at three
    · omega
    · obtain ⟨frame, -⟩ := enterNotice_facts (s := j) (k := 1) (temp := hot) (stamp := stamp) warm level
      rw [frame.rest] at three
      exact absurd three (show ¬ (1 = 3) by decide)
  rw [calm, noticed, limits]
  by_cases below : hot < s.thm.flash.notice + 40
  · rw [if_pos below]
    refine ⟨own', others', most', which', fun _ => level, fun hotter => ?_, zns.trans taken.zns⟩
    have := most d
    omega
  · rw [if_neg below, if_pos level]
    obtain ⟨frame, -⟩ := enterNotice_facts (s := j) (k := 1) (temp := hot) (stamp := stamp) warm level
    generalize j.enterNotice 1 hot stamp = t at frame ⊢
    have thm : t.thm = { j.thm with windowAt := some stamp, level := 1, source := 1 } := by rw [frame.rest]; rfl
    have zns' : t.zns = j.zns := by rw [frame.rest]; rfl
    rw [thm]
    refine ⟨own', others', most', which', fun cooler => ?_, fun _ => ⟨rfl, rfl, rfl⟩, zns'.trans (zns.trans taken.zns)⟩
    exfalso
    have warmth : 0 < (hottestDie m).2 := by omega
    have at_ := which warmth
    by_cases same : (hottestDie m).1 = d
    · rw [same, own] at at_
      omega
    · rw [others _ same] at at_
      have := cool (hottestDie m).1
      omega

/-- R499: the board's readings are taken in. -/
theorem board_reading (run : s.pwr.pstate = .run) {temps : List Nat} (six : temps.length = 6) :
    Goes (.boardSensorReading temps) s (fun t => t.thm = { s.thm with board := temps } ∧ t.zns = s.zns ∧ t.pwr = s.pwr) := by
  have quiet := quiet_withThresholds (s.startClock 6) (fun (u : State) => { u with thm := { u.thm with board := temps } })
  refine goes_of_arises rfl (by rw [sensorsRead_of_run run, decide_eq_true six]; rfl) ?_
  rw [quiet.frame.rest]
  exact ⟨rfl, rfl, rfl⟩

end Flash

section Window

variable {s : State} {n w : Nat}

/-- What a change of the Enforce step does (R505). -/
theorem setStep_facts (s : State) (n : Nat) : (s.setStep n).thm = { s.thm with step := n } ∧ (s.setStep n).zns = s.zns ∧
    (s.setStep n).lvl.rowInForce = s.lvl.rowInForce ∧ (∀ e ∈ s.hif.raised, e ∈ (s.setStep n).hif.raised) ∧
    (s.thm.step ≠ n → min 4 (s.pwr.mode.row + n) ≤ (s.setStep n).lvl.rowPower ∧
      ∃ e ∈ (s.setStep n).hif.raised, e.code = 0x0D01 ∧ e.payload = .fields [(s.thm.step : Int), n]) := by
  by_cases same : s.thm.step = n
  · rw [State.setStep, if_pos same]
    exact ⟨by rw [← same], rfl, rfl, fun _ h => h, fun other => absurd same other⟩
  · obtain ⟨a, ha⟩ : ∃ a : State, a = { s with thm := { s.thm with step := n } } := ⟨_, rfl⟩
    obtain ⟨b, hb⟩ : ∃ b, b = a.event 0x0D01 2 srcThermal 0 [(s.thm.step : Int), n] := ⟨_, rfl⟩
    have eq : s.setStep n = b.lowerPower := by rw [State.setStep, if_neg same, hb, ha]
    have frame : EventFrame a b := hb ▸ event_frame _ _ _ _ _ _
    have raised : b.hif.raised = eventOf a 0x0D01 2 srcThermal 0 (.fields [(s.thm.step : Int), n]) :: s.hif.raised := by rw [hb, raised_event, ha]
    have fields : b.thm = { s.thm with step := n } ∧ b.zns = s.zns ∧ b.lvl.rowInForce = s.lvl.rowInForce ∧ b.pwr = s.pwr := by
      rw [frame.rest, ha]; exact ⟨rfl, rfl, rfl, rfl⟩
    obtain ⟨thm, zns, row, pwr⟩ := fields
    have ladder : b.ladderRow = min 4 (s.pwr.mode.row + n) := by rw [State.ladderRow, thm, pwr]
    have lowers : b.lowerPower.thm = b.thm ∧ b.lowerPower.zns = b.zns ∧ b.lowerPower.lvl.rowInForce = b.lvl.rowInForce ∧
        b.lowerPower.hif = b.hif ∧ b.ladderRow ≤ b.lowerPower.lvl.rowPower := by
      unfold State.lowerPower
      split
      · exact ⟨rfl, rfl, rfl, rfl, Nat.le_refl _⟩
      · next high => exact ⟨rfl, rfl, rfl, rfl, Nat.not_lt.mp high⟩
    obtain ⟨thm', zns', row', hif', most⟩ := lowers
    rw [eq, hif', raised]
    exact ⟨thm'.trans thm, zns'.trans zns, row'.trans row, fun _ h => List.mem_cons_of_mem _ h,
      fun _ => ⟨ladder ▸ most, _, List.mem_cons_self, rfl, rfl⟩⟩

/-- What a change of the level leaves in any case. -/
theorem setLevel_leaves (s : State) (l k temp : Nat) : (s.setLevel l k temp).thm = { s.thm with level := l, source := (s.setLevel l k temp).thm.source } ∧
    (s.setLevel l k temp).zns = s.zns ∧ (s.setLevel l k temp).lvl.rowInForce = s.lvl.rowInForce ∧ (s.setLevel l k temp).lvl.rowPower = s.lvl.rowPower ∧
    ∀ e ∈ s.hif.raised, e ∈ (s.setLevel l k temp).hif.raised := by
  by_cases same : s.thm.level = l
  · rw [State.setLevel, if_pos same]
    exact ⟨by rw [← same], rfl, rfl, rfl, fun _ h => h⟩
  · obtain ⟨frame, raised⟩ := setLevel_facts s l k temp same
    generalize s.setLevel l k temp = t at frame raised ⊢
    have fields : t.thm = { s.thm with level := l, source := k } ∧ t.zns = s.zns ∧ t.lvl.rowInForce = s.lvl.rowInForce ∧ t.lvl.rowPower = s.lvl.rowPower := by
      rw [frame.rest]; exact ⟨rfl, rfl, rfl, rfl⟩
    obtain ⟨thm, zns, row, power⟩ := fields
    exact ⟨by rw [thm], zns, row, power, fun _ h => raised ▸ List.mem_cons_of_mem _ h⟩

/-- The next grace window, before its readings are judged. -/
def nextWindow (s : State) (stop : Nat) : State :=
  { s.advanceTo stop with thm := { s.thm with windowAt := some stop } }

/-- The readings of the level's source in a window. -/
def windowReadings (s : State) (k w stop : Nat) : List Reading :=
  s.thm.readings.filter (fun r => decide (r.2.1 = k) && decide (w ≤ r.1) && decide (r.1 < stop))

theorem window_goes {P : State → Prop} (opened : s.thm.windowAt = some w) (holds : P (s.endWindow w)) : Goes .graceWindowEnd s P := by
  refine ⟨s.endWindow w, ?_, holds⟩
  rw [show exec .graceWindowEnd s = execGraceWindowEnd s from rfl, execGraceWindowEnd, opened]

/-- R503, R505: a window whose last reading is still hot raises the step. -/
theorem window_hot {r : Reading} {rest : List Reading} {k : Nat} (hk : k = if s.thm.source = 1 then 1 else 0)
    (mine : windowReadings s k w (w + s.graceNs) = r :: rest) (hot : (s.limits k).notice + 40 ≤ r.2.2) :
    (s.endWindow w).thm.step = min 4 (s.thm.step + 1) ∧ (s.endWindow w).thm.level = (if s.thm.level = 1 then 2 else s.thm.level) ∧
    (s.endWindow w).thm.windowAt = some (w + s.graceNs) ∧
    (s.thm.step < 4 → min 4 (s.pwr.mode.row + s.thm.step + 1) ≤ (s.endWindow w).lvl.rowPower ∧
      ∃ e ∈ (s.endWindow w).hif.raised, e.code = 0x0D01 ∧ e.payload = .fields [(s.thm.step : Int), (s.thm.step + 1 : Nat)]) ∧
    (s.endWindow w).lvl.rowInForce = s.lvl.rowInForce ∧ (s.endWindow w).zns = s.zns := by
  obtain ⟨next, hn⟩ : ∃ next, next = nextWindow s (w + s.graceNs) := ⟨_, rfl⟩
  obtain ⟨u, hu⟩ : ∃ u, u = next.setStep (min 4 (s.thm.step + 1)) := ⟨_, rfl⟩
  have ends : s.endWindow w = if u.thm.level = 1 then u.setLevel 2 u.thm.source r.2.2 else u := by
    have mine' : s.thm.readings.filter (fun x => decide (x.2.1 = if s.thm.source = 1 then 1 else 0) && decide (w ≤ x.1) && decide (x.1 < w + s.graceNs)) = r :: rest := by
      rw [← hk]; exact mine
    rw [State.endWindow]
    dsimp only
    rw [mine', ← hk]
    dsimp only
    rw [if_pos hot, hu, hn]
    rfl
  obtain ⟨thm, zns, row, told, moves⟩ := setStep_facts next (min 4 (s.thm.step + 1))
  rw [← hu] at thm zns row told moves
  have before : next.thm = { s.thm with windowAt := some (w + s.graceNs) } ∧ next.zns = s.zns ∧ next.lvl = s.lvl ∧ next.pwr = s.pwr ∧ next.hif = s.hif := by
    rw [hn]; exact ⟨rfl, rfl, rfl, rfl, rfl⟩
  obtain ⟨nthm, nzns, nlvl, npwr, nhif⟩ := before
  rw [nthm] at thm moves
  rw [npwr] at moves
  obtain ⟨lthm, lzns, lrow, lpower, ltold⟩ := setLevel_leaves u 2 u.thm.source r.2.2
  obtain ⟨v, hv⟩ : ∃ v, v = u.setLevel 2 u.thm.source r.2.2 := ⟨_, rfl⟩
  rw [← hv] at ends lthm lzns lrow lpower ltold
  have risen : s.thm.step < 4 → min 4 (s.pwr.mode.row + s.thm.step + 1) ≤ u.lvl.rowPower ∧
      ∃ e ∈ u.hif.raised, e.code = 0x0D01 ∧ e.payload = .fields [(s.thm.step : Int), (s.thm.step + 1 : Nat)] := fun more => by
    have up : min 4 (s.thm.step + 1) = s.thm.step + 1 := by omega
    rw [up] at moves
    exact moves (by dsimp only; omega)
  rw [ends]
  split
  · next one =>
    rw [thm] at one
    rw [lthm, lpower, lrow, lzns, thm, row, zns, nlvl, nzns]
    refine ⟨rfl, (if_pos one).symm, rfl, fun more => ?_, rfl, rfl⟩
    obtain ⟨power, e, mem, code⟩ := risen more
    exact ⟨power, e, ltold e mem, code⟩
  · next other =>
    rw [thm] at other
    rw [thm, row, zns, nlvl, nzns]
    exact ⟨rfl, (if_neg other).symm, rfl, risen, rfl, rfl⟩

/-- R505: a window that stayed below the limit by the hysteresis lowers the step, and the level once the step is 0. -/
theorem window_cool {r : Reading} {rest : List Reading} {k : Nat} (hk : k = if s.thm.source = 1 then 1 else 0)
    (mine : windowReadings s k w (w + s.graceNs) = r :: rest) (cool : ∀ x ∈ r :: rest, x.2.2 + s.thm.hystC < (s.limits k).notice + 40)
    (low : s.thm.level < 3) (floor : s.thm.fanFloor = false) :
    (2 ≤ s.thm.step → (s.endWindow w).thm.step = s.thm.step - 1 ∧ (s.endWindow w).thm.level = s.thm.level ∧
      (s.endWindow w).thm.windowAt = some (w + s.graceNs) ∧ (s.endWindow w).lvl.rowInForce = s.lvl.rowInForce) ∧
    (s.thm.step ≤ 1 → (if 1 - k = 1 then s.thm.flashTemp else s.thm.dieTemp) < (s.limits (1 - k)).notice + 40 →
      (s.endWindow w).thm.step = 0 ∧ (s.endWindow w).thm.level = 0 ∧ (s.endWindow w).thm.windowAt = none) := by
  obtain ⟨next, hn⟩ : ∃ next, next = nextWindow s (w + s.graceNs) := ⟨_, rfl⟩
  obtain ⟨u, hu⟩ : ∃ u, u = next.setStep (s.thm.step - 1) := ⟨_, rfl⟩
  have all : (r :: rest).all (fun x => decide (x.2.2 + s.thm.hystC < (s.limits k).notice + 40)) = true :=
    List.all_eq_true.mpr fun x mem => decide_eq_true (cool x mem)
  have below := cool r List.mem_cons_self
  have ends : s.endWindow w = if s.thm.step - 1 = 0 then
      (if (s.limits (1 - k)).notice + 40 ≤ (if 1 - k = 1 then s.thm.flashTemp else s.thm.dieTemp) then
        { u with thm := { u.thm with level := 1, source := 1 - k } }
      else { u.setLevel 0 u.thm.source r.2.2 with thm := { (u.setLevel 0 u.thm.source r.2.2).thm with windowAt := none } })
      else u := by
    have mine' : s.thm.readings.filter (fun x => decide (x.2.1 = if s.thm.source = 1 then 1 else 0) && decide (w ≤ x.1) && decide (x.1 < w + s.graceNs)) = r :: rest := by
      rw [← hk]; exact mine
    rw [State.endWindow]
    dsimp only
    rw [mine', ← hk]
    dsimp only
    rw [if_neg (by omega), all, decide_eq_true low, floor]
    simp only [Bool.and_true, if_true, Bool.false_eq_true, if_false, false_and, or_false, Nat.max_zero]
    rw [hu, hn]
    rfl
  obtain ⟨thm, -, row, -, -⟩ := setStep_facts next (s.thm.step - 1)
  rw [← hu] at thm row
  have before : next.thm = { s.thm with windowAt := some (w + s.graceNs) } ∧ next.lvl = s.lvl := by rw [hn]; exact ⟨rfl, rfl⟩
  rw [before.1] at thm
  rw [before.2] at row
  refine ⟨fun high => ?_, fun last other => ?_⟩
  · rw [ends, if_neg (by omega), thm]
    exact ⟨rfl, rfl, rfl, row⟩
  · have zero : s.thm.step - 1 = 0 := by omega
    obtain ⟨lthm, -⟩ := setLevel_leaves u 0 u.thm.source r.2.2
    rw [ends, if_pos zero, if_neg (Nat.not_le.mpr other)]
    dsimp only
    rw [lthm, thm, zero]
    exact ⟨rfl, rfl, rfl⟩

/-- A window without a reading of the source leaves the step (the model's choice). -/
theorem window_silent {k : Nat} (hk : k = if s.thm.source = 1 then 1 else 0) (mine : windowReadings s k w (w + s.graceNs) = []) :
    s.endWindow w = nextWindow s (w + s.graceNs) := by
  have mine' : s.thm.readings.filter (fun x => decide (x.2.1 = if s.thm.source = 1 then 1 else 0) && decide (w ≤ x.1) && decide (x.1 < w + s.graceNs)) = [] := by
    rw [← hk]; exact mine
  rw [State.endWindow]
  dsimp only
  rw [mine']
  rfl

end Window

end Sys2Proof.Proofs
end

section
/-! SUPPORT: the fan outputs (R457, R508 to R516). -/

namespace Sys2Proof.Proofs

open Sys2Proof Sys2Proof.Machine

section Outputs

variable {s t : State} {i : Nat} {f : FanOut}

/-- One output of the four changes. -/
def Becomes (s t : State) (i : Nat) (g : FanOut) : Prop :=
  t.fan.outs[i]? = some g ∧ t.fan.outs.length = 4 ∧ ∀ j, j ≠ i → t.fan.outs[j]? = s.fan.outs[j]?

theorem modAt_at {α : Type} (l : List α) (i : Nat) (f : α → α) : (modAt l i f)[i]? = l[i]?.map f := by
  rw [modAt, List.getElem?_mapIdx]
  simp

theorem length_modAt {α : Type} (l : List α) (i : Nat) (f : α → α) : (modAt l i f).length = l.length := List.length_mapIdx

theorem becomes_modAt (four : s.fan.outs.length = 4) (at_ : s.fan.outs[i]? = some f) {F : FanOut → FanOut} (outs : t.fan.outs = modAt s.fan.outs i F) :
    Becomes s t i (F f) := by
  rw [Becomes, outs, modAt_at, at_, length_modAt]
  exact ⟨rfl, four, fun j ne => modAt_other _ ne F⟩

theorem becomes_setFanOut (four : s.fan.outs.length = 4) (at_ : s.fan.outs[i]? = some f) (F : FanOut → FanOut) : Becomes s (s.setFanOut i F) i (F f) :=
  becomes_modAt four at_ rfl

theorem Becomes.of_fan {u : State} {g : FanOut} (h : Becomes s t i g) (same : u.fan = t.fan) : Becomes s u i g := by
  rw [Becomes, same]; exact h

theorem fanOut_of (at_ : s.fan.outs[i]? = some f) : s.fanOut i = f := by rw [State.fanOut, at_]; rfl

theorem index_low (four : s.fan.outs.length = 4) (at_ : s.fan.outs[i]? = some f) : i < 4 := four ▸ (List.getElem?_eq_some_iff.mp at_).1

theorem fanAlive_of (run : s.pwr.pstate = .run) (has : s.part.fan = true) : s.fanAlive = true := by
  rw [State.fanAlive, has, sensorsRead_of_run run]; rfl

/-- A step of a start that its report ends (R511). -/
theorem start_goes {P : State → Prop} {ev : FanStart} (run : s.pwr.pstate = .run) (has : s.part.fan = true)
    (step : (s.startClock 7).fanStep i ev = some t) (holds : P t) : Goes (.fanStartStep i ev) s P := by
  refine ⟨t, ?_, holds⟩
  rw [show exec (.fanStartStep i ev) s = execFanStartStep i ev s from rfl, execFanStartStep, if_pos (fanAlive_of run has), step]

/-- The next state of an output in its start. -/
theorem start_advances {ev : FanStart} {n : Nat} (run : s.pwr.pstate = .run) (has : s.part.fan = true) (four : s.fan.outs.length = 4)
    (at_ : s.fan.outs[i]? = some f)
    (step : (s.startClock 7).fanStep i ev = some ((s.startClock 7).setFanOut i (fun f => { f with state := n, crossings := 0 }))) :
    Goes (.fanStartStep i ev) s (fun t => Becomes s t i { f with state := n, crossings := 0 } ∧
      t = clocked { s with fan := { s.fan with outs := t.fan.outs } } t) :=
  start_goes run has step ⟨becomes_modAt four at_ (F := fun f => { f with state := n, crossings := 0 }) rfl, rfl⟩

/-- R511: the test of the clamp starts the output. -/
theorem start_tests (run : s.pwr.pstate = .run) (has : s.part.fan = true) (four : s.fan.outs.length = 4) (at_ : s.fan.outs[i]? = some f)
    (rests : f.state ≤ 1) (en : s.fan.enable.getLsbD i = true) (gates : s.fan.gatesOff = false) :
    Goes (.fanStartStep i (.clampTest true)) s (fun t => Becomes s t i { f with state := 2, starts := f.starts + 1, crossings := 0 } ∧
      t.fan.clampFault = s.fan.clampFault ∧ (s.fan.railV < 130 → t.fan.zeroVector = false)) ∧
    Goes (.fanStartStep i (.clampTest false)) s (fun t => Becomes s t i { f with state := 2, starts := f.starts + 1, crossings := 0 } ∧
      t.fan.clampFault = true ∧ t.fan.zeroVector = true ∧ ∃ e, t.hif.raised = e :: s.hif.raised ∧ e.code = 0x0D07) := by
  obtain ⟨u, hu⟩ : ∃ u, u = (s.startClock 7).advanceTo s.fan.restartAt := ⟨_, rfl⟩
  have fan : u.fan = s.fan := by rw [hu]; rfl
  have out : (s.startClock 7).fanOut i = f := fanOut_of (s := s.startClock 7) at_
  have step : ∀ good, (s.startClock 7).fanStep i (.clampTest good) = some (u.fanStart i good) := fun good => by
    rw [State.fanStep, out, if_pos ⟨by omega, en, by rw [show (s.startClock 7).fan.gatesOff = s.fan.gatesOff from rfl, gates]; rfl⟩, hu]
    rfl
  have becomes : ∀ (v : State), v.fan.outs = modAt u.fan.outs i (fun f => { f with state := 2, starts := f.starts + 1, crossings := 0 }) →
      Becomes s v i { f with state := 2, starts := f.starts + 1, crossings := 0 } := fun v outs =>
    becomes_modAt four at_ (F := fun f => { f with state := 2, starts := f.starts + 1, crossings := 0 }) (outs.trans (by rw [fan]))
  refine ⟨start_goes run has (step true) ⟨becomes _ rfl, ?_, fun low => ?_⟩, start_goes run has (step false) ?_⟩
  · show (u.fan.clampFault || false) = _
    rw [fan, Bool.or_false]
  · show (u.fan.zeroVector && decide (130 ≤ u.fan.railV)) = false
    rw [fan, decide_eq_false (Nat.not_le.mpr low), Bool.and_false]
  · obtain ⟨w, hw⟩ : ∃ w : State, w = { u with fan := { u.fan with
      outs := modAt u.fan.outs i (fun f => { f with state := 2, starts := f.starts + 1, crossings := 0 }), clampGood := false
      clampFault := u.fan.clampFault || !false, zeroVector := true } } := ⟨_, rfl⟩
    have starts : u.fanStart i false = w.event 0x0D07 3 srcFan 0 [0, (w.fan.railV : Int)] := by rw [hw]; rfl
    have same : (w.event 0x0D07 3 srcFan 0 [0, (w.fan.railV : Int)]).fan = w.fan := by rw [(event_frame _ _ _ _ _ _).rest]
    rw [starts]
    refine ⟨(becomes w (by rw [hw])).of_fan same, ?_, ?_, _, by rw [raised_event, hw, hu]; rfl, rfl⟩
    · rw [same, hw]; exact Bool.or_true _
    · rw [same, hw]

/-- R513: a crossing that comes too early is not one. -/
theorem crossing_early {now_ : Nat} (run : s.pwr.pstate = .run) (has : s.part.fan = true) (at_ : s.fan.outs[i]? = some f) (turns : f.state = 6)
    (early : (now_ - f.nextCommutation) * 5 < f.interval) :
    Goes (.fanZeroCrossing i now_) s (fun t => t = clocked { s with tim := { s.tim with now := t.tim.now } } t) := by
  refine goes_of_arises rfl (by rw [fanAlive_of run has, fanOut_of at_, turns]; rfl) ?_
  have out : ((s.advanceTo now_).startClock 7).fanOut i = f := fanOut_of (s := (s.advanceTo now_).startClock 7) at_
  rw [State.fanCross, out, if_pos early]
  rfl

/-- R513: a crossing sets the time of the next commutation. -/
theorem crossing_counts {now_ : Nat} (run : s.pwr.pstate = .run) (has : s.part.fan = true) (four : s.fan.outs.length = 4)
    (at_ : s.fan.outs[i]? = some f) (turns : f.state = 6) (pos : 0 < f.interval) (late : f.interval ≤ (now_ - f.nextCommutation) * 5) :
    Goes (.fanZeroCrossing i now_) s (fun t => ∃ g, Becomes s t i g ∧ g.commutation = (f.commutation + 1) % 6 ∧ g.crossings = min 12 (f.crossings + 1) ∧
      g.nextCommutation = now_ + f.interval / 2 ∧ g.interval = g.nextCommutation - f.nextCommutation ∧
      g.rpm = min 0xFFFF (10000000000 / (g.interval * s.fan.polePairs)) ∧ g.state = 6 ∧ g.lost = f.lost) := by
  refine goes_of_arises rfl (by rw [fanAlive_of run has, fanOut_of at_, turns]; rfl) ?_
  obtain ⟨u, hu⟩ : ∃ u, u = (s.advanceTo now_).startClock 7 := ⟨_, rfl⟩
  have fan : u.fan = s.fan := by rw [hu]; rfl
  have out : u.fanOut i = f := fanOut_of (by rw [fan]; exact at_)
  have rpm : ∀ n, u.fanRpm n = min 0xFFFF (10000000000 / (n * s.fan.polePairs)) := fun n => by rw [State.fanRpm, fan]
  rw [← hu, State.fanCross, out, if_neg (Nat.not_lt.mpr late), if_neg (Nat.ne_of_gt pos)]
  obtain ⟨F, hF⟩ : ∃ F : FanOut → FanOut, F = fun g => { g with
    commutation := (g.commutation + 1) % 6, interval := now_ + f.interval / 2 - f.nextCommutation, nextCommutation := now_ + f.interval / 2
    crossings := min 12 (g.crossings + 1), rpm := u.fanRpm (now_ + f.interval / 2 - f.nextCommutation) } := ⟨_, rfl⟩
  refine ⟨F f, becomes_modAt four at_ (by rw [hF, ← fan]; rfl), ?_⟩
  rw [hF]
  exact ⟨rfl, rfl, rfl, rfl, rpm _, turns, rfl⟩

/-- R516: an output whose retries are used up is held off until it is cleared. -/
theorem retry_starts (run : s.pwr.pstate = .run) (has : s.part.fan = true) (four : s.fan.outs.length = 4) (at_ : s.fan.outs[i]? = some f)
    (failed : f.state = 7) (free : s.fan.heldOff.getLsbD i = false) : Goes (.fanRetry i) s (fun t => Becomes s t i { f with state := 1 }) :=
  goes_of_arises rfl (by rw [fanAlive_of run has, fanOut_of at_, failed, free]; rfl)
    (becomes_modAt four at_ (F := fun f => { f with state := 1 }) rfl)

theorem fan_recovers (run : s.pwr.pstate = .run) (has : s.part.fan = true) (four : s.fan.outs.length = 4) (at_ : s.fan.outs[i]? = some f)
    (turns : f.state = 6) (lost : f.lost = true) :
    Goes (.fanRecovered i) s (fun t => Becomes s t i { f with lost := false, retries := 0 } ∧
      ∃ e, t.hif.raised = e :: s.hif.raised ∧ e.code = 0x0D06 ∧ e.payload = .fields [(i : Int)]) := by
  refine goes_of_arises rfl (by rw [fanAlive_of run has, fanOut_of at_, turns, lost]; rfl) ⟨?_, _, raised_event _ _ _ _ _ _, rfl, rfl⟩
  exact (becomes_setFanOut four at_ (fun f => { f with lost := false, retries := 0 })).of_fan (by rw [(event_frame _ _ _ _ _ _).rest])

theorem held_clears (run : s.pwr.pstate = .run) (has : s.part.fan = true) (four : s.fan.outs.length = 4) (at_ : s.fan.outs[i]? = some f)
    (held : s.fan.heldOff.getLsbD i = true) :
    Goes (.heldOffClear i) s (fun t => Becomes s t i { f with state := 1, retries := 0 } ∧ t.fan.heldOff.getLsbD i = false ∧ t.hif = s.hif) := by
  have may : exec (.heldOffClear i) s = arises s.fanAlive "HELD_OFF_CLEAR" ((s.startClock 7).clearHeld i) := by
    rw [show exec (.heldOffClear i) s = execHeldOffClear i s from rfl, execHeldOffClear, has, held]
    rfl
  refine goes_of_arises may (fanAlive_of run has) ⟨becomes_modAt four at_ (F := fun f => { f with state := 1, retries := 0 }) rfl, ?_, rfl⟩
  show (s.fan.heldOff &&& ~~~ BitVec.ofNat 4 (2 ^ i)).getLsbD i = false
  rw [getLsbD_and_not _ (index_low four at_)]
  simp

end Outputs

section Fault

variable {s t : State} {i : Nat} {f : FanOut}

theorem getLsbD_fanBit {b : BitVec 4} {i : Nat} (low : i < 4) : (State.fanBit b i).getLsbD i = true := by
  rw [State.fanBit, BitVec.getLsbD_or, BitVec.getLsbD_ofNat, decide_eq_true low, Nat.testBit_two_pow_self, Bool.true_and, Bool.or_true]

/-- The bit of a fault's cause (R514). -/
def causeBit (v : Fans) (i : Nat) : FanFaultCause → Bool
  | .stall => v.stall.getLsbD i
  | .startFail => v.startFail.getLsbD i
  | .overcurrent => v.overcurrent.getLsbD i
  | .openPhase => v.openPhase.getLsbD i
  | .speedLow => v.speedLow.getLsbD i

/-- A fault sets the bit of its cause, and nothing else of the outputs' records. -/
def markCause (v : Fans) (i : Nat) : FanFaultCause → Fans
  | .stall => { v with stall := State.fanBit v.stall i }
  | .startFail => { v with startFail := State.fanBit v.startFail i }
  | .overcurrent => { v with overcurrent := State.fanBit v.overcurrent i }
  | .openPhase => { v with openPhase := State.fanBit v.openPhase i }
  | .speedLow => { v with speedLow := State.fanBit v.speedLow i }

theorem markCause_facts (v : Fans) {i : Nat} (low : i < 4) (c : FanFaultCause) : causeBit (markCause v i c) i c = true ∧ (markCause v i c).outs = v.outs ∧
    (markCause v i c).heldOff = v.heldOff := by
  cases c <;> exact ⟨getLsbD_fanBit low, rfl, rfl⟩

/-- The number of outputs lost once one of them is (R515). -/
theorem fansLost_after {l : List FanOut} (at_ : l[i]? = some f) (F : FanOut → FanOut) (lost : (F f).lost = true) :
    ((modAt l i F).filter (fun g => g.lost)).length = (l.filter (fun g => g.lost)).length + if f.lost then 0 else 1 := by
  have split : ∀ G : FanOut → FanOut, modAt l i G = l.take i ++ G f :: l.drop (i + 1) := fun G => by
    refine List.ext_getElem? fun j => ?_
    obtain ⟨inside, here⟩ := List.getElem?_eq_some_iff.mp at_
    rcases Nat.lt_trichotomy j i with lt | rfl | gt
    · rw [modAt_other _ (Nat.ne_of_lt lt), List.getElem?_append_left (by rw [List.length_take]; omega), List.getElem?_take_of_lt lt]
    · rw [modAt_at, at_, List.getElem?_append_right (by rw [List.length_take]; omega), List.length_take, Nat.min_eq_left (Nat.le_of_lt inside), Nat.sub_self]
      rfl
    · rw [modAt_other _ (Nat.ne_of_gt gt), List.getElem?_append_right (by rw [List.length_take]; omega), List.length_take, Nat.min_eq_left (Nat.le_of_lt inside)]
      obtain ⟨n, rfl⟩ : ∃ n, j = i + 1 + n := ⟨j - (i + 1), by omega⟩
      rw [show i + 1 + n - i = n + 1 by omega, List.getElem?_cons_succ, List.getElem?_drop]
  have same : l = l.take i ++ f :: l.drop (i + 1) := by
    have id_ : modAt l i id = l := by
      refine List.ext_getElem? fun j => ?_
      by_cases eq : j = i
      · rw [eq, modAt_at]; simp
      · rw [modAt_other _ eq]
    exact id_.symm.trans (split id)
  rw [split F]
  conv_rhs => rw [same]
  rw [List.filter_append, List.filter_append, List.filter_cons_of_pos (p := fun g : FanOut => g.lost) lost, List.length_append, List.length_append, List.length_cons]
  cases held : f.lost
  · rw [List.filter_cons_of_neg (p := fun g : FanOut => g.lost) (by rw [held]; exact Bool.false_ne_true), if_neg Bool.false_ne_true]; omega
  · rw [List.filter_cons_of_pos (p := fun g : FanOut => g.lost) held, List.length_cons, if_pos rfl]; omega

end Fault

end Sys2Proof.Proofs
end

section
/-! Settles O54: fan faults, the rail, the command and the rows of temperature and fans (R10, R457, R499 to R516). -/

namespace Sys2Proof.Proofs

open Sys2Proof Sys2Proof.Machine

section Fault

variable {s t : State} {i : Nat} {f : FanOut}

theorem setStep_fan (s : State) (n : Nat) : (s.setStep n).fan = s.fan := by
  unfold State.setStep
  split
  · rfl
  · obtain ⟨b, hb⟩ : ∃ b, b = ({ s with thm := { s.thm with step := n } } : State).event 0x0D01 2 srcThermal 0 [(s.thm.step : Int), n] := ⟨_, rfl⟩
    have fan : b.fan = s.fan := by rw [hb, (event_frame _ _ _ _ _ _).rest]
    rw [← hb, State.lowerPower]
    split
    · exact fan
    · exact fan

/-- R515: two outputs lost put a floor under the Enforce step. -/
theorem fanFloorCheck_facts (s : State) (before : Nat) : (s.fanFloorCheck before).fan = s.fan ∧
    (∀ e ∈ s.hif.raised, e ∈ (s.fanFloorCheck before).hif.raised) ∧
    (¬ (before < 2 ∧ 2 ≤ s.fansLost) → (s.fanFloorCheck before).thm = s.thm) ∧
    (before < 2 ∧ 2 ≤ s.fansLost → (s.fanFloorCheck before).thm.fanFloor = true ∧ (s.fanFloorCheck before).thm.step = max 1 s.thm.step ∧
      ∃ e ∈ (s.fanFloorCheck before).hif.raised, e.code = 0x0D08 ∧ e.payload = .fields [(s.fansLost : Int)]) := by
  by_cases two : before < 2 ∧ 2 ≤ s.fansLost
  · obtain ⟨a, ha⟩ : ∃ a : State, a = { s with thm := { s.thm with fanFloor := true } } := ⟨_, rfl⟩
    obtain ⟨b, hb⟩ : ∃ b, b = a.event 0x0D08 4 srcFan 0 [(s.fansLost : Int)] := ⟨_, rfl⟩
    obtain ⟨u, hu⟩ : ∃ u, u = b.setStep (max 1 b.thm.step) := ⟨_, rfl⟩
    have eq : s.fanFloorCheck before = if s.thm.level = 0 then u.warning 1 1 else u := by rw [State.fanFloorCheck, if_pos two, hu, hb, ha]
    have frame : EventFrame a b := hb ▸ event_frame _ _ _ _ _ _
    have raised : b.hif.raised = eventOf a 0x0D08 4 srcFan 0 (.fields [(s.fansLost : Int)]) :: s.hif.raised := by rw [hb, raised_event, ha]
    have fields : b.thm = { s.thm with fanFloor := true } ∧ b.fan = s.fan := by rw [frame.rest, ha]; exact ⟨rfl, rfl⟩
    obtain ⟨thm, fan⟩ := fields
    obtain ⟨uthm, -, -, utold, -⟩ := setStep_facts b (max 1 b.thm.step)
    have ufan := setStep_fan b (max 1 b.thm.step)
    rw [← hu] at uthm utold ufan
    have quiet : QuietFrame u (s.fanFloorCheck before) := by
      rw [eq]; split
      · exact quiet_warning _ _ _
      · exact .refl _
    have same : (s.fanFloorCheck before).thm = u.thm ∧ (s.fanFloorCheck before).fan = u.fan := by rw [quiet.frame.rest]; exact ⟨rfl, rfl⟩
    rw [same.1, same.2, quiet.raised, uthm, ufan, thm]
    exact ⟨fan, fun e mem => utold e (raised ▸ List.mem_cons_of_mem _ mem), fun no => absurd two no, fun _ =>
      ⟨rfl, rfl, _, utold _ (raised ▸ List.mem_cons_self), rfl, rfl⟩⟩
  · rw [State.fanFloorCheck, if_neg two]
    exact ⟨rfl, fun _ h => h, fun _ => rfl, fun yes => absurd yes two⟩

/-- R514 to R516: a fault stops its output, counts its retries, and may hold it off. -/
theorem fanFault_facts (four : s.fan.outs.length = 4) (at_ : s.fan.outs[i]? = some f) (c : FanFaultCause) :
    (∃ g, Becomes s (s.fanFault i c) i g ∧ g.state = 7 ∧ g.cmdPct = 0 ∧ g.lost = true ∧ g.retries = (if f.lost then min 3 (f.retries + 1) else 0)) ∧
    causeBit (s.fanFault i c).fan i c = true ∧
    ((if f.lost then min 3 (f.retries + 1) else 0) = 3 → (s.fanFault i c).fan.heldOff.getLsbD i = true) ∧
    ((if f.lost then min 3 (f.retries + 1) else 0) ≠ 3 → (s.fanFault i c).fan.heldOff = s.fan.heldOff) ∧
    (∃ e ∈ (s.fanFault i c).hif.raised, e.code = 0x0D05) ∧
    (f.lost = false → (s.fan.outs.filter (fun g => g.lost)).length = 1 → (s.fanFault i c).thm.fanFloor = true ∧
      (s.fanFault i c).thm.step = max 1 s.thm.step ∧ ∃ e ∈ (s.fanFault i c).hif.raised, e.code = 0x0D08 ∧ e.payload = .fields [2]) ∧
    (f.lost = true ∨ (s.fan.outs.filter (fun g => g.lost)).length = 0 → (s.fanFault i c).thm = s.thm) := by
  have low := index_low four at_
  obtain ⟨n, hn⟩ : ∃ n, n = if f.lost then min 3 (f.retries + 1) else 0 := ⟨_, rfl⟩
  obtain ⟨F, hF⟩ : ∃ F : FanOut → FanOut, F = fun f => { f with
    state := 7, cmdPct := 0, dutyPct := 0, retries := n, lost := true, faultAt := s.now, crossings := 0 } := ⟨_, rfl⟩
  obtain ⟨a, ha⟩ : ∃ a : State, a = { s with fan := markCause { s.fan with outs := modAt s.fan.outs i F } i c } := ⟨_, rfl⟩
  obtain ⟨b, hb⟩ : ∃ b : State, b = if n = 3 then { a with fan := { a.fan with heldOff := State.fanBit a.fan.heldOff i } } else a := ⟨_, rfl⟩
  obtain ⟨v, hv⟩ : ∃ v, v = b.event 0x0D05 3 srcFan 0 [(i : Int), fanCauseCode c, n] := ⟨_, rfl⟩
  have eq : s.fanFault i c = v.fanFloorCheck s.fansLost := by
    have out : s.fanOut i = f := fanOut_of at_
    unfold State.fanFault
    dsimp only
    rw [out, ← hn, hv, hb, ha, hF]
    cases c <;> rfl
  obtain ⟨bit, outs, held⟩ := markCause_facts { s.fan with outs := modAt s.fan.outs i F } low c
  have afan : causeBit a.fan i c = true ∧ a.fan.outs = modAt s.fan.outs i F ∧ a.fan.heldOff = s.fan.heldOff ∧ a.thm = s.thm := by
    rw [ha]; exact ⟨bit, outs, held, rfl⟩
  obtain ⟨bit', outs', held', athm⟩ := afan
  have bfan : causeBit b.fan i c = true ∧ b.fan.outs = modAt s.fan.outs i F ∧ b.thm = s.thm ∧ (n = 3 → b.fan.heldOff.getLsbD i = true) ∧
      (n ≠ 3 → b.fan.heldOff = s.fan.heldOff) := by
    rw [hb]
    split
    · next three => exact ⟨by cases c <;> exact bit', outs', athm, fun _ => getLsbD_fanBit low, fun other => absurd three other⟩
    · next other => exact ⟨bit', outs', athm, fun three => absurd three other, fun _ => held'⟩
  obtain ⟨bbit, bouts, bthm, three, other⟩ := bfan
  have frame : EventFrame b v := hv ▸ event_frame _ _ _ _ _ _
  have raised : eventOf b 0x0D05 3 srcFan 0 (.fields [(i : Int), fanCauseCode c, n]) ∈ v.hif.raised := by
    rw [hv, raised_event]; exact List.mem_cons_self
  have vfan : v.fan = b.fan ∧ v.thm = b.thm := by rw [frame.rest]; exact ⟨rfl, rfl⟩
  obtain ⟨fan, told, stays, floor⟩ := fanFloorCheck_facts v s.fansLost
  have lost : v.fansLost = (s.fan.outs.filter (fun g => g.lost)).length + if f.lost then 0 else 1 := by
    rw [State.fansLost, vfan.1, bouts]
    exact fansLost_after at_ F (by rw [hF])
  have before : s.fansLost = (s.fan.outs.filter (fun g => g.lost)).length := rfl
  rw [← eq] at fan told stays floor
  rw [fan, vfan.1, ← hn]
  refine ⟨⟨F f, ?_, by rw [hF], by rw [hF], by rw [hF], by rw [hF]⟩, bbit, three, other, ⟨_, told _ raised, rfl⟩, fun fresh one => ?_, fun many => ?_⟩
  · exact (becomes_modAt (t := b) four at_ bouts).of_fan (fan.trans vfan.1)
  · have two : v.fansLost = 2 := by rw [lost, one, fresh]; rfl
    obtain ⟨isFloor, step, e, mem, code, payload⟩ := floor ⟨by omega, by omega⟩
    exact ⟨isFloor, by rw [step, vfan.2, bthm], e, mem, code, by rw [payload, two]; rfl⟩
  · rw [stays, vfan.2, bthm]
    rw [lost, before]
    rcases many with was | none
    · rw [was, if_pos rfl]; omega
    · rw [none]; split <;> omega

theorem fan_faults (run : s.pwr.pstate = .run) (has : s.part.fan = true) (at_ : s.fan.outs[i]? = some f)
    (low : 1 ≤ f.state) (high : f.state ≤ 6) (c : FanFaultCause) {P : State → Prop} (holds : P ((s.startClock 7).fanFault i c)) :
    Goes (.fanFault i c) s P :=
  goes_of_arises rfl (by rw [fanAlive_of run has, fanOut_of at_, decide_eq_true low, decide_eq_true high]; rfl) holds

end Fault

section Rail

variable {s : State}

/-- R512: the thresholds of the fan rail. -/
theorem rail_moves (run : s.pwr.pstate = .run) (has : s.part.fan = true) (v : Nat) :
    Goes (.fanRailThreshold v) s (fun t => t.fan.railV = v ∧ (130 < v → t.fan.clampOn = true) ∧ (2 * v < 255 → t.fan.clampOn = false) ∧
      (140 < v → t.fan.zeroVector = true ∧ (s.fan.railV ≤ 140 → t.fan.rail28 = true ∧ ∃ e ∈ t.hif.raised, e.code = 0x0D07)) ∧
      (150 ≤ v → t.fan.gatesOff = true ∧ (∀ f ∈ t.fan.outs, f.state = 0 ∨ f.state = 7) ∧ (s.fan.railV < 150 → t.fan.rail30 = true)) ∧
      (v < 130 → t.fan.gatesOff = false ∧ t.fan.outs = s.fan.outs)) := by
  obtain ⟨u, hu⟩ : ∃ u, u = s.startClock 7 := ⟨_, rfl⟩
  have ufan : u.fan = s.fan := by rw [hu]; rfl
  obtain ⟨up28, h28⟩ : ∃ b, b = (decide (140 < v) && decide (s.fan.railV ≤ 140)) := ⟨_, rfl⟩
  obtain ⟨up30, h30⟩ : ∃ b, b = (decide (150 ≤ v) && decide (s.fan.railV < 150)) := ⟨_, rfl⟩
  obtain ⟨x, hx⟩ : ∃ x : Fans, x = { s.fan with
    railV := v
    clampOn := if 130 < v then true else if 2 * v < 255 then false else s.fan.clampOn
    zeroVector := s.fan.zeroVector || decide (140 < v)
    rail28 := s.fan.rail28 || up28
    rail30 := s.fan.rail30 || up30
    gatesOff := if 150 ≤ v then true else if v < 130 then false else s.fan.gatesOff
    restartAt := if v < 130 ∧ s.fan.gatesOff then u.now + 100000000 else s.fan.restartAt
    outs := if 150 ≤ v then s.fan.outs.map (fun (f : FanOut) => if f.state = 7 then f else { f with state := 0, dutyPct := 0 }) else s.fan.outs } := ⟨_, rfl⟩
  obtain ⟨a, ha⟩ : ∃ a : State, a = { u with fan := x } := ⟨_, rfl⟩
  obtain ⟨b, hb⟩ : ∃ b, b = if up28 then a.event 0x0D07 3 srcFan 0 [1, (v : Int)] else a := ⟨_, rfl⟩
  obtain ⟨c, hc⟩ : ∃ c, c = if up30 then b.event 0x0D07 3 srcFan 0 [2, (v : Int)] else b := ⟨_, rfl⟩
  have rail : (s.startClock 7).fanRail v = c := by
    rw [← hu, State.fanRail, ufan, hc, hb, ha, hx, h28, h30]
  have fan : c.fan = x := by
    have first : b.fan = x := by
      rw [hb, ← (show a.fan = x by rw [ha])]
      split
      · rw [(event_frame _ _ _ _ _ _).rest]
      · rfl
    rw [hc, ← first]
    split
    · rw [(event_frame _ _ _ _ _ _).rest]
    · rfl
  have told : up28 = true → ∃ e ∈ c.hif.raised, e.code = 0x0D07 := fun up => by
    have first : eventOf a 0x0D07 3 srcFan 0 (.fields [1, (v : Int)]) ∈ b.hif.raised := by
      rw [hb, up, if_pos rfl, raised_event]; exact List.mem_cons_self
    refine ⟨_, ?_, show (eventOf a 0x0D07 3 srcFan 0 (.fields [1, (v : Int)])).code = 0x0D07 from rfl⟩
    rw [hc]
    split
    · rw [raised_event]; exact List.mem_cons_of_mem _ first
    · exact first
  refine goes_of_arises rfl (fanAlive_of run has) ?_
  rw [rail, fan, hx]
  refine ⟨rfl, fun high => if_pos high, fun low => (if_neg (by omega)).trans (if_pos low), fun high => ⟨?_, fun was => ⟨?_, told ?_⟩⟩,
    fun high => ⟨if_pos high, fun f mem => ?_, fun was => ?_⟩, fun low => ⟨(if_neg (by omega)).trans (if_pos low), if_neg (by omega)⟩⟩
  · dsimp only
    rw [decide_eq_true high, Bool.or_true]
  · dsimp only
    rw [h28, decide_eq_true high, decide_eq_true was]; exact Bool.or_true _
  · rw [h28, decide_eq_true high, decide_eq_true was]; rfl
  · dsimp only at mem
    rw [if_pos high] at mem
    obtain ⟨g, -, rfl⟩ := List.mem_map.mp mem
    by_cases seven : g.state = 7
    · rw [if_pos seven]; exact .inr seven
    · rw [if_neg seven]; exact .inl rfl
  · dsimp only
    rw [h30, decide_eq_true high, decide_eq_true was]; exact Bool.or_true _

/-- R457: the fan command that is measured. -/
theorem command_measured (run : s.pwr.pstate = .run) (has : s.part.fan = true) {m : FanCmdSample} {pct v : Nat} {bad : Bool}
    (decodes : State.fanCmdDecode s.fan.cmdMode m = some (pct, bad, v)) :
    Goes (.fanCmdMeasurement m) s (fun t => t.pins.fanCmdPct = pct ∧ t.pins.fanCmdFault = bad ∧ t.fan = s.fan ∧
      (bad = true → s.pins.fanCmdFault = false → ∃ e, t.hif.raised = e :: s.hif.raised ∧ e.code = 0x0B02) ∧
      (bad = false ∨ s.pins.fanCmdFault = true → t.hif = s.hif)) := by
  obtain ⟨a, ha⟩ : ∃ a : State, a = { s with pins := { s.pins with fanCmdPct := pct, fanCmdFault := bad } } := ⟨_, rfl⟩
  obtain ⟨t, ht⟩ : ∃ t, t = if bad && !s.pins.fanCmdFault then a.event 0x0B02 2 srcFan 0 [(s.fan.cmdMode : Int), v] else a := ⟨_, rfl⟩
  have step : exec (.fanCmdMeasurement m) s = .next t := by
    rw [show exec (.fanCmdMeasurement m) s = execFanCmdMeasurement m s from rfl, execFanCmdMeasurement, has, fanAlive_of run has, decodes, ht, ha]
    rfl
  refine ⟨t, step, ?_⟩
  by_cases fault : (bad && !s.pins.fanCmdFault) = true
  · rw [if_pos fault] at ht
    obtain ⟨isBad, was⟩ : bad = true ∧ s.pins.fanCmdFault = false := by simpa using fault
    have pins := event_pins a 0x0B02 2 srcFan 0 [(s.fan.cmdMode : Int), v]
    rw [if_neg (by decide)] at pins
    have fan : t.fan = s.fan := by rw [ht, (event_frame _ _ _ _ _ _).rest, ha]
    have raised : t.hif.raised = eventOf a 0x0B02 2 srcFan 0 (.fields [(s.fan.cmdMode : Int), v]) :: s.hif.raised := by rw [ht, raised_event, ha]
    refine ⟨by rw [ht, pins, ha], by rw [ht, pins, ha], fan, fun _ _ => ⟨_, raised, rfl⟩, fun no => ?_⟩
    rw [isBad, was] at no
    exact no.elim (fun h => absurd h (by decide)) (fun h => absurd h (by decide))
  · rw [if_neg fault] at ht
    rw [ht, ha]
    refine ⟨rfl, rfl, rfl, fun isBad was => absurd (by rw [isBad, was]; rfl) fault, fun _ => rfl⟩

theorem analogue_decodes {mv : Nat} (mode : s.fan.cmdMode = 0) : State.fanCmdDecode s.fan.cmdMode (.analogue mv) =
    some (if 3300 < mv then 100 else mv * 100 / 3300, decide (3300 < mv), mv) := by
  rw [mode, State.fanCmdDecode, if_pos rfl]
  by_cases high : 3300 < mv
  · rw [if_pos high, if_pos high, decide_eq_true high]
  · rw [if_neg high, if_neg high, decide_eq_false high]

theorem duty_decodes {p hz : Nat} {level : Bool} (mode : s.fan.cmdMode = 1) : State.fanCmdDecode s.fan.cmdMode (.duty p hz level) =
    some (if hz = 0 then (if level then 100 else 0) else if hz < 1000 ∨ 100000 < hz then 100 else min 100 (p / 10),
      decide (hz < 1000 ∨ 100000 < hz), hz) := by
  rw [mode, State.fanCmdDecode, if_pos rfl]
  by_cases zero : hz = 0
  · rw [if_pos zero, if_pos zero, decide_eq_true (by omega)]
  · rw [if_neg zero, if_neg zero]
    by_cases bad : hz < 1000 ∨ 100000 < hz
    · rw [if_pos bad, if_pos bad, decide_eq_true bad]
    · rw [if_neg bad, if_neg bad, decide_eq_false bad]

theorem frequency_decodes {hz : Nat} (mode : s.fan.cmdMode = 2) : State.fanCmdDecode s.fan.cmdMode (.frequency hz) =
    some (if hz = 0 ∨ 1000 < hz then 100 else min 100 (hz / 10), decide (hz = 0 ∨ 1000 < hz), hz) := by
  rw [mode, State.fanCmdDecode, if_pos rfl]
  by_cases bad : hz = 0 ∨ 1000 < hz
  · rw [if_pos bad, if_pos bad, decide_eq_true bad]
  · rw [if_neg bad, if_neg bad, decide_eq_false bad]

/-- R508: the outputs take the command, the speeds and the duties. -/
theorem command_updates (run : s.pwr.pstate = .run) (has : s.part.fan = true) (four : s.fan.outs.length = 4) {rpms duties : List Nat}
    (r4 : rpms.length = 4) (d4 : duties.length = 4) :
    Goes (.fanCommandUpdate rpms duties) s (fun t => t = clocked { s with fan := { s.fan with outs := t.fan.outs } } t ∧
      ∀ i f, s.fan.outs[i]? = some f → ∃ r d g, rpms[i]? = some r ∧ duties[i]? = some d ∧ t.fan.outs[i]? = some g ∧
        g.cmdPct = (if f.state = 7 ∨ s.fan.enable.getLsbD i = false then 0 else s.fanTarget) ∧ g.rpm = r ∧ g.dutyPct = d ∧
        g.state = f.state ∧ g.lost = f.lost ∧ g.retries = f.retries ∧ g.starts = f.starts) := by
  refine goes_of_arises rfl (by rw [fanAlive_of run has, r4, d4]; rfl) ⟨rfl, fun i f at_ => ?_⟩
  have low := index_low four at_
  have r : rpms[i]? = some rpms[i] := List.getElem?_eq_getElem (by omega)
  have d : duties[i]? = some duties[i] := List.getElem?_eq_getElem (by omega)
  refine ⟨rpms[i], duties[i], _, r, d, (List.getElem?_mapIdx).trans (congrArg (Option.map _) at_), ?_, ?_, ?_, rfl, rfl, rfl, rfl⟩
  · dsimp only
    have same : (f.state = 7 ∨ (!s.fan.enable.getLsbD i) = true) = (f.state = 7 ∨ s.fan.enable.getLsbD i = false) := by rw [Bool.not_eq_true']
    simp only [same]
  · dsimp only
    rw [r]; rfl
  · dsimp only
    rw [d]; rfl

/-- R509, R510: the command that a loss of an output raises. -/
theorem fanTarget_eq (s : State) : s.fanTarget =
    let wanted := if 1 ≤ s.thm.level ∨ s.thm.fanFloor = true ∨ (s.fan.cmdSrc ≠ 2 ∧ s.pins.fanCmdPct = 0x7F) then 100
      else min 100 (max s.fan.minPct (if s.fan.cmdSrc = 1 then s.pins.fanCmdPct
        else if s.fan.cmdSrc = 2 then loopPct s.pwr.mode (max s.thm.dieTemp (s.thm.flashTemp + 25))
        else max (loopPct s.pwr.mode (max s.thm.dieTemp (s.thm.flashTemp + 25))) s.pins.fanCmdPct))
    if (s.fan.outs.filter (fun f => f.lost)).length = 0 then wanted
    else if (s.fan.outs.filter (fun f => f.lost)).length = 1 then min 100 (wanted * 4 / 3) else 100 := by
  have command : s.fanCommand = if 1 ≤ s.thm.level ∨ s.thm.fanFloor = true ∨ (s.fan.cmdSrc ≠ 2 ∧ s.pins.fanCmdPct = 0x7F) then 100
      else min 100 (max s.fan.minPct (if s.fan.cmdSrc = 1 then s.pins.fanCmdPct
        else if s.fan.cmdSrc = 2 then loopPct s.pwr.mode (max s.thm.dieTemp (s.thm.flashTemp + 25))
        else max (loopPct s.pwr.mode (max s.thm.dieTemp (s.thm.flashTemp + 25))) s.pins.fanCmdPct)) := by
    rw [State.fanCommand, Nat.max_comm (if s.fan.cmdSrc = 1 then _ else _)]
  dsimp only
  rw [← command, State.fanTarget, State.fansLost]
  generalize (s.fan.outs.filter (fun f => f.lost)).length = n
  rcases n with _ | _ | n
  · rfl
  · rfl
  · rw [if_neg (by omega), if_neg (by omega)]
    rfl

end Rail

/-- R460: a change of the live module number is told where it is not the strap's. -/
theorem modId_changes {s : State} (run : s.pwr.pstate = .run) {live : Nat} (late : 4 ≤ s.boot.step) (low : live < 8) :
    (live = s.pins.modIdStrap → Goes (.modIdChange live) s (fun t => t = { s with pins := { s.pins with modIdLive := live } })) ∧
    (live ≠ s.pins.modIdStrap → Goes (.modIdChange live) s (fun t => t.pins = { s.pins with modIdLive := live, srcIdChanged := true } ∧
      ∃ e, t.hif.raised = e :: s.hif.raised ∧ e.code = 0x0B00 ∧ e.payload = .fields [s.pins.modIdStrap, live])) := by
  have past : s.pastStep 4 = true := by rw [State.pastStep, run]; exact decide_eq_true late
  have int : (live : Int) % 8 = live := by omega
  obtain ⟨u, hu⟩ : ∃ u : State, u = { s with pins := { s.pins with modIdLive := live, srcIdChanged := true } } := ⟨_, rfl⟩
  have run' : exec (.modIdChange live) s = arises (s.pastStep 4) "MOD_ID_CHANGE" (if live = s.pins.modIdStrap then
      { s with pins := { s.pins with modIdLive := live } } else u.event 0x0B00 2 srcHost 0 [(s.pins.modIdStrap : Int), live]) := by
    rw [show exec (.modIdChange live) s = execModIdChange live s from rfl, execModIdChange, Nat.mod_eq_of_lt low, int, hu]
  refine ⟨fun same => goes_of_arises run' past (if_pos same), fun other => goes_of_arises run' past ?_⟩
  rw [if_neg other, event_pins, raised_event, if_neg (by decide), hu]
  exact ⟨rfl, _, rfl, rfl, rfl⟩

/-- Settles O54 (R10, R457, R499 to R516). -/
theorem thermalLevelsAndFansFollowTheirRules : Obligations.ThermalLevelsAndFansFollowTheirRules := fun s run =>
  ⟨fun _ _ _ serves enough => ⟨reading_calm run serves enough, reading_notice run serves enough, reading_critical run serves enough,
      reading_trips run serves enough, fun unmounted none => reading_takes_out run serves unmounted none⟩,
    fun _ _ _ live canonical zero cool critical trip _ _ => flash_reading run live canonical zero cool critical trip,
    fun _ six => board_reading run six,
    fun w opened => by
      intro k lim stop mine
      have source : lim = s.limits k := by
        by_cases flash : s.thm.source = 1
        · simp only [lim, k, State.limits, if_pos flash, if_true]
        · simp only [lim, k, State.limits, if_neg flash]
          rfl
      have own : mine = windowReadings s k w (w + s.graceNs) := by
        simp only [mine, windowReadings, Bool.decide_and, Bool.and_assoc]
        rfl
      rw [source]
      clear_value lim
      refine ⟨fun r first hot => ?_, fun some_ cool low floor => ?_, fun none => ?_⟩
      · obtain ⟨rest, eq⟩ := List.head?_eq_some_iff.mp first
        exact window_goes opened (window_hot rfl (own ▸ eq) hot)
      · obtain ⟨r, rest, eq⟩ := List.exists_cons_of_ne_nil some_
        obtain ⟨falls, ends⟩ := window_cool (w := w) rfl (own ▸ eq) (eq ▸ cool) low floor
        refine ⟨fun high => window_goes opened (falls high), fun last other => window_goes opened (ends last ?_)⟩
        by_cases flash : s.thm.source = 1
        · have one : k = 1 := if_pos flash
          rw [if_pos one] at other
          have zero : 1 - (if s.thm.source = 1 then 1 else 0) = 0 := by rw [if_pos flash]
          rw [zero]
          exact other
        · have none : k = 0 := if_neg flash
          rw [if_neg (by omega)] at other
          have one : 1 - (if s.thm.source = 1 then 1 else 0) = 1 := by rw [if_neg flash]
          rw [one]
          exact other
      · refine window_goes opened ?_
        rw [window_silent rfl (own ▸ none)]
        exact ⟨rfl, rfl⟩,
    fun has four =>
      ⟨fun rpms duties r4 d4 => by
          have updates := command_updates run has four r4 d4
          rw [fanTarget_eq] at updates
          cases mode : s.pwr.mode with
          | galop => rw [mode] at updates; exact updates
          | waltz => rw [mode] at updates; exact updates
          | minuet => rw [mode] at updates; exact updates,
        fun i f at_ =>
          ⟨fun rests en gates => start_tests run has four at_ rests en gates,
            fun two p => ⟨fun fast => start_advances run has four at_ (by
                rw [State.fanStep, fanOut_of (s := s.startClock 7) at_, if_pos two, if_pos fast]),
              fun back => start_advances run has four at_ (by
                rw [State.fanStep, fanOut_of (s := s.startClock 7) at_, if_pos two, if_neg (by omega), if_pos back]),
              fun low high => start_advances run has four at_ (by
                rw [State.fanStep, fanOut_of (s := s.startClock 7) at_, if_pos two, if_neg (by omega), if_neg (by omega)])⟩,
            fun three => start_advances run has four at_ (by rw [State.fanStep, fanOut_of (s := s.startClock 7) at_, if_pos three]),
            fun four_ => start_advances run has four at_ (by rw [State.fanStep, fanOut_of (s := s.startClock 7) at_, if_pos four_]),
            fun five => start_advances run has four at_ (by rw [State.fanStep, fanOut_of (s := s.startClock 7) at_, if_pos five]),
            fun now_ turns _ => ⟨crossing_early run has at_ turns, crossing_counts run has four at_ turns⟩,
            fun low high c => by
              obtain ⟨becomes, bit, held, free, told, floor, stays⟩ := fanFault_facts (s := s.startClock 7) four at_ c
              refine fan_faults run has at_ low high c ⟨becomes, ?_, held, free, told, floor, stays⟩
              cases c <;> exact bit,
            fun low high => by
              obtain ⟨⟨g, becomes, seven, -⟩, bit, -⟩ := fanFault_facts (s := s.startClock 7) four at_ .startFail
              exact start_goes run has (by
                rw [State.fanStep, fanOut_of (s := s.startClock 7) at_, if_pos (.inl ⟨low, high⟩)]) ⟨⟨g, becomes, seven⟩, bit⟩,
            fun failed free => retry_starts run has four at_ failed free,
            fun turns lost => fan_recovers run has four at_ turns lost,
            fun held => held_clears run has four at_ held⟩,
        rail_moves run has,
        fun m pct bad measured => by
          obtain ⟨mv, mode, rfl, rfl, rfl⟩ | ⟨p, hz, level, mode, rfl, rfl, rfl⟩ | ⟨hz, mode, rfl, rfl, rfl⟩ := measured
          · exact command_measured run has (analogue_decodes mode)
          · exact command_measured run has (duty_decodes mode)
          · exact command_measured run has (frequency_decodes mode)⟩,
    fun absent => ⟨fun m => ⟨s, by
        rw [show exec (.fanCmdMeasurement m) s = execFanCmdMeasurement m s from rfl, execFanCmdMeasurement, absent]; rfl, rfl⟩,
      fun i => ⟨s, by rw [show exec (.heldOffClear i) s = execHeldOffClear i s from rfl, execHeldOffClear, absent]; rfl, rfl⟩⟩,
    fun _ late low => modId_changes run late low⟩

end Sys2Proof.Proofs
end

section
/-! SUPPORT for O38: what a change of a compartment's state keeps, and how a Compartment Control command reaches its operation. -/

namespace Sys2Proof.Proofs

open Sys2Proof Sys2Proof.Machine

section Restored

variable {V : Type} [DecidableEq V]

/-- An entry that is written over with what stood there before leaves the table as it was. -/
theorem put_put_look (d : V) (k : Nat) (v : V) : ∀ (lo : Nat) (m : SMap V), canonFrom d lo m = true → put d (put d m k v) k (look d m k) = m
  | _, [], _ => by
    rw [put, look]
    split
    · rw [put, if_pos rfl]
    · rw [put, if_neg (Nat.lt_irrefl k), if_pos rfl, if_pos rfl]
  | lo, (j, w) :: r, h => by
    simp only [canonFrom, Bool.and_eq_true, decide_eq_true_eq] at h
    obtain ⟨⟨-, used⟩, rest⟩ := h
    by_cases below : k < j
    · rw [put, if_pos below, look, if_neg (show ¬ j = k by omega), look_below _ _ _ _ rest (by omega)]
      split
      · rw [put, if_pos below, if_pos rfl]
      · rw [put, if_neg (Nat.lt_irrefl k), if_pos rfl, if_pos rfl]
    · by_cases same : k = j
      · subst same
        rw [put, if_neg below, if_pos rfl, look, if_pos rfl]
        split
        · cases r with
          | nil => rw [put, if_neg used]
          | cons e r =>
            obtain ⟨i, x⟩ := e
            simp only [canonFrom, Bool.and_eq_true, decide_eq_true_eq] at rest
            rw [put, if_pos (by omega), if_neg used]
        · rw [put, if_neg (Nat.lt_irrefl k), if_pos rfl, if_neg used]
      · rw [put, if_neg below, if_neg same, look, if_neg (Ne.symm same), put, if_neg below, if_neg same, put_put_look d k v _ _ rest]

end Restored

section Table

variable {s t u : State}

/-- Of the compartments only their own records change, and their table stays canonical. -/
def TableOnly (s t : State) : Prop :=
  t.cmp = { s.cmp with table := t.cmp.table } ∧ (canon Comp.free s.cmp.table = true → canon Comp.free t.cmp.table = true)

theorem TableOnly.refl (s : State) : TableOnly s s := ⟨rfl, id⟩

theorem TableOnly.of_eq (e : t.cmp = s.cmp) : TableOnly s t := ⟨by rw [e], by rw [e]; exact id⟩

theorem TableOnly.trans (a : TableOnly s t) (b : TableOnly t u) : TableOnly s u :=
  ⟨by rw [b.1, a.1], fun h => b.2 (a.2 h)⟩

theorem TableOnly.pasids (a : TableOnly s t) : t.cmp.pasids = s.cmp.pasids := by rw [a.1]

theorem tableOnly_setComp (s : State) (n : Nat) (v : Comp) : TableOnly s (s.setComp n v) := ⟨rfl, fun h => canon_put _ _ _ _ h⟩

theorem tableOnly_compIrq (s : State) (n bit : Nat) : TableOnly s (s.compIrq n bit) := by
  unfold State.compIrq
  dsimp only
  split
  · exact tableOnly_setComp _ _ _
  · exact (tableOnly_setComp _ _ _).trans (.of_eq (interrupt_cmp _ _ _))

theorem tableOnly_toCompRing (s : State) (e : EvRec) : TableOnly s (s.toCompRing e) := by
  have asks : ∀ (g : HostLink) (bit : Nat), TableOnly s (({ s with hif := g } : State).compIrq e.comp bit) := fun g bit =>
    tableOnly_compIrq { s with hif := g } _ _
  unfold State.toCompRing
  split
  · exact .refl _
  · split
    · exact .refl _
    · next r _ =>
      cases State.ringPush r e with
      | none => exact asks _ _
      | some pushed => exact asks _ _

theorem tableOnly_event (s : State) (code level source c : Nat) (fields : List Int) : TableOnly s (s.event code level source c fields) := by
  have rings : ∀ (t : State) (e : EvRec), t.cmp = s.cmp → TableOnly s (((t.toStewardRing e).toCompRing e).toReels e) := fun t e same =>
    (TableOnly.of_eq ((toStewardRing_cmp t e).trans same)).trans (tableOnly_toCompRing (t.toStewardRing e) e)
  unfold State.event State.raise
  dsimp only
  split <;> split <;> exact rings _ _ rfl

end Table

section CompState

variable {s : State} {n : Nat} {st : CState}

/-- The state that a compartment takes is neither that of a free one, nor the one it has. -/
theorem compState_comp (used : st ≠ .free) (other : (s.comp n).state ≠ st) :
    Interrupted { s.comp n with state := st, since := s.now } ((s.compState n st).comp n) := by
  obtain ⟨w, hw⟩ : ∃ w : Comp, w = { s.comp n with state := st, since := s.now } := ⟨_, rfl⟩
  have real : w ≠ Comp.free := fun e => used (by rw [show st = w.state by rw [hw], e]; rfl)
  have put_ : (s.setComp n w).comp n = w := look_put_of_ne _ _ _ _ real
  have asks := comp_compIrq (s.setComp n w) n (bit := 0) (by decide) n
  rw [put_] at asks
  have all := asks.trans (comp_event ((s.setComp n w).compIrq n 0) 0x0900 1 srcHost n [(s.comp n).state.code, st.code] n)
  unfold State.compState
  dsimp only
  rw [if_neg other, ← hw]
  exact all

theorem compState_state (used : st ≠ .free) : ((s.compState n st).comp n).state = st := by
  by_cases same : (s.comp n).state = st
  · unfold State.compState
    dsimp only
    rw [if_pos same]
    exact same
  · exact congrArg Comp.state (compState_comp used same).1

theorem compState_tableOnly (s : State) (n : Nat) (st : CState) : TableOnly s (s.compState n st) := by
  unfold State.compState
  dsimp only
  split
  · exact .refl _
  · exact ((tableOnly_setComp s n _).trans (tableOnly_compIrq _ _ _)).trans (tableOnly_event _ _ _ _ _ _)

theorem compState_frame (s : State) (n : Nat) (st : CState) : EventFrame s (s.compState n st) := by
  unfold State.compState
  dsimp only
  split
  · exact .refl _
  · exact ((EventFrame.comps s _).trans (compIrq_frame _ _ _)).trans (event_frame _ _ _ _ _ _)

theorem compState_hears (s : State) (n : Nat) (st : CState) : Hears s.hif (s.compState n st).hif := by
  unfold State.compState
  dsimp only
  split
  · exact .refl _
  · exact (hears_compIrq (s.setComp n _) _ _).trans (hears_event _ _ _ _ _ _)

end CompState

section Reaches

variable {s : State} {h : HostCmd} {n : Nat} {x : CtlCmd}

/-- A command that finds none waiting on its compartment and may start is carried out at once. -/
theorem control_acts (tables : canon Comp.free s.cmp.table = true) (empty : (s.comp n).control = []) (still : (s.comp n).reset = none)
    (calm : (s.comp n).state ≠ .freezing ∧ (s.comp n).state ≠ .saving) (thaws : x.op = .freeze → (s.comp n).state ≠ .resetting) :
    s.control n x = s.controlAct n x := by
  obtain ⟨w, hw⟩ : ∃ w : Comp, w = { s.comp n with control := [x] } := ⟨_, rfl⟩
  have here : (s.setComp n w).comp n = w := look_put _ _ _ _ tables
  have back : (s.setComp n w).setComp n { w with control := [] } = s := by
    have same : ({ w with control := [] } : Comp) = s.comp n := by rw [hw, ← empty]
    rw [same]
    exact congrArg (fun m => { s with cmp := { s.cmp with table := m } }) (put_put_look Comp.free n w 0 s.cmp.table tables)
  have idle : (s.setComp n w).controlBusy n = false := by
    rw [State.controlBusy, here, hw]
    dsimp only
    rw [still, decide_eq_false calm.1, decide_eq_false calm.2]
    rfl
  have may : (s.setComp n w).controlReady n x = true := by
    rw [State.controlReady, idle, here, hw]
    by_cases freeze : x.op = .freeze
    · rw [decide_eq_false (thaws freeze), Bool.and_false]
      rfl
    · rw [decide_eq_false freeze]
      rfl
  have one : w.control = [x] := by rw [hw]
  unfold State.control
  dsimp only
  split
  · rfl
  · rw [empty, List.nil_append, ← hw, State.settleControl, here, one, List.length_singleton, State.drainControl, here, one]
    dsimp only
    rw [if_pos may, back, State.drainControl]

theorem fetch_comp (s : State) (h : HostCmd) (c : Nat) : (s.fetch h).comp c = s.comp c := rfl

/-- What the compartment of a ready command says: it carries the operation out on the state that fetched it. -/
theorem control_runs {c : Nat} {i : Instr} {name : String} {ok : Bool} {op : CtlOp} (r : ControlReady s h c)
    (run : exec i s = compartmentControl name h c ok op s) (fine : ok = true)
    (calm : (s.comp c).state ≠ .freezing ∧ (s.comp c).state ≠ .saving) (thaws : op = .freeze → (s.comp c).state ≠ .resetting) :
    exec i s = .next ((s.fetch h).controlAct c { cmd := h, op := op }) := by
  obtain ⟨empty, still, -⟩ := r.alone
  have acts : (s.fetch h).control c { cmd := h, op := op } = (s.fetch h).controlAct c { cmd := h, op := op } :=
    control_acts (s := s.fetch h) r.tables.comps empty still calm thaws
  rw [run, compartmentControl, admin_run r.ready (.inl r.steward), ← acts, fine]
  rfl

theorem isTenant_of {c : Nat} (tenant : 1 ≤ c ∧ c < 1024) : isTenant c = true := by
  rw [isTenant, decide_eq_true tenant.1, decide_eq_true tenant.2]
  rfl

theorem portOk_of {p : Nat} (port : p = 0 ∨ p = 1 ∧ s.hif.dual = true) : Machine.portOk s p = true := by
  obtain rfl | ⟨rfl, dual⟩ := port
  · rfl
  · rw [Machine.portOk, dual]
    rfl

end Reaches

end Sys2Proof.Proofs
end

section
/-! SUPPORT for O38: the operations of Compartment Control that create, delete, reset, freeze, thaw and map (R347, R348, R360, R364,
R372). -/

namespace Sys2Proof.Proofs

open Sys2Proof Sys2Proof.Machine

section Journalled

variable {s : State}

theorem journal_tables (s : State) : s.journal.cmp = s.cmp ∧ Hears s.hif s.journal.hif ∧ s.journal.sec = s.sec := by
  unfold State.journal State.takeSeq
  dsimp only
  split
  · refine ⟨event_cmp _ _ _ _ _, hears_event _ _ _ _ _ _, ?_⟩
    rw [(event_frame _ _ _ _ _ _).rest]
  · exact ⟨rfl, rfl, rfl⟩

theorem done_tables (s : State) (h : HostCmd) (dw : BitVec 32) : (s.done h dw).cmp = s.cmp ∧ (s.done h dw).sec = s.sec ∧ (s.done h dw).car = s.car := by
  rw [done_rest]
  exact ⟨rfl, rfl, rfl⟩

theorem hears_queues {a b : HostLink} (x : Hears a b) : b.queues = a.queues := by rw [x]

end Journalled

section Refused

variable {s : State} {h : HostCmd} {c : Nat} {i : Instr}

/-- A command that its operation refuses completes with that status, and leaves its compartment. -/
theorem refused_goes {st : Status} (run : exec i s = .next ((s.fetch h).fail h st)) :
    Goes i s (fun t => Completed t h st ∧ (t.comp c).state = (s.comp c).state) := by
  refine ⟨_, run, completed_complete _ _ _ _ _, ?_⟩
  obtain ⟨same, -⟩ := complete_host (s.fetch h) h st 0 0
  have cmp : ((s.fetch h).fail h st).cmp = (s.fetch h).cmp := by rw [State.fail, same]
  rw [State.comp, cmp]
  rfl

end Refused

section Created

variable {s : State} {n p : Nat}

/-- Of a compartment only what is reserved of its floor changes. -/
def FloorOnly (v w : Comp) : Prop := w = { v with res := { v.res with reserved := w.res.reserved } }

theorem FloorOnly.refl (v : Comp) : FloorOnly v v := rfl

theorem FloorOnly.trans {u v w : Comp} (a : FloorOnly u v) (b : FloorOnly v w) : FloorOnly u w := by
  rw [FloorOnly] at *
  rw [b, a]

theorem refillFloors_comp (s : State) (n : Nat) : FloorOnly (s.comp n) (s.refillFloors.comp n) := by
  unfold State.refillFloors
  split
  · exact .refl _
  · next e _ =>
    split
    · by_cases same : n = e.1
      · obtain ⟨w, hw⟩ : ∃ w : Comp, w = { s.comp e.1 with res := { (s.comp e.1).res with reserved := (s.comp e.1).res.reserved + 1 } } := ⟨_, rfl⟩
        have real : w ≠ Comp.free := fun x => by
          have none_ : w.res.reserved = 0 := by rw [x]; rfl
          rw [hw] at none_
          exact absurd none_ (Nat.succ_ne_zero _)
        have put_ : (s.setComp e.1 w).comp n = w := by rw [same]; exact look_put_of_ne _ _ _ _ real
        rw [← hw, put_, same, hw]
        exact rfl
      · rw [State.comp_setComp_other _ _ _ _ same]
        exact .refl _
    · exact .refl _

theorem refillFloors_foldl_comp (n : Nat) : ∀ (l : List Nat) (s : State),
    FloorOnly (s.comp n) ((l.foldl (fun (t : State) _ => t.refillFloors) s).comp n)
  | [], _ => .refl _
  | _ :: l, s => (refillFloors_comp s n).trans (refillFloors_foldl_comp n l s.refillFloors)

/-- A compartment that has a floor is not free. -/
theorem used_of_floor {v : Comp} (floor : v.res.floor = 2) : v ≠ Comp.free := fun e => absurd (floor.symm.trans (by rw [e])) (by decide)

/-- A new compartment is Active, with the floor and the class of its defaults (R348, R349, R358). -/
theorem createComp_facts (tables : canon Comp.free s.cmp.table = true) (n p : Nat) :
    ((s.createComp n p).comp n).state = .active ∧ ((s.createComp n p).comp n).port = p ∧ ((s.createComp n p).comp n).en = false ∧
      ((s.createComp n p).comp n).res.floor = 2 ∧ ((s.createComp n p).comp n).res.cls = 2 ∧
      ((s.createComp n p).comp n).res.queuePairs = 0 ∧ ((s.createComp n p).comp n).res.activeQuota = 0 := by
  obtain ⟨a, ha⟩ : ∃ a, a = s.setComp n { Comp.free with port := p } := ⟨_, rfl⟩
  have blank : a.comp n = { Comp.free with port := p } := by rw [ha]; exact look_put _ _ _ _ tables
  have active := compState_comp (s := a) (n := n) (st := .active) (by decide)
    (by rw [blank]; exact (by decide : CState.free ≠ .active))
  rw [blank] at active
  obtain ⟨b, hb⟩ : ∃ b : State, b = { a.compState n .active with
      hif := { (a.compState n .active).hif with compFeat := put none (a.compState n .active).hif.compFeat n (some Features.reset) } } := ⟨_, rfl⟩
  have same : b.comp n = (a.compState n .active).comp n := by rw [hb]; rfl
  rw [← same] at active
  obtain ⟨v, hv⟩ : ∃ v : Comp, v = { b.comp n with res := { (b.comp n).res with floor := 2, reserved := min (b.comp n).res.reserved 2 } } := ⟨_, rfl⟩
  have put_v : (b.setComp n v).comp n = v := look_put_of_ne _ _ _ _ (used_of_floor (by rw [hv]))
  have filled := refillFloors_foldl_comp n (List.range (2 - (b.comp n).res.floor)) (b.setComp n v)
  obtain ⟨u, hu⟩ : ∃ u, u = (List.range (2 - (b.comp n).res.floor)).foldl (fun (t : State) _ => t.refillFloors) (b.setComp n v) := ⟨_, rfl⟩
  rw [← hu, put_v] at filled
  obtain ⟨w, hw⟩ : ∃ w : Comp, w = { u.comp n with res := { (u.comp n).res with cls := 2 } } := ⟨_, rfl⟩
  have floor : w.res.floor = 2 := by rw [hw, filled, hv]
  have put_w : (u.setComp n w).comp n = w := look_put_of_ne _ _ _ _ (used_of_floor floor)
  have made : s.createComp n p = (u.setComp n w).journal := by rw [hw, hu, hv, hb, ha]; rfl
  have last : (s.createComp n p).comp n = w := by
    rw [made, State.comp, (journal_tables _).1]
    exact put_w
  rw [last, hw, filled, hv, active.1]
  exact ⟨rfl, rfl, rfl, rfl, rfl, rfl, rfl⟩

end Created

section Deleted

variable {s : State} {n : Nat}

/-- A deleted compartment is Free: its key is gone, and so are its PASIDs and queues (R348, R372). -/
theorem freeComp_facts (tables : canon Comp.free s.cmp.table = true) (keys : canon 0 s.sec.keys = true) (n : Nat) :
    (s.freeComp n).comp n = Comp.free ∧ look 0 (s.freeComp n).sec.keys n = 0 ∧ (∀ e ∈ (s.freeComp n).cmp.pasids, e.2.2 ≠ n) ∧
      ∀ q ∈ (s.freeComp n).hif.queues, q.ctl ≠ 1 + n := by
  obtain ⟨a, ha⟩ : ∃ a, a = (s.compState n .free).setComp n Comp.free := ⟨_, rfl⟩
  have blank : a.comp n = Comp.free := by
    rw [ha]
    exact look_put _ _ _ _ ((compState_tableOnly s n .free).2 tables)
  have sec : a.sec = s.sec := by rw [ha]; exact (congrArg State.sec (compState_frame s n .free).rest :)
  have erased : a.eraseKey n = { a with sec := { a.sec with keys := put 0 a.sec.keys n 0 } } := by
    unfold State.eraseKey
    dsimp only
    rw [if_neg (fun x => x.2.2 (by rw [blank]; rfl))]
  obtain ⟨b, hb⟩ : ∃ b, b = a.eraseKey n := ⟨_, rfl⟩
  have comp : b.comp n = Comp.free := by rw [hb, erased]; exact blank
  have gone : look 0 b.sec.keys n = 0 := by
    rw [hb, erased, sec]
    exact look_put _ _ _ _ keys
  obtain ⟨c, made, cmp, sec', queues⟩ : ∃ c : State, s.freeComp n = c.journal ∧
      c.cmp = { b.cmp with pasids := b.cmp.pasids.filter (fun e => decide (e.2.2 ≠ n)) } ∧ c.sec = b.sec ∧
      c.hif.queues = b.hif.queues.filter (fun q => decide (q.ctl ≠ 1 + n)) := by
    rw [hb, ha]
    exact ⟨_, rfl, rfl, rfl, rfl⟩
  obtain ⟨cmp', hif, sec''⟩ := journal_tables c
  rw [made]
  refine ⟨?_, ?_, fun e mem => ?_, fun q mem => ?_⟩
  · rw [State.comp, cmp', cmp]
    exact comp
  · rw [sec'', sec']
    exact gone
  · rw [cmp', cmp] at mem
    exact of_decide_eq_true (List.mem_filter.mp mem).2
  · rw [hears_queues hif, queues] at mem
    exact of_decide_eq_true (List.mem_filter.mp mem).2

end Deleted

section Resets

variable {s : State} {n : Nat}

/-- The reset of an Active compartment of which no reel runs begins (R360). -/
theorem beginReset_facts (k : ResetKind) (active : (s.comp n).state = .active) (still : (s.comp n).reset = none) (reels : s.compReels n = []) :
    ((s.beginReset n k).comp n).state = .resetting ∧ ((s.beginReset n k).comp n).en = false ∧
      ((s.beginReset n k).comp n).fetchStopped = true ∧ ((s.beginReset n k).comp n).resetByHost = decide (k = .host) ∧
      ((s.beginReset n k).comp n).reset = some { kinds := [k], at_ := s.now, squashed := false } := by
  obtain ⟨v, hv⟩ : ∃ v : Comp, v = { s.comp n with
      en := false, rdy := false, cfs := false, fetchStopped := true, resetByHost := decide (k = .host)
      wasFrozen := decide ((s.comp n).state ≠ .active)
      reset := some { kinds := [k], at_ := s.now, squashed := false } } := ⟨_, rfl⟩
  have real : v ≠ Comp.free := fun e => by
    have off : v.fetchStopped = false := by rw [e]; rfl
    rw [hv] at off
    exact Bool.noConfusion off
  have put_ : (s.setComp n v).comp n = v := look_put_of_ne _ _ _ _ real
  have resets := compState_comp (s := s.setComp n v) (n := n) (st := .resetting) (by decide) (by rw [put_, hv]; exact (by rw [active]; decide))
  rw [put_] at resets
  have none_ : ((s.setComp n v).compState n .resetting).compReels n = [] := by
    have ctxs : ((s.setComp n v).compState n .resetting).kry.ctxs = s.kry.ctxs :=
      (congrArg (fun t : State => t.kry.ctxs) (compState_frame (s.setComp n v) n .resetting).rest :)
    rw [State.compReels, ctxs]
    exact reels
  have run : s.beginReset n k = (s.setComp n v).compState n .resetting := by
    unfold State.beginReset
    dsimp only
    rw [still]
    dsimp only
    rw [if_pos (.inl active), ← hv, none_]
    rfl
  rw [run, resets.1, hv]
  exact ⟨rfl, rfl, rfl, rfl, rfl⟩

end Resets

end Sys2Proof.Proofs
end

section
/-! SUPPORT for O38: the length of a compartment record depends on what it counts alone (R366, R367), and a Save that ends (R365). -/

namespace Sys2Proof.Proofs

open Sys2Proof Sys2Proof.Machine

section Lengths

variable {s : State} {n : Nat}

theorem length_flatMap_const {α : Type} {f : α → List Byte} {k : Nat} : ∀ {l : List α}, (∀ x ∈ l, (f x).length = k) → (l.flatMap f).length = k * l.length
  | [], _ => rfl
  | x :: l, h => by
    rw [List.flatMap_cons, List.length_append, h x List.mem_cons_self,
      length_flatMap_const fun y mem => h y (List.mem_cons_of_mem _ mem), List.length_cons]
    ring

theorem length_queueEntry {s : State} {n : Nat} {e : List Byte} (mem : e ∈ s.queueEntries n) : e.length = 32 := by
  unfold State.queueEntries at mem
  obtain ⟨i, -, rfl⟩ := List.mem_map.mp mem
  simp only [List.length_append, length_leBytes]

theorem length_groupEntry (s : State) (p : Nat) : (s.groupEntry p).length = 16 := by
  unfold State.groupEntry
  split
  · simp only [List.length_append, length_leBytes]
  · exact length_leBytes _ _

theorem length_carriageEntry (s : State) (i : Nat) : (s.carriageEntry i).length = 32 := by
  unfold State.carriageEntry
  simp only [List.length_append, length_leBytes]

theorem length_wrappedKey (s : State) (slot : Nat) : (s.wrappedKey slot).length = 72 := by
  rw [State.wrappedKey, List.length_map, List.length_range]

/-- The length of a compartment record. -/
def recordSize (s : State) (n : Nat) : Nat :=
  256 + 8 * (s.compPasids n).length + 32 * (s.queueEntries n).length + 16 * (s.compGroups n).length + 32 * (s.compCarriages n).length +
    ((s.compContexts n).flatMap (fun x => leBytes 2 x ++ leBytes 6 0 ++ stateRecord (s.codecCtx x).st)).length + 8

theorem length_compRecord (s : State) (n : Nat) : (s.compRecord n).length = recordSize s n := by
  have pasids : ∀ v : Comp, ((s.compPasids n).flatMap fun e => leBytes 8 (e.2 + (if e.2 = v.apasid then 2 ^ 32 else 0))).length =
      8 * (s.compPasids n).length := fun v => length_flatMap_const fun x _ => length_leBytes _ _
  have queues : (s.queueEntries n).flatten.length = 32 * (s.queueEntries n).length := by
    rw [← List.flatMap_id]
    exact length_flatMap_const fun x mem => length_queueEntry mem
  have groups : ((s.compGroups n).flatMap s.groupEntry).length = 16 * (s.compGroups n).length :=
    length_flatMap_const fun x _ => length_groupEntry s x
  have cars : ((s.compCarriages n).flatMap s.carriageEntry).length = 32 * (s.compCarriages n).length :=
    length_flatMap_const fun x _ => length_carriageEntry s x
  have shares : ∀ f : Nat → Nat, ((List.range 16).flatMap fun k => leBytes 2 (f k)).length = 32 := fun f =>
    length_flatMap_const fun x _ => length_leBytes _ _
  have key : ∀ b : Bool, (if b = true then s.wrappedKey n else leBytes 72 0).length = 72 := fun b => by
    split
    · exact length_wrappedKey _ _
    · exact length_leBytes _ _
  unfold State.compRecord
  dsimp only
  simp only [List.length_append, length_leBytes, pasids, queues, groups, cars, key]
  rw [shares, recordSize]

/-- Two states whose PASIDs, queues, groups, carriages and codec contexts are the same in number have records of one length. -/
theorem recordSize_congr {t : State} {g : Queue → Queue} (names : SameName g) (queues : t.hif.queues = s.hif.queues.map g)
    (pasids : t.cmp.pasids = s.cmp.pasids) (zns : t.zns = s.zns) (car : t.car = s.car) (fcd : t.fcd = s.fcd) (n : Nat) :
    recordSize t n = recordSize s n := by
  have compPasids : t.compPasids n = s.compPasids n := by rw [State.compPasids, pasids]; rfl
  have compGroups : t.compGroups n = s.compGroups n := by
    unfold State.compGroups State.pgroup
    rw [zns]
  have compCarriages : t.compCarriages n = s.compCarriages n := by rw [State.compCarriages, car]; rfl
  have compContexts : t.compContexts n = s.compContexts n := by rw [State.compContexts, fcd]; rfl
  have ctx : ∀ x, t.codecCtx x = s.codecCtx x := fun x => by rw [State.codecCtx, fcd]; rfl
  have mine : ∀ i, ((t.hif.queues.filter fun q => decide (q.ctl = 1 + n)).any fun q => decide (q.qid = i)) =
      (s.hif.queues.filter fun q => decide (q.ctl = 1 + n)).any fun q => decide (q.qid = i) := fun i => by
    rw [queues, List.any_filter, List.any_filter, List.any_map]
    refine congrArg (s.hif.queues.any ·) (funext fun q => ?_)
    obtain ⟨ctl, qid, -⟩ := names q
    show (decide ((g q).ctl = 1 + n) && decide ((g q).qid = i)) = _
    rw [ctl, qid]
  have entries : (t.queueEntries n).length = (s.queueEntries n).length := by
    unfold State.queueEntries
    dsimp only
    rw [List.length_map, List.length_map]
    exact congrArg List.length (List.filter_congr fun i _ => mine i)
  rw [recordSize, recordSize, compPasids, compGroups, compCarriages, compContexts, entries]
  simp only [ctx]

end Lengths

section Saved

variable {s : State} {n : Nat} {h : HostCmd}

theorem out_takeSeq {o : Output} (mem : o ∈ s.hif.out) (k : Nat) : o ∈ (s.takeSeq k).2.hif.out := by
  obtain ⟨u, hu⟩ : ∃ u : State, u = { s with zns := { s.zns with seq := min State.seqMax (s.zns.seq + k) } } := ⟨_, rfl⟩
  have here : o ∈ u.hif.out := by rw [hu]; exact mem
  unfold State.takeSeq
  dsimp only
  rw [← hu]
  split
  · exact out_event here _ _ _ _ _
  · exact here

theorem out_journal {o : Output} (mem : o ∈ s.hif.out) : o ∈ s.journal.hif.out := by
  have taken := out_takeSeq mem 1
  rw [State.journal]
  generalize (s.takeSeq 1).2 = t at taken
  exact taken

/-- A Save whose buffer is long enough answers the record, and the compartment is Saved under the time as its token (R365). -/
theorem endSave_facts (waits : (s.comp n).waiting = some h) (fits : (s.compRecord n).length ≤ (s.comp n).saveBytes) :
    Completed (s.endSave n) h .success ∧ ((s.endSave n).comp n).state = .saved ∧ ((s.endSave n).comp n).token = some s.now ∧
      ((s.endSave n).comp n).en = false ∧ Output.data h (s.compRecord n) ∈ (s.endSave n).hif.out := by
  obtain ⟨v, hv⟩ : ∃ v : Comp, v = { s.comp n with en := false, rdy := false, waiting := none, token := some s.now, reset := none } := ⟨_, rfl⟩
  obtain ⟨a, ha⟩ : ∃ a, a = (s.strip n).setComp n v := ⟨_, rfl⟩
  have real : v ≠ Comp.free := fun e => by
    have none_ : v.token = none := by rw [e]; rfl
    rw [hv] at none_
    exact absurd none_ (Option.some_ne_none _)
  have put_ : a.comp n = v := by rw [ha]; exact look_put_of_ne _ _ _ _ real
  obtain ⟨b, hb⟩ : ∃ b, b = a.compState n .saved := ⟨_, rfl⟩
  have state : (b.comp n).state = .saved := by rw [hb]; exact compState_state (by decide)
  have kept : (b.comp n).token = some s.now ∧ (b.comp n).en = false := by
    by_cases same : (a.comp n).state = .saved
    · have idle : b = a := by
        rw [hb]
        unfold State.compState
        dsimp only
        rw [if_pos same]
      rw [idle, put_, hv]
      exact ⟨rfl, rfl⟩
    · have moved := (compState_comp (s := a) (n := n) (st := .saved) (by decide) same).1
      rw [← hb, put_, hv] at moved
      rw [moved]
      exact ⟨rfl, rfl⟩
  have run : s.endSave n = ((b.emit (.data h (s.compRecord n))).done h (BitVec.ofNat 32 (s.compRecord n).length)).journal := by
    unfold State.endSave
    dsimp only
    rw [if_neg (Nat.not_lt.mpr fits), waits, hb, ha, hv]
  obtain ⟨c, hc⟩ : ∃ c, c = (b.emit (.data h (s.compRecord n))).done h (BitVec.ofNat 32 (s.compRecord n).length) := ⟨_, rfl⟩
  have cmp : c.comp n = b.comp n := by
    rw [State.comp, hc, (done_tables _ _ _).1]
    rfl
  have data : Output.data h (s.compRecord n) ∈ c.hif.out := by
    rw [hc]
    exact out_complete List.mem_cons_self _ _ _ _
  have answered : Completed c h .success := by rw [hc]; exact completed_complete _ _ _ _ _
  obtain ⟨cmp', hif, -⟩ := journal_tables c
  rw [run, ← hc]
  obtain ⟨e, entry, cmd, status, dnr⟩ := answered
  refine ⟨⟨e, out_journal entry, cmd, status, dnr⟩, ?_, ?_, ?_, out_journal data⟩ <;> rw [State.comp, cmp', ← State.comp, cmp]
  · exact state
  · exact kept.1
  · exact kept.2

end Saved

end Sys2Proof.Proofs
end

section
/-! Settles O38: the Compartment Control commands take effect on their compartment (R343, R347 to R349, R360, R364, R365, R369, R372). -/

namespace Sys2Proof.Proofs

open Sys2Proof Sys2Proof.Machine

section Commands

variable {s : State} {h : HostCmd} {c p x : Nat}

theorem exec_create (h : HostCmd) (c p : Nat) (s : State) : exec (.compartmentCreate h c p) s =
    compartmentControl "COMPARTMENT_CREATE" h c (isTenant c && Machine.portOk s p) (.create p) s := rfl

theorem create_fine (r : ControlReady s h c) (port : p = 0 ∨ p = 1 ∧ s.hif.dual = true) : (isTenant c && Machine.portOk s p) = true := by
  rw [isTenant_of r.tenant, portOk_of port]
  rfl

theorem create_serves (r : ControlReady s h c) (free : (s.comp c).state = .free) (port : p = 0 ∨ p = 1 ∧ s.hif.dual = true) :
    Serves (.compartmentCreate h c p) s h (fun t =>
      (t.comp c).state = .active ∧ (t.comp c).port = p ∧ (t.comp c).en = false ∧ (t.comp c).res.floor = 2 ∧
      (t.comp c).res.cls = 2 ∧ (t.comp c).res.queuePairs = 0 ∧ (t.comp c).res.activeQuota = 0) := by
  have run := control_runs r (exec_create h c p s) (create_fine r port) (by rw [free]; decide) (fun e => CtlOp.noConfusion e)
  have act : (s.fetch h).controlAct c { cmd := h, op := .create p } = ((s.fetch h).createComp c p).done h 0 := if_pos free
  rw [act] at run
  have made := createComp_facts (s := s.fetch h) r.tables.comps c p
  generalize (s.fetch h).createComp c p = u at run made
  have comp : (u.done h 0).comp c = u.comp c := by rw [State.comp, (done_tables u h 0).1]; rfl
  refine ⟨_, run, completed_complete _ _ _ _ _, ?_⟩
  beta_reduce
  rw [comp]
  exact made

theorem create_refused (r : ControlReady s h c) (used : (s.comp c).state ∉ [.free, .freezing, .saving])
    (port : p = 0 ∨ p = 1 ∧ s.hif.dual = true) : Goes (.compartmentCreate h c p) s (fun t =>
      Completed t h .sequenceError ∧ (t.comp c).state = (s.comp c).state) := by
  have run := control_runs r (exec_create h c p s) (create_fine r port) (by simp at used; exact used.2) (fun e => CtlOp.noConfusion e)
  have act : (s.fetch h).controlAct c { cmd := h, op := .create p } = (s.fetch h).fail h .sequenceError := if_neg (by simp at used; exact used.1)
  exact refused_goes (run.trans (by rw [act]))

theorem exec_delete (h : HostCmd) (c : Nat) (s : State) : exec (.compartmentDelete h c) s =
    compartmentControl "COMPARTMENT_DELETE" h c (isTenant c) .delete s := rfl

theorem fetch_groups (s : State) (h : HostCmd) (c : Nat) : (s.fetch h).compGroups c = s.compGroups c := rfl

theorem delete_acts (groups : s.compGroups c = []) : (s.fetch h).controlAct c { cmd := h, op := .delete } =
    (let v := s.comp c
     if v.state = .saved then ((s.fetch h).freeComp c).done h 0
     else if v.state = .active ∨ v.state = .frozen ∨ v.state = .resetting then (s.fetch h).beginReset c (.delete (some h))
     else (s.fetch h).fail h .sequenceError) := by
  unfold State.controlAct
  dsimp only
  rw [fetch_groups, groups, if_neg (by decide)]
  rfl

theorem delete_serves (r : ControlReady s h c) (groups : s.compGroups c = []) (saved : (s.comp c).state = .saved)
    (keys : canon 0 s.sec.keys = true) : Serves (.compartmentDelete h c) s h (fun t =>
      t.comp c = Comp.free ∧ look 0 t.sec.keys c = 0 ∧ (∀ e ∈ t.cmp.pasids, e.2.2 ≠ c) ∧ ∀ q ∈ t.hif.queues, q.ctl ≠ 1 + c) := by
  have run := control_runs r (exec_delete h c s) (isTenant_of r.tenant) (by rw [saved]; decide) (fun e => CtlOp.noConfusion e)
  rw [delete_acts groups] at run
  dsimp only at run
  rw [if_pos saved] at run
  obtain ⟨free, gone, pasids, queues⟩ := freeComp_facts (s := s.fetch h) r.tables.comps keys c
  generalize (s.fetch h).freeComp c = u at run free gone pasids queues
  obtain ⟨cmp, sec, -⟩ := done_tables u h 0
  obtain ⟨g, same, moved⟩ := done_queues u h 0
  refine ⟨_, run, completed_complete _ _ _ _ _, ?_, ?_, ?_, fun q mem => ?_⟩
  · rw [State.comp, cmp]; exact free
  · rw [sec]; exact gone
  · rw [cmp]; exact pasids
  · rw [moved] at mem
    obtain ⟨q', mem', rfl⟩ := List.mem_map.mp mem
    rw [show (g q').ctl = q'.ctl by rw [(same q').1]]
    exact queues q' mem'

theorem delete_resets (r : ControlReady s h c) (groups : s.compGroups c = []) (active : (s.comp c).state = .active)
    (reels : s.compReels c = []) : Goes (.compartmentDelete h c) s (fun t =>
      (t.comp c).state = .resetting ∧ ∃ r, (t.comp c).reset = some r ∧ r.kinds = [.delete (some h)] ∧ r.at_ = s.now) := by
  have run := control_runs r (exec_delete h c s) (isTenant_of r.tenant) (by rw [active]; decide) (fun e => CtlOp.noConfusion e)
  rw [delete_acts groups] at run
  dsimp only at run
  rw [if_neg (by rw [active]; decide), if_pos (.inl active)] at run
  obtain ⟨resets, -, -, -, began⟩ := beginReset_facts (s := s.fetch h) (n := c) (.delete (some h)) active r.alone.2.1 reels
  exact ⟨_, run, resets, _, began, rfl, rfl⟩

/-- A Delete of a compartment that has placement groups is refused, in the order of the others and where it joins a reset. -/
theorem delete_refused (r : ControlReady s h c) (groups : s.compGroups c ≠ []) (calm : (s.comp c).state ∉ [.freezing, .saving]) :
    Goes (.compartmentDelete h c) s (fun t => Completed t h .sequenceError ∧ (t.comp c).state = (s.comp c).state) := by
  have run := control_runs r (exec_delete h c s) (isTenant_of r.tenant) (by simp at calm; exact calm) (fun e => CtlOp.noConfusion e)
  have some_ : (!((s.fetch h).compGroups c).isEmpty) = true := by
    rw [fetch_groups]
    cases e : s.compGroups c with
    | nil => exact absurd e groups
    | cons _ _ => rfl
  have act : (s.fetch h).controlAct c { cmd := h, op := .delete } = (s.fetch h).fail h .sequenceError := if_pos some_
  exact refused_goes (run.trans (by rw [act]))

theorem pasid_fine (r : ControlReady s h c) (low : x < 2 ^ 20) (port : p = 0 ∨ p = 1 ∧ s.hif.dual = true) :
    (decide (c < 1024) && decide (x < 2 ^ 20) && Machine.portOk s p) = true := by
  rw [decide_eq_true r.tenant.2, decide_eq_true low, portOk_of port]
  rfl

theorem map_serves (r : ControlReady s h c) (active : (s.comp c).state = .active) (low : x < 2 ^ 20) (mine : p = (s.comp c).port)
    (port : p = 0 ∨ p = 1 ∧ s.hif.dual = true) (fresh : ∀ e ∈ s.cmp.pasids, ¬ (e.1 = p ∧ e.2.1 = x)) (room : s.cmp.pasids.length < 1024)
    (own : (s.compPasids c).length < 64) : Serves (.mapPasid h c x p) s h (fun t =>
      t.cmp.pasids = s.cmp.pasids ++ [(p, x, c)] ∧ t.hif.queues.length = s.hif.queues.length) := by
  have run := control_runs (i := .mapPasid h c x p) (name := "MAP_PASID") (op := .mapPasid x p) r rfl (pasid_fine r low port) (by rw [active]; decide) (fun e => CtlOp.noConfusion e)
  have maps : (s.fetch h).mapPasid c x p = some { s.fetch h with
      cmp := { (s.fetch h).cmp with pasids := (s.fetch h).cmp.pasids ++ [(p, x, c)] } } := by
    refine if_neg ?_
    rintro (taken | full | ⟨-, many | other⟩)
    · obtain ⟨e, mem, is⟩ := List.any_eq_true.mp taken
      rw [Bool.and_eq_true, decide_eq_true_eq, decide_eq_true_eq] at is
      exact fresh e mem is
    · exact absurd room (Nat.not_lt.mpr full)
    · exact absurd own (Nat.not_lt.mpr many)
    · exact other mine.symm
  have act : (s.fetch h).controlAct c { cmd := h, op := .mapPasid x p } = State.done { s.fetch h with
      cmp := { (s.fetch h).cmp with pasids := (s.fetch h).cmp.pasids ++ [(p, x, c)] } } h 0 := by
    unfold State.controlAct
    dsimp only
    rw [maps, if_pos (.inr (.inl active))]
  rw [act] at run
  obtain ⟨u, hu⟩ : ∃ u : State, u = { s.fetch h with cmp := { (s.fetch h).cmp with pasids := (s.fetch h).cmp.pasids ++ [(p, x, c)] } } := ⟨_, rfl⟩
  have parts : u.cmp.pasids = s.cmp.pasids ++ [(p, x, c)] ∧ u.hif.queues.length = s.hif.queues.length := by
    rw [hu]
    exact ⟨rfl, (congrArg List.length (fetch_queues s h)).trans (List.length_map _)⟩
  rw [← hu] at run
  obtain ⟨g, -, moved⟩ := done_queues u h 0
  refine ⟨_, run, completed_complete _ _ _ _ _, ?_, ?_⟩
  · rw [(done_tables u h 0).1]; exact parts.1
  · rw [moved, List.length_map]; exact parts.2

theorem pasidUsed_fetch (s : State) (h : HostCmd) (n pasid port : Nat) : (s.fetch h).pasidUsed n pasid port = s.pasidUsed n pasid port := by
  have rest : ∀ (f : Queue → Bool), (∀ q, f (fetched h q) = f q) → (s.fetch h).hif.queues.any f = s.hif.queues.any f := fun f same => by
    rw [fetch_queues, List.any_map]
    exact congrArg (s.hif.queues.any ·) (funext same)
  have pasid_ : ∀ q, (fetched h q).pasid = q.pasid := fun q => by
    rw [fetched]
    split <;> rfl
  unfold State.pasidUsed
  dsimp only
  rw [rest _ fun q => by rw [pasid_, (fetched_names h q).1]]
  rfl

theorem unmap_serves (r : ControlReady s h c) (active : (s.comp c).state = .active) (low : x < 2 ^ 20)
    (port : p = 0 ∨ p = 1 ∧ s.hif.dual = true) (mapped : (p, x, c) ∈ s.cmp.pasids) (idle : s.pasidUsed c x p = false) :
    Serves (.unmapPasid h c x p) s h (fun t => t.cmp.pasids = s.cmp.pasids.erase (p, x, c)) := by
  have run := control_runs (i := .unmapPasid h c x p) (name := "UNMAP_PASID") (op := .unmapPasid x p) r rfl (pasid_fine r low port) (by rw [active]; decide) (fun e => CtlOp.noConfusion e)
  have is : (s.fetch h).pasidMapped p x c = true := List.contains_iff_mem.mpr mapped
  have act : (s.fetch h).controlAct c { cmd := h, op := .unmapPasid x p } = State.done { s.fetch h with
      cmp := { (s.fetch h).cmp with pasids := (s.fetch h).cmp.pasids.erase (p, x, c) } } h 0 := by
    unfold State.controlAct
    dsimp only
    rw [decide_eq_true (.inr (.inl active)), is, pasidUsed_fetch, idle]
    rfl
  rw [act] at run
  obtain ⟨u, hu⟩ : ∃ u : State, u = { s.fetch h with cmp := { (s.fetch h).cmp with pasids := (s.fetch h).cmp.pasids.erase (p, x, c) } } := ⟨_, rfl⟩
  rw [← hu] at run
  refine ⟨_, run, completed_complete _ _ _ _ _, ?_⟩
  beta_reduce
  rw [(done_tables u h 0).1, hu]
  rfl

theorem reset_goes (r : ControlReady s h c) (active : (s.comp c).state = .active) (reels : s.compReels c = []) :
    Goes (.compartmentReset h c) s (fun t => (t.comp c).state = .resetting ∧ (t.comp c).en = false ∧ (t.comp c).fetchStopped = true ∧
      (t.comp c).resetByHost = false ∧
      ∃ r, (t.comp c).reset = some r ∧ r.kinds = [.control (some h)] ∧ r.at_ = s.now ∧ r.squashed = false) := by
  have run := control_runs (i := .compartmentReset h c) (name := "COMPARTMENT_RESET") (op := .reset) r rfl (isTenant_of r.tenant) (by rw [active]; decide) (fun e => CtlOp.noConfusion e)
  have act : (s.fetch h).controlAct c { cmd := h, op := .reset } = (s.fetch h).beginReset c (.control (some h)) := if_pos (.inl active)
  rw [act] at run
  obtain ⟨resets, off, stopped, cause, began⟩ := beginReset_facts (s := s.fetch h) (n := c) (.control (some h)) active r.alone.2.1 reels
  exact ⟨_, run, resets, off, stopped, cause.trans (decide_eq_false fun e => ResetKind.noConfusion e), _, began, rfl, rfl, rfl⟩

theorem freeze_goes (r : ControlReady s h c) (active : (s.comp c).state = .active) : Goes (.compartmentFreeze h c) s (fun t =>
    (t.comp c).state = .freezing ∧ (t.comp c).waiting = some h ∧ t.frozen c = true) := by
  have run := control_runs (i := .compartmentFreeze h c) (name := "COMPARTMENT_FREEZE") (op := .freeze) r rfl (isTenant_of r.tenant) (by rw [active]; decide) (fun _ => by rw [active]; decide)
  obtain ⟨v, hv⟩ : ∃ v : Comp, v = { s.comp c with waiting := some h } := ⟨_, rfl⟩
  have act : (s.fetch h).controlAct c { cmd := h, op := .freeze } = ((s.fetch h).setComp c v).compState c .freezing := by
    rw [hv]
    exact if_pos active
  have here : ((s.fetch h).setComp c v).comp c = v := look_put _ _ _ _ r.tables.comps
  have moved := (compState_comp (s := (s.fetch h).setComp c v) (n := c) (st := .freezing) (by decide)
    (by rw [here, hv]; exact (by rw [active]; decide))).1
  rw [act] at run
  rw [here, hv] at moved
  rw [hv] at run
  refine ⟨_, run, ?_, ?_, ?_⟩
  · rw [moved]
  · rw [moved]
  · rw [State.frozen, moved]
    rfl

theorem thaw_serves (r : ControlReady s h c) (frozen : (s.comp c).state = .frozen) : Serves (.compartmentThaw h c) s h (fun t =>
    (t.comp c).state = .active ∧ t.frozen c = false) := by
  have run := control_runs (i := .compartmentThaw h c) (name := "COMPARTMENT_THAW") (op := .thaw) r rfl (isTenant_of r.tenant) (by rw [frozen]; decide) (fun e => CtlOp.noConfusion e)
  have act : (s.fetch h).controlAct c { cmd := h, op := .thaw } = ((s.fetch h).compState c .active).done h 0 := if_pos frozen
  rw [act] at run
  have state : (((s.fetch h).compState c .active).comp c).state = .active := compState_state (by decide)
  generalize (s.fetch h).compState c .active = u at run state
  have comp : (u.done h 0).comp c = u.comp c := by rw [State.comp, (done_tables u h 0).1]; rfl
  refine ⟨_, run, completed_complete _ _ _ _ _, ?_, ?_⟩
  · rw [comp]; exact state
  · rw [State.frozen, comp, state]
    rfl

/-- Compartment `v` while the Save of command `h` into a buffer of `n` bytes drains it. -/
def savingComp (v : Comp) (h : HostCmd) (n : Nat) : Comp := { v with waiting := some h, saveBytes := n, fetchStopped := true }

/-- A Save of a Frozen compartment of which no reel runs stops it, and writes its record once no command is in progress (R365). -/
theorem save_runs (r : ControlReady s h c) (n : Nat) (frozen : (s.comp c).state = .frozen) (reels : s.compReels c = []) :
    ∃ t : State, exec (.compartmentSave h c n) s = .next (if t.compCmds c = 0 then t.endSave c else t) ∧
      EventFrame (s.fetch h) t ∧ Hears (s.fetch h).hif t.hif ∧ t.cmp.pasids = s.cmp.pasids ∧
      Interrupted { savingComp (s.comp c) h n with state := .saving, since := s.now } (t.comp c) := by
  have run := control_runs (i := .compartmentSave h c n) (name := "COMPARTMENT_SAVE") (op := .save n) r rfl (isTenant_of r.tenant)
    (by rw [frozen]; decide) (fun e => CtlOp.noConfusion e)
  obtain ⟨a, ha⟩ : ∃ a, a = (s.fetch h).setComp c (savingComp (s.comp c) h n) := ⟨_, rfl⟩
  have here : a.comp c = savingComp (s.comp c) h n := by rw [ha]; exact look_put _ _ _ _ r.tables.comps
  have idle : ((s.fetch h).compReels c).isEmpty = true := by
    rw [show (s.fetch h).compReels c = s.compReels c from rfl, reels]
    rfl
  have act : (s.fetch h).controlAct c { cmd := h, op := .save n } =
      if (a.compState c .saving).compCmds c = 0 then (a.compState c .saving).endSave c else a.compState c .saving := by
    rw [ha]
    exact if_pos ⟨frozen, idle⟩
  have moved := compState_comp (s := a) (n := c) (st := .saving) (by decide) (by rw [here, savingComp]; exact (by rw [frozen]; decide))
  rw [here] at moved
  have now : a.now = s.now := by rw [ha]; rfl
  rw [now] at moved
  have before : EventFrame (s.fetch h) a ∧ a.hif = (s.fetch h).hif ∧ a.cmp.pasids = s.cmp.pasids := by
    rw [ha]
    exact ⟨.comps _ _, rfl, rfl⟩
  obtain ⟨frame, hif, pasids⟩ := before
  refine ⟨a.compState c .saving, run.trans (by rw [act]), frame.trans (compState_frame _ _ _), ?_,
    (compState_tableOnly a c .saving).pasids.trans pasids, moved⟩
  rw [← hif]
  exact compState_hears _ _ _

theorem save_serves (r : ControlReady s h c) {n : Nat} (frozen : (s.comp c).state = .frozen) (reels : s.compReels c = [])
    (idle : s.compCmds c = 0) (fits : (s.compRecord c).length ≤ n) : Serves (.compartmentSave h c n) s h (fun t =>
      (t.comp c).state = .saved ∧ (t.comp c).token = some s.now ∧ (t.comp c).en = false ∧
        ∃ d, Output.data h d ∈ t.hif.out ∧ d.length = (s.compRecord c).length) := by
  obtain ⟨t, run, frame, hears, pasids, moved, -⟩ := save_runs r n frozen reels
  have car : t.car = s.car := (congrArg State.car frame.rest :)
  have zns : t.zns = s.zns := (congrArg State.zns frame.rest :)
  have fcd : t.fcd = s.fcd := (congrArg State.fcd frame.rest :)
  have now : t.now = s.now := (congrArg State.now frame.rest :)
  have none_ : t.compCmds c = 0 := by rw [State.compCmds, car]; exact idle
  have queues : t.hif.queues = s.hif.queues.map (fetched h) := (hears_queues hears).trans (fetch_queues s h)
  have long : (t.compRecord c).length = (s.compRecord c).length := by
    rw [length_compRecord, length_compRecord]
    exact recordSize_congr (fetched_names h) queues pasids zns car fcd c
  have waits : (t.comp c).waiting = some h := by rw [moved]; rfl
  have room : (t.comp c).saveBytes = n := by rw [moved]; rfl
  obtain ⟨done, state, token, off, data⟩ := endSave_facts waits (by rw [long, room]; exact fits)
  rw [if_pos none_] at run
  exact ⟨_, run, done, state, token.trans (by rw [now]), off, _, data, long⟩

theorem save_waits (r : ControlReady s h c) (n : Nat) (frozen : (s.comp c).state = .frozen) (reels : s.compReels c = [])
    (busy : s.compCmds c ≠ 0) : Goes (.compartmentSave h c n) s (fun t =>
      (t.comp c).state = .saving ∧ (t.comp c).fetchStopped = true ∧ (t.comp c).waiting = some h) := by
  obtain ⟨t, run, frame, -, -, moved, -⟩ := save_runs r n frozen reels
  have car : t.car = s.car := (congrArg State.car frame.rest :)
  have some_ : t.compCmds c ≠ 0 := by rw [State.compCmds, car]; exact busy
  rw [if_neg some_] at run
  refine ⟨_, run, ?_⟩
  beta_reduce
  rw [moved]
  exact ⟨rfl, rfl, rfl⟩

end Commands

section Restored

variable {s w : State} {h : HostCmd} {c p key : Nat} {params record : List Byte} {r : State.Record}

/-- A compartment that a Restore has written is Frozen (R369). -/
theorem restoreNow_frozen (done : s.restoreNow c p key params r = some w) : (w.comp c).state = .frozen := by
  have last : ∃ u : State, w = (u.compState c .frozen).journal := by
    unfold State.restoreNow at done
    dsimp only at done
    split at done
    · exact absurd done (by simp)
    · exact ⟨_, (Option.some.inj done).symm⟩
  obtain ⟨u, rfl⟩ := last
  have state : ((u.compState c .frozen).comp c).state = .frozen := compState_state (by decide)
  generalize u.compState c .frozen = v at state
  rw [State.comp, (journal_tables v).1]
  exact state

theorem restore_serves (ready : ControlReady s h c) (named : leAt params 12 2 = c)
    (port : leAt params 14 1 = 0 ∨ leAt params 14 1 = 1 ∧ s.hif.dual = true) (state : (s.comp c).state = .saved ∨ (s.comp c).state = .active)
    (valid : State.recordValid params (State.recordOfBytes record) = true)
    (target : (s.fetch h).targetFits c (State.recordOfBytes record) = true)
    (pasids : (s.fetch h).pasidsFit params (leAt params 14 1) (State.recordOfBytes record) = true)
    (groups : (s.fetch h).groupsFit c params (State.recordOfBytes record) = true)
    (room : (s.fetch h).roomFor (State.recordOfBytes record) = true)
    (unwraps : (s.fetch h).recordKey (State.recordOfBytes record) = some key)
    (done : (s.fetch h).restoreNow c (leAt params 14 1) key params (State.recordOfBytes record) = some w) :
    Serves (.compartmentRestore h params record) s h (fun t => (t.comp c).state = .frozen ∧ t.cmp = w.cmp ∧ t.car = w.car) := by
  have name : exec (.compartmentRestore h params record) s =
      compartmentControl "COMPARTMENT_RESTORE" h c (isTenant c) (.restore params record) s := by
    rw [← named]
    rfl
  have calm : (s.comp c).state ≠ .freezing ∧ (s.comp c).state ≠ .saving := by
    obtain saved | active := state
    · rw [saved]; decide
    · rw [active]; decide
  have run := control_runs ready name (isTenant_of ready.tenant) calm (fun e => CtlOp.noConfusion e)
  have fields : ¬ (c = 0 ∨ 1023 < c ∨ 1 < leAt params 14 1 ∨ (leAt params 14 1 = 1 ∧ (!s.hif.dual) = true)) := by
    obtain ⟨low, high⟩ := ready.tenant
    obtain zero | ⟨one, dual⟩ := port
    · rw [zero]; omega
    · rw [one, dual]; simp; omega
  have act : (s.fetch h).controlAct c { cmd := h, op := .restore params record } = w.done h 0 := by
    show (s.fetch h).restore params record h = _
    unfold State.restore
    dsimp only
    rw [named, target, pasids, groups, room, valid, unwraps]
    dsimp only
    rw [done]
    refine (if_neg fields).trans ?_
    refine (if_neg fun x => state.elim x.1 x.2).trans ?_
    rfl
  rw [act] at run
  obtain ⟨cmp, -, car⟩ := done_tables w h 0
  refine ⟨_, run, completed_complete _ _ _ _ _, ?_, cmp, car⟩
  rw [State.comp, cmp]
  exact restoreNow_frozen done

end Restored

/-- Settles O38: each row is the lemma of its command. -/
theorem compartmentControlTakesEffect : Obligations.CompartmentControlTakesEffect := by
  intro s h c r
  refine ⟨fun p free port => create_serves r free port, fun used p port => create_refused r used port,
    fun groups saved keys => delete_serves r groups saved keys, fun groups active reels => delete_resets r groups active reels,
    fun groups calm => delete_refused r groups calm, fun x p active low mine port fresh room own => map_serves r active low mine port fresh room own,
    fun x p active low port mapped idle => unmap_serves r active low port mapped idle, fun active reels => reset_goes r active reels,
    fun active => freeze_goes r active, fun frozen => thaw_serves r frozen,
    fun n frozen reels idle fits => save_serves r frozen reels idle fits, fun n frozen reels busy => save_waits r n frozen reels busy,
    fun params record key w named port state valid target pasids groups room unwraps done =>
      restore_serves r named port state valid target pasids groups room unwraps done⟩

end Sys2Proof.Proofs
end

section
/-! SUPPORT for O43: an entry put into a die queue waits there or is the die's operation, unless the channel engine refuses it (R144,
R145, R149). -/

namespace Sys2Proof.Proofs

open Sys2Proof Sys2Proof.Machine

section Stand

variable {s t u : State} {d : Nat}

/-- The dies and the queue of store operations stand as they were. -/
def DiesStand (s t : State) : Prop := t.fls.dies = s.fls.dies ∧ t.kry.writes = s.kry.writes

theorem DiesStand.refl (s : State) : DiesStand s s := ⟨rfl, rfl⟩

theorem DiesStand.trans (a : DiesStand s t) (b : DiesStand t u) : DiesStand s u := ⟨b.1.trans a.1, b.2.trans a.2⟩

theorem DiesStand.of_frame (f : EventFrame s t) : DiesStand s t :=
  ⟨(congrArg (fun x : State => x.fls.dies) f.rest :), writes_of_eventFrame f⟩

theorem DiesStand.ite {c : Prop} [Decidable c] (a : DiesStand s t) (b : DiesStand s u) : DiesStand s (if c then t else u) := by
  split <;> assumption

theorem DiesStand.foldl {α : Type} {f : State → α → State} (hf : ∀ s x, DiesStand s (f s x)) : ∀ (l : List α) (s : State), DiesStand s (l.foldl f s)
  | [], _ => .refl _
  | x :: l, s => (hf s x).trans (DiesStand.foldl hf l (f s x))

theorem diesStand_takeSeq (s : State) (n : Nat) : DiesStand s (s.takeSeq n).2 := by
  obtain ⟨a, ha⟩ : ∃ a : State, a = { s with zns := { s.zns with seq := min State.seqMax (s.zns.seq + n) } } := ⟨_, rfl⟩
  have before : DiesStand s a := by rw [ha]; exact ⟨rfl, rfl⟩
  unfold State.takeSeq
  dsimp only
  rw [← ha]
  exact .ite (before.trans (.of_frame (event_frame _ _ _ _ _ _))) before

theorem diesStand_sealPages (s : State) (d b p n : Nat) (flush : Bool) (fresh : Nat → Bool) : DiesStand s (s.sealPages d b p n flush fresh) := by
  have taken := diesStand_takeSeq s ((List.range n).filter fresh).length
  unfold State.sealPages
  dsimp only
  generalize s.takeSeq ((List.range n).filter fresh).length = x at taken
  exact taken

theorem diesStand_queueRefresh (s : State) (d b : Nat) : DiesStand s (s.queueRefresh d b) := .ite ⟨rfl, rfl⟩ ⟨rfl, rfl⟩

theorem diesStand_countReads (s : State) (d b n : Nat) : DiesStand s (s.countReads d b n) := by
  unfold State.countReads State.readLimit
  dsimp only
  exact .ite (DiesStand.trans ⟨rfl, rfl⟩ (diesStand_queueRefresh _ _ _)) ⟨rfl, rfl⟩

theorem diesStand_noteStart (s : State) (d : Nat) (e : QEntry) : DiesStand s (s.noteStart d e) := by
  unfold State.noteStart
  dsimp only
  split
  · exact diesStand_countReads _ _ _ _
  · exact .ite (DiesStand.trans ⟨rfl, rfl⟩ (diesStand_sealPages _ _ _ _ _ _ _)) ⟨rfl, rfl⟩
  · exact .ite (DiesStand.trans ⟨rfl, rfl⟩ (diesStand_sealPages _ _ _ _ _ _ _)) ⟨rfl, rfl⟩
  · exact .refl _
  · exact .refl _

theorem diesStand_charge (s : State) (cluster c ns : Nat) : DiesStand s (s.charge cluster c ns) := ⟨rfl, rfl⟩

theorem diesStand_chargeUnit (s : State) (cluster r k ns : Nat) : DiesStand s (s.chargeUnit cluster r k ns) := by
  unfold State.chargeUnit
  split
  · exact .refl _
  · exact .ite (.refl _) (.foldl (fun t x => diesStand_charge t _ _ _) _ _)

end Stand

section Waits

variable {s : State} {d : Nat} {e : QEntry}

/-- Entry `e`, but for its mark that it waits for a slot, waits on die `d` or is its operation. -/
def OnDie (t : State) (d : Nat) (e : QEntry) : Prop :=
  ∃ w, (({ e with capWait := w } : QEntry) ∈ (t.die d).queue ∨ ∃ o, (t.die d).op = some o ∧ o.entry = { e with capWait := w })

theorem onDie_of_queue (mem : e ∈ (s.die d).queue) : OnDie s d e := ⟨e.capWait, .inl mem⟩

theorem OnDie.of_stand {t u : State} (waits : OnDie t d e) (same : DiesStand t u) : OnDie u d e := by
  have die : u.die d = t.die d := by rw [State.die, same.1]; rfl
  rw [OnDie, die]
  exact waits

/-- A die that starts an entry has it as its operation, and the others stay in its queue. -/
theorem startEntry_onDie (s : State) (x : QEntry) (mem : e ∈ (s.die d).queue) :
    OnDie (s.startEntry d x) d e ∧ (s.startEntry d x).kry.writes = s.kry.writes := by
  obtain ⟨v, hv⟩ : ∃ v : Die, v = { s.die d with
      op := some { entry := x, issuedAt := s.now, leftNs := nominalNs x.kind (s.block d x.block).qlc, sinceAt := s.now, suspended := false
                   slot := isProgErase x.kind, suspends := 0, served := 0, posted := false, region := s.dieRegion d }
      queue := (s.die d).queue.erase x
      passed := if isProgErase x.kind then 0 else s.passedNext d } := ⟨_, rfl⟩
  obtain ⟨a, ha⟩ : ∃ a, a = (s.startClock (80 + dieCluster d)).setDie d v := ⟨_, rfl⟩
  have busy : v ≠ Die.idle := fun y => by
    have none_ : v.op = none := by rw [y]; rfl
    rw [hv] at none_
    exact absurd none_ (Option.some_ne_none _)
  have here : a.die d = v := by rw [ha]; exact look_put_of_ne _ _ _ _ busy
  have waits : OnDie a d e := by
    by_cases same : e = x
    · exact ⟨e.capWait, .inr ⟨_, by rw [here, hv], same.symm⟩⟩
    · refine onDie_of_queue ?_
      rw [here, hv]
      exact (List.mem_erase_of_ne same).mpr mem
  have writes : a.kry.writes = s.kry.writes := by rw [ha]; rfl
  have rest : DiesStand a (s.startEntry d x) := by
    have purposes : ∀ b : State, DiesStand b (match x.purpose with
        | .landing r k => b.chargeUnit (dieCluster d) r k (nominalNs x.kind (s.block d x.block).qlc)
        | .segment _ _ r k => b.chargeUnit (dieCluster d) r k (nominalNs x.kind (s.block d x.block).qlc)
        | _ => b.charge (dieCluster d) x.comp (nominalNs x.kind (s.block d x.block).qlc)) := fun b => by
      split
      · exact diesStand_chargeUnit _ _ _ _ _
      · exact diesStand_chargeUnit _ _ _ _ _
      · exact diesStand_charge _ _ _ _
    have charged : ∀ b : State, DiesStand b (if isProgErase x.kind then b else b.addReadUs (dieCluster d) (nominalNs x.kind (s.block d x.block).qlc / 1000)) :=
      fun b => .ite (.refl _) ⟨rfl, rfl⟩
    unfold State.startEntry
    dsimp only
    rw [← hv, ← ha]
    exact ((diesStand_noteStart a d x).trans (.ite (.refl _) (purposes _))).trans (charged _)
  exact ⟨waits.of_stand rest, rest.2.trans writes⟩

theorem refused_refuseEntry (x : QEntry) (e : QEntry) (stays : (s.refuseEntry d x).die d = { s.die d with queue := (s.die d).queue.erase x }) :
    (s.refuseEntry d x).refused d e = s.refused d e := by
  unfold State.refused State.refusal
  rw [stays]
  rfl

/-- An entry in the queue of a die that the channel engine does not refuse waits there or is started. -/
theorem takeNext_onDie (d : Nat) : ∀ (n : Nat) (s : State), e ∈ (s.die d).queue → s.refused d e = false →
    OnDie (State.takeNext n s d) d e ∧ (State.takeNext n s d).kry.writes = s.kry.writes
  | 0, s, mem, _ => ⟨onDie_of_queue mem, rfl⟩
  | n + 1, s, mem, passes => by
    rw [State.takeNext]
    split
    · next x _ =>
      split
      · next is =>
        have other : e ≠ x := fun y => by
          rw [← y, passes] at is
          exact Bool.noConfusion is
        have left : e ∈ (s.die d).queue.erase x := (List.mem_erase_of_ne other).mpr mem
        have busy : ({ s.die d with queue := (s.die d).queue.erase x } : Die) ≠ Die.idle := fun y => by
          have empty : (s.die d).queue.erase x = [] := (congrArg Die.queue y).trans rfl
          rw [empty] at left
          exact absurd left List.not_mem_nil
        have stays : (s.refuseEntry d x).die d = { s.die d with queue := (s.die d).queue.erase x } := look_put_of_ne _ _ _ _ busy
        obtain ⟨waits, writes⟩ := takeNext_onDie d n (s.refuseEntry d x) (by rw [stays]; exact left) (by rw [refused_refuseEntry x e stays]; exact passes)
        exact ⟨waits, writes.trans rfl⟩
      · exact startEntry_onDie s x mem
    · split
      · next p _ =>
        have marked : (if e = p then { e with capWait := true } else e) ∈ (s.die d).queue.map (fun q => if q = p then { q with capWait := true } else q) :=
          List.mem_map.mpr ⟨e, mem, rfl⟩
        have busy : ({ s.die d with queue := (s.die d).queue.map (fun q => if q = p then { q with capWait := true } else q) } : Die) ≠ Die.idle :=
          fun y => by
            rw [show (s.die d).queue.map (fun q => if q = p then { q with capWait := true } else q) = [] from (congrArg Die.queue y).trans rfl] at marked
            exact absurd marked List.not_mem_nil
        have here : (s.markCapWait d p).die d = { s.die d with
            queue := (s.die d).queue.map (fun q => if q = p then { q with capWait := true } else q) } := look_put_of_ne _ _ _ _ busy
        refine ⟨?_, rfl⟩
        by_cases same : e = p
        · rw [if_pos same] at marked
          exact ⟨true, .inl (by rw [here]; exact marked)⟩
        · rw [if_neg same] at marked
          exact ⟨e.capWait, .inl (by rw [here]; exact marked)⟩
      · exact ⟨onDie_of_queue mem, rfl⟩

/-- An entry that is put into a die queue, and that the channel engine does not refuse there, waits or is started. -/
theorem enqueue_onDie (passes : ∀ t : State, t.block d e.block = s.block d e.block → (t.die d).lost = (s.die d).lost → t.refused d e = false) :
    OnDie (s.enqueue d e) d e ∧ (s.enqueue d e).kry.writes = s.kry.writes := by
  obtain ⟨a, ha⟩ : ∃ a, a = (s.setDie d { s.die d with queue := (s.die d).queue ++ [e] }).startClock (16 + dieChannel d) := ⟨_, rfl⟩
  have busy : ({ s.die d with queue := (s.die d).queue ++ [e] } : Die) ≠ Die.idle := fun y => by
    have empty : (s.die d).queue ++ [e] = [] := (congrArg Die.queue y).trans rfl
    exact absurd empty (by simp)
  have here : a.die d = { s.die d with queue := (s.die d).queue ++ [e] } := by rw [ha]; exact look_put_of_ne _ _ _ _ busy
  have mem : e ∈ (a.die d).queue := by rw [here]; exact List.mem_append_right _ List.mem_cons_self
  have writes : a.kry.writes = s.kry.writes := by rw [ha]; rfl
  have blocks : a.block d e.block = s.block d e.block := by rw [ha]; rfl
  have fine := passes a blocks (by rw [here])
  have run : s.enqueue d e = a.dieNext d := by rw [ha]; rfl
  rw [run]
  unfold State.dieNext
  split
  · exact ⟨onDie_of_queue mem, writes⟩
  · obtain ⟨waits, same⟩ := takeNext_onDie d _ a mem fine
    exact ⟨waits, same.trans writes⟩

end Waits

end Sys2Proof.Proofs
end

section
/-! SUPPORT for O43: the operations of the reel store (R316, R335 to R337, R427). -/

namespace Sys2Proof.Proofs

open Sys2Proof Sys2Proof.Machine

section Pages

/-- Of the state only the cells of the flash differ. -/
def CellsOnly (s t : State) : Prop := ∃ c, t = { s with fls := { s.fls with cells := c } }

theorem cellsOnly_layPages (s : State) (d b p : Nat) (pages : List (List Byte × PageRecord)) : CellsOnly s (s.layPages d b p pages) := by
  unfold State.layPages
  generalize pages.mapIdx (fun j x => (j, x)) = l
  induction l generalizing s with
  | nil => exact ⟨s.fls.cells, rfl⟩
  | cons x l ih =>
    have first : CellsOnly s (s.layPage d b (p + x.1) x.2.1 x.2.2.number) := ⟨_, rfl⟩
    have rest := ih (s.layPage d b (p + x.1) x.2.1 x.2.2.number)
    rw [List.foldl_cons]
    generalize s.layPage d b (p + x.1) x.2.1 x.2.2.number = u at first rest
    obtain ⟨c, rfl⟩ := first
    obtain ⟨c', same⟩ := rest
    exact ⟨c', same⟩

end Pages

section StoreGo

variable {s : State} {w : StoreWrite} {r : Nat}

/-- Where no alternate has been retired, none takes a spare. -/
theorem storeSpare_none {i : Nat} (used : (s.block (replicaDie r) (s.pairBlock r i (1 - s.liveVersion r i))).use = .system) : s.storeSpare r i = s := by
  unfold State.storeSpare
  dsimp only
  rw [used]
  exact if_neg (by decide)

theorem storeSpares_none {i a : Nat} (used : ∀ q < 4, (s.block (replicaDie q) (s.pairBlock q i (1 - s.liveVersion q i))).use = .system) :
    ∀ l : List Nat, (∀ q ∈ l, q < 4) → l.foldl (fun (t : State) r => if a ≤ r ∧ t.replicaReadable r i then t.storeSpare r i else t) s = s
  | [], _ => rfl
  | q :: l, low => by
    rw [List.foldl_cons, storeSpare_none (used q (low q List.mem_cons_self)), ite_self]
    exact storeSpares_none used l fun x mem => low x (List.mem_cons_of_mem _ mem)

/-- The operation as it stands on the replica it goes on with. -/
def onReplica (s : State) (w : StoreWrite) (r unit : Nat) : StoreWrite :=
  { w with
    replica := r, unit := unit
    seq := max s.zns.seq (look 0 s.kry.storeSeq ((r * 2 + s.liveVersion r (w.slot / 16)) * 16 + w.slot / 16)) + 1 }

/-- A store operation that begins goes on with the first readable replica: it programs an erased alternate, and erases another. -/
theorem storeGo_first (fresh : w.replica = 0) (reels : s.kry.insts = [])
    (used : ∀ q < 4, (s.block (replicaDie q) (s.pairBlock q (w.slot / 16) (1 - s.liveVersion q (w.slot / 16)))).use = .system)
    (first : (List.range 4).find? (fun r => s.replicaReadable r (w.slot / 16)) = some r) :
    s.storeGo w = some (
      let b := s.pairBlock r (w.slot / 16) (1 - s.liveVersion r (w.slot / 16))
      let k := s.block (replicaDie r) b
      if !k.qlc ∧ k.wp = 0 then s.storeIssue (onReplica s w r 2)
      else (s.setStoreHead (onReplica s w r 1)).enqueue (replicaDie r) (s.storeEntry .eraseSlc b 0)) := by
  have spares : (List.range 4).foldl (fun (t : State) r => if w.replica ≤ r ∧ t.replicaReadable r (w.slot / 16) then t.storeSpare r (w.slot / 16) else t) s = s :=
    storeSpares_none used _ fun q mem => List.mem_range.mp mem
  have found : (List.range 4).find? (fun r => decide (w.replica ≤ r) && s.replicaReadable r (w.slot / 16) &&
      decide ((s.block (replicaDie r) (s.pairBlock r (w.slot / 16) (1 - s.liveVersion r (w.slot / 16)))).use ≠ .retired)) = some r := by
    refine Eq.trans (List.find?_congr fun q mem => ?_) first
    rw [used q (List.mem_range.mp mem), fresh, decide_eq_true (Nat.zero_le q), Bool.true_and]
    exact Bool.and_true _
  have runs : s.versionRuns r (w.slot / 16) (1 - s.liveVersion r (w.slot / 16)) = false := by
    rw [State.versionRuns, reels]
    rfl
  unfold State.storeGo
  dsimp only
  rw [spares, found]
  dsimp only
  rw [runs]
  rfl

/-- The operation at the front, on its replica, with its entry on the die: a program of an erased alternate, or an erase. -/
theorem storeGo_issues {t : State} (fresh : w.replica = 0) (reels : s.kry.insts = [])
    (used : ∀ q < 4, (s.block (replicaDie q) (s.pairBlock q (w.slot / 16) (1 - s.liveVersion q (w.slot / 16)))).use = .system)
    (first : (List.range 4).find? (fun r => s.replicaReadable r (w.slot / 16)) = some r) (only_ : s.kry.writes = [w])
    (goes : s.storeGo w = some t) :
    let b := s.pairBlock r (w.slot / 16) (1 - s.liveVersion r (w.slot / 16))
    let k := s.block (replicaDie r) b
    let u := if k.qlc = false ∧ k.wp = 0 then 3 else 1
    (∃ x, t.kry.writes = [x] ∧ x.cmd = w.cmd ∧ x.op = w.op ∧ x.slot = w.slot ∧ x.replica = r ∧ x.unit = u) ∧
      ∃ e : QEntry, e.kind = (if u = 1 then .eraseSlc else .progSlc) ∧ e.block = b ∧ e.purpose = .store ∧ OnDie t (replicaDie r) e := by
  intro b k u
  have readable : s.replicaReadable r (w.slot / 16) = true := List.find?_some (p := fun r => s.replicaReadable r (w.slot / 16)) first
  have low : r < 4 := List.mem_range.mp (List.mem_of_find?_eq_some first)
  have lost : (s.die (replicaDie r)).lost = false := by
    rw [State.replicaReadable, Bool.and_eq_true] at readable
    simpa using readable.1
  have system : k.use = .system := used r low
  rw [storeGo_first fresh reels used first] at goes
  have run := (Option.some.inj goes).symm
  dsimp only at run
  by_cases erased : k.qlc = false ∧ k.wp = 0
  · have unit : u = 3 := if_pos erased
    have yes : (!k.qlc) = true ∧ k.wp = 0 := ⟨by rw [erased.1]; rfl, erased.2⟩
    rw [if_pos yes] at run
    obtain ⟨a, ha⟩ : ∃ a, a = (s.setStoreHead (onReplica s w r 3)).layPages (replicaDie r) b 0
        ((List.range 4).map (fun j => s.newPage (onReplica s w r 2) j)) := ⟨_, rfl⟩
    have laid : CellsOnly (s.setStoreHead (onReplica s w r 3)) a := by rw [ha]; exact cellsOnly_layPages _ _ _ _ _
    have block : a.block (replicaDie r) b = k := by
      obtain ⟨c, same⟩ := laid
      rw [same]
      rfl
    have alive : (a.die (replicaDie r)).lost = false := by
      obtain ⟨c, same⟩ := laid
      rw [same]
      exact lost
    have head : a.kry.writes = [onReplica s w r 3] := by
      obtain ⟨c, same⟩ := laid
      rw [same]
      show onReplica s w r 3 :: s.kry.writes.tail = _
      rw [only_]
      rfl
    have issued : t = a.enqueue (replicaDie r) (s.storeEntry .progSlc b 0) := by rw [run, ha]; rfl
    have passes : ∀ x : State, x.block (replicaDie r) b = a.block (replicaDie r) b → (x.die (replicaDie r)).lost = (a.die (replicaDie r)).lost →
        x.refused (replicaDie r) (s.storeEntry .progSlc b 0) = false := fun x same up => by
      have accepts : x.refusal (replicaDie r) (s.storeEntry .progSlc b 0) = none := by
        unfold State.refusal
        rw [show (s.storeEntry .progSlc b 0).block = b from rfl, show (s.storeEntry .progSlc b 0).page = 0 from rfl,
          show (s.storeEntry .progSlc b 0).kind = .progSlc from rfl]
        dsimp only
        rw [same, block, up, alive, system, erased.1, erased.2]
        decide
      rw [State.refused, accepts]
      exact Bool.and_false _
    obtain ⟨waits, writes⟩ := enqueue_onDie (s := a) (d := replicaDie r) (e := s.storeEntry .progSlc b 0) passes
    rw [← issued] at waits writes
    rw [unit]
    exact ⟨⟨onReplica s w r 3, writes.trans head, rfl, rfl, rfl, rfl, rfl⟩, _, rfl, rfl, rfl, waits⟩
  · have unit : u = 1 := if_neg erased
    have no : ¬ ((!k.qlc) = true ∧ k.wp = 0) := fun x => erased ⟨by simpa using x.1, x.2⟩
    rw [if_neg no] at run
    obtain ⟨waits, writes⟩ := enqueue_onDie (s := s.setStoreHead (onReplica s w r 1)) (d := replicaDie r) (e := s.storeEntry .eraseSlc b 0)
      fun t _ _ => rfl
    rw [← run] at waits writes
    rw [unit]
    refine ⟨⟨onReplica s w r 1, writes.trans ?_, rfl, rfl, rfl, rfl, rfl⟩, _, rfl, rfl, rfl, waits⟩
    rw [State.setStoreHead, only_]
    rfl

end StoreGo

section StoreCommands

variable {s : State} {h : HostCmd} {slot : Nat}

/-- An operation that finds no other before it runs at once. -/
theorem storeAdmit_first (empty : s.kry.writes = []) (w : StoreWrite) :
    s.storeAdmit w = State.storeRun 1 { s with kry := { s.kry with writes := [w] } } := by
  unfold State.storeAdmit
  rw [empty]
  rfl

theorem popStore_only (empty : s.kry.writes = []) (w : StoreWrite) :
    ({ s with kry := { s.kry with writes := [w] } } : State).popStore = s := by
  have same : ({ s with kry := { s.kry with writes := [] } } : State) = { s with kry := { s.kry with writes := s.kry.writes } } := by rw [empty]
  exact same

theorem maintenance_serves {i : Instr} {name : String} {op : StoreOp} {on : Bool} (r : AdminReady s h) (steward : h.comp = 0)
    (empty : s.kry.writes = []) (run : exec i s = admin name h storeRow s (fun t => t.storeAdmit (storeWriteOf h op 0 [])))
    (which : op = .enter ∧ on = true ∨ op = .leave ∧ on = false) :
    Serves i s h (fun t => t.kry.maint = on ∧ t.kry.writes = []) := by
  obtain ⟨u, hu⟩ : ∃ u : State, u = { s.fetch h with kry := { (s.fetch h).kry with maint := on } } := ⟨_, rfl⟩
  have pop : ∀ w, ({ s.fetch h with kry := { (s.fetch h).kry with writes := [w] } } : State).popStore = s.fetch h :=
    popStore_only (s := s.fetch h) empty
  have does : (s.fetch h).storeAdmit (storeWriteOf h op 0 []) = u.done h 0 := by
    obtain ⟨t, ht⟩ : ∃ t : State, t = { s.fetch h with kry := { (s.fetch h).kry with writes := [storeWriteOf h op 0 []] } } := ⟨_, rfl⟩
    have head : t.storeHead = some (storeWriteOf h op 0 []) := by rw [ht]; rfl
    have back : t.popStore = s.fetch h := by rw [ht]; exact pop _
    rw [storeAdmit_first (s := s.fetch h) empty, ← ht, hu, State.storeRun, head, ← back]
    obtain ⟨rfl, rfl⟩ | ⟨rfl, rfl⟩ := which <;> rfl
  refine admin_serves r (.inl steward) run does ?_
  have parts : u.kry.maint = on ∧ u.kry.writes = [] := by rw [hu]; exact ⟨rfl, empty⟩
  rw [done_rest]
  exact parts

/-- A write or clear outside maintenance is refused (R335). -/
theorem storeWrite_refused {i : Instr} {name : String} {op : StoreOp} {image : List Byte} (r : AdminReady s h) (steward : h.comp = 0)
    (empty : s.kry.writes = []) (off : s.kry.maint = false) (kind : op = .write ∨ op = .clear)
    (run : exec i s = admin name h storeRow s (fun t => t.storeAdmit (storeWriteOf h op slot image))) :
    OnlyCompletes i s h .sequenceError := by
  refine admin_refuses r (.inl steward) run ?_
  obtain ⟨t, ht⟩ : ∃ t : State, t = { s.fetch h with kry := { (s.fetch h).kry with writes := [storeWriteOf h op slot image] } } := ⟨_, rfl⟩
  have refusal : t.storeRefusal (storeWriteOf h op slot image) = some .sequenceError := by
    have maint : t.kry.maint = false := by rw [ht]; exact off
    rw [State.storeRefusal, maint]
    rfl
  have head : t.storeHead = some (storeWriteOf h op slot image) := by rw [ht]; rfl
  have pop : t.popStore = s.fetch h := by rw [ht]; exact popStore_only (s := s.fetch h) empty _
  rw [storeAdmit_first (s := s.fetch h) empty, ← ht, State.storeRun, head]
  obtain rfl | rfl := kind
  · show (match t.storeRefusal (storeWriteOf h .write slot image) with
      | some st => State.storeRun 0 (t.popStore.answerCmd (some h) st)
      | none => _) = _
    rw [refusal, pop]
    rfl
  · show (match t.storeRefusal (storeWriteOf h .clear slot image) with
      | some st => State.storeRun 0 (t.popStore.answerCmd (some h) st)
      | none => _) = _
    rw [refusal, pop]
    rfl

/-- A write or clear in maintenance of a slot that no reel runs from is issued to its first readable replica (R335). -/
theorem storeWrite_issues {i : Instr} {name : String} {op : StoreOp} {image : List Byte} {r : Nat} (ready : AdminReady s h) (steward : h.comp = 0)
    (empty : s.kry.writes = []) (on : s.kry.maint = true) (idle : s.runsSlot slot = false) (reels : s.kry.insts = [])
    (used : ∀ q < 4, (s.block (replicaDie q) (s.pairBlock q (slot / 16) (1 - s.liveVersion q (slot / 16)))).use = .system)
    (first : (List.range 4).find? (fun r => s.replicaReadable r (slot / 16)) = some r)
    (kind : op = .write ∧ s.imageRefusal (imageOf image).1 (imageOf image).2 = none ∨ op = .clear)
    (run : exec i s = admin name h storeRow s (fun t => t.storeAdmit (storeWriteOf h op slot image))) :
    let b := s.pairBlock r (slot / 16) (1 - s.liveVersion r (slot / 16))
    let k := s.block (replicaDie r) b
    let u := if k.qlc = false ∧ k.wp = 0 then 3 else 1
    Goes i s (fun t => (∃ x, t.kry.writes = [x] ∧ x.cmd = some h ∧ x.op = op ∧ x.slot = slot ∧ x.replica = r ∧ x.unit = u) ∧
      ∃ e : QEntry, e.kind = (if u = 1 then .eraseSlc else .progSlc) ∧ e.block = b ∧ e.purpose = .store ∧
        (e ∈ (t.die (replicaDie r)).queue ∨ ∃ o, (t.die (replicaDie r)).op = some o ∧ o.entry = e)) := by
  intro b k u
  obtain ⟨t, ht⟩ : ∃ t : State, t = { s.fetch h with kry := { (s.fetch h).kry with writes := [storeWriteOf h op slot image] } } := ⟨_, rfl⟩
  have accepts : t.storeRefusal (storeWriteOf h op slot image) = none := by
    have maint : t.kry.maint = true := by rw [ht]; exact on
    have free : t.runsSlot slot = false := by rw [ht]; exact idle
    have fine : (if op = .write then t.imageRefusal (imageOf image).1 (imageOf image).2 else none) = none := by
      obtain ⟨-, good⟩ | rfl := kind
      · rw [show t.imageRefusal (imageOf image).1 (imageOf image).2 = none by rw [ht]; exact good, ite_self]
      · rfl
    rw [State.storeRefusal, maint]
    show (match (if op = .write then t.imageRefusal (imageOf image).1 (imageOf image).2 else none) with
      | some st => some st
      | none => if t.runsSlot slot then some .sequenceError else none) = none
    rw [fine, free]
    rfl
  have head : t.storeHead = some (storeWriteOf h op slot image) := by rw [ht]; rfl
  have pair : ∀ q i v, t.pairBlock q i v = s.pairBlock q i v := fun q i v => by rw [ht]; rfl
  have live : ∀ q i, t.liveVersion q i = s.liveVersion q i := fun q i => by rw [ht]; rfl
  have block : ∀ d b, t.block d b = s.block d b := fun d b => by rw [ht]; rfl
  have reels_t : t.kry.insts = [] := by rw [ht]; exact reels
  have used_t : ∀ q < 4, (t.block (replicaDie q) (t.pairBlock q (slot / 16) (1 - t.liveVersion q (slot / 16)))).use = .system := fun q low => by
    rw [pair, live, block]
    exact used q low
  have first_t : (List.range 4).find? (fun r => t.replicaReadable r (slot / 16)) = some r := by rw [ht]; exact first
  have only_ : t.kry.writes = [storeWriteOf h op slot image] := by rw [ht]
  have goes : ∃ v, t.storeGo (storeWriteOf h op slot image) = some v := ⟨_, storeGo_first rfl reels_t used_t first_t⟩
  obtain ⟨v, hv⟩ := goes
  have does : (s.fetch h).storeAdmit (storeWriteOf h op slot image) = v := by
    rw [storeAdmit_first (s := s.fetch h) empty, ← ht, State.storeRun, head]
    obtain ⟨rfl, -⟩ | rfl := kind
    · show (match t.storeRefusal (storeWriteOf h .write slot image) with
        | some st => State.storeRun 0 (t.popStore.answerCmd (some h) st)
        | none => match t.storeGo (storeWriteOf h .write slot image) with
          | some x => x
          | none => State.storeRun 0 (t.storeEnd (storeWriteOf h .write slot image))) = v
      rw [accepts, hv]
    · show (match t.storeRefusal (storeWriteOf h .clear slot image) with
        | some st => State.storeRun 0 (t.popStore.answerCmd (some h) st)
        | none => match t.storeGo (storeWriteOf h .clear slot image) with
          | some x => x
          | none => State.storeRun 0 (t.storeEnd (storeWriteOf h .clear slot image))) = v
      rw [accepts, hv]
  have issues := storeGo_issues (w := storeWriteOf h op slot image) rfl reels_t used_t first_t only_ hv
  simp only [pair, live, block, show (storeWriteOf h op slot image).slot = slot from rfl] at issues
  obtain ⟨front, e, e_kind, e_block, e_purpose, m, waits⟩ := issues
  exact admin_goes ready (.inl steward) run (by rw [does]; exact ⟨front, { e with capWait := m }, e_kind, e_block, e_purpose, waits⟩)

end StoreCommands

end Sys2Proof.Proofs
end

section
/-! SUPPORT for O43: images are pinned and let go, and reels start and are reported (R313, R314, R318 to R325). -/

namespace Sys2Proof.Proofs

open Sys2Proof Sys2Proof.Machine

section Pinned

variable {s : State} {h : HostCmd} {n : Nat}

theorem reelLoad_completes (r : AdminReady s h) (steward : h.comp = 0) {image : List Byte}
    (fine : s.imageRefusal (imageOf image).1 (imageOf image).2 = none) (free : s.freeHandle = some n)
    (room : s.pinnedTotal + State.pinnedBytes (imageOf image).2 ≤ 12582912) :
    CompletesWith (.reelLoad h image) s h (BitVec.ofNat 32 n) (fun t =>
      t.pinnedAt n = some { comp := h.comp, image := (imageOf image).1, length := (imageOf image).2 } ∧
      ∀ m, m ≠ n → t.pinnedAt m = s.pinnedAt m) := by
  obtain ⟨x, hx⟩ : ∃ x : Pinned, x = { comp := h.comp, image := (imageOf image).1, length := (imageOf image).2 } := ⟨_, rfl⟩
  obtain ⟨u, hu⟩ : ∃ u, u = (((s.fetch h).setPinned n (some x)).makeRoom 0 []).makeRoom 1 [] := ⟨_, rfl⟩
  have does : (s.fetch h).loadImage h image = u.done h (BitVec.ofNat 32 n) := by
    have fine' : (s.fetch h).imageRefusal (imageOf image).1 (imageOf image).2 = none := fine
    have free' : (s.fetch h).freeHandle = some n := free
    have room' : (s.fetch h).pinnedTotal + State.pinnedBytes (imageOf image).2 ≤ 12582912 := room
    unfold State.loadImage
    dsimp only
    rw [fine', free', hu, hx]
    exact if_pos room'
  have pinned : u.kry.pinned = put none s.kry.pinned n (some x) := by
    have first := makeRoom_evicts ((s.fetch h).setPinned n (some x)) 0 []
    have second := makeRoom_evicts (((s.fetch h).setPinned n (some x)).makeRoom 0 []) 1 []
    rw [← hu] at second
    exact (congrArg (fun t : State => t.kry.pinned) second.rest :).trans (congrArg (fun t : State => t.kry.pinned) first.rest :)
  have at_ : ∀ m, (u.done h (BitVec.ofNat 32 n)).pinnedAt m = look none (put none s.kry.pinned n (some x)) m := fun m => by
    rw [State.pinnedAt, done_rest, ← pinned]
  refine admin_completesWith r (.inl steward) rfl does ⟨?_, fun m other => ?_⟩
  · rw [at_, look_put_of_ne _ _ _ _ (Option.some_ne_none _), hx]
  · rw [at_, look_put_other _ _ _ _ _ other]
    rfl

theorem reelLoad_refused (r : AdminReady s h) (steward : h.comp = 0) {image : List Byte} {st : Status}
    (refused : s.imageRefusal (imageOf image).1 (imageOf image).2 = some st) : OnlyCompletes (.reelLoad h image) s h st := by
  refine admin_refuses r (.inl steward) rfl ?_
  have refused' : (s.fetch h).imageRefusal (imageOf image).1 (imageOf image).2 = some st := refused
  unfold State.loadImage
  dsimp only
  rw [refused']

theorem reaches_steward (steward : h.comp = 0) (c : Nat) : reaches h c = true := by
  rw [reaches, decide_eq_true steward]
  rfl

theorem reelUnload_serves (r : AdminReady s h) (steward : h.comp = 0) {x : Pinned} (is : s.pinnedAt n = some x) (idle : s.runsHandle n = false)
    (tables : canon none s.kry.pinned = true) :
    Serves (.reelUnload h n) s h (fun t => t.pinnedAt n = none ∧ ∀ m, m ≠ n → t.pinnedAt m = s.pinnedAt m) := by
  obtain ⟨u, hu⟩ : ∃ u, u = (s.fetch h).setPinned n none := ⟨_, rfl⟩
  have does : (s.fetch h).unloadImage h n = u.done h 0 := by
    have is' : (s.fetch h).pinnedAt n = some x := is
    have idle' : (s.fetch h).runsHandle n = false := idle
    unfold State.unloadImage
    rw [is']
    dsimp only
    rw [reaches_steward steward, idle', hu]
    rfl
  have at_ : ∀ m, (u.done h 0).pinnedAt m = look none (put none s.kry.pinned n none) m := fun m => by
    rw [State.pinnedAt, done_rest, hu]
    rfl
  refine admin_serves r (.inl steward) rfl does ⟨?_, fun m other => ?_⟩
  · rw [at_, look_put _ _ _ _ tables]
  · rw [at_, look_put_other _ _ _ _ _ other]
    rfl

theorem reelUnload_refused (r : AdminReady s h) (steward : h.comp = 0) (none_ : s.pinnedAt n = none) :
    OnlyCompletes (.reelUnload h n) s h .invalidField := by
  refine admin_refuses r (.inl steward) rfl ?_
  have none' : (s.fetch h).pinnedAt n = none := none_
  unfold State.unloadImage
  rw [none']

end Pinned

section Started

variable {s : State} {h : HostCmd} {a : ReelArgs} {m : SMap Byte × Nat} {c : Nat}

/-- The checks that a start passes before it looks for its twin. -/
structure MayStart (s : State) (h : HostCmd) (a : ReelArgs) (m : SMap Byte × Nat) : Prop where
  formed : s.startFormed h a = true
  thawed : s.frozen a.comp = false
  read : a.readOk = true
  image : s.startImage h a = .ok m
  fine : s.imageRefusal m.1 m.2 = none
  caps : a.comp ≠ 0 → imageCaps m.1 &&& stewardCaps = 0

theorem startReel_of (may : MayStart s h a m) : (s.fetch h).startReel h a =
    (match (if imageSingle m.1 then s.twinOf (imageCheckField m.1) a.comp else none) with
      | some i => (s.fetch h).complete h .success (BitVec.ofNat 32 i) 1
      | none => match s.homeFor a.comp with
        | some c => (s.fetch h).launch h a c m
        | none => (s.fetch h).fail h .sequenceError) := by
  obtain ⟨formed, thawed, read, image, fine, caps⟩ := may
  have formed' : (s.fetch h).startFormed h a = true := formed
  have thawed' : (s.fetch h).frozen a.comp = false := thawed
  have image' : (s.fetch h).startImage h a = .ok m := image
  have fine' : (s.fetch h).imageRefusal m.1 m.2 = none := fine
  have caps' : ¬ (a.comp ≠ 0 ∧ imageCaps m.1 &&& stewardCaps ≠ 0) := fun x => x.2 (caps x.1)
  unfold State.startReel
  rw [formed', thawed', image']
  dsimp only
  rw [fine', read]
  exact if_neg caps'

theorem reelStart_twin (r : AdminReady s h) (steward : h.comp = 0) (may : MayStart s h a m) {i : Nat} (single : imageSingle m.1 = true)
    (twin : s.twinOf (imageCheckField m.1) a.comp = some i) :
    CompletesWith (.reelStart h a) s h (BitVec.ofNat 32 i) (fun t => t.kry = s.kry) := by
  have does : (s.fetch h).startReel h a = (s.fetch h).complete h .success (BitVec.ofNat 32 i) 1 := by
    rw [startReel_of may, single, if_pos rfl, twin]
  obtain ⟨same, -, l, out⟩ := complete_host (s.fetch h) h .success (BitVec.ofNat 32 i) 1
  refine ⟨_, (admin_run r (.inl steward)).trans (by rw [does]), ⟨_, by rw [out]; exact List.mem_append_right _ List.mem_cons_self, rfl, rfl, rfl⟩, ?_⟩
  exact (congrArg State.kry same :)

/-- The registers of a reel that starts: its arguments, the stack, and zeroes (R320). -/
theorem startRegs_facts (args : List Word) : (∀ j < 7, ((State.startRegs args)[j]?).getD 0 = args.getD j 0) ∧
    ((State.startRegs args)[28]?).getD 0 = 0 ∧ ((State.startRegs args)[29]?).getD 0 = 0x4000 := by
  have first : ((List.range 7).map (fun i => (args[i]?).getD 0)).length = 7 := by rw [List.length_map, List.length_range]
  refine ⟨fun j low => ?_, ?_, ?_⟩
  · rw [State.startRegs, List.append_assoc, List.getElem?_append_left (by rw [first]; exact low), List.getElem?_map, List.getElem?_range low]
    rfl
  · rfl
  · rfl

/-- A reel that starts runs from its entry, with the serial number one higher (R318 to R320, R324). -/
theorem launch_facts (s : State) (h : HostCmd) (a : ReelArgs) (c : Nat) (m : SMap Byte × Nat) :
    let i := (s.kry.serial + 1).toNat * 256 + c
    ∃ t : State, s.launch h a c m = t.done h (BitVec.ofNat 32 i) ∧ t.kry.serial = s.kry.serial + 1 ∧
      (∃ x, t.kinst i = some x ∧ x.ctx = c ∧ x.source = a.source ∧ x.place = a.place ∧ x.startAt = s.now) ∧
      t.kctx c = some (State.startCtx i a m.1) := by
  intro i
  obtain ⟨u, hu⟩ : ∃ u : State, u = ((({ s with kry := { s.kry with serial := s.kry.serial + 1 } } : State).setKctx c
      (some (State.startCtx i a m.1))).setKinst i (some (({ s with kry := { s.kry with serial := s.kry.serial + 1 } } : State).startInst h a c m))).startClock
      (96 + c / 4) := ⟨_, rfl⟩
  have parts : u.kry.serial = s.kry.serial + 1 ∧ u.kctx c = some (State.startCtx i a m.1) ∧
      u.kinst i = some (({ s with kry := { s.kry with serial := s.kry.serial + 1 } } : State).startInst h a c m) := by
    rw [hu]
    exact ⟨rfl, look_put_of_ne _ _ _ _ (Option.some_ne_none _), look_put_of_ne _ _ _ _ (Option.some_ne_none _)⟩
  obtain ⟨serial, ctx, inst⟩ := parts
  have frame := event_frame u 0x0800 0 (srcCaller c) a.comp [i, if a.source = 2 then a.place else 0x1FF, a.comp]
  obtain ⟨t, ht⟩ : ∃ t, t = u.event 0x0800 0 (srcCaller c) a.comp [i, if a.source = 2 then a.place else 0x1FF, a.comp] := ⟨_, rfl⟩
  rw [← ht] at frame
  obtain ⟨x, hx, same⟩ := frame.kept i _ inst
  refine ⟨t, by rw [ht, hu]; rfl, (congrArg (fun v : State => v.kry.serial) frame.rest :).trans serial, ⟨x, hx, ?_⟩,
    (congrArg (fun v : State => v.kctx c) frame.rest :).trans ctx⟩
  rw [same]
  exact ⟨rfl, rfl, rfl, rfl⟩

theorem reelStart_completes (r : AdminReady s h) (steward : h.comp = 0) (may : MayStart s h a m)
    (alone : imageSingle m.1 = true → s.twinOf (imageCheckField m.1) a.comp = none) (home : s.homeFor a.comp = some c) :
    let i := (s.kry.serial + 1).toNat * 256 + c
    CompletesWith (.reelStart h a) s h (BitVec.ofNat 32 i) (fun t => t.kry.serial = s.kry.serial + 1 ∧
      (∃ x, t.kinst i = some x ∧ x.ctx = c ∧ x.source = a.source ∧ x.place = a.place ∧ x.startAt = s.now) ∧
      ∃ k, t.kctx c = some k ∧ k.inst = i ∧ k.pc = imageEntry m.1 ∧ k.cap = imageCaps m.1 ∧ k.comp = a.comp ∧
        (∀ j < 7, reg k (j + 1) = a.args.getD j 0) ∧ reg k 30 = 0x4000 ∧ reg k 29 = 0 ∧ k.scratch = [] ∧
        k.flags = { z := false, n := false, c := false, v := false } ∧ k.epoch = 0 ∧ k.journal = [] ∧ k.held = []) := by
  intro i
  have none_ : (if imageSingle m.1 then s.twinOf (imageCheckField m.1) a.comp else none) = none := by
    split
    · next single => exact alone single
    · rfl
  obtain ⟨t, run, serial, inst, ctx⟩ := launch_facts (s.fetch h) h a c m
  have does : (s.fetch h).startReel h a = t.done h (BitVec.ofNat 32 i) := by
    rw [startReel_of may, none_, home]
    exact run
  obtain ⟨args, zero, stack⟩ := startRegs_facts a.args
  have kry : (t.done h (BitVec.ofNat 32 i)).kry = t.kry := by rw [done_rest]
  refine admin_completesWith r (.inl steward) rfl does ⟨?_, ?_, State.startCtx i a m.1, ?_, rfl, rfl, rfl, rfl, args, stack, zero, rfl, rfl, rfl, rfl, rfl⟩
  · rw [kry]; exact serial
  · obtain ⟨x, at_, facts⟩ := inst
    exact ⟨x, by rw [State.kinst, kry]; exact at_, facts⟩
  · rw [State.kctx, kry]; exact ctx

end Started

end Sys2Proof.Proofs
end

section
/-! SUPPORT for O43: the end of a reel leaves the time base, and answers every command that waited for it (R325, R327, R334). -/

namespace Sys2Proof.Proofs

open Sys2Proof Sys2Proof.Machine

section Time

variable {s t u : State}

/-- The time base stands as it was. -/
def TimStands (s t : State) : Prop := t.tim = s.tim

theorem TimStands.refl (s : State) : TimStands s s := rfl

theorem TimStands.trans (a : TimStands s t) (b : TimStands t u) : TimStands s u := Eq.trans b a

theorem TimStands.of_frame (f : EventFrame s t) : TimStands s t := (congrArg State.tim f.rest :)

theorem TimStands.of_log (same : t.log = s.log) : TimStands s t := (congrArg Log.tim same :)

theorem TimStands.ite {c : Prop} [Decidable c] (a : TimStands s t) (b : TimStands s u) : TimStands s (if c then t else u) := by
  split <;> assumption

theorem TimStands.foldl {α : Type} {f : State → α → State} (hf : ∀ s x, TimStands s (f s x)) : ∀ (l : List α) (s : State), TimStands s (l.foldl f s)
  | [], _ => .refl _
  | x :: l, s => (hf s x).trans (TimStands.foldl hf l (f s x))

theorem timStands_answerCmd (s : State) (h : Option HostCmd) (st : Status) : TimStands s (s.answerCmd h st) := by
  cases h with
  | none => exact .refl s
  | some c => exact .of_frame (complete_frame _ _ _ _ _)

theorem timStands_spareEvents (s : State) (d before : Nat) : TimStands s (s.spareEvents d before) := by
  have first : EventFrame s (if 28 ≤ before ∧ s.spareMin (d / 64 * 4 + d % 4) < 28 then
      (s.event 0x0301 2 (srcRegion ((d / 64 * 4 + d % 4) % 2) 1) 0 [d / 64 * 4 + d % 4, s.spareMin (d / 64 * 4 + d % 4)]).warning 0 2 else s) :=
    .ite ((event_frame _ _ _ _ _ _).trans (warning_frame _ _ _)) (.refl s)
  unfold State.spareEvents
  dsimp only
  exact .of_frame (.ite (first.trans (event_frame _ _ _ _ _ _)) first)

theorem timStands_takeSpare {d b : Nat} {role : Role} {use : BlockUse} (taken : s.takeSpare d role use = some (b, t)) : TimStands s t := by
  unfold State.takeSpare at taken
  split at taken
  · exact absurd taken (by simp)
  · split at taken
    · exact absurd taken (by simp)
    · obtain ⟨-, rfl⟩ := Prod.mk.inj (Option.some.inj taken)
      have events : ∀ (u : State) (k : Nat), TimStands s u → TimStands s (u.spareEvents d k) := fun u k same =>
        same.trans (timStands_spareEvents u d k)
      exact events _ _ rfl

theorem timStands_storeSpare (s : State) (r i : Nat) : TimStands s (s.storeSpare r i) := by
  unfold State.storeSpare
  dsimp only
  split
  · split
    · next taken => exact (timStands_takeSpare taken).trans rfl
    · exact .refl s
  · exact .refl s

theorem timStands_storeIssue (s : State) (w : StoreWrite) : TimStands s (s.storeIssue w) := by
  have laid := cellsOnly_layPages (s.setStoreHead { w with unit := w.unit + 1 }) (replicaDie w.replica) (s.storeTarget w) ((w.unit - 2) * 4)
    ((List.range 4).map (fun j => s.newPage w ((w.unit - 2) * 4 + j)))
  unfold State.storeIssue
  dsimp only
  refine TimStands.trans ?_ (.of_log (State.enqueue_log _ _ _))
  obtain ⟨c, same⟩ := laid
  rw [same]
  exact rfl

theorem timStands_storeGo {w : StoreWrite} (goes : s.storeGo w = some t) : TimStands s t := by
  have spares : TimStands s ((List.range 4).foldl (fun t r => if w.replica ≤ r ∧ t.replicaReadable r (w.slot / 16) then t.storeSpare r (w.slot / 16) else t) s) :=
    .foldl (fun t x => .ite (timStands_storeSpare t _ _) (.refl t)) _ _
  unfold State.storeGo at goes
  dsimp only at goes
  generalize (List.range 4).foldl (fun t r => if w.replica ≤ r ∧ t.replicaReadable r (w.slot / 16) then t.storeSpare r (w.slot / 16) else t) s = u at spares goes
  split at goes
  · exact absurd goes (by simp)
  · obtain rfl := Option.some.inj goes
    refine spares.trans (.ite (timStands_storeIssue _ _) (.ite rfl ?_))
    exact TimStands.trans rfl (.of_log (State.enqueue_log _ _ _))

theorem timStands_storeEnd (s : State) (w : StoreWrite) : TimStands s (s.storeEnd w) :=
  (TimStands.trans rfl (.of_frame (event_frame s.popStore 0x0803 1 srcHost 0 [w.slot, w.written]))).trans (timStands_answerCmd _ _ _)

theorem timStands_storeRun : ∀ (n : Nat) (s : State), TimStands s (State.storeRun n s)
  | 0, s => .refl s
  | n + 1, s => by
    have answered : ∀ (t : State) (h : Option HostCmd) (st : Status), TimStands s t → TimStands s (State.storeRun n (t.answerCmd h st)) :=
      fun t h st same => (same.trans (timStands_answerCmd t h st)).trans (timStands_storeRun n _)
    unfold State.storeRun
    split
    · exact .refl s
    · split
      · exact answered _ _ _ rfl
      · exact answered _ _ _ rfl
      all_goals
        split
        · exact answered _ _ _ rfl
        · split
          · next goes => exact timStands_storeGo goes
          · exact (timStands_storeEnd _ _).trans (timStands_storeRun n _)

theorem timStands_storeSkips (s : State) (w : StoreWrite) (a b : Nat) : TimStands s (s.storeSkips w a b) := by
  have tells : ∀ (t u : State) (fields : List Int) (k : Nat), TimStands t u → TimStands t (u.event 0x0804 3 k 0 fields) := fun t u fields k same =>
    same.trans (.of_frame (event_frame u _ _ _ _ _))
  have lost : ∀ (t : State) (i r : Nat), TimStands t (t.loseReplica i r) := fun t i r => by
    unfold State.loseReplica
    exact .ite (.refl t) (tells t _ _ _ rfl)
  exact .foldl (fun t x => .ite (lost t _ _) (.refl t)) _ _

theorem timStands_storeWake (s : State) : TimStands s s.storeWake := by
  have next : ∀ w : StoreWrite, TimStands s (s.storeNext w) := fun w => by
    unfold State.storeNext
    extract_lets u
    have skipped : TimStands s u := by
      simp only [u]
      split
      · split
        · exact timStands_storeSkips _ _ _ _
        · exact .refl s
      · exact .ite (.refl s) (timStands_storeSkips _ _ _ _)
    clear_value u
    refine skipped.trans ?_
    split
    · next goes => exact timStands_storeGo goes
    · exact (timStands_storeEnd _ _).trans (timStands_storeRun _ _)
  unfold State.storeWake
  split
  · exact .ite (next _) (.refl s)
  · exact .refl s

end Time

section Stops

variable {s : State} {c : Nat} {k : KCtx} {i : KInst}

theorem completed_foldl_done : ∀ {l : List HostCmd} {s : State} {h : HostCmd}, h ∈ l ∨ Completed s h .success →
    Completed (l.foldl (fun t x => t.done x 0) s) h .success
  | [], _, _, is => is.resolve_left List.not_mem_nil
  | x :: l, s, h, is => completed_foldl_done (l := l) (s := s.done x 0) (by
      obtain mem | ⟨e, out, cmd, status, dnr⟩ := is
      · obtain rfl | mem := List.mem_cons.mp mem
        · exact .inr (completed_complete _ _ _ _ _)
        · exact .inl mem
      · exact .inr ⟨e, out_complete out _ _ _ _, cmd, status, dnr⟩)

/-- A reel that is told to halt ends in state 6: its context and its entry are free, its record heads the list, and every
command that waited for it completes (R325, R327). -/
theorem stopReel_halted (tables : ReelTables s) (hk : s.kctx c = some k) (hi : s.kinst k.inst = some i) :
    (s.stopReel c 6 0 0).kctx c = none ∧ (s.stopReel c 6 0 0).kinst k.inst = none ∧
      (s.stopReel c 6 0 0).kry.records.head? = some (s.recordOf c k i 6 0 0) ∧ TimStands s (s.stopReel c 6 0 0) ∧
      (∀ h ∈ k.halts, Completed (s.stopReel c 6 0 0) h .success) ∧ ∀ d, d ≠ c → (s.stopReel c 6 0 0).kctx d = s.kctx d := by
  obtain ⟨ctxTable, instTable⟩ := tables
  obtain ⟨t, before, after⟩ := stopReel_frames (s := s) (state := 6) (code := 0) (detail := 0) hk hi
  have kept := ((ReelsKept.of_eventFrame before).trans (storeWake_kept t)).trans (.of_eventFrame after)
  have time := ((TimStands.of_frame before).trans (timStands_storeWake t)).trans (.of_frame after)
  have ends : ∃ v : State, s.stopReel c 6 0 0 = k.halts.foldl (fun t x => t.done x 0) v := by
    unfold State.stopReel
    rw [hk]
    dsimp only
    rw [hi]
    exact ⟨_, rfl⟩
  have ctx : ∀ d, (s.stopReel c 6 0 0).kctx d = look none (put none s.kry.ctxs c none) d := fun d =>
    congrArg (look none · d) kept.ctxs
  refine ⟨?_, ?_, (congrArg List.head? kept.records).trans rfl, time, fun h mem => ?_, fun d other => ?_⟩
  · rw [ctx]; exact look_put _ _ _ _ ctxTable
  · exact kept.gone _ (look_put none s.kry.insts k.inst none instTable)
  · obtain ⟨v, run⟩ := ends
    rw [run]
    exact completed_foldl_done (.inl mem)
  · rw [ctx]; exact look_put_other _ _ _ _ _ other

end Stops

end Sys2Proof.Proofs
end

section
/-! Settles O43: reels are halted and reported, and the rows of reel administration (R312 to R314, R318 to R325, R327, R335 to R337). -/

namespace Sys2Proof.Proofs

open Sys2Proof Sys2Proof.Machine

section Halted

variable {s : State} {h : HostCmd} {i : Nat} {x : KInst} {k : KCtx}

/-- What the module reports of a reel that runs: told to halt, ready, or waiting (R325). -/
def liveState (k : KCtx) : Nat := if k.haltAt.isSome = true then 3 else if k.wait = .ready then 1 else 2

theorem statusOf_live (hx : s.kinst i = some x) (hk : s.kctx x.ctx = some k) :
    s.statusOf i = some { s.recordOf x.ctx k x (liveState k) 0 0 with endAt := 0 } := by
  unfold State.statusOf
  rw [hx]
  dsimp only
  rw [hk]
  rfl

theorem statusOf_ended (none_ : s.kinst i = none) : s.statusOf i = s.kry.records.find? (fun r => decide (r.inst = i)) := by
  unfold State.statusOf
  rw [none_]
  rfl

theorem exec_halt (h : HostCmd) (i ms : Nat) (s : State) : exec (.reelHalt h i ms) s =
    admin "REEL_HALT" h reelRow s (fun t => if 65536 ≤ ms then t.fail h .invalidField else t.haltReel h i ms) := rfl

/-- The reel with a Reel Halt more that waits for it. -/
def toldToHalt (s : State) (h : HostCmd) (ms : Nat) (k : KCtx) : KCtx :=
  let t := s.now + ms * 1000000
  let sooner := match k.haltAt with
    | some u => decide (t < u)
    | none => true
  { k with
    haltAt := if sooner then some t else k.haltAt, grace := if sooner then ms else k.grace, halts := k.halts ++ [h] }

theorem haltReel_live (steward : h.comp = 0) (hx : s.kinst i = some x) (hk : s.kctx x.ctx = some k) (ms : Nat) :
    s.haltReel h i ms = if ms = 0 then (s.setKctx x.ctx (some (toldToHalt s h ms k))).stopReel x.ctx 6 0 0
      else s.setKctx x.ctx (some (toldToHalt s h ms k)) := by
  unfold State.haltReel
  rw [statusOf_live hx hk]
  dsimp only
  rw [reaches_steward steward, hx]
  show s.haltInst h x ms = _
  unfold State.haltInst
  rw [hk]
  rfl

theorem reelHalt_serves (r : AdminReady s h) (steward : h.comp = 0) (tables : ReelTables s) (hx : s.kinst i = some x)
    (hk : s.kctx x.ctx = some k) (named : k.inst = i) : Serves (.reelHalt h i 0) s h (fun t => t.kctx x.ctx = none ∧ t.kinst i = none ∧
      ∃ r, t.kry.records.head? = some r ∧ r.inst = i ∧ r.state = 6) := by
  obtain ⟨q, hq⟩ : ∃ q, q = toldToHalt (s.fetch h) h 0 k := ⟨_, rfl⟩
  have inst : q.inst = i := by rw [hq]; exact named
  have waits : h ∈ q.halts := by rw [hq]; exact List.mem_append_right _ List.mem_cons_self
  obtain ⟨u, hu⟩ : ∃ u, u = (s.fetch h).setKctx x.ctx (some q) := ⟨_, rfl⟩
  have parts : u.kctx x.ctx = some q ∧ u.kinst q.inst = some x ∧ ReelTables u := by
    rw [hu, inst]
    exact ⟨look_put_of_ne _ _ _ _ (Option.some_ne_none _), hx, canon_put _ _ _ _ tables.1, tables.2⟩
  obtain ⟨hq', hx', tables'⟩ := parts
  obtain ⟨ctx, gone, record, -, answered, -⟩ := stopReel_halted tables' hq' hx'
  have does : (s.fetch h).haltReel h i 0 = u.stopReel x.ctx 6 0 0 := by
    rw [haltReel_live (s := s.fetch h) steward hx hk 0, hu, hq]
    rfl
  rw [inst] at gone
  refine ⟨_, (exec_halt h i 0 s).trans (admin_run r (.inl steward)), ?_⟩
  rw [if_neg (by decide), does]
  exact ⟨answered h waits, ctx, gone, _, record, inst, rfl⟩

theorem reelHalt_waits (r : AdminReady s h) (steward : h.comp = 0) (hx : s.kinst i = some x) (hk : s.kctx x.ctx = some k) {ms : Nat}
    (some_ : 0 < ms) (low : ms < 65536) (calm : k.haltAt = none) : Goes (.reelHalt h i ms) s (fun t => t.hif.out = s.hif.out ∧
      t.kctx x.ctx = some { k with haltAt := some (s.now + ms * 1000000), grace := ms, halts := k.halts ++ [h] }) := by
  have told : toldToHalt (s.fetch h) h ms k = { k with haltAt := some (s.now + ms * 1000000), grace := ms, halts := k.halts ++ [h] } := by
    unfold toldToHalt
    rw [calm]
    rfl
  refine ⟨_, (exec_halt h i ms s).trans (admin_run r (.inl steward)), ?_⟩
  rw [if_neg (by omega), haltReel_live (s := s.fetch h) steward hx hk ms, if_neg (by omega), told]
  exact ⟨rfl, look_put_of_ne _ _ _ _ (Option.some_ne_none _)⟩

theorem statusReel_serves (r : AdminReady s h) (steward : h.comp = 0) {rec_ : KRecord} (found : s.statusOf i = some rec_) :
    Serves (.reelStatus h i) s h (fun t => Output.data h (State.recordBytes rec_) ∈ t.hif.out) := by
  obtain ⟨u, hu⟩ : ∃ u, u = (s.fetch h).emit (.data h (State.recordBytes rec_)) := ⟨_, rfl⟩
  have mem : Output.data h (State.recordBytes rec_) ∈ u.hif.out := by rw [hu]; exact List.mem_cons_self
  have does : (s.fetch h).statusReel h i = u.done h 0 := by
    have found' : (s.fetch h).statusOf i = some rec_ := found
    unfold State.statusReel
    rw [found']
    dsimp only
    rw [if_pos (reaches_steward steward _), hu]
  exact admin_serves r (.inl steward) rfl does (out_complete mem _ _ _ _)

theorem reelStatus_live (r : AdminReady s h) (steward : h.comp = 0) (hx : s.kinst i = some x) (hk : s.kctx x.ctx = some k) (named : k.inst = i) :
    Serves (.reelStatus h i) s h (fun t => ∃ r, Output.data h (State.recordBytes r) ∈ t.hif.out ∧ r.inst = i ∧
      r.state = (if k.haltAt.isSome = true then 3 else if k.wait = .ready then 1 else 2) ∧ r.pc = k.pc ∧ r.retired = k.retired) := by
  obtain ⟨t, run, done, data⟩ := statusReel_serves r steward (statusOf_live hx hk)
  exact ⟨t, run, done, _, data, named, rfl, rfl, rfl⟩

/-- A Reel Halt of a reel that has ended completes at once. -/
theorem reelHalt_ended (r : AdminReady s h) (steward : h.comp = 0) (none_ : s.kinst i = none) {rec_ : KRecord}
    (found : s.kry.records.find? (fun r => decide (r.inst = i)) = some rec_) : Serves (.reelHalt h i 0) s h (fun t => t.kry = s.kry) := by
  have does : (s.fetch h).haltReel h i 0 = (s.fetch h).done h 0 := by
    have none' : (s.fetch h).kinst i = none := none_
    have found' : (s.fetch h).statusOf i = some rec_ := (statusOf_ended none').trans found
    unfold State.haltReel
    rw [found', none']
    dsimp only
    rw [reaches_steward steward]
    rfl
  refine admin_serves (t := s.fetch h) (dw := 0) r (.inl steward) (exec_halt h i 0 s) ?_ ?_
  · rw [if_neg (by decide), does]
  · rw [done_rest]
    rfl

theorem unknown_refused (r : AdminReady s h) (steward : h.comp = 0) (none_ : s.kinst i = none) (unknown : ∀ r ∈ s.kry.records, r.inst ≠ i) :
    OnlyCompletes (.reelHalt h i 0) s h .invalidField ∧ OnlyCompletes (.reelStatus h i) s h .invalidField := by
  have missing : (s.fetch h).statusOf i = none := by
    have none' : (s.fetch h).kinst i = none := none_
    rw [statusOf_ended none']
    exact List.find?_eq_none.mpr fun r mem is => unknown r mem (of_decide_eq_true is)
  refine ⟨admin_refuses r (.inl steward) (exec_halt h i 0 s) ?_, admin_refuses r (.inl steward) rfl ?_⟩
  · rw [if_neg (by decide)]
    unfold State.haltReel
    rw [missing]
  · unfold State.statusReel
    rw [missing]

end Halted

section Grace

variable {s : State} {i : Nat} {x : KInst} {k : KCtx} {at_ : Nat}

theorem grace_ends (tables : ReelTables s) (hx : s.kinst i = some x) (hk : s.kctx x.ctx = some k) (named : k.inst = i)
    (told : k.haltAt = some at_) : Goes (.reelHaltGraceExpiry i) s (fun t => t.kctx x.ctx = none ∧ t.kinst i = none ∧
      (∃ r, t.kry.records.head? = some r ∧ r.inst = i ∧ r.state = 6 ∧ r.endAt = t.tim.now) ∧
      t.tim.now = max s.now (min at_ 0xFFFFFFFFFFFFFFFF) ∧ (∀ h ∈ k.halts, Completed t h .success) ∧
      ∀ c, c ≠ x.ctx → t.kctx c = s.kctx c) := by
  obtain ⟨u, hu⟩ : ∃ u, u = s.advanceTo at_ := ⟨_, rfl⟩
  have parts : u.kctx x.ctx = some k ∧ u.kinst k.inst = some x ∧ ReelTables u ∧ u.tim.now = max s.now (min at_ 0xFFFFFFFFFFFFFFFF) ∧
      ∀ c, u.kctx c = s.kctx c := by
    rw [hu, named]
    exact ⟨hk, hx, tables, rfl, fun _ => rfl⟩
  obtain ⟨hk', hx', tables', now, ctxs⟩ := parts
  obtain ⟨ctx, gone, record, time, answered, others⟩ := stopReel_halted tables' hk' hx'
  have tim : (u.stopReel x.ctx 6 0 0).tim.now = u.tim.now := congrArg TimeBase.now time
  have run : exec (.reelHaltGraceExpiry i) s = .next (u.stopReel x.ctx 6 0 0) := by
    rw [show exec (.reelHaltGraceExpiry i) s = execReelHaltGraceExpiry i s from rfl, execReelHaltGraceExpiry, hx]
    dsimp only
    rw [hk, Option.bind_some, told, hu]
  rw [named] at gone
  exact ⟨_, run, ctx, gone, ⟨_, record, named, rfl, tim.symm⟩, tim.trans now, answered, fun c other => (others c other).trans (ctxs c)⟩

end Grace

/-- Settles O43: each row is the lemma of its command. -/
theorem reelAdministrationTakesEffect : Obligations.ReelAdministrationTakesEffect := by
  refine ⟨fun s h r steward tables => ?_, fun s i x k at_ tables hx hk named told => grace_ends tables hx hk named told⟩
  refine ⟨fun image n fine free room => reelLoad_completes r steward fine free room, fun image st refused => reelLoad_refused r steward refused,
    fun n x is idle canonical => reelUnload_serves r steward is idle canonical, fun n none_ => reelUnload_refused r steward none_,
    fun empty => ⟨maintenance_serves r steward empty rfl (.inl ⟨rfl, rfl⟩), maintenance_serves r steward empty rfl (.inr ⟨rfl, rfl⟩),
      fun off slot image => ⟨storeWrite_refused r steward empty off (.inl rfl) rfl, storeWrite_refused r steward empty off (.inr rfl) rfl⟩,
      fun slot image q w on idle reels used first => ?_⟩,
    fun a m c formed thawed read image fine caps alone home => reelStart_completes r steward ⟨formed, thawed, read, image, fine, caps⟩ alone home,
    fun a m i formed thawed read image fine caps single twin => reelStart_twin r steward ⟨formed, thawed, read, image, fine, caps⟩ single twin,
    fun i x k hx hk named => ⟨reelHalt_serves r steward tables hx hk named,
      fun ms some_ low calm => reelHalt_waits r steward hx hk some_ low calm, reelStatus_live r steward hx hk named⟩,
    fun i q none_ found => ⟨reelHalt_ended r steward none_ found, statusReel_serves r steward ((statusOf_ended none_).trans found)⟩,
    fun i none_ unknown => unknown_refused r steward none_ unknown⟩
  intro b k issued unit
  subst unit
  exact ⟨fun fine => storeWrite_issues r steward empty on idle reels used first (.inl ⟨rfl, fine⟩) rfl,
    storeWrite_issues r steward empty on idle reels used first (.inr rfl) rfl⟩

end Sys2Proof.Proofs
end

section
/-! SUPPORT for O55: how the one codec job of a module goes on, and what it leaves (R243, R245, R249, R255). -/

namespace Sys2Proof.Proofs

open Sys2Proof Sys2Proof.Machine

section Moves

variable {s t : State} {j : CodecJob}

theorem findSome_single {α : Type} (f : Nat → Option α) : (List.range [j].length).findSome? f = f 0 := by
  rw [List.length_singleton, List.range_one, List.findSome?_cons]
  cases f 0 with
  | none => rfl
  | some _ => rfl

/-- A job that holds a lane stays on it. -/
theorem codecMoves_laned {l : Nat} (one : s.fcd.jobs = [j]) (lane : j.lane = some l) : ∀ n, State.codecMoves n s = s
  | 0 => rfl
  | n + 1 => by
    have stays : s.codecMove 0 = none := by
      unfold State.codecMove
      rw [one]
      dsimp only [List.getElem?_cons_zero]
      rw [lane]
      rfl
    rw [State.codecMoves, one, findSome_single, stays]

theorem codecMoves_idle (none_ : s.fcd.jobs = []) : ∀ n, State.codecMoves n s = s
  | 0 => rfl
  | n + 1 => by
    rw [State.codecMoves, none_]
    rfl

/-- The one job that waits goes on, and is done or has its lane. -/
theorem settleCodec_moves (one : s.fcd.jobs = [j]) (moves : s.codecMove 0 = some t)
    (after : t.fcd.jobs = [] ∨ ∃ k l, t.fcd.jobs = [k] ∧ k.lane = some l) : s.settleCodec = t := by
  have rest : State.codecMoves 1 t = t := by
    obtain none_ | ⟨k, l, single, lane⟩ := after
    · exact codecMoves_idle none_ 1
    · exact codecMoves_laned single lane 1
  rw [State.settleCodec, one]
  show State.codecMoves (1 + 1) s = t
  rw [State.codecMoves, one, findSome_single, moves]
  exact rest

theorem codecTurn_one (one : s.fcd.jobs = [j]) (none_ : s.fcd.coded = []) : s.codecTurn 0 = true := by
  rw [State.codecTurn, one]
  dsimp only [List.getElem?_cons_zero]
  rw [none_]
  rfl

end Moves

section Drops

variable {s : State} {j : CodecJob}

/-- Of the state, the codec's queue is empty in `t`, and a carriage and the state of a key erase may differ. -/
structure Dropped (s t : State) : Prop where
  rest : t = { s with fcd := { s.fcd with jobs := [] }, car := t.car, sec := t.sec }
  flights : t.car.flights = s.car.flights
  next : t.car.nextFlight = s.car.nextFlight

theorem dropJob_dropped (one : s.fcd.jobs = [j]) : Dropped s (s.dropJob 0) := by
  obtain ⟨u, hu⟩ : ∃ u : State, u = { s with fcd := { s.fcd with jobs := [] } } := ⟨_, rfl⟩
  have run : s.dropJob 0 = match State.jobCarriage j with
      | some c => (u.setCarriage c { u.carriage c with outstanding := (u.carriage c).outstanding - 1 }).settleKey
      | none => u := by
    unfold State.dropJob
    rw [one, hu]
    rfl
  rw [run]
  split
  · next c _ =>
    obtain ⟨v, hv⟩ : ∃ v, v = u.setCarriage c { u.carriage c with outstanding := (u.carriage c).outstanding - 1 } := ⟨_, rfl⟩
    have parts : v = { s with fcd := { s.fcd with jobs := [] }, car := v.car } ∧ v.car.flights = s.car.flights ∧
        v.car.nextFlight = s.car.nextFlight := by
      rw [hv, hu]
      exact ⟨rfl, rfl, rfl⟩
    obtain ⟨rest, flights, next⟩ := parts
    have same := (settleKey_eq v).1
    rw [← hv]
    refine ⟨?_, by rw [same]; exact flights, by rw [same]; exact next⟩
    rw [same, rest]
  · rw [hu]
    exact ⟨rfl, rfl, rfl⟩

/-- A job of no carriage leaves nothing but the queue. -/
theorem dropJob_plain (one : s.fcd.jobs = [j]) (free : State.jobCarriage j = none) :
    s.dropJob 0 = { s with fcd := { s.fcd with jobs := [] } } := by
  unfold State.dropJob
  rw [one]
  dsimp only [List.getElem?_cons_zero]
  rw [free]
  rfl

theorem jobs_fail (u : State) (h : HostCmd) (st : Status) : (u.fail h st).fcd = u.fcd ∧ (u.fail h st).zns = u.zns ∧ Completed (u.fail h st) h st := by
  obtain ⟨same, -⟩ := complete_host u h st 0 0
  refine ⟨?_, ?_, completed_complete _ _ _ _ _⟩
  · exact (congrArg State.fcd same :)
  · exact (congrArg State.zns same :)

/-- A command whose job leaves the codec's queue fails, and nothing waits behind it. -/
theorem lost_facts (one : s.fcd.jobs = [j]) (h : HostCmd) (st : Status) :
    ((s.dropJob 0).fail h st).settleCodec = (s.dropJob 0).fail h st ∧ Completed ((s.dropJob 0).fail h st) h st ∧
      ((s.dropJob 0).fail h st).zns = s.zns ∧ ((s.dropJob 0).fail h st).fcd = { s.fcd with jobs := [] } := by
  have dropped := (dropJob_dropped one).rest
  obtain ⟨fcd, zns, done⟩ := jobs_fail (s.dropJob 0) h st
  have fcd' : ((s.dropJob 0).fail h st).fcd = { s.fcd with jobs := [] } := fcd.trans (congrArg State.fcd dropped :)
  exact ⟨settleCodec_idle (by rw [fcd']), done, zns.trans (congrArg State.zns dropped :), fcd'⟩

end Drops

section Admitted

variable {s : State} {j : CodecJob} {t : State}

/-- A command that finds the codec empty is its one job. -/
theorem addJob_moves (empty : s.fcd.jobs = []) (moves : ({ s with fcd := { s.fcd with jobs := [j] } } : State).codecMove 0 = some t)
    (after : t.fcd.jobs = [] ∨ ∃ k l, t.fcd.jobs = [k] ∧ k.lane = some l) : s.addJob j = t := by
  have one : s.addJob j = ({ s with fcd := { s.fcd with jobs := [j] } } : State).settleCodec := by
    unfold State.addJob
    rw [empty]
    rfl
  rw [one]
  exact settleCodec_moves rfl moves after

theorem freeLane_waiting (empty : s.fcd.jobs = []) (waits : j.lane = none) (near : Option Nat) :
    ({ s with fcd := { s.fcd with jobs := [j] } } : State).freeLane near = s.freeLane near := by
  have busy : ({ s with fcd := { s.fcd with jobs := [j] } } : State).lanesBusy = s.lanesBusy := by
    rw [State.lanesBusy, State.lanesBusy, empty]
    show [j].filterMap (·.lane) = _
    rw [List.filterMap_cons, waits]
  unfold State.freeLane
  dsimp only
  rw [busy]

end Admitted

end Sys2Proof.Proofs
end

section
/-! SUPPORT for O55: the admission of Frame Append and of the codec state commands (R223, R245, R248, R249, R255). -/

namespace Sys2Proof.Proofs

open Sys2Proof Sys2Proof.Machine

section Gate

variable {s : State} {h : HostCmd} {i : Instr} {name : String}

theorem codecGate_absent (r : IoReady s h) (absent : s.part.codec = false) : (s.fetch h).codecGate h = some (.vendor 0x82) := by
  have absent' : (s.fetch h).part.codec = false := absent
  rw [State.codecGate, ioGate_none r, absent']
  rfl

theorem codecGate_none (r : IoReady s h) (present : s.part.codec = true) : (s.fetch h).codecGate h = none := by
  have present' : (s.fetch h).part.codec = true := present
  have thawed : (s.fetch h).frozen h.comp = false := r.thawed
  rw [State.codecGate, ioGate_none r, present', thawed]
  rfl

/-- A command that the codec's own check completes with a status has no other effect. -/
theorem io_refuses (r : IoReady s h) {f : State → State} {st : Status} (run : exec i s = onIo name h s f)
    (refuses : f (s.fetch h) = (s.fetch h).fail h st) : OnlyCompletes i s h st :=
  onlyCompletes_of_complete ((run.trans (onIo_run r.fetched r.queue)).trans (by rw [refuses]; rfl))

theorem exec_frameAppend {zslba len limit : Nat} {desc raw : List Byte} (lengths : desc.length = 64 ∧ raw.length = len) :
    exec (.frameAppend h zslba len limit desc raw) s = onIo "FRAME_APPEND" h s (fun s => match s.codecGate h with
      | some st => s.refuseCodec h st
      | none => s.onZone h zslba true true .invalidField (fun s t z =>
        if t.unit ≠ 0 then s.fail h .invalidField else s.admitFrame h t z len limit desc raw)) := by
  rw [show exec (.frameAppend h zslba len limit desc raw) s = execFrameAppend h zslba len limit desc raw s from rfl, execFrameAppend]
  exact if_neg fun x => x.elim (fun y => y lengths.1) (fun y => y lengths.2)

theorem stateCheck_absent (r : IoReady s h) (absent : s.part.codec = false) (ctx : Nat) :
    (s.fetch h).stateCheck h ctx = some (.vendor 0x82) := by
  rw [State.stateCheck, codecGate_absent r absent]

theorem exec_frameRead (h : HostCmd) (slba len ctx buf : Nat) (s : State) : exec (.frameRead h slba len ctx buf) s =
    onIo "FRAME_READ" h s (fun s => match s.codecGate h with
      | some st => s.refuseCodec h st
      | none => s.onZone h slba false true .invalidField (fun s t z => s.admitFrameRead h t z len ctx buf)) := rfl

theorem exec_save (h : HostCmd) (ctx : Nat) (s : State) : exec (.codecStateSave h ctx) s =
    onIo "CODEC_STATE_SAVE" h s (fun s => match s.stateCheck h ctx with
      | some st => s.refuseCodec h st
      | none => s.addJob { ctx := ctx, lane := none, near := none, work := .save h }) := rfl

theorem exec_restore (h : HostCmd) (ctx : Nat) (record : List Byte) (s : State) : exec (.codecStateRestore h ctx record) s =
    onIo "CODEC_STATE_RESTORE" h s (fun s => match s.stateCheck h ctx with
      | some st => s.refuseCodec h st
      | none => s.addJob { ctx := ctx, lane := none, near := none, work := .restore h record }) := rfl

/-- On a module without the codec unit every codec command is refused (R223). -/
theorem codec_absent (r : IoReady s h) (absent : s.part.codec = false) {zslba len limit ctx buf : Nat} {desc raw record : List Byte}
    (lengths : desc.length = 64 ∧ raw.length = len) : OnlyCompletes (.frameAppend h zslba len limit desc raw) s h (.vendor 0x82) ∧
      OnlyCompletes (.frameRead h zslba len ctx buf) s h (.vendor 0x82) ∧ OnlyCompletes (.codecStateSave h ctx) s h (.vendor 0x82) ∧
      OnlyCompletes (.codecStateRestore h ctx record) s h (.vendor 0x82) := by
  have refuse : (s.fetch h).refuseCodec h (.vendor 0x82) = (s.fetch h).fail h (.vendor 0x82) := if_neg (by decide)
  refine ⟨io_refuses r (exec_frameAppend lengths) ?_, io_refuses r (exec_frameRead h zslba len ctx buf s) ?_,
    io_refuses r (exec_save h ctx s) ?_, io_refuses r (exec_restore h ctx record s) ?_⟩
  · rw [codecGate_absent r absent]
    exact refuse
  · rw [codecGate_absent r absent]
    exact refuse
  · rw [stateCheck_absent r absent]
    exact refuse
  · rw [stateCheck_absent r absent]
    exact refuse

end Gate

section Append

variable {s : State} {h : HostCmd} {zslba len limit u z c key x : Nat} {desc raw : List Byte} {n : NsEntry}

theorem frameAppend_runs (r : IoReady s h) (present : s.part.codec = true) (o : OnZone s h zslba n z u c key)
    (lengths : desc.length = 64 ∧ raw.length = len) : exec (.frameAppend h zslba len limit desc raw) s = .next (
      if u ≠ 0 then (s.fetch h).fail h .invalidField
      else (s.fetch h).admitFrame h (zoneTarget s h n z u c true) z len limit desc raw) := by
  rw [exec_frameAppend lengths, onIo_run r.fetched r.queue, codecGate_none r present]
  dsimp only
  rw [onZone_passes r o]
  rfl

theorem ctxGranted_iff (s : State) (x c : Nat) : s.ctxGranted x c = true ↔ x < 2048 ∧ (s.codecCtx x).grant = some c := by
  rw [State.ctxGranted, Bool.and_eq_true, decide_eq_true_eq, decide_eq_true_eq]

theorem frameAppend_refused (r : IoReady s h) (present : s.part.codec = true) (o : OnZone s h zslba n z u c key)
    (lengths : desc.length = 64 ∧ raw.length = len)
    (bad : u ≠ 0 ∨ (s.carriage c).codec = false ∨
      ¬ ((s.carriage c).codecCtx < 2048 ∧ (s.codecCtx (s.carriage c).codecCtx).grant = some h.comp) ∨
      len = 0 ∨ 16777216 < len ∨ (bandOf desc).legal = false ∨ (bandOf desc).rawLen ≠ len) :
    OnlyCompletes (.frameAppend h zslba len limit desc raw) s h .invalidField := by
  refine onlyCompletes_of_complete (a := 0) (b := 0) ((frameAppend_runs r present o lengths).trans ?_)
  refine congrArg _ ?_
  show _ = (s.fetch h).fail h .invalidField
  by_cases away : u ≠ 0
  · exact if_pos away
  · rw [if_neg away]
    unfold State.admitFrame
    dsimp only
    by_cases shut : (!((s.fetch h).carriage (zoneTarget s h n z u c true).carriage).codec ||
        !(s.fetch h).ctxGranted ((s.fetch h).carriage (zoneTarget s h n z u c true).carriage).codecCtx h.comp) = true
    · exact if_pos shut
    · have open_ : (s.carriage c).codec = true ∧ s.ctxGranted (s.carriage c).codecCtx h.comp = true := by
        rw [Bool.not_eq_true, Bool.or_eq_false_iff, Bool.not_eq_false', Bool.not_eq_false'] at shut
        exact shut
      rw [if_neg shut]
      refine if_pos ?_
      obtain b | b | b | b := bad
      · exact absurd b away
      · exact absurd (open_.1.symm.trans b) (by decide)
      · exact absurd ((ctxGranted_iff _ _ _).mp open_.2) b
      · obtain b | b | b | b := b
        · exact .inl b
        · exact .inr (.inl b)
        · exact .inr (.inr (.inl (by rw [b]; rfl)))
        · exact .inr (.inr (.inr b))

/-- The job of a Frame Append that is admitted. -/
def appendJob (s : State) (h : HostCmd) (limit c z key : Nat) (desc raw : List Byte) : CodecJob :=
  { ctx := (s.carriage c).codecCtx, lane := none, near := none
    work := .append h (bandOf desc) raw limit c (s.classFor c h.comp true) z s.tim.now key }

/-- The carriage of a Frame Append counts it. -/
def counted (s : State) (c : Nat) : Carriage := { s.carriage c with outstanding := (s.carriage c).outstanding + 1 }

theorem frameAppend_queues (r : IoReady s h) (present : s.part.codec = true) (o : OnZone s h zslba n z 0 c key)
    (lengths : desc.length = 64 ∧ raw.length = len) (codec : (s.carriage c).codec = true)
    (granted : (s.carriage c).codecCtx < 2048 ∧ (s.codecCtx (s.carriage c).codecCtx).grant = some h.comp)
    (some_ : 0 < len) (small : len ≤ 16777216) (legal : (bandOf desc).legal = true) (raw_ : (bandOf desc).rawLen = len) :
    exec (.frameAppend h zslba len limit desc raw) s =
      .next (((s.fetch h).setCarriage c (counted s c)).addJob (appendJob s h limit c z key desc raw)) := by
  have grant : (s.fetch h).ctxGranted ((s.fetch h).carriage c).codecCtx h.comp = true := (ctxGranted_iff _ _ _).mpr granted
  have codec' : ((s.fetch h).carriage c).codec = true := codec
  have open_ : (!((s.fetch h).carriage c).codec || !(s.fetch h).ctxGranted ((s.fetch h).carriage c).codecCtx h.comp) = false := by
    rw [codec', grant]
    rfl
  have fine : ¬ (len = 0 ∨ 16777216 < len ∨ (!(bandOf desc).legal) = true ∨ (bandOf desc).rawLen ≠ len) := by
    rw [legal]
    rintro (b | b | b | b)
    · omega
    · omega
    · exact absurd b (by decide)
    · exact b raw_
  have keyed : (s.fetch h).keyFor c = some key := o.key
  rw [frameAppend_runs r present o lengths, if_neg (not_not_intro rfl)]
  unfold State.admitFrame
  dsimp only [zoneTarget]
  rw [open_, keyed]
  exact congrArg _ ((if_neg (by decide)).trans (if_neg fine))

end Append

end Sys2Proof.Proofs
end

section
/-! SUPPORT for O55: Frame Append on its context, and the codec state commands (R245, R249, R255). -/

namespace Sys2Proof.Proofs

open Sys2Proof Sys2Proof.Machine

theorem jobs_emptied (s : State) (empty : s.fcd.jobs = []) : ({ s.fcd with jobs := [] } : Codec) = s.fcd := by
  have same : ({ s.fcd with jobs := [] } : Codec) = { s.fcd with jobs := s.fcd.jobs } := by rw [empty]
  exact same

section AppendMoves

variable {s : State} {h : HostCmd} {zslba len limit z c key x : Nat} {desc raw : List Byte} {n : NsEntry}

theorem appendJob_moves {u : State} {j : CodecJob} {cmd : HostCmd} {band : Band} {raw : List Byte} {limit c cls z at_ key : Nat}
    (one : u.fcd.jobs = [j]) (none_ : u.fcd.coded = []) (lane : j.lane = none) (work : j.work = .append cmd band raw limit c cls z at_ key) :
    (continuity (u.codecCtx j.ctx).st band = none → u.codecMove 0 = some ((u.dropJob 0).fail cmd .sequenceError)) ∧
      ∀ l, continuity (u.codecCtx j.ctx).st band ≠ none → u.freeLane j.near = some l → u.codecMove 0 = some (u.giveLane 0 l) := by
  have turn := codecTurn_one one none_
  constructor
  · intro broken
    unfold State.codecMove
    rw [one]
    dsimp only [List.getElem?_cons_zero]
    rw [lane, turn, work]
    dsimp only [Option.isSome_none, Bool.false_or, Bool.not_true]
    rw [broken]
    rfl
  · intro l held free
    obtain ⟨la, hla⟩ := Option.ne_none_iff_exists'.mp held
    unfold State.codecMove
    rw [one]
    dsimp only [List.getElem?_cons_zero]
    rw [lane, turn, work]
    dsimp only [Option.isSome_none, Bool.false_or, Bool.not_true]
    rw [hla, free]
    rfl

/-- A band that its context cannot continue is a sequence error, and nothing is appended (R245, R249). -/
theorem frameAppend_breaks (run : exec (.frameAppend h zslba len limit desc raw) s =
      .next (((s.fetch h).setCarriage c (counted s c)).addJob (appendJob s h limit c z key desc raw)))
    (jobs : s.fcd.jobs = []) (coded : s.fcd.coded = [])
    (broken : continuity (s.codecCtx (s.carriage c).codecCtx).st (bandOf desc) = none) :
    Goes (.frameAppend h zslba len limit desc raw) s (fun t => Completed t h .sequenceError ∧ t.zns = s.zns ∧ t.fcd = s.fcd) := by
  obtain ⟨u, hu⟩ : ∃ u : State, u = { (s.fetch h).setCarriage c (counted s c) with
      fcd := { ((s.fetch h).setCarriage c (counted s c)).fcd with jobs := [appendJob s h limit c z key desc raw] } } := ⟨_, rfl⟩
  have parts : u.fcd = { s.fcd with jobs := [appendJob s h limit c z key desc raw] } ∧ u.zns = s.zns ∧
      u.codecCtx (s.carriage c).codecCtx = s.codecCtx (s.carriage c).codecCtx := by rw [hu]; exact ⟨rfl, rfl, rfl⟩
  obtain ⟨fcd, zns, ctx⟩ := parts
  have one : u.fcd.jobs = [appendJob s h limit c z key desc raw] := by rw [fcd]
  have moves := (appendJob_moves one (by rw [fcd]; exact coded) rfl rfl).1 (by
    show continuity (u.codecCtx (s.carriage c).codecCtx).st _ = none
    rw [ctx]
    exact broken)
  obtain ⟨-, done, zns', fcd'⟩ := lost_facts one h .sequenceError
  rw [hu] at moves
  rw [addJob_moves (s := (s.fetch h).setCarriage c (counted s c)) jobs moves (.inl (by rw [← hu, fcd']))] at run
  rw [← hu] at run
  refine ⟨_, run, done, zns'.trans zns, fcd'.trans ?_⟩
  rw [fcd]
  exact jobs_emptied s jobs

/-- A band whose context is free takes a lane (R138, R249). -/
theorem frameAppend_lane (run : exec (.frameAppend h zslba len limit desc raw) s =
      .next (((s.fetch h).setCarriage c (counted s c)).addJob (appendJob s h limit c z key desc raw)))
    (jobs : s.fcd.jobs = []) (coded : s.fcd.coded = []) {l : Nat}
    (held : continuity (s.codecCtx (s.carriage c).codecCtx).st (bandOf desc) ≠ none) (free : s.freeLane none = some l) :
    Goes (.frameAppend h zslba len limit desc raw) s (fun t =>
      (∃ cls, t.fcd.jobs = [{ ctx := (s.carriage c).codecCtx, lane := some l, near := none
                              work := .append h (bandOf desc) raw limit c cls z s.tim.now key }]) ∧
      (t.carriage c).outstanding = (s.carriage c).outstanding + 1 ∧ t.fcd.ctxs = s.fcd.ctxs ∧ t.zns = s.zns ∧ t.fls = s.fls) := by
  obtain ⟨u, hu⟩ : ∃ u : State, u = { (s.fetch h).setCarriage c (counted s c) with
      fcd := { ((s.fetch h).setCarriage c (counted s c)).fcd with jobs := [appendJob s h limit c z key desc raw] } } := ⟨_, rfl⟩
  have real : counted s c ≠ Carriage.none := fun e => by
    have zero : (counted s c).outstanding = 0 := by rw [e]; rfl
    exact absurd zero (Nat.succ_ne_zero _)
  have parts : u.fcd = { s.fcd with jobs := [appendJob s h limit c z key desc raw] } ∧ u.zns = s.zns ∧ u.fls = s.fls ∧
      u.codecCtx (s.carriage c).codecCtx = s.codecCtx (s.carriage c).codecCtx ∧ u.carriage c = counted s c := by
    rw [hu]
    exact ⟨rfl, rfl, rfl, rfl, look_put_of_ne _ _ _ _ real⟩
  obtain ⟨fcd, zns, fls, ctx, carriage⟩ := parts
  have one : u.fcd.jobs = [appendJob s h limit c z key desc raw] := by rw [fcd]
  have lane : u.freeLane none = some l := by
    rw [hu]
    exact (freeLane_waiting (s := (s.fetch h).setCarriage c (counted s c)) jobs rfl none).trans free
  have moves := (appendJob_moves one (by rw [fcd]; exact coded) rfl rfl).2 l (by
    show continuity (u.codecCtx (s.carriage c).codecCtx).st _ ≠ none
    rw [ctx]
    exact held) lane
  have given : (u.giveLane 0 l).fcd.jobs = [{ appendJob s h limit c z key desc raw with lane := some l, near := none }] := by
    show modAt u.fcd.jobs 0 _ = _
    rw [one]
    rfl
  rw [hu] at moves
  rw [addJob_moves (s := (s.fetch h).setCarriage c (counted s c)) jobs moves (.inr ⟨_, l, by rw [← hu]; exact given, rfl⟩), ← hu] at run
  refine ⟨_, run, ⟨_, given⟩, ?_, ?_, zns, fls⟩
  · show (u.carriage c).outstanding = _
    rw [carriage]
    rfl
  · show u.fcd.ctxs = _
    rw [fcd]

end AppendMoves

section States

variable {s : State} {h : HostCmd} {ctx : Nat} {record : List Byte} {n : NsEntry}

theorem stateCheck_of (r : IoReady s h) (present : s.part.codec = true) (space : s.space h.nsid = some n) (mine : n.comp = h.comp) (ctx : Nat) :
    (s.fetch h).stateCheck h ctx = if s.mnt.stopping then some .namespaceNotReady
      else if s.ctxGranted ctx h.comp then none else some .invalidField := by
  have space' : (s.fetch h).space h.nsid = some n := space
  rw [State.stateCheck, codecGate_none r present]
  dsimp only
  rw [space']
  dsimp only
  rw [if_neg (not_not_intro mine)]
  rfl

theorem state_refused (r : IoReady s h) {st : Status} (other : st ≠ .vendor 0x83) (checks : (s.fetch h).stateCheck h ctx = some st) :
    OnlyCompletes (.codecStateSave h ctx) s h st ∧ OnlyCompletes (.codecStateRestore h ctx record) s h st := by
  have refuse : (s.fetch h).refuseCodec h st = (s.fetch h).fail h st := if_neg other
  refine ⟨io_refuses r (exec_save h ctx s) ?_, io_refuses r (exec_restore h ctx record s) ?_⟩
  · rw [checks]
    exact refuse
  · rw [checks]
    exact refuse

/-- The one job of the codec, a state command, is carried out at once. -/
theorem state_runs {i : Instr} {u t : State} {work : CodecWork} (jobs : s.fcd.jobs = [])
    (run : exec i s = .next ((s.fetch h).addJob { ctx := ctx, lane := none, near := none, work := work }))
    (hu : u = { s.fetch h with fcd := { (s.fetch h).fcd with jobs := [{ ctx := ctx, lane := none, near := none, work := work }] } })
    (moves : u.codecMove 0 = some t) (after : t.fcd.jobs = []) : exec i s = .next t := by
  rw [hu] at moves
  rw [addJob_moves (s := s.fetch h) jobs moves (.inl after)] at run
  exact run

theorem save_moves {u : State} {j : CodecJob} {cmd : HostCmd} (one : u.fcd.jobs = [j]) (coded : u.fcd.coded = []) (lane : j.lane = none)
    (work : j.work = .save cmd) : u.codecMove 0 = some (((u.dropJob 0).emit (.data cmd (stateRecord (u.codecCtx j.ctx).st))).done cmd 0) := by
  have turn := codecTurn_one one coded
  unfold State.codecMove
  rw [one]
  dsimp only [List.getElem?_cons_zero]
  rw [lane, turn, work]
  rfl

theorem restore_moves {u : State} {j : CodecJob} {cmd : HostCmd} (one : u.fcd.jobs = [j]) (coded : u.fcd.coded = []) (lane : j.lane = none)
    (work : j.work = .restore cmd record) : (stateOf record = none → u.codecMove 0 = some ((u.dropJob 0).fail cmd .invalidField)) ∧
      ∀ v, stateOf record = some v → u.codecMove 0 = some (((u.dropJob 0).setCodecState j.ctx v false).done cmd 0) := by
  have turn := codecTurn_one one coded
  constructor
  · intro bad
    unfold State.codecMove
    rw [one]
    dsimp only [List.getElem?_cons_zero]
    rw [lane, turn, work]
    dsimp only [Option.isSome_none, Bool.false_or, Bool.not_true]
    rw [bad]
    rfl
  · intro v good
    unfold State.codecMove
    rw [one]
    dsimp only [List.getElem?_cons_zero]
    rw [lane, turn, work]
    dsimp only [Option.isSome_none, Bool.false_or, Bool.not_true]
    rw [good]
    rfl

/-- A saved context answers its record, and a restored one holds what the record says (R255). -/
theorem state_serves (r : IoReady s h) (checks : (s.fetch h).stateCheck h ctx = none) (granted : (s.codecCtx ctx).grant = some h.comp)
    (jobs : s.fcd.jobs = []) (coded : s.fcd.coded = []) :
    Goes (.codecStateSave h ctx) s (fun t => Completed t h .success ∧
      Output.data h (stateRecord (s.codecCtx ctx).st) ∈ t.hif.out ∧ t.fcd = s.fcd ∧ t.zns = s.zns) ∧
    (stateOf record = none → Goes (.codecStateRestore h ctx record) s (fun t => Completed t h .invalidField ∧
      t.fcd = s.fcd ∧ t.zns = s.zns)) ∧
    (∀ st, stateOf record = some st → Goes (.codecStateRestore h ctx record) s (fun t => Completed t h .success ∧
      t.codecCtx ctx = { s.codecCtx ctx with st := st, coded := false } ∧ (∀ y, y ≠ ctx → t.codecCtx y = s.codecCtx y) ∧ t.zns = s.zns)) := by
  have save_ : exec (.codecStateSave h ctx) s = .next ((s.fetch h).addJob { ctx := ctx, lane := none, near := none, work := .save h }) := by
    rw [exec_save, onIo_run r.fetched r.queue, checks]
  have restore_ : exec (.codecStateRestore h ctx record) s =
      .next ((s.fetch h).addJob { ctx := ctx, lane := none, near := none, work := .restore h record }) := by
    rw [exec_restore, onIo_run r.fetched r.queue, checks]
  have back : ∀ work : CodecWork, State.jobCarriage { ctx := ctx, lane := none, near := none, work := work } = none → ∀ u : State,
      u = { s.fetch h with fcd := { (s.fetch h).fcd with jobs := [{ ctx := ctx, lane := none, near := none, work := work }] } } →
      u.dropJob 0 = s.fetch h ∧ u.fcd.jobs = [{ ctx := ctx, lane := none, near := none, work := work }] ∧ u.fcd.coded = [] ∧
        u.codecCtx ctx = s.codecCtx ctx := fun work free u hu => by
    have one : u.fcd.jobs = [{ ctx := ctx, lane := none, near := none, work := work }] := by rw [hu]
    refine ⟨(dropJob_plain one free).trans ?_, one, by rw [hu]; exact coded, by rw [hu]; rfl⟩
    rw [hu]
    exact congrArg (fun f : Codec => { s.fetch h with fcd := f }) (jobs_emptied (s.fetch h) jobs)
  refine ⟨?_, fun bad => ?_, fun st good => ?_⟩
  · obtain ⟨u, hu⟩ : ∃ u : State, u = { s.fetch h with
        fcd := { (s.fetch h).fcd with jobs := [{ ctx := ctx, lane := none, near := none, work := .save h }] } } := ⟨_, rfl⟩
    obtain ⟨drop, one, none_, at_⟩ := back _ rfl u hu
    have moves := save_moves one none_ rfl rfl
    rw [drop, at_] at moves
    obtain ⟨v, hv⟩ : ∃ v, v = (s.fetch h).emit (.data h (stateRecord (s.codecCtx ctx).st)) := ⟨_, rfl⟩
    rw [← hv] at moves
    have parts : Output.data h (stateRecord (s.codecCtx ctx).st) ∈ v.hif.out ∧ v.fcd = s.fcd ∧ v.zns = s.zns := by
      rw [hv]
      exact ⟨List.mem_cons_self, rfl, rfl⟩
    obtain ⟨data, fcd, zns⟩ := parts
    have stand : (v.done h 0).fcd = s.fcd ∧ (v.done h 0).zns = s.zns := by rw [done_rest]; exact ⟨fcd, zns⟩
    exact ⟨_, state_runs jobs save_ hu moves (by rw [stand.1]; exact jobs), completed_complete _ _ _ _ _, out_complete data _ _ _ _, stand.1, stand.2⟩
  · obtain ⟨u, hu⟩ : ∃ u : State, u = { s.fetch h with
        fcd := { (s.fetch h).fcd with jobs := [{ ctx := ctx, lane := none, near := none, work := .restore h record }] } } := ⟨_, rfl⟩
    obtain ⟨drop, one, none_, -⟩ := back _ rfl u hu
    have moves := (restore_moves one none_ rfl rfl).1 bad
    rw [drop] at moves
    obtain ⟨fcd, zns, done⟩ := jobs_fail (s.fetch h) h .invalidField
    exact ⟨_, state_runs jobs restore_ hu moves (by rw [fcd]; exact jobs), done, fcd, zns⟩
  · obtain ⟨u, hu⟩ : ∃ u : State, u = { s.fetch h with
        fcd := { (s.fetch h).fcd with jobs := [{ ctx := ctx, lane := none, near := none, work := .restore h record }] } } := ⟨_, rfl⟩
    obtain ⟨drop, one, none_, -⟩ := back _ rfl u hu
    have moves := (restore_moves one none_ rfl rfl).2 st good
    rw [drop] at moves
    obtain ⟨w, hw⟩ : ∃ w : CodecCtx, w = { s.codecCtx ctx with st := st, coded := false } := ⟨_, rfl⟩
    have real : w ≠ CodecCtx.none := fun e => by
      have none' : w.grant = none := by rw [e]; rfl
      rw [hw] at none'
      exact absurd (granted.symm.trans none') (Option.some_ne_none _)
    obtain ⟨v, hv⟩ : ∃ v, v = (s.fetch h).setCodecState ctx st false := ⟨_, rfl⟩
    rw [← hv] at moves
    have parts : v.codecCtx ctx = w ∧ (∀ y, y ≠ ctx → v.codecCtx y = s.codecCtx y) ∧ v.fcd.jobs = [] ∧ v.zns = s.zns := by
      rw [hv, hw] at *
      exact ⟨look_put_of_ne _ _ _ _ real, fun y other => look_put_other _ _ _ _ _ other, jobs, rfl⟩
    obtain ⟨here, others, empty, zns⟩ := parts
    have stand : (v.done h 0).fcd = v.fcd ∧ (v.done h 0).zns = v.zns := by rw [done_rest]; exact ⟨rfl, rfl⟩
    have ctxs : ∀ y, (v.done h 0).codecCtx y = v.codecCtx y := fun y => by rw [State.codecCtx, stand.1]; rfl
    refine ⟨_, state_runs jobs restore_ hu moves (by rw [stand.1]; exact empty), completed_complete _ _ _ _ _, ?_, fun y other => ?_, stand.2.trans zns⟩
    · rw [ctxs, here, hw]
    · rw [ctxs]
      exact others y other

end States

end Sys2Proof.Proofs
end

section
/-! SUPPORT for O55: the admission of a Frame Read (R252, R254). -/

namespace Sys2Proof.Proofs

open Sys2Proof Sys2Proof.Machine

section Admitted

variable {s : State} {h : HostCmd} {slba recLen ctx buf u z c key l : Nat} {n : NsEntry}

theorem frameRead_runs (r : IoReady s h) (present : s.part.codec = true) (o : OnZone s h slba n z u c key) :
    exec (.frameRead h slba recLen ctx buf) s = .next ((s.fetch h).admitFrameRead h (zoneTarget s h n z u c false) z recLen ctx buf) := by
  rw [exec_frameRead, onIo_run r.fetched r.queue, codecGate_none r present]
  dsimp only
  rw [onZone_passes r o]

theorem frameRead_ungranted (r : IoReady s h) (present : s.part.codec = true) (o : OnZone s h slba n z u c key)
    (no : ¬ (ctx < 2048 ∧ (s.codecCtx ctx).grant = some h.comp)) : OnlyCompletes (.frameRead h slba recLen ctx buf) s h .invalidField := by
  refine onlyCompletes_of_complete (a := 0) (b := 0) ((frameRead_runs r present o).trans (congrArg _ ?_))
  have shut : (!(s.fetch h).ctxGranted ctx h.comp) = true := by
    rw [Bool.not_eq_true']
    exact Bool.eq_false_iff.mpr fun y => no ((ctxGranted_iff (s.fetch h) _ _).mp y)
  exact if_pos shut

theorem frameRead_offline (r : IoReady s h) (present : s.part.codec = true) (o : OnZone s h slba n z u c key)
    (granted : ctx < 2048 ∧ (s.codecCtx ctx).grant = some h.comp) (offline : (s.zone z).state = .offline) :
    OnlyCompletes (.frameRead h slba recLen ctx buf) s h .zoneOffline := by
  refine onlyCompletes_of_complete (a := 0) (b := 0) ((frameRead_runs r present o).trans (congrArg _ ?_))
  have grant : (s.fetch h).ctxGranted ctx h.comp = true := (ctxGranted_iff (s.fetch h) _ _).mpr granted
  have offline' : ((s.fetch h).zone z).state = .offline := offline
  unfold State.admitFrameRead
  dsimp only
  rw [grant]
  exact (if_neg (by decide)).trans (if_pos offline')

/-- Units that a Frame Read of a record of `len` bytes spans (R252). -/
def readUnits (n : NsEntry) (len : Nat) : Nat := max n.unitsPerLba ((len + n.unitsPerLba * 4096 - 1) / (n.unitsPerLba * 4096) * n.unitsPerLba)

/-- The flight of a Frame Read that needs no sense and loses nothing. -/
def readFlight (s : State) (h : HostCmd) (n : NsEntry) (z u c key len : Nat) : Flight :=
  { s.newFlight h .frameRead c (s.classFor c h.comp false) (some z) with
    start := u, len := readUnits n len, key := key
    data := (List.range (readUnits n len)).flatMap (fun i => s.zoneUnit h.nsid (s.zoneSlba n z * n.unitsPerLba) z (u + i) key)
    senses := [], status := .success }

/-- The job of a Frame Read. -/
def readJob (s : State) (ctx len buf : Nat) : CodecJob :=
  { ctx := ctx, lane := none, near := none, work := .read s.car.nextFlight len buf }

theorem frameRead_queues (r : IoReady s h) (present : s.part.codec = true) (o : OnZone s h slba n z u c key)
    (granted : ctx < 2048 ∧ (s.codecCtx ctx).grant = some h.comp) (served : (s.zone z).state ≠ .offline)
    (inside : u + readUnits n recLen ≤ n.zsze * n.unitsPerLba) (clean : s.sensesOf (some z) u (readUnits n recLen) = []) (good : s.mem.bad = []) :
    exec (.frameRead h slba recLen ctx buf) s = .next (
      ((((s.fetch h).addFlight (readFlight (s.fetch h) h n z u c key recLen)).addJob (readJob s ctx recLen buf)).scheduleSenses
        s.car.nextFlight).settleRead s.car.nextFlight) := by
  have grant : (s.fetch h).ctxGranted ctx h.comp = true := (ctxGranted_iff (s.fetch h) _ _).mpr granted
  have keyed : (s.fetch h).keyFor c = some key := o.key
  have clean' : (s.fetch h).sensesOf (some z) u (readUnits n recLen) = [] := clean
  have lost : ∀ t : IoTarget, t.zone = some z → (s.fetch h).dataLost t = false := fun t zone => by
    unfold State.dataLost
    rw [zone]
    refine List.any_eq_false.mpr fun i _ => ?_
    dsimp only
    rw [show (s.fetch h).mem.bad = [] from good]
    exact Bool.false_ne_true
  refine (frameRead_runs r present o).trans (congrArg _ ?_)
  unfold State.admitFrameRead
  dsimp only [zoneTarget]
  rw [grant, keyed]
  dsimp only
  rw [lost _ rfl, show max n.unitsPerLba ((recLen + n.unitsPerLba * 4096 - 1) / (n.unitsPerLba * 4096) * n.unitsPerLba) = readUnits n recLen from rfl,
    clean']
  exact (if_neg (by decide)).trans ((if_neg served).trans ((if_neg (Nat.not_lt.mpr inside)).trans rfl))

theorem readJob_moves {w : State} {j : CodecJob} {f len buf : Nat} {v : Flight} (one : w.fcd.jobs = [j]) (coded : w.fcd.coded = [])
    (lane : j.lane = none) (work : j.work = .read f len buf) (flights : w.car.flights = [v]) (named : v.id = f)
    (own : v.forwarded = false) (senses : v.senses = []) (free : w.freeLane j.near = some l) : w.codecMove 0 = some (w.giveLane 0 l) := by
  have turn := codecTurn_one one coded
  have read : w.dataRead f = some true := by
    rw [State.dataRead, flights, List.find?_cons_of_pos (by rw [named]; exact decide_eq_true rfl), Option.map_some, own, senses]
    rfl
  unfold State.codecMove
  rw [one]
  dsimp only [List.getElem?_cons_zero]
  rw [lane, turn, work]
  dsimp only [Option.isSome_none, Bool.false_or, Bool.not_true]
  rw [read, free]
  rfl

/-- A Frame Read of units that need no sense takes a lane at once (R252, R254). -/
theorem frameRead_lane (r : IoReady s h) (present : s.part.codec = true) (o : OnZone s h slba n z u c key)
    (granted : ctx < 2048 ∧ (s.codecCtx ctx).grant = some h.comp) (served : (s.zone z).state ≠ .offline)
    (inside : u + readUnits n recLen ≤ n.zsze * n.unitsPerLba) (jobs : s.fcd.jobs = []) (coded : s.fcd.coded = []) (alone : s.car.flights = [])
    (clean : s.sensesOf (some z) u (readUnits n recLen) = []) (good : s.mem.bad = []) (pair : s.zonePair z = none)
    (free : s.freeLane none = some l) : Goes (.frameRead h slba recLen ctx buf) s (fun t => ∃ v ∈ t.car.flights, v.cmd = h ∧ v.kind = .frameRead ∧
      v.start = u ∧ v.len = readUnits n recLen ∧ v.data = (List.range (readUnits n recLen)).flatMap (fun i =>
        s.zoneUnit h.nsid (s.zoneSlba n z * n.unitsPerLba) z (u + i) key) ∧
      t.fcd.jobs = [{ ctx := ctx, lane := some l, near := none, work := .read v.id recLen buf }] ∧ t.zns = s.zns) := by
  obtain ⟨v, hv⟩ : ∃ v, v = readFlight (s.fetch h) h n z u c key recLen := ⟨_, rfl⟩
  have facts : v.id = s.car.nextFlight ∧ v.forwarded = false ∧ v.senses = [] ∧ v.zone = some z ∧ v.peer = none ∧ v.kind = .frameRead ∧
      v.status = .success ∧ v.cmd = h ∧ v.start = u ∧ v.len = readUnits n recLen ∧ v.data = (List.range (readUnits n recLen)).flatMap (fun i =>
        s.zoneUnit h.nsid (s.zoneSlba n z * n.unitsPerLba) z (u + i) key) := by
    rw [hv]
    exact ⟨rfl, rfl, rfl, rfl, rfl, rfl, rfl, rfl, rfl, rfl, rfl⟩
  obtain ⟨id, own, senses, zone, peer, kind, status, cmd, start, len, data⟩ := facts
  have run := frameRead_queues (buf := buf) r present o granted served inside clean good
  rw [← hv] at run
  obtain ⟨a, ha⟩ : ∃ a, a = (s.fetch h).addFlight v := ⟨_, rfl⟩
  rw [← ha] at run
  have flights : a.car.flights = [v] := by
    rw [ha, addFlight_flights]
    show s.car.flights ++ [v] = _
    rw [alone]
    rfl
  have frame : a.fcd = s.fcd ∧ a.zns = s.zns ∧ a.zonePair z = none := by
    rw [ha, addFlight_frame]
    exact ⟨rfl, rfl, pair⟩
  obtain ⟨fcd, zns, pair'⟩ := frame
  obtain ⟨w, hw⟩ : ∃ w : State, w = { a with fcd := { a.fcd with jobs := [readJob s ctx recLen buf] } } := ⟨_, rfl⟩
  have parts : w.fcd.jobs = [readJob s ctx recLen buf] ∧ w.fcd.coded = [] ∧ w.car = a.car ∧ w.zns = a.zns ∧ w.zonePair z = none := by
    rw [hw]
    exact ⟨rfl, by rw [← coded, ← fcd], rfl, rfl, pair'⟩
  obtain ⟨one, none_, car, zns', pair_w⟩ := parts
  have lane : w.freeLane none = some l := by
    rw [hw, freeLane_waiting (by rw [fcd]; exact jobs) rfl, State.freeLane, State.lanesBusy, fcd]
    exact free
  have moves := readJob_moves one none_ rfl rfl (by rw [car]; exact flights) id own senses lane
  obtain ⟨t, ht⟩ : ∃ t, t = w.giveLane 0 l := ⟨_, rfl⟩
  have given : t.fcd.jobs = [{ ctx := ctx, lane := some l, near := none, work := .read s.car.nextFlight recLen buf }] ∧ t.car = w.car ∧
      t.zns = w.zns ∧ t.zonePair z = none := by
    rw [ht]
    refine ⟨?_, rfl, rfl, pair_w⟩
    show modAt w.fcd.jobs 0 _ = _
    rw [one]
    rfl
  obtain ⟨jobs_t, car_t, zns_t, pair_t⟩ := given
  rw [← ht] at moves
  have queued : a.addJob (readJob s ctx recLen buf) = t :=
    addJob_moves (by rw [fcd]; exact jobs) (by rw [← hw]; exact moves) (.inr ⟨_, l, jobs_t, rfl⟩)
  have flight : t.flight s.car.nextFlight = some v := by
    rw [State.flight, car_t, car, flights]
    exact List.find?_cons_of_pos (decide_eq_true id)
  have scheduled : t.scheduleSenses s.car.nextFlight = t := by
    unfold State.scheduleSenses
    rw [flight]
    dsimp only
    rw [senses]
    rfl
  have settled : t.settleRead s.car.nextFlight = t := by
    have lone : t.forwards v = none := by
      unfold State.forwards
      rw [zone]
      dsimp only
      rw [own, peer, State.livePair, pair_t]
      rfl
    unfold State.settleRead
    rw [flight]
    dsimp only
    rw [own, kind, State.sensed, senses, lone, status]
    have stays : t.settleCodec = t := codecMoves_laned jobs_t rfl _
    exact (if_neg (by decide)).trans ((if_pos rfl).trans ((if_pos ⟨rfl, rfl⟩).trans stays))
  rw [queued, scheduled, settled] at run
  refine ⟨t, run, v, ?_, cmd, kind, start, len, data, by rw [id]; exact jobs_t, zns_t.trans (zns'.trans zns)⟩
  rw [car_t, car, flights]
  exact List.mem_cons_self

end Admitted

end Sys2Proof.Proofs
end

section
/-! SUPPORT for O55: a lane that has coded a band (R225, R249 to R251). -/

namespace Sys2Proof.Proofs

open Sys2Proof Sys2Proof.Machine

section Taken

variable {s t : State} {z n : Nat} {st : ZState}

theorem journal_fcd (s : State) : s.journal.fcd = s.fcd := by
  have taken : (s.takeSeq 1).2.fcd = s.fcd := by
    obtain ⟨u, hu⟩ : ∃ u : State, u = { s with zns := { s.zns with seq := min State.seqMax (s.zns.seq + 1) } } := ⟨_, rfl⟩
    have same : u.fcd = s.fcd := by rw [hu]
    unfold State.takeSeq
    dsimp only
    rw [← hu]
    split
    · exact (congrArg State.fcd (event_frame u 0x0605 4 (srcRegion 0 1) 0 []).rest :).trans same
    · exact same
  rw [State.journal]
  generalize (s.takeSeq 1).2 = u at taken
  exact taken

theorem advanceWp_fcd (s : State) (z n : Nat) (st : ZState) : (s.advanceWp z n st).fcd = s.fcd := by
  have note : ∀ t : State, (t.noteWritten z).fcd = t.fcd := fun t => by
    unfold State.noteWritten
    split
    · split <;> rfl
    · rfl
  have rows : ∀ (l : List Nat) (t : State), (l.foldl (fun (t : State) r => t.setRow z r { t.row z r with foldableAt := t.now }) t).fcd = t.fcd := by
    intro l
    induction l with
    | nil => exact fun _ => rfl
    | cons r l ih => exact fun t => ih _
  have mark : ∀ (t : State) (k : Nat), (t.markFoldable z k).fcd = t.fcd := fun t k => by
    unfold State.markFoldable
    dsimp only
    split
    · rfl
    · exact rows _ _
  exact (note _).trans (mark _ _)

/-- A write that an open zone takes leaves the codec. -/
theorem admitWrite_fcd (open_ : (s.zone z).state ∈ [.implicitOpen, .explicitOpen]) {off : Option Nat} (takes : s.admitWrite z off n = .ok t) :
    t.fcd = s.fcd := by
  have full : (s.zone z).state ≠ .empty ∧ (s.zone z).state ≠ .closed := by
    obtain e | e : (s.zone z).state = .implicitOpen ∨ (s.zone z).state = .explicitOpen := by simpa using open_
    all_goals rw [e]; decide
  unfold State.admitWrite at takes
  dsimp only at takes
  rw [if_neg (show ¬ ((s.zone z).state = .empty ∨ (s.zone z).state = .closed) from fun x => x.elim full.1 full.2), if_neg full.1] at takes
  dsimp only at takes
  split at takes
  · exact absurd takes (by simp)
  split at takes
  · exact absurd takes (by simp)
  split at takes
  · exact absurd takes (by simp)
  split at takes
  · exact absurd takes (by simp)
  split at takes
  · exact absurd takes (by simp)
  · obtain rfl := Except.ok.inj takes
    exact (journal_fcd _).trans (advanceWp_fcd _ _ _ _)

end Taken

section Coded

variable {s : State} {h : HostCmd} {x l limit c cls z at_ key : Nat} {b : Band} {raw : List Byte} {n : NsEntry}

/-- The job of a Frame Append that a lane codes. -/
def codingJob (h : HostCmd) (x l limit c cls z at_ key : Nat) (b : Band) (raw : List Byte) : CodecJob :=
  { ctx := x, lane := some l, near := none, work := .append h b raw limit c cls z at_ key }

theorem coding_runs (one : s.fcd.jobs = [codingJob h x l limit c cls z at_ key b raw]) (serves : s.serves = true) (clear : s.resetPending z = false) :
    exec (.frameCodingComplete l) s =
      .next (s.codedFrame 0 (codingJob h x l limit c cls z at_ key b raw) h b raw limit c cls z at_ key) := by
  have first : s.fcd.jobs.findIdx? (fun j => decide (j.lane = some l)) = some 0 := by
    rw [one]
    show [codingJob h x l limit c cls z at_ key b raw].findIdx? _ = _
    rw [List.findIdx?_cons]
    simp [codingJob]
  rw [show exec (.frameCodingComplete l) s = execFrameCodingComplete l s from rfl, execFrameCodingComplete, first]
  dsimp only
  rw [one]
  dsimp only [List.getElem?_cons_zero, codingJob]
  rw [serves, clear]
  rfl

/-- A band that is lost leaves the zones and the contexts, and the codec has no job. -/
theorem coding_lost {st : Status} (one : s.fcd.jobs = [codingJob h x l limit c cls z at_ key b raw])
    (run : exec (.frameCodingComplete l) s = .next (((s.dropJob 0).fail h st).settleCodec)) :
    Goes (.frameCodingComplete l) s (fun t => Completed t h st ∧ t.zns = s.zns ∧ t.fcd.jobs = [] ∧ t.fcd.ctxs = s.fcd.ctxs) := by
  obtain ⟨settled, done, zns, fcd⟩ := lost_facts one h st
  rw [settled] at run
  exact ⟨_, run, done, zns, by rw [fcd], by rw [fcd]⟩

theorem coding_unclean (one : s.fcd.jobs = [codingJob h x l limit c cls z at_ key b raw]) (serves : s.serves = true)
    (clear : s.resetPending z = false) (bad : b.clean raw = false) :
    Goes (.frameCodingComplete l) s (fun t => Completed t h .invalidField ∧ t.zns = s.zns ∧ t.fcd.jobs = [] ∧ t.fcd.ctxs = s.fcd.ctxs) := by
  refine coding_lost one ((coding_runs one serves clear).trans (congrArg _ ?_))
  exact if_pos (by rw [bad]; rfl)

/-- The record of a band that a lane has coded. -/
def codedRecord (x at_ : Nat) (b : Band) (raw : List Byte) (la : LaneState) : List Byte := recordOfBand b raw at_ x (codeBand b raw la).2

/-- Units that a record spans in namespace `n` (R249). -/
def recordUnits (n : NsEntry) (record : List Byte) : Nat := (record.length + n.unitsPerLba * 4096 - 1) / (n.unitsPerLba * 4096) * n.unitsPerLba

variable {la : LaneState}

theorem coding_clean (one : s.fcd.jobs = [codingJob h x l limit c cls z at_ key b raw]) (serves : s.serves = true)
    (clear : s.resetPending z = false) (clean : b.clean raw = true) (held : continuity (s.codecCtx x).st b = some la)
    (room : s.zns.seq < 2 ^ 56 - 1) : exec (.frameCodingComplete l) s = .next (
      if limit ≠ 0 ∧ limit < (codedRecord x at_ b raw la).length then ((s.dropJob 0).fail h (.vendor 0x80)).settleCodec
      else s.placeRecord 0 (codingJob h x l limit c cls z at_ key b raw) h c cls z at_ key (codedRecord x at_ b raw la)
        (contextAfter b (codeBand b raw la).1)) := by
  refine (coding_runs one serves clear).trans (congrArg _ ?_)
  have low : ¬ State.seqMax ≤ s.zns.seq := Nat.not_le.mpr room
  have held' : continuity (s.codecCtx (codingJob h x l limit c cls z at_ key b raw).ctx).st b = some la := held
  unfold State.codedFrame
  dsimp only
  rw [clean, held']
  dsimp only
  rw [if_neg low]
  exact if_neg (by decide)

variable {j : CodecJob} {record : List Byte} {st : CodecState}

theorem placeRecord_gate (one : s.fcd.jobs = [j]) (space : s.space h.nsid = some n) (pair : s.zonePair z = none) :
    s.placeRecord 0 j h c cls z at_ key record st = (
      match (s.dropJob 0).frameRefusal z (recordUnits n record) with
      | some e => ((s.dropJob 0).fail h e).settleCodec
      | none => match (s.dropJob 0).admitWrite z none (recordUnits n record) with
        | .error e => ((s.dropJob 0).refuseCodec h e).settleCodec
        | .ok t =>
          let v := { t.newFlight h .frameAppend c cls (some z) with
            start := (s.zone z).wp, len := recordUnits n record, key := key, segs := State.segsOf (recordUnits n record), mirrorWait := false
            admittedAt := at_
            opened := if (s.zone z).state = .empty ∨ (s.zone z).state = .closed then some (s.zone z).state else none
            data := record ++ List.replicate (recordUnits n record * 4096 - record.length) 0 }
          ({ t.addFlight v with fcd := { (t.addFlight v).fcd with
            coded := (t.addFlight v).fcd.coded ++ [{ flight := v.id, ctx := j.ctx, st := st }] } } : State).settleCodec) := by
  obtain ⟨u, hu⟩ : ∃ u, u = s.dropJob 0 := ⟨_, rfl⟩
  have rest := (dropJob_dropped one).rest
  rw [← hu] at rest
  have space' : u.space h.nsid = some n := (congrArg (fun t : State => t.space h.nsid) rest :).trans space
  have gate : u.pairGate z = .ok false := by
    have pair' : u.zonePair z = none := (congrArg (fun t : State => t.zonePair z) rest :).trans pair
    rw [State.pairGate, pair']
  have zone : u.zone z = s.zone z := (congrArg (fun t : State => t.zone z) rest :)
  unfold State.placeRecord
  dsimp only
  rw [← hu, space']
  dsimp only
  rw [gate, zone]
  rfl

theorem place_beyond (one : s.fcd.jobs = [j]) (space : s.space h.nsid = some n) (pair : s.zonePair z = none)
    (open_ : (s.zone z).state ∈ [.implicitOpen, .explicitOpen]) (beyond : (s.zone z).cap < (s.zone z).wp + recordUnits n record) :
    s.placeRecord 0 j h c cls z at_ key record st = ((s.dropJob 0).fail h (.vendor 0x80)).settleCodec := by
  have zone : (s.dropJob 0).zone z = s.zone z := (congrArg (fun t : State => t.zone z) (dropJob_dropped one).rest :)
  have refused : (s.dropJob 0).frameRefusal z (recordUnits n record) = some (.vendor 0x80) := by
    unfold State.frameRefusal
    dsimp only
    rw [zone]
    obtain e | e : (s.zone z).state = .implicitOpen ∨ (s.zone z).state = .explicitOpen := by simpa using open_
    all_goals
      rw [e]
      exact if_pos beyond
  rw [placeRecord_gate one space pair, refused]

/-- A record that its zone takes goes to the write pointer, and its context waits for it (R249). -/
theorem place_takes (one : s.fcd.jobs = [j]) (coded : s.fcd.coded = []) (space : s.space h.nsid = some n) (pair : s.zonePair z = none)
    (open_ : (s.zone z).state ∈ [.implicitOpen, .explicitOpen]) (fits : (s.zone z).wp + recordUnits n record ≤ (s.zone z).cap) :
    ∃ t : State, s.placeRecord 0 j h c cls z at_ key record st = t ∧ (t.zone z).wp = (s.zone z).wp + recordUnits n record ∧
      (∀ y, y ≠ z → t.zone y = s.zone y) ∧ t.fcd.jobs = [] ∧ t.fcd.ctxs = s.fcd.ctxs ∧
      ∃ v ∈ t.car.flights, v.cmd = h ∧ v.kind = .frameAppend ∧ v.zone = some z ∧ v.start = (s.zone z).wp ∧ v.len = recordUnits n record ∧
        v.key = key ∧ v.data = record ++ List.replicate (recordUnits n record * 4096 - record.length) 0 ∧
        t.fcd.coded = [{ flight := v.id, ctx := j.ctx, st := st }] := by
  obtain ⟨u, hu⟩ : ∃ u, u = s.dropJob 0 := ⟨_, rfl⟩
  have rest := (dropJob_dropped one).rest
  rw [← hu] at rest
  have zones : ∀ y, u.zone y = s.zone y := fun y => (congrArg (fun t : State => t.zone y) rest :)
  have fcd : u.fcd = { s.fcd with jobs := [] } := (congrArg State.fcd rest :)
  have open_u : (u.zone z).state ∈ [.implicitOpen, .explicitOpen] := by rw [zones]; exact open_
  have fits_u : (u.zone z).wp + recordUnits n record ≤ (u.zone z).cap := by rw [zones]; exact fits
  have accepts : u.frameRefusal z (recordUnits n record) = none := by
    unfold State.frameRefusal
    dsimp only
    obtain e | e : (u.zone z).state = .implicitOpen ∨ (u.zone z).state = .explicitOpen := by simpa using open_u
    all_goals
      rw [e]
      exact if_neg (Nat.not_lt.mpr fits_u)
  obtain ⟨t, takes, wp, -, others, -, car⟩ := admitWrite_takes (u := u) (z := z) (.inl ⟨open_u, rfl⟩) (off := none) (.inl rfl) fits_u
  have fcd_t := (admitWrite_fcd open_u takes).trans fcd
  have run := placeRecord_gate (c := c) (cls := cls) (at_ := at_) (key := key) (record := record) (st := st) one space pair
  rw [← hu, accepts, takes] at run
  dsimp only at run
  obtain ⟨v, hv⟩ : ∃ v : Flight, v = { t.newFlight h .frameAppend c cls (some z) with
      start := (s.zone z).wp, len := recordUnits n record, key := key, segs := State.segsOf (recordUnits n record), mirrorWait := false
      admittedAt := at_
      opened := if (s.zone z).state = .empty ∨ (s.zone z).state = .closed then some (s.zone z).state else none
      data := record ++ List.replicate (recordUnits n record * 4096 - record.length) 0 } := ⟨_, rfl⟩
  obtain ⟨a, ha⟩ : ∃ a, a = t.addFlight v := ⟨_, rfl⟩
  have flights : v ∈ a.car.flights := by
    rw [ha, addFlight_flights]
    exact List.mem_append_right _ List.mem_cons_self
  have zns : a.zns = t.zns := by rw [ha]; exact addFlight_zns _ _
  have fcd_a : a.fcd = { s.fcd with jobs := [] } := by rw [ha, addFlight_frame]; exact fcd_t
  obtain ⟨w, hw⟩ : ∃ w : State, w = { a with fcd := { a.fcd with coded := a.fcd.coded ++ [{ flight := v.id, ctx := j.ctx, st := st }] } } := ⟨_, rfl⟩
  have parts : w.zns = a.zns ∧ w.car = a.car ∧ w.fcd.jobs = [] ∧ w.fcd.ctxs = s.fcd.ctxs ∧
      w.fcd.coded = [{ flight := v.id, ctx := j.ctx, st := st }] := by
    rw [hw]
    refine ⟨rfl, rfl, ?_, ?_, ?_⟩
    · show a.fcd.jobs = []
      rw [fcd_a]
    · show a.fcd.ctxs = _
      rw [fcd_a]
    · show a.fcd.coded ++ _ = _
      rw [fcd_a, coded]
      rfl
  obtain ⟨zns_w, car_w, jobs_w, ctxs_w, coded_w⟩ := parts
  have zones_w : ∀ y, w.zone y = t.zone y := fun y => by rw [State.zone, zns_w, zns]; rfl
  have place : s.placeRecord 0 j h c cls z at_ key record st = w := by
    have id : v.id = (t.newFlight h .frameAppend c cls (some z)).id := by rw [hv]
    rw [run, ← hv, ← ha, ← id, ← hw]
    exact settleCodec_idle jobs_w
  refine ⟨w, place, ?_, fun y other => ?_, jobs_w, ctxs_w, v, by rw [car_w]; exact flights, ?_⟩
  · rw [zones_w, wp, zones]
  · rw [zones_w, others y other, zones]
  · rw [coded_w, hv]
    exact ⟨rfl, rfl, rfl, rfl, rfl, rfl, rfl, rfl⟩

end Coded

end Sys2Proof.Proofs
end

section
/-! Settles O55: a lane that has decoded a record, and the rows of the codec commands (R223 to R225, R239, R243 to R255). -/

namespace Sys2Proof.Proofs

open Sys2Proof Sys2Proof.Machine

section Ends

variable {s : State} {v : Flight} {j : CodecJob} {len buf : Nat}

/-- The one flight of a module is a Frame Read without senses, and the codec's one job decodes it. -/
structure Decoding (s : State) (v : Flight) (j : CodecJob) (len buf : Nat) : Prop where
  flights : s.car.flights = [v]
  jobs : s.fcd.jobs = [j]
  work : j.work = .read v.id len buf
  kind : v.kind = .frameRead
  senses : v.senses = []
  heard : v.squashed = false
  host : v.ticket = none ∧ v.peer = none
  keys : s.sec.keyErasing = none
  blocks : s.fls.blocks = []

/-- What `t` keeps of `s` as its one Frame Read leaves: the zones, the blocks, what went out, and the codec but for its job. -/
structure ReadLeft (s t : State) : Prop where
  flights : t.car.flights = []
  fcd : t.fcd = { s.fcd with jobs := [] }
  zns : t.zns = s.zns
  fls : t.fls = s.fls
  hif : t.hif = s.hif

theorem removeFlight_decoding (d : Decoding s v j len buf) : ReadLeft s (s.removeFlight v) := by
  obtain ⟨flights, jobs, work, kind, senses, heard, ⟨ticket, peer⟩, keys, blocks⟩ := d
  obtain ⟨a, ha⟩ : ∃ a : State, a = ({ s with car := { s.car with flights := s.car.flights.filter (fun x => decide (x.id ≠ v.id)) } } : State).setCarriage
      v.carriage { s.carriage v.carriage with outstanding := (s.carriage v.carriage).outstanding - 1 } := ⟨_, rfl⟩
  have parts : a.car.flights = [] ∧ a.fcd = s.fcd ∧ a.zns = s.zns ∧ a.fls = s.fls ∧ a.hif = s.hif ∧ a.sec = s.sec := by
    rw [ha]
    refine ⟨?_, rfl, rfl, rfl, rfl, rfl⟩
    show s.car.flights.filter (fun x => decide (x.id ≠ v.id)) = []
    rw [flights]
    exact List.filter_cons_of_neg (by simp)
  obtain ⟨flights_a, fcd_a, zns_a, fls_a, hif_a, sec_a⟩ := parts
  have key : a.settleKey = a := by
    rw [State.settleKey, sec_a, keys]
  have jobs_a : a.fcd.jobs = [j] := by rw [fcd_a]; exact jobs
  have dropped : a.dropJob 0 = { a with fcd := { a.fcd with jobs := [] } } := by
    refine dropJob_plain jobs_a ?_
    rw [State.jobCarriage, work]
  have run : s.removeFlight v = { a with fcd := { a.fcd with jobs := [] } } := by
    have left : s.removeFlight v = a.settleKey.codecLeft v := by
      unfold State.removeFlight
      dsimp only
      rw [ticket, peer, ha]
      rfl
    rw [left, key]
    unfold State.codecLeft
    rw [kind]
    refine (if_neg (by decide)).trans ((if_pos rfl).trans ?_)
    rw [jobs_a, List.findIdx?_cons, work]
    dsimp only
    rw [if_pos (decide_eq_true rfl)]
    dsimp only
    rw [dropped]
    exact settleCodec_idle rfl
  rw [run]
  exact ⟨flights_a, by rw [← fcd_a], zns_a, fls_a, hif_a⟩

/-- A Frame Read that ends completes its command, and leaves the zones and the contexts (R254). -/
theorem endFrameRead_facts (d : Decoding s v j len buf) (st : Status) (dw : Nat) :
    Completed (s.endFrameRead v st dw) v.cmd st ∧ (s.endFrameRead v st dw).fcd = { s.fcd with jobs := [] } ∧
      (s.endFrameRead v st dw).zns = s.zns ∧ ∀ o ∈ s.hif.out, o ∈ (s.endFrameRead v st dw).hif.out := by
  obtain ⟨flights, fcd, zns, fls, hif⟩ := removeFlight_decoding d
  obtain ⟨a, ha⟩ : ∃ a, a = s.removeFlight v := ⟨_, rfl⟩
  rw [← ha] at flights fcd zns fls hif
  obtain ⟨b, hb⟩ : ∃ b, b = a.complete v.cmd st (BitVec.ofNat 32 dw) 0 := ⟨_, rfl⟩
  have same := (complete_host a v.cmd st (BitVec.ofNat 32 dw) 0).1
  rw [← hb] at same
  have parts_b : b.car.flights = [] ∧ b.fcd = a.fcd ∧ b.zns = a.zns ∧ b.fls = a.fls :=
    ⟨(congrArg (fun t : State => t.car.flights) same :).trans flights, (congrArg State.fcd same :), (congrArg State.zns same :),
      (congrArg State.fls same :)⟩
  obtain ⟨flights_b, fcd_b, zns_b, fls_b⟩ := parts_b
  obtain ⟨e, he⟩ : ∃ e, e = if st = .success then b.count v.cmd.comp (v.len * 4096) 0 else b := ⟨_, rfl⟩
  have parts_e : e.car.flights = b.car.flights ∧ e.fcd = b.fcd ∧ e.zns = b.zns ∧ e.fls = b.fls ∧ e.hif.out = b.hif.out := by
    rw [he]
    split <;> exact ⟨rfl, rfl, rfl, rfl, rfl⟩
  obtain ⟨flights_e, fcd_e, zns_e, fls_e, out_e⟩ := parts_e
  have released : e.releaseLeft = e := by
    have none_ : e.fls.blocks = [] := by rw [fls_e, fls_b, fls]; exact d.blocks
    rw [State.releaseLeft, none_]
    rfl
  have run : s.endFrameRead v st dw = e := by
    unfold State.endFrameRead
    dsimp only
    rw [d.heard, ← ha]
    rw [show (if false = true then a else a.complete v.cmd st (BitVec.ofNat 32 dw) 0) = b from hb ▸ rfl, ← he]
    have retired : (e.retireRead v).releaseLeft = e := by
      rw [State.retireRead, d.senses]
      exact released
    cases v.zone with
    | none => exact retired
    | some z =>
      dsimp only
      rw [settleZones_idle (flights_e.trans flights_b) z]
      exact retired
  have completed : Completed b v.cmd st := by rw [hb]; exact completed_complete _ _ _ _ _
  rw [run]
  refine ⟨?_, by rw [fcd_e, fcd_b, fcd], by rw [zns_e, zns_b, zns], fun o mem => ?_⟩
  · obtain ⟨q, out, facts⟩ := completed
    exact ⟨q, by rw [out_e]; exact out, facts⟩
  · rw [out_e, hb]
    exact out_complete (by rw [hif]; exact mem) _ _ _ _

end Ends

section Decodes

variable {s : State} {h : HostCmd} {x l len buf : Nat} {v : Flight}

/-- The job of a Frame Read that a lane decodes. -/
def decodingJob (x l len buf : Nat) (v : Flight) : CodecJob := { ctx := x, lane := some l, near := none, work := .read v.id len buf }

theorem decoding_runs (d : Decoding s v (decodingJob x l len buf v) len buf) (serves : s.serves = true) :
    exec (.frameCodingComplete l) s = .next (s.decodedFrame (decodingJob x l len buf v) v len buf) := by
  have first : s.fcd.jobs.findIdx? (fun j => decide (j.lane = some l)) = some 0 := by
    rw [d.jobs, List.findIdx?_cons]
    simp [decodingJob]
  have flight : s.flight v.id = some v := by
    rw [State.flight, d.flights]
    exact List.find?_cons_of_pos (decide_eq_true rfl)
  rw [show exec (.frameCodingComplete l) s = execFrameCodingComplete l s from rfl, execFrameCodingComplete, first]
  dsimp only
  rw [d.jobs]
  dsimp only [List.getElem?_cons_zero, decodingJob]
  rw [flight, serves]
  rfl

/-- A record that is not decoded ends its command with a status, and leaves the contexts and the zones (R253, R254). -/
theorem decoding_fails {st : Status} (d : Decoding s v (decodingJob x l len buf v) len buf) (named : v.cmd = h)
    (run : exec (.frameCodingComplete l) s = .next (s.endFrameRead v st 0)) :
    Goes (.frameCodingComplete l) s (fun t => Completed t h st ∧ t.fcd.ctxs = s.fcd.ctxs ∧ t.zns = s.zns) := by
  obtain ⟨done, fcd, zns, -⟩ := endFrameRead_facts d st 0
  rw [named] at done
  exact ⟨_, run, done, by rw [fcd], zns⟩

/-- What a lane makes of a record whose header is good (R253, R254). -/
def decodedBy (s : State) (x l len buf : Nat) (v : Flight) (lba : Int) : State :=
  match continuity (s.codecCtx x).st (bandOf (v.data.take 64)) with
  | none => s.endFrameRead v .sequenceError 0
  | some la =>
    if buf < leAt (v.data.take 64) 40 4 then s.endFrameRead v .invalidField 0
    else match decodeBand (bandOf (v.data.take 64)) ((v.data.drop 64).take (len - 64)) la with
      | none => s.endFrameRead v (.vendor 0x81) 0
      | some (raw, lb) =>
        if leAt (v.data.take 64) 32 8 ≠ (crcGuard raw).toNat then
          (s.event 0x0700 3 (src 8 l) v.cmd.comp [x, lba]).endFrameRead v (.vendor 0x81) 0
        else (((s.setCodecState x (contextAfter (bandOf (v.data.take 64)) lb) true).emit (.data v.cmd (v.data.take 64))).emit
          (.data v.cmd raw)).endFrameRead v .success raw.length

theorem decodedFrame_bad {j : CodecJob} (bad : len < 64 ∨ v.data.length < len ∨ headerGood (v.data.take 64) len = false) :
    s.decodedFrame j v len buf = s.endFrameRead v (.vendor 0x81) 0 := by
  refine if_pos ?_
  obtain b | b | b := bad
  · exact .inl b
  · exact .inr (.inl b)
  · exact .inr (.inr (by rw [b]; rfl))

theorem decodedFrame_good (heard : v.squashed = false) (long : 64 ≤ len) (whole : len ≤ v.data.length)
    (good : headerGood (v.data.take 64) len = true) : ∃ lba, s.decodedFrame (decodingJob x l len buf v) v len buf = decodedBy s x l len buf v lba := by
  have fine : ¬ (len < 64 ∨ v.data.length < len ∨ (!headerGood (v.data.take 64) len) = true) := by
    rw [good]
    rintro (b | b | b)
    · omega
    · omega
    · exact absurd b (by decide)
  refine ⟨(match s.space v.cmd.nsid, v.zone with
    | some n, some z => (s.zoneSlba n z : Int) + v.start / n.unitsPerLba
    | _, _ => 0), ?_⟩
  unfold State.decodedFrame
  dsimp only
  rw [if_neg fine, heard]
  rfl

/-- An event leaves a Frame Read that is decoded. -/
theorem Decoding.event (d : Decoding s v (decodingJob x l len buf v) len buf) (code level source c : Nat) (fields : List Int) :
    Decoding (s.event code level source c fields) v (decodingJob x l len buf v) len buf := by
  have rest := (event_frame s code level source c fields).rest
  obtain ⟨flights, jobs, work, kind, senses, heard, host, keys, blocks⟩ := d
  exact ⟨(congrArg (fun t : State => t.car.flights) rest :).trans flights, (congrArg (fun t : State => t.fcd.jobs) rest :).trans jobs, work, kind,
    senses, heard, host, (congrArg (fun t : State => t.sec.keyErasing) rest :).trans keys, (congrArg (fun t : State => t.fls.blocks) rest :).trans blocks⟩

/-- A record whose guard differs is damaged: event 0x0700, and the contexts stay (R253). -/
theorem decoding_damaged (d : Decoding s v (decodingJob x l len buf v) len buf) (named : v.cmd = h) {lba : Int}
    (run : exec (.frameCodingComplete l) s = .next ((s.event 0x0700 3 (src 8 l) v.cmd.comp [x, lba]).endFrameRead v (.vendor 0x81) 0)) :
    Goes (.frameCodingComplete l) s (fun t => Completed t h (.vendor 0x81) ∧ t.fcd.ctxs = s.fcd.ctxs ∧ t.zns = s.zns) := by
  have rest := (event_frame s 0x0700 3 (src 8 l) v.cmd.comp [x, lba]).rest
  obtain ⟨done, fcd, zns, -⟩ := endFrameRead_facts (d.event 0x0700 3 (src 8 l) v.cmd.comp [x, lba]) (.vendor 0x81) 0
  rw [named] at done
  refine ⟨_, run, by rw [named]; exact done, ?_, zns.trans (congrArg State.zns rest :)⟩
  rw [fcd]
  exact (congrArg (fun t : State => t.fcd.ctxs) rest :)

/-- A record that decodes goes to the host with its header, and its context takes the new state (R252, R254). -/
theorem decoding_serves (d : Decoding s v (decodingJob x l len buf v) len buf) (named : v.cmd = h) {raw : List Byte} {st : CodecState}
    (run : exec (.frameCodingComplete l) s = .next ((((s.setCodecState x st true).emit (.data v.cmd (v.data.take 64))).emit
      (.data v.cmd raw)).endFrameRead v .success raw.length)) :
    Goes (.frameCodingComplete l) s (fun t => Completed t h .success ∧ Output.data h raw ∈ t.hif.out ∧
      Output.data h (v.data.take 64) ∈ t.hif.out ∧ t.codecCtx x = { s.codecCtx x with st := st, coded := true } ∧
      (∀ y, y ≠ x → t.codecCtx y = s.codecCtx y) ∧ t.zns = s.zns) := by
  obtain ⟨w, hw⟩ : ∃ w : CodecCtx, w = { s.codecCtx x with st := st, coded := true } := ⟨_, rfl⟩
  have real : w ≠ CodecCtx.none := fun e => by
    have off : w.coded = false := by rw [e]; rfl
    rw [hw] at off
    exact Bool.noConfusion off
  obtain ⟨u, hu⟩ : ∃ u : State, u = ((s.setCodecState x st true).emit (.data v.cmd (v.data.take 64))).emit (.data v.cmd raw) := ⟨_, rfl⟩
  have parts : u.codecCtx x = w ∧ (∀ y, y ≠ x → u.codecCtx y = s.codecCtx y) ∧ u.zns = s.zns ∧ Output.data v.cmd raw ∈ u.hif.out ∧
      Output.data v.cmd (v.data.take 64) ∈ u.hif.out ∧ Decoding u v (decodingJob x l len buf v) len buf := by
    obtain ⟨flights, jobs, work, kind, senses, heard, host, keys, blocks⟩ := d
    rw [hw] at real
    rw [hu, hw]
    exact ⟨look_put_of_ne _ _ _ _ real, fun y other => look_put_other _ _ _ _ _ other, rfl, List.mem_cons_self,
      List.mem_cons_of_mem _ List.mem_cons_self, flights, jobs, work, kind, senses, heard, host, keys, blocks⟩
  obtain ⟨here, others, zns_u, data, head, d_u⟩ := parts
  obtain ⟨done, fcd, zns, out⟩ := endFrameRead_facts d_u .success raw.length
  rw [← hu] at run
  have ctxs : ∀ y, (u.endFrameRead v .success raw.length).codecCtx y = u.codecCtx y := fun y => by
    rw [State.codecCtx, fcd]
    rfl
  rw [named] at done data head
  refine ⟨_, run, done, out _ data, out _ head, ?_, fun y other => ?_, zns.trans zns_u⟩
  · rw [ctxs, here, hw]
  · rw [ctxs]
    exact others y other

end Decodes

/-- Settles O55: each row is the lemma of its command or of its lane. -/
theorem frameCodecCommandsCodeAndDecode : Obligations.FrameCodecCommandsCodeAndDecode := by
  intro s h
  refine ⟨fun r => ⟨fun absent zslba len limit desc raw ctx buf record d l => codec_absent r absent ⟨d, l⟩, fun present => ⟨?_, ?_, ?_⟩⟩, ?_, ?_⟩
  · intro zslba len limit desc raw n z u c key o dl rl goes e x b granted
    refine ⟨fun bad => frameAppend_refused r present o ⟨dl, rl⟩ bad, fun start codec grant some_ small legal raw_ jobs coded => ?_⟩
    subst start
    have run := frameAppend_queues (limit := limit) r present o ⟨dl, rl⟩ codec grant some_ small legal raw_
    exact ⟨fun broken => frameAppend_breaks run jobs coded broken, fun l held free => frameAppend_lane run jobs coded held free⟩
  · intro slba recLen ctx buf n z u c key o units
    exact ⟨fun no => frameRead_ungranted r present o no, fun low grant => ⟨fun offline => frameRead_offline r present o ⟨low, grant⟩ offline,
      fun l served inside jobs coded alone clean good pair free =>
        frameRead_lane r present o ⟨low, grant⟩ served inside jobs coded alone clean good pair free⟩⟩
  · intro ctx record n space mine
    have checks := stateCheck_of r present space mine ctx
    refine ⟨fun runs no => state_refused r (by decide) (checks.trans ?_), fun stops => state_refused r (by decide) (checks.trans ?_),
      fun runs low grant jobs coded => state_serves r (checks.trans ?_) grant jobs coded⟩
    · rw [runs, Bool.eq_false_iff.mpr fun y => no ((ctxGranted_iff s _ _).mp y)]
      rfl
    · rw [stops]
      rfl
    · rw [runs, (ctxGranted_iff s _ _).mpr ⟨low, grant⟩]
      rfl
  · intro x l b raw limit c cls z at_ key n jobs coded serves clear space pair room erasing goes
    have one : s.fcd.jobs = [codingJob h x l limit c cls z at_ key b raw] := jobs
    refine ⟨fun bad => coding_unclean one serves clear bad, fun la clean held => ?_⟩
    intro record units
    have run := coding_clean one serves clear clean held room
    refine ⟨fun set exceeds => coding_lost one (run.trans (by rw [if_pos ⟨set, exceeds⟩])), fun within open_ => ?_⟩
    rw [if_neg (fun y => within.elim y.1 (Nat.not_le.mpr y.2))] at run
    refine ⟨fun beyond => coding_lost one (run.trans (by rw [place_beyond (record := codedRecord x at_ b raw la) one space pair open_ beyond])), fun fits => ?_⟩
    obtain ⟨t, place, facts⟩ := place_takes (c := c) (cls := cls) (at_ := at_) (key := key) (record := codedRecord x at_ b raw la)
      (st := contextAfter b (codeBand b raw la).1) one coded space pair open_ fits
    rw [place] at run
    exact ⟨t, run, facts⟩
  · intro x l recLen buf v one coded alone named kind senses heard zone ticket peer serves erasing blocks goes hd b fails
    have d : Decoding s v (decodingJob x l recLen buf v) recLen buf := ⟨alone, one, rfl, kind, senses, heard, ⟨ticket, peer⟩, erasing, blocks⟩
    have run := decoding_runs d serves
    refine ⟨fun bad => decoding_fails d named (run.trans (by rw [decodedFrame_bad bad])), fun long whole good => ?_⟩
    obtain ⟨lba, goes_⟩ := decodedFrame_good (s := s) (x := x) (l := l) (buf := buf) heard long whole good
    rw [goes_, decodedBy] at run
    refine ⟨fun broken => decoding_fails d named (run.trans (by rw [broken])), fun la held => ?_⟩
    rw [held] at run
    dsimp only at run
    refine ⟨fun small => decoding_fails d named (run.trans (by rw [if_pos small])), fun room => ?_⟩
    rw [if_neg (Nat.not_lt.mpr room)] at run
    refine ⟨fun bad => decoding_fails d named (run.trans (by rw [bad])), fun raw lb decoded => ?_⟩
    rw [decoded] at run
    dsimp only at run
    exact ⟨fun differs => decoding_damaged d named (run.trans (by rw [if_pos differs])), fun same => decoding_serves d named (run.trans (by
      rw [if_neg (not_not_intro same)]))⟩

end Sys2Proof.Proofs
end
